-- ==== Sys2Proof/Word.lean ====
section
/-! DEFINITION. The word types of the CT4 (00_scope.md R14: all registers are 32 bits wide; bit 0 is the least
significant) and their plainest helpers. -/

namespace Sys2Proof

/-- A register or memory-window dword (R14, R55). -/
abbrev Word := BitVec 32

/-- A byte of a memory, a cell payload or an image. -/
abbrev Byte := BitVec 8

end Sys2Proof
end

