-- ==== Sys2Proof/Syntax.lean ====
section
/-! DEFINITION. The commands a CT4 takes, with their operands: the rows of spec/opcode_table.json. A command is a software
access, a cell that arrives, an event on a pin, or a step of one of the device's own engines that comes due. -/

namespace Sys2Proof

/-- The two builds (R2). -/
inductive Build where
  | head | tile
  deriving DecidableEq, Repr

/-- The halves of a tile: west holds sinks 0 to 511, east sinks 512 to 1023. -/
inductive Half where
  | w | e
  deriving DecidableEq, Repr

/-- The access paths to the registers, in their order within a CTL cycle (R62). -/
inductive Path where
  | kryty | pcie | remote | mgt
  deriving DecidableEq, Repr

/-- The four views of a page (R53). -/
inductive View where
  | base | set | clr | tog
  deriving DecidableEq, Repr

/-- The PLLs of R90; lane PLL n serves lanes 8n to 8n + 7. -/
inductive Pll where
  | root | dram | eth
  | lane (n : Nat)
  deriving DecidableEq, Repr

/-- The stored items of the Cairn voter (R307); a head has one term per ring port, a tile one term (ring 0). -/
inductive CairnItem where
  | lamp | epoch
  | term (ring : Nat)
  deriving DecidableEq, Repr

/-- The wake sources of R409: an edge, and the levels that the others take: a lane's signal detect, CLKREQ_N driven low, the WAKE pad. -/
inductive WakeSource where
  | mgt
  | ridge (detect : Bool)
  | pcie (clkreqLow : Bool)
  | pin (high : Bool)
  deriving DecidableEq, Repr

/-- What the link ECC says of a read burst (R373). -/
inductive EccResult where
  | clean | corrected | uncorrectable
  deriving DecidableEq, Repr

/-- A Ridge cell as it stands on the wire (R284), its header fields apart. `hcrc` and `trailer` are the check fields as
received; `uncorr` says that the cell overlaps an uncorrectable codeword (R279). Payload bytes past the list's end are 0. -/
structure Cell where
  cls : Nat
  dir : Nat
  hops : Nat
  loc : Bool
  bcast : Bool
  sync : Bool
  rsp : Bool
  err : Bool
  seq : Nat
  dest : Nat
  src : Nat
  stream : Nat
  typ : Nat
  aux : Nat
  hcrc : Nat
  payload : List Byte
  trailer : Nat
  uncorr : Bool
  deriving DecidableEq, Repr

/-- What a check of a signed image found (R106): the header's type, version and claimed key slot, the SHA-384 digest of
the key it carries, and whether the ECDSA P-384 signature verifies against that key. -/
structure ImageCheck where
  present : Bool
  firmware : Bool
  version : Nat
  keySlot : Nat
  keyDigest : Nat
  sigOk : Bool
  deriving DecidableEq, Repr

/-- A Ryupel key record (R109): what it sets, and the check of its signature (`signed` false: it carries none). -/
structure KeyRecord where
  digests : List Nat
  debugLock : Bool
  minVersion : Nat
  signed : Bool
  image : ImageCheck
  deriving DecidableEq, Repr

/-- The accesses of the debug access port (R108). -/
inductive DebugAccess where
  | read (addr : Nat)
  | write (addr : Nat) (value : Word)
  | halt
  | resume
  | memRead (addr : Nat)
  | memWrite (addr : Nat) (value : Word)
  deriving DecidableEq, Repr

/-- An ingest descriptor, its dwords 0 to 5 and 7 as fetched (R114). -/
structure Descriptor where
  addrLo : Nat
  addrHi : Nat
  length : Nat
  dstLo : Nat
  dstHi : Nat
  flags : Nat
  last : Nat
  deriving DecidableEq, Repr

/-- One sample-row segment of an ST 2110-20 packet: row, pixel offset, and its samples as memory units of R112 (a pixel in
format 0x0, a pixel pair in format 0x2). -/
structure StRow where
  row : Nat
  offset : Nat
  units : List Nat
  deriving DecidableEq, Repr

/-- A received ST 2110-20 packet, parsed (R358). -/
structure St2110Packet where
  dstIp : Nat
  srcIp : Nat
  udp : Nat
  pt : Nat
  extSeq : Nat
  marker : Bool
  fieldBit : Bool
  rows : List StRow
  deriving DecidableEq, Repr

/-- A direction of a lane (R302): what this device sends, or what it receives, which follows the far end's transmitter. -/
inductive LaneDir where
  | tx | rx
  deriving DecidableEq, Repr

/-- What a completed bring-up stage observed (R281, R283): the marker's polarity, the lane index it named, the far end's
precoding, the eye height, the converged transmit FFE taps, and whether the far end's frames show ready (R280). -/
structure StageInfo where
  inverted : Bool
  laneIndex : Nat
  farPrecode : Bool
  eye : Nat
  pre : Nat
  main : Nat
  post : Nat
  farReady : Bool
  deriving DecidableEq, Repr

/-- A host request to BAR0 or BAR2 (R55, R338): a read of `count` dwords, or a write of `data` with byte enables `be`. -/
structure HostReq where
  write : Bool
  data : List Word
  count : Nat
  be : Nat
  deriving DecidableEq, Repr

/-- How a read that the device issues over PCIe ended (R336): its data, a Completer Abort, Unsupported Request or poisoned data, or no completion
in time. -/
inductive ReadEnd where
  | ok | error | timeout
  deriving DecidableEq, Repr

/-- An access of the host to BAR4 of a function (R334): a write of the doorbell that the command names, or an access at any offset. -/
inductive Bar4 where
  | bell (idx : Nat) (be : Nat)
  | access (offset : Nat) (req : HostReq)
  deriving DecidableEq, Repr

/-- What a configuration request names (R332, R333, R336, R337): the function's identity, a BAR by its even number, and the fields of its
capabilities that act on the device. -/
inductive CfgReg where
  | vendor | device | revision | classCode
  | bar (n : Nat)
  | power | maxPayload | maxRead | tag10 | extTag | relaxed | ltr | ctoRange | ctoOff | aer | tPowerOn | msixEnable | msixMask
  deriving DecidableEq, Repr

/-- The length of a read on the management port (R360): COUNT, in dwords, and the bytes that the host clocks out of the port before it ends the transaction. -/
structure MgtLen where
  count : Nat
  clocked : Nat
  deriving DecidableEq, Repr

/-- A configuration request (R337). -/
inductive CfgOp where
  | read (r : CfgReg)
  | write (r : CfgReg) (v : Nat)
  deriving DecidableEq, Repr

/-- Control-protocol frames the control-packet path takes (R349 order 4). -/
inductive CtlKind where
  | none | arp | igmp
  | icmp (dstIp : Nat)
  deriving DecidableEq, Repr

/-- A PTP message as the client sees it (R355), with its domain: an Announce, a Sync with the offset from the master in ns that its exchange
measured, another event message, which is timestamped, or another general one. -/
inductive PtpMessage where
  | announce (domain : Nat)
  | sync (domain : Nat) (offset : Int)
  | event
  | other
  deriving DecidableEq, Repr

/-- A PTP message over UDP and IPv4 (R349 order 2). -/
structure PtpFrame where
  dstIp : Nat
  msg : PtpMessage
  deriving DecidableEq, Repr

/-- An Ethernet frame at a side port, without its FCS (R349). -/
structure EthFrame where
  fcsOk : Bool
  da : Nat
  tagged : Bool
  vid : Nat
  stacked : Bool
  ptp : Option PtpFrame
  st : Option St2110Packet
  ctl : CtlKind
  bytes : List Byte
  length : Nat
  deriving DecidableEq, Repr

/-- A transmit slot of the control-packet path (R353), and how the read of it ended. -/
structure CpSlot where
  ended : ReadEnd
  length : Nat
  port : Nat
  bytes : List Byte
  deriving DecidableEq, Repr

/-- A request of a requester to the DRAM controller (R364): one 32-byte burst at a DRAM byte address. -/
structure DramReq where
  requester : Nat
  write : Bool
  addr : Nat
  data : List Byte
  /-- which row fetch of scan-out a burst belongs to (R207); 0 in every other request -/
  tag : Nat := 0
  deriving DecidableEq, Repr

/-- What a row slot observes: the sink pin voltages that the comparators sample, by sink, in mV (R225), the rows whose pad level differs
from the commanded one (R221), and the sink dies of the half (0, 1) that failed the check of this slot's load (R233). The pin of a sink that is
not listed lies between its thresholds. -/
structure RowObs where
  pins : List (Nat × Nat)
  badPads : List Nat
  loadFail : List Nat
  deriving DecidableEq, Repr

/-- What a block's handshake step observes of the outside (R405): a receive direction that is still active, DRAM requests
outstanding. -/
structure ParkAnswer where
  rxActive : Bool
  busy : Bool
  deriving DecidableEq, Repr

/-- A chopper's measurement at the end of a phase (R256, R257): the current, the length of the phase and of the cycle in
ns, and the cycle's peak and valley currents. -/
structure ChopMeas where
  current : Int
  phaseNs : Nat
  cycleNs : Nat
  peak : Int
  valley : Int
  deriving DecidableEq, Repr

/-- A rail and what its converters read at the sense input that is higher, 1.0 = 8.192 V in 32,768 parts (R241, R258). -/
structure RailVolt where
  rail : Nat
  vrail : Nat
  deriving DecidableEq, Repr

/-- The commands of the block: one constructor per row of spec/opcode_table.json, in the table's order. -/
inductive Instr where
  /-- REGISTER_WRITE (R65): A software write to a register field that has no row of its own, judged by class, enable gate, LOCK and range, and counted if ignored -/
  | registerWrite (path : Path) (addr : Nat) (data : List (BitVec 32)) (be : Nat)
  /-- MEMORY_WINDOW_WRITE (R87): A write into a memory-window region, taken under that region's rule: live, enable-gated, inactive bank only, or refused on the active bank -/
  | memoryWindowWrite (path : Path) (addr : Nat) (data : List (BitVec 32)) (be : Nat)
  /-- PAGE_LOCK (R71): A write to CTRL.LOCK freezes or unfreezes the page's RW, HU and W1 fields, its ENABLE and its gated memory regions -/
  | pageLock (path : Path) (addr : Nat) (value : BitVec 32)
  /-- ENABLE (R68): A write of 1 to a page or instance ENABLE runs the block's configuration check, then starts the block or leaves ENABLE at 0 with a reason -/
  | enable (path : Path) (addr : Nat) (value : BitVec 32)
  /-- DISABLE (R69): A write of 0 to ENABLE stops the block at its defined boundary, at once for some blocks and through DRAINING for others -/
  | disable (path : Path) (addr : Nat) (value : BitVec 32)
  /-- DRAIN_DONE (R69): A draining block reaches its stopping boundary and shows DRAINED -/
  | drainDone (addr : Nat)
  /-- COUNTER64_LOW_READ (R80): A read of the low word of a 64-bit counter latches the high word for that access path -/
  | counter64LowRead (path : Path) (addr : Nat)
  /-- CCK_PASS_END (R83): The configuration walker completes a pass; it stores the per-page CRCs and then voids the pass, or records and compares it -/
  | cckPassEnd
  /-- CCK_SNAP (R84): SYS_CCK_CTRL.SNAP makes the first clean pass that begins after the write the committed reference -/
  | cckSnap (path : Path) (view : View)
  /-- CCK_REF_WRITE (R84): A software write to SYS_CCK_REF commits the reference and sets REF_VALID -/
  | cckRefWrite (path : Path) (view : View) (value : BitVec 32)
  /-- CCK_EN_WRITE (R82): A write to SYS_CCK_CTRL.EN starts the walker, or stops it at the end of the current pass, which is then void -/
  | cckEnWrite (path : Path) (view : View) (value : BitVec 32)
  /-- MEMORY_CLEAR_DONE (R439): The clearing of the on-die memory regions after a full reset completes, which allows the boot ROM to hand over -/
  | memoryClearDone
  /-- REF_DETECT (R89): The 20 us REFCLK edge count ends and the reference is chosen, or the crystal is started; in NOREF the count repeats every 1 ms -/
  | refDetect (edges : Nat) (xtal : Bool)
  /-- REF_LOSS (R89): Loss of the selected reference is detected within 2 us, counted, and handled as a loss of root lock -/
  | refLoss
  /-- PLL_ENABLE (R90): A write to CLK_PLL_EN starts or stops PLLs; a write of 0 to ROOT_EN while running on ROOT is refused -/
  | pllEnable (path : Path) (view : View) (value : BitVec 32)
  /-- PLL_LOCK (R90): A PLL reaches lock and its lock bit in CLK_PLL reads 1 -/
  | pllLock (pll : Pll)
  /-- PLL_LOCK_LOSS (R94): A PLL loses lock; for the root PLL on ROOT the device falls back to RC, and for the DRAM PLL every channel is quarantined -/
  | pllLockLoss (pll : Pll)
  /-- TO_ROOT (R93): The command moves Kryty, FAB and CTL onto the root PLL and ungates CORE, provided ROOT_LOCK is 1 -/
  | toRoot (path : Path) (view : View)
  /-- TO_RC (R93): The command moves Kryty, FAB and CTL back to the RC oscillator and gates CORE -/
  | toRc (path : Path) (view : View)
  /-- CLOCK_SWITCH_DONE (R93): A glitch-free clock switch completes within 40 CTL cycles, and the command bit clears -/
  | clockSwitchDone
  /-- POWER_ON_RESET (R95): Supplies rise into range, or VDD_IO leaves its range, and everything is cleared, the always-on island included -/
  | powerOnReset
  /-- RESET_PIN (R95): RESET_N is held low for at least 10 us, which causes a full reset -/
  | resetPin (lowNs : Nat)
  /-- RESET_RELEASE (R424): RESET_N rises, or the internal detector releases 100 us after RAIL_PG; the straps are latched and boot begins -/
  | resetRelease (role : Bool) (half : Bool) (mgtAddr : Nat)
  /-- ARM (R98): BOOT_RESET.ARM arms the software full reset for 1 ms, or restarts the 1 ms -/
  | arm (path : Path) (view : View)
  /-- ARM_EXPIRE (R98): The 1 ms arm window ends and ARM clears -/
  | armExpire
  /-- FULL (R98): BOOT_RESET.FULL written while armed schedules a full reset 10 us later; while not armed it is refused with NOT_ARMED -/
  | full (path : Path) (view : View)
  /-- FULL_RESET (R95): A full reset takes effect and clears every register, the epoch counter, the memory regions, DRAM, counters and Stranded -/
  | fullReset
  /-- WATCHDOG_EXPIRY (R99): The Kryty watchdog expires; a tile resets at once, and a head gives up first and resets 10 ms later -/
  | watchdogExpiry
  /-- LOCKSTEP_MISMATCH (R99): The two Kryty cores disagree, which takes the watchdog path at once with cause LOCKSTEP -/
  | lockstepMismatch
  /-- WDOG_KICK (R99): BOOT_WDOG_KICK restarts the watchdog count -/
  | wdogKick (path : Path) (view : View)
  /-- WDOG_CFG_WRITE (R99): The first valid write to BOOT_WDOG_CFG sets the watchdog period and restarts the count -/
  | wdogCfgWrite (path : Path) (view : View) (value : BitVec 32)
  /-- PERST_N (R95): Host fundamental reset on the head build resets the PCIe link and the HST and DMA pages, and stops the ingest channels -/
  | perstN (low : Bool)
  /-- PLL_LOCK_TIMEOUT (R105): The root PLL is not locked within 1 ms during boot; the boot ROM retries up to 3 times and then shows PLL_FAIL -/
  | pllLockTimeout
  /-- SLOT_VERIFY_DONE (R104): The boot ROM's slot copy and ECDSA verification complete, and the chosen firmware starts from SRAM -/
  | slotVerifyDone (a : ImageCheck) (b : ImageCheck)
  /-- LOAD_DATA_WRITE (R110): A write to BOOT_LOAD_DATA stores one dword in the target slot and advances BOOT_LOAD_PTR; the first such write clears the slot's valid flag -/
  | loadDataWrite (path : Path) (view : View) (value : BitVec 32)
  /-- LOAD_VERIFY (R110): BOOT_LOAD_CMD.VERIFY starts a check of the target slot as the boot ROM would make it -/
  | loadVerify (path : Path) (view : View)
  /-- LOAD_VERIFY_DONE (R110): The load-port verification completes; RESULT is set, the slot may become valid, and in RECOVERY TARGET moves to slot B -/
  | loadVerifyDone (img : ImageCheck)
  /-- KEY_RECORD_APPLY (R109): The Kryty firmware applies a Ryupel key record to the boot record, or rejects it and counts it -/
  | keyRecordApply (rec : KeyRecord)
  /-- RYUPEL_IMAGE_VERIFY (R106): The Kryty firmware checks a Ryupel image signature against its claimed key slot before any of its content is applied -/
  | ryupelImageVerify (img : ImageCheck) (banks : List (Half × Nat))
  /-- DEBUG_ACCESS (R108): An access through the debug access port, restricted to ID pages while DEBUG_LOCK is 1 -/
  | debugAccess (acc : DebugAccess)
  /-- EPOCH_BOUNDARY (R36): The epoch timebase reaches a boundary and the epoch counter advances by 1 -/
  | epochBoundary
  /-- BEACON_SEND (R39): The frame master sends the beacon for boundary T(N) at T(N) - L on every Spur port and out of both ends of every ring -/
  | beaconSend
  /-- BEACON (R41): A node receives a beacon, estimates the frame master's boundary, and trims or sets its timebase -/
  | beacon (port : Nat) (cell : Cell) (arrival : Int)
  /-- EPC_LOCKED (R45): After 8 consecutive epochs with an error of at most 5 ns, the timebase passes to LOCKED -/
  | epcLocked
  /-- PHASE_STEP (R47): At the next latch instant after a beacon error above 2 us, the node lengthens one frame gap to restore phase -/
  | phaseStep
  /-- EPC_PERIOD_WRITE (R37): A period write on the frame master is announced in the next 4 beacons; on any other node it is refused with NOT_MASTER -/
  | epcPeriodWrite (path : Path) (view : View) (value : BitVec 32)
  /-- DMA_DOORBELL (R115): The host writes a channel's producer index to its doorbell and posts descriptors -/
  | dmaDoorbell (head : Option Nat) (ch : Nat) (acc : Bar4) (descs : List Descriptor)
  /-- DMA_DESCRIPTOR_DONE (R115): An ingest descriptor finishes; the CT4 writes back its status and may raise MSI-X or send a DMA event -/
  | dmaDescriptorDone (ch : Nat) (data : List (BitVec 8)) (pcieErr : Bool)
  /-- DMA_READ_TIMEOUT (R336): A read issued by the head gets no completion within the Completion Timeout and is treated as a Completer Abort -/
  | dmaReadTimeout (ch : Nat)
  /-- ST2110_PACKET (R358): A side-port packet matching an ST 2110 stream is reassembled into the line buffer, and frames complete on the marker packet -/
  | st2110Packet (port : Nat) (pkt : St2110Packet)
  /-- SEND_DEADLINE (R132): At T(E) + w_r a source whose last cell has not left the ring stops its frame there and counts LATE -/
  | sendDeadline (src : Nat) (ring : Nat)
  /-- CODEWORD (R279): An RS codeword is decoded; corrected symbols are counted, and an uncorrectable codeword discards the cells it overlaps -/
  | codeword (port : Nat) (corrected : List Nat) (uncorrectable : Bool)
  /-- CELL_FORWARD (R288): A cell header passes its HCRC and hop checks and is forwarded cut-through or consumed -/
  | cellForward (port : Nat) (cell : Cell)
  /-- IDLE (R277): An IDLE cell is received and discarded without forwarding or counting -/
  | idle (port : Nat)
  /-- PIXEL_CELL (R141): A pixel cell is delivered after the duplicate check; capture writes its rectangle pixels and a head may relay it -/
  | pixelCell (port : Nat) (cell : Cell)
  /-- LOCATOR (R140): A locator cell is delivered and starts a frame capture, marks a segment index, or marks a REPEAT for the epoch -/
  | locator (port : Nat) (cell : Cell)
  /-- REG_RD (R340): A target node performs a remote register read and answers with REG_RSP -/
  | regRd (port : Nat) (cell : Cell)
  /-- REG_WR (R340): A target node performs a remote register write, or refuses one from a foreign head, and answers unless the write is posted -/
  | regWr (port : Nat) (cell : Cell)
  /-- REG_RSP (R340): The head receives a register response and completes the host request, with an error if ERR is set -/
  | regRsp (port : Nat) (cell : Cell)
  /-- REMOTE_TIMEOUT (R75): No response arrives within the 100 us ring timeout, and the request ends with ABSENT_NODE -/
  | remoteTimeout (tag : Nat)
  /-- EVENT (R342): An EVENT cell reaches the lead head, which writes a record into the chosen event queue or drops it at a full queue -/
  | event (port : Nat) (cell : Cell)
  /-- EVQ_HOLDOFF_EXPIRE (R343): An event queue's holdoff ends while records remain unconsumed, and vector 48 + q is raised -/
  | evqHoldoffExpire (q : Nat)
  /-- EVQ_DOORBELL (R343): The host writes an event queue's consumer index and frees records -/
  | evqDoorbell (q : Nat) (acc : Bar4)
  /-- DISCOVER (R297): A tile receives DISCOVER, takes its position from HOPS, and forwards the cell; the head records COUNT at end B -/
  | discover (port : Nat) (cell : Cell)
  /-- RING_DISCOVER (R297): RINGp_CMD.DISCOVER makes the head send a DISCOVER cell from end A -/
  | ringDiscover (path : Path) (view : View) (ring : Nat)
  /-- NEIGH (R298): A NEIGH cell is received in stage 9; the end accepts or rejects the neighbour, and a tile without a position may take one -/
  | neigh (port : Nat) (cell : Cell)
  /-- DLY_REQ (R300): A node answers a delay request with DLY_RSP carrying its residence time -/
  | dlyReq (port : Nat) (cell : Cell) (residence : Nat)
  /-- DLY_RSP (R300): A delay response yields one link-delay result; after 16 results the trimmed mean becomes RINGp_LDLY -/
  | dlyRsp (port : Nat) (cell : Cell) (roundTrip : Nat)
  /-- DELAY_MEASURE_START (R300): A delay measurement of 16 exchanges begins at stage 10, once per 1,024 epochs, or on REMEASURE -/
  | delayMeasureStart (port : Nat)
  /-- REMEASURE (R300): RINGp_CMD.REMEASURE starts a delay measurement of the port's links -/
  | remeasure (path : Path) (view : View) (ring : Nat)
  /-- DLY_REQ_SEND (R300): The 1 us spacing ends and the next DLY_REQ of a measurement leaves, with its departure timestamped -/
  | dlyReqSend (port : Nat)
  /-- LINKDOWN (R299): A node receives LINKDOWN and records the lost link in RINGp_BREAK -/
  | linkdown (port : Nat) (cell : Cell)
  /-- LINKUP (R299): A node receives LINKUP and removes the link from RINGp_BREAK -/
  | linkup (port : Nat) (cell : Cell)
  /-- SHARE_REQ (R292): A head receives SHARE_REQ and paces that ring end for 100 us -/
  | shareReq (port : Nat) (cell : Cell)
  /-- SHARE_REQ_REPEAT (R292): Every 50 us while an owed best-effort cell still goes ahead of pixels, the node repeats SHARE_REQ -/
  | shareReqRepeat (port : Nat)
  /-- PACING_EXPIRE (R292): The 100 us pacing of a ring end ends -/
  | pacingExpire (port : Nat)
  /-- CELL_BOUNDARY (R291): At each output cell boundary the port sends the highest-class waiting cell, honouring the best-effort share, or an IDLE cell -/
  | cellBoundary (port : Nat)
  /-- TEST (R305): The port checker receives a TEST cell and checks its PRBS31 payload -/
  | test (port : Nat) (cell : Cell)
  /-- LANE_STAGE_DONE (R281): A lane or port completes a bring-up stage; after stage 10 the port is UP -/
  | laneStageDone (lane : Nat) (info : StageInfo)
  /-- STAGE_TIMEOUT (R282): A bring-up stage times out or fails, and every lane of the port returns to stage 1 -/
  | stageTimeout (lane : Nat) (reason : Nat)
  /-- PORT_RETRY (R282): A FAILED port retries bring-up every 100 ms -/
  | portRetry (port : Nat)
  /-- LOSS_OF_LOCK (R282): A lane of an UP port loses CDR, block or FEC lock, and the port goes DOWN -/
  | lossOfLock (lane : Nat)
  /-- QUIET_ENTER (R302): In Shoulder with QUIET_EN set, an output idle for QUIET_IDLE puts its direction into QUIET -/
  | quietEnter (port : Nat) (dir : LaneDir)
  /-- QUIET_REFRESH (R302): A QUIET direction sends its refresh of 8 marker codewords every 10 us -/
  | quietRefresh (port : Nat)
  /-- QUIET_EXIT (R302): A QUIET direction returns to ACTIVE within 1 us of a cell to send -/
  | quietExit (port : Nat) (dir : LaneDir)
  /-- CAIRN_COPY_DISAGREE (R309): Copies of a Cairn item disagree; an odd copy is scrubbed, or a three-way split is recorded -/
  | cairnCopyDisagree (item : CairnItem) (c0 : Nat) (c1 : Nat) (c2 : Nat) (within1ms : Bool)
  /-- LISTEN_END (R315): After 3 listening epochs a head becomes standby on a ring, or takes it with the next term -/
  | listenEnd (ring : Nat)
  /-- CMD_RESIGN (R318): CRN_CMD.RESIGN makes an active head give up with reason MANUAL -/
  | cmdResign (path : Path) (view : View)
  /-- RESIGN (R325): A standby receives RESIGN from its peer and, if enabled, starts its takeover -/
  | resign (port : Nat) (cell : Cell)
  /-- CMD_TAKE (R325): CRN_CMD.TAKE makes a standby take over now -/
  | cmdTake (path : Path) (view : View)
  /-- BEACON_LOSS_TAKEOVER (R325): No beacon of the peer's term arrives for 3 epochs on every protected ring, and the standby starts its takeover -/
  | beaconLossTakeover
  /-- FOLD_CHECK_DONE (R326): The takeover's Fold read and CRC check complete; new terms are set and TAKE cells are sent -/
  | foldCheckDone
  /-- TAKEOVER_COMPLETE (R326): The firmware has written the Fold and enabled the blocks, and the head shows ACTIVE -/
  | takeoverComplete
  /-- TAKE (R320): A tile receives TAKE for its ring and follows the new master if it ranks higher -/
  | take (port : Nat) (cell : Cell)
  /-- FOLD_COMMIT (R323): FLD_CMD.COMMIT captures and ships a Fold, or is held and merged while one runs -/
  | foldCommit (path : Path) (view : View)
  /-- FOLD_PERIOD (R323): The Fold capture period expires and a capture starts -/
  | foldPeriod
  /-- FOLD_CAPTURE_DONE (R323): A Fold capture completes, or restarts or is abandoned after writes, and shipping to the peer begins -/
  | foldCaptureDone
  /-- FOLD_DATA (R324): The standby receives a Fold fragment and, on the complete Fold, checks it, writes it and answers ACK or NACK -/
  | foldData (port : Nat) (cell : Cell)
  /-- FOLD_ACK (R324): The active head receives the peer's acknowledgement of a Fold -/
  | foldAck (port : Nat) (cell : Cell)
  /-- FOLD_NACK (R324): The active head receives a NACK and retries the shipment -/
  | foldNack (port : Nat) (cell : Cell)
  /-- FOLD_ACK_TIMEOUT (R324): No answer arrives within 50 ms; the shipment is retried, and after 3 retries it fails and is counted -/
  | foldAckTimeout
  /-- FOLD_VERIFY (R322): FLD_CMD.VERIFY checks the CRC of the valid Fold slot -/
  | foldVerify (path : Path) (view : View)
  /-- FOLD_VERIFY_DONE (R322): The Fold slot CRC check completes within 6.3 ms -/
  | foldVerifyDone
  /-- BAR2_REQUEST (R338): A host BAR2 request is resolved through its aperture to a local, head or tile target and sent there -/
  | bar2Request (offset : Nat) (req : HostReq)
  /-- APERTURE_WRITE (R339): A write to HST_APTa changes VALID, and changes NODE only while VALID reads 0 -/
  | apertureWrite (path : Path) (view : View) (a : Nat) (value : BitVec 32)
  /-- HOST_RD (R346): The lead head performs a host-memory read for a remote head and returns HOST_CPL cells -/
  | hostRd (port : Nat) (cell : Cell) (data : List (BitVec 8)) (ended : ReadEnd)
  /-- HOST_CPL (R346): A remote head receives read data from host memory -/
  | hostCpl (port : Nat) (cell : Cell)
  /-- HOST_WR (R346): The lead head performs a host-memory write for a remote head -/
  | hostWr (port : Nat) (cell : Cell)
  /-- DOORBELL (R346): A remote head receives a relayed producer-index doorbell for one of its channels -/
  | doorbell (port : Nat) (cell : Cell)
  /-- ETH_FRAME (R349): A side port receives an ingress frame and classifies it to PTP, ST 2110, the control-packet path, or a destination lookup -/
  | ethFrame (port : Nat) (frame : EthFrame)
  /-- FRAME (R351): A best-effort FRAME cell arrives and is reassembled into an Ethernet frame for egress, or discarded -/
  | frame (port : Nat) (cell : Cell)
  /-- CP_TX_DOORBELL (R353): The host writes the control-packet transmit producer index, and the slots are sent in ring order -/
  | cpTxDoorbell (idx : Nat) (be : Nat) (slots : List CpSlot)
  /-- CP_RX_DOORBELL (R353): The host writes the control-packet receive consumer index and frees receive slots -/
  | cpRxDoorbell (idx : Nat) (be : Nat)
  /-- PTP_MESSAGE (R355): The PTP client processes a timestamped PTP message and steers the clock, updating the PTP state -/
  | ptpMessage (port : Nat) (msg : PtpMessage)
  /-- PTP_ANNOUNCE_TIMEOUT (R356): No Announce arrives within announceReceiptTimeout, and the state becomes LISTEN, the loss of PTP -/
  | ptpAnnounceTimeout
  /-- MGT_WRITE (R360): A management-port write transaction is checked and its dwords are performed after the last byte or PEC -/
  | mgtWrite (addr : Nat) (count : Nat) (data : List (BitVec 8)) (pec : Option (BitVec 8))
  /-- MGT_READ (R360): A management-port read transaction performs COUNT reads and returns the bytes -/
  | mgtRead (addr : Nat) (len : MgtLen)
  /-- MGT_SCL_TIMEOUT (R359): SCL is held low for 30 ms with TMO_EN set, and the transaction times out -/
  | mgtSclTimeout
  /-- MGT_WAKE_TIMEOUT (R361): The device is not up within 20 ms of a Valley address match; the port releases SCL and NACKs -/
  | mgtWakeTimeout
  /-- DRAM_REQUEST (R364): A requester's request enters a channel queue and is scheduled, with activations counted for row-hammer defence -/
  | dramRequest (req : DramReq)
  /-- SELF_REFRESH_IDLE (R400): After 20 us without a request in Shoulder, the channel re-enters self-refresh -/
  | selfRefreshIdle (ch : Nat)
  /-- DRAM_READ_DONE (R373): A read burst returns, is link-ECC checked, and is delivered, reissued once, or answered with an error -/
  | dramReadDone (ch : Nat) (result : EccResult)
  /-- TREFI (R367): Each tREFI the channel's owed refresh count rises by 1 -/
  | trefi (ch : Nat)
  /-- REFRESH_ISSUE (R367): The channel issues an owed REFab when it holds no RT request, at the postponement limit, or for self-refresh entry -/
  | refreshIssue (ch : Nat)
  /-- MR4_READ (R368): Every 250 us the channel reads MR4 and changes the refresh rate or HOT -/
  | mr4Read (ch : Nat) (value : Nat) (wants2x : Bool) (beyond : Bool)
  /-- REFRESH_WINDOW_END (R370): At the end of each refresh window the activation table clears and throttles end -/
  | refreshWindowEnd (ch : Nat)
  /-- POINT_RD (R377): The training helper writes the pattern, reads it with the TRIAL read settings, and compares -/
  | pointRd (path : Path) (view : View) (ch : Nat)
  /-- POINT_WR (R377): The training helper writes with the TRIAL write settings and reads back with ACTIVE settings -/
  | pointWr (path : Path) (view : View) (ch : Nat)
  /-- CBT (R377): A command-bus training point with the TRIAL CA delay, allowed only while the page is disabled -/
  | cbt (path : Path) (view : View) (ch : Nat)
  /-- WCK_LEVEL (R377): A WCK-to-CK leveling point with the TRIAL WCK delay, allowed only while the page is disabled -/
  | wckLevel (path : Path) (view : View) (ch : Nat)
  /-- MRW (R377): The helper writes DATA to a mode register while the page is disabled -/
  | mrw (path : Path) (view : View) (ch : Nat)
  /-- MRR (R377): The helper reads a mode register into TRN_RESULT.DATA -/
  | mrr (path : Path) (view : View) (ch : Nat)
  /-- TRAIN_COMMIT (R379): OP COMMIT schedules TRIAL to become ACTIVE at the channel's next REFab -/
  | trainCommit (path : Path) (view : View) (ch : Nat)
  /-- ABANDON (R380): OP ABANDON discards TRIAL and sets TRAIN_FAIL for the channel -/
  | abandon (path : Path) (view : View) (ch : Nat)
  /-- TRAIN_POINT_DONE (R377): A training-helper operation completes, BUSY clears, and its result is posted -/
  | trainPointDone (ch : Nat) (fail : BitVec 16) (data : BitVec 8)
  /-- SENSOR_CONVERSION (R384): Every 50 us each temperature sensor converts and its reading is updated -/
  | sensorConversion (sensor : Nat) (result : Option Int)
  /-- CAL_RUN (R388): CAL_CMD.RUN makes a calibration run due at once -/
  | calRun (path : Path) (view : View)
  /-- CAL_ABORT (R395): CAL_CMD.ABORT abandons the calibration run in progress -/
  | calAbort (path : Path) (view : View)
  /-- CAL_SLICE (R390): A 1.0 us measurement slice runs in the frame gap; the first slice snapshots temperatures -/
  | calSlice (result : Int)
  /-- CAL_APPLY (R393): At the start of each slice window, each item moves one apply step toward its result; at the end the references update -/
  | calApply
  /-- PWR_GO (R404): PWR_CMD.GO starts the transition to TARGET: the entry handshake or the unparking -/
  | pwrGo (path : Path) (view : View) (target : Nat)
  /-- BLOCK_PARK (R405): A block accepts its handshake step and parks at its boundary, and the next step is visited -/
  | blockPark (answer : ParkAnswer)
  /-- DELAY_LIMIT (R405): A delaying block's limit ends; it refuses, or ETH drops its frames and accepts -/
  | delayLimit
  /-- WAKE_ARM (R406): From the seventh CTL cycle after commit the wake logic is armed -/
  | wakeArm
  /-- WAKE (R409): An enabled wake source fires; the island raises RAIL_EN or closes the switches -/
  | wake (source : WakeSource) (lane : Nat)
  /-- RAIL_PG_RISE (R410): Rails or retention domains report ready, and Kryty starts or resumes once the RC oscillator is ready -/
  | railPgRise (rcReady : Bool)
  /-- WAKE_TIMEOUT (R410): A wake attempt exceeds WAKE_TIMEOUT; rails drop for 1 ms, or after the last attempt the device is Stranded -/
  | wakeTimeout
  /-- WAKE_RETRY (R410): The 1 ms gap ends and the next wake attempt starts -/
  | wakeRetry
  /-- RESTORE (R403): PWR_CMD.RESTORE checks the state image CRC and writes it back, bypassing the enable gate -/
  | restore (path : Path) (view : View)
  /-- RESTORE_DONE (R403): The state-image restore completes and IMAGE_OK reads 1 -/
  | restoreDone
  /-- RAIL_EN_ASSERT (R423): VDD_IO has been in range for 100 us, and the island drives RAIL_EN high -/
  | railEnAssert
  /-- RAIL_PG_FALL (R425): RAIL_PG falls outside Valley; sinks, rows and gates go off within 1 us, and power-on reset follows -/
  | railPgFall
  /-- ROW_SLOT (R192): A row slot begins; rows switch in the dead window, codes latch, and pulses are driven -/
  | rowSlot (half : Half) (obs : RowObs)
  /-- PROBE (R228): A lamp unmeasured for 256 frames receives a 48 ns, 1 mA probe in its dead window -/
  | probe (half : Half) (sink : Nat) (row : Nat) (mv : Nat)
  /-- LAMP_AGE_OUT (R226): A GOOD lamp unmeasured for 256 consecutive frames becomes UNVERIFIED -/
  | lampAgeOut (half : Half) (sink : Nat) (row : Nat)
  /-- LATCH_INSTANT (R192): The first CTL clock of the frame gap; commits, frame commits, bank changes and scan-buffer swaps take effect -/
  | latchInstant
  /-- PAIR_TEST (R230): In the frame gap each die tests 16 neighbour-pin pairs and forces shorted pairs off -/
  | pairTest (half : Half) (pair : Nat) (mv : Nat)
  /-- LEAK_TEST (R232): In the frame gap all sinks pull 1 mA with rows high to detect a conducting row -/
  | leakTest (half : Half) (mv0 : Nat) (mv1 : Nat)
  /-- NB_RESTORE (R231): LMP_RESTORE returns cleared forced-off sinks to service -/
  | nbRestore (path : Path) (view : View) (half : Half) (dword : Nat) (value : BitVec 32)
  /-- SINK_DIE_CHECK_DONE (R233): The enable check that both sink dies answer completes within 50 us -/
  | sinkDieCheckDone (half : Half) (answer0 : Bool) (answer1 : Bool)
  /-- DERATE_UPDATE (R222): Once per ms the derating factor moves toward the target from the hottest sink die -/
  | derateUpdate
  /-- LYR_COMMIT (R145): LYR_COMMIT marks layers' pending values to take effect at the next latch instant -/
  | lyrCommit (path : Path) (view : View) (half : Half) (mask : BitVec 16)
  /-- LYR_TOUCH (R147): LYR_TOUCH marks a layer's buffer content as changed, raising GEN at the next latch instant -/
  | lyrTouch (path : Path) (view : View) (half : Half) (mask : BitVec 16)
  /-- SCN_GO (R208): SCN_COMMIT.GO schedules SCN_FB for the next latch instant -/
  | scnGo (path : Path) (view : View) (half : Half)
  /-- END (R156): The press list ends; the engine waits for the datapath and hands the buffer to darning -/
  | pressEnd (half : Half)
  /-- LAYER (R156): The press instruction issues one step for a layer -/
  | pressLayer (half : Half)
  /-- ORDER (R156): The press instruction issues one step per masked layer in order -/
  | pressOrder (half : Half)
  /-- BLEND (R156): The press instruction sets the BLEND mode and balpha -/
  | pressBlend (half : Half)
  /-- WINDOW (R156): The press instruction sets the clip rectangle -/
  | pressWindow (half : Half)
  /-- FLAT (R156): The press instruction opens a flatten group of n steps -/
  | pressFlat (half : Half)
  /-- WAITL (R156): The press instruction waits until issued steps reading a layer are done -/
  | pressWaitl (half : Half)
  /-- SYNC (R156): The press instruction waits for the other half -/
  | pressSync (half : Half)
  /-- PRESS_WAIT_RELEASE (R158): A waiting SYNC or WAITL completes and the sequencer continues -/
  | pressWaitRelease (half : Half)
  /-- JUMP (R156): The press instruction continues at the target when the condition holds -/
  | pressJump (half : Half)
  /-- COND (R156): The press instruction sets the condition flag from a test -/
  | pressCond (half : Half)
  /-- DATAPATH_STEP (R152): The blend datapath executes one queued step, reading or re-flattening cache -/
  | datapathStep (half : Half) (waits : Nat)
  /-- DARN_RUN_END (R169): The darning run completes, and the half's composition is complete -/
  | darnRunEnd (half : Half)
  /-- DRN_LOAD (R187): DRN_CMD.LOAD copies a bank image from DRAM into the inactive bank -/
  | drnLoad (path : Path) (view : View) (half : Half)
  /-- DRN_LOAD_DONE (R187): The bank LOAD completes and its CRC is posted -/
  | drnLoadDone (half : Half)
  /-- DRN_VERIFY (R187): DRN_CMD.VERIFY computes the CRC of the inactive bank -/
  | drnVerify (path : Path) (view : View) (half : Half)
  /-- DRN_VERIFY_DONE (R187): The bank CRC computation completes -/
  | drnVerifyDone (half : Half)
  /-- MAP_CHECK_DONE (R173): The lamp-map enable check completes and the DRN page runs or refuses -/
  | mapCheckDone (half : Half)
  /-- SLOT_DUE (R243): A loop slot becomes due; a slot still pending skips the sample -/
  | slotDue (slot : Nat)
  /-- LOOP_RUN_START (R243): With no run in progress, the lowest due slot's run starts and latches targets, mode and sense; `clocks`: the CTL clocks
  that pass before -/
  | loopRunStart (clocks : Nat)
  /-- LD (R239): The loop instruction loads a source into a register -/
  | loopLd
  /-- ST (R239): The loop instruction stores to exchange words -/
  | loopSt
  /-- MAC (R239): The loop instruction multiplies and accumulates -/
  | loopMac
  /-- MSUB (R239): The loop instruction multiplies and subtracts -/
  | loopMsub
  /-- SAT (R239): The loop instruction saturates to Q1.15 -/
  | loopSat
  /-- LIM (R239): The loop instruction clamps between limits -/
  | loopLim
  /-- SELMIN (R239): The loop instruction selects the least active lane -/
  | loopSelmin
  /-- TRK (R239): The loop instruction applies back-calculation tracking, or the hand-over preset -/
  | loopTrk
  /-- TAB (R240): The loop instruction performs a piecewise-linear table lookup -/
  | loopTab
  /-- FF (R252): The loop instruction adds the row-load feed-forward term -/
  | loopFf
  /-- OUT (R250): The loop instruction sends the rail set-point, with hand-over slew -/
  | loopOut
  /-- WAIT (R239): The loop instruction ends the run -/
  | loopWait
  /-- HALT (R247): The loop instruction ends the run, zeroes the set-point and halts the slot -/
  | loopHalt
  /-- LOP_RESTART (R247): LOP_RESTART clears a halted slot and resumes it -/
  | lopRestart (path : Path) (view : View) (mask : BitVec 24)
  /-- LOP_CHECK_DONE (R245): The loop-engine enable check completes and the engine runs or refuses -/
  | lopCheckDone
  /-- HEADROOM_REPORT (R217): A sink die reports a rail's lowest pin voltage for a slot -/
  | headroomReport (half : Half) (rail : Nat) (minPin : Option Nat)
  /-- FF_ENTRY (R253): A row-load entry comes into force for FF at slot start less the lead -/
  | ffEntry (rail : Nat)
  /-- CHOP_ON_END (R256): The on-phase ends on th_hi after 40 ns, and the off-phase begins -/
  | chopOnEnd (rail : Nat) (meas : ChopMeas)
  /-- CHOP_OFF_END (R256): The off-phase ends on th_lo, and the cycle ends -/
  | chopOffEnd (rail : Nat) (meas : ChopMeas)
  /-- CHOP_CYCLE_LIMIT (R256): A cycle reaches 3,333 ns and the phase ends at once -/
  | chopCycleLimit (rail : Nat) (meas : ChopMeas)
  /-- OVERCURRENT (R258): Current reaches OC_LIM and the on-phase ends -/
  | overcurrent (rail : Nat) (meas : ChopMeas)
  /-- OVERVOLTAGE (R258): VRAIL reaches OV_LIM and both gates go low -/
  | overvoltage (rail : RailVolt)
  /-- OV_RECOVER (R258): VRAIL falls below OV_LIM - 256 and switching resumes -/
  | ovRecover (rail : Nat) (vrail : Nat)
  /-- TRAVERSE_CLOCK (R262): Each enabled Traverse generator advances its motion by one CTL clock -/
  | traverseClock (dup : List Nat)
  /-- STOP (R268): TRV_CMD.STOP makes a generator LOST -/
  | trvStop (path : Path) (view : View) (mask : BitVec 4)
  /-- RELOAD (R269): TRV_CMD.RELOAD restores a LOST generator at its TARGET -/
  | trvReload (path : Path) (view : View) (mask : BitVec 4)
  /-- KERNEL_LOAD_DONE (R124): The custom scaler coefficient load started at source enable completes within 10 us, and COND leaves LOADING -/
  | kernelLoadDone (src : Nat)
  /-- REGISTER_READ (R75): A local register read over BAR0 or by Kryty that is a bus error is refused with Completer Abort or a data abort and logged in SYS_BERR -/
  | registerRead (path : Path) (addr : Nat) (count : Nat)
  /-- CONFIGURATION_REQUEST (R337): A PCIe configuration request is answered with Retry Status before RUN_FW or RECOVERY, and otherwise may change the function's D0 or D3hot state -/
  | configurationRequest (fn : Nat) (op : CfgOp)
  /-- PCIE_LINK_STATE (R337): The PCIe link trains, enters or leaves L1 and its substates, or goes down, updating HST_LINK -/
  | pcieLinkState (st : Nat) (speed : Nat) (width : Nat) (l1ss : Nat)
  /-- SIDE_PORT_LINK (R348): A side port gains or loses PCS block lock, FEC lock or link, updating ETHp_STATE -/
  | sidePortLink (port : Nat) (blockLock : Bool) (fecLock : Bool) (up : Bool)
  /-- CONFIGURATION_UPSET (R85): An upset flips a bit of checked configuration content, which the next clean walker pass finds as a mismatch -/
  | configurationUpset (addr : Nat) (bit : Nat)
  deriving DecidableEq, Repr

end Sys2Proof
end

