-- ==== Sys2Proof/Config.lean ====
section
/-! DEFINITION. What the spec leaves open: constants without a body, applied to the state's counter of free values (or to
the operands they depend on), so that nothing can be proved of a value the spec does not state. -/

namespace Sys2Proof.Config

/-- The change of the trim a node makes at a beacon (R41 states the aim and the range of the trim, not its law); its
result is brought into the range by the operation that uses it. Log entry 10. -/
opaque trimStep : Nat → Int

/-- Whether a Lanczos coefficient is rounded up, in the parity of the value (R124 names the window, the number of taps and their sum, and states no
rounding): free in the axis, the phase and the tap. Log entry 11. -/
opaque lanczos : Nat → Nat → Nat → Int

/-- The frame master's beacon lead L in µs above the least, as another node has it (R41 uses L at every node; EPC_LEAD is used only on the frame
master, and no cell carries it); the operation that uses it brings it into the range of R39. Log entry 124. -/
opaque masterLead : Nat → Nat

/-- The levels that stand on the GPIO pads from outside at a time in ns, bit i for GPIOi (R420): no command of the table drives them. Log entry 186. -/
opaque gpioPads : Nat → Nat

/-- A value the spec leaves open, fresh at each use. Log entry 12. -/
opaque free : Nat → Nat

/-- The wire field of a component that is too large for it: scaled above 255 in format 0x3, or widened above 1,023 (R123, R125, R127 state no
result). Free in the number of its values and the component. Log entry 142. -/
opaque overRange : Nat → Nat → Nat

/-- Neldor's assigned PCI vendor ID (R333): the spec states no value. Log entry 132. -/
opaque vendorId : Nat

/-- The change of the PTP clock's rate that the firmware makes at a Sync, in parts per 10^9 (R355 states the range and not the law); its result is
brought into the range by the operation that uses it. Log entry 133. -/
opaque ptpTrim : Nat → Int

/-- The SHA-384 digest of Neldor's firmware key in the mask ROM, as a 384-bit number (R107): the spec states no value. Log
entry 13. -/
opaque maskRomDigest : Nat

/-- Where the USER area of head DRAM begins (R322 names the area and states no address). Log entry 14. -/
opaque userArea : Nat

/-- The threshold of the rolling activation count that a value of MR27 gives, 0 where it asks for no refresh management (R372 leaves
both to JESD209-5C). Log entry 62. -/
opaque rfmLimit : Nat → Nat

/-- What a REFab or an RFMab takes off the rolling counts under a value of MR27 (R372 leaves it to JESD209-5C). Log entry 62. -/
opaque rfmDec : Nat → Nat

/-- How many bits of PRBS13 a training frame carries (R280 states no length). Log entry 123. -/
opaque trainingBits : Nat

/-- A message symbol of the marker codeword: its pattern encodes a lane's index and the port width on each lane (R277 states no pattern). Free
in the width, the port lane and the place on the lane. Log entry 121. -/
opaque marker : Nat → Nat → Nat → Nat

end Sys2Proof.Config
end

