-- ==== Sys2Proof/Machine/Sparse.lean ====
section
/-! DEFINITION. Sparse stores: lists of (key, value) pairs with rising keys, and what is done to them. -/

namespace Sys2Proof.Machine

/-- The value listed at a key. -/
def Sparse.get {α : Type} (l : List (Nat × α)) (k : Nat) : Option α :=
  match l with
  | [] => none
  | (a, v) :: t => if a = k then some v else Sparse.get t k

/-- List `v` at `k`, in its place. -/
def Sparse.put {α : Type} (l : List (Nat × α)) (k : Nat) (v : α) : List (Nat × α) :=
  match l with
  | [] => [(k, v)]
  | (a, u) :: t => if k < a then (k, v) :: (a, u) :: t else if a = k then (k, v) :: t else (a, u) :: Sparse.put t k v

/-- Take `k` off the list. -/
def Sparse.del {α : Type} (l : List (Nat × α)) (k : Nat) : List (Nat × α) :=
  match l with
  | [] => []
  | (a, u) :: t => if a = k then t else (a, u) :: Sparse.del t k

/-- The value at a key of a table of like things, `d` where nothing is listed. -/
def Sparse.look {α : Type} (l : List (Nat × α)) (k : Nat) (d : α) : α := (Sparse.get l k).getD d

/-- Two values, one per half. -/
def pick {α : Type} (h : Nat) (w e : α) : α := if h = 0 then w else e

end Sys2Proof.Machine
end

