-- ==== Sys2Proof/Machine/RegMap.lean ====
section
/-! DEFINITION. The register fields of the CT4, one definition per field of the register maps of spec/ (01 to 17), named
<register>_<field>: byte address, least significant bit, width, class (R16), reset value on the head and tile builds, and
the range of values the field takes (R64). A field of an array of registers is a function of its indexes; `h` is the half (0
west, 1 east) or the window, `i` and `j` the instance and the element. -/

namespace Sys2Proof.Machine

/-- The field classes of R16. -/
inductive Cls where
  | rw | ro | ct | hu | lv | w1 | cm
  deriving DecidableEq, Repr

/-- A register field: where it is, its class, its reset value on the head and on the tile build, and the least and greatest
value a write of it may bring (R64). -/
structure Fld where
  addr : Nat
  lsb : Nat
  width : Nat
  cls : Cls
  rstH : Nat
  rstT : Nat
  lo : Nat
  hi : Nat
  deriving DecidableEq, Repr

/-- The key of a field in the register store. -/
def Fld.key (f : Fld) : Nat := f.addr * 32 + f.lsb

/-- The same field of another instance, `d` bytes further on. -/
def Fld.shift (f : Fld) (d : Nat) : Fld := { f with addr := f.addr + d }

/-- The reset value of a field (R17). -/
def Fld.rst (f : Fld) : Build → Nat
  | .head => f.rstH
  | .tile => f.rstT

namespace R

/-! ### The common page header (R59); `pg` is the page's base address -/

def ENABLE (pg : Nat) : Fld := ⟨pg + 4, 0, 1, .rw, (if pg = 0 ∨ pg = 0x4000 ∨ pg = 0x8000 ∨ pg = 0xC000 ∨ pg = 0x1C000 then 1 else 0),
  (if pg = 0 ∨ pg = 0x4000 ∨ pg = 0x8000 ∨ pg = 0xC000 ∨ pg = 0x1C000 then 1 else 0), 0, 1⟩
def LOCK (pg : Nat) : Fld := ⟨pg + 4, 1, 1, .rw, 0, 0, 0, 1⟩
def RUN (pg : Nat) : Fld := ⟨pg + 8, 0, 3, .ro, (if pg = 0 ∨ pg = 0x4000 ∨ pg = 0x8000 ∨ pg = 0xC000 ∨ pg = 0x1C000 then 2 else 0),
  (if pg = 0 ∨ pg = 0x4000 ∨ pg = 0x8000 ∨ pg = 0xC000 ∨ pg = 0x1C000 then 2 else 0), 0, 7⟩
def SAT (pg : Nat) : Fld := ⟨pg + 8, 17, 1, .ro, 0, 0, 0, 1⟩
def EVT_CFG_IGN (pg : Nat) : Fld := ⟨pg + 0xC, 0, 32, .ct, 0, 0, 0, 4294967295⟩
def EVT_LOCK_IGN (pg : Nat) : Fld := ⟨pg + 0x10, 0, 32, .ct, 0, 0, 0, 4294967295⟩
def IGN_OFFSET (pg : Nat) : Fld := ⟨pg + 0x14, 0, 12, .ro, 0, 0, 0, 4095⟩
def IGN_VIEW (pg : Nat) : Fld := ⟨pg + 0x14, 14, 2, .ro, 0, 0, 0, 3⟩
def IGN_PATH (pg : Nat) : Fld := ⟨pg + 0x14, 16, 4, .ro, 0, 0, 0, 15⟩
def IGN_REASON (pg : Nat) : Fld := ⟨pg + 0x14, 24, 8, .ro, 0, 0, 0, 255⟩
def PAGE_CRC (pg : Nat) : Fld := ⟨pg + 0x18, 0, 32, .ro, 0, 0, 0, 4294967295⟩

/-! ### SYS -/

def SYS_BUILD_BUILD : Fld := ⟨0x20, 0, 8, .ro, 72, 84, 0, 255⟩
def SYS_BUILD_STEP : Fld := ⟨0x20, 8, 8, .ro, 160, 160, 0, 255⟩
def SYS_BERR_CNT : Fld := ⟨0x30, 0, 32, .ct, 0, 0, 0, 4294967295⟩
def SYS_BERR_ADDR_ADDR : Fld := ⟨0x34, 0, 21, .ro, 0, 0, 0, 2097151⟩
def SYS_BERR_INFO_NODE : Fld := ⟨0x38, 0, 16, .ro, 0, 0, 0, 65535⟩
def SYS_BERR_INFO_WRITE : Fld := ⟨0x38, 16, 1, .ro, 0, 0, 0, 1⟩
def SYS_BERR_INFO_PATH : Fld := ⟨0x38, 20, 4, .ro, 0, 0, 0, 15⟩
def SYS_BERR_INFO_REASON : Fld := ⟨0x38, 24, 8, .ro, 0, 0, 0, 255⟩
def SYS_CCK_CTRL_EN : Fld := ⟨0x40, 0, 1, .lv, 0, 0, 0, 1⟩
def SYS_CCK_CTRL_SNAP : Fld := ⟨0x40, 1, 1, .cm, 0, 0, 0, 1⟩
def SYS_CCK_REF_REF : Fld := ⟨0x44, 0, 32, .lv, 0, 0, 0, 4294967295⟩
def SYS_CCK_LAST_RESULT : Fld := ⟨0x48, 0, 32, .ro, 0, 0, 0, 4294967295⟩
def SYS_CCK_STATE_REF_VALID : Fld := ⟨0x4C, 0, 1, .ro, 0, 0, 0, 1⟩
def SYS_CCK_STATE_LAST_MISMATCH : Fld := ⟨0x4C, 1, 1, .ro, 0, 0, 0, 1⟩
def SYS_CCK_STATE_MISMATCH : Fld := ⟨0x4C, 2, 1, .ro, 0, 0, 0, 1⟩
def SYS_CCK_EVT_MISMATCH : Fld := ⟨0x50, 0, 32, .ct, 0, 0, 0, 4294967295⟩
def SYS_CCK_EVT_VOID : Fld := ⟨0x54, 0, 32, .ct, 0, 0, 0, 4294967295⟩

/-! ### CLK -/

def CLK_REF_SRC : Fld := ⟨0x4020, 0, 1, .ro, 0, 0, 0, 1⟩
def CLK_REF_REFCLK_OK : Fld := ⟨0x4020, 1, 1, .ro, 0, 0, 0, 1⟩
def CLK_REF_XTAL_OK : Fld := ⟨0x4020, 2, 1, .ro, 0, 0, 0, 1⟩
def CLK_PLL_ROOT_LOCK : Fld := ⟨0x4024, 0, 1, .ro, 0, 0, 0, 1⟩
def CLK_PLL_DRAM_LOCK : Fld := ⟨0x4024, 1, 1, .ro, 0, 0, 0, 1⟩
def CLK_PLL_ETH_LOCK : Fld := ⟨0x4024, 2, 1, .ro, 0, 0, 0, 1⟩
def CLK_PLL_LANE_LOCK : Fld := ⟨0x4024, 8, 6, .ro, 0, 0, 0, 63⟩
def CLK_PLL_EN_ROOT_EN : Fld := ⟨0x4028, 0, 1, .rw, 0, 0, 0, 1⟩
def CLK_PLL_EN_DRAM_EN : Fld := ⟨0x4028, 1, 1, .rw, 0, 0, 0, 1⟩
def CLK_PLL_EN_ETH_EN : Fld := ⟨0x4028, 2, 1, .rw, 0, 0, 0, 1⟩
def CLK_PLL_EN_LANE_EN : Fld := ⟨0x4028, 8, 6, .rw, 0, 0, 0, 63⟩
def CLK_SEL_TO_ROOT : Fld := ⟨0x402C, 0, 1, .cm, 0, 0, 0, 1⟩
def CLK_SEL_TO_RC : Fld := ⟨0x402C, 1, 1, .cm, 0, 0, 0, 1⟩
def CLK_SEL_CUR : Fld := ⟨0x402C, 8, 2, .ro, 0, 0, 0, 3⟩
def CLK_EVT_UNLOCK : Fld := ⟨0x4030, 0, 32, .ct, 0, 0, 0, 4294967295⟩
def CLK_EVT_REFLOSS : Fld := ⟨0x4034, 0, 32, .ct, 0, 0, 0, 4294967295⟩

/-! ### BOOT -/

def BOOT_STAGE_STAGE : Fld := ⟨0x8020, 0, 4, .ro, 0, 0, 0, 15⟩
def BOOT_STAGE_SLOT : Fld := ⟨0x8020, 8, 1, .ro, 0, 0, 0, 1⟩
def BOOT_STAGE_FALLBACK : Fld := ⟨0x8020, 9, 1, .ro, 0, 0, 0, 1⟩
def BOOT_RESET_CAUSE_CAUSE : Fld := ⟨0x8024, 0, 5, .ro, 1, 1, 0, 31⟩
def BOOT_RESET_CAUSE_WDOG_RUN : Fld := ⟨0x8024, 8, 4, .ro, 0, 0, 0, 15⟩
def BOOT_STRAPS_ADDR : Fld := ⟨0x8028, 0, 7, .ro, 0, 0, 0, 127⟩
def BOOT_STRAPS_HALF : Fld := ⟨0x8028, 8, 1, .ro, 0, 0, 0, 1⟩
def BOOT_STRAPS_ROLE : Fld := ⟨0x8028, 9, 1, .ro, 0, 0, 0, 1⟩
def BOOT_RESET_FULL : Fld := ⟨0x802C, 0, 1, .cm, 0, 0, 0, 1⟩
def BOOT_RESET_ARM : Fld := ⟨0x802C, 1, 1, .cm, 0, 0, 0, 1⟩
def BOOT_FW_VERSION_VERSION : Fld := ⟨0x8030, 0, 32, .ro, 0, 0, 0, 4294967295⟩
def BOOT_MIN_VERSION_VERSION : Fld := ⟨0x8034, 0, 32, .ro, 0, 0, 0, 4294967295⟩
def BOOT_IMG_STATE_A_VALID : Fld := ⟨0x8038, 0, 1, .ro, 0, 0, 0, 1⟩
def BOOT_IMG_STATE_B_VALID : Fld := ⟨0x8038, 1, 1, .ro, 0, 0, 0, 1⟩
def BOOT_IMG_STATE_REC_BAD : Fld := ⟨0x8038, 2, 1, .ro, 0, 0, 0, 1⟩
def BOOT_IMG_STATE_REC_COPY : Fld := ⟨0x8038, 3, 1, .ro, 0, 0, 0, 1⟩
def BOOT_DEBUG_DEBUG_LOCK : Fld := ⟨0x8040, 0, 1, .w1, 0, 0, 0, 1⟩
def BOOT_EVT_VERIFY_FAIL : Fld := ⟨0x8044, 0, 32, .ct, 0, 0, 0, 4294967295⟩
def BOOT_WDOG_CFG_PERIOD : Fld := ⟨0x8050, 0, 16, .w1, 0, 0, 10, 65535⟩
def BOOT_WDOG_KICK_KICK : Fld := ⟨0x8054, 0, 1, .cm, 0, 0, 0, 1⟩
def BOOT_WDOG_LEFT_MS : Fld := ⟨0x8058, 0, 16, .ro, 0, 0, 0, 65535⟩
def BOOT_LOAD_PTR_OFFSET : Fld := ⟨0x8060, 2, 18, .lv, 0, 0, 0, 245759⟩
def BOOT_LOAD_DATA_DATA : Fld := ⟨0x8064, 0, 32, .rw, 0, 0, 0, 4294967295⟩
def BOOT_LOAD_CMD_VERIFY : Fld := ⟨0x8068, 0, 1, .cm, 0, 0, 0, 1⟩
def BOOT_LOAD_STATE_RESULT : Fld := ⟨0x806C, 0, 2, .ro, 0, 0, 0, 3⟩
def BOOT_LOAD_STATE_TARGET : Fld := ⟨0x806C, 8, 1, .ro, 1, 1, 0, 1⟩
def BOOT_KEY_DIGEST (j : Nat) : Fld := ⟨0x8100 + 0x4 * j, 0, 32, .w1, 0, 0, 0, 4294967295⟩

/-! ### PWR -/

def PWR_CMD_GO : Fld := ⟨0xC020, 0, 1, .cm, 0, 0, 0, 1⟩
def PWR_CMD_RESTORE : Fld := ⟨0xC020, 1, 1, .cm, 0, 0, 0, 1⟩
def PWR_CMD_TARGET : Fld := ⟨0xC020, 8, 3, .rw, 0, 0, 0, 3⟩
def PWR_STATE_STATE : Fld := ⟨0xC024, 0, 3, .ro, 0, 0, 0, 7⟩
def PWR_STATE_IMAGE_OK : Fld := ⟨0xC024, 3, 1, .ro, 0, 0, 0, 1⟩
def PWR_STATE_PHASE : Fld := ⟨0xC024, 4, 3, .ro, 0, 0, 0, 7⟩
def PWR_STATE_STEP : Fld := ⟨0xC024, 8, 5, .ro, 0, 0, 0, 31⟩
def PWR_STATE_STRANDED : Fld := ⟨0xC024, 16, 1, .ro, 0, 0, 0, 1⟩
def PWR_CFG_RETRIES : Fld := ⟨0xC028, 8, 2, .rw, 3, 3, 0, 3⟩
def PWR_CFG_WAKE_TIMEOUT : Fld := ⟨0xC028, 16, 8, .rw, 20, 20, 5, 200⟩
def PWR_CFG_HOLDOFF : Fld := ⟨0xC028, 24, 8, .rw, 10, 10, 0, 255⟩
def PWR_DLIM_TRV : Fld := ⟨0xC02C, 0, 8, .rw, 200, 200, 1, 255⟩
def PWR_DLIM_PEER : Fld := ⟨0xC02C, 8, 8, .rw, 50, 50, 1, 255⟩
def PWR_WAKE_EN_MGT : Fld := ⟨0xC030, 0, 1, .rw, 1, 1, 0, 1⟩
def PWR_WAKE_EN_RIDGE : Fld := ⟨0xC030, 1, 1, .rw, 1, 1, 0, 1⟩
def PWR_WAKE_EN_PCIE : Fld := ⟨0xC030, 2, 1, .rw, 1, 0, 0, 1⟩
def PWR_WAKE_EN_PIN : Fld := ⟨0xC030, 3, 1, .rw, 1, 1, 0, 1⟩
def PWR_WAKE_EN_PIN_POL : Fld := ⟨0xC030, 4, 1, .rw, 0, 0, 0, 1⟩
def PWR_IMAGE_BASE : Fld := ⟨0xC034, 0, 22, .rw, 0, 0, 0, 4194303⟩
def PWR_LAST_REFUSAL_TARGET : Fld := ⟨0xC038, 0, 3, .ro, 0, 0, 0, 7⟩
def PWR_LAST_REFUSAL_STEP : Fld := ⟨0xC038, 3, 5, .ro, 0, 0, 0, 31⟩
def PWR_LAST_REFUSAL_REASON : Fld := ⟨0xC038, 8, 8, .ro, 0, 0, 0, 255⟩
def PWR_LAST_REFUSAL_TYPE : Fld := ⟨0xC038, 16, 16, .ro, 0, 0, 0, 65535⟩
def PWR_WAKE_REC_SOURCE : Fld := ⟨0xC03C, 0, 4, .ro, 0, 0, 0, 15⟩
def PWR_WAKE_REC_RETRIES : Fld := ⟨0xC03C, 8, 2, .ro, 0, 0, 0, 3⟩
def PWR_WAKE_REC_LANE : Fld := ⟨0xC03C, 10, 6, .ro, 0, 0, 0, 63⟩
def PWR_WAKE_REC_FROM : Fld := ⟨0xC03C, 16, 2, .ro, 0, 0, 0, 3⟩
def PWR_WAKE_REC_STRANDED : Fld := ⟨0xC03C, 18, 1, .ro, 0, 0, 0, 1⟩
def PWR_WAKE_EPOCH_EPOCH : Fld := ⟨0xC040, 0, 32, .ro, 0, 0, 0, 4294967295⟩
def PWR_PARKED_STEPS : Fld := ⟨0xC044, 0, 17, .ro, 0, 0, 0, 131071⟩
def PWR_ASSIST_PROFILE : Fld := ⟨0xC048, 0, 2, .ro, 0, 0, 0, 3⟩
def PWR_EVT_ENTRY : Fld := ⟨0xC050, 0, 32, .ct, 0, 0, 0, 4294967295⟩
def PWR_EVT_REFUSE : Fld := ⟨0xC054, 0, 32, .ct, 0, 0, 0, 4294967295⟩
def PWR_EVT_WAKE_RETRY : Fld := ⟨0xC058, 0, 32, .ct, 0, 0, 0, 4294967295⟩
def PWR_EVT_SR_EXIT : Fld := ⟨0xC05C, 0, 32, .ct, 0, 0, 0, 4294967295⟩
def PWR_EVT_EDGE_LOST : Fld := ⟨0xC060, 0, 32, .ct, 0, 0, 0, 4294967295⟩
def PWR_RES_SUMMIT : Fld := ⟨0xC080, 0, 64, .ct, 0, 0, 0, 18446744073709551615⟩
def PWR_RES_SHOULDER : Fld := ⟨0xC088, 0, 64, .ct, 0, 0, 0, 18446744073709551615⟩
def PWR_RES_SADDLE : Fld := ⟨0xC090, 0, 64, .ct, 0, 0, 0, 18446744073709551615⟩
def PWR_RES_VALLEY : Fld := ⟨0xC098, 0, 64, .ct, 0, 0, 0, 18446744073709551615⟩

/-! ### CAL -/

def CAL_CFG_DELTA_T : Fld := ⟨0x10020, 0, 8, .rw, 32, 32, 1, 255⟩
def CAL_CFG_KINDS : Fld := ⟨0x10020, 8, 4, .rw, 15, 15, 0, 15⟩
def CAL_CFG_DEAD_MARGIN : Fld := ⟨0x10020, 16, 8, .rw, 8, 8, 0, 255⟩
def CAL_STEP_TDLY : Fld := ⟨0x10024, 0, 8, .rw, 4, 4, 0, 255⟩
def CAL_STEP_THR : Fld := ⟨0x10024, 8, 8, .rw, 3, 3, 0, 255⟩
def CAL_STEP_CHOP : Fld := ⟨0x10024, 16, 8, .rw, 64, 64, 0, 255⟩
def CAL_STEP_DEAD : Fld := ⟨0x10024, 24, 8, .rw, 8, 8, 0, 255⟩
def CAL_NOM_OPEN : Fld := ⟨0x10028, 0, 8, .rw, 15, 15, 0, 255⟩
def CAL_NOM_SHORT : Fld := ⟨0x10028, 8, 8, .rw, 120, 120, 0, 255⟩
def CAL_TDLY_TGT_TAPS : Fld := ⟨0x1002C, 0, 7, .rw, 72, 72, 0, 127⟩
def CAL_CMD_RUN : Fld := ⟨0x10030, 0, 1, .cm, 0, 0, 0, 1⟩
def CAL_CMD_ABORT : Fld := ⟨0x10030, 1, 1, .cm, 0, 0, 0, 1⟩
def CAL_STATE_PHASE : Fld := ⟨0x10034, 0, 3, .ro, 0, 0, 0, 7⟩
def CAL_STATE_TDLY_DONE : Fld := ⟨0x10034, 8, 1, .ro, 0, 0, 0, 1⟩
def CAL_STATE_FIRST : Fld := ⟨0x10034, 9, 1, .ro, 1, 1, 0, 1⟩
def CAL_STATE_DUE : Fld := ⟨0x10034, 10, 1, .ro, 0, 0, 0, 1⟩
def CAL_PROGRESS_DONE : Fld := ⟨0x10038, 0, 16, .ro, 0, 0, 0, 65535⟩
def CAL_PROGRESS_TOTAL : Fld := ⟨0x10038, 16, 16, .ro, 0, 0, 0, 65535⟩
def CAL_LAST_REJECT_ITEM : Fld := ⟨0x1003C, 0, 16, .ro, 0, 0, 0, 65535⟩
def CAL_LAST_REJECT_KIND : Fld := ⟨0x1003C, 24, 2, .ro, 0, 0, 0, 3⟩
def CAL_LAST_REJECT_CAUSE : Fld := ⟨0x1003C, 26, 2, .ro, 0, 0, 0, 3⟩
def CAL_REF_T_T (j : Nat) : Fld := ⟨0x10040 + 0x4 * j, 0, 12, .ro, 0, 0, 0, 4095⟩
def CAL_EVT_RUN : Fld := ⟨0x10060, 0, 32, .ct, 0, 0, 0, 4294967295⟩
def CAL_EVT_REJECT : Fld := ⟨0x10064, 0, 32, .ct, 0, 0, 0, 4294967295⟩
def CAL_EVT_ABORT : Fld := ⟨0x10068, 0, 32, .ct, 0, 0, 0, 4294967295⟩
def CAL_LAST_EPOCH_EPOCH : Fld := ⟨0x1006C, 0, 32, .ro, 0, 0, 0, 4294967295⟩
def CAL_CTRL_AUTO : Fld := ⟨0x10004, 8, 1, .lv, 0, 0, 0, 1⟩

/-! ### CRN -/

def CRN_CFG_PROT_RINGS : Fld := ⟨0x14020, 0, 12, .rw, 0, 0, 0, 4095⟩
def CRN_CFG_PEER : Fld := ⟨0x14020, 16, 6, .rw, 0, 0, 0, 63⟩
def CRN_CFG_AUTO_TAKE : Fld := ⟨0x14020, 24, 1, .rw, 0, 0, 0, 1⟩
def CRN_HEAD_ROLE : Fld := ⟨0x14024, 0, 3, .ro, 5, 6, 0, 7⟩
def CRN_HEAD_REASON : Fld := ⟨0x14024, 8, 4, .ro, 0, 0, 0, 15⟩
def CRN_CMD_RESIGN : Fld := ⟨0x14028, 0, 1, .cm, 0, 0, 0, 1⟩
def CRN_CMD_TAKE : Fld := ⟨0x14028, 1, 1, .cm, 0, 0, 0, 1⟩
def CRN_MASTER_TERM_TERM : Fld := ⟨0x14030, 0, 32, .ro, 0, 0, 0, 4294967295⟩
def CRN_MASTER_HEAD_HEAD : Fld := ⟨0x14034, 0, 6, .ro, 0, 0, 0, 63⟩
def CRN_MASTER_HEAD_VALID : Fld := ⟨0x14034, 8, 1, .ro, 0, 0, 0, 1⟩
def CRN_VOTE_LEAD : Fld := ⟨0x14038, 0, 1, .ro, 0, 0, 0, 1⟩
def CRN_VOTE_LEAD_VALID : Fld := ⟨0x14038, 1, 1, .ro, 0, 0, 0, 1⟩
def CRN_VOTE_DIS_LEAD : Fld := ⟨0x14038, 4, 1, .ro, 0, 0, 0, 1⟩
def CRN_VOTE_DIS_LAMP : Fld := ⟨0x14038, 5, 1, .ro, 0, 0, 0, 1⟩
def CRN_VOTE_DIS_EPOCH : Fld := ⟨0x14038, 6, 1, .ro, 0, 0, 0, 1⟩
def CRN_VOTE_DIS_TERM : Fld := ⟨0x14038, 7, 1, .ro, 0, 0, 0, 1⟩
def CRN_LAST_DIS_ITEM : Fld := ⟨0x1403C, 0, 4, .ro, 0, 0, 0, 15⟩
def CRN_LAST_DIS_RING : Fld := ⟨0x1403C, 4, 4, .ro, 0, 0, 0, 15⟩
def CRN_LAST_DIS_COPY : Fld := ⟨0x1403C, 8, 2, .ro, 0, 0, 0, 3⟩
def CRN_EVT_DISAGREE : Fld := ⟨0x14040, 0, 32, .ct, 0, 0, 0, 4294967295⟩
def CRN_EVT_SCRUB : Fld := ⟨0x14044, 0, 32, .ct, 0, 0, 0, 4294967295⟩
def CRN_EVT_SPLIT : Fld := ⟨0x14048, 0, 32, .ct, 0, 0, 0, 4294967295⟩
def CRN_EVT_RESIGN : Fld := ⟨0x1404C, 0, 32, .ct, 0, 0, 0, 4294967295⟩
def CRN_EVT_TAKE : Fld := ⟨0x14050, 0, 32, .ct, 0, 0, 0, 4294967295⟩
def CRN_EVT_DEPOSED : Fld := ⟨0x14054, 0, 32, .ct, 0, 0, 0, 4294967295⟩
def CRN_EVT_FOREIGN : Fld := ⟨0x14058, 0, 32, .ct, 0, 0, 0, 4294967295⟩
def CRN_EVT_ALIAS : Fld := ⟨0x1405C, 0, 32, .ct, 0, 0, 0, 4294967295⟩
def CRN_TERM_TERM (j : Nat) : Fld := ⟨0x14100 + 0x4 * j, 0, 32, .ro, 0, 0, 0, 4294967295⟩
def CRN_ALIAS_OLD (j : Nat) : Fld := ⟨0x14200 + 0x4 * j, 0, 6, .ro, 0, 0, 0, 63⟩
def CRN_ALIAS_NEW (j : Nat) : Fld := ⟨0x14200 + 0x4 * j, 8, 6, .ro, 0, 0, 0, 63⟩
def CRN_ALIAS_VALID (j : Nat) : Fld := ⟨0x14200 + 0x4 * j, 16, 1, .ro, 0, 0, 0, 1⟩
def CRN_CTRL_LAMP_EN : Fld := ⟨0x14004, 8, 1, .lv, 0, 0, 0, 1⟩
def CRN_CTRL_LEAD_HALF : Fld := ⟨0x14004, 9, 1, .lv, 0, 0, 0, 1⟩
def CRN_CTRL_CLAIM_W : Fld := ⟨0x14004, 10, 1, .lv, 0, 0, 0, 1⟩
def CRN_CTRL_CLAIM_E : Fld := ⟨0x14004, 11, 1, .lv, 0, 0, 0, 1⟩

/-! ### FLD -/

def FLD_CFG_PERIOD : Fld := ⟨0x18020, 0, 8, .rw, 250, 250, 10, 250⟩
def FLD_CFG_PEER : Fld := ⟨0x18020, 16, 16, .rw, 0, 0, 0, 65535⟩
def FLD_CMD_COMMIT : Fld := ⟨0x18024, 0, 1, .cm, 0, 0, 0, 1⟩
def FLD_CMD_VERIFY : Fld := ⟨0x18024, 1, 1, .cm, 0, 0, 0, 1⟩
def FLD_STATE_SHIP : Fld := ⟨0x18028, 0, 3, .ro, 0, 0, 0, 7⟩
def FLD_STATE_HELD : Fld := ⟨0x18028, 4, 1, .ro, 0, 0, 0, 1⟩
def FLD_STATE_SLOT : Fld := ⟨0x18028, 8, 1, .ro, 0, 0, 0, 1⟩
def FLD_STATE_VALID : Fld := ⟨0x18028, 9, 1, .ro, 0, 0, 0, 1⟩
def FLD_STATE_NOFOLD : Fld := ⟨0x18028, 10, 1, .ro, 0, 0, 0, 1⟩
def FLD_SEQ_SEQ : Fld := ⟨0x1802C, 0, 32, .ro, 0, 0, 0, 4294967295⟩
def FLD_ACKED_SEQ : Fld := ⟨0x18030, 0, 32, .ro, 0, 0, 0, 4294967295⟩
def FLD_AGE_MS : Fld := ⟨0x18034, 0, 16, .ro, 65535, 65535, 0, 65535⟩
def FLD_SIZE_BYTES : Fld := ⟨0x18038, 0, 22, .ro, 0, 0, 0, 4194303⟩
def FLD_USER_LEN_BYTES : Fld := ⟨0x1803C, 0, 22, .rw, 0, 0, 0, 1048576⟩
def FLD_EVT_SHIPPED : Fld := ⟨0x18040, 0, 32, .ct, 0, 0, 0, 4294967295⟩
def FLD_EVT_NACK : Fld := ⟨0x18044, 0, 32, .ct, 0, 0, 0, 4294967295⟩
def FLD_EVT_BADRX : Fld := ⟨0x18048, 0, 32, .ct, 0, 0, 0, 4294967295⟩
def FLD_EVT_COALESCE : Fld := ⟨0x1804C, 0, 32, .ct, 0, 0, 0, 4294967295⟩
def FLD_EVT_VOID : Fld := ⟨0x18050, 0, 32, .ct, 0, 0, 0, 4294967295⟩

/-! ### MGT -/

def MGT_CFG_PEC_EN : Fld := ⟨0x1C020, 0, 1, .rw, 0, 0, 0, 1⟩
def MGT_CFG_TMO_EN : Fld := ⟨0x1C020, 1, 1, .rw, 1, 1, 0, 1⟩
def MGT_STATE_ADDR : Fld := ⟨0x1C024, 0, 7, .ro, 0, 0, 0, 127⟩
def MGT_STATE_ADDR_VALID : Fld := ⟨0x1C024, 8, 1, .ro, 0, 0, 0, 1⟩
def MGT_STATE_LAST : Fld := ⟨0x1C024, 9, 3, .ro, 0, 0, 0, 7⟩
def MGT_EVT_TRANS : Fld := ⟨0x1C028, 0, 32, .ct, 0, 0, 0, 4294967295⟩
def MGT_EVT_PEC : Fld := ⟨0x1C02C, 0, 32, .ct, 0, 0, 0, 4294967295⟩
def MGT_EVT_ABORT : Fld := ⟨0x1C030, 0, 32, .ct, 0, 0, 0, 4294967295⟩
def MGT_EVT_TIMEOUT : Fld := ⟨0x1C034, 0, 32, .ct, 0, 0, 0, 4294967295⟩
def MGT_EVT_WAKE_NACK : Fld := ⟨0x1C038, 0, 32, .ct, 0, 0, 0, 4294967295⟩

/-! ### HST -/

def HST_LINK_STATE : Fld := ⟨0x20020, 0, 3, .ro, 0, 0, 0, 7⟩
def HST_LINK_SPEED : Fld := ⟨0x20020, 8, 4, .ro, 0, 0, 0, 15⟩
def HST_LINK_WIDTH : Fld := ⟨0x20020, 12, 4, .ro, 0, 0, 0, 15⟩
def HST_LINK_L1SS : Fld := ⟨0x20020, 16, 2, .ro, 0, 0, 0, 3⟩
def HST_REMOTE_OUTSTANDING : Fld := ⟨0x20024, 0, 6, .ro, 0, 0, 0, 63⟩
def HST_EVT_CA : Fld := ⟨0x20028, 0, 32, .ct, 0, 0, 0, 4294967295⟩
def HST_EVT_ABSENT : Fld := ⟨0x2002C, 0, 32, .ct, 0, 0, 0, 4294967295⟩
def HST_EVT_DMA_CTO : Fld := ⟨0x20030, 0, 32, .ct, 0, 0, 0, 4294967295⟩
def HST_APT_NODE (j : Nat) : Fld := ⟨0x20100 + 0x4 * j, 0, 16, .rw, 0, 0, 0, 65535⟩
def HST_APT_VALID (j : Nat) : Fld := ⟨0x20100 + 0x4 * j, 31, 1, .rw, 0, 0, 0, 1⟩
def HST_EVQ_CFG_EN (i : Nat) : Fld := ⟨0x20400 + 0x20 * i, 0, 1, .rw, 0, 0, 0, 1⟩
def HST_EVQ_CFG_SIZE (i : Nat) : Fld := ⟨0x20400 + 0x20 * i, 4, 4, .rw, 0, 0, 0, 10⟩
def HST_EVQ_CFG_HOLDOFF (i : Nat) : Fld := ⟨0x20400 + 0x20 * i, 16, 8, .rw, 0, 0, 0, 255⟩
def HST_EVQ_BASE_LO_ADDR (i : Nat) : Fld := ⟨0x20404 + 0x20 * i, 6, 26, .rw, 0, 0, 0, 67108863⟩
def HST_EVQ_BASE_HI_ADDR (i : Nat) : Fld := ⟨0x20408 + 0x20 * i, 0, 32, .rw, 0, 0, 0, 4294967295⟩
def HST_EVQ_IDX_CONS (i : Nat) : Fld := ⟨0x2040C + 0x20 * i, 0, 16, .ro, 0, 0, 0, 65535⟩
def HST_EVQ_IDX_PROD (i : Nat) : Fld := ⟨0x2040C + 0x20 * i, 16, 16, .ro, 0, 0, 0, 65535⟩
def HST_EVQ_EVT_DROP (i : Nat) : Fld := ⟨0x20410 + 0x20 * i, 0, 32, .ct, 0, 0, 0, 4294967295⟩

/-! ### DMA -/

def DMA_CH_CFG_ENABLE (i : Nat) : Fld := ⟨0x24100 + 0x20 * i, 0, 1, .rw, 0, 0, 0, 1⟩
def DMA_CH_CFG_RING_SIZE (i : Nat) : Fld := ⟨0x24100 + 0x20 * i, 4, 4, .rw, 0, 0, 0, 12⟩
def DMA_CH_CFG_IRQ_EN (i : Nat) : Fld := ⟨0x24100 + 0x20 * i, 8, 1, .rw, 0, 0, 0, 1⟩
def DMA_CH_RING_LO_ADDR (i : Nat) : Fld := ⟨0x24104 + 0x20 * i, 6, 26, .rw, 0, 0, 0, 67108863⟩
def DMA_CH_RING_HI_ADDR (i : Nat) : Fld := ⟨0x24108 + 0x20 * i, 0, 32, .rw, 0, 0, 0, 4294967295⟩
def DMA_CH_IDX_CONS (i : Nat) : Fld := ⟨0x2410C + 0x20 * i, 0, 16, .ro, 0, 0, 0, 65535⟩
def DMA_CH_IDX_PROD (i : Nat) : Fld := ⟨0x2410C + 0x20 * i, 16, 16, .ro, 0, 0, 0, 65535⟩
def DMA_CH_STATE_RUN (i : Nat) : Fld := ⟨0x24110 + 0x20 * i, 0, 3, .ro, 0, 0, 0, 7⟩
def DMA_CH_STATE_FRAME_OPEN (i : Nat) : Fld := ⟨0x24110 + 0x20 * i, 8, 1, .ro, 0, 0, 0, 1⟩
def DMA_CH_EVT_ERR (i : Nat) : Fld := ⟨0x24114 + 0x20 * i, 0, 32, .ct, 0, 0, 0, 4294967295⟩
def DMA_CH_EVT_FRAMES (i : Nat) : Fld := ⟨0x24118 + 0x20 * i, 0, 32, .ct, 0, 0, 0, 4294967295⟩

/-! ### ETH -/

def ETH_DT_IDX_IDX : Fld := ⟨0x28020, 0, 10, .lv, 0, 0, 0, 1023⟩
def ETH_DT_MAC_LO_MAC : Fld := ⟨0x28024, 0, 32, .lv, 0, 0, 0, 4294967295⟩
def ETH_DT_MAC_HI_MAC : Fld := ⟨0x28028, 0, 16, .lv, 0, 0, 0, 65535⟩
def ETH_DT_MAC_HI_VID : Fld := ⟨0x28028, 16, 12, .lv, 0, 0, 0, 4095⟩
def ETH_DT_MAC_HI_ANYVID : Fld := ⟨0x28028, 28, 1, .lv, 0, 0, 0, 1⟩
def ETH_DT_ACT_NODE : Fld := ⟨0x2802C, 0, 16, .lv, 0, 0, 0, 65535⟩
def ETH_DT_ACT_PORT : Fld := ⟨0x2802C, 16, 1, .lv, 0, 0, 0, 1⟩
def ETH_DT_ACT_DIR : Fld := ⟨0x2802C, 18, 2, .lv, 0, 0, 0, 2⟩
def ETH_DT_ACT_VALID : Fld := ⟨0x2802C, 31, 1, .lv, 0, 0, 0, 1⟩
def ETH_PTP_CFG_EN : Fld := ⟨0x28040, 0, 1, .rw, 0, 0, 0, 1⟩
def ETH_PTP_CFG_PROFILE : Fld := ⟨0x28040, 1, 1, .rw, 0, 0, 0, 1⟩
def ETH_PTP_CFG_DOMAIN : Fld := ⟨0x28040, 8, 8, .rw, 0, 0, 0, 255⟩
def ETH_PTP_CFG_PORT : Fld := ⟨0x28040, 16, 1, .rw, 0, 0, 0, 1⟩
def ETH_PTP_TIME_NS : Fld := ⟨0x28044, 0, 64, .ro, 0, 0, 0, 18446744073709551615⟩
def ETH_PTP_OFS_OFS : Fld := ⟨0x2804C, 0, 32, .ro, 0, 0, 0, 4294967295⟩
def ETH_PTP_STATE_STATE : Fld := ⟨0x28050, 0, 2, .ro, 0, 0, 0, 3⟩
def ETH_EVT_PTP_LOSS : Fld := ⟨0x28054, 0, 32, .ct, 0, 0, 0, 4294967295⟩
def ETH_ST_CFG_EN (i : Nat) : Fld := ⟨0x28060 + 0x20 * i, 0, 1, .rw, 0, 0, 0, 1⟩
def ETH_ST_CFG_PORT (i : Nat) : Fld := ⟨0x28060 + 0x20 * i, 1, 1, .rw, 0, 0, 0, 1⟩
def ETH_ST_CFG_PT (i : Nat) : Fld := ⟨0x28060 + 0x20 * i, 9, 7, .rw, 0, 0, 0, 127⟩
def ETH_ST_CFG_UDP (i : Nat) : Fld := ⟨0x28060 + 0x20 * i, 16, 16, .rw, 0, 0, 0, 65535⟩
def ETH_ST_DST_IP_IP (i : Nat) : Fld := ⟨0x28064 + 0x20 * i, 0, 32, .rw, 0, 0, 0, 4294967295⟩
def ETH_ST_SRC_IP_IP (i : Nat) : Fld := ⟨0x28068 + 0x20 * i, 0, 32, .rw, 0, 0, 0, 4294967295⟩
def ETH_ST_PKTS (i : Nat) : Fld := ⟨0x2806C + 0x20 * i, 0, 32, .ct, 0, 0, 0, 4294967295⟩
def ETH_ST_EVT_LOST (i : Nat) : Fld := ⟨0x28070 + 0x20 * i, 0, 32, .ct, 0, 0, 0, 4294967295⟩
def ETH_ST_EVT_FORMAT (i : Nat) : Fld := ⟨0x28074 + 0x20 * i, 0, 32, .ct, 0, 0, 0, 4294967295⟩
def ETH_CP_CFG_EN : Fld := ⟨0x280A0, 0, 1, .rw, 0, 0, 0, 1⟩
def ETH_CP_CFG_RX_SIZE : Fld := ⟨0x280A0, 4, 4, .rw, 0, 0, 0, 6⟩
def ETH_CP_CFG_TX_SIZE : Fld := ⟨0x280A0, 8, 4, .rw, 0, 0, 0, 6⟩
def ETH_CP_RX_LO_ADDR : Fld := ⟨0x280A4, 11, 21, .rw, 0, 0, 0, 2097151⟩
def ETH_CP_RX_HI_ADDR : Fld := ⟨0x280A8, 0, 32, .rw, 0, 0, 0, 4294967295⟩
def ETH_CP_TX_LO_ADDR : Fld := ⟨0x280AC, 11, 21, .rw, 0, 0, 0, 2097151⟩
def ETH_CP_TX_HI_ADDR : Fld := ⟨0x280B0, 0, 32, .rw, 0, 0, 0, 4294967295⟩
def ETH_CP_IDX_RX_PROD : Fld := ⟨0x280B4, 0, 16, .ro, 0, 0, 0, 65535⟩
def ETH_CP_IDX_TX_CONS : Fld := ⟨0x280B4, 16, 16, .ro, 0, 0, 0, 65535⟩
def ETH_CP_EVT_DROP : Fld := ⟨0x280B8, 0, 32, .ct, 0, 0, 0, 4294967295⟩
def ETHP_CFG_ENABLE (i : Nat) : Fld := ⟨0x28100 + 0x40 * i, 0, 1, .rw, 0, 0, 0, 1⟩
def ETHP_CFG_MODE (i : Nat) : Fld := ⟨0x28100 + 0x40 * i, 1, 2, .rw, 0, 0, 0, 1⟩
def ETHP_CFG_FEC (i : Nat) : Fld := ⟨0x28100 + 0x40 * i, 4, 2, .rw, 0, 0, 0, 2⟩
def ETHP_CFG_UNTAG (i : Nat) : Fld := ⟨0x28100 + 0x40 * i, 8, 1, .rw, 0, 0, 0, 1⟩
def ETHP_CFG_PVID (i : Nat) : Fld := ⟨0x28100 + 0x40 * i, 16, 12, .rw, 1, 1, 0, 4095⟩
def ETHP_STATE_LINK (i : Nat) : Fld := ⟨0x28104 + 0x40 * i, 0, 1, .ro, 0, 0, 0, 1⟩
def ETHP_STATE_BLOCK_LOCK (i : Nat) : Fld := ⟨0x28104 + 0x40 * i, 1, 1, .ro, 0, 0, 0, 1⟩
def ETHP_STATE_FEC_LOCK (i : Nat) : Fld := ⟨0x28104 + 0x40 * i, 2, 1, .ro, 0, 0, 0, 1⟩
def ETHP_IP_IP (i : Nat) : Fld := ⟨0x28108 + 0x40 * i, 0, 32, .rw, 0, 0, 0, 4294967295⟩
def ETHP_RX_FRAMES (i : Nat) : Fld := ⟨0x28110 + 0x40 * i, 0, 32, .ct, 0, 0, 0, 4294967295⟩
def ETHP_TX_FRAMES (i : Nat) : Fld := ⟨0x28114 + 0x40 * i, 0, 32, .ct, 0, 0, 0, 4294967295⟩
def ETHP_RX_FCS (i : Nat) : Fld := ⟨0x28118 + 0x40 * i, 0, 32, .ct, 0, 0, 0, 4294967295⟩
def ETHP_RX_DROP (i : Nat) : Fld := ⟨0x2811C + 0x40 * i, 0, 32, .ct, 0, 0, 0, 4294967295⟩
def ETHP_EVT_MISS (i : Nat) : Fld := ⟨0x28120 + 0x40 * i, 0, 32, .ct, 0, 0, 0, 4294967295⟩
def ETHP_EVT_VLAN (i : Nat) : Fld := ⟨0x28124 + 0x40 * i, 0, 32, .ct, 0, 0, 0, 4294967295⟩
def ETHP_EVT_REASM (i : Nat) : Fld := ⟨0x28128 + 0x40 * i, 0, 32, .ct, 0, 0, 0, 4294967295⟩
def ETHP_TX_DROP (i : Nat) : Fld := ⟨0x2812C + 0x40 * i, 0, 32, .ct, 0, 0, 0, 4294967295⟩

/-! ### SPR -/

def SPR_CFG_HEAD : Fld := ⟨0x2C020, 0, 6, .rw, 0, 0, 0, 63⟩
def SPR_CFG_LEAD_HEAD : Fld := ⟨0x2C020, 8, 6, .rw, 0, 0, 0, 63⟩
def SPR_EVT_NOROUTE : Fld := ⟨0x2C024, 0, 32, .ct, 0, 0, 0, 4294967295⟩
def SPR_EVT_HOPS : Fld := ⟨0x2C028, 0, 32, .ct, 0, 0, 0, 4294967295⟩
def SPR_EVT_RELAY_SKIP : Fld := ⟨0x2C02C, 0, 32, .ct, 0, 0, 0, 4294967295⟩
def SPRP_CFG_ENABLE (i : Nat) : Fld := ⟨0x2C100 + 0x40 * i, 0, 1, .rw, 0, 0, 0, 1⟩
def SPRP_CFG_WIDTH (i : Nat) : Fld := ⟨0x2C100 + 0x40 * i, 1, 2, .rw, 0, 0, 0, 2⟩
def SPRP_CFG_LANE (i : Nat) : Fld := ⟨0x2C100 + 0x40 * i, 8, 6, .rw, 0, 0, 0, 63⟩
def SPRP_CFG_SHARE (i : Nat) : Fld := ⟨0x2C100 + 0x40 * i, 16, 10, .rw, 0, 0, 0, 900⟩
def SPRP_STATE_STATE (i : Nat) : Fld := ⟨0x2C104 + 0x40 * i, 0, 4, .ro, 0, 0, 0, 15⟩
def SPRP_STATE_NEIGH (i : Nat) : Fld := ⟨0x2C104 + 0x40 * i, 8, 6, .ro, 0, 0, 0, 63⟩
def SPRP_STATE_NEIGH_VALID (i : Nat) : Fld := ⟨0x2C104 + 0x40 * i, 14, 1, .ro, 0, 0, 0, 1⟩
def SPRP_LDLY_DELAY (i : Nat) : Fld := ⟨0x2C108 + 0x40 * i, 0, 32, .ro, 0, 0, 0, 4294967295⟩
def SPRP_EVT_DOWN (i : Nat) : Fld := ⟨0x2C110 + 0x40 * i, 0, 32, .ct, 0, 0, 0, 4294967295⟩
def SPRP_EVT_BEDROP (i : Nat) : Fld := ⟨0x2C114 + 0x40 * i, 0, 32, .ct, 0, 0, 0, 4294967295⟩
def SPR_ROUTE_VALID (j : Nat) : Fld := ⟨0x2C200 + 0x4 * j, 0, 1, .rw, 0, 0, 0, 1⟩
def SPR_ROUTE_PORT (j : Nat) : Fld := ⟨0x2C200 + 0x4 * j, 1, 2, .rw, 0, 0, 0, 3⟩
def SPR_ROUTE_ALT_VALID (j : Nat) : Fld := ⟨0x2C200 + 0x4 * j, 3, 1, .rw, 0, 0, 0, 1⟩
def SPR_ROUTE_ALT (j : Nat) : Fld := ⟨0x2C200 + 0x4 * j, 4, 2, .rw, 0, 0, 0, 3⟩
def SPR_ROUTE_HOPS (j : Nat) : Fld := ⟨0x2C200 + 0x4 * j, 8, 4, .rw, 0, 0, 0, 15⟩
def SPR_RELAY_STREAM (j : Nat) : Fld := ⟨0x2C300 + 0x4 * j, 0, 10, .rw, 0, 0, 0, 1023⟩
def SPR_RELAY_RING_MASK (j : Nat) : Fld := ⟨0x2C300 + 0x4 * j, 12, 12, .rw, 0, 0, 0, 4095⟩
def SPR_RELAY_PRIO (j : Nat) : Fld := ⟨0x2C300 + 0x4 * j, 24, 4, .rw, 0, 0, 0, 15⟩
def SPR_RELAY_VALID (j : Nat) : Fld := ⟨0x2C300 + 0x4 * j, 31, 1, .rw, 0, 0, 0, 1⟩
def SPR_ALIAS_OLD (j : Nat) : Fld := ⟨0x2C400 + 0x4 * j, 0, 6, .ro, 0, 0, 0, 63⟩
def SPR_ALIAS_NEW (j : Nat) : Fld := ⟨0x2C400 + 0x4 * j, 8, 6, .ro, 0, 0, 0, 63⟩
def SPR_ALIAS_VALID (j : Nat) : Fld := ⟨0x2C400 + 0x4 * j, 16, 1, .ro, 0, 0, 0, 1⟩

/-! ### LNE -/

def LNE_CFG_ENABLE (i : Nat) : Fld := ⟨0x30100 + 0x4000 * (i / 8) + 0x100 * (i % 8), 0, 1, .rw, 0, 0, 0, 1⟩
def LNE_CFG_PRECODE_TX (i : Nat) : Fld := ⟨0x30100 + 0x4000 * (i / 8) + 0x100 * (i % 8), 1, 1, .rw, 0, 0, 0, 1⟩
def LNE_CFG_PRECODE_RX (i : Nat) : Fld := ⟨0x30100 + 0x4000 * (i / 8) + 0x100 * (i % 8), 2, 1, .rw, 0, 0, 0, 1⟩
def LNE_CFG_POL_AUTO (i : Nat) : Fld := ⟨0x30100 + 0x4000 * (i / 8) + 0x100 * (i % 8), 3, 1, .rw, 1, 1, 0, 1⟩
def LNE_CFG_TX_INV (i : Nat) : Fld := ⟨0x30100 + 0x4000 * (i / 8) + 0x100 * (i % 8), 4, 1, .rw, 0, 0, 0, 1⟩
def LNE_CFG_QUIET_EN (i : Nat) : Fld := ⟨0x30100 + 0x4000 * (i / 8) + 0x100 * (i % 8), 5, 1, .rw, 0, 0, 0, 1⟩
def LNE_CFG_QUIET_IDLE (i : Nat) : Fld := ⟨0x30100 + 0x4000 * (i / 8) + 0x100 * (i % 8), 8, 8, .rw, 20, 20, 1, 255⟩
def LNE_CFG_FFE_FIX (i : Nat) : Fld := ⟨0x30100 + 0x4000 * (i / 8) + 0x100 * (i % 8), 16, 1, .rw, 0, 0, 0, 1⟩
def LNE_FFE_PRE (i : Nat) : Fld := ⟨0x30104 + 0x4000 * (i / 8) + 0x100 * (i % 8), 0, 6, .hu, 0, 0, 0, 63⟩
def LNE_FFE_MAIN (i : Nat) : Fld := ⟨0x30104 + 0x4000 * (i / 8) + 0x100 * (i % 8), 8, 6, .hu, 48, 48, 0, 63⟩
def LNE_FFE_POST (i : Nat) : Fld := ⟨0x30104 + 0x4000 * (i / 8) + 0x100 * (i % 8), 16, 6, .hu, 0, 0, 0, 63⟩
def LNE_STATE_STAGE (i : Nat) : Fld := ⟨0x30108 + 0x4000 * (i / 8) + 0x100 * (i % 8), 0, 4, .ro, 0, 0, 0, 15⟩
def LNE_STATE_LAST_FAIL (i : Nat) : Fld := ⟨0x30108 + 0x4000 * (i / 8) + 0x100 * (i % 8), 4, 4, .ro, 0, 0, 0, 15⟩
def LNE_STATE_RX_INV (i : Nat) : Fld := ⟨0x30108 + 0x4000 * (i / 8) + 0x100 * (i % 8), 11, 1, .ro, 0, 0, 0, 1⟩
def LNE_STATE_REVERSED (i : Nat) : Fld := ⟨0x30108 + 0x4000 * (i / 8) + 0x100 * (i % 8), 12, 1, .ro, 0, 0, 0, 1⟩
def LNE_STATE_TXPS (i : Nat) : Fld := ⟨0x30108 + 0x4000 * (i / 8) + 0x100 * (i % 8), 14, 2, .ro, 3, 3, 0, 3⟩
def LNE_STATE_RXPS (i : Nat) : Fld := ⟨0x30108 + 0x4000 * (i / 8) + 0x100 * (i % 8), 16, 2, .ro, 3, 3, 0, 3⟩
def LNE_STATE_REASON (i : Nat) : Fld := ⟨0x30108 + 0x4000 * (i / 8) + 0x100 * (i % 8), 20, 4, .ro, 0, 0, 0, 15⟩
def LNE_STATE_EYE_H (i : Nat) : Fld := ⟨0x30108 + 0x4000 * (i / 8) + 0x100 * (i % 8), 24, 8, .ro, 0, 0, 0, 255⟩
def LNE_EVT_RETRY (i : Nat) : Fld := ⟨0x3010C + 0x4000 * (i / 8) + 0x100 * (i % 8), 0, 32, .ct, 0, 0, 0, 4294967295⟩
def LNE_EVT_LOL (i : Nat) : Fld := ⟨0x30110 + 0x4000 * (i / 8) + 0x100 * (i % 8), 0, 32, .ct, 0, 0, 0, 4294967295⟩
def LNE_CORR (i : Nat) : Fld := ⟨0x30118 + 0x4000 * (i / 8) + 0x100 * (i % 8), 0, 64, .ct, 0, 0, 0, 18446744073709551615⟩
def LNE_RES_TX_ACTIVE (i : Nat) : Fld := ⟨0x30120 + 0x4000 * (i / 8) + 0x100 * (i % 8), 0, 64, .ct, 0, 0, 0, 18446744073709551615⟩
def LNE_RES_TX_QUIET (i : Nat) : Fld := ⟨0x30128 + 0x4000 * (i / 8) + 0x100 * (i % 8), 0, 64, .ct, 0, 0, 0, 18446744073709551615⟩
def LNE_RES_TX_SLEEP (i : Nat) : Fld := ⟨0x30130 + 0x4000 * (i / 8) + 0x100 * (i % 8), 0, 64, .ct, 0, 0, 0, 18446744073709551615⟩
def LNE_RES_TX_OFF (i : Nat) : Fld := ⟨0x30138 + 0x4000 * (i / 8) + 0x100 * (i % 8), 0, 64, .ct, 0, 0, 0, 18446744073709551615⟩
def LNE_RES_RX_ACTIVE (i : Nat) : Fld := ⟨0x30140 + 0x4000 * (i / 8) + 0x100 * (i % 8), 0, 64, .ct, 0, 0, 0, 18446744073709551615⟩
def LNE_RES_RX_QUIET (i : Nat) : Fld := ⟨0x30148 + 0x4000 * (i / 8) + 0x100 * (i % 8), 0, 64, .ct, 0, 0, 0, 18446744073709551615⟩
def LNE_RES_RX_SLEEP (i : Nat) : Fld := ⟨0x30150 + 0x4000 * (i / 8) + 0x100 * (i % 8), 0, 64, .ct, 0, 0, 0, 18446744073709551615⟩
def LNE_RES_RX_OFF (i : Nat) : Fld := ⟨0x30158 + 0x4000 * (i / 8) + 0x100 * (i % 8), 0, 64, .ct, 0, 0, 0, 18446744073709551615⟩

/-! ### RING -/

def RING_KEYS_IN_USE : Fld := ⟨0x48020, 0, 7, .ro, 0, 0, 0, 127⟩
def RING_EVT_EVICT : Fld := ⟨0x48024, 0, 32, .ct, 0, 0, 0, 4294967295⟩
def RING_CFG_ENABLE (i : Nat) : Fld := ⟨0x48100 + 0x4000 * (i / 4) + 0x300 * (i % 4), 0, 1, .rw, 0, 0, 0, 1⟩
def RING_CFG_WIDTH (i : Nat) : Fld := ⟨0x48100 + 0x4000 * (i / 4) + 0x300 * (i % 4), 1, 2, .rw, 0, 0, 0, 2⟩
def RING_CFG_LANE_A (i : Nat) : Fld := ⟨0x48100 + 0x4000 * (i / 4) + 0x300 * (i % 4), 8, 6, .rw, 0, 0, 0, 63⟩
def RING_CFG_LANE_B (i : Nat) : Fld := ⟨0x48100 + 0x4000 * (i / 4) + 0x300 * (i % 4), 16, 6, .rw, 0, 0, 0, 63⟩
def RING_CFG_LOOP (i : Nat) : Fld := ⟨0x48100 + 0x4000 * (i / 4) + 0x300 * (i % 4), 30, 2, .rw, 0, 0, 0, 2⟩
def RING_SHARE_PERMILLE (i : Nat) : Fld := ⟨0x48104 + 0x4000 * (i / 4) + 0x300 * (i % 4), 0, 10, .lv, 0, 0, 0, 900⟩
def RING_TEST_RATE (i : Nat) : Fld := ⟨0x48108 + 0x4000 * (i / 4) + 0x300 * (i % 4), 0, 7, .rw, 1, 1, 1, 64⟩
def RING_TEST_DEST (i : Nat) : Fld := ⟨0x48108 + 0x4000 * (i / 4) + 0x300 * (i % 4), 16, 16, .rw, 0, 0, 0, 65535⟩
def RING_STATE_END_A (i : Nat) : Fld := ⟨0x4810C + 0x4000 * (i / 4) + 0x300 * (i % 4), 0, 4, .ro, 0, 0, 0, 15⟩
def RING_STATE_END_B (i : Nat) : Fld := ⟨0x4810C + 0x4000 * (i / 4) + 0x300 * (i % 4), 4, 4, .ro, 0, 0, 0, 15⟩
def RING_STATE_PACE_A (i : Nat) : Fld := ⟨0x4810C + 0x4000 * (i / 4) + 0x300 * (i % 4), 8, 1, .ro, 0, 0, 0, 1⟩
def RING_STATE_PACE_B (i : Nat) : Fld := ⟨0x4810C + 0x4000 * (i / 4) + 0x300 * (i % 4), 9, 1, .ro, 0, 0, 0, 1⟩
def RING_STATE_COUNT (i : Nat) : Fld := ⟨0x4810C + 0x4000 * (i / 4) + 0x300 * (i % 4), 10, 6, .ro, 0, 0, 0, 63⟩
def RING_STATE_NODE (i : Nat) : Fld := ⟨0x4810C + 0x4000 * (i / 4) + 0x300 * (i % 4), 16, 16, .ro, 65535, 65535, 0, 65535⟩
def RING_NEIGH_A_NODE (i : Nat) : Fld := ⟨0x48110 + 0x4000 * (i / 4) + 0x300 * (i % 4), 0, 16, .ro, 0, 0, 0, 65535⟩
def RING_NEIGH_A_ROLE (i : Nat) : Fld := ⟨0x48110 + 0x4000 * (i / 4) + 0x300 * (i % 4), 16, 2, .ro, 0, 0, 0, 3⟩
def RING_NEIGH_A_VALID (i : Nat) : Fld := ⟨0x48110 + 0x4000 * (i / 4) + 0x300 * (i % 4), 18, 1, .ro, 0, 0, 0, 1⟩
def RING_NEIGH_B_NODE (i : Nat) : Fld := ⟨0x48114 + 0x4000 * (i / 4) + 0x300 * (i % 4), 0, 16, .ro, 0, 0, 0, 65535⟩
def RING_NEIGH_B_ROLE (i : Nat) : Fld := ⟨0x48114 + 0x4000 * (i / 4) + 0x300 * (i % 4), 16, 2, .ro, 0, 0, 0, 3⟩
def RING_NEIGH_B_VALID (i : Nat) : Fld := ⟨0x48114 + 0x4000 * (i / 4) + 0x300 * (i % 4), 18, 1, .ro, 0, 0, 0, 1⟩
def RING_LDLY_A_DELAY (i : Nat) : Fld := ⟨0x48118 + 0x4000 * (i / 4) + 0x300 * (i % 4), 0, 32, .ro, 0, 0, 0, 4294967295⟩
def RING_LDLY_B_DELAY (i : Nat) : Fld := ⟨0x4811C + 0x4000 * (i / 4) + 0x300 * (i % 4), 0, 32, .ro, 0, 0, 0, 4294967295⟩
def RING_PATH_NS (i : Nat) : Fld := ⟨0x48120 + 0x4000 * (i / 4) + 0x300 * (i % 4), 0, 32, .ro, 0, 0, 0, 4294967295⟩
def RING_BREAK_POS1 (i : Nat) : Fld := ⟨0x48124 + 0x4000 * (i / 4) + 0x300 * (i % 4), 0, 6, .ro, 0, 0, 0, 63⟩
def RING_BREAK_V1 (i : Nat) : Fld := ⟨0x48124 + 0x4000 * (i / 4) + 0x300 * (i % 4), 6, 1, .ro, 0, 0, 0, 1⟩
def RING_BREAK_POS2 (i : Nat) : Fld := ⟨0x48124 + 0x4000 * (i / 4) + 0x300 * (i % 4), 8, 6, .ro, 0, 0, 0, 63⟩
def RING_BREAK_V2 (i : Nat) : Fld := ⟨0x48124 + 0x4000 * (i / 4) + 0x300 * (i % 4), 14, 1, .ro, 0, 0, 0, 1⟩
def RING_CMD_DISCOVER (i : Nat) : Fld := ⟨0x48128 + 0x4000 * (i / 4) + 0x300 * (i % 4), 0, 1, .cm, 0, 0, 0, 1⟩
def RING_CMD_REMEASURE (i : Nat) : Fld := ⟨0x48128 + 0x4000 * (i / 4) + 0x300 * (i % 4), 1, 1, .cm, 0, 0, 0, 1⟩
def RING_EVT_HCRC (i : Nat) : Fld := ⟨0x48140 + 0x4000 * (i / 4) + 0x300 * (i % 4), 0, 32, .ct, 0, 0, 0, 4294967295⟩
def RING_EVT_CRC (i : Nat) : Fld := ⟨0x48144 + 0x4000 * (i / 4) + 0x300 * (i % 4), 0, 32, .ct, 0, 0, 0, 4294967295⟩
def RING_EVT_STOMP (i : Nat) : Fld := ⟨0x48148 + 0x4000 * (i / 4) + 0x300 * (i % 4), 0, 32, .ct, 0, 0, 0, 4294967295⟩
def RING_EVT_UNCORR (i : Nat) : Fld := ⟨0x4814C + 0x4000 * (i / 4) + 0x300 * (i % 4), 0, 32, .ct, 0, 0, 0, 4294967295⟩
def RING_EVT_DUP (i : Nat) : Fld := ⟨0x48150 + 0x4000 * (i / 4) + 0x300 * (i % 4), 0, 32, .ct, 0, 0, 0, 4294967295⟩
def RING_EVT_STALE (i : Nat) : Fld := ⟨0x48154 + 0x4000 * (i / 4) + 0x300 * (i % 4), 0, 32, .ct, 0, 0, 0, 4294967295⟩
def RING_EVT_HOPS (i : Nat) : Fld := ⟨0x48158 + 0x4000 * (i / 4) + 0x300 * (i % 4), 0, 32, .ct, 0, 0, 0, 4294967295⟩
def RING_EVT_PXDROP (i : Nat) : Fld := ⟨0x4815C + 0x4000 * (i / 4) + 0x300 * (i % 4), 0, 32, .ct, 0, 0, 0, 4294967295⟩
def RING_EVT_BEDROP (i : Nat) : Fld := ⟨0x48160 + 0x4000 * (i / 4) + 0x300 * (i % 4), 0, 32, .ct, 0, 0, 0, 4294967295⟩
def RING_EVT_DOWN (i : Nat) : Fld := ⟨0x48164 + 0x4000 * (i / 4) + 0x300 * (i % 4), 0, 32, .ct, 0, 0, 0, 4294967295⟩
def RING_EVT_CONFLICT (i : Nat) : Fld := ⟨0x48168 + 0x4000 * (i / 4) + 0x300 * (i % 4), 0, 32, .ct, 0, 0, 0, 4294967295⟩
def RING_TEST_ERR (i : Nat) : Fld := ⟨0x4816C + 0x4000 * (i / 4) + 0x300 * (i % 4), 0, 32, .ct, 0, 0, 0, 4294967295⟩
def RING_TX_CELLS (i : Nat) : Fld := ⟨0x48170 + 0x4000 * (i / 4) + 0x300 * (i % 4), 0, 64, .ct, 0, 0, 0, 18446744073709551615⟩
def RING_RX_CELLS (i : Nat) : Fld := ⟨0x48178 + 0x4000 * (i / 4) + 0x300 * (i % 4), 0, 64, .ct, 0, 0, 0, 18446744073709551615⟩
def RING_TEST_CELLS (i : Nat) : Fld := ⟨0x48180 + 0x4000 * (i / 4) + 0x300 * (i % 4), 0, 64, .ct, 0, 0, 0, 18446744073709551615⟩
def RING_CTRL_GEN (h : Nat) : Fld := ⟨0x48004 + 0x4000 * h, 8, 4, .lv, 0, 0, 0, 15⟩
def RING_CTRL_CHK (h : Nat) : Fld := ⟨0x48004 + 0x4000 * h, 12, 4, .lv, 0, 0, 0, 15⟩

/-! ### SRC -/

def SRC_GAP_GAP : Fld := ⟨0x54020, 0, 24, .rw, 8000, 8000, 8000, 16777215⟩
def SRC_RING_BUDGET_CELLS (j : Nat) : Fld := ⟨0x54040 + 0x4 * j, 0, 32, .ro, 0, 0, 0, 4294967295⟩
def SRC_CFG_ENABLE (i : Nat) : Fld := ⟨0x54100 + 0x4000 * (i / 4) + 0x300 * (i % 4), 0, 1, .rw, 0, 0, 0, 1⟩
def SRC_CFG_INPUT (i : Nat) : Fld := ⟨0x54100 + 0x4000 * (i / 4) + 0x300 * (i % 4), 8, 2, .rw, 0, 0, 0, 2⟩
def SRC_CFG_FMT_IN (i : Nat) : Fld := ⟨0x54100 + 0x4000 * (i / 4) + 0x300 * (i % 4), 12, 4, .rw, 0, 0, 0, 15⟩
def SRC_CFG_FMT_OUT (i : Nat) : Fld := ⟨0x54100 + 0x4000 * (i / 4) + 0x300 * (i % 4), 16, 1, .rw, 0, 0, 0, 1⟩
def SRC_CFG_PRIO (i : Nat) : Fld := ⟨0x54100 + 0x4000 * (i / 4) + 0x300 * (i % 4), 20, 4, .rw, 0, 0, 0, 15⟩
def SRC_CFG_KERNEL (i : Nat) : Fld := ⟨0x54100 + 0x4000 * (i / 4) + 0x300 * (i % 4), 24, 2, .rw, 0, 0, 0, 3⟩
def SRC_CFG_CSC_EN (i : Nat) : Fld := ⟨0x54100 + 0x4000 * (i / 4) + 0x300 * (i % 4), 26, 1, .rw, 0, 0, 0, 1⟩
def SRC_IN_SIZE_W (i : Nat) : Fld := ⟨0x54104 + 0x4000 * (i / 4) + 0x300 * (i % 4), 0, 16, .rw, 0, 0, 0, 65535⟩
def SRC_IN_SIZE_H (i : Nat) : Fld := ⟨0x54104 + 0x4000 * (i / 4) + 0x300 * (i % 4), 16, 16, .rw, 0, 0, 0, 65535⟩
def SRC_CROP_XY_X (i : Nat) : Fld := ⟨0x54108 + 0x4000 * (i / 4) + 0x300 * (i % 4), 0, 16, .rw, 0, 0, 0, 65535⟩
def SRC_CROP_XY_Y (i : Nat) : Fld := ⟨0x54108 + 0x4000 * (i / 4) + 0x300 * (i % 4), 16, 16, .rw, 0, 0, 0, 65535⟩
def SRC_CROP_SIZE_W (i : Nat) : Fld := ⟨0x5410C + 0x4000 * (i / 4) + 0x300 * (i % 4), 0, 16, .rw, 0, 0, 0, 65535⟩
def SRC_CROP_SIZE_H (i : Nat) : Fld := ⟨0x5410C + 0x4000 * (i / 4) + 0x300 * (i % 4), 16, 16, .rw, 0, 0, 0, 65535⟩
def SRC_OUT_SIZE_W (i : Nat) : Fld := ⟨0x54110 + 0x4000 * (i / 4) + 0x300 * (i % 4), 0, 16, .rw, 0, 0, 0, 65535⟩
def SRC_OUT_SIZE_H (i : Nat) : Fld := ⟨0x54110 + 0x4000 * (i / 4) + 0x300 * (i % 4), 16, 16, .rw, 0, 0, 0, 65535⟩
def SRC_PLACE_XY_X (i : Nat) : Fld := ⟨0x54114 + 0x4000 * (i / 4) + 0x300 * (i % 4), 0, 16, .rw, 0, 0, 0, 65535⟩
def SRC_PLACE_XY_Y (i : Nat) : Fld := ⟨0x54114 + 0x4000 * (i / 4) + 0x300 * (i % 4), 16, 16, .rw, 0, 0, 0, 65535⟩
def SRC_PLACE_CFG_SURFACE (i : Nat) : Fld := ⟨0x54118 + 0x4000 * (i / 4) + 0x300 * (i % 4), 0, 4, .rw, 0, 0, 0, 15⟩
def SRC_PLACE_CFG_REFRESH (i : Nat) : Fld := ⟨0x54118 + 0x4000 * (i / 4) + 0x300 * (i % 4), 8, 8, .rw, 1, 1, 0, 255⟩
def SRC_ROUTE_RING_MASK (i : Nat) : Fld := ⟨0x5411C + 0x4000 * (i / 4) + 0x300 * (i % 4), 0, 12, .rw, 0, 0, 0, 4095⟩
def SRC_SPUR_LO_HEADS (i : Nat) : Fld := ⟨0x54120 + 0x4000 * (i / 4) + 0x300 * (i % 4), 0, 32, .rw, 0, 0, 0, 4294967295⟩
def SRC_SPUR_HI_HEADS (i : Nat) : Fld := ⟨0x54124 + 0x4000 * (i / 4) + 0x300 * (i % 4), 0, 32, .rw, 0, 0, 0, 4294967295⟩
def SRC_BUF_BASE_BASE (i : Nat) : Fld := ⟨0x54128 + 0x4000 * (i / 4) + 0x300 * (i % 4), 0, 22, .rw, 0, 0, 0, 4194303⟩
def SRC_BUF_SIZE_SIZE (i : Nat) : Fld := ⟨0x5412C + 0x4000 * (i / 4) + 0x300 * (i % 4), 0, 22, .rw, 0, 0, 0, 4194303⟩
def SRC_STRIDE_BYTES (i : Nat) : Fld := ⟨0x54130 + 0x4000 * (i / 4) + 0x300 * (i % 4), 0, 20, .rw, 0, 0, 0, 1048575⟩
def SRC_COEF_BASE_BASE (i : Nat) : Fld := ⟨0x54134 + 0x4000 * (i / 4) + 0x300 * (i % 4), 0, 22, .rw, 0, 0, 0, 4194303⟩
def SRC_CSC_M0_LO (i : Nat) : Fld := ⟨0x54140 + 0x4000 * (i / 4) + 0x300 * (i % 4), 0, 16, .rw, 16384, 16384, 0, 65535⟩
def SRC_CSC_M0_HI (i : Nat) : Fld := ⟨0x54140 + 0x4000 * (i / 4) + 0x300 * (i % 4), 16, 16, .rw, 0, 0, 0, 65535⟩
def SRC_CSC_M1_LO (i : Nat) : Fld := ⟨0x54144 + 0x4000 * (i / 4) + 0x300 * (i % 4), 0, 16, .rw, 0, 0, 0, 65535⟩
def SRC_CSC_M1_HI (i : Nat) : Fld := ⟨0x54144 + 0x4000 * (i / 4) + 0x300 * (i % 4), 16, 16, .rw, 0, 0, 0, 65535⟩
def SRC_CSC_M2_LO (i : Nat) : Fld := ⟨0x54148 + 0x4000 * (i / 4) + 0x300 * (i % 4), 0, 16, .rw, 16384, 16384, 0, 65535⟩
def SRC_CSC_M2_HI (i : Nat) : Fld := ⟨0x54148 + 0x4000 * (i / 4) + 0x300 * (i % 4), 16, 16, .rw, 0, 0, 0, 65535⟩
def SRC_CSC_M3_LO (i : Nat) : Fld := ⟨0x5414C + 0x4000 * (i / 4) + 0x300 * (i % 4), 0, 16, .rw, 0, 0, 0, 65535⟩
def SRC_CSC_M3_HI (i : Nat) : Fld := ⟨0x5414C + 0x4000 * (i / 4) + 0x300 * (i % 4), 16, 16, .rw, 0, 0, 0, 65535⟩
def SRC_CSC_M4_LO (i : Nat) : Fld := ⟨0x54150 + 0x4000 * (i / 4) + 0x300 * (i % 4), 0, 16, .rw, 16384, 16384, 0, 65535⟩
def SRC_CSC_OFS0_LO (i : Nat) : Fld := ⟨0x54154 + 0x4000 * (i / 4) + 0x300 * (i % 4), 0, 11, .rw, 0, 0, 0, 2047⟩
def SRC_CSC_OFS0_HI (i : Nat) : Fld := ⟨0x54154 + 0x4000 * (i / 4) + 0x300 * (i % 4), 16, 11, .rw, 0, 0, 0, 2047⟩
def SRC_CSC_OFS1_LO (i : Nat) : Fld := ⟨0x54158 + 0x4000 * (i / 4) + 0x300 * (i % 4), 0, 11, .rw, 0, 0, 0, 2047⟩
def SRC_CSC_OFS1_HI (i : Nat) : Fld := ⟨0x54158 + 0x4000 * (i / 4) + 0x300 * (i % 4), 16, 11, .rw, 0, 0, 0, 2047⟩
def SRC_CSC_OFS2_LO (i : Nat) : Fld := ⟨0x5415C + 0x4000 * (i / 4) + 0x300 * (i % 4), 0, 11, .rw, 0, 0, 0, 2047⟩
def SRC_CSC_OFS2_HI (i : Nat) : Fld := ⟨0x5415C + 0x4000 * (i / 4) + 0x300 * (i % 4), 16, 11, .rw, 0, 0, 0, 2047⟩
def SRC_STATE_COND (i : Nat) : Fld := ⟨0x54180 + 0x4000 * (i / 4) + 0x300 * (i % 4), 0, 4, .ro, 0, 0, 0, 15⟩
def SRC_STATE_READY (i : Nat) : Fld := ⟨0x54180 + 0x4000 * (i / 4) + 0x300 * (i % 4), 4, 2, .ro, 3, 3, 0, 3⟩
def SRC_STATE_SEND (i : Nat) : Fld := ⟨0x54180 + 0x4000 * (i / 4) + 0x300 * (i % 4), 6, 2, .ro, 3, 3, 0, 3⟩
def SRC_MEAS_SIZE_W (i : Nat) : Fld := ⟨0x54184 + 0x4000 * (i / 4) + 0x300 * (i % 4), 0, 16, .ro, 0, 0, 0, 65535⟩
def SRC_MEAS_SIZE_H (i : Nat) : Fld := ⟨0x54184 + 0x4000 * (i / 4) + 0x300 * (i % 4), 16, 16, .ro, 0, 0, 0, 65535⟩
def SRC_FRAME_COUNT (i : Nat) : Fld := ⟨0x54188 + 0x4000 * (i / 4) + 0x300 * (i % 4), 0, 32, .ro, 0, 0, 0, 4294967295⟩
def SRC_EVT_SKIP (i : Nat) : Fld := ⟨0x5418C + 0x4000 * (i / 4) + 0x300 * (i % 4), 0, 32, .ct, 0, 0, 0, 4294967295⟩
def SRC_EVT_DROP (i : Nat) : Fld := ⟨0x54190 + 0x4000 * (i / 4) + 0x300 * (i % 4), 0, 32, .ct, 0, 0, 0, 4294967295⟩
def SRC_EVT_BADFRAME (i : Nat) : Fld := ⟨0x54194 + 0x4000 * (i / 4) + 0x300 * (i % 4), 0, 32, .ct, 0, 0, 0, 4294967295⟩
def SRC_EVT_LATE (i : Nat) : Fld := ⟨0x54198 + 0x4000 * (i / 4) + 0x300 * (i % 4), 0, 32, .ct, 0, 0, 0, 4294967295⟩
def SRC_EVT_OVERWIDTH (i : Nat) : Fld := ⟨0x5419C + 0x4000 * (i / 4) + 0x300 * (i % 4), 0, 32, .ct, 0, 0, 0, 4294967295⟩
def SRC_EVT_GEOM (i : Nat) : Fld := ⟨0x541A0 + 0x4000 * (i / 4) + 0x300 * (i % 4), 0, 32, .ct, 0, 0, 0, 4294967295⟩
def SRC_EVT_REPEAT (i : Nat) : Fld := ⟨0x541A4 + 0x4000 * (i / 4) + 0x300 * (i % 4), 0, 32, .ct, 0, 0, 0, 4294967295⟩
def SRC_CELLS (i : Nat) : Fld := ⟨0x541A8 + 0x4000 * (i / 4) + 0x300 * (i % 4), 0, 64, .ct, 0, 0, 0, 18446744073709551615⟩

/-! ### DRC -/

def DRC_AGE_RT (h : Nat) : Fld := ⟨0x64020 + 0x4000 * h, 0, 8, .rw, 50, 50, 1, 255⟩
def DRC_AGE_BULK (h : Nat) : Fld := ⟨0x64020 + 0x4000 * h, 8, 8, .rw, 200, 200, 1, 255⟩
def DRC_AGE_TRAIN (h : Nat) : Fld := ⟨0x64020 + 0x4000 * h, 16, 8, .rw, 255, 255, 1, 255⟩
def DRC_HAMMER_LIMIT (h : Nat) : Fld := ⟨0x64024 + 0x4000 * h, 0, 16, .rw, 4096, 4096, 1, 65535⟩
def DRC_HAMMER_THROTTLE (h : Nat) : Fld := ⟨0x64024 + 0x4000 * h, 16, 8, .rw, 10, 10, 1, 255⟩
def DRC_QCFG_UE_LIMIT (h : Nat) : Fld := ⟨0x64028 + 0x4000 * h, 0, 8, .rw, 4, 4, 1, 255⟩
def DRC_QCFG_UE_WIN (h : Nat) : Fld := ⟨0x64028 + 0x4000 * h, 16, 8, .rw, 100, 100, 1, 255⟩
def DRC_REF_LIMIT (h : Nat) : Fld := ⟨0x6402C + 0x4000 * h, 0, 4, .rw, 8, 8, 1, 8⟩
def DRC_THROTTLED_REQ (h : Nat) : Fld := ⟨0x64030 + 0x4000 * h, 0, 9, .ro, 0, 0, 0, 511⟩
def DRC_CH_STATE_STATE (i : Nat) : Fld := ⟨0x64100 + 0x4000 * (i / 2) + 0x200 * (i % 2), 0, 3, .ro, 0, 0, 0, 7⟩
def DRC_CH_STATE_RATE (i : Nat) : Fld := ⟨0x64100 + 0x4000 * (i / 2) + 0x200 * (i % 2), 6, 1, .ro, 0, 0, 0, 1⟩
def DRC_CH_STATE_HOT (i : Nat) : Fld := ⟨0x64100 + 0x4000 * (i / 2) + 0x200 * (i % 2), 7, 1, .ro, 0, 0, 0, 1⟩
def DRC_CH_STATE_OWED (i : Nat) : Fld := ⟨0x64100 + 0x4000 * (i / 2) + 0x200 * (i % 2), 8, 4, .ro, 0, 0, 0, 15⟩
def DRC_CH_STATE_QCAUSE (i : Nat) : Fld := ⟨0x64100 + 0x4000 * (i / 2) + 0x200 * (i % 2), 12, 3, .ro, 0, 0, 0, 7⟩
def DRC_CH_MR4_MR4 (i : Nat) : Fld := ⟨0x64104 + 0x4000 * (i / 2) + 0x200 * (i % 2), 0, 8, .ro, 0, 0, 0, 255⟩
def DRC_CH_TRN_CFG_BURSTS (i : Nat) : Fld := ⟨0x64108 + 0x4000 * (i / 2) + 0x200 * (i % 2), 0, 8, .lv, 64, 64, 1, 255⟩
def DRC_CH_TRN_CFG_PATTERN (i : Nat) : Fld := ⟨0x64108 + 0x4000 * (i / 2) + 0x200 * (i % 2), 16, 16, .lv, 0, 0, 0, 65535⟩
def DRC_CH_TRN_SCRATCH_BASE (i : Nat) : Fld := ⟨0x6410C + 0x4000 * (i / 2) + 0x200 * (i % 2), 0, 22, .lv, 1048560, 524272, 0, 4194303⟩
def DRC_CH_TRN_CMD_OP (i : Nat) : Fld := ⟨0x64110 + 0x4000 * (i / 2) + 0x200 * (i % 2), 0, 4, .lv, 0, 0, 1, 8⟩
def DRC_CH_TRN_CMD_GO (i : Nat) : Fld := ⟨0x64110 + 0x4000 * (i / 2) + 0x200 * (i % 2), 8, 1, .cm, 0, 0, 0, 1⟩
def DRC_CH_TRN_RESULT_FAIL (i : Nat) : Fld := ⟨0x64114 + 0x4000 * (i / 2) + 0x200 * (i % 2), 0, 16, .ro, 0, 0, 0, 65535⟩
def DRC_CH_TRN_RESULT_DATA (i : Nat) : Fld := ⟨0x64114 + 0x4000 * (i / 2) + 0x200 * (i % 2), 16, 8, .ro, 0, 0, 0, 255⟩
def DRC_CH_TRN_RESULT_BUSY (i : Nat) : Fld := ⟨0x64114 + 0x4000 * (i / 2) + 0x200 * (i % 2), 24, 1, .ro, 0, 0, 0, 1⟩
def DRC_CH_TRN_MR_DATA (i : Nat) : Fld := ⟨0x64118 + 0x4000 * (i / 2) + 0x200 * (i % 2), 0, 8, .lv, 0, 0, 0, 255⟩
def DRC_CH_TRN_MR_ADDR (i : Nat) : Fld := ⟨0x64118 + 0x4000 * (i / 2) + 0x200 * (i % 2), 8, 8, .lv, 0, 0, 0, 255⟩
def DRC_CH_TRIAL_MISC_VREF0 (i : Nat) : Fld := ⟨0x6411C + 0x4000 * (i / 2) + 0x200 * (i % 2), 0, 6, .lv, 32, 32, 0, 63⟩
def DRC_CH_TRIAL_MISC_VREF1 (i : Nat) : Fld := ⟨0x6411C + 0x4000 * (i / 2) + 0x200 * (i % 2), 8, 6, .lv, 32, 32, 0, 63⟩
def DRC_CH_TRIAL_MISC_CA (i : Nat) : Fld := ⟨0x6411C + 0x4000 * (i / 2) + 0x200 * (i % 2), 16, 8, .lv, 0, 0, 0, 255⟩
def DRC_CH_TRIAL_MISC_WCK (i : Nat) : Fld := ⟨0x6411C + 0x4000 * (i / 2) + 0x200 * (i % 2), 24, 8, .lv, 0, 0, 0, 255⟩
def DRC_CH_ACT_MISC_VREF0 (i : Nat) : Fld := ⟨0x64160 + 0x4000 * (i / 2) + 0x200 * (i % 2), 0, 6, .hu, 32, 32, 0, 63⟩
def DRC_CH_ACT_MISC_VREF1 (i : Nat) : Fld := ⟨0x64160 + 0x4000 * (i / 2) + 0x200 * (i % 2), 8, 6, .hu, 32, 32, 0, 63⟩
def DRC_CH_ACT_MISC_CA (i : Nat) : Fld := ⟨0x64160 + 0x4000 * (i / 2) + 0x200 * (i % 2), 16, 8, .hu, 0, 0, 0, 255⟩
def DRC_CH_ACT_MISC_WCK (i : Nat) : Fld := ⟨0x64160 + 0x4000 * (i / 2) + 0x200 * (i % 2), 24, 8, .hu, 0, 0, 0, 255⟩
def DRC_CH_TRIAL_RD_DLY0 (i j : Nat) : Fld := ⟨0x64120 + 0x4000 * (i / 2) + 0x200 * (i % 2) + 0x4 * j, 0, 8, .lv, 64, 64, 0, 255⟩
def DRC_CH_TRIAL_RD_DLY1 (i j : Nat) : Fld := ⟨0x64120 + 0x4000 * (i / 2) + 0x200 * (i % 2) + 0x4 * j, 8, 8, .lv, 64, 64, 0, 255⟩
def DRC_CH_TRIAL_RD_DLY2 (i j : Nat) : Fld := ⟨0x64120 + 0x4000 * (i / 2) + 0x200 * (i % 2) + 0x4 * j, 16, 8, .lv, 64, 64, 0, 255⟩
def DRC_CH_TRIAL_RD_DLY3 (i j : Nat) : Fld := ⟨0x64120 + 0x4000 * (i / 2) + 0x200 * (i % 2) + 0x4 * j, 24, 8, .lv, 64, 64, 0, 255⟩
def DRC_CH_TRIAL_WR_DLY0 (i j : Nat) : Fld := ⟨0x64130 + 0x4000 * (i / 2) + 0x200 * (i % 2) + 0x4 * j, 0, 8, .lv, 64, 64, 0, 255⟩
def DRC_CH_TRIAL_WR_DLY1 (i j : Nat) : Fld := ⟨0x64130 + 0x4000 * (i / 2) + 0x200 * (i % 2) + 0x4 * j, 8, 8, .lv, 64, 64, 0, 255⟩
def DRC_CH_TRIAL_WR_DLY2 (i j : Nat) : Fld := ⟨0x64130 + 0x4000 * (i / 2) + 0x200 * (i % 2) + 0x4 * j, 16, 8, .lv, 64, 64, 0, 255⟩
def DRC_CH_TRIAL_WR_DLY3 (i j : Nat) : Fld := ⟨0x64130 + 0x4000 * (i / 2) + 0x200 * (i % 2) + 0x4 * j, 24, 8, .lv, 64, 64, 0, 255⟩
def DRC_CH_RD_DLY_DLY0 (i j : Nat) : Fld := ⟨0x64140 + 0x4000 * (i / 2) + 0x200 * (i % 2) + 0x4 * j, 0, 8, .hu, 64, 64, 0, 255⟩
def DRC_CH_RD_DLY_DLY1 (i j : Nat) : Fld := ⟨0x64140 + 0x4000 * (i / 2) + 0x200 * (i % 2) + 0x4 * j, 8, 8, .hu, 64, 64, 0, 255⟩
def DRC_CH_RD_DLY_DLY2 (i j : Nat) : Fld := ⟨0x64140 + 0x4000 * (i / 2) + 0x200 * (i % 2) + 0x4 * j, 16, 8, .hu, 64, 64, 0, 255⟩
def DRC_CH_RD_DLY_DLY3 (i j : Nat) : Fld := ⟨0x64140 + 0x4000 * (i / 2) + 0x200 * (i % 2) + 0x4 * j, 24, 8, .hu, 64, 64, 0, 255⟩
def DRC_CH_WR_DLY_DLY0 (i j : Nat) : Fld := ⟨0x64150 + 0x4000 * (i / 2) + 0x200 * (i % 2) + 0x4 * j, 0, 8, .hu, 64, 64, 0, 255⟩
def DRC_CH_WR_DLY_DLY1 (i j : Nat) : Fld := ⟨0x64150 + 0x4000 * (i / 2) + 0x200 * (i % 2) + 0x4 * j, 8, 8, .hu, 64, 64, 0, 255⟩
def DRC_CH_WR_DLY_DLY2 (i j : Nat) : Fld := ⟨0x64150 + 0x4000 * (i / 2) + 0x200 * (i % 2) + 0x4 * j, 16, 8, .hu, 64, 64, 0, 255⟩
def DRC_CH_WR_DLY_DLY3 (i j : Nat) : Fld := ⟨0x64150 + 0x4000 * (i / 2) + 0x200 * (i % 2) + 0x4 * j, 24, 8, .hu, 64, 64, 0, 255⟩
def DRC_CH_EVT_CE (i : Nat) : Fld := ⟨0x64170 + 0x4000 * (i / 2) + 0x200 * (i % 2), 0, 32, .ct, 0, 0, 0, 4294967295⟩
def DRC_CH_EVT_UE (i : Nat) : Fld := ⟨0x64174 + 0x4000 * (i / 2) + 0x200 * (i % 2), 0, 32, .ct, 0, 0, 0, 4294967295⟩
def DRC_CH_EVT_RETRY_OK (i : Nat) : Fld := ⟨0x64178 + 0x4000 * (i / 2) + 0x200 * (i % 2), 0, 32, .ct, 0, 0, 0, 4294967295⟩
def DRC_CH_EVT_REF_BURST (i : Nat) : Fld := ⟨0x6417C + 0x4000 * (i / 2) + 0x200 * (i % 2), 0, 32, .ct, 0, 0, 0, 4294967295⟩
def DRC_CH_EVT_RFM (i : Nat) : Fld := ⟨0x64180 + 0x4000 * (i / 2) + 0x200 * (i % 2), 0, 32, .ct, 0, 0, 0, 4294967295⟩
def DRC_CH_EVT_THROTTLE (i : Nat) : Fld := ⟨0x64184 + 0x4000 * (i / 2) + 0x200 * (i % 2), 0, 32, .ct, 0, 0, 0, 4294967295⟩
def DRC_CH_EVT_ERRRSP (i : Nat) : Fld := ⟨0x64188 + 0x4000 * (i / 2) + 0x200 * (i % 2), 0, 32, .ct, 0, 0, 0, 4294967295⟩
def DRC_CH_EVT_HOT (i : Nat) : Fld := ⟨0x6418C + 0x4000 * (i / 2) + 0x200 * (i % 2), 0, 32, .ct, 0, 0, 0, 4294967295⟩
def DRC_STATE_TRAIN_FAIL (h : Nat) : Fld := ⟨0x64008 + 0x4000 * h, 8, 2, .ro, 0, 0, 0, 3⟩
def DRC_STATE_QUAR (h : Nat) : Fld := ⟨0x64008 + 0x4000 * h, 12, 2, .ro, 0, 0, 0, 3⟩

/-! ### PRS -/

def PRS_CFG_MODE (h : Nat) : Fld := ⟨0x6C020 + 0x4000 * h, 0, 1, .rw, 0, 0, 0, 1⟩
def PRS_CFG_SURFACE (h : Nat) : Fld := ⟨0x6C020 + 0x4000 * h, 8, 4, .rw, 0, 0, 0, 15⟩
def PRS_WIN_XY_X (h : Nat) : Fld := ⟨0x6C024 + 0x4000 * h, 0, 16, .rw, 0, 0, 0, 65535⟩
def PRS_WIN_XY_Y (h : Nat) : Fld := ⟨0x6C024 + 0x4000 * h, 16, 16, .rw, 0, 0, 0, 65535⟩
def PRS_WIN_SIZE_W (h : Nat) : Fld := ⟨0x6C028 + 0x4000 * h, 0, 16, .rw, 0, 0, 0, 65535⟩
def PRS_WIN_SIZE_H (h : Nat) : Fld := ⟨0x6C028 + 0x4000 * h, 16, 16, .rw, 0, 0, 0, 65535⟩
def PRS_BG_RGB (h : Nat) : Fld := ⟨0x6C02C + 0x4000 * h, 0, 30, .rw, 0, 0, 0, 1073741823⟩
def PRS_CACHE_BASE_BASE (h : Nat) : Fld := ⟨0x6C030 + 0x4000 * h, 0, 20, .rw, 0, 0, 0, 1048575⟩
def PRS_CACHE_SLOT_SIZE (h : Nat) : Fld := ⟨0x6C034 + 0x4000 * h, 0, 20, .rw, 0, 0, 0, 1048575⟩
def PRS_BANK_SEL (h : Nat) : Fld := ⟨0x6C038 + 0x4000 * h, 0, 1, .lv, 0, 0, 0, 1⟩
def PRS_BANK_CUR (h : Nat) : Fld := ⟨0x6C038 + 0x4000 * h, 8, 1, .ro, 0, 0, 0, 1⟩
def PRS_STATUS_PC (h : Nat) : Fld := ⟨0x6C040 + 0x4000 * h, 0, 8, .ro, 0, 0, 0, 255⟩
def PRS_STATUS_ERR (h : Nat) : Fld := ⟨0x6C040 + 0x4000 * h, 8, 3, .ro, 0, 0, 0, 7⟩
def PRS_STATUS_VALID (h : Nat) : Fld := ⟨0x6C040 + 0x4000 * h, 16, 4, .ro, 0, 0, 0, 15⟩
def PRS_LAST_CYCLES_CLOCKS (h : Nat) : Fld := ⟨0x6C044 + 0x4000 * h, 0, 32, .ro, 0, 0, 0, 4294967295⟩
def PRS_EVT_OVERRUN (h : Nat) : Fld := ⟨0x6C048 + 0x4000 * h, 0, 32, .ct, 0, 0, 0, 4294967295⟩
def PRS_EVT_LISTERR (h : Nat) : Fld := ⟨0x6C04C + 0x4000 * h, 0, 32, .ct, 0, 0, 0, 4294967295⟩
def PRS_EVT_FLATTEN (h : Nat) : Fld := ⟨0x6C050 + 0x4000 * h, 0, 32, .ct, 0, 0, 0, 4294967295⟩
def PRS_EVT_FLATSKIP (h : Nat) : Fld := ⟨0x6C054 + 0x4000 * h, 0, 32, .ct, 0, 0, 0, 4294967295⟩
def PRS_CTRL_FLAGS (h : Nat) : Fld := ⟨0x6C004 + 0x4000 * h, 8, 8, .lv, 0, 0, 0, 255⟩

/-! ### LYR -/

def LYR_COMMIT_MASK (h : Nat) : Fld := ⟨0x74020 + 0x4000 * h, 0, 16, .cm, 0, 0, 0, 65535⟩
def LYR_TOUCH_MASK (h : Nat) : Fld := ⟨0x74024 + 0x4000 * h, 0, 16, .cm, 0, 0, 0, 65535⟩
def LYR_EVT_LATE (h : Nat) : Fld := ⟨0x74028 + 0x4000 * h, 0, 32, .ct, 0, 0, 0, 4294967295⟩
def LYR_CTL_EN (h i : Nat) : Fld := ⟨0x74100 + 0x4000 * h + 0x40 * i, 0, 1, .lv, 0, 0, 0, 1⟩
def LYR_CTL_PAL (h i : Nat) : Fld := ⟨0x74100 + 0x4000 * h + 0x40 * i, 8, 3, .lv, 0, 0, 0, 7⟩
def LYR_BASE_BASE (h i : Nat) : Fld := ⟨0x74104 + 0x4000 * h + 0x40 * i, 0, 20, .lv, 0, 0, 0, 1048575⟩
def LYR_BASE_MEM (h i : Nat) : Fld := ⟨0x74104 + 0x4000 * h + 0x40 * i, 31, 1, .lv, 0, 0, 0, 1⟩
def LYR_CFG_FMT (h i : Nat) : Fld := ⟨0x74108 + 0x4000 * h + 0x40 * i, 0, 4, .rw, 0, 0, 0, 7⟩
def LYR_CFG_MODE (h i : Nat) : Fld := ⟨0x74108 + 0x4000 * h + 0x40 * i, 4, 3, .rw, 0, 0, 0, 3⟩
def LYR_CFG_STATIC (h i : Nat) : Fld := ⟨0x74108 + 0x4000 * h + 0x40 * i, 8, 1, .rw, 0, 0, 0, 1⟩
def LYR_CFG_CAP_EN (h i : Nat) : Fld := ⟨0x74108 + 0x4000 * h + 0x40 * i, 9, 1, .rw, 0, 0, 0, 1⟩
def LYR_CFG_GALPHA (h i : Nat) : Fld := ⟨0x74108 + 0x4000 * h + 0x40 * i, 16, 10, .rw, 1023, 1023, 0, 1023⟩
def LYR_STRIDE_BYTES (h i : Nat) : Fld := ⟨0x7410C + 0x4000 * h + 0x40 * i, 0, 20, .rw, 0, 0, 0, 1048575⟩
def LYR_BUFSIZE_SIZE (h i : Nat) : Fld := ⟨0x74110 + 0x4000 * h + 0x40 * i, 0, 20, .rw, 0, 0, 0, 1048575⟩
def LYR_CAP_STREAM (h i : Nat) : Fld := ⟨0x74114 + 0x4000 * h + 0x40 * i, 0, 10, .rw, 0, 0, 0, 1023⟩
def LYR_WIN_XY_U (h i : Nat) : Fld := ⟨0x74118 + 0x4000 * h + 0x40 * i, 0, 16, .hu, 0, 0, 0, 65535⟩
def LYR_WIN_XY_V (h i : Nat) : Fld := ⟨0x74118 + 0x4000 * h + 0x40 * i, 16, 16, .hu, 0, 0, 0, 65535⟩
def LYR_WIN_SIZE_W (h i : Nat) : Fld := ⟨0x7411C + 0x4000 * h + 0x40 * i, 0, 16, .hu, 0, 0, 0, 65535⟩
def LYR_WIN_SIZE_H (h i : Nat) : Fld := ⟨0x7411C + 0x4000 * h + 0x40 * i, 16, 16, .hu, 0, 0, 0, 65535⟩
def LYR_OFS_X (h i : Nat) : Fld := ⟨0x74120 + 0x4000 * h + 0x40 * i, 0, 16, .hu, 0, 0, 0, 65535⟩
def LYR_OFS_Y (h i : Nat) : Fld := ⟨0x74120 + 0x4000 * h + 0x40 * i, 16, 16, .hu, 0, 0, 0, 65535⟩
def LYR_STATE_RUN (h i : Nat) : Fld := ⟨0x74124 + 0x4000 * h + 0x40 * i, 0, 3, .ro, 0, 0, 0, 7⟩
def LYR_STATE_PENDING (h i : Nat) : Fld := ⟨0x74124 + 0x4000 * h + 0x40 * i, 8, 1, .ro, 0, 0, 0, 1⟩
def LYR_STATE_CUR (h i : Nat) : Fld := ⟨0x74124 + 0x4000 * h + 0x40 * i, 9, 1, .ro, 0, 0, 0, 1⟩
def LYR_STATE_HELD (h i : Nat) : Fld := ⟨0x74124 + 0x4000 * h + 0x40 * i, 10, 1, .ro, 0, 0, 0, 1⟩
def LYR_STATE_EN_CUR (h i : Nat) : Fld := ⟨0x74124 + 0x4000 * h + 0x40 * i, 11, 1, .ro, 0, 0, 0, 1⟩
def LYR_STATE_PAL_CUR (h i : Nat) : Fld := ⟨0x74124 + 0x4000 * h + 0x40 * i, 12, 3, .ro, 0, 0, 0, 7⟩
def LYR_GEN_GEN (h i : Nat) : Fld := ⟨0x74128 + 0x4000 * h + 0x40 * i, 0, 32, .ro, 0, 0, 0, 4294967295⟩
def LYR_FRAME_FRAME (h i : Nat) : Fld := ⟨0x7412C + 0x4000 * h + 0x40 * i, 0, 32, .ro, 0, 0, 0, 4294967295⟩
def LYR_RETIRED_EPOCH_EPOCH (h i : Nat) : Fld := ⟨0x74130 + 0x4000 * h + 0x40 * i, 0, 32, .ro, 0, 0, 0, 4294967295⟩
def LYR_EVT_INCOMPLETE (h i : Nat) : Fld := ⟨0x74134 + 0x4000 * h + 0x40 * i, 0, 32, .ct, 0, 0, 0, 4294967295⟩
def LYR_EVT_REJECT (h i : Nat) : Fld := ⟨0x74138 + 0x4000 * h + 0x40 * i, 0, 32, .ct, 0, 0, 0, 4294967295⟩

/-! ### DRN -/

def DRN_CFG_MODE (h : Nat) : Fld := ⟨0x7C020 + 0x4000 * h, 0, 2, .rw, 0, 0, 0, 2⟩
def DRN_CFG_FLAT (h : Nat) : Fld := ⟨0x7C020 + 0x4000 * h, 16, 16, .rw, 0, 0, 0, 65535⟩
def DRN_BANK_SEL (h : Nat) : Fld := ⟨0x7C024 + 0x4000 * h, 0, 1, .lv, 0, 0, 0, 1⟩
def DRN_BANK_CUR (h : Nat) : Fld := ⟨0x7C024 + 0x4000 * h, 8, 1, .ro, 0, 0, 0, 1⟩
def DRN_BANK_PENDING (h : Nat) : Fld := ⟨0x7C024 + 0x4000 * h, 9, 1, .ro, 0, 0, 0, 1⟩
def DRN_BANK_LOADING (h : Nat) : Fld := ⟨0x7C024 + 0x4000 * h, 10, 1, .ro, 0, 0, 0, 1⟩
def DRN_PAGE_PAGE (h : Nat) : Fld := ⟨0x7C028 + 0x4000 * h, 0, 4, .lv, 0, 0, 0, 9⟩
def DRN_LOAD_BASE_BASE (h : Nat) : Fld := ⟨0x7C02C + 0x4000 * h, 0, 20, .rw, 0, 0, 0, 1048575⟩
def DRN_CMD_LOAD (h : Nat) : Fld := ⟨0x7C030 + 0x4000 * h, 0, 1, .cm, 0, 0, 0, 1⟩
def DRN_CMD_VERIFY (h : Nat) : Fld := ⟨0x7C030 + 0x4000 * h, 1, 1, .cm, 0, 0, 0, 1⟩
def DRN_BANK_CRC_CRC (h : Nat) : Fld := ⟨0x7C034 + 0x4000 * h, 0, 32, .ro, 0, 0, 0, 4294967295⟩
def DRN_RETIRED_EPOCH_EPOCH (h : Nat) : Fld := ⟨0x7C038 + 0x4000 * h, 0, 32, .ro, 0, 0, 0, 4294967295⟩
def DRN_LAST_CYCLES_CLOCKS (h : Nat) : Fld := ⟨0x7C03C + 0x4000 * h, 0, 32, .ro, 0, 0, 0, 4294967295⟩
def DRN_MEND_STATE_APPLIED (h : Nat) : Fld := ⟨0x7C040 + 0x4000 * h, 0, 13, .ro, 0, 0, 0, 8191⟩
def DRN_MEND_STATE_SKIPPED (h : Nat) : Fld := ⟨0x7C040 + 0x4000 * h, 16, 15, .ro, 0, 0, 0, 32767⟩
def DRN_MAP_ERR_SINK (h : Nat) : Fld := ⟨0x7C044 + 0x4000 * h, 0, 10, .ro, 0, 0, 0, 1023⟩
def DRN_MAP_ERR_ROW (h : Nat) : Fld := ⟨0x7C044 + 0x4000 * h, 10, 6, .ro, 0, 0, 0, 63⟩
def DRN_MAP_ERR_VALID (h : Nat) : Fld := ⟨0x7C044 + 0x4000 * h, 16, 1, .ro, 0, 0, 0, 1⟩
def DRN_EVT_RANGE (h : Nat) : Fld := ⟨0x7C048 + 0x4000 * h, 0, 32, .ct, 0, 0, 0, 4294967295⟩
def DRN_EVT_SAT (h : Nat) : Fld := ⟨0x7C04C + 0x4000 * h, 0, 32, .ct, 0, 0, 0, 4294967295⟩
def DRN_CTRL_MEND_EN (h : Nat) : Fld := ⟨0x7C004 + 0x4000 * h, 8, 1, .rw, 0, 0, 0, 1⟩

/-! ### SCN -/

def SCN_FB_BASE (h : Nat) : Fld := ⟨0x84020 + 0x4000 * h, 0, 20, .lv, 0, 0, 0, 1048575⟩
def SCN_FB_SRC (h : Nat) : Fld := ⟨0x84020 + 0x4000 * h, 31, 1, .lv, 0, 0, 0, 1⟩
def SCN_COMMIT_GO (h : Nat) : Fld := ⟨0x84024 + 0x4000 * h, 0, 1, .cm, 0, 0, 0, 1⟩
def SCN_FB_CUR_BASE (h : Nat) : Fld := ⟨0x84028 + 0x4000 * h, 0, 20, .ro, 0, 0, 0, 1048575⟩
def SCN_FB_CUR_PENDING (h : Nat) : Fld := ⟨0x84028 + 0x4000 * h, 30, 1, .ro, 0, 0, 0, 1⟩
def SCN_FB_CUR_SRC (h : Nat) : Fld := ⟨0x84028 + 0x4000 * h, 31, 1, .ro, 0, 0, 0, 1⟩
def SCN_ROWCFG_ROWS (h : Nat) : Fld := ⟨0x84040 + 0x4000 * h, 0, 7, .rw, 1, 1, 1, 64⟩
def SCN_ROWCFG_SUBF (h : Nat) : Fld := ⟨0x84040 + 0x4000 * h, 8, 5, .rw, 1, 1, 1, 16⟩
def SCN_ROWCFG_SUBF_STATIC (h : Nat) : Fld := ⟨0x84040 + 0x4000 * h, 16, 5, .rw, 1, 1, 1, 16⟩
def SCN_ROWCFG_ROT (h : Nat) : Fld := ⟨0x84040 + 0x4000 * h, 24, 6, .rw, 0, 0, 0, 63⟩
def SCN_ROWCFG_WRAIL (h : Nat) : Fld := ⟨0x84040 + 0x4000 * h, 30, 2, .rw, 3, 3, 0, 3⟩
def SCN_SLOT_NS (h : Nat) : Fld := ⟨0x84044 + 0x4000 * h, 0, 20, .rw, 1500, 1500, 1500, 1048575⟩
def SCN_PULSE_MAX_NS (h : Nat) : Fld := ⟨0x84048 + 0x4000 * h, 0, 20, .rw, 1400, 1400, 0, 1048575⟩
def SCN_FLOOR_HZ (h : Nat) : Fld := ⟨0x8404C + 0x4000 * h, 0, 16, .rw, 1920, 1920, 0, 65535⟩
def SCN_INC_INC (h : Nat) : Fld := ⟨0x84050 + 0x4000 * h, 0, 28, .ro, 0, 0, 0, 268435455⟩
def SCN_STATUS_ROLE (h : Nat) : Fld := ⟨0x84054 + 0x4000 * h, 0, 2, .ro, 0, 0, 0, 3⟩
def SCN_STATUS_STATIC (h : Nat) : Fld := ⟨0x84054 + 0x4000 * h, 2, 1, .ro, 0, 0, 0, 1⟩
def SCN_STATUS_TMISMATCH (h : Nat) : Fld := ⟨0x84054 + 0x4000 * h, 3, 1, .ro, 0, 0, 0, 1⟩
def SCN_STATUS_S_EFF (h : Nat) : Fld := ⟨0x84054 + 0x4000 * h, 8, 5, .ro, 0, 0, 0, 31⟩
def SCN_STATUS_VALID (h : Nat) : Fld := ⟨0x84054 + 0x4000 * h, 16, 8, .ro, 0, 0, 0, 255⟩
def SCN_POS_SLOT (h : Nat) : Fld := ⟨0x84058 + 0x4000 * h, 0, 11, .ro, 0, 0, 0, 2047⟩
def SCN_POS_SUBF (h : Nat) : Fld := ⟨0x84058 + 0x4000 * h, 16, 4, .ro, 0, 0, 0, 15⟩
def SCN_POS_ROW (h : Nat) : Fld := ⟨0x84058 + 0x4000 * h, 24, 6, .ro, 0, 0, 0, 63⟩
def SCN_POS_GAP (h : Nat) : Fld := ⟨0x84058 + 0x4000 * h, 31, 1, .ro, 0, 0, 0, 1⟩
def SCN_EVT_INVALID (h : Nat) : Fld := ⟨0x84060 + 0x4000 * h, 0, 32, .ct, 0, 0, 0, 4294967295⟩
def SCN_EVT_UNDERRUN (h : Nat) : Fld := ⟨0x84064 + 0x4000 * h, 0, 32, .ct, 0, 0, 0, 4294967295⟩
def SCN_EVT_NOSWAP (h : Nat) : Fld := ⟨0x84068 + 0x4000 * h, 0, 32, .ct, 0, 0, 0, 4294967295⟩
def SCN_EVT_FLOORUP (h : Nat) : Fld := ⟨0x8406C + 0x4000 * h, 0, 32, .ct, 0, 0, 0, 4294967295⟩
def SCN_EVT_TMISMATCH (h : Nat) : Fld := ⟨0x84070 + 0x4000 * h, 0, 32, .ct, 0, 0, 0, 4294967295⟩
def SCN_CTRL_FORCE_STATIC (h : Nat) : Fld := ⟨0x84004 + 0x4000 * h, 8, 1, .lv, 0, 0, 0, 1⟩

/-! ### LMP -/

def LMP_REF_R (h : Nat) : Fld := ⟨0x8C020 + 0x4000 * h, 0, 10, .lv, 0, 0, 0, 1023⟩
def LMP_REF_G (h : Nat) : Fld := ⟨0x8C020 + 0x4000 * h, 10, 10, .lv, 0, 0, 0, 1023⟩
def LMP_REF_B (h : Nat) : Fld := ⟨0x8C020 + 0x4000 * h, 20, 10, .lv, 0, 0, 0, 1023⟩
def LMP_XOVER_C (h : Nat) : Fld := ⟨0x8C024 + 0x4000 * h, 0, 16, .rw, 4096, 4096, 16, 65535⟩
def LMP_DERATE_KNEE (h : Nat) : Fld := ⟨0x8C028 + 0x4000 * h, 0, 7, .rw, 95, 95, 70, 110⟩
def LMP_DERATE_FLOOR (h : Nat) : Fld := ⟨0x8C028 + 0x4000 * h, 16, 10, .rw, 512, 512, 0, 1023⟩
def LMP_DIAG_CFG_DIAG_EN (h : Nat) : Fld := ⟨0x8C02C + 0x4000 * h, 0, 1, .rw, 1, 1, 0, 1⟩
def LMP_DIAG_CFG_NB_EN (h : Nat) : Fld := ⟨0x8C02C + 0x4000 * h, 1, 1, .rw, 1, 1, 0, 1⟩
def LMP_DIAG_CFG_ROW_EN (h : Nat) : Fld := ⟨0x8C02C + 0x4000 * h, 2, 1, .rw, 1, 1, 0, 1⟩
def LMP_DEAD_NS (h : Nat) : Fld := ⟨0x8C030 + 0x4000 * h, 0, 10, .hu, 24, 24, 4, 1000⟩
def LMP_THR0_OPEN (h : Nat) : Fld := ⟨0x8C034 + 0x4000 * h, 0, 8, .hu, 15, 15, 0, 255⟩
def LMP_THR0_SHORT (h : Nat) : Fld := ⟨0x8C034 + 0x4000 * h, 16, 8, .hu, 120, 120, 0, 255⟩
def LMP_THR1_OPEN (h : Nat) : Fld := ⟨0x8C038 + 0x4000 * h, 0, 8, .hu, 15, 15, 0, 255⟩
def LMP_THR1_SHORT (h : Nat) : Fld := ⟨0x8C038 + 0x4000 * h, 16, 8, .hu, 120, 120, 0, 255⟩
def LMP_STATUS_DERATING (h : Nat) : Fld := ⟨0x8C040 + 0x4000 * h, 0, 1, .ro, 0, 0, 0, 1⟩
def LMP_STATUS_SHORT_NB (h : Nat) : Fld := ⟨0x8C040 + 0x4000 * h, 1, 1, .ro, 0, 0, 0, 1⟩
def LMP_STATUS_ROW_STUCK (h : Nat) : Fld := ⟨0x8C040 + 0x4000 * h, 2, 1, .ro, 0, 0, 0, 1⟩
def LMP_STATUS_LEAK (h : Nat) : Fld := ⟨0x8C040 + 0x4000 * h, 3, 1, .ro, 0, 0, 0, 1⟩
def LMP_STATUS_DEAD_CLIP (h : Nat) : Fld := ⟨0x8C040 + 0x4000 * h, 4, 1, .ro, 0, 0, 0, 1⟩
def LMP_STATUS_PROBE_NOROOM (h : Nat) : Fld := ⟨0x8C040 + 0x4000 * h, 5, 1, .ro, 0, 0, 0, 1⟩
def LMP_STATUS_CLAMP (h : Nat) : Fld := ⟨0x8C040 + 0x4000 * h, 6, 1, .ro, 0, 0, 0, 1⟩
def LMP_DERATE_NOW_TMAX (h : Nat) : Fld := ⟨0x8C044 + 0x4000 * h, 0, 10, .ro, 0, 0, 0, 1023⟩
def LMP_DERATE_NOW_D (h : Nat) : Fld := ⟨0x8C044 + 0x4000 * h, 16, 11, .ro, 1024, 1024, 0, 2047⟩
def LMP_CNT_A_OPEN (h : Nat) : Fld := ⟨0x8C048 + 0x4000 * h, 0, 16, .ro, 0, 0, 0, 65535⟩
def LMP_CNT_A_SHORT (h : Nat) : Fld := ⟨0x8C048 + 0x4000 * h, 16, 16, .ro, 0, 0, 0, 65535⟩
def LMP_CNT_B_UNVERIFIED (h : Nat) : Fld := ⟨0x8C04C + 0x4000 * h, 0, 16, .ro, 32768, 32768, 0, 65535⟩
def LMP_CNT_B_GOOD (h : Nat) : Fld := ⟨0x8C04C + 0x4000 * h, 16, 16, .ro, 0, 0, 0, 65535⟩
def LMP_ROW_LAST_ROW (h : Nat) : Fld := ⟨0x8C050 + 0x4000 * h, 0, 6, .ro, 0, 0, 0, 63⟩
def LMP_ROW_LAST_KIND (h : Nat) : Fld := ⟨0x8C050 + 0x4000 * h, 8, 2, .ro, 0, 0, 0, 3⟩
def LMP_NB_LAST_SINK (h : Nat) : Fld := ⟨0x8C054 + 0x4000 * h, 0, 9, .ro, 0, 0, 0, 511⟩
def LMP_NB_LAST_VALID (h : Nat) : Fld := ⟨0x8C054 + 0x4000 * h, 16, 1, .ro, 0, 0, 0, 1⟩
def LMP_ROW_STUCK_LO_ROWS (h : Nat) : Fld := ⟨0x8C058 + 0x4000 * h, 0, 32, .ro, 0, 0, 0, 4294967295⟩
def LMP_ROW_STUCK_HI_ROWS (h : Nat) : Fld := ⟨0x8C05C + 0x4000 * h, 0, 32, .ro, 0, 0, 0, 4294967295⟩
def LMP_EVT_OPEN (h : Nat) : Fld := ⟨0x8C060 + 0x4000 * h, 0, 32, .ct, 0, 0, 0, 4294967295⟩
def LMP_EVT_SHORT (h : Nat) : Fld := ⟨0x8C064 + 0x4000 * h, 0, 32, .ct, 0, 0, 0, 4294967295⟩
def LMP_EVT_NB (h : Nat) : Fld := ⟨0x8C068 + 0x4000 * h, 0, 32, .ct, 0, 0, 0, 4294967295⟩
def LMP_EVT_ROW (h : Nat) : Fld := ⟨0x8C06C + 0x4000 * h, 0, 32, .ct, 0, 0, 0, 4294967295⟩
def LMP_EVT_PROBE (h : Nat) : Fld := ⟨0x8C070 + 0x4000 * h, 0, 32, .ct, 0, 0, 0, 4294967295⟩
def LMP_EVT_OVERTEMP (h : Nat) : Fld := ⟨0x8C074 + 0x4000 * h, 0, 32, .ct, 0, 0, 0, 4294967295⟩
def LMP_EVT_LINK (h : Nat) : Fld := ⟨0x8C078 + 0x4000 * h, 0, 32, .ct, 0, 0, 0, 4294967295⟩
def LMP_EVT_RESTORE (h : Nat) : Fld := ⟨0x8C07C + 0x4000 * h, 0, 32, .ct, 0, 0, 0, 4294967295⟩
def LMP_FORCED_SINKS (h j : Nat) : Fld := ⟨0x8C100 + 0x4000 * h + 0x4 * j, 0, 32, .ro, 0, 0, 0, 4294967295⟩
def LMP_NBSHORT_SINKS (h j : Nat) : Fld := ⟨0x8C140 + 0x4000 * h + 0x4 * j, 0, 32, .ro, 0, 0, 0, 4294967295⟩
def LMP_RESTORE_SINKS (h j : Nat) : Fld := ⟨0x8C180 + 0x4000 * h + 0x4 * j, 0, 32, .cm, 0, 0, 0, 4294967295⟩
def LMP_TDLY_TAPS0 (h j : Nat) : Fld := ⟨0x8C200 + 0x4000 * h + 0x4 * j, 0, 6, .hu, 0, 0, 0, 63⟩
def LMP_TDLY_TAPS1 (h j : Nat) : Fld := ⟨0x8C200 + 0x4000 * h + 0x4 * j, 8, 6, .hu, 0, 0, 0, 63⟩
def LMP_TDLY_TAPS2 (h j : Nat) : Fld := ⟨0x8C200 + 0x4000 * h + 0x4 * j, 16, 6, .hu, 0, 0, 0, 63⟩
def LMP_TDLY_TAPS3 (h j : Nat) : Fld := ⟨0x8C200 + 0x4000 * h + 0x4 * j, 24, 6, .hu, 0, 0, 0, 63⟩
def LMP_TRIM_TRIM0 (h j : Nat) : Fld := ⟨0x8C400 + 0x4000 * h + 0x4 * j, 0, 8, .rw, 128, 128, 0, 255⟩
def LMP_TRIM_TRIM1 (h j : Nat) : Fld := ⟨0x8C400 + 0x4000 * h + 0x4 * j, 8, 8, .rw, 128, 128, 0, 255⟩
def LMP_TRIM_TRIM2 (h j : Nat) : Fld := ⟨0x8C400 + 0x4000 * h + 0x4 * j, 16, 8, .rw, 128, 128, 0, 255⟩
def LMP_TRIM_TRIM3 (h j : Nat) : Fld := ⟨0x8C400 + 0x4000 * h + 0x4 * j, 24, 8, .rw, 128, 128, 0, 255⟩
def LMP_LAMP_STATE_STATES (h j : Nat) : Fld := ⟨0x8C600 + 0x4000 * h + 0x4 * j, 0, 32, .ro, 0, 0, 0, 4294967295⟩
def LMP_CTRL_PROBE_EN (h : Nat) : Fld := ⟨0x8C004 + 0x4000 * h, 8, 1, .lv, 0, 0, 0, 1⟩
def LMP_CTRL_AUTO_RESTORE (h : Nat) : Fld := ⟨0x8C004 + 0x4000 * h, 9, 1, .lv, 0, 0, 0, 1⟩
def LMP_CTRL_ROWSEL (h : Nat) : Fld := ⟨0x8C004 + 0x4000 * h, 10, 6, .lv, 0, 0, 0, 63⟩
def LMP_STATE_BLK (h : Nat) : Fld := ⟨0x8C008 + 0x4000 * h, 8, 8, .ro, 1, 1, 0, 255⟩

/-! ### LOP -/

def LOP_CHECK_ADDR : Fld := ⟨0x94020, 0, 12, .ro, 0, 0, 0, 4095⟩
def LOP_CHECK_SLOT : Fld := ⟨0x94020, 16, 5, .ro, 0, 0, 0, 31⟩
def LOP_CHECK_REASON : Fld := ⟨0x94020, 24, 8, .ro, 0, 0, 0, 255⟩
def LOP_UTIL_SUM : Fld := ⟨0x94024, 0, 17, .ro, 0, 0, 0, 131071⟩
def LOP_RESTART_SLOTS : Fld := ⟨0x94028, 0, 24, .cm, 0, 0, 0, 16777215⟩
def LOP_SLOT_HALT_SLOTS : Fld := ⟨0x9402C, 0, 24, .ro, 0, 0, 0, 16777215⟩
def LOP_EVT_HALT : Fld := ⟨0x94030, 0, 32, .ct, 0, 0, 0, 4294967295⟩
def LOP_XCHG_X0 (j : Nat) : Fld := ⟨0x94040 + 0x4 * j, 0, 16, .ro, 0, 0, 0, 65535⟩
def LOP_XCHG_X1 (j : Nat) : Fld := ⟨0x94040 + 0x4 * j, 16, 16, .ro, 0, 0, 0, 65535⟩
def LOP_SLOT_CFG_EN (i : Nat) : Fld := ⟨0x94100 + 0x20 * i, 0, 1, .rw, 0, 0, 0, 1⟩
def LOP_SLOT_CFG_RAIL (i : Nat) : Fld := ⟨0x94100 + 0x20 * i, 4, 4, .rw, 7, 7, 0, 15⟩
def LOP_SLOT_CFG_ENTRY (i : Nat) : Fld := ⟨0x94100 + 0x20 * i, 16, 12, .rw, 0, 0, 0, 4095⟩
def LOP_SLOT_TIME_PERIOD (i : Nat) : Fld := ⟨0x94104 + 0x20 * i, 0, 10, .rw, 1000, 1000, 125, 1000⟩
def LOP_SLOT_TIME_PHASE (i : Nat) : Fld := ⟨0x94104 + 0x20 * i, 16, 10, .rw, 0, 0, 0, 1023⟩
def LOP_SLOT_TGT01_LO (i : Nat) : Fld := ⟨0x94108 + 0x20 * i, 0, 16, .lv, 0, 0, 0, 65535⟩
def LOP_SLOT_TGT01_HI (i : Nat) : Fld := ⟨0x94108 + 0x20 * i, 16, 16, .lv, 0, 0, 0, 65535⟩
def LOP_SLOT_TGT23_LO (i : Nat) : Fld := ⟨0x9410C + 0x20 * i, 0, 16, .lv, 0, 0, 0, 65535⟩
def LOP_SLOT_TGT23_HI (i : Nat) : Fld := ⟨0x9410C + 0x20 * i, 16, 16, .lv, 0, 0, 0, 65535⟩
def LOP_SLOT_INFO_LEN (i : Nat) : Fld := ⟨0x94110 + 0x20 * i, 0, 7, .ro, 0, 0, 0, 127⟩
def LOP_SLOT_INFO_LAT (i : Nat) : Fld := ⟨0x94110 + 0x20 * i, 8, 7, .ro, 0, 0, 0, 127⟩
def LOP_SLOT_INFO_WIN (i : Nat) : Fld := ⟨0x94110 + 0x20 * i, 16, 2, .ro, 0, 0, 0, 3⟩
def LOP_SLOT_JIT_LAST (i : Nat) : Fld := ⟨0x94114 + 0x20 * i, 0, 16, .ro, 0, 0, 0, 65535⟩
def LOP_SLOT_JIT_MAX (i : Nat) : Fld := ⟨0x94114 + 0x20 * i, 16, 16, .ro, 0, 0, 0, 65535⟩
def LOP_SLOT_EVT_SKIP (i : Nat) : Fld := ⟨0x94118 + 0x20 * i, 0, 32, .ct, 0, 0, 0, 4294967295⟩
def LOP_SLOT_EVT_SAT (i : Nat) : Fld := ⟨0x9411C + 0x20 * i, 0, 32, .ct, 0, 0, 0, 4294967295⟩
def LOP_RAIL_LANES_SS (i : Nat) : Fld := ⟨0x94400 + 0x40 * i, 0, 4, .rw, 15, 15, 1, 15⟩
def LOP_RAIL_LANES_RUN (i : Nat) : Fld := ⟨0x94400 + 0x40 * i, 4, 4, .rw, 7, 7, 1, 15⟩
/-- R64 speaks of values a Meaning cell lists as reserved or unused; a value outside a range that the cell gives is refused with RANGE
too (SLEW above 32,767; log entry 115). -/
def LOP_RAIL_HO_SLEW (i : Nat) : Fld := ⟨0x94404 + 0x40 * i, 0, 16, .lv, 64, 64, 1, 32767⟩
def LOP_RAIL_HO_SETTLE (i : Nat) : Fld := ⟨0x94404 + 0x40 * i, 16, 16, .rw, 256, 256, 0, 65535⟩
def LOP_RAIL_LIM_SP_MAX (i : Nat) : Fld := ⟨0x94408 + 0x40 * i, 0, 16, .rw, 32767, 32767, 0, 65535⟩
def LOP_RAIL_LIM_OV_LIM (i : Nat) : Fld := ⟨0x94408 + 0x40 * i, 16, 16, .rw, 25600, 25600, 0, 65535⟩
def LOP_RAIL_FF_LEAD (i : Nat) : Fld := ⟨0x9440C + 0x40 * i, 0, 8, .rw, 50, 50, 0, 255⟩
def LOP_RAIL_STATE_STATE (i : Nat) : Fld := ⟨0x94410 + 0x40 * i, 0, 3, .ro, 0, 0, 0, 7⟩
def LOP_RAIL_STATE_WIN (i : Nat) : Fld := ⟨0x94410 + 0x40 * i, 4, 2, .ro, 0, 0, 0, 3⟩
def LOP_RAIL_STATE_MODE_USED (i : Nat) : Fld := ⟨0x94410 + 0x40 * i, 8, 1, .ro, 0, 0, 0, 1⟩
def LOP_RAIL_STATE_SENSE_USED (i : Nat) : Fld := ⟨0x94410 + 0x40 * i, 9, 1, .ro, 0, 0, 0, 1⟩
def LOP_RAIL_STATE_FF_CLIP (i : Nat) : Fld := ⟨0x94410 + 0x40 * i, 10, 1, .ro, 0, 0, 0, 1⟩
def LOP_RAIL_SP_X (i : Nat) : Fld := ⟨0x94414 + 0x40 * i, 0, 16, .ro, 0, 0, 0, 65535⟩
def LOP_RAIL_SP_U (i : Nat) : Fld := ⟨0x94414 + 0x40 * i, 16, 16, .ro, 0, 0, 0, 65535⟩
def LOP_RAIL_EVT_HANDOVER (i : Nat) : Fld := ⟨0x94418 + 0x40 * i, 0, 32, .ct, 0, 0, 0, 4294967295⟩
def LOP_RAIL_EVT_OV (i : Nat) : Fld := ⟨0x9441C + 0x40 * i, 0, 32, .ct, 0, 0, 0, 4294967295⟩
/-- BAND below 16 or above 32,767 is refused with RANGE, as every value outside a range that a Meaning cell gives (log entry 115). -/
def LOP_CH_CFG_BAND (i : Nat) : Fld := ⟨0x94420 + 0x40 * i, 0, 16, .rw, 800, 800, 16, 32767⟩
def LOP_CH_CFG_OFS_SH (i : Nat) : Fld := ⟨0x94420 + 0x40 * i, 16, 4, .rw, 3, 3, 1, 8⟩
def LOP_CH_CFG_DT (i : Nat) : Fld := ⟨0x94420 + 0x40 * i, 24, 6, .rw, 10, 10, 4, 62⟩
def LOP_CH_OCL_OC_LIM (i : Nat) : Fld := ⟨0x94424 + 0x40 * i, 0, 16, .rw, 32767, 32767, 0, 65535⟩
def LOP_CH_OCL_OFS_LIM (i : Nat) : Fld := ⟨0x94424 + 0x40 * i, 16, 16, .rw, 1024, 1024, 0, 65535⟩
def LOP_CH_BASE_BASE_HI (i : Nat) : Fld := ⟨0x94428 + 0x40 * i, 0, 16, .hu, 0, 0, 0, 65535⟩
def LOP_CH_BASE_BASE_LO (i : Nat) : Fld := ⟨0x94428 + 0x40 * i, 16, 16, .hu, 0, 0, 0, 65535⟩
def LOP_CH_OFS_OFS (i : Nat) : Fld := ⟨0x9442C + 0x40 * i, 0, 16, .ro, 0, 0, 0, 65535⟩
def LOP_CH_MEAS_PEAK (i : Nat) : Fld := ⟨0x94430 + 0x40 * i, 0, 16, .ro, 0, 0, 0, 65535⟩
def LOP_CH_MEAS_VALLEY (i : Nat) : Fld := ⟨0x94430 + 0x40 * i, 16, 16, .ro, 0, 0, 0, 65535⟩
def LOP_CH_PERIOD_NS (i : Nat) : Fld := ⟨0x94434 + 0x40 * i, 0, 12, .ro, 0, 0, 0, 4095⟩
def LOP_CH_EVT_OC (i : Nat) : Fld := ⟨0x94438 + 0x40 * i, 0, 32, .ct, 0, 0, 0, 4294967295⟩
def LOP_CH_EVT_LIMIT (i : Nat) : Fld := ⟨0x9443C + 0x40 * i, 0, 32, .ct, 0, 0, 0, 4294967295⟩
def LOP_CTRL_MODE : Fld := ⟨0x94004, 8, 6, .lv, 0, 0, 0, 63⟩
def LOP_CTRL_SENSE_W : Fld := ⟨0x94004, 14, 1, .lv, 0, 0, 0, 1⟩
def LOP_CTRL_SENSE_E : Fld := ⟨0x94004, 15, 1, .lv, 0, 0, 0, 1⟩

/-! ### TRV -/

def TRV_CFG_GEN_EN : Fld := ⟨0x98020, 0, 4, .rw, 0, 0, 0, 15⟩
def TRV_CFG_LINK : Fld := ⟨0x98020, 8, 1, .rw, 0, 0, 0, 1⟩
def TRV_CMD_STOP : Fld := ⟨0x98024, 0, 4, .cm, 0, 0, 0, 15⟩
def TRV_CMD_RELOAD : Fld := ⟨0x98024, 8, 4, .cm, 0, 0, 0, 15⟩
def TRV_OUT_L_W : Fld := ⟨0x98028, 0, 16, .ro, 65535, 65535, 0, 65535⟩
def TRV_OUT_L_E : Fld := ⟨0x98028, 16, 16, .ro, 65535, 65535, 0, 65535⟩
def TRV_G_TARGET_TARGET (i : Nat) : Fld := ⟨0x98100 + 0x40 * i, 0, 16, .lv, 65535, 65535, 0, 65535⟩
def TRV_G_VMAX_VMAX (i : Nat) : Fld := ⟨0x98104 + 0x40 * i, 0, 32, .lv, 1048576, 1048576, 1, 4294967295⟩
def TRV_G_AMAX_AMAX (i : Nat) : Fld := ⟨0x98108 + 0x40 * i, 0, 32, .lv, 262144, 262144, 1, 4294967295⟩
def TRV_G_POS_P (i : Nat) : Fld := ⟨0x9810C + 0x40 * i, 0, 16, .ro, 65535, 65535, 0, 65535⟩
def TRV_G_POS_STATE (i : Nat) : Fld := ⟨0x9810C + 0x40 * i, 16, 2, .ro, 0, 0, 0, 3⟩
def TRV_G_POS_WHY (i : Nat) : Fld := ⟨0x9810C + 0x40 * i, 20, 4, .ro, 0, 0, 0, 15⟩
def TRV_G_POS_VDESC (i : Nat) : Fld := ⟨0x9810C + 0x40 * i, 24, 1, .ro, 0, 0, 0, 1⟩
def TRV_G_VEL_V (i : Nat) : Fld := ⟨0x98110 + 0x40 * i, 0, 32, .ro, 0, 0, 0, 4294967295⟩
def TRV_G_OVERSHOOT_PEAK (i : Nat) : Fld := ⟨0x98114 + 0x40 * i, 0, 16, .ro, 0, 0, 0, 65535⟩
def TRV_G_OVERSHOOT_DIST (i : Nat) : Fld := ⟨0x98114 + 0x40 * i, 16, 16, .ro, 0, 0, 0, 65535⟩
def TRV_G_EVT_OVERSHOOT (i : Nat) : Fld := ⟨0x98118 + 0x40 * i, 0, 32, .ct, 0, 0, 0, 4294967295⟩
def TRV_G_EVT_LOST (i : Nat) : Fld := ⟨0x9811C + 0x40 * i, 0, 32, .ct, 0, 0, 0, 4294967295⟩

/-! ### EPC -/

def EPC_CFG_MASTER : Fld := ⟨0x9C020, 0, 1, .rw, 0, 0, 0, 1⟩
def EPC_CFG_PTP : Fld := ⟨0x9C020, 1, 1, .rw, 0, 0, 0, 1⟩
def EPC_CFG_PTP_PORT : Fld := ⟨0x9C020, 2, 1, .rw, 0, 0, 0, 1⟩
def EPC_PERIOD_NS : Fld := ⟨0x9C024, 0, 26, .lv, 16666667, 16666667, 1041667, 41666667⟩
def EPC_PERIOD_NEXT_NS : Fld := ⟨0x9C028, 0, 26, .ro, 0, 0, 0, 67108863⟩
def EPC_PERIOD_AT_EPOCH : Fld := ⟨0x9C02C, 0, 32, .ro, 0, 0, 0, 4294967295⟩
def EPC_LEAD_US : Fld := ⟨0x9C030, 0, 9, .rw, 200, 200, 20, 500⟩
def EPC_STATE_STATE : Fld := ⟨0x9C034, 0, 2, .ro, 0, 0, 0, 3⟩
def EPC_STATE_DIR : Fld := ⟨0x9C034, 4, 1, .ro, 0, 0, 0, 1⟩
def EPC_STATE_HOLD_FLAG : Fld := ⟨0x9C034, 5, 1, .ro, 0, 0, 0, 1⟩
def EPC_STATE_PTP_LOSS : Fld := ⟨0x9C034, 6, 1, .ro, 0, 0, 0, 1⟩
def EPC_STATE_MASTER_HEAD : Fld := ⟨0x9C034, 16, 6, .ro, 0, 0, 0, 63⟩
def EPC_EPOCH_EPOCH : Fld := ⟨0x9C038, 0, 32, .ro, 0, 0, 0, 4294967295⟩
def EPC_ERR_ERR : Fld := ⟨0x9C03C, 0, 32, .ro, 0, 0, 0, 4294967295⟩
def EPC_TRIM_TRIM : Fld := ⟨0x9C040, 0, 32, .ro, 0, 0, 0, 4294967295⟩
def EPC_ORIGIN_LO_NS : Fld := ⟨0x9C044, 0, 32, .rw, 0, 0, 0, 4294967295⟩
def EPC_ORIGIN_HI_NS : Fld := ⟨0x9C048, 0, 32, .rw, 0, 0, 0, 4294967295⟩
def EPC_EVT_BCN_MISS : Fld := ⟨0x9C050, 0, 32, .ct, 0, 0, 0, 4294967295⟩
def EPC_EVT_DIR : Fld := ⟨0x9C054, 0, 32, .ct, 0, 0, 0, 4294967295⟩
def EPC_EVT_PHASE_STEP : Fld := ⟨0x9C058, 0, 32, .ct, 0, 0, 0, 4294967295⟩
def EPC_EVT_MISMATCH : Fld := ⟨0x9C05C, 0, 32, .ct, 0, 0, 0, 4294967295⟩
def EPC_EVT_CONTEST : Fld := ⟨0x9C060, 0, 32, .ct, 0, 0, 0, 4294967295⟩
def EPC_EVT_PTP_LOSS : Fld := ⟨0x9C064, 0, 32, .ct, 0, 0, 0, 4294967295⟩

/-! ### THM -/

def THM_CFG_HOT_LIM : Fld := ⟨0xA0020, 0, 8, .rw, 115, 115, 60, 125⟩
def THM_STATUS_FAULT : Fld := ⟨0xA0024, 0, 12, .ro, 0, 0, 0, 4095⟩
def THM_STATUS_HOT : Fld := ⟨0xA0024, 16, 1, .ro, 0, 0, 0, 1⟩
def THM_STATUS_DIS : Fld := ⟨0xA0024, 17, 4, .ro, 0, 0, 0, 15⟩
def THM_MAX_CTRL : Fld := ⟨0xA0028, 0, 12, .ro, 0, 0, 0, 4095⟩
def THM_MAX_SINK : Fld := ⟨0xA0028, 16, 12, .ro, 0, 0, 0, 4095⟩
def THM_S_T (j : Nat) : Fld := ⟨0xA0040 + 0x4 * j, 0, 12, .ro, 0, 0, 0, 4095⟩
def THM_S_VALID (j : Nat) : Fld := ⟨0xA0040 + 0x4 * j, 16, 1, .ro, 0, 0, 0, 1⟩
def THM_EVT_FAULT : Fld := ⟨0xA0080, 0, 32, .ct, 0, 0, 0, 4294967295⟩
def THM_EVT_HOT : Fld := ⟨0xA0084, 0, 32, .ct, 0, 0, 0, 4294967295⟩

/-! ### GPIO -/

def GPIO_OE_OE : Fld := ⟨0xA4020, 0, 8, .lv, 0, 0, 0, 255⟩
def GPIO_OUT_OUT : Fld := ⟨0xA4024, 0, 8, .lv, 0, 0, 0, 255⟩
def GPIO_IN_IN : Fld := ⟨0xA4028, 0, 8, .ro, 0, 0, 0, 255⟩

end R

end Sys2Proof.Machine
end

