-- ==== Sys2Proof/Machine/RegTable.lean ====
section
/-! DEFINITION. The window map (R86), the rows of every page's register map, and what an address names. -/

namespace Sys2Proof.Machine

/-- The blocks of the window map, in the order of their type codes (R86). -/
inductive Blk where
  | SYS | CLK | BOOT | PWR | CAL | CRN | FLD | MGT | HST | DMA | ETH | SPR | LNE | RING | SRC | DRC | PRS | LYR | DRN | SCN | LMP | LOP | TRV | EPC | THM | GPIO
  deriving DecidableEq, Repr

/-- On which build a row of a register map exists. -/
inductive RowBuild where
  | both | headOnly | tileOnly
  deriving DecidableEq, Repr

/-- A row of a register map: its page offset, how many instances at which stride, how many elements at which stride, the
build that has it, whether only the block's first window has it, and its fields in the first window's first instance. -/
structure Row where
  off : Nat
  n1 : Nat
  s1 : Nat
  n2 : Nat
  s2 : Nat
  build : RowBuild
  first : Bool
  flds : List Fld
  deriving DecidableEq, Repr

def rowsSYS0 : List Row := [
  ⟨0x4, 1, 0, 1, 0, .both, false, [R.ENABLE 0x0, R.LOCK 0x0]⟩,
  ⟨0x8, 1, 0, 1, 0, .both, false, [R.RUN 0x0, R.SAT 0x0]⟩,
  ⟨0x20, 1, 0x0, 1, 0x0, .both, false, [R.SYS_BUILD_BUILD, R.SYS_BUILD_STEP]⟩,
  ⟨0x30, 1, 0x0, 1, 0x0, .both, false, [R.SYS_BERR_CNT]⟩,
  ⟨0x34, 1, 0x0, 1, 0x0, .both, false, [R.SYS_BERR_ADDR_ADDR]⟩,
  ⟨0x38, 1, 0x0, 1, 0x0, .both, false, [R.SYS_BERR_INFO_NODE, R.SYS_BERR_INFO_WRITE, R.SYS_BERR_INFO_PATH, R.SYS_BERR_INFO_REASON]⟩,
  ⟨0x40, 1, 0x0, 1, 0x0, .both, false, [R.SYS_CCK_CTRL_EN, R.SYS_CCK_CTRL_SNAP]⟩,
  ⟨0x44, 1, 0x0, 1, 0x0, .both, false, [R.SYS_CCK_REF_REF]⟩,
  ⟨0x48, 1, 0x0, 1, 0x0, .both, false, [R.SYS_CCK_LAST_RESULT]⟩,
  ⟨0x4C, 1, 0x0, 1, 0x0, .both, false, [R.SYS_CCK_STATE_REF_VALID, R.SYS_CCK_STATE_LAST_MISMATCH, R.SYS_CCK_STATE_MISMATCH]⟩,
  ⟨0x50, 1, 0x0, 1, 0x0, .both, false, [R.SYS_CCK_EVT_MISMATCH]⟩,
  ⟨0x54, 1, 0x0, 1, 0x0, .both, false, [R.SYS_CCK_EVT_VOID]⟩]

/-- The register map of a SYS page, its header apart from CTRL and STATE (R59). -/
def rowsSYS : List Row := rowsSYS0

def rowsCLK0 : List Row := [
  ⟨0x4, 1, 0, 1, 0, .both, false, [R.ENABLE 0x4000, R.LOCK 0x4000]⟩,
  ⟨0x8, 1, 0, 1, 0, .both, false, [R.RUN 0x4000, R.SAT 0x4000]⟩,
  ⟨0x20, 1, 0x0, 1, 0x0, .both, false, [R.CLK_REF_SRC, R.CLK_REF_REFCLK_OK, R.CLK_REF_XTAL_OK]⟩,
  ⟨0x24, 1, 0x0, 1, 0x0, .both, false, [R.CLK_PLL_ROOT_LOCK, R.CLK_PLL_DRAM_LOCK, R.CLK_PLL_ETH_LOCK, R.CLK_PLL_LANE_LOCK]⟩,
  ⟨0x28, 1, 0x0, 1, 0x0, .both, false, [R.CLK_PLL_EN_ROOT_EN, R.CLK_PLL_EN_DRAM_EN, R.CLK_PLL_EN_ETH_EN, R.CLK_PLL_EN_LANE_EN]⟩,
  ⟨0x2C, 1, 0x0, 1, 0x0, .both, false, [R.CLK_SEL_TO_ROOT, R.CLK_SEL_TO_RC, R.CLK_SEL_CUR]⟩,
  ⟨0x30, 1, 0x0, 1, 0x0, .both, false, [R.CLK_EVT_UNLOCK]⟩,
  ⟨0x34, 1, 0x0, 1, 0x0, .both, false, [R.CLK_EVT_REFLOSS]⟩]

/-- The register map of a CLK page, its header apart from CTRL and STATE (R59). -/
def rowsCLK : List Row := rowsCLK0

def rowsBOOT0 : List Row := [
  ⟨0x4, 1, 0, 1, 0, .both, false, [R.ENABLE 0x8000, R.LOCK 0x8000]⟩,
  ⟨0x8, 1, 0, 1, 0, .both, false, [R.RUN 0x8000, R.SAT 0x8000]⟩,
  ⟨0x20, 1, 0x0, 1, 0x0, .both, false, [R.BOOT_STAGE_STAGE, R.BOOT_STAGE_SLOT, R.BOOT_STAGE_FALLBACK]⟩,
  ⟨0x24, 1, 0x0, 1, 0x0, .both, false, [R.BOOT_RESET_CAUSE_CAUSE, R.BOOT_RESET_CAUSE_WDOG_RUN]⟩,
  ⟨0x28, 1, 0x0, 1, 0x0, .both, false, [R.BOOT_STRAPS_ADDR, R.BOOT_STRAPS_HALF, R.BOOT_STRAPS_ROLE]⟩,
  ⟨0x2C, 1, 0x0, 1, 0x0, .both, false, [R.BOOT_RESET_FULL, R.BOOT_RESET_ARM]⟩,
  ⟨0x30, 1, 0x0, 1, 0x0, .both, false, [R.BOOT_FW_VERSION_VERSION]⟩,
  ⟨0x34, 1, 0x0, 1, 0x0, .both, false, [R.BOOT_MIN_VERSION_VERSION]⟩,
  ⟨0x38, 1, 0x0, 1, 0x0, .both, false, [R.BOOT_IMG_STATE_A_VALID, R.BOOT_IMG_STATE_B_VALID, R.BOOT_IMG_STATE_REC_BAD, R.BOOT_IMG_STATE_REC_COPY]⟩,
  ⟨0x40, 1, 0x0, 1, 0x0, .both, false, [R.BOOT_DEBUG_DEBUG_LOCK]⟩,
  ⟨0x44, 1, 0x0, 1, 0x0, .both, false, [R.BOOT_EVT_VERIFY_FAIL]⟩,
  ⟨0x50, 1, 0x0, 1, 0x0, .both, false, [R.BOOT_WDOG_CFG_PERIOD]⟩]

def rowsBOOT1 : List Row := [
  ⟨0x54, 1, 0x0, 1, 0x0, .both, false, [R.BOOT_WDOG_KICK_KICK]⟩,
  ⟨0x58, 1, 0x0, 1, 0x0, .both, false, [R.BOOT_WDOG_LEFT_MS]⟩,
  ⟨0x60, 1, 0x0, 1, 0x0, .both, false, [R.BOOT_LOAD_PTR_OFFSET]⟩,
  ⟨0x64, 1, 0x0, 1, 0x0, .both, false, [R.BOOT_LOAD_DATA_DATA]⟩,
  ⟨0x68, 1, 0x0, 1, 0x0, .both, false, [R.BOOT_LOAD_CMD_VERIFY]⟩,
  ⟨0x6C, 1, 0x0, 1, 0x0, .both, false, [R.BOOT_LOAD_STATE_RESULT, R.BOOT_LOAD_STATE_TARGET]⟩,
  ⟨0x100, 1, 0x0, 48, 0x4, .both, false, [R.BOOT_KEY_DIGEST 0]⟩]

/-- The register map of a BOOT page, its header apart from CTRL and STATE (R59). -/
def rowsBOOT : List Row := rowsBOOT0 ++ rowsBOOT1

def rowsPWR0 : List Row := [
  ⟨0x4, 1, 0, 1, 0, .both, false, [R.ENABLE 0xC000, R.LOCK 0xC000]⟩,
  ⟨0x8, 1, 0, 1, 0, .both, false, [R.RUN 0xC000, R.SAT 0xC000]⟩,
  ⟨0x20, 1, 0x0, 1, 0x0, .both, false, [R.PWR_CMD_GO, R.PWR_CMD_RESTORE, R.PWR_CMD_TARGET]⟩,
  ⟨0x24, 1, 0x0, 1, 0x0, .both, false, [R.PWR_STATE_STATE, R.PWR_STATE_IMAGE_OK, R.PWR_STATE_PHASE, R.PWR_STATE_STEP, R.PWR_STATE_STRANDED]⟩,
  ⟨0x28, 1, 0x0, 1, 0x0, .both, false, [R.PWR_CFG_RETRIES, R.PWR_CFG_WAKE_TIMEOUT, R.PWR_CFG_HOLDOFF]⟩,
  ⟨0x2C, 1, 0x0, 1, 0x0, .both, false, [R.PWR_DLIM_TRV, R.PWR_DLIM_PEER]⟩,
  ⟨0x30, 1, 0x0, 1, 0x0, .both, false, [R.PWR_WAKE_EN_MGT, R.PWR_WAKE_EN_RIDGE, R.PWR_WAKE_EN_PCIE, R.PWR_WAKE_EN_PIN, R.PWR_WAKE_EN_PIN_POL]⟩,
  ⟨0x34, 1, 0x0, 1, 0x0, .both, false, [R.PWR_IMAGE_BASE]⟩,
  ⟨0x38, 1, 0x0, 1, 0x0, .both, false, [R.PWR_LAST_REFUSAL_TARGET, R.PWR_LAST_REFUSAL_STEP, R.PWR_LAST_REFUSAL_REASON, R.PWR_LAST_REFUSAL_TYPE]⟩,
  ⟨0x3C, 1, 0x0, 1, 0x0, .both, false, [R.PWR_WAKE_REC_SOURCE, R.PWR_WAKE_REC_RETRIES, R.PWR_WAKE_REC_LANE, R.PWR_WAKE_REC_FROM, R.PWR_WAKE_REC_STRANDED]⟩,
  ⟨0x40, 1, 0x0, 1, 0x0, .both, false, [R.PWR_WAKE_EPOCH_EPOCH]⟩,
  ⟨0x44, 1, 0x0, 1, 0x0, .both, false, [R.PWR_PARKED_STEPS]⟩]

def rowsPWR1 : List Row := [
  ⟨0x48, 1, 0x0, 1, 0x0, .both, false, [R.PWR_ASSIST_PROFILE]⟩,
  ⟨0x50, 1, 0x0, 1, 0x0, .both, false, [R.PWR_EVT_ENTRY]⟩,
  ⟨0x54, 1, 0x0, 1, 0x0, .both, false, [R.PWR_EVT_REFUSE]⟩,
  ⟨0x58, 1, 0x0, 1, 0x0, .both, false, [R.PWR_EVT_WAKE_RETRY]⟩,
  ⟨0x5C, 1, 0x0, 1, 0x0, .both, false, [R.PWR_EVT_SR_EXIT]⟩,
  ⟨0x60, 1, 0x0, 1, 0x0, .both, false, [R.PWR_EVT_EDGE_LOST]⟩,
  ⟨0x80, 1, 0x0, 1, 0x0, .both, false, [R.PWR_RES_SUMMIT]⟩,
  ⟨0x88, 1, 0x0, 1, 0x0, .both, false, [R.PWR_RES_SHOULDER]⟩,
  ⟨0x90, 1, 0x0, 1, 0x0, .both, false, [R.PWR_RES_SADDLE]⟩,
  ⟨0x98, 1, 0x0, 1, 0x0, .both, false, [R.PWR_RES_VALLEY]⟩]

/-- The register map of a PWR page, its header apart from CTRL and STATE (R59). -/
def rowsPWR : List Row := rowsPWR0 ++ rowsPWR1

def rowsCAL0 : List Row := [
  ⟨0x4, 1, 0, 1, 0, .both, false, [R.ENABLE 0x10000, R.LOCK 0x10000, R.CAL_CTRL_AUTO]⟩,
  ⟨0x8, 1, 0, 1, 0, .both, false, [R.RUN 0x10000, R.SAT 0x10000]⟩,
  ⟨0x20, 1, 0x0, 1, 0x0, .both, false, [R.CAL_CFG_DELTA_T, R.CAL_CFG_KINDS, R.CAL_CFG_DEAD_MARGIN]⟩,
  ⟨0x24, 1, 0x0, 1, 0x0, .both, false, [R.CAL_STEP_TDLY, R.CAL_STEP_THR, R.CAL_STEP_CHOP, R.CAL_STEP_DEAD]⟩,
  ⟨0x28, 1, 0x0, 1, 0x0, .both, false, [R.CAL_NOM_OPEN, R.CAL_NOM_SHORT]⟩,
  ⟨0x2C, 1, 0x0, 1, 0x0, .both, false, [R.CAL_TDLY_TGT_TAPS]⟩,
  ⟨0x30, 1, 0x0, 1, 0x0, .both, false, [R.CAL_CMD_RUN, R.CAL_CMD_ABORT]⟩,
  ⟨0x34, 1, 0x0, 1, 0x0, .both, false, [R.CAL_STATE_PHASE, R.CAL_STATE_TDLY_DONE, R.CAL_STATE_FIRST, R.CAL_STATE_DUE]⟩,
  ⟨0x38, 1, 0x0, 1, 0x0, .both, false, [R.CAL_PROGRESS_DONE, R.CAL_PROGRESS_TOTAL]⟩,
  ⟨0x3C, 1, 0x0, 1, 0x0, .both, false, [R.CAL_LAST_REJECT_ITEM, R.CAL_LAST_REJECT_KIND, R.CAL_LAST_REJECT_CAUSE]⟩,
  ⟨0x40, 1, 0x0, 8, 0x4, .both, false, [R.CAL_REF_T_T 0]⟩,
  ⟨0x60, 1, 0x0, 1, 0x0, .both, false, [R.CAL_EVT_RUN]⟩]

def rowsCAL1 : List Row := [
  ⟨0x64, 1, 0x0, 1, 0x0, .both, false, [R.CAL_EVT_REJECT]⟩,
  ⟨0x68, 1, 0x0, 1, 0x0, .both, false, [R.CAL_EVT_ABORT]⟩,
  ⟨0x6C, 1, 0x0, 1, 0x0, .both, false, [R.CAL_LAST_EPOCH_EPOCH]⟩]

/-- The register map of a CAL page, its header apart from CTRL and STATE (R59). -/
def rowsCAL : List Row := rowsCAL0 ++ rowsCAL1

def rowsCRN0 : List Row := [
  ⟨0x4, 1, 0, 1, 0, .both, false, [R.ENABLE 0x14000, R.LOCK 0x14000, R.CRN_CTRL_LAMP_EN, R.CRN_CTRL_LEAD_HALF, R.CRN_CTRL_CLAIM_W, R.CRN_CTRL_CLAIM_E]⟩,
  ⟨0x8, 1, 0, 1, 0, .both, false, [R.RUN 0x14000, R.SAT 0x14000]⟩,
  ⟨0x20, 1, 0x0, 1, 0x0, .both, false, [R.CRN_CFG_PROT_RINGS, R.CRN_CFG_PEER, R.CRN_CFG_AUTO_TAKE]⟩,
  ⟨0x24, 1, 0x0, 1, 0x0, .both, false, [R.CRN_HEAD_ROLE, R.CRN_HEAD_REASON]⟩,
  ⟨0x28, 1, 0x0, 1, 0x0, .both, false, [R.CRN_CMD_RESIGN, R.CRN_CMD_TAKE]⟩,
  ⟨0x30, 1, 0x0, 1, 0x0, .both, false, [R.CRN_MASTER_TERM_TERM]⟩,
  ⟨0x34, 1, 0x0, 1, 0x0, .both, false, [R.CRN_MASTER_HEAD_HEAD, R.CRN_MASTER_HEAD_VALID]⟩,
  ⟨0x38, 1, 0x0, 1, 0x0, .both, false, [R.CRN_VOTE_LEAD, R.CRN_VOTE_LEAD_VALID, R.CRN_VOTE_DIS_LEAD, R.CRN_VOTE_DIS_LAMP, R.CRN_VOTE_DIS_EPOCH, R.CRN_VOTE_DIS_TERM]⟩,
  ⟨0x3C, 1, 0x0, 1, 0x0, .both, false, [R.CRN_LAST_DIS_ITEM, R.CRN_LAST_DIS_RING, R.CRN_LAST_DIS_COPY]⟩,
  ⟨0x40, 1, 0x0, 1, 0x0, .both, false, [R.CRN_EVT_DISAGREE]⟩,
  ⟨0x44, 1, 0x0, 1, 0x0, .both, false, [R.CRN_EVT_SCRUB]⟩,
  ⟨0x48, 1, 0x0, 1, 0x0, .both, false, [R.CRN_EVT_SPLIT]⟩]

def rowsCRN1 : List Row := [
  ⟨0x4C, 1, 0x0, 1, 0x0, .both, false, [R.CRN_EVT_RESIGN]⟩,
  ⟨0x50, 1, 0x0, 1, 0x0, .both, false, [R.CRN_EVT_TAKE]⟩,
  ⟨0x54, 1, 0x0, 1, 0x0, .both, false, [R.CRN_EVT_DEPOSED]⟩,
  ⟨0x58, 1, 0x0, 1, 0x0, .both, false, [R.CRN_EVT_FOREIGN]⟩,
  ⟨0x5C, 1, 0x0, 1, 0x0, .both, false, [R.CRN_EVT_ALIAS]⟩,
  ⟨0x100, 1, 0x0, 12, 0x4, .headOnly, false, [R.CRN_TERM_TERM 0]⟩,
  ⟨0x200, 1, 0x0, 32, 0x4, .tileOnly, false, [R.CRN_ALIAS_OLD 0, R.CRN_ALIAS_NEW 0, R.CRN_ALIAS_VALID 0]⟩]

/-- The register map of a CRN page, its header apart from CTRL and STATE (R59). -/
def rowsCRN : List Row := rowsCRN0 ++ rowsCRN1

def rowsFLD0 : List Row := [
  ⟨0x4, 1, 0, 1, 0, .both, false, [R.ENABLE 0x18000, R.LOCK 0x18000]⟩,
  ⟨0x8, 1, 0, 1, 0, .both, false, [R.RUN 0x18000, R.SAT 0x18000]⟩,
  ⟨0x20, 1, 0x0, 1, 0x0, .both, false, [R.FLD_CFG_PERIOD, R.FLD_CFG_PEER]⟩,
  ⟨0x24, 1, 0x0, 1, 0x0, .both, false, [R.FLD_CMD_COMMIT, R.FLD_CMD_VERIFY]⟩,
  ⟨0x28, 1, 0x0, 1, 0x0, .both, false, [R.FLD_STATE_SHIP, R.FLD_STATE_HELD, R.FLD_STATE_SLOT, R.FLD_STATE_VALID, R.FLD_STATE_NOFOLD]⟩,
  ⟨0x2C, 1, 0x0, 1, 0x0, .both, false, [R.FLD_SEQ_SEQ]⟩,
  ⟨0x30, 1, 0x0, 1, 0x0, .both, false, [R.FLD_ACKED_SEQ]⟩,
  ⟨0x34, 1, 0x0, 1, 0x0, .both, false, [R.FLD_AGE_MS]⟩,
  ⟨0x38, 1, 0x0, 1, 0x0, .both, false, [R.FLD_SIZE_BYTES]⟩,
  ⟨0x3C, 1, 0x0, 1, 0x0, .both, false, [R.FLD_USER_LEN_BYTES]⟩,
  ⟨0x40, 1, 0x0, 1, 0x0, .both, false, [R.FLD_EVT_SHIPPED]⟩,
  ⟨0x44, 1, 0x0, 1, 0x0, .both, false, [R.FLD_EVT_NACK]⟩]

def rowsFLD1 : List Row := [
  ⟨0x48, 1, 0x0, 1, 0x0, .both, false, [R.FLD_EVT_BADRX]⟩,
  ⟨0x4C, 1, 0x0, 1, 0x0, .both, false, [R.FLD_EVT_COALESCE]⟩,
  ⟨0x50, 1, 0x0, 1, 0x0, .both, false, [R.FLD_EVT_VOID]⟩]

/-- The register map of a FLD page, its header apart from CTRL and STATE (R59). -/
def rowsFLD : List Row := rowsFLD0 ++ rowsFLD1

def rowsMGT0 : List Row := [
  ⟨0x4, 1, 0, 1, 0, .both, false, [R.ENABLE 0x1C000, R.LOCK 0x1C000]⟩,
  ⟨0x8, 1, 0, 1, 0, .both, false, [R.RUN 0x1C000, R.SAT 0x1C000]⟩,
  ⟨0x20, 1, 0x0, 1, 0x0, .both, false, [R.MGT_CFG_PEC_EN, R.MGT_CFG_TMO_EN]⟩,
  ⟨0x24, 1, 0x0, 1, 0x0, .both, false, [R.MGT_STATE_ADDR, R.MGT_STATE_ADDR_VALID, R.MGT_STATE_LAST]⟩,
  ⟨0x28, 1, 0x0, 1, 0x0, .both, false, [R.MGT_EVT_TRANS]⟩,
  ⟨0x2C, 1, 0x0, 1, 0x0, .both, false, [R.MGT_EVT_PEC]⟩,
  ⟨0x30, 1, 0x0, 1, 0x0, .both, false, [R.MGT_EVT_ABORT]⟩,
  ⟨0x34, 1, 0x0, 1, 0x0, .both, false, [R.MGT_EVT_TIMEOUT]⟩,
  ⟨0x38, 1, 0x0, 1, 0x0, .both, false, [R.MGT_EVT_WAKE_NACK]⟩]

/-- The register map of a MGT page, its header apart from CTRL and STATE (R59). -/
def rowsMGT : List Row := rowsMGT0

def rowsHST0 : List Row := [
  ⟨0x4, 1, 0, 1, 0, .both, false, [R.ENABLE 0x20000, R.LOCK 0x20000]⟩,
  ⟨0x8, 1, 0, 1, 0, .both, false, [R.RUN 0x20000, R.SAT 0x20000]⟩,
  ⟨0x20, 1, 0x0, 1, 0x0, .both, false, [R.HST_LINK_STATE, R.HST_LINK_SPEED, R.HST_LINK_WIDTH, R.HST_LINK_L1SS]⟩,
  ⟨0x24, 1, 0x0, 1, 0x0, .both, false, [R.HST_REMOTE_OUTSTANDING]⟩,
  ⟨0x28, 1, 0x0, 1, 0x0, .both, false, [R.HST_EVT_CA]⟩,
  ⟨0x2C, 1, 0x0, 1, 0x0, .both, false, [R.HST_EVT_ABSENT]⟩,
  ⟨0x30, 1, 0x0, 1, 0x0, .both, false, [R.HST_EVT_DMA_CTO]⟩,
  ⟨0x100, 1, 0x0, 128, 0x4, .both, false, [R.HST_APT_NODE 0, R.HST_APT_VALID 0]⟩,
  ⟨0x400, 16, 0x20, 1, 0x0, .both, false, [R.HST_EVQ_CFG_EN 0, R.HST_EVQ_CFG_SIZE 0, R.HST_EVQ_CFG_HOLDOFF 0]⟩,
  ⟨0x404, 16, 0x20, 1, 0x0, .both, false, [R.HST_EVQ_BASE_LO_ADDR 0]⟩,
  ⟨0x408, 16, 0x20, 1, 0x0, .both, false, [R.HST_EVQ_BASE_HI_ADDR 0]⟩,
  ⟨0x40C, 16, 0x20, 1, 0x0, .both, false, [R.HST_EVQ_IDX_CONS 0, R.HST_EVQ_IDX_PROD 0]⟩]

def rowsHST1 : List Row := [
  ⟨0x410, 16, 0x20, 1, 0x0, .both, false, [R.HST_EVQ_EVT_DROP 0]⟩]

/-- The register map of a HST page, its header apart from CTRL and STATE (R59). -/
def rowsHST : List Row := rowsHST0 ++ rowsHST1

def rowsDMA0 : List Row := [
  ⟨0x4, 1, 0, 1, 0, .both, false, [R.ENABLE 0x24000, R.LOCK 0x24000]⟩,
  ⟨0x8, 1, 0, 1, 0, .both, false, [R.RUN 0x24000, R.SAT 0x24000]⟩,
  ⟨0x100, 16, 0x20, 1, 0x0, .both, false, [R.DMA_CH_CFG_ENABLE 0, R.DMA_CH_CFG_RING_SIZE 0, R.DMA_CH_CFG_IRQ_EN 0]⟩,
  ⟨0x104, 16, 0x20, 1, 0x0, .both, false, [R.DMA_CH_RING_LO_ADDR 0]⟩,
  ⟨0x108, 16, 0x20, 1, 0x0, .both, false, [R.DMA_CH_RING_HI_ADDR 0]⟩,
  ⟨0x10C, 16, 0x20, 1, 0x0, .both, false, [R.DMA_CH_IDX_CONS 0, R.DMA_CH_IDX_PROD 0]⟩,
  ⟨0x110, 16, 0x20, 1, 0x0, .both, false, [R.DMA_CH_STATE_RUN 0, R.DMA_CH_STATE_FRAME_OPEN 0]⟩,
  ⟨0x114, 16, 0x20, 1, 0x0, .both, false, [R.DMA_CH_EVT_ERR 0]⟩,
  ⟨0x118, 16, 0x20, 1, 0x0, .both, false, [R.DMA_CH_EVT_FRAMES 0]⟩]

/-- The register map of a DMA page, its header apart from CTRL and STATE (R59). -/
def rowsDMA : List Row := rowsDMA0

def rowsETH0 : List Row := [
  ⟨0x4, 1, 0, 1, 0, .both, false, [R.ENABLE 0x28000, R.LOCK 0x28000]⟩,
  ⟨0x8, 1, 0, 1, 0, .both, false, [R.RUN 0x28000, R.SAT 0x28000]⟩,
  ⟨0x20, 1, 0x0, 1, 0x0, .both, false, [R.ETH_DT_IDX_IDX]⟩,
  ⟨0x24, 1, 0x0, 1, 0x0, .both, false, [R.ETH_DT_MAC_LO_MAC]⟩,
  ⟨0x28, 1, 0x0, 1, 0x0, .both, false, [R.ETH_DT_MAC_HI_MAC, R.ETH_DT_MAC_HI_VID, R.ETH_DT_MAC_HI_ANYVID]⟩,
  ⟨0x2C, 1, 0x0, 1, 0x0, .both, false, [R.ETH_DT_ACT_NODE, R.ETH_DT_ACT_PORT, R.ETH_DT_ACT_DIR, R.ETH_DT_ACT_VALID]⟩,
  ⟨0x40, 1, 0x0, 1, 0x0, .both, false, [R.ETH_PTP_CFG_EN, R.ETH_PTP_CFG_PROFILE, R.ETH_PTP_CFG_DOMAIN, R.ETH_PTP_CFG_PORT]⟩,
  ⟨0x44, 1, 0x0, 1, 0x0, .both, false, [R.ETH_PTP_TIME_NS]⟩,
  ⟨0x4C, 1, 0x0, 1, 0x0, .both, false, [R.ETH_PTP_OFS_OFS]⟩,
  ⟨0x50, 1, 0x0, 1, 0x0, .both, false, [R.ETH_PTP_STATE_STATE]⟩,
  ⟨0x54, 1, 0x0, 1, 0x0, .both, false, [R.ETH_EVT_PTP_LOSS]⟩,
  ⟨0x60, 2, 0x20, 1, 0x0, .headOnly, false, [R.ETH_ST_CFG_EN 0, R.ETH_ST_CFG_PORT 0, R.ETH_ST_CFG_PT 0, R.ETH_ST_CFG_UDP 0]⟩]

def rowsETH1 : List Row := [
  ⟨0x64, 2, 0x20, 1, 0x0, .headOnly, false, [R.ETH_ST_DST_IP_IP 0]⟩,
  ⟨0x68, 2, 0x20, 1, 0x0, .headOnly, false, [R.ETH_ST_SRC_IP_IP 0]⟩,
  ⟨0x6C, 2, 0x20, 1, 0x0, .headOnly, false, [R.ETH_ST_PKTS 0]⟩,
  ⟨0x70, 2, 0x20, 1, 0x0, .headOnly, false, [R.ETH_ST_EVT_LOST 0]⟩,
  ⟨0x74, 2, 0x20, 1, 0x0, .headOnly, false, [R.ETH_ST_EVT_FORMAT 0]⟩,
  ⟨0xA0, 1, 0x0, 1, 0x0, .headOnly, false, [R.ETH_CP_CFG_EN, R.ETH_CP_CFG_RX_SIZE, R.ETH_CP_CFG_TX_SIZE]⟩,
  ⟨0xA4, 1, 0x0, 1, 0x0, .headOnly, false, [R.ETH_CP_RX_LO_ADDR]⟩,
  ⟨0xA8, 1, 0x0, 1, 0x0, .headOnly, false, [R.ETH_CP_RX_HI_ADDR]⟩,
  ⟨0xAC, 1, 0x0, 1, 0x0, .headOnly, false, [R.ETH_CP_TX_LO_ADDR]⟩,
  ⟨0xB0, 1, 0x0, 1, 0x0, .headOnly, false, [R.ETH_CP_TX_HI_ADDR]⟩,
  ⟨0xB4, 1, 0x0, 1, 0x0, .headOnly, false, [R.ETH_CP_IDX_RX_PROD, R.ETH_CP_IDX_TX_CONS]⟩,
  ⟨0xB8, 1, 0x0, 1, 0x0, .headOnly, false, [R.ETH_CP_EVT_DROP]⟩]

def rowsETH2 : List Row := [
  ⟨0x100, 2, 0x40, 1, 0x0, .both, false, [R.ETHP_CFG_ENABLE 0, R.ETHP_CFG_MODE 0, R.ETHP_CFG_FEC 0, R.ETHP_CFG_UNTAG 0, R.ETHP_CFG_PVID 0]⟩,
  ⟨0x104, 2, 0x40, 1, 0x0, .both, false, [R.ETHP_STATE_LINK 0, R.ETHP_STATE_BLOCK_LOCK 0, R.ETHP_STATE_FEC_LOCK 0]⟩,
  ⟨0x108, 2, 0x40, 1, 0x0, .both, false, [R.ETHP_IP_IP 0]⟩,
  ⟨0x110, 2, 0x40, 1, 0x0, .both, false, [R.ETHP_RX_FRAMES 0]⟩,
  ⟨0x114, 2, 0x40, 1, 0x0, .both, false, [R.ETHP_TX_FRAMES 0]⟩,
  ⟨0x118, 2, 0x40, 1, 0x0, .both, false, [R.ETHP_RX_FCS 0]⟩,
  ⟨0x11C, 2, 0x40, 1, 0x0, .both, false, [R.ETHP_RX_DROP 0]⟩,
  ⟨0x120, 2, 0x40, 1, 0x0, .both, false, [R.ETHP_EVT_MISS 0]⟩,
  ⟨0x124, 2, 0x40, 1, 0x0, .both, false, [R.ETHP_EVT_VLAN 0]⟩,
  ⟨0x128, 2, 0x40, 1, 0x0, .both, false, [R.ETHP_EVT_REASM 0]⟩,
  ⟨0x12C, 2, 0x40, 1, 0x0, .both, false, [R.ETHP_TX_DROP 0]⟩]

/-- The register map of a ETH page, its header apart from CTRL and STATE (R59). -/
def rowsETH : List Row := rowsETH0 ++ rowsETH1 ++ rowsETH2

def rowsSPR0 : List Row := [
  ⟨0x4, 1, 0, 1, 0, .both, false, [R.ENABLE 0x2C000, R.LOCK 0x2C000]⟩,
  ⟨0x8, 1, 0, 1, 0, .both, false, [R.RUN 0x2C000, R.SAT 0x2C000]⟩,
  ⟨0x20, 1, 0x0, 1, 0x0, .both, false, [R.SPR_CFG_HEAD, R.SPR_CFG_LEAD_HEAD]⟩,
  ⟨0x24, 1, 0x0, 1, 0x0, .both, false, [R.SPR_EVT_NOROUTE]⟩,
  ⟨0x28, 1, 0x0, 1, 0x0, .both, false, [R.SPR_EVT_HOPS]⟩,
  ⟨0x2C, 1, 0x0, 1, 0x0, .both, false, [R.SPR_EVT_RELAY_SKIP]⟩,
  ⟨0x100, 4, 0x40, 1, 0x0, .both, false, [R.SPRP_CFG_ENABLE 0, R.SPRP_CFG_WIDTH 0, R.SPRP_CFG_LANE 0, R.SPRP_CFG_SHARE 0]⟩,
  ⟨0x104, 4, 0x40, 1, 0x0, .both, false, [R.SPRP_STATE_STATE 0, R.SPRP_STATE_NEIGH 0, R.SPRP_STATE_NEIGH_VALID 0]⟩,
  ⟨0x108, 4, 0x40, 1, 0x0, .both, false, [R.SPRP_LDLY_DELAY 0]⟩,
  ⟨0x110, 4, 0x40, 1, 0x0, .both, false, [R.SPRP_EVT_DOWN 0]⟩,
  ⟨0x114, 4, 0x40, 1, 0x0, .both, false, [R.SPRP_EVT_BEDROP 0]⟩,
  ⟨0x200, 1, 0x0, 64, 0x4, .both, false, [R.SPR_ROUTE_VALID 0, R.SPR_ROUTE_PORT 0, R.SPR_ROUTE_ALT_VALID 0, R.SPR_ROUTE_ALT 0, R.SPR_ROUTE_HOPS 0]⟩]

def rowsSPR1 : List Row := [
  ⟨0x300, 1, 0x0, 64, 0x4, .both, false, [R.SPR_RELAY_STREAM 0, R.SPR_RELAY_RING_MASK 0, R.SPR_RELAY_PRIO 0, R.SPR_RELAY_VALID 0]⟩,
  ⟨0x400, 1, 0x0, 32, 0x4, .both, false, [R.SPR_ALIAS_OLD 0, R.SPR_ALIAS_NEW 0, R.SPR_ALIAS_VALID 0]⟩]

/-- The register map of a SPR page, its header apart from CTRL and STATE (R59). -/
def rowsSPR : List Row := rowsSPR0 ++ rowsSPR1

def rowsLNE0 : List Row := [
  ⟨0x4, 1, 0, 1, 0, .both, false, [R.ENABLE 0x30000, R.LOCK 0x30000]⟩,
  ⟨0x8, 1, 0, 1, 0, .both, false, [R.RUN 0x30000, R.SAT 0x30000]⟩,
  ⟨0x100, 8, 0x100, 1, 0x0, .both, false, [R.LNE_CFG_ENABLE 0, R.LNE_CFG_PRECODE_TX 0, R.LNE_CFG_PRECODE_RX 0, R.LNE_CFG_POL_AUTO 0, R.LNE_CFG_TX_INV 0, R.LNE_CFG_QUIET_EN 0, R.LNE_CFG_QUIET_IDLE 0, R.LNE_CFG_FFE_FIX 0]⟩,
  ⟨0x104, 8, 0x100, 1, 0x0, .both, false, [R.LNE_FFE_PRE 0, R.LNE_FFE_MAIN 0, R.LNE_FFE_POST 0]⟩,
  ⟨0x108, 8, 0x100, 1, 0x0, .both, false, [R.LNE_STATE_STAGE 0, R.LNE_STATE_LAST_FAIL 0, R.LNE_STATE_RX_INV 0, R.LNE_STATE_REVERSED 0, R.LNE_STATE_TXPS 0, R.LNE_STATE_RXPS 0, R.LNE_STATE_REASON 0, R.LNE_STATE_EYE_H 0]⟩,
  ⟨0x10C, 8, 0x100, 1, 0x0, .both, false, [R.LNE_EVT_RETRY 0]⟩,
  ⟨0x110, 8, 0x100, 1, 0x0, .both, false, [R.LNE_EVT_LOL 0]⟩,
  ⟨0x118, 8, 0x100, 1, 0x0, .both, false, [R.LNE_CORR 0]⟩,
  ⟨0x120, 8, 0x100, 1, 0x0, .both, false, [R.LNE_RES_TX_ACTIVE 0]⟩,
  ⟨0x128, 8, 0x100, 1, 0x0, .both, false, [R.LNE_RES_TX_QUIET 0]⟩,
  ⟨0x130, 8, 0x100, 1, 0x0, .both, false, [R.LNE_RES_TX_SLEEP 0]⟩,
  ⟨0x138, 8, 0x100, 1, 0x0, .both, false, [R.LNE_RES_TX_OFF 0]⟩]

def rowsLNE1 : List Row := [
  ⟨0x140, 8, 0x100, 1, 0x0, .both, false, [R.LNE_RES_RX_ACTIVE 0]⟩,
  ⟨0x148, 8, 0x100, 1, 0x0, .both, false, [R.LNE_RES_RX_QUIET 0]⟩,
  ⟨0x150, 8, 0x100, 1, 0x0, .both, false, [R.LNE_RES_RX_SLEEP 0]⟩,
  ⟨0x158, 8, 0x100, 1, 0x0, .both, false, [R.LNE_RES_RX_OFF 0]⟩]

/-- The register map of a LNE page, its header apart from CTRL and STATE (R59). -/
def rowsLNE : List Row := rowsLNE0 ++ rowsLNE1

def rowsRING0 : List Row := [
  ⟨0x4, 1, 0, 1, 0, .both, false, [R.ENABLE 0x48000, R.LOCK 0x48000, R.RING_CTRL_GEN 0, R.RING_CTRL_CHK 0]⟩,
  ⟨0x8, 1, 0, 1, 0, .both, false, [R.RUN 0x48000, R.SAT 0x48000]⟩,
  ⟨0x20, 1, 0x0, 1, 0x0, .both, true, [R.RING_KEYS_IN_USE]⟩,
  ⟨0x24, 1, 0x0, 1, 0x0, .both, true, [R.RING_EVT_EVICT]⟩,
  ⟨0x100, 4, 0x300, 1, 0x0, .both, false, [R.RING_CFG_ENABLE 0, R.RING_CFG_WIDTH 0, R.RING_CFG_LANE_A 0, R.RING_CFG_LANE_B 0, R.RING_CFG_LOOP 0]⟩,
  ⟨0x104, 4, 0x300, 1, 0x0, .both, false, [R.RING_SHARE_PERMILLE 0]⟩,
  ⟨0x108, 4, 0x300, 1, 0x0, .both, false, [R.RING_TEST_RATE 0, R.RING_TEST_DEST 0]⟩,
  ⟨0x10C, 4, 0x300, 1, 0x0, .both, false, [R.RING_STATE_END_A 0, R.RING_STATE_END_B 0, R.RING_STATE_PACE_A 0, R.RING_STATE_PACE_B 0, R.RING_STATE_COUNT 0, R.RING_STATE_NODE 0]⟩,
  ⟨0x110, 4, 0x300, 1, 0x0, .both, false, [R.RING_NEIGH_A_NODE 0, R.RING_NEIGH_A_ROLE 0, R.RING_NEIGH_A_VALID 0]⟩,
  ⟨0x114, 4, 0x300, 1, 0x0, .both, false, [R.RING_NEIGH_B_NODE 0, R.RING_NEIGH_B_ROLE 0, R.RING_NEIGH_B_VALID 0]⟩,
  ⟨0x118, 4, 0x300, 1, 0x0, .both, false, [R.RING_LDLY_A_DELAY 0]⟩,
  ⟨0x11C, 4, 0x300, 1, 0x0, .both, false, [R.RING_LDLY_B_DELAY 0]⟩]

def rowsRING1 : List Row := [
  ⟨0x120, 4, 0x300, 1, 0x0, .both, false, [R.RING_PATH_NS 0]⟩,
  ⟨0x124, 4, 0x300, 1, 0x0, .both, false, [R.RING_BREAK_POS1 0, R.RING_BREAK_V1 0, R.RING_BREAK_POS2 0, R.RING_BREAK_V2 0]⟩,
  ⟨0x128, 4, 0x300, 1, 0x0, .both, false, [R.RING_CMD_DISCOVER 0, R.RING_CMD_REMEASURE 0]⟩,
  ⟨0x140, 4, 0x300, 1, 0x0, .both, false, [R.RING_EVT_HCRC 0]⟩,
  ⟨0x144, 4, 0x300, 1, 0x0, .both, false, [R.RING_EVT_CRC 0]⟩,
  ⟨0x148, 4, 0x300, 1, 0x0, .both, false, [R.RING_EVT_STOMP 0]⟩,
  ⟨0x14C, 4, 0x300, 1, 0x0, .both, false, [R.RING_EVT_UNCORR 0]⟩,
  ⟨0x150, 4, 0x300, 1, 0x0, .both, false, [R.RING_EVT_DUP 0]⟩,
  ⟨0x154, 4, 0x300, 1, 0x0, .both, false, [R.RING_EVT_STALE 0]⟩,
  ⟨0x158, 4, 0x300, 1, 0x0, .both, false, [R.RING_EVT_HOPS 0]⟩,
  ⟨0x15C, 4, 0x300, 1, 0x0, .both, false, [R.RING_EVT_PXDROP 0]⟩,
  ⟨0x160, 4, 0x300, 1, 0x0, .both, false, [R.RING_EVT_BEDROP 0]⟩]

def rowsRING2 : List Row := [
  ⟨0x164, 4, 0x300, 1, 0x0, .both, false, [R.RING_EVT_DOWN 0]⟩,
  ⟨0x168, 4, 0x300, 1, 0x0, .both, false, [R.RING_EVT_CONFLICT 0]⟩,
  ⟨0x16C, 4, 0x300, 1, 0x0, .both, false, [R.RING_TEST_ERR 0]⟩,
  ⟨0x170, 4, 0x300, 1, 0x0, .both, false, [R.RING_TX_CELLS 0]⟩,
  ⟨0x178, 4, 0x300, 1, 0x0, .both, false, [R.RING_RX_CELLS 0]⟩,
  ⟨0x180, 4, 0x300, 1, 0x0, .both, false, [R.RING_TEST_CELLS 0]⟩]

/-- The register map of a RING page, its header apart from CTRL and STATE (R59). -/
def rowsRING : List Row := rowsRING0 ++ rowsRING1 ++ rowsRING2

def rowsSRC0 : List Row := [
  ⟨0x4, 1, 0, 1, 0, .both, false, [R.ENABLE 0x54000, R.LOCK 0x54000]⟩,
  ⟨0x8, 1, 0, 1, 0, .both, false, [R.RUN 0x54000, R.SAT 0x54000]⟩,
  ⟨0x20, 1, 0x0, 1, 0x0, .both, true, [R.SRC_GAP_GAP]⟩,
  ⟨0x40, 1, 0x0, 12, 0x4, .both, true, [R.SRC_RING_BUDGET_CELLS 0]⟩,
  ⟨0x100, 4, 0x300, 1, 0x0, .both, false, [R.SRC_CFG_ENABLE 0, R.SRC_CFG_INPUT 0, R.SRC_CFG_FMT_IN 0, R.SRC_CFG_FMT_OUT 0, R.SRC_CFG_PRIO 0, R.SRC_CFG_KERNEL 0, R.SRC_CFG_CSC_EN 0]⟩,
  ⟨0x104, 4, 0x300, 1, 0x0, .both, false, [R.SRC_IN_SIZE_W 0, R.SRC_IN_SIZE_H 0]⟩,
  ⟨0x108, 4, 0x300, 1, 0x0, .both, false, [R.SRC_CROP_XY_X 0, R.SRC_CROP_XY_Y 0]⟩,
  ⟨0x10C, 4, 0x300, 1, 0x0, .both, false, [R.SRC_CROP_SIZE_W 0, R.SRC_CROP_SIZE_H 0]⟩,
  ⟨0x110, 4, 0x300, 1, 0x0, .both, false, [R.SRC_OUT_SIZE_W 0, R.SRC_OUT_SIZE_H 0]⟩,
  ⟨0x114, 4, 0x300, 1, 0x0, .both, false, [R.SRC_PLACE_XY_X 0, R.SRC_PLACE_XY_Y 0]⟩,
  ⟨0x118, 4, 0x300, 1, 0x0, .both, false, [R.SRC_PLACE_CFG_SURFACE 0, R.SRC_PLACE_CFG_REFRESH 0]⟩,
  ⟨0x11C, 4, 0x300, 1, 0x0, .both, false, [R.SRC_ROUTE_RING_MASK 0]⟩]

def rowsSRC1 : List Row := [
  ⟨0x120, 4, 0x300, 1, 0x0, .both, false, [R.SRC_SPUR_LO_HEADS 0]⟩,
  ⟨0x124, 4, 0x300, 1, 0x0, .both, false, [R.SRC_SPUR_HI_HEADS 0]⟩,
  ⟨0x128, 4, 0x300, 1, 0x0, .both, false, [R.SRC_BUF_BASE_BASE 0]⟩,
  ⟨0x12C, 4, 0x300, 1, 0x0, .both, false, [R.SRC_BUF_SIZE_SIZE 0]⟩,
  ⟨0x130, 4, 0x300, 1, 0x0, .both, false, [R.SRC_STRIDE_BYTES 0]⟩,
  ⟨0x134, 4, 0x300, 1, 0x0, .both, false, [R.SRC_COEF_BASE_BASE 0]⟩,
  ⟨0x140, 4, 0x300, 1, 0x0, .both, false, [R.SRC_CSC_M0_LO 0, R.SRC_CSC_M0_HI 0]⟩,
  ⟨0x144, 4, 0x300, 1, 0x0, .both, false, [R.SRC_CSC_M1_LO 0, R.SRC_CSC_M1_HI 0]⟩,
  ⟨0x148, 4, 0x300, 1, 0x0, .both, false, [R.SRC_CSC_M2_LO 0, R.SRC_CSC_M2_HI 0]⟩,
  ⟨0x14C, 4, 0x300, 1, 0x0, .both, false, [R.SRC_CSC_M3_LO 0, R.SRC_CSC_M3_HI 0]⟩,
  ⟨0x150, 4, 0x300, 1, 0x0, .both, false, [R.SRC_CSC_M4_LO 0]⟩,
  ⟨0x154, 4, 0x300, 1, 0x0, .both, false, [R.SRC_CSC_OFS0_LO 0, R.SRC_CSC_OFS0_HI 0]⟩]

def rowsSRC2 : List Row := [
  ⟨0x158, 4, 0x300, 1, 0x0, .both, false, [R.SRC_CSC_OFS1_LO 0, R.SRC_CSC_OFS1_HI 0]⟩,
  ⟨0x15C, 4, 0x300, 1, 0x0, .both, false, [R.SRC_CSC_OFS2_LO 0, R.SRC_CSC_OFS2_HI 0]⟩,
  ⟨0x180, 4, 0x300, 1, 0x0, .both, false, [R.SRC_STATE_COND 0, R.SRC_STATE_READY 0, R.SRC_STATE_SEND 0]⟩,
  ⟨0x184, 4, 0x300, 1, 0x0, .both, false, [R.SRC_MEAS_SIZE_W 0, R.SRC_MEAS_SIZE_H 0]⟩,
  ⟨0x188, 4, 0x300, 1, 0x0, .both, false, [R.SRC_FRAME_COUNT 0]⟩,
  ⟨0x18C, 4, 0x300, 1, 0x0, .both, false, [R.SRC_EVT_SKIP 0]⟩,
  ⟨0x190, 4, 0x300, 1, 0x0, .both, false, [R.SRC_EVT_DROP 0]⟩,
  ⟨0x194, 4, 0x300, 1, 0x0, .both, false, [R.SRC_EVT_BADFRAME 0]⟩,
  ⟨0x198, 4, 0x300, 1, 0x0, .both, false, [R.SRC_EVT_LATE 0]⟩,
  ⟨0x19C, 4, 0x300, 1, 0x0, .both, false, [R.SRC_EVT_OVERWIDTH 0]⟩,
  ⟨0x1A0, 4, 0x300, 1, 0x0, .both, false, [R.SRC_EVT_GEOM 0]⟩,
  ⟨0x1A4, 4, 0x300, 1, 0x0, .both, false, [R.SRC_EVT_REPEAT 0]⟩]

def rowsSRC3 : List Row := [
  ⟨0x1A8, 4, 0x300, 1, 0x0, .both, false, [R.SRC_CELLS 0]⟩]

/-- The register map of a SRC page, its header apart from CTRL and STATE (R59). -/
def rowsSRC : List Row := rowsSRC0 ++ rowsSRC1 ++ rowsSRC2 ++ rowsSRC3

def rowsDRC0 : List Row := [
  ⟨0x4, 1, 0, 1, 0, .both, false, [R.ENABLE 0x64000, R.LOCK 0x64000]⟩,
  ⟨0x8, 1, 0, 1, 0, .both, false, [R.RUN 0x64000, R.SAT 0x64000, R.DRC_STATE_TRAIN_FAIL 0, R.DRC_STATE_QUAR 0]⟩,
  ⟨0x20, 1, 0x0, 1, 0x0, .both, false, [R.DRC_AGE_RT 0, R.DRC_AGE_BULK 0, R.DRC_AGE_TRAIN 0]⟩,
  ⟨0x24, 1, 0x0, 1, 0x0, .both, false, [R.DRC_HAMMER_LIMIT 0, R.DRC_HAMMER_THROTTLE 0]⟩,
  ⟨0x28, 1, 0x0, 1, 0x0, .both, false, [R.DRC_QCFG_UE_LIMIT 0, R.DRC_QCFG_UE_WIN 0]⟩,
  ⟨0x2C, 1, 0x0, 1, 0x0, .both, false, [R.DRC_REF_LIMIT 0]⟩,
  ⟨0x30, 1, 0x0, 1, 0x0, .both, false, [R.DRC_THROTTLED_REQ 0]⟩,
  ⟨0x100, 2, 0x200, 1, 0x0, .both, false, [R.DRC_CH_STATE_STATE 0, R.DRC_CH_STATE_RATE 0, R.DRC_CH_STATE_HOT 0, R.DRC_CH_STATE_OWED 0, R.DRC_CH_STATE_QCAUSE 0]⟩,
  ⟨0x104, 2, 0x200, 1, 0x0, .both, false, [R.DRC_CH_MR4_MR4 0]⟩,
  ⟨0x108, 2, 0x200, 1, 0x0, .both, false, [R.DRC_CH_TRN_CFG_BURSTS 0, R.DRC_CH_TRN_CFG_PATTERN 0]⟩,
  ⟨0x10C, 2, 0x200, 1, 0x0, .both, false, [R.DRC_CH_TRN_SCRATCH_BASE 0]⟩,
  ⟨0x110, 2, 0x200, 1, 0x0, .both, false, [R.DRC_CH_TRN_CMD_OP 0, R.DRC_CH_TRN_CMD_GO 0]⟩]

def rowsDRC1 : List Row := [
  ⟨0x114, 2, 0x200, 1, 0x0, .both, false, [R.DRC_CH_TRN_RESULT_FAIL 0, R.DRC_CH_TRN_RESULT_DATA 0, R.DRC_CH_TRN_RESULT_BUSY 0]⟩,
  ⟨0x118, 2, 0x200, 1, 0x0, .both, false, [R.DRC_CH_TRN_MR_DATA 0, R.DRC_CH_TRN_MR_ADDR 0]⟩,
  ⟨0x11C, 2, 0x200, 1, 0x0, .both, false, [R.DRC_CH_TRIAL_MISC_VREF0 0, R.DRC_CH_TRIAL_MISC_VREF1 0, R.DRC_CH_TRIAL_MISC_CA 0, R.DRC_CH_TRIAL_MISC_WCK 0]⟩,
  ⟨0x160, 2, 0x200, 1, 0x0, .both, false, [R.DRC_CH_ACT_MISC_VREF0 0, R.DRC_CH_ACT_MISC_VREF1 0, R.DRC_CH_ACT_MISC_CA 0, R.DRC_CH_ACT_MISC_WCK 0]⟩,
  ⟨0x120, 2, 0x200, 4, 0x4, .both, false, [R.DRC_CH_TRIAL_RD_DLY0 0 0, R.DRC_CH_TRIAL_RD_DLY1 0 0, R.DRC_CH_TRIAL_RD_DLY2 0 0, R.DRC_CH_TRIAL_RD_DLY3 0 0]⟩,
  ⟨0x130, 2, 0x200, 4, 0x4, .both, false, [R.DRC_CH_TRIAL_WR_DLY0 0 0, R.DRC_CH_TRIAL_WR_DLY1 0 0, R.DRC_CH_TRIAL_WR_DLY2 0 0, R.DRC_CH_TRIAL_WR_DLY3 0 0]⟩,
  ⟨0x140, 2, 0x200, 4, 0x4, .both, false, [R.DRC_CH_RD_DLY_DLY0 0 0, R.DRC_CH_RD_DLY_DLY1 0 0, R.DRC_CH_RD_DLY_DLY2 0 0, R.DRC_CH_RD_DLY_DLY3 0 0]⟩,
  ⟨0x150, 2, 0x200, 4, 0x4, .both, false, [R.DRC_CH_WR_DLY_DLY0 0 0, R.DRC_CH_WR_DLY_DLY1 0 0, R.DRC_CH_WR_DLY_DLY2 0 0, R.DRC_CH_WR_DLY_DLY3 0 0]⟩,
  ⟨0x170, 2, 0x200, 1, 0x0, .both, false, [R.DRC_CH_EVT_CE 0]⟩,
  ⟨0x174, 2, 0x200, 1, 0x0, .both, false, [R.DRC_CH_EVT_UE 0]⟩,
  ⟨0x178, 2, 0x200, 1, 0x0, .both, false, [R.DRC_CH_EVT_RETRY_OK 0]⟩,
  ⟨0x17C, 2, 0x200, 1, 0x0, .both, false, [R.DRC_CH_EVT_REF_BURST 0]⟩]

def rowsDRC2 : List Row := [
  ⟨0x180, 2, 0x200, 1, 0x0, .both, false, [R.DRC_CH_EVT_RFM 0]⟩,
  ⟨0x184, 2, 0x200, 1, 0x0, .both, false, [R.DRC_CH_EVT_THROTTLE 0]⟩,
  ⟨0x188, 2, 0x200, 1, 0x0, .both, false, [R.DRC_CH_EVT_ERRRSP 0]⟩,
  ⟨0x18C, 2, 0x200, 1, 0x0, .both, false, [R.DRC_CH_EVT_HOT 0]⟩]

/-- The register map of a DRC page, its header apart from CTRL and STATE (R59). -/
def rowsDRC : List Row := rowsDRC0 ++ rowsDRC1 ++ rowsDRC2

def rowsPRS0 : List Row := [
  ⟨0x4, 1, 0, 1, 0, .both, false, [R.ENABLE 0x6C000, R.LOCK 0x6C000, R.PRS_CTRL_FLAGS 0]⟩,
  ⟨0x8, 1, 0, 1, 0, .both, false, [R.RUN 0x6C000, R.SAT 0x6C000]⟩,
  ⟨0x20, 1, 0x0, 1, 0x0, .both, false, [R.PRS_CFG_MODE 0, R.PRS_CFG_SURFACE 0]⟩,
  ⟨0x24, 1, 0x0, 1, 0x0, .both, false, [R.PRS_WIN_XY_X 0, R.PRS_WIN_XY_Y 0]⟩,
  ⟨0x28, 1, 0x0, 1, 0x0, .both, false, [R.PRS_WIN_SIZE_W 0, R.PRS_WIN_SIZE_H 0]⟩,
  ⟨0x2C, 1, 0x0, 1, 0x0, .both, false, [R.PRS_BG_RGB 0]⟩,
  ⟨0x30, 1, 0x0, 1, 0x0, .both, false, [R.PRS_CACHE_BASE_BASE 0]⟩,
  ⟨0x34, 1, 0x0, 1, 0x0, .both, false, [R.PRS_CACHE_SLOT_SIZE 0]⟩,
  ⟨0x38, 1, 0x0, 1, 0x0, .both, false, [R.PRS_BANK_SEL 0, R.PRS_BANK_CUR 0]⟩,
  ⟨0x40, 1, 0x0, 1, 0x0, .both, false, [R.PRS_STATUS_PC 0, R.PRS_STATUS_ERR 0, R.PRS_STATUS_VALID 0]⟩,
  ⟨0x44, 1, 0x0, 1, 0x0, .both, false, [R.PRS_LAST_CYCLES_CLOCKS 0]⟩,
  ⟨0x48, 1, 0x0, 1, 0x0, .both, false, [R.PRS_EVT_OVERRUN 0]⟩]

def rowsPRS1 : List Row := [
  ⟨0x4C, 1, 0x0, 1, 0x0, .both, false, [R.PRS_EVT_LISTERR 0]⟩,
  ⟨0x50, 1, 0x0, 1, 0x0, .both, false, [R.PRS_EVT_FLATTEN 0]⟩,
  ⟨0x54, 1, 0x0, 1, 0x0, .both, false, [R.PRS_EVT_FLATSKIP 0]⟩]

/-- The register map of a PRS page, its header apart from CTRL and STATE (R59). -/
def rowsPRS : List Row := rowsPRS0 ++ rowsPRS1

def rowsLYR0 : List Row := [
  ⟨0x4, 1, 0, 1, 0, .both, false, [R.ENABLE 0x74000, R.LOCK 0x74000]⟩,
  ⟨0x8, 1, 0, 1, 0, .both, false, [R.RUN 0x74000, R.SAT 0x74000]⟩,
  ⟨0x20, 1, 0x0, 1, 0x0, .both, false, [R.LYR_COMMIT_MASK 0]⟩,
  ⟨0x24, 1, 0x0, 1, 0x0, .both, false, [R.LYR_TOUCH_MASK 0]⟩,
  ⟨0x28, 1, 0x0, 1, 0x0, .both, false, [R.LYR_EVT_LATE 0]⟩,
  ⟨0x100, 16, 0x40, 1, 0x0, .both, false, [R.LYR_CTL_EN 0 0, R.LYR_CTL_PAL 0 0]⟩,
  ⟨0x104, 16, 0x40, 1, 0x0, .both, false, [R.LYR_BASE_BASE 0 0, R.LYR_BASE_MEM 0 0]⟩,
  ⟨0x108, 16, 0x40, 1, 0x0, .both, false, [R.LYR_CFG_FMT 0 0, R.LYR_CFG_MODE 0 0, R.LYR_CFG_STATIC 0 0, R.LYR_CFG_CAP_EN 0 0, R.LYR_CFG_GALPHA 0 0]⟩,
  ⟨0x10C, 16, 0x40, 1, 0x0, .both, false, [R.LYR_STRIDE_BYTES 0 0]⟩,
  ⟨0x110, 16, 0x40, 1, 0x0, .both, false, [R.LYR_BUFSIZE_SIZE 0 0]⟩,
  ⟨0x114, 16, 0x40, 1, 0x0, .both, false, [R.LYR_CAP_STREAM 0 0]⟩,
  ⟨0x118, 16, 0x40, 1, 0x0, .both, false, [R.LYR_WIN_XY_U 0 0, R.LYR_WIN_XY_V 0 0]⟩]

def rowsLYR1 : List Row := [
  ⟨0x11C, 16, 0x40, 1, 0x0, .both, false, [R.LYR_WIN_SIZE_W 0 0, R.LYR_WIN_SIZE_H 0 0]⟩,
  ⟨0x120, 16, 0x40, 1, 0x0, .both, false, [R.LYR_OFS_X 0 0, R.LYR_OFS_Y 0 0]⟩,
  ⟨0x124, 16, 0x40, 1, 0x0, .both, false, [R.LYR_STATE_RUN 0 0, R.LYR_STATE_PENDING 0 0, R.LYR_STATE_CUR 0 0, R.LYR_STATE_HELD 0 0, R.LYR_STATE_EN_CUR 0 0, R.LYR_STATE_PAL_CUR 0 0]⟩,
  ⟨0x128, 16, 0x40, 1, 0x0, .both, false, [R.LYR_GEN_GEN 0 0]⟩,
  ⟨0x12C, 16, 0x40, 1, 0x0, .both, false, [R.LYR_FRAME_FRAME 0 0]⟩,
  ⟨0x130, 16, 0x40, 1, 0x0, .both, false, [R.LYR_RETIRED_EPOCH_EPOCH 0 0]⟩,
  ⟨0x134, 16, 0x40, 1, 0x0, .both, false, [R.LYR_EVT_INCOMPLETE 0 0]⟩,
  ⟨0x138, 16, 0x40, 1, 0x0, .both, false, [R.LYR_EVT_REJECT 0 0]⟩]

/-- The register map of a LYR page, its header apart from CTRL and STATE (R59). -/
def rowsLYR : List Row := rowsLYR0 ++ rowsLYR1

def rowsDRN0 : List Row := [
  ⟨0x4, 1, 0, 1, 0, .both, false, [R.ENABLE 0x7C000, R.LOCK 0x7C000, R.DRN_CTRL_MEND_EN 0]⟩,
  ⟨0x8, 1, 0, 1, 0, .both, false, [R.RUN 0x7C000, R.SAT 0x7C000]⟩,
  ⟨0x20, 1, 0x0, 1, 0x0, .both, false, [R.DRN_CFG_MODE 0, R.DRN_CFG_FLAT 0]⟩,
  ⟨0x24, 1, 0x0, 1, 0x0, .both, false, [R.DRN_BANK_SEL 0, R.DRN_BANK_CUR 0, R.DRN_BANK_PENDING 0, R.DRN_BANK_LOADING 0]⟩,
  ⟨0x28, 1, 0x0, 1, 0x0, .both, false, [R.DRN_PAGE_PAGE 0]⟩,
  ⟨0x2C, 1, 0x0, 1, 0x0, .both, false, [R.DRN_LOAD_BASE_BASE 0]⟩,
  ⟨0x30, 1, 0x0, 1, 0x0, .both, false, [R.DRN_CMD_LOAD 0, R.DRN_CMD_VERIFY 0]⟩,
  ⟨0x34, 1, 0x0, 1, 0x0, .both, false, [R.DRN_BANK_CRC_CRC 0]⟩,
  ⟨0x38, 1, 0x0, 1, 0x0, .both, false, [R.DRN_RETIRED_EPOCH_EPOCH 0]⟩,
  ⟨0x3C, 1, 0x0, 1, 0x0, .both, false, [R.DRN_LAST_CYCLES_CLOCKS 0]⟩,
  ⟨0x40, 1, 0x0, 1, 0x0, .both, false, [R.DRN_MEND_STATE_APPLIED 0, R.DRN_MEND_STATE_SKIPPED 0]⟩,
  ⟨0x44, 1, 0x0, 1, 0x0, .both, false, [R.DRN_MAP_ERR_SINK 0, R.DRN_MAP_ERR_ROW 0, R.DRN_MAP_ERR_VALID 0]⟩]

def rowsDRN1 : List Row := [
  ⟨0x48, 1, 0x0, 1, 0x0, .both, false, [R.DRN_EVT_RANGE 0]⟩,
  ⟨0x4C, 1, 0x0, 1, 0x0, .both, false, [R.DRN_EVT_SAT 0]⟩]

/-- The register map of a DRN page, its header apart from CTRL and STATE (R59). -/
def rowsDRN : List Row := rowsDRN0 ++ rowsDRN1

def rowsSCN0 : List Row := [
  ⟨0x4, 1, 0, 1, 0, .both, false, [R.ENABLE 0x84000, R.LOCK 0x84000, R.SCN_CTRL_FORCE_STATIC 0]⟩,
  ⟨0x8, 1, 0, 1, 0, .both, false, [R.RUN 0x84000, R.SAT 0x84000]⟩,
  ⟨0x20, 1, 0x0, 1, 0x0, .both, false, [R.SCN_FB_BASE 0, R.SCN_FB_SRC 0]⟩,
  ⟨0x24, 1, 0x0, 1, 0x0, .both, false, [R.SCN_COMMIT_GO 0]⟩,
  ⟨0x28, 1, 0x0, 1, 0x0, .both, false, [R.SCN_FB_CUR_BASE 0, R.SCN_FB_CUR_PENDING 0, R.SCN_FB_CUR_SRC 0]⟩,
  ⟨0x40, 1, 0x0, 1, 0x0, .both, false, [R.SCN_ROWCFG_ROWS 0, R.SCN_ROWCFG_SUBF 0, R.SCN_ROWCFG_SUBF_STATIC 0, R.SCN_ROWCFG_ROT 0, R.SCN_ROWCFG_WRAIL 0]⟩,
  ⟨0x44, 1, 0x0, 1, 0x0, .both, false, [R.SCN_SLOT_NS 0]⟩,
  ⟨0x48, 1, 0x0, 1, 0x0, .both, false, [R.SCN_PULSE_MAX_NS 0]⟩,
  ⟨0x4C, 1, 0x0, 1, 0x0, .both, false, [R.SCN_FLOOR_HZ 0]⟩,
  ⟨0x50, 1, 0x0, 1, 0x0, .both, false, [R.SCN_INC_INC 0]⟩,
  ⟨0x54, 1, 0x0, 1, 0x0, .both, false, [R.SCN_STATUS_ROLE 0, R.SCN_STATUS_STATIC 0, R.SCN_STATUS_TMISMATCH 0, R.SCN_STATUS_S_EFF 0, R.SCN_STATUS_VALID 0]⟩,
  ⟨0x58, 1, 0x0, 1, 0x0, .both, false, [R.SCN_POS_SLOT 0, R.SCN_POS_SUBF 0, R.SCN_POS_ROW 0, R.SCN_POS_GAP 0]⟩]

def rowsSCN1 : List Row := [
  ⟨0x60, 1, 0x0, 1, 0x0, .both, false, [R.SCN_EVT_INVALID 0]⟩,
  ⟨0x64, 1, 0x0, 1, 0x0, .both, false, [R.SCN_EVT_UNDERRUN 0]⟩,
  ⟨0x68, 1, 0x0, 1, 0x0, .both, false, [R.SCN_EVT_NOSWAP 0]⟩,
  ⟨0x6C, 1, 0x0, 1, 0x0, .both, false, [R.SCN_EVT_FLOORUP 0]⟩,
  ⟨0x70, 1, 0x0, 1, 0x0, .both, false, [R.SCN_EVT_TMISMATCH 0]⟩]

/-- The register map of a SCN page, its header apart from CTRL and STATE (R59). -/
def rowsSCN : List Row := rowsSCN0 ++ rowsSCN1

def rowsLMP0 : List Row := [
  ⟨0x4, 1, 0, 1, 0, .both, false, [R.ENABLE 0x8C000, R.LOCK 0x8C000, R.LMP_CTRL_PROBE_EN 0, R.LMP_CTRL_AUTO_RESTORE 0, R.LMP_CTRL_ROWSEL 0]⟩,
  ⟨0x8, 1, 0, 1, 0, .both, false, [R.RUN 0x8C000, R.SAT 0x8C000, R.LMP_STATE_BLK 0]⟩,
  ⟨0x20, 1, 0x0, 1, 0x0, .both, false, [R.LMP_REF_R 0, R.LMP_REF_G 0, R.LMP_REF_B 0]⟩,
  ⟨0x24, 1, 0x0, 1, 0x0, .both, false, [R.LMP_XOVER_C 0]⟩,
  ⟨0x28, 1, 0x0, 1, 0x0, .both, false, [R.LMP_DERATE_KNEE 0, R.LMP_DERATE_FLOOR 0]⟩,
  ⟨0x2C, 1, 0x0, 1, 0x0, .both, false, [R.LMP_DIAG_CFG_DIAG_EN 0, R.LMP_DIAG_CFG_NB_EN 0, R.LMP_DIAG_CFG_ROW_EN 0]⟩,
  ⟨0x30, 1, 0x0, 1, 0x0, .both, false, [R.LMP_DEAD_NS 0]⟩,
  ⟨0x34, 1, 0x0, 1, 0x0, .both, false, [R.LMP_THR0_OPEN 0, R.LMP_THR0_SHORT 0]⟩,
  ⟨0x38, 1, 0x0, 1, 0x0, .both, false, [R.LMP_THR1_OPEN 0, R.LMP_THR1_SHORT 0]⟩,
  ⟨0x40, 1, 0x0, 1, 0x0, .both, false, [R.LMP_STATUS_DERATING 0, R.LMP_STATUS_SHORT_NB 0, R.LMP_STATUS_ROW_STUCK 0, R.LMP_STATUS_LEAK 0, R.LMP_STATUS_DEAD_CLIP 0, R.LMP_STATUS_PROBE_NOROOM 0, R.LMP_STATUS_CLAMP 0]⟩,
  ⟨0x44, 1, 0x0, 1, 0x0, .both, false, [R.LMP_DERATE_NOW_TMAX 0, R.LMP_DERATE_NOW_D 0]⟩,
  ⟨0x48, 1, 0x0, 1, 0x0, .both, false, [R.LMP_CNT_A_OPEN 0, R.LMP_CNT_A_SHORT 0]⟩]

def rowsLMP1 : List Row := [
  ⟨0x4C, 1, 0x0, 1, 0x0, .both, false, [R.LMP_CNT_B_UNVERIFIED 0, R.LMP_CNT_B_GOOD 0]⟩,
  ⟨0x50, 1, 0x0, 1, 0x0, .both, false, [R.LMP_ROW_LAST_ROW 0, R.LMP_ROW_LAST_KIND 0]⟩,
  ⟨0x54, 1, 0x0, 1, 0x0, .both, false, [R.LMP_NB_LAST_SINK 0, R.LMP_NB_LAST_VALID 0]⟩,
  ⟨0x58, 1, 0x0, 1, 0x0, .both, false, [R.LMP_ROW_STUCK_LO_ROWS 0]⟩,
  ⟨0x5C, 1, 0x0, 1, 0x0, .both, false, [R.LMP_ROW_STUCK_HI_ROWS 0]⟩,
  ⟨0x60, 1, 0x0, 1, 0x0, .both, false, [R.LMP_EVT_OPEN 0]⟩,
  ⟨0x64, 1, 0x0, 1, 0x0, .both, false, [R.LMP_EVT_SHORT 0]⟩,
  ⟨0x68, 1, 0x0, 1, 0x0, .both, false, [R.LMP_EVT_NB 0]⟩,
  ⟨0x6C, 1, 0x0, 1, 0x0, .both, false, [R.LMP_EVT_ROW 0]⟩,
  ⟨0x70, 1, 0x0, 1, 0x0, .both, false, [R.LMP_EVT_PROBE 0]⟩,
  ⟨0x74, 1, 0x0, 1, 0x0, .both, false, [R.LMP_EVT_OVERTEMP 0]⟩,
  ⟨0x78, 1, 0x0, 1, 0x0, .both, false, [R.LMP_EVT_LINK 0]⟩]

def rowsLMP2 : List Row := [
  ⟨0x7C, 1, 0x0, 1, 0x0, .both, false, [R.LMP_EVT_RESTORE 0]⟩,
  ⟨0x100, 1, 0x0, 16, 0x4, .both, false, [R.LMP_FORCED_SINKS 0 0]⟩,
  ⟨0x140, 1, 0x0, 16, 0x4, .both, false, [R.LMP_NBSHORT_SINKS 0 0]⟩,
  ⟨0x180, 1, 0x0, 16, 0x4, .both, false, [R.LMP_RESTORE_SINKS 0 0]⟩,
  ⟨0x200, 1, 0x0, 8, 0x4, .both, false, [R.LMP_TDLY_TAPS0 0 0, R.LMP_TDLY_TAPS1 0 0, R.LMP_TDLY_TAPS2 0 0, R.LMP_TDLY_TAPS3 0 0]⟩,
  ⟨0x400, 1, 0x0, 128, 0x4, .both, false, [R.LMP_TRIM_TRIM0 0 0, R.LMP_TRIM_TRIM1 0 0, R.LMP_TRIM_TRIM2 0 0, R.LMP_TRIM_TRIM3 0 0]⟩,
  ⟨0x600, 1, 0x0, 32, 0x4, .both, false, [R.LMP_LAMP_STATE_STATES 0 0]⟩]

/-- The register map of a LMP page, its header apart from CTRL and STATE (R59). -/
def rowsLMP : List Row := rowsLMP0 ++ rowsLMP1 ++ rowsLMP2

def rowsLOP0 : List Row := [
  ⟨0x4, 1, 0, 1, 0, .both, false, [R.ENABLE 0x94000, R.LOCK 0x94000, R.LOP_CTRL_MODE, R.LOP_CTRL_SENSE_W, R.LOP_CTRL_SENSE_E]⟩,
  ⟨0x8, 1, 0, 1, 0, .both, false, [R.RUN 0x94000, R.SAT 0x94000]⟩,
  ⟨0x20, 1, 0x0, 1, 0x0, .both, false, [R.LOP_CHECK_ADDR, R.LOP_CHECK_SLOT, R.LOP_CHECK_REASON]⟩,
  ⟨0x24, 1, 0x0, 1, 0x0, .both, false, [R.LOP_UTIL_SUM]⟩,
  ⟨0x28, 1, 0x0, 1, 0x0, .both, false, [R.LOP_RESTART_SLOTS]⟩,
  ⟨0x2C, 1, 0x0, 1, 0x0, .both, false, [R.LOP_SLOT_HALT_SLOTS]⟩,
  ⟨0x30, 1, 0x0, 1, 0x0, .both, false, [R.LOP_EVT_HALT]⟩,
  ⟨0x40, 1, 0x0, 16, 0x4, .both, false, [R.LOP_XCHG_X0 0, R.LOP_XCHG_X1 0]⟩,
  ⟨0x100, 24, 0x20, 1, 0x0, .both, false, [R.LOP_SLOT_CFG_EN 0, R.LOP_SLOT_CFG_RAIL 0, R.LOP_SLOT_CFG_ENTRY 0]⟩,
  ⟨0x104, 24, 0x20, 1, 0x0, .both, false, [R.LOP_SLOT_TIME_PERIOD 0, R.LOP_SLOT_TIME_PHASE 0]⟩,
  ⟨0x108, 24, 0x20, 1, 0x0, .both, false, [R.LOP_SLOT_TGT01_LO 0, R.LOP_SLOT_TGT01_HI 0]⟩,
  ⟨0x10C, 24, 0x20, 1, 0x0, .both, false, [R.LOP_SLOT_TGT23_LO 0, R.LOP_SLOT_TGT23_HI 0]⟩]

def rowsLOP1 : List Row := [
  ⟨0x110, 24, 0x20, 1, 0x0, .both, false, [R.LOP_SLOT_INFO_LEN 0, R.LOP_SLOT_INFO_LAT 0, R.LOP_SLOT_INFO_WIN 0]⟩,
  ⟨0x114, 24, 0x20, 1, 0x0, .both, false, [R.LOP_SLOT_JIT_LAST 0, R.LOP_SLOT_JIT_MAX 0]⟩,
  ⟨0x118, 24, 0x20, 1, 0x0, .both, false, [R.LOP_SLOT_EVT_SKIP 0]⟩,
  ⟨0x11C, 24, 0x20, 1, 0x0, .both, false, [R.LOP_SLOT_EVT_SAT 0]⟩,
  ⟨0x400, 6, 0x40, 1, 0x0, .tileOnly, false, [R.LOP_RAIL_LANES_SS 0, R.LOP_RAIL_LANES_RUN 0]⟩,
  ⟨0x404, 6, 0x40, 1, 0x0, .tileOnly, false, [R.LOP_RAIL_HO_SLEW 0, R.LOP_RAIL_HO_SETTLE 0]⟩,
  ⟨0x408, 6, 0x40, 1, 0x0, .tileOnly, false, [R.LOP_RAIL_LIM_SP_MAX 0, R.LOP_RAIL_LIM_OV_LIM 0]⟩,
  ⟨0x40C, 6, 0x40, 1, 0x0, .tileOnly, false, [R.LOP_RAIL_FF_LEAD 0]⟩,
  ⟨0x410, 6, 0x40, 1, 0x0, .tileOnly, false, [R.LOP_RAIL_STATE_STATE 0, R.LOP_RAIL_STATE_WIN 0, R.LOP_RAIL_STATE_MODE_USED 0, R.LOP_RAIL_STATE_SENSE_USED 0, R.LOP_RAIL_STATE_FF_CLIP 0]⟩,
  ⟨0x414, 6, 0x40, 1, 0x0, .tileOnly, false, [R.LOP_RAIL_SP_X 0, R.LOP_RAIL_SP_U 0]⟩,
  ⟨0x418, 6, 0x40, 1, 0x0, .tileOnly, false, [R.LOP_RAIL_EVT_HANDOVER 0]⟩,
  ⟨0x41C, 6, 0x40, 1, 0x0, .tileOnly, false, [R.LOP_RAIL_EVT_OV 0]⟩]

def rowsLOP2 : List Row := [
  ⟨0x420, 6, 0x40, 1, 0x0, .tileOnly, false, [R.LOP_CH_CFG_BAND 0, R.LOP_CH_CFG_OFS_SH 0, R.LOP_CH_CFG_DT 0]⟩,
  ⟨0x424, 6, 0x40, 1, 0x0, .tileOnly, false, [R.LOP_CH_OCL_OC_LIM 0, R.LOP_CH_OCL_OFS_LIM 0]⟩,
  ⟨0x428, 6, 0x40, 1, 0x0, .tileOnly, false, [R.LOP_CH_BASE_BASE_HI 0, R.LOP_CH_BASE_BASE_LO 0]⟩,
  ⟨0x42C, 6, 0x40, 1, 0x0, .tileOnly, false, [R.LOP_CH_OFS_OFS 0]⟩,
  ⟨0x430, 6, 0x40, 1, 0x0, .tileOnly, false, [R.LOP_CH_MEAS_PEAK 0, R.LOP_CH_MEAS_VALLEY 0]⟩,
  ⟨0x434, 6, 0x40, 1, 0x0, .tileOnly, false, [R.LOP_CH_PERIOD_NS 0]⟩,
  ⟨0x438, 6, 0x40, 1, 0x0, .tileOnly, false, [R.LOP_CH_EVT_OC 0]⟩,
  ⟨0x43C, 6, 0x40, 1, 0x0, .tileOnly, false, [R.LOP_CH_EVT_LIMIT 0]⟩]

/-- The register map of a LOP page, its header apart from CTRL and STATE (R59). -/
def rowsLOP : List Row := rowsLOP0 ++ rowsLOP1 ++ rowsLOP2

def rowsTRV0 : List Row := [
  ⟨0x4, 1, 0, 1, 0, .both, false, [R.ENABLE 0x98000, R.LOCK 0x98000]⟩,
  ⟨0x8, 1, 0, 1, 0, .both, false, [R.RUN 0x98000, R.SAT 0x98000]⟩,
  ⟨0x20, 1, 0x0, 1, 0x0, .both, false, [R.TRV_CFG_GEN_EN, R.TRV_CFG_LINK]⟩,
  ⟨0x24, 1, 0x0, 1, 0x0, .both, false, [R.TRV_CMD_STOP, R.TRV_CMD_RELOAD]⟩,
  ⟨0x28, 1, 0x0, 1, 0x0, .both, false, [R.TRV_OUT_L_W, R.TRV_OUT_L_E]⟩,
  ⟨0x100, 4, 0x40, 1, 0x0, .both, false, [R.TRV_G_TARGET_TARGET 0]⟩,
  ⟨0x104, 4, 0x40, 1, 0x0, .both, false, [R.TRV_G_VMAX_VMAX 0]⟩,
  ⟨0x108, 4, 0x40, 1, 0x0, .both, false, [R.TRV_G_AMAX_AMAX 0]⟩,
  ⟨0x10C, 4, 0x40, 1, 0x0, .both, false, [R.TRV_G_POS_P 0, R.TRV_G_POS_STATE 0, R.TRV_G_POS_WHY 0, R.TRV_G_POS_VDESC 0]⟩,
  ⟨0x110, 4, 0x40, 1, 0x0, .both, false, [R.TRV_G_VEL_V 0]⟩,
  ⟨0x114, 4, 0x40, 1, 0x0, .both, false, [R.TRV_G_OVERSHOOT_PEAK 0, R.TRV_G_OVERSHOOT_DIST 0]⟩,
  ⟨0x118, 4, 0x40, 1, 0x0, .both, false, [R.TRV_G_EVT_OVERSHOOT 0]⟩]

def rowsTRV1 : List Row := [
  ⟨0x11C, 4, 0x40, 1, 0x0, .both, false, [R.TRV_G_EVT_LOST 0]⟩]

/-- The register map of a TRV page, its header apart from CTRL and STATE (R59). -/
def rowsTRV : List Row := rowsTRV0 ++ rowsTRV1

def rowsEPC0 : List Row := [
  ⟨0x4, 1, 0, 1, 0, .both, false, [R.ENABLE 0x9C000, R.LOCK 0x9C000]⟩,
  ⟨0x8, 1, 0, 1, 0, .both, false, [R.RUN 0x9C000, R.SAT 0x9C000]⟩,
  ⟨0x20, 1, 0x0, 1, 0x0, .both, false, [R.EPC_CFG_MASTER, R.EPC_CFG_PTP, R.EPC_CFG_PTP_PORT]⟩,
  ⟨0x24, 1, 0x0, 1, 0x0, .both, false, [R.EPC_PERIOD_NS]⟩,
  ⟨0x28, 1, 0x0, 1, 0x0, .both, false, [R.EPC_PERIOD_NEXT_NS]⟩,
  ⟨0x2C, 1, 0x0, 1, 0x0, .both, false, [R.EPC_PERIOD_AT_EPOCH]⟩,
  ⟨0x30, 1, 0x0, 1, 0x0, .both, false, [R.EPC_LEAD_US]⟩,
  ⟨0x34, 1, 0x0, 1, 0x0, .both, false, [R.EPC_STATE_STATE, R.EPC_STATE_DIR, R.EPC_STATE_HOLD_FLAG, R.EPC_STATE_PTP_LOSS, R.EPC_STATE_MASTER_HEAD]⟩,
  ⟨0x38, 1, 0x0, 1, 0x0, .both, false, [R.EPC_EPOCH_EPOCH]⟩,
  ⟨0x3C, 1, 0x0, 1, 0x0, .both, false, [R.EPC_ERR_ERR]⟩,
  ⟨0x40, 1, 0x0, 1, 0x0, .both, false, [R.EPC_TRIM_TRIM]⟩,
  ⟨0x44, 1, 0x0, 1, 0x0, .both, false, [R.EPC_ORIGIN_LO_NS]⟩]

def rowsEPC1 : List Row := [
  ⟨0x48, 1, 0x0, 1, 0x0, .both, false, [R.EPC_ORIGIN_HI_NS]⟩,
  ⟨0x50, 1, 0x0, 1, 0x0, .both, false, [R.EPC_EVT_BCN_MISS]⟩,
  ⟨0x54, 1, 0x0, 1, 0x0, .both, false, [R.EPC_EVT_DIR]⟩,
  ⟨0x58, 1, 0x0, 1, 0x0, .both, false, [R.EPC_EVT_PHASE_STEP]⟩,
  ⟨0x5C, 1, 0x0, 1, 0x0, .both, false, [R.EPC_EVT_MISMATCH]⟩,
  ⟨0x60, 1, 0x0, 1, 0x0, .both, false, [R.EPC_EVT_CONTEST]⟩,
  ⟨0x64, 1, 0x0, 1, 0x0, .both, false, [R.EPC_EVT_PTP_LOSS]⟩]

/-- The register map of a EPC page, its header apart from CTRL and STATE (R59). -/
def rowsEPC : List Row := rowsEPC0 ++ rowsEPC1

def rowsTHM0 : List Row := [
  ⟨0x4, 1, 0, 1, 0, .both, false, [R.ENABLE 0xA0000, R.LOCK 0xA0000]⟩,
  ⟨0x8, 1, 0, 1, 0, .both, false, [R.RUN 0xA0000, R.SAT 0xA0000]⟩,
  ⟨0x20, 1, 0x0, 1, 0x0, .both, false, [R.THM_CFG_HOT_LIM]⟩,
  ⟨0x24, 1, 0x0, 1, 0x0, .both, false, [R.THM_STATUS_FAULT, R.THM_STATUS_HOT, R.THM_STATUS_DIS]⟩,
  ⟨0x28, 1, 0x0, 1, 0x0, .both, false, [R.THM_MAX_CTRL, R.THM_MAX_SINK]⟩,
  ⟨0x40, 1, 0x0, 12, 0x4, .both, false, [R.THM_S_T 0, R.THM_S_VALID 0]⟩,
  ⟨0x80, 1, 0x0, 1, 0x0, .both, false, [R.THM_EVT_FAULT]⟩,
  ⟨0x84, 1, 0x0, 1, 0x0, .both, false, [R.THM_EVT_HOT]⟩]

/-- The register map of a THM page, its header apart from CTRL and STATE (R59). -/
def rowsTHM : List Row := rowsTHM0

def rowsGPIO0 : List Row := [
  ⟨0x4, 1, 0, 1, 0, .both, false, [R.ENABLE 0xA4000, R.LOCK 0xA4000]⟩,
  ⟨0x8, 1, 0, 1, 0, .both, false, [R.RUN 0xA4000, R.SAT 0xA4000]⟩,
  ⟨0x20, 1, 0x0, 1, 0x0, .both, false, [R.GPIO_OE_OE]⟩,
  ⟨0x24, 1, 0x0, 1, 0x0, .both, false, [R.GPIO_OUT_OUT]⟩,
  ⟨0x28, 1, 0x0, 1, 0x0, .both, false, [R.GPIO_IN_IN]⟩]

/-- The register map of a GPIO page, its header apart from CTRL and STATE (R59). -/
def rowsGPIO : List Row := rowsGPIO0

/-- The rows of a block's page. -/
def Blk.rows : Blk → List Row
  | .SYS => rowsSYS
  | .CLK => rowsCLK
  | .BOOT => rowsBOOT
  | .PWR => rowsPWR
  | .CAL => rowsCAL
  | .CRN => rowsCRN
  | .FLD => rowsFLD
  | .MGT => rowsMGT
  | .HST => rowsHST
  | .DMA => rowsDMA
  | .ETH => rowsETH
  | .SPR => rowsSPR
  | .LNE => rowsLNE
  | .RING => rowsRING
  | .SRC => rowsSRC
  | .DRC => rowsDRC
  | .PRS => rowsPRS
  | .LYR => rowsLYR
  | .DRN => rowsDRN
  | .SCN => rowsSCN
  | .LMP => rowsLMP
  | .LOP => rowsLOP
  | .TRV => rowsTRV
  | .EPC => rowsEPC
  | .THM => rowsTHM
  | .GPIO => rowsGPIO

/-- The window number (base address / 16 KiB) of a block's first window (R86). -/
def Blk.win0 : Blk → Nat
  | .SYS => 0
  | .CLK => 1
  | .BOOT => 2
  | .PWR => 3
  | .CAL => 4
  | .CRN => 5
  | .FLD => 6
  | .MGT => 7
  | .HST => 8
  | .DMA => 9
  | .ETH => 10
  | .SPR => 11
  | .LNE => 12
  | .RING => 18
  | .SRC => 21
  | .DRC => 25
  | .PRS => 27
  | .LYR => 29
  | .DRN => 31
  | .SCN => 33
  | .LMP => 35
  | .LOP => 37
  | .TRV => 38
  | .EPC => 39
  | .THM => 40
  | .GPIO => 41

/-- How many windows a block has on a build (R86). -/
def Blk.wins : Blk → Build → Nat
  | .SYS, .head => 1
  | .SYS, .tile => 1
  | .CLK, .head => 1
  | .CLK, .tile => 1
  | .BOOT, .head => 1
  | .BOOT, .tile => 1
  | .PWR, .head => 1
  | .PWR, .tile => 1
  | .CAL, .head => 1
  | .CAL, .tile => 1
  | .CRN, .head => 1
  | .CRN, .tile => 1
  | .FLD, .head => 1
  | .FLD, .tile => 1
  | .MGT, .head => 1
  | .MGT, .tile => 1
  | .HST, .head => 1
  | .HST, .tile => 0
  | .DMA, .head => 1
  | .DMA, .tile => 0
  | .ETH, .head => 1
  | .ETH, .tile => 1
  | .SPR, .head => 1
  | .SPR, .tile => 0
  | .LNE, .head => 6
  | .LNE, .tile => 1
  | .RING, .head => 3
  | .RING, .tile => 1
  | .SRC, .head => 4
  | .SRC, .tile => 0
  | .DRC, .head => 2
  | .DRC, .tile => 1
  | .PRS, .head => 0
  | .PRS, .tile => 2
  | .LYR, .head => 0
  | .LYR, .tile => 2
  | .DRN, .head => 0
  | .DRN, .tile => 2
  | .SCN, .head => 0
  | .SCN, .tile => 2
  | .LMP, .head => 0
  | .LMP, .tile => 2
  | .LOP, .head => 1
  | .LOP, .tile => 1
  | .TRV, .head => 0
  | .TRV, .tile => 1
  | .EPC, .head => 1
  | .EPC, .tile => 1
  | .THM, .head => 1
  | .THM, .tile => 1
  | .GPIO, .head => 1
  | .GPIO, .tile => 1

/-- The type code in ID (R59, R86). -/
def Blk.typ : Blk → Nat
  | .SYS => 1
  | .CLK => 2
  | .BOOT => 3
  | .PWR => 4
  | .CAL => 5
  | .CRN => 6
  | .FLD => 7
  | .MGT => 8
  | .HST => 9
  | .DMA => 10
  | .ETH => 11
  | .SPR => 12
  | .LNE => 13
  | .RING => 14
  | .SRC => 15
  | .DRC => 16
  | .PRS => 17
  | .LYR => 18
  | .DRN => 19
  | .SCN => 20
  | .LMP => 21
  | .LOP => 22
  | .TRV => 23
  | .EPC => 24
  | .THM => 25
  | .GPIO => 26

/-- The block and the window index of a window number; none above the last window (R74 UNMAPPED). -/
def winBlk (w : Nat) : Option (Blk × Nat) :=
  if w < 1 then some (.SYS, w - 0)
  else if w < 2 then some (.CLK, w - 1)
  else if w < 3 then some (.BOOT, w - 2)
  else if w < 4 then some (.PWR, w - 3)
  else if w < 5 then some (.CAL, w - 4)
  else if w < 6 then some (.CRN, w - 5)
  else if w < 7 then some (.FLD, w - 6)
  else if w < 8 then some (.MGT, w - 7)
  else if w < 9 then some (.HST, w - 8)
  else if w < 10 then some (.DMA, w - 9)
  else if w < 11 then some (.ETH, w - 10)
  else if w < 12 then some (.SPR, w - 11)
  else if w < 18 then some (.LNE, w - 12)
  else if w < 21 then some (.RING, w - 18)
  else if w < 25 then some (.SRC, w - 21)
  else if w < 27 then some (.DRC, w - 25)
  else if w < 29 then some (.PRS, w - 27)
  else if w < 31 then some (.LYR, w - 29)
  else if w < 33 then some (.DRN, w - 31)
  else if w < 35 then some (.SCN, w - 33)
  else if w < 37 then some (.LMP, w - 35)
  else if w < 38 then some (.LOP, w - 37)
  else if w < 39 then some (.TRV, w - 38)
  else if w < 40 then some (.EPC, w - 39)
  else if w < 41 then some (.THM, w - 40)
  else if w < 42 then some (.GPIO, w - 41)
  else none

end Sys2Proof.Machine
end

