-- ==== Sys2Proof/Machine/Parts.lean ====
section
/-! DEFINITION. The parts of the state that are no register: memory spaces, outputs, pins, boot, the authority voter, the epoch
timebase, ports, ingest, the host interface, authority, side ports. -/

namespace Sys2Proof.Machine

/-- The RAMs of the device (R87, R101, R363, R144, R135, R165, R168, R174). -/
inductive Space where
  /-- the memory window of the register map, at its own addresses (R87) -/
  | window
  /-- the MRAM store (R101) -/
  | store
  /-- DRAM, by byte address (R363) -/
  | dram
  /-- a darn-table bank of a half (R174) -/
  | darn (half bank : Nat)
  /-- the layer SRAM of a half (R144) -/
  | layer (half : Nat)
  /-- the composition buffer of a half, 4 bytes a pixel (R135) -/
  | comp (half : Nat)
  /-- a scan buffer of a half, 2 bytes a lamp value, entry r x 512 + s (R165, R168) -/
  | scan (half buf : Nat)
  /-- the palettes, mend list and press lists' copies in force are in the window; this is the mend list in force (R184) -/
  | mend
  deriving DecidableEq, Repr

/-- The key of a byte: each space has 2^40 keys of its own. -/
def Space.key (sp : Space) (off : Nat) : Nat :=
  off + 1099511627776 * (match sp with
    | .window => 0
    | .store => 1
    | .dram => 2
    | .mend => 3
    | .layer h => 4 + h
    | .comp h => 6 + h
    | .darn h b => 8 + 2 * h + b
    | .scan h b => 12 + 2 * h + b)

/-- What the device puts out, as the outside sees it. -/
inductive Out where
  /-- the data of a completed read on a path -/
  | data (path : Path) (ws : List Word)
  /-- a completed write that answers on its path -/
  | done (path : Path)
  /-- Completer Abort, data abort, REG_RSP with ERR or NACK, by the path (R75) -/
  | abort (path : Path)
  /-- Configuration Request Retry Status (R104) -/
  | retry
  /-- a completed configuration request, and what a read of it gives (R333, R337) -/
  | config (fn : Nat) (value : Nat)
  /-- a read of host memory that the device issues as a function: its tag, address, length, and the Relaxed Ordering attribute (R115, R336) -/
  | hostRead (fn tag addr len : Nat) (relaxed : Bool)
  /-- a cell on the wire of a port; `stomped`: its trailer is inverted (R289) -/
  | cell (port : Nat) (c : Cell) (stomped : Bool)
  /-- 8 marker codewords: the refresh of a QUIET direction, or the burst that ends SLEEP (R302) -/
  | refresh (port : Nat)
  /-- a codeword on the lanes of a port: the PAM4 levels of each port lane, in order (R274 to R277) -/
  | codeword (port : Nat) (lanes : List (List Int))
  /-- a training frame of a lane: its index in the port, the width, PRECODE_TX, an FFE request and response, the ready flag, and the bits of
  its PRBS13 (R280) -/
  | training (lane index width precode request response : Nat) (ready : Bool) (prbs : List Bool)
  /-- an IDLE cell (R277) -/
  | idle (port : Nat)
  /-- a Latency Tolerance Reporting message of a function (R332) -/
  | ltr (fn value : Nat)
  /-- a write to host memory over PCIe -/
  | hostWrite (addr : Nat) (data : List Byte)
  /-- an MSI-X vector raised (R335) -/
  | msix (fn vector : Nat)
  /-- a Delay_Req of the PTP client: its port, its source address, and its timestamp in ns (R355) -/
  | delayReq (port srcIp stamp : Nat)
  /-- an Ethernet frame out of a side port -/
  | frame (port : Nat) (bytes : List Byte)
  /-- the bytes of a read as the host clocks them out of the management port (R360) -/
  | mgtData (bytes : List Byte)
  /-- a write transaction acknowledged on the management port -/
  | mgtAck
  /-- a NACK on the management port -/
  | mgtNack
  /-- the management port releases SDA and SCL (R359) -/
  | mgtRelease
  /-- an answer of the debug access port (R108) -/
  | debug (v : Word)
  | debugDenied
  /-- the gates of a rail's chopper (R256): both low for `dead` ns, then HG high in phase 1, LG high in phase 2, neither in phase 0 -/
  | gates (rail phase dead : Nat)
  /-- the GPIO pads: which are driven, bit i for GPIOi, and their levels; the others are inputs with a pull-down (R420) -/
  | gpio (driven levels : Nat)
  /-- an output pad changes: RAIL_EN, CLKREQ, WAKE_N and the like -/
  | pin (name : String) (level : Bool)
  /-- a command to a DRAM channel: REFab, RFMab, MRW and the like -/
  | dramCmd (ch : Nat) (name : String) (arg : Nat)
  /-- a burst delivered to its requester, or an error response -/
  | dramData (requester : Nat) (addr : Nat) (data : List Byte)
  | dramErr (requester : Nat) (addr : Nat)
  deriving DecidableEq, Repr

/-- The input pads and the straps as they stand. -/
structure Pins where
  refclkOk : Bool
  xtalOk : Bool
  resetLow : Bool
  perstLow : Bool
  strapRole : Bool
  strapHalf : Bool
  strapAddr : Nat
  gpioIn : Nat
  railEn : Bool
  railPg : Bool
  /-- the levels of the wake sources (R409): the WAKE pad, CLKREQ_N driven low, and signal detect by lane, bit k for lane k -/
  wakeHigh : Bool
  clkreqLow : Bool
  detect : Nat
  deriving DecidableEq, Repr

/-- A copy of the boot record (R102); `ok`: its CRC-32C is correct. -/
structure BootRecord where
  seq : Nat
  digests : List Nat
  debugLock : Bool
  minVersion : Nat
  ok : Bool
  deriving DecidableEq, Repr

/-- Where the boot ROM stands (R103, R105). `held`: RESET_N is low, or the supplies are not up. -/
inductive BootPhase where
  | held | detect | pllWait | verify | run | recovery | pllFail
  deriving DecidableEq, Repr

/-- The causes of a full reset (BOOT_RESET_CAUSE). -/
inductive ResetCause where
  | por | pin | cmd | wdog | lockstep
  deriving DecidableEq, Repr

structure Boot where
  phase : BootPhase
  pllTries : Nat
  /-- a full reset scheduled by FULL, the watchdog path of a head or a lockstep mismatch (R98, R99) -/
  due : Option ResetCause
  memClear : Bool
  /-- slot, version and FALLBACK chosen by R104, waiting for the memory clear (R439) -/
  chosen : Option (Nat × Nat × Bool)
  recA : BootRecord
  recB : BootRecord
  /-- the next write to BOOT_LOAD_DATA clears the target slot's valid flag (R110) -/
  loadFirst : Bool
  /-- the debug access port has halted Kryty (R108) -/
  halted : Bool
  /-- the copy of the boot record that an update is writing (R105) -/
  writing : Option Nat
  /-- when RESET_N and PERST_N last rose, the later of the two, in ns (R104) -/
  roseNs : Nat
  /-- RAIL_PG has fallen outside Valley: a power-on reset follows its return (R425) -/
  porDue : Bool
  deriving DecidableEq, Repr

structure Wdog where
  running : Bool
  periodMs : Nat
  leftNs : Nat
  /-- BOOT_WDOG_CFG has been written since the firmware started -/
  cfgDone : Bool
  deriving DecidableEq, Repr

/-- The register bus: open to paths but the boot ROM (R107); the W1 fields written since the full reset, by key (R73); the
latched high words of 64-bit counters, keyed by path and address (R80); the HU fields that hardware has updated in this CTL cycle, by
key (R60, R61). -/
structure Bus where
  isOpen : Bool
  w1 : List Nat
  latch : List (Nat × Nat)
  hw : List Nat
  deriving DecidableEq, Repr

/-- The configuration walker (R82 to R85). `snap`: SNAP was written; `snapOk`: the present pass began after it. -/
structure Cck where
  running : Bool
  stop : Bool
  dirty : Bool
  snapOk : Bool
  misses : Nat
  deriving DecidableEq, Repr

/-- The three stored copies of an authority item, and the value users saw when two of them last agreed (R307, R308). -/
structure Tri where
  c0 : Nat
  c1 : Nat
  c2 : Nat
  last : Nat
  deriving DecidableEq, Repr

/-- The Cairn voter: lamp enable, epoch counter, the term of each ring port, and whether the lead-vote inputs were unanimous
at the last clock (R307, R312). -/
structure Cairn where
  lamp : Tri
  epoch : Tri
  terms : List (Nat × Tri)
  unanimous : Bool
  deriving DecidableEq, Repr

/-- A beacon as a node took it (R301, R41): its epoch number, its period and announcement, the boundary error it gives in
2^-16 ns, and its direction; `late`: it announces a boundary that has passed at this node, by its own count; `past`: by the beacon's own estimate
(R41), which needs no boundary of the node's own, the boundary it announces came before the beacon. -/
structure BeaconRec where
  epoch : Nat
  period : Nat
  next : Nat
  nextAt : Nat
  error : Int
  dir : Nat
  late : Bool
  past : Bool
  deriving DecidableEq, Repr

/-- The epoch timebase beside its registers (R36 to R47, R440). -/
structure Epc where
  /-- a beacon has been taken since the timebase began to run -/
  first : Bool
  /-- consecutive epochs with |error| of at most 5 ns -/
  good : Nat
  /-- the beacon of the direction not chosen that has arrived for the coming boundary (R42) -/
  other : Option BeaconRec
  /-- the last hop count seen in each direction -/
  hopsA : Option Nat
  hopsD : Option Nat
  /-- a beacon has been used for the coming boundary -/
  used : Bool
  /-- number and period taken from a beacon for the next boundary (R47) -/
  nextNumber : Option Nat
  nextPeriod : Option Nat
  /-- consecutive boundaries without a beacon -/
  misses : Nat
  /-- the phase step waiting for the latch instant, in 2^-16 ns (R47) -/
  step : Option Int
  /-- the epoch number of the beacon last relayed or sent -/
  relayed : Option Nat
  /-- the frame master has yielded to another (R47) -/
  yielded : Bool
  /-- the epoch from which the last announced period has applied (R37, R47) -/
  applied : Option Nat
  /-- a Spur beacon has been taken since the timebase began to run: a head that masters a ring then follows the Spur beacons (R45, R47) -/
  spur : Bool
  deriving DecidableEq, Repr

/-- A cell waiting in an output queue; `stomp`: its trailer goes out inverted (R289). -/
structure QCell where
  cell : Cell
  stomp : Bool
  deriving DecidableEq, Repr

/-- The codeword stream that a port sends (R276, R277): bits that wait for a message, the earliest lowest, and their number; cells and
data codewords since the last marker; the last precoded index of each port lane (R275). -/
structure LineTx where
  bits : Nat
  n : Nat
  cells : Nat
  cw : Nat
  prev : List Nat
  deriving DecidableEq, Repr

/-- A Ridge port: a ring end of a head, a port of a tile, or a Spur port. -/
structure Port where
  q0 : List QCell
  q1 : List QCell
  q2 : List QCell
  q3 : List QCell
  /-- cell times gone in the window of 64, and best-effort cells sent in it (R291) -/
  win : Nat
  beSent : Nat
  /-- owed cells moved into this window by beacons of the last, and out of it (R291) -/
  carryIn : Nat
  carryOut : Nat
  /-- pixel-free cell times left by pacing in this window (R292) -/
  paced : Nat
  /-- the share taken at the window's start, per mille (R70) -/
  share : Nat
  /-- a SHARE_REQ condition holds (R292) -/
  sharing : Bool
  /-- consecutive failed bring-up attempts (R282) -/
  fails : Nat
  /-- the lane indexes reported in stage 4, by lane number -/
  passed : List (Nat × Nat)
  /-- a NEIGH has been accepted in this bring-up; the port has been UP, and has gone DOWN, since the full reset -/
  neighOk : Bool
  upOnce : Bool
  wasDown : Bool
  /-- the delay measurement: running, requests sent, results in 2^-16 ns (R300) -/
  measuring : Bool
  dlySent : Nat
  dlyRes : List Nat
  /-- a finished measurement, which becomes LDLY at the next epoch boundary -/
  dlyNext : Option Nat
  /-- the port field of the last NEIGH accepted -/
  neighPort : Nat
  /-- PRBS31 of the generator and of the checker, and whether the checker is in step (R305) -/
  prbsTx : Nat
  prbsRx : Nat
  prbsOn : Bool
  testSent : Nat
  /-- a tile's east port: its neighbour gave the tile the position it holds (R298) -/
  gavePos : Bool
  /-- the lanes whose far end has shown ready, and those that send the codeword stream (R280) -/
  farReady : List Nat
  coded : List Nat
  /-- the lanes return from SLEEP by stages 6 to 8 (R302) -/
  waking : Bool
  /-- the cell at hand is one that the CELL loopback turns back (R304) -/
  turned : Bool
  line : LineTx
  deriving DecidableEq, Repr

/-- A key of the duplicate window (R295, R296); `used` is its last-use stamp. -/
structure KeyEnt where
  cls : Nat
  id : Nat
  h : Nat
  map : Nat
  used : Nat
  deriving DecidableEq, Repr

/-- The key table and the sequence counters (R294 to R296). A counter that is not listed stands at 0 and sends SYNC. -/
structure Seqs where
  keys : List KeyEnt
  stamp : Nat
  /-- next pixel sequence number, by stream x 16 + ring -/
  pix : List (Nat × Nat)
  /-- next control sequence number, by originating node -/
  ctl : List (Nat × Nat)
  deriving DecidableEq, Repr

/-- What a source sends on a ring in an epoch (R120, R131, R132): a full frame of `cells` cells, `next` the next index, or
a REPEAT locator; `frame` is its FRAME number. -/
structure RingSend where
  active : Bool
  repeatOnly : Bool
  /-- the locator of the segment that `next` begins has been sent -/
  locDone : Bool
  cells : Nat
  /-- the cells that are sent of it: fewer than `cells` where the source stops (R69) -/
  upto : Nat
  next : Nat
  frame : Nat
  /-- its deadline has stopped it (R132) -/
  late : Bool := false
  deriving DecidableEq, Repr

/-- A source conditioner beside its registers (R116 to R132). -/
structure Src where
  /-- the buffer in role FILL -/
  fill : Nat
  /-- the frame number and size of the frame a buffer holds are those of the registers; the epochs since the last full send
  on each ring (R120) -/
  since : List (Nat × Nat)
  sends : List (Nat × RingSend)
  /-- a DMA frame has an error (R116) -/
  bad : Bool
  /-- the SEND buffer was taken at the last boundary; cells produced in this epoch, and whether a REPEAT was (SRCn_CELLS) -/
  fresh : Bool
  made : Nat
  madeRep : Bool
  /-- the custom kernel's coefficients, 2,048 bytes, and whether they are being loaded (R124) -/
  kernel : List Byte
  loading : Bool
  /-- the cells produced in this epoch, by index (R130) -/
  built : List (Nat × List Byte)
  deriving DecidableEq, Repr

/-- A stream this head relays (R347): what its last FRAME locator said, and its sends. -/
structure Relay where
  cells : Option Nat
  sends : List (Nat × RingSend)
  deriving DecidableEq, Repr

/-- An ST 2110 stream's reassembly (R117, R118, R358): the expected sequence number, whether a packet is missing, the
measured width and height, a bit per unit received by row, and the line buffer: the units of the lines that are not whole, each at 65,536 times its row and its
place in the row. -/
structure St2110 where
  expect : Option Nat
  missing : Nat
  width : Nat
  height : Nat
  rows : List (Nat × Nat)
  held : List (Nat × Nat)
  deriving DecidableEq, Repr

/-- The ingest side of the head (R111 to R132, R347). `rr`: the source or relayed stream that sent last on each ring. -/
structure Ingest where
  srcs : List (Nat × Src)
  relays : List (Nat × Relay)
  sts : List (Nat × St2110)
  rr : List (Nat × Nat)
  /-- the beacon path delay from end A to end B of each ring, in 2^-16 ns (R293) -/
  paths : List (Nat × Nat)
  /-- the correction with which the last beacon left end A of each ring, in 2^-16 ns (R293) -/
  departs : List (Nat × Int)
  /-- what is left of each ring's budget in this epoch (R131, R347) -/
  left : List (Nat × Nat)
  deriving DecidableEq, Repr

/-- A remote read of the host at the lead head (R78, R338, R340): its tag, its target, the parts still to answer, the dwords
that have come by dword index, and whether a part failed. -/
structure Remote where
  tag : Nat
  node : Nat
  addr : Nat
  count : Nat
  parts : Nat
  got : List (Nat × Nat)
  failed : Bool
  deriving DecidableEq, Repr

/-- A register request that this head has put on a ring for another head (R75, R338): tag, tile, originator, address, count, and whether it
is a write. -/
structure Relayed where
  tag : Nat
  tile : Nat
  origin : Nat
  addr : Nat
  count : Nat
  write : Bool
  deriving DecidableEq, Repr

/-- A descriptor in progress (R114, R115): its place in the ring, its content once it has been fetched, the bytes asked for, those that have come
with their offsets, and whether a read of it failed. -/
structure DmaJob where
  idx : Nat
  desc : Option Descriptor
  asked : Nat
  got : List (Nat × List Byte)
  err : Bool
  /-- its SOF has been taken (R116) -/
  opened : Bool
  deriving DecidableEq, Repr

/-- A read of host memory that is outstanding (R115, R336): its tag, channel and descriptor, whether it fetches the descriptor itself, the offset in
the copy, and the length. -/
structure DmaRead where
  tag : Nat
  ch : Nat
  idx : Nat
  fetch : Bool
  off : Nat
  len : Nat
  deriving DecidableEq, Repr

/-- A HOST_RD or HOST_WR of another head that waits for PF1's return to D0 (R337, R346), with what host memory holds and how the read ends. -/
structure Stalled where
  cell : Cell
  data : List Byte
  ended : ReadEnd
  write : Bool
  deriving DecidableEq, Repr

/-- The host interface beside its registers (R334 to R346). -/
structure HostIf where
  remotes : List Remote
  /-- register requests this head has put on a ring for another head (R338) -/
  relayed : List Relayed
  /-- reads beyond the 32 outstanding, oldest first (R78) -/
  waiting : List Remote
  nextTag : Nat
  /-- queues whose holdoff runs (R343) -/
  holdoff : List Nat
  /-- functions in D3hot (R337) -/
  d3 : List Nat
  /-- event records that wait for D0 (R337) -/
  held : List (Nat × List Byte)
  /-- HOST_CPL parts that have come for reads that are not complete: tag, offset, error, data (R346) -/
  cpls : List (Nat × Nat × Bool × List Byte)
  /-- doorbell values as last written, by function x 65536 + offset (R334) -/
  bells : List (Nat × Nat)
  /-- queues with a record whose vector the holdoff has put off (R343) -/
  owed : List Nat
  /-- configuration fields as last written, by function x 64 + field (R332, R333) -/
  cfg : List (Nat × Nat)
  /-- the MSI-X tables, by function x 1024 + offset, and the pending vectors, as function x 64 + vector (R334) -/
  msixTab : List (Nat × Nat)
  pba : List Nat
  /-- the descriptors posted to this head's channels as host memory holds them, by channel x 65536 + place in the ring (R114, R115) -/
  posted : List (Nat × Descriptor)
  /-- the descriptors in progress of each channel, oldest first; the reads outstanding; the channel whose turn was last; the next tag (R115) -/
  jobs : List (Nat × List DmaJob)
  reads : List DmaRead
  turn : Nat
  nextRead : Nat
  /-- accesses of other heads to host memory that wait while PF1 is in D3hot, oldest first (R337) -/
  stalled : List Stalled
  deriving DecidableEq, Repr

/-- A ring's authority on a head, or the tile's own (R314 to R325). Roles as CRN_HEAD.ROLE. -/
structure RingAuth where
  role : Nat
  /-- the highest-ranked pair accepted: term and head -/
  pair : Option (Nat × Nat)
  /-- consecutive epochs without a beacon of the peer's term, and whether one arrived in this epoch -/
  missed : Nat
  heard : Bool
  deriving DecidableEq, Repr

/-- Fold capture, shipping and reception (R322 to R324, R326). -/
structure Fold where
  /-- restarts of the running capture in a row; NACKs and silences of the running shipment -/
  restarts : Nat
  retries : Nat
  /-- the slot of the last acknowledged Fold, and the epoch of capture of the valid one -/
  ackSlot : Option Nat
  capEpoch : Nat
  /-- the Fold being shipped -/
  image : List Byte
  /-- the Fold being received: its SEQ, its sender, and its fragments by offset -/
  rxSeq : Nat
  rxFrom : Nat
  rx : List (Nat × List Byte)
  /-- the takeover check is running or past (R326) -/
  checking : Bool
  taking : Bool
  /-- software has written a RW or HU field of PAGES in this capture (R323) -/
  dirty : Bool
  deriving DecidableEq, Repr

/-- Authority on the rings (R312 to R327). `aliases`: old head to new head, the oldest first; `beaconDue`: a takeover has told its new term and has sent no beacon yet (R326); `listenTerm`: the term record as it stood when
listening began (R315). -/
structure Auth where
  rings : List (Nat × RingAuth)
  aliases : List (Nat × Nat)
  fold : Fold
  listenTerm : Nat
  beaconDue : Bool
  deriving DecidableEq, Repr

/-- An entry of the Ethernet destination table (R350). -/
structure DtEntry where
  mac : Nat
  vid : Nat
  anyvid : Bool
  valid : Bool
  dir : Nat
  port : Nat
  node : Nat
  deriving DecidableEq, Repr

/-- A frame in reassembly (R351). -/
structure Reasm where
  src : Nat
  frameId : Nat
  next : Nat
  /-- a fragment is missing: the rest is dropped -/
  bad : Bool
  /-- the port its fragments come by, and the side port it is for -/
  via : Nat
  port : Nat
  bytes : List Byte
  deriving DecidableEq, Repr

/-- The side ports beside their registers (R348 to R358). -/
structure Eth where
  table : List (Nat × DtEntry)
  reasm : List Reasm
  frameId : Nat
  /-- best-effort cells of each side port that wait for room in a ring port's queue: side port, ring port, cell -/
  ingress : List (Nat × Nat × Cell)
  /-- frames that wait for the egress link -/
  egress : List (Nat × List Byte)
  /-- consecutive good Sync messages (R356) -/
  syncs : Nat
  /-- the PTP clock (R355), in 2^-32 ns: its value at the time `ptpAt` in ns of the device, and its rate in parts per 10^9 -/
  ptpBase : Nat
  ptpAt : Nat
  ptpRate : Int
  /-- the timestamps of the last PTP event message at each side port, in ns, as received and as sent (R355) -/
  rxStamps : List (Nat × Nat)
  txStamps : List (Nat × Nat)
  deriving DecidableEq, Repr

/-- The clock tree beside its registers: a clock switch in progress and its target (0 RC, 1 ROOT; R93). -/
structure Clk where
  switching : Option Nat
  deriving DecidableEq, Repr

end Sys2Proof.Machine
end

