-- ==== Sys2Proof/Machine/Parts2.lean ====
section
/-! DEFINITION. The parts of the state of the tile's picture path and of the device's own engines that are no register: layers and
capture, the Press, darning, scan-out, lamp drive, the loop engine and choppers, Traverse, the DRAM channels, the sensors,
calibration, and the power controller. Halves are numbered 0 west, 1 east. -/

namespace Sys2Proof.Machine

/-- A rectangle of a half window: columns `x0` to `x1 - 1`, rows `y0` to `y1 - 1`. -/
structure Rect where
  x0 : Nat
  y0 : Nat
  x1 : Nat
  y1 : Nat
  deriving DecidableEq, Repr

/-- What a layer holds of its stream for an epoch (R140 to R143). -/
inductive CapKind where
  | frame | again | reject
  deriving DecidableEq, Repr

/-- A capture of a layer: the epoch and frame of the locator, the epoch its coming latch instant ends while the counter takes no new
number, the exact window and the offset it
will give the layer (R140), the capture rectangle in units `u0` to `u1 - 1` and source rows `y0` to `y1 - 1`, units to a source
line, the pixel cells it needs and has, a bit per index (R142), and whether a write of it was lost (R375). -/
structure Capture where
  kind : CapKind
  epoch : Nat
  began : Nat
  stream : Nat
  frame : Nat
  u : Nat
  v : Nat
  w : Nat
  h : Nat
  ofsX : Nat
  u0 : Nat
  u1 : Nat
  y0 : Nat
  y1 : Nat
  upl : Nat
  need : Nat
  got : Nat
  lost : Bool
  deriving DecidableEq, Repr

/-- A layer beside its registers: BASE and MEM in force, the RUN it showed before a commit write changed it (R149), a start that
waits for the latch instant (R137), whether GEN changed at the last latch instant, and its capture. -/
structure Layer where
  base : Nat
  mem : Bool
  before : Option Nat
  restart : Bool
  genChanged : Bool
  /-- the stream of the last frame committed (R321) -/
  doneStream : Option (Nat × Nat)
  cap : Option Capture
  deriving DecidableEq, Repr

/-- The last locator of a stream: the index and the sequence number of the next pixel cell, the pixel cells of the frame (R129), and its
epoch. -/
structure StreamLoc where
  index : Nat
  sq : Nat
  cells : Nat
  epoch : Nat
  deriving DecidableEq, Repr

/-- The layers of the tile, by half x 16 + layer; the locators by stream; the epoch of the last latch instant (R143); `retired`: the half and the
layer, or 16 for the darn table, of each RETIRED_EPOCH that this epoch's latch instant has recorded (R150, R186). -/
structure Layers where
  layers : List (Nat × Layer)
  locs : List (Nat × StreamLoc)
  lastLatch : Option Nat
  /-- the latch instant of this epoch has passed (R192) -/
  latched : Bool
  retired : List (Nat × Nat)
  deriving DecidableEq, Repr

/-- A step as issued: layer, resolved mode, clip, balpha, and the sequencer clock of its issue (R156). -/
structure PStep where
  layer : Nat
  mode : Nat
  clip : Rect
  balpha : Nat
  issue : Nat
  deriving DecidableEq, Repr

/-- What waits in the queue of the blend datapath: a step, or an eligible flatten group (R155, R161). -/
inductive PItem where
  | step (x : PStep)
  | group (slot : Nat) (steps : List PStep) (area : Rect) (bottom : Bool) (issue : Nat)
  deriving DecidableEq, Repr

/-- An open FLAT group: its slot, its size, its steps so far, whether it is the bottom group, and the clock of its FLAT. -/
structure PGroup where
  slot : Nat
  n : Nat
  steps : List PStep
  bottom : Bool
  issue : Nat
  deriving DecidableEq, Repr

/-- The record of the group that last filled a cache slot (R163): per step layer, mode, clip, balpha and GEN; the background of
a bottom group. -/
structure PRec where
  bottom : Bool
  bg : Nat
  steps : List (Nat × Nat × Rect × Nat × Nat)
  deriving DecidableEq, Repr

/-- What a waiting sequencer waits for (R156, R158). -/
inductive PWait where
  | sync
  | layer (k : Nat)
  deriving DecidableEq, Repr

/-- A Press engine in an epoch (R154 to R165). -/
structure Press where
  /-- it runs this epoch's composition -/
  active : Bool
  /-- the sequencer runs; the list has been abandoned; the list has ended and the datapath is empty -/
  seqOn : Bool
  failed : Bool
  complete : Bool
  pc : Nat
  count : Nat
  mode : Nat
  balpha : Nat
  clip : Rect
  flag : Bool
  /-- an ORDER in progress: the layers still to issue, in order -/
  order : List Nat
  group : Option PGroup
  queue : List PItem
  /-- steps issued in this epoch -/
  issued : Nat
  /-- the sequencer's clock, and the clock at which the datapath is free, from the epoch boundary -/
  t : Nat
  dp : Nat
  /-- the background has been filled or skipped (R153) -/
  bgDone : Bool
  /-- start clocks of the last steps executed, the newest first -/
  starts : List Nat
  /-- by layer, the clock at which the last step that reads it finished -/
  fin : List (Nat × Nat)
  wait : Option PWait
  recs : List (Nat × PRec)
  deriving DecidableEq, Repr

/-- A darning unit (R168 to R188): a run in progress, the run of this epoch completed, the scan buffer in front, and the mend list
in force is `Space.mend`. -/
structure Darn where
  running : Bool
  complete : Bool
  front : Nat
  /-- the dwords that the aperture wrote while LOAD runs, and the image offsets of bursts of it with an error response (R187, R375) -/
  written : List Nat
  lost : List Nat
  /-- the CRC that a verified Ryupel image carries for the bank image to be loaded (R189) -/
  expect : Option Nat
  deriving DecidableEq, Repr

/-- A DRAM row that scan-out has fetched for a row slot: the slot, the row's address, its bytes as they stood, and whether a burst of it
had an error response (R207, R375). -/
structure RowFetch where
  slot : Nat
  at_ : Nat
  bytes : List Byte
  bad : Bool
  deriving DecidableEq, Repr

/-- Scan-out of a half (R191 to R211): the frame in force (N, S, S', slot length in ns as numerator over S', PULSE_MAX, ROT), its
checks passed, the index of the next row slot and whether its DRAM row is late, the gap, the phase accumulator in units of 10^-9
of its least bit, the CORE clocks of the frame so far, and the edge of the current slot in 62.5 ps ticks; the slot that the accumulator
has reached, the rows fetched, and whether the sums of slot 0 of the coming frame are published, and as those of a blanked slot (R205). -/
structure ScanHalf where
  ok : Bool
  rows : Nat
  subf : Nat
  eff : Nat
  slotNs : Nat
  pulseMax : Nat
  rot : Nat
  next : Nat
  late : Bool
  gap : Bool
  acc : Nat
  clk : Nat
  edge : Nat
  accAt : Option Nat
  fetch : List RowFetch
  first : Option Bool
  deriving DecidableEq, Repr

/-- A lamp's diagnosis (R225, R226): its state, its last measurement, and the frame of it. -/
structure LampRec where
  st : Nat
  last : Option Nat
  seen : Nat
  /-- two open measurements in a frame in which its row may turn out stuck (R232) -/
  pend : Bool
  deriving DecidableEq, Repr

/-- A row's diagnosis (R232): the gate mismatch and the open-row condition of this frame and of the last, and whether each has
set the row's bit. -/
structure RowRec where
  gateNow : Bool
  gateWas : Bool
  gateOn : Bool
  openNow : Bool
  openWas : Bool
  openOn : Bool
  deriving DecidableEq, Repr

/-- A conducting sink of the current row slot: the sink of the half, its amplitude code, its pulse width and turn-on delay in
62.5 ps ticks, and its current over 24 mA x `curDen` (R200, R215, R216, R218). -/
structure Pulse where
  sink : Nat
  code : Nat
  width : Nat
  delay : Nat
  cur : Nat
  deriving DecidableEq, Repr

/-- Lamp drive of a half (R214 to R233). -/
structure LampHalf where
  lamps : List (Nat × LampRec)
  /-- the number of the frame, from 1, over the frames in which diagnosis runs -/
  frame : Nat
  /-- by sink, the frame and the row of its last probe -/
  probes : List (Nat × Nat × Nat)
  /-- by lower sink, whether the pair is shorted, and its last result -/
  pairs : List (Nat × Bool × Option Bool)
  rows : List (Nat × RowRec)
  /-- the epoch before had a frame (R232) -/
  framed : Bool
  /-- the last leak test found a conducting row; tests without one since LEAK was set (R232) -/
  leakWas : Bool
  leakClean : Nat
  /-- consecutive failed row-slot loads of the half's two dies (R233) -/
  fail0 : Nat
  fail1 : Nat
  /-- the over-temperature condition as reported, and the blanking that follows it at a row slot (R223) -/
  hotReq : Bool
  hot : Bool
  /-- the samples of the current slot (R215) -/
  refR : Nat
  refG : Nat
  refB : Nat
  scale : Nat
  derate : Nat
  /-- the row that conducts, and the pulses of the slot -/
  row : Option Nat
  pulses : List Pulse
  /-- the slot in progress: an underrun (R207), its dies with a failed load (R233), and the pin voltages to be judged at its end (R225) -/
  dark : Bool
  dead : List Nat
  obs : Option (List (Nat × Nat))
  /-- the results of the probes in the slot in progress (R228, R232) -/
  probed : List Nat
  /-- the rails with a sink that conducted for 48 ns in the last slot that ended (R217) -/
  lastRails : List Nat
  /-- the group of pairs tested in this gap, and the next pair of each die (R230); the leak test of this gap is done (R232) -/
  pairGrp : Nat
  pair0 : Nat
  pair1 : Nat
  leakDone : Bool
  deriving DecidableEq, Repr

/-- A run of a loop slot (R236, R243): the slot, the program address, the targets and slew latched, a hand-over sample, the
saturation mark. -/
structure LoopRun where
  slot : Nat
  pc : Nat
  tgt : List Int
  slew : Nat
  handover : Bool
  mark : Bool
  deriving DecidableEq, Repr

/-- The chopper of a rail (R256 to R258): phase 0 both gates low, 1 on-phase, 2 off-phase; the set-point when the cycle began,
whether SP moved by more than BAND during it, whether an overcurrent or the cycle limit ended it, and whether a limit shaped it. -/
structure Chop where
  phase : Nat
  sp0 : Int
  moved : Bool
  cut : Bool
  shaped : Bool
  ov : Bool
  deriving DecidableEq, Repr

/-- The loop engine (R235 to R254): lanes by slot x 64 + register x 4 + lane, slots that wait for their run, the run, the slots
that have not run since their registers were cleared, the headroom values, the rails in HANDOVER, the choppers; `c`: the CTL counter, and by slot
what it read when the slot last became due for a run, `dueAt`, and when a sample was last skipped, `skipAt` (R243, R244). -/
structure Loop where
  c : Nat
  dueAt : List (Nat × Nat)
  skipAt : List (Nat × Nat)
  regs : List (Nat × Int)
  due : List Nat
  run : Option LoopRun
  fresh : List Nat
  headroom : List (Nat × Nat)
  handover : List Nat
  chops : List (Nat × Chop)
  deriving DecidableEq, Repr

/-- A Traverse generator (R261, R265): accumulator, velocity, the position at the start of an overshoot episode. -/
structure TrvGen where
  acc : Nat
  v : Int
  from_ : Option Nat
  deriving DecidableEq, Repr

/-- A request in a channel queue (R364), its arrival in ns (R365), and its place in the order of arrivals. -/
structure DQueued where
  req : DramReq
  at_ : Nat
  ord : Nat
  /-- a burst of the operation that the training helper runs (R377) -/
  helper : Bool
  deriving DecidableEq, Repr

/-- An entry of the activation table (R370). -/
structure ActEnt where
  bank : Nat
  row : Nat
  requester : Nat
  count : Nat
  deriving DecidableEq, Repr

/-- A training helper's operation as its GO started it (R377): OP, TRN_MR as address x 256 + data, the scratch address, BURSTS and PATTERN;
`bad`: a burst of it had an error response. -/
structure HelperOp where
  op : Nat
  mr : Nat
  base : Nat
  bursts : Nat
  pattern : Nat
  bad : Bool
  deriving DecidableEq, Repr

/-- A DRAM channel (R364 to R379): the bursts that wait at their requesters for room, its queues, the burst whose read is outstanding and whether it was reissued, the open rows, the
activation table, the throttled requesters with the times of their last activations, the times of its uncorrectable errors in ns, the refreshes issued back to back, owed
refreshes at top priority, a return to 1x that waits for tREFI, whether a set has been committed, a COMMIT that waits, the operation
that runs, the rolling activation counts by bank, the mode registers as last written or read, and the
number of requests that have arrived. -/
structure DramCh where
  held : List DramReq
  reads : List DQueued
  writes : List DQueued
  flight : Option DramReq
  again : Bool
  rows : List (Nat × Nat)
  acts : List ActEnt
  throttled : List (Nat × Nat)
  ues : List Nat
  burst : Nat
  top : Bool
  slow : Bool
  trained : Bool
  commitWaits : Bool
  op : Option HelperOp
  rolling : List (Nat × Nat)
  mrs : List (Nat × Nat)
  arrivals : Nat
  /-- the bursts of the helper's operation that are not yet in a queue (R377); when the last refresh began and ends, in ns, and whether it left another
  due at top priority (R366, R367) -/
  helper : List DramReq
  refFrom : Nat
  refTo : Nat
  chain : Bool
  deriving DecidableEq, Repr

/-- A temperature sensor (R385): conversion slots without a result, and good conversions in a row while in FAULT. -/
structure Sensor where
  missed : Nat
  good : Nat
  deriving DecidableEq, Repr

/-- Self-calibration (R388 to R395): the kinds and items of the run's slices, in order; the results held aside; the snapshot; whether the slice
window of this frame gap has begun (a slice or a move has taken place in it, R393), and whether a run ended in this frame gap (R392, R395). -/
structure Cal where
  slices : List (Nat × Nat)
  results : List (Nat × Int)
  snap : List (Nat × Nat)
  halves : List Nat
  rails : List Nat
  opened : Bool
  ended : Bool
  deriving DecidableEq, Repr

/-- A transaction of the management port (R360): its address, COUNT, a write's data and PEC, and the bytes that the host clocks in a read. -/
structure MgtOp where
  write : Bool
  addr : Nat
  count : Nat
  data : List Byte
  pec : Option Byte
  clocked : Nat
  deriving DecidableEq, Repr

/-- The power controller and the always-on island (R404 to R413). -/
structure Power where
  /-- the target of the transition in progress -/
  target : Nat
  /-- a wake has been seen while the device moved into its state -/
  seen : Option (WakeSource × Nat)
  armed : Bool
  /-- failed attempts of the wake in progress, and the 1 ms gap after one -/
  tries : Nat
  gap : Bool
  /-- the wake has brought Kryty up; PHASE shows WAKING until the next CTL clock -/
  up : Bool
  /-- the time of the last refusal, in ns -/
  refusedAt : Option Nat
  /-- a state image has been written since power-on -/
  imaged : Bool
  /-- CLK_SEL.CUR and the lock bits as step 17 found them, for a rollback (R407) -/
  kept : List (Nat × Nat)
  /-- SDA and SCL are held for a master that addressed the port in Valley (R361) -/
  stretch : Bool
  /-- the transaction that waits for the device to be up (R361) -/
  mgt : Option MgtOp
  /-- the block of the step in progress has accepted and works on to its boundary (R405) -/
  winding : Bool
  deriving DecidableEq, Repr

/-- The tile's engines and the common ones beside their registers; lists run over the halves, rails, generators, channels and
sensors. -/
structure Engines where
  lay : Layers
  press : List (Nat × Press)
  darn : List (Nat × Darn)
  scan : List (Nat × ScanHalf)
  lamp : List (Nat × LampHalf)
  loop : Loop
  trv : List (Nat × TrvGen)
  dram : List (Nat × DramCh)
  sensors : List (Nat × Sensor)
  cal : Cal
  pwr : Power
  /-- enable checks that take time: page base to path × 4 + view of the write, for the count of a failure (R68) -/
  asks : List (Nat × Nat)
  deriving DecidableEq, Repr

def Layer.init : Layer := { base := 0, mem := false, before := none, restart := false, genChanged := false, doneStream := none, cap := none }

def Press.idle : Press :=
  { active := false, seqOn := false, failed := false, complete := false, pc := 0, count := 0, mode := 0, balpha := 1023,
    clip := ⟨0, 0, 0, 0⟩, flag := false, order := [], group := none, queue := [], issued := 0, t := 0, dp := 0, bgDone := false,
    starts := [], fin := [], wait := none, recs := [] }

def Darn.init : Darn := { running := false, complete := false, front := 0, written := [], lost := [], expect := none }

def ScanHalf.init : ScanHalf :=
  { ok := false, rows := 1, subf := 1, eff := 0, slotNs := 1500, pulseMax := 1400, rot := 0, next := 0,
    late := false, gap := false, acc := 0, clk := 0, edge := 0, accAt := none, fetch := [], first := none }

def LampRec.init : LampRec := { st := 0, last := none, seen := 0, pend := false }

def RowRec.init : RowRec := { gateNow := false, gateWas := false, gateOn := false, openNow := false, openWas := false, openOn := false }

def LampHalf.init : LampHalf :=
  { lamps := [], frame := 1, probes := [], pairs := [], rows := [], framed := false, leakWas := false, leakClean := 0, fail0 := 0, fail1 := 0,
    hotReq := false, hot := false,
    refR := 0, refG := 0, refB := 0, scale := 65535, derate := 1024, row := none, pulses := [], dark := false, dead := [], obs := none, probed := [],
    lastRails := [], pairGrp := 15, pair0 := 0, pair1 := 0, leakDone := false }

def Chop.init : Chop := { phase := 0, sp0 := 0, moved := false, cut := false, shaped := false, ov := false }

def Loop.init : Loop := { c := 0, dueAt := [], skipAt := [], regs := [], due := [], run := none, fresh := [], headroom := [], handover := [], chops := [] }

/-- At reset P reads 0xFFFF (TRV_Gg_POS); the fraction is 0. -/
def TrvGen.init : TrvGen := { acc := 281470681743360, v := 0, from_ := none }

def DramCh.init : DramCh :=
  { held := [], reads := [], writes := [], flight := none, again := false, rows := [], acts := [], throttled := [], ues := [], burst := 0,
    top := false, slow := false, trained := false, commitWaits := false, op := none, rolling := [], mrs := [], arrivals := 0,
    helper := [], refFrom := 0, refTo := 0, chain := false }

def Sensor.init : Sensor := { missed := 0, good := 0 }

def Cal.init : Cal := { slices := [], results := [], snap := [], halves := [], rails := [], opened := false, ended := false }

def Power.init : Power :=
  { target := 0, seen := none, armed := false, tries := 0, gap := false, up := false, refusedAt := none, imaged := false, kept := [], stretch := false, mgt := none, winding := false }

/-- The engines after a full reset. -/
def Engines.init : Engines :=
  { lay := { layers := [], locs := [], lastLatch := none, latched := false, retired := [] }, press := [], darn := [], scan := [], lamp := [], loop := Loop.init,
    trv := [], dram := [], sensors := [], cal := Cal.init, pwr := Power.init, asks := [] }

end Sys2Proof.Machine
end

