-- ==== Sys2Proof/Machine/State.lean ====
section
/-! DEFINITION. The state of a CT4 (the block), as plain data, and its state after reset.

Register fields stand in one store, keyed by `Fld.key`; a field that is not in the store holds its reset value (R17).
Every RAM of the device stands in one memory of bytes, keyed by space and offset (`Space.key`). State that is no register and
no RAM stands in the structures below, one per chapter. -/

namespace Sys2Proof.Machine

/-- Why a command faults. The CT4 has no fault that stops it: every exception the spec describes is a state. -/
inductive Fault where
  /-- Kept for form: no meaning raises it. Safe. -/
  | none
  deriving DecidableEq, Repr

/-- Why a command is refused. -/
inductive Refusal where
  /-- A command whose meaning is not written yet; raised by its arm of `exec` only. Safe. -/
  | notModelled (mnemonic : String)
  deriving DecidableEq, Repr

/-- The state of a CT4. -/
structure State where
  build : Build
  regs : List (Nat × Nat)
  mem : List Host.Cell
  bus : Bus
  pins : Pins
  clk : Clk
  boot : Boot
  wdog : Wdog
  cck : Cck
  cairn : Cairn
  epc : Epc
  ports : List (Nat × Port)
  seqs : Seqs
  ingest : Ingest
  host : HostIf
  auth : Auth
  eth : Eth
  eng : Engines
  out : List Out
  freeCtr : Nat
  nowNs : Nat
  pending : List Instr
  deriving DecidableEq, Repr

/-- A boot record with a correct CRC and no integrator key, as Neldor ships devices (R108): DEBUG_LOCK 0. -/
def BootRecord.shipped : BootRecord := { seq := 0, digests := [0, 0, 0], debugLock := false, minVersion := 0, ok := true }

/-- The pads at reset: a reference on REFCLK, RESET_N high, supplies up, the straps of an ordinary device (log entry 2). -/
def Pins.atReset : Pins :=
  { refclkOk := true, xtalOk := false, resetLow := false, perstLow := false, strapRole := false, strapHalf := false,
    strapAddr := 8, gpioIn := 0, railEn := true, railPg := true, wakeHigh := true, clkreqLow := false, detect := 0 }

def Boot.atReset : Boot :=
  { phase := .detect, pllTries := 0, due := none, memClear := false, chosen := none, recA := BootRecord.shipped,
    recB := BootRecord.shipped, loadFirst := true, halted := false, writing := none, roseNs := 0, porDue := false }

def Epc.atReset : Epc :=
  { first := false, good := 0, other := none, hopsA := none, hopsD := none, used := false, nextNumber := none,
    nextPeriod := none, misses := 0, step := none, relayed := none, yielded := false, applied := none, spur := false }

def Fold.atReset : Fold :=
  { restarts := 0, retries := 0, ackSlot := none, capEpoch := 0, image := [], rxSeq := 0, rxFrom := 0, rx := [],
    checking := false, taking := false, dirty := false }

/-- The register fields that reset to the straps (R100, R312): BOOT_STRAPS, the management address, and on a tile the claims
and LEAD_HALF; a head strapped as a cold standby shows STANDBY (R100, R325). -/
def strapRegs (b : Build) (p : Pins) : List (Nat × Nat) :=
  let h := if p.strapHalf then 1 else 0
  let claim := match b with | .tile => h | .head => 0
  let role := match b with | .tile => 6 | .head => if p.strapRole then 1 else 5
  [(R.BOOT_STRAPS_ADDR.key, p.strapAddr % 128), (R.BOOT_STRAPS_HALF.key, h), (R.BOOT_STRAPS_ROLE.key, if p.strapRole then 1 else 0),
   (R.CRN_CTRL_LEAD_HALF.key, claim), (R.CRN_CTRL_CLAIM_W.key, claim), (R.CRN_CTRL_CLAIM_E.key, claim), (R.CRN_HEAD_ROLE.key, role),
   (R.MGT_STATE_ADDR.key, p.strapAddr % 128)]

/-- A device of a build right after power-on, with the pads `p`: every register at its reset value (R17), every RAM clear
(R439), the boot ROM about to detect the reference (R103). -/
def State.fresh (b : Build) (p : Pins) : State :=
  { build := b
    regs := strapRegs b p
    mem := []
    bus := { isOpen := false, w1 := [], latch := [], hw := [] }
    pins := p
    clk := { switching := none }
    boot := Boot.atReset
    wdog := { running := false, periodMs := 500, leftNs := 0, cfgDone := false }
    cck := { running := false, stop := false, dirty := false, snapOk := false, misses := 0 }
    cairn := { lamp := { c0 := 0, c1 := 0, c2 := 0, last := 0 }, epoch := { c0 := 0, c1 := 0, c2 := 0, last := 0 }, terms := [],
               unanimous := true }
    epc := Epc.atReset
    ports := []
    seqs := { keys := [], stamp := 0, pix := [], ctl := [] }
    ingest := { srcs := [], relays := [], sts := [], rr := [], paths := [], departs := [], left := [] }
    host := { remotes := [], relayed := [], waiting := [], nextTag := 0, holdoff := [], d3 := [], held := [], cpls := [], bells := [],
              owed := [], cfg := [], msixTab := [], pba := [], posted := [], jobs := [], reads := [], turn := 15, nextRead := 0, stalled := [] }
    auth := { rings := [], aliases := [], fold := Fold.atReset, listenTerm := 0, beaconDue := false }
    eth := { table := [], reasm := [], frameId := 0, ingress := [], egress := [], syncs := 0, ptpBase := 0, ptpAt := 0, ptpRate := 0, rxStamps := [], txStamps := [] }
    eng := Engines.init
    out := []
    freeCtr := 0
    nowNs := 0
    pending := [] }

/-- The machine right after reset: a tile build (log entry 1). -/
def State.reset : State := State.fresh .tile Pins.atReset

/-- The head build right after reset. -/
def State.resetHead : State := State.fresh .head Pins.atReset

end Sys2Proof.Machine
end

