-- ==== Sys2Proof/Machine/Ops.lean ====
section
/-! DEFINITION. The operations every meaning is written in: register fields, memory, outputs, free values, time, and the
bit-field and sign helpers they use. -/

namespace Sys2Proof.Machine

/-! ### Numbers -/

/-- Bits `lsb` to `lsb + width - 1` of `v`. -/
def bitsOf (v lsb width : Nat) : Nat := v / 2 ^ lsb % 2 ^ width

/-- Bit `i` of `v`. -/
def bitOf (v i : Nat) : Bool := v / 2 ^ i % 2 = 1

def b2n (b : Bool) : Nat := if b then 1 else 0

/-- `v` with bit `i` set to `b`. -/
def withBit (v i : Nat) (b : Bool) : Nat := if bitOf v i = b then v else if b then v + 2 ^ i else v - 2 ^ i

/-- A `w`-bit pattern as a two's-complement number (R15). -/
def sgn (w v : Nat) : Int := if v % 2 ^ w < 2 ^ (w - 1) then ((v % 2 ^ w : Nat) : Int) else ((v % 2 ^ w : Nat) : Int) - ((2 ^ w : Nat) : Int)

/-- A number as a `w`-bit two's-complement pattern, wrapping. -/
def wrap (w : Nat) (i : Int) : Nat := (i % ((2 ^ w : Nat) : Int)).toNat

/-- `i` brought into `lo` to `hi`. -/
def clampI (lo hi i : Int) : Int := max lo (min hi i)

/-- Saturation to `w` bits, signed. -/
def satI (w : Nat) (i : Int) : Int := clampI (-((2 ^ (w - 1) : Nat) : Int)) (((2 ^ (w - 1) : Nat) : Int) - 1) i

/-- Whether `a` is later than `b` in modular epoch order (R36). -/
def epochLater (a b : Nat) : Bool :=
  let d := (a + 4294967296 - b % 4294967296) % 4294967296
  decide (1 ≤ d ∧ d ≤ 2147483647)

def epochNext (e : Nat) : Nat := (e + 1) % 4294967296

/-! ### Free values, time, outputs -/

/-- A value the spec leaves open, and the state that has used it. -/
def State.freeVal (s : State) : Nat := Config.free s.freeCtr

def State.useFree (s : State) : State := { s with freeCtr := s.freeCtr + 1 }

/-- `n` free values are used up. -/
def State.useFrees (s : State) (n : Nat) : State := { s with freeCtr := s.freeCtr + n }

/-- Put something out; the newest stands first. -/
def State.emit (s : State) (o : Out) : State := { s with out := o :: s.out }

/-- Put several things out, in order. -/
def State.emits (s : State) (os : List Out) : State := { s with out := os.reverse ++ s.out }

/-- The tile build (R2). -/
def State.isTile (s : State) : Bool := match s.build with | .tile => true | .head => false

/-! ### PCIe configuration (R332, R333) -/

/-- The place of a field among the configuration fields of a function. -/
def cfgCode : CfgReg → Nat
  | .vendor => 0
  | .device => 1
  | .revision => 2
  | .classCode => 3
  | .power => 4
  | .maxPayload => 5
  | .maxRead => 6
  | .tag10 => 7
  | .extTag => 8
  | .relaxed => 9
  | .ltr => 10
  | .ctoRange => 11
  | .ctoOff => 12
  | .aer => 13
  | .tPowerOn => 14
  | .msixEnable => 15
  | .msixMask => 24
  | .bar n => 16 + n % 8

/-- T_POWER_ON of the L1 PM Substates capability is 200 us (R415). Reset values, where the spec gives none the family's (log entry 132): Max Payload 128 bytes and Max Read Request 512 as their codes, extended
tags and Relaxed Ordering enabled, the rest 0. -/
def cfgRst (fn : Nat) : CfgReg → Nat
  | .vendor => Config.vendorId
  | .device => 0x0C40 + fn
  | .revision => 0xA0
  | .classCode => 0x118000
  | .maxRead => 2
  | .tPowerOn => 200
  | .extTag => 1
  | .relaxed => 1
  | _ => 0

def State.cfgVal (s : State) (fn : Nat) (r : CfgReg) : Nat := Sparse.look s.host.cfg (fn * 64 + cfgCode r) (cfgRst fn r)

def State.setCfg (s : State) (fn : Nat) (r : CfgReg) (v : Nat) : State :=
  { s with host := { s.host with cfg := Sparse.put s.host.cfg (fn * 64 + cfgCode r) v } }

/-- A bit of the uncorrectable error status of a function (R332): 14 Completion Timeout, 15 Completer Abort. PRESUMED, log entry 132. -/
def State.aer (s : State) (fn bit : Nat) : State := s.setCfg fn .aer (withBit (s.cfgVal fn .aer) bit true)

/-! ### MSI-X (R334, R335) -/

/-- A dword of a function's MSI-X table, four to an entry: the low and high address, the data, and the control word, whose bit 0 masks the
vector. The reset value of the mask is the family's, log entry 132. -/
def State.msixDword (s : State) (fn off : Nat) : Nat := Sparse.look s.host.msixTab (fn * 1024 + off) (if off % 16 = 12 then 1 else 0)

/-- The Function Mask of a function keeps the vector of every entry pending, as the mask of an entry keeps its own. PRESUMED, log entry 132. -/
def State.masked (s : State) (fn v : Nat) : Bool := s.cfgVal fn .msixMask = 1 || s.msixDword fn (16 * v + 12) % 2 = 1

/-- A vector is raised: nothing while MSI-X is disabled, else signalled, or pending while it is masked. PRESUMED, log entry 132. -/
def State.vector (s : State) (fn v : Nat) : State :=
  if s.cfgVal fn .msixEnable = 0 then s
  else if s.masked fn v then
    (if s.host.pba.contains (fn * 64 + v) then s else { s with host := { s.host with pba := (fn * 64 + v) :: s.host.pba } })
  else s.emit (.msix fn v)

/-- A pending vector is signalled once MSI-X is enabled and nothing masks it. -/
def State.vectorPend (s : State) (fn v : Nat) : State :=
  if s.host.pba.contains (fn * 64 + v) && decide (s.cfgVal fn .msixEnable = 1) && !s.masked fn v then
    ({ s with host := { s.host with pba := s.host.pba.filter (fun p => p ≠ fn * 64 + v) } }).emit (.msix fn v)
  else s

/-- The pending bits of a function, 32 to a dword (R334). -/
def State.pbaDword (s : State) (fn i : Nat) : Nat :=
  (List.range 32).foldr (fun b n => b2n (s.host.pba.contains (fn * 64 + 32 * i + b)) * 2 ^ b + n) 0

/-- Write a dword of the MSI-X table; a pending vector whose mask it clears is signalled. -/
def State.msixWrite (s : State) (fn off v : Nat) : State :=
  ({ s with host := { s.host with msixTab := Sparse.put s.host.msixTab (fn * 1024 + off) (if off % 16 = 12 then v % 2 else v % 4294967296) } }).vectorPend
    fn (off / 16)

/-- Write the MSI-X Enable or the Function Mask bit of a function: the pending vectors that it lets through are signalled in their order. PRESUMED,
log entry 132. -/
def State.msixCfg (s : State) (fn : Nat) (r : CfgReg) (v : Nat) : State := (List.range 64).foldl (fun a n => a.vectorPend fn n) (s.setCfg fn r (v % 2))

/-! ### Register fields -/

/-- The stored value of a register field. -/
def State.rd (s : State) (f : Fld) : Nat := Sparse.look s.regs f.key (f.rst s.build)

/-- Set a register field (its width is kept). -/
def State.wr (s : State) (f : Fld) (v : Nat) : State := { s with regs := Sparse.put s.regs f.key (v % 2 ^ f.width) }

/-- A one-bit field as a truth value. -/
def State.on (s : State) (f : Fld) : Bool := s.rd f = 1

def State.wrB (s : State) (f : Fld) (b : Bool) : State := s.wr f (b2n b)

/-- A signed field. -/
def State.rdI (s : State) (f : Fld) : Int := sgn f.width (s.rd f)

def State.wrI (s : State) (f : Fld) (v : Int) : State := s.wr f (wrap f.width v)

/-- Advance a counter by `n`; a CT field saturates, 32 or 64 bits wide (R79, R80). -/
def State.bump (s : State) (f : Fld) (n : Nat) : State := s.wr f (min (s.rd f + n) (2 ^ f.width - 1))

/-- Count one event in a CT field. -/
def State.count (s : State) (f : Fld) : State := s.bump f 1

/-- Advance a field that wraps. -/
def State.inc (s : State) (f : Fld) : State := s.wr f (s.rd f + 1)

/-! ### Pages -/

/-- The base address of a block's window. -/
def Blk.pg (b : Blk) (w : Nat) : Nat := 16384 * (b.win0 + w)

/-- RUN codes (R59). -/
def runDisabled : Nat := 0
def runStarting : Nat := 1
def runRunning : Nat := 2
def runDraining : Nat := 3
def runDrained : Nat := 4
def runFault : Nat := 5
def runWedged : Nat := 6

def State.run (s : State) (b : Blk) (w : Nat) : Nat := s.rd (R.RUN (b.pg w))
def State.setRun (s : State) (b : Blk) (w : Nat) (v : Nat) : State := s.wr (R.RUN (b.pg w)) v
def State.enabled (s : State) (b : Blk) (w : Nat) : Bool := s.on (R.ENABLE (b.pg w))

/-- The handshake step of a block (R405); 0: none. -/
def parkStep : Blk → Nat
  | .SRC => 1
  | .DMA => 2
  | .LYR => 3
  | .PRS => 4
  | .DRN => 5
  | .TRV => 6
  | .SCN => 7
  | .LMP => 8
  | .LOP => 9
  | .CAL => 10
  | .ETH => 11
  | .FLD => 12
  | .SPR => 13
  | .RING => 14
  | .LNE => 14
  | .HST => 15
  | .DRC => 16
  | .CLK => 17
  | _ => 0

/-! ### Power state (R397) -/

def pSummit : Nat := 0
def pShoulder : Nat := 1
def pSaddle : Nat := 2
def pValley : Nat := 3

def State.pstate (s : State) : Nat := s.rd R.PWR_STATE_STATE

/-- The device is in Saddle or Valley and has not woken: Kryty's clock stands, or it is off (R397, R410, R412). -/
def State.cpuStopped (s : State) : Bool := (s.pstate = pSaddle || s.pstate = pValley) && !s.eng.pwr.up

/-- Whether the power controller has parked the block of a step (R405). -/
def State.parked (s : State) (step : Nat) : Bool := step ≠ 0 && bitOf (s.rd R.PWR_PARKED_STEPS) (step - 1)

/-- A block runs: enabled, RUN shows RUNNING, the power controller has not parked it, and RAIL_PG is high (R425). -/
def State.running (s : State) (b : Blk) (w : Nat) : Bool := s.enabled b w && s.run b w = runRunning && !s.parked (parkStep b) && s.pins.railPg

/-- The GPIO pads that are outputs (R420): those of OE while the page shows RUNNING, none in Valley. -/
def State.gpioOe (s : State) : Nat := if s.enabled .GPIO 0 && s.run .GPIO 0 = runRunning && s.pstate ≠ pValley then s.rd R.GPIO_OE_OE else 0

/-- The GPIO pads are driven as OE and OUT now have them (R420). -/
def State.gpioShow (s : State) : State := s.emit (.gpio s.gpioOe (Nat.land s.gpioOe (s.rd R.GPIO_OUT_OUT)))

/-- Whether the build has the window (R4, R86). -/
def State.has (s : State) (b : Blk) (w : Nat) : Bool := w < b.wins s.build

/-! ### Memory -/

/-- What an address that lists nothing reads as: 0, and 0x0007_0000 in a lamp-map entry (R178, R439). -/
def unlisted (k : Nat) : Byte := if 1572864 ≤ k ∧ k < 1835008 ∧ k % 4 = 2 then 7 else 0

/-- The byte at a key. -/
def memGet (m : List Host.Cell) (k : Nat) : Byte := Sparse.look m k (unlisted k)

/-- Write a byte at a key, keeping the canonical form. -/
def memPut (m : List Host.Cell) (k : Nat) (v : Byte) : List Host.Cell :=
  if v = unlisted k then Sparse.del m k else Sparse.put m k v

/-- The keys rise strictly. -/
def keysRise : List Nat → Bool
  | a :: b :: t => a < b && keysRise (b :: t)
  | _ => true

/-- The canonical form of a memory: keys rise strictly, and no entry equals what an unlisted key reads as. -/
def Memory.wf (m : List Host.Cell) : Bool := keysRise (m.map Prod.fst) && m.all (fun c => c.2 != unlisted c.1)

/-- The size of a build's DRAM (R363). -/
def dramSize : Build → Nat
  | .head => 17179869184
  | .tile => 4294967296

/-- Where an offset falls: DRAM addresses are taken modulo the build's DRAM (R363), layer SRAM addresses modulo 256 KiB (R144). -/
def Space.fold (sp : Space) (b : Build) (off : Nat) : Nat :=
  match sp with
  | .dram => off % dramSize b
  | .layer _ => off % 262144
  | _ => off

def State.rd8 (s : State) (sp : Space) (off : Nat) : Byte := memGet s.mem (sp.key (sp.fold s.build off))
def State.wr8 (s : State) (sp : Space) (off : Nat) (v : Byte) : State := { s with mem := memPut s.mem (sp.key (sp.fold s.build off)) v }

/-- `n` bytes at an offset as a number, little-endian (R55). -/
def State.rdLE (s : State) (sp : Space) (off : Nat) : Nat → Nat
  | 0 => 0
  | n + 1 => (s.rd8 sp off).toNat + 256 * s.rdLE sp (off + 1) n

/-- Write a number as `n` bytes, little-endian. -/
def State.wrLE (s : State) (sp : Space) (off v : Nat) : Nat → State
  | 0 => s
  | n + 1 => (s.wr8 sp off (BitVec.ofNat 8 v)).wrLE sp (off + 1) (v / 256) n

/-- `n` bits at bit `bit` of the little-endian bitstream at an offset (R113). -/
def State.rdBits (s : State) (sp : Space) (a bit n : Nat) : Nat :=
  s.rdLE sp (a + bit / 8) ((bit % 8 + n + 7) / 8) / 2 ^ (bit % 8) % 2 ^ n

/-- Write `n` bits at bit `bit` of the bitstream at an offset; the other bits of the bytes stay. -/
def State.wrBits (s : State) (sp : Space) (a bit n v : Nat) : State :=
  let first := a + bit / 8
  let nb := (bit % 8 + n + 7) / 8
  let old := s.rdLE sp first nb
  let sh := 2 ^ (bit % 8)
  s.wrLE sp first (old - old / sh % 2 ^ n * sh + v % 2 ^ n * sh) nb

/-- Write bytes in ascending order. -/
def State.wrBytes (s : State) (sp : Space) (off : Nat) : List Byte → State
  | [] => s
  | b :: t => (s.wr8 sp off b).wrBytes sp (off + 1) t

/-- `n` bytes in ascending order. -/
def State.rdBytes (s : State) (sp : Space) (off : Nat) : Nat → List Byte
  | 0 => []
  | n + 1 => s.rd8 sp off :: s.rdBytes sp (off + 1) n

def State.rd32 (s : State) (sp : Space) (off : Nat) : Nat := s.rdLE sp off 4
def State.wr32 (s : State) (sp : Space) (off v : Nat) : State := s.wrLE sp off v 4

/-! ### Bytes and words -/

/-- Bytes as a number, little-endian. -/
def leNat : List Byte → Nat
  | [] => 0
  | b :: t => b.toNat + 256 * leNat t

/-- A number as `n` bytes, little-endian. -/
def natLE (v : Nat) : Nat → List Byte
  | 0 => []
  | n + 1 => BitVec.ofNat 8 v :: natLE (v / 256) n

/-- Bytes in dwords, little-endian. -/
def wordsOf : List Byte → List Word
  | a :: b :: c :: d :: t => BitVec.ofNat 32 (leNat [a, b, c, d]) :: wordsOf t
  | [] => []
  | l => [BitVec.ofNat 32 (leNat l)]

/-- Dwords as bytes. -/
def bytesOf : List Word → List Byte
  | [] => []
  | w :: t => natLE w.toNat 4 ++ bytesOf t

/-- The first `n` bytes, 0 past the end. -/
def takePad (l : List Byte) : Nat → List Byte
  | 0 => []
  | n + 1 => match l with
    | [] => 0 :: takePad [] n
    | b :: t => b :: takePad t n

/-! ### CRCs -/

/-- One bit step of a reflected 32-bit CRC with the polynomial 0x1EDC_6F41 (0x82F6_3B78 reflected, R82). -/
def crcBit (c : Nat) : Nat := if c % 2 = 1 then Nat.xor (c / 2) 2197175160 else c / 2

def crcBits : Nat → Nat → Nat
  | 0, c => c
  | n + 1, c => crcBits n (crcBit c)

def crcByte (c : Nat) (b : Byte) : Nat := crcBits 8 (Nat.xor c b.toNat)

/-- The running CRC-32C over bytes, without the final XOR. -/
def crcFeed (c : Nat) (l : List Byte) : Nat := l.foldl crcByte c

/-- CRC-32C: initial value and final XOR 0xFFFF_FFFF (R82). -/
def crc32c (l : List Byte) : Nat := Nat.xor (crcFeed 4294967295 l) 4294967295

/-! ### Walking ranges -/

/-- Apply `f` at 0, 1, ... n - 1, in order. -/
def forN {α : Type} (n : Nat) (f : Nat → α → α) (x : α) : α := (List.range n).foldl (fun a i => f i a) x

/-- Apply `f` to each element, in order. -/
def forL {α β : Type} (l : List β) (f : β → α → α) (x : α) : α := l.foldl (fun a b => f b a) x

end Sys2Proof.Machine
end

