-- ==== Sys2Proof/Machine/Cells.lean ====
section
/-! DEFINITION. The Ridge cell: its header as bytes, HCRC and trailer (R284, R285), its classes and types (R286, R287), node
IDs (R7), and the payload fields of cells. -/

namespace Sys2Proof.Machine

/-! ### Node IDs (R7) -/

def nodeId (head ring pos : Nat) : Nat := head % 64 * 1024 + ring % 16 * 64 + pos % 64
def nodeHead (n : Nat) : Nat := n / 1024 % 64
def nodeRing (n : Nat) : Nat := n / 64 % 16
def nodePos (n : Nat) : Nat := n % 64

/-- No position (RINGp_STATE.NODE). -/
def noNode : Nat := 65535

/-! ### CRC-8 (R284, R359) -/

/-- One bit of the CRC-8 with polynomial 0x07, most significant bit first. -/
def crc8Bit (c : Nat) : Nat := if 128 ≤ c then Nat.xor (c * 2 % 256) 7 else c * 2

def crc8Byte (c : Nat) (b : Byte) : Nat :=
  crc8Bit (crc8Bit (crc8Bit (crc8Bit (crc8Bit (crc8Bit (crc8Bit (crc8Bit (Nat.xor c b.toNat))))))))

def crc8 (l : List Byte) : Nat := l.foldl crc8Byte 0

/-! ### Header and trailer -/

/-- Header bytes 0x00 to 0x0A (R284). -/
def cellHead (c : Cell) : List Byte :=
  natLE (c.cls % 4 + c.dir % 2 * 4 + c.hops % 128 * 8 + b2n c.loc * 1024 + b2n c.bcast * 2048 + b2n c.sync * 4096 +
    b2n c.rsp * 8192 + b2n c.err * 16384) 2 ++
  natLE (c.seq % 65536) 2 ++ natLE (c.dest % 65536) 2 ++ natLE (c.src % 65536) 2 ++
  natLE (c.stream % 1024 + c.typ % 64 * 1024) 2 ++ natLE (c.aux % 256) 1

def hcrcOf (c : Cell) : Nat := crc8 (cellHead c)

/-- The CRC-32C of bytes 0x00 to 0x10B (R285). -/
def trailerOf (c : Cell) : Nat :=
  crc32c (cellHead c ++ [BitVec.ofNat 8 (hcrcOf c)] ++ takePad c.payload 256)

/-- The inverse of the correct trailer: a stomp (R289). -/
def stompOf (c : Cell) : Nat := 4294967295 - trailerOf c

def hcrcOk (c : Cell) : Bool := c.hcrc = hcrcOf c
def trailerOk (c : Cell) : Bool := c.trailer = trailerOf c && !c.uncorr
def isStomped (c : Cell) : Bool := c.trailer = stompOf c && !c.uncorr

/-- The cell with its check fields as a sender computes them. -/
def sealCell (c : Cell) (stomp : Bool) : Cell :=
  { c with hcrc := hcrcOf c, trailer := if stomp then stompOf c else trailerOf c, uncorr := false }

/-! ### Types (R287, R320, R346) -/

def clsBeacon : Nat := 0
def clsControl : Nat := 1
def clsPixel : Nat := 2
def clsBest : Nat := 3

def tRegRd : Nat := 1
def tRegWr : Nat := 2
def tRegRsp : Nat := 3
def tEvent : Nat := 4
def tDiscover : Nat := 5
def tNeigh : Nat := 6
def tDlyReq : Nat := 7
def tDlyRsp : Nat := 8
def tLinkdown : Nat := 9
def tLinkup : Nat := 10
def tShareReq : Nat := 11
def tResign : Nat := 16
def tTake : Nat := 17
def tFoldData : Nat := 18
def tFoldAck : Nat := 19
def tFoldNack : Nat := 20
def tHostRd : Nat := 32
def tHostCpl : Nat := 33
def tHostWr : Nat := 34
def tDoorbell : Nat := 35

/-- Whether a class and a TYPE belong together (R287, R320, R346: 0x15 to 0x1F and 0x24 to 0x2F are reserved). -/
def typeOk (c : Cell) : Bool :=
  if c.cls = 0 then c.typ = 0
  else if c.cls = 1 then (decide (1 ≤ c.typ ∧ c.typ ≤ 11)) || (decide (16 ≤ c.typ ∧ c.typ ≤ 20)) || (decide (32 ≤ c.typ ∧ c.typ ≤ 35))
  else if c.cls = 2 then c.typ = 0
  else c.typ = 0 || c.typ = 1

/-- NEIGH, DLY_REQ and DLY_RSP: consumed by the receiving port (R441). -/
def linkLocal (c : Cell) : Bool := c.cls = 1 && (c.typ = tNeigh || c.typ = tDlyReq || c.typ = tDlyRsp)

/-- Control and pixel cells pass the duplicate window (R286, R295). -/
def classKeyed (c : Cell) : Bool := c.cls = 1 || c.cls = 2

/-! ### Payload -/

/-- Payload byte `i`, 0 past the end. -/
def pb (c : Cell) (i : Nat) : Nat := (c.payload.getD i 0).toNat

/-- `n` payload bytes at `i`, little-endian. -/
def pn (c : Cell) (i n : Nat) : Nat := leNat (takePad (c.payload.drop i) n)

/-- A cell as an originator makes it: hop count 0, check fields still to be sealed. -/
def mkCell (cls typ src dest seq : Nat) (sync bcast : Bool) (payload : List Byte) : Cell :=
  { cls := cls, dir := 0, hops := 0, loc := false, bcast := bcast, sync := sync, rsp := false, err := false, seq := seq,
    dest := dest, src := src, stream := 0, typ := typ, aux := 0, hcrc := 0, payload := payload, trailer := 0, uncorr := false }

end Sys2Proof.Machine
end

