-- ==== Sys2Proof/Machine/Links.lean ====
section
/-! DEFINITION. Ridge ports as a node uses them: port numbers and states, the output queues (R291, R292), sending a cell,
originating a control cell (R294), and the duplicate window (R295, R296).

Port numbers: end e (0 A, 1 B) of ring port p is 2p + e; a tile's west port is 0 and its east port 2; Spur port q is 24 + q. -/

namespace Sys2Proof.Machine

def isSpur (id : Nat) : Bool := 24 ≤ id
def portRing (id : Nat) : Nat := id / 2
def portEnd (id : Nat) : Nat := id % 2

/-- The port a node forwards to (R288): the other end of the ring port, or the tile's other port. -/
def otherPort (b : Build) (id : Nat) : Nat :=
  match b with
  | .head => if id % 2 = 0 then id + 1 else id - 1
  | .tile => if id = 0 then 2 else 0

/-- The ports a build has: ring ends of a head, or the two ports of a tile; the Spur ports of a head. -/
def portExists (b : Build) (id : Nat) : Bool :=
  match b with
  | .head => id < 28
  | .tile => id = 0 || id = 2

/-- The state field of a port (RINGp_STATE END_A, END_B; SPRp_STATE). 0 DOWN, 1 TRAINING, 2 UP, 3 LOOP, 4 FAILED. -/
def portStF (id : Nat) : Fld :=
  if 24 ≤ id then R.SPRP_STATE_STATE (id - 24)
  else if id % 2 = 0 then R.RING_STATE_END_A (id / 2) else R.RING_STATE_END_B (id / 2)

def State.portState (s : State) (id : Nat) : Nat := s.rd (portStF id)
/-- The lanes of a port sleep or are off (R302, R405). -/
def State.asleep (s : State) (id : Nat) : Bool := s.parked (if isSpur id then 13 else 14)

/-- A port is UP; not while its lanes sleep (R325). -/
def State.portUp (s : State) (id : Nat) : Bool := s.portState id = 2 && !s.asleep id

/-- A codeword stream begins behind a marker, with P_(-1) = 0 (R275; where it begins in the marker period is log entry 121). -/
def LineTx.init : LineTx := { bits := 0, n := 0, cells := 0, cw := 0, prev := [] }

def Port.init : Port :=
  { q0 := [], q1 := [], q2 := [], q3 := [], win := 0, beSent := 0, carryIn := 0, carryOut := 0, paced := 0, share := 0,
    sharing := false, fails := 0, passed := [], neighOk := false, upOnce := false, wasDown := false, measuring := false, dlySent := 0, dlyRes := [], dlyNext := none,
    neighPort := 0, prbsTx := 2147483647, prbsRx := 0, prbsOn := false, testSent := 0, gavePos := false, farReady := [], coded := [],
    waking := false, turned := false, line := LineTx.init }

def State.port (s : State) (id : Nat) : Port := Sparse.look s.ports id Port.init
def State.setPort (s : State) (id : Nat) (p : Port) : State := { s with ports := Sparse.put s.ports id p }

/-- The head number of a head (SPR_CFG.HEAD). -/
def State.headNo (s : State) : Nat := s.rd R.SPR_CFG_HEAD

/-- This node's ID on the ring of a port: a tile's position, or the head's own node (R7, R26); on a Spur link, head << 10. -/
def State.selfId (s : State) (id : Nat) : Nat :=
  match s.build with
  | .tile => s.rd (R.RING_STATE_NODE 0)
  | .head => if isSpur id then nodeId s.headNo 0 0 else nodeId s.headNo (portRing id) 0

/-- A cell addressed to this node at a port. An ID whose ring field holds 12 to 15 names no node, the ID of a tile without a position
among them (R7, R288). DEDUCED, log entry 34. -/
def State.destHere (s : State) (id : Nat) (c : Cell) : Bool := c.dest = s.selfId id && decide (nodeRing c.dest < 12)

/-- A ring's authority on a head (key: ring port), or the tile's own (key 0). A head begins in LISTEN, or STANDBY by its strap
(R100, R315, R325). -/
def State.ringAuth (s : State) (r : Nat) : RingAuth :=
  Sparse.look s.auth.rings r
    { role := match s.build with | .tile => 6 | .head => if s.on R.BOOT_STRAPS_ROLE then 1 else 5, pair := none, missed := 0, heard := false }

def State.setRingAuth (s : State) (r : Nat) (a : RingAuth) : State :=
  { s with auth := { s.auth with rings := Sparse.put s.auth.rings r a } }

/-- Whether the head masters the ring: it originates its cells (R314, R316, R319). -/
def State.masters (s : State) (r : Nat) : Bool := (s.ringAuth r).role = 0

/-- Whether a ring port forwards what it receives: a tile, or a head that is a standby on the ring, is taking it over, or has been deposed or has
resigned there (R24, R316, R319). A ring end of any other head terminates what arrives, also one in LISTEN (R288). -/
def State.forwards (s : State) (id : Nat) : Bool :=
  match s.build with
  | .tile => true
  | .head => !isSpur id && !s.masters (portRing id) && (s.ringAuth (portRing id)).role ≠ 5

/-- The loopback of a port (R304); Spur ports have none. -/
def State.loopOf (s : State) (id : Nat) : Nat := if isSpur id then 0 else s.rd (R.RING_CFG_LOOP (portRing id))

/-- Lanes of a port in lane order, lowest first (R276). -/
def State.portLane0 (s : State) (id : Nat) : Nat :=
  if isSpur id then s.rd (R.SPRP_CFG_LANE (id - 24))
  else if portEnd id = 0 then s.rd (R.RING_CFG_LANE_A (portRing id)) else s.rd (R.RING_CFG_LANE_B (portRing id))

def State.portWidth (s : State) (id : Nat) : Nat :=
  2 ^ (if isSpur id then s.rd (R.SPRP_CFG_WIDTH (id - 24)) else s.rd (R.RING_CFG_WIDTH (portRing id)))

/-- The lanes of a port, the lowest-numbered first: its port lanes as it sends (R276). -/
def State.portLanes (s : State) (id : Nat) : List Nat := (List.range (s.portWidth id)).map (fun i => s.portLane0 id + i)

/-- All lanes of the port have the stage. -/
def State.allAt (s : State) (id st : Nat) : Bool := (s.portLanes id).all (fun k => s.rd (R.LNE_STATE_STAGE k) = st)

/-- What a port shows while it comes up: TRAINING, or LOOP in a loopback, whose lanes come up all the same (R304). -/
def State.shownTraining (s : State) (id : Nat) : Nat := if s.loopOf id = 0 then 1 else 3

/-- What a port shows once its lanes are UP: UP, or LOOP in a loopback (R281, R304). -/
def State.shownUp (s : State) (id : Nat) : Nat := if s.loopOf id = 0 then 2 else 3

/-- What a port shows after its eighth failure in a row: FAILED, or LOOP in a loopback (R282, R304). -/
def State.shownFailed (s : State) (id : Nat) : Nat := if s.loopOf id = 0 then 4 else 3

/-- The port comes up: it shows TRAINING, or LOOP with lanes that are neither UP nor FAILED. -/
def State.training (s : State) (id : Nat) : Bool := s.portState id = 1 || (s.portState id = 3 && !s.allAt id 11 && !s.allAt id 12)

/-- The lanes of a port have come up: it shows UP, or LOOP with its lanes UP (R304). -/
def State.lanesIn (s : State) (id : Nat) : Bool := s.portState id = 2 || (s.portState id = 3 && s.allAt id 11)

/-- The lanes of a port are up and awake. -/
def State.lanesUp (s : State) (id : Nat) : Bool := portExists s.build id && s.lanesIn id && !s.asleep id

/-- A port takes cells into its output queues: its lanes are up, or the CELL loopback turns them back above the lanes (R292, R304). -/
def State.queues (s : State) (id : Nat) : Bool := s.lanesIn id || (s.portState id = 3 && s.loopOf id = 1)

/-- A cell at a port is taken: one that came by lanes that are up, or in the CELL loopback one that the port itself has sent (R288, R304, R306). -/
def State.cellsOn (s : State) (id : Nat) : Bool :=
  portExists s.build id && !s.asleep id && (if s.loopOf id = 1 then s.portState id = 3 && (s.port id).turned else s.lanesIn id)

/-- 64 KiB of best-effort cells of 272 bytes (R292). -/
def beLimit : Nat := 240
def pxLimit : Nat := 512

/-- The counters of best-effort and pixel drops of a port (R292). -/
def beDropF (id : Nat) : Fld := if isSpur id then R.SPRP_EVT_BEDROP (id - 24) else R.RING_EVT_BEDROP (portRing id)
def pxDropF (id : Nat) : Fld := R.RING_EVT_PXDROP (portRing id)

/-- Put a cell in its class queue of an output (R291, R292). -/
def State.enqueue (s : State) (id : Nat) (q : QCell) : State :=
  if s.queues id then
    let p := s.port id
    if q.cell.cls = 0 then s.setPort id { p with q0 := p.q0 ++ [q] }
    else if q.cell.cls = 1 then s.setPort id { p with q1 := p.q1 ++ [q] }
    else if q.cell.cls = 2 then
      if pxLimit ≤ p.q2.length then (if isSpur id then s else s.count (pxDropF id)) else s.setPort id { p with q2 := p.q2 ++ [q] }
    else if beLimit ≤ p.q3.length then s.count (beDropF id) else s.setPort id { p with q3 := p.q3 ++ [q] }
  else s

/-- Forward a cell to an output: dropped if that port is not UP, a port in loopback among them (R288, R304). -/
def State.forwardCell (s : State) (id : Nat) (q : QCell) : State := if s.portState id = 2 then s.enqueue id q else s

def State.sendCell (s : State) (id : Nat) (c : Cell) : State := s.enqueue id { cell := c, stomp := false }

/-- A head that has been deposed on a ring, or has given up, originates no cell there (R316, R319). -/
def State.mute (s : State) (r : Nat) : Bool :=
  match s.build with
  | .tile => false
  | .head => (s.ringAuth r).role = 3 || (s.ringAuth r).role = 4

/-- Whether a head's end A faces the last tile of the ring, so that its directions are reversed (R24, R327): the neighbour at
end A is a tile's east port. -/
def State.reversedRing (s : State) (r : Nat) : Bool :=
  s.on (R.RING_NEIGH_A_VALID r) && s.rd (R.RING_NEIGH_A_ROLE r) = 1 && (s.port (2 * r)).neighPort = 1

/-- The direction of a cell that leaves by a port: 0 ascending, 1 descending (R23, R327). -/
def State.dirOut (s : State) (id : Nat) : Nat :=
  match s.build with
  | .tile => if id = 0 then 1 else 0
  | .head => if s.reversedRing (portRing id) then 1 - portEnd id else portEnd id

/-- Send one cell out of both ends of a ring port, or both ports of a tile (R294). -/
def State.sendBoth (s : State) (r : Nat) (c : Cell) : State :=
  match s.build with
  | .tile => (s.sendCell 0 { c with dir := 1 }).sendCell 2 { c with dir := 0 }
  | .head =>
    if s.mute r then s
    else (s.sendCell (2 * r) { c with dir := s.dirOut (2 * r) }).sendCell (2 * r + 1) { c with dir := s.dirOut (2 * r + 1) }

/-- The next control sequence number of an originating node, and whether it is the first after the reset (R294). A tile is one node,
whatever position it holds: its counter has the key 0. -/
def State.ctlSeq (s : State) (node : Nat) : Nat × Bool × State :=
  let k := match s.build with | .tile => 0 | .head => node
  match Sparse.get s.seqs.ctl k with
  | none => (0, true, { s with seqs := { s.seqs with ctl := Sparse.put s.seqs.ctl k 1 } })
  | some n => (n, false, { s with seqs := { s.seqs with ctl := Sparse.put s.seqs.ctl k ((n + 1) % 65536) } })

/-- Originate a control cell on a ring, out of both ends or ports, with one sequence number (R294). -/
def State.originate (s : State) (r : Nat) (mk : Cell → Cell) (typ dest : Nat) (payload : List Byte) : State :=
  let node := match s.build with | .tile => s.rd (R.RING_STATE_NODE 0) | .head => nodeId s.headNo r 0
  let q := s.ctlSeq node
  q.2.2.sendBoth r (mk (mkCell clsControl typ node dest q.1 q.2.1 false payload))

/-- Whether a Spur port is usable, and the Spur port towards a head (R345). -/
def State.spurRoute (s : State) (h : Nat) : Option Nat :=
  if s.on (R.SPR_ROUTE_VALID h) then
    if s.portUp (24 + s.rd (R.SPR_ROUTE_PORT h)) then some (24 + s.rd (R.SPR_ROUTE_PORT h))
    else if s.on (R.SPR_ROUTE_ALT_VALID h) && s.portUp (24 + s.rd (R.SPR_ROUTE_ALT h)) then some (24 + s.rd (R.SPR_ROUTE_ALT h))
    else none
  else none

/-- Pass a cell on over the Spur fabric towards a head; without a route it is dropped and counted (R345). -/
def State.passSpur (s : State) (h : Nat) (c : Cell) : State :=
  match s.spurRoute h with
  | some id => s.sendCell id c
  | none => s.count R.SPR_EVT_NOROUTE

/-- Send a cell to another head over the Spur fabric, HOPS 0 (R345). -/
def State.sendSpur (s : State) (h : Nat) (c : Cell) : State := s.passSpur h { c with hops := 0 }

/-- Originate a control cell to another head (R345). -/
def State.originateSpur (s : State) (h : Nat) (mk : Cell → Cell) (typ dest : Nat) (payload : List Byte) : State :=
  let node := nodeId s.headNo 0 0
  let q := s.ctlSeq node
  q.2.2.sendSpur h (mk (mkCell clsControl typ node dest q.1 q.2.1 false payload))

/-! ### The duplicate window -/

inductive Dedup where
  | accept | dup | stale
  deriving DecidableEq, Repr

def keyFind (l : List KeyEnt) (cls id : Nat) : Option KeyEnt := l.find? (fun e => e.cls = cls && e.id = id)

/-- R295 on a key's window, for a sequence number and SYNC. -/
def windowStep (e : KeyEnt) (sq : Nat) (sync : Bool) : Dedup × KeyEnt :=
  let d := (sq + 65536 - e.h) % 65536
  let back := (65536 - d) % 65536
  if d = 0 ∨ (32768 ≤ d ∧ back < 4096 ∧ bitOf e.map back = true) then (.dup, e)
  else if sync then (.accept, { e with h := sq, map := 1 })
  else if d < 32768 then (.accept, { e with h := sq, map := (e.map * 2 ^ d + 1) % 2 ^ 4096 })
  else if back < 4096 then (.accept, { e with map := e.map + 2 ^ back })
  else (.stale, e)

/-- The key unused for longest. -/
def oldestKey : List KeyEnt → Option KeyEnt
  | [] => none
  | e :: t => match oldestKey t with
    | none => some e
    | some f => if f.used < e.used then some f else some e

/-- The duplicate decision for a cell (R286, R295, R296), with the key table's update and its counts at the arrival port. -/
def State.dedup (s : State) (id : Nat) (c : Cell) : Dedup × State :=
  let kid := if c.cls = 2 then c.stream else c.src
  let sq := s.seqs
  match keyFind sq.keys c.cls kid with
  | some e =>
    let r := windowStep e (c.seq % 65536) c.sync
    let keys := sq.keys.map (fun (k : KeyEnt) => if k.cls = c.cls && k.id = kid then { r.2 with used := sq.stamp } else k)
    let s1 := { s with seqs := { sq with keys := keys, stamp := sq.stamp + 1 } }
    match r.1 with
    | .accept => (.accept, s1)
    | .dup => (.dup, if isSpur id then s1 else s1.count (R.RING_EVT_DUP (portRing id)))
    | .stale => (.stale, if isSpur id then s1 else s1.count (R.RING_EVT_STALE (portRing id)))
  | none =>
    let ne : KeyEnt := { cls := c.cls, id := kid, h := c.seq % 65536, map := 1, used := sq.stamp }
    if sq.keys.length < 64 then
      (.accept, ({ s with seqs := { sq with keys := sq.keys ++ [ne], stamp := sq.stamp + 1 } }).wr R.RING_KEYS_IN_USE (sq.keys.length + 1))
    else
      let keys := match oldestKey sq.keys with
        | some o => sq.keys.filter (fun (k : KeyEnt) => !(k.cls = o.cls && k.id = o.id))
        | none => sq.keys
      (.accept, ({ s with seqs := { sq with keys := keys ++ [ne], stamp := sq.stamp + 1 } }).count R.RING_EVT_EVICT)

/-- Clear the key table (R296). -/
def State.clearKeys (s : State) : State := ({ s with seqs := { s.seqs with keys := [] } }).wr R.RING_KEYS_IN_USE 0

/-- The head that stands for head `f` (R321, R338). -/
def State.aliasOf (s : State) (f : Nat) : Nat :=
  match s.auth.aliases.find? (fun e => e.1 = f) with
  | some e => e.2
  | none => f

/-- The head that serves the host: the one SPR_CFG names as lead head, or the head that has taken over from it (R321, R326, R342). -/
def State.leadHead (s : State) : Nat := s.aliasOf (s.rd R.SPR_CFG_LEAD_HEAD)
def State.isLead (s : State) : Bool := s.leadHead = s.headNo

/-- A stream, its head replaced by the one that stands for it (R140, R321). -/
def State.aliasStream (s : State) (st : Nat) : Nat := s.aliasOf (st / 16) % 64 * 16 + st % 16

/-- Whether a cell that arrived at a port is taken here: the checks of R288 in their order, for a cell addressed to this
node, and the duplicate window where its class is keyed. -/
def State.receive (s : State) (id : Nat) (c : Cell) : Bool × State :=
  if !s.cellsOn id || s.loopOf id = 2 then (false, s)
  else if !hcrcOk c || !typeOk c || !trailerOk c || linkLocal c || (if isSpur id then 8 else 65) < c.hops + 1 then (false, s)
  else if isSpur id then ((decide (s.aliasOf (nodeHead c.dest) = s.headNo) && decide (nodeRing c.dest < 12)) || c.bcast, s)
  else if !(c.bcast || s.destHere id c) then (false, s)
  else if classKeyed c then
    match s.dedup id c with
    | (.accept, s1) => (true, s1)
    | (_, s1) => (false, s1)
  else (true, s)

/-- A link-local cell taken by the receiving port (R288, R441); a port in a loopback takes none from lanes that are up: in TURN it sends them back, and in
CELL its receive path is cut off from the lanes (R304). -/
def State.receiveLocal (s : State) (id : Nat) (c : Cell) : Bool :=
  portExists s.build id && hcrcOk c && trailerOk c && linkLocal c && !(s.loopOf id ≠ 0 && s.allAt id 11)

end Sys2Proof.Machine
end

