-- ==== Sys2Proof/Machine/LineOps.lean ====
section
/-! DEFINITION. The line code (R274 to R277): Gray mapping and precoding of PAM4 symbols, RS(544,514) codewords, striping over the
lanes of a port, alignment markers, and the cell stream that fills the codewords. -/

namespace Sys2Proof.Machine

/-! ### PAM4 symbols (R274, R275) -/

/-- The symbol index G of a bit pair, given as b0 + 2 b1 (R274). -/
def grayIndex (pair : Nat) : Nat := match pair % 4 with | 0 => 0 | 1 => 1 | 3 => 2 | _ => 3

/-- The level of a symbol index (R274). -/
def pamLevel (g : Nat) : Int := 2 * ((g % 4 : Nat) : Int) - 3

/-- The bit pair of a symbol index, as a receiver recovers it (R274). -/
def grayPair (g : Nat) : Nat := match g % 4 with | 0 => 0 | 1 => 1 | 2 => 3 | _ => 2

/-- Precoding at the transmitter after the index `prev`: P_n = (G_n - P_(n-1)) mod 4 (R275). -/
def precode (prev : Nat) : List Nat → List Nat
  | [] => []
  | g :: t => let p := (g + 4 - prev % 4) % 4
              p :: precode p t

/-- Its inverse at the receiver: G_n = (P_n + P_(n-1)) mod 4 (R275). -/
def unprecode (prev : Nat) : List Nat → List Nat
  | [] => []
  | p :: t => (p + prev) % 4 :: unprecode p t

/-- The indexes a lane sends for its bit pairs, precoded or not. -/
def laneIndexes (pre : Bool) (prev : Nat) (pairs : List Nat) : List Nat :=
  if pre then precode prev (pairs.map grayIndex) else pairs.map grayIndex

/-- The bit pairs a receiver takes from the indexes of a lane. -/
def lanePairs (pre : Bool) (prev : Nat) (idx : List Nat) : List Nat :=
  ((if pre then unprecode prev idx else idx).map grayPair)

/-! ### RS(544,514) (R276): the field and generator polynomial of IEEE 802.3 clause 91. PRESUMED, log entry 122 -/

/-- Multiplication by alpha in GF(2^10), with x^10 + x^3 + 1. -/
def gfDouble (a : Nat) : Nat := if 512 ≤ a then Nat.xor (a * 2 % 1024) 9 else a * 2

/-- Multiplication in GF(2^10): `n` bits of `b` from the lowest. -/
def gfMulBits : Nat → Nat → Nat → Nat
  | 0, _, _ => 0
  | n + 1, a, b => Nat.xor (if b % 2 = 1 then a else 0) (gfMulBits n (gfDouble a) (b / 2))

def gfMul (a b : Nat) : Nat := gfMulBits 10 a b

/-- A polynomial, lowest coefficient first, times (x + r). -/
def polyTimes (r : Nat) (p : List Nat) : List Nat :=
  (List.range (p.length + 1)).map (fun i => Nat.xor (gfMul r (p.getD i 0)) (if i = 0 then 0 else p.getD (i - 1) 0))

/-- The generator polynomial: the product of (x - alpha^j) for j from 0 to 29, lowest coefficient first. -/
def rsGen : List Nat :=
  ((List.range 30).foldl (fun (a : List Nat × Nat) _ => (polyTimes a.2 a.1, gfDouble a.2)) ([1], 1)).1

/-- One message symbol through the encoder's register, parity symbol 0 first. -/
def rsStep (gen reg : List Nat) (m : Nat) : List Nat :=
  let fb := Nat.xor m (reg.getD 29 0)
  (List.range 30).map (fun i => Nat.xor (gfMul fb (gen.getD i 0)) (if i = 0 then 0 else reg.getD (i - 1) 0))

/-- The 30 parity symbols of a message, in the order sent: the highest power first. -/
def rsParity (msg : List Nat) : List Nat := (msg.foldl (rsStep rsGen) (List.replicate 30 0)).reverse

/-- The 544 symbols of a codeword (R276). -/
def rsCodeword (msg : List Nat) : List Nat := msg ++ rsParity msg

/-- The message symbols of `n` x 10 stream bits, the first bit of each as its bit 0 (R276). -/
def messageSymbols (bits : Nat) : Nat → List Nat
  | 0 => []
  | n + 1 => bits % 1024 :: messageSymbols (bits / 1024) n

/-! ### Striping (R276, R283) -/

/-- The codeword symbols of port lane `l` of `w`. -/
def laneShare (w l : Nat) (cw : List Nat) : List Nat :=
  ((List.range cw.length).filter (fun i => i % w = l)).map (fun i => cw.getD i 0)

/-- A symbol as five bit pairs, bits [1:0] first. -/
def symbolPairs (v : Nat) : List Nat := (List.range 5).map (fun i => v / 4 ^ i % 4)

/-- Codeword symbols put together again from the shares of the port lanes, port lane 0 first. -/
def unstripe (w n : Nat) (shares : List (List Nat)) : List Nat :=
  (List.range n).map (fun i => (shares.getD (i % w) []).getD (i / w) 0)

/-- The shares of the lanes in the order of their port lanes: reversed where stage 4 found the order reversed (R283). -/
def inPortOrder {α : Type} (reversed : Bool) (l : List α) : List α := if reversed then l.reverse else l

/-- The message bits a receiver takes from the indexes of a port's lanes, the lowest lane first, for a codeword without a symbol error
(R274 to R276, R283). -/
def receivedSymbols (w : Nat) (reversed : Bool) (pre : List Bool) (prev : List Nat) (idx : List (List Nat)) : List Nat :=
  let symbol (l : List Nat) (i : Nat) : Nat := (List.range 5).foldr (fun j n => l.getD (5 * i + j) 0 + 4 * n) 0
  let lanes := (List.range w).map (fun l =>
    let p := lanePairs (pre.getD l false) (prev.getD l 0) (idx.getD l [])
    (List.range (p.length / 5)).map (symbol p))
  unstripe w 544 (inPortOrder reversed lanes)

/-! ### Cells as bits (R276, R277, R284) -/

/-- The 272 bytes of a sealed cell (R284). -/
def cellBytes (c : Cell) : List Byte := cellHead c ++ [BitVec.ofNat 8 c.hcrc] ++ takePad c.payload 256 ++ natLE c.trailer 4

/-- Header bytes 0x00 to 0x0A of an IDLE cell (R277). -/
def idleHead : List Byte := List.replicate 11 255

/-- The 272 bytes of an IDLE cell: a valid HCRC, a payload of 0, and the trailer of R285. -/
def idleBytes : List Byte :=
  let head := idleHead ++ [BitVec.ofNat 8 (crc8 idleHead)] ++ List.replicate 256 0
  head ++ natLE (crc32c head) 4

/-- Bits of a cell, and of a codeword's message (R276, R284). -/
def cellBits : Nat := 2176
def messageBits : Nat := 5140

/-- The cells and the fill bits between two markers, and the data codewords they fill (R277). -/
def cellsPerMarker : Nat := 9672
def fillBits : Nat := 2028
def dataPerMarker : Nat := 4095

/-- A cell joins the stream; the last before a marker is followed by the fill bits (R277). -/
def LineTx.push (l : LineTx) (bytes : List Byte) : LineTx :=
  let last := decide (cellsPerMarker ≤ l.cells + 1)
  { l with bits := l.bits + leNat bytes * 2 ^ l.n, n := l.n + cellBits + (if last then fillBits else 0),
           cells := if last then 0 else l.cells + 1 }

/-! ### The transmitter of a port -/

/-- The lanes of a port in the order of the port lanes as it receives: a full reversal is corrected here (R283). -/
def State.rxLanes (s : State) (id : Nat) : List Nat :=
  inPortOrder (s.on (R.LNE_STATE_REVERSED ((s.portLanes id).headD 0))) (s.portLanes id)

/-- A codeword leaves on the lanes of a port (R274 to R276); a lane with TX_INV is sent inverted. -/
def State.sendCodeword (s : State) (id : Nat) (msg : List Nat) : State :=
  let p := s.port id
  let w := s.portWidth id
  let cw := rsCodeword msg
  let lanes := s.portLanes id
  let idx (l : Nat) : List Nat :=
    laneIndexes (s.on (R.LNE_CFG_PRECODE_TX (lanes.getD l 0))) (p.line.prev.getD l 0) ((laneShare w l cw).flatMap symbolPairs)
  let levels (l : Nat) : List Int :=
    (idx l).map (fun g => if s.on (R.LNE_CFG_TX_INV (lanes.getD l 0)) then -(pamLevel g) else pamLevel g)
  (s.setPort id { p with line := { p.line with prev := (List.range w).map (fun l => (idx l).getLastD (p.line.prev.getD l 0)) } }).emit
    (.codeword id ((List.range w).map levels))

/-- The message of the marker codeword (R277). -/
def markerMessage (w : Nat) : List Nat := (List.range 514).map (fun i => Config.marker w (i % w) (i / w) % 1024)

/-- The marker before the first data codeword of a period (R277). -/
def State.lineMarker (s : State) (id : Nat) : State := if (s.port id).line.cw = 0 then s.sendCodeword id (markerMessage (s.portWidth id)) else s

/-- A full message of the stream leaves as a data codeword; the 4,095th ends the period (R277). -/
def State.lineStep (s : State) (id : Nat) : State :=
  let l := (s.port id).line
  if l.n < messageBits then s
  else
    let s1 := (s.lineMarker id).sendCodeword id (messageSymbols l.bits 514)
    let p := s1.port id
    s1.setPort id { p with line := { p.line with bits := l.bits / 2 ^ messageBits, n := l.n - messageBits,
                                                 cw := if dataPerMarker ≤ l.cw + 1 then 0 else l.cw + 1 } }

/-- A cell, given as its bytes, goes into the codeword stream of a port: a cell completes at most one codeword (R276, R277). -/
def State.lineCell (s : State) (id : Nat) (bytes : List Byte) : State :=
  let p := s.port id
  (s.setPort id { p with line := p.line.push bytes }).lineStep id

/-- A cell on the wire of a port, sealed or stomped (R289). -/
def State.wireCell (s : State) (id : Nat) (c : Cell) (stomp : Bool) : State := (s.emit (.cell id c stomp)).lineCell id (cellBytes c)

/-- An IDLE cell on the wire of a port (R277). -/
def State.wireIdle (s : State) (id : Nat) : State := (s.emit (.idle id)).lineCell id idleBytes

/-- 8 marker codewords on the wire of a port (R302). -/
def State.wireMarkers (s : State) (id : Nat) : State :=
  forN 8 (fun _ a => a.sendCodeword id (markerMessage (a.portWidth id))) (s.emit (.refresh id))

end Sys2Proof.Machine
end

