-- ==== Sys2Proof/Machine/AuthOps.lean ====
section
/-! DEFINITION. Authority operations shared by many commands: the Cairn voter (R307 to R313), events (R341 to R343), giving up
(R318, R319), master pairs (R314, R316) and the alias table (R321). -/

namespace Sys2Proof.Machine

/-! ### Cairn -/

/-- The 2-of-3 vote; while all copies differ, the value of the last clock in which two agreed (R308). -/
def Tri.voted (t : Tri) : Nat := if t.c0 = t.c1 ∨ t.c0 = t.c2 then t.c0 else if t.c1 = t.c2 then t.c1 else t.last

/-- A write of all three copies (R308). -/
def Tri.set (v : Nat) : Tri := { c0 := v, c1 := v, c2 := v, last := v }

def Tri.split (t : Tri) : Bool := t.c0 ≠ t.c1 && t.c0 ≠ t.c2 && t.c1 ≠ t.c2

/-- The number of the odd copy when exactly one differs. -/
def Tri.odd (t : Tri) : Option Nat :=
  if t.c0 = t.c1 ∧ t.c1 = t.c2 then none
  else if t.c1 = t.c2 then some 0 else if t.c0 = t.c2 then some 1 else if t.c0 = t.c1 then some 2 else none

/-- The epoch counter as every user sees it (R36, R308). -/
def State.epochNo (s : State) : Nat := s.cairn.epoch.voted

/-- The number of the epoch that the next boundary begins: the one a beacon has given, or the next (R36, R45, R47). -/
def State.epochComing (s : State) : Nat := s.epc.nextNumber.getD (epochNext s.epochNo)

def State.setEpochNo (s : State) (v : Nat) : State :=
  { s with cairn := { s.cairn with epoch := Tri.set (v % 4294967296) } }

/-- The lamp-enable item (R224, R307). -/
def State.lampEn (s : State) : Bool := s.cairn.lamp.voted = 1

def State.setLampEn (s : State) (b : Bool) : State := { s with cairn := { s.cairn with lamp := Tri.set (b2n b) } }

def State.termTri (s : State) (r : Nat) : Tri := Sparse.look s.cairn.terms r (Tri.set 0)

/-- The voted master term of a ring port (a tile: ring 0). -/
def State.term (s : State) (r : Nat) : Nat := (s.termTri r).voted

def State.setTerm (s : State) (r v : Nat) : State :=
  { s with cairn := { s.cairn with terms := Sparse.put s.cairn.terms r (Tri.set (v % 4294967296)) } }

/-! ### Event records and event cells -/

/-- Whether an event queue runs (HST registers). -/
def State.queueRuns (s : State) (q : Nat) : Bool := s.running .HST 0 && s.on (R.HST_EVQ_CFG_EN q)

def State.queueSize (s : State) (q : Nat) : Nat := 2 ^ (s.rd (R.HST_EVQ_CFG_SIZE q) + 4)

/-- How many records wait for D0 in a queue (R337). -/
def State.heldIn (s : State) (q : Nat) : Nat := (s.host.held.filter (fun e => e.1 = q)).length

/-- Raise a queue's vector, or leave it to the end of its holdoff (R343). -/
def State.queueVector (s : State) (q : Nat) : State :=
  if s.host.holdoff.contains q then
    (if s.host.owed.contains q then s else { s with host := { s.host with owed := q :: s.host.owed } })
  else
    let s1 := s.vector 0 (48 + q)
    if s.rd (R.HST_EVQ_CFG_HOLDOFF q) = 0 then s1 else { s1 with host := { s1.host with holdoff := q :: s1.host.holdoff } }

/-- Write a record into a queue that has room (R342). -/
def State.putRecord (s : State) (q : Nat) (payload : List Byte) : State :=
  let prod := s.rd (R.HST_EVQ_IDX_PROD q)
  let size := s.queueSize q
  let base := s.rd (R.HST_EVQ_BASE_LO_ADDR q) * 64 + s.rd (R.HST_EVQ_BASE_HI_ADDR q) * 4294967296
  let phase := if prod / size % 2 = 0 then 1 else 0
  let s1 := s.emit (.hostWrite (base + 32 * (prod % size)) (takePad payload 28 ++ natLE prod 2 ++ natLE (256 * phase) 2))
  (s1.inc (R.HST_EVQ_IDX_PROD q)).queueVector q

/-- An event arrives at a queue: written, held while the function is in D3hot, or dropped at a full queue (R337, R342). -/
def State.queueEvent (s : State) (q : Nat) (payload : List Byte) : State :=
  if !s.queueRuns q then s
  else if (s.rd (R.HST_EVQ_IDX_PROD q) + s.heldIn q + 1 + 65536 - s.rd (R.HST_EVQ_IDX_CONS q)) % s.queueSize q = 0 then
    s.count (R.HST_EVQ_EVT_DROP q)
  else if s.host.d3.contains 0 then { s with host := { s.host with held := s.host.held ++ [(q, payload)] } }
  else s.putRecord q payload

/-- The event records that waited for D0 are written (R337). -/
def State.flushHeld (s : State) : State :=
  let l := s.host.held
  l.foldl (fun a e => a.putRecord e.1 e.2) { s with host := { s.host with held := [] } }

/-- The payload of an EVENT cell (R341). -/
def State.eventPayload (s : State) (b : Blk) (inst code : Nat) (data : List Byte) : List Byte :=
  natLE (match s.build with | .tile => s.rd (R.RING_STATE_NODE 0) | .head => nodeId s.headNo 0 0) 2 ++ natLE b.typ 2 ++
    natLE inst 1 ++ natLE code 1 ++ natLE 0 2 ++ natLE s.epochNo 4 ++ takePad data 16

/-- The head a tile sends its events to: its master, or its home head (R317). -/
def State.eventHead (s : State) : Nat :=
  if s.on R.CRN_MASTER_HEAD_VALID then s.rd R.CRN_MASTER_HEAD_HEAD else nodeHead (s.rd (R.RING_STATE_NODE 0))

/-- Raise an event: a tile sends an EVENT cell, a head sends it to the lead head or records it in queue 13 (R342). The destination of an event of a tile
without a position is open but for a master's head number: a free value. DESIGN CHOICE, log entry 38. -/
def State.raiseEvent (s : State) (b : Blk) (inst code : Nat) (data : List Byte) : State :=
  let pl := s.eventPayload b inst code data
  match s.build with
  | .tile =>
    let n := s.rd (R.RING_STATE_NODE 0)
    if n = noNode then
      let v := s.freeVal
      s.useFree.originate 0 (fun c => c) tEvent (nodeId (if s.on R.CRN_MASTER_HEAD_VALID then s.eventHead else v / 16) v 0) pl
    else s.originate 0 (fun c => c) tEvent (nodeId s.eventHead (nodeRing n) 0) pl
  | .head =>
    if s.isLead then s.queueEvent 13 pl
    else s.originateSpur s.leadHead (fun c => c) tEvent (nodeId s.leadHead 0 0) pl

/-! ### Master pairs -/

/-- Whether pair (t1, h1) ranks above (t2, h2) (R314). -/
def ranksAbove (t1 h1 t2 h2 : Nat) : Bool := decide (t2 < t1) || (t1 = t2 && decide (h1 < h2))

/-- The term record: the highest term a head has seen on any ring (R315). -/
def termRecordAt : Nat := 6287360

def State.termRecord (s : State) : Nat := s.rd32 .store termRecordAt

def State.seeTerm (s : State) (t : Nat) : State := if s.termRecord < t then s.wr32 .store termRecordAt t else s

/-- A tile's master becomes (term, head) (R314, R320). -/
def State.follow (s : State) (term head : Nat) : State :=
  (((s.setTerm 0 term).wr R.CRN_MASTER_HEAD_HEAD head).wr R.CRN_MASTER_HEAD_VALID 1)

/-- A tile offered a pair follows it when it has no master, or the pair ranks above its master (R314, R317, R320). -/
def State.offerPair (s : State) (term head : Nat) : State :=
  if s.on R.CRN_MASTER_HEAD_VALID then
    if ranksAbove term head (s.term 0) (s.rd R.CRN_MASTER_HEAD_HEAD) then s.follow term head else s
  else s.follow term head

/-- The alias table after a TAKE from `g` to `h`, and whether an entry was dropped (R321). -/
def aliasTake (l : List (Nat × Nat)) (g h : Nat) : List (Nat × Nat) × Bool :=
  let l1 := l.map (fun e => if e.2 = g then (e.1, h) else e)
  let l2 := if l1.any (fun e => e.1 = g) then l1 else l1 ++ [(g, h)]
  let full := decide (32 < l2.length)
  let l3 := if full then l2.drop 1 else l2
  (l3.filter (fun e => e.1 ≠ e.2), full)

/-- The alias update of a TAKE on a node, with its count on a tile (R321). -/
def State.takeAlias (s : State) (g h : Nat) : State :=
  let r := aliasTake s.auth.aliases g h
  let s1 := { s with auth := { s.auth with aliases := r.1 } }
  if r.2 then s1.count R.CRN_EVT_ALIAS else s1

/-! ### Roles and giving up -/

def roleActive : Nat := 0
def roleStandby : Nat := 1
def roleTaking : Nat := 2
def roleResigned : Nat := 3
def roleDeposed : Nat := 4
def roleListen : Nat := 5

/-- All twelve ring ports of a head take a role. -/
def State.allRings (s : State) (role : Nat) : State :=
  forN 12 (fun r a => a.setRingAuth r { a.ringAuth r with role := role }) s

/-- The RESIGN payload (R320). -/
def State.resignPayload (s : State) (term reason : Nat) : List Byte :=
  natLE s.headNo 1 ++ natLE 0 3 ++ natLE term 4 ++ natLE reason 4 ++ natLE s.epochNo 4

/-- The RESIGN cells of R319: out of both ends of every ring the head masters, and out of each Spur port. -/
def State.sendResigns (s : State) (reason : Nat) : State :=
  let s1 := forN 12 (fun r a =>
    if a.masters r then a.originate r (fun c => { c with bcast := true }) tResign noNode (a.resignPayload (a.term r) reason) else a) s
  forN 4 (fun q a =>
    if a.portUp (24 + q) then
      let n := a.ctlSeq (nodeId a.headNo 0 0)
      n.2.2.sendCell (24 + q) (mkCell clsControl tResign (nodeId a.headNo 0 0) noNode n.1 n.2.1 true (a.resignPayload a.termRecord reason))
    else a) s1

/-- The cells that this head has originated on a ring and that still wait are dropped, those of its side ports among them (R316, R319). -/
def State.dropOwn (s0 : State) (r : Nat) : State :=
  let s := { s0 with eth := { s0.eth with ingress := s0.eth.ingress.filter (fun e => !(e.2.1 = 2 * r || e.2.1 = 2 * r + 1)) } }
  let keep (l : List QCell) : List QCell := l.filter (fun q => nodeHead q.cell.src ≠ s.headNo)
  forL [2 * r, 2 * r + 1] (fun id a =>
    let p := a.port id
    a.setPort id { p with q0 := keep p.q0, q1 := keep p.q1, q2 := keep p.q2, q3 := keep p.q3 }) s

/-- Giving up on a head, with a reason of R318: recorded first; with CRN enabled, what it has originated goes no further, RESIGN cells leave, every ring
port forwards and ROLE shows RESIGNED (R319). A head that has already resigned only keeps its first reason. -/
def State.giveUp (s : State) (reason : Nat) : State :=
  match s.build with
  | .tile => s
  | .head =>
    let s1 := if s.rd R.CRN_HEAD_REASON = 0 then s.wr R.CRN_HEAD_REASON reason else s
    if !s.enabled .CRN 0 || s.rd R.CRN_HEAD_ROLE = roleResigned then s1
    else
      let s2 := ((forN 12 (fun r a => a.dropOwn r) s1).sendResigns reason).allRings roleResigned
      (s2.wr R.CRN_HEAD_ROLE roleResigned).raiseEvent .CRN 0 2 (natLE reason 1)

/-- A Cairn disagreement: give-up on a head; on a tile the response of R310 for the item, and an EVENT cell. -/
def State.cairnDisagree (s : State) (item : CairnItem) (copy : Nat) : State :=
  let code := match item with | .lamp => 1 | .epoch => 2 | .term _ => 3
  match s.build with
  | .head => s.giveUp 1
  | .tile =>
    let s1 := match item with
      | .lamp => s.setLampEn false
      | .epoch => { (s.wr R.EPC_STATE_STATE 0) with epc := { s.epc with first := false, good := 0 } }
      | .term _ => (((s.setTerm 0 0).wr R.CRN_MASTER_HEAD_VALID 0).wr R.CRN_MASTER_HEAD_HEAD 0)
    s1.raiseEvent .CRN 0 1 (natLE code 1 ++ natLE copy 1)

end Sys2Proof.Machine
end

