-- ==== Sys2Proof/Machine/ClkOps.lean ====
section
/-! DEFINITION. The clock tree (R88 to R94): the CORE-clocked blocks, CORE gating, fall-back to the RC oscillator, and the hooks
of writes to CLK_PLL_EN and CLK_SEL. -/

namespace Sys2Proof.Machine

/-- The blocks clocked by CORE (R90, R111, R135; DEDUCED, log entry 20). -/
def coreBlks : List Blk := [.EPC, .SCN, .PRS, .DRN, .SRC]

def isCore (b : Blk) : Bool := coreBlks.contains b

/-- CLK_SEL.CUR codes. -/
def curRc : Nat := 0
def curRoot : Nat := 1
def curFallback : Nat := 2

/-- CORE is gated while the device does not run on the root PLL (R92, R93, R94). -/
def State.coreGated (s : State) : Bool := s.rd R.CLK_SEL_CUR ≠ curRoot

/-- All windows of the CORE-clocked blocks the build has. -/
def State.coreWins (s : State) : List (Blk × Nat) :=
  coreBlks.flatMap (fun b => (List.range (b.wins s.build)).map (fun w => (b, w)))

/-- Every CORE-clocked block shows WEDGED (R94). -/
def State.wedgeCore (s : State) : State :=
  let s1 := forL s.coreWins (fun e a => a.setRun e.1 e.2 runWedged) s
  if s.isTile then forN 2 (fun h a => (a.wr (R.SCN_STATUS_ROLE h) 0).wr (R.SCN_INC_INC h) 0) s1 else s1

/-- Loss of root lock: on ROOT the device falls back to the RC oscillator; on RC only the lock bit clears (R94). A clock switch
in progress ends. -/
def State.rootLoss (s : State) : State :=
  let s1 := ((({ s with clk := { switching := none } }).wr R.CLK_PLL_ROOT_LOCK 0).wr R.CLK_SEL_TO_ROOT 0).wr R.CLK_SEL_TO_RC 0
  if s.rd R.CLK_SEL_CUR = curRoot then
    ((s1.wr R.CLK_SEL_CUR curFallback).count R.CLK_EVT_UNLOCK).wedgeCore
  else s1

/-- The reference selected by R89 is present. -/
def State.refPresent (s : State) : Bool := if s.rd R.CLK_REF_SRC = 0 then s.pins.refclkOk else s.pins.xtalOk

/-- Lane PLLs the build has (R90). -/
def lanePlls : Build → Nat
  | .head => 6
  | .tile => 1

/-- After a write to CLK_PLL_EN: bits the build lacks read 0, and a PLL that is stopped shows no lock (R57, R90). -/
def State.pllEnTaken (s : State) : State :=
  let len := s.rd R.CLK_PLL_EN_LANE_EN % 2 ^ lanePlls s.build
  let s1 := s.wr R.CLK_PLL_EN_LANE_EN len
  let s2 := s1.wr R.CLK_PLL_LANE_LOCK (Nat.land (s1.rd R.CLK_PLL_LANE_LOCK) len)
  let s3 := if s2.on R.CLK_PLL_EN_ETH_EN then s2 else s2.wr R.CLK_PLL_ETH_LOCK 0
  let s4 := if s3.on R.CLK_PLL_EN_DRAM_EN then s3 else s3.wr R.CLK_PLL_DRAM_LOCK 0
  if s4.on R.CLK_PLL_EN_ROOT_EN then s4 else s4.wr R.CLK_PLL_ROOT_LOCK 0

/-- A block clocked by CORE is still enabled or not stopped (CLK_SEL.TO_RC). -/
def State.coreBusy (s : State) : Bool :=
  s.coreWins.any (fun e => s.enabled e.1 e.2 || !(s.run e.1 e.2 = runDisabled || s.run e.1 e.2 = runDrained))

/-- Reason codes of LAST_IGN (R59). -/
def rEnabled : Nat := 1
def rDraining : Nat := 2
def rLocked : Nat := 3
def rWriteOnce : Nat := 4
def rHwWins : Nat := 5
def rRange : Nat := 6
def rBusy : Nat := 7
def rLinebuf : Nat := 8
def rActive : Nat := 9

/-- A start of TO_RC or TO_ROOT, or of both at once (R93): the refusal, or the state with the switch begun. -/
def State.clkSelStart (s : State) (toRoot toRc : Bool) : Except Nat State :=
  if !toRoot && !toRc then .ok s
  else if s.rd R.CLK_SEL_CUR = curFallback then .error rBusy
  else if s.clk.switching.isSome then .error rBusy
  else if toRoot && toRc then .error rRange
  else if toRoot then
    if s.rd R.CLK_SEL_CUR = curRoot then .ok s
    else if !s.on R.CLK_PLL_ROOT_LOCK then .error 16
    else .ok (({ s with clk := { switching := some curRoot } }).wr R.CLK_SEL_TO_ROOT 1)
  else if s.rd R.CLK_SEL_CUR = curRc then .ok s
  else if s.coreBusy then .error rBusy
  else .ok (({ s with clk := { switching := some curRc } }).wr R.CLK_SEL_TO_RC 1)

/-- A clock switch completes: CUR shows the target and the command bit clears (R93). ROOT_EN cleared while the switch to ROOT runs clears
the lock bit and does not end the switch (the spec leaves it open; log entry 118). -/
def State.switchDone (s : State) : State :=
  match s.clk.switching with
  | none => s
  | some t => (((({ s with clk := { switching := none } }).wr R.CLK_SEL_CUR t).wr R.CLK_SEL_TO_ROOT 0).wr R.CLK_SEL_TO_RC 0)

end Sys2Proof.Machine
end

