-- ==== Sys2Proof/Machine/BootOps.lean ====
section
/-! DEFINITION. Boot (R102 to R110) and resets (R95 to R99): the boot ROM's steps, the choice of a slot, the watchdog, the load
port, and the full reset as one operation. -/

namespace Sys2Proof.Machine

/-! ### Stages (BOOT_STAGE) -/

def stKeys : Nat := 1
def stClocks : Nat := 2
def stVerify : Nat := 3
def stRunFw : Nat := 4
def stRecovery : Nat := 5
def stNoref : Nat := 6
def stPllFail : Nat := 7

def State.stage (s : State) : Nat := s.rd R.BOOT_STAGE_STAGE

/-- The boot record in force (R102): the copy with the higher sequence number among those whose CRC is correct; of two with one number,
which R102 leaves open, the first (log entry 116). -/
def State.bootRecord (s : State) : Option (BootRecord × Nat) :=
  let a := s.boot.recA
  let b := s.boot.recB
  if a.ok && b.ok then (if a.seq < b.seq then some (b, 1) else some (a, 0))
  else if a.ok then some (a, 0) else if b.ok then some (b, 1) else none

/-- Dword `j` of a key slot holding a digest: first byte of the digest in bits [7:0] of the lowest dword (BOOT_KEY). -/
def digestWord (d j : Nat) : Nat := d / 2 ^ (32 * j) % 4294967296

/-- Write a key slot (R107). -/
def State.writeKey (s : State) (k d : Nat) : State := forN 12 (fun j a => a.wr (R.BOOT_KEY_DIGEST (12 * k + j)) (digestWord d j)) s

/-- The digest a key slot holds. -/
def State.keyDigest (s : State) (k : Nat) : Nat :=
  (List.range 12).foldr (fun j n => s.rd (R.BOOT_KEY_DIGEST (12 * k + j)) + 4294967296 * n) 0

/-- The boot ROM reads the boot record, writes the key slots and DEBUG_LOCK, which closes them, and opens the register bus
(R102, R105, R107, R108). -/
def State.bootKeys (s : State) : State :=
  let r := s.bootRecord
  let rec_ := match r with | some p => p.1 | none => { seq := 0, digests := [0, 0, 0], debugLock := true, minVersion := 0, ok := false }
  let s1 := (((s.writeKey 0 Config.maskRomDigest).writeKey 1 (rec_.digests.getD 0 0)).writeKey 2 (rec_.digests.getD 1 0)).writeKey 3 (rec_.digests.getD 2 0)
  let s2 := (s1.wrB R.BOOT_DEBUG_DEBUG_LOCK rec_.debugLock).wr R.BOOT_MIN_VERSION_VERSION rec_.minVersion
  let s3 := match r with
    | some p => s2.wr R.BOOT_IMG_STATE_REC_COPY p.2
    | none => s2.wr R.BOOT_IMG_STATE_REC_BAD 1
  let s4 := s3.wr R.BOOT_STAGE_STAGE stKeys
  { s4 with bus := { s4.bus with isOpen := true, w1 := R.BOOT_DEBUG_DEBUG_LOCK.key :: ((List.range 48).map (fun j => (R.BOOT_KEY_DIGEST j).key) ++ s4.bus.w1) } }

/-- The boot ROM starts the root PLL (R103). -/
def State.bootPll (s : State) : State :=
  { (s.wr R.CLK_PLL_EN_ROOT_EN 1) with boot := { s.boot with phase := .pllWait } }

/-- Whether an image verifies as firmware (R106, R107): it claims slot 0, the digest of its key equals the slot's, the slot is
not all zero, and the signature verifies. -/
def State.fwSigOk (s : State) (i : ImageCheck) : Bool :=
  i.present && i.firmware && i.keySlot = 0 && i.sigOk && i.keyDigest = s.keyDigest 0 && s.keyDigest 0 ≠ 0

/-- A candidate of R104: verified, at or above the minimum version. -/
def State.fwCandidate (s : State) (i : ImageCheck) : Bool := s.fwSigOk i && decide (s.rd R.BOOT_MIN_VERSION_VERSION ≤ i.version)

/-- The slot choice of R104: slot, version and FALLBACK. -/
def State.chooseSlot (s : State) (a b : ImageCheck) : Option (Nat × Nat × Bool) :=
  let ca := s.fwCandidate a
  let cb := s.fwCandidate b
  if ca && cb then
    let first := if a.version < b.version then 1 else 0
    let fb := decide (2 ≤ s.rd R.BOOT_RESET_CAUSE_WDOG_RUN)
    let slot := if fb then 1 - first else first
    some (slot, (if slot = 0 then a.version else b.version), fb)
  else if ca then some (0, a.version, false)
  else if cb then some (1, b.version, false)
  else none

/-- RECOVERY: no slot has booted, and the load port addresses slot A (R105, R110). -/
def State.enterRecovery (s : State) : State :=
  { ((s.wr R.BOOT_STAGE_STAGE stRecovery).wr R.BOOT_LOAD_STATE_TARGET 0) with boot := { s.boot with phase := .recovery, loadFirst := s.boot.loadFirst || s.rd R.BOOT_LOAD_STATE_TARGET ≠ 0 } }

/-- The Kryty firmware starts: the watchdog's boot period of 500 ms begins (R99, R103). -/
def State.startFw (s : State) (slot ver : Nat) (fb : Bool) : State :=
  let s1 := ((((s.wr R.BOOT_STAGE_STAGE stRunFw).wr R.BOOT_STAGE_SLOT slot).wrB R.BOOT_STAGE_FALLBACK fb).wr R.BOOT_FW_VERSION_VERSION ver).wr R.BOOT_LOAD_STATE_TARGET (1 - slot)
  let p := if s1.wdog.cfgDone then s1.wdog.periodMs else 500
  { s1 with boot := { s1.boot with phase := .run, chosen := none, loadFirst := s1.boot.loadFirst || s.rd R.BOOT_LOAD_STATE_TARGET ≠ 1 - slot },
            wdog := { s1.wdog with running := true, periodMs := p, leftNs := p * 1000000 } }

/-- The boot ROM hands over once a slot is chosen and the memories are clear (R439). -/
def State.handOver (s : State) : State :=
  match s.boot.phase, s.boot.chosen, s.boot.memClear with
  | .verify, some (slot, ver, fb), true => s.startFw slot ver fb
  | _, _, _ => s

/-- Restart the watchdog's count (R99). -/
def State.kickWdog (s : State) : State :=
  if s.wdog.running then { s with wdog := { s.wdog with leftNs := s.wdog.periodMs * 1000000 } } else s

/-- The first valid write to BOOT_WDOG_CFG (R99, R104). -/
def State.wdogCfgTaken (s : State) : State :=
  let p := s.rd R.BOOT_WDOG_CFG_PERIOD
  let s1 := { s with wdog := { s.wdog with periodMs := p, cfgDone := true } }
  let s2 := if s.stage = stRunFw then s1.wr R.BOOT_RESET_CAUSE_WDOG_RUN 0 else s1
  s2.kickWdog

/-! ### The load port (R110) -/

def slotBase (slot : Nat) : Nat := if slot = 0 then 6356992 else 7340032

/-- Dwords in a firmware slot: 960 KiB. -/
def slotWords : Nat := 245760

/-- The field that says a slot is valid. -/
def slotValidF (slot : Nat) : Fld := if slot = 0 then R.BOOT_IMG_STATE_A_VALID else R.BOOT_IMG_STATE_B_VALID

/-- A write to BOOT_LOAD_DATA that is taken: the first clears the target's valid flag; the dword is stored at the pointer, which
advances. Past the end of the slot nothing is stored (log entry 24). -/
def State.loadData (s : State) (v : Nat) : State :=
  let t := s.rd R.BOOT_LOAD_STATE_TARGET
  let s1 := if s.boot.loadFirst then { (s.wr (slotValidF t) 0) with boot := { s.boot with loadFirst := false } } else s
  let p := s1.rd R.BOOT_LOAD_PTR_OFFSET
  if p < slotWords then (s1.wr32 .store (slotBase t + 4 * p) v).wr R.BOOT_LOAD_PTR_OFFSET (p + 1) else s1

/-- The load-port verification completes (R110). An image below the minimum version counts in BOOT_EVT_VERIFY_FAIL as a failed one does,
and in RECOVERY a pass returns the pointer to 0 and lets the next write clear the valid flag although TARGET names slot B already (the
spec leaves both open; log entries 25 and 117). -/
def State.loadVerified (s : State) (i : ImageCheck) : State :=
  let t := s.rd R.BOOT_LOAD_STATE_TARGET
  let s0 := s.wr R.BOOT_LOAD_CMD_VERIFY 0
  if !s.fwSigOk i then (s0.wr R.BOOT_LOAD_STATE_RESULT 2).count R.BOOT_EVT_VERIFY_FAIL
  else if i.version < s.rd R.BOOT_MIN_VERSION_VERSION then (s0.wr R.BOOT_LOAD_STATE_RESULT 3).count R.BOOT_EVT_VERIFY_FAIL
  else
    let s1 := (s0.wr R.BOOT_LOAD_STATE_RESULT 1).wr (slotValidF t) 1
    if s.stage = stRecovery then
      { ((s1.wr R.BOOT_LOAD_STATE_TARGET 1).wr R.BOOT_LOAD_PTR_OFFSET 0) with boot := { s1.boot with loadFirst := true } }
    else s1

/-! ### Full reset (R95) -/

/-- The bit of BOOT_RESET_CAUSE.CAUSE. -/
def ResetCause.bit : ResetCause → Nat
  | .por => 1
  | .pin => 2
  | .cmd => 4
  | .wdog => 8
  | .lockstep => 16

/-- The keys of the MRAM store, which every reset keeps (R95). -/
def inStore (k : Nat) : Bool := decide (1099511627776 ≤ k ∧ k < 2 * 1099511627776)

/-- The register fields a full reset keeps beside the store: the detected reference and the wake record (R95, R414). -/
def keptFlds : List Fld :=
  [R.CLK_REF_SRC, R.PWR_WAKE_REC_SOURCE, R.PWR_WAKE_REC_RETRIES, R.PWR_WAKE_REC_LANE, R.PWR_WAKE_REC_FROM, R.PWR_WAKE_REC_STRANDED,
   R.PWR_WAKE_EPOCH_EPOCH]

/-- A full reset with its cause (R95): every register, the epoch counter, the memories, DRAM, counters and Stranded clear; the
store, the wake record, WDOG_RUN and the detected reference stay; the outputs take the states of R96; the boot ROM starts when
RESET_N is high (R103). -/
def State.fullReset (s : State) (cause : ResetCause) : State :=
  let f := State.fresh s.build s.pins
  let kept := match cause with | .por => [] | _ => keptFlds.map (fun (k : Fld) => (k.key, s.rd k))
  let run := match cause with
    | .por => 0
    | .wdog => min 15 (s.rd R.BOOT_RESET_CAUSE_WDOG_RUN + 1)
    | _ => s.rd R.BOOT_RESET_CAUSE_WDOG_RUN
  let g := { f with
    regs := forL kept (fun e l => Sparse.put l e.1 e.2) f.regs
    mem := s.mem.filter (fun c => inStore c.1)
    boot := { f.boot with phase := if s.pins.resetLow || !s.pins.railPg then .held else .detect, recA := s.boot.recA, recB := s.boot.recB,
                          roseNs := s.boot.roseNs, porDue := s.boot.porDue && decide (cause ≠ ResetCause.por) }
    auth := { f.auth with listenTerm := s.rd32 .store termRecordAt }
    eth := { f.eth with ptpAt := s.nowNs }
    out := if s.gpioOe = 0 then s.out else .gpio 0 0 :: s.out
    freeCtr := s.freeCtr
    nowNs := s.nowNs
    pending := s.pending }
  (g.wr R.BOOT_RESET_CAUSE_CAUSE cause.bit).wr R.BOOT_RESET_CAUSE_WDOG_RUN run

end Sys2Proof.Machine
end

