-- ==== Sys2Proof/Machine/RegOps.lean ====
section
/-! DEFINITION. What an address names (R55, R57, R58, R74, R86, R87), what a field reads as, and a read of a dword (R56, R80). -/

namespace Sys2Proof.Machine

/-! ### Bus error reasons (R74) -/

def beReserved : Nat := 1
def beAbsent : Nat := 2
def beUnmapped : Nat := 3
def bePartial : Nat := 4
def beTooLong : Nat := 5
def beOff : Nat := 6
def beNoNode : Nat := 7
def beAbsentNode : Nat := 8
def beRemote : Nat := 9

def Path.code : Path → Nat
  | .kryty => 1
  | .pcie => 2
  | .remote => 3
  | .mgt => 4

def View.code : View → Nat
  | .base => 0
  | .set => 1
  | .clr => 2
  | .tog => 3

/-- The view a byte address of the map selects (R53). -/
def viewAt (a : Nat) : View := match a / 4096 % 4 with | 0 => .base | 1 => .set | 2 => .clr | _ => .tog

/-! ### The memory window (R87) -/

/-- The regions of the memory window. -/
inductive Region where
  | loopProg | pressList (h : Nat) | palette (h : Nat) | mendList | ffTable | rowLoad | darnAp (h : Nat) | lampMap
  deriving DecidableEq, Repr

/-- The region an address of the window lies in. -/
def regionAt (a : Nat) : Option Region :=
  if a < 0x100000 then none
  else if a < 0x110000 then some .loopProg
  else if a < 0x111000 then some (.pressList 0)
  else if a < 0x112000 then some (.pressList 1)
  else if a < 0x116000 then some (.palette 0)
  else if a < 0x11A000 then some (.palette 1)
  else if a < 0x120000 then none
  else if a < 0x128000 then some .mendList
  else if a < 0x128C00 then some .ffTable
  else if a < 0x129000 then some .rowLoad
  else if a < 0x140000 then none
  else if a < 0x160000 then some (.darnAp 0)
  else if a < 0x180000 then some (.darnAp 1)
  else if a < 0x1C0000 then some .lampMap
  else none

/-- The block that owns a region, and its window (R87); the lamp map's owner depends on the sink. -/
def Region.owner (r : Region) (a : Nat) : Blk × Nat :=
  match r with
  | .loopProg => (.LOP, 0)
  | .pressList h => (.PRS, h)
  | .palette h => (.LYR, h)
  | .mendList => (.DRN, 0)
  | .ffTable => (.LOP, 0)
  | .rowLoad => (.LOP, 0)
  | .darnAp h => (.DRN, h)
  | .lampMap => (.DRN, if (a - 0x180000) / 4 % 1024 < 512 then 0 else 1)

def Region.onBuild (r : Region) (b : Build) : Bool := match r, b with | .loopProg, _ => true | _, .tile => true | _, .head => false

/-! ### Registers -/

/-- The number of instances of a row on a build: a tile has two ring ports (R58). -/
def Row.insts (r : Row) (b : Blk) (bd : Build) : Nat := if b = .RING ∧ bd = .tile then min r.n1 2 else r.n1

def Row.onBuild (r : Row) (bd : Build) : Bool := match r.build, bd with | .headOnly, .tile => false | .tileOnly, .head => false | _, _ => true

/-- Whether the row is at a page offset: the distance of its fields from the first window's first instance, and whether the
offset is the high dword of a 64-bit register (R80). -/
def Row.at (r : Row) (b : Blk) (bd : Build) (w off : Nat) : Option (Nat × Bool) :=
  if !r.onBuild bd || (r.first && w ≠ 0) || off < r.off then none
  else
    let d := off - r.off
    let i := if r.s1 = 0 then 0 else d / r.s1
    let m := if r.s1 = 0 then d else d % r.s1
    let j := if r.s2 = 0 then 0 else m / r.s2
    let m2 := if r.s2 = 0 then m else m % r.s2
    if r.insts b bd ≤ i || r.n2 ≤ j then none
    else if m2 = 0 then some (16384 * w + i * r.s1 + j * r.s2, false)
    else if m2 = 4 && r.flds.any (fun f => f.width = 64) then some (16384 * w + i * r.s1 + j * r.s2, true)
    else none

/-- The header registers that are no row: the counters, LAST_IGN and PAGE_CRC (R59). -/
def headerFlds (pg off : Nat) : Option (List Fld) :=
  if off = 0xC then some [R.EVT_CFG_IGN pg]
  else if off = 0x10 then some [R.EVT_LOCK_IGN pg]
  else if off = 0x14 then some [R.IGN_OFFSET pg, R.IGN_VIEW pg, R.IGN_PATH pg, R.IGN_REASON pg]
  else if off = 0x18 then some [R.PAGE_CRC pg]
  else none

/-- The fields at a page offset of a block's window, in ascending bit order, and whether it is a high dword; none at a reserved
offset (R57). -/
def fldsAt (b : Blk) (bd : Build) (w off : Nat) : Option (List Fld × Bool) :=
  match headerFlds (b.pg w) off with
  | some l => some (l, false)
  | none => b.rows.findSome? (fun r => (r.at b bd w off).map (fun p => (r.flds.map (fun f => f.shift p.1), p.2)))

/-! ### What a field reads as -/

def inRange (a lo n : Nat) : Bool := decide (lo ≤ a ∧ a < lo + n)

/-- Whether a stored field is a 32-bit CT field (R79). -/
def isCt32 (bd : Build) (k : Nat) : Bool :=
  let a := k / 32
  match winBlk (a / 16384) with
  | none => false
  | some (b, w) => match fldsAt b bd w (a % 16384) with
    | none => false
    | some (l, _) => l.any (fun f => f.key = k && f.cls = .ct && f.width = 32)

/-- STATE.SAT: a 32-bit CT field of the page holds 0xFFFF_FFFF (R79). -/
def State.pageSat (s : State) (pg : Nat) : Bool :=
  s.regs.any (fun e => e.2 = 4294967295 && inRange (e.1 / 32) pg 4096 && isCt32 s.build e.1)

/-- The destination-table entry that ETH_DT_IDX selects (R350). -/
def DtEntry.zero : DtEntry := { mac := 0, vid := 0, anyvid := false, valid := false, dir := 0, port := 0, node := 0 }

def State.dtEntry (s : State) : DtEntry := Sparse.look s.eth.table (s.rd R.ETH_DT_IDX_IDX) DtEntry.zero

/-- An entry of the table of replaced heads as CRN_ALIAS and SPR_ALIAS show it: oldest first (R321; the place of an entry is the
model's choice, log entry 27). -/
def State.aliasView (s : State) (j lsb : Nat) : Nat :=
  match s.auth.aliases[j]? with
  | none => 0
  | some e => if lsb = 0 then e.1 else if lsb = 8 then e.2 else 1

/-- The lowest and the next field of the vote register (CRN_VOTE): a stored item's copies disagree now. -/
def Tri.disagrees (t : Tri) : Bool := !(t.c0 = t.c1 && t.c1 = t.c2)

/-- The value of a field as software reads it: stored, or taken from the state it mirrors (R16, R17 "live"). -/
def State.view (s : State) (f : Fld) : Nat :=
  if f.lsb = 17 && f.addr % 16384 = 8 then b2n (s.pageSat (f.addr - 8))
  else if f = R.CLK_REF_REFCLK_OK then b2n s.pins.refclkOk
  else if f = R.CLK_REF_XTAL_OK then b2n s.pins.xtalOk
  else if f = R.BOOT_WDOG_LEFT_MS then (if s.wdog.running then s.wdog.leftNs / 1000000 else 0)
  else if f = R.CRN_CTRL_LAMP_EN then s.cairn.lamp.voted
  else if f = R.CRN_MASTER_TERM_TERM then (match s.build with | .tile => (Sparse.look s.cairn.terms 0 (Tri.set 0)).voted | .head => 0)
  else if f = R.CRN_VOTE_DIS_TERM then b2n (s.cairn.terms.any (fun e => e.2.disagrees))
  else if f = R.CRN_VOTE_DIS_EPOCH then b2n s.cairn.epoch.disagrees
  else if f = R.CRN_VOTE_DIS_LAMP then b2n s.cairn.lamp.disagrees
  else if inRange f.addr 0x14100 48 then s.term ((f.addr - 0x14100) / 4)
  else if inRange f.addr 0x14200 128 then s.aliasView ((f.addr - 0x14200) / 4) f.lsb
  else if inRange f.addr 0x2C400 128 then s.aliasView ((f.addr - 0x2C400) / 4) f.lsb
  else if f = R.EPC_EPOCH_EPOCH then s.epochNo
  else if f = R.EPC_ORIGIN_LO_NS || f = R.EPC_ORIGIN_HI_NS then (match s.build with | .tile => 0 | .head => s.rd f)
  else if f = R.CRN_CTRL_LEAD_HALF then (match s.build with | .tile => s.rd f | .head => 0)
  else if f = R.GPIO_IN_IN then s.pins.gpioIn
  else if f = R.MGT_STATE_ADDR_VALID then b2n (decide (8 ≤ s.rd R.MGT_STATE_ADDR ∧ s.rd R.MGT_STATE_ADDR < 120))
  else if f = R.HST_REMOTE_OUTSTANDING then s.host.remotes.length
  else if f = R.ETH_DT_MAC_LO_MAC then s.dtEntry.mac % 4294967296
  else if f = R.ETH_DT_MAC_HI_MAC then s.dtEntry.mac / 4294967296
  else if f = R.ETH_DT_MAC_HI_VID then s.dtEntry.vid
  else if f = R.ETH_DT_MAC_HI_ANYVID then b2n s.dtEntry.anyvid
  else if f = R.ETH_DT_ACT_VALID then b2n s.dtEntry.valid
  else if f = R.ETH_DT_ACT_DIR then s.dtEntry.dir
  else if f = R.ETH_DT_ACT_PORT then s.dtEntry.port
  else if f = R.ETH_DT_ACT_NODE then s.dtEntry.node
  else s.rd f

/-- The dword the low 32 bits of these fields make. -/
def State.packFlds (s : State) (l : List Fld) : Nat :=
  l.foldr (fun f n => s.view f % 4294967296 * 2 ^ f.lsb + n) 0

/-- The ID register (R59). -/
def idWord (b : Blk) (w : Nat) : Nat := b.typ * 65536 + w * 256 + 1

end Sys2Proof.Machine
end

