-- ==== Sys2Proof/Machine/RidgeOps.lean ====
section
/-! DEFINITION. Ridge ports and lanes: bring-up (R280 to R283), ports going up and down (R299), neighbours (R298), discovery
(R297), delay measurement (R300, R293), forwarding (R288, R289), the output scheduler (R291, R292), test cells (R305), and the
hooks of the LNE, RING and SPR pages. -/

namespace Sys2Proof.Machine

/-! ### Lanes of a port -/

def laneCount : Build → Nat
  | .head => 48
  | .tile => 8

/-- The instance enable of a port. -/
def portEnF (id : Nat) : Fld := if isSpur id then R.SPRP_CFG_ENABLE (id - 24) else R.RING_CFG_ENABLE (portRing id)

/-- The ports of a build. -/
def allPorts : Build → List Nat
  | .head => List.range 28
  | .tile => [0, 2]

/-- A port may use a lane: its LNE window and the lane are enabled (R58). -/
def State.laneOn (s : State) (k : Nat) : Bool := s.enabled .LNE (k / 8) && s.on (R.LNE_CFG_ENABLE k)

/-- A port runs: its instance, its page and its lanes are enabled (R58). -/
def State.portOn (s : State) (id : Nat) : Bool :=
  s.on (portEnF id) && (if isSpur id then s.enabled .SPR 0 else s.enabled .RING (portRing id / 4)) && (s.portLanes id).all s.laneOn

/-- The port that uses a lane. -/
def State.laneOwner (s : State) (k : Nat) : Option Nat :=
  (allPorts s.build).find? (fun id => s.portOn id && (s.portLanes id).contains k)

/-- The ports an instance enable brings: both ends of a head's ring port, or the one port. -/
def enablePorts (b : Build) (id : Nat) : List Nat :=
  match b with
  | .head => if isSpur id then [id] else [2 * portRing id, 2 * portRing id + 1]
  | .tile => [id]

def noDup : List Nat → Bool
  | [] => true
  | a :: t => !t.contains a && noDup t

/-- The lane check at the enable of a ring or Spur port (RINGp_CFG, SPRp_CFG): LANES (0x10) when a lane is not a multiple of the
width, overlaps another enabled port, or is not enabled itself. -/
def State.lanesBad (s : State) (id : Nat) : Bool :=
  let mine := enablePorts s.build id
  let lanes := mine.flatMap (fun i => s.portLanes i)
  let others := (allPorts s.build).filter (fun i => !mine.contains i && s.on (portEnF i))
  let taken := others.flatMap (fun i => s.portLanes i)
  mine.any (fun i => s.portLane0 i % s.portWidth i ≠ 0) || !noDup lanes || lanes.any (fun k => taken.contains k) ||
    lanes.any (fun k => decide (laneCount s.build ≤ k) || !s.on (R.LNE_CFG_ENABLE k))

/-- All lanes of a port take a stage. -/
def State.setStage (s : State) (id st : Nat) : State := forL (s.portLanes id) (fun k a => a.wr (R.LNE_STATE_STAGE k) st) s

/-- All lanes of a port take a transmit and receive power state (R302): 0 ACTIVE, 1 QUIET, 2 SLEEP, 3 OFF. -/
def State.setLanePs (s : State) (id tx rx : Nat) : State :=
  forL (s.portLanes id) (fun k a => (a.wr (R.LNE_STATE_TXPS k) tx).wr (R.LNE_STATE_RXPS k) rx) s

/-- All lanes of a port take a transmit power state. -/
def State.setLaneTx (s : State) (id tx : Nat) : State := forL (s.portLanes id) (fun k a => a.wr (R.LNE_STATE_TXPS k) tx) s

/-- Every lane of the port is in its codeword stream and ACTIVE: cells can leave on them (R280, R302). -/
def State.lanesSend (s : State) (id : Nat) : Bool :=
  (s.portLanes id).all (fun k => (s.port id).coded.contains k && s.rd (R.LNE_STATE_TXPS k) = 0)

/-- Bring-up begins: every lane in stage 1 (R281). -/
def State.startTraining (s : State) (id : Nat) : State :=
  let p := s.port id
  let s1 := s.setPort id { p with q0 := [], q1 := [], q2 := [], q3 := [], passed := [], neighOk := false, measuring := false, dlySent := 0, dlyRes := [], dlyNext := none,
                                  farReady := [], coded := [], waking := false, line := LineTx.init }
  ((s1.wr (portStF id) (s.shownTraining id)).setStage id 1).setLanePs id 0 0

/-! ### Links by name (R299) -/

/-- The number a node names a port's link by: the position of the link's lower end; 63 towards end B or a standby. -/
def State.linkNo (s : State) (id : Nat) : Nat :=
  match s.build with
  | .tile =>
    if id = 0 then nodePos (s.rd (R.RING_STATE_NODE 0)) - 1
    else if s.on (R.RING_NEIGH_A_VALID 1) && decide (2 ≤ s.rd (R.RING_NEIGH_A_ROLE 1)) then 63
    else nodePos (s.rd (R.RING_STATE_NODE 0))
  | .head => if portEnd id = 0 && !s.reversedRing (portRing id) then 0 else 63

/-- Record a lost link in RINGp_BREAK of a ring port; a third is not recorded (R299). -/
def State.breakAdd (s : State) (p link : Nat) : State :=
  let v1 := s.on (R.RING_BREAK_V1 p)
  let v2 := s.on (R.RING_BREAK_V2 p)
  if (v1 && s.rd (R.RING_BREAK_POS1 p) = link) || (v2 && s.rd (R.RING_BREAK_POS2 p) = link) then s
  else if !v1 then (s.wr (R.RING_BREAK_POS1 p) link).wr (R.RING_BREAK_V1 p) 1
  else if !v2 then (s.wr (R.RING_BREAK_POS2 p) link).wr (R.RING_BREAK_V2 p) 1
  else s

/-- Remove a link from RINGp_BREAK; the other entry stays where it is (R299). -/
def State.breakDel (s : State) (p link : Nat) : State :=
  let s1 := if s.on (R.RING_BREAK_V1 p) && s.rd (R.RING_BREAK_POS1 p) = link then (s.wr (R.RING_BREAK_POS1 p) 0).wr (R.RING_BREAK_V1 p) 0 else s
  if s1.on (R.RING_BREAK_V2 p) && s1.rd (R.RING_BREAK_POS2 p) = link then (s1.wr (R.RING_BREAK_POS2 p) 0).wr (R.RING_BREAK_V2 p) 0 else s1

/-- The ring-port instances that show a ring's break: a tile shows its ring's in both. -/
def breakPorts (b : Build) (id : Nat) : List Nat := match b with | .tile => [0, 1] | .head => [portRing id]

def State.noteBreak (s : State) (id link : Nat) : State := forL (breakPorts s.build id) (fun p a => a.breakAdd p link) s
def State.noteUp (s : State) (id link : Nat) : State := forL (breakPorts s.build id) (fun p a => a.breakDel p link) s

/-- Whether a node may send LINKDOWN and LINKUP: a tile needs a position (R299). -/
def State.hasPosition (s : State) : Bool := match s.build with | .tile => s.rd (R.RING_STATE_NODE 0) ≠ noNode | .head => true

/-- A broadcast link-management cell out of a node's other port (R299, R441). -/
def State.linkCell (s : State) (id typ link : Nat) : State :=
  if !s.hasPosition || (!isSpur id && s.mute (portRing id)) then s
  else
    let node := s.selfId id
    let q := s.ctlSeq node
    let o := otherPort s.build id
    q.2.2.sendCell o { mkCell clsControl typ node noNode q.1 q.2.1 true (natLE link 1) with dir := s.dirOut o }

/-- The frames in reassembly that lose their fragments with a condition: each is discarded, and counted if it was not yet (R351, R354). -/
def State.loseFrames (s : State) (f : Reasm → Bool) : State :=
  let l := s.eth.reasm
  forL (l.filter (fun r => f r && !r.bad)) (fun r a => a.count (R.ETHP_EVT_REASM r.port)) { s with eth := { s.eth with reasm := l.filter (fun r => !f r) } }

/-- A port's lanes are lost: its queues, what it has measured, and the frames that came by it go with them (R299, R354). -/
def State.portLost (s : State) (id st : Nat) : State :=
  let p := s.port id
  let s0 := s.setPort id { p with q0 := [], q1 := [], q2 := [], q3 := [], sharing := false, neighOk := false, passed := [],
                                  measuring := false, dlySent := 0, dlyRes := [], coded := [], waking := false }
  (s0.wr (portStF id) st).loseFrames (fun r => r.via = id)

/-- A ring or Spur port that was UP goes DOWN: it is counted, the loss is recorded and told (R299). -/
def State.portDown (s : State) (id st : Nat) : State :=
  let s0 := s.portLost id st
  let s1 := s0.setPort id { s0.port id with wasDown := true }
  if isSpur id then s1.count (R.SPRP_EVT_DOWN (id - 24))
  else
    let link := s.linkNo id
    let s2 := s1.count (R.RING_EVT_DOWN (portRing id))
    let s3 := if s.hasPosition then (s2.linkCell id tLinkdown link).noteBreak id link else s2
    s3.raiseEvent .RING (portRing id / 4) 1 (natLE (portRing id) 1)

/-- Start or stop a port with its enables (R58, R69): at its stop its cells are dropped and its lanes go off, and one that was UP, though it sleeps or is on
its way back from SLEEP, goes DOWN (R299). -/
def State.portStart (s : State) (id : Nat) : State :=
  let s1 := match s.build with
    | .tile => s.clearKeys
    | .head => if isSpur id then s else s.wr (R.RING_STATE_NODE (portRing id)) (nodeId s.headNo (portRing id) 0)
  s1.startTraining id

def State.portStop (s : State) (id : Nat) : State :=
  let s1 := if s.portState id = 2 || ((s.port id).waking && s.loopOf id = 0) then s.portDown id 0 else s.wr (portStF id) 0
  ((s1.setPort id { s1.port id with q0 := [], q1 := [], q2 := [], q3 := [], fails := 0 }).setStage id 0).setLanePs id 3 3

/-! ### Bring-up -/

/-- A stage fails: the failing lane counts and records it, every lane returns to stage 1, and after 8 consecutive failures the
port shows FAILED (R282). A port that fails on its way back from SLEEP goes DOWN (R299). -/
def State.stageFail (s : State) (id k reason : Nat) : State :=
  let st := s.rd (R.LNE_STATE_STAGE k)
  let s0 := if (s.port id).waking && s.loopOf id = 0 then s.portDown id 1 else s
  let s1 := ((s0.wr (R.LNE_STATE_LAST_FAIL k) st).wr (R.LNE_STATE_REASON k) reason).count (R.LNE_EVT_RETRY k)
  let p := s1.port id
  let s2 := s1.setPort id { p with fails := p.fails + 1, passed := [], neighOk := false, measuring := false, dlySent := 0, dlyRes := [],
                                   dlyNext := none, farReady := [], coded := [], waking := false, line := LineTx.init }
  if 8 ≤ p.fails + 1 then (s2.wr (portStF id) (s.shownFailed id)).setStage id 12
  else (s2.wr (portStF id) (s.shownTraining id)).setStage id 1

/-- A link-local cell can be sent: the port is UP, or comes up and every lane is in its codeword stream (R280). -/
def State.localOut (s : State) (id : Nat) : Bool := s.portUp id || (s.training id && s.lanesSend id)

/-- Cells sent on a ring port, IDLE cells excepted (TX_CELLS). -/
def State.countSent (s : State) (id : Nat) : State := if isSpur id then s else s.bump (R.RING_TX_CELLS (portRing id)) 1

/-- A link-local cell of this port: DEST 0xFFFF, BCAST 0, SEQ 0 (R441). On a port that is UP it waits in the control queue (R291); one that comes up has no
cell boundaries yet, and it goes straight onto the wire, before every lane is in its codeword stream none (R280). -/
def State.sendLocal (s : State) (id typ : Nat) (payload : List Byte) : State :=
  let c := { mkCell clsControl typ (s.selfId id) noNode 0 false false payload with dir := s.dirOut id }
  if s.portUp id then s.sendCell id c
  else if s.training id && s.lanesSend id then (s.countSent id).wireCell id (sealCell c false) false
  else s

/-- PRECODE_TX of the port's lanes, bit l for port lane l. -/
def State.precodeBits (s : State) (id : Nat) : Nat :=
  (s.portLanes id).foldr (fun k n => s.rd (R.LNE_CFG_PRECODE_TX k) + 2 * n) 0

/-- The NEIGH payload of a port (R441). -/
def State.neighPayload (s : State) (id : Nat) : List Byte :=
  let role := match s.build with | .tile => 1 | .head => if s.rd R.CRN_HEAD_ROLE = roleActive then 2 else 3
  let node := s.selfId id
  let home := match s.build with | .tile => (if node = noNode then 0 else nodeHead node) | .head => s.headNo
  let ring := match s.build with | .tile => (if node = noNode then 0 else nodeRing node) | .head => if isSpur id then 0 else portRing id
  let prt := match s.build with | .tile => id / 2 | .head => if isSpur id then id - 24 else portEnd id
  let w := if isSpur id then s.rd (R.SPRP_CFG_WIDTH (id - 24)) else s.rd (R.RING_CFG_WIDTH (portRing id))
  natLE node 2 ++ natLE role 1 ++ natLE home 1 ++ natLE ring 1 ++ natLE prt 1 ++ natLE w 1 ++ natLE (s.precodeBits id) 1

/-- The DISCOVER cell of a head from end A (R297, R441). -/
def State.sendDiscover (s : State) (p : Nat) : State :=
  let node := nodeId s.headNo p 0
  let q := s.ctlSeq node
  if s.mute p then s else q.2.2.sendCell (2 * p) { mkCell clsControl tDiscover node noNode q.1 q.2.1 true (natLE s.headNo 1 ++ natLE p 1) with dir := s.dirOut (2 * p) }

/-- The port is UP after stage 10 (R281): LINKUP when it had gone down (R299), DISCOVER when a head's end A first comes up
(R297). In a loopback it shows LOOP, and is not UP (R304). -/
def State.portIsUp (s : State) (id : Nat) : State :=
  let p := s.port id
  let s1 := ((s.setPort id { p with fails := 0, waking := false, upOnce := p.upOnce || s.loopOf id = 0 }).setStage id 11).wr (portStF id)
    (s.shownUp id)
  if isSpur id || s.loopOf id ≠ 0 then s1
  else
    let s2 := if p.wasDown && s1.hasPosition then (s1.linkCell id tLinkup (s.linkNo id)).noteUp id (s.linkNo id) else s1
    match s.build with
    | .tile => s2
    | .head => if portEnd id = 0 && !p.upOnce then s2.sendDiscover (portRing id) else s2

/-- Stage 4: the reported order is the identity or a full reversal (R283). -/
def orderOk (lanes : List Nat) (rep : List (Nat × Nat)) (rev : Bool) : Bool :=
  let n := lanes.length
  (List.range n).all (fun i => Sparse.get rep (lanes.getD i 0) = some (if rev then n - 1 - i else i))

/-- `n` bits of PRBS13, x^13 + x^12 + x^2 + x + 1, from a state of its register (PRESUMED, log entry 123). -/
def prbs13 (x : Nat) : Nat → List Bool
  | 0 => []
  | n + 1 =>
    let b := (x / 4096 + x / 2048 + x / 2 + x) % 2
    (b = 1) :: prbs13 ((x * 2 + b) % 8192) n

/-- A training frame of a lane (R280): what the frame carries beside its marker pattern. The FFE requests of this receiver and the state that the
PRBS13 starts from are open. DESIGN CHOICE, log entry 123. -/
def State.sendTraining (s : State) (id k : Nat) (ready : Bool) : State :=
  let v := s.freeVal
  let w := s.useFree.freeVal
  s.useFree.useFree.emit (.training k (k - s.portLane0 id) (s.portWidth id) (s.rd (R.LNE_CFG_PRECODE_TX k)) v
    (s.rd (R.LNE_FFE_PRE k) + 64 * s.rd (R.LNE_FFE_MAIN k) + 4096 * s.rd (R.LNE_FFE_POST k)) ready (prbs13 (w % 8192) Config.trainingBits))

/-- The lanes of a port that have come to stage 3 and are not yet in their codeword stream send training frames; ready: stage 5 is passed
(R280). -/
def State.trainingFrames (s : State) (id : Nat) : State :=
  forL ((s.portLanes id).filter (fun k => decide (3 ≤ s.rd (R.LNE_STATE_STAGE k) ∧ s.rd (R.LNE_STATE_STAGE k) ≤ 10) && !(s.port id).coded.contains k))
    (fun k a => a.sendTraining id k (decide (6 ≤ s.rd (R.LNE_STATE_STAGE k)))) s

/-- A lane's transmitter changes to the codeword stream once its own receiver has passed stage 5 and the far end has shown ready (R280). -/
def State.codeSync (s : State) (id k : Nat) : State :=
  let p := s.port id
  if p.farReady.contains k && !p.coded.contains k && decide (6 ≤ s.rd (R.LNE_STATE_STAGE k)) then s.setPort id { p with coded := k :: p.coded } else s

/-- The far end's frames show ready, or a lane has passed stage 5 (R280). -/
def State.trained (s : State) (id k : Nat) (ready : Bool) : State :=
  let p := s.port id
  (if ready && !p.farReady.contains k then s.setPort id { p with farReady := k :: p.farReady } else s).codeSync id k

/-- A lane, or its port, completes the stage it is in (R281); a port that returns from SLEEP is UP again after stage 8 (R302). -/
def State.stageStep (s : State) (id k : Nat) (i : StageInfo) : State :=
  let st := s.rd (R.LNE_STATE_STAGE k)
  let p := s.port id
  if st = 1 ∨ st = 2 ∨ st = 6 ∨ st = 7 then s.wr (R.LNE_STATE_STAGE k) (st + 1)
  else if st = 3 then
    if i.inverted && !s.on (R.LNE_CFG_POL_AUTO k) then s.stageFail id k 0
    else (s.wrB (R.LNE_STATE_RX_INV k) i.inverted).wr (R.LNE_STATE_STAGE k) 4
  else if st = 4 then
    let rep := Sparse.put p.passed k i.laneIndex
    let s1 := s.setPort id { p with passed := rep }
    let lanes := s.portLanes id
    if rep.length < lanes.length then s1
    else if orderOk lanes rep false then forL lanes (fun l a => (a.wr (R.LNE_STATE_REVERSED l) 0).wr (R.LNE_STATE_STAGE l) 5) s1
    else if orderOk lanes rep true then forL lanes (fun l a => (a.wr (R.LNE_STATE_REVERSED l) 1).wr (R.LNE_STATE_STAGE l) 5) s1
    else s1.stageFail id k 2
  else if st = 5 then
    if i.farPrecode ≠ s.on (R.LNE_CFG_PRECODE_RX k) then s.stageFail id k 1
    else if i.eye < 30 then s
    else
      let s1 := (s.wr (R.LNE_STATE_EYE_H k) (min 255 (i.eye / 2))).wr (R.LNE_STATE_STAGE k) 6
      if s.on (R.LNE_CFG_FFE_FIX k) then s1
      else ((s1.wr (R.LNE_FFE_PRE k) i.pre).wr (R.LNE_FFE_MAIN k) i.main).wr (R.LNE_FFE_POST k) i.post
  else if st = 8 then
    if !s.allAt id 8 then s
    else if p.waking then ((s.setStage id 11).wr (portStF id) (s.shownUp id)).setPort id { p with waking := false }
    else (s.setStage id 9).sendLocal id tNeigh (s.neighPayload id)
  else if st = 9 then
    if p.neighOk && s.lanesSend id then (s.setStage id 10).setPort id { p with measuring := true, dlySent := 0, dlyRes := [] } else s
  else if st = 10 then
    if p.dlyNext.isSome && !p.measuring then s.portIsUp id else s
  else s

/-- A lane that completes a stage receives the far end's signal: its receive direction has left SLEEP (R302). -/
def State.rxWakes (s : State) (k : Nat) : State := if s.rd (R.LNE_STATE_RXPS k) = 2 then s.wr (R.LNE_STATE_RXPS k) 0 else s

/-- LANE_STAGE_DONE of a lane. A NEIGH cell that had to wait for the codeword stream leaves with it (R280, R281). -/
def State.stageDone (s : State) (id k : Nat) (i : StageInfo) : State :=
  let s1 := ((s.rxWakes k).stageStep id k i).trainingFrames id
  let s2 := s1.trained id k i.farReady
  if s2.allAt id 9 && s2.lanesSend id && !s1.lanesSend id then s2.sendLocal id tNeigh (s2.neighPayload id) else s2

/-! ### Neighbours (R298, R344) -/

/-- The position a tile takes from a west neighbour: its position plus 1, end A of a head counting as position 0. -/
def westGives (role node prt : Nat) : Option Nat :=
  if role = 1 then (if node = noNode then none else if nodePos node + 1 ≤ 63 then some (nodePos node + 1) else none)
  else if prt = 0 then some 1 else none

/-- The position a tile takes from an east neighbour: its position minus 1, when it is a tile that holds one. -/
def eastGives (role node : Nat) : Option Nat :=
  if role = 1 ∧ node ≠ noNode ∧ 2 ≤ nodePos node then some (nodePos node - 1) else none

/-- A tile's node ID in both instances (R7, R25). -/
def State.setNode (s : State) (n : Nat) : State :=
  if 12 ≤ nodeRing n then s else (s.wr (R.RING_STATE_NODE 0) n).wr (R.RING_STATE_NODE 1) n

/-- Whether the tile's position is the one that its east neighbour gave (R298). -/
def State.eastGave (s : State) (b : Bool) : State := s.setPort 2 { s.port 2 with gavePos := b }

/-- Whether a head's ring end accepts a neighbour (R298); a head that does not master the ring accepts its peer and its peer's
tiles too (R24; DEDUCED, log entry 31). -/
def State.headAccepts (s : State) (id role node home : Nat) : Bool :=
  (role = 1 && (node = noNode || home = s.headNo)) || role = 3 ||
    (!s.masters (portRing id) && home = s.rd R.CRN_CFG_PEER && (role = 1 || role = 2))

/-- A NEIGH cell taken by a port in stage 9. -/
def State.neighTaken (s : State) (id : Nat) (c : Cell) : State :=
  let node := pn c 0 2
  let role := pb c 2
  let home := pb c 3
  let ring := pb c 4
  let prt := pb c 5
  let k := (s.portLanes id).headD 0
  if isSpur id then
    if nodeHead node = s.headNo then s.stageFail id k 3
    else ((s.setPort id { s.port id with neighOk := true }).wr (R.SPRP_STATE_NEIGH (id - 24)) (nodeHead node)).wr (R.SPRP_STATE_NEIGH_VALID (id - 24)) 1
  else
    let s1 := s.setPort id { s.port id with neighOk := true, neighPort := prt }
    let s2 := if portEnd id = 0 then
        ((s1.wr (R.RING_NEIGH_A_NODE (portRing id)) node).wr (R.RING_NEIGH_A_ROLE (portRing id)) role).wr (R.RING_NEIGH_A_VALID (portRing id)) 1
      else ((s1.wr (R.RING_NEIGH_B_NODE (portRing id)) node).wr (R.RING_NEIGH_B_ROLE (portRing id)) role).wr (R.RING_NEIGH_B_VALID (portRing id)) 1
    match s.build with
    | .head => if s.headAccepts id role node home then s2 else s.stageFail id k 3
    | .tile =>
      if s.hasPosition && !(id = 0 && (s.port 2).gavePos) then s2
      else if id = 0 then
        match westGives role node prt with
        | none => s2
        | some w =>
          let eastPos := if s.on (R.RING_NEIGH_A_VALID 1) then eastGives (s.rd (R.RING_NEIGH_A_ROLE 1)) (s.rd (R.RING_NEIGH_A_NODE 1)) else none
          let held := if s.hasPosition then some (nodePos (s.rd (R.RING_STATE_NODE 0))) else eastPos
          let s3 := match held with | some e => if e ≠ w then s2.count (R.RING_EVT_CONFLICT 0) else s2 | none => s2
          (s3.setNode (nodeId home ring w)).eastGave false
      else if s.portUp 0 then s2
      else match eastGives role node with
        | none => s2
        | some e => (s2.setNode (nodeId home ring e)).eastGave true

/-! ### Delay measurement (R300) and path delay (R293) -/

def insertSorted (a : Nat) : List Nat → List Nat
  | [] => [a]
  | b :: t => if a ≤ b then a :: b :: t else b :: insertSorted a t

/-- The mean of 16 results without the largest two and the smallest two (R300). -/
def trimmedMean (l : List Nat) : Nat :=
  let m := ((l.foldr insertSorted []).drop 2).take 12
  m.foldl (· + ·) 0 / 12

/-- The link-delay register of a port. -/
def ldlyF (id : Nat) : Fld :=
  if isSpur id then R.SPRP_LDLY_DELAY (id - 24)
  else if portEnd id = 0 then R.RING_LDLY_A_DELAY (portRing id) else R.RING_LDLY_B_DELAY (portRing id)

/-- M of R291: ⌈64 x share / 1,000⌉. -/
def shareM (share : Nat) : Nat := (64 * share + 999) / 1000

/-- The cell time of a width in 1/100 ns (R278). -/
def cellTime100 (width : Nat) : Nat := if width = 1 then 9215 else if width = 2 then 4608 else 2304

/-- A standby head is a node of the ring of a port: it is end B's neighbour (R24, R298). -/
def State.standbyOn (s : State) (r : Nat) : Bool := s.on (R.RING_NEIGH_B_VALID r) && s.rd (R.RING_NEIGH_B_ROLE r) = 3

/-- d_r of R293, in RINGp_PATH. A standby on the ring adds a link (R24, R306). -/
def State.updatePath (s : State) (r : Nat) : State :=
  match s.build with
  | .tile => s
  | .head =>
    let pd := Sparse.look s.ingest.paths r 0
    let h := s.rd (R.RING_STATE_COUNT r) + 1 + b2n (s.standbyOn r)
    let m := shareM (s.rd (R.RING_SHARE_PERMILLE r))
    let t := cellTime100 (s.portWidth (2 * r))
    s.wr (R.RING_PATH_NS r) ((pd * 100 + h * m * t * 65536 + 6553599) / 6553600)

/-- A delay measurement's results move into LDLY at the epoch boundary (R300). -/
def State.applyDelays (s : State) : State :=
  forL (allPorts s.build) (fun id a =>
    match (a.port id).dlyNext with
    | none => a
    | some d =>
      let a1 := (a.setPort id { a.port id with dlyNext := if a.portUp id then none else some d }).wr (ldlyF id) d
      if isSpur id then a1 else a1.updatePath (portRing id)) s

/-- Begin a delay measurement on a port that is UP or in stage 10 (R300). -/
def State.startMeasure (s : State) (id : Nat) : State :=
  if s.portUp id || (s.training id && s.allAt id 10) then s.setPort id { s.port id with measuring := true, dlySent := 0, dlyRes := [] } else s

/-! ### Forwarding (R288, R289) -/

/-- The header counters of a port; a Spur port has none. -/
def State.countRing (s : State) (id : Nat) (f : Nat → Fld) : State := if isSpur id then s else s.count (f (portRing id))

/-- Payload bytes with the 8 bytes at 0x18 replaced (R301 CORRECTION). -/
def withCorrection (l : List Byte) (v : Int) : List Byte :=
  let p := takePad l 256
  p.take 24 ++ natLE (wrap 64 v) 8 ++ p.drop 32

def cellCorrection (c : Cell) : Int := sgn 64 (pn c 24 8)

/-- A cell as a node forwards it from a port: a beacon's correction takes the delay of the link it came by and the residence
time, which the node measures and the spec leaves open (R40). -/
def State.forwarded (s : State) (id : Nat) (c : Cell) : Cell × State :=
  if c.cls = 0 then
    ({ c with hops := c.hops + 1, payload := withCorrection c.payload (cellCorrection c + s.rd (ldlyF id) + s.freeVal) }, s.useFree)
  else ({ c with hops := c.hops + 1 }, s)

/-- A link that a head has recorded as lost cuts an end of its ring from position `q`. The end that faces position 1 is end A, or end B on a
reversed ring, where 63 names both links of the standby and tells nothing of the end that is UP (R299, R327, R352). -/
def State.endCut (s : State) (r q e : Nat) : Bool :=
  let rev := s.reversedRing r
  let low := if rev then 1 else 0
  let cut (v pos : Nat) : Bool := v = 1 && (if e = low then decide (pos < q) else decide (q ≤ pos) && !(rev && pos = 63))
  !s.portUp (2 * r + e) || cut (s.rd (R.RING_BREAK_V1 r)) (s.rd (R.RING_BREAK_POS1 r)) || cut (s.rd (R.RING_BREAK_V2 r)) (s.rd (R.RING_BREAK_POS2 r))

/-- The port a head sends a best-effort cell out of, and the cell as sent: for its own rings in the direction that `dir` forces (ETH_DT_ACT.DIR; 0: the
shorter way), avoiding a broken path, or by the Spur route (R50, R345, R352). -/
def State.headBeRoute (s : State) (dir : Nat) (c : Cell) : Option (Nat × Cell) :=
  let h := s.aliasOf (nodeHead c.dest)
  if h ≠ s.headNo then (s.spurRoute h).map (fun id => (id, { c with hops := 0 }))
  else
    let r := nodeRing c.dest
    let q := nodePos c.dest
    if 12 ≤ r ∨ q = 0 then none
    else
      let cnt := s.rd (R.RING_STATE_COUNT r) + 1
      let asc := if s.reversedRing r then 1 else 0
      let short := if dir = 1 then asc else if dir = 2 then 1 - asc else if 2 * q ≤ cnt then 0 else 1
      let e := if s.endCut r q short then 1 - short else short
      some (2 * r + e, { c with hops := 0, dir := s.dirOut (2 * r + e) })

/-- A best-effort cell a head forwards for its own rings, its side ports or other heads (R352). -/
def State.headForwardBe (s : State) (c : Cell) : State :=
  match s.headBeRoute 0 c with
  | some p => if !isSpur p.1 && s.mute (portRing p.1) then s else s.forwardCell p.1 { cell := p.2, stomp := false }
  | none => if s.aliasOf (nodeHead c.dest) ≠ s.headNo then s.count R.SPR_EVT_NOROUTE else s

/-- A cell whose trailer does not pass is counted: stomped upstream, or failed here (R289). -/
def State.trailerCount (s : State) (id : Nat) (c : Cell) : State :=
  if isSpur id || trailerOk c then s
  else if isStomped c then s.count (R.RING_EVT_STOMP (portRing id))
  else s.count (R.RING_EVT_CRC (portRing id))

/-- A cell header arrives at a port: HCRC and type, link-local cells, the hop guard, forwarding with a stomp where the trailer
fails, and the counters (R279, R285, R287, R288, R289, R304, R345). -/
def State.cellIn (s : State) (id : Nat) (c : Cell) : State :=
  if !s.cellsOn id then s
  else if !hcrcOk c || !typeOk c then s.countRing id R.RING_EVT_HCRC
  else
    let s0 := if isSpur id then s else s.bump (R.RING_RX_CELLS (portRing id)) 1
    if s.loopOf id = 2 then (s0.trailerCount id c).enqueue id { cell := c, stomp := !trailerOk c }
    else if linkLocal c then s0
    else if isSpur id then
      if 8 < c.hops + 1 then s0.count R.SPR_EVT_HOPS
      else if !trailerOk c then s0
      else if s.rd R.CRN_HEAD_ROLE = roleStandby || c.cls = 0 then s0
      else if s.aliasOf (nodeHead c.dest) = s.headNo || c.bcast then
        (if c.cls = 3 && !c.bcast && nodePos c.dest ≠ 0 then s0.headForwardBe c else s0)
      else s0.passSpur (s.aliasOf (nodeHead c.dest)) { c with hops := c.hops + 1 }
    else if 65 < c.hops + 1 then s0.count (R.RING_EVT_HOPS (portRing id))
    else
      let s1 := s0.trailerCount id c
      if s.loopOf id ≠ 0 then s1
      else if s.forwards id then
        if c.bcast || !s.destHere id c then
          let f := s1.forwarded id c
          if s.loopOf (otherPort s.build id) ≠ 0 then s1 else f.2.forwardCell (otherPort s.build id) { cell := f.1, stomp := !trailerOk c }
        else s1
      else if c.cls = 3 && trailerOk c && !s.destHere id c && !c.bcast then s1.headForwardBe c
      else s1

/-! ### PRBS31 and TEST cells (R305) -/

/-- The next bit of PRBS31, x^31 + x^28 + 1, and the state after it (PRESUMED, log entry 33). -/
def prbsBit (x : Nat) : Nat := Nat.xor (x / 1073741824 % 2) (x / 134217728 % 2)
def prbsStep (x : Nat) : Nat := (x * 2 + prbsBit x) % 2147483648

/-- A byte of the sequence, bit 0 first. -/
def prbsByte (x : Nat) : Nat → Nat × Nat
  | 0 => (0, x)
  | n + 1 => let r := prbsByte (prbsStep x) n
             (prbsBit x + 2 * r.1, r.2)

def prbsBytes (x : Nat) : Nat → List Byte × Nat
  | 0 => ([], x)
  | n + 1 => let b := prbsByte x 8
             let r := prbsBytes b.2 n
             (BitVec.ofNat 8 b.1 :: r.1, r.2)

/-- How many of 8 bits differ. -/
def bitCount : Nat → Nat → Nat
  | 0, _ => 0
  | n + 1, v => v % 2 + bitCount n (v / 2)

def bitErrors : List Byte → List Byte → Nat
  | a :: s, b :: t => bitCount 8 (Nat.xor a.toNat b.toNat) + bitErrors s t
  | _, _ => 0

/-- The generator's state that a payload's last 31 bits leave. -/
def prbsFrom (l : List Byte) : Nat :=
  l.foldl (fun x b => (List.range 8).foldl (fun y i => (y * 2 + b.toNat / 2 ^ i % 2) % 2147483648) x) 0

/-- The test generator of a ring port runs (R305). -/
def State.testOn (s : State) (id : Nat) : Bool := !isSpur id && bitOf (s.rd (R.RING_CTRL_GEN (portRing id / 4))) (portRing id % 4)

/-- The test generator adds its cells to the best-effort queue, RATE in each window of 64 cell times (R305). -/
def State.testGen (s : State) (id : Nat) : State :=
  if isSpur id || s.mute (portRing id) then s
  else
    let p := portRing id
    let pt := s.port id
    if s.testOn id && decide (pt.testSent < s.rd (R.RING_TEST_RATE p)) && decide (pt.q3.length < beLimit) then
      let b := prbsBytes pt.prbsTx 256
      let c := { mkCell clsBest 1 (s.selfId id) (s.rd (R.RING_TEST_DEST p)) 0 false false b.1 with dir := s.dirOut id }
      s.setPort id { pt with prbsTx := b.2, testSent := pt.testSent + 1, q3 := pt.q3 ++ [{ cell := c, stomp := false }] }
    else s

/-! ### The output scheduler (R291, R292) -/

/-- SHARE_REQ towards the end that feeds an output (R292, R441). -/
def State.sendShareReq (s : State) (id : Nat) : State :=
  match s.build with
  | .tile =>
    if !s.hasPosition then s
    else s.originate 0 (fun c => c) tShareReq (nodeId s.eventHead (nodeRing (s.rd (R.RING_STATE_NODE 0))) 0) (natLE (s.dirOut id) 1)
  | .head =>
    if s.masters (portRing id) then s
    else s.originate (portRing id) (fun c => c) tShareReq (nodeId (s.rd R.CRN_CFG_PEER) (portRing id) 0) (natLE (s.dirOut id) 1)

/-- The share in force at an output. -/
def State.shareOf (s : State) (id : Nat) : Nat :=
  if isSpur id then s.rd (R.SPRP_CFG_SHARE (id - 24)) else s.rd (R.RING_SHARE_PERMILLE (portRing id))

/-- Whether an end is paced (R292). -/
def State.pacedEnd (s : State) (id : Nat) : Bool :=
  if isSpur id then false
  else s.on (if portEnd id = 0 then R.RING_STATE_PACE_A (portRing id) else R.RING_STATE_PACE_B (portRing id))

/-- What a cell time sends: the class chosen, or none for IDLE. A cell that a beacon moved into this window is one of its share (R291). -/
def Port.choose (p : Port) (paced : Bool) : Option Nat :=
  let m := shareM p.share
  let left := 64 - p.win
  let owed := max m p.carryIn - p.carryOut - p.beSent
  if p.q0 ≠ [] then some 0
  else if p.q3 ≠ [] ∧ left ≤ owed then some 3
  else if p.q1 ≠ [] then some 1
  else if p.q2 ≠ [] ∧ (paced = false ∨ m - p.paced < left) then some 2
  else if p.q3 ≠ [] then some 3
  else none

/-- The port after a cell time of a class. -/
def Port.spend (p : Port) (k : Option Nat) : Port :=
  let m := shareM p.share
  let left := 64 - p.win
  let owed := max m p.carryIn - p.carryOut - p.beSent
  let p1 := match k with
    | some 0 => { p with q0 := p.q0.drop 1, carryOut := if p.q3 ≠ [] ∧ left ≤ owed ∧ 0 < owed then p.carryOut + 1 else p.carryOut }
    | some 1 => { p with q1 := p.q1.drop 1 }
    | some 2 => { p with q2 := p.q2.drop 1 }
    | some 3 => { p with q3 := p.q3.drop 1, beSent := p.beSent + 1,
                         sharing := if left ≤ owed ∧ p.q2 ≠ [] then true else p.sharing }
    | _ => p
  let p2 := { p1 with paced := if k = some 2 then p1.paced else p1.paced + 1, win := p1.win + 1 }
  if 64 ≤ p2.win then { p2 with win := 0, beSent := 0, carryIn := p2.carryOut, carryOut := 0, paced := 0, testSent := 0 } else p2

/-- The cell a class's queue gives. -/
def Port.front (p : Port) (k : Option Nat) : Option QCell :=
  match k with
  | some 0 => p.q0.head?
  | some 1 => p.q1.head?
  | some 2 => p.q2.head?
  | some 3 => p.q3.head?
  | _ => none

/-- IDLE on the lanes that send (R277, R304). -/
def State.idleOut (s : State) (id : Nat) : State := if s.lanesSend id then s.wireIdle id else s

/-- One cell boundary of an output: the chosen cell leaves, or IDLE (R277, R291). In the CELL loopback it goes to the port's own
receive path, and the lanes send IDLE if they are up (R304): the cell is the second result. -/
def State.boundaryOut (s : State) (id : Nat) : State × Option Cell :=
  let p0 := s.port id
  let p := if p0.win = 0 then { p0 with share := s.shareOf id } else p0
  let k := p.choose (s.pacedEnd id)
  let s1 := s.setPort id (p.spend k)
  match p.front k with
  | none => (s1.idleOut id, none)
  | some q =>
    let s2 := s1.countSent id
    let c := sealCell q.cell q.stomp
    let s3 := if s.loopOf id = 1 then s2.idleOut id else s2.wireCell id c q.stomp
    (if (p.spend k).sharing && !p.sharing && !isSpur id then s3.sendShareReq id else s3, if s.loopOf id = 1 then some c else none)

/-! ### Pages -/

/-- The check at an instance enable of a LNE, RING or SPR page. -/
def State.portEnableCheck (s : State) (id : Nat) : Option Nat := if s.lanesBad id then some 16 else none

/-- A ring port's enables have changed: its ports start or stop (R58, R68, R69). -/
def State.portsSync (s : State) (id : Nat) : State :=
  forL (enablePorts s.build id) (fun i a =>
    if a.portOn i && a.portState i = 0 then a.portStart i
    else if !a.portOn i && a.portState i ≠ 0 then a.portStop i
    else a) s

/-- The port a ring-page instance is: end A of a head's ring port, or a tile's port. -/
def instPort (p : Nat) : Nat := 2 * p

/-- Every port of a RING window, after the window's own enable changes. -/
def State.ringWindowSync (s : State) (w : Nat) : State :=
  forN (match s.build with | .tile => 2 | .head => 4) (fun m a => a.portsSync (instPort (4 * w + m))) s

def State.spurWindowSync (s : State) : State := forN 4 (fun q a => a.portsSync (24 + q)) s

end Sys2Proof.Machine
end

