-- ==== Sys2Proof/Machine/DramBase.lean ====
section
/-! DEFINITION. The DRAM channels as every block reaches them (R363, R364, R375): which channel serves an address, and the bursts that an
engine's access puts into the channels' queues. -/

namespace Sys2Proof.Machine

def State.setEng (s : State) (e : Engines) : State := { s with eng := e }
def State.dch (s : State) (j : Nat) : DramCh := Sparse.look s.eng.dram j DramCh.init
def State.setDch (s : State) (j : Nat) (x : DramCh) : State := s.setEng { s.eng with dram := Sparse.put s.eng.dram j x }

def channels : Build → Nat
  | .head => 4
  | .tile => 2

/-- The channel of a DRAM byte address (R363). -/
def chanOf (b : Build) (a : Nat) : Nat := a / 256 % channels b

/-- Channel states (DRC_CHj_STATE.STATE). -/
def dcOff : Nat := 0
def dcTraining : Nat := 1
def dcReady : Nat := 2
def dcSelf : Nat := 3
def dcDeep : Nat := 4
def dcQuar : Nat := 5

def State.chState (s : State) (j : Nat) : Nat := s.rd (R.DRC_CH_STATE_STATE j)

/-- A channel that takes requests: its page is enabled, and it is READY or in self-refresh (R374, R381, R400). -/
def State.chServes (s : State) (j : Nat) : Bool :=
  s.enabled .DRC (j / 2) && (s.chState j = dcReady || s.chState j = dcSelf)

/-- Whether every channel that holds a byte of `n` bytes at `a` takes requests. -/
def State.dramServes (s : State) (a n : Nat) : Bool :=
  (List.range (min ((a % 256 + n + 255) / 256) (channels s.build))).all (fun i => s.chServes (chanOf s.build (a + i * 256)))

/-- The channel leaves self-refresh. -/
def State.selfExit (s : State) (j : Nat) : State :=
  if s.chState j = dcSelf then (s.wr (R.DRC_CH_STATE_STATE j) dcReady).emit (.dramCmd j "SRX" 0) else s

/-- A queue has room: 64 reads, 32 writes (R364). -/
def DramCh.room (x : DramCh) (write : Bool) : Bool := if write then decide (x.writes.length < 32) else decide (x.reads.length < 64)

/-- A burst enters its queue at a time. -/
def DramCh.enter (x : DramCh) (r : DramReq) (helper : Bool) (now : Nat) : DramCh :=
  let q : DQueued := { req := r, at_ := now, ord := x.arrivals, helper := helper }
  if r.write then { x with writes := x.writes ++ [q], arrivals := x.arrivals + 1 } else { x with reads := x.reads ++ [q], arrivals := x.arrivals + 1 }

/-- A queued burst of the helper gives up its place in a full queue: other traffic is never held by it (R377). -/
def DramCh.yieldHelper (x : DramCh) (write : Bool) : DramCh :=
  match (if write then x.writes else x.reads).find? (fun q => q.helper) with
  | none => x
  | some q =>
    let drop (l : List DQueued) : List DQueued := l.filter (fun p => p.ord ≠ q.ord)
    { x with writes := drop x.writes, reads := drop x.reads, helper := q.req :: x.helper }

/-- Bursts that wait at their requesters enter the queues while these have room; bursts to one address keep their order (R364). The helper has one
burst in the queues at a time, and only where none waits (R377). -/
def DramCh.letIn (x : DramCh) (now : Nat) : DramCh :=
  let y := forL x.held (fun r (y : DramCh) =>
    let z := if y.room r.write then y else y.yieldHelper r.write
    if y.held.any (fun p => p.addr / 32 = r.addr / 32) || !z.room r.write then { y with held := y.held ++ [r] } else z.enter r false now)
    { x with held := [] }
  match y.helper with
  | [] => y
  | r :: t => if !y.held.isEmpty || (y.reads ++ y.writes).any (fun q => q.helper) || !y.room r.write then y else ({ y with helper := t }).enter r true now

/-- One burst of an engine: an error response where its channel does not serve (R375), an exit from self-refresh in Shoulder (R400), and a
place behind the bursts that wait. A burst carries what it held in memory as it was issued: a read gives that, and a write that an error response
loses puts it back (log entry 125). -/
def State.dramPost (s : State) (tag requester a : Nat) (write : Bool) : State :=
  let j := chanOf s.build a
  if !s.chServes j then (s.count (R.DRC_CH_EVT_ERRRSP j)).emit (.dramErr requester a)
  else
    let s1 := if s.chState j = dcSelf then (s.selfExit j).count R.PWR_EVT_SR_EXIT else s
    let x := s1.dch j
    let r : DramReq := { requester := requester, write := write, addr := a, data := s1.rdBytes .dram a 32, tag := tag }
    s1.setDch j { x with held := x.held ++ [r] }

/-- The bursts that wait enter the queues that have room. -/
def State.dramAdmit (s : State) : State := forN (channels s.build) (fun j t => t.setDch j ((t.dch j).letIn t.nowNs)) s

/-- The bursts of an access to `n` bytes at `a`, with their tag. -/
def State.dramUseAs (s : State) (tag requester a n : Nat) (write : Bool) : State :=
  (forN (if n = 0 then 0 else (a % 32 + n + 31) / 32) (fun i t => t.dramPost tag requester ((a / 32 + i) * 32 % dramSize t.build) write) s).dramAdmit

/-- An engine's access to `n` bytes at `a`: its bursts are requests of `requester` (R364). The bytes themselves move with the command that
makes the access (log entry 125). -/
def State.dramUse (s : State) (requester a n : Nat) (write : Bool) : State := s.dramUseAs 0 requester a n write

/-- Several accesses, as address and length. -/
def State.dramUses (s : State) (requester : Nat) (l : List (Nat × Nat)) (write : Bool) : State :=
  forL l (fun e t => t.dramUse requester e.1 e.2 write) s

/-- `w` bits from a bit offset at an address, as a requester's read finds them: what a channel that does not serve holds is lost, and what stands in
its place is open, a free value (R375). -/
def State.bitsAt (s : State) (a bit w : Nat) : Nat :=
  if s.dramServes (a + bit / 8) ((bit % 8 + w + 7) / 8) then s.rdBits .dram a bit w else Config.free (s.freeCtr + bit) % 2 ^ w

/-- Read bytes at a DRAM address as a requester; lost bytes are free values (R375). -/
def State.dramRead (s : State) (requester a n : Nat) : List Byte × State :=
  let t := s.dramUse requester a n false
  if s.dramServes a n then (s.rdBytes .dram a n, t)
  else ((List.range n).map (fun i => BitVec.ofNat 8 (Config.free (s.freeCtr + i))), { t with freeCtr := t.freeCtr + n })

/-- Write bytes at a DRAM address as a requester: a byte whose channel does not serve is lost (R375). -/
def State.dramWrite (s : State) (requester a : Nat) (l : List Byte) : State :=
  forN l.length (fun i t => if t.chServes (chanOf t.build ((a + i) % dramSize t.build)) then t.wr8 .dram (a + i) (l.getD i 0) else t)
    (s.dramUse requester a l.length true)

end Sys2Proof.Machine
end

