-- ==== Sys2Proof/Machine/SrcOps.lean ====
section
/-! DEFINITION. Source ingest and conditioning on the head (R111 to R132, R347): the enable check, the buffers, DMA
descriptors, ST 2110 reassembly, the pixel pipeline, admission and the production of cells. -/

namespace Sys2Proof.Machine

def Src.init : Src :=
  { fill := 0, since := [], sends := [], bad := false, fresh := false, made := 0, madeRep := false, kernel := [], loading := false, built := [] }

def RingSend.init : RingSend := { active := false, repeatOnly := false, locDone := false, cells := 0, upto := 0, next := 0, frame := 0 }

def State.src (s : State) (n : Nat) : Src := Sparse.look s.ingest.srcs n Src.init
def State.setSrc (s : State) (n : Nat) (x : Src) : State := { s with ingest := { s.ingest with srcs := Sparse.put s.ingest.srcs n x } }

def Relay.init : Relay := { cells := none, sends := [] }
def State.relay (s : State) (i : Nat) : Relay := Sparse.look s.ingest.relays i Relay.init
def State.setRelay (s : State) (i : Nat) (x : Relay) : State := { s with ingest := { s.ingest with relays := Sparse.put s.ingest.relays i x } }

/-! ### Formats (R112, R113) -/

/-- Memory bits of a unit: a pixel, or a pixel pair in format 0x2. -/
def memBits (fmt : Nat) : Nat := match fmt with | 0 => 32 | 1 => 32 | 2 => 40 | 3 => 24 | 4 => 2 | 5 => 4 | 7 => 40 | _ => 8

/-- Pixels in a unit. -/
def unitPix (fmt : Nat) : Nat := if fmt = 2 then 2 else 1

/-- Wire bits of a unit. -/
def wireBits (fmt : Nat) : Nat := match fmt with | 0 => 30 | 1 => 30 | 2 => 40 | 3 => 24 | 4 => 2 | 5 => 4 | _ => 8

def isIndexed (fmt : Nat) : Bool := fmt = 4 || fmt = 5 || fmt = 6

/-- The line-buffer limit (R122). -/
def lineLimit (fmt : Nat) : Nat := if fmt = 0 ∨ fmt = 1 ∨ fmt = 3 then 8192 else 16384

/-- Bytes of a line. -/
def lineBytes (fmt w : Nat) : Nat := ((w + unitPix fmt - 1) / unitPix fmt * memBits fmt + 7) / 8

/-! ### Configuration -/

structure SrcCfg where
  fmt : Nat
  out10 : Bool
  csc : Bool
  inW : Nat
  inH : Nat
  cx : Nat
  cy : Nat
  cw : Nat
  ch : Nat
  ow : Nat
  oh : Nat
  stride : Nat
  kernel : Nat
  deriving DecidableEq, Repr

def State.srcCfg (s : State) (n : Nat) : SrcCfg :=
  { fmt := s.rd (R.SRC_CFG_FMT_IN n), out10 := s.on (R.SRC_CFG_FMT_OUT n), csc := s.on (R.SRC_CFG_CSC_EN n),
    inW := s.rd (R.SRC_IN_SIZE_W n), inH := s.rd (R.SRC_IN_SIZE_H n), cx := s.rd (R.SRC_CROP_XY_X n), cy := s.rd (R.SRC_CROP_XY_Y n),
    cw := s.rd (R.SRC_CROP_SIZE_W n), ch := s.rd (R.SRC_CROP_SIZE_H n), ow := s.rd (R.SRC_OUT_SIZE_W n), oh := s.rd (R.SRC_OUT_SIZE_H n),
    stride := s.rd (R.SRC_STRIDE_BYTES n), kernel := s.rd (R.SRC_CFG_KERNEL n) }

/-- The wire format code (R129). -/
def SrcCfg.wire (c : SrcCfg) : Nat := if c.out10 then 0 else c.fmt

/-- Whether N_out / N_in lies between 1/4 and 16 (R123). -/
def ratioOk (nin nout : Nat) : Bool := decide (nin ≤ 4 * nout ∧ nout ≤ 16 * nin)

/-- The checks of R126 in their order; none when the source may start. -/
def State.srcCheck (s : State) (n : Nat) : Option Nat :=
  let c := s.srcCfg n
  let inp := s.rd (R.SRC_CFG_INPUT n)
  let px := s.rd (R.SRC_PLACE_XY_X n)
  let py := s.rd (R.SRC_PLACE_XY_Y n)
  if 7 ≤ c.fmt ∨ inp = 3 ∨ c.kernel = 3 then some rRange
  else if (inp ≠ 0 ∧ c.fmt ≠ 0 ∧ c.fmt ≠ 2) ∨ (c.csc = true ∧ ((c.fmt = 3 ∧ c.out10 = false) ∨ isIndexed c.fmt = true)) ∨ (c.out10 = true ∧ isIndexed c.fmt = true) then some 18
  else if inp ≠ 0 ∧ (List.range 16).any (fun m => m ≠ n && s.on (R.SRC_CFG_ENABLE m) && s.rd (R.SRC_CFG_INPUT m) = inp) = true then some rBusy
  else if lineLimit c.fmt < c.cw ∨ (inp ≠ 0 ∧ lineLimit c.fmt < c.inW) then some rLinebuf
  else if c.inW = 0 ∨ c.inH = 0 ∨ c.cw = 0 ∨ c.ch = 0 ∨ c.ow = 0 ∨ c.oh = 0 ∨ c.inW < c.cx + c.cw ∨ c.inH < c.cy + c.ch ∨
      65536 < px + c.ow ∨ 65536 < py + c.oh ∨
      (c.fmt = 2 ∧ (c.cx % 2 = 1 ∨ c.cw % 2 = 1)) ∨
      (c.fmt = 4 ∧ (c.cx % 4 ≠ 0 ∨ c.cw % 4 ≠ 0)) ∨ (c.fmt = 5 ∧ (c.cx % 2 = 1 ∨ c.cw % 2 = 1)) ∨
      c.stride % 64 ≠ 0 ∨ c.stride < lineBytes c.fmt c.inW ∨ s.rd (R.SRC_BUF_SIZE_SIZE n) * 4096 < c.stride * c.inH then some 17
  else if ratioOk c.cw c.ow = false ∨ ratioOk c.ch c.oh = false ∨ ((isIndexed c.fmt = true ∨ (c.fmt = 2 ∧ c.out10 = false)) ∧ (c.ow ≠ c.cw ∨ c.oh ≠ c.ch)) then some 16
  else none

/-- COND codes (SRCn_STATE). -/
def condOff : Nat := 0
def condLoading : Nat := 1
def condWait : Nat := 2
def condRunning : Nat := 3
def condOver : Nat := 4
def condDraining : Nat := 5
def condDrained : Nat := 6

/-- The custom kernel is in (R124): 2,048 bytes at COEF_BASE. A source that shows OVERWIDTH goes on showing it (R118). -/
def State.srcKernel (s : State) (n : Nat) : State :=
  if (s.src n).loading && !s.coreGated then
    let p := s.dramRead 5 (s.rd (R.SRC_COEF_BASE_BASE n) * 4096) 2048
    let s1 := p.2.setSrc n { p.2.src n with kernel := p.1, loading := false }
    if s.rd (R.SRC_STATE_COND n) = condLoading then s1.wr (R.SRC_STATE_COND n) condWait else s1
  else s

/-! ### Buffers (R119) -/

def State.bufBase (s : State) (n k : Nat) : Nat := (s.rd (R.SRC_BUF_BASE_BASE n) + k * s.rd (R.SRC_BUF_SIZE_SIZE n)) * 4096

/-- The buffer that is neither of two. -/
def otherBuf (a b : Nat) : Nat := if a ≠ 0 ∧ b ≠ 0 then 0 else if a ≠ 1 ∧ b ≠ 1 then 1 else 2

/-- A frame completes: its buffer becomes READY, and another FILL (R119). A conditioner whose clock is gated takes none (R94). -/
def State.frameDone (s : State) (n : Nat) : State :=
  let x := s.src n
  let rdy := s.rd (R.SRC_STATE_READY n)
  if s.coreGated then s
  else if rdy ≠ 3 then
    ((s.setSrc n { x with fill := rdy }).wr (R.SRC_STATE_READY n) x.fill).count (R.SRC_EVT_DROP n)
  else
    (s.setSrc n { x with fill := otherBuf x.fill (s.rd (R.SRC_STATE_SEND n)) }).wr (R.SRC_STATE_READY n) x.fill

/-! ### DMA (R114 to R116) -/

/-- A write to host memory: over PCIe on the lead head, as HOST_WR cells on another (R346). -/
def State.hostStore (s : State) (addr : Nat) (data : List Byte) : State :=
  if s.isLead then s.emit (.hostWrite addr data)
  else s.originateSpur s.leadHead (fun c => c) tHostWr (nodeId s.leadHead 0 0)
    (natLE addr 8 ++ natLE data.length 8 ++ data)

/-- The DMA channel's run state (R58). -/
def State.dmaOn (s : State) (ch : Nat) : Bool := s.enabled .DMA 0 && s.on (R.DMA_CH_CFG_ENABLE ch)

def State.dmaShow (s : State) (ch : Nat) : State :=
  if s.dmaOn ch then
    s.wr (R.DMA_CH_STATE_RUN ch) (if s.rd (R.DMA_CH_IDX_PROD ch) % 2 ^ (s.rd (R.DMA_CH_CFG_RING_SIZE ch) + 4) = s.rd (R.DMA_CH_IDX_CONS ch) % 2 ^ (s.rd (R.DMA_CH_CFG_RING_SIZE ch) + 4) then 1 else 2)
  else s

/-- Discard the open frame of a source: counted once (R116); while the conditioner's clock is gated its counter stands still (R94). -/
def State.frameBad (s : State) (n : Nat) : State :=
  if (s.src n).bad then s
  else
    let s1 := s.setSrc n { s.src n with bad := true }
    if s.coreGated then s1 else s1.count (R.SRC_EVT_BADFRAME n)

/-- A channel stops: an open frame is discarded (R69, R116). -/
def State.dmaStop (s : State) (ch : Nat) : State :=
  let s1 := if s.on (R.DMA_CH_STATE_FRAME_OPEN ch) then (s.frameBad ch).wr (R.DMA_CH_STATE_FRAME_OPEN ch) 0 else s
  s1.wr (R.DMA_CH_STATE_RUN ch) 3

/-- The error code of a descriptor (R114): 3 invalid, 2 past the end of the buffer, 1 PCIe error. -/
def State.descErr (s : State) (ch : Nat) (d : Descriptor) (pcieErr : Bool) : Nat :=
  let raw := bitOf d.flags 2
  if pcieErr then 1
  else if 16 ≤ d.flags ∨ d.length % 4 ≠ 0 ∨ d.length < 4 ∨ 16777212 < d.length ∨ d.addrLo % 4 ≠ 0 ∨ 4 ≤ d.dstHi ∨ (raw = false ∧ d.dstHi ≠ 0) ∨ d.last ≠ 0 then 3
  else if raw = false ∧ s.rd (R.SRC_BUF_SIZE_SIZE ch) * 4096 < d.dstLo + d.length then 2
  else 0

/-- A descriptor finishes (R115, R116): data lands, the frame opens, closes, completes or is discarded, STATUS is written back,
the consumer index advances, and IRQ raises its vector or event (R335, R341). -/
def State.descDone (s : State) (ch : Nat) (d : Descriptor) (data : List Byte) (pcieErr : Bool) : State :=
  let e := s.descErr ch d pcieErr
  let raw := bitOf d.flags 2
  let eof := bitOf d.flags 1 && !raw
  let s2 := if e = 0 then
      s.dramWrite 6 (if raw then (d.dstLo + 4294967296 * d.dstHi) % 17179869184 else s.bufBase ch (s.src ch).fill + d.dstLo) (takePad data d.length)
    else
      let a := s.count (R.DMA_CH_EVT_ERR ch)
      if !raw && a.on (R.DMA_CH_STATE_FRAME_OPEN ch) then a.frameBad ch else a
  let s3 := if eof && s2.on (R.DMA_CH_STATE_FRAME_OPEN ch) then
      let a := s2.wr (R.DMA_CH_STATE_FRAME_OPEN ch) 0
      if (a.src ch).bad then a else (a.count (R.DMA_CH_EVT_FRAMES ch)).frameDone ch
    else s2
  let size := 2 ^ (s.rd (R.DMA_CH_CFG_RING_SIZE ch) + 4)
  let base := s.rd (R.DMA_CH_RING_LO_ADDR ch) * 64 + s.rd (R.DMA_CH_RING_HI_ADDR ch) * 4294967296
  let s4 := s3.hostStore (base + 32 * (s.rd (R.DMA_CH_IDX_CONS ch) % size) + 24) (natLE (1 + 2 * e) 4)
  let s5 := (s4.inc (R.DMA_CH_IDX_CONS ch)).dmaShow ch
  if bitOf d.flags 3 && s.on (R.DMA_CH_CFG_IRQ_EN ch) then
    if s.isLead then s5.vector 1 ch
    else s5.raiseEvent .DMA 0 1 (natLE ch 2 ++ natLE (s5.rd (R.DMA_CH_IDX_CONS ch)) 2)
  else s5

/-- Whether a channel has a descriptor to run: enabled or draining, work posted, PF1 in D0 (R115, R337). -/
def State.descDue (s : State) (ch : Nat) : Bool :=
  ch < 16 && s.has .DMA 0 && !s.parked 2 && (s.dmaOn ch || s.rd (R.DMA_CH_STATE_RUN ch) = 3) && !s.host.d3.contains 1 &&
    s.rd (R.DMA_CH_IDX_PROD ch) % 2 ^ (s.rd (R.DMA_CH_CFG_RING_SIZE ch) + 4) ≠ s.rd (R.DMA_CH_IDX_CONS ch) % 2 ^ (s.rd (R.DMA_CH_CFG_RING_SIZE ch) + 4)

/-! ### Reads of host memory (R115, R336, R346) -/

def Descriptor.zero : Descriptor := { addrLo := 0, addrHi := 0, length := 0, dstLo := 0, dstHi := 0, flags := 0, last := 0 }

/-- A descriptor whose own fetch has failed: nothing of it is known, and it ends with the PCIe error (R114, R336). -/
def Descriptor.unread : Descriptor := { Descriptor.zero with length := 4 }

/-- The descriptor that 32 bytes of host memory hold (R114). -/
def Descriptor.ofBytes (b : List Byte) : Descriptor :=
  let w (i : Nat) : Nat := leNat (takePad (b.drop (4 * i)) 4)
  { addrLo := w 0, addrHi := w 1, length := w 2, dstLo := w 3, dstHi := w 4, flags := w 5, last := w 7 }

def State.dmaSize (s : State) (ch : Nat) : Nat := 2 ^ (s.rd (R.DMA_CH_CFG_RING_SIZE ch) + 4)

/-- Where the descriptor at a place of a channel's ring stands in host memory. -/
def State.descAddr (s : State) (ch idx : Nat) : Nat :=
  s.rd (R.DMA_CH_RING_LO_ADDR ch) * 64 + s.rd (R.DMA_CH_RING_HI_ADDR ch) * 4294967296 + 32 * idx

def State.jobsOf (s : State) (ch : Nat) : List DmaJob := Sparse.look s.host.jobs ch []
def State.setJobs (s : State) (ch : Nat) (l : List DmaJob) : State := { s with host := { s.host with jobs := Sparse.put s.host.jobs ch l } }

/-- How many reads a head keeps outstanding (R336): 512 with 10-bit tags, else 256; the tag of a HOST_RD cell is a byte. -/
def State.readLimit (s : State) : Nat := if s.isLead && s.cfgVal 1 .tag10 = 1 then 512 else 256

/-- The longest read a head asks for at once: of at most 4 KiB, over PCIe of at most Max Read Request Size (R115, R332). -/
def State.readMax (s : State) : Nat := if s.isLead then min 4096 (128 * 2 ^ s.cfgVal 1 .maxRead) else 4096

/-- The pieces of a host access of `len` bytes, each of at most `m`: offset and length. -/
def pieces (m len : Nat) : List (Nat × Nat) := (List.range ((len + m - 1) / m)).map (fun i => (i * m, min m (len - i * m)))

/-- The reads of a host range as a function, each of at most its Max Read Request Size (R332). -/
def State.readHost (s : State) (fn tag addr len : Nat) (relaxed : Bool) : State :=
  forL (pieces (min 4096 (128 * 2 ^ s.cfgVal fn .maxRead)) len) (fun p a => a.emit (.hostRead fn tag (addr + p.1) p.2 relaxed)) s

/-- The writes of bytes to host memory as a function, each of at most its Max Payload Size (R332). -/
def State.writeHost (s : State) (fn addr : Nat) (data : List Byte) : State :=
  forL (pieces (128 * 2 ^ s.cfgVal fn .maxPayload) data.length) (fun p a => a.emit (.hostWrite (addr + p.1) ((data.drop p.1).take p.2))) s

/-- One read of `len` bytes at a host address: over PCIe on the lead head, by HOST_RD on another (R346). -/
def State.askHost (s : State) (r : DmaRead) (addr : Nat) : State :=
  let tag := s.host.nextRead % s.readLimit
  let s1 := { s with host := { s.host with reads := s.host.reads ++ [{ r with tag := tag }], nextRead := s.host.nextRead + 1 } }
  if s.isLead then s1.emit (.hostRead 1 tag addr r.len (!r.fetch && s.cfgVal 1 .relaxed = 1))
  else
    let lead := s.leadHead
    s1.originateSpur lead (fun c => { c with aux := tag }) tHostRd (nodeId lead 0 0) (natLE addr 8 ++ natLE r.len 8)

/-- A job that has data to ask for: its descriptor is known and good (R114). -/
def State.wantsData (s : State) (ch : Nat) (j : DmaJob) : Bool :=
  match j.desc with
  | none => false
  | some d => !j.err && s.descErr ch d false = 0 && decide (j.asked < d.length)

/-- The number of descriptors posted to a channel and not finished. -/
def State.dmaPosted (s : State) (ch : Nat) : Nat :=
  (s.rd (R.DMA_CH_IDX_PROD ch) + 65536 - s.rd (R.DMA_CH_IDX_CONS ch)) % s.dmaSize ch

/-- What a channel may ask for in its turn: 4 KiB of the oldest descriptor that has data to ask for, else the next descriptor. -/
inductive DmaAsk where
  | nothing
  | data (j : DmaJob) (addr len : Nat)
  | fetch (idx : Nat)
  deriving DecidableEq, Repr

/-- The power controller waits for the 4 KiB in progress: nothing more is asked for (R405, step 2). -/
def State.dmaWinds (s : State) : Bool := s.eng.pwr.winding && s.rd R.PWR_STATE_STEP = 2

def State.dmaAsk (s : State) (ch : Nat) : DmaAsk :=
  let l := s.jobsOf ch
  if !(s.descDue ch && s.dmaOn ch) || s.dmaWinds then .nothing
  else match l.find? (s.wantsData ch) with
    | some j => match j.desc with
      | some d => .data j (d.addrLo + 4294967296 * d.addrHi + j.asked) (min 4096 (d.length - j.asked))
      | none => .nothing
    | none =>
      if l.length < s.dmaPosted ch && l.all (fun j => j.desc.isSome) then .fetch ((s.rd (R.DMA_CH_IDX_CONS ch) + l.length) % s.dmaSize ch)
      else .nothing

/-- The reads that an ask takes. -/
def State.asksOf (s : State) (a : DmaAsk) : Nat :=
  match a with
  | .nothing => 0
  | .data _ _ len => (len + s.readMax - 1) / s.readMax
  | .fetch _ => 1

/-- A descriptor with SOF is taken: an open frame is discarded, and a frame is open (R116). -/
def State.sofTaken (s : State) (ch : Nat) (d : Descriptor) : State :=
  if bitOf d.flags 0 && !bitOf d.flags 2 then
    let a := if s.on (R.DMA_CH_STATE_FRAME_OPEN ch) then s.frameBad ch else s
    (a.setSrc ch { a.src ch with bad := false }).wr (R.DMA_CH_STATE_FRAME_OPEN ch) 1
  else s

/-- The first descriptor of a channel that runs is taken once a read of its data is under way (log entry 141); a channel that drains takes none anew
(R69, R116). -/
def State.sofFirst (s : State) (ch : Nat) : State :=
  match s.jobsOf ch with
  | [] => s
  | j :: t =>
    match j.desc with
    | none => s
    | some d => if j.opened || j.asked = 0 || !s.dmaOn ch then s else (s.setJobs ch ({ j with opened := true } :: t)).sofTaken ch d

/-- A channel's turn (R115). The lead head knows a descriptor as soon as it has asked for it: what host memory holds came with the doorbell. -/
def State.dmaTurn (s : State) (ch : Nat) (a : DmaAsk) : State :=
  let s0 := { s with host := { s.host with turn := ch } }
  match a with
  | .nothing => s0
  | .data j addr len =>
    let s1 := s0.setJobs ch ((s0.jobsOf ch).map (fun (k : DmaJob) => if k.idx = j.idx then { k with asked := k.asked + len } else k))
    forN ((len + s.readMax - 1) / s.readMax) (fun i t =>
      t.askHost { tag := 0, ch := ch, idx := j.idx, fetch := false, off := j.asked + i * s.readMax, len := min s.readMax (len - i * s.readMax) } (addr + i * s.readMax))
      (s1.sofFirst ch)
  | .fetch idx =>
    let d := if s.isLead then some (Sparse.look s.host.posted (ch * 65536 + idx) Descriptor.zero) else none
    let s1 := s0.setJobs ch (s0.jobsOf ch ++ [{ idx := idx, desc := d, asked := 0, got := [], err := false, opened := false }])
    let s2 := s1.askHost { tag := 0, ch := ch, idx := idx, fetch := true, off := 0, len := 32 } (s.descAddr ch idx)
    if s.isLead then { s2 with host := { s2.host with reads := s1.host.reads } } else s2

/-- Channels with work take turns of 4 KiB, round-robin, while the reads outstanding leave room (R115, R336). -/
def State.dmaTurns : Nat → State → State
  | 0, s => s
  | fuel + 1, s =>
    match ((List.range 16).map (fun i => (s.host.turn + 1 + i) % 16)).find? (fun ch => s.dmaAsk ch ≠ .nothing) with
    | none => s
    | some ch =>
      let a := s.dmaAsk ch
      if s.readLimit < s.host.reads.length + s.asksOf a then s else (s.dmaTurn ch a).dmaTurns fuel

def State.dmaIssue (s : State) : State := match s.build with | .tile => s | .head => State.dmaTurns 1024 s

/-- Bytes put together from parts at their offsets. -/
def assemble (len : Nat) (l : List (Nat × List Byte)) : List Byte :=
  takePad (l.foldl (fun (b : List Byte) p => b.take p.1 ++ p.2 ++ b.drop (p.1 + p.2.length)) (List.replicate len 0)) len

/-- The bytes of a job that have come. -/
def DmaJob.have_ (j : DmaJob) : Nat := j.got.foldl (fun n p => n + p.2.length) 0

/-- The first descriptor of a channel ends: with its data, or with the PCIe error (R114, R115); the channels' turns go on. -/
def State.jobEnd (s : State) (ch : Nat) (j : DmaJob) (d : Descriptor) (err : Bool) : State :=
  let s1 := { s with host := { s.host with reads := s.host.reads.filter (fun r => !(r.ch = ch && r.idx = j.idx)) } }
  let s2 := if j.opened || !s.dmaOn ch then s1 else s1.sofTaken ch d
  (((s2.setJobs ch (s2.jobsOf ch).tail).descDone ch d (assemble d.length j.got) err).sofFirst ch).dmaIssue

/-- The first descriptor of a channel is given up untaken: the next enable finds it unread (R69). -/
def State.jobAnew (s : State) (ch : Nat) (j : DmaJob) : State :=
  let s1 := { s with host := { s.host with reads := s.host.reads.filter (fun r => !(r.ch = ch && r.idx = j.idx)) } }
  let t := (s1.jobsOf ch).tail
  s1.setJobs ch (if j.desc.isNone then t else { j with asked := 0, got := [], err := false } :: t)

/-- A channel that drains and whose first descriptor had not been taken at the disable: it is read again after the next enable (R69, R116). -/
def State.dmaLeft (s : State) (ch : Nat) : Bool := !s.dmaOn ch && (match s.jobsOf ch with | [] => true | j :: _ => !j.opened)

/-- What is outstanding of the first descriptor of a channel has come: on the lead head `data`, or an error; on another the parts that HOST_CPL has
brought, when none is outstanding. A descriptor that is not whole goes on. -/
def State.dmaArrive (s : State) (ch : Nat) (data : List Byte) (err : Bool) : State :=
  if !s.descDue ch || s.dmaLeft ch then s
  else match s.jobsOf ch with
    | [] => s
    | j :: t =>
      if s.isLead then
        match j.desc with
        | none => s
        | some d =>
          let j1 := { j with got := if j.asked = j.have_ then j.got else j.got ++ [(j.have_, takePad data (j.asked - j.have_))] }
          if err || s.descErr ch d false ≠ 0 || j.asked = d.length then s.jobEnd ch j1 d err
          else
            ({ s with host := { s.host with reads := s.host.reads.filter (fun r => !(r.ch = ch && r.idx = j.idx)) } }.setJobs ch (j1 :: t)).dmaIssue
      else if s.host.reads.any (fun r => r.ch = ch && r.idx = j.idx) then s
      else
        let d := j.desc.getD Descriptor.unread
        if j.err || s.descErr ch d false ≠ 0 || j.asked = d.length then s.jobEnd ch j d j.err else s

/-- A part of a read has come by HOST_CPL; the read is complete when its bytes, or an error, have come (R346). -/
def State.partIn (s : State) (tag off : Nat) (err : Bool) (data : List Byte) : State :=
  match s.host.reads.find? (fun r => r.tag = tag) with
  | none => s
  | some r =>
    let cpls := s.host.cpls ++ [(tag, off, err, data)]
    let mine := cpls.filter (fun p => p.1 = tag)
    if err || decide (r.len ≤ mine.foldl (fun n p => n + p.2.2.2.length) 0) then
      let bytes := assemble r.len (mine.map (fun p => (p.2.1, p.2.2.2)))
      let s1 := { s with host := { s.host with cpls := cpls.filter (fun p => p.1 ≠ tag), reads := s.host.reads.filter (fun q => q.tag ≠ tag) } }
      (s1.setJobs r.ch ((s1.jobsOf r.ch).map (fun (j : DmaJob) =>
        if j.idx ≠ r.idx then j
        else if err then { j with err := true, desc := some (j.desc.getD Descriptor.unread) }
        else if r.fetch then { j with desc := some (Descriptor.ofBytes bytes) }
        else { j with got := j.got ++ [(r.off, bytes)] }))).dmaIssue
    else { s with host := { s.host with cpls := cpls } }

/-- Reads of the ingest channels are outstanding, or a descriptor has all its data and is not finished. -/
def State.dmaBusy (s : State) : Bool :=
  !s.host.reads.isEmpty || (List.range 16).any (fun ch => s.descDue ch && match s.jobsOf ch with
    | [] => false
    | j :: _ => match j.desc with
      | none => false
      | some d => j.asked = d.length && j.asked ≠ 0)

/-- A channel is DRAINED: what it had in progress is dropped (R69). -/
def State.dmaDrop (s : State) (ch : Nat) : State :=
  ({ s with host := { s.host with reads := s.host.reads.filter (fun r => r.ch ≠ ch) } }).setJobs ch []

/-! ### ST 2110 (R117, R118, R358) -/

/-- What a stream's reassembly holds of a frame is dropped; the expected sequence number stays. -/
def St2110.drop (x : St2110) : St2110 := { x with missing := 0, width := 0, height := 0, rows := [], held := [] }

def St2110.init : St2110 := { expect := none, missing := 0, width := 0, height := 0, rows := [], held := [] }
def State.st (s : State) (k : Nat) : St2110 := Sparse.look s.ingest.sts k St2110.init
def State.setSt (s : State) (k : Nat) (x : St2110) : State := { s with ingest := { s.ingest with sts := Sparse.put s.ingest.sts k x } }

/-- A source starts: a custom kernel is loaded first (R124); no buffer holds a role but FILL (log entry 36); its side-port stream begins a
new frame (R117). -/
def State.srcStart (s : State) (n : Nat) : State :=
  let k := s.rd (R.SRC_CFG_INPUT n)
  let custom := decide (s.rd (R.SRC_CFG_KERNEL n) = 2)
  let s0 := if k = 0 then s else s.setSt (k - 1) (s.st (k - 1)).drop
  let s1 := ((s0.setSrc n { s0.src n with fill := 0, sends := [], since := [], built := [], fresh := false, loading := custom }).wr (R.SRC_STATE_SEND n) 3).wr (R.SRC_STATE_READY n) 3
  s1.wr (R.SRC_STATE_COND n) (if custom then condLoading else condWait)

/-- SRCn_CFG has been written: SRCn_MEAS_SIZE reads 0 for a DMA source (R118). -/
def State.measSync (s : State) (n : Nat) : State :=
  if s.rd (R.SRC_CFG_INPUT n) = 0 then (s.wr (R.SRC_MEAS_SIZE_W n) 0).wr (R.SRC_MEAS_SIZE_H n) 0 else s

/-- The enabled source that takes side-port stream `k`: none while CORE is gated (R94). -/
def State.stSource (s : State) (k : Nat) : Option Nat :=
  if s.coreGated then none
  else (List.range 16).find? (fun n => s.rd (R.SRC_CFG_INPUT n) = k + 1 && decide (condLoading ≤ s.rd (R.SRC_STATE_COND n) ∧ s.rd (R.SRC_STATE_COND n) ≤ condOver))

/-- Whether a packet belongs to a stream (R358). -/
def State.stMatch (s : State) (port k : Nat) (p : St2110Packet) : Bool :=
  s.on (R.ETH_ST_CFG_EN k) && s.rd (R.ETH_ST_CFG_PORT k) = port && s.rd (R.ETH_ST_DST_IP_IP k) = p.dstIp &&
    (s.rd (R.ETH_ST_SRC_IP_IP k) = 0 || s.rd (R.ETH_ST_SRC_IP_IP k) = p.srcIp) && s.rd (R.ETH_ST_CFG_UDP k) = p.udp &&
    (s.rd (R.ETH_ST_CFG_PT k) = 0 || s.rd (R.ETH_ST_CFG_PT k) = p.pt)

/-- Clear a range of DRAM: an unlisted byte of it reads 0. -/
def State.clearDram (s : State) (a n : Nat) : State :=
  let b := Space.dram.key (a % dramSize s.build)
  { s with mem := s.mem.filter (fun c => !(inRange c.1 b n || inRange (c.1 + dramSize s.build) b n)) }

/-- The units of a line of the configured width. -/
def SrcCfg.lineUnits (c : SrcCfg) : Nat := (c.inW + unitPix c.fmt - 1) / unitPix c.fmt

/-- The first `n` units of a row have come. -/
def St2110.covers (x : St2110) (row n : Nat) : Bool := Sparse.look x.rows row 0 % 2 ^ n = 2 ^ n - 1

/-- The units of a line that its place in the line buffer has room for (R122). -/
def SrcCfg.lineRoom (c : SrcCfg) : Nat := min c.lineUnits (lineLimit c.fmt / unitPix c.fmt)

/-- A row segment's units are put into the line buffer: pixels beyond the configured size, or beyond a line's room, are discarded (R117, R118, R122). -/
def St2110.hold (x : St2110) (c : SrcCfg) (row u : Nat) : List Nat → St2110
  | [] => x
  | v :: t => (if row < c.inH ∧ u < c.lineRoom then { x with held := Sparse.put x.held (65536 * row + u) v } else x).hold c row (u + 1) t

/-- The lines that the line buffer holds, from the top. -/
def St2110.lines (x : St2110) : List Nat := (x.held.map (fun e => e.1 / 65536)).eraseDups

/-- Units that follow one another, each run with the place of its first. -/
def unitRuns : List (Nat × Nat) → List (Nat × List Nat)
  | [] => []
  | (u, v) :: t =>
    match unitRuns t with
    | (w, vs) :: r => if w = u + 1 then (u, v :: vs) :: r else (u, [v]) :: (w, vs) :: r
    | [] => [(u, [v])]

/-- A line leaves the line buffer: what is held of it is written to the fill buffer (R117). -/
def State.writeLine (s : State) (k n row : Nat) : State :=
  let c := s.srcCfg n
  let x := s.st k
  let b := memBits c.fmt / 8
  let own := (List.range c.lineRoom).filterMap (fun u => (Sparse.get x.held (65536 * row + u)).map (fun v => (u, v)))
  forL (unitRuns own) (fun r a => a.dramWrite 5 (s.bufBase n (s.src n).fill + row * c.stride + r.1 * b) (r.2.flatMap (fun v => natLE v b)))
    (s.setSt k { x with held := x.held.filter (fun e => e.1 / 65536 ≠ row) })

/-- The line buffer holds 8 lines: for a ninth the topmost leaves it (R122). Which line makes room, and that what has come of it is written, is a
DESIGN CHOICE, log entry 165. -/
def State.lineRoom (s : State) (k n : Nat) : State :=
  match (s.st k).lines with
  | r :: t => if 8 ≤ t.length then s.writeLine k n r else s
  | [] => s

/-- Set bits `lo` to `lo + n - 1` of a map. -/
def setBits (m lo n : Nat) : Nat := Nat.lor m ((2 ^ n - 1) * 2 ^ lo)

/-- A packet of stream `k` taken into the frame in reassembly: a line goes to head DRAM when every unit of the configured width has come; what comes
for it after that is not written again (R117; log entry 165). -/
def State.stRows (s : State) (k n : Nat) (rows : List StRow) : State :=
  forL rows (fun r a =>
    let c := a.srcCfg n
    let x := a.st k
    let up := unitPix c.fmt
    let x1 := { x with width := max x.width (r.offset + r.units.length * up), height := max x.height (r.row + 1),
                       rows := Sparse.put x.rows r.row (setBits (Sparse.look x.rows r.row 0) (r.offset / up) r.units.length) }
    if x.covers r.row c.lineUnits then a.setSt k x1
    else
      let a1 := a.setSt k (x1.hold c r.row (r.offset / up) r.units)
      if x1.covers r.row c.lineUnits && decide (r.row < c.inH) then a1.writeLine k n r.row else a1.lineRoom k n) s

/-- At the marker the lines that are whole at the measured width, where it is less than the configured one, are written (R117, R118). -/
def State.stFlush (s : State) (k n : Nat) : State :=
  let c := s.srcCfg n
  let m := (s.st k).width / unitPix c.fmt
  if c.lineUnits ≤ m then s
  else forN (min (s.st k).height c.inH) (fun r a => if (a.st k).covers r m then a.writeLine k n r else a) s

/-- The marker packet ends a frame: measured, refused as over-wide, discarded with a missing packet, or taken; OVERWIDTH ends with the first
frame whose width fits (R117, R118). -/
def State.stFrame (s : State) (k n : Nat) : State :=
  let x := s.st k
  let c := s.srcCfg n
  let s1 := ((s.setSt k x.drop).wr (R.SRC_MEAS_SIZE_W n) (min x.width 65535)).wr (R.SRC_MEAS_SIZE_H n) (min x.height 65535)
  let full := 2 ^ (x.width / unitPix c.fmt) - 1
  let whole := (List.range (min x.height c.inH)).all (fun r => Sparse.look x.rows r 0 = full)
  if lineLimit c.fmt < x.width then (s1.count (R.SRC_EVT_OVERWIDTH n)).wr (R.SRC_STATE_COND n) condOver
  else
    let s2 := if s1.rd (R.SRC_STATE_COND n) = condOver then s1.wr (R.SRC_STATE_COND n)
        (if (s1.src n).loading then condLoading else if s1.rd (R.SRC_STATE_SEND n) = 3 then condWait else condRunning) else s1
    if x.missing ≠ 0 ∨ whole = false then s2.count (R.SRC_EVT_BADFRAME n)
    else (if x.width ≠ c.inW ∨ x.height ≠ c.inH then s2.count (R.SRC_EVT_GEOM n) else s2).frameDone n

/-- An ST 2110 packet matched to stream `k` (R117, R118, R357, R358): a packet dropped for its F bit leaves no gap in the sequence. -/
def State.stPacket (s : State) (k : Nat) (p : St2110Packet) : State :=
  let s0 := s.count (R.ETH_ST_PKTS k)
  let x := s0.st k
  let gap := match x.expect with | none => 0 | some e => (p.extSeq + 4294967296 - e) % 4294967296
  let late := decide (2147483648 ≤ gap)
  let x1 := if late then { x with missing := x.missing - 1 } else { x with expect := some ((p.extSeq + 1) % 4294967296), missing := x.missing + gap }
  let s1 := if late then s0.setSt k x1 else (s0.setSt k x1).bump (R.ETH_ST_EVT_LOST k) gap
  if p.fieldBit then s1.count (R.ETH_ST_EVT_FORMAT k)
  else
    match s1.stSource k with
    | none => if p.marker then s1.setSt k (s1.st k).drop else s1
    | some n =>
      let s2 := if x1.rows = [] then s1.clearDram (s1.bufBase n (s1.src n).fill) (s1.rd (R.SRC_BUF_SIZE_SIZE n) * 4096) else s1
      let s3 := s2.stRows k n p.rows
      if p.marker then (s3.stFlush k n).stFrame k n else s3

/-! ### The pixel pipeline (R111, R123 to R125, R127) -/

/-! The whole parts of 16,384 x L(x) / sum, with L(x) = sinc(x) sinc(x / 4) and x = t - 3 - ph / 64, for the phases 1 to 32 (R124). -/

def lanczosPart0 : List (List Int) :=
  [[-26, 80, -227, 16376, 234, -83, 26, -1],
   [-49, 157, -444, 16355, 478, -168, 53, -2],
   [-72, 232, -652, 16320, 729, -256, 81, -3],
   [-93, 304, -851, 16270, 989, -345, 111, -5],
   [-113, 372, -1040, 16207, 1257, -436, 141, -7],
   [-132, 438, -1220, 16129, 1532, -529, 172, -10],
   [-149, 500, -1391, 16038, 1815, -624, 204, -13],
   [-166, 559, -1552, 15933, 2104, -720, 237, -17]]

def lanczosPart1 : List (List Int) :=
  [[-180, 615, -1703, 15816, 2400, -816, 270, -21],
   [-194, 667, -1845, 15684, 2703, -914, 304, -26],
   [-206, 716, -1977, 15540, 3011, -1012, 339, -32],
   [-217, 761, -2100, 15384, 3326, -1110, 374, -38],
   [-226, 803, -2213, 15215, 3645, -1209, 409, -44],
   [-234, 842, -2317, 15034, 3969, -1307, 444, -51],
   [-241, 877, -2411, 14841, 4298, -1405, 480, -58],
   [-247, 908, -2496, 14637, 4631, -1502, 515, -66]]

def lanczosPart2 : List (List Int) :=
  [[-252, 936, -2572, 14421, 4967, -1598, 550, -73],
   [-255, 960, -2638, 14195, 5307, -1693, 585, -82],
   [-257, 981, -2696, 13959, 5650, -1787, 620, -90],
   [-259, 999, -2745, 13713, 5994, -1878, 654, -99],
   [-259, 1014, -2785, 13457, 6341, -1967, 688, -108],
   [-258, 1025, -2817, 13192, 6689, -2054, 720, -117],
   [-256, 1033, -2841, 12918, 7038, -2138, 752, -126],
   [-254, 1038, -2856, 12636, 7387, -2219, 783, -136]]

def lanczosPart3 : List (List Int) :=
  [[-250, 1040, -2864, 12347, 7736, -2297, 813, -145],
   [-246, 1039, -2864, 12050, 8085, -2371, 841, -154],
   [-241, 1036, -2857, 11746, 8433, -2441, 868, -164],
   [-236, 1029, -2843, 11435, 8779, -2506, 894, -173],
   [-229, 1020, -2822, 11119, 9123, -2567, 918, -182],
   [-223, 1009, -2794, 10797, 9465, -2624, 940, -191],
   [-215, 995, -2760, 10470, 9804, -2675, 960, -199],
   [-207, 979, -2720, 10139, 10139, -2720, 979, -207]]

def lanczosParts : List (List Int) := lanczosPart0 ++ lanczosPart1 ++ lanczosPart2 ++ lanczosPart3

/-- The whole part of a Lanczos coefficient of phase 1 to 63: the window is even. -/
def lanczosWhole (ph t : Nat) : Int := if ph ≤ 32 then (lanczosParts.getD (ph - 1) []).getD t 0 else (lanczosParts.getD (63 - ph) []).getD (7 - t) 0

/-- A Lanczos coefficient as it is rounded: R124 states the window and the sum, and no rounding, so that whether it is rounded up is open. Log
entry 11. -/
def lanczosTap (axis ph t : Nat) : Int := lanczosWhole ph t + Config.lanczos axis ph t % 2

/-- A scaler tap of a kernel: axis 0 vertical, 1 horizontal (R124). The taps of a built-in phase sum to 16,384: tap 3 takes what the rounding of the
others leaves. Log entry 11. -/
def State.coef (s : State) (n kernel axis ph t : Nat) : Int :=
  if kernel = 0 then (if t = 3 then 16384 - 256 * (ph : Int) else if t = 4 then 256 * (ph : Int) else 0)
  else if kernel = 1 then
    (if ph = 0 then (if t = 3 then 16384 else 0)
     else if t = 3 then 16384 - [0, 1, 2, 4, 5, 6, 7].foldl (fun b u => b + lanczosTap axis ph u) 0
     else lanczosTap axis ph t)
  else sgn 16 (leNat (takePad ((s.src n).kernel.drop ((axis * 64 + ph) * 16 + t * 2)) 2))

/-- The position of output sample j: whole part and phase (R123). -/
def scalePos (nin nout j : Nat) : Int × Nat :=
  let st := 65536 * nin / nout
  let a : Int := ((st / 2 : Nat) : Int) - 32768 + (j : Int) * st
  (a / 65536, (a / 1024 % 64).toNat)

/-- One pass of the scaler over a line of samples given by a function of the index (R123): round half up, saturate. -/
def State.scale (s : State) (n kernel axis nin nout : Nat) (f : Nat → Nat) (j : Nat) : Nat :=
  if nin = nout then f j
  else
    let p := scalePos nin nout j
    let acc : Int := (List.range 8).foldl (fun a t =>
      a + s.coef n kernel axis p.2 t * (f (clampI 0 ((nin : Int) - 1) (p.1 - 3 + t)).toNat : Int)) 0
    (clampI 0 1023 ((acc + 8192) / 16384)).toNat

/-- Component `k` of pixel (x, y) of the cropped frame in the buffer at `base`, chroma upsampled where the output format
requires it (R111 step 3, R123). In format 0x2 the components are Y, Cb, Cr as in format 0x1. -/
def State.srcIn (s : State) (c : SrcCfg) (base k x y : Nat) : Nat :=
  let line := base + (c.cy + y) * c.stride
  let px := c.cx + x
  let at_ (u lsb w : Nat) : Nat := s.bitsAt line (u * memBits c.fmt + lsb) w
  if c.fmt = 0 ∨ c.fmt = 1 then at_ px (10 * k) 10
  else if c.fmt = 3 then at_ px (8 * k) 8
  else if c.fmt = 2 then
    let u := px / 2
    let chroma (v : Nat) : Nat := at_ v (if k = 1 then 0 else 20) 10
    if k = 0 then at_ u (if px % 2 = 0 then 10 else 30) 10
    else if px % 2 = 0 then chroma u
    else if x + 1 < c.cw ∧ c.out10 = true then (chroma u + chroma (u + 1) + 1) / 2
    else chroma u
  else at_ px 0 (memBits c.fmt)

/-- Component `k` of output pixel (x, y) after both scaling passes. -/
def State.srcScaled (s : State) (n : Nat) (c : SrcCfg) (base k x y : Nat) : Nat :=
  if isIndexed c.fmt then s.srcIn c base k x y
  else s.scale n c.kernel 1 c.cw c.ow (fun xi => s.scale n c.kernel 0 c.ch c.oh (fun yi => s.srcIn c base k xi yi) y) x

/-- The matrix and offsets of a source (SRCn_CSC_M, SRCn_CSC_OFS). -/
def State.cscM (s : State) (n i : Nat) : Int :=
  let f (lo hi : Fld) : Fld := if i % 2 = 0 then lo else hi
  s.rdI (match i / 2 with
    | 0 => f (R.SRC_CSC_M0_LO n) (R.SRC_CSC_M0_HI n)
    | 1 => f (R.SRC_CSC_M1_LO n) (R.SRC_CSC_M1_HI n)
    | 2 => f (R.SRC_CSC_M2_LO n) (R.SRC_CSC_M2_HI n)
    | 3 => f (R.SRC_CSC_M3_LO n) (R.SRC_CSC_M3_HI n)
    | _ => R.SRC_CSC_M4_LO n)

def State.cscOfs (s : State) (n i : Nat) : Int :=
  s.rdI (match i with
    | 0 => R.SRC_CSC_OFS0_LO n
    | 1 => R.SRC_CSC_OFS0_HI n
    | 2 => R.SRC_CSC_OFS1_LO n
    | 3 => R.SRC_CSC_OFS1_HI n
    | 4 => R.SRC_CSC_OFS2_LO n
    | _ => R.SRC_CSC_OFS2_HI n)

/-- Colour conversion of component `k` (R125). -/
def State.convert (s : State) (n k : Nat) (x : Nat → Nat) : Nat :=
  let acc : Int := (List.range 3).foldl (fun a j => a + s.cscM n (3 * k + j) * ((x j : Int) + s.cscOfs n j)) 0
  (clampI 0 1023 ((acc + 8192) / 16384 + s.cscOfs n (3 + k))).toNat

/-- Component `k` of an output pixel as it is packed: RGB8 widened for RGB10 output, colour conversion when enabled. -/
def State.srcOut (s : State) (n : Nat) (c : SrcCfg) (base k x y : Nat) : Nat :=
  let f (j : Nat) : Nat :=
    let v := s.srcScaled n c base j x y
    if c.fmt = 3 ∧ c.out10 = true then Nat.lor (v * 4) (v / 64) else v
  if c.csc then s.convert n k f else f k

/-- A component in a wire field of `n` values (R127); what one that is too large gives is free (log entry 142). -/
def fits (n v : Nat) : Nat := if v < n then v else Config.overRange n v % n

/-- The wire bits of unit `u` of an output frame, in raster order (R112, R127). -/
def State.wireUnit (s : State) (n : Nat) (c : SrcCfg) (base u : Nat) : Nat :=
  if c.wire = 2 then
    let x := 2 * u % c.ow
    let y := 2 * u / c.ow
    s.srcOut n c base 1 x y % 1024 + s.srcOut n c base 0 x y % 1024 * 1024 + s.srcOut n c base 2 x y % 1024 * 1048576 +
      s.srcOut n c base 0 (x + 1) y % 1024 * 1073741824
  else
    let x := u % c.ow
    let y := u / c.ow
    if isIndexed c.wire then s.srcOut n c base 0 x y
    else if c.wire = 3 then fits 256 (s.srcOut n c base 0 x y) + fits 256 (s.srcOut n c base 1 x y) * 256 + fits 256 (s.srcOut n c base 2 x y) * 65536
    else fits 1024 (s.srcOut n c base 0 x y) + fits 1024 (s.srcOut n c base 1 x y) * 1024 + fits 1024 (s.srcOut n c base 2 x y) * 1048576

/-- Units and pixel cells of an output frame (R127). -/
def SrcCfg.units (c : SrcCfg) : Nat := c.ow * c.oh / unitPix c.wire
def SrcCfg.cells (c : SrcCfg) : Nat := (c.units * wireBits c.wire + 2047) / 2048

/-- The 256 bytes of pixel cell `k` (R127). -/
def State.srcCell (s : State) (n : Nat) (c : SrcCfg) (base k : Nat) : List Byte :=
  let w := wireBits c.wire
  let u0 := k * 2048 / w
  let cnt := (2048 + w - 1) / w + 1
  let v := (List.range cnt).foldl (fun a i =>
    if u0 + i < c.units then a + s.wireUnit n c base (u0 + i) * 2 ^ (i * w) else a) 0
  natLE (v / 2 ^ (k * 2048 - u0 * w)) 256

/-- How many lines of the cropped frame the first `k` cells need: the rows they reach, and the taps below (R122, R123). -/
def SrcCfg.linesFor (c : SrcCfg) (k : Nat) : Nat :=
  if k = 0 then 0
  else
    let u := min c.units ((k * 2048 + wireBits c.wire - 1) / wireBits c.wire)
    let y := (u * unitPix c.wire - 1) / max 1 c.ow
    if c.ch = c.oh then min c.ch (y + 1) else (clampI 0 c.ch ((scalePos c.ch c.oh y).1 + 5)).toNat

/-- The bytes of line `y` of the cropped frame in the buffer at `base`. -/
def SrcCfg.lineSpan (c : SrcCfg) (base y : Nat) : Nat × Nat :=
  let b0 := c.cx / unitPix c.fmt * memBits c.fmt
  let b1 := (c.cx + c.cw + unitPix c.fmt - 1) / unitPix c.fmt * memBits c.fmt
  (base + (c.cy + y) * c.stride + b0 / 8, (b1 + 7) / 8 - b0 / 8)

/-- The lines that cell `k` needs and no earlier cell did, read as the source conditioners (R122, R364). -/
def State.srcFetch (s : State) (c : SrcCfg) (base k : Nat) : State :=
  let lo := c.linesFor k
  let l := (List.range (c.linesFor (k + 1) - lo)).map (fun i => c.lineSpan base (lo + i))
  let t := s.dramUses 5 l false
  if l.all (fun p => s.dramServes p.1 p.2) then t else t.useFree

/-! ### The epoch boundary: swap and admission (R119, R120, R131, R347) -/

/-- Locators of a frame of C cells (R129). -/
def locators (c : Nat) : Nat := (c + 16383) / 16384

/-- A source is running: enabled and past loading. -/
def State.srcActive (s : State) (n : Nat) : Bool :=
  let c := s.rd (R.SRC_STATE_COND n)
  (c = condWait || c = condRunning || c = condOver) && !(s.src n).loading && !s.parked 1

/-- The swap at a boundary (R119). -/
def State.srcSwap (s : State) (n : Nat) : State :=
  if !s.srcActive n then s
  else
    let x := s.src n
    let full := x.sends.filter (fun e => !e.2.active && !e.2.repeatOnly && !e.2.late && decide (e.2.next = e.2.cells))
    let since := full.foldl (fun l e => Sparse.put l e.1 0) x.since
    let x1 := { x with made := 0, madeRep := false, sends := [], built := [], since := since.map (fun (e : Nat × Nat) => (e.1, e.2 + 1)) }
    if s.rd (R.SRC_STATE_READY n) ≠ 3 then
      let s1 := (((s.setSrc n { x1 with fresh := true }).wr (R.SRC_STATE_SEND n) (s.rd (R.SRC_STATE_READY n))).wr (R.SRC_STATE_READY n) 3).inc (R.SRC_FRAME_COUNT n)
      if s.rd (R.SRC_STATE_COND n) = condWait then s1.wr (R.SRC_STATE_COND n) condRunning else s1
    else
      let s1 := s.setSrc n { x1 with fresh := false }
      if s.rd (R.SRC_STATE_SEND n) ≠ 3 then s1.count (R.SRC_EVT_REPEAT n) else s1

/-- t_r in ns (R131). -/
def cellNs (width : Nat) : Nat := if width = 1 then 92 else if width = 2 then 46 else 23

/-- b_r of R131. -/
def State.ringBudget (s : State) (r : Nat) : Nat :=
  let w := s.rd R.EPC_PERIOD_NS - s.rd R.SRC_GAP_GAP - s.rd (R.RING_PATH_NS r)
  w * (1000 - s.rd (R.RING_SHARE_PERMILLE r)) / (1000 * cellNs (s.portWidth (2 * r)))

/-- A ring the head sends pictures on: enabled and mastered (R130, R314). -/
def State.ringOpen (s : State) (r : Nat) : Bool := s.portOn (2 * r) && s.masters r

/-- Whether a source has a full frame due on a ring (R120). -/
def State.srcDue (s : State) (n r : Nat) : Bool :=
  let refresh := s.rd (R.SRC_PLACE_CFG_REFRESH n)
  (s.src n).fresh || (refresh ≠ 0 && (match Sparse.get (s.src n).since r with | none => true | some k => decide (refresh ≤ k)))

/-- Something a ring's admission visits: a source, or relay entry 16 + i. -/
def State.entryPrio (s : State) (e : Nat) : Nat := if e < 16 then s.rd (R.SRC_CFG_PRIO e) else s.rd (R.SPR_RELAY_PRIO (e - 16))

/-- Entries in ascending priority, ties by number (R131). -/
def insertPrio (prio : Nat → Nat) (e : Nat) : List Nat → List Nat
  | [] => [e]
  | a :: t => if prio a ≤ prio e then a :: insertPrio prio e t else e :: a :: t

def sortPrio (prio : Nat → Nat) (l : List Nat) : List Nat := l.foldl (fun a e => insertPrio prio e a) []

def State.setSend (s : State) (e r : Nat) (x : RingSend) : State :=
  if e < 16 then s.setSrc e { s.src e with sends := Sparse.put (s.src e).sends r x }
  else s.setRelay (e - 16) { s.relay (e - 16) with sends := Sparse.put (s.relay (e - 16)).sends r x }

def State.sendOf (s : State) (e r : Nat) : RingSend :=
  if e < 16 then Sparse.look (s.src e).sends r RingSend.init else Sparse.look (s.relay (e - 16)).sends r RingSend.init

def State.setLeft (s : State) (r v : Nat) : State := { s with ingest := { s.ingest with left := Sparse.put s.ingest.left r v } }

/-- Admit or skip one entry's frame of `cells` on a ring against what is left of the budget (R131, R347). -/
def State.acceptReq (s : State) (e r cells : Nat) : State :=
  let cost := cells + locators cells
  let left := Sparse.look s.ingest.left r 0
  if cost ≤ left then
    (s.setLeft r (left - cost)).setSend e r { active := true, repeatOnly := false, locDone := false, cells := cells, upto := cells, next := 0, frame := if e < 16 then s.rd (R.SRC_FRAME_COUNT e) else 0 }
  else
    let s1 := s.setSend e r { active := true, repeatOnly := true, locDone := false, cells := cells, upto := cells, next := 0, frame := if e < 16 then s.rd (R.SRC_FRAME_COUNT e) else 0 }
    s1.count (if e < 16 then R.SRC_EVT_SKIP e else R.SPR_EVT_RELAY_SKIP)

/-- One entry on one ring at the boundary. A relayed stream whose CELLS is not yet known is not admitted: with its next locator it is judged by R347,
and counts where it is then not admitted. -/
def State.visitEntry (s : State) (r e : Nat) : State :=
  if e < 16 then
    if s.srcActive e && s.rd (R.SRC_STATE_SEND e) ≠ 3 && bitOf (s.rd (R.SRC_ROUTE_RING_MASK e)) r then
      if s.srcDue e r then s.acceptReq e r (s.srcCfg e).cells
      else s.setSend e r { active := true, repeatOnly := true, locDone := false, cells := (s.srcCfg e).cells, upto := (s.srcCfg e).cells, next := 0, frame := s.rd (R.SRC_FRAME_COUNT e) }
    else s
  else if s.on (R.SPR_RELAY_VALID (e - 16)) && bitOf (s.rd (R.SPR_RELAY_RING_MASK (e - 16))) r then
    match (s.relay (e - 16)).cells with
    | none => s.setSend e r { active := true, repeatOnly := true, locDone := false, cells := 0, upto := 0, next := 0, frame := 0 }
    | some c => s.acceptReq e r c
  else s

/-- Admission on one ring (R131), at the boundary: SRC_RING_BUDGET of a ring that is disabled reads 0 from the next boundary on. DESIGN CHOICE, log entry 194. -/
def State.admitRing (s : State) (r : Nat) : State :=
  if !s.portOn (2 * r) then (s.wr (R.SRC_RING_BUDGET_CELLS r) 0).setLeft r 0
  else
    let b := s.ringBudget r
    let s1 := (s.wr (R.SRC_RING_BUDGET_CELLS r) b).setLeft r b
    if s.masters r then forL (sortPrio s.entryPrio (List.range 80)) (fun e a => a.visitEntry r e) s1 else s1

/-- The heads a source's SPUR mask names, its own apart (R130, SRCn_SPUR_LO). -/
def State.spurHeads (s : State) (n : Nat) : List Nat :=
  let m := s.rd (R.SRC_SPUR_LO_HEADS n) + 4294967296 * s.rd (R.SRC_SPUR_HI_HEADS n)
  (List.range 64).filter (fun h => bitOf m h && h ≠ s.headNo)

/-- The key under which a source's copies for the Spur links are sent: they go out at every new or refreshed frame. -/
def spurKey : Nat := 12

/-- Swap, relays' rounds begin anew, and admission on every ring at an epoch boundary of a head (R119, R131). -/
def State.sourceBoundary (s : State) : State :=
  match s.build with
  | .tile => s
  | .head =>
    let s1 := forN 16 (fun n a => a.srcSwap n) s
    let s2 := forN 64 (fun i a => a.setRelay i { a.relay i with sends := [] }) s1
    let s3 := forN 12 (fun r a => a.admitRing r) s2
    forN 16 (fun n a =>
      if a.srcActive n && a.rd (R.SRC_STATE_SEND n) ≠ 3 && a.spurHeads n ≠ [] then
        a.setSend n spurKey { active := true, repeatOnly := !a.srcDue n spurKey, locDone := false, cells := (a.srcCfg n).cells, upto := (a.srcCfg n).cells, next := 0, frame := a.rd (R.SRC_FRAME_COUNT n) }
      else a) s3

/-! ### Production of cells (R128 to R130, R132) -/

/-- The next pixel sequence number of a stream on a ring, and whether it carries SYNC (R128, R294). -/
def State.pixSeq (s : State) (stream r : Nat) : Nat × Bool × State :=
  let k := stream * 16 + r
  match Sparse.get s.seqs.pix k with
  | none => (0, true, { s with seqs := { s.seqs with pix := Sparse.put s.seqs.pix k 1 } })
  | some q => (q, false, { s with seqs := { s.seqs with pix := Sparse.put s.seqs.pix k ((q + 1) % 65536) } })

/-- The locator payload (R129). -/
def State.locatorBytes (s : State) (n kind index seq frame cells : Nat) : List Byte :=
  let c := s.srcCfg n
  natLE kind 4 ++ natLE s.epochNo 4 ++ natLE frame 4 ++ natLE index 4 ++ natLE seq 2 ++ natLE 0 2 ++ natLE cells 4 ++
    natLE (s.rd (R.SRC_PLACE_XY_X n)) 2 ++ natLE (s.rd (R.SRC_PLACE_XY_Y n)) 2 ++ natLE c.ow 2 ++ natLE c.oh 2 ++
    natLE (s.rd (R.SRC_PLACE_CFG_SURFACE n)) 1 ++ natLE c.wire 1

/-- Send a pixel-class cell of a stream on a ring: one sequence number, out of both ends (R128, R294). -/
def State.pixelOut (s : State) (stream r : Nat) (loc : Bool) (mk : Nat → List Byte) : State :=
  let q := s.pixSeq stream r
  q.2.2.sendBoth r { mkCell clsPixel 0 (nodeId s.headNo r 0) noNode q.1 q.2.1 true (mk q.1) with loc := loc, stream := stream }

/-- The copies of a cell for other heads (R347). -/
def State.pixelSpur (s : State) (n stream : Nat) (loc : Bool) (mk : Nat → List Byte) : State :=
  let q := s.pixSeq stream spurKey
  forL (s.spurHeads n) (fun h a => a.sendSpur h { mkCell clsPixel 0 (nodeId s.headNo 0 0) (nodeId h 0 0) q.1 q.2.1 false (mk q.1) with loc := loc, stream := stream }) q.2.2

def State.pixelTo (s : State) (n stream r : Nat) (loc : Bool) (mk : Nat → List Byte) : State :=
  if r = spurKey then s.pixelSpur n stream loc mk else s.pixelOut stream r loc mk

/-- Count a produced cell of a source once, whichever ring takes it first (SRCn_CELLS). -/
def State.noteMade (s : State) (n item : Nat) : State :=
  let x := s.src n
  if x.made ≤ item then (s.setSrc n { x with made := item + 1 }).bump (R.SRC_CELLS n) 1 else s

/-- Pixel cell `k` of the frame that a source sends: each cell is produced once, when a ring first asks for it, and replicated (R130). -/
def State.cellOf (s : State) (n : Nat) (c : SrcCfg) (base k : Nat) : List Byte × State :=
  match Sparse.get (s.src n).built k with
  | some b => (b, s)
  | none =>
    let b := s.srcCell n c base k
    let t := s.srcFetch c base k
    (b, t.setSrc n { t.src n with built := Sparse.put (t.src n).built k b })

/-- The next cell of source `n` on a ring: a locator before cells 0, 16,384 and so on, then the cell (R129). No pixel cell follows a REPEAT; its SEQ is the number
after its own. DESIGN CHOICE, log entry 193. -/
def State.produce (s : State) (n r : Nat) : State :=
  let x := s.sendOf n r
  let c := s.srcCfg n
  let stream := s.headNo * 16 + n
  if x.repeatOnly then
    let s1 := (s.setSend n r { x with active := false }).pixelTo n stream r true (fun q => s.locatorBytes n 2 0 ((q + 1) % 65536) x.frame x.cells)
    if (s1.src n).madeRep then s1 else (s1.setSrc n { s1.src n with madeRep := true }).bump (R.SRC_CELLS n) 1
  else if x.next % 16384 = 0 && !x.locDone then
    ((s.setSend n r { x with locDone := true }).pixelTo n stream r true (fun q => s.locatorBytes n (if x.next = 0 then 0 else 1) x.next ((q + 1) % 65536) x.frame x.cells)).noteMade n (x.next + x.next / 16384)
  else
    let last := decide (x.upto ≤ x.next + 1)
    let base := s.bufBase n (s.rd (R.SRC_STATE_SEND n))
    let p := s.cellOf n c base x.next
    let s1 := (p.2.setSend n r { x with next := x.next + 1, locDone := false, active := !last }).pixelTo n stream r false (fun _ => p.1)
    s1.noteMade n (x.next + x.next / 16384 + 1)

/-- The source that sends next on a ring, round-robin after the last; a source that CORE has stopped for (WEDGED) sends nothing (R94, R132). -/
def State.nextSource (s : State) (r : Nat) : Option Nat :=
  let last := Sparse.look s.ingest.rr r 15
  ((List.range 16).map (fun i => (last + 1 + i) % 16)).find? (fun n => (s.sendOf n r).active && s.run .SRC (n / 4) ≠ runWedged)

/-- The ports that the copies of a send leave by: both ends of a ring, or the Spur ports. -/
def sendPorts (r : Nat) : List Nat := if r = spurKey then [24, 25, 26, 27] else [2 * r, 2 * r + 1]

/-- Every port of a send that takes cells has room for the copies of one more cell: on a Spur link, one for each head that a mask can name. -/
def State.roomFor (s : State) (r : Nat) : Bool :=
  (sendPorts r).all (fun id => !s.queues id || decide ((s.port id).q2.length + (if r = spurKey then 63 else 1) ≤ pxLimit))

/-- The next cell for the pixel queues of a ring's two ends, or of the Spur ports (R132): at a cell boundary of a port whose pixel queue is empty,
where the other ports have room, so that no cell the head produces is dropped. -/
def State.refill (s : State) (r id : Nat) : State :=
  if !(s.port id).q2.isEmpty || !s.roomFor r || (r ≠ spurKey && !s.ringOpen r) then s
  else match s.nextSource r with
    | none => s
    | some n => ({ s with ingest := { s.ingest with rr := Sparse.put s.ingest.rr r n } }).produce n r

/-- The stream of a source, or of a relay entry (R128, R347). -/
def State.streamOf (s : State) (e : Nat) : Nat := if e < 16 then s.headNo * 16 + e else s.aliasStream (s.rd (R.SPR_RELAY_STREAM (e - 16)))

/-- Whether a pixel-class cell of a stream waits in a pixel queue of a ring. -/
def State.waitsOn (s : State) (r stream : Nat) : Bool :=
  [2 * r, 2 * r + 1].any (fun id => (s.port id).q2.any (fun (q : QCell) => q.cell.stream = stream))

/-- Take the cells of a stream out of the pixel queues of a ring. The sequence numbers that they took stay used, so the next cell of the stream on the ring
skips them: R128 counts the cells sent and R132 does not say what becomes of the numbers of cells that wait. DESIGN CHOICE, log entry 166. -/
def State.withdraw (s : State) (r stream : Nat) : State :=
  forL [2 * r, 2 * r + 1] (fun id a =>
    a.setPort id { a.port id with q2 := (a.port id).q2.filter (fun (q : QCell) => q.cell.stream ≠ stream) }) s

/-- The deadline of a source or relay on a ring passes: a frame whose last cell has not left stops there, the cells that still wait go with it, and it is
counted (R132). A conditioner whose clock is gated keeps no deadline (R94). -/
def State.deadline (s : State) (e r : Nat) : State :=
  let x := s.sendOf e r
  if e < 16 && s.coreGated then s
  else if !x.repeatOnly && (x.active || s.waitsOn r (s.streamOf e)) then
    let s1 := (s.setSend e r { x with active := false, late := true }).withdraw r (s.streamOf e)
    if e < 16 then s1.count (R.SRC_EVT_LATE e) else s1
  else s

/-! ### Relayed streams (R347) -/

/-- The relay entry of a stream; the heads replace its STREAM's head as capture does (R321). -/
def State.relayOf (s : State) (stream : Nat) : Option Nat :=
  (List.range 64).find? (fun i => s.on (R.SPR_RELAY_VALID i) && s.aliasStream (s.rd (R.SPR_RELAY_STREAM i)) = stream)

/-- A FRAME locator whose CELLS exceeds the admitted count: the head admits the frame again against what remains of the budget; a frame that was skipped
for what it asked then counts no second skip (R347). -/
def State.readmit (s : State) (e r cells : Nat) : State :=
  let x := s.sendOf e r
  if !(x.active && decide (x.cells < cells)) then s
  else if x.repeatOnly then
    (if x.cells ≠ 0 && decide (Sparse.look s.ingest.left r 0 < cells + locators cells) then s.setSend e r { x with cells := cells, upto := cells }
     else s.acceptReq e r cells)
  else (s.setLeft r (Sparse.look s.ingest.left r 0 + x.cells + locators x.cells)).acceptReq e r cells

/-- A REPEAT locator goes out in place of a locator of a relayed stream: a frame that is not admitted sends one, and one of a stream whose CELLS was not known
is counted now (R347). -/
def State.repeatSent (s : State) (e r kind : Nat) : State :=
  let x := s.sendOf e r
  let s1 := s.setSend e r { x with active := if kind = 2 then x.active else false }
  if x.repeatOnly && x.cells = 0 && kind ≠ 2 then s1.count R.SPR_EVT_RELAY_SKIP else s1

/-- A relayed pixel-class cell that arrived over a Spur link. -/
def State.relayCell (s : State) (c : Cell) : State :=
  match s.relayOf c.stream with
  | none => s.count R.SPR_EVT_NOROUTE
  | some i =>
    let e := 16 + i
    let kind := pn c 0 4
    let cells := pn c 20 4
    let mask := s.rd (R.SPR_RELAY_RING_MASK i)
    let s1 := if c.loc && kind = 0 then
        let a := s.setRelay i { s.relay i with cells := some cells }
        forN 12 (fun r b => if bitOf mask r && b.ringOpen r then b.readmit e r cells else b) a
      else s
    forN 12 (fun r b =>
      let x := b.sendOf e r
      if !(bitOf mask r && b.ringOpen r && x.active) then b
      else if x.repeatOnly || (c.loc && kind = 2) then
        if c.loc then
          (b.repeatSent e r kind).pixelOut c.stream r true
            (fun q => natLE 2 4 ++ ((takePad c.payload 256).drop 4).take 8 ++ natLE 0 4 ++ natLE ((q + 1) % 65536) 2 ++ (takePad c.payload 256).drop 18)
        else b
      else if c.loc then
        b.pixelOut c.stream r true (fun q => (takePad c.payload 256).take 16 ++ natLE ((q + 1) % 65536) 2 ++ (takePad c.payload 256).drop 18)
      else (b.setSend e r { x with next := x.next + 1 }).pixelOut c.stream r false (fun _ => c.payload)) s1

/-! ### Page hooks -/

/-- Whether a source runs by its enables (R58). -/
def State.srcOn (s : State) (n : Nat) : Bool := s.enabled .SRC (n / 4) && s.on (R.SRC_CFG_ENABLE n)

/-- The cells that end the line in progress on a ring (R69). -/
def SrcCfg.lineEnd (c : SrcCfg) (next : Nat) : Nat :=
  let w := wireBits c.wire
  let u := next * 2048 / w
  let perLine := c.ow / unitPix c.wire
  ((u / max 1 perLine + 1) * perLine * w + 2047) / 2048

/-- A source stops: it finishes the current output line (R69). -/
def State.srcStop (s : State) (n : Nat) : State :=
  let x := s.src n
  let c := s.srcCfg n
  (s.setSrc n { x with sends := x.sends.map (fun e => (e.1, { e.2 with upto := min e.2.upto (c.lineEnd e.2.next) })) }).wr (R.SRC_STATE_COND n) condDraining

/-- A source's enables have changed. -/
def State.srcSync (s : State) (n : Nat) : State :=
  let c := s.rd (R.SRC_STATE_COND n)
  if s.srcOn n && (c = condOff || c = condDrained) then s.srcStart n
  else if !s.srcOn n && decide (condLoading ≤ c ∧ c ≤ condOver) then s.srcStop n
  else s

/-- The drain of a source ends. -/
def State.srcDrained (s : State) (n : Nat) : State :=
  if s.rd (R.SRC_STATE_COND n) = condDraining then (s.setSrc n { s.src n with sends := [] }).wr (R.SRC_STATE_COND n) condDrained else s

end Sys2Proof.Machine
end

