-- ==== Sys2Proof/Machine/HostOps.lean ====
section
/-! DEFINITION. The host interface (R334 to R346): bus error logging, apertures and remote requests, event queues and
doorbells. -/

namespace Sys2Proof.Machine

/-! ### Bus errors (R74, R75) -/

/-- This device's own node ID (SYS_BERR_INFO.NODE). -/
def State.ownNode (s : State) : Nat := match s.build with | .tile => s.rd (R.RING_STATE_NODE 0) | .head => nodeId s.headNo 0 0

/-- Log a bus error (SYS_BERR). -/
def State.logBerr (s : State) (addr reason : Nat) (write : Bool) (path : Path) (node : Nat) : State :=
  (((((s.count R.SYS_BERR_CNT).wr R.SYS_BERR_ADDR_ADDR addr).wr R.SYS_BERR_INFO_NODE node).wrB R.SYS_BERR_INFO_WRITE write).wr
    R.SYS_BERR_INFO_PATH (Path.code path)).wr R.SYS_BERR_INFO_REASON reason

/-- A Completer Abort of a function to the host (HST_EVT_CA), under AER as that function's Completer Abort (R75, R334). -/
def State.abortOf (s : State) (fn : Nat) : State := ((s.count R.HST_EVT_CA).aer fn 15).emit (.abort .pcie)

/-- A Completer Abort of PF0, which holds BAR0 and BAR2 (R333). -/
def State.completerAbort (s : State) : State := s.abortOf 0

/-! ### Remote requests (R338 to R340) -/

/-- Where a BAR2 request goes. -/
inductive RemTo where
  | noNode
  | local
  | remote (head node : Nat)
  deriving DecidableEq, Repr

/-- The target of a BAR2 offset, resolved in the order of R338. A tile keeps its node ID through a takeover (R25), so the cell goes to
the head that stands for its home head, with the tile's own ID as DEST. -/
def State.aptTarget (s : State) (o : Nat) : RemTo :=
  let a := o / 2097152 % 128
  let n := s.rd (R.HST_APT_NODE a)
  if !s.on (R.HST_APT_VALID a) || decide (12 ≤ nodeRing n) then .noNode
  else
    let h := s.aliasOf (nodeHead n)
    if nodePos n = 0 ∧ h = s.headNo then .local
    else if h ≠ s.headNo ∧ s.on (R.SPR_ROUTE_VALID h) = false then .noNode
    else if nodePos n = 0 then .remote h (nodeId h 0 0)
    else .remote h n

/-- A request of `n` dwords to a node's map that is over-long: more than 2 dwords to a register page, or a length outside 1 to 128 (R55, R74). -/
def overLong (addr n : Nat) : Bool := decide (n = 0 ∨ 128 < n) || (decide (2 < n) && decide (addr < 1048576))

/-- The cells of a request, their addresses and counts (R340): one for each 60 dwords; an over-long request goes as one cell, which its target
refuses (log entry 88). -/
def regParts (addr count : Nat) : List (Nat × Nat) :=
  if overLong addr count then [(addr, min 255 count)]
  else (List.range ((count + 59) / 60)).map (fun i => (addr + 240 * i, min 60 (count - 60 * i)))

/-- The payload of a register cell (R340). -/
def regPayload (addr count flags : Nat) (data : List Word) : List Byte :=
  natLE (addr % 2097152) 4 ++ natLE count 1 ++ natLE flags 1 ++ natLE 0 10 ++ bytesOf data

/-- Send a control cell with a tag to a node: onto its ring out of both ends, from the head's own node on that ring, or by the
Spur route (R294, R338). -/
def State.sendTagged (s : State) (node typ tag : Nat) (mk : Cell → Cell) (payload : List Byte) : State :=
  let h := s.aliasOf (nodeHead node)
  if h = s.headNo then s.originate (nodeRing node) (fun c => mk { c with aux := tag }) typ node payload
  else s.originateSpur h (fun c => mk { c with aux := tag }) typ node payload

def State.nextTag (s : State) : State := { s with host := { s.host with nextTag := (s.host.nextTag + 1) % 256 } }

/-- Send the REG_RD cells of a read and hold it outstanding. -/
def State.startRemote (s : State) (x : Remote) : State :=
  let tag := s.host.nextTag
  let parts := regParts x.addr x.count
  let s1 := ({ s with host := { s.host with remotes := s.host.remotes ++ [{ x with tag := tag, parts := parts.length }] } }).nextTag
  forL parts (fun p a => a.sendTagged x.node tRegRd tag (fun c => c) (regPayload p.1 p.2 0 [])) s1

/-- A remote read of the host: outstanding, or waiting as the 33rd (R78). -/
def State.remoteRead (s : State) (node addr count : Nat) : State :=
  let x : Remote := { tag := 0, node := node, addr := addr, count := count, parts := 0, got := [], failed := false }
  if s.host.remotes.length < 32 then s.startRemote x
  else { s with host := { s.host with waiting := s.host.waiting ++ [x] } }

/-- A posted remote write of the host (R340). -/
def State.remoteWrite (s : State) (node addr : Nat) (data : List Word) : State :=
  let tag := s.host.nextTag
  forL (regParts addr data.length) (fun p a =>
    a.sendTagged node tRegWr tag (fun c => c) (regPayload p.1 p.2 1 ((data.drop ((p.1 - addr) / 4)).take (min 60 p.2)))) s.nextTag

/-- The dwords of a completed read, in ascending order. -/
def Remote.words (x : Remote) : List Word := (List.range x.count).map (fun i => BitVec.ofNat 32 (Sparse.look x.got i 0))

/-- A remote read ends: its completion, and the next one that waits starts (R78). -/
def State.remoteEnd (s : State) (x : Remote) : State :=
  let s1 := { s with host := { s.host with remotes := s.host.remotes.filter (fun (y : Remote) => y.tag ≠ x.tag) } }
  let s2 := if x.failed then s1.completerAbort else s1.emit (.data .pcie x.words)
  match s2.host.waiting with
  | [] => s2
  | w :: t => ({ s2 with host := { s2.host with waiting := t } }).startRemote w

/-- Whether an answer is one to a read: it comes from the target, or it is the error of a head on the way, which answers NO_NODE (R338). -/
def Remote.answers (x : Remote) (tag node : Nat) (err : Bool) : Bool := x.tag = tag && (x.node = node || (err && nodePos node = 0))

/-- A part's answer reaches the lead head: its data, or the error, and the end when every part has answered (R340). -/
def State.remoteAnswer (s : State) (tag node addr count : Nat) (err : Bool) (data : List Byte) : State :=
  match s.host.remotes.find? (fun (x : Remote) => x.answers tag node err) with
  | none => s
  | some x =>
    let base := (addr - x.addr) / 4
    let ws := (wordsOf (takePad data (4 * count))).map BitVec.toNat
    let got := if err then x.got else (List.range count).foldl (fun l i => Sparse.put l (base + i) (ws.getD i 0)) x.got
    let y : Remote := { x with parts := x.parts - 1, got := got, failed := x.failed || err }
    if y.parts = 0 then s.remoteEnd y
    else { s with host := { s.host with remotes := s.host.remotes.map (fun (z : Remote) => if z.tag = tag then y else z) } }

/-- Drop every remote request and every read of host memory, as at a fundamental reset of the PCIe link. -/
def State.dropRemotes (s : State) : State := { s with host := { s.host with remotes := [], waiting := [], cpls := [], jobs := [], reads := [], stalled := [] } }

/-! ### Doorbells (R334) -/

/-- Record a doorbell's value. -/
def State.bell (s : State) (fn off idx : Nat) : State :=
  { s with host := { s.host with bells := Sparse.put s.host.bells (fn * 65536 + off) (idx % 65536) } }

def State.bellAt (s : State) (fn off : Nat) : Nat := Sparse.look s.host.bells (fn * 65536 + off) 0

/-- A doorbell write: partial byte enables are a bus error, logged and dropped (R334, R75). -/
def State.onBell (s : State) (fn off idx be : Nat) (f : State → State) : State :=
  match s.build with
  | .tile => s
  | .head => if be % 16 ≠ 15 then s.logBerr off bePartial true .pcie s.ownNode else f (s.bell fn off idx)

/-- The end of a queue's holdoff: a raise that it has put off is made if records remain unconsumed (R343). -/
def State.holdoffEnd (s : State) (q : Nat) : State :=
  if s.host.holdoff.contains q then
    let s1 := { s with host := { s.host with holdoff := s.host.holdoff.filter (fun x => x ≠ q), owed := s.host.owed.filter (fun x => x ≠ q) } }
    if !s.host.owed.contains q || s1.rd (R.HST_EVQ_IDX_PROD q) = s1.rd (R.HST_EVQ_IDX_CONS q) then s1 else s1.queueVector q
  else s

/-- Post a producer index to an ingest channel (R115, R346). -/
def State.dmaPost (s : State) (ch idx : Nat) : State := if ch < 16 then ((s.wr (R.DMA_CH_IDX_PROD ch) idx).dmaShow ch).dmaIssue else s

/-- The descriptors that a doorbell posts, as host memory holds them from the old producer index on; one that `l` leaves out holds zeros. -/
def State.postDescs (s : State) (ch idx : Nat) (l : List Descriptor) : State :=
  let size := s.dmaSize ch
  let prod := s.rd (R.DMA_CH_IDX_PROD ch)
  forN ((idx + 65536 - prod) % size) (fun i a =>
    { a with host := { a.host with posted := Sparse.put a.host.posted (ch * 65536 + (prod + i) % size) (l.getD i Descriptor.zero) } }) s

/-- The host writes an event queue's consumer index (R334, R343). -/
def State.evqBell (s : State) (q idx be : Nat) : State :=
  if s.isTile || s.pins.perstLow || s.host.d3.contains 0 || decide (16 ≤ q) then s
  else s.onBell 0 (0x1000 + 8 * q) idx be (fun a => a.wr (R.HST_EVQ_IDX_CONS q) idx)

/-- A write of the host to a producer doorbell: of a channel of this head, or of another head, which it reaches as DOORBELL (R115,
R334, R346). A function in D3hot takes no access (R337). -/
def State.dmaBell (s : State) (head : Option Nat) (ch idx be : Nat) (descs : List Descriptor) : State :=
  if s.isTile || s.pins.perstLow || s.host.d3.contains 1 || decide (16 ≤ ch) then s
  else match head with
    | none => s.onBell 1 (0x1000 + 8 * ch) idx be (fun a => (a.postDescs ch (idx % 65536) descs).dmaPost ch (idx % 65536))
    | some h =>
      if 64 ≤ h then s
      else s.onBell 1 (0x2000 + 0x80 * h + 8 * ch) idx be (fun a =>
        if h = a.headNo then (a.postDescs ch (idx % 65536) descs).dmaPost ch (idx % 65536)
        else a.originateSpur h (fun c => c) tDoorbell (nodeId h 0 0) (natLE ch 2 ++ natLE (idx % 65536) 2))

/-- What an offset of BAR4 of a function is (R334). -/
inductive Bar4Reg where
  | table | pba | bell | reserved
  deriving DecidableEq, Repr

def bar4Reg (fn off : Nat) : Bar4Reg :=
  if off < 0x400 then .table
  else if off = 0x800 ∨ off = 0x804 then .pba
  else if 0x1000 ≤ off ∧ off < 0x1080 ∧ off % 8 = 0 then .bell
  else if fn = 0 ∧ (off = 0x1100 ∨ off = 0x1108) then .bell
  else if fn = 1 ∧ 0x2000 ≤ off ∧ off < 0x4000 ∧ off % 8 = 0 then .bell
  else .reserved

/-- What a dword of BAR4 reads as: a doorbell the value last written to it. -/
def State.bar4Dword (s : State) (fn off : Nat) : Nat :=
  match bar4Reg fn off with
  | .table => s.msixDword fn off
  | .pba => s.pbaDword fn ((off - 0x800) / 4)
  | .bell => s.bellAt fn off
  | .reserved => 0

/-- A dword written to BAR4. The pending bits are read only; a control-packet doorbell written so finds no slot (`State.cpTransmit`). -/
def State.bar4Put (s : State) (fn off v be : Nat) : State :=
  match bar4Reg fn off with
  | .table => s.msixWrite fn off v
  | .pba => s
  | .reserved => s
  | .bell =>
    if fn = 0 then (if off < 0x1080 then s.evqBell ((off - 0x1000) / 8) v be else s.onBell 0 off v be (fun a => a))
    else if off < 0x1080 then s.dmaBell none ((off - 0x1000) / 8) v be []
    else s.dmaBell (some ((off - 0x2000) / 0x80)) ((off - 0x2000) % 0x80 / 8) v be []

/-- An access to BAR4 at any offset (R334): one with a reserved offset, or a write with partial byte enables, is a bus error as a whole (R75). -/
def State.bar4 (s : State) (fn off : Nat) (req : HostReq) : State :=
  if s.isTile || s.pins.perstLow || s.host.d3.contains fn then s
  else
    let l := (List.range (max req.count 1)).map (fun i => off / 4 * 4 + 4 * i)
    match l.find? (fun a => bar4Reg fn a = .reserved) with
    | some a => if req.write then s.logBerr a beReserved true .pcie s.ownNode else (s.logBerr a beReserved false .pcie s.ownNode).abortOf fn
    | none =>
      if !req.write then s.emit (.data .pcie (l.map (fun a => BitVec.ofNat 32 (s.bar4Dword fn a))))
      else match (List.range (max req.count 1)).find? (fun i => req.be / 16 ^ i % 16 ≠ 15) with
        | some i => s.logBerr (off / 4 * 4 + 4 * i) bePartial true .pcie s.ownNode
        | none => forN (max req.count 1) (fun i a => a.bar4Put fn (off / 4 * 4 + 4 * i) (req.data.getD i 0).toNat 15) s

/-! ### Events at a head (R342) -/

/-- An EVENT cell delivered to a head: the lead head queues it, another head relays it to the lead head. -/
def State.eventIn (s : State) (id : Nat) (c : Cell) : State :=
  if s.isLead then s.queueEvent (if isSpur id then 12 else portRing id) (takePad c.payload 28)
  else if isSpur id then s
  else s.sendSpur s.leadHead { c with dest := nodeId s.leadHead 0 0, dir := 0, hops := 0 }

/-! ### Host memory over the Spur (R346) -/

/-- The parts of HOST_CPL cells that answer a HOST_RD, with its tag (R346). -/
def State.sendHostCpl (s : State) (node tag : Nat) (len : Nat) (data : List Byte) (err : Bool) : State :=
  if err then s.originateSpur (nodeHead node) (fun c => { c with aux := tag }) tHostCpl node (natLE 0 4 ++ natLE 1 4 ++ natLE 1 8)
  else forN ((len + 239) / 240) (fun i a =>
    let n := min 240 (len - 240 * i)
    a.originateSpur (nodeHead node) (fun c => { c with aux := tag }) tHostCpl node (natLE (240 * i) 4 ++ natLE n 4 ++ natLE 0 8 ++ takePad (data.drop (240 * i)) n)) s

/-- PF1 of the lead head can reach host memory. -/
def State.hostOpen (s : State) : Bool := s.isLead && !s.pins.perstLow && !s.host.d3.contains 1

/-- The lead head reads host memory for another head, and answers with HOST_CPL cells; a read that times out is a Completer Abort, counted, and none
times out where the host has disabled that (R332, R336, R346). -/
def State.hostRead (s : State) (c : Cell) (data : List Byte) (ended : ReadEnd) : State :=
  let s1 := s.readHost 1 c.aux (pn c 0 8) (pn c 8 4) (s.cfgVal 1 .relaxed = 1)
  match ended with
  | .ok => s1.sendHostCpl c.src c.aux (pn c 8 4) data false
  | .error => s1.sendHostCpl c.src c.aux (pn c 8 4) [] true
  | .timeout => if s.cfgVal 1 .ctoOff = 1 then s1 else (((s1.count R.HST_EVT_DMA_CTO).aer 1 14).sendHostCpl c.src c.aux (pn c 8 4) [] true)

/-- An access of another head to host memory: it waits while PF1 is in D3hot (R337); while PERST_N is low a read fails and a write is lost. -/
def State.hostAccess (s : State) (x : Stalled) : State :=
  if !s.isLead then s
  else if s.hostOpen then
    (if x.write then s.writeHost 1 (pn x.cell 0 8) (takePad (x.cell.payload.drop 16) (min 240 (pn x.cell 8 4))) else s.hostRead x.cell x.data x.ended)
  else if s.pins.perstLow then (if x.write then s else s.sendHostCpl x.cell.src x.cell.aux (pn x.cell 8 4) [] true)
  else { s with host := { s.host with stalled := s.host.stalled ++ [x] } }

/-- PF1 is in D0 again: what waited goes on, in order (R337). -/
def State.flushStalled (s : State) : State :=
  forL s.host.stalled (fun x a => a.hostAccess x) { s with host := { s.host with stalled := [] } }

/-- A function's power state (R337): from D3hot to D0 what waited goes on: event records, or accesses of the ingest channels. -/
def State.setD3 (s : State) (fn : Nat) (d3 : Bool) : State :=
  if d3 then (if s.host.d3.contains fn then s else { s with host := { s.host with d3 := fn :: s.host.d3 } })
  else
    let s1 := { s with host := { s.host with d3 := s.host.d3.filter (fun f => f ≠ fn) } }
    if fn = 0 then s1.flushHeld else s1.flushStalled.dmaIssue

/-! ### Configuration requests (R332, R333, R337) -/

/-- The size of a BAR in bytes (R333); 0: not implemented. -/
def barSize (fn n : Nat) : Nat :=
  if n = 4 then 65536 else if fn = 0 ∧ n = 0 then 2097152 else if fn = 0 ∧ n = 2 then 268435456 else 0

/-- What a read of a configuration field gives: a BAR as the 64 bits of a 64-bit non-prefetchable memory BAR. -/
def State.cfgRead (s : State) (fn : Nat) (r : CfgReg) : Nat :=
  match r with
  | .power => if s.host.d3.contains fn then 3 else 0
  | .bar n => if barSize fn n = 0 then 0 else s.cfgVal fn r + 4
  | _ => s.cfgVal fn r

/-- A write of a configuration field: values it does not support leave it (R332); the error status clears by writing 1. LTR sends a message as it is
enabled; what it reports is open (log entry 132). -/
def State.cfgWrite (s : State) (fn : Nat) (r : CfgReg) (v : Nat) : State :=
  match r with
  | .vendor => s
  | .device => s
  | .revision => s
  | .classCode => s
  | .bar n => if barSize fn n = 0 then s else s.setCfg fn r (v % 18446744073709551616 / barSize fn n * barSize fn n)
  | .power => if v = 0 then s.setD3 fn false else if v = 3 then s.setD3 fn true else s
  | .maxPayload => if v ≤ 2 then s.setCfg fn r v else s
  | .maxRead => if v ≤ 5 then s.setCfg fn r v else s
  | .ctoRange => if v = 0 ∨ (v < 15 ∧ (v % 4 = 1 ∨ v % 4 = 2)) then s.setCfg fn r v else s
  | .aer => s.setCfg fn r (s.cfgVal fn r - Nat.land (s.cfgVal fn r) v)
  | .tag10 => s.setCfg fn r (v % 2)
  | .extTag => s.setCfg fn r (v % 2)
  | .relaxed => s.setCfg fn r (v % 2)
  | .ltr =>
    let s1 := s.setCfg fn r (v % 2)
    if v % 2 = 1 && s.cfgVal fn r ≠ 1 then s1.useFree.emit (.ltr fn s.freeVal) else s1
  | .tPowerOn => s
  | .ctoOff => s.setCfg fn r (v % 2)
  | .msixEnable => s.msixCfg fn r v
  | .msixMask => s.msixCfg fn r v

end Sys2Proof.Machine
end

