-- ==== Sys2Proof/Machine/EthOps.lean ====
section
/-! DEFINITION. Side ports (R348 to R358): classification, the destination table, FRAME cells and reassembly, the
control-packet path and the PTP client. -/

namespace Sys2Proof.Machine

/-- A side port runs: its own ENABLE and the page's (ETH registers), and ETH is not parked (R405). -/
def State.ethOn (s : State) (p : Nat) : Bool := p < 2 && s.enabled .ETH 0 && !s.parked 11 && s.on (R.ETHP_CFG_ENABLE p)

/-- Side-port buffers of 256 KiB (R354). -/
def ethBuf : Nat := 262144

/-! ### Tags (R348) -/

/-- Whether a frame carries an 802.1Q tag, and its VID. -/
def frameVid (b : List Byte) : Option Nat :=
  if (b.getD 12 0).toNat = 0x81 ∧ (b.getD 13 0).toNat = 0 then some (((b.getD 14 0).toNat * 256 + (b.getD 15 0).toNat) % 4096) else none

/-- An untagged frame takes a tag of the port's PVID, priority 0 (R348; DESIGN CHOICE, log entry 41). -/
def addTag (b : List Byte) (vid : Nat) : List Byte :=
  b.take 12 ++ [0x81, 0, BitVec.ofNat 8 (vid / 256 % 16), BitVec.ofNat 8 vid] ++ b.drop 12

/-- The frame as a port sends it: without the tag when the VID equals PVID and UNTAG is 1 (R348). -/
def State.untagged (s : State) (p : Nat) (b : List Byte) : List Byte :=
  if s.on (R.ETHP_CFG_UNTAG p) && frameVid b = some (s.rd (R.ETHP_CFG_PVID p)) then b.take 12 ++ b.drop 16 else b

/-! ### The PTP clock (R355) -/

/-- The PTP clock, in 2^-32 ns: 64-bit nanoseconds and a 32-bit fraction, at its rate since it was last set. -/
def State.ptpClock (s : State) : Nat :=
  wrap 96 (s.eth.ptpBase + ((s.nowNs - s.eth.ptpAt : Nat) : Int) * 4294967296 * (1000000000 + s.eth.ptpRate) / 1000000000)

/-- The nanoseconds of the PTP clock (ETH_PTP_TIME). -/
def State.ptpNs (s : State) : Nat := s.ptpClock / 4294967296

/-- A timestamp at a side port: the clock, within 4 ns at 25 Gb/s and 8 ns at 10 Gb/s; the error is a free value. -/
def State.stampAt (s : State) (p : Nat) : Nat :=
  let e := if s.rd (R.ETHP_CFG_MODE p) = 0 then 4 else 8
  wrap 64 (s.ptpNs + clampI (-e) e (s.freeVal % 17 - 8))

/-- The clock steps by `-ofs` ns and goes on at a rate (R355). -/
def State.setPtp (s : State) (ofs rate : Int) : State :=
  { s with eth := { s.eth with ptpBase := wrap 96 (s.ptpClock - ofs * 4294967296), ptpAt := s.nowNs, ptpRate := rate } }

/-- A PTP event message is timestamped as it comes in, or as it goes out (R355). -/
def State.stampIn (s : State) (p : Nat) : State := { s with eth := { s.eth with rxStamps := Sparse.put s.eth.rxStamps p (s.stampAt p) } }.useFree
def State.stampOut (s : State) (p : Nat) : State := { s with eth := { s.eth with txStamps := Sparse.put s.eth.txStamps p (s.stampAt p) } }.useFree

/-! ### Egress -/

/-- Bytes waiting at a side port's egress. -/
def State.egressLen (s : State) (p : Nat) : Nat := (s.eth.egress.filter (fun e => e.1 = p)).foldl (fun n e => n + e.2.length) 0

/-- A byte of a frame behind its tag, if it has one. -/
def frameByte (b : List Byte) (i : Nat) : Nat := (b.getD (if (frameVid b).isSome then i + 4 else i) 0).toNat

/-- Whether a frame is a PTP event message over UDP and IPv4: its destination port is 319 (R355). PRESUMED, log entry 133. -/
def ptpEventFrame (b : List Byte) : Bool :=
  let udp := 14 + 4 * (frameByte b 14 % 16)
  frameByte b 12 = 8 && frameByte b 13 = 0 && frameByte b 23 = 17 && frameByte b (udp + 2) = 1 && frameByte b (udp + 3) = 63

/-- A frame leaves a side port; a PTP event message is timestamped (R355). -/
def State.frameOut (s : State) (p : Nat) (f : List Byte) : State :=
  let s1 := (s.emit (.frame p f)).count (R.ETHP_TX_FRAMES p)
  if ptpEventFrame f then s1.stampOut p else s1

/-- A frame leaves a side port, or waits for its link in the egress buffer, or is dropped there; a disabled port's frames are
dropped and counted in EVT_MISS (R354, R362). -/
def State.ethSend (s : State) (p : Nat) (b : List Byte) : State :=
  if !s.ethOn p then s.count (R.ETHP_EVT_MISS p)
  else
    let f := s.untagged p b
    if s.on (R.ETHP_STATE_LINK p) then s.frameOut p f
    else if ethBuf < s.egressLen p + f.length then s.count (R.ETHP_TX_DROP p)
    else { s with eth := { s.eth with egress := s.eth.egress ++ [(p, f)] } }

/-- The frames that waited for a link leave. -/
def State.ethFlush (s : State) (p : Nat) : State :=
  let l := s.eth.egress.filter (fun e => e.1 = p)
  forL l (fun e a => a.frameOut p e.2) { s with eth := { s.eth with egress := s.eth.egress.filter (fun e => e.1 ≠ p) } }

/-- The link of a side port (ETHp_STATE). -/
def State.ethLink (s : State) (p : Nat) (block fec up : Bool) : State :=
  if !s.ethOn p then s
  else
    let s1 := ((s.wrB (R.ETHP_STATE_LINK p) up).wrB (R.ETHP_STATE_BLOCK_LOCK p) block).wrB (R.ETHP_STATE_FEC_LOCK p) (fec && s.rd (R.ETHP_CFG_FEC p) ≠ 0)
    if up then s1.ethFlush p else s1

/-- A side port stops: its link is down and its buffers are empty. -/
def State.ethStop (s : State) (p : Nat) : State :=
  { ((s.wr (R.ETHP_STATE_LINK p) 0).wr (R.ETHP_STATE_BLOCK_LOCK p) 0).wr (R.ETHP_STATE_FEC_LOCK p) 0 with
    eth := { s.eth with egress := s.eth.egress.filter (fun e => e.1 ≠ p), ingress := s.eth.ingress.filter (fun e => e.1 ≠ p) } }

/-- After a change of the enables of a side port. -/
def State.ethSync (s : State) (p : Nat) : State := if s.ethOn p then s else s.ethStop p

/-! ### The control-packet path (R353) -/

def State.cpOn (s : State) : Bool := (match s.build with | .head => true | .tile => false) && s.enabled .ETH 0 && !s.parked 11 && s.on R.ETH_CP_CFG_EN

/-- The BAR4 offsets of the control-packet indexes (R334). -/
def cpRxBell : Nat := 0x1100
def cpTxBell : Nat := 0x1108

/-- A frame for the control-packet path: a receive slot is written and vector 0 raised, or the frame is dropped (R353). -/
def State.cpReceive (s : State) (p : Nat) (b : List Byte) : State :=
  let prod := s.rd R.ETH_CP_IDX_RX_PROD
  let size := 2 ^ (s.rd R.ETH_CP_CFG_RX_SIZE + 4)
  if !s.cpOn then s.count (R.ETHP_EVT_MISS p)
  else if 1984 < b.length ∨ (prod + 1 + 65536 - s.bellAt 0 cpRxBell) % size = 0 then s.count R.ETH_CP_EVT_DROP
  else
    let base := s.rd R.ETH_CP_RX_LO_ADDR * 2048 + s.rd R.ETH_CP_RX_HI_ADDR * 4294967296
    let slot := natLE b.length 2 ++ natLE p 6 ++ natLE (s.stampAt p) 8 ++ natLE 0 48 ++ b
    ((s.useFree.writeHost 0 (base + 2048 * (prod % size)) slot).inc R.ETH_CP_IDX_RX_PROD).vector 0 0

/-- One transmit slot, read by PF0 (R353): a read of it that fails sends nothing, and one that times out is counted (R336; log entry 132). The slot
is free again. The tag of its reads is open. -/
def State.cpSlot (s : State) (x : CpSlot) : State :=
  let base := s.rd R.ETH_CP_TX_LO_ADDR * 2048 + s.rd R.ETH_CP_TX_HI_ADDR * 4294967296
  let at_ := base + 2048 * (s.rd R.ETH_CP_IDX_TX_CONS % 2 ^ (s.rd R.ETH_CP_CFG_TX_SIZE + 4))
  let s0 := s.useFree.readHost 0 s.freeVal at_ 2048 (s.cfgVal 0 .relaxed = 1)
  let s1 := match x.ended with
    | .ok => s0.ethSend (x.port % 2) (takePad x.bytes x.length)
    | .error => s0
    | .timeout => (s0.count R.HST_EVT_DMA_CTO).aer 0 14
  (s1.inc R.ETH_CP_IDX_TX_CONS).vector 0 0

/-- Transmit slots up to the producer doorbell, in ring order, as host memory holds them (R353). Where the host has disabled PF0's Completion Timeout, a
slot whose read never completes holds the ring (R332). -/
def State.cpTransmit (s : State) (slots : List CpSlot) : State :=
  let size := 2 ^ (s.rd R.ETH_CP_CFG_TX_SIZE + 4)
  let n := (s.bellAt 0 cpTxBell + 65536 - s.rd R.ETH_CP_IDX_TX_CONS) % size
  if !s.cpOn then s
  else forL ((slots.take n).takeWhile (fun x => !(x.ended = .timeout && s.cfgVal 0 .ctoOff = 1))) (fun x a => a.cpSlot x) s

/-! ### The destination table (R350) -/

/-- Whether an entry matches. -/
def DtEntry.hits (e : DtEntry) (mac vid : Nat) : Bool := e.valid && e.mac = mac && (e.vid = vid || e.anyvid)

/-- The lowest-indexed valid entry that matches. -/
def State.dtFind (s : State) (mac vid : Nat) : Option DtEntry := (s.eth.table.find? (fun e => e.2.hits mac vid)).map Prod.snd

/-! ### FRAME cells (R351, R352) -/

/-- Whether a lost link lies on a tile's path: ascending links p to q - 1, or descending links q to p - 1. -/
def State.pathCut (s : State) (lo hi : Nat) : Bool :=
  (s.on (R.RING_BREAK_V1 0) && decide (lo ≤ s.rd (R.RING_BREAK_POS1 0) ∧ s.rd (R.RING_BREAK_POS1 0) < hi)) ||
    (s.on (R.RING_BREAK_V2 0) && decide (lo ≤ s.rd (R.RING_BREAK_POS2 0) ∧ s.rd (R.RING_BREAK_POS2 0) < hi))

/-- The port a tile sends a best-effort cell out of (R352): its east port when ascending. -/
def State.tileBePort (s : State) (dest dir : Nat) : Nat :=
  let me := s.rd (R.RING_STATE_NODE 0)
  let p := nodePos me
  let q := nodePos dest
  let same := nodeHead me = nodeHead dest && nodeRing me = nodeRing dest
  let asc := if dir = 1 then true else if dir = 2 then false else if same then decide (p < q) else decide (32 < p)
  let cut := if asc then s.pathCut p (if same ∧ p < q then q else 64) else s.pathCut (if same ∧ q < p then q else 0) p
  if asc = cut then 0 else 2

/-- A head that originates no cell on the ring of a port (R316, R319). -/
def State.muted (s : State) (id : Nat) : Bool := !isSpur id && s.mute (portRing id)

/-- A best-effort cell of a side port goes to a port's queue, or waits in the ingress buffer while that is full (R354). -/
def State.beSend (s : State) (side id : Nat) (c : Cell) : State :=
  if s.muted id then s
  else if s.portUp id && (decide (beLimit ≤ (s.port id).q3.length) || s.eth.ingress.any (fun e => e.2.1 = id)) then
    { s with eth := { s.eth with ingress := s.eth.ingress ++ [(side, id, c)] } }
  else s.sendCell id c

/-- The oldest waiting cell of a ring port moves into its queue when it has room. -/
def State.beRefill (s : State) (id : Nat) : State :=
  if s.muted id || decide (beLimit ≤ (s.port id).q3.length) then s
  else match s.eth.ingress.find? (fun e => e.2.1 = id) with
    | none => s
    | some e => ({ s with eth := { s.eth with ingress := s.eth.ingress.erase e } }).sendCell id e.2.2

/-- Bytes waiting at a side port's ingress. -/
def State.ingressLen (s : State) (p : Nat) : Nat := (s.eth.ingress.filter (fun e => e.1 = p)).foldl (fun n e => n + pn e.2.2 0 2) 0

/-- Send a frame to another node as FRAME cells, with this node's next FRAME_ID (R351). -/
def State.sendFrame (s : State) (side dest dir port : Nat) (b : List Byte) : State :=
  let n := (b.length + 247) / 248
  let fid := s.eth.frameId
  forN n (fun i a =>
    let len := min 248 (b.length - 248 * i)
    let c := { mkCell clsBest 0 (a.ownNode) dest i false false (natLE len 2 ++ natLE port 2 ++ natLE fid 4 ++ takePad (b.drop (248 * i)) len) with
               aux := b2n (i = 0) + 2 * b2n (i + 1 = n) }
    match a.build with
    | .tile =>
      let id := a.tileBePort dest dir
      a.beSend side id { c with dir := a.dirOut id }
    | .head => match a.headBeRoute dir c with
      | some p => a.beSend side p.1 p.2
      | none => if a.aliasOf (nodeHead dest) ≠ a.headNo then a.count R.SPR_EVT_NOROUTE else a)
    { s with eth := { s.eth with frameId := (fid + 1) % 4294967296 } }

/-- Whether a node ID is this node: the tile's own, or the head at position 0 of a ring, under its own number or one it stands for (R7, R321, R352). -/
def State.isSelf (s : State) (n : Nat) : Bool :=
  match s.build with
  | .tile => n = s.rd (R.RING_STATE_NODE 0) && decide (nodeRing n < 12)
  | .head => nodePos n = 0 && decide (nodeRing n < 12) && s.aliasOf (nodeHead n) = s.headNo

/-- Destination lookup of a frame (R350). -/
def State.ethLookup (s : State) (p : Nat) (f : EthFrame) : State :=
  let pvid := s.rd (R.ETHP_CFG_PVID p)
  let b := if f.tagged then f.bytes else addTag f.bytes pvid
  match s.dtFind f.da (if f.tagged then f.vid else pvid) with
  | none => s.count (R.ETHP_EVT_MISS p)
  | some e =>
    if e.node = 0xFFFE then (match s.build with | .tile => s | .head => s.cpReceive p f.bytes)
    else if s.isSelf e.node then (if e.port = p then s.count (R.ETHP_EVT_MISS p) else s.ethSend e.port b)
    else s.sendFrame p e.node e.dir e.port b

/-- The PTP port: ETH_PTP_CFG.PORT on a tile, EPC_CFG.PTP_PORT on a head (R356). -/
def State.ptpPort (s : State) : Nat := match s.build with | .tile => s.rd R.ETH_PTP_CFG_PORT | .head => s.rd R.EPC_CFG_PTP_PORT

/-- The enabled ST 2110 stream a packet belongs to (R358). -/
def State.stFind (s : State) (port : Nat) (p : St2110Packet) : Option Nat :=
  match s.build with
  | .tile => none
  | .head => (List.range 2).find? (fun k => s.stMatch port k p)

/-- Whether the control-packet path takes a frame by its kind (R349 order 4). -/
def State.cpTakes (s : State) (p : Nat) (k : CtlKind) : Bool :=
  s.cpOn && (match k with | .none => false | .arp => true | .igmp => true | .icmp ip => ip = s.rd (R.ETHP_IP_IP p))

/-- The multicast groups of PTP over UDP and IPv4, 224.0.1.129 and 224.0.0.107. PRESUMED, log entry 133. -/
def ptpGroups : List Nat := [0xE0000181, 0xE000006B]

/-- Whether the PTP client takes a frame (R349 order 2). -/
def State.ptpTakes (s : State) (p : Nat) (f : PtpFrame) : Bool :=
  s.on R.ETH_PTP_CFG_EN && (f.dstIp = s.rd (R.ETHP_IP_IP p) || ptpGroups.contains f.dstIp)

/-! ### PTP (R355, R356) -/

def ptpOff : Nat := 0
def ptpListen : Nat := 1
def ptpUnlocked : Nat := 2
def ptpLocked : Nat := 3

/-- The client starts and stops with ETH_PTP_CFG.EN. -/
def State.ptpSync (s : State) : State :=
  if s.on R.ETH_PTP_CFG_EN && s.enabled .ETH 0 then (if s.rd R.ETH_PTP_STATE_STATE = ptpOff then s.wr R.ETH_PTP_STATE_STATE ptpListen else s)
  else { s.wr R.ETH_PTP_STATE_STATE ptpOff with eth := { s.eth with syncs := 0 } }

/-- A Sync with its measured offset: LOCKED after 16 in a row within 100 ns, UNLOCKED beyond; the clock is stepped when the
offset exceeds 1 us, and its rate adjusted within 500 ppm (R355, R356). -/
def State.ptpOffset (s : State) (ofs : Int) : State :=
  let s1 := s.wrI R.ETH_PTP_OFS_OFS (satI 32 ofs)
  let s2 := (s1.setPtp (if 1000 < ofs.natAbs then ofs else 0) (clampI (-500000) 500000 (s1.eth.ptpRate + Config.ptpTrim s1.freeCtr))).useFree
  if ofs.natAbs ≤ 100 then
    let s3 := { s2 with eth := { s2.eth with syncs := min 16 (s2.eth.syncs + 1) } }
    if 16 ≤ s3.eth.syncs then s3.wr R.ETH_PTP_STATE_STATE ptpLocked else s3
  else { s2.wr R.ETH_PTP_STATE_STATE ptpUnlocked with eth := { s2.eth with syncs := 0 } }

/-- The client may follow a Sync with a Delay_Req from ETHp_IP, timestamped as it leaves (R355); the spec states no interval: a free choice. -/
def State.delayReq (s : State) (p : Nat) : State :=
  if s.freeVal % 2 = 1 then (s.useFree.emit (.delayReq p (s.rd (R.ETHP_IP_IP p)) (s.useFree.stampAt p))).stampOut p else s.useFree

/-- Whether a PTP message is an event message. -/
def ptpIsEvent : PtpMessage → Bool
  | .announce _ => false
  | .sync _ _ => true
  | .event => true
  | .other => false

/-- A PTP event message arrives at a side port: it is timestamped, whatever the client makes of it (R355). -/
def State.ptpStamped (s : State) (p : Nat) (m : PtpMessage) : State :=
  if s.ethOn p && ptpIsEvent m then s.stampIn p else s

/-- The client, at its port, takes a PTP message of the configured domain (R355). An Announce takes LISTEN to UNLOCKED; a Sync counts once an Announce
has come. -/
def State.ptpClient (s : State) (p : Nat) (m : PtpMessage) : State :=
  if !s.ethOn p || !s.on R.ETH_PTP_CFG_EN || p ≠ s.ptpPort then s
  else match m with
    | .announce d => if d = s.rd R.ETH_PTP_CFG_DOMAIN && s.rd R.ETH_PTP_STATE_STATE = ptpListen then s.wr R.ETH_PTP_STATE_STATE ptpUnlocked else s
    | .sync d ofs =>
      if d = s.rd R.ETH_PTP_CFG_DOMAIN && decide (ptpUnlocked ≤ s.rd R.ETH_PTP_STATE_STATE) then (s.ptpOffset ofs).delayReq p else s
    | .event => s
    | .other => s

/-- A PTP message at a side port (R355). -/
def State.ptpIn (s : State) (p : Nat) (m : PtpMessage) : State := (s.ptpStamped p m).ptpClient p m

/-- No Announce within announceReceiptTimeout: LISTEN, counted (R356). -/
def State.ptpTimeout (s : State) : State :=
  if ptpUnlocked ≤ s.rd R.ETH_PTP_STATE_STATE then
    { (s.wr R.ETH_PTP_STATE_STATE ptpListen).count R.ETH_EVT_PTP_LOSS with eth := { s.eth with syncs := 0 } }
  else s

/-! ### Ingress (R349) -/

/-- The PTP message of a frame that the client takes. -/
def State.ptpMsg (s : State) (p : Nat) (f : EthFrame) : Option PtpMessage :=
  match f.ptp with
  | none => none
  | some g => if s.ptpTakes p g then some g.msg else none

/-- An ingress frame, classified in the order of R349. -/
def State.ethFrameIn (s : State) (p : Nat) (f : EthFrame) : State :=
  if !s.ethOn p then s
  else if !f.fcsOk || decide (9216 < f.length) then s.count (R.ETHP_RX_FCS p)
  else
    let s1 := s.count (R.ETHP_RX_FRAMES p)
    if ethBuf < s.ingressLen p + f.length then s1.count (R.ETHP_RX_DROP p)
    else if f.stacked then s1.count (R.ETHP_EVT_VLAN p)
    else
    let s2 := match f.ptp with | some g => s1.ptpStamped p g.msg | none => s1
    match s.ptpMsg p f with
    | some m => s2.ptpClient p m
    | none => match f.st.bind (fun k => (s.stFind p k).map (fun i => (i, k))) with
      | some r => s2.stPacket r.1 r.2
      | none => if s.cpTakes p f.ctl then s2.cpReceive p f.bytes else s2.ethLookup p f

/-- The frames in reassembly without the one of a key. -/
def State.dropReasm (s : State) (src fid : Nat) : State :=
  { s with eth := { s.eth with reasm := s.eth.reasm.filter (fun (r : Reasm) => !(r.src = src && r.frameId = fid)) } }

def State.putReasm (s : State) (r : Reasm) : State :=
  let s1 := s.dropReasm r.src r.frameId
  { s1 with eth := { s1.eth with reasm := s1.eth.reasm ++ [r] } }

/-- A lost link lies on the path by which the fragments of a frame come (R354). -/
def State.pathLost (s : State) (r : Reasm) : Bool :=
  match s.build with
  | .tile =>
    let me := s.rd (R.RING_STATE_NODE 0)
    let same := nodeHead me = nodeHead r.src && nodeRing me = nodeRing r.src
    if r.via = 0 then s.pathCut (if same ∧ nodePos r.src < nodePos me then nodePos r.src else 0) (nodePos me)
    else s.pathCut (nodePos me) (if same ∧ nodePos me < nodePos r.src then nodePos r.src else 64)
  | .head => !isSpur r.via && s.endCut (portRing r.via) (nodePos r.src) (portEnd r.via)

/-- The frames of a source that a new SOF leaves without their ends: one by the same port, or by the other where a lost link lies on the path of the
older: a fragment of theirs is missing (R351, R354). They are discarded. DEDUCED, log entry 134. -/
def State.dropStranded (s : State) (id : Nat) (c : Cell) (fid : Nat) : State :=
  s.loseFrames (fun r => r.src = c.src && r.frameId ≠ fid && (r.via = id || s.pathLost r))

/-- A FRAME cell delivered to its destination: reassembly per SRC and FRAME_ID (R351). -/
def State.frameIn (s0 : State) (id : Nat) (c : Cell) : State :=
  let len := min 248 (pn c 0 2)
  let port := pb c 2 % 2
  let fid := pn c 4 4
  let sof := c.aux % 2 = 1
  let eof := c.aux / 2 % 2 = 1
  let s := if sof then s0.dropStranded id c fid else s0
  let data := takePad (c.payload.drop 8) len
  let old := s.eth.reasm.find? (fun (r : Reasm) => r.src = c.src && r.frameId = fid)
  let reasm := R.ETHP_EVT_REASM port
  if sof then
    let s1 := match old with | some r => if r.bad then s else s.count reasm | none => s
    if eof then (s1.dropReasm c.src fid).ethSend port data
    else s1.putReasm { src := c.src, frameId := fid, next := (c.seq + 1) % 65536, bad := false, via := id, port := port, bytes := data }
  else match old with
    | none => if eof then s.count reasm else (s.count reasm).putReasm { src := c.src, frameId := fid, next := 0, bad := true, via := id, port := port, bytes := [] }
    | some r =>
      if r.bad then (if eof then s.dropReasm c.src fid else s)
      else if r.next ≠ c.seq then
        (if eof then (s.count reasm).dropReasm c.src fid else (s.count reasm).putReasm { r with bad := true, bytes := [] })
      else if eof then (s.dropReasm c.src fid).ethSend port (r.bytes ++ data)
      else s.putReasm { r with next := (c.seq + 1) % 65536, bytes := r.bytes ++ data }

/-- Whether a FRAME cell ends here: addressed to this tile, or to this head at position 0 (R288, R352). -/
def State.frameMine (s : State) (id : Nat) (c : Cell) : Bool :=
  s.cellsOn id && s.loopOf id ≠ 2 && hcrcOk c && typeOk c && trailerOk c &&
    decide (c.hops + 1 ≤ if isSpur id then 8 else 65) &&
    (match s.build with
     | .tile => s.destHere id c
     | .head => nodePos c.dest = 0 && decide (nodeRing c.dest < 12) && s.aliasOf (nodeHead c.dest) = s.headNo)

end Sys2Proof.Machine
end

