-- ==== Sys2Proof/Machine/FoldOps.lean ====
section
/-! DEFINITION. Fold and takeover (R322 to R327), master terms on a head (R315, R316) and TAKE on a tile (R320). -/

namespace Sys2Proof.Machine

/-! ### The image (R322) -/

/-- The blocks whose pages a Fold holds, in their order. -/
def foldBlks : List Blk := [.SYS, .CLK, .CRN, .ETH, .SPR, .HST, .DMA, .RING, .SRC, .LOP, .EPC]

def Cls.folded : Cls → Bool
  | .rw => true
  | .lv => true
  | .hu => true
  | _ => false

/-- The dwords of a row that a Fold holds: window, distance, and the fields kept. -/
def Row.foldPlaces (r : Row) (b : Blk) : List (Nat × List Fld) :=
  let fl := r.flds.filter (fun f => f.cls.folded)
  if fl.isEmpty || !r.onBuild .head then []
  else
    ((List.range (if r.first then 1 else b.wins .head)).flatMap (fun w =>
      (List.range r.n1).flatMap (fun i => (List.range r.n2).map (fun j => (w, fl.map (fun f => f.shift (16384 * w + i * r.s1 + j * r.s2)))))))

/-- Every dword of PAGES: block, window, fields. -/
def foldPlaces : List (Blk × Nat × List Fld) :=
  foldBlks.flatMap (fun b => b.rows.flatMap (fun r => (r.foldPlaces b).map (fun p => (b, p.1, p.2))))

/-- The value of a dword's fields. -/
def State.foldDword (s : State) (l : List Fld) : Nat := l.foldr (fun f n => s.view f % 4294967296 * 2 ^ f.lsb + n) 0

def DtEntry.bytes (e : DtEntry) : List Byte :=
  natLE (e.mac % 4294967296) 4 ++ natLE (e.mac / 4294967296 + e.vid * 65536 + b2n e.anyvid * 268435456) 4 ++
    natLE (e.node + e.port * 65536 + e.dir * 262144 + b2n e.valid * 2147483648) 4

def dtOf (b : List Byte) : DtEntry :=
  let lo := leNat (b.take 4)
  let hi := leNat ((b.drop 4).take 4)
  let a := leNat ((b.drop 8).take 4)
  { mac := lo + hi % 65536 * 4294967296, vid := hi / 65536 % 4096, anyvid := bitOf hi 28, valid := bitOf a 31,
    dir := a / 262144 % 4, port := a / 65536 % 2, node := a % 65536 }

/-- The destination table, 12 bytes an entry. -/
def State.dtBytes (s : State) : List Byte := (List.range 1024).flatMap (fun i => (Sparse.look s.eth.table i DtEntry.zero).bytes)

def State.aptBytes (s : State) : List Byte :=
  (List.range 128).flatMap (fun a => natLE (s.rd (R.HST_APT_NODE a) + s.rd (R.HST_APT_VALID a) * 2147483648) 4)

/-- The custom scaler kernels from head DRAM. -/
def State.kernelBytes (s : State) : List Byte := (List.range 16).flatMap (fun n => s.rdBytes .dram (s.rd (R.SRC_COEF_BASE_BASE n) * 4096) 2048)

/-- The sections after the header: PAGES, MEM, TABLES, USER. The Spur routes and relay entries are fields of the SPR page. -/
def State.foldBody (s : State) : List Byte :=
  foldPlaces.flatMap (fun p => natLE (s.foldDword p.2.2) 4) ++ s.rdBytes .window 0x100000 65536 ++
    s.aptBytes ++ s.dtBytes ++ s.kernelBytes ++
    s.rdBytes .dram Config.userArea (s.rd R.FLD_USER_LEN_BYTES)

/-- The 64-byte header; the spec lists its content and no places (log entry 45). -/
def State.foldImage (s : State) (sq : Nat) : List Byte :=
  let body := s.foldBody
  let terms := (List.range 12).foldr (fun r n => s.term r % 67108864 + 67108864 * n) 0
  natLE 0x464C4430 4 ++ natLE sq 4 ++ natLE (s.headNo + 4 * 256) 4 ++ natLE s.epochNo 4 ++ natLE (64 + body.length) 4 ++
    natLE (crc32c body) 4 ++ natLE terms 40 ++ body

def foldMax : Nat := 3141632
def foldLen (img : List Byte) : Nat := leNat ((img.drop 16).take 4)
def foldEpoch (img : List Byte) : Nat := leNat ((img.drop 12).take 4)
def foldCrcOk (img : List Byte) : Bool := leNat ((img.drop 20).take 4) = crc32c ((img.take (foldLen img)).drop 64)

/-- Where a Fold slot begins in the store. -/
def foldSlotBase (slot : Nat) : Nat := slot * 3145728

def State.readFold (s : State) (slot : Nat) : List Byte :=
  let len := s.rdLE .store (foldSlotBase slot + 16) 4
  s.rdBytes .store (foldSlotBase slot) (min len foldMax)

/-! ### Capture and shipping (R323, R324) -/

def shIdle : Nat := 0
def shCapture : Nat := 1
def shShipping : Nat := 2
def shWait : Nat := 3
def shReceiving : Nat := 4

def State.ship (s : State) : Nat := s.rd R.FLD_STATE_SHIP
def State.setShip (s : State) (v : Nat) : State := s.wr R.FLD_STATE_SHIP v
def State.setFold (s : State) (f : Fold) : State := { s with auth := { s.auth with fold := f } }

/-- Whether the head captures Folds: an active head with FLD enabled (R322). -/
def State.foldActive (s : State) : Bool := (match s.build with | .head => true | .tile => false) && s.enabled .FLD 0 && s.rd R.CRN_HEAD_ROLE = roleActive

def State.startCapture (s : State) : State := (s.setFold { s.auth.fold with restarts := 0, dirty := false }).setShip shCapture

/-- A write of 1 to COMMIT (R323); held while FLD is parked (R408). -/
def State.foldCommit (s : State) : State :=
  if !s.foldActive then s
  else if s.ship = shIdle && !s.parked 12 then s.startCapture
  else if s.on R.FLD_STATE_HELD then s.count R.FLD_EVT_COALESCE
  else s.wr R.FLD_STATE_HELD 1

/-- The capture period ends (R323). -/
def State.foldPeriod (s : State) : State := if s.foldActive && s.ship = shIdle && !s.parked 12 then s.startCapture else s

/-- A shipment, or an abandoned capture, ends; a held COMMIT starts the next (R323). -/
def State.endShip (s : State) : State :=
  let s1 := s.setShip shIdle
  if s1.on R.FLD_STATE_HELD then (s1.wr R.FLD_STATE_HELD 0).startCapture else s1

/-- The ring a Fold is shipped on: the lowest-numbered protected ring whose end A is UP (R324). -/
def State.shipRing (s : State) : Option Nat := (List.range 12).find? (fun r => bitOf (s.rd R.CRN_CFG_PROT_RINGS) r && s.portUp (2 * r))

/-- Send the FOLD_DATA cells to PEER (R324). -/
def State.shipFold (s : State) : State :=
  let img := s.auth.fold.image
  let sq := s.rd R.FLD_SEQ_SEQ
  let dest := s.rd R.FLD_CFG_PEER
  (forN ((img.length + 239) / 240) (fun i a =>
    let n := min 240 (img.length - 240 * i)
    let pl := natLE sq 4 ++ natLE (240 * i) 4 ++ natLE n 4 ++ natLE 0 4 ++ takePad (img.drop (240 * i)) n
    match s.shipRing with
    | some r => a.originate r (fun c => c) tFoldData dest pl
    | none => a.originateSpur (nodeHead dest) (fun c => c) tFoldData dest pl) s).setShip shShipping

/-- A capture ends: restarted when software wrote a RW or HU field meanwhile, abandoned after 4 restarts, or taken: SEQ
advances, the slot that does not hold the last acknowledged Fold is written, and shipping starts (R323, R324). -/
def State.captureDone (s : State) : State :=
  let f := s.auth.fold
  if s.ship ≠ shCapture then s
  else if f.dirty then (if 4 ≤ f.restarts then (s.count R.FLD_EVT_VOID).endShip else s.setFold { f with restarts := f.restarts + 1, dirty := false })
  else
    let sq := (s.rd R.FLD_SEQ_SEQ + 1) % 4294967296
    let img := s.foldImage sq
    let slot := match f.ackSlot with | some 0 => 1 | _ => 0
    let s1 := (s.wr R.FLD_SEQ_SEQ sq).wrBytes .store (foldSlotBase slot) (img.take foldMax)
    let s2 := ((s1.wr R.FLD_STATE_SLOT slot).wr R.FLD_STATE_VALID 1).wr R.FLD_SIZE_BYTES img.length
    (s2.setFold { f with restarts := 0, retries := 0, capEpoch := s.epochNo, image := img }).shipFold

/-- FOLD_ACK of the Fold being shipped (R324). -/
def State.foldAcked (s : State) (sq : Nat) : State :=
  if (s.ship = shShipping || s.ship = shWait) && sq = s.rd R.FLD_SEQ_SEQ then
    (((s.setFold { s.auth.fold with ackSlot := some (s.rd R.FLD_STATE_SLOT) }).wr R.FLD_ACKED_SEQ sq).count R.FLD_EVT_SHIPPED).endShip
  else s

/-- A NACK, or no answer within 50 ms: up to 3 retries, then the failure is counted and reported (R324, R341). -/
def State.foldFailed (s : State) : State :=
  let f := s.auth.fold
  if !(s.ship = shShipping || s.ship = shWait) then s
  else if f.retries < 3 then (s.setFold { f with retries := f.retries + 1 }).shipFold
  else ((s.count R.FLD_EVT_NACK).raiseEvent .FLD 0 1 (natLE (s.rd R.FLD_SEQ_SEQ) 4)).endShip

/-- Whether any port still holds a FOLD_DATA cell of the shipment. -/
def State.foldQueued (s : State) : Bool :=
  s.ports.any (fun e => e.2.q1.any (fun (q : QCell) => q.cell.typ = tFoldData))

/-- Shipping passes to WAIT_ACK when the last cell has left. -/
def State.foldSent (s : State) : State := if s.ship = shShipping && !s.foldQueued then s.setShip shWait else s

/-! ### Reception (R324) -/

/-- Answer a Fold's sender. -/
def State.foldReply (s : State) (id dest typ : Nat) (pl : List Byte) : State :=
  if isSpur id then s.originateSpur (nodeHead dest) (fun c => c) typ dest pl else s.originate (portRing id) (fun c => c) typ dest pl

def State.foldNack (s : State) (id dest sq reason : Nat) : State :=
  ((s.setFold { s.auth.fold with rx := [] }).setShip shIdle).foldReply id dest tFoldNack (natLE sq 4 ++ natLE reason 1)

/-- The fragments as one image when they follow one another from offset 0. -/
def foldJoin : List (Nat × List Byte) → Nat → Option (List Byte)
  | [], _ => some []
  | (o, b) :: t, n => if o = n then (foldJoin t (n + b.length)).map (fun r => b ++ r) else none

def rxBytes (l : List (Nat × List Byte)) : Nat := l.foldl (fun n e => n + e.2.length) 0

/-- A whole Fold has come: checked, stored in the inactive slot unless its SEQ is not above the valid one, and answered. -/
def State.foldWhole (s : State) (id dest sq : Nat) (img : List Byte) : State :=
  if !foldCrcOk img then (s.count R.FLD_EVT_BADRX).foldNack id dest sq 1
  else
    let s1 := (s.setFold { s.auth.fold with rx := [] }).setShip shIdle
    let s2 := if s.on R.FLD_STATE_VALID && decide (sq ≤ s.rd R.FLD_SEQ_SEQ) then s1
      else
        let slot := if s.on R.FLD_STATE_VALID then 1 - s.rd R.FLD_STATE_SLOT else 0
        let a := (((s1.wrBytes .store (foldSlotBase slot) img).wr R.FLD_STATE_SLOT slot).wr R.FLD_STATE_VALID 1).wr R.FLD_SIZE_BYTES img.length
        (a.setFold { a.auth.fold with capEpoch := foldEpoch img }).wr R.FLD_SEQ_SEQ sq
    s2.foldReply id dest tFoldAck (natLE sq 4)

/-- A FOLD_DATA cell at the standby (R324). A takeover or a VERIFY that runs is BUSY. -/
def State.foldRx (s : State) (id : Nat) (c : Cell) : State :=
  let sq := pn c 0 4
  let off := pn c 4 4
  let len := min 240 (pn c 8 4)
  if (match s.build with | .tile => true | .head => false) || !s.enabled .FLD 0 then s
  else if s.rd R.CRN_HEAD_ROLE = roleTaking || s.on R.FLD_CMD_VERIFY then s.foldReply id c.src tFoldNack (natLE sq 4 ++ natLE 3 1)
  else if s.rd R.CRN_HEAD_ROLE ≠ roleStandby then s
  else
    let f := s.auth.fold
    let old := if s.ship = shReceiving && f.rxSeq = sq && f.rxFrom = c.src then f.rx else []
    let rx := Sparse.put old off (takePad (c.payload.drop 16) len)
    let s1 := (s.setFold { f with rxSeq := sq, rxFrom := c.src, rx := rx }).setShip shReceiving
    match Sparse.get rx 0 with
    | none => s1
    | some h =>
      let total := foldLen h
      if foldMax < total ∨ total < 64 then (s1.count R.FLD_EVT_BADRX).foldNack id c.src sq 2
      else if rxBytes rx < total then s1
      else match foldJoin rx 0 with
        | none => (s1.count R.FLD_EVT_BADRX).foldNack id c.src sq 1
        | some img => if img.length = total then s1.foldWhole id c.src sq img else (s1.count R.FLD_EVT_BADRX).foldNack id c.src sq 2

/-- FLD_AGE: milliseconds since the valid Fold was captured, by the epochs since (log entry 46). -/
def State.foldAge (s : State) : Nat :=
  if s.on R.FLD_STATE_VALID then
    min 65535 ((s.epochNo + 4294967296 - s.auth.fold.capEpoch % 4294967296) % 4294967296 * s.rd R.EPC_PERIOD_NS / 1000000)
  else 65535

/-- VERIFY completes: the valid slot's CRC decides VALID. -/
def State.foldVerified (s : State) : State :=
  let s1 := s.wr R.FLD_CMD_VERIFY 0
  if s.on R.FLD_STATE_VALID && !foldCrcOk (s.readFold (s.rd R.FLD_STATE_SLOT)) then s1.wr R.FLD_STATE_VALID 0 else s1

/-! ### Master pairs on a head (R315, R316) -/

/-- A ring whose pair a head has accepted changes: the term the voter holds, the head, and the record. -/
def State.notePair (s : State) (r t h : Nat) : State :=
  let a := s.ringAuth r
  let s1 := s.seeTerm t
  let higher := match a.pair with | none => true | some p => ranksAbove t h p.1 p.2
  if higher then (if s1.masters r then s1 else s1.setTerm r t).setRingAuth r { a with pair := some (t, h) } else s1

/-- Deposed on a ring (R316): cells it has originated that still wait go no further. -/
def State.depose (s : State) (r t : Nat) : State :=
  let s1 := (((s.dropOwn r).setRingAuth r { s.ringAuth r with role := roleDeposed }).setTerm r t).count R.CRN_EVT_DEPOSED
  let s2 := if (List.range 12).any (fun q => s1.masters q) then s1 else s1.wr R.CRN_HEAD_ROLE roleDeposed
  s2.raiseEvent .CRN 0 4 (natLE r 1)

/-- A pair that a beacon or a TAKE brings to a head on a ring. -/
def State.headPair (s : State) (r t h : Nat) : State :=
  let s1 := s.notePair r t h
  if s.masters r && h ≠ s.headNo && ranksAbove t h (s.term r) s.headNo then s1.depose r t else s1

/-- A head listening on a ring finds that another holds it: a pair that ranks above the term it would take, or one of the stored term itself, with
which another head has taken over (R315, R329). The stored term is the one the record held when listening began. DEDUCED, log entry 154. -/
def State.heldByOther (s : State) (p : Nat × Nat) : Bool :=
  ranksAbove p.1 p.2 (s.auth.listenTerm + 1) s.headNo || (p.2 ≠ s.headNo && decide (s.auth.listenTerm ≤ p.1))

/-- LISTEN ends on a ring (R315); a ring that it could take only beyond the last term is refused, and the head gives up (R318). -/
def State.listenEnd (s : State) (r : Nat) : State :=
  let a := s.ringAuth r
  if (match s.build with | .tile => true | .head => false) || a.role ≠ roleListen || !s.portOn (2 * r) then s
  else
    let t := s.auth.listenTerm + 1
    let held := match a.pair with | none => false | some p => s.heldByOther p
    if held then
      let s1 := s.setRingAuth r { a with role := roleStandby }
      if (List.range 12).any (fun q => s1.masters q) then s1 else s1.wr R.CRN_HEAD_ROLE roleStandby
    else if 4294967295 < t then s.giveUp 7
    else
      (((s.seeTerm t).setTerm r t).setRingAuth r { a with role := roleActive, pair := some (t, s.headNo) }).wr R.CRN_HEAD_ROLE roleActive

/-! ### Takeover (R325, R326) -/

/-- The protected rings. -/
def State.protRings (s : State) : List Nat := (List.range 12).filter (fun r => bitOf (s.rd R.CRN_CFG_PROT_RINGS) r)

/-- A standby head may take over: CRN is enabled (R325). -/
def State.canTake (s : State) : Bool :=
  (match s.build with | .head => true | .tile => false) && s.enabled .CRN 0 && s.rd R.CRN_HEAD_ROLE = roleStandby

/-- A takeover begins: ROLE TAKING, and the valid Fold's check runs (R326). -/
def State.startTake (s : State) : State :=
  if !s.canTake then s
  else (forL s.protRings (fun r a => a.setRingAuth r { a.ringAuth r with role := roleTaking })
    (s.setFold { s.auth.fold with checking := true, taking := false })).wr R.CRN_HEAD_ROLE roleTaking

/-- Beacon loss on every protected ring whose end A is UP, at least one being so (R325). -/
def State.beaconLost (s : State) : Bool :=
  let up := s.protRings.filter (fun r => s.portUp (2 * r))
  !up.isEmpty && up.all (fun r => decide (3 ≤ (s.ringAuth r).missed))

/-- The TAKE cells of a takeover with a new term (R320, R326). -/
def State.sendTakes (s : State) (t : Nat) : State :=
  let g := s.rd R.CRN_CFG_PEER
  let pl (r : Nat) : List Byte := natLE g 1 ++ natLE s.headNo 1 ++ natLE 0 2 ++ natLE t 4 ++ natLE r 1
  let s1 := forL s.protRings (fun r a => a.originate r (fun c => { c with bcast := true }) tTake noNode (pl r)) s
  forN 4 (fun q a =>
    if a.portUp (24 + q) then
      forL a.protRings (fun r b =>
        let n := b.ctlSeq (nodeId b.headNo 0 0)
        n.2.2.sendCell (24 + q) (mkCell clsControl tTake (nodeId b.headNo 0 0) noNode n.1 n.2.1 true (pl r))) a
    else a) s1

/-- The Fold check of a takeover ends: the CRC of the valid slot decides; the terms are set, recorded and told; at the last term it is refused, and the
head gives up (R315, R318, R326). -/
def State.foldChecked (s : State) : State :=
  let f := s.auth.fold
  if s.rd R.CRN_HEAD_ROLE ≠ roleTaking || !f.checking then s
  else
    let ok := s.on R.FLD_STATE_VALID && foldCrcOk (s.readFold (s.rd R.FLD_STATE_SLOT))
    let t := s.termRecord + 1
    if 4294967295 < t then
      ((forL s.protRings (fun r a => a.setRingAuth r { a.ringAuth r with role := roleStandby }) (s.setFold { f with checking := false })).wr R.CRN_HEAD_ROLE
        roleStandby).giveUp 7
    else
      let s1 := ((s.setFold { f with checking := false, taking := true }).wrB R.FLD_STATE_VALID ok).wrB R.FLD_STATE_NOFOLD (!ok)
      let s2 := forL s.protRings (fun r a => (a.setTerm r t).setRingAuth r { a.ringAuth r with role := roleActive, pair := some (t, a.headNo) }) (s1.seeTerm t)
      let s3 := { s2 with auth := { s2.auth with beaconDue := true } }
      (s3.takeAlias (s.rd R.CRN_CFG_PEER) s.headNo).sendTakes t

/-- A TAKE on a tile: followed when it names the tile's ring and its pair ranks above the master (R320, R321). -/
def State.tileTake (s : State) (c : Cell) : State :=
  let g := pb c 0 % 64
  let h := pb c 1 % 64
  let t := pn c 4 4
  let n := s.rd (R.RING_STATE_NODE 0)
  if n = noNode || pb c 8 ≠ nodeRing n then s
  else if s.on R.CRN_MASTER_HEAD_VALID && !ranksAbove t h (s.term 0) (s.rd R.CRN_MASTER_HEAD_HEAD) then s
  else (s.follow t h).takeAlias g h

/-- A TAKE on a head: its pair is noted on the ring it came by when it names that ring, its term goes into the record in any case, and the alias applies to
the head's Spur traffic (R315, R316, R321). -/
def State.headTake (s : State) (id : Nat) (c : Cell) : State :=
  let s1 := s.takeAlias (pb c 0 % 64) (pb c 1 % 64)
  if isSpur id then s1.seeTerm (pn c 4 4)
  else if pb c 8 = portRing id then s1.headPair (portRing id) (pn c 4 4) (pb c 1 % 64) else s1.seeTerm (pn c 4 4)

end Sys2Proof.Machine
end

