-- ==== Sys2Proof/Machine/EpcOps.lean ====
section
/-! DEFINITION. The epoch timebase (R36 to R47, R49, R440): taking a beacon, the boundary, phase steps, period changes, and the
beacons a head sends. Errors are in units of 2^-16 ns. -/

namespace Sys2Proof.Machine

def epAcquire : Nat := 0
def epLocked : Nat := 1
def epHoldover : Nat := 2
def epMaster : Nat := 3

def State.epState (s : State) : Nat := s.rd R.EPC_STATE_STATE
def State.setEp (s : State) (v : Nat) : State := s.wr R.EPC_STATE_STATE v
def State.setEpc (s : State) (e : Epc) : State := { s with epc := e }

/-- The timebase runs: EPC is enabled and not wedged, CORE runs, and it does not stand still for Saddle or Valley: after a wake from Saddle it
starts with the restart that GO brings (R440, R92, R94, R397, R412). -/
def State.epcRuns (s : State) : Bool := s.running .EPC 0 && !s.coreGated && s.pstate ≠ pSaddle && s.pstate ≠ pValley

/-- The period range of R37. -/
def periodOk (v : Nat) : Bool := decide (1041667 ≤ v ∧ v ≤ 41666667)

def ns16 (n : Nat) : Int := (n : Int) * 65536

/-- EPC starts (R45): MASTER on the frame master, else ACQUIRE. -/
def State.epcStart (s : State) : State :=
  (s.setEpc Epc.atReset).setEp (match s.build with | .head => if s.on R.EPC_CFG_MASTER then epMaster else epAcquire | .tile => epAcquire)

/-- EPC stops: the counter holds, the state reads ACQUIRE (R440). -/
def State.epcStop (s : State) : State := (s.setEpc Epc.atReset).setEp epAcquire

/-- The EPC restarts after a wake from Saddle: one that is not MASTER starts in ACQUIRE, a head that has yielded the contest too, and it stays
yielded (R47, R412). One that is not RUNNING keeps its state: a wedged block waits for a full reset (R94). -/
def State.epcResume (s : State) : State :=
  if s.running .EPC 0 && s.epState ≠ epMaster then (s.setEpc { Epc.atReset with yielded := s.epc.yielded }).setEp epAcquire else s

/-- The direction a tile takes its beacon from: fewer hops, ascending on equal counts (R42). 0 ascending, 1 descending. -/
def Epc.chosen (e : Epc) : Nat :=
  match e.hopsA, e.hopsD with
  | some a, some d => if d < a then 1 else 0
  | none, some _ => 1
  | _, _ => 0

/-- Change of the direction in use, counted (R42). -/
def State.useDir (s : State) (d : Nat) : State :=
  if s.rd R.EPC_STATE_DIR = d then s else (s.wr R.EPC_STATE_DIR d).count R.EPC_EVT_DIR

/-- Judge a beacon: announcement, period, number, error (R37, R41, R45, R47, R440). One mismatch count a beacon. A late beacon that was sent before an
announced change applied still carries the old period. -/
def State.judgeBeacon (s : State) (b : BeaconRec) : State :=
  let e := s.epc
  let badNext := b.next ≠ 0 && !periodOk b.next
  let s1 := if b.next ≠ 0 && periodOk b.next then (s.wr R.EPC_PERIOD_NEXT_NS b.next).wr R.EPC_PERIOD_AT_EPOCH b.nextAt else s
  let expect := if b.late then s.epochNo else s.epochComing
  let due (a : State) : Bool := decide (a.rd R.EPC_PERIOD_NEXT_NS ≠ 0 ∧ a.rd R.EPC_PERIOD_AT_EPOCH = expect)
  let announced := due s || due s1
  let badPeriod := b.period ≠ s.rd R.EPC_PERIOD_NS && !announced && e.applied ≠ some expect
  let badNumber := b.epoch ≠ expect
  let s2 := if badNext || badPeriod || badNumber then s1.count R.EPC_EVT_MISMATCH else s1
  let s3 := s2.wrI R.EPC_ERR_ERR (satI 32 (b.error / 256))
  let far := decide (131072000 < b.error.natAbs)
  let near := decide (b.error.natAbs ≤ 327680)
  let e1 : Epc := { e with
    used := e.used || !b.late, misses := 0
    nextNumber := if badNumber then some (if b.late then epochNext b.epoch else b.epoch) else e.nextNumber
    nextPeriod := if badPeriod && periodOk b.period then some b.period
      else if due s && !due s1 then some (s.rd R.EPC_PERIOD_NEXT_NS) else e.nextPeriod
    good := if near then min 8 (e.good + 1) else 0
    step := if far && s.epState ≠ epAcquire then some b.error else e.step }
  let s4 := s3.setEpc e1
  if far then s4
  else (s4.wrI R.EPC_TRIM_TRIM (clampI (-200000) 200000 (s4.rdI R.EPC_TRIM_TRIM + Config.trimStep s4.freeCtr))).useFree

/-- The first beacon: phase and counter are set directly (R45). One whose boundary has passed already (R42) names the epoch in progress, so the next
boundary counts on from it and has no beacon yet; one that comes before its boundary names the coming epoch, which that boundary begins. A period
that differs from the one in force is taken from the next boundary, and counted (R47). Log entry 30. -/
def State.firstBeacon (s : State) (b : BeaconRec) : State :=
  let s1 := if b.next ≠ 0 && periodOk b.next then (s.wr R.EPC_PERIOD_NEXT_NS b.next).wr R.EPC_PERIOD_AT_EPOCH b.nextAt else s
  let announced := decide (s1.rd R.EPC_PERIOD_NEXT_NS ≠ 0 ∧ s1.rd R.EPC_PERIOD_AT_EPOCH = b.epoch)
  let badPeriod := b.period ≠ s.rd R.EPC_PERIOD_NS && !announced
  let s3 := (s1.setEpochNo b.epoch).setEpc { s.epc with
    first := true, used := !b.past, nextNumber := if b.past then none else some b.epoch, good := 0, misses := 0
    nextPeriod := if badPeriod && periodOk b.period then some b.period else s.epc.nextPeriod }
  let s4 := if badPeriod || (b.next ≠ 0 && !periodOk b.next) then s3.count R.EPC_EVT_MISMATCH else s3
  match s.build with | .tile => s4.wr R.EPC_STATE_DIR b.dir | .head => s4

/-- The beacon lead L of the frame master in µs, in the range of R39, as a node that follows it has it. Log entry 124. -/
def State.masterLead (s : State) : Nat := 20 + Config.masterLead s.freeCtr % 481

/-- A beacon as it arrives: `arrival` is its arrival time less this node's coming boundary (R41). A beacon for a boundary more
than half a period back announces the boundary that has passed. L of R41 is the frame master's: EPC_LEAD is used only there and a beacon carries
none, so at the nodes that take the beacon it is a free value of 20 to 500 µs. Log entry 124. -/
def State.beaconRec (s : State) (id : Nat) (c : Cell) (arrival : Int) : BeaconRec :=
  let p := ns16 (s.rd R.EPC_PERIOD_NS)
  let away := cellCorrection c + (s.rd (ldlyF id) : Int) - ns16 (s.masterLead * 1000)
  let e := arrival - away
  let late := decide (e < -(p / 2))
  { epoch := pn c 0 4, period := pn c 4 4, next := pn c 8 4, nextAt := pn c 12 4, error := if late then e + p else e, dir := c.dir, late := late,
    past := decide (0 ≤ away) }

/-- What a node shows of the last beacon (EPC_STATE). -/
def State.showBeacon (s : State) (c : Cell) : State :=
  ((s.wr R.EPC_STATE_MASTER_HEAD (pb c 16)).wr R.EPC_STATE_HOLD_FLAG (pb c 17 % 2)).wr R.EPC_STATE_PTP_LOSS (pb c 17 / 2 % 2)

/-- A beacon taken by the timebase (R41, R42, R45, R47, R440). -/
def State.takeBeacon (s : State) (b : BeaconRec) (hops : Nat) : State :=
  let e0 := s.epc
  let e := match s.build with
    | .tile => if b.dir = 0 then { e0 with hopsA := some hops } else { e0 with hopsD := some hops }
    | .head => e0
  let s1 := s.setEpc e
  if !e.first then s1.firstBeacon b
  else if b.late then
    (if e.misses = 0 then s1
     else match s.build with | .tile => (s1.useDir b.dir).judgeBeacon b | .head => s1.judgeBeacon b)
  else if e.used then s1
  else match s.build with
    | .head => s1.judgeBeacon b
    | .tile =>
      if e.chosen = b.dir then (s1.useDir b.dir).judgeBeacon b
      else match e.other with
        | some o => if o.dir = e.chosen then (s1.useDir o.dir).judgeBeacon o else s1.setEpc { e with other := some b }
        | none => s1.setEpc { e with other := some b }

/-! ### Beacons a head sends (R39, R301, R345) -/

/-- A beacon's payload as a head puts it onto a ring or Spur port: the fields of `pl` with the ring's own term and the correction
so far, which takes the residence the head measures and the spec leaves open (R40). -/
def State.beaconPayload (s : State) (pl : List Byte) (term : Nat) (corr : Int) : List Byte :=
  pl.take 20 ++ natLE term 4 ++ natLE (wrap 64 (corr + s.freeVal)) 8

/-- A head puts a beacon onto a ring or Spur port. One that it relays begins with HOPS 0 and has the head's own SRC also where it came by a Spur port and
leaves by another: R39 and R345 speak of rings and Spur links. DESIGN CHOICE, log entry 187. -/
def State.putBeacon (s : State) (id : Nat) (pl : List Byte) (term : Nat) (corr : Int) : State :=
  let src := if isSpur id then nodeId s.headNo 0 0 else nodeId s.headNo (portRing id) 0
  s.useFree.sendCell id { mkCell clsBeacon 0 src noNode 0 false true (s.beaconPayload pl term corr) with dir := s.dirOut id }

/-- The correction with which a beacon leaves end A of a ring is kept, for the path delay of the ring (R293). -/
def State.noteDepart (s : State) (r : Nat) (corr : Int) : State := { s with ingest := { s.ingest with departs := Sparse.put s.ingest.departs r corr } }

/-- A beacon of this head has come round to end B of its ring: the path delay is what its correction has grown by, with the delay of the last
link (R293). -/
def State.notePath (s : State) (id : Nat) (c : Cell) : State :=
  match Sparse.get s.ingest.departs (portRing id) with
  | some d => { s with ingest := { s.ingest with paths := Sparse.put s.ingest.paths (portRing id) (cellCorrection c + (s.rd (ldlyF id) : Int) - d).toNat } }
  | none => s

/-- A beacon out of both ends of every ring the head masters, and out of Spur ports other than `skip`. -/
def State.spreadBeacon (s : State) (pl : List Byte) (corr : Int) (skip : Nat) : State :=
  let s1 := forN 12 (fun r a =>
    if a.masters r && a.portOn (2 * r) then (((a.noteDepart r (corr + a.freeVal)).putBeacon (2 * r) pl (a.term r) corr).putBeacon (2 * r + 1) pl (a.term r) corr) else a) s
  forN 4 (fun q a => if 24 + q ≠ skip && a.portUp (24 + q) then a.putBeacon (24 + q) pl a.termRecord corr else a) s1

/-- The payload of this head's own beacon for the coming boundary. -/
def State.ownBeacon (s : State) (hold : Bool) : List Byte :=
  let loss := s.on R.EPC_CFG_PTP && s.rd R.ETH_PTP_STATE_STATE = ptpListen && s.epState = epMaster
  natLE (s.epochComing) 4 ++ natLE (s.rd R.EPC_PERIOD_NS) 4 ++ natLE (s.rd R.EPC_PERIOD_NEXT_NS) 4 ++
    natLE (s.rd R.EPC_PERIOD_AT_EPOCH) 4 ++ natLE (if s.epState = epMaster then s.headNo else s.rd R.EPC_STATE_MASTER_HEAD) 1 ++
    natLE (b2n hold + 2 * b2n (loss || (s.epState ≠ epMaster && s.on R.EPC_STATE_PTP_LOSS))) 1 ++ natLE 0 2

/-- T(N) - L at a head: the frame master sends its beacon; a head in HOLDOVER keeps beaconing its rings with HOLD, and one that has taken
over sends its first beacons with the new term (R39, R47, R326). -/
def State.beaconSend (s : State) : State :=
  match s.build with
  | .tile => s
  | .head =>
    let n := s.epochComing
    if !s.epcRuns || s.epc.relayed = some n || s.rd R.CRN_HEAD_ROLE = roleResigned then s
    else if s.epState = epMaster then ({ s.setEpc { s.epc with relayed := some n } with auth := { s.auth with beaconDue := false } }).spreadBeacon (s.ownBeacon false) 0 99
    else if s.epState = epHoldover || s.auth.beaconDue then
      let pl := s.ownBeacon (s.epState = epHoldover)
      forN 12 (fun r a =>
        if a.masters r && a.portOn (2 * r) then (((a.noteDepart r a.freeVal).putBeacon (2 * r) pl (a.term r) 0).putBeacon (2 * r + 1) pl (a.term r) 0) else a)
        { s.setEpc { s.epc with relayed := some n } with auth := { s.auth with beaconDue := false } }
    else s

/-- A head relays a beacon that it follows on its own rings and on its other Spur ports, once an epoch (R39). -/
def State.relayBeacon (s : State) (id : Nat) (c : Cell) : State :=
  let n := pn c 0 4
  if !s.epcRuns || s.epc.relayed = some n then s
  else (s.setEpc { s.epc with relayed := some n }).spreadBeacon (takePad c.payload 20) (cellCorrection c + (s.rd (ldlyF id) : Int)) id

/-- Two configured frame masters: the one with the higher head number yields (R47). Whether the beacon is to be followed. -/
def State.contest (s : State) (c : Cell) : Bool × State :=
  if s.epState ≠ epMaster then (true, s)
  else
    let m := pb c 16 % 64
    if m < s.headNo then
      (true, ((s.setEpc { s.epc with yielded := true, first := true, used := false, misses := 0, good := 0 }).count R.EPC_EVT_CONTEST).setEp epLocked)
    else (false, s)

/-- A beacon at a tile (R314, R320, R47): offered as a master pair, and taken when it carries the pair followed. -/
def State.tileBeacon (s : State) (id : Nat) (c : Cell) (arrival : Int) : State :=
  if !s.epcRuns then s
  else
    let s1 := s.offerPair (pn c 20 4) (nodeHead c.src)
    if s1.term 0 = pn c 20 4 && s1.rd R.CRN_MASTER_HEAD_HEAD = nodeHead c.src then
      (s1.showBeacon c).useFree.takeBeacon (s1.beaconRec id c arrival) c.hops
    else s1

/-- The head holds its timebase to the Spur beacons: it masters a ring and has taken a Spur beacon since its timebase began to run. Such a head that loses all
Spur beacons goes to HOLDOVER and beacons its own rings, whatever it hears on a ring it does not master (R45, R47). Log entry 164. -/
def State.spurOnly (s : State) : Bool := s.epc.spur && (List.range 12).any (fun r => s.masters r && s.portOn (2 * r))

/-- A beacon at a head (R39, R45, R47, R314 to R316, R325): on a ring it does not master it follows the highest-ranked pair it has accepted there, unless its
timebase is held to the Spur beacons. Its own beacons, come round a ring, are not taken; the ascending copy measures the ring's path (R293). -/
def State.headBeacon (s : State) (id : Nat) (c : Cell) (arrival : Int) : State :=
  if nodeHead c.src = s.headNo then (if !isSpur id && portEnd id = 1 then s.notePath id c else s)
  else
    let r := portRing id
    let s1 := if isSpur id then s
      else
        let a := s.headPair r (pn c 20 4) (nodeHead c.src)
        if nodeHead c.src = s.rd R.CRN_CFG_PEER then a.setRingAuth r { a.ringAuth r with heard := true } else a
    if !s1.epcRuns then s1
    else if !isSpur id && (s1.spurOnly || s1.masters r || (s1.ringAuth r).pair ≠ some (pn c 20 4, nodeHead c.src)) then s1
    else
      let k := s1.contest c
      if k.1 then
        let s2 := ((k.2.showBeacon c).useFree.takeBeacon (k.2.beaconRec id c arrival) c.hops).relayBeacon id c
        if isSpur id then s2.setEpc { s2.epc with spur := true } else s2
      else k.2

/-! ### The boundary (R36, R37, R42, R47, R440) -/

/-- Eight good epochs: LOCKED (R45). -/
def State.epcLock (s : State) : State :=
  if s.epcRuns && decide (8 ≤ s.epc.good) && (s.epState = epAcquire || s.epState = epHoldover) then s.setEp epLocked else s

/-- An announced or taken period applies at its boundary (R37, R47). -/
def State.periodChange (s : State) (n : Nat) : State :=
  if s.rd R.EPC_PERIOD_NEXT_NS ≠ 0 && !epochLater (s.rd R.EPC_PERIOD_AT_EPOCH) n then
    (((s.wr R.EPC_PERIOD_NS (s.rd R.EPC_PERIOD_NEXT_NS)).wr R.EPC_PERIOD_NEXT_NS 0).wr R.EPC_PERIOD_AT_EPOCH 0).setEpc { s.epc with nextPeriod := none, applied := some n }
  else match s.epc.nextPeriod with
    | some p => (s.wr R.EPC_PERIOD_NS p).setEpc { s.epc with nextPeriod := none }
    | none => s

/-- No beacon at the node's own boundary (R45, R47, R440). -/
def State.beaconMiss (s : State) : State :=
  let s1 := (s.count R.EPC_EVT_BCN_MISS).setEpc { s.epc with good := 0, misses := s.epc.misses + 1 }
  if s.epState = epLocked then s1.setEp epHoldover else s1

/-- The timebase's own part of an epoch boundary: the beacon of the other direction where the chosen one has not come, or a
miss; the counter, one Cairn write; and a period change. -/
def State.epcBoundary (s : State) : State :=
  let s0 := if s.epState = epMaster || !s.epc.first || s.epc.used then s
    else match s.epc.other with
      | some b => (s.useDir b.dir).judgeBeacon b
      | none => s.beaconMiss
  let n := s0.epochComing
  let s1 := (s0.setEpochNo n).setEpc { s0.epc with nextNumber := none, used := false, other := none }
  s1.periodChange n

/-- Beacons of the peer on the rings of a head, by epoch (R325). -/
def State.heardEpoch (s : State) : State :=
  match s.build with
  | .tile => s
  | .head => forN 12 (fun r a =>
      let x := a.ringAuth r
      if bitOf (a.rd R.CRN_CFG_PROT_RINGS) r then a.setRingAuth r { x with missed := if x.heard then 0 else x.missed + 1, heard := false } else a) s

/-- The phase step at the latch instant: the frame gap is lengthened by what restores phase; a LOCKED node enters HOLDOVER
(R45, R47). A timebase that does not run takes none (R94). -/
def State.phaseStep (s : State) : State :=
  match s.epc.step with
  | none => s
  | some _ =>
    if !s.epcRuns then s else
    let s1 := (s.count R.EPC_EVT_PHASE_STEP).setEpc { s.epc with step := none, good := 0 }
    if s.epState = epLocked then s1.setEp epHoldover else s1

/-- A write to EPC_PERIOD on the frame master: announced, and in force from the boundary after the next 4 epochs (R37). -/
def State.announce (s : State) (v : Nat) : State :=
  (s.wr R.EPC_PERIOD_NEXT_NS v).wr R.EPC_PERIOD_AT_EPOCH ((s.epochNo + 5) % 4294967296)

/-- The loss of PTP on a frame master that follows it (R49, R356). -/
def State.ptpLost (s : State) : State :=
  if s.epcRuns && s.epState = epMaster && s.on R.EPC_CFG_PTP then (s.count R.EPC_EVT_PTP_LOSS).wr R.EPC_STATE_PTP_LOSS 1 else s

/-- The PTP instant at which the epoch in progress begins (R49): EPOCH_ORIGIN + N x period, less the PTP clock, in ns. -/
def State.ptpError (s : State) : Int :=
  ((s.rd R.EPC_ORIGIN_LO_NS + 4294967296 * s.rd R.EPC_ORIGIN_HI_NS + s.epochNo * s.rd R.EPC_PERIOD_NS : Nat) : Int) - s.ptpNs

/-- At its boundary, PTP steers the frame master's timebase within 200 ppm, in the same way as a beacon does; while PTP is lost it keeps its last
steering (R41, R49, R356). -/
def State.ptpSteer (s : State) : State :=
  if s.epState ≠ epMaster || !s.on R.EPC_CFG_PTP || s.isTile || s.rd R.ETH_PTP_STATE_STATE = ptpOff then s
  else if s.rd R.ETH_PTP_STATE_STATE = ptpListen then s.wr R.EPC_STATE_PTP_LOSS 1
  else
    let s1 := s.wrI R.EPC_ERR_ERR (satI 32 (s.ptpError * 256))
    ((s1.wrI R.EPC_TRIM_TRIM (clampI (-200000) 200000 (s1.rdI R.EPC_TRIM_TRIM + Config.trimStep s1.freeCtr))).useFree).wr R.EPC_STATE_PTP_LOSS 0

end Sys2Proof.Machine
end

