-- ==== Sys2Proof/Machine/EngBase.lean ====
section
/-! DEFINITION. What the engines share: the count of an ignored write, and the accessors of their state. -/

namespace Sys2Proof.Machine

/-- Count an ignored write of a page and record it in LAST_IGN: LOCKED and WRITE_ONCE in EVT_LOCK_IGN, any other reason in EVT_CFG_IGN (R59,
R65, R71). -/
def State.ignored (s : State) (pg off view path reason : Nat) : State :=
  let s1 := if reason = rLocked ∨ reason = rWriteOnce then s.count (R.EVT_LOCK_IGN pg) else s.count (R.EVT_CFG_IGN pg)
  (((s1.wr (R.IGN_OFFSET pg) off).wr (R.IGN_VIEW pg) view).wr (R.IGN_PATH pg) path).wr (R.IGN_REASON pg) reason

/-- The half's other half. -/
def otherHalf (h : Nat) : Nat := 1 - h

def Half.no : Half → Nat
  | .w => 0
  | .e => 1

/-! ### Engine state -/


def State.press (s : State) (h : Nat) : Press := Sparse.look s.eng.press h Press.idle
def State.setPress (s : State) (h : Nat) (x : Press) : State := s.setEng { s.eng with press := Sparse.put s.eng.press h x }
def State.darn (s : State) (h : Nat) : Darn := Sparse.look s.eng.darn h Darn.init
def State.setDarn (s : State) (h : Nat) (x : Darn) : State := s.setEng { s.eng with darn := Sparse.put s.eng.darn h x }
def State.scan (s : State) (h : Nat) : ScanHalf := Sparse.look s.eng.scan h ScanHalf.init
def State.setScan (s : State) (h : Nat) (x : ScanHalf) : State := s.setEng { s.eng with scan := Sparse.put s.eng.scan h x }
def State.lamp (s : State) (h : Nat) : LampHalf := Sparse.look s.eng.lamp h LampHalf.init
def State.setLamp (s : State) (h : Nat) (x : LampHalf) : State := s.setEng { s.eng with lamp := Sparse.put s.eng.lamp h x }
def State.setLoop (s : State) (x : Loop) : State := s.setEng { s.eng with loop := x }
def State.chop (s : State) (r : Nat) : Chop := Sparse.look s.eng.loop.chops r Chop.init
def State.setChop (s : State) (r : Nat) (x : Chop) : State := s.setLoop { s.eng.loop with chops := Sparse.put s.eng.loop.chops r x }
def State.trv (s : State) (g : Nat) : TrvGen := Sparse.look s.eng.trv g TrvGen.init
def State.setTrv (s : State) (g : Nat) (x : TrvGen) : State := s.setEng { s.eng with trv := Sparse.put s.eng.trv g x }
def State.sensor (s : State) (n : Nat) : Sensor := Sparse.look s.eng.sensors n Sensor.init
def State.setSensor (s : State) (n : Nat) (x : Sensor) : State := s.setEng { s.eng with sensors := Sparse.put s.eng.sensors n x }
def State.setCal (s : State) (x : Cal) : State := s.setEng { s.eng with cal := x }
def State.setPwr (s : State) (x : Power) : State := s.setEng { s.eng with pwr := x }
def State.setLay (s : State) (x : Layers) : State := s.setEng { s.eng with lay := x }
def State.layer (s : State) (h k : Nat) : Layer := Sparse.look s.eng.lay.layers (h * 16 + k) Layer.init
def State.setLayer (s : State) (h k : Nat) (x : Layer) : State :=
  s.setLay { s.eng.lay with layers := Sparse.put s.eng.lay.layers (h * 16 + k) x }

end Sys2Proof.Machine
end

