-- ==== Sys2Proof/Machine/LayerOps.lean ====
section
/-! DEFINITION. Layers and capture (05_press.md R136 to R151): what a layer shows, its commit and latch, and the capture of a
stream. `h` is the half, `k` the layer. -/

namespace Sys2Proof.Machine

/-! ### Layers -/

def State.lyRun (s : State) (h k : Nat) : Nat := s.rd (R.LYR_STATE_RUN h k)

/-- The layer captures a stream (R140). -/
def State.lyCap (s : State) (h k : Nat) : Bool := s.on (R.LYR_CFG_CAP_EN h k)

/-- A layer that is composed: RUNNING, or DRAINING after RUNNING, while the page is enabled (R137, R149, R157). One that drains without having been
RUNNING is not composed: R157 composes a DRAINING layer, and R149 none before its start. DESIGN CHOICE, log entry 167. -/
def State.lyComposed (s : State) (h k : Nat) : Bool :=
  s.enabled .LYR h && (s.lyRun h k = runRunning || (s.lyRun h k = runDraining && (s.layer h k).before = some runRunning))

/-- The byte address of buffer `c` of a layer: BASE, or BASE + BUFSIZE (R141). -/
def State.lyBuf (s : State) (h k c : Nat) : Nat :=
  ((s.layer h k).base + (if s.lyCap h k then c * s.rd (R.LYR_BUFSIZE_SIZE h k) else 0)) * 4096

def State.lySpace (s : State) (h k : Nat) : Space := if (s.layer h k).mem then .layer h else .dram

/-- A pixel as the Press reads it: three 10-bit channels and an alpha (R138). -/
structure Pix where
  c0 : Nat
  c1 : Nat
  c2 : Nat
  a : Nat
  deriving DecidableEq, Repr

/-- A palette entry, read as one 64-bit word (R139). -/
def State.palette (s : State) (h p i : Nat) : Pix :=
  let at_ := 0x112000 + h * 0x4000 + p * 0x800 + 8 * i
  let d0 := s.rd32 .window at_
  let d1 := s.rd32 .window (at_ + 4)
  { c0 := bitsOf d0 0 10, c1 := bitsOf d0 10 10, c2 := bitsOf d0 20 10, a := d1 % 256 * 4 + bitsOf d0 30 2 }

def widen8 (v : Nat) : Nat := v * 4 + v / 64

/-- The pixel a layer shows at (i, j) of its window (R136, R138). The last column of the window ends the line for the chroma rule
of R123. DEDUCED, log entry 50. -/
def State.layerPixel (s : State) (h k i j : Nat) : Pix :=
  let f := s.rd (R.LYR_CFG_FMT h k)
  let x := s.rd (R.LYR_OFS_X h k) + i
  let line := s.lyBuf h k (s.rd (R.LYR_STATE_CUR h k)) + (s.rd (R.LYR_OFS_Y h k) + j) * s.rd (R.LYR_STRIDE_BYTES h k)
  let sp := s.lySpace h k
  let unit (u : Nat) : Nat := s.rdBits sp line (u * memBits f) (memBits f)
  let v := unit (x / unitPix f)
  match f with
  | 0 | 1 => { c0 := bitsOf v 0 10, c1 := bitsOf v 10 10, c2 := bitsOf v 20 10, a := 1023 }
  | 2 =>
    let cb := bitsOf v 0 10
    let cr := bitsOf v 20 10
    if x % 2 = 0 then { c0 := bitsOf v 10 10, c1 := cb, c2 := cr, a := 1023 }
    else if s.rd (R.LYR_OFS_X h k) + s.rd (R.LYR_WIN_SIZE_W h k) ≤ x + 1 then { c0 := bitsOf v 30 10, c1 := cb, c2 := cr, a := 1023 }
    else
      let n := unit (x / 2 + 1)
      { c0 := bitsOf v 30 10, c1 := (cb + bitsOf n 0 10 + 1) / 2, c2 := (cr + bitsOf n 20 10 + 1) / 2, a := 1023 }
  | 3 => { c0 := widen8 (bitsOf v 0 8), c1 := widen8 (bitsOf v 8 8), c2 := widen8 (bitsOf v 16 8), a := 1023 }
  | 7 => { c0 := bitsOf v 0 10, c1 := bitsOf v 10 10, c2 := bitsOf v 20 10, a := bitsOf v 30 10 }
  | _ => s.palette h (s.rd (R.LYR_STATE_PAL_CUR h k)) v

/-- What the Press reads of DRAM for the columns `i0` to `i1 - 1` of the lines `j0` to `j1 - 1` of a layer's window, as address and length
(R136, R157); 4:2:2 reads one pair more (R123). -/
def State.lySpans (s : State) (h k i0 i1 j0 j1 : Nat) : List (Nat × Nat) :=
  let f := s.rd (R.LYR_CFG_FMT h k)
  let ox := s.rd (R.LYR_OFS_X h k)
  let line (j : Nat) : Nat := s.lyBuf h k (s.rd (R.LYR_STATE_CUR h k)) + (s.rd (R.LYR_OFS_Y h k) + j) * s.rd (R.LYR_STRIDE_BYTES h k)
  let b0 := (ox + i0) / unitPix f * memBits f / 8
  let b1 := (((ox + i1 + unitPix f - 1) / unitPix f + (if f = 2 then 1 else 0)) * memBits f + 7) / 8
  if (s.layer h k).mem || decide (i1 ≤ i0) then [] else (List.range (j1 - j0)).map (fun j => (line (j0 + j) + b0, b1 - b0))

/-! ### Commit (R145 to R149) -/

/-- R149: while PENDING reads 1, RUN follows the pending EN: STARTING for 1 over a layer whose EN in force is 0, DRAINING for 0 over one whose EN in force is
1, whatever it showed before. -/
def State.lyFollow (s : State) (h k : Nat) : State :=
  let x := s.layer h k
  let run := s.lyRun h k
  let pend := s.rd (R.LYR_CTL_EN h k)
  if pend = s.rd (R.LYR_STATE_EN_CUR h k) then
    match x.before with
    | none => s
    | some r => (s.setLayer h k { x with before := none }).wr (R.LYR_STATE_RUN h k) r
  else if x.before.isSome then s
  else if pend = 1 && (run = runDisabled || run = runDrained) then
    (s.setLayer h k { x with before := some run }).wr (R.LYR_STATE_RUN h k) runStarting
  else if pend = 0 then
    (s.setLayer h k { x with before := some run }).wr (R.LYR_STATE_RUN h k) runDraining
  else s

/-- LYR_COMMIT: the bits of `mask` that are not pending become so (R145, R146). -/
def State.lyCommit (s : State) (h mask : Nat) : State :=
  forN 16 (fun k a => if bitOf mask k && !bitOf (s.rd (R.LYR_COMMIT_MASK h)) k then
      ((a.wr (R.LYR_COMMIT_MASK h) (withBit (a.rd (R.LYR_COMMIT_MASK h)) k true)).wr (R.LYR_STATE_PENDING h k) 1).lyFollow h k
    else a) s

/-- LYR_TOUCH (R147). -/
def State.lyTouch (s : State) (h mask : Nat) : State :=
  s.wr (R.LYR_TOUCH_MASK h) (Nat.lor (s.rd (R.LYR_TOUCH_MASK h)) mask)

/-- A write of LYR_Lk_CTL while a commit of the layer is pending (R149). -/
def State.lyCtlTaken (s : State) (h k : Nat) : State := if s.on (R.LYR_STATE_PENDING h k) then s.lyFollow h k else s

/-- The page is enabled: every layer whose EN in force is 1 waits for its start and shows STARTING (R137), also one whose pending EN is 0, of which R149
would show the pending value. DESIGN CHOICE, log entry 195. -/
def State.lyEnable (s : State) (h : Nat) : State :=
  forN 16 (fun k a => if a.on (R.LYR_STATE_EN_CUR h k) then
      (a.setLayer h k { a.layer h k with restart := true, before := none }).wr (R.LYR_STATE_RUN h k) runStarting
    else a) s

/-- A layer whose parked page is disabled shows DISABLED (R408); a pending commit stays, and RUN goes on following its EN (R149). -/
def State.lyParkedOff (s : State) (h k : Nat) : State :=
  let x := s.layer h k
  let off (r : Nat) : Nat := if 1 ≤ r ∧ r ≤ 3 then runDisabled else r
  match x.before with
  | some r => s.setLayer h k { x with before := some (off r) }
  | none => s.wr (R.LYR_STATE_RUN h k) (off (s.lyRun h k))

/-- The check of a layer that starts: the reason it fails with (R149). A window without pixels leaves nothing. DEDUCED, log entry 55. -/
def State.lyCheck (s : State) (h k : Nat) (mem : Bool) : Option Nat :=
  let cap := s.lyCap h k
  let f := s.rd (R.LYR_CFG_FMT h k)
  let stride := s.rd (R.LYR_STRIDE_BYTES h k)
  let w := s.rd (R.LYR_WIN_SIZE_W h k)
  let hh := s.rd (R.LYR_WIN_SIZE_H h k)
  let leaves := w ≠ 0 && hh ≠ 0 && decide (s.rd (R.PRS_WIN_SIZE_W h) < s.rd (R.LYR_WIN_XY_U h k) + w ∨ s.rd (R.PRS_WIN_SIZE_H h) < s.rd (R.LYR_WIN_XY_V h k) + hh)
  let need := (s.rd (R.LYR_OFS_Y h k) + hh - 1) * stride + lineBytes f (s.rd (R.LYR_OFS_X h k) + w)
  let big := w ≠ 0 && hh ≠ 0 && decide (s.rd (R.LYR_BUFSIZE_SIZE h k) * 4096 < need)
  if cap && f = 7 then some 0x10
  else if stride = 0 || stride % 64 ≠ 0 || (!cap && leaves) || big then some 0x11
  else if mem && !cap then some 0x12
  else none

/-- A refused commit or start of layer `k` is counted at its LYR_Lk_CTL, PATH 0x0, VIEW base (R149). -/
def State.lyRefuse (s : State) (h k reason : Nat) : State := s.ignored (Blk.LYR.pg h) (0x100 + k * 0x40) 0 0 reason

/-! ### Capture (R140 to R143) -/

/-- The stream a layer captures, its head field through the alias table (R140, R321). -/
def State.lyStream (s : State) (h k : Nat) : Nat :=
  s.aliasStream (s.rd (R.LYR_CAP_STREAM h k))

/-- A layer that captures: started, and neither DISABLED nor DRAINED (R137, R149). -/
def State.lyCaptures (s : State) (h k : Nat) : Bool :=
  let run := s.lyRun h k
  s.lyCap h k && s.on (R.LYR_STATE_EN_CUR h k) && !(s.layer h k).restart && decide (1 ≤ run ∧ run ≤ 3)

/-- The layers that capture a stream, as half and layer; none while the LYR step is parked (R405). -/
def State.captors (s : State) (stream : Nat) : List (Nat × Nat) :=
  ((List.range 32).map (fun i => (i / 16, i % 16))).filter (fun (e : Nat × Nat) => !s.parked 3 && s.lyCaptures e.1 e.2 && s.lyStream e.1 e.2 = stream)

/-- The epoch that the coming latch instant ends. -/
def State.latchNo (s : State) : Nat := if s.eng.lay.latched then s.epochComing else s.epochNo

/-- The latch instant that ends epoch `e` has passed (R143): `e` is earlier than the epoch in progress, in modular order (R36), or it is the epoch in
progress and its latch instant has been, or it is the one that the last latch instant ended, also where the counter has since taken a lower number.
An epoch that is in progress, or that the next boundary begins, is still to come, whatever number has gone before (R45, R47). -/
def State.latchPassed (s : State) (e : Nat) : Bool :=
  s.eng.lay.lastLatch.isSome && e ≠ s.epochComing &&
    (if e = s.epochNo then s.eng.lay.latched else epochLater s.epochNo e || s.eng.lay.lastLatch = some e)

/-- Where a half's layer, or its darn table as 16, records the epoch from which its old buffer or bank is not read (R150, R186). -/
def retiredF (p : Nat × Nat) : Fld := if p.2 < 16 then R.LYR_RETIRED_EPOCH_EPOCH p.1 p.2 else R.DRN_RETIRED_EPOCH_EPOCH p.1

/-- A buffer or bank is retired at the latch instant: the number of the epoch that begins after it is recorded. -/
def State.retire (s : State) (p : Nat × Nat) : State :=
  (s.wr (retiredF p) s.epochComing).setLay { s.eng.lay with retired := s.eng.lay.retired ++ [p] }

/-- The boundary after a latch instant: what it recorded is the number that the boundary begins, also where a beacon after the latch instant has given
another (R47, R150, R186). -/
def State.retireSync (s : State) : State :=
  let s1 := forL s.eng.lay.retired (fun p a => a.wr (retiredF p) s.epochNo) s
  s1.setLay { s1.eng.lay with retired := [] }

/-- Count a late cell once in each half that captures its stream (R143). -/
def State.countLate (s : State) (l : List (Nat × Nat)) : State :=
  forN 2 (fun h a => if l.any (fun e => e.1 = h) then a.count (R.LYR_EVT_LATE h) else a) s

/-- What a capture widens to: even pixels, or multiples of 4 (R140). -/
def capAlign (f : Nat) : Nat := if f = 2 ∨ f = 5 then 2 else if f = 4 then 4 else 1

def capEmpty (kind : CapKind) (epoch began stream frame : Nat) : Capture :=
  { kind := kind, epoch := epoch, began := began, stream := stream, frame := frame, u := 0, v := 0, w := 0, h := 0, ofsX := 0,
    u0 := 0, u1 := 0, y0 := 0, y1 := 0, upl := 1, need := 0, got := 0, lost := false }

/-- The cells that carry units `u0` to `u1 - 1` of rows `y0` to `y1 - 1`, a bit per cell (R142). -/
def capNeed (u0 u1 y0 y1 upl wb : Nat) : Nat :=
  forN (y1 - y0) (fun i m =>
    let r := y0 + i
    let lo := (r * upl + u0) * wb / 2048
    let hi := ((r * upl + u1) * wb - 1) / 2048
    setBits m lo (hi + 1 - lo)) 0

/-- A layer takes a FRAME locator: refused, empty, or a capture that waits for its cells (R140, R142). -/
def State.capStart (s : State) (h k : Nat) (c : Cell) : State :=
  let x := s.layer h k
  let f := s.rd (R.LYR_CFG_FMT h k)
  let stride := s.rd (R.LYR_STRIDE_BYTES h k)
  let ep := pn c 4 4
  let sx := pn c 24 2
  let sy := pn c 26 2
  let sw := pn c 28 2
  let sh := pn c 30 2
  let wx := s.rd (R.PRS_WIN_XY_X h)
  let wy := s.rd (R.PRS_WIN_XY_Y h)
  let ix0 := max sx wx
  let ix1 := min (sx + sw) (wx + s.rd (R.PRS_WIN_SIZE_W h))
  let iy0 := max sy wy
  let iy1 := min (sy + sh) (wy + s.rd (R.PRS_WIN_SIZE_H h))
  let cap0 := capEmpty .frame ep s.latchNo c.stream (pn c 8 4)
  let reject := (s.setLayer h k { x with cap := some { cap0 with kind := .reject } }).count (R.LYR_EVT_REJECT h k)
  if pb c 0x20 % 16 ≠ s.rd (R.PRS_CFG_SURFACE h) then s.setLayer h k { x with cap := none }
  else if pb c 0x21 ≠ f then reject
  else if ix1 ≤ ix0 ∨ iy1 ≤ iy0 then s.setLayer h k { x with cap := some cap0 }
  else
    let al := capAlign f
    let cx0 := (ix0 - sx) / al * al
    let cx1 := min sw ((ix1 - sx + al - 1) / al * al)
    let u0 := cx0 / unitPix f
    let u1 := (cx1 + unitPix f - 1) / unitPix f
    let y0 := iy0 - sy
    let y1 := iy1 - sy
    let upl := (sw + unitPix f - 1) / unitPix f
    if stride < ((u1 - u0) * memBits f + 7) / 8 ∨ s.rd (R.LYR_BUFSIZE_SIZE h k) * 4096 < (y1 - y0) * stride then reject
    else
      let cap1 := { cap0 with u := ix0 - wx, v := iy0 - wy, w := ix1 - ix0, h := iy1 - iy0, ofsX := ix0 - sx - cx0 }
      let cap2 := { cap1 with u0 := u0, u1 := u1, y0 := y0, y1 := y1, upl := upl, need := capNeed u0 u1 y0 y1 upl (wireBits f) }
      s.setLayer h k { x with cap := some cap2 }

/-- A locator taken by the tile (R129, R140 to R142). -/
def State.capLocator (s : State) (c : Cell) : State :=
  let l := s.captors c.stream
  let ep := pn c 4 4
  let kind := pn c 0 4
  if s.latchPassed ep then s.countLate l
  else
    let loc : StreamLoc := { index := pn c 12 4, sq := pn c 16 2, cells := if kind = 2 then 0 else pn c 20 4, epoch := ep }
    let s1 := s.setLay { s.eng.lay with locs := Sparse.put s.eng.lay.locs c.stream loc }
    if kind = 2 then
      forL l (fun e a => a.setLayer e.1 e.2 { a.layer e.1 e.2 with cap := some (capEmpty .again ep s.latchNo c.stream (pn c 8 4)) }) s1
    else if kind = 0 then forL l (fun e a => a.capStart e.1 e.2 c) s1
    else s1

/-- Write the bits of unit `g` of the wire stream that lie in cell `idx`; with the unit's last bit, the memory unit's zero bits
(R112, R127, R140). -/
def State.capUnit (s : State) (sp : Space) (f line u g idx data : Nat) : State :=
  let wb := wireBits f
  let lo := max (g * wb) (idx * 2048)
  let hi := min (g * wb + wb) (idx * 2048 + 2048)
  let s1 := s.wrBits sp line (u * memBits f + (lo - g * wb)) (hi - lo) (data / 2 ^ (lo - idx * 2048))
  if hi = g * wb + wb && wb < memBits f then s1.wrBits sp line (u * memBits f + wb) (memBits f - wb) 0 else s1

/-- The runs of units of the capture rectangle that cell `idx` carries a bit of, as row, first unit and end, for `wb` wire bits a unit. -/
def Capture.runs (cap : Capture) (wb idx : Nat) : List (Nat × Nat × Nat) :=
  let c0 := idx * 2048
  let c1 := c0 + 2048
  let lb := max 1 (cap.upl * wb)
  let r0 := max cap.y0 (c0 / lb)
  let r1 := min cap.y1 ((c1 - 1) / lb + 1)
  (List.range (r1 - r0)).map (fun i =>
    let r := r0 + i
    (r, max cap.u0 (c0 / wb - r * cap.upl), min cap.u1 ((c1 + wb - 1) / wb - r * cap.upl)))

/-- Write what a cell carries of the capture rectangle into the fill buffer (R140, R141). -/
def State.capWrite (s : State) (h k : Nat) (cap : Capture) (idx data : Nat) : State :=
  let f := s.rd (R.LYR_CFG_FMT h k)
  let base := s.lyBuf h k (1 - s.rd (R.LYR_STATE_CUR h k))
  let sp := s.lySpace h k
  let stride := s.rd (R.LYR_STRIDE_BYTES h k)
  forL (cap.runs (wireBits f) idx) (fun e a =>
    forN (e.2.2 - e.2.1) (fun j b =>
      let u := e.2.1 + j
      b.capUnit sp f (base + (e.1 - cap.y0) * stride) (u - cap.u0) (e.1 * cap.upl + u) idx data) a) s

/-- What a cell's capture writes of DRAM, as address and length. -/
def State.capSpans (s : State) (h k : Nat) (cap : Capture) (idx : Nat) : List (Nat × Nat) :=
  let f := s.rd (R.LYR_CFG_FMT h k)
  let base := s.lyBuf h k (1 - s.rd (R.LYR_STATE_CUR h k))
  if (s.layer h k).mem then []
  else ((cap.runs (wireBits f) idx).filter (fun e => decide (e.2.1 < e.2.2))).map (fun e =>
    let b0 := (e.2.1 - cap.u0) * memBits f / 8
    (base + (e.1 - cap.y0) * s.rd (R.LYR_STRIDE_BYTES h k) + b0, ((e.2.2 - cap.u0) * memBits f + 7) / 8 - b0))

/-- A layer captures cell `idx`: its bytes are writes of requester 4 (R141). A write that DRAM answers with an error is lost, and the cell
stays missing (R375). -/
def State.capCell (s : State) (h k : Nat) (cap : Capture) (idx data : Nat) : State :=
  let l := s.capSpans h k cap idx
  let s1 := s.dramUses 4 l true
  if l.all (fun e => s.dramServes e.1 e.2) then
    (s1.capWrite h k cap idx data).setLayer h k { s.layer h k with cap := some { cap with got := withBit cap.got idx true } }
  else s1

/-- A pixel cell taken by the tile (R129, R141 to R143). After the latch instant of the epoch of the stream's last locator, a cell that its
frame holds is late; a later one has no index that can be found (R141). -/
def State.capPixel (s : State) (c : Cell) : State :=
  match Sparse.get s.eng.lay.locs c.stream with
  | none => s
  | some lc =>
    let l := s.captors c.stream
    let idx := lc.index + (c.seq + 65536 - lc.sq) % 65536
    if s.latchPassed lc.epoch then (if idx < lc.cells then s.countLate l else s)
    else
      let data := leNat (takePad c.payload 256)
      forL l (fun e a =>
        match (a.layer e.1 e.2).cap with
        | none => a
        | some cap =>
          if cap.kind = .frame && cap.stream = c.stream && cap.epoch = lc.epoch && bitOf cap.need idx then a.capCell e.1 e.2 cap idx data else a) s

/-! ### The latch instant (R143, R145 to R150) -/

/-- What the capture gives at the latch instant that ends epoch `e`. -/
inductive CapResult where
  | held | again | incomplete
  | complete (c : Capture)
  deriving DecidableEq, Repr

def Layer.result (x : Layer) (e : Nat) : CapResult :=
  match x.cap with
  | none => .held
  | some c =>
    if c.epoch ≠ e then (if c.kind = .frame then .incomplete else .held)
    else match c.kind with
      | .again => .again
      | .reject => .held
      | .frame => if Nat.land c.need c.got = c.need && !c.lost then .complete c else .incomplete

/-- What goes on of a capture past the latch instant: a REPEAT or a refused frame for the coming or a later epoch, unless the counter has taken a new
number since its locator came. A frame under way for another epoch is discarded there (R143; log entry 182). -/
def Layer.carried (x : Layer) (e nxt : Nat) : Option Capture :=
  x.cap.bind (fun (c : Capture) => if c.kind ≠ .frame && c.began = e && (c.epoch = nxt || epochLater c.epoch e) then some { c with began := epochNext e } else none)

/-- A complete frame becomes the layer's current buffer (R143, R150, R321); `run` is the RUN it had. -/
def State.lyFrame (s : State) (h k : Nat) (c : Capture) : State × Bool :=
  let x := s.layer h k
  let own := s.rd (R.LYR_CAP_STREAM h k)
  let replaced := match x.doneStream with
    | some d => if d.1 = own then d.2 ≠ c.stream else c.stream ≠ own
    | none => c.stream ≠ own
  let fresh := c.frame ≠ s.rd (R.LYR_FRAME_FRAME h k) || replaced
  let s1 := (((s.wr (R.LYR_STATE_CUR h k) (1 - s.rd (R.LYR_STATE_CUR h k))).wr (R.LYR_WIN_XY_U h k) c.u).wr (R.LYR_WIN_XY_V h k) c.v)
  let s2 := (((s1.wr (R.LYR_WIN_SIZE_W h k) c.w).wr (R.LYR_WIN_SIZE_H h k) c.h).wr (R.LYR_OFS_X h k) c.ofsX).wr (R.LYR_OFS_Y h k) 0
  (((s2.wr (R.LYR_FRAME_FRAME h k) c.frame).retire (h, k)).setLayer h k { x with doneStream := some (own, c.stream) }, fresh)

/-- The start of a layer that waits for it, and its RUN (R137, R149). -/
def State.lyRestart (s : State) (h k : Nat) : State × Nat :=
  let x := s.layer h k
  let run := s.lyRun h k
  if x.restart then
    let s1 := s.setLayer h k { x with restart := false }
    match s.lyCheck h k x.mem with
    | some r => (s1.lyRefuse h k r, runDrained)
    | none => (s1, if s.lyCap h k then runStarting else runRunning)
  else (s, run)

/-- A pending commit of a layer is taken or refused: the state, its RUN, whether EN, BASE or PAL changed, and whether BASE changed
(R145, R147 to R150). -/
def State.lyTake (s : State) (h k run : Nat) : State × Nat × Bool × Bool :=
  let x := s.layer h k
  let en := s.rd (R.LYR_CTL_EN h k)
  let enCur := s.rd (R.LYR_STATE_EN_CUR h k)
  let base := s.rd (R.LYR_BASE_BASE h k)
  let mem := s.on (R.LYR_BASE_MEM h k)
  let pal := s.rd (R.LYR_CTL_PAL h k)
  let start := en = 1 && enCur = 0
  let s0 := (s.wr (R.LYR_STATE_PENDING h k) 0)
  match (if start then s.lyCheck h k mem else none) with
  | some r => ((s0.setLayer h k { x with before := none }).lyRefuse h k r, x.before.getD run, false, false)
  | none =>
    let moved := base ≠ x.base || mem ≠ x.mem
    let changed := moved || en ≠ enCur || pal ≠ s.rd (R.LYR_STATE_PAL_CUR h k)
    let s1 := ((s0.setLayer h k { x with before := none, base := base, mem := mem }).wr (R.LYR_STATE_EN_CUR h k) en).wr (R.LYR_STATE_PAL_CUR h k) pal
    let s2 := if moved then s1.retire (h, k) else s1
    let run1 := if start then (if s.lyCap h k then runStarting else runRunning) else if en = 0 && enCur = 1 then runDrained else run
    (s2, run1, changed, moved)

/-- A layer at the latch instant that ends epoch `e`: the commit first, then the capture result (R147). -/
def State.lyLatch (s : State) (h k e : Nat) : State :=
  let nxt := s.epochComing
  let committed := bitOf (s.rd (R.LYR_COMMIT_MASK h)) k
  let touched := bitOf (s.rd (R.LYR_TOUCH_MASK h)) k
  let capturing := s.lyCaptures h k
  let a := s.lyRestart h k
  let b := if committed then a.1.lyTake h k a.2 else (a.1, a.2, false, false)
  let down := s.run .LYR h = runDraining && decide (1 ≤ b.2.1 ∧ b.2.1 ≤ 3)
  let run := if down then runDrained else b.2.1
  let t := b.1
  let x := t.layer h k
  let live := capturing && !down && t.on (R.LYR_STATE_EN_CUR h k)
  let r := x.result e
  let f : State × Bool × Bool × Nat :=
    if !live then (t, false, false, run)
    else match r with
      | .complete c =>
        if b.2.2.2 then (t, false, true, run)
        else
          let q := t.lyFrame h k c
          (q.1, q.2, false, if run = runStarting then runRunning else run)
      | .again => (t, false, false, run)
      | .incomplete => (t.count (R.LYR_EVT_INCOMPLETE h k), false, true, run)
      | .held => (t, false, true, run)
  let bump := touched || b.2.2.1 || f.2.1
  let u := f.1
  let v := u.setLayer h k { u.layer h k with genChanged := bump, cap := if live then x.carried e nxt else none }
  let w := if bump then v.inc (R.LYR_GEN_GEN h k) else v
  (w.wrB (R.LYR_STATE_HELD h k) f.2.2.1).wr (R.LYR_STATE_RUN h k) f.2.2.2

/-- The layers of a half at the latch instant; a draining page shows DRAINED (R137, R145). -/
def State.layersLatch (s : State) (h e : Nat) : State :=
  let s1 := forN 16 (fun k a => a.lyLatch h k e) s
  let s2 := (s1.wr (R.LYR_COMMIT_MASK h) 0).wr (R.LYR_TOUCH_MASK h) 0
  if s2.run .LYR h = runDraining then s2.setRun .LYR h runDrained else s2

end Sys2Proof.Machine
end

