-- ==== Sys2Proof/Machine/PressOps.lean ====
section
/-! DEFINITION. The Press engine of a half (05_press.md R135, R152 to R167): the press list and the fixed order, the queue and the
blend datapath, the press cache, and the epoch deadline. `h` is the half. -/

namespace Sys2Proof.Machine

/-! ### Blending (R152, R164) -/

def effAlpha (apx galpha balpha : Nat) : Nat := ((apx * galpha + 511) / 1023 * balpha + 511) / 1023

/-- The new channel `d` (R152). -/
def blendChan (mode s a d : Nat) : Nat :=
  match mode with
  | 0 => (s * a + d * (1023 - a) + 511) / 1023
  | 1 => min 1023 (d + (s * a + 511) / 1023)
  | 2 => (d * (s * a + 1023 * (1023 - a)) + 523264) / 1046529
  | _ => s

def packRgb (c0 c1 c2 : Nat) : Nat := c0 + c1 * 1024 + c2 * 1048576

/-- A pixel of the composition buffer, its channels at [9:0], [19:10] and [29:20]. -/
def State.cb (s : State) (h p : Nat) : Nat := s.rd32 (.comp h) (4 * p)
def State.setCb (s : State) (h p v : Nat) : State := s.wr32 (.comp h) (4 * p) v

/-! ### Rectangles -/

def Rect.w (r : Rect) : Nat := r.x1 - r.x0
def Rect.h (r : Rect) : Nat := r.y1 - r.y0
def Rect.area (r : Rect) : Nat := r.w * r.h

def Rect.meet (a b : Rect) : Rect :=
  let x0 := max a.x0 b.x0
  let y0 := max a.y0 b.y0
  ⟨x0, y0, max x0 (min a.x1 b.x1), max y0 (min a.y1 b.y1)⟩

/-- The bounding rectangle; an empty one adds nothing. -/
def Rect.join (a b : Rect) : Rect :=
  if a.area = 0 then b else if b.area = 0 then a else ⟨min a.x0 b.x0, min a.y0 b.y0, max a.x1 b.x1, max a.y1 b.y1⟩

def State.winW (s : State) (h : Nat) : Nat := s.rd (R.PRS_WIN_SIZE_W h)
def State.winH (s : State) (h : Nat) : Nat := s.rd (R.PRS_WIN_SIZE_H h)
def State.winRect (s : State) (h : Nat) : Rect := ⟨0, 0, s.winW h, s.winH h⟩

/-- A layer's window. -/
def State.lyRect (s : State) (h k : Nat) : Rect :=
  let u := s.rd (R.LYR_WIN_XY_U h k)
  let v := s.rd (R.LYR_WIN_XY_V h k)
  ⟨u, v, u + s.rd (R.LYR_WIN_SIZE_W h k), v + s.rd (R.LYR_WIN_SIZE_H h k)⟩

/-- The pixels a step covers: the layer's window within the clip. -/
def State.stepRect (s : State) (h : Nat) (x : PStep) : Rect := (s.lyRect h x.layer).meet x.clip

/-- Visit the pixels of a rectangle in raster order. -/
def eachPixel {α : Type} (r : Rect) (f : Nat → Nat → α → α) (a : α) : α :=
  forN r.h (fun j b => forN r.w (fun i c => f (r.x0 + i) (r.y0 + j) c) b) a

/-! ### The datapath (R152, R153, R157) -/

/-- The start of a background fill, or its skip (R153). -/
def State.pressReady (s : State) (h : Nat) (skip : Bool) : State :=
  let e := s.press h
  if e.bgDone then s
  else if skip then s.setPress h { e with bgDone := true }
  else
    let n := s.winW h * s.winH h
    (forN n (fun p a => a.setCb h p (s.rd (R.PRS_BG_RGB h))) s).setPress h { e with bgDone := true, dp := (n + 3) / 4 }

/-- A layer's pixel at (u, v) of the half window, with the effective alpha of a step (R136, R152). -/
def State.srcPix (s : State) (h : Nat) (x : PStep) (u v : Nat) : Pix :=
  let p := s.layerPixel h x.layer (u - s.rd (R.LYR_WIN_XY_U h x.layer)) (v - s.rd (R.LYR_WIN_XY_V h x.layer))
  { p with a := effAlpha p.a (s.rd (R.LYR_CFG_GALPHA h x.layer)) x.balpha }

/-- Compose a step into the composition buffer (R152). -/
def State.blendStep (s : State) (h : Nat) (x : PStep) : State :=
  eachPixel (s.stepRect h x) (fun u v a =>
    let p := s.srcPix h x u v
    let i := v * s.winW h + u
    let d := a.cb h i
    a.setCb h i (packRgb (blendChan x.mode p.c0 p.a (bitsOf d 0 10)) (blendChan x.mode p.c1 p.a (bitsOf d 10 10))
      (blendChan x.mode p.c2 p.a (bitsOf d 20 10)))) s

/-- The datapath spends `cost` clocks on work that was issued at `issue`. -/
def State.spend (s : State) (h issue cost : Nat) (layer : Option Nat) : State :=
  let e := s.press h
  let start := max issue e.dp
  let fin := match layer with | none => e.fin | some k => Sparse.put e.fin k (start + cost)
  s.setPress h { e with dp := start + cost, starts := (start :: e.starts).take 16, fin := fin }

/-- What a step reads of DRAM. -/
def State.stepSpans (s : State) (h : Nat) (x : PStep) : List (Nat × Nat) :=
  let r := s.stepRect h x
  let u := s.rd (R.LYR_WIN_XY_U h x.layer)
  let v := s.rd (R.LYR_WIN_XY_V h x.layer)
  if s.lyComposed h x.layer then s.lySpans h x.layer (r.x0 - u) (r.x1 - u) (r.y0 - v) (r.y1 - v) else []

/-- A step outside a cached group (R157). -/
def State.runStep (s : State) (h : Nat) (x : PStep) : State :=
  let s1 := s.pressReady h false
  if s1.lyComposed h x.layer then
    (s1.blendStep h x).spend h x.issue (((s1.stepRect h x).area + 3) / 4 + 32) (some x.layer)
  else s1.spend h x.issue 1 none

/-! ### The press cache (R161 to R164) -/

/-- The bytes a group's area takes in a slot, and the stride (R162). -/
def cacheStride (a : Rect) : Nat := (5 * a.w + 63) / 64 * 64

def State.cacheFits (s : State) (h : Nat) (a : Rect) : Bool :=
  s.rd (R.PRS_CACHE_SLOT_SIZE h) ≠ 0 && decide (cacheStride a * a.h ≤ s.rd (R.PRS_CACHE_SLOT_SIZE h) * 4096)

def State.cacheBase (s : State) (h slot : Nat) : Nat :=
  (s.rd (R.PRS_CACHE_BASE_BASE h) + slot * s.rd (R.PRS_CACHE_SLOT_SIZE h)) * 4096

/-- The area of a group (R162). -/
def State.groupArea (s : State) (h : Nat) (bottom : Bool) (l : List PStep) : Rect :=
  if bottom then s.winRect h else l.foldl (fun r x => r.join (s.stepRect h x)) ⟨0, 0, 0, 0⟩

/-- A step a group may hold: its layer is STATIC and shows RUNNING (R161). -/
def State.stepStatic (s : State) (h : Nat) (x : PStep) : Bool :=
  s.on (R.LYR_CFG_STATIC h x.layer) && s.lyRun h x.layer = runRunning && s.enabled .LYR h

/-- A group is eligible (R161). -/
def State.groupOk (s : State) (h : Nat) (bottom : Bool) (l : List PStep) : Bool :=
  l.all (fun x => s.stepStatic h x) && (bottom || l.all (fun x => x.mode = 0)) && s.cacheFits h (s.groupArea h bottom l)

/-- The record of a group (R163). -/
def State.groupRec (s : State) (h : Nat) (bottom : Bool) (l : List PStep) : PRec :=
  { bottom := bottom, bg := if bottom then s.rd (R.PRS_BG_RGB h) else 0,
    steps := l.map (fun x => (x.layer, x.mode, x.clip, x.balpha, s.rd (R.LYR_GEN_GEN h x.layer))) }

/-- Where a pixel of an area lies in a slot. -/
def slotAt (base : Nat) (a : Rect) (u v : Nat) : Nat := base + (v - a.y0) * cacheStride a + 5 * (u - a.x0)

/-- Read a slot into the composition buffer (R164). -/
def State.slotRead (s : State) (h slot : Nat) (a : Rect) (bottom : Bool) : State :=
  let base := s.cacheBase h slot
  eachPixel a (fun u v t =>
    let w := s.rdLE .dram (slotAt base a u v) 5
    let i := v * s.winW h + u
    if bottom then t.setCb h i (w % 1073741824)
    else
      let d := t.cb h i
      let k := 1023 - bitsOf w 30 10
      let mix (lsb : Nat) : Nat := min 1023 (bitsOf w lsb 10 + (bitsOf d lsb 10 * k + 511) / 1023)
      t.setCb h i (packRgb (mix 0) (mix 10) (mix 20))) s

/-- Copy the composition buffer to a slot, alpha 1,023 (R164). -/
def State.slotCopy (s : State) (h slot : Nat) (a : Rect) : State :=
  let base := s.cacheBase h slot
  eachPixel a (fun u v t => t.wrLE .dram (slotAt base a u v) (s.cb h (v * s.winW h + u) + 1023 * 1073741824) 5) s

/-- Add a step to the slot's premultiplied colour and coverage (R164). -/
def State.slotStep (s : State) (h slot : Nat) (a : Rect) (x : PStep) : State :=
  let base := s.cacheBase h slot
  eachPixel (s.stepRect h x) (fun u v t =>
    let q := s.srcPix h x u v
    let w := t.rdLE .dram (slotAt base a u v) 5
    let mix (c lsb : Nat) : Nat := (c * q.a + bitsOf w lsb 10 * (1023 - q.a) + 511) / 1023
    let cov := q.a + (bitsOf w 30 10 * (1023 - q.a) + 511) / 1023
    t.wrLE .dram (slotAt base a u v) (packRgb (mix q.c0 0) (mix q.c1 10) (mix q.c2 20) + cov * 1073741824) 5) s

/-- An eligible group at the head of the queue: read from its slot, or flattened again (R163, R164). -/
def State.runGroup (s : State) (h slot : Nat) (l : List PStep) (a : Rect) (bottom : Bool) (issue : Nat) : State :=
  let r := s.groupRec h bottom l
  if Sparse.get (s.press h).recs slot = some r then
    let s0 := s.pressReady h bottom
    let s1 := s0.setPress h { s0.press h with fin := l.foldl (fun f x => Sparse.put f x.layer (max issue (s0.press h).dp + (a.area + 3) / 4 + 32)) (s0.press h).fin }
    forL l.tail (fun _ t => t.setPress h { t.press h with starts := ((t.press h).starts.take 1 ++ (t.press h).starts).take 16 })
      ((s1.slotRead h slot a bottom).spend h issue ((a.area + 3) / 4 + 32) none)
  else
    let steps := l.map (fun (x : PStep) => { x with issue := issue })
    let s1 :=
      if bottom then (forL steps (fun x t => t.runStep h x) s).slotCopy h slot a
      else
        let s0 := eachPixel a (fun u v t => t.wrLE .dram (slotAt (s.cacheBase h slot) a u v) 0 5) (s.pressReady h false)
        let s2 := forL steps (fun x t => (t.slotStep h slot a x).spend h issue (((s.stepRect h x).area + 3) / 4 + 32) (some x.layer)) s0
        s2.slotRead h slot a false
    let e := s1.press h
    let s3 := s1.setPress h { e with dp := e.dp + (a.area + 3) / 4, recs := Sparse.put e.recs slot r }
    (s3.wr (R.PRS_STATUS_VALID h) (withBit (s3.rd (R.PRS_STATUS_VALID h)) slot true)).count (R.PRS_EVT_FLATTEN h)

/-! ### The sequencer (R155, R156, R159) -/

/-- The engine abandons its list (R159, R165); the slot records stay. -/
def State.abandon (s : State) (h : Nat) : State :=
  let e := s.press h
  s.setPress h { e with seqOn := false, failed := true, complete := false, order := [], group := none, queue := [], wait := none }

/-- PRS_STATUS.ERR codes. -/
def peReserved : Nat := 1
def peFlat : Nat := 2
def pePast : Nat := 3
def peLimit : Nat := 4

/-- A list error: counted, recorded, and the list abandoned (R159). -/
def State.listError (s : State) (h pc kind : Nat) : State :=
  (((s.count (R.PRS_EVT_LISTERR h)).wr (R.PRS_STATUS_ERR h) kind).wr (R.PRS_STATUS_PC h) pc).abandon h

/-- The instruction at an index of the current bank (R154). -/
def State.pressInstr (s : State) (h pc : Nat) : Nat :=
  s.rdLE .window (0x110000 + h * 0x1000 + 0x800 * s.rd (R.PRS_BANK_CUR h) + 8 * pc) 8

/-- The operand bits an opcode names (R156); the others must be 0. -/
def pressMask (op : Nat) : Nat :=
  match op with
  | 1 => 0x7F
  | 2 => 0x1FFFF
  | 3 => 0x3FF0003
  | 4 => 0xFFFFFFFFFFFF
  | 5 => 0xF3
  | 6 => 0xF
  | 8 => 0x3FF
  | 9 => 0xF0F
  | _ => 0

/-- A reserved opcode, operand or bit (R156, R159). FLAT with n 0 is taken as a reserved operand, ERR 1. DEDUCED, log entry 51. -/
def pressReserved (w : Nat) : Bool :=
  let op := w / 2 ^ 60
  let o := w % 2 ^ 60
  decide (9 < op) || Nat.land o (pressMask op) ≠ o ||
    (op = 1 && (bitsOf o 4 3 = 5 || bitsOf o 4 3 = 6)) ||
    (op = 5 && bitsOf o 4 4 = 0) ||
    (op = 8 && bitsOf o 8 2 = 3) ||
    (op = 9 && (decide (5 < bitsOf o 0 4) || (bitsOf o 0 4 = 3 && decide (7 < bitsOf o 8 4))))

/-- Steps that stand in the queue, those of an open group included. -/
def PItem.size : PItem → Nat
  | .step _ => 1
  | .group _ l _ _ _ => l.length

def Press.queued (e : Press) : Nat :=
  e.queue.foldl (fun n i => n + i.size) 0 + (match e.group with | none => 0 | some g => g.steps.length)

/-- An open group that has its `n` steps closes: queued as one group if eligible, as ordinary steps if not (R161). Its work starts
no earlier than its FLAT was decoded. DEDUCED from the worked example, log entry 52. -/
def State.closeGroup (s : State) (h : Nat) : State :=
  let e := s.press h
  match e.group with
  | none => s
  | some g =>
    if g.steps.length < g.n then s
    else if s.groupOk h g.bottom g.steps then
      s.setPress h { e with group := none, queue := e.queue ++ [.group g.slot g.steps (s.groupArea h g.bottom g.steps) g.bottom g.issue] }
    else
      (s.setPress h { e with group := none, queue := e.queue ++ g.steps.map (fun (x : PStep) => .step { x with issue := g.issue }) }).count (R.PRS_EVT_FLATSKIP h)

/-- Issue one step; the queue has room (R155). -/
def State.issueStep (s : State) (h k mode : Nat) : State :=
  let e := s.press h
  let t := max e.t (e.starts.getD (15 - e.queued) 0)
  let x : PStep := { layer := k, mode := mode, clip := e.clip, balpha := e.balpha, issue := t }
  match e.group with
  | none => s.setPress h { e with t := t + 1, issued := e.issued + 1, queue := e.queue ++ [.step x] }
  | some g => (s.setPress h { e with t := t + 1, issued := e.issued + 1, group := some { g with steps := g.steps ++ [x] } }).closeGroup h

/-- Issue the steps of an ORDER while the queue has room; a full queue stalls the sequencer (R155). -/
def State.issueOrder (s : State) (h : Nat) : State :=
  let s1 := forL (s.press h).order (fun k a =>
    let e := a.press h
    if e.order.head? = some k && decide (e.queued < 16) then
      (a.setPress h { e with order := e.order.tail }).issueStep h k (a.rd (R.LYR_CFG_MODE h k))
    else a) s
  let e := s1.press h
  if e.order.isEmpty then s1.setPress h { e with pc := e.pc + 1 } else s1

/-- The state in which instruction `op` executes: the checks of R159 on the instruction at the program counter, and its count.
Left: the list is abandoned, or the instruction there is another one and nothing happens. -/
def State.fetchPress (s : State) (h op : Nat) : Except State (State × Nat) :=
  let e := s.press h
  if !(e.active && e.seqOn && e.wait.isNone && e.order.isEmpty) || s.coreGated then .error s
  else if 255 < e.pc then .error (s.listError h 255 pePast)
  else if 4096 ≤ e.count then .error (s.listError h e.pc peLimit)
  else
    let w := s.pressInstr h e.pc
    if pressReserved w then .error (s.listError h e.pc peReserved)
    else if w / 2 ^ 60 ≠ op then .error s
    else .ok (s.setPress h { e with count := e.count + 1 }, w % 2 ^ 60)

/-- The sequencer goes on at the next instruction after `cost` clocks. -/
def State.pressNext (s : State) (h cost : Nat) : State :=
  let e := s.press h
  s.setPress h { e with pc := e.pc + 1, t := e.t + cost }

/-! ### The end of a composition (R156, R165, R168) -/

/-- The list has ended and the datapath is empty: PRS_LAST_CYCLES, and the darning run starts (R157, R168, R170). -/
def State.pressFinish (s : State) (h : Nat) : State :=
  let e := s.press h
  if !e.active || e.seqOn || e.failed || e.complete || !e.queue.isEmpty then s
  else
    let s1 := s.pressReady h false
    let e1 := s1.press h
    let s2 := (s1.setPress h { e1 with complete := true }).wr (R.PRS_LAST_CYCLES_CLOCKS h) (max e1.t e1.dp)
    if s2.running .DRN h then s2.setDarn h { s2.darn h with running := true } else s2

/-- The layers an item reads. -/
def PItem.layers : PItem → List Nat
  | .step x => [x.layer]
  | .group _ l _ _ _ => l.map (fun x => x.layer)

/-- The lines of an area in a slot, as address and length. -/
def State.slotSpans (s : State) (h slot : Nat) (a : Rect) : List (Nat × Nat) :=
  (List.range a.h).map (fun j => (s.cacheBase h slot + j * cacheStride a, 5 * a.w))

/-- What an item accesses of DRAM, each with whether it writes: layers of the steps it composes, and its cache slot (R157, R163, R164). -/
def State.itemSpans (s : State) (h : Nat) : PItem → List (Bool × Nat × Nat)
  | .step x => (s.stepSpans h x).map (fun e => (false, e))
  | .group slot l a bottom _ =>
    let lines (w : Bool) : List (Bool × Nat × Nat) := (s.slotSpans h slot a).map (fun e => (w, e))
    if Sparse.get (s.press h).recs slot = some (s.groupRec h bottom l) then lines false
    else l.flatMap (fun x => (s.stepSpans h x).map (fun e => (false, e))) ++ lines true ++ (if bottom then [] else lines false)

/-- The datapath executes the item at the front of its queue: its reads and writes are requests of the half's requester, and `waits` is how
many clocks DRAM stalled it, where it reaches DRAM (R157). An error response makes the engine abandon its list (R375). -/
def State.datapath (s : State) (h waits : Nat) : State :=
  let e := s.press h
  match e.queue with
  | [] => s
  | i :: q =>
    if !e.active || s.coreGated then s
    else
      let l := s.itemSpans h i
      let s0 := forL l (fun r t => t.dramUse (1 + h) r.2.1 r.2.2 r.1) s
      if !l.all (fun r => s.dramServes r.2.1 r.2.2) then s0.abandon h
      else
        let s1 := s0.setPress h { e with queue := q }
        let s2 := match i with
          | .step x => s1.runStep h x
          | .group slot l a b t => s1.runGroup h slot l a b t
        let x := s2.press h
        let s3 := if l.isEmpty then s2 else s2.setPress h { x with
          dp := x.dp + waits
          fin := i.layers.foldl (fun f k => match Sparse.get x.fin k with | some t => Sparse.put f k (t + waits) | none => f) x.fin }
        s3.pressFinish h

/-! ### Waits (R156, R158) -/

/-- A SYNC of the other half does not wait for this one (R158): its engine does not show RUNNING, or it has ended or abandoned its list. -/
def State.syncPast (s : State) (h : Nat) : Bool :=
  let e := s.press h
  !(s.run .PRS h = runRunning) || (e.active && !e.seqOn)

/-- A waiting sequencer whose condition holds goes on (R156, R158). Steps of an open group are not waited for, and END counts from the
clock in which it is decoded, as an abandoned list does. DEDUCED, log entry 53. -/
def State.pressRelease (s : State) (h : Nat) : State :=
  let e := s.press h
  let o := otherHalf h
  let f := s.press o
  if s.coreGated then s
  else match e.wait with
  | none => s
  | some (.layer k) =>
    if e.queue.any (fun i => i.layers.contains k) then s
    else s.setPress h { e with wait := none, pc := e.pc + 1, t := max e.t (Sparse.look e.fin k 0) + 1 }
  | some .sync =>
    if s.syncPast o then
      let t := if f.active && s.run .PRS o = runRunning then max e.t (if f.failed then f.t else f.t - 1) else e.t
      s.setPress h { e with wait := none, pc := e.pc + 1, t := t + 1 }
    else if f.wait = some .sync then
      let t := max e.t f.t
      (s.setPress h { e with wait := none, pc := e.pc + 1, t := t + 1 }).setPress o { f with wait := none, pc := f.pc + 1, t := t + 1 }
    else s

/-- The COND tests (R156). -/
def State.pressTest (s : State) (h test f : Nat) : Bool :=
  match test with
  | 0 => (s.layer h f).genChanged
  | 1 => s.on (R.LYR_STATE_HELD h f)
  | 2 => s.lyRun h f = runRunning
  | 3 => bitOf (s.rd (R.PRS_CTRL_FLAGS h)) f
  | 4 => bitOf s.epochNo f
  | _ => s.run .PRS (otherHalf h) = runRunning

/-! ### FIXED mode (R160) -/

/-- The eligible runs of the fixed order, in blend order, and the steps between them: consecutive steps that may share a group. -/
def State.fixedRuns (s : State) (h : Nat) : List PStep → List PStep → Bool → List (Bool × List PStep)
  | [], [], _ => []
  | [], acc, b => [(b, acc)]
  | x :: t, acc, b =>
    if s.stepStatic h x && (x.mode = 0 || (b && (x.layer = 0 || !acc.isEmpty))) then s.fixedRuns h t (acc ++ [x]) (if acc.isEmpty then x.layer = 0 else b)
    else (if acc.isEmpty then [] else [(b, acc)]) ++ (false, [x]) :: s.fixedRuns h t [] false

/-- Queue the runs: the first four that are eligible take slots 0 to 3, the others are composed (R160). -/
def State.fixedItems (s : State) (h : Nat) : List (Bool × List PStep) → Nat → List PItem
  | [], _ => []
  | (b, l) :: t, slot =>
    if slot < 4 && s.groupOk h b l then
      .group slot l (s.groupArea h b l) b ((l.head?.map (fun x => x.issue)).getD 0) :: s.fixedItems h t (slot + 1)
    else l.map PItem.step ++ s.fixedItems h t slot

/-- The steps of the fixed order (R160): the cost of ORDER 0xFFFF. -/
def State.fixedSteps (s : State) (h : Nat) : List PStep :=
  (List.range 16).map (fun k => { layer := k, mode := s.rd (R.LYR_CFG_MODE h k), clip := s.winRect h, balpha := 1023, issue := 1 + k })

/-! ### The epoch boundary and the latch instant (R154, R165, R166) -/

/-- A Press that is gated: CORE has no clock, or the power controller has parked it (R166). -/
def State.pressGated (s : State) : Bool := s.coreGated || s.parked 4

/-- The epoch begins: SEL becomes current, a draining engine stops, a running one starts (R70, R154, R160, R166). -/
def State.pressBoundary (s : State) (h : Nat) : State :=
  let s1 := s.wr (R.PRS_BANK_CUR h) (s.rd (R.PRS_BANK_SEL h))
  let old := s1.press h
  let s2 := (s1.setDarn h { s1.darn h with running := false, complete := false })
  if s2.run .PRS h = runDraining then (s2.setRun .PRS h runDrained).setPress h { Press.idle with recs := old.recs }
  else if s2.run .PRS h = runRunning && !s2.pressGated then
    let e := { Press.idle with active := true, seqOn := true, clip := s2.winRect h, recs := old.recs }
    if s2.on (R.PRS_CFG_MODE h) then s2.setPress h e
    else s2.setPress h { e with seqOn := false, t := 18, issued := 16, queue := s2.fixedItems h (s2.fixedRuns h (s2.fixedSteps h) [] true) 0 }
  else s2.setPress h { Press.idle with recs := old.recs }

/-- The half's composition is complete: its list has ended and its darning run has completed (R165). -/
def State.composed (s : State) (h : Nat) : Bool := (s.press h).complete && (s.darn h).complete

/-- The scan buffers at the latch instant (R165): both halves that are enabled swap, or neither; an incomplete half counts an
overrun, and a list or a darning run still going is abandoned. -/
def State.swapScan (s : State) : State × Bool :=
  let on := (List.range 2).filter (fun h => (s.press h).active)
  let all := on.all (fun h => s.composed h)
  let s1 := forL on (fun h a =>
    let a1 := if a.composed h then a else a.count (R.PRS_EVT_OVERRUN h)
    let a2 := if (a1.press h).complete then a1 else a1.abandon h
    let d := a2.darn h
    a2.setDarn h { d with running := false, front := if all then 1 - d.front else d.front }) s
  (forL on (fun h a => a.setPress h { a.press h with active := false }) s1, all && !on.isEmpty)

/-- PRS CTRL.ENABLE written 1: the check of the window (PRS_WIN_SIZE). -/
def State.pressCheck (s : State) (h : Nat) : Option Nat :=
  let w := s.winW h
  let hh := s.winH h
  if w = 0 ∨ hh = 0 ∨ 2048 < w ∨ 2048 < hh ∨ 32768 < w * hh then some 0x10 else none

/-- PRS is enabled: no cache slot is filled (R163, R166). -/
def State.pressEnable (s : State) (h : Nat) : State :=
  ((s.setPress h { s.press h with recs := [] }).wr (R.PRS_STATUS_VALID h) 0).setRun .PRS h runRunning

end Sys2Proof.Machine
end

