-- ==== Sys2Proof/Machine/DarnOps.lean ====
section
/-! DEFINITION. Darning (06_darning.md R168 to R190): the lamp map and its check, the darn-table banks, the darning run with its mend
pass, the bank swap, and the LOAD and VERIFY commands. `h` is the half, `i` a sink of the half (0 to 511), `r` a row. -/

namespace Sys2Proof.Machine

/-! ### Tables -/

/-- The lamp-map entry of a sink of the half and row (R87, R171). -/
def lampMapAt (h r i : Nat) : Nat := 1572864 + (r * 1024 + 512 * h + i) * 4

def State.lampEnt (s : State) (h r i : Nat) : Nat := s.rd32 .window (lampMapAt h r i)

def entComp (e : Nat) : Nat := bitsOf e 16 3
def entPixel (e : Nat) : Nat := e % 32768

/-- A reserved COMP code or a non-zero reserved bit (R171, R173). -/
def entBad (e : Nat) : Bool := decide (524288 ≤ e) || bitOf e 15 || (decide (4 ≤ entComp e) && entComp e ≠ 7)

/-- The number of the lowest failing entry among the half's, row × 512 + sink, if any (R173). -/
def State.mapBad (s : State) (h : Nat) : Option Nat :=
  (List.range 32768).find? (fun n => entBad (s.lampEnt h (n / 512) (n % 512)))

/-- Where pixel entries, lamp entries and curves lie in a bank (R174, R177). -/
def darnPixelAt (p : Nat) : Nat := 32 * p
def darnLampAt (r i : Nat) : Nat := 1048576 + (r * 512 + i) * 4
def darnCurveAt (g c : Nat) : Nat := 1179648 + g * 2048 + 2 * c

/-- The bytes of a bank image (R187). -/
def darnImage : Nat := 1196032

/-- Where an entry of a scan buffer lies (R168). -/
def scanAt (r i : Nat) : Nat := 2 * (r * 512 + i)

/-- The scan buffer a darning run writes, and the one scan-out shows. -/
def State.backBuf (s : State) (h : Nat) : Space := .scan h (1 - (s.darn h).front)
def State.frontBuf (s : State) (h : Nat) : Space := .scan h (s.darn h).front

/-! ### The main pass (R179, R180) -/

/-- sat(0, 65535, x), and whether it clipped. -/
def satLamp (x : Int) : Nat × Bool := if x < 0 then (0, true) else if 65535 < x then (65535, true) else (x.toNat, false)

structure LampVal where
  v : Nat
  range : Bool
  sat : Bool
  deriving DecidableEq, Repr

/-- Coefficient m[k][j] of a pixel entry, Q2.14 (R175). -/
def State.darnCoef (s : State) (sp : Space) (p k j : Nat) : Int := sgn 16 (s.rdLE sp (darnPixelAt p + 2 * (3 * k + j)) 2)

/-- The value of a lamp after the main pass. An entry that an upset gave a reserved COMP has a free value: the spec states none. It counts
neither in DRN_EVT_RANGE nor in DRN_EVT_SAT, which R179 leaves open for it. DESIGN CHOICE, log entry 169. -/
def State.darnLamp (s : State) (h r i : Nat) : LampVal :=
  let e := s.lampEnt h r i
  let comp := entComp e
  let mode := s.rd (R.DRN_CFG_MODE h)
  if comp = 7 then ⟨0, false, false⟩
  else if mode = 2 then ⟨s.rd (R.DRN_CFG_FLAT h), false, false⟩
  else if 4 ≤ comp then ⟨Config.free (s.freeCtr + r * 512 + i) % 65536, false, false⟩
  else
    let sp : Space := .darn h (s.rd (R.DRN_BANK_CUR h))
    let p := entPixel e
    let inside := decide (p < s.winW h * s.winH h)
    let c := if inside then s.cb h p else 0
    let t := s.rd32 sp (darnLampAt r i)
    let lin (j : Nat) : Int := (s.rdLE sp (darnCurveAt (bitsOf t 16 3) (bitsOf c (10 * j) 10)) 2 : Nat)
    let m (k j : Nat) : Int := if mode = 1 then (if k = j then 16384 else 0) else s.darnCoef sp p k j
    let y (k : Nat) : Nat × Bool := satLamp ((m k 0 * lin 0 + m k 1 * lin 1 + m k 2 * lin 2 + 8192) / 16384)
    let y0 := y 0
    let y1 := y 1
    let y2 := y 2
    let w := min y0.1 (min y1.1 y2.1)
    let wx := bitOf (s.rdLE sp (darnPixelAt p + 18) 2) 0
    let out := if comp = 3 then w else (if comp = 0 then y0.1 else if comp = 1 then y1.1 else y2.1) - (if wx then w else 0)
    let v := satLamp ((out : Int) + sgn 16 t)
    ⟨v.1, !inside, y0.2 || y1.2 || y2.2 || v.2⟩

/-- The main pass over the half's lamps: the state, range_hit, and whether a sat() clipped. -/
def State.darnMain (s : State) (h : Nat) : State × Bool × Bool :=
  forN 64 (fun r a => forN 512 (fun i b =>
    let x := s.darnLamp h r i
    (b.1.wrLE (s.backBuf h) (scanAt r i) x.v 2, b.2.1 || x.range, b.2.2 || x.sat)) a) ({ s with freeCtr := s.freeCtr + 32768 }, false, false)

/-! ### The mend pass (R181 to R184) -/

/-- A mend-list entry in force. -/
def State.mendEnt (s : State) (n : Nat) : Nat := s.rdLE .mend (8 * n) 8

def mendSink (e : Nat) : Nat := e % 1024
def mendRow (e : Nat) : Nat := bitsOf e 10 6
def mendWt (e n : Nat) : Nat := bitsOf e (16 + 12 * n) 4
def mendDSink (e n : Nat) : Int := sgn 5 (bitsOf e (20 + 12 * n) 5)
def mendDRow (e n : Nat) : Int := sgn 3 (bitsOf e (25 + 12 * n) 3)

/-- The slots of an entry with a non-zero weight. -/
def mendSlots (e : Nat) : List Nat := (List.range 4).filter (fun n => mendWt e n ≠ 0)

/-- The valid entries of a half, in list order (R182). -/
def State.mendEnts (s : State) (h : Nat) : List Nat :=
  ((List.range 4096).map s.mendEnt).filter (fun e => !(mendSlots e).isEmpty && mendSink e / 512 = h)

/-- The lamp a neighbour slot names, as row and sink of the half; none outside the half or the rows (R183). -/
def mendTo (h e n : Nat) : Option (Nat × Nat) :=
  let s2 := (mendSink e : Int) + mendDSink e n - 512 * (h : Int)
  let r2 := (mendRow e : Int) + mendDRow e n
  if 0 ≤ s2 ∧ s2 < 512 ∧ 0 ≤ r2 ∧ r2 < 64 then some (r2.toNat, s2.toNat) else none

/-- The mend pass: the state and the skipped slots. `v0` holds the values after the main pass. -/
def State.darnMend (v0 : State) (h : Nat) : State × Nat :=
  let sp := v0.backBuf h
  let l := v0.mendEnts h
  let a := forL l (fun e a =>
    let share := v0.rdLE sp (scanAt (mendRow e) (mendSink e % 512)) 2
    forL (mendSlots e) (fun n b =>
      match mendTo h e n with
      | none => (b.1, b.2 + 1)
      | some p => (b.1.wrLE sp (scanAt p.1 p.2) (min 65535 (b.1.rdLE sp (scanAt p.1 p.2) 2 + (mendWt e n * share + 8) / 16)) 2, b.2)) a) (v0, 0)
  (forL l (fun e b => b.wrLE sp (scanAt (mendRow e) (mendSink e % 512)) 0 2) a.1, a.2)

/-- The clocks of a run (R169). -/
def State.darnClocks (s : State) (h : Nat) : Nat := 8192 + 1024 + (s.mendEnts h).foldl (fun n e => n + (mendSlots e).length) 0 + 16

/-- A darning run ends: the back scan buffer is written, its counters show the run, and the half's composition is complete; a page
that drains shows DRAINED (R168 to R170, R179, R183). -/
def State.darnEnd (s : State) (h : Nat) : State :=
  let m := s.darnMain h
  let on := s.on (R.DRN_CTRL_MEND_EN h)
  let n := if on then m.1.darnMend h else (m.1, 0)
  let s1 := n.1
  let s2 := if m.2.1 then s1.count (R.DRN_EVT_RANGE h) else s1
  let s3 := if m.2.2 then s2.count (R.DRN_EVT_SAT h) else s2
  let s4 := (s3.wr (R.DRN_MEND_STATE_APPLIED h) (if on then (s.mendEnts h).length else 0)).wr (R.DRN_MEND_STATE_SKIPPED h) n.2
  let s5 := (s4.wr (R.DRN_LAST_CYCLES_CLOCKS h) (s.darnClocks h)).setDarn h { s4.darn h with running := false, complete := true }
  if s5.run .DRN h = runDraining then s5.setRun .DRN h runDrained else s5

/-! ### Banks (R174, R185 to R188) -/

/-- The bytes that `idx` takes from a memory, at `idx` from `kb` on in place of the `n` bytes there. -/
def copyMem (m : List Host.Cell) (idx : Nat → Option Nat) (kb n : Nat) : List Host.Cell :=
  m.foldl (fun l c => match idx c.1 with | some d => memPut l (kb + d) c.2 | none => l) (m.filter (fun c => !(kb ≤ c.1 && c.1 < kb + n)))

/-- The `n` bytes at an offset of a space that does not wrap. -/
def plainIdx (ka n k : Nat) : Option Nat := if ka ≤ k ∧ k < ka + n then some (k - ka) else none

/-- The `n` bytes at a DRAM address, modulo the DRAM (R363). -/
def dramIdx (b : Build) (a n k : Nat) : Option Nat :=
  let k0 := Space.dram.key 0
  if k0 ≤ k ∧ k < k0 + dramSize b then
    let d := (k - k0 + dramSize b - a % dramSize b) % dramSize b
    if d < n then some d else none
  else none

/-- The mend list as it stands is in force from now on (R184). -/
def State.mendLatch (s : State) : State :=
  { s with mem := copyMem s.mem (plainIdx 1179648 32768) (Space.mend.key 0) 32768 }

/-- A write of SEL: PENDING while SEL differs from CUR (R185). -/
def State.darnSel (s : State) (h : Nat) : State :=
  s.wrB (R.DRN_BANK_PENDING h) (s.rd (R.DRN_BANK_SEL h) ≠ s.rd (R.DRN_BANK_CUR h))

/-- The bank swap at the latch instant; not while LOAD runs (R185, R186, R188). -/
def State.darnSwap (s : State) (h : Nat) : State :=
  if s.on (R.DRN_BANK_PENDING h) && !s.on (R.DRN_BANK_LOADING h) then
    (((s.wr (R.DRN_BANK_CUR h) (s.rd (R.DRN_BANK_SEL h))).wr (R.DRN_BANK_PENDING h) 0)).retire (h, 16)
  else s

/-- The inactive bank (R174). -/
def State.idleBank (s : State) (h : Nat) : Space := .darn h (1 - s.rd (R.DRN_BANK_CUR h))

def State.darnBusy (s : State) (h : Nat) : Bool := s.on (R.DRN_CMD_LOAD h) || s.on (R.DRN_CMD_VERIFY h)

/-- LOAD starts, or is BUSY (R187): its reads are requests of requester 3; a burst that no channel serves reads as 0 (R375). One that is
written while DRN is parked in Shoulder runs as any other: R187 has it copy, and R400 has no parked requester ask. DESIGN CHOICE, log entry 196. -/
def State.loadStart (s : State) (h : Nat) : Except Nat State :=
  if s.darnBusy h || s.on (R.DRN_BANK_PENDING h) then .error rBusy
  else
    let base := s.rd (R.DRN_LOAD_BASE_BASE h) * 4096
    let lost := (List.range (darnImage / 32)).filter (fun i => !s.chServes (chanOf s.build ((base + 32 * i) % dramSize s.build)))
    let s1 := s.setDarn h { s.darn h with written := [], lost := lost }
    .ok (((s1.dramUse 3 base darnImage false).wr (R.DRN_CMD_LOAD h) 1).wr (R.DRN_BANK_LOADING h) 1)

/-- VERIFY starts, or is BUSY (R187). -/
def State.verifyStart (s : State) (h : Nat) : Except Nat State :=
  if s.darnBusy h then .error rBusy else .ok (s.wr (R.DRN_CMD_VERIFY h) 1)

/-- The reserved bits of a bank read 0 (R175, R176): bits [31:17] of dword 4 and dwords 5 to 7 of a pixel entry, bits [31:19] of a
lamp entry. The mask of the bits kept in the byte at an offset of a bank. -/
def bankMask (off : Nat) : Nat :=
  if off < 1048576 then (let m := off % 32; if m < 18 then 255 else if m = 18 then 1 else 0)
  else if off < 1179648 then (let m := off % 4; if m < 2 then 255 else if m = 2 then 7 else 0)
  else if off < darnImage then 255 else 0

/-- The content of a bank in the order of R187. -/
def State.bankCrc (s : State) (sp : Space) : Nat := crc32c (s.rdBytes sp 0 darnImage)

/-- An aperture write at dword offset `off` of a half's inactive bank: remembered while LOAD runs (R187). -/
def State.apWritten (s : State) (h off : Nat) : State :=
  if s.on (R.DRN_BANK_LOADING h) then s.setDarn h { s.darn h with written := off :: (s.darn h).written.filter (fun o => o ≠ off) } else s

/-- A bank's content is compared with the CRC that the Ryupel image being applied carries; a mismatch is counted (R189). -/
def State.bankChecked (s : State) (h crc : Nat) : State :=
  match (s.darn h).expect with
  | none => s
  | some c =>
    let s1 := s.setDarn h { s.darn h with expect := none }
    if c = crc then s1 else s1.count R.BOOT_EVT_VERIFY_FAIL

/-- LOAD completes (R187): the image is in the bank, its CRC posted and compared. Words that DRAM answered with an error read as 0 (R375).
Where the aperture wrote a location meanwhile, which of the two reached it last is a free choice (log entry 54). The bytes come from where DRN_LOAD_BASE points at the end, the requests and their errors from where it
pointed at the start: R187 does not say which of the two holds where software rewrites it meanwhile. DESIGN CHOICE, log entry 168. -/
def State.loadDone (s : State) (h : Nat) : State :=
  if !s.on (R.DRN_CMD_LOAD h) || s.coreGated then s
  else
    let sp := s.idleBank h
    let base := s.rd (R.DRN_LOAD_BASE_BASE h) * 4096
    let idx (k : Nat) : Option Nat := (dramIdx s.build base darnImage k).bind (fun d => if (s.darn h).lost.contains (d / 32) then none else some d)
    let s1 := { s with mem := copyMem s.mem idx (sp.key 0) darnImage }
    let raw := s1.bankCrc sp
    let s2 := forN darnImage (fun off a => let b := (a.rd8 sp off).toNat
      if Nat.land b (bankMask off) = b then a else a.wr8 sp off (BitVec.ofNat 8 (Nat.land b (bankMask off)))) s1
    let s3 := forL (s.darn h).written (fun off a => (if a.freeVal % 2 = 0 then a else a.wr32 sp off (s.rd32 sp off)).useFree) s2
    let s4 := s3.setDarn h { s3.darn h with written := [], lost := [] }
    (((s4.wr (R.DRN_BANK_CRC_CRC h) raw).wr (R.DRN_BANK_LOADING h) 0).wr (R.DRN_CMD_LOAD h) 0).bankChecked h raw

/-- VERIFY completes (R187). -/
def State.verifyDone (s : State) (h : Nat) : State :=
  if !s.on (R.DRN_CMD_VERIFY h) || s.coreGated then s
  else (s.wr (R.DRN_BANK_CRC_CRC h) (s.bankCrc (s.idleBank h))).wr (R.DRN_CMD_VERIFY h) 0

/-! ### Enable and disable (R170, R173) -/

/-- Remember who asked for an enable whose check takes time. -/
def State.ask (s : State) (pg path view : Nat) : State := s.setEng { s.eng with asks := Sparse.put s.eng.asks pg (path * 4 + view) }

/-- A check that takes time fails: ENABLE stays 0, the write counted with its reason (R68). -/
def State.askFail (s : State) (b : Blk) (w reason : Nat) : State :=
  let a := Sparse.look s.eng.asks (b.pg w) 4
  ((s.wr (R.ENABLE (b.pg w)) 0).setRun b w runDisabled).ignored (b.pg w) 4 (a % 4) (a / 4) reason

/-- A check that takes time passes: ENABLE reads 1, and the block runs (R68). -/
def State.askPass (s : State) (b : Blk) (w : Nat) : State := (s.wr (R.ENABLE (b.pg w)) 1).setRun b w runRunning

/-- The lamp-map check ends (R173). -/
def State.mapChecked (s : State) (h : Nat) : State :=
  if s.run .DRN h ≠ runStarting || s.coreGated then s
  else match s.mapBad h with
    | none => (s.askPass .DRN h).wr (R.DRN_MAP_ERR_VALID h) 0
    | some n =>
      let s1 := ((s.wr (R.DRN_MAP_ERR_VALID h) 1).wr (R.DRN_MAP_ERR_ROW h) (n / 512)).wr (R.DRN_MAP_ERR_SINK h) (512 * h + n % 512)
      s1.askFail .DRN h 16

/-- DRN is disabled: a run in progress is finished first (R170). -/
def State.darnDisable (s : State) (h : Nat) : State :=
  if (s.darn h).running then s.setRun .DRN h runDraining else s.setRun .DRN h runDrained

end Sys2Proof.Machine
end

