-- ==== Sys2Proof/Machine/ScanOps.lean ====
section
/-! DEFINITION. Scan-out (07_scan_out.md R191 to R213): the lead-half vote (R312, R313), the timing of a frame at the epoch boundary,
the row order and the slot edges, what a frame shows, and the commit of SCN_FB. -/

namespace Sys2Proof.Machine

/-- SCN_STATUS.ROLE codes. -/
def srNone : Nat := 0
def srLead : Nat := 1
def srFollow : Nat := 2
def srAlone : Nat := 3

def State.scnRole (s : State) (h : Nat) : Nat := s.rd (R.SCN_STATUS_ROLE h)

/-- A half claims: its SCN page shows STARTING or RUNNING (R312). -/
def State.scnClaims (s : State) (h : Nat) : Bool := s.run .SCN h = runStarting || s.run .SCN h = runRunning

/-- A half takes part in the next frame (R209, R211): it claims, and CORE and the power controller let it run. -/
def State.scnLive (s : State) (h : Nat) : Bool := s.enabled .SCN h && s.scnClaims h && !s.coreGated && !s.parked 7

/-! ### The lead vote (R312, R313) -/

def State.claim (s : State) (h : Nat) : Nat := s.rd (if h = 0 then R.CRN_CTRL_CLAIM_W else R.CRN_CTRL_CLAIM_E)

/-- The half named by at least two of CLAIM_W, CLAIM_E and LEAD_HALF. -/
def State.leadVote (s : State) : Nat := if 2 ≤ s.claim 0 + s.claim 1 + s.rd R.CRN_CTRL_LEAD_HALF then 1 else 0

def State.leadUnanimous (s : State) : Bool := s.claim 0 = s.claim 1 && s.claim 0 = s.rd R.CRN_CTRL_LEAD_HALF

def State.bothClaim (s : State) : Bool := s.scnClaims 0 && s.scnClaims 1

/-- The vote is looked at again: it counts where it stops being unanimous, and again only after it has been unanimous (R312). -/
def State.voteSync (s : State) : State :=
  if !s.bothClaim then s
  else if s.leadUnanimous then { s with cairn := { s.cairn with unanimous := true } }
  else if s.cairn.unanimous then ({ s with cairn := { s.cairn with unanimous := false } }).count R.CRN_EVT_DISAGREE
  else s

/-- A half becomes ALONE, and its claim names itself (R210, R313). -/
def State.setAlone (s : State) (h : Nat) : State :=
  (s.wr (R.SCN_STATUS_ROLE h) srAlone).wr (if h = 0 then R.CRN_CTRL_CLAIM_W else R.CRN_CTRL_CLAIM_E) h

/-- A half has stopped: its role and INC read 0, and the other goes on ALONE (R210). VALID, S_EFF, STATIC and TMISMATCH show what they showed, TMISMATCH until
the next boundary: R210 and R213 do not say. DESIGN CHOICE, log entry 170. -/
def State.scnStopped (s : State) (h : Nat) : State :=
  let s1 := (s.wr (R.SCN_STATUS_ROLE h) srNone).wr (R.SCN_INC_INC h) 0
  let o := otherHalf h
  if s1.scnRole o = srLead || s1.scnRole o = srFollow then s1.setAlone o else s1

/-- The roles of the frame that begins (R209, R210, R313): a half that joins one that runs follows it for one frame. -/
def State.scnRoles (s : State) : State :=
  let put (a : State) (w e : Nat) : State := (a.wr (R.SCN_STATUS_ROLE 0) w).wr (R.SCN_STATUS_ROLE 1) e
  if s.scnLive 0 && s.scnLive 1 then
    let a := s.voteSync
    if s.scnRole 0 = srAlone && s.scnRole 1 = srNone then put a srLead srFollow
    else if s.scnRole 1 = srAlone && s.scnRole 0 = srNone then put a srFollow srLead
    else if a.leadVote = 0 then put a srLead srFollow else put a srFollow srLead
  else if s.scnLive 0 then (if s.scnRole 0 = srAlone then s else s.setAlone 0).wr (R.SCN_STATUS_ROLE 1) srNone
  else if s.scnLive 1 then (if s.scnRole 1 = srAlone then s else s.setAlone 1).wr (R.SCN_STATUS_ROLE 0) srNone
  else put s srNone srNone

/-! ### The timing of a frame (R194, R196, R202, R203, R211) -/

/-- The gap condition G ≥ T' + 512 ns with T' = T × S / S' (R194, R202). -/
def gapFits (period n sf t eff : Nat) : Bool := decide (sf * n * t ≤ period ∧ t * sf + 512 * eff ≤ (period - sf * n * t) * eff)

/-- f × S' ≥ FLOOR; a FLOOR of 0 turns the check off (R202, R203). -/
def floorMet (period floor eff : Nat) : Bool := decide (floor * period ≤ 1000000000 * eff)

/-- The subframe count in force: in static mode the smallest that meets both conditions (R202). -/
def effCount (period n sf ss t floor : Nat) (static : Bool) : Nat :=
  if static then
    (((List.range (sf + 1 - ss)).map (fun i => ss + i)).find? (fun c => floorMet period floor c && gapFits period n sf t c)).getD sf
  else sf

/-- INC = round(2^37 / T') (R196). -/
def scanInc (sf t eff : Nat) : Nat := (274877906944 * eff + t * sf) / (2 * t * sf)

def ScanHalf.inc (x : ScanHalf) : Nat := scanInc x.subf x.slotNs x.eff

/-- The timing fields a follower takes from its lead (R209). -/
def State.timingFlds (s : State) (h : Nat) : List Nat :=
  [s.rd (R.SCN_ROWCFG_ROWS h), s.rd (R.SCN_ROWCFG_SUBF h), s.rd (R.SCN_ROWCFG_SUBF_STATIC h), s.rd (R.SCN_ROWCFG_ROT h),
   s.rd (R.SCN_SLOT_NS h), s.rd (R.SCN_PULSE_MAX_NS h), s.rd (R.SCN_FLOOR_HZ h), s.rd (R.SCN_CTRL_FORCE_STATIC h)]

/-- A half's part of the epoch boundary: timing, checks and counters of the frame that begins (R202, R209, R211). -/
def State.scanFrame (s : State) (h : Nat) : State :=
  if !s.scnLive h then
    ((s.setScan h ScanHalf.init).wr (R.SCN_STATUS_TMISMATCH h) 0).wr (R.SCN_INC_INC h) 0
  else
    let follow := s.scnRole h = srFollow
    let g := if follow then otherHalf h else h
    let n := s.rd (R.SCN_ROWCFG_ROWS g)
    let sf := s.rd (R.SCN_ROWCFG_SUBF g)
    let ss := s.rd (R.SCN_ROWCFG_SUBF_STATIC g)
    let t := s.rd (R.SCN_SLOT_NS g)
    let floor := s.rd (R.SCN_FLOOR_HZ g)
    let period := s.rd R.EPC_PERIOD_NS
    let static := s.pstate = pShoulder || s.on (R.SCN_CTRL_FORCE_STATIC g)
    let eff := effCount period n sf ss t floor static
    let ep := s.rd R.EPC_STATE_STATE
    let valid := if !(decide (sf * n * t + 8000 ≤ period) && gapFits period n sf t eff) then 16
      else if !floorMet period floor eff then 17
      else if !(ep = 1 || ep = 2) then 18 else 0
    let x : ScanHalf := { ok := valid = 0, rows := n, subf := sf, eff := eff, slotNs := t, pulseMax := s.rd (R.SCN_PULSE_MAX_NS g),
                          rot := s.rd (R.SCN_ROWCFG_ROT g) % n, next := 0, late := false, gap := false, acc := 0, clk := 0, edge := 0,
                          accAt := none, fetch := [], first := none }
    let mism := follow && s.timingFlds h ≠ s.timingFlds g
    let s1 := if mism then s.count (R.SCN_EVT_TMISMATCH h) else s
    let s2 := if valid = 0 then (if s1.run .SCN h = runStarting then s1.setRun .SCN h runRunning else s1) else s1.count (R.SCN_EVT_INVALID h)
    let s3 := if static && decide (ss < eff) then s2.count (R.SCN_EVT_FLOORUP h) else s2
    let s4 := (((s3.wr (R.SCN_STATUS_VALID h) valid).wr (R.SCN_STATUS_S_EFF h) eff).wrB (R.SCN_STATUS_TMISMATCH h) mism).wrB (R.SCN_STATUS_STATIC h) static
    (s4.setScan h { x with late := (s.scan h).late, fetch := (s.scan h).fetch, first := (s.scan h).first }).wr (R.SCN_INC_INC h) (if s4.run .SCN h = runRunning then x.inc else 0)

/-- Scan-out at the epoch boundary (R196, R202, R209 to R211). -/
def State.scanBoundary (s : State) : State := (s.scnRoles.scanFrame 0).scanFrame 1

/-! ### Slots (R192, R195, R196, R198) -/

/-- The row of slot k (R195). -/
def ScanHalf.rowOf (x : ScanHalf) (k : Nat) : Nat := (k % x.rows + k / x.rows * x.rot) % x.rows

def ScanHalf.slots (x : ScanHalf) : Nat := x.eff * x.rows

/-- A frame is being timed, and slots of it are left. -/
def State.inFrame (s : State) (h : Nat) : Bool :=
  let x := s.scan h
  !s.coreGated && !x.gap && decide (x.next < x.slots)

/-- The accumulator runs on to the start of slot k with the trim in force, and the edge is placed on the 62.5 ps grid (R196, R198). -/
def State.advanceTo (s : State) (x : ScanHalf) (k : Nat) : ScanHalf :=
  let step := x.inc * (1000000000 + s.rdI R.EPC_TRIM_TRIM).toNat
  let target := k * 137438953472 * 1000000000
  if step = 0 ∨ target ≤ x.acc then { x with edge := 16 * x.clk }
  else
    let n := (target - x.acc + step - 1) / step
    let acc := x.acc + n * step
    { x with acc := acc, clk := x.clk + n, edge := 16 * (x.clk + n) - 16 * (acc - target) / (x.inc * 1000000000) }

/-- The accumulators reach slot k: that of a half that runs by itself, or the lead's, whose value the follower takes on every clock
(R196, R209). -/
def State.reachSlot (s : State) (h k : Nat) : State :=
  let paired := s.scnRole h = srLead || s.scnRole h = srFollow
  let x := s.scan (if s.scnRole h = srFollow then otherHalf h else h)
  let y := if x.accAt.any (fun a => decide (k ≤ a)) then x else { s.advanceTo x k with accAt := some k }
  let put (g : Nat) (t : State) : State := t.setScan g { t.scan g with acc := y.acc, clk := y.clk, edge := y.edge, accAt := y.accAt }
  if paired then put (otherHalf h) (put h s) else put h s

/-- Scan-out emits the frame (R46, R211, R224). -/
def State.scanEmits (s : State) (h : Nat) : Bool :=
  (s.scan h).ok && s.running .SCN h && !s.coreGated && !s.parked 7

/-- The dead window (R193, R202), in ns: that of the frame in force, or of the registers while the half does not run. -/
def State.deadWindow (s : State) (h : Nat) : Nat :=
  if s.scnRole h = srNone then s.rd (R.SCN_SLOT_NS h) - s.rd (R.SCN_PULSE_MAX_NS h) else (s.scan h).slotNs - (s.scan h).pulseMax

/-! ### What a frame shows (R204, R206) -/

/-- Where a DRAM frame's row lies. -/
def State.fbAt (s : State) (h r : Nat) : Nat := s.rd (R.SCN_FB_CUR_BASE h) * 4096 + scanAt r 0

/-- What marks the bursts of a half's fetch of the row of slot k. -/
def fetchTag (h k : Nat) : Nat := 1 + h + 2 * k

/-- Scan-out fetches the DRAM row of slot k, with requester 0 (R206, R207); it keeps the rows of three slots. -/
def State.fetchRow (s : State) (h k r : Nat) : State :=
  if s.on (R.SCN_FB_CUR_SRC h) then
    let a := s.fbAt h r
    let e : RowFetch := { slot := k, at_ := a, bytes := s.rdBytes .dram a 1024, bad := !s.dramServes a 1024 }
    let s1 := s.dramUseAs (fetchTag h k) 0 a 1024 false
    s1.setScan h { s1.scan h with fetch := (e :: (s1.scan h).fetch.filter (fun f => f.slot ≠ k)).take 3 }
  else s

/-- A burst of the row that a half fetches for slot k has not come. -/
def State.rowWaits (s : State) (h k : Nat) : Bool :=
  (List.range (channels s.build)).any (fun j =>
    let x := s.dch j
    (x.flight.toList ++ x.reads.map (fun q => q.req) ++ x.held).any (fun r => r.requester = 0 && r.tag = fetchTag h k))

/-- The lamp value scan-out shows for a sink in slot k on row r (R206). -/
def State.shown (s : State) (h k r i : Nat) : Nat :=
  if s.on (R.SCN_FB_CUR_SRC h) then
    (match (s.scan h).fetch.find? (fun f => f.slot = k) with
     | some f => leNat [f.bytes.getD (2 * i) 0, f.bytes.getD (2 * i + 1) 0]
     | none => 0)
  else s.rdLE (s.frontBuf h) (scanAt r i) 2

/-- The rail of a lamp: 0 red, 1 green, 2 blue; none for a sink that is held off (R204, R214). One whose COMP is reserved, which a lamp map may hold while
DRN is disabled, has none either: it stays dark and out of the row sums. DESIGN CHOICE, log entry 197. -/
def State.railOf (s : State) (h r i : Nat) : Option Nat :=
  let c := entComp (s.lampEnt h r i)
  if c < 3 then some c
  else if c = 3 then (let w := s.rd (R.SCN_ROWCFG_WRAIL h); if w < 3 then some w else none)
  else none

/-- Sink `i` is held forced off (R231). -/
def State.forcedOff (s : State) (h i : Nat) : Bool := bitOf (s.rd (R.LMP_FORCED_SINKS h (i / 32))) (i % 32)

/-- The row sum of a rail for slot k (R204). -/
def State.rowSum (s : State) (h k r rail : Nat) : Nat :=
  forN 512 (fun i n => if s.railOf h r i = some rail && !s.forcedOff h i then n + s.shown h k r i else n) 0

/-! ### SCN_FB (R208) and SCN's enable (R211) -/

/-- SCN_COMMIT.GO. -/
def State.scnGo (s : State) (h : Nat) : Except Nat State :=
  if s.on (R.SCN_FB_CUR_PENDING h) then .error rBusy
  else .ok ((s.wr (R.SCN_COMMIT_GO h) 1).wr (R.SCN_FB_CUR_PENDING h) 1)

/-- In the frame gap a half that takes part in the next frame fetches the rows of slots 0 and 1 (R207). -/
def State.gapFetch (s : State) (h : Nat) : State :=
  if s.scnLive h then
    let g := if s.scnRole h = srFollow then otherHalf h else h
    (s.fetchRow h 0 0).fetchRow h 1 (1 % s.rd (R.SCN_ROWCFG_ROWS g))
  else s

/-- Scan-out at the latch instant: NOSWAP, the pending SCN_FB, the accumulator at S x N, and the frame gap, in which it fetches the rows of
slots 0 and 1 (R165, R192, R196, R207, R208). A latch instant without a swap counts for a half that takes part: whether it does for one whose page is not
STARTING or RUNNING, R165 and R208 leave open. DESIGN CHOICE, log entry 171. -/
def State.scanLatch (s : State) (h : Nat) (swapped : Bool) : State :=
  let s1 := if s.scnLive h && !swapped && s.pstate ≠ pShoulder then s.count (R.SCN_EVT_NOSWAP h) else s
  let s2 := if s1.on (R.SCN_FB_CUR_PENDING h) then
      (((s1.wr (R.SCN_FB_CUR_SRC h) (s1.rd (R.SCN_FB_SRC h))).wr (R.SCN_FB_CUR_BASE h) (s1.rd (R.SCN_FB_BASE h))).wr (R.SCN_FB_CUR_PENDING h) 0).wr (R.SCN_COMMIT_GO h) 0
    else s1
  let s3 := if (s2.scan h).slots = 0 then s2 else s2.reachSlot h (s2.scan h).slots
  (s3.setScan h { s3.scan h with gap := true, first := none, fetch := [] }).gapFetch h

/-- The check of SCN's static fields (R193, R211). -/
def State.scnCheck (s : State) (h : Nat) : Option Nat :=
  let p := s.rd (R.SCN_PULSE_MAX_NS h)
  if p < 48 ∨ s.rd (R.SCN_SLOT_NS h) < p + 40 ∨ s.rd (R.SCN_ROWCFG_SUBF h) < s.rd (R.SCN_ROWCFG_SUBF_STATIC h) then some 16 else none

/-- SCN is enabled: STARTING, and the vote. In the frame gap it fetches what the next frame shows first (R207, R210, R312). -/
def State.scnEnable (s : State) (h : Nat) : State :=
  let s1 := (s.setRun .SCN h runStarting).voteSync
  if s1.eng.lay.latched then (s1.setScan h { s1.scan h with fetch := [] }).gapFetch h else s1

/-- SCN is disabled: the lamps blank, and the other half goes on ALONE (R69, R208, R210). The frame's timing goes on to its end, so
that its next publications carry zero sums. -/
def State.scnDisable (s : State) (h : Nat) : State := (s.setRun .SCN h runDisabled).scnStopped h

end Sys2Proof.Machine
end

