-- ==== Sys2Proof/Machine/TravOps.lean ====
section
/-! DEFINITION. Traverse (10_traverse.md R260 to R273): the scale of a half, one CTL clock of a generator's motion, LOST and its
reload. `g` is the generator. -/

namespace Sys2Proof.Machine

/-- TRV_Gg_POS.STATE codes. -/
def tsOff : Nat := 0
def tsIdle : Nat := 1
def tsMoving : Nat := 2
def tsLost : Nat := 3

/-- WHY codes (R268). -/
def twDup : Nat := 1
def twClock : Nat := 2
def twBound : Nat := 3
def twStop : Nat := 4
def twDisable : Nat := 5
def twPower : Nat := 6

def accMax : Nat := 281474976710655

def State.genEn (s : State) (g : Nat) : Bool := bitOf (s.rd R.TRV_CFG_GEN_EN) g
def State.genState (s : State) (g : Nat) : Nat := s.rd (R.TRV_G_POS_STATE g)

/-- What a generator contributes (R260). -/
def State.genQ (s : State) (g : Nat) : Nat := if s.genEn g then (s.trv g).acc / 4294967296 else 65535

def scaleOf (a b : Nat) : Nat := (a * b + 32767) / 65535

/-- The scales of the halves from the positions as they stand (R260). -/
def State.trvScale (s : State) : Nat × Nat :=
  let w := scaleOf (s.genQ 0) (s.genQ 1)
  (w, if s.on R.TRV_CFG_LINK then w else scaleOf (s.genQ 2) (s.genQ 3))

/-- TRV_OUT takes the scales (R267). -/
def State.trvOut (s : State) : State :=
  let l := s.trvScale
  (s.wr R.TRV_OUT_L_W l.1).wr R.TRV_OUT_L_E l.2

/-- A generator that feeds the half is LOST (R224, R260, R268). -/
def State.trvLost (s : State) (h : Nat) : Bool :=
  let fed := if s.on R.TRV_CFG_LINK || h = 0 then [0, 1] else [2, 3]
  fed.any (fun g => s.genState g = tsLost)

/-- Show acc and v in the registers (TRV_Gg_POS, TRV_Gg_VEL). -/
def State.trvShow (s : State) (g : Nat) (x : TrvGen) (vdesc : Bool) : State :=
  (((s.setTrv g x).wr (R.TRV_G_POS_P g) (x.acc / 4294967296)).wrB (R.TRV_G_POS_VDESC g) vdesc).wrI (R.TRV_G_VEL_V g)
    (satI 32 ((x.v + 8388608) / 16777216))

/-- A generator that is not OFF becomes LOST for a reason; the first reason stays (R268). -/
def State.trvLose (s : State) (g why : Nat) : State :=
  if s.genState g = tsOff || s.genState g = tsLost then s
  else
    let x := s.trv g
    (((s.trvShow g { x with v := 0, from_ := none } false).wr (R.TRV_G_POS_STATE g) tsLost).wr (R.TRV_G_POS_WHY g) why).count (R.TRV_G_EVT_LOST g)

def State.trvLoseAll (s : State) (why : Nat) : State := forN 4 (fun g a => a.trvLose g why) s

/-- A generator at rest at its TARGET (R269, R270). -/
def State.trvLoad (s : State) (g : Nat) : State :=
  ((s.trvShow g { acc := s.rd (R.TRV_G_TARGET_TARGET g) * 4294967296, v := 0, from_ := none } false).wr (R.TRV_G_POS_STATE g) tsIdle).wr (R.TRV_G_POS_WHY g) 0

/-- The generators of GEN_EN after a wake from Valley: LOST with WHY POWER where R270 would load them, at their reset position (R272, R403). -/
def State.trvPower (s : State) : State :=
  forN 4 (fun g a => if a.genEn g then (((a.trvShow g TrvGen.init false).wr (R.TRV_G_POS_STATE g) tsLost).wr (R.TRV_G_POS_WHY g) twPower).count (R.TRV_G_EVT_LOST g)
    else a) s

/-- GEN_EN has changed: a generator whose bit is 0 is OFF and has no LOST state (R270). -/
def State.trvCfgTaken (s : State) : State :=
  forN 4 (fun g a => if a.genEn g then a else (a.wr (R.TRV_G_POS_STATE g) tsOff).wr (R.TRV_G_POS_WHY g) 0) s

/-- TRV is enabled: the generators of GEN_EN are loaded, the others are OFF (R270). -/
def State.trvEnable (s : State) : State :=
  (forN 4 (fun g a => if a.genEn g then a.trvLoad g else a) s.trvCfgTaken).setRun .TRV 0 runRunning

/-- The check of R270. -/
def State.trvCheck (s : State) : Option Nat := if s.on R.TRV_CFG_LINK && decide (4 ≤ s.rd R.TRV_CFG_GEN_EN) then some 18 else none

/-- TRV is disabled (R268). -/
def State.trvDisable (s : State) : State := (s.trvLoseAll twDisable).setRun .TRV 0 runDisabled

def sign (i : Int) : Int := if i < 0 then -1 else if i = 0 then 0 else 1

/-- What one clock of R262 gives: the generator, whether it is MOVING, whether it left the range. -/
structure TrvStep where
  gen : TrvGen
  moving : Bool
  away : Bool
  bound : Bool
  deriving DecidableEq, Repr

/-- One CTL clock of a generator's motion (R262, R266). -/
def trvStep (x : TrvGen) (tgt vmax amax : Nat) : TrvStep :=
  let d : Int := ((tgt * 4294967296 : Nat) : Int) - (x.acc : Int)
  let dd := d * 16777216
  if x.v = 0 ∧ d = 0 then ⟨x, false, false, false⟩
  else
    let a : Int := (amax : Int)
    let vlim : Int := ((vmax * 16777216 : Nat) : Int)
    let av : Int := (x.v.natAbs : Int)
    let dir := if x.v ≠ 0 then sign x.v else sign d
    let wall : Int := ((if 0 < dir then accMax - x.acc else x.acc : Nat) : Int) * 16777216
    let away := decide (dir * d < 0)
    let brk := av * (av + a)
    let v := if away || decide (2 * a * (dd.natAbs : Int) ≤ brk ∨ 2 * a * wall ≤ brk) then x.v - dir * min a av
      else if vlim < av then x.v - dir * min a (av - vlim)
      else dir * min (av + a) vlim
    let acc := (x.acc : Int) + (v + 8388608) / 16777216
    if acc < 0 then ⟨{ x with acc := 0, v := 0 }, true, away, true⟩
    else if (accMax : Int) < acc then ⟨{ x with acc := accMax, v := 0 }, true, away, true⟩
    else if dd.natAbs ≤ 72057594037927936 ∧ v.natAbs ≤ amax then ⟨{ x with acc := tgt * 4294967296, v := 0 }, true, away, false⟩
    else ⟨{ x with acc := acc.toNat, v := v }, true, away, false⟩

/-- The overshoot episode over a clock (R265): begins while the target lies behind and v is not 0; recorded when v reaches 0. -/
def State.trvEpisode (s : State) (g : Nat) (old : TrvGen) (st : TrvStep) : State × TrvGen :=
  if st.bound then (s, { st.gen with from_ := none }) else
  let start := match old.from_ with
    | some p => if st.away then some p else none
    | none => if st.away && old.v ≠ 0 then some (old.acc / 4294967296) else none
  let x := { st.gen with from_ := start }
  match start with
  | none => (s, x)
  | some p =>
    if st.gen.v = 0 then
      let peak := st.gen.acc / 4294967296
      (((s.wr (R.TRV_G_OVERSHOOT_PEAK g) peak).wr (R.TRV_G_OVERSHOOT_DIST g) (if p ≤ peak then peak - p else p - peak)).count (R.TRV_G_EVT_OVERSHOOT g),
        { x with from_ := none })
    else (s, x)

/-- One CTL clock of a generator (R262 to R266). In the clock of its arrival it shows IDLE (R270 and the worked example). -/
def State.trvClock (s : State) (g : Nat) : State :=
  if !(s.genState g = tsIdle || s.genState g = tsMoving) then s
  else
    let old := s.trv g
    let vmax := s.rd (R.TRV_G_VMAX_VMAX g)
    let st := trvStep old (s.rd (R.TRV_G_TARGET_TARGET g)) vmax (s.rd (R.TRV_G_AMAX_AMAX g))
    if !st.moving then s.wr (R.TRV_G_POS_STATE g) tsIdle
    else
      let p := s.trvEpisode g old st
      let here := decide (p.2.v = 0 ∧ p.2.acc = s.rd (R.TRV_G_TARGET_TARGET g) * 4294967296)
      let s1 := (p.1.trvShow g p.2 (decide (vmax * 16777216 < p.2.v.natAbs))).wr (R.TRV_G_POS_STATE g) (if here then tsIdle else tsMoving)
      if st.bound then s1.trvLose g twBound else s1

/-- TRAVERSE_CLOCK: TRV_OUT follows the positions of the clock before; a generator whose copies differ is LOST, the others move
(R262, R267, R268). -/
def State.trvTick (s : State) (dup : List Nat) : State :=
  if s.parked 6 then s
  else
    let s1 := s.trvOut
    if s.run .TRV 0 ≠ runRunning then s1
    else forN 4 (fun g a => if dup.contains g then a.trvLose g twDup else a.trvClock g) s1

/-- TRV_CMD.STOP and RELOAD, as one write (R268, R269): the state and the reasons of the ignored parts. -/
def State.trvCmd (s : State) (stop reload : Nat) : State × List Nat :=
  forN 4 (fun g a =>
    let st := bitOf stop g
    let rl := bitOf reload g
    if st then
      let live := a.1.genState g ≠ tsOff && a.1.genState g ≠ tsLost
      let s1 := if live then a.1.trvLose g twStop else a.1
      (s1, if rl then a.2 ++ [17] else a.2)
    else if rl then
      if a.1.run .TRV 0 ≠ runRunning then (a.1, a.2 ++ [19])
      else if a.1.genState g ≠ tsLost then (a.1, a.2 ++ [16])
      else (a.1.trvLoad g, a.2)
    else a) (s, [])

end Sys2Proof.Machine
end

