-- ==== Sys2Proof/Machine/LampOps.lean ====
section
/-! DEFINITION. Lamp drive (08_lamp_drive.md R214 to R234) and the row slot: blanking, the pulses of a slot, row sums as published,
lamp diagnosis, neighbour pairs, stuck rows, derating. `h` is the half, `i` a sink of the half, `r` a row. -/

namespace Sys2Proof.Machine

/-! ### Sink-die temperatures (R222, R223, R384, R385) -/

def State.sensorFault (s : State) (n : Nat) : Bool := bitOf (s.rd R.THM_STATUS_FAULT) n

/-- A sensor with a valid reading and not in FAULT. -/
def State.sensorGood (s : State) (n : Nat) : Bool := s.on (R.THM_S_VALID n) && !s.sensorFault n

/-- A sink die whose two sensors are both in FAULT: it counts as 130 °C. -/
def State.dieLost (s : State) (d : Nat) : Bool := s.sensorFault (4 + 2 * d) && s.sensorFault (5 + 2 * d)

/-- What lamp drive sees of the sink dies, in units of 0.25 °C. -/
def State.sinkTemps (s : State) : List Int :=
  ((List.range 8).filter (fun i => s.sensorGood (4 + i))).map (fun i => s.rdI (R.THM_S_T (4 + i))) ++
    ((List.range 4).filter s.dieLost).map (fun _ => 520)

/-- T of R222. -/
def State.sinkHottest (s : State) : Option Int :=
  match s.sinkTemps with
  | [] => none
  | t :: l => some (l.foldl max t)

/-- The over-temperature condition after a conversion (R223): each half counts its beginning. While no sink-die sensor is valid and no die counts as 130 °C
the condition stays as it is. DESIGN CHOICE, log entry 198. -/
def State.overtemp (s : State) : State :=
  match s.sinkHottest with
  | none => s
  | some t =>
    forN 2 (fun h a =>
      let x := a.lamp h
      if 520 ≤ t ∧ !x.hotReq then (a.setLamp h { x with hotReq := true }).count (R.LMP_EVT_OVERTEMP h)
      else if t ≤ 480 ∧ x.hotReq then a.setLamp h { x with hotReq := false }
      else a) s

/-! ### Blanking (R224) -/

/-- The first failing condition of R224 before scan-out's. -/
def State.lmpBlkPre (s : State) (h : Nat) : Nat :=
  if !(s.enabled .LMP h && s.run .LMP h = runRunning && s.pins.railPg) then (if s.run .LMP h = runFault then 6 else 1)
  else if !s.lampEn then 2
  else if s.trvLost h then 3
  else if (s.lamp h).hot then 4
  else 0

/-- LMP_STATE.BLK: 0 while the half emits. -/
def State.lmpBlk (s : State) (h : Nat) : Nat :=
  let b := s.lmpBlkPre h
  if b ≠ 0 then b else if s.scanEmits h then 0 else 5

/-- The row whose output is low, and the pulses the sinks drive: none from the instant the half blanks (R220, R224). -/
def State.litRow (s : State) (h : Nat) : Option Nat := if s.lmpBlk h = 0 then (s.lamp h).row else none
def State.litPulses (s : State) (h : Nat) : List Pulse :=
  if s.lmpBlk h = 0 then (s.lamp h).pulses.filter (fun p => !s.forcedOff h p.sink) else []

/-- A half that was blanked in `was` stays dark until its next row slot (R223, R224, R269). -/
def State.keepDark (s was : State) : State :=
  forN 2 (fun h a => if was.lmpBlk h ≠ 0 then a.setLamp h { a.lamp h with row := none, pulses := [] } else a) s

/-! ### Pulses of a slot (R199, R200, R214 to R218) -/

/-- Part `j` of `n` spread over `eff` subframes on row `r` (R200, R218). -/
def spread (n eff j r : Nat) : Nat := n / eff + (if (j + r) % eff < n % eff then 1 else 0)

/-- The on-time of a lamp per frame, in ticks (R199). -/
def onTime (v c budget : Nat) : Nat := (min v c * budget + c / 2) / c

/-- The amplitude units of a lamp per frame (R218). -/
def ampUnits (v c eff : Nat) : Nat := (max v c * 255 * eff + 32767) / 65535

/-- The current of 24.0 mA, and the largest product of R215, in the unit of `Pulse.cur`. -/
def curDen : Nat := 98208 * 65535 * 1024 * 1024 * 255

def State.trim (s : State) (h i : Nat) : Nat :=
  s.rd (match i % 4 with | 0 => R.LMP_TRIM_TRIM0 h (i / 4) | 1 => R.LMP_TRIM_TRIM1 h (i / 4) | 2 => R.LMP_TRIM_TRIM2 h (i / 4) | _ => R.LMP_TRIM_TRIM3 h (i / 4))

/-- The turn-on compensation of a sink's group (R216). -/
def tdlyF (h g : Nat) : Fld :=
  match g % 4 with | 0 => R.LMP_TDLY_TAPS0 h (g / 4) | 1 => R.LMP_TDLY_TAPS1 h (g / 4) | 2 => R.LMP_TDLY_TAPS2 h (g / 4) | _ => R.LMP_TDLY_TAPS3 h (g / 4)

def LampHalf.ref (x : LampHalf) (rail : Nat) : Nat := if rail = 0 then x.refR else if rail = 1 then x.refG else x.refB

/-- The pulse of a lamp in slot `k` on row `r`; none for a lamp that stays dark. -/
def State.pulseOf (s : State) (h k r i : Nat) (dead : List Nat) : Option Pulse :=
  match s.railOf h r i with
  | none => none
  | some rail =>
    if s.forcedOff h i || dead.contains (i / 256) then none
    else
      let x := s.scan h
      let j := k / x.rows
      let y := s.lamp h
      let v := s.shown h k r i
      let c := s.rd (R.LMP_XOVER_C h)
      let w := spread (onTime v c (x.subf * x.pulseMax * 16)) x.eff j r
      if w = 0 then none
      else
        let a := spread (ampUnits v c x.eff) x.eff j r
        some { sink := i, code := a, width := w, delay := s.rd (tdlyF h (i / 16)),
               cur := min curDen ((1023 + 95 * y.ref rail) * y.scale * y.derate * (896 + s.trim h i) * a) }

def State.slotPulses (s : State) (h k r : Nat) (dead : List Nat) : List Pulse :=
  (List.range 512).filterMap (fun i => s.pulseOf h k r i dead)

/-- REF, the Traverse scale and d as sampled at the start of a row slot; the over-temperature blanking follows there (R215, R223). -/
def State.lampSample (s : State) (h : Nat) : State :=
  let x := s.lamp h
  s.setLamp h { x with refR := s.rd (R.LMP_REF_R h), refG := s.rd (R.LMP_REF_G h), refB := s.rd (R.LMP_REF_B h),
                       scale := s.rd (if h = 0 then R.TRV_OUT_L_W else R.TRV_OUT_L_E), derate := s.rd (R.LMP_DERATE_NOW_D h), hot := x.hotReq }

/-- Failed row-slot loads: counted, and three in a row on a die put the half in FAULT (R233). -/
def State.lampLoads (s : State) (h : Nat) (bad : List Nat) : State :=
  if !s.running .LMP h then s
  else
    let x := s.lamp h
    let f0 := if bad.contains 0 then x.fail0 + 1 else 0
    let f1 := if bad.contains 1 then x.fail1 + 1 else 0
    let s1 := (s.setLamp h { x with fail0 := f0, fail1 := f1 }).bump (R.LMP_EVT_LINK h) (b2n (bad.contains 0) + b2n (bad.contains 1))
    if 3 ≤ f0 ∨ 3 ≤ f1 then s1.setRun .LMP h runFault else s1

/-! ### Lamp diagnosis (R225 to R229) -/

def lsUnverified : Nat := 0
def lsGood : Nat := 1
def lsOpen : Nat := 2
def lsShort : Nat := 3

/-- The thresholds of a sink's die, in mV (LMP_THR0, LMP_THR1). -/
def State.openMv (s : State) (h die : Nat) : Nat := 10 * s.rd (if die = 0 then R.LMP_THR0_OPEN h else R.LMP_THR1_OPEN h)
def State.shortMv (s : State) (h die : Nat) : Nat := 10 * s.rd (if die = 0 then R.LMP_THR0_SHORT h else R.LMP_THR1_SHORT h)

/-- What the comparators of sink `i` read of its pin's voltage (R225). -/
def State.sampleCode (s : State) (h i mv : Nat) : Nat :=
  if mv < s.openMv h (i / 256) then lsOpen else if s.shortMv h (i / 256) < mv then lsShort else lsGood

def lampCntF (h st : Nat) : Fld :=
  match st with | 1 => R.LMP_CNT_B_GOOD h | 2 => R.LMP_CNT_A_OPEN h | 3 => R.LMP_CNT_A_SHORT h | _ => R.LMP_CNT_B_UNVERIFIED h

def State.lampRec (s : State) (h i r : Nat) : LampRec := Sparse.look (s.lamp h).lamps (r * 512 + i) LampRec.init

def State.setLampRec (s : State) (h i r : Nat) (x : LampRec) : State :=
  let y := s.lamp h
  s.setLamp h { y with lamps := Sparse.put y.lamps (r * 512 + i) x }

/-- A lamp's state changes, with the counts of R226. -/
def State.lampSet (s : State) (h i r st : Nat) : State :=
  let x := s.lampRec h i r
  if x.st = st then s
  else
    let s1 := s.setLampRec h i r { x with st := st }
    let s2 := s1.wr (lampCntF h x.st) (s1.rd (lampCntF h x.st) - 1)
    let s3 := s2.wr (lampCntF h st) (s2.rd (lampCntF h st) + 1)
    if st = lsOpen then s3.count (R.LMP_EVT_OPEN h) else if st = lsShort then s3.count (R.LMP_EVT_SHORT h) else s3


/-- A lamp has been measured in this frame. -/
def State.measured (s : State) (h i r : Nat) : Bool :=
  let x := s.lampRec h i r
  x.last.isSome && x.seen = (s.lamp h).frame

/-- Whole frames since the last measurement of a lamp (R226, R228). -/
def State.unseen (s : State) (h i r : Nat) : Nat := (s.lamp h).frame - (s.lampRec h i r).seen - 1

/-! ### Stuck rows (R232) -/

def State.rowRec (s : State) (h r : Nat) : RowRec := Sparse.look (s.lamp h).rows r RowRec.init

/-- LMP_ROW_STUCK shows the rows. -/
def State.showRows (s : State) (h : Nat) : State :=
  let m := (s.lamp h).rows.foldl (fun n e => if e.2.gateOn || e.2.openOn then n + 2 ^ e.1 else n) 0
  ((s.wr (R.LMP_ROW_STUCK_LO_ROWS h) m).wr (R.LMP_ROW_STUCK_HI_ROWS h) (m / 4294967296)).wrB (R.LMP_STATUS_ROW_STUCK h) (m ≠ 0)

def State.setRowRec (s : State) (h r : Nat) (x : RowRec) : State :=
  let y := s.lamp h
  (s.setLamp h { y with rows := Sparse.put y.rows r x }).showRows h

/-- A detection: counted and recorded (R232). 1 GATE, 2 OPEN_ROW, 3 LEAK. -/
def State.rowFound (s : State) (h row kind : Nat) : State :=
  ((s.count (R.LMP_EVT_ROW h)).wr (R.LMP_ROW_LAST_ROW h) row).wr (R.LMP_ROW_LAST_KIND h) kind

/-- The readback of row `r`'s pad finds a mismatch (R221): one in two frames in a row is a stuck row. -/
def State.rowGate (s : State) (h r : Nat) : State :=
  if !s.running .LMP h || !s.on (R.LMP_DIAG_CFG_ROW_EN h) then s
  else
    let x := s.rowRec h r
    let s1 := s.setRowRec h r { x with gateNow := true, gateOn := x.gateOn || x.gateWas }
    if x.gateWas && !x.gateOn then s1.rowFound h r 1 else s1

/-- Every lamp measured in a slot of the row read open, eight at least: so in two frames in a row, the row is stuck. -/
def State.rowOpen (s : State) (h r : Nat) : State :=
  let x := s.rowRec h r
  let s1 := s.setRowRec h r { x with openNow := true, openOn := x.openOn || x.openWas }
  if x.openWas && !x.openOn then s1.rowFound h r 2 else s1

/-- A measurement of a lamp: two in a row that agree change its state. The lamps of a stuck row are not made OPEN; while its row may turn out
stuck in this frame, a lamp waits for the frame's end (R226, R232). -/
def State.measure (s : State) (h i r code : Nat) : State :=
  let x := s.lampRec h i r
  let w := s.rowRec h r
  let twice := x.last = some code
  let held := code = lsOpen && (w.openOn || w.openWas)
  let s1 := s.setLampRec h i r { x with last := some code, seen := (s.lamp h).frame, pend := twice && held && !w.openOn }
  if twice && !held then s1.lampSet h i r code else s1

/-- The measurements of a slot: each lamp once a frame, in the first subframe whose pulse lasts 48 ns (R225); the slot's probes count with them
(R228). The lamps of a row with OPEN_ROW are not made OPEN (R232). -/
def State.measureSlot (s : State) (h r : Nat) (pins : List (Nat × Nat)) : State :=
  if !s.running .LMP h || !s.on (R.LMP_DIAG_CFG_DIAG_EN h) then s
  else
    let found := ((s.litPulses h).filter (fun p => decide (768 ≤ p.width) && !s.measured h p.sink r)).map
      (fun p => (p.sink, match Sparse.get pins p.sink with | none => lsGood | some mv => s.sampleCode h p.sink mv))
    let codes : List Nat := found.map (fun e => e.2) ++ (s.lamp h).probed
    let all := s.on (R.LMP_DIAG_CFG_ROW_EN h) && decide (8 ≤ codes.length) && codes.all (fun c => c = lsOpen)
    forL found (fun e a => a.measure h e.1 r e.2) (if all then s.rowOpen h r else s)

/-- The row slot in progress ends: its samples are judged, and the rails that conducted are known (R217, R225). They are judged at the end
of the slot, so that a probe in its dead window comes before them (R228; log entry 129). -/
def State.slotEnd (s : State) (h : Nat) : State :=
  let y := s.lamp h
  match y.row, y.obs with
  | some r, some pins =>
    let rails := ((y.pulses.filter (fun p => decide (768 ≤ p.width))).filterMap (fun p => s.railOf h r p.sink)).eraseDups
    let s1 := s.measureSlot h r pins
    s1.setLamp h { s1.lamp h with obs := none, lastRails := rails }
  | _, _ => s.setLamp h { y with obs := none, lastRails := [] }

/-- The lamps that read open twice while their row could still turn out stuck become OPEN at the end of a frame in which it has not (R226, R232). -/
def State.lampsHeld (s : State) (h : Nat) : State :=
  forL ((s.lamp h).lamps.filter (fun e => e.2.pend)) (fun e a =>
    let b := a.setLampRec h (e.1 % 512) (e.1 / 512) { a.lampRec h (e.1 % 512) (e.1 / 512) with pend := false }
    if (b.rowRec h (e.1 / 512)).openOn then b else b.lampSet h (e.1 % 512) (e.1 / 512) lsOpen) s

/-- A row's records at the end of a frame: its bit clears after two consecutive frames without its condition (R232); `framed`: the epoch before had a frame. -/
def RowRec.frameEnd (x : RowRec) (framed : Bool) : RowRec :=
  { gateNow := false, gateWas := x.gateNow, gateOn := x.gateOn && (x.gateNow || x.gateWas || !framed),
    openNow := false, openWas := x.openNow, openOn := x.openOn && (x.openNow || x.openWas || !framed) }

/-- A lamp has been measured in a frame. -/
def LampHalf.measuredIn (y : LampHalf) (frame : Nat) : Bool := y.lamps.any (fun e => e.2.last.isSome && e.2.seen = frame)

/-- The end of an epoch for diagnosis: the rows' records, the frame number, and the gap's pair tests (R226, R230, R232). A frame in which a lamp was measured
has a number of its own, though the half has stopped since (R225). An epoch in which the half emits no
frame breaks every run of consecutive frames; a frame in which a test does not run is one without its condition. DESIGN CHOICE, log entry 179. -/
def State.lampLatch (s : State) (h : Nat) : State :=
  let t := (s.slotEnd h).lampsHeld h
  let g := if t.running .LMP h && t.on (R.LMP_DIAG_CFG_NB_EN h) then ((t.lamp h).pairGrp + 1) % 16 else (t.lamp h).pairGrp
  let s0 := t.setLamp h { t.lamp h with row := none, pulses := [], pairGrp := g, pair0 := 16 * g, pair1 := 16 * g, probed := [],
                                        leakWas := (t.lamp h).leakWas && (t.lamp h).leakDone, leakDone := false }
  let y := s0.lamp h
  let frame := y.frame + b2n (s0.running .LMP h && s0.scnLive h && s0.on (R.LMP_DIAG_CFG_DIAG_EN h) || y.measuredIn y.frame)
  if !s0.running .LMP h || !s0.scnLive h || !(s0.scan h).ok then
    s0.setLamp h { y with rows := y.rows.map (fun e => (e.1, { e.2 with gateWas := false, openWas := false, gateNow := false, openNow := false })),
                          framed := false, frame := frame }
  else
    (s0.setLamp h { y with rows := y.rows.map (fun e => (e.1, e.2.frameEnd y.framed)), framed := true, frame := frame }).showRows h

/-- A GOOD lamp without a measurement for 256 frames becomes UNVERIFIED (R226). -/
def State.ageOut (s : State) (h i r : Nat) : State :=
  if s.running .LMP h && s.on (R.LMP_DIAG_CFG_DIAG_EN h) && (s.lampRec h i r).st = lsGood && decide (256 ≤ s.unseen h i r) then
    s.lampSet h i r lsUnverified
  else s

/-- DEAD_EFF (R220). -/
def State.deadEff (s : State) (h : Nat) : Nat := min (s.rd (R.LMP_DEAD_NS h)) (s.deadWindow h - 16)

/-- The dead window holds a probe (R229). -/
def State.probeRoom (s : State) (h : Nat) : Bool := decide (s.deadEff h + 56 ≤ s.deadWindow h)

/-- A lamp due for a probe (R228). -/
def State.probeDue (s : State) (h i r : Nat) : Bool :=
  entComp (s.lampEnt h r i) ≠ 7 && !s.forcedOff h i && decide (256 ≤ s.unseen h i r)

/-- The row a sink's next probe goes to: its first due row after the last one probed, wrapping after row 63 (R228). -/
def State.probeRow (s : State) (h i : Nat) : Option Nat :=
  let y := s.lamp h
  let from_ := match Sparse.get y.probes i with | none => 0 | some p => p.2 + 1
  ((List.range 64).map (fun n => (from_ + n) % 64)).find? (fun r => decide (r < (s.scan h).rows) && s.probeDue h i r)

/-- A probe pulse in the row slot of subframe 0 (R228, R229): not in an underrun slot, nor on a die whose load failed (R233, R234). -/
def State.probe (s : State) (h i r mv : Nat) : State :=
  let x := s.scan h
  let y := s.lamp h
  let fresh := match Sparse.get y.probes i with | none => true | some p => decide (1024 ≤ y.frame - p.1)
  if s.on (R.LMP_CTRL_PROBE_EN h) && s.on (R.LMP_DIAG_CFG_DIAG_EN h) && s.lmpBlk h = 0 && decide (1 ≤ x.next ∧ x.next ≤ x.rows) && !x.gap &&
      y.row = some r && !y.dark && !y.dead.contains (i / 256) && decide (i < 512) && s.probeRoom h && fresh && s.probeRow h i = some r then
    ((s.setLamp h { y with probes := Sparse.put y.probes i (y.frame, r), probed := s.sampleCode h i mv :: y.probed }).count (R.LMP_EVT_PROBE h)).measure
      h i r (s.sampleCode h i mv)
  else s

/-! ### Neighbour pins and leaks (R230 to R232) -/

def State.setForced (s : State) (h i : Nat) (b : Bool) : State :=
  s.wr (R.LMP_FORCED_SINKS h (i / 32)) (withBit (s.rd (R.LMP_FORCED_SINKS h (i / 32))) (i % 32) b)

def State.nbShort (s : State) (h i : Nat) : Bool := bitOf (s.rd (R.LMP_NBSHORT_SINKS h (i / 32))) (i % 32)

def State.setNb (s : State) (h i : Nat) (b : Bool) : State :=
  s.wr (R.LMP_NBSHORT_SINKS h (i / 32)) (withBit (s.rd (R.LMP_NBSHORT_SINKS h (i / 32))) (i % 32) b)

/-- A sink belongs to a pair that is shorted. -/
def State.inShort (s : State) (h i : Nat) : Bool := (s.lamp h).pairs.any (fun e => e.2.1 && (e.1 = i || e.1 + 1 = i))

def State.showNb (s : State) (h : Nat) : State := s.wrB (R.LMP_STATUS_SHORT_NB h) ((s.lamp h).pairs.any (fun e => e.2.1))

/-- The pair test of a die that comes next in this gap: 16 pairs in ascending order, the last group 15 (R230). -/
def State.pairDue (s : State) (h p : Nat) : Bool :=
  let y := s.lamp h
  let q := if p / 256 = 0 then y.pair0 else y.pair1
  decide (p < 512) && p % 256 = q && decide (q < 16 * y.pairGrp + 16 ∧ q < 255)

/-- The leak test of the frame gap, once in each (R232): `mv0` and `mv1` are the highest pin voltages of the half's dies. LEAK clears
after two clean tests, not necessarily of consecutive frames: R232 states clearing for the row bits only. DESIGN CHOICE, log entry 173. -/
def State.leakTest (s : State) (h mv0 mv1 : Nat) : State :=
  if !s.running .LMP h || !s.on (R.LMP_DIAG_CFG_ROW_EN h) || !(s.scan h).gap || (s.lamp h).leakDone then s
  else
    let y := { s.lamp h with leakDone := true }
    if decide (s.openMv h 0 < mv0) || decide (s.openMv h 1 < mv1) then
      let s1 := s.setLamp h { y with leakWas := true, leakClean := 0 }
      if y.leakWas && !s.on (R.LMP_STATUS_LEAK h) then (s1.wr (R.LMP_STATUS_LEAK h) 1).rowFound h 63 3 else s1
    else
      let s1 := s.setLamp h { y with leakWas := false, leakClean := y.leakClean + 1 }
      if 1 ≤ y.leakClean then s1.wr (R.LMP_STATUS_LEAK h) 0 else s1

/-! ### Row sums as published (R205, R207) and the row slot -/

/-- Where the row-load view of a rail lies (R254); rails 0 to 2 west, 3 to 5 east. -/
def rowLoadAt (rail : Nat) : Nat := 1215488 + 16 * rail

/-- Publish an entry for the three rails of a half. -/
def State.publish (s : State) (h slot row : Nat) (gap : Bool) (sum : Nat → Nat) : State :=
  forN 3 (fun c a =>
    (a.wr32 .window (rowLoadAt (3 * h + c) + 8) (sum c % 33554432 + 33554432 * b2n gap)).wr32 .window (rowLoadAt (3 * h + c) + 12)
      (slot % 1024 + 65536 * (row % 64))) s

/-- The DRAM row of a slot misses its publication: not complete, or answered with an error (R207, R375). -/
def State.rowMissed (s : State) (h k : Nat) : Bool :=
  s.on (R.SCN_FB_CUR_SRC h) &&
    (match (s.scan h).fetch.find? (fun f => f.slot = k) with
     | none => true
     | some f => f.bad || s.rowWaits h k)

/-- Publish the sums of slot `k` on row `r`; `blank`: the slot emits no light. -/
def State.publishSlot (s : State) (h k r : Nat) (blank : Bool) : State :=
  let miss := s.rowMissed h k
  let s1 := if miss then s.count (R.SCN_EVT_UNDERRUN h) else s
  let s2 := s1.setScan h { s1.scan h with late := miss }
  s2.publish h k r false (fun c => if blank || miss then 0 else s.rowSum h k r c)

/-- The GAP entry; the spec states no slot and no row for it. -/
def State.publishGap (s : State) (h : Nat) : State :=
  let v := s.freeVal
  s.useFree.publish h (v % 1024) (v / 1024 % 64) true (fun _ => 0)

/-- ROW_SLOT (R192 to R233): the next row slot of the frame begins. -/
def State.rowSlot (s : State) (h : Nat) (obs : RowObs) : State :=
  if !s.inFrame h then s
  else
    let x := s.scan h
    let k := x.next
    let r := x.rowOf k
    let s0 := (s.slotEnd h).reachSlot h k
    let s1 := s0.setScan h { s0.scan h with next := k + 1, late := false }
    let s2 := (s1.lampSample h).lampLoads h obs.loadFail
    let lit := s2.lmpBlk h = 0
    let s3 := s2.setLamp h { s2.lamp h with
      row := if lit then some r else none
      pulses := if lit && !x.late then s2.slotPulses h k r obs.loadFail else []
      dark := x.late
      probed := []
      dead := obs.loadFail
      obs := some obs.pins }
    let s4 := forL obs.badPads (fun p a => a.rowGate h p) s3
    let s5 := if k + 1 < x.slots then s4.publishSlot h (k + 1) (x.rowOf (k + 1)) (s4.lmpBlk h ≠ 0) else s4.publishGap h
    if k + 2 < x.slots then s5.fetchRow h (k + 2) (x.rowOf (k + 2)) else s5

/-- The sums of slot 0 of the next frame, where they are not yet published (R194, R205). A half whose frame is dark publishes those of a
blanked slot. -/
def State.publishFirst (s : State) (h : Nat) : State :=
  let x := s.scan h
  if s.scnLive h && x.gap && x.first.isNone then
    let blank := s.lmpBlkPre h ≠ 0 || (s.run .SCN h = runRunning && !x.ok)
    let t := s.publishSlot h 0 0 blank
    t.setScan h { t.scan h with first := some blank }
  else s

/-- A change of the forced state in a gap: whether the sums of slot 0 were formed before it, at T(E+1)-T, no command tells, so that is a free
choice (R205, R231). -/
def State.gapPublish (s : State) (h : Nat) : State :=
  if s.scnLive h && (s.scan h).gap && (s.scan h).first.isNone then (if s.freeVal % 2 = 0 then s else s.publishFirst h).useFree else s

/-- A pair test in the frame gap (R230, R231): `p` is the lower sink, both of one die, and `mv` the voltage of the pin above it; the pair is
shorted where it reads below OPEN. -/
def State.pairTest (s : State) (h p mv : Nat) : State :=
  if !s.running .LMP h || !s.on (R.LMP_DIAG_CFG_NB_EN h) || !(s.scan h).gap || !s.pairDue h p then s
  else
    let shorted := decide (mv < s.openMv h (p / 256))
    let y0 := s.lamp h
    let y := if p / 256 = 0 then { y0 with pair0 := y0.pair0 + 1 } else { y0 with pair1 := y0.pair1 + 1 }
    let x := Sparse.look y.pairs p (false, none)
    let again := x.2 = some shorted
    let now := if again then shorted else x.1
    let s1 := s.setLamp h { y with pairs := Sparse.put y.pairs p (now, some shorted) }
    if now = x.1 then s1
    else if now then
      let s2 := ((((s1.gapPublish h).setNb h p true).setNb h (p + 1) true).setForced h p true).setForced h (p + 1) true
      (((s2.count (R.LMP_EVT_NB h)).wr (R.LMP_NB_LAST_SINK h) p).wr (R.LMP_NB_LAST_VALID h) 1).showNb h
    else
      let free (a : State) (i : Nat) : State :=
        if s1.inShort h i then a
        else (let b := a.setNb h i false; if s.on (R.LMP_CTRL_AUTO_RESTORE h) then b.setForced h i false else b)
      let s2 := (free (free (if s.on (R.LMP_CTRL_AUTO_RESTORE h) then s1.gapPublish h else s1) p) (p + 1)).showNb h
      if s.on (R.LMP_CTRL_AUTO_RESTORE h) then s2.count (R.LMP_EVT_RESTORE h) else s2

/-- LMP_RESTORE: forced-off sinks that show no LMP_NBSHORT bit return to service (R231). -/
def State.nbRestore (s : State) (h dword mask : Nat) : State :=
  forN 32 (fun b a => if bitOf mask b && !a.nbShort h (32 * dword + b) then a.setForced h (32 * dword + b) false else a) (if mask = 0 then s else s.gapPublish h)

/-- The entry last published comes into force (R254). -/
def State.entryInForce (s : State) (rail : Nat) : State :=
  (s.wr32 .window (rowLoadAt rail) (s.rd32 .window (rowLoadAt rail + 8))).wr32 .window (rowLoadAt rail + 4) (s.rd32 .window (rowLoadAt rail + 12))

/-- A half's frame begins: the row of slot 1 is fetched, and the sums of slot 0 are those of the frame as it turned out; where the half has
stopped since they were published, the entries hold zero sums (R205, R207, R259). -/
def State.frameBegin (s : State) (h : Nat) (was : Option Bool) : State :=
  if s.scnLive h then
    let at1 := s.fbAt h ((s.scan h).rowOf 1)
    let s1 := if 1 < (s.scan h).slots && !(s.scan h).fetch.any (fun f => f.slot = 1 && f.at_ = at1) then s.fetchRow h 1 ((s.scan h).rowOf 1) else s
    let blank := s1.lmpBlk h ≠ 0
    match was with
    | none => s1.publishSlot h 0 0 blank
    | some b =>
      if b = blank then s1
      else forN 3 (fun c a => if (s.rd32 .window (rowLoadAt (3 * h + c)) = s.rd32 .window (rowLoadAt (3 * h + c) + 8)) then a.entryInForce (3 * h + c) else a)
        (s1.publish h 0 0 false (fun c => if blank || (s1.scan h).late then 0 else s1.rowSum h 0 0 c))
  else if was.isSome then forN 3 (fun c a => a.entryInForce (3 * h + c)) (s.publishGap h)
  else s

/-- Scan-out of both halves at the epoch boundary (R196, R202, R205, R209 to R211). -/
def State.scanStart (s : State) : State :=
  let s1 := (s.publishFirst 0).publishFirst 1
  (s1.scanBoundary.frameBegin 0 (s1.scan 0).first).frameBegin 1 (s1.scan 1).first

/-! ### Derating (R222) -/

/-- The target factor (R222). -/
def derateTarget (t : Int) (knee floor : Nat) : Int :=
  if t ≤ 4 * knee then 1024
  else if 500 ≤ t then floor
  else 1024 - ((1024 - floor) * (t - 4 * knee)) / (4 * (125 - knee))

/-- DERATE_UPDATE: one factor for both halves. Where the halves' KNEE or FLOOR differ the spec states none of the two: a free choice;
a T below 0 has no place in TMAX: a free value. While no sink-die sensor is valid and no die counts as 130 °C the rule gives no T, and d, TMAX and DERATING stay
as they are. DESIGN CHOICE, log entry 172. -/
def State.derate (s : State) : State :=
  match s.build, s.sinkHottest with
  | .head, _ => s
  | .tile, none => s
  | .tile, some t =>
    let v := s.freeVal
    let g := v % 2
    let dt := derateTarget t (s.rd (R.LMP_DERATE_KNEE g)) (s.rd (R.LMP_DERATE_FLOOR g))
    let d : Int := (s.rd (R.LMP_DERATE_NOW_D 0) : Nat)
    let d1 := d + clampI (-4) 4 (dt - d)
    let tm := if t < 0 then v / 2 % 1024 else t.toNat
    forN 2 (fun h a => ((a.wr (R.LMP_DERATE_NOW_D h) d1.toNat).wr (R.LMP_DERATE_NOW_TMAX h) tm).wrB (R.LMP_STATUS_DERATING h) (decide (d1 < 1024))) s.useFree

/-! ### Enable (R233) -/

def State.lmpEnable (s : State) (h : Nat) : State :=
  (s.setLamp h { s.lamp h with fail0 := 0, fail1 := 0, row := none, pulses := [] }).setRun .LMP h runStarting

/-- The two sink dies have answered the enable check, or have not. -/
def State.diesChecked (s : State) (h : Nat) (a0 a1 : Bool) : State :=
  if s.run .LMP h ≠ runStarting then s
  else if a0 && a1 then s.askPass .LMP h
  else s.askFail .LMP h 16

def State.lmpDisable (s : State) (h : Nat) : State := (s.setRun .LMP h runDisabled).setLamp h { s.lamp h with row := none, pulses := [] }

/-- i_eff × 1.124, the factor of the largest trim, exceeds 24.0 mA on a rail, with the values held for the slot (R215). DEDUCED: 1.124 is
(896 + 255) / 1,024. -/
def State.lmpClamp (s : State) (h : Nat) : Bool :=
  let y := s.lamp h
  [y.refR, y.refG, y.refB].any (fun f => decide (98208 * 65535 * 1024 * 1024 < (1023 + 95 * f) * y.scale * y.derate * 1151))

end Sys2Proof.Machine
end

