-- ==== Sys2Proof/Machine/LoopOps.lean ====
section
/-! DEFINITION. The loop engine and the choppers (09_loop_engine.md R235 to R259): arithmetic, sources, instruction fetch, the enable
check, dispatch, set-points, hand-over, feed-forward, and the chopper cycle. `n` is a slot, `r` a rail. -/

namespace Sys2Proof.Machine

/-! ### Arithmetic (R237) -/

def widen (q : Int) : Int := q * 65536
def rndMul (x k : Int) (sh : Nat) : Int := (x * k * ((2 ^ sh : Nat) : Int) + 16384) / 32768
def q15 (x : Int) : Int := clampI (-32768) 32767 ((x + 32768) / 65536)
def sat40 (x : Int) : Int := clampI (-549755813888) 549755813887 x

/-! ### Registers -/

def State.vreg (s : State) (n v l : Nat) : Int := Sparse.look s.eng.loop.regs (n * 64 + v * 4 + l) 0

/-- The write-back of a lane; one that saturates sets the run's mark (R237). -/
def State.setVreg (s : State) (n v l : Nat) (x : Int) : State :=
  let e := s.eng.loop
  let y := sat40 x
  let run := if y = x then e.run else e.run.map (fun (r : LoopRun) => { r with mark := true })
  s.setLoop { e with regs := Sparse.put e.regs (n * 64 + v * 4 + l) y, run := run }

/-- An exchange word (R242). -/
def xchgF (j : Nat) : Fld := if j % 2 = 0 then R.LOP_XCHG_X0 (j / 2) else R.LOP_XCHG_X1 (j / 2)

/-! ### Instructions (R238, R239) -/

/-- The instruction word at a program address. -/
def State.loopWord (s : State) (a : Nat) : Nat := s.rdLE .window (1048576 + 16 * a) 16

def lwOp (w : Nat) : Nat := bitsOf w 124 4
def lwD (w : Nat) : Nat := bitsOf w 120 4
def lwA (w : Nat) : Nat := bitsOf w 116 4
def lwB (w : Nat) : Nat := bitsOf w 112 4
def lwMask (w : Nat) : Nat := bitsOf w 108 4
def lwSh (w : Nat) : Nat := bitsOf w 106 2
def lwPs (w : Nat) : Nat := bitsOf w 105 1
def lwNd (w : Nat) : Bool := bitOf w 104
def lwByte (w l : Nat) : Nat := bitsOf w (64 + 8 * l) 8
def lwTab (w : Nat) : Nat := bitsOf w 64 12
def lwK (w l : Nat) : Int := sgn 16 (bitsOf w (16 * l) 16)

def opLd : Nat := 1
def opSt : Nat := 2
def opMac : Nat := 3
def opMsub : Nat := 4
def opSat : Nat := 5
def opLim : Nat := 6
def opSelmin : Nat := 7
def opTrk : Nat := 8
def opTab : Nat := 9
def opFf : Nat := 10
def opOut : Nat := 11
def opWait : Nat := 12
def opHalt : Nat := 13

/-- The bits an opcode names (R238, R239). OUT ignores MASK, which it may hold. -/
def lwNamed (op : Nat) : Nat :=
  let d := 15 * 2 ^ 120
  let a := 15 * 2 ^ 116
  let b := 15 * 2 ^ 112
  let m := 15 * 2 ^ 108
  let sh := 3 * 2 ^ 106
  let k := 2 ^ 64 - 1
  let o := 4294967295 * 2 ^ 64
  15 * 2 ^ 124 + (match op with
    | 1 => d + m + o
    | 2 => a + m + o
    | 3 | 4 | 8 => d + a + b + m + sh + k
    | 5 | 7 => d + a + m
    | 6 => d + a + b + m + k
    | 9 => d + a + m + 4095 * 2 ^ 64
    | 10 => d + b + m + sh + 3 * 2 ^ 104 + k
    | 11 => a + m
    | _ => 0)

/-- A source LD may name (R241). -/
def srcOk (b : Nat) : Bool :=
  b = 0 || decide ((1 ≤ b ∧ b ≤ 6) ∨ (8 ≤ b ∧ b ≤ 13) ∨ (16 ≤ b ∧ b ≤ 21) ∨ (24 ≤ b ∧ b ≤ 29) ∨ (32 ≤ b ∧ b ≤ 43) ∨ (48 ≤ b ∧ b ≤ 51) ∨ (64 ≤ b ∧ b ≤ 95))

/-- An LD of a VRAIL or IRAIL source. -/
def lwSenses (w : Nat) : Bool :=
  lwOp w = opLd && (List.range 4).any (fun l => bitOf (lwMask w) l && decide ((1 ≤ lwByte w l ∧ lwByte w l ≤ 6) ∨ (16 ≤ lwByte w l ∧ lwByte w l ≤ 21)))

/-- What makes one instruction of a run fail the check PROGRAM (R245); `none_`: the slot's rail is none. The OPND byte of a lane outside MASK names no source
and no exchange word, here and for the check LATENCY. DESIGN CHOICE, log entry 175. -/
def lwBad (w : Nat) (none_ : Bool) : Bool :=
  let op := lwOp w
  op = 0 || decide (14 ≤ op) || Nat.land w (lwNamed op) ≠ w ||
    (op = opSelmin && lwMask w = 0) ||
    (op = opLd && (List.range 4).any (fun l => bitOf (lwMask w) l && !srcOk (lwByte w l))) ||
    (op = opSt && (List.range 4).any (fun l => bitOf (lwMask w) l && !decide (64 ≤ lwByte w l ∧ lwByte w l ≤ 95))) ||
    (none_ && (op = opFf || op = opOut)) ||
    (op = opTab && decide (4095 < lwTab w + 4))

def isEnd (w : Nat) : Bool := lwOp w = opWait || lwOp w = opHalt

/-! ### The enable check (R245) -/

def State.slotOn (s : State) (n : Nat) : Bool := s.on (R.LOP_SLOT_CFG_EN n)
def State.slotRail (s : State) (n : Nat) : Nat := s.rd (R.LOP_SLOT_CFG_RAIL n)
def State.slotEntry (s : State) (n : Nat) : Nat := s.rd (R.LOP_SLOT_CFG_ENTRY n)

/-- The rail of a slot, none where it is none of the six. -/
def State.railOfSlot (s : State) (n : Nat) : Option Nat := if s.slotRail n < 6 then some (s.slotRail n) else none

/-- The enabled slots, in order. -/
def State.slotsOn (s : State) : List Nat := (List.range 24).filter s.slotOn

/-- A run from an address with `fuel` instructions left: its instructions, or the address that fails. A run that does not end fails at
the last address it may reach. DEDUCED, log entry 60. -/
def State.walk (s : State) (none_ : Bool) : Nat → Nat → Bool → Except Nat (List Nat)
  | 0, a, _ => .error (a - 1)
  | fuel + 1, a, out =>
    if 4095 < a then .error 4095
    else
      let w := s.loopWord a
      if lwBad w none_ || (out && lwOp w = opOut) then .error a
      else if isEnd w then .ok [w]
      else match s.walk none_ fuel (a + 1) (out || lwOp w = opOut) with
        | .ok l => .ok (w :: l)
        | .error e => .error e

def State.slotRun (s : State) (n : Nat) : Except Nat (List Nat) := s.walk (s.railOfSlot n).isNone 64 (s.slotEntry n) false

/-- The places of the first LD of a VRAIL or IRAIL source and of the OUT after it. -/
def runOut (l : List Nat) : Option Nat := l.findIdx? (fun w => lwOp w = opOut)
def runSense (l : List Nat) : Option Nat := l.findIdx? lwSenses

/-- A term of the budget: L / PERIOD, rounded up, in units of 1/65,536. -/
def budgetTerm (len period : Nat) : Nat := (len * 65536 + period - 1) / period

/-- A failed check: reason, slot, address. -/
structure LopFail where
  reason : Nat
  slot : Nat
  addr : Nat
  deriving DecidableEq, Repr

def State.slotFail (s : State) (reason n : Nat) : LopFail := ⟨reason, n, s.slotEntry n⟩

def railBad (r : Nat) : Bool := r = 6 || decide (7 < r)

def State.checkRange (s : State) : Option LopFail :=
  ((List.range 24).find? (fun n => railBad (s.slotRail n) || decide (s.rd (R.LOP_SLOT_TIME_PERIOD n) < 125 ∨ 1000 < s.rd (R.LOP_SLOT_TIME_PERIOD n)))).map (s.slotFail 6)

def State.checkTiming (s : State) : Option LopFail :=
  (s.slotsOn.find? (fun n => decide (s.rd (R.LOP_SLOT_TIME_PERIOD n) ≤ s.rd (R.LOP_SLOT_TIME_PHASE n)))).map (s.slotFail 21)

def State.checkProgram (s : State) : Option LopFail :=
  s.slotsOn.findSome? (fun n => match s.slotRun n with | .error a => some ⟨16, n, a⟩ | .ok _ => none)

def State.runWords (s : State) (n : Nat) : List Nat := match s.slotRun n with | .ok l => l | .error _ => []

def State.checkLatency (s : State) : Option LopFail :=
  s.slotsOn.findSome? (fun n =>
    let l := s.runWords n
    match runSense l, runOut l with
    | some i, some j => if i + 49 < j then some ⟨17, n, s.slotEntry n + j⟩ else none
    | _, _ => none)

/-- LOP_UTIL (R245). -/
def State.loopUtil (s : State) : Nat :=
  s.slotsOn.foldl (fun m n => m + budgetTerm (s.runWords n).length (s.rd (R.LOP_SLOT_TIME_PERIOD n))) 0

def State.checkBudget (s : State) : Option LopFail :=
  if 65536 < s.loopUtil then s.slotsOn.getLast?.map (s.slotFail 18) else none

def State.checkRail (s : State) : Option LopFail :=
  match s.build with
  | .head => ((List.range 24).find? (fun n => s.slotRail n < 6)).map (s.slotFail 19)
  | .tile => (s.slotsOn.find? (fun n => s.slotRail n < 6 && s.slotsOn.any (fun m => m < n && s.slotRail m = s.slotRail n))).map (s.slotFail 19)

/-- The position table's place of an entry (R255). -/
def posAt (r i : Nat) : Nat := 1212416 + 512 * r + 4 * i

/-- The address recorded is the entry's offset in the table region. DEDUCED, log entry 60. -/
def State.checkTable (s : State) : Option LopFail :=
  if !s.isTile then none
  else ((List.range 768).find? (fun i => s.rdLE .window (1212416 + 4 * i + 2) 2 ≠ 0)).map (fun i => ⟨20, 0, 4 * i⟩)

/-- The checks of R245 in their order; the first that fails. -/
def State.lopCheck (s : State) : Option LopFail :=
  match s.checkRange with
  | some f => some f
  | none => match s.checkTiming with
    | some f => some f
    | none => match s.checkProgram with
      | some f => some f
      | none => match s.checkLatency with
        | some f => some f
        | none => match s.checkBudget with
          | some f => some f
          | none => match s.checkRail with
            | some f => some f
            | none => s.checkTable

/-! ### Rails (R249, R258) -/

/-- LOP_RAILr_STATE.STATE codes. -/
def lrOff : Nat := 0
def lrRun : Nat := 1
def lrHandover : Nat := 2
def lrIdle : Nat := 3
def lrHalted : Nat := 4
def lrOv : Nat := 5

def State.lopRuns (s : State) : Bool := s.running .LOP 0 && !s.parked 9

def State.halted (s : State) (n : Nat) : Bool := bitOf (s.rd R.LOP_SLOT_HALT_SLOTS) n

/-- A halted slot drives the rail. -/
def State.railHalted (s : State) (r : Nat) : Bool := s.slotsOn.any (fun n => s.slotRail n = r && s.halted n)

def State.railSp (s : State) (r : Nat) : Int := s.rdI (R.LOP_RAIL_SP_X r)
def State.band (s : State) (r : Nat) : Int := (s.rd (R.LOP_CH_CFG_BAND r) : Nat)

/-- SP is below BAND / 2 (R258). -/
def State.spIdle (s : State) (r : Nat) : Bool := decide (2 * s.railSp r < s.band r)

/-- The chopper may switch. -/
def State.mayChop (s : State) (r : Nat) : Bool := s.lopRuns && !s.railHalted r && !(s.chop r).ov && !s.spIdle r

/-- The state a rail shows: HALTED and OV before HANDOVER, HANDOVER before IDLE. DEDUCED from R251 and R258, log entry 61. -/
def State.railShow (s : State) (r : Nat) : State :=
  s.wr (R.LOP_RAIL_STATE_STATE r)
    (if !s.lopRuns then lrOff
     else if s.railHalted r then lrHalted
     else if (s.chop r).ov then lrOv
     else if s.eng.loop.handover.contains r then lrHandover
     else if s.spIdle r then lrIdle
     else lrRun)

/-- A phase of a chopper begins: both gates low for DT, then the phase's gate high (R256). -/
def State.gatesTo (s : State) (r p : Nat) : State := s.emit (.gates r p (s.rd (R.LOP_CH_CFG_DT r)))

/-- A rail's chopper after its set-point or its conditions changed: both gates go low where it may not switch (at IDLE after the
off-phase in progress), and a cycle begins where it stood still (R258). LOP_CHr_PERIOD reads 0 while both gates stay low. -/
def State.chopSync (s : State) (r : Nat) : State :=
  let c := s.chop r
  let fresh : Chop := { c with phase := 1, sp0 := s.railSp r, moved := false, cut := false, shaped := false }
  let s1 := if !s.lopRuns || s.railHalted r || c.ov then (if c.phase = 0 then s else (s.setChop r { c with phase := 0 }).gatesTo r 0)
    else if s.spIdle r then s
    else if c.phase = 0 then (s.setChop r fresh).gatesTo r 1
    else s
  (if (s1.chop r).phase = 0 then s1.wr (R.LOP_CH_PERIOD_NS r) 0 else s1).railShow r

/-- A new set-point (R250, R256, R257). -/
def State.sendSp (s : State) (r : Nat) (u x : Int) : State :=
  let s1 := (s.wrI (R.LOP_RAIL_SP_U r) u).wrI (R.LOP_RAIL_SP_X r) x
  let c := s1.chop r
  (s1.setChop r { c with moved := c.moved || decide (s1.band r < (x - c.sp0).natAbs) }).chopSync r

/-- The mode and the sense choice of a rail (R249). -/
def State.railMode (s : State) (r : Nat) : Nat := b2n (bitOf (s.rd R.LOP_CTRL_MODE) r)
def State.railSense (s : State) (r : Nat) : Nat := s.rd (if r < 3 then R.LOP_CTRL_SENSE_W else R.LOP_CTRL_SENSE_E)

/-! ### The end of the enable check, disable, restart (R245, R247, R248) -/

/-- LOP_SLOTn_INFO and LOP_UTIL as the check found them; the latency bound of a run with an OUT and no LD of a rail sense is not
stated: a free value. -/
def State.lopInfo (s : State) : State :=
  let s1 := s.wr R.LOP_UTIL_SUM s.loopUtil
  forL s.slotsOn (fun n a =>
    let l := s.runWords n
    let b := a.wr (R.LOP_SLOT_INFO_LEN n) l.length
    match runSense l, runOut l with
    | _, none => b.wr (R.LOP_SLOT_INFO_LAT n) 0
    | some i, some j => if i ≤ j then b.wr (R.LOP_SLOT_INFO_LAT n) (13 + (j - i)) else (b.wr (R.LOP_SLOT_INFO_LAT n) (b.freeVal % 128)).useFree
    | none, some _ => (b.wr (R.LOP_SLOT_INFO_LAT n) (b.freeVal % 128)).useFree) s1

/-- The engine starts: its counter and the registers and exchange words 0, rails in the modes CTRL shows (R243, R245, R257). No slot is halted, and set-points and OV
states begin anew: R245 and R247 leave open what a slot halted before shows. DESIGN CHOICE, log entry 176. -/
def State.lopStart (s : State) : State :=
  let s1 := s.setLoop { s.eng.loop with c := 0, dueAt := [], skipAt := [], regs := [], due := [], run := none, fresh := List.range 24, handover := [], chops := [] }
  let s2 := forN 32 (fun j a => a.wr (xchgF j) 0) (s1.wr R.LOP_SLOT_HALT_SLOTS 0)
  let s3 := forN 24 (fun n a => a.wr (R.LOP_SLOT_JIT_MAX n) 0) (s2.askPass .LOP 0)
  if s3.isTile then
    forN 6 (fun r a =>
      let b := ((a.wr (R.LOP_RAIL_STATE_MODE_USED r) (a.railMode r)).wr (R.LOP_RAIL_STATE_SENSE_USED r) (a.railSense r)).wr (R.LOP_CH_OFS_OFS r) 0
      (b.sendSp r 0 0)) s3
  else s3

/-- LOP_CHECK_DONE (R245). LOP_UTIL and the run lengths are those of the last check that had runs to measure: one that fails at BUDGET or
later. -/
def State.lopChecked (s : State) : State :=
  if s.run .LOP 0 ≠ runStarting then s
  else match s.lopCheck with
    | some f =>
      let s0 := if decide (18 ≤ f.reason ∧ f.reason ≤ 20) then s.lopInfo else s
      let s1 := ((s0.wr R.LOP_CHECK_REASON f.reason).wr R.LOP_CHECK_SLOT f.slot).wr R.LOP_CHECK_ADDR f.addr
      s1.askFail .LOP 0 f.reason
    | none => s.lopInfo.lopStart

/-- LOP is disabled: the run stops, the gates go low (R248). -/
def State.lopDisable (s : State) : State :=
  let s1 := (s.setLoop { s.eng.loop with due := [], run := none }).setRun .LOP 0 runDisabled
  if s1.isTile then forN 6 (fun r a => a.chopSync r) s1 else s1

/-- Clear a slot's registers. -/
def State.clearSlot (s : State) (n : Nat) : State :=
  s.setLoop { s.eng.loop with regs := s.eng.loop.regs.filter (fun e => e.1 / 64 ≠ n), fresh := if s.eng.loop.fresh.contains n then s.eng.loop.fresh else n :: s.eng.loop.fresh }

/-- LOP_RESTART (R247). -/
def State.lopRestart (s : State) (mask : Nat) : State :=
  forN 24 (fun n a =>
    if bitOf mask n && a.halted n then
      let b := (a.clearSlot n).wr R.LOP_SLOT_HALT_SLOTS (withBit (a.rd R.LOP_SLOT_HALT_SLOTS) n false)
      match b.railOfSlot n with
      | some r => b.chopSync r
      | none => b
    else a) s

/-! ### Dispatch (R243, R244, R251) -/

/-- The counter stands at a due instant of a slot that has not yet become due at it (R243). -/
def State.slotAt (s : State) (n : Nat) : Bool :=
  decide (s.eng.loop.c % s.rd (R.LOP_SLOT_TIME_PERIOD n) = s.rd (R.LOP_SLOT_TIME_PHASE n)) &&
    Sparse.get s.eng.loop.dueAt n ≠ some s.eng.loop.c && Sparse.get s.eng.loop.skipAt n ≠ some s.eng.loop.c

/-- A slot waits for its run or runs. -/
def State.slotBusy (s : State) (n : Nat) : Bool := s.eng.loop.due.contains n || (s.eng.loop.run.map (fun (r : LoopRun) => r.slot)) = some n

/-- SLOT_DUE: at a due instant of an enabled slot; a sample of a slot that is still waiting or running is skipped (R243, R244). -/
def State.slotDue (s : State) (n : Nat) : State :=
  if !s.lopRuns || 24 ≤ n || !s.slotOn n || s.halted n || !s.slotAt n then s
  else
    let e := s.eng.loop
    if s.slotBusy n then (s.setLoop { e with skipAt := Sparse.put e.skipAt n e.c }).count (R.LOP_SLOT_EVT_SKIP n)
    else s.setLoop { e with dueAt := Sparse.put e.dueAt n e.c, due := n :: e.due }

/-- The lowest-numbered due slot. -/
def lowest : List Nat → Option Nat
  | [] => none
  | a :: t => some (t.foldl min a)

/-- The start delay of a slot's run: the clocks since it became due (R243). -/
def State.startDelay (s : State) (n : Nat) : Nat := min 65535 (s.eng.loop.c - Sparse.look s.eng.loop.dueAt n s.eng.loop.c)

/-- A run starts: targets, slew, mode and sense are latched, and its start delay is shown; a change of mode or sense is a hand-over sample (R243, R249, R251). -/
def State.runStart (s : State) : State :=
  let e := s.eng.loop
  if !s.lopRuns || e.run.isSome then s
  else match lowest e.due with
    | none => s
    | some n =>
      let tgt := [s.rdI (R.LOP_SLOT_TGT01_LO n), s.rdI (R.LOP_SLOT_TGT01_HI n), s.rdI (R.LOP_SLOT_TGT23_LO n), s.rdI (R.LOP_SLOT_TGT23_HI n)]
      let fresh := e.fresh.contains n
      let s1 := (s.wr (R.LOP_SLOT_JIT_LAST n) (s.startDelay n)).wr (R.LOP_SLOT_JIT_MAX n) (max (s.rd (R.LOP_SLOT_JIT_MAX n)) (s.startDelay n))
      let run : LoopRun := { slot := n, pc := s.slotEntry n, tgt := tgt, slew := 0, handover := false, mark := false }
      let e1 : Loop := { e with due := e.due.filter (fun m => m ≠ n), fresh := e.fresh.filter (fun m => m ≠ n) }
      match s.railOfSlot n with
      | none => s1.setLoop { e1 with run := some run }
      | some r =>
        let m := s.railMode r
        let q := s.railSense r
        let ho := !fresh && (m ≠ s.rd (R.LOP_RAIL_STATE_MODE_USED r) || q ≠ s.rd (R.LOP_RAIL_STATE_SENSE_USED r))
        let s2 := (s1.wr (R.LOP_RAIL_STATE_MODE_USED r) m).wr (R.LOP_RAIL_STATE_SENSE_USED r) q
        let hs := if ho && !e.handover.contains r then r :: e.handover else e.handover
        let s3 := s2.setLoop { e1 with run := some { run with slew := s.rd (R.LOP_RAIL_HO_SLEW r), handover := ho }, handover := hs }
        if ho then (s3.count (R.LOP_RAIL_EVT_HANDOVER r)).railShow r else s3

/-- The run whose next instruction has this opcode, and the instruction: where the engine stands elsewhere, nothing happens. -/
def State.loopFetch (s : State) (op : Nat) : Option (LoopRun × Nat) :=
  if !s.lopRuns then none
  else match s.eng.loop.run with
    | none => none
    | some r => if lwOp (s.loopWord r.pc) = op then some (r, s.loopWord r.pc) else none

/-- The run goes on at the next instruction. -/
def State.loopNext (s : State) : State :=
  s.setLoop { s.eng.loop with run := s.eng.loop.run.map (fun (r : LoopRun) => { r with pc := r.pc + 1 }) }

/-- The lanes of MASK. -/
def maskLanes (m : Nat) : List Nat := (List.range 4).filter (fun l => bitOf m l)

/-- Write `f l` to each lane of MASK; all lanes read before any is written. -/
def State.writeLanes (s : State) (n d m : Nat) (f : Nat → Int) : State := forL (maskLanes m) (fun l a => a.setVreg n d l (f l)) s

/-- The run ends; one with the saturation mark counts (R237). -/
def State.runEnd (s : State) (r : LoopRun) : State :=
  let s1 := s.setLoop { s.eng.loop with run := none }
  if r.mark then s1.count (R.LOP_SLOT_EVT_SAT r.slot) else s1

/-! ### Sources (R241) -/

/-- The DRIVE source of a rail, from the samples of the half's last row slot. -/
def State.drive (s : State) (r : Nat) : Int :=
  let y := s.lamp (r / 3)
  (((1023 + 95 * y.ref (r % 3)) * y.scale * y.derate * 32768 / (98208 * 65536 * 1024) : Nat) : Int)

/-- The TEMP source of a sensor (R384). -/
def State.tempSrc (s : State) (n : Nat) : Int := satI 16 (s.rdI (R.THM_S_T n) * 32)

/-- What a rail's converters read in this LD: VRAIL at the input that SENSE chose for the half, IRAIL (R241, R249). Free values, log entry 131. -/
def State.vrail (s : State) (r : Nat) : Int := sgn 16 (Config.free (s.freeCtr + (if s.on (R.LOP_RAIL_STATE_SENSE_USED r) then 6 else 0) + r))
def State.irail (s : State) (r : Nat) : Int := sgn 16 (Config.free (s.freeCtr + 12 + r))

/-- A source, Q1.15. -/
def State.source (s : State) (run : LoopRun) (b : Nat) : Int :=
  if b = 0 then 0
  else if b < 30 then
    if !s.isTile then 0
    else if 8 ≤ b ∧ b ≤ 13 then (Sparse.look s.eng.loop.headroom (b - 8) 0 : Nat)
    else if 24 ≤ b then s.drive (b - 24)
    else if b ≤ 6 then s.vrail (b - 1)
    else s.irail (b - 16)
  else if b < 44 then s.tempSrc (b - 32)
  else if b < 52 then run.tgt.getD (b - 48) 0
  else s.rdI (xchgF (b - 64))

/-- The active lanes of a slot (R249). -/
def State.activeLanes (s : State) (n : Nat) : Nat :=
  match s.railOfSlot n with
  | none => 15
  | some r => if s.on (R.LOP_RAIL_STATE_MODE_USED r) then s.rd (R.LOP_RAIL_LANES_RUN r) else s.rd (R.LOP_RAIL_LANES_SS r)

/-- A point of a TAB table (R240). -/
def State.tabPoint (s : State) (a e : Nat) : Int := sgn 16 (s.rdLE .window (1048576 + 16 * a + 2 * e) 2)

/-- The piecewise-linear lookup (R240). -/
def State.tabLook (s : State) (a : Nat) (x : Int) : Int :=
  let y := (max x 0).toNat
  let i := y / 1024
  s.tabPoint a i + ((s.tabPoint a (i + 1) - s.tabPoint a i) * ((y % 1024 : Nat) : Int) + 512) / 1024

/-- f and pos of FF (R252). With ND the pseudocode's 32,767 gives rs - 1 for rs above 16,384, and the sentence below it says that f is rs itself: f is rs.
DEDUCED, log entry 174. -/
def State.ffTerms (s : State) (r ps : Nat) (nd : Bool) : Int × Int :=
  let d0 := s.rd32 .window (rowLoadAt r)
  let row := bitsOf (s.rd32 .window (rowLoadAt r + 4)) 16 6
  let gap := bitOf d0 25
  let rs : Int := if gap then 0 else ((d0 % 33554432 / 1024 : Nat) : Int)
  let f := if nd then rs else (rs * s.drive r + 16384) / 32768
  (f, if gap then 0 else sgn 16 (s.rdLE .window (posAt r (row + 64 * ps)) 2))

/-- OUT (R250). -/
def State.loopSend (s : State) (run : LoopRun) (r : Nat) (a : Nat) : State :=
  let n := run.slot
  let lim : Int := (s.rd (R.LOP_RAIL_LIM_SP_MAX r) : Nat)
  let u := min (max 0 (q15 (s.vreg n a 0))) lim
  let old := q15 (s.vreg n 15 0)
  let inHo := s.eng.loop.handover.contains r
  let x0 := if run.handover then old else if inHo then old + clampI (-(run.slew : Int)) run.slew (u - old) else u
  let x := min (max 0 x0) lim
  let done := inHo && !run.handover && decide ((u - x).natAbs ≤ s.rd (R.LOP_RAIL_HO_SETTLE r))
  let s1 := if done then s.setLoop { s.eng.loop with handover := s.eng.loop.handover.filter (fun q => q ≠ r) } else s
  (forN 4 (fun l b => b.setVreg n 15 l (widen x)) s1).sendSp r u x

/-- HALT (R247). -/
def State.loopHalt (s : State) (run : LoopRun) : State :=
  let s1 := ((s.runEnd run).wr R.LOP_SLOT_HALT_SLOTS (withBit (s.rd R.LOP_SLOT_HALT_SLOTS) run.slot true)).count R.LOP_EVT_HALT
  match s1.railOfSlot run.slot with
  | some r => s1.sendSp r (s1.rdI (R.LOP_RAIL_SP_U r)) 0
  | none => s1

/-! ### Headroom and feed-forward entries (R217, R241, R253) -/

/-- HEADROOM_REPORT: the lowest pin voltage of a rail (0 red, 1 green, 2 blue) of a half, Q1.15 of 2.048 V; a slot with no report
leaves the last value. No sink die reports a rail of which no sink conducted 48 ns in the slot (R217). -/
def State.headReport (s : State) (h rail : Nat) (v : Option Nat) : State :=
  match v with
  | none => s
  | some p => if s.isTile && decide (rail < 3) && (s.lamp h).lastRails.contains rail then
      s.setLoop { s.eng.loop with headroom := Sparse.put s.eng.loop.headroom (3 * h + rail) (min p 32767) } else s

/-- FF_ENTRY: the entry last published comes into force, and FF_CLIP shows whether the lead is clipped (R253, R254). -/
def State.ffEntry (s : State) (r : Nat) : State :=
  if !s.isTile || 6 ≤ r then s
  else
    let x := s.scan (r / 3)
    let s1 := (s.publishFirst (r / 3)).entryInForce r
    s1.wrB (R.LOP_RAIL_STATE_FF_CLIP r) (decide (x.slotNs * x.subf < (4 * s.rd (R.LOP_RAIL_FF_LEAD r) + 300) * x.eff))

/-! ### The chopper cycle (R256 to R258) -/

/-- Twice the thresholds, so that an odd BAND is halved exactly. -/
def State.thHi2 (s : State) (r : Nat) : Int := 2 * s.railSp r + s.band r - 2 * s.rdI (R.LOP_CH_OFS_OFS r) - 2 * s.rdI (R.LOP_CH_BASE_BASE_HI r)
def State.thLo2 (s : State) (r : Nat) : Int := 2 * s.railSp r - s.band r - 2 * s.rdI (R.LOP_CH_OFS_OFS r) - 2 * s.rdI (R.LOP_CH_BASE_BASE_LO r)

def State.chopping (s : State) (r p : Nat) : Bool := s.isTile && decide (r < 6) && s.lopRuns && (s.chop r).phase = p

/-- A cycle ends: MEAS, PERIOD, the offset, the count of limits; the next one begins unless the rail idles (R256, R257, R258). The clamp
takes OFS_LIM as it stands: one above 32,767 lets an offset that the field cannot hold wrap in it. DESIGN CHOICE, log entry 177. -/
def State.cycleEnd (s : State) (r : Nat) (m : ChopMeas) : State :=
  let c := s.chop r
  let s1 := ((s.wrI (R.LOP_CH_MEAS_PEAK r) m.peak).wrI (R.LOP_CH_MEAS_VALLEY r) m.valley).wr (R.LOP_CH_PERIOD_NS r) (min 4095 m.cycleNs)
  let lim : Int := (s.rd (R.LOP_CH_OCL_OFS_LIM r) : Nat)
  let up := ((m.peak + m.valley + 1) / 2 - s.railSp r) / ((2 ^ s.rd (R.LOP_CH_CFG_OFS_SH r) : Nat) : Int)
  let s2 := if c.cut || c.moved then s1 else s1.wrI (R.LOP_CH_OFS_OFS r) (clampI (-lim) lim (s.rdI (R.LOP_CH_OFS_OFS r) + up))
  let s3 := if c.shaped then s2.count (R.LOP_CH_EVT_LIMIT r) else s2
  let s4 := (s3.setChop r { c with phase := 0 }).chopSync r
  if (s4.chop r).phase = 0 then s4.gatesTo r 0 else s4

/-- The on-phase ends at th_hi, at 40 ns at the earliest (R256). -/
def State.chopOnEnd (s : State) (r : Nat) (m : ChopMeas) : State :=
  if s.chopping r 1 && decide (s.thHi2 r ≤ 2 * m.current ∧ 40 ≤ m.phaseNs) then
    let c := s.chop r
    (s.setChop r { c with phase := 2, shaped := c.shaped || (m.phaseNs = 40 && decide (s.thHi2 r < 2 * m.current)) }).gatesTo r 2
  else s

/-- The off-phase ends at th_lo, at 40 ns and in a cycle of 250 ns at the earliest; the cycle ends (R256). -/
def State.chopOffEnd (s : State) (r : Nat) (m : ChopMeas) : State :=
  if s.chopping r 2 && decide (2 * m.current ≤ s.thLo2 r ∧ 40 ≤ m.phaseNs ∧ 250 ≤ m.cycleNs) then
    let c := s.chop r
    let late := decide (2 * m.current < s.thLo2 r) && (m.phaseNs = 40 || m.cycleNs = 250)
    (s.setChop r { c with shaped := c.shaped || late }).cycleEnd r m
  else s

/-- A cycle of 3,333 ns: the phase in progress ends at once (R256, R257). -/
def State.chopLimit (s : State) (r : Nat) (m : ChopMeas) : State :=
  if m.cycleNs < 3333 then s
  else if s.chopping r 1 then (s.setChop r { s.chop r with phase := 2, cut := true, shaped := true }).gatesTo r 2
  else if s.chopping r 2 then (s.setChop r { s.chop r with cut := true, shaped := true }).cycleEnd r m
  else s

/-- OVERCURRENT (R258). -/
def State.chopOver (s : State) (r : Nat) (m : ChopMeas) : State :=
  let lim : Int := (s.rd (R.LOP_CH_OCL_OC_LIM r) : Nat)
  if s.chopping r 1 && decide (lim ≤ m.current ∧ 40 ≤ m.phaseNs) then
    let c := s.chop r
    ((s.setChop r { c with phase := 2, cut := true, shaped := c.shaped || (m.phaseNs = 40 && decide (lim < m.current)) }).gatesTo r 2).count (R.LOP_CH_EVT_OC r)
  else s

/-- OVERVOLTAGE: VRAIL is at or above OV_LIM (R258). -/
def State.chopOv (s : State) (r vrail : Nat) : State :=
  if s.isTile && decide (r < 6) && s.lopRuns && !(s.chop r).ov && decide (s.rd (R.LOP_RAIL_LIM_OV_LIM r) ≤ vrail) then
    ((s.setChop r { s.chop r with ov := true }).count (R.LOP_RAIL_EVT_OV r)).chopSync r
  else s

/-- The first VRAIL sample below OV_LIM - 256 (R258). -/
def State.ovRecover (s : State) (r vrail : Nat) : State :=
  if (s.chop r).ov && decide (vrail + 256 < s.rd (R.LOP_RAIL_LIM_OV_LIM r)) then
    (s.setChop r { s.chop r with ov := false }).chopSync r
  else s

end Sys2Proof.Machine
end

