-- ==== Sys2Proof/Machine/DramOps.lean ====
section
/-! DEFINITION. The LPDDR5X controller (R363 to R382): channel addresses, queues and scheduling, refresh, row-hammer defence, errors
and quarantine, and the training helper. -/

namespace Sys2Proof.Machine

/-! ### Addresses (R363) and requesters (R364) -/

/-- The channel address of a DRAM byte address: its channel bits taken out. -/
def chanAddr (b : Build) (a : Nat) : Nat := a / (256 * channels b) * 256 + a % 256

/-- The DRAM byte address of a channel address. -/
def dramAddr (b : Build) (j c : Nat) : Nat := c / 256 * (256 * channels b) + j * 256 + c % 256

def dramBank (c : Nat) : Nat := c / 2048 % 16
def dramRow (c : Nat) : Nat := c / 32768

/-- The scheduling class of a requester: 0 RT, 1 BULK, 2 TRAIN. -/
def dramClass (r : Nat) : Nat := if r < 6 then 0 else if r < 8 then 1 else 2

/-- The age cap of a class in ns (DRC_AGE). -/
def State.ageCap (s : State) (w cls : Nat) : Nat :=
  10 * (if cls = 0 then s.rd (R.DRC_AGE_RT w) else if cls = 1 then s.rd (R.DRC_AGE_BULK w) else s.rd (R.DRC_AGE_TRAIN w))

/-! ### Error responses and quarantine (R373 to R375) -/

/-- `n` bytes at `base`, modulo the DRAM, hold the byte at `a`. -/
def State.dramHolds (s : State) (base n a : Nat) : Bool :=
  decide ((a + dramSize s.build - base % dramSize s.build) % dramSize s.build < n)

/-- A burst of scan-out has an error response: the row that it belongs to is dark in the slots fetched with it. -/
def State.rowLost (s : State) (r : DramReq) : State :=
  forN 2 (fun h t => t.setScan h { t.scan h with
    fetch := (t.scan h).fetch.map (fun e =>
      if (r.tag = 0 || r.tag = fetchTag h e.slot) && s.dramHolds e.at_ 1024 r.addr then { e with bad := true } else e) }) s

/-- A burst of a LOAD has an error response: its words read as 0. -/
def State.loadLost (s : State) (a : Nat) : State :=
  forN 2 (fun h t =>
    let base := t.rd (R.DRN_LOAD_BASE_BASE h) * 4096
    if t.on (R.DRN_CMD_LOAD h) && s.dramHolds base darnImage a then
      t.setDarn h { t.darn h with lost := ((a + dramSize s.build - base % dramSize s.build) % dramSize s.build / 32) :: (t.darn h).lost }
    else t) s

/-- A burst of a capture has an error response: the write is lost, and the frame is incomplete. -/
def State.captureLost (s : State) (a : Nat) : State :=
  forN 32 (fun i t =>
    let h := i / 16
    let k := i % 16
    let x := t.layer h k
    match x.cap with
    | none => t
    | some c =>
      if !x.mem && s.dramHolds (t.lyBuf h k (1 - t.rd (R.LYR_STATE_CUR h k))) (t.rd (R.LYR_BUFSIZE_SIZE h k) * 4096) a then
        t.setLayer h k { x with cap := some { c with lost := true } }
      else t) s

/-- The first line of the cropped frame that a cell needs (R122, R123). -/
def SrcCfg.lineFrom (c : SrcCfg) (k : Nat) : Nat :=
  let y := k * 2048 / wireBits c.wire * unitPix c.wire / max 1 c.ow
  if c.ch = c.oh then y else (clampI 0 c.ch ((scalePos c.ch c.oh y).1 - 3)).toNat

/-- A burst that a cell was made from. -/
def State.cellUses (s : State) (c : SrcCfg) (base k a : Nat) : Bool :=
  (List.range (c.linesFor (k + 1) - c.lineFrom k)).any (fun i =>
    let p := c.lineSpan base (c.lineFrom k + i)
    s.dramHolds (p.1 / 32 * 32) (p.2 + p.1 % 32) a)

/-- Bytes that nothing is known of. -/
def State.freeBytes (s : State) (n : Nat) : List Byte := (List.range n).map (fun i => BitVec.ofNat 8 (Config.free (s.freeCtr + i)))

/-- The cells of a stream that still wait with a payload take another. -/
def State.repayload (s : State) (stream : Nat) (old new : List Byte) : State :=
  { s with ports := s.ports.map (fun e => (e.1, { e.2 with q2 := e.2.q2.map (fun (q : QCell) =>
      if q.cell.stream = stream && !q.cell.loc && q.cell.payload = old then { q with cell := { q.cell with payload := new } } else q) })) }

/-- A burst of a source conditioner has an error response: its data is lost. What stands in the custom kernel and in the cells made from it that have not
left is open: free values (R375, log entry 157). -/
def State.conditionLost (s : State) (a : Nat) : State :=
  forN 16 (fun n t =>
    let kb := t.rd (R.SRC_COEF_BASE_BASE n) * 4096
    let off := (a + dramSize t.build - kb % dramSize t.build) % dramSize t.build
    let t1 := if (t.src n).kernel.isEmpty || !t.dramHolds kb 2048 a then t
      else
        let k := (t.src n).kernel
        (t.setSrc n { t.src n with kernel := k.take off ++ t.freeBytes 32 ++ k.drop (off + 32) }).useFrees 32
    let c := t1.srcCfg n
    let base := t1.bufBase n (t1.rd (R.SRC_STATE_SEND n))
    forL ((t1.src n).built.filter (fun e => t1.cellUses c base e.1 a)) (fun e u =>
      let new := u.freeBytes 256
      ((u.setSrc n { u.src n with built := Sparse.put (u.src n).built e.1 new }).repayload (u.headNo * 16 + n) e.2 new).useFrees 256) t1) s

/-- An error response: counted, and with the result R375 gives at the requester. A write of the ingest DMA is lost, and nothing else of it shows. -/
def State.dramError (s : State) (j : Nat) (r : DramReq) : State :=
  let s1 := (s.count (R.DRC_CH_EVT_ERRRSP j)).emit (.dramErr r.requester r.addr)
  match r.requester with
  | 0 => s1.rowLost r
  | 1 => if (s1.press 0).active then s1.abandon 0 else s1
  | 2 => if (s1.press 1).active then s1.abandon 1 else s1
  | 3 => s1.loadLost r.addr
  | 4 => s1.captureLost r.addr
  | 5 => s1.conditionLost r.addr
  | 7 => s1.emit (.abort .kryty)
  | 8 => s1.setDch j { s1.dch j with op := (s1.dch j).op.map (fun o => { o with bad := true }) }
  | _ => s1

/-- A channel is quarantined with a cause (R374): its state shows it, every request it holds gets an error response, the writes that it has
not made are lost, a COMMIT that waits is discarded, and a head gives up. -/
def State.quarantine (s : State) (j cause : Nat) : State :=
  if s.chState j = dcQuar then s
  else
    let x := s.dch j
    let held := x.flight.toList ++ (x.reads.map (fun q => q.req)) ++ (x.writes.map (fun q => q.req)) ++ x.held ++ x.helper
    let lost := (x.writes.map (fun q => q.req) ++ x.held.filter (fun r => r.write)).reverse
    let s0 := forL lost (fun r a => a.wrBytes .dram (r.addr / 32 * 32) r.data) s
    let s1 := (s0.wr (R.DRC_CH_STATE_STATE j) dcQuar).wr (R.DRC_CH_STATE_QCAUSE j) cause
    let s2 := s1.wr (R.DRC_STATE_QUAR (j / 2)) (withBit (s1.rd (R.DRC_STATE_QUAR (j / 2))) (j % 2) true)
    let s3 := if x.commitWaits then (s2.wr (R.DRC_CH_TRN_CMD_GO j) 0).wr (R.DRC_CH_TRN_RESULT_BUSY j) 0 else s2
    let s4 := s3.setDch j { s3.dch j with held := [], helper := [], reads := [], writes := [], flight := none, again := false, commitWaits := false, top := false }
    (forL held (fun r a => a.dramError j r) s4).giveUp 3

/-- The DRAM PLL loses lock: every channel is quarantined (R374). -/
def State.quarantineAll (s : State) : State := forN (channels s.build) (fun j a => a.quarantine j 2) s

/-! ### Row-hammer defence (R370 to R372) -/

/-- The requesters throttled on a window's channels (DRC_THROTTLED). -/
def State.showThrottled (s : State) (w : Nat) : State :=
  s.wr (R.DRC_THROTTLED_REQ w) ((List.range 9).foldl (fun n i =>
    if ((s.dch (2 * w)).throttled ++ (s.dch (2 * w + 1)).throttled).any (fun e => e.1 = i) then n + 2 ^ i else n) 0)

/-- Count an activation in a table of 2,048 entries: its entry rises by 1, or it takes the place of an entry with the lowest count;
which of several is open (`choice`). Answers the entry's count. -/
def actCount (l : List ActEnt) (bank row req choice : Nat) : List ActEnt × Nat :=
  let isKey (e : ActEnt) : Bool := e.bank = bank && e.row = row && e.requester = req
  match l.find? isKey with
  | some e => (l.map (fun a => if isKey a then { a with count := a.count + 1 } else a), e.count + 1)
  | none =>
    if l.length < 2048 then (l ++ [{ bank := bank, row := row, requester := req, count := 1 }], 1)
    else
      let low := l.foldl (fun m e => min m e.count) (l.headD { bank := 0, row := 0, requester := 0, count := 0 }).count
      let lows := (List.range l.length).filter (fun i => (l.map (fun e => e.count)).getD i 0 = low)
      let i := lows.getD (choice % max 1 lows.length) 0
      (l.set i { bank := bank, row := row, requester := req, count := low + 1 }, low + 1)

/-- Take the standard's amount off every rolling count. -/
def State.rollDown (s : State) (j : Nat) : State :=
  let x := s.dch j
  let d := Config.rfmDec (Sparse.look x.mrs 27 0)
  s.setDch j { x with rolling := x.rolling.map (fun e => (e.1, e.2 - d)) }

/-- A row activation for a request: the row is open, the activation table counts it, a requester whose entry reaches LIMIT is
throttled, and a bank whose rolling count reaches the threshold of MR27 asks for an RFMab, which closes the rows (R370 to R372). -/
def State.activate (s : State) (j : Nat) (r : DramReq) : State :=
  let c := chanAddr s.build r.addr
  let bank := dramBank c
  let x := s.dch j
  let full := decide (2048 ≤ x.acts.length)
  let a := actCount x.acts bank (dramRow c) r.requester s.freeVal
  let s0 := if full then s.useFree else s
  let held := x.throttled.any (fun e => e.1 = r.requester)
  let starts := decide (s.rd (R.DRC_HAMMER_LIMIT (j / 2)) ≤ a.2) && !held
  let thr := if held || starts then Sparse.put x.throttled r.requester s.nowNs else x.throttled
  let roll := Sparse.look x.rolling bank 0 + 1
  let s1 := s0.setDch j { x with rows := Sparse.put x.rows bank (dramRow c), acts := a.1, throttled := thr, rolling := Sparse.put x.rolling bank roll }
  let s2 := if starts then (s1.count (R.DRC_CH_EVT_THROTTLE j)).showThrottled (j / 2) else s1
  let lim := Config.rfmLimit (Sparse.look x.mrs 27 0)
  if lim ≠ 0 ∧ lim ≤ roll then
    let s3 := ((s2.emit (.dramCmd j "RFMab" 0)).count (R.DRC_CH_EVT_RFM j)).rollDown j
    s3.setDch j { s3.dch j with rows := [] }
  else s2

/-! ### Scheduling (R364, R365) -/

/-- Whether the row of a request is open. -/
def DramCh.hit (x : DramCh) (b : Build) (r : DramReq) : Bool :=
  Sparse.get x.rows (dramBank (chanAddr b r.addr)) = some (dramRow (chanAddr b r.addr))

/-- The request of the lowest place in the order of arrivals. -/
def oldestReq : List DQueued → Option DQueued
  | [] => none
  | q :: t => match oldestReq t with
    | none => some q
    | some p => if q.ord < p.ord then some q else some p

/-- The requests that may be picked: no older request waits for the same burst, and a throttled requester's activation waits for its
turn (R364, R371). -/
def State.dramCandidates (s : State) (j : Nat) : List DQueued :=
  let x := s.dch j
  let all := x.reads ++ x.writes
  all.filter (fun q =>
    !all.any (fun p => p.ord < q.ord && p.req.addr / 32 = q.req.addr / 32) &&
    (x.hit s.build q.req ||
      (match Sparse.get x.throttled q.req.requester with
       | none => true
       | some t => decide (t + 100 * s.rd (R.DRC_HAMMER_THROTTLE (j / 2)) ≤ s.nowNs))))

/-- The pick of R365. -/
def State.dramPick (s : State) (j : Nat) : Option DQueued :=
  let l := s.dramCandidates j
  let aged := l.filter (fun q => decide (s.ageCap (j / 2) (dramClass q.req.requester) < s.nowNs - q.at_))
  match oldestReq aged with
  | some q => some q
  | none => match oldestReq (l.filter (fun q => (s.dch j).hit s.build q.req)) with
    | some q => some q
    | none => oldestReq l

/-- A picked request is carried out: a write completes, a read is outstanding until its data comes. The bytes of both moved as it was issued (log
entry 125). -/
def State.dramServe (s : State) (j : Nat) (q : DQueued) : State :=
  let x := s.dch j
  let drop (l : List DQueued) : List DQueued := l.filter (fun p => p.ord ≠ q.ord)
  let s1 := s.setDch j (DramCh.letIn { x with reads := drop x.reads, writes := drop x.writes, burst := 0, chain := false } s.nowNs)
  let s2 := if x.hit s.build q.req then s1 else s1.activate j q.req
  if q.req.write then s2.emit (.dramCmd j "WR" q.req.addr)
  else (s2.setDch j { s2.dch j with flight := some q.req, again := false }).emit (.dramCmd j "RD" q.req.addr)

/-- Pick and serve until a read is outstanding or nothing may be picked. -/
def State.dramSchedule (s : State) (j : Nat) : Nat → State
  | 0 => s
  | n + 1 =>
    if (s.dch j).flight.isSome then s
    else match s.dramPick j with
      | none => s
      | some q => (s.dramServe j q).dramSchedule j n

/-- The postponement limit in force (R367). -/
def State.refLimit (s : State) (j : Nat) : Nat :=
  let l := s.rd (R.DRC_REF_LIMIT (j / 2))
  if s.rd (R.DRC_CH_STATE_RATE j) = 1 then min l 4 else l

/-- A refresh is due at top priority (R367). The count that has reached the limit makes the next refresh due, the one of the next tREFI: so
OWED reads 4 between refreshes at a limit of 4, as the table of R368 has it. DEDUCED, log entry 127. -/
def State.refTop (s : State) (j : Nat) : Bool :=
  s.rd (R.DRC_CH_STATE_OWED j) ≠ 0 && ((s.dch j).top || decide (s.refLimit j < s.rd (R.DRC_CH_STATE_OWED j)))

/-- A refresh blocks the channel until its tRFCab is over (R366). -/
def State.refBlocks (s : State) (j : Nat) : Bool := decide (s.nowNs < (s.dch j).refTo)

/-- The command slots of a channel: everything that may go now, which is nothing before a refresh due at top priority (R365), and nothing while a refresh
blocks the channel (R366). -/
def State.dramRun (s : State) (j : Nat) : State :=
  if (s.chState j = dcReady || s.chState j = dcTraining) && !s.refTop j && !s.refBlocks j then s.dramSchedule j 200 else s

/-- The command slots of every channel. -/
def State.dramSlots (s : State) : State := forN (channels s.build) (fun j t => t.dramRun j) s

/-! ### Refresh (R366 to R369) -/

/-- The channel holds an RT request. -/
def DramCh.holdsRt (x : DramCh) : Bool :=
  (x.flight.toList ++ (x.reads ++ x.writes).map (fun q => q.req)).any (fun r => dramClass r.requester = 0)

/-- TRIAL becomes ACTIVE (R376, R379): an update by hardware of HU fields, which a write of this CTL cycle meets (R61). -/
def State.takeTrial (s : State) (j : Nat) : State :=
  let s1 := (((s.wr (R.DRC_CH_ACT_MISC_VREF0 j) (s.rd (R.DRC_CH_TRIAL_MISC_VREF0 j))).wr (R.DRC_CH_ACT_MISC_VREF1 j)
    (s.rd (R.DRC_CH_TRIAL_MISC_VREF1 j))).wr (R.DRC_CH_ACT_MISC_CA j) (s.rd (R.DRC_CH_TRIAL_MISC_CA j))).wr (R.DRC_CH_ACT_MISC_WCK j)
    (s.rd (R.DRC_CH_TRIAL_MISC_WCK j))
  let pairs (d : Nat) : List (Fld × Fld) :=
    [(R.DRC_CH_TRIAL_RD_DLY0 j d, R.DRC_CH_RD_DLY_DLY0 j d), (R.DRC_CH_TRIAL_RD_DLY1 j d, R.DRC_CH_RD_DLY_DLY1 j d),
     (R.DRC_CH_TRIAL_RD_DLY2 j d, R.DRC_CH_RD_DLY_DLY2 j d), (R.DRC_CH_TRIAL_RD_DLY3 j d, R.DRC_CH_RD_DLY_DLY3 j d),
     (R.DRC_CH_TRIAL_WR_DLY0 j d, R.DRC_CH_WR_DLY_DLY0 j d), (R.DRC_CH_TRIAL_WR_DLY1 j d, R.DRC_CH_WR_DLY_DLY1 j d),
     (R.DRC_CH_TRIAL_WR_DLY2 j d, R.DRC_CH_WR_DLY_DLY2 j d), (R.DRC_CH_TRIAL_WR_DLY3 j d, R.DRC_CH_WR_DLY_DLY3 j d)]
  let cp (a : State) (p : Fld × Fld) : State := a.wr p.2 (a.rd p.1)
  let s2 := forN 4 (fun d a => (pairs d).foldl cp a) s1
  let s3 := s2.wr (R.DRC_STATE_TRAIN_FAIL (j / 2)) (withBit (s2.rd (R.DRC_STATE_TRAIN_FAIL (j / 2))) (j % 2) false)
  let s4 := (s3.wr (R.DRC_CH_TRN_CMD_GO j) 0).wr (R.DRC_CH_TRN_RESULT_BUSY j) 0
  let s5 := s4.setDch j { s4.dch j with commitWaits := false, trained := true }
  let keys := [R.DRC_CH_ACT_MISC_VREF0 j, R.DRC_CH_ACT_MISC_VREF1 j, R.DRC_CH_ACT_MISC_CA j, R.DRC_CH_ACT_MISC_WCK j] ++
    (List.range 4).flatMap (fun d => (pairs d).map (fun p => p.2))
  { s5 with bus := { s5.bus with hw := keys.map Fld.key ++ s5.bus.hw } }

/-- tRFCab in ns (R366). -/
def tRfc : Build → Nat
  | .head => 380
  | .tile => 280

/-- A REFab: the owed count falls by 1, the rows close, the rolling counts fall, a COMMIT that waits is taken (not on the way into
self-refresh, R382), and the second of a run of back-to-back refreshes counts the run (R367, R372, R379): one that begins as the one before ends, or
that the one before left due at top priority (log entry 127). -/
def State.refreshOne (s : State) (j : Nat) (commit : Bool) : State :=
  let owed := s.rd (R.DRC_CH_STATE_OWED j)
  if owed = 0 then s
  else
    let s1 := (((s.wr (R.DRC_CH_STATE_OWED j) (owed - 1)).emit (.dramCmd j "REFab" 0)).rollDown j)
    let x := s1.dch j
    let from_ := max s.nowNs x.refTo
    let follows := decide (s.nowNs ≤ x.refTo) || x.chain
    let y := { x with rows := [], burst := if follows then x.burst + 1 else 1, top := x.top && decide (1 < owed), refFrom := from_, refTo := from_ + tRfc s.build }
    let s2 := s1.setDch j { y with chain := (s1.setDch j y).refTop j }
    let s3 := if follows ∧ x.burst = 1 then s2.count (R.DRC_CH_EVT_REF_BURST j) else s2
    if x.commitWaits && commit then s3.takeTrial j else s3

/-- Every owed refresh, back to back. -/
def State.refreshAll (s : State) (j : Nat) (commit : Bool) : State := forN (s.rd (R.DRC_CH_STATE_OWED j)) (fun _ a => a.refreshOne j commit) s

/-- A channel that refreshes by itself. -/
def State.refreshes (s : State) (j : Nat) : Bool := decide (j < channels s.build) && (s.chState j = dcReady || s.chState j = dcTraining)

/-- tREFI ends: one more refresh is owed (R367), or a return to 1x takes effect with the owed count unchanged (R368). A run of back-to-back refreshes
goes on where its last refresh left one due at top priority, or is in progress (log entry 127). -/
def State.trefi (s : State) (j : Nat) : State :=
  if !s.refreshes j then s
  else
    let x := s.dch j
    let s1 := if x.slow then s.wr (R.DRC_CH_STATE_RATE j) 0 else s.wr (R.DRC_CH_STATE_OWED j) (min 15 (s.rd (R.DRC_CH_STATE_OWED j) + 1))
    let goes := x.chain || (decide (x.refFrom < s.nowNs) && decide (s.nowNs < x.refTo))
    s1.setDch j { x with slow := false, burst := if goes then x.burst else 0, chain := x.chain && goes }

/-- An owed refresh is issued when one of the three cases of R367 holds, or a COMMIT waits for it (R379). -/
def State.refreshIssue (s : State) (j : Nat) : State :=
  let owed := s.rd (R.DRC_CH_STATE_OWED j)
  let x := s.dch j
  if s.refreshes j && owed ≠ 0 && (!x.holdsRt || s.refTop j || x.commitWaits) then (s.refreshOne j true).dramRun j else s

/-- MR4 is read (R368). -/
def State.mr4 (s : State) (j value : Nat) (wants2x beyond : Bool) : State :=
  if !s.refreshes j then s
  else
    let rises := beyond && !s.on (R.DRC_CH_STATE_HOT j)
    let s1 := (s.wr (R.DRC_CH_MR4_MR4 j) value).wrB (R.DRC_CH_STATE_HOT j) beyond
    let s2 := if rises then s1.count (R.DRC_CH_EVT_HOT j) else s1
    let x := s2.dch j
    let s3 := s2.setDch j { x with slow := !(wants2x || beyond) && s2.on (R.DRC_CH_STATE_RATE j), mrs := Sparse.put x.mrs 4 (value % 256) }
    if (wants2x || beyond) && !s3.on (R.DRC_CH_STATE_RATE j) then (s3.refreshAll j true).wr (R.DRC_CH_STATE_RATE j) 1 else s3

/-- The refresh window ends: the activation table is clear and the throttles end (R370, R371). -/
def State.refWindow (s : State) (j : Nat) : State :=
  if channels s.build ≤ j then s else ((s.setDch j { s.dch j with acts := [], throttled := [] }).showThrottled (j / 2)).dramRun j

/-- The channel issues every owed refresh, each at top priority (R367), and enters self-refresh (R369). -/
def State.selfEnter (s : State) (j : Nat) : State :=
  if s.chState j = dcReady then
    let s1 := ((s.setDch j { s.dch j with top := decide (0 < s.rd (R.DRC_CH_STATE_OWED j)) }).refreshAll j false).wr (R.DRC_CH_STATE_STATE j) dcSelf
    (s1.setDch j { s1.dch j with rows := [], burst := 0, chain := false }).emit (.dramCmd j "SRE" 0)
  else s

/-- A channel with nothing accepted and not done. -/
def State.chIdle (s : State) (j : Nat) : Bool :=
  let x := s.dch j
  x.flight.isNone && x.reads.isEmpty && x.writes.isEmpty && x.held.isEmpty && x.helper.isEmpty

/-- 20 us without a request in Shoulder (R400). -/
def State.selfIdle (s : State) (j : Nat) : State :=
  if j < channels s.build ∧ s.pstate = pShoulder ∧ s.enabled .DRC (j / 2) ∧ s.chIdle j ∧ (s.dch j).op.isNone then s.selfEnter j else s

/-! ### Requests (R364, R373, R400) -/

/-- A channel in self-refresh leaves it for a request, counted (R400). -/
def State.wakeChannel (s : State) (j : Nat) : State := if s.chState j = dcSelf then (s.selfExit j).count R.PWR_EVT_SR_EXIT else s

/-- A request reaches its channel: an error response where the channel does not serve, an exit from self-refresh in Shoulder, and a
place in the queue, for which it waits where the queue is full. Its bytes move as it is issued, as those of every engine do: so requests to a burst
keep their order (R364, log entry 125). -/
def State.dramRequest (s : State) (r : DramReq) : State :=
  let a := r.addr % dramSize s.build
  let r1 := { r with addr := a }
  let j := chanOf s.build a
  if 8 < r.requester then s
  else if !s.chServes j then s.dramError j r1
  else
    let s1 := s.wakeChannel j
    let x := s1.dch j
    let r2 := { r1 with data := s1.rdBytes .dram (a / 32 * 32) 32 }
    let s2 := s1.setDch j (DramCh.letIn { x with held := x.held ++ [r2] } s1.nowNs)
    (if r.write then s2.wrBytes .dram (a / 32 * 32) (takePad r.data 32) else s2).dramRun j

/-- A read burst is delivered. -/
def State.dramDeliver (s : State) (j : Nat) (r : DramReq) : State :=
  let s1 := s.emit (.dramData r.requester r.addr r.data)
  (s1.setDch j { s1.dch j with flight := none, again := false }).dramRun j

/-- An uncorrectable error: counted, answered, and a quarantine when UE_LIMIT of them lie within UE_WIN ms (R373, R374). -/
def State.dramUe (s : State) (j : Nat) (r : DramReq) : State :=
  let x := s.dch j
  let near := (x.ues ++ [s.nowNs]).filter (fun t => decide (s.nowNs - t < 1000000 * s.rd (R.DRC_QCFG_UE_WIN (j / 2))))
  let s1 := ((s.count (R.DRC_CH_EVT_UE j)).setDch j { x with flight := none, again := false, ues := near }).dramError j r
  if s.rd (R.DRC_QCFG_UE_LIMIT (j / 2)) ≤ near.length then s1.quarantine j 1 else s1.dramRun j

/-- The outstanding read burst returns (R373). A reissue that the link ECC corrects is delivered, and counts as an error corrected and as a retry that
succeeded: the rule names clean reissues and failed ones only. DESIGN CHOICE, log entry 183. -/
def State.readDone (s : State) (j : Nat) (res : EccResult) : State :=
  match (s.dch j).flight with
  | none => s
  | some r => match res with
    | .clean => (if (s.dch j).again then s.count (R.DRC_CH_EVT_RETRY_OK j) else s).dramDeliver j r
    | .corrected =>
      let s1 := s.count (R.DRC_CH_EVT_CE j)
      (if (s.dch j).again then s1.count (R.DRC_CH_EVT_RETRY_OK j) else s1).dramDeliver j r
    | .uncorrectable =>
      if (s.dch j).again then s.dramUe j r
      else (s.setDch j { s.dch j with again := true }).emit (.dramCmd j "RD" r.addr)

/-! ### Enable and disable (R381) -/

/-- The enable check of a DRC page. -/
def State.drcCheck (s : State) (w : Nat) : Option Nat :=
  if !s.on R.CLK_PLL_DRAM_LOCK then some 16
  else if !((s.dch (2 * w)).trained && (s.dch (2 * w + 1)).trained) then some 18
  else none

/-- The page is enabled: its channels serve; one in quarantine stays there (R374). -/
def State.drcEnable (s : State) (w : Nat) : State :=
  forN 2 (fun i a =>
    let j := 2 * w + i
    if a.chState j = dcQuar then a else a.wr (R.DRC_CH_STATE_STATE j) dcReady) s

/-- Whether a draining page has finished the requests it accepted, and a point in progress (R381, R382). -/
def State.drcIdle (s : State) (w : Nat) : Bool :=
  s.chIdle (2 * w) && s.chIdle (2 * w + 1) && (s.dch (2 * w)).op.isNone && (s.dch (2 * w + 1)).op.isNone

/-- The page has drained: every owed refresh, then self-refresh (R381). -/
def State.drcDrained (s : State) (w : Nat) : State := (s.selfEnter (2 * w)).selfEnter (2 * w + 1)

/-! ### The training helper (R376 to R380) -/

/-- A channel in use by the helper while its page is disabled shows TRAINING. -/
def State.helperUse (s : State) (j : Nat) : State :=
  if !s.enabled .DRC (j / 2) && (s.chState j = dcOff || s.chState j = dcSelf) then s.wr (R.DRC_CH_STATE_STATE j) dcTraining else s

/-- The bursts of a point (R377), requests of requester 8 for the scratch area of its own channel: BURSTS writes and BURSTS reads. -/
def State.helperBursts (s : State) (j : Nat) (o : HelperOp) : List DramReq :=
  let burst (w : Bool) (i : Nat) : DramReq :=
    let a := dramAddr s.build j (o.base + 32 * i)
    { requester := 8, write := w, addr := a, data := s.rdBytes .dram a 32 }
  (List.range o.bursts).map (burst true) ++ (List.range o.bursts).map (burst false)

/-- The bursts of a point enter the queues one after the other (R377). A channel in self-refresh leaves it for them (R400); on a quarantined one each has an
error response (R374, R375). -/
def State.helperPost (s : State) (j : Nat) (o : HelperOp) : State :=
  let l := s.helperBursts j o
  if s.chState j = dcQuar then forL l (fun r a => a.dramError j r) s
  else
    let s1 := if s.enabled .DRC (j / 2) then s.wakeChannel j else s
    (s1.setDch j (DramCh.letIn { s1.dch j with helper := l } s1.nowNs)).dramRun j

/-- A GO with an operation: the reason it is ignored with, or the state in which it runs (R63, R377, R379, R380). -/
def State.trainGo (s : State) (j op : Nat) : Except Nat State :=
  let x := s.dch j
  if s.on (R.DRC_CH_TRN_CMD_GO j) then .error rBusy
  else if op = 0 ∨ 8 < op then .error rRange
  else if (op = 3 ∨ op = 4 ∨ op = 5) ∧ s.enabled .DRC (j / 2) then .error 17
  else if op = 7 then
    (if s.chState j = dcQuar then .ok s
     else
      let s1 := (s.helperUse j).wr (R.DRC_CH_TRN_CMD_GO j) 1
      .ok ((s1.wr (R.DRC_CH_TRN_RESULT_BUSY j) 1).setDch j { s1.dch j with commitWaits := true }))
  else if op = 8 then
    let s1 := s.wr (R.DRC_STATE_TRAIN_FAIL (j / 2)) (withBit (s.rd (R.DRC_STATE_TRAIN_FAIL (j / 2))) (j % 2) true)
    .ok (if x.trained then s1 else s1.quarantine j 3)
  else
    let s1 := ((s.helperUse j).wr (R.DRC_CH_TRN_CMD_GO j) 1).wr (R.DRC_CH_TRN_RESULT_BUSY j) 1
    let o : HelperOp :=
      { op := op, mr := s.rd (R.DRC_CH_TRN_MR_ADDR j) * 256 + s.rd (R.DRC_CH_TRN_MR_DATA j), base := s.rd (R.DRC_CH_TRN_SCRATCH_BASE j) * 4096,
        bursts := s.rd (R.DRC_CH_TRN_CFG_BURSTS j), pattern := s.rd (R.DRC_CH_TRN_CFG_PATTERN j), bad := false }
    let s2 := s1.setDch j { s1.dch j with op := some o }
    .ok (if op = 1 ∨ op = 2 then s2.helperPost j o
         else if op = 5 ∧ s.chState j ≠ dcQuar then s2.emit (.dramCmd j "MRW" o.mr) else s2)

/-- The bytes of the training pattern (R377): 0x5555_AAAA repeated, or a PRBS15 sequence. The generator x^15 + x^14 + 1, the low 15 bits of the
seed, and the bits in ascending places are PRESUMED, log entry 126. -/
def prbs15 (x : Nat) : Nat → Nat × Nat
  | 0 => (0, x)
  | n + 1 =>
    let b := Nat.xor (x / 16384 % 2) (x / 8192 % 2)
    let r := prbs15 ((x * 2 + b) % 32768) n
    (b + 2 * r.1, r.2)

def prbs15Bytes (x : Nat) : Nat → List Byte
  | 0 => []
  | n + 1 => let r := prbs15 x 8; BitVec.ofNat 8 r.1 :: prbs15Bytes r.2 n

def patternBytes (seed n : Nat) : List Byte :=
  if seed = 0 then (List.range n).map (fun i => BitVec.ofNat 8 (1431677610 / 256 ^ (i % 4))) else prbs15Bytes (seed % 32768) n

/-- What a point leaves in its scratch area, 32 x BURSTS bytes: the pattern, or free values where bits that it wrote with TRIAL settings
miscompared. -/
def State.scratchPattern (s : State) (j : Nat) (o : HelperOp) (clean : Bool) : State :=
  let n := 32 * o.bursts
  let at_ (i : Nat) : Nat := dramAddr s.build j (o.base + i)
  if clean then (patternBytes o.pattern n).zipIdx.foldl (fun a e => a.wr8 .dram (at_ e.2) e.1) s
  else
    let s1 := forN n (fun i a => a.wr8 .dram (at_ i) (BitVec.ofNat 8 (Config.free (s.freeCtr + i)))) s
    { s1 with freeCtr := s.freeCtr + n }

/-- The helper's bursts that wait end with the operation. -/
def State.helperDrop (s : State) (j : Nat) : State :=
  let x := s.dch j
  let keep (l : List DQueued) : List DQueued := l.filter (fun q => !q.helper)
  s.setDch j { x with helper := [], reads := keep x.reads, writes := keep x.writes }

/-- A helper operation completes: BUSY and GO clear and its result is posted (R377); on a quarantined channel, or with an error response,
every bit has failed (R375), and no mode register is written or read (R374). -/
def State.pointDone (s : State) (j fail data : Nat) : State :=
  match (s.dch j).op with
  | none => s
  | some o =>
    let s1 := ((s.wr (R.DRC_CH_TRN_CMD_GO j) 0).wr (R.DRC_CH_TRN_RESULT_BUSY j) 0)
    let s2 := (s1.setDch j { s1.dch j with op := none }).helperDrop j
    let quar := s.chState j = dcQuar
    let f (m : Nat) : Nat := if quar || o.bad then 65535 else fail % m
    let put (v : Nat) : State := s2.setDch j { s2.dch j with mrs := Sparse.put (s2.dch j).mrs (o.mr / 256) v }
    if o.op = 1 ∨ o.op = 2 then
      (if quar then s2 else s2.scratchPattern j o (o.op = 1 || f 65536 = 0)).wr (R.DRC_CH_TRN_RESULT_FAIL j) (f 65536)
    else if o.op = 3 then s2.wr (R.DRC_CH_TRN_RESULT_FAIL j) (f 128)
    else if o.op = 4 then s2.wr (R.DRC_CH_TRN_RESULT_FAIL j) (f 4)
    else if quar then s2
    else if o.op = 5 then put (o.mr % 256)
    else (put data).wr (R.DRC_CH_TRN_RESULT_DATA j) data

end Sys2Proof.Machine
end

