-- ==== Sys2Proof/Machine/ThermOps.lean ====
section
/-! DEFINITION. Temperature sensors (R383 to R386) and self-calibration (R387 to R396). -/

namespace Sys2Proof.Machine

/-! ### Sensors -/

def sensorCount : Build → Nat
  | .head => 4
  | .tile => 12

/-- The highest of some sensors' readings, among those valid and not in FAULT. -/
def State.hottestOf (s : State) (l : List Nat) : Option Int :=
  match (l.filter s.sensorGood).map (fun n => s.rdI (R.THM_S_T n)) with
  | [] => none
  | t :: r => some (r.foldl max t)

/-- THM_MAX: the highest readings; a maximum with no sensor keeps its last value (R385). -/
def State.showMax (s : State) : State :=
  let s1 := match s.hottestOf (List.range 4) with | some t => s.wrI R.THM_MAX_CTRL t | none => s
  match s.hottestOf ((List.range 8).map (fun i => i + 4)) with | some t => s1.wrI R.THM_MAX_SINK t | none => s1

/-- The two good sensors of a sink die differ by more than 12 °C (R385). -/
def State.dieDiffers (s : State) (d : Nat) : Bool :=
  s.sensorGood (4 + 2 * d) && s.sensorGood (5 + 2 * d) &&
    decide (48 < (s.rdI (R.THM_S_T (4 + 2 * d)) - s.rdI (R.THM_S_T (5 + 2 * d))).natAbs)

def State.showDis (s : State) : State :=
  s.wr R.THM_STATUS_DIS ((List.range 4).foldl (fun n d => if s.dieDiffers d then n + 2 ^ d else n) 0)

/-- HOT of the controller die (R386): ENABLE gates its setting, not its clearing. -/
def State.hotJudge (s : State) : State :=
  let l := ((List.range 4).filter s.sensorGood).map (fun n => s.rdI (R.THM_S_T n))
  let lim : Int := (4 * s.rd R.THM_CFG_HOT_LIM : Nat)
  if l.any (fun t => decide (lim ≤ t)) then (if !s.enabled .THM 0 || s.on R.THM_STATUS_HOT then s else (s.wr R.THM_STATUS_HOT 1).count R.THM_EVT_HOT)
  else if !l.isEmpty && l.all (fun t => decide (t ≤ lim - 20)) then s.wr R.THM_STATUS_HOT 0
  else s

/-- A sensor enters FAULT (R385). -/
def State.sensorFail (s : State) (n : Nat) : State :=
  let s1 := s.setSensor n { s.sensor n with good := 0 }
  if s1.sensorFault n then s1
  else (s1.wr R.THM_STATUS_FAULT (withBit (s1.rd R.THM_STATUS_FAULT) n true)).count R.THM_EVT_FAULT

/-- A good conversion: the reading is taken, unless the sensor stays in FAULT, which the fourth good conversion in a row ends (R384,
R385). -/
def State.sensorRead (s : State) (n : Nat) (t : Int) : State :=
  let x := s.sensor n
  if s.sensorFault n && decide (x.good + 1 < 4) then s.setSensor n { missed := 0, good := x.good + 1 }
  else
    let s1 := (s.setSensor n { missed := 0, good := 0 }).wr R.THM_STATUS_FAULT (withBit (s.rd R.THM_STATUS_FAULT) n false)
    (s1.wrI (R.THM_S_T n) t).wr (R.THM_S_VALID n) 1

/-- One conversion slot of a sensor: no result for the fourth time running, or a result outside -55 °C to 150 °C, is a FAULT. -/
def State.sensorStep (s : State) (n : Nat) (res : Option Int) : State :=
  match res with
  | none =>
    let x := s.sensor n
    let s1 := s.setSensor n { missed := x.missed + 1, good := 0 }
    if 4 ≤ x.missed + 1 then s1.sensorFail n else s1
  | some t => if -220 ≤ t ∧ t ≤ 600 then s.sensorRead n t else (s.setSensor n { s.sensor n with missed := 0 }).sensorFail n

/-- A conversion and what follows from it (R384 to R386, R223); none in Valley. -/
def State.convert1 (s : State) (n : Nat) (res : Option Int) : State :=
  if sensorCount s.build ≤ n ∨ s.pstate = pValley then s
  else
    let s1 := (s.sensorStep n res).showMax.showDis.hotJudge
    match s.build with | .tile => s1.overtemp | .head => s1

/-! ### Calibration: coverage and due (R388, R389) -/

def cpIdle : Nat := 0
def cpWait : Nat := 1
def cpMeasure : Nat := 2
def cpCheck : Nat := 3
def cpApply : Nat := 4

def State.calPhase (s : State) : Nat := s.rd R.CAL_STATE_PHASE

/-- A run is in progress. -/
def State.calRuns (s : State) : Bool := decide (cpMeasure ≤ s.calPhase)

/-- The temperature trigger (R388). -/
def State.calTrigger (s : State) : Bool :=
  s.isTile && s.enabled .CAL 0 && s.on R.CAL_CTRL_AUTO &&
    (List.range 8).any (fun i => s.sensorGood (4 + i) &&
      decide (s.rd R.CAL_CFG_DELTA_T < (s.rdI (R.THM_S_T (4 + i)) - s.rdI (R.CAL_REF_T_T i)).natAbs))

/-- CAL_STATE.DUE: a run is due. -/
def State.calDue (s : State) : Bool := s.calTrigger || (s.isTile && s.on R.CAL_CMD_RUN && !s.calRuns)

/-- CAL_STATE.PHASE as it reads: a due run that has not begun shows WAIT. -/
def State.calShown (s : State) : Nat := if s.calRuns then s.calPhase else if s.calDue then cpWait else cpIdle

def State.halfCovered (s : State) (h : Nat) : Bool := s.running .SCN h && s.running .LMP h

def State.railCovered (s : State) (r : Nat) : Bool :=
  s.running .LOP 0 && (let st := s.rd (R.LOP_RAIL_STATE_STATE r); decide (1 ≤ st ∧ st ≤ 3))

/-- A kind is calibrated (CAL_CFG.KINDS): 0 TDLY, 1 THR, 2 CHOP, 3 DEAD. -/
def State.calKind (s : State) (k : Nat) : Bool := bitOf (s.rd R.CAL_CFG_KINDS) k

/-- The slices of a run, in the order of R387: kind and item. -/
def State.calSlices (s : State) (halves rails : List Nat) : List (Nat × Nat) :=
  (if s.calKind 0 then halves.flatMap (fun h => (List.range 32).map (fun g => (0, 32 * h + g))) else []) ++
  (if s.calKind 1 then halves.flatMap (fun h => (List.range 4).map (fun g => (1, 4 * h + g))) else []) ++
  (if s.calKind 2 then rails.flatMap (fun r => [(2, 2 * r), (2, 2 * r + 1)]) else []) ++
  (if s.calKind 3 then halves.flatMap (fun h => (List.range (s.scan h).rows).map (fun _ => (3, h))) else [])

/-! ### Items (R387) -/

/-- The field of an item. THR items run over the dies, OPEN before SHORT; CHOP items over the rails, high before low. -/
def calField (k i : Nat) : Fld :=
  match k with
  | 0 => tdlyF (i / 32) (i % 32)
  | 1 =>
    let h := i / 4
    (match i % 4 with | 0 => R.LMP_THR0_OPEN h | 1 => R.LMP_THR0_SHORT h | 2 => R.LMP_THR1_OPEN h | _ => R.LMP_THR1_SHORT h)
  | 2 => if i % 2 = 0 then R.LOP_CH_BASE_BASE_HI (i / 2) else R.LOP_CH_BASE_BASE_LO (i / 2)
  | _ => R.LMP_DEAD_NS i

/-- The value an item holds: signed for CHOP. -/
def State.calHeld (s : State) (k i : Nat) : Int := if k = 2 then s.rdI (calField k i) else (s.rd (calField k i) : Nat)

/-- The apply step of a kind, in units of its field. -/
def calStep (k : Nat) : Int := if k = 2 then 4 else 1

/-- The largest change a kind may make (CAL_STEP). -/
def State.calLimit (s : State) (k : Nat) : Nat :=
  s.rd (match k with | 0 => R.CAL_STEP_TDLY | 1 => R.CAL_STEP_THR | 2 => R.CAL_STEP_CHOP | _ => R.CAL_STEP_DEAD)

/-- The plausible window of an item. -/
def calWindow (k i : Nat) : Int × Int :=
  match k with
  | 0 => (0, 63)
  | 1 => if i % 2 = 0 then (5, 40) else (80, 200)
  | 2 => (-2048, 2047)
  | _ => (4, 200)

/-- The key of an item among the results. -/
def calKey (k i : Nat) : Nat := 100 * k + i

/-- The result a measurement gives (R387): the mean onset of a group in taps, an offset in 10 mV, the trim of a comparator in
current LSBs, or the time of a row in whole ns, the longest of which counts. -/
def State.calResult (s : State) (k i : Nat) (m : Int) : Int :=
  match k with
  | 0 => (s.rd R.CAL_TDLY_TGT_TAPS : Nat) - m
  | 1 => (if i % 2 = 0 then (s.rd R.CAL_NOM_OPEN : Nat) else (s.rd R.CAL_NOM_SHORT : Nat)) - m
  | 2 => m
  | _ =>
    let v := m + (s.rd R.CAL_CFG_DEAD_MARGIN : Nat)
    match Sparse.get s.eng.cal.results (calKey k i) with | none => v | some o => max o v

/-! ### The run (R390 to R395) -/

/-- Nothing is held of a run any more; `ended`: the next one starts in a later frame gap (R392, R395). -/
def State.calDrop (s : State) (ended : Bool) : State :=
  s.setCal { Cal.init with opened := s.eng.cal.opened, ended := s.eng.cal.ended || ended }

/-- The run in progress is abandoned (R395). -/
def State.calAbandon (s : State) : State :=
  if s.calRuns then (((s.calDrop false).wr R.CAL_STATE_PHASE cpIdle).wr R.CAL_CMD_RUN 0).count R.CAL_EVT_ABORT else s

/-- A run whose coverage no longer holds is abandoned (R395). -/
def State.calCheck (s : State) : State :=
  if s.calRuns && !(s.eng.cal.halves.all s.halfCovered && s.eng.cal.rails.all s.railCovered && s.enabled .CAL 0) then s.calAbandon else s

/-- The run begins (R391): coverage, slices, and the snapshot of the sensors that are compared (R396). -/
def State.calBegin (s : State) : State :=
  let halves := (List.range 2).filter s.halfCovered
  let rails := (List.range 6).filter s.railCovered
  let slices := s.calSlices halves rails
  let snap := ((List.range 8).filter (fun i => s.sensorGood (4 + i))).map (fun i => (i, s.rd (R.THM_S_T (4 + i))))
  if slices.isEmpty then s
  else
    ((((s.setCal { s.eng.cal with slices := slices, results := [], snap := snap, halves := halves, rails := rails }).wr R.CAL_STATE_PHASE cpMeasure).wr
      R.CAL_PROGRESS_TOTAL slices.length).wr R.CAL_PROGRESS_DONE 0)

/-- The first failing result, in the order of R387: its key and the cause, 1 WINDOW or 2 STEP (R392, R394). -/
def State.calFault (s : State) : List (Nat × Int) → Option (Nat × Nat)
  | [] => none
  | (key, v) :: t =>
    let k := key / 100
    let i := key % 100
    let w := calWindow k i
    if v < w.1 ∨ w.2 < v then some (key, 1)
    else if !s.on R.CAL_STATE_FIRST && decide (s.calLimit k < (v - s.calHeld k i).natAbs) then some (key, 2)
    else s.calFault t

/-- CHECK completes (R392): the run goes on to APPLY, or is rejected and stays due. -/
def State.calJudge (s : State) : State :=
  if s.calPhase ≠ cpCheck then s
  else match s.calFault s.eng.cal.results with
  | none => s.wr R.CAL_STATE_PHASE cpApply
  | some (key, cause) =>
    ((((s.calDrop true).wr R.CAL_STATE_PHASE cpIdle).wr R.CAL_LAST_REJECT_CAUSE cause).wr R.CAL_LAST_REJECT_KIND (key / 100)).wr
      R.CAL_LAST_REJECT_ITEM (key % 100) |>.count R.CAL_EVT_REJECT

/-- The frame gap is open to slices: after the latch instant, in a frame that every covered half emits or blanks; with no half covered, in one that some
half in scan-out emits or blanks, or with no scan-out (R390, log entry 180). -/
def State.sliceTime (s : State) (halves : List Nat) : Bool :=
  let live := (List.range 2).filter s.scnLive
  s.eng.lay.latched && (if halves.isEmpty then live.isEmpty || live.any (fun h => (s.scan h).ok) else halves.all (fun h => (s.scan h).ok))

/-- A measurement slice runs (R390, R391); the last one is followed by CHECK, which takes time (`State.calJudge`). -/
def State.calSlice (s : State) (m : Int) : State :=
  let s0 := s.calCheck
  let s1 := if !s0.calRuns && s0.calDue && s0.running .CAL 0 && !s0.eng.cal.ended && s0.sliceTime ((List.range 2).filter s0.halfCovered) then s0.calBegin else s0
  if s1.calPhase ≠ cpMeasure || !s1.sliceTime s1.eng.cal.halves then s1
  else match s1.eng.cal.slices with
    | [] => s1
    | (k, i) :: t =>
      let x := s1.eng.cal
      let s2 := (s1.setCal { x with slices := t, results := Sparse.put x.results (calKey k i) (s1.calResult k i m), opened := true }).inc R.CAL_PROGRESS_DONE
      if t.isEmpty then s2.wr R.CAL_STATE_PHASE cpCheck else s2

/-- One item's move: at most one apply step toward its result; a first run writes the result (R393, R394). -/
def State.calMove (s : State) (key : Nat) (v : Int) : State :=
  let k := key / 100
  let i := key % 100
  let held := s.calHeld k i
  let next := if s.on R.CAL_STATE_FIRST then v else held + clampI (-(calStep k)) (calStep k) (v - held)
  s.wrI (calField k i) next

/-- APPLY in the first CTL cycle of a slice window (R393): every item moves, once in the gap; when all have reached their results the run
completes. -/
def State.calApply (s : State) : State :=
  let s0 := s.calCheck.calJudge
  if s0.calPhase ≠ cpApply || s0.eng.cal.opened || !s0.sliceTime s0.eng.cal.halves then s0
  else
    let x := s0.eng.cal
    let s1 := forL x.results (fun e a => a.calMove e.1 e.2) (s0.setCal { x with opened := true })
    if x.results.all (fun e => s1.calHeld (e.1 / 100) (e.1 % 100) = e.2) then
      let s2 := forL x.snap (fun e a => a.wr (R.CAL_REF_T_T e.1) e.2) s1
      let tdly := x.halves = [0, 1] && x.results.any (fun e => e.1 / 100 = 0)
      let s3 := if tdly then s2.wr R.CAL_STATE_TDLY_DONE 1 else s2
      (((((s3.calDrop true).wr R.CAL_STATE_PHASE cpIdle).wr R.CAL_STATE_FIRST 0).wr R.CAL_CMD_RUN 0).wr R.CAL_LAST_EPOCH_EPOCH s3.epochNo).count R.CAL_EVT_RUN
    else s1

/-- A write of 1 to CAL_CMD.RUN (R388). -/
def State.calRunGo (s : State) : Except Nat State :=
  if s.calRuns || s.on R.CAL_CMD_RUN then .error rBusy else .ok (s.wr R.CAL_CMD_RUN 1)

end Sys2Proof.Machine
end

