-- ==== Sys2Proof/Machine/PowerOps.lean ====
section
/-! DEFINITION. Power states (R397 to R415): the entry handshake and its refusals, the state image, the wake, the records, and the
supplies (R423, R425). -/

namespace Sys2Proof.Machine

def ppIdle : Nat := 0
def ppEntering : Nat := 1
def ppCommitted : Nat := 2
def ppRollback : Nat := 3
def ppWaking : Nat := 4
def ppRestoring : Nat := 5

def State.pphase (s : State) : Nat := s.rd R.PWR_STATE_PHASE
def State.pstep (s : State) : Nat := s.rd R.PWR_STATE_STEP

/-- The target of the transition in progress. -/
def State.ptarget (s : State) : Nat := s.eng.pwr.target

/-! ### The steps (R405) -/

/-- Reasons of PWR_LAST_REFUSAL. -/
def prDelay : Nat := 1
def prWake : Nat := 2
def prLate : Nat := 3
def prDram : Nat := 4
def prPeer : Nat := 5
def prLink : Nat := 6
def prImage : Nat := 7
def prFault : Nat := 8

/-- The blocks of a step. -/
def stepBlks (n : Nat) : List Blk :=
  match n with
  | 1 => [.SRC] | 2 => [.DMA] | 3 => [.LYR] | 4 => [.PRS] | 5 => [.DRN] | 6 => [.TRV] | 7 => [.SCN] | 8 => [.LMP] | 9 => [.LOP] | 10 => [.CAL]
  | 11 => [.ETH] | 12 => [.FLD] | 13 => [.SPR] | 14 => [.RING, .LNE] | 15 => [.HST] | 16 => [.DRC] | 17 => [.CLK] | _ => []

/-- Whether a step applies to a build and a target; the others are passed. -/
def stepApplies (b : Build) (target n : Nat) : Bool :=
  (match b with | .head => [1, 2, 9, 10, 11, 12, 13, 14, 15, 16, 17] | .tile => [3, 4, 5, 6, 7, 8, 9, 10, 11, 14, 16, 17]).contains n &&
    (target ≠ pShoulder || [1, 2, 3, 4, 5, 7, 14, 16].contains n)

/-- Whether accepting a step parks its block: in Shoulder scan-out, the links and DRAM go on. -/
def stepParks (target n : Nat) : Bool := target ≠ pShoulder || n ≤ 5

def State.stepWins (s : State) (n : Nat) : List (Blk × Nat) :=
  (stepBlks n).flatMap (fun b => (List.range (b.wins s.build)).map (fun w => (b, w)))

/-- Every window of a step is disabled, DRAINED or in FAULT: the step is accepted at once. -/
def State.stepStopped (s : State) (n : Nat) : Bool :=
  (s.stepWins n).all (fun e => let r := s.run e.1 e.2; r = runDisabled || r = runDrained || r = runFault)

def State.stepWedged (s : State) (n : Nat) : Bool := (s.stepWins n).any (fun e => s.run e.1 e.2 = runWedged)

/-- The next step to visit after step `n`. -/
def State.nextStep (s : State) (target n : Nat) : Option Nat :=
  ((List.range 18).filter (fun m => decide (n < m))).find? (fun m => stepApplies s.build target m && !s.parked m && !s.stepStopped m)

/-- What a block answers at its step. -/
inductive StepAnswer where
  | accept
  | delay
  | refuse (reason : Nat)
  deriving DecidableEq, Repr

/-- PWR_IMAGE names an image that lies in the build's DRAM (R402). -/
def State.imageValid (s : State) : Bool :=
  let b := s.rd R.PWR_IMAGE_BASE
  b ≠ 0 && b % 2048 = 0 && decide (b * 4096 + 8388608 ≤ dramSize s.build)

def State.dramBusy (s : State) : Bool := (List.range (channels s.build)).any (fun j => !s.chIdle j || (s.dch j).op.isSome && s.enabled .DRC (j / 2))

/-- The answer of a step's block (R405). -/
def State.stepJudge (s : State) (n : Nat) (a : ParkAnswer) : StepAnswer :=
  let deep := s.ptarget ≠ pShoulder
  if s.stepWedged n then .refuse prFault
  else match n with
    | 1 => if (List.range 16).any (fun k => (s.src k).sends.any (fun e => e.2.active || s.waitsOn e.1 (s.streamOf k))) then .delay else .accept
    | 6 => if (List.range 4).any (fun g => s.genEn g && s.genState g = tsMoving) then .delay else .accept
    | 7 =>
      if !deep && (List.range 2).any (fun h => s.on (R.SCN_FB_CUR_SRC h) || (s.on (R.SCN_FB_CUR_PENDING h) && s.on (R.SCN_FB_SRC h))) then .refuse prDram
      else .accept
    | 11 => if s.eth.egress.isEmpty then .accept else .delay
    | 12 => if s.ship = shCapture || s.ship = shShipping || s.ship = shWait then .delay else .accept
    | 14 => if deep && a.rxActive then .delay else .accept
    | 15 =>
      if s.ptarget = pValley then (if s.pins.perstLow then .accept else .refuse prLink)
      else if s.pins.perstLow || s.rd R.HST_LINK_L1SS = 2 then .accept else .refuse prLink
    | 16 =>
      if s.ptarget = pValley && !s.imageValid then .refuse prImage
      else if a.busy || s.dramBusy then .delay
      else .accept
    | _ => .accept

/-- The block of a step that accepts has work to end first, up to its boundary: the end of the 4 KiB in progress, the next latch instant, the end of the
epoch, the end of the darning run (R405). -/
def State.stepWork (s : State) (n : Nat) : Bool :=
  match n with
  | 2 => s.dmaBusy
  | 3 => s.isTile && s.epcRuns && (List.range 2).any (fun h => s.running .LYR h)
  | 4 => s.isTile && s.epcRuns && (List.range 2).any (fun h => s.running .PRS h)
  | 5 => s.isTile && !s.coreGated && (List.range 2).any (fun h => (s.darn h).running)
  | _ => false

/-! ### The state image (R402) -/

/-- The blocks a state image leaves out. -/
def imaged (b : Blk) : Bool := match b with | .CLK => false | .BOOT => false | .DRC => false | .PWR => false | _ => true

def allBlks : List Blk :=
  [.SYS, .CLK, .BOOT, .PWR, .CAL, .CRN, .FLD, .MGT, .HST, .DMA, .ETH, .SPR, .LNE, .RING, .SRC, .DRC, .PRS, .LYR, .DRN, .SCN, .LMP, .LOP,
   .TRV, .EPC, .THM, .GPIO]

/-- The dwords of a row in one window that a state image holds: the RW, LV and HU fields of every instance. -/
def Row.imagePlaces (r : Row) (b : Blk) (bd : Build) (w : Nat) : List (List Fld) :=
  let fl := r.flds.filter (fun f => f.cls.folded)
  if fl.isEmpty || !r.onBuild bd || (r.first && w ≠ 0) then []
  else (List.range (r.insts b bd)).flatMap (fun i => (List.range r.n2).map (fun j => fl.map (fun f => f.shift (16384 * w + i * r.s1 + j * r.s2))))

/-- Every page a state image holds, in window-map order. -/
def imagePages (bd : Build) : List (Blk × Nat) :=
  (allBlks.filter imaged).flatMap (fun b => (List.range (b.wins bd)).map (fun w => (b, w)))

/-- The dwords of the image's pages. -/
def imagePlaces (bd : Build) : List (List Fld) := (imagePages bd).flatMap (fun p => p.1.rows.flatMap (fun r => r.imagePlaces p.1 bd p.2))

/-- The memory of the image: space, offset and length of each region of R87, the darn tables last. -/
def imageMems (bd : Build) : List (Space × Nat × Nat) :=
  match bd with
  | .head => [(.window, 0x100000, 0x10000)]
  | .tile => [(.window, 0x100000, 0x1A000), (.window, 0x120000, 0x9000), (.window, 0x180000, 0x40000),
              (.darn 0 0, 0, darnImage), (.darn 0 1, 0, darnImage), (.darn 1 0, 0, darnImage), (.darn 1 1, 0, darnImage)]

/-- The CUR bits of the darn tables. -/
def State.imageCur (s : State) : Nat := match s.build with | .head => 0 | .tile => s.rd (R.DRN_BANK_CUR 0) + 2 * s.rd (R.DRN_BANK_CUR 1)

/-- The image without its CRC; its layout is the model's. The entries of the destination table are LV fields of the ETH page (R70). -/
def State.imageBody (s : State) : List Byte :=
  (imagePlaces s.build).flatMap (fun l => natLE (s.foldDword l) 4) ++ s.dtBytes ++ (imageMems s.build).flatMap (fun m => s.rdBytes m.1 m.2.1 m.2.2) ++ natLE s.imageCur 4

def imageLen (bd : Build) : Nat := 4 * (imagePlaces bd).length + 12288 + (imageMems bd).foldl (fun n m => n + m.2.2) 0 + 4

def State.imageAt (s : State) : Nat := s.rd R.PWR_IMAGE_BASE * 4096

/-- The image is written (R402). -/
def State.imageWrite (s : State) : State :=
  let body := s.imageBody
  let s1 := s.wrBytes .dram s.imageAt (body ++ natLE (crc32c body) 4)
  s1.setPwr { s1.eng.pwr with imaged := true }

/-- An image was written since power-on, and its CRC is correct (R403). -/
def State.imageOk (s : State) : Bool :=
  s.eng.pwr.imaged && crc32c (s.rdBytes .dram s.imageAt (imageLen s.build)) = s.rdLE .dram (s.imageAt + imageLen s.build) 4

/-! ### Parking and restarting (R405, R407) -/

/-- The transmit directions of the ring or the Spur ports go to SLEEP, or to OFF for Valley; the receive directions follow once they are in
electrical idle (R302, R405). -/
def State.sleepPorts (s : State) (spur rx : Bool) : State :=
  let ps := if s.ptarget = pValley then 3 else 2
  forL ((allPorts s.build).filter (fun id => isSpur id = spur && s.portOn id)) (fun id a => if rx then a.setLanePs id ps ps else a.setLaneTx id ps) s

/-- Step 17: the PLLs stop and the device runs on the RC oscillator when it runs again; only a full reset leaves FALLBACK, which stays (R94). -/
def State.clkPark (s : State) : State :=
  let fs := [R.CLK_SEL_CUR, R.CLK_PLL_ROOT_LOCK, R.CLK_PLL_DRAM_LOCK, R.CLK_PLL_ETH_LOCK, R.CLK_PLL_LANE_LOCK]
  let s1 := s.setPwr { s.eng.pwr with kept := fs.map (fun f => (f.key, s.rd f)) }
  ((((({ s1 with clk := { switching := none } }).wr R.CLK_SEL_CUR (if s.rd R.CLK_SEL_CUR = curFallback then curFallback else curRc)).wr R.CLK_PLL_ROOT_LOCK 0).wr R.CLK_PLL_DRAM_LOCK 0).wr
    R.CLK_PLL_ETH_LOCK 0).wr R.CLK_PLL_LANE_LOCK 0

/-- What a rollback restores of the clocks. -/
def State.clkRestart (s : State) : State :=
  let fs := [R.CLK_SEL_CUR, R.CLK_PLL_ROOT_LOCK, R.CLK_PLL_DRAM_LOCK, R.CLK_PLL_ETH_LOCK, R.CLK_PLL_LANE_LOCK]
  forL fs (fun f a => match Sparse.get s.eng.pwr.kept f.key with | some v => a.wr f v | none => a) s

/-- Every rail's chopper is looked at again. -/
def State.chopAll (s : State) : State := match s.build with | .tile => forN 6 (fun r a => a.chopSync r) s | .head => s

/-- PWR_PARKED shows the step of a block that has accepted (R405). -/
def State.stepMark (s : State) (n : Nat) : State :=
  if stepParks s.ptarget n then s.wr R.PWR_PARKED_STEPS (withBit (s.rd R.PWR_PARKED_STEPS) (n - 1) true) else s

/-- A step's block parks at its boundary; a calibration run that covered it ends (R395). Step 14 is done when every receive direction is in electrical
idle, so no lane detects a signal then. -/
def State.stepPark (s : State) (n : Nat) : State :=
  let s1 := s.stepMark n
  let s2 : State := match n with
    | 9 => s1.chopAll
    | 10 => s1.calAbandon
    | 13 => s1.sleepPorts true false
    | 14 =>
      if s.ptarget = pShoulder then s1
      else let t := (s1.sleepPorts false true).sleepPorts true true
           { t with pins := { t.pins with detect := 0 } }
    | 16 =>
      let t := forN (channels s.build) (fun j a => a.selfEnter j) s1
      if s.ptarget = pValley then
        (forN (channels s.build) (fun j a => if a.chState j = dcSelf then (a.wr (R.DRC_CH_STATE_STATE j) dcDeep).emit (.dramCmd j "DSM" 0) else a) t.imageWrite)
      else t
    | 17 => s1.clkPark
    | _ => s1
  s2.calCheck

/-- The transmit directions of an enabled port return to ACTIVE: those that were up leave SLEEP with a burst of 8 marker codewords and by stages 6 to 8, their
port TRAINING till then; from OFF, and where bring-up had not ended, it is done in full. A FAILED port goes on waiting. The receive directions follow the
far end: one that sleeps is ACTIVE once its lane detects a signal (R282, R302). -/
def State.wakeLanes (s : State) (id : Nat) : State :=
  let was (n : Nat) : Bool := (s.portLanes id).any (fun k => s.rd (R.LNE_STATE_TXPS k) = n)
  let s1 := forL (s.portLanes id) (fun k a => if bitOf s.pins.detect k then a.rxWakes k else a) (s.setLaneTx id 0)
  if !(was 2 || was 3) || s.allAt id 12 then s1
  else if was 3 || !s.allAt id 11 then (if s.portState id = 2 then s1.portDown id 1 else s1).startTraining id
  else
    let s2 := ((s1.wireMarkers id).setStage id 6).wr (portStF id) (s.shownTraining id)
    s2.setPort id { s2.port id with waking := true }

/-- A channel leaves deep sleep for self-refresh. -/
def State.deepExit (s : State) (j : Nat) : State :=
  if s.chState j = dcDeep then (s.wr (R.DRC_CH_STATE_STATE j) dcSelf).emit (.dramCmd j "DSX" 0) else s

/-- Every parked block restarts from its boundary, in the reverse order of the steps: an EPC whose clock stood in Saddle starts anew, channels leave deep sleep
and self-refresh, lanes leave SLEEP and QUIET, a held COMMIT starts its capture, the choppers switch again, scan-out fetches what the next frame shows
first, and the ingest channels go on (R207, R405, R407, R408, R412). -/
def State.unparkAll (s : State) : State :=
  let slept := s.parked 17 && s.pstate = pSaddle
  let s1 := (s.wr R.PWR_PARKED_STEPS 0).wr R.PWR_STATE_STATE pSummit
  let s2 := if slept then s1.epcResume else s1
  let s3 := forN (channels s2.build) (fun j a => let b := a.deepExit j; if b.enabled .DRC (j / 2) then b.selfExit j else b) s2
  let s4 := forL ((allPorts s3.build).filter (fun id => s3.portOn id)) (fun id a => a.wakeLanes id) s3
  let s5 := if s4.foldActive && s4.ship = shIdle && s4.on R.FLD_STATE_HELD then (s4.wr R.FLD_STATE_HELD 0).startCapture else s4
  let s6 := s5.chopAll
  let s7 := if s6.isTile && s.parked 7 && s6.eng.lay.latched then (s6.gapFetch 0).gapFetch 1 else s6
  s7.dmaIssue.dramSlots.keepDark s

/-- A refused entry: the refusal is recorded and counted, and the device rolls back to Summit (R407). -/
def State.pwrRefuse (s : State) (typ reason step : Nat) : State :=
  let s1 := ((((s.wr R.PWR_LAST_REFUSAL_TYPE typ).wr R.PWR_LAST_REFUSAL_REASON reason).wr R.PWR_LAST_REFUSAL_STEP step).wr
    R.PWR_LAST_REFUSAL_TARGET s.ptarget).count R.PWR_EVT_REFUSE
  let s0 := s1.setPwr { s1.eng.pwr with winding := false }
  let s2 := if s0.parked 17 then s0.clkRestart else s0
  let s3 := (((s2.unparkAll).wr R.PWR_STATE_STEP 0).wr R.PWR_CMD_GO 0).wr R.PWR_STATE_PHASE ppRollback
  s3.setPwr { s3.eng.pwr with refusedAt := some s3.nowNs, seen := none, kept := [] }

/-- The level wake sources that are active and enabled, each with its lane (R409): signal detect on a lane of an enabled port; on the head CLKREQ_N low
in L1.2, or for Valley PERST_N high; the WAKE pad at the polarity of PIN_POL. During an entry the state that counts is its target. -/
def State.wakeActive (s : State) : List (WakeSource × Nat) :=
  let st := if s.pphase = ppEntering then s.ptarget else s.pstate
  let lanes := (List.range (laneCount s.build)).filter (fun k => bitOf s.pins.detect k && (allPorts s.build).any (fun id => s.portOn id && (s.portLanes id).contains k))
  let host := if st = pValley then !s.pins.perstLow else s.pins.clkreqLow && s.rd R.HST_LINK_L1SS = 2
  (if s.on R.PWR_WAKE_EN_RIDGE then lanes.map (fun k => (.ridge true, k)) else []) ++
    (if !s.isTile && s.on R.PWR_WAKE_EN_PCIE && host then [(.pcie true, 0)] else []) ++
    (if s.on R.PWR_WAKE_EN_PIN && s.pins.wakeHigh = s.on R.PWR_WAKE_EN_PIN_POL then [(.pin s.pins.wakeHigh, 0)] else [])

/-- The level wake source that counts as the first seen (R406, R409): the one seen first while it is active, else one of the active ones; which of several
that are seen at once is a free choice (log entry 159). -/
def State.wakeSeen (s : State) : Option (WakeSource × Nat) :=
  match s.eng.pwr.seen.filter (fun e => s.wakeActive.contains e) with
  | some e => some e
  | none => s.wakeActive[s.freeVal % s.wakeActive.length]?

/-- The last step is done: the entry commits, or an active wake source refuses it (R406). -/
def State.pwrCommit (s : State) : State :=
  if s.wakeSeen.isSome then s.pwrRefuse 4 prWake 0
  else
    let s1 := (((((s.count R.PWR_EVT_ENTRY).wr R.PWR_WAKE_EPOCH_EPOCH s.epochNo).wr R.PWR_STATE_STATE s.ptarget).wr R.PWR_STATE_STEP 0).wr
      R.PWR_STATE_PHASE ppCommitted).wr R.PWR_CMD_GO 0
    let s2 := s1.setPwr { s1.eng.pwr with armed := false, seen := none, kept := [], up := false, tries := 0, gap := false, winding := false }
    if s.ptarget ≠ pValley then s2
    else
      let s3 := ({ s2 with pins := { s2.pins with railEn := false } }).emit (.pin "RAIL_EN" false)
      if s.gpioOe = 0 then s3 else s3.gpioShow

/-- The steps between two whose blocks are wholly stopped: they accept at once, so that a page of theirs that is enabled later stays parked (R397, R405). -/
def State.passStopped (s : State) (n m : Nat) : State :=
  forL ((List.range 18).filter (fun k => decide (n < k ∧ k < m) && stepApplies s.build s.ptarget k && s.stepStopped k)) (fun k a => a.stepMark k) s

/-- Go on to the next step, or commit. -/
def State.pwrAdvance (s : State) (n : Nat) : State :=
  match s.nextStep s.ptarget n with
  | some m => (s.passStopped n m).wr R.PWR_STATE_STEP m
  | none => (s.passStopped n 18).pwrCommit

/-- A write of 1 to GO (R404); in Saddle one has an effect after the wake (R412), and Stranded is left by a full reset alone, so a GO has no effect there (R411). -/
def State.pwrGo (s : State) (target : Nat) : Except Nat State :=
  let held := match s.eng.pwr.refusedAt with
    | none => false
    | some t => decide (s.nowNs < t + 10000000 * s.rd R.PWR_CFG_HOLDOFF)
  if s.pphase ≠ ppIdle then .error rBusy
  else if held then .error 16
  else if target = s.pstate || s.on R.PWR_STATE_STRANDED then .ok s
  else if s.cpuStopped then .ok s
  else if target = pSummit then .ok (s.unparkAll)
  else if s.pstate = pSaddle ∨ s.pstate = pValley then .ok s
  else
    let s1 := (s.setPwr { s.eng.pwr with target := target, seen := none, armed := false, winding := false }).wr R.PWR_CMD_GO 1
    .ok ((s1.wr R.PWR_STATE_PHASE ppEntering).pwrAdvance 0)

/-- The boundary of a step's block: one that has accepted parks, and the next step is visited (R405). -/
def State.windDone (s : State) (n : Nat) : State :=
  if s.pphase = ppEntering && s.eng.pwr.winding && s.pstep = n then ((s.setPwr { s.eng.pwr with winding := false }).stepPark n).pwrAdvance n else s

/-- The ingest of the 4 KiB in progress has ended: step 2 parks (R405). -/
def State.dmaWound (s : State) : State := if s.dmaBusy then s else s.windDone 2

/-- The block of the step in progress answers (R405); one that accepts in the middle of its work parks at its boundary. -/
def State.blockPark (s : State) (a : ParkAnswer) : State :=
  let n := s.pstep
  if s.pphase ≠ ppEntering ∨ n = 0 then s
  else match s.stepJudge n a with
    | .accept => if s.stepWork n then s.setPwr { s.eng.pwr with winding := true } else ((s.setPwr { s.eng.pwr with winding := false }).stepPark n).pwrAdvance n
    | .delay => if n = 14 then s.sleepPorts false false else s
    | .refuse r => s.pwrRefuse (((stepBlks n).headD .PWR).typ) r n

/-- The frames a side port still buffers for egress are dropped and counted (R405). -/
def State.dropEgress (s : State) : State :=
  let s1 := forN 2 (fun p a => a.bump (R.ETHP_TX_DROP p) (a.eth.egress.filter (fun e => e.1 = p)).length) s
  { s1 with eth := { s1.eth with egress := [] } }

/-- The delay limit of the step in progress ends. -/
def State.delayLimit (s : State) : State :=
  let n := s.pstep
  if s.pphase ≠ ppEntering then s
  else if n = 11 then (if s.stepJudge n { rxActive := false, busy := false } = .delay then ((s.dropEgress).stepPark n).pwrAdvance n else s)
  else if n = 14 then (if s.ptarget = pShoulder then s else s.pwrRefuse Blk.RING.typ prPeer n)
  else if n = 16 then s.pwrRefuse Blk.DRC.typ prDelay n
  else if s.stepJudge n { rxActive := false, busy := false } = .delay then s.pwrRefuse (((stepBlks n).headD .PWR).typ) prDelay n
  else s

/-- A block is enabled while its step has passed: it refuses (R408). -/
def State.lateEnable (s : State) (b : Blk) : State :=
  let n := parkStep b
  if s.pphase = ppEntering && n ≠ 0 && decide (n < s.pstep) && stepApplies s.build s.ptarget n then s.pwrRefuse b.typ prLate n else s

/-! ### Wake (R409 to R413) -/

def wakeCode : WakeSource → Nat
  | .mgt => 1
  | .ridge _ => 2
  | .pcie _ => 3
  | .pin _ => 4

/-- The island raises RAIL_EN, or closes the switches. -/
def State.wakePower (s : State) : State :=
  if s.rd R.PWR_WAKE_REC_FROM = pValley then ({ s with pins := { s.pins with railEn := true } }).emit (.pin "RAIL_EN" true)
  else s.emit (.pin "SWITCHES" true)

/-- A wake begins: its source is recorded (R409, R410). -/
def State.wakeStart (s : State) (w : WakeSource) (lane : Nat) : State :=
  let s1 := ((((s.wr R.PWR_WAKE_REC_SOURCE (wakeCode w)).wr R.PWR_WAKE_REC_LANE (match w with | .ridge _ => lane | _ => 0)).wr
    R.PWR_WAKE_REC_RETRIES 0).wr R.PWR_WAKE_REC_FROM s.pstate).wr R.PWR_WAKE_REC_STRANDED 0
  let stretch := w = .mgt && s.pstate = pValley
  let s2 := (s1.wr R.PWR_STATE_PHASE ppWaking).setPwr { s1.eng.pwr with seen := none, armed := false, tries := 0, gap := false, up := false, stretch := s1.eng.pwr.stretch || stretch }
  s2.wakePower

/-- The choice among several active sources has been made. -/
def State.wakePicked (s : State) : State := if 1 < s.wakeActive.length then s.useFree else s

/-- A level wake source that is seen wakes the device: to Summit from Shoulder, else by a wake (R406, R409). -/
def State.wakeBy (s : State) (e : Option (WakeSource × Nat)) : State :=
  match e with
  | none => s
  | some (w, lane) =>
    let s1 := s.wakePicked
    if s.pstate = pShoulder then s1.unparkAll
    else if (s.pstate = pSaddle || s.pstate = pValley) && s.eng.pwr.armed then s1.wakeStart w lane
    else s

/-- The level wake sources are looked at: during an entry the first active one is noted, later it wakes the device; Stranded acts on none (R406, R409, R411). -/
def State.wakeLook (s : State) : State :=
  if s.on R.PWR_STATE_STRANDED then s
  else if s.pphase = ppEntering || s.pphase = ppCommitted then s.wakePicked.setPwr { s.eng.pwr with seen := s.wakeSeen }
  else if s.pphase = ppIdle then s.wakeBy s.wakeSeen
  else s

/-- The edge of an address match on the management port (R361, R406, R408). -/
def State.wakeEdge (s : State) : State :=
  if !s.on R.PWR_WAKE_EN_MGT || s.on R.PWR_STATE_STRANDED then s
  else if s.pphase = ppCommitted then (if s.pstate = pShoulder then s else s.count R.PWR_EVT_EDGE_LOST)
  else if s.pphase = ppIdle && (s.pstate = pSaddle || s.pstate = pValley) && s.eng.pwr.armed then s.wakeStart .mgt 0
  else s

/-- A wake source's level changes, or its edge comes (R409). -/
def State.wakeEvent (s : State) (w : WakeSource) (lane : Nat) : State :=
  match w with
  | .mgt => s.wakeEdge
  | .ridge d => if lane < laneCount s.build then ({ s with pins := { s.pins with detect := withBit s.pins.detect lane d } }).wakeLook else s
  | .pcie low => if s.isTile then s else ({ s with pins := { s.pins with clkreqLow := low } }).wakeLook
  | .pin high => ({ s with pins := { s.pins with wakeHigh := high } }).wakeLook

/-- From the seventh CTL cycle after the commit the wake logic is armed: a level source that is active is seen at once (R406). -/
def State.wakeArm (s : State) : State :=
  if s.pphase ≠ ppCommitted then s
  else
    let e := s.wakeSeen
    ((s.wr R.PWR_STATE_PHASE ppIdle).setPwr { s.eng.pwr with armed := true, seen := none }).wakeBy e

/-- The registers of the always-on island and what it keeps of BOOT and CLK over Valley (R401). -/
def islandKeeps (k : Nat) : Bool :=
  k / 32 / 16384 = 3 || [R.BOOT_STRAPS_ADDR, R.BOOT_STRAPS_HALF, R.BOOT_STRAPS_ROLE, R.BOOT_RESET_CAUSE_CAUSE, R.BOOT_RESET_CAUSE_WDOG_RUN, R.CLK_REF_SRC].any (fun f => f.key = k)

/-- The memories a wake from Valley keeps: the store and DRAM (R401). -/
def valleyKeeps (k : Nat) : Bool := decide (1099511627776 ≤ k ∧ k < 3 * 1099511627776)

/-- Kryty starts after Valley: outside the island, the effect of a full reset. The boot ROM runs from ROM_START on the reference that the island
kept, writes the key slots, which opens the bus, and starts the root PLL (R103, R401, R410). -/
def State.valleyUp (s : State) : State :=
  let f := s.fullReset .cmd
  let g := { f with
    regs := forL (s.regs.filter (fun (e : Nat × Nat) => islandKeeps e.1)) (fun (e : Nat × Nat) (l : List (Nat × Nat)) => Sparse.put l e.1 e.2)
      (f.regs.filter (fun (e : Nat × Nat) => !islandKeeps e.1))
    mem := s.mem.filter (fun c => valleyKeeps c.1) }
  let g1 := ((((g.wr R.PWR_STATE_STATE pSummit).wr R.PWR_STATE_STEP 0).wr R.PWR_STATE_IMAGE_OK 0).wr R.PWR_PARKED_STEPS 0).wr R.PWR_CMD_RESTORE 0
  let g2 := (g1.setPwr { s.eng.pwr with up := true, gap := false, armed := false }).wr R.PWR_STATE_PHASE ppWaking
  if g2.boot.phase = .detect then (g2.bootKeys).bootPll else g2

/-- RAIL_PG rises, or the retention domains report ready, with or without the RC oscillator (R410, R423, R425). A power-on reset follows the return of
a RAIL_PG that fell outside Valley; after a full reset out of Valley or Stranded the boot goes on with RESET_N. -/
def State.railRise (s : State) (rc : Bool) : State :=
  if s.pphase = ppWaking then
    if s.eng.pwr.up || s.eng.pwr.gap then s
    else
      let valley := s.rd R.PWR_WAKE_REC_FROM = pValley
      let s1 := if valley then { s with pins := { s.pins with railPg := true } } else s
      if !rc then s1
      else if valley then s1.valleyUp
      else s1.setPwr { s1.eng.pwr with up := true }
  else if s.pins.railPg then s
  else
    let s1 := { s with pins := { s.pins with railPg := true } }
    if s.pstate = pValley || !s.boot.porDue then s1
    else
      let s2 := s1.fullReset .por
      { s2 with boot := { s2.boot with phase := .held } }

/-- The wait for RAIL_PG at power-up (R423). -/
def State.poweringUp (s : State) : Bool := s.boot.phase = .held && !s.pins.railPg && s.pphase ≠ ppWaking && s.pstate ≠ pValley

/-- A wake attempt, or the wait at power-up, exceeds its time: the rails drop for 1 ms, or after the last attempt the device is
Stranded (R410, R411, R423). -/
def State.wakeTimeout (s : State) : State :=
  let p := s.eng.pwr
  let cold := s.poweringUp && s.pins.railEn
  if !cold && (s.pphase ≠ ppWaking || p.up || p.gap) then s
  else
    let valley := cold || s.rd R.PWR_WAKE_REC_FROM = pValley
    let s1 := (s.count R.PWR_EVT_WAKE_RETRY).wr R.PWR_WAKE_REC_RETRIES (min 3 (p.tries + 1))
    let s2 := (if valley then { s1 with pins := { s1.pins with railEn := false } } else s1).emit (.pin (if valley then "RAIL_EN" else "SWITCHES") false)
    if s.rd R.PWR_CFG_RETRIES ≤ p.tries then
      let s3 := if valley then s2 else ({ s2 with pins := { s2.pins with railEn := false } }).emit (.pin "RAIL_EN" false)
      ((((s3.setPwr { p with tries := p.tries + 1 }).wr R.PWR_STATE_STATE pValley).wr R.PWR_STATE_STRANDED 1).wr R.PWR_WAKE_REC_STRANDED 1).wr
        R.PWR_STATE_PHASE ppIdle
    else s2.setPwr { p with tries := p.tries + 1, gap := true }

/-- The 1 ms gap ends and the next attempt starts. -/
def State.wakeRetry (s : State) : State :=
  if !s.eng.pwr.gap then s
  else
    let s1 := s.setPwr { s.eng.pwr with gap := false }
    if s.pphase = ppWaking then s1.wakePower
    else if s.poweringUp then ({ s1 with pins := { s1.pins with railEn := true } }).emit (.pin "RAIL_EN" true)
    else s1

/-! ### Supplies (R423, R425) -/

/-- VDD_IO has been in range for 100 us: RAIL_EN goes high. -/
def State.railAssert (s : State) : State :=
  if s.pins.railEn || s.pstate = pValley then s else ({ s with pins := { s.pins with railEn := true } }).emit (.pin "RAIL_EN" true)

/-- RAIL_PG falls. Outside Valley the sinks, rows and gates go off, and the device is held until it returns and a power-on reset follows (R425). -/
def State.railFall (s : State) : State :=
  if !s.pins.railPg then s else
  let s1 := { s with pins := { s.pins with railPg := false } }
  if s.pstate = pValley then s1
  else
    let s2 := forN 2 (fun h a => a.setLamp h { a.lamp h with row := none, pulses := [] }) s1
    let s3 := forN 6 (fun r a => (a.setChop r { a.chop r with phase := 0 }).wr (R.LOP_CH_PERIOD_NS r) 0) s2
    let s4 := (((s3.emit (.pin "SINKS" false)).emit (.pin "ROWS" true)).emit (.pin "GATES" false)).wr R.PWR_STATE_PHASE ppIdle
    { s4 with boot := { s4.boot with phase := .held, porDue := true }, bus := { s4.bus with isOpen := false } }

/-! ### Time (R412, R414) -/

def resF (st : Nat) : Fld :=
  match st with | 0 => R.PWR_RES_SUMMIT | 1 => R.PWR_RES_SHOULDER | 2 => R.PWR_RES_SADDLE | _ => R.PWR_RES_VALLEY

/-- The residency counters of a lane's directions advance, one each, by `n` ns (R303). -/
def State.laneTime (s : State) (k n : Nat) : State :=
  let tx := match s.rd (R.LNE_STATE_TXPS k) with | 0 => R.LNE_RES_TX_ACTIVE k | 1 => R.LNE_RES_TX_QUIET k | 2 => R.LNE_RES_TX_SLEEP k | _ => R.LNE_RES_TX_OFF k
  let rx := match s.rd (R.LNE_STATE_RXPS k) with | 0 => R.LNE_RES_RX_ACTIVE k | 1 => R.LNE_RES_RX_QUIET k | 2 => R.LNE_RES_RX_SLEEP k | _ => R.LNE_RES_RX_OFF k
  (s.bump tx n).bump rx n

/-- The CTL clock in ns: 250 MHz on the root PLL, 200 MHz on the RC oscillator (R90, R92). -/
def State.ctlNs (s : State) : Nat := if s.rd R.CLK_SEL_CUR = curRoot then 4 else 5

/-- The loop engine's counter runs with the CTL clock while the LOP page is RUNNING (R243, R397). -/
def State.loopClock (s : State) : State :=
  if s.enabled .LOP 0 && s.run .LOP 0 = runRunning && s.pstate ≠ pSaddle && s.pstate ≠ pValley then s.setLoop { s.eng.loop with c := s.eng.loop.c + 1 } else s

/-- The GPIO pads are sampled on every CTL clock (R420), which stands in Saddle and Valley: what drives them from outside is open, a free value. -/
def State.gpioSample (s : State) : State :=
  if s.pstate = pSaddle || s.pstate = pValley then s else { s with pins := { s.pins with gpioIn := Config.gpioPads s.nowNs % 256 } }

/-- One CTL clock without a command: time passes, the state in force is counted in whole microseconds and every lane's in
ns, the watchdog's count runs, a hardware update of this cycle and an update of the boot record are over, the loop engine's counter runs, the GPIO pads are
sampled, the DRAM channels have their command slots (R365), and a transition that has ended shows IDLE. -/
def State.tick (s : State) : State :=
  let n := s.ctlNs
  let t := s.nowNs + n
  let s0 := { s with nowNs := t, wdog := { s.wdog with leftNs := if s.wdog.running then s.wdog.leftNs - n else s.wdog.leftNs },
                     bus := { s.bus with hw := [] }, boot := { s.boot with writing := none } }
  let s1 := if s.pstate = pValley then s0 else forN (laneCount s.build) (fun k a => a.laneTime k n) s0
  let s2 := if s.nowNs / 1000 < t / 1000 then s1.count (resF s1.pstate) else s1
  let s3 := s2.calJudge.loopClock.gpioSample.dramSlots
  if s3.pphase = ppRollback || (s3.pphase = ppWaking && s3.eng.pwr.up) then s3.wr R.PWR_STATE_PHASE ppIdle else s3

/-- PWR_ASSIST.PROFILE (R398); none is in force in Valley. -/
def State.assist (s : State) : Nat :=
  if s.pstate = pValley then Config.free s.freeCtr % 4
  else if s.pstate = pSaddle then 3
  else if s.pstate = pSummit && (match s.hottestOf (List.range 4) with | some t => decide (t < -40) | none => false) then 1
  else 0

/-- A write of 1 to RESTORE: a configuration-check pass that runs is void (R403). -/
def State.restoreGo (s : State) : Except Nat State :=
  if s.pphase ≠ ppIdle ∨ s.on R.PWR_STATE_STRANDED ∨ !((List.range (Blk.DRC.wins s.build)).all (fun w => s.enabled .DRC w)) then .error rBusy
  else .ok (({ s with cck := { s.cck with dirty := true } }.wr R.PWR_CMD_RESTORE 1).wr R.PWR_STATE_PHASE ppRestoring)

/-- The level a GPIO pad shows (R420): its OUT bit while it is an output, else what stood on it from outside when it was last sampled. -/
def State.gpioIn (s : State) : Nat :=
  let oe := s.gpioOe
  (List.range 8).foldl (fun n i => if (if bitOf oe i then bitOf (s.rd R.GPIO_OUT_OUT) i else bitOf s.pins.gpioIn i) then n + 2 ^ i else n) 0

end Sys2Proof.Machine
end

