-- ==== Sys2Proof/Machine/Views.lean ====
section
/-! DEFINITION. What software reads: the live and derived fields, a dword of a register, a dword of the memory window, and the bus
errors of a request (R53 to R58, R74, R80, R86, R87). -/

namespace Sys2Proof.Machine

/-! ### Live fields -/

/-- The two-bit states of 16 sinks of the half, from sink 16 j, in the row ROWSEL names (LMP_LAMP_STATE, R226). -/
def State.lampStates (s : State) (h j : Nat) : Nat :=
  (List.range 16).foldr (fun i n => (s.lampRec h (16 * j + i) (s.rd (R.LMP_CTRL_ROWSEL h))).st % 4 * 4 ^ i + n) 0

/-- SCN_POS: the slot in progress (0 before the first), S x N in the frame gap (R194, R195, R196). Which subframe and row it shows in the gap
is open: free values. -/
def State.scnSlot (s : State) (h : Nat) : Nat := if (s.scan h).gap then (s.scan h).slots else (s.scan h).next - 1

/-- Fields of a half's LMP and SCN pages that are live. -/
def State.seeHalf (s : State) (h : Nat) (f : Fld) : Option Nat :=
  if f = R.LMP_STATE_BLK h then some (s.lmpBlk h)
  else if f = R.LMP_STATUS_CLAMP h then some (b2n (s.lmpClamp h))
  else if f = R.LMP_STATUS_PROBE_NOROOM h then some (b2n (!s.probeRoom h))
  else if f = R.LMP_STATUS_DEAD_CLIP h then some (b2n (decide (s.deadWindow h - 16 < s.rd (R.LMP_DEAD_NS h))))
  else if inRange f.addr (R.LMP_LAMP_STATE_STATES h 0).addr 128 then some (s.lampStates h ((f.addr - (R.LMP_LAMP_STATE_STATES h 0).addr) / 4))
  else if f = R.SCN_POS_SLOT h then some (s.scnSlot h)
  else if f = R.SCN_POS_SUBF h then some (if (s.scan h).gap then s.freeVal % 16 else s.scnSlot h / (s.scan h).rows)
  else if f = R.SCN_POS_ROW h then some (if (s.scan h).gap then s.freeVal / 16 % 64 else (s.scan h).rowOf (s.scnSlot h))
  else if f = R.SCN_POS_GAP h then some (b2n (s.scan h).gap)
  else none

/-- The value of a field as software reads it. LEAD and DIS_LEAD read 0 while no vote is taken (R312, R313). DEDUCED, log entry 35. -/
def State.see (s : State) (f : Fld) : Nat :=
  if f = R.CRN_VOTE_LEAD then (if s.isTile && s.bothClaim then s.leadVote else 0)
  else if f = R.CRN_VOTE_LEAD_VALID then (if s.isTile then b2n s.bothClaim else 0)
  else if f = R.CRN_VOTE_DIS_LEAD then (if s.isTile then b2n (s.bothClaim && !s.leadUnanimous) else 0)
  else if f = R.FLD_AGE_MS then s.foldAge
  else if f = R.ETH_PTP_TIME_NS then s.ptpNs
  else if f = R.CAL_STATE_PHASE then s.calShown
  else if f = R.CAL_STATE_DUE then b2n s.calDue
  else if f = R.PWR_ASSIST_PROFILE then s.assist
  else if f = R.GPIO_IN_IN then s.gpioIn
  else match s.seeHalf 0 f with
    | some v => v
    | none => match s.seeHalf 1 f with
      | some v => v
      | none => s.view f

/-! ### Bus errors -/

/-- A page whose power domain is off or in retention: in Saddle and Valley until the wake has brought Kryty up, all but the
always-on island's page and, outside Valley and Stranded, the management port's (R361, R397, R401). None is in Shoulder, though the SRAM of parked
blocks is in retention there (R398). DESIGN CHOICE, log entry 190. -/
def State.pageOff (s : State) (b : Blk) : Bool :=
  s.cpuStopped && !(b = .PWR || (b = .MGT && s.pstate = pSaddle && !s.on R.PWR_STATE_STRANDED))

/-- Before the boot ROM opens the bus, only the management port reads, and only SYS, CLK and BOOT (R107); in Stranded it serves the PWR page, also where
the bus was never opened (R411); in RECOVERY a head limits BAR0 to SYS, CLK, BOOT and MGT (R105). -/
def State.busShut (s : State) (path : Path) (b : Blk) (write : Bool) : Bool :=
  (!s.bus.isOpen && !(path = .mgt && !write && (b = .SYS || b = .CLK || b = .BOOT)) && !(path = .mgt && b = .PWR && s.on R.PWR_STATE_STRANDED)) ||
    (path = .pcie && s.stage = stRecovery && !(b = .SYS || b = .CLK || b = .BOOT || b = .MGT))

/-- The bus error of one dword at a byte address of the map by its address alone, in R74's order. -/
def State.dwordError (s : State) (path : Path) (write : Bool) (a : Nat) : Option Nat :=
  if 0x200000 ≤ a then some beUnmapped
  else if a < 0x100000 then
    match winBlk (a / 16384) with
    | none => some beUnmapped
    | some (b, w) =>
      if !s.has b w then some beAbsent
      else if s.pageOff b || s.busShut path b write then some beOff
      else if a % 4096 ≠ 0 && (fldsAt b s.build w (a % 4096)).isNone then some beReserved
      else none
  else match regionAt a with
    | none => some beReserved
    | some r =>
      if !r.onBuild s.build then some beAbsent
      else if s.pageOff (r.owner a).1 || s.busShut path (r.owner a).1 write then some beOff
      else if (match r with | .darnAp h => s.rd (R.DRN_PAGE_PAGE h) = 9 && decide (16384 ≤ (a - 0x140000) % 131072) | _ => false) then some beReserved
      else none

/-- The greatest length of a request on a path: 128 dwords of the window on PCIe, 60 in a register cell (R340), 128 on the
management port (R360). -/
def pathMax : Path → Nat
  | .remote => 60
  | _ => 128

/-- The byte address of dword `i` of a request; bits [1:0] are dropped (R55). -/
def dwordAt (addr i : Nat) : Nat := addr / 4 * 4 + 4 * i

/-- What a request fails with, and the address logged (R55, R74): its dwords' own causes first, at the lowest failing dword; then a
length outside the path's range, or of more than two dwords at a register page; then partial byte enables. -/
def State.busError (s : State) (path : Path) (write : Bool) (addr n be : Nat) : Option (Nat × Nat) :=
  match (List.range (max n 1)).findSome? (fun i => (s.dwordError path write (dwordAt addr i)).map (fun r => (dwordAt addr i, r))) with
  | some e => some e
  | none =>
    if n = 0 ∨ pathMax path < n ∨ (addr < 0x100000 ∧ 2 < n) then some (dwordAt addr 0, beTooLong)
    else if write then ((List.range n).find? (fun i => be / 16 ^ i % 16 ≠ 15)).map (fun i => (dwordAt addr i, bePartial))
    else none

/-! ### Reads -/

def latchKey (path : Path) (a : Nat) : Nat := Path.code path * 2097152 + a

/-- Where a dword of the memory window is read: the space and the offset. -/
def State.windowAt (s : State) (r : Region) (a : Nat) : Space × Nat :=
  match r with
  | .darnAp h => (s.idleBank h, s.rd (R.DRN_PAGE_PAGE h) * 131072 + (a - 0x140000) % 131072)
  | _ => (.window, a)

/-- Read a dword that is no bus error: its value, and the state in which the low word of a 64-bit counter has latched the high
word for the path (R80). -/
def State.readDword (s : State) (path : Path) (a : Nat) : Nat × State :=
  if a < 0x100000 then
    match winBlk (a / 16384) with
    | none => (0, s)
    | some (b, w) =>
      if a % 4096 = 0 then (idWord b w, s)
      else match fldsAt b s.build w (a % 4096) with
        | none => (0, s)
        | some (l, true) => match l with
          | f :: _ => (Sparse.look s.bus.latch (latchKey path f.addr) 0, s)
          | [] => (0, s)
        | some (l, false) =>
          let v := l.foldr (fun f n => s.see f % 4294967296 * 2 ^ f.lsb + n) 0
          match l with
          | f :: _ =>
            if f.width = 64 then
              (v, { s with bus := { s.bus with latch := Sparse.put s.bus.latch (latchKey path f.addr) (s.see f / 4294967296) } })
            else (v, s)
          | [] => (v, s)
  else match regionAt a with
    | none => (0, s)
    | some r => (s.rd32 (s.windowAt r a).1 (s.windowAt r a).2, s)

/-- Read `n` dwords in ascending order. -/
def State.readDwords (s : State) (path : Path) (addr : Nat) : Nat → List Word × State
  | 0 => ([], s)
  | n + 1 =>
    let p := s.readDword path (dwordAt addr 0)
    let q := p.2.readDwords path (dwordAt addr 1) n
    (BitVec.ofNat 32 p.1 :: q.1, q.2)

end Sys2Proof.Machine
end

