-- ==== Sys2Proof/Machine/Write.lean ====
section
/-! DEFINITION. The write of a register: views (R53, R54), classes (R16, R60 to R66), the enable gate (R65), LOCK and write-once
(R71 to R73), enables and disables (R68, R69), commands (R63), what a taken field does, and the writes of the memory window (R87). -/

namespace Sys2Proof.Machine

/-- A write of one dword of a page: block, window, page offset, path, view, and the dword written. -/
structure Wr where
  b : Blk
  w : Nat
  off : Nat
  path : Path
  view : View
  raw : Nat

def Wr.pg (c : Wr) : Nat := c.b.pg c.w

/-- The value a field would hold after the write (R53). -/
def Wr.result (c : Wr) (f : Fld) (old : Nat) : Nat :=
  let v := bitsOf c.raw f.lsb (min f.width 32)
  match c.view with
  | .base => v
  | .set => Nat.lor old v
  | .clr => old - Nat.land old v
  | .tog => Nat.xor old v

/-! ### Gates -/

/-- The pages whose ENABLE resets to 1: their fields are not enable-gated (R59, R65). -/
def alwaysOn (b : Blk) : Bool := match b with | .SYS | .CLK | .BOOT | .PWR | .MGT => true | _ => false

/-- The ENABLE of the instance an offset lies in (R58), and of the parts of HST, DMA, SPR and ETH that have one of their own. -/
def instOf (b : Blk) (w off : Nat) : Option (Nat × Fld) :=
  match b with
  | .LNE => if 0x100 ≤ off then (let k := 8 * w + (off - 0x100) / 0x100; some (k, R.LNE_CFG_ENABLE k)) else none
  | .RING => if 0x100 ≤ off then (let p := 4 * w + (off - 0x100) / 0x300; some (p, R.RING_CFG_ENABLE p)) else none
  | .SRC => if 0x100 ≤ off then (let n := 4 * w + (off - 0x100) / 0x300; some (n, R.SRC_CFG_ENABLE n)) else none
  | .DMA => if 0x100 ≤ off then (let n := (off - 0x100) / 0x20; some (n, R.DMA_CH_CFG_ENABLE n)) else none
  | .HST => if 0x400 ≤ off then (let q := (off - 0x400) / 0x20; some (q, R.HST_EVQ_CFG_EN q)) else none
  | .SPR => if 0x100 ≤ off ∧ off < 0x200 then (let q := (off - 0x100) / 0x40; some (q, R.SPRP_CFG_ENABLE q)) else none
  | .ETH =>
    if 0x60 ≤ off ∧ off < 0xA0 then (let k := (off - 0x60) / 0x20; some (k, R.ETH_ST_CFG_EN k))
    else if 0xA0 ≤ off ∧ off < 0xC0 then some (0, R.ETH_CP_CFG_EN)
    else if 0x100 ≤ off then (let p := (off - 0x100) / 0x40; some (p, R.ETHP_CFG_ENABLE p))
    else none
  | _ => none

/-- Whether an instance finishes to its boundary: a source conditioner, an ingest channel (R69). -/
def State.instDrains (s : State) (b : Blk) (n : Nat) : Bool :=
  match b with
  | .SRC => s.rd (R.SRC_STATE_COND n) = condDraining
  | .DMA => s.rd (R.DMA_CH_STATE_RUN n) = runDraining
  | _ => false

/-- The enable gate of a page: the reason a write of a configuration field is ignored with (R65). -/
def State.pageGate (s : State) (b : Blk) (w : Nat) : Option Nat :=
  if alwaysOn b then none
  else if s.run b w = runDraining then some rDraining
  else if s.enabled b w || !(s.run b w = runDisabled || s.run b w = runDrained) then some rEnabled
  else none

/-- The enable gate of a register (R58, R65, R137, R339). -/
def State.gate (s : State) (c : Wr) (f : Fld) : Option Nat :=
  match instOf c.b c.w c.off with
  | some (n, e) => if s.instDrains c.b n then some rDraining else if s.on e then some rEnabled else none
  | none =>
    if c.b = .HST && decide (0x100 ≤ c.off) then
      (if f.lsb = 0 && s.on (R.HST_APT_VALID ((c.off - 0x100) / 4)) then some rEnabled else none)
    else if c.b = .LYR && decide (0x100 ≤ c.off) then
      (let run := s.lyRun c.w ((c.off - 0x100) / 0x40)
       if run = runDraining then some rDraining else if run = runDisabled || run = runDrained then none else some rEnabled)
    else s.pageGate c.b c.w

/-! ### Values a field refuses -/

/-- The registers whose reserved values are not one range (R64): a rail code, the training scratch, the CTRL bits of a head's LOP, the
frame master's bits of a tile, PCIe wake of a tile, a tile's lanes, event queues 14 and 15. -/
def State.rangeExtra (s : State) (c : Wr) (f : Fld) (v : Nat) : Bool :=
  match c.b with
  | .LOP =>
    if c.off = 4 && decide (8 ≤ f.lsb) then !s.isTile && v ≠ 0
    else decide (0x100 ≤ c.off ∧ c.off < 0x400) && (c.off - 0x100) % 0x20 = 0 && f.lsb = 4 && (v = 6 || decide (7 < v))
  | .DRC => decide (0x100 ≤ c.off) && (c.off - 0x100) % 0x200 = 0xC && (v % 16 ≠ 0 || decide (dramSize s.build / channels s.build / 4096 < v + 16))
  | .EPC => s.isTile && (f = R.EPC_CFG_PTP || f = R.EPC_CFG_MASTER) && v = 1
  | .PWR => s.isTile && f = R.PWR_WAKE_EN_PCIE && v = 1
  | .RING => s.isTile && (c.off - 0x100) % 0x300 = 0 && f.lsb = 8 && !(v = 0 || v = 4)
  | _ => false

def State.rangeBad (s : State) (c : Wr) (f : Fld) (v : Nat) : Bool := v < f.lo || f.hi < v || s.rangeExtra c f v

/-- A field that a state of its block closes, and the reason (R37, R90, R110). EPC_PERIOD is closed by the state of the EPC: a head whose EPC_CFG.MASTER is 1
and whose EPC is disabled, or has yielded, is not MASTER. DESIGN CHOICE, log entry 188. -/
def State.closed (s : State) (f : Fld) (v : Nat) : Option Nat :=
  if f = R.CLK_PLL_EN_ROOT_EN && v = 0 && s.rd R.CLK_SEL_CUR = curRoot then some rBusy
  else if (f = R.BOOT_LOAD_PTR_OFFSET || f = R.BOOT_LOAD_DATA_DATA) && s.on R.BOOT_LOAD_CMD_VERIFY then some rBusy
  else if f = R.EPC_PERIOD_NS && s.epState ≠ epMaster then some 16
  else none

/-- MEM of a layer after the write, and the reason that refuses a write of LYR_Lk_BASE: MEM without CAP_EN (0x12), BASE above 63 with
MEM (R144). -/
def State.lyBaseBad (s : State) (c : Wr) (f : Fld) (v : Nat) : Option Nat :=
  if c.b = .LYR && decide (0x100 ≤ c.off) && (c.off - 0x100) % 0x40 = 4 then
    let k := (c.off - 0x100) / 0x40
    let m := c.result (R.LYR_BASE_MEM c.w k) (s.rd (R.LYR_BASE_MEM c.w k))
    if m = 0 then none
    else if !s.lyCap c.w k then some 18
    else if f.lsb = 0 && decide (64 ≤ v) then some rRange
    else none
  else none

/-! ### Judging a field -/

/-- What a write does to a field: nothing, the value taken, or the reason it is ignored with. -/
inductive Verdict where
  | leave
  | take (v : Nat)
  | refuse (reason : Nat)
  deriving DecidableEq, Repr

/-- Whether a field is an ENABLE: of the page, or of an instance. -/
def Wr.isEnable (c : Wr) (f : Fld) : Bool :=
  (c.off = 4 && f.lsb = 0) || (match instOf c.b c.w c.off with | some (_, e) => f = e | none => false)

/-- The last checks of a value. -/
def State.judgeValue (s : State) (c : Wr) (f : Fld) (v : Nat) : Verdict :=
  match s.closed f v with
  | some r => .refuse r
  | none => match s.lyBaseBad c f v with
    | some r => .refuse r
    | none => if s.rangeBad c f v then .refuse rRange else .take v

/-- An HU field that hardware has updated in this CTL cycle, and a write of it that meets the update there: whether the write comes in
that cycle or a later one is a free choice of the write (R60, R61; log entry 4). -/
def State.hwMeets (s : State) (f : Fld) : Bool := s.bus.hw.contains f.key

/-- Whether the write meets the updates of this cycle. -/
def State.hwWins (s : State) (f : Fld) : Bool := s.hwMeets f && decide (s.freeVal % 2 = 1)

/-- Judge a field by its class, the gate, LOCK and its range; `high`: the write goes to the high dword of a 64-bit counter. The
commands (CM) and the ENABLE are judged apart. A SET, CLR or TOG write leaves a CT field, and counts where a base view write of its result would
(R54, R63, R80; log entry 110). -/
def State.judge (s : State) (c : Wr) (high : Bool) (f : Fld) : Verdict :=
  let v := c.result f (s.see f)
  match f.cls with
  | .ro => .leave
  | .cm => .leave
  | .ct =>
    (match c.view with
     | .base => if high || bitsOf c.raw f.lsb (min f.width 32) ≠ 0 then .refuse rRange else .take 0
     | _ => if high || v % 2 ^ min f.width 32 ≠ 0 then .refuse rRange else .leave)
  | .lv => s.judgeValue c f v
  | .w1 =>
    if s.on (R.LOCK c.pg) then .refuse rLocked
    else if s.bus.w1.contains f.key then .refuse rWriteOnce
    else s.judgeValue c f v
  | _ =>
    if c.off = 4 && f.lsb = 1 then .take v
    else if c.isEnable f then .leave
    else if s.on (R.LOCK c.pg) then .refuse rLocked
    else match s.gate c f with
      | some r => .refuse r
      | none => if f.cls = .hu && s.hwWins f then .refuse rHwWins else s.judgeValue c f v

/-! ### Taking a field -/

/-- Whether a field is checked content (R81). -/
def Wr.checked (c : Wr) (f : Fld) : Bool := (match f.cls with | .rw => true | .w1 => true | _ => false) && !(c.off = 4 && f.lsb < 2)

/-- Software has written a RW or HU field of PAGES: a running capture restarts (R323). -/
def State.foldSoil (s : State) (c : Wr) (f : Fld) : State :=
  if s.ship = shCapture && foldBlks.contains c.b && (match f.cls with | .rw => true | .hu => true | _ => false) then
    s.setFold { s.auth.fold with dirty := true }
  else s

/-- A write to checked content makes the pass void (R83). -/
def State.soil (s : State) : State := { s with cck := { s.cck with dirty := true } }

/-- Update the destination-table entry at ETH_DT_IDX (R350). -/
def State.setDt (s : State) (f : DtEntry → DtEntry) : State :=
  { s with eth := { s.eth with table := Sparse.put s.eth.table (s.rd R.ETH_DT_IDX_IDX) (f s.dtEntry) } }

/-- Store a value where the field lives: most in the register store, LAMP_EN in the voter, the destination table in its entry;
EPC_PERIOD is announced (R37, R307, R350). -/
def State.store (s : State) (f : Fld) (v : Nat) : State :=
  if f = R.CRN_CTRL_LAMP_EN then (s.setLampEn (v = 1)).keepDark s
  else if f = R.EPC_PERIOD_NS then s.announce v
  else if f = R.ETH_DT_MAC_LO_MAC then s.setDt (fun e => { e with mac := e.mac / 4294967296 * 4294967296 + v })
  else if f = R.ETH_DT_MAC_HI_MAC then s.setDt (fun e => { e with mac := v * 4294967296 + e.mac % 4294967296 })
  else if f = R.ETH_DT_MAC_HI_VID then s.setDt (fun e => { e with vid := v })
  else if f = R.ETH_DT_MAC_HI_ANYVID then s.setDt (fun e => { e with anyvid := v = 1 })
  else if f = R.ETH_DT_ACT_NODE then s.setDt (fun e => { e with node := v })
  else if f = R.ETH_DT_ACT_PORT then s.setDt (fun e => { e with port := v })
  else if f = R.ETH_DT_ACT_DIR then s.setDt (fun e => { e with dir := v })
  else if f = R.ETH_DT_ACT_VALID then s.setDt (fun e => { e with valid := v = 1 })
  else s.wr f v

/-- SYS_CCK_CTRL.EN (R82): 1 starts the walker; 0 stops it at the end of the pass. -/
def State.cckEn (s : State) (v : Nat) : State :=
  if v = 1 then
    if s.cck.running then { s with cck := { s.cck with stop := false } }
    else { s with cck := { s.cck with running := true, stop := false, dirty := false, snapOk := s.on R.SYS_CCK_CTRL_SNAP } }
  else { s with cck := { s.cck with stop := s.cck.running } }

/-- RING CTRL has been written: a checker that is off starts anew with the first cell after its enable (R305). -/
def State.checkersSync (s : State) (w : Nat) : State :=
  forN 8 (fun i a =>
    let id := 8 * w + i
    if portExists s.build id && !isSpur id && !bitOf (a.rd (R.RING_CTRL_CHK (portRing id / 4))) (portRing id % 4) then
      a.setPort id { a.port id with prbsOn := false }
    else a) s

/-- What follows a taken field at once. -/
def State.taken (s : State) (c : Wr) (f : Fld) (v : Nat) : State :=
  match c.b with
  | .SYS => if f = R.SYS_CCK_CTRL_EN then s.cckEn v else if f = R.SYS_CCK_REF_REF then s.wr R.SYS_CCK_STATE_REF_VALID 1 else s
  | .SRC => if decide (0x100 ≤ c.off) && (c.off - 0x100) % 0x300 = 0 then s.measSync (4 * c.w + (c.off - 0x100) / 0x300) else s
  | .CLK => if c.off = 0x28 then (let t := s.pllEnTaken; if s.on R.CLK_PLL_DRAM_LOCK && !t.on R.CLK_PLL_DRAM_LOCK then t.quarantineAll else t) else s
  | .BOOT => if f = R.BOOT_LOAD_DATA_DATA then s.loadData v else if f = R.BOOT_WDOG_CFG_PERIOD then s.wdogCfgTaken else s
  | .ETH => if c.off = 0x40 then s.ptpSync else s
  | .LYR => if decide (0x100 ≤ c.off) && (c.off - 0x100) % 0x40 = 0 && f.lsb = 0 then s.lyCtlTaken c.w ((c.off - 0x100) / 0x40) else s
  | .DRN => if f = R.DRN_BANK_SEL c.w then s.darnSel c.w else s
  | .TRV => if c.off = 0x20 then s.trvCfgTaken.keepDark s else s
  | .GPIO => if s.run .GPIO 0 = runRunning then s.gpioShow else s
  | .PWR => if f = R.PWR_WAKE_EN_PIN_POL then s.wakeLook else s
  | .RING =>
    if f = R.RING_CTRL_CHK c.w then s.checkersSync c.w
    else if decide (0x100 ≤ c.off) && (c.off - 0x100) % 0x300 = 4 then s.updatePath (4 * c.w + (c.off - 0x100) / 0x300)
    else s
  | _ => s

/-- Take a field. -/
def State.takeFld (s : State) (c : Wr) (f : Fld) (v : Nat) : State :=
  let s1 := s.store f v
  let s2 := if c.checked f then s1.soil else s1
  let s3 := match f.cls with | .w1 => { s2 with bus := { s2.bus with w1 := f.key :: s2.bus.w1 } } | _ => s2
  (s3.foldSoil c f).taken c f v

/-- Judge the fields against the state before the write and take those that may take it, in ascending bit order (R66); the reasons
of the others. -/
def State.writeFlds (s0 : State) (c : Wr) (high : Bool) (l : List Fld) (s : State) : State × List Nat :=
  l.foldl (fun a f => match s0.judge c high f with
    | .leave => a
    | .take v => (a.1.takeFld c f v, a.2)
    | .refuse r => (a.1, a.2 ++ [r])) (s, [])

/-- A write that may have met a hardware update uses up its free choice. -/
def State.hwChosen (s : State) (l : List Fld) : State := if l.any (fun f => f.cls = .hu && s.hwMeets f) then s.useFree else s

/-- The fields of a dword are written in one clock; the lead vote is taken on what they give together (R312). -/
def State.writeDwordFlds (s : State) (c : Wr) (high : Bool) (l : List Fld) : State × List Nat :=
  let p := s.writeFlds c high l (s.hwChosen l)
  if c.b = .CRN && decide (c.off = 4) then (p.1.voteSync, p.2) else p

/-! ### Commands (CM) -/

/-- A start that is taken, or the reason it is refused with. -/
def started (s : State) : Except Nat State → State × List Nat
  | .ok t => (t, [])
  | .error r => (s, [r])

/-- BOOT_RESET (R98): FULL is judged by the ARM that stood before the write. -/
def State.resetCmd (s : State) (full arm : Bool) : State × List Nat :=
  let armed := s.on R.BOOT_RESET_ARM
  let s1 := if arm then s.wr R.BOOT_RESET_ARM 1 else s
  if !full then (s1, [])
  else if !armed then (s1, [16])
  else if s.on R.BOOT_RESET_FULL then (s1, [rBusy])
  else ({ (s1.wr R.BOOT_RESET_FULL 1).wr R.BOOT_RESET_ARM 0 with boot := { s1.boot with due := some .cmd } }, [])

/-- A command that runs: set its bit, or BUSY while it is set (R63). -/
def State.setCm (s : State) (f : Fld) : State × List Nat := if s.on f then (s, [rBusy]) else (s.wr f 1, [])

/-- One step of a command write, after others of the same write. -/
def andThen (p : State × List Nat) (go : Bool) (f : State → State × List Nat) : State × List Nat :=
  if go then ((f p.1).1, p.2 ++ (f p.1).2) else p

/-- CRN_CMD.RESIGN (R314): give up with REASON MANUAL; 0x10 ROLE unless ROLE is ACTIVE. -/
def State.resignCmd (s : State) : State × List Nat :=
  if s.rd R.CRN_HEAD_ROLE = roleActive then (s.giveUp 6, []) else (s, [16])

/-- CRN_CMD.TAKE (R325): take over; 0x10 ROLE unless ROLE is STANDBY. -/
def State.takeCmd (s : State) : State × List Nat :=
  if s.rd R.CRN_HEAD_ROLE = roleStandby then (s.startTake, []) else (s, [16])

/-- RINGp_CMD.DISCOVER (R297): a tile refuses it. -/
def State.discoverCmd (s : State) (p : Nat) : State × List Nat := if s.isTile then (s, [rRange]) else (s.sendDiscover p, [])

/-- RINGp_CMD.REMEASURE (R300): both links of a head's port, a tile's own. -/
def State.remeasureCmd (s : State) (p : Nat) : State × List Nat :=
  if s.on (R.RING_CMD_REMEASURE p) then (s, [rBusy])
  else
    let l := enablePorts s.build (instPort p)
    let s1 := forL l (fun i a => a.startMeasure i) s
    (s1.wrB (R.RING_CMD_REMEASURE p) (l.any (fun i => (s1.port i).measuring)), [])

/-- The CM fields of a register, in a base or SET view write of `raw`. -/
def State.cmWrite (s : State) (c : Wr) : State × List Nat :=
  let bit := bitOf c.raw
  match c.b with
  | .SYS => if c.off = 0x40 then andThen (s, []) (bit 1) (fun a =>
      let p := a.setCm R.SYS_CCK_CTRL_SNAP
      ({ p.1 with cck := { p.1.cck with snapOk := a.on R.SYS_CCK_CTRL_SNAP && p.1.cck.snapOk } }, p.2)) else (s, [])
  | .CLK => if c.off = 0x2C then started s (s.clkSelStart (bit 0) (bit 1)) else (s, [])
  | .BOOT =>
    if c.off = 0x2C then s.resetCmd (bit 0) (bit 1)
    else if c.off = 0x54 then (if bit 0 then (s.kickWdog, []) else (s, []))
    else if c.off = 0x68 then andThen (s, []) (bit 0) (fun a => a.setCm R.BOOT_LOAD_CMD_VERIFY)
    else (s, [])
  | .PWR =>
    if c.off = 0x20 then
      andThen (andThen (s, []) (bit 0) (fun a => started a (a.pwrGo (a.rd R.PWR_CMD_TARGET)))) (bit 1) (fun a => started a a.restoreGo)
    else (s, [])
  | .CAL =>
    if c.off = 0x30 && s.isTile then
      andThen (andThen (s, []) (bit 0) (fun a => started a a.calRunGo)) (bit 1) (fun a => (a.calAbandon, []))
    else (s, [])
  | .CRN =>
    if c.off = 0x28 then andThen (andThen (s, []) (bit 0) (fun a => a.resignCmd)) (bit 1) (fun a => a.takeCmd) else (s, [])
  | .FLD =>
    if c.off = 0x24 then
      andThen (andThen (s, []) (bit 0) (fun a => (a.foldCommit, []))) (bit 1) (fun a => a.setCm R.FLD_CMD_VERIFY)
    else (s, [])
  | .RING =>
    if decide (0x100 ≤ c.off) && (c.off - 0x100) % 0x300 = 0x28 then
      let p := 4 * c.w + (c.off - 0x100) / 0x300
      andThen (andThen (s, []) (bit 0) (fun a => a.discoverCmd p)) (bit 1) (fun a => a.remeasureCmd p)
    else (s, [])
  | .DRC =>
    if decide (0x100 ≤ c.off) && (c.off - 0x100) % 0x200 = 0x10 && bit 8 then
      let j := 2 * c.w + (c.off - 0x100) / 0x200
      started s (s.trainGo j (s.rd (R.DRC_CH_TRN_CMD_OP j)))
    else (s, [])
  | .LYR =>
    if c.off = 0x20 then
      (s.lyCommit c.w (c.raw % 65536), if Nat.land (c.raw % 65536) (s.rd (R.LYR_COMMIT_MASK c.w)) = 0 then [] else [rBusy])
    else if c.off = 0x24 then
      (s.lyTouch c.w (c.raw % 65536), if Nat.land (c.raw % 65536) (s.rd (R.LYR_TOUCH_MASK c.w)) = 0 then [] else [rBusy])
    else (s, [])
  | .DRN =>
    if c.off = 0x30 then
      andThen (andThen (s, []) (bit 0) (fun a => started a (a.loadStart c.w))) (bit 1) (fun a => started a ((s.verifyStart c.w).map (fun _ => a.wr (R.DRN_CMD_VERIFY c.w) 1)))
    else (s, [])
  | .SCN => if c.off = 0x24 && bit 0 then started s (s.scnGo c.w) else (s, [])
  | .LMP => if decide (0x180 ≤ c.off ∧ c.off < 0x1C0) then (s.nbRestore c.w ((c.off - 0x180) / 4) (c.raw % 4294967296), []) else (s, [])
  | .LOP => if c.off = 0x28 then (s.lopRestart (c.raw % 16777216), []) else (s, [])
  | .TRV => if c.off = 0x24 then (let p := s.trvCmd (c.raw % 16) (bitsOf c.raw 8 4); (p.1.keepDark s, p.2)) else (s, [])
  | _ => (s, [])

/-! ### ENABLE -/

/-- The check of a page's configuration (R68): the reason it fails with. -/
def State.pageCheck (s : State) (b : Blk) (w : Nat) : Option Nat :=
  match b with
  | .PRS => s.pressCheck w
  | .SCN => s.scnCheck w
  | .TRV => s.trvCheck
  | .DRC => s.drcCheck w
  | .FLD => if s.isTile then some rRange else none
  | .CAL => if s.isTile then none else some rRange
  | _ => none

/-- The blocks whose enable check takes time: ENABLE stays 0 until it has passed (R173, R233, R245). -/
def slowCheck (b : Blk) : Bool := match b with | .DRN => true | .LMP => true | .LOP => true | _ => false

/-- The page is enabled: what its block does (R68). -/
def State.pageOn (s : State) (c : Wr) : State :=
  let ask (a : State) : State := (a.setRun c.b c.w runStarting).ask c.pg (Path.code c.path) (View.code c.view)
  match c.b with
  | .PRS => s.pressEnable c.w
  | .SCN => (s.scnEnable c.w).dramSlots
  | .TRV => s.trvEnable.keepDark s
  | .DRN => ask s
  | .LOP => ask s
  | .LMP => ask (s.lmpEnable c.w)
  | .LYR => (s.setRun .LYR c.w runRunning).lyEnable c.w
  | .EPC => (s.setRun .EPC 0 runRunning).epcStart
  | .DRC => (s.setRun .DRC c.w runRunning).drcEnable c.w
  | .LNE => (forL (allPorts s.build) (fun i a => a.portsSync i) (s.setRun .LNE c.w runRunning)).wakeLook
  | .RING => ((s.setRun .RING c.w runRunning).ringWindowSync c.w).wakeLook
  | .SPR => ((s.setRun .SPR 0 runRunning).spurWindowSync).wakeLook
  | .SRC => forN 4 (fun m a => a.srcSync (4 * c.w + m)) (s.setRun .SRC c.w runRunning)
  | .DMA => (forN 16 (fun n a => a.dmaShow n) (s.setRun .DMA 0 runRunning)).dmaIssue
  | .GPIO => (s.setRun .GPIO 0 runRunning).gpioShow
  | .ETH => ((s.setRun .ETH 0 runRunning).ethSync 0 |>.ethSync 1).ptpSync
  | _ => s.setRun c.b c.w runRunning

/-- A page whose instances drain shows DRAINING until the last has (R69). -/
def State.pageDrain (s : State) (b : Blk) (w : Nat) (l : List Nat) : State :=
  s.setRun b w (if l.any (fun n => s.instDrains b n) then runDraining else runDrained)

/-- Fold reception and shipping end with the page. -/
def State.foldOff (s : State) : State :=
  ((s.setFold { s.auth.fold with checking := false, rx := [], image := [] }).setShip shIdle).wr R.FLD_STATE_HELD 0

/-- The blocks whose stop drains (R69). -/
def drains (b : Blk) : Bool := match b with | .SRC => true | .DMA => true | .LYR => true | .PRS => true | .DRN => true | .DRC => true | _ => false

/-- An instance of a parked block stops: the power controller holds it at its boundary already, so it has nothing to drain (R408). -/
def State.parkedInst (s : State) (b : Blk) (n : Nat) : State :=
  match b with
  | .SRC =>
    let a := s.srcSync n
    if a.rd (R.SRC_STATE_COND n) = condDraining then (a.setSrc n { a.src n with sends := [] }).wr (R.SRC_STATE_COND n) condOff else a
  | .DMA =>
    if s.rd (R.DMA_CH_STATE_RUN n) = 1 || s.rd (R.DMA_CH_STATE_RUN n) = 2 then ((s.dmaStop n).dmaDrop n).wr (R.DMA_CH_STATE_RUN n) runDisabled else s
  | _ => s

/-- A parked block is disabled: it is not restarted, and shows DISABLED (R408; log entry 161). -/
def State.parkedOff (s : State) (b : Blk) (w : Nat) : State :=
  let s1 : State := match b with
    | .SRC => forN 4 (fun m a => a.parkedInst .SRC (4 * w + m)) s
    | .DMA => forN 16 (fun n a => a.parkedInst .DMA n) s
    | .LYR => forN 16 (fun k a => a.lyParkedOff w k) s
    | .PRS => s.setPress w { Press.idle with recs := (s.press w).recs }
    | _ => s
  s1.setRun b w runDisabled

/-- The page is disabled: what its block does (R69); one that is parked has come to its boundary (R408). The ENABLE bits of its instances keep their values, with the instances stopped and
their gates closed (R58 leaves open whether the bits clear too; log entry 112). -/
def State.pageOffAt (s : State) (c : Wr) : State :=
  if s.parked (parkStep c.b) && drains c.b then s.parkedOff c.b c.w
  else match c.b with
  | .PRS => s.setRun .PRS c.w runDraining
  | .DRC => s.setRun .DRC c.w runDraining
  | .LYR => s.setRun .LYR c.w runDraining
  | .SRC => (forN 4 (fun m a => a.srcSync (4 * c.w + m)) s).pageDrain .SRC c.w ((List.range 4).map (fun m => 4 * c.w + m))
  | .DMA =>
    (forN 16 (fun n a => if a.rd (R.DMA_CH_STATE_RUN n) = 1 || a.rd (R.DMA_CH_STATE_RUN n) = 2 then a.dmaStop n else a) s).pageDrain
      .DMA 0 (List.range 16)
  | .SCN => s.scnDisable c.w
  | .LMP => s.lmpDisable c.w
  | .DRN => s.darnDisable c.w
  | .LOP => s.lopDisable
  | .TRV => s.trvDisable
  | .EPC => (s.setRun .EPC 0 runDisabled).epcStop
  | .FLD => (s.setRun .FLD 0 runDisabled).foldOff
  | .CAL => (s.setRun .CAL 0 runDisabled).calAbandon
  | .GPIO => (s.setRun .GPIO 0 runDisabled).gpioShow
  | .LNE => forL (allPorts s.build) (fun i a => a.portsSync i) (s.setRun .LNE c.w runDisabled)
  | .RING => (s.setRun .RING c.w runDisabled).ringWindowSync c.w
  | .SPR => (s.setRun .SPR 0 runDisabled).spurWindowSync
  | .ETH => ((s.setRun .ETH 0 runDisabled).ethSync 0 |>.ethSync 1).ptpSync
  | _ => s.setRun c.b c.w runDisabled

/-- A write of CTRL.ENABLE, its result `v` (R59, R68, R69, R72, R92, R97). -/
def State.pageEnable (s : State) (c : Wr) (v : Nat) : State × List Nat :=
  let en := R.ENABLE c.pg
  let run := s.run c.b c.w
  if v = 1 then
    if run = runWedged then (s, [rBusy])
    else if run = runDraining then (s, [rDraining])
    else if s.on en || (slowCheck c.b && run = runStarting) then (s, [])
    else if isCore c.b && s.coreGated then (s, [rBusy])
    else match s.pageCheck c.b c.w with
      | some r => (s, [r])
      | none => ((((if slowCheck c.b then s else s.wr en 1).foldSoil c en).pageOn c).lateEnable c.b, [])
  else if alwaysOn c.b then (s, [rRange])
  else if !s.on en then (if run = runFault || (slowCheck c.b && run = runStarting) then s.setRun c.b c.w runDisabled else s, [])
  else
    let s1 := (s.wr en 0).foldSoil c en
    if run = runWedged then (s1, [])
    else if run = runFault then (s1.setRun c.b c.w runDisabled, [])
    else (s1.pageOffAt c, [])

/-- The check of an instance's configuration (R68). -/
def State.instCheck (s : State) (b : Blk) (off n : Nat) : Option Nat :=
  match b with
  | .SRC => s.srcCheck n
  | .RING => s.portEnableCheck (instPort n)
  | .SPR => s.portEnableCheck (24 + n)
  | .HST => if 14 ≤ n then some rRange else none
  | .ETH => if 0x100 ≤ off ∧ s.rd (R.ETHP_CFG_MODE n) = 1 ∧ s.rd (R.ETHP_CFG_FEC n) = 2 then some 16 else none
  | _ => none

/-- An instance ENABLE has changed; a lane of a port that is enabled may detect a signal already (R409). -/
def State.instSync (s : State) (c : Wr) (n v : Nat) : State :=
  match c.b with
  | .LNE => (forL (allPorts s.build) (fun i a => a.portsSync i) s).wakeLook
  | .RING => (s.portsSync (instPort n)).wakeLook
  | .SPR => (s.portsSync (24 + n)).wakeLook
  | .SRC => s.srcSync n
  | .DMA =>
    if v = 1 then (s.dmaShow n).dmaIssue
    else if s.rd (R.DMA_CH_STATE_RUN n) = 1 || s.rd (R.DMA_CH_STATE_RUN n) = 2 then s.dmaStop n
    else s
  | .ETH => if 0x100 ≤ c.off then s.ethSync n else s
  | _ => s

/-- A write of an instance ENABLE, its result `v` (R58, R68, R69). A write of the value it already holds changes nothing, and does not
void the pass of the configuration check (the spec leaves it open; log entry 111). -/
def State.instEnable (s : State) (c : Wr) (n : Nat) (e : Fld) (v : Nat) : State × List Nat :=
  if v = 1 then
    if s.instDrains c.b n then (s, [rDraining])
    else if s.on e then (s, [])
    else if isCore c.b && s.coreGated then (s, [rBusy])
    else match s.instCheck c.b c.off n with
      | some r => (s, [r])
      | none => ((((s.wr e 1).soil).foldSoil c e).instSync c n 1, [])
  else if !s.on e then (s, [])
  else
    let s1 := ((s.wr e 0).soil).foldSoil c e
    (if s.run c.b c.w = runWedged then s1
     else if s.parked (parkStep c.b) && drains c.b then s1.parkedInst c.b n else s1.instSync c n 0, [])

/-- The ENABLE of the register, if it holds one: refused on a locked page (R71, R72). -/
def State.enableWrite (s0 : State) (c : Wr) (s : State) : State × List Nat :=
  if c.off = 4 then
    if s0.on (R.LOCK c.pg) then (s, [rLocked])
    else s.pageEnable c (c.result (R.ENABLE c.pg) (s0.rd (R.ENABLE c.pg)))
  else match instOf c.b c.w c.off with
    | none => (s, [])
    | some (n, e) =>
      if e.addr % 4096 = c.off then
        (if s0.on (R.LOCK c.pg) then (s, [rLocked]) else s.instEnable c n e (c.result e (s0.rd e)))
      else (s, [])

/-! ### A dword -/

/-- The reason a write counts with: LOCKED or WRITE_ONCE if any field gave it, else the last. -/
def countReason (l : List Nat) : Option Nat :=
  match l.find? (fun r => r = rLocked || r = rWriteOnce) with
  | some r => some r
  | none => l.getLast?

/-- Write a register dword of a page: fields, commands, ENABLE, and one count (R66). -/
def State.writeReg (s : State) (c : Wr) (high : Bool) (l : List Fld) : State :=
  let p := s.writeDwordFlds c high l
  let q := if (c.view = .base || c.view = .set) && l.any (fun f => f.cls = .cm) then (let m := p.1.cmWrite c; (m.1, p.2 ++ m.2)) else p
  let r := s.enableWrite c q.1
  let t := match countReason (q.2 ++ r.2) with
    | none => r.1
    | some reason => r.1.ignored c.pg c.off (View.code c.view) (Path.code c.path) reason
  (if c.b = .THM then t.hotJudge else t).calCheck

/-- A write of the memory window that its owner's gate or LOCK refuses (R71, R87). -/
def State.gatedMem (s : State) (b : Blk) (w : Nat) (path : Path) (a v : Nat) : State :=
  if s.on (R.LOCK (b.pg w)) then s.ignored (b.pg w) 0 0 (Path.code path) rLocked
  else match s.pageGate b w with
    | some r => s.ignored (b.pg w) 0 0 (Path.code path) r
    | none => (s.wr32 .window a v).soil

/-- The bytes of a darn-table dword that hold something (R174, R175). -/
def bankMask32 (off : Nat) : Nat :=
  bankMask off + 256 * bankMask (off + 1) + 65536 * bankMask (off + 2) + 16777216 * bankMask (off + 3)

/-- Write a dword of the memory window under its region's rule (R87). -/
def State.writeMem (s : State) (path : Path) (r : Region) (a v : Nat) : State :=
  match r with
  | .loopProg => s.gatedMem .LOP 0 path a v
  | .ffTable => s.gatedMem .LOP 0 path a v
  | .lampMap => s.gatedMem .DRN (r.owner a).2 path a v
  | .pressList h =>
    if (a - 0x110000) % 4096 / 2048 = s.rd (R.PRS_BANK_CUR h) && (s.run .PRS h = runRunning || s.run .PRS h = runDraining) then
      s.ignored (Blk.PRS.pg h) 0 0 (Path.code path) rActive
    else s.wr32 .window a v
  | .palette _ => s.wr32 .window a (if a % 8 = 4 then v % 256 else v)
  | .mendList => s.wr32 .window a v
  | .rowLoad => s
  | .darnAp h =>
    let p := s.windowAt r a
    (s.apWritten h p.2).wr32 (.darn h (1 - s.rd (R.DRN_BANK_CUR h))) p.2 (Nat.land v (bankMask32 p.2))

/-- Perform the write of one dword that is no bus error. -/
def State.writeDword (s : State) (path : Path) (a v : Nat) : State :=
  if a < 0x100000 then
    match winBlk (a / 16384) with
    | none => s
    | some (b, w) => match fldsAt b s.build w (a % 4096) with
      | none => s
      | some (l, high) => s.writeReg ⟨b, w, a % 4096, path, viewAt a, v⟩ high l
  else match regionAt a with
    | none => s
    | some r => s.writeMem path r a v

/-- Perform the writes of a request in ascending order (R55). -/
def State.writeDwords (s : State) (path : Path) (addr : Nat) : List Word → State
  | [] => s
  | d :: t => (s.writeDword path (dwordAt addr 0) d.toNat).writeDwords path (dwordAt addr 1) t

/-! ### Requests -/

/-- A write request on a path: performed, or refused as a whole and logged (R55, R75); whether it was performed. -/
def State.writeReq (s : State) (path : Path) (addr : Nat) (data : List Word) (be : Nat) : Bool × State :=
  match s.busError path true addr data.length be with
  | some (a, r) => (false, s.logBerr a r true path s.ownNode)
  | none => (true, s.writeDwords path addr data)

/-- A read request on a path: the dwords, or nothing where it is refused as a whole and logged (R55, R75). -/
def State.readReq (s : State) (path : Path) (addr n : Nat) : Option (List Word) × State :=
  match s.busError path false addr n 15 with
  | some (a, r) => (none, s.logBerr a r false path s.ownNode)
  | none => let p := s.readDwords path addr n; (some p.1, p.2)

/-- Whether a path can carry an access now: PCIe on a head that is not held in fundamental reset, with the function in D0 (R95,
R337), nor parked (R405); Kryty unless the debug port has halted it (R108) or its clock stands in Saddle or Valley (R397). -/
def State.pathOpen (s : State) (path : Path) : Bool :=
  match path with
  | .pcie => !s.isTile && !s.pins.perstLow && !s.host.d3.contains 0 && !s.parked 15
  | .kryty => !s.boot.halted && !s.cpuStopped
  | _ => true

/-- A write on a path, answered as R75 says: a PCIe write is posted. -/
def State.pathWrite (s : State) (path : Path) (addr : Nat) (data : List Word) (be : Nat) : State :=
  if !s.pathOpen path then s
  else
    let p := s.writeReq path addr data be
    match path with
    | .pcie => p.2
    | _ => p.2.emit (if p.1 then .done path else .abort path)

/-- A read on a path, answered as R75 says. -/
def State.pathRead (s : State) (path : Path) (addr n : Nat) : State :=
  if !s.pathOpen path then s
  else
    let p := s.readReq path addr n
    match p.1 with
    | some ws => p.2.emit (.data path ws)
    | none => match path with | .pcie => p.2.completerAbort | _ => p.2.emit (.abort path)

/-- The address of a field's register in a view. -/
def viewAddr (f : Fld) (view : View) : Nat := f.addr / 16384 * 16384 + 4096 * View.code view + f.addr % 4096

/-- What the other fields of a register hold, CM fields as 0: a base-view write of a command keeps them. -/
def State.others (s : State) (f : Fld) : Nat :=
  match winBlk (f.addr / 16384) with
  | none => 0
  | some (b, w) => match fldsAt b s.build w (f.addr % 4096) with
    | none => 0
    | some (l, _) => l.foldr (fun g n => (if g.cls = .cm then 0 else s.see g % 4294967296 * 2 ^ g.lsb) + n) 0

/-- A write of a command field alone, on a path and a view; in the base view the register's other fields are written with what
they hold. -/
def State.command (s : State) (path : Path) (view : View) (f : Fld) (v : Nat) : State :=
  let raw := v * 2 ^ f.lsb + (match view with | .base => s.others f | _ => 0)
  s.pathWrite path (viewAddr f view) [BitVec.ofNat 32 raw] 15

end Sys2Proof.Machine
end

