-- ==== Sys2Proof/Machine/Access.lean ====
section
/-! DEFINITION. Software accesses that have a row of their own, and the end of a drain (R65, R68, R69, R71, R80, R87). -/

namespace Sys2Proof.Machine

/-- A drain of the block or instance at an address ends (R69): the block must be at its boundary. -/
def State.drainEnd (s : State) (addr : Nat) : State :=
  match winBlk (addr / 16384) with
  | none => s
  | some (b, w) =>
    if !s.has b w then s
    else match b, instOf b w (addr % 4096) with
      | .SRC, some (n, _) =>
        if s.run .SRC w = runWedged then s else
        let s1 := s.srcDrained n
        if s1.run .SRC w = runDraining && !s1.enabled .SRC w then s1.pageDrain .SRC w ((List.range 4).map (fun m => 4 * w + m)) else s1
      | .DMA, some (n, _) =>
        let s1 := if s.rd (R.DMA_CH_STATE_RUN n) = runDraining then (s.dmaDrop n).wr (R.DMA_CH_STATE_RUN n) runDrained else s
        if s1.run .DMA 0 = runDraining && !s1.enabled .DMA 0 then s1.pageDrain .DMA 0 (List.range 16) else s1
      | .PRS, _ => if s.run .PRS w = runDraining && !(s.press w).active then s.setRun .PRS w runDrained else s
      | .DRN, _ => if s.run .DRN w = runDraining && !(s.darn w).running then s.setRun .DRN w runDrained else s
      | .DRC, _ => if s.run .DRC w = runDraining && s.drcIdle w then (s.drcDrained w).setRun .DRC w runDrained else s
      | _, _ => s

/-- REGISTER_WRITE (R53 to R66, R74, R75). -/
def execRegisterWrite (path : Path) (addr : Nat) (data : List Word) (be : Nat) (s : State) : Host.Outcome State Fault Refusal :=
  .next (s.pathWrite path addr data be)

/-- MEMORY_WINDOW_WRITE (R87). -/
def execMemoryWindowWrite (path : Path) (addr : Nat) (data : List Word) (be : Nat) (s : State) : Host.Outcome State Fault Refusal :=
  .next (s.pathWrite path addr data be)

/-- PAGE_LOCK (R71, R72). -/
def execPageLock (path : Path) (addr : Nat) (value : Word) (s : State) : Host.Outcome State Fault Refusal :=
  .next (s.pathWrite path addr [value] 15)

/-- ENABLE (R68). -/
def execEnable (path : Path) (addr : Nat) (value : Word) (s : State) : Host.Outcome State Fault Refusal :=
  .next (s.pathWrite path addr [value] 15)

/-- DISABLE (R69). -/
def execDisable (path : Path) (addr : Nat) (value : Word) (s : State) : Host.Outcome State Fault Refusal :=
  .next (s.pathWrite path addr [value] 15)

/-- DRAIN_DONE (R69). -/
def execDrainDone (addr : Nat) (s : State) : Host.Outcome State Fault Refusal := .next (s.drainEnd addr)

/-- COUNTER64_LOW_READ (R80). -/
def execCounter64LowRead (path : Path) (addr : Nat) (s : State) : Host.Outcome State Fault Refusal := .next (s.pathRead path addr 1)

/-- REGISTER_READ (R55 to R57, R74, R75). -/
def execRegisterRead (path : Path) (addr : Nat) (count : Nat) (s : State) : Host.Outcome State Fault Refusal :=
  .next (s.pathRead path addr count)

end Sys2Proof.Machine
end

