-- ==== Sys2Proof/Machine/Restore.lean ====
section
/-! DEFINITION. Writing a state image back after Valley (R403) and a Fold at a takeover (R326). -/

namespace Sys2Proof.Machine

/-- A write of a page's dword by the Kryty firmware in the base view. -/
def firmwareWr (f : Fld) (raw : Nat) : Option Wr :=
  (winBlk (f.addr / 16384)).map (fun p => { b := p.1, w := p.2, off := f.addr % 4096, path := .kryty, view := .base, raw := raw })

/-- The dwords at an offset of a space beside the places they belong to. -/
def State.placed (s : State) (sp : Space) (base : Nat) (l : List (List Fld)) : List (List Fld × Nat) :=
  (l.zip (List.range l.length)).map (fun p => (p.1, s.rd32 sp (base + 4 * p.2)))

/-- Enable a page with the block's check; a failure is counted with its reason (R68). -/
def State.enablePage (s : State) (b : Blk) (w : Nat) : State :=
  let c : Wr := { b := b, w := w, off := 4, path := .kryty, view := .base, raw := 1 }
  let p := s.pageEnable c 1
  match p.2 with
  | [] => p.1
  | r :: _ => p.1.ignored c.pg 4 0 (Path.code .kryty) r

/-! ### The state image (R403) -/

/-- The blocks in the order in which a restore enables their pages: first those without a step, then the steps backward, LNE before
RING. -/
def restoreOrder : List Blk :=
  (allBlks.filter (fun b => imaged b && parkStep b = 0)) ++
    [.HST, .LNE, .RING, .SPR, .FLD, .ETH, .CAL, .LOP, .LMP, .SCN, .TRV, .DRN, .PRS, .LYR, .DMA, .SRC]

/-- A field written back past the gate; ENABLE and LOCK wait, LAMP_EN is left as it is, a destination-table entry comes with the
table. -/
def State.putBack (s : State) (f : Fld) (v : Nat) : State :=
  if f.addr % 16384 = 4 && f.lsb < 2 then s
  else if f = R.CRN_CTRL_LAMP_EN then s
  else if inRange f.addr R.ETH_DT_MAC_LO_MAC.addr 12 then s
  else s.wr f v

/-- The entries of the destination table at an offset of a space. -/
def State.dtBack (s : State) (sp : Space) (base : Nat) : State :=
  { s with eth := { s.eth with table := forN 1024 (fun i t =>
      let e := dtOf (s.rdBytes sp (base + 12 * i) 12)
      if e = DtEntry.zero then Sparse.del t i else Sparse.put t i e) s.eth.table } }

/-- The regions of the image, copied back one after another from `base`; a write to the row-load table, the last kibibyte from 0x120000 on, has no effect (R87). -/
def State.memsBack (s : State) : Nat → List (Space × Nat × Nat) → State
  | _, [] => s
  | base, m :: t =>
    let n := if m.2.1 = 0x120000 then 0x8C00 else m.2.2
    (s.wrBytes m.1 m.2.1 (s.rdBytes .dram base n)).memsBack (base + m.2.2) t

/-- The image is written back: fields and memory, ENABLE by page, LOCK by page (R403). Traverse generators become LOST with WHY
POWER (R272); an EN of 1 in CCK_CTRL starts the walker, and the pass in progress is void (R83). -/
def State.restoreImage (s : State) : State :=
  let l := s.placed .dram s.imageAt (imagePlaces s.build)
  let at1 := s.imageAt + 4 * (imagePlaces s.build).length
  let back := forL l (fun p a => forL p.1 (fun f b => b.putBack f (bitsOf p.2 f.lsb f.width)) a) s
  let shown := if back.gpioOe = s.gpioOe then back else back.gpioShow
  let s0 := if s.isTile then shown.trvCfgTaken.keepDark s else shown
  let s1 := s0.cckEn (s0.rd R.SYS_CCK_CTRL_EN)
  let s2 := (s1.dtBack .dram at1).memsBack (at1 + 12288) (imageMems s.build)
  let cur := s.rdLE .dram (s.imageAt + imageLen s.build - 4) 4
  let s3 := if s.isTile then ((s2.wr (R.DRN_BANK_CUR 0) (cur % 2)).wr (R.DRN_BANK_CUR 1) (cur / 2)).darnSel 0 |>.darnSel 1 else s2
  let had (lsb : Nat) (b : Blk) (w : Nat) : Bool :=
    l.any (fun p => p.1.any (fun f => f.addr = b.pg w + 4 && f.lsb = lsb && bitOf p.2 lsb))
  let s4 := forL restoreOrder (fun b a => forN (b.wins s.build) (fun w c => if had 0 b w then c.enablePage b w else c) a) s3
  let s5 := if s4.isTile then s4.trvPower else s4
  let s6 := forL (allBlks.filter imaged) (fun b a => forN (b.wins s.build) (fun w c => if had 1 b w then c.wr (R.LOCK (b.pg w)) 1 else c) a) s5
  s6.soil

/-- RESTORE ends: IMAGE_OK reads 1 after a complete restore; without a correct image it reads 0 and nothing is written; a pass of the configuration check
that overlaps the restore is void (R403). The level wake sources are looked at again (R409). -/
def State.restoreEnd (s : State) : State :=
  if s.pphase ≠ ppRestoring then s
  else
    let s1 := if s.imageOk then s.restoreImage.wr R.PWR_STATE_IMAGE_OK 1 else s.soil.wr R.PWR_STATE_IMAGE_OK 0
    ((s1.wr R.PWR_STATE_PHASE ppIdle).wr R.PWR_CMD_RESTORE 0).wakeLook

/-! ### The Fold (R326) -/

/-- A dword of PAGES, written as the firmware writes it: judged by gate and LOCK; the head keeps its own number, and the ENABLE and LOCK
bits wait. EPC runs on a standby and takes its fields (log entry 70). -/
def State.foldPut (s : State) (l : List Fld) (v : Nat) : State :=
  match l with
  | [] => s
  | f :: _ => match firmwareWr f v with
    | none => s
    | some c =>
      let l1 := l.filter (fun g => g ≠ R.SPR_CFG_HEAD && g ≠ R.EPC_PERIOD_NS && !(c.off = 4 && g.lsb < 2) && !inRange g.addr R.ETH_DT_MAC_LO_MAC.addr 12)
      if c.b = .EPC then forL l1 (fun g a => a.wr g (bitsOf v g.lsb g.width)) s
      else (s.writeDwordFlds c false l1).1

/-- The ENABLE of a dword of PAGES, where the Fold has it set. -/
def State.foldEnable (s : State) (l : List Fld) (v : Nat) : State :=
  match l with
  | [] => s
  | f :: _ => match firmwareWr f v with
    | none => s
    | some c => if l.any (fun g => c.isEnable g && bitOf v g.lsb) then (s.enableWrite c s).1 else s

/-- The LOCK of a dword of PAGES, where the Fold has it set (R71, R328). -/
def State.foldLock (s : State) (l : List Fld) (v : Nat) : State :=
  match l with
  | [] => s
  | f :: _ => match firmwareWr f v with
    | none => s
    | some c => if c.off = 4 && l.any (fun g => g.lsb = 1) && bitOf v 1 then s.wr (R.LOCK c.pg) 1 else s

/-- PAGES, MEM and TABLES of the valid Fold are written, DRAM wakes, the blocks are enabled in the order of the Fold, and the pages that were locked are
locked (R326, R328). -/
def State.restoreFold (s : State) : State :=
  let base := foldSlotBase (s.rd R.FLD_STATE_SLOT) + 64
  let l := s.placed .store base (foldPlaces.map (fun p => p.2.2))
  let at1 := base + 4 * foldPlaces.length
  let s1 := forL l (fun p a => a.foldPut p.1 p.2) s
  let s2 := if (s1.pageGate .LOP 0).isNone then s1.wrBytes .window 0x100000 (s1.rdBytes .store at1 65536) else s1
  let s3 := s2.dtBack .store (at1 + 65536 + 512)
  let s4 := forN 2 (fun w a => forN 2 (fun i b => if b.chState (2 * w + i) = dcSelf then b.selfExit (2 * w + i) else b) (a.enablePage .DRC w)) s3
  let s5 := forN 16 (fun n a => a.wrBytes .dram (a.rd (R.SRC_COEF_BASE_BASE n) * 4096) (a.rdBytes .store (at1 + 65536 + 512 + 12288 + 2048 * n) 2048)) s4
  let s6 := forL l (fun p a => a.foldEnable p.1 p.2) s5
  let s7 := forL l (fun p a => a.foldLock p.1 p.2) s6
  if s7.on R.EPC_CFG_MASTER then s7.setEp epMaster else s7

/-- The takeover is complete (R326): without a valid Fold the head has the rings and enables no other block. -/
def State.takeoverDone (s : State) : State :=
  if s.rd R.CRN_HEAD_ROLE ≠ roleTaking || !s.auth.fold.taking then s
  else
    let s1 := if s.on R.FLD_STATE_NOFOLD then s else s.restoreFold
    let s2 := s1.setFold { s1.auth.fold with taking := false }
    ((s2.wr R.CRN_HEAD_ROLE roleActive).count R.CRN_EVT_TAKE).raiseEvent .CRN 0 3 (natLE s2.termRecord 4)

end Sys2Proof.Machine
end

