-- ==== Sys2Proof/Machine/Authority.lean ====
section
/-! DEFINITION. Authority on the rings: listening, giving up, takeover (R315 to R326). -/

namespace Sys2Proof.Machine

/-- A standby takes over on RESIGN and on beacon loss while AUTO_TAKE is 1 (R325). -/
def State.autoTake (s : State) : State := if s.canTake && s.on R.CRN_CFG_AUTO_TAKE then s.startTake else s

/-- RESIGN (R320, R325): a head counts one of its peer, and its TERM is one that the head has seen (R315); it asks nothing of a tile. -/
def State.resignIn (s : State) (id : Nat) (c : Cell) : State :=
  if c.cls ≠ clsControl || c.typ ≠ tResign then s
  else
    let p := s.receive id c
    if !p.1 || s.isTile then p.2
    else
      let s1 := p.2.seeTerm (pn c 4 4)
      if pb c 0 % 64 = s.rd R.CRN_CFG_PEER then (s1.count R.CRN_EVT_RESIGN).autoTake else s1

/-- TAKE at a node (R320, R321). -/
def State.takeIn (s : State) (id : Nat) (c : Cell) : State :=
  if c.cls ≠ clsControl || c.typ ≠ tTake then s
  else
    let p := s.receive id c
    if !p.1 then p.2 else match s.build with | .tile => p.2.tileTake c | .head => p.2.headTake id c

/-- LISTEN_END (R315). -/
def execListenEnd (ring : Nat) (s : State) : Host.Outcome State Fault Refusal := .next (if ring < 12 then s.listenEnd ring else s)

/-- CMD_RESIGN (R318). -/
def execCmdResign (path : Path) (view : View) (s : State) : Host.Outcome State Fault Refusal :=
  .next (s.command path view R.CRN_CMD_RESIGN 1)

/-- RESIGN (R325). -/
def execResign (port : Nat) (cell : Cell) (s : State) : Host.Outcome State Fault Refusal := .next (s.resignIn port cell)

/-- CMD_TAKE (R325). -/
def execCmdTake (path : Path) (view : View) (s : State) : Host.Outcome State Fault Refusal :=
  .next (s.command path view R.CRN_CMD_TAKE 1)

/-- BEACON_LOSS_TAKEOVER (R325). -/
def execBeaconLossTakeover (s : State) : Host.Outcome State Fault Refusal := .next (if s.beaconLost then s.autoTake else s)

/-- FOLD_CHECK_DONE (R326). -/
def execFoldCheckDone (s : State) : Host.Outcome State Fault Refusal := .next s.foldChecked

/-- TAKEOVER_COMPLETE (R326). -/
def execTakeoverComplete (s : State) : Host.Outcome State Fault Refusal := .next s.takeoverDone

/-- TAKE (R320). -/
def execTake (port : Nat) (cell : Cell) (s : State) : Host.Outcome State Fault Refusal := .next (s.takeIn port cell)

end Sys2Proof.Machine
end

