-- ==== Sys2Proof/Machine/Clock.lean ====
section
/-! DEFINITION. The commands of the clock tree (R89 to R94). -/

namespace Sys2Proof.Machine

/-- CTL has left ROOT: the running Traverse generators are lost (R268), and a calibration whose pages have stopped is abandoned (R395). -/
def State.leftRoot (s : State) (before : Nat) : State :=
  (if s.isTile && before = curRoot && s.rd R.CLK_SEL_CUR ≠ curRoot && s.enabled .TRV 0 then s.trvLoseAll twClock else s).calCheck

/-- The selected reference is lost (R89, R94). -/
def State.refLoss (s : State) : State :=
  if (match s.boot.phase with | .held => true | .detect => true | _ => false) || !s.refPresent then s
  else
    let p := if s.rd R.CLK_REF_SRC = 0 then { s.pins with refclkOk := false } else { s.pins with xtalOk := false }
    ((({ s with pins := p }).count R.CLK_EVT_REFLOSS).rootLoss).leftRoot (s.rd R.CLK_SEL_CUR)

/-- The PLL is started and shows no lock yet. -/
def State.pllStarted (s : State) (pll : Pll) : Bool :=
  match pll with
  | .root => s.on R.CLK_PLL_EN_ROOT_EN && !s.on R.CLK_PLL_ROOT_LOCK
  | .dram => s.on R.CLK_PLL_EN_DRAM_EN
  | .eth => s.on R.CLK_PLL_EN_ETH_EN
  | .lane n => decide (n < lanePlls s.build) && bitOf (s.rd R.CLK_PLL_EN_LANE_EN) n

/-- The reference selected by R89 is there (again): a PLL locks to nothing else (DEDUCED, log entry 181). -/
def State.refBack (s : State) : State :=
  { s with pins := if s.rd R.CLK_REF_SRC = 0 then { s.pins with refclkOk := true } else { s.pins with xtalOk := true } }

/-- A PLL that is started reaches lock, so its reference is there (R90, R94); at boot the lock of the root PLL lets the clocks switch (R103). -/
def State.pllLock (s : State) (pll : Pll) : State :=
  if !s.pllStarted pll then s
  else
    let s0 := s.refBack
    match pll with
    | .root =>
      let s1 := s0.wr R.CLK_PLL_ROOT_LOCK 1
      if s1.boot.phase = .pllWait then (match s1.clkSelStart true false with | .ok t => t | .error _ => s1) else s1
    | .dram => s0.wr R.CLK_PLL_DRAM_LOCK 1
    | .eth => s0.wr R.CLK_PLL_ETH_LOCK 1
    | .lane n => s0.wr R.CLK_PLL_LANE_LOCK (withBit (s0.rd R.CLK_PLL_LANE_LOCK) n true)

/-- A PLL loses lock (R94): the root PLL's loss falls back, the DRAM PLL's quarantines every channel (R374). -/
def State.pllLoss (s : State) (pll : Pll) : State :=
  match pll with
  | .root => if s.on R.CLK_PLL_ROOT_LOCK then s.rootLoss.leftRoot (s.rd R.CLK_SEL_CUR) else s
  | .dram => if s.on R.CLK_PLL_DRAM_LOCK then (s.wr R.CLK_PLL_DRAM_LOCK 0).quarantineAll else s
  | .eth => s.wr R.CLK_PLL_ETH_LOCK 0
  | .lane n => s.wr R.CLK_PLL_LANE_LOCK (withBit (s.rd R.CLK_PLL_LANE_LOCK) n false)

/-- The clocks have switched; the boot ROM goes on, on a tile strapped so to RECOVERY (R93, R100, R103). -/
def State.clocksSwitched (s : State) : State :=
  let s1 := s.switchDone.leftRoot (s.rd R.CLK_SEL_CUR)
  if s1.boot.phase = .pllWait && s1.rd R.CLK_SEL_CUR = curRoot then
    let s2 := s1.wr R.BOOT_STAGE_STAGE stClocks
    if s2.isTile && s2.on R.BOOT_STRAPS_ROLE then s2.enterRecovery else { s2 with boot := { s2.boot with phase := .verify } }
  else s1

/-- REF_LOSS (R89). -/
def execRefLoss (s : State) : Host.Outcome State Fault Refusal := .next s.refLoss

/-- PLL_ENABLE (R90). -/
def execPllEnable (path : Path) (view : View) (value : Word) (s : State) : Host.Outcome State Fault Refusal :=
  .next (s.pathWrite path (viewAddr R.CLK_PLL_EN_ROOT_EN view) [value] 15)

/-- PLL_LOCK (R90). -/
def execPllLock (pll : Pll) (s : State) : Host.Outcome State Fault Refusal := .next (s.pllLock pll)

/-- PLL_LOCK_LOSS (R94). -/
def execPllLockLoss (pll : Pll) (s : State) : Host.Outcome State Fault Refusal := .next (s.pllLoss pll)

/-- TO_ROOT (R93). -/
def execToRoot (path : Path) (view : View) (s : State) : Host.Outcome State Fault Refusal :=
  .next (s.command path view R.CLK_SEL_TO_ROOT 1)

/-- TO_RC (R93). -/
def execToRc (path : Path) (view : View) (s : State) : Host.Outcome State Fault Refusal :=
  .next (s.command path view R.CLK_SEL_TO_RC 1)

/-- CLOCK_SWITCH_DONE (R93). -/
def execClockSwitchDone (s : State) : Host.Outcome State Fault Refusal := .next s.clocksSwitched

end Sys2Proof.Machine
end

