-- ==== Sys2Proof/Machine/Mgt.lean ====
section
/-! DEFINITION. The management port (R359 to R361). -/

namespace Sys2Proof.Machine

/-- MGT_STATE.LAST. -/
def mlOk : Nat := 0
def mlBus : Nat := 1
def mlPec : Nat := 2
def mlAbort : Nat := 3
def mlTimeout : Nat := 4
def mlWake : Nat := 5

/-- The address byte, the register address and COUNT of a transaction, as they stand on the wire. -/
def State.mgtHead (s : State) (addr count : Nat) : List Byte :=
  [BitVec.ofNat 8 (2 * s.rd R.MGT_STATE_ADDR), BitVec.ofNat 8 (addr / 65536), BitVec.ofNat 8 (addr / 256), BitVec.ofNat 8 addr, BitVec.ofNat 8 count]

/-- The outcome of a transaction. -/
def State.mgtEnd (s : State) (last : Nat) (o : Out) : State := (s.wr R.MGT_STATE_LAST last).emit o

/-- The access is a bus error: COUNT is NACKed (R360). -/
def State.mgtBerr (s : State) (a r : Nat) (write : Bool) : State := (s.logBerr a r write .mgt s.ownNode).mgtEnd mlBus .mgtNack

/-- A write transaction (R360). -/
def State.mgtWrite (s : State) (addr count : Nat) (data : List Byte) (pec : Option Byte) : State :=
  match s.busError .mgt true addr count (16 ^ count - 1) with
  | some (a, r) => s.mgtBerr a r true
  | none =>
    let pecOn := s.on R.MGT_CFG_PEC_EN
    if data.length < 4 * count || (pecOn && pec.isNone) then (s.count R.MGT_EVT_ABORT).wr R.MGT_STATE_LAST mlAbort
    else
      let d := data.take (4 * count)
      if pecOn && pec ≠ some (BitVec.ofNat 8 (crc8 (s.mgtHead addr count ++ d))) then (s.count R.MGT_EVT_PEC).mgtEnd mlPec .mgtNack
      else ((s.writeDwords .mgt addr (wordsOf d)).count R.MGT_EVT_TRANS).mgtEnd mlOk .mgtAck

/-- The bytes of a read as the host clocks them: those that the port returns, and 0xFF beyond these (R360). -/
def clockedBytes (d : List Byte) (n : Nat) : List Byte := (d ++ List.replicate n 255).take n

/-- A read transaction (R360), of which the host clocks `n` bytes. -/
def State.mgtRead (s : State) (addr count n : Nat) : State :=
  match s.busError .mgt false addr count 15 with
  | some (a, r) => s.mgtBerr a r false
  | none =>
    let p := s.readDwords .mgt addr count
    let d := bytesOf p.1
    let pec := if s.on R.MGT_CFG_PEC_EN then [BitVec.ofNat 8 (crc8 (s.mgtHead addr count ++ [BitVec.ofNat 8 (2 * s.rd R.MGT_STATE_ADDR + 1)] ++ d))] else []
    (p.2.count R.MGT_EVT_TRANS).mgtEnd mlOk (.mgtData (clockedBytes (d ++ pec) n))

/-- Carry out a transaction (R360). -/
def State.mgtRun (s : State) (o : MgtOp) : State := if o.write then s.mgtWrite o.addr o.count o.data o.pec else s.mgtRead o.addr o.count o.clocked

/-- A transaction begins (R96, R359, R361, R408, R409): the port answers only to a usable address, and while RESET_N holds the device it releases SDA and
SCL. In Saddle and Valley the address match is a wake source; in
the 6 unarmed cycles it is not acknowledged, and in Valley the port holds SCL, and the transaction, while the device wakes; none begins while it holds SCL. -/
def State.mgtBegin (s : State) (o : MgtOp) : State :=
  let a := s.rd R.MGT_STATE_ADDR
  if a < 8 ∨ 120 ≤ a ∨ s.eng.pwr.stretch ∨ s.boot.phase = .held then s
  else
    let low := s.cpuStopped
    let t := if low then s.wakeEdge else s
    if low && s.pphase = ppCommitted then t
    else if s.pstate = pValley && !s.on R.PWR_STATE_STRANDED && !s.eng.pwr.up then
      (if t.pphase = ppWaking then t.setPwr { t.eng.pwr with stretch := true, mgt := some o } else t)
    else t.mgtRun o

/-- The device is up while SCL is held: the transaction goes on (R361). -/
def State.mgtResume (s : State) : State :=
  if !(s.eng.pwr.stretch && s.bus.isOpen && decide (s.pstate ≠ pValley)) then s
  else
    let s1 := s.setPwr { s.eng.pwr with stretch := false, mgt := none }
    match s.eng.pwr.mgt with | some o => s1.mgtRun o | none => s1

/-- SCL has been low for 30 ms (R359). -/
def State.sclTimeout (s : State) : State :=
  if s.on R.MGT_CFG_TMO_EN then (s.count R.MGT_EVT_TIMEOUT).mgtEnd mlTimeout .mgtRelease else s

/-- 20 ms of a wake have gone (R361): the port releases SCL and NACKs if the device is not up. -/
def State.mgtWakeEnd (s : State) : State :=
  if !s.eng.pwr.stretch then s
  else
    let s1 := s.setPwr { s.eng.pwr with stretch := false, mgt := none }
    if s.bus.isOpen && s.pstate ≠ pValley then s.mgtResume
    else ((s1.count R.MGT_EVT_WAKE_NACK).emit .mgtRelease).mgtEnd mlWake .mgtNack

/-- MGT_WRITE (R360). -/
def execMgtWrite (addr count : Nat) (data : List (BitVec 8)) (pec : Option (BitVec 8)) (s : State) : Host.Outcome State Fault Refusal :=
  .next (s.mgtBegin { write := true, addr := addr % 16777216, count := count % 256, data := data, pec := pec, clocked := 0 })

/-- MGT_READ (R360). -/
def execMgtRead (addr : Nat) (len : MgtLen) (s : State) : Host.Outcome State Fault Refusal :=
  .next (s.mgtBegin { write := false, addr := addr % 16777216, count := len.count % 256, data := [], pec := none, clocked := len.clocked })

/-- MGT_SCL_TIMEOUT (R359). -/
def execMgtSclTimeout (s : State) : Host.Outcome State Fault Refusal := .next s.sclTimeout

/-- MGT_WAKE_TIMEOUT (R361). -/
def execMgtWakeTimeout (s : State) : Host.Outcome State Fault Refusal := .next s.mgtWakeEnd

end Sys2Proof.Machine
end

