-- ==== Sys2Proof/Machine/Boot.lean ====
section
/-! DEFINITION. Boot, the load port, keys and the debug access port (R89, R100 to R110, R439). -/

namespace Sys2Proof.Machine

/-- The count of REFCLK edges over 20 us ends (R89): REFCLK in band, else the crystal, else NOREF (R105). With a reference the boot
ROM reads the boot record, writes the keys and starts the root PLL (R103), and a transaction that the management port holds through a
wake goes on (R361). -/
def State.refDetect (s : State) (edges : Nat) (xtal : Bool) : State :=
  if s.boot.phase ≠ .detect then s
  else
    let refclk := decide (1950 ≤ edges ∧ edges ≤ 2050)
    let s1 := { s with pins := { s.pins with refclkOk := refclk, xtalOk := !refclk && xtal } }
    if refclk then (((s1.wr R.CLK_REF_SRC 0).bootKeys).bootPll).mgtResume
    else if xtal then (((s1.wr R.CLK_REF_SRC 1).bootKeys).bootPll).mgtResume
    else s1.wr R.BOOT_STAGE_STAGE stNoref

/-- The root PLL has not locked in 1 ms: three retries, then PLL_FAIL (R105). ROOT_EN stays set, so that a late lock shows. DESIGN CHOICE, log entry 192. -/
def State.pllTimeout (s : State) : State :=
  if s.boot.phase ≠ .pllWait || s.on R.CLK_PLL_ROOT_LOCK then s
  else if s.boot.pllTries < 3 then { s with boot := { s.boot with pllTries := s.boot.pllTries + 1 } }
  else { (s.wr R.BOOT_STAGE_STAGE stPllFail) with boot := { s.boot with phase := .pllFail } }

/-- The slots have been checked (R103 to R105). -/
def State.slotsChecked (s : State) (a b : ImageCheck) : State :=
  if s.boot.phase ≠ .verify || s.boot.chosen.isSome then s
  else
    let s1 := ((s.wr R.BOOT_STAGE_STAGE stVerify).wrB R.BOOT_IMG_STATE_A_VALID (s.fwCandidate a)).wrB R.BOOT_IMG_STATE_B_VALID (s.fwCandidate b)
    let s2 := s1.bump R.BOOT_EVT_VERIFY_FAIL (b2n (a.present && !s.fwSigOk a) + b2n (b.present && !s.fwSigOk b))
    match s2.chooseSlot a b with
    | none => s2.enterRecovery
    | some c => ({ s2 with boot := { s2.boot with chosen := some c } }).handOver

/-- The on-die memories are clear (R439). -/
def State.memoriesClear (s : State) : State := ({ s with boot := { s.boot with memClear := true } }).handOver

/-! ### Keys (R106, R109) -/

/-- Whether an image verifies as a Ryupel image: it claims slot 1 to 3, which holds the digest of its key (R106, R107). -/
def State.ryupelOk (s : State) (i : ImageCheck) : Bool :=
  i.present && !i.firmware && decide (1 ≤ i.keySlot ∧ i.keySlot ≤ 3) && i.sigOk && i.keyDigest = s.keyDigest i.keySlot &&
    s.keyDigest i.keySlot ≠ 0

/-- The boot record as the firmware finds it in the store (R102, R105). -/
def State.recordNow (s : State) : BootRecord :=
  match s.bootRecord with
  | some p => p.1
  | none => { seq := 0, digests := [0, 0, 0], debugLock := true, minVersion := 0, ok := false }

/-- A key record may be applied (R109). -/
def State.keyRecordOk (s : State) (r : KeyRecord) : Bool :=
  let now := s.recordNow
  (now.digests.all (fun d => d = 0) || (r.signed && s.ryupelOk r.image)) && !(now.debugLock && !r.debugLock) && decide (now.minVersion ≤ r.minVersion)

/-- A key record: applied to the copy of the boot record that is not in force, or rejected and counted (R102, R109). -/
def State.keyRecord (s : State) (r : KeyRecord) : State :=
  if s.boot.phase ≠ .run then s
  else if !s.keyRecordOk r then s.count R.BOOT_EVT_VERIFY_FAIL
  else
    let n : BootRecord :=
      { seq := (s.recordNow.seq + 1) % 4294967296, digests := (List.range 3).map (fun k => r.digests.getD k 0 % 2 ^ 384),
        debugLock := r.debugLock, minVersion := r.minVersion % 4294967296, ok := true }
    match s.bootRecord with
    | some (_, 0) => { s with boot := { s.boot with recB := n, writing := some 1 } }
    | _ => { s with boot := { s.boot with recA := n, writing := some 0 } }

/-- A Ryupel image is checked; one that fails is counted (R106, R110). Of one that verifies, the firmware will compare the bank images it
carries with their CRCs once each is loaded (R189). -/
def State.ryupelCheck (s : State) (i : ImageCheck) (banks : List (Half × Nat)) : State :=
  if s.boot.phase ≠ .run then s
  else if !s.ryupelOk i then s.count R.BOOT_EVT_VERIFY_FAIL
  else if s.isTile then forL banks (fun b a => a.setDarn (Half.no b.1) { a.darn (Half.no b.1) with expect := some b.2 }) s
  else s

/-! ### The debug access port (R108) -/

/-- A read of the map through the debug access port. -/
def State.debugRead (s : State) (a : Nat) : State :=
  match s.dwordError .kryty false (a / 4 * 4) with
  | some _ => s.emit .debugDenied
  | none => s.emit (.debug (BitVec.ofNat 32 (s.readDword .kryty (a / 4 * 4)).1))

/-- A debug access: while DEBUG_LOCK is 1 only reads of the ID registers, else full access (R108). The "ID page of each block", which the
spec names nowhere else, is taken as the register ID at page offset 0x000 (log entry 119). -/
def State.debugAccess (s : State) (acc : DebugAccess) : State :=
  if !s.bus.isOpen then s.emit .debugDenied
  else if s.on R.BOOT_DEBUG_DEBUG_LOCK then
    match acc with
    | .read a => if a < 0x100000 ∧ a % 4096 < 4 then s.debugRead a else s.emit .debugDenied
    | _ => s.emit .debugDenied
  else match acc with
    | .read a => s.debugRead a
    | .write a v =>
      (match s.dwordError .kryty true (a / 4 * 4) with
       | some _ => s.emit .debugDenied
       | none => s.writeDword .kryty (a / 4 * 4) v.toNat)
    | .halt => { s with boot := { s.boot with halted := true } }
    | .resume => { s with boot := { s.boot with halted := false } }
    | .memRead a => s.emit (.debug (BitVec.ofNat 32 (s.rd32 .dram (a / 4 * 4))))
    | .memWrite a v => s.wr32 .dram (a / 4 * 4) v.toNat

/-! ### Commands -/

/-- MEMORY_CLEAR_DONE (R439). -/
def execMemoryClearDone (s : State) : Host.Outcome State Fault Refusal := .next s.memoriesClear

/-- REF_DETECT (R89). -/
def execRefDetect (edges : Nat) (xtal : Bool) (s : State) : Host.Outcome State Fault Refusal := .next (s.refDetect edges xtal)

/-- PLL_LOCK_TIMEOUT (R105). -/
def execPllLockTimeout (s : State) : Host.Outcome State Fault Refusal := .next s.pllTimeout

/-- SLOT_VERIFY_DONE (R104). -/
def execSlotVerifyDone (a b : ImageCheck) (s : State) : Host.Outcome State Fault Refusal := .next (s.slotsChecked a b)

/-- LOAD_DATA_WRITE (R110). -/
def execLoadDataWrite (path : Path) (view : View) (value : Word) (s : State) : Host.Outcome State Fault Refusal :=
  .next (s.pathWrite path (viewAddr R.BOOT_LOAD_DATA_DATA view) [value] 15)

/-- LOAD_VERIFY (R110). -/
def execLoadVerify (path : Path) (view : View) (s : State) : Host.Outcome State Fault Refusal :=
  .next (s.command path view R.BOOT_LOAD_CMD_VERIFY 1)

/-- LOAD_VERIFY_DONE (R110). -/
def execLoadVerifyDone (img : ImageCheck) (s : State) : Host.Outcome State Fault Refusal :=
  .next (if s.on R.BOOT_LOAD_CMD_VERIFY then s.loadVerified img else s)

/-- KEY_RECORD_APPLY (R109). -/
def execKeyRecordApply (r : KeyRecord) (s : State) : Host.Outcome State Fault Refusal := .next (s.keyRecord r)

/-- RYUPEL_IMAGE_VERIFY (R106). -/
def execRyupelImageVerify (img : ImageCheck) (banks : List (Half × Nat)) (s : State) : Host.Outcome State Fault Refusal := .next (s.ryupelCheck img banks)

/-- DEBUG_ACCESS (R108). -/
def execDebugAccess (acc : DebugAccess) (s : State) : Host.Outcome State Fault Refusal := .next (s.debugAccess acc)

end Sys2Proof.Machine
end

