-- ==== Sys2Proof/Machine/Capture.lean ====
section
/-! DEFINITION. Pixel cells and locators at a node (R129, R140 to R143, R347). -/

namespace Sys2Proof.Machine

/-- A pixel-class cell: a tile captures it, a head relays what comes over a Spur link. -/
def State.pixelIn (s : State) (id : Nat) (c : Cell) (loc : Bool) : State :=
  if c.cls ≠ clsPixel || c.loc ≠ loc then s
  else
    let p := s.receive id c
    if !p.1 then p.2
    else match s.build with
      | .tile => if loc then p.2.capLocator c else (p.2.capPixel c).dramSlots
      | .head => if isSpur id && s.rd R.CRN_HEAD_ROLE ≠ roleStandby then p.2.relayCell c else p.2

/-- PIXEL_CELL (R141). -/
def execPixelCell (port : Nat) (cell : Cell) (s : State) : Host.Outcome State Fault Refusal := .next (s.pixelIn port cell false)

/-- LOCATOR (R140). -/
def execLocator (port : Nat) (cell : Cell) (s : State) : Host.Outcome State Fault Refusal := .next (s.pixelIn port cell true)

end Sys2Proof.Machine
end

