-- ==== Sys2Proof/Machine/Epoch.lean ====
section
/-! DEFINITION. The epoch timebase's commands (R36 to R47, R301). -/

namespace Sys2Proof.Machine

/-- What a tile does at an epoch boundary beside its timebase: a new composition on both halves, the lead vote and the frame of
each half, and a calibration that may have come due (R154, R194, R312, R388). -/
def State.tileBoundary (s : State) : State :=
  let s0 := (s.setLay { s.eng.lay with latched := false }).retireSync
  let j := s0.calJudge
  let s1 := j.setCal { j.eng.cal with opened := false, ended := false }
  ((((s1.pressBoundary 0).pressBoundary 1).scanStart).calCheck).dramSlots

/-- The epoch boundary (R36): the counter advances, finished delay measurements take effect, and the build's engines begin the
epoch. -/
def State.epochEdge (s : State) : State :=
  if !s.epcRuns then s
  else
    let s1 := (s.epcBoundary).applyDelays
    match s1.build with
    | .head => ((s1.heardEpoch).ptpSteer).sourceBoundary
    | .tile => (s1.windDone 4).tileBoundary

/-- A beacon is taken at a node (R41). -/
def State.beaconAt (s : State) (port : Nat) (c : Cell) (arrival : Int) : State :=
  if c.cls ≠ clsBeacon then s
  else
    let p := s.receive port c
    if !p.1 then p.2
    else match s.build with
      | .tile => p.2.tileBeacon port c arrival
      | .head => p.2.headBeacon port c arrival

/-- EPOCH_BOUNDARY (R36). -/
def execEpochBoundary (s : State) : Host.Outcome State Fault Refusal := .next s.epochEdge

/-- BEACON_SEND (R39). -/
def execBeaconSend (s : State) : Host.Outcome State Fault Refusal := .next s.beaconSend

/-- BEACON (R41). -/
def execBeacon (port : Nat) (cell : Cell) (arrival : Int) (s : State) : Host.Outcome State Fault Refusal :=
  .next (s.beaconAt port cell arrival)

/-- EPC_LOCKED (R45). -/
def execEpcLocked (s : State) : Host.Outcome State Fault Refusal := .next s.epcLock

/-- PHASE_STEP (R47). -/
def execPhaseStep (s : State) : Host.Outcome State Fault Refusal := .next s.phaseStep

/-- EPC_PERIOD_WRITE (R37). -/
def execEpcPeriodWrite (path : Path) (view : View) (value : Word) (s : State) : Host.Outcome State Fault Refusal :=
  .next (s.pathWrite path (viewAddr R.EPC_PERIOD_NS view) [value] 15)

end Sys2Proof.Machine
end

