-- ==== Sys2Proof/Machine/Ether.lean ====
section
/-! DEFINITION. Side ports: frames, the control-packet path, PTP (R348 to R356). -/

namespace Sys2Proof.Machine

/-- A FRAME cell at its destination (R351, R352). -/
def State.frameCell (s : State) (id : Nat) (c : Cell) : State :=
  if c.cls = clsBest && c.typ = 0 && !s.asleep id && s.frameMine id c then s.frameIn id c else s

/-- A control-packet doorbell of PF0 (R334, R353). -/
def State.cpBell (s : State) (off idx be : Nat) (f : State → State) : State :=
  if s.isTile || s.pins.perstLow || s.host.d3.contains 0 then s else s.onBell 0 off idx be f

/-- ETH_FRAME (R349). -/
def execEthFrame (port : Nat) (frame : EthFrame) (s : State) : Host.Outcome State Fault Refusal := .next (s.ethFrameIn port frame)

/-- FRAME (R351). -/
def execFrame (port : Nat) (cell : Cell) (s : State) : Host.Outcome State Fault Refusal := .next (s.frameCell port cell)

/-- CP_TX_DOORBELL (R353): `slots` are the transmit slots as host memory holds them. -/
def execCpTxDoorbell (idx be : Nat) (slots : List CpSlot) (s : State) : Host.Outcome State Fault Refusal :=
  .next (s.cpBell cpTxBell idx be (fun a => a.cpTransmit slots))

/-- CP_RX_DOORBELL (R353): slots are free again. -/
def execCpRxDoorbell (idx be : Nat) (s : State) : Host.Outcome State Fault Refusal := .next (s.cpBell cpRxBell idx be (fun a => a))

/-- PTP_MESSAGE (R355). -/
def execPtpMessage (port : Nat) (msg : PtpMessage) (s : State) : Host.Outcome State Fault Refusal := .next (s.ptpIn port msg)

/-- PTP_ANNOUNCE_TIMEOUT (R356). -/
def execPtpAnnounceTimeout (s : State) : Host.Outcome State Fault Refusal := 
  .next (if ptpUnlocked ≤ s.rd R.ETH_PTP_STATE_STATE then s.ptpTimeout.ptpLost else s)

end Sys2Proof.Machine
end

