-- ==== Sys2Proof/Machine/Fold.lean ====
section
/-! DEFINITION. The Fold: capture, shipping, reception, verification (R322 to R324). -/

namespace Sys2Proof.Machine

/-- A Fold cell of a type: a head takes it, and it asks nothing of a tile. -/
def State.foldIn (s : State) (id : Nat) (c : Cell) (typ : Nat) (f : State → State) : State :=
  if c.cls ≠ clsControl || c.typ ≠ typ then s
  else
    let p := s.receive id c
    if p.1 && !s.isTile then f p.2 else p.2

/-- FOLD_COMMIT (R323). -/
def execFoldCommit (path : Path) (view : View) (s : State) : Host.Outcome State Fault Refusal :=
  .next (s.command path view R.FLD_CMD_COMMIT 1)

/-- FOLD_PERIOD (R323). -/
def execFoldPeriod (s : State) : Host.Outcome State Fault Refusal := .next s.foldPeriod

/-- FOLD_CAPTURE_DONE (R323). -/
def execFoldCaptureDone (s : State) : Host.Outcome State Fault Refusal := .next s.captureDone

/-- FOLD_DATA (R324). -/
def execFoldData (port : Nat) (cell : Cell) (s : State) : Host.Outcome State Fault Refusal :=
  .next (s.foldIn port cell tFoldData (fun a => a.foldRx port cell))

/-- FOLD_ACK (R324). -/
def execFoldAck (port : Nat) (cell : Cell) (s : State) : Host.Outcome State Fault Refusal :=
  .next (s.foldIn port cell tFoldAck (fun a => a.foldAcked (pn cell 0 4)))

/-- FOLD_NACK (R324). -/
def execFoldNack (port : Nat) (cell : Cell) (s : State) : Host.Outcome State Fault Refusal :=
  .next (s.foldIn port cell tFoldNack (fun a => if pn cell 0 4 = a.rd R.FLD_SEQ_SEQ then a.foldFailed else a))

/-- FOLD_ACK_TIMEOUT (R324). -/
def execFoldAckTimeout (s : State) : Host.Outcome State Fault Refusal := .next (if s.ship = shWait then s.foldFailed else s)

/-- FOLD_VERIFY (R322). -/
def execFoldVerify (path : Path) (view : View) (s : State) : Host.Outcome State Fault Refusal :=
  .next (s.command path view R.FLD_CMD_VERIFY 1)

/-- FOLD_VERIFY_DONE (R322). -/
def execFoldVerifyDone (s : State) : Host.Outcome State Fault Refusal := .next (if s.on R.FLD_CMD_VERIFY then s.foldVerified else s)

end Sys2Proof.Machine
end

