-- ==== Sys2Proof/Machine/Lane.lean ====
section
/-! DEFINITION. Lanes: bring-up, loss of lock and QUIET (R281, R282, R302). -/

namespace Sys2Proof.Machine

/-- A lane of a port that comes up. -/
def State.onLane (s : State) (lane : Nat) (f : Nat → State) : State :=
  match s.laneOwner lane with
  | some id => if s.portOn id && !s.asleep id then f id else s
  | none => s

/-- A stage times out or fails: only stages 2 to 10 have a limit (R281, R282). -/
def State.stageTimeout (s : State) (id lane reason : Nat) : State :=
  let st := s.rd (R.LNE_STATE_STAGE lane)
  if 2 ≤ st ∧ st ≤ 10 then s.stageFail id lane reason else s

/-- A lane that is up loses lock: bring-up of its port restarts; a port that was UP goes DOWN, one that shows LOOP was not UP, and in the TURN loopback
it loses its lanes' cells (R282, R299, R304). -/
def State.lockLost (s : State) (id lane : Nat) : State :=
  if s.rd (R.LNE_STATE_STAGE lane) ≠ 11 then s
  else
    let s1 := s.count (R.LNE_EVT_LOL lane)
    (if s.portState id = 2 then s1.portDown id 1 else if s.loopOf id = 2 then s1.portLost id 1 else s1).startTraining id

/-- The lanes of a port whose transmit direction is QUIET. -/
def State.quietLanes (s : State) (id : Nat) : List Nat := (s.portLanes id).filter (fun k => s.rd (R.LNE_STATE_TXPS k) = 1)

/-- No cell waits at an output. -/
def State.outEmpty (s : State) (id : Nat) : Bool :=
  let p := s.port id
  p.q0.isEmpty && p.q1.isEmpty && p.q2.isEmpty && p.q3.isEmpty

/-- A port's output holds only IDLE cells: none waits, or the CELL loopback turns them back above the lanes (R302, R304). -/
def State.outIdle (s : State) (id : Nat) : Bool := s.outEmpty id || s.loopOf id = 1

/-- An idle output enters QUIET, in Shoulder (R302). -/
def State.quietEnter (s : State) (id : Nat) : State :=
  if s.lanesUp id && s.pstate = pShoulder && s.outIdle id then
    forL (s.portLanes id) (fun k a => if a.on (R.LNE_CFG_QUIET_EN k) && a.rd (R.LNE_STATE_TXPS k) = 0 then a.wr (R.LNE_STATE_TXPS k) 1 else a) s
  else s

/-- A lane's receive direction follows the far end's transmitter into QUIET, and out of it (R302). -/
def State.quietFollow (s : State) (id was now : Nat) : State :=
  if s.lanesUp id then
    forL (s.portLanes id) (fun k a => if a.rd (R.LNE_STATE_RXPS k) = was then a.wr (R.LNE_STATE_RXPS k) now else a) s
  else s

/-- Cell times go by on a QUIET output whose test generator runs: the window ends, and the next brings a TEST cell (R302, R305). That it does so at
the exit from QUIET is a DESIGN CHOICE, log entry 184. -/
def State.quietWindow (s : State) (id : Nat) : State :=
  if s.lanesUp id && s.outEmpty id && s.loopOf id ≠ 1 && s.testOn id && !(s.quietLanes id).isEmpty then
    (s.setPort id { s.port id with win := 0, beSent := 0, carryIn := (s.port id).carryOut, carryOut := 0, paced := 0, testSent := 0 }).testGen id
  else s

/-- A QUIET direction returns to ACTIVE for a cell to send, or when the device has left Shoulder (R302). -/
def State.quietExit (s : State) (id : Nat) : State :=
  let t := s.quietWindow id
  if portExists s.build id && (!t.outIdle id || s.pstate ≠ pShoulder) then forL (t.quietLanes id) (fun k a => a.wr (R.LNE_STATE_TXPS k) 0) t
  else s

/-- LANE_STAGE_DONE (R281). -/
def execLaneStageDone (lane : Nat) (info : StageInfo) (s : State) : Host.Outcome State Fault Refusal :=
  .next (s.onLane lane (fun id => s.stageDone id lane info))

/-- STAGE_TIMEOUT (R282). -/
def execStageTimeout (lane reason : Nat) (s : State) : Host.Outcome State Fault Refusal :=
  .next (s.onLane lane (fun id => s.stageTimeout id lane reason))

/-- PORT_RETRY (R282). -/
def execPortRetry (port : Nat) (s : State) : Host.Outcome State Fault Refusal :=
  .next (if portExists s.build port && (s.portState port = 4 || (s.loopOf port ≠ 0 && s.allAt port 12)) && !s.asleep port then s.startTraining port else s)

/-- LOSS_OF_LOCK (R282). -/
def execLossOfLock (lane : Nat) (s : State) : Host.Outcome State Fault Refusal :=
  .next (s.onLane lane (fun id => s.lockLost id lane))

/-- QUIET_ENTER (R302). -/
def execQuietEnter (port : Nat) (dir : LaneDir) (s : State) : Host.Outcome State Fault Refusal :=
  .next (match dir with | .tx => s.quietEnter port | .rx => s.quietFollow port 0 1)

/-- QUIET_REFRESH (R302). -/
def execQuietRefresh (port : Nat) (s : State) : Host.Outcome State Fault Refusal :=
  .next (if portExists s.build port && !(s.quietLanes port).isEmpty then s.wireMarkers port else s)

/-- QUIET_EXIT (R302). -/
def execQuietExit (port : Nat) (dir : LaneDir) (s : State) : Host.Outcome State Fault Refusal :=
  .next (match dir with | .tx => s.quietExit port | .rx => s.quietFollow port 1 0)

end Sys2Proof.Machine
end

