-- ==== Sys2Proof/Machine/Link.lean ====
section
/-! DEFINITION. Link management: positions, neighbours, delay measurement, breaks and pacing (R292, R297 to R300, R441). -/

namespace Sys2Proof.Machine

/-- A tile takes its position from DISCOVER (R297). One of a foreign head is ignored and counted at the port it came by. DEDUCED, log
entry 37. -/
def State.tileDiscover (s : State) (id : Nat) (c : Cell) : State :=
  let node := s.rd (R.RING_STATE_NODE 0)
  let head := pb c 0 % 64
  if node ≠ noNode && nodeHead node ≠ head then s.count (R.RING_EVT_CONFLICT (portRing id))
  else if 63 < c.hops + 1 || decide (12 ≤ pb c 1 % 16) then s.count (R.RING_EVT_CONFLICT 0)
  else (s.setNode (nodeId head (pb c 1 % 16) (c.hops + 1))).eastGave false

/-- End B of the head that sent it records the number of tiles, a standby between them not counted (R297). -/
def State.headDiscover (s : State) (id : Nat) (c : Cell) : State :=
  let p := portRing id
  if isSpur id || portEnd id = 0 || pb c 0 % 64 ≠ s.headNo || pb c 1 % 16 ≠ p then s
  else
    s.wr (R.RING_STATE_COUNT p) (c.hops - b2n (s.standbyOn p))

/-- A DISCOVER cell (R297). -/
def State.discover (s : State) (id : Nat) (c : Cell) : State :=
  if c.cls ≠ clsControl || c.typ ≠ tDiscover then s
  else
    let p := s.receive id c
    if !p.1 then p.2 else match s.build with | .tile => p.2.tileDiscover id c | .head => p.2.headDiscover id c

/-- A NEIGH cell in stage 9 (R298, R344). -/
def State.neighIn (s : State) (id : Nat) (c : Cell) : State :=
  if c.typ = tNeigh && s.receiveLocal id c && s.training id && s.allAt id 9 then s.neighTaken id c else s

/-- A DLY_REQ: the response carries the residence time (R300). -/
def State.dlyReqIn (s : State) (id : Nat) (c : Cell) (residence : Nat) : State :=
  if c.typ = tDlyReq && s.receiveLocal id c && s.portState id ≠ 0 && !s.asleep id then
    s.sendLocal id tDlyRsp (natLE (pb c 0) 8 ++ natLE residence 8)
  else s

/-- A measurement of a port of a ring port has ended: REMEASURE clears with the last (R300). -/
def State.remeasured (s : State) (id : Nat) : State :=
  if isSpur id then s
  else
    let l := enablePorts s.build id
    if l.any (fun i => (s.port i).measuring) then s else s.wr (R.RING_CMD_REMEASURE (portRing id)) 0

/-- A DLY_RSP: one result; after 16 the trimmed mean waits for the epoch boundary (R300). -/
def State.dlyRspIn (s : State) (id : Nat) (c : Cell) (roundTrip : Nat) : State :=
  if c.typ = tDlyRsp && s.receiveLocal id c && !s.asleep id && (s.port id).measuring then
    let p := s.port id
    let l := p.dlyRes ++ [(roundTrip - pn c 8 8) / 2]
    if l.length < 16 then s.setPort id { p with dlyRes := l }
    else (s.setPort id { p with dlyRes := [], dlySent := 0, measuring := false, dlyNext := some (trimmedMean l) }).remeasured id
  else s

/-- A microsecond of a measurement: its next DLY_REQ is sent (R300). On a port that is UP, the one after the sixteenth finds results missing: the
measurement ends without a result. DESIGN CHOICE, log entry 185; in bring-up stage 10 times out. -/
def State.dlyReqOut (s : State) (id : Nat) : State :=
  let p := s.port id
  if !(portExists s.build id && p.measuring && !s.asleep id) then s
  else if p.dlySent < 16 then
    (if s.localOut id then (s.setPort id { p with dlySent := p.dlySent + 1 }).sendLocal id tDlyReq (natLE p.dlySent 1) else s)
  else if s.portUp id then (s.setPort id { p with measuring := false, dlySent := 0, dlyRes := [] }).remeasured id
  else s

/-- LINKDOWN or LINKUP of another link of the ring (R299). -/
def State.linkChange (s : State) (id : Nat) (c : Cell) (typ : Nat) : State :=
  if c.cls ≠ clsControl || c.typ ≠ typ || isSpur id then s
  else
    let p := s.receive id c
    if !p.1 then p.2 else if typ = tLinkdown then p.2.noteBreak id (pb c 0 % 64) else p.2.noteUp id (pb c 0 % 64)

/-- PACE of the end of a ring that a direction leaves from (R292, R441). -/
def State.pace (s : State) (r e : Nat) (b : Bool) : State :=
  s.wrB (if e = 0 then R.RING_STATE_PACE_A r else R.RING_STATE_PACE_B r) b

/-- SHARE_REQ (R292): it asks nothing of a tile. -/
def State.shareIn (s : State) (id : Nat) (c : Cell) : State :=
  if c.cls ≠ clsControl || c.typ ≠ tShareReq || isSpur id then s
  else
    let p := s.receive id c
    if !p.1 || s.isTile || decide (2 ≤ pb c 0) then p.2
    else
      let r := portRing id
      let e := if s.dirOut (2 * r) = pb c 0 then 0 else 1
      p.2.pace r e true

/-- The 50 us repeat of SHARE_REQ while its condition lasts (R292). -/
def State.shareAgain (s : State) (id : Nat) : State :=
  let p := s.port id
  if !portExists s.build id || !p.sharing then s
  else if p.q2.isEmpty || p.q3.isEmpty then s.setPort id { p with sharing := false }
  else s.sendShareReq id

/-- DISCOVER (R297). -/
def execDiscover (port : Nat) (cell : Cell) (s : State) : Host.Outcome State Fault Refusal := .next (s.discover port cell)

/-- RING_DISCOVER (R297). -/
def execRingDiscover (path : Path) (view : View) (ring : Nat) (s : State) : Host.Outcome State Fault Refusal :=
  .next (if 12 ≤ ring then s else s.command path view (R.RING_CMD_DISCOVER ring) 1)

/-- NEIGH (R298). -/
def execNeigh (port : Nat) (cell : Cell) (s : State) : Host.Outcome State Fault Refusal := .next (s.neighIn port cell)

/-- DLY_REQ (R300). -/
def execDlyReq (port : Nat) (cell : Cell) (residence : Nat) (s : State) : Host.Outcome State Fault Refusal :=
  .next (s.dlyReqIn port cell residence)

/-- DLY_RSP (R300). -/
def execDlyRsp (port : Nat) (cell : Cell) (roundTrip : Nat) (s : State) : Host.Outcome State Fault Refusal :=
  .next (s.dlyRspIn port cell roundTrip)

/-- DELAY_MEASURE_START (R300): not while a measurement still has requests to send; one that waits for results longer than that is lost (log entry 185). -/
def execDelayMeasureStart (port : Nat) (s : State) : Host.Outcome State Fault Refusal :=
  .next (if portExists s.build port && (!(s.port port).measuring || decide (16 ≤ (s.port port).dlySent)) then s.startMeasure port else s)

/-- REMEASURE (R300). -/
def execRemeasure (path : Path) (view : View) (ring : Nat) (s : State) : Host.Outcome State Fault Refusal :=
  .next (if 12 ≤ ring then s else s.command path view (R.RING_CMD_REMEASURE ring) 1)

/-- DLY_REQ_SEND (R300). -/
def execDlyReqSend (port : Nat) (s : State) : Host.Outcome State Fault Refusal := .next (s.dlyReqOut port)

/-- LINKDOWN (R299). -/
def execLinkdown (port : Nat) (cell : Cell) (s : State) : Host.Outcome State Fault Refusal := .next (s.linkChange port cell tLinkdown)

/-- LINKUP (R299). -/
def execLinkup (port : Nat) (cell : Cell) (s : State) : Host.Outcome State Fault Refusal := .next (s.linkChange port cell tLinkup)

/-- SHARE_REQ (R292). -/
def execShareReq (port : Nat) (cell : Cell) (s : State) : Host.Outcome State Fault Refusal := .next (s.shareIn port cell)

/-- SHARE_REQ_REPEAT (R292). -/
def execShareReqRepeat (port : Nat) (s : State) : Host.Outcome State Fault Refusal := .next (s.shareAgain port)

/-- PACING_EXPIRE (R292). -/
def execPacingExpire (port : Nat) (s : State) : Host.Outcome State Fault Refusal :=
  .next (if s.isTile || isSpur port || !portExists s.build port then s else s.pace (portRing port) (portEnd port) false)

end Sys2Proof.Machine
end

