-- ==== Sys2Proof/Machine/Remote.lean ====
section
/-! DEFINITION. Remote register access and events (R75, R78, R338 to R343). -/

namespace Sys2Proof.Machine

/-- A REG_RSP to the originator of a request that came in at a port (R340). -/
def State.respond (s : State) (id : Nat) (c : Cell) (err : Bool) (reason : Nat) (data : List Word) : State :=
  let pl := natLE (pn c 0 4) 4 ++ natLE (pb c 4) 1 ++ natLE (if err then reason else 0) 1 ++ natLE 0 10 ++ bytesOf data
  let mk (x : Cell) : Cell := { x with rsp := true, err := err, aux := c.aux }
  if isSpur id then s.originateSpur (nodeHead c.src) mk tRegRsp c.src pl else s.originate (portRing id) mk tRegRsp c.src pl

/-- Perform a register request at its target and answer it (R55, R75, R317, R340). -/
def State.regPerform (s : State) (id : Nat) (c : Cell) (write : Bool) : State :=
  let addr := pn c 0 4 % 2097152
  let n := pb c 4
  let posted := write && pb c 5 % 2 = 1
  if write && s.isTile && s.on R.CRN_MASTER_HEAD_VALID && nodeHead c.src ≠ s.rd R.CRN_MASTER_HEAD_HEAD then
    let s1 := s.count R.CRN_EVT_FOREIGN
    if posted then s1 else s1.respond id c true beRemote []
  else match s.busError .remote write addr n (16 ^ n - 1) with
    | some (a, r) =>
      let s1 := s.logBerr a r write .remote s.ownNode
      if posted then s1 else s1.respond id c true r []
    | none =>
      if write then
        let s1 := s.writeDwords .remote addr (wordsOf (takePad (c.payload.drop 16) (4 * n)))
        if posted then s1 else s1.respond id c false 0 []
      else
        let p := s.readDwords .remote addr n
        p.2.respond id c false 0 p.1

/-- A head puts a request that came over the Spur for one of its tiles onto the tile's ring, from its own node there (R338); a standby forwards no Spur
cell (R345). -/
def State.regRelay (s : State) (c : Cell) (write : Bool) : State :=
  let posted := write && pb c 5 % 2 = 1
  if s.rd R.CRN_HEAD_ROLE = roleStandby then s else
  let s1 := if posted then s else { s with host := { s.host with relayed := s.host.relayed ++
    [{ tag := c.aux, tile := c.dest, origin := c.src, addr := pn c 0 4 % 2097152, count := pb c 4, write := write }] } }
  s1.originate (nodeRing c.dest) (fun x => { x with aux := c.aux }) c.typ c.dest c.payload

/-- A cell at a Spur port whose DEST no node answers for: an ID with ring field 12 to 15 of this head, or a head without a route (R7, R75, R338). -/
def State.noNodeAt (s : State) (id : Nat) (c : Cell) : Bool :=
  let h := s.aliasOf (nodeHead c.dest)
  isSpur id && !s.isTile && s.portUp id && hcrcOk c && typeOk c && trailerOk c && decide (c.hops + 1 ≤ 8) && !c.bcast &&
    (if h = s.headNo then decide (12 ≤ nodeRing c.dest) else !s.on (R.SPR_ROUTE_VALID h) && s.rd R.CRN_HEAD_ROLE ≠ roleStandby)

/-- A REG_RD or REG_WR cell at a node (R338, R340): performed, or relayed onto a ring; where no node answers for its DEST, NO_NODE is logged, and a non-posted
request gets an error response (R75). -/
def State.regIn (s : State) (id : Nat) (c : Cell) (write : Bool) : State :=
  if c.cls ≠ clsControl || c.typ ≠ (if write then tRegWr else tRegRd) then s
  else
    let p := s.receive id c
    if p.1 then (if !s.isTile && nodePos c.dest ≠ 0 then p.2.regRelay c write else p.2.regPerform id c write)
    else if s.noNodeAt id c then
      let s1 := p.2.logBerr (pn c 0 4 % 2097152) beNoNode write .remote c.dest
      if write && pb c 5 % 2 = 1 then s1 else s1.respond id c true beNoNode []
    else p.2

/-- The relayed request an answer belongs to. -/
def State.relayedOf (s : State) (tag tile : Nat) : Option Relayed := s.host.relayed.find? (fun e => e.tag = tag && e.tile = tile)

/-- Take a relayed request off the list. -/
def State.unrelay (s : State) (e : Relayed) : State := { s with host := { s.host with relayed := s.host.relayed.erase e } }

/-- A REG_RSP cell: it asks nothing of a tile; at a head, it is passed on to the head it relayed for, or the answer to a request of the host (R340). -/
def State.regRspIn (s : State) (id : Nat) (c : Cell) : State :=
  if c.cls ≠ clsControl || c.typ ≠ tRegRsp then s
  else
    let p := s.receive id c
    if !p.1 || s.isTile then p.2
    else match p.2.relayedOf c.aux c.src with
      | some e =>
        (p.2.unrelay e).originateSpur (nodeHead e.origin) (fun x => { x with src := c.src, rsp := true, err := c.err, aux := c.aux }) tRegRsp e.origin c.payload
      | none => p.2.remoteAnswer c.aux c.src (pn c 0 4 % 2097152) (pb c 4) c.err ((takePad c.payload 256).drop 16)

/-- No response within the ring timeout: ABSENT_NODE (R75). -/
def State.remoteTimeout (s : State) (tag : Nat) : State :=
  if s.isTile then s
  else match s.host.remotes.find? (fun (x : Remote) => x.tag = tag) with
    | some x => ((s.count R.HST_EVT_ABSENT).logBerr x.addr beAbsentNode false .pcie x.node).remoteEnd { x with failed := true }
    | none => match s.host.relayed.find? (fun e => e.tag = tag) with
      | some e =>
        (((s.unrelay e).count R.HST_EVT_ABSENT).logBerr e.addr beAbsentNode e.write .remote e.tile).originateSpur (nodeHead e.origin)
          (fun x => { x with src := e.tile, rsp := true, err := true, aux := tag }) tRegRsp e.origin (natLE e.addr 4 ++ natLE e.count 1 ++ natLE beAbsentNode 1)
      | none => s

/-- A write with a byte enable missing (R55). -/
def partEnabled (q : HostReq) : Bool := q.write && (List.range q.data.length).any (fun i => q.be / 16 ^ i % 16 ≠ 15)

/-- A BAR2 request of the host (R338): local, remote, or to no node. The target judges a remote request and logs its bus error (R75): an over-long one goes to
it as one cell of its own COUNT, which the target finds TOO_LONG (R340). A cell carries no byte enables (R55): a partial write goes to no target, and
this head, which is not the one to log it, logs nothing. Log entry 88.
A NO_NODE or ABSENT_NODE that this head logs shows the path of its own PCIe requests: R75 has no code for BAR2 there. DESIGN CHOICE, log entry 189. -/
def State.bar2 (s : State) (o : Nat) (q : HostReq) : State :=
  if !s.pathOpen .pcie || s.isTile then s
  else
    let addr := o % 2097152
    let stop (r node : Nat) : State :=
      let s1 := s.logBerr (addr / 4 * 4) r q.write .pcie node
      if q.write then s1 else s1.completerAbort
    match s.aptTarget o with
    | .noNode => stop beNoNode (s.rd (R.HST_APT_NODE (o / 2097152 % 128)))
    | .local => if q.write then s.pathWrite .pcie addr q.data q.be else s.pathRead .pcie addr q.count
    | .remote _ node =>
      if !q.write then s.remoteRead node (addr / 4 * 4) q.count
      else if partEnabled q && !overLong addr q.data.length then s
      else s.remoteWrite node (addr / 4 * 4) q.data

/-- An EVENT cell (R342): it asks nothing of a tile. -/
def State.eventCell (s : State) (id : Nat) (c : Cell) : State :=
  if c.cls ≠ clsControl || c.typ ≠ tEvent then s
  else
    let p := s.receive id c
    if p.1 && !s.isTile then p.2.eventIn id c else p.2

/-- REG_RD (R340). -/
def execRegRd (port : Nat) (cell : Cell) (s : State) : Host.Outcome State Fault Refusal := .next (s.regIn port cell false)

/-- REG_WR (R340). -/
def execRegWr (port : Nat) (cell : Cell) (s : State) : Host.Outcome State Fault Refusal := .next (s.regIn port cell true)

/-- REG_RSP (R340). -/
def execRegRsp (port : Nat) (cell : Cell) (s : State) : Host.Outcome State Fault Refusal := .next (s.regRspIn port cell)

/-- REMOTE_TIMEOUT (R75). -/
def execRemoteTimeout (tag : Nat) (s : State) : Host.Outcome State Fault Refusal := .next (s.remoteTimeout tag)

/-- EVENT (R342). -/
def execEvent (port : Nat) (cell : Cell) (s : State) : Host.Outcome State Fault Refusal := .next (s.eventCell port cell)

/-- EVQ_HOLDOFF_EXPIRE (R343). -/
def execEvqHoldoffExpire (q : Nat) (s : State) : Host.Outcome State Fault Refusal := .next (s.holdoffEnd q)

/-- EVQ_DOORBELL (R334, R343): an access of the host to BAR4 of PF0. -/
def execEvqDoorbell (q : Nat) (acc : Bar4) (s : State) : Host.Outcome State Fault Refusal :=
  .next (match acc with | .bell idx be => s.evqBell q idx be | .access off req => s.bar4 0 off req)

/-- BAR2_REQUEST (R338). -/
def execBar2Request (offset : Nat) (req : HostReq) (s : State) : Host.Outcome State Fault Refusal := .next (s.bar2 offset req)

/-- APERTURE_WRITE (R339). -/
def execApertureWrite (path : Path) (view : View) (a : Nat) (value : Word) (s : State) : Host.Outcome State Fault Refusal :=
  .next (if 128 ≤ a then s else s.pathWrite path (viewAddr (R.HST_APT_NODE a) view) [value] 15)

end Sys2Proof.Machine
end

