-- ==== Sys2Proof/Machine/Ridge.lean ====
section
/-! DEFINITION. Cells at a port: codewords, forwarding, IDLE and TEST cells (R277, R279, R284 to R289, R305). The output side,
CELL_BOUNDARY, is in Boundary.lean. -/

namespace Sys2Proof.Machine

/-- A codeword has been decoded on a port: `corrected` gives the symbols corrected by port lane; beyond 15 it is uncorrectable (R279). -/
def State.codeword (s : State) (id : Nat) (corrected : List Nat) (uncorrectable : Bool) : State :=
  if !portExists s.build id || s.asleep id || s.portState id = 0 then s
  else if uncorrectable || decide (15 < corrected.foldl (· + ·) 0) then s.countRing id R.RING_EVT_UNCORR
  else forL ((s.rxLanes id).zip corrected) (fun p a => a.bump (R.LNE_CORR p.1) p.2) s

/-- A TEST cell at the checker of the receiving port (R305): the first after its enable sets the sequence, the others are
compared with it. -/
def State.testCell (s : State) (id : Nat) (c : Cell) : State :=
  if c.cls ≠ clsBest || c.typ ≠ 1 || isSpur id then s
  else
    let p := s.receive id c
    let r := portRing id
    if !p.1 || !bitOf (p.2.rd (R.RING_CTRL_CHK (r / 4))) (r % 4) then p.2
    else
      let s1 := p.2.count (R.RING_TEST_CELLS r)
      let x := s1.port id
      let pl := takePad c.payload 256
      if !x.prbsOn then s1.setPort id { x with prbsOn := true, prbsRx := prbsFrom pl }
      else
        let want := prbsBytes x.prbsRx 256
        (s1.bump (R.RING_TEST_ERR r) (bitErrors pl want.1)).setPort id { x with prbsRx := want.2 }

/-- CODEWORD (R279). -/
def execCodeword (port : Nat) (corrected : List Nat) (uncorrectable : Bool) (s : State) : Host.Outcome State Fault Refusal :=
  .next (s.codeword port corrected uncorrectable)

/-- CELL_FORWARD (R288). -/
def execCellForward (port : Nat) (cell : Cell) (s : State) : Host.Outcome State Fault Refusal := .next (s.cellIn port cell)

/-- IDLE (R277): discarded, neither forwarded nor counted. -/
def execIdle (_port : Nat) (s : State) : Host.Outcome State Fault Refusal := .next s

/-- TEST (R305). -/
def execTest (port : Nat) (cell : Cell) (s : State) : Host.Outcome State Fault Refusal := .next (s.testCell port cell)

end Sys2Proof.Machine
end

