-- ==== Sys2Proof/Machine/Boundary.lean ====
section
/-! DEFINITION. The output side of a port: cell boundaries, and the CELL loopback (R291, R292, R304). -/

namespace Sys2Proof.Machine

/-- A control cell at the port it arrives on, by its type (R293). -/
def State.controlCell (s : State) (id : Nat) (c : Cell) : State :=
  if c.typ = tRegRd then s.regIn id c false
  else if c.typ = tRegWr then s.regIn id c true
  else if c.typ = tRegRsp then s.regRspIn id c
  else if c.typ = tEvent then s.eventCell id c
  else if c.typ = tDiscover then s.discover id c
  else if c.typ = tLinkdown || c.typ = tLinkup then s.linkChange id c c.typ
  else if c.typ = tShareReq then s.shareIn id c
  else if c.typ = tResign then s.resignIn id c
  else if c.typ = tTake then s.takeIn id c
  else if c.typ = tFoldData then s.foldIn id c tFoldData (fun a => a.foldRx id c)
  else if c.typ = tFoldAck then s.foldIn id c tFoldAck (fun a => a.foldAcked (pn c 0 4))
  else if c.typ = tFoldNack then s.foldIn id c tFoldNack (fun a => if pn c 0 4 = a.rd R.FLD_SEQ_SEQ then a.foldFailed else a)
  else s

/-- The cell at hand is one that the CELL loopback of the port turns back. -/
def State.setTurned (s : State) (id : Nat) (b : Bool) : State := s.setPort id { s.port id with turned := b }

/-- A cell in the CELL loopback comes to the port's own receive path (R304). When a looped beacon arrives is open: a free value. -/
def State.looped (s : State) (id : Nat) (c : Cell) : State :=
  let s1 := (s.setTurned id true).cellIn id c
  let s2 := if c.cls = clsBeacon then s1.useFree.beaconAt id c (s1.freeVal : Int)
    else if c.cls = clsControl then s1.controlCell id c
    else if c.cls = clsPixel then s1.pixelIn id c c.loc
    else (s1.testCell id c).frameCell id c
  s2.setTurned id false

/-- An output sends: its lanes are up and awake, and every lane sends the codeword stream and is ACTIVE, none QUIET, in SLEEP, or on its way
back from it (R280, R291, R302). The CELL loopback needs no lanes (R304). -/
def State.mayBoundary (s : State) (id : Nat) : Bool :=
  portExists s.build id && !s.asleep id &&
    (s.portState id = 3 && s.loopOf id = 1 || (s.lanesIn id && s.lanesSend id && !(s.port id).waking))

/-- Before its port is UP, and on the way back from SLEEP, a transmitter whose lanes all send the codeword stream sends IDLE cells (R277, R280). -/
def State.sendsIdle (s : State) (id : Nat) : Bool :=
  portExists s.build id && !s.asleep id && (s.training id || (s.port id).waking) && s.lanesSend id

/-- One output cell boundary: what waits for room moves into the queues, and one cell or IDLE leaves (R291). -/
def State.cellBoundary (s : State) (id : Nat) : State :=
  if !s.mayBoundary id then (if s.sendsIdle id then s.wireIdle id else s)
  else
    let s1 := if s.isTile then s else s.refill (if isSpur id then spurKey else portRing id) id
    let p := ((s1.testGen id).beRefill id).boundaryOut id
    let s2 := p.1.foldSent
    match p.2 with
    | none => s2
    | some c => s2.looped id c

/-- CELL_BOUNDARY (R291). -/
def execCellBoundary (port : Nat) (s : State) : Host.Outcome State Fault Refusal := .next (s.cellBoundary port).dramSlots

end Sys2Proof.Machine
end

