-- ==== Sys2Proof/Machine/Cairn.lean ====
section
/-! DEFINITION. The Cairn voter's disagreements (R308 to R310). -/

namespace Sys2Proof.Machine

/-- The stored copies of an item; a head has a term for each ring port, a tile one. -/
def State.tri (s : State) (item : CairnItem) : Tri :=
  match item with
  | .lamp => s.cairn.lamp
  | .epoch => s.cairn.epoch
  | .term r => s.termTri r

def State.setTri (s : State) (item : CairnItem) (t : Tri) : State :=
  match item with
  | .lamp => { s with cairn := { s.cairn with lamp := t } }
  | .epoch => { s with cairn := { s.cairn with epoch := t } }
  | .term r => { s with cairn := { s.cairn with terms := Sparse.put s.cairn.terms r t } }

/-- The values an item's copy can hold. -/
def itemSize : CairnItem → Nat
  | .lamp => 2
  | _ => 4294967296

/-- Whether the build has the item (R307). -/
def State.hasItem (s : State) (item : CairnItem) : Bool :=
  match item with
  | .term r => decide (r < match s.build with | .head => 12 | .tile => 1)
  | _ => true

/-- CRN_LAST_DIS. -/
def State.lastDis (s : State) (item : CairnItem) (copy : Nat) : State :=
  let code := match item with | .lamp => 1 | .epoch => 2 | .term _ => 3
  let ring := match item with | .term r => r | _ => 0
  ((s.wr R.CRN_LAST_DIS_ITEM code).wr R.CRN_LAST_DIS_RING ring).wr R.CRN_LAST_DIS_COPY copy

/-- The copies of an item stand at three values (R309): an odd copy is scrubbed, a second disagreement within 1 ms and a split are
Cairn disagreements, with the response of R310. -/
def State.copies (s : State) (item : CairnItem) (c0 c1 c2 : Nat) (again : Bool) : State :=
  let n := itemSize item
  let t : Tri := { c0 := c0 % n, c1 := c1 % n, c2 := c2 % n, last := (s.tri item).voted }
  if !s.hasItem item then s
  else if t.split then
    ((((s.setTri item t).count R.CRN_EVT_SPLIT).count R.CRN_EVT_DISAGREE).lastDis item 3).cairnDisagree item 3
  else match t.odd with
    | none => s
    | some k =>
      let s1 := ((s.setTri item (Tri.set t.voted)).count R.CRN_EVT_SCRUB).lastDis item k
      if again then (s1.count R.CRN_EVT_DISAGREE).cairnDisagree item k else s1

/-- CAIRN_COPY_DISAGREE (R309). -/
def execCairnCopyDisagree (item : CairnItem) (c0 c1 c2 : Nat) (within1ms : Bool) (s : State) : Host.Outcome State Fault Refusal :=
  .next ((s.copies item c0 c1 c2 within1ms).keepDark s)

end Sys2Proof.Machine
end

