-- ==== Sys2Proof/Machine/Calib.lean ====
section
/-! DEFINITION. Self-calibration (R387 to R395). -/

namespace Sys2Proof.Machine

/-- CAL_RUN (R388). -/
def execCalRun (path : Path) (view : View) (s : State) : Host.Outcome State Fault Refusal := .next (s.command path view R.CAL_CMD_RUN 1)

/-- CAL_ABORT (R395). -/
def execCalAbort (path : Path) (view : View) (s : State) : Host.Outcome State Fault Refusal := .next (s.command path view R.CAL_CMD_ABORT 1)

/-- CAL_SLICE (R390). -/
def execCalSlice (result : Int) (s : State) : Host.Outcome State Fault Refusal := .next (s.calSlice result)

/-- CAL_APPLY (R393). -/
def execCalApply (s : State) : Host.Outcome State Fault Refusal := .next s.calApply

end Sys2Proof.Machine
end

