-- ==== Sys2Proof/Machine/CheckOps.lean ====
section
/-! DEFINITION. The configuration walker's pass (R81 to R85), and an upset of checked content. -/

namespace Sys2Proof.Machine

/-- Whether a field of a page is checked (R81): RW and W1, but CTRL bits [1:0]. -/
def checkedFld (off : Nat) (f : Fld) : Bool :=
  (match f.cls with | .rw => true | .w1 => true | _ => false) && !(off = 4 && f.lsb < 2)

/-- The checked fields of a dword of a page. -/
def checkedAt (b : Blk) (bd : Build) (w off : Nat) : List Fld :=
  match fldsAt b bd w off with
  | some (l, false) => l.filter (checkedFld off)
  | _ => []

/-- What the walker feeds of a page: each dword with checked bits, masked to them, least significant byte first (R82). -/
def State.pageBytes (s : State) (b : Blk) (w : Nat) : List Byte :=
  (List.range 1024).flatMap (fun i =>
    let l := checkedAt b s.build w (4 * i)
    if l.isEmpty then [] else natLE (s.packFlds l) 4)

/-- The pages the build has, in ascending base address. -/
def pageList (bd : Build) : List (Blk × Nat) :=
  (List.range 64).filterMap (fun i => match winBlk i with | some (b, w) => if w < b.wins bd then some (b, w) else none | none => none)

/-- The checked memory regions: loop program memory, and on a tile the feed-forward tables and the lamp map (R81, R87). -/
def checkedMems : Build → List (Nat × Nat)
  | .head => [(0x100000, 0x10000)]
  | .tile => [(0x100000, 0x10000), (0x128000, 0xC00), (0x180000, 0x40000)]

/-- What the walker feeds in a pass (R82). -/
def State.passBytes (s : State) : List Byte :=
  (pageList s.build).flatMap (fun p => s.pageBytes p.1 p.2) ++ (checkedMems s.build).flatMap (fun m => s.rdBytes .window m.1 m.2)

/-- The CRC of each page goes to its PAGE_CRC (R82). -/
def State.storePageCrcs (s : State) : State :=
  forL (pageList s.build) (fun p a => a.wr (R.PAGE_CRC (p.1.pg p.2)) (crc32c (s.pageBytes p.1 p.2))) s

/-- A clean pass that matches (R85). -/
def State.passMatch (s : State) : State :=
  let s1 := (s.wr R.SYS_CCK_STATE_LAST_MISMATCH 0).wr R.SYS_CCK_STATE_MISMATCH 0
  { s1 with cck := { s1.cck with misses := 0 } }

/-- A clean pass that differs from the reference; the second in a row is a configuration-check mismatch (R85, R317, R319). -/
def State.passMiss (s : State) : State :=
  let s1 := (s.count R.SYS_CCK_EVT_MISMATCH).wr R.SYS_CCK_STATE_LAST_MISMATCH 1
  let s2 := { s1 with cck := { s1.cck with misses := s1.cck.misses + 1 } }
  if s2.cck.misses < 2 || s2.on R.SYS_CCK_STATE_MISMATCH then s2
  else
    let s3 := s2.wr R.SYS_CCK_STATE_MISMATCH 1
    match s3.build with
    | .head => s3.giveUp 2
    | .tile => s3.raiseEvent .SYS 0 1 (natLE (s3.rd R.SYS_CCK_LAST_RESULT) 4 ++ natLE (s3.rd R.SYS_CCK_REF_REF) 4)

/-- A clean pass with result `r` (R83 to R85): the first that began after SNAP becomes the reference. Where a reference is committed
already, the pass counts as one that matches and is not first compared with the old reference (R84 leaves it open; log entry 113). -/
def State.passClean (s : State) (r : Nat) : State :=
  let s1 := s.wr R.SYS_CCK_LAST_RESULT r
  if s1.on R.SYS_CCK_CTRL_SNAP && s1.cck.snapOk then
    (((s1.wr R.SYS_CCK_REF_REF r).wr R.SYS_CCK_STATE_REF_VALID 1).wr R.SYS_CCK_CTRL_SNAP 0).passMatch
  else if !s1.on R.SYS_CCK_STATE_REF_VALID then s1
  else if r = s1.rd R.SYS_CCK_REF_REF then s1.passMatch
  else s1.passMiss

/-- The walker completes a pass; a stopped walker's last pass is void, as is one that a restore overlaps (R82, R83, R403). R82 leaves open where in its pass the walker reads a
dword: all content is read, and every PAGE_CRC is written, as the state stands at the end of the pass (log entry 114). -/
def State.passEnd (s : State) : State :=
  if !s.cck.running then s
  else
    let s1 := s.storePageCrcs
    let s2 := if s.cck.dirty || s.cck.stop || s.on R.PWR_CMD_RESTORE then s1.count R.SYS_CCK_EVT_VOID else s1.passClean (crc32c s.passBytes)
    { s2 with cck := { s2.cck with running := !s.cck.stop, stop := false, dirty := false, snapOk := s2.on R.SYS_CCK_CTRL_SNAP } }

/-- An upset flips a bit of a checked dword (R85); a Traverse generator whose GEN_EN bit it clears is OFF (R270). -/
def State.upset (s : State) (addr bit : Nat) : State :=
  let a := addr / 4 * 4
  if a < 0x100000 then
    match winBlk (a / 16384) with
    | none => s
    | some (b, w) =>
      if !s.has b w then s
      else match (checkedAt b s.build w (a % 4096)).find? (fun f => decide (f.lsb ≤ bit ∧ bit < f.lsb + f.width)) with
        | none => s
        | some f =>
          let t := s.store f (Nat.xor (s.view f) (2 ^ (bit - f.lsb)))
          if f = R.TRV_CFG_GEN_EN then t.trvCfgTaken.keepDark s else t
  else if (checkedMems s.build).any (fun m => decide (m.1 ≤ a ∧ a < m.1 + m.2)) && decide (bit < 32) then
    s.wr32 .window a (Nat.xor (s.rd32 .window a) (2 ^ bit))
  else s

end Sys2Proof.Machine
end

