-- ==== Sys2Proof/Machine/Cck.lean ====
section
/-! DEFINITION. The commands of the configuration check (R81 to R85). -/

namespace Sys2Proof.Machine

/-- CCK_PASS_END (R82, R83, R85). -/
def execCckPassEnd (s : State) : Host.Outcome State Fault Refusal := .next s.passEnd

/-- CCK_SNAP (R84). -/
def execCckSnap (path : Path) (view : View) (s : State) : Host.Outcome State Fault Refusal :=
  .next (s.command path view R.SYS_CCK_CTRL_SNAP 1)

/-- CCK_REF_WRITE (R84). -/
def execCckRefWrite (path : Path) (view : View) (value : Word) (s : State) : Host.Outcome State Fault Refusal :=
  .next (s.pathWrite path (viewAddr R.SYS_CCK_REF_REF view) [value] 15)

/-- CCK_EN_WRITE (R82). -/
def execCckEnWrite (path : Path) (view : View) (value : Word) (s : State) : Host.Outcome State Fault Refusal :=
  .next (s.pathWrite path (viewAddr R.SYS_CCK_CTRL_EN view) [value] 15)

/-- CONFIGURATION_UPSET (R85). -/
def execConfigurationUpset (addr bit : Nat) (s : State) : Host.Outcome State Fault Refusal := .next (s.upset addr bit)

end Sys2Proof.Machine
end

