-- ==== Sys2Proof/Machine/Chop.lean ====
section
/-! DEFINITION. The choppers' commands (09_loop_engine.md R256 to R258). -/

namespace Sys2Proof.Machine

/-- CHOP_ON_END (R256). -/
def execChopOnEnd (rail : Nat) (meas : ChopMeas) (s : State) : Host.Outcome State Fault Refusal := .next (s.chopOnEnd rail meas)

/-- CHOP_OFF_END (R256, R257). -/
def execChopOffEnd (rail : Nat) (meas : ChopMeas) (s : State) : Host.Outcome State Fault Refusal := .next (s.chopOffEnd rail meas)

/-- CHOP_CYCLE_LIMIT (R256, R257). -/
def execChopCycleLimit (rail : Nat) (meas : ChopMeas) (s : State) : Host.Outcome State Fault Refusal := .next (s.chopLimit rail meas)

/-- OVERCURRENT (R258). -/
def execOvercurrent (rail : Nat) (meas : ChopMeas) (s : State) : Host.Outcome State Fault Refusal := .next (s.chopOver rail meas)

/-- OVERVOLTAGE (R258). -/
def execOvervoltage (rail : RailVolt) (s : State) : Host.Outcome State Fault Refusal := .next (s.chopOv rail.rail rail.vrail).calCheck

/-- OV_RECOVER (R258). -/
def execOvRecover (rail vrail : Nat) (s : State) : Host.Outcome State Fault Refusal := .next (s.ovRecover rail vrail)

end Sys2Proof.Machine
end

