-- ==== Sys2Proof/Machine/DarnCmds.lean ====
section
/-! DEFINITION. The darning units' commands (R168 to R188). -/

namespace Sys2Proof.Machine

/-- A run ends; the darning units park after their last run where their step of a handshake has accepted (R405). -/
def State.darnDone (s : State) (h : Nat) : State :=
  let t := s.darnEnd h
  if t.stepWork 5 then t else t.windDone 5

/-- DARN_RUN_END (R169). -/
def execDarnRunEnd (half : Half) (s : State) : Host.Outcome State Fault Refusal :=
  .next (if (s.darn (Half.no half)).running && !s.coreGated then s.darnDone (Half.no half) else s)

/-- DRN_LOAD (R187). -/
def execDrnLoad (path : Path) (view : View) (half : Half) (s : State) : Host.Outcome State Fault Refusal :=
  .next (s.command path view (R.DRN_CMD_LOAD (Half.no half)) 1)

/-- DRN_LOAD_DONE (R187). -/
def execDrnLoadDone (half : Half) (s : State) : Host.Outcome State Fault Refusal := .next (s.loadDone (Half.no half))

/-- DRN_VERIFY (R187). -/
def execDrnVerify (path : Path) (view : View) (half : Half) (s : State) : Host.Outcome State Fault Refusal :=
  .next (s.command path view (R.DRN_CMD_VERIFY (Half.no half)) 1)

/-- DRN_VERIFY_DONE (R187). -/
def execDrnVerifyDone (half : Half) (s : State) : Host.Outcome State Fault Refusal := .next (s.verifyDone (Half.no half))

/-- MAP_CHECK_DONE (R173). -/
def execMapCheckDone (half : Half) (s : State) : Host.Outcome State Fault Refusal := .next (s.mapChecked (Half.no half))

end Sys2Proof.Machine
end

