-- ==== Sys2Proof/Machine/Dram.lean ====
section
/-! DEFINITION. The DRAM controller's requests and refreshes (R363 to R375). -/

namespace Sys2Proof.Machine

/-- A channel the build has. -/
def State.onChan (s : State) (ch : Nat) (f : State → State) : State := if ch < channels s.build then f s else s

/-- DRAM_REQUEST (R364). -/
def execDramRequest (req : DramReq) (s : State) : Host.Outcome State Fault Refusal := .next (s.dramRequest req)

/-- SELF_REFRESH_IDLE (R400). -/
def execSelfRefreshIdle (ch : Nat) (s : State) : Host.Outcome State Fault Refusal := .next (s.onChan ch (fun a => a.selfIdle ch))

/-- DRAM_READ_DONE (R373). -/
def execDramReadDone (ch : Nat) (result : EccResult) (s : State) : Host.Outcome State Fault Refusal :=
  .next (s.onChan ch (fun a => a.readDone ch result))

/-- TREFI (R366). -/
def execTrefi (ch : Nat) (s : State) : Host.Outcome State Fault Refusal := .next (s.onChan ch (fun a => a.trefi ch))

/-- REFRESH_ISSUE (R367). -/
def execRefreshIssue (ch : Nat) (s : State) : Host.Outcome State Fault Refusal := .next (s.onChan ch (fun a => a.refreshIssue ch))

/-- MR4_READ (R368). -/
def execMr4Read (ch value : Nat) (wants2x beyond : Bool) (s : State) : Host.Outcome State Fault Refusal :=
  .next (s.onChan ch (fun a => a.mr4 ch value wants2x beyond))

/-- REFRESH_WINDOW_END (R370). -/
def execRefreshWindowEnd (ch : Nat) (s : State) : Host.Outcome State Fault Refusal := .next (s.onChan ch (fun a => a.refWindow ch))

end Sys2Proof.Machine
end

