-- ==== Sys2Proof/Machine/Host.lean ====
section
/-! DEFINITION. The PCIe interface and the links of the side ports as the outside changes them (R104, R337, R348). -/

namespace Sys2Proof.Machine

/-- A configuration request (R104, R337): retried until the boot has reached RUN_FW or RECOVERY, for at most 10 ms from the later rise of RESET_N and
PERST_N. -/
def State.configReq (s : State) (fn : Nat) (op : CfgOp) : State :=
  if s.isTile || s.pins.perstLow || decide (2 ≤ fn) then s
  else if s.stage ≠ stRunFw ∧ s.stage ≠ stRecovery ∧ s.nowNs < s.boot.roseNs + 10000000 then s.emit .retry
  else match op with
    | .read r => s.emit (.config fn (s.cfgRead fn r))
    | .write r v => (s.cfgWrite fn r v).emit (.config fn 0)

/-- The state of the PCIe link (HST_LINK). It does not train while the device has no reference (R105). -/
def State.pcieLink (s : State) (st speed width l1ss : Nat) : State :=
  if s.isTile || s.pins.perstLow || s.stage = stNoref || decide (4 < st) || decide (5 < speed) || decide (2 < l1ss) || !(width = 0 || width = 1 || width = 2 || width = 4 || width = 8) then s
  else ((((s.wr R.HST_LINK_STATE st).wr R.HST_LINK_SPEED speed).wr R.HST_LINK_WIDTH width).wr R.HST_LINK_L1SS l1ss).wakeLook

/-- CONFIGURATION_REQUEST (R104, R337). -/
def execConfigurationRequest (fn : Nat) (op : CfgOp) (s : State) : Host.Outcome State Fault Refusal :=
  .next (s.configReq fn op)

/-- PCIE_LINK_STATE (R337). -/
def execPcieLinkState (st speed width l1ss : Nat) (s : State) : Host.Outcome State Fault Refusal :=
  .next (s.pcieLink st speed width l1ss)

/-- SIDE_PORT_LINK (R348). -/
def execSidePortLink (port : Nat) (blockLock fecLock up : Bool) (s : State) : Host.Outcome State Fault Refusal :=
  .next (s.ethLink port blockLock fecLock up)

end Sys2Proof.Machine
end

