-- ==== Sys2Proof/Machine/Ingest.lean ====
section
/-! DEFINITION. Ingest into head memory: DMA channels and ST 2110 packets (R114 to R118, R336, R346, R358). -/

namespace Sys2Proof.Machine

/-- DMA_DOORBELL (R115, R334): an access of the host to BAR4 of PF1; `descs` are the descriptors that a doorbell posts, as host memory holds them. -/
def execDmaDoorbell (head : Option Nat) (ch : Nat) (acc : Bar4) (descs : List Descriptor) (s : State) : Host.Outcome State Fault Refusal :=
  .next (match acc with | .bell idx be => s.dmaBell head ch idx be descs | .access off req => s.bar4 1 off req)

/-- DMA_DESCRIPTOR_DONE (R115): what is outstanding of the channel's first descriptor has come. -/
def execDmaDescriptorDone (ch : Nat) (data : List (BitVec 8)) (pcieErr : Bool) (s : State) : Host.Outcome State Fault Refusal :=
  .next (s.dmaArrive ch data pcieErr).dmaWound.dramSlots

/-- A read of the channel's first descriptor has no completion in time (R336): counted, and ERR 1 on the descriptor. Where the host has disabled
the Completion Timeout, none occurs (R332). A channel that drains and had not taken the descriptor only gives the read up (R69, R116). -/
def State.dmaTimeout (s : State) (ch : Nat) : State :=
  match s.jobsOf ch with
  | [] => s
  | j :: _ =>
    if !s.descDue ch || s.cfgVal 1 .ctoOff = 1 || !s.host.reads.any (fun r => r.ch = ch && r.idx = j.idx) then s
    else
      let s1 := (s.count R.HST_EVT_DMA_CTO).aer 1 14
      if s.dmaLeft ch then s1.jobAnew ch j
      else s1.jobEnd ch j (j.desc.getD Descriptor.unread) true

/-- DMA_READ_TIMEOUT (R336). -/
def execDmaReadTimeout (ch : Nat) (s : State) : Host.Outcome State Fault Refusal := .next (s.dmaTimeout ch).dmaWound

/-- ST2110_PACKET (R358). -/
def execSt2110Packet (port : Nat) (pkt : St2110Packet) (s : State) : Host.Outcome State Fault Refusal :=
  .next (if !s.ethOn port then s else match s.stFind port pkt with | some k => (s.stPacket k pkt).dramSlots | none => s)

end Sys2Proof.Machine
end

