-- ==== Sys2Proof/Machine/Lamp.lean ====
section
/-! DEFINITION. Lamp drive's commands (R222, R226 to R233). -/

namespace Sys2Proof.Machine

/-- PROBE (R228). -/
def execProbe (half : Half) (sink row mv : Nat) (s : State) : Host.Outcome State Fault Refusal :=
  .next (s.probe (Half.no half) sink row mv)

/-- LAMP_AGE_OUT (R226). -/
def execLampAgeOut (half : Half) (sink row : Nat) (s : State) : Host.Outcome State Fault Refusal := .next (s.ageOut (Half.no half) sink row)

/-- PAIR_TEST (R230). -/
def execPairTest (half : Half) (pair mv : Nat) (s : State) : Host.Outcome State Fault Refusal :=
  .next (s.pairTest (Half.no half) pair mv)

/-- LEAK_TEST (R232). -/
def execLeakTest (half : Half) (mv0 mv1 : Nat) (s : State) : Host.Outcome State Fault Refusal := .next (s.leakTest (Half.no half) mv0 mv1)

/-- NB_RESTORE (R231): a write of one dword of LMP_NB_RESTORE. -/
def execNbRestore (path : Path) (view : View) (half : Half) (dword : Nat) (value : Word) (s : State) : Host.Outcome State Fault Refusal :=
  .next (if 16 ≤ dword then s else s.pathWrite path (viewAddr (R.LMP_RESTORE_SINKS (Half.no half) dword) view) [value] 15)

/-- SINK_DIE_CHECK_DONE (R233). -/
def execSinkDieCheckDone (half : Half) (answer0 answer1 : Bool) (s : State) : Host.Outcome State Fault Refusal :=
  .next (s.diesChecked (Half.no half) answer0 answer1)

/-- DERATE_UPDATE (R222). -/
def execDerateUpdate (s : State) : Host.Outcome State Fault Refusal := .next s.derate

end Sys2Proof.Machine
end

