-- ==== Sys2Proof/Machine/Latch.lean ====
section
/-! DEFINITION. The latch instant (R192): what takes effect in it, in its order. -/

namespace Sys2Proof.Machine

/-- The latch instant of an epoch on a tile: layers (R143, R149), scan buffers (R165), darn-table banks (R185), the mend list (R184),
the frame-buffer commit (R208), lamp diagnosis (R226), and a phase step (R47); capture parks if its step of a handshake has accepted (R405). It comes at or after the end of the last row slot: not while
a half that runs has slots of its frame left (R192). -/
def State.latchInstant (s : State) : State :=
  if !s.isTile || !s.epcRuns || s.eng.lay.latched || (s.scnLive 0 && s.inFrame 0) || (s.scnLive 1 && s.inFrame 1) then s
  else
    let e := s.epochNo
    let s0 := (s.layersLatch 0 e).layersLatch 1 e
    let p := s0.swapScan
    let s1 := ((p.1.darnSwap 0).darnSwap 1).mendLatch
    let s2 := (s1.scanLatch 0 (p.2 && (s0.press 0).active)).scanLatch 1 (p.2 && (s0.press 1).active)
    let s3 := (s2.lampLatch 0).lampLatch 1
    let s4 := s3.phaseStep
    (s4.setLay { s4.eng.lay with lastLatch := some e, latched := true }).windDone 3

/-- LATCH_INSTANT (R192). -/
def execLatchInstant (s : State) : Host.Outcome State Fault Refusal := .next s.latchInstant.dramSlots

end Sys2Proof.Machine
end

