-- ==== Sys2Proof/Machine/Layer.lean ====
section
/-! DEFINITION. Layer commits (R145 to R147). -/

namespace Sys2Proof.Machine

/-- LYR_COMMIT (R145). -/
def execLyrCommit (path : Path) (view : View) (half : Half) (mask : BitVec 16) (s : State) : Host.Outcome State Fault Refusal :=
  .next (s.pathWrite path (viewAddr (R.LYR_COMMIT_MASK (Half.no half)) view) [mask.setWidth 32] 15)

/-- LYR_TOUCH (R147). -/
def execLyrTouch (path : Path) (view : View) (half : Half) (mask : BitVec 16) (s : State) : Host.Outcome State Fault Refusal :=
  .next (s.pathWrite path (viewAddr (R.LYR_TOUCH_MASK (Half.no half)) view) [mask.setWidth 32] 15)

end Sys2Proof.Machine
end

