-- ==== Sys2Proof/Machine/Loop.lean ====
section
/-! DEFINITION. The loop engine's commands (09_loop_engine.md R239 to R255). An instruction's command executes the running slot's next
instruction where it has that opcode (`State.loopFetch`); the lanes of its sources are read before any lane is written. -/

namespace Sys2Proof.Machine

/-- SLOT_DUE (R243, R244). -/
def execSlotDue (slot : Nat) (s : State) : Host.Outcome State Fault Refusal := .next (s.slotDue slot)

/-- LOOP_RUN_START (R243): the clocks of the block that pass before the start, then the start. Log entry 178. -/
def execLoopRunStart (clocks : Nat) (s : State) : Host.Outcome State Fault Refusal := .next (forN clocks (fun _ a => a.tick) s).runStart

/-- LD (R239, R241): in one LD a source has one value for every lane that names it. -/
def execLoopLd (s : State) : Host.Outcome State Fault Refusal :=
  match s.loopFetch opLd with
  | none => .next s
  | some (r, w) =>
    let s1 := (s.writeLanes r.slot (lwD w) (lwMask w) (fun l => widen (s.source r (lwByte w l)))).loopNext
    .next (if s.isTile && lwSenses w then { s1 with freeCtr := s1.freeCtr + 18 } else s1)

/-- ST (R239, R242): where two lanes name one word, the higher lane wins. -/
def execLoopSt (s : State) : Host.Outcome State Fault Refusal :=
  match s.loopFetch opSt with
  | none => .next s
  | some (r, w) =>
    .next (forL (maskLanes (lwMask w)) (fun l a => a.wrI (xchgF (lwByte w l - 64)) (q15 (s.vreg r.slot (lwA w) l))) s).loopNext

/-- MAC (R239). -/
def execLoopMac (s : State) : Host.Outcome State Fault Refusal :=
  match s.loopFetch opMac with
  | none => .next s
  | some (r, w) =>
    .next (s.writeLanes r.slot (lwD w) (lwMask w)
      (fun l => s.vreg r.slot (lwB w) l + rndMul (s.vreg r.slot (lwA w) l) (lwK w l) (lwSh w))).loopNext

/-- MSUB (R239). -/
def execLoopMsub (s : State) : Host.Outcome State Fault Refusal :=
  match s.loopFetch opMsub with
  | none => .next s
  | some (r, w) =>
    .next (s.writeLanes r.slot (lwD w) (lwMask w)
      (fun l => s.vreg r.slot (lwB w) l - rndMul (s.vreg r.slot (lwA w) l) (lwK w l) (lwSh w))).loopNext

/-- SAT (R239). -/
def execLoopSat (s : State) : Host.Outcome State Fault Refusal :=
  match s.loopFetch opSat with
  | none => .next s
  | some (r, w) => .next (s.writeLanes r.slot (lwD w) (lwMask w) (fun l => widen (q15 (s.vreg r.slot (lwA w) l)))).loopNext

/-- LIM (R239). -/
def execLoopLim (s : State) : Host.Outcome State Fault Refusal :=
  match s.loopFetch opLim with
  | none => .next s
  | some (r, w) =>
    .next (s.writeLanes r.slot (lwD w) (lwMask w)
      (fun l => min (max (s.vreg r.slot (lwA w) l) (widen (lwK w l))) (s.vreg r.slot (lwB w) l))).loopNext

/-- The lanes that compete in SELMIN: MASK and the active lanes, or MASK alone where they have none in common (R239). -/
def State.selLanes (s : State) (n m : Nat) : List Nat :=
  let both := Nat.land m (s.activeLanes n)
  maskLanes (if both % 16 = 0 then m else both)

/-- The least value of a register over lanes, and the lowest lane that holds it. -/
def State.selMin (s : State) (n a : Nat) : List Nat → Int × Nat
  | [] => (0, 0)
  | l :: t =>
    let m := t.foldl (fun (x : Int) k => min x (s.vreg n a k)) (s.vreg n a l)
    (m, ((l :: t).find? (fun k => decide (s.vreg n a k = m))).getD l)

/-- SELMIN (R239): every lane of D takes the least value; WIN shows the lane. -/
def execLoopSelmin (s : State) : Host.Outcome State Fault Refusal :=
  match s.loopFetch opSelmin with
  | none => .next s
  | some (r, w) =>
    let p := s.selMin r.slot (lwA w) (s.selLanes r.slot (lwMask w))
    let s1 := (s.writeLanes r.slot (lwD w) 15 (fun _ => p.1)).wr (R.LOP_SLOT_INFO_WIN r.slot) p.2
    .next (match s1.railOfSlot r.slot with
      | some q => (s1.wr (R.LOP_RAIL_STATE_WIN q) p.2).loopNext
      | none => s1.loopNext)

/-- TRK (R239, R251): in a hand-over sample the lane moves by the whole difference. -/
def execLoopTrk (s : State) : Host.Outcome State Fault Refusal :=
  match s.loopFetch opTrk with
  | none => .next s
  | some (r, w) =>
    .next (s.writeLanes r.slot (lwD w) (lwMask w) (fun l =>
      let e := s.vreg r.slot (lwB w) l - s.vreg r.slot (lwA w) l
      s.vreg r.slot (lwD w) l + (if r.handover then e else rndMul e (lwK w l) (lwSh w)))).loopNext

/-- TAB (R239, R240). -/
def execLoopTab (s : State) : Host.Outcome State Fault Refusal :=
  match s.loopFetch opTab with
  | none => .next s
  | some (r, w) =>
    .next (s.writeLanes r.slot (lwD w) (lwMask w) (fun l => widen (s.tabLook (lwTab w) (q15 (s.vreg r.slot (lwA w) l))))).loopNext

/-- FF (R239, R252). -/
def execLoopFf (s : State) : Host.Outcome State Fault Refusal :=
  match s.loopFetch opFf with
  | none => .next s
  | some (r, w) =>
    match s.railOfSlot r.slot with
    | none => .next s.loopNext
    | some q =>
      let t := s.ffTerms q (lwPs w) (lwNd w)
      .next (s.writeLanes r.slot (lwD w) (lwMask w)
        (fun l => s.vreg r.slot (lwB w) l + 2 * t.1 * lwK w l * ((2 ^ lwSh w : Nat) : Int) + widen t.2)).loopNext

/-- OUT (R239, R250). -/
def execLoopOut (s : State) : Host.Outcome State Fault Refusal :=
  match s.loopFetch opOut with
  | none => .next s
  | some (r, w) =>
    match s.railOfSlot r.slot with
    | none => .next s.loopNext
    | some q => .next (s.loopSend r q (lwA w)).loopNext

/-- WAIT (R239). -/
def execLoopWait (s : State) : Host.Outcome State Fault Refusal :=
  match s.loopFetch opWait with
  | none => .next s
  | some (r, _) => .next (s.runEnd r)

/-- HALT (R239, R247). -/
def execLoopHalt (s : State) : Host.Outcome State Fault Refusal :=
  match s.loopFetch opHalt with
  | none => .next s
  | some (r, _) => .next (s.loopHalt r).calCheck

/-- LOP_RESTART (R247): a write of LOP_RESTART. -/
def execLopRestart (path : Path) (view : View) (mask : BitVec 24) (s : State) : Host.Outcome State Fault Refusal :=
  .next (s.pathWrite path (viewAddr R.LOP_RESTART_SLOTS view) [mask.setWidth 32] 15)

/-- LOP_CHECK_DONE (R245). -/
def execLopCheckDone (s : State) : Host.Outcome State Fault Refusal := .next s.lopChecked

/-- HEADROOM_REPORT (R217, R241). -/
def execHeadroomReport (half : Half) (rail : Nat) (minPin : Option Nat) (s : State) : Host.Outcome State Fault Refusal :=
  .next (s.headReport (Half.no half) rail minPin)

/-- FF_ENTRY (R253). -/
def execFfEntry (rail : Nat) (s : State) : Host.Outcome State Fault Refusal := .next (s.ffEntry rail)

end Sys2Proof.Machine
end

