-- ==== Sys2Proof/Machine/PowerCmds.lean ====
section
/-! DEFINITION. Power states, wake and supplies (R397 to R414, R423, R425). -/

namespace Sys2Proof.Machine

/-- PWR_GO (R404): GO with the target, in one write of PWR_CMD. -/
def execPwrGo (path : Path) (view : View) (target : Nat) (s : State) : Host.Outcome State Fault Refusal :=
  .next (s.pathWrite path (viewAddr R.PWR_CMD_GO view) [BitVec.ofNat 32 (target % 2 ^ R.PWR_CMD_TARGET.width * 2 ^ R.PWR_CMD_TARGET.lsb + 1)] 15)

/-- BLOCK_PARK (R405). -/
def execBlockPark (answer : ParkAnswer) (s : State) : Host.Outcome State Fault Refusal := .next (s.blockPark answer)

/-- DELAY_LIMIT (R405). -/
def execDelayLimit (s : State) : Host.Outcome State Fault Refusal := .next s.delayLimit

/-- WAKE_ARM (R406). -/
def execWakeArm (s : State) : Host.Outcome State Fault Refusal := .next s.wakeArm

/-- WAKE (R409). -/
def execWake (source : WakeSource) (lane : Nat) (s : State) : Host.Outcome State Fault Refusal := .next (s.wakeEvent source lane)

/-- RAIL_PG_RISE (R410, R423); a transaction that the management port holds goes on once the bus is open (R361). -/
def execRailPgRise (rcReady : Bool) (s : State) : Host.Outcome State Fault Refusal := .next (s.railRise rcReady).mgtResume

/-- WAKE_TIMEOUT (R410); a transaction that is stretched when the device becomes Stranded waits for its 20 ms (R361, R411). -/
def execWakeTimeout (s : State) : Host.Outcome State Fault Refusal := .next s.wakeTimeout

/-- WAKE_RETRY (R410). -/
def execWakeRetry (s : State) : Host.Outcome State Fault Refusal := .next s.wakeRetry

/-- RESTORE (R403). -/
def execRestore (path : Path) (view : View) (s : State) : Host.Outcome State Fault Refusal := .next (s.command path view R.PWR_CMD_RESTORE 1)

/-- RESTORE_DONE (R403). -/
def execRestoreDone (s : State) : Host.Outcome State Fault Refusal := .next s.restoreEnd

/-- RAIL_EN_ASSERT (R423). -/
def execRailEnAssert (s : State) : Host.Outcome State Fault Refusal := .next s.railAssert

/-- RAIL_PG_FALL (R425). -/
def execRailPgFall (s : State) : Host.Outcome State Fault Refusal := .next s.railFall

end Sys2Proof.Machine
end

