-- ==== Sys2Proof/Machine/PressCmds.lean ====
section
/-! DEFINITION. The Press sequencer's instructions and its datapath (R155 to R165). -/

namespace Sys2Proof.Machine

/-- Execute instruction `op` of a half's list, if it stands at the program counter and passes the checks of R159. -/
def State.pressOp (s : State) (h op : Nat) (f : State → Nat → State) : State :=
  match s.fetchPress h op with
  | .error t => t
  | .ok (t, o) => f t o

/-- END (R156, R159): not with an open group. -/
def State.pressEnd (s : State) (h : Nat) : State :=
  s.pressOp h 0 (fun a _ =>
    let e := a.press h
    if e.group.isSome then a.listError h e.pc peFlat
    else (a.setPress h { e with seqOn := false, t := e.t + 1 }).pressFinish h)

/-- LAYER (R155, R156): a full queue stalls the sequencer. -/
def State.pressLayer (s : State) (h : Nat) : State :=
  if 16 ≤ (s.press h).queued then s
  else s.pressOp h 1 (fun a o =>
    let k := o % 16
    let m := bitsOf o 4 3
    let mode := if m = 4 then (a.press h).mode else if m = 7 then a.rd (R.LYR_CFG_MODE h k) else m
    (a.issueStep h k mode).pressNext h 0)

/-- The layers of a mask in a direction. -/
def maskOrder (mask dir : Nat) : List Nat :=
  let l := (List.range 16).filter (fun k => bitOf mask k)
  if dir = 1 then l.reverse else l

/-- ORDER (R155, R156): its steps are issued while the queue has room, the rest when the command comes again. -/
def State.pressOrder (s : State) (h : Nat) : State :=
  let e := s.press h
  if e.active && e.seqOn && e.wait.isNone && !e.order.isEmpty then (if s.coreGated then s else s.issueOrder h)
  else s.pressOp h 2 (fun a o =>
    let e1 := a.press h
    (a.setPress h { e1 with t := e1.t + 1, order := maskOrder (o % 65536) (bitsOf o 16 1) }).issueOrder h)

/-- BLEND (R156). -/
def State.pressBlend (s : State) (h : Nat) : State :=
  s.pressOp h 3 (fun a o => (a.setPress h { a.press h with mode := o % 4, balpha := bitsOf o 16 10 }).pressNext h 1)

/-- WINDOW (R156): the clip, within the half window. -/
def State.pressWindow (s : State) (h : Nat) : State :=
  s.pressOp h 4 (fun a o =>
    let u := bitsOf o 0 12
    let v := bitsOf o 12 12
    let r : Rect := ⟨u, v, u + bitsOf o 24 12, v + bitsOf o 36 12⟩
    (a.setPress h { a.press h with clip := r.meet (a.winRect h) }).pressNext h 1)

/-- FLAT (R156, R159, R161): not while a group is open. -/
def State.pressFlat (s : State) (h : Nat) : State :=
  s.pressOp h 5 (fun a o =>
    let e := a.press h
    if e.group.isSome then a.listError h e.pc peFlat
    else (a.setPress h { e with group := some { slot := o % 4, n := bitsOf o 4 4, steps := [], bottom := e.issued = 0, issue := e.t } }).pressNext h 1)

/-- WAITL (R156). -/
def State.pressWaitl (s : State) (h : Nat) : State :=
  s.pressOp h 6 (fun a o => (a.setPress h { a.press h with wait := some (.layer (o % 16)) }).pressRelease h)

/-- SYNC (R158). -/
def State.pressSync (s : State) (h : Nat) : State :=
  s.pressOp h 7 (fun a _ => (a.setPress h { a.press h with wait := some .sync }).pressRelease h)

/-- JUMP (R156). -/
def State.pressJump (s : State) (h : Nat) : State :=
  s.pressOp h 8 (fun a o =>
    let e := a.press h
    let c := bitsOf o 8 2
    if c = 0 || (c = 1 && e.flag) || (c = 2 && !e.flag) then a.setPress h { e with pc := o % 256, t := e.t + 2 } else a.pressNext h 2)

/-- COND (R156). -/
def State.pressCond (s : State) (h : Nat) : State :=
  s.pressOp h 9 (fun a o => (a.setPress h { a.press h with flag := a.pressTest h (o % 16) (bitsOf o 8 4) }).pressNext h 1)

/-- END (R156). -/
def execPressEnd (half : Half) (s : State) : Host.Outcome State Fault Refusal := .next (s.pressEnd (Half.no half))

/-- LAYER (R156). -/
def execPressLayer (half : Half) (s : State) : Host.Outcome State Fault Refusal := .next (s.pressLayer (Half.no half))

/-- ORDER (R156). -/
def execPressOrder (half : Half) (s : State) : Host.Outcome State Fault Refusal := .next (s.pressOrder (Half.no half))

/-- BLEND (R156). -/
def execPressBlend (half : Half) (s : State) : Host.Outcome State Fault Refusal := .next (s.pressBlend (Half.no half))

/-- WINDOW (R156). -/
def execPressWindow (half : Half) (s : State) : Host.Outcome State Fault Refusal := .next (s.pressWindow (Half.no half))

/-- FLAT (R156). -/
def execPressFlat (half : Half) (s : State) : Host.Outcome State Fault Refusal := .next (s.pressFlat (Half.no half))

/-- WAITL (R156). -/
def execPressWaitl (half : Half) (s : State) : Host.Outcome State Fault Refusal := .next (s.pressWaitl (Half.no half))

/-- SYNC (R158). -/
def execPressSync (half : Half) (s : State) : Host.Outcome State Fault Refusal := .next (s.pressSync (Half.no half))

/-- PRESS_WAIT_RELEASE (R158). -/
def execPressWaitRelease (half : Half) (s : State) : Host.Outcome State Fault Refusal := .next (s.pressRelease (Half.no half))

/-- JUMP (R156). -/
def execPressJump (half : Half) (s : State) : Host.Outcome State Fault Refusal := .next (s.pressJump (Half.no half))

/-- COND (R156). -/
def execPressCond (half : Half) (s : State) : Host.Outcome State Fault Refusal := .next (s.pressCond (Half.no half))

/-- DATAPATH_STEP (R157). -/
def execDatapathStep (half : Half) (waits : Nat) (s : State) : Host.Outcome State Fault Refusal := .next ((s.datapath (Half.no half) waits).dramSlots)

end Sys2Proof.Machine
end

