-- ==== Sys2Proof/Machine/Reset.lean ====
section
/-! DEFINITION. Resets and the watchdog (R95 to R99, R424). -/

namespace Sys2Proof.Machine

/-- RESET_N falls while an update writes a copy of the boot record: the copy fails its CRC (R105). No rule says how long an update takes;
until a clock has passed, whether it had ended is a free choice (log entry 120). -/
def State.cutRecord (s : State) : State :=
  match s.boot.writing with
  | none => s
  | some k =>
    let ok := decide (s.freeVal % 2 = 0)
    let b := s.boot
    ({ s with boot := if k = 0 then { b with recA := { b.recA with ok := ok } } else { b with recB := { b.recB with ok := ok } } }).useFree

/-- Power-on reset: the island too is cleared; RAIL_EN stays low until VDD_IO has been in range for 100 us (R95, R423). -/
def State.powerOn (s : State) : State :=
  ({ s.cutRecord with pins := { s.pins with railEn := false, railPg := false } }).fullReset .por

/-- RESET_N held low: from 10 us on it causes a full reset (R95). Out of Valley or Stranded it raises RAIL_EN again, so that the boot can follow
(R415; log entry 160). -/
def State.resetPin (s : State) (lowNs : Nat) : State :=
  if lowNs < 10000 then s
  else
    let up := s.pstate = pValley && !s.pins.railEn
    let t := ({ s.cutRecord with pins := { s.pins with resetLow := true, railEn := up || s.pins.railEn } }).fullReset .pin
    if up then t.emit (.pin "RAIL_EN" true) else t

/-- The device leaves reset: the straps are latched and boot begins (R100, R103, R424). -/
def State.released (s : State) (role half : Bool) (mgtAddr : Nat) : State :=
  let p := { s.pins with resetLow := false, strapRole := role, strapHalf := half, strapAddr := mgtAddr % 128 }
  if s.boot.phase ≠ .held || !s.pins.railPg then s
  else { s with pins := p, regs := forL (strapRegs s.build p) (fun (e : Nat × Nat) l => Sparse.put l e.1 e.2) s.regs,
                boot := { s.boot with phase := .detect, roseNs := s.nowNs } }

/-- The watchdog's path (R99): a tile resets at once, a head gives up first and resets 10 ms later. The cause of a reset that is due already gives way to
this one, and to a BOOT_RESET that follows (R98). DESIGN CHOICE, log entry 191. -/
def State.wdogPath (s : State) (cause : ResetCause) (reason : Nat) : State :=
  match s.build with
  | .tile => s.fullReset cause
  | .head => { s.giveUp reason with boot := { s.boot with due := some cause }, wdog := { s.wdog with running := false } }

/-- The fields of a page return to their reset values. -/
def State.clearPage (s : State) (b : Blk) : State := { s with regs := s.regs.filter (fun e => e.1 / 32 / 16384 ≠ b.pg 0 / 16384) }

/-- PERST_N (R95): its fall resets the PCIe link, the HST page and the DMA page, and stops the ingest channels; an open frame is
discarded (R116). Its rise is a wake source in Valley (R409). -/
def State.perst (s : State) (low : Bool) : State :=
  match s.build with
  | .tile => s
  | .head =>
    let s1 := { s with pins := { s.pins with perstLow := low }, boot := { s.boot with roseNs := if low then s.boot.roseNs else s.nowNs } }
    if !low || s.pins.perstLow then s1.wakeLook
    else
      let s2 := forN 16 (fun n a => if a.on (R.DMA_CH_STATE_FRAME_OPEN n) then a.frameBad n else a) s1
      let s3 := ((s2.clearPage .HST).clearPage .DMA).dropRemotes
      { s3 with host := { s3.host with holdoff := [], owed := [], d3 := [], held := [], bells := [], cfg := [], msixTab := [],
                                            pba := [], posted := [], turn := 15, nextRead := 0 } }

/-- POWER_ON_RESET (R95). -/
def execPowerOnReset (s : State) : Host.Outcome State Fault Refusal := .next s.powerOn

/-- RESET_PIN (R95). -/
def execResetPin (lowNs : Nat) (s : State) : Host.Outcome State Fault Refusal := .next (s.resetPin lowNs)

/-- RESET_RELEASE (R424). -/
def execResetRelease (role half : Bool) (mgtAddr : Nat) (s : State) : Host.Outcome State Fault Refusal :=
  .next (s.released role half mgtAddr)

/-- ARM (R98). -/
def execArm (path : Path) (view : View) (s : State) : Host.Outcome State Fault Refusal := .next (s.command path view R.BOOT_RESET_ARM 1)

/-- ARM_EXPIRE (R98). -/
def execArmExpire (s : State) : Host.Outcome State Fault Refusal := .next (s.wr R.BOOT_RESET_ARM 0)

/-- FULL (R98). -/
def execFull (path : Path) (view : View) (s : State) : Host.Outcome State Fault Refusal := .next (s.command path view R.BOOT_RESET_FULL 1)

/-- FULL_RESET (R95): the reset that a command, the watchdog or the lockstep check has made due. -/
def execFullReset (s : State) : Host.Outcome State Fault Refusal :=
  .next (match s.boot.due with | some c => s.fullReset c | none => s)

/-- WATCHDOG_EXPIRY (R99). -/
def execWatchdogExpiry (s : State) : Host.Outcome State Fault Refusal :=
  .next (if s.wdog.running then s.wdogPath .wdog 4 else s)

/-- LOCKSTEP_MISMATCH (R99). -/
def execLockstepMismatch (s : State) : Host.Outcome State Fault Refusal :=
  .next (if s.boot.phase = .held then s else s.wdogPath .lockstep 5)

/-- WDOG_KICK (R99). -/
def execWdogKick (path : Path) (view : View) (s : State) : Host.Outcome State Fault Refusal :=
  .next (s.command path view R.BOOT_WDOG_KICK_KICK 1)

/-- WDOG_CFG_WRITE (R99). -/
def execWdogCfgWrite (path : Path) (view : View) (value : Word) (s : State) : Host.Outcome State Fault Refusal :=
  .next (s.pathWrite path (viewAddr R.BOOT_WDOG_CFG_PERIOD view) [value] 15)

/-- PERST_N (R95). -/
def execPerstN (low : Bool) (s : State) : Host.Outcome State Fault Refusal := .next (s.perst low)

end Sys2Proof.Machine
end

