-- ==== Sys2Proof/Machine/Scan.lean ====
section
/-! DEFINITION. Scan-out's commands (R192, R208). -/

namespace Sys2Proof.Machine

/-- ROW_SLOT (R192). -/
def execRowSlot (half : Half) (obs : RowObs) (s : State) : Host.Outcome State Fault Refusal := .next (s.rowSlot (Half.no half) obs).calCheck.dramSlots

/-- SCN_GO (R208). -/
def execScnGo (path : Path) (view : View) (half : Half) (s : State) : Host.Outcome State Fault Refusal :=
  .next (s.command path view (R.SCN_COMMIT_GO (Half.no half)) 1)

end Sys2Proof.Machine
end

