-- ==== Sys2Proof/Machine/Source.lean ====
section
/-! DEFINITION. Source conditioning's own events (R124, R132). -/

namespace Sys2Proof.Machine

/-- SEND_DEADLINE (R132): sources 0 to 15, then the relayed streams from 16 on. -/
def execSendDeadline (src ring : Nat) (s : State) : Host.Outcome State Fault Refusal :=
  .next (if s.isTile || decide (80 ≤ src) || decide (12 ≤ ring) then s else s.deadline src ring)

/-- KERNEL_LOAD_DONE (R124). -/
def execKernelLoadDone (src : Nat) (s : State) : Host.Outcome State Fault Refusal :=
  .next (if s.isTile || decide (16 ≤ src) then s else (s.srcKernel src).dramSlots)

end Sys2Proof.Machine
end

