-- ==== Sys2Proof/Machine/Spur.lean ====
section
/-! DEFINITION. Host memory over the Spur fabric (R346). -/

namespace Sys2Proof.Machine

/-- A Spur cell of a type: a head takes it from a Spur port, a standby too where it is addressed to it (R345); on a ring it asks nothing. -/
def State.spurIn (s : State) (id : Nat) (c : Cell) (typ : Nat) (f : State → State) : State :=
  if c.cls ≠ clsControl || c.typ ≠ typ then s
  else
    let p := s.receive id c
    if p.1 && isSpur id then f p.2 else p.2

/-- HOST_RD (R346). -/
def execHostRd (port : Nat) (cell : Cell) (data : List (BitVec 8)) (ended : ReadEnd) (s : State) : Host.Outcome State Fault Refusal :=
  .next (s.spurIn port cell tHostRd (fun a => a.hostAccess { cell := cell, data := data, ended := ended, write := false }))

/-- HOST_CPL (R346): a part of a read arrives; with the last, the 4 KiB in progress may end (R405). -/
def execHostCpl (port : Nat) (cell : Cell) (s : State) : Host.Outcome State Fault Refusal :=
  .next (s.spurIn port cell tHostCpl (fun a =>
    (a.partIn cell.aux (pn cell 0 4) (decide (pb cell 8 % 2 = 1)) (takePad (cell.payload.drop 16) (min 240 (pn cell 4 4)))).dmaWound))

/-- HOST_WR (R346): the lead head writes host memory. -/
def execHostWr (port : Nat) (cell : Cell) (s : State) : Host.Outcome State Fault Refusal :=
  .next (s.spurIn port cell tHostWr (fun a => a.hostAccess { cell := cell, data := [], ended := .ok, write := true }))

/-- DOORBELL (R346): a producer index for a channel of this head. -/
def execDoorbell (port : Nat) (cell : Cell) (s : State) : Host.Outcome State Fault Refusal :=
  .next (s.spurIn port cell tDoorbell (fun a => a.dmaPost (pn cell 0 2) (pn cell 2 2)))

end Sys2Proof.Machine
end

