-- ==== Sys2Proof/Machine/Thermal.lean ====
section
/-! DEFINITION. Temperature sensors (R383 to R386, R388). -/

namespace Sys2Proof.Machine

/-- SENSOR_CONVERSION (R384). -/
def execSensorConversion (sensor : Nat) (result : Option Int) (s : State) : Host.Outcome State Fault Refusal :=
  .next (if sensor < sensorCount s.build then s.convert1 sensor result else s)

end Sys2Proof.Machine
end

