-- ==== Sys2Proof/Machine/Train.lean ====
section
/-! DEFINITION. The training helper (R376 to R380). -/

namespace Sys2Proof.Machine

/-- A write of TRN_CMD with GO and an operation on a path and a view. -/
def State.trainCmd (s : State) (path : Path) (view : View) (ch op : Nat) : State :=
  if 4 ≤ ch then s else s.pathWrite path (viewAddr (R.DRC_CH_TRN_CMD_GO ch) view) [BitVec.ofNat 32 (op + 256)] 15

/-- POINT_RD (R377). -/
def execPointRd (path : Path) (view : View) (ch : Nat) (s : State) : Host.Outcome State Fault Refusal :=
  .next (s.trainCmd path view ch 1)

/-- POINT_WR (R377). -/
def execPointWr (path : Path) (view : View) (ch : Nat) (s : State) : Host.Outcome State Fault Refusal :=
  .next (s.trainCmd path view ch 2)

/-- CBT (R377). -/
def execCbt (path : Path) (view : View) (ch : Nat) (s : State) : Host.Outcome State Fault Refusal :=
  .next (s.trainCmd path view ch 3)

/-- WCK_LEVEL (R377). -/
def execWckLevel (path : Path) (view : View) (ch : Nat) (s : State) : Host.Outcome State Fault Refusal :=
  .next (s.trainCmd path view ch 4)

/-- MRW (R377). -/
def execMrw (path : Path) (view : View) (ch : Nat) (s : State) : Host.Outcome State Fault Refusal :=
  .next (s.trainCmd path view ch 5)

/-- MRR (R377). -/
def execMrr (path : Path) (view : View) (ch : Nat) (s : State) : Host.Outcome State Fault Refusal :=
  .next (s.trainCmd path view ch 6)

/-- TRAIN_COMMIT (R379). -/
def execTrainCommit (path : Path) (view : View) (ch : Nat) (s : State) : Host.Outcome State Fault Refusal :=
  .next (s.trainCmd path view ch 7)

/-- ABANDON (R380). -/
def execAbandon (path : Path) (view : View) (ch : Nat) (s : State) : Host.Outcome State Fault Refusal :=
  .next (s.trainCmd path view ch 8)

/-- TRAIN_POINT_DONE (R377). -/
def execTrainPointDone (ch : Nat) (fail : BitVec 16) (data : BitVec 8) (s : State) : Host.Outcome State Fault Refusal :=
  .next (s.onChan ch (fun a => a.pointDone ch fail.toNat data.toNat))

end Sys2Proof.Machine
end

