-- ==== Sys2Proof/Machine/Traverse.lean ====
section
/-! DEFINITION. The Traverse generators' commands (10_traverse.md R262, R268). -/

namespace Sys2Proof.Machine

/-- TRAVERSE_CLOCK (R262): one CTL clock; `dup` are the generators whose outputs differ from their duplicates' (R267). -/
def execTraverseClock (dup : List Nat) (s : State) : Host.Outcome State Fault Refusal := .next (s.trvTick dup)

/-- STOP (R268): a write of TRV_CMD. -/
def execTrvStop (path : Path) (view : View) (mask : BitVec 4) (s : State) : Host.Outcome State Fault Refusal :=
  .next (s.pathWrite path (viewAddr R.TRV_CMD_STOP view) [mask.setWidth 32] 15)

/-- RELOAD (R268): a write of TRV_CMD. -/
def execTrvReload (path : Path) (view : View) (mask : BitVec 4) (s : State) : Host.Outcome State Fault Refusal :=
  .next (s.pathWrite path (viewAddr R.TRV_CMD_RELOAD view) [mask.setWidth 32 <<< 8] 15)

end Sys2Proof.Machine
end

