-- ==== Sys2Proof/Machine/Dispatch.lean ====
section
/-! DEFINITION. Every command's meaning: one arm per row of the command table. -/

namespace Sys2Proof.Machine

def exec (i : Instr) (s : State) : Host.Outcome State Fault Refusal :=
  match i with
  | .registerWrite path addr data be => Sys2Proof.Machine.execRegisterWrite path addr data be s
  | .memoryWindowWrite path addr data be => Sys2Proof.Machine.execMemoryWindowWrite path addr data be s
  | .pageLock path addr value => Sys2Proof.Machine.execPageLock path addr value s
  | .enable path addr value => Sys2Proof.Machine.execEnable path addr value s
  | .disable path addr value => Sys2Proof.Machine.execDisable path addr value s
  | .drainDone addr => Sys2Proof.Machine.execDrainDone addr s
  | .counter64LowRead path addr => Sys2Proof.Machine.execCounter64LowRead path addr s
  | .cckPassEnd => Sys2Proof.Machine.execCckPassEnd s
  | .cckSnap path view => Sys2Proof.Machine.execCckSnap path view s
  | .cckRefWrite path view value => Sys2Proof.Machine.execCckRefWrite path view value s
  | .cckEnWrite path view value => Sys2Proof.Machine.execCckEnWrite path view value s
  | .memoryClearDone => Sys2Proof.Machine.execMemoryClearDone s
  | .refDetect edges xtal => Sys2Proof.Machine.execRefDetect edges xtal s
  | .refLoss => Sys2Proof.Machine.execRefLoss s
  | .pllEnable path view value => Sys2Proof.Machine.execPllEnable path view value s
  | .pllLock pll => Sys2Proof.Machine.execPllLock pll s
  | .pllLockLoss pll => Sys2Proof.Machine.execPllLockLoss pll s
  | .toRoot path view => Sys2Proof.Machine.execToRoot path view s
  | .toRc path view => Sys2Proof.Machine.execToRc path view s
  | .clockSwitchDone => Sys2Proof.Machine.execClockSwitchDone s
  | .powerOnReset => Sys2Proof.Machine.execPowerOnReset s
  | .resetPin lowNs => Sys2Proof.Machine.execResetPin lowNs s
  | .resetRelease role half mgtAddr => Sys2Proof.Machine.execResetRelease role half mgtAddr s
  | .arm path view => Sys2Proof.Machine.execArm path view s
  | .armExpire => Sys2Proof.Machine.execArmExpire s
  | .full path view => Sys2Proof.Machine.execFull path view s
  | .fullReset => Sys2Proof.Machine.execFullReset s
  | .watchdogExpiry => Sys2Proof.Machine.execWatchdogExpiry s
  | .lockstepMismatch => Sys2Proof.Machine.execLockstepMismatch s
  | .wdogKick path view => Sys2Proof.Machine.execWdogKick path view s
  | .wdogCfgWrite path view value => Sys2Proof.Machine.execWdogCfgWrite path view value s
  | .perstN low => Sys2Proof.Machine.execPerstN low s
  | .pllLockTimeout => Sys2Proof.Machine.execPllLockTimeout s
  | .slotVerifyDone a b => Sys2Proof.Machine.execSlotVerifyDone a b s
  | .loadDataWrite path view value => Sys2Proof.Machine.execLoadDataWrite path view value s
  | .loadVerify path view => Sys2Proof.Machine.execLoadVerify path view s
  | .loadVerifyDone img => Sys2Proof.Machine.execLoadVerifyDone img s
  | .keyRecordApply record => Sys2Proof.Machine.execKeyRecordApply record s
  | .ryupelImageVerify img banks => Sys2Proof.Machine.execRyupelImageVerify img banks s
  | .debugAccess acc => Sys2Proof.Machine.execDebugAccess acc s
  | .epochBoundary => Sys2Proof.Machine.execEpochBoundary s
  | .beaconSend => Sys2Proof.Machine.execBeaconSend s
  | .beacon port cell arrival => Sys2Proof.Machine.execBeacon port cell arrival s
  | .epcLocked => Sys2Proof.Machine.execEpcLocked s
  | .phaseStep => Sys2Proof.Machine.execPhaseStep s
  | .epcPeriodWrite path view value => Sys2Proof.Machine.execEpcPeriodWrite path view value s
  | .dmaDoorbell head ch acc descs => Sys2Proof.Machine.execDmaDoorbell head ch acc descs s
  | .dmaDescriptorDone ch data pcieErr => Sys2Proof.Machine.execDmaDescriptorDone ch data pcieErr s
  | .dmaReadTimeout ch => Sys2Proof.Machine.execDmaReadTimeout ch s
  | .st2110Packet port pkt => Sys2Proof.Machine.execSt2110Packet port pkt s
  | .sendDeadline src ring => Sys2Proof.Machine.execSendDeadline src ring s
  | .codeword port corrected uncorrectable => Sys2Proof.Machine.execCodeword port corrected uncorrectable s
  | .cellForward port cell => Sys2Proof.Machine.execCellForward port cell s
  | .idle port => Sys2Proof.Machine.execIdle port s
  | .pixelCell port cell => Sys2Proof.Machine.execPixelCell port cell s
  | .locator port cell => Sys2Proof.Machine.execLocator port cell s
  | .regRd port cell => Sys2Proof.Machine.execRegRd port cell s
  | .regWr port cell => Sys2Proof.Machine.execRegWr port cell s
  | .regRsp port cell => Sys2Proof.Machine.execRegRsp port cell s
  | .remoteTimeout tag => Sys2Proof.Machine.execRemoteTimeout tag s
  | .event port cell => Sys2Proof.Machine.execEvent port cell s
  | .evqHoldoffExpire q => Sys2Proof.Machine.execEvqHoldoffExpire q s
  | .evqDoorbell q acc => Sys2Proof.Machine.execEvqDoorbell q acc s
  | .discover port cell => Sys2Proof.Machine.execDiscover port cell s
  | .ringDiscover path view ring => Sys2Proof.Machine.execRingDiscover path view ring s
  | .neigh port cell => Sys2Proof.Machine.execNeigh port cell s
  | .dlyReq port cell residence => Sys2Proof.Machine.execDlyReq port cell residence s
  | .dlyRsp port cell roundTrip => Sys2Proof.Machine.execDlyRsp port cell roundTrip s
  | .delayMeasureStart port => Sys2Proof.Machine.execDelayMeasureStart port s
  | .remeasure path view ring => Sys2Proof.Machine.execRemeasure path view ring s
  | .dlyReqSend port => Sys2Proof.Machine.execDlyReqSend port s
  | .linkdown port cell => Sys2Proof.Machine.execLinkdown port cell s
  | .linkup port cell => Sys2Proof.Machine.execLinkup port cell s
  | .shareReq port cell => Sys2Proof.Machine.execShareReq port cell s
  | .shareReqRepeat port => Sys2Proof.Machine.execShareReqRepeat port s
  | .pacingExpire port => Sys2Proof.Machine.execPacingExpire port s
  | .cellBoundary port => Sys2Proof.Machine.execCellBoundary port s
  | .test port cell => Sys2Proof.Machine.execTest port cell s
  | .laneStageDone lane info => Sys2Proof.Machine.execLaneStageDone lane info s
  | .stageTimeout lane reason => Sys2Proof.Machine.execStageTimeout lane reason s
  | .portRetry port => Sys2Proof.Machine.execPortRetry port s
  | .lossOfLock lane => Sys2Proof.Machine.execLossOfLock lane s
  | .quietEnter port dir => Sys2Proof.Machine.execQuietEnter port dir s
  | .quietRefresh port => Sys2Proof.Machine.execQuietRefresh port s
  | .quietExit port dir => Sys2Proof.Machine.execQuietExit port dir s
  | .cairnCopyDisagree item c0 c1 c2 within1ms => Sys2Proof.Machine.execCairnCopyDisagree item c0 c1 c2 within1ms s
  | .listenEnd ring => Sys2Proof.Machine.execListenEnd ring s
  | .cmdResign path view => Sys2Proof.Machine.execCmdResign path view s
  | .resign port cell => Sys2Proof.Machine.execResign port cell s
  | .cmdTake path view => Sys2Proof.Machine.execCmdTake path view s
  | .beaconLossTakeover => Sys2Proof.Machine.execBeaconLossTakeover s
  | .foldCheckDone => Sys2Proof.Machine.execFoldCheckDone s
  | .takeoverComplete => Sys2Proof.Machine.execTakeoverComplete s
  | .take port cell => Sys2Proof.Machine.execTake port cell s
  | .foldCommit path view => Sys2Proof.Machine.execFoldCommit path view s
  | .foldPeriod => Sys2Proof.Machine.execFoldPeriod s
  | .foldCaptureDone => Sys2Proof.Machine.execFoldCaptureDone s
  | .foldData port cell => Sys2Proof.Machine.execFoldData port cell s
  | .foldAck port cell => Sys2Proof.Machine.execFoldAck port cell s
  | .foldNack port cell => Sys2Proof.Machine.execFoldNack port cell s
  | .foldAckTimeout => Sys2Proof.Machine.execFoldAckTimeout s
  | .foldVerify path view => Sys2Proof.Machine.execFoldVerify path view s
  | .foldVerifyDone => Sys2Proof.Machine.execFoldVerifyDone s
  | .bar2Request offset req => Sys2Proof.Machine.execBar2Request offset req s
  | .apertureWrite path view a value => Sys2Proof.Machine.execApertureWrite path view a value s
  | .hostRd port cell data ended => Sys2Proof.Machine.execHostRd port cell data ended s
  | .hostCpl port cell => Sys2Proof.Machine.execHostCpl port cell s
  | .hostWr port cell => Sys2Proof.Machine.execHostWr port cell s
  | .doorbell port cell => Sys2Proof.Machine.execDoorbell port cell s
  | .ethFrame port frame => Sys2Proof.Machine.execEthFrame port frame s
  | .frame port cell => Sys2Proof.Machine.execFrame port cell s
  | .cpTxDoorbell idx be slots => Sys2Proof.Machine.execCpTxDoorbell idx be slots s
  | .cpRxDoorbell idx be => Sys2Proof.Machine.execCpRxDoorbell idx be s
  | .ptpMessage port msg => Sys2Proof.Machine.execPtpMessage port msg s
  | .ptpAnnounceTimeout => Sys2Proof.Machine.execPtpAnnounceTimeout s
  | .mgtWrite addr count data pec => Sys2Proof.Machine.execMgtWrite addr count data pec s
  | .mgtRead addr count => Sys2Proof.Machine.execMgtRead addr count s
  | .mgtSclTimeout => Sys2Proof.Machine.execMgtSclTimeout s
  | .mgtWakeTimeout => Sys2Proof.Machine.execMgtWakeTimeout s
  | .dramRequest req => Sys2Proof.Machine.execDramRequest req s
  | .selfRefreshIdle ch => Sys2Proof.Machine.execSelfRefreshIdle ch s
  | .dramReadDone ch result => Sys2Proof.Machine.execDramReadDone ch result s
  | .trefi ch => Sys2Proof.Machine.execTrefi ch s
  | .refreshIssue ch => Sys2Proof.Machine.execRefreshIssue ch s
  | .mr4Read ch value wants2x beyond => Sys2Proof.Machine.execMr4Read ch value wants2x beyond s
  | .refreshWindowEnd ch => Sys2Proof.Machine.execRefreshWindowEnd ch s
  | .pointRd path view ch => Sys2Proof.Machine.execPointRd path view ch s
  | .pointWr path view ch => Sys2Proof.Machine.execPointWr path view ch s
  | .cbt path view ch => Sys2Proof.Machine.execCbt path view ch s
  | .wckLevel path view ch => Sys2Proof.Machine.execWckLevel path view ch s
  | .mrw path view ch => Sys2Proof.Machine.execMrw path view ch s
  | .mrr path view ch => Sys2Proof.Machine.execMrr path view ch s
  | .trainCommit path view ch => Sys2Proof.Machine.execTrainCommit path view ch s
  | .abandon path view ch => Sys2Proof.Machine.execAbandon path view ch s
  | .trainPointDone ch fail data => Sys2Proof.Machine.execTrainPointDone ch fail data s
  | .sensorConversion sensor result => Sys2Proof.Machine.execSensorConversion sensor result s
  | .calRun path view => Sys2Proof.Machine.execCalRun path view s
  | .calAbort path view => Sys2Proof.Machine.execCalAbort path view s
  | .calSlice result => Sys2Proof.Machine.execCalSlice result s
  | .calApply => Sys2Proof.Machine.execCalApply s
  | .pwrGo path view target => Sys2Proof.Machine.execPwrGo path view target s
  | .blockPark answer => Sys2Proof.Machine.execBlockPark answer s
  | .delayLimit => Sys2Proof.Machine.execDelayLimit s
  | .wakeArm => Sys2Proof.Machine.execWakeArm s
  | .wake source lane => Sys2Proof.Machine.execWake source lane s
  | .railPgRise rcReady => Sys2Proof.Machine.execRailPgRise rcReady s
  | .wakeTimeout => Sys2Proof.Machine.execWakeTimeout s
  | .wakeRetry => Sys2Proof.Machine.execWakeRetry s
  | .restore path view => Sys2Proof.Machine.execRestore path view s
  | .restoreDone => Sys2Proof.Machine.execRestoreDone s
  | .railEnAssert => Sys2Proof.Machine.execRailEnAssert s
  | .railPgFall => Sys2Proof.Machine.execRailPgFall s
  | .rowSlot half obs => Sys2Proof.Machine.execRowSlot half obs s
  | .probe half sink row mv => Sys2Proof.Machine.execProbe half sink row mv s
  | .lampAgeOut half sink row => Sys2Proof.Machine.execLampAgeOut half sink row s
  | .latchInstant => Sys2Proof.Machine.execLatchInstant s
  | .pairTest half pair mv => Sys2Proof.Machine.execPairTest half pair mv s
  | .leakTest half mv0 mv1 => Sys2Proof.Machine.execLeakTest half mv0 mv1 s
  | .nbRestore path view half dword value => Sys2Proof.Machine.execNbRestore path view half dword value s
  | .sinkDieCheckDone half answer0 answer1 => Sys2Proof.Machine.execSinkDieCheckDone half answer0 answer1 s
  | .derateUpdate => Sys2Proof.Machine.execDerateUpdate s
  | .lyrCommit path view half mask => Sys2Proof.Machine.execLyrCommit path view half mask s
  | .lyrTouch path view half mask => Sys2Proof.Machine.execLyrTouch path view half mask s
  | .scnGo path view half => Sys2Proof.Machine.execScnGo path view half s
  | .pressEnd half => Sys2Proof.Machine.execPressEnd half s
  | .pressLayer half => Sys2Proof.Machine.execPressLayer half s
  | .pressOrder half => Sys2Proof.Machine.execPressOrder half s
  | .pressBlend half => Sys2Proof.Machine.execPressBlend half s
  | .pressWindow half => Sys2Proof.Machine.execPressWindow half s
  | .pressFlat half => Sys2Proof.Machine.execPressFlat half s
  | .pressWaitl half => Sys2Proof.Machine.execPressWaitl half s
  | .pressSync half => Sys2Proof.Machine.execPressSync half s
  | .pressWaitRelease half => Sys2Proof.Machine.execPressWaitRelease half s
  | .pressJump half => Sys2Proof.Machine.execPressJump half s
  | .pressCond half => Sys2Proof.Machine.execPressCond half s
  | .datapathStep half waits => Sys2Proof.Machine.execDatapathStep half waits s
  | .darnRunEnd half => Sys2Proof.Machine.execDarnRunEnd half s
  | .drnLoad path view half => Sys2Proof.Machine.execDrnLoad path view half s
  | .drnLoadDone half => Sys2Proof.Machine.execDrnLoadDone half s
  | .drnVerify path view half => Sys2Proof.Machine.execDrnVerify path view half s
  | .drnVerifyDone half => Sys2Proof.Machine.execDrnVerifyDone half s
  | .mapCheckDone half => Sys2Proof.Machine.execMapCheckDone half s
  | .slotDue slot => Sys2Proof.Machine.execSlotDue slot s
  | .loopRunStart clocks => Sys2Proof.Machine.execLoopRunStart clocks s
  | .loopLd => Sys2Proof.Machine.execLoopLd s
  | .loopSt => Sys2Proof.Machine.execLoopSt s
  | .loopMac => Sys2Proof.Machine.execLoopMac s
  | .loopMsub => Sys2Proof.Machine.execLoopMsub s
  | .loopSat => Sys2Proof.Machine.execLoopSat s
  | .loopLim => Sys2Proof.Machine.execLoopLim s
  | .loopSelmin => Sys2Proof.Machine.execLoopSelmin s
  | .loopTrk => Sys2Proof.Machine.execLoopTrk s
  | .loopTab => Sys2Proof.Machine.execLoopTab s
  | .loopFf => Sys2Proof.Machine.execLoopFf s
  | .loopOut => Sys2Proof.Machine.execLoopOut s
  | .loopWait => Sys2Proof.Machine.execLoopWait s
  | .loopHalt => Sys2Proof.Machine.execLoopHalt s
  | .lopRestart path view mask => Sys2Proof.Machine.execLopRestart path view mask s
  | .lopCheckDone => Sys2Proof.Machine.execLopCheckDone s
  | .headroomReport half rail minPin => Sys2Proof.Machine.execHeadroomReport half rail minPin s
  | .ffEntry rail => Sys2Proof.Machine.execFfEntry rail s
  | .chopOnEnd rail meas => Sys2Proof.Machine.execChopOnEnd rail meas s
  | .chopOffEnd rail meas => Sys2Proof.Machine.execChopOffEnd rail meas s
  | .chopCycleLimit rail meas => Sys2Proof.Machine.execChopCycleLimit rail meas s
  | .overcurrent rail meas => Sys2Proof.Machine.execOvercurrent rail meas s
  | .overvoltage rail => Sys2Proof.Machine.execOvervoltage rail s
  | .ovRecover rail vrail => Sys2Proof.Machine.execOvRecover rail vrail s
  | .traverseClock dup => Sys2Proof.Machine.execTraverseClock dup s
  | .trvStop path view mask => Sys2Proof.Machine.execTrvStop path view mask s
  | .trvReload path view mask => Sys2Proof.Machine.execTrvReload path view mask s
  | .kernelLoadDone src => Sys2Proof.Machine.execKernelLoadDone src s
  | .registerRead path addr count => Sys2Proof.Machine.execRegisterRead path addr count s
  | .configurationRequest fn op => Sys2Proof.Machine.execConfigurationRequest fn op s
  | .pcieLinkState st speed width l1ss => Sys2Proof.Machine.execPcieLinkState st speed width l1ss s
  | .sidePortLink port blockLock fecLock up => Sys2Proof.Machine.execSidePortLink port blockLock fecLock up s
  | .configurationUpset addr bit => Sys2Proof.Machine.execConfigurationUpset addr bit s

end Sys2Proof.Machine
end

