-- ==== Sys2Proof/Safety.lean ====
section
/-! DEFINITION. What a safe run is: the block takes every command and goes on, and its stores keep their form; and the terms in which
statements speak of a command: that it completes, what it leaves alone, and that an access reaches its register. -/

namespace Sys2Proof.Machine

/-- The canonical form of the state's stores: memory lists no byte that an unlisted address reads as, and memory and registers are
listed once each, in the order of their keys. -/
def State.wf (s : State) : Bool := Memory.wf s.mem && keysRise (s.regs.map Prod.fst)

/-- The block goes on to a next state. -/
def goesOn (o : Host.Outcome State Fault Refusal) : Bool :=
  match o with
  | .next _ => true
  | _ => false

/-- `t` is `s` in what no command may touch: the build (R2, R4) and the queue of commands. -/
def State.sameDie (s t : State) : Prop := t.build = s.build ∧ t.pending = s.pending

/-- The command completes: it answers a next state, and `P` holds of it. -/
def completes (i : Instr) (s : State) (P : State → Prop) : Prop := ∃ t, exec i s = .next t ∧ P t

/-- Every register field but those of `fs`, and every byte of memory, reads in `t` what it reads in `s`. -/
def sameElse (s t : State) (fs : List Fld) : Prop :=
  (∀ f : Fld, (∀ g ∈ fs, f.key ≠ g.key) → t.rd f = s.rd f) ∧ ∀ k, memGet t.mem k = memGet s.mem k

/-- The fields a register access may change beside its own: a calibration run whose coverage it ends is abandoned (R395). -/
def calFlds : List Fld := [R.CAL_STATE_PHASE, R.CAL_CMD_RUN, R.CAL_EVT_ABORT]

/-- The fields that the command slots of the DRAM channels may change when a command has asked for memory (R365, R370 to R373, R375, R400). -/
def drcFlds : List Fld :=
  R.PWR_EVT_SR_EXIT :: (List.range 4).flatMap (fun j =>
    [R.DRC_CH_EVT_ERRRSP j, R.DRC_CH_EVT_THROTTLE j, R.DRC_CH_EVT_RFM j, R.DRC_CH_STATE_STATE j, R.DRC_THROTTLED_REQ (j / 2)])

/-- No request waits at a DRAM channel: the command slots have nothing of an earlier command to do. -/
def State.dramQuiet (s : State) : Prop := ∀ j, j < channels s.build → s.chIdle j = true

/-- What has been put out between `s` and `t` is `o`, behind it only codewords of the port that the bits of `o` have filled (R277). -/
def onWire (s t : State) (port : Nat) (o : Out) : Prop :=
  ∃ l, t.out = l ++ o :: s.out ∧ ∀ x ∈ l, ∃ m, x = Out.codeword port m

/-- A write of one whole dword on the path, to the register of the field in a view, is carried and is no bus error (R55, R74). -/
def State.reaches (s : State) (path : Path) (f : Fld) (view : View) : Prop :=
  s.pathOpen path = true ∧ s.busError path true (viewAddr f view) 1 15 = none

end Sys2Proof.Machine
end

