-- ==== Sys2Proof/Certificates/Slice0/Obligations.lean ====
section
/-! DEFINITION. What is stated about the model, for the provers. -/

open Sys2Proof Sys2Proof.Machine

/-! ### The whole machine -/

/-- A step takes the command at the front of the queue and runs it on the rest of the queue. -/
def Obligations.StepRunsTheCommandInFront : Prop :=
  ∀ (c : Instr) (rest : List Instr) (s : State), s.pending = c :: rest → step s = exec c { s with pending := rest }

/-- On an empty queue a CTL clock passes (the model's choice, log entry 3): 4 ns on the root PLL and 5 ns on the RC oscillator (R90, R92);
time goes on by it, the build and the empty queue stay, and nothing that was put out is taken back. The GPIO pads are sampled on it (R420), with levels
that the model leaves free, but not in Saddle and Valley (log entry 186). The DRAM channels have their command slots in it: while none of them has
anything to do, nothing is put out, and memory stays. -/
def Obligations.EmptyQueueIdlesOneClock : Prop :=
  ∀ s : State, s.pending = [] →
    ∃ t, step s = .next t ∧ t.nowNs = s.nowNs + (if s.rd R.CLK_SEL_CUR = 1 then 4 else 5) ∧ t.build = s.build ∧ t.pending = [] ∧ s.out <:+ t.out ∧
      t.pins.gpioIn = (if s.pstate = pSaddle ∨ s.pstate = pValley then s.pins.gpioIn else Config.gpioPads t.nowNs % 256) ∧
      (s.dramQuiet → t.out = s.out ∧ t.mem = s.mem)

/-- After reset the stores are in canonical form, on both builds, with nothing put out and no command waiting. -/
def Obligations.ResetStoresAreCanonical : Prop :=
  State.reset.wf = true ∧ State.resetHead.wf = true ∧ State.reset.pending = [] ∧ State.resetHead.pending = [] ∧ State.reset.out = [] ∧
  State.resetHead.out = []

/-- Every step from a state whose stores are in canonical form keeps that form and the build, takes the command in front (if any) off the
queue, takes back nothing that was put out, and turns back neither the counter of free values nor time. -/
def Obligations.EveryStepKeepsTheInvariant : Prop :=
  ∀ s t : State, s.wf = true → step s = .next t →
    t.wf = true ∧ t.build = s.build ∧ t.pending = s.pending.tail ∧ s.out <:+ t.out ∧ s.freeCtr ≤ t.freeCtr ∧ s.nowNs ≤ t.nowNs

/-- Every command completes in every state whose stores are in canonical form: it answers a next state, in which the build, the queue and
that form are kept, nothing put out is taken back, and neither the counter of free values nor time turns back. -/
def Obligations.EveryCommandCompletes : Prop :=
  ∀ (c : Instr) (s : State), s.wf = true →
    completes c s (fun t => s.sameDie t ∧ t.wf = true ∧ s.out <:+ t.out ∧ s.freeCtr ≤ t.freeCtr ∧ s.nowNs ≤ t.nowNs)

/-! ### Accesses (R53 to R80, R87) -/

/-- R55: a write request of which any dword is a bus error performs no dword; the error is logged once, with the lowest failing dword's
address, and the path is answered with an abort, but a posted PCIe write is dropped. -/
def Obligations.RefusedWriteOnlyLogs : Prop :=
  ∀ (path : Path) (addr : Nat) (data : List Word) (be a r : Nat) (s : State), s.pathOpen path = true →
    s.busError path true addr data.length be = some (a, r) →
    ∀ c ∈ [Instr.registerWrite path addr data be, Instr.memoryWindowWrite path addr data be],
      completes c s (fun t =>
        sameElse s t [R.SYS_BERR_CNT, R.SYS_BERR_ADDR_ADDR, R.SYS_BERR_INFO_NODE, R.SYS_BERR_INFO_WRITE, R.SYS_BERR_INFO_PATH,
          R.SYS_BERR_INFO_REASON] ∧
        t.rd R.SYS_BERR_CNT = min (s.rd R.SYS_BERR_CNT + 1) 4294967295 ∧ t.rd R.SYS_BERR_ADDR_ADDR = a % 2097152 ∧
        t.rd R.SYS_BERR_INFO_REASON = r % 256 ∧ t.rd R.SYS_BERR_INFO_WRITE = 1 ∧ t.rd R.SYS_BERR_INFO_PATH = Path.code path ∧
        t.out = if path = .pcie then s.out else .abort path :: s.out)

/-- What a write of the bits `x` in a view makes of a field that reads `old` (R53). -/
def viewResult (view : View) (old x : Nat) : Nat :=
  match view with
  | .base => x
  | .set => Nat.lor old x
  | .clr => old - Nat.land old x
  | .tog => Nat.xor old x

/-- The field is alone in its register, which is neither its page's CTRL nor of an instance with an ENABLE of its own, in a page in which a
write has no effect but the one of its class. -/
def plainRegister (s : State) (f : Fld) (b : Blk) (w : Nat) : Prop :=
  b ∈ [Blk.CAL, .FLD, .SCN, .LMP, .PRS, .GPIO] ∧ winBlk (f.addr / 16384) = some (b, w) ∧ f.addr % 4096 ≠ 4 ∧
  fldsAt b s.build w (f.addr % 4096) = some ([f], false)

/-- A write that is ignored: counted in `cnt` of the page, recorded with its reason, and nothing else changes. -/
def ignoredWrite (s t : State) (cnt : Fld) (pg reason : Nat) : Prop :=
  t.rd cnt = min (s.rd cnt + 1) 4294967295 ∧ t.rd (R.IGN_REASON pg) = reason ∧
  sameElse s t ([cnt, R.IGN_OFFSET pg, R.IGN_VIEW pg, R.IGN_PATH pg, R.IGN_REASON pg] ++ calFlds)

/-- The fields of a page's CTRL (R59). -/
def ctrlFlds (b : Blk) (bd : Build) (w : Nat) : List Fld := ((fldsAt b bd w 4).map Prod.fst).getD []

/-- A write of CTRL that is ignored: counted in `cnt` of the page, recorded with its reason, and nothing else changes. -/
def ignoredCtrl (b : Blk) (w : Nat) (s t : State) (cnt : Fld) (reason : Nat) : Prop :=
  t.rd cnt = min (s.rd cnt + 1) 4294967295 ∧ t.rd (R.IGN_REASON (b.pg w)) = reason ∧ (∀ f ∈ ctrlFlds b s.build w, t.rd f = s.rd f) ∧
  sameElse s t ([cnt, R.IGN_OFFSET (b.pg w), R.IGN_VIEW (b.pg w), R.IGN_PATH (b.pg w), R.IGN_REASON (b.pg w)] ++ ctrlFlds b s.build w ++ calFlds)

/-- R53, R54, R60 to R66, R71, R73: a write of one register in the base view writes it, in the SET view sets, in the CLR view clears and in the
TOG view inverts the bits that are 1 in the dword written. Of each kind of register: RW and HU take it on a stopped, unlocked page (an HU
field that hardware has updated may win: free, log entry 4), LV always; out of range it is ignored with RANGE, on a running page with
ENABLED, on one that drains with DRAINING, on a locked one with LOCKED; RO never changes, and nothing is counted; CT is cleared by a base
write of 0, and other views leave it, a write in any view whose result is not 0 being ignored with RANGE (log entry 110); W1 is written once, then
ignored with WRITE_ONCE. R80: a write to the high word of a 64-bit counter is ignored with RANGE in every view. R58: a field of an ingest channel
goes by the channel's own ENABLE. Nothing else changes, but a calibration run may be abandoned (R395). -/
def Obligations.ViewsOfARegisterWrite : Prop :=
  (∀ (path : Path) (view : View) (v : Word) (b : Blk) (w : Nat) (f : Fld) (old x new : Nat) (s : State),
     s.reaches path f view → plainRegister s f b w → s.see f = old → old < 2 ^ f.width → f.width ≤ 32 → x = bitsOf v.toNat f.lsb f.width →
     new = viewResult view old x →
     (f.cls = .lv ∨ (f.cls = .rw ∨ f.cls = .hu) ∧ s.rd (R.LOCK (b.pg w)) = 0 ∧ s.rd (R.ENABLE (b.pg w)) = 0 ∧
         (s.run b w = runDisabled ∨ s.run b w = runDrained) →
       (f.lo ≤ new → new ≤ f.hi → s.bus.hw.contains f.key = false →
         completes (.registerWrite path (viewAddr f view) [v] 15) s (fun t =>
           t.rd f = new ∧ (f.cls = .rw → t.cck.dirty = true) ∧ sameElse s t ([f] ++ calFlds))) ∧
       (new < f.lo ∨ f.hi < new → s.bus.hw.contains f.key = false →
         completes (.registerWrite path (viewAddr f view) [v] 15) s (fun t => ignoredWrite s t (R.EVT_CFG_IGN (b.pg w)) (b.pg w) rRange)) ∧
       (f.cls = .hu → f.lo ≤ new → new ≤ f.hi → s.bus.hw.contains f.key = true →
         completes (.registerWrite path (viewAddr f view) [v] 15) s (fun t =>
           (t.rd f = new ∧ sameElse s t ([f] ++ calFlds)) ∨ ignoredWrite s t (R.EVT_CFG_IGN (b.pg w)) (b.pg w) rHwWins))) ∧
     (f.cls = .rw ∨ f.cls = .hu →
       (s.rd (R.LOCK (b.pg w)) = 1 →
         completes (.registerWrite path (viewAddr f view) [v] 15) s (fun t => ignoredWrite s t (R.EVT_LOCK_IGN (b.pg w)) (b.pg w) rLocked)) ∧
       (s.rd (R.LOCK (b.pg w)) = 0 → s.run b w = runDraining →
         completes (.registerWrite path (viewAddr f view) [v] 15) s (fun t => ignoredWrite s t (R.EVT_CFG_IGN (b.pg w)) (b.pg w) rDraining)) ∧
       (s.rd (R.LOCK (b.pg w)) = 0 → s.rd (R.ENABLE (b.pg w)) = 1 → s.run b w ≠ runDraining →
         completes (.registerWrite path (viewAddr f view) [v] 15) s (fun t => ignoredWrite s t (R.EVT_CFG_IGN (b.pg w)) (b.pg w) rEnabled))) ∧
     (f.cls = .ro → completes (.registerWrite path (viewAddr f view) [v] 15) s (fun t => sameElse s t calFlds)) ∧
     (f.cls = .ct →
       (view = .base → x = 0 →
         completes (.registerWrite path (viewAddr f view) [v] 15) s (fun t => t.rd f = 0 ∧ sameElse s t ([f] ++ calFlds))) ∧
       (new ≠ 0 →
         completes (.registerWrite path (viewAddr f view) [v] 15) s (fun t => ignoredWrite s t (R.EVT_CFG_IGN (b.pg w)) (b.pg w) rRange)) ∧
       (view ≠ .base → new = 0 → completes (.registerWrite path (viewAddr f view) [v] 15) s (fun t => sameElse s t calFlds)))) ∧
  (∀ (path : Path) (view : View) (v : Word) (b : Blk) (w : Nat) (f g : Fld) (s : State), f.width = 64 → f.cls = .ct → f.addr % 4 = 0 →
     g = { f with addr := f.addr + 4 } → s.reaches path g view → winBlk (g.addr / 16384) = some (b, w) →
     fldsAt b s.build w (g.addr % 4096) = some ([f], true) →
     completes (.registerWrite path (viewAddr g view) [v] 15) s (fun t => ignoredWrite s t (R.EVT_CFG_IGN (b.pg w)) (b.pg w) rRange)) ∧
  (∀ (path : Path) (view : View) (v : Word) (j old : Nat) (s : State), j < 48 → s.reaches path (R.BOOT_KEY_DIGEST j) view →
     s.rd (R.LOCK 0x8000) = 0 → s.rd (R.BOOT_KEY_DIGEST j) = old → old < 4294967296 →
     (s.bus.w1.contains (R.BOOT_KEY_DIGEST j).key = false →
       completes (.registerWrite path (viewAddr (R.BOOT_KEY_DIGEST j) view) [v] 15) s (fun t =>
         t.rd (R.BOOT_KEY_DIGEST j) = viewResult view old v.toNat ∧ t.bus.w1.contains (R.BOOT_KEY_DIGEST j).key = true ∧
         sameElse s t ([R.BOOT_KEY_DIGEST j] ++ calFlds))) ∧
     (s.bus.w1.contains (R.BOOT_KEY_DIGEST j).key = true →
       completes (.registerWrite path (viewAddr (R.BOOT_KEY_DIGEST j) view) [v] 15) s (fun t =>
         ignoredWrite s t (R.EVT_LOCK_IGN 0x8000) 0x8000 rWriteOnce))) ∧
  ∀ (path : Path) (view : View) (v : Word) (n : Nat) (s : State), n < 16 → s.reaches path (R.DMA_CH_RING_LO_ADDR n) view →
    s.rd (R.LOCK (Blk.DMA.pg 0)) = 0 →
    (s.rd (R.DMA_CH_STATE_RUN n) = runDraining →
      completes (.registerWrite path (viewAddr (R.DMA_CH_RING_LO_ADDR n) view) [v] 15) s (fun t =>
        ignoredWrite s t (R.EVT_CFG_IGN (Blk.DMA.pg 0)) (Blk.DMA.pg 0) rDraining)) ∧
    (s.rd (R.DMA_CH_STATE_RUN n) ≠ runDraining → s.rd (R.DMA_CH_CFG_ENABLE n) = 1 →
      completes (.registerWrite path (viewAddr (R.DMA_CH_RING_LO_ADDR n) view) [v] 15) s (fun t =>
        ignoredWrite s t (R.EVT_CFG_IGN (Blk.DMA.pg 0)) (Blk.DMA.pg 0) rEnabled))

/-- The dword at `a` is the low word of the 64-bit counter `f`, in any of the four views. -/
def lowWordOf (s : State) (a : Nat) (f : Fld) : Prop :=
  ∃ (b : Blk) (w : Nat) (l : List Fld), a < 0x100000 ∧ winBlk (a / 16384) = some (b, w) ∧
    fldsAt b s.build w (a % 4096) = some (f :: l, false) ∧ f.width = 64

/-- R56: a read of any length has no side effect, except the low-word read of a 64-bit counter: it answers with its dwords, and of the whole
state nothing but what has been put out and the latched high words differ after it; of those, only the latches of the low words read. R80:
the read of the low word of a 64-bit counter answers with it and latches the high word for its own path; the read of the high word then
returns the latched value, whatever the counter has become. -/
def Obligations.ReadsAndLatchedCounters : Prop :=
  (∀ (path : Path) (addr n : Nat) (s : State), s.pathOpen path = true → s.busError path false addr n 15 = none →
     completes (.registerRead path addr n) s (fun t =>
       t = { s with out := t.out, bus := { s.bus with latch := t.bus.latch } } ∧
       (∃ d : List Word, t.out = .data path d :: s.out ∧ d.length = n ∧
         (n = 1 → d = [BitVec.ofNat 32 (s.readDword path (addr / 4 * 4)).1])) ∧
       ∀ k, (∀ i f, i < n → lowWordOf s (dwordAt addr i) f → k ≠ latchKey path f.addr) →
         Sparse.get t.bus.latch k = Sparse.get s.bus.latch k)) ∧
  (∀ (path : Path) (b : Blk) (w : Nat) (f : Fld) (s : State), f.width = 64 → f.lsb = 0 → f.addr % 4 = 0 → f.addr < 0x100000 →
     winBlk (f.addr / 16384) = some (b, w) → f.addr % 4096 ≠ 0 → fldsAt b s.build w (f.addr % 4096) = some ([f], false) →
     s.pathOpen path = true → s.busError path false f.addr 1 15 = none →
     completes (.counter64LowRead path f.addr) s (fun t =>
       t.out = .data path [BitVec.ofNat 32 (s.see f % 4294967296)] :: s.out ∧
       Sparse.look t.bus.latch (latchKey path f.addr) 0 = s.see f / 4294967296 ∧ sameElse s t [] ∧
       ∀ u : State, u.build = s.build → u.bus = t.bus → u.pathOpen path = true → u.busError path false (f.addr + 4) 1 15 = none →
         winBlk ((f.addr + 4) / 16384) = some (b, w) → fldsAt b u.build w ((f.addr + 4) % 4096) = some ([f], true) →
         (f.addr + 4) % 4096 ≠ 0 → f.addr + 4 < 0x100000 →
         completes (.registerRead path (f.addr + 4) 1) u (fun v =>
           v.out = .data path [BitVec.ofNat 32 (s.see f / 4294967296)] :: u.out ∧ sameElse u v [])))

/-- R59, R68, R69, R71, on every page: a SET write of 1 to ENABLE of a stopped, unlocked page whose check passes starts its block, one whose check takes
time and scan-out showing STARTING first; where the check fails the write is ignored with the check's reason. A CLR write stops a running block: at once, or by way
of DRAINING where the block drains, or to DISABLED where the power controller has parked it (log entry 161); the pages that are always on ignore it. A SET write of LOCK closes the page. R71, R72:
while a page is locked a write to its ENABLE is ignored, counted in EVT_LOCK_IGN and recorded with reason LOCKED; the page goes on as it was, and its
LOCK stays. R69: a Press engine, a darning unit or a DRAM controller that drains shows DRAINED once it is at its boundary; until then the event changes
nothing. R420: the GPIO page's pads follow its ENABLE. -/
def Obligations.PageControl : Prop :=
  (∀ (path : Path) (b : Blk) (w pg : Nat) (s : State), pg = b.pg w → s.has b w = true →
     (s.rd (R.LOCK pg) = 0 →
       (s.reaches path (R.ENABLE pg) .set →
         (alwaysOn b = false → s.rd (R.ENABLE pg) = 0 → s.run b w = runDisabled ∨ s.run b w = runDrained → isCore b = false ∨ s.coreGated = false →
           s.pphase ≠ ppEntering →
           (s.pageCheck b w = none →
             completes (.enable path (pg + 0x1004) 1) s (fun t =>
               t.rd (R.ENABLE pg) = (if slowCheck b = true then 0 else 1) ∧
               t.run b w = (if slowCheck b = true ∨ b = .SCN then runStarting else runRunning) ∧ t.rd (R.LOCK pg) = 0 ∧
               (∀ f ∈ ctrlFlds b s.build w, f.lsb ≠ 0 → t.rd f = s.rd f) ∧
               (b ∈ [Blk.GPIO, .HST, .CRN] → sameElse s t (R.RUN pg :: ctrlFlds b s.build w ++ calFlds)) ∧
               (b = .GPIO → s.pstate ≠ pValley →
                 .gpio (s.rd R.GPIO_OE_OE) (Nat.land (s.rd R.GPIO_OE_OE) (s.rd R.GPIO_OUT_OUT)) ∈ t.out))) ∧
           (∀ r, s.pageCheck b w = some r →
             completes (.enable path (pg + 0x1004) 1) s (fun t =>
               t.rd (R.ENABLE pg) = 0 ∧ t.run b w = s.run b w ∧ ignoredCtrl b w s t (R.EVT_CFG_IGN pg) r))) ∧
         (s.rd (R.ENABLE pg) = 1 ∧ s.run b w = runRunning ∨ s.rd (R.ENABLE pg) = 0 ∧ s.run b w = runDisabled ∧ alwaysOn b = false →
           completes (.pageLock path (pg + 0x1004) 2) s (fun t =>
             t.rd (R.ENABLE pg) = s.rd (R.ENABLE pg) ∧ t.run b w = s.run b w ∧ t.rd (R.LOCK pg) = 1 ∧
             (∀ f ∈ ctrlFlds b s.build w, f.lsb ≠ 1 → t.rd f = s.rd f) ∧
             (b ≠ .THM → b = .DRN ∧ s.rd (R.ENABLE pg) = 1 ∨ sameElse s t (ctrlFlds b s.build w ++ calFlds)) ∧
             (b = .DRN → s.rd (R.ENABLE pg) = 1 →
               t.rd (R.EVT_CFG_IGN pg) = min (s.rd (R.EVT_CFG_IGN pg) + 1) 4294967295 ∧ t.rd (R.IGN_REASON pg) = 1)))) ∧
       (s.reaches path (R.ENABLE pg) .clr → s.rd (R.ENABLE pg) = 1 → s.run b w = runRunning →
         (alwaysOn b = false →
           completes (.disable path (pg + 0x2004) 1) s (fun t =>
             t.rd (R.ENABLE pg) = 0 ∧ t.rd (R.LOCK pg) = 0 ∧
             (if s.parked (parkStep b) = true ∨ drains b = false then t.run b w = runDisabled
              else if b = .PRS ∨ b = .LYR ∨ b = .DRC then t.run b w = runDraining
              else if b = .DRN then t.run b w = (if (s.darn w).running then runDraining else runDrained)
              else t.run b w = runDraining ∨ t.run b w = runDrained) ∧
             (∀ f ∈ ctrlFlds b s.build w, f.lsb ≠ 0 → t.rd f = s.rd f) ∧
             (b ∈ [Blk.GPIO, .HST, .CRN] → sameElse s t (R.RUN pg :: ctrlFlds b s.build w ++ calFlds)))) ∧
         (alwaysOn b = true →
           completes (.disable path (pg + 0x2004) 1) s (fun t => t.rd (R.ENABLE pg) = 1 ∧ ignoredCtrl b w s t (R.EVT_CFG_IGN pg) rRange)))) ∧
     (s.rd (R.LOCK pg) = 1 → b ≠ .THM → ∀ p ∈ [(View.set, Instr.enable path (pg + 0x1004) 1), (View.clr, Instr.disable path (pg + 0x2004) 1)],
       s.reaches path (R.ENABLE pg) p.1 →
       completes p.2 s (fun t =>
         t.rd (R.ENABLE pg) = s.rd (R.ENABLE pg) ∧ t.run b w = s.run b w ∧ t.rd (R.LOCK pg) = 1 ∧
         ignoredCtrl b w s t (R.EVT_LOCK_IGN pg) rLocked))) ∧
  (∀ (h : Nat) (s : State), h < 2 → s.build = .tile →
     (s.run .PRS h = runDraining →
       completes (.drainDone (Blk.PRS.pg h)) s (fun t =>
         if (s.press h).active then t = s else t.run .PRS h = runDrained ∧ sameElse s t [R.RUN (Blk.PRS.pg h)])) ∧
     (s.run .DRN h = runDraining →
       completes (.drainDone (Blk.DRN.pg h)) s (fun t =>
         if (s.darn h).running then t = s else t.run .DRN h = runDrained ∧ sameElse s t [R.RUN (Blk.DRN.pg h)]))) ∧
  (∀ (w : Nat) (s : State), w < Blk.DRC.wins s.build → s.run .DRC w = runDraining →
     completes (.drainDone (Blk.DRC.pg w)) s (fun t => if s.drcIdle w then t.run .DRC w = runDrained else t = s))

/-- R87, R65: a dword written to the loop program memory while LOP is stopped and unlocked is stored there; no other byte and no
register changes, and the pass of the configuration check is void (R83). While LOP runs the memory is closed. -/
def Obligations.LoopProgramTakesWritesWhileStopped : Prop :=
  ∀ (path : Path) (a : Nat) (v : Word) (s : State), s.wf = true → 0x100000 ≤ a → a < 0x110000 → a % 4 = 0 →
    s.pathOpen path = true → s.busError path true a 1 15 = none → s.rd (R.LOCK (Blk.LOP.pg 0)) = 0 →
    (s.rd (R.ENABLE (Blk.LOP.pg 0)) = 0 → s.run .LOP 0 = runDisabled →
      completes (.memoryWindowWrite path a [v] 15) s (fun t =>
        t.rd32 .window a = v.toNat ∧ (∀ f, t.rd f = s.rd f) ∧ t.cck.dirty = true ∧
        ∀ k, (k < Space.window.key a ∨ Space.window.key a + 4 ≤ k) → memGet t.mem k = memGet s.mem k)) ∧
    (s.rd (R.ENABLE (Blk.LOP.pg 0)) = 1 → s.run .LOP 0 = runRunning →
      completes (.memoryWindowWrite path a [v] 15) s (fun t =>
        (∀ k, memGet t.mem k = memGet s.mem k) ∧ t.rd (R.IGN_REASON (Blk.LOP.pg 0)) = rEnabled ∧
        t.rd (R.EVT_CFG_IGN (Blk.LOP.pg 0)) = min (s.rd (R.EVT_CFG_IGN (Blk.LOP.pg 0)) + 1) 4294967295))

/-! ### The configuration check (R81 to R85) -/

/-- R83, R85, R403: a void pass, one interfered with, stopped or overlapped by a restore, is counted and not compared; a clean pass posts its
result, and with a reference it matches or counts a mismatch, two in a row setting MISMATCH; with a qualifying SNAP its result becomes the
reference (R84). -/
def Obligations.ConfigurationCheckPass : Prop :=
  ∀ s : State, s.cck.running = true →
    ((s.cck.dirty = true ∨ s.cck.stop = true ∨ s.rd R.PWR_CMD_RESTORE = 1) →
      completes .cckPassEnd s (fun t =>
        t.rd R.SYS_CCK_EVT_VOID = min (s.rd R.SYS_CCK_EVT_VOID + 1) 4294967295 ∧
        t.rd R.SYS_CCK_LAST_RESULT = s.rd R.SYS_CCK_LAST_RESULT ∧ t.rd R.SYS_CCK_EVT_MISMATCH = s.rd R.SYS_CCK_EVT_MISMATCH ∧
        t.rd R.SYS_CCK_STATE_MISMATCH = s.rd R.SYS_CCK_STATE_MISMATCH ∧ t.cck.dirty = false ∧ t.cck.running = !s.cck.stop)) ∧
    (s.cck.dirty = false → s.cck.stop = false → s.rd R.PWR_CMD_RESTORE ≠ 1 → s.rd R.SYS_CCK_CTRL_SNAP = 0 → s.rd R.SYS_CCK_STATE_REF_VALID = 1 →
      s.rd R.SYS_CCK_STATE_MISMATCH = 0 →
      completes .cckPassEnd s (fun t =>
        t.rd R.SYS_CCK_LAST_RESULT = crc32c s.passBytes % 4294967296 ∧ t.rd R.SYS_CCK_EVT_VOID = s.rd R.SYS_CCK_EVT_VOID ∧
        (crc32c s.passBytes = s.rd R.SYS_CCK_REF_REF →
          t.rd R.SYS_CCK_STATE_LAST_MISMATCH = 0 ∧ t.rd R.SYS_CCK_STATE_MISMATCH = 0 ∧
          t.rd R.SYS_CCK_EVT_MISMATCH = s.rd R.SYS_CCK_EVT_MISMATCH ∧ t.cck.misses = 0) ∧
        (crc32c s.passBytes ≠ s.rd R.SYS_CCK_REF_REF →
          t.rd R.SYS_CCK_STATE_LAST_MISMATCH = 1 ∧
          t.rd R.SYS_CCK_EVT_MISMATCH = min (s.rd R.SYS_CCK_EVT_MISMATCH + 1) 4294967295 ∧
          t.rd R.SYS_CCK_STATE_MISMATCH = (if s.cck.misses = 0 then 0 else 1)))) ∧
    (s.cck.dirty = false → s.cck.stop = false → s.rd R.PWR_CMD_RESTORE ≠ 1 → s.rd R.SYS_CCK_CTRL_SNAP = 1 → s.cck.snapOk = true →
      completes .cckPassEnd s (fun t =>
        t.rd R.SYS_CCK_REF_REF = crc32c s.passBytes % 4294967296 ∧ t.rd R.SYS_CCK_STATE_REF_VALID = 1 ∧ t.rd R.SYS_CCK_CTRL_SNAP = 0))

/-- R82, R84: a SET write of SNAP arms the snapshot of a pass that begins later; a write of SYS_CCK_REF sets the reference, whatever the
page's gate and LOCK (R67); EN starts the walker, and 0 stops it at the end of the pass in progress. R85: an upset of a checked dword of
the loop program memory flips one bit of it; nothing else notices: no register, no other byte, and the pass is not void. -/
def Obligations.ConfigurationCheckCommandsAndUpsets : Prop :=
  (∀ (path : Path) (v : Word) (s : State),
     (s.reaches path R.SYS_CCK_CTRL_SNAP .set → s.rd R.SYS_CCK_CTRL_SNAP = 0 →
       completes (.cckSnap path .set) s (fun t =>
         t.rd R.SYS_CCK_CTRL_SNAP = 1 ∧ t.cck.snapOk = false ∧ t.cck.running = (s.cck.running || s.rd R.SYS_CCK_CTRL_EN % 2 = 1))) ∧
     (s.reaches path R.SYS_CCK_REF_REF .base →
       completes (.cckRefWrite path .base v) s (fun t =>
         t.rd R.SYS_CCK_REF_REF = v.toNat ∧ t.rd R.SYS_CCK_STATE_REF_VALID = 1 ∧ t.mem = s.mem ∧
         sameElse s t ([R.SYS_CCK_REF_REF, R.SYS_CCK_STATE_REF_VALID] ++ calFlds))) ∧
     (s.reaches path R.SYS_CCK_CTRL_EN .base → s.cck.running = false →
       completes (.cckEnWrite path .base 1) s (fun t =>
         t.rd R.SYS_CCK_CTRL_EN = 1 ∧ t.cck.running = true ∧ t.cck.stop = false ∧ t.cck.dirty = false ∧
         sameElse s t ([R.SYS_CCK_CTRL_EN] ++ calFlds))) ∧
     (s.reaches path R.SYS_CCK_CTRL_EN .base → s.cck.running = true →
       completes (.cckEnWrite path .base 0) s (fun t =>
         t.rd R.SYS_CCK_CTRL_EN = 0 ∧ t.cck.running = true ∧ t.cck.stop = true ∧ sameElse s t ([R.SYS_CCK_CTRL_EN] ++ calFlds)))) ∧
  (∀ (a bit : Nat) (s : State), s.wf = true → 0x100000 ≤ a → a < 0x110000 → a % 4 = 0 → bit < 32 →
     completes (.configurationUpset a bit) s (fun t =>
       t.rd32 .window a = Nat.xor (s.rd32 .window a) (2 ^ bit) ∧ (∀ f, t.rd f = s.rd f) ∧ t.cck = s.cck ∧ t.out = s.out ∧
       ∀ k, (k < Space.window.key a ∨ Space.window.key a + 4 ≤ k) → memGet t.mem k = memGet s.mem k))

/-! ### Clocks (R89 to R94) -/

/-- R90, R94: a PLL that is started reaches lock; its lock bit, and nothing else (no other lane PLL's), shows it, and a reference that was lost is back with it
(DEDUCED, log entry 181); a PLL that is not started stays as it is. R90: a write of CLK_PLL_EN
in the base view sets the enables; a lane PLL the build lacks stays off, and a PLL that is stopped shows no lock. -/
def Obligations.PllEnableAndLock : Prop :=
  (∀ s : State,
     (s.rd R.CLK_PLL_EN_ROOT_EN = 1 → s.rd R.CLK_PLL_ROOT_LOCK = 0 → s.boot.phase ≠ .pllWait →
       completes (.pllLock .root) s (fun t => t.rd R.CLK_PLL_ROOT_LOCK = 1 ∧ t.refPresent = true ∧ sameElse s t [R.CLK_PLL_ROOT_LOCK])) ∧
     (s.rd R.CLK_PLL_EN_DRAM_EN = 1 →
       completes (.pllLock .dram) s (fun t => t.rd R.CLK_PLL_DRAM_LOCK = 1 ∧ t.refPresent = true ∧ sameElse s t [R.CLK_PLL_DRAM_LOCK])) ∧
     (s.rd R.CLK_PLL_EN_ETH_EN = 1 →
       completes (.pllLock .eth) s (fun t => t.rd R.CLK_PLL_ETH_LOCK = 1 ∧ t.refPresent = true ∧ sameElse s t [R.CLK_PLL_ETH_LOCK])) ∧
     (∀ n, n < lanePlls s.build → bitOf (s.rd R.CLK_PLL_EN_LANE_EN) n = true →
       completes (.pllLock (.lane n)) s (fun t =>
         bitOf (t.rd R.CLK_PLL_LANE_LOCK) n = true ∧ t.refPresent = true ∧
         (∀ m, m < 6 → m ≠ n → bitOf (t.rd R.CLK_PLL_LANE_LOCK) m = bitOf (s.rd R.CLK_PLL_LANE_LOCK) m) ∧
         sameElse s t [R.CLK_PLL_LANE_LOCK])) ∧
     (s.rd R.CLK_PLL_EN_ROOT_EN = 0 → completes (.pllLock .root) s (fun t => t = s)) ∧
     (s.rd R.CLK_PLL_EN_DRAM_EN = 0 → completes (.pllLock .dram) s (fun t => t = s)) ∧
     (s.rd R.CLK_PLL_EN_ETH_EN = 0 → completes (.pllLock .eth) s (fun t => t = s)) ∧
     ∀ n, lanePlls s.build ≤ n ∨ bitOf (s.rd R.CLK_PLL_EN_LANE_EN) n = false → completes (.pllLock (.lane n)) s (fun t => t = s)) ∧
  (∀ (path : Path) (v : Word) (s : State), s.reaches path R.CLK_PLL_EN_ROOT_EN .base → s.rd (R.LOCK 0x4000) = 0 → v.toNat % 2 = 1 →
     completes (.pllEnable path .base v) s (fun t =>
       t.rd R.CLK_PLL_EN_ROOT_EN = 1 ∧ t.rd R.CLK_PLL_EN_DRAM_EN = bitsOf v.toNat 1 1 ∧ t.rd R.CLK_PLL_EN_ETH_EN = bitsOf v.toNat 2 1 ∧
       t.rd R.CLK_PLL_EN_LANE_EN = bitsOf v.toNat 8 6 % 2 ^ lanePlls s.build ∧
       (bitsOf v.toNat 1 1 = 0 → t.rd R.CLK_PLL_DRAM_LOCK = 0) ∧ (bitsOf v.toNat 2 1 = 0 → t.rd R.CLK_PLL_ETH_LOCK = 0) ∧
       t.rd R.CLK_PLL_ROOT_LOCK = s.rd R.CLK_PLL_ROOT_LOCK))

/-- R93: TO_ROOT, with the root PLL locked and CTL on the RC oscillator, begins a switch to ROOT; TO_RC, with every block clocked by CORE
stopped, one to RC; the command bit reads 1 until the switch is done, and then CUR shows the target. R94: loss of the root PLL's lock, or
of the reference, on ROOT falls back to the RC oscillator, counts the unlock, and leaves every block clocked by CORE WEDGED; on the RC
oscillator only the lock bit clears. -/
def Obligations.ClockSwitchAndFallback : Prop :=
  (∀ (path : Path) (s : State),
     (s.reaches path R.CLK_SEL_TO_ROOT .set → s.rd R.CLK_SEL_CUR = curRc → s.clk.switching = none → s.rd R.CLK_PLL_ROOT_LOCK = 1 →
       completes (.toRoot path .set) s (fun t =>
         t.clk.switching = some curRoot ∧ t.rd R.CLK_SEL_TO_ROOT = 1 ∧ t.rd R.CLK_SEL_CUR = curRc ∧
         sameElse s t ([R.CLK_SEL_TO_ROOT] ++ calFlds))) ∧
     (s.reaches path R.CLK_SEL_TO_RC .set → s.rd R.CLK_SEL_CUR = curRoot → s.clk.switching = none → s.coreBusy = false →
       completes (.toRc path .set) s (fun t =>
         t.clk.switching = some curRc ∧ t.rd R.CLK_SEL_TO_RC = 1 ∧ t.rd R.CLK_SEL_CUR = curRoot ∧
         sameElse s t ([R.CLK_SEL_TO_RC] ++ calFlds))) ∧
     ∀ target, target < 3 → s.clk.switching = some target → s.boot.phase = .run → s.rd R.CLK_SEL_CUR = curRc →
       completes .clockSwitchDone s (fun t =>
         t.rd R.CLK_SEL_CUR = target ∧ t.rd R.CLK_SEL_TO_ROOT = 0 ∧ t.rd R.CLK_SEL_TO_RC = 0 ∧ t.clk.switching = none ∧
         sameElse s t ([R.CLK_SEL_CUR, R.CLK_SEL_TO_ROOT, R.CLK_SEL_TO_RC] ++ calFlds))) ∧
  (∀ s : State, s.clk.switching = some curRc → s.boot.phase = .run → s.rd R.CLK_SEL_CUR = curRoot → s.enabled .TRV 0 = false →
     completes .clockSwitchDone s (fun t =>
       t.rd R.CLK_SEL_CUR = curRc ∧ t.rd R.CLK_SEL_TO_ROOT = 0 ∧ t.rd R.CLK_SEL_TO_RC = 0 ∧ t.clk.switching = none ∧ t.coreGated = true ∧
       sameElse s t ([R.CLK_SEL_CUR, R.CLK_SEL_TO_ROOT, R.CLK_SEL_TO_RC] ++ calFlds))) ∧
  (∀ s : State,
     (s.rd R.CLK_SEL_CUR = curRoot → s.rd R.CLK_PLL_ROOT_LOCK = 1 →
       completes (.pllLockLoss .root) s (fun t =>
         t.rd R.CLK_SEL_CUR = curFallback ∧ t.rd R.CLK_PLL_ROOT_LOCK = 0 ∧
         t.rd R.CLK_EVT_UNLOCK = min (s.rd R.CLK_EVT_UNLOCK + 1) 4294967295 ∧ t.clk.switching = none ∧
         ∀ e ∈ s.coreWins, t.run e.1 e.2 = runWedged)) ∧
     (s.rd R.CLK_SEL_CUR = curRc → s.rd R.CLK_PLL_ROOT_LOCK = 1 →
       completes (.pllLockLoss .root) s (fun t =>
         t.rd R.CLK_PLL_ROOT_LOCK = 0 ∧ sameElse s t ([R.CLK_PLL_ROOT_LOCK, R.CLK_SEL_TO_ROOT, R.CLK_SEL_TO_RC] ++ calFlds))) ∧
     (s.rd R.CLK_SEL_CUR = curRoot → s.refPresent = true → s.boot.phase = .run →
       completes .refLoss s (fun t =>
         t.rd R.CLK_EVT_REFLOSS = min (s.rd R.CLK_EVT_REFLOSS + 1) 4294967295 ∧ t.refPresent = false ∧
         t.rd R.CLK_SEL_CUR = curFallback ∧ ∀ e ∈ s.coreWins, t.run e.1 e.2 = runWedged)))

/-! ### Resets (R95 to R99, R424) -/

/-- What a full reset leaves, of whatever cause (R95): every register field reads its reset value, but the straps', the kept ones and the
cause; every byte outside the MRAM store reads as after power-on, and the store is kept. -/
def fullyReset (s t : State) : Prop :=
  (∀ f : Fld, f.key ∉ (strapRegs s.build t.pins).map Prod.fst → (∀ g ∈ keptFlds, f.key ≠ g.key) → f.key ≠ R.BOOT_RESET_CAUSE_CAUSE.key →
    f.key ≠ R.BOOT_RESET_CAUSE_WDOG_RUN.key → t.rd f = f.rst s.build) ∧
  (∀ k, memGet t.mem k = if inStore k then memGet s.mem k else unlisted k) ∧ t.bus.isOpen = false ∧ t.boot.memClear = false

/-- R95, R98, R99: each cause of a full reset clears the device and shows in CAUSE; the watchdog's also counts in WDOG_RUN; a low of RESET_N
under 10 us does nothing, and a longer one in Valley raises RAIL_EN (the model's choice, log entry 160). R95: the fall of PERST_N on a head resets the HST page and the DMA page: every field of them reads its reset
value, and no aperture request is outstanding; a rise outside Valley, or any PERST_N on a tile, resets nothing. -/
def Obligations.ResetsAndPerst : Prop :=
  (∀ s : State, s.wf = true →
     completes .powerOnReset s (fun t =>
       fullyReset s t ∧ t.rd R.BOOT_RESET_CAUSE_CAUSE = 1 ∧ t.rd R.BOOT_RESET_CAUSE_WDOG_RUN = 0 ∧ t.pins.railEn = false) ∧
     (∀ low, completes (.resetPin low) s (fun t =>
       if low < 10000 then t = s
       else fullyReset s t ∧ t.rd R.BOOT_RESET_CAUSE_CAUSE = 2 ∧ t.boot.phase = .held ∧
         t.pins.railEn = (s.pins.railEn || decide (s.pstate = pValley)) ∧
         t.rd R.BOOT_RESET_CAUSE_WDOG_RUN = s.rd R.BOOT_RESET_CAUSE_WDOG_RUN % 16)) ∧
     (s.boot.due = some .cmd → completes .fullReset s (fun t =>
       fullyReset s t ∧ t.rd R.BOOT_RESET_CAUSE_CAUSE = 4 ∧ t.boot.due = none)) ∧
     (s.build = .tile → s.wdog.running = true → completes .watchdogExpiry s (fun t =>
       fullyReset s t ∧ t.rd R.BOOT_RESET_CAUSE_CAUSE = 8 ∧
       t.rd R.BOOT_RESET_CAUSE_WDOG_RUN = min 15 (s.rd R.BOOT_RESET_CAUSE_WDOG_RUN + 1) ∧ t.wdog.running = false)) ∧
     (s.build = .tile → s.boot.phase ≠ .held → completes .lockstepMismatch s (fun t =>
       fullyReset s t ∧ t.rd R.BOOT_RESET_CAUSE_CAUSE = 16))) ∧
  (∀ s : State,
     (s.build = .head → s.pins.perstLow = false →
       completes (.perstN true) s (fun t =>
         (∀ f : Fld, f.lsb < 32 → f.addr / 16384 = 8 ∨ f.addr / 16384 = 9 → t.rd f = f.rst .head) ∧ t.host.remotes = [] ∧ t.host.d3 = [] ∧
         t.pins.perstLow = true)) ∧
     (s.build = .head → s.pstate ≠ pValley → s.wakeActive = [] → completes (.perstN false) s (fun t => t.pins.perstLow = false ∧ ∀ f, t.rd f = s.rd f)) ∧
     (s.build = .tile → ∀ low, completes (.perstN low) s (fun t => t = s)))

/-- R98: FULL is taken only after ARM, and falls due; without ARM it is ignored with reason 0x10; ARM expires. R99: a KICK restarts the
watchdog's count; the first write of BOOT_WDOG_CFG sets the period, and restarts the count of a watchdog that runs. R424: at its release
from reset the device latches the straps and begins to boot. -/
def Obligations.ResetCommandWatchdogAndRelease : Prop :=
  (∀ (path : Path) (s : State),
     (s.reaches path R.BOOT_RESET_ARM .set → s.rd R.BOOT_RESET_ARM = 0 →
       completes (.arm path .set) s (fun t => t.rd R.BOOT_RESET_ARM = 1 ∧ t.boot = s.boot ∧ sameElse s t ([R.BOOT_RESET_ARM] ++ calFlds))) ∧
     completes .armExpire s (fun t => t.rd R.BOOT_RESET_ARM = 0 ∧ sameElse s t [R.BOOT_RESET_ARM]) ∧
     (s.reaches path R.BOOT_RESET_FULL .set → s.rd R.BOOT_RESET_ARM = 1 → s.rd R.BOOT_RESET_FULL = 0 →
       completes (.full path .set) s (fun t =>
         t.rd R.BOOT_RESET_FULL = 1 ∧ t.rd R.BOOT_RESET_ARM = 0 ∧ t.boot.due = some .cmd ∧
         sameElse s t ([R.BOOT_RESET_FULL, R.BOOT_RESET_ARM] ++ calFlds))) ∧
     (s.reaches path R.BOOT_RESET_FULL .set → s.rd R.BOOT_RESET_ARM = 0 →
       completes (.full path .set) s (fun t =>
         t.rd R.BOOT_RESET_FULL = s.rd R.BOOT_RESET_FULL ∧ t.boot = s.boot ∧ t.rd (R.IGN_REASON 0x8000) = 16 ∧
         t.rd (R.EVT_CFG_IGN 0x8000) = min (s.rd (R.EVT_CFG_IGN 0x8000) + 1) 4294967295))) ∧
  (∀ (path : Path) (s : State),
     (s.reaches path R.BOOT_WDOG_KICK_KICK .set → s.wdog.running = true →
       completes (.wdogKick path .set) s (fun t =>
         t.wdog.leftNs = s.wdog.periodMs * 1000000 ∧ t.wdog.running = true ∧ sameElse s t calFlds)) ∧
     (∀ v : Word, s.reaches path R.BOOT_WDOG_CFG_PERIOD .base → s.rd (R.LOCK 0x8000) = 0 →
       s.bus.w1.contains R.BOOT_WDOG_CFG_PERIOD.key = false → 10 ≤ v.toNat → v.toNat < 65536 → s.wdog.running = true →
       completes (.wdogCfgWrite path .base v) s (fun t =>
         t.rd R.BOOT_WDOG_CFG_PERIOD = v.toNat ∧ t.wdog.periodMs = v.toNat ∧ t.wdog.leftNs = v.toNat * 1000000 ∧
         t.bus.w1.contains R.BOOT_WDOG_CFG_PERIOD.key = true)) ∧
     ∀ (role half : Bool) (a : Nat), a < 128 → s.boot.phase = .held → s.pins.railPg = true →
       completes (.resetRelease role half a) s (fun t =>
         t.boot.phase = .detect ∧ t.pins.resetLow = false ∧ t.rd R.BOOT_STRAPS_ADDR = a ∧ t.rd R.BOOT_STRAPS_HALF = b2n half ∧
         t.rd R.BOOT_STRAPS_ROLE = b2n role ∧ t.rd R.MGT_STATE_ADDR = a ∧ t.mem = s.mem))

/-! ### Boot, firmware and keys (R89, R102 to R110, R439) -/

/-- R89, R103, R105: 1950 to 2050 edges select REFCLK, else a live crystal is selected; with a reference the bus opens, the stage shows KEYS
and the root PLL starts; with none the stage shows NOREF. The PLL is retried three times, then PLL_FAIL. R102, R107, R108: the boot ROM
writes the four key slots and DEBUG_LOCK from the boot record in force, the copy with the higher sequence number among the correct ones,
and closes them; with no correct copy the device is locked and the slots are empty. -/
def Obligations.ReferencePllAndBootKeys : Prop :=
  (∀ s : State, s.eng.pwr.stretch = false →
     (∀ edges xtal, s.boot.phase = .detect → 1950 ≤ edges → edges ≤ 2050 →
       completes (.refDetect edges xtal) s (fun t =>
         t.rd R.CLK_REF_SRC = 0 ∧ t.pins.refclkOk = true ∧ t.bus.isOpen = true ∧ t.rd R.BOOT_STAGE_STAGE = stKeys ∧
         t.rd R.CLK_PLL_EN_ROOT_EN = 1 ∧ t.boot.phase = .pllWait)) ∧
     (∀ edges, s.boot.phase = .detect → (edges < 1950 ∨ 2050 < edges) →
       completes (.refDetect edges true) s (fun t =>
         t.rd R.CLK_REF_SRC = 1 ∧ t.bus.isOpen = true ∧ t.rd R.CLK_PLL_EN_ROOT_EN = 1 ∧ t.boot.phase = .pllWait) ∧
       completes (.refDetect edges false) s (fun t =>
         t.rd R.BOOT_STAGE_STAGE = stNoref ∧ t.boot.phase = .detect ∧ sameElse s t [R.BOOT_STAGE_STAGE])) ∧
     (s.boot.phase = .pllWait → s.rd R.CLK_PLL_ROOT_LOCK = 0 →
       completes .pllLockTimeout s (fun t =>
         if s.boot.pllTries < 3 then t.boot.pllTries = s.boot.pllTries + 1 ∧ t.boot.phase = .pllWait ∧ sameElse s t []
         else t.rd R.BOOT_STAGE_STAGE = stPllFail ∧ t.boot.phase = .pllFail ∧ sameElse s t [R.BOOT_STAGE_STAGE]))) ∧
  (∀ (edges : Nat) (xtal : Bool) (s : State), s.eng.pwr.stretch = false → s.boot.phase = .detect → 1950 ≤ edges → edges ≤ 2050 →
     completes (.refDetect edges xtal) s (fun t =>
       (∀ k j, k < 3 → j < 12 → t.rd (R.BOOT_KEY_DIGEST (12 * (k + 1) + j)) =
         match s.bootRecord with
         | some p => p.1.digests.getD k 0 / 2 ^ (32 * j) % 4294967296
         | none => 0) ∧
       t.rd R.BOOT_DEBUG_DEBUG_LOCK = (match s.bootRecord with | some p => b2n p.1.debugLock | none => 1) ∧
       (∀ j, j < 48 → t.bus.w1.contains (R.BOOT_KEY_DIGEST j).key = true) ∧
       t.bus.w1.contains R.BOOT_DEBUG_DEBUG_LOCK.key = true))

/-- R104, R105, R439: of two candidates the higher version boots, slot A on equal versions, and after two watchdog resets in a run the
other; with no candidate the device enters RECOVERY; the hand-over waits for the memories to be clear. -/
def Obligations.SlotChoiceAndHandOver : Prop :=
  ∀ (a b : ImageCheck) (s : State), s.boot.phase = .verify → s.boot.chosen = none →
    (s.fwCandidate a = true → s.fwCandidate b = true → s.boot.memClear = true → a.version < 4294967296 → b.version < 4294967296 →
      completes (.slotVerifyDone a b) s (fun t =>
        t.rd R.BOOT_STAGE_STAGE = stRunFw ∧ t.boot.phase = .run ∧ t.wdog.running = true ∧
        (s.rd R.BOOT_RESET_CAUSE_WDOG_RUN < 2 →
          t.rd R.BOOT_STAGE_SLOT = (if a.version < b.version then 1 else 0) ∧ t.rd R.BOOT_FW_VERSION_VERSION = max a.version b.version ∧
          t.rd R.BOOT_STAGE_FALLBACK = 0) ∧
        (2 ≤ s.rd R.BOOT_RESET_CAUSE_WDOG_RUN →
          t.rd R.BOOT_STAGE_SLOT = (if a.version < b.version then 0 else 1) ∧ t.rd R.BOOT_STAGE_FALLBACK = 1))) ∧
    (s.fwCandidate a = false → s.fwCandidate b = false →
      completes (.slotVerifyDone a b) s (fun t =>
        t.rd R.BOOT_STAGE_STAGE = stRecovery ∧ t.boot.phase = .recovery ∧ t.rd R.BOOT_LOAD_STATE_TARGET = 0)) ∧
    ∀ (u : State) (slot ver : Nat) (fb : Bool), slot < 2 → u.boot.phase = .verify → u.boot.chosen = some (slot, ver, fb) →
      completes .memoryClearDone u (fun t =>
        t.rd R.BOOT_STAGE_STAGE = stRunFw ∧ t.rd R.BOOT_STAGE_SLOT = slot ∧ t.boot.phase = .run ∧ t.wdog.running = true ∧
        t.boot.memClear = true)

/-- R110: a dword written to BOOT_LOAD_DATA is stored at the load pointer of the target slot, and only there; the pointer advances, and the
first of a load clears that slot's valid flag; VERIFY runs until it is done, and its result is OK, bad signature or old version, the failures
counted. R106, R109: a key record that may be applied is written to the copy of the boot record that is not in force, one above its sequence
number. One that would open a locked device, that would lower the minimum version of the record in force, or that does not verify on a device
with keys is rejected and counted, as an image that does not verify is. -/
def Obligations.LoadPortAndKeyRecords : Prop :=
  (∀ (path : Path) (v : Word) (s : State),
     (∀ slot a, slot < 2 → s.rd R.BOOT_LOAD_STATE_TARGET = slot → a = slotBase slot + 4 * s.rd R.BOOT_LOAD_PTR_OFFSET →
       s.reaches path R.BOOT_LOAD_DATA_DATA .base → s.rd (R.LOCK 0x8000) = 0 → s.rd R.BOOT_LOAD_CMD_VERIFY = 0 →
       s.rd R.BOOT_LOAD_PTR_OFFSET < slotWords → s.wf = true →
       completes (.loadDataWrite path .base v) s (fun t =>
         t.rd32 .store a = v.toNat ∧ t.rd R.BOOT_LOAD_PTR_OFFSET = s.rd R.BOOT_LOAD_PTR_OFFSET + 1 ∧
         t.rd (slotValidF slot) = (if s.boot.loadFirst then 0 else s.rd (slotValidF slot)) ∧
         t.rd (slotValidF (1 - slot)) = s.rd (slotValidF (1 - slot)) ∧ t.boot.loadFirst = false ∧
         ∀ k, (k < Space.store.key a ∨ Space.store.key a + 4 ≤ k) → memGet t.mem k = memGet s.mem k)) ∧
     (s.reaches path R.BOOT_LOAD_CMD_VERIFY .set → s.rd R.BOOT_LOAD_CMD_VERIFY = 0 →
       completes (.loadVerify path .set) s (fun t =>
         t.rd R.BOOT_LOAD_CMD_VERIFY = 1 ∧ sameElse s t ([R.BOOT_LOAD_CMD_VERIFY] ++ calFlds))) ∧
     ∀ i : ImageCheck, s.rd R.BOOT_LOAD_CMD_VERIFY = 1 →
       completes (.loadVerifyDone i) s (fun t =>
         t.rd R.BOOT_LOAD_CMD_VERIFY = 0 ∧ t.mem = s.mem ∧
         t.rd R.BOOT_LOAD_STATE_RESULT = (if s.fwSigOk i = false then 2 else if i.version < s.rd R.BOOT_MIN_VERSION_VERSION then 3 else 1) ∧
         t.rd R.BOOT_EVT_VERIFY_FAIL =
           (if s.fwCandidate i then s.rd R.BOOT_EVT_VERIFY_FAIL else min (s.rd R.BOOT_EVT_VERIFY_FAIL + 1) 4294967295))) ∧
  (∀ (r : KeyRecord) (i : ImageCheck) (banks : List (Half × Nat)) (s : State), s.boot.phase = .run →
     (s.boot.recA.ok = true → s.boot.recB.ok = true → s.boot.recB.seq ≤ s.boot.recA.seq → s.keyRecordOk r = true →
       completes (.keyRecordApply r) s (fun t =>
         t.boot.recB.seq = (s.boot.recA.seq + 1) % 4294967296 ∧ t.boot.recB.debugLock = r.debugLock ∧ t.boot.recB.ok = true ∧
         t.boot.recA = s.boot.recA ∧ (∀ f, t.rd f = s.rd f) ∧ t.mem = s.mem)) ∧
     (s.boot.recA.ok = true → s.boot.recB.ok = true → s.boot.recA.seq < s.boot.recB.seq → s.keyRecordOk r = true →
       completes (.keyRecordApply r) s (fun t =>
         t.boot.recA.seq = (s.boot.recB.seq + 1) % 4294967296 ∧ t.boot.recA.minVersion = r.minVersion % 4294967296 ∧ t.boot.recA.ok = true ∧
         t.boot.recB = s.boot.recB ∧ (∀ f, t.rd f = s.rd f) ∧ t.mem = s.mem)) ∧
     ((s.recordNow.debugLock = true ∧ r.debugLock = false) ∨ r.minVersion < s.recordNow.minVersion ∨
       (s.recordNow.digests.any (fun d => d ≠ 0) = true ∧ (r.signed = false ∨ s.ryupelOk r.image = false)) →
       completes (.keyRecordApply r) s (fun t =>
         t.boot = s.boot ∧ t.rd R.BOOT_EVT_VERIFY_FAIL = min (s.rd R.BOOT_EVT_VERIFY_FAIL + 1) 4294967295 ∧
         sameElse s t [R.BOOT_EVT_VERIFY_FAIL])) ∧
     completes (.ryupelImageVerify i banks) s (fun t =>
       t.rd R.BOOT_EVT_VERIFY_FAIL =
         (if s.ryupelOk i then s.rd R.BOOT_EVT_VERIFY_FAIL else min (s.rd R.BOOT_EVT_VERIFY_FAIL + 1) 4294967295) ∧
       sameElse s t [R.BOOT_EVT_VERIFY_FAIL]))

/-- R108: while DEBUG_LOCK is 1 the debug port denies everything but reads of the ID registers; while it is 0 it halts and resumes Kryty
and reads DRAM; an access changes nothing else. -/
def Obligations.DebugPortIsLocked : Prop :=
  ∀ (acc : DebugAccess) (s : State), s.bus.isOpen = true →
    (s.rd R.BOOT_DEBUG_DEBUG_LOCK = 1 → (∀ a, acc = .read a → ¬(a < 0x100000 ∧ a % 4096 < 4)) →
      completes (.debugAccess acc) s (fun t => t = s.emit .debugDenied)) ∧
    (s.rd R.BOOT_DEBUG_DEBUG_LOCK = 0 →
      completes (.debugAccess .halt) s (fun t => t.boot.halted = true ∧ t.pathOpen .kryty = false ∧ sameElse s t []) ∧
      completes (.debugAccess .resume) s (fun t => t.boot.halted = false ∧ t.pathOpen .kryty = true ∧ sameElse s t []) ∧
      ∀ a, completes (.debugAccess (.memRead a)) s (fun t =>
        t.out = .debug (BitVec.ofNat 32 (s.rd32 .dram (a / 4 * 4))) :: s.out ∧ sameElse s t []))

/-! ### The epoch timebase (R36 to R47, R440) -/

/-- R36, R45, R440: epoch numbers are compared modulo 2^32; at a boundary of a running timebase the counter advances by 1 and wraps from 0xFFFF_FFFF
to 0, or takes the number that a beacon gave it (R45, R47); a LOCKED or ACQUIRE node that had no beacon counts one more miss in a row; a timebase
that does not run holds everything. -/
def Obligations.EpochBoundaryAdvances : Prop :=
  (∀ a b : Nat, a < 4294967296 → b < 4294967296 →
    (epochLater a b = true ↔ 1 ≤ ((a : Int) - b) % 4294967296 ∧ ((a : Int) - b) % 4294967296 ≤ 2147483647)) ∧
  ∀ s : State,
    (s.epcRuns = true → s.epState = epMaster ∨ s.epc.first = false ∨ s.epc.used = true ∨ s.epc.other = none →
      completes .epochBoundary s (fun t =>
        t.epochNo < 4294967296 ∧
        (s.epc.nextNumber = none →
          t.epochNo = (s.epochNo + 1) % 4294967296 ∧ (s.epochNo < 4294967295 → t.epochNo = s.epochNo + 1) ∧ (s.epochNo = 4294967295 → t.epochNo = 0)) ∧
        (∀ n, s.epc.nextNumber = some n → t.epochNo = n % 4294967296))) ∧
    (s.epcRuns = true → s.eng.pwr.winding = false → (s.epState = epMaster ∨ s.epc.first = false ∨ s.epc.used = true) →
      completes .epochBoundary s (fun t => t.epc.nextNumber = none ∧ t.epc.used = false)) ∧
    (s.epcRuns = true → s.eng.pwr.winding = false → s.epState ≠ epMaster → s.epc.first = true → s.epc.used = false → s.epc.other = none →
      completes .epochBoundary s (fun t => t.epc.misses = s.epc.misses + 1 ∧ t.epc.good = 0)) ∧
    (s.epcRuns = false → completes .epochBoundary s (fun t => t = s))

/-- R45, R47: eight good epochs in a row lock a timebase in ACQUIRE or HOLDOVER; at the latch instant a waiting phase step is made and
counted, and a LOCKED node enters HOLDOVER. R37: a period written on the frame master is announced for the boundary five epochs on, and is
not yet in force; on any other node the write is ignored with reason 0x10. -/
def Obligations.LockPhaseAndPeriod : Prop :=
  (∀ s : State,
     (s.epcRuns = true → 8 ≤ s.epc.good → s.epState = epAcquire ∨ s.epState = epHoldover →
       completes .epcLocked s (fun t => t.epState = epLocked ∧ sameElse s t [R.EPC_STATE_STATE])) ∧
     (s.epc.good < 8 → completes .epcLocked s (fun t => t = s)) ∧
     (s.epcRuns = false → completes .phaseStep s (fun t => t = s)) ∧
     ∀ e : Int, s.epcRuns = true → s.epc.step = some e →
       completes .phaseStep s (fun t =>
         t.rd R.EPC_EVT_PHASE_STEP = min (s.rd R.EPC_EVT_PHASE_STEP + 1) 4294967295 ∧ t.epc.step = none ∧ t.epc.good = 0 ∧
         t.epState = (if s.epState = epLocked then epHoldover else s.epState) ∧ t.epochNo = s.epochNo ∧
         sameElse s t [R.EPC_EVT_PHASE_STEP, R.EPC_STATE_STATE])) ∧
  (∀ (path : Path) (v : Word) (s : State), s.reaches path R.EPC_PERIOD_NS .base →
     (s.epState = epMaster → 1041667 ≤ v.toNat → v.toNat ≤ 41666667 →
       completes (.epcPeriodWrite path .base v) s (fun t =>
         t.rd R.EPC_PERIOD_NEXT_NS = v.toNat ∧ t.rd R.EPC_PERIOD_AT_EPOCH = (s.epochNo + 5) % 4294967296 ∧
         sameElse s t ([R.EPC_PERIOD_NEXT_NS, R.EPC_PERIOD_AT_EPOCH] ++ calFlds))) ∧
     (s.epState ≠ epMaster →
       completes (.epcPeriodWrite path .base v) s (fun t =>
         t.rd (R.IGN_REASON (Blk.EPC.pg 0)) = 16 ∧
         t.rd (R.EVT_CFG_IGN (Blk.EPC.pg 0)) = min (s.rd (R.EVT_CFG_IGN (Blk.EPC.pg 0)) + 1) 4294967295 ∧
         sameElse s t ([R.EVT_CFG_IGN (Blk.EPC.pg 0), R.IGN_OFFSET (Blk.EPC.pg 0), R.IGN_VIEW (Blk.EPC.pg 0), R.IGN_PATH (Blk.EPC.pg 0),
           R.IGN_REASON (Blk.EPC.pg 0)] ++ calFlds))))

/-- R41, R45, R47: the first beacon of the master followed sets the counter, for the coming boundary too where that one is the beacon's own, and only for
the epoch in progress where it comes after it (log entry 30); a PERIOD in it that differs from the one in force is counted, and
in range taken from the next boundary, not at once; a later one in time from the only
direction heard is judged: its error is shown, small errors are counted towards lock, one above 2 us asks for a phase step. R39, R301: the
frame master puts its beacon, once an epoch, onto both ends of each ring it masters: the coming number, the period, the announcement, and
the ring's term; it changes no register. -/
def Obligations.Beacons : Prop :=
  (∀ (port : Nat) (c : Cell) (arrival : Int) (s : State), s.build = .tile → s.epcRuns = true → c.cls = clsBeacon →
     s.receive port c = (true, s) → s.on R.CRN_MASTER_HEAD_VALID = true → s.term 0 = pn c 20 4 →
     s.rd R.CRN_MASTER_HEAD_HEAD = nodeHead c.src →
     (s.epc.first = false →
       completes (.beacon port c arrival) s (fun t =>
         t.epochNo = pn c 0 4 ∧ t.epc.first = true ∧ t.rd R.EPC_STATE_DIR = c.dir % 2 ∧
         t.epc.used = !(s.beaconRec port c arrival).past ∧ t.epc.nextNumber = (if (s.beaconRec port c arrival).past then none else some (pn c 0 4)) ∧
         t.rd R.EPC_PERIOD_NS = s.rd R.EPC_PERIOD_NS ∧
         (pn c 8 4 = 0 → s.rd R.EPC_PERIOD_NEXT_NS = 0 → pn c 4 4 ≠ s.rd R.EPC_PERIOD_NS →
           t.rd R.EPC_EVT_MISMATCH = min (s.rd R.EPC_EVT_MISMATCH + 1) 4294967295 ∧
           t.epc.nextPeriod = (if periodOk (pn c 4 4) then some (pn c 4 4) else s.epc.nextPeriod)))) ∧
     (s.epc.first = true → s.epc.used = false → s.epc.hopsD = none → c.dir = 0 → (s.beaconRec port c arrival).late = false →
       completes (.beacon port c arrival) s (fun t =>
         t.rdI R.EPC_ERR_ERR = satI 32 ((s.beaconRec port c arrival).error / 256) ∧ t.epc.used = true ∧ t.epc.misses = 0 ∧
         t.epochNo = s.epochNo ∧ t.epState = s.epState ∧
         t.epc.good = (if (s.beaconRec port c arrival).error.natAbs ≤ 327680 then min 8 (s.epc.good + 1) else 0) ∧
         t.epc.step = (if 131072000 < (s.beaconRec port c arrival).error.natAbs ∧ s.epState ≠ epAcquire
           then some (s.beaconRec port c arrival).error else s.epc.step)))) ∧
  (∀ (s : State) (n : Nat), s.build = .head → s.epcRuns = true → s.epState = epMaster → s.rd R.CRN_HEAD_ROLE ≠ roleResigned →
     n = s.epc.nextNumber.getD (epochNext s.epochNo) → s.epc.relayed ≠ some n →
     completes .beaconSend s (fun t =>
       t.epc.relayed = some n ∧ (∀ f, t.rd f = s.rd f) ∧ t.mem = s.mem ∧ t.cairn = s.cairn ∧
       ∀ r e, r < 12 → e < 2 → s.masters r = true → s.portOn (2 * r) = true → s.portState (2 * r + e) = 2 →
         ∃ c : Cell, (t.port (2 * r + e)).q0 = (s.port (2 * r + e)).q0 ++ [{ cell := c, stomp := false }] ∧ c.cls = clsBeacon ∧
           c.bcast = true ∧ c.payload.take 24 = s.ownBeacon false ++ natLE (s.term r) 4))

/-! ### Ingest and sources (R114 to R132, R336, R358) -/

/-- The fields in which the turns of the ingest channels show that the next descriptor of a frame has been taken (R116). -/
def sofFlds : List Fld := (List.range 16).flatMap (fun n => [R.DMA_CH_STATE_FRAME_OPEN n, R.SRC_EVT_BADFRAME n])

/-- R114, R115, R334, R336: a producer doorbell posts its index; on the lead head a channel with nothing in progress then asks for its next
descriptor. A descriptor without an error moves its bytes to head memory when they have come, is written back with status done, and the
consumer index advances: a RAW one to its own address; R116, R119: a layer frame of one descriptor (SOF and EOF) into the fill buffer of the
channel's source, which is then READY, and another buffer is filled next; a frame that was READY and not shown is dropped and counted. That the descriptor is
taken whatever INPUT and the source's condition hold is the model's choice (log entry 145), and so is that a source whose clock stands takes no part
(SRC as a block clocked by CORE: log entry 20). While a channel
drains it takes no further descriptor. A read
that times out is counted and written back with error 1; one of a descriptor that a channel which drains has not taken is counted, and the descriptor is left
to be read anew (DEDUCED, log entry 199). -/
def Obligations.DmaDescriptor : Prop :=
  ∀ (ch : Nat) (s : State), ch < 16 → s.build = .head → s.isLead = true →
    (∀ idx l, s.pins.perstLow = false → s.host.d3.contains 1 = false → s.dmaOn ch = true →
      completes (.dmaDoorbell none ch (.bell idx 15) l) s (fun t =>
        t.rd (R.DMA_CH_IDX_PROD ch) = idx % 65536 ∧ t.bellAt 1 (0x1000 + 8 * ch) = idx % 65536 ∧
        (s.parked 2 = false → s.host.reads = [] → (∀ n, n < 16 → s.jobsOf n = []) → (∀ n, n < 16 → n ≠ ch → s.dmaOn n = false) →
          idx % s.dmaSize ch ≠ s.rd (R.DMA_CH_IDX_CONS ch) % s.dmaSize ch →
          .hostRead 1 (s.host.nextRead % s.readLimit) (s.descAddr ch (s.rd (R.DMA_CH_IDX_CONS ch) % s.dmaSize ch)) 32 false ∈ t.out) ∧
        sameElse s t [R.DMA_CH_IDX_PROD ch, R.DMA_CH_STATE_RUN ch])) ∧
    (∀ data err, s.dmaLeft ch = true → s.eng.pwr.winding = false → s.dramQuiet →
      completes (.dmaDescriptorDone ch data err) s (fun t => t.host = s.host ∧ t.ingest = s.ingest ∧ sameElse s t [])) ∧
    (∀ j l, s.dmaLeft ch = true → s.eng.pwr.winding = false → s.descDue ch = true → s.jobsOf ch = j :: l → s.cfgVal 1 .ctoOff ≠ 1 →
      s.host.reads.any (fun r => r.ch = ch && r.idx = j.idx) = true →
      completes (.dmaReadTimeout ch) s (fun t =>
        t.rd R.HST_EVT_DMA_CTO = min (s.rd R.HST_EVT_DMA_CTO + 1) 4294967295 ∧ t.out = s.out ∧
        t.host.reads.any (fun r => r.ch = ch && r.idx = j.idx) = false ∧
        sameElse s t [R.HST_EVT_DMA_CTO])) ∧
    (∀ j l d data a, s.descDue ch = true → s.dmaLeft ch = false → s.eng.pwr.winding = false → s.jobsOf ch = j :: l → j.desc = some d → d.flags = 3 →
      s.descErr ch d false = 0 → s.wf = true → s.dramQuiet → j.asked = d.length → j.got = [] → (s.src ch).fill < 3 →
      (j.opened = true → s.rd (R.DMA_CH_STATE_FRAME_OPEN ch) = 1 ∧ (s.src ch).bad = false) →
      (j.opened = false → s.rd (R.DMA_CH_STATE_FRAME_OPEN ch) = 0) →
      a = s.bufBase ch (s.src ch).fill + d.dstLo → s.dramServes a d.length = true →
      completes (.dmaDescriptorDone ch data false) s (fun t =>
        t.rd (R.DMA_CH_IDX_CONS ch) = (s.rd (R.DMA_CH_IDX_CONS ch) + 1) % 65536 ∧ t.rdBytes .dram a d.length = takePad data d.length ∧
        .hostWrite (s.descAddr ch (s.rd (R.DMA_CH_IDX_CONS ch) % s.dmaSize ch) + 24) (natLE 1 4) ∈ t.out ∧
        t.rd (R.DMA_CH_EVT_FRAMES ch) = min (s.rd (R.DMA_CH_EVT_FRAMES ch) + 1) 4294967295 ∧
        (s.coreGated = true → (t.src ch).fill = (s.src ch).fill ∧ t.rd (R.SRC_STATE_READY ch) = s.rd (R.SRC_STATE_READY ch)) ∧
        (s.coreGated = false →
          t.rd (R.SRC_STATE_READY ch) = (s.src ch).fill ∧ (t.src ch).fill ≠ (s.src ch).fill ∧
          (s.rd (R.SRC_STATE_READY ch) = 3 → (t.src ch).fill ≠ s.rd (R.SRC_STATE_SEND ch) ∧
            t.rd (R.SRC_EVT_DROP ch) = s.rd (R.SRC_EVT_DROP ch)) ∧
          (s.rd (R.SRC_STATE_READY ch) < 3 → s.rd (R.SRC_STATE_READY ch) ≠ (s.src ch).fill → (t.src ch).fill = s.rd (R.SRC_STATE_READY ch) ∧
            t.rd (R.SRC_EVT_DROP ch) = min (s.rd (R.SRC_EVT_DROP ch) + 1) 4294967295)) ∧
        t.rd (R.DMA_CH_EVT_ERR ch) = s.rd (R.DMA_CH_EVT_ERR ch) ∧
        ∀ f, (∀ g ∈ [R.DMA_CH_IDX_CONS ch, R.DMA_CH_STATE_RUN ch, R.DMA_CH_EVT_FRAMES ch, R.SRC_STATE_READY ch, R.SRC_EVT_DROP ch] ++
          sofFlds ++ drcFlds, f.key ≠ g.key) → t.rd f = s.rd f)) ∧
    (∀ j l d data, s.descDue ch = true → s.dmaLeft ch = false → s.eng.pwr.winding = false → s.jobsOf ch = j :: l → j.desc = some d → d.flags = 4 → s.descErr ch d false = 0 →
      (s.wf = true → s.dramQuiet → j.asked = d.length → j.got = [] →
        s.dramServes ((d.dstLo + 4294967296 * d.dstHi) % 17179869184) d.length = true →
        completes (.dmaDescriptorDone ch data false) s (fun t =>
          t.rd (R.DMA_CH_IDX_CONS ch) = (s.rd (R.DMA_CH_IDX_CONS ch) + 1) % 65536 ∧
          t.rdBytes .dram ((d.dstLo + 4294967296 * d.dstHi) % 17179869184) d.length = takePad data d.length ∧
          .hostWrite (s.descAddr ch (s.rd (R.DMA_CH_IDX_CONS ch) % s.dmaSize ch) + 24) (natLE 1 4) ∈ t.out ∧
          t.rd (R.DMA_CH_EVT_ERR ch) = s.rd (R.DMA_CH_EVT_ERR ch) ∧
          ∀ f, (∀ g ∈ [R.DMA_CH_IDX_CONS ch, R.DMA_CH_STATE_RUN ch] ++ sofFlds ++ drcFlds, f.key ≠ g.key) → t.rd f = s.rd f)) ∧
      (s.cfgVal 1 .ctoOff ≠ 1 → s.host.reads.any (fun r => r.ch = ch && r.idx = j.idx) = true →
        completes (.dmaReadTimeout ch) s (fun t =>
          t.rd R.HST_EVT_DMA_CTO = min (s.rd R.HST_EVT_DMA_CTO + 1) 4294967295 ∧
          t.rd (R.DMA_CH_EVT_ERR ch) = min (s.rd (R.DMA_CH_EVT_ERR ch) + 1) 4294967295 ∧
          t.rd (R.DMA_CH_IDX_CONS ch) = (s.rd (R.DMA_CH_IDX_CONS ch) + 1) % 65536 ∧
          .hostWrite (s.descAddr ch (s.rd (R.DMA_CH_IDX_CONS ch) % s.dmaSize ch) + 24) (natLE 3 4) ∈ t.out ∧
          sameElse s t ([R.HST_EVT_DMA_CTO, R.DMA_CH_EVT_ERR ch, R.DMA_CH_IDX_CONS ch, R.DMA_CH_STATE_RUN ch] ++ sofFlds))))

/-- The sequence gap of a packet of stream `k` that is not late (R358): the packets that are lost before it. -/
def stGap (s : State) (k : Nat) (p : St2110Packet) : Nat :=
  match (s.st k).expect with
  | none => 0
  | some e => (p.extSeq + 4294967296 - e) % 4294967296

/-- R117, R118, R124, R132, R357, R358: every packet of a stream is counted and moves the expected sequence number on, its gap counted as lost. An
interlaced packet is counted as such and its rows are not taken. A taken packet's unit is kept in the line buffer, and the unit with which the line is
whole writes the line at its place in the fill buffer of the source, and only there; for a ninth line what has come of the topmost is written (R122;
log entry 165). The marker ends the frame: measured, then discarded and counted if a packet is missing, else READY. The custom kernel is taken from
memory and the source waits for a frame; a frame not out by its deadline stops there, and its cells that wait go with it; neither happens while the clock
of SRC stands (SRC as a block clocked by CORE is DEDUCED, log entry 20). -/
def Obligations.SourcesAndStreams : Prop :=
  ∀ (n k ring : Nat) (s : State), s.build = .head → n < 16 → k < 2 → ring < 12 →
    (∀ (port : Nat) (p : St2110Packet), s.ethOn port = true → s.stFind port p = some k → stGap s k p < 2147483648 →
      (p.fieldBit = true → s.dramQuiet →
        completes (.st2110Packet port p) s (fun t =>
          t.rd (R.ETH_ST_PKTS k) = min (s.rd (R.ETH_ST_PKTS k) + 1) 4294967295 ∧
          t.rd (R.ETH_ST_EVT_FORMAT k) = min (s.rd (R.ETH_ST_EVT_FORMAT k) + 1) 4294967295 ∧
          t.rd (R.ETH_ST_EVT_LOST k) = min (s.rd (R.ETH_ST_EVT_LOST k) + stGap s k p) 4294967295 ∧
          (t.st k).expect = some ((p.extSeq + 1) % 4294967296) ∧ (t.st k).rows = (s.st k).rows ∧
          sameElse s t [R.ETH_ST_PKTS k, R.ETH_ST_EVT_FORMAT k, R.ETH_ST_EVT_LOST k])) ∧
      (p.fieldBit = false → s.stSource k = none → s.dramQuiet →
        completes (.st2110Packet port p) s (fun t =>
          t.rd (R.ETH_ST_PKTS k) = min (s.rd (R.ETH_ST_PKTS k) + 1) 4294967295 ∧
          t.rd (R.ETH_ST_EVT_LOST k) = min (s.rd (R.ETH_ST_EVT_LOST k) + stGap s k p) 4294967295 ∧
          (t.st k).expect = some ((p.extSeq + 1) % 4294967296) ∧ sameElse s t [R.ETH_ST_PKTS k, R.ETH_ST_EVT_LOST k])) ∧
      (∀ (r : StRow) (v a b at_ line : Nat), p.fieldBit = false → p.marker = false → p.rows = [r] → r.units = [v] → s.stSource k = some n →
        (s.st k).rows ≠ [] → s.wf = true → s.dramQuiet → (s.srcCfg n).fmt < 4 → r.row < (s.srcCfg n).inH → r.offset < (s.srcCfg n).inW →
        b = memBits (s.srcCfg n).fmt / 8 → at_ = r.offset / unitPix (s.srcCfg n).fmt → line = (s.srcCfg n).lineUnits →
        a = s.bufBase n (s.src n).fill + r.row * (s.srcCfg n).stride → a + line * b ≤ dramSize s.build → s.dramServes a (line * b) = true →
        (s.srcCfg n).inW ≤ lineLimit (s.srcCfg n).fmt → Sparse.look (s.st k).rows r.row 0 % 2 ^ line ≠ 2 ^ line - 1 →
        completes (.st2110Packet port p) s (fun t =>
          t.rd (R.ETH_ST_PKTS k) = min (s.rd (R.ETH_ST_PKTS k) + 1) 4294967295 ∧
          t.rd (R.ETH_ST_EVT_LOST k) = min (s.rd (R.ETH_ST_EVT_LOST k) + stGap s k p) 4294967295 ∧
          (t.st k).expect = some ((p.extSeq + 1) % 4294967296) ∧ (t.st k).missing = (s.st k).missing + stGap s k p ∧
          Sparse.look (t.st k).rows r.row 0 = setBits (Sparse.look (s.st k).rows r.row 0) at_ 1 ∧
          (setBits (Sparse.look (s.st k).rows r.row 0) at_ 1 % 2 ^ line ≠ 2 ^ line - 1 →
            ({ s.st k with held := Sparse.put (s.st k).held (65536 * r.row + at_) v }.lines.length ≤ 8 →
              Sparse.look (t.st k).held (65536 * r.row + at_) 0 = v ∧ ∀ x, memGet t.mem x = memGet s.mem x) ∧
            (∀ top l, { s.st k with held := Sparse.put (s.st k).held (65536 * r.row + at_) v }.lines = top :: l → 8 ≤ l.length →
              s.bufBase n (s.src n).fill + top * (s.srcCfg n).stride + line * b ≤ dramSize s.build →
              s.dramServes (s.bufBase n (s.src n).fill + top * (s.srcCfg n).stride) (line * b) = true →
              (∀ u y, u < line → Sparse.get (Sparse.put (s.st k).held (65536 * r.row + at_) v) (65536 * top + u) = some y →
                t.rdLE .dram (s.bufBase n (s.src n).fill + top * (s.srcCfg n).stride + u * b) b = y % 256 ^ b) ∧
              (∀ u, u < 65536 → Sparse.get (t.st k).held (65536 * top + u) = none) ∧
              ∀ x, (x < Space.dram.key (s.bufBase n (s.src n).fill + top * (s.srcCfg n).stride) ∨
                  Space.dram.key (s.bufBase n (s.src n).fill + top * (s.srcCfg n).stride) + line * b ≤ x) → memGet t.mem x = memGet s.mem x)) ∧
          (setBits (Sparse.look (s.st k).rows r.row 0) at_ 1 % 2 ^ line = 2 ^ line - 1 →
            (∀ u, u < line → t.rdLE .dram (a + u * b) b =
              match Sparse.get (Sparse.put (s.st k).held (65536 * r.row + at_) v) (65536 * r.row + u) with
              | some y => y % 256 ^ b
              | none => s.rdLE .dram (a + u * b) b) ∧
            ∀ x, (x < Space.dram.key a ∨ Space.dram.key a + line * b ≤ x) → memGet t.mem x = memGet s.mem x) ∧
          ∀ f, (∀ g ∈ [R.ETH_ST_PKTS k, R.ETH_ST_EVT_LOST k] ++ drcFlds, f.key ≠ g.key) → t.rd f = s.rd f)) ∧
      (p.fieldBit = false → p.marker = true → p.rows = [] → s.stSource k = some n → (s.st k).rows ≠ [] → s.dramQuiet →
        s.rd (R.SRC_STATE_COND n) ≠ condOver → (s.st k).width ≤ lineLimit (s.srcCfg n).fmt →
        (0 < (s.st k).missing + stGap s k p →
          completes (.st2110Packet port p) s (fun t =>
            t.rd (R.SRC_MEAS_SIZE_W n) = min (s.st k).width 65535 ∧ t.rd (R.SRC_MEAS_SIZE_H n) = min (s.st k).height 65535 ∧
            t.rd (R.SRC_EVT_BADFRAME n) = min (s.rd (R.SRC_EVT_BADFRAME n) + 1) 4294967295 ∧ (t.st k).rows = [] ∧ (t.st k).missing = 0 ∧
            sameElse s t [R.ETH_ST_PKTS k, R.ETH_ST_EVT_LOST k, R.SRC_MEAS_SIZE_W n, R.SRC_MEAS_SIZE_H n, R.SRC_EVT_BADFRAME n])) ∧
        ((s.st k).missing + stGap s k p = 0 → (s.st k).width = (s.srcCfg n).inW → (s.st k).height = (s.srcCfg n).inH →
          (∀ r, r < (s.srcCfg n).inH → Sparse.look (s.st k).rows r 0 = 2 ^ ((s.st k).width / unitPix (s.srcCfg n).fmt) - 1) →
          s.rd (R.SRC_STATE_READY n) = 3 → (s.src n).fill < 3 →
          completes (.st2110Packet port p) s (fun t =>
            t.rd (R.SRC_STATE_READY n) = (s.src n).fill ∧ (t.src n).fill ≠ (s.src n).fill ∧ (t.src n).fill ≠ s.rd (R.SRC_STATE_SEND n) ∧
            (t.st k).rows = [] ∧
            sameElse s t [R.ETH_ST_PKTS k, R.ETH_ST_EVT_LOST k, R.SRC_MEAS_SIZE_W n, R.SRC_MEAS_SIZE_H n, R.SRC_STATE_READY n])))) ∧
    ((s.src n).loading = true → s.coreGated = true → s.dramQuiet →
      completes (.kernelLoadDone n) s (fun t => t.src n = s.src n ∧ sameElse s t [])) ∧
    ((s.src n).loading = true → s.coreGated = false → s.rd (R.SRC_STATE_COND n) = condLoading → s.dramQuiet →
      s.dramServes (s.rd (R.SRC_COEF_BASE_BASE n) * 4096) 2048 = true →
      completes (.kernelLoadDone n) s (fun t =>
        (t.src n).kernel = s.rdBytes .dram (s.rd (R.SRC_COEF_BASE_BASE n) * 4096) 2048 ∧ (t.src n).loading = false ∧
        t.rd (R.SRC_STATE_COND n) = condWait ∧ sameElse s t ([R.SRC_STATE_COND n] ++ drcFlds))) ∧
    (s.coreGated = true → completes (.sendDeadline n ring) s (fun t => t = s)) ∧
    (s.coreGated = false → (s.sendOf n ring).active = true → (s.sendOf n ring).repeatOnly = false →
      completes (.sendDeadline n ring) s (fun t =>
        (t.sendOf n ring).active = false ∧ (t.sendOf n ring).next = (s.sendOf n ring).next ∧
        (∀ e, e < 2 → (t.port (2 * ring + e)).q2 = (s.port (2 * ring + e)).q2.filter (fun (q : QCell) => q.cell.stream ≠ s.streamOf n)) ∧
        t.rd (R.SRC_EVT_LATE n) = min (s.rd (R.SRC_EVT_LATE n) + 1) 4294967295 ∧ sameElse s t [R.SRC_EVT_LATE n]))

/-! ### Ridge ports (R277 to R305) -/

/-- R277, R279, R284 to R289: an uncorrectable codeword is counted, up to 15 corrected symbols are counted at their lane and more are
uncorrectable; IDLE does nothing; a control cell that is not for this tile goes on to its other port with one more hop, stomped where its trailer
fails, which is counted, as it is of a cell that a port in the TURN loopback (R304) sends back to the lanes it came by. -/
def Obligations.CodewordsAndForwarding : Prop :=
  ∀ (port : Nat) (c : Cell) (s : State), s.build = .tile → portExists .tile port = true → s.asleep port = false → s.portState port = 2 →
    (∀ l, completes (.codeword port l true) s (fun t =>
      t.rd (R.RING_EVT_UNCORR (portRing port)) = min (s.rd (R.RING_EVT_UNCORR (portRing port)) + 1) 4294967295 ∧
      sameElse s t [R.RING_EVT_UNCORR (portRing port)])) ∧
    (∀ k n, s.portLanes port = [k] → 15 < n →
      completes (.codeword port [n] false) s (fun t =>
        t.rd (R.RING_EVT_UNCORR (portRing port)) = min (s.rd (R.RING_EVT_UNCORR (portRing port)) + 1) 4294967295 ∧
        sameElse s t [R.RING_EVT_UNCORR (portRing port)])) ∧
    (∀ k n, s.portLanes port = [k] → n ≤ 15 →
      completes (.codeword port [n] false) s (fun t =>
        t.rd (R.LNE_CORR k) = min (s.rd (R.LNE_CORR k) + n) 18446744073709551615 ∧ sameElse s t [R.LNE_CORR k])) ∧
    completes (.idle port) s (fun t => t = s) ∧
    (hcrcOk c = true → typeOk c = true → c.cls = clsControl → linkLocal c = false → c.hops < 65 → s.loopOf port = 0 →
      s.loopOf (otherPort .tile port) = 0 → c.bcast = true ∨ s.destHere port c = false → s.portState (otherPort .tile port) = 2 →
      completes (.cellForward port c) s (fun t =>
        (t.port (otherPort .tile port)).q1 =
          (s.port (otherPort .tile port)).q1 ++ [{ cell := { c with hops := c.hops + 1 }, stomp := !trailerOk c }] ∧
        t.rd (R.RING_RX_CELLS (portRing port)) = min (s.rd (R.RING_RX_CELLS (portRing port)) + 1) 18446744073709551615 ∧
        t.rd (R.RING_EVT_CRC (portRing port)) =
          (if trailerOk c ∨ isStomped c then s.rd (R.RING_EVT_CRC (portRing port))
           else min (s.rd (R.RING_EVT_CRC (portRing port)) + 1) 4294967295) ∧
        sameElse s t [R.RING_RX_CELLS (portRing port), R.RING_EVT_CRC (portRing port), R.RING_EVT_STOMP (portRing port)])) ∧
    (∀ u : State, u.build = .tile → u.asleep port = false → u.portState port = 3 → u.loopOf port = 2 → u.allAt port 11 = true → hcrcOk c = true → typeOk c = true →
      completes (.cellForward port c) u (fun t =>
        t.rd (R.RING_EVT_CRC (portRing port)) =
          (if trailerOk c ∨ isStomped c then u.rd (R.RING_EVT_CRC (portRing port))
           else min (u.rd (R.RING_EVT_CRC (portRing port)) + 1) 4294967295) ∧
        t.rd (R.RING_EVT_STOMP (portRing port)) =
          (if trailerOk c = false ∧ isStomped c = true then min (u.rd (R.RING_EVT_STOMP (portRing port)) + 1) 4294967295
           else u.rd (R.RING_EVT_STOMP (portRing port))) ∧
        sameElse u t [R.RING_RX_CELLS (portRing port), R.RING_EVT_CRC (portRing port), R.RING_EVT_STOMP (portRing port)])) ∧
    (hcrcOk c = false →
      completes (.cellForward port c) s (fun t =>
        t.rd (R.RING_EVT_HCRC (portRing port)) = min (s.rd (R.RING_EVT_HCRC (portRing port)) + 1) 4294967295 ∧ t.ports = s.ports ∧
        sameElse s t [R.RING_EVT_HCRC (portRing port)]))

/-- The best-effort cells that a port's output still owes to its window of 64 cell times, at the share in force (R291): the share's part of 64
rounded up, or what the last window's beacons moved here if that is more, less what this window's beacons moved on and what has been sent. -/
def beOwed (p : Port) (share : Nat) : Nat := max ((64 * share + 999) / 1000) p.carryIn - p.carryOut - p.beSent

/-- R277, R291, R305: at a cell boundary the oldest beacon leaves first; else a best-effort cell, if the cell times left in the window are no
more than those owed to it; else control, pixel, best-effort; sealed, and counted; a beacon that takes an owed cell time moves it into the next
window, which begins with the 64th cell time's end. That the share in force is the one at the window's start, and what a window owes where beacons have taken
owed cell times, are the model's reading (DEDUCED, log entry 76). With nothing to send IDLE leaves; behind a cell leave the codewords that its bits fill. A checker's
first TEST cell sets its sequence; a later one has its wrong bits counted. -/
def Obligations.CellBoundaryAndTest : Prop :=
  ∀ (port : Nat) (s : State), s.build = .tile → s.mayBoundary port = true → s.loopOf port = 0 → s.ship ≠ shShipping →
    bitOf (s.rd (R.RING_CTRL_GEN (portRing port / 4))) (portRing port % 4) = false → (∀ e ∈ s.eth.ingress, e.2.1 ≠ port) → s.dramQuiet →
    (∀ q l, (s.port port).q0 = q :: l →
      completes (.cellBoundary port) s (fun t =>
        (t.port port).q0 = l ∧ (t.port port).q1 = (s.port port).q1 ∧ (t.port port).q2 = (s.port port).q2 ∧
        (t.port port).q3 = (s.port port).q3 ∧ onWire s t port (.cell port (sealCell q.cell q.stomp) q.stomp) ∧
        t.rd (R.RING_TX_CELLS (portRing port)) = min (s.rd (R.RING_TX_CELLS (portRing port)) + 1) 18446744073709551615 ∧
        sameElse s t [R.RING_TX_CELLS (portRing port)])) ∧
    (∀ share, share = (if (s.port port).win = 0 then s.rd (R.RING_SHARE_PERMILLE (portRing port)) else (s.port port).share) → (s.port port).win < 64 →
      ((s.port port).q0 ≠ [] → (s.port port).q3 ≠ [] →
        completes (.cellBoundary port) s (fun t =>
          (t.port port).win = ((s.port port).win + 1) % 64 ∧ (t.port port).beSent = (if (s.port port).win = 63 then 0 else (s.port port).beSent) ∧
          (if (s.port port).win = 63 then (t.port port).carryIn else (t.port port).carryOut) = (s.port port).carryOut +
            (if 64 - (s.port port).win ≤ beOwed (s.port port) share ∧ 0 < beOwed (s.port port) share then 1 else 0) ∧
          ((s.port port).win = 63 → (t.port port).carryOut = 0))) ∧
      ((s.port port).q0 = [] →
        (∀ q l, (s.port port).q3 = q :: l →
          (64 - (s.port port).win ≤ beOwed (s.port port) share ∨ (s.port port).q1 = [] ∧ (s.port port).q2 = []) →
          completes (.cellBoundary port) s (fun t =>
            (t.port port).q3 = l ∧ (t.port port).beSent = (if (s.port port).win = 63 then 0 else (s.port port).beSent + 1) ∧ onWire s t port (.cell port (sealCell q.cell q.stomp) q.stomp) ∧
            ((s.port port).q2 = [] ∨ (s.port port).sharing = true → (t.port port).q1 = (s.port port).q1 ∧ (t.port port).q2 = (s.port port).q2) ∧
            sameElse s t [R.RING_TX_CELLS (portRing port)])) ∧
        ((s.port port).q3 = [] ∨ beOwed (s.port port) share < 64 - (s.port port).win →
          (∀ q l, (s.port port).q1 = q :: l →
            completes (.cellBoundary port) s (fun t =>
              (t.port port).q1 = l ∧ (t.port port).q2 = (s.port port).q2 ∧ (t.port port).q3 = (s.port port).q3 ∧
              onWire s t port (.cell port (sealCell q.cell q.stomp) q.stomp) ∧ sameElse s t [R.RING_TX_CELLS (portRing port)])) ∧
          (∀ q l, (s.port port).q1 = [] → (s.port port).q2 = q :: l → s.pacedEnd port = false →
            completes (.cellBoundary port) s (fun t =>
              (t.port port).q1 = [] ∧ (t.port port).q2 = l ∧ (t.port port).q3 = (s.port port).q3 ∧
              onWire s t port (.cell port (sealCell q.cell q.stomp) q.stomp) ∧ sameElse s t [R.RING_TX_CELLS (portRing port)]))))) ∧
    (s.outEmpty port = true →
      completes (.cellBoundary port) s (fun t => onWire s t port (.idle port) ∧ t.outEmpty port = true ∧ sameElse s t [])) ∧
    ∀ c : Cell, c.cls = clsBest → c.typ = 1 → s.receive port c = (true, s) →
      bitOf (s.rd (R.RING_CTRL_CHK (portRing port / 4))) (portRing port % 4) = true →
      ((s.port port).prbsOn = false →
        completes (.test port c) s (fun t =>
          (t.port port).prbsOn = true ∧ (t.port port).prbsRx = prbsFrom (takePad c.payload 256) ∧
          t.rd (R.RING_TEST_CELLS (portRing port)) = min (s.rd (R.RING_TEST_CELLS (portRing port)) + 1) 18446744073709551615 ∧
          sameElse s t [R.RING_TEST_CELLS (portRing port)])) ∧
      ((s.port port).prbsOn = true →
        completes (.test port c) s (fun t =>
          t.rd (R.RING_TEST_ERR (portRing port)) = min (s.rd (R.RING_TEST_ERR (portRing port)) +
            bitErrors (takePad c.payload 256) (prbsBytes (s.port port).prbsRx 256).1) 4294967295 ∧
          sameElse s t [R.RING_TEST_CELLS (portRing port), R.RING_TEST_ERR (portRing port)]))

/-- R295, R375: of a control cell's sequence number that the window of its originator has seen, the copy is dropped and counted at the port it came
by; nothing else changes. One ahead of the window is new: it moves the window's head. R140 to R143: a REPEAT locator gives each layer that
captures its stream the result "again"; a pixel cell that a waiting capture needs is marked as come where memory takes its bytes, and no register
but those of the DRAM channels' command slots changes, and each whole unit of the capture rectangle in it is stored at its place in the fill buffer;
a FRAME locator starts a capture of the source rectangle's part in the half window, widened to whole memory units, refused and counted where the
format differs or it does not fit, and none where it is for another surface; a locator of an epoch whose latch instant has passed is late: counted in LYR_EVT_LATE (R143), once in each
half (the model's choice, log entry 106). -/
def Obligations.DuplicatesAndCapture : Prop :=
  (∀ (port : Nat) (c : Cell) (e : KeyEnt) (s : State), s.build = .tile → portExists .tile port = true → s.asleep port = false →
     s.portState port = 2 → s.loopOf port = 0 → hcrcOk c = true → typeOk c = true → trailerOk c = true → c.cls = clsControl →
     c.typ = tEvent → c.hops < 65 → c.bcast = true → keyFind s.seqs.keys clsControl c.src = some e →
     (c.seq % 65536 = e.h →
       completes (.event port c) s (fun t =>
         t.rd (R.RING_EVT_DUP (portRing port)) = min (s.rd (R.RING_EVT_DUP (portRing port)) + 1) 4294967295 ∧
         (keyFind t.seqs.keys clsControl c.src).map KeyEnt.h = some e.h ∧ sameElse s t [R.RING_EVT_DUP (portRing port)])) ∧
     (e.h < c.seq % 65536 → c.seq % 65536 < e.h + 32768 → c.sync = false →
       completes (.event port c) s (fun t =>
         (keyFind t.seqs.keys clsControl c.src).map KeyEnt.h = some (c.seq % 65536) ∧ sameElse s t []))) ∧
  (∀ (port : Nat) (c : Cell) (s u : State), s.build = .tile → c.cls = clsPixel → s.receive port c = (true, u) →
     (c.loc = true → pn c 0 4 = 2 → u.latchPassed (pn c 4 4) = false →
       completes (.locator port c) s (fun t =>
         (∀ h k, h < 2 → k < 16 → (h, k) ∈ u.captors c.stream →
           (t.layer h k).cap = some (capEmpty .again (pn c 4 4) u.latchNo c.stream (pn c 8 4))) ∧ sameElse u t [])) ∧
     (c.loc = true → u.latchPassed (pn c 4 4) = true →
       completes (.locator port c) s (fun t =>
         (∀ h, h < 2 → t.rd (R.LYR_EVT_LATE h) =
           if (u.captors c.stream).any (fun e => e.1 = h) then min (u.rd (R.LYR_EVT_LATE h) + 1) 4294967295 else u.rd (R.LYR_EVT_LATE h)) ∧
         t.eng = u.eng ∧ sameElse u t [R.LYR_EVT_LATE 0, R.LYR_EVT_LATE 1])) ∧
     (∀ (h k f al ix0 ix1 iy0 iy1 x0 x1 : Nat), h < 2 → k < 16 → c.loc = true → pn c 0 4 = 0 → u.latchPassed (pn c 4 4) = false →
       u.captors c.stream = [(h, k)] → f = u.rd (R.LYR_CFG_FMT h k) → al = (if f = 4 then 4 else if f = 2 ∨ f = 5 then 2 else 1) →
       ix0 = max (pn c 24 2) (u.rd (R.PRS_WIN_XY_X h)) → ix1 = min (pn c 24 2 + pn c 28 2) (u.rd (R.PRS_WIN_XY_X h) + u.rd (R.PRS_WIN_SIZE_W h)) →
       iy0 = max (pn c 26 2) (u.rd (R.PRS_WIN_XY_Y h)) → iy1 = min (pn c 26 2 + pn c 30 2) (u.rd (R.PRS_WIN_XY_Y h) + u.rd (R.PRS_WIN_SIZE_H h)) →
       x0 = (ix0 - pn c 24 2) / al * al → x1 = min (pn c 28 2) ((ix1 - pn c 24 2 + al - 1) / al * al) →
       (pb c 0x20 % 16 ≠ u.rd (R.PRS_CFG_SURFACE h) →
         completes (.locator port c) s (fun t => (t.layer h k).cap = none ∧ sameElse u t [])) ∧
       (pb c 0x20 % 16 = u.rd (R.PRS_CFG_SURFACE h) →
         (pb c 0x21 ≠ f →
           completes (.locator port c) s (fun t =>
             (t.layer h k).cap.map (fun x : Capture => x.kind) = some .reject ∧
             t.rd (R.LYR_EVT_REJECT h k) = min (u.rd (R.LYR_EVT_REJECT h k) + 1) 4294967295 ∧ sameElse u t [R.LYR_EVT_REJECT h k])) ∧
         (pb c 0x21 = f → ix1 ≤ ix0 ∨ iy1 ≤ iy0 →
           completes (.locator port c) s (fun t =>
             ∃ x : Capture, (t.layer h k).cap = some x ∧ x.kind = .frame ∧ x.epoch = pn c 4 4 ∧ x.frame = pn c 8 4 ∧ x.w = 0 ∧ x.h = 0 ∧ x.need = 0 ∧
               sameElse u t [])) ∧
         (pb c 0x21 = f → ix0 < ix1 → iy0 < iy1 →
           (u.rd (R.LYR_STRIDE_BYTES h k) < (((x1 + unitPix f - 1) / unitPix f - x0 / unitPix f) * memBits f + 7) / 8 ∨
               u.rd (R.LYR_BUFSIZE_SIZE h k) * 4096 < (iy1 - iy0) * u.rd (R.LYR_STRIDE_BYTES h k) →
             completes (.locator port c) s (fun t =>
               (t.layer h k).cap.map (fun x : Capture => x.kind) = some .reject ∧
               t.rd (R.LYR_EVT_REJECT h k) = min (u.rd (R.LYR_EVT_REJECT h k) + 1) 4294967295 ∧ sameElse u t [R.LYR_EVT_REJECT h k])) ∧
           ((((x1 + unitPix f - 1) / unitPix f - x0 / unitPix f) * memBits f + 7) / 8 ≤ u.rd (R.LYR_STRIDE_BYTES h k) →
               (iy1 - iy0) * u.rd (R.LYR_STRIDE_BYTES h k) ≤ u.rd (R.LYR_BUFSIZE_SIZE h k) * 4096 →
             completes (.locator port c) s (fun t =>
               ∃ x : Capture, (t.layer h k).cap = some x ∧ x.kind = .frame ∧ x.stream = c.stream ∧ x.epoch = pn c 4 4 ∧ x.frame = pn c 8 4 ∧
                 x.u = ix0 - u.rd (R.PRS_WIN_XY_X h) ∧ x.v = iy0 - u.rd (R.PRS_WIN_XY_Y h) ∧ x.w = ix1 - ix0 ∧ x.h = iy1 - iy0 ∧
                 x.ofsX = ix0 - pn c 24 2 - x0 ∧ x.u0 = x0 / unitPix f ∧ x.u1 = (x1 + unitPix f - 1) / unitPix f ∧
                 x.y0 = iy0 - pn c 26 2 ∧ x.y1 = iy1 - pn c 26 2 ∧ x.upl = (pn c 28 2 + unitPix f - 1) / unitPix f ∧ x.got = 0 ∧
                 (∀ r v, x.y0 ≤ r → r < x.y1 → x.u0 ≤ v → v < x.u1 → bitOf x.need ((r * x.upl + v) * wireBits f / 2048) = true) ∧
                 sameElse u t []))))) ∧
     ∀ (lc : StreamLoc) (h k : Nat) (cap : Capture), c.loc = false → h < 2 → k < 16 → Sparse.get u.eng.lay.locs c.stream = some lc →
       u.latchPassed lc.epoch = false → u.captors c.stream = [(h, k)] → (u.layer h k).cap = some cap → cap.kind = .frame →
       cap.stream = c.stream → cap.epoch = lc.epoch → bitOf cap.need (lc.index + (c.seq + 65536 - lc.sq) % 65536) = true →
       u.dramQuiet → (u.capSpans h k cap (lc.index + (c.seq + 65536 - lc.sq) % 65536)).all (fun e => u.dramServes e.1 e.2) = true →
       completes (.pixelCell port c) s (fun t =>
         (t.layer h k).cap = some { cap with got := withBit cap.got (lc.index + (c.seq + 65536 - lc.sq) % 65536) true } ∧
         (∀ f, (∀ g ∈ drcFlds, f.key ≠ g.key) → t.rd f = u.rd f) ∧
         ∀ r v fmt g i, u.wf = true → fmt = u.rd (R.LYR_CFG_FMT h k) → fmt < 4 ∨ fmt = 6 → cap.y0 ≤ r → r < cap.y1 → cap.u0 ≤ v → v < cap.u1 →
           cap.u1 ≤ cap.upl → g = r * cap.upl + v → i = lc.index + (c.seq + 65536 - lc.sq) % 65536 → i * 2048 ≤ g * wireBits fmt →
           (g + 1) * wireBits fmt ≤ (i + 1) * 2048 → ((cap.u1 - cap.u0) * memBits fmt + 7) / 8 ≤ u.rd (R.LYR_STRIDE_BYTES h k) →
           (cap.y1 - cap.y0) * u.rd (R.LYR_STRIDE_BYTES h k) ≤ (if (u.layer h k).mem then 262144 else 268435456) →
           t.rdLE (u.lySpace h k) (u.lyBuf h k (1 - u.rd (R.LYR_STATE_CUR h k)) + (r - cap.y0) * u.rd (R.LYR_STRIDE_BYTES h k) +
               (v - cap.u0) * (memBits fmt / 8)) (memBits fmt / 8) =
             leNat (takePad c.payload 256) / 2 ^ (g * wireBits fmt - i * 2048) % 2 ^ wireBits fmt))

/-- A stage of a lane of the port has failed: it is recorded at the lane with its reason, and every lane of the port starts again; the eighth failure in a
row fails the port (R282), whose state shows LOOP in a loopback whatever its lanes do (R304, log entry 153). -/
def stageFailed (s t : State) (port lane reason : Nat) : Prop :=
  t.rd (R.LNE_EVT_RETRY lane) = min (s.rd (R.LNE_EVT_RETRY lane) + 1) 4294967295 ∧ t.rd (R.LNE_STATE_LAST_FAIL lane) = s.rd (R.LNE_STATE_STAGE lane) ∧
  t.rd (R.LNE_STATE_REASON lane) = reason ∧ (t.port port).fails = (s.port port).fails + 1 ∧
  t.portState port = (if s.loopOf port ≠ 0 then 3 else if 7 ≤ (s.port port).fails then 4 else 1) ∧
  ∀ k ∈ s.portLanes port, t.rd (R.LNE_STATE_STAGE k) = (if 7 ≤ (s.port port).fails then 12 else 1)

/-- R280, R281, R282, R299, R302, R305: a lane passes its stages one by one, its polarity, the order of its port's lanes, its eye and the settings of its
equaliser recorded, and the port's lanes pass stages 8 to 10 together: NEIGH leaves behind stage 8, the delay measurement runs in stage 10, and with its
result the port is UP. A stage that fails or times out is recorded, and every lane of the port starts again, until the eighth failure in a row, which fails
the port; a failed port is tried again; loss of lock takes an UP port down, and is no loss of a link on one in a loopback, which shows LOOP in all this
(R304, log entry 153). An idle transmitter enters QUIET in Shoulder and leaves it for a cell, a cell of the test generator among them (the model's choice,
log entry 184), or outside Shoulder, refreshed meanwhile by 8 marker codewords; a receiver follows the far end. -/
def Obligations.LaneBringUp : Prop :=
  ∀ (lane port : Nat) (s : State), port < 24 → s.laneOwner lane = some port → s.portOn port = true → s.asleep port = false →
    (∀ k ∈ s.portLanes port, k < 48) → lane < 48 →
    (∀ i, s.rd (R.LNE_STATE_STAGE lane) ∈ [1, 2, 6, 7] →
      completes (.laneStageDone lane i) s (fun t =>
        t.rd (R.LNE_STATE_STAGE lane) = s.rd (R.LNE_STATE_STAGE lane) + 1 ∧ sameElse s t [R.LNE_STATE_STAGE lane, R.LNE_STATE_RXPS lane] ∧
        (i.farReady = false → (s.port port).farReady = [] → t.ports = s.ports))) ∧
    (∀ i : StageInfo, s.rd (R.LNE_STATE_STAGE lane) = 3 →
      (i.inverted = false ∨ s.on (R.LNE_CFG_POL_AUTO lane) = true →
        completes (.laneStageDone lane i) s (fun t =>
          t.rd (R.LNE_STATE_STAGE lane) = 4 ∧ t.rd (R.LNE_STATE_RX_INV lane) = b2n i.inverted ∧
          sameElse s t [R.LNE_STATE_STAGE lane, R.LNE_STATE_RX_INV lane, R.LNE_STATE_RXPS lane])) ∧
      (i.inverted = true → s.on (R.LNE_CFG_POL_AUTO lane) = false →
        completes (.laneStageDone lane i) s (fun t => stageFailed s t port lane 0))) ∧
    (∀ (i : StageInfo) rep, s.rd (R.LNE_STATE_STAGE lane) = 4 → rep = Sparse.put (s.port port).passed lane i.laneIndex →
      (rep.length < (s.portLanes port).length →
        completes (.laneStageDone lane i) s (fun t => (t.port port).passed = rep ∧ sameElse s t [R.LNE_STATE_RXPS lane])) ∧
      (∀ rev, (s.portLanes port).length ≤ rep.length → rev = true → 1 < (s.portLanes port).length ∨ rev = false →
        (∀ n, n < (s.portLanes port).length →
          Sparse.get rep ((s.portLanes port).getD n 0) = some (if rev then (s.portLanes port).length - 1 - n else n)) →
        completes (.laneStageDone lane i) s (fun t =>
          (∀ k ∈ s.portLanes port, t.rd (R.LNE_STATE_STAGE k) = 5 ∧ t.rd (R.LNE_STATE_REVERSED k) = b2n rev) ∧
          sameElse s t ((s.portLanes port).flatMap (fun k => [R.LNE_STATE_STAGE k, R.LNE_STATE_REVERSED k]) ++ [R.LNE_STATE_RXPS lane]))) ∧
      ((s.portLanes port).length ≤ rep.length →
        (∃ n, n < (s.portLanes port).length ∧ Sparse.get rep ((s.portLanes port).getD n 0) ≠ some n) →
        (∃ n, n < (s.portLanes port).length ∧ Sparse.get rep ((s.portLanes port).getD n 0) ≠ some ((s.portLanes port).length - 1 - n)) →
        completes (.laneStageDone lane i) s (fun t => stageFailed s t port lane 2))) ∧
    (∀ i : StageInfo, s.rd (R.LNE_STATE_STAGE lane) = 5 →
      (i.farPrecode ≠ s.on (R.LNE_CFG_PRECODE_RX lane) → completes (.laneStageDone lane i) s (fun t => stageFailed s t port lane 1)) ∧
      (i.farPrecode = s.on (R.LNE_CFG_PRECODE_RX lane) →
        (i.eye < 30 → completes (.laneStageDone lane i) s (fun t => sameElse s t [R.LNE_STATE_RXPS lane])) ∧
        (30 ≤ i.eye →
          completes (.laneStageDone lane i) s (fun t =>
            t.rd (R.LNE_STATE_STAGE lane) = 6 ∧ t.rd (R.LNE_STATE_EYE_H lane) = min 255 (i.eye / 2) ∧
            (s.rd (R.LNE_CFG_FFE_FIX lane) = 0 → i.pre < 64 → i.main < 64 → i.post < 64 →
              t.rd (R.LNE_FFE_PRE lane) = i.pre ∧ t.rd (R.LNE_FFE_MAIN lane) = i.main ∧ t.rd (R.LNE_FFE_POST lane) = i.post) ∧
            sameElse s t ([R.LNE_STATE_STAGE lane, R.LNE_STATE_EYE_H lane, R.LNE_STATE_RXPS lane] ++
              if s.rd (R.LNE_CFG_FFE_FIX lane) = 1 then [] else [R.LNE_FFE_PRE lane, R.LNE_FFE_MAIN lane, R.LNE_FFE_POST lane]))))) ∧
    (∀ i, s.rd (R.LNE_STATE_STAGE lane) = 8 →
      (s.allAt port 8 = false → completes (.laneStageDone lane i) s (fun t => sameElse s t [R.LNE_STATE_RXPS lane])) ∧
      (s.allAt port 8 = true → (s.port port).waking = false →
        completes (.laneStageDone lane i) s (fun t =>
          (∀ k ∈ s.portLanes port, t.rd (R.LNE_STATE_STAGE k) = 9) ∧
          (s.portState port = 1 → s.lanesSend port = true →
            ∃ x : Cell, onWire s t port (.cell port x false) ∧ x.typ = tNeigh ∧ x.payload.take 2 = natLE (s.selfId port) 2) ∧
          (s.portState port ≠ 2 →
            sameElse s t ((s.portLanes port).map R.LNE_STATE_STAGE ++ [R.LNE_STATE_RXPS lane, R.RING_TX_CELLS (portRing port)])))) ∧
      (s.allAt port 8 = true → (s.port port).waking = true →
        completes (.laneStageDone lane i) s (fun t =>
          (∀ k ∈ s.portLanes port, t.rd (R.LNE_STATE_STAGE k) = 11) ∧ t.portState port = (if s.loopOf port = 0 then 2 else 3) ∧
          (t.port port).waking = false ∧
          sameElse s t ((s.portLanes port).map R.LNE_STATE_STAGE ++ [R.LNE_STATE_RXPS lane, portStF port])))) ∧
    (∀ i, s.rd (R.LNE_STATE_STAGE lane) = 9 →
      ((s.port port).neighOk = true → s.lanesSend port = true →
        completes (.laneStageDone lane i) s (fun t =>
          (∀ k ∈ s.portLanes port, t.rd (R.LNE_STATE_STAGE k) = 10) ∧ (t.port port).measuring = true ∧ (t.port port).dlySent = 0 ∧
          (t.port port).dlyRes = [] ∧ sameElse s t ((s.portLanes port).map R.LNE_STATE_STAGE ++ [R.LNE_STATE_RXPS lane]))) ∧
      ((s.port port).neighOk = false → s.lanesSend port = true →
        completes (.laneStageDone lane i) s (fun t => sameElse s t [R.LNE_STATE_RXPS lane]))) ∧
    (∀ i, s.rd (R.LNE_STATE_STAGE lane) = 10 →
      ((s.port port).dlyNext = none ∨ (s.port port).measuring = true →
        completes (.laneStageDone lane i) s (fun t => sameElse s t [R.LNE_STATE_RXPS lane])) ∧
      ((s.port port).dlyNext ≠ none → (s.port port).measuring = false →
        completes (.laneStageDone lane i) s (fun t =>
          (∀ k ∈ s.portLanes port, t.rd (R.LNE_STATE_STAGE k) = 11) ∧ t.portState port = (if s.loopOf port = 0 then 2 else 3) ∧
          (t.port port).fails = 0 ∧
          (s.build = .tile → (s.port port).wasDown = false →
            sameElse s t ((s.portLanes port).map R.LNE_STATE_STAGE ++ [R.LNE_STATE_RXPS lane, portStF port]))))) ∧
    (∀ reason, reason < 16 → 2 ≤ s.rd (R.LNE_STATE_STAGE lane) → s.rd (R.LNE_STATE_STAGE lane) ≤ 10 →
      completes (.stageTimeout lane reason) s (fun t => stageFailed s t port lane reason)) ∧
    (s.rd (R.LNE_STATE_STAGE lane) = 11 → s.portState port = 3 → s.loopOf port ≠ 0 →
      completes (.lossOfLock lane) s (fun t =>
        t.rd (R.LNE_EVT_LOL lane) = min (s.rd (R.LNE_EVT_LOL lane) + 1) 4294967295 ∧ t.rd (R.RING_EVT_DOWN (portRing port)) = s.rd (R.RING_EVT_DOWN (portRing port)) ∧
        t.portState port = 3 ∧ t.out = s.out ∧ (∀ p, p < 24 → (t.port p).q1 = (if p = port then [] else (s.port p).q1)) ∧
        ∀ k ∈ s.portLanes port, t.rd (R.LNE_STATE_STAGE k) = 1)) ∧
    (s.rd (R.LNE_STATE_STAGE lane) = 11 → s.portState port = 2 → s.loopOf port = 0 →
      completes (.lossOfLock lane) s (fun t =>
        t.rd (R.LNE_EVT_LOL lane) = min (s.rd (R.LNE_EVT_LOL lane) + 1) 4294967295 ∧ t.portState port = 1 ∧
        t.rd (R.RING_EVT_DOWN (portRing port)) = min (s.rd (R.RING_EVT_DOWN (portRing port)) + 1) 4294967295 ∧
        ∀ k ∈ s.portLanes port, t.rd (R.LNE_STATE_STAGE k) = 1)) ∧
    (portExists s.build port = true → s.portState port = 4 ∧ s.loopOf port = 0 ∨ s.loopOf port ≠ 0 ∧ s.allAt port 12 = true →
      completes (.portRetry port) s (fun t =>
        t.portState port = (if s.loopOf port = 0 then 1 else 3) ∧ t.outEmpty port = true ∧ (∀ k ∈ s.portLanes port, t.rd (R.LNE_STATE_STAGE k) = 1) ∧
        (t.port port).fails = (s.port port).fails)) ∧
    (s.lanesUp port = true → s.pstate = pShoulder → s.outIdle port = true →
      completes (.quietEnter port .tx) s (fun t =>
        (∀ k ∈ s.portLanes port, s.on (R.LNE_CFG_QUIET_EN k) = true → s.rd (R.LNE_STATE_TXPS k) = 0 → t.rd (R.LNE_STATE_TXPS k) = 1) ∧
        sameElse s t ((s.portLanes port).map R.LNE_STATE_TXPS))) ∧
    (portExists s.build port = true → s.outEmpty port = false ∧ s.loopOf port ≠ 1 ∨ s.pstate ≠ pShoulder →
      completes (.quietExit port .tx) s (fun t =>
        (∀ k ∈ s.portLanes port, t.rd (R.LNE_STATE_TXPS k) ≠ 1) ∧ sameElse s t ((s.portLanes port).map R.LNE_STATE_TXPS))) ∧
    (s.lanesUp port = true → s.outEmpty port = true → s.quietLanes port ≠ [] → s.loopOf port ≠ 1 → s.pstate = pShoulder →
      (s.testOn port = false → completes (.quietExit port .tx) s (fun t => t = s)) ∧
      (s.testOn port = true → s.mute (portRing port) = false → 0 < s.rd (R.RING_TEST_RATE (portRing port)) →
        completes (.quietExit port .tx) s (fun t =>
          (∃ x : Cell, (t.port port).q3 = [{ cell := x, stomp := false }] ∧ x.typ = 1 ∧ x.dest = s.rd (R.RING_TEST_DEST (portRing port)) ∧
            x.payload = (prbsBytes (s.port port).prbsTx 256).1) ∧
          (∀ k ∈ s.portLanes port, t.rd (R.LNE_STATE_TXPS k) ≠ 1) ∧ sameElse s t ((s.portLanes port).map R.LNE_STATE_TXPS)))) ∧
    (s.lanesUp port = true →
      completes (.quietEnter port .rx) s (fun t =>
        (∀ k ∈ s.portLanes port, t.rd (R.LNE_STATE_RXPS k) = if s.rd (R.LNE_STATE_RXPS k) = 0 then 1 else s.rd (R.LNE_STATE_RXPS k)) ∧
        sameElse s t ((s.portLanes port).map R.LNE_STATE_RXPS)) ∧
      completes (.quietExit port .rx) s (fun t =>
        (∀ k ∈ s.portLanes port, t.rd (R.LNE_STATE_RXPS k) = if s.rd (R.LNE_STATE_RXPS k) = 1 then 0 else s.rd (R.LNE_STATE_RXPS k)) ∧
        sameElse s t ((s.portLanes port).map R.LNE_STATE_RXPS))) ∧
    (portExists s.build port = true → s.quietLanes port ≠ [] →
      completes (.quietRefresh port) s (fun t => sameElse s t [] ∧ onWire s t port (.refresh port) ∧ t.out.length = s.out.length + 9))

/-! ### Links (R292, R297 to R300, R441) -/

/-- R297, R298: a tile without a position takes head, ring and hops + 1 from DISCOVER; DISCOVER on a head sends one out of end A of the ring;
a NEIGH in stage 9 is recorded, and a tile next to a head's end A takes position 1, a different one that its east neighbour gave it being a
conflict that is counted. The ring that such a NEIGH names is one of the 12 (R7; log entry 34). -/
def Obligations.DiscoveryAndNeighbours : Prop :=
  ∀ (port : Nat) (c : Cell) (s : State),
    (∀ u, s.build = .tile → c.cls = clsControl → c.typ = tDiscover → s.receive port c = (true, u) → u.rd (R.RING_STATE_NODE 0) = noNode →
      c.hops < 63 → pb c 1 % 16 < 12 →
      completes (.discover port c) s (fun t =>
        (∀ i, i < 2 → t.rd (R.RING_STATE_NODE i) = nodeId (pb c 0) (pb c 1) (c.hops + 1)) ∧
        sameElse u t [R.RING_STATE_NODE 0, R.RING_STATE_NODE 1])) ∧
    (∀ (path : Path) (ring : Nat), s.build = .head → ring < 12 → s.reaches path (R.RING_CMD_DISCOVER ring) .set → s.portState (2 * ring) = 2 → s.mute ring = false →
      completes (.ringDiscover path .set ring) s (fun t =>
        (∃ x : Cell, (t.port (2 * ring)).q1 = (s.port (2 * ring)).q1 ++ [{ cell := x, stomp := false }] ∧ x.typ = tDiscover ∧ x.bcast = true ∧
          x.src = nodeId s.headNo ring 0 ∧ x.hops = 0 ∧ x.payload = natLE s.headNo 1 ++ natLE ring 1) ∧ sameElse s t calFlds)) ∧
    (s.build = .tile → c.typ = tNeigh → s.receiveLocal port c = true → s.portState port = 1 → s.allAt port 9 = true →
      (s.hasPosition = true → (port = 0 → (s.port 2).gavePos = false) →
        completes (.neigh port c) s (fun t =>
          t.rd (R.RING_NEIGH_A_NODE (portRing port)) = pn c 0 2 ∧ t.rd (R.RING_NEIGH_A_ROLE (portRing port)) = pb c 2 % 4 ∧
          t.rd (R.RING_NEIGH_A_VALID (portRing port)) = 1 ∧ (t.port port).neighOk = true ∧
          sameElse s t [R.RING_NEIGH_A_NODE (portRing port), R.RING_NEIGH_A_ROLE (portRing port), R.RING_NEIGH_A_VALID (portRing port)])) ∧
      (s.hasPosition = false → port = 0 → pb c 2 = 2 → pb c 4 < 12 → pb c 5 = 0 → s.rd (R.RING_NEIGH_A_VALID 1) = 0 →
        completes (.neigh port c) s (fun t =>
          t.rd (R.RING_STATE_NODE 0) = nodeId (pb c 3) (pb c 4) 1 ∧ t.rd (R.RING_STATE_NODE 1) = nodeId (pb c 3) (pb c 4) 1)) ∧
      (s.hasPosition = true → (s.port 2).gavePos = true → port = 0 → pb c 2 = 2 → pb c 4 < 12 → pb c 5 = 0 → nodePos (s.rd (R.RING_STATE_NODE 0)) ≠ 1 →
        completes (.neigh port c) s (fun t =>
          t.rd (R.RING_STATE_NODE 0) = nodeId (pb c 3) (pb c 4) 1 ∧ t.rd (R.RING_STATE_NODE 1) = nodeId (pb c 3) (pb c 4) 1 ∧
          t.rd (R.RING_EVT_CONFLICT 0) = min (s.rd (R.RING_EVT_CONFLICT 0) + 1) 4294967295)))

/-- R300, R441: a measurement of an UP port begins with its results empty; 16 DLY_REQ leave with their numbers, in the control queue of an UP port and straight
onto the lanes in bring-up; each is answered with its residence time; the 16th answer gives the trimmed mean of the halves of round trip less residence,
which waits for the epoch boundary. A run of an UP port whose 16 requests have left and of which an answer is lost ends without a result at the next
request's turn, or is begun anew (the model's choice, log entry 185). -/
def Obligations.DelayMeasurement : Prop :=
  ∀ (port : Nat) (c : Cell) (s : State), s.build = .tile → portExists .tile port = true → s.asleep port = false →
    ((s.port port).measuring = false ∨ 16 ≤ (s.port port).dlySent → s.portState port = 2 →
      completes (.delayMeasureStart port) s (fun t =>
        (t.port port).measuring = true ∧ (t.port port).dlySent = 0 ∧ (t.port port).dlyRes = [] ∧ sameElse s t [])) ∧
    (∀ path, s.reaches path (R.RING_CMD_REMEASURE (portRing port)) .set → s.rd (R.RING_CMD_REMEASURE (portRing port)) = 0 → s.portState port = 2 →
      completes (.remeasure path .set (portRing port)) s (fun t =>
        t.rd (R.RING_CMD_REMEASURE (portRing port)) = 1 ∧ (t.port port).measuring = true ∧ (t.port port).dlySent = 0 ∧ (t.port port).dlyRes = [] ∧
        sameElse s t ([R.RING_CMD_REMEASURE (portRing port)] ++ calFlds))) ∧
    ((s.port port).measuring = true →
      ((s.port port).dlySent < 16 →
        (s.portState port = 2 →
          completes (.dlyReqSend port) s (fun t =>
            (t.port port).dlySent = (s.port port).dlySent + 1 ∧ t.out = s.out ∧ sameElse s t [] ∧
            ∃ x : Cell, (t.port port).q1 = (s.port port).q1 ++ [{ cell := x, stomp := false }] ∧ x.typ = tDlyReq ∧
              x.payload = natLE (s.port port).dlySent 1)) ∧
        (s.portState port = 1 → s.lanesSend port = true →
          completes (.dlyReqSend port) s (fun t =>
            (t.port port).dlySent = (s.port port).dlySent + 1 ∧ sameElse s t [R.RING_TX_CELLS (portRing port)] ∧
            ∃ x : Cell, onWire s t port (.cell port x false) ∧ x.typ = tDlyReq ∧ x.payload = natLE (s.port port).dlySent 1))) ∧
      (16 ≤ (s.port port).dlySent → s.portState port = 2 →
        completes (.dlyReqSend port) s (fun t =>
          (t.port port).measuring = false ∧ (t.port port).dlyRes = [] ∧ (t.port port).dlyNext = (s.port port).dlyNext ∧
          t.rd (R.RING_CMD_REMEASURE (portRing port)) = 0 ∧ sameElse s t [R.RING_CMD_REMEASURE (portRing port)]))) ∧
    ((s.port port).measuring = false → completes (.dlyReqSend port) s (fun t => t = s)) ∧
    (∀ residence, c.typ = tDlyReq → s.receiveLocal port c = true →
      (s.portState port = 2 →
        completes (.dlyReq port c residence) s (fun t =>
          t.out = s.out ∧ sameElse s t [] ∧
          ∃ x : Cell, (∀ k, t.port k = if k = port then { s.port port with q1 := (s.port port).q1 ++ [{ cell := x, stomp := false }] } else s.port k) ∧
            x.typ = tDlyRsp ∧ x.payload = natLE (pb c 0) 8 ++ natLE residence 8)) ∧
      (s.portState port = 1 → s.lanesSend port = true →
        completes (.dlyReq port c residence) s (fun t =>
          (∀ k, { t.port k with line := (s.port k).line } = s.port k) ∧ sameElse s t [R.RING_TX_CELLS (portRing port)] ∧
          ∃ x : Cell, onWire s t port (.cell port x false) ∧ x.typ = tDlyRsp ∧ x.payload = natLE (pb c 0) 8 ++ natLE residence 8))) ∧
    ∀ trip, c.typ = tDlyRsp → s.receiveLocal port c = true → (s.port port).measuring = true →
      ((s.port port).dlyRes.length < 15 →
        completes (.dlyRsp port c trip) s (fun t =>
          (t.port port).dlyRes = (s.port port).dlyRes ++ [(trip - pn c 8 8) / 2] ∧ (t.port port).measuring = true ∧ sameElse s t [])) ∧
      ((s.port port).dlyRes.length = 15 →
        completes (.dlyRsp port c trip) s (fun t =>
          (t.port port).dlyNext = some (trimmedMean ((s.port port).dlyRes ++ [(trip - pn c 8 8) / 2])) ∧ (t.port port).measuring = false ∧
          t.rd (R.RING_CMD_REMEASURE (portRing port)) = 0 ∧ sameElse s t [R.RING_CMD_REMEASURE (portRing port)]))

/-- R292, R299: a tile records a link named lost in both its ring instances and takes it off again; SHARE_REQ paces the end of a head's ring
that its direction leaves by until the pacing expires; a tile repeats it while its condition lasts. -/
def Obligations.BreaksAndPacing : Prop :=
  ∀ (port : Nat) (c : Cell) (s : State),
    (∀ u, s.build = .tile → c.cls = clsControl → port < 24 → s.receive port c = (true, u) →
      (c.typ = tLinkdown → (∀ p, p < 2 → u.rd (R.RING_BREAK_V1 p) = 0 ∧ u.rd (R.RING_BREAK_V2 p) = 0) →
        completes (.linkdown port c) s (fun t =>
          (∀ p, p < 2 → t.rd (R.RING_BREAK_POS1 p) = pb c 0 % 64 ∧ t.rd (R.RING_BREAK_V1 p) = 1) ∧
          sameElse u t [R.RING_BREAK_POS1 0, R.RING_BREAK_V1 0, R.RING_BREAK_POS1 1, R.RING_BREAK_V1 1])) ∧
      (c.typ = tLinkup → (∀ p, p < 2 → u.rd (R.RING_BREAK_V1 p) = 1 ∧ u.rd (R.RING_BREAK_POS1 p) = pb c 0 % 64 ∧ u.rd (R.RING_BREAK_V2 p) = 0) →
        completes (.linkup port c) s (fun t =>
          (∀ p, p < 2 → t.rd (R.RING_BREAK_V1 p) = 0) ∧
          sameElse u t [R.RING_BREAK_POS1 0, R.RING_BREAK_V1 0, R.RING_BREAK_POS1 1, R.RING_BREAK_V1 1]))) ∧
    (∀ u r, s.build = .head → r < 12 → port = 2 * r ∨ port = 2 * r + 1 → c.cls = clsControl → c.typ = tShareReq → s.receive port c = (true, u) →
      pb c 0 = s.dirOut (2 * r) → pb c 0 < 2 →
      completes (.shareReq port c) s (fun t => t.rd (R.RING_STATE_PACE_A r) = 1 ∧ sameElse u t [R.RING_STATE_PACE_A r])) ∧
    (∀ r, s.build = .head → r < 12 →
      completes (.pacingExpire (2 * r)) s (fun t => t.rd (R.RING_STATE_PACE_A r) = 0 ∧ sameElse s t [R.RING_STATE_PACE_A r]) ∧
      completes (.pacingExpire (2 * r + 1)) s (fun t => t.rd (R.RING_STATE_PACE_B r) = 0 ∧ sameElse s t [R.RING_STATE_PACE_B r])) ∧
    (s.build = .tile → portExists .tile port = true → (s.port port).sharing = true →
      ((s.port port).q2 ≠ [] → (s.port port).q3 ≠ [] → s.hasPosition = true → s.portState 0 = 2 →
        completes (.shareReqRepeat port) s (fun t =>
          sameElse s t [] ∧ ∃ x : Cell, (t.port 0).q1 = (s.port 0).q1 ++ [{ cell := x, stomp := false }] ∧ x.typ = tShareReq ∧
            x.payload = natLE (s.dirOut port) 1)) ∧
      ((s.port port).q3 = [] → completes (.shareReqRepeat port) s (fun t => (t.port port).sharing = false ∧ sameElse s t [])))

/-! ### Remote registers, the host's apertures and events (R55, R74, R75, R78, R317, R334 to R343) -/

/-- R317, R340: a read of one dword over the ring is answered to its originator with the dword and its tag; a posted write of the mend list by
the master lands; a write of a head that is not the master is counted and does nothing; an answer completes the host's read. -/
def Obligations.RemoteRegisterCells : Prop :=
  ∀ (port : Nat) (c : Cell) (s u : State), c.cls = clsControl → s.receive port c = (true, u) →
    (s.build = .tile → port < 24 → c.typ = tRegRd → pb c 4 = 1 → u.busError .remote false (pn c 0 4 % 2097152) 1 15 = none → u.portState 0 = 2 →
      completes (.regRd port c) s (fun t =>
        sameElse u t [] ∧ ∃ x : Cell, (t.port 0).q1 = (u.port 0).q1 ++ [{ cell := x, stomp := false }] ∧ x.typ = tRegRsp ∧ x.dest = c.src ∧
          x.aux = c.aux ∧ x.rsp = true ∧ x.err = false ∧
          x.payload.drop 16 = bytesOf [BitVec.ofNat 32 (u.readDword .remote (pn c 0 4 % 2097152 / 4 * 4)).1])) ∧
    (s.build = .tile → port < 24 → c.typ = tRegWr → pb c 4 = 1 → pb c 5 % 2 = 1 → u.on R.CRN_MASTER_HEAD_VALID = true →
      (nodeHead c.src = u.rd R.CRN_MASTER_HEAD_HEAD → u.wf = true → 0x120000 ≤ pn c 0 4 → pn c 0 4 < 0x128000 → pn c 0 4 % 4 = 0 →
        u.busError .remote true (pn c 0 4) 1 15 = none →
        completes (.regWr port c) s (fun t =>
          t.rd32 .window (pn c 0 4) = pn c 16 4 ∧ (∀ f, t.rd f = u.rd f) ∧ t.out = u.out ∧ t.ports = u.ports ∧
          ∀ k, (k < Space.window.key (pn c 0 4) ∨ Space.window.key (pn c 0 4) + 4 ≤ k) → memGet t.mem k = memGet u.mem k)) ∧
      (nodeHead c.src ≠ u.rd R.CRN_MASTER_HEAD_HEAD →
        completes (.regWr port c) s (fun t =>
          t.rd R.CRN_EVT_FOREIGN = min (u.rd R.CRN_EVT_FOREIGN + 1) 4294967295 ∧ t.out = u.out ∧ t.ports = u.ports ∧
          sameElse u t [R.CRN_EVT_FOREIGN]))) ∧
    ∀ x : Remote, s.build = .head → c.typ = tRegRsp → c.err = false → u.relayedOf c.aux c.src = none → pb c 4 = 1 →
      u.host.remotes.find? (fun (y : Remote) => y.tag = c.aux && y.node = c.src) = some x → x.parts = 1 → x.count = 1 → x.got = [] →
      x.failed = false → x.addr = pn c 0 4 % 2097152 → u.host.waiting = [] →
      completes (.regRsp port c) s (fun t =>
        t.out = .data .pcie [BitVec.ofNat 32 (pn c 16 4)] :: u.out ∧ (∀ y ∈ t.host.remotes, y.tag ≠ c.aux) ∧ sameElse u t [])

/-- R75, R78, R338, R339: a read of the host through an aperture of a tile on one of its rings goes out and is held outstanding; through an
aperture that is not valid it is NO_NODE, a Completer Abort; a posted write of which a dword is not whole goes nowhere and is not logged at this head
(R75: bus errors of a remote node are the node's; log entry 88); a read that gets no answer is ABSENT_NODE, counted, and a Completer Abort. -/
def Obligations.HostApertures : Prop :=
  ∀ (s : State), s.build = .head →
    (∀ o n q, s.pathOpen .pcie = true → q.write = false → q.count = 1 → n < 128 → o / 2097152 % 128 = n → s.rd (R.HST_APT_VALID n) = 1 →
      nodeHead (s.rd (R.HST_APT_NODE n)) = s.headNo → s.auth.aliases = [] → nodeRing (s.rd (R.HST_APT_NODE n)) < 12 →
      nodePos (s.rd (R.HST_APT_NODE n)) ≠ 0 → s.host.remotes.length < 32 → s.portState (2 * nodeRing (s.rd (R.HST_APT_NODE n))) = 2 →
      s.mute (nodeRing (s.rd (R.HST_APT_NODE n))) = false →
      completes (.bar2Request o q) s (fun t =>
        (∃ x : Remote, t.host.remotes = s.host.remotes ++ [x] ∧ x.tag = s.host.nextTag ∧ x.node = s.rd (R.HST_APT_NODE n) ∧
          x.addr = o % 2097152 / 4 * 4 ∧ x.count = 1 ∧ x.parts = 1) ∧
        (∃ y : Cell, (t.port (2 * nodeRing (s.rd (R.HST_APT_NODE n)))).q1 =
            (s.port (2 * nodeRing (s.rd (R.HST_APT_NODE n)))).q1 ++ [{ cell := y, stomp := false }] ∧
          y.typ = tRegRd ∧ y.dest = s.rd (R.HST_APT_NODE n) ∧ y.aux = s.host.nextTag) ∧ t.out = s.out ∧ sameElse s t [])) ∧
    (∀ o h node q, s.pathOpen .pcie = true → q.write = true → s.aptTarget o = .remote h node → q.data.length ≤ 2 → q.data ≠ [] →
      (∃ i, i < q.data.length ∧ q.be / 16 ^ i % 16 ≠ 15) →
      completes (.bar2Request o q) s (fun t => t = s)) ∧
    (∀ o n q, s.pathOpen .pcie = true → q.write = false → n < 128 → o / 2097152 % 128 = n → s.rd (R.HST_APT_VALID n) = 0 →
      completes (.bar2Request o q) s (fun t =>
        t.out = .abort .pcie :: s.out ∧ t.rd R.SYS_BERR_INFO_REASON = beNoNode ∧ t.rd R.HST_EVT_CA = min (s.rd R.HST_EVT_CA + 1) 4294967295 ∧
        t.host = { s.host with cfg := t.host.cfg })) ∧
    (∀ tag x, s.host.remotes.find? (fun (y : Remote) => y.tag = tag) = some x → s.host.waiting = [] →
      completes (.remoteTimeout tag) s (fun t =>
        t.out = .abort .pcie :: s.out ∧ t.rd R.HST_EVT_ABSENT = min (s.rd R.HST_EVT_ABSENT + 1) 4294967295 ∧
        t.rd R.SYS_BERR_INFO_REASON = beAbsentNode ∧ (∀ y ∈ t.host.remotes, y.tag ≠ tag))) ∧
    ∀ (path : Path) (n : Nat) (v : Word), n < 128 → s.reaches path (R.HST_APT_NODE n) .base → s.rd (R.LOCK 0x20000) = 0 →
      s.rd (R.HST_APT_VALID n) = 0 →
      completes (.apertureWrite path .base n v) s (fun t =>
        t.rd (R.HST_APT_NODE n) = v.toNat % 65536 ∧ t.rd (R.HST_APT_VALID n) = v.toNat / 2147483648 ∧
        sameElse s t ([R.HST_APT_NODE n, R.HST_APT_VALID n] ++ calFlds))

/-- MSI-X is enabled for a function, and nothing masks its vector. -/
def vectorOpen (s : State) (fn v : Nat) : Bool := s.cfgVal fn .msixEnable = 1 && !s.masked fn v

/-- R334, R343: after a record is written to queue q, vector 48 + q is raised unless its holdoff still runs; at the holdoff's end it is raised if
the holdoff put a raise off and records remain unconsumed; all this for a vector that MSI-X enables and does not mask, where the mask and the enable are the
model's choice (PRESUMED, log entry 132; the other vectors: see HostAndSpur); the host's doorbell sets the consumer index. R334, R342: an event of a ring or of the Spur reaches its queue of the
lead head as one record at its producer index, which advances. -/
def Obligations.EventQueues : Prop :=
  ∀ (s : State), s.build = .head →
    (∀ port c u p, p ≤ 12 → (if isSpur port then 12 else portRing port) = p → c.cls = clsControl → c.typ = tEvent → s.receive port c = (true, u) →
      u.isLead = true → u.queueRuns p = true → u.host.d3 = [] → u.host.held = [] →
      (u.host.holdoff.contains p = false → vectorOpen u 0 (48 + p) = true) → (u.rd (R.HST_EVQ_IDX_PROD p) + 1 + 65536 - u.rd (R.HST_EVQ_IDX_CONS p)) % u.queueSize p ≠ 0 →
      completes (.event port c) s (fun t =>
        t.rd (R.HST_EVQ_IDX_PROD p) = (u.rd (R.HST_EVQ_IDX_PROD p) + 1) % 65536 ∧
        (∃ b : List Byte, t.out = (if u.host.holdoff.contains p then [] else [.msix 0 (48 + p)]) ++
            .hostWrite (u.rd (R.HST_EVQ_BASE_LO_ADDR p) * 64 +
              u.rd (R.HST_EVQ_BASE_HI_ADDR p) * 4294967296 + 32 * (u.rd (R.HST_EVQ_IDX_PROD p) % u.queueSize p)) b :: u.out ∧
          b.take 28 = takePad c.payload 28 ∧ b.length = 32) ∧
        (t.host.owed.contains p = (u.host.owed.contains p || u.host.holdoff.contains p)) ∧
        (t.host.holdoff.contains p = (u.host.holdoff.contains p || decide (u.rd (R.HST_EVQ_CFG_HOLDOFF p) ≠ 0))) ∧
        sameElse u t [R.HST_EVQ_IDX_PROD p])) ∧
    (∀ q, q < 16 → s.host.holdoff.contains q = true → vectorOpen s 0 (48 + q) = true →
      completes (.evqHoldoffExpire q) s (fun t =>
        sameElse s t [] ∧
        (s.host.owed.contains q = false ∨ s.rd (R.HST_EVQ_IDX_PROD q) = s.rd (R.HST_EVQ_IDX_CONS q) →
          t.out = s.out ∧ t.host.holdoff.contains q = false) ∧
        (s.host.owed.contains q = true → s.rd (R.HST_EVQ_IDX_PROD q) ≠ s.rd (R.HST_EVQ_IDX_CONS q) →
          t.host.owed.contains q = false ∧ t.host.holdoff.contains q = decide (s.rd (R.HST_EVQ_CFG_HOLDOFF q) ≠ 0) ∧
          t.out = .msix 0 (48 + q) :: s.out))) ∧
    (∀ q b, q < 16 → vectorOpen s 0 (48 + q) = true →
      (s.putRecord q b).out.head? =
        (if s.host.holdoff.contains q then
          some (.hostWrite (s.rd (R.HST_EVQ_BASE_LO_ADDR q) * 64 + s.rd (R.HST_EVQ_BASE_HI_ADDR q) * 4294967296 +
            32 * (s.rd (R.HST_EVQ_IDX_PROD q) % s.queueSize q))
            (takePad b 28 ++ natLE (s.rd (R.HST_EVQ_IDX_PROD q)) 2 ++
              natLE (256 * (if s.rd (R.HST_EVQ_IDX_PROD q) / s.queueSize q % 2 = 0 then 1 else 0)) 2))
         else some (.msix 0 (48 + q)))) ∧
    ∀ q idx, q < 16 → s.pins.perstLow = false → s.host.d3 = [] →
      completes (.evqDoorbell q (.bell idx 15)) s (fun t =>
        t.rd (R.HST_EVQ_IDX_CONS q) = idx % 65536 ∧ t.bellAt 0 (0x1000 + 8 * q) = idx % 65536 ∧ sameElse s t [R.HST_EVQ_IDX_CONS q])

/-! ### Cairn and authority (R307 to R326) -/

/-- R309, R310: a copy of the epoch counter, of the lamp enable or of a ring master term that differs from the other two is scrubbed and
recorded; within 1 ms of another it is a disagreement too: a tile's timebase begins to acquire anew, its lamp enable goes to 0 and its halves
blank, its term and master are cleared; a head gives up. With three different copies users go on seeing the last voted value, and the
disagreement follows at once. -/
def Obligations.CopiesOfTheEpochCounter : Prop :=
  ∀ (a b c : Nat) (s : State), a < 4294967296 → b < 4294967296 → c < 4294967296 → a ≠ b → s.build = .tile →
    completes (.cairnCopyDisagree .epoch a a b false) s (fun t =>
      t.cairn.epoch = Tri.set a ∧ t.rd R.CRN_EVT_SCRUB = min (s.rd R.CRN_EVT_SCRUB + 1) 4294967295 ∧ t.rd R.CRN_LAST_DIS_ITEM = 2 ∧
      t.rd R.CRN_LAST_DIS_COPY = 2 ∧ t.out = s.out ∧
      sameElse s t [R.CRN_EVT_SCRUB, R.CRN_LAST_DIS_ITEM, R.CRN_LAST_DIS_RING, R.CRN_LAST_DIS_COPY]) ∧
    completes (.cairnCopyDisagree .epoch a b a true) s (fun t =>
      t.cairn.epoch = Tri.set a ∧ t.rd R.CRN_EVT_DISAGREE = min (s.rd R.CRN_EVT_DISAGREE + 1) 4294967295 ∧ t.rd R.CRN_LAST_DIS_COPY = 1 ∧
      t.epState = epAcquire ∧ t.epc.first = false ∧ t.epc.good = 0) ∧
    (a ≠ c → b ≠ c →
      completes (.cairnCopyDisagree .epoch a b c false) s (fun t =>
        t.epochNo = s.epochNo ∧ t.rd R.CRN_EVT_SPLIT = min (s.rd R.CRN_EVT_SPLIT + 1) 4294967295 ∧
        t.rd R.CRN_EVT_DISAGREE = min (s.rd R.CRN_EVT_DISAGREE + 1) 4294967295 ∧ t.rd R.CRN_LAST_DIS_COPY = 3 ∧ t.epState = epAcquire)) ∧
    (a < 2 → b < 2 →
      completes (.cairnCopyDisagree .lamp a a b false) s (fun t =>
        t.cairn.lamp = Tri.set a ∧ t.rd R.CRN_EVT_SCRUB = min (s.rd R.CRN_EVT_SCRUB + 1) 4294967295 ∧ t.rd R.CRN_LAST_DIS_ITEM = 1 ∧
        t.rd R.CRN_LAST_DIS_COPY = 2 ∧ t.out = s.out ∧
        sameElse s t [R.CRN_EVT_SCRUB, R.CRN_LAST_DIS_ITEM, R.CRN_LAST_DIS_RING, R.CRN_LAST_DIS_COPY]) ∧
      completes (.cairnCopyDisagree .lamp b a a true) s (fun t =>
        t.cairn.lamp = Tri.set 0 ∧ t.lampEn = false ∧ (∀ h, h < 2 → t.lmpBlk h ≠ 0) ∧ t.rd R.CRN_LAST_DIS_COPY = 0 ∧
        t.rd R.CRN_EVT_SCRUB = min (s.rd R.CRN_EVT_SCRUB + 1) 4294967295 ∧
        t.rd R.CRN_EVT_DISAGREE = min (s.rd R.CRN_EVT_DISAGREE + 1) 4294967295 ∧
        sameElse s t [R.CRN_EVT_SCRUB, R.CRN_EVT_DISAGREE, R.CRN_LAST_DIS_ITEM, R.CRN_LAST_DIS_RING, R.CRN_LAST_DIS_COPY])) ∧
    completes (.cairnCopyDisagree (.term 0) a a b false) s (fun t =>
      t.term 0 = a ∧ t.termTri 0 = Tri.set a ∧ t.rd R.CRN_EVT_SCRUB = min (s.rd R.CRN_EVT_SCRUB + 1) 4294967295 ∧ t.rd R.CRN_LAST_DIS_ITEM = 3 ∧
      t.rd R.CRN_LAST_DIS_RING = 0 ∧ t.rd R.CRN_LAST_DIS_COPY = 2 ∧
      sameElse s t [R.CRN_EVT_SCRUB, R.CRN_LAST_DIS_ITEM, R.CRN_LAST_DIS_RING, R.CRN_LAST_DIS_COPY]) ∧
    (∀ split, split = decide (a ≠ c ∧ b ≠ c) →
      split = true ∨ c = a →
      completes (.cairnCopyDisagree (.term 0) a b c true) s (fun t =>
        t.termTri 0 = Tri.set 0 ∧ t.rd R.CRN_MASTER_HEAD_VALID = 0 ∧ t.rd R.CRN_MASTER_HEAD_HEAD = 0 ∧
        t.rd R.CRN_LAST_DIS_COPY = (if split then 3 else 1) ∧ t.rd R.CRN_EVT_DISAGREE = min (s.rd R.CRN_EVT_DISAGREE + 1) 4294967295 ∧
        sameElse s t [R.CRN_EVT_SCRUB, R.CRN_EVT_SPLIT, R.CRN_EVT_DISAGREE, R.CRN_LAST_DIS_ITEM, R.CRN_LAST_DIS_RING, R.CRN_LAST_DIS_COPY,
          R.CRN_MASTER_HEAD_VALID, R.CRN_MASTER_HEAD_HEAD])) ∧
    ∀ (u : State) (r : Nat), u.build = .head → r < 12 → u.enabled .CRN 0 = true → u.rd R.CRN_HEAD_ROLE = roleActive →
      completes (.cairnCopyDisagree (.term r) a b a true) u (fun t =>
        t.termTri r = Tri.set a ∧ t.rd R.CRN_LAST_DIS_RING = r ∧ t.rd R.CRN_LAST_DIS_COPY = 1 ∧
        t.rd R.CRN_EVT_DISAGREE = min (u.rd R.CRN_EVT_DISAGREE + 1) 4294967295 ∧
        t.rd R.CRN_HEAD_ROLE = roleResigned ∧ t.rd R.CRN_HEAD_REASON = (if u.rd R.CRN_HEAD_REASON = 0 then 1 else u.rd R.CRN_HEAD_REASON) ∧
        ∀ q, q < 12 → t.masters q = false)

/-- R314, R315, R318 to R320, R329: LISTEN ends with the term one above the record it began with and the head the ring's master, unless another holds the ring
by a pair heard meanwhile, which ranks above that or is another head's with at least the term that was stored (R329; the model's reading, log entry 154):
then the head is a standby there; a head whose term would pass the last one gives up with TERM_END; RESIGN of an active head records the manual
reason and gives every ring up; a head records the term of a TAKE that comes by one ring and names another; a tile follows a TAKE of its ring that ranks above its master, and takes the alias. -/
def Obligations.ListenResignTake : Prop :=
  ∀ s : State,
    (∀ r, s.build = .head → s.wf = true → r < 12 → (s.ringAuth r).role = roleListen → s.portOn (2 * r) = true →
      ((∀ p, (s.ringAuth r).pair = some p → s.heldByOther p = false) →
        (s.auth.listenTerm < 4294967295 →
          completes (.listenEnd r) s (fun t =>
            t.masters r = true ∧ t.term r = s.auth.listenTerm + 1 ∧ t.termRecord = max s.termRecord (s.auth.listenTerm + 1) ∧
            t.rd R.CRN_HEAD_ROLE = roleActive ∧ ∀ f, f.key ≠ R.CRN_HEAD_ROLE.key → t.rd f = s.rd f)) ∧
        (4294967295 ≤ s.auth.listenTerm → s.enabled .CRN 0 = true → s.rd R.CRN_HEAD_ROLE ≠ roleResigned →
          completes (.listenEnd r) s (fun t =>
            t.rd R.CRN_HEAD_ROLE = roleResigned ∧ t.rd R.CRN_HEAD_REASON = (if s.rd R.CRN_HEAD_REASON = 0 then 7 else s.rd R.CRN_HEAD_REASON) ∧
            t.termRecord = s.termRecord ∧ ∀ q, q < 12 → t.masters q = false))) ∧
      (∀ p, (s.ringAuth r).pair = some p → s.heldByOther p = true →
        completes (.listenEnd r) s (fun t =>
          (t.ringAuth r).role = roleStandby ∧ t.masters r = false ∧ t.term r = s.term r ∧ t.termRecord = s.termRecord ∧
          t.rd R.CRN_HEAD_ROLE = (if (List.range 12).any (fun q => s.masters q) then s.rd R.CRN_HEAD_ROLE else roleStandby) ∧
          sameElse s t [R.CRN_HEAD_ROLE]))) ∧
    (∀ path, s.build = .head → s.reaches path R.CRN_CMD_RESIGN .set → s.enabled .CRN 0 = true →
      (s.rd R.CRN_HEAD_ROLE = roleActive →
        completes (.cmdResign path .set) s (fun t =>
          t.rd R.CRN_HEAD_ROLE = roleResigned ∧ t.rd R.CRN_HEAD_REASON = (if s.rd R.CRN_HEAD_REASON = 0 then 6 else s.rd R.CRN_HEAD_REASON) ∧
          ∀ r, r < 12 → t.masters r = false)) ∧
      (s.rd R.CRN_HEAD_ROLE = roleStandby →
        completes (.cmdResign path .set) s (fun t =>
          t.rd R.CRN_HEAD_ROLE = roleStandby ∧ t.auth = s.auth ∧ t.rd (R.IGN_REASON (Blk.CRN.pg 0)) = 16))) ∧
    (∀ port c u, s.build = .head → s.wf = true → port < 24 → c.cls = clsControl → c.typ = tTake → s.receive port c = (true, u) → u.wf = true →
      pb c 8 ≠ portRing port →
      completes (.take port c) s (fun t =>
        t.termRecord = max u.termRecord (pn c 4 4) ∧ (∀ r, r < 12 → t.term r = u.term r ∧ t.masters r = u.masters r) ∧ ∀ f, t.rd f = u.rd f)) ∧
    ∀ port c u, s.build = .tile → c.cls = clsControl → c.typ = tTake → s.receive port c = (true, u) → u.rd (R.RING_STATE_NODE 0) ≠ noNode →
      pb c 8 = nodeRing (u.rd (R.RING_STATE_NODE 0)) → u.on R.CRN_MASTER_HEAD_VALID = true → u.auth.aliases = [] →
      pb c 0 < 64 → pb c 1 < 64 → pb c 0 ≠ pb c 1 →
      (u.term 0 < pn c 4 4 →
        completes (.take port c) s (fun t =>
          t.term 0 = pn c 4 4 ∧ t.rd R.CRN_MASTER_HEAD_HEAD = pb c 1 ∧ t.rd R.CRN_MASTER_HEAD_VALID = 1 ∧ t.auth.aliases = [(pb c 0, pb c 1)] ∧
          sameElse u t [R.CRN_MASTER_HEAD_HEAD, R.CRN_MASTER_HEAD_VALID])) ∧
      (pn c 4 4 < u.term 0 → completes (.take port c) s (fun t => t = u))

/-- R315, R325, R326: a standby takes over on command, on its peer's RESIGN, and on beacon loss; its Fold checked, it holds its protected rings by a
new term, recorded, or, where no term is left, gives up with TERM_END (R318); the takeover ends with the head active. -/
def Obligations.Takeover : Prop :=
  ∀ s : State, s.build = .head →
    (s.canTake = true →
      (∀ path, s.reaches path R.CRN_CMD_TAKE .set →
        completes (.cmdTake path .set) s (fun t =>
          t.rd R.CRN_HEAD_ROLE = roleTaking ∧ t.auth.fold.checking = true ∧ (∀ r ∈ s.protRings, (t.ringAuth r).role = roleTaking) ∧
          sameElse s t ([R.CRN_HEAD_ROLE] ++ calFlds))) ∧
      (s.beaconLost = true → s.on R.CRN_CFG_AUTO_TAKE = true →
        completes .beaconLossTakeover s (fun t =>
          t.rd R.CRN_HEAD_ROLE = roleTaking ∧ t.auth.fold.checking = true ∧ sameElse s t [R.CRN_HEAD_ROLE]))) ∧
    (s.beaconLost = false → completes .beaconLossTakeover s (fun t => t = s)) ∧
    (∀ port c u, c.cls = clsControl → c.typ = tResign → s.receive port c = (true, u) → pb c 0 % 64 = u.rd R.CRN_CFG_PEER →
      s.rd R.CRN_CFG_PEER = u.rd R.CRN_CFG_PEER → u.canTake = true → u.on R.CRN_CFG_AUTO_TAKE = true →
      completes (.resign port c) s (fun t =>
        t.rd R.CRN_EVT_RESIGN = min (u.rd R.CRN_EVT_RESIGN + 1) 4294967295 ∧ t.rd R.CRN_HEAD_ROLE = roleTaking ∧
        sameElse u t [R.CRN_EVT_RESIGN, R.CRN_HEAD_ROLE])) ∧
    (∀ ok, ok = (s.on R.FLD_STATE_VALID && foldCrcOk (s.readFold (s.rd R.FLD_STATE_SLOT))) → s.wf = true → s.rd R.CRN_HEAD_ROLE = roleTaking →
      s.auth.fold.checking = true → s.termRecord < 4294967295 →
      completes .foldCheckDone s (fun t =>
        (∀ r ∈ s.protRings, t.masters r = true ∧ t.term r = s.termRecord + 1) ∧ t.termRecord = s.termRecord + 1 ∧
        t.rd R.FLD_STATE_VALID = b2n ok ∧ t.rd R.FLD_STATE_NOFOLD = b2n (!ok) ∧
        t.rd R.CRN_HEAD_ROLE = roleTaking ∧ t.auth.fold.taking = true)) ∧
    (s.rd R.CRN_HEAD_ROLE = roleTaking → s.auth.fold.checking = true → 4294967295 ≤ s.termRecord → s.enabled .CRN 0 = true →
      completes .foldCheckDone s (fun t =>
        t.rd R.CRN_HEAD_ROLE = roleResigned ∧ t.rd R.CRN_HEAD_REASON = (if s.rd R.CRN_HEAD_REASON = 0 then 7 else s.rd R.CRN_HEAD_REASON) ∧
        t.termRecord = s.termRecord ∧ t.auth.fold.checking = false ∧ ∀ q, q < 12 → t.masters q = false)) ∧
    (s.rd R.CRN_HEAD_ROLE = roleTaking → s.auth.fold.taking = true →
      completes .takeoverComplete s (fun t =>
        t.rd R.CRN_HEAD_ROLE = roleActive ∧ t.auth.fold.taking = false ∧
        (s.rd R.FLD_STATE_NOFOLD = 1 → t.rd R.CRN_EVT_TAKE = min (s.rd R.CRN_EVT_TAKE + 1) 4294967295)))

/-! ### The Fold (R322 to R324) -/

/-- R322 to R324: COMMIT and the period start a capture on an active head, and a COMMIT that finds one running is held; a capture that software
disturbed begins again; a clean one takes the next number and the slot that does not hold the acknowledged Fold, and is shipped; its ACK
ends the shipment; the fourth failure ends it too; VERIFY clears VALID of a Fold that is not correct. -/
def Obligations.FoldCaptureAndShipping : Prop :=
  ∀ s : State, s.build = .head →
    (s.foldActive = true → s.ship = shIdle → s.parked 12 = false →
      completes .foldPeriod s (fun t => t.ship = shCapture ∧ t.auth.fold.restarts = 0 ∧ sameElse s t [R.FLD_STATE_SHIP]) ∧
      ∀ path, s.reaches path R.FLD_CMD_COMMIT .set →
        completes (.foldCommit path .set) s (fun t => t.ship = shCapture ∧ sameElse s t ([R.FLD_STATE_SHIP] ++ calFlds))) ∧
    (∀ path, s.foldActive = true → s.ship ≠ shIdle → s.rd R.FLD_STATE_HELD = 0 → s.reaches path R.FLD_CMD_COMMIT .set →
      completes (.foldCommit path .set) s (fun t => t.rd R.FLD_STATE_HELD = 1 ∧ sameElse s t ([R.FLD_STATE_HELD] ++ calFlds))) ∧
    (s.ship = shCapture → s.auth.fold.dirty = true → s.auth.fold.restarts < 4 →
      completes .foldCaptureDone s (fun t =>
        t.auth.fold.restarts = s.auth.fold.restarts + 1 ∧ t.auth.fold.dirty = false ∧ t.ship = shCapture ∧ sameElse s t [])) ∧
    (s.ship = shCapture → s.auth.fold.dirty = false →
      completes .foldCaptureDone s (fun t =>
        t.rd R.FLD_SEQ_SEQ = (s.rd R.FLD_SEQ_SEQ + 1) % 4294967296 ∧ t.rd R.FLD_STATE_SLOT = (if s.auth.fold.ackSlot = some 0 then 1 else 0) ∧
        t.rd R.FLD_STATE_VALID = 1 ∧ t.ship = shShipping ∧ t.auth.fold.image = s.foldImage ((s.rd R.FLD_SEQ_SEQ + 1) % 4294967296))) ∧
    (∀ port c u, c.cls = clsControl → c.typ = tFoldAck → s.receive port c = (true, u) → u.ship = shWait → pn c 0 4 = u.rd R.FLD_SEQ_SEQ →
      u.rd R.FLD_STATE_HELD = 0 →
      completes (.foldAck port c) s (fun t =>
        t.ship = shIdle ∧ t.rd R.FLD_ACKED_SEQ = pn c 0 4 ∧ t.rd R.FLD_EVT_SHIPPED = min (u.rd R.FLD_EVT_SHIPPED + 1) 4294967295 ∧
        t.auth.fold.ackSlot = some (u.rd R.FLD_STATE_SLOT) ∧ sameElse u t [R.FLD_STATE_SHIP, R.FLD_ACKED_SEQ, R.FLD_EVT_SHIPPED])) ∧
    (∀ port c u, c.cls = clsControl → c.typ = tFoldNack → s.receive port c = (true, u) → u.ship = shWait → pn c 0 4 = u.rd R.FLD_SEQ_SEQ →
      u.auth.fold.retries < 3 →
      completes (.foldNack port c) s (fun t => t.ship = shShipping ∧ t.auth.fold.retries = u.auth.fold.retries + 1)) ∧
    (s.ship = shWait → 3 ≤ s.auth.fold.retries → s.rd R.FLD_STATE_HELD = 0 →
      completes .foldAckTimeout s (fun t => t.ship = shIdle ∧ t.rd R.FLD_EVT_NACK = min (s.rd R.FLD_EVT_NACK + 1) 4294967295)) ∧
    (∀ path, s.reaches path R.FLD_CMD_VERIFY .set → s.rd R.FLD_CMD_VERIFY = 0 →
      completes (.foldVerify path .set) s (fun t => t.rd R.FLD_CMD_VERIFY = 1 ∧ sameElse s t ([R.FLD_CMD_VERIFY] ++ calFlds))) ∧
    (s.rd R.FLD_CMD_VERIFY = 1 → s.rd R.FLD_STATE_VALID = 1 →
      completes .foldVerifyDone s (fun t =>
        t.rd R.FLD_CMD_VERIFY = 0 ∧ t.rd R.FLD_STATE_VALID = b2n (foldCrcOk (s.readFold (s.rd R.FLD_STATE_SLOT))) ∧
        sameElse s t [R.FLD_CMD_VERIFY, R.FLD_STATE_VALID])) ∧
    ∀ port c u, c.cls = clsControl → c.typ = tFoldData → s.receive port c = (true, u) → u.enabled .FLD 0 = true →
      u.rd R.CRN_HEAD_ROLE = roleStandby → u.rd R.FLD_CMD_VERIFY = 0 → u.ship = shIdle → pn c 4 4 = 0 →
      min 240 (pn c 8 4) < foldLen (takePad (c.payload.drop 16) (min 240 (pn c 8 4))) →
      64 ≤ foldLen (takePad (c.payload.drop 16) (min 240 (pn c 8 4))) →
      foldLen (takePad (c.payload.drop 16) (min 240 (pn c 8 4))) ≤ foldMax →
      completes (.foldData port c) s (fun t =>
        t.ship = shReceiving ∧ t.auth.fold.rx = [(0, takePad (c.payload.drop 16) (min 240 (pn c 8 4)))] ∧ t.auth.fold.rxSeq = pn c 0 4 ∧
        sameElse u t [R.FLD_STATE_SHIP])

/-! ### The host and the Spur (R104, R337, R346, R348) -/

/-- R104, R332, R333, R336, R337, R346, R348: host memory reached over the Spur is read and written by the lead head alone; a read of it that times out is
counted and answered with an error; an answer's parts are kept until they are all there, and then are the data of the descriptor that asked; a
DOORBELL posts its index; a vector that its entry of the MSI-X table masks is not sent and is pending, and goes out once nothing masks it; while
MSI-X is disabled it is neither sent nor pending (the model's choice, log entry 132: R343 has no mask); a configuration request is retried until the boot is over, for 10 ms, and then reads and writes the function's fields;
links show what they are. -/
def Obligations.HostAndSpur : Prop :=
  ∀ (q : Nat) (c : Cell) (s : State), s.build = .head → q < 4 →
    (c.cls = clsControl → s.receive (24 + q) c = (true, s) → s.rd R.CRN_HEAD_ROLE ≠ roleStandby →
      (∀ data id, c.typ = tHostRd → s.hostOpen = true → 1 ≤ pn c 8 4 → pn c 8 4 ≤ 240 → s.spurRoute (nodeHead c.src) = some id →
        completes (.hostRd (24 + q) c data .ok) s (fun t =>
          t.out = .hostRead 1 c.aux (pn c 0 8) (pn c 8 4) (s.cfgVal 1 .relaxed = 1) :: s.out ∧
          sameElse s t [] ∧ ∃ x : Cell, (t.port id).q1 = (s.port id).q1 ++ [{ cell := x, stomp := false }] ∧ x.typ = tHostCpl ∧ x.dest = c.src ∧
            x.aux = c.aux ∧ x.payload = natLE 0 4 ++ natLE (pn c 8 4) 4 ++ natLE 0 8 ++ takePad data (pn c 8 4)) ∧
        (s.cfgVal 1 .ctoOff ≠ 1 →
          completes (.hostRd (24 + q) c data .timeout) s (fun t =>
            t.rd R.HST_EVT_DMA_CTO = min (s.rd R.HST_EVT_DMA_CTO + 1) 4294967295 ∧ sameElse s t [R.HST_EVT_DMA_CTO] ∧
            ∃ x : Cell, (t.port id).q1 = (s.port id).q1 ++ [{ cell := x, stomp := false }] ∧ x.typ = tHostCpl ∧ x.dest = c.src ∧
              x.aux = c.aux ∧ pb x 8 % 2 = 1))) ∧
      (∀ data how, c.typ = tHostRd → s.isLead = false → completes (.hostRd (24 + q) c data how) s (fun t => t = s)) ∧
      (c.typ = tHostCpl → s.host.reads.find? (fun r => r.tag = c.aux) = none → completes (.hostCpl (24 + q) c) s (fun t => t = s)) ∧
      (∀ r, c.typ = tHostCpl → pb c 8 % 2 = 0 → s.host.reads.find? (fun r => r.tag = c.aux) = some r →
        ((s.host.cpls.filter (fun p => p.1 = c.aux)).foldl (fun n p => n + p.2.2.2.length) 0 + min 240 (pn c 4 4) < r.len →
          completes (.hostCpl (24 + q) c) s (fun t =>
            t.host = { s.host with cpls := s.host.cpls ++ [(c.aux, pn c 0 4, false, takePad (c.payload.drop 16) (min 240 (pn c 4 4)))] } ∧
            t.out = s.out ∧ sameElse s t [])) ∧
        (∀ j l, s.host.cpls = [] → r.len ≤ min 240 (pn c 4 4) → r.fetch = false → s.jobsOf r.ch = j :: l → (∀ k ∈ l, k.idx ≠ r.idx) → j.idx = r.idx →
          (∀ k ∈ j :: l, s.wantsData r.ch k = false) →
          completes (.hostCpl (24 + q) c) s (fun t =>
            (t.jobsOf r.ch).head? =
              some { j with got := j.got ++ [(r.off, assemble r.len [(pn c 0 4, takePad (c.payload.drop 16) (min 240 (pn c 4 4)))])] } ∧
            t.host.cpls = [] ∧ sameElse s t [R.SPR_EVT_NOROUTE]))) ∧
      (c.typ = tHostWr →
        completes (.hostWr (24 + q) c) s (fun t =>
          t = if s.hostOpen then s.emit (.hostWrite (pn c 0 8) (takePad (c.payload.drop 16) (min 240 (pn c 8 4)))) else s)) ∧
      (c.typ = tDoorbell → pn c 0 2 < 16 →
        completes (.doorbell (24 + q) c) s (fun t =>
          t.rd (R.DMA_CH_IDX_PROD (pn c 0 2)) = pn c 2 2 ∧
          sameElse s t [R.DMA_CH_IDX_PROD (pn c 0 2), R.DMA_CH_STATE_RUN (pn c 0 2), R.SPR_EVT_NOROUTE]))) ∧
    (∀ fn, fn < 2 → s.pins.perstLow = false →
      (s.stage ≠ stRunFw → s.stage ≠ stRecovery → s.nowNs < s.boot.roseNs + 10000000 →
        ∀ d, completes (.configurationRequest fn d) s (fun t => t = s.emit .retry)) ∧
      (s.stage = stRunFw ∨ s.stage = stRecovery ∨ s.boot.roseNs + 10000000 ≤ s.nowNs →
        (∀ r, completes (.configurationRequest fn (.read r)) s (fun t => t = s.emit (.config fn (s.cfgRead fn r)))) ∧
        (s.host.d3.contains fn = false →
          completes (.configurationRequest fn (.write .power 3)) s (fun t =>
            t.host.d3.contains fn = true ∧ t.out = .config fn 0 :: s.out ∧ sameElse s t [])) ∧
        ∀ n v, barSize fn n ≠ 0 →
          completes (.configurationRequest fn (.write (.bar n) v)) s (fun t =>
            t.cfgRead fn (.bar n) = v % 18446744073709551616 / barSize fn n * barSize fn n + 4 ∧ sameElse s t []))) ∧
    (∀ v b, v < 16 → s.cfgVal 0 .msixEnable = 0 → (s.putRecord v b).host.pba = s.host.pba ∧ (s.putRecord v b).out.length = s.out.length + 1) ∧
    (∀ v, v < 64 → s.pins.perstLow = false → s.stage = stRunFw → s.cfgVal 0 .msixEnable = 1 → s.msixDword 0 (16 * v + 12) % 2 = 0 → s.host.pba = [v] →
      completes (.configurationRequest 0 (.write .msixMask 0)) s (fun t =>
        t.out = .config 0 0 :: .msix 0 v :: s.out ∧ t.host.pba = [] ∧ sameElse s t [])) ∧
    (∀ v b, v < 16 → s.cfgVal 0 .msixEnable = 1 → s.masked 0 (48 + v) = true →
      (∃ l, (s.putRecord v b).out = .hostWrite (s.rd (R.HST_EVQ_BASE_LO_ADDR v) * 64 + s.rd (R.HST_EVQ_BASE_HI_ADDR v) * 4294967296 +
          32 * (s.rd (R.HST_EVQ_IDX_PROD v) % s.queueSize v)) l :: s.out) ∧
      (s.host.holdoff.contains v = false → (s.putRecord v b).host.pba.contains (48 + v) = true) ∧
      (s.host.holdoff.contains v = true → s.host.owed.contains v = true →
        s.rd (R.HST_EVQ_IDX_PROD v) ≠ s.rd (R.HST_EVQ_IDX_CONS v) →
        completes (.evqHoldoffExpire v) s (fun t => t.out = s.out ∧ t.host.pba.contains (48 + v) = true ∧ sameElse s t []))) ∧
    (∀ st speed l1ss, st ≤ 4 → speed ≤ 5 → l1ss ≤ 2 → s.pins.perstLow = false → s.stage ≠ stNoref →
      completes (.pcieLinkState st speed 8 l1ss) s (fun t =>
        t.rd R.HST_LINK_STATE = st ∧ t.rd R.HST_LINK_SPEED = speed ∧ t.rd R.HST_LINK_WIDTH = 8 ∧ t.rd R.HST_LINK_L1SS = l1ss ∧
        sameElse s t [R.HST_LINK_STATE, R.HST_LINK_SPEED, R.HST_LINK_WIDTH, R.HST_LINK_L1SS])) ∧
    ∀ p block fec up, s.ethOn p = true →
      completes (.sidePortLink p block fec up) s (fun t =>
        t.rd (R.ETHP_STATE_LINK p) = b2n up ∧ t.rd (R.ETHP_STATE_BLOCK_LOCK p) = b2n block ∧
        t.rd (R.ETHP_STATE_FEC_LOCK p) = b2n (fec && s.rd (R.ETHP_CFG_FEC p) ≠ 0))

/-! ### Side ports (R348 to R356) -/

/-- R49, R349 to R356: each side port time-stamps every PTP event message it receives; a frame with a bad FCS is dropped and counted; one whose destination is this device's other port leaves there; a frame of one
cell leaves its port; the control-packet doorbells keep their index, and a posted slot is sent; the PTP client passes from LISTEN to UNLOCKED
with an Announce of its domain, is LOCKED by 16 good Syncs in a row, and falls back to LISTEN without Announces, which a frame master that follows PTP
shows as PTP_LOSS. -/
def Obligations.SidePorts : Prop :=
  ∀ (p : Nat) (s : State), s.ethOn p = true →
    (∀ f : EthFrame, f.fcsOk = false →
      completes (.ethFrame p f) s (fun t =>
        t.rd (R.ETHP_RX_FCS p) = min (s.rd (R.ETHP_RX_FCS p) + 1) 4294967295 ∧ t.out = s.out ∧ sameElse s t [R.ETHP_RX_FCS p])) ∧
    (∀ (f : EthFrame) (e : DtEntry), f.fcsOk = true → f.length ≤ 9216 → s.eth.ingress = [] → f.stacked = false → f.ptp = none → f.st = none →
      f.ctl = .none → f.tagged = true → s.dtFind f.da f.vid = some e → e.node ≠ 0xFFFE → s.isSelf e.node = true → e.port ≠ p →
      s.ethOn e.port = true → s.rd (R.ETHP_STATE_LINK e.port) = 1 → s.rd (R.ETHP_CFG_UNTAG e.port) = 0 →
      completes (.ethFrame p f) s (fun t =>
        t.out = .frame e.port f.bytes :: s.out ∧ t.rd (R.ETHP_RX_FRAMES p) = min (s.rd (R.ETHP_RX_FRAMES p) + 1) 4294967295 ∧
        t.rd (R.ETHP_TX_FRAMES e.port) = min (s.rd (R.ETHP_TX_FRAMES e.port) + 1) 4294967295 ∧
        sameElse s t [R.ETHP_RX_FRAMES p, R.ETHP_TX_FRAMES e.port])) ∧
    (∀ id c, c.cls = clsBest → c.typ = 0 → s.asleep id = false → s.frameMine id c = true → c.aux = 3 → pb c 2 % 2 = p → s.eth.reasm = [] →
      s.rd (R.ETHP_STATE_LINK p) = 1 → s.rd (R.ETHP_CFG_UNTAG p) = 0 →
      completes (.frame id c) s (fun t =>
        t.out = .frame p (takePad (c.payload.drop 8) (min 248 (pn c 0 2))) :: s.out ∧ sameElse s t [R.ETHP_TX_FRAMES p])) ∧
    (∀ idx, s.build = .head → s.pins.perstLow = false → s.host.d3 = [] →
      completes (.cpRxDoorbell idx 15) s (fun t => t.bellAt 0 cpRxBell = idx % 65536 ∧ sameElse s t []) ∧
      ∀ x : CpSlot, s.cpOn = true → x.port = p → s.rd (R.ETHP_STATE_LINK p) = 1 → s.rd (R.ETHP_CFG_UNTAG p) = 0 →
        x.ended = .ok → vectorOpen s 0 0 = true → idx = s.rd R.ETH_CP_IDX_TX_CONS + 1 → idx < 65536 →
        completes (.cpTxDoorbell idx 15 [x]) s (fun t =>
          (∃ tag, t.out = [.msix 0 0, .frame p (takePad x.bytes x.length)] ++
            ((pieces (min 4096 (128 * 2 ^ s.cfgVal 0 .maxRead)) 2048).reverse.map (fun q =>
              .hostRead 0 tag (s.rd R.ETH_CP_TX_LO_ADDR * 2048 + s.rd R.ETH_CP_TX_HI_ADDR * 4294967296 +
                2048 * (s.rd R.ETH_CP_IDX_TX_CONS % 2 ^ (s.rd R.ETH_CP_CFG_TX_SIZE + 4)) + q.1) q.2 (s.cfgVal 0 .relaxed = 1))) ++ s.out) ∧
          t.rd R.ETH_CP_IDX_TX_CONS = idx ∧
          t.bellAt 0 cpTxBell = idx ∧ sameElse s t [R.ETH_CP_IDX_TX_CONS, R.ETHP_TX_FRAMES p])) ∧
    (∀ d (ofs : Int) (m : PtpMessage), m = .event ∨ m = .sync d ofs →
      completes (.ptpMessage p m) s (fun t =>
        Sparse.look t.eth.rxStamps p 0 = s.stampAt p ∧
        (s.rd R.ETH_PTP_CFG_EN = 0 ∨ p ≠ s.ptpPort → t.out = s.out ∧ t.eth.txStamps = s.eth.txStamps ∧ sameElse s t []))) ∧
    (s.rd R.ETH_PTP_CFG_EN = 1 → p = s.ptpPort →
      (s.rd R.ETH_PTP_STATE_STATE = ptpListen →
        completes (.ptpMessage p (.announce (s.rd R.ETH_PTP_CFG_DOMAIN))) s (fun t =>
          t.rd R.ETH_PTP_STATE_STATE = ptpUnlocked ∧ sameElse s t [R.ETH_PTP_STATE_STATE])) ∧
      (∀ d (ofs : Int), d ≠ s.rd R.ETH_PTP_CFG_DOMAIN →
        completes (.ptpMessage p (.announce d)) s (fun t => t = s) ∧
        completes (.ptpMessage p (.sync d ofs)) s (fun t =>
          t.eth.syncs = s.eth.syncs ∧ t.eth.ptpBase = s.eth.ptpBase ∧ t.eth.ptpRate = s.eth.ptpRate ∧ sameElse s t [])) ∧
      (∀ ofs : Int, s.rd R.ETH_PTP_STATE_STATE = ptpUnlocked → ofs.natAbs ≤ 100 →
        completes (.ptpMessage p (.sync (s.rd R.ETH_PTP_CFG_DOMAIN) ofs)) s (fun t =>
          t.rdI R.ETH_PTP_OFS_OFS = ofs ∧ t.eth.syncs = min 16 (s.eth.syncs + 1) ∧
          t.rd R.ETH_PTP_STATE_STATE = (if 15 ≤ s.eth.syncs then ptpLocked else ptpUnlocked) ∧
          sameElse s t [R.ETH_PTP_OFS_OFS, R.ETH_PTP_STATE_STATE]))) ∧
    (ptpUnlocked ≤ s.rd R.ETH_PTP_STATE_STATE →
      completes .ptpAnnounceTimeout s (fun t =>
        t.rd R.ETH_PTP_STATE_STATE = ptpListen ∧ t.rd R.ETH_EVT_PTP_LOSS = min (s.rd R.ETH_EVT_PTP_LOSS + 1) 4294967295 ∧ t.eth.syncs = 0 ∧
        (s.epState = epMaster → s.on R.EPC_CFG_PTP = true →
          t.rd R.EPC_STATE_PTP_LOSS = 1 ∧ t.rd R.EPC_EVT_PTP_LOSS = min (s.rd R.EPC_EVT_PTP_LOSS + 1) 4294967295) ∧
        sameElse s t ([R.ETH_PTP_STATE_STATE, R.ETH_EVT_PTP_LOSS] ++
          if s.epState = epMaster ∧ s.on R.EPC_CFG_PTP = true then [R.EPC_STATE_PTP_LOSS, R.EPC_EVT_PTP_LOSS] else [])))

/-! ### The management port (R359 to R361) -/

/-- R359 to R361: a write is carried out after its last byte and acknowledged; one with a wrong PEC writes nothing, is counted and NACKed; a
read answers with its dwords and the PEC, if that is enabled, and with 0xFF beyond, for as many bytes as the host clocks; SCL held low for 30 ms releases the bus. In Valley the port holds SCL and the
transaction, which goes on when the device is up; a wake that takes too long is NACKed. R96: from the start of a reset the port takes no part. -/
def Obligations.ManagementPort : Prop :=
  ∀ s : State, 8 ≤ s.rd R.MGT_STATE_ADDR → s.rd R.MGT_STATE_ADDR < 120 → s.pstate = pSummit ∨ s.pstate = pShoulder → s.boot.phase ≠ .held →
    (∀ a data, s.eng.pwr.stretch = false → s.build = .tile → s.wf = true → 0x120000 ≤ a → a < 0x128000 → a % 4 = 0 → s.busError .mgt true a 1 15 = none →
      data.length = 4 → s.rd R.MGT_CFG_PEC_EN = 0 →
      completes (.mgtWrite a 1 data none) s (fun t =>
        t.rd32 .window a = leNat data ∧ t.out = .mgtAck :: s.out ∧ t.rd R.MGT_STATE_LAST = mlOk ∧
        t.rd R.MGT_EVT_TRANS = min (s.rd R.MGT_EVT_TRANS + 1) 4294967295 ∧
        (∀ f, f.key ≠ R.MGT_STATE_LAST.key → f.key ≠ R.MGT_EVT_TRANS.key → t.rd f = s.rd f) ∧
        ∀ k, (k < Space.window.key a ∨ Space.window.key a + 4 ≤ k) → memGet t.mem k = memGet s.mem k)) ∧
    (∀ a n data pec, s.eng.pwr.stretch = false → a < 2097152 → n < 256 → s.busError .mgt true a n (16 ^ n - 1) = none → data.length = 4 * n → s.rd R.MGT_CFG_PEC_EN = 1 →
      pec ≠ BitVec.ofNat 8 (crc8 (s.mgtHead a n ++ data)) →
      completes (.mgtWrite a n data (some pec)) s (fun t =>
        t.out = .mgtNack :: s.out ∧ t.rd R.MGT_EVT_PEC = min (s.rd R.MGT_EVT_PEC + 1) 4294967295 ∧ t.rd R.MGT_STATE_LAST = mlPec ∧
        sameElse s t [R.MGT_EVT_PEC, R.MGT_STATE_LAST])) ∧
    (∀ a n, s.eng.pwr.stretch = false → a < 2097152 → s.busError .mgt false a 1 15 = none →
      completes (.mgtRead a { count := 1, clocked := n }) s (fun t =>
        ∃ d : List Byte, t.out = .mgtData d :: s.out ∧ d.length = n ∧
          (∀ i, i < n → i < 4 → d.getD i 0 = (bytesOf [BitVec.ofNat 32 (s.readDword .mgt (a / 4 * 4)).1]).getD i 0) ∧
          (∀ i, i < n → 5 ≤ i → d.getD i 0 = 255) ∧ (4 < n → s.rd R.MGT_CFG_PEC_EN = 0 → d.getD 4 0 = 255) ∧ t.rd R.MGT_STATE_LAST = mlOk ∧
          sameElse s t [R.MGT_STATE_LAST, R.MGT_EVT_TRANS])) ∧
    (s.rd R.MGT_CFG_TMO_EN = 1 →
      completes .mgtSclTimeout s (fun t =>
        t.out = .mgtRelease :: s.out ∧ t.rd R.MGT_EVT_TIMEOUT = min (s.rd R.MGT_EVT_TIMEOUT + 1) 4294967295 ∧ t.rd R.MGT_STATE_LAST = mlTimeout ∧
        sameElse s t [R.MGT_EVT_TIMEOUT, R.MGT_STATE_LAST])) ∧
    (s.eng.pwr.stretch = true → s.bus.isOpen = false →
      completes .mgtWakeTimeout s (fun t =>
        t.out = [.mgtNack, .mgtRelease] ++ s.out ∧ t.rd R.MGT_EVT_WAKE_NACK = min (s.rd R.MGT_EVT_WAKE_NACK + 1) 4294967295 ∧
        t.rd R.MGT_STATE_LAST = mlWake ∧ t.eng.pwr.stretch = false ∧ sameElse s t [R.MGT_EVT_WAKE_NACK, R.MGT_STATE_LAST])) ∧
    (∀ a, s.eng.pwr.stretch = true → s.bus.isOpen = true → s.rd R.MGT_CFG_PEC_EN = 0 → a < 2097152 → s.busError .mgt false a 1 15 = none →
      s.eng.pwr.mgt = some { write := false, addr := a, count := 1, data := [], pec := none, clocked := 5 } →
      completes .mgtWakeTimeout s (fun t =>
        t.out = .mgtData (bytesOf [BitVec.ofNat 32 (s.readDword .mgt (a / 4 * 4)).1] ++ [255]) :: s.out ∧ t.rd R.MGT_STATE_LAST = mlOk ∧
        t.eng.pwr.stretch = false ∧ t.eng.pwr.mgt = none ∧ sameElse s t [R.MGT_STATE_LAST, R.MGT_EVT_TRANS])) ∧
    (∀ (u : State) a data pec, u.boot.phase = .held →
      completes (.mgtRead a { count := 1, clocked := 5 }) u (fun t => t = u) ∧ completes (.mgtWrite a 1 data pec) u (fun t => t = u)) ∧
    ∀ u : State, u.rd R.MGT_STATE_ADDR = s.rd R.MGT_STATE_ADDR → u.boot.phase ≠ .held → u.pstate = pValley → u.pphase = ppWaking → u.eng.pwr.up = false →
      u.rd R.PWR_STATE_STRANDED = 0 → u.eng.pwr.stretch = false →
      ∀ a n, a < 16777216 → completes (.mgtRead a { count := 1, clocked := n }) u (fun t =>
        t.eng.pwr.stretch = true ∧ t.eng.pwr.mgt = some { write := false, addr := a, count := 1, data := [], pec := none, clocked := n } ∧ t.out = u.out ∧
        sameElse u t [])

/-! ### DRAM (R363 to R382, R400) -/

/-- R364 to R366, R373 to R375: a request that its channel does not serve gets an error response; a read that hits an open row of an idle
channel on which no refresh is due at top priority or under way is issued at once, with the bytes that the request found (the model's choice, log entry 125); one
that comes while a refresh blocks the channel waits; a
clean burst delivers its bytes, a corrected one too, and is counted; an uncorrectable one is read again and then answered with an error response. That a burst read again
which link ECC corrects counts as a retry that succeeded is the model's choice (log entry 183). -/
def Obligations.DramRequests : Prop :=
  ∀ (r : DramReq) (j a : Nat) (s : State), r.requester ≤ 8 → r.addr % dramSize s.build = a → chanOf s.build a = j →
    (r.requester ∉ [1, 2, 7] → s.chServes j = false →
      completes (.dramRequest r) s (fun t =>
        t.rd (R.DRC_CH_EVT_ERRRSP j) = min (s.rd (R.DRC_CH_EVT_ERRRSP j) + 1) 4294967295 ∧ t.out = .dramErr r.requester a :: s.out ∧
        sameElse s t [R.DRC_CH_EVT_ERRRSP j])) ∧
    (s.enabled .DRC (j / 2) = true → s.chState j = dcReady → s.chIdle j = true → (s.dch j).hit s.build { r with addr := a } = true →
      s.refTop j = false →
      (s.refBlocks j = true → r.write = false →
        completes (.dramRequest r) s (fun t =>
          t.out = s.out ∧ (t.dch j).flight = none ∧ sameElse s t [] ∧
          (t.dch j).reads.map (fun q => q.req) = [{ r with addr := a, data := s.rdBytes .dram (a / 32 * 32) 32 }])) ∧
      (s.refBlocks j = false → r.write = false →
        completes (.dramRequest r) s (fun t =>
          (t.dch j).flight = some { r with addr := a, data := s.rdBytes .dram (a / 32 * 32) 32 } ∧ t.out = .dramCmd j "RD" a :: s.out ∧ sameElse s t [])) ∧
      (s.refBlocks j = false → r.write = true → s.wf = true → r.data.length = 32 →
        completes (.dramRequest r) s (fun t =>
          t.chIdle j = true ∧ t.out = .dramCmd j "WR" a :: s.out ∧ t.rdBytes .dram (a / 32 * 32) 32 = r.data ∧
          ∀ f, t.rd f = s.rd f))) ∧
    ((s.dch j).flight = some r → (s.dch j).reads = [] → (s.dch j).writes = [] → (s.dch j).held = [] →
      ((s.dch j).again = false →
        completes (.dramReadDone j .clean) s (fun t =>
          t.out = .dramData r.requester r.addr r.data :: s.out ∧ t.chIdle j = true ∧ sameElse s t []) ∧
        completes (.dramReadDone j .uncorrectable) s (fun t =>
          (t.dch j).again = true ∧ (t.dch j).flight = some r ∧ t.out = .dramCmd j "RD" r.addr :: s.out ∧ sameElse s t [])) ∧
      completes (.dramReadDone j .corrected) s (fun t =>
        t.rd (R.DRC_CH_EVT_CE j) = min (s.rd (R.DRC_CH_EVT_CE j) + 1) 4294967295 ∧
        t.rd (R.DRC_CH_EVT_RETRY_OK j) =
          (if (s.dch j).again = true then min (s.rd (R.DRC_CH_EVT_RETRY_OK j) + 1) 4294967295 else s.rd (R.DRC_CH_EVT_RETRY_OK j)) ∧
        t.out = .dramData r.requester r.addr r.data :: s.out ∧ t.chIdle j = true ∧ sameElse s t [R.DRC_CH_EVT_CE j, R.DRC_CH_EVT_RETRY_OK j]) ∧
      ((s.dch j).again = true →
        completes (.dramReadDone j .clean) s (fun t =>
          t.rd (R.DRC_CH_EVT_RETRY_OK j) = min (s.rd (R.DRC_CH_EVT_RETRY_OK j) + 1) 4294967295 ∧
          t.out = .dramData r.requester r.addr r.data :: s.out ∧ t.chIdle j = true ∧ sameElse s t [R.DRC_CH_EVT_RETRY_OK j])) ∧
      ((s.dch j).again = true → r.requester ∉ [1, 2, 7] → (s.dch j).ues.length + 1 < s.rd (R.DRC_QCFG_UE_LIMIT (j / 2)) →
        completes (.dramReadDone j .uncorrectable) s (fun t =>
          t.rd (R.DRC_CH_EVT_UE j) = min (s.rd (R.DRC_CH_EVT_UE j) + 1) 4294967295 ∧
          t.rd (R.DRC_CH_EVT_ERRRSP j) = min (s.rd (R.DRC_CH_EVT_ERRRSP j) + 1) 4294967295 ∧
          t.out = .dramErr r.requester r.addr :: s.out ∧ t.chIdle j = true ∧
          sameElse s t [R.DRC_CH_EVT_UE j, R.DRC_CH_EVT_ERRRSP j])) ∧
      ((s.dch j).again = true → s.rd (R.DRC_QCFG_UE_LIMIT (j / 2)) = 1 → 1 ≤ s.rd (R.DRC_QCFG_UE_WIN (j / 2)) → s.chState j ≠ dcQuar →
        completes (.dramReadDone j .uncorrectable) s (fun t => t.chState j = dcQuar ∧ t.rd (R.DRC_CH_STATE_QCAUSE j) = 1)))

/-- R366 to R371, R379, R400: each tREFI owes one refresh more, up to 15, but for the one at which a return to 1x takes effect; an owed refresh is issued
on an idle channel, is postponed while the channel holds a real-time request and the limit is kept, and is issued for a COMMIT that waits, which it
takes; it blocks the channel for its time; the second of two that follow each other back to back counts the run (which two those are: log entry 127); MR4 is kept, a request for 2x refreshes all that is owed first; the end of the refresh window clears the activation counts and the throttles,
in self-refresh too; an idle channel in Shoulder goes to self-refresh. -/
def Obligations.DramRefresh : Prop :=
  ∀ (j : Nat) (s : State), j < channels s.build →
    ((s.chState j = dcReady ∨ s.chState j = dcTraining) →
      ((s.dch j).slow = false →
        completes (.trefi j) s (fun t =>
          t.rd (R.DRC_CH_STATE_OWED j) = min 15 (s.rd (R.DRC_CH_STATE_OWED j) + 1) ∧ sameElse s t [R.DRC_CH_STATE_OWED j])) ∧
      ((s.dch j).slow = true →
        completes (.trefi j) s (fun t =>
          t.rd (R.DRC_CH_STATE_RATE j) = 0 ∧ (t.dch j).slow = false ∧ sameElse s t [R.DRC_CH_STATE_RATE j])) ∧
      ((s.dch j).holdsRt = true → s.refTop j = false → (s.dch j).commitWaits = false →
        completes (.refreshIssue j) s (fun t => t = s)) ∧
      (∀ n, s.rd (R.DRC_CH_STATE_OWED j) = n + 1 → n < 15 → s.chIdle j = true → (s.dch j).commitWaits = false → (s.dch j).burst ≠ 1 →
        completes (.refreshIssue j) s (fun t =>
          t.rd (R.DRC_CH_STATE_OWED j) = n ∧ (t.dch j).rows = [] ∧ t.out = .dramCmd j "REFab" 0 :: s.out ∧
          (t.dch j).refFrom = max s.nowNs (s.dch j).refTo ∧
          (t.dch j).refTo = max s.nowNs (s.dch j).refTo + (match s.build with | .head => 380 | .tile => 280) ∧
          (t.dch j).chain = t.refTop j ∧
          sameElse s t [R.DRC_CH_STATE_OWED j])) ∧
      (∀ n, s.rd (R.DRC_CH_STATE_OWED j) = n + 1 → n < 15 → s.chIdle j = true → (s.dch j).commitWaits = false → (s.dch j).burst = 1 →
        completes (.refreshIssue j) s (fun t =>
          t.rd (R.DRC_CH_EVT_REF_BURST j) = (if s.nowNs ≤ (s.dch j).refTo ∨ (s.dch j).chain = true then min (s.rd (R.DRC_CH_EVT_REF_BURST j) + 1) 4294967295
            else s.rd (R.DRC_CH_EVT_REF_BURST j)) ∧ sameElse s t [R.DRC_CH_STATE_OWED j, R.DRC_CH_EVT_REF_BURST j])) ∧
      (∀ n, s.rd (R.DRC_CH_STATE_OWED j) = n + 1 → n < 15 → (s.dch j).commitWaits = true →
        completes (.refreshIssue j) s (fun t =>
          t.rd (R.DRC_CH_STATE_OWED j) = n ∧ (t.dch j).commitWaits = false ∧ (t.dch j).trained = true ∧ t.rd (R.DRC_CH_TRN_CMD_GO j) = 0 ∧
          bitOf (t.rd (R.DRC_STATE_TRAIN_FAIL (j / 2))) (j % 2) = false ∧
          (s.rd (R.DRC_CH_TRIAL_MISC_WCK j) < 256 → t.rd (R.DRC_CH_ACT_MISC_WCK j) = s.rd (R.DRC_CH_TRIAL_MISC_WCK j)))) ∧
      (∀ v, completes (.mr4Read j v false false) s (fun t =>
        t.rd (R.DRC_CH_MR4_MR4 j) = v % 256 ∧ t.rd (R.DRC_CH_STATE_HOT j) = 0 ∧ (t.dch j).slow = s.on (R.DRC_CH_STATE_RATE j) ∧
        sameElse s t [R.DRC_CH_MR4_MR4 j, R.DRC_CH_STATE_HOT j])) ∧
      (∀ v, s.rd (R.DRC_CH_STATE_RATE j) = 0 → s.rd (R.DRC_CH_STATE_OWED j) < 16 →
        completes (.mr4Read j v true false) s (fun t =>
          t.rd (R.DRC_CH_MR4_MR4 j) = v % 256 ∧ t.rd (R.DRC_CH_STATE_RATE j) = 1 ∧ t.rd (R.DRC_CH_STATE_OWED j) = 0))) ∧
    (s.chIdle j = true →
      completes (.refreshWindowEnd j) s (fun t =>
        (t.dch j).acts = [] ∧ (t.dch j).throttled = [] ∧ sameElse s t [R.DRC_THROTTLED_REQ (j / 2)])) ∧
    (s.pstate = pShoulder → s.enabled .DRC (j / 2) = true → s.chState j = dcReady → s.chIdle j = true → (s.dch j).op = none →
      s.rd (R.DRC_CH_STATE_OWED j) = 0 →
      completes (.selfRefreshIdle j) s (fun t =>
        t.chState j = dcSelf ∧ t.out = .dramCmd j "SRE" 0 :: s.out ∧ sameElse s t [R.DRC_CH_STATE_STATE j]))

/-- R374, R375, R377, R379, R380: a GO with an operation starts it with the settings of that moment, BUSY shows it, and its completion posts the result; CBT, WCK_LEVEL and MRW are taken
while the page is disabled; the bursts of an operation on a quarantined channel get error responses, each counted, and spoil its result; COMMIT waits for the next refresh; ABANDON marks the channel, and a channel never trained is quarantined. -/
def Obligations.TrainingOperations : Prop :=
  ∀ (path : Path) (j : Nat) (s : State), j < channels s.build →
    (s.reaches path (R.DRC_CH_TRN_CMD_GO j) .base → s.rd (R.DRC_CH_TRN_CMD_GO j) = 0 → s.dramQuiet →
      (∀ p ∈ [(1, Instr.pointRd path .base j), (2, Instr.pointWr path .base j), (3, Instr.cbt path .base j), (4, Instr.wckLevel path .base j),
          (5, Instr.mrw path .base j), (6, Instr.mrr path .base j)],
        (p.1 = 1 ∨ p.1 = 2 ∨ p.1 = 6 ∨ s.enabled .DRC (j / 2) = false) → s.chState j ≠ dcQuar ∨ 3 ≤ p.1 →
        completes p.2 s (fun t =>
          t.rd (R.DRC_CH_TRN_CMD_OP j) = p.1 ∧ t.rd (R.DRC_CH_TRN_CMD_GO j) = 1 ∧ t.rd (R.DRC_CH_TRN_RESULT_BUSY j) = 1 ∧
          (t.dch j).op = some { op := p.1, mr := s.rd (R.DRC_CH_TRN_MR_ADDR j) * 256 + s.rd (R.DRC_CH_TRN_MR_DATA j),
                                base := s.rd (R.DRC_CH_TRN_SCRATCH_BASE j) * 4096, bursts := s.rd (R.DRC_CH_TRN_CFG_BURSTS j),
                                pattern := s.rd (R.DRC_CH_TRN_CFG_PATTERN j), bad := false } ∧
          sameElse s t ([R.DRC_CH_TRN_CMD_OP j, R.DRC_CH_TRN_CMD_GO j, R.DRC_CH_TRN_RESULT_BUSY j, R.DRC_CH_STATE_STATE j] ++ drcFlds ++ calFlds))) ∧
      (∀ p ∈ [(1, Instr.pointRd path .base j), (2, Instr.pointWr path .base j)], s.chState j = dcQuar →
        completes p.2 s (fun t =>
          t.rd (R.DRC_CH_TRN_CMD_OP j) = p.1 ∧ t.rd (R.DRC_CH_TRN_CMD_GO j) = 1 ∧ t.rd (R.DRC_CH_TRN_RESULT_BUSY j) = 1 ∧
          (t.dch j).op.map (fun o : HelperOp => (o.op, o.bad)) = some (p.1, decide (0 < s.rd (R.DRC_CH_TRN_CFG_BURSTS j))) ∧
          t.rd (R.DRC_CH_EVT_ERRRSP j) = min (s.rd (R.DRC_CH_EVT_ERRRSP j) + 2 * s.rd (R.DRC_CH_TRN_CFG_BURSTS j)) 4294967295 ∧
          sameElse s t ([R.DRC_CH_TRN_CMD_OP j, R.DRC_CH_TRN_CMD_GO j, R.DRC_CH_TRN_RESULT_BUSY j, R.DRC_CH_EVT_ERRRSP j] ++ calFlds))) ∧
      (∀ p ∈ [Instr.cbt path .base j, Instr.wckLevel path .base j, Instr.mrw path .base j], s.enabled .DRC (j / 2) = true →
        completes p s (fun t =>
          t.rd (R.DRC_CH_TRN_CMD_GO j) = 0 ∧ (t.dch j).op = (s.dch j).op ∧ t.rd (R.IGN_REASON (Blk.DRC.pg (j / 2))) = 17 ∧
          t.rd (R.EVT_CFG_IGN (Blk.DRC.pg (j / 2))) = min (s.rd (R.EVT_CFG_IGN (Blk.DRC.pg (j / 2))) + 1) 4294967295)) ∧
      (s.chState j ≠ dcQuar →
        completes (.trainCommit path .base j) s (fun t =>
          (t.dch j).commitWaits = true ∧ t.rd (R.DRC_CH_TRN_CMD_GO j) = 1 ∧ t.rd (R.DRC_CH_TRN_RESULT_BUSY j) = 1)) ∧
      ((s.dch j).trained = true →
        completes (.abandon path .base j) s (fun t =>
          bitOf (t.rd (R.DRC_STATE_TRAIN_FAIL (j / 2))) (j % 2) = true ∧ t.chState j = s.chState j ∧
          sameElse s t ([R.DRC_CH_TRN_CMD_OP j, R.DRC_STATE_TRAIN_FAIL (j / 2)] ++ calFlds))) ∧
      ((s.dch j).trained = false → completes (.abandon path .base j) s (fun t => t.chState j = dcQuar))) ∧
    ∀ (o : HelperOp) (op : Nat) (fail : BitVec 16) (data : BitVec 8), (s.dch j).op = some o → o.op = op → o.bad = false → s.chState j ≠ dcQuar →
      completes (.trainPointDone j fail data) s (fun t =>
        t.rd (R.DRC_CH_TRN_CMD_GO j) = 0 ∧ t.rd (R.DRC_CH_TRN_RESULT_BUSY j) = 0 ∧ (t.dch j).op = none ∧
        (op = 1 ∨ op = 2 → t.rd (R.DRC_CH_TRN_RESULT_FAIL j) = fail.toNat) ∧
        (op = 3 → t.rd (R.DRC_CH_TRN_RESULT_FAIL j) = fail.toNat % 128) ∧ (op = 4 → t.rd (R.DRC_CH_TRN_RESULT_FAIL j) = fail.toNat % 4) ∧
        (op = 6 → t.rd (R.DRC_CH_TRN_RESULT_DATA j) = data.toNat ∧ Sparse.get (t.dch j).mrs (o.mr / 256) = some data.toNat) ∧
        ∀ f, (∀ g ∈ [R.DRC_CH_TRN_CMD_GO j, R.DRC_CH_TRN_RESULT_BUSY j, R.DRC_CH_TRN_RESULT_FAIL j, R.DRC_CH_TRN_RESULT_DATA j], f.key ≠ g.key) →
          t.rd f = s.rd f)

/-! ### Temperature and self-calibration (R383 to R396) -/

/-- R384 to R386: a good conversion is the sensor's reading; the fourth slot in a row without a result is a FAULT, which the fourth good
conversion in a row ends; HOT follows a reading at the limit; in Valley nothing converts. -/
def Obligations.SensorConversions : Prop :=
  ∀ (n : Nat) (v : Int) (s : State), n < sensorCount s.build → -220 ≤ v → v ≤ 600 →
    (s.pstate = pValley → completes (.sensorConversion n (some v)) s (fun t => t = s)) ∧
    (s.pstate ≠ pValley →
      (s.sensorFault n = false ∨ 3 ≤ (s.sensor n).good →
        completes (.sensorConversion n (some v)) s (fun t =>
          t.rdI (R.THM_S_T n) = v ∧ t.rd (R.THM_S_VALID n) = 1 ∧ t.sensorFault n = false ∧ (n < 4 → v ≤ t.rdI R.THM_MAX_CTRL) ∧
          (s.build = .head →
            sameElse s t [R.THM_S_T n, R.THM_S_VALID n, R.THM_STATUS_FAULT, R.THM_STATUS_DIS, R.THM_STATUS_HOT, R.THM_MAX_CTRL, R.THM_MAX_SINK,
              R.THM_EVT_HOT]))) ∧
      (s.sensorFault n = true → (s.sensor n).good < 3 →
        completes (.sensorConversion n (some v)) s (fun t =>
          t.rd (R.THM_S_T n) = s.rd (R.THM_S_T n) ∧ t.sensorFault n = true ∧ (t.sensor n).good = (s.sensor n).good + 1)) ∧
      (s.sensorFault n = false → (s.sensor n).missed = 3 →
        completes (.sensorConversion n none) s (fun t =>
          t.sensorFault n = true ∧ t.rd R.THM_EVT_FAULT = min (s.rd R.THM_EVT_FAULT + 1) 4294967295 ∧
          t.rd (R.THM_S_T n) = s.rd (R.THM_S_T n))) ∧
      (s.sensorFault n = false → (s.sensor n).missed < 3 →
        completes (.sensorConversion n none) s (fun t => t.sensorFault n = false ∧ (t.sensor n).missed = (s.sensor n).missed + 1)) ∧
      (s.build = .head → s.sensorFault n = false → s.enabled .THM 0 = true → (4 * s.rd R.THM_CFG_HOT_LIM : Nat) ≤ v → s.rd R.THM_STATUS_HOT = 0 →
        completes (.sensorConversion n (some v)) s (fun t =>
          t.rd R.THM_STATUS_HOT = 1 ∧ t.rd R.THM_EVT_HOT = min (s.rd R.THM_EVT_HOT + 1) 4294967295)))

/-- The key of an item of a calibration run: 64 delays, 8 thresholds, 12 comparators and 2 dead times (R387). -/
def calItem (key : Nat) : Bool :=
  (key / 100 = 0 && decide (key % 100 < 64)) || (key / 100 = 1 && decide (key % 100 < 8)) || (key / 100 = 2 && decide (key % 100 < 12)) ||
    (key / 100 = 3 && decide (key % 100 < 2))

/-- What an item holds after a gap of APPLY: one step of its kind nearer to its result, 4 for a comparator and 1 for the others, or on a first run the
result (R387, R393, R394). -/
def calNext (s : State) (key : Nat) (v : Int) : Int :=
  if s.rd R.CAL_STATE_FIRST = 1 then v
  else s.calHeld (key / 100) (key % 100) +
    clampI (if key / 100 = 2 then -4 else -1) (if key / 100 = 2 then 4 else 1) (v - s.calHeld (key / 100) (key % 100))

/-- R388 to R395: RUN asks for a run and ABORT ends one; a run begins in a frame gap with the slices of what is covered; a slice adds its result;
CHECK rejects a run with a result out of its limits, records the item, and leaves RUN for the next gap; APPLY moves each item of every kind, up or down, by
one step of its kind at most in a gap, on a first run to its result at once, and the run completes when every item has its result; a run whose coverage is lost
is abandoned. -/
def Obligations.SelfCalibration : Prop :=
  ∀ s : State, s.build = .tile →
    (∀ path, s.reaches path R.CAL_CMD_RUN .set →
      (s.calRuns = false → s.rd R.CAL_CMD_RUN = 0 →
        completes (.calRun path .set) s (fun t => t.rd R.CAL_CMD_RUN = 1 ∧ t.calDue = true ∧ sameElse s t [R.CAL_CMD_RUN])) ∧
      (s.calRuns = true →
        completes (.calAbort path .set) s (fun t =>
          t.rd R.CAL_STATE_PHASE = cpIdle ∧ t.rd R.CAL_CMD_RUN = 0 ∧ t.rd R.CAL_EVT_ABORT = min (s.rd R.CAL_EVT_ABORT + 1) 4294967295 ∧
          sameElse s t [R.CAL_STATE_PHASE, R.CAL_CMD_RUN, R.CAL_EVT_ABORT]))) ∧
    (∀ (m : Int) e l hs, hs = (List.range 2).filter s.halfCovered → s.calRuns = false → s.rd R.CAL_CMD_RUN = 1 → s.running .CAL 0 = true → s.eng.cal.ended = false →
      s.sliceTime hs = true → s.calSlices hs ((List.range 6).filter s.railCovered) = e :: l → l ≠ [] → l.length < 65535 →
      completes (.calSlice m) s (fun t =>
        t.rd R.CAL_STATE_PHASE = cpMeasure ∧ t.rd R.CAL_PROGRESS_TOTAL = l.length + 1 ∧ t.rd R.CAL_PROGRESS_DONE = 1 ∧ t.eng.cal.slices = l ∧
        sameElse s t [R.CAL_STATE_PHASE, R.CAL_PROGRESS_TOTAL, R.CAL_PROGRESS_DONE])) ∧
    (s.enabled .CAL 0 = true → s.eng.cal.halves.all s.halfCovered = true → s.eng.cal.rails.all s.railCovered = true →
      s.sliceTime s.eng.cal.halves = true →
      (∀ (m : Int) k i l, s.calPhase = cpMeasure → s.eng.cal.slices = (k, i) :: l → l ≠ [] → s.rd R.CAL_PROGRESS_DONE < 65535 →
        completes (.calSlice m) s (fun t =>
          t.eng.cal.slices = l ∧ Sparse.get t.eng.cal.results (calKey k i) = some (s.calResult k i m) ∧
          t.rd R.CAL_PROGRESS_DONE = s.rd R.CAL_PROGRESS_DONE + 1 ∧ sameElse s t [R.CAL_PROGRESS_DONE])) ∧
      (∀ (m : Int) k i, s.calPhase = cpMeasure → s.eng.cal.slices = [(k, i)] → s.rd R.CAL_PROGRESS_DONE < 65535 →
        completes (.calSlice m) s (fun t =>
          t.eng.cal.slices = [] ∧ t.rd R.CAL_STATE_PHASE = cpCheck ∧ t.rd R.CAL_PROGRESS_DONE = s.rd R.CAL_PROGRESS_DONE + 1 ∧
          sameElse s t [R.CAL_PROGRESS_DONE, R.CAL_STATE_PHASE])) ∧
      (∀ key cause, s.calPhase = cpCheck → s.calFault s.eng.cal.results = some (key, cause) → cause < 4 → key < 400 →
        completes .calApply s (fun t =>
          t.rd R.CAL_STATE_PHASE = cpIdle ∧ t.rd R.CAL_CMD_RUN = s.rd R.CAL_CMD_RUN ∧ t.eng.cal.ended = true ∧ t.rd R.CAL_LAST_REJECT_CAUSE = cause ∧
          t.rd R.CAL_LAST_REJECT_KIND = key / 100 ∧ t.rd R.CAL_LAST_REJECT_ITEM = key % 100 ∧
          t.rd R.CAL_EVT_REJECT = min (s.rd R.CAL_EVT_REJECT + 1) 4294967295 ∧
          sameElse s t [R.CAL_STATE_PHASE, R.CAL_LAST_REJECT_CAUSE, R.CAL_LAST_REJECT_KIND, R.CAL_LAST_REJECT_ITEM, R.CAL_EVT_REJECT])) ∧
      (s.calPhase = cpApply → s.eng.cal.opened = true → completes .calApply s (fun t => t = s)) ∧
      (s.calPhase = cpApply → s.eng.cal.opened = false → (s.eng.cal.results.map Prod.fst).Nodup → (∀ e ∈ s.eng.cal.snap, e.1 < 8) →
        (∀ e ∈ s.eng.cal.results, calItem e.1 = true ∧ (calWindow (e.1 / 100) (e.1 % 100)).1 ≤ e.2 ∧ e.2 ≤ (calWindow (e.1 / 100) (e.1 % 100)).2) →
        completes .calApply s (fun t =>
          (∀ e ∈ s.eng.cal.results, t.calHeld (e.1 / 100) (e.1 % 100) = calNext s e.1 e.2) ∧
          ((∀ e ∈ s.eng.cal.results, calNext s e.1 e.2 = e.2) →
            t.rd R.CAL_STATE_PHASE = cpIdle ∧ t.rd R.CAL_CMD_RUN = 0 ∧ t.rd R.CAL_STATE_FIRST = 0 ∧
            t.rd R.CAL_EVT_RUN = min (s.rd R.CAL_EVT_RUN + 1) 4294967295 ∧ t.eng.cal.results = []) ∧
          ((∃ e ∈ s.eng.cal.results, calNext s e.1 e.2 ≠ e.2) →
            t.rd R.CAL_STATE_PHASE = cpApply ∧ t.eng.cal.results = s.eng.cal.results ∧ t.eng.cal.opened = true ∧
            sameElse s t (s.eng.cal.results.map (fun e => calField (e.1 / 100) (e.1 % 100)))))) ∧
      (∀ g v, s.calPhase = cpApply → s.eng.cal.opened = false → s.eng.cal.results = [(g, v)] → g < 64 → 0 ≤ v → v < 64 → s.rd R.CAL_STATE_FIRST = 0 →
        s.rd (tdlyF (g / 32) (g % 32)) < 64 →
        ((v - s.rd (tdlyF (g / 32) (g % 32))).natAbs ≤ 1 → s.epochNo < 4294967296 → (∀ e ∈ s.eng.cal.snap, e.1 < 8) →
          completes .calApply s (fun t =>
            (t.rd (tdlyF (g / 32) (g % 32)) : Int) = v ∧ t.rd R.CAL_STATE_PHASE = cpIdle ∧ t.rd R.CAL_CMD_RUN = 0 ∧
            t.rd R.CAL_LAST_EPOCH_EPOCH = s.epochNo ∧ t.rd R.CAL_EVT_RUN = min (s.rd R.CAL_EVT_RUN + 1) 4294967295)) ∧
        (1 < v - s.rd (tdlyF (g / 32) (g % 32)) →
          completes .calApply s (fun t =>
            t.rd (tdlyF (g / 32) (g % 32)) = s.rd (tdlyF (g / 32) (g % 32)) + 1 ∧ t.rd R.CAL_STATE_PHASE = cpApply ∧
            sameElse s t [tdlyF (g / 32) (g % 32)])))) ∧
    (s.calRuns = true → s.enabled .CAL 0 = false →
      completes .calApply s (fun t =>
        t.rd R.CAL_STATE_PHASE = cpIdle ∧ t.rd R.CAL_EVT_ABORT = min (s.rd R.CAL_EVT_ABORT + 1) 4294967295 ∧
        sameElse s t [R.CAL_STATE_PHASE, R.CAL_CMD_RUN, R.CAL_EVT_ABORT]))

/-! ### Power (R397 to R415, R423, R425) -/

/-- The block of a step of the handshake accepts (R405's table); `a`: what the outside sees of the receive lanes and of DRAM. -/
def stepAccepts (s : State) (a : ParkAnswer) (n : Nat) : Prop :=
  match n with
  | 1 => ∀ k, k < 16 → ∀ e ∈ (s.src k).sends, e.2.active = false ∧ s.waitsOn e.1 (s.streamOf k) = false
  | 6 => ∀ g, g < 4 → s.genEn g = true → s.genState g ≠ tsMoving
  | 7 => s.ptarget = pShoulder → ∀ h, h < 2 → s.on (R.SCN_FB_CUR_SRC h) = false ∧ (s.on (R.SCN_FB_CUR_PENDING h) = true → s.on (R.SCN_FB_SRC h) = false)
  | 11 => s.eth.egress = []
  | 12 => s.ship ≠ shCapture ∧ s.ship ≠ shShipping ∧ s.ship ≠ shWait
  | 14 => s.ptarget = pShoulder ∨ a.rxActive = false
  | 15 => s.pins.perstLow = true ∨ s.ptarget ≠ pValley ∧ s.rd R.HST_LINK_L1SS = 2
  | 16 => (s.ptarget = pValley → s.imageValid = true) ∧ a.busy = false ∧ s.dramBusy = false
  | _ => True

/-- The block of a step delays (R405's table). -/
def stepDelays (s : State) (a : ParkAnswer) (n : Nat) : Prop :=
  match n with
  | 1 => ∃ k < 16, ∃ e ∈ (s.src k).sends, e.2.active = true ∨ s.waitsOn e.1 (s.streamOf k) = true
  | 6 => ∃ g < 4, s.genEn g = true ∧ s.genState g = tsMoving
  | 11 => s.eth.egress ≠ []
  | 12 => s.ship = shCapture ∨ s.ship = shShipping ∨ s.ship = shWait
  | 14 => s.ptarget ≠ pShoulder ∧ a.rxActive = true
  | 16 => (s.ptarget = pValley → s.imageValid = true) ∧ (a.busy = true ∨ s.dramBusy = true)
  | _ => False

/-- The reason with which the block of a step refuses at once (R405's table). -/
def stepRefusal (s : State) (n reason : Nat) : Prop :=
  match n with
  | 7 => s.ptarget = pShoulder ∧ reason = prDram ∧
      ∃ h < 2, s.on (R.SCN_FB_CUR_SRC h) = true ∨ s.on (R.SCN_FB_CUR_PENDING h) = true ∧ s.on (R.SCN_FB_SRC h) = true
  | 15 => s.pins.perstLow = false ∧ reason = prLink ∧ (s.ptarget = pValley ∨ s.rd R.HST_LINK_L1SS ≠ 2)
  | 16 => s.ptarget = pValley ∧ reason = prImage ∧ s.imageValid = false
  | _ => False

/-- The block of a step has work of its current unit to end before it is parked: DMA its 4 KiB, LYR its capture, PRS its epoch, DRN its run
(R405). -/
def stepWinds (s : State) (n : Nat) : Prop :=
  match n with
  | 2 => s.dmaBusy = true
  | 3 => s.build = .tile ∧ s.epcRuns = true ∧ ∃ h < 2, s.running .LYR h = true
  | 4 => s.build = .tile ∧ s.epcRuns = true ∧ ∃ h < 2, s.running .PRS h = true
  | 5 => s.build = .tile ∧ s.coreGated = false ∧ ∃ h < 2, (s.darn h).running = true
  | _ => False

/-- What a step does beside marking itself parked (R405's table): rails' gates low, the calibration run abandoned, transmit directions to SLEEP or
OFF, DRAM to self-refresh or deep sleep, the PLLs stopped; a step without an effect of its own changes only the fields `fs` of the transition. -/
def stepEffect (s t : State) (n : Nat) (fs : List Fld) : Prop :=
  match n with
  | 9 => t.build = .tile → ∀ q, q < 6 → (t.chop q).phase = 0
  | 10 => t.calRuns = false
  | 13 => ∀ id ∈ allPorts s.build, isSpur id = true → s.portOn id = true → ∀ k ∈ s.portLanes id,
      t.rd (R.LNE_STATE_TXPS k) = (if s.ptarget = pValley then 3 else 2)
  | 14 => s.ptarget ≠ pShoulder → ∀ id ∈ allPorts s.build, isSpur id = false → s.portOn id = true → ∀ k ∈ s.portLanes id,
      t.rd (R.LNE_STATE_TXPS k) = (if s.ptarget = pValley then 3 else 2)
  | 16 => ∀ j, j < channels s.build → s.chState j = dcReady → t.chState j = (if s.ptarget = pValley then dcDeep else dcSelf)
  | 17 => t.rd R.CLK_SEL_CUR = (if s.rd R.CLK_SEL_CUR = curFallback then curFallback else curRc) ∧ t.rd R.CLK_PLL_ROOT_LOCK = 0 ∧ t.rd R.CLK_PLL_DRAM_LOCK = 0 ∧ t.rd R.CLK_PLL_ETH_LOCK = 0 ∧
      t.rd R.CLK_PLL_LANE_LOCK = 0
  | _ => sameElse s t (fs ++ calFlds)

/-- PWR_PARKED after an entry has gone from step `n` to step `m`: the steps between that apply to the build and the target and whose blocks are all
stopped have accepted at once (R405); in Shoulder the steps after the fifth leave their blocks going. -/
def passedSteps (s t : State) (target n m : Nat) : Prop :=
  ∀ k, n < k → k < m → k < 18 →
    t.parked k = (s.parked k || (stepApplies s.build target k && s.stepStopped k && decide (target ≠ pShoulder ∨ k ≤ 5)))

/-- A refused entry (R405, R407): recorded and counted, and rolled back to Summit. -/
def entryRefused (s t : State) (typ reason step : Nat) : Prop :=
  t.rd R.PWR_LAST_REFUSAL_TYPE = typ ∧ t.rd R.PWR_LAST_REFUSAL_REASON = reason ∧ t.rd R.PWR_LAST_REFUSAL_STEP = step ∧
  t.rd R.PWR_LAST_REFUSAL_TARGET = s.ptarget % 4 ∧ t.rd R.PWR_EVT_REFUSE = min (s.rd R.PWR_EVT_REFUSE + 1) 4294967295 ∧
  t.pstate = pSummit ∧ t.pphase = ppRollback ∧ t.pstep = 0 ∧ t.rd R.PWR_CMD_GO = 0 ∧ t.rd R.PWR_PARKED_STEPS = 0

/-- R404 to R408: GO starts an entry at its first step, from Summit or from Shoulder; one while a transition runs, or within HOLDOFF of the last refusal, is ignored; at each of the
17 steps the block, if it is not WEDGED, accepts and is parked with the step's effect, first ending the work of its current unit, or delays, up to its limit, or
refuses, as R405's table says; a step whose blocks are all stopped accepts at once; a refused entry is recorded and rolls back to Summit; behind the last step that applies the entry commits, counted,
with the epoch recorded and in Valley the rails dropped, but an active level wake source refuses it with WAKE_PENDING (what counts as active: R409); Shoulder ends on GO with Summit. -/
def Obligations.PowerEntry : Prop :=
  ∀ s : State,
    (∀ path, s.reaches path R.PWR_CMD_GO .base → s.rd (R.LOCK (Blk.PWR.pg 0)) = 0 →
      (∀ n, n = 1 ∨ n = 2 ∨ n = 3 → s.pphase = ppIdle → s.eng.pwr.refusedAt = none → s.pstate = pSummit ∨ s.pstate = pShoulder ∧ n ≠ 1 →
        s.rd R.PWR_STATE_STRANDED = 0 →
        (∀ m, s.nextStep n 0 = some m →
          completes (.pwrGo path .base n) s (fun t =>
            t.pphase = ppEntering ∧ t.pstep = m ∧ t.ptarget = n ∧ t.rd R.PWR_CMD_GO = 1 ∧ t.rd R.PWR_CMD_TARGET = n ∧ t.pstate = s.pstate ∧
            passedSteps s t n 0 m ∧
            sameElse s t ([R.PWR_CMD_GO, R.PWR_CMD_TARGET, R.PWR_STATE_PHASE, R.PWR_STATE_STEP, R.PWR_PARKED_STEPS] ++ calFlds))) ∧
        (s.nextStep n 0 = none → s.wakeActive = [] → s.epochNo < 4294967296 →
          completes (.pwrGo path .base n) s (fun t =>
            t.pphase = ppCommitted ∧ t.pstate = n ∧ t.rd R.PWR_CMD_GO = 0 ∧ t.rd R.PWR_WAKE_EPOCH_EPOCH = s.epochNo ∧ passedSteps s t n 0 18))) ∧
      (s.pphase = ppIdle → s.eng.pwr.refusedAt = none → s.pstate = pShoulder →
        completes (.pwrGo path .base 0) s (fun t => t.pstate = pSummit ∧ t.pphase = ppIdle ∧ t.rd R.PWR_PARKED_STEPS = 0)) ∧
      (∀ n, n < 4 → s.pphase ≠ ppIdle →
        completes (.pwrGo path .base n) s (fun t =>
          t.pphase = s.pphase ∧ t.pstep = s.pstep ∧ t.ptarget = s.ptarget ∧ t.rd (R.IGN_REASON (Blk.PWR.pg 0)) = rBusy ∧
          t.rd (R.EVT_CFG_IGN (Blk.PWR.pg 0)) = min (s.rd (R.EVT_CFG_IGN (Blk.PWR.pg 0)) + 1) 4294967295)) ∧
      (∀ n at_, n < 4 → s.pphase = ppIdle → s.eng.pwr.refusedAt = some at_ → s.nowNs < at_ + 10000000 * s.rd R.PWR_CFG_HOLDOFF →
        completes (.pwrGo path .base n) s (fun t =>
          t.pphase = ppIdle ∧ t.pstate = s.pstate ∧ t.ptarget = s.ptarget ∧ t.rd (R.IGN_REASON (Blk.PWR.pg 0)) = 16 ∧
          t.rd (R.EVT_CFG_IGN (Blk.PWR.pg 0)) = min (s.rd (R.EVT_CFG_IGN (Blk.PWR.pg 0)) + 1) 4294967295))) ∧
    (∀ a n, s.pphase = ppEntering → s.pstep = n → 1 ≤ n → n ≤ 17 →
      ((∃ e ∈ s.stepWins n, s.run e.1 e.2 = runWedged) →
        completes (.blockPark a) s (fun t => entryRefused s t (((stepBlks n).headD .PWR).typ) prFault n)) ∧
      ((∀ e ∈ s.stepWins n, s.run e.1 e.2 ≠ runWedged) →
        (stepAccepts s a n → stepWinds s n →
          completes (.blockPark a) s (fun t => t.eng.pwr.winding = true ∧ t.pstep = n ∧ t.pphase = ppEntering ∧ sameElse s t [])) ∧
        (∀ m, stepAccepts s a n → ¬stepWinds s n → s.nextStep s.ptarget n = some m →
          completes (.blockPark a) s (fun t =>
            t.pstep = m ∧ t.pphase = ppEntering ∧ t.parked n = (s.parked n || decide (s.ptarget ≠ pShoulder ∨ n ≤ 5)) ∧
            passedSteps s t s.ptarget n m ∧ stepEffect s t n [R.PWR_STATE_STEP, R.PWR_PARKED_STEPS])) ∧
        (stepAccepts s a n → ¬stepWinds s n → s.nextStep s.ptarget n = none →
          (s.wakeSeen = none → s.epochNo < 4294967296 → s.ptarget < 4 →
            completes (.blockPark a) s (fun t =>
              t.pstate = s.ptarget ∧ t.pphase = ppCommitted ∧ t.pstep = 0 ∧ t.rd R.PWR_CMD_GO = 0 ∧
              t.parked n = (s.parked n || decide (s.ptarget ≠ pShoulder ∨ n ≤ 5)) ∧ passedSteps s t s.ptarget n 18 ∧
              t.rd R.PWR_EVT_ENTRY = min (s.rd R.PWR_EVT_ENTRY + 1) 4294967295 ∧ t.rd R.PWR_WAKE_EPOCH_EPOCH = s.epochNo ∧
              (s.ptarget = pValley → t.pins.railEn = false ∧ .pin "RAIL_EN" false ∈ t.out) ∧
              stepEffect s t n [R.PWR_STATE_STATE, R.PWR_STATE_PHASE, R.PWR_STATE_STEP, R.PWR_CMD_GO, R.PWR_PARKED_STEPS, R.PWR_EVT_ENTRY,
                R.PWR_WAKE_EPOCH_EPOCH])) ∧
          (∀ e, s.wakeSeen = some e → completes (.blockPark a) s (fun t => entryRefused s t Blk.PWR.typ prWake 0))) ∧
        (stepDelays s a n → n ≠ 14 → completes (.blockPark a) s (fun t => t = s)) ∧
        (stepDelays s a n → n = 14 →
          completes (.blockPark a) s (fun t =>
            t.pstep = 14 ∧ t.pphase = ppEntering ∧ t.parked 14 = s.parked 14 ∧ stepEffect s t 14 [])) ∧
        (∀ reason, stepRefusal s n reason →
          completes (.blockPark a) s (fun t => entryRefused s t (((stepBlks n).headD .PWR).typ) reason n))) ∧
      (a = { rxActive := false, busy := false } → s.stepWedged n = false → n = 1 ∨ n = 6 ∨ n = 12 → stepDelays s a n →
        completes .delayLimit s (fun t => entryRefused s t (((stepBlks n).headD .PWR).typ) prDelay n)) ∧
      (∀ m, n = 11 → s.stepWedged n = false → s.eth.egress ≠ [] → s.ptarget ≠ pShoulder → s.nextStep s.ptarget n = some m →
        completes .delayLimit s (fun t =>
          t.eth.egress = [] ∧ t.pstep = m ∧ t.parked 11 = true ∧ t.pphase = ppEntering ∧
          ∀ p, p < 2 → t.rd (R.ETHP_TX_DROP p) =
            min (s.rd (R.ETHP_TX_DROP p) + (s.eth.egress.filter (fun e => e.1 = p)).length) 4294967295))) ∧
    (s.pphase = ppEntering →
      (s.pstep = 16 → completes .delayLimit s (fun t => entryRefused s t Blk.DRC.typ prDelay 16)) ∧
      (s.pstep = 14 → s.ptarget ≠ pShoulder → completes .delayLimit s (fun t => entryRefused s t Blk.RING.typ prPeer 14)))

/-- The event is of an enabled wake source in a state and phase in which it counts, and no other level source is active or enabled (R409): signal
detect on a lane of an enabled port; CLKREQ_N low on a head whose link is in L1.2; the WAKE pad at the polarity of PIN_POL. -/
def onlyWake (s : State) (w : WakeSource) (lane : Nat) : Prop :=
  match w with
  | .mgt => s.rd R.PWR_WAKE_EN_MGT = 1
  | .ridge d =>
    d = true ∧ s.rd R.PWR_WAKE_EN_RIDGE = 1 ∧ s.rd R.PWR_WAKE_EN_PCIE = 0 ∧ s.rd R.PWR_WAKE_EN_PIN = 0 ∧ s.pins.detect = 0 ∧
    lane < laneCount s.build ∧ ∃ id ∈ allPorts s.build, s.portOn id = true ∧ lane ∈ s.portLanes id
  | .pcie low =>
    low = true ∧ s.build = .head ∧ s.rd R.PWR_WAKE_EN_PCIE = 1 ∧ s.rd R.PWR_WAKE_EN_RIDGE = 0 ∧ s.rd R.PWR_WAKE_EN_PIN = 0 ∧
    s.pstate = pSaddle ∧ s.rd R.HST_LINK_L1SS = 2
  | .pin high =>
    s.rd R.PWR_WAKE_EN_PIN = 1 ∧ s.rd R.PWR_WAKE_EN_RIDGE = 0 ∧ s.rd R.PWR_WAKE_EN_PCIE = 0 ∧ high = s.on R.PWR_WAKE_EN_PIN_POL

/-- R406, R409 to R413: seven CTL cycles after the commit the wake logic is armed; an enabled source that is active wakes the device, recorded, and a
level that has gone before wakes nothing; the rails' return brings Kryty up, after Valley as after a reset but with the island's registers and the
reference kept, the bus open and the root PLL starting; a failed attempt drops the rails and is tried again, and after the last the device is
Stranded. -/
def Obligations.PowerWake : Prop :=
  ∀ s : State,
    (s.pphase = ppCommitted →
      (s.wakeSeen = none →
        completes .wakeArm s (fun t => t.pphase = ppIdle ∧ t.eng.pwr.armed = true ∧ sameElse s t [R.PWR_STATE_PHASE])) ∧
      (∀ e, s.wakeSeen = some e → s.pstate = pShoulder →
        completes .wakeArm s (fun t => t.pstate = pSummit ∧ t.rd R.PWR_PARKED_STEPS = 0)) ∧
      (∀ lane, s.rd R.PWR_WAKE_EN_MGT = 1 → s.rd R.PWR_STATE_STRANDED = 0 → s.pstate ≠ pShoulder →
        completes (.wake .mgt lane) s (fun t =>
          t.rd R.PWR_EVT_EDGE_LOST = min (s.rd R.PWR_EVT_EDGE_LOST + 1) 4294967295 ∧ sameElse s t [R.PWR_EVT_EDGE_LOST])) ∧
      (∀ high lane, s.rd R.PWR_STATE_STRANDED = 0 → s.rd R.PWR_WAKE_EN_RIDGE = 0 → s.rd R.PWR_WAKE_EN_PCIE = 0 →
        high ≠ s.on R.PWR_WAKE_EN_PIN_POL →
        completes (.wake (.pin high) lane) s (fun t => t.wakeSeen = none ∧ t.pins.wakeHigh = high ∧ t.out = s.out ∧ sameElse s t []))) ∧
    (∀ w lane, lane < 64 →
      (s.rd R.PWR_WAKE_EN_MGT = 0 → completes (.wake .mgt lane) s (fun t => t = s)) ∧
      (w ≠ .mgt → s.rd R.PWR_WAKE_EN_RIDGE = 0 → s.rd R.PWR_WAKE_EN_PCIE = 0 → s.rd R.PWR_WAKE_EN_PIN = 0 →
        completes (.wake w lane) s (fun t => t.out = s.out ∧ t.boot = s.boot ∧ sameElse s t [])) ∧
      (onlyWake s w lane → s.rd R.PWR_STATE_STRANDED = 0 → s.pphase = ppIdle → s.eng.pwr.armed = true →
        (s.pstate = pSaddle ∨ s.pstate = pValley) →
        completes (.wake w lane) s (fun t =>
          t.rd R.PWR_WAKE_REC_SOURCE = wakeCode w ∧ t.rd R.PWR_WAKE_REC_LANE = (if w = .ridge true then lane else 0) ∧
          t.rd R.PWR_WAKE_REC_FROM = s.pstate ∧ t.rd R.PWR_WAKE_REC_RETRIES = 0 ∧ t.pphase = ppWaking ∧
          t.out = .pin (if s.pstate = pValley then "RAIL_EN" else "SWITCHES") true :: s.out ∧
          sameElse s t [R.PWR_WAKE_REC_SOURCE, R.PWR_WAKE_REC_LANE, R.PWR_WAKE_REC_FROM, R.PWR_WAKE_REC_RETRIES, R.PWR_WAKE_REC_STRANDED,
            R.PWR_STATE_PHASE]))) ∧
    (s.pphase = ppWaking → s.eng.pwr.up = false → s.eng.pwr.gap = false →
      (s.rd R.PWR_WAKE_REC_FROM = pSaddle → s.eng.pwr.stretch = false →
        completes (.railPgRise true) s (fun t => t.eng.pwr.up = true ∧ sameElse s t []) ∧
        completes (.railPgRise false) s (fun t => t = s)) ∧
      (s.rd R.PWR_WAKE_REC_FROM = pValley → s.wf = true → s.eng.pwr.stretch = false → s.pins.resetLow = false →
        completes (.railPgRise true) s (fun t =>
          t.boot.phase = .pllWait ∧ t.bus.isOpen = true ∧ t.rd R.BOOT_STAGE_STAGE = stKeys ∧ t.rd R.CLK_PLL_EN_ROOT_EN = 1 ∧
          t.rd R.CLK_REF_SRC = s.rd R.CLK_REF_SRC ∧
          t.pins.railPg = true ∧ t.eng.pwr.up = true ∧ t.pstate = pSummit ∧ t.rd R.PWR_STATE_IMAGE_OK = 0 ∧ t.rd R.PWR_PARKED_STEPS = 0 ∧
          t.rd R.PWR_WAKE_REC_SOURCE = s.rd R.PWR_WAKE_REC_SOURCE ∧ t.rd R.BOOT_RESET_CAUSE_CAUSE = s.rd R.BOOT_RESET_CAUSE_CAUSE ∧
          t.rd R.PWR_WAKE_EPOCH_EPOCH = s.rd R.PWR_WAKE_EPOCH_EPOCH ∧
          ∀ k, memGet t.mem k = if valleyKeeps k then memGet s.mem k else unlisted k)) ∧
      (s.rd R.PWR_STATE_STRANDED = 0 → s.eng.pwr.tries < s.rd R.PWR_CFG_RETRIES →
        completes .wakeTimeout s (fun t =>
          t.eng.pwr.gap = true ∧ t.eng.pwr.tries = s.eng.pwr.tries + 1 ∧ t.rd R.PWR_WAKE_REC_RETRIES = min 3 (s.eng.pwr.tries + 1) ∧
          t.rd R.PWR_EVT_WAKE_RETRY = min (s.rd R.PWR_EVT_WAKE_RETRY + 1) 4294967295 ∧
          t.out = .pin (if s.rd R.PWR_WAKE_REC_FROM = pValley then "RAIL_EN" else "SWITCHES") false :: s.out ∧
          sameElse s t [R.PWR_EVT_WAKE_RETRY, R.PWR_WAKE_REC_RETRIES])) ∧
      (s.rd R.PWR_CFG_RETRIES ≤ s.eng.pwr.tries →
        completes .wakeTimeout s (fun t =>
          t.pstate = pValley ∧ t.rd R.PWR_STATE_STRANDED = 1 ∧ t.rd R.PWR_WAKE_REC_STRANDED = 1 ∧ t.pphase = ppIdle ∧
          t.pins.railEn = false))) ∧
    (s.pphase = ppWaking → s.eng.pwr.gap = true →
      completes .wakeRetry s (fun t =>
        t.eng.pwr.gap = false ∧ sameElse s t [] ∧
        t.out = .pin (if s.rd R.PWR_WAKE_REC_FROM = pValley then "RAIL_EN" else "SWITCHES") true :: s.out))

/-- R403, R423, R425: RESTORE starts on an idle device whose DRAM runs and that is not Stranded, is ignored with BUSY on any other, and ends with IMAGE_OK after a correct image alone, 0 after one that is not correct; a
correct image's fields, its memory, and the LOCK of the pages it has locked are written back (its layout is the model's, log entry 104); the rails rise
and fall: a fall outside Valley turns sinks, rows and gates off and holds the device, and its return resets it. -/
def Obligations.RestoreAndSupplies : Prop :=
  ∀ s : State,
    (∀ path, s.reaches path R.PWR_CMD_RESTORE .set →
      (s.pphase = ppIdle → s.rd R.PWR_STATE_STRANDED = 0 → (∀ w < Blk.DRC.wins s.build, s.enabled .DRC w = true) →
        completes (.restore path .set) s (fun t =>
          t.rd R.PWR_CMD_RESTORE = 1 ∧ t.pphase = ppRestoring ∧
          (s.rd (R.LOCK (Blk.PWR.pg 0)) = 0 → s.rd R.PWR_CMD_TARGET < 4 →
            t.rd R.PWR_CMD_TARGET = s.rd R.PWR_CMD_TARGET ∧ sameElse s t ([R.PWR_CMD_RESTORE, R.PWR_CMD_TARGET, R.PWR_STATE_PHASE] ++ calFlds)))) ∧
      (s.pphase ≠ ppIdle ∨ (∃ w < Blk.DRC.wins s.build, s.enabled .DRC w = false) ∨ s.rd R.PWR_STATE_STRANDED = 1 →
        completes (.restore path .set) s (fun t =>
          t.pphase = s.pphase ∧ t.rd R.PWR_CMD_RESTORE = s.rd R.PWR_CMD_RESTORE ∧
          (s.rd (R.LOCK (Blk.PWR.pg 0)) = 0 → s.rd R.PWR_CMD_TARGET < 4 → t.rd (R.IGN_REASON (Blk.PWR.pg 0)) = rBusy)))) ∧
    (s.pphase = ppRestoring →
      (s.imageOk = false → s.wakeActive = [] →
        completes .restoreDone s (fun t =>
          t.pphase = ppIdle ∧ t.rd R.PWR_CMD_RESTORE = 0 ∧ t.rd R.PWR_STATE_IMAGE_OK = 0 ∧ t.cck.dirty = true ∧
          sameElse s t [R.PWR_STATE_PHASE, R.PWR_CMD_RESTORE, R.PWR_STATE_IMAGE_OK])) ∧
      (s.imageOk = true →
        completes .restoreDone s (fun t =>
          t.pphase = ppIdle ∧ t.rd R.PWR_CMD_RESTORE = 0 ∧ t.rd R.PWR_STATE_IMAGE_OK = 1 ∧ t.cck.dirty = true ∧
          (∀ (i : Nat) (l : List Fld) (f : Fld), (imagePlaces s.build)[i]? = some l → f ∈ l →
            ((winBlk (f.addr / 16384)).any (fun p => [Blk.CAL, .FLD, .SCN, .LMP, .PRS, .GPIO].contains p.1) = true → f.addr % 4096 ≠ 4 →
              t.rd f = bitsOf (s.rd32 .dram (s.imageAt + 4 * i)) f.lsb f.width) ∧
            (f.addr % 4096 = 4 → f.lsb = 1 → bitOf (s.rd32 .dram (s.imageAt + 4 * i)) 1 = true → t.rd f = 1)) ∧
          (s.wf = true → ∀ k, k < 65536 → t.rd8 .window (0x100000 + k) = s.rd8 .dram (s.imageAt + 4 * (imagePlaces s.build).length + 12288 + k))))) ∧
    (s.pins.railEn = false → s.pstate ≠ pValley →
      completes .railEnAssert s (fun t => t.pins.railEn = true ∧ t.out = .pin "RAIL_EN" true :: s.out ∧ sameElse s t [])) ∧
    (s.pstate ≠ pValley →
      (s.pins.railPg = true → completes .railPgFall s (fun t =>
        t.pins.railPg = false ∧ t.boot.phase = .held ∧ t.boot.porDue = true ∧ t.bus.isOpen = false ∧ (t.lamp 0).pulses = [] ∧ (t.lamp 1).pulses = [] ∧
        (∀ q, q < 6 → (t.chop q).phase = 0 ∧ t.rd (R.LOP_CH_PERIOD_NS q) = 0) ∧
        t.out = .pin "GATES" false :: .pin "ROWS" true :: .pin "SINKS" false :: s.out ∧ t.pphase = ppIdle ∧
        sameElse s t (R.PWR_STATE_PHASE :: (List.range 6).map R.LOP_CH_PERIOD_NS))) ∧
      (s.pphase ≠ ppWaking → s.pins.railPg = false → s.wf = true → s.eng.pwr.stretch = false → ∀ rc,
        (s.boot.porDue = true →
          completes (.railPgRise rc) s (fun t =>
            fullyReset s t ∧ t.pins.railPg = true ∧ t.boot.phase = .held ∧ t.rd R.BOOT_RESET_CAUSE_CAUSE = 1)) ∧
        (s.boot.porDue = false →
          completes (.railPgRise rc) s (fun t => t.pins.railPg = true ∧ t.boot = s.boot ∧ t.out = s.out ∧ sameElse s t [])))) ∧
    (s.pstate = pValley → s.pins.railPg = true →
      completes .railPgFall s (fun t => t.pins.railPg = false ∧ t.out = s.out ∧ t.boot = s.boot ∧ sameElse s t []))

/-! ### Scan-out and lamp drive (R191 to R233) -/

/-- The part of `n` units of a frame that subframe `j` of `eff` gets on row `r` (R200, R218). -/
def subframePart (n eff j r : Nat) : Nat := n / eff + (if (j + r) % eff < n % eff then 1 else 0)

/-- The pulse of sink `i` in a slot of subframe `j` on row `r`, for a lamp value `v`, the crossover `C`, the rail's reference code, the Traverse
scale `l` and the derating factor `d` (R199, R200, R214 to R216, R218); its current in parts of 24 mA, at most all of them. -/
def slotPulse (x : ScanHalf) (r j i v C ref l d trim delay : Nat) : Pulse :=
  { sink := i
    width := subframePart ((min v C * (x.subf * x.pulseMax * 16) + C / 2) / C) x.eff j r
    code := subframePart ((max v C * 255 * x.eff + 32767) / 65535) x.eff j r
    delay := delay
    cur := min (24 * 4092 * 65535 * 1024 * 1024 * 255)
      ((1023 + 95 * ref) * l * d * (896 + trim) * subframePart ((max v C * 255 * x.eff + 32767) / 65535) x.eff j r) }

/-- R192, R199, R200, R204, R205, R208, R214 to R216, R218, R224: a row slot sets the next row of the frame and its pulses, with REF, the Traverse
scale and the derating factor sampled at its start; each lit sink that is not forced off gets its pulse, of the width, code, delay and current
of the formulas, and no sink gets one of width 0; it publishes the sums of the slot after it, and at the last slot of a frame, with which the frame ends, zero
sums tagged GAP; a half that blanks drives nothing and publishes zero
sums; GO makes SCN_FB pending, and the latch instant, which comes at no instant while a running half has slots of its frame left, takes it and
opens the frame gap, once an epoch. -/
def Obligations.RowSlotsAndLatch : Prop :=
  ∀ s : State,
    (∀ (half : Half) (h k r : Nat), Half.no half = h → (s.scan h).next = k → (s.scan h).rowOf k = r →
      (∀ obs, s.inFrame h = false → s.calRuns = false → s.dramQuiet →
        completes (.rowSlot half obs) s (fun t => t.scan h = s.scan h ∧ t.lamp h = s.lamp h ∧ sameElse s t [])) ∧
      (∀ obs : RowObs, s.wf = true → s.inFrame h = true → s.enabled .LMP h = false → s.rd (R.SCN_FB_CUR_SRC h) = 0 → k + 1 ≤ (s.scan h).slots → k + 1 < 1024 →
        (s.scan h).rows ≤ 64 → s.calRuns = false → s.dramQuiet →
        completes (.rowSlot half obs) s (fun t =>
          (t.scan h).next = k + 1 ∧ (t.lamp h).row = none ∧ (t.lamp h).pulses = [] ∧
          t.inFrame h = decide (k + 1 < (s.scan h).slots) ∧
          (∀ c, c < 3 → t.rd32 .window (rowLoadAt (3 * h + c) + 8) = (if k + 1 < (s.scan h).slots then 0 else 33554432) ∧
            (k + 1 < (s.scan h).slots → t.rd32 .window (rowLoadAt (3 * h + c) + 12) = k + 1 + 65536 * (s.scan h).rowOf (k + 1))) ∧
          (∀ f, t.rd f = s.rd f) ∧
          ∀ a, (a < Space.window.key (rowLoadAt (3 * h)) ∨ Space.window.key (rowLoadAt (3 * h)) + 48 ≤ a) → memGet t.mem a = memGet s.mem a)) ∧
      (∀ obs : RowObs, s.wf = true → s.inFrame h = true → s.running .LMP h = true → s.lampEn = true → s.trvLost h = false → (s.lamp h).hotReq = false →
        s.scanEmits h = true → (s.scan h).late = false → s.rd (R.SCN_FB_CUR_SRC h) = 0 → s.rd (R.LMP_DIAG_CFG_DIAG_EN h) = 0 →
        obs.badPads = [] → obs.loadFail = [] → s.calRuns = false → s.dramQuiet →
        completes (.rowSlot half obs) s (fun t =>
          (t.scan h).next = k + 1 ∧ (t.lamp h).row = some r ∧ (t.lamp h).refR = s.rd (R.LMP_REF_R h) ∧
          (t.lamp h).refG = s.rd (R.LMP_REF_G h) ∧ (t.lamp h).refB = s.rd (R.LMP_REF_B h) ∧
          (t.lamp h).scale = s.rd (if h = 0 then R.TRV_OUT_L_W else R.TRV_OUT_L_E) ∧
          (t.lamp h).derate = s.rd (R.LMP_DERATE_NOW_D h) ∧ (t.lamp h).dark = false ∧
          (∀ p ∈ (t.lamp h).pulses, p.sink < 512 ∧ p.width ≠ 0 ∧ s.forcedOff h p.sink = false ∧ s.railOf h r p.sink ≠ none) ∧
          (∀ i rail p, i < 512 → s.railOf h r i = some rail → s.forcedOff h i = false →
            p = slotPulse (s.scan h) r (k / (s.scan h).rows) i (s.rdLE (s.frontBuf h) (scanAt r i) 2) (s.rd (R.LMP_XOVER_C h))
              (if rail = 0 then s.rd (R.LMP_REF_R h) else if rail = 1 then s.rd (R.LMP_REF_G h) else s.rd (R.LMP_REF_B h))
              (s.rd (if h = 0 then R.TRV_OUT_L_W else R.TRV_OUT_L_E)) (s.rd (R.LMP_DERATE_NOW_D h)) (s.trim h i) (s.rd (tdlyF h (i / 16))) →
            (p ∈ (t.lamp h).pulses ↔ p.width ≠ 0)) ∧
          (∀ c, c < 3 → t.rd32 .window (rowLoadAt (3 * h + c) + 8) =
            if k + 1 < (s.scan h).slots then s.rowSum h (k + 1) ((s.scan h).rowOf (k + 1)) c % 33554432 else 33554432) ∧
          ∀ f, f.key ≠ (R.LMP_EVT_LINK h).key → t.rd f = s.rd f)) ∧
      ∀ path, s.reaches path (R.SCN_COMMIT_GO h) .set → s.rd (R.SCN_FB_CUR_PENDING h) = 0 →
        completes (.scnGo path .set half) s (fun t =>
          t.rd (R.SCN_COMMIT_GO h) = 1 ∧ t.rd (R.SCN_FB_CUR_PENDING h) = 1 ∧
          sameElse s t ([R.SCN_COMMIT_GO h, R.SCN_FB_CUR_PENDING h] ++ calFlds))) ∧
    ((s.build = .head ∨ s.epcRuns = false ∨ s.eng.lay.latched = true ∨ (s.scnLive 0 && s.inFrame 0 || s.scnLive 1 && s.inFrame 1) = true) → s.dramQuiet →
      completes .latchInstant s (fun t => t.eng.lay = s.eng.lay ∧ (∀ h, t.scan h = s.scan h) ∧ sameElse s t [])) ∧
    (s.build = .tile → s.epcRuns = true → s.eng.lay.latched = false → s.eng.pwr.winding = false →
      (s.scnLive 0 && s.inFrame 0 || s.scnLive 1 && s.inFrame 1) = false →
      completes .latchInstant s (fun t =>
        t.eng.lay.latched = true ∧ t.eng.lay.lastLatch = some s.epochNo ∧
        ∀ h, h < 2 → (t.scan h).gap = true ∧ (t.lamp h).row = none ∧ (t.lamp h).pulses = [] ∧
          (s.rd (R.SCN_FB_CUR_PENDING h) = 1 →
            t.rd (R.SCN_FB_CUR_PENDING h) = 0 ∧ t.rd (R.SCN_COMMIT_GO h) = 0 ∧ t.rd (R.SCN_FB_CUR_SRC h) = s.rd (R.SCN_FB_SRC h) % 2 ∧
            t.rd (R.SCN_FB_CUR_BASE h) = s.rd (R.SCN_FB_BASE h) % 1048576)))

/-- R222, R226 to R233: a probe measures its lamp, and two measurements that agree set its state; a GOOD lamp unseen for 256 frames is
UNVERIFIED again; a pair that tests shorted twice is forced off, and a restore returns forced-off sinks that show no short; a leak found
twice shows; the sink dies answer the enable check; the derating factor moves by at most 4 an update. -/
def Obligations.LampDiagnosis : Prop :=
  ∀ (half : Half) (h : Nat) (s : State), Half.no half = h →
    (∀ i r mv, s.rd (R.LMP_CTRL_PROBE_EN h) = 1 → s.rd (R.LMP_DIAG_CFG_DIAG_EN h) = 1 → s.lmpBlk h = 0 → 1 ≤ (s.scan h).next →
      (s.scan h).next ≤ (s.scan h).rows → (s.scan h).gap = false → (s.lamp h).row = some r → i < 512 → s.probeRoom h = true →
      Sparse.get (s.lamp h).probes i = none → s.probeRow h i = some r → (s.lamp h).dark = false → i / 256 ∉ (s.lamp h).dead →
      completes (.probe half i r mv) s (fun t =>
        Sparse.get (t.lamp h).probes i = some ((s.lamp h).frame, r) ∧ (t.lampRec h i r).last = some (s.sampleCode h i mv) ∧
        (t.lampRec h i r).seen = (s.lamp h).frame ∧ t.rd (R.LMP_EVT_PROBE h) = min (s.rd (R.LMP_EVT_PROBE h) + 1) 4294967295 ∧
        ((s.lampRec h i r).last = some (s.sampleCode h i mv) → ((s.rowRec h r).openOn = false ∨ s.sampleCode h i mv ≠ lsOpen) →
          (t.lampRec h i r).st = s.sampleCode h i mv) ∧
        ((s.lampRec h i r).last ≠ some (s.sampleCode h i mv) →
          (t.lampRec h i r).st = (s.lampRec h i r).st ∧ sameElse s t [R.LMP_EVT_PROBE h]))) ∧
    (∀ i r, i < 512 → s.running .LMP h = true → s.rd (R.LMP_DIAG_CFG_DIAG_EN h) = 1 → (s.lampRec h i r).st = lsGood →
      (s.unseen h i r < 256 → completes (.lampAgeOut half i r) s (fun t => t = s)) ∧
      (256 ≤ s.unseen h i r → 1 ≤ s.rd (R.LMP_CNT_B_GOOD h) → s.rd (R.LMP_CNT_B_GOOD h) ≤ 32768 → s.rd (R.LMP_CNT_B_UNVERIFIED h) < 32768 →
        completes (.lampAgeOut half i r) s (fun t =>
          (t.lampRec h i r).st = lsUnverified ∧ t.rd (R.LMP_CNT_B_GOOD h) = s.rd (R.LMP_CNT_B_GOOD h) - 1 ∧
          t.rd (R.LMP_CNT_B_UNVERIFIED h) = s.rd (R.LMP_CNT_B_UNVERIFIED h) + 1 ∧
          sameElse s t [R.LMP_CNT_B_GOOD h, R.LMP_CNT_B_UNVERIFIED h]))) ∧
    (∀ p mv, (s.running .LMP h = false ∨ s.rd (R.LMP_DIAG_CFG_NB_EN h) = 0 ∨ (s.scan h).gap = false ∨ s.pairDue h p = false) →
      completes (.pairTest half p mv) s (fun t => t = s)) ∧
    (∀ p mv, s.running .LMP h = true → s.rd (R.LMP_DIAG_CFG_NB_EN h) = 1 → (s.scan h).gap = true → s.pairDue h p = true →
      mv < s.openMv h (p / 256) →
      (Sparse.get (s.lamp h).pairs p = none →
        completes (.pairTest half p mv) s (fun t =>
          Sparse.get (t.lamp h).pairs p = some (false, some true) ∧ t.pairDue h p = false ∧ sameElse s t [])) ∧
      (Sparse.get (s.lamp h).pairs p = some (false, some true) →
        completes (.pairTest half p mv) s (fun t =>
          Sparse.get (t.lamp h).pairs p = some (true, some true) ∧ t.forcedOff h p = true ∧ t.forcedOff h (p + 1) = true ∧
          t.nbShort h p = true ∧ t.nbShort h (p + 1) = true ∧ t.rd (R.LMP_EVT_NB h) = min (s.rd (R.LMP_EVT_NB h) + 1) 4294967295 ∧
          t.rd (R.LMP_NB_LAST_SINK h) = p ∧ t.rd (R.LMP_NB_LAST_VALID h) = 1 ∧ t.rd (R.LMP_STATUS_SHORT_NB h) = 1 ∧
          ∀ i, i < 512 → i ≠ p → i ≠ p + 1 → t.forcedOff h i = s.forcedOff h i))) ∧
    (∀ path d value, d < 16 → s.reaches path (R.LMP_RESTORE_SINKS h d) .set →
      completes (.nbRestore path .set half d value) s (fun t =>
        (∀ i, i < 512 → t.forcedOff h i = (s.forcedOff h i && !(decide (i / 32 = d) && bitOf value.toNat (i % 32) && !s.nbShort h i))) ∧
        sameElse s t ([R.LMP_FORCED_SINKS h d] ++ calFlds))) ∧
    (∀ mv0 mv1, (s.lamp h).leakDone = true → completes (.leakTest half mv0 mv1) s (fun t => t = s)) ∧
    (∀ mv0 mv1, s.running .LMP h = true → s.rd (R.LMP_DIAG_CFG_ROW_EN h) = 1 → (s.scan h).gap = true → (s.lamp h).leakDone = false →
      (s.openMv h 0 < mv0 ∨ s.openMv h 1 < mv1) →
      ((s.lamp h).leakWas = true → s.rd (R.LMP_STATUS_LEAK h) = 0 →
        completes (.leakTest half mv0 mv1) s (fun t =>
          (t.lamp h).leakDone = true ∧
          t.rd (R.LMP_STATUS_LEAK h) = 1 ∧ t.rd (R.LMP_EVT_ROW h) = min (s.rd (R.LMP_EVT_ROW h) + 1) 4294967295 ∧
          t.rd (R.LMP_ROW_LAST_ROW h) = 63 ∧ t.rd (R.LMP_ROW_LAST_KIND h) = 3 ∧
          sameElse s t [R.LMP_STATUS_LEAK h, R.LMP_EVT_ROW h, R.LMP_ROW_LAST_ROW h, R.LMP_ROW_LAST_KIND h])) ∧
      ((s.lamp h).leakWas = false → completes (.leakTest half mv0 mv1) s (fun t => (t.lamp h).leakWas = true ∧ sameElse s t []))) ∧
    (∀ mv0 mv1, s.running .LMP h = true → s.rd (R.LMP_DIAG_CFG_ROW_EN h) = 1 → (s.scan h).gap = true → (s.lamp h).leakDone = false →
      mv0 ≤ s.openMv h 0 → mv1 ≤ s.openMv h 1 →
      ((s.lamp h).leakClean = 0 →
        completes (.leakTest half mv0 mv1) s (fun t => (t.lamp h).leakClean = 1 ∧ (t.lamp h).leakWas = false ∧ sameElse s t [])) ∧
      (1 ≤ (s.lamp h).leakClean →
        completes (.leakTest half mv0 mv1) s (fun t => t.rd (R.LMP_STATUS_LEAK h) = 0 ∧ sameElse s t [R.LMP_STATUS_LEAK h]))) ∧
    (s.run .LMP h = runStarting →
      completes (.sinkDieCheckDone half true true) s (fun t =>
        t.run .LMP h = runRunning ∧ t.enabled .LMP h = true ∧ sameElse s t [R.RUN (Blk.LMP.pg h), R.ENABLE (Blk.LMP.pg h)]) ∧
      ∀ b, completes (.sinkDieCheckDone half b false) s (fun t =>
        t.run .LMP h = runDisabled ∧ t.enabled .LMP h = false ∧ t.rd (R.IGN_REASON (Blk.LMP.pg h)) = 16 ∧
        t.rd (R.EVT_CFG_IGN (Blk.LMP.pg h)) = min (s.rd (R.EVT_CFG_IGN (Blk.LMP.pg h)) + 1) 4294967295)) ∧
    (∀ (v : Int) (n : Nat), s.build = .tile → s.sinkHottest = some v → 0 ≤ v → v < 1024 → s.rd (R.LMP_DERATE_KNEE 0) = s.rd (R.LMP_DERATE_KNEE 1) →
      s.rd (R.LMP_DERATE_FLOOR 0) = s.rd (R.LMP_DERATE_FLOOR 1) → s.rd (R.LMP_DERATE_FLOOR 0) < 1024 → s.rd (R.LMP_DERATE_NOW_D 0) ≤ 1024 →
      (n : Int) = s.rd (R.LMP_DERATE_NOW_D 0) + clampI (-4) 4 (derateTarget v (s.rd (R.LMP_DERATE_KNEE 0)) (s.rd (R.LMP_DERATE_FLOOR 0)) -
        s.rd (R.LMP_DERATE_NOW_D 0)) →
      completes .derateUpdate s (fun t =>
        t.rd (R.LMP_DERATE_NOW_D h) = n ∧ (t.rd (R.LMP_DERATE_NOW_TMAX h) : Int) = v ∧
        t.rd (R.LMP_STATUS_DERATING h) = b2n (decide (n < 1024)))) ∧
    (s.sinkHottest = none → completes .derateUpdate s (fun t => t = s))

/-! ### Layers and darning (R144 to R150, R168 to R190) -/

/-- R145, R147, R148, R149: COMMIT marks its layers pending and an enable waits as STARTING; TOUCH marks its layers; at the latch instant a pending
commit of a software layer is taken, its generation rises, and where its base moved the epoch is recorded as the one in which the old buffer retired.
-/
def Obligations.LayerCommits : Prop :=
  ∀ (half : Half) (h : Nat) (s : State), Half.no half = h →
    (∀ path (m : BitVec 16), s.reaches path (R.LYR_COMMIT_MASK h) .set → s.rd (R.LYR_COMMIT_MASK h) = 0 →
      completes (.lyrCommit path .set half m) s (fun t =>
        t.rd (R.LYR_COMMIT_MASK h) = m.toNat ∧
        ∀ k, k < 16 →
          t.rd (R.LYR_STATE_PENDING h k) = (if bitOf m.toNat k then 1 else s.rd (R.LYR_STATE_PENDING h k)) ∧
          (bitOf m.toNat k = false → t.rd (R.LYR_STATE_RUN h k) = s.rd (R.LYR_STATE_RUN h k)) ∧
          (bitOf m.toNat k = true → (s.layer h k).before = none →
            t.rd (R.LYR_STATE_RUN h k) =
              if s.rd (R.LYR_CTL_EN h k) = s.rd (R.LYR_STATE_EN_CUR h k) then s.rd (R.LYR_STATE_RUN h k)
              else if s.rd (R.LYR_CTL_EN h k) = 1 ∧ (s.lyRun h k = runDisabled ∨ s.lyRun h k = runDrained) then runStarting
              else if s.rd (R.LYR_CTL_EN h k) = 0 then runDraining else s.rd (R.LYR_STATE_RUN h k)))) ∧
    (∀ path (m : BitVec 16), s.reaches path (R.LYR_TOUCH_MASK h) .set → s.rd (R.LYR_TOUCH_MASK h) = 0 →
      completes (.lyrTouch path .set half m) s (fun t =>
        t.rd (R.LYR_TOUCH_MASK h) = m.toNat ∧ sameElse s t ([R.LYR_TOUCH_MASK h] ++ calFlds))) ∧
    ∀ k, k < 16 → s.build = .tile → s.epcRuns = true → s.eng.lay.latched = false → s.eng.pwr.winding = false →
      (s.scnLive 0 && s.inFrame 0 || s.scnLive 1 && s.inFrame 1) = false → bitOf (s.rd (R.LYR_COMMIT_MASK h)) k = true →
      s.rd (R.LYR_CFG_CAP_EN h k) = 0 → s.rd (R.LYR_CTL_EN h k) = 1 → s.rd (R.LYR_STATE_EN_CUR h k) = 1 → (s.layer h k).restart = false →
      (s.layer h k).base ≠ s.rd (R.LYR_BASE_BASE h k) →
      completes .latchInstant s (fun t =>
        (t.layer h k).base = s.rd (R.LYR_BASE_BASE h k) ∧ (t.layer h k).mem = s.on (R.LYR_BASE_MEM h k) ∧
        t.rd (R.LYR_STATE_PENDING h k) = 0 ∧ t.rd (R.LYR_COMMIT_MASK h) = 0 ∧ t.rd (R.LYR_STATE_PAL_CUR h k) = s.rd (R.LYR_CTL_PAL h k) % 8 ∧
        t.rd (R.LYR_RETIRED_EPOCH_EPOCH h k) = s.epc.nextNumber.getD (epochNext s.epochNo) % 4294967296 ∧
        t.rd (R.LYR_GEN_GEN h k) = (s.rd (R.LYR_GEN_GEN h k) + 1) % 4294967296)

/-- sat(0, 65535, x) of R179. -/
def sat16 (x : Int) : Int := max 0 (min 65535 x)

/-- lin[j] of R179: the curve that the lamp's entry selects, at the channel of its pixel, which is 0 outside the half window. -/
def lampLin (s : State) (h r i j : Nat) : Int :=
  (s.rdLE (.darn h (s.rd (R.DRN_BANK_CUR h))) (darnCurveAt (bitsOf (s.rd32 (.darn h (s.rd (R.DRN_BANK_CUR h))) (darnLampAt r i)) 16 3)
    (if entPixel (s.lampEnt h r i) < s.winW h * s.winH h then bitsOf (s.cb h (entPixel (s.lampEnt h r i))) (10 * j) 10 else 0)) 2 : Nat)

/-- m[p][k][j] of R179 and R175; in IDENTITY the unit matrix stands for it (R180). -/
def lampCoef (s : State) (h r i k j : Nat) : Int :=
  if s.rd (R.DRN_CFG_MODE h) = 1 then (if k = j then 16384 else 0)
  else sgn 16 (s.rdLE (.darn h (s.rd (R.DRN_BANK_CUR h))) (darnPixelAt (entPixel (s.lampEnt h r i)) + 2 * (3 * k + j)) 2)

/-- y[k] of R179, before the white share is taken out. -/
def lampY (s : State) (h r i k : Nat) : Int :=
  sat16 ((lampCoef s h r i k 0 * lampLin s h r i 0 + lampCoef s h r i k 1 * lampLin s h r i 1 + lampCoef s h r i k 2 * lampLin s h r i 2 + 8192) / 16384)

/-- The value of a lamp that carries one of the four components (R179). -/
def lampFormula (s : State) (h r i : Nat) : Int :=
  let w := min (lampY s h r i 0) (min (lampY s h r i 1) (lampY s h r i 2))
  let wx := bitOf (s.rdLE (.darn h (s.rd (R.DRN_BANK_CUR h))) (darnPixelAt (entPixel (s.lampEnt h r i)) + 18) 2) 0
  let y := if entComp (s.lampEnt h r i) = 3 then w else lampY s h r i (entComp (s.lampEnt h r i)) - (if wx then w else 0)
  sat16 (y + sgn 16 (s.rd32 (.darn h (s.rd (R.DRN_BANK_CUR h))) (darnLampAt r i)))

/-- R168 to R170, R173, R179, R187: a darning run writes the back buffer, each lamp by the formula of R179 with its pixel's matrix and its curve, and posts its clocks; without MEND_EN it shows no
entry applied and none skipped, its clocks counting the slots of the list all the same (the model's choice, log entry 58), and a reserved COMP
gives no defined value (log entry 57). R183: with MEND_EN each lamp that no entry names gains the shares of the failed lamps' values after the main
pass, saturating, and each failed lamp is 0; entries applied and slots skipped are counted. LOAD copies the image into the
inactive bank, the bytes that no channel served as 0, a dword written meanwhile excepted, and VERIFY takes its CRC; the map check lets DRN run or
names the lowest failing entry. -/
def Obligations.DarningAndBanks : Prop :=
  ∀ (half : Half) (h : Nat) (s : State), Half.no half = h →
    ((s.darn h).running = false → completes (.darnRunEnd half) s (fun t => t = s)) ∧
    (s.coreGated = true → ∀ c ∈ [Instr.darnRunEnd half, .drnLoadDone half, .drnVerifyDone half, .mapCheckDone half], completes c s (fun t => t = s)) ∧
    ((s.darn h).running = true → s.coreGated = false → s.eng.pwr.winding = false → s.wf = true → s.rd (R.DRN_CTRL_MEND_EN h) = 0 →
      completes (.darnRunEnd half) s (fun t =>
        (t.darn h).running = false ∧ (t.darn h).complete = true ∧ t.rd (R.DRN_LAST_CYCLES_CLOCKS h) = s.darnClocks h % 4294967296 ∧
        t.rd (R.DRN_MEND_STATE_APPLIED h) = 0 ∧ t.rd (R.DRN_MEND_STATE_SKIPPED h) = 0 ∧
        (∀ r i, r < 64 → i < 512 →
          t.rdLE (s.backBuf h) (scanAt r i) 2 = (s.darnLamp h r i).v % 65536 ∧
          (entComp (s.lampEnt h r i) = 7 → (s.darnLamp h r i).v = 0) ∧
          (entComp (s.lampEnt h r i) ≠ 7 → s.rd (R.DRN_CFG_MODE h) = 2 → (s.darnLamp h r i).v = s.rd (R.DRN_CFG_FLAT h)) ∧
          (entComp (s.lampEnt h r i) < 4 → s.rd (R.DRN_CFG_MODE h) ≠ 2 → ((s.darnLamp h r i).v : Int) = lampFormula s h r i)) ∧
        (∀ k, (k < (s.backBuf h).key 0 ∨ (s.backBuf h).key 0 + 65536 ≤ k) → memGet t.mem k = memGet s.mem k))) ∧
    ((s.darn h).running = true → s.coreGated = false → s.eng.pwr.winding = false → s.wf = true → s.rd (R.DRN_CTRL_MEND_EN h) = 1 →
      completes (.darnRunEnd half) s (fun t =>
        (t.darn h).running = false ∧ (t.darn h).complete = true ∧ t.rd (R.DRN_LAST_CYCLES_CLOCKS h) = s.darnClocks h % 4294967296 ∧
        t.rd (R.DRN_MEND_STATE_APPLIED h) = (s.mendEnts h).length ∧
        t.rd (R.DRN_MEND_STATE_SKIPPED h) = ((s.mendEnts h).flatMap (fun e => (mendSlots e).filter (fun n => mendTo h e n = none))).length ∧
        (∀ e ∈ s.mendEnts h, t.rdLE (s.backBuf h) (scanAt (mendRow e) (mendSink e % 512)) 2 = 0) ∧
        (∀ r i, r < 64 → i < 512 → (∀ e ∈ s.mendEnts h, ¬(mendRow e = r ∧ mendSink e % 512 = i)) →
          t.rdLE (s.backBuf h) (scanAt r i) 2 =
            min 65535 ((s.darnLamp h r i).v % 65536 + ((s.mendEnts h).flatMap (fun e => (mendSlots e).map (fun n =>
              if mendTo h e n = some (r, i) then (mendWt e n * ((s.darnLamp h (mendRow e) (mendSink e % 512)).v % 65536) + 8) / 16 else 0))).foldl
                (· + ·) 0)) ∧
        (∀ k, (k < (s.backBuf h).key 0 ∨ (s.backBuf h).key 0 + 65536 ≤ k) → memGet t.mem k = memGet s.mem k))) ∧
    (∀ path, s.reaches path (R.DRN_CMD_LOAD h) .set → s.rd (R.DRN_CMD_LOAD h) = 0 → s.rd (R.DRN_CMD_VERIFY h) = 0 →
      (s.rd (R.DRN_BANK_PENDING h) = 0 →
        completes (.drnLoad path .set half) s (fun t =>
          t.rd (R.DRN_CMD_LOAD h) = 1 ∧ t.rd (R.DRN_BANK_LOADING h) = 1 ∧
          (s.dramQuiet → ∀ f, (∀ g ∈ [R.DRN_CMD_LOAD h, R.DRN_BANK_LOADING h] ++ calFlds ++ drcFlds, f.key ≠ g.key) → t.rd f = s.rd f) ∧
          ∀ a, memGet t.mem a = memGet s.mem a)) ∧
      (s.rd (R.DRN_BANK_PENDING h) = 1 →
        completes (.drnLoad path .set half) s (fun t =>
          t.rd (R.DRN_CMD_LOAD h) = 0 ∧ t.rd (R.IGN_REASON (Blk.DRN.pg h)) = rBusy ∧
          t.rd (R.EVT_CFG_IGN (Blk.DRN.pg h)) = min (s.rd (R.EVT_CFG_IGN (Blk.DRN.pg h)) + 1) 4294967295)) ∧
      completes (.drnVerify path .set half) s (fun t =>
        t.rd (R.DRN_CMD_VERIFY h) = 1 ∧ sameElse s t ([R.DRN_CMD_VERIFY h] ++ calFlds))) ∧
    (∀ base, s.rd (R.DRN_CMD_LOAD h) = 1 → s.coreGated = false → s.rd (R.DRN_LOAD_BASE_BASE h) * 4096 = base → s.wf = true →
      completes (.drnLoadDone half) s (fun t =>
        t.rd (R.DRN_CMD_LOAD h) = 0 ∧ t.rd (R.DRN_BANK_LOADING h) = 0 ∧
        ((s.darn h).lost = [] → t.rd (R.DRN_BANK_CRC_CRC h) = crc32c (s.rdBytes .dram base darnImage) % 4294967296) ∧
        ∀ off, off < darnImage → off / 4 * 4 ∉ (s.darn h).written →
          (off / 32 ∉ (s.darn h).lost → (t.rd8 (s.idleBank h) off).toNat = Nat.land (s.rd8 .dram (base + off)).toNat (bankMask off)) ∧
          (off / 32 ∈ (s.darn h).lost → t.rd8 (s.idleBank h) off = 0))) ∧
    (s.rd (R.DRN_CMD_VERIFY h) = 1 → s.coreGated = false →
      completes (.drnVerifyDone half) s (fun t =>
        t.rd (R.DRN_CMD_VERIFY h) = 0 ∧ t.rd (R.DRN_BANK_CRC_CRC h) = crc32c (s.rdBytes (s.idleBank h) 0 darnImage) % 4294967296 ∧
        sameElse s t [R.DRN_CMD_VERIFY h, R.DRN_BANK_CRC_CRC h])) ∧
    (s.run .DRN h = runStarting → s.coreGated = false →
      ((∀ r i, r < 64 → i < 512 → entBad (s.lampEnt h r i) = false) →
        completes (.mapCheckDone half) s (fun t =>
          t.run .DRN h = runRunning ∧ t.rd (R.DRN_MAP_ERR_VALID h) = 0 ∧
          sameElse s t [R.RUN (Blk.DRN.pg h), R.DRN_MAP_ERR_VALID h])) ∧
      (∀ r i, r < 64 → i < 512 → entBad (s.lampEnt h r i) = true →
        (∀ r' i', r' < 64 → i' < 512 → 512 * r' + i' < 512 * r + i → entBad (s.lampEnt h r' i') = false) →
        completes (.mapCheckDone half) s (fun t =>
          t.run .DRN h = runDisabled ∧ t.enabled .DRN h = false ∧ t.rd (R.DRN_MAP_ERR_VALID h) = 1 ∧ t.rd (R.DRN_MAP_ERR_ROW h) = r ∧
          t.rd (R.DRN_MAP_ERR_SINK h) = 512 * h + i ∧ t.rd (R.IGN_REASON (Blk.DRN.pg h)) = 16)))

/-! ### The Press (R152 to R167) -/

/-- R155, R156, R158, R159, R161: an instruction of the press list at the program counter does what its row says and the counter goes on; a
list error is recorded and the list abandoned. -/
def Obligations.PressInstructions : Prop :=
  ∀ (half : Half) (h op o : Nat) (s : State), Half.no half = h → (s.press h).active = true → (s.press h).seqOn = true → (s.press h).wait = none →
    (s.press h).order = [] → (s.press h).pc ≤ 255 → (s.press h).count < 4096 → (s.press h).queued < 16 → s.coreGated = false →
    s.pressInstr h (s.press h).pc = op * 2 ^ 60 + o → o < 2 ^ 60 →
    (pressReserved (op * 2 ^ 60 + o) = true →
      ∀ c ∈ [Instr.pressEnd half, Instr.pressLayer half, Instr.pressOrder half, Instr.pressBlend half, Instr.pressWindow half,
          Instr.pressFlat half, Instr.pressWaitl half, Instr.pressSync half, Instr.pressJump half, Instr.pressCond half],
        completes c s (fun t =>
          t.rd (R.PRS_STATUS_ERR h) = peReserved ∧ t.rd (R.PRS_STATUS_PC h) = (s.press h).pc ∧ (t.press h).seqOn = false ∧
          (t.press h).failed = true ∧ (t.press h).queue = [] ∧ t.rd (R.PRS_EVT_LISTERR h) = min (s.rd (R.PRS_EVT_LISTERR h) + 1) 4294967295 ∧
          sameElse s t [R.PRS_STATUS_ERR h, R.PRS_STATUS_PC h, R.PRS_EVT_LISTERR h])) ∧
    (pressReserved (op * 2 ^ 60 + o) = false →
      (op = 0 → (s.press h).group = none →
        ((s.press h).queue ≠ [] →
          completes (.pressEnd half) s (fun t =>
            (t.press h).seqOn = false ∧ (t.press h).t = (s.press h).t + 1 ∧ (t.press h).complete = (s.press h).complete ∧ sameElse s t [])) ∧
        ((s.press h).queue = [] → (s.press h).failed = false → (s.press h).complete = false → (s.press h).bgDone = true →
          completes (.pressEnd half) s (fun t =>
            (t.press h).complete = true ∧
            t.rd (R.PRS_LAST_CYCLES_CLOCKS h) = max ((s.press h).t + 1) (s.press h).dp % 4294967296 ∧
            (s.running .DRN h = true → (t.darn h).running = true) ∧ sameElse s t [R.PRS_LAST_CYCLES_CLOCKS h]))) ∧
      (op = 1 → (s.press h).group = none →
        completes (.pressLayer half) s (fun t =>
          (t.press h).pc = (s.press h).pc + 1 ∧ (t.press h).issued = (s.press h).issued + 1 ∧ sameElse s t [] ∧
          ∃ x : PStep, (t.press h).queue = (s.press h).queue ++ [.step x] ∧ x.layer = o % 16 ∧ x.clip = (s.press h).clip ∧
            x.balpha = (s.press h).balpha ∧ (s.press h).t ≤ x.issue ∧ (t.press h).t = x.issue + 1 ∧
            x.mode = if bitsOf o 4 3 = 4 then (s.press h).mode else if bitsOf o 4 3 = 7 then s.rd (R.LYR_CFG_MODE h (o % 16)) else bitsOf o 4 3)) ∧
      (op = 2 → (s.press h).group = none → (s.press h).queued + (maskOrder (o % 65536) (bitsOf o 16 1)).length ≤ 16 →
        completes (.pressOrder half) s (fun t =>
          (t.press h).pc = (s.press h).pc + 1 ∧ (t.press h).order = [] ∧ sameElse s t [] ∧
          ((t.press h).queue.drop (s.press h).queue.length).map PItem.layers = (maskOrder (o % 65536) (bitsOf o 16 1)).map (fun k => [k]))) ∧
      (op = 3 → completes (.pressBlend half) s (fun t =>
        (t.press h).mode = o % 4 ∧ (t.press h).balpha = bitsOf o 16 10 ∧ (t.press h).pc = (s.press h).pc + 1 ∧
        (t.press h).t = (s.press h).t + 1 ∧ sameElse s t [])) ∧
      (op = 4 → completes (.pressWindow half) s (fun t =>
        (t.press h).pc = (s.press h).pc + 1 ∧ (t.press h).clip.x0 = bitsOf o 0 12 ∧ (t.press h).clip.y0 = bitsOf o 12 12 ∧
        (t.press h).clip.x1 = max (bitsOf o 0 12) (min (bitsOf o 0 12 + bitsOf o 24 12) (s.winW h)) ∧
        (t.press h).clip.y1 = max (bitsOf o 12 12) (min (bitsOf o 12 12 + bitsOf o 36 12) (s.winH h)) ∧ sameElse s t [])) ∧
      (op = 5 →
        ((s.press h).group = none →
          completes (.pressFlat half) s (fun t =>
            (t.press h).pc = (s.press h).pc + 1 ∧ sameElse s t [] ∧
            ∃ g : PGroup, (t.press h).group = some g ∧ g.slot = o % 4 ∧ g.n = bitsOf o 4 4 ∧ g.steps = [] ∧
              g.bottom = decide ((s.press h).issued = 0))) ∧
        (∀ g, (s.press h).group = some g →
          completes (.pressFlat half) s (fun t =>
            t.rd (R.PRS_STATUS_ERR h) = peFlat ∧ t.rd (R.PRS_STATUS_PC h) = (s.press h).pc ∧ (t.press h).failed = true))) ∧
      (op = 6 →
        ((s.press h).queue.any (fun i => i.layers.contains (o % 16)) = false →
          completes (.pressWaitl half) s (fun t => (t.press h).wait = none ∧ (t.press h).pc = (s.press h).pc + 1 ∧ sameElse s t [])) ∧
        ((s.press h).queue.any (fun i => i.layers.contains (o % 16)) = true →
          completes (.pressWaitl half) s (fun t =>
            (t.press h).wait = some (.layer (o % 16)) ∧ (t.press h).pc = (s.press h).pc ∧ sameElse s t []))) ∧
      (op = 7 →
        (s.syncPast (1 - h) = true →
          completes (.pressSync half) s (fun t => (t.press h).wait = none ∧ (t.press h).pc = (s.press h).pc + 1 ∧ sameElse s t [])) ∧
        (s.syncPast (1 - h) = false → (s.press (1 - h)).wait = none →
          completes (.pressSync half) s (fun t => (t.press h).wait = some .sync ∧ (t.press h).pc = (s.press h).pc ∧ sameElse s t []))) ∧
      (op = 8 → completes (.pressJump half) s (fun t =>
        (t.press h).pc = (if bitsOf o 8 2 = 0 ∨ bitsOf o 8 2 = 1 ∧ (s.press h).flag = true ∨ bitsOf o 8 2 = 2 ∧ (s.press h).flag = false
          then o % 256 else (s.press h).pc + 1) ∧ (t.press h).t = (s.press h).t + 2 ∧ sameElse s t [])) ∧
      (op = 9 → completes (.pressCond half) s (fun t =>
        (t.press h).flag = s.pressTest h (o % 16) (bitsOf o 8 4) ∧ (t.press h).pc = (s.press h).pc + 1 ∧ sameElse s t [])))

/-- R152, R157, R158: the datapath executes the step at the front of its queue: each pixel of the layer's window within the clip is blended, its clock
goes on by its cost and by its wait for memory, a step of a layer that is not composed only passes, and one whose memory no channel serves abandons
the list; a waiting sequencer goes on when what it waits for has come. -/
def Obligations.DatapathAndWaits : Prop :=
  ∀ (half : Half) (h : Nat) (s : State), Half.no half = h →
    (∀ n, (s.press h).queue = [] ∨ s.coreGated = true → s.dramQuiet → completes (.datapathStep half n) s (fun t => t.press h = s.press h ∧ sameElse s t [])) ∧
    (∀ x l n, (s.press h).active = true → (s.press h).seqOn = true → (s.press h).bgDone = true → s.coreGated = false → (s.press h).queue = .step x :: l →
      (∀ e ∈ s.stepSpans h x, s.dramServes e.1 e.2 = true) → s.dramQuiet →
      (s.lyComposed h x.layer = false →
        completes (.datapathStep half n) s (fun t =>
          (t.press h).queue = l ∧ (t.press h).dp = max x.issue (s.press h).dp + 1 ∧ sameElse s t [])) ∧
      (s.lyComposed h x.layer = true → x.clip.x1 ≤ s.winW h → s.wf = true →
        completes (.datapathStep half n) s (fun t =>
          (t.press h).queue = l ∧ (∀ f, (∀ g ∈ drcFlds, f.key ≠ g.key) → t.rd f = s.rd f) ∧
          (t.press h).dp = max x.issue (s.press h).dp + (((s.stepRect h x).area + 3) / 4 + 32) + (if s.stepSpans h x = [] then 0 else n) ∧
          (∀ u v, (s.stepRect h x).x0 ≤ u → u < (s.stepRect h x).x1 → (s.stepRect h x).y0 ≤ v → v < (s.stepRect h x).y1 →
            t.cb h (v * s.winW h + u) =
              packRgb (blendChan x.mode (s.srcPix h x u v).c0 (s.srcPix h x u v).a (bitsOf (s.cb h (v * s.winW h + u)) 0 10))
                (blendChan x.mode (s.srcPix h x u v).c1 (s.srcPix h x u v).a (bitsOf (s.cb h (v * s.winW h + u)) 10 10))
                (blendChan x.mode (s.srcPix h x u v).c2 (s.srcPix h x u v).a (bitsOf (s.cb h (v * s.winW h + u)) 20 10)) % 4294967296) ∧
          (∀ u v, u < s.winW h → ¬((s.stepRect h x).x0 ≤ u ∧ u < (s.stepRect h x).x1 ∧ (s.stepRect h x).y0 ≤ v ∧ v < (s.stepRect h x).y1) →
            t.cb h (v * s.winW h + u) = s.cb h (v * s.winW h + u))))) ∧
    (∀ i l n, (s.press h).active = true → s.coreGated = false → (s.press h).queue = i :: l →
      (∃ e ∈ s.itemSpans h i, s.dramServes e.2.1 e.2.2 = false) → s.dramQuiet →
      completes (.datapathStep half n) s (fun t =>
        (t.press h).failed = true ∧ (t.press h).seqOn = false ∧ (t.press h).queue = [] ∧ sameElse s t drcFlds)) ∧
    ((s.press h).wait = none → completes (.pressWaitRelease half) s (fun t => t = s)) ∧
    (∀ k, (s.press h).wait = some (.layer k) →
      ((s.press h).queue.any (fun i => i.layers.contains k) = true → completes (.pressWaitRelease half) s (fun t => t = s)) ∧
      ((s.press h).queue.any (fun i => i.layers.contains k) = false →
        completes (.pressWaitRelease half) s (fun t =>
          (t.press h).wait = none ∧ (t.press h).pc = (s.press h).pc + 1 ∧ (t.press h).queue = (s.press h).queue ∧ sameElse s t []))) ∧
    ((s.press h).wait = some .sync → (s.press (1 - h)).wait = some .sync → s.syncPast (1 - h) = false →
      completes (.pressWaitRelease half) s (fun t =>
        (t.press h).wait = none ∧ (t.press (1 - h)).wait = none ∧ (t.press h).pc = (s.press h).pc + 1 ∧
        (t.press (1 - h)).pc = (s.press (1 - h)).pc + 1 ∧ (t.press h).t = (t.press (1 - h)).t ∧ sameElse s t []))

/-! ### The loop engine (R235 to R255) -/

/-- R243, R244, R245, R247, R251: a slot's sample is due where the engine's counter, one up a CTL clock, is at its phase in its period (the model's
choice of the clocks of a block that takes commands: log entry 178); a due sample waits, or is skipped while the one before waits or runs; a run
starts with the lowest due slot, the clocks since it was due shown as its delay, its targets latched, and a change of mode or sense is a hand-over; the enable check lets LOP run from registers of zeros or names what
failed; RESTART clears halted slots. -/
def Obligations.LoopRuns : Prop :=
  ∀ s : State,
    (∀ n, n < 24 → s.lopRuns = true → s.slotOn n = true → s.halted n = false →
      s.eng.loop.c % s.rd (R.LOP_SLOT_TIME_PERIOD n) = s.rd (R.LOP_SLOT_TIME_PHASE n) → Sparse.get s.eng.loop.dueAt n ≠ some s.eng.loop.c →
      Sparse.get s.eng.loop.skipAt n ≠ some s.eng.loop.c →
      (n ∉ s.eng.loop.due → (∀ r ∈ s.eng.loop.run, r.slot ≠ n) →
        completes (.slotDue n) s (fun t =>
          t.eng.loop.due = n :: s.eng.loop.due ∧ t.eng.loop.run = s.eng.loop.run ∧ Sparse.get t.eng.loop.dueAt n = some s.eng.loop.c ∧ sameElse s t [])) ∧
      ((n ∈ s.eng.loop.due ∨ ∃ r ∈ s.eng.loop.run, r.slot = n) →
        completes (.slotDue n) s (fun t =>
          t.eng.loop.due = s.eng.loop.due ∧ t.eng.loop.run = s.eng.loop.run ∧ t.eng.loop.dueAt = s.eng.loop.dueAt ∧
          t.rd (R.LOP_SLOT_EVT_SKIP n) = min (s.rd (R.LOP_SLOT_EVT_SKIP n) + 1) 4294967295 ∧ sameElse s t [R.LOP_SLOT_EVT_SKIP n]))) ∧
    (∀ n, s.eng.loop.c % s.rd (R.LOP_SLOT_TIME_PERIOD n) ≠ s.rd (R.LOP_SLOT_TIME_PHASE n) → completes (.slotDue n) s (fun t => t = s)) ∧
    (s.lopRuns = true → s.pstate ≠ pSaddle → s.pstate ≠ pValley → s.pending = [] → ∃ t, step s = .next t ∧ t.eng.loop.c = s.eng.loop.c + 1) ∧
    (∀ d, exec (.loopRunStart d) s = exec (.loopRunStart 0) (forN d (fun _ u => u.tick) s)) ∧
    (∀ n at_ d, n < 24 → s.lopRuns = true → s.eng.loop.run = none → n ∈ s.eng.loop.due → (∀ m ∈ s.eng.loop.due, n ≤ m) →
      s.rd (R.LOP_SLOT_JIT_MAX n) < 65536 → Sparse.get s.eng.loop.dueAt n = some at_ → s.eng.loop.c = at_ + d →
      (s.railOfSlot n = none →
        completes (.loopRunStart 0) s (fun t =>
          n ∉ t.eng.loop.due ∧ t.rd (R.LOP_SLOT_JIT_LAST n) = min d 65535 ∧
          t.rd (R.LOP_SLOT_JIT_MAX n) = max (s.rd (R.LOP_SLOT_JIT_MAX n)) (min d 65535) ∧
          sameElse s t [R.LOP_SLOT_JIT_LAST n, R.LOP_SLOT_JIT_MAX n] ∧
          ∃ r : LoopRun, t.eng.loop.run = some r ∧ r.slot = n ∧ r.pc = s.slotEntry n ∧ r.handover = false ∧ r.mark = false ∧
            r.tgt = [s.rdI (R.LOP_SLOT_TGT01_LO n), s.rdI (R.LOP_SLOT_TGT01_HI n), s.rdI (R.LOP_SLOT_TGT23_LO n), s.rdI (R.LOP_SLOT_TGT23_HI n)])) ∧
      (∀ q, s.railOfSlot n = some q → n ∉ s.eng.loop.fresh →
        (s.railMode q ≠ s.rd (R.LOP_RAIL_STATE_MODE_USED q) ∨ s.railSense q ≠ s.rd (R.LOP_RAIL_STATE_SENSE_USED q)) →
        completes (.loopRunStart 0) s (fun t =>
          t.rd (R.LOP_RAIL_STATE_MODE_USED q) = s.railMode q ∧ t.rd (R.LOP_RAIL_STATE_SENSE_USED q) = s.railSense q % 2 ∧
          q ∈ t.eng.loop.handover ∧ t.rd (R.LOP_RAIL_EVT_HANDOVER q) = min (s.rd (R.LOP_RAIL_EVT_HANDOVER q) + 1) 4294967295 ∧
          ∃ r : LoopRun, t.eng.loop.run = some r ∧ r.slot = n ∧ r.handover = true ∧ r.slew = s.rd (R.LOP_RAIL_HO_SLEW q)))) ∧
    (s.run .LOP 0 = runStarting →
      (s.lopCheck = none →
        completes .lopCheckDone s (fun t =>
          t.run .LOP 0 = runRunning ∧ t.eng.loop.c = 0 ∧ t.eng.loop.regs = [] ∧ t.eng.loop.due = [] ∧ t.eng.loop.run = none ∧ t.rd R.LOP_SLOT_HALT_SLOTS = 0 ∧
          ∀ j, j < 32 → t.rd (xchgF j) = 0)) ∧
      (∀ f, s.lopCheck = some f →
        completes .lopCheckDone s (fun t =>
          t.run .LOP 0 = runDisabled ∧ t.enabled .LOP 0 = false ∧ t.rd R.LOP_CHECK_REASON = f.reason % 256 ∧
          t.rd R.LOP_CHECK_SLOT = f.slot % 32 ∧ t.rd R.LOP_CHECK_ADDR = f.addr % 4096 ∧ t.rd (R.IGN_REASON (Blk.LOP.pg 0)) = f.reason % 256))) ∧
    (∀ path (m : BitVec 24), s.reaches path R.LOP_RESTART_SLOTS .set →
      completes (.lopRestart path .set m) s (fun t =>
        ∀ n, n < 24 → t.halted n = (s.halted n && !bitOf m.toNat n) ∧
          (s.halted n = true → bitOf m.toNat n = true → ∀ v l, v < 16 → l < 4 → t.vreg n v l = 0) ∧
          (bitOf m.toNat n = false → ∀ v l, v < 16 → l < 4 → t.vreg n v l = s.vreg n v l)))

/-- R237 to R242, R250 to R252: an instruction of a run writes the lanes of its mask, each saturated to 40 bits, with the run marked where one
saturates, and nothing else; ST writes exchange words; SELMIN takes the least active lane; OUT sends the set-point; WAIT ends the run and
HALT halts its slot. -/
def Obligations.LoopInstructions : Prop :=
  ∀ (r : LoopRun) (w : Nat) (s : State), r.slot < 24 →
    (∀ p ∈ ([(opLd, Instr.loopLd, fun l => widen (s.source r (lwByte w l))),
        (opMac, Instr.loopMac, fun l => s.vreg r.slot (lwB w) l + rndMul (s.vreg r.slot (lwA w) l) (lwK w l) (lwSh w)),
        (opMsub, Instr.loopMsub, fun l => s.vreg r.slot (lwB w) l - rndMul (s.vreg r.slot (lwA w) l) (lwK w l) (lwSh w)),
        (opSat, Instr.loopSat, fun l => widen (q15 (s.vreg r.slot (lwA w) l))),
        (opLim, Instr.loopLim, fun l => min (max (s.vreg r.slot (lwA w) l) (widen (lwK w l))) (s.vreg r.slot (lwB w) l)),
        (opTrk, Instr.loopTrk, fun l => if r.handover then s.vreg r.slot (lwD w) l + (s.vreg r.slot (lwB w) l - s.vreg r.slot (lwA w) l)
          else s.vreg r.slot (lwD w) l + rndMul (s.vreg r.slot (lwB w) l - s.vreg r.slot (lwA w) l) (lwK w l) (lwSh w)),
        (opTab, Instr.loopTab, fun l => widen (s.tabLook (lwTab w) (q15 (s.vreg r.slot (lwA w) l))))] : List (Nat × Instr × (Nat → Int))),
      s.loopFetch p.1 = some (r, w) →
      completes p.2.1 s (fun t =>
        (∀ n v l, v < 16 → l < 4 → t.vreg n v l =
          if n = r.slot ∧ v = lwD w ∧ bitOf (lwMask w) l = true then sat40 (p.2.2 l) else s.vreg n v l) ∧
        t.eng.loop.run = some { r with pc := r.pc + 1,
                                       mark := r.mark || (maskLanes (lwMask w)).any (fun l => decide (sat40 (p.2.2 l) ≠ p.2.2 l)) } ∧
        sameElse s t [])) ∧
    (s.loopFetch opSt = some (r, w) →
      completes .loopSt s (fun t =>
        (∀ n v l, t.vreg n v l = s.vreg n v l) ∧ (t.eng.loop.run.map (fun x : LoopRun => x.pc)) = some (r.pc + 1) ∧
        ∀ l, l < 4 → bitOf (lwMask w) l = true → 64 ≤ lwByte w l → lwByte w l < 96 →
          (∀ k, l < k → k < 4 → bitOf (lwMask w) k = true → lwByte w k ≠ lwByte w l ∧ 64 ≤ lwByte w k ∧ lwByte w k < 96) →
          t.rdI (xchgF (lwByte w l - 64)) = q15 (s.vreg r.slot (lwA w) l))) ∧
    (s.loopFetch opSelmin = some (r, w) → lwMask w ≠ 0 →
      completes .loopSelmin s (fun t =>
        ∃ k ∈ s.selLanes r.slot (lwMask w), (∀ l, l < 4 → t.vreg r.slot (lwD w) l = sat40 (s.vreg r.slot (lwA w) k)) ∧
          (∀ l ∈ s.selLanes r.slot (lwMask w), s.vreg r.slot (lwA w) k ≤ s.vreg r.slot (lwA w) l ∧
            (l < k → s.vreg r.slot (lwA w) k < s.vreg r.slot (lwA w) l)) ∧
          t.rd (R.LOP_SLOT_INFO_WIN r.slot) = k ∧ ∀ q, s.railOfSlot r.slot = some q → t.rd (R.LOP_RAIL_STATE_WIN q) = k)) ∧
    (∀ q, s.railOfSlot r.slot = some q →
      (s.loopFetch opFf = some (r, w) →
        completes .loopFf s (fun t =>
          (∀ v l, v < 16 → l < 4 → t.vreg r.slot v l =
            if v = lwD w ∧ bitOf (lwMask w) l = true then
              sat40 (s.vreg r.slot (lwB w) l + 2 * (s.ffTerms q (lwPs w) (lwNd w)).1 * lwK w l * ((2 ^ lwSh w : Nat) : Int) +
                widen (s.ffTerms q (lwPs w) (lwNd w)).2)
            else s.vreg r.slot v l) ∧ sameElse s t [])) ∧
      (s.loopFetch opOut = some (r, w) → s.rd (R.LOP_RAIL_LIM_SP_MAX q) < 32768 → r.handover = false →
        (q ∉ s.eng.loop.handover →
          completes .loopOut s (fun t =>
            t.rdI (R.LOP_RAIL_SP_X q) = min (max 0 (q15 (s.vreg r.slot (lwA w) 0))) (s.rd (R.LOP_RAIL_LIM_SP_MAX q)) ∧
            t.rdI (R.LOP_RAIL_SP_U q) = t.rdI (R.LOP_RAIL_SP_X q) ∧ ∀ l, l < 4 → t.vreg r.slot 15 l = widen (t.rdI (R.LOP_RAIL_SP_X q)))) ∧
        (q ∈ s.eng.loop.handover →
          completes .loopOut s (fun t =>
            t.rdI (R.LOP_RAIL_SP_U q) = min (max 0 (q15 (s.vreg r.slot (lwA w) 0))) (s.rd (R.LOP_RAIL_LIM_SP_MAX q)) ∧
            t.rdI (R.LOP_RAIL_SP_X q) =
              min (max 0 (q15 (s.vreg r.slot 15 0) + clampI (-(r.slew : Int)) r.slew (t.rdI (R.LOP_RAIL_SP_U q) - q15 (s.vreg r.slot 15 0))))
                (s.rd (R.LOP_RAIL_LIM_SP_MAX q))))) ∧
      (s.loopFetch opHalt = some (r, w) → s.slotOn r.slot = true →
        completes .loopHalt s (fun t =>
          t.halted r.slot = true ∧ t.eng.loop.run = none ∧ t.rd R.LOP_EVT_HALT = min (s.rd R.LOP_EVT_HALT + 1) 4294967295 ∧
          t.rdI (R.LOP_RAIL_SP_X q) = 0 ∧ (t.chop q).phase = 0))) ∧
    (s.railOfSlot r.slot = none → s.loopFetch opHalt = some (r, w) →
      completes .loopHalt s (fun t =>
        t.halted r.slot = true ∧ t.eng.loop.run = none ∧ t.rd R.LOP_EVT_HALT = min (s.rd R.LOP_EVT_HALT + 1) 4294967295)) ∧
    (s.loopFetch opWait = some (r, w) →
      (r.mark = false → completes .loopWait s (fun t => t.eng.loop.run = none ∧ sameElse s t [])) ∧
      (r.mark = true →
        completes .loopWait s (fun t =>
          t.eng.loop.run = none ∧ t.rd (R.LOP_SLOT_EVT_SAT r.slot) = min (s.rd (R.LOP_SLOT_EVT_SAT r.slot) + 1) 4294967295 ∧
          sameElse s t [R.LOP_SLOT_EVT_SAT r.slot])))

/-! ### Choppers and Traverse (R217, R253 to R273) -/

/-- R253, R256 to R258: the on-phase ends at its threshold, both gates low for DT behind it, and the off-phase at its own, with the cycle's
measurements and the offset; a long cycle is cut and counted; overcurrent ends the on-phase; VRAIL at or above OV_LIM, and only that, stops the rail until VRAIL has fallen, its PERIOD showing 0, and STATE then shows OV (its rank among the
states that hold at once is the model's choice, log entry 61). R217, R253: a headroom report is kept, and a feed-forward entry comes into force; that the
first one of a frame gap forms the sums of slot 0, zero sums where the half blanks, is the model's choice (log entry 64). -/
def Obligations.ChopperCycle : Prop :=
  ∀ (q : Nat) (m : ChopMeas) (s : State), q < 6 →
    (s.chopping q 1 = true →
      (s.thHi2 q ≤ 2 * m.current → 40 ≤ m.phaseNs →
        completes (.chopOnEnd q m) s (fun t =>
          (t.chop q).phase = 2 ∧ (t.chop q).cut = (s.chop q).cut ∧ t.out = .gates q 2 (s.rd (R.LOP_CH_CFG_DT q)) :: s.out ∧ sameElse s t [])) ∧
      (2 * m.current < s.thHi2 q → completes (.chopOnEnd q m) s (fun t => t = s)) ∧
      (3333 ≤ m.cycleNs →
        completes (.chopCycleLimit q m) s (fun t =>
          (t.chop q).phase = 2 ∧ (t.chop q).cut = true ∧ (t.chop q).shaped = true ∧ sameElse s t [])) ∧
      ((s.rd (R.LOP_CH_OCL_OC_LIM q) : Int) ≤ m.current → 40 ≤ m.phaseNs →
        completes (.overcurrent q m) s (fun t =>
          (t.chop q).phase = 2 ∧ (t.chop q).cut = true ∧ t.rd (R.LOP_CH_EVT_OC q) = min (s.rd (R.LOP_CH_EVT_OC q) + 1) 4294967295 ∧
          sameElse s t [R.LOP_CH_EVT_OC q]))) ∧
    (s.chopping q 2 = true → -32768 ≤ m.peak → m.peak < 32768 → -32768 ≤ m.valley → m.valley < 32768 → s.railHalted q = false →
      (s.chop q).ov = false → s.rd (R.LOP_CH_OCL_OFS_LIM q) < 32768 →
      (2 * m.current ≤ s.thLo2 q → 40 ≤ m.phaseNs → 250 ≤ m.cycleNs → (s.chop q).cut = false → (s.chop q).moved = false →
        completes (.chopOffEnd q m) s (fun t =>
          t.rdI (R.LOP_CH_MEAS_PEAK q) = m.peak ∧ t.rdI (R.LOP_CH_MEAS_VALLEY q) = m.valley ∧
          t.rdI (R.LOP_CH_OFS_OFS q) = clampI (-(s.rd (R.LOP_CH_OCL_OFS_LIM q) : Int)) (s.rd (R.LOP_CH_OCL_OFS_LIM q))
            (s.rdI (R.LOP_CH_OFS_OFS q) + ((m.peak + m.valley + 1) / 2 - s.railSp q) / ((2 ^ s.rd (R.LOP_CH_CFG_OFS_SH q) : Nat) : Int)) ∧
          t.rd (R.LOP_CH_PERIOD_NS q) = (if s.spIdle q then 0 else min 4095 m.cycleNs) ∧
          (t.chop q).phase = (if s.spIdle q then 0 else 1))) ∧
      (3333 ≤ m.cycleNs →
        completes (.chopCycleLimit q m) s (fun t =>
          t.rd (R.LOP_CH_OFS_OFS q) = s.rd (R.LOP_CH_OFS_OFS q) ∧
          t.rd (R.LOP_CH_EVT_LIMIT q) = min (s.rd (R.LOP_CH_EVT_LIMIT q) + 1) 4294967295 ∧ t.rdI (R.LOP_CH_MEAS_PEAK q) = m.peak))) ∧
    (m.cycleNs < 3333 → completes (.chopCycleLimit q m) s (fun t => t = s)) ∧
    (∀ v, s.build = .tile → s.lopRuns = true → (s.chop q).ov = false → s.railHalted q = false →
      (s.rd (R.LOP_RAIL_LIM_OV_LIM q) ≤ v →
        completes (.overvoltage { rail := q, vrail := v }) s (fun t =>
          (t.chop q).ov = true ∧ (t.chop q).phase = 0 ∧ t.rd (R.LOP_RAIL_STATE_STATE q) = lrOv ∧ t.rd (R.LOP_CH_PERIOD_NS q) = 0 ∧
          t.rd (R.LOP_RAIL_EVT_OV q) = min (s.rd (R.LOP_RAIL_EVT_OV q) + 1) 4294967295 ∧
          sameElse s t ([R.LOP_RAIL_STATE_STATE q, R.LOP_CH_PERIOD_NS q, R.LOP_RAIL_EVT_OV q] ++ calFlds))) ∧
      (v < s.rd (R.LOP_RAIL_LIM_OV_LIM q) →
        completes (.overvoltage { rail := q, vrail := v }) s (fun t => (t.chop q).ov = false ∧ sameElse s t calFlds))) ∧
    (∀ v, (s.chop q).ov = true → v + 256 < s.rd (R.LOP_RAIL_LIM_OV_LIM q) → s.lopRuns = true → s.railHalted q = false → s.spIdle q = false →
      (s.chop q).phase = 0 →
      completes (.ovRecover q v) s (fun t =>
        (t.chop q).ov = false ∧ (t.chop q).phase = 1 ∧ sameElse s t [R.LOP_RAIL_STATE_STATE q])) ∧
    (∀ v, s.rd (R.LOP_RAIL_LIM_OV_LIM q) ≤ v + 256 → completes (.ovRecover q v) s (fun t => t = s)) ∧
    (∀ (half : Half) c v, s.build = .tile → c < 3 → c ∉ (s.lamp (Half.no half)).lastRails →
      completes (.headroomReport half c (some v)) s (fun t => t = s)) ∧
    (∀ (half : Half) c v, s.build = .tile → c < 3 → c ∈ (s.lamp (Half.no half)).lastRails →
      completes (.headroomReport half c (some v)) s (fun t =>
        Sparse.get t.eng.loop.headroom (3 * Half.no half + c) = some (min v 32767) ∧ sameElse s t []) ∧
      completes (.headroomReport half c none) s (fun t => t = s)) ∧
    (s.build = .tile → s.scnLive (q / 3) = true → (s.scan (q / 3)).gap = true → (s.scan (q / 3)).first = none → s.wf = true →
      completes (.ffEntry q) s (fun t =>
        t.rd32 .window (rowLoadAt q + 4) = 0 ∧ (s.lmpBlkPre (q / 3) ≠ 0 → t.rd32 .window (rowLoadAt q) = 0))) ∧
    (s.build = .tile → s.wf = true → ((s.scan (q / 3)).gap = false ∨ (s.scan (q / 3)).first.isSome = true) →
      completes (.ffEntry q) s (fun t =>
        t.rd32 .window (rowLoadAt q) = s.rd32 .window (rowLoadAt q + 8) ∧ t.rd32 .window (rowLoadAt q + 4) = s.rd32 .window (rowLoadAt q + 12) ∧
        (∀ f, f.key ≠ (R.LOP_RAIL_STATE_FF_CLIP q).key → t.rd f = s.rd f) ∧
        ∀ k, (k < Space.window.key (rowLoadAt q) ∨ Space.window.key (rowLoadAt q) + 8 ≤ k) → memGet t.mem k = memGet s.mem k))

/-- The distance to a target in 2^-32 step (R262). -/
def travDist (x : TrvGen) (tgt : Nat) : Int := (tgt : Int) * 4294967296 - x.acc

/-- The direction of a generator that does not rest at its target (R262). -/
def travDir (x : TrvGen) (tgt : Nat) : Int := if x.v = 0 then (travDist x tgt).sign else x.v.sign

/-- The target lies behind a moving generator (R262). -/
def travAway (x : TrvGen) (tgt : Nat) : Prop := travDir x tgt * travDist x tgt < 0

/-- It brakes: the target lies behind, or it or the end of the range is no farther than the braking distance (R262, R266). -/
def travBrakes (x : TrvGen) (tgt amax : Nat) : Prop :=
  travAway x tgt ∨ 2 * (amax : Int) * ((travDist x tgt).natAbs * 16777216) ≤ x.v.natAbs * (x.v.natAbs + amax) ∨
  2 * (amax : Int) * ((if 0 < travDir x tgt then 281474976710655 - (x.acc : Int) else x.acc) * 16777216) ≤ x.v.natAbs * (x.v.natAbs + amax)

/-- R260 to R270: a clock shows the scales; a generator at its target rests. One that moves brakes at AMAX while the target lies behind or no
farther ahead than the braking distance, comes down to a lowered VMAX at AMAX, which VDESC shows, and else accelerates or cruises within AMAX and
VMAX; the position follows the velocity, rounded; within a step of the target at no more than AMAX it arrives and rests; an add beyond an end of
the range leaves it LOST there. An overshoot begins with the target behind, is recorded where the generator comes to rest, and forgotten where
the target lies ahead again. A generator whose copies differ is LOST, and STOP makes its generators LOST, the first reason kept; RELOAD puts a
LOST one at rest at its target. -/
def Obligations.TraverseMotion : Prop :=
  ∀ (g : Nat) (s : State), g < 4 →
    (∀ dup, s.parked 6 = true → completes (.traverseClock dup) s (fun t => t = s)) ∧
    (∀ dup, s.parked 6 = false → s.run .TRV 0 = runRunning →
      completes (.traverseClock dup) s (fun t => t.rd R.TRV_OUT_L_W = s.trvScale.1 % 65536 ∧ t.rd R.TRV_OUT_L_E = s.trvScale.2 % 65536) ∧
      (g ∉ dup → s.genState g = tsIdle ∨ s.genState g = tsMoving →
        ((s.trv g).v = 0 → (s.trv g).acc = s.rd (R.TRV_G_TARGET_TARGET g) * 4294967296 →
          completes (.traverseClock dup) s (fun t => t.genState g = tsIdle ∧ t.trv g = s.trv g)) ∧
        ((s.trv g).v = 0 → (s.trv g).acc + 4294967296 < s.rd (R.TRV_G_TARGET_TARGET g) * 4294967296 → s.rd (R.TRV_G_TARGET_TARGET g) < 65536 →
          1 ≤ s.rd (R.TRV_G_AMAX_AMAX g) → s.rd (R.TRV_G_AMAX_AMAX g) < 4294967296 →
          completes (.traverseClock dup) s (fun t =>
            t.genState g = tsMoving ∧ (t.trv g).v = min (s.rd (R.TRV_G_AMAX_AMAX g)) (s.rd (R.TRV_G_VMAX_VMAX g) * 16777216) ∧
            ((t.trv g).acc : Int) = (s.trv g).acc + ((t.trv g).v + 8388608) / 16777216 ∧
            t.rd (R.TRV_G_POS_P g) = (t.trv g).acc / 4294967296)) ∧
        (∀ (x : TrvGen) (tgt vmax a : Nat) (v acc : Int), x = s.trv g → tgt = s.rd (R.TRV_G_TARGET_TARGET g) → vmax = s.rd (R.TRV_G_VMAX_VMAX g) →
          a = s.rd (R.TRV_G_AMAX_AMAX g) → ¬(x.v = 0 ∧ travDist x tgt = 0) → x.acc < 281474976710656 → tgt < 65536 →
          (travBrakes x tgt a → v = x.v - travDir x tgt * min (a : Int) x.v.natAbs) →
          (¬travBrakes x tgt a → vmax * 16777216 < x.v.natAbs → v = x.v - travDir x tgt * min (a : Int) (x.v.natAbs - vmax * 16777216)) →
          (¬travBrakes x tgt a → x.v.natAbs ≤ vmax * 16777216 → v = travDir x tgt * min (x.v.natAbs + a : Int) (vmax * 16777216)) →
          acc = x.acc + (v + 8388608) / 16777216 →
          ((acc < 0 ∨ 281474976710655 < acc) →
            completes (.traverseClock dup) s (fun t =>
              t.genState g = tsLost ∧ t.rd (R.TRV_G_POS_WHY g) = twBound ∧ (t.trv g).v = 0 ∧
              (t.trv g).acc = (if acc < 0 then 0 else 281474976710655) ∧
              t.rd (R.TRV_G_EVT_LOST g) = min (s.rd (R.TRV_G_EVT_LOST g) + 1) 4294967295)) ∧
          (0 ≤ acc → acc ≤ 281474976710655 → (travDist x tgt).natAbs ≤ 4294967296 → v.natAbs ≤ a →
            completes (.traverseClock dup) s (fun t =>
              t.genState g = tsIdle ∧ (t.trv g).v = 0 ∧ (t.trv g).acc = tgt * 4294967296 ∧ t.rd (R.TRV_G_POS_P g) = tgt)) ∧
          (0 ≤ acc → acc ≤ 281474976710655 → (4294967296 < (travDist x tgt).natAbs ∨ a < v.natAbs) →
            completes (.traverseClock dup) s (fun t =>
              (t.trv g).v = v ∧ ((t.trv g).acc : Int) = acc ∧ t.rd (R.TRV_G_POS_P g) = (t.trv g).acc / 4294967296 ∧
              t.genState g = (if v = 0 ∧ acc = tgt * 4294967296 then tsIdle else tsMoving) ∧
              ((t.trv g).v.natAbs : Int) - x.v.natAbs ≤ a ∧ (x.v.natAbs : Int) - (t.trv g).v.natAbs ≤ a ∧
              (t.trv g).v.natAbs ≤ max x.v.natAbs (vmax * 16777216) ∧
              t.rd (R.TRV_G_POS_VDESC g) = (if vmax * 16777216 < v.natAbs then 1 else 0) ∧
              (travAway x tgt → v ≠ 0 →
                (t.trv g).from_ = (match x.from_ with | some p => some p | none => if x.v = 0 then none else some (x.acc / 4294967296)) ∧
                t.rd (R.TRV_G_EVT_OVERSHOOT g) = s.rd (R.TRV_G_EVT_OVERSHOOT g)) ∧
              (∀ p, travAway x tgt → v = 0 → x.from_ = some p → p < 65536 →
                (t.trv g).from_ = none ∧ t.rd (R.TRV_G_OVERSHOOT_PEAK g) = (t.trv g).acc / 4294967296 ∧
                t.rd (R.TRV_G_OVERSHOOT_DIST g) = ((((t.trv g).acc / 4294967296 : Nat) : Int) - p).natAbs ∧
                t.rd (R.TRV_G_EVT_OVERSHOOT g) = min (s.rd (R.TRV_G_EVT_OVERSHOOT g) + 1) 4294967295) ∧
              (¬travAway x tgt →
                (t.trv g).from_ = none ∧ t.rd (R.TRV_G_EVT_OVERSHOOT g) = s.rd (R.TRV_G_EVT_OVERSHOOT g)))))) ∧
      (g ∈ dup → s.genState g ≠ tsOff → s.genState g ≠ tsLost →
        completes (.traverseClock dup) s (fun t =>
          t.genState g = tsLost ∧ t.rd (R.TRV_G_POS_WHY g) = twDup ∧ (t.trv g).v = 0 ∧ (t.trv g).acc = (s.trv g).acc ∧
          t.rd (R.TRV_G_EVT_LOST g) = min (s.rd (R.TRV_G_EVT_LOST g) + 1) 4294967295))) ∧
    (∀ path (m : BitVec 4), s.reaches path R.TRV_CMD_STOP .set →
      (bitOf m.toNat g = true → s.genState g ≠ tsOff → s.genState g ≠ tsLost →
        completes (.trvStop path .set m) s (fun t =>
          t.genState g = tsLost ∧ t.rd (R.TRV_G_POS_WHY g) = twStop ∧
          t.rd (R.TRV_G_EVT_LOST g) = min (s.rd (R.TRV_G_EVT_LOST g) + 1) 4294967295)) ∧
      ((bitOf m.toNat g = false ∨ s.genState g = tsLost) →
        completes (.trvStop path .set m) s (fun t =>
          t.genState g = s.genState g ∧ t.rd (R.TRV_G_POS_WHY g) = s.rd (R.TRV_G_POS_WHY g) ∧ t.trv g = s.trv g)) ∧
      (bitOf m.toNat g = true → s.run .TRV 0 = runRunning → s.genState g = tsLost → s.rd (R.TRV_G_TARGET_TARGET g) < 65536 →
        completes (.trvReload path .set m) s (fun t =>
          t.genState g = tsIdle ∧ t.rd (R.TRV_G_POS_WHY g) = 0 ∧ t.trv g = { acc := s.rd (R.TRV_G_TARGET_TARGET g) * 4294967296, v := 0, from_ := none } ∧
          t.rd (R.TRV_G_POS_P g) = s.rd (R.TRV_G_TARGET_TARGET g))) ∧
      (bitOf m.toNat g = true → s.run .TRV 0 = runRunning → s.genState g ≠ tsLost →
        completes (.trvReload path .set m) s (fun t =>
          t.genState g = s.genState g ∧ t.trv g = s.trv g ∧ t.rd (R.IGN_REASON (Blk.TRV.pg 0)) = 16 ∧
          t.rd (R.EVT_CFG_IGN (Blk.TRV.pg 0)) = min (s.rd (R.EVT_CFG_IGN (Blk.TRV.pg 0)) + 1) 4294967295)))
end

