-- ==== Sys2Proof/Laws/Store.lean ====
section
/-! SUPPORT. The laws of the sparse stores: what a key reads after a put or a delete, and that the canonical form is kept. -/

namespace Sys2Proof.Machine

variable {α : Type}

theorem Sparse.get_put_same (l : List (Nat × α)) (k : Nat) (v : α) : Sparse.get (Sparse.put l k v) k = some v := by
  induction l with
  | nil => simp [Sparse.put, Sparse.get]
  | cons e t ih =>
    obtain ⟨a, u⟩ := e
    unfold Sparse.put
    split
    · simp [Sparse.get]
    · split
      · simp [Sparse.get]
      · simp [Sparse.get, ih, *]

theorem Sparse.get_put_ne (l : List (Nat × α)) {k j : Nat} (v : α) (h : j ≠ k) :
    Sparse.get (Sparse.put l k v) j = Sparse.get l j := by
  induction l with
  | nil => simp [Sparse.put, Sparse.get, h.symm]
  | cons e t ih =>
    obtain ⟨a, u⟩ := e
    unfold Sparse.put
    split
    · simp [Sparse.get, h.symm]
    · split
      · next hak => subst hak; simp [Sparse.get, h.symm]
      · simp [Sparse.get, ih]

theorem Sparse.look_put_same (l : List (Nat × α)) (k : Nat) (v d : α) : Sparse.look (Sparse.put l k v) k d = v := by
  simp [Sparse.look, Sparse.get_put_same]

theorem Sparse.look_put_ne (l : List (Nat × α)) {k j : Nat} (v d : α) (h : j ≠ k) :
    Sparse.look (Sparse.put l k v) j d = Sparse.look l j d := by
  simp [Sparse.look, Sparse.get_put_ne l v h]

theorem Sparse.get_del_ne (l : List (Nat × α)) {k j : Nat} (h : j ≠ k) : Sparse.get (Sparse.del l k) j = Sparse.get l j := by
  induction l with
  | nil => rfl
  | cons e t ih =>
    obtain ⟨a, u⟩ := e
    unfold Sparse.del
    split
    · next hak => subst hak; simp [Sparse.get, h.symm]
    · simp [Sparse.get, ih]

/-! ### Rising keys -/

/-- Strictly rising keys, as a relation between every two entries. -/
def Rising (l : List (Nat × α)) : Prop := l.Pairwise (fun a b => a.1 < b.1)

theorem keysRise_iff_pairwise (l : List Nat) : keysRise l = true ↔ l.Pairwise (· < ·) := by
  induction l with
  | nil => simp [keysRise]
  | cons a t ih =>
    cases t with
    | nil => simp [keysRise]
    | cons b t =>
      simp only [keysRise, Bool.and_eq_true, decide_eq_true_eq, ih, List.pairwise_cons]
      constructor
      · rintro ⟨hab, hb, ht⟩
        refine ⟨?_, hb, ht⟩
        intro x hx
        rcases List.mem_cons.mp hx with rfl | hx
        · exact hab
        · exact hab.trans (hb x hx)
      · rintro ⟨ha, hb, ht⟩
        exact ⟨ha b (by simp), hb, ht⟩

theorem keysRise_keys (l : List (Nat × α)) : keysRise (l.map Prod.fst) = true ↔ Rising l := by
  rw [keysRise_iff_pairwise, List.pairwise_map]; rfl

theorem Sparse.mem_put {l : List (Nat × α)} {k : Nat} {v : α} {e : Nat × α} (h : e ∈ Sparse.put l k v) : e = (k, v) ∨ e ∈ l := by
  induction l with
  | nil => simpa [Sparse.put] using h
  | cons x t ih =>
    obtain ⟨a, u⟩ := x
    unfold Sparse.put at h
    split at h
    · simpa using h
    · split at h
      · rcases List.mem_cons.mp h with h | h
        · exact Or.inl h
        · exact Or.inr (by simp [h])
      · rcases List.mem_cons.mp h with h | h
        · exact Or.inr (by simp [h])
        · rcases ih h with h | h
          · exact Or.inl h
          · exact Or.inr (by simp [h])

theorem Sparse.mem_del {l : List (Nat × α)} {k : Nat} {e : Nat × α} (h : e ∈ Sparse.del l k) : e ∈ l := by
  induction l with
  | nil => simp [Sparse.del] at h
  | cons x t ih =>
    obtain ⟨a, u⟩ := x
    unfold Sparse.del at h
    split at h
    · simp [h]
    · rcases List.mem_cons.mp h with h | h
      · simp [h]
      · simp [ih h]

theorem Rising.put {l : List (Nat × α)} (h : Rising l) (k : Nat) (v : α) : Rising (Sparse.put l k v) := by
  induction l with
  | nil => simp [Rising, Sparse.put]
  | cons x t ih =>
    obtain ⟨a, u⟩ := x
    obtain ⟨ha, ht⟩ := List.pairwise_cons.mp h
    unfold Sparse.put
    split
    · next hka =>
      refine List.pairwise_cons.mpr ⟨?_, h⟩
      intro e he
      rcases List.mem_cons.mp he with rfl | he
      · exact hka
      · exact Nat.lt_trans hka (ha e he)
    · split
      · next hak => subst hak; exact List.pairwise_cons.mpr ⟨ha, ht⟩
      · next hka hak =>
        refine List.pairwise_cons.mpr ⟨?_, ih ht⟩
        intro e he
        rcases Sparse.mem_put he with rfl | he
        · show a < k
          omega
        · exact ha e he

theorem Rising.del {l : List (Nat × α)} (h : Rising l) (k : Nat) : Rising (Sparse.del l k) := by
  induction l with
  | nil => simpa [Sparse.del] using h
  | cons x t ih =>
    obtain ⟨a, u⟩ := x
    obtain ⟨ha, ht⟩ := List.pairwise_cons.mp h
    unfold Sparse.del
    split
    · exact ht
    · exact List.pairwise_cons.mpr ⟨fun e he => ha e (Sparse.mem_del he), ih ht⟩

theorem Rising.filter {l : List (Nat × α)} (h : Rising l) (p : Nat × α → Bool) : Rising (l.filter p) := List.Pairwise.filter p h

theorem Sparse.get_del_same {l : List (Nat × α)} (h : Rising l) (k : Nat) : Sparse.get (Sparse.del l k) k = none := by
  induction l with
  | nil => rfl
  | cons x t ih =>
    obtain ⟨a, u⟩ := x
    obtain ⟨ha, ht⟩ := List.pairwise_cons.mp h
    unfold Sparse.del
    split
    · next hak =>
      subst hak
      have : ∀ (m : List (Nat × α)), (∀ e ∈ m, a < e.1) → Sparse.get m a = none := by
        intro m hm
        induction m with
        | nil => rfl
        | cons y m ihm =>
          obtain ⟨b, w⟩ := y
          have hb : a < b := hm (b, w) (by simp)
          have : b ≠ a := by omega
          simp only [Sparse.get, if_neg this]
          exact ihm (fun e he => hm e (by simp [he]))
      exact this t ha
    · next hak => simp only [Sparse.get, if_neg hak]; exact ih ht

/-! ### Memory -/

theorem Memory.wf_iff (m : List Host.Cell) : Memory.wf m = true ↔ Rising m ∧ ∀ c ∈ m, c.2 ≠ unlisted c.1 := by
  simp only [Memory.wf, Bool.and_eq_true, List.all_eq_true, bne_iff_ne, keysRise_keys]

/-- A write to memory keeps its canonical form. -/
theorem memPut_wf {m : List Host.Cell} (h : Memory.wf m = true) (k : Nat) (v : Byte) : Memory.wf (memPut m k v) = true := by
  rw [Memory.wf_iff] at h ⊢
  unfold memPut
  split
  · exact ⟨h.1.del k, fun c hc => h.2 c (Sparse.mem_del hc)⟩
  · next hv =>
    refine ⟨h.1.put k v, fun c hc => ?_⟩
    rcases Sparse.mem_put hc with rfl | hc
    · exact hv
    · exact h.2 c hc

theorem memFilter_wf {m : List Host.Cell} (h : Memory.wf m = true) (p : Host.Cell → Bool) : Memory.wf (m.filter p) = true := by
  rw [Memory.wf_iff] at h ⊢
  exact ⟨h.1.filter p, fun c hc => h.2 c (List.mem_of_mem_filter hc)⟩

/-- A byte reads what was written to it last. -/
theorem memGet_memPut_same {m : List Host.Cell} (h : Memory.wf m = true) (k : Nat) (v : Byte) : memGet (memPut m k v) k = v := by
  rw [Memory.wf_iff] at h
  unfold memGet memPut
  split
  · next hv => simp [Sparse.look, Sparse.get_del_same h.1, hv]
  · exact Sparse.look_put_same m k v _

/-- A write leaves every other byte as it was. -/
theorem memGet_memPut_ne (m : List Host.Cell) {k j : Nat} (v : Byte) (h : j ≠ k) : memGet (memPut m k v) j = memGet m j := by
  unfold memGet memPut
  split
  · simp [Sparse.look, Sparse.get_del_ne m h]
  · exact Sparse.look_put_ne m v _ h

end Sys2Proof.Machine
end

