-- ==== Sys2Proof/Laws/State.lean ====
section
/-! SUPPORT. The small laws of the state: what a field, a byte and every component read after each basic update. -/

namespace Sys2Proof.Machine

/-! ### Register fields -/

/-- A field reads what was written to it last, cut to its width. -/
@[simp] theorem State.rd_wr_same (s : State) (f : Fld) (v : Nat) : (s.wr f v).rd f = v % 2 ^ f.width :=
  Sparse.look_put_same _ _ _ _

/-- A write of one field leaves every other field as it was. -/
theorem State.rd_wr_ne (s : State) {f g : Fld} (v : Nat) (h : g.key ≠ f.key) : (s.wr f v).rd g = s.rd g :=
  Sparse.look_put_ne _ _ _ h

/-- Fields at one key share their value, whatever their reset values, once written. -/
theorem State.rd_wr_key (s : State) {f g : Fld} (v : Nat) (h : g.key = f.key) : (s.wr f v).rd g = v % 2 ^ f.width := by
  unfold State.rd State.wr
  rw [h]
  exact Sparse.look_put_same _ _ _ _

@[simp] theorem State.on_wr_one (s : State) (f : Fld) (h : 0 < f.width) : (s.wr f 1).on f = true := by
  have : 1 % 2 ^ f.width = 1 := Nat.mod_eq_of_lt (Nat.one_lt_two_pow (by omega))
  simp [State.on, this]

@[simp] theorem State.on_wr_zero (s : State) (f : Fld) : (s.wr f 0).on f = false := by simp [State.on]

theorem State.on_wr_ne (s : State) {f g : Fld} (v : Nat) (h : g.key ≠ f.key) : (s.wr f v).on g = s.on g := by
  simp [State.on, State.rd_wr_ne s v h]

/-- A CT field counts up and saturates at its greatest value (R79, R80). -/
theorem State.rd_bump_same (s : State) (f : Fld) (n : Nat) : (s.bump f n).rd f = min (s.rd f + n) (2 ^ f.width - 1) := by
  unfold State.bump
  rw [State.rd_wr_same]
  have : 0 < 2 ^ f.width := Nat.two_pow_pos _
  exact Nat.mod_eq_of_lt (by omega)

theorem State.rd_bump_ne (s : State) {f g : Fld} (n : Nat) (h : g.key ≠ f.key) : (s.bump f n).rd g = s.rd g := State.rd_wr_ne s _ h

theorem State.rd_count_same (s : State) (f : Fld) : (s.count f).rd f = min (s.rd f + 1) (2 ^ f.width - 1) := State.rd_bump_same s f 1

theorem State.rd_count_ne (s : State) {f g : Fld} (h : g.key ≠ f.key) : (s.count f).rd g = s.rd g := State.rd_wr_ne s _ h

theorem State.rd_wrB_same (s : State) (f : Fld) (b : Bool) (h : 0 < f.width) : (s.wrB f b).rd f = b2n b := by
  have h1 : 1 < 2 ^ f.width := Nat.one_lt_two_pow (by omega)
  unfold State.wrB
  rw [State.rd_wr_same]
  exact Nat.mod_eq_of_lt (by cases b <;> simp [b2n] <;> omega)

/-! ### What a register write leaves alone -/

@[simp] theorem State.wr_build (s : State) (f : Fld) (v : Nat) : (s.wr f v).build = s.build := rfl
@[simp] theorem State.wr_mem (s : State) (f : Fld) (v : Nat) : (s.wr f v).mem = s.mem := rfl
@[simp] theorem State.wr_bus (s : State) (f : Fld) (v : Nat) : (s.wr f v).bus = s.bus := rfl
@[simp] theorem State.wr_pins (s : State) (f : Fld) (v : Nat) : (s.wr f v).pins = s.pins := rfl
@[simp] theorem State.wr_clk (s : State) (f : Fld) (v : Nat) : (s.wr f v).clk = s.clk := rfl
@[simp] theorem State.wr_boot (s : State) (f : Fld) (v : Nat) : (s.wr f v).boot = s.boot := rfl
@[simp] theorem State.wr_wdog (s : State) (f : Fld) (v : Nat) : (s.wr f v).wdog = s.wdog := rfl
@[simp] theorem State.wr_cck (s : State) (f : Fld) (v : Nat) : (s.wr f v).cck = s.cck := rfl
@[simp] theorem State.wr_cairn (s : State) (f : Fld) (v : Nat) : (s.wr f v).cairn = s.cairn := rfl
@[simp] theorem State.wr_epc (s : State) (f : Fld) (v : Nat) : (s.wr f v).epc = s.epc := rfl
@[simp] theorem State.wr_ports (s : State) (f : Fld) (v : Nat) : (s.wr f v).ports = s.ports := rfl
@[simp] theorem State.wr_seqs (s : State) (f : Fld) (v : Nat) : (s.wr f v).seqs = s.seqs := rfl
@[simp] theorem State.wr_ingest (s : State) (f : Fld) (v : Nat) : (s.wr f v).ingest = s.ingest := rfl
@[simp] theorem State.wr_host (s : State) (f : Fld) (v : Nat) : (s.wr f v).host = s.host := rfl
@[simp] theorem State.wr_auth (s : State) (f : Fld) (v : Nat) : (s.wr f v).auth = s.auth := rfl
@[simp] theorem State.wr_eth (s : State) (f : Fld) (v : Nat) : (s.wr f v).eth = s.eth := rfl
@[simp] theorem State.wr_eng (s : State) (f : Fld) (v : Nat) : (s.wr f v).eng = s.eng := rfl
@[simp] theorem State.wr_out (s : State) (f : Fld) (v : Nat) : (s.wr f v).out = s.out := rfl
@[simp] theorem State.wr_freeCtr (s : State) (f : Fld) (v : Nat) : (s.wr f v).freeCtr = s.freeCtr := rfl
@[simp] theorem State.wr_nowNs (s : State) (f : Fld) (v : Nat) : (s.wr f v).nowNs = s.nowNs := rfl
@[simp] theorem State.wr_pending (s : State) (f : Fld) (v : Nat) : (s.wr f v).pending = s.pending := rfl

/-! ### What an update of another component leaves of the registers and of memory -/

@[simp] theorem State.rd_emit (s : State) (o : Out) (f : Fld) : (s.emit o).rd f = s.rd f := rfl
@[simp] theorem State.rd_useFree (s : State) (f : Fld) : s.useFree.rd f = s.rd f := rfl
@[simp] theorem State.rd_wr8 (s : State) (sp : Space) (off : Nat) (v : Byte) (f : Fld) : (s.wr8 sp off v).rd f = s.rd f := rfl
@[simp] theorem State.out_emit (s : State) (o : Out) : (s.emit o).out = o :: s.out := rfl
@[simp] theorem State.mem_emit (s : State) (o : Out) : (s.emit o).mem = s.mem := rfl
@[simp] theorem State.build_emit (s : State) (o : Out) : (s.emit o).build = s.build := rfl

theorem State.rd_wrLE (s : State) (sp : Space) (off v n : Nat) (f : Fld) : (s.wrLE sp off v n).rd f = s.rd f := by
  induction n generalizing s off v with
  | zero => rfl
  | succ n ih => exact (ih _ _ _).trans rfl

theorem State.rd_wrBytes (s : State) (sp : Space) (off : Nat) (l : List Byte) (f : Fld) : (s.wrBytes sp off l).rd f = s.rd f := by
  induction l generalizing s off with
  | nil => rfl
  | cons b l ih => exact (ih _ _).trans rfl

/-! ### The parts of a component: what a part reads after it was set, and what setting it leaves -/

@[simp] theorem State.port_setPort_same (s : State) (id : Nat) (x : Port) : (s.setPort id x).port id = x := Sparse.look_put_same _ _ _ _
theorem State.port_setPort_ne (s : State) {id k_ : Nat} (x : Port) (h_ : k_ ≠ id) : (s.setPort id x).port k_ = s.port k_ :=
  Sparse.look_put_ne _ _ _ h_
@[simp] theorem State.rd_setPort (s : State) (id : Nat) (x : Port) (f : Fld) : (s.setPort id x).rd f = s.rd f := rfl
@[simp] theorem State.build_setPort (s : State) (id : Nat) (x : Port) : (s.setPort id x).build = s.build := rfl
@[simp] theorem State.mem_setPort (s : State) (id : Nat) (x : Port) : (s.setPort id x).mem = s.mem := rfl
@[simp] theorem State.out_setPort (s : State) (id : Nat) (x : Port) : (s.setPort id x).out = s.out := rfl
@[simp] theorem State.dch_setDch_same (s : State) (j : Nat) (x : DramCh) : (s.setDch j x).dch j = x := Sparse.look_put_same _ _ _ _
theorem State.dch_setDch_ne (s : State) {j k_ : Nat} (x : DramCh) (h_ : k_ ≠ j) : (s.setDch j x).dch k_ = s.dch k_ :=
  Sparse.look_put_ne _ _ _ h_
@[simp] theorem State.rd_setDch (s : State) (j : Nat) (x : DramCh) (f : Fld) : (s.setDch j x).rd f = s.rd f := rfl
@[simp] theorem State.build_setDch (s : State) (j : Nat) (x : DramCh) : (s.setDch j x).build = s.build := rfl
@[simp] theorem State.mem_setDch (s : State) (j : Nat) (x : DramCh) : (s.setDch j x).mem = s.mem := rfl
@[simp] theorem State.out_setDch (s : State) (j : Nat) (x : DramCh) : (s.setDch j x).out = s.out := rfl
@[simp] theorem State.press_setPress_same (s : State) (h : Nat) (x : Press) : (s.setPress h x).press h = x := Sparse.look_put_same _ _ _ _
theorem State.press_setPress_ne (s : State) {h k_ : Nat} (x : Press) (h_ : k_ ≠ h) : (s.setPress h x).press k_ = s.press k_ :=
  Sparse.look_put_ne _ _ _ h_
@[simp] theorem State.rd_setPress (s : State) (h : Nat) (x : Press) (f : Fld) : (s.setPress h x).rd f = s.rd f := rfl
@[simp] theorem State.build_setPress (s : State) (h : Nat) (x : Press) : (s.setPress h x).build = s.build := rfl
@[simp] theorem State.mem_setPress (s : State) (h : Nat) (x : Press) : (s.setPress h x).mem = s.mem := rfl
@[simp] theorem State.out_setPress (s : State) (h : Nat) (x : Press) : (s.setPress h x).out = s.out := rfl
@[simp] theorem State.darn_setDarn_same (s : State) (h : Nat) (x : Darn) : (s.setDarn h x).darn h = x := Sparse.look_put_same _ _ _ _
theorem State.darn_setDarn_ne (s : State) {h k_ : Nat} (x : Darn) (h_ : k_ ≠ h) : (s.setDarn h x).darn k_ = s.darn k_ :=
  Sparse.look_put_ne _ _ _ h_
@[simp] theorem State.rd_setDarn (s : State) (h : Nat) (x : Darn) (f : Fld) : (s.setDarn h x).rd f = s.rd f := rfl
@[simp] theorem State.build_setDarn (s : State) (h : Nat) (x : Darn) : (s.setDarn h x).build = s.build := rfl
@[simp] theorem State.mem_setDarn (s : State) (h : Nat) (x : Darn) : (s.setDarn h x).mem = s.mem := rfl
@[simp] theorem State.out_setDarn (s : State) (h : Nat) (x : Darn) : (s.setDarn h x).out = s.out := rfl
@[simp] theorem State.scan_setScan_same (s : State) (h : Nat) (x : ScanHalf) : (s.setScan h x).scan h = x := Sparse.look_put_same _ _ _ _
theorem State.scan_setScan_ne (s : State) {h k_ : Nat} (x : ScanHalf) (h_ : k_ ≠ h) : (s.setScan h x).scan k_ = s.scan k_ :=
  Sparse.look_put_ne _ _ _ h_
@[simp] theorem State.rd_setScan (s : State) (h : Nat) (x : ScanHalf) (f : Fld) : (s.setScan h x).rd f = s.rd f := rfl
@[simp] theorem State.build_setScan (s : State) (h : Nat) (x : ScanHalf) : (s.setScan h x).build = s.build := rfl
@[simp] theorem State.mem_setScan (s : State) (h : Nat) (x : ScanHalf) : (s.setScan h x).mem = s.mem := rfl
@[simp] theorem State.out_setScan (s : State) (h : Nat) (x : ScanHalf) : (s.setScan h x).out = s.out := rfl
@[simp] theorem State.lamp_setLamp_same (s : State) (h : Nat) (x : LampHalf) : (s.setLamp h x).lamp h = x := Sparse.look_put_same _ _ _ _
theorem State.lamp_setLamp_ne (s : State) {h k_ : Nat} (x : LampHalf) (h_ : k_ ≠ h) : (s.setLamp h x).lamp k_ = s.lamp k_ :=
  Sparse.look_put_ne _ _ _ h_
@[simp] theorem State.rd_setLamp (s : State) (h : Nat) (x : LampHalf) (f : Fld) : (s.setLamp h x).rd f = s.rd f := rfl
@[simp] theorem State.build_setLamp (s : State) (h : Nat) (x : LampHalf) : (s.setLamp h x).build = s.build := rfl
@[simp] theorem State.mem_setLamp (s : State) (h : Nat) (x : LampHalf) : (s.setLamp h x).mem = s.mem := rfl
@[simp] theorem State.out_setLamp (s : State) (h : Nat) (x : LampHalf) : (s.setLamp h x).out = s.out := rfl
@[simp] theorem State.chop_setChop_same (s : State) (r : Nat) (x : Chop) : (s.setChop r x).chop r = x := Sparse.look_put_same _ _ _ _
theorem State.chop_setChop_ne (s : State) {r k_ : Nat} (x : Chop) (h_ : k_ ≠ r) : (s.setChop r x).chop k_ = s.chop k_ :=
  Sparse.look_put_ne _ _ _ h_
@[simp] theorem State.rd_setChop (s : State) (r : Nat) (x : Chop) (f : Fld) : (s.setChop r x).rd f = s.rd f := rfl
@[simp] theorem State.build_setChop (s : State) (r : Nat) (x : Chop) : (s.setChop r x).build = s.build := rfl
@[simp] theorem State.mem_setChop (s : State) (r : Nat) (x : Chop) : (s.setChop r x).mem = s.mem := rfl
@[simp] theorem State.out_setChop (s : State) (r : Nat) (x : Chop) : (s.setChop r x).out = s.out := rfl
@[simp] theorem State.trv_setTrv_same (s : State) (g : Nat) (x : TrvGen) : (s.setTrv g x).trv g = x := Sparse.look_put_same _ _ _ _
theorem State.trv_setTrv_ne (s : State) {g k_ : Nat} (x : TrvGen) (h_ : k_ ≠ g) : (s.setTrv g x).trv k_ = s.trv k_ :=
  Sparse.look_put_ne _ _ _ h_
@[simp] theorem State.rd_setTrv (s : State) (g : Nat) (x : TrvGen) (f : Fld) : (s.setTrv g x).rd f = s.rd f := rfl
@[simp] theorem State.build_setTrv (s : State) (g : Nat) (x : TrvGen) : (s.setTrv g x).build = s.build := rfl
@[simp] theorem State.mem_setTrv (s : State) (g : Nat) (x : TrvGen) : (s.setTrv g x).mem = s.mem := rfl
@[simp] theorem State.out_setTrv (s : State) (g : Nat) (x : TrvGen) : (s.setTrv g x).out = s.out := rfl
@[simp] theorem State.sensor_setSensor_same (s : State) (n : Nat) (x : Sensor) : (s.setSensor n x).sensor n = x := Sparse.look_put_same _ _ _ _
theorem State.sensor_setSensor_ne (s : State) {n k_ : Nat} (x : Sensor) (h_ : k_ ≠ n) : (s.setSensor n x).sensor k_ = s.sensor k_ :=
  Sparse.look_put_ne _ _ _ h_
@[simp] theorem State.rd_setSensor (s : State) (n : Nat) (x : Sensor) (f : Fld) : (s.setSensor n x).rd f = s.rd f := rfl
@[simp] theorem State.build_setSensor (s : State) (n : Nat) (x : Sensor) : (s.setSensor n x).build = s.build := rfl
@[simp] theorem State.mem_setSensor (s : State) (n : Nat) (x : Sensor) : (s.setSensor n x).mem = s.mem := rfl
@[simp] theorem State.out_setSensor (s : State) (n : Nat) (x : Sensor) : (s.setSensor n x).out = s.out := rfl
@[simp] theorem State.src_setSrc_same (s : State) (n : Nat) (x : Src) : (s.setSrc n x).src n = x := Sparse.look_put_same _ _ _ _
theorem State.src_setSrc_ne (s : State) {n k_ : Nat} (x : Src) (h_ : k_ ≠ n) : (s.setSrc n x).src k_ = s.src k_ :=
  Sparse.look_put_ne _ _ _ h_
@[simp] theorem State.rd_setSrc (s : State) (n : Nat) (x : Src) (f : Fld) : (s.setSrc n x).rd f = s.rd f := rfl
@[simp] theorem State.build_setSrc (s : State) (n : Nat) (x : Src) : (s.setSrc n x).build = s.build := rfl
@[simp] theorem State.mem_setSrc (s : State) (n : Nat) (x : Src) : (s.setSrc n x).mem = s.mem := rfl
@[simp] theorem State.out_setSrc (s : State) (n : Nat) (x : Src) : (s.setSrc n x).out = s.out := rfl
@[simp] theorem State.st_setSt_same (s : State) (k : Nat) (x : St2110) : (s.setSt k x).st k = x := Sparse.look_put_same _ _ _ _
theorem State.st_setSt_ne (s : State) {k k_ : Nat} (x : St2110) (h_ : k_ ≠ k) : (s.setSt k x).st k_ = s.st k_ :=
  Sparse.look_put_ne _ _ _ h_
@[simp] theorem State.rd_setSt (s : State) (k : Nat) (x : St2110) (f : Fld) : (s.setSt k x).rd f = s.rd f := rfl
@[simp] theorem State.build_setSt (s : State) (k : Nat) (x : St2110) : (s.setSt k x).build = s.build := rfl
@[simp] theorem State.mem_setSt (s : State) (k : Nat) (x : St2110) : (s.setSt k x).mem = s.mem := rfl
@[simp] theorem State.out_setSt (s : State) (k : Nat) (x : St2110) : (s.setSt k x).out = s.out := rfl
@[simp] theorem State.jobsOf_setJobs_same (s : State) (ch : Nat) (x : List DmaJob) : (s.setJobs ch x).jobsOf ch = x := Sparse.look_put_same _ _ _ _
theorem State.jobsOf_setJobs_ne (s : State) {ch k_ : Nat} (x : List DmaJob) (h_ : k_ ≠ ch) : (s.setJobs ch x).jobsOf k_ = s.jobsOf k_ :=
  Sparse.look_put_ne _ _ _ h_
@[simp] theorem State.rd_setJobs (s : State) (ch : Nat) (x : List DmaJob) (f : Fld) : (s.setJobs ch x).rd f = s.rd f := rfl
@[simp] theorem State.build_setJobs (s : State) (ch : Nat) (x : List DmaJob) : (s.setJobs ch x).build = s.build := rfl
@[simp] theorem State.mem_setJobs (s : State) (ch : Nat) (x : List DmaJob) : (s.setJobs ch x).mem = s.mem := rfl
@[simp] theorem State.out_setJobs (s : State) (ch : Nat) (x : List DmaJob) : (s.setJobs ch x).out = s.out := rfl
@[simp] theorem State.rd_setLoop (s : State) (x : Loop) (f : Fld) : (s.setLoop x).rd f = s.rd f := rfl
@[simp] theorem State.build_setLoop (s : State) (x : Loop) : (s.setLoop x).build = s.build := rfl
@[simp] theorem State.mem_setLoop (s : State) (x : Loop) : (s.setLoop x).mem = s.mem := rfl
@[simp] theorem State.out_setLoop (s : State) (x : Loop) : (s.setLoop x).out = s.out := rfl
@[simp] theorem State.rd_setCal (s : State) (x : Cal) (f : Fld) : (s.setCal x).rd f = s.rd f := rfl
@[simp] theorem State.build_setCal (s : State) (x : Cal) : (s.setCal x).build = s.build := rfl
@[simp] theorem State.mem_setCal (s : State) (x : Cal) : (s.setCal x).mem = s.mem := rfl
@[simp] theorem State.out_setCal (s : State) (x : Cal) : (s.setCal x).out = s.out := rfl
@[simp] theorem State.rd_setPwr (s : State) (x : Power) (f : Fld) : (s.setPwr x).rd f = s.rd f := rfl
@[simp] theorem State.build_setPwr (s : State) (x : Power) : (s.setPwr x).build = s.build := rfl
@[simp] theorem State.mem_setPwr (s : State) (x : Power) : (s.setPwr x).mem = s.mem := rfl
@[simp] theorem State.out_setPwr (s : State) (x : Power) : (s.setPwr x).out = s.out := rfl
@[simp] theorem State.rd_setLay (s : State) (x : Layers) (f : Fld) : (s.setLay x).rd f = s.rd f := rfl
@[simp] theorem State.build_setLay (s : State) (x : Layers) : (s.setLay x).build = s.build := rfl
@[simp] theorem State.mem_setLay (s : State) (x : Layers) : (s.setLay x).mem = s.mem := rfl
@[simp] theorem State.out_setLay (s : State) (x : Layers) : (s.setLay x).out = s.out := rfl
@[simp] theorem State.rd_setEpc (s : State) (x : Epc) (f : Fld) : (s.setEpc x).rd f = s.rd f := rfl
@[simp] theorem State.build_setEpc (s : State) (x : Epc) : (s.setEpc x).build = s.build := rfl
@[simp] theorem State.mem_setEpc (s : State) (x : Epc) : (s.setEpc x).mem = s.mem := rfl
@[simp] theorem State.out_setEpc (s : State) (x : Epc) : (s.setEpc x).out = s.out := rfl
@[simp] theorem State.rd_setFold (s : State) (x : Fold) (f : Fld) : (s.setFold x).rd f = s.rd f := rfl
@[simp] theorem State.build_setFold (s : State) (x : Fold) : (s.setFold x).build = s.build := rfl
@[simp] theorem State.mem_setFold (s : State) (x : Fold) : (s.setFold x).mem = s.mem := rfl
@[simp] theorem State.out_setFold (s : State) (x : Fold) : (s.setFold x).out = s.out := rfl
@[simp] theorem State.rd_setEng (s : State) (x : Engines) (f : Fld) : (s.setEng x).rd f = s.rd f := rfl
@[simp] theorem State.build_setEng (s : State) (x : Engines) : (s.setEng x).build = s.build := rfl
@[simp] theorem State.mem_setEng (s : State) (x : Engines) : (s.setEng x).mem = s.mem := rfl
@[simp] theorem State.out_setEng (s : State) (x : Engines) : (s.setEng x).out = s.out := rfl

/-! ### Bytes of memory -/

/-- A byte reads what was written to it last. -/
theorem State.rd8_wr8_same (s : State) (h : Memory.wf s.mem = true) (sp : Space) (off : Nat) (v : Byte) :
    (s.wr8 sp off v).rd8 sp off = v := memGet_memPut_same h _ _

/-- A write of a byte leaves every other key as it was. -/
theorem State.memGet_wr8_ne (s : State) (sp : Space) (off : Nat) (v : Byte) {k : Nat} (h : k ≠ sp.key (sp.fold s.build off)) :
    memGet (s.wr8 sp off v).mem k = memGet s.mem k := memGet_memPut_ne _ _ h

end Sys2Proof.Machine
end

