-- ==== Sys2Proof/Laws/Access.lean ====
section
/-! SUPPORT. One law per shared operation of a register access: the request, the dword, the commands of a register, and the check of
the calibration's coverage after it. -/

namespace Sys2Proof.Machine

/-! ### The check of coverage after a write (R395) -/

theorem State.rd_calAbandon (s : State) {f : Fld} (h1 : f.key ≠ R.CAL_STATE_PHASE.key) (h2 : f.key ≠ R.CAL_CMD_RUN.key)
    (h3 : f.key ≠ R.CAL_EVT_ABORT.key) : s.calAbandon.rd f = s.rd f := by
  unfold State.calAbandon
  split
  · rw [State.rd_count_ne _ h3, State.rd_wr_ne _ _ h2, State.rd_wr_ne _ _ h1]; rfl
  · rfl

/-- What the check of coverage leaves alone: every field but the three of a run. -/
theorem State.rd_calCheck (s : State) {f : Fld} (h1 : f.key ≠ R.CAL_STATE_PHASE.key) (h2 : f.key ≠ R.CAL_CMD_RUN.key)
    (h3 : f.key ≠ R.CAL_EVT_ABORT.key) : s.calCheck.rd f = s.rd f := by
  unfold State.calCheck
  split
  · exact State.rd_calAbandon s h1 h2 h3
  · rfl

/-- The check of coverage changes registers and the record of the run only. -/
theorem State.calCheck_rest (s : State) : ∃ r c, s.calCheck = { s with regs := r, eng := { s.eng with cal := c } } := by
  unfold State.calCheck State.calAbandon State.calDrop
  split
  · split
    · exact ⟨_, _, rfl⟩
    · exact ⟨s.regs, s.eng.cal, rfl⟩
  · exact ⟨s.regs, s.eng.cal, rfl⟩

@[simp] theorem State.calCheck_build (s : State) : s.calCheck.build = s.build := by obtain ⟨_, _, h⟩ := s.calCheck_rest; rw [h]
@[simp] theorem State.calCheck_mem (s : State) : s.calCheck.mem = s.mem := by obtain ⟨_, _, h⟩ := s.calCheck_rest; rw [h]
@[simp] theorem State.calCheck_bus (s : State) : s.calCheck.bus = s.bus := by obtain ⟨_, _, h⟩ := s.calCheck_rest; rw [h]
@[simp] theorem State.calCheck_clk (s : State) : s.calCheck.clk = s.clk := by obtain ⟨_, _, h⟩ := s.calCheck_rest; rw [h]
@[simp] theorem State.calCheck_boot (s : State) : s.calCheck.boot = s.boot := by obtain ⟨_, _, h⟩ := s.calCheck_rest; rw [h]
@[simp] theorem State.calCheck_wdog (s : State) : s.calCheck.wdog = s.wdog := by obtain ⟨_, _, h⟩ := s.calCheck_rest; rw [h]
@[simp] theorem State.calCheck_cck (s : State) : s.calCheck.cck = s.cck := by obtain ⟨_, _, h⟩ := s.calCheck_rest; rw [h]
@[simp] theorem State.calCheck_host (s : State) : s.calCheck.host = s.host := by obtain ⟨_, _, h⟩ := s.calCheck_rest; rw [h]
@[simp] theorem State.calCheck_auth (s : State) : s.calCheck.auth = s.auth := by obtain ⟨_, _, h⟩ := s.calCheck_rest; rw [h]
@[simp] theorem State.calCheck_out (s : State) : s.calCheck.out = s.out := by obtain ⟨_, _, h⟩ := s.calCheck_rest; rw [h]
@[simp] theorem State.calCheck_pending (s : State) : s.calCheck.pending = s.pending := by obtain ⟨_, _, h⟩ := s.calCheck_rest; rw [h]

/-! ### The answer of a request (R75) -/

/-- The state after a write that was performed: the path is answered, but PCIe writes are posted. -/
def State.answered (s : State) (path : Path) : State := match path with | .pcie => s | _ => s.emit (.done path)

@[simp] theorem State.rd_answered (s : State) (path : Path) (f : Fld) : (s.answered path).rd f = s.rd f := by cases path <;> rfl
@[simp] theorem State.answered_build (s : State) (path : Path) : (s.answered path).build = s.build := by cases path <;> rfl
@[simp] theorem State.answered_mem (s : State) (path : Path) : (s.answered path).mem = s.mem := by cases path <;> rfl
@[simp] theorem State.answered_bus (s : State) (path : Path) : (s.answered path).bus = s.bus := by cases path <;> rfl
@[simp] theorem State.answered_clk (s : State) (path : Path) : (s.answered path).clk = s.clk := by cases path <;> rfl
@[simp] theorem State.answered_boot (s : State) (path : Path) : (s.answered path).boot = s.boot := by cases path <;> rfl
@[simp] theorem State.answered_wdog (s : State) (path : Path) : (s.answered path).wdog = s.wdog := by cases path <;> rfl
@[simp] theorem State.answered_cck (s : State) (path : Path) : (s.answered path).cck = s.cck := by cases path <;> rfl
@[simp] theorem State.answered_eng (s : State) (path : Path) : (s.answered path).eng = s.eng := by cases path <;> rfl
@[simp] theorem State.answered_auth (s : State) (path : Path) : (s.answered path).auth = s.auth := by cases path <;> rfl
@[simp] theorem State.answered_ports (s : State) (path : Path) : (s.answered path).ports = s.ports := by cases path <;> rfl

theorem dwordAt_zero (a : Nat) : dwordAt a 0 = a / 4 * 4 := by simp [dwordAt]

/-- A write of one dword, performed: the dword is written and the path is answered. -/
theorem State.pathWrite_word {s : State} {path : Path} {addr : Nat} {w : Word} (ho : s.pathOpen path = true)
    (he : s.busError path true addr 1 15 = none) :
    s.pathWrite path addr [w] 15 = (s.writeDword path (addr / 4 * 4) w.toNat).answered path := by
  unfold State.pathWrite State.writeReq
  simp only [ho, List.length_singleton, he, State.writeDwords, dwordAt_zero, Bool.not_true]
  cases path <;> rfl

/-- A write request refused as a whole changes nothing but the log of bus errors (R55, R75). -/
theorem State.pathWrite_refused {s : State} {path : Path} {addr : Nat} {data : List Word} {be a r : Nat} (ho : s.pathOpen path = true)
    (he : s.busError path true addr data.length be = some (a, r)) :
    s.pathWrite path addr data be =
      match path with
      | .pcie => s.logBerr a r true path s.ownNode
      | _ => (s.logBerr a r true path s.ownNode).emit (.abort path) := by
  unfold State.pathWrite State.writeReq
  simp only [ho, he, Bool.not_true]
  cases path <;> rfl

/-- A dword of a register page. -/
theorem State.writeDword_page {s : State} {path : Path} {a v : Nat} {b : Blk} {w : Nat} {l : List Fld} {high : Bool} (ha : a < 0x100000)
    (hb : winBlk (a / 16384) = some (b, w)) (hl : fldsAt b s.build w (a % 4096) = some (l, high)) :
    s.writeDword path a v = s.writeReg ⟨b, w, a % 4096, path, viewAt a, v⟩ high l := by
  unfold State.writeDword
  simp only [ha, if_true, hb, hl]

/-! ### Registers of commands alone -/

/-- Fields that a write does not set: commands and read-only fields. -/
def Fld.passive (f : Fld) : Bool := match f.cls with | .cm => true | .ro => true | _ => false

theorem State.judge_passive {s : State} {c : Wr} {high : Bool} {f : Fld} (h : f.passive = true) : s.judge c high f = .leave := by
  unfold Fld.passive at h
  unfold State.judge
  revert h
  cases f.cls <;> simp

theorem State.writeFlds_passive {s u : State} {c : Wr} {high : Bool} {l : List Fld} (h : l.all Fld.passive = true) :
    s.writeFlds c high l u = (u, []) := by
  unfold State.writeFlds
  induction l with
  | nil => rfl
  | cons f l ih =>
    simp only [List.all_cons, Bool.and_eq_true] at h
    rw [List.foldl_cons, State.judge_passive h.1]
    exact ih h.2

/-- A hardware update can be met only where a field is updated by hardware: a write of passive fields meets none. -/
theorem State.hwChosen_passive {s : State} {l : List Fld} (h : l.all Fld.passive = true) : s.hwChosen l = s := by
  unfold State.hwChosen
  have hl : l.any (fun f => f.cls = .hu && s.hwMeets f) = false := by
    rw [List.any_eq_false]
    intro f hf
    have hp := List.all_eq_true.mp h f hf
    unfold Fld.passive at hp
    revert hp
    cases f.cls <;> simp
  simp only [hl, Bool.false_eq_true, if_false]

theorem State.writeDwordFlds_passive {s : State} {c : Wr} {high : Bool} {l : List Fld} (h : l.all Fld.passive = true) (ho : c.off ≠ 4) :
    s.writeDwordFlds c high l = (s, []) := by
  simp only [State.writeDwordFlds, State.hwChosen_passive h, State.writeFlds_passive h, ho, decide_false, Bool.and_false,
    Bool.false_eq_true, if_false]

/-- A base or SET view write of a register that holds commands and read-only fields: its commands run; on the THM page HOT is judged too. -/
theorem State.writeReg_commands {s u : State} {c : Wr} {high : Bool} {l : List Fld} (hp : l.all Fld.passive = true)
    (hc : l.any (fun f => f.cls = .cm) = true) (hv : c.view = .base ∨ c.view = .set) (ho : c.off ≠ 4)
    (hi : instOf c.b c.w c.off = none) (hu : s.cmWrite c = (u, [])) :
    s.writeReg c high l = (if c.b = .THM then u.hotJudge else u).calCheck := by
  unfold State.writeReg State.enableWrite
  have hv' : (decide (c.view = .base) || decide (c.view = .set)) = true := by rcases hv with h | h <;> simp [h]
  simp only [State.writeDwordFlds_passive hp ho, hv', hc, Bool.and_self, if_true, hu, ho, if_false, hi, List.append_nil, countReason,
    List.find?_nil, List.getLast?_nil]

end Sys2Proof.Machine
end

