-- ==== Sys2Proof/Laws/Keep.lean ====
section
/-! SUPPORT. What every operation of the block keeps: the build, the queue of commands, the canonical form of the stores, what has been
put out, and the order of time and of free values. -/

namespace Sys2Proof.Machine

/-- `t` has the build and the queue of `s`; its stores are in canonical form if those of `s` are; what `s` has put out stands, older
than anything new; no free value is used twice, and time does not go back. -/
structure Keep (s t : State) : Prop where
  build : t.build = s.build
  pending : t.pending = s.pending
  wf : s.wf = true → t.wf = true
  out : s.out <:+ t.out
  free : s.freeCtr ≤ t.freeCtr
  now : s.nowNs ≤ t.nowNs

theorem Keep.refl (s : State) : Keep s s := ⟨rfl, rfl, id, List.suffix_refl _, Nat.le_refl _, Nat.le_refl _⟩

theorem Keep.trans {s t u : State} (h : Keep s t) (k : Keep t u) : Keep s u :=
  ⟨k.build.trans h.build, k.pending.trans h.pending, fun w => k.wf (h.wf w), h.out.trans k.out, h.free.trans k.free, h.now.trans k.now⟩

/-- An update of any other field keeps them all. -/
theorem Keep.upd_iff {s t : State} {bus pins clk boot wdog cck cairn epc ports seqs ingest host auth eth eng} :
    Keep s (State.mk t.build t.regs t.mem bus pins clk boot wdog cck cairn epc ports seqs ingest host auth eth eng t.out t.freeCtr t.nowNs
      t.pending) ↔ Keep s t :=
  ⟨fun h => ⟨h.build, h.pending, h.wf, h.out, h.free, h.now⟩, fun h => ⟨h.build, h.pending, h.wf, h.out, h.free, h.now⟩⟩

/-- An update of the register store that keeps its keys rising. -/
theorem Keep.regs {s t : State} (h : Keep s t) {r : List (Nat × Nat)} (hr : Rising t.regs → Rising r) {bus pins clk boot wdog cck cairn
    epc ports seqs ingest host auth eth eng} :
    Keep s (State.mk t.build r t.mem bus pins clk boot wdog cck cairn epc ports seqs ingest host auth eth eng t.out t.freeCtr t.nowNs
      t.pending) := by
  refine ⟨h.build, h.pending, fun w => ?_, h.out, h.free, h.now⟩
  have := h.wf w
  simp only [State.wf, Bool.and_eq_true, keysRise_keys] at this ⊢
  exact ⟨this.1, hr this.2⟩

/-- An update of memory that keeps its canonical form. -/
theorem Keep.mem {s t : State} (h : Keep s t) {m : List Host.Cell} (hm : Memory.wf t.mem = true → Memory.wf m = true) {bus pins clk boot
    wdog cck cairn epc ports seqs ingest host auth eth eng} :
    Keep s (State.mk t.build t.regs m bus pins clk boot wdog cck cairn epc ports seqs ingest host auth eth eng t.out t.freeCtr t.nowNs
      t.pending) := by
  refine ⟨h.build, h.pending, fun w => ?_, h.out, h.free, h.now⟩
  have := h.wf w
  simp only [State.wf, Bool.and_eq_true] at this ⊢
  exact ⟨hm this.1, this.2⟩

/-- Something put out. -/
theorem Keep.emit {s t : State} (h : Keep s t) (os : List Out) : Keep s { t with out := os ++ t.out } :=
  ⟨h.build, h.pending, h.wf, h.out.trans (List.suffix_append _ _), h.free, h.now⟩

/-- Free values used. -/
theorem Keep.use {s t : State} (h : Keep s t) (n : Nat) : Keep s { t with freeCtr := t.freeCtr + n } :=
  ⟨h.build, h.pending, h.wf, h.out, Nat.le_add_right_of_le h.free, h.now⟩

/-- Time passed. -/
theorem Keep.pass {s t : State} (h : Keep s t) (n : Nat) : Keep s { t with nowNs := t.nowNs + n } :=
  ⟨h.build, h.pending, h.wf, h.out, h.free, Nat.le_add_right_of_le h.now⟩

theorem State.useFree_keep {s t : State} (h : Keep s t) : Keep s t.useFree := h.use 1
theorem State.emit_keep {s t : State} {o : Out} (h : Keep s t) : Keep s (t.emit o) := Keep.emit h [o]
theorem State.emits_keep {s t : State} {os : List Out} (h : Keep s t) : Keep s (t.emits os) := Keep.emit h os.reverse

theorem ite_keep {s t u : State} {c : Prop} [Decidable c] (ht : c → Keep s t) (hu : ¬c → Keep s u) : Keep s (if c then t else u) := by
  split
  · exact ht ‹_›
  · exact hu ‹_›

theorem foldl_keep {β : Type} {s : State} (f : State → β → State) (l : List β) (hf : ∀ a b, Keep s a → Keep s (f a b)) {t : State}
    (h : Keep s t) : Keep s (l.foldl f t) := by
  induction l generalizing t with
  | nil => exact h
  | cons b l ih => exact ih (hf t b h)

/-- What holds at the start of a walk and is kept by each step of it holds at its end. -/
theorem foldl_inv {α β : Type} (P : α → Prop) (f : α → β → α) (l : List β) (hf : ∀ a b, P a → P (f a b)) {x : α} (h : P x) :
    P (l.foldl f x) := by
  induction l generalizing x with
  | nil => exact h
  | cons b l ih => exact ih (hf x b h)

theorem forN_inv {α : Type} (P : α → Prop) {n : Nat} {f : Nat → α → α} {x : α} (h : P x) (hf : ∀ i a, P a → P (f i a)) :
    P (forN n f x) := foldl_inv P _ _ (fun a i k => hf i a k) h

theorem forL_inv {α β : Type} (P : α → Prop) {l : List β} {f : β → α → α} {x : α} (h : P x) (hf : ∀ b a, P a → P (f b a)) :
    P (forL l f x) := foldl_inv P _ _ (fun a b k => hf b a k) h

theorem forN_keep {s t : State} {n : Nat} {f : Nat → State → State} (h : Keep s t) (hf : ∀ i a, Keep s a → Keep s (f i a)) :
    Keep s (forN n f t) := foldl_keep _ _ (fun a i k => hf i a k) h

theorem forL_keep {β : Type} {s t : State} {l : List β} {f : β → State → State} (h : Keep s t) (hf : ∀ b a, Keep s a → Keep s (f b a)) :
    Keep s (forL l f t) := foldl_keep _ _ (fun a b k => hf b a k) h

theorem Rising.forL_put {β : Type} (l : List β) (k : β → Nat) (v : β → Nat) {r : List (Nat × Nat)} (h : Rising r) :
    Rising (forL l (fun e m => Sparse.put m (k e) (v e)) r) := by
  unfold forL
  induction l generalizing r with
  | nil => exact h
  | cons e l ih => exact ih (h.put _ _)

theorem State.wr_keep {s t : State} (h : Keep s t) {f : Fld} {v : Nat} : Keep s (t.wr f v) := h.regs (fun r => r.put _ _)

theorem State.wr8_keep {s t : State} (h : Keep s t) {sp : Space} {off : Nat} {v : Byte} : Keep s (t.wr8 sp off v) :=
  h.mem (fun m => memPut_wf m _ _)

theorem State.wrLE_keep {s t : State} {sp : Space} {off v n : Nat} (h : Keep s t) : Keep s (t.wrLE sp off v n) := by
  induction n generalizing t off v with
  | zero => exact h
  | succ n ih => exact ih (State.wr8_keep h)

theorem State.wrBytes_keep {s t : State} {sp : Space} {off : Nat} {l : List Byte} (h : Keep s t) : Keep s (t.wrBytes sp off l) := by
  induction l generalizing t off with
  | nil => exact h
  | cons b l ih => exact ih (State.wr8_keep h)

end Sys2Proof.Machine
end

