-- ==== Sys2Proof/Laws/KeepBase.lean ====
section
/-! SUPPORT. The basic operations keep the build, the queue and the form of the stores. -/

set_option linter.unusedTactic false
set_option linter.unusedSimpArgs false
set_option linter.unreachableTactic false

namespace Sys2Proof.Machine

theorem strapRegs_rising (b : Build) (p : Pins) : Rising (strapRegs b p) := by
  rw [← keysRise_keys]
  cases b <;> rfl

theorem State.useFrees_keep {s t : State} {n : Nat} (h : Keep s t) : Keep s (t.useFrees n) := h.use n

theorem State.vectorPend_keep {s t : State} {fn : Nat} {v : Nat} (h : Keep s t) : Keep s (State.vectorPend t fn v) := by
  unfold State.vectorPend
  repeat' first
    | with_reducible assumption
    | (with_reducible apply State.emit_keep)
    | with_reducible apply ite_keep
    | intro _
    | simp only [Keep.upd_iff]
    | with_reducible apply Keep.use
    | split

theorem State.setCfg_keep {s t : State} {fn : Nat} {r : CfgReg} {v : Nat} (h : Keep s t) : Keep s (State.setCfg t fn r v) := by
  unfold State.setCfg
  repeat' first
    | with_reducible assumption
    | with_reducible apply ite_keep
    | intro _
    | simp only [Keep.upd_iff]
    | with_reducible apply Keep.use
    | split

theorem State.msixCfg_keep {s t : State} {fn : Nat} {r : CfgReg} {v : Nat} (h : Keep s t) : Keep s (State.msixCfg t fn r v) := by
  unfold State.msixCfg
  repeat' first
    | with_reducible assumption
    | (with_reducible apply State.vectorPend_keep)
    | (with_reducible apply State.setCfg_keep)
    | with_reducible apply foldl_keep
    | with_reducible apply ite_keep
    | intro _
    | simp only [Keep.upd_iff]
    | with_reducible apply Keep.use
    | split

theorem State.inc_keep {s t : State} {f : Fld} (h : Keep s t) : Keep s (State.inc t f) := by
  unfold State.inc
  repeat' first
    | with_reducible assumption
    | (with_reducible apply State.wr_keep)
    | with_reducible apply ite_keep
    | intro _
    | simp only [Keep.upd_iff]
    | with_reducible apply Keep.use
    | split

theorem State.vector_keep {s t : State} {fn : Nat} {v : Nat} (h : Keep s t) : Keep s (State.vector t fn v) := by
  unfold State.vector
  repeat' first
    | with_reducible assumption
    | (with_reducible apply State.emit_keep)
    | with_reducible apply ite_keep
    | intro _
    | simp only [Keep.upd_iff]
    | with_reducible apply Keep.use
    | split

theorem State.bump_keep {s t : State} {f : Fld} {n : Nat} (h : Keep s t) : Keep s (State.bump t f n) := by
  unfold State.bump
  repeat' first
    | with_reducible assumption
    | (with_reducible apply State.wr_keep)
    | with_reducible apply ite_keep
    | intro _
    | simp only [Keep.upd_iff]
    | with_reducible apply Keep.use
    | split

theorem State.wr32_keep {s t : State} {sp : Space} {off : Nat} {v : Nat} (h : Keep s t) : Keep s (State.wr32 t sp off v) := by
  unfold State.wr32
  repeat' first
    | with_reducible assumption
    | (with_reducible apply State.wrLE_keep)
    | with_reducible apply ite_keep
    | intro _
    | simp only [Keep.upd_iff]
    | with_reducible apply Keep.use
    | split

theorem State.wrI_keep {s t : State} {f : Fld} {v : Int} (h : Keep s t) : Keep s (State.wrI t f v) := by
  unfold State.wrI
  repeat' first
    | with_reducible assumption
    | (with_reducible apply State.wr_keep)
    | with_reducible apply ite_keep
    | intro _
    | simp only [Keep.upd_iff]
    | with_reducible apply Keep.use
    | split

theorem State.gpioShow_keep {s t : State} (h : Keep s t) : Keep s (State.gpioShow t) := by
  unfold State.gpioShow
  repeat' first
    | with_reducible assumption
    | (with_reducible apply State.emit_keep)
    | with_reducible apply ite_keep
    | intro _
    | simp only [Keep.upd_iff]
    | with_reducible apply Keep.use
    | split

theorem State.msixWrite_keep {s t : State} {fn : Nat} {off : Nat} {v : Nat} (h : Keep s t) : Keep s (State.msixWrite t fn off v) := by
  unfold State.msixWrite
  repeat' first
    | with_reducible assumption
    | (with_reducible apply State.vectorPend_keep)
    | with_reducible apply ite_keep
    | intro _
    | simp only [Keep.upd_iff]
    | with_reducible apply Keep.use
    | split

theorem State.wrBits_keep {s t : State} {sp : Space} {a : Nat} {bit : Nat} {n : Nat} {v : Nat} (h : Keep s t) : Keep s (State.wrBits t sp a bit n v) := by
  unfold State.wrBits
  repeat' first
    | with_reducible assumption
    | (with_reducible apply State.wrLE_keep)
    | with_reducible apply ite_keep
    | intro _
    | simp only [Keep.upd_iff]
    | with_reducible apply Keep.use
    | split

theorem State.count_keep {s t : State} {f : Fld} (h : Keep s t) : Keep s (State.count t f) := by
  unfold State.count
  repeat' first
    | with_reducible assumption
    | (with_reducible apply State.bump_keep)
    | with_reducible apply ite_keep
    | intro _
    | simp only [Keep.upd_iff]
    | with_reducible apply Keep.use
    | split

theorem State.wrB_keep {s t : State} {f : Fld} {b : Bool} (h : Keep s t) : Keep s (State.wrB t f b) := by
  unfold State.wrB
  repeat' first
    | with_reducible assumption
    | (with_reducible apply State.wr_keep)
    | with_reducible apply ite_keep
    | intro _
    | simp only [Keep.upd_iff]
    | with_reducible apply Keep.use
    | split

theorem State.setRun_keep {s t : State} {b : Blk} {w : Nat} {v : Nat} (h : Keep s t) : Keep s (State.setRun t b w v) := by
  unfold State.setRun
  repeat' first
    | with_reducible assumption
    | (with_reducible apply State.wr_keep)
    | with_reducible apply ite_keep
    | intro _
    | simp only [Keep.upd_iff]
    | with_reducible apply Keep.use
    | split

theorem State.aer_keep {s t : State} {fn : Nat} {bit : Nat} (h : Keep s t) : Keep s (State.aer t fn bit) := by
  unfold State.aer
  repeat' first
    | with_reducible assumption
    | (with_reducible apply State.setCfg_keep)
    | with_reducible apply ite_keep
    | intro _
    | simp only [Keep.upd_iff]
    | with_reducible apply Keep.use
    | split

theorem State.setPort_keep {s t : State} {id : Nat} {p : Port} (h : Keep s t) : Keep s (State.setPort t id p) := by
  unfold State.setPort
  repeat' first
    | with_reducible assumption
    | with_reducible apply ite_keep
    | intro _
    | simp only [Keep.upd_iff]
    | with_reducible apply Keep.use
    | split

theorem State.enqueue_keep {s t : State} {id : Nat} {q : QCell} (h : Keep s t) : Keep s (State.enqueue t id q) := by
  unfold State.enqueue
  repeat' first
    | with_reducible assumption
    | (with_reducible apply State.setPort_keep)
    | (with_reducible apply State.count_keep)
    | with_reducible apply ite_keep
    | intro _
    | simp only [Keep.upd_iff]
    | with_reducible apply Keep.use
    | split

theorem State.ctlSeq_keep {s t : State} {node : Nat} (h : Keep s t) : Keep s (State.ctlSeq t node).2.2 := by
  unfold State.ctlSeq
  repeat' first
    | with_reducible assumption
    | with_reducible apply ite_keep
    | intro _
    | simp only [Keep.upd_iff]
    | with_reducible apply Keep.use
    | split

theorem State.ctlSeq_keep_eq {s t : State} {node : Nat} {p_ : _} (h : Keep s t) (e : State.ctlSeq t node = p_) : Keep s p_.2.2 :=
  e ▸ State.ctlSeq_keep h

theorem State.sendCell_keep {s t : State} {id : Nat} {c : Cell} (h : Keep s t) : Keep s (State.sendCell t id c) := by
  unfold State.sendCell
  repeat' first
    | with_reducible assumption
    | (with_reducible apply State.enqueue_keep)
    | with_reducible apply ite_keep
    | intro _
    | simp only [Keep.upd_iff]
    | with_reducible apply Keep.use
    | split

theorem State.passSpur_keep {s t : State} {h_ : Nat} {c : Cell} (h : Keep s t) : Keep s (State.passSpur t h_ c) := by
  unfold State.passSpur
  repeat' first
    | with_reducible assumption
    | (with_reducible apply State.sendCell_keep)
    | (with_reducible apply State.count_keep)
    | with_reducible apply ite_keep
    | intro _
    | simp only [Keep.upd_iff]
    | with_reducible apply Keep.use
    | split

theorem State.dedup_keep {s t : State} {id : Nat} {c : Cell} (h : Keep s t) : Keep s (State.dedup t id c).2 := by
  unfold State.dedup
  repeat' first
    | with_reducible assumption
    | (with_reducible apply State.count_keep)
    | (with_reducible apply State.wr_keep)
    | with_reducible apply ite_keep
    | intro _
    | simp only [Keep.upd_iff]
    | with_reducible apply Keep.use
    | split

theorem State.dedup_keep_eq {s t : State} {id : Nat} {c : Cell} {p_ : _} (h : Keep s t) (e : State.dedup t id c = p_) : Keep s p_.2 :=
  e ▸ State.dedup_keep h

theorem State.sendSpur_keep {s t : State} {h_ : Nat} {c : Cell} (h : Keep s t) : Keep s (State.sendSpur t h_ c) := by
  unfold State.sendSpur
  repeat' first
    | with_reducible assumption
    | (with_reducible apply State.passSpur_keep)
    | with_reducible apply ite_keep
    | intro _
    | simp only [Keep.upd_iff]
    | with_reducible apply Keep.use
    | split

theorem State.clearKeys_keep {s t : State} (h : Keep s t) : Keep s (State.clearKeys t) := by
  unfold State.clearKeys
  repeat' first
    | with_reducible assumption
    | (with_reducible apply State.wr_keep)
    | with_reducible apply ite_keep
    | intro _
    | simp only [Keep.upd_iff]
    | with_reducible apply Keep.use
    | split

theorem State.setRingAuth_keep {s t : State} {r : Nat} {a : RingAuth} (h : Keep s t) : Keep s (State.setRingAuth t r a) := by
  unfold State.setRingAuth
  repeat' first
    | with_reducible assumption
    | with_reducible apply ite_keep
    | intro _
    | simp only [Keep.upd_iff]
    | with_reducible apply Keep.use
    | split

theorem State.sendBoth_keep {s t : State} {r : Nat} {c : Cell} (h : Keep s t) : Keep s (State.sendBoth t r c) := by
  unfold State.sendBoth
  repeat' first
    | with_reducible assumption
    | (with_reducible apply State.sendCell_keep)
    | with_reducible apply ite_keep
    | intro _
    | simp only [Keep.upd_iff]
    | with_reducible apply Keep.use
    | split

theorem State.receive_keep {s t : State} {id : Nat} {c : Cell} (h : Keep s t) : Keep s (State.receive t id c).2 := by
  unfold State.receive
  repeat' first
    | with_reducible assumption
    | (with_reducible apply State.dedup_keep)
    | (with_reducible refine State.dedup_keep_eq ?_ (by assumption))
    | with_reducible apply ite_keep
    | intro _
    | simp only [Keep.upd_iff]
    | with_reducible apply Keep.use
    | split

theorem State.receive_keep_eq {s t : State} {id : Nat} {c : Cell} {p_ : _} (h : Keep s t) (e : State.receive t id c = p_) : Keep s p_.2 :=
  e ▸ State.receive_keep h

theorem State.originate_keep {s t : State} {r : Nat} {mk : Cell → Cell} {typ : Nat} {dest : Nat} {payload : List Byte} (h : Keep s t) : Keep s (State.originate t r mk typ dest payload) := by
  unfold State.originate
  repeat' first
    | with_reducible assumption
    | (with_reducible apply State.ctlSeq_keep)
    | (with_reducible refine State.ctlSeq_keep_eq ?_ (by assumption))
    | (with_reducible apply State.sendBoth_keep)
    | with_reducible apply ite_keep
    | intro _
    | simp only [Keep.upd_iff]
    | with_reducible apply Keep.use
    | split

theorem State.forwardCell_keep {s t : State} {id : Nat} {q : QCell} (h : Keep s t) : Keep s (State.forwardCell t id q) := by
  unfold State.forwardCell
  repeat' first
    | with_reducible assumption
    | (with_reducible apply State.enqueue_keep)
    | with_reducible apply ite_keep
    | intro _
    | simp only [Keep.upd_iff]
    | with_reducible apply Keep.use
    | split

theorem State.originateSpur_keep {s t : State} {h_ : Nat} {mk : Cell → Cell} {typ : Nat} {dest : Nat} {payload : List Byte} (h : Keep s t) : Keep s (State.originateSpur t h_ mk typ dest payload) := by
  unfold State.originateSpur
  repeat' first
    | with_reducible assumption
    | (with_reducible apply State.ctlSeq_keep)
    | (with_reducible refine State.ctlSeq_keep_eq ?_ (by assumption))
    | (with_reducible apply State.sendSpur_keep)
    | with_reducible apply ite_keep
    | intro _
    | simp only [Keep.upd_iff]
    | with_reducible apply Keep.use
    | split

theorem State.takeAlias_keep {s t : State} {g : Nat} {h_ : Nat} (h : Keep s t) : Keep s (State.takeAlias t g h_) := by
  unfold State.takeAlias
  repeat' first
    | with_reducible assumption
    | (with_reducible apply State.count_keep)
    | with_reducible apply ite_keep
    | intro _
    | simp only [Keep.upd_iff]
    | with_reducible apply Keep.use
    | split

theorem State.seeTerm_keep {s t : State} {t_ : Nat} (h : Keep s t) : Keep s (State.seeTerm t t_) := by
  unfold State.seeTerm
  repeat' first
    | with_reducible assumption
    | (with_reducible apply State.wr32_keep)
    | with_reducible apply ite_keep
    | intro _
    | simp only [Keep.upd_iff]
    | with_reducible apply Keep.use
    | split

theorem State.queueVector_keep {s t : State} {q : Nat} (h : Keep s t) : Keep s (State.queueVector t q) := by
  unfold State.queueVector
  repeat' first
    | with_reducible assumption
    | (with_reducible apply State.vector_keep)
    | with_reducible apply ite_keep
    | intro _
    | simp only [Keep.upd_iff]
    | with_reducible apply Keep.use
    | split

theorem State.putRecord_keep {s t : State} {q : Nat} {payload : List Byte} (h : Keep s t) : Keep s (State.putRecord t q payload) := by
  unfold State.putRecord
  repeat' first
    | with_reducible assumption
    | (with_reducible apply State.emit_keep)
    | (with_reducible apply State.queueVector_keep)
    | (with_reducible apply State.inc_keep)
    | with_reducible apply ite_keep
    | intro _
    | simp only [Keep.upd_iff]
    | with_reducible apply Keep.use
    | split

theorem State.queueEvent_keep {s t : State} {q : Nat} {payload : List Byte} (h : Keep s t) : Keep s (State.queueEvent t q payload) := by
  unfold State.queueEvent
  repeat' first
    | with_reducible assumption
    | (with_reducible apply State.count_keep)
    | (with_reducible apply State.putRecord_keep)
    | with_reducible apply ite_keep
    | intro _
    | simp only [Keep.upd_iff]
    | with_reducible apply Keep.use
    | split

theorem State.setEpochNo_keep {s t : State} {v : Nat} (h : Keep s t) : Keep s (State.setEpochNo t v) := by
  unfold State.setEpochNo
  repeat' first
    | with_reducible assumption
    | with_reducible apply ite_keep
    | intro _
    | simp only [Keep.upd_iff]
    | with_reducible apply Keep.use
    | split

theorem State.setTerm_keep {s t : State} {r : Nat} {v : Nat} (h : Keep s t) : Keep s (State.setTerm t r v) := by
  unfold State.setTerm
  repeat' first
    | with_reducible assumption
    | with_reducible apply ite_keep
    | intro _
    | simp only [Keep.upd_iff]
    | with_reducible apply Keep.use
    | split

theorem State.follow_keep {s t : State} {term : Nat} {head : Nat} (h : Keep s t) : Keep s (State.follow t term head) := by
  unfold State.follow
  repeat' first
    | with_reducible assumption
    | (with_reducible apply State.wr_keep)
    | (with_reducible apply State.setTerm_keep)
    | with_reducible apply ite_keep
    | intro _
    | simp only [Keep.upd_iff]
    | with_reducible apply Keep.use
    | split

theorem State.offerPair_keep {s t : State} {term : Nat} {head : Nat} (h : Keep s t) : Keep s (State.offerPair t term head) := by
  unfold State.offerPair
  repeat' first
    | with_reducible assumption
    | (with_reducible apply State.follow_keep)
    | with_reducible apply ite_keep
    | intro _
    | simp only [Keep.upd_iff]
    | with_reducible apply Keep.use
    | split

theorem State.allRings_keep {s t : State} {role : Nat} (h : Keep s t) : Keep s (State.allRings t role) := by
  unfold State.allRings
  repeat' first
    | with_reducible assumption
    | (with_reducible apply State.setRingAuth_keep)
    | with_reducible apply forN_keep
    | with_reducible apply ite_keep
    | intro _
    | simp only [Keep.upd_iff]
    | with_reducible apply Keep.use
    | split

theorem State.sendResigns_keep {s t : State} {reason : Nat} (h : Keep s t) : Keep s (State.sendResigns t reason) := by
  unfold State.sendResigns
  repeat' first
    | with_reducible assumption
    | (with_reducible apply State.originate_keep)
    | (with_reducible apply State.ctlSeq_keep)
    | (with_reducible refine State.ctlSeq_keep_eq ?_ (by assumption))
    | (with_reducible apply State.sendCell_keep)
    | with_reducible apply forN_keep
    | with_reducible apply ite_keep
    | intro _
    | simp only [Keep.upd_iff]
    | with_reducible apply Keep.use
    | split

theorem State.dropOwn_keep {s t : State} {r : Nat} (h : Keep s t) : Keep s (State.dropOwn t r) := by
  unfold State.dropOwn
  repeat' first
    | with_reducible assumption
    | (with_reducible apply State.setPort_keep)
    | with_reducible apply forL_keep
    | with_reducible apply ite_keep
    | intro _
    | simp only [Keep.upd_iff]
    | with_reducible apply Keep.use
    | split

theorem State.raiseEvent_keep {s t : State} {b : Blk} {inst : Nat} {code : Nat} {data : List Byte} (h : Keep s t) : Keep s (State.raiseEvent t b inst code data) := by
  unfold State.raiseEvent
  repeat' first
    | with_reducible assumption
    | (with_reducible apply State.originate_keep)
    | (with_reducible apply State.useFree_keep)
    | (with_reducible apply State.queueEvent_keep)
    | (with_reducible apply State.originateSpur_keep)
    | with_reducible apply ite_keep
    | intro _
    | simp only [Keep.upd_iff]
    | with_reducible apply Keep.use
    | split

theorem State.giveUp_keep {s t : State} {reason : Nat} (h : Keep s t) : Keep s (State.giveUp t reason) := by
  unfold State.giveUp
  repeat' first
    | with_reducible assumption
    | (with_reducible apply State.wr_keep)
    | (with_reducible apply State.allRings_keep)
    | (with_reducible apply State.sendResigns_keep)
    | (with_reducible apply State.dropOwn_keep)
    | (with_reducible apply State.raiseEvent_keep)
    | with_reducible apply forN_keep
    | with_reducible apply ite_keep
    | intro _
    | simp only [Keep.upd_iff]
    | with_reducible apply Keep.use
    | split

theorem State.setLampEn_keep {s t : State} {b : Bool} (h : Keep s t) : Keep s (State.setLampEn t b) := by
  unfold State.setLampEn
  repeat' first
    | with_reducible assumption
    | with_reducible apply ite_keep
    | intro _
    | simp only [Keep.upd_iff]
    | with_reducible apply Keep.use
    | split

theorem State.cairnDisagree_keep {s t : State} {item : CairnItem} {copy : Nat} (h : Keep s t) : Keep s (State.cairnDisagree t item copy) := by
  unfold State.cairnDisagree
  repeat' first
    | with_reducible assumption
    | (with_reducible apply State.giveUp_keep)
    | (with_reducible apply State.setLampEn_keep)
    | (with_reducible apply State.wr_keep)
    | (with_reducible apply State.setTerm_keep)
    | (with_reducible apply State.raiseEvent_keep)
    | with_reducible apply ite_keep
    | intro _
    | simp only [Keep.upd_iff]
    | with_reducible apply Keep.use
    | split

theorem State.flushHeld_keep {s t : State} (h : Keep s t) : Keep s (State.flushHeld t) := by
  unfold State.flushHeld
  repeat' first
    | with_reducible assumption
    | (with_reducible apply State.putRecord_keep)
    | with_reducible apply foldl_keep
    | with_reducible apply ite_keep
    | intro _
    | simp only [Keep.upd_iff]
    | with_reducible apply Keep.use
    | split

theorem State.wedgeCore_keep {s t : State} (h : Keep s t) : Keep s (State.wedgeCore t) := by
  unfold State.wedgeCore
  repeat' first
    | with_reducible assumption
    | (with_reducible apply State.setRun_keep)
    | (with_reducible apply State.wr_keep)
    | with_reducible apply forN_keep
    | with_reducible apply forL_keep
    | with_reducible apply ite_keep
    | intro _
    | simp only [Keep.upd_iff]
    | with_reducible apply Keep.use
    | split

theorem State.rootLoss_keep {s t : State} (h : Keep s t) : Keep s (State.rootLoss t) := by
  unfold State.rootLoss
  repeat' first
    | with_reducible assumption
    | (with_reducible apply State.wr_keep)
    | (with_reducible apply State.wedgeCore_keep)
    | (with_reducible apply State.count_keep)
    | with_reducible apply ite_keep
    | intro _
    | simp only [Keep.upd_iff]
    | with_reducible apply Keep.use
    | split

theorem State.switchDone_keep {s t : State} (h : Keep s t) : Keep s (State.switchDone t) := by
  unfold State.switchDone
  repeat' first
    | with_reducible assumption
    | (with_reducible apply State.wr_keep)
    | with_reducible apply ite_keep
    | intro _
    | simp only [Keep.upd_iff]
    | with_reducible apply Keep.use
    | split

theorem State.pllEnTaken_keep {s t : State} (h : Keep s t) : Keep s (State.pllEnTaken t) := by
  unfold State.pllEnTaken
  repeat' first
    | with_reducible assumption
    | (with_reducible apply State.wr_keep)
    | with_reducible apply ite_keep
    | intro _
    | simp only [Keep.upd_iff]
    | with_reducible apply Keep.use
    | split

theorem State.clkSelStart_keep {s t u : State} {toRoot : Bool} {toRc : Bool} (h : Keep s t) (e : State.clkSelStart t toRoot toRc = .ok u) : Keep s u := by
  unfold State.clkSelStart at e
  try dsimp only at e
  repeat' first
    | contradiction
    | (cases e; done)
    | split at e
    | (injection e with e; subst e)
    | with_reducible assumption
    | (with_reducible apply State.wr_keep)
    | with_reducible apply ite_keep
    | intro _
    | simp only [Keep.upd_iff]
    | with_reducible apply Keep.use
    | split

theorem State.loadVerified_keep {s t : State} {i : ImageCheck} (h : Keep s t) : Keep s (State.loadVerified t i) := by
  unfold State.loadVerified
  repeat' first
    | with_reducible assumption
    | (with_reducible apply State.wr_keep)
    | (with_reducible apply State.count_keep)
    | with_reducible apply ite_keep
    | intro _
    | simp only [Keep.upd_iff]
    | with_reducible apply Keep.use
    | split

theorem State.startFw_keep {s t : State} {slot : Nat} {ver : Nat} {fb : Bool} (h : Keep s t) : Keep s (State.startFw t slot ver fb) := by
  unfold State.startFw
  repeat' first
    | with_reducible assumption
    | (with_reducible apply State.wr_keep)
    | (with_reducible apply State.wrB_keep)
    | with_reducible apply ite_keep
    | intro _
    | simp only [Keep.upd_iff]
    | with_reducible apply Keep.use
    | split

theorem State.handOver_keep {s t : State} (h : Keep s t) : Keep s (State.handOver t) := by
  unfold State.handOver
  repeat' first
    | with_reducible assumption
    | (with_reducible apply State.startFw_keep)
    | with_reducible apply ite_keep
    | intro _
    | simp only [Keep.upd_iff]
    | with_reducible apply Keep.use
    | split

theorem State.loadData_keep {s t : State} {v : Nat} (h : Keep s t) : Keep s (State.loadData t v) := by
  unfold State.loadData
  repeat' first
    | with_reducible assumption
    | (with_reducible apply State.wr_keep)
    | (with_reducible apply State.wr32_keep)
    | with_reducible apply ite_keep
    | intro _
    | simp only [Keep.upd_iff]
    | with_reducible apply Keep.use
    | split

theorem State.writeKey_keep {s t : State} {k : Nat} {d : Nat} (h : Keep s t) : Keep s (State.writeKey t k d) := by
  unfold State.writeKey
  repeat' first
    | with_reducible assumption
    | (with_reducible apply State.wr_keep)
    | with_reducible apply forN_keep
    | with_reducible apply ite_keep
    | intro _
    | simp only [Keep.upd_iff]
    | with_reducible apply Keep.use
    | split

theorem State.bootKeys_keep {s t : State} (h : Keep s t) : Keep s (State.bootKeys t) := by
  unfold State.bootKeys
  repeat' first
    | with_reducible assumption
    | (with_reducible apply State.writeKey_keep)
    | (with_reducible apply State.wr_keep)
    | (with_reducible apply State.wrB_keep)
    | with_reducible apply ite_keep
    | intro _
    | simp only [Keep.upd_iff]
    | with_reducible apply Keep.use
    | split

theorem State.kickWdog_keep {s t : State} (h : Keep s t) : Keep s (State.kickWdog t) := by
  unfold State.kickWdog
  repeat' first
    | with_reducible assumption
    | with_reducible apply ite_keep
    | intro _
    | simp only [Keep.upd_iff]
    | with_reducible apply Keep.use
    | split

theorem State.fullReset_keep {s t : State} {cause : ResetCause} (h : Keep s t) : Keep s (t.fullReset cause) := by
  unfold State.fullReset
  apply State.wr_keep
  apply State.wr_keep
  refine ⟨h.build, h.pending, fun w => ?_, ?_, h.free, h.now⟩
  · have hw := h.wf w
    simp only [State.wf, Bool.and_eq_true, keysRise_keys] at hw ⊢
    exact ⟨memFilter_wf hw.1 _, Rising.forL_put _ _ _ (strapRegs_rising _ _)⟩
  · dsimp only
    split
    · exact h.out
    · exact h.out.trans (List.suffix_cons _ _)

theorem State.enterRecovery_keep {s t : State} (h : Keep s t) : Keep s (State.enterRecovery t) := by
  unfold State.enterRecovery
  repeat' first
    | with_reducible assumption
    | (with_reducible apply State.wr_keep)
    | with_reducible apply ite_keep
    | intro _
    | simp only [Keep.upd_iff]
    | with_reducible apply Keep.use
    | split

theorem State.bootPll_keep {s t : State} (h : Keep s t) : Keep s (State.bootPll t) := by
  unfold State.bootPll
  repeat' first
    | with_reducible assumption
    | (with_reducible apply State.wr_keep)
    | with_reducible apply ite_keep
    | intro _
    | simp only [Keep.upd_iff]
    | with_reducible apply Keep.use
    | split

theorem State.wdogCfgTaken_keep {s t : State} (h : Keep s t) : Keep s (State.wdogCfgTaken t) := by
  unfold State.wdogCfgTaken
  repeat' first
    | with_reducible assumption
    | (with_reducible apply State.wr_keep)
    | (with_reducible apply State.kickWdog_keep)
    | with_reducible apply ite_keep
    | intro _
    | simp only [Keep.upd_iff]
    | with_reducible apply Keep.use
    | split

end Sys2Proof.Machine
end

