-- ==== Sys2Proof/Laws/KeepLink.lean ====
section
/-! SUPPORT. The operations of links, sources and ingest keep the build, the queue and the form of the stores. -/

set_option linter.unusedTactic false
set_option linter.unusedSimpArgs false
set_option linter.unreachableTactic false

namespace Sys2Proof.Machine

theorem State.sendCodeword_keep {s t : State} {id : Nat} {msg : List Nat} (h : Keep s t) : Keep s (State.sendCodeword t id msg) := by
  unfold State.sendCodeword
  repeat' first
    | with_reducible assumption
    | (with_reducible apply State.emit_keep)
    | (with_reducible apply State.setPort_keep)
    | with_reducible apply ite_keep
    | intro _
    | simp only [Keep.upd_iff]
    | with_reducible apply Keep.use
    | split

theorem State.lineMarker_keep {s t : State} {id : Nat} (h : Keep s t) : Keep s (State.lineMarker t id) := by
  unfold State.lineMarker
  repeat' first
    | with_reducible assumption
    | (with_reducible apply State.sendCodeword_keep)
    | with_reducible apply ite_keep
    | intro _
    | simp only [Keep.upd_iff]
    | with_reducible apply Keep.use
    | split

theorem State.lineStep_keep {s t : State} {id : Nat} (h : Keep s t) : Keep s (State.lineStep t id) := by
  unfold State.lineStep
  repeat' first
    | with_reducible assumption
    | (with_reducible apply State.sendCodeword_keep)
    | (with_reducible apply State.lineMarker_keep)
    | (with_reducible apply State.setPort_keep)
    | with_reducible apply ite_keep
    | intro _
    | simp only [Keep.upd_iff]
    | with_reducible apply Keep.use
    | split

theorem State.lineCell_keep {s t : State} {id : Nat} {bytes : List Byte} (h : Keep s t) : Keep s (State.lineCell t id bytes) := by
  unfold State.lineCell
  repeat' first
    | with_reducible assumption
    | (with_reducible apply State.lineStep_keep)
    | (with_reducible apply State.setPort_keep)
    | with_reducible apply ite_keep
    | intro _
    | simp only [Keep.upd_iff]
    | with_reducible apply Keep.use
    | split

theorem State.wireCell_keep {s t : State} {id : Nat} {c : Cell} {stomp : Bool} (h : Keep s t) : Keep s (State.wireCell t id c stomp) := by
  unfold State.wireCell
  repeat' first
    | with_reducible assumption
    | (with_reducible apply State.lineCell_keep)
    | (with_reducible apply State.emit_keep)
    | with_reducible apply ite_keep
    | intro _
    | simp only [Keep.upd_iff]
    | with_reducible apply Keep.use
    | split

theorem State.wireIdle_keep {s t : State} {id : Nat} (h : Keep s t) : Keep s (State.wireIdle t id) := by
  unfold State.wireIdle
  repeat' first
    | with_reducible assumption
    | (with_reducible apply State.lineCell_keep)
    | (with_reducible apply State.emit_keep)
    | with_reducible apply ite_keep
    | intro _
    | simp only [Keep.upd_iff]
    | with_reducible apply Keep.use
    | split

theorem State.wireMarkers_keep {s t : State} {id : Nat} (h : Keep s t) : Keep s (State.wireMarkers t id) := by
  unfold State.wireMarkers
  repeat' first
    | with_reducible assumption
    | (with_reducible apply State.sendCodeword_keep)
    | (with_reducible apply State.emit_keep)
    | with_reducible apply forN_keep
    | with_reducible apply ite_keep
    | intro _
    | simp only [Keep.upd_iff]
    | with_reducible apply Keep.use
    | split

theorem State.loseFrames_keep {s t : State} {f : Reasm → Bool} (h : Keep s t) : Keep s (State.loseFrames t f) := by
  unfold State.loseFrames
  repeat' first
    | with_reducible assumption
    | (with_reducible apply State.count_keep)
    | with_reducible apply forL_keep
    | with_reducible apply ite_keep
    | intro _
    | simp only [Keep.upd_iff]
    | with_reducible apply Keep.use
    | split

theorem State.portLost_keep {s t : State} {id : Nat} {st : Nat} (h : Keep s t) : Keep s (State.portLost t id st) := by
  unfold State.portLost
  repeat' first
    | with_reducible assumption
    | (with_reducible apply State.setPort_keep)
    | (with_reducible apply State.loseFrames_keep)
    | (with_reducible apply State.wr_keep)
    | with_reducible apply ite_keep
    | intro _
    | simp only [Keep.upd_iff]
    | with_reducible apply Keep.use
    | split

theorem State.sendTraining_keep {s t : State} {id : Nat} {k : Nat} {ready : Bool} (h : Keep s t) : Keep s (State.sendTraining t id k ready) := by
  unfold State.sendTraining
  repeat' first
    | with_reducible assumption
    | (with_reducible apply State.useFree_keep)
    | (with_reducible apply State.emit_keep)
    | with_reducible apply ite_keep
    | intro _
    | simp only [Keep.upd_iff]
    | with_reducible apply Keep.use
    | split

theorem State.trainingFrames_keep {s t : State} {id : Nat} (h : Keep s t) : Keep s (State.trainingFrames t id) := by
  unfold State.trainingFrames
  repeat' first
    | with_reducible assumption
    | (with_reducible apply State.sendTraining_keep)
    | with_reducible apply forL_keep
    | with_reducible apply ite_keep
    | intro _
    | simp only [Keep.upd_iff]
    | with_reducible apply Keep.use
    | split

theorem State.breakAdd_keep {s t : State} {p : Nat} {link : Nat} (h : Keep s t) : Keep s (State.breakAdd t p link) := by
  unfold State.breakAdd
  repeat' first
    | with_reducible assumption
    | (with_reducible apply State.wr_keep)
    | with_reducible apply ite_keep
    | intro _
    | simp only [Keep.upd_iff]
    | with_reducible apply Keep.use
    | split

theorem State.noteBreak_keep {s t : State} {id : Nat} {link : Nat} (h : Keep s t) : Keep s (State.noteBreak t id link) := by
  unfold State.noteBreak
  repeat' first
    | with_reducible assumption
    | (with_reducible apply State.breakAdd_keep)
    | with_reducible apply forL_keep
    | with_reducible apply ite_keep
    | intro _
    | simp only [Keep.upd_iff]
    | with_reducible apply Keep.use
    | split

theorem State.linkCell_keep {s t : State} {id : Nat} {typ : Nat} {link : Nat} (h : Keep s t) : Keep s (State.linkCell t id typ link) := by
  unfold State.linkCell
  repeat' first
    | with_reducible assumption
    | (with_reducible apply State.ctlSeq_keep)
    | (with_reducible refine State.ctlSeq_keep_eq ?_ (by assumption))
    | (with_reducible apply State.sendCell_keep)
    | with_reducible apply ite_keep
    | intro _
    | simp only [Keep.upd_iff]
    | with_reducible apply Keep.use
    | split

theorem State.portDown_keep {s t : State} {id : Nat} {st : Nat} (h : Keep s t) : Keep s (State.portDown t id st) := by
  unfold State.portDown
  repeat' first
    | with_reducible assumption
    | (with_reducible apply State.portLost_keep)
    | (with_reducible apply State.setPort_keep)
    | (with_reducible apply State.count_keep)
    | (with_reducible apply State.noteBreak_keep)
    | (with_reducible apply State.linkCell_keep)
    | (with_reducible apply State.raiseEvent_keep)
    | with_reducible apply ite_keep
    | intro _
    | simp only [Keep.upd_iff]
    | with_reducible apply Keep.use
    | split

theorem State.setStage_keep {s t : State} {id : Nat} {st : Nat} (h : Keep s t) : Keep s (State.setStage t id st) := by
  unfold State.setStage
  repeat' first
    | with_reducible assumption
    | (with_reducible apply State.wr_keep)
    | with_reducible apply forL_keep
    | with_reducible apply ite_keep
    | intro _
    | simp only [Keep.upd_iff]
    | with_reducible apply Keep.use
    | split

theorem State.stageFail_keep {s t : State} {id : Nat} {k : Nat} {reason : Nat} (h : Keep s t) : Keep s (State.stageFail t id k reason) := by
  unfold State.stageFail
  repeat' first
    | with_reducible assumption
    | (with_reducible apply State.portDown_keep)
    | (with_reducible apply State.count_keep)
    | (with_reducible apply State.wr_keep)
    | (with_reducible apply State.setPort_keep)
    | (with_reducible apply State.setStage_keep)
    | with_reducible apply ite_keep
    | intro _
    | simp only [Keep.upd_iff]
    | with_reducible apply Keep.use
    | split

theorem State.countSent_keep {s t : State} {id : Nat} (h : Keep s t) : Keep s (State.countSent t id) := by
  unfold State.countSent
  repeat' first
    | with_reducible assumption
    | (with_reducible apply State.bump_keep)
    | with_reducible apply ite_keep
    | intro _
    | simp only [Keep.upd_iff]
    | with_reducible apply Keep.use
    | split

theorem State.sendLocal_keep {s t : State} {id : Nat} {typ : Nat} {payload : List Byte} (h : Keep s t) : Keep s (State.sendLocal t id typ payload) := by
  unfold State.sendLocal
  repeat' first
    | with_reducible assumption
    | (with_reducible apply State.sendCell_keep)
    | (with_reducible apply State.wireCell_keep)
    | (with_reducible apply State.countSent_keep)
    | with_reducible apply ite_keep
    | intro _
    | simp only [Keep.upd_iff]
    | with_reducible apply Keep.use
    | split

theorem State.breakDel_keep {s t : State} {p : Nat} {link : Nat} (h : Keep s t) : Keep s (State.breakDel t p link) := by
  unfold State.breakDel
  repeat' first
    | with_reducible assumption
    | (with_reducible apply State.wr_keep)
    | with_reducible apply ite_keep
    | intro _
    | simp only [Keep.upd_iff]
    | with_reducible apply Keep.use
    | split

theorem State.noteUp_keep {s t : State} {id : Nat} {link : Nat} (h : Keep s t) : Keep s (State.noteUp t id link) := by
  unfold State.noteUp
  repeat' first
    | with_reducible assumption
    | (with_reducible apply State.breakDel_keep)
    | with_reducible apply forL_keep
    | with_reducible apply ite_keep
    | intro _
    | simp only [Keep.upd_iff]
    | with_reducible apply Keep.use
    | split

theorem State.sendDiscover_keep {s t : State} {p : Nat} (h : Keep s t) : Keep s (State.sendDiscover t p) := by
  unfold State.sendDiscover
  repeat' first
    | with_reducible assumption
    | (with_reducible apply State.ctlSeq_keep)
    | (with_reducible refine State.ctlSeq_keep_eq ?_ (by assumption))
    | (with_reducible apply State.sendCell_keep)
    | with_reducible apply ite_keep
    | intro _
    | simp only [Keep.upd_iff]
    | with_reducible apply Keep.use
    | split

theorem State.portIsUp_keep {s t : State} {id : Nat} (h : Keep s t) : Keep s (State.portIsUp t id) := by
  unfold State.portIsUp
  repeat' first
    | with_reducible assumption
    | (with_reducible apply State.wr_keep)
    | (with_reducible apply State.setStage_keep)
    | (with_reducible apply State.setPort_keep)
    | (with_reducible apply State.noteUp_keep)
    | (with_reducible apply State.linkCell_keep)
    | (with_reducible apply State.sendDiscover_keep)
    | with_reducible apply ite_keep
    | intro _
    | simp only [Keep.upd_iff]
    | with_reducible apply Keep.use
    | split

theorem State.stageStep_keep {s t : State} {id : Nat} {k : Nat} {i : StageInfo} (h : Keep s t) : Keep s (State.stageStep t id k i) := by
  unfold State.stageStep
  repeat' first
    | with_reducible assumption
    | (with_reducible apply State.wr_keep)
    | (with_reducible apply State.stageFail_keep)
    | (with_reducible apply State.wrB_keep)
    | (with_reducible apply State.setPort_keep)
    | (with_reducible apply State.setStage_keep)
    | (with_reducible apply State.sendLocal_keep)
    | (with_reducible apply State.portIsUp_keep)
    | with_reducible apply forL_keep
    | with_reducible apply ite_keep
    | intro _
    | simp only [Keep.upd_iff]
    | with_reducible apply Keep.use
    | split

theorem State.rxWakes_keep {s t : State} {k : Nat} (h : Keep s t) : Keep s (State.rxWakes t k) := by
  unfold State.rxWakes
  repeat' first
    | with_reducible assumption
    | (with_reducible apply State.wr_keep)
    | with_reducible apply ite_keep
    | intro _
    | simp only [Keep.upd_iff]
    | with_reducible apply Keep.use
    | split

theorem State.codeSync_keep {s t : State} {id : Nat} {k : Nat} (h : Keep s t) : Keep s (State.codeSync t id k) := by
  unfold State.codeSync
  repeat' first
    | with_reducible assumption
    | (with_reducible apply State.setPort_keep)
    | with_reducible apply ite_keep
    | intro _
    | simp only [Keep.upd_iff]
    | with_reducible apply Keep.use
    | split

theorem State.trained_keep {s t : State} {id : Nat} {k : Nat} {ready : Bool} (h : Keep s t) : Keep s (State.trained t id k ready) := by
  unfold State.trained
  repeat' first
    | with_reducible assumption
    | (with_reducible apply State.codeSync_keep)
    | (with_reducible apply State.setPort_keep)
    | with_reducible apply ite_keep
    | intro _
    | simp only [Keep.upd_iff]
    | with_reducible apply Keep.use
    | split

theorem State.stageDone_keep {s t : State} {id : Nat} {k : Nat} {i : StageInfo} (h : Keep s t) : Keep s (State.stageDone t id k i) := by
  unfold State.stageDone
  repeat' first
    | with_reducible assumption
    | (with_reducible apply State.trainingFrames_keep)
    | (with_reducible apply State.stageStep_keep)
    | (with_reducible apply State.rxWakes_keep)
    | (with_reducible apply State.trained_keep)
    | (with_reducible apply State.sendLocal_keep)
    | with_reducible apply ite_keep
    | intro _
    | simp only [Keep.upd_iff]
    | with_reducible apply Keep.use
    | split

theorem State.setLanePs_keep {s t : State} {id : Nat} {tx : Nat} {rx : Nat} (h : Keep s t) : Keep s (State.setLanePs t id tx rx) := by
  unfold State.setLanePs
  repeat' first
    | with_reducible assumption
    | (with_reducible apply State.wr_keep)
    | with_reducible apply forL_keep
    | with_reducible apply ite_keep
    | intro _
    | simp only [Keep.upd_iff]
    | with_reducible apply Keep.use
    | split

theorem State.startTraining_keep {s t : State} {id : Nat} (h : Keep s t) : Keep s (State.startTraining t id) := by
  unfold State.startTraining
  repeat' first
    | with_reducible assumption
    | (with_reducible apply State.setPort_keep)
    | (with_reducible apply State.setLanePs_keep)
    | (with_reducible apply State.setStage_keep)
    | (with_reducible apply State.wr_keep)
    | with_reducible apply ite_keep
    | intro _
    | simp only [Keep.upd_iff]
    | with_reducible apply Keep.use
    | split

theorem State.portStart_keep {s t : State} {id : Nat} (h : Keep s t) : Keep s (State.portStart t id) := by
  unfold State.portStart
  repeat' first
    | with_reducible assumption
    | (with_reducible apply State.clearKeys_keep)
    | (with_reducible apply State.wr_keep)
    | (with_reducible apply State.startTraining_keep)
    | with_reducible apply ite_keep
    | intro _
    | simp only [Keep.upd_iff]
    | with_reducible apply Keep.use
    | split

theorem State.portStop_keep {s t : State} {id : Nat} (h : Keep s t) : Keep s (State.portStop t id) := by
  unfold State.portStop
  repeat' first
    | with_reducible assumption
    | (with_reducible apply State.portDown_keep)
    | (with_reducible apply State.wr_keep)
    | (with_reducible apply State.setLanePs_keep)
    | (with_reducible apply State.setStage_keep)
    | (with_reducible apply State.setPort_keep)
    | with_reducible apply ite_keep
    | intro _
    | simp only [Keep.upd_iff]
    | with_reducible apply Keep.use
    | split

theorem State.portsSync_keep {s t : State} {id : Nat} (h : Keep s t) : Keep s (State.portsSync t id) := by
  unfold State.portsSync
  repeat' first
    | with_reducible assumption
    | (with_reducible apply State.portStart_keep)
    | (with_reducible apply State.portStop_keep)
    | with_reducible apply forL_keep
    | with_reducible apply ite_keep
    | intro _
    | simp only [Keep.upd_iff]
    | with_reducible apply Keep.use
    | split

theorem State.spurWindowSync_keep {s t : State} (h : Keep s t) : Keep s (State.spurWindowSync t) := by
  unfold State.spurWindowSync
  repeat' first
    | with_reducible assumption
    | (with_reducible apply State.portsSync_keep)
    | with_reducible apply forN_keep
    | with_reducible apply ite_keep
    | intro _
    | simp only [Keep.upd_iff]
    | with_reducible apply Keep.use
    | split

theorem State.headForwardBe_keep {s t : State} {c : Cell} (h : Keep s t) : Keep s (State.headForwardBe t c) := by
  unfold State.headForwardBe
  repeat' first
    | with_reducible assumption
    | (with_reducible apply State.forwardCell_keep)
    | (with_reducible apply State.count_keep)
    | with_reducible apply ite_keep
    | intro _
    | simp only [Keep.upd_iff]
    | with_reducible apply Keep.use
    | split

theorem State.ringWindowSync_keep {s t : State} {w : Nat} (h : Keep s t) : Keep s (State.ringWindowSync t w) := by
  unfold State.ringWindowSync
  repeat' first
    | with_reducible assumption
    | (with_reducible apply State.portsSync_keep)
    | with_reducible apply forN_keep
    | with_reducible apply ite_keep
    | intro _
    | simp only [Keep.upd_iff]
    | with_reducible apply Keep.use
    | split

theorem State.setNode_keep {s t : State} {n : Nat} (h : Keep s t) : Keep s (State.setNode t n) := by
  unfold State.setNode
  repeat' first
    | with_reducible assumption
    | (with_reducible apply State.wr_keep)
    | with_reducible apply ite_keep
    | intro _
    | simp only [Keep.upd_iff]
    | with_reducible apply Keep.use
    | split

theorem State.idleOut_keep {s t : State} {id : Nat} (h : Keep s t) : Keep s (State.idleOut t id) := by
  unfold State.idleOut
  repeat' first
    | with_reducible assumption
    | (with_reducible apply State.wireIdle_keep)
    | with_reducible apply ite_keep
    | intro _
    | simp only [Keep.upd_iff]
    | with_reducible apply Keep.use
    | split

theorem State.sendShareReq_keep {s t : State} {id : Nat} (h : Keep s t) : Keep s (State.sendShareReq t id) := by
  unfold State.sendShareReq
  repeat' first
    | with_reducible assumption
    | (with_reducible apply State.originate_keep)
    | with_reducible apply ite_keep
    | intro _
    | simp only [Keep.upd_iff]
    | with_reducible apply Keep.use
    | split

theorem State.boundaryOut_keep {s t : State} {id : Nat} (h : Keep s t) : Keep s (State.boundaryOut t id).1 := by
  unfold State.boundaryOut
  repeat' first
    | with_reducible assumption
    | (with_reducible apply State.setPort_keep)
    | (with_reducible apply State.idleOut_keep)
    | (with_reducible apply State.countSent_keep)
    | (with_reducible apply State.wireCell_keep)
    | (with_reducible apply State.sendShareReq_keep)
    | with_reducible apply ite_keep
    | intro _
    | simp only [Keep.upd_iff]
    | with_reducible apply Keep.use
    | split

theorem State.boundaryOut_keep_eq {s t : State} {id : Nat} {p_ : _} (h : Keep s t) (e : State.boundaryOut t id = p_) : Keep s p_.1 :=
  e ▸ State.boundaryOut_keep h

theorem State.updatePath_keep {s t : State} {r : Nat} (h : Keep s t) : Keep s (State.updatePath t r) := by
  unfold State.updatePath
  repeat' first
    | with_reducible assumption
    | (with_reducible apply State.wr_keep)
    | with_reducible apply ite_keep
    | intro _
    | simp only [Keep.upd_iff]
    | with_reducible apply Keep.use
    | split

theorem State.startMeasure_keep {s t : State} {id : Nat} (h : Keep s t) : Keep s (State.startMeasure t id) := by
  unfold State.startMeasure
  repeat' first
    | with_reducible assumption
    | (with_reducible apply State.setPort_keep)
    | with_reducible apply ite_keep
    | intro _
    | simp only [Keep.upd_iff]
    | with_reducible apply Keep.use
    | split

theorem State.eastGave_keep {s t : State} {b : Bool} (h : Keep s t) : Keep s (State.eastGave t b) := by
  unfold State.eastGave
  repeat' first
    | with_reducible assumption
    | (with_reducible apply State.setPort_keep)
    | with_reducible apply ite_keep
    | intro _
    | simp only [Keep.upd_iff]
    | with_reducible apply Keep.use
    | split

theorem State.testGen_keep {s t : State} {id : Nat} (h : Keep s t) : Keep s (State.testGen t id) := by
  unfold State.testGen
  repeat' first
    | with_reducible assumption
    | (with_reducible apply State.setPort_keep)
    | with_reducible apply ite_keep
    | intro _
    | simp only [Keep.upd_iff]
    | with_reducible apply Keep.use
    | split

theorem State.countRing_keep {s t : State} {id : Nat} {f : Nat → Fld} (h : Keep s t) : Keep s (State.countRing t id f) := by
  unfold State.countRing
  repeat' first
    | with_reducible assumption
    | (with_reducible apply State.count_keep)
    | with_reducible apply ite_keep
    | intro _
    | simp only [Keep.upd_iff]
    | with_reducible apply Keep.use
    | split

theorem State.trailerCount_keep {s t : State} {id : Nat} {c : Cell} (h : Keep s t) : Keep s (State.trailerCount t id c) := by
  unfold State.trailerCount
  repeat' first
    | with_reducible assumption
    | (with_reducible apply State.count_keep)
    | with_reducible apply ite_keep
    | intro _
    | simp only [Keep.upd_iff]
    | with_reducible apply Keep.use
    | split

theorem State.forwarded_keep {s t : State} {id : Nat} {c : Cell} (h : Keep s t) : Keep s (State.forwarded t id c).2 := by
  unfold State.forwarded
  repeat' first
    | with_reducible assumption
    | (with_reducible apply State.useFree_keep)
    | with_reducible apply ite_keep
    | intro _
    | simp only [Keep.upd_iff]
    | with_reducible apply Keep.use
    | split

theorem State.forwarded_keep_eq {s t : State} {id : Nat} {c : Cell} {p_ : _} (h : Keep s t) (e : State.forwarded t id c = p_) : Keep s p_.2 :=
  e ▸ State.forwarded_keep h

theorem State.cellIn_keep {s t : State} {id : Nat} {c : Cell} (h : Keep s t) : Keep s (State.cellIn t id c) := by
  unfold State.cellIn
  repeat' first
    | with_reducible assumption
    | (with_reducible apply State.countRing_keep)
    | (with_reducible apply State.bump_keep)
    | (with_reducible apply State.enqueue_keep)
    | (with_reducible apply State.trailerCount_keep)
    | (with_reducible apply State.count_keep)
    | (with_reducible apply State.headForwardBe_keep)
    | (with_reducible apply State.passSpur_keep)
    | (with_reducible apply State.forwarded_keep)
    | (with_reducible refine State.forwarded_keep_eq ?_ (by assumption))
    | (with_reducible apply State.forwardCell_keep)
    | with_reducible apply ite_keep
    | intro _
    | simp only [Keep.upd_iff]
    | with_reducible apply Keep.use
    | split

theorem State.applyDelays_keep {s t : State} (h : Keep s t) : Keep s (State.applyDelays t) := by
  unfold State.applyDelays
  repeat' first
    | with_reducible assumption
    | (with_reducible apply State.wr_keep)
    | (with_reducible apply State.setPort_keep)
    | (with_reducible apply State.updatePath_keep)
    | with_reducible apply forL_keep
    | with_reducible apply ite_keep
    | intro _
    | simp only [Keep.upd_iff]
    | with_reducible apply Keep.use
    | split

theorem State.setLaneTx_keep {s t : State} {id : Nat} {tx : Nat} (h : Keep s t) : Keep s (State.setLaneTx t id tx) := by
  unfold State.setLaneTx
  repeat' first
    | with_reducible assumption
    | (with_reducible apply State.wr_keep)
    | with_reducible apply forL_keep
    | with_reducible apply ite_keep
    | intro _
    | simp only [Keep.upd_iff]
    | with_reducible apply Keep.use
    | split

theorem State.neighTaken_keep {s t : State} {id : Nat} {c : Cell} (h : Keep s t) : Keep s (State.neighTaken t id c) := by
  unfold State.neighTaken
  repeat' first
    | with_reducible assumption
    | (with_reducible apply State.stageFail_keep)
    | (with_reducible apply State.wr_keep)
    | (with_reducible apply State.setPort_keep)
    | (with_reducible apply State.count_keep)
    | (with_reducible apply State.eastGave_keep)
    | (with_reducible apply State.setNode_keep)
    | with_reducible apply ite_keep
    | intro _
    | simp only [Keep.upd_iff]
    | with_reducible apply Keep.use
    | split

theorem State.setEng_keep {s t : State} {e_ : Engines} (h : Keep s t) : Keep s (State.setEng t e_) := by
  unfold State.setEng
  repeat' first
    | with_reducible assumption
    | with_reducible apply ite_keep
    | intro _
    | simp only [Keep.upd_iff]
    | with_reducible apply Keep.use
    | split

theorem State.setDch_keep {s t : State} {j : Nat} {x : DramCh} (h : Keep s t) : Keep s (State.setDch t j x) := by
  unfold State.setDch
  repeat' first
    | with_reducible assumption
    | (with_reducible apply State.setEng_keep)
    | with_reducible apply ite_keep
    | intro _
    | simp only [Keep.upd_iff]
    | with_reducible apply Keep.use
    | split

theorem State.dramAdmit_keep {s t : State} (h : Keep s t) : Keep s (State.dramAdmit t) := by
  unfold State.dramAdmit
  repeat' first
    | with_reducible assumption
    | (with_reducible apply State.setDch_keep)
    | with_reducible apply forN_keep
    | with_reducible apply ite_keep
    | intro _
    | simp only [Keep.upd_iff]
    | with_reducible apply Keep.use
    | split

theorem State.selfExit_keep {s t : State} {j : Nat} (h : Keep s t) : Keep s (State.selfExit t j) := by
  unfold State.selfExit
  repeat' first
    | with_reducible assumption
    | (with_reducible apply State.emit_keep)
    | (with_reducible apply State.wr_keep)
    | with_reducible apply ite_keep
    | intro _
    | simp only [Keep.upd_iff]
    | with_reducible apply Keep.use
    | split

theorem State.dramPost_keep {s t : State} {tag : Nat} {requester : Nat} {a : Nat} {write : Bool} (h : Keep s t) : Keep s (State.dramPost t tag requester a write) := by
  unfold State.dramPost
  repeat' first
    | with_reducible assumption
    | (with_reducible apply State.emit_keep)
    | (with_reducible apply State.count_keep)
    | (with_reducible apply State.selfExit_keep)
    | (with_reducible apply State.setDch_keep)
    | with_reducible apply ite_keep
    | intro _
    | simp only [Keep.upd_iff]
    | with_reducible apply Keep.use
    | split

theorem State.dramUseAs_keep {s t : State} {tag : Nat} {requester : Nat} {a : Nat} {n : Nat} {write : Bool} (h : Keep s t) : Keep s (State.dramUseAs t tag requester a n write) := by
  unfold State.dramUseAs
  repeat' first
    | with_reducible assumption
    | (with_reducible apply State.dramAdmit_keep)
    | (with_reducible apply State.dramPost_keep)
    | with_reducible apply forN_keep
    | with_reducible apply ite_keep
    | intro _
    | simp only [Keep.upd_iff]
    | with_reducible apply Keep.use
    | split

theorem State.dramUse_keep {s t : State} {requester : Nat} {a : Nat} {n : Nat} {write : Bool} (h : Keep s t) : Keep s (State.dramUse t requester a n write) := by
  unfold State.dramUse
  repeat' first
    | with_reducible assumption
    | (with_reducible apply State.dramUseAs_keep)
    | with_reducible apply ite_keep
    | intro _
    | simp only [Keep.upd_iff]
    | with_reducible apply Keep.use
    | split

theorem State.dramUses_keep {s t : State} {requester : Nat} {l : List (Nat × Nat)} {write : Bool} (h : Keep s t) : Keep s (State.dramUses t requester l write) := by
  unfold State.dramUses
  repeat' first
    | with_reducible assumption
    | (with_reducible apply State.dramUse_keep)
    | with_reducible apply forL_keep
    | with_reducible apply ite_keep
    | intro _
    | simp only [Keep.upd_iff]
    | with_reducible apply Keep.use
    | split

theorem State.dramRead_keep {s t : State} {requester : Nat} {a : Nat} {n : Nat} (h : Keep s t) : Keep s (State.dramRead t requester a n).2 := by
  unfold State.dramRead
  repeat' first
    | with_reducible assumption
    | (with_reducible apply State.dramUse_keep)
    | with_reducible apply ite_keep
    | intro _
    | simp only [Keep.upd_iff]
    | with_reducible apply Keep.use
    | split

theorem State.dramRead_keep_eq {s t : State} {requester : Nat} {a : Nat} {n : Nat} {p_ : _} (h : Keep s t) (e : State.dramRead t requester a n = p_) : Keep s p_.2 :=
  e ▸ State.dramRead_keep h

theorem State.dramWrite_keep {s t : State} {requester : Nat} {a : Nat} {l : List Byte} (h : Keep s t) : Keep s (State.dramWrite t requester a l) := by
  unfold State.dramWrite
  repeat' first
    | with_reducible assumption
    | (with_reducible apply State.wr8_keep)
    | (with_reducible apply State.dramUse_keep)
    | with_reducible apply forN_keep
    | with_reducible apply ite_keep
    | intro _
    | simp only [Keep.upd_iff]
    | with_reducible apply Keep.use
    | split

theorem State.measSync_keep {s t : State} {n : Nat} (h : Keep s t) : Keep s (State.measSync t n) := by
  unfold State.measSync
  repeat' first
    | with_reducible assumption
    | (with_reducible apply State.wr_keep)
    | with_reducible apply ite_keep
    | intro _
    | simp only [Keep.upd_iff]
    | with_reducible apply Keep.use
    | split

theorem State.clearDram_keep {s t : State} {a n : Nat} (h : Keep s t) : Keep s (t.clearDram a n) :=
  h.mem (fun m => memFilter_wf m _)

theorem State.setJobs_keep {s t : State} {ch : Nat} {l : List DmaJob} (h : Keep s t) : Keep s (State.setJobs t ch l) := by
  unfold State.setJobs
  repeat' first
    | with_reducible assumption
    | with_reducible apply ite_keep
    | intro _
    | simp only [Keep.upd_iff]
    | with_reducible apply Keep.use
    | split

theorem State.askHost_keep {s t : State} {r : DmaRead} {addr : Nat} (h : Keep s t) : Keep s (State.askHost t r addr) := by
  unfold State.askHost
  repeat' first
    | with_reducible assumption
    | (with_reducible apply State.emit_keep)
    | (with_reducible apply State.originateSpur_keep)
    | with_reducible apply ite_keep
    | intro _
    | simp only [Keep.upd_iff]
    | with_reducible apply Keep.use
    | split

theorem State.setSrc_keep {s t : State} {n : Nat} {x : Src} (h : Keep s t) : Keep s (State.setSrc t n x) := by
  unfold State.setSrc
  repeat' first
    | with_reducible assumption
    | with_reducible apply ite_keep
    | intro _
    | simp only [Keep.upd_iff]
    | with_reducible apply Keep.use
    | split

theorem State.frameBad_keep {s t : State} {n : Nat} (h : Keep s t) : Keep s (State.frameBad t n) := by
  unfold State.frameBad
  repeat' first
    | with_reducible assumption
    | (with_reducible apply State.setSrc_keep)
    | (with_reducible apply State.count_keep)
    | with_reducible apply ite_keep
    | intro _
    | simp only [Keep.upd_iff]
    | with_reducible apply Keep.use
    | split

theorem State.sofTaken_keep {s t : State} {ch : Nat} {d : Descriptor} (h : Keep s t) : Keep s (State.sofTaken t ch d) := by
  unfold State.sofTaken
  repeat' first
    | with_reducible assumption
    | (with_reducible apply State.frameBad_keep)
    | (with_reducible apply State.wr_keep)
    | (with_reducible apply State.setSrc_keep)
    | with_reducible apply ite_keep
    | intro _
    | simp only [Keep.upd_iff]
    | with_reducible apply Keep.use
    | split

theorem State.sofFirst_keep {s t : State} {ch : Nat} (h : Keep s t) : Keep s (State.sofFirst t ch) := by
  unfold State.sofFirst
  repeat' first
    | with_reducible assumption
    | (with_reducible apply State.sofTaken_keep)
    | (with_reducible apply State.setJobs_keep)
    | with_reducible apply ite_keep
    | intro _
    | simp only [Keep.upd_iff]
    | with_reducible apply Keep.use
    | split

theorem State.dmaTurn_keep {s t : State} {ch : Nat} {a : DmaAsk} (h : Keep s t) : Keep s (State.dmaTurn t ch a) := by
  unfold State.dmaTurn
  repeat' first
    | with_reducible assumption
    | (with_reducible apply State.setJobs_keep)
    | (with_reducible apply State.askHost_keep)
    | (with_reducible apply State.sofFirst_keep)
    | with_reducible apply forN_keep
    | with_reducible apply ite_keep
    | intro _
    | simp only [Keep.upd_iff]
    | with_reducible apply Keep.use
    | split

theorem State.dmaTurns_keep {s t : State} {n : Nat} (h : Keep s t) : Keep s (State.dmaTurns n t) := by
  induction n generalizing t with
  | zero => exact h
  | succ n ih =>
    unfold State.dmaTurns
    split
    · exact h
    · exact ite_keep (fun _ => h) (fun _ => ih (State.dmaTurn_keep h))

theorem State.dmaIssue_keep {s t : State} (h : Keep s t) : Keep s (State.dmaIssue t) := by
  unfold State.dmaIssue
  repeat' first
    | with_reducible assumption
    | (with_reducible apply State.dmaTurns_keep)
    | with_reducible apply ite_keep
    | intro _
    | simp only [Keep.upd_iff]
    | with_reducible apply Keep.use
    | split

theorem State.partIn_keep {s t : State} {tag : Nat} {off : Nat} {err : Bool} {data : List Byte} (h : Keep s t) : Keep s (State.partIn t tag off err data) := by
  unfold State.partIn
  repeat' first
    | with_reducible assumption
    | (with_reducible apply State.dmaIssue_keep)
    | (with_reducible apply State.setJobs_keep)
    | with_reducible apply foldl_keep
    | with_reducible apply ite_keep
    | intro _
    | simp only [Keep.upd_iff]
    | with_reducible apply Keep.use
    | split

theorem State.setSt_keep {s t : State} {k : Nat} {x : St2110} (h : Keep s t) : Keep s (State.setSt t k x) := by
  unfold State.setSt
  repeat' first
    | with_reducible assumption
    | with_reducible apply ite_keep
    | intro _
    | simp only [Keep.upd_iff]
    | with_reducible apply Keep.use
    | split

theorem State.srcStart_keep {s t : State} {n : Nat} (h : Keep s t) : Keep s (State.srcStart t n) := by
  unfold State.srcStart
  repeat' first
    | with_reducible assumption
    | (with_reducible apply State.setSt_keep)
    | (with_reducible apply State.wr_keep)
    | (with_reducible apply State.setSrc_keep)
    | with_reducible apply ite_keep
    | intro _
    | simp only [Keep.upd_iff]
    | with_reducible apply Keep.use
    | split

theorem State.srcStop_keep {s t : State} {n : Nat} (h : Keep s t) : Keep s (State.srcStop t n) := by
  unfold State.srcStop
  repeat' first
    | with_reducible assumption
    | (with_reducible apply State.wr_keep)
    | (with_reducible apply State.setSrc_keep)
    | with_reducible apply ite_keep
    | intro _
    | simp only [Keep.upd_iff]
    | with_reducible apply Keep.use
    | split

theorem State.srcSync_keep {s t : State} {n : Nat} (h : Keep s t) : Keep s (State.srcSync t n) := by
  unfold State.srcSync
  repeat' first
    | with_reducible assumption
    | (with_reducible apply State.srcStart_keep)
    | (with_reducible apply State.srcStop_keep)
    | with_reducible apply ite_keep
    | intro _
    | simp only [Keep.upd_iff]
    | with_reducible apply Keep.use
    | split

theorem State.setLeft_keep {s t : State} {r : Nat} {v : Nat} (h : Keep s t) : Keep s (State.setLeft t r v) := by
  unfold State.setLeft
  repeat' first
    | with_reducible assumption
    | with_reducible apply ite_keep
    | intro _
    | simp only [Keep.upd_iff]
    | with_reducible apply Keep.use
    | split

theorem State.pixSeq_keep {s t : State} {stream : Nat} {r : Nat} (h : Keep s t) : Keep s (State.pixSeq t stream r).2.2 := by
  unfold State.pixSeq
  repeat' first
    | with_reducible assumption
    | with_reducible apply ite_keep
    | intro _
    | simp only [Keep.upd_iff]
    | with_reducible apply Keep.use
    | split

theorem State.pixSeq_keep_eq {s t : State} {stream : Nat} {r : Nat} {p_ : _} (h : Keep s t) (e : State.pixSeq t stream r = p_) : Keep s p_.2.2 :=
  e ▸ State.pixSeq_keep h

theorem State.pixelSpur_keep {s t : State} {n : Nat} {stream : Nat} {loc : Bool} {mk : Nat → List Byte} (h : Keep s t) : Keep s (State.pixelSpur t n stream loc mk) := by
  unfold State.pixelSpur
  repeat' first
    | with_reducible assumption
    | (with_reducible apply State.pixSeq_keep)
    | (with_reducible refine State.pixSeq_keep_eq ?_ (by assumption))
    | (with_reducible apply State.sendSpur_keep)
    | with_reducible apply forL_keep
    | with_reducible apply ite_keep
    | intro _
    | simp only [Keep.upd_iff]
    | with_reducible apply Keep.use
    | split

theorem State.readHost_keep {s t : State} {fn : Nat} {tag : Nat} {addr : Nat} {len : Nat} {relaxed : Bool} (h : Keep s t) : Keep s (State.readHost t fn tag addr len relaxed) := by
  unfold State.readHost
  repeat' first
    | with_reducible assumption
    | (with_reducible apply State.emit_keep)
    | with_reducible apply forL_keep
    | with_reducible apply ite_keep
    | intro _
    | simp only [Keep.upd_iff]
    | with_reducible apply Keep.use
    | split

theorem State.srcDrained_keep {s t : State} {n : Nat} (h : Keep s t) : Keep s (State.srcDrained t n) := by
  unfold State.srcDrained
  repeat' first
    | with_reducible assumption
    | (with_reducible apply State.wr_keep)
    | (with_reducible apply State.setSrc_keep)
    | with_reducible apply ite_keep
    | intro _
    | simp only [Keep.upd_iff]
    | with_reducible apply Keep.use
    | split

theorem State.setRelay_keep {s t : State} {i : Nat} {x : Relay} (h : Keep s t) : Keep s (State.setRelay t i x) := by
  unfold State.setRelay
  repeat' first
    | with_reducible assumption
    | with_reducible apply ite_keep
    | intro _
    | simp only [Keep.upd_iff]
    | with_reducible apply Keep.use
    | split

theorem State.setSend_keep {s t : State} {e_ : Nat} {r : Nat} {x : RingSend} (h : Keep s t) : Keep s (State.setSend t e_ r x) := by
  unfold State.setSend
  repeat' first
    | with_reducible assumption
    | (with_reducible apply State.setSrc_keep)
    | (with_reducible apply State.setRelay_keep)
    | with_reducible apply ite_keep
    | intro _
    | simp only [Keep.upd_iff]
    | with_reducible apply Keep.use
    | split

theorem State.acceptReq_keep {s t : State} {e_ : Nat} {r : Nat} {cells : Nat} (h : Keep s t) : Keep s (State.acceptReq t e_ r cells) := by
  unfold State.acceptReq
  repeat' first
    | with_reducible assumption
    | (with_reducible apply State.setSend_keep)
    | (with_reducible apply State.setLeft_keep)
    | (with_reducible apply State.count_keep)
    | with_reducible apply ite_keep
    | intro _
    | simp only [Keep.upd_iff]
    | with_reducible apply Keep.use
    | split

theorem State.visitEntry_keep {s t : State} {r : Nat} {e_ : Nat} (h : Keep s t) : Keep s (State.visitEntry t r e_) := by
  unfold State.visitEntry
  repeat' first
    | with_reducible assumption
    | (with_reducible apply State.acceptReq_keep)
    | (with_reducible apply State.setSend_keep)
    | with_reducible apply ite_keep
    | intro _
    | simp only [Keep.upd_iff]
    | with_reducible apply Keep.use
    | split

theorem State.readmit_keep {s t : State} {e_ : Nat} {r : Nat} {cells : Nat} (h : Keep s t) : Keep s (State.readmit t e_ r cells) := by
  unfold State.readmit
  repeat' first
    | with_reducible assumption
    | (with_reducible apply State.setSend_keep)
    | (with_reducible apply State.acceptReq_keep)
    | (with_reducible apply State.setLeft_keep)
    | with_reducible apply ite_keep
    | intro _
    | simp only [Keep.upd_iff]
    | with_reducible apply Keep.use
    | split

theorem State.pixelOut_keep {s t : State} {stream : Nat} {r : Nat} {loc : Bool} {mk : Nat → List Byte} (h : Keep s t) : Keep s (State.pixelOut t stream r loc mk) := by
  unfold State.pixelOut
  repeat' first
    | with_reducible assumption
    | (with_reducible apply State.pixSeq_keep)
    | (with_reducible refine State.pixSeq_keep_eq ?_ (by assumption))
    | (with_reducible apply State.sendBoth_keep)
    | with_reducible apply ite_keep
    | intro _
    | simp only [Keep.upd_iff]
    | with_reducible apply Keep.use
    | split

theorem State.repeatSent_keep {s t : State} {e_ : Nat} {r : Nat} {kind : Nat} (h : Keep s t) : Keep s (State.repeatSent t e_ r kind) := by
  unfold State.repeatSent
  repeat' first
    | with_reducible assumption
    | (with_reducible apply State.setSend_keep)
    | (with_reducible apply State.count_keep)
    | with_reducible apply ite_keep
    | intro _
    | simp only [Keep.upd_iff]
    | with_reducible apply Keep.use
    | split

theorem State.relayCell_keep {s t : State} {c : Cell} (h : Keep s t) : Keep s (State.relayCell t c) := by
  unfold State.relayCell
  repeat' first
    | with_reducible assumption
    | (with_reducible apply State.count_keep)
    | (with_reducible apply State.setRelay_keep)
    | (with_reducible apply State.readmit_keep)
    | (with_reducible apply State.pixelOut_keep)
    | (with_reducible apply State.repeatSent_keep)
    | (with_reducible apply State.setSend_keep)
    | with_reducible apply forN_keep
    | with_reducible apply ite_keep
    | intro _
    | simp only [Keep.upd_iff]
    | with_reducible apply Keep.use
    | split

theorem State.writeLine_keep {s t : State} {k : Nat} {n : Nat} {row : Nat} (h : Keep s t) : Keep s (State.writeLine t k n row) := by
  unfold State.writeLine
  repeat' first
    | with_reducible assumption
    | (with_reducible apply State.dramWrite_keep)
    | (with_reducible apply State.setSt_keep)
    | with_reducible apply forL_keep
    | with_reducible apply ite_keep
    | intro _
    | simp only [Keep.upd_iff]
    | with_reducible apply Keep.use
    | split

theorem State.lineRoom_keep {s t : State} {k : Nat} {n : Nat} (h : Keep s t) : Keep s (State.lineRoom t k n) := by
  unfold State.lineRoom
  repeat' first
    | with_reducible assumption
    | (with_reducible apply State.writeLine_keep)
    | with_reducible apply ite_keep
    | intro _
    | simp only [Keep.upd_iff]
    | with_reducible apply Keep.use
    | split

theorem State.stRows_keep {s t : State} {k : Nat} {n : Nat} {rows : List StRow} (h : Keep s t) : Keep s (State.stRows t k n rows) := by
  unfold State.stRows
  repeat' first
    | with_reducible assumption
    | (with_reducible apply State.setSt_keep)
    | (with_reducible apply State.writeLine_keep)
    | (with_reducible apply State.lineRoom_keep)
    | with_reducible apply forL_keep
    | with_reducible apply ite_keep
    | intro _
    | simp only [Keep.upd_iff]
    | with_reducible apply Keep.use
    | split

theorem State.frameDone_keep {s t : State} {n : Nat} (h : Keep s t) : Keep s (State.frameDone t n) := by
  unfold State.frameDone
  repeat' first
    | with_reducible assumption
    | (with_reducible apply State.count_keep)
    | (with_reducible apply State.wr_keep)
    | (with_reducible apply State.setSrc_keep)
    | with_reducible apply ite_keep
    | intro _
    | simp only [Keep.upd_iff]
    | with_reducible apply Keep.use
    | split

theorem State.hostStore_keep {s t : State} {addr : Nat} {data : List Byte} (h : Keep s t) : Keep s (State.hostStore t addr data) := by
  unfold State.hostStore
  repeat' first
    | with_reducible assumption
    | (with_reducible apply State.emit_keep)
    | (with_reducible apply State.originateSpur_keep)
    | with_reducible apply ite_keep
    | intro _
    | simp only [Keep.upd_iff]
    | with_reducible apply Keep.use
    | split

theorem State.dmaShow_keep {s t : State} {ch : Nat} (h : Keep s t) : Keep s (State.dmaShow t ch) := by
  unfold State.dmaShow
  repeat' first
    | with_reducible assumption
    | (with_reducible apply State.wr_keep)
    | with_reducible apply ite_keep
    | intro _
    | simp only [Keep.upd_iff]
    | with_reducible apply Keep.use
    | split

theorem State.descDone_keep {s t : State} {ch : Nat} {d : Descriptor} {data : List Byte} {pcieErr : Bool} (h : Keep s t) : Keep s (State.descDone t ch d data pcieErr) := by
  unfold State.descDone
  repeat' first
    | with_reducible assumption
    | (with_reducible apply State.dramWrite_keep)
    | (with_reducible apply State.count_keep)
    | (with_reducible apply State.frameBad_keep)
    | (with_reducible apply State.wr_keep)
    | (with_reducible apply State.frameDone_keep)
    | (with_reducible apply State.hostStore_keep)
    | (with_reducible apply State.dmaShow_keep)
    | (with_reducible apply State.inc_keep)
    | (with_reducible apply State.vector_keep)
    | (with_reducible apply State.raiseEvent_keep)
    | with_reducible apply ite_keep
    | intro _
    | simp only [Keep.upd_iff]
    | with_reducible apply Keep.use
    | split

theorem State.jobEnd_keep {s t : State} {ch : Nat} {j : DmaJob} {d : Descriptor} {err : Bool} (h : Keep s t) : Keep s (State.jobEnd t ch j d err) := by
  unfold State.jobEnd
  repeat' first
    | with_reducible assumption
    | (with_reducible apply State.sofTaken_keep)
    | (with_reducible apply State.dmaIssue_keep)
    | (with_reducible apply State.sofFirst_keep)
    | (with_reducible apply State.descDone_keep)
    | (with_reducible apply State.setJobs_keep)
    | with_reducible apply ite_keep
    | intro _
    | simp only [Keep.upd_iff]
    | with_reducible apply Keep.use
    | split

theorem State.dmaArrive_keep {s t : State} {ch : Nat} {data : List Byte} {err : Bool} (h : Keep s t) : Keep s (State.dmaArrive t ch data err) := by
  unfold State.dmaArrive
  repeat' first
    | with_reducible assumption
    | (with_reducible apply State.jobEnd_keep)
    | (with_reducible apply State.dmaIssue_keep)
    | (with_reducible apply State.setJobs_keep)
    | with_reducible apply ite_keep
    | intro _
    | simp only [Keep.upd_iff]
    | with_reducible apply Keep.use
    | split

theorem State.writeHost_keep {s t : State} {fn : Nat} {addr : Nat} {data : List Byte} (h : Keep s t) : Keep s (State.writeHost t fn addr data) := by
  unfold State.writeHost
  repeat' first
    | with_reducible assumption
    | (with_reducible apply State.emit_keep)
    | with_reducible apply forL_keep
    | with_reducible apply ite_keep
    | intro _
    | simp only [Keep.upd_iff]
    | with_reducible apply Keep.use
    | split

theorem State.withdraw_keep {s t : State} {r : Nat} {stream : Nat} (h : Keep s t) : Keep s (State.withdraw t r stream) := by
  unfold State.withdraw
  repeat' first
    | with_reducible assumption
    | (with_reducible apply State.setPort_keep)
    | with_reducible apply forL_keep
    | with_reducible apply ite_keep
    | intro _
    | simp only [Keep.upd_iff]
    | with_reducible apply Keep.use
    | split

theorem State.stFlush_keep {s t : State} {k : Nat} {n : Nat} (h : Keep s t) : Keep s (State.stFlush t k n) := by
  unfold State.stFlush
  repeat' first
    | with_reducible assumption
    | (with_reducible apply State.writeLine_keep)
    | with_reducible apply forN_keep
    | with_reducible apply ite_keep
    | intro _
    | simp only [Keep.upd_iff]
    | with_reducible apply Keep.use
    | split

theorem State.pixelTo_keep {s t : State} {n : Nat} {stream : Nat} {r : Nat} {loc : Bool} {mk : Nat → List Byte} (h : Keep s t) : Keep s (State.pixelTo t n stream r loc mk) := by
  unfold State.pixelTo
  repeat' first
    | with_reducible assumption
    | (with_reducible apply State.pixelSpur_keep)
    | (with_reducible apply State.pixelOut_keep)
    | with_reducible apply ite_keep
    | intro _
    | simp only [Keep.upd_iff]
    | with_reducible apply Keep.use
    | split

theorem State.admitRing_keep {s t : State} {r : Nat} (h : Keep s t) : Keep s (State.admitRing t r) := by
  unfold State.admitRing
  repeat' first
    | with_reducible assumption
    | (with_reducible apply State.setLeft_keep)
    | (with_reducible apply State.wr_keep)
    | (with_reducible apply State.visitEntry_keep)
    | with_reducible apply forL_keep
    | with_reducible apply ite_keep
    | intro _
    | simp only [Keep.upd_iff]
    | with_reducible apply Keep.use
    | split

theorem State.stFrame_keep {s t : State} {k : Nat} {n : Nat} (h : Keep s t) : Keep s (State.stFrame t k n) := by
  unfold State.stFrame
  repeat' first
    | with_reducible assumption
    | (with_reducible apply State.wr_keep)
    | (with_reducible apply State.setSt_keep)
    | (with_reducible apply State.count_keep)
    | (with_reducible apply State.frameDone_keep)
    | with_reducible apply ite_keep
    | intro _
    | simp only [Keep.upd_iff]
    | with_reducible apply Keep.use
    | split

theorem State.stPacket_keep {s t : State} {k : Nat} {p : St2110Packet} (h : Keep s t) : Keep s (State.stPacket t k p) := by
  unfold State.stPacket
  repeat' first
    | with_reducible assumption
    | (with_reducible apply State.count_keep)
    | (with_reducible apply State.setSt_keep)
    | (with_reducible apply State.bump_keep)
    | (with_reducible apply State.clearDram_keep)
    | (with_reducible apply State.stRows_keep)
    | (with_reducible apply State.stFrame_keep)
    | (with_reducible apply State.stFlush_keep)
    | with_reducible apply ite_keep
    | intro _
    | simp only [Keep.upd_iff]
    | with_reducible apply Keep.use
    | split

theorem State.srcFetch_keep {s t : State} {c : SrcCfg} {base : Nat} {k : Nat} (h : Keep s t) : Keep s (State.srcFetch t c base k) := by
  unfold State.srcFetch
  repeat' first
    | with_reducible assumption
    | (with_reducible apply State.dramUses_keep)
    | (with_reducible apply State.useFree_keep)
    | with_reducible apply ite_keep
    | intro _
    | simp only [Keep.upd_iff]
    | with_reducible apply Keep.use
    | split

theorem State.cellOf_keep {s t : State} {n : Nat} {c : SrcCfg} {base : Nat} {k : Nat} (h : Keep s t) : Keep s (State.cellOf t n c base k).2 := by
  unfold State.cellOf
  repeat' first
    | with_reducible assumption
    | (with_reducible apply State.srcFetch_keep)
    | (with_reducible apply State.setSrc_keep)
    | with_reducible apply ite_keep
    | intro _
    | simp only [Keep.upd_iff]
    | with_reducible apply Keep.use
    | split

theorem State.cellOf_keep_eq {s t : State} {n : Nat} {c : SrcCfg} {base : Nat} {k : Nat} {p_ : _} (h : Keep s t) (e : State.cellOf t n c base k = p_) : Keep s p_.2 :=
  e ▸ State.cellOf_keep h

theorem State.deadline_keep {s t : State} {e_ : Nat} {r : Nat} (h : Keep s t) : Keep s (State.deadline t e_ r) := by
  unfold State.deadline
  repeat' first
    | with_reducible assumption
    | (with_reducible apply State.withdraw_keep)
    | (with_reducible apply State.setSend_keep)
    | (with_reducible apply State.count_keep)
    | with_reducible apply ite_keep
    | intro _
    | simp only [Keep.upd_iff]
    | with_reducible apply Keep.use
    | split

theorem State.noteMade_keep {s t : State} {n : Nat} {item : Nat} (h : Keep s t) : Keep s (State.noteMade t n item) := by
  unfold State.noteMade
  repeat' first
    | with_reducible assumption
    | (with_reducible apply State.bump_keep)
    | (with_reducible apply State.setSrc_keep)
    | with_reducible apply ite_keep
    | intro _
    | simp only [Keep.upd_iff]
    | with_reducible apply Keep.use
    | split

theorem State.produce_keep {s t : State} {n : Nat} {r : Nat} (h : Keep s t) : Keep s (State.produce t n r) := by
  unfold State.produce
  repeat' first
    | with_reducible assumption
    | (with_reducible apply State.pixelTo_keep)
    | (with_reducible apply State.setSend_keep)
    | (with_reducible apply State.bump_keep)
    | (with_reducible apply State.setSrc_keep)
    | (with_reducible apply State.noteMade_keep)
    | (with_reducible apply State.cellOf_keep)
    | (with_reducible refine State.cellOf_keep_eq ?_ (by assumption))
    | with_reducible apply ite_keep
    | intro _
    | simp only [Keep.upd_iff]
    | with_reducible apply Keep.use
    | split

theorem State.refill_keep {s t : State} {r : Nat} {id : Nat} (h : Keep s t) : Keep s (State.refill t r id) := by
  unfold State.refill
  repeat' first
    | with_reducible assumption
    | (with_reducible apply State.produce_keep)
    | with_reducible apply ite_keep
    | intro _
    | simp only [Keep.upd_iff]
    | with_reducible apply Keep.use
    | split

theorem State.dmaStop_keep {s t : State} {ch : Nat} (h : Keep s t) : Keep s (State.dmaStop t ch) := by
  unfold State.dmaStop
  repeat' first
    | with_reducible assumption
    | (with_reducible apply State.wr_keep)
    | (with_reducible apply State.frameBad_keep)
    | with_reducible apply ite_keep
    | intro _
    | simp only [Keep.upd_iff]
    | with_reducible apply Keep.use
    | split

theorem State.jobAnew_keep {s t : State} {ch : Nat} {j : DmaJob} (h : Keep s t) : Keep s (State.jobAnew t ch j) := by
  unfold State.jobAnew
  repeat' first
    | with_reducible assumption
    | (with_reducible apply State.setJobs_keep)
    | with_reducible apply ite_keep
    | intro _
    | simp only [Keep.upd_iff]
    | with_reducible apply Keep.use
    | split

theorem State.srcSwap_keep {s t : State} {n : Nat} (h : Keep s t) : Keep s (State.srcSwap t n) := by
  unfold State.srcSwap
  repeat' first
    | with_reducible assumption
    | (with_reducible apply State.inc_keep)
    | (with_reducible apply State.wr_keep)
    | (with_reducible apply State.setSrc_keep)
    | (with_reducible apply State.count_keep)
    | with_reducible apply foldl_keep
    | with_reducible apply ite_keep
    | intro _
    | simp only [Keep.upd_iff]
    | with_reducible apply Keep.use
    | split

theorem State.sourceBoundary_keep {s t : State} (h : Keep s t) : Keep s (State.sourceBoundary t) := by
  unfold State.sourceBoundary
  repeat' first
    | with_reducible assumption
    | (with_reducible apply State.srcSwap_keep)
    | (with_reducible apply State.setRelay_keep)
    | (with_reducible apply State.admitRing_keep)
    | (with_reducible apply State.setSend_keep)
    | with_reducible apply forN_keep
    | with_reducible apply ite_keep
    | intro _
    | simp only [Keep.upd_iff]
    | with_reducible apply Keep.use
    | split

theorem State.dmaDrop_keep {s t : State} {ch : Nat} (h : Keep s t) : Keep s (State.dmaDrop t ch) := by
  unfold State.dmaDrop
  repeat' first
    | with_reducible assumption
    | (with_reducible apply State.setJobs_keep)
    | with_reducible apply ite_keep
    | intro _
    | simp only [Keep.upd_iff]
    | with_reducible apply Keep.use
    | split

theorem State.srcKernel_keep {s t : State} {n : Nat} (h : Keep s t) : Keep s (State.srcKernel t n) := by
  unfold State.srcKernel
  repeat' first
    | with_reducible assumption
    | (with_reducible apply State.dramRead_keep)
    | (with_reducible refine State.dramRead_keep_eq ?_ (by assumption))
    | (with_reducible apply State.setSrc_keep)
    | (with_reducible apply State.wr_keep)
    | with_reducible apply ite_keep
    | intro _
    | simp only [Keep.upd_iff]
    | with_reducible apply Keep.use
    | split

end Sys2Proof.Machine
end

