-- ==== Sys2Proof/Laws/KeepPixel.lean ====
section
/-! SUPPORT. The operations of layers, Press, darning and scan-out keep the build, the queue and the form of the stores. -/

set_option linter.unusedTactic false
set_option linter.unusedSimpArgs false
set_option linter.unreachableTactic false

namespace Sys2Proof.Machine

theorem eachPixel_keep {s t : State} {r : Rect} {f : Nat → Nat → State → State} (h : Keep s t)
    (hf : ∀ u v a, Keep s a → Keep s (f u v a)) : Keep s (eachPixel r f t) :=
  forN_keep h (fun _ _ k => forN_keep k (fun _ _ k => hf _ _ _ k))

/-- A copy within memory keeps its canonical form. -/
theorem copyMem_wf {m : List Host.Cell} (h : Memory.wf m = true) (idx : Nat → Option Nat) (kb n : Nat) :
    Memory.wf (copyMem m idx kb n) = true := by
  unfold copyMem
  refine foldl_inv (fun l => Memory.wf l = true) _ _ (fun l c hl => ?_) (memFilter_wf h _)
  split
  · exact memPut_wf hl _ _
  · exact hl

theorem State.setSensor_keep {s t : State} {n : Nat} {x : Sensor} (h : Keep s t) : Keep s (State.setSensor t n x) := by
  unfold State.setSensor
  repeat' first
    | with_reducible assumption
    | (with_reducible apply State.setEng_keep)
    | with_reducible apply ite_keep
    | intro _
    | simp only [Keep.upd_iff]
    | with_reducible apply Keep.use
    | split

theorem State.setPress_keep {s t : State} {h_ : Nat} {x : Press} (h : Keep s t) : Keep s (State.setPress t h_ x) := by
  unfold State.setPress
  repeat' first
    | with_reducible assumption
    | (with_reducible apply State.setEng_keep)
    | with_reducible apply ite_keep
    | intro _
    | simp only [Keep.upd_iff]
    | with_reducible apply Keep.use
    | split

theorem State.setLay_keep {s t : State} {x : Layers} (h : Keep s t) : Keep s (State.setLay t x) := by
  unfold State.setLay
  repeat' first
    | with_reducible assumption
    | (with_reducible apply State.setEng_keep)
    | with_reducible apply ite_keep
    | intro _
    | simp only [Keep.upd_iff]
    | with_reducible apply Keep.use
    | split

theorem State.setLayer_keep {s t : State} {h_ : Nat} {k : Nat} {x : Layer} (h : Keep s t) : Keep s (State.setLayer t h_ k x) := by
  unfold State.setLayer
  repeat' first
    | with_reducible assumption
    | (with_reducible apply State.setLay_keep)
    | with_reducible apply ite_keep
    | intro _
    | simp only [Keep.upd_iff]
    | with_reducible apply Keep.use
    | split

theorem State.ignored_keep {s t : State} {pg : Nat} {off : Nat} {view : Nat} {path : Nat} {reason : Nat} (h : Keep s t) : Keep s (State.ignored t pg off view path reason) := by
  unfold State.ignored
  repeat' first
    | with_reducible assumption
    | (with_reducible apply State.count_keep)
    | (with_reducible apply State.wr_keep)
    | with_reducible apply ite_keep
    | intro _
    | simp only [Keep.upd_iff]
    | with_reducible apply Keep.use
    | split

theorem State.setLoop_keep {s t : State} {x : Loop} (h : Keep s t) : Keep s (State.setLoop t x) := by
  unfold State.setLoop
  repeat' first
    | with_reducible assumption
    | (with_reducible apply State.setEng_keep)
    | with_reducible apply ite_keep
    | intro _
    | simp only [Keep.upd_iff]
    | with_reducible apply Keep.use
    | split

theorem State.setChop_keep {s t : State} {r : Nat} {x : Chop} (h : Keep s t) : Keep s (State.setChop t r x) := by
  unfold State.setChop
  repeat' first
    | with_reducible assumption
    | (with_reducible apply State.setLoop_keep)
    | with_reducible apply ite_keep
    | intro _
    | simp only [Keep.upd_iff]
    | with_reducible apply Keep.use
    | split

theorem State.setTrv_keep {s t : State} {g : Nat} {x : TrvGen} (h : Keep s t) : Keep s (State.setTrv t g x) := by
  unfold State.setTrv
  repeat' first
    | with_reducible assumption
    | (with_reducible apply State.setEng_keep)
    | with_reducible apply ite_keep
    | intro _
    | simp only [Keep.upd_iff]
    | with_reducible apply Keep.use
    | split

theorem State.setCal_keep {s t : State} {x : Cal} (h : Keep s t) : Keep s (State.setCal t x) := by
  unfold State.setCal
  repeat' first
    | with_reducible assumption
    | (with_reducible apply State.setEng_keep)
    | with_reducible apply ite_keep
    | intro _
    | simp only [Keep.upd_iff]
    | with_reducible apply Keep.use
    | split

theorem State.setPwr_keep {s t : State} {x : Power} (h : Keep s t) : Keep s (State.setPwr t x) := by
  unfold State.setPwr
  repeat' first
    | with_reducible assumption
    | (with_reducible apply State.setEng_keep)
    | with_reducible apply ite_keep
    | intro _
    | simp only [Keep.upd_iff]
    | with_reducible apply Keep.use
    | split

theorem State.setLamp_keep {s t : State} {h_ : Nat} {x : LampHalf} (h : Keep s t) : Keep s (State.setLamp t h_ x) := by
  unfold State.setLamp
  repeat' first
    | with_reducible assumption
    | (with_reducible apply State.setEng_keep)
    | with_reducible apply ite_keep
    | intro _
    | simp only [Keep.upd_iff]
    | with_reducible apply Keep.use
    | split

theorem State.setDarn_keep {s t : State} {h_ : Nat} {x : Darn} (h : Keep s t) : Keep s (State.setDarn t h_ x) := by
  unfold State.setDarn
  repeat' first
    | with_reducible assumption
    | (with_reducible apply State.setEng_keep)
    | with_reducible apply ite_keep
    | intro _
    | simp only [Keep.upd_iff]
    | with_reducible apply Keep.use
    | split

theorem State.setScan_keep {s t : State} {h_ : Nat} {x : ScanHalf} (h : Keep s t) : Keep s (State.setScan t h_ x) := by
  unfold State.setScan
  repeat' first
    | with_reducible assumption
    | (with_reducible apply State.setEng_keep)
    | with_reducible apply ite_keep
    | intro _
    | simp only [Keep.upd_iff]
    | with_reducible apply Keep.use
    | split

theorem State.lyTouch_keep {s t : State} {h_ : Nat} {mask : Nat} (h : Keep s t) : Keep s (State.lyTouch t h_ mask) := by
  unfold State.lyTouch
  repeat' first
    | with_reducible assumption
    | (with_reducible apply State.wr_keep)
    | with_reducible apply ite_keep
    | intro _
    | simp only [Keep.upd_iff]
    | with_reducible apply Keep.use
    | split

theorem State.lyRefuse_keep {s t : State} {h_ : Nat} {k : Nat} {reason : Nat} (h : Keep s t) : Keep s (State.lyRefuse t h_ k reason) := by
  unfold State.lyRefuse
  repeat' first
    | with_reducible assumption
    | (with_reducible apply State.ignored_keep)
    | with_reducible apply ite_keep
    | intro _
    | simp only [Keep.upd_iff]
    | with_reducible apply Keep.use
    | split

theorem State.lyRestart_keep {s t : State} {h_ : Nat} {k : Nat} (h : Keep s t) : Keep s (State.lyRestart t h_ k).1 := by
  unfold State.lyRestart
  repeat' first
    | with_reducible assumption
    | (with_reducible apply State.setLayer_keep)
    | (with_reducible apply State.lyRefuse_keep)
    | with_reducible apply ite_keep
    | intro _
    | simp only [Keep.upd_iff]
    | with_reducible apply Keep.use
    | split

theorem State.lyRestart_keep_eq {s t : State} {h_ : Nat} {k : Nat} {p_ : _} (h : Keep s t) (e : State.lyRestart t h_ k = p_) : Keep s p_.1 :=
  e ▸ State.lyRestart_keep h

theorem State.retire_keep {s t : State} {p : Nat × Nat} (h : Keep s t) : Keep s (State.retire t p) := by
  unfold State.retire
  repeat' first
    | with_reducible assumption
    | (with_reducible apply State.setLay_keep)
    | (with_reducible apply State.wr_keep)
    | with_reducible apply ite_keep
    | intro _
    | simp only [Keep.upd_iff]
    | with_reducible apply Keep.use
    | split

theorem State.lyTake_keep {s t : State} {h_ : Nat} {k : Nat} {run : Nat} (h : Keep s t) : Keep s (State.lyTake t h_ k run).1 := by
  unfold State.lyTake
  repeat' first
    | with_reducible assumption
    | (with_reducible apply State.wr_keep)
    | (with_reducible apply State.lyRefuse_keep)
    | (with_reducible apply State.setLayer_keep)
    | (with_reducible apply State.retire_keep)
    | with_reducible apply ite_keep
    | intro _
    | simp only [Keep.upd_iff]
    | with_reducible apply Keep.use
    | split

theorem State.lyTake_keep_eq {s t : State} {h_ : Nat} {k : Nat} {run : Nat} {p_ : _} (h : Keep s t) (e : State.lyTake t h_ k run = p_) : Keep s p_.1 :=
  e ▸ State.lyTake_keep h

theorem State.lyFrame_keep {s t : State} {h_ : Nat} {k : Nat} {c : Capture} (h : Keep s t) : Keep s (State.lyFrame t h_ k c).1 := by
  unfold State.lyFrame
  repeat' first
    | with_reducible assumption
    | (with_reducible apply State.wr_keep)
    | (with_reducible apply State.setLayer_keep)
    | (with_reducible apply State.retire_keep)
    | with_reducible apply ite_keep
    | intro _
    | simp only [Keep.upd_iff]
    | with_reducible apply Keep.use
    | split

theorem State.lyFrame_keep_eq {s t : State} {h_ : Nat} {k : Nat} {c : Capture} {p_ : _} (h : Keep s t) (e : State.lyFrame t h_ k c = p_) : Keep s p_.1 :=
  e ▸ State.lyFrame_keep h

theorem State.lyLatch_keep {s t : State} {h_ : Nat} {k : Nat} {e_ : Nat} (h : Keep s t) : Keep s (State.lyLatch t h_ k e_) := by
  unfold State.lyLatch
  repeat' first
    | with_reducible assumption
    | (with_reducible apply State.lyRestart_keep)
    | (with_reducible refine State.lyRestart_keep_eq ?_ (by assumption))
    | (with_reducible apply State.lyTake_keep)
    | (with_reducible refine State.lyTake_keep_eq ?_ (by assumption))
    | (with_reducible apply State.lyFrame_keep)
    | (with_reducible refine State.lyFrame_keep_eq ?_ (by assumption))
    | (with_reducible apply State.count_keep)
    | (with_reducible apply State.setLayer_keep)
    | (with_reducible apply State.inc_keep)
    | (with_reducible apply State.wr_keep)
    | (with_reducible apply State.wrB_keep)
    | with_reducible apply ite_keep
    | intro _
    | simp only [Keep.upd_iff]
    | with_reducible apply Keep.use
    | split

theorem State.retireSync_keep {s t : State} (h : Keep s t) : Keep s (State.retireSync t) := by
  unfold State.retireSync
  repeat' first
    | with_reducible assumption
    | (with_reducible apply State.wr_keep)
    | (with_reducible apply State.setLay_keep)
    | with_reducible apply forL_keep
    | with_reducible apply ite_keep
    | intro _
    | simp only [Keep.upd_iff]
    | with_reducible apply Keep.use
    | split

theorem State.countLate_keep {s t : State} {l : List (Nat × Nat)} (h : Keep s t) : Keep s (State.countLate t l) := by
  unfold State.countLate
  repeat' first
    | with_reducible assumption
    | (with_reducible apply State.count_keep)
    | with_reducible apply forN_keep
    | with_reducible apply ite_keep
    | intro _
    | simp only [Keep.upd_iff]
    | with_reducible apply Keep.use
    | split

theorem State.lyFollow_keep {s t : State} {h_ : Nat} {k : Nat} (h : Keep s t) : Keep s (State.lyFollow t h_ k) := by
  unfold State.lyFollow
  repeat' first
    | with_reducible assumption
    | (with_reducible apply State.wr_keep)
    | (with_reducible apply State.setLayer_keep)
    | with_reducible apply ite_keep
    | intro _
    | simp only [Keep.upd_iff]
    | with_reducible apply Keep.use
    | split

theorem State.capStart_keep {s t : State} {h_ : Nat} {k : Nat} {c : Cell} (h : Keep s t) : Keep s (State.capStart t h_ k c) := by
  unfold State.capStart
  repeat' first
    | with_reducible assumption
    | (with_reducible apply State.count_keep)
    | (with_reducible apply State.setLayer_keep)
    | with_reducible apply ite_keep
    | intro _
    | simp only [Keep.upd_iff]
    | with_reducible apply Keep.use
    | split

theorem State.capLocator_keep {s t : State} {c : Cell} (h : Keep s t) : Keep s (State.capLocator t c) := by
  unfold State.capLocator
  repeat' first
    | with_reducible assumption
    | (with_reducible apply State.countLate_keep)
    | (with_reducible apply State.setLay_keep)
    | (with_reducible apply State.setLayer_keep)
    | (with_reducible apply State.capStart_keep)
    | with_reducible apply forL_keep
    | with_reducible apply ite_keep
    | intro _
    | simp only [Keep.upd_iff]
    | with_reducible apply Keep.use
    | split

theorem State.capUnit_keep {s t : State} {sp : Space} {f : Nat} {line : Nat} {u_ : Nat} {g : Nat} {idx : Nat} {data : Nat} (h : Keep s t) : Keep s (State.capUnit t sp f line u_ g idx data) := by
  unfold State.capUnit
  repeat' first
    | with_reducible assumption
    | (with_reducible apply State.wrBits_keep)
    | with_reducible apply ite_keep
    | intro _
    | simp only [Keep.upd_iff]
    | with_reducible apply Keep.use
    | split

theorem State.capWrite_keep {s t : State} {h_ : Nat} {k : Nat} {cap : Capture} {idx : Nat} {data : Nat} (h : Keep s t) : Keep s (State.capWrite t h_ k cap idx data) := by
  unfold State.capWrite
  repeat' first
    | with_reducible assumption
    | (with_reducible apply State.capUnit_keep)
    | with_reducible apply forN_keep
    | with_reducible apply forL_keep
    | with_reducible apply ite_keep
    | intro _
    | simp only [Keep.upd_iff]
    | with_reducible apply Keep.use
    | split

theorem State.capCell_keep {s t : State} {h_ : Nat} {k : Nat} {cap : Capture} {idx : Nat} {data : Nat} (h : Keep s t) : Keep s (State.capCell t h_ k cap idx data) := by
  unfold State.capCell
  repeat' first
    | with_reducible assumption
    | (with_reducible apply State.dramUses_keep)
    | (with_reducible apply State.setLayer_keep)
    | (with_reducible apply State.capWrite_keep)
    | with_reducible apply ite_keep
    | intro _
    | simp only [Keep.upd_iff]
    | with_reducible apply Keep.use
    | split

theorem State.lyEnable_keep {s t : State} {h_ : Nat} (h : Keep s t) : Keep s (State.lyEnable t h_) := by
  unfold State.lyEnable
  repeat' first
    | with_reducible assumption
    | (with_reducible apply State.wr_keep)
    | (with_reducible apply State.setLayer_keep)
    | with_reducible apply forN_keep
    | with_reducible apply ite_keep
    | intro _
    | simp only [Keep.upd_iff]
    | with_reducible apply Keep.use
    | split

theorem State.capPixel_keep {s t : State} {c : Cell} (h : Keep s t) : Keep s (State.capPixel t c) := by
  unfold State.capPixel
  repeat' first
    | with_reducible assumption
    | (with_reducible apply State.countLate_keep)
    | (with_reducible apply State.capCell_keep)
    | with_reducible apply forL_keep
    | with_reducible apply ite_keep
    | intro _
    | simp only [Keep.upd_iff]
    | with_reducible apply Keep.use
    | split

theorem State.lyParkedOff_keep {s t : State} {h_ : Nat} {k : Nat} (h : Keep s t) : Keep s (State.lyParkedOff t h_ k) := by
  unfold State.lyParkedOff
  repeat' first
    | with_reducible assumption
    | (with_reducible apply State.setLayer_keep)
    | (with_reducible apply State.wr_keep)
    | with_reducible apply ite_keep
    | intro _
    | simp only [Keep.upd_iff]
    | with_reducible apply Keep.use
    | split

theorem State.lyCommit_keep {s t : State} {h_ : Nat} {mask : Nat} (h : Keep s t) : Keep s (State.lyCommit t h_ mask) := by
  unfold State.lyCommit
  repeat' first
    | with_reducible assumption
    | (with_reducible apply State.lyFollow_keep)
    | (with_reducible apply State.wr_keep)
    | with_reducible apply forN_keep
    | with_reducible apply ite_keep
    | intro _
    | simp only [Keep.upd_iff]
    | with_reducible apply Keep.use
    | split

theorem State.layersLatch_keep {s t : State} {h_ : Nat} {e_ : Nat} (h : Keep s t) : Keep s (State.layersLatch t h_ e_) := by
  unfold State.layersLatch
  repeat' first
    | with_reducible assumption
    | (with_reducible apply State.lyLatch_keep)
    | (with_reducible apply State.wr_keep)
    | (with_reducible apply State.setRun_keep)
    | with_reducible apply forN_keep
    | with_reducible apply ite_keep
    | intro _
    | simp only [Keep.upd_iff]
    | with_reducible apply Keep.use
    | split

theorem State.lyCtlTaken_keep {s t : State} {h_ : Nat} {k : Nat} (h : Keep s t) : Keep s (State.lyCtlTaken t h_ k) := by
  unfold State.lyCtlTaken
  repeat' first
    | with_reducible assumption
    | (with_reducible apply State.lyFollow_keep)
    | with_reducible apply ite_keep
    | intro _
    | simp only [Keep.upd_iff]
    | with_reducible apply Keep.use
    | split

theorem State.closeGroup_keep {s t : State} {h_ : Nat} (h : Keep s t) : Keep s (State.closeGroup t h_) := by
  unfold State.closeGroup
  repeat' first
    | with_reducible assumption
    | (with_reducible apply State.setPress_keep)
    | (with_reducible apply State.count_keep)
    | with_reducible apply ite_keep
    | intro _
    | simp only [Keep.upd_iff]
    | with_reducible apply Keep.use
    | split

theorem State.setCb_keep {s t : State} {h_ : Nat} {p : Nat} {v : Nat} (h : Keep s t) : Keep s (State.setCb t h_ p v) := by
  unfold State.setCb
  repeat' first
    | with_reducible assumption
    | (with_reducible apply State.wr32_keep)
    | with_reducible apply ite_keep
    | intro _
    | simp only [Keep.upd_iff]
    | with_reducible apply Keep.use
    | split

theorem State.abandon_keep {s t : State} {h_ : Nat} (h : Keep s t) : Keep s (State.abandon t h_) := by
  unfold State.abandon
  repeat' first
    | with_reducible assumption
    | (with_reducible apply State.setPress_keep)
    | with_reducible apply ite_keep
    | intro _
    | simp only [Keep.upd_iff]
    | with_reducible apply Keep.use
    | split

theorem State.pressReady_keep {s t : State} {h_ : Nat} {skip : Bool} (h : Keep s t) : Keep s (State.pressReady t h_ skip) := by
  unfold State.pressReady
  repeat' first
    | with_reducible assumption
    | (with_reducible apply State.setPress_keep)
    | (with_reducible apply State.setCb_keep)
    | with_reducible apply forN_keep
    | with_reducible apply ite_keep
    | intro _
    | simp only [Keep.upd_iff]
    | with_reducible apply Keep.use
    | split

theorem State.spend_keep {s t : State} {h_ : Nat} {issue : Nat} {cost : Nat} {layer : Option Nat} (h : Keep s t) : Keep s (State.spend t h_ issue cost layer) := by
  unfold State.spend
  repeat' first
    | with_reducible assumption
    | (with_reducible apply State.setPress_keep)
    | with_reducible apply ite_keep
    | intro _
    | simp only [Keep.upd_iff]
    | with_reducible apply Keep.use
    | split

theorem State.slotRead_keep {s t : State} {h_ : Nat} {slot : Nat} {a : Rect} {bottom : Bool} (h : Keep s t) : Keep s (State.slotRead t h_ slot a bottom) := by
  unfold State.slotRead
  repeat' first
    | with_reducible assumption
    | (with_reducible apply State.setCb_keep)
    | with_reducible apply eachPixel_keep
    | with_reducible apply ite_keep
    | intro _
    | simp only [Keep.upd_iff]
    | with_reducible apply Keep.use
    | split

theorem State.slotCopy_keep {s t : State} {h_ : Nat} {slot : Nat} {a : Rect} (h : Keep s t) : Keep s (State.slotCopy t h_ slot a) := by
  unfold State.slotCopy
  repeat' first
    | with_reducible assumption
    | (with_reducible apply State.wrLE_keep)
    | with_reducible apply eachPixel_keep
    | with_reducible apply ite_keep
    | intro _
    | simp only [Keep.upd_iff]
    | with_reducible apply Keep.use
    | split

theorem State.blendStep_keep {s t : State} {h_ : Nat} {x : PStep} (h : Keep s t) : Keep s (State.blendStep t h_ x) := by
  unfold State.blendStep
  repeat' first
    | with_reducible assumption
    | (with_reducible apply State.setCb_keep)
    | with_reducible apply eachPixel_keep
    | with_reducible apply ite_keep
    | intro _
    | simp only [Keep.upd_iff]
    | with_reducible apply Keep.use
    | split

theorem State.runStep_keep {s t : State} {h_ : Nat} {x : PStep} (h : Keep s t) : Keep s (State.runStep t h_ x) := by
  unfold State.runStep
  repeat' first
    | with_reducible assumption
    | (with_reducible apply State.pressReady_keep)
    | (with_reducible apply State.spend_keep)
    | (with_reducible apply State.blendStep_keep)
    | with_reducible apply ite_keep
    | intro _
    | simp only [Keep.upd_iff]
    | with_reducible apply Keep.use
    | split

theorem State.slotStep_keep {s t : State} {h_ : Nat} {slot : Nat} {a : Rect} {x : PStep} (h : Keep s t) : Keep s (State.slotStep t h_ slot a x) := by
  unfold State.slotStep
  repeat' first
    | with_reducible assumption
    | (with_reducible apply State.wrLE_keep)
    | with_reducible apply eachPixel_keep
    | with_reducible apply ite_keep
    | intro _
    | simp only [Keep.upd_iff]
    | with_reducible apply Keep.use
    | split

theorem State.runGroup_keep {s t : State} {h_ : Nat} {slot : Nat} {l : List PStep} {a : Rect} {bottom : Bool} {issue : Nat} (h : Keep s t) : Keep s (State.runGroup t h_ slot l a bottom issue) := by
  unfold State.runGroup
  repeat' first
    | with_reducible assumption
    | (with_reducible apply State.pressReady_keep)
    | (with_reducible apply State.setPress_keep)
    | (with_reducible apply State.spend_keep)
    | (with_reducible apply State.slotRead_keep)
    | (with_reducible apply State.slotCopy_keep)
    | (with_reducible apply State.runStep_keep)
    | (with_reducible apply State.wrLE_keep)
    | (with_reducible apply State.slotStep_keep)
    | (with_reducible apply State.count_keep)
    | (with_reducible apply State.wr_keep)
    | with_reducible apply forL_keep
    | with_reducible apply foldl_keep
    | with_reducible apply eachPixel_keep
    | with_reducible apply ite_keep
    | intro _
    | simp only [Keep.upd_iff]
    | with_reducible apply Keep.use
    | split

theorem State.issueStep_keep {s t : State} {h_ : Nat} {k : Nat} {mode : Nat} (h : Keep s t) : Keep s (State.issueStep t h_ k mode) := by
  unfold State.issueStep
  repeat' first
    | with_reducible assumption
    | (with_reducible apply State.setPress_keep)
    | (with_reducible apply State.closeGroup_keep)
    | with_reducible apply ite_keep
    | intro _
    | simp only [Keep.upd_iff]
    | with_reducible apply Keep.use
    | split

theorem State.listError_keep {s t : State} {h_ : Nat} {pc : Nat} {kind : Nat} (h : Keep s t) : Keep s (State.listError t h_ pc kind) := by
  unfold State.listError
  repeat' first
    | with_reducible assumption
    | (with_reducible apply State.abandon_keep)
    | (with_reducible apply State.wr_keep)
    | (with_reducible apply State.count_keep)
    | with_reducible apply ite_keep
    | intro _
    | simp only [Keep.upd_iff]
    | with_reducible apply Keep.use
    | split

theorem State.issueOrder_keep {s t : State} {h_ : Nat} (h : Keep s t) : Keep s (State.issueOrder t h_) := by
  unfold State.issueOrder
  repeat' first
    | with_reducible assumption
    | (with_reducible apply State.issueStep_keep)
    | (with_reducible apply State.setPress_keep)
    | with_reducible apply forL_keep
    | with_reducible apply ite_keep
    | intro _
    | simp only [Keep.upd_iff]
    | with_reducible apply Keep.use
    | split

theorem State.pressFinish_keep {s t : State} {h_ : Nat} (h : Keep s t) : Keep s (State.pressFinish t h_) := by
  unfold State.pressFinish
  repeat' first
    | with_reducible assumption
    | (with_reducible apply State.pressReady_keep)
    | (with_reducible apply State.wr_keep)
    | (with_reducible apply State.setPress_keep)
    | (with_reducible apply State.setDarn_keep)
    | with_reducible apply ite_keep
    | intro _
    | simp only [Keep.upd_iff]
    | with_reducible apply Keep.use
    | split

theorem State.pressRelease_keep {s t : State} {h_ : Nat} (h : Keep s t) : Keep s (State.pressRelease t h_) := by
  unfold State.pressRelease
  repeat' first
    | with_reducible assumption
    | (with_reducible apply State.setPress_keep)
    | with_reducible apply ite_keep
    | intro _
    | simp only [Keep.upd_iff]
    | with_reducible apply Keep.use
    | split

theorem State.fetchPress_keep {s t u : State} {h_ op w : Nat} (h : Keep s t) (e : t.fetchPress h_ op = .ok (u, w)) : Keep s u := by
  unfold State.fetchPress at e
  dsimp only at e
  repeat' split at e
  all_goals first
    | contradiction
    | (injection e with e; injection e with e e2; subst e; exact State.setPress_keep h)

theorem State.fetchPress_keep_error {s t u : State} {h_ op : Nat} (h : Keep s t) (e : t.fetchPress h_ op = .error u) : Keep s u := by
  unfold State.fetchPress at e
  dsimp only at e
  repeat' split at e
  all_goals first
    | contradiction
    | (injection e with e; subst e; first | exact h | exact State.listError_keep h)

theorem State.pressEnable_keep {s t : State} {h_ : Nat} (h : Keep s t) : Keep s (State.pressEnable t h_) := by
  unfold State.pressEnable
  repeat' first
    | with_reducible assumption
    | (with_reducible apply State.setRun_keep)
    | (with_reducible apply State.wr_keep)
    | (with_reducible apply State.setPress_keep)
    | with_reducible apply ite_keep
    | intro _
    | simp only [Keep.upd_iff]
    | with_reducible apply Keep.use
    | split

theorem State.datapath_keep {s t : State} {h_ : Nat} {waits : Nat} (h : Keep s t) : Keep s (State.datapath t h_ waits) := by
  unfold State.datapath
  repeat' first
    | with_reducible assumption
    | (with_reducible apply State.dramUse_keep)
    | (with_reducible apply State.abandon_keep)
    | (with_reducible apply State.setPress_keep)
    | (with_reducible apply State.runStep_keep)
    | (with_reducible apply State.runGroup_keep)
    | (with_reducible apply State.pressFinish_keep)
    | with_reducible apply forL_keep
    | with_reducible apply foldl_keep
    | with_reducible apply ite_keep
    | intro _
    | simp only [Keep.upd_iff]
    | with_reducible apply Keep.use
    | split

theorem State.pressNext_keep {s t : State} {h_ : Nat} {cost : Nat} (h : Keep s t) : Keep s (State.pressNext t h_ cost) := by
  unfold State.pressNext
  repeat' first
    | with_reducible assumption
    | (with_reducible apply State.setPress_keep)
    | with_reducible apply ite_keep
    | intro _
    | simp only [Keep.upd_iff]
    | with_reducible apply Keep.use
    | split

theorem State.pressBoundary_keep {s t : State} {h_ : Nat} (h : Keep s t) : Keep s (State.pressBoundary t h_) := by
  unfold State.pressBoundary
  repeat' first
    | with_reducible assumption
    | (with_reducible apply State.wr_keep)
    | (with_reducible apply State.setDarn_keep)
    | (with_reducible apply State.setPress_keep)
    | (with_reducible apply State.setRun_keep)
    | with_reducible apply ite_keep
    | intro _
    | simp only [Keep.upd_iff]
    | with_reducible apply Keep.use
    | split

theorem State.swapScan_keep {s t : State} (h : Keep s t) : Keep s (State.swapScan t).1 := by
  unfold State.swapScan
  repeat' first
    | with_reducible assumption
    | (with_reducible apply State.count_keep)
    | (with_reducible apply State.abandon_keep)
    | (with_reducible apply State.setDarn_keep)
    | (with_reducible apply State.setPress_keep)
    | with_reducible apply forL_keep
    | with_reducible apply ite_keep
    | intro _
    | simp only [Keep.upd_iff]
    | with_reducible apply Keep.use
    | split

theorem State.swapScan_keep_eq {s t : State} {p_ : _} (h : Keep s t) (e : State.swapScan t = p_) : Keep s p_.1 :=
  e ▸ State.swapScan_keep h

theorem State.apWritten_keep {s t : State} {h_ : Nat} {off : Nat} (h : Keep s t) : Keep s (State.apWritten t h_ off) := by
  unfold State.apWritten
  repeat' first
    | with_reducible assumption
    | (with_reducible apply State.setDarn_keep)
    | with_reducible apply ite_keep
    | intro _
    | simp only [Keep.upd_iff]
    | with_reducible apply Keep.use
    | split

theorem State.darnSwap_keep {s t : State} {h_ : Nat} (h : Keep s t) : Keep s (State.darnSwap t h_) := by
  unfold State.darnSwap
  repeat' first
    | with_reducible assumption
    | (with_reducible apply State.retire_keep)
    | (with_reducible apply State.wr_keep)
    | with_reducible apply ite_keep
    | intro _
    | simp only [Keep.upd_iff]
    | with_reducible apply Keep.use
    | split

theorem State.ask_keep {s t : State} {pg : Nat} {path : Nat} {view : Nat} (h : Keep s t) : Keep s (State.ask t pg path view) := by
  unfold State.ask
  repeat' first
    | with_reducible assumption
    | (with_reducible apply State.setEng_keep)
    | with_reducible apply ite_keep
    | intro _
    | simp only [Keep.upd_iff]
    | with_reducible apply Keep.use
    | split

theorem State.bankChecked_keep {s t : State} {h_ : Nat} {crc : Nat} (h : Keep s t) : Keep s (State.bankChecked t h_ crc) := by
  unfold State.bankChecked
  repeat' first
    | with_reducible assumption
    | (with_reducible apply State.setDarn_keep)
    | (with_reducible apply State.count_keep)
    | with_reducible apply ite_keep
    | intro _
    | simp only [Keep.upd_iff]
    | with_reducible apply Keep.use
    | split

theorem State.darnMain_keep {s t : State} {h_ : Nat} (h : Keep s t) : Keep s (t.darnMain h_).1 := by
  unfold State.darnMain
  refine forN_inv (fun a : State × Bool × Bool => Keep s a.1) (h.use 32768) (fun r a ka => ?_)
  exact forN_inv (fun a : State × Bool × Bool => Keep s a.1) ka (fun i b kb => State.wrLE_keep kb)

theorem State.darnMain_keep_eq {s t : State} {h_ : Nat} {p_ : _} (h : Keep s t) (e : State.darnMain t h_ = p_) : Keep s p_.1 :=
  e ▸ State.darnMain_keep h

theorem State.darnMend_keep {s t : State} {h_ : Nat} (h : Keep s t) : Keep s (t.darnMend h_).1 := by
  unfold State.darnMend
  dsimp only
  with_reducible apply forL_keep
  case hf => intro e b kb; exact State.wrLE_keep kb
  refine forL_inv (fun a : State × Nat => Keep s a.1) h (fun e a ka => ?_)
  refine forL_inv (fun a : State × Nat => Keep s a.1) ka (fun n b kb => ?_)
  split
  · exact kb
  · exact State.wrLE_keep kb

theorem State.darnMend_keep_eq {s t : State} {h_ : Nat} {p_ : _} (h : Keep s t) (e : State.darnMend t h_ = p_) : Keep s p_.1 :=
  e ▸ State.darnMend_keep h

theorem State.darnEnd_keep {s t : State} {h_ : Nat} (h : Keep s t) : Keep s (State.darnEnd t h_) := by
  unfold State.darnEnd
  repeat' first
    | with_reducible assumption
    | (with_reducible apply State.darnMain_keep)
    | (with_reducible refine State.darnMain_keep_eq ?_ (by assumption))
    | (with_reducible apply State.darnMend_keep)
    | (with_reducible refine State.darnMend_keep_eq ?_ (by assumption))
    | (with_reducible apply State.count_keep)
    | (with_reducible apply State.wr_keep)
    | (with_reducible apply State.setDarn_keep)
    | (with_reducible apply State.setRun_keep)
    | with_reducible apply ite_keep
    | intro _
    | simp only [Keep.upd_iff]
    | with_reducible apply Keep.use
    | split

theorem State.mendLatch_keep {s t : State} (h : Keep s t) : Keep s t.mendLatch := h.mem (fun m => copyMem_wf m _ _ _)

theorem State.darnDisable_keep {s t : State} {h_ : Nat} (h : Keep s t) : Keep s (State.darnDisable t h_) := by
  unfold State.darnDisable
  repeat' first
    | with_reducible assumption
    | (with_reducible apply State.setRun_keep)
    | with_reducible apply ite_keep
    | intro _
    | simp only [Keep.upd_iff]
    | with_reducible apply Keep.use
    | split

theorem State.askFail_keep {s t : State} {b : Blk} {w : Nat} {reason : Nat} (h : Keep s t) : Keep s (State.askFail t b w reason) := by
  unfold State.askFail
  repeat' first
    | with_reducible assumption
    | (with_reducible apply State.ignored_keep)
    | (with_reducible apply State.setRun_keep)
    | (with_reducible apply State.wr_keep)
    | with_reducible apply ite_keep
    | intro _
    | simp only [Keep.upd_iff]
    | with_reducible apply Keep.use
    | split

theorem State.verifyStart_keep {s t u : State} {h_ : Nat} (h : Keep s t) (e : State.verifyStart t h_ = .ok u) : Keep s u := by
  unfold State.verifyStart at e
  try dsimp only at e
  repeat' first
    | contradiction
    | (cases e; done)
    | split at e
    | (injection e with e; subst e)
    | with_reducible assumption
    | (with_reducible apply State.wr_keep)
    | with_reducible apply ite_keep
    | intro _
    | simp only [Keep.upd_iff]
    | with_reducible apply Keep.use
    | split

theorem State.loadStart_keep {s t u : State} {h_ : Nat} (h : Keep s t) (e : State.loadStart t h_ = .ok u) : Keep s u := by
  unfold State.loadStart at e
  try dsimp only at e
  repeat' first
    | contradiction
    | (cases e; done)
    | split at e
    | (injection e with e; subst e)
    | with_reducible assumption
    | (with_reducible apply State.setDarn_keep)
    | (with_reducible apply State.wr_keep)
    | (with_reducible apply State.dramUse_keep)
    | with_reducible apply ite_keep
    | intro _
    | simp only [Keep.upd_iff]
    | with_reducible apply Keep.use
    | split

theorem State.darnSel_keep {s t : State} {h_ : Nat} (h : Keep s t) : Keep s (State.darnSel t h_) := by
  unfold State.darnSel
  repeat' first
    | with_reducible assumption
    | (with_reducible apply State.wrB_keep)
    | with_reducible apply ite_keep
    | intro _
    | simp only [Keep.upd_iff]
    | with_reducible apply Keep.use
    | split

theorem State.askPass_keep {s t : State} {b : Blk} {w : Nat} (h : Keep s t) : Keep s (State.askPass t b w) := by
  unfold State.askPass
  repeat' first
    | with_reducible assumption
    | (with_reducible apply State.setRun_keep)
    | (with_reducible apply State.wr_keep)
    | with_reducible apply ite_keep
    | intro _
    | simp only [Keep.upd_iff]
    | with_reducible apply Keep.use
    | split

theorem State.verifyDone_keep {s t : State} {h_ : Nat} (h : Keep s t) : Keep s (State.verifyDone t h_) := by
  unfold State.verifyDone
  repeat' first
    | with_reducible assumption
    | (with_reducible apply State.wr_keep)
    | with_reducible apply ite_keep
    | intro _
    | simp only [Keep.upd_iff]
    | with_reducible apply Keep.use
    | split

theorem State.loadDone_keep {s t : State} {h_ : Nat} (h : Keep s t) : Keep s (t.loadDone h_) := by
  unfold State.loadDone
  refine ite_keep (fun _ => h) (fun _ => ?_)
  extract_lets sp base idx s1 raw s2 s3 s4
  have h1 : Keep s s1 := h.mem (fun m => copyMem_wf m _ _ _)
  have h2 : Keep s s2 := forN_keep h1 (fun _ _ ka => ite_keep (fun _ => ka) (fun _ => State.wr8_keep ka))
  have h3 : Keep s s3 := forL_keep h2 (fun _ _ ka => State.useFree_keep (ite_keep (fun _ => ka) (fun _ => State.wr32_keep ka)))
  exact State.bankChecked_keep (State.wr_keep (State.wr_keep (State.wr_keep (State.setDarn_keep h3))))

theorem State.mapChecked_keep {s t : State} {h_ : Nat} (h : Keep s t) : Keep s (State.mapChecked t h_) := by
  unfold State.mapChecked
  repeat' first
    | with_reducible assumption
    | (with_reducible apply State.wr_keep)
    | (with_reducible apply State.askPass_keep)
    | (with_reducible apply State.askFail_keep)
    | with_reducible apply ite_keep
    | intro _
    | simp only [Keep.upd_iff]
    | with_reducible apply Keep.use
    | split

theorem State.fetchRow_keep {s t : State} {h_ : Nat} {k : Nat} {r : Nat} (h : Keep s t) : Keep s (State.fetchRow t h_ k r) := by
  unfold State.fetchRow
  repeat' first
    | with_reducible assumption
    | (with_reducible apply State.dramUseAs_keep)
    | (with_reducible apply State.setScan_keep)
    | with_reducible apply ite_keep
    | intro _
    | simp only [Keep.upd_iff]
    | with_reducible apply Keep.use
    | split

theorem State.gapFetch_keep {s t : State} {h_ : Nat} (h : Keep s t) : Keep s (State.gapFetch t h_) := by
  unfold State.gapFetch
  repeat' first
    | with_reducible assumption
    | (with_reducible apply State.fetchRow_keep)
    | with_reducible apply ite_keep
    | intro _
    | simp only [Keep.upd_iff]
    | with_reducible apply Keep.use
    | split

theorem State.scanFrame_keep {s t : State} {h_ : Nat} (h : Keep s t) : Keep s (State.scanFrame t h_) := by
  unfold State.scanFrame
  repeat' first
    | with_reducible assumption
    | (with_reducible apply State.wr_keep)
    | (with_reducible apply State.setScan_keep)
    | (with_reducible apply State.count_keep)
    | (with_reducible apply State.setRun_keep)
    | (with_reducible apply State.wrB_keep)
    | with_reducible apply ite_keep
    | intro _
    | simp only [Keep.upd_iff]
    | with_reducible apply Keep.use
    | split

theorem State.voteSync_keep {s t : State} (h : Keep s t) : Keep s (State.voteSync t) := by
  unfold State.voteSync
  repeat' first
    | with_reducible assumption
    | (with_reducible apply State.count_keep)
    | with_reducible apply ite_keep
    | intro _
    | simp only [Keep.upd_iff]
    | with_reducible apply Keep.use
    | split

theorem State.setAlone_keep {s t : State} {h_ : Nat} (h : Keep s t) : Keep s (State.setAlone t h_) := by
  unfold State.setAlone
  repeat' first
    | with_reducible assumption
    | (with_reducible apply State.wr_keep)
    | with_reducible apply ite_keep
    | intro _
    | simp only [Keep.upd_iff]
    | with_reducible apply Keep.use
    | split

theorem State.scnRoles_keep {s t : State} (h : Keep s t) : Keep s (State.scnRoles t) := by
  unfold State.scnRoles
  repeat' first
    | with_reducible assumption
    | (with_reducible apply State.wr_keep)
    | (with_reducible apply State.voteSync_keep)
    | (with_reducible apply State.setAlone_keep)
    | with_reducible apply ite_keep
    | intro _
    | simp only [Keep.upd_iff]
    | with_reducible apply Keep.use
    | split

theorem State.scanBoundary_keep {s t : State} (h : Keep s t) : Keep s (State.scanBoundary t) := by
  unfold State.scanBoundary
  repeat' first
    | with_reducible assumption
    | (with_reducible apply State.scanFrame_keep)
    | (with_reducible apply State.scnRoles_keep)
    | with_reducible apply ite_keep
    | intro _
    | simp only [Keep.upd_iff]
    | with_reducible apply Keep.use
    | split

theorem State.scnStopped_keep {s t : State} {h_ : Nat} (h : Keep s t) : Keep s (State.scnStopped t h_) := by
  unfold State.scnStopped
  repeat' first
    | with_reducible assumption
    | (with_reducible apply State.wr_keep)
    | (with_reducible apply State.setAlone_keep)
    | with_reducible apply ite_keep
    | intro _
    | simp only [Keep.upd_iff]
    | with_reducible apply Keep.use
    | split

theorem State.scnDisable_keep {s t : State} {h_ : Nat} (h : Keep s t) : Keep s (State.scnDisable t h_) := by
  unfold State.scnDisable
  repeat' first
    | with_reducible assumption
    | (with_reducible apply State.scnStopped_keep)
    | (with_reducible apply State.setRun_keep)
    | with_reducible apply ite_keep
    | intro _
    | simp only [Keep.upd_iff]
    | with_reducible apply Keep.use
    | split

theorem State.reachSlot_keep {s t : State} {h_ : Nat} {k : Nat} (h : Keep s t) : Keep s (State.reachSlot t h_ k) := by
  unfold State.reachSlot
  repeat' first
    | with_reducible assumption
    | (with_reducible apply State.setScan_keep)
    | with_reducible apply ite_keep
    | intro _
    | simp only [Keep.upd_iff]
    | with_reducible apply Keep.use
    | split

theorem State.scnGo_keep {s t u : State} {h_ : Nat} (h : Keep s t) (e : State.scnGo t h_ = .ok u) : Keep s u := by
  unfold State.scnGo at e
  try dsimp only at e
  repeat' first
    | contradiction
    | (cases e; done)
    | split at e
    | (injection e with e; subst e)
    | with_reducible assumption
    | (with_reducible apply State.wr_keep)
    | with_reducible apply ite_keep
    | intro _
    | simp only [Keep.upd_iff]
    | with_reducible apply Keep.use
    | split

theorem State.scanLatch_keep {s t : State} {h_ : Nat} {swapped : Bool} (h : Keep s t) : Keep s (State.scanLatch t h_ swapped) := by
  unfold State.scanLatch
  repeat' first
    | with_reducible assumption
    | (with_reducible apply State.count_keep)
    | (with_reducible apply State.wr_keep)
    | (with_reducible apply State.reachSlot_keep)
    | (with_reducible apply State.gapFetch_keep)
    | (with_reducible apply State.setScan_keep)
    | with_reducible apply ite_keep
    | intro _
    | simp only [Keep.upd_iff]
    | with_reducible apply Keep.use
    | split

theorem State.scnEnable_keep {s t : State} {h_ : Nat} (h : Keep s t) : Keep s (State.scnEnable t h_) := by
  unfold State.scnEnable
  repeat' first
    | with_reducible assumption
    | (with_reducible apply State.voteSync_keep)
    | (with_reducible apply State.setRun_keep)
    | (with_reducible apply State.gapFetch_keep)
    | (with_reducible apply State.setScan_keep)
    | with_reducible apply ite_keep
    | intro _
    | simp only [Keep.upd_iff]
    | with_reducible apply Keep.use
    | split

end Sys2Proof.Machine
end

