-- ==== Sys2Proof/Laws/KeepLamp.lean ====
section
/-! SUPPORT. The operations of Traverse, lamps and loops keep the build, the queue and the form of the stores. -/

set_option linter.unusedTactic false
set_option linter.unusedSimpArgs false
set_option linter.unreachableTactic false

namespace Sys2Proof.Machine

theorem State.trvOut_keep {s t : State} (h : Keep s t) : Keep s (State.trvOut t) := by
  unfold State.trvOut
  repeat' first
    | with_reducible assumption
    | (with_reducible apply State.wr_keep)
    | with_reducible apply ite_keep
    | intro _
    | simp only [Keep.upd_iff]
    | with_reducible apply Keep.use
    | split

theorem State.trvShow_keep {s t : State} {g : Nat} {x : TrvGen} {vdesc : Bool} (h : Keep s t) : Keep s (State.trvShow t g x vdesc) := by
  unfold State.trvShow
  repeat' first
    | with_reducible assumption
    | (with_reducible apply State.wrI_keep)
    | (with_reducible apply State.wrB_keep)
    | (with_reducible apply State.wr_keep)
    | (with_reducible apply State.setTrv_keep)
    | with_reducible apply ite_keep
    | intro _
    | simp only [Keep.upd_iff]
    | with_reducible apply Keep.use
    | split

theorem State.trvLose_keep {s t : State} {g : Nat} {why : Nat} (h : Keep s t) : Keep s (State.trvLose t g why) := by
  unfold State.trvLose
  repeat' first
    | with_reducible assumption
    | (with_reducible apply State.count_keep)
    | (with_reducible apply State.wr_keep)
    | (with_reducible apply State.trvShow_keep)
    | with_reducible apply ite_keep
    | intro _
    | simp only [Keep.upd_iff]
    | with_reducible apply Keep.use
    | split

theorem State.trvEpisode_keep {s t : State} {g : Nat} {old : TrvGen} {st : TrvStep} (h : Keep s t) : Keep s (State.trvEpisode t g old st).1 := by
  unfold State.trvEpisode
  repeat' first
    | with_reducible assumption
    | (with_reducible apply State.count_keep)
    | (with_reducible apply State.wr_keep)
    | with_reducible apply ite_keep
    | intro _
    | simp only [Keep.upd_iff]
    | with_reducible apply Keep.use
    | split

theorem State.trvEpisode_keep_eq {s t : State} {g : Nat} {old : TrvGen} {st : TrvStep} {p_ : _} (h : Keep s t) (e : State.trvEpisode t g old st = p_) : Keep s p_.1 :=
  e ▸ State.trvEpisode_keep h

theorem State.trvClock_keep {s t : State} {g : Nat} (h : Keep s t) : Keep s (State.trvClock t g) := by
  unfold State.trvClock
  repeat' first
    | with_reducible assumption
    | (with_reducible apply State.wr_keep)
    | (with_reducible apply State.trvEpisode_keep)
    | (with_reducible refine State.trvEpisode_keep_eq ?_ (by assumption))
    | (with_reducible apply State.trvShow_keep)
    | (with_reducible apply State.trvLose_keep)
    | with_reducible apply ite_keep
    | intro _
    | simp only [Keep.upd_iff]
    | with_reducible apply Keep.use
    | split

theorem State.trvTick_keep {s t : State} {dup : List Nat} (h : Keep s t) : Keep s (State.trvTick t dup) := by
  unfold State.trvTick
  repeat' first
    | with_reducible assumption
    | (with_reducible apply State.trvOut_keep)
    | (with_reducible apply State.trvLose_keep)
    | (with_reducible apply State.trvClock_keep)
    | with_reducible apply forN_keep
    | with_reducible apply ite_keep
    | intro _
    | simp only [Keep.upd_iff]
    | with_reducible apply Keep.use
    | split

theorem State.trvPower_keep {s t : State} (h : Keep s t) : Keep s (State.trvPower t) := by
  unfold State.trvPower
  repeat' first
    | with_reducible assumption
    | (with_reducible apply State.count_keep)
    | (with_reducible apply State.wr_keep)
    | (with_reducible apply State.trvShow_keep)
    | with_reducible apply forN_keep
    | with_reducible apply ite_keep
    | intro _
    | simp only [Keep.upd_iff]
    | with_reducible apply Keep.use
    | split

theorem State.trvLoseAll_keep {s t : State} {why : Nat} (h : Keep s t) : Keep s (State.trvLoseAll t why) := by
  unfold State.trvLoseAll
  repeat' first
    | with_reducible assumption
    | (with_reducible apply State.trvLose_keep)
    | with_reducible apply forN_keep
    | with_reducible apply ite_keep
    | intro _
    | simp only [Keep.upd_iff]
    | with_reducible apply Keep.use
    | split

theorem State.trvDisable_keep {s t : State} (h : Keep s t) : Keep s (State.trvDisable t) := by
  unfold State.trvDisable
  repeat' first
    | with_reducible assumption
    | (with_reducible apply State.setRun_keep)
    | (with_reducible apply State.trvLoseAll_keep)
    | with_reducible apply ite_keep
    | intro _
    | simp only [Keep.upd_iff]
    | with_reducible apply Keep.use
    | split

theorem State.trvCfgTaken_keep {s t : State} (h : Keep s t) : Keep s (State.trvCfgTaken t) := by
  unfold State.trvCfgTaken
  repeat' first
    | with_reducible assumption
    | (with_reducible apply State.wr_keep)
    | with_reducible apply forN_keep
    | with_reducible apply ite_keep
    | intro _
    | simp only [Keep.upd_iff]
    | with_reducible apply Keep.use
    | split

theorem State.trvLoad_keep {s t : State} {g : Nat} (h : Keep s t) : Keep s (State.trvLoad t g) := by
  unfold State.trvLoad
  repeat' first
    | with_reducible assumption
    | (with_reducible apply State.wr_keep)
    | (with_reducible apply State.trvShow_keep)
    | with_reducible apply ite_keep
    | intro _
    | simp only [Keep.upd_iff]
    | with_reducible apply Keep.use
    | split

theorem State.trvEnable_keep {s t : State} (h : Keep s t) : Keep s (State.trvEnable t) := by
  unfold State.trvEnable
  repeat' first
    | with_reducible assumption
    | (with_reducible apply State.setRun_keep)
    | (with_reducible apply State.trvLoad_keep)
    | (with_reducible apply State.trvCfgTaken_keep)
    | with_reducible apply forN_keep
    | with_reducible apply ite_keep
    | intro _
    | simp only [Keep.upd_iff]
    | with_reducible apply Keep.use
    | split

theorem State.trvCmd_keep {s t : State} {stop reload : Nat} (h : Keep s t) : Keep s (t.trvCmd stop reload).1 := by
  unfold State.trvCmd
  refine forN_inv (fun a : State × List Nat => Keep s a.1) h (fun g a ka => ?_)
  dsimp only
  split
  · split
    · exact State.trvLose_keep ka
    · exact ka
  · split
    · split
      · exact ka
      · split
        · exact ka
        · exact State.trvLoad_keep ka
    · exact ka

theorem State.trvCmd_keep_eq {s t : State} {stop : Nat} {reload : Nat} {p_ : _} (h : Keep s t) (e : State.trvCmd t stop reload = p_) : Keep s p_.1 :=
  e ▸ State.trvCmd_keep h

theorem State.showRows_keep {s t : State} {h_ : Nat} (h : Keep s t) : Keep s (State.showRows t h_) := by
  unfold State.showRows
  repeat' first
    | with_reducible assumption
    | (with_reducible apply State.wrB_keep)
    | (with_reducible apply State.wr_keep)
    | with_reducible apply foldl_keep
    | with_reducible apply ite_keep
    | intro _
    | simp only [Keep.upd_iff]
    | with_reducible apply Keep.use
    | split

theorem State.setRowRec_keep {s t : State} {h_ : Nat} {r : Nat} {x : RowRec} (h : Keep s t) : Keep s (State.setRowRec t h_ r x) := by
  unfold State.setRowRec
  repeat' first
    | with_reducible assumption
    | (with_reducible apply State.showRows_keep)
    | (with_reducible apply State.setLamp_keep)
    | with_reducible apply ite_keep
    | intro _
    | simp only [Keep.upd_iff]
    | with_reducible apply Keep.use
    | split

theorem State.rowFound_keep {s t : State} {h_ : Nat} {row : Nat} {kind : Nat} (h : Keep s t) : Keep s (State.rowFound t h_ row kind) := by
  unfold State.rowFound
  repeat' first
    | with_reducible assumption
    | (with_reducible apply State.wr_keep)
    | (with_reducible apply State.count_keep)
    | with_reducible apply ite_keep
    | intro _
    | simp only [Keep.upd_iff]
    | with_reducible apply Keep.use
    | split

theorem State.rowOpen_keep {s t : State} {h_ : Nat} {r : Nat} (h : Keep s t) : Keep s (State.rowOpen t h_ r) := by
  unfold State.rowOpen
  repeat' first
    | with_reducible assumption
    | (with_reducible apply State.setRowRec_keep)
    | (with_reducible apply State.rowFound_keep)
    | with_reducible apply ite_keep
    | intro _
    | simp only [Keep.upd_iff]
    | with_reducible apply Keep.use
    | split

theorem State.setForced_keep {s t : State} {h_ : Nat} {i : Nat} {b : Bool} (h : Keep s t) : Keep s (State.setForced t h_ i b) := by
  unfold State.setForced
  repeat' first
    | with_reducible assumption
    | (with_reducible apply State.wr_keep)
    | with_reducible apply ite_keep
    | intro _
    | simp only [Keep.upd_iff]
    | with_reducible apply Keep.use
    | split

theorem State.setNb_keep {s t : State} {h_ : Nat} {i : Nat} {b : Bool} (h : Keep s t) : Keep s (State.setNb t h_ i b) := by
  unfold State.setNb
  repeat' first
    | with_reducible assumption
    | (with_reducible apply State.wr_keep)
    | with_reducible apply ite_keep
    | intro _
    | simp only [Keep.upd_iff]
    | with_reducible apply Keep.use
    | split

theorem State.publish_keep {s t : State} {h_ : Nat} {slot : Nat} {row : Nat} {gap : Bool} {sum : Nat → Nat} (h : Keep s t) : Keep s (State.publish t h_ slot row gap sum) := by
  unfold State.publish
  repeat' first
    | with_reducible assumption
    | (with_reducible apply State.wr32_keep)
    | with_reducible apply forN_keep
    | with_reducible apply ite_keep
    | intro _
    | simp only [Keep.upd_iff]
    | with_reducible apply Keep.use
    | split

theorem State.publishSlot_keep {s t : State} {h_ : Nat} {k : Nat} {r : Nat} {blank : Bool} (h : Keep s t) : Keep s (State.publishSlot t h_ k r blank) := by
  unfold State.publishSlot
  repeat' first
    | with_reducible assumption
    | (with_reducible apply State.count_keep)
    | (with_reducible apply State.setScan_keep)
    | (with_reducible apply State.publish_keep)
    | with_reducible apply ite_keep
    | intro _
    | simp only [Keep.upd_iff]
    | with_reducible apply Keep.use
    | split

theorem State.publishFirst_keep {s t : State} {h_ : Nat} (h : Keep s t) : Keep s (State.publishFirst t h_) := by
  unfold State.publishFirst
  repeat' first
    | with_reducible assumption
    | (with_reducible apply State.publishSlot_keep)
    | (with_reducible apply State.setScan_keep)
    | with_reducible apply ite_keep
    | intro _
    | simp only [Keep.upd_iff]
    | with_reducible apply Keep.use
    | split

theorem State.gapPublish_keep {s t : State} {h_ : Nat} (h : Keep s t) : Keep s (State.gapPublish t h_) := by
  unfold State.gapPublish
  repeat' first
    | with_reducible assumption
    | (with_reducible apply State.useFree_keep)
    | (with_reducible apply State.publishFirst_keep)
    | with_reducible apply ite_keep
    | intro _
    | simp only [Keep.upd_iff]
    | with_reducible apply Keep.use
    | split

theorem State.showNb_keep {s t : State} {h_ : Nat} (h : Keep s t) : Keep s (State.showNb t h_) := by
  unfold State.showNb
  repeat' first
    | with_reducible assumption
    | (with_reducible apply State.wrB_keep)
    | with_reducible apply ite_keep
    | intro _
    | simp only [Keep.upd_iff]
    | with_reducible apply Keep.use
    | split

theorem State.pairTest_keep {s t : State} {h_ : Nat} {p : Nat} {mv : Nat} (h : Keep s t) : Keep s (State.pairTest t h_ p mv) := by
  unfold State.pairTest
  repeat' first
    | with_reducible assumption
    | (with_reducible apply State.setLamp_keep)
    | (with_reducible apply State.setForced_keep)
    | (with_reducible apply State.setNb_keep)
    | (with_reducible apply State.gapPublish_keep)
    | (with_reducible apply State.showNb_keep)
    | (with_reducible apply State.wr_keep)
    | (with_reducible apply State.count_keep)
    | with_reducible apply ite_keep
    | intro _
    | simp only [Keep.upd_iff]
    | with_reducible apply Keep.use
    | split

theorem State.setLampRec_keep {s t : State} {h_ : Nat} {i : Nat} {r : Nat} {x : LampRec} (h : Keep s t) : Keep s (State.setLampRec t h_ i r x) := by
  unfold State.setLampRec
  repeat' first
    | with_reducible assumption
    | (with_reducible apply State.setLamp_keep)
    | with_reducible apply ite_keep
    | intro _
    | simp only [Keep.upd_iff]
    | with_reducible apply Keep.use
    | split

theorem State.lampSet_keep {s t : State} {h_ : Nat} {i : Nat} {r : Nat} {st : Nat} (h : Keep s t) : Keep s (State.lampSet t h_ i r st) := by
  unfold State.lampSet
  repeat' first
    | with_reducible assumption
    | (with_reducible apply State.setLampRec_keep)
    | (with_reducible apply State.wr_keep)
    | (with_reducible apply State.count_keep)
    | with_reducible apply ite_keep
    | intro _
    | simp only [Keep.upd_iff]
    | with_reducible apply Keep.use
    | split

theorem State.diesChecked_keep {s t : State} {h_ : Nat} {a0 : Bool} {a1 : Bool} (h : Keep s t) : Keep s (State.diesChecked t h_ a0 a1) := by
  unfold State.diesChecked
  repeat' first
    | with_reducible assumption
    | (with_reducible apply State.askPass_keep)
    | (with_reducible apply State.askFail_keep)
    | with_reducible apply ite_keep
    | intro _
    | simp only [Keep.upd_iff]
    | with_reducible apply Keep.use
    | split

theorem State.measure_keep {s t : State} {h_ : Nat} {i : Nat} {r : Nat} {code : Nat} (h : Keep s t) : Keep s (State.measure t h_ i r code) := by
  unfold State.measure
  repeat' first
    | with_reducible assumption
    | (with_reducible apply State.setLampRec_keep)
    | (with_reducible apply State.lampSet_keep)
    | with_reducible apply ite_keep
    | intro _
    | simp only [Keep.upd_iff]
    | with_reducible apply Keep.use
    | split

theorem State.measureSlot_keep {s t : State} {h_ : Nat} {r : Nat} {pins : List (Nat × Nat)} (h : Keep s t) : Keep s (State.measureSlot t h_ r pins) := by
  unfold State.measureSlot
  repeat' first
    | with_reducible assumption
    | (with_reducible apply State.measure_keep)
    | (with_reducible apply State.rowOpen_keep)
    | with_reducible apply forL_keep
    | with_reducible apply ite_keep
    | intro _
    | simp only [Keep.upd_iff]
    | with_reducible apply Keep.use
    | split

theorem State.slotEnd_keep {s t : State} {h_ : Nat} (h : Keep s t) : Keep s (State.slotEnd t h_) := by
  unfold State.slotEnd
  repeat' first
    | with_reducible assumption
    | (with_reducible apply State.measureSlot_keep)
    | (with_reducible apply State.setLamp_keep)
    | with_reducible apply ite_keep
    | intro _
    | simp only [Keep.upd_iff]
    | with_reducible apply Keep.use
    | split

theorem State.lampLoads_keep {s t : State} {h_ : Nat} {bad : List Nat} (h : Keep s t) : Keep s (State.lampLoads t h_ bad) := by
  unfold State.lampLoads
  repeat' first
    | with_reducible assumption
    | (with_reducible apply State.bump_keep)
    | (with_reducible apply State.setLamp_keep)
    | (with_reducible apply State.setRun_keep)
    | with_reducible apply ite_keep
    | intro _
    | simp only [Keep.upd_iff]
    | with_reducible apply Keep.use
    | split

theorem State.lampSample_keep {s t : State} {h_ : Nat} (h : Keep s t) : Keep s (State.lampSample t h_) := by
  unfold State.lampSample
  repeat' first
    | with_reducible assumption
    | (with_reducible apply State.setLamp_keep)
    | with_reducible apply ite_keep
    | intro _
    | simp only [Keep.upd_iff]
    | with_reducible apply Keep.use
    | split

theorem State.rowGate_keep {s t : State} {h_ : Nat} {r : Nat} (h : Keep s t) : Keep s (State.rowGate t h_ r) := by
  unfold State.rowGate
  repeat' first
    | with_reducible assumption
    | (with_reducible apply State.setRowRec_keep)
    | (with_reducible apply State.rowFound_keep)
    | with_reducible apply ite_keep
    | intro _
    | simp only [Keep.upd_iff]
    | with_reducible apply Keep.use
    | split

theorem State.publishGap_keep {s t : State} {h_ : Nat} (h : Keep s t) : Keep s (State.publishGap t h_) := by
  unfold State.publishGap
  repeat' first
    | with_reducible assumption
    | (with_reducible apply State.publish_keep)
    | (with_reducible apply State.useFree_keep)
    | with_reducible apply ite_keep
    | intro _
    | simp only [Keep.upd_iff]
    | with_reducible apply Keep.use
    | split

theorem State.rowSlot_keep {s t : State} {h_ : Nat} {obs : RowObs} (h : Keep s t) : Keep s (State.rowSlot t h_ obs) := by
  unfold State.rowSlot
  repeat' first
    | with_reducible assumption
    | (with_reducible apply State.reachSlot_keep)
    | (with_reducible apply State.slotEnd_keep)
    | (with_reducible apply State.setScan_keep)
    | (with_reducible apply State.lampLoads_keep)
    | (with_reducible apply State.lampSample_keep)
    | (with_reducible apply State.setLamp_keep)
    | (with_reducible apply State.rowGate_keep)
    | (with_reducible apply State.publishSlot_keep)
    | (with_reducible apply State.publishGap_keep)
    | (with_reducible apply State.fetchRow_keep)
    | with_reducible apply forL_keep
    | with_reducible apply ite_keep
    | intro _
    | simp only [Keep.upd_iff]
    | with_reducible apply Keep.use
    | split

theorem State.lmpDisable_keep {s t : State} {h_ : Nat} (h : Keep s t) : Keep s (State.lmpDisable t h_) := by
  unfold State.lmpDisable
  repeat' first
    | with_reducible assumption
    | (with_reducible apply State.setLamp_keep)
    | (with_reducible apply State.setRun_keep)
    | with_reducible apply ite_keep
    | intro _
    | simp only [Keep.upd_iff]
    | with_reducible apply Keep.use
    | split

theorem State.entryInForce_keep {s t : State} {rail : Nat} (h : Keep s t) : Keep s (State.entryInForce t rail) := by
  unfold State.entryInForce
  repeat' first
    | with_reducible assumption
    | (with_reducible apply State.wr32_keep)
    | with_reducible apply ite_keep
    | intro _
    | simp only [Keep.upd_iff]
    | with_reducible apply Keep.use
    | split

theorem State.frameBegin_keep {s t : State} {h_ : Nat} {was : Option Bool} (h : Keep s t) : Keep s (State.frameBegin t h_ was) := by
  unfold State.frameBegin
  repeat' first
    | with_reducible assumption
    | (with_reducible apply State.fetchRow_keep)
    | (with_reducible apply State.publishSlot_keep)
    | (with_reducible apply State.entryInForce_keep)
    | (with_reducible apply State.publish_keep)
    | (with_reducible apply State.publishGap_keep)
    | with_reducible apply forN_keep
    | with_reducible apply ite_keep
    | intro _
    | simp only [Keep.upd_iff]
    | with_reducible apply Keep.use
    | split

theorem State.scanStart_keep {s t : State} (h : Keep s t) : Keep s (State.scanStart t) := by
  unfold State.scanStart
  repeat' first
    | with_reducible assumption
    | (with_reducible apply State.publishFirst_keep)
    | (with_reducible apply State.frameBegin_keep)
    | (with_reducible apply State.scanBoundary_keep)
    | with_reducible apply ite_keep
    | intro _
    | simp only [Keep.upd_iff]
    | with_reducible apply Keep.use
    | split

theorem State.ageOut_keep {s t : State} {h_ : Nat} {i : Nat} {r : Nat} (h : Keep s t) : Keep s (State.ageOut t h_ i r) := by
  unfold State.ageOut
  repeat' first
    | with_reducible assumption
    | (with_reducible apply State.lampSet_keep)
    | with_reducible apply ite_keep
    | intro _
    | simp only [Keep.upd_iff]
    | with_reducible apply Keep.use
    | split

theorem State.nbRestore_keep {s t : State} {h_ : Nat} {dword : Nat} {mask : Nat} (h : Keep s t) : Keep s (State.nbRestore t h_ dword mask) := by
  unfold State.nbRestore
  repeat' first
    | with_reducible assumption
    | (with_reducible apply State.setForced_keep)
    | (with_reducible apply State.gapPublish_keep)
    | with_reducible apply forN_keep
    | with_reducible apply ite_keep
    | intro _
    | simp only [Keep.upd_iff]
    | with_reducible apply Keep.use
    | split

theorem State.leakTest_keep {s t : State} {h_ : Nat} {mv0 : Nat} {mv1 : Nat} (h : Keep s t) : Keep s (State.leakTest t h_ mv0 mv1) := by
  unfold State.leakTest
  repeat' first
    | with_reducible assumption
    | (with_reducible apply State.setLamp_keep)
    | (with_reducible apply State.rowFound_keep)
    | (with_reducible apply State.wr_keep)
    | with_reducible apply ite_keep
    | intro _
    | simp only [Keep.upd_iff]
    | with_reducible apply Keep.use
    | split

theorem State.lampsHeld_keep {s t : State} {h_ : Nat} (h : Keep s t) : Keep s (State.lampsHeld t h_) := by
  unfold State.lampsHeld
  repeat' first
    | with_reducible assumption
    | (with_reducible apply State.setLampRec_keep)
    | (with_reducible apply State.lampSet_keep)
    | with_reducible apply forL_keep
    | with_reducible apply ite_keep
    | intro _
    | simp only [Keep.upd_iff]
    | with_reducible apply Keep.use
    | split

theorem State.lampLatch_keep {s t : State} {h_ : Nat} (h : Keep s t) : Keep s (State.lampLatch t h_) := by
  unfold State.lampLatch
  repeat' first
    | with_reducible assumption
    | (with_reducible apply State.lampsHeld_keep)
    | (with_reducible apply State.slotEnd_keep)
    | (with_reducible apply State.setLamp_keep)
    | (with_reducible apply State.showRows_keep)
    | with_reducible apply ite_keep
    | intro _
    | simp only [Keep.upd_iff]
    | with_reducible apply Keep.use
    | split

theorem State.keepDark_keep {s t : State} {s0 : State} (h : Keep s t) : Keep s (State.keepDark t s0) := by
  unfold State.keepDark
  repeat' first
    | with_reducible assumption
    | (with_reducible apply State.setLamp_keep)
    | with_reducible apply forN_keep
    | with_reducible apply ite_keep
    | intro _
    | simp only [Keep.upd_iff]
    | with_reducible apply Keep.use
    | split

theorem State.lmpEnable_keep {s t : State} {h_ : Nat} (h : Keep s t) : Keep s (State.lmpEnable t h_) := by
  unfold State.lmpEnable
  repeat' first
    | with_reducible assumption
    | (with_reducible apply State.setRun_keep)
    | (with_reducible apply State.setLamp_keep)
    | with_reducible apply ite_keep
    | intro _
    | simp only [Keep.upd_iff]
    | with_reducible apply Keep.use
    | split

theorem State.probe_keep {s t : State} {h_ : Nat} {i : Nat} {r : Nat} {mv : Nat} (h : Keep s t) : Keep s (State.probe t h_ i r mv) := by
  unfold State.probe
  repeat' first
    | with_reducible assumption
    | (with_reducible apply State.measure_keep)
    | (with_reducible apply State.count_keep)
    | (with_reducible apply State.setLamp_keep)
    | with_reducible apply ite_keep
    | intro _
    | simp only [Keep.upd_iff]
    | with_reducible apply Keep.use
    | split

theorem State.derate_keep {s t : State} (h : Keep s t) : Keep s (State.derate t) := by
  unfold State.derate
  repeat' first
    | with_reducible assumption
    | (with_reducible apply State.wrB_keep)
    | (with_reducible apply State.wr_keep)
    | (with_reducible apply State.useFree_keep)
    | with_reducible apply forN_keep
    | with_reducible apply ite_keep
    | intro _
    | simp only [Keep.upd_iff]
    | with_reducible apply Keep.use
    | split

theorem State.overtemp_keep {s t : State} (h : Keep s t) : Keep s (State.overtemp t) := by
  unfold State.overtemp
  repeat' first
    | with_reducible assumption
    | (with_reducible apply State.count_keep)
    | (with_reducible apply State.setLamp_keep)
    | with_reducible apply forN_keep
    | with_reducible apply ite_keep
    | intro _
    | simp only [Keep.upd_iff]
    | with_reducible apply Keep.use
    | split

theorem State.gatesTo_keep {s t : State} {r : Nat} {p : Nat} (h : Keep s t) : Keep s (State.gatesTo t r p) := by
  unfold State.gatesTo
  repeat' first
    | with_reducible assumption
    | (with_reducible apply State.emit_keep)
    | with_reducible apply ite_keep
    | intro _
    | simp only [Keep.upd_iff]
    | with_reducible apply Keep.use
    | split

theorem State.railShow_keep {s t : State} {r : Nat} (h : Keep s t) : Keep s (State.railShow t r) := by
  unfold State.railShow
  repeat' first
    | with_reducible assumption
    | (with_reducible apply State.wr_keep)
    | with_reducible apply ite_keep
    | intro _
    | simp only [Keep.upd_iff]
    | with_reducible apply Keep.use
    | split

theorem State.chopSync_keep {s t : State} {r : Nat} (h : Keep s t) : Keep s (State.chopSync t r) := by
  unfold State.chopSync
  repeat' first
    | with_reducible assumption
    | (with_reducible apply State.gatesTo_keep)
    | (with_reducible apply State.setChop_keep)
    | (with_reducible apply State.railShow_keep)
    | (with_reducible apply State.wr_keep)
    | with_reducible apply ite_keep
    | intro _
    | simp only [Keep.upd_iff]
    | with_reducible apply Keep.use
    | split

theorem State.chopOnEnd_keep {s t : State} {r : Nat} {m : ChopMeas} (h : Keep s t) : Keep s (State.chopOnEnd t r m) := by
  unfold State.chopOnEnd
  repeat' first
    | with_reducible assumption
    | (with_reducible apply State.gatesTo_keep)
    | (with_reducible apply State.setChop_keep)
    | with_reducible apply ite_keep
    | intro _
    | simp only [Keep.upd_iff]
    | with_reducible apply Keep.use
    | split

theorem State.cycleEnd_keep {s t : State} {r : Nat} {m : ChopMeas} (h : Keep s t) : Keep s (State.cycleEnd t r m) := by
  unfold State.cycleEnd
  repeat' first
    | with_reducible assumption
    | (with_reducible apply State.wr_keep)
    | (with_reducible apply State.wrI_keep)
    | (with_reducible apply State.count_keep)
    | (with_reducible apply State.chopSync_keep)
    | (with_reducible apply State.setChop_keep)
    | (with_reducible apply State.gatesTo_keep)
    | with_reducible apply ite_keep
    | intro _
    | simp only [Keep.upd_iff]
    | with_reducible apply Keep.use
    | split

theorem State.chopLimit_keep {s t : State} {r : Nat} {m : ChopMeas} (h : Keep s t) : Keep s (State.chopLimit t r m) := by
  unfold State.chopLimit
  repeat' first
    | with_reducible assumption
    | (with_reducible apply State.gatesTo_keep)
    | (with_reducible apply State.setChop_keep)
    | (with_reducible apply State.cycleEnd_keep)
    | with_reducible apply ite_keep
    | intro _
    | simp only [Keep.upd_iff]
    | with_reducible apply Keep.use
    | split

theorem State.ovRecover_keep {s t : State} {r : Nat} {vrail : Nat} (h : Keep s t) : Keep s (State.ovRecover t r vrail) := by
  unfold State.ovRecover
  repeat' first
    | with_reducible assumption
    | (with_reducible apply State.chopSync_keep)
    | (with_reducible apply State.setChop_keep)
    | with_reducible apply ite_keep
    | intro _
    | simp only [Keep.upd_iff]
    | with_reducible apply Keep.use
    | split

theorem State.sendSp_keep {s t : State} {r : Nat} {u_ : Int} {x : Int} (h : Keep s t) : Keep s (State.sendSp t r u_ x) := by
  unfold State.sendSp
  repeat' first
    | with_reducible assumption
    | (with_reducible apply State.wrI_keep)
    | (with_reducible apply State.chopSync_keep)
    | (with_reducible apply State.setChop_keep)
    | with_reducible apply ite_keep
    | intro _
    | simp only [Keep.upd_iff]
    | with_reducible apply Keep.use
    | split

theorem State.setVreg_keep {s t : State} {n : Nat} {v : Nat} {l : Nat} {x : Int} (h : Keep s t) : Keep s (State.setVreg t n v l x) := by
  unfold State.setVreg
  repeat' first
    | with_reducible assumption
    | (with_reducible apply State.setLoop_keep)
    | with_reducible apply ite_keep
    | intro _
    | simp only [Keep.upd_iff]
    | with_reducible apply Keep.use
    | split

theorem State.loopSend_keep {s t : State} {run : LoopRun} {r : Nat} {a : Nat} (h : Keep s t) : Keep s (State.loopSend t run r a) := by
  unfold State.loopSend
  repeat' first
    | with_reducible assumption
    | (with_reducible apply State.setLoop_keep)
    | (with_reducible apply State.sendSp_keep)
    | (with_reducible apply State.setVreg_keep)
    | with_reducible apply forN_keep
    | with_reducible apply ite_keep
    | intro _
    | simp only [Keep.upd_iff]
    | with_reducible apply Keep.use
    | split

theorem State.loopNext_keep {s t : State} (h : Keep s t) : Keep s (State.loopNext t) := by
  unfold State.loopNext
  repeat' first
    | with_reducible assumption
    | (with_reducible apply State.setLoop_keep)
    | with_reducible apply ite_keep
    | intro _
    | simp only [Keep.upd_iff]
    | with_reducible apply Keep.use
    | split

theorem State.runEnd_keep {s t : State} {r : LoopRun} (h : Keep s t) : Keep s (State.runEnd t r) := by
  unfold State.runEnd
  repeat' first
    | with_reducible assumption
    | (with_reducible apply State.setLoop_keep)
    | (with_reducible apply State.count_keep)
    | with_reducible apply ite_keep
    | intro _
    | simp only [Keep.upd_iff]
    | with_reducible apply Keep.use
    | split

theorem State.loopHalt_keep {s t : State} {run : LoopRun} (h : Keep s t) : Keep s (State.loopHalt t run) := by
  unfold State.loopHalt
  repeat' first
    | with_reducible assumption
    | (with_reducible apply State.count_keep)
    | (with_reducible apply State.wr_keep)
    | (with_reducible apply State.runEnd_keep)
    | (with_reducible apply State.sendSp_keep)
    | with_reducible apply ite_keep
    | intro _
    | simp only [Keep.upd_iff]
    | with_reducible apply Keep.use
    | split

theorem State.headReport_keep {s t : State} {h_ : Nat} {rail : Nat} {v : Option Nat} (h : Keep s t) : Keep s (State.headReport t h_ rail v) := by
  unfold State.headReport
  repeat' first
    | with_reducible assumption
    | (with_reducible apply State.setLoop_keep)
    | with_reducible apply ite_keep
    | intro _
    | simp only [Keep.upd_iff]
    | with_reducible apply Keep.use
    | split

theorem State.chopOffEnd_keep {s t : State} {r : Nat} {m : ChopMeas} (h : Keep s t) : Keep s (State.chopOffEnd t r m) := by
  unfold State.chopOffEnd
  repeat' first
    | with_reducible assumption
    | (with_reducible apply State.cycleEnd_keep)
    | (with_reducible apply State.setChop_keep)
    | with_reducible apply ite_keep
    | intro _
    | simp only [Keep.upd_iff]
    | with_reducible apply Keep.use
    | split

theorem State.lopInfo_keep {s t : State} (h : Keep s t) : Keep s (State.lopInfo t) := by
  unfold State.lopInfo
  repeat' first
    | with_reducible assumption
    | (with_reducible apply State.wr_keep)
    | (with_reducible apply State.useFree_keep)
    | with_reducible apply forL_keep
    | with_reducible apply ite_keep
    | intro _
    | simp only [Keep.upd_iff]
    | with_reducible apply Keep.use
    | split

theorem State.slotDue_keep {s t : State} {n : Nat} (h : Keep s t) : Keep s (State.slotDue t n) := by
  unfold State.slotDue
  repeat' first
    | with_reducible assumption
    | (with_reducible apply State.count_keep)
    | (with_reducible apply State.setLoop_keep)
    | with_reducible apply ite_keep
    | intro _
    | simp only [Keep.upd_iff]
    | with_reducible apply Keep.use
    | split

theorem State.lopDisable_keep {s t : State} (h : Keep s t) : Keep s (State.lopDisable t) := by
  unfold State.lopDisable
  repeat' first
    | with_reducible assumption
    | (with_reducible apply State.setRun_keep)
    | (with_reducible apply State.setLoop_keep)
    | (with_reducible apply State.chopSync_keep)
    | with_reducible apply forN_keep
    | with_reducible apply ite_keep
    | intro _
    | simp only [Keep.upd_iff]
    | with_reducible apply Keep.use
    | split

theorem State.chopOv_keep {s t : State} {r : Nat} {vrail : Nat} (h : Keep s t) : Keep s (State.chopOv t r vrail) := by
  unfold State.chopOv
  repeat' first
    | with_reducible assumption
    | (with_reducible apply State.chopSync_keep)
    | (with_reducible apply State.count_keep)
    | (with_reducible apply State.setChop_keep)
    | with_reducible apply ite_keep
    | intro _
    | simp only [Keep.upd_iff]
    | with_reducible apply Keep.use
    | split

theorem State.lopStart_keep {s t : State} (h : Keep s t) : Keep s (State.lopStart t) := by
  unfold State.lopStart
  repeat' first
    | with_reducible assumption
    | (with_reducible apply State.setLoop_keep)
    | (with_reducible apply State.wr_keep)
    | (with_reducible apply State.askPass_keep)
    | (with_reducible apply State.sendSp_keep)
    | with_reducible apply forN_keep
    | with_reducible apply ite_keep
    | intro _
    | simp only [Keep.upd_iff]
    | with_reducible apply Keep.use
    | split

theorem State.lopChecked_keep {s t : State} (h : Keep s t) : Keep s (State.lopChecked t) := by
  unfold State.lopChecked
  repeat' first
    | with_reducible assumption
    | (with_reducible apply State.lopInfo_keep)
    | (with_reducible apply State.wr_keep)
    | (with_reducible apply State.askFail_keep)
    | (with_reducible apply State.lopStart_keep)
    | with_reducible apply ite_keep
    | intro _
    | simp only [Keep.upd_iff]
    | with_reducible apply Keep.use
    | split

theorem State.clearSlot_keep {s t : State} {n : Nat} (h : Keep s t) : Keep s (State.clearSlot t n) := by
  unfold State.clearSlot
  repeat' first
    | with_reducible assumption
    | (with_reducible apply State.setLoop_keep)
    | with_reducible apply ite_keep
    | intro _
    | simp only [Keep.upd_iff]
    | with_reducible apply Keep.use
    | split

theorem State.lopRestart_keep {s t : State} {mask : Nat} (h : Keep s t) : Keep s (State.lopRestart t mask) := by
  unfold State.lopRestart
  repeat' first
    | with_reducible assumption
    | (with_reducible apply State.wr_keep)
    | (with_reducible apply State.clearSlot_keep)
    | (with_reducible apply State.chopSync_keep)
    | with_reducible apply forN_keep
    | with_reducible apply ite_keep
    | intro _
    | simp only [Keep.upd_iff]
    | with_reducible apply Keep.use
    | split

theorem State.runStart_keep {s t : State} (h : Keep s t) : Keep s (State.runStart t) := by
  unfold State.runStart
  repeat' first
    | with_reducible assumption
    | (with_reducible apply State.wr_keep)
    | (with_reducible apply State.setLoop_keep)
    | (with_reducible apply State.railShow_keep)
    | (with_reducible apply State.count_keep)
    | with_reducible apply ite_keep
    | intro _
    | simp only [Keep.upd_iff]
    | with_reducible apply Keep.use
    | split

theorem State.ffEntry_keep {s t : State} {r : Nat} (h : Keep s t) : Keep s (State.ffEntry t r) := by
  unfold State.ffEntry
  repeat' first
    | with_reducible assumption
    | (with_reducible apply State.entryInForce_keep)
    | (with_reducible apply State.publishFirst_keep)
    | (with_reducible apply State.wrB_keep)
    | with_reducible apply ite_keep
    | intro _
    | simp only [Keep.upd_iff]
    | with_reducible apply Keep.use
    | split

theorem State.chopOver_keep {s t : State} {r : Nat} {m : ChopMeas} (h : Keep s t) : Keep s (State.chopOver t r m) := by
  unfold State.chopOver
  repeat' first
    | with_reducible assumption
    | (with_reducible apply State.count_keep)
    | (with_reducible apply State.gatesTo_keep)
    | (with_reducible apply State.setChop_keep)
    | with_reducible apply ite_keep
    | intro _
    | simp only [Keep.upd_iff]
    | with_reducible apply Keep.use
    | split

theorem State.writeLanes_keep {s t : State} {n : Nat} {d : Nat} {m : Nat} {f : Nat → Int} (h : Keep s t) : Keep s (State.writeLanes t n d m f) := by
  unfold State.writeLanes
  repeat' first
    | with_reducible assumption
    | (with_reducible apply State.setVreg_keep)
    | with_reducible apply forL_keep
    | with_reducible apply ite_keep
    | intro _
    | simp only [Keep.upd_iff]
    | with_reducible apply Keep.use
    | split

end Sys2Proof.Machine
end

