-- ==== Sys2Proof/Laws/KeepSystem.lean ====
section
/-! SUPPORT. The operations of DRAM, sensors, host, side ports, Fold, timebase and power keep the build, the queue and the form of the stores. -/

set_option linter.unusedTactic false
set_option linter.unusedSimpArgs false
set_option linter.unreachableTactic false

namespace Sys2Proof.Machine

theorem State.sendHostCpl_keep {s t : State} {node : Nat} {tag : Nat} {len : Nat} {data : List Byte} {err : Bool} (h : Keep s t) : Keep s (State.sendHostCpl t node tag len data err) := by
  unfold State.sendHostCpl
  repeat' first
    | with_reducible assumption
    | (with_reducible apply State.originateSpur_keep)
    | with_reducible apply forN_keep
    | with_reducible apply ite_keep
    | intro _
    | simp only [Keep.upd_iff]
    | with_reducible apply Keep.use
    | split

theorem State.hostRead_keep {s t : State} {c : Cell} {data : List Byte} {ended : ReadEnd} (h : Keep s t) : Keep s (State.hostRead t c data ended) := by
  unfold State.hostRead
  repeat' first
    | with_reducible assumption
    | (with_reducible apply State.readHost_keep)
    | (with_reducible apply State.sendHostCpl_keep)
    | (with_reducible apply State.aer_keep)
    | (with_reducible apply State.count_keep)
    | with_reducible apply ite_keep
    | intro _
    | simp only [Keep.upd_iff]
    | with_reducible apply Keep.use
    | split

theorem State.hostAccess_keep {s t : State} {x : Stalled} (h : Keep s t) : Keep s (State.hostAccess t x) := by
  unfold State.hostAccess
  repeat' first
    | with_reducible assumption
    | (with_reducible apply State.writeHost_keep)
    | (with_reducible apply State.hostRead_keep)
    | (with_reducible apply State.sendHostCpl_keep)
    | with_reducible apply ite_keep
    | intro _
    | simp only [Keep.upd_iff]
    | with_reducible apply Keep.use
    | split

theorem State.flushStalled_keep {s t : State} (h : Keep s t) : Keep s (State.flushStalled t) := by
  unfold State.flushStalled
  repeat' first
    | with_reducible assumption
    | (with_reducible apply State.hostAccess_keep)
    | with_reducible apply forL_keep
    | with_reducible apply ite_keep
    | intro _
    | simp only [Keep.upd_iff]
    | with_reducible apply Keep.use
    | split

theorem State.setD3_keep {s t : State} {fn : Nat} {d3 : Bool} (h : Keep s t) : Keep s (State.setD3 t fn d3) := by
  unfold State.setD3
  repeat' first
    | with_reducible assumption
    | (with_reducible apply State.flushHeld_keep)
    | (with_reducible apply State.dmaIssue_keep)
    | (with_reducible apply State.flushStalled_keep)
    | with_reducible apply ite_keep
    | intro _
    | simp only [Keep.upd_iff]
    | with_reducible apply Keep.use
    | split

theorem State.cfgWrite_keep {s t : State} {fn : Nat} {r : CfgReg} {v : Nat} (h : Keep s t) : Keep s (State.cfgWrite t fn r v) := by
  unfold State.cfgWrite
  repeat' first
    | with_reducible assumption
    | (with_reducible apply State.setCfg_keep)
    | (with_reducible apply State.setD3_keep)
    | (with_reducible apply State.emit_keep)
    | (with_reducible apply State.useFree_keep)
    | (with_reducible apply State.msixCfg_keep)
    | with_reducible apply ite_keep
    | intro _
    | simp only [Keep.upd_iff]
    | with_reducible apply Keep.use
    | split

theorem State.abortOf_keep {s t : State} {fn : Nat} (h : Keep s t) : Keep s (State.abortOf t fn) := by
  unfold State.abortOf
  repeat' first
    | with_reducible assumption
    | (with_reducible apply State.emit_keep)
    | (with_reducible apply State.aer_keep)
    | (with_reducible apply State.count_keep)
    | with_reducible apply ite_keep
    | intro _
    | simp only [Keep.upd_iff]
    | with_reducible apply Keep.use
    | split

theorem State.sendTagged_keep {s t : State} {node : Nat} {typ : Nat} {tag : Nat} {mk : Cell → Cell} {payload : List Byte} (h : Keep s t) : Keep s (State.sendTagged t node typ tag mk payload) := by
  unfold State.sendTagged
  repeat' first
    | with_reducible assumption
    | (with_reducible apply State.originate_keep)
    | (with_reducible apply State.originateSpur_keep)
    | with_reducible apply ite_keep
    | intro _
    | simp only [Keep.upd_iff]
    | with_reducible apply Keep.use
    | split

theorem State.dmaPost_keep {s t : State} {ch : Nat} {idx : Nat} (h : Keep s t) : Keep s (State.dmaPost t ch idx) := by
  unfold State.dmaPost
  repeat' first
    | with_reducible assumption
    | (with_reducible apply State.dmaIssue_keep)
    | (with_reducible apply State.dmaShow_keep)
    | (with_reducible apply State.wr_keep)
    | with_reducible apply ite_keep
    | intro _
    | simp only [Keep.upd_iff]
    | with_reducible apply Keep.use
    | split

theorem State.logBerr_keep {s t : State} {addr : Nat} {reason : Nat} {write : Bool} {path : Path} {node : Nat} (h : Keep s t) : Keep s (State.logBerr t addr reason write path node) := by
  unfold State.logBerr
  repeat' first
    | with_reducible assumption
    | (with_reducible apply State.wr_keep)
    | (with_reducible apply State.wrB_keep)
    | (with_reducible apply State.count_keep)
    | with_reducible apply ite_keep
    | intro _
    | simp only [Keep.upd_iff]
    | with_reducible apply Keep.use
    | split

theorem State.bell_keep {s t : State} {fn : Nat} {off : Nat} {idx : Nat} (h : Keep s t) : Keep s (State.bell t fn off idx) := by
  unfold State.bell
  repeat' first
    | with_reducible assumption
    | with_reducible apply ite_keep
    | intro _
    | simp only [Keep.upd_iff]
    | with_reducible apply Keep.use
    | split

theorem State.onBell_keep {s t : State} {fn off idx be : Nat} {f : State → State} (h : Keep s t)
    (hf : ∀ a, Keep s a → Keep s (f a)) : Keep s (t.onBell fn off idx be f) := by
  unfold State.onBell
  split
  · exact h
  · exact ite_keep (fun _ => State.logBerr_keep h) (fun _ => hf _ (State.bell_keep h))

theorem State.evqBell_keep {s t : State} {q : Nat} {idx : Nat} {be : Nat} (h : Keep s t) : Keep s (State.evqBell t q idx be) := by
  unfold State.evqBell
  repeat' first
    | with_reducible assumption
    | (with_reducible apply State.onBell_keep)
    | (with_reducible apply State.wr_keep)
    | with_reducible apply ite_keep
    | intro _
    | simp only [Keep.upd_iff]
    | with_reducible apply Keep.use
    | split

theorem State.postDescs_keep {s t : State} {ch : Nat} {idx : Nat} {l : List Descriptor} (h : Keep s t) : Keep s (State.postDescs t ch idx l) := by
  unfold State.postDescs
  repeat' first
    | with_reducible assumption
    | with_reducible apply forN_keep
    | with_reducible apply ite_keep
    | intro _
    | simp only [Keep.upd_iff]
    | with_reducible apply Keep.use
    | split

theorem State.dmaBell_keep {s t : State} {head : Option Nat} {ch : Nat} {idx : Nat} {be : Nat} {descs : List Descriptor} (h : Keep s t) : Keep s (State.dmaBell t head ch idx be descs) := by
  unfold State.dmaBell
  repeat' first
    | with_reducible assumption
    | (with_reducible apply State.onBell_keep)
    | (with_reducible apply State.dmaPost_keep)
    | (with_reducible apply State.postDescs_keep)
    | (with_reducible apply State.originateSpur_keep)
    | with_reducible apply ite_keep
    | intro _
    | simp only [Keep.upd_iff]
    | with_reducible apply Keep.use
    | split

theorem State.bar4Put_keep {s t : State} {fn : Nat} {off : Nat} {v : Nat} {be : Nat} (h : Keep s t) : Keep s (State.bar4Put t fn off v be) := by
  unfold State.bar4Put
  repeat' first
    | with_reducible assumption
    | (with_reducible apply State.msixWrite_keep)
    | (with_reducible apply State.evqBell_keep)
    | (with_reducible apply State.onBell_keep)
    | (with_reducible apply State.dmaBell_keep)
    | with_reducible apply ite_keep
    | intro _
    | simp only [Keep.upd_iff]
    | with_reducible apply Keep.use
    | split

theorem State.completerAbort_keep {s t : State} (h : Keep s t) : Keep s (State.completerAbort t) := by
  unfold State.completerAbort
  repeat' first
    | with_reducible assumption
    | (with_reducible apply State.abortOf_keep)
    | with_reducible apply ite_keep
    | intro _
    | simp only [Keep.upd_iff]
    | with_reducible apply Keep.use
    | split

theorem State.nextTag_keep {s t : State} (h : Keep s t) : Keep s (State.nextTag t) := by
  unfold State.nextTag
  repeat' first
    | with_reducible assumption
    | with_reducible apply ite_keep
    | intro _
    | simp only [Keep.upd_iff]
    | with_reducible apply Keep.use
    | split

theorem State.startRemote_keep {s t : State} {x : Remote} (h : Keep s t) : Keep s (State.startRemote t x) := by
  unfold State.startRemote
  repeat' first
    | with_reducible assumption
    | (with_reducible apply State.nextTag_keep)
    | (with_reducible apply State.sendTagged_keep)
    | with_reducible apply forL_keep
    | with_reducible apply ite_keep
    | intro _
    | simp only [Keep.upd_iff]
    | with_reducible apply Keep.use
    | split

theorem State.remoteEnd_keep {s t : State} {x : Remote} (h : Keep s t) : Keep s (State.remoteEnd t x) := by
  unfold State.remoteEnd
  repeat' first
    | with_reducible assumption
    | (with_reducible apply State.completerAbort_keep)
    | (with_reducible apply State.emit_keep)
    | (with_reducible apply State.startRemote_keep)
    | with_reducible apply ite_keep
    | intro _
    | simp only [Keep.upd_iff]
    | with_reducible apply Keep.use
    | split

theorem State.remoteAnswer_keep {s t : State} {tag : Nat} {node : Nat} {addr : Nat} {count : Nat} {err : Bool} {data : List Byte} (h : Keep s t) : Keep s (State.remoteAnswer t tag node addr count err data) := by
  unfold State.remoteAnswer
  repeat' first
    | with_reducible assumption
    | (with_reducible apply State.remoteEnd_keep)
    | with_reducible apply foldl_keep
    | with_reducible apply ite_keep
    | intro _
    | simp only [Keep.upd_iff]
    | with_reducible apply Keep.use
    | split

theorem State.bar4_keep {s t : State} {fn : Nat} {off : Nat} {req : HostReq} (h : Keep s t) : Keep s (State.bar4 t fn off req) := by
  unfold State.bar4
  repeat' first
    | with_reducible assumption
    | (with_reducible apply State.logBerr_keep)
    | (with_reducible apply State.abortOf_keep)
    | (with_reducible apply State.emit_keep)
    | (with_reducible apply State.bar4Put_keep)
    | with_reducible apply forN_keep
    | with_reducible apply ite_keep
    | intro _
    | simp only [Keep.upd_iff]
    | with_reducible apply Keep.use
    | split

theorem State.remoteWrite_keep {s t : State} {node : Nat} {addr : Nat} {data : List Word} (h : Keep s t) : Keep s (State.remoteWrite t node addr data) := by
  unfold State.remoteWrite
  repeat' first
    | with_reducible assumption
    | (with_reducible apply State.sendTagged_keep)
    | (with_reducible apply State.nextTag_keep)
    | with_reducible apply forL_keep
    | with_reducible apply ite_keep
    | intro _
    | simp only [Keep.upd_iff]
    | with_reducible apply Keep.use
    | split

theorem State.remoteRead_keep {s t : State} {node : Nat} {addr : Nat} {count : Nat} (h : Keep s t) : Keep s (State.remoteRead t node addr count) := by
  unfold State.remoteRead
  repeat' first
    | with_reducible assumption
    | (with_reducible apply State.startRemote_keep)
    | with_reducible apply ite_keep
    | intro _
    | simp only [Keep.upd_iff]
    | with_reducible apply Keep.use
    | split

theorem State.holdoffEnd_keep {s t : State} {q : Nat} (h : Keep s t) : Keep s (State.holdoffEnd t q) := by
  unfold State.holdoffEnd
  repeat' first
    | with_reducible assumption
    | (with_reducible apply State.queueVector_keep)
    | with_reducible apply ite_keep
    | intro _
    | simp only [Keep.upd_iff]
    | with_reducible apply Keep.use
    | split

theorem State.dropRemotes_keep {s t : State} (h : Keep s t) : Keep s (State.dropRemotes t) := by
  unfold State.dropRemotes
  repeat' first
    | with_reducible assumption
    | with_reducible apply ite_keep
    | intro _
    | simp only [Keep.upd_iff]
    | with_reducible apply Keep.use
    | split

theorem State.eventIn_keep {s t : State} {id : Nat} {c : Cell} (h : Keep s t) : Keep s (State.eventIn t id c) := by
  unfold State.eventIn
  repeat' first
    | with_reducible assumption
    | (with_reducible apply State.queueEvent_keep)
    | (with_reducible apply State.sendSpur_keep)
    | with_reducible apply ite_keep
    | intro _
    | simp only [Keep.upd_iff]
    | with_reducible apply Keep.use
    | split

theorem State.setPtp_keep {s t : State} {ofs : Int} {rate : Int} (h : Keep s t) : Keep s (State.setPtp t ofs rate) := by
  unfold State.setPtp
  repeat' first
    | with_reducible assumption
    | with_reducible apply ite_keep
    | intro _
    | simp only [Keep.upd_iff]
    | with_reducible apply Keep.use
    | split

theorem State.stampOut_keep {s t : State} {p : Nat} (h : Keep s t) : Keep s (State.stampOut t p) := by
  unfold State.stampOut
  repeat' first
    | with_reducible assumption
    | (with_reducible apply State.useFree_keep)
    | with_reducible apply ite_keep
    | intro _
    | simp only [Keep.upd_iff]
    | with_reducible apply Keep.use
    | split

theorem State.delayReq_keep {s t : State} {p : Nat} (h : Keep s t) : Keep s (State.delayReq t p) := by
  unfold State.delayReq
  repeat' first
    | with_reducible assumption
    | (with_reducible apply State.stampOut_keep)
    | (with_reducible apply State.emit_keep)
    | (with_reducible apply State.useFree_keep)
    | with_reducible apply ite_keep
    | intro _
    | simp only [Keep.upd_iff]
    | with_reducible apply Keep.use
    | split

theorem State.ptpOffset_keep {s t : State} {ofs : Int} (h : Keep s t) : Keep s (State.ptpOffset t ofs) := by
  unfold State.ptpOffset
  repeat' first
    | with_reducible assumption
    | (with_reducible apply State.wrI_keep)
    | (with_reducible apply State.useFree_keep)
    | (with_reducible apply State.setPtp_keep)
    | (with_reducible apply State.wr_keep)
    | with_reducible apply ite_keep
    | intro _
    | simp only [Keep.upd_iff]
    | with_reducible apply Keep.use
    | split

theorem State.ptpClient_keep {s t : State} {p : Nat} {m : PtpMessage} (h : Keep s t) : Keep s (State.ptpClient t p m) := by
  unfold State.ptpClient
  repeat' first
    | with_reducible assumption
    | (with_reducible apply State.wr_keep)
    | (with_reducible apply State.delayReq_keep)
    | (with_reducible apply State.ptpOffset_keep)
    | with_reducible apply ite_keep
    | intro _
    | simp only [Keep.upd_iff]
    | with_reducible apply Keep.use
    | split

theorem State.frameOut_keep {s t : State} {p : Nat} {f : List Byte} (h : Keep s t) : Keep s (State.frameOut t p f) := by
  unfold State.frameOut
  repeat' first
    | with_reducible assumption
    | (with_reducible apply State.count_keep)
    | (with_reducible apply State.emit_keep)
    | (with_reducible apply State.stampOut_keep)
    | with_reducible apply ite_keep
    | intro _
    | simp only [Keep.upd_iff]
    | with_reducible apply Keep.use
    | split

theorem State.ethSend_keep {s t : State} {p : Nat} {b : List Byte} (h : Keep s t) : Keep s (State.ethSend t p b) := by
  unfold State.ethSend
  repeat' first
    | with_reducible assumption
    | (with_reducible apply State.count_keep)
    | (with_reducible apply State.frameOut_keep)
    | with_reducible apply ite_keep
    | intro _
    | simp only [Keep.upd_iff]
    | with_reducible apply Keep.use
    | split

theorem State.cpSlot_keep {s t : State} {x : CpSlot} (h : Keep s t) : Keep s (State.cpSlot t x) := by
  unfold State.cpSlot
  repeat' first
    | with_reducible assumption
    | (with_reducible apply State.readHost_keep)
    | (with_reducible apply State.useFree_keep)
    | (with_reducible apply State.ethSend_keep)
    | (with_reducible apply State.aer_keep)
    | (with_reducible apply State.count_keep)
    | (with_reducible apply State.vector_keep)
    | (with_reducible apply State.inc_keep)
    | with_reducible apply ite_keep
    | intro _
    | simp only [Keep.upd_iff]
    | with_reducible apply Keep.use
    | split

theorem State.ethStop_keep {s t : State} {p : Nat} (h : Keep s t) : Keep s (State.ethStop t p) := by
  unfold State.ethStop
  repeat' first
    | with_reducible assumption
    | (with_reducible apply State.wr_keep)
    | with_reducible apply ite_keep
    | intro _
    | simp only [Keep.upd_iff]
    | with_reducible apply Keep.use
    | split

theorem State.ethSync_keep {s t : State} {p : Nat} (h : Keep s t) : Keep s (State.ethSync t p) := by
  unfold State.ethSync
  repeat' first
    | with_reducible assumption
    | (with_reducible apply State.ethStop_keep)
    | with_reducible apply ite_keep
    | intro _
    | simp only [Keep.upd_iff]
    | with_reducible apply Keep.use
    | split

theorem State.cpReceive_keep {s t : State} {p : Nat} {b : List Byte} (h : Keep s t) : Keep s (State.cpReceive t p b) := by
  unfold State.cpReceive
  repeat' first
    | with_reducible assumption
    | (with_reducible apply State.count_keep)
    | (with_reducible apply State.vector_keep)
    | (with_reducible apply State.inc_keep)
    | (with_reducible apply State.writeHost_keep)
    | (with_reducible apply State.useFree_keep)
    | with_reducible apply ite_keep
    | intro _
    | simp only [Keep.upd_iff]
    | with_reducible apply Keep.use
    | split

theorem State.beSend_keep {s t : State} {side : Nat} {id : Nat} {c : Cell} (h : Keep s t) : Keep s (State.beSend t side id c) := by
  unfold State.beSend
  repeat' first
    | with_reducible assumption
    | (with_reducible apply State.sendCell_keep)
    | with_reducible apply ite_keep
    | intro _
    | simp only [Keep.upd_iff]
    | with_reducible apply Keep.use
    | split

theorem State.sendFrame_keep {s t : State} {side : Nat} {dest : Nat} {dir : Nat} {port : Nat} {b : List Byte} (h : Keep s t) : Keep s (State.sendFrame t side dest dir port b) := by
  unfold State.sendFrame
  repeat' first
    | with_reducible assumption
    | (with_reducible apply State.beSend_keep)
    | (with_reducible apply State.count_keep)
    | with_reducible apply forN_keep
    | with_reducible apply ite_keep
    | intro _
    | simp only [Keep.upd_iff]
    | with_reducible apply Keep.use
    | split

theorem State.ethLookup_keep {s t : State} {p : Nat} {f : EthFrame} (h : Keep s t) : Keep s (State.ethLookup t p f) := by
  unfold State.ethLookup
  repeat' first
    | with_reducible assumption
    | (with_reducible apply State.count_keep)
    | (with_reducible apply State.cpReceive_keep)
    | (with_reducible apply State.ethSend_keep)
    | (with_reducible apply State.sendFrame_keep)
    | with_reducible apply ite_keep
    | intro _
    | simp only [Keep.upd_iff]
    | with_reducible apply Keep.use
    | split

theorem State.dropStranded_keep {s t : State} {id : Nat} {c : Cell} {fid : Nat} (h : Keep s t) : Keep s (State.dropStranded t id c fid) := by
  unfold State.dropStranded
  repeat' first
    | with_reducible assumption
    | (with_reducible apply State.loseFrames_keep)
    | with_reducible apply ite_keep
    | intro _
    | simp only [Keep.upd_iff]
    | with_reducible apply Keep.use
    | split

theorem State.dropReasm_keep {s t : State} {src : Nat} {fid : Nat} (h : Keep s t) : Keep s (State.dropReasm t src fid) := by
  unfold State.dropReasm
  repeat' first
    | with_reducible assumption
    | with_reducible apply ite_keep
    | intro _
    | simp only [Keep.upd_iff]
    | with_reducible apply Keep.use
    | split

theorem State.putReasm_keep {s t : State} {r : Reasm} (h : Keep s t) : Keep s (State.putReasm t r) := by
  unfold State.putReasm
  repeat' first
    | with_reducible assumption
    | (with_reducible apply State.dropReasm_keep)
    | with_reducible apply ite_keep
    | intro _
    | simp only [Keep.upd_iff]
    | with_reducible apply Keep.use
    | split

theorem State.frameIn_keep {s t : State} {id : Nat} {c : Cell} (h : Keep s t) : Keep s (State.frameIn t id c) := by
  unfold State.frameIn
  repeat' first
    | with_reducible assumption
    | (with_reducible apply State.dropStranded_keep)
    | (with_reducible apply State.count_keep)
    | (with_reducible apply State.ethSend_keep)
    | (with_reducible apply State.dropReasm_keep)
    | (with_reducible apply State.putReasm_keep)
    | with_reducible apply ite_keep
    | intro _
    | simp only [Keep.upd_iff]
    | with_reducible apply Keep.use
    | split

theorem State.ethFlush_keep {s t : State} {p : Nat} (h : Keep s t) : Keep s (State.ethFlush t p) := by
  unfold State.ethFlush
  repeat' first
    | with_reducible assumption
    | (with_reducible apply State.frameOut_keep)
    | with_reducible apply forL_keep
    | with_reducible apply ite_keep
    | intro _
    | simp only [Keep.upd_iff]
    | with_reducible apply Keep.use
    | split

theorem State.ethLink_keep {s t : State} {p : Nat} {block : Bool} {fec : Bool} {up : Bool} (h : Keep s t) : Keep s (State.ethLink t p block fec up) := by
  unfold State.ethLink
  repeat' first
    | with_reducible assumption
    | (with_reducible apply State.wrB_keep)
    | (with_reducible apply State.ethFlush_keep)
    | with_reducible apply ite_keep
    | intro _
    | simp only [Keep.upd_iff]
    | with_reducible apply Keep.use
    | split

theorem State.stampIn_keep {s t : State} {p : Nat} (h : Keep s t) : Keep s (State.stampIn t p) := by
  unfold State.stampIn
  repeat' first
    | with_reducible assumption
    | (with_reducible apply State.useFree_keep)
    | with_reducible apply ite_keep
    | intro _
    | simp only [Keep.upd_iff]
    | with_reducible apply Keep.use
    | split

theorem State.ptpStamped_keep {s t : State} {p : Nat} {m : PtpMessage} (h : Keep s t) : Keep s (State.ptpStamped t p m) := by
  unfold State.ptpStamped
  repeat' first
    | with_reducible assumption
    | (with_reducible apply State.stampIn_keep)
    | with_reducible apply ite_keep
    | intro _
    | simp only [Keep.upd_iff]
    | with_reducible apply Keep.use
    | split

theorem State.ptpIn_keep {s t : State} {p : Nat} {m : PtpMessage} (h : Keep s t) : Keep s (State.ptpIn t p m) := by
  unfold State.ptpIn
  repeat' first
    | with_reducible assumption
    | (with_reducible apply State.ptpClient_keep)
    | (with_reducible apply State.ptpStamped_keep)
    | with_reducible apply ite_keep
    | intro _
    | simp only [Keep.upd_iff]
    | with_reducible apply Keep.use
    | split

theorem State.cpTransmit_keep {s t : State} {slots : List CpSlot} (h : Keep s t) : Keep s (State.cpTransmit t slots) := by
  unfold State.cpTransmit
  repeat' first
    | with_reducible assumption
    | (with_reducible apply State.cpSlot_keep)
    | with_reducible apply forL_keep
    | with_reducible apply ite_keep
    | intro _
    | simp only [Keep.upd_iff]
    | with_reducible apply Keep.use
    | split

theorem State.ptpSync_keep {s t : State} (h : Keep s t) : Keep s (State.ptpSync t) := by
  unfold State.ptpSync
  repeat' first
    | with_reducible assumption
    | (with_reducible apply State.wr_keep)
    | with_reducible apply ite_keep
    | intro _
    | simp only [Keep.upd_iff]
    | with_reducible apply Keep.use
    | split

theorem State.ptpTimeout_keep {s t : State} (h : Keep s t) : Keep s (State.ptpTimeout t) := by
  unfold State.ptpTimeout
  repeat' first
    | with_reducible assumption
    | (with_reducible apply State.count_keep)
    | (with_reducible apply State.wr_keep)
    | with_reducible apply ite_keep
    | intro _
    | simp only [Keep.upd_iff]
    | with_reducible apply Keep.use
    | split

theorem State.beRefill_keep {s t : State} {id : Nat} (h : Keep s t) : Keep s (State.beRefill t id) := by
  unfold State.beRefill
  repeat' first
    | with_reducible assumption
    | (with_reducible apply State.sendCell_keep)
    | with_reducible apply ite_keep
    | intro _
    | simp only [Keep.upd_iff]
    | with_reducible apply Keep.use
    | split

theorem State.ethFrameIn_keep {s t : State} {p : Nat} {f : EthFrame} (h : Keep s t) : Keep s (State.ethFrameIn t p f) := by
  unfold State.ethFrameIn
  repeat' first
    | with_reducible assumption
    | (with_reducible apply State.count_keep)
    | (with_reducible apply State.ptpStamped_keep)
    | (with_reducible apply State.ptpClient_keep)
    | (with_reducible apply State.stPacket_keep)
    | (with_reducible apply State.cpReceive_keep)
    | (with_reducible apply State.ethLookup_keep)
    | with_reducible apply ite_keep
    | intro _
    | simp only [Keep.upd_iff]
    | with_reducible apply Keep.use
    | split

theorem State.foldReply_keep {s t : State} {id : Nat} {dest : Nat} {typ : Nat} {pl : List Byte} (h : Keep s t) : Keep s (State.foldReply t id dest typ pl) := by
  unfold State.foldReply
  repeat' first
    | with_reducible assumption
    | (with_reducible apply State.originateSpur_keep)
    | (with_reducible apply State.originate_keep)
    | with_reducible apply ite_keep
    | intro _
    | simp only [Keep.upd_iff]
    | with_reducible apply Keep.use
    | split

theorem State.setShip_keep {s t : State} {v : Nat} (h : Keep s t) : Keep s (State.setShip t v) := by
  unfold State.setShip
  repeat' first
    | with_reducible assumption
    | (with_reducible apply State.wr_keep)
    | with_reducible apply ite_keep
    | intro _
    | simp only [Keep.upd_iff]
    | with_reducible apply Keep.use
    | split

theorem State.setFold_keep {s t : State} {f : Fold} (h : Keep s t) : Keep s (State.setFold t f) := by
  unfold State.setFold
  repeat' first
    | with_reducible assumption
    | with_reducible apply ite_keep
    | intro _
    | simp only [Keep.upd_iff]
    | with_reducible apply Keep.use
    | split

theorem State.foldNack_keep {s t : State} {id : Nat} {dest : Nat} {sq : Nat} {reason : Nat} (h : Keep s t) : Keep s (State.foldNack t id dest sq reason) := by
  unfold State.foldNack
  repeat' first
    | with_reducible assumption
    | (with_reducible apply State.foldReply_keep)
    | (with_reducible apply State.setShip_keep)
    | (with_reducible apply State.setFold_keep)
    | with_reducible apply ite_keep
    | intro _
    | simp only [Keep.upd_iff]
    | with_reducible apply Keep.use
    | split

theorem State.foldWhole_keep {s t : State} {id : Nat} {dest : Nat} {sq : Nat} {img : List Byte} (h : Keep s t) : Keep s (State.foldWhole t id dest sq img) := by
  unfold State.foldWhole
  repeat' first
    | with_reducible assumption
    | (with_reducible apply State.foldNack_keep)
    | (with_reducible apply State.count_keep)
    | (with_reducible apply State.setShip_keep)
    | (with_reducible apply State.setFold_keep)
    | (with_reducible apply State.wr_keep)
    | (with_reducible apply State.wrBytes_keep)
    | (with_reducible apply State.foldReply_keep)
    | with_reducible apply ite_keep
    | intro _
    | simp only [Keep.upd_iff]
    | with_reducible apply Keep.use
    | split

theorem State.foldRx_keep {s t : State} {id : Nat} {c : Cell} (h : Keep s t) : Keep s (State.foldRx t id c) := by
  unfold State.foldRx
  repeat' first
    | with_reducible assumption
    | (with_reducible apply State.foldReply_keep)
    | (with_reducible apply State.setShip_keep)
    | (with_reducible apply State.setFold_keep)
    | (with_reducible apply State.foldNack_keep)
    | (with_reducible apply State.count_keep)
    | (with_reducible apply State.foldWhole_keep)
    | with_reducible apply ite_keep
    | intro _
    | simp only [Keep.upd_iff]
    | with_reducible apply Keep.use
    | split

theorem State.sendTakes_keep {s t : State} {t_ : Nat} (h : Keep s t) : Keep s (State.sendTakes t t_) := by
  unfold State.sendTakes
  repeat' first
    | with_reducible assumption
    | (with_reducible apply State.originate_keep)
    | (with_reducible apply State.ctlSeq_keep)
    | (with_reducible refine State.ctlSeq_keep_eq ?_ (by assumption))
    | (with_reducible apply State.sendCell_keep)
    | with_reducible apply forN_keep
    | with_reducible apply forL_keep
    | with_reducible apply ite_keep
    | intro _
    | simp only [Keep.upd_iff]
    | with_reducible apply Keep.use
    | split

theorem State.startCapture_keep {s t : State} (h : Keep s t) : Keep s (State.startCapture t) := by
  unfold State.startCapture
  repeat' first
    | with_reducible assumption
    | (with_reducible apply State.setShip_keep)
    | (with_reducible apply State.setFold_keep)
    | with_reducible apply ite_keep
    | intro _
    | simp only [Keep.upd_iff]
    | with_reducible apply Keep.use
    | split

theorem State.foldPeriod_keep {s t : State} (h : Keep s t) : Keep s (State.foldPeriod t) := by
  unfold State.foldPeriod
  repeat' first
    | with_reducible assumption
    | (with_reducible apply State.startCapture_keep)
    | with_reducible apply ite_keep
    | intro _
    | simp only [Keep.upd_iff]
    | with_reducible apply Keep.use
    | split

theorem State.shipFold_keep {s t : State} (h : Keep s t) : Keep s (State.shipFold t) := by
  unfold State.shipFold
  repeat' first
    | with_reducible assumption
    | (with_reducible apply State.setShip_keep)
    | (with_reducible apply State.originate_keep)
    | (with_reducible apply State.originateSpur_keep)
    | with_reducible apply forN_keep
    | with_reducible apply ite_keep
    | intro _
    | simp only [Keep.upd_iff]
    | with_reducible apply Keep.use
    | split

theorem State.notePair_keep {s t : State} {r : Nat} {t_ : Nat} {h_ : Nat} (h : Keep s t) : Keep s (State.notePair t r t_ h_) := by
  unfold State.notePair
  repeat' first
    | with_reducible assumption
    | (with_reducible apply State.seeTerm_keep)
    | (with_reducible apply State.setRingAuth_keep)
    | (with_reducible apply State.setTerm_keep)
    | with_reducible apply ite_keep
    | intro _
    | simp only [Keep.upd_iff]
    | with_reducible apply Keep.use
    | split

theorem State.depose_keep {s t : State} {r : Nat} {t_ : Nat} (h : Keep s t) : Keep s (State.depose t r t_) := by
  unfold State.depose
  repeat' first
    | with_reducible assumption
    | (with_reducible apply State.count_keep)
    | (with_reducible apply State.setTerm_keep)
    | (with_reducible apply State.setRingAuth_keep)
    | (with_reducible apply State.dropOwn_keep)
    | (with_reducible apply State.wr_keep)
    | (with_reducible apply State.raiseEvent_keep)
    | with_reducible apply ite_keep
    | intro _
    | simp only [Keep.upd_iff]
    | with_reducible apply Keep.use
    | split

theorem State.headPair_keep {s t : State} {r : Nat} {t_ : Nat} {h_ : Nat} (h : Keep s t) : Keep s (State.headPair t r t_ h_) := by
  unfold State.headPair
  repeat' first
    | with_reducible assumption
    | (with_reducible apply State.notePair_keep)
    | (with_reducible apply State.depose_keep)
    | with_reducible apply ite_keep
    | intro _
    | simp only [Keep.upd_iff]
    | with_reducible apply Keep.use
    | split

theorem State.endShip_keep {s t : State} (h : Keep s t) : Keep s (State.endShip t) := by
  unfold State.endShip
  repeat' first
    | with_reducible assumption
    | (with_reducible apply State.setShip_keep)
    | (with_reducible apply State.startCapture_keep)
    | (with_reducible apply State.wr_keep)
    | with_reducible apply ite_keep
    | intro _
    | simp only [Keep.upd_iff]
    | with_reducible apply Keep.use
    | split

theorem State.foldAcked_keep {s t : State} {sq : Nat} (h : Keep s t) : Keep s (State.foldAcked t sq) := by
  unfold State.foldAcked
  repeat' first
    | with_reducible assumption
    | (with_reducible apply State.endShip_keep)
    | (with_reducible apply State.count_keep)
    | (with_reducible apply State.wr_keep)
    | (with_reducible apply State.setFold_keep)
    | with_reducible apply ite_keep
    | intro _
    | simp only [Keep.upd_iff]
    | with_reducible apply Keep.use
    | split

theorem State.foldChecked_keep {s t : State} (h : Keep s t) : Keep s (State.foldChecked t) := by
  unfold State.foldChecked
  repeat' first
    | with_reducible assumption
    | (with_reducible apply State.giveUp_keep)
    | (with_reducible apply State.wr_keep)
    | (with_reducible apply State.setRingAuth_keep)
    | (with_reducible apply State.setFold_keep)
    | (with_reducible apply State.wrB_keep)
    | (with_reducible apply State.setTerm_keep)
    | (with_reducible apply State.seeTerm_keep)
    | (with_reducible apply State.sendTakes_keep)
    | (with_reducible apply State.takeAlias_keep)
    | with_reducible apply forL_keep
    | with_reducible apply ite_keep
    | intro _
    | simp only [Keep.upd_iff]
    | with_reducible apply Keep.use
    | split

theorem State.tileTake_keep {s t : State} {c : Cell} (h : Keep s t) : Keep s (State.tileTake t c) := by
  unfold State.tileTake
  repeat' first
    | with_reducible assumption
    | (with_reducible apply State.takeAlias_keep)
    | (with_reducible apply State.follow_keep)
    | with_reducible apply ite_keep
    | intro _
    | simp only [Keep.upd_iff]
    | with_reducible apply Keep.use
    | split

theorem State.foldCommit_keep {s t : State} (h : Keep s t) : Keep s (State.foldCommit t) := by
  unfold State.foldCommit
  repeat' first
    | with_reducible assumption
    | (with_reducible apply State.startCapture_keep)
    | (with_reducible apply State.count_keep)
    | (with_reducible apply State.wr_keep)
    | with_reducible apply ite_keep
    | intro _
    | simp only [Keep.upd_iff]
    | with_reducible apply Keep.use
    | split

theorem State.captureDone_keep {s t : State} (h : Keep s t) : Keep s (State.captureDone t) := by
  unfold State.captureDone
  repeat' first
    | with_reducible assumption
    | (with_reducible apply State.endShip_keep)
    | (with_reducible apply State.count_keep)
    | (with_reducible apply State.setFold_keep)
    | (with_reducible apply State.wrBytes_keep)
    | (with_reducible apply State.wr_keep)
    | (with_reducible apply State.shipFold_keep)
    | with_reducible apply ite_keep
    | intro _
    | simp only [Keep.upd_iff]
    | with_reducible apply Keep.use
    | split

theorem State.listenEnd_keep {s t : State} {r : Nat} (h : Keep s t) : Keep s (State.listenEnd t r) := by
  unfold State.listenEnd
  repeat' first
    | with_reducible assumption
    | (with_reducible apply State.setRingAuth_keep)
    | (with_reducible apply State.wr_keep)
    | (with_reducible apply State.giveUp_keep)
    | (with_reducible apply State.setTerm_keep)
    | (with_reducible apply State.seeTerm_keep)
    | with_reducible apply ite_keep
    | intro _
    | simp only [Keep.upd_iff]
    | with_reducible apply Keep.use
    | split

theorem State.foldVerified_keep {s t : State} (h : Keep s t) : Keep s (State.foldVerified t) := by
  unfold State.foldVerified
  repeat' first
    | with_reducible assumption
    | (with_reducible apply State.wr_keep)
    | with_reducible apply ite_keep
    | intro _
    | simp only [Keep.upd_iff]
    | with_reducible apply Keep.use
    | split

theorem State.startTake_keep {s t : State} (h : Keep s t) : Keep s (State.startTake t) := by
  unfold State.startTake
  repeat' first
    | with_reducible assumption
    | (with_reducible apply State.wr_keep)
    | (with_reducible apply State.setRingAuth_keep)
    | (with_reducible apply State.setFold_keep)
    | with_reducible apply forL_keep
    | with_reducible apply ite_keep
    | intro _
    | simp only [Keep.upd_iff]
    | with_reducible apply Keep.use
    | split

theorem State.foldFailed_keep {s t : State} (h : Keep s t) : Keep s (State.foldFailed t) := by
  unfold State.foldFailed
  repeat' first
    | with_reducible assumption
    | (with_reducible apply State.shipFold_keep)
    | (with_reducible apply State.setFold_keep)
    | (with_reducible apply State.endShip_keep)
    | (with_reducible apply State.raiseEvent_keep)
    | (with_reducible apply State.count_keep)
    | with_reducible apply ite_keep
    | intro _
    | simp only [Keep.upd_iff]
    | with_reducible apply Keep.use
    | split

theorem State.foldSent_keep {s t : State} (h : Keep s t) : Keep s (State.foldSent t) := by
  unfold State.foldSent
  repeat' first
    | with_reducible assumption
    | (with_reducible apply State.setShip_keep)
    | with_reducible apply ite_keep
    | intro _
    | simp only [Keep.upd_iff]
    | with_reducible apply Keep.use
    | split

theorem State.headTake_keep {s t : State} {id : Nat} {c : Cell} (h : Keep s t) : Keep s (State.headTake t id c) := by
  unfold State.headTake
  repeat' first
    | with_reducible assumption
    | (with_reducible apply State.takeAlias_keep)
    | (with_reducible apply State.seeTerm_keep)
    | (with_reducible apply State.headPair_keep)
    | with_reducible apply ite_keep
    | intro _
    | simp only [Keep.upd_iff]
    | with_reducible apply Keep.use
    | split

theorem State.rollDown_keep {s t : State} {j : Nat} (h : Keep s t) : Keep s (State.rollDown t j) := by
  unfold State.rollDown
  repeat' first
    | with_reducible assumption
    | (with_reducible apply State.setDch_keep)
    | with_reducible apply ite_keep
    | intro _
    | simp only [Keep.upd_iff]
    | with_reducible apply Keep.use
    | split

theorem State.takeTrial_keep {s t : State} {j : Nat} (h : Keep s t) : Keep s (State.takeTrial t j) := by
  unfold State.takeTrial
  repeat' first
    | with_reducible assumption
    | (with_reducible apply State.wr_keep)
    | (with_reducible apply State.setDch_keep)
    | with_reducible apply forN_keep
    | with_reducible apply foldl_keep
    | with_reducible apply ite_keep
    | intro _
    | simp only [Keep.upd_iff]
    | with_reducible apply Keep.use
    | split

theorem State.refreshOne_keep {s t : State} {j : Nat} {commit : Bool} (h : Keep s t) : Keep s (State.refreshOne t j commit) := by
  unfold State.refreshOne
  repeat' first
    | with_reducible assumption
    | (with_reducible apply State.rollDown_keep)
    | (with_reducible apply State.emit_keep)
    | (with_reducible apply State.wr_keep)
    | (with_reducible apply State.setDch_keep)
    | (with_reducible apply State.count_keep)
    | (with_reducible apply State.takeTrial_keep)
    | with_reducible apply ite_keep
    | intro _
    | simp only [Keep.upd_iff]
    | with_reducible apply Keep.use
    | split

theorem State.refreshAll_keep {s t : State} {j : Nat} {commit : Bool} (h : Keep s t) : Keep s (State.refreshAll t j commit) := by
  unfold State.refreshAll
  repeat' first
    | with_reducible assumption
    | (with_reducible apply State.refreshOne_keep)
    | with_reducible apply forN_keep
    | with_reducible apply ite_keep
    | intro _
    | simp only [Keep.upd_iff]
    | with_reducible apply Keep.use
    | split

theorem State.repayload_keep {s t : State} {stream : Nat} {old : List Byte} {new : List Byte} (h : Keep s t) : Keep s (State.repayload t stream old new) := by
  unfold State.repayload
  repeat' first
    | with_reducible assumption
    | with_reducible apply ite_keep
    | intro _
    | simp only [Keep.upd_iff]
    | with_reducible apply Keep.use
    | split

theorem State.wakeChannel_keep {s t : State} {j : Nat} (h : Keep s t) : Keep s (State.wakeChannel t j) := by
  unfold State.wakeChannel
  repeat' first
    | with_reducible assumption
    | (with_reducible apply State.count_keep)
    | (with_reducible apply State.selfExit_keep)
    | with_reducible apply ite_keep
    | intro _
    | simp only [Keep.upd_iff]
    | with_reducible apply Keep.use
    | split

theorem State.selfEnter_keep {s t : State} {j : Nat} (h : Keep s t) : Keep s (State.selfEnter t j) := by
  unfold State.selfEnter
  repeat' first
    | with_reducible assumption
    | (with_reducible apply State.wr_keep)
    | (with_reducible apply State.refreshAll_keep)
    | (with_reducible apply State.setDch_keep)
    | (with_reducible apply State.emit_keep)
    | with_reducible apply ite_keep
    | intro _
    | simp only [Keep.upd_iff]
    | with_reducible apply Keep.use
    | split

theorem State.drcDrained_keep {s t : State} {w : Nat} (h : Keep s t) : Keep s (State.drcDrained t w) := by
  unfold State.drcDrained
  repeat' first
    | with_reducible assumption
    | (with_reducible apply State.selfEnter_keep)
    | with_reducible apply ite_keep
    | intro _
    | simp only [Keep.upd_iff]
    | with_reducible apply Keep.use
    | split

theorem State.rowLost_keep {s t : State} {r : DramReq} (h : Keep s t) : Keep s (State.rowLost t r) := by
  unfold State.rowLost
  repeat' first
    | with_reducible assumption
    | (with_reducible apply State.setScan_keep)
    | with_reducible apply forN_keep
    | with_reducible apply ite_keep
    | intro _
    | simp only [Keep.upd_iff]
    | with_reducible apply Keep.use
    | split

theorem State.loadLost_keep {s t : State} {a : Nat} (h : Keep s t) : Keep s (State.loadLost t a) := by
  unfold State.loadLost
  repeat' first
    | with_reducible assumption
    | (with_reducible apply State.setDarn_keep)
    | with_reducible apply forN_keep
    | with_reducible apply ite_keep
    | intro _
    | simp only [Keep.upd_iff]
    | with_reducible apply Keep.use
    | split

theorem State.captureLost_keep {s t : State} {a : Nat} (h : Keep s t) : Keep s (State.captureLost t a) := by
  unfold State.captureLost
  repeat' first
    | with_reducible assumption
    | (with_reducible apply State.setLayer_keep)
    | with_reducible apply forN_keep
    | with_reducible apply ite_keep
    | intro _
    | simp only [Keep.upd_iff]
    | with_reducible apply Keep.use
    | split

theorem State.conditionLost_keep {s t : State} {a : Nat} (h : Keep s t) : Keep s (State.conditionLost t a) := by
  unfold State.conditionLost
  repeat' first
    | with_reducible assumption
    | (with_reducible apply State.useFrees_keep)
    | (with_reducible apply State.setSrc_keep)
    | (with_reducible apply State.repayload_keep)
    | with_reducible apply forN_keep
    | with_reducible apply forL_keep
    | with_reducible apply ite_keep
    | intro _
    | simp only [Keep.upd_iff]
    | with_reducible apply Keep.use
    | split

theorem State.dramError_keep {s t : State} {j : Nat} {r : DramReq} (h : Keep s t) : Keep s (State.dramError t j r) := by
  unfold State.dramError
  repeat' first
    | with_reducible assumption
    | (with_reducible apply State.emit_keep)
    | (with_reducible apply State.count_keep)
    | (with_reducible apply State.rowLost_keep)
    | (with_reducible apply State.abandon_keep)
    | (with_reducible apply State.loadLost_keep)
    | (with_reducible apply State.captureLost_keep)
    | (with_reducible apply State.conditionLost_keep)
    | (with_reducible apply State.setDch_keep)
    | with_reducible apply ite_keep
    | intro _
    | simp only [Keep.upd_iff]
    | with_reducible apply Keep.use
    | split

theorem State.quarantine_keep {s t : State} {j : Nat} {cause : Nat} (h : Keep s t) : Keep s (State.quarantine t j cause) := by
  unfold State.quarantine
  repeat' first
    | with_reducible assumption
    | (with_reducible apply State.wrBytes_keep)
    | (with_reducible apply State.wr_keep)
    | (with_reducible apply State.setDch_keep)
    | (with_reducible apply State.giveUp_keep)
    | (with_reducible apply State.dramError_keep)
    | with_reducible apply forL_keep
    | with_reducible apply ite_keep
    | intro _
    | simp only [Keep.upd_iff]
    | with_reducible apply Keep.use
    | split

theorem State.quarantineAll_keep {s t : State} (h : Keep s t) : Keep s (State.quarantineAll t) := by
  unfold State.quarantineAll
  repeat' first
    | with_reducible assumption
    | (with_reducible apply State.quarantine_keep)
    | with_reducible apply forN_keep
    | with_reducible apply ite_keep
    | intro _
    | simp only [Keep.upd_iff]
    | with_reducible apply Keep.use
    | split

theorem State.showThrottled_keep {s t : State} {w : Nat} (h : Keep s t) : Keep s (State.showThrottled t w) := by
  unfold State.showThrottled
  repeat' first
    | with_reducible assumption
    | (with_reducible apply State.wr_keep)
    | with_reducible apply foldl_keep
    | with_reducible apply ite_keep
    | intro _
    | simp only [Keep.upd_iff]
    | with_reducible apply Keep.use
    | split

theorem State.selfIdle_keep {s t : State} {j : Nat} (h : Keep s t) : Keep s (State.selfIdle t j) := by
  unfold State.selfIdle
  repeat' first
    | with_reducible assumption
    | (with_reducible apply State.selfEnter_keep)
    | with_reducible apply ite_keep
    | intro _
    | simp only [Keep.upd_iff]
    | with_reducible apply Keep.use
    | split

theorem State.activate_keep {s t : State} {j : Nat} {r : DramReq} (h : Keep s t) : Keep s (State.activate t j r) := by
  unfold State.activate
  repeat' first
    | with_reducible assumption
    | (with_reducible apply State.useFree_keep)
    | (with_reducible apply State.setDch_keep)
    | (with_reducible apply State.showThrottled_keep)
    | (with_reducible apply State.count_keep)
    | (with_reducible apply State.rollDown_keep)
    | (with_reducible apply State.emit_keep)
    | with_reducible apply ite_keep
    | intro _
    | simp only [Keep.upd_iff]
    | with_reducible apply Keep.use
    | split

theorem State.dramServe_keep {s t : State} {j : Nat} {q : DQueued} (h : Keep s t) : Keep s (State.dramServe t j q) := by
  unfold State.dramServe
  repeat' first
    | with_reducible assumption
    | (with_reducible apply State.setDch_keep)
    | (with_reducible apply State.activate_keep)
    | (with_reducible apply State.emit_keep)
    | with_reducible apply ite_keep
    | intro _
    | simp only [Keep.upd_iff]
    | with_reducible apply Keep.use
    | split

theorem State.dramSchedule_keep {s t : State} {j n : Nat} (h : Keep s t) : Keep s (t.dramSchedule j n) := by
  induction n generalizing t with
  | zero => exact h
  | succ n ih =>
    unfold State.dramSchedule
    refine ite_keep (fun _ => h) (fun _ => ?_)
    split
    · exact h
    · exact ih (State.dramServe_keep h)

theorem State.dramRun_keep {s t : State} {j : Nat} (h : Keep s t) : Keep s (State.dramRun t j) := by
  unfold State.dramRun
  repeat' first
    | with_reducible assumption
    | (with_reducible apply State.dramSchedule_keep)
    | with_reducible apply ite_keep
    | intro _
    | simp only [Keep.upd_iff]
    | with_reducible apply Keep.use
    | split

theorem State.refreshIssue_keep {s t : State} {j : Nat} (h : Keep s t) : Keep s (State.refreshIssue t j) := by
  unfold State.refreshIssue
  repeat' first
    | with_reducible assumption
    | (with_reducible apply State.dramRun_keep)
    | (with_reducible apply State.refreshOne_keep)
    | with_reducible apply ite_keep
    | intro _
    | simp only [Keep.upd_iff]
    | with_reducible apply Keep.use
    | split

theorem State.dramSlots_keep {s t : State} (h : Keep s t) : Keep s (State.dramSlots t) := by
  unfold State.dramSlots
  repeat' first
    | with_reducible assumption
    | (with_reducible apply State.dramRun_keep)
    | with_reducible apply forN_keep
    | with_reducible apply ite_keep
    | intro _
    | simp only [Keep.upd_iff]
    | with_reducible apply Keep.use
    | split

theorem State.dramDeliver_keep {s t : State} {j : Nat} {r : DramReq} (h : Keep s t) : Keep s (State.dramDeliver t j r) := by
  unfold State.dramDeliver
  repeat' first
    | with_reducible assumption
    | (with_reducible apply State.emit_keep)
    | (with_reducible apply State.dramRun_keep)
    | (with_reducible apply State.setDch_keep)
    | with_reducible apply ite_keep
    | intro _
    | simp only [Keep.upd_iff]
    | with_reducible apply Keep.use
    | split

theorem State.helperUse_keep {s t : State} {j : Nat} (h : Keep s t) : Keep s (State.helperUse t j) := by
  unfold State.helperUse
  repeat' first
    | with_reducible assumption
    | (with_reducible apply State.wr_keep)
    | with_reducible apply ite_keep
    | intro _
    | simp only [Keep.upd_iff]
    | with_reducible apply Keep.use
    | split

theorem State.helperPost_keep {s t : State} {j : Nat} {o : HelperOp} (h : Keep s t) : Keep s (State.helperPost t j o) := by
  unfold State.helperPost
  repeat' first
    | with_reducible assumption
    | (with_reducible apply State.dramError_keep)
    | (with_reducible apply State.wakeChannel_keep)
    | (with_reducible apply State.dramRun_keep)
    | (with_reducible apply State.setDch_keep)
    | with_reducible apply forL_keep
    | with_reducible apply ite_keep
    | intro _
    | simp only [Keep.upd_iff]
    | with_reducible apply Keep.use
    | split

theorem State.trainGo_keep {s t u : State} {j : Nat} {op : Nat} (h : Keep s t) (e : State.trainGo t j op = .ok u) : Keep s u := by
  unfold State.trainGo at e
  try dsimp only at e
  repeat' first
    | contradiction
    | (cases e; done)
    | split at e
    | (injection e with e; subst e)
    | with_reducible assumption
    | (with_reducible apply State.wr_keep)
    | (with_reducible apply State.helperUse_keep)
    | (with_reducible apply State.setDch_keep)
    | (with_reducible apply State.quarantine_keep)
    | (with_reducible apply State.helperPost_keep)
    | (with_reducible apply State.emit_keep)
    | with_reducible apply ite_keep
    | intro _
    | simp only [Keep.upd_iff]
    | with_reducible apply Keep.use
    | split

theorem State.trefi_keep {s t : State} {j : Nat} (h : Keep s t) : Keep s (State.trefi t j) := by
  unfold State.trefi
  repeat' first
    | with_reducible assumption
    | (with_reducible apply State.wr_keep)
    | (with_reducible apply State.setDch_keep)
    | with_reducible apply ite_keep
    | intro _
    | simp only [Keep.upd_iff]
    | with_reducible apply Keep.use
    | split

theorem State.dramUe_keep {s t : State} {j : Nat} {r : DramReq} (h : Keep s t) : Keep s (State.dramUe t j r) := by
  unfold State.dramUe
  repeat' first
    | with_reducible assumption
    | (with_reducible apply State.dramError_keep)
    | (with_reducible apply State.setDch_keep)
    | (with_reducible apply State.count_keep)
    | (with_reducible apply State.quarantine_keep)
    | (with_reducible apply State.dramRun_keep)
    | with_reducible apply ite_keep
    | intro _
    | simp only [Keep.upd_iff]
    | with_reducible apply Keep.use
    | split

theorem State.drcEnable_keep {s t : State} {w : Nat} (h : Keep s t) : Keep s (State.drcEnable t w) := by
  unfold State.drcEnable
  repeat' first
    | with_reducible assumption
    | (with_reducible apply State.wr_keep)
    | with_reducible apply forN_keep
    | with_reducible apply ite_keep
    | intro _
    | simp only [Keep.upd_iff]
    | with_reducible apply Keep.use
    | split

theorem State.mr4_keep {s t : State} {j : Nat} {value : Nat} {wants2x : Bool} {beyond : Bool} (h : Keep s t) : Keep s (State.mr4 t j value wants2x beyond) := by
  unfold State.mr4
  repeat' first
    | with_reducible assumption
    | (with_reducible apply State.wrB_keep)
    | (with_reducible apply State.wr_keep)
    | (with_reducible apply State.count_keep)
    | (with_reducible apply State.setDch_keep)
    | (with_reducible apply State.refreshAll_keep)
    | with_reducible apply ite_keep
    | intro _
    | simp only [Keep.upd_iff]
    | with_reducible apply Keep.use
    | split

theorem State.helperDrop_keep {s t : State} {j : Nat} (h : Keep s t) : Keep s (State.helperDrop t j) := by
  unfold State.helperDrop
  repeat' first
    | with_reducible assumption
    | (with_reducible apply State.setDch_keep)
    | with_reducible apply ite_keep
    | intro _
    | simp only [Keep.upd_iff]
    | with_reducible apply Keep.use
    | split

theorem State.scratchPattern_keep {s t : State} {j : Nat} {o : HelperOp} {clean : Bool} (h : Keep s t) :
    Keep s (t.scratchPattern j o clean) := by
  unfold State.scratchPattern
  extract_lets n at_
  refine ite_keep (fun _ => foldl_keep _ _ (fun _ _ ka => State.wr8_keep ka) h) (fun _ => ?_)
  have k : Keep s (forN n (fun i a => a.wr8 .dram (at_ i) (BitVec.ofNat 8 (Config.free (t.freeCtr + i)))) t) :=
    forN_keep h (fun _ _ ka => State.wr8_keep ka)
  exact ⟨k.build, k.pending, k.wf, k.out, Nat.le_add_right_of_le h.free, k.now⟩

theorem State.pointDone_keep {s t : State} {j : Nat} {fail : Nat} {data : Nat} (h : Keep s t) : Keep s (State.pointDone t j fail data) := by
  unfold State.pointDone
  repeat' first
    | with_reducible assumption
    | (with_reducible apply State.wr_keep)
    | (with_reducible apply State.helperDrop_keep)
    | (with_reducible apply State.setDch_keep)
    | (with_reducible apply State.scratchPattern_keep)
    | with_reducible apply ite_keep
    | intro _
    | simp only [Keep.upd_iff]
    | with_reducible apply Keep.use
    | split

theorem State.refWindow_keep {s t : State} {j : Nat} (h : Keep s t) : Keep s (State.refWindow t j) := by
  unfold State.refWindow
  repeat' first
    | with_reducible assumption
    | (with_reducible apply State.dramRun_keep)
    | (with_reducible apply State.showThrottled_keep)
    | (with_reducible apply State.setDch_keep)
    | with_reducible apply ite_keep
    | intro _
    | simp only [Keep.upd_iff]
    | with_reducible apply Keep.use
    | split

theorem State.readDone_keep {s t : State} {j : Nat} {res : EccResult} (h : Keep s t) : Keep s (State.readDone t j res) := by
  unfold State.readDone
  repeat' first
    | with_reducible assumption
    | (with_reducible apply State.dramDeliver_keep)
    | (with_reducible apply State.count_keep)
    | (with_reducible apply State.dramUe_keep)
    | (with_reducible apply State.emit_keep)
    | (with_reducible apply State.setDch_keep)
    | with_reducible apply ite_keep
    | intro _
    | simp only [Keep.upd_iff]
    | with_reducible apply Keep.use
    | split

theorem State.dramRequest_keep {s t : State} {r : DramReq} (h : Keep s t) : Keep s (State.dramRequest t r) := by
  unfold State.dramRequest
  repeat' first
    | with_reducible assumption
    | (with_reducible apply State.dramError_keep)
    | (with_reducible apply State.wakeChannel_keep)
    | (with_reducible apply State.setDch_keep)
    | (with_reducible apply State.dramRun_keep)
    | (with_reducible apply State.wrBytes_keep)
    | with_reducible apply ite_keep
    | intro _
    | simp only [Keep.upd_iff]
    | with_reducible apply Keep.use
    | split

theorem State.calMove_keep {s t : State} {key : Nat} {v : Int} (h : Keep s t) : Keep s (State.calMove t key v) := by
  unfold State.calMove
  repeat' first
    | with_reducible assumption
    | (with_reducible apply State.wrI_keep)
    | with_reducible apply ite_keep
    | intro _
    | simp only [Keep.upd_iff]
    | with_reducible apply Keep.use
    | split

theorem State.sensorRead_keep {s t : State} {n : Nat} {t_ : Int} (h : Keep s t) : Keep s (State.sensorRead t n t_) := by
  unfold State.sensorRead
  repeat' first
    | with_reducible assumption
    | (with_reducible apply State.setSensor_keep)
    | (with_reducible apply State.wr_keep)
    | (with_reducible apply State.wrI_keep)
    | with_reducible apply ite_keep
    | intro _
    | simp only [Keep.upd_iff]
    | with_reducible apply Keep.use
    | split

theorem State.calDrop_keep {s t : State} {ended : Bool} (h : Keep s t) : Keep s (State.calDrop t ended) := by
  unfold State.calDrop
  repeat' first
    | with_reducible assumption
    | (with_reducible apply State.setCal_keep)
    | with_reducible apply ite_keep
    | intro _
    | simp only [Keep.upd_iff]
    | with_reducible apply Keep.use
    | split

theorem State.calAbandon_keep {s t : State} (h : Keep s t) : Keep s (State.calAbandon t) := by
  unfold State.calAbandon
  repeat' first
    | with_reducible assumption
    | (with_reducible apply State.count_keep)
    | (with_reducible apply State.wr_keep)
    | (with_reducible apply State.calDrop_keep)
    | with_reducible apply ite_keep
    | intro _
    | simp only [Keep.upd_iff]
    | with_reducible apply Keep.use
    | split

theorem State.calCheck_keep {s t : State} (h : Keep s t) : Keep s (State.calCheck t) := by
  unfold State.calCheck
  repeat' first
    | with_reducible assumption
    | (with_reducible apply State.calAbandon_keep)
    | with_reducible apply ite_keep
    | intro _
    | simp only [Keep.upd_iff]
    | with_reducible apply Keep.use
    | split

theorem State.calRunGo_keep {s t u : State} (h : Keep s t) (e : State.calRunGo t = .ok u) : Keep s u := by
  unfold State.calRunGo at e
  try dsimp only at e
  repeat' first
    | contradiction
    | (cases e; done)
    | split at e
    | (injection e with e; subst e)
    | with_reducible assumption
    | (with_reducible apply State.wr_keep)
    | with_reducible apply ite_keep
    | intro _
    | simp only [Keep.upd_iff]
    | with_reducible apply Keep.use
    | split

theorem State.showMax_keep {s t : State} (h : Keep s t) : Keep s (State.showMax t) := by
  unfold State.showMax
  repeat' first
    | with_reducible assumption
    | (with_reducible apply State.wrI_keep)
    | with_reducible apply ite_keep
    | intro _
    | simp only [Keep.upd_iff]
    | with_reducible apply Keep.use
    | split

theorem State.hotJudge_keep {s t : State} (h : Keep s t) : Keep s (State.hotJudge t) := by
  unfold State.hotJudge
  repeat' first
    | with_reducible assumption
    | (with_reducible apply State.count_keep)
    | (with_reducible apply State.wr_keep)
    | with_reducible apply ite_keep
    | intro _
    | simp only [Keep.upd_iff]
    | with_reducible apply Keep.use
    | split

theorem State.showDis_keep {s t : State} (h : Keep s t) : Keep s (State.showDis t) := by
  unfold State.showDis
  repeat' first
    | with_reducible assumption
    | (with_reducible apply State.wr_keep)
    | with_reducible apply foldl_keep
    | with_reducible apply ite_keep
    | intro _
    | simp only [Keep.upd_iff]
    | with_reducible apply Keep.use
    | split

theorem State.sensorFail_keep {s t : State} {n : Nat} (h : Keep s t) : Keep s (State.sensorFail t n) := by
  unfold State.sensorFail
  repeat' first
    | with_reducible assumption
    | (with_reducible apply State.setSensor_keep)
    | (with_reducible apply State.count_keep)
    | (with_reducible apply State.wr_keep)
    | with_reducible apply ite_keep
    | intro _
    | simp only [Keep.upd_iff]
    | with_reducible apply Keep.use
    | split

theorem State.sensorStep_keep {s t : State} {n : Nat} {res : Option Int} (h : Keep s t) : Keep s (State.sensorStep t n res) := by
  unfold State.sensorStep
  repeat' first
    | with_reducible assumption
    | (with_reducible apply State.setSensor_keep)
    | (with_reducible apply State.sensorFail_keep)
    | (with_reducible apply State.sensorRead_keep)
    | with_reducible apply ite_keep
    | intro _
    | simp only [Keep.upd_iff]
    | with_reducible apply Keep.use
    | split

theorem State.convert1_keep {s t : State} {n : Nat} {res : Option Int} (h : Keep s t) : Keep s (State.convert1 t n res) := by
  unfold State.convert1
  repeat' first
    | with_reducible assumption
    | (with_reducible apply State.hotJudge_keep)
    | (with_reducible apply State.showDis_keep)
    | (with_reducible apply State.showMax_keep)
    | (with_reducible apply State.sensorStep_keep)
    | (with_reducible apply State.overtemp_keep)
    | with_reducible apply ite_keep
    | intro _
    | simp only [Keep.upd_iff]
    | with_reducible apply Keep.use
    | split

theorem State.calBegin_keep {s t : State} (h : Keep s t) : Keep s (State.calBegin t) := by
  unfold State.calBegin
  repeat' first
    | with_reducible assumption
    | (with_reducible apply State.wr_keep)
    | (with_reducible apply State.setCal_keep)
    | with_reducible apply ite_keep
    | intro _
    | simp only [Keep.upd_iff]
    | with_reducible apply Keep.use
    | split

theorem State.calSlice_keep {s t : State} {m : Int} (h : Keep s t) : Keep s (State.calSlice t m) := by
  unfold State.calSlice
  repeat' first
    | with_reducible assumption
    | (with_reducible apply State.calCheck_keep)
    | (with_reducible apply State.calBegin_keep)
    | (with_reducible apply State.inc_keep)
    | (with_reducible apply State.setCal_keep)
    | (with_reducible apply State.wr_keep)
    | with_reducible apply ite_keep
    | intro _
    | simp only [Keep.upd_iff]
    | with_reducible apply Keep.use
    | split

theorem State.calJudge_keep {s t : State} (h : Keep s t) : Keep s (State.calJudge t) := by
  unfold State.calJudge
  repeat' first
    | with_reducible assumption
    | (with_reducible apply State.wr_keep)
    | (with_reducible apply State.count_keep)
    | (with_reducible apply State.calDrop_keep)
    | with_reducible apply ite_keep
    | intro _
    | simp only [Keep.upd_iff]
    | with_reducible apply Keep.use
    | split

theorem State.calApply_keep {s t : State} (h : Keep s t) : Keep s (State.calApply t) := by
  unfold State.calApply
  repeat' first
    | with_reducible assumption
    | (with_reducible apply State.calJudge_keep)
    | (with_reducible apply State.calCheck_keep)
    | (with_reducible apply State.calMove_keep)
    | (with_reducible apply State.setCal_keep)
    | (with_reducible apply State.wr_keep)
    | (with_reducible apply State.count_keep)
    | (with_reducible apply State.calDrop_keep)
    | with_reducible apply forL_keep
    | with_reducible apply ite_keep
    | intro _
    | simp only [Keep.upd_iff]
    | with_reducible apply Keep.use
    | split

theorem State.setEp_keep {s t : State} {v : Nat} (h : Keep s t) : Keep s (State.setEp t v) := by
  unfold State.setEp
  repeat' first
    | with_reducible assumption
    | (with_reducible apply State.wr_keep)
    | with_reducible apply ite_keep
    | intro _
    | simp only [Keep.upd_iff]
    | with_reducible apply Keep.use
    | split

theorem State.setEpc_keep {s t : State} {e_ : Epc} (h : Keep s t) : Keep s (State.setEpc t e_) := by
  unfold State.setEpc
  repeat' first
    | with_reducible assumption
    | with_reducible apply ite_keep
    | intro _
    | simp only [Keep.upd_iff]
    | with_reducible apply Keep.use
    | split

theorem State.epcStart_keep {s t : State} (h : Keep s t) : Keep s (State.epcStart t) := by
  unfold State.epcStart
  repeat' first
    | with_reducible assumption
    | (with_reducible apply State.setEp_keep)
    | (with_reducible apply State.setEpc_keep)
    | with_reducible apply ite_keep
    | intro _
    | simp only [Keep.upd_iff]
    | with_reducible apply Keep.use
    | split

theorem State.showBeacon_keep {s t : State} {c : Cell} (h : Keep s t) : Keep s (State.showBeacon t c) := by
  unfold State.showBeacon
  repeat' first
    | with_reducible assumption
    | (with_reducible apply State.wr_keep)
    | with_reducible apply ite_keep
    | intro _
    | simp only [Keep.upd_iff]
    | with_reducible apply Keep.use
    | split

theorem State.putBeacon_keep {s t : State} {id : Nat} {pl : List Byte} {term : Nat} {corr : Int} (h : Keep s t) : Keep s (State.putBeacon t id pl term corr) := by
  unfold State.putBeacon
  repeat' first
    | with_reducible assumption
    | (with_reducible apply State.sendCell_keep)
    | (with_reducible apply State.useFree_keep)
    | with_reducible apply ite_keep
    | intro _
    | simp only [Keep.upd_iff]
    | with_reducible apply Keep.use
    | split

theorem State.noteDepart_keep {s t : State} {r : Nat} {corr : Int} (h : Keep s t) : Keep s (State.noteDepart t r corr) := by
  unfold State.noteDepart
  repeat' first
    | with_reducible assumption
    | with_reducible apply ite_keep
    | intro _
    | simp only [Keep.upd_iff]
    | with_reducible apply Keep.use
    | split

theorem State.spreadBeacon_keep {s t : State} {pl : List Byte} {corr : Int} {skip : Nat} (h : Keep s t) : Keep s (State.spreadBeacon t pl corr skip) := by
  unfold State.spreadBeacon
  repeat' first
    | with_reducible assumption
    | (with_reducible apply State.putBeacon_keep)
    | (with_reducible apply State.noteDepart_keep)
    | with_reducible apply forN_keep
    | with_reducible apply ite_keep
    | intro _
    | simp only [Keep.upd_iff]
    | with_reducible apply Keep.use
    | split

theorem State.beaconSend_keep {s t : State} (h : Keep s t) : Keep s (State.beaconSend t) := by
  unfold State.beaconSend
  repeat' first
    | with_reducible assumption
    | (with_reducible apply State.spreadBeacon_keep)
    | (with_reducible apply State.setEpc_keep)
    | (with_reducible apply State.putBeacon_keep)
    | (with_reducible apply State.noteDepart_keep)
    | with_reducible apply forN_keep
    | with_reducible apply ite_keep
    | intro _
    | simp only [Keep.upd_iff]
    | with_reducible apply Keep.use
    | split

theorem State.ptpLost_keep {s t : State} (h : Keep s t) : Keep s (State.ptpLost t) := by
  unfold State.ptpLost
  repeat' first
    | with_reducible assumption
    | (with_reducible apply State.wr_keep)
    | (with_reducible apply State.count_keep)
    | with_reducible apply ite_keep
    | intro _
    | simp only [Keep.upd_iff]
    | with_reducible apply Keep.use
    | split

theorem State.heardEpoch_keep {s t : State} (h : Keep s t) : Keep s (State.heardEpoch t) := by
  unfold State.heardEpoch
  repeat' first
    | with_reducible assumption
    | (with_reducible apply State.setRingAuth_keep)
    | with_reducible apply forN_keep
    | with_reducible apply ite_keep
    | intro _
    | simp only [Keep.upd_iff]
    | with_reducible apply Keep.use
    | split

theorem State.beaconMiss_keep {s t : State} (h : Keep s t) : Keep s (State.beaconMiss t) := by
  unfold State.beaconMiss
  repeat' first
    | with_reducible assumption
    | (with_reducible apply State.setEpc_keep)
    | (with_reducible apply State.count_keep)
    | (with_reducible apply State.setEp_keep)
    | with_reducible apply ite_keep
    | intro _
    | simp only [Keep.upd_iff]
    | with_reducible apply Keep.use
    | split

theorem State.judgeBeacon_keep {s t : State} {b : BeaconRec} (h : Keep s t) : Keep s (State.judgeBeacon t b) := by
  unfold State.judgeBeacon
  repeat' first
    | with_reducible assumption
    | (with_reducible apply State.wr_keep)
    | (with_reducible apply State.count_keep)
    | (with_reducible apply State.wrI_keep)
    | (with_reducible apply State.setEpc_keep)
    | (with_reducible apply State.useFree_keep)
    | with_reducible apply ite_keep
    | intro _
    | simp only [Keep.upd_iff]
    | with_reducible apply Keep.use
    | split

theorem State.phaseStep_keep {s t : State} (h : Keep s t) : Keep s (State.phaseStep t) := by
  unfold State.phaseStep
  repeat' first
    | with_reducible assumption
    | (with_reducible apply State.setEpc_keep)
    | (with_reducible apply State.count_keep)
    | (with_reducible apply State.setEp_keep)
    | with_reducible apply ite_keep
    | intro _
    | simp only [Keep.upd_iff]
    | with_reducible apply Keep.use
    | split

theorem State.epcStop_keep {s t : State} (h : Keep s t) : Keep s (State.epcStop t) := by
  unfold State.epcStop
  repeat' first
    | with_reducible assumption
    | (with_reducible apply State.setEp_keep)
    | (with_reducible apply State.setEpc_keep)
    | with_reducible apply ite_keep
    | intro _
    | simp only [Keep.upd_iff]
    | with_reducible apply Keep.use
    | split

theorem State.notePath_keep {s t : State} {id : Nat} {c : Cell} (h : Keep s t) : Keep s (State.notePath t id c) := by
  unfold State.notePath
  repeat' first
    | with_reducible assumption
    | with_reducible apply ite_keep
    | intro _
    | simp only [Keep.upd_iff]
    | with_reducible apply Keep.use
    | split

theorem State.contest_keep {s t : State} {c : Cell} (h : Keep s t) : Keep s (State.contest t c).2 := by
  unfold State.contest
  repeat' first
    | with_reducible assumption
    | (with_reducible apply State.setEp_keep)
    | (with_reducible apply State.count_keep)
    | (with_reducible apply State.setEpc_keep)
    | with_reducible apply ite_keep
    | intro _
    | simp only [Keep.upd_iff]
    | with_reducible apply Keep.use
    | split

theorem State.contest_keep_eq {s t : State} {c : Cell} {p_ : _} (h : Keep s t) (e : State.contest t c = p_) : Keep s p_.2 :=
  e ▸ State.contest_keep h

theorem State.relayBeacon_keep {s t : State} {id : Nat} {c : Cell} (h : Keep s t) : Keep s (State.relayBeacon t id c) := by
  unfold State.relayBeacon
  repeat' first
    | with_reducible assumption
    | (with_reducible apply State.spreadBeacon_keep)
    | (with_reducible apply State.setEpc_keep)
    | with_reducible apply ite_keep
    | intro _
    | simp only [Keep.upd_iff]
    | with_reducible apply Keep.use
    | split

theorem State.firstBeacon_keep {s t : State} {b : BeaconRec} (h : Keep s t) : Keep s (State.firstBeacon t b) := by
  unfold State.firstBeacon
  repeat' first
    | with_reducible assumption
    | (with_reducible apply State.wr_keep)
    | (with_reducible apply State.setEpc_keep)
    | (with_reducible apply State.setEpochNo_keep)
    | (with_reducible apply State.count_keep)
    | with_reducible apply ite_keep
    | intro _
    | simp only [Keep.upd_iff]
    | with_reducible apply Keep.use
    | split

theorem State.useDir_keep {s t : State} {d : Nat} (h : Keep s t) : Keep s (State.useDir t d) := by
  unfold State.useDir
  repeat' first
    | with_reducible assumption
    | (with_reducible apply State.count_keep)
    | (with_reducible apply State.wr_keep)
    | with_reducible apply ite_keep
    | intro _
    | simp only [Keep.upd_iff]
    | with_reducible apply Keep.use
    | split

theorem State.takeBeacon_keep {s t : State} {b : BeaconRec} {hops : Nat} (h : Keep s t) : Keep s (State.takeBeacon t b hops) := by
  unfold State.takeBeacon
  repeat' first
    | with_reducible assumption
    | (with_reducible apply State.setEpc_keep)
    | (with_reducible apply State.firstBeacon_keep)
    | (with_reducible apply State.judgeBeacon_keep)
    | (with_reducible apply State.useDir_keep)
    | with_reducible apply ite_keep
    | intro _
    | simp only [Keep.upd_iff]
    | with_reducible apply Keep.use
    | split

theorem State.headBeacon_keep {s t : State} {id : Nat} {c : Cell} {arrival : Int} (h : Keep s t) : Keep s (State.headBeacon t id c arrival) := by
  unfold State.headBeacon
  repeat' first
    | with_reducible assumption
    | (with_reducible apply State.notePath_keep)
    | (with_reducible apply State.headPair_keep)
    | (with_reducible apply State.setRingAuth_keep)
    | (with_reducible apply State.contest_keep)
    | (with_reducible refine State.contest_keep_eq ?_ (by assumption))
    | (with_reducible apply State.relayBeacon_keep)
    | (with_reducible apply State.takeBeacon_keep)
    | (with_reducible apply State.useFree_keep)
    | (with_reducible apply State.showBeacon_keep)
    | (with_reducible apply State.setEpc_keep)
    | with_reducible apply ite_keep
    | intro _
    | simp only [Keep.upd_iff]
    | with_reducible apply Keep.use
    | split

theorem State.epcLock_keep {s t : State} (h : Keep s t) : Keep s (State.epcLock t) := by
  unfold State.epcLock
  repeat' first
    | with_reducible assumption
    | (with_reducible apply State.setEp_keep)
    | with_reducible apply ite_keep
    | intro _
    | simp only [Keep.upd_iff]
    | with_reducible apply Keep.use
    | split

theorem State.epcResume_keep {s t : State} (h : Keep s t) : Keep s (State.epcResume t) := by
  unfold State.epcResume
  repeat' first
    | with_reducible assumption
    | (with_reducible apply State.setEp_keep)
    | (with_reducible apply State.setEpc_keep)
    | with_reducible apply ite_keep
    | intro _
    | simp only [Keep.upd_iff]
    | with_reducible apply Keep.use
    | split

theorem State.ptpSteer_keep {s t : State} (h : Keep s t) : Keep s (State.ptpSteer t) := by
  unfold State.ptpSteer
  repeat' first
    | with_reducible assumption
    | (with_reducible apply State.wr_keep)
    | (with_reducible apply State.wrI_keep)
    | (with_reducible apply State.useFree_keep)
    | with_reducible apply ite_keep
    | intro _
    | simp only [Keep.upd_iff]
    | with_reducible apply Keep.use
    | split

theorem State.periodChange_keep {s t : State} {n : Nat} (h : Keep s t) : Keep s (State.periodChange t n) := by
  unfold State.periodChange
  repeat' first
    | with_reducible assumption
    | (with_reducible apply State.setEpc_keep)
    | (with_reducible apply State.wr_keep)
    | with_reducible apply ite_keep
    | intro _
    | simp only [Keep.upd_iff]
    | with_reducible apply Keep.use
    | split

theorem State.epcBoundary_keep {s t : State} (h : Keep s t) : Keep s (State.epcBoundary t) := by
  unfold State.epcBoundary
  repeat' first
    | with_reducible assumption
    | (with_reducible apply State.judgeBeacon_keep)
    | (with_reducible apply State.useDir_keep)
    | (with_reducible apply State.beaconMiss_keep)
    | (with_reducible apply State.setEpc_keep)
    | (with_reducible apply State.setEpochNo_keep)
    | (with_reducible apply State.periodChange_keep)
    | with_reducible apply ite_keep
    | intro _
    | simp only [Keep.upd_iff]
    | with_reducible apply Keep.use
    | split

theorem State.tileBeacon_keep {s t : State} {id : Nat} {c : Cell} {arrival : Int} (h : Keep s t) : Keep s (State.tileBeacon t id c arrival) := by
  unfold State.tileBeacon
  repeat' first
    | with_reducible assumption
    | (with_reducible apply State.offerPair_keep)
    | (with_reducible apply State.takeBeacon_keep)
    | (with_reducible apply State.useFree_keep)
    | (with_reducible apply State.showBeacon_keep)
    | with_reducible apply ite_keep
    | intro _
    | simp only [Keep.upd_iff]
    | with_reducible apply Keep.use
    | split

theorem State.announce_keep {s t : State} {v : Nat} (h : Keep s t) : Keep s (State.announce t v) := by
  unfold State.announce
  repeat' first
    | with_reducible assumption
    | (with_reducible apply State.wr_keep)
    | with_reducible apply ite_keep
    | intro _
    | simp only [Keep.upd_iff]
    | with_reducible apply Keep.use
    | split

theorem State.laneTime_keep {s t : State} {k : Nat} {n : Nat} (h : Keep s t) : Keep s (State.laneTime t k n) := by
  unfold State.laneTime
  repeat' first
    | with_reducible assumption
    | (with_reducible apply State.bump_keep)
    | with_reducible apply ite_keep
    | intro _
    | simp only [Keep.upd_iff]
    | with_reducible apply Keep.use
    | split

theorem State.stepMark_keep {s t : State} {n : Nat} (h : Keep s t) : Keep s (State.stepMark t n) := by
  unfold State.stepMark
  repeat' first
    | with_reducible assumption
    | (with_reducible apply State.wr_keep)
    | with_reducible apply ite_keep
    | intro _
    | simp only [Keep.upd_iff]
    | with_reducible apply Keep.use
    | split

theorem State.passStopped_keep {s t : State} {n : Nat} {m : Nat} (h : Keep s t) : Keep s (State.passStopped t n m) := by
  unfold State.passStopped
  repeat' first
    | with_reducible assumption
    | (with_reducible apply State.stepMark_keep)
    | with_reducible apply forL_keep
    | with_reducible apply ite_keep
    | intro _
    | simp only [Keep.upd_iff]
    | with_reducible apply Keep.use
    | split

theorem State.clkRestart_keep {s t : State} (h : Keep s t) : Keep s (State.clkRestart t) := by
  unfold State.clkRestart
  repeat' first
    | with_reducible assumption
    | (with_reducible apply State.wr_keep)
    | with_reducible apply forL_keep
    | with_reducible apply ite_keep
    | intro _
    | simp only [Keep.upd_iff]
    | with_reducible apply Keep.use
    | split

theorem State.deepExit_keep {s t : State} {j : Nat} (h : Keep s t) : Keep s (State.deepExit t j) := by
  unfold State.deepExit
  repeat' first
    | with_reducible assumption
    | (with_reducible apply State.emit_keep)
    | (with_reducible apply State.wr_keep)
    | with_reducible apply ite_keep
    | intro _
    | simp only [Keep.upd_iff]
    | with_reducible apply Keep.use
    | split

theorem State.wakeLanes_keep {s t : State} {id : Nat} (h : Keep s t) : Keep s (State.wakeLanes t id) := by
  unfold State.wakeLanes
  repeat' first
    | with_reducible assumption
    | (with_reducible apply State.rxWakes_keep)
    | (with_reducible apply State.setLaneTx_keep)
    | (with_reducible apply State.startTraining_keep)
    | (with_reducible apply State.portDown_keep)
    | (with_reducible apply State.wr_keep)
    | (with_reducible apply State.setStage_keep)
    | (with_reducible apply State.wireMarkers_keep)
    | (with_reducible apply State.setPort_keep)
    | with_reducible apply forL_keep
    | with_reducible apply ite_keep
    | intro _
    | simp only [Keep.upd_iff]
    | with_reducible apply Keep.use
    | split

theorem State.chopAll_keep {s t : State} (h : Keep s t) : Keep s (State.chopAll t) := by
  unfold State.chopAll
  repeat' first
    | with_reducible assumption
    | (with_reducible apply State.chopSync_keep)
    | with_reducible apply forN_keep
    | with_reducible apply ite_keep
    | intro _
    | simp only [Keep.upd_iff]
    | with_reducible apply Keep.use
    | split

theorem State.unparkAll_keep {s t : State} (h : Keep s t) : Keep s (State.unparkAll t) := by
  unfold State.unparkAll
  repeat' first
    | with_reducible assumption
    | (with_reducible apply State.wr_keep)
    | (with_reducible apply State.epcResume_keep)
    | (with_reducible apply State.deepExit_keep)
    | (with_reducible apply State.selfExit_keep)
    | (with_reducible apply State.wakeLanes_keep)
    | (with_reducible apply State.startCapture_keep)
    | (with_reducible apply State.chopAll_keep)
    | (with_reducible apply State.gapFetch_keep)
    | (with_reducible apply State.keepDark_keep)
    | (with_reducible apply State.dramSlots_keep)
    | (with_reducible apply State.dmaIssue_keep)
    | with_reducible apply forN_keep
    | with_reducible apply forL_keep
    | with_reducible apply ite_keep
    | intro _
    | simp only [Keep.upd_iff]
    | with_reducible apply Keep.use
    | split

theorem State.pwrRefuse_keep {s t : State} {typ : Nat} {reason : Nat} {step : Nat} (h : Keep s t) : Keep s (State.pwrRefuse t typ reason step) := by
  unfold State.pwrRefuse
  repeat' first
    | with_reducible assumption
    | (with_reducible apply State.count_keep)
    | (with_reducible apply State.wr_keep)
    | (with_reducible apply State.setPwr_keep)
    | (with_reducible apply State.clkRestart_keep)
    | (with_reducible apply State.unparkAll_keep)
    | with_reducible apply ite_keep
    | intro _
    | simp only [Keep.upd_iff]
    | with_reducible apply Keep.use
    | split

theorem State.pwrCommit_keep {s t : State} (h : Keep s t) : Keep s (State.pwrCommit t) := by
  unfold State.pwrCommit
  repeat' first
    | with_reducible assumption
    | (with_reducible apply State.pwrRefuse_keep)
    | (with_reducible apply State.wr_keep)
    | (with_reducible apply State.count_keep)
    | (with_reducible apply State.setPwr_keep)
    | (with_reducible apply State.emit_keep)
    | (with_reducible apply State.gpioShow_keep)
    | with_reducible apply ite_keep
    | intro _
    | simp only [Keep.upd_iff]
    | with_reducible apply Keep.use
    | split

theorem State.pwrAdvance_keep {s t : State} {n : Nat} (h : Keep s t) : Keep s (State.pwrAdvance t n) := by
  unfold State.pwrAdvance
  repeat' first
    | with_reducible assumption
    | (with_reducible apply State.wr_keep)
    | (with_reducible apply State.passStopped_keep)
    | (with_reducible apply State.pwrCommit_keep)
    | with_reducible apply ite_keep
    | intro _
    | simp only [Keep.upd_iff]
    | with_reducible apply Keep.use
    | split

theorem State.sleepPorts_keep {s t : State} {spur : Bool} {rx : Bool} (h : Keep s t) : Keep s (State.sleepPorts t spur rx) := by
  unfold State.sleepPorts
  repeat' first
    | with_reducible assumption
    | (with_reducible apply State.setLanePs_keep)
    | (with_reducible apply State.setLaneTx_keep)
    | with_reducible apply forL_keep
    | with_reducible apply ite_keep
    | intro _
    | simp only [Keep.upd_iff]
    | with_reducible apply Keep.use
    | split

theorem State.imageWrite_keep {s t : State} (h : Keep s t) : Keep s (State.imageWrite t) := by
  unfold State.imageWrite
  repeat' first
    | with_reducible assumption
    | (with_reducible apply State.wrBytes_keep)
    | (with_reducible apply State.setPwr_keep)
    | with_reducible apply ite_keep
    | intro _
    | simp only [Keep.upd_iff]
    | with_reducible apply Keep.use
    | split

theorem State.clkPark_keep {s t : State} (h : Keep s t) : Keep s (State.clkPark t) := by
  unfold State.clkPark
  repeat' first
    | with_reducible assumption
    | (with_reducible apply State.setPwr_keep)
    | (with_reducible apply State.wr_keep)
    | with_reducible apply ite_keep
    | intro _
    | simp only [Keep.upd_iff]
    | with_reducible apply Keep.use
    | split

theorem State.stepPark_keep {s t : State} {n : Nat} (h : Keep s t) : Keep s (State.stepPark t n) := by
  unfold State.stepPark
  repeat' first
    | with_reducible assumption
    | (with_reducible apply State.stepMark_keep)
    | (with_reducible apply State.chopAll_keep)
    | (with_reducible apply State.calAbandon_keep)
    | (with_reducible apply State.sleepPorts_keep)
    | (with_reducible apply State.selfEnter_keep)
    | (with_reducible apply State.emit_keep)
    | (with_reducible apply State.wr_keep)
    | (with_reducible apply State.imageWrite_keep)
    | (with_reducible apply State.clkPark_keep)
    | (with_reducible apply State.calCheck_keep)
    | with_reducible apply forN_keep
    | with_reducible apply ite_keep
    | intro _
    | simp only [Keep.upd_iff]
    | with_reducible apply Keep.use
    | split

theorem State.blockPark_keep {s t : State} {a : ParkAnswer} (h : Keep s t) : Keep s (State.blockPark t a) := by
  unfold State.blockPark
  repeat' first
    | with_reducible assumption
    | (with_reducible apply State.setPwr_keep)
    | (with_reducible apply State.pwrAdvance_keep)
    | (with_reducible apply State.stepPark_keep)
    | (with_reducible apply State.sleepPorts_keep)
    | (with_reducible apply State.pwrRefuse_keep)
    | with_reducible apply ite_keep
    | intro _
    | simp only [Keep.upd_iff]
    | with_reducible apply Keep.use
    | split

theorem State.dropEgress_keep {s t : State} (h : Keep s t) : Keep s (State.dropEgress t) := by
  unfold State.dropEgress
  repeat' first
    | with_reducible assumption
    | (with_reducible apply State.bump_keep)
    | with_reducible apply forN_keep
    | with_reducible apply ite_keep
    | intro _
    | simp only [Keep.upd_iff]
    | with_reducible apply Keep.use
    | split

theorem State.wakePower_keep {s t : State} (h : Keep s t) : Keep s (State.wakePower t) := by
  unfold State.wakePower
  repeat' first
    | with_reducible assumption
    | (with_reducible apply State.emit_keep)
    | with_reducible apply ite_keep
    | intro _
    | simp only [Keep.upd_iff]
    | with_reducible apply Keep.use
    | split

theorem State.wakeStart_keep {s t : State} {w : WakeSource} {lane : Nat} (h : Keep s t) : Keep s (State.wakeStart t w lane) := by
  unfold State.wakeStart
  repeat' first
    | with_reducible assumption
    | (with_reducible apply State.wr_keep)
    | (with_reducible apply State.setPwr_keep)
    | (with_reducible apply State.wakePower_keep)
    | with_reducible apply ite_keep
    | intro _
    | simp only [Keep.upd_iff]
    | with_reducible apply Keep.use
    | split

theorem State.wakeEdge_keep {s t : State} (h : Keep s t) : Keep s (State.wakeEdge t) := by
  unfold State.wakeEdge
  repeat' first
    | with_reducible assumption
    | (with_reducible apply State.count_keep)
    | (with_reducible apply State.wakeStart_keep)
    | with_reducible apply ite_keep
    | intro _
    | simp only [Keep.upd_iff]
    | with_reducible apply Keep.use
    | split

theorem State.pwrGo_keep {s t u : State} {target : Nat} (h : Keep s t) (e : State.pwrGo t target = .ok u) : Keep s u := by
  unfold State.pwrGo at e
  try dsimp only at e
  repeat' first
    | contradiction
    | (cases e; done)
    | split at e
    | (injection e with e; subst e)
    | with_reducible assumption
    | (with_reducible apply State.unparkAll_keep)
    | (with_reducible apply State.wr_keep)
    | (with_reducible apply State.setPwr_keep)
    | (with_reducible apply State.pwrAdvance_keep)
    | with_reducible apply ite_keep
    | intro _
    | simp only [Keep.upd_iff]
    | with_reducible apply Keep.use
    | split

theorem State.gpioSample_keep {s t : State} (h : Keep s t) : Keep s (State.gpioSample t) := by
  unfold State.gpioSample
  repeat' first
    | with_reducible assumption
    | with_reducible apply ite_keep
    | intro _
    | simp only [Keep.upd_iff]
    | with_reducible apply Keep.use
    | split

theorem State.loopClock_keep {s t : State} (h : Keep s t) : Keep s (State.loopClock t) := by
  unfold State.loopClock
  repeat' first
    | with_reducible assumption
    | (with_reducible apply State.setLoop_keep)
    | with_reducible apply ite_keep
    | intro _
    | simp only [Keep.upd_iff]
    | with_reducible apply Keep.use
    | split

theorem State.tick_keep {s t : State} (h : Keep s t) : Keep s t.tick := by
  unfold State.tick
  extract_lets n now w b bo s0 s1 s2 s3
  have h0 : Keep s s0 := ⟨h.build, h.pending, h.wf, h.out, h.free, Nat.le_add_right_of_le h.now⟩
  have h1 : Keep s s1 := ite_keep (fun _ => h0) (fun _ => forN_keep h0 (fun _ _ ka => State.laneTime_keep ka))
  have h2 : Keep s s2 := ite_keep (fun _ => State.count_keep h1) (fun _ => h1)
  have h3 : Keep s s3 := State.dramSlots_keep (State.gpioSample_keep (State.loopClock_keep (State.calJudge_keep h2)))
  exact ite_keep (fun _ => State.wr_keep h3) (fun _ => h3)

theorem State.wakePicked_keep {s t : State} (h : Keep s t) : Keep s (State.wakePicked t) := by
  unfold State.wakePicked
  repeat' first
    | with_reducible assumption
    | (with_reducible apply State.useFree_keep)
    | with_reducible apply ite_keep
    | intro _
    | simp only [Keep.upd_iff]
    | with_reducible apply Keep.use
    | split

theorem State.wakeBy_keep {s t : State} {e_ : Option (WakeSource × Nat)} (h : Keep s t) : Keep s (State.wakeBy t e_) := by
  unfold State.wakeBy
  repeat' first
    | with_reducible assumption
    | (with_reducible apply State.wakePicked_keep)
    | (with_reducible apply State.unparkAll_keep)
    | (with_reducible apply State.wakeStart_keep)
    | with_reducible apply ite_keep
    | intro _
    | simp only [Keep.upd_iff]
    | with_reducible apply Keep.use
    | split

theorem State.wakeArm_keep {s t : State} (h : Keep s t) : Keep s (State.wakeArm t) := by
  unfold State.wakeArm
  repeat' first
    | with_reducible assumption
    | (with_reducible apply State.wakeBy_keep)
    | (with_reducible apply State.setPwr_keep)
    | (with_reducible apply State.wr_keep)
    | with_reducible apply ite_keep
    | intro _
    | simp only [Keep.upd_iff]
    | with_reducible apply Keep.use
    | split

theorem State.windDone_keep {s t : State} {n : Nat} (h : Keep s t) : Keep s (State.windDone t n) := by
  unfold State.windDone
  repeat' first
    | with_reducible assumption
    | (with_reducible apply State.pwrAdvance_keep)
    | (with_reducible apply State.stepPark_keep)
    | (with_reducible apply State.setPwr_keep)
    | with_reducible apply ite_keep
    | intro _
    | simp only [Keep.upd_iff]
    | with_reducible apply Keep.use
    | split

theorem State.dmaWound_keep {s t : State} (h : Keep s t) : Keep s (State.dmaWound t) := by
  unfold State.dmaWound
  repeat' first
    | with_reducible assumption
    | (with_reducible apply State.windDone_keep)
    | with_reducible apply ite_keep
    | intro _
    | simp only [Keep.upd_iff]
    | with_reducible apply Keep.use
    | split

theorem State.wakeTimeout_keep {s t : State} (h : Keep s t) : Keep s (State.wakeTimeout t) := by
  unfold State.wakeTimeout
  repeat' first
    | with_reducible assumption
    | (with_reducible apply State.wr_keep)
    | (with_reducible apply State.count_keep)
    | (with_reducible apply State.emit_keep)
    | (with_reducible apply State.setPwr_keep)
    | with_reducible apply ite_keep
    | intro _
    | simp only [Keep.upd_iff]
    | with_reducible apply Keep.use
    | split

theorem State.wakeRetry_keep {s t : State} (h : Keep s t) : Keep s (State.wakeRetry t) := by
  unfold State.wakeRetry
  repeat' first
    | with_reducible assumption
    | (with_reducible apply State.setPwr_keep)
    | (with_reducible apply State.wakePower_keep)
    | (with_reducible apply State.emit_keep)
    | with_reducible apply ite_keep
    | intro _
    | simp only [Keep.upd_iff]
    | with_reducible apply Keep.use
    | split

theorem State.lateEnable_keep {s t : State} {b : Blk} (h : Keep s t) : Keep s (State.lateEnable t b) := by
  unfold State.lateEnable
  repeat' first
    | with_reducible assumption
    | (with_reducible apply State.pwrRefuse_keep)
    | with_reducible apply ite_keep
    | intro _
    | simp only [Keep.upd_iff]
    | with_reducible apply Keep.use
    | split

theorem State.valleyUp_keep {s t : State} (h : Keep s t) : Keep s t.valleyUp := by
  unfold State.valleyUp
  extract_lets f g g1 p g2
  have k : Keep s f := State.fullReset_keep h
  have kg : Keep s g := by
    refine ⟨k.build, k.pending, fun w => ?_, k.out, k.free, k.now⟩
    have hw := h.wf w
    have kw := k.wf w
    simp only [State.wf, Bool.and_eq_true, keysRise_keys] at hw kw ⊢
    exact ⟨memFilter_wf hw.1 _, Rising.forL_put _ _ _ (kw.2.filter _)⟩
  have kg1 : Keep s g1 := State.wr_keep (State.wr_keep (State.wr_keep (State.wr_keep (State.wr_keep kg))))
  have kg2 : Keep s g2 := State.wr_keep (State.setPwr_keep kg1)
  exact ite_keep (fun _ => State.bootPll_keep (State.bootKeys_keep kg2)) (fun _ => kg2)

theorem State.railRise_keep {s t : State} {rc : Bool} (h : Keep s t) : Keep s (State.railRise t rc) := by
  unfold State.railRise
  repeat' first
    | with_reducible assumption
    | (with_reducible apply State.valleyUp_keep)
    | (with_reducible apply State.setPwr_keep)
    | (with_reducible apply State.fullReset_keep)
    | with_reducible apply ite_keep
    | intro _
    | simp only [Keep.upd_iff]
    | with_reducible apply Keep.use
    | split

theorem State.delayLimit_keep {s t : State} (h : Keep s t) : Keep s (State.delayLimit t) := by
  unfold State.delayLimit
  repeat' first
    | with_reducible assumption
    | (with_reducible apply State.pwrAdvance_keep)
    | (with_reducible apply State.stepPark_keep)
    | (with_reducible apply State.dropEgress_keep)
    | (with_reducible apply State.pwrRefuse_keep)
    | with_reducible apply ite_keep
    | intro _
    | simp only [Keep.upd_iff]
    | with_reducible apply Keep.use
    | split

theorem State.wakeLook_keep {s t : State} (h : Keep s t) : Keep s (State.wakeLook t) := by
  unfold State.wakeLook
  repeat' first
    | with_reducible assumption
    | (with_reducible apply State.setPwr_keep)
    | (with_reducible apply State.wakePicked_keep)
    | (with_reducible apply State.wakeBy_keep)
    | with_reducible apply ite_keep
    | intro _
    | simp only [Keep.upd_iff]
    | with_reducible apply Keep.use
    | split

theorem State.wakeEvent_keep {s t : State} {w : WakeSource} {lane : Nat} (h : Keep s t) : Keep s (State.wakeEvent t w lane) := by
  unfold State.wakeEvent
  repeat' first
    | with_reducible assumption
    | (with_reducible apply State.wakeEdge_keep)
    | (with_reducible apply State.wakeLook_keep)
    | with_reducible apply ite_keep
    | intro _
    | simp only [Keep.upd_iff]
    | with_reducible apply Keep.use
    | split

theorem State.railFall_keep {s t : State} (h : Keep s t) : Keep s (State.railFall t) := by
  unfold State.railFall
  repeat' first
    | with_reducible assumption
    | (with_reducible apply State.setLamp_keep)
    | (with_reducible apply State.wr_keep)
    | (with_reducible apply State.setChop_keep)
    | (with_reducible apply State.emit_keep)
    | with_reducible apply forN_keep
    | with_reducible apply ite_keep
    | intro _
    | simp only [Keep.upd_iff]
    | with_reducible apply Keep.use
    | split

theorem State.railAssert_keep {s t : State} (h : Keep s t) : Keep s (State.railAssert t) := by
  unfold State.railAssert
  repeat' first
    | with_reducible assumption
    | (with_reducible apply State.emit_keep)
    | with_reducible apply ite_keep
    | intro _
    | simp only [Keep.upd_iff]
    | with_reducible apply Keep.use
    | split

theorem State.restoreGo_keep {s t u : State} (h : Keep s t) (e : State.restoreGo t = .ok u) : Keep s u := by
  unfold State.restoreGo at e
  try dsimp only at e
  repeat' first
    | contradiction
    | (cases e; done)
    | split at e
    | (injection e with e; subst e)
    | with_reducible assumption
    | (with_reducible apply State.wr_keep)
    | with_reducible apply ite_keep
    | intro _
    | simp only [Keep.upd_iff]
    | with_reducible apply Keep.use
    | split

end Sys2Proof.Machine
end

