-- ==== Sys2Proof/Laws/KeepAccess.lean ====
section
/-! SUPPORT. Register and memory-window accesses keep the build, the queue and the form of the stores. -/

set_option linter.unusedTactic false
set_option linter.unusedSimpArgs false
set_option linter.unreachableTactic false

namespace Sys2Proof.Machine

theorem except_map_keep {s u : State} {β : Type} {x : Except Nat β} {f : β → State} (hf : ∀ v, Keep s (f v)) (e : x.map f = .ok u) :
    Keep s u := by
  cases x with
  | error r => contradiction
  | ok v => injection e with e; subst e; exact hf v

theorem andThen_keep {s : State} {p : State × List Nat} {go : Bool} {f : State → State × List Nat} (h : Keep s p.1)
    (hf : ∀ a, Keep s a → Keep s (f a).1) : Keep s (andThen p go f).1 := by
  unfold andThen
  split
  · exact hf _ h
  · exact h

theorem State.readDword_keep {s t : State} {path : Path} {a : Nat} (h : Keep s t) : Keep s (State.readDword t path a).2 := by
  unfold State.readDword
  repeat' first
    | with_reducible assumption
    | with_reducible apply ite_keep
    | intro _
    | simp only [Keep.upd_iff]
    | with_reducible apply Keep.use
    | split

theorem State.readDword_keep_eq {s t : State} {path : Path} {a : Nat} {p_ : _} (h : Keep s t) (e : State.readDword t path a = p_) : Keep s p_.2 :=
  e ▸ State.readDword_keep h

theorem State.readDwords_keep {s t : State} {path : Path} {addr n : Nat} (h : Keep s t) : Keep s (t.readDwords path addr n).2 := by
  induction n generalizing t addr with
  | zero => exact h
  | succ n ih => exact ih (State.readDword_keep h)

theorem State.readDwords_keep_eq {s t : State} {path : Path} {addr : Nat} {a_nat : Nat} {p_ : _} (h : Keep s t) (e : State.readDwords t path addr a_nat = p_) : Keep s p_.2 :=
  e ▸ State.readDwords_keep h

theorem State.cckEn_keep {s t : State} {v : Nat} (h : Keep s t) : Keep s (State.cckEn t v) := by
  unfold State.cckEn
  repeat' first
    | with_reducible assumption
    | with_reducible apply ite_keep
    | intro _
    | simp only [Keep.upd_iff]
    | with_reducible apply Keep.use
    | split

theorem State.setDt_keep {s t : State} {f : DtEntry → DtEntry} (h : Keep s t) : Keep s (State.setDt t f) := by
  unfold State.setDt
  repeat' first
    | with_reducible assumption
    | with_reducible apply ite_keep
    | intro _
    | simp only [Keep.upd_iff]
    | with_reducible apply Keep.use
    | split

theorem State.store_keep {s t : State} {f : Fld} {v : Nat} (h : Keep s t) : Keep s (State.store t f v) := by
  unfold State.store
  repeat' first
    | with_reducible assumption
    | (with_reducible apply State.keepDark_keep)
    | (with_reducible apply State.setLampEn_keep)
    | (with_reducible apply State.announce_keep)
    | (with_reducible apply State.setDt_keep)
    | (with_reducible apply State.wr_keep)
    | with_reducible apply ite_keep
    | intro _
    | simp only [Keep.upd_iff]
    | with_reducible apply Keep.use
    | split

theorem State.soil_keep {s t : State} (h : Keep s t) : Keep s (State.soil t) := by
  unfold State.soil
  repeat' first
    | with_reducible assumption
    | with_reducible apply ite_keep
    | intro _
    | simp only [Keep.upd_iff]
    | with_reducible apply Keep.use
    | split

theorem State.checkersSync_keep {s t : State} {w : Nat} (h : Keep s t) : Keep s (State.checkersSync t w) := by
  unfold State.checkersSync
  repeat' first
    | with_reducible assumption
    | (with_reducible apply State.setPort_keep)
    | with_reducible apply forN_keep
    | with_reducible apply ite_keep
    | intro _
    | simp only [Keep.upd_iff]
    | with_reducible apply Keep.use
    | split

theorem State.taken_keep {s t : State} {c : Wr} {f : Fld} {v : Nat} (h : Keep s t) : Keep s (State.taken t c f v) := by
  unfold State.taken
  repeat' first
    | with_reducible assumption
    | (with_reducible apply State.cckEn_keep)
    | (with_reducible apply State.wr_keep)
    | (with_reducible apply State.measSync_keep)
    | (with_reducible apply State.pllEnTaken_keep)
    | (with_reducible apply State.quarantineAll_keep)
    | (with_reducible apply State.loadData_keep)
    | (with_reducible apply State.wdogCfgTaken_keep)
    | (with_reducible apply State.ptpSync_keep)
    | (with_reducible apply State.lyCtlTaken_keep)
    | (with_reducible apply State.darnSel_keep)
    | (with_reducible apply State.keepDark_keep)
    | (with_reducible apply State.trvCfgTaken_keep)
    | (with_reducible apply State.gpioShow_keep)
    | (with_reducible apply State.wakeLook_keep)
    | (with_reducible apply State.checkersSync_keep)
    | (with_reducible apply State.updatePath_keep)
    | with_reducible apply ite_keep
    | intro _
    | simp only [Keep.upd_iff]
    | with_reducible apply Keep.use
    | split

theorem State.foldSoil_keep {s t : State} {c : Wr} {f : Fld} (h : Keep s t) : Keep s (State.foldSoil t c f) := by
  unfold State.foldSoil
  repeat' first
    | with_reducible assumption
    | (with_reducible apply State.setFold_keep)
    | with_reducible apply ite_keep
    | intro _
    | simp only [Keep.upd_iff]
    | with_reducible apply Keep.use
    | split

theorem State.takeFld_keep {s t : State} {c : Wr} {f : Fld} {v : Nat} (h : Keep s t) : Keep s (State.takeFld t c f v) := by
  unfold State.takeFld
  repeat' first
    | with_reducible assumption
    | (with_reducible apply State.store_keep)
    | (with_reducible apply State.soil_keep)
    | (with_reducible apply State.taken_keep)
    | (with_reducible apply State.foldSoil_keep)
    | with_reducible apply ite_keep
    | intro _
    | simp only [Keep.upd_iff]
    | with_reducible apply Keep.use
    | split

theorem State.writeFlds_keep {s s0 t : State} {c : Wr} {high : Bool} {l : List Fld} (h : Keep s t) :
    Keep s (s0.writeFlds c high l t).1 := by
  unfold State.writeFlds
  refine foldl_inv (fun a : State × List Nat => Keep s a.1) _ _ (fun a f ka => ?_) h
  split
  · exact ka
  · exact State.takeFld_keep ka
  · exact ka

theorem State.writeFlds_keep_eq {s t : State} {s0 : State} {c : Wr} {high : Bool} {l : List Fld} {p_ : _} (h : Keep s t) (e : State.writeFlds s0 c high l t = p_) : Keep s p_.1 :=
  e ▸ State.writeFlds_keep h

theorem State.hwChosen_keep {s t : State} {l : List Fld} (h : Keep s t) : Keep s (State.hwChosen t l) := by
  unfold State.hwChosen
  repeat' first
    | with_reducible assumption
    | (with_reducible apply State.useFree_keep)
    | with_reducible apply ite_keep
    | intro _
    | simp only [Keep.upd_iff]
    | with_reducible apply Keep.use
    | split

theorem State.writeDwordFlds_keep {s t : State} {c : Wr} {high : Bool} {l : List Fld} (h : Keep s t) : Keep s (State.writeDwordFlds t c high l).1 := by
  unfold State.writeDwordFlds
  repeat' first
    | with_reducible assumption
    | (with_reducible apply State.writeFlds_keep)
    | (with_reducible refine State.writeFlds_keep_eq ?_ (by assumption))
    | (with_reducible apply State.hwChosen_keep)
    | (with_reducible apply State.voteSync_keep)
    | with_reducible apply ite_keep
    | intro _
    | simp only [Keep.upd_iff]
    | with_reducible apply Keep.use
    | split

theorem State.writeDwordFlds_keep_eq {s t : State} {c : Wr} {high : Bool} {l : List Fld} {p_ : _} (h : Keep s t) (e : State.writeDwordFlds t c high l = p_) : Keep s p_.1 :=
  e ▸ State.writeDwordFlds_keep h

theorem State.setCm_keep {s t : State} {f : Fld} (h : Keep s t) : Keep s (State.setCm t f).1 := by
  unfold State.setCm
  repeat' first
    | with_reducible assumption
    | (with_reducible apply State.wr_keep)
    | with_reducible apply ite_keep
    | intro _
    | simp only [Keep.upd_iff]
    | with_reducible apply Keep.use
    | split

theorem State.setCm_keep_eq {s t : State} {f : Fld} {p_ : _} (h : Keep s t) (e : State.setCm t f = p_) : Keep s p_.1 :=
  e ▸ State.setCm_keep h

theorem started_keep {s t : State} {e : Except Nat State} (h : Keep s t) (he : ∀ u, e = .ok u → Keep s u) : Keep s (started t e).1 := by
  cases e with
  | error r => exact h
  | ok u => exact he u rfl

theorem State.resetCmd_keep {s t : State} {full : Bool} {arm : Bool} (h : Keep s t) : Keep s (State.resetCmd t full arm).1 := by
  unfold State.resetCmd
  repeat' first
    | with_reducible assumption
    | (with_reducible apply State.wr_keep)
    | with_reducible apply ite_keep
    | intro _
    | simp only [Keep.upd_iff]
    | with_reducible apply Keep.use
    | split

theorem State.resetCmd_keep_eq {s t : State} {full : Bool} {arm : Bool} {p_ : _} (h : Keep s t) (e : State.resetCmd t full arm = p_) : Keep s p_.1 :=
  e ▸ State.resetCmd_keep h

theorem State.resignCmd_keep {s t : State} (h : Keep s t) : Keep s (State.resignCmd t).1 := by
  unfold State.resignCmd
  repeat' first
    | with_reducible assumption
    | (with_reducible apply State.giveUp_keep)
    | with_reducible apply ite_keep
    | intro _
    | simp only [Keep.upd_iff]
    | with_reducible apply Keep.use
    | split

theorem State.resignCmd_keep_eq {s t : State} {p_ : _} (h : Keep s t) (e : State.resignCmd t = p_) : Keep s p_.1 :=
  e ▸ State.resignCmd_keep h

theorem State.takeCmd_keep {s t : State} (h : Keep s t) : Keep s (State.takeCmd t).1 := by
  unfold State.takeCmd
  repeat' first
    | with_reducible assumption
    | (with_reducible apply State.startTake_keep)
    | with_reducible apply ite_keep
    | intro _
    | simp only [Keep.upd_iff]
    | with_reducible apply Keep.use
    | split

theorem State.takeCmd_keep_eq {s t : State} {p_ : _} (h : Keep s t) (e : State.takeCmd t = p_) : Keep s p_.1 :=
  e ▸ State.takeCmd_keep h

theorem State.discoverCmd_keep {s t : State} {p : Nat} (h : Keep s t) : Keep s (State.discoverCmd t p).1 := by
  unfold State.discoverCmd
  repeat' first
    | with_reducible assumption
    | (with_reducible apply State.sendDiscover_keep)
    | with_reducible apply ite_keep
    | intro _
    | simp only [Keep.upd_iff]
    | with_reducible apply Keep.use
    | split

theorem State.discoverCmd_keep_eq {s t : State} {p : Nat} {p_ : _} (h : Keep s t) (e : State.discoverCmd t p = p_) : Keep s p_.1 :=
  e ▸ State.discoverCmd_keep h

theorem State.remeasureCmd_keep {s t : State} {p : Nat} (h : Keep s t) : Keep s (State.remeasureCmd t p).1 := by
  unfold State.remeasureCmd
  repeat' first
    | with_reducible assumption
    | (with_reducible apply State.startMeasure_keep)
    | (with_reducible apply State.wrB_keep)
    | with_reducible apply forL_keep
    | with_reducible apply ite_keep
    | intro _
    | simp only [Keep.upd_iff]
    | with_reducible apply Keep.use
    | split

theorem State.remeasureCmd_keep_eq {s t : State} {p : Nat} {p_ : _} (h : Keep s t) (e : State.remeasureCmd t p = p_) : Keep s p_.1 :=
  e ▸ State.remeasureCmd_keep h

theorem State.cmWrite_keep {s t : State} {c : Wr} (h : Keep s t) : Keep s (State.cmWrite t c).1 := by
  unfold State.cmWrite
  repeat' first
    | with_reducible assumption
    | (with_reducible apply State.setCm_keep)
    | (with_reducible refine State.setCm_keep_eq ?_ (by assumption))
    | (with_reducible apply started_keep)
    | (with_reducible refine started_keep_eq ?_ (by assumption))
    | (with_reducible refine State.clkSelStart_keep ?_ (by assumption))
    | (with_reducible apply State.resetCmd_keep)
    | (with_reducible refine State.resetCmd_keep_eq ?_ (by assumption))
    | (with_reducible apply State.kickWdog_keep)
    | (with_reducible refine State.pwrGo_keep ?_ (by assumption))
    | (with_reducible refine State.restoreGo_keep ?_ (by assumption))
    | (with_reducible refine State.calRunGo_keep ?_ (by assumption))
    | (with_reducible apply State.calAbandon_keep)
    | (with_reducible apply State.resignCmd_keep)
    | (with_reducible refine State.resignCmd_keep_eq ?_ (by assumption))
    | (with_reducible apply State.takeCmd_keep)
    | (with_reducible refine State.takeCmd_keep_eq ?_ (by assumption))
    | (with_reducible apply State.foldCommit_keep)
    | (with_reducible apply State.discoverCmd_keep)
    | (with_reducible refine State.discoverCmd_keep_eq ?_ (by assumption))
    | (with_reducible apply State.remeasureCmd_keep)
    | (with_reducible refine State.remeasureCmd_keep_eq ?_ (by assumption))
    | (with_reducible refine State.trainGo_keep ?_ (by assumption))
    | (with_reducible apply State.lyCommit_keep)
    | (with_reducible apply State.lyTouch_keep)
    | (with_reducible refine State.loadStart_keep ?_ (by assumption))
    | (with_reducible apply State.wr_keep)
    | (with_reducible refine State.verifyStart_keep ?_ (by assumption))
    | (with_reducible refine State.scnGo_keep ?_ (by assumption))
    | (with_reducible apply State.nbRestore_keep)
    | (with_reducible apply State.lopRestart_keep)
    | (with_reducible apply State.trvCmd_keep)
    | (with_reducible refine State.trvCmd_keep_eq ?_ (by assumption))
    | (with_reducible apply State.keepDark_keep)
    | (with_reducible refine andThen_keep ?_ ?_)
    | (with_reducible refine started_keep ?_ ?_)
    | (with_reducible refine except_map_keep ?_ (by assumption))
    | with_reducible apply ite_keep
    | intro _
    | simp only [Keep.upd_iff]
    | with_reducible apply Keep.use
    | split

theorem State.cmWrite_keep_eq {s t : State} {c : Wr} {p_ : _} (h : Keep s t) (e : State.cmWrite t c = p_) : Keep s p_.1 :=
  e ▸ State.cmWrite_keep h

theorem State.pageOn_keep {s t : State} {c : Wr} (h : Keep s t) : Keep s (State.pageOn t c) := by
  unfold State.pageOn
  repeat' first
    | with_reducible assumption
    | (with_reducible apply State.ask_keep)
    | (with_reducible apply State.setRun_keep)
    | (with_reducible apply State.pressEnable_keep)
    | (with_reducible apply State.dramSlots_keep)
    | (with_reducible apply State.scnEnable_keep)
    | (with_reducible apply State.keepDark_keep)
    | (with_reducible apply State.trvEnable_keep)
    | (with_reducible apply State.lmpEnable_keep)
    | (with_reducible apply State.lyEnable_keep)
    | (with_reducible apply State.epcStart_keep)
    | (with_reducible apply State.drcEnable_keep)
    | (with_reducible apply State.wakeLook_keep)
    | (with_reducible apply State.portsSync_keep)
    | (with_reducible apply State.ringWindowSync_keep)
    | (with_reducible apply State.spurWindowSync_keep)
    | (with_reducible apply State.srcSync_keep)
    | (with_reducible apply State.dmaIssue_keep)
    | (with_reducible apply State.dmaShow_keep)
    | (with_reducible apply State.gpioShow_keep)
    | (with_reducible apply State.ptpSync_keep)
    | (with_reducible apply State.ethSync_keep)
    | with_reducible apply forN_keep
    | with_reducible apply forL_keep
    | with_reducible apply ite_keep
    | intro _
    | simp only [Keep.upd_iff]
    | with_reducible apply Keep.use
    | split

theorem State.parkedInst_keep {s t : State} {b : Blk} {n : Nat} (h : Keep s t) : Keep s (State.parkedInst t b n) := by
  unfold State.parkedInst
  repeat' first
    | with_reducible assumption
    | (with_reducible apply State.srcSync_keep)
    | (with_reducible apply State.wr_keep)
    | (with_reducible apply State.setSrc_keep)
    | (with_reducible apply State.dmaDrop_keep)
    | (with_reducible apply State.dmaStop_keep)
    | with_reducible apply ite_keep
    | intro _
    | simp only [Keep.upd_iff]
    | with_reducible apply Keep.use
    | split

theorem State.parkedOff_keep {s t : State} {b : Blk} {w : Nat} (h : Keep s t) : Keep s (State.parkedOff t b w) := by
  unfold State.parkedOff
  repeat' first
    | with_reducible assumption
    | (with_reducible apply State.parkedInst_keep)
    | (with_reducible apply State.lyParkedOff_keep)
    | (with_reducible apply State.setPress_keep)
    | (with_reducible apply State.setRun_keep)
    | with_reducible apply forN_keep
    | with_reducible apply ite_keep
    | intro _
    | simp only [Keep.upd_iff]
    | with_reducible apply Keep.use
    | split

theorem State.pageDrain_keep {s t : State} {b : Blk} {w : Nat} {l : List Nat} (h : Keep s t) : Keep s (State.pageDrain t b w l) := by
  unfold State.pageDrain
  repeat' first
    | with_reducible assumption
    | (with_reducible apply State.setRun_keep)
    | with_reducible apply ite_keep
    | intro _
    | simp only [Keep.upd_iff]
    | with_reducible apply Keep.use
    | split

theorem State.foldOff_keep {s t : State} (h : Keep s t) : Keep s (State.foldOff t) := by
  unfold State.foldOff
  repeat' first
    | with_reducible assumption
    | (with_reducible apply State.wr_keep)
    | (with_reducible apply State.setShip_keep)
    | (with_reducible apply State.setFold_keep)
    | with_reducible apply ite_keep
    | intro _
    | simp only [Keep.upd_iff]
    | with_reducible apply Keep.use
    | split

theorem State.pageOffAt_keep {s t : State} {c : Wr} (h : Keep s t) : Keep s (State.pageOffAt t c) := by
  unfold State.pageOffAt
  repeat' first
    | with_reducible assumption
    | (with_reducible apply State.parkedOff_keep)
    | (with_reducible apply State.setRun_keep)
    | (with_reducible apply State.pageDrain_keep)
    | (with_reducible apply State.srcSync_keep)
    | (with_reducible apply State.dmaStop_keep)
    | (with_reducible apply State.scnDisable_keep)
    | (with_reducible apply State.lmpDisable_keep)
    | (with_reducible apply State.darnDisable_keep)
    | (with_reducible apply State.lopDisable_keep)
    | (with_reducible apply State.trvDisable_keep)
    | (with_reducible apply State.epcStop_keep)
    | (with_reducible apply State.foldOff_keep)
    | (with_reducible apply State.calAbandon_keep)
    | (with_reducible apply State.gpioShow_keep)
    | (with_reducible apply State.portsSync_keep)
    | (with_reducible apply State.ringWindowSync_keep)
    | (with_reducible apply State.spurWindowSync_keep)
    | (with_reducible apply State.ptpSync_keep)
    | (with_reducible apply State.ethSync_keep)
    | with_reducible apply forN_keep
    | with_reducible apply forL_keep
    | with_reducible apply ite_keep
    | intro _
    | simp only [Keep.upd_iff]
    | with_reducible apply Keep.use
    | split

theorem State.pageEnable_keep {s t : State} {c : Wr} {v : Nat} (h : Keep s t) : Keep s (State.pageEnable t c v).1 := by
  unfold State.pageEnable
  repeat' first
    | with_reducible assumption
    | (with_reducible apply State.lateEnable_keep)
    | (with_reducible apply State.pageOn_keep)
    | (with_reducible apply State.foldSoil_keep)
    | (with_reducible apply State.wr_keep)
    | (with_reducible apply State.setRun_keep)
    | (with_reducible apply State.pageOffAt_keep)
    | with_reducible apply ite_keep
    | intro _
    | simp only [Keep.upd_iff]
    | with_reducible apply Keep.use
    | split

theorem State.pageEnable_keep_eq {s t : State} {c : Wr} {v : Nat} {p_ : _} (h : Keep s t) (e : State.pageEnable t c v = p_) : Keep s p_.1 :=
  e ▸ State.pageEnable_keep h

theorem State.instSync_keep {s t : State} {c : Wr} {n : Nat} {v : Nat} (h : Keep s t) : Keep s (State.instSync t c n v) := by
  unfold State.instSync
  repeat' first
    | with_reducible assumption
    | (with_reducible apply State.wakeLook_keep)
    | (with_reducible apply State.portsSync_keep)
    | (with_reducible apply State.srcSync_keep)
    | (with_reducible apply State.dmaIssue_keep)
    | (with_reducible apply State.dmaShow_keep)
    | (with_reducible apply State.dmaStop_keep)
    | (with_reducible apply State.ethSync_keep)
    | with_reducible apply forL_keep
    | with_reducible apply ite_keep
    | intro _
    | simp only [Keep.upd_iff]
    | with_reducible apply Keep.use
    | split

theorem State.instEnable_keep {s t : State} {c : Wr} {n : Nat} {e_ : Fld} {v : Nat} (h : Keep s t) : Keep s (State.instEnable t c n e_ v).1 := by
  unfold State.instEnable
  repeat' first
    | with_reducible assumption
    | (with_reducible apply State.instSync_keep)
    | (with_reducible apply State.foldSoil_keep)
    | (with_reducible apply State.soil_keep)
    | (with_reducible apply State.wr_keep)
    | (with_reducible apply State.parkedInst_keep)
    | with_reducible apply ite_keep
    | intro _
    | simp only [Keep.upd_iff]
    | with_reducible apply Keep.use
    | split

theorem State.instEnable_keep_eq {s t : State} {c : Wr} {n : Nat} {e_ : Fld} {v : Nat} {p_ : _} (h : Keep s t) (e : State.instEnable t c n e_ v = p_) : Keep s p_.1 :=
  e ▸ State.instEnable_keep h

theorem State.enableWrite_keep {s t : State} {s0 : State} {c : Wr} (h : Keep s t) : Keep s (State.enableWrite s0 c t).1 := by
  unfold State.enableWrite
  repeat' first
    | with_reducible assumption
    | (with_reducible apply State.pageEnable_keep)
    | (with_reducible refine State.pageEnable_keep_eq ?_ (by assumption))
    | (with_reducible apply State.instEnable_keep)
    | (with_reducible refine State.instEnable_keep_eq ?_ (by assumption))
    | with_reducible apply ite_keep
    | intro _
    | simp only [Keep.upd_iff]
    | with_reducible apply Keep.use
    | split

theorem State.enableWrite_keep_eq {s t : State} {s0 : State} {c : Wr} {p_ : _} (h : Keep s t) (e : State.enableWrite s0 c t = p_) : Keep s p_.1 :=
  e ▸ State.enableWrite_keep h

theorem State.writeReg_keep {s t : State} {c : Wr} {high : Bool} {l : List Fld} (h : Keep s t) : Keep s (t.writeReg c high l) := by
  unfold State.writeReg
  extract_lets p m q r u
  have h1 : Keep s p.1 := State.writeDwordFlds_keep h
  have hm : Keep s m.1 := State.cmWrite_keep h1
  have h2 : Keep s q.1 := by
    unfold q
    split
    · exact hm
    · exact h1
  have h3 : Keep s r.1 := State.enableWrite_keep h2
  have h4 : Keep s u := by
    unfold u
    split
    · exact h3
    · exact State.ignored_keep h3
  exact State.calCheck_keep (ite_keep (fun _ => State.hotJudge_keep h4) (fun _ => h4))

theorem State.gatedMem_keep {s t : State} {b : Blk} {w : Nat} {path : Path} {a : Nat} {v : Nat} (h : Keep s t) : Keep s (State.gatedMem t b w path a v) := by
  unfold State.gatedMem
  repeat' first
    | with_reducible assumption
    | (with_reducible apply State.ignored_keep)
    | (with_reducible apply State.soil_keep)
    | (with_reducible apply State.wr32_keep)
    | with_reducible apply ite_keep
    | intro _
    | simp only [Keep.upd_iff]
    | with_reducible apply Keep.use
    | split

theorem State.writeMem_keep {s t : State} {path : Path} {r : Region} {a : Nat} {v : Nat} (h : Keep s t) : Keep s (State.writeMem t path r a v) := by
  unfold State.writeMem
  repeat' first
    | with_reducible assumption
    | (with_reducible apply State.gatedMem_keep)
    | (with_reducible apply State.ignored_keep)
    | (with_reducible apply State.wr32_keep)
    | (with_reducible apply State.apWritten_keep)
    | with_reducible apply ite_keep
    | intro _
    | simp only [Keep.upd_iff]
    | with_reducible apply Keep.use
    | split

theorem State.writeDword_keep {s t : State} {path : Path} {a : Nat} {v : Nat} (h : Keep s t) : Keep s (State.writeDword t path a v) := by
  unfold State.writeDword
  repeat' first
    | with_reducible assumption
    | (with_reducible apply State.writeReg_keep)
    | (with_reducible apply State.writeMem_keep)
    | with_reducible apply ite_keep
    | intro _
    | simp only [Keep.upd_iff]
    | with_reducible apply Keep.use
    | split

theorem State.readReq_keep {s t : State} {path : Path} {addr : Nat} {n : Nat} (h : Keep s t) : Keep s (State.readReq t path addr n).2 := by
  unfold State.readReq
  repeat' first
    | with_reducible assumption
    | (with_reducible apply State.logBerr_keep)
    | (with_reducible apply State.readDwords_keep)
    | (with_reducible refine State.readDwords_keep_eq ?_ (by assumption))
    | with_reducible apply ite_keep
    | intro _
    | simp only [Keep.upd_iff]
    | with_reducible apply Keep.use
    | split

theorem State.readReq_keep_eq {s t : State} {path : Path} {addr : Nat} {n : Nat} {p_ : _} (h : Keep s t) (e : State.readReq t path addr n = p_) : Keep s p_.2 :=
  e ▸ State.readReq_keep h

theorem State.writeDwords_keep {s t : State} {path : Path} {addr : Nat} {l : List Word} (h : Keep s t) :
    Keep s (t.writeDwords path addr l) := by
  induction l generalizing t addr with
  | nil => exact h
  | cons d l ih => exact ih (State.writeDword_keep h)

theorem State.writeReq_keep {s t : State} {path : Path} {addr : Nat} {data : List Word} {be : Nat} (h : Keep s t) : Keep s (State.writeReq t path addr data be).2 := by
  unfold State.writeReq
  repeat' first
    | with_reducible assumption
    | (with_reducible apply State.logBerr_keep)
    | (with_reducible apply State.writeDwords_keep)
    | with_reducible apply ite_keep
    | intro _
    | simp only [Keep.upd_iff]
    | with_reducible apply Keep.use
    | split

theorem State.writeReq_keep_eq {s t : State} {path : Path} {addr : Nat} {data : List Word} {be : Nat} {p_ : _} (h : Keep s t) (e : State.writeReq t path addr data be = p_) : Keep s p_.2 :=
  e ▸ State.writeReq_keep h

theorem State.pathWrite_keep {s t : State} {path : Path} {addr : Nat} {data : List Word} {be : Nat} (h : Keep s t) : Keep s (State.pathWrite t path addr data be) := by
  unfold State.pathWrite
  repeat' first
    | with_reducible assumption
    | (with_reducible apply State.writeReq_keep)
    | (with_reducible refine State.writeReq_keep_eq ?_ (by assumption))
    | (with_reducible apply State.emit_keep)
    | with_reducible apply ite_keep
    | intro _
    | simp only [Keep.upd_iff]
    | with_reducible apply Keep.use
    | split

theorem State.command_keep {s t : State} {path : Path} {view : View} {f : Fld} {v : Nat} (h : Keep s t) : Keep s (State.command t path view f v) := by
  unfold State.command
  repeat' first
    | with_reducible assumption
    | (with_reducible apply State.pathWrite_keep)
    | with_reducible apply ite_keep
    | intro _
    | simp only [Keep.upd_iff]
    | with_reducible apply Keep.use
    | split

theorem State.pathRead_keep {s t : State} {path : Path} {addr : Nat} {n : Nat} (h : Keep s t) : Keep s (State.pathRead t path addr n) := by
  unfold State.pathRead
  repeat' first
    | with_reducible assumption
    | (with_reducible apply State.readReq_keep)
    | (with_reducible refine State.readReq_keep_eq ?_ (by assumption))
    | (with_reducible apply State.emit_keep)
    | (with_reducible apply State.completerAbort_keep)
    | with_reducible apply ite_keep
    | intro _
    | simp only [Keep.upd_iff]
    | with_reducible apply Keep.use
    | split

theorem State.foldPut_keep {s t : State} {l : List Fld} {v : Nat} (h : Keep s t) : Keep s (State.foldPut t l v) := by
  unfold State.foldPut
  repeat' first
    | with_reducible assumption
    | (with_reducible apply State.wr_keep)
    | (with_reducible apply State.writeDwordFlds_keep)
    | (with_reducible refine State.writeDwordFlds_keep_eq ?_ (by assumption))
    | with_reducible apply forL_keep
    | with_reducible apply ite_keep
    | intro _
    | simp only [Keep.upd_iff]
    | with_reducible apply Keep.use
    | split

theorem State.putBack_keep {s t : State} {f : Fld} {v : Nat} (h : Keep s t) : Keep s (State.putBack t f v) := by
  unfold State.putBack
  repeat' first
    | with_reducible assumption
    | (with_reducible apply State.wr_keep)
    | with_reducible apply ite_keep
    | intro _
    | simp only [Keep.upd_iff]
    | with_reducible apply Keep.use
    | split

theorem State.memsBack_keep {s t : State} {base : Nat} {l : List (Space × Nat × Nat)} (h : Keep s t) : Keep s (t.memsBack base l) := by
  induction l generalizing t base with
  | nil => exact h
  | cons m l ih => exact ih (State.wrBytes_keep h)

theorem State.dtBack_keep {s t : State} {sp : Space} {base : Nat} (h : Keep s t) : Keep s (State.dtBack t sp base) := by
  unfold State.dtBack
  repeat' first
    | with_reducible assumption
    | with_reducible apply forN_keep
    | with_reducible apply ite_keep
    | intro _
    | simp only [Keep.upd_iff]
    | with_reducible apply Keep.use
    | split

theorem State.enablePage_keep {s t : State} {b : Blk} {w : Nat} (h : Keep s t) : Keep s (State.enablePage t b w) := by
  unfold State.enablePage
  repeat' first
    | with_reducible assumption
    | (with_reducible apply State.pageEnable_keep)
    | (with_reducible refine State.pageEnable_keep_eq ?_ (by assumption))
    | (with_reducible apply State.ignored_keep)
    | with_reducible apply ite_keep
    | intro _
    | simp only [Keep.upd_iff]
    | with_reducible apply Keep.use
    | split

theorem State.restoreImage_keep {s t : State} (h : Keep s t) : Keep s (State.restoreImage t) := by
  unfold State.restoreImage
  repeat' first
    | with_reducible assumption
    | (with_reducible apply State.putBack_keep)
    | (with_reducible apply State.gpioShow_keep)
    | (with_reducible apply State.keepDark_keep)
    | (with_reducible apply State.trvCfgTaken_keep)
    | (with_reducible apply State.cckEn_keep)
    | (with_reducible apply State.memsBack_keep)
    | (with_reducible apply State.dtBack_keep)
    | (with_reducible apply State.darnSel_keep)
    | (with_reducible apply State.wr_keep)
    | (with_reducible apply State.enablePage_keep)
    | (with_reducible apply State.trvPower_keep)
    | (with_reducible apply State.soil_keep)
    | with_reducible apply forN_keep
    | with_reducible apply forL_keep
    | with_reducible apply ite_keep
    | intro _
    | simp only [Keep.upd_iff]
    | with_reducible apply Keep.use
    | split

theorem State.restoreEnd_keep {s t : State} (h : Keep s t) : Keep s (State.restoreEnd t) := by
  unfold State.restoreEnd
  repeat' first
    | with_reducible assumption
    | (with_reducible apply State.wr_keep)
    | (with_reducible apply State.restoreImage_keep)
    | (with_reducible apply State.soil_keep)
    | (with_reducible apply State.wakeLook_keep)
    | with_reducible apply ite_keep
    | intro _
    | simp only [Keep.upd_iff]
    | with_reducible apply Keep.use
    | split

theorem State.foldEnable_keep {s t : State} {l : List Fld} {v : Nat} (h : Keep s t) : Keep s (State.foldEnable t l v) := by
  unfold State.foldEnable
  repeat' first
    | with_reducible assumption
    | (with_reducible apply State.enableWrite_keep)
    | (with_reducible refine State.enableWrite_keep_eq ?_ (by assumption))
    | with_reducible apply ite_keep
    | intro _
    | simp only [Keep.upd_iff]
    | with_reducible apply Keep.use
    | split

theorem State.foldLock_keep {s t : State} {l : List Fld} {v : Nat} (h : Keep s t) : Keep s (State.foldLock t l v) := by
  unfold State.foldLock
  repeat' first
    | with_reducible assumption
    | (with_reducible apply State.wr_keep)
    | with_reducible apply ite_keep
    | intro _
    | simp only [Keep.upd_iff]
    | with_reducible apply Keep.use
    | split

theorem State.restoreFold_keep {s t : State} (h : Keep s t) : Keep s (State.restoreFold t) := by
  unfold State.restoreFold
  repeat' first
    | with_reducible assumption
    | (with_reducible apply State.foldPut_keep)
    | (with_reducible apply State.wrBytes_keep)
    | (with_reducible apply State.dtBack_keep)
    | (with_reducible apply State.selfExit_keep)
    | (with_reducible apply State.enablePage_keep)
    | (with_reducible apply State.foldEnable_keep)
    | (with_reducible apply State.foldLock_keep)
    | (with_reducible apply State.setEp_keep)
    | with_reducible apply forN_keep
    | with_reducible apply forL_keep
    | with_reducible apply ite_keep
    | intro _
    | simp only [Keep.upd_iff]
    | with_reducible apply Keep.use
    | split

theorem State.takeoverDone_keep {s t : State} (h : Keep s t) : Keep s (State.takeoverDone t) := by
  unfold State.takeoverDone
  repeat' first
    | with_reducible assumption
    | (with_reducible apply State.restoreFold_keep)
    | (with_reducible apply State.setFold_keep)
    | (with_reducible apply State.raiseEvent_keep)
    | (with_reducible apply State.count_keep)
    | (with_reducible apply State.wr_keep)
    | with_reducible apply ite_keep
    | intro _
    | simp only [Keep.upd_iff]
    | with_reducible apply Keep.use
    | split

theorem State.drainEnd_keep {s t : State} {addr : Nat} (h : Keep s t) : Keep s (State.drainEnd t addr) := by
  unfold State.drainEnd
  repeat' first
    | with_reducible assumption
    | (with_reducible apply State.srcDrained_keep)
    | (with_reducible apply State.pageDrain_keep)
    | (with_reducible apply State.wr_keep)
    | (with_reducible apply State.dmaDrop_keep)
    | (with_reducible apply State.setRun_keep)
    | (with_reducible apply State.drcDrained_keep)
    | with_reducible apply ite_keep
    | intro _
    | simp only [Keep.upd_iff]
    | with_reducible apply Keep.use
    | split

end Sys2Proof.Machine
end

