-- ==== Sys2Proof/Laws/KeepCommand.lean ====
section
/-! SUPPORT. What the commands are made of keeps the build, the queue and the form of the stores. -/

set_option linter.unusedTactic false
set_option linter.unusedSimpArgs false
set_option linter.unreachableTactic false

namespace Sys2Proof.Machine

theorem State.cpBell_keep {s t : State} {off : Nat} {idx : Nat} {be : Nat} {f : State → State} (h : Keep s t) (hf : ∀ a, Keep s a → Keep s (f a)) : Keep s (State.cpBell t off idx be f) := by
  unfold State.cpBell
  repeat' first
    | with_reducible assumption
    | with_reducible apply hf
    | (with_reducible apply State.onBell_keep)
    | with_reducible apply ite_keep
    | intro _
    | simp only [Keep.upd_iff]
    | with_reducible apply Keep.use
    | split

theorem State.frameCell_keep {s t : State} {id : Nat} {c : Cell} (h : Keep s t) : Keep s (State.frameCell t id c) := by
  unfold State.frameCell
  repeat' first
    | with_reducible assumption
    | (with_reducible apply State.frameIn_keep)
    | with_reducible apply ite_keep
    | intro _
    | simp only [Keep.upd_iff]
    | with_reducible apply Keep.use
    | split

theorem State.onChan_keep {s t : State} {ch : Nat} {f : State → State} (h : Keep s t) (hf : ∀ a, Keep s a → Keep s (f a)) : Keep s (State.onChan t ch f) := by
  unfold State.onChan
  repeat' first
    | with_reducible assumption
    | with_reducible apply hf
    | with_reducible apply ite_keep
    | intro _
    | simp only [Keep.upd_iff]
    | with_reducible apply Keep.use
    | split

theorem State.mgtEnd_keep {s t : State} {last : Nat} {o : Out} (h : Keep s t) : Keep s (State.mgtEnd t last o) := by
  unfold State.mgtEnd
  repeat' first
    | with_reducible assumption
    | (with_reducible apply State.emit_keep)
    | (with_reducible apply State.wr_keep)
    | with_reducible apply ite_keep
    | intro _
    | simp only [Keep.upd_iff]
    | with_reducible apply Keep.use
    | split

theorem State.mgtBerr_keep {s t : State} {a : Nat} {r : Nat} {write : Bool} (h : Keep s t) : Keep s (State.mgtBerr t a r write) := by
  unfold State.mgtBerr
  repeat' first
    | with_reducible assumption
    | (with_reducible apply State.mgtEnd_keep)
    | (with_reducible apply State.logBerr_keep)
    | with_reducible apply ite_keep
    | intro _
    | simp only [Keep.upd_iff]
    | with_reducible apply Keep.use
    | split

theorem State.mgtWrite_keep {s t : State} {addr : Nat} {count : Nat} {data : List Byte} {pec : Option Byte} (h : Keep s t) : Keep s (State.mgtWrite t addr count data pec) := by
  unfold State.mgtWrite
  repeat' first
    | with_reducible assumption
    | (with_reducible apply State.mgtBerr_keep)
    | (with_reducible apply State.wr_keep)
    | (with_reducible apply State.count_keep)
    | (with_reducible apply State.mgtEnd_keep)
    | (with_reducible apply State.writeDwords_keep)
    | with_reducible apply ite_keep
    | intro _
    | simp only [Keep.upd_iff]
    | with_reducible apply Keep.use
    | split

theorem State.mgtRead_keep {s t : State} {addr : Nat} {count : Nat} {n : Nat} (h : Keep s t) : Keep s (State.mgtRead t addr count n) := by
  unfold State.mgtRead
  repeat' first
    | with_reducible assumption
    | (with_reducible apply State.mgtBerr_keep)
    | (with_reducible apply State.readDwords_keep)
    | (with_reducible refine State.readDwords_keep_eq ?_ (by assumption))
    | (with_reducible apply State.mgtEnd_keep)
    | (with_reducible apply State.count_keep)
    | with_reducible apply ite_keep
    | intro _
    | simp only [Keep.upd_iff]
    | with_reducible apply Keep.use
    | split

theorem State.mgtRun_keep {s t : State} {o : MgtOp} (h : Keep s t) : Keep s (State.mgtRun t o) := by
  unfold State.mgtRun
  repeat' first
    | with_reducible assumption
    | (with_reducible apply State.mgtWrite_keep)
    | (with_reducible apply State.mgtRead_keep)
    | with_reducible apply ite_keep
    | intro _
    | simp only [Keep.upd_iff]
    | with_reducible apply Keep.use
    | split

theorem State.mgtResume_keep {s t : State} (h : Keep s t) : Keep s (State.mgtResume t) := by
  unfold State.mgtResume
  repeat' first
    | with_reducible assumption
    | (with_reducible apply State.setPwr_keep)
    | (with_reducible apply State.mgtRun_keep)
    | with_reducible apply ite_keep
    | intro _
    | simp only [Keep.upd_iff]
    | with_reducible apply Keep.use
    | split

theorem State.mgtWakeEnd_keep {s t : State} (h : Keep s t) : Keep s (State.mgtWakeEnd t) := by
  unfold State.mgtWakeEnd
  repeat' first
    | with_reducible assumption
    | (with_reducible apply State.setPwr_keep)
    | (with_reducible apply State.mgtResume_keep)
    | (with_reducible apply State.mgtEnd_keep)
    | (with_reducible apply State.emit_keep)
    | (with_reducible apply State.count_keep)
    | with_reducible apply ite_keep
    | intro _
    | simp only [Keep.upd_iff]
    | with_reducible apply Keep.use
    | split

theorem State.mgtBegin_keep {s t : State} {o : MgtOp} (h : Keep s t) : Keep s (State.mgtBegin t o) := by
  unfold State.mgtBegin
  repeat' first
    | with_reducible assumption
    | (with_reducible apply State.wakeEdge_keep)
    | (with_reducible apply State.setPwr_keep)
    | (with_reducible apply State.mgtRun_keep)
    | with_reducible apply ite_keep
    | intro _
    | simp only [Keep.upd_iff]
    | with_reducible apply Keep.use
    | split

theorem State.sclTimeout_keep {s t : State} (h : Keep s t) : Keep s (State.sclTimeout t) := by
  unfold State.sclTimeout
  repeat' first
    | with_reducible assumption
    | (with_reducible apply State.mgtEnd_keep)
    | (with_reducible apply State.count_keep)
    | with_reducible apply ite_keep
    | intro _
    | simp only [Keep.upd_iff]
    | with_reducible apply Keep.use
    | split

theorem State.leftRoot_keep {s t : State} {before : Nat} (h : Keep s t) : Keep s (State.leftRoot t before) := by
  unfold State.leftRoot
  repeat' first
    | with_reducible assumption
    | (with_reducible apply State.calCheck_keep)
    | (with_reducible apply State.trvLoseAll_keep)
    | with_reducible apply ite_keep
    | intro _
    | simp only [Keep.upd_iff]
    | with_reducible apply Keep.use
    | split

theorem State.pllLoss_keep {s t : State} {pll : Pll} (h : Keep s t) : Keep s (State.pllLoss t pll) := by
  unfold State.pllLoss
  repeat' first
    | with_reducible assumption
    | (with_reducible apply State.leftRoot_keep)
    | (with_reducible apply State.rootLoss_keep)
    | (with_reducible apply State.quarantineAll_keep)
    | (with_reducible apply State.wr_keep)
    | with_reducible apply ite_keep
    | intro _
    | simp only [Keep.upd_iff]
    | with_reducible apply Keep.use
    | split

theorem State.refLoss_keep {s t : State} (h : Keep s t) : Keep s (State.refLoss t) := by
  unfold State.refLoss
  repeat' first
    | with_reducible assumption
    | (with_reducible apply State.leftRoot_keep)
    | (with_reducible apply State.rootLoss_keep)
    | (with_reducible apply State.count_keep)
    | with_reducible apply ite_keep
    | intro _
    | simp only [Keep.upd_iff]
    | with_reducible apply Keep.use
    | split

theorem State.refBack_keep {s t : State} (h : Keep s t) : Keep s (State.refBack t) := by
  unfold State.refBack
  repeat' first
    | with_reducible assumption
    | with_reducible apply ite_keep
    | intro _
    | simp only [Keep.upd_iff]
    | with_reducible apply Keep.use
    | split

theorem State.pllLock_keep {s t : State} {pll : Pll} (h : Keep s t) : Keep s (State.pllLock t pll) := by
  unfold State.pllLock
  repeat' first
    | with_reducible assumption
    | (with_reducible apply State.refBack_keep)
    | (with_reducible apply State.wr_keep)
    | (with_reducible refine State.clkSelStart_keep ?_ (by assumption))
    | with_reducible apply ite_keep
    | intro _
    | simp only [Keep.upd_iff]
    | with_reducible apply Keep.use
    | split

theorem State.clocksSwitched_keep {s t : State} (h : Keep s t) : Keep s (State.clocksSwitched t) := by
  unfold State.clocksSwitched
  repeat' first
    | with_reducible assumption
    | (with_reducible apply State.leftRoot_keep)
    | (with_reducible apply State.switchDone_keep)
    | (with_reducible apply State.wr_keep)
    | (with_reducible apply State.enterRecovery_keep)
    | with_reducible apply ite_keep
    | intro _
    | simp only [Keep.upd_iff]
    | with_reducible apply Keep.use
    | split

theorem State.debugRead_keep {s t : State} {a : Nat} (h : Keep s t) : Keep s (State.debugRead t a) := by
  unfold State.debugRead
  repeat' first
    | with_reducible assumption
    | (with_reducible apply State.emit_keep)
    | (with_reducible apply State.readDword_keep)
    | (with_reducible refine State.readDword_keep_eq ?_ (by assumption))
    | with_reducible apply ite_keep
    | intro _
    | simp only [Keep.upd_iff]
    | with_reducible apply Keep.use
    | split

theorem State.pllTimeout_keep {s t : State} (h : Keep s t) : Keep s (State.pllTimeout t) := by
  unfold State.pllTimeout
  repeat' first
    | with_reducible assumption
    | (with_reducible apply State.wr_keep)
    | with_reducible apply ite_keep
    | intro _
    | simp only [Keep.upd_iff]
    | with_reducible apply Keep.use
    | split

theorem State.slotsChecked_keep {s t : State} {a : ImageCheck} {b : ImageCheck} (h : Keep s t) : Keep s (State.slotsChecked t a b) := by
  unfold State.slotsChecked
  repeat' first
    | with_reducible assumption
    | (with_reducible apply State.wrB_keep)
    | (with_reducible apply State.wr_keep)
    | (with_reducible apply State.bump_keep)
    | (with_reducible apply State.enterRecovery_keep)
    | (with_reducible apply State.handOver_keep)
    | with_reducible apply ite_keep
    | intro _
    | simp only [Keep.upd_iff]
    | with_reducible apply Keep.use
    | split

theorem State.memoriesClear_keep {s t : State} (h : Keep s t) : Keep s (State.memoriesClear t) := by
  unfold State.memoriesClear
  repeat' first
    | with_reducible assumption
    | (with_reducible apply State.handOver_keep)
    | with_reducible apply ite_keep
    | intro _
    | simp only [Keep.upd_iff]
    | with_reducible apply Keep.use
    | split

theorem State.ryupelCheck_keep {s t : State} {i : ImageCheck} {banks : List (Half × Nat)} (h : Keep s t) : Keep s (State.ryupelCheck t i banks) := by
  unfold State.ryupelCheck
  repeat' first
    | with_reducible assumption
    | (with_reducible apply State.count_keep)
    | (with_reducible apply State.setDarn_keep)
    | with_reducible apply forL_keep
    | with_reducible apply ite_keep
    | intro _
    | simp only [Keep.upd_iff]
    | with_reducible apply Keep.use
    | split

theorem State.refDetect_keep {s t : State} {edges : Nat} {xtal : Bool} (h : Keep s t) : Keep s (State.refDetect t edges xtal) := by
  unfold State.refDetect
  repeat' first
    | with_reducible assumption
    | (with_reducible apply State.mgtResume_keep)
    | (with_reducible apply State.bootPll_keep)
    | (with_reducible apply State.bootKeys_keep)
    | (with_reducible apply State.wr_keep)
    | with_reducible apply ite_keep
    | intro _
    | simp only [Keep.upd_iff]
    | with_reducible apply Keep.use
    | split

theorem State.debugAccess_keep {s t : State} {acc : DebugAccess} (h : Keep s t) : Keep s (State.debugAccess t acc) := by
  unfold State.debugAccess
  repeat' first
    | with_reducible assumption
    | (with_reducible apply State.emit_keep)
    | (with_reducible apply State.debugRead_keep)
    | (with_reducible apply State.writeDword_keep)
    | (with_reducible apply State.wr32_keep)
    | with_reducible apply ite_keep
    | intro _
    | simp only [Keep.upd_iff]
    | with_reducible apply Keep.use
    | split

theorem State.keyRecord_keep {s t : State} {r : KeyRecord} (h : Keep s t) : Keep s (State.keyRecord t r) := by
  unfold State.keyRecord
  repeat' first
    | with_reducible assumption
    | (with_reducible apply State.count_keep)
    | with_reducible apply ite_keep
    | intro _
    | simp only [Keep.upd_iff]
    | with_reducible apply Keep.use
    | split

theorem State.cutRecord_keep {s t : State} (h : Keep s t) : Keep s (State.cutRecord t) := by
  unfold State.cutRecord
  repeat' first
    | with_reducible assumption
    | (with_reducible apply State.useFree_keep)
    | with_reducible apply ite_keep
    | intro _
    | simp only [Keep.upd_iff]
    | with_reducible apply Keep.use
    | split

theorem State.powerOn_keep {s t : State} (h : Keep s t) : Keep s (State.powerOn t) := by
  unfold State.powerOn
  repeat' first
    | with_reducible assumption
    | (with_reducible apply State.fullReset_keep)
    | (with_reducible apply State.cutRecord_keep)
    | with_reducible apply ite_keep
    | intro _
    | simp only [Keep.upd_iff]
    | with_reducible apply Keep.use
    | split

theorem State.released_keep {s t : State} {role half : Bool} {mgtAddr : Nat} (h : Keep s t) : Keep s (t.released role half mgtAddr) := by
  unfold State.released
  exact ite_keep (fun _ => h) (fun _ => h.regs (fun r => Rising.forL_put _ _ _ r))

theorem State.clearPage_keep {s t : State} {b : Blk} (h : Keep s t) : Keep s (t.clearPage b) := h.regs (fun r => r.filter _)

theorem State.perst_keep {s t : State} {low : Bool} (h : Keep s t) : Keep s (State.perst t low) := by
  unfold State.perst
  repeat' first
    | with_reducible assumption
    | (with_reducible apply State.wakeLook_keep)
    | (with_reducible apply State.frameBad_keep)
    | (with_reducible apply State.dropRemotes_keep)
    | (with_reducible apply State.clearPage_keep)
    | with_reducible apply forN_keep
    | with_reducible apply ite_keep
    | intro _
    | simp only [Keep.upd_iff]
    | with_reducible apply Keep.use
    | split

theorem State.resetPin_keep {s t : State} {lowNs : Nat} (h : Keep s t) : Keep s (State.resetPin t lowNs) := by
  unfold State.resetPin
  repeat' first
    | with_reducible assumption
    | (with_reducible apply State.fullReset_keep)
    | (with_reducible apply State.cutRecord_keep)
    | (with_reducible apply State.emit_keep)
    | with_reducible apply ite_keep
    | intro _
    | simp only [Keep.upd_iff]
    | with_reducible apply Keep.use
    | split

theorem State.wdogPath_keep {s t : State} {cause : ResetCause} {reason : Nat} (h : Keep s t) : Keep s (State.wdogPath t cause reason) := by
  unfold State.wdogPath
  repeat' first
    | with_reducible assumption
    | (with_reducible apply State.fullReset_keep)
    | (with_reducible apply State.giveUp_keep)
    | with_reducible apply ite_keep
    | intro _
    | simp only [Keep.upd_iff]
    | with_reducible apply Keep.use
    | split

theorem State.passMiss_keep {s t : State} (h : Keep s t) : Keep s (State.passMiss t) := by
  unfold State.passMiss
  repeat' first
    | with_reducible assumption
    | (with_reducible apply State.wr_keep)
    | (with_reducible apply State.count_keep)
    | (with_reducible apply State.giveUp_keep)
    | (with_reducible apply State.raiseEvent_keep)
    | with_reducible apply ite_keep
    | intro _
    | simp only [Keep.upd_iff]
    | with_reducible apply Keep.use
    | split

theorem State.upset_keep {s t : State} {addr : Nat} {bit : Nat} (h : Keep s t) : Keep s (State.upset t addr bit) := by
  unfold State.upset
  repeat' first
    | with_reducible assumption
    | (with_reducible apply State.store_keep)
    | (with_reducible apply State.keepDark_keep)
    | (with_reducible apply State.trvCfgTaken_keep)
    | (with_reducible apply State.wr32_keep)
    | with_reducible apply ite_keep
    | intro _
    | simp only [Keep.upd_iff]
    | with_reducible apply Keep.use
    | split

theorem State.passMatch_keep {s t : State} (h : Keep s t) : Keep s (State.passMatch t) := by
  unfold State.passMatch
  repeat' first
    | with_reducible assumption
    | (with_reducible apply State.wr_keep)
    | with_reducible apply ite_keep
    | intro _
    | simp only [Keep.upd_iff]
    | with_reducible apply Keep.use
    | split

theorem State.passClean_keep {s t : State} {r : Nat} (h : Keep s t) : Keep s (State.passClean t r) := by
  unfold State.passClean
  repeat' first
    | with_reducible assumption
    | (with_reducible apply State.wr_keep)
    | (with_reducible apply State.passMatch_keep)
    | (with_reducible apply State.passMiss_keep)
    | with_reducible apply ite_keep
    | intro _
    | simp only [Keep.upd_iff]
    | with_reducible apply Keep.use
    | split

theorem State.storePageCrcs_keep {s t : State} (h : Keep s t) : Keep s (State.storePageCrcs t) := by
  unfold State.storePageCrcs
  repeat' first
    | with_reducible assumption
    | (with_reducible apply State.wr_keep)
    | with_reducible apply forL_keep
    | with_reducible apply ite_keep
    | intro _
    | simp only [Keep.upd_iff]
    | with_reducible apply Keep.use
    | split

theorem State.passEnd_keep {s t : State} (h : Keep s t) : Keep s (State.passEnd t) := by
  unfold State.passEnd
  repeat' first
    | with_reducible assumption
    | (with_reducible apply State.storePageCrcs_keep)
    | (with_reducible apply State.count_keep)
    | (with_reducible apply State.passClean_keep)
    | with_reducible apply ite_keep
    | intro _
    | simp only [Keep.upd_iff]
    | with_reducible apply Keep.use
    | split

theorem State.takeIn_keep {s t : State} {id : Nat} {c : Cell} (h : Keep s t) : Keep s (State.takeIn t id c) := by
  unfold State.takeIn
  repeat' first
    | with_reducible assumption
    | (with_reducible apply State.receive_keep)
    | (with_reducible refine State.receive_keep_eq ?_ (by assumption))
    | (with_reducible apply State.tileTake_keep)
    | (with_reducible apply State.headTake_keep)
    | with_reducible apply ite_keep
    | intro _
    | simp only [Keep.upd_iff]
    | with_reducible apply Keep.use
    | split

theorem State.autoTake_keep {s t : State} (h : Keep s t) : Keep s (State.autoTake t) := by
  unfold State.autoTake
  repeat' first
    | with_reducible assumption
    | (with_reducible apply State.startTake_keep)
    | with_reducible apply ite_keep
    | intro _
    | simp only [Keep.upd_iff]
    | with_reducible apply Keep.use
    | split

theorem State.resignIn_keep {s t : State} {id : Nat} {c : Cell} (h : Keep s t) : Keep s (State.resignIn t id c) := by
  unfold State.resignIn
  repeat' first
    | with_reducible assumption
    | (with_reducible apply State.receive_keep)
    | (with_reducible refine State.receive_keep_eq ?_ (by assumption))
    | (with_reducible apply State.seeTerm_keep)
    | (with_reducible apply State.autoTake_keep)
    | (with_reducible apply State.count_keep)
    | with_reducible apply ite_keep
    | intro _
    | simp only [Keep.upd_iff]
    | with_reducible apply Keep.use
    | split

theorem State.testCell_keep {s t : State} {id : Nat} {c : Cell} (h : Keep s t) : Keep s (State.testCell t id c) := by
  unfold State.testCell
  repeat' first
    | with_reducible assumption
    | (with_reducible apply State.receive_keep)
    | (with_reducible refine State.receive_keep_eq ?_ (by assumption))
    | (with_reducible apply State.count_keep)
    | (with_reducible apply State.setPort_keep)
    | (with_reducible apply State.bump_keep)
    | with_reducible apply ite_keep
    | intro _
    | simp only [Keep.upd_iff]
    | with_reducible apply Keep.use
    | split

theorem State.codeword_keep {s t : State} {id : Nat} {corrected : List Nat} {uncorrectable : Bool} (h : Keep s t) : Keep s (State.codeword t id corrected uncorrectable) := by
  unfold State.codeword
  repeat' first
    | with_reducible assumption
    | (with_reducible apply State.countRing_keep)
    | (with_reducible apply State.bump_keep)
    | with_reducible apply forL_keep
    | with_reducible apply foldl_keep
    | with_reducible apply ite_keep
    | intro _
    | simp only [Keep.upd_iff]
    | with_reducible apply Keep.use
    | split

theorem State.lockLost_keep {s t : State} {id : Nat} {lane : Nat} (h : Keep s t) : Keep s (State.lockLost t id lane) := by
  unfold State.lockLost
  repeat' first
    | with_reducible assumption
    | (with_reducible apply State.count_keep)
    | (with_reducible apply State.startTraining_keep)
    | (with_reducible apply State.portDown_keep)
    | (with_reducible apply State.portLost_keep)
    | with_reducible apply ite_keep
    | intro _
    | simp only [Keep.upd_iff]
    | with_reducible apply Keep.use
    | split

theorem State.onLane_keep {s t : State} {lane : Nat} {f : Nat → State} (h : Keep s t) (hf : ∀ a, Keep s (f a)) : Keep s (State.onLane t lane f) := by
  unfold State.onLane
  repeat' first
    | with_reducible assumption
    | with_reducible apply hf
    | with_reducible apply ite_keep
    | intro _
    | simp only [Keep.upd_iff]
    | with_reducible apply Keep.use
    | split

theorem State.quietWindow_keep {s t : State} {id : Nat} (h : Keep s t) : Keep s (State.quietWindow t id) := by
  unfold State.quietWindow
  repeat' first
    | with_reducible assumption
    | (with_reducible apply State.testGen_keep)
    | (with_reducible apply State.setPort_keep)
    | with_reducible apply ite_keep
    | intro _
    | simp only [Keep.upd_iff]
    | with_reducible apply Keep.use
    | split

theorem State.quietExit_keep {s t : State} {id : Nat} (h : Keep s t) : Keep s (State.quietExit t id) := by
  unfold State.quietExit
  repeat' first
    | with_reducible assumption
    | (with_reducible apply State.quietWindow_keep)
    | (with_reducible apply State.wr_keep)
    | with_reducible apply forL_keep
    | with_reducible apply ite_keep
    | intro _
    | simp only [Keep.upd_iff]
    | with_reducible apply Keep.use
    | split

theorem State.quietEnter_keep {s t : State} {id : Nat} (h : Keep s t) : Keep s (State.quietEnter t id) := by
  unfold State.quietEnter
  repeat' first
    | with_reducible assumption
    | (with_reducible apply State.wr_keep)
    | with_reducible apply forL_keep
    | with_reducible apply ite_keep
    | intro _
    | simp only [Keep.upd_iff]
    | with_reducible apply Keep.use
    | split

theorem State.quietFollow_keep {s t : State} {id : Nat} {was : Nat} {now : Nat} (h : Keep s t) : Keep s (State.quietFollow t id was now) := by
  unfold State.quietFollow
  repeat' first
    | with_reducible assumption
    | (with_reducible apply State.wr_keep)
    | with_reducible apply forL_keep
    | with_reducible apply ite_keep
    | intro _
    | simp only [Keep.upd_iff]
    | with_reducible apply Keep.use
    | split

theorem State.stageTimeout_keep {s t : State} {id : Nat} {lane : Nat} {reason : Nat} (h : Keep s t) : Keep s (State.stageTimeout t id lane reason) := by
  unfold State.stageTimeout
  repeat' first
    | with_reducible assumption
    | (with_reducible apply State.stageFail_keep)
    | with_reducible apply ite_keep
    | intro _
    | simp only [Keep.upd_iff]
    | with_reducible apply Keep.use
    | split

theorem State.linkChange_keep {s t : State} {id : Nat} {c : Cell} {typ : Nat} (h : Keep s t) : Keep s (State.linkChange t id c typ) := by
  unfold State.linkChange
  repeat' first
    | with_reducible assumption
    | (with_reducible apply State.receive_keep)
    | (with_reducible refine State.receive_keep_eq ?_ (by assumption))
    | (with_reducible apply State.noteBreak_keep)
    | (with_reducible apply State.noteUp_keep)
    | with_reducible apply ite_keep
    | intro _
    | simp only [Keep.upd_iff]
    | with_reducible apply Keep.use
    | split

theorem State.shareAgain_keep {s t : State} {id : Nat} (h : Keep s t) : Keep s (State.shareAgain t id) := by
  unfold State.shareAgain
  repeat' first
    | with_reducible assumption
    | (with_reducible apply State.setPort_keep)
    | (with_reducible apply State.sendShareReq_keep)
    | with_reducible apply ite_keep
    | intro _
    | simp only [Keep.upd_iff]
    | with_reducible apply Keep.use
    | split

theorem State.pace_keep {s t : State} {r : Nat} {e_ : Nat} {b : Bool} (h : Keep s t) : Keep s (State.pace t r e_ b) := by
  unfold State.pace
  repeat' first
    | with_reducible assumption
    | (with_reducible apply State.wrB_keep)
    | with_reducible apply ite_keep
    | intro _
    | simp only [Keep.upd_iff]
    | with_reducible apply Keep.use
    | split

theorem State.shareIn_keep {s t : State} {id : Nat} {c : Cell} (h : Keep s t) : Keep s (State.shareIn t id c) := by
  unfold State.shareIn
  repeat' first
    | with_reducible assumption
    | (with_reducible apply State.receive_keep)
    | (with_reducible refine State.receive_keep_eq ?_ (by assumption))
    | (with_reducible apply State.pace_keep)
    | with_reducible apply ite_keep
    | intro _
    | simp only [Keep.upd_iff]
    | with_reducible apply Keep.use
    | split

theorem State.tileDiscover_keep {s t : State} {id : Nat} {c : Cell} (h : Keep s t) : Keep s (State.tileDiscover t id c) := by
  unfold State.tileDiscover
  repeat' first
    | with_reducible assumption
    | (with_reducible apply State.count_keep)
    | (with_reducible apply State.eastGave_keep)
    | (with_reducible apply State.setNode_keep)
    | with_reducible apply ite_keep
    | intro _
    | simp only [Keep.upd_iff]
    | with_reducible apply Keep.use
    | split

theorem State.headDiscover_keep {s t : State} {id : Nat} {c : Cell} (h : Keep s t) : Keep s (State.headDiscover t id c) := by
  unfold State.headDiscover
  repeat' first
    | with_reducible assumption
    | (with_reducible apply State.wr_keep)
    | with_reducible apply ite_keep
    | intro _
    | simp only [Keep.upd_iff]
    | with_reducible apply Keep.use
    | split

theorem State.discover_keep {s t : State} {id : Nat} {c : Cell} (h : Keep s t) : Keep s (State.discover t id c) := by
  unfold State.discover
  repeat' first
    | with_reducible assumption
    | (with_reducible apply State.receive_keep)
    | (with_reducible refine State.receive_keep_eq ?_ (by assumption))
    | (with_reducible apply State.tileDiscover_keep)
    | (with_reducible apply State.headDiscover_keep)
    | with_reducible apply ite_keep
    | intro _
    | simp only [Keep.upd_iff]
    | with_reducible apply Keep.use
    | split

theorem State.dlyReqIn_keep {s t : State} {id : Nat} {c : Cell} {residence : Nat} (h : Keep s t) : Keep s (State.dlyReqIn t id c residence) := by
  unfold State.dlyReqIn
  repeat' first
    | with_reducible assumption
    | (with_reducible apply State.sendLocal_keep)
    | with_reducible apply ite_keep
    | intro _
    | simp only [Keep.upd_iff]
    | with_reducible apply Keep.use
    | split

theorem State.neighIn_keep {s t : State} {id : Nat} {c : Cell} (h : Keep s t) : Keep s (State.neighIn t id c) := by
  unfold State.neighIn
  repeat' first
    | with_reducible assumption
    | (with_reducible apply State.neighTaken_keep)
    | with_reducible apply ite_keep
    | intro _
    | simp only [Keep.upd_iff]
    | with_reducible apply Keep.use
    | split

theorem State.remeasured_keep {s t : State} {id : Nat} (h : Keep s t) : Keep s (State.remeasured t id) := by
  unfold State.remeasured
  repeat' first
    | with_reducible assumption
    | (with_reducible apply State.wr_keep)
    | with_reducible apply ite_keep
    | intro _
    | simp only [Keep.upd_iff]
    | with_reducible apply Keep.use
    | split

theorem State.dlyRspIn_keep {s t : State} {id : Nat} {c : Cell} {roundTrip : Nat} (h : Keep s t) : Keep s (State.dlyRspIn t id c roundTrip) := by
  unfold State.dlyRspIn
  repeat' first
    | with_reducible assumption
    | (with_reducible apply State.setPort_keep)
    | (with_reducible apply State.remeasured_keep)
    | with_reducible apply ite_keep
    | intro _
    | simp only [Keep.upd_iff]
    | with_reducible apply Keep.use
    | split

theorem State.dlyReqOut_keep {s t : State} {id : Nat} (h : Keep s t) : Keep s (State.dlyReqOut t id) := by
  unfold State.dlyReqOut
  repeat' first
    | with_reducible assumption
    | (with_reducible apply State.sendLocal_keep)
    | (with_reducible apply State.setPort_keep)
    | (with_reducible apply State.remeasured_keep)
    | with_reducible apply ite_keep
    | intro _
    | simp only [Keep.upd_iff]
    | with_reducible apply Keep.use
    | split

theorem State.tileBoundary_keep {s t : State} (h : Keep s t) : Keep s (State.tileBoundary t) := by
  unfold State.tileBoundary
  repeat' first
    | with_reducible assumption
    | (with_reducible apply State.retireSync_keep)
    | (with_reducible apply State.setLay_keep)
    | (with_reducible apply State.calJudge_keep)
    | (with_reducible apply State.setCal_keep)
    | (with_reducible apply State.dramSlots_keep)
    | (with_reducible apply State.calCheck_keep)
    | (with_reducible apply State.scanStart_keep)
    | (with_reducible apply State.pressBoundary_keep)
    | with_reducible apply ite_keep
    | intro _
    | simp only [Keep.upd_iff]
    | with_reducible apply Keep.use
    | split

theorem State.epochEdge_keep {s t : State} (h : Keep s t) : Keep s (State.epochEdge t) := by
  unfold State.epochEdge
  repeat' first
    | with_reducible assumption
    | (with_reducible apply State.applyDelays_keep)
    | (with_reducible apply State.epcBoundary_keep)
    | (with_reducible apply State.sourceBoundary_keep)
    | (with_reducible apply State.ptpSteer_keep)
    | (with_reducible apply State.heardEpoch_keep)
    | (with_reducible apply State.tileBoundary_keep)
    | (with_reducible apply State.windDone_keep)
    | with_reducible apply ite_keep
    | intro _
    | simp only [Keep.upd_iff]
    | with_reducible apply Keep.use
    | split

theorem State.beaconAt_keep {s t : State} {port : Nat} {c : Cell} {arrival : Int} (h : Keep s t) : Keep s (State.beaconAt t port c arrival) := by
  unfold State.beaconAt
  repeat' first
    | with_reducible assumption
    | (with_reducible apply State.receive_keep)
    | (with_reducible refine State.receive_keep_eq ?_ (by assumption))
    | (with_reducible apply State.tileBeacon_keep)
    | (with_reducible apply State.headBeacon_keep)
    | with_reducible apply ite_keep
    | intro _
    | simp only [Keep.upd_iff]
    | with_reducible apply Keep.use
    | split

theorem State.pixelIn_keep {s t : State} {id : Nat} {c : Cell} {loc : Bool} (h : Keep s t) : Keep s (State.pixelIn t id c loc) := by
  unfold State.pixelIn
  repeat' first
    | with_reducible assumption
    | (with_reducible apply State.receive_keep)
    | (with_reducible refine State.receive_keep_eq ?_ (by assumption))
    | (with_reducible apply State.capLocator_keep)
    | (with_reducible apply State.dramSlots_keep)
    | (with_reducible apply State.capPixel_keep)
    | (with_reducible apply State.relayCell_keep)
    | with_reducible apply ite_keep
    | intro _
    | simp only [Keep.upd_iff]
    | with_reducible apply Keep.use
    | split

theorem State.unrelay_keep {s t : State} {e_ : Relayed} (h : Keep s t) : Keep s (State.unrelay t e_) := by
  unfold State.unrelay
  repeat' first
    | with_reducible assumption
    | with_reducible apply ite_keep
    | intro _
    | simp only [Keep.upd_iff]
    | with_reducible apply Keep.use
    | split

theorem State.regRspIn_keep {s t : State} {id : Nat} {c : Cell} (h : Keep s t) : Keep s (State.regRspIn t id c) := by
  unfold State.regRspIn
  repeat' first
    | with_reducible assumption
    | (with_reducible apply State.receive_keep)
    | (with_reducible refine State.receive_keep_eq ?_ (by assumption))
    | (with_reducible apply State.originateSpur_keep)
    | (with_reducible apply State.unrelay_keep)
    | (with_reducible apply State.remoteAnswer_keep)
    | with_reducible apply ite_keep
    | intro _
    | simp only [Keep.upd_iff]
    | with_reducible apply Keep.use
    | split

theorem State.respond_keep {s t : State} {id : Nat} {c : Cell} {err : Bool} {reason : Nat} {data : List Word} (h : Keep s t) : Keep s (State.respond t id c err reason data) := by
  unfold State.respond
  repeat' first
    | with_reducible assumption
    | (with_reducible apply State.originateSpur_keep)
    | (with_reducible apply State.originate_keep)
    | with_reducible apply ite_keep
    | intro _
    | simp only [Keep.upd_iff]
    | with_reducible apply Keep.use
    | split

theorem State.regPerform_keep {s t : State} {id : Nat} {c : Cell} {write : Bool} (h : Keep s t) : Keep s (State.regPerform t id c write) := by
  unfold State.regPerform
  repeat' first
    | with_reducible assumption
    | (with_reducible apply State.count_keep)
    | (with_reducible apply State.respond_keep)
    | (with_reducible apply State.logBerr_keep)
    | (with_reducible apply State.writeDwords_keep)
    | (with_reducible apply State.readDwords_keep)
    | (with_reducible refine State.readDwords_keep_eq ?_ (by assumption))
    | with_reducible apply ite_keep
    | intro _
    | simp only [Keep.upd_iff]
    | with_reducible apply Keep.use
    | split

theorem State.regRelay_keep {s t : State} {c : Cell} {write : Bool} (h : Keep s t) : Keep s (State.regRelay t c write) := by
  unfold State.regRelay
  repeat' first
    | with_reducible assumption
    | (with_reducible apply State.originate_keep)
    | with_reducible apply ite_keep
    | intro _
    | simp only [Keep.upd_iff]
    | with_reducible apply Keep.use
    | split

theorem State.regIn_keep {s t : State} {id : Nat} {c : Cell} {write : Bool} (h : Keep s t) : Keep s (State.regIn t id c write) := by
  unfold State.regIn
  repeat' first
    | with_reducible assumption
    | (with_reducible apply State.receive_keep)
    | (with_reducible refine State.receive_keep_eq ?_ (by assumption))
    | (with_reducible apply State.regRelay_keep)
    | (with_reducible apply State.regPerform_keep)
    | (with_reducible apply State.logBerr_keep)
    | (with_reducible apply State.respond_keep)
    | with_reducible apply ite_keep
    | intro _
    | simp only [Keep.upd_iff]
    | with_reducible apply Keep.use
    | split

theorem State.eventCell_keep {s t : State} {id : Nat} {c : Cell} (h : Keep s t) : Keep s (State.eventCell t id c) := by
  unfold State.eventCell
  repeat' first
    | with_reducible assumption
    | (with_reducible apply State.receive_keep)
    | (with_reducible refine State.receive_keep_eq ?_ (by assumption))
    | (with_reducible apply State.eventIn_keep)
    | with_reducible apply ite_keep
    | intro _
    | simp only [Keep.upd_iff]
    | with_reducible apply Keep.use
    | split

theorem State.bar2_keep {s t : State} {o : Nat} {q : HostReq} (h : Keep s t) : Keep s (State.bar2 t o q) := by
  unfold State.bar2
  repeat' first
    | with_reducible assumption
    | (with_reducible apply State.logBerr_keep)
    | (with_reducible apply State.completerAbort_keep)
    | (with_reducible apply State.pathWrite_keep)
    | (with_reducible apply State.pathRead_keep)
    | (with_reducible apply State.remoteRead_keep)
    | (with_reducible apply State.remoteWrite_keep)
    | with_reducible apply ite_keep
    | intro _
    | simp only [Keep.upd_iff]
    | with_reducible apply Keep.use
    | split

theorem State.remoteTimeout_keep {s t : State} {tag : Nat} (h : Keep s t) : Keep s (State.remoteTimeout t tag) := by
  unfold State.remoteTimeout
  repeat' first
    | with_reducible assumption
    | (with_reducible apply State.remoteEnd_keep)
    | (with_reducible apply State.logBerr_keep)
    | (with_reducible apply State.count_keep)
    | (with_reducible apply State.originateSpur_keep)
    | (with_reducible apply State.unrelay_keep)
    | with_reducible apply ite_keep
    | intro _
    | simp only [Keep.upd_iff]
    | with_reducible apply Keep.use
    | split

theorem State.foldIn_keep {s t : State} {id : Nat} {c : Cell} {typ : Nat} {f : State → State} (h : Keep s t) (hf : ∀ a, Keep s a → Keep s (f a)) : Keep s (State.foldIn t id c typ f) := by
  unfold State.foldIn
  repeat' first
    | with_reducible assumption
    | with_reducible apply hf
    | (with_reducible apply State.receive_keep)
    | (with_reducible refine State.receive_keep_eq ?_ (by assumption))
    | with_reducible apply ite_keep
    | intro _
    | simp only [Keep.upd_iff]
    | with_reducible apply Keep.use
    | split

theorem State.setTurned_keep {s t : State} {id : Nat} {b : Bool} (h : Keep s t) : Keep s (State.setTurned t id b) := by
  unfold State.setTurned
  repeat' first
    | with_reducible assumption
    | (with_reducible apply State.setPort_keep)
    | with_reducible apply ite_keep
    | intro _
    | simp only [Keep.upd_iff]
    | with_reducible apply Keep.use
    | split

theorem State.controlCell_keep {s t : State} {id : Nat} {c : Cell} (h : Keep s t) : Keep s (State.controlCell t id c) := by
  unfold State.controlCell
  repeat' first
    | with_reducible assumption
    | (with_reducible apply State.regIn_keep)
    | (with_reducible apply State.regRspIn_keep)
    | (with_reducible apply State.eventCell_keep)
    | (with_reducible apply State.discover_keep)
    | (with_reducible apply State.linkChange_keep)
    | (with_reducible apply State.shareIn_keep)
    | (with_reducible apply State.resignIn_keep)
    | (with_reducible apply State.takeIn_keep)
    | (with_reducible apply State.foldIn_keep)
    | (with_reducible apply State.foldRx_keep)
    | (with_reducible apply State.foldAcked_keep)
    | (with_reducible apply State.foldFailed_keep)
    | with_reducible apply ite_keep
    | intro _
    | simp only [Keep.upd_iff]
    | with_reducible apply Keep.use
    | split

theorem State.looped_keep {s t : State} {id : Nat} {c : Cell} (h : Keep s t) : Keep s (State.looped t id c) := by
  unfold State.looped
  repeat' first
    | with_reducible assumption
    | (with_reducible apply State.cellIn_keep)
    | (with_reducible apply State.setTurned_keep)
    | (with_reducible apply State.beaconAt_keep)
    | (with_reducible apply State.useFree_keep)
    | (with_reducible apply State.controlCell_keep)
    | (with_reducible apply State.pixelIn_keep)
    | (with_reducible apply State.frameCell_keep)
    | (with_reducible apply State.testCell_keep)
    | with_reducible apply ite_keep
    | intro _
    | simp only [Keep.upd_iff]
    | with_reducible apply Keep.use
    | split

theorem State.cellBoundary_keep {s t : State} {id : Nat} (h : Keep s t) : Keep s (State.cellBoundary t id) := by
  unfold State.cellBoundary
  repeat' first
    | with_reducible assumption
    | (with_reducible apply State.wireIdle_keep)
    | (with_reducible apply State.refill_keep)
    | (with_reducible apply State.boundaryOut_keep)
    | (with_reducible refine State.boundaryOut_keep_eq ?_ (by assumption))
    | (with_reducible apply State.beRefill_keep)
    | (with_reducible apply State.testGen_keep)
    | (with_reducible apply State.foldSent_keep)
    | (with_reducible apply State.looped_keep)
    | with_reducible apply ite_keep
    | intro _
    | simp only [Keep.upd_iff]
    | with_reducible apply Keep.use
    | split

theorem State.lastDis_keep {s t : State} {item : CairnItem} {copy : Nat} (h : Keep s t) : Keep s (State.lastDis t item copy) := by
  unfold State.lastDis
  repeat' first
    | with_reducible assumption
    | (with_reducible apply State.wr_keep)
    | with_reducible apply ite_keep
    | intro _
    | simp only [Keep.upd_iff]
    | with_reducible apply Keep.use
    | split

theorem State.setTri_keep {s t : State} {item : CairnItem} {t_ : Tri} (h : Keep s t) : Keep s (State.setTri t item t_) := by
  unfold State.setTri
  repeat' first
    | with_reducible assumption
    | with_reducible apply ite_keep
    | intro _
    | simp only [Keep.upd_iff]
    | with_reducible apply Keep.use
    | split

theorem State.copies_keep {s t : State} {item : CairnItem} {c0 : Nat} {c1 : Nat} {c2 : Nat} {again : Bool} (h : Keep s t) : Keep s (State.copies t item c0 c1 c2 again) := by
  unfold State.copies
  repeat' first
    | with_reducible assumption
    | (with_reducible apply State.cairnDisagree_keep)
    | (with_reducible apply State.lastDis_keep)
    | (with_reducible apply State.count_keep)
    | (with_reducible apply State.setTri_keep)
    | with_reducible apply ite_keep
    | intro _
    | simp only [Keep.upd_iff]
    | with_reducible apply Keep.use
    | split

theorem State.darnDone_keep {s t : State} {h_ : Nat} (h : Keep s t) : Keep s (State.darnDone t h_) := by
  unfold State.darnDone
  repeat' first
    | with_reducible assumption
    | (with_reducible apply State.darnEnd_keep)
    | (with_reducible apply State.windDone_keep)
    | with_reducible apply ite_keep
    | intro _
    | simp only [Keep.upd_iff]
    | with_reducible apply Keep.use
    | split

theorem State.configReq_keep {s t : State} {fn : Nat} {op : CfgOp} (h : Keep s t) : Keep s (State.configReq t fn op) := by
  unfold State.configReq
  repeat' first
    | with_reducible assumption
    | (with_reducible apply State.emit_keep)
    | (with_reducible apply State.cfgWrite_keep)
    | with_reducible apply ite_keep
    | intro _
    | simp only [Keep.upd_iff]
    | with_reducible apply Keep.use
    | split

theorem State.pcieLink_keep {s t : State} {st : Nat} {speed : Nat} {width : Nat} {l1ss : Nat} (h : Keep s t) : Keep s (State.pcieLink t st speed width l1ss) := by
  unfold State.pcieLink
  repeat' first
    | with_reducible assumption
    | (with_reducible apply State.wakeLook_keep)
    | (with_reducible apply State.wr_keep)
    | with_reducible apply ite_keep
    | intro _
    | simp only [Keep.upd_iff]
    | with_reducible apply Keep.use
    | split

theorem State.dmaTimeout_keep {s t : State} {ch : Nat} (h : Keep s t) : Keep s (State.dmaTimeout t ch) := by
  unfold State.dmaTimeout
  repeat' first
    | with_reducible assumption
    | (with_reducible apply State.aer_keep)
    | (with_reducible apply State.count_keep)
    | (with_reducible apply State.jobAnew_keep)
    | (with_reducible apply State.jobEnd_keep)
    | with_reducible apply ite_keep
    | intro _
    | simp only [Keep.upd_iff]
    | with_reducible apply Keep.use
    | split

theorem State.latchInstant_keep {s t : State} (h : Keep s t) : Keep s (State.latchInstant t) := by
  unfold State.latchInstant
  repeat' first
    | with_reducible assumption
    | (with_reducible apply State.layersLatch_keep)
    | (with_reducible apply State.swapScan_keep)
    | (with_reducible refine State.swapScan_keep_eq ?_ (by assumption))
    | (with_reducible apply State.mendLatch_keep)
    | (with_reducible apply State.darnSwap_keep)
    | (with_reducible apply State.scanLatch_keep)
    | (with_reducible apply State.lampLatch_keep)
    | (with_reducible apply State.phaseStep_keep)
    | (with_reducible apply State.windDone_keep)
    | (with_reducible apply State.setLay_keep)
    | with_reducible apply ite_keep
    | intro _
    | simp only [Keep.upd_iff]
    | with_reducible apply Keep.use
    | split

theorem State.pressOp_keep {s t : State} {h_ : Nat} {op : Nat} {f : State → Nat → State} (h : Keep s t) (hf : ∀ a b, Keep s a → Keep s (f a b)) : Keep s (State.pressOp t h_ op f) := by
  unfold State.pressOp
  repeat' first
    | with_reducible assumption
    | with_reducible apply hf
    | (with_reducible refine State.fetchPress_keep_error ?_ (by assumption))
    | (with_reducible refine State.fetchPress_keep ?_ (by assumption))
    | with_reducible apply ite_keep
    | intro _
    | simp only [Keep.upd_iff]
    | with_reducible apply Keep.use
    | split

theorem State.pressOrder_keep {s t : State} {h_ : Nat} (h : Keep s t) : Keep s (State.pressOrder t h_) := by
  unfold State.pressOrder
  repeat' first
    | with_reducible assumption
    | (with_reducible apply State.issueOrder_keep)
    | (with_reducible apply State.pressOp_keep)
    | (with_reducible apply State.setPress_keep)
    | with_reducible apply ite_keep
    | intro _
    | simp only [Keep.upd_iff]
    | with_reducible apply Keep.use
    | split

theorem State.pressBlend_keep {s t : State} {h_ : Nat} (h : Keep s t) : Keep s (State.pressBlend t h_) := by
  unfold State.pressBlend
  repeat' first
    | with_reducible assumption
    | (with_reducible apply State.pressOp_keep)
    | (with_reducible apply State.pressNext_keep)
    | (with_reducible apply State.setPress_keep)
    | with_reducible apply ite_keep
    | intro _
    | simp only [Keep.upd_iff]
    | with_reducible apply Keep.use
    | split

theorem State.pressEnd_keep {s t : State} {h_ : Nat} (h : Keep s t) : Keep s (State.pressEnd t h_) := by
  unfold State.pressEnd
  repeat' first
    | with_reducible assumption
    | (with_reducible apply State.pressOp_keep)
    | (with_reducible apply State.listError_keep)
    | (with_reducible apply State.pressFinish_keep)
    | (with_reducible apply State.setPress_keep)
    | with_reducible apply ite_keep
    | intro _
    | simp only [Keep.upd_iff]
    | with_reducible apply Keep.use
    | split

theorem State.pressFlat_keep {s t : State} {h_ : Nat} (h : Keep s t) : Keep s (State.pressFlat t h_) := by
  unfold State.pressFlat
  repeat' first
    | with_reducible assumption
    | (with_reducible apply State.pressOp_keep)
    | (with_reducible apply State.listError_keep)
    | (with_reducible apply State.pressNext_keep)
    | (with_reducible apply State.setPress_keep)
    | with_reducible apply ite_keep
    | intro _
    | simp only [Keep.upd_iff]
    | with_reducible apply Keep.use
    | split

theorem State.pressWaitl_keep {s t : State} {h_ : Nat} (h : Keep s t) : Keep s (State.pressWaitl t h_) := by
  unfold State.pressWaitl
  repeat' first
    | with_reducible assumption
    | (with_reducible apply State.pressOp_keep)
    | (with_reducible apply State.pressRelease_keep)
    | (with_reducible apply State.setPress_keep)
    | with_reducible apply ite_keep
    | intro _
    | simp only [Keep.upd_iff]
    | with_reducible apply Keep.use
    | split

theorem State.pressCond_keep {s t : State} {h_ : Nat} (h : Keep s t) : Keep s (State.pressCond t h_) := by
  unfold State.pressCond
  repeat' first
    | with_reducible assumption
    | (with_reducible apply State.pressOp_keep)
    | (with_reducible apply State.pressNext_keep)
    | (with_reducible apply State.setPress_keep)
    | with_reducible apply ite_keep
    | intro _
    | simp only [Keep.upd_iff]
    | with_reducible apply Keep.use
    | split

theorem State.pressLayer_keep {s t : State} {h_ : Nat} (h : Keep s t) : Keep s (State.pressLayer t h_) := by
  unfold State.pressLayer
  repeat' first
    | with_reducible assumption
    | (with_reducible apply State.pressOp_keep)
    | (with_reducible apply State.pressNext_keep)
    | (with_reducible apply State.issueStep_keep)
    | with_reducible apply ite_keep
    | intro _
    | simp only [Keep.upd_iff]
    | with_reducible apply Keep.use
    | split

theorem State.pressSync_keep {s t : State} {h_ : Nat} (h : Keep s t) : Keep s (State.pressSync t h_) := by
  unfold State.pressSync
  repeat' first
    | with_reducible assumption
    | (with_reducible apply State.pressOp_keep)
    | (with_reducible apply State.pressRelease_keep)
    | (with_reducible apply State.setPress_keep)
    | with_reducible apply ite_keep
    | intro _
    | simp only [Keep.upd_iff]
    | with_reducible apply Keep.use
    | split

theorem State.pressWindow_keep {s t : State} {h_ : Nat} (h : Keep s t) : Keep s (State.pressWindow t h_) := by
  unfold State.pressWindow
  repeat' first
    | with_reducible assumption
    | (with_reducible apply State.pressOp_keep)
    | (with_reducible apply State.pressNext_keep)
    | (with_reducible apply State.setPress_keep)
    | with_reducible apply ite_keep
    | intro _
    | simp only [Keep.upd_iff]
    | with_reducible apply Keep.use
    | split

theorem State.pressJump_keep {s t : State} {h_ : Nat} (h : Keep s t) : Keep s (State.pressJump t h_) := by
  unfold State.pressJump
  repeat' first
    | with_reducible assumption
    | (with_reducible apply State.pressOp_keep)
    | (with_reducible apply State.setPress_keep)
    | (with_reducible apply State.pressNext_keep)
    | with_reducible apply ite_keep
    | intro _
    | simp only [Keep.upd_iff]
    | with_reducible apply Keep.use
    | split

theorem State.spurIn_keep {s t : State} {id : Nat} {c : Cell} {typ : Nat} {f : State → State} (h : Keep s t) (hf : ∀ a, Keep s a → Keep s (f a)) : Keep s (State.spurIn t id c typ f) := by
  unfold State.spurIn
  repeat' first
    | with_reducible assumption
    | with_reducible apply hf
    | (with_reducible apply State.receive_keep)
    | (with_reducible refine State.receive_keep_eq ?_ (by assumption))
    | with_reducible apply ite_keep
    | intro _
    | simp only [Keep.upd_iff]
    | with_reducible apply Keep.use
    | split

theorem State.trainCmd_keep {s t : State} {path : Path} {view : View} {ch : Nat} {op : Nat} (h : Keep s t) : Keep s (State.trainCmd t path view ch op) := by
  unfold State.trainCmd
  repeat' first
    | with_reducible assumption
    | (with_reducible apply State.pathWrite_keep)
    | with_reducible apply ite_keep
    | intro _
    | simp only [Keep.upd_iff]
    | with_reducible apply Keep.use
    | split

end Sys2Proof.Machine
end

