-- ==== Sys2Proof/Machine/Pads.lean ====
section
/-! DEFINITION. The pads of each build and where they lie (R416, R417). They hold no state: what drives them and what they show is in the pins,
the outputs and the registers of State. -/

namespace Sys2Proof.Machine

/-- A pad: its name as the table of R416 writes it, without the index, and its index within that name. -/
structure Pad where
  name : String
  index : Nat
  deriving DecidableEq, Repr

/-- `n` pads of one name, their indices counted from `i0`. -/
def padsFrom (name : String) (i0 n : Nat) : List Pad := (List.range n).map (fun i => { name := name, index := i0 + i })

/-- `n` pads of one name. -/
def padsOf (name : String) (n : Nat) : List Pad := padsFrom name 0 n

/-- One pad of each name. -/
def padsEach (l : List String) : List Pad := l.map (fun s => { name := s, index := 0 })

/-- Chopper, current-sense and voltage-sense pads of half `k` and its pads of VROW, VDD_SNK and VSS, in region order (R417). The two pads of a sense
pair stand side by side. DEDUCED, log entry 137. -/
def railPads (x : String) (k : Nat) : List Pad :=
  padsEach ((["R", "G", "B"].map (fun c => "CH" ++ x ++ "_" ++ c ++ "_HG")) ++ (["R", "G", "B"].map (fun c => "CH" ++ x ++ "_" ++ c ++ "_LG")) ++
    (["R", "G", "B"].flatMap (fun c => ["CS" ++ x ++ "_" ++ c ++ "_P", "CS" ++ x ++ "_" ++ c ++ "_N"])) ++
    (["R", "G", "B"].flatMap (fun c => ["VS" ++ x ++ "_" ++ c ++ "_LS", "VS" ++ x ++ "_" ++ c ++ "_RS"]))) ++
  padsOf ("VROW_" ++ x) 4 ++ padsFrom "VDD_SNK" (12 * k) 12 ++ padsFrom "VSS" (30 * k) 30

/-- The signal pads of R416 that both builds have after the lanes and the PCIe pads, in the order of its table. -/
def commonPads : List Pad :=
  ["SP_TXP", "SP_TXN", "SP_RXP", "SP_RXN"].flatMap (fun n => padsOf n 2) ++
    padsEach ["REFCLK_P", "REFCLK_N", "XTAL_IN", "XTAL_OUT", "RESET_N", "WAKE", "RAIL_EN", "RAIL_PG", "MSCL", "MSDA", "STRAP_ROLE", "STRAP_HALF"] ++
    padsOf "STRAP_ADDR" 7 ++ padsOf "GPIO" 8 ++ padsEach ["AVS_CLK", "AVS_MDATA", "AVS_SDATA", "DBG_CLK", "DBG_IO"]

/-- The always-on and switched supplies of both builds, by count (R416). -/
def supplyPads (counts : List Nat) : List Pad :=
  (["VDD_CORE", "VDD_SRAM", "VDD_IO", "VDD_LNE", "VDD_LNEH", "VDD1", "VDD2H", "VDD2L", "VDDQ"].zip counts).flatMap (fun e => padsOf e.1 e.2)

/-- The pads of the region that is filled in order: rows 3 to 46 of the head, rows 17 to 24 of the tile (R417). -/
def centrePads (b : Build) : List Pad :=
  match b with
  | .head =>
    ["PE_TXP", "PE_TXN", "PE_RXP", "PE_RXN"].flatMap (fun n => padsOf n 8) ++ padsEach ["PERST_N", "CLKREQ_N"] ++ commonPads ++
      supplyPads [520, 80, 16, 120, 48, 12, 48, 32, 32] ++ padsOf "VSS" 1100 ++ padsOf "NC" 30
  | .tile =>
    ["LN_TXP", "LN_TXN", "LN_RXP", "LN_RXN"].flatMap (fun n => padsOf n 8) ++ commonPads ++
      supplyPads [48, 12, 8, 8, 4, 4, 12, 8, 8] ++ padsFrom "VSS" 60 120 ++ padsOf "NC" 16

/-- The edge of the grid, and the place of a pad in a region of columns `c0` to `c1` filled row by row from row `r0` (R417). -/
def gridSize (b : Build) : Nat := match b with | .head => 48 | .tile => 40

def filled (l : List Pad) (r0 c0 c1 row col : Nat) : Option Pad := l[(row - r0) * (c1 + 1 - c0) + (col - c0)]?

/-- A half's quarter of the tile's grid: sinks, rows, and the chopper and sense group, from row `r0` on (R417). -/
def halfPad (r0 sink0 : Nat) (x : String) (row col : Nat) : Option Pad :=
  if col ≤ 32 then some { name := "SNK", index := sink0 + 32 * (row - r0) + (col - 1) }
  else if col ≤ 36 then some { name := "ROW" ++ x, index := 4 * (row - r0) + (col - 33) }
  else filled (railPads x (sink0 / 512)) r0 37 40 row col

/-- The pad at a row and column, both counted from 1 at the pin-1 corner (R417). -/
def padAt (b : Build) (row col : Nat) : Option Pad :=
  if row = 0 ∨ col = 0 ∨ gridSize b < row ∨ gridSize b < col then none
  else match b with
    | .head =>
      if row = 1 then some { name := "LN_TXP", index := col - 1 }
      else if row = 2 then some { name := "LN_TXN", index := col - 1 }
      else if row = 47 then some { name := "LN_RXP", index := col - 1 }
      else if row = 48 then some { name := "LN_RXN", index := col - 1 }
      else filled (centrePads .head) 3 1 48 row col
    | .tile =>
      if row ≤ 16 then halfPad 1 0 "W" row col
      else if row ≤ 24 then filled (centrePads .tile) 17 1 40 row col
      else halfPad 25 512 "E" row col

/-- How many pads a build has (R416). -/
def padCount (b : Build) : Nat :=
  match b with
  | .head => 192 + (centrePads .head).length
  | .tile => 1024 + 128 + (railPads "W" 0).length + (railPads "E" 1).length + (centrePads .tile).length

end Sys2Proof.Machine
end

