-- ==== Sys2Proof/WellFormed.lean ====
section
/-! DEFINITION. Which commands are well formed: the operands fit the fields and the indexes the spec gives them. `exec` is total; a
command that is not well formed names something no device has. -/

namespace Sys2Proof

/-- A Ridge port of either build: an end of a ring port (R21) or a Spur port (R344). -/
def portWf (port : Nat) : Bool := port < 28

/-- A ring port (R21, R86). -/
def ringWf (ring : Nat) : Bool := ring < 12

/-- A lane: LNE0 to LNE5 hold eight each (R86). -/
def laneWf (lane : Nat) : Bool := lane < 48

/-- A side port (R348). -/
def sideWf (port : Nat) : Bool := port < 2

/-- A lamp rail (R236). -/
def railWf (rail : Nat) : Bool := rail < 6

/-- A DRAM channel (R363). -/
def chanWf (ch : Nat) : Bool := ch < 4

/-- An ingest channel (R114), and an event queue (R343). -/
def ingestWf (ch : Nat) : Bool := ch < 16

/-- A lamp of a half: sink and row (R171). -/
def lampWf (sink row : Nat) : Bool := sink < 512 && row < 64

/-- An address of the 2 MiB map (R86). -/
def addrWf (addr : Nat) : Bool := addr < 2097152

/-- The byte enables of a request of `n` dwords, four for each (R55), and the dword of a doorbell (R334). -/
def beWf (n be : Nat) : Bool := be < 16 ^ n
def idxWf (idx : Nat) : Bool := idx < 4294967296

/-- A request carries 1 to 128 dwords (R55). -/
def burstWf (n : Nat) : Bool := 1 ≤ n && n ≤ 128

/-- The fields of a cell's header, its payload and its trailer (R284, R285). -/
def Cell.wf (c : Cell) : Bool :=
  c.cls < 4 && c.dir < 2 && c.hops < 128 && c.seq < 65536 && c.dest < 65536 && c.src < 65536 && c.stream < 1024 && c.typ < 64 &&
    c.aux < 256 && c.hcrc < 256 && c.payload.length ≤ 256 && c.trailer < 4294967296

/-- The dwords of an ingest descriptor (R114). -/
def Descriptor.wf (d : Descriptor) : Bool :=
  d.addrLo < 4294967296 && d.addrHi < 4294967296 && d.length < 4294967296 && d.dstLo < 4294967296 && d.dstHi < 4294967296 &&
    d.flags < 4294967296 && d.last < 4294967296

/-- A signed image names one of the four key slots (R106, R107). -/
def ImageCheck.wf (i : ImageCheck) : Bool := i.keySlot < 4

def KeyRecord.wf (r : KeyRecord) : Bool := r.image.wf

/-- A lane PLL serves eight lanes of 48 (R90). -/
def Pll.wf : Pll → Bool
  | .lane n => n < 6
  | _ => true

def CairnItem.wf : CairnItem → Bool
  | .term r => ringWf r
  | _ => true

def DebugAccess.wf : DebugAccess → Bool
  | .read a => addrWf a
  | .write a _ => addrWf a
  | _ => true

def HostReq.wf (r : HostReq) : Bool := if r.write then burstWf r.data.length && beWf r.data.length r.be else burstWf r.count

/-- A request of the DRAM's requesters carries one burst of 32 bytes (R364). -/
def DramReq.wf (r : DramReq) : Bool := r.requester < 16 && (!r.write || r.data.length = 32) && r.tag = 0

def StageInfo.wf (i : StageInfo) : Bool := i.laneIndex < 256

def RowObs.wf (o : RowObs) : Bool := o.pins.all (fun p => p.1 < 512) && o.badPads.all (fun r => r < 64) && o.loadFail.all (fun d => d < 2)

/-- Currents of a chopper are Q1.15 (R241). -/
def ChopMeas.wf (m : ChopMeas) : Bool :=
  -32768 ≤ m.current && m.current ≤ 32767 && -32768 ≤ m.peak && m.peak ≤ 32767 && -32768 ≤ m.valley && m.valley ≤ 32767

/-- An access to BAR4, of 64 KiB (R333, R334). -/
def Bar4.wf (a : Bar4) : Bool :=
  match a with
  | .bell idx be => idxWf idx && beWf 1 be
  | .access off req => off < 65536 && 1 ≤ req.count && (!req.write || req.data.length = req.count)

/-- A BAR has an even number (R333). -/
def CfgReg.wf (r : CfgReg) : Bool := match r with | .bar n => n = 0 || n = 2 || n = 4 | _ => true

def CfgOp.wf (o : CfgOp) : Bool := match o with | .read r => r.wf | .write r v => r.wf && decide (v < 18446744073709551616)

/-- A PTP domain is a byte (R355). -/
def PtpMessage.wf (m : PtpMessage) : Bool := match m with | .announce d => d < 256 | .sync d _ => d < 256 | .event => true | .other => true

/-- A well-formed command. -/
def Instr.wf : Instr → Bool
  | .registerWrite _ addr data be => addrWf addr && burstWf data.length && beWf data.length be
  | .memoryWindowWrite _ addr data be => addrWf addr && burstWf data.length && beWf data.length be
  | .pageLock _ addr _ => addrWf addr
  | .enable _ addr _ => addrWf addr
  | .disable _ addr _ => addrWf addr
  | .drainDone addr => addrWf addr
  | .counter64LowRead _ addr => addrWf addr
  | .cckPassEnd => true
  | .cckSnap _ _ => true
  | .cckRefWrite _ _ _ => true
  | .cckEnWrite _ _ _ => true
  | .memoryClearDone => true
  | .refDetect _ _ => true
  | .refLoss => true
  | .pllEnable _ _ _ => true
  | .pllLock pll => pll.wf
  | .pllLockLoss pll => pll.wf
  | .toRoot _ _ => true
  | .toRc _ _ => true
  | .clockSwitchDone => true
  | .powerOnReset => true
  | .resetPin _ => true
  | .resetRelease _ _ mgtAddr => mgtAddr < 128
  | .arm _ _ => true
  | .armExpire => true
  | .full _ _ => true
  | .fullReset => true
  | .watchdogExpiry => true
  | .lockstepMismatch => true
  | .wdogKick _ _ => true
  | .wdogCfgWrite _ _ _ => true
  | .perstN _ => true
  | .pllLockTimeout => true
  | .slotVerifyDone a b => a.wf && b.wf
  | .loadDataWrite _ _ _ => true
  | .loadVerify _ _ => true
  | .loadVerifyDone img => img.wf
  | .keyRecordApply record => record.wf
  | .ryupelImageVerify img _ => img.wf
  | .debugAccess acc => acc.wf
  | .epochBoundary => true
  | .beaconSend => true
  | .beacon port cell _ => portWf port && cell.wf
  | .epcLocked => true
  | .phaseStep => true
  | .epcPeriodWrite _ _ _ => true
  | .dmaDoorbell head ch acc descs => (match head with | some h => decide (h < 64) | none => true) && ingestWf ch && acc.wf && descs.all (fun d => d.wf)
  | .dmaDescriptorDone ch _ _ => ingestWf ch
  | .dmaReadTimeout ch => ingestWf ch
  | .st2110Packet port _ => sideWf port
  | .sendDeadline src ring => src < 80 && ringWf ring
  | .codeword port _ _ => portWf port
  | .cellForward port cell => portWf port && cell.wf
  | .idle port => portWf port
  | .pixelCell port cell => portWf port && cell.wf
  | .locator port cell => portWf port && cell.wf
  | .regRd port cell => portWf port && cell.wf
  | .regWr port cell => portWf port && cell.wf
  | .regRsp port cell => portWf port && cell.wf
  | .remoteTimeout tag => tag < 256
  | .event port cell => portWf port && cell.wf
  | .evqHoldoffExpire q => ingestWf q
  | .evqDoorbell q acc => ingestWf q && acc.wf
  | .discover port cell => portWf port && cell.wf
  | .ringDiscover _ _ ring => ringWf ring
  | .neigh port cell => portWf port && cell.wf
  | .dlyReq port cell _ => portWf port && cell.wf
  | .dlyRsp port cell _ => portWf port && cell.wf
  | .delayMeasureStart port => portWf port
  | .remeasure _ _ ring => ringWf ring
  | .dlyReqSend port => portWf port
  | .linkdown port cell => portWf port && cell.wf
  | .linkup port cell => portWf port && cell.wf
  | .shareReq port cell => portWf port && cell.wf
  | .shareReqRepeat port => portWf port
  | .pacingExpire port => portWf port
  | .cellBoundary port => portWf port
  | .test port cell => portWf port && cell.wf
  | .laneStageDone lane info => laneWf lane && info.wf
  | .stageTimeout lane reason => laneWf lane && reason < 16
  | .portRetry port => portWf port
  | .lossOfLock lane => laneWf lane
  | .quietEnter port _ => portWf port
  | .quietRefresh port => portWf port
  | .quietExit port _ => portWf port
  | .cairnCopyDisagree item _ _ _ _ => item.wf
  | .listenEnd ring => ringWf ring
  | .cmdResign _ _ => true
  | .resign port cell => portWf port && cell.wf
  | .cmdTake _ _ => true
  | .beaconLossTakeover => true
  | .foldCheckDone => true
  | .takeoverComplete => true
  | .take port cell => portWf port && cell.wf
  | .foldCommit _ _ => true
  | .foldPeriod => true
  | .foldCaptureDone => true
  | .foldData port cell => portWf port && cell.wf
  | .foldAck port cell => portWf port && cell.wf
  | .foldNack port cell => portWf port && cell.wf
  | .foldAckTimeout => true
  | .foldVerify _ _ => true
  | .foldVerifyDone => true
  | .bar2Request offset req => offset < 268435456 && req.wf
  | .apertureWrite _ _ a _ => a < 128
  | .hostRd port cell _ _ => portWf port && cell.wf
  | .hostCpl port cell => portWf port && cell.wf
  | .hostWr port cell => portWf port && cell.wf
  | .doorbell port cell => portWf port && cell.wf
  | .ethFrame port fr => sideWf port && (match fr.ptp with | some f => decide (f.dstIp < 4294967296) && f.msg.wf | none => true)
  | .frame port cell => portWf port && cell.wf
  | .cpTxDoorbell idx be _ => idxWf idx && beWf 1 be
  | .cpRxDoorbell idx be => idxWf idx && beWf 1 be
  | .ptpMessage port msg => sideWf port && msg.wf
  | .ptpAnnounceTimeout => true
  | .mgtWrite addr count _ _ => addr < 16777216 && count < 256
  | .mgtRead addr len => addr < 16777216 && len.count < 256
  | .mgtSclTimeout => true
  | .mgtWakeTimeout => true
  | .dramRequest req => req.wf
  | .selfRefreshIdle ch => chanWf ch
  | .dramReadDone ch _ => chanWf ch
  | .trefi ch => chanWf ch
  | .refreshIssue ch => chanWf ch
  | .mr4Read ch value _ _ => chanWf ch && value < 256
  | .refreshWindowEnd ch => chanWf ch
  | .pointRd _ _ ch => chanWf ch
  | .pointWr _ _ ch => chanWf ch
  | .cbt _ _ ch => chanWf ch
  | .wckLevel _ _ ch => chanWf ch
  | .mrw _ _ ch => chanWf ch
  | .mrr _ _ ch => chanWf ch
  | .trainCommit _ _ ch => chanWf ch
  | .abandon _ _ ch => chanWf ch
  | .trainPointDone ch _ _ => chanWf ch
  | .sensorConversion sensor _ => sensor < 12
  | .calRun _ _ => true
  | .calAbort _ _ => true
  | .calSlice _ => true
  | .calApply => true
  | .pwrGo _ _ target => target < 4
  | .blockPark _ => true
  | .delayLimit => true
  | .wakeArm => true
  | .wake _ _ => true
  | .railPgRise _ => true
  | .wakeTimeout => true
  | .wakeRetry => true
  | .restore _ _ => true
  | .restoreDone => true
  | .railEnAssert => true
  | .railPgFall => true
  | .rowSlot _ obs => obs.wf
  | .probe _ sink row _ => lampWf sink row
  | .lampAgeOut _ sink row => lampWf sink row
  | .latchInstant => true
  | .pairTest _ pair _ => pair < 511
  | .leakTest _ _ _ => true
  | .nbRestore _ _ _ dword _ => dword < 16
  | .sinkDieCheckDone _ _ _ => true
  | .derateUpdate => true
  | .lyrCommit _ _ _ _ => true
  | .lyrTouch _ _ _ _ => true
  | .scnGo _ _ _ => true
  | .pressEnd _ => true
  | .pressLayer _ => true
  | .pressOrder _ => true
  | .pressBlend _ => true
  | .pressWindow _ => true
  | .pressFlat _ => true
  | .pressWaitl _ => true
  | .pressSync _ => true
  | .pressWaitRelease _ => true
  | .pressJump _ => true
  | .pressCond _ => true
  | .datapathStep _ _ => true
  | .darnRunEnd _ => true
  | .drnLoad _ _ _ => true
  | .drnLoadDone _ => true
  | .drnVerify _ _ _ => true
  | .drnVerifyDone _ => true
  | .mapCheckDone _ => true
  | .slotDue slot => slot < 24
  | .loopRunStart _ => true
  | .loopLd => true
  | .loopSt => true
  | .loopMac => true
  | .loopMsub => true
  | .loopSat => true
  | .loopLim => true
  | .loopSelmin => true
  | .loopTrk => true
  | .loopTab => true
  | .loopFf => true
  | .loopOut => true
  | .loopWait => true
  | .loopHalt => true
  | .lopRestart _ _ _ => true
  | .lopCheckDone => true
  | .headroomReport _ rail _ => rail < 3
  | .ffEntry rail => railWf rail
  | .chopOnEnd rail meas => railWf rail && meas.wf
  | .chopOffEnd rail meas => railWf rail && meas.wf
  | .chopCycleLimit rail meas => railWf rail && meas.wf
  | .overcurrent rail meas => railWf rail && meas.wf
  | .overvoltage rail => railWf rail.rail
  | .ovRecover rail _ => railWf rail
  | .traverseClock dup => dup.all (fun g => g < 4)
  | .trvStop _ _ _ => true
  | .trvReload _ _ _ => true
  | .kernelLoadDone src => src < 16
  | .registerRead _ addr count => addrWf addr && burstWf count
  | .configurationRequest fn op => fn < 2 && op.wf
  | .pcieLinkState st speed width l1ss => st < 5 && speed < 6 && width < 9 && l1ss < 3
  | .sidePortLink port _ _ _ => sideWf port
  | .configurationUpset addr bit => addrWf addr && bit < 32

end Sys2Proof
end

