-- ==== Sys2Proof/Tests/Slice0.lean ====
section
/-! SUPPORT. Tests. The ill-formed commands that the checks refuse, a few one-step examples of the spec, and for each statement concrete
states and operands that meet the hypotheses of its clauses. -/

namespace Sys2Proof.Tests

set_option maxRecDepth 200000
set_option Elab.async false

open Sys2Proof Sys2Proof.Machine

/-! ### Commands that name nothing a device has -/

/-- A cell with a class, a payload and a trailer. -/
def ill (cls trailer : Nat) (n : Nat) : Cell :=
  { cls := cls, dir := 0, hops := 0, loc := false, bcast := false, sync := false, rsp := false, err := false, seq := 0, dest := 0,
    src := 0, stream := 0, typ := 0, aux := 0, hcrc := 0, payload := List.replicate n 0, trailer := trailer, uncorr := false }

/-- A descriptor whose first dword is `a`. -/
def illD (a : Nat) : Descriptor := { addrLo := a, addrHi := 0, length := 0, dstLo := 0, dstHi := 0, flags := 0, last := 0 }

/-- An image that claims a key slot. -/
def illI (slot : Nat) : ImageCheck := { present := true, firmware := true, version := 0, keySlot := slot, keyDigest := 0, sigOk := true }

/-- A measurement with a current. -/
def illM (c : Int) : ChopMeas := { current := c, phaseNs := 0, cycleNs := 0, peak := 0, valley := 0 }

/-- A stage report that names a lane. -/
def illS (n : Nat) : StageInfo := { inverted := false, laneIndex := n, farPrecode := false, eye := 0, pre := 0, main := 0, post := 0, farReady := false }

theorem test_refused_addresses :
    (Instr.registerWrite .kryty 2097152 [0] 15).wf = false ∧ (Instr.memoryWindowWrite .kryty 0x100000 [0] 16).wf = false ∧
    (Instr.registerWrite .kryty 0 [] 0).wf = false ∧ (Instr.registerRead .pcie 0 129).wf = false ∧ (Instr.drainDone 2097152).wf = false ∧
    (Instr.debugAccess (.read 2097152)).wf = false ∧ (Instr.mgtWrite 16777216 0 [] none).wf = false ∧
    (Instr.bar2Request 268435456 ⟨false, [], 1, 0⟩).wf = false ∧ (Instr.bar2Request 0 ⟨true, [], 1, 0⟩).wf = false ∧
    (Instr.configurationUpset 0 32).wf = false := by decide

theorem test_refused_numbers :
    (Instr.pllLock (.lane 6)).wf = false ∧ (Instr.resetRelease false false 128).wf = false ∧ (Instr.sendDeadline 80 0).wf = false ∧
    (Instr.sendDeadline 0 12).wf = false ∧ (Instr.remoteTimeout 256).wf = false ∧ (Instr.evqHoldoffExpire 16).wf = false ∧
    (Instr.dlyReqSend 28).wf = false ∧ (Instr.lossOfLock 48).wf = false ∧ (Instr.stageTimeout 0 16).wf = false ∧
    (Instr.laneStageDone 0 (illS 256)).wf = false ∧ (Instr.cairnCopyDisagree (.term 12) 0 0 0 0).wf = false ∧ (Instr.trefi 4).wf = false ∧
    (Instr.mr4Read 0 256 false false).wf = false ∧ (Instr.slotDue 24).wf = false ∧ (Instr.ffEntry 6).wf = false ∧
    (Instr.lampAgeOut .w 512 0).wf = false ∧ (Instr.lampAgeOut .w 0 64).wf = false ∧ (Instr.kernelLoadDone 16).wf = false ∧
    (Instr.traverseClock [4]).wf = false ∧ (Instr.pwrGo .kryty .base 4).wf = false := by decide

theorem test_refused_contents :
    (Instr.test 0 (ill 4 0 0)).wf = false ∧ (Instr.test 0 (ill 0 4294967296 0)).wf = false ∧ (Instr.test 0 (ill 0 0 257)).wf = false ∧
    (Instr.dmaDoorbell none 0 (.bell 0 15) [illD 4294967296]).wf = false ∧ (Instr.loadVerifyDone (illI 4)).wf = false ∧
    (Instr.keyRecordApply ⟨[], false, 0, false, illI 4⟩).wf = false ∧ (Instr.dramRequest ⟨16, false, 0, [], 0⟩).wf = false ∧
    (Instr.dramRequest ⟨0, true, 0, [], 0⟩).wf = false ∧ (Instr.rowSlot .w ⟨[(512, 0)], [], []⟩).wf = false ∧
    (Instr.rowSlot .w ⟨[], [64], []⟩).wf = false ∧ (Instr.rowSlot .w ⟨[], [], [2]⟩).wf = false ∧
    (Instr.configurationRequest 2 (.read .vendor)).wf = false ∧ (Instr.configurationRequest 0 (.read (.bar 1))).wf = false ∧
    (Instr.ptpMessage 0 (.announce 256)).wf = false ∧ (Instr.evqDoorbell 0 (.bell 4294967296 15)).wf = false ∧ (Instr.chopOnEnd 0 (illM 32768)).wf = false := by decide

theorem test_taken :
    (Instr.registerWrite .kryty 2097148 [0] 15).wf = true ∧ (Instr.test 27 (ill 3 4294967295 256)).wf = true ∧
    (Instr.chopOnEnd 5 (illM (-32768))).wf = true ∧ (Instr.loadVerifyDone (illI 3)).wf = true := by decide

/-! ### Values of the spec's own examples -/

/-- The node ID of position 17 on ring 5 of head 2 (00_scope.md). -/
theorem test_node_id : nodeId 2 5 17 = 0x0951 := by decide

/-- CRC-32C of the nine digits: the check value the algorithm is known by; polynomial, initial value and XOR are R82's. -/
theorem test_crc32c : crc32c [0x31, 0x32, 0x33, 0x34, 0x35, 0x36, 0x37, 0x38, 0x39] = 0xE3069283 := by decide +kernel

/-- Junction readings of 414 and 412 give 879 and 888 (the worked example of 17_electrical_package.md). -/
theorem test_derating : derateTarget 414 95 512 = 879 ∧ derateTarget 412 95 512 = 888 := by decide

/-- On-times and amplitude units at C = 0x1000, and where the extra code of value 4,129 falls on row 5 (08_lamp_drive.md). -/
theorem test_pulse_example :
    onTime 2048 4096 3968000 = 1984000 ∧ onTime 4095 4096 3968000 = 3967031 ∧ ampUnits 4096 4096 8 = 128 ∧ ampUnits 4129 4096 8 = 129 ∧
    spread 129 8 3 5 = 17 ∧ (List.range 8).countP (fun j => spread 129 8 j 5 = 17) = 1 := by decide

/-- The lamp map entry of sink 30 on row 5 (06_darning.md). -/
theorem test_lamp_map_address : lampMapAt 0 5 30 = 0x185078 := by decide

/-- The pads of the two builds count to their die's 2,304 and 1,600 (R417). -/
theorem test_pad_counts : padCount .head = 2304 ∧ padCount .tile = 1600 := by
  simp [padCount, centrePads, commonPads, supplyPads, railPads, padsOf, padsFrom, padsEach]

/-- Pads of a tile by their place (R416, R417). -/
theorem test_pads :
    padAt .tile 17 1 = some ⟨"LN_TXP", 0⟩ ∧ padAt .tile 25 33 = some ⟨"ROWE", 0⟩ ∧ padAt .tile 40 32 = some ⟨"SNK", 1023⟩ ∧
    padAt .tile 16 40 = some ⟨"VSS", 29⟩ := by decide

/-! ### Small states -/

/-- The registers are open and the firmware runs. -/
def up (s : State) : State := { s with bus := { s.bus with isOpen := true }, boot := { s.boot with phase := .run, memClear := true } }

/-- `s` with the register fields of the list written. -/
def fl (s : State) (l : List (Fld × Nat)) : State := l.foldl (fun a e => a.wr e.1 e.2) s

/-- A tile whose boot is over. -/
def T : State := up State.reset

/-- A head whose boot is over. -/
def H : State := up State.resetHead

/-- A page enabled and running. -/
def on (b : Blk) (w : Nat) : List (Fld × Nat) := [(R.ENABLE (b.pg w), 1), (R.RUN (b.pg w), 2)]

/-- A sealed control cell. -/
def ctl (typ src dest seq : Nat) (bcast : Bool) (pl : List Byte) : Cell :=
  sealCell { mkCell clsControl typ src dest seq false bcast pl with hops := 3 } false

/-- Lanes 0 to 7 enabled. -/
def lanes : List (Fld × Nat) := (R.ENABLE (Blk.LNE.pg 0), 1) :: (List.range 8).map (fun k => (R.LNE_CFG_ENABLE k, 1))

/-- A tile at position 5 of ring 2 of head 3, its two ports UP. -/
def upT (l : List (Fld × Nat)) : State :=
  fl T ([(R.RING_STATE_END_A 0, 2), (R.RING_STATE_END_A 1, 2), (R.RING_STATE_NODE 0, nodeId 3 2 5), (R.RING_STATE_NODE 1, nodeId 3 2 5),
    (R.RING_CFG_ENABLE 0, 1), (R.RING_CFG_ENABLE 1, 1), (R.ENABLE (Blk.RING.pg 0), 1), (R.RING_CFG_LANE_A 1, 4)] ++ lanes ++ l)

/-- A head whose ring 0 is UP at both ends. -/
def upH (l : List (Fld × Nat)) : State :=
  fl H ([(R.RING_STATE_END_A 0, 2), (R.RING_STATE_END_B 0, 2), (R.RING_CFG_ENABLE 0, 1), (R.ENABLE (Blk.RING.pg 0), 1),
    (R.RING_CFG_LANE_B 0, 4)] ++ lanes ++ l)

/-- A port whose lanes 0 to 3 send codewords. -/
def pI : Port := { Port.init with coded := [0, 1, 2, 3] }

/-- The hypotheses of StepRunsTheCommandInFront can be met, clause by clause. -/
theorem witness_StepRunsTheCommandInFront :
    (∃ (c : Instr) (rest : List Instr) (s : State), s.pending = c :: rest) :=
  by refine ⟨.epcLocked, ([] : List Instr), { T with pending := [.epcLocked] }, ?_⟩; decide +kernel

/-- The hypotheses of EmptyQueueIdlesOneClock can be met, clause by clause. -/
theorem witness_EmptyQueueIdlesOneClock :
    (∃ (s : State), s.pending = []) :=
  by refine ⟨State.reset, ?_⟩; decide +kernel

/-- The hypotheses of EveryStepKeepsTheInvariant can be met, clause by clause. -/
theorem witness_EveryStepKeepsTheInvariant :
    (∃ (s : State), s.wf = true) :=
  by refine ⟨State.reset, ?_⟩; decide +kernel

/-- The hypotheses of EveryCommandCompletes can be met, clause by clause. -/
theorem witness_EveryCommandCompletes :
    (∃ (s : State), s.wf = true) :=
  by refine ⟨State.reset, ?_⟩; decide +kernel

/-- The hypotheses of RefusedWriteOnlyLogs can be met, clause by clause. -/
theorem witness_RefusedWriteOnlyLogs :
    (∃ (path : Path) (addr : Nat) (data : List Word) (be : Nat) (a : Nat) (r : Nat) (s : State), s.pathOpen path = true ∧ s.busError
          path true addr data.length be = some (a, r)) :=
  by refine ⟨.kryty, 0x200000, [0], 15, 0x200000, 3, T, ?_⟩; decide +kernel

/-- Lamp drive's page of half W: enabled, locked, in a state of RUN. -/
def lk (e l r : Nat) : State := fl T [(R.ENABLE (Blk.LMP.pg 0), e), (R.LOCK (Blk.LMP.pg 0), l), (R.RUN (Blk.LMP.pg 0), r)]

/-- The hypotheses of ViewsOfARegisterWrite can be met, clause by clause. -/
theorem witness_ViewsOfARegisterWrite :
    (∃ (path : Path) (view : View) (v : Word) (b : Blk) (w : Nat) (f : Fld) (old : Nat) (x : Nat) (new : Nat) (s : State), s.reaches
          path f view ∧ plainRegister s f b w ∧ s.see f = old ∧ old < 2 ^ f.width ∧ f.width ≤ 32 ∧ x = bitsOf v.toNat f.lsb f.width ∧
          new = viewResult view old x ∧ (f.cls = .lv ∨ (f.cls = .rw ∨ f.cls = .hu) ∧ s.rd (R.LOCK (b.pg w)) = 0 ∧ s.rd (R.ENABLE (b.pg
          w)) = 0 ∧ (s.run b w = runDisabled ∨ s.run b w = runDrained)) ∧ f.lo ≤ new ∧ new ≤ f.hi ∧ s.bus.hw.contains f.key = false) ∧
    (∃ (path : Path) (view : View) (v : Word) (b : Blk) (w : Nat) (f : Fld) (old : Nat) (x : Nat) (new : Nat) (s : State), s.reaches
          path f view ∧ plainRegister s f b w ∧ s.see f = old ∧ old < 2 ^ f.width ∧ f.width ≤ 32 ∧ x = bitsOf v.toNat f.lsb f.width ∧
          new = viewResult view old x ∧ (f.cls = .lv ∨ (f.cls = .rw ∨ f.cls = .hu) ∧ s.rd (R.LOCK (b.pg w)) = 0 ∧ s.rd (R.ENABLE (b.pg
          w)) = 0 ∧ (s.run b w = runDisabled ∨ s.run b w = runDrained)) ∧ (new < f.lo ∨ f.hi < new) ∧ s.bus.hw.contains f.key = false) ∧
    (∃ (path : Path) (view : View) (v : Word) (b : Blk) (w : Nat) (f : Fld) (old : Nat) (x : Nat) (new : Nat) (s : State), s.reaches
          path f view ∧ plainRegister s f b w ∧ s.see f = old ∧ old < 2 ^ f.width ∧ f.width ≤ 32 ∧ x = bitsOf v.toNat f.lsb f.width ∧
          new = viewResult view old x ∧ (f.cls = .lv ∨ (f.cls = .rw ∨ f.cls = .hu) ∧ s.rd (R.LOCK (b.pg w)) = 0 ∧ s.rd (R.ENABLE (b.pg
          w)) = 0 ∧ (s.run b w = runDisabled ∨ s.run b w = runDrained)) ∧ f.cls = .hu ∧ f.lo ≤ new ∧ new ≤ f.hi ∧ s.bus.hw.contains
          f.key = true) ∧
    (∃ (path : Path) (view : View) (v : Word) (b : Blk) (w : Nat) (f : Fld) (old : Nat) (x : Nat) (new : Nat) (s : State), s.reaches
          path f view ∧ plainRegister s f b w ∧ s.see f = old ∧ old < 2 ^ f.width ∧ f.width ≤ 32 ∧ x = bitsOf v.toNat f.lsb f.width ∧
          new = viewResult view old x ∧ (f.cls = .rw ∨ f.cls = .hu) ∧ s.rd (R.LOCK (b.pg w)) = 1) ∧
    (∃ (path : Path) (view : View) (v : Word) (b : Blk) (w : Nat) (f : Fld) (old : Nat) (x : Nat) (new : Nat) (s : State), s.reaches
          path f view ∧ plainRegister s f b w ∧ s.see f = old ∧ old < 2 ^ f.width ∧ f.width ≤ 32 ∧ x = bitsOf v.toNat f.lsb f.width ∧
          new = viewResult view old x ∧ (f.cls = .rw ∨ f.cls = .hu) ∧ s.rd (R.LOCK (b.pg w)) = 0 ∧ s.run b w = runDraining) ∧
    (∃ (path : Path) (view : View) (v : Word) (b : Blk) (w : Nat) (f : Fld) (old : Nat) (x : Nat) (new : Nat) (s : State), s.reaches
          path f view ∧ plainRegister s f b w ∧ s.see f = old ∧ old < 2 ^ f.width ∧ f.width ≤ 32 ∧ x = bitsOf v.toNat f.lsb f.width ∧
          new = viewResult view old x ∧ (f.cls = .rw ∨ f.cls = .hu) ∧ s.rd (R.LOCK (b.pg w)) = 0 ∧ s.rd (R.ENABLE (b.pg w)) = 1 ∧ s.run
          b w ≠ runDraining) ∧
    (∃ (path : Path) (view : View) (v : Word) (b : Blk) (w : Nat) (f : Fld) (old : Nat) (x : Nat) (new : Nat) (s : State), s.reaches
          path f view ∧ plainRegister s f b w ∧ s.see f = old ∧ old < 2 ^ f.width ∧ f.width ≤ 32 ∧ x = bitsOf v.toNat f.lsb f.width ∧
          new = viewResult view old x ∧ f.cls = .ro) ∧
    (∃ (path : Path) (view : View) (v : Word) (b : Blk) (w : Nat) (f : Fld) (old : Nat) (x : Nat) (new : Nat) (s : State), s.reaches
          path f view ∧ plainRegister s f b w ∧ s.see f = old ∧ old < 2 ^ f.width ∧ f.width ≤ 32 ∧ x = bitsOf v.toNat f.lsb f.width ∧
          new = viewResult view old x ∧ f.cls = .ct ∧ view = .base ∧ x = 0) ∧
    (∃ (path : Path) (view : View) (v : Word) (b : Blk) (w : Nat) (f : Fld) (old : Nat) (x : Nat) (new : Nat) (s : State), s.reaches
          path f view ∧ plainRegister s f b w ∧ s.see f = old ∧ old < 2 ^ f.width ∧ f.width ≤ 32 ∧ x = bitsOf v.toNat f.lsb f.width ∧
          new = viewResult view old x ∧ f.cls = .ct ∧ new ≠ 0) ∧
    (∃ (path : Path) (view : View) (v : Word) (b : Blk) (w : Nat) (f : Fld) (old : Nat) (x : Nat) (new : Nat) (s : State), s.reaches
          path f view ∧ plainRegister s f b w ∧ s.see f = old ∧ old < 2 ^ f.width ∧ f.width ≤ 32 ∧ x = bitsOf v.toNat f.lsb f.width ∧
          new = viewResult view old x ∧ f.cls = .ct ∧ view ≠ .base ∧ new = 0) ∧
    (∃ (path : Path) (view : View) (b : Blk) (w : Nat) (f : Fld) (g : Fld) (s : State), f.width = 64 ∧ f.cls = .ct ∧ f.addr % 4 = 0 ∧ g
          = { f with addr := f.addr + 4 } ∧ s.reaches path g view ∧ winBlk (g.addr / 16384) = some (b, w) ∧ fldsAt b s.build w (g.addr %
          4096) = some ([f], true)) ∧
    (∃ (path : Path) (view : View) (j : Nat) (old : Nat) (s : State), j < 48 ∧ s.reaches path (R.BOOT_KEY_DIGEST j) view ∧ s.rd (R.LOCK
          0x8000) = 0 ∧ s.rd (R.BOOT_KEY_DIGEST j) = old ∧ old < 4294967296 ∧ s.bus.w1.contains (R.BOOT_KEY_DIGEST j).key = false) ∧
    (∃ (path : Path) (view : View) (j : Nat) (old : Nat) (s : State), j < 48 ∧ s.reaches path (R.BOOT_KEY_DIGEST j) view ∧ s.rd (R.LOCK
          0x8000) = 0 ∧ s.rd (R.BOOT_KEY_DIGEST j) = old ∧ old < 4294967296 ∧ s.bus.w1.contains (R.BOOT_KEY_DIGEST j).key = true) ∧
    (∃ (path : Path) (view : View) (n : Nat) (s : State), n < 16 ∧ s.reaches path (R.DMA_CH_RING_LO_ADDR n) view ∧ s.rd (R.LOCK
          (Blk.DMA.pg 0)) = 0 ∧ s.rd (R.DMA_CH_STATE_RUN n) = runDraining) ∧
    (∃ (path : Path) (view : View) (n : Nat) (s : State), n < 16 ∧ s.reaches path (R.DMA_CH_RING_LO_ADDR n) view ∧ s.rd (R.LOCK
          (Blk.DMA.pg 0)) = 0 ∧ s.rd (R.DMA_CH_STATE_RUN n) ≠ runDraining ∧ s.rd (R.DMA_CH_CFG_ENABLE n) = 1) :=
  ⟨by refine ⟨.kryty, .tog, 255, .LMP, 0, R.LMP_XOVER_C 0, 4096, 255, 4351, fl T [(R.GPIO_OUT_OUT, 255)], ?_⟩; dsimp only [State.reaches, plainRegister]; decide +kernel,
   by refine ⟨.kryty, .tog, 1000, .LMP, 0, R.LMP_DEAD_NS 0, 24, 1000, 1008, fl T [(R.GPIO_OUT_OUT, 255)], ?_⟩; dsimp only [State.reaches, plainRegister]; decide +kernel,
   by refine ⟨.kryty, .tog, 255, .LMP, 0, R.LMP_DEAD_NS 0, 24, 255, 231, { T with bus := { T.bus with hw := [(R.LMP_DEAD_NS 0).key] } }, ?_⟩; dsimp only [State.reaches, plainRegister]; decide +kernel,
   by refine ⟨.kryty, .tog, 255, .LMP, 0, R.LMP_XOVER_C 0, 4096, 255, 4351, lk 0 1 0, ?_⟩; dsimp only [State.reaches, plainRegister]; decide +kernel,
   by refine ⟨.kryty, .tog, 255, .LMP, 0, R.LMP_XOVER_C 0, 4096, 255, 4351, lk 0 0 3, ?_⟩; dsimp only [State.reaches, plainRegister]; decide +kernel,
   by refine ⟨.kryty, .tog, 255, .LMP, 0, R.LMP_XOVER_C 0, 4096, 255, 4351, lk 1 0 2, ?_⟩; dsimp only [State.reaches, plainRegister]; decide +kernel,
   by refine ⟨.kryty, .tog, 255, .LMP, 0, R.LMP_FORCED_SINKS 0 0, 0, 255, 255, fl T [(R.GPIO_OUT_OUT, 255)], ?_⟩; dsimp only [State.reaches, plainRegister]; decide +kernel,
   by refine ⟨.kryty, .base, 0, .LMP, 0, R.LMP_EVT_OPEN 0, 0, 0, 0, fl T [(R.GPIO_OUT_OUT, 255)], ?_⟩; dsimp only [State.reaches, plainRegister]; decide +kernel,
   by refine ⟨.kryty, .tog, 255, .LMP, 0, R.LMP_EVT_OPEN 0, 0, 255, 255, fl T [(R.GPIO_OUT_OUT, 255)], ?_⟩; dsimp only [State.reaches, plainRegister]; decide +kernel,
   by refine ⟨.kryty, .tog, 0, .LMP, 0, R.LMP_EVT_OPEN 0, 0, 0, 0, fl T [(R.GPIO_OUT_OUT, 255)], ?_⟩; dsimp only [State.reaches, plainRegister]; decide +kernel,
   by refine ⟨.kryty, .tog, .RING, 0, R.RING_RX_CELLS 0, { R.RING_RX_CELLS 0 with addr := (R.RING_RX_CELLS 0).addr + 4 }, fl T [(R.GPIO_OUT_OUT, 255)], ?_⟩; dsimp only [State.reaches]; decide +kernel,
   by refine ⟨.kryty, .tog, 47, 0, fl T [(R.GPIO_OUT_OUT, 255)], ?_⟩; dsimp only [State.reaches]; decide +kernel,
   by refine ⟨.kryty, .tog, 47, 0, { T with bus := { T.bus with w1 := [(R.BOOT_KEY_DIGEST 47).key] } }, ?_⟩; dsimp only [State.reaches]; decide +kernel,
   by refine ⟨.kryty, .tog, 15, fl H [(R.DMA_CH_STATE_RUN 15, 3)], ?_⟩; dsimp only [State.reaches]; decide +kernel,
   by refine ⟨.kryty, .tog, 15, fl H [(R.DMA_CH_CFG_ENABLE 15, 1), (R.DMA_CH_STATE_RUN 15, 2)], ?_⟩; dsimp only [State.reaches]; decide +kernel⟩

/-- The hypotheses of ReadsAndLatchedCounters can be met, clause by clause. -/
theorem witness_ReadsAndLatchedCounters :
    (∃ (path : Path) (addr : Nat) (n : Nat) (s : State), s.pathOpen path = true ∧ s.busError path false addr n 15 = none) ∧
    (∃ (path : Path) (b : Blk) (w : Nat) (f : Fld) (s : State), f.width = 64 ∧ f.lsb = 0 ∧ f.addr % 4 = 0 ∧ f.addr < 0x100000 ∧ winBlk
          (f.addr / 16384) = some (b, w) ∧ f.addr % 4096 ≠ 0 ∧ fldsAt b s.build w (f.addr % 4096) = some ([f], false) ∧ s.pathOpen path
          = true ∧ s.busError path false f.addr 1 15 = none) :=
  ⟨by refine ⟨.kryty, (R.LNE_CORR 0).addr, 2, fl T [(R.LNE_CORR 0, 0x500000007)], ?_⟩; decide +kernel,
   by refine ⟨.kryty, .LNE, 0, R.LNE_CORR 0, fl T [(R.LNE_CORR 0, 0x500000007)], ?_⟩; decide +kernel⟩

/-- The hypotheses of PageControl can be met, clause by clause. -/
theorem witness_PageControl :
    (∃ (path : Path) (b : Blk) (w : Nat) (pg : Nat) (s : State), pg = b.pg w ∧ s.has b w = true ∧ s.rd (R.LOCK pg) = 0 ∧ s.reaches path
          (R.ENABLE pg) .set ∧ alwaysOn b = false ∧ s.rd (R.ENABLE pg) = 0 ∧ (s.run b w = runDisabled ∨ s.run b w = runDrained) ∧
          (isCore b = false ∨ s.coreGated = false) ∧ s.pphase ≠ ppEntering ∧ s.pageCheck b w = none) ∧
    (∃ (path : Path) (b : Blk) (w : Nat) (pg : Nat) (s : State) (r : Nat), pg = b.pg w ∧ s.has b w = true ∧ s.rd (R.LOCK pg) = 0 ∧
          s.reaches path (R.ENABLE pg) .set ∧ alwaysOn b = false ∧ s.rd (R.ENABLE pg) = 0 ∧ (s.run b w = runDisabled ∨ s.run b w =
          runDrained) ∧ (isCore b = false ∨ s.coreGated = false) ∧ s.pphase ≠ ppEntering ∧ s.pageCheck b w = some r) ∧
    (∃ (path : Path) (b : Blk) (w : Nat) (pg : Nat) (s : State), pg = b.pg w ∧ s.has b w = true ∧ s.rd (R.LOCK pg) = 0 ∧ s.reaches path
          (R.ENABLE pg) .set ∧ (s.rd (R.ENABLE pg) = 1 ∧ s.run b w = runRunning ∨ s.rd (R.ENABLE pg) = 0 ∧ s.run b w = runDisabled ∧
          alwaysOn b = false)) ∧
    (∃ (path : Path) (b : Blk) (w : Nat) (pg : Nat) (s : State), pg = b.pg w ∧ s.has b w = true ∧ s.rd (R.LOCK pg) = 0 ∧ s.reaches path
          (R.ENABLE pg) .clr ∧ s.rd (R.ENABLE pg) = 1 ∧ s.run b w = runRunning ∧ alwaysOn b = false) ∧
    (∃ (path : Path) (b : Blk) (w : Nat) (pg : Nat) (s : State), pg = b.pg w ∧ s.has b w = true ∧ s.rd (R.LOCK pg) = 0 ∧ s.reaches path
          (R.ENABLE pg) .clr ∧ s.rd (R.ENABLE pg) = 1 ∧ s.run b w = runRunning ∧ alwaysOn b = true) ∧
    (∃ (b : Blk) (w : Nat) (pg : Nat) (s : State), pg = b.pg w ∧ s.has b w = true ∧ s.rd (R.LOCK pg) = 1 ∧ b ≠ .THM) ∧
    (∃ (h : Nat) (s : State), h < 2 ∧ s.build = .tile ∧ s.run .PRS h = runDraining) ∧
    (∃ (h : Nat) (s : State), h < 2 ∧ s.build = .tile ∧ s.run .DRN h = runDraining) ∧
    (∃ (w : Nat) (s : State), w < Blk.DRC.wins s.build ∧ s.run .DRC w = runDraining) :=
  ⟨by refine ⟨.kryty, .GPIO, 0, 671744, T, ?_⟩; dsimp only [State.reaches]; decide +kernel,
   by refine ⟨.kryty, .DRC, 0, 409600, T, 16, ?_⟩; dsimp only [State.reaches]; decide +kernel,
   by refine ⟨.kryty, .GPIO, 0, 671744, T, ?_⟩; dsimp only [State.reaches]; decide +kernel,
   by refine ⟨.kryty, .GPIO, 0, 671744, fl T (on .GPIO 0), ?_⟩; dsimp only [State.reaches]; decide +kernel,
   by refine ⟨.kryty, .CLK, 0, 16384, T, ?_⟩; dsimp only [State.reaches]; decide +kernel,
   by refine ⟨.GPIO, 0, 671744, fl T (on .GPIO 0 ++ [(R.LOCK 0xA4000, 1)]), ?_⟩; decide +kernel,
   by refine ⟨1, fl T [(R.RUN (Blk.PRS.pg 1), 3)], ?_⟩; decide +kernel,
   by refine ⟨1, fl T [(R.RUN (Blk.DRN.pg 1), 3)], ?_⟩; decide +kernel,
   by refine ⟨0, fl T [(R.RUN (Blk.DRC.pg 0), 3)], ?_⟩; decide +kernel⟩

/-- The hypotheses of LoopProgramTakesWritesWhileStopped can be met, clause by clause. -/
theorem witness_LoopProgramTakesWritesWhileStopped :
    (∃ (path : Path) (a : Nat) (s : State), s.wf = true ∧ 0x100000 ≤ a ∧ a < 0x110000 ∧ a % 4 = 0 ∧ s.pathOpen path = true ∧ s.busError
          path true a 1 15 = none ∧ s.rd (R.LOCK (Blk.LOP.pg 0)) = 0 ∧ s.rd (R.ENABLE (Blk.LOP.pg 0)) = 0 ∧ s.run .LOP 0 = runDisabled) ∧
    (∃ (path : Path) (a : Nat) (s : State), s.wf = true ∧ 0x100000 ≤ a ∧ a < 0x110000 ∧ a % 4 = 0 ∧ s.pathOpen path = true ∧ s.busError
          path true a 1 15 = none ∧ s.rd (R.LOCK (Blk.LOP.pg 0)) = 0 ∧ s.rd (R.ENABLE (Blk.LOP.pg 0)) = 1 ∧ s.run .LOP 0 = runRunning) :=
  ⟨by refine ⟨.kryty, 0x10FFFC, T, ?_⟩; decide +kernel,
   by refine ⟨.kryty, 0x10FFFC, fl T (on .LOP 0), ?_⟩; decide +kernel⟩

/-- The walker runs. -/
def cckR (d s : Bool) (m : Nat) (l : List (Fld × Nat)) (sn : Bool) : State :=
  { fl T l with cck := { running := true, stop := s, dirty := d, snapOk := sn, misses := m } }

/-- The hypotheses of ConfigurationCheckPass can be met, clause by clause. -/
theorem witness_ConfigurationCheckPass :
    (∃ (s : State), s.cck.running = true ∧ (s.cck.dirty = true ∨ s.cck.stop = true ∨ s.rd R.PWR_CMD_RESTORE = 1)) ∧
    (∃ (s : State), s.cck.running = true ∧ s.cck.dirty = false ∧ s.cck.stop = false ∧ s.rd R.PWR_CMD_RESTORE ≠ 1 ∧ s.rd
          R.SYS_CCK_CTRL_SNAP = 0 ∧ s.rd R.SYS_CCK_STATE_REF_VALID = 1 ∧ s.rd R.SYS_CCK_STATE_MISMATCH = 0) ∧
    (∃ (s : State), s.cck.running = true ∧ s.cck.dirty = false ∧ s.cck.stop = false ∧ s.rd R.PWR_CMD_RESTORE ≠ 1 ∧ s.rd
          R.SYS_CCK_CTRL_SNAP = 1 ∧ s.cck.snapOk = true) :=
  ⟨by refine ⟨cckR true false 0 [] false, ?_⟩; decide +kernel,
   by refine ⟨cckR false false 1 [(R.SYS_CCK_STATE_REF_VALID, 1)] false, ?_⟩; decide +kernel,
   by refine ⟨cckR false false 0 [(R.SYS_CCK_CTRL_SNAP, 1)] true, ?_⟩; decide +kernel⟩

/-- The hypotheses of ConfigurationCheckCommandsAndUpsets can be met, clause by clause. -/
theorem witness_ConfigurationCheckCommandsAndUpsets :
    (∃ (path : Path) (s : State), s.reaches path R.SYS_CCK_CTRL_SNAP .set ∧ s.rd R.SYS_CCK_CTRL_SNAP = 0) ∧
    (∃ (path : Path) (s : State), s.reaches path R.SYS_CCK_REF_REF .base) ∧
    (∃ (path : Path) (s : State), s.reaches path R.SYS_CCK_CTRL_EN .base ∧ s.cck.running = false) ∧
    (∃ (path : Path) (s : State), s.reaches path R.SYS_CCK_CTRL_EN .base ∧ s.cck.running = true) ∧
    (∃ (a : Nat) (bit : Nat) (s : State), s.wf = true ∧ 0x100000 ≤ a ∧ a < 0x110000 ∧ a % 4 = 0 ∧ bit < 32) :=
  ⟨by refine ⟨.kryty, T, ?_⟩; dsimp only [State.reaches]; decide +kernel,
   by refine ⟨.kryty, T, ?_⟩; dsimp only [State.reaches]; decide +kernel,
   by refine ⟨.kryty, T, ?_⟩; dsimp only [State.reaches]; decide +kernel,
   by refine ⟨.kryty, cckR false false 0 [(R.SYS_CCK_CTRL_EN, 1)] false, ?_⟩; dsimp only [State.reaches]; decide +kernel,
   by refine ⟨0x10FFFC, 31, T, ?_⟩; decide +kernel⟩

/-- The hypotheses of PllEnableAndLock can be met, clause by clause. -/
theorem witness_PllEnableAndLock :
    (∃ (s : State), s.rd R.CLK_PLL_EN_ROOT_EN = 1 ∧ s.rd R.CLK_PLL_ROOT_LOCK = 0 ∧ s.boot.phase ≠ .pllWait) ∧
    (∃ (s : State), s.rd R.CLK_PLL_EN_DRAM_EN = 1) ∧
    (∃ (s : State), s.rd R.CLK_PLL_EN_ETH_EN = 1) ∧
    (∃ (s : State) (n : Nat), n < lanePlls s.build ∧ bitOf (s.rd R.CLK_PLL_EN_LANE_EN) n = true) ∧
    (∃ (s : State), s.rd R.CLK_PLL_EN_ROOT_EN = 0) ∧
    (∃ (s : State), s.rd R.CLK_PLL_EN_DRAM_EN = 0) ∧
    (∃ (s : State), s.rd R.CLK_PLL_EN_ETH_EN = 0) ∧
    (∃ (s : State) (n : Nat), (lanePlls s.build ≤ n ∨ bitOf (s.rd R.CLK_PLL_EN_LANE_EN) n = false)) ∧
    (∃ (path : Path) (v : Word) (s : State), s.reaches path R.CLK_PLL_EN_ROOT_EN .base ∧ s.rd (R.LOCK 0x4000) = 0 ∧ v.toNat % 2 = 1) :=
  ⟨by refine ⟨fl T [(R.CLK_PLL_EN_ROOT_EN, 1), (R.CLK_PLL_EN_LANE_EN, 1), (R.CLK_PLL_EN_DRAM_EN, 1), (R.CLK_PLL_EN_ETH_EN, 1)], ?_⟩; decide +kernel,
   by refine ⟨fl T [(R.CLK_PLL_EN_ROOT_EN, 1), (R.CLK_PLL_EN_LANE_EN, 1), (R.CLK_PLL_EN_DRAM_EN, 1), (R.CLK_PLL_EN_ETH_EN, 1)], ?_⟩; decide +kernel,
   by refine ⟨fl T [(R.CLK_PLL_EN_ROOT_EN, 1), (R.CLK_PLL_EN_LANE_EN, 1), (R.CLK_PLL_EN_DRAM_EN, 1), (R.CLK_PLL_EN_ETH_EN, 1)], ?_⟩; decide +kernel,
   by refine ⟨fl T [(R.CLK_PLL_EN_ROOT_EN, 1), (R.CLK_PLL_EN_LANE_EN, 1), (R.CLK_PLL_EN_DRAM_EN, 1), (R.CLK_PLL_EN_ETH_EN, 1)], 0, ?_⟩; decide +kernel,
   by refine ⟨fl T [(R.CLK_PLL_EN_ROOT_EN, 0), (R.CLK_PLL_EN_LANE_EN, 0), (R.CLK_PLL_EN_DRAM_EN, 0), (R.CLK_PLL_EN_ETH_EN, 0)], ?_⟩; decide +kernel,
   by refine ⟨fl T [(R.CLK_PLL_EN_ROOT_EN, 0), (R.CLK_PLL_EN_LANE_EN, 0), (R.CLK_PLL_EN_DRAM_EN, 0), (R.CLK_PLL_EN_ETH_EN, 0)], ?_⟩; decide +kernel,
   by refine ⟨fl T [(R.CLK_PLL_EN_ROOT_EN, 0), (R.CLK_PLL_EN_LANE_EN, 0), (R.CLK_PLL_EN_DRAM_EN, 0), (R.CLK_PLL_EN_ETH_EN, 0)], ?_⟩; decide +kernel,
   by refine ⟨fl T [(R.CLK_PLL_EN_ROOT_EN, 0), (R.CLK_PLL_EN_LANE_EN, 0), (R.CLK_PLL_EN_DRAM_EN, 0), (R.CLK_PLL_EN_ETH_EN, 0)], 0, ?_⟩; decide +kernel,
   by refine ⟨.kryty, 0x105, fl T [(R.CLK_PLL_EN_ROOT_EN, 1), (R.CLK_PLL_EN_LANE_EN, 1), (R.CLK_PLL_EN_DRAM_EN, 1), (R.CLK_PLL_EN_ETH_EN, 1)], ?_⟩; dsimp only [State.reaches]; decide +kernel⟩

/-- CTL on the root PLL. -/
def rootS : State := fl T [(R.CLK_SEL_CUR, 1), (R.CLK_PLL_ROOT_LOCK, 1), (R.CLK_PLL_EN_ROOT_EN, 1)]

/-- The hypotheses of ClockSwitchAndFallback can be met, clause by clause. -/
theorem witness_ClockSwitchAndFallback :
    (∃ (path : Path) (s : State), s.reaches path R.CLK_SEL_TO_ROOT .set ∧ s.rd R.CLK_SEL_CUR = curRc ∧ s.clk.switching = none ∧ s.rd
          R.CLK_PLL_ROOT_LOCK = 1) ∧
    (∃ (path : Path) (s : State), s.reaches path R.CLK_SEL_TO_RC .set ∧ s.rd R.CLK_SEL_CUR = curRoot ∧ s.clk.switching = none ∧
          s.coreBusy = false) ∧
    (∃ (s : State) (target : Nat), target < 3 ∧ s.clk.switching = some target ∧ s.boot.phase = .run ∧ s.rd R.CLK_SEL_CUR = curRc) ∧
    (∃ (s : State), s.clk.switching = some curRc ∧ s.boot.phase = .run ∧ s.rd R.CLK_SEL_CUR = curRoot ∧ s.enabled .TRV 0 = false) ∧
    (∃ (s : State), s.rd R.CLK_SEL_CUR = curRoot ∧ s.rd R.CLK_PLL_ROOT_LOCK = 1) ∧
    (∃ (s : State), s.rd R.CLK_SEL_CUR = curRoot ∧ s.refPresent = true ∧ s.boot.phase = .run) :=
  ⟨by refine ⟨.kryty, fl T [(R.CLK_PLL_ROOT_LOCK, 1)], ?_⟩; dsimp only [State.reaches]; decide +kernel,
   by refine ⟨.kryty, rootS, ?_⟩; dsimp only [State.reaches]; decide +kernel,
   by refine ⟨{ T with clk := { T.clk with switching := some 1 } }, 1, ?_⟩; decide +kernel,
   by refine ⟨{ rootS with clk := { T.clk with switching := some 0 } }, ?_⟩; decide +kernel,
   by refine ⟨rootS, ?_⟩; decide +kernel,
   by refine ⟨rootS, ?_⟩; decide +kernel⟩

/-- A tile that has run. -/
def used : State :=
  { fl T [(R.GPIO_OUT_OUT, 0x33), (R.BOOT_RESET_CAUSE_WDOG_RUN, 3)] with
    mem := [((5, 1) : Host.Cell)], wdog := { T.wdog with running := true }, boot := { T.boot with due := some .cmd } }

/-- The hypotheses of ResetsAndPerst can be met, clause by clause. -/
theorem witness_ResetsAndPerst :
    (∃ (s : State), s.wf = true ∧ s.boot.due = some .cmd) ∧
    (∃ (s : State), s.wf = true ∧ s.build = .tile ∧ s.wdog.running = true) ∧
    (∃ (s : State), s.wf = true ∧ s.build = .tile ∧ s.boot.phase ≠ .held) ∧
    (∃ (s : State), s.build = .head ∧ s.pins.perstLow = false) ∧
    (∃ (s : State), s.build = .head ∧ s.pstate ≠ pValley ∧ s.wakeActive = []) :=
  ⟨by refine ⟨used, ?_⟩; decide +kernel,
   by refine ⟨used, ?_⟩; decide +kernel,
   by refine ⟨used, ?_⟩; decide +kernel,
   by refine ⟨H, ?_⟩; decide +kernel,
   by refine ⟨H, ?_⟩; decide +kernel⟩

/-- The hypotheses of ResetCommandWatchdogAndRelease can be met, clause by clause. -/
theorem witness_ResetCommandWatchdogAndRelease :
    (∃ (path : Path) (s : State), s.reaches path R.BOOT_RESET_ARM .set ∧ s.rd R.BOOT_RESET_ARM = 0) ∧
    (∃ (path : Path) (s : State), s.reaches path R.BOOT_RESET_FULL .set ∧ s.rd R.BOOT_RESET_ARM = 1 ∧ s.rd R.BOOT_RESET_FULL = 0) ∧
    (∃ (path : Path) (s : State), s.reaches path R.BOOT_RESET_FULL .set ∧ s.rd R.BOOT_RESET_ARM = 0) ∧
    (∃ (path : Path) (s : State), s.reaches path R.BOOT_WDOG_KICK_KICK .set ∧ s.wdog.running = true) ∧
    (∃ (path : Path) (s : State) (v : Word), s.reaches path R.BOOT_WDOG_CFG_PERIOD .base ∧ s.rd (R.LOCK 0x8000) = 0 ∧ s.bus.w1.contains
          R.BOOT_WDOG_CFG_PERIOD.key = false ∧ 10 ≤ v.toNat ∧ v.toNat < 65536 ∧ s.wdog.running = true) ∧
    (∃ (s : State) (a : Nat), a < 128 ∧ s.boot.phase = .held ∧ s.pins.railPg = true) :=
  ⟨by refine ⟨.kryty, T, ?_⟩; dsimp only [State.reaches]; decide +kernel,
   by refine ⟨.kryty, fl T [(R.BOOT_RESET_ARM, 1)], ?_⟩; dsimp only [State.reaches]; decide +kernel,
   by refine ⟨.kryty, T, ?_⟩; dsimp only [State.reaches]; decide +kernel,
   by refine ⟨.kryty, { T with wdog := { T.wdog with running := true } }, ?_⟩; dsimp only [State.reaches]; decide +kernel,
   by refine ⟨.kryty, { T with wdog := { T.wdog with running := true } }, 10, ?_⟩; dsimp only [State.reaches]; decide +kernel,
   by refine ⟨{ T with boot := { T.boot with phase := .held } }, 127, ?_⟩; decide +kernel⟩

/-- The hypotheses of ReferencePllAndBootKeys can be met, clause by clause. -/
theorem witness_ReferencePllAndBootKeys :
    (∃ (s : State) (edges : Nat), s.eng.pwr.stretch = false ∧ s.boot.phase = .detect ∧ 1950 ≤ edges ∧ edges ≤ 2050) ∧
    (∃ (s : State) (edges : Nat), s.eng.pwr.stretch = false ∧ s.boot.phase = .detect ∧ (edges < 1950 ∨ 2050 < edges)) ∧
    (∃ (s : State), s.eng.pwr.stretch = false ∧ s.boot.phase = .pllWait ∧ s.rd R.CLK_PLL_ROOT_LOCK = 0) :=
  ⟨by refine ⟨State.reset, 1950, ?_⟩; decide +kernel,
   by refine ⟨State.reset, 1949, ?_⟩; decide +kernel,
   by refine ⟨{ T with boot := { T.boot with phase := .pllWait, pllTries := 3 } }, ?_⟩; decide +kernel⟩

/-- The boot ROM at the choice of a slot, with Neldor's digest 5. -/
def verS (m : Bool) (w : Nat) : State :=
  { fl T [(R.BOOT_KEY_DIGEST 0, 5), (R.BOOT_RESET_CAUSE_WDOG_RUN, w)] with boot := { T.boot with phase := .verify, memClear := m } }

/-- A firmware image signed with that key. -/
def img (v : Nat) (ok : Bool) : ImageCheck :=
  { present := true, firmware := true, version := v, keySlot := 0, keyDigest := 5, sigOk := ok }

/-- The hypotheses of SlotChoiceAndHandOver can be met, clause by clause. -/
theorem witness_SlotChoiceAndHandOver :
    (∃ (a : ImageCheck) (b : ImageCheck) (s : State), s.boot.phase = .verify ∧ s.boot.chosen = none ∧ s.fwCandidate a = true ∧
          s.fwCandidate b = true ∧ s.boot.memClear = true ∧ a.version < 4294967296 ∧ b.version < 4294967296) ∧
    (∃ (a : ImageCheck) (b : ImageCheck) (s : State), s.boot.phase = .verify ∧ s.boot.chosen = none ∧ s.fwCandidate a = false ∧
          s.fwCandidate b = false) ∧
    (∃ (s : State) (u : State) (slot : Nat) (ver : Nat) (fb : Bool), s.boot.phase = .verify ∧ s.boot.chosen = none ∧ slot < 2 ∧
          u.boot.phase = .verify ∧ u.boot.chosen = some (slot, ver, fb)) :=
  ⟨by refine ⟨img 1 true, img 1 true, verS true 2, ?_⟩; decide +kernel,
   by refine ⟨img 3 false, img 3 false, verS true 2, ?_⟩; decide +kernel,
   by refine ⟨verS true 2, { verS false 0 with boot := { (verS false 0).boot with chosen := some (1, 7, false) } }, 1, 7, false, ?_⟩; decide +kernel⟩

/-- A key record of the integrator. -/
def keyRec (dl : Bool) : KeyRecord := { digests := [1, 2, 3], debugLock := dl, minVersion := 9, signed := false, image := img 1 true }

/-- A locked boot record. -/
def rec1 : BootRecord := { seq := 3, digests := [0x11111111, 5, 7], debugLock := true, minVersion := 9, ok := true }

/-- The hypotheses of LoadPortAndKeyRecords can be met, clause by clause. -/
theorem witness_LoadPortAndKeyRecords :
    (∃ (path : Path) (s : State) (slot : Nat) (a : Nat), slot < 2 ∧ s.rd R.BOOT_LOAD_STATE_TARGET = slot ∧ a = slotBase slot + 4 * s.rd
          R.BOOT_LOAD_PTR_OFFSET ∧ s.reaches path R.BOOT_LOAD_DATA_DATA .base ∧ s.rd (R.LOCK 0x8000) = 0 ∧ s.rd R.BOOT_LOAD_CMD_VERIFY =
          0 ∧ s.rd R.BOOT_LOAD_PTR_OFFSET < slotWords ∧ s.wf = true) ∧
    (∃ (path : Path) (s : State), s.reaches path R.BOOT_LOAD_CMD_VERIFY .set ∧ s.rd R.BOOT_LOAD_CMD_VERIFY = 0) ∧
    (∃ (s : State), s.rd R.BOOT_LOAD_CMD_VERIFY = 1) ∧
    (∃ (r : KeyRecord) (s : State), s.boot.phase = .run ∧ s.boot.recA.ok = true ∧ s.boot.recB.ok = true ∧ s.boot.recB.seq ≤
          s.boot.recA.seq ∧ s.keyRecordOk r = true) ∧
    (∃ (r : KeyRecord) (s : State), s.boot.phase = .run ∧ s.boot.recA.ok = true ∧ s.boot.recB.ok = true ∧ s.boot.recA.seq <
          s.boot.recB.seq ∧ s.keyRecordOk r = true) ∧
    (∃ (r : KeyRecord) (s : State), s.boot.phase = .run ∧ ((s.recordNow.debugLock = true ∧ r.debugLock = false) ∨ r.minVersion <
          s.recordNow.minVersion ∨ (s.recordNow.digests.any (fun d => d ≠ 0) = true ∧ (r.signed = false ∨ s.ryupelOk r.image = false)))) :=
  ⟨by refine ⟨.kryty, fl T [(R.BOOT_LOAD_STATE_TARGET, 1), (R.BOOT_LOAD_PTR_OFFSET, 245759)], 1, 8323068, ?_⟩; dsimp only [State.reaches]; decide +kernel,
   by refine ⟨.kryty, fl T [(R.BOOT_LOAD_STATE_TARGET, 1), (R.BOOT_LOAD_PTR_OFFSET, 245759)], ?_⟩; dsimp only [State.reaches]; decide +kernel,
   by refine ⟨fl T [(R.BOOT_LOAD_CMD_VERIFY, 1)], ?_⟩; decide +kernel,
   by refine ⟨keyRec true, fl T [(R.BOOT_LOAD_STATE_TARGET, 1), (R.BOOT_LOAD_PTR_OFFSET, 245759)], ?_⟩; decide +kernel,
   by refine ⟨keyRec true, { T with boot := { T.boot with recA := { rec1 with digests := [0, 0, 0] }, recB := { rec1 with seq := 4, digests := [0, 0, 0] } } }, ?_⟩; decide +kernel,
   by refine ⟨keyRec true, { T with boot := { T.boot with recA := rec1, recB := { T.boot.recB with ok := false } } }, ?_⟩; decide +kernel⟩

/-- The hypotheses of DebugPortIsLocked can be met, clause by clause. -/
theorem witness_DebugPortIsLocked :
    (∃ (acc : DebugAccess) (s : State), s.bus.isOpen = true ∧ s.rd R.BOOT_DEBUG_DEBUG_LOCK = 1 ∧ (∀ a, acc = .read a → ¬(a < 0x100000 ∧
          a % 4096 < 4))) ∧
    (∃ (s : State), s.bus.isOpen = true ∧ s.rd R.BOOT_DEBUG_DEBUG_LOCK = 0) :=
  ⟨by refine ⟨.read 4, fl T [(R.BOOT_DEBUG_DEBUG_LOCK, 1)], ?_, ?_, by intro a h; injection h with h; subst h; decide⟩ <;> decide +kernel,
   by refine ⟨T, ?_⟩; decide +kernel⟩

/-- A running timebase in a state. -/
def tb (s : State) (st : Nat) (l : List (Fld × Nat)) : State :=
  fl s (on .EPC 0 ++ [(R.CLK_SEL_CUR, 1), (R.EPC_STATE_STATE, st)] ++ l)

/-- The hypotheses of EpochBoundaryAdvances can be met, clause by clause. -/
theorem witness_EpochBoundaryAdvances :
    (∃ (a : Nat) (b : Nat), a < 4294967296 ∧ b < 4294967296) ∧
    (∃ (s : State), s.epcRuns = true ∧ (s.epState = epMaster ∨ s.epc.first = false ∨ s.epc.used = true ∨ s.epc.other = none)) ∧
    (∃ (s : State), s.epcRuns = true ∧ s.eng.pwr.winding = false ∧ (s.epState = epMaster ∨ s.epc.first = false ∨ s.epc.used = true)) ∧
    (∃ (s : State), s.epcRuns = true ∧ s.eng.pwr.winding = false ∧ s.epState ≠ epMaster ∧ s.epc.first = true ∧ s.epc.used = false ∧
          s.epc.other = none) ∧
    (∃ (s : State), s.epcRuns = false) :=
  ⟨by refine ⟨0, 4294967295, ?_⟩; decide +kernel,
   by refine ⟨tb T 0 [], ?_⟩; decide +kernel,
   by refine ⟨tb T 0 [], ?_⟩; decide +kernel,
   by refine ⟨{ tb T 1 [] with epc := { T.epc with first := true } }, ?_⟩; decide +kernel,
   by refine ⟨T, ?_⟩; decide +kernel⟩

/-- The hypotheses of LockPhaseAndPeriod can be met, clause by clause. -/
theorem witness_LockPhaseAndPeriod :
    (∃ (s : State), s.epcRuns = true ∧ 8 ≤ s.epc.good ∧ (s.epState = epAcquire ∨ s.epState = epHoldover)) ∧
    (∃ (s : State), s.epc.good < 8) ∧
    (∃ (s : State), s.epcRuns = false) ∧
    (∃ (s : State) (e : Int), s.epcRuns = true ∧ s.epc.step = some e) ∧
    (∃ (path : Path) (v : Word) (s : State), s.reaches path R.EPC_PERIOD_NS .base ∧ s.epState = epMaster ∧ 1041667 ≤ v.toNat ∧ v.toNat ≤
          41666667) ∧
    (∃ (path : Path) (s : State), s.reaches path R.EPC_PERIOD_NS .base ∧ s.epState ≠ epMaster) :=
  ⟨by refine ⟨{ tb T 2 [] with epc := { T.epc with good := 8 } }, ?_⟩; decide +kernel,
   by refine ⟨{ T with epc := { T.epc with good := 7 } }, ?_⟩; decide +kernel,
   by refine ⟨{ T with epc := { T.epc with good := 7 } }, ?_⟩; decide +kernel,
   by refine ⟨{ tb T 1 [] with epc := { T.epc with step := some (-5) } }, (-5), ?_⟩; decide +kernel,
   by refine ⟨.kryty, 41666667, tb H 3 [], ?_⟩; dsimp only [State.reaches]; decide +kernel,
   by refine ⟨.kryty, { tb T 2 [] with epc := { T.epc with good := 8 } }, ?_⟩; dsimp only [State.reaches]; decide +kernel⟩

/-- A sealed beacon of head 3. -/
def bcn (ep per term : Nat) : Cell :=
  sealCell (mkCell clsBeacon 0 (nodeId 3 2 0) noNode 0 false true
    (natLE ep 4 ++ natLE per 4 ++ natLE 0 8 ++ natLE 3 1 ++ natLE 0 3 ++ natLE term 4 ++ natLE 0 8)) false

/-- A tile that follows head 3 with term 9. -/
def bT (f : Bool) : State :=
  { tb T 1 [(R.CRN_MASTER_HEAD_VALID, 1), (R.CRN_MASTER_HEAD_HEAD, 3), (R.RING_STATE_END_A 0, 2), (R.RING_STATE_END_A 1, 2)] with
    epc := { T.epc with first := f }, cairn := { T.cairn with terms := [(0, Tri.set 9)] } }

/-- A beacon whose boundary estimate lies above minus half a period with a lead of 20 us is not late, whatever the master's own lead is. -/
theorem beaconRec_on_time (s : State) (id : Nat) (c : Cell) (a : Int)
    (h : -(ns16 (s.rd R.EPC_PERIOD_NS) / 2) ≤ a - (cellCorrection c + (s.rd (ldlyF id) : Int)) + ns16 20000) : (s.beaconRec id c a).late = false := by
  have hl : 20 ≤ s.masterLead := Nat.le_add_right _ _
  have hm : ns16 20000 ≤ ns16 (s.masterLead * 1000) := by unfold ns16; omega
  exact decide_eq_false (by omega)

/-- The hypotheses of Beacons can be met, clause by clause. -/
theorem witness_Beacons :
    (∃ (port : Nat) (c : Cell) (s : State), s.build = .tile ∧ s.epcRuns = true ∧ c.cls = clsBeacon ∧ s.receive port c = (true, s) ∧ s.on
          R.CRN_MASTER_HEAD_VALID = true ∧ s.term 0 = pn c 20 4 ∧ s.rd R.CRN_MASTER_HEAD_HEAD = nodeHead c.src ∧ s.epc.first = false) ∧
    (∃ (port : Nat) (c : Cell) (arrival : Int) (s : State), s.build = .tile ∧ s.epcRuns = true ∧ c.cls = clsBeacon ∧ s.receive port c =
          (true, s) ∧ s.on R.CRN_MASTER_HEAD_VALID = true ∧ s.term 0 = pn c 20 4 ∧ s.rd R.CRN_MASTER_HEAD_HEAD = nodeHead c.src ∧
          s.epc.first = true ∧ s.epc.used = false ∧ s.epc.hopsD = none ∧ c.dir = 0 ∧ (s.beaconRec port c arrival).late = false) ∧
    (∃ (s : State) (n : Nat), s.build = .head ∧ s.epcRuns = true ∧ s.epState = epMaster ∧ s.rd R.CRN_HEAD_ROLE ≠ roleResigned ∧ n =
          s.epc.nextNumber.getD (epochNext s.epochNo) ∧ s.epc.relayed ≠ some n) :=
  ⟨by refine ⟨0, bcn 6 2000000 9, bT false, ?_⟩; decide +kernel,
   by refine ⟨0, bcn 6 2000000 9, 5, bT true, ?_, ?_, ?_, ?_, ?_, ?_, ?_, ?_, ?_, ?_, ?_, beaconRec_on_time _ _ _ _ (by decide +kernel)⟩ <;> decide +kernel,
   by refine ⟨tb H 3 [], 1, ?_⟩; decide +kernel⟩

/-- The lead head, with channel 3 running on a ring of descriptors. -/
def dS : State :=
  fl H (on .DMA 0 ++ on .HST 0 ++ [(R.DMA_CH_CFG_ENABLE 3, 1), (R.DMA_CH_STATE_RUN 3, 2), (R.DMA_CH_IDX_PROD 3, 5), (R.DMA_CH_IDX_CONS 3, 65535),
    (R.DMA_CH_RING_LO_ADDR 3, 0x1000)] ++ ([0, 1, 2, 3].map (fun j => (R.DRC_CH_STATE_STATE j, 2))) ++ on .DRC 0 ++ on .DRC 1)

/-- A descriptor of 8 bytes at the top of head memory. -/
def desc : Descriptor := { addrLo := 0, addrHi := 0, length := 8, dstLo := 0xFFFFFFF8, dstHi := 3, flags := 4, last := 0 }

/-- Channel 3 with that descriptor's read of 8 bytes asked for and not answered, or answered. -/
def dJ (asked : Nat) (rs : List DmaRead) : State :=
  { dS with host := { H.host with jobs := [(3, [{ idx := 65535, desc := some desc, asked := asked, got := [], err := false, opened := false }])], reads := rs } }

/-- The read of that descriptor's bytes. -/
def dR : DmaRead := { tag := 1, ch := 3, idx := 65535, fetch := false, off := 0, len := 8 }

/-- Channel 3 with a descriptor of a whole frame of its source, answered, on buffers of 4 KiB. -/
def descL : Descriptor := { desc with dstLo := 4088, dstHi := 0, flags := 3 }
def dL (rdy : Nat) (o : Bool) : State :=
  { fl dS [(R.SRC_BUF_SIZE_SIZE 3, 1), (R.SRC_BUF_BASE_BASE 3, 7), (R.SRC_STATE_READY 3, rdy), (R.SRC_STATE_SEND 3, 2),
      (R.DMA_CH_STATE_FRAME_OPEN 3, b2n o)] with
    host := { H.host with jobs := [(3, [{ idx := 65535, desc := some descL, asked := 8, got := [], err := false, opened := o }])] } }

/-- The hypotheses of DmaDescriptor can be met, clause by clause. -/
theorem witness_DmaDescriptor :
    (∃ (ch : Nat) (s : State), ch < 16 ∧ s.build = .head ∧ s.isLead = true ∧ s.pins.perstLow = false ∧ s.host.d3.contains 1 = false ∧
          s.dmaOn ch = true) ∧
    (∃ (ch : Nat) (s : State), ch < 16 ∧ s.build = .head ∧ s.isLead = true ∧ s.dmaLeft ch = true ∧ s.eng.pwr.winding = false ∧
          s.dramQuiet) ∧
    (∃ (ch : Nat) (s : State) (j : DmaJob) (l : List DmaJob), ch < 16 ∧ s.build = .head ∧ s.isLead = true ∧ s.dmaLeft ch = true ∧
          s.eng.pwr.winding = false ∧ s.descDue ch = true ∧ s.jobsOf ch = j :: l ∧ s.cfgVal 1 .ctoOff ≠ 1 ∧ s.host.reads.any (fun r =>
          r.ch = ch && r.idx = j.idx) = true) ∧
    (∃ (ch : Nat) (s : State) (j : DmaJob) (l : List DmaJob) (d : Descriptor) (a : Nat), ch < 16 ∧ s.build = .head ∧ s.isLead = true ∧
          s.descDue ch = true ∧ s.dmaLeft ch = false ∧ s.eng.pwr.winding = false ∧ s.jobsOf ch = j :: l ∧ j.desc = some d ∧ d.flags = 3
          ∧ s.descErr ch d false = 0 ∧ s.wf = true ∧ s.dramQuiet ∧ j.asked = d.length ∧ j.got = [] ∧ (s.src ch).fill < 3 ∧ (j.opened =
          true → s.rd (R.DMA_CH_STATE_FRAME_OPEN ch) = 1 ∧ (s.src ch).bad = false) ∧ (j.opened = false → s.rd (R.DMA_CH_STATE_FRAME_OPEN
          ch) = 0) ∧ a = s.bufBase ch (s.src ch).fill + d.dstLo ∧ s.dramServes a d.length = true) ∧
    (∃ (ch : Nat) (s : State) (j : DmaJob) (l : List DmaJob) (d : Descriptor), ch < 16 ∧ s.build = .head ∧ s.isLead = true ∧ s.descDue
          ch = true ∧ s.dmaLeft ch = false ∧ s.eng.pwr.winding = false ∧ s.jobsOf ch = j :: l ∧ j.desc = some d ∧ d.flags = 4 ∧
          s.descErr ch d false = 0 ∧ s.wf = true ∧ s.dramQuiet ∧ j.asked = d.length ∧ j.got = [] ∧ s.dramServes ((d.dstLo + 4294967296 *
          d.dstHi) % 17179869184) d.length = true) ∧
    (∃ (ch : Nat) (s : State) (j : DmaJob) (l : List DmaJob) (d : Descriptor), ch < 16 ∧ s.build = .head ∧ s.isLead = true ∧ s.descDue
          ch = true ∧ s.dmaLeft ch = false ∧ s.eng.pwr.winding = false ∧ s.jobsOf ch = j :: l ∧ j.desc = some d ∧ d.flags = 4 ∧
          s.descErr ch d false = 0 ∧ s.cfgVal 1 .ctoOff ≠ 1 ∧ s.host.reads.any (fun r => r.ch = ch && r.idx = j.idx) = true) :=
  ⟨by refine ⟨3, dS, ?_⟩; decide +kernel,
   by refine ⟨3, { dJ 8 [] with regs := (fl (dJ 8 []) [(R.DMA_CH_CFG_ENABLE 3, 0), (R.DMA_CH_STATE_RUN 3, 3)]).regs }, ?_⟩; dsimp only [State.dramQuiet]; decide +kernel,
   by refine ⟨3, { dJ 8 [dR] with regs := (fl (dJ 8 [dR]) [(R.DMA_CH_CFG_ENABLE 3, 0), (R.DMA_CH_STATE_RUN 3, 3)]).regs }, { idx := 65535, desc := some desc, asked := 8, got := [], err := false, opened := false }, [], ?_⟩; decide +kernel,
   by refine ⟨3, dL 3 false, { idx := 65535, desc := some descL, asked := 8, got := [], err := false, opened := false }, [], descL, 32760, ?_⟩; dsimp only [State.dramQuiet]; decide +kernel,
   by refine ⟨3, dJ 8 [dR], { idx := 65535, desc := some desc, asked := 8, got := [], err := false, opened := false }, [], desc, ?_⟩; dsimp only [State.dramQuiet]; decide +kernel,
   by refine ⟨3, dJ 8 [dR], { idx := 65535, desc := some desc, asked := 8, got := [], err := false, opened := false }, [], desc, ?_⟩; decide +kernel⟩

/-- A packet of stream 1. -/
def pk : St2110Packet := { dstIp := 5, srcIp := 6, udp := 7, pt := 96, extSeq := 20, marker := false, fieldBit := false, rows := [] }

/-- Stream 1 received at side port 0; source 2 loads its kernel and sends on ring 5. -/
def eS : State :=
  { fl H (on .ETH 0 ++ [(R.ETHP_CFG_ENABLE 0, 1), (R.ETH_ST_CFG_EN 1, 1), (R.ETH_ST_DST_IP_IP 1, 5), (R.ETH_ST_CFG_UDP 1, 7),
      (R.ETH_ST_CFG_PT 1, 96), (R.SRC_STATE_COND 2, condLoading)]) with
    ingest := { H.ingest with
      sts := [(1, { expect := some 17, missing := 0, width := 0, height := 0, rows := [], held := [] })]
      srcs := [(2, { Src.init with
        loading := true
        sends := [(5, { active := true, repeatOnly := false, locDone := true, cells := 100, upto := 100, next := 50, frame := 3 })] })] } }

/-- Source 2 takes stream 1 in a frame of 4 by 1 pixels of format 0, which has rows. -/
def eG (l held : List (Nat × Nat)) : State :=
  { fl eS ([(R.SRC_CFG_ENABLE 2, 1), (R.SRC_CFG_INPUT 2, 2), (R.SRC_IN_SIZE_W 2, 4), (R.SRC_IN_SIZE_H 2, 1),
      (R.SRC_STATE_READY 2, 3), (R.SRC_STATE_SEND 2, 3), (R.CLK_SEL_CUR, 1)] ++ on .SRC 0 ++
      ([0, 1, 2, 3].map (fun j => (R.DRC_CH_STATE_STATE j, 2))) ++ on .DRC 0 ++ on .DRC 1) with
    ingest := { eS.ingest with sts := [(1, { expect := some 20, missing := 0, width := 4, height := 1, rows := l, held := held })] } }

/-- The same with nothing in the line buffer. -/
def eF (l : List (Nat × Nat)) : State := eG l []

/-- The hypotheses of SourcesAndStreams can be met, clause by clause. -/
theorem witness_SourcesAndStreams :
    (∃ (n : Nat) (k : Nat) (ring : Nat) (s : State) (port : Nat) (p : St2110Packet), s.build = .head ∧ n < 16 ∧ k < 2 ∧ ring < 12 ∧
          s.ethOn port = true ∧ s.stFind port p = some k ∧ stGap s k p < 2147483648 ∧ p.fieldBit = true ∧ s.dramQuiet) ∧
    (∃ (n : Nat) (k : Nat) (ring : Nat) (s : State) (port : Nat) (p : St2110Packet), s.build = .head ∧ n < 16 ∧ k < 2 ∧ ring < 12 ∧
          s.ethOn port = true ∧ s.stFind port p = some k ∧ stGap s k p < 2147483648 ∧ p.fieldBit = false ∧ s.stSource k = none ∧
          s.dramQuiet) ∧
    (∃ (n : Nat) (k : Nat) (ring : Nat) (s : State) (port : Nat) (p : St2110Packet) (r : StRow) (v : Nat) (a : Nat) (b : Nat) (at_ :
          Nat) (line : Nat), s.build = .head ∧ n < 16 ∧ k < 2 ∧ ring < 12 ∧ s.ethOn port = true ∧ s.stFind port p = some k ∧ stGap s k p
          < 2147483648 ∧ p.fieldBit = false ∧ p.marker = false ∧ p.rows = [r] ∧ r.units = [v] ∧ s.stSource k = some n ∧ (s.st k).rows ≠
          [] ∧ s.wf = true ∧ s.dramQuiet ∧ (s.srcCfg n).fmt < 4 ∧ r.row < (s.srcCfg n).inH ∧ r.offset < (s.srcCfg n).inW ∧ b = memBits
          (s.srcCfg n).fmt / 8 ∧ at_ = r.offset / unitPix (s.srcCfg n).fmt ∧ line = (s.srcCfg n).lineUnits ∧ a = s.bufBase n (s.src
          n).fill + r.row * (s.srcCfg n).stride ∧ a + line * b ≤ dramSize s.build ∧ s.dramServes a (line * b) = true ∧ (s.srcCfg n).inW
          ≤ lineLimit (s.srcCfg n).fmt ∧ Sparse.look (s.st k).rows r.row 0 % 2 ^ line ≠ 2 ^ line - 1) ∧
    (∃ (n : Nat) (k : Nat) (ring : Nat) (s : State) (port : Nat) (p : St2110Packet), s.build = .head ∧ n < 16 ∧ k < 2 ∧ ring < 12 ∧
          s.ethOn port = true ∧ s.stFind port p = some k ∧ stGap s k p < 2147483648 ∧ p.fieldBit = false ∧ p.marker = true ∧ p.rows = []
          ∧ s.stSource k = some n ∧ (s.st k).rows ≠ [] ∧ s.dramQuiet ∧ s.rd (R.SRC_STATE_COND n) ≠ condOver ∧ (s.st k).width ≤ lineLimit
          (s.srcCfg n).fmt ∧ 0 < (s.st k).missing + stGap s k p) ∧
    (∃ (n : Nat) (k : Nat) (ring : Nat) (s : State) (port : Nat) (p : St2110Packet), s.build = .head ∧ n < 16 ∧ k < 2 ∧ ring < 12 ∧
          s.ethOn port = true ∧ s.stFind port p = some k ∧ stGap s k p < 2147483648 ∧ p.fieldBit = false ∧ p.marker = true ∧ p.rows = []
          ∧ s.stSource k = some n ∧ (s.st k).rows ≠ [] ∧ s.dramQuiet ∧ s.rd (R.SRC_STATE_COND n) ≠ condOver ∧ (s.st k).width ≤ lineLimit
          (s.srcCfg n).fmt ∧ (s.st k).missing + stGap s k p = 0 ∧ (s.st k).width = (s.srcCfg n).inW ∧ (s.st k).height = (s.srcCfg n).inH
          ∧ (∀ r, r < (s.srcCfg n).inH → Sparse.look (s.st k).rows r 0 = 2 ^ ((s.st k).width / unitPix (s.srcCfg n).fmt) - 1) ∧ s.rd
          (R.SRC_STATE_READY n) = 3 ∧ (s.src n).fill < 3) ∧
    (∃ (n : Nat) (k : Nat) (ring : Nat) (s : State), s.build = .head ∧ n < 16 ∧ k < 2 ∧ ring < 12 ∧ (s.src n).loading = true ∧
          s.coreGated = true ∧ s.dramQuiet) ∧
    (∃ (n : Nat) (k : Nat) (ring : Nat) (s : State), s.build = .head ∧ n < 16 ∧ k < 2 ∧ ring < 12 ∧ (s.src n).loading = true ∧
          s.coreGated = false ∧ s.rd (R.SRC_STATE_COND n) = condLoading ∧ s.dramQuiet ∧ s.dramServes (s.rd (R.SRC_COEF_BASE_BASE n) *
          4096) 2048 = true) ∧
    (∃ (n : Nat) (k : Nat) (ring : Nat) (s : State), s.build = .head ∧ n < 16 ∧ k < 2 ∧ ring < 12 ∧ s.coreGated = false ∧ (s.sendOf n
          ring).active = true ∧ (s.sendOf n ring).repeatOnly = false) :=
  ⟨by refine ⟨2, 1, 5, eS, 0, { pk with fieldBit := true }, ?_⟩; dsimp only [State.dramQuiet]; decide +kernel,
   by refine ⟨2, 1, 5, eS, 0, pk, ?_⟩; dsimp only [State.dramQuiet]; decide +kernel,
   by refine ⟨2, 1, 5, eF [(0, 1)], 0, { pk with rows := [{ row := 0, offset := 1, units := [0x123456789] }] }, { row := 0, offset := 1, units := [0x123456789] }, 0x123456789, (eF []).bufBase 2 0, 4, 1, 4, ?_⟩; dsimp only [State.dramQuiet]; decide +kernel,
   by refine ⟨2, 1, 5, eF [(0, 15)], 0, { pk with marker := true, extSeq := 23 }, ?_⟩; dsimp only [State.dramQuiet]; decide +kernel,
   by refine ⟨2, 1, 5, eF [(0, 15)], 0, { pk with marker := true }, ?_⟩; dsimp only [State.dramQuiet]; decide +kernel,
   by refine ⟨2, 1, 5, eS, ?_⟩; dsimp only [State.dramQuiet]; decide +kernel,
   by refine ⟨2, 1, 5, eF [(0, 15)], ?_⟩; dsimp only [State.dramQuiet]; decide +kernel,
   by refine ⟨2, 1, 5, eF [(0, 15)], ?_⟩; decide +kernel⟩

/-- A broadcast LINKDOWN. -/
def c1 : Cell := ctl tLinkdown 0x1234 noNode 7 true [1, 2]

/-- The hypotheses of CodewordsAndForwarding can be met, clause by clause. -/
theorem witness_CodewordsAndForwarding :
    (∃ (port : Nat) (s : State) (k : Nat) (n : Nat), s.build = .tile ∧ portExists .tile port = true ∧ s.asleep port = false ∧
          s.portState port = 2 ∧ s.portLanes port = [k] ∧ 15 < n) ∧
    (∃ (port : Nat) (s : State) (k : Nat) (n : Nat), s.build = .tile ∧ portExists .tile port = true ∧ s.asleep port = false ∧
          s.portState port = 2 ∧ s.portLanes port = [k] ∧ n ≤ 15) ∧
    (∃ (port : Nat) (c : Cell) (s : State), s.build = .tile ∧ portExists .tile port = true ∧ s.asleep port = false ∧ s.portState port =
          2 ∧ hcrcOk c = true ∧ typeOk c = true ∧ c.cls = clsControl ∧ linkLocal c = false ∧ c.hops < 65 ∧ s.loopOf port = 0 ∧ s.loopOf
          (otherPort .tile port) = 0 ∧ (c.bcast = true ∨ s.destHere port c = false) ∧ s.portState (otherPort .tile port) = 2) ∧
    (∃ (port : Nat) (c : Cell) (s : State) (u : State), s.build = .tile ∧ portExists .tile port = true ∧ s.asleep port = false ∧
          s.portState port = 2 ∧ u.build = .tile ∧ u.asleep port = false ∧ u.portState port = 3 ∧ u.loopOf port = 2 ∧ u.allAt port 11 =
          true ∧ hcrcOk c = true ∧ typeOk c = true) ∧
    (∃ (port : Nat) (c : Cell) (s : State), s.build = .tile ∧ portExists .tile port = true ∧ s.asleep port = false ∧ s.portState port =
          2 ∧ hcrcOk c = false) :=
  ⟨by refine ⟨0, upT [], 0, 16, ?_⟩; decide +kernel,
   by refine ⟨0, upT [], 0, 15, ?_⟩; decide +kernel,
   by refine ⟨0, c1, upT [], ?_⟩; decide +kernel,
   by refine ⟨0, c1, upT [], upT ([(R.RING_STATE_END_A 0, 3), (R.RING_CFG_LOOP 0, 2)] ++ (List.range 8).map (fun k => (R.LNE_STATE_STAGE k, 11))), ?_⟩; decide +kernel,
   by refine ⟨0, { c1 with hcrc := c1.hcrc + 1 }, upT [], ?_⟩; decide +kernel⟩

/-- A sealed TEST cell. -/
def testC : Cell := sealCell (mkCell clsBest 1 0x77 (nodeId 3 2 5) 0 false false [1, 2, 3]) false

/-- A tile at a cell of a window of 64, with cells waiting in its four queues, and 5 best-effort cells owed. -/
def shW (w : Nat) (n : Nat → Nat) : State :=
  let q (i : Nat) : List QCell := List.replicate (n i) { cell := c1, stomp := false }
  { upT [(R.RING_SHARE_PERMILLE 0, 70), (R.LNE_STATE_TXPS 0, 0)] with
    ports := [(0, { pI with win := w, share := 70, q0 := q 0, q1 := q 1, q2 := q 2, q3 := q 3 })] }

/-- The hypotheses of CellBoundaryAndTest can be met, clause by clause. -/
theorem witness_CellBoundaryAndTest :
    (∃ (port : Nat) (s : State) (q : QCell) (l : List QCell), s.build = .tile ∧ s.mayBoundary port = true ∧ s.loopOf port = 0 ∧ s.ship ≠
          shShipping ∧ bitOf (s.rd (R.RING_CTRL_GEN (portRing port / 4))) (portRing port % 4) = false ∧ (∀ e ∈ s.eth.ingress, e.2.1 ≠
          port) ∧ s.dramQuiet ∧ (s.port port).q0 = q :: l) ∧
    (∃ (port : Nat) (s : State) (share : Nat), s.build = .tile ∧ s.mayBoundary port = true ∧ s.loopOf port = 0 ∧ s.ship ≠ shShipping ∧
          bitOf (s.rd (R.RING_CTRL_GEN (portRing port / 4))) (portRing port % 4) = false ∧ (∀ e ∈ s.eth.ingress, e.2.1 ≠ port) ∧
          s.dramQuiet ∧ share = (if (s.port port).win = 0 then s.rd (R.RING_SHARE_PERMILLE (portRing port)) else (s.port port).share) ∧
          (s.port port).win < 64 ∧ (s.port port).q0 ≠ [] ∧ (s.port port).q3 ≠ []) ∧
    (∃ (port : Nat) (s : State) (share : Nat) (q : QCell) (l : List QCell), s.build = .tile ∧ s.mayBoundary port = true ∧ s.loopOf port
          = 0 ∧ s.ship ≠ shShipping ∧ bitOf (s.rd (R.RING_CTRL_GEN (portRing port / 4))) (portRing port % 4) = false ∧ (∀ e ∈
          s.eth.ingress, e.2.1 ≠ port) ∧ s.dramQuiet ∧ share = (if (s.port port).win = 0 then s.rd (R.RING_SHARE_PERMILLE (portRing
          port)) else (s.port port).share) ∧ (s.port port).win < 64 ∧ (s.port port).q0 = [] ∧ (s.port port).q3 = q :: l ∧ (64 - (s.port
          port).win ≤ beOwed (s.port port) share ∨ (s.port port).q1 = [] ∧ (s.port port).q2 = [])) ∧
    (∃ (port : Nat) (s : State) (share : Nat) (q : QCell) (l : List QCell), s.build = .tile ∧ s.mayBoundary port = true ∧ s.loopOf port
          = 0 ∧ s.ship ≠ shShipping ∧ bitOf (s.rd (R.RING_CTRL_GEN (portRing port / 4))) (portRing port % 4) = false ∧ (∀ e ∈
          s.eth.ingress, e.2.1 ≠ port) ∧ s.dramQuiet ∧ share = (if (s.port port).win = 0 then s.rd (R.RING_SHARE_PERMILLE (portRing
          port)) else (s.port port).share) ∧ (s.port port).win < 64 ∧ (s.port port).q0 = [] ∧ ((s.port port).q3 = [] ∨ beOwed (s.port
          port) share < 64 - (s.port port).win) ∧ (s.port port).q1 = q :: l) ∧
    (∃ (port : Nat) (s : State) (share : Nat) (q : QCell) (l : List QCell), s.build = .tile ∧ s.mayBoundary port = true ∧ s.loopOf port
          = 0 ∧ s.ship ≠ shShipping ∧ bitOf (s.rd (R.RING_CTRL_GEN (portRing port / 4))) (portRing port % 4) = false ∧ (∀ e ∈
          s.eth.ingress, e.2.1 ≠ port) ∧ s.dramQuiet ∧ share = (if (s.port port).win = 0 then s.rd (R.RING_SHARE_PERMILLE (portRing
          port)) else (s.port port).share) ∧ (s.port port).win < 64 ∧ (s.port port).q0 = [] ∧ ((s.port port).q3 = [] ∨ beOwed (s.port
          port) share < 64 - (s.port port).win) ∧ (s.port port).q1 = [] ∧ (s.port port).q2 = q :: l ∧ s.pacedEnd port = false) ∧
    (∃ (port : Nat) (s : State), s.build = .tile ∧ s.mayBoundary port = true ∧ s.loopOf port = 0 ∧ s.ship ≠ shShipping ∧ bitOf (s.rd
          (R.RING_CTRL_GEN (portRing port / 4))) (portRing port % 4) = false ∧ (∀ e ∈ s.eth.ingress, e.2.1 ≠ port) ∧ s.dramQuiet ∧
          s.outEmpty port = true) ∧
    (∃ (port : Nat) (s : State) (c : Cell), s.build = .tile ∧ s.mayBoundary port = true ∧ s.loopOf port = 0 ∧ s.ship ≠ shShipping ∧
          bitOf (s.rd (R.RING_CTRL_GEN (portRing port / 4))) (portRing port % 4) = false ∧ (∀ e ∈ s.eth.ingress, e.2.1 ≠ port) ∧
          s.dramQuiet ∧ c.cls = clsBest ∧ c.typ = 1 ∧ s.receive port c = (true, s) ∧ bitOf (s.rd (R.RING_CTRL_CHK (portRing port / 4)))
          (portRing port % 4) = true ∧ (s.port port).prbsOn = false) ∧
    (∃ (port : Nat) (s : State) (c : Cell), s.build = .tile ∧ s.mayBoundary port = true ∧ s.loopOf port = 0 ∧ s.ship ≠ shShipping ∧
          bitOf (s.rd (R.RING_CTRL_GEN (portRing port / 4))) (portRing port % 4) = false ∧ (∀ e ∈ s.eth.ingress, e.2.1 ≠ port) ∧
          s.dramQuiet ∧ c.cls = clsBest ∧ c.typ = 1 ∧ s.receive port c = (true, s) ∧ bitOf (s.rd (R.RING_CTRL_CHK (portRing port / 4)))
          (portRing port % 4) = true ∧ (s.port port).prbsOn = true) :=
  ⟨by refine ⟨0, { fl (upT []) [(R.LNE_STATE_TXPS 0, 0)] with ports := [(0, { pI with q0 := [{ cell := c1, stomp := false }] })] }, { cell := c1, stomp := false }, [], ?_⟩; dsimp only [State.dramQuiet]; decide +kernel,
   by refine ⟨0, shW 62 (fun _ => 1), 70, ?_⟩; dsimp only [State.dramQuiet]; decide +kernel,
   by refine ⟨0, shW 59 (fun n => if n = 0 then 0 else 1), 70, { cell := c1, stomp := false }, [], ?_⟩; dsimp only [State.dramQuiet]; decide +kernel,
   by refine ⟨0, shW 0 (fun n => if n = 0 then 0 else 1), 70, { cell := c1, stomp := false }, [], ?_⟩; dsimp only [State.dramQuiet]; decide +kernel,
   by refine ⟨0, shW 58 (fun n => if n = 2 then 1 else 0), 70, { cell := c1, stomp := false }, [], ?_⟩; dsimp only [State.dramQuiet]; decide +kernel,
   by refine ⟨0, { fl (upT []) [(R.LNE_STATE_TXPS 0, 0)] with ports := [(0, pI)] }, ?_⟩; dsimp only [State.dramQuiet]; decide +kernel,
   by refine ⟨0, { upT [(R.RING_CTRL_CHK 0, 1), (R.LNE_STATE_TXPS 0, 0)] with ports := [(0, pI)] }, testC, ?_⟩; dsimp only [State.dramQuiet]; decide +kernel,
   by refine ⟨0, { upT [(R.RING_CTRL_CHK 0, 1), (R.LNE_STATE_TXPS 0, 0)] with ports := [(0, { pI with prbsOn := true, prbsRx := 77 })] }, testC, ?_⟩; dsimp only [State.dramQuiet]; decide +kernel⟩

/-- The duplicate window of node 0x1234, at 7. -/
def ke : KeyEnt := { cls := clsControl, id := 0x1234, h := 7, map := 1, used := 0 }

/-- A pixel-class cell of stream 5. -/
def pix (loc : Bool) (seq : Nat) (pl : List Byte) : Cell :=
  sealCell { mkCell clsPixel 0 0x1234 noNode seq false true pl with loc := loc, stream := 5 } false

/-- A locator of stream 5 in epoch 4. -/
def locP (kind : Nat) : List Byte := natLE kind 4 ++ natLE 4 4 ++ natLE 9 4 ++ natLE 0 4

/-- A capture of stream 5 that waits for cell 1. -/
def cap0 : Capture :=
  { kind := .frame, epoch := 4, began := 4, stream := 5, frame := 9, u := 0, v := 0, w := 16, h := 4, ofsX := 0, u0 := 0, u1 := 16, y0 := 0,
    y1 := 4, upl := 16, need := 6, got := 4, lost := false }

/-- Layer 2 of half W captures stream 5. -/
def capL (o : Option Capture) (ll : Option Nat) : State :=
  { upT ([(R.LYR_CFG_CAP_EN 0 2, 1), (R.LYR_STATE_RUN 0 2, 2), (R.LYR_STATE_EN_CUR 0 2, 1), (R.LYR_CTL_EN 0 2, 1),
      (R.LYR_CAP_STREAM 0 2, 5)] ++ on .LYR 0) with
    eng := { T.eng with lay := { T.eng.lay with
      lastLatch := ll
      locs := [(5, { index := 0, sq := 10, cells := 9, epoch := 4 })]
      layers := [(2, { Layer.init with mem := true, cap := o })] } }
    cairn := { T.cairn with epoch := Tri.set 4 } }

/-- A FRAME locator of stream 5 in epoch 4: 16 by 4 pixels from (x, y) of a surface in a format. -/
def locF (x y sf fmt : Nat) : Cell :=
  pix true 7 (natLE 0 4 ++ natLE 4 4 ++ natLE 9 4 ++ natLE 0 12 ++ natLE x 2 ++ natLE y 2 ++ natLE 16 2 ++ natLE 4 2 ++ natLE sf 1 ++ natLE fmt 1)

/-- Layer 2 of half W, whose window is 64 by 48 pixels, with a stride and a buffer for them. -/
def capF (st bs : Nat) : State :=
  fl (capL none none) [(R.PRS_WIN_SIZE_W 0, 64), (R.PRS_WIN_SIZE_H 0, 48), (R.LYR_STRIDE_BYTES 0 2, st), (R.LYR_BUFSIZE_SIZE 0 2, bs)]

/-- The hypotheses of DuplicatesAndCapture can be met, clause by clause. -/
theorem witness_DuplicatesAndCapture :
    (∃ (port : Nat) (c : Cell) (e : KeyEnt) (s : State), s.build = .tile ∧ portExists .tile port = true ∧ s.asleep port = false ∧
          s.portState port = 2 ∧ s.loopOf port = 0 ∧ hcrcOk c = true ∧ typeOk c = true ∧ trailerOk c = true ∧ c.cls = clsControl ∧ c.typ
          = tEvent ∧ c.hops < 65 ∧ c.bcast = true ∧ keyFind s.seqs.keys clsControl c.src = some e ∧ c.seq % 65536 = e.h) ∧
    (∃ (port : Nat) (c : Cell) (e : KeyEnt) (s : State), s.build = .tile ∧ portExists .tile port = true ∧ s.asleep port = false ∧
          s.portState port = 2 ∧ s.loopOf port = 0 ∧ hcrcOk c = true ∧ typeOk c = true ∧ trailerOk c = true ∧ c.cls = clsControl ∧ c.typ
          = tEvent ∧ c.hops < 65 ∧ c.bcast = true ∧ keyFind s.seqs.keys clsControl c.src = some e ∧ e.h < c.seq % 65536 ∧ c.seq % 65536
          < e.h + 32768 ∧ c.sync = false) ∧
    (∃ (port : Nat) (c : Cell) (s : State) (u : State), s.build = .tile ∧ c.cls = clsPixel ∧ s.receive port c = (true, u) ∧ c.loc = true
          ∧ pn c 0 4 = 2 ∧ u.latchPassed (pn c 4 4) = false) ∧
    (∃ (port : Nat) (c : Cell) (s : State) (u : State), s.build = .tile ∧ c.cls = clsPixel ∧ s.receive port c = (true, u) ∧ c.loc = true
          ∧ u.latchPassed (pn c 4 4) = true) ∧
    (∃ (port : Nat) (c : Cell) (s : State) (u : State) (h : Nat) (k : Nat) (f : Nat) (al : Nat) (ix0 : Nat) (ix1 : Nat) (iy0 : Nat) (iy1
          : Nat) (x0 : Nat) (x1 : Nat), s.build = .tile ∧ c.cls = clsPixel ∧ s.receive port c = (true, u) ∧ h < 2 ∧ k < 16 ∧ c.loc =
          true ∧ pn c 0 4 = 0 ∧ u.latchPassed (pn c 4 4) = false ∧ u.captors c.stream = [(h, k)] ∧ f = u.rd (R.LYR_CFG_FMT h k) ∧ (al =
          (if f = 4 then 4 else if f = 2 ∨ f = 5 then 2 else 1)) ∧ ix0 = max (pn c 24 2) (u.rd (R.PRS_WIN_XY_X h)) ∧ ix1 = min (pn c 24
          2 + pn c 28 2) (u.rd (R.PRS_WIN_XY_X h) + u.rd (R.PRS_WIN_SIZE_W h)) ∧ iy0 = max (pn c 26 2) (u.rd (R.PRS_WIN_XY_Y h)) ∧ iy1 =
          min (pn c 26 2 + pn c 30 2) (u.rd (R.PRS_WIN_XY_Y h) + u.rd (R.PRS_WIN_SIZE_H h)) ∧ x0 = (ix0 - pn c 24 2) / al * al ∧ x1 =
          min (pn c 28 2) ((ix1 - pn c 24 2 + al - 1) / al * al) ∧ pb c 0x20 % 16 ≠ u.rd (R.PRS_CFG_SURFACE h)) ∧
    (∃ (port : Nat) (c : Cell) (s : State) (u : State) (h : Nat) (k : Nat) (f : Nat) (al : Nat) (ix0 : Nat) (ix1 : Nat) (iy0 : Nat) (iy1
          : Nat) (x0 : Nat) (x1 : Nat), s.build = .tile ∧ c.cls = clsPixel ∧ s.receive port c = (true, u) ∧ h < 2 ∧ k < 16 ∧ c.loc =
          true ∧ pn c 0 4 = 0 ∧ u.latchPassed (pn c 4 4) = false ∧ u.captors c.stream = [(h, k)] ∧ f = u.rd (R.LYR_CFG_FMT h k) ∧ (al =
          (if f = 4 then 4 else if f = 2 ∨ f = 5 then 2 else 1)) ∧ ix0 = max (pn c 24 2) (u.rd (R.PRS_WIN_XY_X h)) ∧ ix1 = min (pn c 24
          2 + pn c 28 2) (u.rd (R.PRS_WIN_XY_X h) + u.rd (R.PRS_WIN_SIZE_W h)) ∧ iy0 = max (pn c 26 2) (u.rd (R.PRS_WIN_XY_Y h)) ∧ iy1 =
          min (pn c 26 2 + pn c 30 2) (u.rd (R.PRS_WIN_XY_Y h) + u.rd (R.PRS_WIN_SIZE_H h)) ∧ x0 = (ix0 - pn c 24 2) / al * al ∧ x1 =
          min (pn c 28 2) ((ix1 - pn c 24 2 + al - 1) / al * al) ∧ pb c 0x20 % 16 = u.rd (R.PRS_CFG_SURFACE h) ∧ pb c 0x21 ≠ f) ∧
    (∃ (port : Nat) (c : Cell) (s : State) (u : State) (h : Nat) (k : Nat) (f : Nat) (al : Nat) (ix0 : Nat) (ix1 : Nat) (iy0 : Nat) (iy1
          : Nat) (x0 : Nat) (x1 : Nat), s.build = .tile ∧ c.cls = clsPixel ∧ s.receive port c = (true, u) ∧ h < 2 ∧ k < 16 ∧ c.loc =
          true ∧ pn c 0 4 = 0 ∧ u.latchPassed (pn c 4 4) = false ∧ u.captors c.stream = [(h, k)] ∧ f = u.rd (R.LYR_CFG_FMT h k) ∧ (al =
          (if f = 4 then 4 else if f = 2 ∨ f = 5 then 2 else 1)) ∧ ix0 = max (pn c 24 2) (u.rd (R.PRS_WIN_XY_X h)) ∧ ix1 = min (pn c 24
          2 + pn c 28 2) (u.rd (R.PRS_WIN_XY_X h) + u.rd (R.PRS_WIN_SIZE_W h)) ∧ iy0 = max (pn c 26 2) (u.rd (R.PRS_WIN_XY_Y h)) ∧ iy1 =
          min (pn c 26 2 + pn c 30 2) (u.rd (R.PRS_WIN_XY_Y h) + u.rd (R.PRS_WIN_SIZE_H h)) ∧ x0 = (ix0 - pn c 24 2) / al * al ∧ x1 =
          min (pn c 28 2) ((ix1 - pn c 24 2 + al - 1) / al * al) ∧ pb c 0x20 % 16 = u.rd (R.PRS_CFG_SURFACE h) ∧ pb c 0x21 = f ∧ (ix1 ≤
          ix0 ∨ iy1 ≤ iy0)) ∧
    (∃ (port : Nat) (c : Cell) (s : State) (u : State) (h : Nat) (k : Nat) (f : Nat) (al : Nat) (ix0 : Nat) (ix1 : Nat) (iy0 : Nat) (iy1
          : Nat) (x0 : Nat) (x1 : Nat), s.build = .tile ∧ c.cls = clsPixel ∧ s.receive port c = (true, u) ∧ h < 2 ∧ k < 16 ∧ c.loc =
          true ∧ pn c 0 4 = 0 ∧ u.latchPassed (pn c 4 4) = false ∧ u.captors c.stream = [(h, k)] ∧ f = u.rd (R.LYR_CFG_FMT h k) ∧ (al =
          (if f = 4 then 4 else if f = 2 ∨ f = 5 then 2 else 1)) ∧ ix0 = max (pn c 24 2) (u.rd (R.PRS_WIN_XY_X h)) ∧ ix1 = min (pn c 24
          2 + pn c 28 2) (u.rd (R.PRS_WIN_XY_X h) + u.rd (R.PRS_WIN_SIZE_W h)) ∧ iy0 = max (pn c 26 2) (u.rd (R.PRS_WIN_XY_Y h)) ∧ iy1 =
          min (pn c 26 2 + pn c 30 2) (u.rd (R.PRS_WIN_XY_Y h) + u.rd (R.PRS_WIN_SIZE_H h)) ∧ x0 = (ix0 - pn c 24 2) / al * al ∧ x1 =
          min (pn c 28 2) ((ix1 - pn c 24 2 + al - 1) / al * al) ∧ pb c 0x20 % 16 = u.rd (R.PRS_CFG_SURFACE h) ∧ pb c 0x21 = f ∧ ix0 <
          ix1 ∧ iy0 < iy1 ∧ (u.rd (R.LYR_STRIDE_BYTES h k) < (((x1 + unitPix f - 1) / unitPix f - x0 / unitPix f) * memBits f + 7) / 8 ∨
          u.rd (R.LYR_BUFSIZE_SIZE h k) * 4096 < (iy1 - iy0) * u.rd (R.LYR_STRIDE_BYTES h k))) ∧
    (∃ (port : Nat) (c : Cell) (s : State) (u : State) (h : Nat) (k : Nat) (f : Nat) (al : Nat) (ix0 : Nat) (ix1 : Nat) (iy0 : Nat) (iy1
          : Nat) (x0 : Nat) (x1 : Nat), s.build = .tile ∧ c.cls = clsPixel ∧ s.receive port c = (true, u) ∧ h < 2 ∧ k < 16 ∧ c.loc =
          true ∧ pn c 0 4 = 0 ∧ u.latchPassed (pn c 4 4) = false ∧ u.captors c.stream = [(h, k)] ∧ f = u.rd (R.LYR_CFG_FMT h k) ∧ (al =
          (if f = 4 then 4 else if f = 2 ∨ f = 5 then 2 else 1)) ∧ ix0 = max (pn c 24 2) (u.rd (R.PRS_WIN_XY_X h)) ∧ ix1 = min (pn c 24
          2 + pn c 28 2) (u.rd (R.PRS_WIN_XY_X h) + u.rd (R.PRS_WIN_SIZE_W h)) ∧ iy0 = max (pn c 26 2) (u.rd (R.PRS_WIN_XY_Y h)) ∧ iy1 =
          min (pn c 26 2 + pn c 30 2) (u.rd (R.PRS_WIN_XY_Y h) + u.rd (R.PRS_WIN_SIZE_H h)) ∧ x0 = (ix0 - pn c 24 2) / al * al ∧ x1 =
          min (pn c 28 2) ((ix1 - pn c 24 2 + al - 1) / al * al) ∧ pb c 0x20 % 16 = u.rd (R.PRS_CFG_SURFACE h) ∧ pb c 0x21 = f ∧ ix0 <
          ix1 ∧ iy0 < iy1 ∧ (((x1 + unitPix f - 1) / unitPix f - x0 / unitPix f) * memBits f + 7) / 8 ≤ u.rd (R.LYR_STRIDE_BYTES h k) ∧
          (iy1 - iy0) * u.rd (R.LYR_STRIDE_BYTES h k) ≤ u.rd (R.LYR_BUFSIZE_SIZE h k) * 4096) ∧
    (∃ (port : Nat) (c : Cell) (s : State) (u : State) (lc : StreamLoc) (h : Nat) (k : Nat) (cap : Capture), s.build = .tile ∧ c.cls =
          clsPixel ∧ s.receive port c = (true, u) ∧ c.loc = false ∧ h < 2 ∧ k < 16 ∧ Sparse.get u.eng.lay.locs c.stream = some lc ∧
          u.latchPassed lc.epoch = false ∧ u.captors c.stream = [(h, k)] ∧ (u.layer h k).cap = some cap ∧ cap.kind = .frame ∧ cap.stream
          = c.stream ∧ cap.epoch = lc.epoch ∧ bitOf cap.need (lc.index + (c.seq + 65536 - lc.sq) % 65536) = true ∧ u.dramQuiet ∧
          (u.capSpans h k cap (lc.index + (c.seq + 65536 - lc.sq) % 65536)).all (fun e => u.dramServes e.1 e.2) = true) :=
  ⟨by refine ⟨0, ctl tEvent 0x1234 noNode 7 true [1, 2], ke, { upT [] with seqs := { T.seqs with keys := [ke] } }, ?_⟩; decide +kernel,
   by refine ⟨0, ctl tEvent 0x1234 noNode 8 true [1, 2], ke, { upT [] with seqs := { T.seqs with keys := [ke] } }, ?_⟩; decide +kernel,
   by refine ⟨0, pix true 7 (locP 2), { upT [] with seqs := { T.seqs with keys := [ke] } }, (({ upT [] with seqs := { T.seqs with keys := [ke] } }).receive (0) (pix true 7 (locP 2))).2, ?_⟩; decide +kernel,
   by refine ⟨0, pix true 7 (locP 2), { capL none (some 4) with cairn := { T.cairn with epoch := Tri.set 5 } }, (({ capL none (some 4) with cairn := { T.cairn with epoch := Tri.set 5 } }).receive (0) (pix true 7 (locP 2))).2, ?_⟩; decide +kernel,
   by refine ⟨0, locF 0 0 1 0, capL none none, ((capL none none).receive (0) (locF 0 0 1 0)).2, 0, 2, 0, 1, 0, 0, 0, 0, 0, 0, ?_⟩; decide +kernel,
   by refine ⟨0, locF 0 0 0 1, capL none none, ((capL none none).receive (0) (locF 0 0 0 1)).2, 0, 2, 0, 1, 0, 0, 0, 0, 0, 0, ?_⟩; decide +kernel,
   by refine ⟨0, pix true 8 (locP 0), capL none none, ((capL none none).receive (0) (pix true 8 (locP 0))).2, 0, 2, 0, 1, 0, 0, 0, 0, 0, 0, ?_⟩; decide +kernel,
   by refine ⟨0, locF 63 45 0 0, capF 4096 0, ((capF 4096 0).receive (0) (locF 63 45 0 0)).2, 0, 2, 0, 1, 63, 64, 45, 48, 0, 1, ?_⟩; decide +kernel,
   by refine ⟨0, locF 63 45 0 0, capF 4096 3, ((capF 4096 3).receive (0) (locF 63 45 0 0)).2, 0, 2, 0, 1, 63, 64, 45, 48, 0, 1, ?_⟩; decide +kernel,
   by refine ⟨0, pix false 11 [1, 2, 3], capL (some cap0) none, ((capL (some cap0) none).receive (0) (pix false 11 [1, 2, 3])).2, { index := 0, sq := 10, cells := 9, epoch := 4 }, 0, 2, cap0, ?_⟩; dsimp only [State.dramQuiet]; decide +kernel⟩

/-- Lane 0 in a stage, its port in training. -/
def lst (n : Nat) : State := upT [(R.LNE_STATE_STAGE 0, n), (R.RING_STATE_END_A 0, if n = 11 then 2 else 1)]

/-- The lanes of port 0 in a stage and in their codeword stream, the port in training. -/
def lsA (n : Nat) (p : Port) (l : List (Fld × Nat)) : State :=
  { upT ((R.RING_STATE_END_A 0, 1) :: (R.RING_CFG_WIDTH 0, 2) :: (List.range 4).map (fun k => (R.LNE_STATE_STAGE k, n)) ++ (List.range 4).map (fun k => (R.LNE_STATE_TXPS k, 0)) ++ l) with
    ports := [(0, { p with coded := [0, 1, 2, 3] })] }

/-- What a stage finds: the lane's index, the peer's precoding, the eye. -/
def fnd (inv : Bool) (ix : Nat) (pre : Bool) (eye : Nat) : StageInfo :=
  { inverted := inv, laneIndex := ix, farPrecode := pre, eye := eye, pre := 4, main := 5, post := 6, farReady := false }

/-- The hypotheses of LaneBringUp can be met, clause by clause. -/
theorem witness_LaneBringUp :
    (∃ (lane : Nat) (port : Nat) (s : State), port < 24 ∧ s.laneOwner lane = some port ∧ s.portOn port = true ∧ s.asleep port = false ∧
          (∀ k ∈ s.portLanes port, k < 48) ∧ lane < 48 ∧ s.rd (R.LNE_STATE_STAGE lane) ∈ [1, 2, 6, 7]) ∧
    (∃ (lane : Nat) (port : Nat) (s : State) (i : StageInfo), port < 24 ∧ s.laneOwner lane = some port ∧ s.portOn port = true ∧ s.asleep
          port = false ∧ (∀ k ∈ s.portLanes port, k < 48) ∧ lane < 48 ∧ s.rd (R.LNE_STATE_STAGE lane) = 3 ∧ (i.inverted = false ∨ s.on
          (R.LNE_CFG_POL_AUTO lane) = true)) ∧
    (∃ (lane : Nat) (port : Nat) (s : State) (i : StageInfo), port < 24 ∧ s.laneOwner lane = some port ∧ s.portOn port = true ∧ s.asleep
          port = false ∧ (∀ k ∈ s.portLanes port, k < 48) ∧ lane < 48 ∧ s.rd (R.LNE_STATE_STAGE lane) = 3 ∧ i.inverted = true ∧ s.on
          (R.LNE_CFG_POL_AUTO lane) = false) ∧
    (∃ (lane : Nat) (port : Nat) (s : State) (i : StageInfo) (rep : List (Nat × Nat)), port < 24 ∧ s.laneOwner lane = some port ∧
          s.portOn port = true ∧ s.asleep port = false ∧ (∀ k ∈ s.portLanes port, k < 48) ∧ lane < 48 ∧ s.rd (R.LNE_STATE_STAGE lane) =
          4 ∧ rep = Sparse.put (s.port port).passed lane i.laneIndex ∧ rep.length < (s.portLanes port).length) ∧
    (∃ (lane : Nat) (port : Nat) (s : State) (i : StageInfo) (rep : List (Nat × Nat)) (rev : Bool), port < 24 ∧ s.laneOwner lane = some
          port ∧ s.portOn port = true ∧ s.asleep port = false ∧ (∀ k ∈ s.portLanes port, k < 48) ∧ lane < 48 ∧ s.rd (R.LNE_STATE_STAGE
          lane) = 4 ∧ rep = Sparse.put (s.port port).passed lane i.laneIndex ∧ (s.portLanes port).length ≤ rep.length ∧ rev = true ∧ (1
          < (s.portLanes port).length ∨ rev = false) ∧ (∀ n, n < (s.portLanes port).length → Sparse.get rep ((s.portLanes port).getD n
          0) = some (if rev then (s.portLanes port).length - 1 - n else n))) ∧
    (∃ (lane : Nat) (port : Nat) (s : State) (i : StageInfo) (rep : List (Nat × Nat)), port < 24 ∧ s.laneOwner lane = some port ∧
          s.portOn port = true ∧ s.asleep port = false ∧ (∀ k ∈ s.portLanes port, k < 48) ∧ lane < 48 ∧ s.rd (R.LNE_STATE_STAGE lane) =
          4 ∧ rep = Sparse.put (s.port port).passed lane i.laneIndex ∧ (s.portLanes port).length ≤ rep.length ∧ ∃ n, n < (s.portLanes
          port).length ∧ Sparse.get rep ((s.portLanes port).getD n 0) ≠ some n ∧ ∃ n, n < (s.portLanes port).length ∧ Sparse.get rep
          ((s.portLanes port).getD n 0) ≠ some ((s.portLanes port).length - 1 - n)) ∧
    (∃ (lane : Nat) (port : Nat) (s : State) (i : StageInfo), port < 24 ∧ s.laneOwner lane = some port ∧ s.portOn port = true ∧ s.asleep
          port = false ∧ (∀ k ∈ s.portLanes port, k < 48) ∧ lane < 48 ∧ s.rd (R.LNE_STATE_STAGE lane) = 5 ∧ i.farPrecode ≠ s.on
          (R.LNE_CFG_PRECODE_RX lane)) ∧
    (∃ (lane : Nat) (port : Nat) (s : State) (i : StageInfo), port < 24 ∧ s.laneOwner lane = some port ∧ s.portOn port = true ∧ s.asleep
          port = false ∧ (∀ k ∈ s.portLanes port, k < 48) ∧ lane < 48 ∧ s.rd (R.LNE_STATE_STAGE lane) = 5 ∧ i.farPrecode = s.on
          (R.LNE_CFG_PRECODE_RX lane) ∧ i.eye < 30) ∧
    (∃ (lane : Nat) (port : Nat) (s : State) (i : StageInfo), port < 24 ∧ s.laneOwner lane = some port ∧ s.portOn port = true ∧ s.asleep
          port = false ∧ (∀ k ∈ s.portLanes port, k < 48) ∧ lane < 48 ∧ s.rd (R.LNE_STATE_STAGE lane) = 5 ∧ i.farPrecode = s.on
          (R.LNE_CFG_PRECODE_RX lane) ∧ 30 ≤ i.eye) ∧
    (∃ (lane : Nat) (port : Nat) (s : State), port < 24 ∧ s.laneOwner lane = some port ∧ s.portOn port = true ∧ s.asleep port = false ∧
          (∀ k ∈ s.portLanes port, k < 48) ∧ lane < 48 ∧ s.rd (R.LNE_STATE_STAGE lane) = 8 ∧ s.allAt port 8 = false) ∧
    (∃ (lane : Nat) (port : Nat) (s : State), port < 24 ∧ s.laneOwner lane = some port ∧ s.portOn port = true ∧ s.asleep port = false ∧
          (∀ k ∈ s.portLanes port, k < 48) ∧ lane < 48 ∧ s.rd (R.LNE_STATE_STAGE lane) = 8 ∧ s.allAt port 8 = true ∧ (s.port
          port).waking = false) ∧
    (∃ (lane : Nat) (port : Nat) (s : State), port < 24 ∧ s.laneOwner lane = some port ∧ s.portOn port = true ∧ s.asleep port = false ∧
          (∀ k ∈ s.portLanes port, k < 48) ∧ lane < 48 ∧ s.rd (R.LNE_STATE_STAGE lane) = 8 ∧ s.allAt port 8 = true ∧ (s.port
          port).waking = true) ∧
    (∃ (lane : Nat) (port : Nat) (s : State), port < 24 ∧ s.laneOwner lane = some port ∧ s.portOn port = true ∧ s.asleep port = false ∧
          (∀ k ∈ s.portLanes port, k < 48) ∧ lane < 48 ∧ s.rd (R.LNE_STATE_STAGE lane) = 9 ∧ (s.port port).neighOk = true ∧ s.lanesSend
          port = true) ∧
    (∃ (lane : Nat) (port : Nat) (s : State), port < 24 ∧ s.laneOwner lane = some port ∧ s.portOn port = true ∧ s.asleep port = false ∧
          (∀ k ∈ s.portLanes port, k < 48) ∧ lane < 48 ∧ s.rd (R.LNE_STATE_STAGE lane) = 9 ∧ (s.port port).neighOk = false ∧ s.lanesSend
          port = true) ∧
    (∃ (lane : Nat) (port : Nat) (s : State), port < 24 ∧ s.laneOwner lane = some port ∧ s.portOn port = true ∧ s.asleep port = false ∧
          (∀ k ∈ s.portLanes port, k < 48) ∧ lane < 48 ∧ s.rd (R.LNE_STATE_STAGE lane) = 10 ∧ ((s.port port).dlyNext = none ∨ (s.port
          port).measuring = true)) ∧
    (∃ (lane : Nat) (port : Nat) (s : State), port < 24 ∧ s.laneOwner lane = some port ∧ s.portOn port = true ∧ s.asleep port = false ∧
          (∀ k ∈ s.portLanes port, k < 48) ∧ lane < 48 ∧ s.rd (R.LNE_STATE_STAGE lane) = 10 ∧ (s.port port).dlyNext ≠ none ∧ (s.port
          port).measuring = false) ∧
    (∃ (lane : Nat) (port : Nat) (s : State) (reason : Nat), port < 24 ∧ s.laneOwner lane = some port ∧ s.portOn port = true ∧ s.asleep
          port = false ∧ (∀ k ∈ s.portLanes port, k < 48) ∧ lane < 48 ∧ reason < 16 ∧ 2 ≤ s.rd (R.LNE_STATE_STAGE lane) ∧ s.rd
          (R.LNE_STATE_STAGE lane) ≤ 10) ∧
    (∃ (lane : Nat) (port : Nat) (s : State), port < 24 ∧ s.laneOwner lane = some port ∧ s.portOn port = true ∧ s.asleep port = false ∧
          (∀ k ∈ s.portLanes port, k < 48) ∧ lane < 48 ∧ s.rd (R.LNE_STATE_STAGE lane) = 11 ∧ s.portState port = 3 ∧ s.loopOf port ≠ 0) ∧
    (∃ (lane : Nat) (port : Nat) (s : State), port < 24 ∧ s.laneOwner lane = some port ∧ s.portOn port = true ∧ s.asleep port = false ∧
          (∀ k ∈ s.portLanes port, k < 48) ∧ lane < 48 ∧ s.rd (R.LNE_STATE_STAGE lane) = 11 ∧ s.portState port = 2 ∧ s.loopOf port = 0) ∧
    (∃ (lane : Nat) (port : Nat) (s : State), port < 24 ∧ s.laneOwner lane = some port ∧ s.portOn port = true ∧ s.asleep port = false ∧
          (∀ k ∈ s.portLanes port, k < 48) ∧ lane < 48 ∧ portExists s.build port = true ∧ (s.portState port = 4 ∧ s.loopOf port = 0 ∨
          s.loopOf port ≠ 0 ∧ s.allAt port 12 = true)) ∧
    (∃ (lane : Nat) (port : Nat) (s : State), port < 24 ∧ s.laneOwner lane = some port ∧ s.portOn port = true ∧ s.asleep port = false ∧
          (∀ k ∈ s.portLanes port, k < 48) ∧ lane < 48 ∧ s.lanesUp port = true ∧ s.pstate = pShoulder ∧ s.outIdle port = true) ∧
    (∃ (lane : Nat) (port : Nat) (s : State), port < 24 ∧ s.laneOwner lane = some port ∧ s.portOn port = true ∧ s.asleep port = false ∧
          (∀ k ∈ s.portLanes port, k < 48) ∧ lane < 48 ∧ portExists s.build port = true ∧ (s.outEmpty port = false ∧ s.loopOf port ≠ 1 ∨
          s.pstate ≠ pShoulder)) ∧
    (∃ (lane : Nat) (port : Nat) (s : State), port < 24 ∧ s.laneOwner lane = some port ∧ s.portOn port = true ∧ s.asleep port = false ∧
          (∀ k ∈ s.portLanes port, k < 48) ∧ lane < 48 ∧ s.lanesUp port = true ∧ s.outEmpty port = true ∧ s.quietLanes port ≠ [] ∧
          s.loopOf port ≠ 1 ∧ s.pstate = pShoulder ∧ s.testOn port = false) ∧
    (∃ (lane : Nat) (port : Nat) (s : State), port < 24 ∧ s.laneOwner lane = some port ∧ s.portOn port = true ∧ s.asleep port = false ∧
          (∀ k ∈ s.portLanes port, k < 48) ∧ lane < 48 ∧ s.lanesUp port = true ∧ s.outEmpty port = true ∧ s.quietLanes port ≠ [] ∧
          s.loopOf port ≠ 1 ∧ s.pstate = pShoulder ∧ s.testOn port = true ∧ s.mute (portRing port) = false ∧ 0 < s.rd (R.RING_TEST_RATE
          (portRing port))) ∧
    (∃ (lane : Nat) (port : Nat) (s : State), port < 24 ∧ s.laneOwner lane = some port ∧ s.portOn port = true ∧ s.asleep port = false ∧
          (∀ k ∈ s.portLanes port, k < 48) ∧ lane < 48 ∧ portExists s.build port = true ∧ s.quietLanes port ≠ []) :=
  ⟨by refine ⟨0, 0, lst 7, ?_⟩; decide +kernel,
   by refine ⟨0, 0, lsA 3 Port.init [], fnd false 0 false 40, ?_⟩; decide +kernel,
   by refine ⟨0, 0, lsA 3 Port.init [(R.LNE_CFG_POL_AUTO 0, 0)], fnd true 3 true 40, ?_⟩; decide +kernel,
   by refine ⟨0, 0, lsA 4 Port.init [], fnd false 0 false 40, (Sparse.put ((lsA 4 Port.init [] : State).port (0 : Nat)).passed (0 : Nat) (fnd false 0 false 40 : StageInfo).laneIndex), ?_⟩; decide +kernel,
   by refine ⟨0, 0, lsA 4 { Port.init with passed := [(1, 2), (2, 1), (3, 0)] } [], fnd true 3 true 40, (Sparse.put ((lsA 4 { Port.init with passed := [(1, 2), (2, 1), (3, 0)] } [] : State).port (0 : Nat)).passed (0 : Nat) (fnd true 3 true 40 : StageInfo).laneIndex), true, ?_⟩; decide +kernel,
   by refine ⟨0, 0, lsA 4 { Port.init with passed := [(1, 1), (2, 2), (3, 3)] } [], fnd true 3 true 40, (Sparse.put ((lsA 4 { Port.init with passed := [(1, 1), (2, 2), (3, 3)] } [] : State).port (0 : Nat)).passed (0 : Nat) (fnd true 3 true 40 : StageInfo).laneIndex), ?_⟩; decide +kernel,
   by refine ⟨0, 0, lsA 5 Port.init [], fnd true 3 true 40, ?_⟩; decide +kernel,
   by refine ⟨0, 0, lsA 5 Port.init [], fnd false 7 false 20, ?_⟩; decide +kernel,
   by refine ⟨0, 0, lsA 5 Port.init [], fnd false 0 false 40, ?_⟩; decide +kernel,
   by refine ⟨0, 0, lsA 8 Port.init [(R.LNE_STATE_STAGE 1, 7)], ?_⟩; decide +kernel,
   by refine ⟨0, 0, lsA 8 Port.init [], ?_⟩; decide +kernel,
   by refine ⟨0, 0, lsA 8 { Port.init with waking := true } [], ?_⟩; decide +kernel,
   by refine ⟨0, 0, lsA 9 { Port.init with neighOk := true } [], ?_⟩; decide +kernel,
   by refine ⟨0, 0, lsA 9 Port.init [], ?_⟩; decide +kernel,
   by refine ⟨0, 0, lst 10, ?_⟩; decide +kernel,
   by refine ⟨0, 0, lsA 10 { Port.init with dlyNext := some 5 } [], ?_⟩; decide +kernel,
   by refine ⟨0, 0, lst 7, 15, ?_⟩; decide +kernel,
   by refine ⟨0, 0, upT [(R.LNE_STATE_STAGE 0, 11), (R.RING_STATE_END_A 0, 3), (R.RING_CFG_LOOP 0, 2)], ?_⟩; decide +kernel,
   by refine ⟨0, 0, lst 11, ?_⟩; decide +kernel,
   by refine ⟨0, 0, upT [(R.RING_STATE_END_A 0, 4)], ?_⟩; decide +kernel,
   by refine ⟨0, 0, upT [(R.PWR_STATE_STATE, 1), (R.LNE_CFG_QUIET_EN 0, 1)], ?_⟩; decide +kernel,
   by refine ⟨0, 0, lst 7, ?_⟩; decide +kernel,
   by refine ⟨0, 0, lsA 11 Port.init [(R.RING_STATE_END_A 0, 2), (R.PWR_STATE_STATE, pShoulder), (R.LNE_STATE_TXPS 0, 1)], ?_⟩; decide +kernel,
   by refine ⟨0, 0, lsA 11 Port.init [(R.RING_STATE_END_A 0, 2), (R.PWR_STATE_STATE, pShoulder), (R.LNE_STATE_TXPS 0, 1), (R.RING_CTRL_GEN 0, 1), (R.RING_TEST_RATE 0, 5), (R.RING_TEST_DEST 0, 77)], ?_⟩; decide +kernel,
   by refine ⟨0, 0, { upT [(R.LNE_STATE_TXPS 0, 1)] with ports := [(0, { Port.init with q1 := [{ cell := mkCell 1 9 0 0 0 false false [], stomp := false }] })] }, ?_⟩; decide +kernel⟩

/-- A NEIGH of a head's end A. -/
def nei : Cell := sealCell (mkCell clsControl tNeigh 0xFFFF noNode 0 false false [5, 0, 2, 3, 2, 0]) false

/-- Port 0 in stage 9. -/
def trn (l : List (Fld × Nat)) : State := fl T ([(R.RING_STATE_END_A 0, 1), (R.LNE_STATE_STAGE 0, 9)] ++ l)

/-- The hypotheses of DiscoveryAndNeighbours can be met, clause by clause. -/
theorem witness_DiscoveryAndNeighbours :
    (∃ (port : Nat) (c : Cell) (s : State) (u : State), s.build = .tile ∧ c.cls = clsControl ∧ c.typ = tDiscover ∧ s.receive port c =
          (true, u) ∧ u.rd (R.RING_STATE_NODE 0) = noNode ∧ c.hops < 63 ∧ pb c 1 % 16 < 12) ∧
    (∃ (s : State) (path : Path) (ring : Nat), s.build = .head ∧ ring < 12 ∧ s.reaches path (R.RING_CMD_DISCOVER ring) .set ∧
          s.portState (2 * ring) = 2 ∧ s.mute ring = false) ∧
    (∃ (port : Nat) (c : Cell) (s : State), s.build = .tile ∧ c.typ = tNeigh ∧ s.receiveLocal port c = true ∧ s.portState port = 1 ∧
          s.allAt port 9 = true ∧ s.hasPosition = true ∧ (port = 0 → (s.port 2).gavePos = false)) ∧
    (∃ (port : Nat) (c : Cell) (s : State), s.build = .tile ∧ c.typ = tNeigh ∧ s.receiveLocal port c = true ∧ s.portState port = 1 ∧
          s.allAt port 9 = true ∧ s.hasPosition = false ∧ port = 0 ∧ pb c 2 = 2 ∧ pb c 4 < 12 ∧ pb c 5 = 0 ∧ s.rd (R.RING_NEIGH_A_VALID
          1) = 0) ∧
    (∃ (port : Nat) (c : Cell) (s : State), s.build = .tile ∧ c.typ = tNeigh ∧ s.receiveLocal port c = true ∧ s.portState port = 1 ∧
          s.allAt port 9 = true ∧ s.hasPosition = true ∧ (s.port 2).gavePos = true ∧ port = 0 ∧ pb c 2 = 2 ∧ pb c 4 < 12 ∧ pb c 5 = 0 ∧
          nodePos (s.rd (R.RING_STATE_NODE 0)) ≠ 1) :=
  ⟨by refine ⟨0, ctl tDiscover 0x0C80 noNode 5 true [3, 11], fl T [(R.RING_STATE_END_A 0, 2), (R.RING_STATE_END_A 1, 2)], ((fl T [(R.RING_STATE_END_A 0, 2), (R.RING_STATE_END_A 1, 2)]).receive (0) (ctl tDiscover 0x0C80 noNode 5 true [3, 11])).2, ?_⟩; decide +kernel,
   by refine ⟨upH [], .kryty, 0, ?_⟩; dsimp only [State.reaches]; decide +kernel,
   by refine ⟨0, nei, trn [(R.RING_STATE_NODE 0, 77), (R.RING_STATE_NODE 1, 77)], ?_⟩; decide +kernel,
   by refine ⟨0, nei, trn [], ?_⟩; decide +kernel,
   by refine ⟨0, nei, { trn [(R.RING_STATE_NODE 0, 77), (R.RING_STATE_NODE 1, 77)] with ports := [(2, { Port.init with gavePos := true })] }, ?_⟩; decide +kernel⟩

/-- A sealed cell of the delay measurement. -/
def dly (typ : Nat) (pl : List Byte) : Cell := sealCell (mkCell clsControl typ 0xFFFF noNode 0 false false pl) false

/-- A measurement at port 0. -/
def mS (sent : Nat) (res : List Nat) : State :=
  { upT [] with ports := [(0, { Port.init with measuring := true, dlySent := sent, dlyRes := res })] }

/-- A measurement at port 0, whose lanes are ACTIVE and in their codeword stream. -/
def mL (sent : Nat) (res : List Nat) : State :=
  { fl (upT [(R.RING_STATE_END_A 0, 2)]) ((List.range 8).map (fun k => (R.LNE_STATE_TXPS k, 0))) with
    ports := [(0, { Port.init with measuring := true, dlySent := sent, dlyRes := res, coded := List.range 8 })] }

/-- A measurement in the bring-up of port 0. -/
def mB (sent : Nat) : State :=
  { fl (mL sent []) [(R.RING_STATE_END_A 0, 1)] with ports := (mL sent []).ports }

/-- The hypotheses of DelayMeasurement can be met, clause by clause. -/
theorem witness_DelayMeasurement :
    (∃ (port : Nat) (s : State), s.build = .tile ∧ portExists .tile port = true ∧ s.asleep port = false ∧ ((s.port port).measuring =
          false ∨ 16 ≤ (s.port port).dlySent) ∧ s.portState port = 2) ∧
    (∃ (port : Nat) (s : State) (path : Path), s.build = .tile ∧ portExists .tile port = true ∧ s.asleep port = false ∧ s.reaches path
          (R.RING_CMD_REMEASURE (portRing port)) .set ∧ s.rd (R.RING_CMD_REMEASURE (portRing port)) = 0 ∧ s.portState port = 2) ∧
    (∃ (port : Nat) (s : State), s.build = .tile ∧ portExists .tile port = true ∧ s.asleep port = false ∧ (s.port port).measuring = true
          ∧ (s.port port).dlySent < 16 ∧ s.portState port = 2) ∧
    (∃ (port : Nat) (s : State), s.build = .tile ∧ portExists .tile port = true ∧ s.asleep port = false ∧ (s.port port).measuring = true
          ∧ (s.port port).dlySent < 16 ∧ s.portState port = 1 ∧ s.lanesSend port = true) ∧
    (∃ (port : Nat) (s : State), s.build = .tile ∧ portExists .tile port = true ∧ s.asleep port = false ∧ (s.port port).measuring = true
          ∧ 16 ≤ (s.port port).dlySent ∧ s.portState port = 2) ∧
    (∃ (port : Nat) (s : State), s.build = .tile ∧ portExists .tile port = true ∧ s.asleep port = false ∧ (s.port port).measuring =
          false) ∧
    (∃ (port : Nat) (c : Cell) (s : State), s.build = .tile ∧ portExists .tile port = true ∧ s.asleep port = false ∧ c.typ = tDlyReq ∧
          s.receiveLocal port c = true ∧ s.portState port = 2) ∧
    (∃ (port : Nat) (c : Cell) (s : State), s.build = .tile ∧ portExists .tile port = true ∧ s.asleep port = false ∧ c.typ = tDlyReq ∧
          s.receiveLocal port c = true ∧ s.portState port = 1 ∧ s.lanesSend port = true) ∧
    (∃ (port : Nat) (c : Cell) (s : State), s.build = .tile ∧ portExists .tile port = true ∧ s.asleep port = false ∧ c.typ = tDlyRsp ∧
          s.receiveLocal port c = true ∧ (s.port port).measuring = true ∧ (s.port port).dlyRes.length < 15) ∧
    (∃ (port : Nat) (c : Cell) (s : State), s.build = .tile ∧ portExists .tile port = true ∧ s.asleep port = false ∧ c.typ = tDlyRsp ∧
          s.receiveLocal port c = true ∧ (s.port port).measuring = true ∧ (s.port port).dlyRes.length = 15) :=
  ⟨by refine ⟨0, upT [], ?_⟩; decide +kernel,
   by refine ⟨0, upT [], .kryty, ?_⟩; dsimp only [State.reaches]; decide +kernel,
   by refine ⟨0, mS 15 (List.replicate 14 7), ?_⟩; decide +kernel,
   by refine ⟨0, mB 3, ?_⟩; decide +kernel,
   by refine ⟨0, mS 16 (List.replicate 15 7), ?_⟩; decide +kernel,
   by refine ⟨0, upT [], ?_⟩; decide +kernel,
   by refine ⟨0, dly tDlyReq [3], upT [], ?_⟩; decide +kernel,
   by refine ⟨0, dly tDlyReq [3], mB 3, ?_⟩; decide +kernel,
   by refine ⟨0, dly tDlyRsp (natLE 3 8 ++ natLE 100 8), mS 15 (List.replicate 14 7), ?_⟩; decide +kernel,
   by refine ⟨0, dly tDlyRsp (natLE 3 8 ++ natLE 100 8), mS 16 (List.replicate 15 7), ?_⟩; decide +kernel⟩

/-- A tile whose port 0 shares its bandwidth. -/
def shT (l : List QCell) : State :=
  { upT [] with ports := [(0, { Port.init with sharing := true, q2 := [{ cell := c1, stomp := false }], q3 := l })] }

/-- A property of 0 and of 1 holds of every number below 2. -/
theorem two {P : Nat → Prop} (h0 : P 0) (h1 : P 1) : ∀ p, p < 2 → P p := by
  intro p hp
  match p with
  | 0 => exact h0
  | 1 => exact h1
  | _ + 2 => omega

/-- The hypotheses of BreaksAndPacing can be met, clause by clause. -/
theorem witness_BreaksAndPacing :
    (∃ (port : Nat) (c : Cell) (s : State) (u : State), s.build = .tile ∧ c.cls = clsControl ∧ port < 24 ∧ s.receive port c = (true, u)
          ∧ c.typ = tLinkdown ∧ (∀ p, p < 2 → u.rd (R.RING_BREAK_V1 p) = 0 ∧ u.rd (R.RING_BREAK_V2 p) = 0)) ∧
    (∃ (port : Nat) (c : Cell) (s : State) (u : State), s.build = .tile ∧ c.cls = clsControl ∧ port < 24 ∧ s.receive port c = (true, u)
          ∧ c.typ = tLinkup ∧ (∀ p, p < 2 → u.rd (R.RING_BREAK_V1 p) = 1 ∧ u.rd (R.RING_BREAK_POS1 p) = pb c 0 % 64 ∧ u.rd
          (R.RING_BREAK_V2 p) = 0)) ∧
    (∃ (port : Nat) (c : Cell) (s : State) (u : State) (r : Nat), s.build = .head ∧ r < 12 ∧ (port = 2 * r ∨ port = 2 * r + 1) ∧ c.cls =
          clsControl ∧ c.typ = tShareReq ∧ s.receive port c = (true, u) ∧ pb c 0 = s.dirOut (2 * r) ∧ pb c 0 < 2) ∧
    (∃ (port : Nat) (s : State), s.build = .tile ∧ portExists .tile port = true ∧ (s.port port).sharing = true ∧ (s.port port).q2 ≠ [] ∧
          (s.port port).q3 ≠ [] ∧ s.hasPosition = true ∧ s.portState 0 = 2) ∧
    (∃ (port : Nat) (s : State), s.build = .tile ∧ portExists .tile port = true ∧ (s.port port).sharing = true ∧ (s.port port).q3 = []) :=
  ⟨by refine ⟨0, ctl tLinkdown 0x0C81 noNode 5 true [65], upT [], ((upT []).receive (0) (ctl tLinkdown 0x0C81 noNode 5 true [65])).2, ?_, ?_, ?_, ?_, ?_, two (by decide +kernel) (by decide +kernel)⟩ <;> decide +kernel,
   by refine ⟨0, ctl tLinkup 0x0C81 noNode 5 true [1], upT [(R.RING_BREAK_V1 0, 1), (R.RING_BREAK_V1 1, 1), (R.RING_BREAK_POS1 0, 1), (R.RING_BREAK_POS1 1, 1)], ((upT [(R.RING_BREAK_V1 0, 1), (R.RING_BREAK_V1 1, 1), (R.RING_BREAK_POS1 0, 1), (R.RING_BREAK_POS1 1, 1)]).receive (0) (ctl tLinkup 0x0C81 noNode 5 true [1])).2, ?_, ?_, ?_, ?_, ?_, two (by decide +kernel) (by decide +kernel)⟩ <;> decide +kernel,
   by refine ⟨0, ctl tShareReq 0x0C81 (nodeId 0 0 0) 5 false [0], upH [], ((upH []).receive (0) (ctl tShareReq 0x0C81 (nodeId 0 0 0) 5 false [0])).2, 0, ?_⟩; decide +kernel,
   by refine ⟨0, shT [{ cell := c1, stomp := false }], ?_⟩; decide +kernel,
   by refine ⟨0, shT [], ?_⟩; decide +kernel⟩

/-- A one-dword write of the mend list. -/
def wrC (src : Nat) : Cell :=
  ctl tRegWr src (nodeId 3 2 5) 5 false (natLE 0x127FFC 4 ++ [1, 1] ++ natLE 0 10 ++ natLE 0xDEADBEEF 4)

/-- A read the host has outstanding. -/
def rem9 : Remote := { tag := 9, node := nodeId 3 0 5, addr := 0x14, count := 1, parts := 1, got := [], failed := false }

/-- The hypotheses of RemoteRegisterCells can be met, clause by clause. -/
theorem witness_RemoteRegisterCells :
    (∃ (port : Nat) (c : Cell) (s : State) (u : State), c.cls = clsControl ∧ s.receive port c = (true, u) ∧ s.build = .tile ∧ port < 24
          ∧ c.typ = tRegRd ∧ pb c 4 = 1 ∧ u.busError .remote false (pn c 0 4 % 2097152) 1 15 = none ∧ u.portState 0 = 2) ∧
    (∃ (port : Nat) (c : Cell) (s : State) (u : State), c.cls = clsControl ∧ s.receive port c = (true, u) ∧ s.build = .tile ∧ port < 24
          ∧ c.typ = tRegWr ∧ pb c 4 = 1 ∧ pb c 5 % 2 = 1 ∧ u.on R.CRN_MASTER_HEAD_VALID = true ∧ nodeHead c.src = u.rd
          R.CRN_MASTER_HEAD_HEAD ∧ u.wf = true ∧ 0x120000 ≤ pn c 0 4 ∧ pn c 0 4 < 0x128000 ∧ pn c 0 4 % 4 = 0 ∧ u.busError .remote true
          (pn c 0 4) 1 15 = none) ∧
    (∃ (port : Nat) (c : Cell) (s : State) (u : State), c.cls = clsControl ∧ s.receive port c = (true, u) ∧ s.build = .tile ∧ port < 24
          ∧ c.typ = tRegWr ∧ pb c 4 = 1 ∧ pb c 5 % 2 = 1 ∧ u.on R.CRN_MASTER_HEAD_VALID = true ∧ nodeHead c.src ≠ u.rd
          R.CRN_MASTER_HEAD_HEAD) ∧
    (∃ (port : Nat) (c : Cell) (s : State) (u : State) (x : Remote), c.cls = clsControl ∧ s.receive port c = (true, u) ∧ s.build = .head
          ∧ c.typ = tRegRsp ∧ c.err = false ∧ u.relayedOf c.aux c.src = none ∧ pb c 4 = 1 ∧ u.host.remotes.find? (fun (y : Remote) =>
          y.tag = c.aux && y.node = c.src) = some x ∧ x.parts = 1 ∧ x.count = 1 ∧ x.got = [] ∧ x.failed = false ∧ x.addr = pn c 0 4 %
          2097152 ∧ u.host.waiting = []) :=
  ⟨by refine ⟨0, sealCell { ctl tRegRd (nodeId 3 2 0) (nodeId 3 2 5) 5 false (natLE 0x14 4 ++ [1]) with aux := 9 } false, upT [], ((upT []).receive (0) (sealCell { ctl tRegRd (nodeId 3 2 0) (nodeId 3 2 5) 5 false (natLE 0x14 4 ++ [1]) with aux := 9 } false)).2, ?_⟩; decide +kernel,
   by refine ⟨0, wrC (nodeId 3 2 0), upT [(R.CRN_MASTER_HEAD_VALID, 1), (R.CRN_MASTER_HEAD_HEAD, 3)], ((upT [(R.CRN_MASTER_HEAD_VALID, 1), (R.CRN_MASTER_HEAD_HEAD, 3)]).receive (0) (wrC (nodeId 3 2 0))).2, ?_⟩; decide +kernel,
   by refine ⟨0, wrC (nodeId 4 2 0), upT [(R.CRN_MASTER_HEAD_VALID, 1), (R.CRN_MASTER_HEAD_HEAD, 3)], ((upT [(R.CRN_MASTER_HEAD_VALID, 1), (R.CRN_MASTER_HEAD_HEAD, 3)]).receive (0) (wrC (nodeId 4 2 0))).2, ?_⟩; decide +kernel,
   by refine ⟨0, sealCell { ctl tRegRsp (nodeId 3 0 5) (nodeId 0 0 0) 5 false (natLE 0x14 4 ++ [1] ++ natLE 0 11 ++ natLE 0xDEADBEEF 4) with aux := 9 } false, { upH [] with host := { H.host with remotes := [rem9] } }, (({ upH [] with host := { H.host with remotes := [rem9] } }).receive (0) (sealCell { ctl tRegRsp (nodeId 3 0 5) (nodeId 0 0 0) 5 false (natLE 0x14 4 ++ [1] ++ natLE 0 11 ++ natLE 0xDEADBEEF 4) with aux := 9 } false)).2, rem9, ?_⟩; decide +kernel⟩

/-- Aperture 127 names the tile at position 5 of ring 2. -/
def hA (l : List (Fld × Nat)) : State :=
  upH ([(R.HST_APT_VALID 127, 1), (R.HST_APT_NODE 127, nodeId 0 2 5), (R.RING_STATE_END_A 2, 2)] ++ l)

/-- The hypotheses of HostApertures can be met, clause by clause. -/
theorem witness_HostApertures :
    (∃ (s : State) (o : Nat) (n : Nat) (q : HostReq), s.build = .head ∧ s.pathOpen .pcie = true ∧ q.write = false ∧ q.count = 1 ∧ n <
          128 ∧ o / 2097152 % 128 = n ∧ s.rd (R.HST_APT_VALID n) = 1 ∧ nodeHead (s.rd (R.HST_APT_NODE n)) = s.headNo ∧ s.auth.aliases =
          [] ∧ nodeRing (s.rd (R.HST_APT_NODE n)) < 12 ∧ nodePos (s.rd (R.HST_APT_NODE n)) ≠ 0 ∧ s.host.remotes.length < 32 ∧
          s.portState (2 * nodeRing (s.rd (R.HST_APT_NODE n))) = 2 ∧ s.mute (nodeRing (s.rd (R.HST_APT_NODE n))) = false) ∧
    (∃ (s : State) (o : Nat) (h : Nat) (node : Nat) (q : HostReq), s.build = .head ∧ s.pathOpen .pcie = true ∧ q.write = true ∧
          s.aptTarget o = .remote h node ∧ q.data.length ≤ 2 ∧ q.data ≠ [] ∧ ∃ i, i < q.data.length ∧ q.be / 16 ^ i % 16 ≠ 15) ∧
    (∃ (s : State) (o : Nat) (n : Nat) (q : HostReq), s.build = .head ∧ s.pathOpen .pcie = true ∧ q.write = false ∧ n < 128 ∧ o /
          2097152 % 128 = n ∧ s.rd (R.HST_APT_VALID n) = 0) ∧
    (∃ (s : State) (tag : Nat) (x : Remote), s.build = .head ∧ s.host.remotes.find? (fun (y : Remote) => y.tag = tag) = some x ∧
          s.host.waiting = []) ∧
    (∃ (s : State) (path : Path) (n : Nat), s.build = .head ∧ n < 128 ∧ s.reaches path (R.HST_APT_NODE n) .base ∧ s.rd (R.LOCK 0x20000)
          = 0 ∧ s.rd (R.HST_APT_VALID n) = 0) :=
  ⟨by refine ⟨hA [], 127 * 2097152 + 0x17, 127, { write := false, data := [], count := 1, be := 15 }, ?_⟩; decide +kernel,
   by refine ⟨hA [], 127 * 2097152 + 0x17, 0, nodeId 0 2 5, { write := true, data := [7], count := 1, be := 3 }, ?_⟩; decide +kernel,
   by refine ⟨hA [], 0, 0, { write := false, data := [], count := 1, be := 15 }, ?_⟩; decide +kernel,
   by refine ⟨{ hA [] with host := { H.host with remotes := [rem9] } }, 9, rem9, ?_⟩; decide +kernel,
   by refine ⟨hA [], .kryty, 0, ?_⟩; dsimp only [State.reaches]; decide +kernel⟩

/-- Event queue 0 of the lead head at the end of its index. -/
def evS (l : List (Fld × Nat)) : State :=
  upH (on .HST 0 ++ [(R.HST_EVQ_CFG_EN 0, 1), (R.HST_EVQ_IDX_PROD 0, 65535), (R.HST_EVQ_IDX_CONS 0, 65530)] ++ l)

/-- The hypotheses of EventQueues can be met, clause by clause. -/
theorem witness_EventQueues :
    (∃ (s : State) (port : Nat) (c : Cell) (u : State) (p : Nat), s.build = .head ∧ p ≤ 12 ∧ ((if isSpur port then 12 else portRing
          port) = p) ∧ c.cls = clsControl ∧ c.typ = tEvent ∧ s.receive port c = (true, u) ∧ u.isLead = true ∧ u.queueRuns p = true ∧
          u.host.d3 = [] ∧ u.host.held = [] ∧ (u.host.holdoff.contains p = false → vectorOpen u 0 (48 + p) = true) ∧ (u.rd
          (R.HST_EVQ_IDX_PROD p) + 1 + 65536 - u.rd (R.HST_EVQ_IDX_CONS p)) % u.queueSize p ≠ 0) ∧
    (∃ (s : State) (q : Nat), s.build = .head ∧ q < 16 ∧ s.host.holdoff.contains q = true ∧ vectorOpen s 0 (48 + q) = true) ∧
    (∃ (s : State) (q : Nat), s.build = .head ∧ q < 16 ∧ s.pins.perstLow = false ∧ s.host.d3 = []) :=
  ⟨by refine ⟨{ evS [] with host := { H.host with cfg := [(15, 1)], msixTab := [(16 * 48 + 12, 0)] } }, 0, ctl tEvent 0x0C85 noNode 5 true [1, 2, 3], (({ evS [] with host := { H.host with cfg := [(15, 1)], msixTab := [(16 * 48 + 12, 0)] } }).receive (0) (ctl tEvent 0x0C85 noNode 5 true [1, 2, 3])).2, 0, ?_⟩; decide +kernel,
   by refine ⟨{ evS [(R.HST_EVQ_IDX_PROD 15, 3)] with host := { H.host with cfg := [(15, 1)], holdoff := [15], owed := [15], msixTab := [(16 * 63 + 12, 0)] } }, 15, ?_⟩; decide +kernel,
   by refine ⟨{ evS [] with host := { H.host with msixTab := [(16 * 48 + 12, 0)] } }, 15, ?_⟩; decide +kernel⟩

/-- The hypotheses of CopiesOfTheEpochCounter can be met, clause by clause. -/
theorem witness_CopiesOfTheEpochCounter :
    (∃ (a : Nat) (b : Nat) (c : Nat) (s : State), a < 4294967296 ∧ b < 4294967296 ∧ c < 4294967296 ∧ a ≠ b ∧ s.build = .tile ∧ a ≠ c ∧ b
          ≠ c) ∧
    (∃ (a : Nat) (b : Nat) (c : Nat) (s : State), a < 4294967296 ∧ b < 4294967296 ∧ c < 4294967296 ∧ a ≠ b ∧ s.build = .tile ∧ a < 2 ∧ b
          < 2) ∧
    (∃ (a : Nat) (b : Nat) (c : Nat) (s : State) (split : Bool), a < 4294967296 ∧ b < 4294967296 ∧ c < 4294967296 ∧ a ≠ b ∧ s.build =
          .tile ∧ split = decide (a ≠ c ∧ b ≠ c) ∧ (split = true ∨ c = a)) ∧
    (∃ (a : Nat) (b : Nat) (c : Nat) (s : State) (u : State) (r : Nat), a < 4294967296 ∧ b < 4294967296 ∧ c < 4294967296 ∧ a ≠ b ∧
          s.build = .tile ∧ u.build = .head ∧ r < 12 ∧ u.enabled .CRN 0 = true ∧ u.rd R.CRN_HEAD_ROLE = roleActive) :=
  ⟨by refine ⟨4294967295, 0, 1, T, ?_⟩; decide +kernel,
   by refine ⟨0, 1, 1, T, ?_⟩; decide +kernel,
   by refine ⟨4294967295, 0, 1, T, true, ?_⟩; decide +kernel,
   by refine ⟨4294967295, 0, 1, T, fl H (on .CRN 0 ++ [(R.CRN_HEAD_ROLE, roleActive)]), 11, ?_⟩; decide +kernel⟩

/-- Head 4 takes the place of head 3. -/
def take (t : Nat) : Cell :=
  ctl tTake (nodeId 3 2 0) noNode 5 true (natLE 3 1 ++ natLE 4 1 ++ natLE 0 2 ++ natLE t 4 ++ natLE 2 1)

/-- A tile that follows head 3 with term 9. -/
def tkS : State :=
  { upT [(R.CRN_MASTER_HEAD_VALID, 1), (R.CRN_MASTER_HEAD_HEAD, 3)] with cairn := { T.cairn with terms := [(0, Tri.set 9)] } }

/-- The hypotheses of ListenResignTake can be met, clause by clause. -/
theorem witness_ListenResignTake :
    (∃ (s : State) (r : Nat), s.build = .head ∧ s.wf = true ∧ r < 12 ∧ (s.ringAuth r).role = roleListen ∧ s.portOn (2 * r) = true ∧ (∀
          p, (s.ringAuth r).pair = some p → s.heldByOther p = false) ∧ s.auth.listenTerm < 4294967295) ∧
    (∃ (s : State) (r : Nat), s.build = .head ∧ s.wf = true ∧ r < 12 ∧ (s.ringAuth r).role = roleListen ∧ s.portOn (2 * r) = true ∧ (∀
          p, (s.ringAuth r).pair = some p → s.heldByOther p = false) ∧ 4294967295 ≤ s.auth.listenTerm ∧ s.enabled .CRN 0 = true ∧ s.rd
          R.CRN_HEAD_ROLE ≠ roleResigned) ∧
    (∃ (s : State) (r : Nat) (p : Nat × Nat), s.build = .head ∧ s.wf = true ∧ r < 12 ∧ (s.ringAuth r).role = roleListen ∧ s.portOn (2 *
          r) = true ∧ (s.ringAuth r).pair = some p ∧ s.heldByOther p = true) ∧
    (∃ (s : State) (path : Path), s.build = .head ∧ s.reaches path R.CRN_CMD_RESIGN .set ∧ s.enabled .CRN 0 = true ∧ s.rd
          R.CRN_HEAD_ROLE = roleActive) ∧
    (∃ (s : State) (path : Path), s.build = .head ∧ s.reaches path R.CRN_CMD_RESIGN .set ∧ s.enabled .CRN 0 = true ∧ s.rd
          R.CRN_HEAD_ROLE = roleStandby) ∧
    (∃ (s : State) (port : Nat) (c : Cell) (u : State), s.build = .head ∧ s.wf = true ∧ port < 24 ∧ c.cls = clsControl ∧ c.typ = tTake ∧
          s.receive port c = (true, u) ∧ u.wf = true ∧ pb c 8 ≠ portRing port) ∧
    (∃ (s : State) (port : Nat) (c : Cell) (u : State), s.build = .tile ∧ c.cls = clsControl ∧ c.typ = tTake ∧ s.receive port c = (true,
          u) ∧ u.rd (R.RING_STATE_NODE 0) ≠ noNode ∧ pb c 8 = nodeRing (u.rd (R.RING_STATE_NODE 0)) ∧ u.on R.CRN_MASTER_HEAD_VALID =
          true ∧ u.auth.aliases = [] ∧ pb c 0 < 64 ∧ pb c 1 < 64 ∧ pb c 0 ≠ pb c 1 ∧ u.term 0 < pn c 4 4) ∧
    (∃ (s : State) (port : Nat) (c : Cell) (u : State), s.build = .tile ∧ c.cls = clsControl ∧ c.typ = tTake ∧ s.receive port c = (true,
          u) ∧ u.rd (R.RING_STATE_NODE 0) ≠ noNode ∧ pb c 8 = nodeRing (u.rd (R.RING_STATE_NODE 0)) ∧ u.on R.CRN_MASTER_HEAD_VALID =
          true ∧ u.auth.aliases = [] ∧ pb c 0 < 64 ∧ pb c 1 < 64 ∧ pb c 0 ≠ pb c 1 ∧ pn c 4 4 < u.term 0) :=
  ⟨by refine ⟨{ upH [(R.ENABLE (Blk.RING.pg 0), 1)] with auth := { H.auth with rings := [(0, { role := 5, pair := none, missed := 0, heard := false })] } }, 0, ?_⟩; decide +kernel,
   by refine ⟨{ upH (on .CRN 0 ++ [(R.CRN_HEAD_ROLE, 0)]) with auth := { H.auth with listenTerm := 4294967295, rings := [(0, { role := 5, pair := none, missed := 0, heard := false })] } }, 0, ?_⟩; decide +kernel,
   by refine ⟨{ upH [] with auth := { H.auth with rings := [(0, { role := 5, pair := some (5, 9), missed := 0, heard := false })] } }, 0, (5, 9), ?_⟩; decide +kernel,
   by refine ⟨upH (on .CRN 0 ++ [(R.CRN_HEAD_ROLE, 0)]), .kryty, ?_⟩; dsimp only [State.reaches]; decide +kernel,
   by refine ⟨upH (on .CRN 0 ++ [(R.CRN_HEAD_ROLE, 1)]), .kryty, ?_⟩; dsimp only [State.reaches]; decide +kernel,
   by refine ⟨{ upH [(R.ENABLE (Blk.RING.pg 0), 1)] with auth := { H.auth with rings := [(0, { role := 5, pair := none, missed := 0, heard := false })] } }, 0, take 10, (({ upH [(R.ENABLE (Blk.RING.pg 0), 1)] with auth := { H.auth with rings := [(0, { role := 5, pair := none, missed := 0, heard := false })] } }).receive (0) (take 10)).2, ?_⟩; decide +kernel,
   by refine ⟨tkS, 0, take 10, ((tkS).receive (0) (take 10)).2, ?_⟩; decide +kernel,
   by refine ⟨tkS, 0, take 8, ((tkS).receive (0) (take 8)).2, ?_⟩; decide +kernel⟩

/-- A standby of head 7 that has missed its beacons. -/
def stb (ro : Nat) (l : List (Fld × Nat)) : State :=
  { upH (on .CRN 0 ++ [(R.CRN_HEAD_ROLE, ro), (R.CRN_CFG_PROT_RINGS, 1), (R.CRN_CFG_PEER, 7), (R.CRN_CFG_AUTO_TAKE, 1)] ++ l) with
    auth := { H.auth with rings := [(0, { role := 1, pair := none, missed := 3, heard := false })] } }

/-- The hypotheses of Takeover can be met, clause by clause. -/
theorem witness_Takeover :
    (∃ (s : State) (path : Path), s.build = .head ∧ s.canTake = true ∧ s.reaches path R.CRN_CMD_TAKE .set) ∧
    (∃ (s : State), s.build = .head ∧ s.canTake = true ∧ s.beaconLost = true ∧ s.on R.CRN_CFG_AUTO_TAKE = true) ∧
    (∃ (s : State), s.build = .head ∧ s.beaconLost = false) ∧
    (∃ (s : State) (port : Nat) (c : Cell) (u : State), s.build = .head ∧ c.cls = clsControl ∧ c.typ = tResign ∧ s.receive port c =
          (true, u) ∧ pb c 0 % 64 = u.rd R.CRN_CFG_PEER ∧ s.rd R.CRN_CFG_PEER = u.rd R.CRN_CFG_PEER ∧ u.canTake = true ∧ u.on
          R.CRN_CFG_AUTO_TAKE = true) ∧
    (∃ (s : State) (ok : Bool), s.build = .head ∧ ok = (s.on R.FLD_STATE_VALID && foldCrcOk (s.readFold (s.rd R.FLD_STATE_SLOT))) ∧ s.wf
          = true ∧ s.rd R.CRN_HEAD_ROLE = roleTaking ∧ s.auth.fold.checking = true ∧ s.termRecord < 4294967295) ∧
    (∃ (s : State), s.build = .head ∧ s.rd R.CRN_HEAD_ROLE = roleTaking ∧ s.auth.fold.checking = true ∧ 4294967295 ≤ s.termRecord ∧
          s.enabled .CRN 0 = true) ∧
    (∃ (s : State), s.build = .head ∧ s.rd R.CRN_HEAD_ROLE = roleTaking ∧ s.auth.fold.taking = true) :=
  ⟨by refine ⟨stb 1 [], .kryty, ?_⟩; dsimp only [State.reaches]; decide +kernel,
   by refine ⟨stb 1 [], ?_⟩; decide +kernel,
   by refine ⟨upH [], ?_⟩; decide +kernel,
   by refine ⟨stb 1 [], 0, ctl tResign (nodeId 7 2 0) noNode 5 true (natLE 7 1), ((stb 1 []).receive (0) (ctl tResign (nodeId 7 2 0) noNode 5 true (natLE 7 1))).2, ?_⟩; decide +kernel,
   by refine ⟨{ stb 2 [] with auth := { (stb 2 []).auth with fold := { H.auth.fold with checking := true } } }, false, ?_⟩; decide +kernel,
   by refine ⟨State.wr32 { stb 2 [] with auth := { (stb 2 []).auth with fold := { H.auth.fold with checking := true } } } .store termRecordAt 4294967295, ?_⟩; decide +kernel,
   by refine ⟨{ stb 2 [(R.FLD_STATE_NOFOLD, 1)] with auth := { (stb 2 []).auth with fold := { H.auth.fold with taking := true } } }, ?_⟩; decide +kernel⟩

/-- An active head in a state of shipping. -/
def fS (ship : Nat) (l : List (Fld × Nat)) : State :=
  upH (on .CRN 0 ++ on .FLD 0 ++ [(R.CRN_HEAD_ROLE, 0), (R.FLD_STATE_SHIP, ship), (R.FLD_SEQ_SEQ, 5)] ++ l)

/-- A cell of the peer to this head. -/
def fc (typ : Nat) (pl : List Byte) : Cell := ctl typ (nodeId 7 0 0) (nodeId 0 0 0) 5 false pl

/-- The hypotheses of FoldCaptureAndShipping can be met, clause by clause. -/
theorem witness_FoldCaptureAndShipping :
    (∃ (s : State) (path : Path), s.build = .head ∧ s.foldActive = true ∧ s.ship = shIdle ∧ s.parked 12 = false ∧ s.reaches path
          R.FLD_CMD_COMMIT .set) ∧
    (∃ (s : State) (path : Path), s.build = .head ∧ s.foldActive = true ∧ s.ship ≠ shIdle ∧ s.rd R.FLD_STATE_HELD = 0 ∧ s.reaches path
          R.FLD_CMD_COMMIT .set) ∧
    (∃ (s : State), s.build = .head ∧ s.ship = shCapture ∧ s.auth.fold.dirty = true ∧ s.auth.fold.restarts < 4) ∧
    (∃ (s : State), s.build = .head ∧ s.ship = shCapture ∧ s.auth.fold.dirty = false) ∧
    (∃ (s : State) (port : Nat) (c : Cell) (u : State), s.build = .head ∧ c.cls = clsControl ∧ c.typ = tFoldAck ∧ s.receive port c =
          (true, u) ∧ u.ship = shWait ∧ pn c 0 4 = u.rd R.FLD_SEQ_SEQ ∧ u.rd R.FLD_STATE_HELD = 0) ∧
    (∃ (s : State) (port : Nat) (c : Cell) (u : State), s.build = .head ∧ c.cls = clsControl ∧ c.typ = tFoldNack ∧ s.receive port c =
          (true, u) ∧ u.ship = shWait ∧ pn c 0 4 = u.rd R.FLD_SEQ_SEQ ∧ u.auth.fold.retries < 3) ∧
    (∃ (s : State), s.build = .head ∧ s.ship = shWait ∧ 3 ≤ s.auth.fold.retries ∧ s.rd R.FLD_STATE_HELD = 0) ∧
    (∃ (s : State) (path : Path), s.build = .head ∧ s.reaches path R.FLD_CMD_VERIFY .set ∧ s.rd R.FLD_CMD_VERIFY = 0) ∧
    (∃ (s : State), s.build = .head ∧ s.rd R.FLD_CMD_VERIFY = 1 ∧ s.rd R.FLD_STATE_VALID = 1) ∧
    (∃ (s : State) (port : Nat) (c : Cell) (u : State), s.build = .head ∧ c.cls = clsControl ∧ c.typ = tFoldData ∧ s.receive port c =
          (true, u) ∧ u.enabled .FLD 0 = true ∧ u.rd R.CRN_HEAD_ROLE = roleStandby ∧ u.rd R.FLD_CMD_VERIFY = 0 ∧ u.ship = shIdle ∧ pn c
          4 4 = 0 ∧ min 240 (pn c 8 4) < foldLen (takePad (c.payload.drop 16) (min 240 (pn c 8 4))) ∧ 64 ≤ foldLen (takePad
          (c.payload.drop 16) (min 240 (pn c 8 4))) ∧ foldLen (takePad (c.payload.drop 16) (min 240 (pn c 8 4))) ≤ foldMax) :=
  ⟨by refine ⟨fS shIdle [], .kryty, ?_⟩; dsimp only [State.reaches]; decide +kernel,
   by refine ⟨fS shShipping [], .kryty, ?_⟩; dsimp only [State.reaches]; decide +kernel,
   by refine ⟨{ fS shCapture [] with auth := { H.auth with fold := { H.auth.fold with restarts := 3, dirty := true } } }, ?_⟩; decide +kernel,
   by refine ⟨fS shCapture [], ?_⟩; decide +kernel,
   by refine ⟨fS shWait [], 0, fc tFoldAck (natLE 5 4), ((fS shWait []).receive (0) (fc tFoldAck (natLE 5 4))).2, ?_⟩; decide +kernel,
   by refine ⟨fS shWait [], 0, fc tFoldNack (natLE 5 4), ((fS shWait []).receive (0) (fc tFoldNack (natLE 5 4))).2, ?_⟩; decide +kernel,
   by refine ⟨{ fS shWait [] with auth := { H.auth with fold := { H.auth.fold with retries := 3 } } }, ?_⟩; decide +kernel,
   by refine ⟨fS shIdle [], .kryty, ?_⟩; dsimp only [State.reaches]; decide +kernel,
   by refine ⟨fS 0 [(R.FLD_CMD_VERIFY, 1), (R.FLD_STATE_VALID, 1)], ?_⟩; decide +kernel,
   by refine ⟨fS 0 [(R.CRN_HEAD_ROLE, 1)], 0, fc tFoldData (natLE 9 4 ++ natLE 0 4 ++ natLE 240 4 ++ natLE 0 4 ++ natLE 0 16 ++ natLE 1000 4 ++ natLE 0 200), ((fS 0 [(R.CRN_HEAD_ROLE, 1)]).receive (0) (fc tFoldData (natLE 9 4 ++ natLE 0 4 ++ natLE 240 4 ++ natLE 0 4 ++ natLE 0 16 ++ natLE 1000 4 ++ natLE 0 200))).2, ?_⟩; decide +kernel⟩

/-- A cell of head 4 over the Spur. -/
def sp (typ : Nat) (pl : List Byte) : Cell := sealCell (mkCell clsControl typ (nodeId 4 0 0) (nodeId 0 0 0) 0 false false pl) false

/-- A head with Spur ports 0 and 1 UP. -/
def sS (l : List (Fld × Nat)) : State :=
  fl H ([(R.SPRP_STATE_STATE 0, 2), (R.SPRP_STATE_STATE 1, 2), (R.SPR_ROUTE_VALID 4, 1), (R.SPR_ROUTE_PORT 4, 1), (R.CRN_HEAD_ROLE, 0)] ++
    on .DMA 0 ++ on .ETH 0 ++ [(R.ETHP_CFG_ENABLE 1, 1), (R.DMA_CH_CFG_ENABLE 3, 1)] ++ l)

/-- A read of host memory that channel 3 waits for, with tag 0, and its job. -/
def hR (n : Nat) : DmaRead := { tag := 0, ch := 3, idx := 7, fetch := false, off := 0, len := n }
def hJ : DmaJob := { idx := 7, desc := some { addrLo := 0, addrHi := 0, length := 8, dstLo := 0, dstHi := 0, flags := 4, last := 0 }, asked := 8, got := [], err := false, opened := false }

/-- The hypotheses of HostAndSpur can be met, clause by clause. -/
theorem witness_HostAndSpur :
    (∃ (q : Nat) (c : Cell) (s : State) (id : Nat), s.build = .head ∧ q < 4 ∧ c.cls = clsControl ∧ s.receive (24 + q) c = (true, s) ∧
          s.rd R.CRN_HEAD_ROLE ≠ roleStandby ∧ c.typ = tHostRd ∧ s.hostOpen = true ∧ 1 ≤ pn c 8 4 ∧ pn c 8 4 ≤ 240 ∧ s.spurRoute
          (nodeHead c.src) = some id ∧ s.cfgVal 1 .ctoOff ≠ 1) ∧
    (∃ (q : Nat) (c : Cell) (s : State), s.build = .head ∧ q < 4 ∧ c.cls = clsControl ∧ s.receive (24 + q) c = (true, s) ∧ s.rd
          R.CRN_HEAD_ROLE ≠ roleStandby ∧ c.typ = tHostRd ∧ s.isLead = false) ∧
    (∃ (q : Nat) (c : Cell) (s : State), s.build = .head ∧ q < 4 ∧ c.cls = clsControl ∧ s.receive (24 + q) c = (true, s) ∧ s.rd
          R.CRN_HEAD_ROLE ≠ roleStandby ∧ c.typ = tHostCpl ∧ s.host.reads.find? (fun r => r.tag = c.aux) = none) ∧
    (∃ (q : Nat) (c : Cell) (s : State) (r : DmaRead), s.build = .head ∧ q < 4 ∧ c.cls = clsControl ∧ s.receive (24 + q) c = (true, s) ∧
          s.rd R.CRN_HEAD_ROLE ≠ roleStandby ∧ c.typ = tHostCpl ∧ pb c 8 % 2 = 0 ∧ s.host.reads.find? (fun r => r.tag = c.aux) = some r
          ∧ (s.host.cpls.filter (fun p => p.1 = c.aux)).foldl (fun n p => n + p.2.2.2.length) 0 + min 240 (pn c 4 4) < r.len) ∧
    (∃ (q : Nat) (c : Cell) (s : State) (r : DmaRead) (j : DmaJob) (l : List DmaJob), s.build = .head ∧ q < 4 ∧ c.cls = clsControl ∧
          s.receive (24 + q) c = (true, s) ∧ s.rd R.CRN_HEAD_ROLE ≠ roleStandby ∧ c.typ = tHostCpl ∧ pb c 8 % 2 = 0 ∧ s.host.reads.find?
          (fun r => r.tag = c.aux) = some r ∧ s.host.cpls = [] ∧ r.len ≤ min 240 (pn c 4 4) ∧ r.fetch = false ∧ s.jobsOf r.ch = j :: l ∧
          (∀ k ∈ l, k.idx ≠ r.idx) ∧ j.idx = r.idx ∧ (∀ k ∈ j :: l, s.wantsData r.ch k = false)) ∧
    (∃ (q : Nat) (c : Cell) (s : State), s.build = .head ∧ q < 4 ∧ c.cls = clsControl ∧ s.receive (24 + q) c = (true, s) ∧ s.rd
          R.CRN_HEAD_ROLE ≠ roleStandby ∧ c.typ = tHostWr) ∧
    (∃ (q : Nat) (c : Cell) (s : State), s.build = .head ∧ q < 4 ∧ c.cls = clsControl ∧ s.receive (24 + q) c = (true, s) ∧ s.rd
          R.CRN_HEAD_ROLE ≠ roleStandby ∧ c.typ = tDoorbell ∧ pn c 0 2 < 16) ∧
    (∃ (q : Nat) (s : State) (fn : Nat), s.build = .head ∧ q < 4 ∧ fn < 2 ∧ s.pins.perstLow = false ∧ s.stage ≠ stRunFw ∧ s.stage ≠
          stRecovery ∧ s.nowNs < s.boot.roseNs + 10000000) ∧
    (∃ (q : Nat) (s : State) (fn : Nat), s.build = .head ∧ q < 4 ∧ fn < 2 ∧ s.pins.perstLow = false ∧ (s.stage = stRunFw ∨ s.stage =
          stRecovery ∨ s.boot.roseNs + 10000000 ≤ s.nowNs) ∧ s.host.d3.contains fn = false) ∧
    (∃ (q : Nat) (s : State) (fn : Nat) (n : Nat), s.build = .head ∧ q < 4 ∧ fn < 2 ∧ s.pins.perstLow = false ∧ (s.stage = stRunFw ∨
          s.stage = stRecovery ∨ s.boot.roseNs + 10000000 ≤ s.nowNs) ∧ barSize fn n ≠ 0) ∧
    (∃ (q : Nat) (s : State) (v : Nat), s.build = .head ∧ q < 4 ∧ v < 16 ∧ s.cfgVal 0 .msixEnable = 0) ∧
    (∃ (q : Nat) (s : State) (v : Nat), s.build = .head ∧ q < 4 ∧ v < 64 ∧ s.pins.perstLow = false ∧ s.stage = stRunFw ∧ s.cfgVal 0
          .msixEnable = 1 ∧ s.msixDword 0 (16 * v + 12) % 2 = 0 ∧ s.host.pba = [v]) ∧
    (∃ (q : Nat) (s : State) (v : Nat), s.build = .head ∧ q < 4 ∧ v < 16 ∧ s.cfgVal 0 .msixEnable = 1 ∧ s.masked 0 (48 + v) = true ∧
          s.host.holdoff.contains v = false) ∧
    (∃ (q : Nat) (s : State) (v : Nat), s.build = .head ∧ q < 4 ∧ v < 16 ∧ s.cfgVal 0 .msixEnable = 1 ∧ s.masked 0 (48 + v) = true ∧
          s.host.holdoff.contains v = true ∧ s.host.owed.contains v = true ∧ s.rd (R.HST_EVQ_IDX_PROD v) ≠ s.rd (R.HST_EVQ_IDX_CONS v)) ∧
    (∃ (q : Nat) (s : State) (st : Nat) (speed : Nat) (l1ss : Nat), s.build = .head ∧ q < 4 ∧ st ≤ 4 ∧ speed ≤ 5 ∧ l1ss ≤ 2 ∧
          s.pins.perstLow = false ∧ s.stage ≠ stNoref) ∧
    (∃ (q : Nat) (s : State) (p : Nat), s.build = .head ∧ q < 4 ∧ s.ethOn p = true) :=
  ⟨by refine ⟨1, sp tHostRd (natLE 0x1000 8 ++ natLE 240 4), sS [], 25, ?_⟩; decide +kernel,
   by refine ⟨1, sp tHostRd (natLE 0x1000 8 ++ natLE 240 4), sS [(R.SPR_CFG_LEAD_HEAD, 5)], ?_⟩; decide +kernel,
   by refine ⟨1, sp tHostCpl (natLE 0 4 ++ natLE 8 4 ++ natLE 0 8 ++ natLE 77 8), sS [], ?_⟩; decide +kernel,
   by refine ⟨1, sp tHostCpl (natLE 0 4 ++ natLE 8 4 ++ natLE 0 8 ++ natLE 77 8), { sS [] with host := { H.host with reads := [hR 16] } }, hR 16, ?_⟩; decide +kernel,
   by refine ⟨1, sp tHostCpl (natLE 0 4 ++ natLE 8 4 ++ natLE 0 8 ++ natLE 77 8), { sS [] with host := { H.host with reads := [hR 8], jobs := [(3, [hJ])] } }, hR 8, hJ, [], ?_⟩; decide +kernel,
   by refine ⟨1, sp tHostWr (natLE 0x1000 8 ++ natLE 4 4 ++ natLE 0 4 ++ natLE 7 4), sS [], ?_⟩; decide +kernel,
   by refine ⟨1, sp tDoorbell (natLE 15 2 ++ natLE 0x1234 2), sS [], ?_⟩; decide +kernel,
   by refine ⟨1, sS [], 1, ?_⟩; decide +kernel,
   by refine ⟨1, sS [(R.BOOT_STAGE_STAGE, stRunFw)], 1, ?_⟩; decide +kernel,
   by refine ⟨1, sS [(R.BOOT_STAGE_STAGE, stRunFw)], 1, 4, ?_⟩; decide +kernel,
   by refine ⟨1, sS [], 15, ?_⟩; decide +kernel,
   by refine ⟨1, { sS [(R.BOOT_STAGE_STAGE, stRunFw)] with pins := { H.pins with perstLow := false }, host := { H.host with cfg := [(15, 1), (24, 1)], msixTab := [(16 * 63 + 12, 0)], pba := [63] } }, 63, ?_⟩; decide +kernel,
   by refine ⟨1, { sS [(R.HST_EVQ_IDX_PROD 15, 3)] with host := { H.host with cfg := [(15, 1)] } }, 15, ?_⟩; decide +kernel,
   by refine ⟨1, { sS [(R.HST_EVQ_IDX_PROD 15, 3)] with host := { H.host with cfg := [(15, 1)], holdoff := [15], owed := [15] } }, 15, ?_⟩; decide +kernel,
   by refine ⟨1, sS [], 4, 5, 2, ?_⟩; decide +kernel,
   by refine ⟨1, sS [], 1, ?_⟩; decide +kernel⟩

/-- A head with both side ports up, the control-packet path and the PTP client. -/
def eP (l : List (Fld × Nat)) : State :=
  upH (on .ETH 0 ++ [(R.ETHP_CFG_ENABLE 1, 1), (R.ETHP_CFG_ENABLE 0, 1), (R.ETHP_STATE_LINK 0, 1), (R.ETHP_STATE_LINK 1, 1),
    (R.ETH_CP_CFG_EN, 1), (R.ETH_PTP_CFG_EN, 1)] ++ l)

/-- An entry of the destination table: port 1 of this head. -/
def ent : DtEntry := { mac := 0x112233445566, vid := 5, anyvid := false, valid := true, dir := 0, port := 1, node := nodeId 0 0 0 }

/-- A frame to that entry. -/
def frm : EthFrame :=
  { fcsOk := true, da := 0x112233445566, tagged := true, vid := 5, stacked := false, ptp := none, st := none, ctl := .none,
    bytes := [1, 2, 3, 4], length := 9216 }

/-- A FRAME cell that holds a whole frame. -/
def fr : Cell :=
  sealCell { mkCell clsBest 0 (nodeId 4 0 0) (nodeId 0 0 0) 0 false false (natLE 5 2 ++ natLE 1 1 ++ natLE 0 5 ++ [9, 9, 9, 9, 9]) with
    aux := 3, hops := 3 } false

/-- The hypotheses of SidePorts can be met, clause by clause. -/
theorem witness_SidePorts :
    (∃ (p : Nat) (s : State) (f : EthFrame), s.ethOn p = true ∧ f.fcsOk = false) ∧
    (∃ (p : Nat) (s : State) (f : EthFrame) (e : DtEntry), s.ethOn p = true ∧ f.fcsOk = true ∧ f.length ≤ 9216 ∧ s.eth.ingress = [] ∧
          f.stacked = false ∧ f.ptp = none ∧ f.st = none ∧ f.ctl = .none ∧ f.tagged = true ∧ s.dtFind f.da f.vid = some e ∧ e.node ≠
          0xFFFE ∧ s.isSelf e.node = true ∧ e.port ≠ p ∧ s.ethOn e.port = true ∧ s.rd (R.ETHP_STATE_LINK e.port) = 1 ∧ s.rd
          (R.ETHP_CFG_UNTAG e.port) = 0) ∧
    (∃ (p : Nat) (s : State) (id : Nat) (c : Cell), s.ethOn p = true ∧ c.cls = clsBest ∧ c.typ = 0 ∧ s.asleep id = false ∧ s.frameMine
          id c = true ∧ c.aux = 3 ∧ pb c 2 % 2 = p ∧ s.eth.reasm = [] ∧ s.rd (R.ETHP_STATE_LINK p) = 1 ∧ s.rd (R.ETHP_CFG_UNTAG p) = 0) ∧
    (∃ (p : Nat) (s : State) (idx : Nat) (x : CpSlot), s.ethOn p = true ∧ s.build = .head ∧ s.pins.perstLow = false ∧ s.host.d3 = [] ∧
          s.cpOn = true ∧ x.port = p ∧ s.rd (R.ETHP_STATE_LINK p) = 1 ∧ s.rd (R.ETHP_CFG_UNTAG p) = 0 ∧ x.ended = .ok ∧ vectorOpen s 0 0
          = true ∧ idx = s.rd R.ETH_CP_IDX_TX_CONS + 1 ∧ idx < 65536) ∧
    (∃ (p : Nat) (s : State) (d : Nat) (ofs : Int) (m : PtpMessage), s.ethOn p = true ∧ (m = .event ∨ m = .sync d ofs)) ∧
    (∃ (p : Nat) (s : State), s.ethOn p = true ∧ s.rd R.ETH_PTP_CFG_EN = 1 ∧ p = s.ptpPort ∧ s.rd R.ETH_PTP_STATE_STATE = ptpListen) ∧
    (∃ (p : Nat) (s : State) (d : Nat), s.ethOn p = true ∧ s.rd R.ETH_PTP_CFG_EN = 1 ∧ p = s.ptpPort ∧ d ≠ s.rd R.ETH_PTP_CFG_DOMAIN) ∧
    (∃ (p : Nat) (s : State) (ofs : Int), s.ethOn p = true ∧ s.rd R.ETH_PTP_CFG_EN = 1 ∧ p = s.ptpPort ∧ s.rd R.ETH_PTP_STATE_STATE =
          ptpUnlocked ∧ ofs.natAbs ≤ 100) ∧
    (∃ (p : Nat) (s : State), s.ethOn p = true ∧ ptpUnlocked ≤ s.rd R.ETH_PTP_STATE_STATE) :=
  ⟨by refine ⟨0, eP [], { frm with fcsOk := false }, ?_⟩; decide +kernel,
   by refine ⟨0, { eP [] with eth := { H.eth with table := [(3, ent)] } }, frm, ent, ?_⟩; decide +kernel,
   by refine ⟨1, eP [], 0, fr, ?_⟩; decide +kernel,
   by refine ⟨0, { eP [] with host := { H.host with cfg := [(15, 1)], msixTab := [(12, 0)] } }, 1, { ended := .ok, length := 4, port := 0, bytes := [1, 2, 3, 4] }, ?_⟩; decide +kernel,
   by refine ⟨0, eP [], 9, (-100), .event, ?_⟩; decide +kernel,
   by refine ⟨0, eP [(R.ETH_PTP_STATE_STATE, ptpListen)], ?_⟩; decide +kernel,
   by refine ⟨0, eP [], 9, ?_⟩; decide +kernel,
   by refine ⟨0, eP [(R.ETH_PTP_STATE_STATE, ptpUnlocked)], (-100), ?_⟩; decide +kernel,
   by refine ⟨0, eP [(R.ETH_PTP_STATE_STATE, ptpUnlocked)], ?_⟩; decide +kernel⟩

/-- The hypotheses of ManagementPort can be met, clause by clause. -/
theorem witness_ManagementPort :
    (∃ (s : State) (a : Nat) (data : List Byte), 8 ≤ s.rd R.MGT_STATE_ADDR ∧ s.rd R.MGT_STATE_ADDR < 120 ∧ (s.pstate = pSummit ∨
          s.pstate = pShoulder) ∧ s.boot.phase ≠ .held ∧ s.eng.pwr.stretch = false ∧ s.build = .tile ∧ s.wf = true ∧ 0x120000 ≤ a ∧ a <
          0x128000 ∧ a % 4 = 0 ∧ s.busError .mgt true a 1 15 = none ∧ data.length = 4 ∧ s.rd R.MGT_CFG_PEC_EN = 0) ∧
    (∃ (s : State) (a : Nat) (n : Nat) (data : List Byte) (pec : Byte), 8 ≤ s.rd R.MGT_STATE_ADDR ∧ s.rd R.MGT_STATE_ADDR < 120 ∧
          (s.pstate = pSummit ∨ s.pstate = pShoulder) ∧ s.boot.phase ≠ .held ∧ s.eng.pwr.stretch = false ∧ a < 2097152 ∧ n < 256 ∧
          s.busError .mgt true a n (16 ^ n - 1) = none ∧ data.length = 4 * n ∧ s.rd R.MGT_CFG_PEC_EN = 1 ∧ pec ≠ BitVec.ofNat 8 (crc8
          (s.mgtHead a n ++ data))) ∧
    (∃ (s : State) (a : Nat), 8 ≤ s.rd R.MGT_STATE_ADDR ∧ s.rd R.MGT_STATE_ADDR < 120 ∧ (s.pstate = pSummit ∨ s.pstate = pShoulder) ∧
          s.boot.phase ≠ .held ∧ s.eng.pwr.stretch = false ∧ a < 2097152 ∧ s.busError .mgt false a 1 15 = none) ∧
    (∃ (s : State), 8 ≤ s.rd R.MGT_STATE_ADDR ∧ s.rd R.MGT_STATE_ADDR < 120 ∧ (s.pstate = pSummit ∨ s.pstate = pShoulder) ∧ s.boot.phase
          ≠ .held ∧ s.rd R.MGT_CFG_TMO_EN = 1) ∧
    (∃ (s : State), 8 ≤ s.rd R.MGT_STATE_ADDR ∧ s.rd R.MGT_STATE_ADDR < 120 ∧ (s.pstate = pSummit ∨ s.pstate = pShoulder) ∧ s.boot.phase
          ≠ .held ∧ s.eng.pwr.stretch = true ∧ s.bus.isOpen = false) ∧
    (∃ (s : State) (a : Nat), 8 ≤ s.rd R.MGT_STATE_ADDR ∧ s.rd R.MGT_STATE_ADDR < 120 ∧ (s.pstate = pSummit ∨ s.pstate = pShoulder) ∧
          s.boot.phase ≠ .held ∧ s.eng.pwr.stretch = true ∧ s.bus.isOpen = true ∧ s.rd R.MGT_CFG_PEC_EN = 0 ∧ a < 2097152 ∧ s.busError
          .mgt false a 1 15 = none ∧ s.eng.pwr.mgt = some { write := false, addr := a, count := 1, data := [], pec := none, clocked := 5
          }) ∧
    (∃ (s : State) (u : State), 8 ≤ s.rd R.MGT_STATE_ADDR ∧ s.rd R.MGT_STATE_ADDR < 120 ∧ (s.pstate = pSummit ∨ s.pstate = pShoulder) ∧
          s.boot.phase ≠ .held ∧ u.boot.phase = .held) ∧
    (∃ (s : State) (u : State) (a : Nat), 8 ≤ s.rd R.MGT_STATE_ADDR ∧ s.rd R.MGT_STATE_ADDR < 120 ∧ (s.pstate = pSummit ∨ s.pstate =
          pShoulder) ∧ s.boot.phase ≠ .held ∧ u.rd R.MGT_STATE_ADDR = s.rd R.MGT_STATE_ADDR ∧ u.boot.phase ≠ .held ∧ u.pstate = pValley
          ∧ u.pphase = ppWaking ∧ u.eng.pwr.up = false ∧ u.rd R.PWR_STATE_STRANDED = 0 ∧ u.eng.pwr.stretch = false ∧ a < 16777216) :=
  ⟨by refine ⟨upT [], 0x127FFC, [1, 2, 3, 4], ?_⟩; decide +kernel,
   by refine ⟨upT [(R.MGT_CFG_PEC_EN, 1)], 0x127FFC, 1, [1, 2, 3, 4], 7, ?_⟩; decide +kernel,
   by refine ⟨upT [], 0x127FFC, ?_⟩; decide +kernel,
   by refine ⟨{ upT [] with eng := { T.eng with pwr := { T.eng.pwr with stretch := true, mgt := some { write := false, addr := 0, count := 1, data := [], pec := none, clocked := 5 } } } }, ?_⟩; decide +kernel,
   by refine ⟨{ upT [(R.MGT_CFG_TMO_EN, 1)] with bus := { T.bus with isOpen := false }, eng := { T.eng with pwr := { T.eng.pwr with stretch := true } } }, ?_⟩; decide +kernel,
   by refine ⟨{ upT [] with eng := { T.eng with pwr := { T.eng.pwr with stretch := true, mgt := some { write := false, addr := 0, count := 1, data := [], pec := none, clocked := 5 } } } }, 0, ?_⟩; decide +kernel,
   by refine ⟨{ upT [] with eng := { T.eng with pwr := { T.eng.pwr with stretch := true, mgt := some { write := false, addr := 0, count := 1, data := [], pec := none, clocked := 5 } } } }, { T with boot := { T.boot with phase := .held } }, ?_⟩; decide +kernel,
   by refine ⟨{ upT [] with eng := { T.eng with pwr := { T.eng.pwr with stretch := true, mgt := some { write := false, addr := 0, count := 1, data := [], pec := none, clocked := 5 } } } }, fl T [(R.PWR_STATE_STATE, pValley), (R.PWR_STATE_PHASE, ppWaking)], 0x127FFC, ?_⟩; decide +kernel⟩

/-- Channel 0 in a state. -/
def dT (c : DramCh) (st : Nat) (l : List (Fld × Nat)) : State :=
  { fl T ([(R.ENABLE (Blk.DRC.pg 0), 1), (R.RUN (Blk.DRC.pg 0), 2), (R.DRC_CH_STATE_STATE 0, st)] ++ l) with
    eng := { T.eng with dram := [(0, c)] } }

/-- An idle channel with row 0 open. -/
def dI : DramCh := { DramCh.init with rows := [(0, 0)] }

/-- A read of requester 3. -/
def rq : DramReq := { requester := 3, write := false, addr := 0x20, data := [] }

/-- The channel with that read in flight. -/
def dF (ag : Bool) : DramCh := { dI with flight := some rq, again := ag }

/-- The hypotheses of DramRequests can be met, clause by clause. -/
theorem witness_DramRequests :
    (∃ (r : DramReq) (j : Nat) (a : Nat) (s : State), r.requester ≤ 8 ∧ r.addr % dramSize s.build = a ∧ chanOf s.build a = j ∧
          r.requester ∉ [1, 2, 7] ∧ s.chServes j = false) ∧
    (∃ (r : DramReq) (j : Nat) (a : Nat) (s : State), r.requester ≤ 8 ∧ r.addr % dramSize s.build = a ∧ chanOf s.build a = j ∧ s.enabled
          .DRC (j / 2) = true ∧ s.chState j = dcReady ∧ s.chIdle j = true ∧ (s.dch j).hit s.build { r with addr := a } = true ∧ s.refTop
          j = false ∧ s.refBlocks j = true ∧ r.write = false) ∧
    (∃ (r : DramReq) (j : Nat) (a : Nat) (s : State), r.requester ≤ 8 ∧ r.addr % dramSize s.build = a ∧ chanOf s.build a = j ∧ s.enabled
          .DRC (j / 2) = true ∧ s.chState j = dcReady ∧ s.chIdle j = true ∧ (s.dch j).hit s.build { r with addr := a } = true ∧ s.refTop
          j = false ∧ s.refBlocks j = false ∧ r.write = false) ∧
    (∃ (r : DramReq) (j : Nat) (a : Nat) (s : State), r.requester ≤ 8 ∧ r.addr % dramSize s.build = a ∧ chanOf s.build a = j ∧ s.enabled
          .DRC (j / 2) = true ∧ s.chState j = dcReady ∧ s.chIdle j = true ∧ (s.dch j).hit s.build { r with addr := a } = true ∧ s.refTop
          j = false ∧ s.refBlocks j = false ∧ r.write = true ∧ s.wf = true ∧ r.data.length = 32) ∧
    (∃ (r : DramReq) (j : Nat) (a : Nat) (s : State), r.requester ≤ 8 ∧ r.addr % dramSize s.build = a ∧ chanOf s.build a = j ∧ (s.dch
          j).flight = some r ∧ (s.dch j).reads = [] ∧ (s.dch j).writes = [] ∧ (s.dch j).held = [] ∧ (s.dch j).again = false) ∧
    (∃ (r : DramReq) (j : Nat) (a : Nat) (s : State), r.requester ≤ 8 ∧ r.addr % dramSize s.build = a ∧ chanOf s.build a = j ∧ (s.dch
          j).flight = some r ∧ (s.dch j).reads = [] ∧ (s.dch j).writes = [] ∧ (s.dch j).held = [] ∧ (s.dch j).again = true ∧ r.requester
          ∉ [1, 2, 7] ∧ (s.dch j).ues.length + 1 < s.rd (R.DRC_QCFG_UE_LIMIT (j / 2))) ∧
    (∃ (r : DramReq) (j : Nat) (a : Nat) (s : State), r.requester ≤ 8 ∧ r.addr % dramSize s.build = a ∧ chanOf s.build a = j ∧ (s.dch
          j).flight = some r ∧ (s.dch j).reads = [] ∧ (s.dch j).writes = [] ∧ (s.dch j).held = [] ∧ (s.dch j).again = true ∧ s.rd
          (R.DRC_QCFG_UE_LIMIT (j / 2)) = 1 ∧ 1 ≤ s.rd (R.DRC_QCFG_UE_WIN (j / 2)) ∧ s.chState j ≠ dcQuar) :=
  ⟨by refine ⟨rq, 0, 0x20, dT dI 0 [], ?_⟩; decide +kernel,
   by refine ⟨rq, 0, 0x20, dT { dI with refTo := 10 } 2 [], ?_⟩; decide +kernel,
   by refine ⟨rq, 0, 0x20, dT dI 2 [], ?_⟩; decide +kernel,
   by refine ⟨{ requester := 5, write := true, addr := 0x20, data := List.replicate 32 7 }, 0, 0x20, dT dI 2 [], ?_⟩; decide +kernel,
   by refine ⟨rq, 0, 0x20, dT (dF false) 2 [], ?_⟩; decide +kernel,
   by refine ⟨rq, 0, 0x20, dT (dF true) 2 [(R.DRC_QCFG_UE_LIMIT 0, 2)], ?_⟩; decide +kernel,
   by refine ⟨rq, 0, 0x20, dT (dF true) 2 [(R.DRC_QCFG_UE_LIMIT 0, 1), (R.DRC_QCFG_UE_WIN 0, 5)], ?_⟩; decide +kernel⟩

/-- The hypotheses of DramRefresh can be met, clause by clause. -/
theorem witness_DramRefresh :
    (∃ (j : Nat) (s : State), j < channels s.build ∧ (s.chState j = dcReady ∨ s.chState j = dcTraining) ∧ (s.dch j).slow = false) ∧
    (∃ (j : Nat) (s : State), j < channels s.build ∧ (s.chState j = dcReady ∨ s.chState j = dcTraining) ∧ (s.dch j).slow = true) ∧
    (∃ (j : Nat) (s : State), j < channels s.build ∧ (s.chState j = dcReady ∨ s.chState j = dcTraining) ∧ (s.dch j).holdsRt = true ∧
          s.refTop j = false ∧ (s.dch j).commitWaits = false) ∧
    (∃ (j : Nat) (s : State) (n : Nat), j < channels s.build ∧ (s.chState j = dcReady ∨ s.chState j = dcTraining) ∧ s.rd
          (R.DRC_CH_STATE_OWED j) = n + 1 ∧ n < 15 ∧ s.chIdle j = true ∧ (s.dch j).commitWaits = false ∧ (s.dch j).burst ≠ 1) ∧
    (∃ (j : Nat) (s : State) (n : Nat), j < channels s.build ∧ (s.chState j = dcReady ∨ s.chState j = dcTraining) ∧ s.rd
          (R.DRC_CH_STATE_OWED j) = n + 1 ∧ n < 15 ∧ s.chIdle j = true ∧ (s.dch j).commitWaits = false ∧ (s.dch j).burst = 1) ∧
    (∃ (j : Nat) (s : State) (n : Nat), j < channels s.build ∧ (s.chState j = dcReady ∨ s.chState j = dcTraining) ∧ s.rd
          (R.DRC_CH_STATE_OWED j) = n + 1 ∧ n < 15 ∧ (s.dch j).commitWaits = true) ∧
    (∃ (j : Nat) (s : State), j < channels s.build ∧ (s.chState j = dcReady ∨ s.chState j = dcTraining) ∧ s.rd (R.DRC_CH_STATE_RATE j) =
          0 ∧ s.rd (R.DRC_CH_STATE_OWED j) < 16) ∧
    (∃ (j : Nat) (s : State), j < channels s.build ∧ s.pstate = pShoulder ∧ s.enabled .DRC (j / 2) = true ∧ s.chState j = dcReady ∧
          s.chIdle j = true ∧ (s.dch j).op = none ∧ s.rd (R.DRC_CH_STATE_OWED j) = 0) :=
  ⟨by refine ⟨0, dT dI 2 [(R.DRC_CH_STATE_OWED 0, 15)], ?_⟩; decide +kernel,
   by refine ⟨0, dT { dI with slow := true } 2 [], ?_⟩; decide +kernel,
   by refine ⟨0, dT (dF false) 2 [], ?_⟩; decide +kernel,
   by refine ⟨0, dT dI 2 [(R.DRC_CH_STATE_OWED 0, 15)], 14, ?_⟩; decide +kernel,
   by refine ⟨0, dT { dI with burst := 1 } 2 [(R.DRC_CH_STATE_OWED 0, 15)], 14, ?_⟩; decide +kernel,
   by refine ⟨0, dT { dI with commitWaits := true } 1 [(R.DRC_CH_STATE_OWED 0, 1)], 0, ?_⟩; decide +kernel,
   by refine ⟨0, dT dI 2 [(R.DRC_CH_STATE_OWED 0, 15)], ?_⟩; decide +kernel,
   by refine ⟨0, dT dI 2 [(R.PWR_STATE_STATE, pShoulder)], ?_⟩; decide +kernel⟩

/-- An MRR of mode register 3. -/
def op6 : HelperOp := { op := 6, mr := 0x305, base := 0, bursts := 1, pattern := 0, bad := false }

/-- Channel 0 on a page that is disabled. -/
def dD (c : DramCh) (st : Nat) (l : List (Fld × Nat)) : State :=
  dT c st ([(R.ENABLE (Blk.DRC.pg 0), 0), (R.RUN (Blk.DRC.pg 0), 0)] ++ l)

/-- The hypotheses of TrainingOperations can be met, clause by clause. -/
theorem witness_TrainingOperations :
    (∃ (path : Path) (j : Nat) (s : State), j < channels s.build ∧ s.reaches path (R.DRC_CH_TRN_CMD_GO j) .base ∧ s.rd
          (R.DRC_CH_TRN_CMD_GO j) = 0 ∧ s.dramQuiet ∧ s.chState j ≠ dcQuar) ∧
    (∃ (path : Path) (j : Nat) (s : State), j < channels s.build ∧ s.reaches path (R.DRC_CH_TRN_CMD_GO j) .base ∧ s.rd
          (R.DRC_CH_TRN_CMD_GO j) = 0 ∧ s.dramQuiet ∧ (s.dch j).trained = true) ∧
    (∃ (path : Path) (j : Nat) (s : State), j < channels s.build ∧ s.reaches path (R.DRC_CH_TRN_CMD_GO j) .base ∧ s.rd
          (R.DRC_CH_TRN_CMD_GO j) = 0 ∧ s.dramQuiet ∧ (s.dch j).trained = false) ∧
    (∃ (j : Nat) (s : State) (o : HelperOp) (op : Nat), j < channels s.build ∧ (s.dch j).op = some o ∧ o.op = op ∧ o.bad = false ∧
          s.chState j ≠ dcQuar) ∧
    (∃ (path : Path) (j : Nat) (s : State), j < channels s.build ∧ s.reaches path (R.DRC_CH_TRN_CMD_GO j) .base ∧ s.rd
          (R.DRC_CH_TRN_CMD_GO j) = 0 ∧ s.enabled .DRC (j / 2) = false) ∧
    (∃ (path : Path) (j : Nat) (s : State), j < channels s.build ∧ s.reaches path (R.DRC_CH_TRN_CMD_GO j) .base ∧ s.rd
          (R.DRC_CH_TRN_CMD_GO j) = 0 ∧ s.enabled .DRC (j / 2) = true) :=
  ⟨by refine ⟨.kryty, 0, dT dI 2 [], ?_⟩; dsimp only [State.reaches, State.dramQuiet]; decide +kernel,
   by refine ⟨.kryty, 0, dD { dI with trained := true } 3 [], ?_⟩; dsimp only [State.reaches, State.dramQuiet]; decide +kernel,
   by refine ⟨.kryty, 0, dT dI 2 [], ?_⟩; dsimp only [State.reaches, State.dramQuiet]; decide +kernel,
   by refine ⟨0, dD { dI with op := some op6 } 1 [], op6, 6, ?_⟩; decide +kernel,
   by refine ⟨.kryty, 0, dD dI 0 [], ?_⟩; unfold State.reaches; decide +kernel,
   by refine ⟨.kryty, 0, dT dI 2 [], ?_⟩; unfold State.reaches; decide +kernel⟩

/-- Sensor n in a state. -/
def sn (s : State) (n m g : Nat) (l : List (Fld × Nat)) : State :=
  { fl s l with eng := { s.eng with sensors := [(n, { missed := m, good := g })] } }

/-- The hypotheses of SensorConversions can be met, clause by clause. -/
theorem witness_SensorConversions :
    (∃ (n : Nat) (v : Int) (s : State), n < sensorCount s.build ∧ -220 ≤ v ∧ v ≤ 600 ∧ s.pstate = pValley) ∧
    (∃ (n : Nat) (v : Int) (s : State), n < sensorCount s.build ∧ -220 ≤ v ∧ v ≤ 600 ∧ s.pstate ≠ pValley ∧ (s.sensorFault n = false ∨ 3
          ≤ (s.sensor n).good)) ∧
    (∃ (n : Nat) (v : Int) (s : State), n < sensorCount s.build ∧ -220 ≤ v ∧ v ≤ 600 ∧ s.pstate ≠ pValley ∧ s.sensorFault n = true ∧
          (s.sensor n).good < 3) ∧
    (∃ (n : Nat) (v : Int) (s : State), n < sensorCount s.build ∧ -220 ≤ v ∧ v ≤ 600 ∧ s.pstate ≠ pValley ∧ s.sensorFault n = false ∧
          (s.sensor n).missed = 3) ∧
    (∃ (n : Nat) (v : Int) (s : State), n < sensorCount s.build ∧ -220 ≤ v ∧ v ≤ 600 ∧ s.pstate ≠ pValley ∧ s.sensorFault n = false ∧
          (s.sensor n).missed < 3) ∧
    (∃ (n : Nat) (v : Int) (s : State), n < sensorCount s.build ∧ -220 ≤ v ∧ v ≤ 600 ∧ s.pstate ≠ pValley ∧ s.build = .head ∧
          s.sensorFault n = false ∧ s.enabled .THM 0 = true ∧ (4 * s.rd R.THM_CFG_HOT_LIM : Nat) ≤ v ∧ s.rd R.THM_STATUS_HOT = 0) :=
  ⟨by refine ⟨5, 600, fl T [(R.PWR_STATE_STATE, pValley)], ?_⟩; decide +kernel,
   by refine ⟨5, 600, sn T 5 3 0 [], ?_⟩; decide +kernel,
   by refine ⟨5, 600, sn T 5 0 2 [(R.THM_STATUS_FAULT, 32)], ?_⟩; decide +kernel,
   by refine ⟨5, 600, sn T 5 3 0 [], ?_⟩; decide +kernel,
   by refine ⟨5, 600, sn T 5 2 0 [], ?_⟩; decide +kernel,
   by refine ⟨1, 600, sn H 1 0 0 [(R.ENABLE (Blk.THM.pg 0), 1), (R.THM_CFG_HOT_LIM, 70)], ?_⟩; decide +kernel⟩

/-- Half W can be calibrated. -/
def cS (l : List (Fld × Nat)) : State :=
  { fl T (on .CAL 0 ++ on .SCN 0 ++ on .LMP 0 ++ [(R.CAL_CFG_KINDS, 1)] ++ l) with
    eng := { T.eng with lay := { T.eng.lay with latched := true }, scan := [(0, { ScanHalf.init with ok := true })] } }

/-- A run in a phase. -/
def cC (p : Nat) (c : Cal) (l : List (Fld × Nat)) : State :=
  { cS ([(R.CAL_STATE_PHASE, p), (R.CAL_CMD_RUN, 1), (R.CAL_STATE_FIRST, 0)] ++ l) with
    eng := { (cS []).eng with cal := c } }

/-- The hypotheses of SelfCalibration can be met, clause by clause. -/
theorem witness_SelfCalibration :
    (∃ (s : State) (path : Path), s.build = .tile ∧ s.reaches path R.CAL_CMD_RUN .set ∧ s.calRuns = false ∧ s.rd R.CAL_CMD_RUN = 0) ∧
    (∃ (s : State) (path : Path), s.build = .tile ∧ s.reaches path R.CAL_CMD_RUN .set ∧ s.calRuns = true) ∧
    (∃ (s : State) (e : Nat × Nat) (l : List (Nat × Nat)) (hs : List Nat), s.build = .tile ∧ hs = (List.range 2).filter s.halfCovered ∧
          s.calRuns = false ∧ s.rd R.CAL_CMD_RUN = 1 ∧ s.running .CAL 0 = true ∧ s.eng.cal.ended = false ∧ s.sliceTime hs = true ∧
          s.calSlices hs ((List.range 6).filter s.railCovered) = e :: l ∧ l ≠ [] ∧ l.length < 65535) ∧
    (∃ (s : State) (k : Nat) (i : Nat) (l : List (Nat × Nat)), s.build = .tile ∧ s.enabled .CAL 0 = true ∧ s.eng.cal.halves.all
          s.halfCovered = true ∧ s.eng.cal.rails.all s.railCovered = true ∧ s.sliceTime s.eng.cal.halves = true ∧ s.calPhase = cpMeasure
          ∧ s.eng.cal.slices = (k, i) :: l ∧ l ≠ [] ∧ s.rd R.CAL_PROGRESS_DONE < 65535) ∧
    (∃ (s : State) (k : Nat) (i : Nat), s.build = .tile ∧ s.enabled .CAL 0 = true ∧ s.eng.cal.halves.all s.halfCovered = true ∧
          s.eng.cal.rails.all s.railCovered = true ∧ s.sliceTime s.eng.cal.halves = true ∧ s.calPhase = cpMeasure ∧ s.eng.cal.slices =
          [(k, i)] ∧ s.rd R.CAL_PROGRESS_DONE < 65535) ∧
    (∃ (s : State) (key : Nat) (cause : Nat), s.build = .tile ∧ s.enabled .CAL 0 = true ∧ s.eng.cal.halves.all s.halfCovered = true ∧
          s.eng.cal.rails.all s.railCovered = true ∧ s.sliceTime s.eng.cal.halves = true ∧ s.calPhase = cpCheck ∧ s.calFault
          s.eng.cal.results = some (key, cause) ∧ cause < 4 ∧ key < 400) ∧
    (∃ (s : State), s.build = .tile ∧ s.enabled .CAL 0 = true ∧ s.eng.cal.halves.all s.halfCovered = true ∧ s.eng.cal.rails.all
          s.railCovered = true ∧ s.sliceTime s.eng.cal.halves = true ∧ s.calPhase = cpApply ∧ s.eng.cal.opened = true) ∧
    (∃ (s : State), s.build = .tile ∧ s.enabled .CAL 0 = true ∧ s.eng.cal.halves.all s.halfCovered = true ∧ s.eng.cal.rails.all
          s.railCovered = true ∧ s.sliceTime s.eng.cal.halves = true ∧ s.calPhase = cpApply ∧ s.eng.cal.opened = false ∧
          (s.eng.cal.results.map Prod.fst).Nodup ∧ (∀ e ∈ s.eng.cal.snap, e.1 < 8) ∧ (∀ e ∈ s.eng.cal.results, calItem e.1 = true ∧
          (calWindow (e.1 / 100) (e.1 % 100)).1 ≤ e.2 ∧ e.2 ≤ (calWindow (e.1 / 100) (e.1 % 100)).2)) ∧
    (∃ (s : State) (g : Nat) (v : Int), s.build = .tile ∧ s.enabled .CAL 0 = true ∧ s.eng.cal.halves.all s.halfCovered = true ∧
          s.eng.cal.rails.all s.railCovered = true ∧ s.sliceTime s.eng.cal.halves = true ∧ s.calPhase = cpApply ∧ s.eng.cal.opened =
          false ∧ s.eng.cal.results = [(g, v)] ∧ g < 64 ∧ 0 ≤ v ∧ v < 64 ∧ s.rd R.CAL_STATE_FIRST = 0 ∧ s.rd (tdlyF (g / 32) (g % 32)) <
          64 ∧ (v - s.rd (tdlyF (g / 32) (g % 32))).natAbs ≤ 1 ∧ s.epochNo < 4294967296 ∧ (∀ e ∈ s.eng.cal.snap, e.1 < 8)) ∧
    (∃ (s : State) (g : Nat) (v : Int), s.build = .tile ∧ s.enabled .CAL 0 = true ∧ s.eng.cal.halves.all s.halfCovered = true ∧
          s.eng.cal.rails.all s.railCovered = true ∧ s.sliceTime s.eng.cal.halves = true ∧ s.calPhase = cpApply ∧ s.eng.cal.opened =
          false ∧ s.eng.cal.results = [(g, v)] ∧ g < 64 ∧ 0 ≤ v ∧ v < 64 ∧ s.rd R.CAL_STATE_FIRST = 0 ∧ s.rd (tdlyF (g / 32) (g % 32)) <
          64 ∧ 1 < v - s.rd (tdlyF (g / 32) (g % 32))) ∧
    (∃ (s : State), s.build = .tile ∧ s.calRuns = true ∧ s.enabled .CAL 0 = false) :=
  ⟨by refine ⟨cS [], .kryty, ?_⟩; dsimp only [State.reaches]; decide +kernel,
   by refine ⟨cC 2 { Cal.init with slices := [(0, 0), (0, 1)], halves := [0] } [], .kryty, ?_⟩; dsimp only [State.reaches]; decide +kernel,
   by refine ⟨cS [(R.CAL_CMD_RUN, 1)], (0, 0), (List.range 31).map (fun g => (0, g + 1)), [0], ?_⟩; decide +kernel,
   by refine ⟨cC 2 { Cal.init with slices := [(0, 0), (0, 1)], halves := [0] } [], 0, 0, [(0, 1)], ?_⟩; decide +kernel,
   by refine ⟨cC 2 { Cal.init with slices := [(0, 0)], halves := [0] } [], 0, 0, ?_⟩; decide +kernel,
   by refine ⟨cC 3 { Cal.init with results := [(2, 70)], halves := [0] } [], 2, 1, ?_⟩; decide +kernel,
   by refine ⟨cC 4 { Cal.init with results := [(2, 5)], halves := [0], opened := true } [], ?_⟩; decide +kernel,
   by refine ⟨cC 4 { Cal.init with results := [(2, 5)], halves := [0], snap := [(3, 100)] } [(tdlyF 0 2, 4)], ?_⟩; decide +kernel,
   by refine ⟨cC 4 { Cal.init with results := [(2, 5)], halves := [0], snap := [(3, 100)] } [(tdlyF 0 2, 4)], 2, 5, ?_⟩; decide +kernel,
   by refine ⟨cC 4 { Cal.init with results := [(2, 11)], halves := [0] } [(tdlyF 0 2, 4)], 2, 11, ?_⟩; decide +kernel,
   by refine ⟨cC 2 { Cal.init with slices := [(0, 0), (0, 1)], halves := [0] } [(R.ENABLE (Blk.CAL.pg 0), 0)], ?_⟩; decide +kernel⟩

/-- A device with the power controller in a state. -/
def pS (s : State) (l : List (Fld × Nat)) (p : Power) : State := { fl s l with eng := { s.eng with pwr := p } }

/-- An entry at a step. -/
def ents (s : State) (st tg : Nat) (l : List (Fld × Nat)) : State :=
  pS s ([(R.PWR_STATE_PHASE, ppEntering), (R.PWR_STATE_STEP, st), (R.PWR_CMD_GO, 1), (R.PWR_CMD_TARGET, tg)] ++ l)
    { Power.init with target := tg }

/-- An entry at a step whose block is in a state of RUN. -/
def entw (s : State) (st tg r : Nat) (l : List (Fld × Nat)) : State :=
  ents s st tg (l ++ (stepBlks st).map (fun b => (R.RUN (b.pg 0), r)))

/-- The hypotheses of PowerEntry can be met, clause by clause. -/
theorem witness_PowerEntry :
    (∃ (s : State) (path : Path) (n : Nat) (m : Nat), s.reaches path R.PWR_CMD_GO .base ∧ s.rd (R.LOCK (Blk.PWR.pg 0)) = 0 ∧ (n = 1 ∨ n
          = 2 ∨ n = 3) ∧ s.pphase = ppIdle ∧ s.eng.pwr.refusedAt = none ∧ (s.pstate = pSummit ∨ s.pstate = pShoulder ∧ n ≠ 1) ∧ s.rd
          R.PWR_STATE_STRANDED = 0 ∧ s.nextStep n 0 = some m) ∧
    (∃ (s : State) (path : Path) (n : Nat), s.reaches path R.PWR_CMD_GO .base ∧ s.rd (R.LOCK (Blk.PWR.pg 0)) = 0 ∧ (n = 1 ∨ n = 2 ∨ n =
          3) ∧ s.pphase = ppIdle ∧ s.eng.pwr.refusedAt = none ∧ (s.pstate = pSummit ∨ s.pstate = pShoulder ∧ n ≠ 1) ∧ s.rd
          R.PWR_STATE_STRANDED = 0 ∧ s.nextStep n 0 = none ∧ s.wakeActive = [] ∧ s.epochNo < 4294967296) ∧
    (∃ (s : State) (path : Path), s.reaches path R.PWR_CMD_GO .base ∧ s.rd (R.LOCK (Blk.PWR.pg 0)) = 0 ∧ s.pphase = ppIdle ∧
          s.eng.pwr.refusedAt = none ∧ s.pstate = pShoulder) ∧
    (∃ (s : State) (path : Path) (n : Nat), s.reaches path R.PWR_CMD_GO .base ∧ s.rd (R.LOCK (Blk.PWR.pg 0)) = 0 ∧ n < 4 ∧ s.pphase ≠
          ppIdle) ∧
    (∃ (s : State) (path : Path) (n : Nat) (at_ : Nat), s.reaches path R.PWR_CMD_GO .base ∧ s.rd (R.LOCK (Blk.PWR.pg 0)) = 0 ∧ n < 4 ∧
          s.pphase = ppIdle ∧ s.eng.pwr.refusedAt = some at_ ∧ s.nowNs < at_ + 10000000 * s.rd R.PWR_CFG_HOLDOFF) ∧
    (∃ (s : State) (n : Nat), s.pphase = ppEntering ∧ s.pstep = n ∧ 1 ≤ n ∧ n ≤ 17 ∧ ∃ e ∈ s.stepWins n, s.run e.1 e.2 = runWedged) ∧
    (∃ (s : State) (a : ParkAnswer) (n : Nat), s.pphase = ppEntering ∧ s.pstep = n ∧ 1 ≤ n ∧ n ≤ 17 ∧ (∀ e ∈ s.stepWins n, s.run e.1 e.2
          ≠ runWedged) ∧ stepAccepts s a n ∧ stepWinds s n) ∧
    (∃ (s : State) (a : ParkAnswer) (n : Nat) (m : Nat), s.pphase = ppEntering ∧ s.pstep = n ∧ 1 ≤ n ∧ n ≤ 17 ∧ (∀ e ∈ s.stepWins n,
          s.run e.1 e.2 ≠ runWedged) ∧ stepAccepts s a n ∧ ¬stepWinds s n ∧ s.nextStep s.ptarget n = some m) ∧
    (∃ (s : State) (a : ParkAnswer) (n : Nat), s.pphase = ppEntering ∧ s.pstep = n ∧ 1 ≤ n ∧ n ≤ 17 ∧ (∀ e ∈ s.stepWins n, s.run e.1 e.2
          ≠ runWedged) ∧ stepAccepts s a n ∧ ¬stepWinds s n ∧ s.nextStep s.ptarget n = none ∧ s.wakeSeen = none ∧ s.epochNo < 4294967296
          ∧ s.ptarget < 4) ∧
    (∃ (s : State) (a : ParkAnswer) (n : Nat) (e : WakeSource × Nat), s.pphase = ppEntering ∧ s.pstep = n ∧ 1 ≤ n ∧ n ≤ 17 ∧ (∀ e ∈
          s.stepWins n, s.run e.1 e.2 ≠ runWedged) ∧ stepAccepts s a n ∧ ¬stepWinds s n ∧ s.nextStep s.ptarget n = none ∧ s.wakeSeen =
          some e) ∧
    (∃ (s : State) (a : ParkAnswer) (n : Nat), s.pphase = ppEntering ∧ s.pstep = n ∧ 1 ≤ n ∧ n ≤ 17 ∧ (∀ e ∈ s.stepWins n, s.run e.1 e.2
          ≠ runWedged) ∧ stepDelays s a n ∧ n ≠ 14) ∧
    (∃ (s : State) (a : ParkAnswer) (n : Nat), s.pphase = ppEntering ∧ s.pstep = n ∧ 1 ≤ n ∧ n ≤ 17 ∧ (∀ e ∈ s.stepWins n, s.run e.1 e.2
          ≠ runWedged) ∧ stepDelays s a n ∧ n = 14) ∧
    (∃ (s : State) (n : Nat) (reason : Nat), s.pphase = ppEntering ∧ s.pstep = n ∧ 1 ≤ n ∧ n ≤ 17 ∧ (∀ e ∈ s.stepWins n, s.run e.1 e.2 ≠
          runWedged) ∧ stepRefusal s n reason) ∧
    (∃ (s : State) (a : ParkAnswer) (n : Nat), s.pphase = ppEntering ∧ s.pstep = n ∧ 1 ≤ n ∧ n ≤ 17 ∧ a = { rxActive := false, busy :=
          false } ∧ s.stepWedged n = false ∧ (n = 1 ∨ n = 6 ∨ n = 12) ∧ stepDelays s a n) ∧
    (∃ (s : State) (n : Nat) (m : Nat), s.pphase = ppEntering ∧ s.pstep = n ∧ 1 ≤ n ∧ n ≤ 17 ∧ n = 11 ∧ s.stepWedged n = false ∧
          s.eth.egress ≠ [] ∧ s.ptarget ≠ pShoulder ∧ s.nextStep s.ptarget n = some m) ∧
    (∃ (s : State), s.pphase = ppEntering ∧ s.pstep = 16) ∧
    (∃ (s : State), s.pphase = ppEntering ∧ s.pstep = 14 ∧ s.ptarget ≠ pShoulder) :=
  ⟨by refine ⟨fl T (on .LYR 0), .kryty, 3, 3, ?_⟩; dsimp only [State.reaches]; decide +kernel,
   by refine ⟨T, .kryty, 1, ?_⟩; dsimp only [State.reaches]; decide +kernel,
   by refine ⟨fl T [(R.PWR_STATE_STATE, pShoulder)], .kryty, ?_⟩; dsimp only [State.reaches]; decide +kernel,
   by refine ⟨ents T 3 1 (on .LYR 0 ++ on .EPC 0 ++ [(R.CLK_SEL_CUR, 1), (R.EPC_STATE_STATE, 2)]), .kryty, 3, ?_⟩; dsimp only [State.reaches]; decide +kernel,
   by refine ⟨{ fl T [] with eng := { T.eng with pwr := { T.eng.pwr with refusedAt := some 0 } } }, .kryty, 3, 0, ?_⟩; dsimp only [State.reaches]; decide +kernel,
   by refine ⟨entw T 5 2 6 [], 5, ?_⟩; decide +kernel,
   by refine ⟨ents T 3 1 (on .LYR 0 ++ on .EPC 0 ++ [(R.CLK_SEL_CUR, 1), (R.EPC_STATE_STATE, 2)]), ⟨false, false⟩, 3, ?_⟩; simp only [stepAccepts, stepWinds]; decide +kernel,
   by refine ⟨ents T 3 1 (on .LYR 0 ++ on .PRS 1), ⟨false, false⟩, 3, 4, ?_⟩; simp only [stepAccepts, stepWinds]; decide +kernel,
   by refine ⟨ents T 3 1 (on .LYR 0), ⟨false, false⟩, 3, ?_⟩; simp only [stepAccepts, stepWinds]; decide +kernel,
   by refine ⟨pS T [(R.PWR_STATE_PHASE, ppEntering), (R.PWR_STATE_STEP, 3), (R.PWR_CMD_GO, 1), (R.PWR_CMD_TARGET, 1), (R.ENABLE (Blk.LYR.pg 0), 1), (R.RUN (Blk.LYR.pg 0), 2), (R.PWR_WAKE_EN_PIN, 1), (R.PWR_WAKE_EN_PIN_POL, b2n T.pins.wakeHigh)] { Power.init with target := 1, seen := some (.pin T.pins.wakeHigh, 0) }, ⟨false, false⟩, 3, (.pin true, 0), ?_⟩; simp only [stepAccepts, stepWinds]; decide +kernel,
   by refine ⟨ents T 16 2 [], ⟨true, true⟩, 16, ?_⟩; simp only [stepDelays]; decide +kernel,
   by refine ⟨ents T 14 2 [], ⟨true, true⟩, 14, ?_⟩; simp only [stepDelays]; decide +kernel,
   by refine ⟨{ ents H 15 2 (on .HST 0) with pins := { H.pins with perstLow := false } }, 15, 6, ?_⟩; simp only [stepRefusal]; decide +kernel,
   by refine ⟨ents H 12 2 (on .FLD 0 ++ [(R.FLD_STATE_SHIP, shWait)]), ⟨false, false⟩, 12, ?_⟩; simp only [stepDelays]; decide +kernel,
   by refine ⟨{ ents H 11 2 (on .ETH 0) with eth := { H.eth with egress := [(0, [1])] } }, 11, 17, ?_⟩; decide +kernel,
   by refine ⟨ents T 16 2 [], ?_⟩; decide +kernel,
   by refine ⟨ents T 14 2 [], ?_⟩; decide +kernel⟩

/-- Committed to a state, with the wake sources enabled. -/
def pc (st : Nat) : List (Fld × Nat) :=
  [(R.PWR_STATE_PHASE, ppCommitted), (R.PWR_STATE_STATE, st), (R.PWR_WAKE_EN_MGT, 1), (R.PWR_WAKE_EN_PIN, 1), (R.PWR_WAKE_EN_RIDGE, 1)]

/-- Waking from a state. -/
def pw (st : Nat) : List (Fld × Nat) :=
  [(R.PWR_STATE_PHASE, ppWaking), (R.PWR_STATE_STATE, st), (R.PWR_WAKE_REC_FROM, st), (R.PWR_CFG_RETRIES, 2)]

/-- The hypotheses of PowerWake can be met, clause by clause. -/
theorem witness_PowerWake :
    (∃ (s : State), s.pphase = ppCommitted ∧ s.wakeSeen = none) ∧
    (∃ (s : State) (e : WakeSource × Nat), s.pphase = ppCommitted ∧ s.wakeSeen = some e ∧ s.pstate = pShoulder) ∧
    (∃ (s : State), s.pphase = ppCommitted ∧ s.rd R.PWR_WAKE_EN_MGT = 1 ∧ s.rd R.PWR_STATE_STRANDED = 0 ∧ s.pstate ≠ pShoulder) ∧
    (∃ (s : State) (high : Bool), s.pphase = ppCommitted ∧ s.rd R.PWR_STATE_STRANDED = 0 ∧ s.rd R.PWR_WAKE_EN_RIDGE = 0 ∧ s.rd
          R.PWR_WAKE_EN_PCIE = 0 ∧ high ≠ s.on R.PWR_WAKE_EN_PIN_POL) ∧
    (∃ (s : State) (lane : Nat), lane < 64 ∧ s.rd R.PWR_WAKE_EN_MGT = 0) ∧
    (∃ (s : State) (w : WakeSource) (lane : Nat), lane < 64 ∧ w ≠ .mgt ∧ s.rd R.PWR_WAKE_EN_RIDGE = 0 ∧ s.rd R.PWR_WAKE_EN_PCIE = 0 ∧
          s.rd R.PWR_WAKE_EN_PIN = 0) ∧
    (∃ (s : State) (w : WakeSource) (lane : Nat), lane < 64 ∧ onlyWake s w lane ∧ s.rd R.PWR_STATE_STRANDED = 0 ∧ s.pphase = ppIdle ∧
          s.eng.pwr.armed = true ∧ (s.pstate = pSaddle ∨ s.pstate = pValley)) ∧
    (∃ (s : State), s.pphase = ppWaking ∧ s.eng.pwr.up = false ∧ s.eng.pwr.gap = false ∧ s.rd R.PWR_WAKE_REC_FROM = pSaddle ∧
          s.eng.pwr.stretch = false) ∧
    (∃ (s : State), s.pphase = ppWaking ∧ s.eng.pwr.up = false ∧ s.eng.pwr.gap = false ∧ s.rd R.PWR_WAKE_REC_FROM = pValley ∧ s.wf =
          true ∧ s.eng.pwr.stretch = false ∧ s.pins.resetLow = false) ∧
    (∃ (s : State), s.pphase = ppWaking ∧ s.eng.pwr.up = false ∧ s.eng.pwr.gap = false ∧ s.rd R.PWR_STATE_STRANDED = 0 ∧ s.eng.pwr.tries
          < s.rd R.PWR_CFG_RETRIES) ∧
    (∃ (s : State), s.pphase = ppWaking ∧ s.eng.pwr.up = false ∧ s.eng.pwr.gap = false ∧ s.rd R.PWR_CFG_RETRIES ≤ s.eng.pwr.tries) ∧
    (∃ (s : State), s.pphase = ppWaking ∧ s.eng.pwr.gap = true) :=
  ⟨by refine ⟨pS T (pc 2) Power.init, ?_⟩; decide +kernel,
   by refine ⟨{ pS T (pc 1) { Power.init with seen := some (.pin false, 0) } with pins := { T.pins with wakeHigh := false } }, (.pin false, 0), ?_⟩; decide +kernel,
   by refine ⟨pS T (pc 2) Power.init, ?_⟩; decide +kernel,
   by refine ⟨pS T [(R.PWR_STATE_PHASE, ppCommitted), (R.PWR_WAKE_EN_MGT, 0), (R.PWR_WAKE_EN_RIDGE, 0), (R.PWR_WAKE_EN_PCIE, 0), (R.PWR_WAKE_EN_PIN, 0)] Power.init, true, ?_⟩; decide +kernel,
   by refine ⟨pS T [(R.PWR_STATE_PHASE, ppCommitted), (R.PWR_WAKE_EN_MGT, 0), (R.PWR_WAKE_EN_RIDGE, 0), (R.PWR_WAKE_EN_PCIE, 0), (R.PWR_WAKE_EN_PIN, 0)] Power.init, 0, ?_⟩; decide +kernel,
   by refine ⟨pS T [(R.PWR_STATE_PHASE, ppCommitted), (R.PWR_WAKE_EN_MGT, 0), (R.PWR_WAKE_EN_RIDGE, 0), (R.PWR_WAKE_EN_PCIE, 0), (R.PWR_WAKE_EN_PIN, 0)] Power.init, .pcie true, 0, ?_⟩; decide +kernel,
   by refine ⟨pS (upT []) (pc 3 ++ [(R.PWR_STATE_PHASE, 0)]) { Power.init with armed := true }, .mgt, 0, ?_⟩; simp only [onlyWake]; decide +kernel,
   by refine ⟨pS T (pw 2) { Power.init with tries := 1 }, ?_⟩; decide +kernel,
   by refine ⟨pS T (pw 3) Power.init, ?_⟩; decide +kernel,
   by refine ⟨pS T (pw 2) { Power.init with tries := 1 }, ?_⟩; decide +kernel,
   by refine ⟨pS T (pw 3) { Power.init with tries := 2 }, ?_⟩; decide +kernel,
   by refine ⟨pS T (pw 3) { Power.init with gap := true }, ?_⟩; decide +kernel⟩

theorem crcBit_lt {c : Nat} (h : c < 2 ^ 32) : crcBit c < 2 ^ 32 := by
  unfold crcBit
  split
  · exact Nat.xor_lt_two_pow (by omega) (by decide)
  · omega

theorem crcBits_lt (n : Nat) {c : Nat} (h : c < 2 ^ 32) : crcBits n c < 2 ^ 32 := by
  induction n generalizing c with
  | zero => exact h
  | succ n ih => exact ih (crcBit_lt h)

theorem crcFeed_lt (l : List Byte) {c : Nat} (h : c < 2 ^ 32) : crcFeed c l < 2 ^ 32 := by
  induction l generalizing c with
  | nil => exact h
  | cons b l ih => exact ih (crcBits_lt 8 (Nat.xor_lt_two_pow h (Nat.lt_of_lt_of_le b.isLt (by decide))))

/-- A CRC-32C has 32 bits. -/
theorem crc32c_lt (l : List Byte) : crc32c l < 2 ^ 32 := Nat.xor_lt_two_pow (crcFeed_lt l (by decide)) (by decide)

theorem wr8_build (s : State) (sp : Space) (off : Nat) (b : Byte) : (s.wr8 sp off b).build = s.build := rfl

theorem wr8_wf (sp : Space) {s : State} (off : Nat) (b : Byte) (h : Memory.wf s.mem = true) : Memory.wf (s.wr8 sp off b).mem = true := by
  rw [State.wr8]
  exact memPut_wf h _ _

theorem wrLE_build (s : State) (sp : Space) (off v n : Nat) : (s.wrLE sp off v n).build = s.build := by
  induction n generalizing s off v with
  | zero => rfl
  | succ n ih => exact ih ..

/-- A DRAM byte below the written ones keeps its value. -/
theorem rd8_wrLE_below (n : Nat) {s : State} {a off : Nat} (v : Nat) (h : a < off) (ht : off + n ≤ dramSize s.build) :
    (s.wrLE .dram off v n).rd8 .dram a = s.rd8 .dram a := by
  induction n generalizing s off v with
  | zero => rfl
  | succ n ih =>
    rw [State.wrLE, ih _ (Nat.lt_succ_of_lt h) (by rw [wr8_build]; omega)]
    rw [State.rd8, State.rd8, wr8_build, State.memGet_wr8_ne]
    simp only [Space.key, Space.fold]
    rw [Nat.mod_eq_of_lt (by omega : a < dramSize s.build), Nat.mod_eq_of_lt (by omega : off < dramSize s.build)]
    omega

theorem rdBytes_wrLE_below (m n : Nat) {s : State} {a off : Nat} (v : Nat) (h : a + m ≤ off) (ht : off + n ≤ dramSize s.build) :
    (s.wrLE .dram off v n).rdBytes .dram a m = s.rdBytes .dram a m := by
  induction m generalizing a with
  | zero => rfl
  | succ m ih =>
    show _ :: _ = _ :: _
    rw [rd8_wrLE_below n v (by omega) ht, ih (by omega)]

/-- Bytes read back as the number written. -/
theorem rdLE_wrLE (n : Nat) {s : State} {off v : Nat} (hm : Memory.wf s.mem = true) (hv : v < 256 ^ n) (ht : off + n ≤ dramSize s.build) :
    (s.wrLE .dram off v n).rdLE .dram off n = v := by
  induction n generalizing s off v with
  | zero => simp [State.rdLE] at *; omega
  | succ n ih =>
    have hq : v / 256 < 256 ^ n := by rw [Nat.div_lt_iff_lt_mul (by decide)]; rw [Nat.pow_succ] at hv; exact hv
    have hb : off + 1 + n ≤ dramSize (s.wr8 .dram off (BitVec.ofNat 8 v)).build := by rw [wr8_build]; omega
    rw [State.wrLE, State.rdLE, rd8_wrLE_below n _ (Nat.lt_succ_self off) hb, ih (wr8_wf _ _ _ hm) hq hb, State.rd8_wr8_same s hm]
    simp
    omega

/-- A tile that restores its state, its image not yet in DRAM. -/
def imgB : State := pS T [(R.PWR_STATE_PHASE, ppRestoring), (R.PWR_CMD_RESTORE, 1)] { Power.init with imaged := true }

/-- The same tile with an image of zeros and its CRC. -/
def imgS : State := imgB.wrLE .dram (0 + imageLen imgB.build) (crc32c (imgB.rdBytes .dram 0 (imageLen imgB.build))) 4

theorem imgS_ok : imgS.imageOk = true := by
  have hl : 0 + imageLen imgB.build + 4 ≤ dramSize imgB.build := by decide +kernel
  have hw : Memory.wf imgB.mem = true := by decide +kernel
  have ha : imgS.imageAt = 0 := by
    unfold State.imageAt imgS
    rw [State.rd_wrLE]
    decide +kernel
  have hi : imgS.eng.pwr.imaged = true := by decide +kernel
  unfold State.imageOk
  rw [hi, ha, Bool.true_and]
  apply decide_eq_true
  show crc32c (imgS.rdBytes .dram 0 (imageLen imgS.build)) = imgS.rdLE .dram (0 + imageLen imgS.build) 4
  have hb : imgS.build = imgB.build := wrLE_build ..
  rw [hb]
  unfold imgS
  rw [rdBytes_wrLE_below _ 4 _ (by omega) hl, rdLE_wrLE 4 hw (crc32c_lt _) hl]

theorem imgS_phase : imgS.pphase = ppRestoring := by
  unfold State.pphase imgS
  rw [State.rd_wrLE]
  decide +kernel

/-- The hypotheses of RestoreAndSupplies can be met, clause by clause. -/
theorem witness_RestoreAndSupplies :
    (∃ (s : State) (path : Path), s.reaches path R.PWR_CMD_RESTORE .set ∧ s.pphase = ppIdle ∧ s.rd R.PWR_STATE_STRANDED = 0 ∧ (∀ w <
          Blk.DRC.wins s.build, s.enabled .DRC w = true)) ∧
    (∃ (s : State) (path : Path), s.reaches path R.PWR_CMD_RESTORE .set ∧ (s.pphase ≠ ppIdle ∨ (∃ w < Blk.DRC.wins s.build, s.enabled
          .DRC w = false) ∨ s.rd R.PWR_STATE_STRANDED = 1)) ∧
    (∃ (s : State), s.pphase = ppRestoring ∧ s.imageOk = false ∧ s.wakeActive = []) ∧
    (∃ (s : State), s.pphase = ppRestoring ∧ s.imageOk = true) ∧
    (∃ (s : State), s.pins.railEn = false ∧ s.pstate ≠ pValley) ∧
    (∃ (s : State), s.pstate ≠ pValley ∧ s.pins.railPg = true) ∧
    (∃ (s : State), s.pstate ≠ pValley ∧ s.pphase ≠ ppWaking ∧ s.pins.railPg = false ∧ s.wf = true ∧ s.eng.pwr.stretch = false ∧
          s.boot.porDue = true) ∧
    (∃ (s : State), s.pstate ≠ pValley ∧ s.pphase ≠ ppWaking ∧ s.pins.railPg = false ∧ s.wf = true ∧ s.eng.pwr.stretch = false ∧
          s.boot.porDue = false) ∧
    (∃ (s : State), s.pstate = pValley ∧ s.pins.railPg = true) :=
  ⟨by refine ⟨fl T (on .DRC 0 ++ on .DRC 1), .kryty, ?_⟩; dsimp only [State.reaches]; decide +kernel,
   by refine ⟨T, .kryty, ?_⟩; dsimp only [State.reaches]; decide +kernel,
   by refine ⟨pS T [(R.PWR_STATE_PHASE, ppRestoring), (R.PWR_CMD_RESTORE, 1)] Power.init, ?_⟩; decide +kernel,
   by refine ⟨imgS, ?_, imgS_ok⟩; exact imgS_phase,
   by refine ⟨{ T with pins := { T.pins with railEn := false, railPg := false } }, ?_⟩; decide +kernel,
   by refine ⟨fl T (on .DRC 0 ++ on .DRC 1), ?_⟩; decide +kernel,
   by refine ⟨{ T with pins := { T.pins with railPg := false }, boot := { T.boot with porDue := true } }, ?_⟩; decide +kernel,
   by refine ⟨{ T with pins := { T.pins with railEn := false, railPg := false } }, ?_⟩; decide +kernel,
   by refine ⟨fl T [(R.PWR_STATE_STATE, 3)], ?_⟩; decide +kernel⟩

/-- A frame of 4 rows in 2 subframes. -/
def sc0 : ScanHalf :=
  { ScanHalf.init with ok := true, rows := 4, subf := 2, eff := 2, slotNs := 3000, pulseMax := 2000, rot := 1 }

/-- Scan-out of a half. -/
def scn (h : Nat) (sc : ScanHalf) (l : List (Fld × Nat)) : State :=
  { fl T (on .SCN h ++ [(R.SCN_STATUS_ROLE h, 3), (R.CLK_SEL_CUR, 1)] ++ l) with eng := { T.eng with scan := [(h, sc)] } }

/-- A row slot in which nothing fails. -/
def obs0 : RowObs := ⟨[], [], []⟩

/-- The hypotheses of RowSlotsAndLatch can be met, clause by clause. -/
theorem witness_RowSlotsAndLatch :
    (∃ (s : State) (half : Half) (h : Nat) (k : Nat) (r : Nat), Half.no half = h ∧ (s.scan h).next = k ∧ (s.scan h).rowOf k = r ∧
          s.inFrame h = false ∧ s.calRuns = false ∧ s.dramQuiet) ∧
    (∃ (s : State) (half : Half) (h : Nat) (k : Nat) (r : Nat), Half.no half = h ∧ (s.scan h).next = k ∧ (s.scan h).rowOf k = r ∧ s.wf =
          true ∧ s.inFrame h = true ∧ s.enabled .LMP h = false ∧ s.rd (R.SCN_FB_CUR_SRC h) = 0 ∧ k + 1 ≤ (s.scan h).slots ∧ k + 1 < 1024
          ∧ (s.scan h).rows ≤ 64 ∧ s.calRuns = false ∧ s.dramQuiet) ∧
    (∃ (s : State) (half : Half) (h : Nat) (k : Nat) (r : Nat) (obs : RowObs), Half.no half = h ∧ (s.scan h).next = k ∧ (s.scan h).rowOf
          k = r ∧ s.wf = true ∧ s.inFrame h = true ∧ s.running .LMP h = true ∧ s.lampEn = true ∧ s.trvLost h = false ∧ (s.lamp h).hotReq
          = false ∧ s.scanEmits h = true ∧ (s.scan h).late = false ∧ s.rd (R.SCN_FB_CUR_SRC h) = 0 ∧ s.rd (R.LMP_DIAG_CFG_DIAG_EN h) = 0
          ∧ obs.badPads = [] ∧ obs.loadFail = [] ∧ s.calRuns = false ∧ s.dramQuiet) ∧
    (∃ (s : State) (half : Half) (h : Nat) (k : Nat) (r : Nat) (path : Path), Half.no half = h ∧ (s.scan h).next = k ∧ (s.scan h).rowOf
          k = r ∧ s.reaches path (R.SCN_COMMIT_GO h) .set ∧ s.rd (R.SCN_FB_CUR_PENDING h) = 0) ∧
    (∃ (s : State), (s.build = .head ∨ s.epcRuns = false ∨ s.eng.lay.latched = true ∨ (s.scnLive 0 && s.inFrame 0 || s.scnLive 1 &&
          s.inFrame 1) = true) ∧ s.dramQuiet) ∧
    (∃ (s : State), s.build = .tile ∧ s.epcRuns = true ∧ s.eng.lay.latched = false ∧ s.eng.pwr.winding = false ∧ (s.scnLive 0 &&
          s.inFrame 0 || s.scnLive 1 && s.inFrame 1) = false) :=
  ⟨by refine ⟨T, .e, 1, 0, 0, ?_⟩; dsimp only [State.dramQuiet]; decide +kernel,
   by refine ⟨scn 1 { sc0 with next := 6 } [], .e, 1, 6, 3, ?_⟩; dsimp only [State.dramQuiet]; decide +kernel,
   by refine ⟨(scn 1 { sc0 with next := 6 } (on .LMP 1 ++ [(R.LMP_DIAG_CFG_DIAG_EN 1, 0)])).setLampEn true, .e, 1, 6, 3, obs0, ?_⟩; dsimp only [State.dramQuiet]; decide +kernel,
   by refine ⟨T, .e, 1, 0, 0, .kryty, ?_⟩; dsimp only [State.reaches]; decide +kernel,
   by refine ⟨T, ?_⟩; dsimp only [State.dramQuiet]; decide +kernel,
   by refine ⟨fl T (on .EPC 0 ++ [(R.CLK_SEL_CUR, 1), (R.SCN_FB_CUR_PENDING 0, 1)]), ?_⟩; decide +kernel⟩

/-- Lamp drive of a half with every diagnosis enabled, and lamps fitted at pixels 0. -/
def lS (h : Nat) (sc : ScanHalf) (lh : LampHalf) (l : List (Fld × Nat)) : State :=
  (({ scn h sc (on .LMP h ++ [(R.LMP_DIAG_CFG_DIAG_EN h, 1), (R.LMP_DIAG_CFG_NB_EN h, 1), (R.LMP_DIAG_CFG_ROW_EN h, 1),
      (R.LMP_CTRL_PROBE_EN h, 1)] ++ l) with eng := { T.eng with scan := [(h, sc)], lamp := [(h, lh)] } }.setLampEn true).wr32 .window
    (lampMapAt h 0 1) 65536).wr32 .window (lampMapAt h 1 5) 65536

/-- A half at frame 300. -/
def lh0 : LampHalf := { LampHalf.init with frame := 300 }

/-- The hottest sink die at v quarter degrees. -/
def sT (v : Int) : State :=
  (fl { T with eng := { T.eng with sensors := [(4, { missed := 0, good := 0 })] } } [(R.THM_S_VALID 4, 1)]).wrI (R.THM_S_T 4) v

/-- The hypotheses of LampDiagnosis can be met, clause by clause. -/
theorem witness_LampDiagnosis :
    (∃ (half : Half) (h : Nat) (s : State) (i : Nat) (r : Nat), Half.no half = h ∧ s.rd (R.LMP_CTRL_PROBE_EN h) = 1 ∧ s.rd
          (R.LMP_DIAG_CFG_DIAG_EN h) = 1 ∧ s.lmpBlk h = 0 ∧ 1 ≤ (s.scan h).next ∧ (s.scan h).next ≤ (s.scan h).rows ∧ (s.scan h).gap =
          false ∧ (s.lamp h).row = some r ∧ i < 512 ∧ s.probeRoom h = true ∧ Sparse.get (s.lamp h).probes i = none ∧ s.probeRow h i =
          some r ∧ (s.lamp h).dark = false ∧ i / 256 ∉ (s.lamp h).dead) ∧
    (∃ (half : Half) (h : Nat) (s : State) (i : Nat) (r : Nat), Half.no half = h ∧ i < 512 ∧ s.running .LMP h = true ∧ s.rd
          (R.LMP_DIAG_CFG_DIAG_EN h) = 1 ∧ (s.lampRec h i r).st = lsGood ∧ s.unseen h i r < 256) ∧
    (∃ (half : Half) (h : Nat) (s : State) (i : Nat) (r : Nat), Half.no half = h ∧ i < 512 ∧ s.running .LMP h = true ∧ s.rd
          (R.LMP_DIAG_CFG_DIAG_EN h) = 1 ∧ (s.lampRec h i r).st = lsGood ∧ 256 ≤ s.unseen h i r ∧ 1 ≤ s.rd (R.LMP_CNT_B_GOOD h) ∧ s.rd
          (R.LMP_CNT_B_GOOD h) ≤ 32768 ∧ s.rd (R.LMP_CNT_B_UNVERIFIED h) < 32768) ∧
    (∃ (half : Half) (h : Nat) (s : State) (p : Nat), Half.no half = h ∧ (s.running .LMP h = false ∨ s.rd (R.LMP_DIAG_CFG_NB_EN h) = 0 ∨
          (s.scan h).gap = false ∨ s.pairDue h p = false)) ∧
    (∃ (half : Half) (h : Nat) (s : State) (p : Nat) (mv : Nat), Half.no half = h ∧ s.running .LMP h = true ∧ s.rd (R.LMP_DIAG_CFG_NB_EN
          h) = 1 ∧ (s.scan h).gap = true ∧ s.pairDue h p = true ∧ mv < s.openMv h (p / 256) ∧ Sparse.get (s.lamp h).pairs p = none) ∧
    (∃ (half : Half) (h : Nat) (s : State) (p : Nat) (mv : Nat), Half.no half = h ∧ s.running .LMP h = true ∧ s.rd (R.LMP_DIAG_CFG_NB_EN
          h) = 1 ∧ (s.scan h).gap = true ∧ s.pairDue h p = true ∧ mv < s.openMv h (p / 256) ∧ Sparse.get (s.lamp h).pairs p = some
          (false, some true)) ∧
    (∃ (half : Half) (h : Nat) (s : State) (path : Path) (d : Nat), Half.no half = h ∧ d < 16 ∧ s.reaches path (R.LMP_RESTORE_SINKS h d)
          .set) ∧
    (∃ (half : Half) (h : Nat) (s : State), Half.no half = h ∧ (s.lamp h).leakDone = true) ∧
    (∃ (half : Half) (h : Nat) (s : State) (mv0 : Nat) (mv1 : Nat), Half.no half = h ∧ s.running .LMP h = true ∧ s.rd
          (R.LMP_DIAG_CFG_ROW_EN h) = 1 ∧ (s.scan h).gap = true ∧ (s.lamp h).leakDone = false ∧ (s.openMv h 0 < mv0 ∨ s.openMv h 1 <
          mv1) ∧ (s.lamp h).leakWas = true ∧ s.rd (R.LMP_STATUS_LEAK h) = 0) ∧
    (∃ (half : Half) (h : Nat) (s : State) (mv0 : Nat) (mv1 : Nat), Half.no half = h ∧ s.running .LMP h = true ∧ s.rd
          (R.LMP_DIAG_CFG_ROW_EN h) = 1 ∧ (s.scan h).gap = true ∧ (s.lamp h).leakDone = false ∧ (s.openMv h 0 < mv0 ∨ s.openMv h 1 <
          mv1) ∧ (s.lamp h).leakWas = false) ∧
    (∃ (half : Half) (h : Nat) (s : State) (mv0 : Nat) (mv1 : Nat), Half.no half = h ∧ s.running .LMP h = true ∧ s.rd
          (R.LMP_DIAG_CFG_ROW_EN h) = 1 ∧ (s.scan h).gap = true ∧ (s.lamp h).leakDone = false ∧ mv0 ≤ s.openMv h 0 ∧ mv1 ≤ s.openMv h 1
          ∧ (s.lamp h).leakClean = 0) ∧
    (∃ (half : Half) (h : Nat) (s : State) (mv0 : Nat) (mv1 : Nat), Half.no half = h ∧ s.running .LMP h = true ∧ s.rd
          (R.LMP_DIAG_CFG_ROW_EN h) = 1 ∧ (s.scan h).gap = true ∧ (s.lamp h).leakDone = false ∧ mv0 ≤ s.openMv h 0 ∧ mv1 ≤ s.openMv h 1
          ∧ 1 ≤ (s.lamp h).leakClean) ∧
    (∃ (half : Half) (h : Nat) (s : State), Half.no half = h ∧ s.run .LMP h = runStarting) ∧
    (∃ (half : Half) (h : Nat) (s : State) (v : Int) (n : Nat), Half.no half = h ∧ s.build = .tile ∧ s.sinkHottest = some v ∧ 0 ≤ v ∧ v
          < 1024 ∧ s.rd (R.LMP_DERATE_KNEE 0) = s.rd (R.LMP_DERATE_KNEE 1) ∧ s.rd (R.LMP_DERATE_FLOOR 0) = s.rd (R.LMP_DERATE_FLOOR 1) ∧
          s.rd (R.LMP_DERATE_FLOOR 0) < 1024 ∧ s.rd (R.LMP_DERATE_NOW_D 0) ≤ 1024 ∧ (n : Int) = s.rd (R.LMP_DERATE_NOW_D 0) + clampI
          (-4) 4 (derateTarget v (s.rd (R.LMP_DERATE_KNEE 0)) (s.rd (R.LMP_DERATE_FLOOR 0)) - s.rd (R.LMP_DERATE_NOW_D 0))) ∧
    (∃ (half : Half) (h : Nat) (s : State), Half.no half = h ∧ s.sinkHottest = none) :=
  ⟨by refine ⟨.w, 0, lS 0 { sc0 with next := 1 } { lh0 with row := some 0 } [], 1, 0, ?_⟩; decide +kernel,
   by refine ⟨.w, 0, lS 0 sc0 { lh0 with lamps := [(512, { st := 1, last := some 1, seen := 44, pend := false }), (513, { st := 1, last := some 1, seen := 43, pend := false })] } [(R.LMP_CNT_B_GOOD 0, 2), (R.LMP_CNT_B_UNVERIFIED 0, 30)], 0, 1, ?_⟩; decide +kernel,
   by refine ⟨.w, 0, lS 0 sc0 { lh0 with lamps := [(512, { st := 1, last := some 1, seen := 44, pend := false }), (513, { st := 1, last := some 1, seen := 43, pend := false })] } [(R.LMP_CNT_B_GOOD 0, 2), (R.LMP_CNT_B_UNVERIFIED 0, 30)], 1, 1, ?_⟩; decide +kernel,
   by refine ⟨.w, 0, lS 0 { sc0 with next := 1 } { lh0 with row := some 0 } [], 510, ?_⟩; decide +kernel,
   by refine ⟨.w, 0, lS 0 { sc0 with gap := true } { lh0 with pairs := [(510, false, some true)], pairGrp := 15, pair0 := 254, pair1 := 254 } [], 254, 0, ?_⟩; decide +kernel,
   by refine ⟨.w, 0, lS 0 { sc0 with gap := true } { lh0 with pairs := [(510, false, some true)], pairGrp := 15, pair0 := 254, pair1 := 254 } [], 510, 0, ?_⟩; decide +kernel,
   by refine ⟨.w, 0, lS 0 { sc0 with next := 1 } { lh0 with row := some 0 } [], .kryty, 15, ?_⟩; dsimp only [State.reaches]; decide +kernel,
   by refine ⟨.w, 0, lS 0 { sc0 with gap := true } { lh0 with leakDone := true } [], ?_⟩; decide +kernel,
   by refine ⟨.w, 0, lS 0 { sc0 with gap := true } { lh0 with leakWas := true } [], 5000, 0, ?_⟩; decide +kernel,
   by refine ⟨.w, 0, lS 0 { sc0 with gap := true } { lh0 with pairs := [(510, false, some true)], pairGrp := 15, pair0 := 254, pair1 := 254 } [], 5000, 0, ?_⟩; decide +kernel,
   by refine ⟨.w, 0, lS 0 { sc0 with gap := true } { lh0 with pairs := [(510, false, some true)], pairGrp := 15, pair0 := 254, pair1 := 254 } [], 0, 0, ?_⟩; decide +kernel,
   by refine ⟨.w, 0, lS 0 { sc0 with gap := true } { lh0 with leakClean := 1 } [], 0, 0, ?_⟩; decide +kernel,
   by refine ⟨.w, 0, fl T [(R.ENABLE (Blk.LMP.pg 0), 1), (R.RUN (Blk.LMP.pg 0), 1)], ?_⟩; decide +kernel,
   by refine ⟨.w, 0, sT 400, 400, 1020, ?_⟩; decide +kernel,
   by refine ⟨.w, 0, lS 0 { sc0 with next := 1 } { lh0 with row := some 0 } [], ?_⟩; decide +kernel⟩

/-- Layers and a running timebase. -/
def ly (l : List (Nat × Layer)) (f : List (Fld × Nat)) : State :=
  { fl T (on .EPC 0 ++ [(R.CLK_SEL_CUR, 1)] ++ f) with eng := { T.eng with lay := { T.eng.lay with layers := l } } }

/-- The hypotheses of LayerCommits can be met, clause by clause. -/
theorem witness_LayerCommits :
    (∃ (half : Half) (h : Nat) (s : State) (path : Path), Half.no half = h ∧ s.reaches path (R.LYR_COMMIT_MASK h) .set ∧ s.rd
          (R.LYR_COMMIT_MASK h) = 0) ∧
    (∃ (half : Half) (h : Nat) (s : State) (path : Path), Half.no half = h ∧ s.reaches path (R.LYR_TOUCH_MASK h) .set ∧ s.rd
          (R.LYR_TOUCH_MASK h) = 0) ∧
    (∃ (half : Half) (h : Nat) (s : State) (k : Nat), Half.no half = h ∧ k < 16 ∧ s.build = .tile ∧ s.epcRuns = true ∧ s.eng.lay.latched
          = false ∧ s.eng.pwr.winding = false ∧ (s.scnLive 0 && s.inFrame 0 || s.scnLive 1 && s.inFrame 1) = false ∧ bitOf (s.rd
          (R.LYR_COMMIT_MASK h)) k = true ∧ s.rd (R.LYR_CFG_CAP_EN h k) = 0 ∧ s.rd (R.LYR_CTL_EN h k) = 1 ∧ s.rd (R.LYR_STATE_EN_CUR h
          k) = 1 ∧ (s.layer h k).restart = false ∧ (s.layer h k).base ≠ s.rd (R.LYR_BASE_BASE h k)) :=
  ⟨by refine ⟨.w, 0, T, .kryty, ?_⟩; dsimp only [State.reaches]; decide +kernel,
   by refine ⟨.w, 0, T, .kryty, ?_⟩; dsimp only [State.reaches]; decide +kernel,
   by refine ⟨.w, 0, ly [(15, { Layer.init with base := 7 })] [(R.LYR_COMMIT_MASK 0, 0x8000), (R.LYR_CTL_EN 0 15, 1), (R.LYR_STATE_EN_CUR 0 15, 1), (R.LYR_STATE_RUN 0 15, 2), (R.LYR_BASE_BASE 0 15, 4096), (R.LYR_BASE_MEM 0 15, 1)], 15, ?_⟩; decide +kernel⟩

/-- A half in its darning run. -/
def dn : State := { fl T [(R.CLK_SEL_CUR, 1)] with eng := { T.eng with darn := [(0, { Darn.init with running := true })] } }

/-- A LOAD in progress from an address, every DRAM channel ready. -/
def drnLd : State :=
  fl T (([0, 1, 2, 3].map (fun j => (R.DRC_CH_STATE_STATE j, 2))) ++ on .DRC 0 ++ on .DRC 1 ++
    [(R.CLK_SEL_CUR, 1), (R.DRN_CMD_LOAD 0, 1), (R.DRN_BANK_LOADING 0, 1), (R.DRN_LOAD_BASE_BASE 0, 3)])

/-- The map check of half W runs. -/
def drnSt : State := fl T [(R.CLK_SEL_CUR, 1), (R.RUN (Blk.DRN.pg 0), 1), (R.ENABLE (Blk.DRN.pg 0), 1)]

theorem drnLd_serves (a : Nat) : drnLd.chServes (chanOf drnLd.build a) = true :=
  (by decide +kernel : ∀ j, j < 4 → drnLd.chServes j = true) _ (Nat.lt_of_lt_of_le (Nat.mod_lt _ (by decide +kernel)) (by decide +kernel : channels drnLd.build ≤ 4))

theorem memGet_nil (k : Nat) : memGet [] k = unlisted k := rfl

/-- Every entry of the map of a half that nothing has written is legal. -/
theorem drnSt_good (r i : Nat) (hr : r < 64) (hi : i < 512) : entBad (drnSt.lampEnt 0 r i) = false := by
  have hm : drnSt.mem = [] := by decide +kernel
  have h : drnSt.lampEnt 0 r i = 458752 := by
    simp only [State.lampEnt, State.rd32, State.rdLE, State.rd8, hm, memGet_nil, Space.key, Space.fold, lampMapAt, unlisted]
    rw [if_neg (by omega), if_neg (by omega), if_pos (by omega), if_neg (by omega)]
    rfl
  rw [h]
  rfl

/-- The hypotheses of DarningAndBanks can be met, clause by clause. -/
theorem witness_DarningAndBanks :
    (∃ (half : Half) (h : Nat) (s : State), Half.no half = h ∧ (s.darn h).running = false) ∧
    (∃ (half : Half) (h : Nat) (s : State), Half.no half = h ∧ s.coreGated = true) ∧
    (∃ (half : Half) (h : Nat) (s : State), Half.no half = h ∧ (s.darn h).running = true ∧ s.coreGated = false ∧ s.eng.pwr.winding =
          false ∧ s.wf = true ∧ s.rd (R.DRN_CTRL_MEND_EN h) = 0) ∧
    (∃ (half : Half) (h : Nat) (s : State), Half.no half = h ∧ (s.darn h).running = true ∧ s.coreGated = false ∧ s.eng.pwr.winding =
          false ∧ s.wf = true ∧ s.rd (R.DRN_CTRL_MEND_EN h) = 1) ∧
    (∃ (half : Half) (h : Nat) (s : State) (path : Path), Half.no half = h ∧ s.reaches path (R.DRN_CMD_LOAD h) .set ∧ s.rd
          (R.DRN_CMD_LOAD h) = 0 ∧ s.rd (R.DRN_CMD_VERIFY h) = 0 ∧ s.rd (R.DRN_BANK_PENDING h) = 0) ∧
    (∃ (half : Half) (h : Nat) (s : State) (path : Path), Half.no half = h ∧ s.reaches path (R.DRN_CMD_LOAD h) .set ∧ s.rd
          (R.DRN_CMD_LOAD h) = 0 ∧ s.rd (R.DRN_CMD_VERIFY h) = 0 ∧ s.rd (R.DRN_BANK_PENDING h) = 1) ∧
    (∃ (half : Half) (h : Nat) (s : State) (base : Nat), Half.no half = h ∧ s.rd (R.DRN_CMD_LOAD h) = 1 ∧ s.coreGated = false ∧ s.rd
          (R.DRN_LOAD_BASE_BASE h) * 4096 = base ∧ s.wf = true) ∧
    (∃ (half : Half) (h : Nat) (s : State), Half.no half = h ∧ s.rd (R.DRN_CMD_VERIFY h) = 1 ∧ s.coreGated = false) ∧
    (∃ (half : Half) (h : Nat) (s : State), Half.no half = h ∧ s.run .DRN h = runStarting ∧ s.coreGated = false ∧ (∀ r i, r < 64 → i <
          512 → entBad (s.lampEnt h r i) = false)) ∧
    (∃ (half : Half) (h : Nat) (s : State) (r : Nat) (i : Nat), Half.no half = h ∧ s.run .DRN h = runStarting ∧ s.coreGated = false ∧ r
          < 64 ∧ i < 512 ∧ entBad (s.lampEnt h r i) = true ∧ (∀ r' i', r' < 64 → i' < 512 → 512 * r' + i' < 512 * r + i → entBad
          (s.lampEnt h r' i') = false)) :=
  ⟨by refine ⟨.w, 0, T, ?_⟩; decide +kernel,
   by refine ⟨.w, 0, T, ?_⟩; decide +kernel,
   by refine ⟨.w, 0, dn, ?_⟩; decide +kernel,
   by refine ⟨.w, 0, fl dn [(R.DRN_CTRL_MEND_EN 0, 1)], ?_⟩; decide +kernel,
   by refine ⟨.w, 0, T, .kryty, ?_⟩; dsimp only [State.reaches]; decide +kernel,
   by refine ⟨.w, 0, fl T [(R.DRN_BANK_PENDING 0, 1)], .kryty, ?_⟩; dsimp only [State.reaches]; decide +kernel,
   by refine ⟨.w, 0, drnLd, 0x3000, ?_⟩; decide +kernel,
   by refine ⟨.w, 0, fl T [(R.CLK_SEL_CUR, 1), (R.DRN_CMD_VERIFY 0, 1)], ?_⟩; decide +kernel,
   by refine ⟨.w, 0, drnSt, ?_, ?_, ?_, drnSt_good⟩ <;> decide +kernel,
   by refine ⟨.w, 0, drnSt.wr32 .window (lampMapAt 0 0 0) 0x80000, 0, 0, ?_, ?_, ?_, ?_, ?_, ?_, by intro _ _ _ _ h; omega⟩ <;> decide +kernel⟩

/-- A press engine at pc 255 of half E, whose list holds one word there. -/
def prs (e : Press) (op o : Nat) (l : List (Fld × Nat)) : State :=
  { (fl T ([(R.CLK_SEL_CUR, 1)] ++ on .PRS 1 ++ on .LYR 1 ++ l)).wrLE .window (0x111000 + 8 * 255) (op * 2 ^ 60 + o) 8 with
    eng := { T.eng with press := [(1, { e with active := true, seqOn := true, bgDone := true, pc := 255 })] } }

/-- A step of layer 5. -/
def stp : PStep := { layer := 5, mode := 0, clip := ⟨0, 0, 64, 48⟩, balpha := 1023, issue := 9 }

/-- An open group. -/
def grp : PGroup := { slot := 1, n := 2, steps := [], bottom := true, issue := 0 }

/-- The hypotheses of PressInstructions can be met, clause by clause. -/
theorem witness_PressInstructions :
    (∃ (half : Half) (h : Nat) (op : Nat) (o : Nat) (s : State), Half.no half = h ∧ (s.press h).active = true ∧ (s.press h).seqOn = true
          ∧ (s.press h).wait = none ∧ (s.press h).order = [] ∧ (s.press h).pc ≤ 255 ∧ (s.press h).count < 4096 ∧ (s.press h).queued < 16
          ∧ s.coreGated = false ∧ s.pressInstr h (s.press h).pc = op * 2 ^ 60 + o ∧ o < 2 ^ 60 ∧ pressReserved (op * 2 ^ 60 + o) = true) ∧
    (∃ (half : Half) (h : Nat) (op : Nat) (o : Nat) (s : State), Half.no half = h ∧ (s.press h).active = true ∧ (s.press h).seqOn = true
          ∧ (s.press h).wait = none ∧ (s.press h).order = [] ∧ (s.press h).pc ≤ 255 ∧ (s.press h).count < 4096 ∧ (s.press h).queued < 16
          ∧ s.coreGated = false ∧ s.pressInstr h (s.press h).pc = op * 2 ^ 60 + o ∧ o < 2 ^ 60 ∧ pressReserved (op * 2 ^ 60 + o) = false
          ∧ op = 0 ∧ (s.press h).group = none ∧ (s.press h).queue ≠ []) ∧
    (∃ (half : Half) (h : Nat) (op : Nat) (o : Nat) (s : State), Half.no half = h ∧ (s.press h).active = true ∧ (s.press h).seqOn = true
          ∧ (s.press h).wait = none ∧ (s.press h).order = [] ∧ (s.press h).pc ≤ 255 ∧ (s.press h).count < 4096 ∧ (s.press h).queued < 16
          ∧ s.coreGated = false ∧ s.pressInstr h (s.press h).pc = op * 2 ^ 60 + o ∧ o < 2 ^ 60 ∧ pressReserved (op * 2 ^ 60 + o) = false
          ∧ op = 0 ∧ (s.press h).group = none ∧ (s.press h).queue = [] ∧ (s.press h).failed = false ∧ (s.press h).complete = false ∧
          (s.press h).bgDone = true) ∧
    (∃ (half : Half) (h : Nat) (op : Nat) (o : Nat) (s : State), Half.no half = h ∧ (s.press h).active = true ∧ (s.press h).seqOn = true
          ∧ (s.press h).wait = none ∧ (s.press h).order = [] ∧ (s.press h).pc ≤ 255 ∧ (s.press h).count < 4096 ∧ (s.press h).queued < 16
          ∧ s.coreGated = false ∧ s.pressInstr h (s.press h).pc = op * 2 ^ 60 + o ∧ o < 2 ^ 60 ∧ pressReserved (op * 2 ^ 60 + o) = false
          ∧ op = 1 ∧ (s.press h).group = none) ∧
    (∃ (half : Half) (h : Nat) (op : Nat) (o : Nat) (s : State), Half.no half = h ∧ (s.press h).active = true ∧ (s.press h).seqOn = true
          ∧ (s.press h).wait = none ∧ (s.press h).order = [] ∧ (s.press h).pc ≤ 255 ∧ (s.press h).count < 4096 ∧ (s.press h).queued < 16
          ∧ s.coreGated = false ∧ s.pressInstr h (s.press h).pc = op * 2 ^ 60 + o ∧ o < 2 ^ 60 ∧ pressReserved (op * 2 ^ 60 + o) = false
          ∧ op = 2 ∧ (s.press h).group = none ∧ (s.press h).queued + (maskOrder (o % 65536) (bitsOf o 16 1)).length ≤ 16) ∧
    (∃ (half : Half) (h : Nat) (op : Nat) (o : Nat) (s : State), Half.no half = h ∧ (s.press h).active = true ∧ (s.press h).seqOn = true
          ∧ (s.press h).wait = none ∧ (s.press h).order = [] ∧ (s.press h).pc ≤ 255 ∧ (s.press h).count < 4096 ∧ (s.press h).queued < 16
          ∧ s.coreGated = false ∧ s.pressInstr h (s.press h).pc = op * 2 ^ 60 + o ∧ o < 2 ^ 60 ∧ pressReserved (op * 2 ^ 60 + o) = false
          ∧ op = 3) ∧
    (∃ (half : Half) (h : Nat) (op : Nat) (o : Nat) (s : State), Half.no half = h ∧ (s.press h).active = true ∧ (s.press h).seqOn = true
          ∧ (s.press h).wait = none ∧ (s.press h).order = [] ∧ (s.press h).pc ≤ 255 ∧ (s.press h).count < 4096 ∧ (s.press h).queued < 16
          ∧ s.coreGated = false ∧ s.pressInstr h (s.press h).pc = op * 2 ^ 60 + o ∧ o < 2 ^ 60 ∧ pressReserved (op * 2 ^ 60 + o) = false
          ∧ op = 4) ∧
    (∃ (half : Half) (h : Nat) (op : Nat) (o : Nat) (s : State), Half.no half = h ∧ (s.press h).active = true ∧ (s.press h).seqOn = true
          ∧ (s.press h).wait = none ∧ (s.press h).order = [] ∧ (s.press h).pc ≤ 255 ∧ (s.press h).count < 4096 ∧ (s.press h).queued < 16
          ∧ s.coreGated = false ∧ s.pressInstr h (s.press h).pc = op * 2 ^ 60 + o ∧ o < 2 ^ 60 ∧ pressReserved (op * 2 ^ 60 + o) = false
          ∧ op = 5 ∧ (s.press h).group = none) ∧
    (∃ (half : Half) (h : Nat) (op : Nat) (o : Nat) (s : State) (g : PGroup), Half.no half = h ∧ (s.press h).active = true ∧ (s.press
          h).seqOn = true ∧ (s.press h).wait = none ∧ (s.press h).order = [] ∧ (s.press h).pc ≤ 255 ∧ (s.press h).count < 4096 ∧
          (s.press h).queued < 16 ∧ s.coreGated = false ∧ s.pressInstr h (s.press h).pc = op * 2 ^ 60 + o ∧ o < 2 ^ 60 ∧ pressReserved
          (op * 2 ^ 60 + o) = false ∧ op = 5 ∧ (s.press h).group = some g) ∧
    (∃ (half : Half) (h : Nat) (op : Nat) (o : Nat) (s : State), Half.no half = h ∧ (s.press h).active = true ∧ (s.press h).seqOn = true
          ∧ (s.press h).wait = none ∧ (s.press h).order = [] ∧ (s.press h).pc ≤ 255 ∧ (s.press h).count < 4096 ∧ (s.press h).queued < 16
          ∧ s.coreGated = false ∧ s.pressInstr h (s.press h).pc = op * 2 ^ 60 + o ∧ o < 2 ^ 60 ∧ pressReserved (op * 2 ^ 60 + o) = false
          ∧ op = 6 ∧ (s.press h).queue.any (fun i => i.layers.contains (o % 16)) = false) ∧
    (∃ (half : Half) (h : Nat) (op : Nat) (o : Nat) (s : State), Half.no half = h ∧ (s.press h).active = true ∧ (s.press h).seqOn = true
          ∧ (s.press h).wait = none ∧ (s.press h).order = [] ∧ (s.press h).pc ≤ 255 ∧ (s.press h).count < 4096 ∧ (s.press h).queued < 16
          ∧ s.coreGated = false ∧ s.pressInstr h (s.press h).pc = op * 2 ^ 60 + o ∧ o < 2 ^ 60 ∧ pressReserved (op * 2 ^ 60 + o) = false
          ∧ op = 6 ∧ (s.press h).queue.any (fun i => i.layers.contains (o % 16)) = true) ∧
    (∃ (half : Half) (h : Nat) (op : Nat) (o : Nat) (s : State), Half.no half = h ∧ (s.press h).active = true ∧ (s.press h).seqOn = true
          ∧ (s.press h).wait = none ∧ (s.press h).order = [] ∧ (s.press h).pc ≤ 255 ∧ (s.press h).count < 4096 ∧ (s.press h).queued < 16
          ∧ s.coreGated = false ∧ s.pressInstr h (s.press h).pc = op * 2 ^ 60 + o ∧ o < 2 ^ 60 ∧ pressReserved (op * 2 ^ 60 + o) = false
          ∧ op = 7 ∧ s.syncPast (1 - h) = true) ∧
    (∃ (half : Half) (h : Nat) (op : Nat) (o : Nat) (s : State), Half.no half = h ∧ (s.press h).active = true ∧ (s.press h).seqOn = true
          ∧ (s.press h).wait = none ∧ (s.press h).order = [] ∧ (s.press h).pc ≤ 255 ∧ (s.press h).count < 4096 ∧ (s.press h).queued < 16
          ∧ s.coreGated = false ∧ s.pressInstr h (s.press h).pc = op * 2 ^ 60 + o ∧ o < 2 ^ 60 ∧ pressReserved (op * 2 ^ 60 + o) = false
          ∧ op = 7 ∧ s.syncPast (1 - h) = false ∧ (s.press (1 - h)).wait = none) ∧
    (∃ (half : Half) (h : Nat) (op : Nat) (o : Nat) (s : State), Half.no half = h ∧ (s.press h).active = true ∧ (s.press h).seqOn = true
          ∧ (s.press h).wait = none ∧ (s.press h).order = [] ∧ (s.press h).pc ≤ 255 ∧ (s.press h).count < 4096 ∧ (s.press h).queued < 16
          ∧ s.coreGated = false ∧ s.pressInstr h (s.press h).pc = op * 2 ^ 60 + o ∧ o < 2 ^ 60 ∧ pressReserved (op * 2 ^ 60 + o) = false
          ∧ op = 8) ∧
    (∃ (half : Half) (h : Nat) (op : Nat) (o : Nat) (s : State), Half.no half = h ∧ (s.press h).active = true ∧ (s.press h).seqOn = true
          ∧ (s.press h).wait = none ∧ (s.press h).order = [] ∧ (s.press h).pc ≤ 255 ∧ (s.press h).count < 4096 ∧ (s.press h).queued < 16
          ∧ s.coreGated = false ∧ s.pressInstr h (s.press h).pc = op * 2 ^ 60 + o ∧ o < 2 ^ 60 ∧ pressReserved (op * 2 ^ 60 + o) = false
          ∧ op = 9) :=
  ⟨by refine ⟨.e, 1, 0, 1, prs Press.idle 0 1 [], ?_⟩; decide +kernel,
   by refine ⟨.e, 1, 0, 0, prs { Press.idle with queue := [.step stp] } 0 0 [], ?_⟩; decide +kernel,
   by refine ⟨.e, 1, 0, 0, prs Press.idle 0 0 [], ?_⟩; decide +kernel,
   by refine ⟨.e, 1, 1, 0x45, prs Press.idle 1 0x45 [], ?_⟩; decide +kernel,
   by refine ⟨.e, 1, 2, 0x8003, prs Press.idle 2 0x8003 [], ?_⟩; decide +kernel,
   by refine ⟨.e, 1, 3, 0x1000002, prs Press.idle 3 0x1000002 [], ?_⟩; decide +kernel,
   by refine ⟨.e, 1, 4, 3 + 2 ^ 24 * 5, prs Press.idle 4 (3 + 2 ^ 24 * 5) [], ?_⟩; decide +kernel,
   by refine ⟨.e, 1, 5, 0x21, prs Press.idle 5 0x21 [], ?_⟩; decide +kernel,
   by refine ⟨.e, 1, 5, 0x21, prs { Press.idle with group := some grp } 5 0x21 [], grp, ?_⟩; decide +kernel,
   by refine ⟨.e, 1, 6, 5, prs Press.idle 6 5 [], ?_⟩; decide +kernel,
   by refine ⟨.e, 1, 6, 5, prs { Press.idle with queue := [.step stp] } 6 5 [], ?_⟩; decide +kernel,
   by refine ⟨.e, 1, 7, 0, prs Press.idle 7 0 [], ?_⟩; decide +kernel,
   by refine ⟨.e, 1, 7, 0, { prs Press.idle 7 0 (on .PRS 0) with eng := { T.eng with press := [(0, { Press.idle with active := true, seqOn := true }), (1, { Press.idle with active := true, seqOn := true, pc := 255 })] } }, ?_⟩; decide +kernel,
   by refine ⟨.e, 1, 8, 0x107, prs Press.idle 8 0x107 [], ?_⟩; decide +kernel,
   by refine ⟨.e, 1, 9, 0x503, prs Press.idle 9 0x503 [], ?_⟩; decide +kernel⟩

/-- A press engine of half W with a queue. -/
def dp (q : List PItem) (w : Option PWait) : State :=
  { fl T (on .PRS 0 ++ on .LYR 0 ++ [(R.CLK_SEL_CUR, 1), (R.PRS_WIN_SIZE_W 0, 64), (R.PRS_WIN_SIZE_H 0, 48)]) with
    eng := { T.eng with press := [(0, { Press.idle with active := true, seqOn := true, bgDone := true, queue := q, wait := w })] } }

/-- Layer 5 of half W shown, from layer memory or from DRAM. -/
def shown (m : Bool) : State :=
  { fl (dp [.step stp] none) [(R.LYR_STATE_RUN 0 5, 2), (R.LYR_WIN_SIZE_W 0 5, 2), (R.LYR_WIN_SIZE_H 0 5, 2), (R.LYR_STRIDE_BYTES 0 5, 8)] with
    eng := { (dp [.step stp] none).eng with lay := { T.eng.lay with layers := [(5, { Layer.init with mem := m })] } } }

/-- The hypotheses of DatapathAndWaits can be met, clause by clause. -/
theorem witness_DatapathAndWaits :
    (∃ (half : Half) (h : Nat) (s : State), Half.no half = h ∧ ((s.press h).queue = [] ∨ s.coreGated = true) ∧ s.dramQuiet) ∧
    (∃ (half : Half) (h : Nat) (s : State) (x : PStep) (l : List PItem), Half.no half = h ∧ (s.press h).active = true ∧ (s.press
          h).seqOn = true ∧ (s.press h).bgDone = true ∧ s.coreGated = false ∧ (s.press h).queue = .step x :: l ∧ (∀ e ∈ s.stepSpans h x,
          s.dramServes e.1 e.2 = true) ∧ s.dramQuiet ∧ s.lyComposed h x.layer = false) ∧
    (∃ (half : Half) (h : Nat) (s : State) (x : PStep) (l : List PItem), Half.no half = h ∧ (s.press h).active = true ∧ (s.press
          h).seqOn = true ∧ (s.press h).bgDone = true ∧ s.coreGated = false ∧ (s.press h).queue = .step x :: l ∧ (∀ e ∈ s.stepSpans h x,
          s.dramServes e.1 e.2 = true) ∧ s.dramQuiet ∧ s.lyComposed h x.layer = true ∧ x.clip.x1 ≤ s.winW h ∧ s.wf = true) ∧
    (∃ (half : Half) (h : Nat) (s : State) (i : PItem) (l : List PItem), Half.no half = h ∧ (s.press h).active = true ∧ s.coreGated =
          false ∧ (s.press h).queue = i :: l ∧ ∃ e ∈ s.itemSpans h i, s.dramServes e.2.1 e.2.2 = false ∧ s.dramQuiet) ∧
    (∃ (half : Half) (h : Nat) (s : State), Half.no half = h ∧ (s.press h).wait = none) ∧
    (∃ (half : Half) (h : Nat) (s : State) (k : Nat), Half.no half = h ∧ (s.press h).wait = some (.layer k) ∧ (s.press h).queue.any (fun
          i => i.layers.contains k) = true) ∧
    (∃ (half : Half) (h : Nat) (s : State) (k : Nat), Half.no half = h ∧ (s.press h).wait = some (.layer k) ∧ (s.press h).queue.any (fun
          i => i.layers.contains k) = false) ∧
    (∃ (half : Half) (h : Nat) (s : State), Half.no half = h ∧ (s.press h).wait = some .sync ∧ (s.press (1 - h)).wait = some .sync ∧
          s.syncPast (1 - h) = false) :=
  ⟨by refine ⟨.w, 0, T, ?_⟩; dsimp only [State.dramQuiet]; decide +kernel,
   by refine ⟨.w, 0, dp [.step stp] none, stp, [], ?_⟩; dsimp only [State.dramQuiet]; decide +kernel,
   by refine ⟨.w, 0, shown true, stp, [], ?_⟩; dsimp only [State.dramQuiet]; decide +kernel,
   by refine ⟨.w, 0, shown false, .step stp, [], ?_⟩; dsimp only [State.dramQuiet]; decide +kernel,
   by refine ⟨.w, 0, T, ?_⟩; decide +kernel,
   by refine ⟨.w, 0, dp [.step stp] (some (.layer 5)), 5, ?_⟩; decide +kernel,
   by refine ⟨.w, 0, dp [] (some (.layer 5)), 5, ?_⟩; decide +kernel,
   by refine ⟨.w, 0, { fl (dp [] none) (on .PRS 1) with eng := { T.eng with press := [(0, { Press.idle with wait := some .sync }), (1, { Press.idle with wait := some .sync })] } }, ?_⟩; decide +kernel⟩

/-- The loop engine runs. -/
def lop (e : Loop) (l : List (Fld × Nat)) : State := { fl T (on .LOP 0 ++ l) with eng := { T.eng with loop := e } }

/-- A run of slot 1. -/
def run1 : LoopRun := { slot := 1, pc := 3, tgt := [1, 2, 3, 4], slew := 5, handover := false, mark := false }

/-- Every slot on no rail, with a legal period. -/
def okL : List (Fld × Nat) := (List.range 24).flatMap (fun n => [(R.LOP_SLOT_CFG_RAIL n, 7), (R.LOP_SLOT_TIME_PERIOD n, 500)])

/-- The hypotheses of LoopRuns can be met, clause by clause. -/
theorem witness_LoopRuns :
    (∃ (s : State) (n : Nat), n < 24 ∧ s.lopRuns = true ∧ s.slotOn n = true ∧ s.halted n = false ∧ s.eng.loop.c % s.rd
          (R.LOP_SLOT_TIME_PERIOD n) = s.rd (R.LOP_SLOT_TIME_PHASE n) ∧ Sparse.get s.eng.loop.dueAt n ≠ some s.eng.loop.c ∧ Sparse.get
          s.eng.loop.skipAt n ≠ some s.eng.loop.c ∧ n ∉ s.eng.loop.due ∧ (∀ r ∈ s.eng.loop.run, r.slot ≠ n)) ∧
    (∃ (s : State) (n : Nat), n < 24 ∧ s.lopRuns = true ∧ s.slotOn n = true ∧ s.halted n = false ∧ s.eng.loop.c % s.rd
          (R.LOP_SLOT_TIME_PERIOD n) = s.rd (R.LOP_SLOT_TIME_PHASE n) ∧ Sparse.get s.eng.loop.dueAt n ≠ some s.eng.loop.c ∧ Sparse.get
          s.eng.loop.skipAt n ≠ some s.eng.loop.c ∧ (n ∈ s.eng.loop.due ∨ ∃ r ∈ s.eng.loop.run, r.slot = n)) ∧
    (∃ (s : State) (n : Nat), s.eng.loop.c % s.rd (R.LOP_SLOT_TIME_PERIOD n) ≠ s.rd (R.LOP_SLOT_TIME_PHASE n)) ∧
    (∃ (s : State), s.lopRuns = true ∧ s.pstate ≠ pSaddle ∧ s.pstate ≠ pValley ∧ s.pending = []) ∧
    (∃ (s : State) (n : Nat) (at_ : Nat) (d : Nat), n < 24 ∧ s.lopRuns = true ∧ s.eng.loop.run = none ∧ n ∈ s.eng.loop.due ∧ (∀ m ∈
          s.eng.loop.due, n ≤ m) ∧ s.rd (R.LOP_SLOT_JIT_MAX n) < 65536 ∧ Sparse.get s.eng.loop.dueAt n = some at_ ∧ s.eng.loop.c = at_ +
          d ∧ s.railOfSlot n = none) ∧
    (∃ (s : State) (n : Nat) (at_ : Nat) (d : Nat) (q : Nat), n < 24 ∧ s.lopRuns = true ∧ s.eng.loop.run = none ∧ n ∈ s.eng.loop.due ∧
          (∀ m ∈ s.eng.loop.due, n ≤ m) ∧ s.rd (R.LOP_SLOT_JIT_MAX n) < 65536 ∧ Sparse.get s.eng.loop.dueAt n = some at_ ∧ s.eng.loop.c
          = at_ + d ∧ s.railOfSlot n = some q ∧ n ∉ s.eng.loop.fresh ∧ (s.railMode q ≠ s.rd (R.LOP_RAIL_STATE_MODE_USED q) ∨ s.railSense
          q ≠ s.rd (R.LOP_RAIL_STATE_SENSE_USED q))) ∧
    (∃ (s : State), s.run .LOP 0 = runStarting ∧ s.lopCheck = none) ∧
    (∃ (s : State) (f : LopFail), s.run .LOP 0 = runStarting ∧ s.lopCheck = some f) ∧
    (∃ (s : State) (path : Path), s.reaches path R.LOP_RESTART_SLOTS .set) :=
  ⟨by refine ⟨lop Loop.init [(R.LOP_SLOT_CFG_EN 23, 1)], 23, ?_⟩; decide +kernel,
   by refine ⟨lop { Loop.init with due := [23], run := some run1 } [(R.LOP_SLOT_CFG_EN 23, 1)], 23, ?_⟩; decide +kernel,
   by refine ⟨lop Loop.init [(R.LOP_SLOT_CFG_EN 23, 1), (R.LOP_SLOT_TIME_PERIOD 23, 500), (R.LOP_SLOT_TIME_PHASE 23, 7)], 23, ?_⟩; decide +kernel,
   by refine ⟨lop Loop.init [(R.LOP_SLOT_CFG_EN 23, 1)], ?_⟩; decide +kernel,
   by refine ⟨lop { Loop.init with c := 12, dueAt := [(1, 5)], due := [23, 1] } [(R.LOP_SLOT_CFG_EN 1, 1), (R.LOP_SLOT_CFG_RAIL 1, 7)], 1, 5, 7, ?_⟩; decide +kernel,
   by refine ⟨lop { Loop.init with c := 12, dueAt := [(1, 5)], due := [23, 1] } [(R.LOP_SLOT_CFG_EN 1, 1), (R.LOP_SLOT_CFG_RAIL 1, 5), (R.LOP_CTRL_MODE, 32)], 1, 5, 7, 5, ?_⟩; decide +kernel,
   by refine ⟨lop Loop.init (okL ++ [(R.RUN (Blk.LOP.pg 0), 1)]), ?_⟩; decide +kernel,
   by refine ⟨lop Loop.init (okL ++ [(R.RUN (Blk.LOP.pg 0), 1), (R.LOP_SLOT_CFG_EN 5, 1)]), { reason := 16, slot := 5, addr := 0 }, ?_⟩; decide +kernel,
   by refine ⟨lop Loop.init [(R.LOP_SLOT_CFG_EN 23, 1)], .kryty, ?_⟩; dsimp only [State.reaches]; decide +kernel⟩

/-- An instruction word with all lanes: operation, registers D, A and B, operand and constant fields. -/
def wd (op d a b o k : Nat) : Nat := op * 2 ^ 124 + d * 2 ^ 120 + a * 2 ^ 116 + b * 2 ^ 112 + 15 * 2 ^ 108 + o * 2 ^ 64 + k

/-- A run that has come to that word, on rail 5 or on none. -/
def ins (r : LoopRun) (w : Nat) (ho : List Nat) (l : List (Fld × Nat)) : State :=
  (lop { Loop.init with run := some r, handover := ho } ([(R.LOP_SLOT_CFG_EN 1, 1), (R.LOP_SLOT_CFG_RAIL 1, 5),
    (R.LOP_RAIL_LIM_SP_MAX 5, 20000)] ++ l)).wrLE .window (1048576 + 16 * 3) w 16

/-- The hypotheses of LoopInstructions can be met, clause by clause. -/
theorem witness_LoopInstructions :
    (∃ (r : LoopRun) (w : Nat) (s : State), r.slot < 24 ∧ s.loopFetch opSt = some (r, w)) ∧
    (∃ (r : LoopRun) (w : Nat) (s : State), r.slot < 24 ∧ s.loopFetch opSelmin = some (r, w) ∧ lwMask w ≠ 0) ∧
    (∃ (r : LoopRun) (w : Nat) (s : State) (q : Nat), r.slot < 24 ∧ s.railOfSlot r.slot = some q ∧ s.loopFetch opFf = some (r, w)) ∧
    (∃ (r : LoopRun) (w : Nat) (s : State) (q : Nat), r.slot < 24 ∧ s.railOfSlot r.slot = some q ∧ s.loopFetch opOut = some (r, w) ∧
          s.rd (R.LOP_RAIL_LIM_SP_MAX q) < 32768 ∧ r.handover = false ∧ q ∉ s.eng.loop.handover) ∧
    (∃ (r : LoopRun) (w : Nat) (s : State) (q : Nat), r.slot < 24 ∧ s.railOfSlot r.slot = some q ∧ s.loopFetch opOut = some (r, w) ∧
          s.rd (R.LOP_RAIL_LIM_SP_MAX q) < 32768 ∧ r.handover = false ∧ q ∈ s.eng.loop.handover) ∧
    (∃ (r : LoopRun) (w : Nat) (s : State) (q : Nat), r.slot < 24 ∧ s.railOfSlot r.slot = some q ∧ s.loopFetch opHalt = some (r, w) ∧
          s.slotOn r.slot = true) ∧
    (∃ (r : LoopRun) (w : Nat) (s : State), r.slot < 24 ∧ s.railOfSlot r.slot = none ∧ s.loopFetch opHalt = some (r, w)) ∧
    (∃ (r : LoopRun) (w : Nat) (s : State), r.slot < 24 ∧ s.loopFetch opWait = some (r, w) ∧ r.mark = false) ∧
    (∃ (r : LoopRun) (w : Nat) (s : State), r.slot < 24 ∧ s.loopFetch opWait = some (r, w) ∧ r.mark = true) ∧
    (∀ e ∈ [(opLd, 1), (opMac, 3), (opMsub, 4), (opSat, 5), (opLim, 6), (opTrk, 8), (opTab, 9)], ∃ (r : LoopRun) (w : Nat) (s : State),
          r.slot < 24 ∧ s.loopFetch e.1 = some (r, w)) :=
  ⟨by refine ⟨run1, wd 2 0 3 0 0x41424344 0, ins run1 (wd 2 0 3 0 0x41424344 0) [] [], ?_⟩; decide +kernel,
   by refine ⟨run1, wd 7 2 3 0 0 0, ins run1 (wd 7 2 3 0 0 0) [] [], ?_⟩; decide +kernel,
   by refine ⟨run1, wd 10 2 0 4 0 0, ins run1 (wd 10 2 0 4 0 0) [] [], 5, ?_⟩; decide +kernel,
   by refine ⟨run1, wd 11 0 3 0 0 0, ins run1 (wd 11 0 3 0 0 0) [] [], 5, ?_⟩; decide +kernel,
   by refine ⟨run1, wd 11 0 3 0 0 0, ins run1 (wd 11 0 3 0 0 0) [5] [], 5, ?_⟩; decide +kernel,
   by refine ⟨run1, wd 13 0 0 0 0 0, ins run1 (wd 13 0 0 0 0 0) [] [], 5, ?_⟩; decide +kernel,
   by refine ⟨run1, wd 13 0 0 0 0 0, ins run1 (wd 13 0 0 0 0 0) [] [(R.LOP_SLOT_CFG_RAIL 1, 7)], ?_⟩; decide +kernel,
   by refine ⟨run1, wd 12 0 0 0 0 0, ins run1 (wd 12 0 0 0 0 0) [] [], ?_⟩; decide +kernel,
   by refine ⟨{ run1 with mark := true }, wd 12 0 0 0 0 0, ins { run1 with mark := true } (wd 12 0 0 0 0 0) [] [], ?_⟩; decide +kernel,
   by intro e he; refine ⟨run1, wd e.2 2 3 4 0 0, ins run1 (wd e.2 2 3 4 0 0) [] [], by decide, ?_⟩; revert e; decide +kernel⟩

/-- Rail q with its chopper in a phase. -/
def chp (q : Nat) (c : Chop) : State :=
  lop { Loop.init with chops := [(q, c)] } [(R.LOP_CH_CFG_BAND q, 101), (R.LOP_RAIL_SP_X q, 1000), (R.LOP_CH_OCL_OFS_LIM q, 300),
    (R.LOP_CH_OFS_OFS q, 30), (R.LOP_CH_CFG_OFS_SH q, 2), (R.LOP_CH_OCL_OC_LIM q, 1500), (R.LOP_RAIL_LIM_OV_LIM q, 300)]

/-- The hypotheses of ChopperCycle can be met, clause by clause. -/
theorem witness_ChopperCycle :
    (∃ (q : Nat) (m : ChopMeas) (s : State), q < 6 ∧ s.chopping q 1 = true ∧ s.thHi2 q ≤ 2 * m.current ∧ 40 ≤ m.phaseNs) ∧
    (∃ (q : Nat) (m : ChopMeas) (s : State), q < 6 ∧ s.chopping q 1 = true ∧ 2 * m.current < s.thHi2 q) ∧
    (∃ (q : Nat) (m : ChopMeas) (s : State), q < 6 ∧ s.chopping q 1 = true ∧ 3333 ≤ m.cycleNs) ∧
    (∃ (q : Nat) (m : ChopMeas) (s : State), q < 6 ∧ s.chopping q 1 = true ∧ (s.rd (R.LOP_CH_OCL_OC_LIM q) : Int) ≤ m.current ∧ 40 ≤
          m.phaseNs) ∧
    (∃ (q : Nat) (m : ChopMeas) (s : State), q < 6 ∧ s.chopping q 2 = true ∧ -32768 ≤ m.peak ∧ m.peak < 32768 ∧ -32768 ≤ m.valley ∧
          m.valley < 32768 ∧ s.railHalted q = false ∧ (s.chop q).ov = false ∧ s.rd (R.LOP_CH_OCL_OFS_LIM q) < 32768 ∧ 2 * m.current ≤
          s.thLo2 q ∧ 40 ≤ m.phaseNs ∧ 250 ≤ m.cycleNs ∧ (s.chop q).cut = false ∧ (s.chop q).moved = false) ∧
    (∃ (q : Nat) (m : ChopMeas) (s : State), q < 6 ∧ s.chopping q 2 = true ∧ -32768 ≤ m.peak ∧ m.peak < 32768 ∧ -32768 ≤ m.valley ∧
          m.valley < 32768 ∧ s.railHalted q = false ∧ (s.chop q).ov = false ∧ s.rd (R.LOP_CH_OCL_OFS_LIM q) < 32768 ∧ 3333 ≤ m.cycleNs) ∧
    (∃ (q : Nat) (m : ChopMeas), q < 6 ∧ m.cycleNs < 3333) ∧
    (∃ (q : Nat) (s : State) (v : Nat), q < 6 ∧ s.build = .tile ∧ s.lopRuns = true ∧ (s.chop q).ov = false ∧ s.railHalted q = false ∧
          s.rd (R.LOP_RAIL_LIM_OV_LIM q) ≤ v) ∧
    (∃ (q : Nat) (s : State) (v : Nat), q < 6 ∧ s.build = .tile ∧ s.lopRuns = true ∧ (s.chop q).ov = false ∧ s.railHalted q = false ∧ v
          < s.rd (R.LOP_RAIL_LIM_OV_LIM q)) ∧
    (∃ (q : Nat) (s : State) (v : Nat), q < 6 ∧ (s.chop q).ov = true ∧ v + 256 < s.rd (R.LOP_RAIL_LIM_OV_LIM q) ∧ s.lopRuns = true ∧
          s.railHalted q = false ∧ s.spIdle q = false ∧ (s.chop q).phase = 0) ∧
    (∃ (q : Nat) (s : State) (v : Nat), q < 6 ∧ s.rd (R.LOP_RAIL_LIM_OV_LIM q) ≤ v + 256) ∧
    (∃ (q : Nat) (s : State) (half : Half) (c : Nat), q < 6 ∧ s.build = .tile ∧ c < 3 ∧ c ∉ (s.lamp (Half.no half)).lastRails) ∧
    (∃ (q : Nat) (s : State) (half : Half) (c : Nat), q < 6 ∧ s.build = .tile ∧ c < 3 ∧ c ∈ (s.lamp (Half.no half)).lastRails) ∧
    (∃ (q : Nat) (s : State), q < 6 ∧ s.build = .tile ∧ s.scnLive (q / 3) = true ∧ (s.scan (q / 3)).gap = true ∧ (s.scan (q / 3)).first
          = none ∧ s.wf = true) ∧
    (∃ (q : Nat) (s : State), q < 6 ∧ s.build = .tile ∧ s.wf = true ∧ ((s.scan (q / 3)).gap = false ∨ (s.scan (q / 3)).first.isSome =
          true)) :=
  ⟨by refine ⟨5, ⟨2000, 40, 3333, 1000, -5⟩, chp 5 { Chop.init with phase := 1 }, ?_⟩; decide +kernel,
   by refine ⟨5, ⟨-2000, 40, 250, 32767, -32768⟩, chp 5 { Chop.init with phase := 1 }, ?_⟩; decide +kernel,
   by refine ⟨5, ⟨2000, 40, 3333, 1000, -5⟩, chp 5 { Chop.init with phase := 1 }, ?_⟩; decide +kernel,
   by refine ⟨5, ⟨2000, 40, 3333, 1000, -5⟩, chp 5 { Chop.init with phase := 1 }, ?_⟩; decide +kernel,
   by refine ⟨5, ⟨-2000, 40, 250, 32767, -32768⟩, chp 5 { Chop.init with phase := 2 }, ?_⟩; decide +kernel,
   by refine ⟨5, ⟨2000, 40, 3333, 1000, -5⟩, chp 5 { Chop.init with phase := 2 }, ?_⟩; decide +kernel,
   by refine ⟨5, ⟨-2000, 40, 250, 32767, -32768⟩, ?_⟩; decide +kernel,
   by refine ⟨5, chp 5 { Chop.init with phase := 1 }, 300, ?_⟩; decide +kernel,
   by refine ⟨5, chp 5 { Chop.init with phase := 1 }, 43, ?_⟩; decide +kernel,
   by refine ⟨5, chp 5 { Chop.init with ov := true }, 43, ?_⟩; decide +kernel,
   by refine ⟨5, chp 5 { Chop.init with phase := 1 }, 44, ?_⟩; decide +kernel,
   by refine ⟨5, chp 5 { Chop.init with phase := 1 }, .w, 2, ?_⟩; decide +kernel,
   by refine ⟨5, { chp 5 Chop.init with eng := { (chp 5 Chop.init).eng with lamp := [(0, { LampHalf.init with lastRails := [2] })] } }, .w, 2, ?_⟩; decide +kernel,
   by refine ⟨5, { fl (chp 5 Chop.init) (on .SCN 1 ++ [(R.CLK_SEL_CUR, 1)]) with eng := { (chp 5 Chop.init).eng with scan := [(1, { ScanHalf.init with gap := true })] } }, ?_⟩; decide +kernel,
   by refine ⟨5, chp 5 { Chop.init with phase := 1 }, ?_⟩; decide +kernel⟩

/-- Generator g of Traverse. -/
def trvS (g : Nat) (x : TrvGen) (l : List (Fld × Nat)) : State :=
  { fl T (on .TRV 0 ++ [(R.TRV_CFG_GEN_EN, 15)] ++ l) with eng := { T.eng with trv := [(g, x)] } }

/-- The hypotheses of TraverseMotion can be met, clause by clause. -/
theorem witness_TraverseMotion :
    (∃ (g : Nat) (s : State), g < 4 ∧ s.parked 6 = true) ∧
    (∃ (g : Nat) (s : State) (dup : List Nat), g < 4 ∧ s.parked 6 = false ∧ s.run .TRV 0 = runRunning ∧ g ∉ dup ∧ (s.genState g = tsIdle
          ∨ s.genState g = tsMoving) ∧ (s.trv g).v = 0 ∧ (s.trv g).acc = s.rd (R.TRV_G_TARGET_TARGET g) * 4294967296) ∧
    (∃ (g : Nat) (s : State) (dup : List Nat), g < 4 ∧ s.parked 6 = false ∧ s.run .TRV 0 = runRunning ∧ g ∉ dup ∧ (s.genState g = tsIdle
          ∨ s.genState g = tsMoving) ∧ (s.trv g).v = 0 ∧ (s.trv g).acc + 4294967296 < s.rd (R.TRV_G_TARGET_TARGET g) * 4294967296 ∧ s.rd
          (R.TRV_G_TARGET_TARGET g) < 65536 ∧ 1 ≤ s.rd (R.TRV_G_AMAX_AMAX g) ∧ s.rd (R.TRV_G_AMAX_AMAX g) < 4294967296) ∧
    (∃ (g : Nat) (s : State) (dup : List Nat) (x : TrvGen) (tgt : Nat) (vmax : Nat) (a : Nat) (v : Int) (acc : Int), g < 4 ∧ s.parked 6
          = false ∧ s.run .TRV 0 = runRunning ∧ g ∉ dup ∧ (s.genState g = tsIdle ∨ s.genState g = tsMoving) ∧ x = s.trv g ∧ tgt = s.rd
          (R.TRV_G_TARGET_TARGET g) ∧ vmax = s.rd (R.TRV_G_VMAX_VMAX g) ∧ a = s.rd (R.TRV_G_AMAX_AMAX g) ∧ ¬(x.v = 0 ∧ travDist x tgt =
          0) ∧ x.acc < 281474976710656 ∧ tgt < 65536 ∧ (travBrakes x tgt a → v = x.v - travDir x tgt * min (a : Int) x.v.natAbs) ∧
          (¬travBrakes x tgt a → vmax * 16777216 < x.v.natAbs → v = x.v - travDir x tgt * min (a : Int) (x.v.natAbs - vmax * 16777216))
          ∧ (¬travBrakes x tgt a → x.v.natAbs ≤ vmax * 16777216 → v = travDir x tgt * min (x.v.natAbs + a : Int) (vmax * 16777216)) ∧
          acc = x.acc + (v + 8388608) / 16777216 ∧ (acc < 0 ∨ 281474976710655 < acc)) ∧
    (∃ (g : Nat) (s : State) (dup : List Nat) (x : TrvGen) (tgt : Nat) (vmax : Nat) (a : Nat) (v : Int) (acc : Int), g < 4 ∧ s.parked 6
          = false ∧ s.run .TRV 0 = runRunning ∧ g ∉ dup ∧ (s.genState g = tsIdle ∨ s.genState g = tsMoving) ∧ x = s.trv g ∧ tgt = s.rd
          (R.TRV_G_TARGET_TARGET g) ∧ vmax = s.rd (R.TRV_G_VMAX_VMAX g) ∧ a = s.rd (R.TRV_G_AMAX_AMAX g) ∧ ¬(x.v = 0 ∧ travDist x tgt =
          0) ∧ x.acc < 281474976710656 ∧ tgt < 65536 ∧ (travBrakes x tgt a → v = x.v - travDir x tgt * min (a : Int) x.v.natAbs) ∧
          (¬travBrakes x tgt a → vmax * 16777216 < x.v.natAbs → v = x.v - travDir x tgt * min (a : Int) (x.v.natAbs - vmax * 16777216))
          ∧ (¬travBrakes x tgt a → x.v.natAbs ≤ vmax * 16777216 → v = travDir x tgt * min (x.v.natAbs + a : Int) (vmax * 16777216)) ∧
          acc = x.acc + (v + 8388608) / 16777216 ∧ 0 ≤ acc ∧ acc ≤ 281474976710655 ∧ (travDist x tgt).natAbs ≤ 4294967296 ∧ v.natAbs ≤
          a) ∧
    (∃ (g : Nat) (s : State) (dup : List Nat) (x : TrvGen) (tgt : Nat) (vmax : Nat) (a : Nat) (v : Int) (acc : Int), g < 4 ∧ s.parked 6
          = false ∧ s.run .TRV 0 = runRunning ∧ g ∉ dup ∧ (s.genState g = tsIdle ∨ s.genState g = tsMoving) ∧ x = s.trv g ∧ tgt = s.rd
          (R.TRV_G_TARGET_TARGET g) ∧ vmax = s.rd (R.TRV_G_VMAX_VMAX g) ∧ a = s.rd (R.TRV_G_AMAX_AMAX g) ∧ ¬(x.v = 0 ∧ travDist x tgt =
          0) ∧ x.acc < 281474976710656 ∧ tgt < 65536 ∧ (travBrakes x tgt a → v = x.v - travDir x tgt * min (a : Int) x.v.natAbs) ∧
          (¬travBrakes x tgt a → vmax * 16777216 < x.v.natAbs → v = x.v - travDir x tgt * min (a : Int) (x.v.natAbs - vmax * 16777216))
          ∧ (¬travBrakes x tgt a → x.v.natAbs ≤ vmax * 16777216 → v = travDir x tgt * min (x.v.natAbs + a : Int) (vmax * 16777216)) ∧
          acc = x.acc + (v + 8388608) / 16777216 ∧ 0 ≤ acc ∧ acc ≤ 281474976710655 ∧ (4294967296 < (travDist x tgt).natAbs ∨ a <
          v.natAbs)) ∧
    (∃ (g : Nat) (s : State) (dup : List Nat), g < 4 ∧ s.parked 6 = false ∧ s.run .TRV 0 = runRunning ∧ g ∈ dup ∧ s.genState g ≠ tsOff ∧
          s.genState g ≠ tsLost) ∧
    (∃ (g : Nat) (s : State) (path : Path) (m : BitVec 4), g < 4 ∧ s.reaches path R.TRV_CMD_STOP .set ∧ bitOf m.toNat g = true ∧
          s.genState g ≠ tsOff ∧ s.genState g ≠ tsLost) ∧
    (∃ (g : Nat) (s : State) (path : Path) (m : BitVec 4), g < 4 ∧ s.reaches path R.TRV_CMD_STOP .set ∧ (bitOf m.toNat g = false ∨
          s.genState g = tsLost)) ∧
    (∃ (g : Nat) (s : State) (path : Path) (m : BitVec 4), g < 4 ∧ s.reaches path R.TRV_CMD_STOP .set ∧ bitOf m.toNat g = true ∧ s.run
          .TRV 0 = runRunning ∧ s.genState g = tsLost ∧ s.rd (R.TRV_G_TARGET_TARGET g) < 65536) ∧
    (∃ (g : Nat) (s : State) (path : Path) (m : BitVec 4), g < 4 ∧ s.reaches path R.TRV_CMD_STOP .set ∧ bitOf m.toNat g = true ∧ s.run
          .TRV 0 = runRunning ∧ s.genState g ≠ tsLost) :=
  ⟨by refine ⟨3, fl T [(R.PWR_PARKED_STEPS, 32)], ?_⟩; decide +kernel,
   by refine ⟨3, trvS 3 TrvGen.init [(R.TRV_G_POS_STATE 3, 1)], [], ?_⟩; decide +kernel,
   by refine ⟨3, trvS 3 { TrvGen.init with acc := 7 } [(R.TRV_G_POS_STATE 3, 1), (R.TRV_G_TARGET_TARGET 3, 65535), (R.TRV_G_AMAX_AMAX 3, 4294967295), (R.TRV_G_VMAX_VMAX 3, 5)], [], ?_⟩; decide +kernel,
   by refine ⟨3, trvS 3 { TrvGen.init with acc := 281474976710655, v := 72057594037927935 } [(R.TRV_G_POS_STATE 3, 1), (R.TRV_G_AMAX_AMAX 3, 1)], [], ((trvS 3 { TrvGen.init with acc := 281474976710655, v := 72057594037927935 } [(R.TRV_G_POS_STATE 3, 1), (R.TRV_G_AMAX_AMAX 3, 1)] : State).trv (3 : Nat)), 65535, 1048576, 1, 72057594037927934, 281479271677951, ?_⟩; dsimp only [travBrakes, travAway]; decide +kernel,
   by refine ⟨3, trvS 3 { TrvGen.init with acc := 65535 * 4294967296 - 100 } [(R.TRV_G_POS_STATE 3, 1), (R.TRV_G_TARGET_TARGET 3, 65535), (R.TRV_G_AMAX_AMAX 3, 5000), (R.TRV_G_VMAX_VMAX 3, 5)], [], ((trvS 3 { TrvGen.init with acc := 65535 * 4294967296 - 100 } [(R.TRV_G_POS_STATE 3, 1), (R.TRV_G_TARGET_TARGET 3, 65535), (R.TRV_G_AMAX_AMAX 3, 5000), (R.TRV_G_VMAX_VMAX 3, 5)] : State).trv (3 : Nat)), 65535, 5, 5000, 5000, 281470681743260, ?_⟩; dsimp only [travBrakes, travAway]; decide +kernel,
   by refine ⟨3, trvS 3 { TrvGen.init with acc := 7 } [(R.TRV_G_POS_STATE 3, 1), (R.TRV_G_TARGET_TARGET 3, 65535), (R.TRV_G_AMAX_AMAX 3, 4294967295), (R.TRV_G_VMAX_VMAX 3, 5)], [], ((trvS 3 { TrvGen.init with acc := 7 } [(R.TRV_G_POS_STATE 3, 1), (R.TRV_G_TARGET_TARGET 3, 65535), (R.TRV_G_AMAX_AMAX 3, 4294967295), (R.TRV_G_VMAX_VMAX 3, 5)] : State).trv (3 : Nat)), 65535, 5, 4294967295, 83886080, 12, ?_⟩; dsimp only [travBrakes, travAway]; decide +kernel,
   by refine ⟨3, trvS 3 TrvGen.init [(R.TRV_G_POS_STATE 3, 1)], [3, 1], ?_⟩; decide +kernel,
   by refine ⟨3, trvS 3 TrvGen.init [(R.TRV_G_POS_STATE 3, 1)], .kryty, 8, ?_⟩; dsimp only [State.reaches]; decide +kernel,
   by refine ⟨3, fl T [(R.PWR_PARKED_STEPS, 32)], .kryty, 7, ?_⟩; dsimp only [State.reaches]; decide +kernel,
   by refine ⟨3, trvS 3 TrvGen.init [(R.TRV_G_POS_STATE 3, 3), (R.TRV_G_TARGET_TARGET 3, 65535)], .kryty, 8, ?_⟩; dsimp only [State.reaches]; decide +kernel,
   by refine ⟨3, trvS 3 TrvGen.init [(R.TRV_G_POS_STATE 3, 1)], .kryty, 8, ?_⟩; dsimp only [State.reaches]; decide +kernel⟩

end Sys2Proof.Tests
end

section
/-! SUPPORT. What the blocks of a device do at an epoch boundary, and what a power entry does there, keeps the timebase: the epoch counter
and the record of EPC. -/

namespace Sys2Proof.Machine

/-- The timebase of a device: the three copies of its epoch counter (R36, R308), and what EPC keeps between commands. -/
def State.timebase (s : State) : Tri × Epc := (s.cairn.epoch, s.epc)

/-! ### Updates, choices and loops -/

/-- An update of any other component keeps the timebase. -/
@[simp] theorem State.timebase_upd (s : State) {build regs mem bus pins clk boot wdog cck ports seqs ingest host auth eth eng out freeCtr nowNs
    pending} :
    (State.mk build regs mem bus pins clk boot wdog cck s.cairn s.epc ports seqs ingest host auth eth eng out freeCtr nowNs
      pending).timebase = s.timebase := rfl

@[simp] theorem State.timebase_ite (c : Prop) [Decidable c] (s t : State) :
    (if c then s else t).timebase = if c then s.timebase else t.timebase := apply_ite State.timebase c s t

@[simp] theorem State.timebase_forN {n : Nat} {f : Nat → State → State} (s : State) (h : ∀ i a, (f i a).timebase = a.timebase) :
    (forN n f s).timebase = s.timebase :=
  forN_inv (fun a => a.timebase = s.timebase) rfl (fun i a ha => (h i a).trans ha)

@[simp] theorem State.timebase_forL {β : Type} {l : List β} {f : β → State → State} (s : State)
    (h : ∀ b a, (f b a).timebase = a.timebase) : (forL l f s).timebase = s.timebase :=
  forL_inv (fun a => a.timebase = s.timebase) rfl (fun b a ha => (h b a).trans ha)

/-! ### Registers, events put out, and the records of the blocks -/

/-! These are proved `by rfl`, not by the term `rfl`: a law that `simp` takes for a definitional one does not discharge the hypothesis of the
laws of loops above. -/

@[simp] theorem State.timebase_wr (s : State) (f : Fld) (v : Nat) : (s.wr f v).timebase = s.timebase := by rfl
@[simp] theorem State.timebase_setPort (s : State) (id : Nat) (p : Port) : (s.setPort id p).timebase = s.timebase := by rfl
@[simp] theorem State.timebase_setRingAuth (s : State) (r : Nat) (a : RingAuth) : (s.setRingAuth r a).timebase = s.timebase := by rfl
@[simp] theorem State.timebase_wrI (s : State) (f : Fld) (v : Int) : (s.wrI f v).timebase = s.timebase := by rfl
@[simp] theorem State.timebase_useFree (s : State) : s.useFree.timebase = s.timebase := by rfl
@[simp] theorem State.timebase_inc (s : State) (f : Fld) : (s.inc f).timebase = s.timebase := by rfl
@[simp] theorem State.timebase_setSrc (s : State) (n : Nat) (x : Src) : (s.setSrc n x).timebase = s.timebase := by rfl
@[simp] theorem State.timebase_count (s : State) (f : Fld) : (s.count f).timebase = s.timebase := by rfl
@[simp] theorem State.timebase_setRelay (s : State) (i : Nat) (x : Relay) : (s.setRelay i x).timebase = s.timebase := by rfl
@[simp] theorem State.timebase_setLeft (s : State) (r v : Nat) : (s.setLeft r v).timebase = s.timebase := by rfl
@[simp] theorem State.timebase_setLay (s : State) (x : Layers) : (s.setLay x).timebase = s.timebase := by rfl
@[simp] theorem State.timebase_setCal (s : State) (x : Cal) : (s.setCal x).timebase = s.timebase := by rfl
@[simp] theorem State.timebase_setDch (s : State) (j : Nat) (x : DramCh) : (s.setDch j x).timebase = s.timebase := by rfl
@[simp] theorem State.timebase_emit (s : State) (o : Out) : (s.emit o).timebase = s.timebase := by rfl
@[simp] theorem State.timebase_setScan (s : State) (h : Nat) (x : ScanHalf) : (s.setScan h x).timebase = s.timebase := by rfl
@[simp] theorem State.timebase_wr8 (s : State) (sp : Space) (off : Nat) (v : Byte) : (s.wr8 sp off v).timebase = s.timebase := by rfl
@[simp] theorem State.timebase_wr32 (s : State) (sp : Space) (off v : Nat) : (s.wr32 sp off v).timebase = s.timebase := by rfl
@[simp] theorem State.timebase_setRun (s : State) (b : Blk) (w v : Nat) : (s.setRun b w v).timebase = s.timebase := by rfl
@[simp] theorem State.timebase_wrB (s : State) (f : Fld) (b : Bool) : (s.wrB f b).timebase = s.timebase := by rfl
@[simp] theorem State.timebase_setDarn (s : State) (h : Nat) (x : Darn) : (s.setDarn h x).timebase = s.timebase := by rfl
@[simp] theorem State.timebase_setPress (s : State) (h : Nat) (x : Press) : (s.setPress h x).timebase = s.timebase := by rfl
@[simp] theorem State.timebase_setPwr (s : State) (x : Power) : (s.setPwr x).timebase = s.timebase := by rfl
@[simp] theorem State.timebase_setChop (s : State) (r : Nat) (x : Chop) : (s.setChop r x).timebase = s.timebase := by rfl
@[simp] theorem State.timebase_setLamp (s : State) (h : Nat) (x : LampHalf) : (s.setLamp h x).timebase = s.timebase := by rfl
@[simp] theorem State.timebase_setJobs (s : State) (ch : Nat) (l : List DmaJob) : (s.setJobs ch l).timebase = s.timebase := by rfl

/-! ### Bytes of memory -/

@[simp] theorem State.timebase_wrBytes (s : State) (sp : Space) (off : Nat) (l : List Byte) : (s.wrBytes sp off l).timebase = s.timebase := by
  induction l generalizing s off with
  | nil => rfl
  | cons b l ih => simp [State.wrBytes, ih]

/-! ### Cells, events and ports (R274 to R306, R341 to R345) -/

@[simp] theorem State.timebase_ctlSeq (s : State) (node : Nat) : (s.ctlSeq node).2.2.timebase = s.timebase := by
  unfold State.ctlSeq
  dsimp only
  split <;> rfl

@[simp] theorem State.timebase_enqueue (s : State) (id : Nat) (q : QCell) : (s.enqueue id q).timebase = s.timebase := by
  simp [State.enqueue]

@[simp] theorem State.timebase_sendCell (s : State) (id : Nat) (c : Cell) : (s.sendCell id c).timebase = s.timebase := by
  simp [State.sendCell]

@[simp] theorem State.timebase_sendBoth (s : State) (r : Nat) (c : Cell) : (s.sendBoth r c).timebase = s.timebase := by
  unfold State.sendBoth
  split <;> simp

@[simp] theorem State.timebase_originate (s : State) (r : Nat) (mk : Cell → Cell) (typ dest : Nat) (payload : List Byte) :
    (s.originate r mk typ dest payload).timebase = s.timebase := by
  simp [State.originate]

@[simp] theorem State.timebase_passSpur (s : State) (h : Nat) (c : Cell) : (s.passSpur h c).timebase = s.timebase := by
  unfold State.passSpur
  split <;> simp

@[simp] theorem State.timebase_sendSpur (s : State) (h : Nat) (c : Cell) : (s.sendSpur h c).timebase = s.timebase := by
  simp [State.sendSpur]

@[simp] theorem State.timebase_originateSpur (s : State) (h : Nat) (mk : Cell → Cell) (typ dest : Nat) (payload : List Byte) :
    (s.originateSpur h mk typ dest payload).timebase = s.timebase := by
  simp [State.originateSpur]

@[simp] theorem State.timebase_vector (s : State) (fn v : Nat) : (s.vector fn v).timebase = s.timebase := by
  simp [State.vector]

@[simp] theorem State.timebase_queueVector (s : State) (q : Nat) : (s.queueVector q).timebase = s.timebase := by
  simp [State.queueVector]

@[simp] theorem State.timebase_putRecord (s : State) (q : Nat) (payload : List Byte) : (s.putRecord q payload).timebase = s.timebase := by
  simp [State.putRecord]

@[simp] theorem State.timebase_queueEvent (s : State) (q : Nat) (payload : List Byte) : (s.queueEvent q payload).timebase = s.timebase := by
  simp [State.queueEvent]

@[simp] theorem State.timebase_raiseEvent (s : State) (b : Blk) (inst code : Nat) (data : List Byte) :
    (s.raiseEvent b inst code data).timebase = s.timebase := by
  unfold State.raiseEvent
  split <;> simp

@[simp] theorem State.timebase_sendCodeword (s : State) (id : Nat) (msg : List Nat) : (s.sendCodeword id msg).timebase = s.timebase := by rfl

@[simp] theorem State.timebase_wireMarkers (s : State) (id : Nat) : (s.wireMarkers id).timebase = s.timebase := by
  simp [State.wireMarkers]

@[simp] theorem State.timebase_linkCell (s : State) (id typ link : Nat) : (s.linkCell id typ link).timebase = s.timebase := by
  simp [State.linkCell]

@[simp] theorem State.timebase_breakAdd (s : State) (p link : Nat) : (s.breakAdd p link).timebase = s.timebase := by
  simp [State.breakAdd]

@[simp] theorem State.timebase_noteBreak (s : State) (id link : Nat) : (s.noteBreak id link).timebase = s.timebase := by
  simp [State.noteBreak]

@[simp] theorem State.timebase_loseFrames (s : State) (f : Reasm → Bool) : (s.loseFrames f).timebase = s.timebase := by
  simp [State.loseFrames]

@[simp] theorem State.timebase_portLost (s : State) (id st : Nat) : (s.portLost id st).timebase = s.timebase := by
  simp [State.portLost]

@[simp] theorem State.timebase_portDown (s : State) (id st : Nat) : (s.portDown id st).timebase = s.timebase := by
  simp [State.portDown]

@[simp] theorem State.timebase_setLaneTx (s : State) (id tx : Nat) : (s.setLaneTx id tx).timebase = s.timebase := by
  simp [State.setLaneTx]

@[simp] theorem State.timebase_setLanePs (s : State) (id tx rx : Nat) : (s.setLanePs id tx rx).timebase = s.timebase := by
  simp [State.setLanePs]

@[simp] theorem State.timebase_setStage (s : State) (id st : Nat) : (s.setStage id st).timebase = s.timebase := by
  simp [State.setStage]

@[simp] theorem State.timebase_startTraining (s : State) (id : Nat) : (s.startTraining id).timebase = s.timebase := by
  simp [State.startTraining]

@[simp] theorem State.timebase_rxWakes (s : State) (k : Nat) : (s.rxWakes k).timebase = s.timebase := by
  simp [State.rxWakes]

@[simp] theorem State.timebase_wakeLanes (s : State) (id : Nat) : (s.wakeLanes id).timebase = s.timebase := by
  simp [State.wakeLanes]

@[simp] theorem State.timebase_sleepPorts (s : State) (spur rx : Bool) : (s.sleepPorts spur rx).timebase = s.timebase := by
  simp [State.sleepPorts]

@[simp] theorem State.timebase_updatePath (s : State) (r : Nat) : (s.updatePath r).timebase = s.timebase := by
  unfold State.updatePath
  split <;> simp

@[simp] theorem State.timebase_applyDelays (s : State) : s.applyDelays.timebase = s.timebase := by
  refine State.timebase_forL _ (fun id a => ?_)
  split
  · rfl
  · simp

/-! ### DRAM (R363 to R382) -/

@[simp] theorem State.timebase_showThrottled (s : State) (w : Nat) : (s.showThrottled w).timebase = s.timebase := by rfl
@[simp] theorem State.timebase_rollDown (s : State) (j : Nat) : (s.rollDown j).timebase = s.timebase := by rfl

@[simp] theorem State.timebase_activate (s : State) (j : Nat) (r : DramReq) : (s.activate j r).timebase = s.timebase := by
  simp [State.activate]

@[simp] theorem State.timebase_dramServe (s : State) (j : Nat) (q : DQueued) : (s.dramServe j q).timebase = s.timebase := by
  simp [State.dramServe]

@[simp] theorem State.timebase_dramSchedule (s : State) (j n : Nat) : (s.dramSchedule j n).timebase = s.timebase := by
  induction n generalizing s with
  | zero => rfl
  | succ n ih =>
    unfold State.dramSchedule
    split
    · rfl
    · split
      · rfl
      · simp [ih]

@[simp] theorem State.timebase_dramRun (s : State) (j : Nat) : (s.dramRun j).timebase = s.timebase := by
  simp [State.dramRun]

@[simp] theorem State.timebase_dramSlots (s : State) : s.dramSlots.timebase = s.timebase := by
  simp [State.dramSlots]

@[simp] theorem State.timebase_dramAdmit (s : State) : s.dramAdmit.timebase = s.timebase := by
  simp [State.dramAdmit]

@[simp] theorem State.timebase_takeTrial (s : State) (j : Nat) : (s.takeTrial j).timebase = s.timebase := by
  simp [State.takeTrial]

@[simp] theorem State.timebase_refreshOne (s : State) (j : Nat) (commit : Bool) : (s.refreshOne j commit).timebase = s.timebase := by
  simp [State.refreshOne]

@[simp] theorem State.timebase_refreshAll (s : State) (j : Nat) (commit : Bool) : (s.refreshAll j commit).timebase = s.timebase := by
  simp [State.refreshAll]

@[simp] theorem State.timebase_selfEnter (s : State) (j : Nat) : (s.selfEnter j).timebase = s.timebase := by
  simp [State.selfEnter]

@[simp] theorem State.timebase_selfExit (s : State) (j : Nat) : (s.selfExit j).timebase = s.timebase := by
  simp [State.selfExit]

@[simp] theorem State.timebase_deepExit (s : State) (j : Nat) : (s.deepExit j).timebase = s.timebase := by
  simp [State.deepExit]

@[simp] theorem State.timebase_dramPost (s : State) (tag requester a : Nat) (write : Bool) :
    (s.dramPost tag requester a write).timebase = s.timebase := by
  simp [State.dramPost]

@[simp] theorem State.timebase_dramUseAs (s : State) (tag requester a n : Nat) (write : Bool) :
    (s.dramUseAs tag requester a n write).timebase = s.timebase := by
  simp [State.dramUseAs]

/-! ### A head's sources, host interface and PTP (R111 to R134, R301, R325, R356) -/

@[simp] theorem State.timebase_heardEpoch (s : State) : s.heardEpoch.timebase = s.timebase := by
  unfold State.heardEpoch
  split <;> simp

@[simp] theorem State.timebase_ptpSteer (s : State) : s.ptpSteer.timebase = s.timebase := by
  simp [State.ptpSteer]

@[simp] theorem State.timebase_srcSwap (s : State) (n : Nat) : (s.srcSwap n).timebase = s.timebase := by
  simp [State.srcSwap]

@[simp] theorem State.timebase_setSend (s : State) (e r : Nat) (x : RingSend) : (s.setSend e r x).timebase = s.timebase := by
  simp [State.setSend]

@[simp] theorem State.timebase_acceptReq (s : State) (e r cells : Nat) : (s.acceptReq e r cells).timebase = s.timebase := by
  simp [State.acceptReq]

@[simp] theorem State.timebase_visitEntry (s : State) (r e : Nat) : (s.visitEntry r e).timebase = s.timebase := by
  unfold State.visitEntry
  split
  · simp
  · split
    · split <;> simp
    · rfl

@[simp] theorem State.timebase_admitRing (s : State) (r : Nat) : (s.admitRing r).timebase = s.timebase := by
  simp [State.admitRing]

@[simp] theorem State.timebase_sourceBoundary (s : State) : s.sourceBoundary.timebase = s.timebase := by
  unfold State.sourceBoundary
  split <;> simp

@[simp] theorem State.timebase_askHost (s : State) (r : DmaRead) (addr : Nat) : (s.askHost r addr).timebase = s.timebase := by
  simp [State.askHost]

@[simp] theorem State.timebase_frameBad (s : State) (n : Nat) : (s.frameBad n).timebase = s.timebase := by
  simp [State.frameBad]

@[simp] theorem State.timebase_sofTaken (s : State) (ch : Nat) (d : Descriptor) : (s.sofTaken ch d).timebase = s.timebase := by
  simp [State.sofTaken]

@[simp] theorem State.timebase_sofFirst (s : State) (ch : Nat) : (s.sofFirst ch).timebase = s.timebase := by
  unfold State.sofFirst
  split
  · rfl
  · split
    · rfl
    · simp

@[simp] theorem State.timebase_dmaTurn (s : State) (ch : Nat) (a : DmaAsk) : (s.dmaTurn ch a).timebase = s.timebase := by
  unfold State.dmaTurn
  split <;> simp

@[simp] theorem State.timebase_dmaTurns (n : Nat) (s : State) : (State.dmaTurns n s).timebase = s.timebase := by
  induction n generalizing s with
  | zero => rfl
  | succ n ih =>
    unfold State.dmaTurns
    split
    · rfl
    · simp [ih]

@[simp] theorem State.timebase_dmaIssue (s : State) : s.dmaIssue.timebase = s.timebase := by
  unfold State.dmaIssue
  split <;> simp

@[simp] theorem State.timebase_startCapture (s : State) : s.startCapture.timebase = s.timebase := by rfl

/-! ### Calibration, and a tile's layers, presses and scan-out (R135 to R213, R312, R387 to R395) -/

@[simp] theorem State.timebase_calDrop (s : State) (ended : Bool) : (s.calDrop ended).timebase = s.timebase := by rfl

@[simp] theorem State.timebase_calJudge (s : State) : s.calJudge.timebase = s.timebase := by
  unfold State.calJudge
  split
  · rfl
  · split <;> simp

@[simp] theorem State.timebase_calAbandon (s : State) : s.calAbandon.timebase = s.timebase := by
  simp [State.calAbandon]

@[simp] theorem State.timebase_calCheck (s : State) : s.calCheck.timebase = s.timebase := by
  simp [State.calCheck]

@[simp] theorem State.timebase_retireSync (s : State) : s.retireSync.timebase = s.timebase := by
  simp [State.retireSync]

@[simp] theorem State.timebase_pressBoundary (s : State) (h : Nat) : (s.pressBoundary h).timebase = s.timebase := by
  simp [State.pressBoundary]

@[simp] theorem State.timebase_publish (s : State) (h slot row : Nat) (gap : Bool) (sum : Nat → Nat) :
    (s.publish h slot row gap sum).timebase = s.timebase := by
  simp [State.publish]

@[simp] theorem State.timebase_publishSlot (s : State) (h k r : Nat) (blank : Bool) : (s.publishSlot h k r blank).timebase = s.timebase := by
  simp [State.publishSlot]

@[simp] theorem State.timebase_publishFirst (s : State) (h : Nat) : (s.publishFirst h).timebase = s.timebase := by
  simp [State.publishFirst]

@[simp] theorem State.timebase_publishGap (s : State) (h : Nat) : (s.publishGap h).timebase = s.timebase := by
  simp [State.publishGap]

@[simp] theorem State.timebase_entryInForce (s : State) (rail : Nat) : (s.entryInForce rail).timebase = s.timebase := by
  simp [State.entryInForce]

@[simp] theorem State.timebase_fetchRow (s : State) (h k r : Nat) : (s.fetchRow h k r).timebase = s.timebase := by
  simp [State.fetchRow]

@[simp] theorem State.timebase_gapFetch (s : State) (h : Nat) : (s.gapFetch h).timebase = s.timebase := by
  simp [State.gapFetch]

@[simp] theorem State.timebase_frameBegin (s : State) (h : Nat) (was : Option Bool) : (s.frameBegin h was).timebase = s.timebase := by
  unfold State.frameBegin
  split
  · split
    · simp
    · split <;> simp
  · simp

@[simp] theorem State.timebase_scanFrame (s : State) (h : Nat) : (s.scanFrame h).timebase = s.timebase := by
  simp [State.scanFrame]

@[simp] theorem State.timebase_voteSync (s : State) : s.voteSync.timebase = s.timebase := by
  unfold State.voteSync
  split_ifs <;> rfl

@[simp] theorem State.timebase_setAlone (s : State) (h : Nat) : (s.setAlone h).timebase = s.timebase := by rfl

@[simp] theorem State.timebase_scnRoles (s : State) : s.scnRoles.timebase = s.timebase := by
  simp [State.scnRoles]

@[simp] theorem State.timebase_scanBoundary (s : State) : s.scanBoundary.timebase = s.timebase := by
  simp [State.scanBoundary]

@[simp] theorem State.timebase_scanStart (s : State) : s.scanStart.timebase = s.timebase := by
  simp [State.scanStart]

@[simp] theorem State.timebase_tileBoundary (s : State) : s.tileBoundary.timebase = s.timebase := by
  simp [State.tileBoundary]

/-! ### Power steps (R397 to R415) -/

@[simp] theorem State.timebase_gatesTo (s : State) (r p : Nat) : (s.gatesTo r p).timebase = s.timebase := by rfl
@[simp] theorem State.timebase_railShow (s : State) (r : Nat) : (s.railShow r).timebase = s.timebase := by rfl

@[simp] theorem State.timebase_chopSync (s : State) (r : Nat) : (s.chopSync r).timebase = s.timebase := by
  simp [State.chopSync]

@[simp] theorem State.timebase_chopAll (s : State) : s.chopAll.timebase = s.timebase := by
  unfold State.chopAll
  split <;> simp

@[simp] theorem State.timebase_keepDark (s was : State) : (s.keepDark was).timebase = s.timebase := by
  simp [State.keepDark]

@[simp] theorem State.timebase_gpioShow (s : State) : s.gpioShow.timebase = s.timebase := by rfl

@[simp] theorem State.timebase_imageWrite (s : State) : s.imageWrite.timebase = s.timebase := by
  simp [State.imageWrite]

@[simp] theorem State.timebase_clkPark (s : State) : s.clkPark.timebase = s.timebase := by rfl

@[simp] theorem State.timebase_clkRestart (s : State) : s.clkRestart.timebase = s.timebase := by
  refine State.timebase_forL _ (fun f a => ?_)
  split <;> simp

@[simp] theorem State.timebase_stepMark (s : State) (n : Nat) : (s.stepMark n).timebase = s.timebase := by
  simp [State.stepMark]

@[simp] theorem State.timebase_passStopped (s : State) (n m : Nat) : (s.passStopped n m).timebase = s.timebase := by
  simp [State.passStopped]

@[simp] theorem State.timebase_stepPark (s : State) (n : Nat) : (s.stepPark n).timebase = s.timebase := by
  unfold State.stepPark
  split <;> simp

end Sys2Proof.Machine
end

section
/-! The epoch boundary: the number that the timebase takes, and what the rest of the device leaves of it (R36, R37, R45, R47). -/

namespace Sys2Proof.Machine

/-! ### The epoch number through the wind-down of a power entry (R405) -/

theorem State.epochNo_congr {s t : State} (h : s.timebase = t.timebase) : s.epochNo = t.epochNo :=
  congrArg (fun tb : Tri × Epc => tb.1.voted) h

/-- The EPC that starts anew after Saddle keeps the counter (R412). -/
theorem State.epochNo_epcResume (s : State) : s.epcResume.epochNo = s.epochNo := by
  unfold State.epcResume
  split <;> rfl

theorem State.epochNo_unparkAll (s : State) : s.unparkAll.epochNo = s.epochNo := by
  unfold State.unparkAll
  extract_lets slept s1 s2 s3 s4 s5 s6 s7
  calc
    _ = s2.epochNo := State.epochNo_congr (by simp [s7, s6, s5, s4, s3])
    _ = s1.epochNo := by
      unfold s2
      split
      · exact s1.epochNo_epcResume
      · rfl
    _ = s.epochNo := State.epochNo_congr (by simp [s1])

theorem State.epochNo_pwrRefuse (s : State) (typ reason step : Nat) : (s.pwrRefuse typ reason step).epochNo = s.epochNo := by
  unfold State.pwrRefuse
  extract_lets s1 _ s0 s2 s3
  calc
    _ = s2.unparkAll.epochNo := State.epochNo_congr (by simp [s3])
    _ = s2.epochNo := s2.epochNo_unparkAll
    _ = s.epochNo := State.epochNo_congr (by simp [s2, s0, s1])

theorem State.epochNo_pwrCommit (s : State) : s.pwrCommit.epochNo = s.epochNo := by
  unfold State.pwrCommit
  split
  · exact s.epochNo_pwrRefuse _ _ _
  · exact State.epochNo_congr (by simp)

theorem State.epochNo_pwrAdvance (s : State) (n : Nat) : (s.pwrAdvance n).epochNo = s.epochNo := by
  unfold State.pwrAdvance
  split
  · exact State.epochNo_congr (by simp)
  · exact (State.epochNo_pwrCommit _).trans (State.epochNo_congr (by simp))

theorem State.epochNo_windDone (s : State) (n : Nat) : (s.windDone n).epochNo = s.epochNo := by
  unfold State.windDone
  split
  · exact (State.epochNo_pwrAdvance _ n).trans (State.epochNo_congr (by simp))
  · rfl

theorem State.windDone_of_not_winding {s : State} (h : s.eng.pwr.winding = false) (n : Nat) : s.windDone n = s := by
  simp [State.windDone, h]

/-! ### The boundary of the timebase itself (R36, R37, R45, R47) -/

/-- The last part of the timebase's boundary: the coming epoch's number enters the counter, and a period that is due applies. -/
def State.beginEpoch (s : State) : State :=
  ((s.setEpochNo s.epochComing).setEpc { s.epc with nextNumber := none, used := false, other := none }).periodChange s.epochComing

/-- A node that has used its beacon, has not yet begun to follow one, or follows none, goes straight to the next epoch. -/
theorem State.epcBoundary_of_served {s : State} (h : s.epState = epMaster ∨ s.epc.first = false ∨ s.epc.used = true) :
    s.epcBoundary = s.beginEpoch := by
  have hg : (s.epState = epMaster || !s.epc.first || s.epc.used) = true := by
    rcases h with h | h | h <;> simp [h]
  simp [State.epcBoundary, State.beginEpoch, hg]

/-- A node that waits for a beacon and has heard none from either direction counts a miss first. -/
theorem State.epcBoundary_of_missed {s : State} (hm : s.epState ≠ epMaster) (hf : s.epc.first = true) (hu : s.epc.used = false)
    (ho : s.epc.other = none) : s.epcBoundary = s.beaconMiss.beginEpoch := by
  simp [State.epcBoundary, State.beginEpoch, hm, hf, hu, ho]

theorem State.epcBoundary_cases {s : State}
    (h : s.epState = epMaster ∨ s.epc.first = false ∨ s.epc.used = true ∨ s.epc.other = none) :
    s.epcBoundary = s.beginEpoch ∨ s.epcBoundary = s.beaconMiss.beginEpoch := by
  by_cases hs : s.epState = epMaster ∨ s.epc.first = false ∨ s.epc.used = true
  · exact .inl (State.epcBoundary_of_served hs)
  · simp only [not_or, Bool.not_eq_false, Bool.not_eq_true] at hs
    obtain ⟨hm, hf, hu⟩ := hs
    exact .inr (State.epcBoundary_of_missed hm hf hu (by simpa [hm, hf, hu] using h))

/-- A period change touches the period registers and what the timebase keeps of a period to come, nothing else. -/
theorem State.periodChange_rest (s : State) (n : Nat) :
    ∃ r p a, s.periodChange n = { s with regs := r, epc := { s.epc with nextPeriod := p, applied := a } } := by
  unfold State.periodChange
  split
  · exact ⟨_, _, _, rfl⟩
  · split
    · exact ⟨_, _, _, rfl⟩
    · exact ⟨_, _, _, rfl⟩

/-- A miss touches registers and the counts of good and missed epochs, nothing else. -/
theorem State.beaconMiss_rest (s : State) :
    ∃ r, s.beaconMiss = { s with regs := r, epc := { s.epc with good := 0, misses := s.epc.misses + 1 } } := by
  unfold State.beaconMiss
  split <;> exact ⟨_, rfl⟩

/-- A new epoch takes its number, forgets the number and the beacons given for it, and keeps the rest of the device and the counts of
good and missed epochs. -/
theorem State.beginEpoch_rest (s : State) :
    ∃ r p a, s.beginEpoch = { s with
      regs := r
      cairn := { s.cairn with epoch := Tri.set (s.epochComing % 4294967296) }
      epc := { s.epc with nextNumber := none, used := false, other := none, nextPeriod := p, applied := a } } := by
  obtain ⟨r, p, a, h⟩ := State.periodChange_rest
    ((s.setEpochNo s.epochComing).setEpc { s.epc with nextNumber := none, used := false, other := none }) s.epochComing
  exact ⟨r, p, a, h⟩

theorem State.epochNo_beginEpoch (s : State) : s.beginEpoch.epochNo = s.epochComing % 4294967296 := by
  obtain ⟨r, p, a, h⟩ := s.beginEpoch_rest
  rw [h]
  simp [State.epochNo, Tri.set, Tri.voted]

@[simp] theorem State.eng_beginEpoch (s : State) : s.beginEpoch.eng = s.eng := by
  obtain ⟨r, p, a, h⟩ := s.beginEpoch_rest
  rw [h]

@[simp] theorem State.eng_beaconMiss (s : State) : s.beaconMiss.eng = s.eng := by
  obtain ⟨r, h⟩ := s.beaconMiss_rest
  rw [h]

/-- A miss changes neither the counter nor the number that the next boundary begins. -/
theorem State.epochComing_beaconMiss (s : State) : s.beaconMiss.epochComing = s.epochComing := by
  obtain ⟨r, h⟩ := s.beaconMiss_rest
  rw [h]
  rfl

theorem State.epochNo_epcBoundary {s : State}
    (h : s.epState = epMaster ∨ s.epc.first = false ∨ s.epc.used = true ∨ s.epc.other = none) :
    s.epcBoundary.epochNo = s.epochComing % 4294967296 := by
  rcases State.epcBoundary_cases h with h | h
  · rw [h, State.epochNo_beginEpoch]
  · rw [h, State.epochNo_beginEpoch, State.epochComing_beaconMiss]

/-! ### The boundary of the node (R36) -/

@[simp] theorem State.eng_updatePath (s : State) (r : Nat) : (s.updatePath r).eng = s.eng := by
  unfold State.updatePath
  split <;> rfl

@[simp] theorem State.eng_applyDelays (s : State) : s.applyDelays.eng = s.eng := by
  refine forL_inv (fun a : State => a.eng = s.eng) rfl (fun id a ha => ?_)
  split
  · exact ha
  · simp only [apply_ite State.eng, State.eng_updatePath, ite_self]
    exact ha

theorem State.epochEdge_of_stopped {s : State} (h : s.epcRuns = false) : s.epochEdge = s := by
  simp [State.epochEdge, h]

/-- What the build's engines do at a boundary keeps the number that the timebase has taken. -/
theorem State.epochNo_epochEdge {s : State} (h : s.epcRuns = true) : s.epochEdge.epochNo = s.epcBoundary.epochNo := by
  simp only [State.epochEdge, h, Bool.not_true, Bool.false_eq_true, if_false]
  split
  · exact State.epochNo_congr (by simp)
  · calc
      _ = (s.epcBoundary.applyDelays.windDone 4).epochNo := State.epochNo_congr (by simp)
      _ = s.epcBoundary.applyDelays.epochNo := State.epochNo_windDone _ 4
      _ = s.epcBoundary.epochNo := State.epochNo_congr (by simp)

/-- Where no power step waits for the boundary, the engines keep the timebase's record whole. -/
theorem State.epc_epochEdge {s : State} (h : s.epcRuns = true) (hw : s.epcBoundary.eng.pwr.winding = false) :
    s.epochEdge.epc = s.epcBoundary.epc := by
  have hw' : s.epcBoundary.applyDelays.windDone 4 = s.epcBoundary.applyDelays := State.windDone_of_not_winding (by simpa using hw) 4
  have htb : s.epochEdge.timebase = s.epcBoundary.timebase := by
    simp only [State.epochEdge, h, Bool.not_true, Bool.false_eq_true, if_false, hw']
    split <;> simp
  exact congrArg Prod.snd htb

/-! ### Epoch numbers -/

/-- "Later" is a distance of 1 to 2^31 - 1 forward, modulo 2^32 (R36). -/
theorem epochLater_iff {a b : Nat} (hb : b < 4294967296) :
    epochLater a b = true ↔ 1 ≤ ((a : Int) - b) % 4294967296 ∧ ((a : Int) - b) % 4294967296 ≤ 2147483647 := by
  simp only [epochLater, decide_eq_true_eq]
  omega

theorem State.epochComing_of_none {s : State} (h : s.epc.nextNumber = none) : s.epochComing = epochNext s.epochNo := by
  simp [State.epochComing, h]

theorem State.epochComing_of_some {s : State} {n : Nat} (h : s.epc.nextNumber = some n) : s.epochComing = n := by
  simp [State.epochComing, h]

theorem completes_epochBoundary {s : State} {P : State → Prop} (h : P s.epochEdge) : completes .epochBoundary s P :=
  ⟨s.epochEdge, rfl, h⟩

/-- Settles O21: at a boundary the timebase's own part gives the counter its number (`epochNo_epcBoundary`), and what else the device does
there keeps it (`epochNo_epochEdge`, `epc_epochEdge`). With a number from the first beacon the counter takes that number (log entry 30). -/
theorem epochBoundaryAdvances : Obligations.EpochBoundaryAdvances := by
  refine ⟨fun a b _ hb => epochLater_iff hb, fun s => ⟨fun hr hs => ?_, fun hr hw hs => ?_, fun hr hw hm hf hu ho => ?_, fun hr => ?_⟩⟩
  · have hno : s.epochEdge.epochNo = s.epochComing % 4294967296 := (State.epochNo_epochEdge hr).trans (State.epochNo_epcBoundary hs)
    refine completes_epochBoundary ⟨by omega, fun hn => ?_, fun n hn => by rw [hno, State.epochComing_of_some hn]⟩
    rw [State.epochComing_of_none hn, epochNext] at hno
    omega
  · have hb := State.epcBoundary_of_served hs
    obtain ⟨r, p, a, hbegin⟩ := s.beginEpoch_rest
    apply completes_epochBoundary
    rw [State.epc_epochEdge hr (by simpa [hb] using hw), hb, hbegin]
    exact ⟨rfl, rfl⟩
  · have hb := State.epcBoundary_of_missed hm hf hu ho
    obtain ⟨r, p, a, hbegin⟩ := s.beaconMiss.beginEpoch_rest
    obtain ⟨_, hmiss⟩ := s.beaconMiss_rest
    apply completes_epochBoundary
    rw [State.epc_epochEdge hr (by simpa [hb] using hw), hb, hbegin, hmiss]
    exact ⟨rfl, rfl⟩
  · exact completes_epochBoundary (State.epochEdge_of_stopped hr)

end Sys2Proof.Machine
end

section
/-! A read on a path: what it answers, and that it leaves the whole device as it was but for the high words it latches (R55, R56, R80). -/

namespace Sys2Proof.Machine

/-! ### The latched high words (R80) -/

/-- The state with the latched high words `m`, all else the same. -/
def State.setLatch (s : State) (m : List (Nat × Nat)) : State := { s with bus := { s.bus with latch := m } }

@[simp] theorem State.setLatch_setLatch (s : State) (m m' : List (Nat × Nat)) : (s.setLatch m).setLatch m' = s.setLatch m' := rfl

/-- Which counters' low words lie where does not depend on what is latched. -/
theorem lowWordOf_setLatch {s : State} {m : List (Nat × Nat)} {a : Nat} {f : Fld} : lowWordOf (s.setLatch m) a f ↔ lowWordOf s a f :=
  Iff.rfl

/-- What is latched for a path once the low word of `f` has been read on it: the high word of `f`, beside what was latched before. -/
def State.latchedBy (s : State) (path : Path) (f : Fld) : List (Nat × Nat) :=
  Sparse.put s.bus.latch (latchKey path f.addr) (s.see f / 4294967296)

/-- `m` holds what `s` has latched, except under the keys of the counters in `fs`. -/
def State.latchKept (s : State) (path : Path) (fs : Fld → Prop) (m : List (Nat × Nat)) : Prop :=
  ∀ k, (∀ f, fs f → k ≠ latchKey path f.addr) → Sparse.get m k = Sparse.get s.bus.latch k

theorem State.latchKept_latchedBy {s : State} {path : Path} {fs : Fld → Prop} {f : Fld} (h : fs f) :
    s.latchKept path fs (s.latchedBy path f) :=
  fun _ hk => Sparse.get_put_ne _ _ (hk f h)

/-! ### One dword -/

/-- A dword read leaves the state whole, or it is the low word of a 64-bit counter, whose high word it latches. -/
theorem State.readDword_state (s : State) (path : Path) (a : Nat) :
    (s.readDword path a).2 = s ∨ ∃ f, lowWordOf s a f ∧ (s.readDword path a).2 = s.setLatch (s.latchedBy path f) := by
  fun_cases State.readDword s path a
  case case6 ha b w hb _ f l hw hl _ => exact .inr ⟨f, ⟨b, w, l, ha, hb, hl, hw⟩, rfl⟩
  all_goals exact .inl rfl

theorem State.readDword_latch (s : State) (path : Path) (a : Nat) :
    ∃ m, (s.readDword path a).2 = s.setLatch m ∧ s.latchKept path (lowWordOf s a) m := by
  rcases s.readDword_state path a with h | ⟨f, hf, h⟩
  · exact ⟨s.bus.latch, h, fun _ _ => rfl⟩
  · exact ⟨_, h, State.latchKept_latchedBy hf⟩

/-- The low word of a counter that has its register to itself. -/
theorem State.readDword_low {s : State} {path : Path} {a : Nat} {b : Blk} {w : Nat} {f : Fld} (ha : a < 0x100000)
    (hb : winBlk (a / 16384) = some (b, w)) (hid : a % 4096 ≠ 0) (hl : fldsAt b s.build w (a % 4096) = some ([f], false))
    (hw : f.width = 64) (hlsb : f.lsb = 0) :
    s.readDword path a = (s.see f % 4294967296, s.setLatch (s.latchedBy path f)) := by
  unfold State.readDword
  simp [ha, hb, hid, hl, hw, hlsb, State.setLatch, State.latchedBy]

/-- The high word of a counter reads as latched for the path, and reading it leaves the state whole. -/
theorem State.readDword_high {s : State} {path : Path} {a : Nat} {b : Blk} {w : Nat} {f : Fld} (ha : a < 0x100000)
    (hb : winBlk (a / 16384) = some (b, w)) (hid : a % 4096 ≠ 0) (hl : fldsAt b s.build w (a % 4096) = some ([f], true)) :
    s.readDword path a = (Sparse.look s.bus.latch (latchKey path f.addr) 0, s) := by
  unfold State.readDword
  simp [ha, hb, hid, hl]

/-! ### A run of dwords (R55) -/

/-- Dword `i` of what follows dword 0 is dword `i + 1` of the whole. -/
theorem dwordAt_tail (addr i : Nat) : dwordAt (dwordAt addr 1) i = dwordAt addr (i + 1) := by
  unfold dwordAt
  omega

theorem State.readDwords_one (s : State) (path : Path) (addr : Nat) :
    s.readDwords path addr 1 = ([BitVec.ofNat 32 (s.readDword path (addr / 4 * 4)).1], (s.readDword path (addr / 4 * 4)).2) := by
  simp [State.readDwords, dwordAt_zero]

theorem State.length_readDwords (s : State) (path : Path) (addr n : Nat) : (s.readDwords path addr n).1.length = n := by
  induction n generalizing s addr with
  | zero => rfl
  | succ n ih => simp [State.readDwords, ih]

/-- A run of dwords read leaves all but the latched high words, and of those all but the ones whose low word is among the dwords. -/
theorem State.readDwords_latch (s : State) (path : Path) (addr n : Nat) :
    ∃ m, (s.readDwords path addr n).2 = s.setLatch m ∧ s.latchKept path (fun f => ∃ i < n, lowWordOf s (dwordAt addr i) f) m := by
  induction n generalizing s addr with
  | zero => exact ⟨s.bus.latch, rfl, fun _ _ => rfl⟩
  | succ n ih =>
    obtain ⟨m₁, h₁, hkept₁⟩ := s.readDword_latch path (dwordAt addr 0)
    obtain ⟨m₂, h₂, hkept₂⟩ := ih (s.setLatch m₁) (dwordAt addr 1)
    refine ⟨m₂, ?_, fun k hk => ?_⟩
    · calc (s.readDwords path addr (n + 1)).2
        _ = ((s.readDword path (dwordAt addr 0)).2.readDwords path (dwordAt addr 1) n).2 := rfl
        _ = s.setLatch m₂ := by rw [h₁, h₂, State.setLatch_setLatch]
    · have htail : Sparse.get m₂ k = Sparse.get m₁ k :=
        hkept₂ k fun f ⟨i, hi, hf⟩ => hk f ⟨i + 1, by omega, by rwa [dwordAt_tail, lowWordOf_setLatch] at hf⟩
      have hhead : Sparse.get m₁ k = Sparse.get s.bus.latch k := hkept₁ k fun f hf => hk f ⟨0, by omega, hf⟩
      rw [htail, hhead]

/-! ### The request (R75) -/

/-- A read that the path carries and that is no bus error reads its dwords and is answered with them. -/
theorem State.pathRead_performed {s : State} {path : Path} {addr n : Nat} (ho : s.pathOpen path = true)
    (he : s.busError path false addr n 15 = none) :
    s.pathRead path addr n = (s.readDwords path addr n).2.emit (.data path (s.readDwords path addr n).1) := by
  simp [State.pathRead, State.readReq, ho, he]

theorem State.pathRead_word {s : State} {path : Path} {addr v : Nat} {t : State} (ho : s.pathOpen path = true)
    (he : s.busError path false addr 1 15 = none) (hv : s.readDword path (addr / 4 * 4) = (v, t)) :
    s.pathRead path addr 1 = t.emit (.data path [BitVec.ofNat 32 v]) := by
  rw [State.pathRead_performed ho he, State.readDwords_one, hv]

theorem completes_registerRead {path : Path} {addr n : Nat} {s : State} {P : State → Prop} (h : P (s.pathRead path addr n)) :
    completes (.registerRead path addr n) s P :=
  ⟨_, rfl, h⟩

theorem completes_counter64LowRead {path : Path} {addr : Nat} {s : State} {P : State → Prop} (h : P (s.pathRead path addr 1)) :
    completes (.counter64LowRead path addr) s P :=
  ⟨_, rfl, h⟩

/-- Settles O8: a read touches the latched high words only (`readDwords_latch`), by induction on its dwords, each of which leaves the state
whole or latches one counter (`readDword_state`); the high word reads as latched (`readDword_high`), whatever else has changed since. -/
theorem readsAndLatchedCounters : Obligations.ReadsAndLatchedCounters := by
  refine ⟨fun path addr n s ho he => completes_registerRead ?_,
    fun path b w f s hw hlsb hal hlt hb hid hl ho he => completes_counter64LowRead ?_⟩
  · obtain ⟨m, hm, hkept⟩ := s.readDwords_latch path addr n
    rw [State.pathRead_performed ho he, hm]
    refine ⟨rfl, ⟨_, rfl, s.length_readDwords path addr n, fun hn => ?_⟩, fun k hk => hkept k fun f ⟨i, hi, hf⟩ => hk i f hi hf⟩
    rw [hn, State.readDwords_one]
  · have haligned : ∀ a, a % 4 = 0 → a / 4 * 4 = a := by omega
    rw [State.pathRead_word ho he (by rw [haligned _ hal, State.readDword_low hlt hb hid hl hw hlsb])]
    refine ⟨rfl, Sparse.look_put_same _ _ _ _, ⟨fun _ _ => rfl, fun _ => rfl⟩,
      fun u _ hbus ho' he' hb' hl' hid' hlt' => completes_registerRead ?_⟩
    have hlatched : Sparse.look u.bus.latch (latchKey path f.addr) 0 = s.see f / 4294967296 := by
      rw [hbus]
      exact Sparse.look_put_same _ _ _ _
    rw [State.pathRead_word ho' he' (by rw [haligned _ (by omega), State.readDword_high hlt' hb' hid' hl', hlatched])]
    exact ⟨rfl, fun _ _ => rfl, fun _ => rfl⟩

end Sys2Proof.Machine
end

section
/-! Every command answers a next state that keeps the build, the queue, the form of the stores, what was put out, and the order of time and
of free values; and so does every step. -/

namespace Sys2Proof.Machine

/-- The outcome is a next state that keeps what every operation keeps. -/
def keeps (o : Host.Outcome State Fault Refusal) (s : State) : Prop := ∃ t, o = .next t ∧ Keep s t

theorem keeps_next {s t : State} (h : Keep s t) : keeps (.next t) s := ⟨t, rfl, h⟩

/-! ### The instructions of the loop engine (R239) -/

/-- An instruction that writes lanes from its sources, and goes on. -/
theorem writeLanes_loopNext_keep {s : State} {n d m : Nat} {f : Nat → Int} : Keep s (s.writeLanes n d m f).loopNext :=
  State.loopNext_keep (State.writeLanes_keep (.refl s))

theorem execLoopMac_keeps (s : State) : keeps (execLoopMac s) s := by
  unfold execLoopMac
  split
  · exact keeps_next (.refl s)
  · exact keeps_next writeLanes_loopNext_keep

theorem execLoopMsub_keeps (s : State) : keeps (execLoopMsub s) s := by
  unfold execLoopMsub
  split
  · exact keeps_next (.refl s)
  · exact keeps_next writeLanes_loopNext_keep

theorem execLoopSat_keeps (s : State) : keeps (execLoopSat s) s := by
  unfold execLoopSat
  split
  · exact keeps_next (.refl s)
  · exact keeps_next writeLanes_loopNext_keep

theorem execLoopLim_keeps (s : State) : keeps (execLoopLim s) s := by
  unfold execLoopLim
  split
  · exact keeps_next (.refl s)
  · exact keeps_next writeLanes_loopNext_keep

theorem execLoopTrk_keeps (s : State) : keeps (execLoopTrk s) s := by
  unfold execLoopTrk
  split
  · exact keeps_next (.refl s)
  · exact keeps_next writeLanes_loopNext_keep

theorem execLoopTab_keeps (s : State) : keeps (execLoopTab s) s := by
  unfold execLoopTab
  split
  · exact keeps_next (.refl s)
  · exact keeps_next writeLanes_loopNext_keep

theorem execLoopLd_keeps (s : State) : keeps (execLoopLd s) s := by
  unfold execLoopLd
  split
  · exact keeps_next (.refl s)
  · exact keeps_next (ite_keep (fun _ => writeLanes_loopNext_keep.use 18) fun _ => writeLanes_loopNext_keep)

theorem execLoopSt_keeps (s : State) : keeps (execLoopSt s) s := by
  unfold execLoopSt
  split
  · exact keeps_next (.refl s)
  · exact keeps_next (State.loopNext_keep (forL_keep (.refl s) fun _ _ => State.wrI_keep))

theorem execLoopSelmin_keeps (s : State) : keeps (execLoopSelmin s) s := by
  unfold execLoopSelmin
  split
  · exact keeps_next (.refl s)
  · refine keeps_next ?_
    split
    · exact State.loopNext_keep (State.wr_keep (State.wr_keep (State.writeLanes_keep (.refl s))))
    · exact State.loopNext_keep (State.wr_keep (State.writeLanes_keep (.refl s)))

theorem execLoopFf_keeps (s : State) : keeps (execLoopFf s) s := by
  unfold execLoopFf
  split
  · exact keeps_next (.refl s)
  · split
    · exact keeps_next (State.loopNext_keep (.refl s))
    · exact keeps_next writeLanes_loopNext_keep

theorem execLoopOut_keeps (s : State) : keeps (execLoopOut s) s := by
  unfold execLoopOut
  split
  · exact keeps_next (.refl s)
  · split
    · exact keeps_next (State.loopNext_keep (.refl s))
    · exact keeps_next (State.loopNext_keep (State.loopSend_keep (.refl s)))

theorem execLoopWait_keeps (s : State) : keeps (execLoopWait s) s := by
  unfold execLoopWait
  split
  · exact keeps_next (.refl s)
  · exact keeps_next (State.runEnd_keep (.refl s))

theorem execLoopHalt_keeps (s : State) : keeps (execLoopHalt s) s := by
  unfold execLoopHalt
  split
  · exact keeps_next (.refl s)
  · exact keeps_next (State.calCheck_keep (State.loopHalt_keep (.refl s)))

/-! ### Every command, and every step -/

/-- One case per command: the law of the operation that the command is. -/
theorem exec_keeps (c : Instr) (s : State) : keeps (exec c s) s := by
  cases c with
  | registerWrite _ _ _ _ => exact ⟨_, rfl, State.pathWrite_keep (.refl s)⟩
  | memoryWindowWrite _ _ _ _ => exact ⟨_, rfl, State.pathWrite_keep (.refl s)⟩
  | pageLock _ _ _ => exact ⟨_, rfl, State.pathWrite_keep (.refl s)⟩
  | enable _ _ _ => exact ⟨_, rfl, State.pathWrite_keep (.refl s)⟩
  | disable _ _ _ => exact ⟨_, rfl, State.pathWrite_keep (.refl s)⟩
  | drainDone _ => exact ⟨_, rfl, State.drainEnd_keep (.refl s)⟩
  | counter64LowRead _ _ => exact ⟨_, rfl, State.pathRead_keep (.refl s)⟩
  | cckPassEnd => exact ⟨_, rfl, State.passEnd_keep (.refl s)⟩
  | cckSnap _ _ => exact ⟨_, rfl, State.command_keep (.refl s)⟩
  | cckRefWrite _ _ _ => exact ⟨_, rfl, State.pathWrite_keep (.refl s)⟩
  | cckEnWrite _ _ _ => exact ⟨_, rfl, State.pathWrite_keep (.refl s)⟩
  | memoryClearDone => exact ⟨_, rfl, State.memoriesClear_keep (.refl s)⟩
  | refDetect _ _ => exact ⟨_, rfl, State.refDetect_keep (.refl s)⟩
  | refLoss => exact ⟨_, rfl, State.refLoss_keep (.refl s)⟩
  | pllEnable _ _ _ => exact ⟨_, rfl, State.pathWrite_keep (.refl s)⟩
  | pllLock _ => exact ⟨_, rfl, State.pllLock_keep (.refl s)⟩
  | pllLockLoss _ => exact ⟨_, rfl, State.pllLoss_keep (.refl s)⟩
  | toRoot _ _ => exact ⟨_, rfl, State.command_keep (.refl s)⟩
  | toRc _ _ => exact ⟨_, rfl, State.command_keep (.refl s)⟩
  | clockSwitchDone => exact ⟨_, rfl, State.clocksSwitched_keep (.refl s)⟩
  | powerOnReset => exact ⟨_, rfl, State.powerOn_keep (.refl s)⟩
  | resetPin _ => exact ⟨_, rfl, State.resetPin_keep (.refl s)⟩
  | resetRelease _ _ _ => exact ⟨_, rfl, State.released_keep (.refl s)⟩
  | arm _ _ => exact ⟨_, rfl, State.command_keep (.refl s)⟩
  | armExpire => exact ⟨_, rfl, State.wr_keep (.refl s)⟩
  | full _ _ => exact ⟨_, rfl, State.command_keep (.refl s)⟩
  | wdogKick _ _ => exact ⟨_, rfl, State.command_keep (.refl s)⟩
  | wdogCfgWrite _ _ _ => exact ⟨_, rfl, State.pathWrite_keep (.refl s)⟩
  | perstN _ => exact ⟨_, rfl, State.perst_keep (.refl s)⟩
  | pllLockTimeout => exact ⟨_, rfl, State.pllTimeout_keep (.refl s)⟩
  | slotVerifyDone _ _ => exact ⟨_, rfl, State.slotsChecked_keep (.refl s)⟩
  | loadDataWrite _ _ _ => exact ⟨_, rfl, State.pathWrite_keep (.refl s)⟩
  | loadVerify _ _ => exact ⟨_, rfl, State.command_keep (.refl s)⟩
  | keyRecordApply _ => exact ⟨_, rfl, State.keyRecord_keep (.refl s)⟩
  | ryupelImageVerify _ _ => exact ⟨_, rfl, State.ryupelCheck_keep (.refl s)⟩
  | debugAccess _ => exact ⟨_, rfl, State.debugAccess_keep (.refl s)⟩
  | epochBoundary => exact ⟨_, rfl, State.epochEdge_keep (.refl s)⟩
  | beaconSend => exact ⟨_, rfl, State.beaconSend_keep (.refl s)⟩
  | beacon _ _ _ => exact ⟨_, rfl, State.beaconAt_keep (.refl s)⟩
  | epcLocked => exact ⟨_, rfl, State.epcLock_keep (.refl s)⟩
  | phaseStep => exact ⟨_, rfl, State.phaseStep_keep (.refl s)⟩
  | epcPeriodWrite _ _ _ => exact ⟨_, rfl, State.pathWrite_keep (.refl s)⟩
  | codeword _ _ _ => exact ⟨_, rfl, State.codeword_keep (.refl s)⟩
  | cellForward _ _ => exact ⟨_, rfl, State.cellIn_keep (.refl s)⟩
  | pixelCell _ _ => exact ⟨_, rfl, State.pixelIn_keep (.refl s)⟩
  | locator _ _ => exact ⟨_, rfl, State.pixelIn_keep (.refl s)⟩
  | regRd _ _ => exact ⟨_, rfl, State.regIn_keep (.refl s)⟩
  | regWr _ _ => exact ⟨_, rfl, State.regIn_keep (.refl s)⟩
  | regRsp _ _ => exact ⟨_, rfl, State.regRspIn_keep (.refl s)⟩
  | remoteTimeout _ => exact ⟨_, rfl, State.remoteTimeout_keep (.refl s)⟩
  | event _ _ => exact ⟨_, rfl, State.eventCell_keep (.refl s)⟩
  | evqHoldoffExpire _ => exact ⟨_, rfl, State.holdoffEnd_keep (.refl s)⟩
  | discover _ _ => exact ⟨_, rfl, State.discover_keep (.refl s)⟩
  | neigh _ _ => exact ⟨_, rfl, State.neighIn_keep (.refl s)⟩
  | dlyReq _ _ _ => exact ⟨_, rfl, State.dlyReqIn_keep (.refl s)⟩
  | dlyRsp _ _ _ => exact ⟨_, rfl, State.dlyRspIn_keep (.refl s)⟩
  | dlyReqSend _ => exact ⟨_, rfl, State.dlyReqOut_keep (.refl s)⟩
  | linkdown _ _ => exact ⟨_, rfl, State.linkChange_keep (.refl s)⟩
  | linkup _ _ => exact ⟨_, rfl, State.linkChange_keep (.refl s)⟩
  | shareReq _ _ => exact ⟨_, rfl, State.shareIn_keep (.refl s)⟩
  | shareReqRepeat _ => exact ⟨_, rfl, State.shareAgain_keep (.refl s)⟩
  | test _ _ => exact ⟨_, rfl, State.testCell_keep (.refl s)⟩
  | cmdResign _ _ => exact ⟨_, rfl, State.command_keep (.refl s)⟩
  | resign _ _ => exact ⟨_, rfl, State.resignIn_keep (.refl s)⟩
  | cmdTake _ _ => exact ⟨_, rfl, State.command_keep (.refl s)⟩
  | foldCheckDone => exact ⟨_, rfl, State.foldChecked_keep (.refl s)⟩
  | takeoverComplete => exact ⟨_, rfl, State.takeoverDone_keep (.refl s)⟩
  | take _ _ => exact ⟨_, rfl, State.takeIn_keep (.refl s)⟩
  | foldCommit _ _ => exact ⟨_, rfl, State.command_keep (.refl s)⟩
  | foldPeriod => exact ⟨_, rfl, State.foldPeriod_keep (.refl s)⟩
  | foldCaptureDone => exact ⟨_, rfl, State.captureDone_keep (.refl s)⟩
  | foldVerify _ _ => exact ⟨_, rfl, State.command_keep (.refl s)⟩
  | bar2Request _ _ => exact ⟨_, rfl, State.bar2_keep (.refl s)⟩
  | ethFrame _ _ => exact ⟨_, rfl, State.ethFrameIn_keep (.refl s)⟩
  | frame _ _ => exact ⟨_, rfl, State.frameCell_keep (.refl s)⟩
  | ptpMessage _ _ => exact ⟨_, rfl, State.ptpIn_keep (.refl s)⟩
  | mgtWrite _ _ _ _ => exact ⟨_, rfl, State.mgtBegin_keep (.refl s)⟩
  | mgtRead _ _ => exact ⟨_, rfl, State.mgtBegin_keep (.refl s)⟩
  | mgtSclTimeout => exact ⟨_, rfl, State.sclTimeout_keep (.refl s)⟩
  | mgtWakeTimeout => exact ⟨_, rfl, State.mgtWakeEnd_keep (.refl s)⟩
  | dramRequest _ => exact ⟨_, rfl, State.dramRequest_keep (.refl s)⟩
  | pointRd _ _ _ => exact ⟨_, rfl, State.trainCmd_keep (.refl s)⟩
  | pointWr _ _ _ => exact ⟨_, rfl, State.trainCmd_keep (.refl s)⟩
  | cbt _ _ _ => exact ⟨_, rfl, State.trainCmd_keep (.refl s)⟩
  | wckLevel _ _ _ => exact ⟨_, rfl, State.trainCmd_keep (.refl s)⟩
  | mrw _ _ _ => exact ⟨_, rfl, State.trainCmd_keep (.refl s)⟩
  | mrr _ _ _ => exact ⟨_, rfl, State.trainCmd_keep (.refl s)⟩
  | trainCommit _ _ _ => exact ⟨_, rfl, State.trainCmd_keep (.refl s)⟩
  | abandon _ _ _ => exact ⟨_, rfl, State.trainCmd_keep (.refl s)⟩
  | calRun _ _ => exact ⟨_, rfl, State.command_keep (.refl s)⟩
  | calAbort _ _ => exact ⟨_, rfl, State.command_keep (.refl s)⟩
  | calSlice _ => exact ⟨_, rfl, State.calSlice_keep (.refl s)⟩
  | calApply => exact ⟨_, rfl, State.calApply_keep (.refl s)⟩
  | pwrGo _ _ _ => exact ⟨_, rfl, State.pathWrite_keep (.refl s)⟩
  | blockPark _ => exact ⟨_, rfl, State.blockPark_keep (.refl s)⟩
  | delayLimit => exact ⟨_, rfl, State.delayLimit_keep (.refl s)⟩
  | wakeArm => exact ⟨_, rfl, State.wakeArm_keep (.refl s)⟩
  | wake _ _ => exact ⟨_, rfl, State.wakeEvent_keep (.refl s)⟩
  | wakeTimeout => exact ⟨_, rfl, State.wakeTimeout_keep (.refl s)⟩
  | wakeRetry => exact ⟨_, rfl, State.wakeRetry_keep (.refl s)⟩
  | restore _ _ => exact ⟨_, rfl, State.command_keep (.refl s)⟩
  | restoreDone => exact ⟨_, rfl, State.restoreEnd_keep (.refl s)⟩
  | railEnAssert => exact ⟨_, rfl, State.railAssert_keep (.refl s)⟩
  | railPgFall => exact ⟨_, rfl, State.railFall_keep (.refl s)⟩
  | probe _ _ _ _ => exact ⟨_, rfl, State.probe_keep (.refl s)⟩
  | lampAgeOut _ _ _ => exact ⟨_, rfl, State.ageOut_keep (.refl s)⟩
  | pairTest _ _ _ => exact ⟨_, rfl, State.pairTest_keep (.refl s)⟩
  | leakTest _ _ _ => exact ⟨_, rfl, State.leakTest_keep (.refl s)⟩
  | sinkDieCheckDone _ _ _ => exact ⟨_, rfl, State.diesChecked_keep (.refl s)⟩
  | derateUpdate => exact ⟨_, rfl, State.derate_keep (.refl s)⟩
  | lyrCommit _ _ _ _ => exact ⟨_, rfl, State.pathWrite_keep (.refl s)⟩
  | lyrTouch _ _ _ _ => exact ⟨_, rfl, State.pathWrite_keep (.refl s)⟩
  | scnGo _ _ _ => exact ⟨_, rfl, State.command_keep (.refl s)⟩
  | pressEnd _ => exact ⟨_, rfl, State.pressEnd_keep (.refl s)⟩
  | pressLayer _ => exact ⟨_, rfl, State.pressLayer_keep (.refl s)⟩
  | pressOrder _ => exact ⟨_, rfl, State.pressOrder_keep (.refl s)⟩
  | pressBlend _ => exact ⟨_, rfl, State.pressBlend_keep (.refl s)⟩
  | pressWindow _ => exact ⟨_, rfl, State.pressWindow_keep (.refl s)⟩
  | pressFlat _ => exact ⟨_, rfl, State.pressFlat_keep (.refl s)⟩
  | pressWaitl _ => exact ⟨_, rfl, State.pressWaitl_keep (.refl s)⟩
  | pressSync _ => exact ⟨_, rfl, State.pressSync_keep (.refl s)⟩
  | pressWaitRelease _ => exact ⟨_, rfl, State.pressRelease_keep (.refl s)⟩
  | pressJump _ => exact ⟨_, rfl, State.pressJump_keep (.refl s)⟩
  | pressCond _ => exact ⟨_, rfl, State.pressCond_keep (.refl s)⟩
  | drnLoad _ _ _ => exact ⟨_, rfl, State.command_keep (.refl s)⟩
  | drnLoadDone _ => exact ⟨_, rfl, State.loadDone_keep (.refl s)⟩
  | drnVerify _ _ _ => exact ⟨_, rfl, State.command_keep (.refl s)⟩
  | drnVerifyDone _ => exact ⟨_, rfl, State.verifyDone_keep (.refl s)⟩
  | mapCheckDone _ => exact ⟨_, rfl, State.mapChecked_keep (.refl s)⟩
  | slotDue _ => exact ⟨_, rfl, State.slotDue_keep (.refl s)⟩
  | lopRestart _ _ _ => exact ⟨_, rfl, State.pathWrite_keep (.refl s)⟩
  | lopCheckDone => exact ⟨_, rfl, State.lopChecked_keep (.refl s)⟩
  | headroomReport _ _ _ => exact ⟨_, rfl, State.headReport_keep (.refl s)⟩
  | ffEntry _ => exact ⟨_, rfl, State.ffEntry_keep (.refl s)⟩
  | chopOnEnd _ _ => exact ⟨_, rfl, State.chopOnEnd_keep (.refl s)⟩
  | chopOffEnd _ _ => exact ⟨_, rfl, State.chopOffEnd_keep (.refl s)⟩
  | chopCycleLimit _ _ => exact ⟨_, rfl, State.chopLimit_keep (.refl s)⟩
  | overcurrent _ _ => exact ⟨_, rfl, State.chopOver_keep (.refl s)⟩
  | ovRecover _ _ => exact ⟨_, rfl, State.ovRecover_keep (.refl s)⟩
  | traverseClock _ => exact ⟨_, rfl, State.trvTick_keep (.refl s)⟩
  | trvStop _ _ _ => exact ⟨_, rfl, State.pathWrite_keep (.refl s)⟩
  | trvReload _ _ _ => exact ⟨_, rfl, State.pathWrite_keep (.refl s)⟩
  | registerRead _ _ _ => exact ⟨_, rfl, State.pathRead_keep (.refl s)⟩
  | configurationRequest _ _ => exact ⟨_, rfl, State.configReq_keep (.refl s)⟩
  | pcieLinkState _ _ _ _ => exact ⟨_, rfl, State.pcieLink_keep (.refl s)⟩
  | sidePortLink _ _ _ _ => exact ⟨_, rfl, State.ethLink_keep (.refl s)⟩
  | configurationUpset _ _ => exact ⟨_, rfl, State.upset_keep (.refl s)⟩
  | fullReset => exact ⟨_, rfl, by split; exacts [State.fullReset_keep (.refl s), .refl s]⟩
  | watchdogExpiry => exact ⟨_, rfl, ite_keep (fun _ => State.wdogPath_keep (.refl s)) fun _ => .refl s⟩
  | lockstepMismatch => exact ⟨_, rfl, ite_keep (fun _ => .refl s) fun _ => State.wdogPath_keep (.refl s)⟩
  | loadVerifyDone _ => exact ⟨_, rfl, ite_keep (fun _ => State.loadVerified_keep (.refl s)) fun _ => .refl s⟩
  | dmaDoorbell _ _ acc _ =>
    cases acc with
    | bell _ _ => exact ⟨_, rfl, State.dmaBell_keep (.refl s)⟩
    | access _ _ => exact ⟨_, rfl, State.bar4_keep (.refl s)⟩
  | dmaDescriptorDone _ _ _ => exact ⟨_, rfl, State.dramSlots_keep (State.dmaWound_keep (State.dmaArrive_keep (.refl s)))⟩
  | dmaReadTimeout _ => exact ⟨_, rfl, State.dmaWound_keep (State.dmaTimeout_keep (.refl s))⟩
  | st2110Packet _ _ =>
    refine ⟨_, rfl, ite_keep (fun _ => .refl s) fun _ => ?_⟩
    split
    · exact State.dramSlots_keep (State.stPacket_keep (.refl s))
    · exact .refl s
  | sendDeadline _ _ => exact ⟨_, rfl, ite_keep (fun _ => .refl s) fun _ => State.deadline_keep (.refl s)⟩
  | idle _ => exact ⟨_, rfl, .refl s⟩
  | evqDoorbell _ acc =>
    cases acc with
    | bell _ _ => exact ⟨_, rfl, State.evqBell_keep (.refl s)⟩
    | access _ _ => exact ⟨_, rfl, State.bar4_keep (.refl s)⟩
  | ringDiscover _ _ _ => exact ⟨_, rfl, ite_keep (fun _ => .refl s) fun _ => State.command_keep (.refl s)⟩
  | delayMeasureStart _ => exact ⟨_, rfl, ite_keep (fun _ => State.startMeasure_keep (.refl s)) fun _ => .refl s⟩
  | remeasure _ _ _ => exact ⟨_, rfl, ite_keep (fun _ => .refl s) fun _ => State.command_keep (.refl s)⟩
  | pacingExpire _ => exact ⟨_, rfl, ite_keep (fun _ => .refl s) fun _ => State.pace_keep (.refl s)⟩
  | cellBoundary _ => exact ⟨_, rfl, State.dramSlots_keep (State.cellBoundary_keep (.refl s))⟩
  | laneStageDone _ _ => exact ⟨_, rfl, State.onLane_keep (.refl s) fun _ => State.stageDone_keep (.refl s)⟩
  | stageTimeout _ _ => exact ⟨_, rfl, State.onLane_keep (.refl s) fun _ => State.stageTimeout_keep (.refl s)⟩
  | portRetry _ => exact ⟨_, rfl, ite_keep (fun _ => State.startTraining_keep (.refl s)) fun _ => .refl s⟩
  | lossOfLock _ => exact ⟨_, rfl, State.onLane_keep (.refl s) fun _ => State.lockLost_keep (.refl s)⟩
  | quietEnter _ dir =>
    cases dir with
    | tx => exact ⟨_, rfl, State.quietEnter_keep (.refl s)⟩
    | rx => exact ⟨_, rfl, State.quietFollow_keep (.refl s)⟩
  | quietRefresh _ => exact ⟨_, rfl, ite_keep (fun _ => State.wireMarkers_keep (.refl s)) fun _ => .refl s⟩
  | quietExit _ dir =>
    cases dir with
    | tx => exact ⟨_, rfl, State.quietExit_keep (.refl s)⟩
    | rx => exact ⟨_, rfl, State.quietFollow_keep (.refl s)⟩
  | cairnCopyDisagree _ _ _ _ _ => exact ⟨_, rfl, State.keepDark_keep (State.copies_keep (.refl s))⟩
  | listenEnd _ => exact ⟨_, rfl, ite_keep (fun _ => State.listenEnd_keep (.refl s)) fun _ => .refl s⟩
  | beaconLossTakeover => exact ⟨_, rfl, ite_keep (fun _ => State.autoTake_keep (.refl s)) fun _ => .refl s⟩
  | foldData _ _ => exact ⟨_, rfl, State.foldIn_keep (.refl s) fun _ => State.foldRx_keep⟩
  | foldAck _ _ => exact ⟨_, rfl, State.foldIn_keep (.refl s) fun _ => State.foldAcked_keep⟩
  | foldNack _ _ => exact ⟨_, rfl, State.foldIn_keep (.refl s) fun _ h => ite_keep (fun _ => State.foldFailed_keep h) fun _ => h⟩
  | foldAckTimeout => exact ⟨_, rfl, ite_keep (fun _ => State.foldFailed_keep (.refl s)) fun _ => .refl s⟩
  | foldVerifyDone => exact ⟨_, rfl, ite_keep (fun _ => State.foldVerified_keep (.refl s)) fun _ => .refl s⟩
  | apertureWrite _ _ _ _ => exact ⟨_, rfl, ite_keep (fun _ => .refl s) fun _ => State.pathWrite_keep (.refl s)⟩
  | hostRd _ _ _ _ => exact ⟨_, rfl, State.spurIn_keep (.refl s) fun _ => State.hostAccess_keep⟩
  | hostCpl _ _ => exact ⟨_, rfl, State.spurIn_keep (.refl s) fun _ h => State.dmaWound_keep (State.partIn_keep h)⟩
  | hostWr _ _ => exact ⟨_, rfl, State.spurIn_keep (.refl s) fun _ => State.hostAccess_keep⟩
  | doorbell _ _ => exact ⟨_, rfl, State.spurIn_keep (.refl s) fun _ => State.dmaPost_keep⟩
  | cpTxDoorbell _ _ _ => exact ⟨_, rfl, State.cpBell_keep (.refl s) fun _ => State.cpTransmit_keep⟩
  | cpRxDoorbell _ _ => exact ⟨_, rfl, State.cpBell_keep (.refl s) fun _ => id⟩
  | ptpAnnounceTimeout => exact ⟨_, rfl, ite_keep (fun _ => State.ptpLost_keep (State.ptpTimeout_keep (.refl s))) fun _ => .refl s⟩
  | selfRefreshIdle _ => exact ⟨_, rfl, State.onChan_keep (.refl s) fun _ => State.selfIdle_keep⟩
  | dramReadDone _ _ => exact ⟨_, rfl, State.onChan_keep (.refl s) fun _ => State.readDone_keep⟩
  | trefi _ => exact ⟨_, rfl, State.onChan_keep (.refl s) fun _ => State.trefi_keep⟩
  | refreshIssue _ => exact ⟨_, rfl, State.onChan_keep (.refl s) fun _ => State.refreshIssue_keep⟩
  | mr4Read _ _ _ _ => exact ⟨_, rfl, State.onChan_keep (.refl s) fun _ => State.mr4_keep⟩
  | refreshWindowEnd _ => exact ⟨_, rfl, State.onChan_keep (.refl s) fun _ => State.refWindow_keep⟩
  | trainPointDone _ _ _ => exact ⟨_, rfl, State.onChan_keep (.refl s) fun _ => State.pointDone_keep⟩
  | sensorConversion _ _ => exact ⟨_, rfl, ite_keep (fun _ => State.convert1_keep (.refl s)) fun _ => .refl s⟩
  | railPgRise _ => exact ⟨_, rfl, State.mgtResume_keep (State.railRise_keep (.refl s))⟩
  | rowSlot _ _ => exact ⟨_, rfl, State.dramSlots_keep (State.calCheck_keep (State.rowSlot_keep (.refl s)))⟩
  | latchInstant => exact ⟨_, rfl, State.dramSlots_keep (State.latchInstant_keep (.refl s))⟩
  | nbRestore _ _ _ _ _ => exact ⟨_, rfl, ite_keep (fun _ => .refl s) fun _ => State.pathWrite_keep (.refl s)⟩
  | datapathStep _ _ => exact ⟨_, rfl, State.dramSlots_keep (State.datapath_keep (.refl s))⟩
  | darnRunEnd _ => exact ⟨_, rfl, ite_keep (fun _ => State.darnDone_keep (.refl s)) fun _ => .refl s⟩
  | loopRunStart _ => exact ⟨_, rfl, State.runStart_keep (forN_keep (.refl s) fun _ _ => State.tick_keep)⟩
  | loopLd => exact execLoopLd_keeps s
  | loopSt => exact execLoopSt_keeps s
  | loopMac => exact execLoopMac_keeps s
  | loopMsub => exact execLoopMsub_keeps s
  | loopSat => exact execLoopSat_keeps s
  | loopLim => exact execLoopLim_keeps s
  | loopSelmin => exact execLoopSelmin_keeps s
  | loopTrk => exact execLoopTrk_keeps s
  | loopTab => exact execLoopTab_keeps s
  | loopFf => exact execLoopFf_keeps s
  | loopOut => exact execLoopOut_keeps s
  | loopWait => exact execLoopWait_keeps s
  | loopHalt => exact execLoopHalt_keeps s
  | overvoltage _ => exact ⟨_, rfl, State.calCheck_keep (State.chopOv_keep (.refl s))⟩
  | kernelLoadDone _ => exact ⟨_, rfl, ite_keep (fun _ => .refl s) fun _ => State.dramSlots_keep (State.srcKernel_keep (.refl s))⟩

theorem step_keeps_taken (s : State) : keeps (step s) { s with pending := s.pending.tail } := by
  unfold step
  split
  next h =>
    rw [h, List.tail_nil, ← h]
    exact keeps_next (State.tick_keep (.refl s))
  next c rest h =>
    rw [h]
    exact exec_keeps c _

/-- Settles O5: each command is an operation with a law of what it keeps (`exec_keeps`). -/
theorem everyCommandCompletes : Obligations.EveryCommandCompletes := by
  intro c s hwf
  obtain ⟨t, hnext, h⟩ := exec_keeps c s
  exact ⟨t, hnext, ⟨h.build, h.pending⟩, h.wf hwf, h.out, h.free, h.now⟩

/-- Settles O4: a step is a command on the rest of the queue, or a clock on an empty one; both keep the invariant (`step_keeps_taken`). -/
theorem everyStepKeepsTheInvariant : Obligations.EveryStepKeepsTheInvariant := by
  intro s t hwf hstep
  obtain ⟨t', hnext, h⟩ := step_keeps_taken s
  obtain rfl : t' = t := by rw [hnext] at hstep; exact Host.Outcome.next.inj hstep
  exact ⟨h.wf hwf, h.build, h.pending, h.out, h.free, h.now⟩

end Sys2Proof.Machine
end

section
/-! The frame of an operation: what `sameElse` says of updates and of operations made of others. -/

namespace Sys2Proof.Machine

/-- A command that answers the state `u`, which is `t`, completes with what holds of `t`. -/
theorem completes_eq {i : Instr} {s u t : State} {P : State → Prop} (hx : exec i s = .next u) (h : u = t) (hp : P t) : completes i s P :=
  ⟨u, hx, h ▸ hp⟩

/-! ### `sameElse` as a relation -/

theorem sameElse.refl (s : State) (fs : List Fld) : sameElse s s fs := ⟨fun _ _ => rfl, fun _ => rfl⟩

theorem sameElse.trans {s t u : State} {fs : List Fld} (h : sameElse s t fs) (k : sameElse t u fs) : sameElse s u fs :=
  ⟨fun f hf => (k.1 f hf).trans (h.1 f hf), fun a => (k.2 a).trans (h.2 a)⟩

theorem sameElse.mono {s t : State} {fs gs : List Fld} (h : sameElse s t fs) (hsub : fs ⊆ gs) : sameElse s t gs :=
  ⟨fun f hf => h.1 f fun g hg => hf g (hsub hg), h.2⟩

/-- Two steps in a row change the fields of either. -/
theorem sameElse.append {s t u : State} {fs gs : List Fld} (h : sameElse s t fs) (k : sameElse t u gs) : sameElse s u (fs ++ gs) :=
  (h.mono (List.subset_append_left _ _)).trans (k.mono (List.subset_append_right _ _))

/-- A state with the build, registers and memory of another has its fields and bytes. -/
theorem sameElse.of_eq {s t u : State} {fs : List Fld} (h : sameElse s t fs) (hb : u.build = t.build) (hr : u.regs = t.regs)
    (hm : u.mem = t.mem) : sameElse s u fs := by
  refine ⟨fun f hf => ?_, fun a => by rw [hm]; exact h.2 a⟩
  rw [← h.1 f hf]
  unfold State.rd
  rw [hb, hr]

theorem sameElse.read {s t : State} {fs : List Fld} (h : sameElse s t fs) {f : Fld} (hf : ∀ g ∈ fs, f.key ≠ g.key) : t.rd f = s.rd f :=
  h.1 f hf

/-- A register write changes its field. -/
theorem sameElse.wr {s t : State} {fs : List Fld} (h : sameElse s t fs) {f : Fld} {v : Nat} (hf : f ∈ fs) : sameElse s (t.wr f v) fs :=
  ⟨fun g hg => (State.rd_wr_ne t v (hg f hf)).trans (h.1 g hg), h.2⟩

theorem sameElse.count {s t : State} {fs : List Fld} (h : sameElse s t fs) {f : Fld} (hf : f ∈ fs) : sameElse s (t.count f) fs := h.wr hf
theorem sameElse.bump {s t : State} {fs : List Fld} (h : sameElse s t fs) {f : Fld} {n : Nat} (hf : f ∈ fs) : sameElse s (t.bump f n) fs :=
  h.wr hf
theorem sameElse.inc {s t : State} {fs : List Fld} (h : sameElse s t fs) {f : Fld} (hf : f ∈ fs) : sameElse s (t.inc f) fs := h.wr hf
theorem sameElse.wrB {s t : State} {fs : List Fld} (h : sameElse s t fs) {f : Fld} {b : Bool} (hf : f ∈ fs) : sameElse s (t.wrB f b) fs :=
  h.wr hf
theorem sameElse.wrI {s t : State} {fs : List Fld} (h : sameElse s t fs) {f : Fld} {v : Int} (hf : f ∈ fs) : sameElse s (t.wrI f v) fs :=
  h.wr hf

/-- What is put out is no field and no byte. -/
theorem sameElse.emit {s t : State} {fs : List Fld} (h : sameElse s t fs) (o : Out) : sameElse s (t.emit o) fs := h

theorem sameElse.ite {s t u : State} {fs : List Fld} {c : Prop} [Decidable c] (ht : c → sameElse s t fs) (hu : ¬c → sameElse s u fs) :
    sameElse s (if c then t else u) fs := by
  split
  · exact ht ‹_›
  · exact hu ‹_›

theorem sameElse.forL {β : Type} {s t : State} {fs : List Fld} {l : List β} {f : β → State → State} (h : sameElse s t fs)
    (hf : ∀ b a, sameElse s a fs → sameElse s (f b a) fs) : sameElse s (forL l f t) fs :=
  forL_inv (fun a => sameElse s a fs) h hf

theorem sameElse.forN {s t : State} {fs : List Fld} {n : Nat} {f : Nat → State → State} (h : sameElse s t fs)
    (hf : ∀ i a, sameElse s a fs → sameElse s (f i a) fs) : sameElse s (forN n f t) fs :=
  forN_inv (fun a => sameElse s a fs) h hf

/-! ### Fields after the other ways of writing one -/

theorem State.rd_wrB_ne (s : State) {f g : Fld} (b : Bool) (h : g.key ≠ f.key) : (s.wrB f b).rd g = s.rd g := State.rd_wr_ne s _ h
theorem State.rd_wrI_ne (s : State) {f g : Fld} (v : Int) (h : g.key ≠ f.key) : (s.wrI f v).rd g = s.rd g := State.rd_wr_ne s _ h
theorem State.rd_inc_ne (s : State) {f g : Fld} (h : g.key ≠ f.key) : (s.inc f).rd g = s.rd g := State.rd_wr_ne s _ h
theorem State.rd_setRun_ne (s : State) {b : Blk} {w v : Nat} {g : Fld} (h : g.key ≠ (R.RUN (b.pg w)).key) :
    (s.setRun b w v).rd g = s.rd g := State.rd_wr_ne s _ h
theorem State.rd_setRun_same (s : State) (b : Blk) (w v : Nat) : (s.setRun b w v).rd (R.RUN (b.pg w)) = v % 8 := State.rd_wr_same s _ _
theorem State.run_setRun_same (s : State) (b : Blk) (w v : Nat) : (s.setRun b w v).run b w = v % 8 := State.rd_wr_same s _ _

theorem State.rd_inc_same (s : State) (f : Fld) : (s.inc f).rd f = (s.rd f + 1) % 2 ^ f.width := State.rd_wr_same s f _

/-- A 32-bit counter counts up to its greatest value. -/
theorem State.rd_count32 (s : State) {f : Fld} (h : f.width = 32) : (s.count f).rd f = min (s.rd f + 1) 4294967295 := by
  rw [State.rd_count_same, h]
  norm_num

/-! ### The check of coverage after a write (R395) -/

theorem sameElse.calCheck {s t : State} {fs : List Fld} (h : sameElse s t fs) : sameElse s t.calCheck (fs ++ calFlds) := by
  refine h.append ⟨fun f hf => ?_, fun k => by rw [State.calCheck_mem]⟩
  exact State.rd_calCheck t (hf _ (by decide)) (hf _ (by decide)) (hf _ (by decide))

theorem sameElse.answered {s t : State} {fs : List Fld} (h : sameElse s t fs) (path : Path) : sameElse s (t.answered path) fs :=
  h.of_eq (by simp) (by cases path <;> rfl) (by simp)

/-! ### A write that is refused as a whole (R55, R74, R75) -/

theorem Path.code_lt (path : Path) : Path.code path < 16 := by cases path <;> decide

/-- The fields of the log of bus errors. -/
def berrFlds : List Fld :=
  [R.SYS_BERR_CNT, R.SYS_BERR_ADDR_ADDR, R.SYS_BERR_INFO_NODE, R.SYS_BERR_INFO_WRITE, R.SYS_BERR_INFO_PATH, R.SYS_BERR_INFO_REASON]

/-- The log of a bus error: its fields, and nothing else. -/
theorem State.logBerr_spec (s : State) (a r : Nat) (write : Bool) (path : Path) (node : Nat) :
    let t := s.logBerr a r write path node
    sameElse s t berrFlds ∧ t.rd R.SYS_BERR_CNT = min (s.rd R.SYS_BERR_CNT + 1) 4294967295 ∧ t.rd R.SYS_BERR_ADDR_ADDR = a % 2097152 ∧
      t.rd R.SYS_BERR_INFO_REASON = r % 256 ∧ t.rd R.SYS_BERR_INFO_WRITE = b2n write ∧ t.rd R.SYS_BERR_INFO_PATH = Path.code path ∧
      t.out = s.out := by
  have hcode : Path.code path % 2 ^ R.SYS_BERR_INFO_PATH.width = Path.code path := Nat.mod_eq_of_lt (Path.code_lt path)
  have hframe : sameElse s (s.logBerr a r write path node) berrFlds :=
    ((((((sameElse.refl s _).count (by decide)).wr (by decide)).wr (by decide)).wrB (by decide)).wr (by decide)).wr (by decide)
  refine ⟨hframe, ?_, ?_, ?_, ?_, ?_, rfl⟩ <;>
    simp (disch := decide) only [State.logBerr, State.rd_wr_ne, State.rd_wrB_ne, State.rd_wrB_same, State.rd_wr_same, State.rd_count32, hcode]
  · rfl
  · rfl

/-- Settles O6: the refused request is the log of one bus error (`pathWrite_refused`), whatever command asked for it. -/
theorem refusedWriteOnlyLogs : Obligations.RefusedWriteOnlyLogs := by
  intro path addr data be a r s ho he c hc
  have hexec : exec c s = .next (s.pathWrite path addr data be) := by
    rcases List.mem_pair.mp hc with rfl | rfl <;> rfl
  obtain ⟨hframe, hcnt, haddr, hreason, hwrite, hpath, hout⟩ := s.logBerr_spec a r true path s.ownNode
  refine ⟨_, hexec, ?_⟩
  rw [State.pathWrite_refused ho he]
  cases path <;> exact ⟨hframe, hcnt, haddr, hreason, hwrite, hpath, by simp [hout]⟩

end Sys2Proof.Machine
end

section
/-! Bytes and dwords of memory after a write of several bytes, and what the gates of a page decide. -/

namespace Sys2Proof.Machine

/-! ### Little-endian numbers in memory (R55) -/

theorem State.wrLE_wf {s : State} (h : Memory.wf s.mem = true) (sp : Space) (off v n : Nat) : Memory.wf (s.wrLE sp off v n).mem = true := by
  induction n generalizing s off v with
  | zero => exact h
  | succ n ih => exact ih (memPut_wf h _ _) _ _

theorem State.build_wrLE (s : State) (sp : Space) (off v n : Nat) : (s.wrLE sp off v n).build = s.build := by
  induction n generalizing s off v with
  | zero => rfl
  | succ n ih => exact ih _ _ _

/-- What memory reads depends on the build and on memory alone. -/
theorem State.rdLE_congr {s t : State} (hb : t.build = s.build) (hm : t.mem = s.mem) (sp : Space) (off n : Nat) :
    t.rdLE sp off n = s.rdLE sp off n := by
  induction n generalizing off with
  | zero => rfl
  | succ n ih => simp only [State.rdLE, State.rd8, hb, hm, ih]

/-- A write of `n` bytes leaves every byte that is not among them. -/
theorem State.memGet_wrLE_ne (s : State) (sp : Space) (off v n : Nat) {k : Nat} (h : ∀ i < n, k ≠ sp.key (sp.fold s.build (off + i))) :
    memGet (s.wrLE sp off v n).mem k = memGet s.mem k := by
  induction n generalizing s off v with
  | zero => rfl
  | succ n ih =>
    refine (ih (s.wr8 sp off (BitVec.ofNat 8 v)) (off + 1) (v / 256) fun i hi => ?_).trans (s.memGet_wr8_ne sp off _ (h 0 (by omega)))
    rw [Nat.add_assoc, Nat.add_comm 1 i]
    exact h (i + 1) (by omega)

theorem Space.key_inj {sp : Space} {a b : Nat} (h : sp.key a = sp.key b) : a = b := by
  unfold Space.key at h
  omega

/-- Offsets of the space that are not folded (R144, R363) over a run of `n` bytes. -/
def Space.flat (sp : Space) (b : Build) (off n : Nat) : Prop := ∀ i < n, sp.fold b (off + i) = off + i

theorem Space.flat_succ {sp : Space} {b : Build} {off n : Nat} (h : sp.flat b off (n + 1)) : sp.flat b (off + 1) n := by
  intro i hi
  have := h (i + 1) (by omega)
  rwa [show off + 1 + i = off + (i + 1) by omega]

theorem Space.flat_window (b : Build) (off n : Nat) : Space.window.flat b off n := fun _ _ => rfl

/-- A number written reads back, cut to its bytes. -/
theorem State.rdLE_wrLE {s : State} (hm : Memory.wf s.mem = true) {sp : Space} {off n : Nat} (v : Nat) (hf : sp.flat s.build off n) :
    (s.wrLE sp off v n).rdLE sp off n = v % 256 ^ n := by
  induction n generalizing s off v with
  | zero => simp [State.rdLE, Nat.mod_one]
  | succ n ih =>
    have hbuild : (s.wrLE sp off v (n + 1)).build = s.build := State.build_wrLE s sp off v (n + 1)
    have hlow : (s.wrLE sp off v (n + 1)).rd8 sp off = BitVec.ofNat 8 v := by
      unfold State.rd8
      rw [hbuild]
      refine (State.memGet_wrLE_ne (s.wr8 sp off (BitVec.ofNat 8 v)) sp (off + 1) (v / 256) n fun i hi => ?_).trans
        (memGet_memPut_same hm _ _)
      intro hk
      have h0 := hf 0 (by omega)
      have h1 : sp.fold s.build (off + 1 + i) = off + 1 + i := Space.flat_succ hf i hi
      have := Space.key_inj hk
      rw [show (s.wr8 sp off (BitVec.ofNat 8 v)).build = s.build from rfl, h1] at this
      rw [Nat.add_zero] at h0
      omega
    have htail : (s.wrLE sp off v (n + 1)).rdLE sp (off + 1) n = v / 256 % 256 ^ n :=
      ih (s := s.wr8 sp off (BitVec.ofNat 8 v)) (memPut_wf hm _ _) (v / 256) (Space.flat_succ hf)
    rw [State.rdLE, hlow, htail, BitVec.toNat_ofNat, pow_succ' 256 n]
    exact Nat.mod_mul.symm

/-- A dword written to the memory window reads back. -/
theorem State.rd32_wr32_window (s : State) (hm : Memory.wf s.mem = true) (a : Nat) {v : Nat} (hv : v < 4294967296) :
    (s.wr32 .window a v).rd32 .window a = v := by
  unfold State.wr32 State.rd32
  rw [State.rdLE_wrLE hm v (Space.flat_window _ _ _)]
  exact Nat.mod_eq_of_lt hv

/-- A dword written to the memory window leaves every other byte. -/
theorem State.memGet_wr32_window (s : State) (a v : Nat) {k : Nat} (h : k < Space.window.key a ∨ Space.window.key a + 4 ≤ k) :
    memGet (s.wr32 .window a v).mem k = memGet s.mem k := by
  refine State.memGet_wrLE_ne s .window a v 4 fun i hi => ?_
  simp only [Space.key, Space.fold] at h ⊢
  omega

theorem State.rd_wr32 (s : State) (sp : Space) (a v : Nat) (f : Fld) : (s.wr32 sp a v).rd f = s.rd f := State.rd_wrLE s sp a v 4 f

theorem State.wf_mem {s : State} (h : s.wf = true) : Memory.wf s.mem = true := by
  unfold State.wf at h
  exact (Bool.and_eq_true _ _ ▸ h).1

@[simp] theorem State.rd_soil (s : State) (f : Fld) : s.soil.rd f = s.rd f := rfl
@[simp] theorem State.soil_mem (s : State) : s.soil.mem = s.mem := rfl
@[simp] theorem State.soil_build (s : State) : s.soil.build = s.build := rfl
@[simp] theorem State.soil_dirty (s : State) : s.soil.cck.dirty = true := rfl

/-! ### An ignored write (R59, R65, R71) -/

/-- The counter that an ignored write of a page counts in. -/
def ignCnt (pg reason : Nat) : Fld := if reason = rLocked ∨ reason = rWriteOnce then R.EVT_LOCK_IGN pg else R.EVT_CFG_IGN pg

theorem ignCnt_width (pg reason : Nat) : (ignCnt pg reason).width = 32 := by
  unfold ignCnt
  split <;> rfl

/-- The fields that an ignored write of a page changes. -/
def ignFlds (pg reason : Nat) : List Fld :=
  [ignCnt pg reason, R.IGN_OFFSET pg, R.IGN_VIEW pg, R.IGN_PATH pg, R.IGN_REASON pg]

theorem State.ignored_eq (s : State) (pg off view path reason : Nat) :
    s.ignored pg off view path reason =
      ((((s.count (ignCnt pg reason)).wr (R.IGN_OFFSET pg) off).wr (R.IGN_VIEW pg) view).wr (R.IGN_PATH pg) path).wr (R.IGN_REASON pg)
        reason := by
  unfold State.ignored ignCnt
  split <;> rfl

theorem State.ignored_frame (s : State) (pg off view path reason : Nat) :
    sameElse s (s.ignored pg off view path reason) (ignFlds pg reason) := by
  rw [State.ignored_eq]
  exact (((((sameElse.refl s _).count (by simp [ignFlds])).wr (by simp [ignFlds])).wr (by simp [ignFlds])).wr (by simp [ignFlds])).wr
    (by simp [ignFlds])

theorem ignCnt_key (pg reason : Nat) : (ignCnt pg reason).key = pg * 32 + 384 ∨ (ignCnt pg reason).key = pg * 32 + 512 := by
  unfold ignCnt
  split <;> simp only [R.EVT_LOCK_IGN, R.EVT_CFG_IGN, Fld.key] <;> omega

theorem State.rd_ignored_count (s : State) (pg off view path reason : Nat) :
    (s.ignored pg off view path reason).rd (ignCnt pg reason) = min (s.rd (ignCnt pg reason) + 1) 4294967295 := by
  have hkey := ignCnt_key pg reason
  have hne : ∀ f ∈ [R.IGN_OFFSET pg, R.IGN_VIEW pg, R.IGN_PATH pg, R.IGN_REASON pg], (ignCnt pg reason).key ≠ f.key := by
    simp only [List.forall_mem_cons, R.IGN_OFFSET, R.IGN_VIEW, R.IGN_PATH, R.IGN_REASON, Fld.key, List.not_mem_nil, false_imp_iff,
      implies_true, and_true] at hkey ⊢
    omega
  simp only [List.forall_mem_cons] at hne
  rw [State.ignored_eq, State.rd_wr_ne _ _ hne.2.2.2.1, State.rd_wr_ne _ _ hne.2.2.1, State.rd_wr_ne _ _ hne.2.1, State.rd_wr_ne _ _ hne.1,
    State.rd_count32 _ (ignCnt_width _ _)]

theorem State.rd_ignored_reason (s : State) (pg off view path reason : Nat) :
    (s.ignored pg off view path reason).rd (R.IGN_REASON pg) = reason % 256 := by
  rw [State.ignored_eq, State.rd_wr_same]
  rfl

/-! ### The loop program memory (R87) -/

theorem regionAt_loopProg {a : Nat} (hlo : 0x100000 ≤ a) (hhi : a < 0x110000) : regionAt a = some .loopProg := by
  unfold regionAt
  rw [if_neg (by omega), if_pos hhi]

theorem State.writeDword_loopProg {s : State} {path : Path} {a v : Nat} (hlo : 0x100000 ≤ a) (hhi : a < 0x110000) :
    s.writeDword path a v = s.gatedMem .LOP 0 path a v := by
  unfold State.writeDword
  rw [if_neg (by omega), regionAt_loopProg hlo hhi]
  rfl

/-- The gate of a page whose block is stopped, of one whose block drains, and of one that is enabled (R65). -/
theorem State.pageGate_stopped {s : State} {b : Blk} {w : Nat} (he : s.rd (R.ENABLE (b.pg w)) ≠ 1)
    (hr : s.run b w = runDisabled ∨ s.run b w = runDrained) : s.pageGate b w = none := by
  have hd : s.run b w ≠ runDraining := by rcases hr with h | h <;> rw [h] <;> decide
  have hopen : (s.enabled b w || !(decide (s.run b w = runDisabled) || decide (s.run b w = runDrained))) = false := by
    simp only [State.enabled, State.on, he, decide_false, Bool.false_or, Bool.not_eq_false', Bool.or_eq_true, decide_eq_true_eq]
    exact hr
  unfold State.pageGate
  simp only [hd, if_false, hopen, Bool.false_eq_true, ite_self]

theorem State.pageGate_draining {s : State} {b : Blk} {w : Nat} (ha : alwaysOn b = false) (hr : s.run b w = runDraining) :
    s.pageGate b w = some rDraining := by
  simp [State.pageGate, ha, hr]

theorem State.pageGate_enabled {s : State} {b : Blk} {w : Nat} (ha : alwaysOn b = false) (he : s.rd (R.ENABLE (b.pg w)) = 1)
    (hr : s.run b w ≠ runDraining) : s.pageGate b w = some rEnabled := by
  simp [State.pageGate, ha, hr, State.enabled, State.on, he]

/-- Settles O10: the loop program memory is behind the gate of LOP, which is open while the page is stopped and closed while it runs. -/
theorem loopProgramTakesWritesWhileStopped : Obligations.LoopProgramTakesWritesWhileStopped := by
  intro path a v s hwf hlo hhi hal ho he hlock
  have hwrite : s.pathWrite path a [v] 15 = (s.gatedMem .LOP 0 path a v.toNat).answered path := by
    rw [State.pathWrite_word ho he, Nat.div_mul_cancel (Nat.dvd_of_mod_eq_zero hal), State.writeDword_loopProg hlo hhi]
  have hunlocked : s.on (R.LOCK (Blk.LOP.pg 0)) = false := by simp [State.on, hlock]
  refine ⟨fun hdis hrun => completes_eq rfl hwrite ?_, fun hen hrun => completes_eq rfl hwrite ?_⟩
  · have hgate : s.gatedMem .LOP 0 path a v.toNat = (s.wr32 .window a v.toNat).soil := by
      simp [State.gatedMem, hunlocked, State.pageGate_stopped (by omega : s.rd (R.ENABLE (Blk.LOP.pg 0)) ≠ 1) (.inl hrun)]
    rw [hgate]
    refine ⟨?_, fun f => ?_, by simp, fun k hk => ?_⟩
    · refine Eq.trans ?_ (s.rd32_wr32_window (State.wf_mem hwf) a v.isLt)
      exact State.rdLE_congr (by rw [State.answered_build, State.soil_build]) (by rw [State.answered_mem, State.soil_mem]) _ _ _
    · rw [State.rd_answered, State.rd_soil, State.rd_wr32]
    · rw [State.answered_mem, State.soil_mem]
      exact s.memGet_wr32_window a _ hk
  · have hgate : s.gatedMem .LOP 0 path a v.toNat = s.ignored (Blk.LOP.pg 0) 0 0 (Path.code path) rEnabled := by
      simp [State.gatedMem, hunlocked, State.pageGate_enabled (w := 0) rfl hen (by rw [hrun]; decide)]
    rw [hgate]
    refine ⟨fun k => ?_, ?_, ?_⟩
    · rw [State.answered_mem]
      exact (s.ignored_frame _ _ _ _ _).2 k
    · rw [State.rd_answered, State.rd_ignored_reason]
      rfl
    · rw [State.rd_answered]
      exact s.rd_ignored_count _ _ _ _ rEnabled

end Sys2Proof.Machine
end

section
/-! A write of a calibration counter in a state whose run has lost its coverage. -/

namespace Sys2Proof.Machine

/-- A tile whose register bus is open and whose calibration shows a run in progress, with the CAL page not enabled. -/
def runWithoutCal : State :=
  { State.reset with bus := { State.reset.bus with isOpen := true }, regs := [(R.CAL_STATE_PHASE.key, cpMeasure)] }

/-- A base write of 0 to CAL_EVT_ABORT clears the counter, and the check of coverage behind the write (R395) then counts the run it abandons. -/
theorem rd_abort_of_clear : (runWithoutCal.pathWrite .mgt (viewAddr R.CAL_EVT_ABORT .base) [0] 15).rd R.CAL_EVT_ABORT = 1 := by
  decide +kernel

/-- Refutes O7: a base write of 0 to the CT field CAL_EVT_ABORT does not leave it 0 where the write's check of coverage (R395) abandons a run,
since that counts in this very field. -/
theorem not_viewsOfARegisterWrite : ¬ Obligations.ViewsOfARegisterWrite := by
  rintro ⟨hplain, -, -, -⟩
  have hreach : runWithoutCal.reaches .mgt R.CAL_EVT_ABORT .base := by
    unfold State.reaches
    decide +kernel
  have hpage : plainRegister runWithoutCal R.CAL_EVT_ABORT .CAL 0 := by
    unfold plainRegister
    decide +kernel
  obtain ⟨-, -, -, hct⟩ := hplain .mgt .base 0 .CAL 0 R.CAL_EVT_ABORT 0 0 0 runWithoutCal hreach hpage (by decide +kernel) (by decide)
    (by decide) (by decide) (by decide)
  obtain ⟨t, hnext, hzero, -⟩ := (hct rfl).1 rfl rfl
  obtain rfl : _ = t := Host.Outcome.next.inj hnext
  rw [rd_abort_of_clear] at hzero
  exact absurd hzero (by decide)

end Sys2Proof.Machine
end

section
/-! The command slots of the DRAM channels: what they may change of the device (R365, R370 to R372). -/

namespace Sys2Proof.Machine

/-- What the DRAM channels put out: a command, or an error response. -/
def dramOut (x : Out) : Prop := (∃ j name a, x = Out.dramCmd j name a) ∨ ∃ r a, x = Out.dramErr r a

/-- `t` differs from `s` in what the command slots of the DRAM channels may change: their own records and fields, and the free values used;
what they put out stands before what was put out. -/
structure DramOnly (s t : State) : Prop where
  rest : ∃ r d o n, t = { s with regs := r, eng := { s.eng with dram := d }, out := o, freeCtr := n }
  frame : sameElse s t drcFlds
  out : ∃ l, t.out = l ++ s.out ∧ ∀ x ∈ l, dramOut x

theorem DramOnly.refl (s : State) : DramOnly s s := ⟨⟨_, _, _, _, rfl⟩, .refl s _, [], rfl, by simp⟩

theorem DramOnly.trans {s t u : State} (h : DramOnly s t) (k : DramOnly t u) : DramOnly s u := by
  obtain ⟨r, d, o, n, rfl⟩ := h.rest
  obtain ⟨r', d', o', n', hu⟩ := k.rest
  obtain ⟨l, hl, hlc⟩ := h.out
  obtain ⟨l', hl', hlc'⟩ := k.out
  refine ⟨⟨r', d', o', n', hu⟩, h.frame.trans k.frame, l' ++ l, by rw [hl', hl, List.append_assoc], fun x hx => ?_⟩
  rcases List.mem_append.mp hx with hx | hx
  · exact hlc' x hx
  · exact hlc x hx

theorem DramOnly.wr (s : State) {f : Fld} (v : Nat) (hf : f ∈ drcFlds) : DramOnly s (s.wr f v) :=
  ⟨⟨_, s.eng.dram, _, _, rfl⟩, (sameElse.refl s _).wr hf, [], rfl, by simp⟩

theorem DramOnly.setDch (s : State) (j : Nat) (x : DramCh) : DramOnly s (s.setDch j x) :=
  ⟨⟨_, _, _, _, rfl⟩, (sameElse.refl s _).of_eq rfl rfl rfl, [], rfl, by simp⟩

theorem DramOnly.cmd (s : State) (j : Nat) (name : String) (a : Nat) : DramOnly s (s.emit (.dramCmd j name a)) :=
  ⟨⟨_, s.eng.dram, _, _, rfl⟩, (sameElse.refl s _).of_eq rfl rfl rfl, [.dramCmd j name a], rfl, by simp [dramOut]⟩

theorem DramOnly.err (s : State) (r a : Nat) : DramOnly s (s.emit (.dramErr r a)) :=
  ⟨⟨_, s.eng.dram, _, _, rfl⟩, (sameElse.refl s _).of_eq rfl rfl rfl, [.dramErr r a], rfl, by simp [dramOut]⟩

theorem DramOnly.useFree (s : State) : DramOnly s s.useFree :=
  ⟨⟨_, s.eng.dram, _, _, rfl⟩, (sameElse.refl s _).of_eq rfl rfl rfl, [], rfl, by simp⟩

theorem DramOnly.ite {s t u : State} {c : Prop} [Decidable c] (ht : c → DramOnly s t) (hu : ¬c → DramOnly s u) :
    DramOnly s (if c then t else u) := by
  split
  · exact ht ‹_›
  · exact hu ‹_›

theorem DramOnly.forN {n : Nat} {f : Nat → State → State} (s : State) (hf : ∀ i < n, ∀ a, DramOnly a (f i a)) :
    DramOnly s (forN n f s) := by
  have hlist : ∀ l : List Nat, (∀ i ∈ l, i < n) → ∀ t, DramOnly s t → DramOnly s (l.foldl (fun a i => f i a) t) := by
    intro l
    induction l with
    | nil => exact fun _ _ h => h
    | cons i l ih => exact fun hl t h => ih (fun k hk => hl k (by simp [hk])) _ (h.trans (hf i (hl i (by simp)) t))
  exact hlist _ (fun i hi => List.mem_range.mp hi) s (.refl s)

/-! ### The fields that the channels' slots change -/

theorem mem_drcFlds {j : Nat} (hj : j < 4) {f : Fld}
    (hf : f ∈ [R.DRC_CH_EVT_ERRRSP j, R.DRC_CH_EVT_THROTTLE j, R.DRC_CH_EVT_RFM j, R.DRC_CH_STATE_STATE j, R.DRC_THROTTLED_REQ (j / 2)]) :
    f ∈ drcFlds :=
  List.mem_cons_of_mem _ (List.mem_flatMap.mpr ⟨j, List.mem_range.mpr hj, hf⟩)

theorem channels_le (b : Build) : channels b ≤ 4 := by cases b <;> decide

/-! ### The slots of a channel (R364, R365, R370 to R372) -/

theorem State.activate_dramOnly (s : State) {j : Nat} (hj : j < 4) (r : DramReq) : DramOnly s (s.activate j r) := by
  unfold State.activate
  extract_lets c bank x full a s0 held starts thr roll s1 s2 lim s3
  have h0 : DramOnly s s0 := .ite (fun _ => .useFree s) fun _ => .refl s
  have h1 : DramOnly s s1 := h0.trans (.setDch _ _ _)
  have hcount : DramOnly s1 (s1.count (R.DRC_CH_EVT_THROTTLE j)) := .wr _ _ (mem_drcFlds hj (by simp))
  have hshow : DramOnly (s1.count (R.DRC_CH_EVT_THROTTLE j)) ((s1.count (R.DRC_CH_EVT_THROTTLE j)).showThrottled (j / 2)) :=
    .wr _ _ (mem_drcFlds hj (by simp))
  have h2 : DramOnly s s2 := .ite (fun _ => h1.trans (hcount.trans hshow)) fun _ => h1
  have hrfm : DramOnly (s2.emit (.dramCmd j "RFMab" 0)) ((s2.emit (.dramCmd j "RFMab" 0)).count (R.DRC_CH_EVT_RFM j)) :=
    .wr _ _ (mem_drcFlds hj (by simp))
  have h3 : DramOnly s s3 := h2.trans ((DramOnly.cmd _ _ _ _).trans (hrfm.trans (.setDch _ _ _)))
  exact .ite (fun _ => h3.trans (.setDch _ _ _)) fun _ => h2

theorem State.dramServe_dramOnly (s : State) {j : Nat} (hj : j < 4) (q : DQueued) : DramOnly s (s.dramServe j q) := by
  unfold State.dramServe
  extract_lets x drop s1 s2
  have h1 : DramOnly s s1 := .setDch _ _ _
  have h2 : DramOnly s s2 := .ite (fun _ => h1) fun _ => h1.trans (s1.activate_dramOnly hj _)
  exact .ite (fun _ => h2.trans (.cmd _ _ _ _)) fun _ => h2.trans ((DramOnly.setDch _ _ _).trans (.cmd _ _ _ _))

theorem State.dramSchedule_dramOnly (s : State) {j : Nat} (hj : j < 4) (n : Nat) : DramOnly s (s.dramSchedule j n) := by
  induction n generalizing s with
  | zero => exact .refl s
  | succ n ih =>
    unfold State.dramSchedule
    split
    · exact .refl s
    · split
      · exact .refl s
      · exact (s.dramServe_dramOnly hj _).trans (ih _)

theorem State.dramRun_dramOnly (s : State) {j : Nat} (hj : j < 4) : DramOnly s (s.dramRun j) :=
  .ite (fun _ => s.dramSchedule_dramOnly hj 200) fun _ => .refl s

/-- The command slots of the channels change what is theirs, and nothing else. -/
theorem State.dramSlots_dramOnly (s : State) : DramOnly s s.dramSlots :=
  .forN s fun _ hi a => a.dramRun_dramOnly (Nat.lt_of_lt_of_le hi (channels_le _))

theorem DramOnly.build {s t : State} (h : DramOnly s t) : t.build = s.build := by obtain ⟨_, _, _, _, rfl⟩ := h.rest; rfl
theorem DramOnly.mem {s t : State} (h : DramOnly s t) : t.mem = s.mem := by obtain ⟨_, _, _, _, rfl⟩ := h.rest; rfl
theorem DramOnly.pins {s t : State} (h : DramOnly s t) : t.pins = s.pins := by obtain ⟨_, _, _, _, rfl⟩ := h.rest; rfl
theorem DramOnly.nowNs {s t : State} (h : DramOnly s t) : t.nowNs = s.nowNs := by obtain ⟨_, _, _, _, rfl⟩ := h.rest; rfl
theorem DramOnly.pending {s t : State} (h : DramOnly s t) : t.pending = s.pending := by obtain ⟨_, _, _, _, rfl⟩ := h.rest; rfl
theorem DramOnly.read {s t : State} (h : DramOnly s t) {f : Fld} (hf : ∀ g ∈ drcFlds, f.key ≠ g.key) : t.rd f = s.rd f := h.frame.1 f hf

/-! ### The bursts that an engine asks for (R364, R375, R400) -/

theorem DramOnly.forL {β : Type} {l : List β} {f : β → State → State} (s : State) (hf : ∀ b a, DramOnly a (f b a)) :
    DramOnly s (forL l f s) :=
  forL_inv (fun a => DramOnly s a) (.refl s) fun b a h => h.trans (hf b a)

theorem chanOf_lt (b : Build) (a : Nat) : chanOf b a < 4 := by
  cases b <;> simp only [chanOf, channels] <;> omega

theorem State.selfExit_dramOnly (s : State) {j : Nat} (hj : j < 4) : DramOnly s (s.selfExit j) :=
  .ite (fun _ => (DramOnly.wr s _ (mem_drcFlds hj (by simp))).trans (.cmd _ _ _ _)) fun _ => .refl s

theorem State.dramPost_dramOnly (s : State) (tag requester a : Nat) (write : Bool) : DramOnly s (s.dramPost tag requester a write) := by
  have hj := chanOf_lt s.build a
  unfold State.dramPost
  extract_lets j s1 x r
  have h1 : DramOnly s s1 :=
    .ite (fun _ => (s.selfExit_dramOnly hj).trans (.wr _ _ (List.mem_cons_self ..))) fun _ => .refl s
  exact .ite (fun _ => (DramOnly.wr s _ (mem_drcFlds (j := j) hj (by simp))).trans (.err _ _ _)) fun _ => h1.trans (.setDch _ _ _)

theorem State.dramAdmit_dramOnly (s : State) : DramOnly s s.dramAdmit := .forN s fun _ _ _ => .setDch _ _ _

theorem State.dramUseAs_dramOnly (s : State) (tag requester a n : Nat) (write : Bool) :
    DramOnly s (s.dramUseAs tag requester a n write) :=
  (DramOnly.forN s fun _ _ t => t.dramPost_dramOnly _ _ _ _).trans (State.dramAdmit_dramOnly _)

theorem State.dramUse_dramOnly (s : State) (requester a n : Nat) (write : Bool) : DramOnly s (s.dramUse requester a n write) :=
  s.dramUseAs_dramOnly 0 requester a n write

theorem State.dramUses_dramOnly (s : State) (requester : Nat) (l : List (Nat × Nat)) (write : Bool) :
    DramOnly s (s.dramUses requester l write) :=
  .forL s fun _ t => t.dramUse_dramOnly _ _ _ _

/-! ### A channel that holds no request -/

theorem State.dramPick_idle {s : State} {j : Nat} (hr : (s.dch j).reads = []) (hw : (s.dch j).writes = []) : s.dramPick j = none := by
  simp [State.dramPick, State.dramCandidates, hr, hw, oldestReq]

/-- The command slots of a channel without a request have nothing to do. -/
theorem State.dramRun_idle {s : State} {j : Nat} (h : s.chIdle j = true) : s.dramRun j = s := by
  simp only [State.chIdle, Bool.and_eq_true, List.isEmpty_iff] at h
  obtain ⟨⟨⟨⟨-, hr⟩, hw⟩, -⟩, -⟩ := h
  unfold State.dramRun State.dramSchedule
  rw [State.dramPick_idle hr hw]
  split
  · split <;> rfl
  · rfl

theorem State.dramSlots_quiet {s : State} (h : s.dramQuiet) : s.dramSlots = s := by
  have hlist : ∀ l : List Nat, (∀ j ∈ l, j < channels s.build) → l.foldl (fun t j => t.dramRun j) s = s := by
    intro l
    induction l with
    | nil => exact fun _ => rfl
    | cons j l ih =>
      intro hl
      rw [List.foldl_cons, State.dramRun_idle (h j (hl j (by simp)))]
      exact ih fun k hk => hl k (by simp [hk])
  exact hlist _ fun j hj => List.mem_range.mp hj

end Sys2Proof.Machine
end

section
/-! A step on an empty queue: what the parts of a CTL clock leave alone. -/

namespace Sys2Proof.Machine

/-- Settles O1: `step` by its equation on a queue that is not empty. -/
theorem stepRunsTheCommandInFront : Obligations.StepRunsTheCommandInFront := by
  intro c rest s h
  unfold step
  rw [h]

/-- Settles O3: the two states after reset differ in the build, and list the straps' fields in the order of their keys. -/
theorem resetStoresAreCanonical : Obligations.ResetStoresAreCanonical := by
  have hwf : ∀ b, (State.fresh b Pins.atReset).wf = true := fun b => by cases b <;> decide
  exact ⟨hwf .tile, hwf .head, rfl, rfl, rfl, rfl⟩

/-! ### The parts of a clock (R303, R412, R420) -/

/-- `t` differs from `s` in registers alone, and the power state is what it was. -/
structure RegsOnly (s t : State) : Prop where
  rest : ∃ r, t = { s with regs := r }
  pstate : t.pstate = s.pstate

theorem RegsOnly.refl (s : State) : RegsOnly s s := ⟨⟨_, rfl⟩, rfl⟩

theorem RegsOnly.trans {s t u : State} (h : RegsOnly s t) (k : RegsOnly t u) : RegsOnly s u := by
  obtain ⟨r, rfl⟩ := h.rest
  obtain ⟨r', hu⟩ := k.rest
  exact ⟨⟨r', hu⟩, k.pstate.trans h.pstate⟩

theorem RegsOnly.wr (s : State) {f : Fld} (v : Nat) (h : R.PWR_STATE_STATE.key ≠ f.key) : RegsOnly s (s.wr f v) :=
  ⟨⟨_, rfl⟩, s.rd_wr_ne v h⟩

theorem State.laneTime_regsOnly (s : State) (k n : Nat) : RegsOnly s (s.laneTime k n) := by
  have hlane : ∀ f ∈ [R.LNE_RES_TX_ACTIVE k, R.LNE_RES_TX_QUIET k, R.LNE_RES_TX_SLEEP k, R.LNE_RES_TX_OFF k,
      R.LNE_RES_RX_ACTIVE k, R.LNE_RES_RX_QUIET k, R.LNE_RES_RX_SLEEP k, R.LNE_RES_RX_OFF k], R.PWR_STATE_STATE.key ≠ f.key := by
    simp only [List.forall_mem_cons, Fld.key, R.PWR_STATE_STATE, R.LNE_RES_TX_ACTIVE, R.LNE_RES_TX_QUIET, R.LNE_RES_TX_SLEEP, R.LNE_RES_TX_OFF,
      R.LNE_RES_RX_ACTIVE, R.LNE_RES_RX_QUIET, R.LNE_RES_RX_SLEEP, R.LNE_RES_RX_OFF, List.not_mem_nil, false_imp_iff, implies_true, and_true]
    omega
  unfold State.laneTime
  extract_lets tx rx
  refine RegsOnly.trans (.wr s _ (hlane tx ?_)) (.wr _ _ (hlane rx ?_))
  · dsimp only [tx]
    split <;> simp
  · dsimp only [rx]
    split <;> simp

theorem resF_key (st : Nat) : R.PWR_STATE_STATE.key ≠ (resF st).key := by
  unfold resF
  split <;> decide

/-- The judgement of a calibration run, and the loop engine's counter, leave the pads, time, memory, the channels and what was put out. -/
theorem State.calJudge_rest (s : State) : ∃ r c, s.calJudge = { s with regs := r, eng := { s.eng with cal := c } } := by
  unfold State.calJudge State.calDrop
  split
  · exact ⟨s.regs, s.eng.cal, rfl⟩
  · split
    · exact ⟨_, s.eng.cal, rfl⟩
    · exact ⟨_, _, rfl⟩

theorem State.calJudge_pstate (s : State) : s.calJudge.pstate = s.pstate := by
  unfold State.calJudge State.pstate
  split
  · rfl
  · split
    · exact State.rd_wr_ne _ _ (by decide)
    · simp (disch := decide) only [State.rd_count_ne, State.rd_wr_ne]
      rfl

theorem State.loopClock_rest (s : State) : ∃ l, s.loopClock = { s with eng := { s.eng with loop := l } } := by
  unfold State.loopClock
  split
  · exact ⟨_, rfl⟩
  · exact ⟨s.eng.loop, rfl⟩

theorem State.loopClock_pstate (s : State) : s.loopClock.pstate = s.pstate := by obtain ⟨l, h⟩ := s.loopClock_rest; rw [h]; rfl

/-- Before the command slots of the channels, a clock has changed nothing of the device but what is listed here. -/
theorem State.tick_parts (s : State) :
    ∃ u : State, (s.tick = u.dramSlots ∨ s.tick = u.dramSlots.wr R.PWR_STATE_PHASE ppIdle) ∧ u.nowNs = s.nowNs + s.ctlNs ∧ u.build = s.build ∧
      u.pending = s.pending ∧ u.out = s.out ∧ u.mem = s.mem ∧ u.eng.dram = s.eng.dram ∧
      u.pins.gpioIn = (if s.pstate = pSaddle ∨ s.pstate = pValley then s.pins.gpioIn else Config.gpioPads (s.nowNs + s.ctlNs) % 256) := by
  unfold State.tick
  extract_lets n t w b bo s0 s1 s2 s3
  have h1 : RegsOnly s0 s1 := by
    dsimp only [s1]
    split
    · exact .refl _
    · exact forN_inv (fun a => RegsOnly s0 a) (.refl _) fun k a h => h.trans (a.laneTime_regsOnly k n)
  have h2 : RegsOnly s0 s2 := by
    dsimp only [s2]
    split
    · exact h1.trans (.wr _ _ (resF_key _))
    · exact h1
  obtain ⟨r, hs2⟩ := h2.rest
  obtain ⟨r', c, hjudge⟩ := s2.calJudge_rest
  obtain ⟨l, hclock⟩ := s2.calJudge.loopClock_rest
  have hp : s2.calJudge.loopClock.pstate = s.pstate := by
    rw [State.loopClock_pstate, State.calJudge_pstate, h2.pstate]
    rfl
  have hu : s2.calJudge.loopClock = { s0 with regs := r', eng := { s0.eng with cal := c, loop := l } } := by
    rw [hclock, hjudge, hs2]
  refine ⟨s2.calJudge.loopClock.gpioSample, (ite_eq_or_eq _ _ _).symm, ?_⟩
  unfold State.gpioSample
  rw [hp]
  by_cases hstands : s.pstate = pSaddle ∨ s.pstate = pValley
  · simp only [hstands, decide_eq_true_eq, Bool.or_eq_true, if_true, hu]
    exact ⟨rfl, rfl, rfl, rfl, rfl, rfl, rfl⟩
  · simp only [hstands, decide_eq_true_eq, Bool.or_eq_true, if_false, hu]
    exact ⟨rfl, rfl, rfl, rfl, rfl, rfl, rfl⟩

theorem State.dramQuiet_congr {s u : State} (hb : u.build = s.build) (hd : u.eng.dram = s.eng.dram) (h : s.dramQuiet) : u.dramQuiet := by
  intro j hj
  have hch : u.dch j = s.dch j := by simp only [State.dch, hd]
  have := h j (hb ▸ hj)
  simp only [State.chIdle, hch] at this ⊢
  exact this

/-- Settles O2: a clock is its parts (`tick_parts`), the command slots of the channels, which leave all that the statement names
(`dramSlots_dramOnly`), and the phase that has ended. -/
theorem emptyQueueIdlesOneClock : Obligations.EmptyQueueIdlesOneClock := by
  intro s hs
  obtain ⟨u, htick, hnow, hbuild, hpend, hout, hmem, hdram, hgpio⟩ := s.tick_parts
  have hd := u.dramSlots_dramOnly
  have hns : s.ctlNs = if s.rd R.CLK_SEL_CUR = 1 then 4 else 5 := rfl
  obtain ⟨l, hl, -⟩ := hd.out
  have hpins : ∀ t : State, t.nowNs = u.nowNs → t.pins = u.pins → t.pins.gpioIn =
      (if s.pstate = pSaddle ∨ s.pstate = pValley then s.pins.gpioIn else Config.gpioPads t.nowNs % 256) := by
    intro t ht hp
    rw [hp, ht, hgpio, hnow]
  refine ⟨s.tick, by unfold step; rw [hs], ?_⟩
  have hquiet : s.dramQuiet → u.dramSlots = u := fun h => State.dramSlots_quiet (State.dramQuiet_congr hbuild hdram h)
  rcases htick with h | h <;> rw [h]
  · refine ⟨by rw [hd.nowNs, hnow, hns], hd.build.trans hbuild, by rw [hd.pending, hpend, hs], ⟨l, by rw [hl, hout]⟩, hpins _ hd.nowNs hd.pins, fun hq => ?_⟩
    rw [hquiet hq]
    exact ⟨hout, hmem⟩
  · simp only [State.wr_nowNs, State.wr_build, State.wr_pending, State.wr_out, State.wr_pins, State.wr_mem]
    refine ⟨by rw [hd.nowNs, hnow, hns], hd.build.trans hbuild, by rw [hd.pending, hpend, hs], ⟨l, by rw [hl, hout]⟩, hpins _ hd.nowNs hd.pins, fun hq => ?_⟩
    rw [hquiet hq]
    exact ⟨hout, hmem⟩

end Sys2Proof.Machine
end

section
/-! Cells that a node originates, events that it raises, and giving up: what they may change of the device (R294, R319, R341 to R345). -/

namespace Sys2Proof.Machine

/-- `t` differs from `s` in what sending cells and recording events may change: registers, of which those of `fs` alone, the ports and their
sequence numbers, the host interface, what was put out and the free values used. -/
structure Sends (fs : List Fld) (s t : State) : Prop where
  rest : ∃ r p q h o n, t = { s with regs := r, ports := p, seqs := q, host := h, out := o, freeCtr := n }
  frame : sameElse s t fs

theorem Sends.refl (fs : List Fld) (s : State) : Sends fs s s := ⟨⟨_, _, _, _, _, _, rfl⟩, .refl s fs⟩

theorem Sends.trans {fs : List Fld} {s t u : State} (h : Sends fs s t) (k : Sends fs t u) : Sends fs s u := by
  obtain ⟨_, _, _, _, _, _, rfl⟩ := h.rest
  obtain ⟨_, _, _, _, _, _, hu⟩ := k.rest
  exact ⟨⟨_, _, _, _, _, _, hu⟩, h.frame.trans k.frame⟩

theorem Sends.mono {fs gs : List Fld} {s t : State} (h : Sends fs s t) (hsub : fs ⊆ gs) : Sends gs s t := ⟨h.rest, h.frame.mono hsub⟩

theorem Sends.wr {fs : List Fld} (s : State) {f : Fld} (v : Nat) (hf : f ∈ fs) : Sends fs s (s.wr f v) :=
  ⟨⟨_, _, _, _, _, _, rfl⟩, (sameElse.refl s _).wr hf⟩

/-- An update of the ports, the sequence numbers, the host interface, what was put out and the free values used. -/
theorem Sends.upd (fs : List Fld) (s : State) (p q h o n) :
    Sends fs s { s with ports := p, seqs := q, host := h, out := o, freeCtr := n } :=
  ⟨⟨_, _, _, _, _, _, rfl⟩, (sameElse.refl s _).of_eq rfl rfl rfl⟩

theorem Sends.ite {fs : List Fld} {s t u : State} {c : Prop} [Decidable c] (ht : c → Sends fs s t) (hu : ¬c → Sends fs s u) :
    Sends fs s (if c then t else u) := by
  split
  · exact ht ‹_›
  · exact hu ‹_›

theorem Sends.build {fs : List Fld} {s t : State} (h : Sends fs s t) : t.build = s.build := by obtain ⟨_, _, _, _, _, _, rfl⟩ := h.rest; rfl
theorem Sends.mem {fs : List Fld} {s t : State} (h : Sends fs s t) : t.mem = s.mem := by obtain ⟨_, _, _, _, _, _, rfl⟩ := h.rest; rfl
theorem Sends.cck {fs : List Fld} {s t : State} (h : Sends fs s t) : t.cck = s.cck := by obtain ⟨_, _, _, _, _, _, rfl⟩ := h.rest; rfl
theorem Sends.cairn {fs : List Fld} {s t : State} (h : Sends fs s t) : t.cairn = s.cairn := by obtain ⟨_, _, _, _, _, _, rfl⟩ := h.rest; rfl
theorem Sends.epc {fs : List Fld} {s t : State} (h : Sends fs s t) : t.epc = s.epc := by obtain ⟨_, _, _, _, _, _, rfl⟩ := h.rest; rfl
theorem Sends.auth {fs : List Fld} {s t : State} (h : Sends fs s t) : t.auth = s.auth := by obtain ⟨_, _, _, _, _, _, rfl⟩ := h.rest; rfl
theorem Sends.eng {fs : List Fld} {s t : State} (h : Sends fs s t) : t.eng = s.eng := by obtain ⟨_, _, _, _, _, _, rfl⟩ := h.rest; rfl
theorem Sends.pins {fs : List Fld} {s t : State} (h : Sends fs s t) : t.pins = s.pins := by obtain ⟨_, _, _, _, _, _, rfl⟩ := h.rest; rfl
theorem Sends.boot {fs : List Fld} {s t : State} (h : Sends fs s t) : t.boot = s.boot := by obtain ⟨_, _, _, _, _, _, rfl⟩ := h.rest; rfl
theorem Sends.read {fs : List Fld} {s t : State} (h : Sends fs s t) {f : Fld} (hf : ∀ g ∈ fs, f.key ≠ g.key) : t.rd f = s.rd f :=
  h.frame.1 f hf

/-! ### Beacons and cells of the control class (R291 to R294, R345) -/

theorem mkCell_control (typ src dest seq : Nat) (sync bcast : Bool) (payload : List Byte) :
    (mkCell clsControl typ src dest seq sync bcast payload).cls < 2 := (by decide : clsControl < 2)

theorem State.sendCell_control (s : State) (id : Nat) {c : Cell} (hc : c.cls < 2) : ∃ p, s.sendCell id c = { s with ports := p } := by
  unfold State.sendCell State.enqueue
  dsimp only
  split
  · split
    · exact ⟨_, rfl⟩
    · rw [if_pos (by omega)]
      exact ⟨_, rfl⟩
  · exact ⟨s.ports, rfl⟩

theorem State.sendCell_sends (fs : List Fld) (s : State) (id : Nat) {c : Cell} (hc : c.cls < 2) : Sends fs s (s.sendCell id c) := by
  obtain ⟨p, hp⟩ := s.sendCell_control id hc
  rw [hp]
  exact .upd fs s _ _ _ _ _

theorem State.ctlSeq_sends (fs : List Fld) (s : State) (node : Nat) : Sends fs s (s.ctlSeq node).2.2 := by
  unfold State.ctlSeq
  dsimp only
  split <;> exact .upd fs s _ _ _ _ _

theorem State.sendBoth_sends (fs : List Fld) (s : State) (r : Nat) {c : Cell} (hc : c.cls < 2) : Sends fs s (s.sendBoth r c) := by
  unfold State.sendBoth
  split
  · exact (State.sendCell_sends fs s 0 (c := { c with dir := 1 }) hc).trans (State.sendCell_sends fs _ 2 (c := { c with dir := 0 }) hc)
  · refine .ite (fun _ => .refl fs s) fun _ => ?_
    exact (State.sendCell_sends fs s _ (c := { c with dir := s.dirOut (2 * r) }) hc).trans
      (State.sendCell_sends fs _ _ (c := { c with dir := s.dirOut (2 * r + 1) }) hc)

/-- A control cell originated on a ring changes ports and sequence numbers only, whatever `mk` sets but its class. -/
theorem State.originate_sends (fs : List Fld) (s : State) (r : Nat) {mk : Cell → Cell} (hmk : ∀ c, (mk c).cls = c.cls) (typ dest : Nat)
    (payload : List Byte) : Sends fs s (s.originate r mk typ dest payload) := by
  unfold State.originate
  exact (s.ctlSeq_sends fs _).trans (State.sendBoth_sends fs _ r (by rw [hmk]; exact mkCell_control ..))

theorem State.passSpur_sends (s : State) (h : Nat) {c : Cell} (hc : c.cls < 2) : Sends [R.SPR_EVT_NOROUTE] s (s.passSpur h c) := by
  unfold State.passSpur
  split
  · exact s.sendCell_sends _ _ hc
  · exact .wr s _ (by simp)

theorem State.originateSpur_sends (s : State) (h : Nat) {mk : Cell → Cell} (hmk : ∀ c, (mk c).cls = c.cls) (typ dest : Nat)
    (payload : List Byte) : Sends [R.SPR_EVT_NOROUTE] s (s.originateSpur h mk typ dest payload) := by
  unfold State.originateSpur State.sendSpur
  exact (s.ctlSeq_sends _ _).trans (State.passSpur_sends _ h (c := { mk _ with hops := 0 }) (by dsimp only; rw [hmk]; exact mkCell_control ..))

/-! ### Events (R334, R341 to R343) -/

theorem State.vector_sends (fs : List Fld) (s : State) (fn v : Nat) : Sends fs s (s.vector fn v) := by
  unfold State.vector
  split
  · exact .refl fs s
  · split
    · split
      · exact .refl fs s
      · exact .upd fs s _ _ _ _ _
    · exact .upd fs s _ _ _ _ _

theorem State.queueVector_sends (fs : List Fld) (s : State) (q : Nat) : Sends fs s (s.queueVector q) := by
  unfold State.queueVector
  refine .ite (fun _ => .ite (fun _ => .refl fs s) fun _ => .upd fs s _ _ _ _ _) fun _ => ?_
  exact .ite (fun _ => s.vector_sends fs _ _) fun _ => (s.vector_sends fs _ _).trans (.upd fs _ _ _ _ _ _)

/-- The fields of an event queue that an event changes. -/
def queueFlds (q : Nat) : List Fld := [R.HST_EVQ_IDX_PROD q, R.HST_EVQ_EVT_DROP q]

theorem State.putRecord_sends (s : State) (q : Nat) (payload : List Byte) : Sends (queueFlds q) s (s.putRecord q payload) := by
  unfold State.putRecord
  extract_lets prod size base phase s1
  have h1 : Sends (queueFlds q) s s1 := .upd _ s _ _ _ _ _
  exact (h1.trans (.wr _ _ (by simp [queueFlds]))).trans (State.queueVector_sends _ _ _)

theorem State.queueEvent_sends (s : State) (q : Nat) (payload : List Byte) : Sends (queueFlds q) s (s.queueEvent q payload) := by
  unfold State.queueEvent
  refine .ite (fun _ => .refl _ s) fun _ => .ite (fun _ => .wr s _ (by simp [queueFlds])) fun _ => ?_
  exact .ite (fun _ => .upd _ s _ _ _ _ _) fun _ => s.putRecord_sends q payload

/-- The fields that an event of this node may change: those of queue 13, and the count of cells without a route. -/
def eventFlds : List Fld := R.SPR_EVT_NOROUTE :: queueFlds 13

theorem State.raiseEvent_sends (s : State) (b : Blk) (inst code : Nat) (data : List Byte) :
    Sends eventFlds s (s.raiseEvent b inst code data) := by
  unfold State.raiseEvent
  dsimp only
  split
  · refine .ite (fun _ => ?_) fun _ => s.originate_sends _ _ (fun _ => rfl) _ _ _
    exact (Sends.upd _ s _ _ _ _ _).trans (State.originate_sends _ _ _ (fun _ => rfl) _ _ _)
  · refine .ite (fun _ => (s.queueEvent_sends _ _).mono (by simp [eventFlds])) fun _ => ?_
    exact (s.originateSpur_sends _ (fun _ => rfl) _ _ _).mono (by simp [eventFlds])

/-! ### Giving up (R316, R318, R319) -/

/-- `t` differs from `s` in what giving up may change: as `Sends`, with the authority over the rings, and the frames of the side ports on their way
into a ring. -/
structure GivesUp (fs : List Fld) (s t : State) : Prop where
  rest : ∃ r p q h a e o n, t =
    { s with
      regs := r, ports := p, seqs := q, host := h, auth := { s.auth with rings := a }, eth := { s.eth with ingress := e }, out := o,
      freeCtr := n }
  frame : sameElse s t fs

theorem GivesUp.refl (fs : List Fld) (s : State) : GivesUp fs s s := ⟨⟨_, _, _, _, s.auth.rings, s.eth.ingress, _, _, rfl⟩, .refl s fs⟩

theorem GivesUp.trans {fs : List Fld} {s t u : State} (h : GivesUp fs s t) (k : GivesUp fs t u) : GivesUp fs s u := by
  obtain ⟨_, _, _, _, _, _, _, _, rfl⟩ := h.rest
  obtain ⟨_, _, _, _, _, _, _, _, hu⟩ := k.rest
  exact ⟨⟨_, _, _, _, _, _, _, _, hu⟩, h.frame.trans k.frame⟩

theorem Sends.givesUp {fs : List Fld} {s t : State} (h : Sends fs s t) : GivesUp fs s t := by
  obtain ⟨r, p, q, x, o, n, ht⟩ := h.rest
  exact ⟨⟨r, p, q, x, s.auth.rings, s.eth.ingress, o, n, ht⟩, h.frame⟩

theorem GivesUp.forN {fs : List Fld} {n : Nat} {f : Nat → State → State} (s : State) (hf : ∀ i a, GivesUp fs a (f i a)) :
    GivesUp fs s (forN n f s) :=
  forN_inv (fun a => GivesUp fs s a) (.refl fs s) fun i a h => h.trans (hf i a)

theorem State.dropOwn_givesUp (fs : List Fld) (s : State) (r : Nat) : GivesUp fs s (s.dropOwn r) := by
  unfold State.dropOwn
  refine forL_inv (fun a => GivesUp fs s a) ?_ fun id a h => h.trans (Sends.upd fs a _ _ _ _ _).givesUp
  exact ⟨⟨_, _, _, _, s.auth.rings, _, _, _, rfl⟩, (sameElse.refl s _).of_eq rfl rfl rfl⟩

theorem State.allRings_givesUp (fs : List Fld) (s : State) (role : Nat) : GivesUp fs s (s.allRings role) := by
  unfold State.allRings
  exact .forN s fun r a => ⟨⟨_, _, _, _, _, a.eth.ingress, _, _, rfl⟩, (sameElse.refl a _).of_eq rfl rfl rfl⟩

theorem State.sendResigns_givesUp (fs : List Fld) (s : State) (reason : Nat) : GivesUp fs s (s.sendResigns reason) := by
  unfold State.sendResigns
  refine (GivesUp.forN s fun r a => ?_).trans (.forN _ fun q a => ?_)
  · refine Sends.givesUp (.ite (fun _ => ?_) fun _ => .refl fs a)
    exact a.originate_sends fs r (by exact fun _ => rfl) _ _ _
  · refine Sends.givesUp (.ite (fun _ => ?_) fun _ => .refl fs a)
    exact (a.ctlSeq_sends fs _).trans (State.sendCell_sends fs _ _ (mkCell_control ..))

/-- The fields that giving up may change. -/
def giveUpFlds : List Fld := R.CRN_HEAD_REASON :: R.CRN_HEAD_ROLE :: eventFlds

theorem State.giveUp_givesUp (s : State) (reason : Nat) : GivesUp giveUpFlds s (s.giveUp reason) := by
  unfold State.giveUp
  split
  · exact .refl _ s
  · extract_lets s1 s2
    have h1 : GivesUp giveUpFlds s s1 :=
      (Sends.ite (fun _ => .wr s _ (List.mem_cons_self ..)) fun _ => .refl _ s : Sends giveUpFlds s s1).givesUp
    split
    · exact h1
    · have h2 : GivesUp giveUpFlds s s2 :=
        h1.trans (((GivesUp.forN s1 fun r a => a.dropOwn_givesUp _ r).trans (State.sendResigns_givesUp _ _ _)).trans
          (State.allRings_givesUp _ _ _))
      refine h2.trans ((Sends.wr s2 (f := R.CRN_HEAD_ROLE) roleResigned (by simp [giveUpFlds])).givesUp.trans ?_)
      exact ((State.raiseEvent_sends _ _ _ _ _).mono (by simp [giveUpFlds])).givesUp

theorem GivesUp.build {fs : List Fld} {s t : State} (h : GivesUp fs s t) : t.build = s.build := by
  obtain ⟨_, _, _, _, _, _, _, _, rfl⟩ := h.rest; rfl
theorem GivesUp.mem {fs : List Fld} {s t : State} (h : GivesUp fs s t) : t.mem = s.mem := by
  obtain ⟨_, _, _, _, _, _, _, _, rfl⟩ := h.rest; rfl
theorem GivesUp.cck {fs : List Fld} {s t : State} (h : GivesUp fs s t) : t.cck = s.cck := by
  obtain ⟨_, _, _, _, _, _, _, _, rfl⟩ := h.rest; rfl
theorem GivesUp.read {fs : List Fld} {s t : State} (h : GivesUp fs s t) {f : Fld} (hf : ∀ g ∈ fs, f.key ≠ g.key) : t.rd f = s.rd f :=
  h.frame.1 f hf

end Sys2Proof.Machine
end

section
/-! The configuration check (R81 to R85). -/

namespace Sys2Proof.Machine

/-! ### The end of a pass -/

/-- The walker's page results go to PAGE_CRC, and nowhere else (R82). -/
theorem State.rd_storePageCrcs (s : State) {f : Fld} (hf : ∀ pg, f.key ≠ (R.PAGE_CRC (16384 * pg)).key) : s.storePageCrcs.rd f = s.rd f :=
  forL_inv (fun a => a.rd f = s.rd f) rfl fun _ a h => (State.rd_wr_ne a _ (hf _)).trans h

theorem State.storePageCrcs_cck (s : State) : s.storePageCrcs.cck = s.cck :=
  forL_inv (fun a : State => a.cck = s.cck) rfl fun _ _ h => h

/-- The fields of the configuration check that the end of a pass changes or asks for. -/
def cckFlds : List Fld :=
  [R.SYS_CCK_EVT_VOID, R.SYS_CCK_LAST_RESULT, R.SYS_CCK_EVT_MISMATCH, R.SYS_CCK_STATE_MISMATCH, R.SYS_CCK_STATE_LAST_MISMATCH, R.SYS_CCK_REF_REF,
    R.SYS_CCK_STATE_REF_VALID, R.SYS_CCK_CTRL_SNAP]

theorem State.rd_storePageCrcs_cck (s : State) : ∀ f ∈ cckFlds, s.storePageCrcs.rd f = s.rd f := by
  intro f hf
  have hlow : f.key / 32 % 16384 ≠ 0x18 := (by decide : ∀ f ∈ cckFlds, f.key / 32 % 16384 ≠ 0x18) f hf
  refine s.rd_storePageCrcs fun pg hk => hlow ?_
  rw [hk]
  simp only [Fld.key, R.PAGE_CRC]
  omega

theorem giveUpFlds_cck : ∀ f ∈ cckFlds, ∀ g ∈ giveUpFlds, f.key ≠ g.key := by decide

theorem eventFlds_cck : ∀ f ∈ cckFlds, ∀ g ∈ eventFlds, f.key ≠ g.key := by decide

/-- A clean pass that differs from the reference: its fields (R85). -/
theorem State.passMiss_spec (s : State) (hm : s.rd R.SYS_CCK_STATE_MISMATCH = 0) :
    s.passMiss.rd R.SYS_CCK_LAST_RESULT = s.rd R.SYS_CCK_LAST_RESULT ∧ s.passMiss.rd R.SYS_CCK_EVT_VOID = s.rd R.SYS_CCK_EVT_VOID ∧
      s.passMiss.rd R.SYS_CCK_STATE_LAST_MISMATCH = 1 ∧
      s.passMiss.rd R.SYS_CCK_EVT_MISMATCH = min (s.rd R.SYS_CCK_EVT_MISMATCH + 1) 4294967295 ∧
      s.passMiss.rd R.SYS_CCK_STATE_MISMATCH = (if s.cck.misses = 0 then 0 else 1) := by
  unfold State.passMiss
  extract_lets s1 c s2 s3
  have hs2 : ∀ f, s2.rd f = ((s.count R.SYS_CCK_EVT_MISMATCH).wr R.SYS_CCK_STATE_LAST_MISMATCH 1).rd f := fun _ => rfl
  have hoff : s2.on R.SYS_CCK_STATE_MISMATCH = false := by
    simp (disch := decide) [State.on, hs2, State.rd_wr_ne, State.rd_count_ne, hm]
  have hmisses : s2.cck.misses = s.cck.misses + 1 := rfl
  by_cases h0 : s.cck.misses = 0
  · rw [if_pos (by simp [hmisses, h0]), if_pos h0]
    simp (disch := decide) [hs2, State.rd_wr_ne, State.rd_count_ne, State.rd_count32, hm]
  · rw [if_neg (by simp [hmisses, hoff]; omega), if_neg h0]
    have hgive : ∀ f ∈ cckFlds, (s3.giveUp 2).rd f = s3.rd f := fun f hf => (s3.giveUp_givesUp 2).read (giveUpFlds_cck f hf)
    have hraise : ∀ f ∈ cckFlds, ∀ data, (s3.raiseEvent .SYS 0 1 data).rd f = s3.rd f := fun f hf data =>
      (s3.raiseEvent_sends .SYS 0 1 data).read (eventFlds_cck f hf)
    split
    · simp (disch := decide) [hgive, s3, hs2, State.rd_wr_ne, State.rd_count_ne, State.rd_count32]
    · simp (disch := decide) [hraise, s3, hs2, State.rd_wr_ne, State.rd_count_ne, State.rd_count32]

/-- What the end of a pass leaves of the state it has made: the walker's own record apart, everything. -/
theorem State.passEnd_eq {s : State} (hrun : s.cck.running = true) {u : State}
    (hu : (if s.cck.dirty || s.cck.stop || s.on R.PWR_CMD_RESTORE then s.storePageCrcs.count R.SYS_CCK_EVT_VOID
      else s.storePageCrcs.passClean (crc32c s.passBytes)) = u) :
    s.passEnd = { u with cck := { u.cck with running := !s.cck.stop, stop := false, dirty := false, snapOk := u.on R.SYS_CCK_CTRL_SNAP } } := by
  unfold State.passEnd
  simp only [hrun, Bool.not_true, Bool.false_eq_true, if_false, hu]

theorem State.passEnd_clean {s : State} (hrun : s.cck.running = true) (hd : s.cck.dirty = false) (hst : s.cck.stop = false)
    (hres : s.rd R.PWR_CMD_RESTORE ≠ 1) :
    ∃ c, s.passEnd = { s.storePageCrcs.passClean (crc32c s.passBytes) with cck := c } ∧
      c.misses = (s.storePageCrcs.passClean (crc32c s.passBytes)).cck.misses :=
  ⟨_, State.passEnd_eq hrun (if_neg (by simp [hd, hst, State.on, hres])), rfl⟩

/-- A committed reference, and no snapshot asked for: the pass matches or misses (R85). -/
theorem State.passClean_compares {s : State} (hsnap : s.rd R.SYS_CCK_CTRL_SNAP = 0) (hval : s.rd R.SYS_CCK_STATE_REF_VALID = 1) (r : Nat) :
    s.passClean r = if r = s.rd R.SYS_CCK_REF_REF then (s.wr R.SYS_CCK_LAST_RESULT r).passMatch else (s.wr R.SYS_CCK_LAST_RESULT r).passMiss := by
  unfold State.passClean
  simp (disch := decide) [State.on, State.rd_wr_ne, hsnap, hval]

theorem State.rd_passMatch (s : State) (f : Fld) :
    s.passMatch.rd f = ((s.wr R.SYS_CCK_STATE_LAST_MISMATCH 0).wr R.SYS_CCK_STATE_MISMATCH 0).rd f := rfl

/-- A snapshot that this pass qualifies for: its result becomes the reference (R84). -/
theorem State.passClean_commits {s : State} (hsnap : s.rd R.SYS_CCK_CTRL_SNAP = 1) (hok : s.cck.snapOk = true) (r : Nat) :
    s.passClean r = ((((s.wr R.SYS_CCK_LAST_RESULT r).wr R.SYS_CCK_REF_REF r).wr R.SYS_CCK_STATE_REF_VALID 1).wr
      R.SYS_CCK_CTRL_SNAP 0).passMatch := by
  unfold State.passClean
  simp (disch := decide) [State.on, State.rd_wr_ne, hsnap, hok]

theorem State.rd_passEnd {s u : State} {c : Cck} (h : s.passEnd = { u with cck := c }) (f : Fld) : s.passEnd.rd f = u.rd f := by
  rw [h]
  rfl

/-- Settles O11: the three ends of a pass, a void one, a clean one that is compared (`passClean_compares`), and one that is committed. -/
theorem configurationCheckPass : Obligations.ConfigurationCheckPass := by
  intro s hrun
  have hcrc := s.rd_storePageCrcs_cck
  have hcck := s.storePageCrcs_cck
  refine ⟨fun hvoid => ?_, fun hd hst hres hsnap hval hmis => ?_, fun hd hst hres hsnap hok => ?_⟩
  · have hu := State.passEnd_eq hrun (if_pos (by simpa [State.on, or_assoc] using hvoid))
    refine ⟨s.passEnd, rfl, ?_, ?_, ?_, ?_, by rw [hu], by rw [hu]⟩
    · rw [State.rd_passEnd hu, State.rd_count32 _ rfl, hcrc _ (by decide)]
    all_goals rw [State.rd_passEnd hu, State.rd_count_ne _ (by decide), hcrc _ (by decide)]
  · obtain ⟨c, hc, hmisses⟩ := State.passEnd_clean hrun hd hst hres
    have hclean := State.passClean_compares (s := s.storePageCrcs) (by rw [hcrc _ (by decide), hsnap]) (by rw [hcrc _ (by decide), hval])
      (crc32c s.passBytes)
    rw [hcrc R.SYS_CCK_REF_REF (by decide)] at hclean
    refine ⟨s.passEnd, rfl, ?_⟩
    simp only [State.rd_passEnd hc]
    by_cases heq : crc32c s.passBytes = s.rd R.SYS_CCK_REF_REF
    · rw [if_pos heq] at hclean
      rw [hc, hmisses, hclean]
      simp (disch := decide) only [State.rd_passMatch, State.rd_wr_ne, State.rd_wr_same, hcrc]
      exact ⟨rfl, trivial, fun _ => ⟨rfl, rfl, trivial, rfl⟩, fun h => absurd heq h⟩
    · rw [if_neg heq] at hclean
      have hmiss := (s.storePageCrcs.wr R.SYS_CCK_LAST_RESULT (crc32c s.passBytes)).passMiss_spec
        (by rw [State.rd_wr_ne _ _ (by decide), hcrc _ (by decide), hmis])
      simp (disch := decide) only [State.rd_wr_ne, State.rd_wr_same, hcrc, State.wr_cck, hcck] at hmiss
      obtain ⟨hlast, hvoid, hlm, hevt, hm⟩ := hmiss
      rw [hclean]
      exact ⟨hlast, hvoid, fun h => absurd h heq, fun _ => ⟨hlm, hevt, hm⟩⟩
  · obtain ⟨c, hc, -⟩ := State.passEnd_clean hrun hd hst hres
    have hclean := State.passClean_commits (s := s.storePageCrcs) (by rw [hcrc _ (by decide), hsnap]) (by rw [hcck, hok]) (crc32c s.passBytes)
    refine ⟨s.passEnd, rfl, ?_⟩
    simp (disch := decide) only [State.rd_passEnd hc, hclean, State.rd_passMatch, State.rd_wr_ne, State.rd_wr_same]
    exact ⟨rfl, rfl, rfl⟩

/-! ### SNAP in a state that no write makes -/

/-- A tile whose register bus is open, with 3 stored in the one bit of SYS_CCK_CTRL.EN. -/
def wideCckEn : State :=
  { State.reset with bus := { State.reset.bus with isOpen := true }, regs := [(R.SYS_CCK_CTRL_EN.key, 3)] }

theorem wideCckEn_snap : (wideCckEn.command .mgt .set R.SYS_CCK_CTRL_SNAP 1).cck.running = false := by decide +kernel

/-- Refutes O12: the statement takes the stored EN modulo 2, but a SET write of SNAP writes EN back as it is stored, and one that holds 3 is out of
range (R64): it is ignored, and the walker does not start. -/
theorem not_configurationCheckCommandsAndUpsets : ¬ Obligations.ConfigurationCheckCommandsAndUpsets := by
  rintro ⟨hcommands, -⟩
  have hreach : wideCckEn.reaches .mgt R.SYS_CCK_CTRL_SNAP .set := by
    unfold State.reaches
    decide +kernel
  obtain ⟨t, hnext, -, -, hrunning⟩ := (hcommands .mgt 0 wideCckEn).1 hreach (by decide +kernel)
  obtain rfl : _ = t := Host.Outcome.next.inj hnext
  rw [wideCckEn_snap] at hrunning
  exact absurd hrunning (by decide +kernel)

end Sys2Proof.Machine
end

section
/-! Enabling the CRN page while a field beside ENABLE holds more than it can. -/

namespace Sys2Proof.Machine

/-- A tile whose register bus is open, with 3 stored in the one bit of CRN_CTRL.CLAIM_W. -/
def wideClaim : State :=
  { State.reset with bus := { State.reset.bus with isOpen := true }, regs := [(R.CRN_CTRL_CLAIM_W.key, 3)] }

/-- A SET write of ENABLE writes CLAIM_W back as it is stored, which is out of range (R64): that is counted as an ignored write. -/
theorem wideClaim_enable_counts :
    (wideClaim.pathWrite .mgt (Blk.CRN.pg 0 + 0x1004) [1] 15).rd (R.EVT_CFG_IGN (Blk.CRN.pg 0)) = 1 := by
  decide +kernel

/-- Refutes O9: a SET write of ENABLE of the CRN page changes EVT_CFG_IGN too, where a field of its CTRL register holds a value out of its range. -/
theorem not_pageControl : ¬ Obligations.PageControl := by
  rintro ⟨hpage, -, -⟩
  have hreach : wideClaim.reaches .mgt (R.ENABLE (Blk.CRN.pg 0)) .set := by
    unfold State.reaches
    decide +kernel
  obtain ⟨hopen, -⟩ := hpage .mgt .CRN 0 _ wideClaim rfl (by decide +kernel)
  obtain ⟨hset, -⟩ := hopen (by decide +kernel)
  obtain ⟨henable, -⟩ := hset hreach
  obtain ⟨hstarts, -⟩ := henable rfl (by decide +kernel) (.inl (by decide +kernel)) (.inl rfl) (by decide +kernel)
  obtain ⟨t, hnext, -, -, -, -, hframe, -⟩ := hstarts rfl
  obtain rfl : _ = t := Host.Outcome.next.inj hnext
  have hcount := (hframe (by decide)).1 (R.EVT_CFG_IGN (Blk.CRN.pg 0)) (by decide +kernel)
  rw [wideClaim_enable_counts] at hcount
  exact absurd hcount (by decide +kernel)

end Sys2Proof.Machine
end

section
/-! Obligations that fail on one state the model can be in: each state is a test's state, changed in what the refuting outcome needs. -/

namespace Sys2Proof.Machine

open Tests

-- One kernel evaluation at a time: each one that waits for another holds a thread and its stack.
set_option Elab.async false

-- The check fields of a cell run over its 268 bytes, a nesting that the kernel evaluates only with a greater depth.
set_option maxRecDepth 200000

/-! ### The debug port's resume in Saddle -/

/-- An open, unlocked tile that is in Saddle and has not woken. -/
def saddleTile : State := fl T [(R.PWR_STATE_STATE, pSaddle)]

/-- Refutes O20: in Saddle Kryty's clock stands (R410), so its path stays closed when the debug port resumes it. -/
theorem not_debugPortIsLocked : ¬ Obligations.DebugPortIsLocked := by
  intro h
  obtain ⟨-, hopen⟩ := h .resume saddleTile (by decide +kernel)
  obtain ⟨-, ⟨t, hnext, -, hpath, -⟩, -⟩ := hopen (by decide +kernel)
  obtain rfl : _ = t := Host.Outcome.next.inj hnext
  exact absurd hpath (by decide +kernel)

/-! ### A doorbell whose descriptor is taken at once -/

/-- The lead head with channel 3 enabled, its ring empty, and a frame buffer of 4 KiB for its source. -/
def emptyRing : State := fl dS [(R.SRC_BUF_SIZE_SIZE 3, 1), (R.DMA_CH_IDX_PROD 3, 0), (R.DMA_CH_IDX_CONS 3, 0)]

/-- A descriptor of 8 bytes that is a whole layer frame. -/
def wholeFrame : Descriptor := { desc with dstLo := 0, dstHi := 0, flags := 3 }

/-- The channel asks for the bytes of the descriptor it knows in the same turn, and so takes it: a frame is open (log entry 141). -/
theorem emptyRing_bell_opens :
    (emptyRing.dmaBell none 3 1 15 [wholeFrame]).rd (R.DMA_CH_STATE_FRAME_OPEN 3) = 1 := by
  decide +kernel

/-- Refutes O24: a doorbell that posts a descriptor with SOF to an idle channel sets FRAME_OPEN, a field beside the two that the statement lets
change. -/
theorem not_dmaDescriptor : ¬ Obligations.DmaDescriptor := by
  intro h
  obtain ⟨hbell, -⟩ := h 3 emptyRing (by decide) (by decide +kernel) (by decide +kernel)
  obtain ⟨t, hnext, -, -, -, hsame⟩ := hbell 1 [wholeFrame] (by decide +kernel) (by decide +kernel) (by decide +kernel)
  obtain rfl : _ = t := Host.Outcome.next.inj hnext
  have hopen := hsame.1 (R.DMA_CH_STATE_FRAME_OPEN 3) (by decide +kernel)
  rw [emptyRing_bell_opens] at hopen
  exact absurd hopen (by decide +kernel)

/-! ### The marker of a narrow frame while no DRAM channel serves -/

/-- A head that receives stream 1 into source 2, configured 4 pixels wide, has one whole line 1 pixel wide and one packet missing, and channel 0 of its
DRAM does not run. -/
def narrowFrame : State :=
  { fl (eF []) [(R.DRC_CH_STATE_STATE 0, 0)] with
    ingest := { (eF []).ingest with sts := [(1, { expect := some 20, missing := 1, width := 1, height := 1, rows := [(0, 1)], held := [(0, 5)] })] } }

/-- A packet of a stream that a side port receives: the stream takes it, and the DRAM channels have their command slots. -/
theorem exec_st2110Packet_matched {s : State} {port k : Nat} {p : St2110Packet} (hon : s.ethOn port = true) (hfind : s.stFind port p = some k) :
    exec (.st2110Packet port p) s = .next (s.stPacket k p).dramSlots := by
  change execSt2110Packet port p s = _
  simp [execSt2110Packet, hon, hfind]

/-- The last packet of that frame. -/
def narrowMarker : St2110Packet := { pk with marker := true }

/-- The line that is whole at the measured width is written at the marker, and the write gets an error response (R375). -/
theorem narrowFrame_marker_errs :
    (narrowFrame.stPacket 1 narrowMarker).dramSlots.rd (R.DRC_CH_EVT_ERRRSP 0) = 1 := by
  decide +kernel

/-- Refutes O25: the marker of a frame with a packet missing counts an error response of a DRAM channel that does not serve the frame's lines. -/
theorem not_sourcesAndStreams : ¬ Obligations.SourcesAndStreams := by
  intro h
  obtain ⟨hpacket, -⟩ := h 2 1 5 narrowFrame (by decide +kernel) (by decide) (by decide) (by decide)
  have hon : narrowFrame.ethOn 0 = true := by decide +kernel
  have hfind : narrowFrame.stFind 0 narrowMarker = some 1 := by decide +kernel
  obtain ⟨-, -, -, hmarker⟩ := hpacket 0 narrowMarker hon hfind (by decide +kernel)
  obtain ⟨hmissing, -⟩ := hmarker rfl rfl rfl (by decide +kernel) (by decide +kernel) (by unfold State.dramQuiet; decide +kernel)
    (by decide +kernel) (by decide +kernel)
  obtain ⟨t, hnext, -, -, -, -, -, hsame⟩ := hmissing (by decide +kernel)
  obtain rfl : _ = t := Host.Outcome.next.inj ((exec_st2110Packet_matched hon hfind).symm.trans hnext)
  have herr := hsame.1 (R.DRC_CH_EVT_ERRRSP 0) (by decide +kernel)
  rw [narrowFrame_marker_errs] at herr
  exact absurd herr (by decide +kernel)

/-! ### A best-effort cell at a port in TURN whose queue is full -/

/-- A tile with port 0 in the TURN loopback, up, and 240 best-effort cells in its queue. -/
def fullTurn : State :=
  { upT ([(R.RING_STATE_END_A 0, 3), (R.RING_CFG_LOOP 0, 2)] ++ (List.range 8).map (fun k => (R.LNE_STATE_STAGE k, 11))) with
    ports := [(0, { pI with q3 := List.replicate 240 { cell := testC, stomp := false } })] }

/-- The cell that TURN sends back finds no room and is dropped and counted (R290). -/
theorem fullTurn_drops : (fullTurn.cellIn 0 testC).rd (R.RING_EVT_BEDROP 0) = 1 := by decide +kernel

/-- Refutes O26: a best-effort cell that a port in TURN sends back into a full queue counts in RING_EVT_BEDROP. -/
theorem not_codewordsAndForwarding : ¬ Obligations.CodewordsAndForwarding := by
  intro h
  obtain ⟨-, -, -, -, -, hturn, -⟩ := h 0 testC (upT []) (by decide +kernel) (by decide +kernel) (by decide +kernel) (by decide +kernel)
  obtain ⟨t, hnext, -, -, hsame⟩ := hturn fullTurn (by decide +kernel) (by decide +kernel) (by decide +kernel) (by decide +kernel)
    (by decide +kernel) (by decide +kernel) (by decide +kernel)
  obtain rfl : _ = t := Host.Outcome.next.inj hnext
  have hdrop := hsame.1 (R.RING_EVT_BEDROP 0) (by decide +kernel)
  rw [fullTurn_drops] at hdrop
  exact absurd hdrop (by decide +kernel)

/-! ### A TAKE at a head whose aliases are all in use -/

/-- A head with its ring page enabled whose 32 aliases are all in use, none by head 3. -/
def fullAliases : State :=
  { upH [(R.ENABLE (Blk.RING.pg 0), 1)] with auth := { H.auth with aliases := (List.range 32).map (fun n => (10 + n, 50)) } }

theorem fullAliases_receives : (fullAliases.receive 0 (take 10)).1 = true := by decide +kernel

/-- The alias that the TAKE asks for finds no room, which is counted (R327). -/
theorem fullAliases_take_counts : (fullAliases.takeIn 0 (take 10)).rd R.CRN_EVT_ALIAS = 1 := by decide +kernel

/-- Refutes O37: a TAKE at a head counts in CRN_EVT_ALIAS where the alias table is full, while the statement holds every field unchanged. -/
theorem not_listenResignTake : ¬ Obligations.ListenResignTake := by
  intro h
  obtain ⟨-, -, htake, -⟩ := h fullAliases
  obtain ⟨t, hnext, -, -, hsame⟩ := htake 0 (take 10) (fullAliases.receive 0 (take 10)).2 (by decide +kernel) (by decide +kernel)
    (by decide +kernel) (by decide +kernel) (by decide +kernel)
    (Prod.ext fullAliases_receives rfl)
    (by decide +kernel) (by decide +kernel)
  obtain rfl : _ = t := Host.Outcome.next.inj hnext
  have hcount := hsame R.CRN_EVT_ALIAS
  rw [fullAliases_take_counts] at hcount
  exact absurd hcount (by decide +kernel)

/-! ### A HOST_WR longer than Max Payload Size -/

/-- A write of 240 bytes of host memory over the Spur. -/
def longHostWr : Cell := sp tHostWr (natLE 0x1000 8 ++ natLE 240 4)

/-- At a Max Payload Size of 128 bytes the write leaves as two. -/
theorem longHostWr_splits : ((sS []).spurIn 25 longHostWr tHostWr (fun a => a.hostAccess { cell := longHostWr, data := [], ended := .ok, write := true })).out.length = 2 := by decide +kernel

/-- Refutes O40: the lead head's write of a HOST_WR is cut at Max Payload Size (R332), so more than one write is put out. -/
theorem not_hostAndSpur : ¬ Obligations.HostAndSpur := by
  intro h
  obtain ⟨hcell, -⟩ := h 1 longHostWr (sS []) (by decide +kernel) (by decide)
  obtain ⟨-, -, -, -, hwrite, -⟩ := hcell (by decide +kernel) (by decide +kernel) (by decide +kernel)
  obtain ⟨t, hnext, hemit⟩ := hwrite (by decide +kernel)
  obtain rfl : _ = t := Host.Outcome.next.inj hnext
  rw [if_pos (by decide +kernel)] at hemit
  have hlen := congrArg (fun t => t.out.length) hemit
  rw [longHostWr_splits] at hlen
  exact absurd hlen (by decide +kernel)

end Sys2Proof.Machine
end

section
/-! More obligations that fail on one state: each state is a test's state, changed in what the refuting outcome needs. -/

namespace Sys2Proof.Machine

open Tests

-- One kernel evaluation at a time: each one that waits for another holds a thread and its stack.
set_option Elab.async false

/-! ### PTP is lost at a frame master whose EPC does not run -/

/-- A head that shows MASTER and has chosen PTP, with EPC disabled. -/
def stoppedMaster : State :=
  eP [(R.ETH_PTP_STATE_STATE, ptpUnlocked), (R.EPC_STATE_STATE, epMaster), (R.EPC_CFG_PTP, 1), (R.RUN (Blk.EPC.pg 0), runDisabled)]

theorem stoppedMaster_keeps_ptpLoss : (stoppedMaster.ptpTimeout.ptpLost).rd R.EPC_STATE_PTP_LOSS = 0 := by decide +kernel

/-- Refutes O41: a frame master whose EPC does not run has no timebase that follows PTP, and shows no PTP_LOSS when the Announces stop. -/
theorem not_sidePorts : ¬ Obligations.SidePorts := by
  intro h
  obtain ⟨-, -, -, -, -, -, htimeout⟩ := h 0 stoppedMaster (by decide +kernel)
  obtain ⟨t, hnext, -, -, -, hlost, -⟩ := htimeout (by decide +kernel)
  obtain rfl : _ = t := Host.Outcome.next.inj hnext
  have hshown := (hlost (by decide +kernel) (by decide +kernel)).1
  exact absurd (stoppedMaster_keeps_ptpLoss.symm.trans hshown) (by decide)

/-! ### The training helper's bursts behind a read in flight -/

/-- A channel with a read in flight while the training helper has a burst of its own to come. -/
def helperWaits : State := dT { dF false with helper := [rq] } 2 []

theorem helperWaits_not_idle : (helperWaits.onChan 0 (fun a => a.readDone 0 .clean)).chIdle 0 = false := by decide +kernel

/-- Refutes O43: the read's data come, and the channel is not idle, since the helper's next burst follows. -/
theorem not_dramRequests : ¬ Obligations.DramRequests := by
  intro h
  obtain ⟨-, -, hdone⟩ := h rq 0 0x20 helperWaits (by decide) (by decide +kernel) (by decide +kernel)
  obtain ⟨hfirst, -⟩ := hdone (by decide +kernel) (by decide +kernel) (by decide +kernel) (by decide +kernel)
  obtain ⟨⟨t, hnext, -, hidle, -⟩, -⟩ := hfirst (by decide +kernel)
  obtain rfl : _ = t := Host.Outcome.next.inj hnext
  exact absurd (helperWaits_not_idle.symm.trans hidle) (by decide)

/-! ### A delay wider than its field -/

/-- A run in APPLY whose one item, a delay of 6 bits, holds 1000. -/
def wideDelay : State :=
  { cC cpApply { Cal.init with results := [(0, 5)], halves := [0] } [] with
    regs := Sparse.put (cC cpApply { Cal.init with results := [(0, 5)], halves := [0] } []).regs (tdlyF 0 0).key 1000 }

theorem wideDelay_moved : (wideDelay.calApply).calHeld 0 0 = 39 := by decide +kernel

theorem wideDelay_next : calNext wideDelay 0 5 = 999 := by decide +kernel

/-- Refutes O47: the statement is of every state, one whose stored delay does not fit its field among them; one step down from it is cut to the
field's 6 bits. -/
theorem not_selfCalibration : ¬ Obligations.SelfCalibration := by
  intro h
  obtain ⟨-, -, hrun, -⟩ := h wideDelay (by decide +kernel)
  obtain ⟨-, -, -, -, happly, -⟩ := hrun (by decide +kernel) (by decide +kernel) (by decide +kernel) (by decide +kernel)
  obtain ⟨t, hnext, hheld, -⟩ := happly (by decide +kernel) (by decide +kernel) (by decide +kernel) (by decide +kernel) (by decide +kernel)
  obtain rfl : _ = t := Host.Outcome.next.inj hnext
  have hstep := hheld (0, 5) (by decide +kernel)
  exact absurd ((wideDelay_moved.symm.trans hstep).trans wideDelay_next) (by decide)

/-! ### GO with Summit of a Stranded device -/

/-- A Stranded device that shows Shoulder. -/
def strandedShoulder : State := fl T [(R.PWR_STATE_STATE, pShoulder), (R.PWR_STATE_STRANDED, 1)]

theorem strandedShoulder_stays :
    (strandedShoulder.pathWrite .kryty (viewAddr R.PWR_CMD_GO .base) [BitVec.ofNat 32 (0 % 2 ^ R.PWR_CMD_TARGET.width * 2 ^ R.PWR_CMD_TARGET.lsb + 1)] 15).pstate =
      pShoulder := by
  decide +kernel

/-- Refutes O48: Stranded is left by a full reset alone (R411), so GO with Summit leaves a Stranded device in Shoulder. -/
theorem not_powerEntry : ¬ Obligations.PowerEntry := by
  intro h
  obtain ⟨hgo, -⟩ := h strandedShoulder
  have hreach : strandedShoulder.reaches .kryty R.PWR_CMD_GO .base := by
    unfold State.reaches
    decide +kernel
  obtain ⟨-, hsummit, -⟩ := hgo .kryty hreach (by decide +kernel)
  obtain ⟨t, hnext, hstate, -⟩ := hsummit (by decide +kernel) (by decide +kernel) (by decide +kernel)
  obtain rfl : _ = t := Host.Outcome.next.inj hnext
  exact absurd (strandedShoulder_stays.symm.trans hstate) (by decide)

/-! ### An open lamp of a row that was open in the frame before -/

/-- The probe's lamp has measured open once, and its row, not open in this frame, was open in the frame before. -/
def rowWasOpen : State :=
  lS 0 { sc0 with next := 1 }
    { lh0 with row := some 0, lamps := [(1, { LampRec.init with last := some lsOpen })],
               rows := [(0, { RowRec.init with openWas := true })] } []

theorem rowWasOpen_sample : rowWasOpen.sampleCode 0 1 0 = lsOpen := by decide +kernel

/-- The measurement waits for the row's judgement at the frame's end (R232). -/
theorem rowWasOpen_probe_waits : ((rowWasOpen.probe 0 1 0 0).lampRec 0 1 0).st = 0 := by decide +kernel

/-- Refutes O52: a second open measurement of a lamp does not set its state at once where the row may turn out stuck. -/
theorem not_lampDiagnosis : ¬ Obligations.LampDiagnosis := by
  intro h
  obtain ⟨hprobe, -⟩ := h .w 0 rowWasOpen rfl
  obtain ⟨t, hnext, -, -, -, -, hsecond, -⟩ := hprobe 1 0 0 (by decide +kernel) (by decide +kernel) (by decide +kernel) (by decide +kernel)
    (by decide +kernel) (by decide +kernel) (by decide +kernel) (by decide) (by decide +kernel) (by decide +kernel) (by decide +kernel)
    (by decide +kernel) (by decide +kernel)
  obtain rfl : _ = t := Host.Outcome.next.inj hnext
  have hset := hsecond (by decide +kernel) (.inl (by decide +kernel))
  exact absurd ((rowWasOpen_probe_waits.symm.trans hset).trans rowWasOpen_sample) (by decide)

/-! ### The lamp map's check passes -/

/-- The map check of half W runs, and ENABLE waits for its end. -/
def checkRuns : State := fl T [(R.CLK_SEL_CUR, 1), (R.RUN (Blk.DRN.pg 0), runStarting)]

theorem checkRuns_good (r i : Nat) (hr : r < 64) (hi : i < 512) : entBad (checkRuns.lampEnt 0 r i) = false := by
  have hmem : checkRuns.mem = drnSt.mem := by decide +kernel
  have hbuild : checkRuns.build = drnSt.build := rfl
  have hent : checkRuns.lampEnt 0 r i = drnSt.lampEnt 0 r i := by
    simp only [State.lampEnt, State.rd32, State.rdLE, State.rd8, hmem, hbuild]
  rw [hent, drnSt_good r i hr hi]

theorem checkRuns_mapBad : checkRuns.mapBad 0 = none := by
  refine List.find?_eq_none.2 fun n hn => ?_
  have hlt := List.mem_range.1 hn
  rw [checkRuns_good _ _ (by omega) (by omega)]
  decide

theorem checkRuns_enables : (checkRuns.mapChecked 0).rd (R.ENABLE (Blk.DRN.pg 0)) = 1 := by
  rw [State.mapChecked, if_neg (by decide +kernel), checkRuns_mapBad]
  decide +kernel

/-- Refutes O54: the check that passes sets ENABLE, a field beside the two that the statement lets change. -/
theorem not_darningAndBanks : ¬ Obligations.DarningAndBanks := by
  intro h
  obtain ⟨-, -, -, -, -, -, -, hcheck⟩ := h .w 0 checkRuns rfl
  obtain ⟨hpass, -⟩ := hcheck (by decide +kernel) (by decide +kernel)
  obtain ⟨t, hnext, -, -, hsame⟩ := hpass checkRuns_good
  obtain rfl : _ = t := Host.Outcome.next.inj hnext
  have henable := hsame.1 (R.ENABLE (Blk.DRN.pg 0)) (by decide +kernel)
  rw [show Half.no .w = 0 from rfl, checkRuns_enables] at henable
  exact absurd henable (by decide +kernel)

/-! ### A waiting sequencer whose clock stands -/

/-- A Press engine that waits for a layer that its queue does not hold, while CTL runs on the RC oscillator. -/
def gatedWait : State := fl (dp [] (some (.layer 5))) [(R.CLK_SEL_CUR, 0)]

theorem gatedWait_stays : ((gatedWait.pressRelease 0).press 0).wait = some (.layer 5) := by decide +kernel

/-- Refutes O56: the wait's release is stated without the clock, but a Press engine whose CORE clock stands goes on waiting (R93). -/
theorem not_datapathAndWaits : ¬ Obligations.DatapathAndWaits := by
  intro h
  obtain ⟨-, -, -, -, hlayer, -⟩ := h .w 0 gatedWait rfl
  obtain ⟨-, hrelease⟩ := hlayer 5 (by decide +kernel)
  obtain ⟨t, hnext, hgone, -⟩ := hrelease (by decide +kernel)
  obtain rfl : _ = t := Host.Outcome.next.inj hnext
  exact absurd (gatedWait_stays.symm.trans hgone) (by decide)

end Sys2Proof.Machine
end

section
/-! O55: the instructions of a press list. -/

namespace Sys2Proof.Machine

/-- A window runs as long as its header, its step of the handshake and the rails do not change. -/
theorem State.running_congr {s t : State} {b : Blk} {w : Nat} (hen : t.rd (R.ENABLE (b.pg w)) = s.rd (R.ENABLE (b.pg w)))
    (hrun : t.rd (R.RUN (b.pg w)) = s.rd (R.RUN (b.pg w))) (hpark : t.rd R.PWR_PARKED_STEPS = s.rd R.PWR_PARKED_STEPS)
    (hpins : t.pins = s.pins) : t.running b w = s.running b w := by
  unfold State.running State.enabled State.on State.run State.parked
  rw [hen, hrun, hpark, hpins]

/-- The sequencer of half `h` is about to execute the instruction `op` with the operand `o`. -/
structure PressAt (s : State) (h op o : Nat) : Prop where
  active : (s.press h).active = true
  seqOn : (s.press h).seqOn = true
  wait : (s.press h).wait = none
  order : (s.press h).order = []
  pc : (s.press h).pc ≤ 255
  count : (s.press h).count < 4096
  gate : s.coreGated = false
  word : s.pressInstr h (s.press h).pc = op * 2 ^ 60 + o
  operand : o < 2 ^ 60

/-- The state in which an instruction executes: it is counted. -/
def State.pressCounted (s : State) (h : Nat) : State := s.setPress h { s.press h with count := (s.press h).count + 1 }

/-- The record of an error of a press list. -/
def pressErrFlds (h : Nat) : List Fld := [R.PRS_STATUS_ERR h, R.PRS_STATUS_PC h, R.PRS_EVT_LISTERR h]

/-- A change of the Press alone is no field and no byte. -/
theorem sameElse.setPress {s t : State} {fs : List Fld} (h : sameElse s t fs) (k : Nat) (x : Press) : sameElse s (t.setPress k x) fs :=
  h.of_eq rfl rfl rfl

section
variable {s : State} {h op o : Nat}

/-- The sequencer is ready for the word at the program counter. -/
theorem PressAt.ready (p : PressAt s h op o) :
    (!((s.press h).active && (s.press h).seqOn && (s.press h).wait.isNone && (s.press h).order.isEmpty) || s.coreGated) = false := by
  simp [p.active, p.seqOn, p.wait, p.order, p.gate]

/-- A reserved instruction is a list error (R159). -/
theorem PressAt.reserved (p : PressAt s h op o) (hr : pressReserved (op * 2 ^ 60 + o) = true) (n : Nat) (f : State → Nat → State) :
    s.pressOp h n f = s.listError h (s.press h).pc peReserved := by
  have hfetch : s.fetchPress h n = .error (s.listError h (s.press h).pc peReserved) := by
    simp only [State.fetchPress, p.ready, p.word, hr, Nat.not_lt.2 p.pc, Nat.not_le.2 p.count, if_true, if_false, Bool.false_eq_true]
  rw [State.pressOp, hfetch]

/-- An instruction that is not reserved executes, with its operand. -/
theorem PressAt.runs (p : PressAt s h op o) (hr : pressReserved (op * 2 ^ 60 + o) = false) (f : State → Nat → State) :
    s.pressOp h op f = f (s.pressCounted h) o := by
  have hlt := p.operand
  have hop : (op * 2 ^ 60 + o) / 2 ^ 60 = op := by omega
  have hoperand : (op * 2 ^ 60 + o) % 2 ^ 60 = o := by omega
  have hfetch : s.fetchPress h op = .ok (s.pressCounted h, o) := by
    simp only [State.fetchPress, p.ready, p.word, hr, hop, hoperand, Nat.not_lt.2 p.pc, Nat.not_le.2 p.count, if_false, ne_eq,
      not_true_eq_false, Bool.false_eq_true]
    rfl
  rw [State.pressOp, hfetch]

/-- A list error: its record, and the list abandoned. -/
theorem State.listError_spec (s : State) (h pc kind : Nat) (hh : h < 2) (hpc : pc ≤ 255) (hkind : kind < 8) :
    (s.listError h pc kind).rd (R.PRS_STATUS_ERR h) = kind ∧ (s.listError h pc kind).rd (R.PRS_STATUS_PC h) = pc ∧
      ((s.listError h pc kind).press h).seqOn = false ∧ ((s.listError h pc kind).press h).failed = true ∧
      ((s.listError h pc kind).press h).queue = [] ∧
      (s.listError h pc kind).rd (R.PRS_EVT_LISTERR h) = min (s.rd (R.PRS_EVT_LISTERR h) + 1) 4294967295 ∧
      sameElse s (s.listError h pc kind) (pressErrFlds h) := by
  obtain rfl | rfl : h = 0 ∨ h = 1 := by omega
  all_goals
    refine ⟨?_, ?_, by simp [State.listError, State.abandon], by simp [State.listError, State.abandon],
      by simp [State.listError, State.abandon], ?_, ?_⟩
    · simp (disch := decide) only [State.listError, State.abandon, State.rd_setPress, State.rd_wr_ne, State.rd_wr_same]
      exact Nat.mod_eq_of_lt hkind
    · simp (disch := decide) only [State.listError, State.abandon, State.rd_setPress, State.rd_wr_same]
      exact Nat.mod_eq_of_lt (by change pc < 256; omega)
    · simp (disch := decide) only [State.listError, State.abandon, State.rd_setPress, State.rd_wr_ne, State.rd_count32]
    · exact (((sameElse.refl s _).count (by simp [pressErrFlds])).wr (by simp [pressErrFlds])).wr (by simp [pressErrFlds]) |>.setPress _ _


/-! ### The counted state -/

@[simp] theorem State.press_pressCounted (s : State) (h : Nat) :
    (s.pressCounted h).press h = { s.press h with count := (s.press h).count + 1 } := State.press_setPress_same _ _ _

theorem State.rd_pressCounted (s : State) (h : Nat) (f : Fld) : (s.pressCounted h).rd f = s.rd f := rfl

theorem State.pressCounted_sameElse (s : State) (h : Nat) : sameElse s (s.pressCounted h) [] := (sameElse.refl s []).setPress _ _

theorem State.coreGated_setPress (s : State) (h : Nat) (x : Press) : (s.setPress h x).coreGated = s.coreGated := rfl

theorem State.coreGated_pressCounted (s : State) (h : Nat) : (s.pressCounted h).coreGated = s.coreGated := rfl

/-! ### END -/

/-- While the datapath has steps left the composition goes on. -/
theorem State.pressFinish_queue (s : State) (h : Nat) (hq : (s.press h).queue ≠ []) : s.pressFinish h = s := by
  have : (s.press h).queue.isEmpty = false := by simpa using hq
  simp [State.pressFinish, this]

/-- The composition is complete: its clocks, and the darning run of a half that darns (R157, R168). -/
theorem State.pressFinish_spec {s : State} {h : Nat} (ha : (s.press h).active = true) (hs : (s.press h).seqOn = false)
    (hf : (s.press h).failed = false) (hc : (s.press h).complete = false) (hq : (s.press h).queue = []) (hb : (s.press h).bgDone = true)
    (hh : h < 2) :
    ((s.pressFinish h).press h).complete = true ∧
      (s.pressFinish h).rd (R.PRS_LAST_CYCLES_CLOCKS h) = max (s.press h).t (s.press h).dp % 4294967296 ∧
      (s.running .DRN h = true → ((s.pressFinish h).darn h).running = true) ∧ sameElse s (s.pressFinish h) [R.PRS_LAST_CYCLES_CLOCKS h] := by
  have hready : s.pressReady h false = s := by simp [State.pressReady, hb]
  have hrunning (x : Press) (v : Nat) : ((s.setPress h x).wr (R.PRS_LAST_CYCLES_CLOCKS h) v).running .DRN h = s.running .DRN h := by
    obtain rfl | rfl : h = 0 ∨ h = 1 := by omega
    all_goals exact State.running_congr (State.rd_wr_ne _ _ (by decide)) (State.rd_wr_ne _ _ (by decide)) (State.rd_wr_ne _ _ (by decide)) rfl
  have heq : s.pressFinish h =
      let t := (s.setPress h { s.press h with complete := true }).wr (R.PRS_LAST_CYCLES_CLOCKS h) (max (s.press h).t (s.press h).dp)
      if s.running .DRN h then t.setDarn h { t.darn h with running := true } else t := by
    simp [State.pressFinish, ha, hs, hf, hc, hq, hready, hrunning]
  have hframe : sameElse s ((s.setPress h { s.press h with complete := true }).wr (R.PRS_LAST_CYCLES_CLOCKS h) (max (s.press h).t (s.press h).dp))
      [R.PRS_LAST_CYCLES_CLOCKS h] := ((sameElse.refl s _).setPress _ _).wr (by simp)
  rw [heq]
  split
  · exact ⟨congrArg Press.complete (State.press_setPress_same s h _), State.rd_wr_same _ _ _, fun _ => by simp, hframe.of_eq rfl rfl rfl⟩
  · next hoff =>
    exact ⟨congrArg Press.complete (State.press_setPress_same s h _), State.rd_wr_same _ _ _, fun hon => absurd hon hoff, hframe⟩

/-- END with steps in the datapath's queue: the sequencer stops. -/
theorem PressAt.end_queue (p : PressAt s h 0 o) (hr : pressReserved (0 * 2 ^ 60 + o) = false) (hg : (s.press h).group = none)
    (hq : (s.press h).queue ≠ []) :
    let t := s.pressEnd h
    (t.press h).seqOn = false ∧ (t.press h).t = (s.press h).t + 1 ∧ (t.press h).complete = (s.press h).complete ∧ sameElse s t [] := by
  rw [State.pressEnd, p.runs hr]
  simp only [State.press_pressCounted, hg, Option.isSome_none, Bool.false_eq_true, if_false]
  rw [State.pressFinish_queue _ _ (by simpa using hq)]
  exact ⟨by simp, by simp, by simp, (s.pressCounted_sameElse h).setPress _ _⟩

/-- END with an empty queue: the composition is complete. -/
theorem PressAt.end_done (p : PressAt s h 0 o) (hr : pressReserved (0 * 2 ^ 60 + o) = false) (hh : h < 2) (hg : (s.press h).group = none)
    (hq : (s.press h).queue = []) (hf : (s.press h).failed = false) (hc : (s.press h).complete = false) (hb : (s.press h).bgDone = true) :
    let t := s.pressEnd h
    (t.press h).complete = true ∧ t.rd (R.PRS_LAST_CYCLES_CLOCKS h) = max ((s.press h).t + 1) (s.press h).dp % 4294967296 ∧
      (s.running .DRN h = true → (t.darn h).running = true) ∧ sameElse s t [R.PRS_LAST_CYCLES_CLOCKS h] := by
  rw [State.pressEnd, p.runs hr]
  simp only [State.press_pressCounted, hg, Option.isSome_none, Bool.false_eq_true, if_false]
  obtain ⟨hdone, hclocks, hdarn, hframe⟩ := State.pressFinish_spec (h := h)
    (s := (s.pressCounted h).setPress h { s.press h with count := (s.press h).count + 1, group := none, seqOn := false, t := (s.press h).t + 1 })
    (by simp [p.active]) (by simp) (by simp [hf]) (by simp [hc]) (by simp [hq]) (by simp [hb]) hh
  refine ⟨hdone, ?_, hdarn, ?_⟩
  · rw [hclocks, State.press_setPress_same]
  · exact (((s.pressCounted_sameElse h).setPress _ _).mono (List.nil_subset _)).trans hframe

/-! ### LAYER and ORDER -/

/-- The step that is issued of a layer (R155). -/
def State.nextIssued (s : State) (h k mode : Nat) : PStep :=
  let e := s.press h
  { layer := k, mode := mode, clip := e.clip, balpha := e.balpha, issue := max e.t (e.starts.getD (15 - e.queued) 0) }

theorem State.issueStep_noGroup {s : State} {h : Nat} (hg : (s.press h).group = none) (k mode : Nat) :
    s.issueStep h k mode = s.setPress h { s.press h with
      t := (s.nextIssued h k mode).issue + 1
      issued := (s.press h).issued + 1
      queue := (s.press h).queue ++ [.step (s.nextIssued h k mode)] } := by
  simp only [State.issueStep, hg]
  rfl

/-- LAYER: one step more in the queue. -/
theorem PressAt.layer (p : PressAt s h 1 o) (hr : pressReserved (1 * 2 ^ 60 + o) = false) (hq : (s.press h).queued < 16)
    (hg : (s.press h).group = none) :
    let t := s.pressLayer h
    (t.press h).pc = (s.press h).pc + 1 ∧ (t.press h).issued = (s.press h).issued + 1 ∧ sameElse s t [] ∧
      ∃ x : PStep, (t.press h).queue = (s.press h).queue ++ [.step x] ∧ x.layer = o % 16 ∧ x.clip = (s.press h).clip ∧
        x.balpha = (s.press h).balpha ∧ (s.press h).t ≤ x.issue ∧ (t.press h).t = x.issue + 1 ∧
        x.mode = if bitsOf o 4 3 = 4 then (s.press h).mode else if bitsOf o 4 3 = 7 then s.rd (R.LYR_CFG_MODE h (o % 16)) else bitsOf o 4 3 := by
  rw [State.pressLayer, if_neg (by omega), p.runs hr]
  have hg' : ((s.pressCounted h).press h).group = none := by simp [hg]
  simp only [State.issueStep_noGroup hg', State.pressNext, State.press_setPress_same]
  refine ⟨by simp, by simp, ((s.pressCounted_sameElse h).setPress _ _).setPress _ _, _, by simp, rfl, ?_, ?_, ?_, rfl, ?_⟩
  all_goals simp [State.nextIssued, State.rd_pressCounted]

/-- One step of an ORDER in progress (R155). -/
def orderStep (h k : Nat) (a : State) : State :=
  let e := a.press h
  if e.order.head? = some k && decide (e.queued < 16) then
    (a.setPress h { e with order := e.order.tail }).issueStep h k (a.rd (R.LYR_CFG_MODE h k))
  else a

theorem Press.queued_push {e f : Press} {x : PStep} (hq : f.queue = e.queue ++ [.step x]) (hg : f.group = e.group) :
    f.queued = e.queued + 1 := by
  simp only [Press.queued, hq, hg, List.foldl_append, List.foldl_cons, List.foldl_nil, PItem.size]
  omega

/-- The layer at the front of the ORDER is issued. -/
theorem orderStep_issues {h k : Nat} {l : List Nat} {a : State} (ho : (a.press h).order = k :: l) (hg : (a.press h).group = none)
    (hq : (a.press h).queued < 16) :
    let b := orderStep h k a
    (b.press h).order = l ∧ (b.press h).group = none ∧ (b.press h).pc = (a.press h).pc ∧ sameElse a b [] ∧
      ∃ x : PStep, (b.press h).queue = (a.press h).queue ++ [.step x] ∧ x.layer = k := by
  have hg' : ((a.setPress h { a.press h with order := l }).press h).group = none := by simp [hg]
  rw [orderStep, if_pos (by simp [ho, hq]), ho, List.tail_cons, State.issueStep_noGroup hg']
  exact ⟨by simp, by simp [hg], by simp, ((sameElse.refl a []).setPress _ _).setPress _ _,
    (a.setPress h { a.press h with order := l }).nextIssued h k (a.rd (R.LYR_CFG_MODE h k)), by simp, rfl⟩

/-- While the queue has room every layer of the ORDER is issued, in order. -/
theorem orderSteps_issue {h : Nat} (l : List Nat) (a : State) (ho : (a.press h).order = l) (hg : (a.press h).group = none)
    (hq : (a.press h).queued + l.length ≤ 16) :
    let b := forL l (orderStep h) a
    (b.press h).order = [] ∧ (b.press h).pc = (a.press h).pc ∧ sameElse a b [] ∧
      ∃ xs, (b.press h).queue = (a.press h).queue ++ xs ∧ xs.map PItem.layers = l.map (fun k => [k]) := by
  induction l generalizing a with
  | nil => exact ⟨ho, rfl, sameElse.refl _ _, [], by simp [forL], rfl⟩
  | cons k l ih =>
    rw [List.length_cons] at hq
    obtain ⟨ho1, hg1, hpc1, hframe1, x, hqueue1, hlayer⟩ := orderStep_issues ho hg (by omega)
    obtain ⟨hdone, hpc, hframe, xs, hqueue, hlayers⟩ := ih (orderStep h k a) ho1 hg1
      (by have := Press.queued_push hqueue1 (hg1.trans hg.symm); omega)
    exact ⟨hdone, hpc.trans hpc1, hframe1.trans hframe, .step x :: xs, hqueue.trans (by simp [hqueue1]), by simp [hlayers, PItem.layers, hlayer]⟩

/-- An ORDER whose layers have all been issued goes on at the next instruction. -/
theorem State.issueOrder_done {s a : State} {h : Nat} {l : List Nat} {xs : List PItem} (ho : (a.press h).order = l)
    (hdone : ((forL l (orderStep h) a).press h).order = []) (hpc : ((forL l (orderStep h) a).press h).pc = (s.press h).pc)
    (hframe : sameElse s (forL l (orderStep h) a) []) (hqueue : ((forL l (orderStep h) a).press h).queue = (s.press h).queue ++ xs)
    (hlayers : xs.map PItem.layers = l.map (fun k => [k])) :
    let t := a.issueOrder h
    (t.press h).pc = (s.press h).pc + 1 ∧ (t.press h).order = [] ∧ sameElse s t [] ∧
      ((t.press h).queue.drop (s.press h).queue.length).map PItem.layers = l.map (fun k => [k]) := by
  have heq : a.issueOrder h = (forL l (orderStep h) a).setPress h
      { (forL l (orderStep h) a).press h with pc := ((forL l (orderStep h) a).press h).pc + 1 } := by
    have hsteps : a.issueOrder h = (let b := forL l (orderStep h) a
        if (b.press h).order.isEmpty then b.setPress h { b.press h with pc := (b.press h).pc + 1 } else b) := by
      rw [State.issueOrder, ho]
      rfl
    rw [hsteps]
    exact if_pos (by rw [hdone]; rfl)
  rw [heq]
  exact ⟨by simp [hpc], by simp [hdone], hframe.setPress _ _, by simp [hqueue, hlayers]⟩

/-- ORDER with room for all its layers. -/
theorem PressAt.order_fits (p : PressAt s h 2 o) (hr : pressReserved (2 * 2 ^ 60 + o) = false) (hg : (s.press h).group = none)
    (hq : (s.press h).queued + (maskOrder (o % 65536) (bitsOf o 16 1)).length ≤ 16) :
    let t := s.pressOrder h
    (t.press h).pc = (s.press h).pc + 1 ∧ (t.press h).order = [] ∧ sameElse s t [] ∧
      ((t.press h).queue.drop (s.press h).queue.length).map PItem.layers = (maskOrder (o % 65536) (bitsOf o 16 1)).map (fun k => [k]) := by
  have hidle : ((s.press h).active && (s.press h).seqOn && (s.press h).wait.isNone && !(s.press h).order.isEmpty) = false := by
    simp [p.order]
  rw [State.pressOrder]
  simp only [hidle, Bool.false_eq_true, if_false, p.runs hr]
  obtain ⟨hdone, hpc, hframe, xs, hqueue, hlayers⟩ := orderSteps_issue (h := h) (maskOrder (o % 65536) (bitsOf o 16 1))
    ((s.pressCounted h).setPress h { (s.pressCounted h).press h with
      t := ((s.pressCounted h).press h).t + 1, order := maskOrder (o % 65536) (bitsOf o 16 1) })
    (by simp) (by simp [hg]) (by simpa [Press.queued] using hq)
  exact State.issueOrder_done (by simp) hdone (hpc.trans (by simp)) (((s.pressCounted_sameElse h).setPress _ _).trans hframe)
    (hqueue.trans (by simp)) hlayers

/-! ### The instructions of one clock -/

/-- BLEND sets the mode and alpha of the steps after it. -/
theorem PressAt.blend (p : PressAt s h 3 o) (hr : pressReserved (3 * 2 ^ 60 + o) = false) :
    let t := s.pressBlend h
    (t.press h).mode = o % 4 ∧ (t.press h).balpha = bitsOf o 16 10 ∧ (t.press h).pc = (s.press h).pc + 1 ∧
      (t.press h).t = (s.press h).t + 1 ∧ sameElse s t [] := by
  rw [State.pressBlend, p.runs hr]
  exact ⟨by simp [State.pressNext], by simp [State.pressNext], by simp [State.pressNext], by simp [State.pressNext],
    ((s.pressCounted_sameElse h).setPress _ _).setPress _ _⟩

/-- WINDOW sets the clip, cut to the half window. -/
theorem PressAt.window (p : PressAt s h 4 o) (hr : pressReserved (4 * 2 ^ 60 + o) = false) :
    let t := s.pressWindow h
    (t.press h).pc = (s.press h).pc + 1 ∧ (t.press h).clip.x0 = bitsOf o 0 12 ∧ (t.press h).clip.y0 = bitsOf o 12 12 ∧
      (t.press h).clip.x1 = max (bitsOf o 0 12) (min (bitsOf o 0 12 + bitsOf o 24 12) (s.winW h)) ∧
      (t.press h).clip.y1 = max (bitsOf o 12 12) (min (bitsOf o 12 12 + bitsOf o 36 12) (s.winH h)) ∧ sameElse s t [] := by
  rw [State.pressWindow, p.runs hr]
  refine ⟨by simp [State.pressNext], ?_, ?_, ?_, ?_, ((s.pressCounted_sameElse h).setPress _ _).setPress _ _⟩
  all_goals simp [State.pressNext, Rect.meet, State.winRect, State.winW, State.winH, State.rd_pressCounted]

/-- FLAT opens a group. -/
theorem PressAt.flat (p : PressAt s h 5 o) (hr : pressReserved (5 * 2 ^ 60 + o) = false) (hg : (s.press h).group = none) :
    let t := s.pressFlat h
    (t.press h).pc = (s.press h).pc + 1 ∧ sameElse s t [] ∧
      ∃ g : PGroup, (t.press h).group = some g ∧ g.slot = o % 4 ∧ g.n = bitsOf o 4 4 ∧ g.steps = [] ∧
        g.bottom = decide ((s.press h).issued = 0) := by
  rw [State.pressFlat, p.runs hr]
  simp only [State.press_pressCounted, hg, Option.isSome_none, Bool.false_eq_true, if_false]
  exact ⟨by simp [State.pressNext], ((s.pressCounted_sameElse h).setPress _ _).setPress _ _, _, by simp [State.pressNext]; rfl, rfl, rfl, rfl, rfl⟩

/-- FLAT while a group is open is a list error (R159). -/
theorem PressAt.flat_open (p : PressAt s h 5 o) (hr : pressReserved (5 * 2 ^ 60 + o) = false) (hh : h < 2) {g : PGroup}
    (hg : (s.press h).group = some g) :
    let t := s.pressFlat h
    t.rd (R.PRS_STATUS_ERR h) = peFlat ∧ t.rd (R.PRS_STATUS_PC h) = (s.press h).pc ∧ (t.press h).failed = true := by
  rw [State.pressFlat, p.runs hr]
  simp only [State.press_pressCounted, hg, Option.isSome_some, if_true]
  obtain ⟨herr, hpc, -, hfailed, -⟩ := (s.pressCounted h).listError_spec h (s.press h).pc peFlat hh p.pc (by decide)
  exact ⟨herr, hpc, hfailed⟩

/-- JUMP, taken or not. -/
theorem PressAt.jump (p : PressAt s h 8 o) (hr : pressReserved (8 * 2 ^ 60 + o) = false) :
    let t := s.pressJump h
    (t.press h).pc = (if bitsOf o 8 2 = 0 ∨ bitsOf o 8 2 = 1 ∧ (s.press h).flag = true ∨ bitsOf o 8 2 = 2 ∧ (s.press h).flag = false
        then o % 256 else (s.press h).pc + 1) ∧
      (t.press h).t = (s.press h).t + 2 ∧ sameElse s t [] := by
  rw [State.pressJump, p.runs hr]
  have hcond : (decide (bitsOf o 8 2 = 0) || (decide (bitsOf o 8 2 = 1) && (s.press h).flag) || (decide (bitsOf o 8 2 = 2) && !(s.press h).flag)) =
      decide (bitsOf o 8 2 = 0 ∨ bitsOf o 8 2 = 1 ∧ (s.press h).flag = true ∨ bitsOf o 8 2 = 2 ∧ (s.press h).flag = false) := by
    simp [Bool.or_assoc]
  simp only [State.press_pressCounted, hcond, decide_eq_true_eq]
  split
  · exact ⟨by simp, by simp, (s.pressCounted_sameElse h).setPress _ _⟩
  · exact ⟨by simp [State.pressNext], by simp [State.pressNext], (s.pressCounted_sameElse h).setPress _ _⟩

/-- COND sets the flag by its test. -/
theorem PressAt.cond (p : PressAt s h 9 o) (hr : pressReserved (9 * 2 ^ 60 + o) = false) :
    let t := s.pressCond h
    (t.press h).flag = s.pressTest h (o % 16) (bitsOf o 8 4) ∧ (t.press h).pc = (s.press h).pc + 1 ∧ sameElse s t [] := by
  have htest : (s.pressCounted h).pressTest h (o % 16) (bitsOf o 8 4) = s.pressTest h (o % 16) (bitsOf o 8 4) := rfl
  rw [State.pressCond, p.runs hr]
  exact ⟨by simp [State.pressNext, htest], by simp [State.pressNext], ((s.pressCounted_sameElse h).setPress _ _).setPress _ _⟩

/-! ### The instructions that wait -/

/-- WAITL of a layer that no step in the queue reads goes on. -/
theorem PressAt.waitl_free (p : PressAt s h 6 o) (hr : pressReserved (6 * 2 ^ 60 + o) = false)
    (hq : (s.press h).queue.any (fun i => i.layers.contains (o % 16)) = false) :
    let t := s.pressWaitl h
    (t.press h).wait = none ∧ (t.press h).pc = (s.press h).pc + 1 ∧ sameElse s t [] := by
  rw [State.pressWaitl, p.runs hr]
  simp only [State.pressRelease, State.coreGated_setPress, State.coreGated_pressCounted, p.gate, State.press_setPress_same,
    State.press_pressCounted, hq, Bool.false_eq_true, if_false]
  exact ⟨trivial, trivial, ((s.pressCounted_sameElse h).setPress _ _).setPress _ _⟩

/-- WAITL of a layer that a step in the queue reads waits. -/
theorem PressAt.waitl_waits (p : PressAt s h 6 o) (hr : pressReserved (6 * 2 ^ 60 + o) = false)
    (hq : (s.press h).queue.any (fun i => i.layers.contains (o % 16)) = true) :
    let t := s.pressWaitl h
    (t.press h).wait = some (.layer (o % 16)) ∧ (t.press h).pc = (s.press h).pc ∧ sameElse s t [] := by
  rw [State.pressWaitl, p.runs hr]
  simp only [State.pressRelease, State.coreGated_setPress, State.coreGated_pressCounted, p.gate, State.press_setPress_same,
    State.press_pressCounted, hq, Bool.false_eq_true, if_false, if_true]
  exact ⟨trivial, trivial, (s.pressCounted_sameElse h).setPress _ _⟩

/-- What the other half's SYNC asks for is not the half's own to change. -/
theorem State.syncPast_setPress_ne (s : State) {h k : Nat} (x : Press) (hk : k ≠ h) : (s.setPress h x).syncPast k = s.syncPast k := by
  simp only [State.syncPast, State.press_setPress_ne s x hk]
  rfl

/-- SYNC that need not wait for the other half goes on. -/
theorem PressAt.sync_past (p : PressAt s h 7 o) (hr : pressReserved (7 * 2 ^ 60 + o) = false) (hh : h < 2) (hpast : s.syncPast (1 - h) = true) :
    let t := s.pressSync h
    (t.press h).wait = none ∧ (t.press h).pc = (s.press h).pc + 1 ∧ sameElse s t [] := by
  have hk : 1 - h ≠ h := by omega
  have hpast' (x : Press) : ((s.pressCounted h).setPress h x).syncPast (1 - h) = true := by
    rw [State.syncPast_setPress_ne _ _ hk, State.pressCounted, State.syncPast_setPress_ne _ _ hk, hpast]
  rw [State.pressSync, p.runs hr]
  simp only [State.pressRelease, State.coreGated_setPress, State.coreGated_pressCounted, p.gate, State.press_setPress_same,
    State.press_pressCounted, otherHalf, hpast', Bool.false_eq_true, if_false, if_true]
  exact ⟨trivial, trivial, ((s.pressCounted_sameElse h).setPress _ _).setPress _ _⟩

/-- SYNC waits for a half whose engine runs its list and does not wait. -/
theorem PressAt.sync_waits (p : PressAt s h 7 o) (hr : pressReserved (7 * 2 ^ 60 + o) = false) (hh : h < 2)
    (hpast : s.syncPast (1 - h) = false) (hw : (s.press (1 - h)).wait = none) :
    let t := s.pressSync h
    (t.press h).wait = some .sync ∧ (t.press h).pc = (s.press h).pc ∧ sameElse s t [] := by
  have hk : 1 - h ≠ h := by omega
  have hpast' (x : Press) : ((s.pressCounted h).setPress h x).syncPast (1 - h) = false := by
    rw [State.syncPast_setPress_ne _ _ hk, State.pressCounted, State.syncPast_setPress_ne _ _ hk, hpast]
  have hw' (x : Press) : (((s.pressCounted h).setPress h x).press (1 - h)).wait = none := by
    rw [State.press_setPress_ne _ _ hk, State.pressCounted, State.press_setPress_ne _ _ hk, hw]
  rw [State.pressSync, p.runs hr]
  simp only [State.pressRelease, State.coreGated_setPress, State.coreGated_pressCounted, p.gate, State.press_setPress_same,
    State.press_pressCounted, otherHalf, hpast', hw', Bool.false_eq_true, if_false, reduceCtorEq]
  exact ⟨trivial, trivial, (s.pressCounted_sameElse h).setPress _ _⟩

/-- A reserved instruction abandons the list, whatever instruction's command meets it. -/
theorem PressAt.reserved_commands (p : PressAt s h op o) (hr : pressReserved (op * 2 ^ 60 + o) = true) (hq : (s.press h).queued < 16)
    {half : Half} (hhalf : Half.no half = h) {c : Instr}
    (hc : c ∈ [Instr.pressEnd half, Instr.pressLayer half, Instr.pressOrder half, Instr.pressBlend half, Instr.pressWindow half,
      Instr.pressFlat half, Instr.pressWaitl half, Instr.pressSync half, Instr.pressJump half, Instr.pressCond half]) :
    exec c s = .next (s.listError h (s.press h).pc peReserved) := by
  subst hhalf
  have hidle : ((s.press (Half.no half)).active && (s.press (Half.no half)).seqOn && (s.press (Half.no half)).wait.isNone &&
      !(s.press (Half.no half)).order.isEmpty) = false := by
    simp [p.order]
  simp only [List.mem_cons, List.not_mem_nil, or_false] at hc
  obtain rfl | rfl | rfl | rfl | rfl | rfl | rfl | rfl | rfl | rfl := hc
  case inr.inl =>
    refine congrArg Host.Outcome.next ?_
    rw [State.pressLayer, if_neg (by omega), p.reserved hr]
  case inr.inr.inl =>
    refine congrArg Host.Outcome.next ?_
    simp only [State.pressOrder, hidle, Bool.false_eq_true, if_false, p.reserved hr]
  all_goals exact congrArg Host.Outcome.next (p.reserved hr _ _)

end

theorem Half.no_lt (half : Half) : Half.no half < 2 := by cases half <;> decide

/-- Settles O55: each instruction by its own lemma on the sequencer that stands at it, and a reserved one by the record of its list error. -/
theorem pressInstructions : Obligations.PressInstructions := by
  intro half h op o s hhalf ha hseq hw ho hpc hcount hq hgate hword hop
  have p : PressAt s h op o := ⟨ha, hseq, hw, ho, hpc, hcount, hgate, hword, hop⟩
  have hh : h < 2 := hhalf ▸ Half.no_lt half
  refine ⟨fun hr c hc => ⟨_, p.reserved_commands hr hq hhalf hc, s.listError_spec h _ _ hh hpc (by decide)⟩, fun hr => ?_⟩
  subst hhalf
  refine ⟨?_, ?_, ?_, ?_, ?_, ?_, ?_, ?_, ?_, ?_⟩
  · rintro rfl hg
    exact ⟨fun hne => ⟨_, rfl, p.end_queue hr hg hne⟩, fun he hf hc hb => ⟨_, rfl, p.end_done hr hh hg he hf hc hb⟩⟩
  · rintro rfl hg
    exact ⟨_, rfl, p.layer hr hq hg⟩
  · rintro rfl hg hroom
    exact ⟨_, rfl, p.order_fits hr hg hroom⟩
  · rintro rfl
    exact ⟨_, rfl, p.blend hr⟩
  · rintro rfl
    exact ⟨_, rfl, p.window hr⟩
  · rintro rfl
    exact ⟨fun hg => ⟨_, rfl, p.flat hr hg⟩, fun g hg => ⟨_, rfl, p.flat_open hr hh hg⟩⟩
  · rintro rfl
    exact ⟨fun hfree => ⟨_, rfl, p.waitl_free hr hfree⟩, fun hbusy => ⟨_, rfl, p.waitl_waits hr hbusy⟩⟩
  · rintro rfl
    exact ⟨fun hpast => ⟨_, rfl, p.sync_past hr hh hpast⟩, fun hnot hnone => ⟨_, rfl, p.sync_waits hr hh hnot hnone⟩⟩
  · rintro rfl
    exact ⟨_, rfl, p.jump hr⟩
  · rintro rfl
    exact ⟨_, rfl, p.cond hr⟩

end Sys2Proof.Machine
end

section
/-! Bits of a number: what a bit reads after one is set or cleared. -/

namespace Sys2Proof.Machine

theorem bitOf_eq_testBit (v i : Nat) : bitOf v i = v.testBit i := by
  rw [Nat.testBit_eq_decide_div_mod_eq, bitOf]

theorem bitOf_mod (v w i : Nat) : bitOf (v % 2 ^ w) i = (decide (i < w) && bitOf v i) := by
  rw [bitOf_eq_testBit, bitOf_eq_testBit, Nat.testBit_mod_two_pow]

/-- Setting a clear bit leaves the bits above it: nothing is carried. -/
theorem testBit_two_pow_add_lt {v i j : Nat} (h : v.testBit i = false) (hij : i < j) : (2 ^ i + v).testBit j = v.testBit j := by
  have hhalf : (2 ^ i + v) / 2 ^ i / 2 = v / 2 ^ i / 2 := by
    rw [Nat.testBit_eq_decide_div_mod_eq, decide_eq_false_iff_not] at h
    rw [Nat.add_div_left _ (Nat.two_pow_pos i)]
    omega
  obtain ⟨k, rfl⟩ : ∃ k, j = i + 1 + k := ⟨j - (i + 1), by omega⟩
  have hup (x : Nat) : x.testBit (i + 1 + k) = (x / 2 ^ i / 2).testBit k := by
    rw [Nat.div_div_eq_div_mul, ← Nat.pow_succ, Nat.testBit_div_two_pow, Nat.add_comm k]
  rw [hup, hup, hhalf]

theorem testBit_two_pow_add_ne {v i j : Nat} (h : v.testBit i = false) (hij : j ≠ i) : (2 ^ i + v).testBit j = v.testBit j := by
  rcases Nat.lt_or_gt_of_ne hij with hlt | hgt
  · exact Nat.testBit_two_pow_add_gt hlt v
  · exact testBit_two_pow_add_lt h hgt

/-- A bit that is set or cleared reads so, and no other bit changes. -/
theorem bitOf_withBit (v i j : Nat) (b : Bool) : bitOf (withBit v i b) j = if j = i then b else bitOf v j := by
  unfold withBit
  by_cases hb : bitOf v i = b
  · rw [if_pos hb]
    split
    · next hij => rw [hij, hb]
    · rfl
  · rw [if_neg hb]
    cases b with
    | true =>
      have hclear : v.testBit i = false := by rw [← bitOf_eq_testBit]; simpa using hb
      rw [if_pos rfl, Nat.add_comm, bitOf_eq_testBit, bitOf_eq_testBit]
      split
      · next hij => rw [hij, Nat.testBit_two_pow_add_eq, hclear]; rfl
      · next hij => exact testBit_two_pow_add_ne hclear hij
    | false =>
      have hset : v.testBit i = true := by rw [← bitOf_eq_testBit]; simpa using hb
      obtain ⟨w, rfl⟩ : ∃ w, v = 2 ^ i + w := ⟨v - 2 ^ i, by have := Nat.ge_two_pow_of_testBit hset; omega⟩
      have hclear : w.testBit i = false := by rw [Nat.testBit_two_pow_add_eq] at hset; simpa using hset
      rw [if_neg (by simp), Nat.add_sub_cancel_left, bitOf_eq_testBit, bitOf_eq_testBit]
      split
      · next hij => rw [hij, hclear]
      · next hij => exact (testBit_two_pow_add_ne hclear hij).symm

end Sys2Proof.Machine
end

section
/-! O58: the instructions of the loop engine. -/

namespace Sys2Proof.Machine

/-! ### The lanes of a register -/

/-- A change of the loop engine alone is no field and no byte. -/
theorem sameElse.setLoop {s t : State} {fs : List Fld} (h : sameElse s t fs) (x : Loop) : sameElse s (t.setLoop x) fs :=
  h.of_eq rfl rfl rfl

theorem mem_maskLanes {m l : Nat} : l ∈ maskLanes m ↔ l < 4 ∧ bitOf m l = true := by
  simp [maskLanes]

theorem lwD_lt (w : Nat) : lwD w < 16 := Nat.mod_lt _ (by decide)

theorem lwMask_lt (w : Nat) : lwMask w < 16 := Nat.mod_lt _ (by decide)

/-- The register keys of the lanes of the registers of the slots are all different. -/
theorem vregKey_inj {n d k n' v l : Nat} (hd : d < 16) (hk : k < 4) (hv : v < 16) (hl : l < 4) :
    n' * 64 + v * 4 + l = n * 64 + d * 4 + k ↔ n' = n ∧ v = d ∧ l = k := by
  omega

/-- A lane takes the saturated value, and no other lane changes (R237). -/
theorem State.vreg_setVreg (s : State) {n d k n' v l : Nat} (x : Int) (hd : d < 16) (hk : k < 4) (hv : v < 16) (hl : l < 4) :
    (s.setVreg n d k x).vreg n' v l = if n' = n ∧ v = d ∧ l = k then sat40 x else s.vreg n' v l := by
  have hkey := vregKey_inj (n := n) (n' := n') hd hk hv hl
  split
  · next h =>
    obtain ⟨rfl, rfl, rfl⟩ := h
    exact Sparse.look_put_same _ _ _ _
  · next h => exact Sparse.look_put_ne _ _ _ (fun he => h (hkey.1 he))

/-- The run with its saturation mark set where a value does not fit 40 bits. -/
def LoopRun.marked (r : LoopRun) (b : Bool) : LoopRun := { r with mark := r.mark || b }

theorem State.run_setVreg (s : State) (n d k : Nat) (x : Int) :
    (s.setVreg n d k x).eng.loop.run = s.eng.loop.run.map (fun r => r.marked (decide (sat40 x ≠ x))) := by
  simp only [State.setVreg, State.setLoop, State.setEng]
  split
  · next h => cases s.eng.loop.run <;> simp [h, LoopRun.marked]
  · next h => cases s.eng.loop.run <;> simp [h, LoopRun.marked]

theorem State.setVreg_sameElse (s : State) (n d k : Nat) (x : Int) : sameElse s (s.setVreg n d k x) [] := (sameElse.refl s []).setLoop _

/-- Lanes of one register are written: each takes its saturated value, the run is marked where one saturates, and nothing else changes. -/
theorem State.lanes_written (ls : List Nat) (hls : ∀ l ∈ ls, l < 4) (n d : Nat) (hd : d < 16) (f : Nat → Int) (s : State) :
    let t := forL ls (fun l a => a.setVreg n d l (f l)) s
    (∀ n' v l, v < 16 → l < 4 → t.vreg n' v l = if n' = n ∧ v = d ∧ l ∈ ls then sat40 (f l) else s.vreg n' v l) ∧
      t.eng.loop.run = s.eng.loop.run.map (fun r => r.marked (ls.any (fun l => decide (sat40 (f l) ≠ f l)))) ∧ sameElse s t [] := by
  induction ls generalizing s with
  | nil => exact ⟨by simp [forL], by cases h : s.eng.loop.run <;> simp [forL, h, LoopRun.marked], sameElse.refl s []⟩
  | cons k ls ih =>
    obtain ⟨hvreg, hrun, hframe⟩ := ih (fun l hl => hls l (List.mem_cons_of_mem _ hl)) (s.setVreg n d k (f k))
    have hk : k < 4 := hls k List.mem_cons_self
    refine ⟨fun n' v l hv hl => ?_, ?_, (s.setVreg_sameElse n d k (f k)).trans hframe⟩
    · refine (hvreg n' v l hv hl).trans ?_
      rw [State.vreg_setVreg s (f k) hd hk hv hl]
      by_cases hreg : n' = n ∧ v = d
      · by_cases hmem : l ∈ ls <;> by_cases hlk : l = k <;> simp [hreg, hmem, hlk]
      · have h1 (p : Prop) : ¬(n' = n ∧ v = d ∧ p) := fun h => hreg ⟨h.1, h.2.1⟩
        simp only [if_neg (h1 _)]
    · refine hrun.trans ?_
      rw [State.run_setVreg]
      cases s.eng.loop.run <;> simp [LoopRun.marked, Bool.or_assoc]

/-- The running slot's next instruction is the one fetched. -/
theorem State.loopFetch_run {s : State} {op w : Nat} {r : LoopRun} (h : s.loopFetch op = some (r, w)) : s.eng.loop.run = some r := by
  unfold State.loopFetch at h
  split at h
  · cases h
  · split at h
    · cases h
    · next r' hr =>
      split at h
      · cases h
        exact hr
      · cases h

theorem State.loopNext_run {s : State} {r : LoopRun} (h : s.eng.loop.run = some r) : s.loopNext.eng.loop.run = some { r with pc := r.pc + 1 } := by
  simp [State.loopNext, State.setLoop, State.setEng, h]

/-- An instruction that writes lanes of its register. -/
theorem State.laneInstr_spec {s : State} {r : LoopRun} (hrun : s.eng.loop.run = some r) (w : Nat) (f : Nat → Int) :
    let t := (s.writeLanes r.slot (lwD w) (lwMask w) f).loopNext
    (∀ n v l, v < 16 → l < 4 → t.vreg n v l =
      if n = r.slot ∧ v = lwD w ∧ bitOf (lwMask w) l = true then sat40 (f l) else s.vreg n v l) ∧
    t.eng.loop.run = some { r with pc := r.pc + 1,
                                   mark := r.mark || (maskLanes (lwMask w)).any (fun l => decide (sat40 (f l) ≠ f l)) } ∧
    sameElse s t [] := by
  obtain ⟨hvreg, hmark, hframe⟩ := s.lanes_written (maskLanes (lwMask w)) (fun l hl => (mem_maskLanes.1 hl).1) r.slot (lwD w) (lwD_lt w) f
  refine ⟨fun n v l hv hl => ?_, ?_, hframe.setLoop _⟩
  · refine (hvreg n v l hv hl).trans ?_
    simp [mem_maskLanes, hl]
  · exact State.loopNext_run (hmark.trans (by rw [hrun]; rfl))

/-- A signed field of 16 bits reads the value written, where it fits. -/
theorem State.rdI_wrI_same16 (s : State) {f : Fld} {v : Int} (hw : f.width = 16) (hlo : -32768 ≤ v) (hhi : v < 32768) :
    (s.wrI f v).rdI f = v := by
  unfold State.rdI State.wrI
  rw [State.rd_wr_same, hw]
  simp only [sgn, wrap]
  omega

theorem State.rdI_wr_ne (s : State) {f g : Fld} (v : Nat) (h : g.key ≠ f.key) : (s.wr f v).rdI g = s.rdI g := by
  unfold State.rdI
  rw [State.rd_wr_ne s v h]

theorem State.rdI_wrI_ne (s : State) {f g : Fld} (v : Int) (h : g.key ≠ f.key) : (s.wrI f v).rdI g = s.rdI g := State.rdI_wr_ne s _ h

theorem q15_range (x : Int) : -32768 ≤ q15 x ∧ q15 x < 32768 := by
  simp only [q15, clampI]
  omega

/-! ### ST -/

/-- The exchange words are different fields. -/
theorem xchgF_key_ne {i j : Nat} (h : i ≠ j) : (xchgF i).key ≠ (xchgF j).key := by
  unfold xchgF
  split <;> split <;> simp only [Fld.key, R.LOP_XCHG_X0, R.LOP_XCHG_X1] <;> omega

theorem xchgF_width (j : Nat) : (xchgF j).width = 16 := by
  unfold xchgF
  split <;> rfl

/-- ST of a lane, where no higher lane names its word. -/
theorem State.stored_word (f : Nat → Fld) (x : Nat → Int) (hw : ∀ l, (f l).width = 16) (hx : ∀ l, -32768 ≤ x l ∧ x l < 32768) {l : Nat}
    (ls : List Nat) (hl : l ∈ ls) (hsorted : ls.Pairwise (· < ·)) (hlast : ∀ k ∈ ls, l < k → (f l).key ≠ (f k).key) (s : State) :
    (forL ls (fun k a => a.wrI (f k) (x k)) s).rdI (f l) = x l := by
  induction ls generalizing s with
  | nil => cases hl
  | cons k ls ih =>
    obtain ⟨hk, hls⟩ := List.pairwise_cons.1 hsorted
    by_cases hmem : l ∈ ls
    · exact ih hmem hls (fun j hj => hlast j (List.mem_cons_of_mem _ hj)) _
    · obtain rfl : l = k := (List.mem_cons.1 hl).resolve_right hmem
      have hkept : (forL ls (fun k a => a.wrI (f k) (x k)) (s.wrI (f l) (x l))).rdI (f l) = (s.wrI (f l) (x l)).rdI (f l) := by
        have hne : ∀ k ∈ ls, (f l).key ≠ (f k).key := fun k hk' => hlast k (List.mem_cons_of_mem _ hk') (hk k hk')
        clear ih hl hsorted hlast hk hls hmem
        generalize s.wrI (f l) (x l) = a
        induction ls generalizing a with
        | nil => rfl
        | cons j ls ih =>
          exact (ih (fun k hk => hne k (List.mem_cons_of_mem _ hk)) _).trans (State.rdI_wrI_ne _ _ (hne j List.mem_cons_self))
      exact hkept.trans (State.rdI_wrI_same16 _ (hw l) (hx l).1 (hx l).2)

theorem maskLanes_sorted (m : Nat) : (maskLanes m).Pairwise (· < ·) := List.pairwise_lt_range.filter _

/-- Writes of fields leave the engines. -/
theorem State.eng_forL_wrI (f : Nat → Fld) (x : Nat → Int) (ls : List Nat) (s : State) : (forL ls (fun k a => a.wrI (f k) (x k)) s).eng = s.eng :=
  forL_inv (fun a : State => a.eng = s.eng) rfl (fun _ _ h => h)

/-- ST writes its words and goes on. -/
theorem loopSt_completes {s : State} {r : LoopRun} {w : Nat} (hf : s.loopFetch opSt = some (r, w)) :
    completes .loopSt s (fun t =>
      (∀ n v l, t.vreg n v l = s.vreg n v l) ∧ (t.eng.loop.run.map (fun x : LoopRun => x.pc)) = some (r.pc + 1) ∧
      ∀ l, l < 4 → bitOf (lwMask w) l = true → 64 ≤ lwByte w l → lwByte w l < 96 →
        (∀ k, l < k → k < 4 → bitOf (lwMask w) k = true → lwByte w k ≠ lwByte w l ∧ 64 ≤ lwByte w k ∧ lwByte w k < 96) →
        t.rdI (xchgF (lwByte w l - 64)) = q15 (s.vreg r.slot (lwA w) l)) := by
  have heng := State.eng_forL_wrI (fun l => xchgF (lwByte w l - 64)) (fun l => q15 (s.vreg r.slot (lwA w) l)) (maskLanes (lwMask w)) s
  refine ⟨_, by rw [exec, execLoopSt, hf], fun n v l => ?_, ?_, fun l hl hbit hlo hhi hlast => ?_⟩
  · exact (congrArg (fun e : Engines => Sparse.look e.loop.regs (n * 64 + v * 4 + l) 0) heng :)
  · rw [State.loopNext_run (by rw [heng]; exact State.loopFetch_run hf)]
    rfl
  · refine State.stored_word (fun l => xchgF (lwByte w l - 64)) (fun l => q15 (s.vreg r.slot (lwA w) l)) (fun _ => xchgF_width _)
      (fun _ => q15_range _) _ (mem_maskLanes.2 ⟨hl, hbit⟩) (maskLanes_sorted _) (fun k hk hlk => xchgF_key_ne ?_) s
    obtain ⟨hk4, hkbit⟩ := mem_maskLanes.1 hk
    obtain ⟨hne, hklo, -⟩ := hlast k hlk hk4 hkbit
    omega

/-! ### SELMIN -/

/-- The lanes that compete are lanes, and there is one. -/
theorem State.selLanes_lanes (s : State) (n : Nat) {m : Nat} (hm : m < 16) (h0 : m ≠ 0) :
    s.selLanes n m ≠ [] ∧ (∀ l ∈ s.selLanes n m, l < 4) ∧ (s.selLanes n m).Pairwise (· < ·) := by
  have hne : ∀ x : Nat, x % 16 ≠ 0 → maskLanes x ≠ [] := by
    intro x hx he
    have hbit (l : Nat) (hl : l < 4) : bitOf x l = false := by
      by_contra hb
      have : l ∈ maskLanes x := mem_maskLanes.2 ⟨hl, by simpa using hb⟩
      simp [he] at this
    have h0 := hbit 0 (by omega)
    have h1 := hbit 1 (by omega)
    have h2 := hbit 2 (by omega)
    have h3 := hbit 3 (by omega)
    simp [bitOf] at h0 h1 h2 h3
    omega
  unfold State.selLanes
  refine ⟨hne _ ?_, fun l hl => (mem_maskLanes.1 hl).1, maskLanes_sorted _⟩
  split
  · omega
  · assumption

/-- The fold that finds the least value finds a lower bound that is taken. -/
theorem foldl_min_spec (f : Nat → Int) (ls : List Nat) (x : Int) :
    let m := ls.foldl (fun (x : Int) k => min x (f k)) x
    m ≤ x ∧ (∀ k ∈ ls, m ≤ f k) ∧ (m = x ∨ ∃ k ∈ ls, f k = m) := by
  induction ls generalizing x with
  | nil => simp
  | cons j ls ih =>
    obtain ⟨hx, hall, htaken⟩ := ih (min x (f j))
    refine ⟨by simp only [List.foldl_cons]; omega, ?_, ?_⟩
    · intro k hk
      rcases List.mem_cons.1 hk with rfl | hk
      · simp only [List.foldl_cons]
        omega
      · exact hall k hk
    · simp only [List.foldl_cons]
      rcases htaken with h | ⟨k, hk, he⟩
      · rcases le_total x (f j) with hle | hle
        · exact .inl (h.trans (min_eq_left hle))
        · exact .inr ⟨j, List.mem_cons_self, (min_eq_right hle).symm.trans h.symm⟩
      · exact .inr ⟨k, List.mem_cons_of_mem _ hk, he⟩

/-- SELMIN's value is the least of the competing lanes, and its lane the lowest that holds it. -/
theorem State.selMin_spec (s : State) (n a : Nat) {ls : List Nat} (hne : ls ≠ []) (hsorted : ls.Pairwise (· < ·)) :
    (s.selMin n a ls).2 ∈ ls ∧ (s.selMin n a ls).1 = s.vreg n a (s.selMin n a ls).2 ∧
      ∀ l ∈ ls, (s.selMin n a ls).1 ≤ s.vreg n a l ∧ (l < (s.selMin n a ls).2 → (s.selMin n a ls).1 < s.vreg n a l) := by
  cases ls with
  | nil => exact absurd rfl hne
  | cons j ls =>
    obtain ⟨hx, hall, htaken⟩ := foldl_min_spec (s.vreg n a) ls (s.vreg n a j)
    have hle : ∀ l ∈ j :: ls, (s.selMin n a (j :: ls)).1 ≤ s.vreg n a l := fun l hl => by
      rcases List.mem_cons.1 hl with rfl | hl
      · exact hx
      · exact hall l hl
    have hsome : ∃ k ∈ j :: ls, s.vreg n a k = (s.selMin n a (j :: ls)).1 := by
      rcases htaken with h | ⟨k, hk, he⟩
      · exact ⟨j, List.mem_cons_self, h.symm⟩
      · exact ⟨k, List.mem_cons_of_mem _ hk, he⟩
    obtain ⟨k, hfind⟩ : ∃ k, (j :: ls).find? (fun k => decide (s.vreg n a k = (s.selMin n a (j :: ls)).1)) = some k := by
      obtain ⟨k, hk, he⟩ := hsome
      exact Option.isSome_iff_exists.1 (List.find?_isSome.2 ⟨k, hk, by simpa using he⟩)
    have hlane : (s.selMin n a (j :: ls)).2 = k := congrArg (Option.getD · j) hfind
    obtain ⟨heq, before, after, hsplit, hbefore⟩ := List.find?_eq_some_iff_append.1 hfind
    have hmin : s.vreg n a k = (s.selMin n a (j :: ls)).1 := of_decide_eq_true heq
    rw [hlane]
    refine ⟨List.mem_of_find?_eq_some hfind, hmin.symm, fun l hl => ⟨hle l hl, fun hlt => ?_⟩⟩
    have hmem : l ∈ before := by
      rw [hsplit] at hl hsorted
      rcases List.mem_append.1 hl with h | h
      · exact h
      · have hafter := (List.pairwise_append.1 hsorted).2.1
        rcases List.mem_cons.1 h with rfl | h
        · omega
        · have := (List.pairwise_cons.1 hafter).1 l h
          omega
    have hne' : s.vreg n a l ≠ (s.selMin n a (j :: ls)).1 := by simpa using hbefore l hmem
    have := hle l hl
    omega

/-- SELMIN writes the least value to every lane, and shows its lane. -/
theorem loopSelmin_completes {s : State} {r : LoopRun} {w : Nat} (hf : s.loopFetch opSelmin = some (r, w))
    (hm : lwMask w ≠ 0) :
    completes .loopSelmin s (fun t =>
      ∃ k ∈ s.selLanes r.slot (lwMask w), (∀ l, l < 4 → t.vreg r.slot (lwD w) l = sat40 (s.vreg r.slot (lwA w) k)) ∧
        (∀ l ∈ s.selLanes r.slot (lwMask w), s.vreg r.slot (lwA w) k ≤ s.vreg r.slot (lwA w) l ∧
          (l < k → s.vreg r.slot (lwA w) k < s.vreg r.slot (lwA w) l)) ∧
        t.rd (R.LOP_SLOT_INFO_WIN r.slot) = k ∧ ∀ q, s.railOfSlot r.slot = some q → t.rd (R.LOP_RAIL_STATE_WIN q) = k) := by
  obtain ⟨hne, hlt, hsorted⟩ := s.selLanes_lanes r.slot (lwMask_lt w) hm
  obtain ⟨hmem, hval, hleast⟩ := s.selMin_spec r.slot (lwA w) hne hsorted
  set p := s.selMin r.slot (lwA w) (s.selLanes r.slot (lwMask w)) with hp
  obtain ⟨hvreg, -, hframe⟩ := s.lanes_written (maskLanes 15) (fun l hl => (mem_maskLanes.1 hl).1) r.slot (lwD w) (lwD_lt w) (fun _ => p.1)
  have hk : p.2 < 4 := hlt _ hmem
  set a := s.writeLanes r.slot (lwD w) 15 (fun _ => p.1) with ha
  have hlanes (l : Nat) (hl : l < 4) : a.vreg r.slot (lwD w) l = sat40 (s.vreg r.slot (lwA w) p.2) := by
    rw [← hval]
    refine (hvreg _ _ l (lwD_lt w) hl).trans (if_pos ⟨rfl, rfl, mem_maskLanes.2 ⟨hl, ?_⟩⟩)
    interval_cases l <;> decide
  have hwin : p.2 % 2 ^ 2 = p.2 := Nat.mod_eq_of_lt (by omega)
  have hrail : (a.wr (R.LOP_SLOT_INFO_WIN r.slot) p.2).railOfSlot r.slot = s.railOfSlot r.slot := by
    have hcfg : (a.wr (R.LOP_SLOT_INFO_WIN r.slot) p.2).slotRail r.slot = s.slotRail r.slot :=
      (State.rd_wr_ne _ _ (by simp only [Fld.key, R.LOP_SLOT_CFG_RAIL, R.LOP_SLOT_INFO_WIN]; omega)).trans (hframe.read (by simp))
    simp only [State.railOfSlot, hcfg]
  cases hq : s.railOfSlot r.slot with
  | none =>
    refine ⟨(a.wr (R.LOP_SLOT_INFO_WIN r.slot) p.2).loopNext, ?_, p.2, hmem, hlanes, ?_, ?_, by simp⟩
    · rw [exec, execLoopSelmin, hf]
      simp only [← hp, ← ha, hrail, hq]
    · rwa [← hval]
    · exact (State.rd_wr_same _ _ _).trans hwin
  | some q =>
    have hq6 : q < 6 := by
      unfold State.railOfSlot at hq
      split at hq
      · cases hq
        assumption
      · cases hq
    refine ⟨((a.wr (R.LOP_SLOT_INFO_WIN r.slot) p.2).wr (R.LOP_RAIL_STATE_WIN q) p.2).loopNext, ?_, p.2, hmem, hlanes, ?_, ?_, ?_⟩
    · rw [exec, execLoopSelmin, hf]
      simp only [← hp, ← ha, hrail, hq]
    · rwa [← hval]
    · refine ((State.rd_wr_ne _ _ ?_).trans (State.rd_wr_same _ _ _)).trans hwin
      simp only [Fld.key, R.LOP_RAIL_STATE_WIN, R.LOP_SLOT_INFO_WIN]
      omega
    · rintro q' ⟨⟩
      exact (State.rd_wr_same _ _ _).trans hwin

end Sys2Proof.Machine
end

section
/-! The choppers: what a change of a rail's conditions does to its gates (R256 to R258). -/

namespace Sys2Proof.Machine

/-! ### What the loop engine's state depends on -/

theorem State.lopRuns_congr {s t : State} (hen : t.rd (R.ENABLE (Blk.LOP.pg 0)) = s.rd (R.ENABLE (Blk.LOP.pg 0)))
    (hrun : t.rd (R.RUN (Blk.LOP.pg 0)) = s.rd (R.RUN (Blk.LOP.pg 0))) (hpark : t.rd R.PWR_PARKED_STEPS = s.rd R.PWR_PARKED_STEPS)
    (hpins : t.pins = s.pins) : t.lopRuns = s.lopRuns := by
  unfold State.lopRuns
  rw [State.running_congr hen hrun hpark hpins, State.parked, State.parked, hpark]

theorem State.railHalted_congr {s t : State} (r : Nat) (hon : ∀ n, n < 24 → t.rd (R.LOP_SLOT_CFG_EN n) = s.rd (R.LOP_SLOT_CFG_EN n))
    (hrail : ∀ n, n < 24 → t.rd (R.LOP_SLOT_CFG_RAIL n) = s.rd (R.LOP_SLOT_CFG_RAIL n))
    (hhalt : t.rd R.LOP_SLOT_HALT_SLOTS = s.rd R.LOP_SLOT_HALT_SLOTS) : t.railHalted r = s.railHalted r := by
  have hslots : t.slotsOn = s.slotsOn := List.filter_congr fun n hn => by
    rw [State.slotOn, State.on, hon n (List.mem_range.1 hn)]
    rfl
  unfold State.railHalted
  rw [hslots]
  refine Bool.eq_iff_iff.2 ?_
  simp only [List.any_eq_true]
  refine exists_congr fun n => and_congr_right fun hn => ?_
  rw [State.slotRail, hrail n (List.mem_range.1 (List.mem_of_mem_filter hn)), State.halted, hhalt]
  rfl

theorem State.spIdle_congr {s t : State} (r : Nat) (hsp : t.rd (R.LOP_RAIL_SP_X r) = s.rd (R.LOP_RAIL_SP_X r))
    (hband : t.rd (R.LOP_CH_CFG_BAND r) = s.rd (R.LOP_CH_CFG_BAND r)) : t.spIdle r = s.spIdle r := by
  unfold State.spIdle State.railSp State.rdI State.band
  rw [hsp, hband]

/-- The fields that a change of a rail's conditions may change. -/
def railFlds (r : Nat) : List Fld := [R.LOP_CH_PERIOD_NS r, R.LOP_RAIL_STATE_STATE r]

/-- The chopper behind a change of its rail's conditions, before the rail's registers show it (R258). -/
def State.chopTurn (s : State) (r : Nat) : State :=
  let c := s.chop r
  if !s.lopRuns || s.railHalted r || c.ov then (if c.phase = 0 then s else (s.setChop r { c with phase := 0 }).gatesTo r 0)
  else if s.spIdle r then s
  else if c.phase = 0 then (s.setChop r { c with phase := 1, sp0 := s.railSp r, moved := false, cut := false, shaped := false }).gatesTo r 1
  else s

theorem State.chopSync_eq (s : State) (r : Nat) :
    s.chopSync r = (if ((s.chopTurn r).chop r).phase = 0 then (s.chopTurn r).wr (R.LOP_CH_PERIOD_NS r) 0 else s.chopTurn r).railShow r := rfl

theorem State.chopTurn_sameElse (s : State) (r : Nat) : sameElse s (s.chopTurn r) [] := by
  dsimp only [State.chopTurn]
  split_ifs
  all_goals exact (sameElse.refl s []).of_eq rfl rfl rfl

/-- A chopper's turn changes the chopper alone, and what is put out. -/
theorem State.chopTurn_rest (s : State) (r : Nat) :
    (s.chopTurn r).pins = s.pins ∧ (∃ cs, (s.chopTurn r).eng = { s.eng with loop := { s.eng.loop with chops := cs } }) := by
  dsimp only [State.chopTurn]
  split_ifs
  all_goals exact ⟨rfl, _, rfl⟩

theorem State.railShow_eng (s : State) (r : Nat) : (s.railShow r).eng = s.eng := rfl

/-- The registers of the rail follow its chopper. -/
theorem State.chopSync_eng (s : State) (r : Nat) : (s.chopSync r).eng = (s.chopTurn r).eng := by
  rw [State.chopSync_eq, State.railShow_eng]
  split <;> rfl

theorem State.chop_chopSync (s : State) (r : Nat) : (s.chopSync r).chop r = (s.chopTurn r).chop r :=
  congrArg (fun e : Engines => Sparse.look e.loop.chops r Chop.init) (s.chopSync_eng r)

theorem State.chopSync_pins (s : State) (r : Nat) : (s.chopSync r).pins = s.pins := by
  rw [State.chopSync_eq, State.railShow]
  split <;> exact (s.chopTurn_rest r).1

/-- A change of a rail's conditions shows in the rail's two fields alone. -/
theorem State.chopSync_sameElse (s : State) (r : Nat) : sameElse s (s.chopSync r) (railFlds r) := by
  have hturn := (s.chopTurn_sameElse r).mono (List.nil_subset (railFlds r))
  rw [State.chopSync_eq, State.railShow]
  refine sameElse.wr ?_ (by simp [railFlds])
  split
  · exact hturn.wr (by simp [railFlds])
  · exact hturn

/-- The rest of the loop engine does not turn with a chopper. -/
theorem State.chopSync_loop (s : State) (r : Nat) :
    ∃ cs, (s.chopSync r).eng = { s.eng with loop := { s.eng.loop with chops := cs } } := by
  rw [State.chopSync_eng]
  exact (s.chopTurn_rest r).2

/-- Both gates low: a halted rail, one in OV, and every rail while the engine does not run. -/
theorem State.chopTurn_off {s : State} {r : Nat} (h : (!s.lopRuns || s.railHalted r || (s.chop r).ov) = true) :
    (s.chopTurn r).chop r = { s.chop r with phase := 0 } := by
  rw [State.chopTurn]
  simp only [h, if_true]
  split
  · next hp => rw [← hp]
  · exact State.chop_setChop_same s r _

/-- A rail whose set-point is below BAND / 2 begins no cycle. -/
theorem State.chopTurn_idle {s : State} {r : Nat} (h : (!s.lopRuns || s.railHalted r || (s.chop r).ov) = false) (hi : s.spIdle r = true) :
    s.chopTurn r = s := by
  rw [State.chopTurn]
  simp only [h, hi, if_true, Bool.false_eq_true, if_false]

/-- A cycle begins. -/
theorem State.chopTurn_begins {s : State} {r : Nat} (h : (!s.lopRuns || s.railHalted r || (s.chop r).ov) = false) (hi : s.spIdle r = false)
    (hp : (s.chop r).phase = 0) :
    (s.chopTurn r).chop r = { s.chop r with phase := 1, sp0 := s.railSp r, moved := false, cut := false, shaped := false } := by
  rw [State.chopTurn]
  simp only [h, hi, hp, if_true, Bool.false_eq_true, if_false]
  exact State.chop_setChop_same s r _

/-- While both gates are low, PERIOD reads 0. -/
theorem State.chopSync_period_zero {s : State} {r : Nat} (h : ((s.chopTurn r).chop r).phase = 0) :
    (s.chopSync r).rd (R.LOP_CH_PERIOD_NS r) = 0 := by
  rw [State.chopSync_eq, if_pos h, State.railShow]
  refine (State.rd_wr_ne _ _ ?_).trans (State.rd_wr_same _ _ _)
  simp only [Fld.key, R.LOP_CH_PERIOD_NS, R.LOP_RAIL_STATE_STATE]
  omega

/-- In a cycle PERIOD stays. -/
theorem State.chopSync_period_kept {s : State} {r : Nat} (h : ((s.chopTurn r).chop r).phase ≠ 0) :
    (s.chopSync r).rd (R.LOP_CH_PERIOD_NS r) = s.rd (R.LOP_CH_PERIOD_NS r) := by
  rw [State.chopSync_eq, if_neg h, State.railShow]
  refine (State.rd_wr_ne _ _ ?_).trans ((s.chopTurn_sameElse r).read (by simp))
  simp only [Fld.key, R.LOP_CH_PERIOD_NS, R.LOP_RAIL_STATE_STATE]
  omega

/-! ### A new set-point -/

/-- The fields of a rail's set-point and what follows from it. -/
def spFlds (r : Nat) : List Fld := [R.LOP_RAIL_SP_U r, R.LOP_RAIL_SP_X r] ++ railFlds r

/-- The state whose conditions a new set-point changes. -/
def State.spSet (s : State) (r : Nat) (u x : Int) : State :=
  let s1 := (s.wrI (R.LOP_RAIL_SP_U r) u).wrI (R.LOP_RAIL_SP_X r) x
  let c := s1.chop r
  s1.setChop r { c with moved := c.moved || decide (s1.band r < (x - c.sp0).natAbs) }

theorem State.sendSp_eq (s : State) (r : Nat) (u x : Int) : s.sendSp r u x = (s.spSet r u x).chopSync r := rfl

theorem State.sendSp_sameElse (s : State) (r : Nat) (u x : Int) : sameElse s (s.sendSp r u x) (spFlds r) := by
  have hset : sameElse s (s.spSet r u x) [R.LOP_RAIL_SP_U r, R.LOP_RAIL_SP_X r] :=
    (((sameElse.refl s _).wrI (by simp)).wrI (by simp)).setLoop _
  exact hset.append (State.chopSync_sameElse _ r)

theorem State.sendSp_pins (s : State) (r : Nat) (u x : Int) : (s.sendSp r u x).pins = s.pins := State.chopSync_pins _ r

theorem State.sendSp_loop (s : State) (r : Nat) (u x : Int) :
    ∃ cs, (s.sendSp r u x).eng = { s.eng with loop := { s.eng.loop with chops := cs } } := by
  obtain ⟨cs, h⟩ := (s.spSet r u x).chopSync_loop r
  exact ⟨cs, h⟩

/-- The set-point that is sent, where it fits. -/
theorem State.sendSp_shows (s : State) (r : Nat) {u x : Int} (hu : -32768 ≤ u ∧ u < 32768) (hx : -32768 ≤ x ∧ x < 32768) :
    (s.sendSp r u x).rdI (R.LOP_RAIL_SP_U r) = u ∧ (s.sendSp r u x).rdI (R.LOP_RAIL_SP_X r) = x := by
  have hkept (f : Fld) (hf : f = R.LOP_RAIL_SP_U r ∨ f = R.LOP_RAIL_SP_X r) : (s.sendSp r u x).rdI f = (s.spSet r u x).rdI f := by
    unfold State.rdI
    rw [State.sendSp_eq, (State.chopSync_sameElse _ r).read]
    intro g hg
    simp only [railFlds, List.mem_cons, List.not_mem_nil, or_false] at hg
    rcases hf with rfl | rfl <;> rcases hg with rfl | rfl <;>
      simp only [Fld.key, R.LOP_RAIL_SP_U, R.LOP_RAIL_SP_X, R.LOP_CH_PERIOD_NS, R.LOP_RAIL_STATE_STATE] <;> omega
  refine ⟨(hkept _ (.inl rfl)).trans ?_, (hkept _ (.inr rfl)).trans ?_⟩
  · refine (State.rdI_wrI_ne _ _ ?_).trans (State.rdI_wrI_same16 _ rfl hu.1 hu.2)
    simp only [Fld.key, R.LOP_RAIL_SP_U, R.LOP_RAIL_SP_X]
    omega
  · exact State.rdI_wrI_same16 _ rfl hx.1 hx.2

end Sys2Proof.Machine
end

section
/-! O58, continued: the instructions that reach the rail, and the end of a run. -/

namespace Sys2Proof.Machine

/-- The rail of a slot is one of six. -/
theorem State.railOfSlot_lt {s : State} {n q : Nat} (h : s.railOfSlot n = some q) : q < 6 := by
  unfold State.railOfSlot at h
  split at h
  · cases h
    assumption
  · cases h

/-! ### OUT -/

theorem sat40_widen {x : Int} (hlo : -32768 ≤ x) (hhi : x < 32768) : sat40 (widen x) = widen x := by
  simp only [sat40, widen, clampI]
  omega

/-- The set-point U that OUT asks for (R250). -/
def State.outU (s : State) (n a q : Nat) : Int := min (max 0 (q15 (s.vreg n a 0))) (s.rd (R.LOP_RAIL_LIM_SP_MAX q) : Nat)

/-- The set-point X that OUT sends, outside a hand-over sample (R250, R251). -/
def State.outX (s : State) (r : LoopRun) (a q : Nat) : Int :=
  let old := q15 (s.vreg r.slot 15 0)
  min (max 0 (if s.eng.loop.handover.contains q then old + clampI (-(r.slew : Int)) r.slew (s.outU r.slot a q - old) else s.outU r.slot a q))
    (s.rd (R.LOP_RAIL_LIM_SP_MAX q) : Nat)

/-- Every lane of register 15 of a slot takes the set-point (R250). -/
def State.fill15 (s : State) (n : Nat) (x : Int) : State := forN 4 (fun l (a : State) => a.setVreg n 15 l (widen x)) s

theorem State.vreg_fill15 (s : State) (n : Nat) {x : Int} (hlo : -32768 ≤ x) (hhi : x < 32768) {l : Nat} (hl : l < 4) :
    (s.fill15 n x).vreg n 15 l = widen x := by
  have hlanes := (s.lanes_written (List.range 4) (fun l hl => List.mem_range.1 hl) n 15 (by decide) (fun _ => widen x)).1
  refine (hlanes n 15 l (by decide) hl).trans ?_
  rw [if_pos ⟨rfl, rfl, List.mem_range.2 hl⟩, sat40_widen hlo hhi]

/-- A rail in hand-over leaves it where X has come within SETTLE of U (R251). -/
def State.settled (s : State) (r : LoopRun) (q a : Nat) : State :=
  if s.eng.loop.handover.contains q && decide ((s.outU r.slot a q - s.outX r a q).natAbs ≤ s.rd (R.LOP_RAIL_HO_SETTLE q)) then
    s.setLoop { s.eng.loop with handover := s.eng.loop.handover.filter (fun p => p ≠ q) }
  else s

/-- OUT outside a hand-over sample sends U and X. -/
theorem State.loopSend_eq {s : State} {r : LoopRun} (hho : r.handover = false) (q a : Nat) :
    s.loopSend r q a = ((s.settled r q a).fill15 r.slot (s.outX r a q)).sendSp q (s.outU r.slot a q) (s.outX r a q) := by
  simp only [State.loopSend, hho, Bool.false_eq_true, if_false, Bool.not_false, Bool.and_true]
  rfl

theorem State.rdI_loopNext (s : State) (f : Fld) : s.loopNext.rdI f = s.rdI f := rfl
theorem State.vreg_loopNext (s : State) (n v l : Nat) : s.loopNext.vreg n v l = s.vreg n v l := rfl

/-- OUT shows both set-points, and its slot's register 15 takes the one that is sent. -/
theorem State.loopSend_spec {s : State} {r : LoopRun} {q a : Nat} (hho : r.handover = false) (hlim : s.rd (R.LOP_RAIL_LIM_SP_MAX q) < 32768) :
    let t := (s.loopSend r q a).loopNext
    t.rdI (R.LOP_RAIL_SP_U q) = s.outU r.slot a q ∧ t.rdI (R.LOP_RAIL_SP_X q) = s.outX r a q ∧
      ∀ l, l < 4 → t.vreg r.slot 15 l = widen (s.outX r a q) := by
  have hu : 0 ≤ s.outU r.slot a q ∧ s.outU r.slot a q < 32768 := by
    unfold State.outU
    omega
  have hx : 0 ≤ s.outX r a q ∧ s.outX r a q < 32768 := by
    simp only [State.outX]
    omega
  have h1 := State.loopSend_eq (s := s) hho q a
  generalize s.settled r q a = s1 at h1
  generalize s.outX r a q = x at *
  generalize s.outU r.slot a q = u at *
  obtain ⟨hshowU, hshowX⟩ := (s1.fill15 r.slot x).sendSp_shows q (u := u) (x := x) ⟨by omega, hu.2⟩ ⟨by omega, hx.2⟩
  obtain ⟨cs, heng⟩ := (s1.fill15 r.slot x).sendSp_loop q u x
  have hkeep (l : Nat) : ((s1.fill15 r.slot x).sendSp q u x).vreg r.slot 15 l = (s1.fill15 r.slot x).vreg r.slot 15 l := by
    unfold State.vreg
    rw [heng]
  simp only [State.rdI_loopNext, State.vreg_loopNext, h1, hshowU, hshowX, hkeep]
  exact ⟨trivial, trivial, fun l hl => s1.vreg_fill15 r.slot (by omega) hx.2 hl⟩

/-! ### The end of a run, and HALT -/

theorem State.runEnd_spec (s : State) (r : LoopRun) :
    (s.runEnd r).eng.loop.run = none ∧ (s.runEnd r).pins = s.pins ∧ (r.mark = false → sameElse s (s.runEnd r) []) ∧
      sameElse s (s.runEnd r) [R.LOP_SLOT_EVT_SAT r.slot] ∧
      (r.mark = true → (s.runEnd r).rd (R.LOP_SLOT_EVT_SAT r.slot) = min (s.rd (R.LOP_SLOT_EVT_SAT r.slot) + 1) 4294967295) := by
  have hstop (fs : List Fld) : sameElse s (s.setLoop { s.eng.loop with run := none }) fs := (sameElse.refl s fs).setLoop _
  unfold State.runEnd
  cases hm : r.mark with
  | false => exact ⟨rfl, rfl, fun _ => hstop _, hstop _, fun h => by cases h⟩
  | true =>
    refine ⟨rfl, rfl, fun h => (by cases h), (hstop _).count (by simp), fun _ => ?_⟩
    exact (State.rd_count32 _ rfl).trans (by rw [State.rd_setLoop])

/-- The halted state of a run, before its rail follows. -/
def State.haltMark (s : State) (r : LoopRun) : State :=
  ((s.runEnd r).wr R.LOP_SLOT_HALT_SLOTS (withBit (s.rd R.LOP_SLOT_HALT_SLOTS) r.slot true)).count R.LOP_EVT_HALT

theorem State.haltMark_sameElse (s : State) (r : LoopRun) :
    sameElse s (s.haltMark r) [R.LOP_SLOT_EVT_SAT r.slot, R.LOP_SLOT_HALT_SLOTS, R.LOP_EVT_HALT] :=
  (((s.runEnd_spec r).2.2.2.1.mono (by simp)).wr (by simp)).count (by simp)

theorem State.haltMark_spec (s : State) {r : LoopRun} (hslot : r.slot < 24) :
    (s.haltMark r).halted r.slot = true ∧ (s.haltMark r).eng.loop.run = none ∧
      (s.haltMark r).rd R.LOP_EVT_HALT = min (s.rd R.LOP_EVT_HALT + 1) 4294967295 ∧ (s.haltMark r).slotRail r.slot = s.slotRail r.slot ∧
      (s.haltMark r).slotOn r.slot = s.slotOn r.slot := by
  have hread {f : Fld} (h1 : f.key ≠ (R.LOP_SLOT_EVT_SAT r.slot).key) (h2 : f.key ≠ R.LOP_SLOT_HALT_SLOTS.key) (h3 : f.key ≠ R.LOP_EVT_HALT.key) :
      (s.haltMark r).rd f = s.rd f := (s.haltMark_sameElse r).read (by simp [h1, h2, h3])
  refine ⟨?_, (s.runEnd_spec r).1, ?_, ?_, ?_⟩
  · rw [State.halted, State.haltMark, State.rd_count_ne _ (by decide), State.rd_wr_same]
    change bitOf (_ % 2 ^ 24) r.slot = true
    rw [bitOf_mod, bitOf_withBit, if_pos rfl]
    simpa using hslot
  · rw [State.haltMark, State.rd_count32 _ rfl, State.rd_wr_ne _ _ (by decide), (s.runEnd_spec r).2.2.2.1.read]
    simp only [List.mem_singleton, forall_eq, Fld.key, R.LOP_EVT_HALT, R.LOP_SLOT_EVT_SAT]
    omega
  · exact hread (by simp only [Fld.key, R.LOP_SLOT_CFG_RAIL, R.LOP_SLOT_EVT_SAT]; omega)
      (by simp only [Fld.key, R.LOP_SLOT_CFG_RAIL, R.LOP_SLOT_HALT_SLOTS]; omega)
      (by simp only [Fld.key, R.LOP_SLOT_CFG_RAIL, R.LOP_EVT_HALT]; omega)
  · unfold State.slotOn State.on
    rw [hread (by simp only [Fld.key, R.LOP_SLOT_CFG_EN, R.LOP_SLOT_EVT_SAT]; omega)
      (by simp only [Fld.key, R.LOP_SLOT_CFG_EN, R.LOP_SLOT_HALT_SLOTS]; omega)
      (by simp only [Fld.key, R.LOP_SLOT_CFG_EN, R.LOP_EVT_HALT]; omega)]

theorem State.railOfSlot_congr {s t : State} {n : Nat} (h : t.slotRail n = s.slotRail n) : t.railOfSlot n = s.railOfSlot n := by
  unfold State.railOfSlot
  rw [h]

/-- A halted slot that drives the rail halts it. -/
theorem State.railHalted_of {s : State} {n q : Nat} (hn : n < 24) (hon : s.slotOn n = true) (hrail : s.slotRail n = q) (hh : s.halted n = true) :
    s.railHalted q = true :=
  List.any_eq_true.2 ⟨n, List.mem_filter.2 ⟨List.mem_range.2 hn, hon⟩, by simp [hrail, hh]⟩

theorem sgn16_range (v : Nat) : -32768 ≤ sgn 16 v ∧ sgn 16 v < 32768 := by
  simp only [sgn]
  omega

/-- HALT on a rail sends the set-point 0 and turns the chopper off (R247, R258). -/
theorem State.haltRail_spec {a : State} {n q : Nat} (hn : n < 24) (hq : a.railOfSlot n = some q) (hon : a.slotOn n = true)
    (hh : a.halted n = true) (hrun : a.eng.loop.run = none) :
    let t := a.sendSp q (a.rdI (R.LOP_RAIL_SP_U q)) 0
    t.halted n = true ∧ t.eng.loop.run = none ∧ t.rd R.LOP_EVT_HALT = a.rd R.LOP_EVT_HALT ∧ t.rdI (R.LOP_RAIL_SP_X q) = 0 ∧
      (t.chop q).phase = 0 := by
  have hq6 := State.railOfSlot_lt hq
  have hrail : a.slotRail n = q := by
    unfold State.railOfSlot at hq
    split at hq
    · exact Option.some.inj hq
    · cases hq
  have hkept {f : Fld} (hf : f = R.LOP_SLOT_HALT_SLOTS ∨ f = R.LOP_EVT_HALT ∨ f = R.LOP_SLOT_CFG_EN n ∨ f = R.LOP_SLOT_CFG_RAIL n) :
      ∀ g ∈ spFlds q, f.key ≠ g.key := by
    simp only [spFlds, railFlds, List.cons_append, List.nil_append, List.mem_cons, List.not_mem_nil, or_false]
    rintro g (rfl | rfl | rfl | rfl) <;> rcases hf with rfl | rfl | rfl | rfl <;>
      simp only [Fld.key, R.LOP_SLOT_HALT_SLOTS, R.LOP_EVT_HALT, R.LOP_SLOT_CFG_EN, R.LOP_SLOT_CFG_RAIL, R.LOP_RAIL_SP_U, R.LOP_RAIL_SP_X,
        R.LOP_CH_PERIOD_NS, R.LOP_RAIL_STATE_STATE] <;> omega
  have hframe := a.sendSp_sameElse q (a.rdI (R.LOP_RAIL_SP_U q)) 0
  obtain ⟨cs, heng⟩ := a.sendSp_loop q (a.rdI (R.LOP_RAIL_SP_U q)) 0
  refine ⟨?_, by rw [heng]; exact hrun, hframe.read (hkept (.inr (.inl rfl))), ?_, ?_⟩
  · rw [State.halted, hframe.read (hkept (.inl rfl))]
    exact hh
  · exact (a.sendSp_shows q (sgn16_range _) ⟨by decide, by decide⟩).2
  · have hset : sameElse a (a.spSet q (a.rdI (R.LOP_RAIL_SP_U q)) 0) (spFlds q) :=
      ((((sameElse.refl a _).wrI (by simp)).wrI (by simp)).setLoop _ : sameElse a _ [R.LOP_RAIL_SP_U q, R.LOP_RAIL_SP_X q]).mono (by simp [spFlds])
    have hhalted : (a.spSet q (a.rdI (R.LOP_RAIL_SP_U q)) 0).railHalted q = true := by
      refine State.railHalted_of hn ?_ ?_ ?_
      · rw [State.slotOn, State.on, hset.read (hkept (.inr (.inr (.inl rfl))))]
        exact hon
      · rw [State.slotRail, hset.read (hkept (.inr (.inr (.inr rfl))))]
        exact hrail
      · rw [State.halted, hset.read (hkept (.inl rfl))]
        exact hh
    rw [State.sendSp_eq, State.chop_chopSync, State.chopTurn_off (by simp [hhalted])]

/-- The check of coverage leaves the loop engine. -/
theorem State.calCheck_loop (s : State) : s.calCheck.eng.loop = s.eng.loop := by
  obtain ⟨_, _, h⟩ := s.calCheck_rest
  rw [h]

theorem State.rd_calCheck_loop (s : State) {f : Fld} (hf : f.key ≠ R.CAL_STATE_PHASE.key) (h1 : f.key ≠ R.CAL_CMD_RUN.key)
    (h2 : f.key ≠ R.CAL_EVT_ABORT.key) : s.calCheck.rdI f = s.rdI f := by
  unfold State.rdI
  rw [State.rd_calCheck s hf h1 h2]

/-- HALT of a slot that drives a rail. -/
theorem loopHalt_rail {s : State} {r : LoopRun} {w q : Nat} (hslot : r.slot < 24) (hq : s.railOfSlot r.slot = some q)
    (hf : s.loopFetch opHalt = some (r, w)) (hon : s.slotOn r.slot = true) :
    completes .loopHalt s (fun t =>
      t.halted r.slot = true ∧ t.eng.loop.run = none ∧ t.rd R.LOP_EVT_HALT = min (s.rd R.LOP_EVT_HALT + 1) 4294967295 ∧
      t.rdI (R.LOP_RAIL_SP_X q) = 0 ∧ (t.chop q).phase = 0) := by
  obtain ⟨hhalt, hrun, hcount, hrail, hon'⟩ := s.haltMark_spec hslot
  have hq6 := State.railOfSlot_lt hq
  have hq' : (s.haltMark r).railOfSlot r.slot = some q := (State.railOfSlot_congr hrail).trans hq
  obtain ⟨h1, h2, h3, h4, h5⟩ := State.haltRail_spec hslot hq' (hon'.trans hon) hhalt hrun
  have hexec : s.loopHalt r = (s.haltMark r).sendSp q ((s.haltMark r).rdI (R.LOP_RAIL_SP_U q)) 0 := by
    dsimp only [State.loopHalt]
    split
    · next p h =>
      obtain rfl : p = q := Option.some.inj (h.symm.trans hq')
      rfl
    · next h => cases h.symm.trans hq'
  refine ⟨_, by rw [exec, execLoopHalt, hf], ?_⟩
  rw [hexec]
  generalize (s.haltMark r).sendSp q ((s.haltMark r).rdI (R.LOP_RAIL_SP_U q)) 0 = t at *
  refine ⟨?_, ?_, ?_, ?_, ?_⟩
  · rw [State.halted, State.rd_calCheck _ (by decide) (by decide) (by decide)]
    exact h1
  · rw [State.calCheck_loop, h2]
  · rw [State.rd_calCheck _ (by decide) (by decide) (by decide), h3, hcount]
  · rw [State.rd_calCheck_loop _ (by simp only [Fld.key, R.LOP_RAIL_SP_X, R.CAL_STATE_PHASE]; omega)
      (by simp only [Fld.key, R.LOP_RAIL_SP_X, R.CAL_CMD_RUN]; omega) (by simp only [Fld.key, R.LOP_RAIL_SP_X, R.CAL_EVT_ABORT]; omega), h4]
  · rw [State.chop, State.calCheck_loop]
    exact h5

/-- HALT of a slot that drives no rail. -/
theorem loopHalt_noRail {s : State} {r : LoopRun} {w : Nat} (hslot : r.slot < 24) (hq : s.railOfSlot r.slot = none)
    (hf : s.loopFetch opHalt = some (r, w)) :
    completes .loopHalt s (fun t =>
      t.halted r.slot = true ∧ t.eng.loop.run = none ∧ t.rd R.LOP_EVT_HALT = min (s.rd R.LOP_EVT_HALT + 1) 4294967295) := by
  obtain ⟨hhalt, hrun, hcount, hrail, -⟩ := s.haltMark_spec hslot
  have hq' : (s.haltMark r).railOfSlot r.slot = none := (State.railOfSlot_congr hrail).trans hq
  have hexec : s.loopHalt r = s.haltMark r := by
    dsimp only [State.loopHalt]
    split
    · next h => cases h.symm.trans hq'
    · rfl
  refine ⟨_, by rw [exec, execLoopHalt, hf], ?_⟩
  rw [hexec]
  refine ⟨?_, ?_, ?_⟩
  · rw [State.halted, State.rd_calCheck _ (by decide) (by decide) (by decide)]
    exact hhalt
  · rw [State.calCheck_loop, hrun]
  · rw [State.rd_calCheck _ (by decide) (by decide) (by decide), hcount]

/-! ### FF -/

/-- FF adds its term and the position's to the lanes of its mask (R252). -/
theorem loopFf_completes {s : State} {r : LoopRun} {w q : Nat} (hq : s.railOfSlot r.slot = some q) (hf : s.loopFetch opFf = some (r, w)) :
    completes .loopFf s (fun t =>
      (∀ v l, v < 16 → l < 4 → t.vreg r.slot v l =
        if v = lwD w ∧ bitOf (lwMask w) l = true then
          sat40 (s.vreg r.slot (lwB w) l + 2 * (s.ffTerms q (lwPs w) (lwNd w)).1 * lwK w l * ((2 ^ lwSh w : Nat) : Int) +
            widen (s.ffTerms q (lwPs w) (lwNd w)).2)
        else s.vreg r.slot v l) ∧ sameElse s t []) := by
  obtain ⟨hvreg, -, hframe⟩ := State.laneInstr_spec (State.loopFetch_run hf) w (fun l => s.vreg r.slot (lwB w) l +
    2 * (s.ffTerms q (lwPs w) (lwNd w)).1 * lwK w l * ((2 ^ lwSh w : Nat) : Int) + widen (s.ffTerms q (lwPs w) (lwNd w)).2)
  refine ⟨_, by rw [exec, execLoopFf, hf]; simp only [hq], fun v l hv hl => (hvreg r.slot v l hv hl).trans ?_, hframe⟩
  simp only [true_and]

/-- Settles O58: the instructions that write lanes by `State.laneInstr_spec`, the others each by its own lemma. -/
theorem loopInstructions : Obligations.LoopInstructions := by
  intro r w s hslot
  refine ⟨?_, loopSt_completes, loopSelmin_completes, fun q hq => ⟨loopFf_completes hq, ?_, loopHalt_rail hslot hq⟩,
    fun hq => loopHalt_noRail hslot hq, ?_⟩
  · intro p hp hf
    simp only [List.mem_cons, List.not_mem_nil, or_false] at hp
    obtain rfl | rfl | rfl | rfl | rfl | rfl | rfl := hp
    case inl =>
      obtain ⟨hvreg, hrun, hframe⟩ := State.laneInstr_spec (State.loopFetch_run hf) w (fun l => widen (s.source r (lwByte w l)))
      refine ⟨_, by rw [exec, execLoopLd, hf], ?_⟩
      split
      · exact ⟨hvreg, hrun, hframe.of_eq rfl rfl rfl⟩
      · exact ⟨hvreg, hrun, hframe⟩
    case inr.inr.inr.inr.inr.inl =>
      refine ⟨_, by rw [exec, execLoopTrk, hf], ?_⟩
      have hvalue : (fun l => s.vreg r.slot (lwD w) l + (if r.handover then s.vreg r.slot (lwB w) l - s.vreg r.slot (lwA w) l
          else rndMul (s.vreg r.slot (lwB w) l - s.vreg r.slot (lwA w) l) (lwK w l) (lwSh w))) =
          (fun l => if r.handover then s.vreg r.slot (lwD w) l + (s.vreg r.slot (lwB w) l - s.vreg r.slot (lwA w) l)
            else s.vreg r.slot (lwD w) l + rndMul (s.vreg r.slot (lwB w) l - s.vreg r.slot (lwA w) l) (lwK w l) (lwSh w)) := by
        funext l
        split <;> rfl
      exact hvalue ▸ State.laneInstr_spec (State.loopFetch_run hf) w _
    case inr.inl => exact ⟨_, by rw [exec, execLoopMac, hf], State.laneInstr_spec (State.loopFetch_run hf) w _⟩
    case inr.inr.inl => exact ⟨_, by rw [exec, execLoopMsub, hf], State.laneInstr_spec (State.loopFetch_run hf) w _⟩
    case inr.inr.inr.inl => exact ⟨_, by rw [exec, execLoopSat, hf], State.laneInstr_spec (State.loopFetch_run hf) w _⟩
    case inr.inr.inr.inr.inl => exact ⟨_, by rw [exec, execLoopLim, hf], State.laneInstr_spec (State.loopFetch_run hf) w _⟩
    case inr.inr.inr.inr.inr.inr => exact ⟨_, by rw [exec, execLoopTab, hf], State.laneInstr_spec (State.loopFetch_run hf) w _⟩
  · intro hf hlim hho
    obtain ⟨hU, hX, hfill⟩ := State.loopSend_spec (s := s) (r := r) (q := q) (a := lwA w) hho hlim
    have hexec : exec .loopOut s = .next (s.loopSend r q (lwA w)).loopNext := by
      rw [exec, execLoopOut, hf]
      simp only [hq]
    have hu : 0 ≤ s.outU r.slot (lwA w) q ∧ s.outU r.slot (lwA w) q ≤ (s.rd (R.LOP_RAIL_LIM_SP_MAX q) : Nat) := by
      unfold State.outU
      omega
    refine ⟨fun hnot => ⟨_, hexec, ?_⟩, fun hin => ⟨_, hexec, hU, ?_⟩⟩
    · have hx : s.outX r (lwA w) q = s.outU r.slot (lwA w) q := by
        simp only [State.outX, List.contains_eq_mem, hnot, decide_false, Bool.false_eq_true, if_false]
        omega
      rw [hx] at hX hfill
      exact ⟨hX, hU.trans hX.symm, fun l hl => by rw [hX]; exact hfill l hl⟩
    · rw [hX, hU]
      simp only [State.outX, List.contains_eq_mem, hin, decide_true, if_true]
  · intro hf
    obtain ⟨hrun, -, hplain, hframe, hcount⟩ := s.runEnd_spec r
    have hexec : exec .loopWait s = .next (s.runEnd r) := by rw [exec, execLoopWait, hf]
    exact ⟨fun hm => ⟨_, hexec, hrun, hplain hm⟩, fun hm => ⟨_, hexec, hrun, hcount hm, hframe⟩⟩

end Sys2Proof.Machine
end

section
/-! The write of one register that is reached: the page it lands on, and the commands it starts (R55, R63, R74). -/

namespace Sys2Proof.Machine

/-- A dword that is no bus error is none by its address. -/
theorem State.dwordError_of_busError {s : State} {path : Path} {write : Bool} {a : Nat} (h : s.busError path write a 1 15 = none) :
    s.dwordError path write (a / 4 * 4) = none := by
  unfold State.busError at h
  split at h
  · cases h
  · next hnone =>
    have hfirst := List.findSome?_eq_none_iff.1 hnone 0 (by decide)
    simpa [dwordAt] using hfirst

/-- A register page that is reached is there, is on, and has its dword. -/
theorem State.reached_page {s : State} {path : Path} {f : Fld} {view : View} {a : Nat} {b : Blk} {w : Nat} (hr : s.reaches path f view)
    (ha : viewAddr f view / 4 * 4 = a) (hlt : a < 0x100000) (hb : winBlk (a / 16384) = some (b, w)) :
    s.has b w = true ∧ s.pageOff b = false ∧ s.busShut path b true = false := by
  have herr := State.dwordError_of_busError hr.2
  rw [ha, State.dwordError, if_neg (by omega), if_pos hlt, hb] at herr
  by_cases hhas : s.has b w = true
  · by_cases hoff : (s.pageOff b || s.busShut path b true) = true
    · simp [hhas, hoff] at herr
    · simp only [Bool.or_eq_true, not_or, Bool.not_eq_true] at hoff
      exact ⟨hhas, hoff⟩
  · simp [hhas] at herr

/-- The write of a register that is reached. -/
theorem State.pathWrite_page {s : State} {path : Path} {f : Fld} {view : View} {a : Nat} {b : Blk} {w : Nat} {v : Word} {l : List Fld}
    {high : Bool} (hr : s.reaches path f view) (ha : viewAddr f view / 4 * 4 = a) (hlt : a < 0x100000)
    (hb : winBlk (a / 16384) = some (b, w)) (hl : fldsAt b s.build w (a % 4096) = some (l, high)) :
    s.pathWrite path (viewAddr f view) [v] 15 = (s.writeReg ⟨b, w, a % 4096, path, viewAt a, v.toNat⟩ high l).answered path := by
  rw [State.pathWrite_word hr.1 hr.2, ha, State.writeDword_page hlt hb hl]

/-- What a page counts of a write that is not taken as a whole: one event with one reason (R66). -/
def State.counted (s : State) (c : Wr) (l : List Nat) : State :=
  match countReason l with
  | none => s
  | some reason => s.ignored c.pg c.off (View.code c.view) (Path.code c.path) reason

/-- A base or SET view write of a register that holds commands and read-only fields: its commands run, and what they refuse is counted. -/
theorem State.writeReg_refusing {s u : State} {c : Wr} {high : Bool} {l : List Fld} {rs : List Nat} (hp : l.all Fld.passive = true)
    (hc : l.any (fun f => f.cls = .cm) = true) (hv : c.view = .base ∨ c.view = .set) (ho : c.off ≠ 4)
    (hi : ∀ e ∈ instOf c.b c.w c.off, e.2.addr % 4096 ≠ c.off) (hthm : c.b ≠ .THM) (hu : s.cmWrite c = (u, rs)) :
    s.writeReg c high l = (u.counted c rs).calCheck := by
  unfold State.writeReg State.enableWrite
  have hv' : (decide (c.view = .base) || decide (c.view = .set)) = true := by rcases hv with h | h <;> simp [h]
  simp only [State.writeDwordFlds_passive hp ho, hv', hc, Bool.and_self, if_true, hu, ho, if_false, List.nil_append, hthm]
  cases h : instOf c.b c.w c.off with
  | none =>
    simp only [List.append_nil]
    rfl
  | some e =>
    obtain ⟨n, e⟩ := e
    simp only [hi _ h, if_false, List.append_nil]
    rfl

/-- The commands of a register that is reached. -/
theorem State.pathWrite_commands {s u : State} {path : Path} {f : Fld} {view : View} {a : Nat} {b : Blk} {w : Nat} {v : Word} {l : List Fld}
    {high : Bool} {rs : List Nat} (hr : s.reaches path f view) (ha : viewAddr f view / 4 * 4 = a) (hlt : a < 0x100000)
    (hb : winBlk (a / 16384) = some (b, w)) (hl : fldsAt b s.build w (a % 4096) = some (l, high)) (hp : l.all Fld.passive = true)
    (hc : l.any (fun f => f.cls = .cm) = true) (hv : viewAt a = .base ∨ viewAt a = .set) (ho : a % 4096 ≠ 4)
    (hi : ∀ e ∈ instOf b w (a % 4096), e.2.addr % 4096 ≠ a % 4096) (hthm : b ≠ .THM) (hu : s.cmWrite ⟨b, w, a % 4096, path, viewAt a, v.toNat⟩ = (u, rs)) :
    s.pathWrite path (viewAddr f view) [v] 15 = (u.counted ⟨b, w, a % 4096, path, viewAt a, v.toNat⟩ rs).calCheck.answered path := by
  rw [State.pathWrite_page hr ha hlt hb hl, State.writeReg_refusing hp hc hv ho hi hthm hu]

theorem State.counted_nil (s : State) (c : Wr) : s.counted c [] = s := rfl

end Sys2Proof.Machine
end

section
/-! O57: the samples, runs, enable check and RESTART of the loop engine. -/

namespace Sys2Proof.Machine

/-! ### Due samples (R243, R244) -/

theorem State.slotBusy_iff (s : State) (n : Nat) : s.slotBusy n = true ↔ n ∈ s.eng.loop.due ∨ ∃ r ∈ s.eng.loop.run, r.slot = n := by
  simp [State.slotBusy]

/-- A sample of a slot that neither waits nor runs waits. -/
theorem State.slotDue_waits {s : State} {n : Nat} (hn : n < 24) (hl : s.lopRuns = true) (hon : s.slotOn n = true) (hh : s.halted n = false)
    (hat : s.slotAt n = true) (hfree : s.slotBusy n = false) :
    s.slotDue n = s.setLoop { s.eng.loop with dueAt := Sparse.put s.eng.loop.dueAt n s.eng.loop.c, due := n :: s.eng.loop.due } := by
  simp [State.slotDue, hl, hon, hh, hat, hfree, Nat.not_le.2 hn]

/-- A sample of a slot that waits or runs is skipped. -/
theorem State.slotDue_skips {s : State} {n : Nat} (hn : n < 24) (hl : s.lopRuns = true) (hon : s.slotOn n = true) (hh : s.halted n = false)
    (hat : s.slotAt n = true) (hbusy : s.slotBusy n = true) :
    s.slotDue n = (s.setLoop { s.eng.loop with skipAt := Sparse.put s.eng.loop.skipAt n s.eng.loop.c }).count (R.LOP_SLOT_EVT_SKIP n) := by
  simp [State.slotDue, hl, hon, hh, hat, hbusy, Nat.not_le.2 hn]

theorem slotDue_completes {s : State} {n : Nat} (hn : n < 24) (hl : s.lopRuns = true) (hon : s.slotOn n = true) (hh : s.halted n = false)
    (hc : s.eng.loop.c % s.rd (R.LOP_SLOT_TIME_PERIOD n) = s.rd (R.LOP_SLOT_TIME_PHASE n)) (hdue : Sparse.get s.eng.loop.dueAt n ≠ some s.eng.loop.c)
    (hskip : Sparse.get s.eng.loop.skipAt n ≠ some s.eng.loop.c) :
    (n ∉ s.eng.loop.due → (∀ r ∈ s.eng.loop.run, r.slot ≠ n) →
      completes (.slotDue n) s (fun t =>
        t.eng.loop.due = n :: s.eng.loop.due ∧ t.eng.loop.run = s.eng.loop.run ∧ Sparse.get t.eng.loop.dueAt n = some s.eng.loop.c ∧ sameElse s t [])) ∧
    ((n ∈ s.eng.loop.due ∨ ∃ r ∈ s.eng.loop.run, r.slot = n) →
      completes (.slotDue n) s (fun t =>
        t.eng.loop.due = s.eng.loop.due ∧ t.eng.loop.run = s.eng.loop.run ∧ t.eng.loop.dueAt = s.eng.loop.dueAt ∧
        t.rd (R.LOP_SLOT_EVT_SKIP n) = min (s.rd (R.LOP_SLOT_EVT_SKIP n) + 1) 4294967295 ∧ sameElse s t [R.LOP_SLOT_EVT_SKIP n])) := by
  have hat : s.slotAt n = true := by simp [State.slotAt, hc, hdue, hskip]
  refine ⟨fun hnd hnr => ?_, fun hb => ?_⟩
  · have hfree : s.slotBusy n = false := by
      rw [Bool.eq_false_iff, Ne, State.slotBusy_iff]
      rintro (h | ⟨r, hr, he⟩)
      · exact hnd h
      · exact hnr r hr he
    exact completes_eq rfl (State.slotDue_waits hn hl hon hh hat hfree)
      ⟨rfl, rfl, Sparse.get_put_same _ _ _, (sameElse.refl s []).setLoop _⟩
  · refine completes_eq rfl (State.slotDue_skips hn hl hon hh hat ((s.slotBusy_iff n).2 hb))
      ⟨rfl, rfl, rfl, ?_, ((sameElse.refl s _).setLoop _).count (by simp)⟩
    exact (State.rd_count32 _ rfl).trans (by rw [State.rd_setLoop])

/-! ### The engine's counter -/

/-- `t` is `s` with other registers than those of the loop engine's state and the power state. -/
structure LoopKept (s t : State) : Prop where
  loop : t.eng.loop = s.eng.loop
  enable : t.rd (R.ENABLE (Blk.LOP.pg 0)) = s.rd (R.ENABLE (Blk.LOP.pg 0))
  run : t.rd (R.RUN (Blk.LOP.pg 0)) = s.rd (R.RUN (Blk.LOP.pg 0))
  pstate : t.rd R.PWR_STATE_STATE = s.rd R.PWR_STATE_STATE

theorem LoopKept.refl (s : State) : LoopKept s s := ⟨rfl, rfl, rfl, rfl⟩

theorem LoopKept.trans {s t u : State} (h : LoopKept s t) (k : LoopKept t u) : LoopKept s u :=
  ⟨k.loop.trans h.loop, k.enable.trans h.enable, k.run.trans h.run, k.pstate.trans h.pstate⟩

theorem LoopKept.wr (s : State) {f : Fld} (v : Nat) (h1 : (R.ENABLE (Blk.LOP.pg 0)).key ≠ f.key) (h2 : (R.RUN (Blk.LOP.pg 0)).key ≠ f.key)
    (h3 : R.PWR_STATE_STATE.key ≠ f.key) : LoopKept s (s.wr f v) :=
  ⟨rfl, State.rd_wr_ne s v h1, State.rd_wr_ne s v h2, State.rd_wr_ne s v h3⟩

theorem State.laneTime_loopKept (s : State) (k n : Nat) : LoopKept s (s.laneTime k n) := by
  have hlane : ∀ f ∈ [R.LNE_RES_TX_ACTIVE k, R.LNE_RES_TX_QUIET k, R.LNE_RES_TX_SLEEP k, R.LNE_RES_TX_OFF k,
      R.LNE_RES_RX_ACTIVE k, R.LNE_RES_RX_QUIET k, R.LNE_RES_RX_SLEEP k, R.LNE_RES_RX_OFF k],
      (R.ENABLE (Blk.LOP.pg 0)).key ≠ f.key ∧ (R.RUN (Blk.LOP.pg 0)).key ≠ f.key ∧ R.PWR_STATE_STATE.key ≠ f.key := by
    simp only [List.forall_mem_cons, Fld.key, R.PWR_STATE_STATE, R.ENABLE, R.RUN, Blk.pg, Blk.win0, R.LNE_RES_TX_ACTIVE, R.LNE_RES_TX_QUIET,
      R.LNE_RES_TX_SLEEP, R.LNE_RES_TX_OFF, R.LNE_RES_RX_ACTIVE, R.LNE_RES_RX_QUIET, R.LNE_RES_RX_SLEEP, R.LNE_RES_RX_OFF, List.not_mem_nil,
      false_imp_iff, implies_true, and_true]
    omega
  unfold State.laneTime
  extract_lets tx rx
  have htx : tx ∈ [R.LNE_RES_TX_ACTIVE k, R.LNE_RES_TX_QUIET k, R.LNE_RES_TX_SLEEP k, R.LNE_RES_TX_OFF k,
      R.LNE_RES_RX_ACTIVE k, R.LNE_RES_RX_QUIET k, R.LNE_RES_RX_SLEEP k, R.LNE_RES_RX_OFF k] := by
    dsimp only [tx]
    split <;> simp
  have hrx : rx ∈ [R.LNE_RES_TX_ACTIVE k, R.LNE_RES_TX_QUIET k, R.LNE_RES_TX_SLEEP k, R.LNE_RES_TX_OFF k,
      R.LNE_RES_RX_ACTIVE k, R.LNE_RES_RX_QUIET k, R.LNE_RES_RX_SLEEP k, R.LNE_RES_RX_OFF k] := by
    dsimp only [rx]
    split <;> simp
  obtain ⟨h1, h2, h3⟩ := hlane tx htx
  obtain ⟨k1, k2, k3⟩ := hlane rx hrx
  exact LoopKept.trans (.wr s _ h1 h2 h3) (.wr _ _ k1 k2 k3)

theorem resF_loopKept (s : State) (st : Nat) : LoopKept s (s.count (resF st)) := by
  unfold resF
  split <;> exact .wr s _ (by decide) (by decide) (by decide)

theorem State.calJudge_loopKept (s : State) : LoopKept s s.calJudge := by
  unfold State.calJudge State.calDrop
  split
  · exact .refl s
  · split
    · exact .wr s _ (by decide) (by decide) (by decide)
    · constructor
      · rfl
      all_goals
        simp (disch := decide) only [State.rd_count_ne, State.rd_wr_ne]
        rfl

theorem State.loop_wr (s : State) (f : Fld) (v : Nat) : (s.wr f v).eng.loop = s.eng.loop := rfl

/-- The pads and the command slots of the channels leave the loop engine. -/
theorem State.loop_slots (s : State) : s.gpioSample.dramSlots.eng.loop = s.eng.loop := by
  obtain ⟨_, _, _, _, h⟩ := s.gpioSample.dramSlots_dramOnly.rest
  rw [h]
  unfold State.gpioSample
  split <;> rfl

/-- The parts of a clock before the loop engine's counter leave what says whether it counts. -/
theorem State.tick_loopClock (s : State) : ∃ u : State, LoopKept s u ∧ s.tick.eng.loop = u.loopClock.eng.loop := by
  unfold State.tick
  extract_lets n t w b bo s0 s1 s2 s3
  have h1 : LoopKept s s1 := by
    have h0 : LoopKept s s0 := ⟨rfl, rfl, rfl, rfl⟩
    dsimp only [s1]
    split
    · exact h0
    · exact forN_inv (LoopKept s) h0 fun k a h => h.trans (a.laneTime_loopKept k n)
  have h2 : LoopKept s s2 := by
    dsimp only [s2]
    split
    · exact h1.trans (resF_loopKept _ _)
    · exact h1
  refine ⟨s2.calJudge, h2.trans s2.calJudge_loopKept, ?_⟩
  split
  · exact (s3.loop_wr _ _).trans (State.loop_slots _)
  · exact State.loop_slots _

theorem step_counts {s : State} (hl : s.lopRuns = true) (h1 : s.pstate ≠ pSaddle) (h2 : s.pstate ≠ pValley) (hp : s.pending = []) :
    ∃ t, step s = .next t ∧ t.eng.loop.c = s.eng.loop.c + 1 := by
  obtain ⟨u, hu, hloop⟩ := s.tick_loopClock
  refine ⟨s.tick, by unfold step; rw [hp], ?_⟩
  simp only [State.lopRuns, State.running, State.enabled, State.on, State.run, Bool.and_eq_true, decide_eq_true_eq] at hl
  obtain ⟨⟨⟨⟨hen, hruns⟩, -⟩, -⟩, -⟩ := hl
  have hrun := of_decide_eq_true hruns
  have hon : (u.enabled .LOP 0 && u.run .LOP 0 = runRunning && u.pstate ≠ pSaddle && u.pstate ≠ pValley) = true := by
    unfold State.pstate at *
    simp [State.enabled, State.on, State.run, hu.enable, hu.run, hu.pstate, hen, hrun, h1, h2]
  rw [hloop, State.loopClock, if_pos hon]
  exact congrArg (fun l : Loop => l.c + 1) hu.loop

/-! ### The start of a run (R243, R249, R251) -/

theorem lowest_eq {l : List Nat} {n : Nat} (hn : n ∈ l) (hmin : ∀ m ∈ l, n ≤ m) : lowest l = some n := by
  cases l with
  | nil => cases hn
  | cons a t =>
    have hfold : ∀ (t : List Nat) (a : Nat), (t.foldl min a = a ∨ t.foldl min a ∈ t) ∧ t.foldl min a ≤ a ∧ ∀ m ∈ t, t.foldl min a ≤ m := by
      intro t
      induction t with
      | nil => simp
      | cons b t ih =>
        intro a
        obtain ⟨h1, h2, h3⟩ := ih (min a b)
        simp only [List.foldl_cons, List.mem_cons, forall_eq_or_imp]
        refine ⟨?_, by omega, by omega, h3⟩
        rcases h1 with h | h
        · rw [h]
          omega
        · exact .inr (.inr h)
    obtain ⟨hin, hle, hall⟩ := hfold t a
    refine congrArg some (Nat.le_antisymm ?_ (hmin _ ?_))
    · rcases List.mem_cons.1 hn with rfl | h
      · exact hle
      · exact hall _ h
    · rcases hin with h | h
      · rw [h]
        exact List.mem_cons_self
      · exact List.mem_cons_of_mem _ h

/-- The state in which a run's start delay is shown (R243). -/
def State.delayShown (s : State) (n : Nat) : State :=
  (s.wr (R.LOP_SLOT_JIT_LAST n) (s.startDelay n)).wr (R.LOP_SLOT_JIT_MAX n) (max (s.rd (R.LOP_SLOT_JIT_MAX n)) (s.startDelay n))

theorem State.delayShown_spec (s : State) {n d at_ : Nat} (hmax : s.rd (R.LOP_SLOT_JIT_MAX n) < 65536)
    (hat : Sparse.get s.eng.loop.dueAt n = some at_) (hd : s.eng.loop.c = at_ + d) :
    (s.delayShown n).rd (R.LOP_SLOT_JIT_LAST n) = min d 65535 ∧
      (s.delayShown n).rd (R.LOP_SLOT_JIT_MAX n) = max (s.rd (R.LOP_SLOT_JIT_MAX n)) (min d 65535) ∧
      sameElse s (s.delayShown n) [R.LOP_SLOT_JIT_LAST n, R.LOP_SLOT_JIT_MAX n] := by
  have hdelay : s.startDelay n = min d 65535 := by
    rw [State.startDelay, Sparse.look, hat, hd, Nat.min_comm]
    simp
  unfold State.delayShown
  rw [hdelay]
  refine ⟨(State.rd_wr_ne _ _ ?_).trans ((State.rd_wr_same _ _ _).trans ?_), (State.rd_wr_same _ _ _).trans ?_,
    ((sameElse.refl s _).wr (by simp)).wr (by simp)⟩
  · simp only [Fld.key, R.LOP_SLOT_JIT_LAST, R.LOP_SLOT_JIT_MAX]
    omega
  · change _ % 2 ^ 16 = _
    omega
  · change _ % 2 ^ 16 = _
    omega

/-- The run of the lowest due slot. -/
theorem runStart_noRail {s : State} {n d at_ : Nat} (hl : s.lopRuns = true) (hrun : s.eng.loop.run = none) (hdue : n ∈ s.eng.loop.due)
    (hmin : ∀ m ∈ s.eng.loop.due, n ≤ m) (hmax : s.rd (R.LOP_SLOT_JIT_MAX n) < 65536) (hat : Sparse.get s.eng.loop.dueAt n = some at_)
    (hd : s.eng.loop.c = at_ + d) (hq : s.railOfSlot n = none) :
    completes (.loopRunStart 0) s (fun t =>
      n ∉ t.eng.loop.due ∧ t.rd (R.LOP_SLOT_JIT_LAST n) = min d 65535 ∧
      t.rd (R.LOP_SLOT_JIT_MAX n) = max (s.rd (R.LOP_SLOT_JIT_MAX n)) (min d 65535) ∧
      sameElse s t [R.LOP_SLOT_JIT_LAST n, R.LOP_SLOT_JIT_MAX n] ∧
      ∃ r : LoopRun, t.eng.loop.run = some r ∧ r.slot = n ∧ r.pc = s.slotEntry n ∧ r.handover = false ∧ r.mark = false ∧
        r.tgt = [s.rdI (R.LOP_SLOT_TGT01_LO n), s.rdI (R.LOP_SLOT_TGT01_HI n), s.rdI (R.LOP_SLOT_TGT23_LO n), s.rdI (R.LOP_SLOT_TGT23_HI n)]) := by
  obtain ⟨hlast, hmax', hframe⟩ := s.delayShown_spec hmax hat hd
  refine ⟨s.runStart, rfl, ?_⟩
  simp only [State.runStart, hl, hrun, lowest_eq hdue hmin, hq, Bool.not_true, Option.isSome_none, Bool.or_self, Bool.false_eq_true, if_false]
  exact ⟨by simp [State.setLoop, State.setEng], hlast, hmax', hframe.setLoop _, _, rfl, rfl, rfl, rfl, rfl, rfl⟩

theorem runStart_handover {s : State} {n q : Nat} (hl : s.lopRuns = true) (hrun : s.eng.loop.run = none) (hdue : n ∈ s.eng.loop.due)
    (hmin : ∀ m ∈ s.eng.loop.due, n ≤ m) (hq : s.railOfSlot n = some q) (hfresh : n ∉ s.eng.loop.fresh)
    (hchange : s.railMode q ≠ s.rd (R.LOP_RAIL_STATE_MODE_USED q) ∨ s.railSense q ≠ s.rd (R.LOP_RAIL_STATE_SENSE_USED q)) :
    completes (.loopRunStart 0) s (fun t =>
      t.rd (R.LOP_RAIL_STATE_MODE_USED q) = s.railMode q ∧ t.rd (R.LOP_RAIL_STATE_SENSE_USED q) = s.railSense q % 2 ∧
      q ∈ t.eng.loop.handover ∧ t.rd (R.LOP_RAIL_EVT_HANDOVER q) = min (s.rd (R.LOP_RAIL_EVT_HANDOVER q) + 1) 4294967295 ∧
      ∃ r : LoopRun, t.eng.loop.run = some r ∧ r.slot = n ∧ r.handover = true ∧ r.slew = s.rd (R.LOP_RAIL_HO_SLEW q)) := by
  have hho : (decide (s.railMode q ≠ s.rd (R.LOP_RAIL_STATE_MODE_USED q)) || decide (s.railSense q ≠ s.rd (R.LOP_RAIL_STATE_SENSE_USED q))) = true := by
    simpa using hchange
  have hfr : s.eng.loop.fresh.contains n = false := by simpa using hfresh
  refine ⟨s.runStart, rfl, ?_⟩
  simp only [State.runStart, hl, hrun, lowest_eq hdue hmin, hq, hho, hfr, Bool.not_true, Bool.not_false, Option.isSome_none, Bool.or_self, Bool.false_eq_true,
    if_false, Bool.and_self, Bool.true_and, if_true, State.railShow]
  have hmode : s.railMode q < 2 := by
    unfold State.railMode b2n
    split <;> decide
  have hne {f : Fld} (hf : f = R.LOP_RAIL_STATE_MODE_USED q ∨ f = R.LOP_RAIL_STATE_SENSE_USED q) :
      f.key ≠ (R.LOP_RAIL_STATE_STATE q).key ∧ f.key ≠ (R.LOP_RAIL_EVT_HANDOVER q).key ∧
        (R.LOP_RAIL_EVT_HANDOVER q).key ≠ f.key := by
    rcases hf with rfl | rfl <;>
      simp only [Fld.key, R.LOP_RAIL_STATE_MODE_USED, R.LOP_RAIL_STATE_SENSE_USED, R.LOP_RAIL_STATE_STATE, R.LOP_RAIL_EVT_HANDOVER] <;> omega
  obtain ⟨m1, m2, m3⟩ := hne (.inl rfl)
  obtain ⟨n1, n2, n3⟩ := hne (.inr rfl)
  have hms : (R.LOP_RAIL_STATE_MODE_USED q).key ≠ (R.LOP_RAIL_STATE_SENSE_USED q).key := by
    simp only [Fld.key, R.LOP_RAIL_STATE_MODE_USED, R.LOP_RAIL_STATE_SENSE_USED]
    omega
  have hev : (R.LOP_RAIL_EVT_HANDOVER q).key ≠ (R.LOP_RAIL_STATE_STATE q).key ∧ (R.LOP_RAIL_EVT_HANDOVER q).key ≠ (R.LOP_SLOT_JIT_LAST n).key ∧
      (R.LOP_RAIL_EVT_HANDOVER q).key ≠ (R.LOP_SLOT_JIT_MAX n).key := by
    simp only [Fld.key, R.LOP_RAIL_STATE_STATE, R.LOP_RAIL_EVT_HANDOVER, R.LOP_SLOT_JIT_LAST, R.LOP_SLOT_JIT_MAX]
    omega
  refine ⟨?_, ?_, ?_, ?_, _, rfl, rfl, rfl, rfl⟩
  · rw [State.rd_wr_ne _ _ m1, State.rd_count_ne _ m2, State.rd_setLoop, State.rd_wr_ne _ _ hms, State.rd_wr_same]
    exact Nat.mod_eq_of_lt hmode
  · rw [State.rd_wr_ne _ _ n1, State.rd_count_ne _ n2, State.rd_setLoop, State.rd_wr_same]
    rfl
  · rw [State.loop_wr]
    change q ∈ if _ then _ else _
    split
    · exact List.mem_cons_self
    · next h => simpa using h
  · rw [State.rd_wr_ne _ _ hev.1, State.rd_count32 _ rfl, State.rd_setLoop, State.rd_wr_ne _ _ n3, State.rd_wr_ne _ _ m3, State.rd_wr_ne _ _ hev.2.2,
      State.rd_wr_ne _ _ hev.2.1]

/-! ### The enable check (R245) -/

/-- The loop engine that has passed its check: it runs from registers of zeros. -/
structure LoopFresh (s : State) : Prop where
  run : s.run .LOP 0 = runRunning
  c : s.eng.loop.c = 0
  regs : s.eng.loop.regs = []
  due : s.eng.loop.due = []
  none : s.eng.loop.run = none
  halt : s.rd R.LOP_SLOT_HALT_SLOTS = 0
  xchg : ∀ j, j < 32 → s.rd (xchgF j) = 0

/-- The fields a fresh loop engine is known by. -/
def loopFreshFlds : List Fld := [R.RUN (Blk.LOP.pg 0), R.LOP_SLOT_HALT_SLOTS] ++ (List.range 32).map xchgF

/-- A change of other fields, and of the choppers, leaves a fresh loop engine. -/
theorem LoopFresh.of_else {s t : State} {fs : List Fld} (h : LoopFresh s) (hf : sameElse s t fs) (hloop : ∃ cs, t.eng.loop = { s.eng.loop with chops := cs })
    (hfs : ∀ f ∈ loopFreshFlds, ∀ g ∈ fs, f.key ≠ g.key) : LoopFresh t := by
  obtain ⟨cs, hl⟩ := hloop
  have hx (j : Nat) (hj : j < 32) : xchgF j ∈ loopFreshFlds :=
    List.mem_append_right _ (List.mem_map_of_mem (List.mem_range.2 hj))
  refine ⟨(hf.read (hfs _ (by simp [loopFreshFlds]))).trans h.run, by rw [hl]; exact h.c, by rw [hl]; exact h.regs, by rw [hl]; exact h.due,
    by rw [hl]; exact h.none, (hf.read (hfs _ (by simp [loopFreshFlds]))).trans h.halt, fun j hj => (hf.read (hfs _ (hx j hj))).trans (h.xchg j hj)⟩

/-- Every exchange word is cleared. -/
theorem State.rd_xchg_cleared (s : State) {n j : Nat} (hj : j < n) : (forN n (fun j a => a.wr (xchgF j) 0) s).rd (xchgF j) = 0 := by
  induction n with
  | zero => omega
  | succ n ih =>
    rw [forN, List.range_succ, List.foldl_append]
    by_cases h : j = n
    · subst h
      exact (State.rd_wr_same _ _ _).trans (Nat.zero_mod _)
    · exact (State.rd_wr_ne _ _ (xchgF_key_ne h)).trans (ih (by omega))

theorem loopFreshFlds_apart {g : Fld} (h1 : (R.RUN (Blk.LOP.pg 0)).key ≠ g.key) (h2 : R.LOP_SLOT_HALT_SLOTS.key ≠ g.key)
    (h3 : ∀ j, j < 16 → (R.LOP_XCHG_X0 j).key ≠ g.key ∧ (R.LOP_XCHG_X1 j).key ≠ g.key) : ∀ f ∈ loopFreshFlds, f.key ≠ g.key := by
  simp only [loopFreshFlds, List.forall_mem_append, List.forall_mem_cons, List.forall_mem_map, List.mem_range, List.not_mem_nil, false_imp_iff,
    implies_true, and_true]
  refine ⟨⟨h1, h2⟩, fun j hj => ?_⟩
  unfold xchgF
  split
  · exact (h3 (j / 2) (by omega)).1
  · exact (h3 (j / 2) (by omega)).2

theorem LoopFresh.rail {s : State} (h : LoopFresh s) (r : Nat) :
    LoopFresh ((((s.wr (R.LOP_RAIL_STATE_MODE_USED r) (s.railMode r)).wr (R.LOP_RAIL_STATE_SENSE_USED r) (s.railSense r)).wr (R.LOP_CH_OFS_OFS r) 0).sendSp r 0 0) := by
  generalize s.railMode r = m
  generalize s.railSense r = q
  have hwr : sameElse s (((s.wr (R.LOP_RAIL_STATE_MODE_USED r) m).wr (R.LOP_RAIL_STATE_SENSE_USED r) q).wr (R.LOP_CH_OFS_OFS r) 0)
      [R.LOP_RAIL_STATE_MODE_USED r, R.LOP_RAIL_STATE_SENSE_USED r, R.LOP_CH_OFS_OFS r] :=
    (((sameElse.refl s _).wr (by simp)).wr (by simp)).wr (by simp)
  have hsp := State.sendSp_loop (((s.wr (R.LOP_RAIL_STATE_MODE_USED r) m).wr (R.LOP_RAIL_STATE_SENSE_USED r) q).wr (R.LOP_CH_OFS_OFS r) 0) r 0 0
  refine h.of_else (hwr.append (State.sendSp_sameElse _ r 0 0)) ?_ ?_
  · obtain ⟨cs, hcs⟩ := hsp
    exact ⟨cs, congrArg Engines.loop hcs⟩
  · intro f hf g hg
    refine loopFreshFlds_apart ?_ ?_ ?_ f hf
    all_goals
      simp only [spFlds, railFlds, List.cons_append, List.nil_append, List.mem_cons, List.not_mem_nil, or_false] at hg
      rcases hg with rfl | rfl | rfl | rfl | rfl | rfl | rfl <;>
        simp only [Fld.key, R.RUN, Blk.pg, Blk.win0, R.LOP_SLOT_HALT_SLOTS, R.LOP_XCHG_X0, R.LOP_XCHG_X1, R.LOP_RAIL_STATE_MODE_USED, R.LOP_RAIL_STATE_SENSE_USED,
          R.LOP_CH_OFS_OFS, R.LOP_RAIL_SP_U, R.LOP_RAIL_SP_X, R.LOP_CH_PERIOD_NS, R.LOP_RAIL_STATE_STATE] <;> omega

theorem xchgF_apart {j : Nat} (hj : j < 32) :
    (xchgF j).key ≠ (R.ENABLE (Blk.LOP.pg 0)).key ∧ (xchgF j).key ≠ (R.RUN (Blk.LOP.pg 0)).key := by
  unfold xchgF
  split <;> simp only [Fld.key, R.ENABLE, R.RUN, Blk.pg, Blk.win0, R.LOP_XCHG_X0, R.LOP_XCHG_X1] <;> omega

/-- The start of the engine makes it fresh. -/
theorem State.lopStart_fresh (s : State) : LoopFresh s.lopStart := by
  unfold State.lopStart
  extract_lets l s1 s2 s3
  have hl : s2.eng.loop = s1.eng.loop :=
    forN_inv (fun a : State => a.eng.loop = s1.eng.loop) (State.loop_wr _ _ _) fun _ a h => (a.loop_wr _ _).trans h
  have h2 : LoopFresh (s2.askPass .LOP 0) := by
    have hl2 : (s2.askPass .LOP 0).eng.loop = s1.eng.loop := (State.loop_wr _ _ _).trans ((State.loop_wr _ _ _).trans hl)
    have hask (f : Fld) (h1 : f.key ≠ (R.ENABLE (Blk.LOP.pg 0)).key) (h2 : f.key ≠ (R.RUN (Blk.LOP.pg 0)).key) :
        (s2.askPass .LOP 0).rd f = s2.rd f := by
      rw [State.askPass, State.rd_setRun_ne _ h2, State.rd_wr_ne _ _ h1]
    refine ⟨State.run_setRun_same _ _ _ _, congrArg Loop.c hl2, congrArg Loop.regs hl2, congrArg Loop.due hl2, congrArg Loop.run hl2, ?_, fun j hj => ?_⟩
    · rw [hask _ (by decide) (by decide)]
      refine forN_inv (fun a : State => a.rd R.LOP_SLOT_HALT_SLOTS = 0) (State.rd_wr_same _ _ _) fun j a h => (State.rd_wr_ne _ _ ?_).trans h
      unfold xchgF
      split <;> simp only [Fld.key, R.LOP_SLOT_HALT_SLOTS, R.LOP_XCHG_X0, R.LOP_XCHG_X1] <;> omega
    · rw [hask _ (xchgF_apart hj).1 (xchgF_apart hj).2]
      exact State.rd_xchg_cleared _ hj
  have h3 : LoopFresh s3 :=
    forN_inv LoopFresh h2 fun n a h => h.of_else (fs := [R.LOP_SLOT_JIT_MAX n]) ((sameElse.refl a _).wr (by simp)) ⟨_, rfl⟩ fun f hf g hg => by
      obtain rfl := List.mem_singleton.1 hg
      refine loopFreshFlds_apart ?_ ?_ ?_ f hf <;>
        simp only [Fld.key, R.RUN, Blk.pg, Blk.win0, R.LOP_SLOT_HALT_SLOTS, R.LOP_XCHG_X0, R.LOP_XCHG_X1, R.LOP_SLOT_JIT_MAX] <;> omega
  split
  · exact forN_inv LoopFresh h3 fun r a h => h.rail r
  · exact h3

theorem lopCheck_passes {s : State} (hs : s.run .LOP 0 = runStarting) (hc : s.lopCheck = none) :
    completes .lopCheckDone s (fun t =>
      t.run .LOP 0 = runRunning ∧ t.eng.loop.c = 0 ∧ t.eng.loop.regs = [] ∧ t.eng.loop.due = [] ∧ t.eng.loop.run = none ∧ t.rd R.LOP_SLOT_HALT_SLOTS = 0 ∧
      ∀ j, j < 32 → t.rd (xchgF j) = 0) := by
  have heq : s.lopChecked = s.lopInfo.lopStart := by simp [State.lopChecked, hs, hc]
  have h := s.lopInfo.lopStart_fresh
  exact completes_eq rfl heq ⟨h.run, h.c, h.regs, h.due, h.none, h.halt, h.xchg⟩

/-- A page whose check fails is disabled, and shows why (R55, R61). -/
theorem State.askFail_spec (s : State) (b : Blk) (w reason : Nat) :
    (s.askFail b w reason).run b w = runDisabled ∧ (s.askFail b w reason).enabled b w = false ∧
      (s.askFail b w reason).rd (R.IGN_REASON (b.pg w)) = reason % 256 ∧
      sameElse s (s.askFail b w reason) ([R.ENABLE (b.pg w), R.RUN (b.pg w)] ++ ignFlds (b.pg w) reason) := by
  unfold State.askFail
  extract_lets k
  generalize k % 4 = v
  generalize k / 4 = p
  have hign := ((s.wr (R.ENABLE (b.pg w)) 0).setRun b w runDisabled).ignored_frame (b.pg w) 4 v p reason
  have hset : sameElse s ((s.wr (R.ENABLE (b.pg w)) 0).setRun b w runDisabled) [R.ENABLE (b.pg w), R.RUN (b.pg w)] :=
    ((sameElse.refl s _).wr (by simp)).wr (by simp)
  have hcnt := ignCnt_key (b.pg w) reason
  have happart : ∀ f, f = R.ENABLE (b.pg w) ∨ f = R.RUN (b.pg w) → ∀ g ∈ ignFlds (b.pg w) reason, f.key ≠ g.key := by
    simp only [ignFlds, List.forall_mem_cons, List.not_mem_nil, false_imp_iff, implies_true, and_true]
    rintro f (rfl | rfl) <;> simp only [Fld.key, R.ENABLE, R.RUN, R.IGN_OFFSET, R.IGN_VIEW, R.IGN_PATH, R.IGN_REASON] at * <;> omega
  refine ⟨(hign.read (happart _ (.inr rfl))).trans (State.run_setRun_same _ _ _ _), ?_, State.rd_ignored_reason _ _ _ _ _ _, hset.append hign⟩
  rw [State.enabled, State.on, hign.read (happart _ (.inl rfl)), State.rd_setRun_ne, State.rd_wr_same]
  · rfl
  · simp only [Fld.key, R.ENABLE, R.RUN]
    omega

theorem lopCheck_fails {s : State} {f : LopFail} (hs : s.run .LOP 0 = runStarting) (hc : s.lopCheck = some f) :
    completes .lopCheckDone s (fun t =>
      t.run .LOP 0 = runDisabled ∧ t.enabled .LOP 0 = false ∧ t.rd R.LOP_CHECK_REASON = f.reason % 256 ∧
      t.rd R.LOP_CHECK_SLOT = f.slot % 32 ∧ t.rd R.LOP_CHECK_ADDR = f.addr % 4096 ∧ t.rd (R.IGN_REASON (Blk.LOP.pg 0)) = f.reason % 256) := by
  refine ⟨s.lopChecked, rfl, ?_⟩
  simp only [State.lopChecked, hs, hc, ne_eq, not_true_eq_false, if_false]
  generalize (if decide (18 ≤ f.reason ∧ f.reason ≤ 20) = true then s.lopInfo else s) = a
  generalize hb : ((a.wr R.LOP_CHECK_REASON f.reason).wr R.LOP_CHECK_SLOT f.slot).wr R.LOP_CHECK_ADDR f.addr = b
  have hread : b.rd R.LOP_CHECK_REASON = f.reason % 256 ∧ b.rd R.LOP_CHECK_SLOT = f.slot % 32 ∧ b.rd R.LOP_CHECK_ADDR = f.addr % 4096 := by
    subst hb
    simp (disch := decide) only [State.rd_wr_ne, State.rd_wr_same]
    exact ⟨rfl, rfl, rfl⟩
  clear hb
  obtain ⟨hrun, hen, hreason, hframe⟩ := b.askFail_spec .LOP 0 f.reason
  have hkept {g : Fld} (hg : g = R.LOP_CHECK_REASON ∨ g = R.LOP_CHECK_SLOT ∨ g = R.LOP_CHECK_ADDR) :
      (b.askFail .LOP 0 f.reason).rd g = b.rd g := by
    refine hframe.read ?_
    have hcnt := ignCnt_key (Blk.LOP.pg 0) f.reason
    simp only [ignFlds, List.cons_append, List.nil_append, List.forall_mem_cons, List.not_mem_nil, false_imp_iff, implies_true, and_true]
    rcases hg with rfl | rfl | rfl <;> refine ⟨by decide, by decide, ?_, by decide, by decide, by decide, by decide⟩ <;>
      simp only [Fld.key, R.LOP_CHECK_REASON, R.LOP_CHECK_SLOT, R.LOP_CHECK_ADDR, Blk.pg, Blk.win0] at hcnt ⊢ <;> omega
  exact ⟨hrun, hen, (hkept (.inl rfl)).trans hread.1, (hkept (.inr (.inl rfl))).trans hread.2.1, (hkept (.inr (.inr rfl))).trans hread.2.2, hreason⟩

/-! ### RESTART (R247) -/

/-- What RESTART does to one slot. -/
def State.slotRestart (s : State) (n : Nat) : State :=
  let b := (s.clearSlot n).wr R.LOP_SLOT_HALT_SLOTS (withBit (s.rd R.LOP_SLOT_HALT_SLOTS) n false)
  match b.railOfSlot n with
  | some r => b.chopSync r
  | none => b

theorem State.lopRestart_eq (s : State) (m : Nat) :
    s.lopRestart m = forN 24 (fun n a => if bitOf m n && a.halted n then a.slotRestart n else a) s := rfl

theorem Sparse.get_filter {α : Type} (l : List (Nat × α)) (p : Nat → Bool) (k : Nat) :
    Sparse.get (l.filter (fun e => p e.1)) k = if p k then Sparse.get l k else none := by
  induction l with
  | nil => simp [Sparse.get]
  | cons e t ih =>
    obtain ⟨a, v⟩ := e
    by_cases hp : p a <;> by_cases hk : a = k <;> simp_all [Sparse.get]

/-- The chopper's turn that ends a restart leaves the slots. -/
theorem State.slotRestart_chop (s : State) (n : Nat) :
    let b := (s.clearSlot n).wr R.LOP_SLOT_HALT_SLOTS (withBit (s.rd R.LOP_SLOT_HALT_SLOTS) n false)
    (s.slotRestart n).rd R.LOP_SLOT_HALT_SLOTS = b.rd R.LOP_SLOT_HALT_SLOTS ∧ (s.slotRestart n).eng.loop.regs = b.eng.loop.regs := by
  unfold State.slotRestart
  extract_lets b
  split
  · next r _ =>
    obtain ⟨cs, heng⟩ := b.chopSync_loop r
    refine ⟨(b.chopSync_sameElse r).read ?_, by rw [heng]⟩
    simp only [railFlds, List.forall_mem_cons, List.not_mem_nil, false_imp_iff, implies_true, and_true, Fld.key, R.LOP_SLOT_HALT_SLOTS,
      R.LOP_CH_PERIOD_NS, R.LOP_RAIL_STATE_STATE]
    omega
  · exact ⟨rfl, rfl⟩

theorem State.slotRestart_spec (s : State) (n : Nat) :
    (∀ j, j < 24 → (s.slotRestart n).halted j = if j = n then false else s.halted j) ∧
      ∀ j v l, v < 16 → l < 4 → (s.slotRestart n).vreg j v l = if j = n then 0 else s.vreg j v l := by
  obtain ⟨hhalt, hregs⟩ := s.slotRestart_chop n
  refine ⟨fun j hj => ?_, fun j v l hv hl => ?_⟩
  · rw [State.halted, hhalt, State.rd_wr_same]
    change bitOf (_ % 2 ^ 24) j = _
    rw [bitOf_mod, bitOf_withBit]
    simp [hj, State.halted]
  · have hkey : (j * 64 + v * 4 + l) / 64 = j := by omega
    rw [State.vreg, hregs]
    change Sparse.look (List.filter _ _) _ _ = _
    rw [Sparse.look, Sparse.get_filter _ (fun k => k / 64 ≠ n), hkey]
    by_cases h : j = n <;> simp [h, State.vreg, Sparse.look]

theorem forN_succ {α : Type} (n : Nat) (f : Nat → α → α) (x : α) : forN (n + 1) f x = f n (forN n f x) := by
  simp [forN, List.range_succ]

theorem State.lopRestart_spec (s : State) (m : Nat) :
    (∀ n, n < 24 → (s.lopRestart m).halted n = (s.halted n && !bitOf m n)) ∧
      ∀ n v l, n < 24 → v < 16 → l < 4 →
        (s.lopRestart m).vreg n v l = if bitOf m n = true ∧ s.halted n = true then 0 else s.vreg n v l := by
  have hstep : ∀ k, k ≤ 24 →
      let t := forN k (fun n a => if bitOf m n && a.halted n then a.slotRestart n else a) s
      (∀ n, n < 24 → t.halted n = (s.halted n && !(decide (n < k) && bitOf m n))) ∧
        ∀ n v l, n < 24 → v < 16 → l < 4 →
          t.vreg n v l = if n < k ∧ bitOf m n = true ∧ s.halted n = true then 0 else s.vreg n v l := by
    intro k hk
    induction k with
    | zero => simp [forN]
    | succ k ih =>
      obtain ⟨hh, hv⟩ := ih (by omega)
      have hk24 : k < 24 := by omega
      rw [forN_succ]
      generalize forN k (fun n a => if bitOf m n && a.halted n then a.slotRestart n else a) s = t at hh hv
      have hkk : t.halted k = s.halted k := by simp [hh k hk24]
      have hlt (j : Nat) (h : j ≠ k) : (j < k + 1) = (j < k) := propext (by omega)
      cases hgo : bitOf m k && t.halted k with
      | true =>
        simp only [Bool.and_eq_true, hkk] at hgo
        obtain ⟨hh', hv'⟩ := t.slotRestart_spec k
        simp only [if_true]
        refine ⟨fun n hn => ?_, fun n v l hn hv4 hl => ?_⟩
        · rw [hh' n hn]
          by_cases h : n = k
          · simp [h, hgo]
          · simp [h, hh n hn, hlt n h]
        · rw [hv' n v l hv4 hl]
          by_cases h : n = k
          · simp [h, hgo]
          · simp [h, hv n v l hn hv4 hl, hlt n h]
      | false =>
        simp only [Bool.false_eq_true, if_false]
        refine ⟨fun n hn => ?_, fun n v l hn hv4 hl => ?_⟩
        · by_cases h : n = k
          · subst h
            rw [hkk] at hgo ⊢
            cases hb : bitOf m n <;> simp_all
          · simp [hh n hn, hlt n h]
        · by_cases h : n = k
          · subst h
            rw [hkk] at hgo
            have hno : ¬(bitOf m n = true ∧ s.halted n = true) := by simpa [Bool.and_eq_false_iff] using hgo
            simp [hv n v l hn hv4 hl, hno]
          · simp [hv n v l hn hv4 hl, hlt n h]
  rw [State.lopRestart_eq]
  obtain ⟨hh, hv⟩ := hstep 24 (by decide)
  refine ⟨fun n hn => ?_, fun n v l hn hv4 hl => ?_⟩
  · rw [hh n hn]
    simp [hn]
  · rw [hv n v l hn hv4 hl]
    simp [hn]

theorem fldsAt_restart (b : Build) : fldsAt .LOP b 0 0x28 = some ([R.LOP_RESTART_SLOTS], false) := by cases b <;> rfl

theorem State.cmWrite_restart (s : State) (path : Path) (view : View) (raw : Nat) :
    s.cmWrite ⟨.LOP, 0, 0x28, path, view, raw⟩ = (s.lopRestart (raw % 16777216), []) := rfl

/-- RESTART of the halted slots of its mask. -/
theorem lopRestart_completes {s : State} {path : Path} {m : BitVec 24} (hr : s.reaches path R.LOP_RESTART_SLOTS .set) :
    completes (.lopRestart path .set m) s (fun t =>
      ∀ n, n < 24 → t.halted n = (s.halted n && !bitOf m.toNat n) ∧
        (s.halted n = true → bitOf m.toNat n = true → ∀ v l, v < 16 → l < 4 → t.vreg n v l = 0) ∧
        (bitOf m.toNat n = false → ∀ v l, v < 16 → l < 4 → t.vreg n v l = s.vreg n v l)) := by
  have hm : (m.setWidth 32).toNat % 16777216 = m.toNat := by
    have := m.isLt
    rw [BitVec.toNat_setWidth]
    omega
  have heq := State.pathWrite_commands (a := 0x95028) (v := m.setWidth 32) (rs := []) (u := s.lopRestart m.toNat) hr rfl (by decide) rfl (fldsAt_restart s.build) (by decide) (by decide)
    (by decide) (by decide) (by decide) (by decide) ((State.cmWrite_restart _ _ _ _).trans (by rw [hm]))
  refine completes_eq rfl heq ?_
  rw [State.counted_nil]
  obtain ⟨hh, hv⟩ := s.lopRestart_spec m.toNat
  generalize s.lopRestart m.toNat = u at hh hv
  have hvreg (n v l : Nat) : (u.calCheck.answered path).vreg n v l = u.vreg n v l := by
    unfold State.vreg
    rw [State.answered_eng, State.calCheck_loop]
  have hhalt (n : Nat) : (u.calCheck.answered path).halted n = u.halted n := by
    unfold State.halted
    rw [State.rd_answered, State.rd_calCheck _ (by decide) (by decide) (by decide)]
  intro n hn
  refine ⟨(hhalt n).trans (hh n hn), fun h1 h2 v l hv4 hl => ?_, fun h1 v l hv4 hl => ?_⟩
  · rw [hvreg, hv n v l hn hv4 hl, if_pos ⟨h2, h1⟩]
  · rw [hvreg, hv n v l hn hv4 hl, if_neg (by simp [h1])]

/-- Settles O57: each clause by its own lemma. -/
theorem loopRuns : Obligations.LoopRuns := by
  intro s
  refine ⟨fun n hn hl hon hh hc hdue hskip => slotDue_completes hn hl hon hh hc hdue hskip, fun n hne => ?_, step_counts, fun d => rfl,
    fun n at_ d hn hl hrun hdue hmin hmax hat hd =>
      ⟨runStart_noRail hl hrun hdue hmin hmax hat hd, fun q hq hfresh hchange => runStart_handover hl hrun hdue hmin hq hfresh hchange⟩,
    fun hs => ⟨lopCheck_passes hs, fun f => lopCheck_fails hs⟩, fun path m hr => lopRestart_completes hr⟩
  have hat : s.slotAt n = false := by simp [State.slotAt, hne]
  exact completes_eq rfl (by simp [State.slotDue, hat]) rfl

end Sys2Proof.Machine
end

section
/-! O59: a chopper's cycle and its protections, and the entries of feed-forward. -/

namespace Sys2Proof.Machine

/-! ### A rail that runs -/

/-- The conditions of a rail's chopper are read from registers and pads alone. -/
structure RailSame (r : Nat) (s t : State) : Prop where
  runs : t.lopRuns = s.lopRuns
  halted : t.railHalted r = s.railHalted r
  idle : t.spIdle r = s.spIdle r

/-- The fields of a rail that its chopper and its set-point change, and those of the calibration run. -/
def chopFlds (r : Nat) : List Fld :=
  [R.LOP_CH_PERIOD_NS r, R.LOP_RAIL_STATE_STATE r, R.LOP_CH_EVT_OC r, R.LOP_RAIL_EVT_OV r, R.LOP_CH_MEAS_PEAK r, R.LOP_CH_MEAS_VALLEY r,
    R.LOP_CH_OFS_OFS r, R.LOP_CH_EVT_LIMIT r]

theorem RailSame.of_else {r : Nat} (hr : r < 6) {s t : State} (h : sameElse s t (chopFlds r)) (hp : t.pins = s.pins) : RailSame r s t := by
  have hread {f : Fld} (hf : ∀ g ∈ chopFlds r, f.key ≠ g.key) : t.rd f = s.rd f := h.read hf
  refine ⟨State.lopRuns_congr (hread ?_) (hread ?_) (hread ?_) hp,
    State.railHalted_congr r (fun n hn => hread ?_) (fun n hn => hread ?_) (hread ?_), State.spIdle_congr r (hread ?_) (hread ?_)⟩
  all_goals
    simp only [chopFlds, List.forall_mem_cons, List.not_mem_nil, false_imp_iff, implies_true, and_true, Fld.key, R.ENABLE, R.RUN, Blk.pg, Blk.win0,
      R.PWR_PARKED_STEPS, R.LOP_SLOT_CFG_EN, R.LOP_SLOT_CFG_RAIL, R.LOP_SLOT_HALT_SLOTS, R.LOP_RAIL_SP_X, R.LOP_CH_CFG_BAND, R.LOP_CH_PERIOD_NS,
      R.LOP_RAIL_STATE_STATE, R.LOP_CH_EVT_OC, R.LOP_RAIL_EVT_OV, R.LOP_CH_MEAS_PEAK, R.LOP_CH_MEAS_VALLEY, R.LOP_CH_OFS_OFS, R.LOP_CH_EVT_LIMIT]
    omega

theorem State.chopping_runs {s : State} {r p : Nat} (h : s.chopping r p = true) : s.isTile = true ∧ r < 6 ∧ s.lopRuns = true ∧ (s.chop r).phase = p := by
  simpa [State.chopping, and_assoc] using h

/-! ### The on-phase -/

theorem chopOn_completes {q : Nat} {m : ChopMeas} {s : State} (h : s.chopping q 1 = true) :
    (s.thHi2 q ≤ 2 * m.current → 40 ≤ m.phaseNs →
      completes (.chopOnEnd q m) s (fun t =>
        (t.chop q).phase = 2 ∧ (t.chop q).cut = (s.chop q).cut ∧ t.out = .gates q 2 (s.rd (R.LOP_CH_CFG_DT q)) :: s.out ∧ sameElse s t [])) ∧
    (2 * m.current < s.thHi2 q → completes (.chopOnEnd q m) s (fun t => t = s)) ∧
    (3333 ≤ m.cycleNs →
      completes (.chopCycleLimit q m) s (fun t =>
        (t.chop q).phase = 2 ∧ (t.chop q).cut = true ∧ (t.chop q).shaped = true ∧ sameElse s t [])) ∧
    ((s.rd (R.LOP_CH_OCL_OC_LIM q) : Int) ≤ m.current → 40 ≤ m.phaseNs →
      completes (.overcurrent q m) s (fun t =>
        (t.chop q).phase = 2 ∧ (t.chop q).cut = true ∧ t.rd (R.LOP_CH_EVT_OC q) = min (s.rd (R.LOP_CH_EVT_OC q) + 1) 4294967295 ∧
        sameElse s t [R.LOP_CH_EVT_OC q])) := by
  have hchop (x : Chop) (p : Nat) : ((s.setChop q x).gatesTo q p).chop q = x := State.chop_setChop_same s q x
  have hframe (x : Chop) (p : Nat) (fs : List Fld) : sameElse s ((s.setChop q x).gatesTo q p) fs := (sameElse.refl s fs).of_eq rfl rfl rfl
  refine ⟨fun hth hns => ?_, fun hlt => ?_, fun hcy => ?_, fun hoc hns => ?_⟩
  · refine ⟨s.chopOnEnd q m, rfl, ?_⟩
    rw [State.chopOnEnd, if_pos (by simp [h, hth, hns])]
    dsimp only
    exact ⟨congrArg Chop.phase (hchop _ _), (congrArg Chop.cut (hchop _ _)).trans rfl, rfl, hframe _ _ _⟩
  · exact completes_eq rfl (by simp [State.chopOnEnd, hlt]) rfl
  · refine ⟨s.chopLimit q m, rfl, ?_⟩
    rw [State.chopLimit, if_neg (Nat.not_lt.2 hcy), if_pos h]
    exact ⟨congrArg Chop.phase (hchop _ _), congrArg Chop.cut (hchop _ _), congrArg Chop.shaped (hchop _ _), hframe _ _ _⟩
  · refine ⟨s.chopOver q m, rfl, ?_⟩
    rw [State.chopOver, if_pos (by simp [h, hoc, hns])]
    dsimp only
    refine ⟨congrArg Chop.phase (hchop _ 2), congrArg Chop.cut (hchop _ 2), ?_, (hframe _ _ _).count (by simp)⟩
    exact (State.rd_count32 _ rfl).trans (by rw [(hframe _ _ []).read (by simp)])

/-! ### The end of a cycle (R256, R257) -/

/-- What the end of a cycle shows: its measurements, the offset, and the count of a cut or clipped cycle. -/
def State.cycleShown (s : State) (r : Nat) (m : ChopMeas) : State :=
  let c := s.chop r
  let s1 := ((s.wrI (R.LOP_CH_MEAS_PEAK r) m.peak).wrI (R.LOP_CH_MEAS_VALLEY r) m.valley).wr (R.LOP_CH_PERIOD_NS r) (min 4095 m.cycleNs)
  let lim : Int := (s.rd (R.LOP_CH_OCL_OFS_LIM r) : Nat)
  let up := ((m.peak + m.valley + 1) / 2 - s.railSp r) / ((2 ^ s.rd (R.LOP_CH_CFG_OFS_SH r) : Nat) : Int)
  let s2 := if c.cut || c.moved then s1 else s1.wrI (R.LOP_CH_OFS_OFS r) (clampI (-lim) lim (s.rdI (R.LOP_CH_OFS_OFS r) + up))
  (if c.shaped then s2.count (R.LOP_CH_EVT_LIMIT r) else s2).setChop r { c with phase := 0 }

theorem State.cycleEnd_eq (s : State) (r : Nat) (m : ChopMeas) :
    s.cycleEnd r m = (if (((s.cycleShown r m).chopSync r).chop r).phase = 0 then ((s.cycleShown r m).chopSync r).gatesTo r 0
      else (s.cycleShown r m).chopSync r) := rfl

theorem State.cycleShown_rest (s : State) (r : Nat) (m : ChopMeas) :
    sameElse s (s.cycleShown r m) (chopFlds r) ∧ (s.cycleShown r m).pins = s.pins ∧ (s.cycleShown r m).chop r = { s.chop r with phase := 0 } := by
  unfold State.cycleShown
  extract_lets c s1 lim up s2
  have h1 : sameElse s s1 (chopFlds r) := (((sameElse.refl s _).wrI (by simp [chopFlds])).wrI (by simp [chopFlds])).wr (by simp [chopFlds])
  have h2 : sameElse s s2 (chopFlds r) ∧ s2.pins = s.pins := by
    dsimp only [s2]
    split
    · exact ⟨h1, rfl⟩
    · exact ⟨h1.wrI (by simp [chopFlds]), rfl⟩
  refine ⟨sameElse.setLoop ?_ _, ?_, State.chop_setChop_same _ _ _⟩
  · split
    · exact h2.1.count (by simp [chopFlds])
    · exact h2.1
  · split <;> exact h2.2

/-- The fields that a cycle's end shows, apart from PERIOD and STATE, outlast its rail's turn. -/
theorem State.rd_cycleEnd (s : State) {r : Nat} (m : ChopMeas) {f : Fld} (h1 : f.key ≠ (R.LOP_CH_PERIOD_NS r).key)
    (h2 : f.key ≠ (R.LOP_RAIL_STATE_STATE r).key) : (s.cycleEnd r m).rd f = (s.cycleShown r m).rd f := by
  rw [State.cycleEnd_eq]
  have h := ((s.cycleShown r m).chopSync_sameElse r).read (f := f) (by simp [railFlds, h1, h2])
  split <;> exact h

theorem State.chop_cycleEnd (s : State) (r : Nat) (m : ChopMeas) : (s.cycleEnd r m).chop r = ((s.cycleShown r m).chopTurn r).chop r := by
  rw [State.cycleEnd_eq, ← State.chop_chopSync]
  split <;> rfl

/-- A rail that runs begins the next cycle at once, unless it idles. -/
theorem State.cycleEnd_turn {s : State} {r : Nat} (hr : r < 6) (m : ChopMeas) (hl : s.lopRuns = true) (hh : s.railHalted r = false)
    (ho : (s.chop r).ov = false) : ((s.cycleEnd r m).chop r).phase = if s.spIdle r then 0 else 1 := by
  obtain ⟨hframe, hpins, hchop⟩ := s.cycleShown_rest r m
  have hsame := RailSame.of_else hr hframe hpins
  have hon : (!(s.cycleShown r m).lopRuns || (s.cycleShown r m).railHalted r || ((s.cycleShown r m).chop r).ov) = false := by
    simp [hsame.runs, hsame.halted, hl, hh, hchop, ho]
  rw [State.chop_cycleEnd]
  cases hi : s.spIdle r with
  | true =>
    rw [State.chopTurn_idle hon (hsame.idle.trans hi), hchop]
    rfl
  | false =>
    rw [State.chopTurn_begins hon (hsame.idle.trans hi) (by rw [hchop])]
    rfl

theorem State.cycleEnd_period {s : State} {r : Nat} (m : ChopMeas) :
    (s.cycleEnd r m).rd (R.LOP_CH_PERIOD_NS r) =
      if ((s.cycleEnd r m).chop r).phase = 0 then 0 else (s.cycleShown r m).rd (R.LOP_CH_PERIOD_NS r) := by
  have hgates : (s.cycleEnd r m).rd (R.LOP_CH_PERIOD_NS r) = ((s.cycleShown r m).chopSync r).rd (R.LOP_CH_PERIOD_NS r) := by
    rw [State.cycleEnd_eq]
    split <;> rfl
  rw [hgates, State.chop_cycleEnd]
  split
  · next h => exact State.chopSync_period_zero h
  · next h => exact State.chopSync_period_kept h

/-- The measurements, where they fit. -/
theorem State.cycleShown_meas (s : State) (r : Nat) {m : ChopMeas} (hp : -32768 ≤ m.peak ∧ m.peak < 32768)
    (hv : -32768 ≤ m.valley ∧ m.valley < 32768) :
    (s.cycleShown r m).rdI (R.LOP_CH_MEAS_PEAK r) = m.peak ∧ (s.cycleShown r m).rdI (R.LOP_CH_MEAS_VALLEY r) = m.valley ∧
      (s.cycleShown r m).rd (R.LOP_CH_PERIOD_NS r) = min 4095 m.cycleNs := by
  unfold State.cycleShown
  extract_lets c s1 lim up s2
  have hrest {f : Fld} (h1 : f.key ≠ (R.LOP_CH_OFS_OFS r).key) (h2 : f.key ≠ (R.LOP_CH_EVT_LIMIT r).key) (x : Chop) :
      ((if c.shaped then s2.count (R.LOP_CH_EVT_LIMIT r) else s2).setChop r x).rd f = s1.rd f := by
    have h : sameElse s1 ((if c.shaped then s2.count (R.LOP_CH_EVT_LIMIT r) else s2).setChop r x) [R.LOP_CH_OFS_OFS r, R.LOP_CH_EVT_LIMIT r] := by
      refine sameElse.setLoop (sameElse.ite (fun _ => sameElse.count ?_ (by simp)) fun _ => ?_) _ <;>
        exact sameElse.ite (fun _ => .refl _ _) fun _ => (sameElse.refl _ _).wrI (by simp)
    exact h.read (by simp [h1, h2])
  have hkeys : (R.LOP_CH_MEAS_PEAK r).key ≠ (R.LOP_CH_OFS_OFS r).key ∧ (R.LOP_CH_MEAS_PEAK r).key ≠ (R.LOP_CH_EVT_LIMIT r).key ∧
      (R.LOP_CH_MEAS_VALLEY r).key ≠ (R.LOP_CH_OFS_OFS r).key ∧ (R.LOP_CH_MEAS_VALLEY r).key ≠ (R.LOP_CH_EVT_LIMIT r).key ∧
      (R.LOP_CH_PERIOD_NS r).key ≠ (R.LOP_CH_OFS_OFS r).key ∧ (R.LOP_CH_PERIOD_NS r).key ≠ (R.LOP_CH_EVT_LIMIT r).key ∧
      (R.LOP_CH_MEAS_PEAK r).key ≠ (R.LOP_CH_PERIOD_NS r).key ∧ (R.LOP_CH_MEAS_VALLEY r).key ≠ (R.LOP_CH_PERIOD_NS r).key ∧
      (R.LOP_CH_MEAS_PEAK r).key ≠ (R.LOP_CH_MEAS_VALLEY r).key := by
    simp only [Fld.key, R.LOP_CH_MEAS_PEAK, R.LOP_CH_MEAS_VALLEY, R.LOP_CH_OFS_OFS, R.LOP_CH_PERIOD_NS, R.LOP_CH_EVT_LIMIT]
    omega
  obtain ⟨p1, p2, v1, v2, n1, n2, pn, vn, pv⟩ := hkeys
  refine ⟨?_, ?_, (hrest n1 n2 _).trans ((State.rd_wr_same _ _ _).trans ?_)⟩
  · rw [State.rdI, hrest p1 p2]
    exact (State.rdI_wr_ne _ _ pn).trans ((State.rdI_wrI_ne _ _ pv).trans (State.rdI_wrI_same16 _ rfl hp.1 hp.2))
  · rw [State.rdI, hrest v1 v2]
    exact (State.rdI_wr_ne _ _ vn).trans (State.rdI_wrI_same16 _ rfl hv.1 hv.2)
  · change _ % 2 ^ 12 = _
    omega

/-- A cycle neither cut nor moved updates the offset within its limit. -/
theorem State.cycleShown_offset {s : State} {r : Nat} (m : ChopMeas) (hc : (s.chop r).cut = false) (hm : (s.chop r).moved = false)
    (hlim : s.rd (R.LOP_CH_OCL_OFS_LIM r) < 32768) :
    (s.cycleShown r m).rdI (R.LOP_CH_OFS_OFS r) =
      clampI (-(s.rd (R.LOP_CH_OCL_OFS_LIM r) : Int)) (s.rd (R.LOP_CH_OCL_OFS_LIM r))
        (s.rdI (R.LOP_CH_OFS_OFS r) + ((m.peak + m.valley + 1) / 2 - s.railSp r) / ((2 ^ s.rd (R.LOP_CH_CFG_OFS_SH r) : Nat) : Int)) := by
  have hclamp (x : Int) : -32768 ≤ clampI (-(s.rd (R.LOP_CH_OCL_OFS_LIM r) : Int)) (s.rd (R.LOP_CH_OCL_OFS_LIM r)) x ∧
      clampI (-(s.rd (R.LOP_CH_OCL_OFS_LIM r) : Int)) (s.rd (R.LOP_CH_OCL_OFS_LIM r)) x < 32768 := by
    unfold clampI
    omega
  have hkey : (R.LOP_CH_OFS_OFS r).key ≠ (R.LOP_CH_EVT_LIMIT r).key := by
    simp only [Fld.key, R.LOP_CH_OFS_OFS, R.LOP_CH_EVT_LIMIT]
    omega
  simp only [State.cycleShown, hc, hm, Bool.or_self, Bool.false_eq_true, if_false]
  have hsh (b : Bool) (u : State) (x : Chop) : ((if b then u.count (R.LOP_CH_EVT_LIMIT r) else u).setChop r x).rdI (R.LOP_CH_OFS_OFS r) = u.rdI (R.LOP_CH_OFS_OFS r) := by
    cases b
    · rfl
    · exact congrArg (sgn 16) (State.rd_count_ne _ hkey)
  rw [hsh]
  exact State.rdI_wrI_same16 _ rfl (hclamp _).1 (hclamp _).2

/-- A cut cycle keeps the offset, and counts. -/
theorem State.cycleShown_cut {s : State} {r : Nat} (m : ChopMeas) (hc : (s.chop r).cut = true) (hs : (s.chop r).shaped = true) :
    (s.cycleShown r m).rd (R.LOP_CH_OFS_OFS r) = s.rd (R.LOP_CH_OFS_OFS r) ∧
      (s.cycleShown r m).rd (R.LOP_CH_EVT_LIMIT r) = min (s.rd (R.LOP_CH_EVT_LIMIT r) + 1) 4294967295 := by
  have hkeys : (R.LOP_CH_OFS_OFS r).key ≠ (R.LOP_CH_EVT_LIMIT r).key ∧
      ∀ f ∈ [R.LOP_CH_MEAS_PEAK r, R.LOP_CH_MEAS_VALLEY r, R.LOP_CH_PERIOD_NS r],
        (R.LOP_CH_OFS_OFS r).key ≠ f.key ∧ (R.LOP_CH_EVT_LIMIT r).key ≠ f.key := by
    simp only [List.forall_mem_cons, List.not_mem_nil, false_imp_iff, implies_true, and_true, Fld.key, R.LOP_CH_OFS_OFS, R.LOP_CH_EVT_LIMIT,
      R.LOP_CH_MEAS_PEAK, R.LOP_CH_MEAS_VALLEY, R.LOP_CH_PERIOD_NS]
    omega
  obtain ⟨hne, hmeas⟩ := hkeys
  simp only [State.cycleShown, hc, hs, Bool.true_or, if_true]
  have hframe : sameElse s (((s.wrI (R.LOP_CH_MEAS_PEAK r) m.peak).wrI (R.LOP_CH_MEAS_VALLEY r) m.valley).wr (R.LOP_CH_PERIOD_NS r) (min 4095 m.cycleNs))
      [R.LOP_CH_MEAS_PEAK r, R.LOP_CH_MEAS_VALLEY r, R.LOP_CH_PERIOD_NS r] :=
    (((sameElse.refl s _).wrI (by simp)).wrI (by simp)).wr (by simp)
  refine ⟨(State.rd_count_ne _ hne).trans (hframe.read fun g hg => (hmeas g hg).1), (State.rd_count32 _ rfl).trans ?_⟩
  rw [hframe.read fun g hg => (hmeas g hg).2]

/-- Behind a change of the chopper's marks alone, the cycle ends as it would have, on the same rail. -/
theorem State.setChop_same {s : State} {q : Nat} (hq : q < 6) (x : Chop) : RailSame q s (s.setChop q x) :=
  RailSame.of_else hq ((sameElse.refl s _).setLoop _) rfl

theorem ofs_apart (q : Nat) : ∀ f ∈ [R.LOP_CH_MEAS_PEAK q, R.LOP_CH_MEAS_VALLEY q, R.LOP_CH_OFS_OFS q, R.LOP_CH_EVT_LIMIT q],
    f.key ≠ (R.LOP_CH_PERIOD_NS q).key ∧ f.key ≠ (R.LOP_RAIL_STATE_STATE q).key := by
  simp only [List.forall_mem_cons, List.not_mem_nil, false_imp_iff, implies_true, and_true, Fld.key, R.LOP_CH_OFS_OFS, R.LOP_CH_EVT_LIMIT,
    R.LOP_CH_MEAS_PEAK, R.LOP_CH_MEAS_VALLEY, R.LOP_CH_PERIOD_NS, R.LOP_RAIL_STATE_STATE]
  omega

/-- What the end of a cycle shows outlasts its rail's turn. -/
theorem State.rd_cycleEnd_shown (s : State) (q : Nat) (m : ChopMeas) {f : Fld}
    (hf : f ∈ [R.LOP_CH_MEAS_PEAK q, R.LOP_CH_MEAS_VALLEY q, R.LOP_CH_OFS_OFS q, R.LOP_CH_EVT_LIMIT q]) :
    (s.cycleEnd q m).rd f = (s.cycleShown q m).rd f := s.rd_cycleEnd m (ofs_apart q f hf).1 (ofs_apart q f hf).2

theorem State.rdI_cycleEnd_shown (s : State) (q : Nat) (m : ChopMeas) {f : Fld}
    (hf : f ∈ [R.LOP_CH_MEAS_PEAK q, R.LOP_CH_MEAS_VALLEY q, R.LOP_CH_OFS_OFS q, R.LOP_CH_EVT_LIMIT q]) :
    (s.cycleEnd q m).rdI f = (s.cycleShown q m).rdI f := by rw [State.rdI, s.rd_cycleEnd_shown q m hf, State.rdI]

theorem chopOffEnd_completes {q : Nat} {m : ChopMeas} {s : State} (h : s.chopping q 2 = true) (hp : -32768 ≤ m.peak ∧ m.peak < 32768)
    (hv : -32768 ≤ m.valley ∧ m.valley < 32768) (hh : s.railHalted q = false) (ho : (s.chop q).ov = false)
    (hlim : s.rd (R.LOP_CH_OCL_OFS_LIM q) < 32768) (hth : 2 * m.current ≤ s.thLo2 q) (hns : 40 ≤ m.phaseNs) (hcy : 250 ≤ m.cycleNs)
    (hcut : (s.chop q).cut = false) (hmoved : (s.chop q).moved = false) :
    completes (.chopOffEnd q m) s (fun t =>
      t.rdI (R.LOP_CH_MEAS_PEAK q) = m.peak ∧ t.rdI (R.LOP_CH_MEAS_VALLEY q) = m.valley ∧
      t.rdI (R.LOP_CH_OFS_OFS q) = clampI (-(s.rd (R.LOP_CH_OCL_OFS_LIM q) : Int)) (s.rd (R.LOP_CH_OCL_OFS_LIM q))
        (s.rdI (R.LOP_CH_OFS_OFS q) + ((m.peak + m.valley + 1) / 2 - s.railSp q) / ((2 ^ s.rd (R.LOP_CH_CFG_OFS_SH q) : Nat) : Int)) ∧
      t.rd (R.LOP_CH_PERIOD_NS q) = (if s.spIdle q then 0 else min 4095 m.cycleNs) ∧
      (t.chop q).phase = (if s.spIdle q then 0 else 1)) := by
  obtain ⟨-, hq, hl, -⟩ := State.chopping_runs h
  have hends : ∃ x : Chop, s.chopOffEnd q m = (s.setChop q x).cycleEnd q m ∧ x.cut = false ∧ x.moved = false ∧ x.ov = false := by
    refine ⟨{ s.chop q with shaped := (s.chop q).shaped || (decide (2 * m.current < s.thLo2 q) && (m.phaseNs = 40 || m.cycleNs = 250)) }, ?_,
      hcut, hmoved, ho⟩
    rw [State.chopOffEnd, if_pos (by simp [h, hth, hns, hcy])]
  obtain ⟨x, heq, hxc, hxm, hxo⟩ := hends
  have hsame := s.setChop_same hq x
  have hac : (s.setChop q x).chop q = x := State.chop_setChop_same s q x
  have hphase := State.cycleEnd_turn (s := s.setChop q x) hq m (hsame.runs.trans hl) (hsame.halted.trans hh) (by rw [hac, hxo])
  obtain ⟨hpeak, hvalley, hperiod⟩ := (s.setChop q x).cycleShown_meas q hp hv
  have hofs := State.cycleShown_offset (s := s.setChop q x) (r := q) m (by rw [hac, hxc]) (by rw [hac, hxm]) hlim
  rw [hsame.idle] at hphase
  refine completes_eq rfl heq ⟨?_, ?_, ?_, ?_, hphase⟩
  · rw [State.rdI_cycleEnd_shown _ _ _ (by simp), hpeak]
  · rw [State.rdI_cycleEnd_shown _ _ _ (by simp), hvalley]
  · rw [State.rdI_cycleEnd_shown _ _ _ (by simp), hofs]
    rfl
  · rw [State.cycleEnd_period, hphase, hperiod]
    cases s.spIdle q <;> simp

theorem chopLimit_completes {q : Nat} {m : ChopMeas} {s : State} (h : s.chopping q 2 = true) (hp : -32768 ≤ m.peak ∧ m.peak < 32768)
    (hv : -32768 ≤ m.valley ∧ m.valley < 32768) (hcy : 3333 ≤ m.cycleNs) :
    completes (.chopCycleLimit q m) s (fun t =>
      t.rd (R.LOP_CH_OFS_OFS q) = s.rd (R.LOP_CH_OFS_OFS q) ∧
      t.rd (R.LOP_CH_EVT_LIMIT q) = min (s.rd (R.LOP_CH_EVT_LIMIT q) + 1) 4294967295 ∧ t.rdI (R.LOP_CH_MEAS_PEAK q) = m.peak) := by
  have h1 : s.chopping q 1 = false := by
    obtain ⟨-, -, -, hphase⟩ := State.chopping_runs h
    simp [State.chopping, hphase]
  have heq : s.chopLimit q m = (s.setChop q { s.chop q with cut := true, shaped := true }).cycleEnd q m := by
    rw [State.chopLimit, if_neg (Nat.not_lt.2 hcy), h1, if_neg Bool.false_ne_true, if_pos h]
  obtain ⟨hpeak, -, -⟩ := (s.setChop q { s.chop q with cut := true, shaped := true }).cycleShown_meas q hp hv
  have hac := State.chop_setChop_same s q { s.chop q with cut := true, shaped := true }
  obtain ⟨hofs, hcount⟩ := State.cycleShown_cut (s := s.setChop q { s.chop q with cut := true, shaped := true }) (r := q) m (by rw [hac]) (by rw [hac])
  refine completes_eq rfl heq ⟨?_, ?_, ?_⟩
  · rw [State.rd_cycleEnd_shown _ _ _ (by simp), hofs]
    rfl
  · rw [State.rd_cycleEnd_shown _ _ _ (by simp), hcount]
    rfl
  · rw [State.rdI_cycleEnd_shown _ _ _ (by simp), hpeak]

/-! ### Protections (R258) -/

/-- A rail in OV shows it. -/
theorem State.rd_railShow_ov {s : State} {q : Nat} (hl : s.lopRuns = true) (hh : s.railHalted q = false) (ho : (s.chop q).ov = true) :
    (s.railShow q).rd (R.LOP_RAIL_STATE_STATE q) = lrOv := by
  rw [State.railShow, State.rd_wr_same]
  simp only [hl, hh, ho, Bool.not_true, Bool.false_eq_true, if_false, if_true]
  rfl

/-- The rail behind a chopper's turn. -/
theorem State.chopSync_shown (s : State) (q : Nat) :
    ∃ u : State, s.chopSync q = u.railShow q ∧ sameElse s u (chopFlds q) ∧ u.pins = s.pins ∧ u.chop q = (s.chopTurn q).chop q := by
  have hturn := (s.chopTurn_sameElse q).mono (List.nil_subset (chopFlds q))
  have hpins := (s.chopTurn_rest q).1
  rw [State.chopSync_eq]
  split
  · exact ⟨_, rfl, hturn.wr (by simp [chopFlds]), hpins, rfl⟩
  · exact ⟨_, rfl, hturn, hpins, rfl⟩

theorem railFlds_keys (q : Nat) : (R.LOP_RAIL_EVT_OV q).key ≠ (R.LOP_CH_PERIOD_NS q).key ∧ (R.LOP_RAIL_EVT_OV q).key ≠ (R.LOP_RAIL_STATE_STATE q).key := by
  simp only [Fld.key, R.LOP_RAIL_EVT_OV, R.LOP_CH_PERIOD_NS, R.LOP_RAIL_STATE_STATE]
  omega

/-- The check of coverage leaves what the loop engine shows of its rails. -/
theorem State.rd_calCheck_rail (s : State) {q : Nat} {f : Fld} (hf : f ∈ chopFlds q) : s.calCheck.rd f = s.rd f := by
  simp only [chopFlds, List.mem_cons, List.not_mem_nil, or_false] at hf
  refine State.rd_calCheck s ?_ ?_ ?_ <;> rcases hf with rfl | rfl | rfl | rfl | rfl | rfl | rfl | rfl <;>
    simp only [Fld.key, R.CAL_STATE_PHASE, R.CAL_CMD_RUN, R.CAL_EVT_ABORT, R.LOP_CH_PERIOD_NS, R.LOP_RAIL_STATE_STATE, R.LOP_CH_EVT_OC,
      R.LOP_RAIL_EVT_OV, R.LOP_CH_MEAS_PEAK, R.LOP_CH_MEAS_VALLEY, R.LOP_CH_OFS_OFS, R.LOP_CH_EVT_LIMIT] <;> omega

theorem State.chop_calCheck (s : State) (q : Nat) : s.calCheck.chop q = s.chop q := by rw [State.chop, State.calCheck_loop, State.chop]

theorem overvoltage_stops {q v : Nat} {s : State} (hq : q < 6) (hb : s.build = .tile) (hl : s.lopRuns = true) (ho : (s.chop q).ov = false)
    (hh : s.railHalted q = false) (hv : s.rd (R.LOP_RAIL_LIM_OV_LIM q) ≤ v) :
    completes (.overvoltage { rail := q, vrail := v }) s (fun t =>
      (t.chop q).ov = true ∧ (t.chop q).phase = 0 ∧ t.rd (R.LOP_RAIL_STATE_STATE q) = lrOv ∧ t.rd (R.LOP_CH_PERIOD_NS q) = 0 ∧
      t.rd (R.LOP_RAIL_EVT_OV q) = min (s.rd (R.LOP_RAIL_EVT_OV q) + 1) 4294967295 ∧
      sameElse s t ([R.LOP_RAIL_STATE_STATE q, R.LOP_CH_PERIOD_NS q, R.LOP_RAIL_EVT_OV q] ++ calFlds)) := by
  have heq : s.chopOv q v = ((s.setChop q { s.chop q with ov := true }).count (R.LOP_RAIL_EVT_OV q)).chopSync q := by
    rw [State.chopOv, if_pos (by simp [State.isTile, hb, hq, hl, ho, hv])]
  refine completes_eq rfl (congrArg State.calCheck heq) ?_
  generalize ha : (s.setChop q { s.chop q with ov := true }).count (R.LOP_RAIL_EVT_OV q) = a
  have hframe : sameElse s a [R.LOP_RAIL_EVT_OV q] := ha ▸ ((sameElse.refl s _).setLoop _).count (by simp)
  have hchop : a.chop q = { s.chop q with ov := true } := ha ▸ State.chop_setChop_same s q _
  have hcount : a.rd (R.LOP_RAIL_EVT_OV q) = min (s.rd (R.LOP_RAIL_EVT_OV q) + 1) 4294967295 := ha ▸ State.rd_count32 _ rfl
  have hpins : a.pins = s.pins := ha ▸ rfl
  clear ha
  have hturn := State.chopTurn_off (s := a) (r := q) (by simp [hchop])
  have hsync := a.chopSync_sameElse q
  obtain ⟨u, hu, huf, hup, huc⟩ := a.chopSync_shown q
  have hsame : RailSame q s u := .of_else hq ((hframe.mono (by simp [chopFlds])).trans huf) (hup.trans hpins)
  have hov : (u.chop q).ov = true := by rw [huc, hturn, hchop]
  refine ⟨?_, ?_, ?_, ?_, ?_, ?_⟩
  · rw [State.chop_calCheck, State.chop_chopSync, hturn, hchop]
  · rw [State.chop_calCheck, State.chop_chopSync, hturn]
  · rw [State.rd_calCheck_rail _ (q := q) (by simp [chopFlds]), hu, State.rd_railShow_ov (hsame.runs.trans hl) (hsame.halted.trans hh) hov]
  · rw [State.rd_calCheck_rail _ (q := q) (by simp [chopFlds]), State.chopSync_period_zero (by rw [hturn])]
  · rw [State.rd_calCheck_rail _ (q := q) (by simp [chopFlds]), hsync.read (by simp [railFlds, railFlds_keys]), hcount]
  · exact ((hframe.append hsync).mono (by simp [railFlds])).calCheck

theorem overvoltage_below {q v : Nat} {s : State} (ho : (s.chop q).ov = false) (hv : v < s.rd (R.LOP_RAIL_LIM_OV_LIM q)) :
    completes (.overvoltage { rail := q, vrail := v }) s (fun t => (t.chop q).ov = false ∧ sameElse s t calFlds) := by
  have heq : s.chopOv q v = s := by rw [State.chopOv, if_neg (by simp [Nat.not_le.2 hv])]
  exact completes_eq rfl (congrArg State.calCheck heq) ⟨by rw [State.chop_calCheck, ho], (sameElse.refl s []).calCheck⟩

theorem ovRecover_restarts {q v : Nat} {s : State} (hq : q < 6) (ho : (s.chop q).ov = true) (hv : v + 256 < s.rd (R.LOP_RAIL_LIM_OV_LIM q))
    (hl : s.lopRuns = true) (hh : s.railHalted q = false) (hi : s.spIdle q = false) (hp : (s.chop q).phase = 0) :
    completes (.ovRecover q v) s (fun t =>
      (t.chop q).ov = false ∧ (t.chop q).phase = 1 ∧ sameElse s t [R.LOP_RAIL_STATE_STATE q]) := by
  have heq : s.ovRecover q v = (s.setChop q { s.chop q with ov := false }).chopSync q := by
    rw [State.ovRecover, if_pos (by simp [ho, hv])]
  have hsame := s.setChop_same hq { s.chop q with ov := false }
  have hac := State.chop_setChop_same s q { s.chop q with ov := false }
  have hturn := State.chopTurn_begins (s := s.setChop q { s.chop q with ov := false }) (r := q) (by simp [hsame.runs, hsame.halted, hl, hh])
    (hsame.idle.trans hi) (by rw [hac]; exact hp)
  refine completes_eq rfl heq ⟨?_, ?_, ?_⟩
  · rw [State.chop_chopSync, hturn, hac]
  · rw [State.chop_chopSync, hturn]
  · rw [State.chopSync_eq, if_neg (by simp [hturn])]
    exact sameElse.wr ((((sameElse.refl s []).setLoop _).trans (State.chopTurn_sameElse _ q)).mono (by simp)) (by simp)

/-! ### Headroom reports (R217) -/

theorem headReport_kept {half : Half} {c v : Nat} {s : State} (hb : s.build = .tile) (hc : c < 3) (hin : c ∈ (s.lamp (Half.no half)).lastRails) :
    completes (.headroomReport half c (some v)) s (fun t =>
      Sparse.get t.eng.loop.headroom (3 * Half.no half + c) = some (min v 32767) ∧ sameElse s t []) := by
  refine ⟨s.headReport (Half.no half) c (some v), rfl, ?_⟩
  rw [State.headReport, if_pos (by simp [State.isTile, hb, hc, hin])]
  exact ⟨Sparse.get_put_same _ _ _, (sameElse.refl s _).setLoop _⟩

/-! ### Feed-forward entries (R253) -/

/-- Bytes that are the same read the same. -/
theorem State.rdLE_same {s t : State} {sp : Space} {off n : Nat} (h : ∀ i < n, t.rd8 sp (off + i) = s.rd8 sp (off + i)) :
    t.rdLE sp off n = s.rdLE sp off n := by
  induction n generalizing off with
  | zero => rfl
  | succ n ih =>
    have hrest : t.rdLE sp (off + 1) n = s.rdLE sp (off + 1) n := ih fun i hi => by
      have := h (i + 1) (by omega)
      rwa [show off + (i + 1) = off + 1 + i by omega] at this
    simp only [State.rdLE, hrest]
    rw [show t.rd8 sp off = s.rd8 sp off from h 0 (by omega)]

theorem State.rdLE_lt (s : State) (sp : Space) (off n : Nat) : s.rdLE sp off n < 256 ^ n := by
  induction n generalizing off with
  | zero => simp [State.rdLE]
  | succ n ih =>
    have h1 := ih (off + 1)
    have h2 := (s.rd8 sp off).isLt
    rw [State.rdLE, Nat.pow_succ]
    omega

theorem State.rd32_lt (s : State) (sp : Space) (off : Nat) : s.rd32 sp off < 4294967296 := s.rdLE_lt sp off 4

/-- A dword written leaves every dword beside it. -/
theorem State.rd32_wr32_window_ne (s : State) {a b : Nat} (v : Nat) (h : a + 4 ≤ b ∨ b + 4 ≤ a) :
    (s.wr32 .window a v).rd32 .window b = s.rd32 .window b := by
  refine State.rdLE_same fun i hi => ?_
  unfold State.rd8
  refine s.memGet_wr32_window a v ?_
  simp only [Space.key, Space.fold]
  omega

theorem State.wf_wr32 {s : State} (h : Memory.wf s.mem = true) (a v : Nat) : Memory.wf (s.wr32 .window a v).mem = true := State.wrLE_wf h _ _ _ _

/-- The entry last published comes into force. -/
theorem State.entryInForce_rd32 {s : State} (hm : Memory.wf s.mem = true) (q : Nat) :
    (s.entryInForce q).rd32 .window (rowLoadAt q) = s.rd32 .window (rowLoadAt q + 8) ∧
      (s.entryInForce q).rd32 .window (rowLoadAt q + 4) = s.rd32 .window (rowLoadAt q + 12) := by
  unfold State.entryInForce
  refine ⟨?_, State.rd32_wr32_window _ (State.wf_wr32 hm _ _) _ (s.rd32_lt _ _)⟩
  rw [State.rd32_wr32_window_ne _ _ (.inr (by omega)), State.rd32_wr32_window _ hm _ (s.rd32_lt _ _)]

theorem State.entryInForce_else (s : State) (q : Nat) :
    (∀ f, (s.entryInForce q).rd f = s.rd f) ∧
      ∀ k, (k < Space.window.key (rowLoadAt q) ∨ Space.window.key (rowLoadAt q) + 8 ≤ k) → memGet (s.entryInForce q).mem k = memGet s.mem k := by
  refine ⟨fun f => by rw [State.entryInForce, State.rd_wr32, State.rd_wr32], fun k hk => ?_⟩
  unfold State.entryInForce
  rw [State.memGet_wr32_window _ _ _ ?_, State.memGet_wr32_window _ _ _ ?_]
  all_goals
    simp only [Space.key] at hk ⊢
    omega

/-- An entry published for the three rails of a half. -/
theorem State.publish_rd32 {s : State} (hm : Memory.wf s.mem = true) {h : Nat} (slot row : Nat) (gap : Bool) (sum : Nat → Nat) {c : Nat} (hc : c < 3) :
    (s.publish h slot row gap sum).rd32 .window (rowLoadAt (3 * h + c) + 8) = sum c % 33554432 + 33554432 * b2n gap ∧
      (s.publish h slot row gap sum).rd32 .window (rowLoadAt (3 * h + c) + 12) = slot % 1024 + 65536 * (row % 64) := by
  have hg : b2n gap ≤ 1 := by unfold b2n; split <;> decide
  have hstep : ∀ n, n ≤ 3 →
      let t := forN n (fun c (a : State) =>
        (a.wr32 .window (rowLoadAt (3 * h + c) + 8) (sum c % 33554432 + 33554432 * b2n gap)).wr32 .window (rowLoadAt (3 * h + c) + 12)
          (slot % 1024 + 65536 * (row % 64))) s
      Memory.wf t.mem = true ∧ (c < n →
        t.rd32 .window (rowLoadAt (3 * h + c) + 8) = sum c % 33554432 + 33554432 * b2n gap ∧
        t.rd32 .window (rowLoadAt (3 * h + c) + 12) = slot % 1024 + 65536 * (row % 64)) := by
    intro n hn
    induction n with
    | zero => exact ⟨hm, fun h => by omega⟩
    | succ n ih =>
      obtain ⟨hwf, hrd⟩ := ih (by omega)
      rw [forN_succ]
      generalize forN n _ s = t at hwf hrd
      refine ⟨State.wf_wr32 (State.wf_wr32 hwf _ _) _ _, fun hcn => ?_⟩
      by_cases hcc : c = n
      · subst hcc
        refine ⟨?_, State.rd32_wr32_window _ (State.wf_wr32 hwf _ _) _ (by omega)⟩
        rw [State.rd32_wr32_window_ne _ _ (.inr (by omega)), State.rd32_wr32_window _ hwf _ (by omega)]
      · obtain ⟨h1, h2⟩ := hrd (by omega)
        unfold rowLoadAt at *
        rw [State.rd32_wr32_window_ne _ _ (by omega), State.rd32_wr32_window_ne _ _ (by omega), State.rd32_wr32_window_ne _ _ (by omega),
          State.rd32_wr32_window_ne _ _ (by omega)]
        exact ⟨h1, h2⟩
  exact (hstep 3 (by decide)).2 hc

theorem State.publish_wf {s : State} (hm : Memory.wf s.mem = true) (h slot row : Nat) (gap : Bool) (sum : Nat → Nat) :
    Memory.wf (s.publish h slot row gap sum).mem = true :=
  forN_inv (fun a : State => Memory.wf a.mem = true) hm fun _ _ ha => State.wf_wr32 (State.wf_wr32 ha _ _) _ _

theorem State.rd32_setScan (s : State) (h : Nat) (x : ScanHalf) (sp : Space) (a : Nat) : (s.setScan h x).rd32 sp a = s.rd32 sp a :=
  State.rdLE_congr rfl rfl _ _ _

theorem State.rd32_wrB (s : State) (f : Fld) (b : Bool) (sp : Space) (a : Nat) : (s.wrB f b).rd32 sp a = s.rd32 sp a := State.rdLE_congr rfl rfl _ _ _

/-- An entry of a row slot, its sums zero where the half blanks. -/
theorem State.publishSlot_rd32 {s : State} {h : Nat} (hm : Memory.wf s.mem = true) (k r : Nat) (blank : Bool) {c : Nat} (hc : c < 3) :
    Memory.wf (s.publishSlot h k r blank).mem = true ∧
      (s.publishSlot h k r blank).rd32 .window (rowLoadAt (3 * h + c) + 12) = k % 1024 + 65536 * (r % 64) ∧
      (blank = true → (s.publishSlot h k r blank).rd32 .window (rowLoadAt (3 * h + c) + 8) = 0) := by
  unfold State.publishSlot
  extract_lets miss s1 src s2
  have hwf : Memory.wf s2.mem = true := by
    have h1 : Memory.wf s1.mem = true := by
      dsimp only [s1]
      split <;> exact hm
    exact h1
  generalize s2 = u at hwf
  obtain ⟨h8, h12⟩ := State.publish_rd32 hwf (h := h) k r false (fun c => if (blank || miss) = true then 0 else s.rowSum h k r c) hc
  refine ⟨State.publish_wf hwf _ _ _ _ _, h12, fun hb => h8.trans ?_⟩
  simp [hb, b2n]

theorem State.publishFirst_eq {s : State} {h : Nat} (hl : s.scnLive h = true) (hg : (s.scan h).gap = true) (hf : (s.scan h).first = none) :
    ∃ (blank : Bool) (x : ScanHalf), s.publishFirst h = (s.publishSlot h 0 0 blank).setScan h x ∧ (s.lmpBlkPre h ≠ 0 → blank = true) := by
  unfold State.publishFirst
  extract_lets x blank t
  have hblank : s.lmpBlkPre h ≠ 0 → blank = true := fun h => by simp [blank, h]
  exact ⟨blank, _, if_pos (by simp [x, hl, hg, hf]), hblank⟩

/-- The first entry of a frame gap is of slot 0 and row 0, its sums zero where the half blanks. -/
theorem State.publishFirst_rd32 {s : State} {h : Nat} (hm : Memory.wf s.mem = true) (hl : s.scnLive h = true) (hg : (s.scan h).gap = true)
    (hf : (s.scan h).first = none) {c : Nat} (hc : c < 3) :
    Memory.wf (s.publishFirst h).mem = true ∧ (s.publishFirst h).rd32 .window (rowLoadAt (3 * h + c) + 12) = 0 ∧
      (s.lmpBlkPre h ≠ 0 → (s.publishFirst h).rd32 .window (rowLoadAt (3 * h + c) + 8) = 0) := by
  obtain ⟨blank, x, heq, hblank⟩ := State.publishFirst_eq hl hg hf
  obtain ⟨hwf, h12, h8⟩ := State.publishSlot_rd32 (h := h) hm 0 0 blank hc
  rw [heq, State.rd32_setScan, State.rd32_setScan]
  exact ⟨hwf, h12, fun hb => h8 (hblank hb)⟩

theorem rowLoadAt_half (q : Nat) : rowLoadAt (3 * (q / 3) + q % 3) = rowLoadAt q := by
  congr 1
  omega

theorem State.ffEntry_eq {s : State} {q : Nat} (hb : s.build = .tile) (hq : q < 6) :
    ∃ b : Bool, s.ffEntry q = ((s.publishFirst (q / 3)).entryInForce q).wrB (R.LOP_RAIL_STATE_FF_CLIP q) b :=
  ⟨_, by rw [State.ffEntry, if_neg (by simp [State.isTile, hb, hq])]⟩

theorem ffEntry_first {q : Nat} {s : State} (hq : q < 6) (hb : s.build = .tile) (hl : s.scnLive (q / 3) = true) (hg : (s.scan (q / 3)).gap = true)
    (hf : (s.scan (q / 3)).first = none) (hwf : s.wf = true) :
    completes (.ffEntry q) s (fun t =>
      t.rd32 .window (rowLoadAt q + 4) = 0 ∧ (s.lmpBlkPre (q / 3) ≠ 0 → t.rd32 .window (rowLoadAt q) = 0)) := by
  obtain ⟨b, heq⟩ := State.ffEntry_eq hb hq
  obtain ⟨hm, h12, h8⟩ := State.publishFirst_rd32 (State.wf_mem hwf) hl hg hf (Nat.mod_lt q (by decide : 0 < 3))
  rw [rowLoadAt_half] at h12 h8
  obtain ⟨e0, e4⟩ := State.entryInForce_rd32 hm q
  refine completes_eq rfl heq ?_
  rw [State.rd32_wrB, State.rd32_wrB]
  exact ⟨e4.trans h12, fun hblk => e0.trans (h8 hblk)⟩

theorem ffEntry_later {q : Nat} {s : State} (hq : q < 6) (hb : s.build = .tile) (hwf : s.wf = true)
    (h : (s.scan (q / 3)).gap = false ∨ (s.scan (q / 3)).first.isSome = true) :
    completes (.ffEntry q) s (fun t =>
      t.rd32 .window (rowLoadAt q) = s.rd32 .window (rowLoadAt q + 8) ∧ t.rd32 .window (rowLoadAt q + 4) = s.rd32 .window (rowLoadAt q + 12) ∧
      (∀ f, f.key ≠ (R.LOP_RAIL_STATE_FF_CLIP q).key → t.rd f = s.rd f) ∧
      ∀ k, (k < Space.window.key (rowLoadAt q) ∨ Space.window.key (rowLoadAt q) + 8 ≤ k) → memGet t.mem k = memGet s.mem k) := by
  obtain ⟨b, heq⟩ := State.ffEntry_eq hb hq
  have hnone : s.publishFirst (q / 3) = s := by
    rw [State.publishFirst, if_neg]
    rcases h with h | h
    · simp [h]
    · simp [Option.isNone_eq_false_iff.2 h]
  rw [hnone] at heq
  obtain ⟨e0, e4⟩ := State.entryInForce_rd32 (State.wf_mem hwf) q
  obtain ⟨hreg, hmem⟩ := s.entryInForce_else q
  refine completes_eq rfl heq ?_
  rw [State.rd32_wrB, State.rd32_wrB]
  exact ⟨e0, e4, fun f hf => (State.rd_wrB_ne _ _ hf).trans (hreg f), hmem⟩

/-- Settles O59: each clause by its own lemma. -/
theorem chopperCycle : Obligations.ChopperCycle := by
  intro q m s hq
  refine ⟨chopOn_completes, ?_, ?_, fun v hb hl ho hh => ⟨overvoltage_stops hq hb hl ho hh, overvoltage_below ho⟩,
    fun v ho hv hl hh hi hp => ovRecover_restarts hq ho hv hl hh hi hp, ?_, ?_, ?_, fun hb hl hg hf hwf => ffEntry_first hq hb hl hg hf hwf,
    ffEntry_later hq⟩
  · intro h hp1 hp2 hv1 hv2 hh ho hlim
    exact ⟨fun hth hns hcy hcut hmoved => chopOffEnd_completes h ⟨hp1, hp2⟩ ⟨hv1, hv2⟩ hh ho hlim hth hns hcy hcut hmoved,
      chopLimit_completes h ⟨hp1, hp2⟩ ⟨hv1, hv2⟩⟩
  · intro hcy
    exact completes_eq rfl (by rw [State.chopLimit, if_pos hcy]) rfl
  · intro v hv
    exact completes_eq rfl (by rw [State.ovRecover, if_neg (by simp [hv])]) rfl
  · intro half c v hb hc hin
    exact completes_eq rfl (by rw [State.headReport, if_neg (by simp [hin])]) rfl
  · intro half c v hb hc hin
    exact ⟨headReport_kept hb hc hin, ⟨s, rfl, rfl⟩⟩

end Sys2Proof.Machine
end

section
/-! O60: the generators of Traverse. -/

namespace Sys2Proof.Machine

/-! ### One clock of a generator's arithmetic (R262, R266) -/

theorem sign_eq (i : Int) : sign i = i.sign := by
  unfold sign
  split
  · next h => exact (Int.sign_eq_neg_one_of_neg h).symm
  · split
    · next h => rw [h]; rfl
    · exact (Int.sign_eq_one_of_pos (by omega)).symm

/-- The speed that R262 asks for: braking, coming down to a lowered VMAX, or accelerating. -/
structure TravSpeed (x : TrvGen) (tgt vmax a : Nat) (v : Int) : Prop where
  brakes : travBrakes x tgt a → v = x.v - travDir x tgt * min (a : Int) x.v.natAbs
  descends : ¬travBrakes x tgt a → vmax * 16777216 < x.v.natAbs → v = x.v - travDir x tgt * min (a : Int) (x.v.natAbs - vmax * 16777216)
  cruises : ¬travBrakes x tgt a → x.v.natAbs ≤ vmax * 16777216 → v = travDir x tgt * min (x.v.natAbs + a : Int) (vmax * 16777216)

/-- A clock of a generator that does not rest at its target, by the position that its speed gives. -/
theorem trvStep_eq {x : TrvGen} {tgt vmax a : Nat} {v acc : Int} (hne : ¬(x.v = 0 ∧ travDist x tgt = 0)) (hx : x.acc < 281474976710656)
    (hv : TravSpeed x tgt vmax a v) (hacc : acc = x.acc + (v + 8388608) / 16777216) :
    trvStep x tgt vmax a =
      if acc < 0 then ⟨{ x with acc := 0, v := 0 }, true, decide (travDir x tgt * travDist x tgt < 0), true⟩
      else if 281474976710655 < acc then ⟨{ x with acc := 281474976710655, v := 0 }, true, decide (travDir x tgt * travDist x tgt < 0), true⟩
      else if (travDist x tgt).natAbs ≤ 4294967296 ∧ v.natAbs ≤ a then
        ⟨{ x with acc := tgt * 4294967296, v := 0 }, true, decide (travDir x tgt * travDist x tgt < 0), false⟩
      else ⟨{ x with acc := acc.toNat, v := v }, true, decide (travDir x tgt * travDist x tgt < 0), false⟩ := by
  have hdist : ((tgt * 4294967296 : Nat) : Int) - (x.acc : Int) = travDist x tgt := by
    rw [travDist]
    push_cast
    rfl
  have hdir : (if x.v ≠ 0 then sign x.v else sign (travDist x tgt)) = travDir x tgt := by
    rw [travDir, sign_eq, sign_eq]
    split_ifs with h <;> first | rfl | contradiction
  have hbrk : (decide (travDir x tgt * travDist x tgt < 0) ||
      decide (2 * (a : Int) * (((travDist x tgt * 16777216).natAbs : Nat) : Int) ≤ (x.v.natAbs : Int) * ((x.v.natAbs : Int) + a) ∨
        2 * (a : Int) * (((if 0 < travDir x tgt then accMax - x.acc else x.acc : Nat) : Int) * 16777216) ≤ (x.v.natAbs : Int) * ((x.v.natAbs : Int) + a))) = true ↔
      travBrakes x tgt a := by
    have hwall : ((if 0 < travDir x tgt then accMax - x.acc else x.acc : Nat) : Int) =
        if 0 < travDir x tgt then 281474976710655 - (x.acc : Int) else x.acc := by
      unfold accMax
      split <;> omega
    rw [Int.natAbs_mul, hwall, Bool.or_eq_true, decide_eq_true_iff, decide_eq_true_iff, travBrakes, travAway]
    norm_num
  have hspeed : (if (decide (travDir x tgt * travDist x tgt < 0) ||
      decide (2 * (a : Int) * (((travDist x tgt * 16777216).natAbs : Nat) : Int) ≤ (x.v.natAbs : Int) * ((x.v.natAbs : Int) + a) ∨
        2 * (a : Int) * (((if 0 < travDir x tgt then accMax - x.acc else x.acc : Nat) : Int) * 16777216) ≤ (x.v.natAbs : Int) * ((x.v.natAbs : Int) + a))) = true
      then x.v - travDir x tgt * min (a : Int) (x.v.natAbs : Int)
      else if ((vmax * 16777216 : Nat) : Int) < (x.v.natAbs : Int) then
        x.v - travDir x tgt * min (a : Int) ((x.v.natAbs : Int) - ((vmax * 16777216 : Nat) : Int))
      else travDir x tgt * min ((x.v.natAbs : Int) + a) ((vmax * 16777216 : Nat) : Int)) = v := by
    by_cases hb : travBrakes x tgt a
    · rw [if_pos (hbrk.2 hb), hv.brakes hb]
    · rw [if_neg (mt hbrk.1 hb)]
      by_cases hlim : vmax * 16777216 < x.v.natAbs
      · rw [if_pos (by omega), hv.descends hb hlim]
        push_cast
        rfl
      · rw [if_neg (by omega), hv.cruises hb (by omega)]
        push_cast
        rfl
  have harr : (travDist x tgt * 16777216).natAbs ≤ 72057594037927936 ↔ (travDist x tgt).natAbs ≤ 4294967296 := by omega
  unfold trvStep
  simp only [hdist, hdir, hspeed, ← hacc, harr, if_neg hne]
  rfl

/-- A generator at rest at its target stays there. -/
theorem trvStep_rests {x : TrvGen} {tgt : Nat} (vmax a : Nat) (hv : x.v = 0) (hx : x.acc = tgt * 4294967296) :
    trvStep x tgt vmax a = ⟨x, false, false, false⟩ := by
  unfold trvStep
  rw [if_pos ⟨hv, by rw [hx]; omega⟩]

/-! ### Registers of one generator -/

/-- The fields that a generator's motion, loss and reload may change. -/
def trvFlds (g : Nat) : List Fld :=
  [R.TRV_G_POS_P g, R.TRV_G_POS_STATE g, R.TRV_G_POS_WHY g, R.TRV_G_POS_VDESC g, R.TRV_G_VEL_V g, R.TRV_G_OVERSHOOT_PEAK g,
    R.TRV_G_OVERSHOOT_DIST g, R.TRV_G_EVT_OVERSHOOT g, R.TRV_G_EVT_LOST g]

/-- What of the state concerns a generator. -/
def genView (g : Nat) : List Fld :=
  trvFlds g ++ [R.TRV_G_TARGET_TARGET g, R.TRV_G_VMAX_VMAX g, R.TRV_G_AMAX_AMAX g, R.TRV_OUT_L_W, R.TRV_OUT_L_E, R.RUN (Blk.TRV.pg 0)]

/-- A generator's own change: its fields, and its accumulator and velocity. -/
structure GenOnly (g : Nat) (s t : State) : Prop where
  frame : sameElse s t (trvFlds g)
  others : ∀ j, j ≠ g → t.trv j = s.trv j

/-- What concerns a generator is the same. -/
structure GenSame (g : Nat) (s t : State) : Prop where
  read : ∀ f ∈ genView g, t.rd f = s.rd f
  gen : t.trv g = s.trv g

theorem GenSame.refl (g : Nat) (s : State) : GenSame g s s := ⟨fun _ _ => rfl, rfl⟩

theorem GenSame.trans {g : Nat} {s t u : State} (h : GenSame g s t) (k : GenSame g t u) : GenSame g s u :=
  ⟨fun f hf => (k.read f hf).trans (h.read f hf), k.gen.trans h.gen⟩

theorem trvFlds_key {g : Nat} {f : Fld} (hf : f ∈ trvFlds g) : 19931136 + 2048 * g ≤ f.key ∧ f.key < 19931136 + 2048 * g + 2048 := by
  simp only [trvFlds, List.mem_cons, List.not_mem_nil, or_false] at hf
  rcases hf with rfl | rfl | rfl | rfl | rfl | rfl | rfl | rfl | rfl <;>
    simp only [Fld.key, R.TRV_G_POS_P, R.TRV_G_POS_STATE, R.TRV_G_POS_WHY, R.TRV_G_POS_VDESC, R.TRV_G_VEL_V, R.TRV_G_OVERSHOOT_PEAK,
      R.TRV_G_OVERSHOOT_DIST, R.TRV_G_EVT_OVERSHOOT, R.TRV_G_EVT_LOST] <;> omega

/-- The fields that concern a generator stand in its own 64 bytes, or below those of all of them. -/
theorem genView_key {g : Nat} {f : Fld} (hf : f ∈ genView g) :
    f.key < 19931136 ∨ (19931136 + 2048 * g ≤ f.key ∧ f.key < 19931136 + 2048 * g + 2048) := by
  rcases List.mem_append.1 hf with h | h
  · exact .inr (trvFlds_key h)
  · simp only [List.mem_cons, List.not_mem_nil, or_false] at h
    rcases h with rfl | rfl | rfl | rfl | rfl | rfl <;>
      simp only [Fld.key, R.TRV_G_TARGET_TARGET, R.TRV_G_VMAX_VMAX, R.TRV_G_AMAX_AMAX, R.TRV_OUT_L_W, R.TRV_OUT_L_E, R.RUN, Blk.pg, Blk.win0] <;> omega

/-- A generator's change does not concern another. -/
theorem GenOnly.same {g j : Nat} {s t : State} (h : GenOnly j s t) (hne : g ≠ j) : GenSame g s t := by
  refine ⟨fun f hf => h.frame.read fun k hk => ?_, h.others g hne⟩
  have h1 := genView_key hf
  have h2 := trvFlds_key hk
  omega

/-- Where each generator changes only what is its own, each one's change is that of a state that is the same for it. -/
theorem forN_gens {f : Nat → State → State} (hf : ∀ j a, GenOnly j a (f j a)) {g : Nat} (hg : g < 4) (s : State) :
    ∃ a, GenSame g s a ∧ GenSame g (f g a) (forN 4 f s) := by
  have hfour : forN 4 f s = f 3 (f 2 (f 1 (f 0 s))) := rfl
  rw [hfour]
  have step {j : Nat} (hj : g ≠ j) (a : State) : GenSame g a (f j a) := (hf j a).same hj
  obtain rfl | rfl | rfl | rfl : g = 0 ∨ g = 1 ∨ g = 2 ∨ g = 3 := by omega
  · exact ⟨s, .refl _ _, ((step (by decide) _).trans (step (by decide) _)).trans (step (by decide) _)⟩
  · exact ⟨f 0 s, step (by decide) _, (step (by decide) _).trans (step (by decide) _)⟩
  · exact ⟨f 1 (f 0 s), (step (by decide) _).trans (step (by decide) _), step (by decide) _⟩
  · exact ⟨f 2 (f 1 (f 0 s)), ((step (by decide) _).trans (step (by decide) _)).trans (step (by decide) _), .refl _ _⟩

/-! ### Show, loss, load -/

/-- What a generator shows of its position. -/
theorem State.trvShow_spec (s : State) (g : Nat) (x : TrvGen) (b : Bool) :
    GenOnly g s (s.trvShow g x b) ∧ sameElse s (s.trvShow g x b) [R.TRV_G_POS_P g, R.TRV_G_POS_VDESC g, R.TRV_G_VEL_V g] ∧
      (s.trvShow g x b).trv g = x ∧ (s.trvShow g x b).rd (R.TRV_G_POS_P g) = x.acc / 4294967296 % 65536 ∧
      (s.trvShow g x b).rd (R.TRV_G_POS_VDESC g) = b2n b := by
  have hframe : sameElse s (s.trvShow g x b) [R.TRV_G_POS_P g, R.TRV_G_POS_VDESC g, R.TRV_G_VEL_V g] :=
    ((((sameElse.refl s _).of_eq rfl rfl rfl : sameElse s (s.setTrv g x) _).wr (by simp)).wrB (by simp)).wrI (by simp)
  have hkeys : (R.TRV_G_POS_P g).key ≠ (R.TRV_G_POS_VDESC g).key ∧ (R.TRV_G_POS_P g).key ≠ (R.TRV_G_VEL_V g).key ∧
      (R.TRV_G_POS_VDESC g).key ≠ (R.TRV_G_VEL_V g).key := by
    simp only [Fld.key, R.TRV_G_POS_P, R.TRV_G_POS_VDESC, R.TRV_G_VEL_V]
    omega
  refine ⟨⟨hframe.mono (by simp [trvFlds]), fun j hj => ?_⟩, hframe, State.trv_setTrv_same s g x, ?_, ?_⟩
  · exact State.trv_setTrv_ne s _ hj
  · rw [State.trvShow, State.rd_wrI_ne _ _ hkeys.2.1, State.rd_wrB_ne _ _ hkeys.1, State.rd_wr_same]
    rfl
  · rw [State.trvShow, State.rd_wrI_ne _ _ hkeys.2.2, State.rd_wrB_same _ _ _ Nat.one_pos]

theorem GenOnly.wr {g : Nat} {s t : State} (h : GenOnly g s t) {f : Fld} (v : Nat) (hf : f ∈ trvFlds g) : GenOnly g s (t.wr f v) :=
  ⟨h.frame.wr hf, h.others⟩

theorem GenOnly.count {g : Nat} {s t : State} (h : GenOnly g s t) {f : Fld} (hf : f ∈ trvFlds g) : GenOnly g s (t.count f) := h.wr _ hf

theorem GenOnly.refl (g : Nat) (s : State) : GenOnly g s s := ⟨.refl _ _, fun _ _ => rfl⟩

theorem GenOnly.trans {g : Nat} {s t u : State} (h : GenOnly g s t) (k : GenOnly g t u) : GenOnly g s u :=
  ⟨h.frame.trans k.frame, fun j hj => (k.others j hj).trans (h.others j hj)⟩

theorem State.trvLose_only (s : State) (g why : Nat) : GenOnly g s (s.trvLose g why) := by
  unfold State.trvLose
  split
  · exact .refl g s
  · exact (((s.trvShow_spec g _ false).1.wr _ (by simp [trvFlds])).wr _ (by simp [trvFlds])).count (by simp [trvFlds])

theorem State.trvLoad_only (s : State) (g : Nat) : GenOnly g s (s.trvLoad g) :=
  ((s.trvShow_spec g _ false).1.wr _ (by simp [trvFlds])).wr _ (by simp [trvFlds])

theorem pos_keys (g : Nat) : (R.TRV_G_POS_STATE g).key ≠ (R.TRV_G_POS_WHY g).key ∧ (R.TRV_G_POS_STATE g).key ≠ (R.TRV_G_EVT_LOST g).key ∧
    (R.TRV_G_POS_WHY g).key ≠ (R.TRV_G_EVT_LOST g).key ∧ (R.TRV_G_POS_P g).key ≠ (R.TRV_G_POS_STATE g).key ∧
    (R.TRV_G_POS_P g).key ≠ (R.TRV_G_POS_WHY g).key ∧ (R.TRV_G_EVT_LOST g).key ≠ (R.TRV_G_POS_WHY g).key ∧
    (R.TRV_G_EVT_LOST g).key ≠ (R.TRV_G_POS_STATE g).key := by
  simp only [Fld.key, R.TRV_G_POS_STATE, R.TRV_G_POS_WHY, R.TRV_G_EVT_LOST, R.TRV_G_POS_P]
  omega

theorem lost_keys (g : Nat) : ∀ f ∈ [R.TRV_G_POS_P g, R.TRV_G_POS_VDESC g, R.TRV_G_VEL_V g], (R.TRV_G_EVT_LOST g).key ≠ f.key := by
  simp only [List.forall_mem_cons, List.not_mem_nil, false_imp_iff, implies_true, and_true, Fld.key, R.TRV_G_EVT_LOST, R.TRV_G_POS_P,
    R.TRV_G_POS_VDESC, R.TRV_G_VEL_V]
  omega

/-- A generator that is neither OFF nor LOST becomes LOST where it stands. -/
theorem State.trvLose_spec {s : State} {g : Nat} (why : Nat) (hoff : s.genState g ≠ tsOff) (hlost : s.genState g ≠ tsLost) :
    (s.trvLose g why).genState g = tsLost ∧ (s.trvLose g why).rd (R.TRV_G_POS_WHY g) = why % 16 ∧
      (s.trvLose g why).trv g = { s.trv g with v := 0, from_ := none } ∧
      (s.trvLose g why).rd (R.TRV_G_EVT_LOST g) = min (s.rd (R.TRV_G_EVT_LOST g) + 1) 4294967295 := by
  obtain ⟨k1, k2, k3, -, -, k6, k7⟩ := pos_keys g
  obtain ⟨-, hframe, hgen, -, -⟩ := s.trvShow_spec g { s.trv g with v := 0, from_ := none } false
  unfold State.trvLose
  rw [if_neg (by simp [hoff, hlost])]
  refine ⟨?_, ?_, hgen, ?_⟩
  · rw [State.genState, State.rd_count_ne _ k2, State.rd_wr_ne _ _ k1, State.rd_wr_same]
    rfl
  · rw [State.rd_count_ne _ k3, State.rd_wr_same]
    rfl
  · rw [State.rd_count32 _ rfl, State.rd_wr_ne _ _ k6, State.rd_wr_ne _ _ k7, hframe.read (lost_keys g)]

theorem State.trv_wr (s : State) (f : Fld) (v g : Nat) : (s.wr f v).trv g = s.trv g := rfl

/-- A generator that is loaded rests at its target. -/
theorem State.trvLoad_spec (s : State) (g : Nat) :
    (s.trvLoad g).genState g = tsIdle ∧ (s.trvLoad g).rd (R.TRV_G_POS_WHY g) = 0 ∧
      (s.trvLoad g).trv g = { acc := s.rd (R.TRV_G_TARGET_TARGET g) * 4294967296, v := 0, from_ := none } ∧
      (s.trvLoad g).rd (R.TRV_G_POS_P g) = s.rd (R.TRV_G_TARGET_TARGET g) % 65536 := by
  obtain ⟨k1, -, -, k4, k5, -, -⟩ := pos_keys g
  refine ⟨?_, (State.rd_wr_same _ _ _).trans (Nat.zero_mod _), ?_, ?_⟩
  · rw [State.trvLoad, State.genState, State.rd_wr_ne _ _ k1, State.rd_wr_same]
    rfl
  · rw [State.trvLoad, State.trv_wr, State.trv_wr, (s.trvShow_spec g _ _).2.2.1]
  · rw [State.trvLoad, State.rd_wr_ne _ _ k5, State.rd_wr_ne _ _ k4, (s.trvShow_spec g _ _).2.2.2.1]
    exact congrArg (· % 65536) (Nat.mul_div_cancel _ (by decide))

/-! ### The overshoot episode (R265) -/

/-- The fields that record an overshoot. -/
def overshootFlds (g : Nat) : List Fld := [R.TRV_G_OVERSHOOT_PEAK g, R.TRV_G_OVERSHOOT_DIST g, R.TRV_G_EVT_OVERSHOOT g]

theorem State.trvEpisode_rest (s : State) (g : Nat) (old : TrvGen) (st : TrvStep) :
    sameElse s (s.trvEpisode g old st).1 (overshootFlds g) ∧ (∀ j, (s.trvEpisode g old st).1.trv j = s.trv j) ∧
      (s.trvEpisode g old st).2.v = st.gen.v ∧ (s.trvEpisode g old st).2.acc = st.gen.acc := by
  unfold State.trvEpisode
  split
  · exact ⟨.refl _ _, fun _ => rfl, rfl, rfl⟩
  · extract_lets start src x
    clear_value start
    cases start with
    | none => exact ⟨.refl _ _, fun _ => rfl, rfl, rfl⟩
    | some p =>
      dsimp only
      split
      · exact ⟨(((sameElse.refl s _).wr (by simp [overshootFlds])).wr (by simp [overshootFlds])).count (by simp [overshootFlds]), fun _ => rfl, rfl, rfl⟩
      · exact ⟨.refl _ _, fun _ => rfl, rfl, rfl⟩

theorem State.trvEpisode_bound (s : State) (g : Nat) (old : TrvGen) {st : TrvStep} (hb : st.bound = true) :
    s.trvEpisode g old st = (s, { st.gen with from_ := none }) := by
  rw [State.trvEpisode, if_pos hb]

/-- While the target lies behind and the generator moves, the episode goes on or begins. -/
theorem State.trvEpisode_runs (s : State) (g : Nat) (old : TrvGen) {st : TrvStep} (hb : st.bound = false) (ha : st.away = true) (hv : st.gen.v ≠ 0) :
    s.trvEpisode g old st = (s, { st.gen with from_ := match old.from_ with
      | some p => some p
      | none => if old.v = 0 then none else some (old.acc / 4294967296) }) := by
  unfold State.trvEpisode
  rw [if_neg (by simp [hb])]
  cases hf : old.from_ with
  | some p => simp [ha, hv]
  | none =>
    by_cases h0 : old.v = 0
    · simp [h0]
    · simp [ha, hv, h0]

/-- Where the generator comes to rest with the target behind, the episode is recorded. -/
theorem State.trvEpisode_ends (s : State) (g : Nat) {old : TrvGen} {st : TrvStep} {p : Nat} (hb : st.bound = false) (ha : st.away = true)
    (hv : st.gen.v = 0) (hf : old.from_ = some p) :
    s.trvEpisode g old st =
      (((s.wr (R.TRV_G_OVERSHOOT_PEAK g) (st.gen.acc / 4294967296)).wr (R.TRV_G_OVERSHOOT_DIST g)
        (if p ≤ st.gen.acc / 4294967296 then st.gen.acc / 4294967296 - p else p - st.gen.acc / 4294967296)).count (R.TRV_G_EVT_OVERSHOOT g),
        { st.gen with from_ := none }) := by
  unfold State.trvEpisode
  rw [if_neg (by simp [hb])]
  simp only [hf, ha, hv, if_true]

/-- With the target ahead again, the episode is forgotten. -/
theorem State.trvEpisode_forgotten (s : State) (g : Nat) (old : TrvGen) {st : TrvStep} (hb : st.bound = false) (ha : st.away = false) :
    s.trvEpisode g old st = (s, { st.gen with from_ := none }) := by
  unfold State.trvEpisode
  rw [if_neg (by simp [hb])]
  cases hf : old.from_ <;> simp [ha]

/-! ### A clock of one generator -/

/-- The step that a clock takes. -/
def State.genStep (s : State) (g : Nat) : TrvStep :=
  trvStep (s.trv g) (s.rd (R.TRV_G_TARGET_TARGET g)) (s.rd (R.TRV_G_VMAX_VMAX g)) (s.rd (R.TRV_G_AMAX_AMAX g))

/-- A generator that moves, as its registers show it, before a bound makes it LOST. -/
def State.genMoved (s : State) (g : Nat) : State :=
  let p := s.trvEpisode g (s.trv g) (s.genStep g)
  (p.1.trvShow g p.2 (decide (s.rd (R.TRV_G_VMAX_VMAX g) * 16777216 < p.2.v.natAbs))).wr (R.TRV_G_POS_STATE g)
    (if p.2.v = 0 ∧ p.2.acc = s.rd (R.TRV_G_TARGET_TARGET g) * 4294967296 then tsIdle else tsMoving)

theorem State.trvClock_eq {s : State} {g : Nat} (hst : s.genState g = tsIdle ∨ s.genState g = tsMoving) :
    s.trvClock g = if (s.genStep g).moving then (if (s.genStep g).bound then (s.genMoved g).trvLose g twBound else s.genMoved g)
      else s.wr (R.TRV_G_POS_STATE g) tsIdle := by
  have hgo : (!(decide (s.genState g = tsIdle) || decide (s.genState g = tsMoving))) = false := by
    rcases hst with h | h <;> simp [h]
  unfold State.trvClock
  rw [hgo, if_neg Bool.false_ne_true]
  change (if (!(s.genStep g).moving) = true then _ else _) = _
  cases (s.genStep g).moving with
  | false => rfl
  | true =>
    simp only [State.genMoved, decide_eq_true_eq]
    rfl

theorem State.genMoved_only (s : State) (g : Nat) : GenOnly g s (s.genMoved g) := by
  obtain ⟨hframe, hgen, -, -⟩ := s.trvEpisode_rest g (s.trv g) (s.genStep g)
  have hep : GenOnly g s (s.trvEpisode g (s.trv g) (s.genStep g)).1 := ⟨hframe.mono (by simp [overshootFlds, trvFlds]), fun j _ => hgen j⟩
  exact (hep.trans (State.trvShow_spec _ g _ _).1).wr _ (by simp [trvFlds])

theorem State.trvClock_only (s : State) (g : Nat) : GenOnly g s (s.trvClock g) := by
  by_cases hst : s.genState g = tsIdle ∨ s.genState g = tsMoving
  · rw [State.trvClock_eq hst]
    split
    · split
      · exact (s.genMoved_only g).trans (State.trvLose_only _ g _)
      · exact s.genMoved_only g
    · exact (GenOnly.refl g s).wr _ (by simp [trvFlds])
  · have hstop : (!(decide (s.genState g = tsIdle) || decide (s.genState g = tsMoving))) = true := by simpa using hst
    rw [State.trvClock, if_pos hstop]
    exact .refl g s

/-- What a generator that moves shows. -/
theorem State.genMoved_spec (s : State) (g : Nat) :
    let p := s.trvEpisode g (s.trv g) (s.genStep g)
    (s.genMoved g).trv g = p.2 ∧
      (s.genMoved g).genState g = (if p.2.v = 0 ∧ p.2.acc = s.rd (R.TRV_G_TARGET_TARGET g) * 4294967296 then tsIdle else tsMoving) ∧
      (s.genMoved g).rd (R.TRV_G_POS_P g) = p.2.acc / 4294967296 % 65536 ∧
      (s.genMoved g).rd (R.TRV_G_POS_VDESC g) = (if s.rd (R.TRV_G_VMAX_VMAX g) * 16777216 < p.2.v.natAbs then 1 else 0) ∧
      (s.genMoved g).rd (R.TRV_G_EVT_LOST g) = s.rd (R.TRV_G_EVT_LOST g) ∧
      ∀ f ∈ overshootFlds g, (s.genMoved g).rd f = p.1.rd f := by
  obtain ⟨hep, -, -, -⟩ := s.trvEpisode_rest g (s.trv g) (s.genStep g)
  unfold State.genMoved
  extract_lets p
  have hep' : sameElse s p.1 (overshootFlds g) := hep
  clear_value p
  have hkeys : (R.TRV_G_POS_P g).key ≠ (R.TRV_G_POS_STATE g).key ∧ (R.TRV_G_POS_VDESC g).key ≠ (R.TRV_G_POS_STATE g).key ∧
      (∀ k ∈ overshootFlds g, (R.TRV_G_EVT_LOST g).key ≠ k.key) ∧
      ∀ f ∈ R.TRV_G_EVT_LOST g :: overshootFlds g, ∀ k ∈ [R.TRV_G_POS_STATE g, R.TRV_G_POS_P g, R.TRV_G_POS_VDESC g, R.TRV_G_VEL_V g], f.key ≠ k.key := by
    simp only [overshootFlds, List.forall_mem_cons, List.not_mem_nil, false_imp_iff, implies_true, and_true, Fld.key, R.TRV_G_EVT_LOST, R.TRV_G_POS_P,
      R.TRV_G_POS_VDESC, R.TRV_G_VEL_V, R.TRV_G_POS_STATE, R.TRV_G_OVERSHOOT_PEAK, R.TRV_G_OVERSHOOT_DIST, R.TRV_G_EVT_OVERSHOOT]
    omega
  obtain ⟨k1, k2, k3, k4⟩ := hkeys
  obtain ⟨-, hshow, hgen, hp, hvd⟩ := p.1.trvShow_spec g p.2 (decide (s.rd (R.TRV_G_VMAX_VMAX g) * 16777216 < p.2.v.natAbs))
  have hkept {f : Fld} (hf : f ∈ R.TRV_G_EVT_LOST g :: overshootFlds g) (v : Nat) :
      ((p.1.trvShow g p.2 (decide (s.rd (R.TRV_G_VMAX_VMAX g) * 16777216 < p.2.v.natAbs))).wr (R.TRV_G_POS_STATE g) v).rd f = p.1.rd f := by
    have := List.forall_mem_cons.1 (k4 f hf)
    rw [State.rd_wr_ne _ _ this.1, hshow.read this.2]
  refine ⟨?_, ?_, ?_, ?_, ?_, fun f hf => hkept (List.mem_cons_of_mem _ hf) _⟩
  · rw [State.trv_wr, hgen]
  · rw [State.genState, State.rd_wr_same]
    split <;> rfl
  · rw [State.rd_wr_ne _ _ k1, hp]
  · rw [State.rd_wr_ne _ _ k2, hvd]
    simp only [b2n, decide_eq_true_eq]
  · rw [hkept List.mem_cons_self, hep'.read k3]

/-! ### TRAVERSE_CLOCK -/

/-- What the clock does to one generator. -/
def State.genTick (dup : List Nat) (g : Nat) (s : State) : State := if dup.contains g then s.trvLose g twDup else s.trvClock g

theorem State.genTick_only (dup : List Nat) (g : Nat) (s : State) : GenOnly g s (s.genTick dup g) := by
  unfold State.genTick
  split
  · exact s.trvLose_only g _
  · exact s.trvClock_only g

theorem State.trvTick_eq {s : State} (dup : List Nat) (hp : s.parked 6 = false) (hr : s.run .TRV 0 = runRunning) :
    s.trvTick dup = forN 4 (fun g a => a.genTick dup g) s.trvOut := by
  have hrun : s.trvOut.run .TRV 0 = runRunning := by
    rw [State.run, State.trvOut, State.rd_wr_ne _ _ (by decide), State.rd_wr_ne _ _ (by decide)]
    exact hr
  unfold State.trvTick
  rw [hp, if_neg Bool.false_ne_true]
  extract_lets s1
  rw [if_neg (not_not.2 hr)]
  rfl

theorem trvOut_same (g : Nat) (s : State) (f : Fld) (hf : f ∈ trvFlds g ++ [R.TRV_G_TARGET_TARGET g, R.TRV_G_VMAX_VMAX g, R.TRV_G_AMAX_AMAX g]) :
    s.trvOut.rd f = s.rd f := by
  have hkey : 19931136 ≤ f.key := by
    rcases List.mem_append.1 hf with h | h
    · have := trvFlds_key h
      omega
    · simp only [List.mem_cons, List.not_mem_nil, or_false] at h
      rcases h with rfl | rfl | rfl <;> simp only [Fld.key, R.TRV_G_TARGET_TARGET, R.TRV_G_VMAX_VMAX, R.TRV_G_AMAX_AMAX] <;> omega
  rw [State.trvOut, State.rd_wr_ne, State.rd_wr_ne] <;> simp only [Fld.key, R.TRV_OUT_L_W, R.TRV_OUT_L_E] at hkey ⊢ <;> omega

/-- A clock of a generator is that of a state which is the same for it: what holds of it there holds behind TRAVERSE_CLOCK. -/
theorem traverseClock_gen {g : Nat} (hg : g < 4) {s : State} {dup : List Nat} (hp : s.parked 6 = false) (hr : s.run .TRV 0 = runRunning) :
    ∃ a : State, (∀ f ∈ trvFlds g ++ [R.TRV_G_TARGET_TARGET g, R.TRV_G_VMAX_VMAX g, R.TRV_G_AMAX_AMAX g], a.rd f = s.rd f) ∧ a.trv g = s.trv g ∧
      GenSame g (a.genTick dup g) (s.trvTick dup) := by
  obtain ⟨a, ha, ht⟩ := forN_gens (f := fun g a => a.genTick dup g) (fun j a => a.genTick_only dup j) hg s.trvOut
  refine ⟨a, fun f hf => ?_, ha.gen, by rw [State.trvTick_eq dup hp hr]; exact ht⟩
  rw [ha.read f, trvOut_same g s f hf]
  simp only [genView, List.mem_append, List.mem_cons] at hf ⊢
  tauto

theorem traverseClock_scales {s : State} {dup : List Nat} (hp : s.parked 6 = false) (hr : s.run .TRV 0 = runRunning) :
    completes (.traverseClock dup) s (fun t => t.rd R.TRV_OUT_L_W = s.trvScale.1 % 65536 ∧ t.rd R.TRV_OUT_L_E = s.trvScale.2 % 65536) := by
  refine completes_eq rfl (State.trvTick_eq dup hp hr) ?_
  have hkept (f : Fld) (hf : f ∈ genView 4) (hlt : f.key < 19931136) : (forN 4 (fun g a => a.genTick dup g) s.trvOut).rd f = s.trvOut.rd f := by
    refine forN_inv (fun a : State => a.rd f = s.trvOut.rd f) rfl fun j a h => Eq.trans ((a.genTick_only dup j).frame.read fun k hk => ?_) h
    have := trvFlds_key hk
    omega
  rw [hkept R.TRV_OUT_L_W (by simp [genView]) (by decide), hkept R.TRV_OUT_L_E (by simp [genView]) (by decide), State.trvOut]
  exact ⟨(State.rd_wr_ne _ _ (by decide)).trans (State.rd_wr_same _ _ _), State.rd_wr_same _ _ _⟩

theorem GenSame.shown {g : Nat} {s t : State} (h : GenSame g s t) :
    t.genState g = s.genState g ∧ t.rd (R.TRV_G_POS_WHY g) = s.rd (R.TRV_G_POS_WHY g) ∧ t.rd (R.TRV_G_POS_P g) = s.rd (R.TRV_G_POS_P g) ∧
      t.rd (R.TRV_G_POS_VDESC g) = s.rd (R.TRV_G_POS_VDESC g) ∧ t.rd (R.TRV_G_EVT_LOST g) = s.rd (R.TRV_G_EVT_LOST g) ∧
      ∀ f ∈ overshootFlds g, t.rd f = s.rd f := by
  refine ⟨h.read _ ?_, h.read _ ?_, h.read _ ?_, h.read _ ?_, h.read _ ?_, fun f hf => h.read f ?_⟩
  all_goals
    simp only [overshootFlds, genView, trvFlds, List.cons_append, List.nil_append, List.mem_cons, List.not_mem_nil, or_false] at *
    tauto

/-- Behind TRAVERSE_CLOCK, what concerns a generator is what its own clock makes of it. -/
theorem traverseClock_own {g : Nat} (hg : g < 4) {s : State} {dup : List Nat} (hp : s.parked 6 = false) (hr : s.run .TRV 0 = runRunning) :
    ∃ a : State, GenSame g (a.genTick dup g) (s.trvTick dup) ∧ a.genState g = s.genState g ∧ a.trv g = s.trv g ∧
      a.rd (R.TRV_G_TARGET_TARGET g) = s.rd (R.TRV_G_TARGET_TARGET g) ∧ a.rd (R.TRV_G_VMAX_VMAX g) = s.rd (R.TRV_G_VMAX_VMAX g) ∧
      a.rd (R.TRV_G_AMAX_AMAX g) = s.rd (R.TRV_G_AMAX_AMAX g) ∧ a.rd (R.TRV_G_EVT_LOST g) = s.rd (R.TRV_G_EVT_LOST g) ∧
      a.rd (R.TRV_G_EVT_OVERSHOOT g) = s.rd (R.TRV_G_EVT_OVERSHOOT g) := by
  obtain ⟨a, ha, hgen, ht⟩ := traverseClock_gen hg (dup := dup) hp hr
  exact ⟨a, ht, ha _ (by simp [trvFlds]), hgen, ha _ (by simp), ha _ (by simp), ha _ (by simp), ha _ (by simp [trvFlds]), ha _ (by simp [trvFlds])⟩

theorem traverseClock_dup {g : Nat} (hg : g < 4) {s : State} {dup : List Nat} (hp : s.parked 6 = false) (hr : s.run .TRV 0 = runRunning)
    (hd : g ∈ dup) (hoff : s.genState g ≠ tsOff) (hlost : s.genState g ≠ tsLost) :
    completes (.traverseClock dup) s (fun t =>
      t.genState g = tsLost ∧ t.rd (R.TRV_G_POS_WHY g) = twDup ∧ (t.trv g).v = 0 ∧ (t.trv g).acc = (s.trv g).acc ∧
      t.rd (R.TRV_G_EVT_LOST g) = min (s.rd (R.TRV_G_EVT_LOST g) + 1) 4294967295) := by
  obtain ⟨a, ht, hst, hgen, -, -, -, hcnt, -⟩ := traverseClock_own hg (dup := dup) hp hr
  have htick : a.genTick dup g = a.trvLose g twDup := by rw [State.genTick, if_pos (by simpa using hd)]
  rw [htick] at ht
  obtain ⟨t1, t2, -, -, t5, -⟩ := ht.shown
  obtain ⟨l1, l2, l3, l4⟩ := State.trvLose_spec twDup (hst ▸ hoff) (hst ▸ hlost)
  refine ⟨s.trvTick dup, rfl, ?_⟩
  exact ⟨t1.trans l1, t2.trans l2, by rw [ht.gen, l3], by rw [ht.gen, l3, hgen], by rw [t5, l4, hcnt]⟩

theorem traverseClock_rests {g : Nat} (hg : g < 4) {s : State} {dup : List Nat} (hp : s.parked 6 = false) (hr : s.run .TRV 0 = runRunning)
    (hd : g ∉ dup) (hst : s.genState g = tsIdle ∨ s.genState g = tsMoving) (hv : (s.trv g).v = 0)
    (hacc : (s.trv g).acc = s.rd (R.TRV_G_TARGET_TARGET g) * 4294967296) :
    completes (.traverseClock dup) s (fun t => t.genState g = tsIdle ∧ t.trv g = s.trv g) := by
  obtain ⟨a, ht, hast, hgen, htgt, -, -, -, -⟩ := traverseClock_own hg (dup := dup) hp hr
  have hstep : a.genStep g = ⟨a.trv g, false, false, false⟩ := trvStep_rests _ _ (by rw [hgen, hv]) (by rw [hgen, hacc, htgt])
  have htick : a.genTick dup g = a.wr (R.TRV_G_POS_STATE g) tsIdle := by
    rw [State.genTick, if_neg (by simpa using hd), State.trvClock_eq (hast ▸ hst), hstep]
    rfl
  rw [htick] at ht
  obtain ⟨t1, -⟩ := ht.shown
  refine ⟨s.trvTick dup, rfl, ?_⟩
  exact ⟨t1.trans (State.rd_wr_same _ _ _), by rw [ht.gen, State.trv_wr, hgen]⟩

section Moves

variable {g : Nat} {s : State} {dup : List Nat} {x : TrvGen} {tgt vmax a : Nat} {v acc : Int}

/-- The generator that a clock finds moving: what R262 asks for is `v`, and with it the position is `acc`. -/
structure GenMoves (g : Nat) (s : State) (dup : List Nat) (x : TrvGen) (tgt vmax a : Nat) (v acc : Int) : Prop where
  gen : g < 4
  up : s.parked 6 = false
  run : s.run .TRV 0 = runRunning
  same : g ∉ dup
  state : s.genState g = tsIdle ∨ s.genState g = tsMoving
  x_eq : x = s.trv g
  tgt_eq : tgt = s.rd (R.TRV_G_TARGET_TARGET g)
  vmax_eq : vmax = s.rd (R.TRV_G_VMAX_VMAX g)
  amax_eq : a = s.rd (R.TRV_G_AMAX_AMAX g)
  moves : ¬(x.v = 0 ∧ travDist x tgt = 0)
  inside : x.acc < 281474976710656
  target : tgt < 65536
  speed : TravSpeed x tgt vmax a v
  place : acc = x.acc + (v + 8388608) / 16777216

/-- The clock of a generator that does not rest at its target (R262 to R266). -/
theorem GenMoves.clock (h : GenMoves g s dup x tgt vmax a v acc) :
    ∃ (u : State) (st : TrvStep), GenSame g (if st.bound then (u.genMoved g).trvLose g twBound else u.genMoved g) (s.trvTick dup) ∧ u.genStep g = st ∧
      u.trv g = x ∧ u.rd (R.TRV_G_TARGET_TARGET g) = tgt ∧ u.rd (R.TRV_G_VMAX_VMAX g) = vmax ∧ 
      u.rd (R.TRV_G_EVT_LOST g) = s.rd (R.TRV_G_EVT_LOST g) ∧ u.rd (R.TRV_G_EVT_OVERSHOOT g) = s.rd (R.TRV_G_EVT_OVERSHOOT g) ∧
      st = if acc < 0 then ⟨{ x with acc := 0, v := 0 }, true, decide (travDir x tgt * travDist x tgt < 0), true⟩
        else if 281474976710655 < acc then ⟨{ x with acc := 281474976710655, v := 0 }, true, decide (travDir x tgt * travDist x tgt < 0), true⟩
        else if (travDist x tgt).natAbs ≤ 4294967296 ∧ v.natAbs ≤ a then
          ⟨{ x with acc := tgt * 4294967296, v := 0 }, true, decide (travDir x tgt * travDist x tgt < 0), false⟩
        else ⟨{ x with acc := acc.toNat, v := v }, true, decide (travDir x tgt * travDist x tgt < 0), false⟩ := by
  obtain ⟨u, ht, hust, hgen, hutgt, huv, hua, hcnt, hover⟩ := traverseClock_own h.gen (dup := dup) h.up h.run
  have hstep := trvStep_eq h.moves h.inside h.speed h.place
  have hgs : u.genStep g = trvStep x tgt vmax a := by rw [State.genStep, hgen, hutgt, huv, hua, h.x_eq, h.tgt_eq, h.vmax_eq, h.amax_eq]
  have hmoving : (trvStep x tgt vmax a).moving = true := by
    rw [hstep]
    split_ifs <;> rfl
  refine ⟨u, trvStep x tgt vmax a, ?_, hgs, hgen.trans h.x_eq.symm, hutgt.trans h.tgt_eq.symm, huv.trans h.vmax_eq.symm, hcnt, hover, hstep⟩
  rw [State.genTick, if_neg (by simpa using h.same), State.trvClock_eq (hust ▸ h.state), hgs, if_pos hmoving] at ht
  exact ht

/-- An add beyond an end of the range. -/
theorem GenMoves.bound (h : GenMoves g s dup x tgt vmax a v acc) (hout : acc < 0 ∨ 281474976710655 < acc) :
    completes (.traverseClock dup) s (fun t =>
      t.genState g = tsLost ∧ t.rd (R.TRV_G_POS_WHY g) = twBound ∧ (t.trv g).v = 0 ∧
      (t.trv g).acc = (if acc < 0 then 0 else 281474976710655) ∧
      t.rd (R.TRV_G_EVT_LOST g) = min (s.rd (R.TRV_G_EVT_LOST g) + 1) 4294967295) := by
  obtain ⟨u, st, ht, hst, -, -, -, hcnt, -, hstep⟩ := h.clock
  have hb : st.bound = true ∧ st.gen.acc = if acc < 0 then 0 else 281474976710655 := by
    rw [hstep]
    by_cases h0 : acc < 0
    · simp [h0]
    · rw [if_neg h0, if_pos (by omega), if_neg h0]
      exact ⟨rfl, rfl⟩
  obtain ⟨hbound, hgacc⟩ := hb
  rw [if_pos hbound] at ht
  obtain ⟨hmgen, hmstate, -, -, hmcnt, -⟩ := u.genMoved_spec g
  rw [hst, State.trvEpisode_bound _ _ _ hbound] at hmgen hmstate
  have hlive : (u.genMoved g).genState g ≠ tsOff ∧ (u.genMoved g).genState g ≠ tsLost := by
    rw [hmstate]
    split <;> decide
  obtain ⟨l1, l2, l3, l4⟩ := State.trvLose_spec twBound hlive.1 hlive.2
  obtain ⟨t1, t2, -, -, t5, -⟩ := ht.shown
  refine ⟨s.trvTick dup, rfl, t1.trans l1, t2.trans l2, by rw [ht.gen, l3], ?_, by rw [t5, l4, hmcnt, hcnt]⟩
  rw [ht.gen, l3, hmgen, ← hgacc]

/-- The arrival. -/
theorem GenMoves.arrives (h : GenMoves g s dup x tgt vmax a v acc) (h0 : 0 ≤ acc) (h1 : acc ≤ 281474976710655)
    (hnear : (travDist x tgt).natAbs ≤ 4294967296) (hslow : v.natAbs ≤ a) :
    completes (.traverseClock dup) s (fun t =>
      t.genState g = tsIdle ∧ (t.trv g).v = 0 ∧ (t.trv g).acc = tgt * 4294967296 ∧ t.rd (R.TRV_G_POS_P g) = tgt) := by
  obtain ⟨u, st, ht, hst, -, hut, -, -, -, hstep⟩ := h.clock
  rw [if_neg (by omega), if_neg (by omega), if_pos ⟨hnear, hslow⟩] at hstep
  obtain ⟨hmgen, hmstate, hmp, -, -, -⟩ := u.genMoved_spec g
  obtain ⟨-, -, hev, hea⟩ := u.trvEpisode_rest g (u.trv g) (u.genStep g)
  rw [hst, hstep] at hev hea
  rw [hstep, if_neg Bool.false_ne_true] at ht
  obtain ⟨t1, -, t3, -, -, -⟩ := ht.shown
  rw [hst, hstep] at hmgen hmstate hmp
  rw [hev, hea, hut, if_pos ⟨rfl, rfl⟩] at hmstate
  have htgt := h.target
  refine ⟨s.trvTick dup, rfl, t1.trans hmstate, by rw [ht.gen, hmgen, hev], by rw [ht.gen, hmgen, hea], ?_⟩
  rw [t3, hmp, hea, Nat.mul_div_cancel _ (by decide), Nat.mod_eq_of_lt htgt]

theorem travDir_cases (hne : ¬(x.v = 0 ∧ travDist x tgt = 0)) : (travDir x tgt = 1 ∧ 0 ≤ x.v) ∨ (travDir x tgt = -1 ∧ x.v ≤ 0) := by
  unfold travDir
  split
  · next h0 =>
    rcases lt_trichotomy (travDist x tgt) 0 with h | h | h
    · exact .inr ⟨Int.sign_eq_neg_one_of_neg h, by omega⟩
    · exact absurd ⟨h0, h⟩ hne
    · exact .inl ⟨Int.sign_eq_one_of_pos h, by omega⟩
  · next h0 =>
    rcases lt_trichotomy x.v 0 with h | h | h
    · exact .inr ⟨Int.sign_eq_neg_one_of_neg h, by omega⟩
    · exact absurd h h0
    · exact .inl ⟨Int.sign_eq_one_of_pos h, by omega⟩

/-- The speed changes by AMAX at most, and stays within VMAX or what it was. -/
theorem TravSpeed.limits (h : TravSpeed x tgt vmax a v) (hne : ¬(x.v = 0 ∧ travDist x tgt = 0)) :
    (v.natAbs : Int) - x.v.natAbs ≤ a ∧ (x.v.natAbs : Int) - v.natAbs ≤ a ∧ v.natAbs ≤ max x.v.natAbs (vmax * 16777216) := by
  by_cases hb : travBrakes x tgt a
  · have := h.brakes hb
    rcases travDir_cases hne with ⟨hd, hs⟩ | ⟨hd, hs⟩ <;> rw [hd] at this <;> omega
  · by_cases hlim : vmax * 16777216 < x.v.natAbs
    · have := h.descends hb hlim
      rcases travDir_cases hne with ⟨hd, hs⟩ | ⟨hd, hs⟩ <;> rw [hd] at this <;> omega
    · have := h.cruises hb (by omega)
      rcases travDir_cases hne with ⟨hd, hs⟩ | ⟨hd, hs⟩ <;> rw [hd] at this <;> omega

/-- A clock that neither arrives nor leaves the range. -/
theorem GenMoves.goes (h : GenMoves g s dup x tgt vmax a v acc) (h0 : 0 ≤ acc) (h1 : acc ≤ 281474976710655)
    (hfar : 4294967296 < (travDist x tgt).natAbs ∨ a < v.natAbs) :
    completes (.traverseClock dup) s (fun t =>
      (t.trv g).v = v ∧ ((t.trv g).acc : Int) = acc ∧ t.rd (R.TRV_G_POS_P g) = (t.trv g).acc / 4294967296 ∧
      t.genState g = (if v = 0 ∧ acc = tgt * 4294967296 then tsIdle else tsMoving) ∧
      ((t.trv g).v.natAbs : Int) - x.v.natAbs ≤ a ∧ (x.v.natAbs : Int) - (t.trv g).v.natAbs ≤ a ∧
      (t.trv g).v.natAbs ≤ max x.v.natAbs (vmax * 16777216) ∧
      t.rd (R.TRV_G_POS_VDESC g) = (if vmax * 16777216 < v.natAbs then 1 else 0) ∧
      (travAway x tgt → v ≠ 0 →
        (t.trv g).from_ = (match x.from_ with | some p => some p | none => if x.v = 0 then none else some (x.acc / 4294967296)) ∧
        t.rd (R.TRV_G_EVT_OVERSHOOT g) = s.rd (R.TRV_G_EVT_OVERSHOOT g)) ∧
      (∀ p, travAway x tgt → v = 0 → x.from_ = some p → p < 65536 →
        (t.trv g).from_ = none ∧ t.rd (R.TRV_G_OVERSHOOT_PEAK g) = (t.trv g).acc / 4294967296 ∧
        t.rd (R.TRV_G_OVERSHOOT_DIST g) = ((((t.trv g).acc / 4294967296 : Nat) : Int) - p).natAbs ∧
        t.rd (R.TRV_G_EVT_OVERSHOOT g) = min (s.rd (R.TRV_G_EVT_OVERSHOOT g) + 1) 4294967295) ∧
      (¬travAway x tgt →
        (t.trv g).from_ = none ∧ t.rd (R.TRV_G_EVT_OVERSHOOT g) = s.rd (R.TRV_G_EVT_OVERSHOOT g))) := by
  obtain ⟨u, st, ht, hst, hux, hut, huv, -, hover, hstep⟩ := h.clock
  rw [if_neg (by omega), if_neg (by omega), if_neg (by omega)] at hstep
  obtain ⟨hmgen, hmstate, hmp, hmvd, -, hmo⟩ := u.genMoved_spec g
  obtain ⟨-, -, hev, hea⟩ := u.trvEpisode_rest g (u.trv g) (u.genStep g)
  have hb : st.bound = false := by rw [hstep]
  have hsv : st.gen.v = v := by rw [hstep]
  have hsa : st.gen.acc = acc.toNat := by rw [hstep]
  have hsw : st.away = decide (travDir x tgt * travDist x tgt < 0) := by rw [hstep]
  clear hstep
  rw [hst, hsv] at hev
  rw [hst, hsa] at hea
  rw [hb, if_neg Bool.false_ne_true] at ht
  obtain ⟨t1, -, t3, t4, -, t6⟩ := ht.shown
  rw [hst] at hmgen hmstate hmp hmvd hmo
  rw [hux] at hev hea hmgen hmstate hmp hmvd hmo
  have htv : ((s.trvTick dup).trv g).v = v := by rw [ht.gen, hmgen, hev]
  have hta : ((s.trvTick dup).trv g).acc = acc.toNat := by rw [ht.gen, hmgen, hea]
  have hover' : (s.trvTick dup).rd (R.TRV_G_EVT_OVERSHOOT g) = (u.trvEpisode g x st).1.rd (R.TRV_G_EVT_OVERSHOOT g) :=
    (t6 _ (by simp [overshootFlds])).trans (hmo _ (by simp [overshootFlds]))
  obtain ⟨hl1, hl2, hl3⟩ := h.speed.limits h.moves
  refine ⟨s.trvTick dup, rfl, htv, by omega, ?_, ?_, by rw [htv]; exact hl1, by rw [htv]; exact hl2, by rw [htv]; exact hl3, ?_, fun haway hv0 => ?_,
    fun p haway hv0 hp hlt => ?_, fun haway => ?_⟩
  · rw [t3, hmp, hea, hta]
    omega
  · rw [t1, hmstate, hev, hea, hut]
    exact if_congr (by omega) rfl rfl
  · rw [t4, hmvd, hev, huv]
  · have hep := u.trvEpisode_runs g x hb (by rw [hsw]; exact decide_eq_true haway) (by rw [hsv]; exact hv0)
    refine ⟨?_, by rw [hover', hep, hover]⟩
    rw [ht.gen, hmgen, hep]
  · have hep := u.trvEpisode_ends g hb (by rw [hsw]; exact decide_eq_true haway) (by rw [hsv]; exact hv0) hp
    have hkeys : (R.TRV_G_OVERSHOOT_PEAK g).key ≠ (R.TRV_G_OVERSHOOT_DIST g).key ∧ (R.TRV_G_OVERSHOOT_PEAK g).key ≠ (R.TRV_G_EVT_OVERSHOOT g).key ∧
        (R.TRV_G_OVERSHOOT_DIST g).key ≠ (R.TRV_G_EVT_OVERSHOOT g).key ∧ (R.TRV_G_EVT_OVERSHOOT g).key ≠ (R.TRV_G_OVERSHOOT_DIST g).key ∧
        (R.TRV_G_EVT_OVERSHOOT g).key ≠ (R.TRV_G_OVERSHOOT_PEAK g).key := by
      simp only [Fld.key, R.TRV_G_OVERSHOOT_PEAK, R.TRV_G_OVERSHOOT_DIST, R.TRV_G_EVT_OVERSHOOT]
      omega
    obtain ⟨k1, k2, k3, k4, k5⟩ := hkeys
    refine ⟨by rw [ht.gen, hmgen, hep], ?_, ?_, ?_⟩
    · rw [t6 _ (by simp [overshootFlds]), hmo _ (by simp [overshootFlds]), hep, State.rd_count_ne _ k2, State.rd_wr_ne _ _ k1, State.rd_wr_same, hsa, hta]
      change _ % 2 ^ 16 = _
      omega
    · rw [t6 _ (by simp [overshootFlds]), hmo _ (by simp [overshootFlds]), hep, State.rd_count_ne _ k3, State.rd_wr_same, hsa, hta]
      change _ % 2 ^ 16 = _
      split <;> omega
    · rw [hover', hep, State.rd_count32 _ rfl, State.rd_wr_ne _ _ k4, State.rd_wr_ne _ _ k5, hover]
  · have hep := u.trvEpisode_forgotten g x hb (by rw [hsw]; exact decide_eq_false haway)
    exact ⟨by rw [ht.gen, hmgen, hep], by rw [hover', hep, hover]⟩

end Moves

/-- A generator at rest that has its target more than one step ahead begins to move (R262). -/
theorem traverseClock_starts {g : Nat} (hg : g < 4) {s : State} {dup : List Nat} (hp : s.parked 6 = false) (hr : s.run .TRV 0 = runRunning)
    (hd : g ∉ dup) (hst : s.genState g = tsIdle ∨ s.genState g = tsMoving) (hv : (s.trv g).v = 0)
    (hfar : (s.trv g).acc + 4294967296 < s.rd (R.TRV_G_TARGET_TARGET g) * 4294967296) (ht : s.rd (R.TRV_G_TARGET_TARGET g) < 65536)
    (ha1 : 1 ≤ s.rd (R.TRV_G_AMAX_AMAX g)) (ha2 : s.rd (R.TRV_G_AMAX_AMAX g) < 4294967296) :
    completes (.traverseClock dup) s (fun t =>
      t.genState g = tsMoving ∧ (t.trv g).v = min (s.rd (R.TRV_G_AMAX_AMAX g)) (s.rd (R.TRV_G_VMAX_VMAX g) * 16777216) ∧
      ((t.trv g).acc : Int) = (s.trv g).acc + ((t.trv g).v + 8388608) / 16777216 ∧
      t.rd (R.TRV_G_POS_P g) = (t.trv g).acc / 4294967296) := by
  generalize hx : s.trv g = x at *
  generalize htgt : s.rd (R.TRV_G_TARGET_TARGET g) = tgt at *
  generalize ham : s.rd (R.TRV_G_AMAX_AMAX g) = a at *
  generalize hvm : s.rd (R.TRV_G_VMAX_VMAX g) = vmax at *
  have hdist : 4294967296 < travDist x tgt := by
    unfold travDist
    omega
  have hdir : travDir x tgt = 1 := by
    rw [travDir, if_pos hv]
    exact Int.sign_eq_one_of_pos (by omega)
  have hfree : ¬travBrakes x tgt a := by
    have hpos (w : Int) (hw : 0 < w) : ¬2 * (a : Int) * (w * 16777216) ≤ 0 := by
      have : 0 < (a : Int) := by omega
      have := Int.mul_pos (Int.mul_pos (by decide : (0 : Int) < 2) this) (Int.mul_pos hw (by decide : (0 : Int) < 16777216))
      omega
    rw [travBrakes, travAway, hdir, hv, if_pos (by decide)]
    simp only [Int.natAbs_zero, Int.natCast_zero, zero_mul, not_or]
    exact ⟨by omega, hpos _ (by omega), hpos _ (by omega)⟩
  have hspeed : TravSpeed x tgt vmax a (min (a : Int) ((vmax * 16777216 : Nat) : Int)) := by
    refine ⟨fun h => absurd h hfree, fun _ h => ?_, fun _ _ => ?_⟩
    · rw [hv] at h
      simp at h
    · rw [hdir, hv]
      push_cast
      simp
  have hm : GenMoves g s dup x tgt vmax a (min (a : Int) ((vmax * 16777216 : Nat) : Int))
      (x.acc + (min (a : Int) ((vmax * 16777216 : Nat) : Int) + 8388608) / 16777216) :=
    ⟨hg, hp, hr, hd, hst, hx.symm, htgt.symm, hvm.symm, ham.symm, by omega, by omega, ht, hspeed, rfl⟩
  obtain ⟨t, hexec, hgv, hga, hgp, hgs, -⟩ := hm.goes (by omega) (by omega) (.inl (by omega))
  refine ⟨t, hexec, ?_, ?_, ?_, hgp⟩
  · rw [hgs, if_neg (by omega)]
  · rw [hgv]
    push_cast
    rfl
  · rw [hga, hgv]

/-! ### STOP and RELOAD (R268, R269) -/

/-- One generator's part of a write of TRV_CMD. -/
def trvCmdStep (stop reload g : Nat) (a : State × List Nat) : State × List Nat :=
  let st := bitOf stop g
  let rl := bitOf reload g
  if st then
    let live := a.1.genState g ≠ tsOff && a.1.genState g ≠ tsLost
    let s1 := if live then a.1.trvLose g twStop else a.1
    (s1, if rl then a.2 ++ [17] else a.2)
  else if rl then
    if a.1.run .TRV 0 ≠ runRunning then (a.1, a.2 ++ [19])
    else if a.1.genState g ≠ tsLost then (a.1, a.2 ++ [16])
    else (a.1.trvLoad g, a.2)
  else a

theorem State.trvCmd_eq (s : State) (stop reload : Nat) : s.trvCmd stop reload = forN 4 (trvCmdStep stop reload) (s, []) := rfl

/-- What STOP does to a generator. -/
def State.genStop (stop g : Nat) (s : State) : State := if bitOf stop g then s.trvLose g twStop else s

/-- What RELOAD does to a generator while TRV runs. -/
def State.genReload (reload g : Nat) (s : State) : State := if bitOf reload g ∧ s.genState g = tsLost then s.trvLoad g else s

theorem State.genStop_only (stop g : Nat) (s : State) : GenOnly g s (s.genStop stop g) := by
  unfold State.genStop
  split
  · exact s.trvLose_only g _
  · exact .refl g s

theorem State.genReload_only (reload g : Nat) (s : State) : GenOnly g s (s.genReload reload g) := by
  unfold State.genReload
  split
  · exact s.trvLoad_only g
  · exact .refl g s

theorem bitOf_zero (i : Nat) : bitOf 0 i = false := by simp [bitOf_eq_testBit]

/-- STOP refuses nothing. -/
theorem State.trvCmd_stop (s : State) (stop : Nat) : s.trvCmd stop 0 = (forN 4 (fun g a => a.genStop stop g) s, []) := by
  have hstep (g : Nat) (a : State) : trvCmdStep stop 0 g (a, []) = (a.genStop stop g, []) := by
    unfold trvCmdStep State.genStop
    simp only [bitOf_zero, Bool.false_eq_true, if_false]
    split
    · unfold State.trvLose
      split <;> split <;> simp_all
    · rfl
  have h0 (f : Nat → State × List Nat → State × List Nat) : forN 0 f (s, []) = (s, []) := rfl
  have h0' (f : Nat → State → State) : forN 0 f s = s := rfl
  simp only [State.trvCmd_eq, forN_succ, h0, h0', hstep]

theorem forN_same {f : Nat → State → State} (hf : ∀ j a, GenOnly j a (f j a)) {k g : Nat} (h : k ≤ g) (s : State) : GenSame g s (forN k f s) := by
  induction k with
  | zero => exact .refl g s
  | succ k ih =>
    rw [forN_succ]
    exact (ih (by omega)).trans ((hf k _).same (by omega))

/-- While TRV runs, RELOAD restores the generators that are LOST, and refuses each other one with reason 0x10. -/
theorem State.trvCmd_reload {s : State} (reload : Nat) (hr : s.run .TRV 0 = runRunning) :
    (s.trvCmd 0 reload).1 = forN 4 (fun g a => a.genReload reload g) s ∧ (∀ r ∈ (s.trvCmd 0 reload).2, r = 16) ∧
      ∀ g, g < 4 → bitOf reload g = true → s.genState g ≠ tsLost → (s.trvCmd 0 reload).2 ≠ [] := by
  rw [State.trvCmd_eq]
  generalize 4 = k
  induction k with
  | zero => exact ⟨rfl, List.forall_mem_nil _, fun g h => by omega⟩
  | succ k ih =>
    obtain ⟨h1, h2, h3⟩ := ih
    have hsame : GenSame k s (forN k (fun g a => a.genReload reload g) s) := forN_same (State.genReload_only reload) (Nat.le_refl k) s
    rw [forN_succ, forN_succ]
    generalize forN k (trvCmdStep 0 reload) (s, []) = p at h1 h2 h3
    obtain ⟨a, l⟩ := p
    obtain rfl : a = forN k (fun g a => a.genReload reload g) s := h1
    generalize forN k (fun g a => a.genReload reload g) s = a at hsame
    have hrun : a.run .TRV 0 = runRunning := (hsame.read _ (by simp [genView])).trans hr
    have hstate : a.genState k = s.genState k := hsame.read _ (by simp [genView, trvFlds])
    unfold trvCmdStep State.genReload
    simp only [bitOf_zero, Bool.false_eq_true, if_false, hrun, ne_eq, not_true_eq_false, hstate]
    by_cases hb : bitOf reload k = true
    · by_cases hl : s.genState k = tsLost
      · simp only [hb, hl, and_self, if_true, not_true_eq_false, if_false]
        refine ⟨trivial, h2, fun g hg hbg hs => ?_⟩
        rcases Nat.lt_succ_iff_lt_or_eq.1 hg with h | rfl
        · exact h3 g h hbg hs
        · exact absurd hl hs
      · simp only [hb, hl, and_false, if_true, not_false_eq_true, if_false]
        exact ⟨trivial, fun r hr => by rcases List.mem_append.1 hr with h | h; exacts [h2 r h, List.mem_singleton.1 h], fun _ _ _ _ => by simp⟩
    · simp only [hb, false_and, if_false, Bool.false_eq_true]
      refine ⟨trivial, h2, fun g hg hbg hs => ?_⟩
      rcases Nat.lt_succ_iff_lt_or_eq.1 hg with h | rfl
      · exact h3 g h hbg hs
      · exact absurd hbg hb

theorem State.keepDark_rest (s was : State) (g : Nat) : (∀ f, (s.keepDark was).rd f = s.rd f) ∧ (s.keepDark was).trv g = s.trv g := by
  refine ⟨fun f => forN_inv (fun a : State => a.rd f = s.rd f) rfl fun h a ha => ?_,
    forN_inv (fun a : State => a.trv g = s.trv g) rfl fun h a ha => ?_⟩ <;> split <;> exact ha

theorem State.counted_frame (s : State) (c : Wr) (rs : List Nat) :
    (∀ f, c.pg * 32 + 4096 ≤ f.key → (s.counted c rs).rd f = s.rd f) ∧ (s.counted c rs).eng = s.eng := by
  unfold State.counted
  split
  · exact ⟨fun _ _ => rfl, rfl⟩
  · next reason _ =>
    refine ⟨fun f hf => (s.ignored_frame c.pg c.off (View.code c.view) (Path.code c.path) reason).read fun k hk => ?_, ?_⟩
    · have hcnt := ignCnt_key c.pg reason
      simp only [ignFlds, List.mem_cons, List.not_mem_nil, or_false] at hk
      rcases hk with rfl | rfl | rfl | rfl | rfl
      · omega
      all_goals
        simp only [Fld.key, R.IGN_OFFSET, R.IGN_VIEW, R.IGN_PATH, R.IGN_REASON] at hf ⊢
        omega
    · rw [State.ignored_eq]
      rfl

/-- Behind a write of TRV_CMD, what concerns a generator is what the command made of it. -/
theorem trvCmd_written (u s : State) (path : Path) (off : Nat) (view : View) (raw : Nat) (rs : List Nat) (g : Nat) :
    (∀ f ∈ trvFlds g, (((u.keepDark s).counted ⟨.TRV, 0, off, path, view, raw⟩ rs).calCheck.answered path).rd f = u.rd f) ∧
      (((u.keepDark s).counted ⟨.TRV, 0, off, path, view, raw⟩ rs).calCheck.answered path).trv g = u.trv g := by
  obtain ⟨hrd, htrv⟩ := u.keepDark_rest s g
  obtain ⟨hcrd, hceng⟩ := (u.keepDark s).counted_frame ⟨.TRV, 0, off, path, view, raw⟩ rs
  refine ⟨fun f hf => ?_, ?_⟩
  · have hkey := trvFlds_key hf
    have hpage : Wr.pg ⟨.TRV, 0, off, path, view, raw⟩ * 32 + 4096 ≤ f.key := by
      change 622592 * 32 + 4096 ≤ f.key
      omega
    have hcal : R.CAL_STATE_PHASE.key < 19931136 ∧ R.CAL_CMD_RUN.key < 19931136 ∧ R.CAL_EVT_ABORT.key < 19931136 := by decide
    rw [State.rd_answered, State.rd_calCheck _ (by omega) (by omega) (by omega), hcrd f hpage, hrd]
  · obtain ⟨_, _, h⟩ := ((u.keepDark s).counted ⟨.TRV, 0, off, path, view, raw⟩ rs).calCheck_rest
    rw [State.trv, State.answered_eng, h]
    change Sparse.look ((u.keepDark s).counted _ rs).eng.trv g TrvGen.init = _
    rw [hceng]
    exact htrv

theorem State.cmWrite_trv (s : State) (path : Path) (view : View) (raw : Nat) :
    s.cmWrite ⟨.TRV, 0, 0x24, path, view, raw⟩ =
      ((s.trvCmd (raw % 16) (bitsOf raw 8 4)).1.keepDark s, (s.trvCmd (raw % 16) (bitsOf raw 8 4)).2) := rfl

theorem fldsAt_trvCmd (b : Build) : fldsAt .TRV b 0 0x24 = some ([R.TRV_CMD_STOP, R.TRV_CMD_RELOAD], false) := by cases b <;> rfl

/-- A SET write of TRV_CMD that is reached. -/
theorem State.pathWrite_trvCmd {s : State} {path : Path} {f : Fld} {v : Word} (hf : f = R.TRV_CMD_STOP ∨ f = R.TRV_CMD_RELOAD)
    (hr : s.reaches path f .set) {stop reload : Nat} (h1 : v.toNat % 16 = stop) (h2 : bitsOf v.toNat 8 4 = reload) :
    s.pathWrite path (viewAddr f .set) [v] 15 =
      (((s.trvCmd stop reload).1.keepDark s).counted ⟨.TRV, 0, 0x24, path, .set, v.toNat⟩ (s.trvCmd stop reload).2).calCheck.answered path := by
  refine State.pathWrite_commands (a := 0x99024) (b := .TRV) (w := 0) hr (by rcases hf with rfl | rfl <;> rfl) (by decide) rfl (fldsAt_trvCmd s.build)
    (by decide) (by decide) (by decide) (by decide) (by decide) (by decide) ?_
  exact (State.cmWrite_trv s path .set v.toNat).trans (by rw [h1, h2])

theorem trvStop_word (m : BitVec 4) : (m.setWidth 32).toNat % 16 = m.toNat ∧ bitsOf (m.setWidth 32).toNat 8 4 = 0 := by
  have := m.isLt
  rw [BitVec.toNat_setWidth, bitsOf]
  omega

theorem trvReload_word (m : BitVec 4) : (m.setWidth 32 <<< 8).toNat % 16 = 0 ∧ bitsOf (m.setWidth 32 <<< 8).toNat 8 4 = m.toNat := by
  have := m.isLt
  rw [BitVec.toNat_shiftLeft, BitVec.toNat_setWidth, bitsOf, Nat.shiftLeft_eq]
  omega

theorem trvStop_gen {g : Nat} (hg : g < 4) {s : State} {path : Path} {m : BitVec 4} (hr : s.reaches path R.TRV_CMD_STOP .set) :
    (bitOf m.toNat g = true → s.genState g ≠ tsOff → s.genState g ≠ tsLost →
      completes (.trvStop path .set m) s (fun t =>
        t.genState g = tsLost ∧ t.rd (R.TRV_G_POS_WHY g) = twStop ∧
        t.rd (R.TRV_G_EVT_LOST g) = min (s.rd (R.TRV_G_EVT_LOST g) + 1) 4294967295)) ∧
    ((bitOf m.toNat g = false ∨ s.genState g = tsLost) →
      completes (.trvStop path .set m) s (fun t =>
        t.genState g = s.genState g ∧ t.rd (R.TRV_G_POS_WHY g) = s.rd (R.TRV_G_POS_WHY g) ∧ t.trv g = s.trv g)) := by
  have heq := State.pathWrite_trvCmd (v := m.setWidth 32) (.inl rfl) hr (trvStop_word m).1 (trvStop_word m).2
  rw [State.trvCmd_stop] at heq
  obtain ⟨a, ha, ht⟩ := forN_gens (f := fun g a => a.genStop m.toNat g) (fun j a => a.genStop_only _ j) hg s
  obtain ⟨hrd, htrv⟩ := trvCmd_written (forN 4 (fun g a => a.genStop m.toNat g) s) s path 0x24 .set (m.setWidth 32).toNat [] g
  have hP : R.TRV_G_POS_STATE g ∈ trvFlds g ∧ R.TRV_G_POS_WHY g ∈ trvFlds g ∧ R.TRV_G_EVT_LOST g ∈ trvFlds g := by simp [trvFlds]
  have hview {f : Fld} (hf : f ∈ trvFlds g) : f ∈ genView g := List.mem_append_left _ hf
  obtain ⟨m1, m2, m3⟩ := hP
  obtain ⟨t1, t2, -, -, t5, -⟩ := ht.shown
  have hst : a.genState g = s.genState g := ha.read _ (hview m1)
  refine ⟨fun hb hoff hlost => completes_eq rfl heq ?_, fun hkeep => completes_eq rfl heq ?_⟩
  · rw [State.genState, hrd _ m1, hrd _ m2, hrd _ m3]
    have hs : a.genStop m.toNat g = a.trvLose g twStop := by rw [State.genStop, if_pos hb]
    rw [hs] at t1 t2 t5
    obtain ⟨l1, l2, -, l4⟩ := State.trvLose_spec twStop (hst ▸ hoff) (hst ▸ hlost)
    exact ⟨t1.trans l1, t2.trans l2, by rw [t5, l4, ha.read _ (hview m3)]⟩
  · rw [State.genState, hrd _ m1, hrd _ m2, htrv]
    have hs : a.genStop m.toNat g = a := by
      rcases hkeep with h | h
      · rw [State.genStop, h, if_neg Bool.false_ne_true]
      · rw [State.genStop, State.trvLose, hst, h]
        simp
    rw [hs] at t1 t2 ht
    exact ⟨t1.trans hst, t2.trans (ha.read _ (hview m2)), ht.gen.trans ha.gen⟩

theorem countReason_all {l : List Nat} {n : Nat} (hl : ∀ r ∈ l, r = n) (hne : l ≠ []) (h1 : n ≠ rLocked) (h2 : n ≠ rWriteOnce) :
    countReason l = some n := by
  have hfind : l.find? (fun r => r = rLocked || r = rWriteOnce) = none :=
    List.find?_eq_none.2 fun r hr => by simp [hl r hr, h1, h2]
  rw [countReason, hfind, List.getLast?_eq_some_getLast hne, hl _ (List.getLast_mem hne)]

theorem trvReload_gen {g : Nat} (hg : g < 4) {s : State} {path : Path} {m : BitVec 4} (hr : s.reaches path R.TRV_CMD_RELOAD .set)
    (hb : bitOf m.toNat g = true) (hrun : s.run .TRV 0 = runRunning) :
    (s.genState g = tsLost → s.rd (R.TRV_G_TARGET_TARGET g) < 65536 →
      completes (.trvReload path .set m) s (fun t =>
        t.genState g = tsIdle ∧ t.rd (R.TRV_G_POS_WHY g) = 0 ∧ t.trv g = { acc := s.rd (R.TRV_G_TARGET_TARGET g) * 4294967296, v := 0, from_ := none } ∧
        t.rd (R.TRV_G_POS_P g) = s.rd (R.TRV_G_TARGET_TARGET g))) ∧
    (s.genState g ≠ tsLost →
      completes (.trvReload path .set m) s (fun t =>
        t.genState g = s.genState g ∧ t.trv g = s.trv g ∧ t.rd (R.IGN_REASON (Blk.TRV.pg 0)) = 16 ∧
        t.rd (R.EVT_CFG_IGN (Blk.TRV.pg 0)) = min (s.rd (R.EVT_CFG_IGN (Blk.TRV.pg 0)) + 1) 4294967295)) := by
  have heq := State.pathWrite_trvCmd (v := m.setWidth 32 <<< 8) (.inr rfl) hr (trvReload_word m).1 (trvReload_word m).2
  obtain ⟨hfst, hall, hne⟩ := State.trvCmd_reload m.toNat hrun
  generalize s.trvCmd 0 m.toNat = p at *
  obtain ⟨u, rs⟩ := p
  simp only at hfst hall hne heq
  obtain ⟨a, ha, ht⟩ := forN_gens (f := fun g a => a.genReload m.toNat g) (fun j a => a.genReload_only _ j) hg s
  obtain ⟨hrd, htrv⟩ := trvCmd_written u s path 0x24 .set (m.setWidth 32 <<< 8).toNat rs g
  have hP : R.TRV_G_POS_STATE g ∈ trvFlds g ∧ R.TRV_G_POS_WHY g ∈ trvFlds g ∧ R.TRV_G_POS_P g ∈ trvFlds g := by simp [trvFlds]
  have hview {f : Fld} (hf : f ∈ trvFlds g) : f ∈ genView g := List.mem_append_left _ hf
  obtain ⟨m1, m2, m3⟩ := hP
  rw [← hfst] at ht
  have hst : a.genState g = s.genState g := ha.read _ (hview m1)
  refine ⟨fun hlost htgt => completes_eq rfl heq ?_, fun hlost => completes_eq rfl heq ?_⟩
  · have hs : a.genReload m.toNat g = a.trvLoad g := by rw [State.genReload, if_pos ⟨hb, hst.trans hlost⟩]
    rw [hs] at ht
    obtain ⟨t1, t2, t3, -, -, -⟩ := ht.shown
    obtain ⟨l1, l2, l3, l4⟩ := a.trvLoad_spec g
    have htg : a.rd (R.TRV_G_TARGET_TARGET g) = s.rd (R.TRV_G_TARGET_TARGET g) := ha.read _ (by simp [genView])
    rw [State.genState, hrd _ m1, hrd _ m2, hrd _ m3, htrv]
    exact ⟨t1.trans l1, t2.trans l2, by rw [ht.gen, l3, htg], by rw [t3, l4, htg, Nat.mod_eq_of_lt htgt]⟩
  · have hs : a.genReload m.toNat g = a := by rw [State.genReload, if_neg (fun h => hlost (hst ▸ h.2))]
    rw [hs] at ht
    obtain ⟨t1, -⟩ := ht.shown
    have hreason := countReason_all hall (hne g hg hb hlost) (by decide) (by decide)
    have hcnt : (u.keepDark s).rd (R.EVT_CFG_IGN (Blk.TRV.pg 0)) = s.rd (R.EVT_CFG_IGN (Blk.TRV.pg 0)) := by
      rw [(u.keepDark_rest s g).1, hfst]
      refine forN_inv (fun a : State => a.rd (R.EVT_CFG_IGN (Blk.TRV.pg 0)) = s.rd (R.EVT_CFG_IGN (Blk.TRV.pg 0))) rfl fun j a h =>
        Eq.trans ((a.genReload_only m.toNat j).frame.read fun k hk => ?_) h
      have := trvFlds_key hk
      have hlt : (R.EVT_CFG_IGN (Blk.TRV.pg 0)).key < 19931136 := by decide
      omega
    rw [State.genState, hrd _ m1, htrv]
    refine ⟨t1.trans hst, ht.gen.trans ha.gen, ?_, ?_⟩
    · rw [State.rd_answered, State.rd_calCheck _ (by decide) (by decide) (by decide), State.counted, hreason]
      exact State.rd_ignored_reason _ _ _ _ _ _
    · rw [State.rd_answered, State.rd_calCheck _ (by decide) (by decide) (by decide), State.counted, hreason, ← hcnt]
      exact State.rd_ignored_count _ _ _ _ _ 16

/-- Settles O60: the clauses of TRAVERSE_CLOCK by what each outcome of R262 shows, those of the commands by `trvStop_gen` and `trvReload_gen`. -/
theorem traverseMotion : Obligations.TraverseMotion := by
  intro g s hg
  refine ⟨fun dup hp => completes_eq rfl (by rw [State.trvTick, hp, if_pos rfl]) rfl, fun dup hp hr => ⟨traverseClock_scales hp hr, ?_,
    traverseClock_dup hg hp hr⟩, fun path m hr => ⟨(trvStop_gen hg hr).1, (trvStop_gen hg hr).2, ?_, ?_⟩⟩
  · intro hd hst
    refine ⟨traverseClock_rests hg hp hr hd hst, traverseClock_starts hg hp hr hd hst, ?_⟩
    intro x tgt vmax a v acc hx htgt hvmax ha hne hin ht h1 h2 h3 hacc
    have hm : GenMoves g s dup x tgt vmax a v acc := ⟨hg, hp, hr, hd, hst, hx, htgt, hvmax, ha, hne, hin, ht, ⟨h1, h2, h3⟩, hacc⟩
    exact ⟨hm.bound, hm.arrives, hm.goes⟩
  · exact fun hb hrun hlost htgt => (trvReload_gen hg hr hb hrun).1 hlost htgt
  · exact fun hb hrun hlost => (trvReload_gen hg hr hb hrun).2 hlost

end Sys2Proof.Machine
end

section
/-! O46: the conversions of the temperature sensors. -/

namespace Sys2Proof.Machine

/-! ### What follows a conversion (R223, R385, R386) -/

/-- The fields that follow the readings. -/
def thmShowFlds : List Fld := [R.THM_MAX_CTRL, R.THM_MAX_SINK, R.THM_STATUS_DIS, R.THM_STATUS_HOT, R.THM_EVT_HOT]

theorem sameElse.sensors {s t u : State} {fs : List Fld} (h : sameElse s t fs ∧ t.eng.sensors = s.eng.sensors)
    (k : sameElse t u fs ∧ u.eng.sensors = t.eng.sensors) : sameElse s u fs ∧ u.eng.sensors = s.eng.sensors :=
  ⟨h.1.trans k.1, k.2.trans h.2⟩

theorem State.showMax_rest (s : State) : sameElse s s.showMax [R.THM_MAX_CTRL, R.THM_MAX_SINK] ∧ s.showMax.eng.sensors = s.eng.sensors := by
  unfold State.showMax
  extract_lets s1
  have h1 : sameElse s s1 [R.THM_MAX_CTRL, R.THM_MAX_SINK] ∧ s1.eng.sensors = s.eng.sensors := by
    dsimp only [s1]
    split
    · exact ⟨(sameElse.refl s _).wrI (by simp), rfl⟩
    · exact ⟨.refl s _, rfl⟩
  split
  · exact ⟨h1.1.wrI (by simp), h1.2⟩
  · exact h1

theorem State.hotJudge_rest (s : State) : sameElse s s.hotJudge [R.THM_STATUS_HOT, R.THM_EVT_HOT] ∧ s.hotJudge.eng.sensors = s.eng.sensors := by
  unfold State.hotJudge
  extract_lets l lim
  split_ifs
  · exact ⟨.refl s _, rfl⟩
  · exact ⟨((sameElse.refl s _).wr (by simp)).count (by simp), rfl⟩
  · exact ⟨(sameElse.refl s _).wr (by simp), rfl⟩
  · exact ⟨.refl s _, rfl⟩

theorem State.overtemp_rest (s : State) :
    sameElse s s.overtemp [R.LMP_EVT_OVERTEMP 0, R.LMP_EVT_OVERTEMP 1] ∧ s.overtemp.eng.sensors = s.eng.sensors := by
  unfold State.overtemp
  split
  · exact ⟨.refl s _, rfl⟩
  · have hcount {a : State} (h : Nat) (hh : h = 0 ∨ h = 1)
        (ha : sameElse s a [R.LMP_EVT_OVERTEMP 0, R.LMP_EVT_OVERTEMP 1] ∧ a.eng.sensors = s.eng.sensors) (t : Int) :
        let b := (let x := a.lamp h
          if 520 ≤ t ∧ !x.hotReq then (a.setLamp h { x with hotReq := true }).count (R.LMP_EVT_OVERTEMP h)
          else if t ≤ 480 ∧ x.hotReq then a.setLamp h { x with hotReq := false }
          else a)
        sameElse s b [R.LMP_EVT_OVERTEMP 0, R.LMP_EVT_OVERTEMP 1] ∧ b.eng.sensors = s.eng.sensors := by
      dsimp only
      split_ifs
      · exact ⟨sameElse.count (ha.1.of_eq rfl rfl rfl) (by rcases hh with rfl | rfl <;> simp), ha.2⟩
      · exact ⟨ha.1.of_eq rfl rfl rfl, ha.2⟩
      · exact ha
    exact hcount 1 (.inr rfl) (hcount 0 (.inl rfl) ⟨.refl s _, rfl⟩ _) _

/-- What a conversion and what follows from it may change besides the sensor. -/
def thmAfterFlds : List Fld := thmShowFlds ++ [R.LMP_EVT_OVERTEMP 0, R.LMP_EVT_OVERTEMP 1]

theorem State.shown_rest (s : State) :
    sameElse s s.showMax.showDis.hotJudge thmShowFlds ∧ s.showMax.showDis.hotJudge.eng.sensors = s.eng.sensors := by
  obtain ⟨h1, e1⟩ := s.showMax_rest
  obtain ⟨h2, e2⟩ := s.showMax.showDis.hotJudge_rest
  have hd : sameElse s.showMax s.showMax.showDis thmShowFlds := (sameElse.refl _ _).wr (by simp [thmShowFlds])
  exact ⟨((h1.mono (by simp [thmShowFlds])).trans hd).trans (h2.mono (by simp [thmShowFlds])), e2.trans e1⟩

/-- A conversion outside Valley: the sensor's step, and what follows from it. -/
theorem State.convert1_shown {s : State} {n : Nat} (hn : n < sensorCount s.build) (hp : s.pstate ≠ pValley) (res : Option Int) :
    sameElse (s.sensorStep n res) (s.convert1 n res) thmAfterFlds ∧ (s.convert1 n res).eng.sensors = (s.sensorStep n res).eng.sensors ∧
      (s.build = .head → s.convert1 n res = (s.sensorStep n res).showMax.showDis.hotJudge) := by
  obtain ⟨hs, es⟩ := (s.sensorStep n res).shown_rest
  obtain ⟨ho, eo⟩ := (s.sensorStep n res).showMax.showDis.hotJudge.overtemp_rest
  unfold State.convert1
  rw [if_neg (by simp [hp, hn])]
  cases s.build with
  | tile => exact ⟨hs.append ho, eo.trans es, fun h => by cases h⟩
  | head => exact ⟨hs.mono (List.subset_append_left _ _), es, fun _ => rfl⟩

/-- The maximum shown outlasts what follows. -/
theorem State.convert1_max {s : State} {n : Nat} (hn : n < sensorCount s.build) (hp : s.pstate ≠ pValley) (res : Option Int) :
    (s.convert1 n res).rdI R.THM_MAX_CTRL = (s.sensorStep n res).showMax.rdI R.THM_MAX_CTRL := by
  have hjudge : (s.sensorStep n res).showMax.showDis.hotJudge.rd R.THM_MAX_CTRL = (s.sensorStep n res).showMax.rd R.THM_MAX_CTRL :=
    ((State.hotJudge_rest _).1.read (by decide)).trans (State.rd_wr_ne _ _ (by decide))
  unfold State.convert1 State.rdI
  rw [if_neg (by simp [hp, hn])]
  cases s.build with
  | tile => exact congrArg (sgn _) (((State.overtemp_rest _).1.read (by decide)).trans hjudge)
  | head => exact congrArg (sgn _) hjudge

/-- The sensors' own fields outlast what follows. -/
theorem thmAfter_apart {n : Nat} (hn : n < 12) : ∀ f ∈ [R.THM_S_T n, R.THM_S_VALID n, R.THM_STATUS_FAULT, R.THM_EVT_FAULT], ∀ g ∈ thmAfterFlds,
    f.key ≠ g.key := by
  simp only [thmAfterFlds, thmShowFlds, List.cons_append, List.nil_append, List.forall_mem_cons, List.not_mem_nil, false_imp_iff, implies_true, and_true,
    Fld.key, R.THM_S_T, R.THM_S_VALID, R.THM_STATUS_FAULT, R.THM_EVT_FAULT, R.THM_MAX_CTRL, R.THM_MAX_SINK, R.THM_STATUS_DIS, R.THM_STATUS_HOT,
    R.THM_EVT_HOT, R.LMP_EVT_OVERTEMP]
  omega

theorem sensorCount_le (b : Build) : sensorCount b ≤ 12 := by cases b <;> decide

/-! ### One slot of a sensor (R384, R385) -/

/-- The fields of a sensor's own reading. -/
def sensorFlds (n : Nat) : List Fld := [R.THM_S_T n, R.THM_S_VALID n, R.THM_STATUS_FAULT]

/-- A signed field of 12 bits reads the value written, where it fits. -/
theorem State.rdI_wrI_same12 (s : State) {f : Fld} {v : Int} (hw : f.width = 12) (hlo : -2048 ≤ v) (hhi : v < 2048) :
    (s.wrI f v).rdI f = v := by
  unfold State.rdI State.wrI
  rw [State.rd_wr_same, hw]
  simp only [sgn, wrap]
  omega

/-- A good conversion is the reading, where the sensor is not in FAULT or leaves it. -/
theorem State.sensorStep_reads {s : State} {n : Nat} {v : Int} (hn : n < 12) (h1 : -220 ≤ v) (h2 : v ≤ 600)
    (hok : s.sensorFault n = false ∨ 3 ≤ (s.sensor n).good) :
    (s.sensorStep n (some v)).rdI (R.THM_S_T n) = v ∧ (s.sensorStep n (some v)).rd (R.THM_S_VALID n) = 1 ∧
      (s.sensorStep n (some v)).sensorFault n = false ∧ sameElse s (s.sensorStep n (some v)) (sensorFlds n) := by
  have hstay : (s.sensorFault n && decide ((s.sensor n).good + 1 < 4)) = false := by
    rcases hok with h | h
    · rw [h, Bool.false_and]
    · rw [decide_eq_false (by omega), Bool.and_false]
  have heq : s.sensorStep n (some v) =
      ((((s.setSensor n { missed := 0, good := 0 }).wr R.THM_STATUS_FAULT (withBit (s.rd R.THM_STATUS_FAULT) n false)).wrI (R.THM_S_T n) v).wr
        (R.THM_S_VALID n) 1) := by
    simp only [State.sensorStep, h1, h2, and_self, if_true, State.sensorRead, hstay, Bool.false_eq_true, if_false]
  have hkeys : (R.THM_S_T n).key ≠ (R.THM_S_VALID n).key ∧ R.THM_STATUS_FAULT.key ≠ (R.THM_S_VALID n).key ∧ R.THM_STATUS_FAULT.key ≠ (R.THM_S_T n).key := by
    simp only [Fld.key, R.THM_S_T, R.THM_S_VALID, R.THM_STATUS_FAULT]
    omega
  obtain ⟨k1, k2, k3⟩ := hkeys
  rw [heq]
  refine ⟨?_, State.rd_wr_same _ _ _, ?_, ?_⟩
  · rw [State.rdI_wr_ne _ _ k1, State.rdI_wrI_same12 _ rfl (by omega) (by omega)]
  · rw [State.sensorFault, State.rd_wr_ne _ _ k2, State.rd_wrI_ne _ _ k3, State.rd_wr_same]
    change bitOf (_ % 2 ^ 12) n = false
    rw [bitOf_mod, bitOf_withBit, if_pos rfl, Bool.and_false]
  · exact (((((sameElse.refl s _).of_eq rfl rfl rfl : sameElse s (s.setSensor n _) _).wr (by simp [sensorFlds])).wrI (by simp [sensorFlds])).wr
      (by simp [sensorFlds]))

/-- In FAULT, the first three good conversions are not taken. -/
theorem State.sensorStep_counts {s : State} {n : Nat} {v : Int} (h1 : -220 ≤ v) (h2 : v ≤ 600) (hf : s.sensorFault n = true)
    (hg : (s.sensor n).good < 3) :
    s.sensorStep n (some v) = s.setSensor n { missed := 0, good := (s.sensor n).good + 1 } := by
  have hstay : (s.sensorFault n && decide ((s.sensor n).good + 1 < 4)) = true := by
    rw [hf, decide_eq_true (by omega), Bool.and_self]
  simp only [State.sensorStep, h1, h2, and_self, if_true, State.sensorRead, hstay]

theorem State.sensorStep_misses {s : State} {n : Nat} (hm : (s.sensor n).missed < 3) :
    s.sensorStep n none = s.setSensor n { missed := (s.sensor n).missed + 1, good := 0 } := by
  simp only [State.sensorStep]
  rw [if_neg (by omega)]

/-- The fourth slot in a row without a result is a FAULT. -/
theorem State.sensorStep_fails {s : State} {n : Nat} (hn : n < 12) (hf : s.sensorFault n = false) (hm : (s.sensor n).missed = 3) :
    (s.sensorStep n none).sensorFault n = true ∧ (s.sensorStep n none).rd R.THM_EVT_FAULT = min (s.rd R.THM_EVT_FAULT + 1) 4294967295 ∧
      (s.sensorStep n none).rd (R.THM_S_T n) = s.rd (R.THM_S_T n) := by
  simp only [State.sensorStep]
  rw [if_pos (by omega), State.sensorFail]
  generalize hu : ((s.setSensor n { missed := (s.sensor n).missed + 1, good := 0 }).setSensor n _ : State) = u
  have hread (f : Fld) : u.rd f = s.rd f := by
    rw [← hu]
    rfl
  have hfu : u.sensorFault n = false := by rw [State.sensorFault, hread]; exact hf
  have k1 : (R.THM_S_T n).key ≠ R.THM_EVT_FAULT.key ∧ (R.THM_S_T n).key ≠ R.THM_STATUS_FAULT.key := by
    simp only [Fld.key, R.THM_S_T, R.THM_EVT_FAULT, R.THM_STATUS_FAULT]
    omega
  simp only [hfu, Bool.false_eq_true, if_false]
  refine ⟨?_, ?_, ?_⟩
  · rw [State.sensorFault, State.rd_count_ne _ (by decide), State.rd_wr_same]
    change bitOf (_ % 2 ^ 12) n = true
    rw [bitOf_mod, bitOf_withBit, if_pos rfl]
    simpa using hn
  · rw [State.rd_count32 _ rfl, State.rd_wr_ne _ _ (by decide), hread]
  · rw [State.rd_count_ne _ k1.1, State.rd_wr_ne _ _ k1.2, hread]

/-! ### The highest reading, and HOT -/

theorem foldl_max_spec (l : List Int) (a : Int) : (l.foldl max a = a ∨ l.foldl max a ∈ l) ∧ a ≤ l.foldl max a ∧ ∀ x ∈ l, x ≤ l.foldl max a := by
  induction l generalizing a with
  | nil => simp
  | cons b l ih =>
    obtain ⟨h1, h2, h3⟩ := ih (max a b)
    simp only [List.foldl_cons, List.mem_cons, forall_eq_or_imp]
    refine ⟨?_, by omega, by omega, h3⟩
    rcases h1 with h | h
    · rw [h]
      omega
    · exact .inr (.inr h)

theorem sgn12_range (v : Nat) : -2048 ≤ sgn 12 v ∧ sgn 12 v < 2048 := by
  simp only [sgn]
  omega

/-- A good sensor of the controller die reads no higher than the maximum shown. -/
theorem State.le_showMax {s : State} {n : Nat} (hn : n < 4) (hg : s.sensorGood n = true) : s.rdI (R.THM_S_T n) ≤ s.showMax.rdI R.THM_MAX_CTRL := by
  have hin : s.rdI (R.THM_S_T n) ∈ ((List.range 4).filter s.sensorGood).map (fun n => s.rdI (R.THM_S_T n)) :=
    List.mem_map.2 ⟨n, List.mem_filter.2 ⟨List.mem_range.2 hn, hg⟩, rfl⟩
  have hrange : ∀ x ∈ ((List.range 4).filter s.sensorGood).map (fun n => s.rdI (R.THM_S_T n)), -2048 ≤ x ∧ x < 2048 := by
    intro x hx
    obtain ⟨k, -, rfl⟩ := List.mem_map.1 hx
    exact sgn12_range _
  obtain ⟨t, ht, hle, hbound⟩ : ∃ t, s.hottestOf (List.range 4) = some t ∧ s.rdI (R.THM_S_T n) ≤ t ∧ -2048 ≤ t ∧ t < 2048 := by
    unfold State.hottestOf
    generalize ((List.range 4).filter s.sensorGood).map (fun n => s.rdI (R.THM_S_T n)) = l at hin hrange
    cases l with
    | nil => cases hin
    | cons a l =>
      obtain ⟨h1, h2, h3⟩ := foldl_max_spec l a
      refine ⟨l.foldl max a, rfl, ?_, ?_⟩
      · rcases List.mem_cons.1 hin with h | h
        · rw [h]
          exact h2
        · exact h3 _ h
      · rcases h1 with h | h
        · rw [h]
          exact hrange _ List.mem_cons_self
        · exact hrange _ (List.mem_cons_of_mem _ h)
  have hmax : s.showMax.rdI R.THM_MAX_CTRL = t := by
    unfold State.showMax
    simp only [ht]
    split
    · rw [State.rdI_wrI_ne _ _ (by decide), State.rdI_wrI_same12 _ rfl hbound.1 hbound.2]
    · rw [State.rdI_wrI_same12 _ rfl hbound.1 hbound.2]
  rw [hmax]
  exact hle

/-- HOT follows a good reading of the controller die at the limit. -/
theorem State.hotJudge_sets {s : State} {n : Nat} (hn : n < 4) (hg : s.sensorGood n = true) (hen : s.enabled .THM 0 = true)
    (hlim : (4 * s.rd R.THM_CFG_HOT_LIM : Nat) ≤ s.rdI (R.THM_S_T n)) (hot : s.rd R.THM_STATUS_HOT = 0) :
    s.hotJudge.rd R.THM_STATUS_HOT = 1 ∧ s.hotJudge.rd R.THM_EVT_HOT = min (s.rd R.THM_EVT_HOT + 1) 4294967295 := by
  have hany : (((List.range 4).filter s.sensorGood).map (fun n => s.rdI (R.THM_S_T n))).any
      (fun t => decide (((4 * s.rd R.THM_CFG_HOT_LIM : Nat) : Int) ≤ t)) = true :=
    List.any_eq_true.2 ⟨_, List.mem_map.2 ⟨n, List.mem_filter.2 ⟨List.mem_range.2 hn, hg⟩, rfl⟩, by simpa using hlim⟩
  have hset : s.hotJudge = (s.wr R.THM_STATUS_HOT 1).count R.THM_EVT_HOT := by
    unfold State.hotJudge
    extract_lets l lim
    rw [if_pos hany, if_neg (by simp [hen, State.on, hot])]
  rw [hset]
  refine ⟨?_, ?_⟩
  · rw [State.rd_count_ne _ (by decide), State.rd_wr_same]
    rfl
  · rw [State.rd_count32 _ rfl, State.rd_wr_ne _ _ (by decide)]

/-- Settles O46: each outcome of the sensor's step, behind what follows from it (`State.convert1_shown`). -/
theorem sensorConversions : Obligations.SensorConversions := by
  intro n v s hn h1 h2
  have hn12 : n < 12 := lt_of_lt_of_le hn (sensorCount_le s.build)
  have hexec (res : Option Int) : exec (.sensorConversion n res) s = .next (s.convert1 n res) := congrArg _ (if_pos hn)
  refine ⟨fun hp => completes_eq (hexec _) (if_pos (.inr hp)) rfl, fun hp => ?_⟩
  have hkept (res : Option Int) {f : Fld} (hf : f ∈ [R.THM_S_T n, R.THM_S_VALID n, R.THM_STATUS_FAULT, R.THM_EVT_FAULT]) :
      (s.convert1 n res).rd f = (s.sensorStep n res).rd f := (s.convert1_shown hn hp res).1.read (thmAfter_apart hn12 f hf)
  have hsensor (res : Option Int) : (s.convert1 n res).sensor n = (s.sensorStep n res).sensor n := by
    rw [State.sensor, (s.convert1_shown hn hp res).2.1, State.sensor]
  have hfault (res : Option Int) : (s.convert1 n res).sensorFault n = (s.sensorStep n res).sensorFault n := by
    rw [State.sensorFault, hkept res (f := R.THM_STATUS_FAULT) (by simp), State.sensorFault]
  refine ⟨fun hok => ?_, fun hf hg => ?_, fun hf hm => ?_, fun hf hm => ?_, fun hb hf hen hlim hot => ?_⟩
  · obtain ⟨r1, r2, r3, r4⟩ := State.sensorStep_reads hn12 h1 h2 hok
    have hgood : (s.sensorStep n (some v)).sensorGood n = true := by simp [State.sensorGood, State.on, r2, r3]
    refine ⟨_, hexec _, ?_, (hkept _ (by simp)).trans r2, (hfault _).trans r3, fun hn4 => ?_, fun hb => ?_⟩
    · rw [State.rdI, hkept _ (f := R.THM_S_T n) (by simp)]
      exact r1
    · rw [State.convert1_max hn hp]
      exact r1.symm.trans_le (State.le_showMax hn4 hgood)
    · rw [(s.convert1_shown hn hp _).2.2 hb]
      exact (r4.append (State.shown_rest _).1).mono (by simp [sensorFlds, thmShowFlds])
  · have hstep := State.sensorStep_counts h1 h2 hf hg
    refine ⟨_, hexec _, ?_, ?_, ?_⟩
    · rw [hkept _ (f := R.THM_S_T n) (by simp), hstep, State.rd_setSensor]
    · rw [hfault, hstep, State.sensorFault, State.rd_setSensor]
      exact hf
    · rw [hsensor, hstep, State.sensor_setSensor_same]
  · obtain ⟨r1, r2, r3⟩ := State.sensorStep_fails hn12 hf hm
    exact ⟨_, hexec _, (hfault _).trans r1, (hkept _ (by simp)).trans r2, (hkept _ (by simp)).trans r3⟩
  · have hstep := State.sensorStep_misses (s := s) (n := n) hm
    refine ⟨_, hexec _, ?_, ?_⟩
    · rw [hfault, hstep, State.sensorFault, State.rd_setSensor]
      exact hf
    · rw [hsensor, hstep, State.sensor_setSensor_same]
  · have hn4 : n < 4 := by
      rw [hb] at hn
      exact hn
    obtain ⟨r1, r2, r3, r4⟩ := State.sensorStep_reads hn12 h1 h2 (.inl hf)
    have hm := (s.sensorStep n (some v)).showMax_rest.1
    have hread {f : Fld} (hf : ∀ g ∈ [R.THM_MAX_CTRL, R.THM_MAX_SINK, R.THM_STATUS_DIS], f.key ≠ g.key) :
        (s.sensorStep n (some v)).showMax.showDis.rd f = (s.sensorStep n (some v)).rd f := by
      simp only [List.forall_mem_cons] at hf
      exact (State.rd_wr_ne _ _ hf.2.2.1).trans (hm.read (by simp [hf]))
    have hown {f : Fld} (hf : ∀ g ∈ sensorFlds n ++ [R.THM_MAX_CTRL, R.THM_MAX_SINK, R.THM_STATUS_DIS], f.key ≠ g.key) :
        (s.sensorStep n (some v)).showMax.showDis.rd f = s.rd f :=
      (hread fun g hg => hf g (List.mem_append_right _ hg)).trans (r4.read fun g hg => hf g (List.mem_append_left _ hg))
    have hshows {f : Fld} (hf : f ∈ [R.THM_S_T n, R.THM_S_VALID n, R.THM_STATUS_FAULT]) :
        (s.sensorStep n (some v)).showMax.showDis.rd f = (s.sensorStep n (some v)).rd f :=
      hread fun g hg => thmAfter_apart hn12 f (by simp at hf ⊢; tauto) g (by simp [thmAfterFlds, thmShowFlds] at hg ⊢; tauto)
    have happart : ∀ f ∈ [R.ENABLE (Blk.THM.pg 0), R.THM_CFG_HOT_LIM, R.THM_STATUS_HOT, R.THM_EVT_HOT],
        ∀ g ∈ sensorFlds n ++ [R.THM_MAX_CTRL, R.THM_MAX_SINK, R.THM_STATUS_DIS], f.key ≠ g.key := by
      simp only [sensorFlds, List.cons_append, List.nil_append, List.forall_mem_cons, List.not_mem_nil, false_imp_iff, implies_true, and_true, Fld.key,
        R.ENABLE, Blk.pg, Blk.win0, R.THM_CFG_HOT_LIM, R.THM_STATUS_HOT, R.THM_EVT_HOT, R.THM_S_T, R.THM_S_VALID, R.THM_STATUS_FAULT, R.THM_MAX_CTRL,
        R.THM_MAX_SINK, R.THM_STATUS_DIS]
      omega
    have hjudge := State.hotJudge_sets (s := (s.sensorStep n (some v)).showMax.showDis) hn4 ?_ ?_ ?_ ?_
    · rw [hown (happart R.THM_EVT_HOT (by simp))] at hjudge
      refine ⟨_, hexec _, ?_⟩
      rw [(s.convert1_shown hn hp _).2.2 hb]
      exact hjudge
    · simp [State.sensorGood, State.on, State.sensorFault, hshows]
      exact ⟨r2, r3⟩
    · rw [State.enabled, State.on, hown (happart (R.ENABLE (Blk.THM.pg 0)) (by simp))]
      exact hen
    · rw [hown (happart R.THM_CFG_HOT_LIM (by simp)), State.rdI, hshows (f := R.THM_S_T n) (by simp)]
      exact hlim.trans_eq r1.symm
    · rw [hown (happart R.THM_STATUS_HOT (by simp)), hot]

end Sys2Proof.Machine
end

section
/-! The write of one field that is no command, on a register of its own (R54, R63 to R66). -/

namespace Sys2Proof.Machine

/-- A register that holds one field, which no hardware updates. -/
structure OneField (b : Blk) (w off : Nat) (f : Fld) : Prop where
  cm : f.cls ≠ .cm
  hu : f.cls ≠ .hu
  crn : b ≠ .CRN
  thm : b ≠ .THM
  ctrl : off ≠ 4
  inst : instOf b w off = none

/-- What a write of a register of one field does with the verdict. -/
theorem State.writeReg_one {s : State} {c : Wr} {f : Fld} (h : OneField c.b c.w c.off f) :
    s.writeReg c false [f] =
      match s.judge c false f with
      | .leave => s.calCheck
      | .take v => (s.takeFld c f v).calCheck
      | .refuse r => (s.counted c [r]).calCheck := by
  have hcm := h.cm
  have hhu := h.hu
  have hcrn := h.crn
  have hthm := h.thm
  have hctrl := h.ctrl
  have hchosen : s.hwChosen [f] = s := by simp [State.hwChosen, hhu]
  unfold State.writeReg State.enableWrite State.writeDwordFlds State.writeFlds
  simp only [List.foldl_cons, List.foldl_nil, hchosen]
  cases s.judge c false f <;> simp [hcm, hcrn, hthm, hctrl, h.inst, State.counted]
  all_goals rfl

theorem State.pathWrite_takes {s : State} {path : Path} {f : Fld} {view : View} {a : Nat} {b : Blk} {w x : Nat} {v : Word} (hr : s.reaches path f view)
    (ha : viewAddr f view / 4 * 4 = a) (hlt : a < 0x100000) (hb : winBlk (a / 16384) = some (b, w))
    (hl : fldsAt b s.build w (a % 4096) = some ([f], false)) (h : OneField b w (a % 4096) f)
    (hj : s.judge ⟨b, w, a % 4096, path, viewAt a, v.toNat⟩ false f = .take x) :
    s.pathWrite path (viewAddr f view) [v] 15 = (s.takeFld ⟨b, w, a % 4096, path, viewAt a, v.toNat⟩ f x).calCheck.answered path := by
  rw [State.pathWrite_page hr ha hlt hb hl, State.writeReg_one h, hj]

theorem State.pathWrite_refuses {s : State} {path : Path} {f : Fld} {view : View} {a : Nat} {b : Blk} {w r : Nat} {v : Word} (hr : s.reaches path f view)
    (ha : viewAddr f view / 4 * 4 = a) (hlt : a < 0x100000) (hb : winBlk (a / 16384) = some (b, w))
    (hl : fldsAt b s.build w (a % 4096) = some ([f], false)) (h : OneField b w (a % 4096) f)
    (hj : s.judge ⟨b, w, a % 4096, path, viewAt a, v.toNat⟩ false f = .refuse r) :
    s.pathWrite path (viewAddr f view) [v] 15 = (s.counted ⟨b, w, a % 4096, path, viewAt a, v.toNat⟩ [r]).calCheck.answered path := by
  rw [State.pathWrite_page hr ha hlt hb hl, State.writeReg_one h, hj]

/-- One reason is counted as it is. -/
theorem State.counted_one (s : State) (c : Wr) (r : Nat) :
    s.counted c [r] = s.ignored c.pg c.off (View.code c.view) (Path.code c.path) r := by
  have h : countReason [r] = some r := by
    unfold countReason
    by_cases h : r = rLocked ∨ r = rWriteOnce
    · rw [List.find?_cons_of_pos (by simpa using h)]
    · rw [List.find?_cons_of_neg (by simpa using h)]
      rfl
  rw [State.counted, h]

theorem Wr.result_base {c : Wr} (h : c.view = .base) (f : Fld) (old : Nat) : c.result f old = bitsOf c.raw f.lsb (min f.width 32) := by
  unfold Wr.result
  rw [h]

/-- A live field is judged by its value alone. -/
theorem State.judge_lv {s : State} {c : Wr} {high : Bool} {f : Fld} (h : f.cls = .lv) :
    s.judge c high f = s.judgeValue c f (c.result f (s.see f)) := by
  unfold State.judge
  rw [h]

/-- A write-once field that has not been written, on a page that is not locked. -/
theorem State.judge_w1 {s : State} {c : Wr} {high : Bool} {f : Fld} (h : f.cls = .w1) (hl : s.on (R.LOCK c.pg) = false)
    (hw : s.bus.w1.contains f.key = false) : s.judge c high f = s.judgeValue c f (c.result f (s.see f)) := by
  unfold State.judge
  rw [h]
  simp only [hl, hw, Bool.false_eq_true, if_false]

/-! ### O22: locking a timebase, the phase step, the period -/

theorem fldsAt_period (b : Build) : fldsAt .EPC b 0 0x24 = some ([R.EPC_PERIOD_NS], false) := by cases b <;> rfl

theorem oneField_period : OneField .EPC 0 0x24 R.EPC_PERIOD_NS := by
  constructor <;> decide

theorem State.judge_period (s : State) (path : Path) (v : Word) :
    s.judge ⟨.EPC, 0, 0x24, path, .base, v.toNat⟩ false R.EPC_PERIOD_NS =
      s.judgeValue ⟨.EPC, 0, 0x24, path, .base, v.toNat⟩ R.EPC_PERIOD_NS (v.toNat % 67108864) := by
  rw [State.judge_lv rfl, Wr.result_base rfl]
  congr 1
  exact congrArg (· % 67108864) (Nat.div_one _)

theorem epcPeriod_announced {s : State} {path : Path} {v : Word} (hr : s.reaches path R.EPC_PERIOD_NS .base) (hm : s.epState = epMaster)
    (h1 : 1041667 ≤ v.toNat) (h2 : v.toNat ≤ 41666667) :
    completes (.epcPeriodWrite path .base v) s (fun t =>
      t.rd R.EPC_PERIOD_NEXT_NS = v.toNat ∧ t.rd R.EPC_PERIOD_AT_EPOCH = (s.epochNo + 5) % 4294967296 ∧
      sameElse s t ([R.EPC_PERIOD_NEXT_NS, R.EPC_PERIOD_AT_EPOCH] ++ calFlds)) := by
  have hmod : v.toNat % 67108864 = v.toNat := Nat.mod_eq_of_lt (by omega)
  have hj : s.judge ⟨.EPC, 0, 0x24, path, .base, v.toNat⟩ false R.EPC_PERIOD_NS = .take v.toNat := by
    have hclosed : s.closed R.EPC_PERIOD_NS v.toNat = none := by
      unfold State.closed
      rw [if_neg (by simp [R.EPC_PERIOD_NS, R.CLK_PLL_EN_ROOT_EN]), if_neg (by simp [R.EPC_PERIOD_NS, R.BOOT_LOAD_PTR_OFFSET, R.BOOT_LOAD_DATA_DATA]),
        if_neg (by simp [hm])]
    have hrange : s.rangeBad ⟨.EPC, 0, 0x24, path, .base, v.toNat⟩ R.EPC_PERIOD_NS v.toNat = false := by
      have e1 : (R.EPC_PERIOD_NS = R.EPC_CFG_PTP) = False := by simp [R.EPC_PERIOD_NS, R.EPC_CFG_PTP]
      have e2 : (R.EPC_PERIOD_NS = R.EPC_CFG_MASTER) = False := by simp [R.EPC_PERIOD_NS, R.EPC_CFG_MASTER]
      simp only [State.rangeBad, State.rangeExtra, e1, e2, decide_false, Bool.or_self, Bool.and_false, Bool.false_and, Bool.or_false]
      simp only [R.EPC_PERIOD_NS, Bool.or_eq_false_iff]
      exact ⟨decide_eq_false (by omega), decide_eq_false (by omega)⟩
    rw [State.judge_period, hmod, State.judgeValue, hclosed]
    have hly : s.lyBaseBad ⟨.EPC, 0, 0x24, path, .base, v.toNat⟩ R.EPC_PERIOD_NS v.toNat = none := rfl
    simp only [hly, hrange, Bool.false_eq_true, if_false]
  have heq := State.pathWrite_takes (a := 0x9C024) hr rfl (by decide) rfl (fldsAt_period s.build) oneField_period hj
  have htake : s.takeFld ⟨.EPC, 0, 0x24, path, .base, v.toNat⟩ R.EPC_PERIOD_NS v.toNat = s.announce v.toNat := by
    have hstore : s.store R.EPC_PERIOD_NS v.toNat = s.announce v.toNat := by
      unfold State.store
      rw [if_neg (by simp [R.EPC_PERIOD_NS, R.CRN_CTRL_LAMP_EN]), if_pos rfl]
    unfold State.takeFld
    rw [hstore]
    unfold State.foldSoil
    simp [Wr.checked, R.EPC_PERIOD_NS, State.taken]
  refine completes_eq rfl heq ?_
  rw [show (0x9C024 : Nat) % 4096 = 0x24 from rfl, show viewAt 0x9C024 = .base from rfl, htake]
  refine ⟨?_, ?_, ((((sameElse.refl s _).wr (by simp)).wr (by simp)).calCheck).answered path⟩
  · rw [State.rd_answered, State.rd_calCheck _ (by decide) (by decide) (by decide), State.announce, State.rd_wr_ne _ _ (by decide), State.rd_wr_same]
    exact hmod
  · rw [State.rd_answered, State.rd_calCheck _ (by decide) (by decide) (by decide), State.announce, State.rd_wr_same]
    exact Nat.mod_mod _ _

theorem epcPeriod_refused {s : State} {path : Path} {v : Word} (hr : s.reaches path R.EPC_PERIOD_NS .base) (hm : s.epState ≠ epMaster) :
    completes (.epcPeriodWrite path .base v) s (fun t =>
      t.rd (R.IGN_REASON (Blk.EPC.pg 0)) = 16 ∧
      t.rd (R.EVT_CFG_IGN (Blk.EPC.pg 0)) = min (s.rd (R.EVT_CFG_IGN (Blk.EPC.pg 0)) + 1) 4294967295 ∧
      sameElse s t ([R.EVT_CFG_IGN (Blk.EPC.pg 0), R.IGN_OFFSET (Blk.EPC.pg 0), R.IGN_VIEW (Blk.EPC.pg 0), R.IGN_PATH (Blk.EPC.pg 0),
        R.IGN_REASON (Blk.EPC.pg 0)] ++ calFlds)) := by
  have hj : s.judge ⟨.EPC, 0, 0x24, path, .base, v.toNat⟩ false R.EPC_PERIOD_NS = .refuse 16 := by
    have hclosed : s.closed R.EPC_PERIOD_NS (v.toNat % 67108864) = some 16 := by
      unfold State.closed
      rw [if_neg (by simp [R.EPC_PERIOD_NS, R.CLK_PLL_EN_ROOT_EN]), if_neg (by simp [R.EPC_PERIOD_NS, R.BOOT_LOAD_PTR_OFFSET, R.BOOT_LOAD_DATA_DATA]),
        if_pos (by simp [hm])]
    rw [State.judge_period, State.judgeValue, hclosed]
  have heq := State.pathWrite_refuses (a := 0x9C024) hr rfl (by decide) rfl (fldsAt_period s.build) oneField_period hj
  rw [State.counted_one] at heq
  refine completes_eq rfl heq ⟨?_, ?_, ((State.ignored_frame s _ _ _ _ 16).calCheck).answered path⟩
  · rw [State.rd_answered, State.rd_calCheck _ (by decide) (by decide) (by decide)]
    exact State.rd_ignored_reason s _ _ _ _ 16
  · rw [State.rd_answered, State.rd_calCheck _ (by decide) (by decide) (by decide)]
    exact State.rd_ignored_count s _ _ _ _ 16

/-- Settles O22: the events of the timebase from their definitions, the write of the period by `epcPeriod_announced` and `epcPeriod_refused`. -/
theorem lockPhaseAndPeriod : Obligations.LockPhaseAndPeriod := by
  refine ⟨fun s => ⟨fun hr hg hst => ?_, fun hg => ?_, fun hr => ?_, fun e hr he => ?_⟩,
    fun path v s hreach => ⟨epcPeriod_announced hreach, epcPeriod_refused hreach⟩⟩
  · refine completes_eq rfl (if_pos (by simpa [hr, hg] using hst)) ⟨State.rd_wr_same _ _ _, (sameElse.refl s _).wr (by simp)⟩
  · exact completes_eq rfl (if_neg (by simp [Nat.not_le.2 hg])) rfl
  · refine completes_eq rfl ?_ rfl
    unfold State.phaseStep
    split
    · rfl
    · rw [if_pos (by simp [hr])]
  · refine ⟨s.phaseStep, rfl, ?_⟩
    unfold State.phaseStep
    simp only [he, hr, Bool.not_true, Bool.false_eq_true, if_false]
    have hcount : ((s.count R.EPC_EVT_PHASE_STEP).setEpc { s.epc with step := none, good := 0 }).rd R.EPC_EVT_PHASE_STEP =
        min (s.rd R.EPC_EVT_PHASE_STEP + 1) 4294967295 := State.rd_count32 s rfl
    have hframe : sameElse s ((s.count R.EPC_EVT_PHASE_STEP).setEpc { s.epc with step := none, good := 0 }) [R.EPC_EVT_PHASE_STEP, R.EPC_STATE_STATE] :=
      ((sameElse.refl s _).count (by simp)).of_eq rfl rfl rfl
    by_cases hlock : s.epState = epLocked
    · rw [if_pos hlock, if_pos hlock]
      exact ⟨(State.rd_wr_ne _ _ (by decide)).trans hcount, rfl, rfl, State.rd_wr_same _ _ _, rfl, hframe.wr (by simp)⟩
    · rw [if_neg hlock, if_neg hlock]
      exact ⟨hcount, rfl, rfl, State.rd_wr_ne s _ (by decide), rfl, hframe⟩

end Sys2Proof.Machine
end

section
/-! O16 to O18: the reset command, the watchdog, and the boot ROM's steps. -/

namespace Sys2Proof.Machine

/-! ### O18: the choice of a slot (R104, R105, R439) -/

/-- Whether an image is a candidate depends on key slot 0 and on the minimum version. -/
theorem State.fwCandidate_congr {s t : State} (hkey : ∀ j, j < 12 → t.rd (R.BOOT_KEY_DIGEST (12 * 0 + j)) = s.rd (R.BOOT_KEY_DIGEST (12 * 0 + j)))
    (hmin : t.rd R.BOOT_MIN_VERSION_VERSION = s.rd R.BOOT_MIN_VERSION_VERSION) (i : ImageCheck) : t.fwCandidate i = s.fwCandidate i := by
  have hdigest : t.keyDigest 0 = s.keyDigest 0 := by
    unfold State.keyDigest
    have hfold : ∀ l : List Nat, (∀ j ∈ l, j < 12) →
        l.foldr (fun j n => t.rd (R.BOOT_KEY_DIGEST (12 * 0 + j)) + 4294967296 * n) 0 =
          l.foldr (fun j n => s.rd (R.BOOT_KEY_DIGEST (12 * 0 + j)) + 4294967296 * n) 0 := by
      intro l hl
      induction l with
      | nil => rfl
      | cons j l ih => rw [List.foldr_cons, List.foldr_cons, ih fun k hk => hl k (List.mem_cons_of_mem _ hk), hkey j (hl j List.mem_cons_self)]
    exact hfold _ fun j hj => List.mem_range.1 hj
  unfold State.fwCandidate State.fwSigOk
  rw [hdigest, hmin]

/-- The state with the check of the slots shown. -/
def State.slotsShown (s : State) (a b : ImageCheck) : State :=
  (((s.wr R.BOOT_STAGE_STAGE stVerify).wrB R.BOOT_IMG_STATE_A_VALID (s.fwCandidate a)).wrB R.BOOT_IMG_STATE_B_VALID (s.fwCandidate b)).bump
    R.BOOT_EVT_VERIFY_FAIL (b2n (a.present && !s.fwSigOk a) + b2n (b.present && !s.fwSigOk b))

theorem State.slotsChecked_eq {s : State} (hp : s.boot.phase = .verify) (hc : s.boot.chosen = none) (a b : ImageCheck) :
    s.slotsChecked a b =
      match (s.slotsShown a b).chooseSlot a b with
      | none => (s.slotsShown a b).enterRecovery
      | some c => ({ s.slotsShown a b with boot := { s.boot with chosen := some c } } : State).handOver := by
  unfold State.slotsChecked
  rw [hp, hc, if_neg (by simp)]
  rfl

theorem State.slotsShown_frame (s : State) (a b : ImageCheck) :
    sameElse s (s.slotsShown a b) [R.BOOT_STAGE_STAGE, R.BOOT_IMG_STATE_A_VALID, R.BOOT_IMG_STATE_B_VALID, R.BOOT_EVT_VERIFY_FAIL] :=
  ((((sameElse.refl s _).wr (by simp)).wrB (by simp)).wrB (by simp)).bump (by simp)

theorem State.slotsShown_candidate (s : State) (a b i : ImageCheck) : (s.slotsShown a b).fwCandidate i = s.fwCandidate i := by
  refine State.fwCandidate_congr (fun j hj => (s.slotsShown_frame a b).read ?_) ((s.slotsShown_frame a b).read (by decide)) i
  simp only [List.forall_mem_cons, List.not_mem_nil, false_imp_iff, implies_true, and_true, Fld.key, R.BOOT_KEY_DIGEST, R.BOOT_STAGE_STAGE,
    R.BOOT_IMG_STATE_A_VALID, R.BOOT_IMG_STATE_B_VALID, R.BOOT_EVT_VERIFY_FAIL]
  omega

/-- What the start of the firmware shows. -/
theorem State.startFw_spec (s : State) {slot : Nat} (hs : slot < 2) (ver : Nat) (fb : Bool) :
    (s.startFw slot ver fb).rd R.BOOT_STAGE_STAGE = stRunFw ∧ (s.startFw slot ver fb).rd R.BOOT_STAGE_SLOT = slot ∧
      (s.startFw slot ver fb).rd R.BOOT_STAGE_FALLBACK = b2n fb ∧ (s.startFw slot ver fb).rd R.BOOT_FW_VERSION_VERSION = ver % 4294967296 ∧
      (s.startFw slot ver fb).boot.phase = .run ∧ (s.startFw slot ver fb).wdog.running = true ∧
      (s.startFw slot ver fb).boot.memClear = s.boot.memClear := by
  have hread (f : Fld) : (s.startFw slot ver fb).rd f =
      (((((s.wr R.BOOT_STAGE_STAGE stRunFw).wr R.BOOT_STAGE_SLOT slot).wrB R.BOOT_STAGE_FALLBACK fb).wr R.BOOT_FW_VERSION_VERSION ver).wr
        R.BOOT_LOAD_STATE_TARGET (1 - slot)).rd f := rfl
  refine ⟨?_, ?_, ?_, ?_, rfl, rfl, rfl⟩ <;> rw [hread]
  · simp (disch := decide) only [State.rd_wr_ne, State.rd_wrB_ne, State.rd_wr_same]
    rfl
  · simp (disch := decide) only [State.rd_wr_ne, State.rd_wrB_ne, State.rd_wr_same]
    exact Nat.mod_eq_of_lt hs
  · simp (disch := decide) only [State.rd_wr_ne, State.rd_wrB_same]
  · simp (disch := decide) only [State.rd_wr_ne, State.rd_wr_same]
    rfl

theorem State.handOver_starts {s : State} {slot ver : Nat} {fb : Bool} (hp : s.boot.phase = .verify) (hc : s.boot.chosen = some (slot, ver, fb))
    (hm : s.boot.memClear = true) : s.handOver = s.startFw slot ver fb := by
  unfold State.handOver
  rw [hp, hc, hm]

theorem State.slotsChecked_starts {s : State} (hp : s.boot.phase = .verify) (hc : s.boot.chosen = none) (hm : s.boot.memClear = true)
    {a b : ImageCheck} {slot ver : Nat} {fb : Bool} (hs : (s.slotsShown a b).chooseSlot a b = some (slot, ver, fb)) :
    ∃ u : State, s.slotsChecked a b = u.startFw slot ver fb := by
  have heq := State.slotsChecked_eq hp hc a b
  simp only [hs] at heq
  exact ⟨_, heq.trans (State.handOver_starts hp rfl hm)⟩

theorem slotVerify_two {a b : ImageCheck} {s : State} (hp : s.boot.phase = .verify) (hc : s.boot.chosen = none) (ha : s.fwCandidate a = true)
    (hb : s.fwCandidate b = true) (hm : s.boot.memClear = true) (hva : a.version < 4294967296) (hvb : b.version < 4294967296) :
    completes (.slotVerifyDone a b) s (fun t =>
      t.rd R.BOOT_STAGE_STAGE = stRunFw ∧ t.boot.phase = .run ∧ t.wdog.running = true ∧
      (s.rd R.BOOT_RESET_CAUSE_WDOG_RUN < 2 →
        t.rd R.BOOT_STAGE_SLOT = (if a.version < b.version then 1 else 0) ∧ t.rd R.BOOT_FW_VERSION_VERSION = max a.version b.version ∧
        t.rd R.BOOT_STAGE_FALLBACK = 0) ∧
      (2 ≤ s.rd R.BOOT_RESET_CAUSE_WDOG_RUN →
        t.rd R.BOOT_STAGE_SLOT = (if a.version < b.version then 0 else 1) ∧ t.rd R.BOOT_STAGE_FALLBACK = 1)) := by
  have hrun : (s.slotsShown a b).rd R.BOOT_RESET_CAUSE_WDOG_RUN = s.rd R.BOOT_RESET_CAUSE_WDOG_RUN := (s.slotsShown_frame a b).read (by decide)
  have hca := (s.slotsShown_candidate a b a).trans ha
  have hcb := (s.slotsShown_candidate a b b).trans hb
  by_cases hfb : 2 ≤ s.rd R.BOOT_RESET_CAUSE_WDOG_RUN
  · obtain ⟨u, heq⟩ := State.slotsChecked_starts (a := a) (b := b) (slot := 1 - if a.version < b.version then 1 else 0) (fb := true) hp hc hm
      (by simp only [State.chooseSlot, hca, hcb, Bool.and_self, if_true, hrun, hfb, decide_true]; rfl)
    obtain ⟨h1, h2, h3, -, h5, h6, -⟩ := u.startFw_spec (slot := 1 - if a.version < b.version then 1 else 0) (by split <;> decide) _ true
    refine completes_eq rfl heq ⟨h1, h5, h6, fun h => by omega, fun _ => ⟨h2.trans ?_, h3⟩⟩
    split <;> rfl
  · obtain ⟨u, heq⟩ := State.slotsChecked_starts (a := a) (b := b) (slot := if a.version < b.version then 1 else 0) (fb := false) hp hc hm
      (by simp only [State.chooseSlot, hca, hcb, Bool.and_self, if_true, hrun, hfb, decide_false, Bool.false_eq_true, if_false]; rfl)
    obtain ⟨h1, h2, h3, h4, h5, h6, -⟩ := u.startFw_spec (slot := if a.version < b.version then 1 else 0) (by split <;> decide) _ false
    refine completes_eq rfl heq ⟨h1, h5, h6, fun _ => ⟨h2, h4.trans ?_, h3⟩, fun h => absurd h hfb⟩
    by_cases hlt : a.version < b.version
    · simp only [hlt, if_true, Nat.one_ne_zero, if_false]
      omega
    · simp only [hlt, if_false, if_true]
      omega

theorem slotVerify_none {a b : ImageCheck} {s : State} (hp : s.boot.phase = .verify) (hc : s.boot.chosen = none) (ha : s.fwCandidate a = false)
    (hb : s.fwCandidate b = false) :
    completes (.slotVerifyDone a b) s (fun t =>
      t.rd R.BOOT_STAGE_STAGE = stRecovery ∧ t.boot.phase = .recovery ∧ t.rd R.BOOT_LOAD_STATE_TARGET = 0) := by
  have hca := (s.slotsShown_candidate a b a).trans ha
  have hcb := (s.slotsShown_candidate a b b).trans hb
  have heq := State.slotsChecked_eq hp hc a b
  simp only [State.chooseSlot, hca, hcb, Bool.and_self, Bool.false_eq_true, if_false] at heq
  refine completes_eq rfl heq ⟨?_, rfl, ?_⟩
  · exact (State.rd_wr_ne ((s.slotsShown a b).wr R.BOOT_STAGE_STAGE stRecovery) 0 (by decide)).trans (State.rd_wr_same _ _ _)
  · exact State.rd_wr_same ((s.slotsShown a b).wr R.BOOT_STAGE_STAGE stRecovery) R.BOOT_LOAD_STATE_TARGET 0

/-- Settles O18: the choice by `State.slotsChecked_eq`, the start of the firmware by `State.startFw_spec`. -/
theorem slotChoiceAndHandOver : Obligations.SlotChoiceAndHandOver := by
  intro a b s hp hc
  refine ⟨fun ha hb hm hva hvb => slotVerify_two hp hc ha hb hm hva hvb, fun ha hb => slotVerify_none hp hc ha hb, fun u slot ver fb hs hp hc => ?_⟩
  have heq : u.memoriesClear = ({ u with boot := { u.boot with memClear := true } } : State).startFw slot ver fb := State.handOver_starts hp hc rfl
  obtain ⟨h1, h2, -, -, h5, h6, h7⟩ := State.startFw_spec { u with boot := { u.boot with memClear := true } } hs ver fb
  exact completes_eq rfl heq ⟨h1, h2, h5, h6, h7⟩

/-! ### O17: the reference, the keys, and the root PLL (R89, R102, R103, R105, R107) -/

theorem keyDigest_inj {i j : Nat} (h : i ≠ j) : (R.BOOT_KEY_DIGEST i).key ≠ (R.BOOT_KEY_DIGEST j).key := by
  simp only [Fld.key, R.BOOT_KEY_DIGEST]
  omega

/-- A key slot that is written holds the digest, dword by dword; the other slots stay. -/
theorem State.rd_writeKey (s : State) (k d i : Nat) :
    (s.writeKey k d).rd (R.BOOT_KEY_DIGEST i) = if i / 12 = k then digestWord d (i % 12) else s.rd (R.BOOT_KEY_DIGEST i) := by
  have hstep : ∀ n, n ≤ 12 → (forN n (fun j (a : State) => a.wr (R.BOOT_KEY_DIGEST (12 * k + j)) (digestWord d j)) s).rd (R.BOOT_KEY_DIGEST i) =
      if i / 12 = k ∧ i % 12 < n then digestWord d (i % 12) else s.rd (R.BOOT_KEY_DIGEST i) := by
    intro n hn
    induction n with
    | zero => simp [forN]
    | succ n ih =>
      rw [forN_succ]
      by_cases hi : i = 12 * k + n
      · subst hi
        rw [State.rd_wr_same, if_pos (by omega), show (12 * k + n) % 12 = n by omega]
        exact Nat.mod_eq_of_lt (Nat.mod_lt _ (by decide))
      · rw [State.rd_wr_ne _ _ (keyDigest_inj hi), ih (by omega)]
        exact if_congr (by omega) rfl rfl
  rw [State.writeKey, hstep 12 (Nat.le_refl _)]
  exact if_congr (by omega) rfl rfl

/-- Writing a key slot leaves every field that is no key, and everything that is no register. -/
theorem State.writeKey_rest (s : State) (k d : Nat) :
    (∀ f : Fld, (∀ i, f.key ≠ (R.BOOT_KEY_DIGEST i).key) → (s.writeKey k d).rd f = s.rd f) ∧ (s.writeKey k d).eng = s.eng ∧
      (s.writeKey k d).bus = s.bus ∧ (s.writeKey k d).pins = s.pins ∧ (s.writeKey k d).boot = s.boot :=
  forN_inv (fun a : State => (∀ f : Fld, (∀ i, f.key ≠ (R.BOOT_KEY_DIGEST i).key) → a.rd f = s.rd f) ∧ a.eng = s.eng ∧ a.bus = s.bus ∧
    a.pins = s.pins ∧ a.boot = s.boot) ⟨fun _ _ => rfl, rfl, rfl, rfl, rfl⟩
    fun _ _ ⟨h1, h2, h3, h4, h5⟩ => ⟨fun f hf => (State.rd_wr_ne _ _ (hf _)).trans (h1 f hf), h2, h3, h4, h5⟩

/-- The state whose four key slots are written. -/
def State.keysWritten (s : State) (r : BootRecord) : State :=
  (((s.writeKey 0 Config.maskRomDigest).writeKey 1 (r.digests.getD 0 0)).writeKey 2 (r.digests.getD 1 0)).writeKey 3 (r.digests.getD 2 0)

theorem State.keysWritten_rest (s : State) (r : BootRecord) :
    (∀ f : Fld, (∀ i, f.key ≠ (R.BOOT_KEY_DIGEST i).key) → (s.keysWritten r).rd f = s.rd f) ∧ (s.keysWritten r).eng = s.eng ∧
      (s.keysWritten r).bus = s.bus ∧ (s.keysWritten r).pins = s.pins ∧ (s.keysWritten r).boot = s.boot := by
  unfold State.keysWritten
  obtain ⟨a1, a2, a3, a4, a5⟩ := s.writeKey_rest 0 Config.maskRomDigest
  generalize s.writeKey 0 Config.maskRomDigest = a at *
  obtain ⟨b1, b2, b3, b4, b5⟩ := a.writeKey_rest 1 (r.digests.getD 0 0)
  generalize a.writeKey 1 (r.digests.getD 0 0) = b at *
  obtain ⟨c1, c2, c3, c4, c5⟩ := b.writeKey_rest 2 (r.digests.getD 1 0)
  generalize b.writeKey 2 (r.digests.getD 1 0) = c at *
  obtain ⟨d1, d2, d3, d4, d5⟩ := c.writeKey_rest 3 (r.digests.getD 2 0)
  exact ⟨fun f hf => (d1 f hf).trans ((c1 f hf).trans ((b1 f hf).trans (a1 f hf))), d2.trans (c2.trans (b2.trans a2)),
    d3.trans (c3.trans (b3.trans a3)), d4.trans (c4.trans (b4.trans a4)), d5.trans (c5.trans (b5.trans a5))⟩

theorem State.rd_keysWritten (s : State) (r : BootRecord) {k j : Nat} (hk : k < 3) (hj : j < 12) :
    (s.keysWritten r).rd (R.BOOT_KEY_DIGEST (12 * (k + 1) + j)) = digestWord (r.digests.getD k 0) j := by
  unfold State.keysWritten
  simp only [State.rd_writeKey]
  have h12 : (12 * (k + 1) + j) / 12 = k + 1 := by omega
  have hm : (12 * (k + 1) + j) % 12 = j := by omega
  rw [h12, hm]
  obtain rfl | rfl | rfl : k = 0 ∨ k = 1 ∨ k = 2 := by omega
  all_goals simp

/-- The record that the boot ROM goes by. -/
def State.romRecord (s : State) : BootRecord :=
  match s.bootRecord with
  | some p => p.1
  | none => { seq := 0, digests := [0, 0, 0], debugLock := true, minVersion := 0, ok := false }

/-- What the boot ROM's reading of the record leaves behind. -/
theorem State.bootKeys_spec (s : State) :
    (∀ k j, k < 3 → j < 12 → s.bootKeys.rd (R.BOOT_KEY_DIGEST (12 * (k + 1) + j)) = digestWord (s.romRecord.digests.getD k 0) j) ∧
      s.bootKeys.rd R.BOOT_DEBUG_DEBUG_LOCK = b2n s.romRecord.debugLock ∧ s.bootKeys.rd R.BOOT_STAGE_STAGE = stKeys ∧
      s.bootKeys.rd R.CLK_REF_SRC = s.rd R.CLK_REF_SRC ∧ s.bootKeys.eng = s.eng ∧ s.bootKeys.pins = s.pins ∧ s.bootKeys.bus.isOpen = true ∧
      (∀ j, j < 48 → s.bootKeys.bus.w1.contains (R.BOOT_KEY_DIGEST j).key = true) ∧
      s.bootKeys.bus.w1.contains R.BOOT_DEBUG_DEBUG_LOCK.key = true := by
  obtain ⟨hrd, heng, hbus, hpins, hboot⟩ := s.keysWritten_rest s.romRecord
  unfold State.bootKeys
  extract_lets r rec_ s1 s2 s3 s4
  have hs1 : s1 = s.keysWritten s.romRecord := rfl
  have hrec : rec_ = s.romRecord := rfl
  have h3 : sameElse s2 s3 [R.BOOT_IMG_STATE_REC_COPY, R.BOOT_IMG_STATE_REC_BAD] ∧ s3.eng = s1.eng ∧ s3.pins = s1.pins := by
    clear_value s1 rec_
    have hs2 : s2.eng = s1.eng ∧ s2.pins = s1.pins := ⟨rfl, rfl⟩
    clear_value s2
    dsimp only [s3]
    clear_value r
    cases r with
    | some p => exact ⟨(sameElse.refl _ _).wr (by simp), hs2⟩
    | none => exact ⟨(sameElse.refl _ _).wr (by simp), hs2⟩
  obtain ⟨hf3, he3, hp3⟩ := h3
  have h4 (f : Fld) (h1 : f.key ≠ R.BOOT_STAGE_STAGE.key) (h2 : f.key ≠ R.BOOT_IMG_STATE_REC_COPY.key) (h3 : f.key ≠ R.BOOT_IMG_STATE_REC_BAD.key) :
      s4.rd f = s2.rd f := (State.rd_wr_ne _ _ h1).trans (hf3.read (by simp [h2, h3]))
  have h12 (f : Fld) (h1 : f.key ≠ R.BOOT_STAGE_STAGE.key) (h2 : f.key ≠ R.BOOT_IMG_STATE_REC_COPY.key) (h3 : f.key ≠ R.BOOT_IMG_STATE_REC_BAD.key)
      (h5 : f.key ≠ R.BOOT_MIN_VERSION_VERSION.key) (h6 : f.key ≠ R.BOOT_DEBUG_DEBUG_LOCK.key) : s4.rd f = s1.rd f :=
    (h4 f h1 h2 h3).trans ((State.rd_wr_ne _ _ h5).trans (State.rd_wrB_ne _ _ h6))
  refine ⟨fun k j hk hj => ?_, ?_, State.rd_wr_same s3 _ _, ?_, he3.trans (hs1 ▸ heng), hp3.trans (hs1 ▸ hpins), rfl, fun j hj => ?_, ?_⟩
  · refine (h12 _ ?_ ?_ ?_ ?_ ?_).trans (hs1 ▸ s.rd_keysWritten s.romRecord hk hj) <;>
      simp only [Fld.key, R.BOOT_KEY_DIGEST, R.BOOT_STAGE_STAGE, R.BOOT_IMG_STATE_REC_COPY, R.BOOT_IMG_STATE_REC_BAD, R.BOOT_MIN_VERSION_VERSION,
        R.BOOT_DEBUG_DEBUG_LOCK] <;> omega
  · exact (h4 _ (by decide) (by decide) (by decide)).trans ((State.rd_wr_ne _ _ (by decide)).trans (State.rd_wrB_same _ _ _ Nat.one_pos))
  · refine (h12 _ (by decide) (by decide) (by decide) (by decide) (by decide)).trans (hs1 ▸ hrd _ fun i => ?_)
    simp only [Fld.key, R.BOOT_KEY_DIGEST, R.CLK_REF_SRC]
    omega
  · refine List.contains_iff_mem.2 (List.mem_cons_of_mem _ (List.mem_append_left _ (List.mem_map.2 ⟨j, List.mem_range.2 hj, rfl⟩)))
  · exact List.contains_iff_mem.2 List.mem_cons_self

theorem State.mgtResume_idle {s : State} (h : s.eng.pwr.stretch = false) : s.mgtResume = s := by
  unfold State.mgtResume
  rw [if_pos (by simp [h])]

/-- The boot ROM goes on with a reference. -/
theorem State.refFound_spec (s : State) {src : Nat} (hsrc : src < 2) (hst : s.eng.pwr.stretch = false) :
    let t := (((s.wr R.CLK_REF_SRC src).bootKeys).bootPll).mgtResume
    t.rd R.CLK_REF_SRC = src ∧ t.pins = s.pins ∧ t.bus.isOpen = true ∧ t.rd R.BOOT_STAGE_STAGE = stKeys ∧ t.rd R.CLK_PLL_EN_ROOT_EN = 1 ∧
      t.boot.phase = .pllWait ∧
      (∀ k j, k < 3 → j < 12 → t.rd (R.BOOT_KEY_DIGEST (12 * (k + 1) + j)) = digestWord (s.romRecord.digests.getD k 0) j) ∧
      t.rd R.BOOT_DEBUG_DEBUG_LOCK = b2n s.romRecord.debugLock ∧ (∀ j, j < 48 → t.bus.w1.contains (R.BOOT_KEY_DIGEST j).key = true) ∧
      t.bus.w1.contains R.BOOT_DEBUG_DEBUG_LOCK.key = true := by
  obtain ⟨h1, h2, h3, h4, h5, h6, h7, h8, h9⟩ := (s.wr R.CLK_REF_SRC src).bootKeys_spec
  have hpll (f : Fld) (hf : f.key ≠ R.CLK_PLL_EN_ROOT_EN.key) : (s.wr R.CLK_REF_SRC src).bootKeys.bootPll.rd f = (s.wr R.CLK_REF_SRC src).bootKeys.rd f :=
    State.rd_wr_ne _ _ hf
  have hrec : (s.wr R.CLK_REF_SRC src).romRecord = s.romRecord := rfl
  intro t
  have ht : t = (s.wr R.CLK_REF_SRC src).bootKeys.bootPll :=
    State.mgtResume_idle ((congrArg (fun e : Engines => e.pwr.stretch) h5).trans hst)
  rw [ht]
  generalize (s.wr R.CLK_REF_SRC src).bootKeys = u at *
  refine ⟨?_, h6, h7, ?_, State.rd_wr_same u _ _, rfl, fun k j hk hj => ?_, ?_, h8, h9⟩
  · rw [hpll _ (by decide), h4, State.rd_wr_same]
    exact Nat.mod_eq_of_lt hsrc
  · rw [hpll _ (by decide), h3]
  · rw [hpll _ (by simp only [Fld.key, R.BOOT_KEY_DIGEST, R.CLK_PLL_EN_ROOT_EN]; omega), h1 k j hk hj, hrec]
  · rw [hpll _ (by decide), h2, hrec]

theorem State.refDetect_refclk {s : State} {edges : Nat} {xtal : Bool} (hp : s.boot.phase = .detect) (h1 : 1950 ≤ edges) (h2 : edges ≤ 2050) :
    s.refDetect edges xtal =
      ((((({ s with pins := { s.pins with refclkOk := true, xtalOk := false } } : State).wr R.CLK_REF_SRC 0).bootKeys).bootPll).mgtResume) := by
  unfold State.refDetect
  rw [hp, if_neg (by simp)]
  simp only [h1, h2, and_self, decide_true, if_true, Bool.not_true, Bool.false_and]

theorem State.refDetect_xtal {s : State} {edges : Nat} (hp : s.boot.phase = .detect) (h : edges < 1950 ∨ 2050 < edges) :
    s.refDetect edges true =
        ((((({ s with pins := { s.pins with refclkOk := false, xtalOk := true } } : State).wr R.CLK_REF_SRC 1).bootKeys).bootPll).mgtResume) ∧
      s.refDetect edges false = ({ s with pins := { s.pins with refclkOk := false, xtalOk := false } } : State).wr R.BOOT_STAGE_STAGE stNoref := by
  have hband : decide (1950 ≤ edges ∧ edges ≤ 2050) = false := decide_eq_false (by omega)
  constructor
  · rw [State.refDetect, hp, if_neg (by simp)]
    simp only [hband, Bool.false_eq_true, if_false, if_true, Bool.not_false, Bool.true_and]
  · rw [State.refDetect, hp, if_neg (by simp)]
    simp only [hband, Bool.false_eq_true, if_false, Bool.and_false]

/-- Settles O17: the choice of a reference, then `State.refFound_spec`; the retries of the root PLL from their definition. -/
theorem referencePllAndBootKeys : Obligations.ReferencePllAndBootKeys := by
  refine ⟨fun s hst => ⟨fun edges xtal hp h1 h2 => ?_, fun edges hp h => ⟨?_, ?_⟩, fun hp hlock => ?_⟩, fun edges xtal s hst hp h1 h2 => ?_⟩
  · obtain ⟨r1, r2, r3, r4, r5, r6, -⟩ :=
      State.refFound_spec ({ s with pins := { s.pins with refclkOk := true, xtalOk := false } } : State) (src := 0) (by decide) hst
    exact completes_eq rfl (State.refDetect_refclk hp h1 h2) ⟨r1, by rw [r2], r3, r4, r5, r6⟩
  · obtain ⟨r1, -, r3, -, r5, r6, -⟩ :=
      State.refFound_spec ({ s with pins := { s.pins with refclkOk := false, xtalOk := true } } : State) (src := 1) (by decide) hst
    exact completes_eq rfl (State.refDetect_xtal hp h).1 ⟨r1, r3, r5, r6⟩
  · have hpins : sameElse s ({ s with pins := { s.pins with refclkOk := false, xtalOk := false } } : State) [R.BOOT_STAGE_STAGE] :=
      (sameElse.refl s _).of_eq rfl rfl rfl
    exact completes_eq rfl (State.refDetect_xtal hp h).2 ⟨State.rd_wr_same _ _ _, hp, hpins.wr (by simp)⟩
  · have hgo : (s.boot.phase ≠ .pllWait || s.on R.CLK_PLL_ROOT_LOCK) = false := by simp [hp, State.on, hlock]
    by_cases ht : s.boot.pllTries < 3
    · refine completes_eq rfl (by rw [State.pllTimeout, hgo, if_neg Bool.false_ne_true, if_pos ht]) ?_
      rw [if_pos ht]
      exact ⟨rfl, hp, (sameElse.refl s _).of_eq rfl rfl rfl⟩
    · refine completes_eq rfl (by rw [State.pllTimeout, hgo, if_neg Bool.false_ne_true, if_neg ht]) ?_
      rw [if_neg ht]
      exact ⟨State.rd_wr_same s _ _, rfl, ((sameElse.refl s _).wr (by simp)).of_eq rfl rfl rfl⟩
  · obtain ⟨-, -, -, -, -, -, r7, r8, r9, r10⟩ :=
      State.refFound_spec ({ s with pins := { s.pins with refclkOk := true, xtalOk := false } } : State) (src := 0) (by decide) hst
    refine completes_eq rfl (State.refDetect_refclk hp h1 h2) ⟨fun k j hk hj => (r7 k j hk hj).trans ?_, r8.trans ?_, r9, r10⟩
    · change digestWord (s.romRecord.digests.getD k 0) j = _
      unfold State.romRecord
      cases s.bootRecord with
      | some p => rfl
      | none =>
        obtain rfl | rfl | rfl : k = 0 ∨ k = 1 ∨ k = 2 := by omega
        all_goals simp [digestWord]
    · change b2n s.romRecord.debugLock = _
      unfold State.romRecord
      cases s.bootRecord <;> rfl

end Sys2Proof.Machine
end

section
/-! O16: the reset command, the watchdog's count and its period, and the release from reset. -/

namespace Sys2Proof.Machine

/-- A SET write of a command field that is reached: what the command answers, with the refusal (if any) counted. -/
theorem State.command_runs {s u : State} {path : Path} {f : Fld} {v a : Nat} {b : Blk} {w raw : Nat} {l : List Fld} {high : Bool} {rs : List Nat}
    (hr : s.reaches path f .set) (ha : viewAddr f .set / 4 * 4 = a) (hlt : a < 0x100000) (hb : winBlk (a / 16384) = some (b, w))
    (hl : fldsAt b s.build w (a % 4096) = some (l, high)) (hp : l.all Fld.passive = true) (hc : l.any (fun f => f.cls = .cm) = true)
    (hv : viewAt a = .set) (ho : a % 4096 ≠ 4) (hi : ∀ e ∈ instOf b w (a % 4096), e.2.addr % 4096 ≠ a % 4096) (hthm : b ≠ .THM)
    (hraw : v * 2 ^ f.lsb % 4294967296 = raw) (hu : s.cmWrite ⟨b, w, a % 4096, path, .set, raw⟩ = (u, rs)) :
    s.command path .set f v = (u.counted ⟨b, w, a % 4096, path, .set, raw⟩ rs).calCheck.answered path := by
  have hnat : (BitVec.ofNat 32 (v * 2 ^ f.lsb)).toNat = raw := hraw
  have h := State.pathWrite_commands (v := BitVec.ofNat 32 (v * 2 ^ f.lsb)) (u := u) (rs := rs) hr ha hlt hb hl hp hc (.inr hv) ho hi hthm (by rw [hv, hnat]; exact hu)
  rw [hv, hnat] at h
  exact h

theorem fldsAt_reset (b : Build) : fldsAt .BOOT b 0 0x2C = some ([R.BOOT_RESET_FULL, R.BOOT_RESET_ARM], false) := by cases b <;> rfl
theorem fldsAt_kick (b : Build) : fldsAt .BOOT b 0 0x54 = some ([R.BOOT_WDOG_KICK_KICK], false) := by cases b <;> rfl
theorem fldsAt_wdogCfg (b : Build) : fldsAt .BOOT b 0 0x50 = some ([R.BOOT_WDOG_CFG_PERIOD], false) := by cases b <;> rfl

theorem State.cmWrite_reset (s : State) (path : Path) (raw : Nat) :
    s.cmWrite ⟨.BOOT, 0, 0x2C, path, .set, raw⟩ = s.resetCmd (bitOf raw 0) (bitOf raw 1) := rfl

theorem State.cmWrite_kick (s : State) (path : Path) (raw : Nat) :
    s.cmWrite ⟨.BOOT, 0, 0x54, path, .set, raw⟩ = if bitOf raw 0 then (s.kickWdog, []) else (s, []) := rfl

theorem State.command_arm {s u : State} {path : Path} {rs : List Nat} (hr : s.reaches path R.BOOT_RESET_ARM .set)
    (hu : s.resetCmd false true = (u, rs)) :
    s.command path .set R.BOOT_RESET_ARM 1 = (u.counted ⟨.BOOT, 0, 0x2C, path, .set, 2⟩ rs).calCheck.answered path :=
  State.command_runs (a := 0x902C) hr rfl (by decide) rfl (fldsAt_reset s.build) (by decide) (by decide) (by decide) (by decide) (by decide)
    (by decide) (by decide) ((State.cmWrite_reset s path 2).trans hu)

theorem State.command_full {s u : State} {path : Path} {rs : List Nat} (hr : s.reaches path R.BOOT_RESET_FULL .set)
    (hu : s.resetCmd true false = (u, rs)) :
    s.command path .set R.BOOT_RESET_FULL 1 = (u.counted ⟨.BOOT, 0, 0x2C, path, .set, 1⟩ rs).calCheck.answered path :=
  State.command_runs (a := 0x902C) hr rfl (by decide) rfl (fldsAt_reset s.build) (by decide) (by decide) (by decide) (by decide) (by decide)
    (by decide) (by decide) ((State.cmWrite_reset s path 1).trans hu)

/-- What the check of coverage and the answer to a path keep of what is no register. -/
theorem State.calCheck_answered_rest (s : State) (path : Path) :
    (s.calCheck.answered path).boot = s.boot ∧ (s.calCheck.answered path).wdog = s.wdog ∧ (s.calCheck.answered path).bus.w1 = s.bus.w1 := by
  obtain ⟨d, c, h⟩ := s.calCheck_rest
  cases path <;> exact ⟨by rw [h]; rfl, by rw [h]; rfl, by rw [h]; rfl⟩

theorem resetArm_completes {s : State} {path : Path} (hr : s.reaches path R.BOOT_RESET_ARM .set) :
    completes (.arm path .set) s (fun t => t.rd R.BOOT_RESET_ARM = 1 ∧ t.boot = s.boot ∧ sameElse s t ([R.BOOT_RESET_ARM] ++ calFlds)) := by
  have heq := State.command_arm (u := s.wr R.BOOT_RESET_ARM 1) (rs := []) hr rfl
  rw [State.counted_nil] at heq
  refine completes_eq rfl heq ⟨?_, (State.calCheck_answered_rest _ path).1, (((sameElse.refl s _).wr (by simp)).calCheck).answered path⟩
  rw [State.rd_answered, State.rd_calCheck _ (by decide) (by decide) (by decide)]
  exact State.rd_wr_same s _ _

theorem resetFull_taken {s : State} {path : Path} (hr : s.reaches path R.BOOT_RESET_FULL .set) (ha : s.rd R.BOOT_RESET_ARM = 1)
    (hf : s.rd R.BOOT_RESET_FULL = 0) :
    completes (.full path .set) s (fun t =>
      t.rd R.BOOT_RESET_FULL = 1 ∧ t.rd R.BOOT_RESET_ARM = 0 ∧ t.boot.due = some .cmd ∧
      sameElse s t ([R.BOOT_RESET_FULL, R.BOOT_RESET_ARM] ++ calFlds)) := by
  have hu : s.resetCmd true false =
      ({ (s.wr R.BOOT_RESET_FULL 1).wr R.BOOT_RESET_ARM 0 with boot := { s.boot with due := some .cmd } }, []) := by
    unfold State.resetCmd
    simp [State.on, ha, hf]
  have heq := State.command_full hr hu
  rw [State.counted_nil] at heq
  have hframe : sameElse s ({ (s.wr R.BOOT_RESET_FULL 1).wr R.BOOT_RESET_ARM 0 with boot := { s.boot with due := some .cmd } } : State)
      [R.BOOT_RESET_FULL, R.BOOT_RESET_ARM] := (((sameElse.refl s _).wr (by simp)).wr (by simp)).of_eq rfl rfl rfl
  refine completes_eq rfl heq ⟨?_, ?_, ?_, hframe.calCheck.answered path⟩
  · rw [State.rd_answered, State.rd_calCheck _ (by decide) (by decide) (by decide)]
    exact (State.rd_wr_ne (s.wr R.BOOT_RESET_FULL 1) 0 (by decide)).trans (State.rd_wr_same s _ _)
  · rw [State.rd_answered, State.rd_calCheck _ (by decide) (by decide) (by decide)]
    exact State.rd_wr_same (s.wr R.BOOT_RESET_FULL 1) _ _
  · rw [(State.calCheck_answered_rest _ path).1]

theorem resetFull_unarmed {s : State} {path : Path} (hr : s.reaches path R.BOOT_RESET_FULL .set) (ha : s.rd R.BOOT_RESET_ARM = 0) :
    completes (.full path .set) s (fun t =>
      t.rd R.BOOT_RESET_FULL = s.rd R.BOOT_RESET_FULL ∧ t.boot = s.boot ∧ t.rd (R.IGN_REASON 0x8000) = 16 ∧
      t.rd (R.EVT_CFG_IGN 0x8000) = min (s.rd (R.EVT_CFG_IGN 0x8000) + 1) 4294967295) := by
  have hu : s.resetCmd true false = (s, [16]) := by
    unfold State.resetCmd
    simp [State.on, ha]
  have heq := State.command_full hr hu
  rw [State.counted_one] at heq
  have hframe := (((State.ignored_frame s 0x8000 0x2C (View.code .set) (Path.code path) 16).calCheck).answered path)
  refine completes_eq rfl heq ⟨hframe.read (by decide), ?_, ?_, ?_⟩
  · rw [(State.calCheck_answered_rest _ path).1]
    rfl
  · rw [State.rd_answered, State.rd_calCheck _ (by decide) (by decide) (by decide)]
    exact State.rd_ignored_reason s _ _ _ _ 16
  · rw [State.rd_answered, State.rd_calCheck _ (by decide) (by decide) (by decide)]
    exact State.rd_ignored_count s _ _ _ _ 16

theorem wdogKick_completes {s : State} {path : Path} (hr : s.reaches path R.BOOT_WDOG_KICK_KICK .set) (hrun : s.wdog.running = true) :
    completes (.wdogKick path .set) s (fun t =>
      t.wdog.leftNs = s.wdog.periodMs * 1000000 ∧ t.wdog.running = true ∧ sameElse s t calFlds) := by
  have heq : s.command path .set R.BOOT_WDOG_KICK_KICK 1 = (s.kickWdog.counted ⟨.BOOT, 0, 0x54, path, .set, 1⟩ []).calCheck.answered path :=
    State.command_runs (a := 0x9054) hr rfl (by decide) rfl (fldsAt_kick s.build) (by decide) (by decide) (by decide) (by decide) (by decide)
      (by decide) (by decide) ((State.cmWrite_kick s path 1).trans (if_pos (by decide)))
  rw [State.counted_nil, State.kickWdog, if_pos hrun] at heq
  have hframe : sameElse s ({ s with wdog := { s.wdog with leftNs := s.wdog.periodMs * 1000000 } } : State) [] := (sameElse.refl s _).of_eq rfl rfl rfl
  refine completes_eq rfl heq ⟨?_, ?_, hframe.calCheck.answered path⟩
  · rw [(State.calCheck_answered_rest _ path).2.1]
  · rw [(State.calCheck_answered_rest _ path).2.1]
    exact hrun

/-- The fields with a rule of their own for what a write stores. -/
def storeFlds : List Fld :=
  [R.CRN_CTRL_LAMP_EN, R.EPC_PERIOD_NS, R.ETH_DT_MAC_LO_MAC, R.ETH_DT_MAC_HI_MAC, R.ETH_DT_MAC_HI_VID, R.ETH_DT_MAC_HI_ANYVID, R.ETH_DT_ACT_NODE,
    R.ETH_DT_ACT_PORT, R.ETH_DT_ACT_DIR, R.ETH_DT_ACT_VALID]

/-- A field without a rule of its own takes the value as it is. -/
theorem State.store_plain (s : State) {f : Fld} (v : Nat) (h : f ∉ storeFlds) : s.store f v = s.wr f v := by
  simp only [storeFlds, List.mem_cons, List.not_mem_nil, not_or, not_false_eq_true, and_true] at h
  obtain ⟨h1, h2, h3, h4, h5, h6, h7, h8, h9, h10⟩ := h
  unfold State.store
  rw [if_neg h1, if_neg h2, if_neg h3, if_neg h4, if_neg h5, if_neg h6, if_neg h7, if_neg h8, if_neg h9, if_neg h10]

theorem oneField_wdogCfg : OneField .BOOT 0 0x50 R.BOOT_WDOG_CFG_PERIOD := by
  constructor <;> decide

theorem State.kickWdog_running {s : State} (h : s.wdog.running = true) :
    s.kickWdog.wdog.periodMs = s.wdog.periodMs ∧ s.kickWdog.wdog.leftNs = s.wdog.periodMs * 1000000 ∧
      (∀ f, s.kickWdog.rd f = s.rd f) ∧ s.kickWdog.bus = s.bus := by
  rw [State.kickWdog, if_pos h]
  exact ⟨rfl, rfl, fun _ => rfl, rfl⟩

/-- The first write of the watchdog's period: the period in force is the one written, and a watchdog that runs begins anew. -/
theorem State.wdogCfgTaken_spec {s : State} (hrun : s.wdog.running = true) :
    s.wdogCfgTaken.wdog.periodMs = s.rd R.BOOT_WDOG_CFG_PERIOD ∧ s.wdogCfgTaken.wdog.leftNs = s.rd R.BOOT_WDOG_CFG_PERIOD * 1000000 ∧
      s.wdogCfgTaken.rd R.BOOT_WDOG_CFG_PERIOD = s.rd R.BOOT_WDOG_CFG_PERIOD ∧ s.wdogCfgTaken.bus = s.bus := by
  unfold State.wdogCfgTaken
  by_cases h : s.stage = stRunFw
  · simp only [if_pos h]
    obtain ⟨k1, k2, k3, k4⟩ := State.kickWdog_running
      (s := ({ s with wdog := { s.wdog with periodMs := s.rd R.BOOT_WDOG_CFG_PERIOD, cfgDone := true } } : State).wr R.BOOT_RESET_CAUSE_WDOG_RUN 0) hrun
    exact ⟨k1, k2, (k3 _).trans (State.rd_wr_ne s _ (by decide)), k4⟩
  · simp only [if_neg h]
    obtain ⟨k1, k2, k3, k4⟩ := State.kickWdog_running
      (s := ({ s with wdog := { s.wdog with periodMs := s.rd R.BOOT_WDOG_CFG_PERIOD, cfgDone := true } } : State)) hrun
    exact ⟨k1, k2, k3 _, k4⟩

/-- The state that holds the written period, written once. -/
def State.wdogCfgStored (s : State) (v : Nat) : State :=
  { (s.wr R.BOOT_WDOG_CFG_PERIOD v).soil with bus := { s.bus with w1 := R.BOOT_WDOG_CFG_PERIOD.key :: s.bus.w1 } }

theorem wdogCfg_written {s : State} {path : Path} {v : Word} (hr : s.reaches path R.BOOT_WDOG_CFG_PERIOD .base) (hlock : s.rd (R.LOCK 0x8000) = 0)
    (hw : s.bus.w1.contains R.BOOT_WDOG_CFG_PERIOD.key = false) (h1 : 10 ≤ v.toNat) (h2 : v.toNat < 65536) (hrun : s.wdog.running = true) :
    completes (.wdogCfgWrite path .base v) s (fun t =>
      t.rd R.BOOT_WDOG_CFG_PERIOD = v.toNat ∧ t.wdog.periodMs = v.toNat ∧ t.wdog.leftNs = v.toNat * 1000000 ∧
      t.bus.w1.contains R.BOOT_WDOG_CFG_PERIOD.key = true) := by
  have hres : (⟨.BOOT, 0, 0x50, path, .base, v.toNat⟩ : Wr).result R.BOOT_WDOG_CFG_PERIOD (s.see R.BOOT_WDOG_CFG_PERIOD) = v.toNat := by
    rw [Wr.result_base rfl]
    change v.toNat / 1 % 65536 = v.toNat
    omega
  have hj : s.judge ⟨.BOOT, 0, 0x50, path, .base, v.toNat⟩ false R.BOOT_WDOG_CFG_PERIOD = .take v.toNat := by
    have hl : s.on (R.LOCK (Wr.pg ⟨.BOOT, 0, 0x50, path, .base, v.toNat⟩)) = false := by
      refine decide_eq_false ?_
      change s.rd (R.LOCK 0x8000) ≠ 1
      omega
    have hclosed : s.closed R.BOOT_WDOG_CFG_PERIOD v.toNat = none := by
      unfold State.closed
      rw [if_neg (by simp [R.BOOT_WDOG_CFG_PERIOD, R.CLK_PLL_EN_ROOT_EN]),
        if_neg (by simp [R.BOOT_WDOG_CFG_PERIOD, R.BOOT_LOAD_PTR_OFFSET, R.BOOT_LOAD_DATA_DATA]),
        if_neg (by simp [R.BOOT_WDOG_CFG_PERIOD, R.EPC_PERIOD_NS])]
    have hrange : s.rangeBad ⟨.BOOT, 0, 0x50, path, .base, v.toNat⟩ R.BOOT_WDOG_CFG_PERIOD v.toNat = false := by
      have hextra : s.rangeExtra ⟨.BOOT, 0, 0x50, path, .base, v.toNat⟩ R.BOOT_WDOG_CFG_PERIOD v.toNat = false := by
        simp [State.rangeExtra]
      rw [State.rangeBad, hextra]
      exact Bool.or_eq_false_iff.2 ⟨Bool.or_eq_false_iff.2 ⟨decide_eq_false (Nat.not_lt.2 h1), decide_eq_false (Nat.not_lt.2 (Nat.le_of_lt_succ h2))⟩, rfl⟩
    rw [State.judge_w1 rfl hl hw, hres, State.judgeValue, hclosed]
    have hly : s.lyBaseBad ⟨.BOOT, 0, 0x50, path, .base, v.toNat⟩ R.BOOT_WDOG_CFG_PERIOD v.toNat = none := rfl
    simp only [hly, hrange, Bool.false_eq_true, if_false]
  have heq := State.pathWrite_takes (a := 0x8050) hr rfl (by decide) rfl (fldsAt_wdogCfg s.build) oneField_wdogCfg hj
  have htake : s.takeFld ⟨.BOOT, 0, 0x50, path, .base, v.toNat⟩ R.BOOT_WDOG_CFG_PERIOD v.toNat = (s.wdogCfgStored v.toNat).wdogCfgTaken := by
    unfold State.takeFld
    rw [State.store_plain s _ (by decide)]
    unfold State.foldSoil
    simp [Wr.checked, R.BOOT_WDOG_CFG_PERIOD, R.BOOT_LOAD_DATA_DATA, State.taken, foldBlks, State.wdogCfgStored]
    rfl
  refine completes_eq rfl heq ?_
  rw [show (0x8050 : Nat) % 4096 = 0x50 from rfl, show viewAt 0x8050 = .base from rfl, htake]
  have hp : (s.wdogCfgStored v.toNat).rd R.BOOT_WDOG_CFG_PERIOD = v.toNat :=
    (State.rd_wr_same s _ _).trans (Nat.mod_eq_of_lt h2)
  obtain ⟨t1, t2, t3, t4⟩ := State.wdogCfgTaken_spec (s := s.wdogCfgStored v.toNat) hrun
  rw [hp] at t1 t2 t3
  obtain ⟨-, c2, c3⟩ := (s.wdogCfgStored v.toNat).wdogCfgTaken.calCheck_answered_rest path
  rw [c2, c3, t4]
  refine ⟨?_, t1, t2, List.contains_iff_mem.2 List.mem_cons_self⟩
  rw [State.rd_answered, State.rd_calCheck _ (by decide) (by decide) (by decide), t3]

theorem resetRelease_latches {s : State} {role half : Bool} {a : Nat} (ha : a < 128) (hp : s.boot.phase = .held) (hr : s.pins.railPg = true) :
    completes (.resetRelease role half a) s (fun t =>
      t.boot.phase = .detect ∧ t.pins.resetLow = false ∧ t.rd R.BOOT_STRAPS_ADDR = a ∧ t.rd R.BOOT_STRAPS_HALF = b2n half ∧
      t.rd R.BOOT_STRAPS_ROLE = b2n role ∧ t.rd R.MGT_STATE_ADDR = a ∧ t.mem = s.mem) := by
  refine completes_eq rfl (if_neg (by simp [hp, hr])) ⟨rfl, rfl, ?_, ?_, ?_, ?_, rfl⟩
  all_goals
    simp (disch := decide) only [State.rd, strapRegs, forL, List.foldl_cons, List.foldl_nil, Sparse.look_put_ne, Sparse.look_put_same]
  · exact (Nat.mod_mod _ _).trans (Nat.mod_eq_of_lt ha)
  · rfl
  · rfl
  · exact (Nat.mod_mod _ _).trans (Nat.mod_eq_of_lt ha)

/-- Settles O16: the reset command by `State.resetCmd`, the watchdog by `State.kickWdog` and `State.wdogCfgTaken`, the release by `strapRegs`. -/
theorem resetCommandWatchdogAndRelease : Obligations.ResetCommandWatchdogAndRelease :=
  ⟨fun path s => ⟨fun hr _ => resetArm_completes hr,
      completes_eq rfl rfl ⟨State.rd_wr_same s _ _, (sameElse.refl s _).wr (by simp)⟩, resetFull_taken, resetFull_unarmed⟩,
    fun path s => ⟨wdogKick_completes, fun v => wdogCfg_written, fun role half a => resetRelease_latches⟩⟩

end Sys2Proof.Machine
end

section
/-! Cells of a ring as a node takes and originates them, and the breaks and pacing of a ring (O32). -/

namespace Sys2Proof.Machine

/-! ### What a received cell leaves behind -/

/-- Taking a cell changes the duplicate window and the counts of its port, and nothing else. -/
def TakenOnly (s u : State) : Prop :=
  u = { s with seqs := u.seqs, regs := u.regs } ∧
    ∀ f : Fld, f.key ≠ R.RING_KEYS_IN_USE.key → f.key ≠ R.RING_EVT_EVICT.key → (∀ r, f.key ≠ (R.RING_EVT_DUP r).key) →
      (∀ r, f.key ≠ (R.RING_EVT_STALE r).key) → u.rd f = s.rd f

theorem TakenOnly.refl (s : State) : TakenOnly s s := ⟨rfl, fun _ _ _ _ _ => rfl⟩

theorem State.dedup_taken (s : State) (id : Nat) (c : Cell) : TakenOnly s (s.dedup id c).2 := by
  have hq (q : Seqs) : TakenOnly s { s with seqs := q } := ⟨rfl, fun _ _ _ _ _ => rfl⟩
  have hcnt {t : State} {r : Nat} {f : Fld} (ht : TakenOnly s t) (hf : f = R.RING_EVT_DUP r ∨ f = R.RING_EVT_STALE r ∨ f = R.RING_EVT_EVICT) :
      TakenOnly s (t.count f) := by
    have hregs (r : List (Nat × Nat)) : { t with regs := r } = { s with seqs := t.seqs, regs := r } := by rw [ht.1]
    refine ⟨hregs _, fun g h1 h2 h3 h4 => Eq.trans (State.rd_wr_ne t _ ?_) (ht.2 g h1 h2 h3 h4)⟩
    rcases hf with rfl | rfl | rfl
    · exact h3 _
    · exact h4 _
    · exact h2
  unfold State.dedup
  dsimp only
  generalize keyFind s.seqs.keys c.cls (if c.cls = 2 then c.stream else c.src) = k
  cases k with
  | some e =>
    dsimp only
    generalize windowStep e (c.seq % 65536) c.sync = r
    obtain ⟨d, e'⟩ := r
    cases d with
    | accept => exact hq _
    | dup =>
      by_cases h : isSpur id = true
      · simp only [if_pos h]
        exact hq _
      · simp only [if_neg h]
        exact hcnt (hq _) (.inl rfl)
    | stale =>
      by_cases h : isSpur id = true
      · simp only [if_pos h]
        exact hq _
      · simp only [if_neg h]
        exact hcnt (hq _) (.inr (.inl rfl))
  | none =>
    dsimp only
    split
    · exact ⟨rfl, fun f hk _ _ _ => State.rd_wr_ne _ _ hk⟩
    · exact hcnt (r := 0) (hq _) (.inr (.inr rfl))

theorem State.receive_taken {s u : State} {id : Nat} {c : Cell} {b : Bool} (h : s.receive id c = (b, u)) : TakenOnly s u := by
  have hu : u = (s.receive id c).2 := by rw [h]
  rw [hu]
  unfold State.receive
  by_cases h1 : (!s.cellsOn id || decide (s.loopOf id = 2)) = true
  · rw [if_pos h1]
    exact .refl s
  rw [if_neg h1]
  by_cases hs : isSpur id = true
  · simp only [if_pos hs]
    split <;> exact .refl s
  simp only [if_neg hs]
  split
  · exact .refl s
  split
  · exact .refl s
  split
  · have hd := s.dedup_taken id c
    split
    · rename_i s1 he
      rw [he] at hd
      exact hd
    · rename_i s1 _ he
      rw [he] at hd
      exact hd
  · exact .refl s

theorem TakenOnly.build {s u : State} (h : TakenOnly s u) : u.build = s.build := by rw [h.1]
theorem TakenOnly.port {s u : State} (h : TakenOnly s u) (k : Nat) : u.port k = s.port k := by
  rw [h.1]
  rfl

/-! ### What sending cells leaves behind -/

/-- Sending a cell changes the queues of the ports and the sequence numbers, and nothing else. -/
def SentOnly (s t : State) : Prop := t = { s with ports := t.ports, seqs := t.seqs }

theorem SentOnly.refl (s : State) : SentOnly s s := rfl
theorem SentOnly.trans {s t u : State} (h : SentOnly s t) (k : SentOnly t u) : SentOnly s u := by
  have e : u = { t with ports := u.ports, seqs := u.seqs } := k
  have e2 : t = { s with ports := t.ports, seqs := t.seqs } := h
  refine e.trans ?_
  rw [e2]

theorem SentOnly.frame {s t : State} (h : SentOnly s t) (fs : List Fld) : sameElse s t fs :=
  (sameElse.refl s fs).of_eq (by rw [h]) (by rw [h]) (by rw [h])
theorem SentOnly.rd {s t : State} (h : SentOnly s t) (f : Fld) : t.rd f = s.rd f := (h.frame []).read (by simp)
theorem SentOnly.build {s t : State} (h : SentOnly s t) : t.build = s.build := by rw [h]
theorem SentOnly.out {s t : State} (h : SentOnly s t) : t.out = s.out := by rw [h]

theorem State.setPort_sent (s : State) (id : Nat) (p : Port) : SentOnly s (s.setPort id p) := rfl

theorem State.enqueue_control {s : State} {id : Nat} {q : QCell} (hq : s.queues id = true) (hc : q.cell.cls = clsControl) :
    s.enqueue id q = s.setPort id { s.port id with q1 := (s.port id).q1 ++ [q] } := by
  unfold State.enqueue
  rw [if_pos hq]
  simp [hc, clsControl]

theorem State.enqueue_sent (s : State) (id : Nat) {q : QCell} (hc : q.cell.cls = clsControl) : SentOnly s (s.enqueue id q) := by
  by_cases hq : s.queues id = true
  · rw [State.enqueue_control hq hc]
    rfl
  · rw [State.enqueue, if_neg hq]
    exact .refl s

theorem State.port_enqueue_ne (s : State) {id k : Nat} {q : QCell} (hc : q.cell.cls = clsControl) (h : k ≠ id) : (s.enqueue id q).port k = s.port k := by
  by_cases hq : s.queues id = true
  · rw [State.enqueue_control hq hc, State.port_setPort_ne _ _ h]
  · rw [State.enqueue, if_neg hq]

theorem State.ctlSeq_sent (s : State) (node : Nat) : SentOnly s (s.ctlSeq node).2.2 ∧ (s.ctlSeq node).2.2.ports = s.ports := by
  unfold State.ctlSeq
  dsimp only
  generalize Sparse.get s.seqs.ctl _ = n
  cases n <;> exact ⟨rfl, rfl⟩

theorem State.queues_up {s : State} {id : Nat} (h : s.portState id = 2) : s.queues id = true := by
  simp [State.queues, State.lanesIn, h]

/-- A control cell that a tile originates: it waits in the control queue of the west port, when that one is up. -/
theorem State.originate_tile {s : State} {mk : Cell → Cell} (typ dest : Nat) (payload : List Byte) (r : Nat) (hb : s.build = .tile)
    (hmk : ∀ c, (mk c).cls = c.cls) (hup : s.portState 0 = 2) :
    SentOnly s (s.originate r mk typ dest payload) ∧
      ∃ n sync, ((s.originate r mk typ dest payload).port 0).q1 = (s.port 0).q1 ++
        [{ cell := { mk (mkCell clsControl typ (s.rd (R.RING_STATE_NODE 0)) dest n sync false payload) with dir := 1 }, stomp := false }] := by
  unfold State.originate State.sendBoth State.sendCell
  obtain ⟨hq, hp⟩ := s.ctlSeq_sent (s.rd (R.RING_STATE_NODE 0))
  simp only [hb]
  generalize hv : s.ctlSeq (s.rd (R.RING_STATE_NODE 0)) = v at *
  obtain ⟨n, sync, v⟩ := v
  simp only at hq hp ⊢
  have hvb : v.build = .tile := hq.build.trans hb
  have hvq : v.queues 0 = true := State.queues_up ((hq.rd _).trans hup)
  have hport : v.port 0 = s.port 0 := congrArg (fun p => Sparse.look p 0 Port.init) hp
  simp only [hvb]
  refine ⟨(hq.trans (State.enqueue_sent _ _ (hmk _))).trans (State.enqueue_sent _ _ (hmk _)), n, sync, ?_⟩
  rw [State.port_enqueue_ne _ (hmk _) (by decide), State.enqueue_control hvq (hmk _), State.port_setPort_same, hport]

/-- A control cell that a head originates on a ring: it waits in the control queue of end A, when that one is up. -/
theorem State.originate_head {s : State} {mk : Cell → Cell} (typ dest : Nat) (payload : List Byte) (r : Nat) (hb : s.build = .head)
    (hmk : ∀ c, (mk c).cls = c.cls) (hup : s.portState (2 * r) = 2) (hmute : s.mute r = false) :
    SentOnly s (s.originate r mk typ dest payload) ∧
      ∃ n sync d, ((s.originate r mk typ dest payload).port (2 * r)).q1 = (s.port (2 * r)).q1 ++
        [{ cell := { mk (mkCell clsControl typ (nodeId s.headNo r 0) dest n sync false payload) with dir := d }, stomp := false }] := by
  unfold State.originate State.sendBoth State.sendCell
  obtain ⟨hq, hp⟩ := s.ctlSeq_sent (nodeId s.headNo r 0)
  simp only [hb]
  generalize hv : s.ctlSeq (nodeId s.headNo r 0) = v at *
  obtain ⟨n, sync, v⟩ := v
  simp only at hq hp ⊢
  have hvb : v.build = .head := hq.build.trans hb
  have hvq : v.queues (2 * r) = true := State.queues_up ((hq.rd _).trans hup)
  have hport : v.port (2 * r) = s.port (2 * r) := congrArg (fun p => Sparse.look p (2 * r) Port.init) hp
  have hvm : v.mute r = false := by
    rw [← hmute, hq]
    rfl
  simp only [hvb, hvm, Bool.false_eq_true, if_false]
  refine ⟨(hq.trans (State.enqueue_sent _ _ (hmk _))).trans (State.enqueue_sent _ _ (hmk _)), n, sync, v.dirOut (2 * r), ?_⟩
  rw [State.port_enqueue_ne _ (hmk _) (by omega), State.enqueue_control hvq (hmk _), State.port_setPort_same, hport]

/-! ### O32: breaks and pacing -/

theorem State.breakAdd_first {s : State} {p link : Nat} (h1 : s.rd (R.RING_BREAK_V1 p) = 0) (h2 : s.rd (R.RING_BREAK_V2 p) = 0) :
    s.breakAdd p link = (s.wr (R.RING_BREAK_POS1 p) link).wr (R.RING_BREAK_V1 p) 1 := by
  simp [State.breakAdd, State.on, h1, h2]

theorem State.breakDel_only {s : State} {p link : Nat} (h1 : s.rd (R.RING_BREAK_V1 p) = 1) (hl : s.rd (R.RING_BREAK_POS1 p) = link)
    (h2 : s.rd (R.RING_BREAK_V2 p) = 0) : s.breakDel p link = (s.wr (R.RING_BREAK_POS1 p) 0).wr (R.RING_BREAK_V1 p) 0 := by
  have hne : (R.RING_BREAK_V2 p).key ≠ (R.RING_BREAK_V1 p).key ∧ (R.RING_BREAK_V2 p).key ≠ (R.RING_BREAK_POS1 p).key := by
    simp only [Fld.key, R.RING_BREAK_V1, R.RING_BREAK_V2, R.RING_BREAK_POS1]
    omega
  have hoff : ((s.wr (R.RING_BREAK_POS1 p) 0).wr (R.RING_BREAK_V1 p) 0).on (R.RING_BREAK_V2 p) = false := by
    rw [State.on, State.rd_wr_ne _ _ hne.1, State.rd_wr_ne _ _ hne.2, h2]
    rfl
  have hon : (s.on (R.RING_BREAK_V1 p) && decide (s.rd (R.RING_BREAK_POS1 p) = link)) = true := by simp [State.on, h1, hl]
  unfold State.breakDel
  rw [if_pos hon]
  simp only [hoff, Bool.false_and, Bool.false_eq_true, if_false]

/-- Link 1 of the two ring instances of a tile. -/
def breakFlds : List Fld := [R.RING_BREAK_POS1 0, R.RING_BREAK_V1 0, R.RING_BREAK_POS1 1, R.RING_BREAK_V1 1]

theorem noteBreak_tile {s : State} {id link : Nat} (hb : s.build = .tile) (hl : link < 64)
    (hv : ∀ p, p < 2 → s.rd (R.RING_BREAK_V1 p) = 0 ∧ s.rd (R.RING_BREAK_V2 p) = 0) :
    (∀ p, p < 2 → (s.noteBreak id link).rd (R.RING_BREAK_POS1 p) = link ∧ (s.noteBreak id link).rd (R.RING_BREAK_V1 p) = 1) ∧
      sameElse s (s.noteBreak id link) breakFlds := by
  obtain ⟨h0, h0'⟩ := hv 0 (by decide)
  obtain ⟨h1, h1'⟩ := hv 1 (by decide)
  have heq : s.noteBreak id link = (((s.wr (R.RING_BREAK_POS1 0) link).wr (R.RING_BREAK_V1 0) 1).wr (R.RING_BREAK_POS1 1) link).wr (R.RING_BREAK_V1 1) 1 := by
    rw [State.noteBreak, hb]
    change (s.breakAdd 0 link).breakAdd 1 link = _
    rw [State.breakAdd_first h0 h0', State.breakAdd_first] <;> simpa (disch := decide) only [State.rd_wr_ne]
  have hmod : link % 2 ^ 6 = link := Nat.mod_eq_of_lt hl
  rw [heq]
  refine ⟨fun p hp => ?_, ((((sameElse.refl s _).wr (by simp [breakFlds])).wr (by simp [breakFlds])).wr (by simp [breakFlds])).wr (by simp [breakFlds])⟩
  obtain rfl | rfl : p = 0 ∨ p = 1 := by omega
  all_goals
    simp (disch := decide) only [State.rd_wr_ne, State.rd_wr_same]
    exact ⟨hmod, rfl⟩

theorem noteUp_tile {s : State} {id link : Nat} (hb : s.build = .tile)
    (hv : ∀ p, p < 2 → s.rd (R.RING_BREAK_V1 p) = 1 ∧ s.rd (R.RING_BREAK_POS1 p) = link ∧ s.rd (R.RING_BREAK_V2 p) = 0) :
    (∀ p, p < 2 → (s.noteUp id link).rd (R.RING_BREAK_V1 p) = 0) ∧ sameElse s (s.noteUp id link) breakFlds := by
  obtain ⟨h0, h0', h0''⟩ := hv 0 (by decide)
  obtain ⟨h1, h1', h1''⟩ := hv 1 (by decide)
  have heq : s.noteUp id link = (((s.wr (R.RING_BREAK_POS1 0) 0).wr (R.RING_BREAK_V1 0) 0).wr (R.RING_BREAK_POS1 1) 0).wr (R.RING_BREAK_V1 1) 0 := by
    rw [State.noteUp, hb]
    change (s.breakDel 0 link).breakDel 1 link = _
    rw [State.breakDel_only h0 h0' h0'', State.breakDel_only] <;> simpa (disch := decide) only [State.rd_wr_ne]
  rw [heq]
  refine ⟨fun p hp => ?_, ((((sameElse.refl s _).wr (by simp [breakFlds])).wr (by simp [breakFlds])).wr (by simp [breakFlds])).wr (by simp [breakFlds])⟩
  obtain rfl | rfl : p = 0 ∨ p = 1 := by omega
  all_goals
    simp (disch := decide) only [State.rd_wr_ne, State.rd_wr_same]
    rfl

/-- A link-management cell that is taken. -/
theorem State.linkChange_taken {s u : State} {port : Nat} {c : Cell} (hc : c.cls = clsControl) (hport : port < 24) (hrec : s.receive port c = (true, u)) :
    s.linkChange port c c.typ = if c.typ = tLinkdown then u.noteBreak port (pb c 0 % 64) else u.noteUp port (pb c 0 % 64) := by
  have hspur : isSpur port = false := decide_eq_false (by omega)
  unfold State.linkChange
  rw [if_neg (by simp [hc, hspur]), hrec]
  rfl

theorem shareReq_paces {s u : State} {port r : Nat} {c : Cell} (hb : s.build = .head) (hr : r < 12) (hport : port = 2 * r ∨ port = 2 * r + 1)
    (hc : c.cls = clsControl) (ht : c.typ = tShareReq) (hrec : s.receive port c = (true, u)) (hd : pb c 0 = s.dirOut (2 * r)) (hlt : pb c 0 < 2) :
    completes (.shareReq port c) s (fun t => t.rd (R.RING_STATE_PACE_A r) = 1 ∧ sameElse u t [R.RING_STATE_PACE_A r]) := by
  have hspur : isSpur port = false := decide_eq_false (by omega)
  have hring : portRing port = r := by
    unfold portRing
    omega
  have htile : s.isTile = false := by rw [State.isTile, hb]
  refine completes_eq rfl (t := u.wrB (R.RING_STATE_PACE_A r) true) ?_ ⟨State.rd_wrB_same _ _ _ Nat.one_pos, (sameElse.refl u _).wrB (by simp)⟩
  unfold State.shareIn
  rw [if_neg (by simp [hc, ht, hspur]), hrec]
  simp only [htile, Bool.not_true, Bool.false_or, decide_eq_true_eq, hring, if_neg (Nat.not_le.2 hlt), ← hd, if_true]
  rfl

theorem pacingExpire_clears {s : State} {port r : Nat} (hb : s.build = .head) (hring : portRing port = r) (hlt : port < 24) {f : Fld}
    (hf : (if portEnd port = 0 then R.RING_STATE_PACE_A r else R.RING_STATE_PACE_B r) = f) (hw : 0 < f.width) :
    completes (.pacingExpire port) s (fun t => t.rd f = 0 ∧ sameElse s t [f]) := by
  have hgo : (s.isTile || isSpur port || !portExists s.build port) = false := by
    simp [State.isTile, hb, isSpur, portExists]
    omega
  refine completes_eq rfl (t := s.wrB f false) ?_ ⟨State.rd_wrB_same s _ _ hw, (sameElse.refl s _).wrB (by simp)⟩
  rw [hgo, if_neg Bool.false_ne_true, State.pace, hring, hf]

theorem shareReqRepeat_sends {s : State} {port : Nat} (hb : s.build = .tile) (he : portExists .tile port = true) (hs : (s.port port).sharing = true)
    (h2 : (s.port port).q2 ≠ []) (h3 : (s.port port).q3 ≠ []) (hpos : s.hasPosition = true) (hup : s.portState 0 = 2) :
    completes (.shareReqRepeat port) s (fun t =>
      sameElse s t [] ∧ ∃ x : Cell, (t.port 0).q1 = (s.port 0).q1 ++ [{ cell := x, stomp := false }] ∧ x.typ = tShareReq ∧
        x.payload = natLE (s.dirOut port) 1) := by
  have hgo : s.shareAgain port =
      s.originate 0 (fun c => c) tShareReq (nodeId s.eventHead (nodeRing (s.rd (R.RING_STATE_NODE 0))) 0) (natLE (s.dirOut port) 1) := by
    unfold State.shareAgain
    rw [if_neg (by simp [hb, he, hs]), if_neg (by simp [h2, h3]), State.sendShareReq]
    simp only [hb, hpos, Bool.not_true, Bool.false_eq_true, if_false]
  obtain ⟨hsent, n, sync, hq⟩ := State.originate_tile (mk := fun c => c) tShareReq
    (nodeId s.eventHead (nodeRing (s.rd (R.RING_STATE_NODE 0))) 0) (natLE (s.dirOut port) 1) 0 hb (fun _ => rfl) hup
  exact completes_eq rfl hgo ⟨hsent.frame [], _, hq, rfl, rfl⟩

/-- Settles O32: the breaks by `noteBreak_tile` and `noteUp_tile`, pacing from its definition, the repeated request by `State.originate_tile`. -/
theorem breaksAndPacing : Obligations.BreaksAndPacing := by
  refine fun port c s => ⟨fun u hb hc hlt hrec => ⟨fun ht hv => ?_, fun ht hv => ?_⟩, fun u r hb hr hport hc ht hrec hd hlt =>
    shareReq_paces hb hr hport hc ht hrec hd hlt, fun r hb hr => ⟨?_, ?_⟩, fun hb he hs => ⟨fun h2 h3 => shareReqRepeat_sends hb he hs h2 h3, fun h3 => ?_⟩⟩
  · have heq := State.linkChange_taken hc hlt hrec
    rw [ht, if_pos rfl] at heq
    exact completes_eq rfl heq (noteBreak_tile ((State.receive_taken hrec).build.trans hb) (Nat.mod_lt _ (by decide)) hv)
  · have heq := State.linkChange_taken hc hlt hrec
    rw [ht, if_neg (by decide)] at heq
    exact completes_eq rfl heq (noteUp_tile ((State.receive_taken hrec).build.trans hb) hv)
  · exact pacingExpire_clears hb (by unfold portRing; omega) (by omega) (if_pos (by unfold portEnd; omega)) Nat.one_pos
  · exact pacingExpire_clears hb (by unfold portRing; omega) (by omega) (if_neg (by unfold portEnd; omega)) Nat.one_pos
  · refine completes_eq rfl (t := s.setPort port { s.port port with sharing := false }) ?_ ⟨by rw [State.port_setPort_same],
      (sameElse.refl s _).of_eq rfl rfl rfl⟩
    unfold State.shareAgain
    rw [if_neg (by simp [hb, he, hs]), if_pos (by simp [h3])]

end Sys2Proof.Machine
end

section
/-! What a cell on the lanes of a port leaves behind, and the delay measurement of a link (O31). -/

namespace Sys2Proof.Machine

/-! ### The codeword stream of a port -/

/-- Codewords have left on the lanes of a port: its stream goes on, and nothing else changes. -/
def Wired (s t : State) (id : Nat) : Prop :=
  t = { s with ports := t.ports, out := t.out } ∧ (∃ l, t.out = l ++ s.out ∧ ∀ x ∈ l, ∃ m, x = Out.codeword id m) ∧
    ∀ k, { t.port k with line := (s.port k).line } = s.port k

theorem Wired.refl (s : State) (id : Nat) : Wired s s id := ⟨rfl, ⟨[], rfl, by simp⟩, fun _ => rfl⟩

theorem Wired.trans {s t u : State} {id : Nat} (h : Wired s t id) (k : Wired t u id) : Wired s u id := by
  obtain ⟨h1, ⟨l, hl, hlc⟩, h3⟩ := h
  obtain ⟨k1, ⟨m, hm, hmc⟩, k3⟩ := k
  refine ⟨k1.trans (by rw [h1]), ⟨m ++ l, by rw [hm, hl, List.append_assoc], fun x hx => (List.mem_append.1 hx).elim (hmc x) (hlc x)⟩, fun j => ?_⟩
  have e := h3 j
  rw [← k3 j] at e
  exact e

/-- The stream of a port changes, and nothing else. -/
theorem State.setLine_wired (s : State) (id : Nat) (l : LineTx) : Wired s (s.setPort id { s.port id with line := l }) id := by
  refine ⟨rfl, ⟨[], rfl, by simp⟩, fun k => ?_⟩
  by_cases h : k = id
  · rw [h, State.port_setPort_same]
  · rw [State.port_setPort_ne _ _ h]

theorem State.codeword_wired (s : State) (id : Nat) (m : List (List Int)) : Wired s (s.emit (.codeword id m)) id :=
  ⟨rfl, ⟨[_], rfl, fun x hx => ⟨m, by simpa using hx⟩⟩, fun _ => rfl⟩

theorem State.sendCodeword_wired (s : State) (id : Nat) (msg : List Nat) : Wired s (s.sendCodeword id msg) id :=
  (s.setLine_wired id _).trans (State.codeword_wired _ id _)

theorem State.lineStep_wired (s : State) (id : Nat) : Wired s (s.lineStep id) id := by
  unfold State.lineStep
  dsimp only
  split
  · exact .refl s id
  · have hmarker : Wired s (s.lineMarker id) id := by
      unfold State.lineMarker
      split
      · exact s.sendCodeword_wired id _
      · exact .refl s id
    exact (hmarker.trans (State.sendCodeword_wired _ id _)).trans (State.setLine_wired _ id _)

theorem State.lineCell_wired (s : State) (id : Nat) (bytes : List Byte) : Wired s (s.lineCell id bytes) id :=
  (s.setLine_wired id _).trans (State.lineStep_wired _ id)

theorem Wired.frame {s t : State} {id : Nat} (h : Wired s t id) (fs : List Fld) : sameElse s t fs :=
  (sameElse.refl s fs).of_eq (by rw [h.1]) (by rw [h.1]) (by rw [h.1])

/-- A cell on the wire: the cell, then the codewords it completes. -/
theorem State.wireCell_spec (s : State) (id : Nat) (c : Cell) (stomp : Bool) :
    onWire s (s.wireCell id c stomp) id (.cell id c stomp) ∧ sameElse s (s.wireCell id c stomp) [] ∧
      ∀ k, { (s.wireCell id c stomp).port k with line := (s.port k).line } = s.port k := by
  have h := (s.emit (.cell id c stomp)).lineCell_wired id (cellBytes c)
  exact ⟨h.2.1, h.frame [], h.2.2⟩

/-! ### A link-local cell of a port -/

/-- What a port that is UP sends waits in its control queue. -/
theorem State.sendLocal_up {s : State} {id typ : Nat} {payload : List Byte} (hup : s.portState id = 2) (ha : s.asleep id = false) :
    ∃ x : Cell, s.sendLocal id typ payload = s.setPort id { s.port id with q1 := (s.port id).q1 ++ [{ cell := x, stomp := false }] } ∧ x.typ = typ ∧
      x.payload = payload := by
  unfold State.sendLocal
  dsimp only
  rw [if_pos (by simp [State.portUp, hup, ha]), State.sendCell, State.enqueue_control (State.queues_up hup) (by rfl)]
  exact ⟨_, rfl, rfl, rfl⟩

/-- What a port sends in bring-up goes onto its lanes. -/
theorem State.sendLocal_training {s : State} {id typ : Nat} {payload : List Byte} (hst : s.portState id = 1) (hl : s.lanesSend id = true)
    (hspur : isSpur id = false) :
    (∃ x : Cell, onWire s (s.sendLocal id typ payload) id (.cell id x false) ∧ x.typ = typ ∧ x.payload = payload) ∧
      sameElse s (s.sendLocal id typ payload) [R.RING_TX_CELLS (portRing id)] ∧
      ∀ k, { (s.sendLocal id typ payload).port k with line := (s.port k).line } = s.port k := by
  have hup : s.portUp id = false := by simp [State.portUp, hst]
  have htr : (s.training id && s.lanesSend id) = true := by simp [State.training, hst, hl]
  unfold State.sendLocal
  dsimp only
  rw [hup, if_neg Bool.false_ne_true, if_pos htr, State.countSent, hspur, if_neg Bool.false_ne_true]
  obtain ⟨h1, h2, h3⟩ := State.wireCell_spec (s.bump (R.RING_TX_CELLS (portRing id)) 1) id
    (sealCell { mkCell clsControl typ (s.selfId id) noNode 0 false false payload with dir := s.dirOut id } false) false
  exact ⟨⟨_, h1, rfl, rfl⟩, ((sameElse.refl s _).bump (by simp)).trans (h2.mono (by simp)), h3⟩

/-! ### O31: the delay measurement -/

section Delay

variable {s : State} {port : Nat}

theorem State.startMeasure_up (ha : s.asleep port = false) (hup : s.portState port = 2) :
    s.startMeasure port = s.setPort port { s.port port with measuring := true, dlySent := 0, dlyRes := [] } := by
  unfold State.startMeasure
  rw [if_pos (by simp [State.portUp, hup, ha])]

variable (hb : s.build = .tile) (he : portExists .tile port = true)
include hb he

theorem State.remeasured_idle (h : (s.port port).measuring = false) : s.remeasured port = s.wr (R.RING_CMD_REMEASURE (portRing port)) 0 := by
  have hspur : isSpur port = false := by
    simp only [portExists, Bool.or_eq_true, decide_eq_true_eq] at he
    exact decide_eq_false (by omega)
  unfold State.remeasured
  simp only [hspur, Bool.false_eq_true, if_false, enablePorts, hb, List.any_cons, List.any_nil, h, Bool.or_false]

/-- A measurement that ends on a tile's port. -/
theorem measureEnds (p : Port) (hp : p.measuring = false) :
    let t := (s.setPort port p).remeasured port
    t.port port = p ∧ t.rd (R.RING_CMD_REMEASURE (portRing port)) = 0 ∧ sameElse s t [R.RING_CMD_REMEASURE (portRing port)] := by
  have hq : (s.setPort port p).port port = p := State.port_setPort_same _ _ _
  have heq := State.remeasured_idle (s := s.setPort port p) (port := port) hb he (by rw [hq]; exact hp)
  dsimp only
  rw [heq]
  exact ⟨hq, (State.rd_wr_same _ _ _).trans rfl, ((sameElse.refl s _).of_eq rfl rfl rfl).wr (by simp)⟩

variable (ha : s.asleep port = false)
include ha

theorem dlyReqSend_sends (hm : (s.port port).measuring = true) (hn : (s.port port).dlySent < 16) :
    (s.portState port = 2 →
      completes (.dlyReqSend port) s (fun t =>
        (t.port port).dlySent = (s.port port).dlySent + 1 ∧ t.out = s.out ∧ sameElse s t [] ∧
        ∃ x : Cell, (t.port port).q1 = (s.port port).q1 ++ [{ cell := x, stomp := false }] ∧ x.typ = tDlyReq ∧
          x.payload = natLE (s.port port).dlySent 1)) ∧
    (s.portState port = 1 → s.lanesSend port = true →
      completes (.dlyReqSend port) s (fun t =>
        (t.port port).dlySent = (s.port port).dlySent + 1 ∧ sameElse s t [R.RING_TX_CELLS (portRing port)] ∧
        ∃ x : Cell, onWire s t port (.cell port x false) ∧ x.typ = tDlyReq ∧ x.payload = natLE (s.port port).dlySent 1)) := by
  have hspur : isSpur port = false := by
    simp only [portExists, Bool.or_eq_true, decide_eq_true_eq] at he
    exact decide_eq_false (by omega)
  have hgo : (!(portExists s.build port && (s.port port).measuring && !s.asleep port)) = false := by simp [hb, he, hm, ha]
  have heq (hl : s.localOut port = true) : s.dlyReqOut port =
      (s.setPort port { s.port port with dlySent := (s.port port).dlySent + 1 }).sendLocal port tDlyReq (natLE (s.port port).dlySent 1) := by
    unfold State.dlyReqOut
    simp only [hgo, Bool.false_eq_true, if_false, if_pos hn, if_pos hl]
  refine ⟨fun hup => ?_, fun hst hl => ?_⟩
  · obtain ⟨x, hx, ht, hp⟩ := State.sendLocal_up (s := s.setPort port { s.port port with dlySent := (s.port port).dlySent + 1 }) (typ := tDlyReq)
      (payload := natLE (s.port port).dlySent 1) (id := port) hup ha
    refine completes_eq rfl ((heq (by simp [State.localOut, State.portUp, hup, ha])).trans hx) ⟨?_, rfl, (sameElse.refl s _).of_eq rfl rfl rfl, x, ?_, ht, hp⟩
    · rw [State.port_setPort_same, State.port_setPort_same]
    · rw [State.port_setPort_same, State.port_setPort_same]
  · have hl' : (s.setPort port { s.port port with dlySent := (s.port port).dlySent + 1 }).lanesSend port = true := by
      rw [← hl]
      unfold State.lanesSend
      rw [State.port_setPort_same]
      rfl
    obtain ⟨⟨x, hx, ht, hp⟩, hf, hport⟩ := State.sendLocal_training (s := s.setPort port { s.port port with dlySent := (s.port port).dlySent + 1 })
      (typ := tDlyReq) (payload := natLE (s.port port).dlySent 1) (id := port) hst hl' hspur
    refine completes_eq rfl (heq (by simp [State.localOut, State.training, hst, hl])) ⟨?_, hf, x, hx, ht, hp⟩
    have h := congrArg Port.dlySent (hport port)
    rw [State.port_setPort_same] at h
    exact h

theorem dlyReqSend_ends (hm : (s.port port).measuring = true) (hn : 16 ≤ (s.port port).dlySent) (hup : s.portState port = 2) :
    completes (.dlyReqSend port) s (fun t =>
      (t.port port).measuring = false ∧ (t.port port).dlyRes = [] ∧ (t.port port).dlyNext = (s.port port).dlyNext ∧
      t.rd (R.RING_CMD_REMEASURE (portRing port)) = 0 ∧ sameElse s t [R.RING_CMD_REMEASURE (portRing port)]) := by
  have hgo : (!(portExists s.build port && (s.port port).measuring && !s.asleep port)) = false := by simp [hb, he, hm, ha]
  have heq : s.dlyReqOut port = (s.setPort port { s.port port with measuring := false, dlySent := 0, dlyRes := [] }).remeasured port := by
    have hup' : s.portUp port = true := by simp [State.portUp, hup, ha]
    unfold State.dlyReqOut
    simp only [hgo, Bool.false_eq_true, if_false, if_neg (Nat.not_lt.2 hn), hup', if_true]
  obtain ⟨hp, hr, hf⟩ := measureEnds hb he { s.port port with measuring := false, dlySent := 0, dlyRes := [] } rfl
  exact completes_eq rfl heq ⟨by rw [hp], by rw [hp], by rw [hp], hr, hf⟩

omit hb in
theorem dlyReq_answered {c : Cell} (residence : Nat) (ht : c.typ = tDlyReq) (hrec : s.receiveLocal port c = true) :
    (s.portState port = 2 →
      completes (.dlyReq port c residence) s (fun t =>
        t.out = s.out ∧ sameElse s t [] ∧
        ∃ x : Cell, (∀ k, t.port k = if k = port then { s.port port with q1 := (s.port port).q1 ++ [{ cell := x, stomp := false }] } else s.port k) ∧
          x.typ = tDlyRsp ∧ x.payload = natLE (pb c 0) 8 ++ natLE residence 8)) ∧
    (s.portState port = 1 → s.lanesSend port = true →
      completes (.dlyReq port c residence) s (fun t =>
        (∀ k, { t.port k with line := (s.port k).line } = s.port k) ∧ sameElse s t [R.RING_TX_CELLS (portRing port)] ∧
        ∃ x : Cell, onWire s t port (.cell port x false) ∧ x.typ = tDlyRsp ∧ x.payload = natLE (pb c 0) 8 ++ natLE residence 8)) := by
  have hspur : isSpur port = false := by
    simp only [portExists, Bool.or_eq_true, decide_eq_true_eq] at he
    exact decide_eq_false (by omega)
  have heq (hst : s.portState port ≠ 0) : s.dlyReqIn port c residence = s.sendLocal port tDlyRsp (natLE (pb c 0) 8 ++ natLE residence 8) :=
    if_pos (by simp [ht, hrec, hst, ha])
  refine ⟨fun hup => ?_, fun hst hl => ?_⟩
  · obtain ⟨x, hx, hxt, hxp⟩ := State.sendLocal_up (typ := tDlyRsp) (payload := natLE (pb c 0) 8 ++ natLE residence 8) hup ha
    refine completes_eq rfl ((heq (by omega)).trans hx) ⟨rfl, (sameElse.refl s _).of_eq rfl rfl rfl, x, fun k => ?_, hxt, hxp⟩
    by_cases h : k = port
    · rw [if_pos h, h, State.port_setPort_same]
    · rw [if_neg h, State.port_setPort_ne _ _ h]
  · obtain ⟨hx, hf, hport⟩ := State.sendLocal_training (typ := tDlyRsp) (payload := natLE (pb c 0) 8 ++ natLE residence 8) hst hl hspur
    exact completes_eq rfl (heq (by omega)) ⟨hport, hf, hx⟩

theorem dlyRsp_taken {c : Cell} (trip : Nat) (ht : c.typ = tDlyRsp) (hrec : s.receiveLocal port c = true) (hm : (s.port port).measuring = true) :
    ((s.port port).dlyRes.length < 15 →
      completes (.dlyRsp port c trip) s (fun t =>
        (t.port port).dlyRes = (s.port port).dlyRes ++ [(trip - pn c 8 8) / 2] ∧ (t.port port).measuring = true ∧ sameElse s t [])) ∧
    ((s.port port).dlyRes.length = 15 →
      completes (.dlyRsp port c trip) s (fun t =>
        (t.port port).dlyNext = some (trimmedMean ((s.port port).dlyRes ++ [(trip - pn c 8 8) / 2])) ∧ (t.port port).measuring = false ∧
        t.rd (R.RING_CMD_REMEASURE (portRing port)) = 0 ∧ sameElse s t [R.RING_CMD_REMEASURE (portRing port)])) := by
  have hgo : (decide (c.typ = tDlyRsp) && s.receiveLocal port c && !s.asleep port && (s.port port).measuring) = true := by simp [ht, hrec, ha, hm]
  have hlen : ((s.port port).dlyRes ++ [(trip - pn c 8 8) / 2]).length = (s.port port).dlyRes.length + 1 := by simp
  refine ⟨fun hl => ?_, fun hl => ?_⟩
  · have heq : s.dlyRspIn port c trip = s.setPort port { s.port port with dlyRes := (s.port port).dlyRes ++ [(trip - pn c 8 8) / 2] } := by
      unfold State.dlyRspIn
      simp only [hgo, if_true, hlen, if_pos (show (s.port port).dlyRes.length + 1 < 16 by omega)]
    refine completes_eq rfl heq ⟨?_, ?_, (sameElse.refl s _).of_eq rfl rfl rfl⟩
    · rw [State.port_setPort_same]
    · rw [State.port_setPort_same]
      exact hm
  · have heq : s.dlyRspIn port c trip = (s.setPort port { s.port port with dlyRes := [], dlySent := 0, measuring := false, dlyNext := (some (trimmedMean ((s.port port).dlyRes ++ [(trip - pn c 8 8) / 2]))) }).remeasured port := by
      unfold State.dlyRspIn
      simp only [hgo, if_true, hlen, if_neg (show ¬(s.port port).dlyRes.length + 1 < 16 by omega)]
    obtain ⟨hp, hr, hf⟩ := measureEnds hb he
      { s.port port with dlyRes := [], dlySent := 0, measuring := false, dlyNext := (some (trimmedMean ((s.port port).dlyRes ++ [(trip - pn c 8 8) / 2]))) } rfl
    exact completes_eq rfl heq ⟨by rw [hp], by rw [hp], hr, hf⟩

end Delay

/-- The SET view address of the command register of a ring port. -/
def ringCmdAt (r : Nat) : Nat := 0x49128 + 0x4000 * (r / 4) + 0x300 * (r % 4)

/-- The command register of a ring port, as its page finds it on a build. -/
def ringCmdOk (b : Build) (r : Nat) : Bool :=
  winBlk (ringCmdAt r / 16384) = some (.RING, r / 4) &&
    (fldsAt .RING b (r / 4) (ringCmdAt r % 4096) = some ([R.RING_CMD_DISCOVER r, R.RING_CMD_REMEASURE r], false)) &&
    viewAt (ringCmdAt r) = .set && viewAddr (R.RING_CMD_DISCOVER r) .set / 4 * 4 = ringCmdAt r &&
    (instOf .RING (r / 4) (ringCmdAt r % 4096)).all (fun e => e.2.addr % 4096 ≠ ringCmdAt r % 4096)

/-- Ring ports of a build: 12 of a head, 2 of a tile. -/
def ringPorts : Build → Nat
  | .tile => 2
  | .head => 12

theorem ringCmd_ok {b : Build} {r : Nat} (h : r < ringPorts b) : ringCmdOk b r = true :=
  List.all_eq_true.1 (show (List.range (ringPorts b)).all (ringCmdOk b) = true by cases b <;> decide +kernel) r (List.mem_range.2 h)

theorem State.cmWrite_ring (s : State) (r : Nat) (path : Path) (raw : Nat) :
    s.cmWrite ⟨.RING, r / 4, ringCmdAt r % 4096, path, .set, raw⟩ =
      andThen (andThen (s, []) (bitOf raw 0) (fun a => a.discoverCmd r)) (bitOf raw 1) (fun a => a.remeasureCmd r) := by
  have hoff : ringCmdAt r % 4096 = 0x128 + 0x300 * (r % 4) := by
    unfold ringCmdAt
    omega
  have hgo : (decide (0x100 ≤ ringCmdAt r % 4096) && decide ((ringCmdAt r % 4096 - 0x100) % 0x300 = 0x28)) = true := by
    rw [hoff]
    simp
    omega
  have hr : 4 * (r / 4) + (ringCmdAt r % 4096 - 0x100) / 0x300 = r := by
    rw [hoff]
    omega
  unfold State.cmWrite
  simp only [hgo, if_true, hr]

/-- A command of a ring port that is reached. -/
theorem State.command_ring {s u : State} {path : Path} {f : Fld} {r raw : Nat} {rs : List Nat} (hf : f = R.RING_CMD_DISCOVER r ∨ f = R.RING_CMD_REMEASURE r)
    (hlt : r < ringPorts s.build) (hr : s.reaches path f .set) (hraw : 1 * 2 ^ f.lsb % 4294967296 = raw)
    (hu : andThen (andThen (s, []) (bitOf raw 0) (fun a => a.discoverCmd r)) (bitOf raw 1) (fun a => a.remeasureCmd r) = (u, rs)) :
    s.command path .set f 1 = (u.counted ⟨.RING, r / 4, ringCmdAt r % 4096, path, .set, raw⟩ rs).calCheck.answered path := by
  have hok := ringCmd_ok hlt
  simp only [ringCmdOk, Bool.and_eq_true, decide_eq_true_eq] at hok
  obtain ⟨⟨⟨⟨h1, h2⟩, h3⟩, h4⟩, h5⟩ := hok
  have hoff : ringCmdAt r % 4096 ≠ 4 := by
    unfold ringCmdAt
    omega
  have haddr : viewAddr f .set / 4 * 4 = ringCmdAt r := by rcases hf with rfl | rfl <;> exact h4
  have hpage : ringCmdAt r < 0x100000 := by
    have : r < 12 := Nat.lt_of_lt_of_le hlt (by cases s.build <;> decide)
    unfold ringCmdAt
    omega
  refine State.command_runs (a := ringCmdAt r) hr haddr hpage h1 h2 rfl rfl h3 hoff (fun e he => ?_) (by decide) hraw ?_
  · rw [he] at h5
    simpa using h5
  · rw [State.cmWrite_ring s r path raw]
    exact hu

theorem State.port_calCheck (s : State) (k : Nat) : s.calCheck.port k = s.port k := by
  obtain ⟨r, c, h⟩ := s.calCheck_rest
  rw [h]
  rfl

theorem State.port_answered (s : State) (path : Path) (k : Nat) : (s.answered path).port k = s.port k := by cases path <;> rfl

theorem remeasure_starts {s : State} {port : Nat} {path : Path} (hb : s.build = .tile) (he : portExists .tile port = true) (ha : s.asleep port = false)
    (hr : s.reaches path (R.RING_CMD_REMEASURE (portRing port)) .set) (hc : s.rd (R.RING_CMD_REMEASURE (portRing port)) = 0) (hup : s.portState port = 2) :
    completes (.remeasure path .set (portRing port)) s (fun t =>
      t.rd (R.RING_CMD_REMEASURE (portRing port)) = 1 ∧ (t.port port).measuring = true ∧ (t.port port).dlySent = 0 ∧ (t.port port).dlyRes = [] ∧
      sameElse s t ([R.RING_CMD_REMEASURE (portRing port)] ++ calFlds)) := by
  have hport : port = 0 ∨ port = 2 := by simpa [portExists] using he
  have hinst : instPort (portRing port) = port := by rcases hport with rfl | rfl <;> rfl
  have hlt : portRing port < ringPorts s.build := by rcases hport with rfl | rfl <;> rw [hb] <;> decide
  have hcmd : s.remeasureCmd (portRing port) =
      ((s.setPort port { s.port port with measuring := true, dlySent := 0, dlyRes := [] }).wrB (R.RING_CMD_REMEASURE (portRing port)) true, []) := by
    unfold State.remeasureCmd
    simp only [State.on, hc, hinst, hb, enablePorts, forL, List.foldl_cons, List.foldl_nil, State.startMeasure_up ha hup, List.any_cons, List.any_nil,
      State.port_setPort_same, Bool.or_false, Nat.zero_ne_one, decide_false, Bool.false_eq_true, if_false]
  have heq := State.command_ring (raw := 2) (.inr rfl) hlt hr rfl hcmd
  rw [State.counted_nil] at heq
  have hframe : sameElse s ((s.setPort port { s.port port with measuring := true, dlySent := 0, dlyRes := [] }).wrB
      (R.RING_CMD_REMEASURE (portRing port)) true) [R.RING_CMD_REMEASURE (portRing port)] := ((sameElse.refl s _).of_eq rfl rfl rfl).wrB (by simp)
  have hp : (((s.setPort port { s.port port with measuring := true, dlySent := 0, dlyRes := [] }).wrB
      (R.RING_CMD_REMEASURE (portRing port)) true).calCheck.answered path).port port =
      { s.port port with measuring := true, dlySent := 0, dlyRes := [] } := by
    rw [State.port_answered, State.port_calCheck]
    exact State.port_setPort_same _ _ _
  refine completes_eq rfl ((if_neg (by rcases hport with rfl | rfl <;> decide)).trans heq) ⟨?_, by rw [hp], by rw [hp], by rw [hp], hframe.calCheck.answered path⟩
  rw [State.rd_answered, State.rd_calCheck]
  · exact State.rd_wrB_same _ _ _ Nat.one_pos
  all_goals rcases hport with rfl | rfl <;> decide

/-- Settles O31: the commands and the requests of a measurement from their definitions, with what a cell on the lanes leaves behind. -/
theorem delayMeasurement : Obligations.DelayMeasurement := by
  intro port c s hb he ha
  refine ⟨fun hst hup => ?_, fun path hr hc hup => remeasure_starts hb he ha hr hc hup,
    fun hm => ⟨dlyReqSend_sends hb he ha hm, dlyReqSend_ends hb he ha hm⟩, fun hm => completes_eq rfl ?_ rfl,
    fun residence ht hrec => dlyReq_answered he ha residence ht hrec, fun trip ht hrec hm => dlyRsp_taken hb he ha trip ht hrec hm⟩
  · refine completes_eq rfl ((if_pos (by simpa [hb, he] using hst)).trans (State.startMeasure_up ha hup)) ?_
    rw [State.port_setPort_same]
    exact ⟨rfl, rfl, rfl, (sameElse.refl s _).of_eq rfl rfl rfl⟩
  · unfold State.dlyReqOut
    exact if_pos (by simp [hm])

end Sys2Proof.Machine
end

section
/-! O30: DISCOVER and NEIGH cells. -/

namespace Sys2Proof.Machine

theorem nodeId_lt (h r p : Nat) : nodeId h r p < 65536 := by
  unfold nodeId
  omega

theorem nodeRing_nodeId (h r p : Nat) : nodeRing (nodeId h r p) = r % 16 := by
  unfold nodeRing nodeId
  omega

/-- A tile takes a position: both ring instances show it. -/
theorem State.setNode_spec (s : State) (h r p : Nat) (hr : r % 16 < 12) :
    (∀ i, i < 2 → (s.setNode (nodeId h r p)).rd (R.RING_STATE_NODE i) = nodeId h r p) ∧
      sameElse s (s.setNode (nodeId h r p)) [R.RING_STATE_NODE 0, R.RING_STATE_NODE 1] := by
  have hmod : nodeId h r p % 2 ^ 16 = nodeId h r p := Nat.mod_eq_of_lt (nodeId_lt h r p)
  rw [State.setNode, if_neg (by rw [nodeRing_nodeId]; omega)]
  refine ⟨fun i hi => ?_, ((sameElse.refl s _).wr (by simp)).wr (by simp)⟩
  obtain rfl | rfl : i = 0 ∨ i = 1 := by omega
  · rw [State.rd_wr_ne _ _ (by decide), State.rd_wr_same]
    exact hmod
  · rw [State.rd_wr_same]
    exact hmod

theorem discover_tile {s u : State} {port : Nat} {c : Cell} (hb : s.build = .tile) (hc : c.cls = clsControl) (ht : c.typ = tDiscover)
    (hrec : s.receive port c = (true, u)) (hnode : u.rd (R.RING_STATE_NODE 0) = noNode) (hh : c.hops < 63) (hr : pb c 1 % 16 < 12) :
    completes (.discover port c) s (fun t =>
      (∀ i, i < 2 → t.rd (R.RING_STATE_NODE i) = nodeId (pb c 0) (pb c 1) (c.hops + 1)) ∧
      sameElse u t [R.RING_STATE_NODE 0, R.RING_STATE_NODE 1]) := by
  have hid : nodeId (pb c 0 % 64) (pb c 1 % 16) (c.hops + 1) = nodeId (pb c 0) (pb c 1) (c.hops + 1) := by
    unfold nodeId
    omega
  have heq : s.discover port c = (u.setNode (nodeId (pb c 0) (pb c 1) (c.hops + 1))).eastGave false := by
    unfold State.discover
    rw [if_neg (by simp [hc, ht]), hrec]
    simp only [Bool.not_true, Bool.false_eq_true, if_false, hb]
    unfold State.tileDiscover
    simp only [hnode, ne_eq, not_true_eq_false, decide_false, Bool.false_and, Bool.false_eq_true, if_false, hid]
    rw [if_neg (by simp; omega)]
  obtain ⟨h1, h2⟩ := u.setNode_spec (pb c 0) (pb c 1) (c.hops + 1) hr
  exact completes_eq rfl heq ⟨h1, h2.of_eq rfl rfl rfl⟩

theorem ringDiscover_sends {s : State} {path : Path} {ring : Nat} (hb : s.build = .head) (hlt : ring < 12)
    (hr : s.reaches path (R.RING_CMD_DISCOVER ring) .set) (hup : s.portState (2 * ring) = 2) (hmute : s.mute ring = false) :
    completes (.ringDiscover path .set ring) s (fun t =>
      (∃ x : Cell, (t.port (2 * ring)).q1 = (s.port (2 * ring)).q1 ++ [{ cell := x, stomp := false }] ∧ x.typ = tDiscover ∧ x.bcast = true ∧
        x.src = nodeId s.headNo ring 0 ∧ x.hops = 0 ∧ x.payload = natLE s.headNo 1 ++ natLE ring 1) ∧ sameElse s t calFlds) := by
  obtain ⟨hq, hp⟩ := s.ctlSeq_sent (nodeId s.headNo ring 0)
  have htile : s.isTile = false := by rw [State.isTile, hb]
  have hcmd : s.discoverCmd ring = (s.sendDiscover ring, []) := by rw [State.discoverCmd, htile, if_neg Bool.false_ne_true]
  have heq := State.command_ring (raw := 1) (.inl rfl) (by rw [hb]; exact hlt) hr rfl hcmd
  have hsend : SentOnly s (s.sendDiscover ring) ∧ ∃ x : Cell, ((s.sendDiscover ring).port (2 * ring)).q1 =
      (s.port (2 * ring)).q1 ++ [{ cell := x, stomp := false }] ∧ x.typ = tDiscover ∧ x.bcast = true ∧
        x.src = nodeId s.headNo ring 0 ∧ x.hops = 0 ∧ x.payload = natLE s.headNo 1 ++ natLE ring 1 := by
    have hport : (s.ctlSeq (nodeId s.headNo ring 0)).2.2.port (2 * ring) = s.port (2 * ring) := congrArg (fun p => Sparse.look p (2 * ring) Port.init) hp
    unfold State.sendDiscover
    dsimp only
    rw [hmute, if_neg Bool.false_ne_true, State.sendCell, State.enqueue_control (State.queues_up ((hq.rd _).trans hup)) rfl]
    exact ⟨hq.trans (State.setPort_sent _ _ _), _,
      (congrArg Port.q1 (State.port_setPort_same _ _ _)).trans (congrArg (fun p : Port => p.q1 ++ [_]) hport), rfl, rfl, rfl, rfl, rfl⟩
  rw [State.counted_nil] at heq
  refine completes_eq rfl ((if_neg (Nat.not_le.2 hlt)).trans heq) ⟨?_, ((hsend.1.frame []).calCheck).answered path⟩
  rw [State.port_answered, State.port_calCheck]
  exact hsend.2

theorem takePad_length (l : List Byte) (n : Nat) : (takePad l n).length = n := by
  induction n generalizing l with
  | zero => rfl
  | succ n ih => cases l <;> simp [takePad, ih]

theorem leNat_lt (l : List Byte) : leNat l < 256 ^ l.length := by
  induction l with
  | nil => decide
  | cons b t ih =>
    have := b.isLt
    rw [leNat, List.length_cons, pow_succ]
    omega

theorem pn_lt (c : Cell) (i n : Nat) : pn c i n < 256 ^ n := by
  have h := leNat_lt (takePad (c.payload.drop i) n)
  rwa [takePad_length] at h

section Neigh

variable {s : State} {port : Nat} {c : Cell}

/-- The state with what a NEIGH cell tells of the neighbour at a tile's port. -/
def State.neighSeen (s : State) (id : Nat) (c : Cell) : State :=
  (((s.setPort id { s.port id with neighOk := true, neighPort := pb c 5 }).wr (R.RING_NEIGH_A_NODE (portRing id)) (pn c 0 2)).wr
    (R.RING_NEIGH_A_ROLE (portRing id)) (pb c 2)).wr (R.RING_NEIGH_A_VALID (portRing id)) 1

/-- The fields that show the neighbour at a tile's port. -/
def neighFlds (r : Nat) : List Fld := [R.RING_NEIGH_A_NODE r, R.RING_NEIGH_A_ROLE r, R.RING_NEIGH_A_VALID r]

theorem State.neighSeen_frame (s : State) (id : Nat) (c : Cell) : sameElse s (s.neighSeen id c) (neighFlds (portRing id)) :=
  ((((sameElse.refl s _).of_eq rfl rfl rfl).wr (by simp [neighFlds])).wr (by simp [neighFlds])).wr (by simp [neighFlds])

theorem State.neighSeen_spec (s : State) (id : Nat) (c : Cell) :
    (s.neighSeen id c).rd (R.RING_NEIGH_A_NODE (portRing id)) = pn c 0 2 ∧ (s.neighSeen id c).rd (R.RING_NEIGH_A_ROLE (portRing id)) = pb c 2 % 4 ∧
      (s.neighSeen id c).rd (R.RING_NEIGH_A_VALID (portRing id)) = 1 ∧ ((s.neighSeen id c).port id).neighOk = true := by
  have k1 : (R.RING_NEIGH_A_NODE (portRing id)).key ≠ (R.RING_NEIGH_A_ROLE (portRing id)).key := by
    simp only [Fld.key, R.RING_NEIGH_A_NODE, R.RING_NEIGH_A_ROLE]
    omega
  have k2 : (R.RING_NEIGH_A_NODE (portRing id)).key ≠ (R.RING_NEIGH_A_VALID (portRing id)).key := by
    simp only [Fld.key, R.RING_NEIGH_A_NODE, R.RING_NEIGH_A_VALID]
    omega
  have k3 : (R.RING_NEIGH_A_ROLE (portRing id)).key ≠ (R.RING_NEIGH_A_VALID (portRing id)).key := by
    simp only [Fld.key, R.RING_NEIGH_A_ROLE, R.RING_NEIGH_A_VALID]
    omega
  refine ⟨?_, ?_, State.rd_wr_same _ _ _, ?_⟩
  · rw [State.neighSeen, State.rd_wr_ne _ _ k2, State.rd_wr_ne _ _ k1, State.rd_wr_same]
    exact Nat.mod_eq_of_lt (pn_lt c 0 2)
  · rw [State.neighSeen, State.rd_wr_ne _ _ k3, State.rd_wr_same]
    rfl
  · exact congrArg Port.neighOk (State.port_setPort_same s id _)

variable (hb : s.build = .tile) (ht : c.typ = tNeigh) (hrec : s.receiveLocal port c = true) (hst : s.portState port = 1)
  (h9 : s.allAt port 9 = true)
include hb ht hrec hst h9

/-- A NEIGH cell in stage 9 of a tile that keeps its position. -/
theorem State.neighIn_kept (hpos : s.hasPosition = true) (hg : port = 0 → (s.port 2).gavePos = false) : s.neighIn port c = s.neighSeen port c := by
  have hport : port = 0 ∨ port = 2 := by
    simp only [State.receiveLocal, hb, portExists, Bool.and_eq_true, Bool.or_eq_true, decide_eq_true_eq] at hrec
    exact hrec.1.1.1.1
  have hspur : isSpur port = false := by rcases hport with rfl | rfl <;> decide
  have hend : portEnd port = 0 := by rcases hport with rfl | rfl <;> rfl
  have hkeep : (s.hasPosition && !(decide (port = 0) && (s.port 2).gavePos)) = true := by
    rcases hport with rfl | rfl
    · simp [hpos, hg rfl]
    · simp [hpos]
  unfold State.neighIn
  rw [if_pos (by simp [ht, hrec, State.training, hst, h9])]
  unfold State.neighTaken
  simp only [hspur, Bool.false_eq_true, if_false, hend, if_true, hb, hkeep]
  rfl

/-- The position that the east neighbour gave a tile, if it holds one. -/
def State.eastHeld (s : State) : Option Nat :=
  if s.hasPosition then some (nodePos (s.rd (R.RING_STATE_NODE 0)))
  else if s.on (R.RING_NEIGH_A_VALID 1) then eastGives (s.rd (R.RING_NEIGH_A_ROLE 1)) (s.rd (R.RING_NEIGH_A_NODE 1)) else none

/-- A NEIGH cell of a head's end A: the tile takes position 1, and a different one from its east neighbour is a conflict. -/
theorem State.neighIn_headA (hp : port = 0) (hfree : (s.hasPosition && !(s.port 2).gavePos) = false) (hrole : pb c 2 = 2) (hprt : pb c 5 = 0) :
    s.neighIn port c =
      ((match s.eastHeld with
        | some e => if e ≠ 1 then (s.neighSeen port c).count (R.RING_EVT_CONFLICT 0) else s.neighSeen port c
        | none => s.neighSeen port c).setNode (nodeId (pb c 3) (pb c 4) 1)).eastGave false := by
  subst hp
  have hfree' : (s.hasPosition && !(decide True && (s.port 2).gavePos)) = false := by simpa using hfree
  have hgive : westGives (pb c 2) (pn c 0 2) (pb c 5) = some 1 := by simp [westGives, hrole, hprt]
  unfold State.neighIn
  rw [if_pos (by simp [ht, hrec, State.training, hst, h9])]
  unfold State.neighTaken
  simp only [show isSpur 0 = false from rfl, Bool.false_eq_true, if_false, show portEnd 0 = 0 from rfl, if_true, hb, hfree', hgive]
  rfl

end Neigh

/-- Settles O30: DISCOVER by `State.setNode_spec`, the command by `State.command_ring`, NEIGH by what it shows and whom it gives a position. -/
theorem discoveryAndNeighbours : Obligations.DiscoveryAndNeighbours := by
  intro port c s
  refine ⟨fun u hb hc ht hrec hnode hh hr => discover_tile hb hc ht hrec hnode hh hr,
    fun path ring hb hlt hr hup hmute => ringDiscover_sends hb hlt hr hup hmute, fun hb ht hrec hst h9 => ⟨fun hpos hg => ?_, fun hpos hp h2 h4 h5 hv => ?_,
    fun hpos hg hp h2 h4 h5 hne => ?_⟩⟩
  · obtain ⟨h1, h2, h3, h4⟩ := s.neighSeen_spec port c
    exact completes_eq rfl (State.neighIn_kept hb ht hrec hst h9 hpos hg) ⟨h1, h2, h3, h4, s.neighSeen_frame port c⟩
  · have heast : s.eastHeld = none := by simp [State.eastHeld, hpos, State.on, hv]
    have heq := State.neighIn_headA hb ht hrec hst h9 hp (by simp [hpos]) h2 h5
    rw [heast] at heq
    obtain ⟨t1, -⟩ := (s.neighSeen port c).setNode_spec (pb c 3) (pb c 4) 1 (by omega)
    exact completes_eq rfl heq ⟨t1 0 (by decide), t1 1 (by decide)⟩
  · have heast : s.eastHeld = some (nodePos (s.rd (R.RING_STATE_NODE 0))) := by rw [State.eastHeld, if_pos hpos]
    have heq := State.neighIn_headA hb ht hrec hst h9 hp (by simp [hg]) h2 h5
    rw [heast] at heq
    simp only [if_pos hne] at heq
    obtain ⟨t1, t2⟩ := ((s.neighSeen port c).count (R.RING_EVT_CONFLICT 0)).setNode_spec (pb c 3) (pb c 4) 1 (by omega)
    refine completes_eq rfl heq ⟨t1 0 (by decide), t1 1 (by decide), (t2.read (by decide)).trans ?_⟩
    rw [State.rd_count32 _ rfl, (s.neighSeen_frame port c).read]
    subst hp
    decide

end Sys2Proof.Machine
end

section
/-! Remote register access: the cells of R340 at the node and back (O33), and the host's apertures (O34). -/

namespace Sys2Proof.Machine

/-! ### O33 -/

theorem natLE_length (v n : Nat) : (natLE v n).length = n := by
  induction n generalizing v with
  | zero => rfl
  | succ n ih => simp [natLE, ih]

/-- The answer of a tile to a register cell. -/
theorem State.respond_tile {s : State} {port : Nat} {c : Cell} {err : Bool} (reason : Nat) (data : List Word) (hb : s.build = .tile) (hp : port < 24)
    (hup : s.portState 0 = 2) :
    sameElse s (s.respond port c err reason data) [] ∧ ∃ x : Cell, ((s.respond port c err reason data).port 0).q1 =
      (s.port 0).q1 ++ [{ cell := x, stomp := false }] ∧ x.typ = tRegRsp ∧ x.dest = c.src ∧ x.aux = c.aux ∧ x.rsp = true ∧ x.err = err ∧
      x.payload.drop 16 = bytesOf data := by
  have hspur : isSpur port = false := decide_eq_false (by omega)
  unfold State.respond
  simp only [hspur, Bool.false_eq_true, if_false]
  obtain ⟨h1, n, sync, h2⟩ := State.originate_tile (s := s) (mk := fun x => { x with rsp := true, err := err, aux := c.aux }) tRegRsp c.src
    (natLE (pn c 0 4) 4 ++ natLE (pb c 4) 1 ++ natLE (if err then reason else 0) 1 ++ natLE 0 10 ++ bytesOf data) (portRing port) hb (fun _ => rfl) hup
  refine ⟨h1.frame [], _, h2, rfl, rfl, rfl, rfl, rfl, ?_⟩
  exact List.drop_left' (by simp [natLE_length])

/-- A register cell for this tile. -/
theorem State.regIn_taken {s u : State} {port : Nat} {c : Cell} {write : Bool} (hb : s.build = .tile) (hc : c.cls = clsControl)
    (ht : c.typ = if write then tRegWr else tRegRd) (hrec : s.receive port c = (true, u)) : s.regIn port c write = u.regPerform port c write := by
  have htile : s.isTile = true := by rw [State.isTile, hb]
  unfold State.regIn
  rw [if_neg (by simp [hc, ht]), hrec]
  simp only [if_true, htile, Bool.not_true, Bool.false_and, Bool.false_eq_true, if_false]

theorem regRd_answered {s u : State} {port : Nat} {c : Cell} (hc : c.cls = clsControl) (hrec : s.receive port c = (true, u)) (hb : s.build = .tile)
    (hp : port < 24) (ht : c.typ = tRegRd) (hn : pb c 4 = 1) (hbe : u.busError .remote false (pn c 0 4 % 2097152) 1 15 = none)
    (hup : u.portState 0 = 2) :
    completes (.regRd port c) s (fun t =>
      sameElse u t [] ∧ ∃ x : Cell, (t.port 0).q1 = (u.port 0).q1 ++ [{ cell := x, stomp := false }] ∧ x.typ = tRegRsp ∧ x.dest = c.src ∧
        x.aux = c.aux ∧ x.rsp = true ∧ x.err = false ∧
        x.payload.drop 16 = bytesOf [BitVec.ofNat 32 (u.readDword .remote (pn c 0 4 % 2097152 / 4 * 4)).1]) := by
  obtain ⟨m, hm, -⟩ := u.readDword_latch .remote (pn c 0 4 % 2097152 / 4 * 4)
  have heq : s.regIn port c false =
      (u.setLatch m).respond port c false 0 [BitVec.ofNat 32 (u.readDword .remote (pn c 0 4 % 2097152 / 4 * 4)).1] := by
    rw [State.regIn_taken hb hc (by simp [ht]) hrec]
    unfold State.regPerform
    simp only [Bool.false_and, Bool.false_eq_true, if_false, hn, Nat.pow_one, show (16 : Nat) - 1 = 15 from rfl, hbe, State.readDwords_one, hm]
  obtain ⟨h1, h2⟩ := State.respond_tile (s := u.setLatch m) (port := port) (c := c) (err := false) 0
    [BitVec.ofNat 32 (u.readDword .remote (pn c 0 4 % 2097152 / 4 * 4)).1] ((State.receive_taken hrec).build.trans hb) hp hup
  exact completes_eq rfl heq ⟨h1, h2⟩

theorem drop_takePad (l : List Byte) (n i : Nat) : (takePad l n).drop i = takePad (l.drop i) (n - i) := by
  induction i generalizing l n with
  | zero => rfl
  | succ i ih =>
    cases n with
    | zero => simp [takePad]
    | succ n =>
      cases l with
      | nil => simpa [takePad] using ih [] n
      | cons b t => simpa [takePad] using ih t n

theorem takePad_takePad (l : List Byte) {n m : Nat} (h : m ≤ n) : takePad (takePad l n) m = takePad l m := by
  induction m generalizing l n with
  | zero => rfl
  | succ m ih =>
    obtain ⟨n, rfl⟩ : ∃ k, n = k + 1 := ⟨n - 1, by omega⟩
    cases l <;> simp [takePad, ih _ (show m ≤ n by omega)]

theorem leNat_pn_word (c : Cell) : wordsOf (takePad (c.payload.drop 16) 4) = [BitVec.ofNat 32 (pn c 16 4)] := by
  unfold pn
  have h := takePad_length (c.payload.drop 16) 4
  generalize takePad (c.payload.drop 16) 4 = l at *
  match l, h with
  | [_, _, _, _], _ => rfl

theorem regionAt_mendList {a : Nat} (hlo : 0x120000 ≤ a) (hhi : a < 0x128000) : regionAt a = some .mendList := by
  unfold regionAt
  rw [if_neg (by omega), if_neg (by omega), if_neg (by omega), if_neg (by omega), if_neg (by omega), if_neg (by omega), if_neg (by omega), if_pos hhi]

theorem regWr_mend {s u : State} {port : Nat} {c : Cell} (hc : c.cls = clsControl) (hrec : s.receive port c = (true, u)) (hb : s.build = .tile)
    (ht : c.typ = tRegWr) (hn : pb c 4 = 1) (hpost : pb c 5 % 2 = 1) (hmaster : nodeHead c.src = u.rd R.CRN_MASTER_HEAD_HEAD)
    (hw : u.wf = true) (hlo : 0x120000 ≤ pn c 0 4) (hhi : pn c 0 4 < 0x128000) (hal : pn c 0 4 % 4 = 0) (hbe : u.busError .remote true (pn c 0 4) 1 15 = none) :
    completes (.regWr port c) s (fun t =>
      t.rd32 .window (pn c 0 4) = pn c 16 4 ∧ (∀ f, t.rd f = u.rd f) ∧ t.out = u.out ∧ t.ports = u.ports ∧
      ∀ k, (k < Space.window.key (pn c 0 4) ∨ Space.window.key (pn c 0 4) + 4 ≤ k) → memGet t.mem k = memGet u.mem k) := by
  have hmod : pn c 0 4 % 2097152 = pn c 0 4 := Nat.mod_eq_of_lt (by omega)
  have hlt : pn c 16 4 < 4294967296 := pn_lt c 16 4
  have hval : (BitVec.ofNat 32 (pn c 16 4)).toNat = pn c 16 4 := by
    rw [BitVec.toNat_ofNat]
    exact Nat.mod_eq_of_lt hlt
  have haddr : pn c 0 4 / 4 * 4 = pn c 0 4 := by omega
  have heq : s.regIn port c true = u.wr32 .window (pn c 0 4) (pn c 16 4) := by
    rw [State.regIn_taken hb hc (by simp [ht]) hrec]
    unfold State.regPerform
    simp only [hmaster, ne_eq, not_true_eq_false, decide_false, Bool.and_false, Bool.false_eq_true, if_false, hn, Nat.pow_one,
      show (16 : Nat) - 1 = 15 from rfl, hmod, hbe, if_true, hpost, decide_true, Bool.and_self, Nat.mul_one, leNat_pn_word, State.writeDwords, dwordAt_zero,
      haddr, hval, State.writeDword, if_neg (show ¬pn c 0 4 < 0x100000 by omega), regionAt_mendList hlo hhi, State.writeMem]
  exact completes_eq rfl heq ⟨State.rd32_wr32_window u (State.wf_mem hw) _ hlt, fun f => State.rd_wr32 u _ _ _ f, rfl, rfl,
    fun k hk => State.memGet_wr32_window u _ _ hk⟩

theorem regWr_foreign {s u : State} {port : Nat} {c : Cell} (hc : c.cls = clsControl) (hrec : s.receive port c = (true, u)) (hb : s.build = .tile)
    (ht : c.typ = tRegWr) (hpost : pb c 5 % 2 = 1) (hv : u.on R.CRN_MASTER_HEAD_VALID = true) (hne : nodeHead c.src ≠ u.rd R.CRN_MASTER_HEAD_HEAD) :
    completes (.regWr port c) s (fun t =>
      t.rd R.CRN_EVT_FOREIGN = min (u.rd R.CRN_EVT_FOREIGN + 1) 4294967295 ∧ t.out = u.out ∧ t.ports = u.ports ∧
      sameElse u t [R.CRN_EVT_FOREIGN]) := by
  have htile : u.isTile = true := by rw [State.isTile, (State.receive_taken hrec).build, hb]
  have heq : s.regIn port c true = u.count R.CRN_EVT_FOREIGN := by
    rw [State.regIn_taken hb hc (by simp [ht]) hrec]
    unfold State.regPerform
    simp only [htile, hv, ne_eq, hne, not_false_eq_true, decide_true, Bool.and_self, if_true, hpost]
  exact completes_eq rfl heq ⟨State.rd_count32 u rfl, rfl, rfl, (sameElse.refl u _).count (by simp)⟩

/-- A read of the host that ends with its one dword. -/
theorem regRsp_completes {s u : State} {port : Nat} {c : Cell} {x : Remote} (hc : c.cls = clsControl) (hrec : s.receive port c = (true, u))
    (hb : s.build = .head) (ht : c.typ = tRegRsp) (herr : c.err = false) (hrel : u.relayedOf c.aux c.src = none) (hn : pb c 4 = 1)
    (hfind : u.host.remotes.find? (fun (y : Remote) => y.tag = c.aux && y.node = c.src) = some x) (hparts : x.parts = 1) (hcount : x.count = 1)
    (hgot : x.got = []) (hfail : x.failed = false) (haddr : x.addr = pn c 0 4 % 2097152) (hwait : u.host.waiting = []) :
    completes (.regRsp port c) s (fun t =>
      t.out = .data .pcie [BitVec.ofNat 32 (pn c 16 4)] :: u.out ∧ (∀ y ∈ t.host.remotes, y.tag ≠ c.aux) ∧ sameElse u t []) := by
  have htile : s.isTile = false := by rw [State.isTile, hb]
  have htag : x.tag = c.aux := by
    have h := List.find?_some hfind
    simp only [Bool.and_eq_true, decide_eq_true_eq] at h
    exact h.1
  have hfind' : u.host.remotes.find? (fun (y : Remote) => y.answers c.aux c.src false) = some x := by
    rw [← hfind]
    congr 1
    funext y
    simp [Remote.answers]
  have hword : wordsOf (takePad ((takePad c.payload 256).drop 16) (4 * 1)) = [BitVec.ofNat 32 (pn c 16 4)] := by
    rw [drop_takePad, takePad_takePad _ (by decide)]
    exact leNat_pn_word c
  have heq : s.regRspIn port c = u.remoteEnd { x with parts := 0, got := Sparse.put [] 0 (BitVec.ofNat 32 (pn c 16 4)).toNat } := by
    unfold State.regRspIn
    rw [if_neg (by simp [hc, ht]), hrec]
    simp only [Bool.not_true, htile, Bool.or_self, Bool.false_eq_true, if_false, hrel, hn]
    unfold State.remoteAnswer
    simp only [hfind', hword, herr, Bool.false_eq_true, if_false, hparts, haddr, Nat.sub_self, hfail, hgot, Nat.zero_div, Bool.or_self, if_true]
    rfl
  refine completes_eq rfl heq ?_
  unfold State.remoteEnd
  simp only [hfail, Bool.false_eq_true, if_false, State.emit, hwait]
  refine ⟨?_, fun y hy => ?_, (sameElse.refl u _).of_eq rfl rfl rfl⟩
  · simp [Remote.words, hcount, Sparse.look_put_same, -BitVec.toNat_ofNat]
  · simpa [htag] using (List.mem_filter.1 hy).2

/-- Settles O33: the register cells by what the node does with a dword (`State.regPerform`) and what the lead head does with the answer. -/
theorem remoteRegisterCells : Obligations.RemoteRegisterCells := by
  refine fun port c s u hc hrec => ⟨fun hb hp ht hn hbe hup => regRd_answered hc hrec hb hp ht hn hbe hup,
    fun hb _ ht hn hpost hv => ⟨fun hm hw hlo hhi hal hbe => regWr_mend hc hrec hb ht hn hpost hm hw hlo hhi hal hbe,
      fun hne => regWr_foreign hc hrec hb ht hpost hv hne⟩, fun x hb ht herr hrel hn hfind hparts hcount hgot hfail haddr hwait =>
    regRsp_completes hc hrec hb ht herr hrel hn hfind hparts hcount hgot hfail haddr hwait⟩

end Sys2Proof.Machine
end

section
/-! O34: the apertures of the host. -/

namespace Sys2Proof.Machine

theorem regParts_one (addr : Nat) : regParts addr 1 = [(addr, 1)] := by
  have h : overLong addr 1 = false := by simp [overLong]
  unfold regParts
  rw [h]
  rfl

theorem State.aliasOf_none {s : State} (h : s.auth.aliases = []) (f : Nat) : s.aliasOf f = f := by rw [State.aliasOf, h, List.find?_nil]

theorem State.sendTagged_home {s : State} {node typ tag : Nat} {mk : Cell → Cell} {payload : List Byte} (h : s.aliasOf (nodeHead node) = s.headNo) :
    s.sendTagged node typ tag mk payload = s.originate (nodeRing node) (fun c => mk { c with aux := tag }) typ node payload := if_pos h

/-- A remote read that fails, with none waiting behind it. -/
theorem State.remoteEnd_failed {s : State} {x : Remote} (hf : x.failed = true) (hw : s.host.waiting = []) :
    s.remoteEnd x =
      ({ s with host := { s.host with remotes := s.host.remotes.filter (fun (y : Remote) => y.tag ≠ x.tag) } } : State).completerAbort := by
  have hwait : (({ s with host := { s.host with remotes := s.host.remotes.filter (fun (y : Remote) => y.tag ≠ x.tag) } } :
      State).completerAbort).host.waiting = [] := hw
  unfold State.remoteEnd
  simp only [hf, if_true]
  rw [hwait]

section Bar2

variable {s : State} {o n : Nat} {q : HostReq} (hb : s.build = .head) (hopen : s.pathOpen .pcie = true) (hn : o / 2097152 % 128 = n)
include hb hopen

theorem State.bar2_open : (!s.pathOpen .pcie || s.isTile) = false := by
  rw [hopen, State.isTile, hb]
  rfl

theorem State.bar2_remote {h node : Nat} (ht : s.aptTarget o = .remote h node) :
    s.bar2 o q =
      if !q.write then s.remoteRead node (o % 2097152 / 4 * 4) q.count
      else if partEnabled q && !overLong (o % 2097152) q.data.length then s
      else s.remoteWrite node (o % 2097152 / 4 * 4) q.data := by
  unfold State.bar2
  rw [State.bar2_open hb hopen]
  simp only [Bool.false_eq_true, if_false, ht]

theorem bar2_partial {h node : Nat} (hw : q.write = true) (ht : s.aptTarget o = .remote h node) (hl : q.data.length ≤ 2) (hne : q.data ≠ [])
    (hp : ∃ i, i < q.data.length ∧ q.be / 16 ^ i % 16 ≠ 15) : completes (.bar2Request o q) s (fun t => t = s) := by
  obtain ⟨i, hi, hbe⟩ := hp
  have hpart : partEnabled q = true := by
    rw [partEnabled, hw, Bool.true_and]
    exact List.any_eq_true.2 ⟨i, List.mem_range.2 hi, by simpa using hbe⟩
  have hlong : overLong (o % 2097152) q.data.length = false := by
    have : q.data.length ≠ 0 := fun h => hne (List.length_eq_zero_iff.1 h)
    simp only [overLong, Bool.or_eq_false_iff, Bool.and_eq_false_iff, decide_eq_false_iff_not]
    omega
  refine completes_eq rfl ((State.bar2_remote hb hopen ht).trans ?_) rfl
  simp only [hw, Bool.not_true, Bool.false_eq_true, if_false, hpart, hlong, Bool.not_false, Bool.and_self, if_true]

include hn

omit hb hopen in
theorem State.aptTarget_noNode (hv : s.rd (R.HST_APT_VALID n) = 0) : s.aptTarget o = .noNode := by
  have hoff : (!s.on (R.HST_APT_VALID (o / 2097152 % 128)) || decide (12 ≤ nodeRing (s.rd (R.HST_APT_NODE (o / 2097152 % 128))))) = true := by
    simp [State.on, hn, hv]
  exact if_pos hoff

theorem bar2_noNode (hw : q.write = false) (hv : s.rd (R.HST_APT_VALID n) = 0) :
    completes (.bar2Request o q) s (fun t =>
      t.out = .abort .pcie :: s.out ∧ t.rd R.SYS_BERR_INFO_REASON = beNoNode ∧ t.rd R.HST_EVT_CA = min (s.rd R.HST_EVT_CA + 1) 4294967295 ∧
      t.host = { s.host with cfg := t.host.cfg }) := by
  obtain ⟨hframe, -, -, hreason, -⟩ := s.logBerr_spec (o % 2097152 / 4 * 4) beNoNode false .pcie (s.rd (R.HST_APT_NODE n))
  have heq : s.bar2 o q = (s.logBerr (o % 2097152 / 4 * 4) beNoNode false .pcie (s.rd (R.HST_APT_NODE n))).completerAbort := by
    unfold State.bar2
    rw [State.bar2_open hb hopen]
    simp only [Bool.false_eq_true, if_false, State.aptTarget_noNode hn hv, hw, hn]
  refine completes_eq rfl heq ⟨rfl, (State.rd_wr_ne _ _ (by decide)).trans hreason, (State.rd_count32 _ rfl).trans ?_, rfl⟩
  rw [hframe.read (by decide)]

/-- The state that holds a read of one dword outstanding. -/
def State.readHeld (s : State) (node addr : Nat) : State :=
  { s with host := { s.host with
    remotes := s.host.remotes ++ [{ tag := s.host.nextTag, node := node, addr := addr, count := 1, parts := 1, got := [], failed := false }]
    nextTag := (s.host.nextTag + 1) % 256 } }

theorem bar2_read (hw : q.write = false) (hc : q.count = 1) (hv : s.rd (R.HST_APT_VALID n) = 1) (hh : nodeHead (s.rd (R.HST_APT_NODE n)) = s.headNo)
    (ha : s.auth.aliases = []) (hr : nodeRing (s.rd (R.HST_APT_NODE n)) < 12) (hp : nodePos (s.rd (R.HST_APT_NODE n)) ≠ 0)
    (hlen : s.host.remotes.length < 32) (hup : s.portState (2 * nodeRing (s.rd (R.HST_APT_NODE n))) = 2)
    (hmute : s.mute (nodeRing (s.rd (R.HST_APT_NODE n))) = false) :
    completes (.bar2Request o q) s (fun t =>
      (∃ x : Remote, t.host.remotes = s.host.remotes ++ [x] ∧ x.tag = s.host.nextTag ∧ x.node = s.rd (R.HST_APT_NODE n) ∧
        x.addr = o % 2097152 / 4 * 4 ∧ x.count = 1 ∧ x.parts = 1) ∧
      (∃ y : Cell, (t.port (2 * nodeRing (s.rd (R.HST_APT_NODE n)))).q1 =
          (s.port (2 * nodeRing (s.rd (R.HST_APT_NODE n)))).q1 ++ [{ cell := y, stomp := false }] ∧
        y.typ = tRegRd ∧ y.dest = s.rd (R.HST_APT_NODE n) ∧ y.aux = s.host.nextTag) ∧ t.out = s.out ∧ sameElse s t []) := by
  generalize hnode : s.rd (R.HST_APT_NODE n) = node at *
  have htgt : s.aptTarget o = .remote s.headNo node := by
    unfold State.aptTarget
    simp only [hn, hnode, State.on, hv, decide_true, Bool.not_true, Bool.false_or, decide_eq_true_eq, if_neg (Nat.not_le.2 hr), State.aliasOf_none ha, hh,
      hp, false_and, if_false, not_true_eq_false, ne_eq]
  have heq : s.bar2 o q = (s.readHeld node (o % 2097152 / 4 * 4)).originate (nodeRing node) (fun c => { c with aux := s.host.nextTag }) tRegRd node
      (regPayload (o % 2097152 / 4 * 4) 1 0 []) := by
    rw [State.bar2_remote hb hopen htgt, hw, hc]
    simp only [Bool.not_false, if_true]
    unfold State.remoteRead State.startRemote
    simp only [if_pos hlen, regParts_one, forL, List.foldl_cons, List.foldl_nil]
    exact State.sendTagged_home (s := s.readHeld node (o % 2097152 / 4 * 4)) ((State.aliasOf_none ha _).trans hh)
  obtain ⟨h1, k, sync, d, h2⟩ := State.originate_head (s := s.readHeld node (o % 2097152 / 4 * 4)) (mk := fun c => { c with aux := s.host.nextTag })
    tRegRd node (regPayload (o % 2097152 / 4 * 4) 1 0 []) (nodeRing node) hb (fun _ => rfl) hup hmute
  refine completes_eq rfl heq ⟨⟨_, congrArg (fun t : State => t.host.remotes) h1, rfl, rfl, rfl, rfl, rfl⟩, ⟨_, h2, rfl, rfl, rfl⟩, h1.out, h1.frame []⟩

end Bar2

theorem remoteTimeout_absent {s : State} {tag : Nat} {x : Remote} (hb : s.build = .head)
    (hf : s.host.remotes.find? (fun (y : Remote) => y.tag = tag) = some x) (hwait : s.host.waiting = []) :
    completes (.remoteTimeout tag) s (fun t =>
      t.out = .abort .pcie :: s.out ∧ t.rd R.HST_EVT_ABSENT = min (s.rd R.HST_EVT_ABSENT + 1) 4294967295 ∧
      t.rd R.SYS_BERR_INFO_REASON = beAbsentNode ∧ (∀ y ∈ t.host.remotes, y.tag ≠ tag)) := by
  have htile : s.isTile = false := by rw [State.isTile, hb]
  have htag : x.tag = tag := by simpa using List.find?_some hf
  obtain ⟨hframe, -, -, hreason, -⟩ := (s.count R.HST_EVT_ABSENT).logBerr_spec x.addr beAbsentNode false .pcie x.node
  have heq : s.remoteTimeout tag =
      ({ (s.count R.HST_EVT_ABSENT).logBerr x.addr beAbsentNode false .pcie x.node with
        host := { s.host with remotes := s.host.remotes.filter (fun (y : Remote) => y.tag ≠ x.tag) } } : State).completerAbort := by
    unfold State.remoteTimeout
    simp only [htile, Bool.false_eq_true, if_false, hf]
    exact State.remoteEnd_failed rfl hwait
  refine completes_eq rfl heq ⟨rfl, ?_, (State.rd_wr_ne _ _ (by decide)).trans hreason, fun y hy => ?_⟩
  · refine (State.rd_wr_ne _ _ (by decide)).trans ((hframe.read (by decide)).trans (State.rd_count32 s rfl))
  · have := (List.mem_filter.1 hy).2
    simpa [htag] using this

/-- The register of an aperture, as its page finds it. -/
def aptOk (n : Nat) : Bool :=
  winBlk ((0x20100 + 4 * n) / 16384) = some (.HST, 0) &&
    (fldsAt .HST .head 0 ((0x20100 + 4 * n) % 4096) = some ([R.HST_APT_NODE n, R.HST_APT_VALID n], false)) && viewAt (0x20100 + 4 * n) = .base &&
    viewAddr (R.HST_APT_NODE n) .base / 4 * 4 = 0x20100 + 4 * n && (instOf .HST 0 ((0x20100 + 4 * n) % 4096)).isNone

theorem apt_ok {n : Nat} (h : n < 128) : aptOk n = true :=
  List.all_eq_true.1 (show (List.range 128).all aptOk = true by decide +kernel) n (List.mem_range.2 h)

/-! ### The write of a register that holds software's fields alone -/

theorem State.writeReg_fields {s : State} {c : Wr} {l : List Fld} (hcm : l.any (fun f => f.cls = .cm) = false) (hhu : l.any (fun f => f.cls = .hu) = false)
    (hcrn : c.b ≠ .CRN) (hthm : c.b ≠ .THM) (hctrl : c.off ≠ 4) (hi : instOf c.b c.w c.off = none) :
    s.writeReg c false l = ((s.writeFlds c false l s).1.counted c (s.writeFlds c false l s).2).calCheck := by
  have hchosen : s.hwChosen l = s := by
    refine if_neg fun h => ?_
    obtain ⟨f, hf, hm⟩ := List.any_eq_true.1 h
    simp only [Bool.and_eq_true] at hm
    exact List.any_eq_false.1 hhu f hf hm.1
  unfold State.writeReg State.writeDwordFlds State.enableWrite
  simp only [hchosen, hcrn, decide_false, Bool.false_eq_true, if_false, hcm, Bool.and_false, hctrl, hi, List.append_nil, hthm]
  rfl

/-- The verdict on a software field of a page that is stopped and not locked. -/
theorem State.judge_rw {s : State} {c : Wr} {high : Bool} {f : Fld} (h : f.cls = .rw) (hctrl : c.off ≠ 4) (hi : instOf c.b c.w c.off = none)
    (hl : s.on (R.LOCK c.pg) = false) (hg : s.gate c f = none) : s.judge c high f = s.judgeValue c f (c.result f (s.see f)) := by
  have he : c.isEnable f = false := by simp [Wr.isEnable, hctrl, hi]
  unfold State.judge
  rw [h]
  simp only [hctrl, decide_false, Bool.false_and, Bool.false_eq_true, if_false, he, hl, hg, reduceCtorEq]

/-- A field of a page without an effect of its own, but for the marks of the configuration check and of the Fold. -/
theorem State.takeFld_plain (s : State) {c : Wr} {f : Fld} (v : Nat) (hst : f ∉ storeFlds) (hw : f.cls ≠ .w1) (ht : ∀ u : State, u.taken c f v = u) :
    ∃ k a, s.takeFld c f v = { s.wr f v with cck := k, auth := a } := by
  have hsoil (u : State) : ∃ k, (if c.checked f then u.soil else u) = { u with cck := k } := by
    split
    · exact ⟨_, rfl⟩
    · exact ⟨u.cck, rfl⟩
  have hfold (u : State) : ∃ a, u.foldSoil c f = { u with auth := a } := by
    unfold State.foldSoil
    exact (ite_eq_or_eq _ _ _).elim (fun h => ⟨_, h⟩) fun h => ⟨u.auth, h⟩
  obtain ⟨k, hk⟩ := hsoil (s.wr f v)
  unfold State.takeFld
  dsimp only
  rw [State.store_plain s v hst, ht, hk]
  split
  · exact absurd ‹f.cls = .w1› hw
  · obtain ⟨a, ha⟩ := hfold { s.wr f v with cck := k }
    exact ⟨k, a, ha⟩

/-- A value that nothing refuses is taken. -/
theorem State.judgeValue_takes {s : State} {c : Wr} {f : Fld} {v : Nat} (hc : s.closed f v = none) (hl : s.lyBaseBad c f v = none)
    (hr : s.rangeBad c f v = false) : s.judgeValue c f v = .take v := by
  unfold State.judgeValue
  rw [hc]
  simp only [hl, hr, Bool.false_eq_true, if_false]

/-! ### The write of an aperture -/

/-- The write of an aperture's register by its dword. -/
abbrev aptWr (path : Path) (n : Nat) (v : Word) : Wr := ⟨.HST, 0, (0x20100 + 4 * n) % 4096, path, .base, v.toNat⟩

theorem State.judge_apt {s : State} {path : Path} {n : Nat} {v : Word} {f : Fld} (hn : n < 128) (hf : f = R.HST_APT_NODE n ∨ f = R.HST_APT_VALID n)
    (hlock : s.rd (R.LOCK 0x20000) = 0) (hv : s.rd (R.HST_APT_VALID n) = 0) :
    s.judge (aptWr path n v) false f = .take (bitsOf v.toNat f.lsb f.width) := by
  have hoff : (0x20100 + 4 * n) % 4096 = 0x100 + 4 * n := by omega
  have hi : instOf .HST 0 (0x100 + 4 * n) = none := by
    simp [instOf]
    omega
  have hl : s.on (R.LOCK (Wr.pg ⟨.HST, 0, 0x100 + 4 * n, path, .base, v.toNat⟩)) = false := by
    refine decide_eq_false ?_
    change s.rd (R.LOCK 0x20000) ≠ 1
    omega
  have hg : s.gate ⟨.HST, 0, 0x100 + 4 * n, path, .base, v.toNat⟩ f = none := by
    unfold State.gate
    simp only [hi]
    rw [if_pos (by simp), if_neg]
    rw [show (0x100 + 4 * n - 0x100) / 4 = n by omega]
    simp [State.on, hv]
  have hrw : f.cls = .rw := by rcases hf with rfl | rfl <;> rfl
  rw [aptWr, hoff, State.judge_rw hrw (by simp only; omega) hi hl hg, Wr.result_base rfl]
  have hmin : min f.width 32 = f.width := by rcases hf with rfl | rfl <;> rfl
  rw [hmin]
  refine State.judgeValue_takes ?_ rfl ?_
  · unfold State.closed
    rcases hf with rfl | rfl <;> simp [R.HST_APT_NODE, R.HST_APT_VALID, R.CLK_PLL_EN_ROOT_EN, R.BOOT_LOAD_PTR_OFFSET, R.BOOT_LOAD_DATA_DATA, R.EPC_PERIOD_NS]
  · have hb : bitsOf v.toNat f.lsb f.width ≤ f.hi := by
      rcases hf with rfl | rfl <;> simp only [bitsOf, R.HST_APT_NODE, R.HST_APT_VALID] <;> omega
    have hlo : f.lo = 0 := by rcases hf with rfl | rfl <;> rfl
    simp [State.rangeBad, State.rangeExtra, hlo, hb]

/-- A write of an aperture that is not valid. -/
theorem aperture_written {s : State} {path : Path} {n : Nat} {v : Word} (hb : s.build = .head) (hn : n < 128)
    (hr : s.reaches path (R.HST_APT_NODE n) .base) (hlock : s.rd (R.LOCK 0x20000) = 0) (hv : s.rd (R.HST_APT_VALID n) = 0) :
    completes (.apertureWrite path .base n v) s (fun t =>
      t.rd (R.HST_APT_NODE n) = v.toNat % 65536 ∧ t.rd (R.HST_APT_VALID n) = v.toNat / 2147483648 ∧
      sameElse s t ([R.HST_APT_NODE n, R.HST_APT_VALID n] ++ calFlds)) := by
  have hok := apt_ok hn
  simp only [aptOk, Bool.and_eq_true, decide_eq_true_eq, Option.isNone_iff_eq_none] at hok
  obtain ⟨⟨⟨⟨h1, h2⟩, h3⟩, h4⟩, h5⟩ := hok
  have hoff : (0x20100 + 4 * n) % 4096 = 0x100 + 4 * n := by omega
  have hplain {f : Fld} (hf : f = R.HST_APT_NODE n ∨ f = R.HST_APT_VALID n) : f ∉ storeFlds ∧ f.cls ≠ .w1 := by
    have hall : ∀ g ∈ storeFlds, g.addr < 0x20000 ∨ 0x21000 ≤ g.addr := by decide
    refine ⟨fun h => ?_, by rcases hf with rfl | rfl <;> simp [R.HST_APT_NODE, R.HST_APT_VALID]⟩
    have := hall f h
    rcases hf with rfl | rfl <;> simp only [R.HST_APT_NODE, R.HST_APT_VALID] at this <;> omega
  obtain ⟨k1, a1, ht1⟩ := s.takeFld_plain (c := aptWr path n v) (f := R.HST_APT_NODE n) (bitsOf v.toNat 0 16) (hplain (.inl rfl)).1
    (hplain (.inl rfl)).2 fun _ => rfl
  generalize hu1 : ({ s.wr (R.HST_APT_NODE n) (bitsOf v.toNat 0 16) with cck := k1, auth := a1 } : State) = u1 at ht1
  obtain ⟨k2, a2, ht2⟩ := u1.takeFld_plain (c := aptWr path n v) (f := R.HST_APT_VALID n) (bitsOf v.toNat 31 1) (hplain (.inr rfl)).1
    (hplain (.inr rfl)).2 fun _ => rfl
  generalize hu : ({ u1.wr (R.HST_APT_VALID n) (bitsOf v.toNat 31 1) with cck := k2, auth := a2 } : State) = u at ht2
  have hw : s.writeFlds (aptWr path n v) false [R.HST_APT_NODE n, R.HST_APT_VALID n] s = (u, []) := by
    unfold State.writeFlds
    simp only [List.foldl_cons, List.foldl_nil, State.judge_apt hn (.inl rfl) hlock hv, State.judge_apt hn (.inr rfl) hlock hv]
    exact congrArg (fun u => (u, ([] : List Nat)))
      ((congrArg (fun u : State => u.takeFld (aptWr path n v) (R.HST_APT_VALID n) (bitsOf v.toNat 31 1)) ht1).trans ht2)
  have heq := State.pathWrite_page (v := v) (a := 0x20100 + 4 * n) hr h4 (by omega) h1 (by rw [hb]; exact h2)
  rw [h3, State.writeReg_fields (by rfl) (by rfl) (by simp) (by simp) (by simp only [hoff]; omega) h5, hw, State.counted_nil] at heq
  have hkey : (R.HST_APT_NODE n).key ≠ (R.HST_APT_VALID n).key := by
    simp only [Fld.key, R.HST_APT_NODE, R.HST_APT_VALID]
    omega
  have hrd1 : u.rd (R.HST_APT_NODE n) = v.toNat % 65536 := by
    rw [← hu]
    refine (State.rd_wr_ne u1 _ hkey).trans ?_
    rw [← hu1]
    refine (State.rd_wr_same s _ _).trans ?_
    change v.toNat / 1 % 65536 % 65536 = _
    omega
  have hrd2 : u.rd (R.HST_APT_VALID n) = v.toNat / 2147483648 := by
    rw [← hu]
    refine (State.rd_wr_same u1 _ _).trans ?_
    have := v.isLt
    change v.toNat / 2147483648 % 2 % 2 = _
    omega
  have hfr : sameElse s u [R.HST_APT_NODE n, R.HST_APT_VALID n] := by
    have h1 : sameElse s u1 [R.HST_APT_NODE n, R.HST_APT_VALID n] := by
      rw [← hu1]
      exact ((sameElse.refl s _).wr (by simp)).of_eq rfl rfl rfl
    rw [← hu]
    exact (h1.wr (by simp)).of_eq rfl rfl rfl
  have hcal {f : Fld} (hf : f = R.HST_APT_NODE n ∨ f = R.HST_APT_VALID n) : (u.calCheck.answered path).rd f = u.rd f := by
    rw [State.rd_answered, State.rd_calCheck]
    all_goals
      rcases hf with rfl | rfl <;>
        simp only [Fld.key, R.HST_APT_NODE, R.HST_APT_VALID, R.CAL_STATE_PHASE, R.CAL_CMD_RUN, R.CAL_EVT_ABORT] <;> omega
  exact completes_eq rfl ((if_neg (by omega)).trans heq) ⟨(hcal (.inl rfl)).trans hrd1, (hcal (.inr rfl)).trans hrd2, hfr.calCheck.answered path⟩

/-- Settles O34: a request by where its aperture leads, the time-out by `State.remoteEnd_failed`, the write of an aperture field by field. -/
theorem hostApertures : Obligations.HostApertures := by
  refine fun s hb => ⟨fun o n q ho hw hc _ hn hv hh ha hr hp hlen hup hmute => bar2_read hb ho hn hw hc hv hh ha hr hp hlen hup hmute,
    fun o h node q ho hw ht hl hne hp => bar2_partial hb ho hw ht hl hne hp, fun o n q ho hw _ hn hv => bar2_noNode hb ho hn hw hv,
    fun tag x hf hwait => remoteTimeout_absent hb hf hwait, fun path n v hn hr hlock hv => aperture_written hb hn hr hlock hv⟩

end Sys2Proof.Machine
end

section
/-! O35: the event queues of the host. -/

namespace Sys2Proof.Machine

/-- A vector that the host lets through is raised. -/
theorem State.vector_open {s : State} {fn v : Nat} (h : vectorOpen s fn v = true) : s.vector fn v = s.emit (.msix fn v) := by
  simp only [vectorOpen, Bool.and_eq_true, decide_eq_true_eq, Bool.not_eq_true'] at h
  unfold State.vector
  rw [h.1, if_neg (by decide), h.2, if_neg Bool.false_ne_true]

/-- The queue's vector while its holdoff runs: put off. -/
theorem State.queueVector_held {s : State} {q : Nat} (h : s.host.holdoff.contains q = true) :
    s.queueVector q = { s with host := { s.host with owed := if s.host.owed.contains q then s.host.owed else q :: s.host.owed } } := by
  unfold State.queueVector
  rw [if_pos h]
  split
  · rfl
  · rfl

/-- The queue's vector while its holdoff does not run: raised, and the holdoff begins. -/
theorem State.queueVector_free {s : State} {q : Nat} (h : s.host.holdoff.contains q = false) (hv : vectorOpen s 0 (48 + q) = true) :
    s.queueVector q = { s.emit (.msix 0 (48 + q)) with
      host := { s.host with holdoff := if s.rd (R.HST_EVQ_CFG_HOLDOFF q) = 0 then s.host.holdoff else q :: s.host.holdoff } } := by
  unfold State.queueVector
  rw [h, if_neg Bool.false_ne_true, State.vector_open hv]
  dsimp only
  split
  · rfl
  · rfl

theorem contains_cons_self (q : Nat) (l : List Nat) : (q :: l).contains q = true := by simp

/-- What a record leaves behind at its queue. -/
theorem State.putRecord_spec {s : State} {q : Nat} (b : List Byte) (hv : s.host.holdoff.contains q = false → vectorOpen s 0 (48 + q) = true) :
    let t := s.putRecord q b
    t.rd (R.HST_EVQ_IDX_PROD q) = (s.rd (R.HST_EVQ_IDX_PROD q) + 1) % 65536 ∧
      t.out = (if s.host.holdoff.contains q then [] else [.msix 0 (48 + q)]) ++
        .hostWrite (s.rd (R.HST_EVQ_BASE_LO_ADDR q) * 64 + s.rd (R.HST_EVQ_BASE_HI_ADDR q) * 4294967296 +
          32 * (s.rd (R.HST_EVQ_IDX_PROD q) % s.queueSize q))
          (takePad b 28 ++ natLE (s.rd (R.HST_EVQ_IDX_PROD q)) 2 ++
            natLE (256 * (if s.rd (R.HST_EVQ_IDX_PROD q) / s.queueSize q % 2 = 0 then 1 else 0)) 2) :: s.out ∧
      t.host.owed.contains q = (s.host.owed.contains q || s.host.holdoff.contains q) ∧
      t.host.holdoff.contains q = (s.host.holdoff.contains q || decide (s.rd (R.HST_EVQ_CFG_HOLDOFF q) ≠ 0)) ∧
      sameElse s t [R.HST_EVQ_IDX_PROD q] := by
  have hkey : (R.HST_EVQ_CFG_HOLDOFF q).key ≠ (R.HST_EVQ_IDX_PROD q).key := by
    simp only [Fld.key, R.HST_EVQ_CFG_HOLDOFF, R.HST_EVQ_IDX_PROD]
    omega
  unfold State.putRecord
  extract_lets prod size base phase s1 t
  have ht : t = (s1.inc (R.HST_EVQ_IDX_PROD q)).queueVector q := rfl
  clear_value t
  have hframe : sameElse s (s1.inc (R.HST_EVQ_IDX_PROD q)) [R.HST_EVQ_IDX_PROD q] := ((sameElse.refl s _).emit _).inc (by simp)
  have hprod : (s1.inc (R.HST_EVQ_IDX_PROD q)).rd (R.HST_EVQ_IDX_PROD q) = (s.rd (R.HST_EVQ_IDX_PROD q) + 1) % 65536 := State.rd_inc_same s1 _
  have hhold : (s1.inc (R.HST_EVQ_IDX_PROD q)).rd (R.HST_EVQ_CFG_HOLDOFF q) = s.rd (R.HST_EVQ_CFG_HOLDOFF q) := State.rd_inc_ne s1 hkey
  by_cases h : s.host.holdoff.contains q = true
  · rw [ht, State.queueVector_held (s := s1.inc (R.HST_EVQ_IDX_PROD q)) h]
    refine ⟨hprod, ?_, ?_, ?_, hframe⟩
    · rw [if_pos h]
      rfl
    · change (if s.host.owed.contains q then s.host.owed else q :: s.host.owed).contains q = _
      rw [h, Bool.or_true]
      split
      · assumption
      · exact contains_cons_self _ _
    · change s.host.holdoff.contains q = _
      rw [h, Bool.true_or]
  · have hf : s.host.holdoff.contains q = false := by simpa using h
    rw [ht, State.queueVector_free (s := s1.inc (R.HST_EVQ_IDX_PROD q)) hf (hv hf)]
    refine ⟨hprod, ?_, ?_, ?_, hframe⟩
    · rw [if_neg h]
      rfl
    · change s.host.owed.contains q = _
      rw [hf, Bool.or_false]
    · change (if (s1.inc (R.HST_EVQ_IDX_PROD q)).rd (R.HST_EVQ_CFG_HOLDOFF q) = 0 then s.host.holdoff else q :: s.host.holdoff).contains q = _
      rw [hhold, hf, Bool.false_or]
      by_cases h0 : s.rd (R.HST_EVQ_CFG_HOLDOFF q) = 0
      · rw [if_pos h0, hf, decide_eq_false (by simpa using h0)]
      · rw [if_neg h0, contains_cons_self, decide_eq_true h0]

theorem eventCell_recorded {s u : State} {port p : Nat} {c : Cell} (hb : s.build = .head) (hp : (if isSpur port then 12 else portRing port) = p)
    (hc : c.cls = clsControl) (ht : c.typ = tEvent) (hrec : s.receive port c = (true, u)) (hlead : u.isLead = true) (hrun : u.queueRuns p = true)
    (hd3 : u.host.d3 = []) (hheld : u.host.held = [])
    (hroom : (u.rd (R.HST_EVQ_IDX_PROD p) + 1 + 65536 - u.rd (R.HST_EVQ_IDX_CONS p)) % u.queueSize p ≠ 0) :
    s.eventCell port c = u.putRecord p (takePad c.payload 28) := by
  have htile : s.isTile = false := by rw [State.isTile, hb]
  have hin : u.heldIn p = 0 := by simp [State.heldIn, hheld]
  unfold State.eventCell
  rw [if_neg (by simp [hc, ht]), hrec]
  simp only [htile, Bool.not_false, Bool.and_self, if_true]
  unfold State.eventIn
  rw [if_pos hlead, hp]
  unfold State.queueEvent
  simp only [hrun, Bool.not_true, Bool.false_eq_true, if_false, hin, Nat.add_zero, hroom, hd3, List.contains_nil]

/-- The state in which the holdoff of a queue is over. -/
def State.holdoffOver (s : State) (q : Nat) : State :=
  { s with host := { s.host with holdoff := s.host.holdoff.filter (fun x => x ≠ q), owed := s.host.owed.filter (fun x => x ≠ q) } }

theorem holdoffExpire_spec {s : State} {q : Nat} (hh : s.host.holdoff.contains q = true) (hv : vectorOpen s 0 (48 + q) = true) :
    completes (.evqHoldoffExpire q) s (fun t =>
      sameElse s t [] ∧
      (s.host.owed.contains q = false ∨ s.rd (R.HST_EVQ_IDX_PROD q) = s.rd (R.HST_EVQ_IDX_CONS q) →
        t.out = s.out ∧ t.host.holdoff.contains q = false) ∧
      (s.host.owed.contains q = true → s.rd (R.HST_EVQ_IDX_PROD q) ≠ s.rd (R.HST_EVQ_IDX_CONS q) →
        t.host.owed.contains q = false ∧ t.host.holdoff.contains q = decide (s.rd (R.HST_EVQ_CFG_HOLDOFF q) ≠ 0) ∧
        t.out = .msix 0 (48 + q) :: s.out)) := by
  have hgone (l : List Nat) : (l.filter (fun x => x ≠ q)).contains q = false := by simp
  have hheld : (s.holdoffOver q).host.holdoff.contains q = false := hgone _
  have heq : s.holdoffEnd q = if !s.host.owed.contains q || decide (s.rd (R.HST_EVQ_IDX_PROD q) = s.rd (R.HST_EVQ_IDX_CONS q)) then s.holdoffOver q
      else (s.holdoffOver q).queueVector q := if_pos hh
  have hframe : sameElse s (s.holdoffOver q) [] := (sameElse.refl s _).of_eq rfl rfl rfl
  refine completes_eq rfl heq ?_
  by_cases hgo : s.host.owed.contains q = true ∧ s.rd (R.HST_EVQ_IDX_PROD q) ≠ s.rd (R.HST_EVQ_IDX_CONS q)
  · obtain ⟨h1, h2⟩ := hgo
    rw [h1, decide_eq_false h2, if_neg (by decide), State.queueVector_free hheld hv]
    refine ⟨hframe, fun h => ?_, fun _ _ => ⟨hgone _, ?_, rfl⟩⟩
    · rcases h with h | h
      · cases h
      · exact absurd h h2
    · change (if s.rd (R.HST_EVQ_CFG_HOLDOFF q) = 0 then (s.holdoffOver q).host.holdoff else q :: (s.holdoffOver q).host.holdoff).contains q = _
      by_cases h0 : s.rd (R.HST_EVQ_CFG_HOLDOFF q) = 0
      · rw [if_pos h0, hheld, decide_eq_false (by simpa using h0)]
      · rw [if_neg h0, contains_cons_self, decide_eq_true h0]
  · have hstop : (!s.host.owed.contains q || decide (s.rd (R.HST_EVQ_IDX_PROD q) = s.rd (R.HST_EVQ_IDX_CONS q))) = true := by
      cases h : s.host.owed.contains q
      · rfl
      · exact decide_eq_true (Classical.byContradiction fun h2 => hgo ⟨h, h2⟩)
    rw [if_pos hstop]
    exact ⟨hframe, fun _ => ⟨rfl, hheld⟩, fun h1 h2 => absurd ⟨h1, h2⟩ hgo⟩

/-- Settles O35: a record by `State.putRecord_spec`, the end of a holdoff by `State.queueVector_free`, the doorbell from its definition. -/
theorem eventQueues : Obligations.EventQueues := by
  intro s hb
  refine ⟨fun port c u p _ hp hc ht hrec hlead hrun hd3 hheld hv hroom => ?_, fun q _ hh hv => holdoffExpire_spec hh hv, fun q b _ hv => ?_,
    fun q idx hq hperst hd3 => ?_⟩
  · obtain ⟨h1, h2, h3, h4, h5⟩ := u.putRecord_spec (q := p) (takePad c.payload 28) hv
    refine completes_eq rfl (eventCell_recorded hb hp hc ht hrec hlead hrun hd3 hheld hroom) ⟨h1, ⟨_, h2, ?_, ?_⟩, h3, h4, h5⟩
    · rw [List.append_assoc, List.take_left' (takePad_length _ _), takePad_takePad _ (Nat.le_refl _)]
    · simp [takePad_length, natLE_length]
  · obtain ⟨-, h2, -⟩ := s.putRecord_spec (q := q) b fun _ => hv
    rw [h2]
    cases s.host.holdoff.contains q <;> rfl
  · have hgo : (s.isTile || s.pins.perstLow || s.host.d3.contains 0 || decide (16 ≤ q)) = false := by
      simp [State.isTile, hb, hperst, hd3, hq]
    have heq : s.evqBell q idx 15 = (s.bell 0 (0x1000 + 8 * q) idx).wr (R.HST_EVQ_IDX_CONS q) idx := by
      unfold State.evqBell
      rw [hgo, if_neg Bool.false_ne_true, State.onBell, hb]
      rfl
    refine completes_eq rfl heq ⟨State.rd_wr_same _ _ _, ?_, ((sameElse.refl s _).of_eq rfl rfl rfl).wr (by simp)⟩
    exact Sparse.look_put_same _ _ _ _

end Sys2Proof.Machine
end

section
/-! O39: the capture, the slot, the shipment and VERIFY of a Fold. -/

namespace Sys2Proof.Machine

theorem fldsAt_fldCmd (b : Build) : fldsAt .FLD b 0 0x24 = some ([R.FLD_CMD_COMMIT, R.FLD_CMD_VERIFY], false) := by cases b <;> rfl

theorem State.cmWrite_fld (s : State) (path : Path) (raw : Nat) :
    s.cmWrite ⟨.FLD, 0, 0x24, path, .set, raw⟩ =
      andThen (andThen (s, []) (bitOf raw 0) (fun a => (a.foldCommit, []))) (bitOf raw 1) (fun a => a.setCm R.FLD_CMD_VERIFY) := rfl

/-- COMMIT of a Fold that is reached. -/
theorem State.command_foldCommit {s : State} {path : Path} (hr : s.reaches path R.FLD_CMD_COMMIT .set) :
    s.command path .set R.FLD_CMD_COMMIT 1 = s.foldCommit.calCheck.answered path := by
  have h := State.command_runs (a := 0x19024) (u := s.foldCommit) (rs := []) (raw := 1) (v := 1) hr rfl (by decide) rfl (fldsAt_fldCmd s.build) (by decide)
    (by decide) (by decide) (by decide) (by decide) (by decide) (by decide) (State.cmWrite_fld s path 1)
  rwa [State.counted_nil] at h

/-- VERIFY of a Fold that is reached. -/
theorem State.command_foldVerify {s : State} {path : Path} (hr : s.reaches path R.FLD_CMD_VERIFY .set) (h0 : s.rd R.FLD_CMD_VERIFY = 0) :
    s.command path .set R.FLD_CMD_VERIFY 1 = (s.wr R.FLD_CMD_VERIFY 1).calCheck.answered path := by
  have hset : s.setCm R.FLD_CMD_VERIFY = (s.wr R.FLD_CMD_VERIFY 1, []) := if_neg (by simp [State.on, h0])
  have h := State.command_runs (a := 0x19024) (u := s.wr R.FLD_CMD_VERIFY 1) (rs := []) (raw := 2) (v := 1) hr rfl (by decide) rfl (fldsAt_fldCmd s.build)
    (by decide) (by decide) (by decide) (by decide) (by decide) (by decide) (by decide)
    ((State.cmWrite_fld s path 2).trans (by
      change ((s.setCm R.FLD_CMD_VERIFY).1, [] ++ (s.setCm R.FLD_CMD_VERIFY).2) = _
      rw [hset]
      rfl))
  rwa [State.counted_nil] at h

/-! ### The capture -/

theorem State.startCapture_spec (s : State) :
    s.startCapture.ship = shCapture ∧ s.startCapture.auth.fold.restarts = 0 ∧ sameElse s s.startCapture [R.FLD_STATE_SHIP] :=
  ⟨State.rd_wr_same _ _ _, rfl, ((sameElse.refl s _).of_eq rfl rfl rfl).wr (by simp)⟩

/-- The cells of a shipment leave the Fold as it is. -/
theorem State.shipFold_spec (s : State) :
    s.shipFold.ship = shShipping ∧ s.shipFold.auth = s.auth ∧ ∀ f : Fld, f.key ≠ R.FLD_STATE_SHIP.key → f.key ≠ R.SPR_EVT_NOROUTE.key → s.shipFold.rd f = s.rd f := by
  unfold State.shipFold
  dsimp only
  generalize hn : forN ((s.auth.fold.image.length + 239) / 240) _ s = u
  have hu : Sends [R.SPR_EVT_NOROUTE] s u := by
    rw [← hn]
    refine forN_inv (fun a => Sends [R.SPR_EVT_NOROUTE] s a) (.refl _ s) fun i a h => h.trans ?_
    split
    · exact a.originate_sends _ _ (fun _ => rfl) _ _ _
    · exact a.originateSpur_sends _ (fun _ => rfl) _ _ _
  exact ⟨State.rd_wr_same _ _ _, hu.auth, fun f h1 h2 => (State.rd_wr_ne u _ h1).trans (hu.read (by simpa using h2))⟩

theorem State.endShip_idle {s : State} (h : s.rd R.FLD_STATE_HELD = 0) : s.endShip = s.setShip shIdle := by
  have hh : (s.setShip shIdle).on R.FLD_STATE_HELD = false := by
    refine decide_eq_false ?_
    rw [State.setShip, State.rd_wr_ne _ _ (by decide), h]
    decide
  unfold State.endShip
  dsimp only
  rw [hh, if_neg Bool.false_ne_true]

/-- A Fold cell that is taken on a head. -/
theorem State.foldIn_taken {s u : State} {port typ : Nat} {c : Cell} {f : State → State} (hb : s.build = .head) (hc : c.cls = clsControl) (ht : c.typ = typ)
    (hrec : s.receive port c = (true, u)) : s.foldIn port c typ f = f u := by
  have htile : s.isTile = false := by rw [State.isTile, hb]
  unfold State.foldIn
  rw [if_neg (by simp [hc, ht]), hrec]
  simp only [htile, Bool.not_false, Bool.and_self, if_true]

section Fold

variable {s : State}

/-- A clean capture takes the next number and the slot that does not hold the acknowledged Fold. -/
theorem State.captureDone_clean {sq slot : Nat} (hs : s.ship = shCapture) (hd : s.auth.fold.dirty = false)
    (hsq : (s.rd R.FLD_SEQ_SEQ + 1) % 4294967296 = sq) (hslot : (if s.auth.fold.ackSlot = some 0 then 1 else 0) = slot) :
    ∃ s1, s1 = (s.wr R.FLD_SEQ_SEQ sq).wrBytes .store (foldSlotBase slot) ((s.foldImage sq).take foldMax) ∧
      s.captureDone = ((((s1.wr R.FLD_STATE_SLOT slot).wr R.FLD_STATE_VALID 1).wr R.FLD_SIZE_BYTES (s.foldImage sq).length).setFold
        { s.auth.fold with restarts := 0, retries := 0, capEpoch := s.epochNo, image := s.foldImage sq }).shipFold := by
  refine ⟨_, rfl, ?_⟩
  subst hsq hslot
  unfold State.captureDone
  dsimp only
  rw [if_neg (by simp [hs]), if_neg (by simp [hd])]
  split
  · rename_i h
    rw [if_pos h]
  · rename_i h
    rw [if_neg fun he => h he]

theorem captureDone_clean (hs : s.ship = shCapture) (hd : s.auth.fold.dirty = false) :
    completes .foldCaptureDone s (fun t =>
      t.rd R.FLD_SEQ_SEQ = (s.rd R.FLD_SEQ_SEQ + 1) % 4294967296 ∧ t.rd R.FLD_STATE_SLOT = (if s.auth.fold.ackSlot = some 0 then 1 else 0) ∧
      t.rd R.FLD_STATE_VALID = 1 ∧ t.ship = shShipping ∧ t.auth.fold.image = s.foldImage ((s.rd R.FLD_SEQ_SEQ + 1) % 4294967296)) := by
  generalize hsq : (s.rd R.FLD_SEQ_SEQ + 1) % 4294967296 = sq
  generalize hslot : (if s.auth.fold.ackSlot = some 0 then 1 else 0) = slot
  obtain ⟨s1, hs1, heq⟩ := State.captureDone_clean hs hd hsq hslot
  refine ⟨s.captureDone, rfl, ?_⟩
  rw [heq]
  have hseq : s1.rd R.FLD_SEQ_SEQ = sq := by
    rw [hs1, State.rd_wrBytes, State.rd_wr_same, ← hsq]
    exact Nat.mod_mod _ _
  obtain ⟨h1, h2, h3⟩ := ((((s1.wr R.FLD_STATE_SLOT slot).wr R.FLD_STATE_VALID 1).wr R.FLD_SIZE_BYTES (s.foldImage sq).length).setFold
    { s.auth.fold with restarts := 0, retries := 0, capEpoch := s.epochNo, image := s.foldImage sq }).shipFold_spec
  refine ⟨?_, ?_, ?_, h1, by rw [h2]; rfl⟩
  · rw [h3 _ (by decide) (by decide)]
    change (((s1.wr R.FLD_STATE_SLOT slot).wr R.FLD_STATE_VALID 1).wr R.FLD_SIZE_BYTES (s.foldImage sq).length).rd R.FLD_SEQ_SEQ = sq
    simpa (disch := decide) only [State.rd_wr_ne] using hseq
  · rw [h3 _ (by decide) (by decide)]
    change (((s1.wr R.FLD_STATE_SLOT slot).wr R.FLD_STATE_VALID 1).wr R.FLD_SIZE_BYTES (s.foldImage sq).length).rd R.FLD_STATE_SLOT = slot
    simp (disch := decide) only [State.rd_wr_ne, State.rd_wr_same]
    change slot % 2 = slot
    rw [← hslot]
    split <;> rfl
  · rw [h3 _ (by decide) (by decide)]
    change (((s1.wr R.FLD_STATE_SLOT slot).wr R.FLD_STATE_VALID 1).wr R.FLD_SIZE_BYTES (s.foldImage sq).length).rd R.FLD_STATE_VALID = 1
    simp (disch := decide) only [State.rd_wr_ne, State.rd_wr_same]
    rfl

/-! ### The shipment -/

theorem foldAcked_spec {u : State} {sq : Nat} (hs : u.ship = shWait) (hsq : sq = u.rd R.FLD_SEQ_SEQ) (hlt : sq < 4294967296)
    (hh : u.rd R.FLD_STATE_HELD = 0) :
    let t := u.foldAcked sq
    t.ship = shIdle ∧ t.rd R.FLD_ACKED_SEQ = sq ∧ t.rd R.FLD_EVT_SHIPPED = min (u.rd R.FLD_EVT_SHIPPED + 1) 4294967295 ∧
      t.auth.fold.ackSlot = some (u.rd R.FLD_STATE_SLOT) ∧ sameElse u t [R.FLD_STATE_SHIP, R.FLD_ACKED_SEQ, R.FLD_EVT_SHIPPED] := by
  intro t
  have ht : t = (((u.setFold { u.auth.fold with ackSlot := some (u.rd R.FLD_STATE_SLOT) }).wr R.FLD_ACKED_SEQ sq).count R.FLD_EVT_SHIPPED).setShip shIdle := by
    refine (if_pos (by simp [hs, ← hsq])).trans (State.endShip_idle ?_)
    exact (State.rd_wr_ne _ _ (by decide)).trans ((State.rd_wr_ne _ _ (by decide)).trans hh)
  rw [ht]
  refine ⟨State.rd_wr_same _ _ _, ?_, ?_, rfl, ((((sameElse.refl u _).of_eq rfl rfl rfl).wr (by simp)).count (by simp)).wr (by simp)⟩
  · refine (State.rd_wr_ne _ _ (by decide)).trans ((State.rd_wr_ne _ _ (by decide)).trans ((State.rd_wr_same _ _ _).trans ?_))
    exact Nat.mod_eq_of_lt hlt
  · refine (State.rd_wr_ne _ _ (by decide)).trans ((State.rd_count32 _ rfl).trans ?_)
    rw [State.rd_wr_ne _ _ (by decide)]
    rfl

theorem foldFailed_again {u : State} (hs : u.ship = shWait) (hr : u.auth.fold.retries < 3) :
    u.foldFailed.ship = shShipping ∧ u.foldFailed.auth.fold.retries = u.auth.fold.retries + 1 := by
  have h : u.foldFailed = (u.setFold { u.auth.fold with retries := u.auth.fold.retries + 1 }).shipFold := by
    unfold State.foldFailed
    dsimp only
    rw [if_neg (by simp [hs]), if_pos hr]
  rw [h]
  obtain ⟨h1, h2, -⟩ := (u.setFold { u.auth.fold with retries := u.auth.fold.retries + 1 }).shipFold_spec
  exact ⟨h1, by rw [h2]; rfl⟩

theorem foldFailed_ends (hs : s.ship = shWait) (hr : 3 ≤ s.auth.fold.retries) (hh : s.rd R.FLD_STATE_HELD = 0) :
    s.foldFailed.ship = shIdle ∧ s.foldFailed.rd R.FLD_EVT_NACK = min (s.rd R.FLD_EVT_NACK + 1) 4294967295 := by
  have hsend := (s.count R.FLD_EVT_NACK).raiseEvent_sends .FLD 0 1 (natLE (s.rd R.FLD_SEQ_SEQ) 4)
  have h : s.foldFailed = ((s.count R.FLD_EVT_NACK).raiseEvent .FLD 0 1 (natLE (s.rd R.FLD_SEQ_SEQ) 4)).setShip shIdle := by
    unfold State.foldFailed
    dsimp only
    rw [if_neg (by simp [hs]), if_neg (Nat.not_lt.2 hr)]
    exact State.endShip_idle ((hsend.read (by decide)).trans ((State.rd_wr_ne _ _ (by decide)).trans hh))
  rw [h]
  exact ⟨State.rd_wr_same _ _ _, (State.rd_wr_ne _ _ (by decide)).trans ((hsend.read (by decide)).trans (State.rd_count32 s rfl))⟩

/-- The first part of a Fold that a standby receives. -/
theorem foldRx_first {u : State} {port : Nat} {c : Cell} (hb : u.build = .head) (hen : u.enabled .FLD 0 = true) (hrole : u.rd R.CRN_HEAD_ROLE = roleStandby)
    (hv : u.rd R.FLD_CMD_VERIFY = 0) (hs : u.ship = shIdle) (hoff : pn c 4 4 = 0)
    (hshort : min 240 (pn c 8 4) < foldLen (takePad (c.payload.drop 16) (min 240 (pn c 8 4))))
    (h64 : 64 ≤ foldLen (takePad (c.payload.drop 16) (min 240 (pn c 8 4))))
    (hmax : foldLen (takePad (c.payload.drop 16) (min 240 (pn c 8 4))) ≤ foldMax) :
    u.foldRx port c =
      (u.setFold { u.auth.fold with rxSeq := pn c 0 4, rxFrom := c.src, rx := [(0, takePad (c.payload.drop 16) (min 240 (pn c 8 4)))] }).setShip shReceiving := by
  have hrx : rxBytes [(0, takePad (c.payload.drop 16) (min 240 (pn c 8 4)))] = min 240 (pn c 8 4) := by
    simp [rxBytes, takePad_length]
  have hnot : ¬(foldMax < foldLen (takePad (c.payload.drop 16) (min 240 (pn c 8 4))) ∨ foldLen (takePad (c.payload.drop 16) (min 240 (pn c 8 4))) < 64) := by
    omega
  have hidle : (decide (u.ship = shReceiving) && decide (u.auth.fold.rxSeq = pn c 0 4) && decide (u.auth.fold.rxFrom = c.src)) = false := by simp [hs, shIdle, shReceiving]
  unfold State.foldRx
  dsimp only
  rw [hb]
  simp only [hen, Bool.not_true, Bool.or_self, Bool.false_eq_true, if_false, State.on, hv, hrole, hidle, hoff]
  generalize takePad (c.payload.drop 16) (min 240 (pn c 8 4)) = bytes at *
  rw [if_neg (by decide), if_neg (by decide)]
  simp only [Sparse.get_put_same, if_neg hnot]
  rw [show Sparse.put ([] : List (Nat × List Byte)) 0 bytes = [(0, bytes)] from rfl, hrx, if_pos hshort]

end Fold

/-- Settles O39: the captures from their definitions, the shipment by `State.shipFold_spec` and `State.endShip_idle`. -/
theorem foldCaptureAndShipping : Obligations.FoldCaptureAndShipping := by
  intro s hb
  refine ⟨fun ha hs hp => ⟨?_, fun path hr => ?_⟩, fun path ha hs hh hr => ?_, fun hs hd hr => ?_, captureDone_clean, fun port c u hc ht hrec hs hsq hh => ?_,
    fun port c u hc ht hrec hs hsq hr => ?_, fun hs hr hh => ?_, fun path hr h0 => ?_, fun hv hvalid => ?_,
    fun port c u hc ht hrec hen hrole hv hs hoff hshort h64 hmax => ?_⟩
  · exact completes_eq rfl (if_pos (by simp [ha, hs, hp])) s.startCapture_spec
  · have heq : s.foldCommit = s.startCapture := by
      unfold State.foldCommit
      rw [if_neg (by simp [ha]), if_pos (by simp [hs, hp])]
    have h := State.command_foldCommit hr
    rw [heq] at h
    obtain ⟨h1, -, h3⟩ := s.startCapture_spec
    refine completes_eq rfl h ⟨?_, h3.calCheck.answered path⟩
    rw [State.ship, State.rd_answered, State.rd_calCheck _ (by decide) (by decide) (by decide)]
    exact h1
  · have heq : s.foldCommit = s.wr R.FLD_STATE_HELD 1 := by
      unfold State.foldCommit
      rw [if_neg (by simp [ha]), if_neg (by simp [hs]), if_neg (by simp [State.on, hh])]
    have h := State.command_foldCommit hr
    rw [heq] at h
    refine completes_eq rfl h ⟨?_, (((sameElse.refl s _).wr (by simp)).calCheck).answered path⟩
    rw [State.rd_answered, State.rd_calCheck _ (by decide) (by decide) (by decide)]
    exact State.rd_wr_same _ _ _
  · have heq : s.captureDone = s.setFold { s.auth.fold with restarts := s.auth.fold.restarts + 1, dirty := false } := by
      unfold State.captureDone
      dsimp only
      rw [if_neg (by simp [hs]), if_pos hd, if_neg (Nat.not_le.2 hr)]
    exact completes_eq rfl heq ⟨rfl, rfl, hs, (sameElse.refl s _).of_eq rfl rfl rfl⟩
  · exact completes_eq rfl (State.foldIn_taken hb hc ht hrec) (foldAcked_spec hs hsq (pn_lt c 0 4) hh)
  · exact completes_eq rfl ((State.foldIn_taken hb hc ht hrec).trans (if_pos hsq)) (foldFailed_again hs hr)
  · exact completes_eq rfl (if_pos hs) (foldFailed_ends hs hr hh)
  · refine completes_eq rfl (State.command_foldVerify hr h0) ⟨?_, (((sameElse.refl s _).wr (by simp)).calCheck).answered path⟩
    rw [State.rd_answered, State.rd_calCheck _ (by decide) (by decide) (by decide)]
    exact State.rd_wr_same _ _ _
  · have hkeep : (s.wr R.FLD_CMD_VERIFY 0).rd R.FLD_STATE_VALID = 1 := (State.rd_wr_ne s _ (by decide)).trans hvalid
    refine completes_eq (t := s.foldVerified) rfl (if_pos (by simp [State.on, hv])) ?_
    unfold State.foldVerified
    simp only [State.on, hvalid, decide_true, Bool.true_and]
    cases foldCrcOk (s.readFold (s.rd R.FLD_STATE_SLOT))
    · exact ⟨(State.rd_wr_ne _ _ (by decide)).trans (State.rd_wr_same s _ _), State.rd_wr_same _ _ _, ((sameElse.refl s _).wr (by simp)).wr (by simp)⟩
    · exact ⟨State.rd_wr_same s _ _, hkeep, (sameElse.refl s _).wr (by simp)⟩
  · have hub : u.build = .head := (State.receive_taken hrec).build.trans hb
    refine completes_eq rfl ((State.foldIn_taken hb hc ht hrec).trans (foldRx_first hub hen hrole hv hs hoff hshort h64 hmax)) ⟨State.rd_wr_same _ _ _, rfl, rfl,
      ((sameElse.refl u _).of_eq rfl rfl rfl).wr (by simp)⟩

end Sys2Proof.Machine
end

section
/-! O38 fails: a RESIGN that a standby takes brings a term, which the term record keeps. -/

namespace Sys2Proof.Machine

open Tests

-- One kernel evaluation at a time: each one that waits for another holds a thread and its stack.
set_option Elab.async false

-- The check fields of a cell run over its 268 bytes, a nesting that the kernel evaluates only with a greater depth.
set_option maxRecDepth 200000

/-- A RESIGN of the peer, head 7, with the term 5 (R320). -/
def peerResign : Cell := ctl tResign (nodeId 7 2 0) noNode 5 true (natLE 7 4 ++ natLE 5 4)

theorem peerResign_received : ((stb 1 []).receive 0 peerResign).1 = true := by decide +kernel

/-- The record of the standby holds no term yet, and the RESIGN's is the highest it has seen (R315). -/
theorem peerResign_recorded :
    memGet ((stb 1 []).receive 0 peerResign).2.mem (Space.store.key termRecordAt) ≠
      memGet ((stb 1 []).resignIn 0 peerResign).mem (Space.store.key termRecordAt) := by
  decide +kernel

/-- Refutes O38: the RESIGN's TERM is above the term record, which takes it: bytes of the store change, which the statement holds unchanged. -/
theorem not_takeover : ¬ Obligations.Takeover := by
  intro h
  obtain ⟨-, -, hresign, -⟩ := h (stb 1 []) (by decide +kernel)
  obtain ⟨t, hnext, -, -, hsame⟩ := hresign 0 peerResign ((stb 1 []).receive 0 peerResign).2 (by decide +kernel) (by decide +kernel)
    (Prod.ext peerResign_received rfl) (by decide +kernel) (by decide +kernel) (by decide +kernel) (by decide +kernel)
  obtain rfl : _ = t := Host.Outcome.next.inj hnext
  exact peerResign_recorded (hsame.2 _).symm

end Sys2Proof.Machine
end


section
/-! PROOF. The three copies of an authority item and their disagreements (R307 to R310). -/

namespace Sys2Proof.Machine

/-! ### A copy that differs from two that agree -/

/-- The number with which an item is recorded (R309). -/
def itemCode : CairnItem → Nat
  | .lamp => 1
  | .epoch => 2
  | .term _ => 3

/-- The ring with which an item is recorded. -/
def itemRing : CairnItem → Nat
  | .term r => r
  | _ => 0

/-- The fields of the record of the last disagreement. -/
def lastDisFlds : List Fld := [R.CRN_LAST_DIS_ITEM, R.CRN_LAST_DIS_RING, R.CRN_LAST_DIS_COPY]

theorem State.lastDis_same (s : State) (item : CairnItem) (k : Nat) : sameElse s (s.lastDis item k) lastDisFlds :=
  (((sameElse.refl s _).wr (by simp [lastDisFlds])).wr (by simp [lastDisFlds])).wr (by simp [lastDisFlds])

/-- The item is scrubbed to `v`, and copy `k` recorded as the one that differed. -/
def State.scrubbed (s : State) (item : CairnItem) (v k : Nat) : State := ((s.setTri item (Tri.set v)).count R.CRN_EVT_SCRUB).lastDis item k

theorem State.copies_scrub {s : State} {item : CairnItem} {c0 c1 c2 k v : Nat} (again : Bool) (has : s.hasItem item = true)
    (h0 : c0 < itemSize item) (h1 : c1 < itemSize item) (h2 : c2 < itemSize item)
    (vote : ∀ l, (Tri.mk c0 c1 c2 l).split = false ∧ (Tri.mk c0 c1 c2 l).odd = some k ∧ (Tri.mk c0 c1 c2 l).voted = v) :
    s.copies item c0 c1 c2 again =
      if again then ((s.scrubbed item v k).count R.CRN_EVT_DISAGREE).cairnDisagree item k else s.scrubbed item v k := by
  obtain ⟨hsplit, hodd, hvoted⟩ := vote (s.tri item).voted
  unfold State.copies
  simp only [Nat.mod_eq_of_lt h0, Nat.mod_eq_of_lt h1, Nat.mod_eq_of_lt h2, has, hsplit, hodd, hvoted]
  rfl

theorem State.setTri_rest (s : State) (item : CairnItem) (t : Tri) :
    (s.setTri item t).build = s.build ∧ (s.setTri item t).regs = s.regs ∧ (s.setTri item t).mem = s.mem ∧
      (s.setTri item t).out = s.out ∧ (s.setTri item t).eng = s.eng := by
  cases item <;> exact ⟨rfl, rfl, rfl, rfl, rfl⟩

theorem State.setTri_same (s : State) (item : CairnItem) (t : Tri) (fs : List Fld) : sameElse s (s.setTri item t) fs := by
  obtain ⟨hbuild, hregs, hmem, _, _⟩ := s.setTri_rest item t
  exact (sameElse.refl s fs).of_eq hbuild hregs hmem

theorem State.scrubbed_same (s : State) (item : CairnItem) (v k : Nat) :
    sameElse s (s.scrubbed item v k) (R.CRN_EVT_SCRUB :: lastDisFlds) :=
  ((s.setTri_same item (Tri.set v) _).count (List.mem_cons_self ..)).trans
    ((State.lastDis_same _ item k).mono (List.subset_cons_self ..))

/-- What the record of a disagreement shows. -/
theorem State.rd_lastDis (s : State) {item : CairnItem} {k : Nat} (hk : k < 4) (hring : itemRing item < 16) :
    (s.lastDis item k).rd R.CRN_LAST_DIS_ITEM = itemCode item ∧ (s.lastDis item k).rd R.CRN_LAST_DIS_RING = itemRing item ∧
      (s.lastDis item k).rd R.CRN_LAST_DIS_COPY = k := by
  have hlast : s.lastDis item k =
      ((s.wr R.CRN_LAST_DIS_ITEM (itemCode item)).wr R.CRN_LAST_DIS_RING (itemRing item)).wr R.CRN_LAST_DIS_COPY k := by cases item <;> rfl
  have hcode : itemCode item < 16 := by cases item <;> exact of_decide_eq_true rfl
  rw [hlast]
  simp (disch := decide) only [State.rd_wr_ne, State.rd_wr_same]
  exact ⟨Nat.mod_eq_of_lt hcode, Nat.mod_eq_of_lt hring, Nat.mod_eq_of_lt hk⟩

theorem State.rd_scrubbed_scrub (s : State) (item : CairnItem) (v k : Nat) :
    (s.scrubbed item v k).rd R.CRN_EVT_SCRUB = min (s.rd R.CRN_EVT_SCRUB + 1) 4294967295 := by
  rw [State.scrubbed, (State.lastDis_same _ item k).read (by decide), State.rd_count32 _ rfl,
    (s.setTri_same item (Tri.set v) []).read (by simp)]

theorem State.scrubbed_rest (s : State) (item : CairnItem) (v k : Nat) :
    (s.scrubbed item v k).build = s.build ∧ (s.scrubbed item v k).out = s.out := by
  obtain ⟨hbuild, _, _, hout, _⟩ := s.setTri_rest item (Tri.set v)
  exact ⟨hbuild, hout⟩

/-! ### Which copy differs -/

theorem Tri.vote_third {a b : Nat} (hne : a ≠ b) (l : Nat) :
    (Tri.mk a a b l).split = false ∧ (Tri.mk a a b l).odd = some 2 ∧ (Tri.mk a a b l).voted = a := by
  simp [Tri.split, Tri.odd, Tri.voted, hne]

theorem Tri.vote_second {a b : Nat} (hne : a ≠ b) (l : Nat) :
    (Tri.mk a b a l).split = false ∧ (Tri.mk a b a l).odd = some 1 ∧ (Tri.mk a b a l).voted = a := by
  simp [Tri.split, Tri.odd, Tri.voted, hne, hne.symm]

theorem Tri.vote_first {a b : Nat} (hne : a ≠ b) (l : Nat) :
    (Tri.mk b a a l).split = false ∧ (Tri.mk b a a l).odd = some 0 ∧ (Tri.mk b a a l).voted = a := by
  simp [Tri.split, Tri.odd, Tri.voted, hne.symm]

/-! ### Three copies of which no two agree -/

/-- The copies `t` stand, the split and its disagreement counted and recorded. -/
def State.splitSeen (s : State) (item : CairnItem) (t : Tri) : State :=
  (((s.setTri item t).count R.CRN_EVT_SPLIT).count R.CRN_EVT_DISAGREE).lastDis item 3

theorem State.copies_split {s : State} {item : CairnItem} {c0 c1 c2 : Nat} (again : Bool) (has : s.hasItem item = true)
    (h0 : c0 < itemSize item) (h1 : c1 < itemSize item) (h2 : c2 < itemSize item) (h01 : c0 ≠ c1) (h02 : c0 ≠ c2) (h12 : c1 ≠ c2) :
    s.copies item c0 c1 c2 again = (s.splitSeen item ⟨c0, c1, c2, (s.tri item).voted⟩).cairnDisagree item 3 := by
  unfold State.copies
  simp only [Nat.mod_eq_of_lt h0, Nat.mod_eq_of_lt h1, Nat.mod_eq_of_lt h2, has]
  simp [Tri.split, h01, h02, h12, State.splitSeen]

theorem State.splitSeen_same (s : State) (item : CairnItem) (t : Tri) :
    sameElse s (s.splitSeen item t) (R.CRN_EVT_SPLIT :: R.CRN_EVT_DISAGREE :: lastDisFlds) :=
  (((s.setTri_same item t _).count (by simp)).count (by simp)).trans ((State.lastDis_same _ item 3).mono (by simp))

theorem State.rd_splitSeen (s : State) (item : CairnItem) (t : Tri) :
    (s.splitSeen item t).rd R.CRN_EVT_SPLIT = min (s.rd R.CRN_EVT_SPLIT + 1) 4294967295 ∧
      (s.splitSeen item t).rd R.CRN_EVT_DISAGREE = min (s.rd R.CRN_EVT_DISAGREE + 1) 4294967295 := by
  have hset := fun f => (s.setTri_same item t []).1 f (by simp)
  constructor
  · rw [State.splitSeen, (State.lastDis_same _ item 3).read (by decide), State.rd_count_ne _ (by decide), State.rd_count32 _ rfl, hset]
  · rw [State.splitSeen, (State.lastDis_same _ item 3).read (by decide), State.rd_count32 _ rfl, State.rd_count_ne _ (by decide), hset]

/-- Three copies that all differ read as the value last voted. -/
theorem Tri.voted_split {c0 c1 c2 : Nat} (l : Nat) (h01 : c0 ≠ c1) (h02 : c0 ≠ c2) (h12 : c1 ≠ c2) : (Tri.mk c0 c1 c2 l).voted = l := by
  simp [Tri.voted, h01, h02, h12]

/-! ### The halves that go dark -/

/-- Halves that go dark change in the engines alone. -/
theorem State.keepDark_eng (s was : State) : ∃ e, s.keepDark was = { s with eng := e } := by
  refine forN_inv (fun a => ∃ e, a = { s with eng := e }) ⟨s.eng, rfl⟩ fun h a ⟨e, he⟩ => ?_
  subst he
  split
  · exact ⟨_, rfl⟩
  · exact ⟨e, rfl⟩

theorem State.keepDark_same (s was : State) (fs : List Fld) : sameElse s (s.keepDark was) fs := by
  obtain ⟨e, h⟩ := s.keepDark_eng was
  rw [h]
  exact (sameElse.refl s fs).of_eq rfl rfl rfl

/-- Each half blanks while the lamps are not enabled. -/
theorem State.lmpBlk_of_not_lampEn {s : State} (h : Nat) (dark : s.lampEn = false) : s.lmpBlk h ≠ 0 := by
  have hpre : s.lmpBlkPre h ≠ 0 := by
    unfold State.lmpBlkPre
    rw [dark]
    split
    · split <;> decide
    · exact of_decide_eq_true rfl
  unfold State.lmpBlk
  simp only [if_pos hpre]
  exact hpre

/-! ### A disagreement on a tile (R310) -/

/-- An event leaves a tile's fields and memory. -/
theorem State.raiseEvent_tile {s : State} (tile : s.build = .tile) (b : Blk) (inst code : Nat) (data : List Byte) (fs : List Fld) :
    Sends fs s (s.raiseEvent b inst code data) := by
  unfold State.raiseEvent
  simp only [tile]
  refine .ite (fun _ => ?_) fun _ => s.originate_sends _ _ (fun _ => rfl) _ _ _
  exact (Sends.upd _ s _ _ _ _ _).trans (State.originate_sends _ _ _ (fun _ => rfl) _ _ _)

/-- What a disagreement of an item does to a tile. -/
def State.disarmed (s : State) : CairnItem → State
  | .lamp => s.setLampEn false
  | .epoch => { (s.wr R.EPC_STATE_STATE 0) with epc := { s.epc with first := false, good := 0 } }
  | .term _ => ((s.setTerm 0 0).wr R.CRN_MASTER_HEAD_VALID 0).wr R.CRN_MASTER_HEAD_HEAD 0

theorem State.disarmed_build (s : State) (item : CairnItem) : (s.disarmed item).build = s.build := by cases item <;> rfl

/-- A disagreement on a tile does its item's consequence and raises an event. -/
theorem State.cairnDisagree_tile {s : State} (tile : s.build = .tile) (item : CairnItem) (k : Nat) (fs : List Fld) :
    Sends fs (s.disarmed item) (s.cairnDisagree item k) := by
  have hstep : s.cairnDisagree item k = (s.disarmed item).raiseEvent .CRN 0 1 (natLE (itemCode item) 1 ++ natLE k 1) := by
    unfold State.cairnDisagree
    simp only [tile]
    cases item <;> rfl
  rw [hstep]
  exact State.raiseEvent_tile ((s.disarmed_build item).trans tile) _ _ _ _ fs

theorem State.disarmed_same (s : State) (item : CairnItem) :
    sameElse s (s.disarmed item) [R.EPC_STATE_STATE, R.CRN_MASTER_HEAD_VALID, R.CRN_MASTER_HEAD_HEAD] := by
  have hset : sameElse s (s.setTerm 0 0) [R.EPC_STATE_STATE, R.CRN_MASTER_HEAD_VALID, R.CRN_MASTER_HEAD_HEAD] :=
    (sameElse.refl s _).of_eq rfl rfl rfl
  cases item with
  | lamp => exact (sameElse.refl s _).of_eq rfl rfl rfl
  | epoch => exact ((sameElse.refl s _).wr (f := R.EPC_STATE_STATE) (v := 0) (by simp)).of_eq rfl rfl rfl
  | term r => exact (hset.wr (by simp)).wr (by simp)

/-! ### A disagreement on a head: it gives up (R316, R318, R319) -/

theorem State.allRings_role (s : State) (role : Nat) {q : Nat} (hq : q < 12) : ((s.allRings role).ringAuth q).role = role := by
  have hpref : ∀ n, n ≤ 12 → ∀ q, q < n → ((forN n (fun r a => a.setRingAuth r { a.ringAuth r with role := role }) s).ringAuth q).role = role := by
    intro n
    induction n with
    | zero => exact fun _ q h => absurd h (Nat.not_lt_zero q)
    | succ n ih =>
      intro hn q hlt
      rw [forN_succ]
      by_cases hqn : q = n
      · subst hqn
        rw [State.ringAuth, State.setRingAuth]
        simp only [Sparse.look_put_same]
      · rw [State.ringAuth, State.setRingAuth]
        simp only [Sparse.look_put_ne _ _ _ hqn]
        exact ih (by omega) q (by omega)
  exact hpref 12 (Nat.le_refl _) q hq

/-- An active head that gives up has resigned from each ring, and keeps the first reason. -/
theorem State.giveUp_active {s : State} {reason : Nat} (head : s.build = .head) (on : s.enabled .CRN 0 = true)
    (active : s.rd R.CRN_HEAD_ROLE = roleActive) (hreason : reason < 16) :
    (s.giveUp reason).rd R.CRN_HEAD_ROLE = roleResigned ∧
      (s.giveUp reason).rd R.CRN_HEAD_REASON = (if s.rd R.CRN_HEAD_REASON = 0 then reason else s.rd R.CRN_HEAD_REASON) ∧
      ∀ q, q < 12 → (s.giveUp reason).masters q = false := by
  have hread : ∀ t, t = (if s.rd R.CRN_HEAD_REASON = 0 then s.wr R.CRN_HEAD_REASON reason else s) →
      t.rd R.CRN_HEAD_REASON = if s.rd R.CRN_HEAD_REASON = 0 then reason else s.rd R.CRN_HEAD_REASON := by
    rintro t rfl
    split
    · rw [State.rd_wr_same]; exact Nat.mod_eq_of_lt hreason
    · rfl
  have hread := hread _ rfl
  have hgo : (!s.enabled .CRN 0 || decide (s.rd R.CRN_HEAD_ROLE = roleResigned)) = false := by rw [on, active]; decide
  unfold State.giveUp
  simp only [head, hgo, if_neg Bool.false_ne_true]
  generalize (if s.rd R.CRN_HEAD_REASON = 0 then s.wr R.CRN_HEAD_REASON reason else s) = s1 at hread ⊢
  have hdrop : GivesUp [] s1 ((forN 12 (fun r a => a.dropOwn r) s1).sendResigns reason) :=
    (GivesUp.forN s1 fun r a => a.dropOwn_givesUp _ r).trans (State.sendResigns_givesUp _ _ _)
  generalize (forN 12 (fun r a => a.dropOwn r) s1).sendResigns reason = s2 at hdrop ⊢
  have hall : GivesUp [] s1 (s2.allRings roleResigned) := hdrop.trans (State.allRings_givesUp _ _ _)
  have hring := fun q (hq : q < 12) => s2.allRings_role roleResigned hq
  generalize s2.allRings roleResigned = s3 at hall hring ⊢
  have hsend := (s3.wr R.CRN_HEAD_ROLE roleResigned).raiseEvent_sends .CRN 0 2 (natLE reason 1)
  generalize hs4 : (s3.wr R.CRN_HEAD_ROLE roleResigned).raiseEvent .CRN 0 2 (natLE reason 1) = s4 at hsend ⊢
  refine ⟨?_, ?_, fun q hq => ?_⟩
  · rw [hsend.read (by decide), State.rd_wr_same]; rfl
  · rw [hsend.read (by decide), State.rd_wr_ne _ _ (by decide), hall.read (by simp), hread]
  · have hrings : s4.ringAuth q = s3.ringAuth q := by
      unfold State.ringAuth
      rw [hsend.auth, hsend.build, State.on, hsend.read (by decide), State.rd_wr_ne _ _ (by decide)]
      rfl
    rw [State.masters, hrings, hring q hq]
    rfl

/-! ### The outcomes, behind the halves that go dark -/

section
variable {s : State} {item : CairnItem}

/-- The fields that a scrub changes. -/
theorem scrub_flds : R.CRN_EVT_SCRUB :: lastDisFlds =
    [R.CRN_EVT_SCRUB, R.CRN_LAST_DIS_ITEM, R.CRN_LAST_DIS_RING, R.CRN_LAST_DIS_COPY] := rfl

/-- A copy of an item that differs is scrubbed to the value of the other two, counted and recorded. -/
theorem State.scrubbed_dark {v k : Nat} (hk : k < 4) (hring : itemRing item < 16) :
    ((s.scrubbed item v k).keepDark s).rd R.CRN_EVT_SCRUB = min (s.rd R.CRN_EVT_SCRUB + 1) 4294967295 ∧
      ((s.scrubbed item v k).keepDark s).rd R.CRN_LAST_DIS_ITEM = itemCode item ∧
      ((s.scrubbed item v k).keepDark s).rd R.CRN_LAST_DIS_RING = itemRing item ∧
      ((s.scrubbed item v k).keepDark s).rd R.CRN_LAST_DIS_COPY = k ∧ ((s.scrubbed item v k).keepDark s).out = s.out ∧
      ((s.scrubbed item v k).keepDark s).cairn = (s.setTri item (Tri.set v)).cairn ∧
      sameElse s ((s.scrubbed item v k).keepDark s)
        [R.CRN_EVT_SCRUB, R.CRN_LAST_DIS_ITEM, R.CRN_LAST_DIS_RING, R.CRN_LAST_DIS_COPY] := by
  have hdark := fun f => ((s.scrubbed item v k).keepDark_same s []).1 f (by simp)
  obtain ⟨hitem, hri, hcopy⟩ := State.rd_lastDis ((s.setTri item (Tri.set v)).count R.CRN_EVT_SCRUB) hk hring
  obtain ⟨e, he⟩ := (s.scrubbed item v k).keepDark_eng s
  refine ⟨(hdark _).trans (s.rd_scrubbed_scrub item v k), (hdark _).trans hitem, (hdark _).trans hri, (hdark _).trans hcopy, ?_, ?_,
    (scrub_flds ▸ s.scrubbed_same item v k).trans (State.keepDark_same _ _ _)⟩
  · rw [he]; exact (s.scrubbed_rest item v k).2
  · rw [he]; rfl

/-- What a scrubbed item that differed again, within 1 ms, leaves behind on a tile. -/
theorem State.disagreed_dark {u : State} {k : Nat} (tile : u.build = .tile) (was : State) :
    (∀ f, f.key ≠ R.EPC_STATE_STATE.key → f.key ≠ R.CRN_MASTER_HEAD_VALID.key → f.key ≠ R.CRN_MASTER_HEAD_HEAD.key →
        ((u.cairnDisagree item k).keepDark was).rd f = u.rd f) ∧
      ((u.cairnDisagree item k).keepDark was).cairn = (u.disarmed item).cairn ∧
      ((u.cairnDisagree item k).keepDark was).epc = (u.disarmed item).epc ∧
      sameElse (u.disarmed item) ((u.cairnDisagree item k).keepDark was) [] := by
  have hsends := State.cairnDisagree_tile tile item k []
  obtain ⟨e, he⟩ := (u.cairnDisagree item k).keepDark_eng was
  have hdark := hsends.frame.trans (State.keepDark_same (u.cairnDisagree item k) was [])
  refine ⟨fun f h1 h2 h3 => ?_, ?_, ?_, hdark⟩
  · rw [hdark.1 f (by simp)]
    exact (u.disarmed_same item).1 f (by simp [h1, h2, h3])
  · rw [he]; exact hsends.cairn
  · rw [he]; exact hsends.epc

end

/-! ### The statement -/

section
variable {s : State} {item : CairnItem} {c0 c1 c2 k v : Nat} {P : State → Prop}

/-- The first time, the copy is scrubbed. -/
theorem cairn_once (has : s.hasItem item = true) (h0 : c0 < itemSize item) (h1 : c1 < itemSize item) (h2 : c2 < itemSize item)
    (vote : ∀ l, (Tri.mk c0 c1 c2 l).split = false ∧ (Tri.mk c0 c1 c2 l).odd = some k ∧ (Tri.mk c0 c1 c2 l).voted = v)
    (hp : P ((s.scrubbed item v k).keepDark s)) : completes (.cairnCopyDisagree item c0 c1 c2 false) s P :=
  completes_eq rfl (congrArg (fun t => State.keepDark t s) (State.copies_scrub false has h0 h1 h2 vote)) hp

/-- A second one within 1 ms is a disagreement. -/
theorem cairn_again (has : s.hasItem item = true) (h0 : c0 < itemSize item) (h1 : c1 < itemSize item) (h2 : c2 < itemSize item)
    (vote : ∀ l, (Tri.mk c0 c1 c2 l).split = false ∧ (Tri.mk c0 c1 c2 l).odd = some k ∧ (Tri.mk c0 c1 c2 l).voted = v)
    (hp : P ((((s.scrubbed item v k).count R.CRN_EVT_DISAGREE).cairnDisagree item k).keepDark s)) :
    completes (.cairnCopyDisagree item c0 c1 c2 true) s P :=
  completes_eq rfl (congrArg (fun t => State.keepDark t s) (State.copies_scrub true has h0 h1 h2 vote)) hp

/-- Three different copies are a disagreement at once. -/
theorem cairn_split (again : Bool) (has : s.hasItem item = true) (h0 : c0 < itemSize item) (h1 : c1 < itemSize item)
    (h2 : c2 < itemSize item) (h01 : c0 ≠ c1) (h02 : c0 ≠ c2) (h12 : c1 ≠ c2)
    (hp : P (((s.splitSeen item ⟨c0, c1, c2, (s.tri item).voted⟩).cairnDisagree item 3).keepDark s)) :
    completes (.cairnCopyDisagree item c0 c1 c2 again) s P :=
  completes_eq rfl (congrArg (fun t => State.keepDark t s) (State.copies_split again has h0 h1 h2 h01 h02 h12)) hp

end

/-- The state of a scrubbed item that differs again. -/
theorem State.rd_again (s : State) {item : CairnItem} {v k : Nat} (hk : k < 4) (hring : itemRing item < 16) :
    ((s.scrubbed item v k).count R.CRN_EVT_DISAGREE).rd R.CRN_EVT_SCRUB = min (s.rd R.CRN_EVT_SCRUB + 1) 4294967295 ∧
      ((s.scrubbed item v k).count R.CRN_EVT_DISAGREE).rd R.CRN_EVT_DISAGREE = min (s.rd R.CRN_EVT_DISAGREE + 1) 4294967295 ∧
      ((s.scrubbed item v k).count R.CRN_EVT_DISAGREE).rd R.CRN_LAST_DIS_RING = itemRing item ∧
      ((s.scrubbed item v k).count R.CRN_EVT_DISAGREE).rd R.CRN_LAST_DIS_COPY = k := by
  obtain ⟨_, hri, hcopy⟩ := State.rd_lastDis ((s.setTri item (Tri.set v)).count R.CRN_EVT_SCRUB) hk hring
  refine ⟨?_, ?_, ?_, ?_⟩
  · rw [State.rd_count_ne _ (by decide)]; exact s.rd_scrubbed_scrub item v k
  · rw [State.rd_count32 _ rfl, (s.scrubbed_same item v k).read (by decide)]
  · rw [State.rd_count_ne _ (by decide)]; exact hri
  · rw [State.rd_count_ne _ (by decide)]; exact hcopy

theorem State.again_same (s : State) (item : CairnItem) (v k : Nat) :
    sameElse s ((s.scrubbed item v k).count R.CRN_EVT_DISAGREE) (R.CRN_EVT_SCRUB :: R.CRN_EVT_DISAGREE :: lastDisFlds) :=
  ((s.scrubbed_same item v k).mono (by simp [lastDisFlds])).count (by simp)

/-- Behind a disagreement of the ring's term a tile has no master and term 0. -/
theorem State.term_disagreed {u : State} {k : Nat} (tile : u.build = .tile) (was : State) :
    ((u.cairnDisagree (.term 0) k).keepDark was).termTri 0 = Tri.set 0 ∧
      ((u.cairnDisagree (.term 0) k).keepDark was).rd R.CRN_MASTER_HEAD_VALID = 0 ∧
      ((u.cairnDisagree (.term 0) k).keepDark was).rd R.CRN_MASTER_HEAD_HEAD = 0 ∧
      sameElse u ((u.cairnDisagree (.term 0) k).keepDark was) [R.CRN_MASTER_HEAD_VALID, R.CRN_MASTER_HEAD_HEAD] := by
  obtain ⟨_, hcairn, _, hsame⟩ := State.disagreed_dark (item := .term 0) (k := k) tile was
  have hwritten : sameElse u (u.disarmed (.term 0)) [R.CRN_MASTER_HEAD_VALID, R.CRN_MASTER_HEAD_HEAD] :=
    (((sameElse.refl u _).of_eq (u := u.setTerm 0 0) rfl rfl rfl).wr (by simp)).wr (by simp)
  refine ⟨?_, ?_, ?_, hwritten.trans (hsame.mono (by simp))⟩
  · rw [State.termTri, hcairn]
    exact Sparse.look_put_same _ _ _ _
  · rw [hsame.1 _ (by simp), State.disarmed, State.rd_wr_ne _ _ (by decide), State.rd_wr_same]
    rfl
  · rw [hsame.1 _ (by simp), State.disarmed, State.rd_wr_same]
    rfl

/-- Behind a disagreement of the epoch counter a tile acquires anew. -/
theorem State.epoch_disagreed {u : State} {k : Nat} (tile : u.build = .tile) (was : State) :
    ((u.cairnDisagree .epoch k).keepDark was).cairn = u.cairn ∧ ((u.cairnDisagree .epoch k).keepDark was).epState = epAcquire ∧
      ((u.cairnDisagree .epoch k).keepDark was).epc.first = false ∧ ((u.cairnDisagree .epoch k).keepDark was).epc.good = 0 := by
  obtain ⟨_, hcairn, hepc, hsame⟩ := State.disagreed_dark (item := .epoch) (k := k) tile was
  refine ⟨hcairn, ?_, by rw [hepc]; rfl, by rw [hepc]; rfl⟩
  rw [State.epState, hsame.1 _ (by simp)]
  exact u.rd_wr_same R.EPC_STATE_STATE 0

/-- Settles O36: three copies of which two agree are scrubbed to their value, three different ones split, and a disagreement has its item's
consequence on a tile and makes a head give up. -/
theorem copiesOfTheEpochCounter : Obligations.CopiesOfTheEpochCounter := by
  unfold Obligations.CopiesOfTheEpochCounter
  intro a b c s ha hb hc hne tile
  have hterm : s.hasItem (.term 0) = true := by simp [State.hasItem, tile]
  refine ⟨?epochOnce, ?epochAgain, fun hac hbc => ?epochSplit, fun ha2 hb2 => ⟨?lampOnce, ?lampAgain⟩, ?termOnce, ?termAgain, ?head⟩
  case epochOnce =>
    refine cairn_once rfl ha ha hb (Tri.vote_third hne) ?_
    obtain ⟨hscrub, hitem, _, hcopy, hout, hcairn, hsame⟩ := State.scrubbed_dark (s := s) (item := .epoch) (v := a) (k := 2) (by decide) (by decide)
    exact ⟨by rw [hcairn]; rfl, hscrub, hitem, hcopy, hout, hsame⟩
  case epochAgain =>
    refine cairn_again rfl ha hb ha (Tri.vote_second hne) ?_
    obtain ⟨hcairn, hstate, hfirst, hgood⟩ :=
      State.epoch_disagreed (u := (s.scrubbed .epoch a 1).count R.CRN_EVT_DISAGREE) (k := 1) tile s
    obtain ⟨hrd, _⟩ := State.disagreed_dark (u := (s.scrubbed .epoch a 1).count R.CRN_EVT_DISAGREE) (item := .epoch) (k := 1) tile s
    obtain ⟨_, hcount, _, hcopy⟩ := s.rd_again (item := .epoch) (v := a) (k := 1) (by decide) (by decide)
    exact ⟨by rw [hcairn]; rfl, by rw [hrd _ (by decide) (by decide) (by decide), hcount],
      by rw [hrd _ (by decide) (by decide) (by decide), hcopy], hstate, hfirst, hgood⟩
  case epochSplit =>
    refine cairn_split false rfl ha hb hc hne hac hbc ?_
    obtain ⟨hcairn, hstate, _⟩ := State.epoch_disagreed (u := s.splitSeen .epoch ⟨a, b, c, s.epochNo⟩) (k := 3) tile s
    obtain ⟨hrd, _⟩ := State.disagreed_dark (u := s.splitSeen .epoch ⟨a, b, c, s.epochNo⟩) (item := .epoch) (k := 3) tile s
    obtain ⟨hsplit, hcount⟩ := s.rd_splitSeen .epoch ⟨a, b, c, s.epochNo⟩
    obtain ⟨_, _, hcopy⟩ := State.rd_lastDis (((s.setTri .epoch ⟨a, b, c, s.epochNo⟩).count R.CRN_EVT_SPLIT).count R.CRN_EVT_DISAGREE)
      (item := .epoch) (k := 3) (by decide) (by decide)
    refine ⟨?_, (hrd _ (by decide) (by decide) (by decide)).trans hsplit, (hrd _ (by decide) (by decide) (by decide)).trans hcount,
      (hrd _ (by decide) (by decide) (by decide)).trans hcopy, hstate⟩
    change (State.cairn _).epoch.voted = _
    rw [show (s.tri .epoch).voted = s.epochNo from rfl, hcairn]
    exact Tri.voted_split _ hne hac hbc
  case lampOnce =>
    refine cairn_once rfl ha2 ha2 hb2 (Tri.vote_third hne) ?_
    obtain ⟨hscrub, hitem, _, hcopy, hout, hcairn, hsame⟩ := State.scrubbed_dark (s := s) (item := .lamp) (v := a) (k := 2) (by decide) (by decide)
    exact ⟨by rw [hcairn]; rfl, hscrub, hitem, hcopy, hout, hsame⟩
  case lampAgain =>
    refine cairn_again rfl hb2 ha2 ha2 (Tri.vote_first hne) ?_
    obtain ⟨hrd, hcairn, _, hsame⟩ :=
      State.disagreed_dark (u := (s.scrubbed .lamp a 0).count R.CRN_EVT_DISAGREE) (item := .lamp) (k := 0) tile s
    obtain ⟨hscrub, hcount, _, hcopy⟩ := s.rd_again (item := .lamp) (v := a) (k := 0) (by decide) (by decide)
    have hoff : ((((s.scrubbed .lamp a 0).count R.CRN_EVT_DISAGREE).cairnDisagree .lamp 0).keepDark s).lampEn = false := by
      rw [State.lampEn, hcairn]
      rfl
    refine ⟨by rw [hcairn]; rfl, hoff, fun h _ => State.lmpBlk_of_not_lampEn h hoff, (hrd _ (by decide) (by decide) (by decide)).trans hcopy,
      (hrd _ (by decide) (by decide) (by decide)).trans hscrub, (hrd _ (by decide) (by decide) (by decide)).trans hcount, ?_⟩
    exact ((s.again_same .lamp a 0).of_eq rfl rfl rfl).trans (hsame.mono (by simp))
  case termOnce =>
    refine cairn_once hterm ha ha hb (Tri.vote_third hne) ?_
    obtain ⟨hscrub, hitem, hring, hcopy, _, hcairn, hsame⟩ :=
      State.scrubbed_dark (s := s) (item := .term 0) (v := a) (k := 2) (by decide) (by decide)
    have htri : ((s.scrubbed (.term 0) a 2).keepDark s).termTri 0 = Tri.set a := by
      rw [State.termTri, hcairn]
      exact Sparse.look_put_same _ _ _ _
    refine ⟨?_, htri, hscrub, hitem, hring, hcopy, hsame⟩
    rw [State.term, htri]
    simp [Tri.voted, Tri.set]
  case termAgain =>
    rintro split rfl hcase
    by_cases hsp : a ≠ c ∧ b ≠ c
    · obtain ⟨hac, hbc⟩ := hsp
      refine cairn_split true hterm ha hb hc hne hac hbc ?_
      obtain ⟨htri, hvalid, hhead, hsame⟩ :=
        State.term_disagreed (u := s.splitSeen (.term 0) ⟨a, b, c, (s.tri (.term 0)).voted⟩) (k := 3) tile s
      obtain ⟨_, hcount⟩ := s.rd_splitSeen (.term 0) ⟨a, b, c, (s.tri (.term 0)).voted⟩
      obtain ⟨_, _, hcopy⟩ := State.rd_lastDis
        (((s.setTri (.term 0) ⟨a, b, c, (s.tri (.term 0)).voted⟩).count R.CRN_EVT_SPLIT).count R.CRN_EVT_DISAGREE)
        (item := .term 0) (k := 3) (by decide) (by decide)
      refine ⟨htri, hvalid, hhead, ?_, (hsame.read (by decide)).trans hcount, ?_⟩
      · rw [hsame.read (by decide)]
        exact hcopy.trans (by simp [hac, hbc])
      · exact ((s.splitSeen_same _ _).mono (by simp [lastDisFlds])).trans (hsame.mono (by simp))
    · obtain rfl : c = a := hcase.resolve_left (by simpa using hsp)
      refine cairn_again hterm ha hb ha (Tri.vote_second hne) ?_
      obtain ⟨htri, hvalid, hhead, hsame⟩ :=
        State.term_disagreed (u := (s.scrubbed (.term 0) c 1).count R.CRN_EVT_DISAGREE) (k := 1) tile s
      obtain ⟨_, hcount, _, hcopy⟩ := s.rd_again (item := .term 0) (v := c) (k := 1) (by decide) (by decide)
      refine ⟨htri, hvalid, hhead, ?_, (hsame.read (by decide)).trans hcount, ?_⟩
      · rw [hsame.read (by decide)]
        simpa using hcopy
      · exact ((s.again_same _ _ _).mono (by simp [lastDisFlds])).trans (hsame.mono (by simp))
  case head =>
    intro u r head hr hon active
    refine cairn_again (by simp [State.hasItem, head, hr]) ha hb ha (Tri.vote_second hne) ?_
    obtain ⟨_, hcount, hring, hcopy⟩ := u.rd_again (item := .term r) (v := a) (k := 1) (by decide) (show r < 16 by omega)
    have hsame := u.again_same (.term r) a 1
    generalize hv : (u.scrubbed (.term r) a 1).count R.CRN_EVT_DISAGREE = v at hcount hring hcopy hsame ⊢
    have hvb : v.build = .head := by rw [← hv]; exact head
    have hve : v.enabled .CRN 0 = true := by rw [State.enabled, State.on, hsame.read (by decide)]; exact hon
    have hvr : v.rd R.CRN_HEAD_ROLE = roleActive := by rw [hsame.read (by decide), active]
    have hgive : v.cairnDisagree (.term r) 1 = v.giveUp 1 := by
      unfold State.cairnDisagree
      simp only [hvb]
    obtain ⟨hrole, hreason, hmasters⟩ := State.giveUp_active (reason := 1) hvb hve hvr (by decide)
    have hgives := v.giveUp_givesUp 1
    rw [hgive]
    obtain ⟨e, he⟩ := (v.giveUp 1).keepDark_eng u
    have hdark := fun f => ((v.giveUp 1).keepDark_same u []).1 f (by simp)
    refine ⟨?_, (hdark _).trans ((hgives.read (by decide)).trans hring), (hdark _).trans ((hgives.read (by decide)).trans hcopy),
      (hdark _).trans ((hgives.read (by decide)).trans hcount), (hdark _).trans hrole, ?_, fun q hq => by rw [he]; exact hmasters q hq⟩
    · obtain ⟨_, _, _, _, _, _, _, _, hrest⟩ := hgives.rest
      rw [he, hrest, ← hv]
      exact Sparse.look_put_same _ _ _ _
    · rw [hdark, hreason, hsame.read (by decide)]

end Sys2Proof.Machine
end


section
/-! PROOF. The management port (R359 to R361). -/

namespace Sys2Proof.Machine

/-! ### What the port holds is shown nowhere -/

/-- The state with SCL held or not, and a transaction held or not. -/
def State.setHeld (s : State) (b : Bool) (o : Option MgtOp) : State := s.setPwr { s.eng.pwr with stretch := b, mgt := o }

theorem State.view_setHeld (s : State) (b : Bool) (o : Option MgtOp) (f : Fld) : (s.setHeld b o).view f = s.view f := rfl
theorem State.seeHalf_setHeld (s : State) (b : Bool) (o : Option MgtOp) (h : Nat) (f : Fld) :
    (s.setHeld b o).seeHalf h f = s.seeHalf h f := rfl

theorem State.see_setHeld (s : State) (b : Bool) (o : Option MgtOp) (f : Fld) : (s.setHeld b o).see f = s.see f := by
  unfold State.see
  simp only [State.view_setHeld, State.seeHalf_setHeld]
  rfl

theorem State.readDword_setHeld (s : State) (b : Bool) (o : Option MgtOp) (path : Path) (a : Nat) :
    ((s.setHeld b o).readDword path a).1 = (s.readDword path a).1 := by
  unfold State.readDword
  simp only [State.see_setHeld]
  split
  · cases winBlk (a / 16384) with
    | none => rfl
    | some bw =>
      by_cases hid : a % 4096 = 0
      · simp only [if_pos hid]
      · simp only [if_neg hid]
        rw [show (s.setHeld b o).build = s.build from rfl]
        cases fldsAt bw.1 s.build bw.2 (a % 4096) with
        | none => rfl
        | some p =>
          obtain ⟨l, high⟩ := p
          cases high with
          | true => cases l <;> rfl
          | false =>
            cases l with
            | nil => rfl
            | cons f l => dsimp only; split <;> rfl
  · cases regionAt a <;> rfl

theorem State.busError_setHeld (s : State) (b : Bool) (o : Option MgtOp) (path : Path) (write : Bool) (addr n be : Nat) :
    (s.setHeld b o).busError path write addr n be = s.busError path write addr n be := rfl

/-! ### A transaction of a device that is up -/

/-- The port takes part: its address is usable, SCL is not held, and the device is not held in reset. -/
theorem State.mgtBegin_up {s : State} (lo : 8 ≤ s.rd R.MGT_STATE_ADDR) (hi : s.rd R.MGT_STATE_ADDR < 120)
    (up : s.pstate = pSummit ∨ s.pstate = pShoulder) (free : s.boot.phase ≠ .held) (open_ : s.eng.pwr.stretch = false) (o : MgtOp) :
    s.mgtBegin o = s.mgtRun o := by
  have hstop : s.cpuStopped = false := by
    unfold State.cpuStopped
    rcases up with h | h <;> rw [h] <;> rfl
  have hvalley : s.pstate ≠ pValley := by rcases up with h | h <;> rw [h] <;> decide
  unfold State.mgtBegin
  simp [hstop, hvalley, free, open_, Nat.not_lt.2 lo, Nat.not_le.2 hi]

/-- In reset the port takes no part. -/
theorem State.mgtBegin_held {s : State} (held : s.boot.phase = .held) (o : MgtOp) : s.mgtBegin o = s := by
  unfold State.mgtBegin
  rw [if_pos (.inr (.inr (.inr held)))]

/-! ### What a transaction does -/

section
variable {s : State}

/-- A write of one dword of the mend list. -/
theorem mgtWrite_word {a : Nat} {data : List Byte} (lo : 0x120000 ≤ a) (hi : a < 0x128000) (ali : a % 4 = 0)
    (herr : s.busError .mgt true a 1 15 = none) (len : data.length = 4) (pec : s.rd R.MGT_CFG_PEC_EN = 0) :
    s.mgtWrite a 1 data none = ((s.wr32 .window a (leNat data)).count R.MGT_EVT_TRANS).mgtEnd mlOk .mgtAck := by
  have hoff : s.on R.MGT_CFG_PEC_EN = false := by simp [State.on, pec]
  obtain ⟨w, hw, hlt⟩ : ∃ w : Word, wordsOf data = [w] ∧ w.toNat = leNat data := by
    match data, len with
    | [x, y, z, v], _ =>
      refine ⟨_, rfl, (BitVec.toNat_ofNat ..).trans (Nat.mod_eq_of_lt ?_)⟩
      simp only [leNat]
      omega
  have htake : data.take (4 * 1) = data := List.take_of_length_le (by omega)
  have haddr : a / 4 * 4 = a := by omega
  unfold State.mgtWrite
  simp only [show (16 : Nat) ^ 1 - 1 = 15 from rfl, herr, hoff, htake, hw, State.writeDwords, dwordAt_zero, haddr, hlt, State.writeDword,
    if_neg (show ¬a < 0x100000 by omega), regionAt_mendList lo hi, State.writeMem]
  simp [len]

/-- A write with a wrong PEC. -/
theorem mgtWrite_wrongPec {a n : Nat} {data : List Byte} {pec : Byte} (herr : s.busError .mgt true a n (16 ^ n - 1) = none)
    (len : data.length = 4 * n) (on : s.rd R.MGT_CFG_PEC_EN = 1) (wrong : pec ≠ BitVec.ofNat 8 (crc8 (s.mgtHead a n ++ data))) :
    s.mgtWrite a n data (some pec) = (s.count R.MGT_EVT_PEC).mgtEnd mlPec .mgtNack := by
  have hon : s.on R.MGT_CFG_PEC_EN = true := by simp [State.on, on]
  have htake : data.take (4 * n) = data := List.take_of_length_le (by omega)
  unfold State.mgtWrite
  simp only [herr, hon, htake]
  simp [len, wrong]

/-- The bytes that the port returns for one dword: the dword, and the PEC where it is enabled. -/
theorem mgtRead_word {a : Nat} (n : Nat) (herr : s.busError .mgt false a 1 15 = none) :
    ∃ m pec, s.mgtRead a 1 n = ((s.setLatch m).count R.MGT_EVT_TRANS).mgtEnd mlOk
        (.mgtData (clockedBytes (bytesOf [BitVec.ofNat 32 (s.readDword .mgt (a / 4 * 4)).1] ++ pec) n)) ∧
      pec.length ≤ 1 ∧ (s.rd R.MGT_CFG_PEC_EN = 0 → pec = []) := by
  obtain ⟨m, hm, _⟩ := s.readDword_latch .mgt (a / 4 * 4)
  refine ⟨m, if s.on R.MGT_CFG_PEC_EN then [BitVec.ofNat 8 (crc8 (s.mgtHead a 1 ++ [BitVec.ofNat 8 (2 * s.rd R.MGT_STATE_ADDR + 1)] ++
    bytesOf [BitVec.ofNat 32 (s.readDword .mgt (a / 4 * 4)).1]))] else [], ?_, ?_⟩
  · unfold State.mgtRead
    simp only [herr, State.readDwords_one, hm]
  · constructor
    · split <;> simp
    · intro h
      simp [State.on, h]

/-- What a transaction with the outcome `last` leaves behind. -/
theorem State.mgtEnd_counted (s : State) {f : Fld} (last : Nat) (o : Out) (hlast : last < 8) (hw : f.width = 32)
    (hf : f.key ≠ R.MGT_STATE_LAST.key) :
    ((s.count f).mgtEnd last o).out = o :: s.out ∧ ((s.count f).mgtEnd last o).rd f = min (s.rd f + 1) 4294967295 ∧
      ((s.count f).mgtEnd last o).rd R.MGT_STATE_LAST = last ∧ sameElse s ((s.count f).mgtEnd last o) [f, R.MGT_STATE_LAST] := by
  refine ⟨rfl, ?_, ?_, ((sameElse.refl s _).count (by simp)).wr (by simp)⟩
  · change ((s.count f).wr R.MGT_STATE_LAST last).rd f = _
    rw [State.rd_wr_ne _ _ hf, State.rd_count32 s hw]
  · change ((s.count f).wr R.MGT_STATE_LAST last).rd R.MGT_STATE_LAST = _
    rw [State.rd_wr_same]
    exact Nat.mod_eq_of_lt hlast

/-! ### The bytes as the host clocks them -/

theorem clockedBytes_length (d : List Byte) (n : Nat) : (clockedBytes d n).length = n := by
  simp [clockedBytes]

theorem clockedBytes_getD_lt {d : List Byte} {n i : Nat} (hn : i < n) (hi : i < d.length) : (clockedBytes d n).getD i 0 = d.getD i 0 := by
  rw [clockedBytes, List.getD_eq_getElem?_getD, List.getElem?_take, if_pos hn, List.getElem?_append_left hi, List.getD_eq_getElem?_getD]

theorem clockedBytes_getD_ge {d : List Byte} {n i : Nat} (hn : i < n) (hi : d.length ≤ i) : (clockedBytes d n).getD i 0 = 255 := by
  have hlt : i - d.length < n := by omega
  rw [clockedBytes, List.getD_eq_getElem?_getD, List.getElem?_take, if_pos hn, List.getElem?_append_right hi, List.getElem?_replicate, if_pos hlt]
  rfl

end

/-! ### The statement -/

/-- What the bytes of a read of one dword are: the dword's four, then the PEC where it is enabled, then 0xFF. -/
theorem clockedBytes_word {w : Word} {pec : List Byte} (n : Nat) (hpec : pec.length ≤ 1) :
    let d := clockedBytes (bytesOf [w] ++ pec) n
    d.length = n ∧ (∀ i, i < n → i < 4 → d.getD i 0 = (bytesOf [w]).getD i 0) ∧ (∀ i, i < n → 5 ≤ i → d.getD i 0 = 255) ∧
      (4 < n → pec = [] → d.getD 4 0 = 255) := by
  have h4 : (bytesOf [w]).length = 4 := rfl
  refine ⟨clockedBytes_length _ n, fun i hn hi => ?_, fun i hn hi => ?_, fun hn hnil => ?_⟩
  · rw [clockedBytes_getD_lt hn (by rw [List.length_append, h4]; omega)]
    simp [List.getD_eq_getElem?_getD, List.getElem?_append_left (show i < (bytesOf [w]).length by omega)]
  · exact clockedBytes_getD_ge hn (by rw [List.length_append, h4]; omega)
  · exact clockedBytes_getD_ge hn (by rw [hnil, List.append_nil, h4])

/-- Settles O42: each transaction of the management port comes down to one write, one read or one outcome, and SCL held is shown nowhere. -/
theorem managementPort : Obligations.ManagementPort := by
  unfold Obligations.ManagementPort
  intro s lo hi up free
  have begin_ : s.eng.pwr.stretch = false → ∀ o, s.mgtBegin o = s.mgtRun o := fun hst => State.mgtBegin_up lo hi up free hst
  have hvalley : s.pstate ≠ pValley := by rcases up with h | h <;> rw [h] <;> decide
  have byte : ∀ a, a < 2097152 → a % 16777216 = a := fun a ha => Nat.mod_eq_of_lt (by omega)
  refine ⟨?write, ?pec, ?read, ?timeout, ?wake, ?resume, fun u a data pec held => ⟨?_, ?_⟩, ?valley⟩
  case write =>
    intro a data hst _ wf hlo hhi hali herr hlen hoff
    have heq : s.mgtBegin { write := true, addr := a % 16777216, count := 1 % 256, data := data, pec := none, clocked := 0 } =
        ((s.wr32 .window a (leNat data)).count R.MGT_EVT_TRANS).mgtEnd mlOk .mgtAck := by
      rw [begin_ hst, byte a (by omega)]
      exact mgtWrite_word hlo hhi hali herr hlen hoff
    obtain ⟨hout, htrans, hlast, hsame⟩ := (s.wr32 .window a (leNat data)).mgtEnd_counted (f := R.MGT_EVT_TRANS) mlOk .mgtAck (by decide) rfl (by decide)
    have hlt : leNat data < 4294967296 := by simpa [hlen] using leNat_lt data
    refine completes_eq rfl heq ⟨?_, hout, hlast, ?_, fun f h1 h2 => ?_, fun k hk => ?_⟩
    · exact State.rd32_wr32_window s (State.wf_mem wf) a hlt
    · rw [htrans, State.rd_wr32]
    · rw [hsame.1 f (by simp [h1, h2]), State.rd_wr32]
    · rw [hsame.2, State.memGet_wr32_window s a _ hk]
  case pec =>
    intro a n data pec hst ha hn herr hlen hon hwrong
    have heq : s.mgtBegin { write := true, addr := a % 16777216, count := n % 256, data := data, pec := some pec, clocked := 0 } =
        (s.count R.MGT_EVT_PEC).mgtEnd mlPec .mgtNack := by
      rw [begin_ hst, byte a ha, Nat.mod_eq_of_lt hn]
      exact mgtWrite_wrongPec herr hlen hon hwrong
    exact completes_eq rfl heq (s.mgtEnd_counted mlPec .mgtNack (by decide) rfl (by decide))
  case read =>
    intro a n hst ha herr
    obtain ⟨m, pec, hread, hpec, hnil⟩ := mgtRead_word n herr
    have heq : s.mgtBegin { write := false, addr := a % 16777216, count := 1 % 256, data := [], pec := none, clocked := n } = s.mgtRead a 1 n := by
      rw [begin_ hst, byte a ha]
      rfl
    obtain ⟨hout, _, hlast, hsame⟩ := (s.setLatch m).mgtEnd_counted (f := R.MGT_EVT_TRANS) mlOk _ (by decide) rfl (by decide)
    obtain ⟨hlen, hword, hff, hfour⟩ := clockedBytes_word (w := BitVec.ofNat 32 (s.readDword .mgt (a / 4 * 4)).1) n hpec
    exact completes_eq rfl (heq.trans hread) ⟨_, hout, hlen, hword, hff, fun hn hoff => hfour hn (hnil hoff), hlast,
      ((sameElse.refl s _).of_eq rfl rfl rfl).trans (hsame.mono (by simp))⟩
  case timeout =>
    intro hon
    have heq : s.sclTimeout = (s.count R.MGT_EVT_TIMEOUT).mgtEnd mlTimeout .mgtRelease := if_pos (by simp [State.on, hon])
    exact completes_eq rfl heq (s.mgtEnd_counted mlTimeout .mgtRelease (by decide) rfl (by decide))
  case wake =>
    intro hst hbus
    have heq : s.mgtWakeEnd = (((s.setHeld false none).count R.MGT_EVT_WAKE_NACK).emit .mgtRelease).mgtEnd mlWake .mgtNack := by
      unfold State.mgtWakeEnd
      simp only [hst, hbus]
      rfl
    obtain ⟨_, hnack, hlast, hsame⟩ :=
      (s.setHeld false none).mgtEnd_counted (f := R.MGT_EVT_WAKE_NACK) mlWake .mgtNack (by decide) rfl (by decide)
    exact completes_eq rfl heq ⟨rfl, hnack, hlast, rfl, ((sameElse.refl s _).of_eq rfl rfl rfl).trans (hsame.of_eq rfl rfl rfl)⟩
  case resume =>
    intro a hst hbus hoff ha herr hheld
    obtain ⟨m, pec, hread, _, hnil⟩ := mgtRead_word (s := s.setHeld false none) (a := a) 5 herr
    have heq : s.mgtWakeEnd = (s.setHeld false none).mgtRead a 1 5 := by
      unfold State.mgtWakeEnd State.mgtResume
      simp only [hst, hbus, hheld, ne_eq, hvalley]
      rfl
    obtain ⟨hout, _, hlast, hsame⟩ :=
      ((s.setHeld false none).setLatch m).mgtEnd_counted (f := R.MGT_EVT_TRANS) mlOk _ (by decide) rfl (by decide)
    refine completes_eq rfl (heq.trans hread) ⟨?_, hlast, rfl, rfl, ((sameElse.refl s _).of_eq rfl rfl rfl).trans (hsame.mono (by simp))⟩
    rw [hout, hnil hoff, State.readDword_setHeld]
    rfl
  · exact completes_eq rfl (State.mgtBegin_held held _) rfl
  · exact completes_eq rfl (State.mgtBegin_held held _) rfl
  case valley =>
    intro u haddr hfree hstate hphase hdown hstranded hst a n ha
    have hstop : u.cpuStopped = true := by simp [State.cpuStopped, hstate, hdown]
    have hedge : u.wakeEdge = u := by
      unfold State.wakeEdge
      simp [hphase, ppWaking, ppCommitted, ppIdle]
    have heq : u.mgtBegin { write := false, addr := a % 16777216, count := 1 % 256, data := [], pec := none, clocked := n } =
        u.setHeld true (some { write := false, addr := a, count := 1, data := [], pec := none, clocked := n }) := by
      unfold State.mgtBegin
      simp [hstop, hedge, hphase, hstate, hdown, hst, hfree, haddr, Nat.not_lt.2 lo, Nat.not_le.2 hi, State.on, hstranded,
        Nat.mod_eq_of_lt ha, ppWaking, ppCommitted, State.setHeld]
    exact completes_eq rfl heq ⟨rfl, rfl, rfl, (sameElse.refl u _).of_eq rfl rfl rfl⟩

end Sys2Proof.Machine
end


section
/-! O45 fails: no burst is refused where BURSTS is 0, and what the counter of error responses holds above its 32 bits then stays. -/

namespace Sys2Proof.Machine

open Tests

-- One kernel evaluation at a time: each one that waits for another holds a thread and its stack.
set_option Elab.async false

/-- Channel 0 in quarantine, BURSTS 0, and a counter of error responses that holds 2^32. -/
def quarNoBursts : State :=
  let s := dT dI 5 [(R.DRC_CH_TRN_CFG_BURSTS 0, 0)]
  { s with regs := Sparse.put s.regs (R.DRC_CH_EVT_ERRRSP 0).key 4294967296 }

theorem quarNoBursts_reaches : quarNoBursts.reaches .kryty (R.DRC_CH_TRN_CMD_GO 0) .base := by
  unfold State.reaches
  decide +kernel

theorem quarNoBursts_quiet : quarNoBursts.dramQuiet := by
  unfold State.dramQuiet
  decide +kernel

/-- The operation starts, and the counter is what it was. -/
theorem quarNoBursts_counter :
    (quarNoBursts.trainCmd .kryty .base 0 1).rd (R.DRC_CH_EVT_ERRRSP 0) = 4294967296 ∧
      quarNoBursts.rd (R.DRC_CH_EVT_ERRRSP 0) = 4294967296 ∧ quarNoBursts.rd (R.DRC_CH_TRN_CFG_BURSTS 0) = 0 := by
  decide +kernel

/-- Refutes O45: a POINT_RD with BURSTS 0 on a quarantined channel leaves a counter that stands above 2^32 - 1, and does not bring it down to that. -/
theorem not_trainingOperations : ¬ Obligations.TrainingOperations := by
  intro h
  obtain ⟨hgo, -⟩ := h .kryty 0 quarNoBursts (by decide +kernel)
  obtain ⟨-, hquar, -⟩ := hgo quarNoBursts_reaches (by decide +kernel) quarNoBursts_quiet
  obtain ⟨t, hnext, -, -, -, -, hcount, -⟩ := hquar (1, .pointRd .kryty .base 0) (by simp) (by decide +kernel)
  obtain rfl : _ = t := Host.Outcome.next.inj hnext
  obtain ⟨hafter, hbefore, hbursts⟩ := quarNoBursts_counter
  rw [hbefore, hbursts] at hcount
  exact absurd (hafter.symm.trans hcount) (by decide)

end Sys2Proof.Machine
end


section
/-! PROOF. Refresh of the DRAM channels (R366 to R372, R379, R400). -/

namespace Sys2Proof.Machine

/-! ### The fields of a channel lie apart -/

/-- The read and write delays of slice `d` of a channel. -/
def delays (j d : Nat) : List Fld :=
  [R.DRC_CH_RD_DLY_DLY0 j d, R.DRC_CH_RD_DLY_DLY1 j d, R.DRC_CH_RD_DLY_DLY2 j d, R.DRC_CH_RD_DLY_DLY3 j d,
    R.DRC_CH_WR_DLY_DLY0 j d, R.DRC_CH_WR_DLY_DLY1 j d, R.DRC_CH_WR_DLY_DLY2 j d, R.DRC_CH_WR_DLY_DLY3 j d]

/-- The fields that a COMMIT taken changes (R379). -/
def takeFlds (j : Nat) : List Fld :=
  [R.DRC_CH_ACT_MISC_VREF0 j, R.DRC_CH_ACT_MISC_VREF1 j, R.DRC_CH_ACT_MISC_CA j, R.DRC_CH_ACT_MISC_WCK j, R.DRC_STATE_TRAIN_FAIL (j / 2),
    R.DRC_CH_TRN_CMD_GO j, R.DRC_CH_TRN_RESULT_BUSY j] ++ (List.range 4).flatMap (delays j)

theorem mem_takeFlds {j d : Nat} (hd : d < 4) {f : Fld} (hf : f ∈ delays j d) : f ∈ takeFlds j :=
  List.mem_append_right _ (List.mem_flatMap.2 ⟨d, List.mem_range.2 hd, hf⟩)

/-- No field of the list is `f`. -/
def Fld.apart (f : Fld) (l : List Fld) : Bool := l.all (fun g => f.key ≠ g.key)

theorem Fld.apart_ne {f : Fld} {l : List Fld} (h : f.apart l = true) : ∀ g ∈ l, f.key ≠ g.key := by
  simpa [Fld.apart] using h

/-- The refresh state of a channel is none of what a COMMIT, a refresh or a command slot changes. -/
def refreshApart (j : Nat) : Bool :=
  [R.DRC_CH_STATE_OWED j, R.DRC_CH_STATE_RATE j, R.DRC_CH_MR4_MR4 j].all (fun f => f.apart (takeFlds j ++ drcFlds ++ [R.DRC_CH_EVT_REF_BURST j])) &&
    [R.DRC_CH_ACT_MISC_WCK j, R.DRC_STATE_TRAIN_FAIL (j / 2), R.DRC_CH_TRN_CMD_GO j, R.DRC_CH_TRIAL_MISC_WCK j].all (fun f =>
      f.apart (drcFlds ++ (List.range 4).flatMap (delays j) ++ [R.DRC_CH_STATE_OWED j, R.DRC_CH_EVT_REF_BURST j]))

theorem refreshApart_all {j : Nat} (hj : j < 4) : refreshApart j = true :=
  List.all_eq_true.1 (show (List.range 4).all refreshApart = true by decide +kernel) j (List.mem_range.2 hj)

/-- The count of owed refreshes, the rate and MR4. -/
theorem refresh_apart {j : Nat} (hj : j < 4) {f : Fld} (hf : f ∈ [R.DRC_CH_STATE_OWED j, R.DRC_CH_STATE_RATE j, R.DRC_CH_MR4_MR4 j]) :
    ∀ g ∈ takeFlds j ++ drcFlds ++ [R.DRC_CH_EVT_REF_BURST j], f.key ≠ g.key := by
  have h := refreshApart_all hj
  unfold refreshApart at h
  exact Fld.apart_ne (List.all_eq_true.1 (Bool.and_eq_true _ _ ▸ h).1 f hf)

/-- What a COMMIT taken leaves behind. -/
theorem taken_apart {j : Nat} (hj : j < 4) {f : Fld}
    (hf : f ∈ [R.DRC_CH_ACT_MISC_WCK j, R.DRC_STATE_TRAIN_FAIL (j / 2), R.DRC_CH_TRN_CMD_GO j, R.DRC_CH_TRIAL_MISC_WCK j]) :
    ∀ g ∈ drcFlds ++ (List.range 4).flatMap (delays j) ++ [R.DRC_CH_STATE_OWED j, R.DRC_CH_EVT_REF_BURST j], f.key ≠ g.key := by
  have h := refreshApart_all hj
  unfold refreshApart at h
  exact Fld.apart_ne (List.all_eq_true.1 (Bool.and_eq_true _ _ ▸ h).2 f hf)

/-! ### A COMMIT that is taken (R379) -/

/-- An invariant of a loop whose body keeps it at each of its indices. -/
theorem forN_inv_lt {α : Type} {P : α → Prop} {n : Nat} {f : Nat → α → α} {s : α} (h : P s) (hf : ∀ i < n, ∀ a, P a → P (f i a)) :
    P (forN n f s) := by
  induction n with
  | zero => exact h
  | succ n ih => rw [forN_succ]; exact hf n (Nat.lt_succ_self n) _ (ih fun i hi => hf i (Nat.lt_succ_of_lt hi))

/-- The settings `s` tries are in force in `a` as far as they are copied. -/
def copying (s : State) (j : Nat) (a : State) : Prop :=
  sameElse s a (takeFlds j) ∧ a.dch j = s.dch j ∧ a.rd (R.DRC_CH_ACT_MISC_WCK j) = s.rd (R.DRC_CH_TRIAL_MISC_WCK j) % 256

theorem State.takeTrial_spec (s : State) {j : Nat} (hj : j < 4) :
    sameElse s (s.takeTrial j) (takeFlds j) ∧ (s.takeTrial j).dch j = { s.dch j with commitWaits := false, trained := true } ∧
      (s.takeTrial j).rd (R.DRC_CH_TRN_CMD_GO j) = 0 ∧ bitOf ((s.takeTrial j).rd (R.DRC_STATE_TRAIN_FAIL (j / 2))) (j % 2) = false ∧
      (s.takeTrial j).rd (R.DRC_CH_ACT_MISC_WCK j) = s.rd (R.DRC_CH_TRIAL_MISC_WCK j) % 256 := by
  unfold State.takeTrial
  extract_lets s1 pairs cp s2 s3 s4 x s5 keys
  have hs2 : copying s j s2 := by
    refine forN_inv_lt (P := copying s j) ⟨?_, rfl, State.rd_wr_same _ _ _⟩ fun d hd a ha => ?_
    · exact ((((sameElse.refl s _).wr (by simp [takeFlds])).wr (by simp [takeFlds])).wr (by simp [takeFlds])).wr (by simp [takeFlds])
    · refine List.foldlRecOn (motive := copying s j) (pairs d) cp ha fun b ⟨hsame, hch, hwck⟩ p hp => ?_
      have hmem : p.2 ∈ delays j d := (List.mem_map_of_mem hp : p.2 ∈ (pairs d).map Prod.snd)
      have hne := taken_apart hj (f := R.DRC_CH_ACT_MISC_WCK j) (by simp) p.2
        (List.mem_append_left _ (List.mem_append_right _ (List.mem_flatMap.2 ⟨d, List.mem_range.2 hd, hmem⟩)))
      exact ⟨hsame.wr (mem_takeFlds hd hmem), hch, (State.rd_wr_ne b _ hne).trans hwck⟩
  clear_value s2 keys
  obtain ⟨hsame, hch, hwck⟩ := hs2
  have h4 : sameElse s s4 (takeFlds j) :=
    ((hsame.wr (f := R.DRC_STATE_TRAIN_FAIL (j / 2)) (by simp [takeFlds])).wr (f := R.DRC_CH_TRN_CMD_GO j) (by simp [takeFlds])).wr (by simp [takeFlds])
  have hch4 : s4.dch j = s.dch j := hch
  refine ⟨h4.of_eq rfl rfl rfl, ?_, ?_, ?_, ?_⟩
  · change s5.dch j = _
    rw [State.dch_setDch_same]
    exact congrArg (fun y : DramCh => { y with commitWaits := false, trained := true }) hch4
  · change ((s3.wr (R.DRC_CH_TRN_CMD_GO j) 0).wr (R.DRC_CH_TRN_RESULT_BUSY j) 0).rd _ = 0
    rw [State.rd_wr_ne _ _ (by simp only [Fld.key, R.DRC_CH_TRN_CMD_GO, R.DRC_CH_TRN_RESULT_BUSY]; omega), State.rd_wr_same]
    rfl
  · change bitOf (((s3.wr (R.DRC_CH_TRN_CMD_GO j) 0).wr (R.DRC_CH_TRN_RESULT_BUSY j) 0).rd _) _ = false
    rw [State.rd_wr_ne _ _ (by simp only [Fld.key, R.DRC_STATE_TRAIN_FAIL, R.DRC_CH_TRN_RESULT_BUSY]; omega),
      State.rd_wr_ne _ _ (by simp only [Fld.key, R.DRC_CH_TRN_CMD_GO, R.DRC_STATE_TRAIN_FAIL]; omega), State.rd_wr_same,
      bitOf_mod, bitOf_withBit, if_pos rfl, Bool.and_false]
  · change (((s2.wr (R.DRC_STATE_TRAIN_FAIL (j / 2)) _).wr (R.DRC_CH_TRN_CMD_GO j) 0).wr (R.DRC_CH_TRN_RESULT_BUSY j) 0).rd _ = _
    rw [State.rd_wr_ne _ _ (by simp only [Fld.key, R.DRC_CH_ACT_MISC_WCK, R.DRC_CH_TRN_RESULT_BUSY]; omega),
      State.rd_wr_ne _ _ (by simp only [Fld.key, R.DRC_CH_ACT_MISC_WCK, R.DRC_CH_TRN_CMD_GO]; omega),
      State.rd_wr_ne _ _ (by simp only [Fld.key, R.DRC_CH_ACT_MISC_WCK, R.DRC_STATE_TRAIN_FAIL]; omega), hwck]

/-! ### One refresh (R366, R367, R372) -/

/-- The run of back-to-back refreshes comes to its second one (log entry 127). -/
def State.runsOn (s : State) (j : Nat) : Prop := (s.nowNs ≤ (s.dch j).refTo ∨ (s.dch j).chain = true) ∧ (s.dch j).burst = 1

/-- `u` is `s` behind a refresh that leaves `n` owed, where no COMMIT is taken. -/
structure Refreshed (s : State) (j n : Nat) (u : State) : Prop where
  owed : u.rd (R.DRC_CH_STATE_OWED j) = n
  same : sameElse s u [R.DRC_CH_STATE_OWED j, R.DRC_CH_EVT_REF_BURST j]
  run : s.runsOn j → u.rd (R.DRC_CH_EVT_REF_BURST j) = min (s.rd (R.DRC_CH_EVT_REF_BURST j) + 1) 4294967295
  first : ¬s.runsOn j → sameElse s u [R.DRC_CH_STATE_OWED j] ∧ (u.dch j).chain = u.refTop j
  out : u.out = .dramCmd j "REFab" 0 :: s.out
  ch : (u.dch j).rows = [] ∧ (u.dch j).refFrom = max s.nowNs (s.dch j).refTo ∧ (u.dch j).refTo = max s.nowNs (s.dch j).refTo + tRfc s.build
  idle : u.chIdle j = s.chIdle j

theorem State.refreshOne_spec {s : State} {j n : Nat} (commit : Bool) (howed : s.rd (R.DRC_CH_STATE_OWED j) = n + 1) (hn : n < 16) :
    ∃ u, s.refreshOne j commit = (if (s.dch j).commitWaits && commit then u.takeTrial j else u) ∧ Refreshed s j n u := by
  have hne : (R.DRC_CH_EVT_REF_BURST j).key ≠ (R.DRC_CH_STATE_OWED j).key := by
    simp only [Fld.key, R.DRC_CH_EVT_REF_BURST, R.DRC_CH_STATE_OWED]; omega
  unfold State.refreshOne
  rw [if_neg (by omega), howed]
  extract_lets s1 x from_ follows y s2 s3
  obtain ⟨r, hx⟩ : ∃ r, x = { s.dch j with rolling := r } := ⟨_, State.dch_setDch_same _ _ _⟩
  have hs1 : sameElse s s1 [R.DRC_CH_STATE_OWED j] := ((sameElse.refl s _).wr (f := R.DRC_CH_STATE_OWED j) (v := n) (by simp)).of_eq rfl rfl rfl
  have howed1 : s1.rd (R.DRC_CH_STATE_OWED j) = n := (State.rd_wr_same s _ _).trans (Nat.mod_eq_of_lt hn)
  have hout1 : s1.out = .dramCmd j "REFab" 0 :: s.out := rfl
  clear_value s1 x
  have hs2 : sameElse s s2 [R.DRC_CH_STATE_OWED j] := hs1.of_eq rfl rfl rfl
  have hrun : (follows ∧ x.burst = 1) ↔ s.runsOn j := by
    rw [hx, show follows = (decide (s.nowNs ≤ x.refTo) || x.chain) from rfl, hx]
    simp [State.runsOn]
  have hch : s2.dch j = { y with chain := (s1.setDch j y).refTop j } := State.dch_setDch_same _ _ _
  have hcounted : s.runsOn j → s3 = s2.count (R.DRC_CH_EVT_REF_BURST j) := fun h => if_pos (hrun.2 h)
  have hplain : ¬s.runsOn j → s3 = s2 := fun h => if_neg fun hc => h (hrun.1 hc)
  have hcase : s3 = s2.count (R.DRC_CH_EVT_REF_BURST j) ∨ s3 = s2 := (em _).imp hcounted hplain
  have hdch : s3.dch j = s2.dch j := by
    rcases hcase with h | h
    · rw [h]; rfl
    · rw [h]
  clear_value s3
  have hy : y.rows = [] ∧ y.refFrom = max s.nowNs (s.dch j).refTo ∧ y.refTo = max s.nowNs (s.dch j).refTo + tRfc s.build := by
    refine ⟨rfl, ?_, ?_⟩
    · rw [show y.refFrom = max s.nowNs x.refTo from rfl, hx]
    · rw [show y.refTo = max s.nowNs x.refTo + tRfc s.build from rfl, hx]
  have htop : s2.refTop j = (s1.setDch j y).refTop j := by
    unfold State.refTop
    rw [hch, State.dch_setDch_same]
    rfl
  refine ⟨s3, by rw [hx], ?_, ?_, fun h => ?_, fun h => ?_, ?_, ?_, ?_⟩
  · rcases hcase with h | h <;> rw [h]
    · exact (State.rd_count_ne s2 hne.symm).trans howed1
    · exact howed1
  · rcases hcase with h | h <;> rw [h]
    · exact (hs2.mono (by simp)).count (by simp)
    · exact hs2.mono (by simp)
  · rw [hcounted h, State.rd_count32 s2 rfl, hs2.read (by simpa using hne)]
  · rw [hplain h]
    exact ⟨hs2, by rw [hch, htop]⟩
  · rcases hcase with h | h <;> rw [h] <;> exact hout1
  · rw [hdch, hch]
    exact hy
  · unfold State.chIdle
    rw [hdch, hch, show y.flight = x.flight from rfl, show y.reads = x.reads from rfl, show y.writes = x.writes from rfl,
      show y.held = x.held from rfl, show y.helper = x.helper from rfl, hx]

/-! ### The command slots keep what a COMMIT did -/

/-- The channel's record as to its training. -/
def DramCh.commitState (x : DramCh) : Bool × Bool := (x.commitWaits, x.trained)

theorem DramCh.commitState_enter (x : DramCh) (r : DramReq) (helper : Bool) (now : Nat) : (x.enter r helper now).commitState = x.commitState := by
  unfold DramCh.enter
  dsimp only
  split <;> rfl

theorem DramCh.commitState_yieldHelper (x : DramCh) (write : Bool) : (x.yieldHelper write).commitState = x.commitState := by
  unfold DramCh.yieldHelper
  dsimp only
  split <;> rfl

theorem DramCh.commitState_letIn (x : DramCh) (now : Nat) : (x.letIn now).commitState = x.commitState := by
  unfold DramCh.letIn
  extract_lets y
  have hy : y.commitState = x.commitState := by
    refine forL_inv (fun y : DramCh => y.commitState = x.commitState) rfl fun r y hy => ?_
    extract_lets z
    have hz : z.commitState = x.commitState := by
      change (if _ then y else y.yieldHelper r.write : DramCh).commitState = _
      split
      · exact hy
      · rw [DramCh.commitState_yieldHelper]; exact hy
    clear_value z
    split
    · exact hy
    · rw [DramCh.commitState_enter]; exact hz
  split
  · exact hy
  · split
    · exact hy
    · rw [DramCh.commitState_enter]; exact hy

theorem State.commitState_activate (s : State) (j : Nat) (r : DramReq) : ((s.activate j r).dch j).commitState = (s.dch j).commitState := by
  unfold State.activate
  extract_lets c bank x full a s0 held starts thr roll s1 s2 lim s3
  have h1 : (s1.dch j).commitState = (s.dch j).commitState := by
    change ((s0.setDch j _).dch j).commitState = _
    rw [State.dch_setDch_same]
    rfl
  have h2 : s2.dch j = s1.dch j := by
    change (if _ then _ else _ : State).dch j = _
    split <;> rfl
  have h3 : (s3.dch j).commitState = (s2.dch j).commitState := by
    change ((State.rollDown _ j).dch j).commitState = _
    unfold State.rollDown
    rw [State.dch_setDch_same]
    rfl
  split
  · rw [State.dch_setDch_same]
    exact h3.trans (h2 ▸ h1)
  · exact h2 ▸ h1

theorem State.commitState_dramServe (s : State) (j : Nat) (q : DQueued) : ((s.dramServe j q).dch j).commitState = (s.dch j).commitState := by
  unfold State.dramServe
  extract_lets x drop s1 s2
  have h1 : (s1.dch j).commitState = (s.dch j).commitState := by
    change ((s.setDch j _).dch j).commitState = _
    rw [State.dch_setDch_same, DramCh.commitState_letIn]
    rfl
  have h2 : (s2.dch j).commitState = (s.dch j).commitState := by
    change ((if _ then _ else _ : State).dch j).commitState = _
    split
    · exact h1
    · rw [State.commitState_activate]; exact h1
  split
  · exact h2
  · change ((s2.setDch j _).dch j).commitState = _
    rw [State.dch_setDch_same]
    exact h2

theorem State.commitState_dramSchedule (s : State) (j n : Nat) : ((s.dramSchedule j n).dch j).commitState = (s.dch j).commitState := by
  induction n generalizing s with
  | zero => rfl
  | succ n ih =>
    unfold State.dramSchedule
    split
    · rfl
    · split
      · rfl
      · rw [ih, State.commitState_dramServe]

theorem State.commitState_dramRun (s : State) (j : Nat) : ((s.dramRun j).dch j).commitState = (s.dch j).commitState := by
  unfold State.dramRun
  split
  · exact s.commitState_dramSchedule j 200
  · rfl

/-! ### Every owed refresh (R367, R368) -/

/-- `n` refreshes are owed, and MR4 and the rate are those of `s`. -/
def owes (s : State) (j n : Nat) (a : State) : Prop :=
  a.rd (R.DRC_CH_STATE_OWED j) = n ∧ a.rd (R.DRC_CH_MR4_MR4 j) = s.rd (R.DRC_CH_MR4_MR4 j) ∧
    a.rd (R.DRC_CH_STATE_RATE j) = s.rd (R.DRC_CH_STATE_RATE j)

theorem State.refreshOne_owes {s a : State} {j n : Nat} (hj : j < 4) (commit : Bool) (hn : n < 16) (h : owes s j (n + 1) a) :
    owes s j n (a.refreshOne j commit) := by
  obtain ⟨howed, hmr4, hrate⟩ := h
  obtain ⟨u, heq, hu⟩ := State.refreshOne_spec commit howed hn
  have hsame : sameElse u (a.refreshOne j commit) (takeFlds j) := by
    rw [heq]
    exact .ite (fun _ => (u.takeTrial_spec hj).1) fun _ => .refl u _
  have htake {f : Fld} (hf : f ∈ [R.DRC_CH_STATE_OWED j, R.DRC_CH_STATE_RATE j, R.DRC_CH_MR4_MR4 j]) : ∀ g ∈ takeFlds j, f.key ≠ g.key :=
    fun g hg => refresh_apart hj hf g (List.mem_append_left _ (List.mem_append_left _ hg))
  have hown (f : Fld) (hb : f.key ≠ (R.DRC_CH_EVT_REF_BURST j).key) (ho : f.key ≠ (R.DRC_CH_STATE_OWED j).key) : u.rd f = a.rd f :=
    hu.same.1 f (by simp [hb, ho])
  refine ⟨(hsame.1 _ (htake (by simp))).trans hu.owed, (hsame.1 _ (htake (by simp))).trans ((hown _ ?_ ?_).trans hmr4),
    (hsame.1 _ (htake (by simp))).trans ((hown _ ?_ ?_).trans hrate)⟩
  all_goals
    simp only [Fld.key, R.DRC_CH_EVT_REF_BURST, R.DRC_CH_STATE_OWED, R.DRC_CH_MR4_MR4, R.DRC_CH_STATE_RATE]
    omega

theorem State.refreshAll_owes {s : State} {j : Nat} (hj : j < 4) (commit : Bool) (h16 : s.rd (R.DRC_CH_STATE_OWED j) < 16) :
    owes s j 0 (s.refreshAll j commit) := by
  have hloop : ∀ k, k ≤ s.rd (R.DRC_CH_STATE_OWED j) →
      owes s j (s.rd (R.DRC_CH_STATE_OWED j) - k) (forN k (fun _ a => a.refreshOne j commit) s) := by
    intro k
    induction k with
    | zero => exact fun _ => ⟨rfl, rfl, rfl⟩
    | succ k ih =>
      intro hk
      rw [forN_succ]
      have hprev := ih (by omega)
      rw [show s.rd (R.DRC_CH_STATE_OWED j) - k = s.rd (R.DRC_CH_STATE_OWED j) - (k + 1) + 1 by omega] at hprev
      exact State.refreshOne_owes hj commit (by omega) hprev
  have h := hloop _ (Nat.le_refl _)
  rwa [Nat.sub_self] at h

/-! ### The statement -/

section
variable {s : State} {j : Nat}

/-- A channel that refreshes by itself. -/
theorem State.refreshes_of (hj : j < channels s.build) (h : s.chState j = dcReady ∨ s.chState j = dcTraining) : s.refreshes j = true := by
  simp [State.refreshes, hj, h]

/-- A channel that holds no request holds none that is real-time. -/
theorem State.not_holdsRt (h : s.chIdle j = true) : (s.dch j).holdsRt = false := by
  simp only [State.chIdle, Bool.and_eq_true, List.isEmpty_iff, Option.isNone_iff_eq_none] at h
  obtain ⟨⟨⟨⟨hf, hr⟩, hw⟩, -⟩, -⟩ := h
  simp [DramCh.holdsRt, hf, hr, hw]

/-- An owed refresh on an idle channel without a COMMIT. -/
theorem State.refreshIssue_idle {n : Nat} (href : s.refreshes j = true) (howed : s.rd (R.DRC_CH_STATE_OWED j) = n + 1) (hn : n < 16)
    (hidle : s.chIdle j = true) (hc : (s.dch j).commitWaits = false) : ∃ u, s.refreshIssue j = u ∧ Refreshed s j n u := by
  obtain ⟨u, heq, hu⟩ := State.refreshOne_spec true howed hn
  refine ⟨u, ?_, hu⟩
  have hrefresh : s.refreshOne j true = u := by rw [heq, hc]; rfl
  unfold State.refreshIssue
  simp only [href, howed, State.not_holdsRt hidle]
  rw [if_pos (by simp), hrefresh, State.dramRun_idle (hu.idle.trans hidle)]

/-- What a read of MR4 that is not beyond its range records. -/
def State.mr4Seen (s : State) (j v : Nat) (wants2x : Bool) : State :=
  let s1 := (s.wr (R.DRC_CH_MR4_MR4 j) v).wrB (R.DRC_CH_STATE_HOT j) false
  s1.setDch j { s1.dch j with slow := !wants2x && s1.on (R.DRC_CH_STATE_RATE j), mrs := Sparse.put (s1.dch j).mrs 4 (v % 256) }

theorem State.mr4_eq (href : s.refreshes j = true) (v : Nat) (wants2x : Bool) :
    s.mr4 j v wants2x false =
      if wants2x && !(s.mr4Seen j v wants2x).on (R.DRC_CH_STATE_RATE j) then ((s.mr4Seen j v wants2x).refreshAll j true).wr (R.DRC_CH_STATE_RATE j) 1
      else s.mr4Seen j v wants2x := by
  unfold State.mr4
  simp only [href, Bool.or_false, Bool.false_and]
  rfl

theorem State.mr4Seen_spec (s : State) (j v : Nat) (wants2x : Bool) :
    (s.mr4Seen j v wants2x).rd (R.DRC_CH_MR4_MR4 j) = v % 256 ∧ (s.mr4Seen j v wants2x).rd (R.DRC_CH_STATE_HOT j) = 0 ∧
      ((s.mr4Seen j v wants2x).dch j).slow = (!wants2x && s.on (R.DRC_CH_STATE_RATE j)) ∧
      sameElse s (s.mr4Seen j v wants2x) [R.DRC_CH_MR4_MR4 j, R.DRC_CH_STATE_HOT j] := by
  have hot : (R.DRC_CH_MR4_MR4 j).key ≠ (R.DRC_CH_STATE_HOT j).key := by
    simp only [Fld.key, R.DRC_CH_STATE_HOT, R.DRC_CH_MR4_MR4]; omega
  have hrate : ∀ g ∈ [R.DRC_CH_MR4_MR4 j, R.DRC_CH_STATE_HOT j], (R.DRC_CH_STATE_RATE j).key ≠ g.key := by
    simp only [List.mem_cons, List.not_mem_nil, or_false, forall_eq_or_imp, forall_eq, Fld.key, R.DRC_CH_STATE_HOT, R.DRC_CH_MR4_MR4,
      R.DRC_CH_STATE_RATE]
    omega
  have hs1 : sameElse s ((s.wr (R.DRC_CH_MR4_MR4 j) v).wrB (R.DRC_CH_STATE_HOT j) false) [R.DRC_CH_MR4_MR4 j, R.DRC_CH_STATE_HOT j] :=
    ((sameElse.refl s _).wr (by simp)).wrB (by simp)
  unfold State.mr4Seen
  refine ⟨?_, State.rd_wrB_same _ _ false Nat.one_pos, ?_, hs1.of_eq rfl rfl rfl⟩
  · exact (State.rd_wrB_ne (s.wr (R.DRC_CH_MR4_MR4 j) v) false hot).trans (State.rd_wr_same s _ v)
  · simp only [State.dch_setDch_same]
    rw [State.on, hs1.1 _ hrate]
    rfl

end

/-- Settles O44: a refresh is one `Refreshed` step, a COMMIT that waits one `takeTrial` behind it, and the command slots of an idle channel do
nothing. -/
theorem dramRefresh : Obligations.DramRefresh := by
  unfold Obligations.DramRefresh
  intro j s hch
  have hj : j < 4 := Nat.lt_of_lt_of_le hch (channels_le _)
  have hon (f : State → State) : s.onChan j f = f s := if_pos hch
  refine ⟨fun hstate => have href := State.refreshes_of hch hstate; ⟨fun hslow => ?owe, fun hslow => ?back, fun hrt htop hc => ?held, fun n howed hn hidle hc hb => ?refresh,
    fun n howed hn hidle hc hb => ?second, fun n howed hn hc => ?commit, fun v => ?mr4, fun v hrate h16 => ?twice⟩, fun hidle => ?window,
    fun hsh hen hready hidle hop howed => ?self⟩
  case owe =>
    refine completes_eq rfl (hon _) ?_
    unfold State.trefi
    simp only [href, hslow]
    refine ⟨?_, ((sameElse.refl s _).wr (f := R.DRC_CH_STATE_OWED j) (by simp)).of_eq rfl rfl rfl⟩
    change (s.wr (R.DRC_CH_STATE_OWED j) _).rd _ = _
    rw [State.rd_wr_same]
    exact Nat.mod_eq_of_lt (show min 15 (s.rd (R.DRC_CH_STATE_OWED j) + 1) < 16 by omega)
  case back =>
    refine completes_eq rfl (hon _) ?_
    unfold State.trefi
    simp only [href, hslow]
    refine ⟨State.rd_wr_same s _ 0, ?_, ((sameElse.refl s _).wr (f := R.DRC_CH_STATE_RATE j) (v := 0) (by simp)).of_eq rfl rfl rfl⟩
    change (((s.wr (R.DRC_CH_STATE_RATE j) 0).setDch j _).dch j).slow = false
    rw [State.dch_setDch_same]
  case held =>
    refine completes_eq rfl (hon _) ?_
    unfold State.refreshIssue
    simp only [hrt, htop, hc]
    exact if_neg (by simp)
  case refresh =>
    obtain ⟨u, heq, hu⟩ := State.refreshIssue_idle href howed (by omega) hidle hc
    obtain ⟨hrows, hfrom, hto⟩ := hu.ch
    obtain ⟨hsame, hchain⟩ := hu.first fun h => hb h.2
    refine completes_eq rfl ((hon _).trans heq) ⟨hu.owed, hrows, hu.out, hfrom, hto.trans ?_, hchain, hsame⟩
    cases s.build <;> rfl
  case second =>
    obtain ⟨u, heq, hu⟩ := State.refreshIssue_idle href howed (by omega) hidle hc
    refine completes_eq rfl ((hon _).trans heq) ⟨?_, hu.same⟩
    split
    · next h => exact hu.run ⟨h, hb⟩
    · next h =>
      refine (hu.first fun hr => h hr.1).1.read (by simp only [List.mem_singleton, forall_eq, Fld.key, R.DRC_CH_EVT_REF_BURST, R.DRC_CH_STATE_OWED]; omega)
  case commit =>
    obtain ⟨u, heq, hu⟩ := State.refreshOne_spec true howed (by omega)
    have htaken : s.refreshIssue j = (u.takeTrial j).dramRun j := by
      unfold State.refreshIssue
      simp only [href, howed, hc]
      rw [if_pos (by simp), heq, hc]
      rfl
    obtain ⟨hsame, htdch, hgo, hfail, hwck⟩ := u.takeTrial_spec hj
    have hrun := (u.takeTrial j).dramRun_dramOnly hj
    have hcommit := (u.takeTrial j).commitState_dramRun j
    have hslot {f : Fld} (hf : f ∈ [R.DRC_CH_ACT_MISC_WCK j, R.DRC_STATE_TRAIN_FAIL (j / 2), R.DRC_CH_TRN_CMD_GO j, R.DRC_CH_TRIAL_MISC_WCK j]) :
        ((u.takeTrial j).dramRun j).rd f = (u.takeTrial j).rd f :=
      hrun.read fun g hg => taken_apart hj hf g (List.mem_append_left _ (List.mem_append_left _ hg))
    rw [htdch, DramCh.commitState, DramCh.commitState, Prod.mk.injEq] at hcommit
    refine completes_eq rfl ((hon _).trans htaken) ⟨?_, hcommit.1, hcommit.2, (hslot (by simp)).trans hgo, ?_, fun h256 => ?_⟩
    · rw [hrun.read fun g hg => refresh_apart hj (by simp) g (List.mem_append_left _ (List.mem_append_right _ hg)),
        hsame.1 _ fun g hg => refresh_apart hj (by simp) g (List.mem_append_left _ (List.mem_append_left _ hg)), hu.owed]
    · rw [hslot (by simp), hfail]
    · rw [hslot (by simp), hwck,
        hu.same.1 _ fun g hg => taken_apart hj (f := R.DRC_CH_TRIAL_MISC_WCK j) (by simp) g (List.mem_append_right _ hg), Nat.mod_eq_of_lt h256]
  case mr4 =>
    exact completes_eq rfl ((hon _).trans (State.mr4_eq href v false)) (s.mr4Seen_spec j v false)
  case twice =>
    obtain ⟨hmr4, -, -, hseen⟩ := s.mr4Seen_spec j v true
    have hkept {f : Fld} (hf : f ∈ [R.DRC_CH_STATE_OWED j, R.DRC_CH_STATE_RATE j]) : (s.mr4Seen j v true).rd f = s.rd f := by
      refine hseen.1 f fun g hg => ?_
      simp only [List.mem_cons, List.not_mem_nil, or_false] at hf hg
      rcases hf with rfl | rfl <;> rcases hg with rfl | rfl <;>
        (simp only [Fld.key, R.DRC_CH_STATE_OWED, R.DRC_CH_STATE_RATE, R.DRC_CH_MR4_MR4, R.DRC_CH_STATE_HOT]; omega)
    obtain ⟨hall, hmr4', -⟩ := State.refreshAll_owes (s := s.mr4Seen j v true) hj true (by rw [hkept (by simp)]; exact h16)
    have heq : s.mr4 j v true false = ((s.mr4Seen j v true).refreshAll j true).wr (R.DRC_CH_STATE_RATE j) 1 := by
      rw [State.mr4_eq href, if_pos (by simp [State.on, hkept, hrate])]
    refine completes_eq rfl ((hon _).trans heq) ⟨?_, State.rd_wr_same _ _ 1, ?_⟩
    · rw [State.rd_wr_ne _ _ (by simp only [Fld.key, R.DRC_CH_MR4_MR4, R.DRC_CH_STATE_RATE]; omega), hmr4', hmr4]
    · rw [State.rd_wr_ne _ _ (by simp only [Fld.key, R.DRC_CH_STATE_OWED, R.DRC_CH_STATE_RATE]; omega), hall]
  case window =>
    have hidle' : ((s.setDch j { s.dch j with acts := [], throttled := [] }).showThrottled (j / 2)).chIdle j = true := by
      unfold State.chIdle
      rw [show ((s.setDch j { s.dch j with acts := [], throttled := [] }).showThrottled (j / 2)).dch j =
        { s.dch j with acts := [], throttled := [] } from State.dch_setDch_same _ _ _]
      exact hidle
    have heq : s.refWindow j = (s.setDch j { s.dch j with acts := [], throttled := [] }).showThrottled (j / 2) := by
      unfold State.refWindow
      rw [if_neg (by omega), State.dramRun_idle hidle']
    have hrec : ((s.setDch j { s.dch j with acts := [], throttled := [] }).showThrottled (j / 2)).dch j = { s.dch j with acts := [], throttled := [] } :=
      State.dch_setDch_same _ _ _
    exact completes_eq rfl ((hon _).trans heq)
      ⟨by rw [hrec], by rw [hrec], ((sameElse.refl s _).of_eq (u := s.setDch j _) rfl rfl rfl).wr (by simp)⟩
  case self =>
    have heq : s.selfIdle j = s.selfEnter j := if_pos ⟨hch, hsh, hen, hidle, by simp [hop]⟩
    refine completes_eq rfl ((hon _).trans heq) ?_
    unfold State.selfEnter State.refreshAll
    rw [if_pos hready, show (s.setDch j { s.dch j with top := decide (0 < s.rd (R.DRC_CH_STATE_OWED j)) }).rd (R.DRC_CH_STATE_OWED j) = 0 from howed]
    exact ⟨State.rd_wr_same _ _ _, rfl, ((sameElse.refl s _).wr (f := R.DRC_CH_STATE_STATE j) (v := dcSelf) (by simp)).of_eq rfl rfl rfl⟩

end Sys2Proof.Machine
end


section
/-! PROOF. Commits of layers, TOUCH, and the latch instant (R145 to R150, R192). -/

namespace Sys2Proof.Machine

/-! ### What concerns one layer -/

/-- A key of the registers of layer `k` of half `h`. -/
def lyBlock (h k n : Nat) : Prop := (0x74100 + 0x4000 * h + 0x40 * k) * 32 ≤ n ∧ n < (0x74140 + 0x4000 * h + 0x40 * k) * 32

/-- A key of the layer's registers, or that of its half's COMMIT. -/
def lyKey (h k n : Nat) : Prop := n = (R.LYR_COMMIT_MASK h).key ∨ lyBlock h k n

/-- `t` has of layer `k` of half `h` what `s` has: its registers, its half's COMMIT, its record, the number of the coming epoch, and
whether a power step winds down. -/
structure LyKeeps (h k : Nat) (s t : State) : Prop where
  rd : ∀ f, lyKey h k f.key → t.rd f = s.rd f
  layer : t.layer h k = s.layer h k
  coming : t.epochComing = s.epochComing
  winding : t.eng.pwr.winding = s.eng.pwr.winding

/-- The registers of a layer. -/
def layFlds (h k : Nat) : List Fld :=
  [R.LYR_CTL_EN h k, R.LYR_CTL_PAL h k, R.LYR_BASE_BASE h k, R.LYR_BASE_MEM h k, R.LYR_CFG_CAP_EN h k, R.LYR_WIN_XY_U h k, R.LYR_WIN_XY_V h k,
    R.LYR_WIN_SIZE_W h k, R.LYR_WIN_SIZE_H h k, R.LYR_OFS_X h k, R.LYR_OFS_Y h k, R.LYR_STATE_RUN h k, R.LYR_STATE_PENDING h k,
    R.LYR_STATE_CUR h k, R.LYR_STATE_HELD h k, R.LYR_STATE_EN_CUR h k, R.LYR_STATE_PAL_CUR h k, R.LYR_GEN_GEN h k, R.LYR_FRAME_FRAME h k,
    R.LYR_RETIRED_EPOCH_EPOCH h k, R.LYR_EVT_INCOMPLETE h k]

theorem layFlds_block {h k : Nat} {f : Fld} (hf : f ∈ layFlds h k) : lyBlock h k f.key := by
  simp only [layFlds, List.mem_cons, List.not_mem_nil, or_false] at hf
  unfold lyBlock
  rcases hf with rfl | rfl | rfl | rfl | rfl | rfl | rfl | rfl | rfl | rfl | rfl | rfl | rfl | rfl | rfl | rfl | rfl | rfl | rfl | rfl | rfl
  all_goals
    simp only [Fld.key, R.LYR_CTL_EN, R.LYR_CTL_PAL, R.LYR_BASE_BASE, R.LYR_BASE_MEM, R.LYR_CFG_CAP_EN, R.LYR_WIN_XY_U, R.LYR_WIN_XY_V,
      R.LYR_WIN_SIZE_W, R.LYR_WIN_SIZE_H, R.LYR_OFS_X, R.LYR_OFS_Y, R.LYR_STATE_RUN, R.LYR_STATE_PENDING, R.LYR_STATE_CUR, R.LYR_STATE_HELD,
      R.LYR_STATE_EN_CUR, R.LYR_STATE_PAL_CUR, R.LYR_GEN_GEN, R.LYR_FRAME_FRAME, R.LYR_RETIRED_EPOCH_EPOCH, R.LYR_EVT_INCOMPLETE]
    omega

/-- The key of COMMIT lies before the layers' registers. -/
theorem commit_key (h : Nat) : (R.LYR_COMMIT_MASK h).key = (0x74020 + 0x4000 * h) * 32 := by
  simp only [Fld.key, R.LYR_COMMIT_MASK]; omega

namespace LyKeeps
variable {h k : Nat} {s t u : State}

theorem refl (h k : Nat) (s : State) : LyKeeps h k s s := ⟨fun _ _ => rfl, rfl, rfl, rfl⟩

theorem trans (a : LyKeeps h k s t) (b : LyKeeps h k t u) : LyKeeps h k s u :=
  ⟨fun f hf => (b.rd f hf).trans (a.rd f hf), b.layer.trans a.layer, b.coming.trans a.coming, b.winding.trans a.winding⟩

theorem wr (a : LyKeeps h k s t) {g : Fld} {v : Nat} (hg : ¬lyKey h k g.key) : LyKeeps h k s (t.wr g v) :=
  ⟨fun f hf => (State.rd_wr_ne t v fun he => hg (he ▸ hf)).trans (a.rd f hf), a.layer, a.coming, a.winding⟩

/-- A state with the build, the registers, the layers and the epoch's number of another. -/
theorem of_eq (a : LyKeeps h k s t) (hb : u.build = t.build) (hr : u.regs = t.regs) (hl : u.eng.lay.layers = t.eng.lay.layers)
    (hc : u.epochComing = t.epochComing) (hw : u.eng.pwr.winding = t.eng.pwr.winding) : LyKeeps h k s u := by
  refine ⟨fun f hf => ?_, ?_, hc.trans a.coming, hw.trans a.winding⟩
  · rw [← a.rd f hf]
    unfold State.rd
    rw [hb, hr]
  · rw [← a.layer]
    unfold State.layer
    rw [hl]

theorem ite {c : Prop} [Decidable c] (ht : c → LyKeeps h k s t) (hu : ¬c → LyKeeps h k s u) : LyKeeps h k s (if c then t else u) := by
  split
  · exact ht ‹_›
  · exact hu ‹_›

theorem forN {n : Nat} {f : Nat → State → State} (hf : ∀ i < n, ∀ a, LyKeeps h k a (f i a)) : LyKeeps h k s (forN n f s) :=
  forN_inv_lt (P := fun a => LyKeeps h k s a) (.refl h k s) fun i hi a ha => ha.trans (hf i hi a)

theorem forL {β : Type} {l : List β} {f : β → State → State} (hf : ∀ b ∈ l, ∀ a, LyKeeps h k a (f b a)) : LyKeeps h k s (forL l f s) :=
  List.foldlRecOn (motive := fun a => LyKeeps h k s a) l (fun a b => f b a) (.refl h k s) fun a ha b hb => ha.trans (hf b hb a)

end LyKeeps

/-! ### A layer at the latch instant leaves the others (R143, R145 to R150) -/

section
variable {h k h' k' : Nat} {s t : State}

/-- Another layer's registers are not this layer's. -/
theorem not_lyKey_of_block (hk' : k' < 16) (hk : k < 16) (hne : h' ≠ h ∨ k' ≠ k) {n : Nat} (hn : lyBlock h' k' n) : ¬lyKey h k n := by
  unfold lyKey
  rw [commit_key]
  unfold lyBlock at *
  omega

/-- Nor is a page's header. -/
theorem not_lyKey_of_header {n : Nat} (hk : k < 16) (lo : 0x74000 * 32 + 0x80000 * h' ≤ n) (hi : n < 0x74020 * 32 + 0x80000 * h') : ¬lyKey h k n := by
  unfold lyKey
  rw [commit_key]
  unfold lyBlock
  omega

theorem LyKeeps.setLayer_other (a : LyKeeps h k s t) (x : Layer) (hk' : k' < 16) (hk : k < 16) (hne : h' ≠ h ∨ k' ≠ k) :
    LyKeeps h k s (t.setLayer h' k' x) :=
  ⟨a.rd, (Sparse.look_put_ne _ _ _ (by omega)).trans a.layer, a.coming, a.winding⟩

theorem LyKeeps.ignored_other (a : LyKeeps h k s t) (off view path reason : Nat) (hk : k < 16) :
    LyKeeps h k s (t.ignored (Blk.LYR.pg h') off view path reason) := by
  have hpg : Blk.LYR.pg h' = 0x74000 + 0x4000 * h' := by simp only [Blk.pg, Blk.win0]; omega
  have hcnt := ignCnt_key (Blk.LYR.pg h') reason
  have hfld (g : Fld) (lo : Blk.LYR.pg h' * 32 ≤ g.key) (hi : g.key < Blk.LYR.pg h' * 32 + 1024) : ¬lyKey h k g.key :=
    not_lyKey_of_header (h' := h') hk (by omega) (by omega)
  rw [State.ignored_eq]
  refine ((((a.wr (g := ignCnt (Blk.LYR.pg h') reason) (hfld _ (by omega) (by omega))).wr (hfld _ ?_ ?_)).wr (hfld _ ?_ ?_)).wr (hfld _ ?_ ?_)).wr
    (hfld _ ?_ ?_)
  all_goals
    simp only [Fld.key, R.IGN_OFFSET, R.IGN_VIEW, R.IGN_PATH, R.IGN_REASON]
    omega

variable (hk' : k' < 16) (hk : k < 16) (hne : h' ≠ h ∨ k' ≠ k)
include hk' hk hne

theorem LyKeeps.wr_other (a : LyKeeps h k s t) {g : Fld} {v : Nat} (hg : g ∈ layFlds h' k') : LyKeeps h k s (t.wr g v) :=
  a.wr (not_lyKey_of_block hk' hk hne (layFlds_block hg))

theorem LyKeeps.retire_other (a : LyKeeps h k s t) : LyKeeps h k s (t.retire (h', k')) := by
  have hf : retiredF (h', k') = R.LYR_RETIRED_EPOCH_EPOCH h' k' := if_pos hk'
  unfold State.retire
  rw [hf]
  exact (a.wr_other hk' hk hne (g := R.LYR_RETIRED_EPOCH_EPOCH h' k') (v := t.epochComing) (by simp [layFlds])).of_eq rfl rfl rfl rfl rfl

theorem State.lyRestart_other (a : State) : LyKeeps h k a (a.lyRestart h' k').1 := by
  unfold State.lyRestart
  extract_lets x run s1
  have h1 : LyKeeps h k a s1 := (LyKeeps.refl h k a).setLayer_other _ hk' hk hne
  split
  · split
    · exact h1.ignored_other _ _ _ _ hk
    · exact h1
  · exact .refl h k a

theorem State.lyTake_other (a : State) (run : Nat) : LyKeeps h k a (a.lyTake h' k' run).1 := by
  unfold State.lyTake
  extract_lets x en enCur base mem pal start s0 moved changed s1 s2 run1
  have h0 : LyKeeps h k a s0 := (LyKeeps.refl h k a).wr_other hk' hk hne (by simp [layFlds])
  have h1 : LyKeeps h k a s1 :=
    ((h0.setLayer_other _ hk' hk hne).wr_other hk' hk hne (by simp [layFlds])).wr_other hk' hk hne (by simp [layFlds])
  split
  · exact (h0.setLayer_other _ hk' hk hne).ignored_other _ _ _ _ hk
  · exact .ite (fun _ => h1.retire_other hk' hk hne) fun _ => h1

theorem State.lyFrame_other (a : State) (c : Capture) : LyKeeps h k a (a.lyFrame h' k' c).1 := by
  unfold State.lyFrame
  extract_lets x own replaced fresh s1 s2
  have h1 : LyKeeps h k a s1 := (((LyKeeps.refl h k a).wr_other hk' hk hne (by simp [layFlds])).wr_other hk' hk hne (by simp [layFlds])).wr_other
    hk' hk hne (by simp [layFlds])
  have h2 : LyKeeps h k a s2 := (((h1.wr_other hk' hk hne (by simp [layFlds])).wr_other hk' hk hne (by simp [layFlds])).wr_other
    hk' hk hne (by simp [layFlds])).wr_other hk' hk hne (by simp [layFlds])
  exact (((h2.wr_other hk' hk hne (g := R.LYR_FRAME_FRAME h' k') (by simp [layFlds])).retire_other hk' hk hne).setLayer_other _ hk' hk hne)

theorem State.lyLatch_other (a : State) (e : Nat) : LyKeeps h k a (a.lyLatch h' k' e) := by
  unfold State.lyLatch
  extract_lets nxt committed touched capturing r b down run t x live res f bump u y v w
  have hr : LyKeeps h k a r.1 := State.lyRestart_other hk' hk hne a
  have ht : LyKeeps h k a t := by
    change LyKeeps h k a (if committed then r.1.lyTake h' k' r.2 else (r.1, r.2, false, false)).1
    split
    · exact hr.trans (State.lyTake_other hk' hk hne _ _)
    · exact hr
  clear_value t run
  have hf : LyKeeps h k a f.1 := by
    change LyKeeps h k a (ite _ _ _ : State × Bool × Bool × Nat).1
    split
    · exact ht
    · cases res with
      | complete c =>
        dsimp only
        split
        · exact ht
        · exact ht.trans (State.lyFrame_other hk' hk hne _ c)
      | again => exact ht
      | incomplete => exact ht.wr_other hk' hk hne (g := R.LYR_EVT_INCOMPLETE h' k') (by simp [layFlds])
      | held => exact ht
  have hv : LyKeeps h k a v := LyKeeps.setLayer_other hf _ hk' hk hne
  have hw : LyKeeps h k a w := .ite (fun _ => hv.wr_other hk' hk hne (g := R.LYR_GEN_GEN h' k') (by simp [layFlds])) fun _ => hv
  exact (hw.wr_other hk' hk hne (g := R.LYR_STATE_HELD h' k') (by simp [layFlds])).wr_other hk' hk hne (by simp [layFlds])

end

/-! ### A layer whose commit moves its buffer (R145, R147 to R150) -/

/-- A running software layer with a pending commit that moves BASE. -/
structure LyReady (h k : Nat) (s : State) : Prop where
  committed : bitOf (s.rd (R.LYR_COMMIT_MASK h)) k = true
  software : s.rd (R.LYR_CFG_CAP_EN h k) = 0
  en : s.rd (R.LYR_CTL_EN h k) = 1
  enCur : s.rd (R.LYR_STATE_EN_CUR h k) = 1
  restart : (s.layer h k).restart = false
  moved : (s.layer h k).base ≠ s.rd (R.LYR_BASE_BASE h k)

/-- What the latch instant makes of it. -/
structure LyTaken (h k : Nat) (s t : State) : Prop where
  base : (t.layer h k).base = s.rd (R.LYR_BASE_BASE h k)
  mem : (t.layer h k).mem = s.on (R.LYR_BASE_MEM h k)
  pending : t.rd (R.LYR_STATE_PENDING h k) = 0
  pal : t.rd (R.LYR_STATE_PAL_CUR h k) = s.rd (R.LYR_CTL_PAL h k) % 8
  retired : t.rd (R.LYR_RETIRED_EPOCH_EPOCH h k) = s.epochComing % 4294967296
  gen : t.rd (R.LYR_GEN_GEN h k) = (s.rd (R.LYR_GEN_GEN h k) + 1) % 4294967296

section
variable {h k : Nat} {s t u : State}

theorem LyKeeps.fld (a : LyKeeps h k s t) {f : Fld} (hf : f ∈ layFlds h k) : t.rd f = s.rd f := a.rd f (.inr (layFlds_block hf))

theorem LyReady.keeps (a : LyReady h k s) (b : LyKeeps h k s t) : LyReady h k t where
  committed := (b.rd _ (.inl rfl)).symm ▸ a.committed
  software := (b.fld (by simp [layFlds])).trans a.software
  en := (b.fld (by simp [layFlds])).trans a.en
  enCur := (b.fld (by simp [layFlds])).trans a.enCur
  restart := b.layer ▸ a.restart
  moved := by rw [b.layer, b.fld (by simp [layFlds])]; exact a.moved

theorem LyTaken.of_rd (a : LyTaken h k s t) (hrd : ∀ f ∈ layFlds h k, u.rd f = t.rd f) (hl : u.layer h k = t.layer h k) : LyTaken h k s u where
  base := hl ▸ a.base
  mem := hl ▸ a.mem
  pending := (hrd _ (by simp [layFlds])).trans a.pending
  pal := (hrd _ (by simp [layFlds])).trans a.pal
  retired := (hrd _ (by simp [layFlds])).trans a.retired
  gen := (hrd _ (by simp [layFlds])).trans a.gen

theorem LyTaken.keeps (a : LyTaken h k s t) (b : LyKeeps h k t u) : LyTaken h k s u := a.of_rd (fun _ hf => b.fld hf) b.layer

/-- What the commit took in a state that is as `s` for the layer, it took in `s`. -/
theorem LyTaken.of_keeps (a : LyKeeps h k s t) (b : LyTaken h k t u) : LyTaken h k s u where
  base := b.base.trans (a.fld (by simp [layFlds]))
  mem := by rw [b.mem, State.on, State.on, a.fld (by simp [layFlds])]
  pending := b.pending
  pal := by rw [b.pal, a.fld (by simp [layFlds])]
  retired := by rw [b.retired, a.coming]
  gen := by rw [b.gen, a.fld (by simp [layFlds])]

/-- The layer with the commit taken, before its old buffer retires. -/
def State.lyMoved (s : State) (h k : Nat) : State :=
  (((s.wr (R.LYR_STATE_PENDING h k) 0).setLayer h k
    { s.layer h k with before := none, base := s.rd (R.LYR_BASE_BASE h k), mem := s.on (R.LYR_BASE_MEM h k) }).wr (R.LYR_STATE_EN_CUR h k)
      (s.rd (R.LYR_CTL_EN h k))).wr (R.LYR_STATE_PAL_CUR h k) (s.rd (R.LYR_CTL_PAL h k))

theorem State.lyTake_moved (a : LyReady h k s) (run : Nat) : ∃ r, s.lyTake h k run = ((s.lyMoved h k).retire (h, k), r, true, true) := by
  obtain ⟨-, -, hen, hcur, -, hmoved⟩ := a
  refine ⟨run, ?_⟩
  unfold State.lyTake
  simp only [hen, hcur, Nat.one_ne_zero, decide_false, Bool.and_false, Bool.false_eq_true, if_false, ne_eq, hmoved.symm, not_false_eq_true,
    decide_true, Bool.true_or, if_true, Bool.false_and]
  unfold State.lyMoved
  rw [hen]

theorem State.lyLatch_taken (a : LyReady h k s) (hk : k < 16) (e : Nat) : LyTaken h k s (s.lyLatch h k e) := by
  have hrestart : s.lyRestart h k = (s, s.lyRun h k) := by
    unfold State.lyRestart
    simp only [a.restart, Bool.false_eq_true, if_false]
  have hcap : s.lyCaptures h k = false := by simp [State.lyCaptures, State.lyCap, State.on, a.software]
  obtain ⟨run, htake⟩ := State.lyTake_moved a (s.lyRun h k)
  have hlatch : ∃ x v, s.lyLatch h k e =
      (((((s.lyMoved h k).retire (h, k)).setLayer h k
        { ((s.lyMoved h k).retire (h, k)).layer h k with genChanged := true, cap := x }).inc (R.LYR_GEN_GEN h k)).wrB
          (R.LYR_STATE_HELD h k) false).wr (R.LYR_STATE_RUN h k) v := by
    unfold State.lyLatch
    simp only [a.committed, hcap, hrestart, htake, if_true, Bool.false_and, Bool.not_false, Bool.or_true, Bool.or_false]
    exact ⟨_, _, rfl⟩
  obtain ⟨x, v, heq⟩ := hlatch
  have hret : retiredF (h, k) = R.LYR_RETIRED_EPOCH_EPOCH h k := if_pos hk
  have hmem : s.rd (R.LYR_CTL_PAL h k) % 2 ^ (R.LYR_STATE_PAL_CUR h k).width = s.rd (R.LYR_CTL_PAL h k) % 8 := rfl
  have hrec : (s.lyLatch h k e).layer h k =
      { ((s.lyMoved h k).retire (h, k)).layer h k with genChanged := true, cap := x } := by
    rw [heq]
    exact Sparse.look_put_same _ _ _ _
  have hbase : ((s.lyMoved h k).retire (h, k)).layer h k =
      { s.layer h k with before := none, base := s.rd (R.LYR_BASE_BASE h k), mem := s.on (R.LYR_BASE_MEM h k) } :=
    Sparse.look_put_same _ _ _ _
  have hrd (f : Fld) (hheld : f.key ≠ (R.LYR_STATE_HELD h k).key) (hrun : f.key ≠ (R.LYR_STATE_RUN h k).key) :
      (s.lyLatch h k e).rd f = (((s.lyMoved h k).wr (R.LYR_RETIRED_EPOCH_EPOCH h k) s.epochComing).inc (R.LYR_GEN_GEN h k)).rd f := by
    rw [heq, State.rd_wr_ne _ _ hrun, State.rd_wrB_ne _ _ hheld, State.retire, hret]
    rfl
  have hmoved (f : Fld) (h1 : f.key ≠ (R.LYR_STATE_PAL_CUR h k).key) (h2 : f.key ≠ (R.LYR_STATE_EN_CUR h k).key) :
      (s.lyMoved h k).rd f = (s.wr (R.LYR_STATE_PENDING h k) 0).rd f := by
    rw [State.lyMoved, State.rd_wr_ne _ _ h1, State.rd_wr_ne _ _ h2]
    rfl
  constructor
  · rw [hrec, hbase]
  · rw [hrec, hbase]
  · rw [hrd, State.rd_inc_ne, State.rd_wr_ne, hmoved, State.rd_wr_same]
    · rfl
    all_goals
      simp only [Fld.key, R.LYR_STATE_PENDING, R.LYR_STATE_HELD, R.LYR_STATE_RUN, R.LYR_GEN_GEN, R.LYR_RETIRED_EPOCH_EPOCH,
        R.LYR_STATE_PAL_CUR, R.LYR_STATE_EN_CUR]
      omega
  · rw [hrd, State.rd_inc_ne, State.rd_wr_ne, State.lyMoved, State.rd_wr_same]
    · rfl
    all_goals
      simp only [Fld.key, R.LYR_STATE_HELD, R.LYR_STATE_RUN, R.LYR_GEN_GEN, R.LYR_RETIRED_EPOCH_EPOCH, R.LYR_STATE_PAL_CUR]
      omega
  · rw [hrd, State.rd_inc_ne, State.rd_wr_same]
    · rfl
    all_goals
      simp only [Fld.key, R.LYR_STATE_HELD, R.LYR_STATE_RUN, R.LYR_GEN_GEN, R.LYR_RETIRED_EPOCH_EPOCH]
      omega
  · rw [hrd, State.rd_inc_same, State.rd_wr_ne, hmoved, State.rd_wr_ne]
    · rfl
    all_goals
      simp only [Fld.key, R.LYR_STATE_PENDING, R.LYR_STATE_HELD, R.LYR_STATE_RUN, R.LYR_GEN_GEN, R.LYR_RETIRED_EPOCH_EPOCH,
        R.LYR_STATE_PAL_CUR, R.LYR_STATE_EN_CUR]
      omega

/-! ### The layers of both halves at the latch instant -/

theorem State.layersLatch_other {h' : Nat} (hk : k < 16) (hh : h' ≠ h) (s : State) (e : Nat) : LyKeeps h k s (s.layersLatch h' e) := by
  unfold State.layersLatch
  extract_lets s1 s2
  have h1 : LyKeeps h k s s1 := .forN fun k' hk' a => State.lyLatch_other hk' hk (.inl hh) a e
  have hpg : Blk.LYR.pg h' = 0x74000 + 0x4000 * h' := by simp only [Blk.pg, Blk.win0]; omega
  have h2 : LyKeeps h k s s2 := by
    refine (h1.wr ?_).wr ?_ <;>
      (unfold lyKey; rw [commit_key]; unfold lyBlock; simp only [Fld.key, R.LYR_COMMIT_MASK, R.LYR_TOUCH_MASK]; omega)
  refine .ite (fun _ => h2.wr (not_lyKey_of_header (h' := h') hk ?_ ?_)) fun _ => h2
  all_goals
    simp only [Fld.key, R.RUN]
    omega

theorem State.layersLatch_own (a : LyReady h k s) (hk : k < 16) (e : Nat) :
    LyTaken h k s (s.layersLatch h e) ∧ (s.layersLatch h e).rd (R.LYR_COMMIT_MASK h) = 0 := by
  have hloop : ∀ n, n ≤ 16 → (n ≤ k → LyKeeps h k s (forN n (fun k a => a.lyLatch h k e) s)) ∧
      (k < n → LyTaken h k s (forN n (fun k a => a.lyLatch h k e) s)) := by
    intro n
    induction n with
    | zero => exact fun _ => ⟨fun _ => .refl h k s, fun hlt => absurd hlt (Nat.not_lt_zero k)⟩
    | succ n ih =>
      intro hn
      obtain ⟨hbefore, hafter⟩ := ih (by omega)
      rw [forN_succ]
      refine ⟨fun hle => (hbefore (by omega)).trans (State.lyLatch_other (by omega) hk (.inr (by omega)) _ e), fun hlt => ?_⟩
      by_cases hkn : k = n
      · subst hkn
        have hkeep := hbefore (Nat.le_refl k)
        exact .of_keeps hkeep (State.lyLatch_taken (a.keeps hkeep) hk e)
      · exact (hafter (by omega)).keeps (State.lyLatch_other (by omega) hk (.inr (by omega)) _ e)
  have h1 := (hloop 16 (Nat.le_refl _)).2 hk
  have hpg : Blk.LYR.pg h = 0x74000 + 0x4000 * h := by simp only [Blk.pg, Blk.win0]; omega
  unfold State.layersLatch
  extract_lets s1 s2
  have hblock {f : Fld} (hf : f ∈ layFlds h k) : (0x74100 + 0x4000 * h + 0x40 * k) * 32 ≤ f.key := (layFlds_block hf).1
  have htouch : (R.LYR_TOUCH_MASK h).key = (0x74024 + 0x4000 * h) * 32 := by simp only [Fld.key, R.LYR_TOUCH_MASK]; omega
  have h2 : LyTaken h k s s2 := by
    refine h1.of_rd (fun f hf => ?_) rfl
    have hlo := hblock hf
    change ((s1.wr (R.LYR_COMMIT_MASK h) 0).wr (R.LYR_TOUCH_MASK h) 0).rd f = _
    rw [State.rd_wr_ne _ _ (by omega), State.rd_wr_ne _ _ (by rw [commit_key]; omega)]
  have hmask : s2.rd (R.LYR_COMMIT_MASK h) = 0 := by
    change ((s1.wr (R.LYR_COMMIT_MASK h) 0).wr (R.LYR_TOUCH_MASK h) 0).rd _ = _
    rw [State.rd_wr_ne _ _ (by rw [commit_key]; omega), State.rd_wr_same]
    rfl
  have hrun : (R.RUN (Blk.LYR.pg h)).key = (0x74008 + 0x4000 * h) * 32 := by simp only [Fld.key, R.RUN]; omega
  split
  · refine ⟨h2.of_rd (fun f hf => ?_) rfl, ?_⟩
    · have hlo := hblock hf
      exact State.rd_wr_ne s2 _ (by omega)
    · rw [State.setRun, State.rd_wr_ne _ _ (by rw [commit_key]; omega), hmask]
  · exact ⟨h2, hmask⟩

/-- What the latch instant makes of the layers of both halves. -/
theorem State.layersLatched (a : LyReady h k s) (hh : h < 2) (hk : k < 16) (e : Nat) :
    LyTaken h k s ((s.layersLatch 0 e).layersLatch 1 e) ∧ ((s.layersLatch 0 e).layersLatch 1 e).rd (R.LYR_COMMIT_MASK h) = 0 := by
  rcases (show h = 0 ∨ h = 1 by omega) with rfl | rfl
  · obtain ⟨htaken, hmask⟩ := State.layersLatch_own a hk e
    have hother := State.layersLatch_other (h := 0) (h' := 1) hk (by decide) (s.layersLatch 0 e) e
    exact ⟨htaken.keeps hother, (hother.rd _ (.inl rfl)).trans hmask⟩
  · have hother := State.layersLatch_other (h := 1) (h' := 0) hk (by decide) s e
    obtain ⟨htaken, hmask⟩ := State.layersLatch_own (a.keeps hother) hk e
    exact ⟨.of_keeps hother htaken, hmask⟩

end

/-! ### What else the latch instant does (R165, R184, R185, R208, R226, R47) -/

/-- The registers that lamp diagnosis writes. -/
def lmpFlds (g : Nat) : List Fld :=
  [R.LMP_CNT_B_GOOD g, R.LMP_CNT_A_OPEN g, R.LMP_CNT_A_SHORT g, R.LMP_CNT_B_UNVERIFIED g, R.LMP_EVT_OPEN g, R.LMP_EVT_SHORT g,
    R.LMP_ROW_STUCK_LO_ROWS g, R.LMP_ROW_STUCK_HI_ROWS g, R.LMP_STATUS_ROW_STUCK g, R.LMP_EVT_ROW g, R.LMP_ROW_LAST_ROW g, R.LMP_ROW_LAST_KIND g]

theorem lmp_out {g : Nat} {f : Fld} (hf : f ∈ lmpFlds g) : 0x7C000 * 32 ≤ f.key := by
  revert f
  simp only [lmpFlds, List.mem_cons, List.not_mem_nil, or_false, forall_eq_or_imp, forall_eq, Fld.key, R.LMP_CNT_B_GOOD, R.LMP_CNT_A_OPEN,
    R.LMP_CNT_A_SHORT, R.LMP_CNT_B_UNVERIFIED, R.LMP_EVT_OPEN, R.LMP_EVT_SHORT, R.LMP_ROW_STUCK_LO_ROWS, R.LMP_ROW_STUCK_HI_ROWS,
    R.LMP_STATUS_ROW_STUCK, R.LMP_EVT_ROW, R.LMP_ROW_LAST_ROW, R.LMP_ROW_LAST_KIND]
  omega

theorem State.mendLatch_lyKeeps (h k : Nat) (s : State) : LyKeeps h k s s.mendLatch := (LyKeeps.refl h k s).of_eq rfl rfl rfl rfl rfl

theorem State.reachSlot_lyKeeps (h k : Nat) (s : State) (g j : Nat) : LyKeeps h k s (s.reachSlot g j) := by
  unfold State.reachSlot
  extract_lets paired x y put
  exact .ite (fun _ => (LyKeeps.refl h k s).of_eq rfl rfl rfl rfl rfl) fun _ => (LyKeeps.refl h k s).of_eq rfl rfl rfl rfl rfl

section
variable {h k : Nat} {s t : State} (hh : h < 2) (hk : k < 16)
include hh hk

/-- A field outside the pages of the layers. -/
theorem LyKeeps.out (a : LyKeeps h k s t) {g : Fld} {v : Nat} (hg : g.key < 0x74000 * 32 ∨ 0x7C000 * 32 ≤ g.key) : LyKeeps h k s (t.wr g v) :=
  a.wr (by unfold lyKey; rw [commit_key]; unfold lyBlock; omega)

theorem DramOnly.lyKeeps (a : DramOnly s t) : LyKeeps h k s t := by
  have hkey : ∀ g ∈ drcFlds, g.key < 0x74000 * 32 := by decide
  refine ⟨fun f hf => a.read fun g hg he => ?_, ?_, ?_, ?_⟩
  · have := hkey g hg
    unfold lyKey at hf
    rw [commit_key] at hf
    unfold lyBlock at hf
    omega
  all_goals
    obtain ⟨_, _, _, _, rfl⟩ := a.rest
    rfl

theorem State.swapScan_lyKeeps (s : State) : LyKeeps h k s s.swapScan.1 := by
  unfold State.swapScan
  extract_lets on all s1
  have hon : ∀ g ∈ on, g < 2 := fun g hg => List.mem_range.1 (List.mem_filter.1 hg).1
  have h1 : LyKeeps h k s s1 := by
    refine .forL fun g hg a => ?_
    extract_lets a1 a2 d
    have hcount : LyKeeps h k a (a.count (R.PRS_EVT_OVERRUN g)) :=
      (LyKeeps.refl h k a).out hh hk (.inl (by have := hon g hg; simp only [Fld.key, R.PRS_EVT_OVERRUN]; omega))
    have ha1 : LyKeeps h k a a1 := .ite (fun _ => .refl h k a) fun _ => hcount
    have ha2 : LyKeeps h k a a2 := .ite (fun _ => ha1) fun _ => ha1.of_eq rfl rfl rfl rfl rfl
    exact ha2.of_eq rfl rfl rfl rfl rfl
  exact h1.trans (.forL fun g _ a => (LyKeeps.refl h k a).of_eq rfl rfl rfl rfl rfl)

theorem State.darnSwap_lyKeeps (s : State) {g : Nat} (hg : g < 2) : LyKeeps h k s (s.darnSwap g) := by
  have hkey : ∀ f ∈ [R.DRN_BANK_CUR g, R.DRN_BANK_PENDING g, retiredF (g, 16)], 0x7C000 * 32 ≤ f.key := by
    simp only [retiredF, Nat.lt_irrefl, if_false, List.forall_mem_cons, List.not_mem_nil, false_imp_iff, implies_true, and_true, Fld.key,
      R.DRN_BANK_CUR, R.DRN_BANK_PENDING, R.DRN_RETIRED_EPOCH_EPOCH]
    omega
  simp only [List.forall_mem_cons, List.not_mem_nil, false_imp_iff, implies_true, and_true] at hkey
  obtain ⟨hcur, hpend, hret⟩ := hkey
  refine .ite (fun _ => ?_) fun _ => .refl h k s
  exact ((((LyKeeps.refl h k s).out hh hk (.inr hcur)).out hh hk (.inr hpend)).out hh hk (.inr hret)).of_eq rfl rfl rfl rfl rfl

theorem State.fetchRow_lyKeeps (s : State) (g j r : Nat) : LyKeeps h k s (s.fetchRow g j r) := by
  unfold State.fetchRow
  extract_lets a e s1
  exact .ite (fun _ => (DramOnly.lyKeeps hh hk (s.dramUseAs_dramOnly _ _ _ _ _)).of_eq rfl rfl rfl rfl rfl) fun _ => .refl h k s

theorem State.gapFetch_lyKeeps (s : State) (g : Nat) : LyKeeps h k s (s.gapFetch g) :=
  .ite (fun _ => (State.fetchRow_lyKeeps hh hk _ _ _ _).trans (State.fetchRow_lyKeeps hh hk _ _ _ _)) fun _ => .refl h k _

theorem State.scanLatch_lyKeeps (s : State) {g : Nat} (hg : g < 2) (swapped : Bool) : LyKeeps h k s (s.scanLatch g swapped) := by
  have hkey : ∀ f ∈ [R.SCN_EVT_NOSWAP g, R.SCN_FB_CUR_SRC g, R.SCN_FB_CUR_BASE g, R.SCN_FB_CUR_PENDING g, R.SCN_COMMIT_GO g], 0x7C000 * 32 ≤ f.key := by
    simp only [List.forall_mem_cons, List.not_mem_nil, false_imp_iff, implies_true, and_true, Fld.key, R.SCN_EVT_NOSWAP, R.SCN_FB_CUR_SRC,
      R.SCN_FB_CUR_BASE, R.SCN_FB_CUR_PENDING, R.SCN_COMMIT_GO]
    omega
  simp only [List.forall_mem_cons, List.not_mem_nil, false_imp_iff, implies_true, and_true] at hkey
  obtain ⟨hnoswap, hsrc, hbase, hpend, hgo⟩ := hkey
  unfold State.scanLatch
  extract_lets s1 s2 s3 x
  have h1 : LyKeeps h k s s1 := .ite (fun _ => (LyKeeps.refl h k s).out hh hk (.inr hnoswap)) fun _ => .refl h k s
  have h2 : LyKeeps h k s s2 :=
    .ite (fun _ => (((h1.out hh hk (.inr hsrc)).out hh hk (.inr hbase)).out hh hk (.inr hpend)).out hh hk (.inr hgo)) fun _ => h1
  have h3 : LyKeeps h k s s3 := .ite (fun _ => h2) fun _ => h2.trans (State.reachSlot_lyKeeps h k _ _ _)
  clear_value s3
  exact (h3.of_eq (u := s3.setScan g { x with gap := true, first := none, fetch := [] }) rfl rfl rfl rfl rfl).trans
    (State.gapFetch_lyKeeps hh hk _ g)

theorem State.phaseStep_lyKeeps (s : State) : LyKeeps h k s s.phaseStep := by
  unfold State.phaseStep
  split
  · exact .refl h k s
  · refine .ite (fun _ => .refl h k s) fun _ => ?_
    have h1 : LyKeeps h k s ((s.count R.EPC_EVT_PHASE_STEP).setEpc { s.epc with step := none, good := 0 }) :=
      ((LyKeeps.refl h k s).out hh hk (g := R.EPC_EVT_PHASE_STEP) (.inr (by decide))).of_eq rfl rfl rfl rfl rfl
    exact .ite (fun _ => h1.out hh hk (g := R.EPC_STATE_STATE) (.inr (by decide))) fun _ => h1

/-! Lamp diagnosis. -/

theorem LyKeeps.lmp (a : LyKeeps h k s t) {g : Nat} {f : Fld} {v : Nat} (hf : f ∈ lmpFlds g) : LyKeeps h k s (t.wr f v) :=
  a.out hh hk (.inr (lmp_out hf))

theorem LyKeeps.lampCnt (a : LyKeeps h k s t) (g st v : Nat) : LyKeeps h k s (t.wr (lampCntF g st) v) := by
  unfold lampCntF
  split <;> exact a.lmp hh hk (g := g) (by simp [lmpFlds])

theorem State.lampSet_lyKeeps (s : State) (g i r st : Nat) : LyKeeps h k s (s.lampSet g i r st) := by
  unfold State.lampSet
  extract_lets x s1 s2 s3
  have h1 : LyKeeps h k s s1 := (LyKeeps.refl h k s).of_eq rfl rfl rfl rfl rfl
  have h3 : LyKeeps h k s s3 := (h1.lampCnt hh hk g _ _).lampCnt hh hk g st _
  clear_value s3
  exact .ite (fun _ => .refl h k s) fun _ => .ite (fun _ => h3.lmp hh hk (g := g) (f := R.LMP_EVT_OPEN g) (by simp [lmpFlds])) fun _ =>
    .ite (fun _ => h3.lmp hh hk (g := g) (f := R.LMP_EVT_SHORT g) (by simp [lmpFlds])) fun _ => h3

theorem State.showRows_lyKeeps (s : State) (g : Nat) : LyKeeps h k s (s.showRows g) := by
  unfold State.showRows
  exact (((LyKeeps.refl h k s).lmp hh hk (g := g) (f := R.LMP_ROW_STUCK_LO_ROWS g) (by simp [lmpFlds])).lmp hh hk (g := g)
    (f := R.LMP_ROW_STUCK_HI_ROWS g) (by simp [lmpFlds])).lmp hh hk (g := g) (f := R.LMP_STATUS_ROW_STUCK g) (by simp [lmpFlds])

theorem State.setRowRec_lyKeeps (s : State) (g r : Nat) (x : RowRec) : LyKeeps h k s (s.setRowRec g r x) := by
  unfold State.setRowRec
  extract_lets y
  exact ((LyKeeps.refl h k s).of_eq (u := s.setLamp g _) rfl rfl rfl rfl rfl).trans (State.showRows_lyKeeps hh hk _ g)

theorem State.rowOpen_lyKeeps (s : State) (g r : Nat) : LyKeeps h k s (s.rowOpen g r) := by
  unfold State.rowOpen
  extract_lets x s1
  have h1 : LyKeeps h k s s1 := State.setRowRec_lyKeeps hh hk s g r _
  clear_value s1
  refine .ite (fun _ => ?_) fun _ => h1
  exact ((h1.lmp hh hk (g := g) (f := R.LMP_EVT_ROW g) (by simp [lmpFlds])).lmp hh hk (g := g) (f := R.LMP_ROW_LAST_ROW g) (by simp [lmpFlds])).lmp hh hk (g := g)
    (f := R.LMP_ROW_LAST_KIND g) (by simp [lmpFlds])

theorem State.measure_lyKeeps (s : State) (g i r code : Nat) : LyKeeps h k s (s.measure g i r code) := by
  unfold State.measure
  extract_lets x w twice held s1
  have h1 : LyKeeps h k s s1 := (LyKeeps.refl h k s).of_eq rfl rfl rfl rfl rfl
  exact .ite (fun _ => h1.trans (State.lampSet_lyKeeps hh hk _ _ _ _ _)) fun _ => h1

theorem State.measureSlot_lyKeeps (s : State) (g r : Nat) (pins : List (Nat × Nat)) : LyKeeps h k s (s.measureSlot g r pins) := by
  unfold State.measureSlot
  extract_lets found codes all
  refine .ite (fun _ => .refl h k s) fun _ => ?_
  have h1 : LyKeeps h k s (if all then s.rowOpen g r else s) := .ite (fun _ => State.rowOpen_lyKeeps hh hk s g r) fun _ => .refl h k s
  exact h1.trans (.forL fun e _ a => State.measure_lyKeeps hh hk a g e.1 r e.2)

theorem State.slotEnd_lyKeeps (s : State) (g : Nat) : LyKeeps h k s (s.slotEnd g) := by
  unfold State.slotEnd
  extract_lets y
  split
  · exact (State.measureSlot_lyKeeps hh hk s g _ _).of_eq rfl rfl rfl rfl rfl
  · exact (LyKeeps.refl h k s).of_eq rfl rfl rfl rfl rfl

theorem State.lampsHeld_lyKeeps (s : State) (g : Nat) : LyKeeps h k s (s.lampsHeld g) := by
  refine .forL fun e _ a => ?_
  extract_lets x b
  have hb : LyKeeps h k a b := (LyKeeps.refl h k a).of_eq rfl rfl rfl rfl rfl
  exact .ite (fun _ => hb) fun _ => hb.trans (State.lampSet_lyKeeps hh hk _ _ _ _ _)

theorem State.lampLatch_lyKeeps (s : State) (g : Nat) : LyKeeps h k s (s.lampLatch g) := by
  unfold State.lampLatch
  extract_lets t n x s0 y frame
  have ht : LyKeeps h k s t := (State.slotEnd_lyKeeps hh hk s g).trans (State.lampsHeld_lyKeeps hh hk _ g)
  clear_value t
  have h0 : LyKeeps h k s s0 := ht.of_eq rfl rfl rfl rfl rfl
  clear_value s0
  exact .ite (fun _ => h0.of_eq rfl rfl rfl rfl rfl) fun _ => (h0.of_eq (u := s0.setLamp g _) rfl rfl rfl rfl rfl).trans
    (State.showRows_lyKeeps hh hk _ g)

/-- The latch instant behind the layers keeps what concerns a layer. -/
theorem State.latchInstant_lyKeeps (s : State) (go : (!s.isTile || !s.epcRuns || s.eng.lay.latched || (s.scnLive 0 && s.inFrame 0) ||
    (s.scnLive 1 && s.inFrame 1)) = false) (wind : s.eng.pwr.winding = false) :
    LyKeeps h k ((s.layersLatch 0 s.epochNo).layersLatch 1 s.epochNo) s.latchInstant := by
  unfold State.latchInstant
  rw [go, if_neg Bool.false_ne_true]
  extract_lets e s0 p s1 s2 s3 s4
  change LyKeeps h k s0 _
  have hwind : s0.eng.pwr.winding = false :=
    ((State.layersLatch_other (h := 0) (k := 0) (by decide) (by decide) _ e).winding.trans
      (State.layersLatch_other (h := 1) (k := 0) (by decide) (by decide) s e).winding).trans wind
  clear_value s0
  have h1 : LyKeeps h k s0 s1 :=
    (((State.swapScan_lyKeeps hh hk s0).trans (State.darnSwap_lyKeeps hh hk _ (by decide))).trans (State.darnSwap_lyKeeps hh hk _ (by decide))).trans
      (State.mendLatch_lyKeeps h k _)
  clear_value s1
  have h2 : LyKeeps h k s0 s2 :=
    (h1.trans (State.scanLatch_lyKeeps hh hk _ (by decide) _)).trans (State.scanLatch_lyKeeps hh hk _ (by decide) _)
  clear_value s2
  have h3 : LyKeeps h k s0 s3 := (h2.trans (State.lampLatch_lyKeeps hh hk _ 0)).trans (State.lampLatch_lyKeeps hh hk _ 1)
  clear_value s3
  have h4 : LyKeeps h k s0 s4 := h3.trans (State.phaseStep_lyKeeps hh hk s3)
  clear_value s4
  have h5 : LyKeeps h k s0 (s4.setLay { s4.eng.lay with lastLatch := some e, latched := true }) := h4.of_eq rfl rfl rfl rfl rfl
  unfold State.windDone
  rw [if_neg (by rw [h5.winding, hwind]; simp)]
  exact h5

end

/-! ### COMMIT (R145, R146, R149) -/

/-- The registers and the record of a layer are the same in both states. -/
def LySame (h k : Nat) (s t : State) : Prop := (∀ f ∈ layFlds h k, t.rd f = s.rd f) ∧ t.layer h k = s.layer h k

theorem LySame.trans {h k : Nat} {s t u : State} (a : LySame h k s t) (b : LySame h k t u) : LySame h k s u :=
  ⟨fun f hf => (b.1 f hf).trans (a.1 f hf), b.2.trans a.2⟩

/-- One layer's COMMIT. -/
def State.lyPend (a : State) (h k : Nat) : State :=
  ((a.wr (R.LYR_COMMIT_MASK h) (withBit (a.rd (R.LYR_COMMIT_MASK h)) k true)).wr (R.LYR_STATE_PENDING h k) 1).lyFollow h k

/-- What RUN shows of a layer whose commit has become pending (R149). -/
def State.runPending (s : State) (h k : Nat) : Nat :=
  if s.rd (R.LYR_CTL_EN h k) = s.rd (R.LYR_STATE_EN_CUR h k) then s.rd (R.LYR_STATE_RUN h k)
  else if s.rd (R.LYR_CTL_EN h k) = 1 ∧ (s.lyRun h k = runDisabled ∨ s.lyRun h k = runDrained) then runStarting
  else if s.rd (R.LYR_CTL_EN h k) = 0 then runDraining else s.rd (R.LYR_STATE_RUN h k)

section
variable {h k : Nat} (s : State)

/-- RUN follows EN: only the layer's own RUN and record change. -/
theorem State.lyFollow_cases : ∃ x v, s.lyFollow h k = s ∨ s.lyFollow h k = (s.setLayer h k x).wr (R.LYR_STATE_RUN h k) v := by
  unfold State.lyFollow
  extract_lets x run pend
  by_cases hpend : pend = s.rd (R.LYR_STATE_EN_CUR h k)
  · rw [if_pos hpend]
    split
    · exact ⟨x, 0, .inl rfl⟩
    · exact ⟨_, _, .inr rfl⟩
  · rw [if_neg hpend]
    split
    · exact ⟨x, 0, .inl rfl⟩
    · split
      · exact ⟨_, _, .inr rfl⟩
      · split
        · exact ⟨_, _, .inr rfl⟩
        · exact ⟨x, 0, .inl rfl⟩

theorem State.rd_lyFollow {f : Fld} (hf : f.key ≠ (R.LYR_STATE_RUN h k).key) : (s.lyFollow h k).rd f = s.rd f := by
  obtain ⟨x, v, hs | hs⟩ := s.lyFollow_cases (h := h) (k := k)
  · rw [hs]
  · rw [hs, State.rd_wr_ne _ _ hf]
    rfl

theorem State.run_lyFollow (fresh : (s.layer h k).before = none) : (s.lyFollow h k).rd (R.LYR_STATE_RUN h k) = s.runPending h k := by
  unfold State.lyFollow State.runPending
  simp only [fresh, Option.isSome_none, Bool.false_eq_true, if_false, Bool.and_eq_true, Bool.or_eq_true, decide_eq_true_eq]
  split
  · rfl
  · split
    · exact State.rd_wr_same _ _ _
    · split
      · exact State.rd_wr_same _ _ _
      · rfl

theorem State.lyFollow_other {k' : Nat} (hk : k < 16) (hk' : k' < 16) (hne : k' ≠ k) : LySame h k s (s.lyFollow h k') := by
  obtain ⟨x, v, hs | hs⟩ := s.lyFollow_cases (h := h) (k := k')
  · rw [hs]; exact ⟨fun _ _ => rfl, rfl⟩
  · have keep : LyKeeps h k s ((s.setLayer h k' x).wr (R.LYR_STATE_RUN h k') v) :=
      LyKeeps.wr_other (h' := h) hk' hk (.inr hne) ((LyKeeps.refl h k s).setLayer_other (h' := h) x hk' hk (.inr hne)) (by simp [layFlds])
    rw [hs]
    exact ⟨fun f hf => keep.fld hf, keep.layer⟩

/-- The two writes before RUN follows leave what RUN follows from. -/
theorem State.pend_reads {f : Fld} (hf : f ∈ layFlds h k) (hne : f.key ≠ (R.LYR_STATE_PENDING h k).key) (m : Nat) :
    ((s.wr (R.LYR_COMMIT_MASK h) m).wr (R.LYR_STATE_PENDING h k) 1).rd f = s.rd f := by
  have hlo := (layFlds_block hf).1
  rw [State.rd_wr_ne _ _ hne, State.rd_wr_ne _ _ (by rw [commit_key]; omega)]

theorem State.lyPend_own (fresh : (s.layer h k).before = none) : (s.lyPend h k).rd (R.LYR_STATE_RUN h k) = s.runPending h k := by
  unfold State.lyPend
  rw [State.run_lyFollow _ (by exact fresh)]
  unfold State.runPending State.lyRun
  rw [State.pend_reads s (f := R.LYR_CTL_EN h k) (by simp [layFlds]), State.pend_reads s (f := R.LYR_STATE_EN_CUR h k) (by simp [layFlds]),
    State.pend_reads s (f := R.LYR_STATE_RUN h k) (by simp [layFlds])]
  all_goals
    simp only [Fld.key, R.LYR_CTL_EN, R.LYR_STATE_EN_CUR, R.LYR_STATE_RUN, R.LYR_STATE_PENDING]
    omega

theorem State.lyPend_pending : (s.lyPend h k).rd (R.LYR_STATE_PENDING h k) = 1 := by
  unfold State.lyPend
  rw [State.rd_lyFollow, State.rd_wr_same]
  · rfl
  · simp only [Fld.key, R.LYR_STATE_PENDING, R.LYR_STATE_RUN]; omega

theorem State.lyPend_mask :
    (s.lyPend h k).rd (R.LYR_COMMIT_MASK h) = withBit (s.rd (R.LYR_COMMIT_MASK h)) k true % 65536 := by
  unfold State.lyPend
  rw [State.rd_lyFollow, State.rd_wr_ne, State.rd_wr_same]
  · rfl
  all_goals
    rw [commit_key]
    simp only [Fld.key, R.LYR_STATE_PENDING, R.LYR_STATE_RUN]
    omega

theorem State.lyPend_other {k' : Nat} (hk : k < 16) (hk' : k' < 16) (hne : k' ≠ k) : LySame h k s (s.lyPend h k') := by
  have hpend : LySame h k s ((s.wr (R.LYR_COMMIT_MASK h) (withBit (s.rd (R.LYR_COMMIT_MASK h)) k' true)).wr (R.LYR_STATE_PENDING h k') 1) := by
    refine ⟨fun f hf => ?_, rfl⟩
    obtain ⟨hlo, hhi⟩ := layFlds_block hf
    obtain ⟨hplo, hphi⟩ := layFlds_block (h := h) (k := k') (f := R.LYR_STATE_PENDING h k') (by simp [layFlds])
    rw [State.rd_wr_ne _ _ (by omega), State.rd_wr_ne _ _ (by rw [commit_key]; omega)]
  exact hpend.trans (State.lyFollow_other _ hk hk' hne)

end

/-- The mask as far as the layers below `n` go. -/
theorem withBit_mod_two_pow {m n : Nat} (hbit : bitOf m n = true) : withBit (m % 2 ^ n) n true = m % 2 ^ (n + 1) := by
  refine Nat.eq_of_testBit_eq fun i => ?_
  rw [← bitOf_eq_testBit, ← bitOf_eq_testBit, bitOf_withBit, bitOf_mod, bitOf_mod]
  by_cases hi : i = n
  · simp [hi, hbit]
  · simp only [hi, if_false]
    congr 1
    exact decide_eq_decide.2 (by omega)

theorem mod_two_pow_succ_of_not {m n : Nat} (hbit : bitOf m n = false) : m % 2 ^ n = m % 2 ^ (n + 1) := by
  refine Nat.eq_of_testBit_eq fun i => ?_
  rw [← bitOf_eq_testBit, ← bitOf_eq_testBit, bitOf_mod, bitOf_mod]
  by_cases hi : i = n
  · simp [hi, hbit]
  · congr 1
    exact decide_eq_decide.2 (by omega)

/-- What a COMMIT of the mask `m` has done when the layers below `n` have had their turn. -/
structure LyCommitted (h m n : Nat) (s t : State) : Prop where
  mask : t.rd (R.LYR_COMMIT_MASK h) = m % 2 ^ n
  same : ∀ k, k < 16 → n ≤ k ∨ bitOf m k = false → LySame h k s t
  pend : ∀ k, k < n → bitOf m k = true →
    t.rd (R.LYR_STATE_PENDING h k) = 1 ∧ ((s.layer h k).before = none → t.rd (R.LYR_STATE_RUN h k) = s.runPending h k)

theorem State.runPending_congr {s t : State} {h k : Nat} (a : LySame h k s t) : t.runPending h k = s.runPending h k := by
  unfold State.runPending State.lyRun
  rw [a.1 (R.LYR_CTL_EN h k) (by simp [layFlds]), a.1 (R.LYR_STATE_EN_CUR h k) (by simp [layFlds]), a.1 (R.LYR_STATE_RUN h k) (by simp [layFlds])]

theorem State.lyCommit_spec {s : State} {h : Nat} (clear : s.rd (R.LYR_COMMIT_MASK h) = 0) (m : Nat) : LyCommitted h m 16 s (s.lyCommit h m) := by
  have hloop : ∀ n, n ≤ 16 → LyCommitted h m n s (forN n (fun k a => if bitOf m k && !bitOf (s.rd (R.LYR_COMMIT_MASK h)) k then a.lyPend h k else a) s) := by
    intro n
    induction n with
    | zero =>
      exact fun _ => ⟨by rw [Nat.pow_zero, Nat.mod_one]; exact clear, fun _ _ _ => ⟨fun _ _ => rfl, rfl⟩, fun k hk => absurd hk (Nat.not_lt_zero k)⟩
    | succ n ih =>
      intro hn
      obtain ⟨hmask, hsame, hpend⟩ := ih (by omega)
      rw [forN_succ]
      generalize forN n _ s = t at hmask hsame hpend ⊢
      by_cases hbit : bitOf m n = true
      · rw [if_pos (by rw [hbit, clear]; simp [bitOf])]
        have hother (k : Nat) (hk : k < 16) (hkn : n ≠ k) : LySame h k t (t.lyPend h n) := State.lyPend_other t hk (by omega) hkn
        have hown := hsame n (by omega) (.inl (Nat.le_refl n))
        refine ⟨?_, fun k hk hcase => ?_, fun k hk hkb => ?_⟩
        · have hlt : m % 2 ^ (n + 1) < 65536 :=
            lt_of_lt_of_le (Nat.mod_lt _ (Nat.two_pow_pos _)) (Nat.pow_le_pow_right (n := 2) (by decide) (show n + 1 ≤ 16 from hn))
          rw [State.lyPend_mask, hmask, withBit_mod_two_pow hbit, Nat.mod_eq_of_lt hlt]
        · have hkn : n ≠ k := by
            rintro rfl
            rcases hcase with hle | hfalse
            · omega
            · rw [hbit] at hfalse; exact absurd hfalse (by decide)
          exact (hsame k hk (hcase.imp_left (by omega))).trans (hother k hk hkn)
        · by_cases hkn : n = k
          · subst hkn
            refine ⟨State.lyPend_pending t, fun fresh => ?_⟩
            rw [State.lyPend_own t (by rw [hown.2]; exact fresh), State.runPending_congr hown]
          · obtain ⟨hp, hrun⟩ := hpend k (by omega) hkb
            have ho := hother k (by omega) hkn
            exact ⟨(ho.1 _ (by simp [layFlds])).trans hp, fun fresh => (ho.1 _ (by simp [layFlds])).trans (hrun fresh)⟩
      · rw [if_neg (by simp [hbit])]
        have hfalse : bitOf m n = false := by simpa using hbit
        refine ⟨by rw [hmask, mod_two_pow_succ_of_not hfalse], fun k hk hcase => ?_, fun k hk hkb => ?_⟩
        · exact hsame k hk (hcase.imp_left (by omega))
        · have hkn : k ≠ n := by rintro rfl; exact hbit hkb
          exact hpend k (by omega) hkb
  exact hloop 16 (Nat.le_refl _)

/-! ### The statement -/

theorem fldsAt_commit (b : Build) {h : Nat} (hh : h < 2) : fldsAt .LYR b h 0x20 = some ([R.LYR_COMMIT_MASK h], false) := by
  rcases (show h = 0 ∨ h = 1 by omega) with rfl | rfl <;> cases b <;> rfl

theorem fldsAt_touch (b : Build) {h : Nat} (hh : h < 2) : fldsAt .LYR b h 0x24 = some ([R.LYR_TOUCH_MASK h], false) := by
  rcases (show h = 0 ∨ h = 1 by omega) with rfl | rfl <;> cases b <;> rfl

theorem State.cmWrite_commit {s : State} {h m : Nat} (path : Path) (clear : s.rd (R.LYR_COMMIT_MASK h) = 0) (hm : m < 65536) :
    s.cmWrite ⟨.LYR, h, 0x20, path, .set, m⟩ = (s.lyCommit h m, []) := by
  change (s.lyCommit h (m % 65536), if Nat.land (m % 65536) (s.rd (R.LYR_COMMIT_MASK h)) = 0 then [] else [rBusy]) = _
  rw [Nat.mod_eq_of_lt hm, clear, if_pos (show Nat.land m 0 = 0 from Nat.and_zero m)]

theorem State.cmWrite_touch {s : State} {h m : Nat} (path : Path) (clear : s.rd (R.LYR_TOUCH_MASK h) = 0) (hm : m < 65536) :
    s.cmWrite ⟨.LYR, h, 0x24, path, .set, m⟩ = (s.wr (R.LYR_TOUCH_MASK h) m, []) := by
  change (s.wr (R.LYR_TOUCH_MASK h) (Nat.lor (s.rd (R.LYR_TOUCH_MASK h)) (m % 65536)),
    if Nat.land (m % 65536) (s.rd (R.LYR_TOUCH_MASK h)) = 0 then [] else [rBusy]) = _
  rw [Nat.mod_eq_of_lt hm, clear, if_pos (show Nat.land m 0 = 0 from Nat.and_zero m), show Nat.lor 0 m = m from Nat.zero_or m]

theorem mask_toNat (m : BitVec 16) : (m.setWidth 32).toNat = m.toNat := by
  have := m.isLt
  rw [BitVec.toNat_setWidth]
  omega

section
variable {s : State} {path : Path} {h : Nat} {m : BitVec 16}

theorem State.commit_written (hh : h < 2) (hr : s.reaches path (R.LYR_COMMIT_MASK h) .set) (clear : s.rd (R.LYR_COMMIT_MASK h) = 0) :
    s.pathWrite path (viewAddr (R.LYR_COMMIT_MASK h) .set) [m.setWidth 32] 15 = (s.lyCommit h m.toNat).calCheck.answered path := by
  have hcm := State.cmWrite_commit path clear m.isLt
  rw [← mask_toNat] at hcm
  rw [← mask_toNat m]
  rcases (show h = 0 ∨ h = 1 by omega) with rfl | rfl
  · exact State.pathWrite_commands (a := 0x75020) (rs := []) hr rfl (by decide) rfl (fldsAt_commit s.build (by decide)) (by decide) (by decide)
      (by decide) (by decide) (by decide) (by decide) hcm
  · exact State.pathWrite_commands (a := 0x79020) (rs := []) hr rfl (by decide) rfl (fldsAt_commit s.build (by decide)) (by decide) (by decide)
      (by decide) (by decide) (by decide) (by decide) hcm

theorem State.touch_written (hh : h < 2) (hr : s.reaches path (R.LYR_TOUCH_MASK h) .set) (clear : s.rd (R.LYR_TOUCH_MASK h) = 0) :
    s.pathWrite path (viewAddr (R.LYR_TOUCH_MASK h) .set) [m.setWidth 32] 15 = (s.wr (R.LYR_TOUCH_MASK h) m.toNat).calCheck.answered path := by
  have hcm := State.cmWrite_touch path clear m.isLt
  rw [← mask_toNat] at hcm
  rw [← mask_toNat m]
  rcases (show h = 0 ∨ h = 1 by omega) with rfl | rfl
  · exact State.pathWrite_commands (a := 0x75024) (rs := []) hr rfl (by decide) rfl (fldsAt_touch s.build (by decide)) (by decide) (by decide)
      (by decide) (by decide) (by decide) (by decide) hcm
  · exact State.pathWrite_commands (a := 0x79024) (rs := []) hr rfl (by decide) rfl (fldsAt_touch s.build (by decide)) (by decide) (by decide)
      (by decide) (by decide) (by decide) (by decide) hcm

end

/-- Settles O53: COMMIT is a loop over the layers that each change their own registers alone, and so is the latch instant, whose later parts leave
the layers' pages. -/
theorem layerCommits : Obligations.LayerCommits := by
  unfold Obligations.LayerCommits
  intro half h s hhalf
  have hh : h < 2 := hhalf ▸ Half.no_lt half
  subst hhalf
  generalize hq : Half.no half = h at hh ⊢
  refine ⟨fun path m hr clear => ?commit, fun path m hr clear => ?touch, ?latch⟩
  case commit =>
    obtain ⟨hmask, hsame, hpend⟩ := State.lyCommit_spec clear m.toNat
    have hkept (f : Fld) (hf : 0x74000 * 32 ≤ f.key) : ((s.lyCommit h m.toNat).calCheck.answered path).rd f = (s.lyCommit h m.toNat).rd f := by
      have hcal : R.CAL_STATE_PHASE.key < 0x74000 * 32 ∧ R.CAL_CMD_RUN.key < 0x74000 * 32 ∧ R.CAL_EVT_ABORT.key < 0x74000 * 32 := by decide
      rw [State.rd_answered, State.rd_calCheck _ (by omega) (by omega) (by omega)]
    have hlay {k : Nat} {f : Fld} (hf : f ∈ layFlds h k) : ((s.lyCommit h m.toNat).calCheck.answered path).rd f = (s.lyCommit h m.toNat).rd f :=
      hkept f (by have := (layFlds_block hf).1; omega)
    refine completes_eq (by subst hq; rfl) (State.commit_written hh hr clear) ⟨?_, fun k hk => ⟨?_, fun hbit => ?_, fun hbit fresh => ?_⟩⟩
    · rw [hkept _ (by rw [commit_key]; omega), hmask, Nat.mod_eq_of_lt m.isLt]
    · rw [hlay (k := k) (by simp [layFlds])]
      split
      · next hbit => exact (hpend k hk hbit).1
      · next hbit => exact (hsame k hk (.inr (by simpa using hbit))).1 _ (by simp [layFlds])
    · rw [hlay (k := k) (by simp [layFlds])]
      exact (hsame k hk (.inr hbit)).1 _ (by simp [layFlds])
    · rw [hlay (k := k) (by simp [layFlds])]
      exact (hpend k hk hbit).2 fresh
  case touch =>
    have hkey : (R.LYR_TOUCH_MASK h).key = (0x74024 + 0x4000 * h) * 32 := by simp only [Fld.key, R.LYR_TOUCH_MASK]; omega
    have hcal : R.CAL_STATE_PHASE.key < 0x74000 * 32 ∧ R.CAL_CMD_RUN.key < 0x74000 * 32 ∧ R.CAL_EVT_ABORT.key < 0x74000 * 32 := by decide
    refine completes_eq (by subst hq; rfl) (State.touch_written hh hr clear) ⟨?_, ?_⟩
    · rw [State.rd_answered, State.rd_calCheck _ (by omega) (by omega) (by omega), State.rd_wr_same]
      exact Nat.mod_eq_of_lt m.isLt
    · exact (((sameElse.refl s _).wr (f := R.LYR_TOUCH_MASK h) (v := m.toNat) (by simp)).calCheck.answered path)
  case latch =>
    intro k hk tile runs latched wind frames commit software en enCur restart moved
    have ready : LyReady h k s := ⟨commit, software, en, enCur, restart, moved⟩
    have go : (!s.isTile || !s.epcRuns || s.eng.lay.latched || (s.scnLive 0 && s.inFrame 0) || (s.scnLive 1 && s.inFrame 1)) = false := by
      rw [State.isTile, tile, runs, latched]
      simpa using frames
    obtain ⟨htaken, hmask⟩ := State.layersLatched ready hh hk s.epochNo
    have hrest := (State.latchInstant_lyKeeps hh hk s go wind).trans (DramOnly.lyKeeps hh hk s.latchInstant.dramSlots_dramOnly)
    obtain ⟨hbase, hmem, hpending, hpal, hretired, hgen⟩ := htaken.keeps hrest
    exact completes_eq rfl rfl ⟨hbase, hmem, hpending, (hrest.rd _ (.inl rfl)).trans hmask, hpal, hretired, hgen⟩

end Sys2Proof.Machine
end

section
/-! O14: switching CTL between ROOT and the RC oscillator, and the fall-back (R93, R94). -/

namespace Sys2Proof.Machine

/-! ### Leaving ROOT: what the lost generators and the ended calibration leave alone -/

/-- A field of no generator of Traverse. -/
def Fld.offTrv (f : Fld) : Bool := decide (f.key < 19931136 ∨ 19939328 ≤ f.key)

/-- A field that neither the loss of the generators nor the end of a calibration changes. -/
def Fld.outlastsRoot (f : Fld) : Bool :=
  f.offTrv && decide (f.key ≠ R.CAL_STATE_PHASE.key) && decide (f.key ≠ R.CAL_CMD_RUN.key) && decide (f.key ≠ R.CAL_EVT_ABORT.key)

/-- The clock switch and the pins are the same. -/
structure SameClk (s t : State) : Prop where
  clk : t.clk = s.clk
  pins : t.pins = s.pins

theorem SameClk.refl (s : State) : SameClk s s := ⟨rfl, rfl⟩

theorem SameClk.trans {s t u : State} (h : SameClk s t) (k : SameClk t u) : SameClk s u := ⟨k.clk.trans h.clk, k.pins.trans h.pins⟩

theorem SameClk.wr {s t : State} (h : SameClk s t) (f : Fld) (v : Nat) : SameClk s (t.wr f v) := ⟨h.clk, h.pins⟩

theorem State.trvLose_sameClk (s : State) (g why : Nat) : SameClk s (s.trvLose g why) := by
  unfold State.trvLose
  split
  · exact .refl s
  · exact ⟨rfl, rfl⟩

theorem State.calCheck_sameClk (s : State) : SameClk s s.calCheck := by
  obtain ⟨r, c, h⟩ := s.calCheck_rest
  rw [h]
  exact ⟨rfl, rfl⟩

theorem State.leftRoot_sameClk (s : State) (before : Nat) : SameClk s (s.leftRoot before) := by
  unfold State.leftRoot
  refine SameClk.trans ?_ (State.calCheck_sameClk _)
  split
  · exact forN_inv (SameClk s) (.refl s) fun g a h => h.trans (State.trvLose_sameClk a g _)
  · exact .refl s

theorem State.rd_trvLoseAll (s : State) (why : Nat) {f : Fld} (hf : f.offTrv = true) : (s.trvLoseAll why).rd f = s.rd f := by
  refine forN_inv_lt (P := fun t : State => t.rd f = s.rd f) rfl fun g hg a h => ((State.trvLose_only a g why).frame.read fun k hk => ?_).trans h
  have hoff : f.key < 19931136 ∨ 19939328 ≤ f.key := of_decide_eq_true hf
  have hkey := trvFlds_key hk
  omega

theorem State.rd_leftRoot (s : State) (before : Nat) {f : Fld} (hf : f.outlastsRoot = true) : (s.leftRoot before).rd f = s.rd f := by
  simp only [Fld.outlastsRoot, Bool.and_eq_true, decide_eq_true_eq] at hf
  obtain ⟨⟨⟨htrv, hphase⟩, hrun⟩, habort⟩ := hf
  unfold State.leftRoot
  rw [State.rd_calCheck _ hphase hrun habort]
  split
  · exact State.rd_trvLoseAll s _ htrv
  · rfl

/-- Where the device was not on ROOT, or Traverse is not enabled, nothing but a calibration ends. -/
theorem State.leftRoot_quiet {s : State} {before : Nat} (h : before ≠ curRoot ∨ s.enabled .TRV 0 = false) : s.leftRoot before = s.calCheck := by
  unfold State.leftRoot
  rw [if_neg]
  rcases h with h | h <;> simp [h]

/-! ### The loss of the root PLL's lock -/

/-- The fields of the clock tree that the loss of the root PLL's lock is about. -/
def rootLossFlds : List Fld :=
  [R.CLK_PLL_ROOT_LOCK, R.CLK_SEL_TO_ROOT, R.CLK_SEL_TO_RC, R.CLK_SEL_CUR, R.CLK_EVT_UNLOCK, R.CLK_EVT_REFLOSS, R.CLK_REF_SRC]


/-- The RUN field of a block clocked by CORE is none of these fields, nor one of scan-out's. -/
def runKeyOk (e : Blk × Nat) : Bool :=
  (R.RUN (e.1.pg e.2)).outlastsRoot && rootLossFlds.all (fun f => decide (f.key ≠ (R.RUN (e.1.pg e.2)).key)) &&
    (List.range 2).all (fun h => decide ((R.RUN (e.1.pg e.2)).key ≠ (R.SCN_STATUS_ROLE h).key) && decide ((R.RUN (e.1.pg e.2)).key ≠ (R.SCN_INC_INC h).key))

theorem coreWins_runKeyOk (s : State) : ∀ e ∈ s.coreWins, runKeyOk e = true := by
  have h (b : Build) : ((State.fresh b Pins.atReset).coreWins.all runKeyOk) = true := by cases b <;> decide +kernel
  exact List.all_eq_true.1 (h s.build)

/-- Blocks that are WEDGED one after the other are all WEDGED. -/
theorem run_wedgeAll {l : List (Blk × Nat)} {s : State} {e : Blk × Nat} (h : e ∈ l ∨ s.run e.1 e.2 = runWedged) :
    (forL l (fun e a => a.setRun e.1 e.2 runWedged) s).run e.1 e.2 = runWedged := by
  induction l generalizing s with
  | nil => exact h.resolve_left (List.not_mem_nil)
  | cons d l ih =>
    refine ih (s := s.setRun d.1 d.2 runWedged) ?_
    rcases h with h | h
    · rcases List.mem_cons.1 h with rfl | h
      · exact .inr (State.run_setRun_same s _ _ _)
      · exact .inl h
    · refine .inr ?_
      by_cases hk : (R.RUN (e.1.pg e.2)).key = (R.RUN (d.1.pg d.2)).key
      · exact State.rd_wr_key s _ hk
      · exact (State.rd_setRun_ne s hk).trans h

theorem State.wedgeCore_spec (s : State) :
    SameClk s s.wedgeCore ∧ (∀ f ∈ rootLossFlds, s.wedgeCore.rd f = s.rd f) ∧ ∀ e ∈ s.coreWins, s.wedgeCore.run e.1 e.2 = runWedged := by
  have hscn : ∀ h < 2, ∀ f ∈ rootLossFlds, f.key ≠ (R.SCN_STATUS_ROLE h).key ∧ f.key ≠ (R.SCN_INC_INC h).key := by decide
  have hclk : SameClk s (forL s.coreWins (fun e a => a.setRun e.1 e.2 runWedged) s) := forL_inv (SameClk s) (.refl s) fun _ _ h => h.wr _ _
  have hrd : ∀ f ∈ rootLossFlds, (forL s.coreWins (fun e a => a.setRun e.1 e.2 runWedged) s).rd f = s.rd f := fun f hf =>
    List.foldlRecOn (motive := fun t : State => t.rd f = s.rd f) _ _ rfl fun t ht e he => by
      have hok := coreWins_runKeyOk s e he
      simp only [runKeyOk, Bool.and_eq_true, List.all_eq_true, decide_eq_true_eq] at hok
      exact (State.rd_setRun_ne t (hok.1.2 f hf)).trans ht
  have hrun : ∀ e ∈ s.coreWins, (forL s.coreWins (fun e a => a.setRun e.1 e.2 runWedged) s).run e.1 e.2 = runWedged := fun e he => run_wedgeAll (.inl he)
  unfold State.wedgeCore
  split
  · refine ⟨forN_inv (SameClk s) hclk fun _ _ h => (h.wr _ _).wr _ _, fun f hf => ?_, fun e he => ?_⟩
    · refine forN_inv_lt (P := fun t : State => t.rd f = s.rd f) (hrd f hf) fun h hh t ht => ?_
      obtain ⟨h1, h2⟩ := hscn h hh f hf
      rw [State.rd_wr_ne _ _ h2, State.rd_wr_ne _ _ h1, ht]
    · have hok := coreWins_runKeyOk s e he
      simp only [runKeyOk, Bool.and_eq_true, List.all_eq_true, List.mem_range, decide_eq_true_eq] at hok
      refine forN_inv_lt (P := fun t : State => t.run e.1 e.2 = runWedged) (hrun e he) fun h hh t ht => ?_
      obtain ⟨h1, h2⟩ := hok.2 h hh
      rw [State.run, State.rd_wr_ne _ _ h2, State.rd_wr_ne _ _ h1]
      exact ht
  · exact ⟨hclk, hrd, hrun⟩

theorem State.on_of_one {s : State} {f : Fld} (h : s.rd f = 1) : s.on f = true := by rw [State.on, h]; rfl

/-- On ROOT the loss of lock falls back and is counted, and every block clocked by CORE is WEDGED. -/
theorem State.rootLoss_root {s : State} (h : s.rd R.CLK_SEL_CUR = curRoot) (before : Nat) :
    (s.rootLoss.leftRoot before).clk.switching = none ∧ (s.rootLoss.leftRoot before).pins = s.pins ∧ (s.rootLoss.leftRoot before).rd R.CLK_SEL_CUR = curFallback ∧
      (s.rootLoss.leftRoot before).rd R.CLK_PLL_ROOT_LOCK = 0 ∧
      (s.rootLoss.leftRoot before).rd R.CLK_EVT_UNLOCK = min (s.rd R.CLK_EVT_UNLOCK + 1) 4294967295 ∧
      (s.rootLoss.leftRoot before).rd R.CLK_EVT_REFLOSS = s.rd R.CLK_EVT_REFLOSS ∧
      (s.rootLoss.leftRoot before).rd R.CLK_REF_SRC = s.rd R.CLK_REF_SRC ∧
      ∀ e ∈ s.coreWins, (s.rootLoss.leftRoot before).run e.1 e.2 = runWedged := by
  let s1 : State := ((({ s with clk := { switching := none } } : State).wr R.CLK_PLL_ROOT_LOCK 0).wr R.CLK_SEL_TO_ROOT 0).wr R.CLK_SEL_TO_RC 0
  have hroot : s.rootLoss = ((s1.wr R.CLK_SEL_CUR curFallback).count R.CLK_EVT_UNLOCK).wedgeCore := if_pos h
  obtain ⟨hclk, hrd, hrun⟩ := State.wedgeCore_spec ((s1.wr R.CLK_SEL_CUR curFallback).count R.CLK_EVT_UNLOCK)
  have hs1 : ∀ f : Fld, (∀ g ∈ [R.CLK_PLL_ROOT_LOCK, R.CLK_SEL_TO_ROOT, R.CLK_SEL_TO_RC], f.key ≠ g.key) → s1.rd f = s.rd f :=
    ((((sameElse.refl s [R.CLK_PLL_ROOT_LOCK, R.CLK_SEL_TO_ROOT, R.CLK_SEL_TO_RC]).of_eq rfl rfl rfl :
      sameElse s { s with clk := { switching := none } } _).wr (by simp)).wr (by simp)).wr (by simp) |>.1
  rw [hroot]
  have hsame := hclk.trans (State.leftRoot_sameClk _ before)
  refine ⟨(congrArg Clk.switching hsame.clk).trans rfl, hsame.pins, ?_, ?_, ?_, ?_, ?_, fun e he => ?_⟩
  · rw [State.rd_leftRoot _ _ (by decide), hrd _ (by decide), State.rd_count_ne _ (by decide), State.rd_wr_same]
    rfl
  · rw [State.rd_leftRoot _ _ (by decide), hrd _ (by decide), State.rd_count_ne _ (by decide), State.rd_wr_ne _ _ (by decide)]
    simp (disch := decide) only [s1, State.rd_wr_ne, State.rd_wr_same]
    rfl
  · rw [State.rd_leftRoot _ _ (by decide), hrd _ (by decide), State.rd_count32 _ rfl, State.rd_wr_ne _ _ (by decide), hs1 _ (by decide)]
  · rw [State.rd_leftRoot _ _ (by decide), hrd _ (by decide), State.rd_count_ne _ (by decide), State.rd_wr_ne _ _ (by decide), hs1 _ (by decide)]
  · rw [State.rd_leftRoot _ _ (by decide), hrd _ (by decide), State.rd_count_ne _ (by decide), State.rd_wr_ne _ _ (by decide), hs1 _ (by decide)]
  · have hok := coreWins_runKeyOk s e he
    simp only [runKeyOk, Bool.and_eq_true] at hok
    exact (State.rd_leftRoot _ _ hok.1.1).trans (hrun e he)

/-! ### The commands TO_ROOT and TO_RC -/

theorem fldsAt_clkSel (b : Build) : fldsAt .CLK b 0 0x2C = some ([R.CLK_SEL_TO_ROOT, R.CLK_SEL_TO_RC, R.CLK_SEL_CUR], false) := by cases b <;> rfl

theorem State.cmWrite_clkSel (s : State) (path : Path) (raw : Nat) :
    s.cmWrite ⟨.CLK, 0, 0x2C, path, .set, raw⟩ = started s (s.clkSelStart (bitOf raw 0) (bitOf raw 1)) := rfl

/-- A start of TO_ROOT alone on the RC oscillator, no switch under way and the root PLL locked. -/
theorem State.clkSelStart_root {s : State} (hcur : s.rd R.CLK_SEL_CUR = curRc) (hsw : s.clk.switching = none) (hlock : s.rd R.CLK_PLL_ROOT_LOCK = 1) :
    s.clkSelStart true false = .ok (({ s with clk := { switching := some curRoot } } : State).wr R.CLK_SEL_TO_ROOT 1) := by
  unfold State.clkSelStart
  simp [hcur, hsw, State.on_of_one hlock, curRc, curRoot, curFallback]

/-- A start of TO_RC alone on ROOT, no switch under way and every block clocked by CORE stopped. -/
theorem State.clkSelStart_rc {s : State} (hcur : s.rd R.CLK_SEL_CUR = curRoot) (hsw : s.clk.switching = none) (hbusy : s.coreBusy = false) :
    s.clkSelStart false true = .ok (({ s with clk := { switching := some curRc } } : State).wr R.CLK_SEL_TO_RC 1) := by
  unfold State.clkSelStart
  simp [hcur, hsw, hbusy, curRc, curRoot, curFallback]

/-- A switch that has begun: its target stands, its command bit reads 1, and nothing else has changed but a calibration run. -/
theorem switchBegun {s : State} {f : Fld} {n : Nat} (path : Path) (hw : f.width = 1) (hcur : R.CLK_SEL_CUR.key ≠ f.key)
    (hphase : f.key ≠ R.CAL_STATE_PHASE.key) (hrun : f.key ≠ R.CAL_CMD_RUN.key) (habort : f.key ≠ R.CAL_EVT_ABORT.key) :
    let t := ((({ s with clk := { switching := some n } } : State).wr f 1).calCheck).answered path
    t.clk.switching = some n ∧ t.rd f = 1 ∧ t.rd R.CLK_SEL_CUR = s.rd R.CLK_SEL_CUR ∧ sameElse s t ([f] ++ calFlds) := by
  have hframe : sameElse s (({ s with clk := { switching := some n } } : State).wr f 1) [f] :=
    ((sameElse.refl s [f]).of_eq rfl rfl rfl : sameElse s { s with clk := { switching := some n } } [f]).wr (by simp)
  refine ⟨?_, ?_, ?_, hframe.calCheck.answered path⟩
  · rw [State.answered_clk, State.calCheck_clk]
    rfl
  · rw [State.rd_answered, State.rd_calCheck _ hphase hrun habort, State.rd_wr_same, hw]
    rfl
  · rw [State.rd_answered, State.rd_calCheck _ (by decide) (by decide) (by decide)]
    exact hframe.read (by simpa using hcur)

theorem toRoot_completes {s : State} {path : Path} (hr : s.reaches path R.CLK_SEL_TO_ROOT .set) (hcur : s.rd R.CLK_SEL_CUR = curRc)
    (hsw : s.clk.switching = none) (hlock : s.rd R.CLK_PLL_ROOT_LOCK = 1) :
    completes (.toRoot path .set) s (fun t =>
      t.clk.switching = some curRoot ∧ t.rd R.CLK_SEL_TO_ROOT = 1 ∧ t.rd R.CLK_SEL_CUR = curRc ∧
      sameElse s t ([R.CLK_SEL_TO_ROOT] ++ calFlds)) := by
  have heq := State.command_runs (v := 1) (a := 0x502C) hr rfl (by decide) rfl (fldsAt_clkSel s.build) (by decide) (by decide) (by decide) (by decide)
    (by decide) (by decide) (raw := 1) (by decide) ((State.cmWrite_clkSel s path 1).trans (congrArg (started s) (State.clkSelStart_root hcur hsw hlock)))
  rw [State.counted_nil] at heq
  have h := switchBegun (s := s) (f := R.CLK_SEL_TO_ROOT) (n := curRoot) path rfl (by decide) (by decide) (by decide) (by decide)
  exact completes_eq rfl heq (hcur ▸ h)

theorem toRc_completes {s : State} {path : Path} (hr : s.reaches path R.CLK_SEL_TO_RC .set) (hcur : s.rd R.CLK_SEL_CUR = curRoot)
    (hsw : s.clk.switching = none) (hbusy : s.coreBusy = false) :
    completes (.toRc path .set) s (fun t =>
      t.clk.switching = some curRc ∧ t.rd R.CLK_SEL_TO_RC = 1 ∧ t.rd R.CLK_SEL_CUR = curRoot ∧
      sameElse s t ([R.CLK_SEL_TO_RC] ++ calFlds)) := by
  have heq := State.command_runs (v := 1) (a := 0x502C) hr rfl (by decide) rfl (fldsAt_clkSel s.build) (by decide) (by decide) (by decide) (by decide)
    (by decide) (by decide) (raw := 2) (by decide) ((State.cmWrite_clkSel s path 2).trans (congrArg (started s) (State.clkSelStart_rc hcur hsw hbusy)))
  rw [State.counted_nil] at heq
  have h := switchBegun (s := s) (f := R.CLK_SEL_TO_RC) (n := curRc) path rfl (by decide) (by decide) (by decide) (by decide)
  exact completes_eq rfl heq (hcur ▸ h)

/-! ### The end of a switch -/

/-- The end of a switch that leaves no running generator behind, in a device that has booted. -/
theorem clockSwitchDone_completes {s : State} {target : Nat} (ht : target < 4) (hsw : s.clk.switching = some target) (hrun : s.boot.phase = .run)
    (hleft : s.rd R.CLK_SEL_CUR ≠ curRoot ∨ s.enabled .TRV 0 = false) :
    completes .clockSwitchDone s (fun t =>
      t.rd R.CLK_SEL_CUR = target ∧ t.rd R.CLK_SEL_TO_ROOT = 0 ∧ t.rd R.CLK_SEL_TO_RC = 0 ∧ t.clk.switching = none ∧
      sameElse s t ([R.CLK_SEL_CUR, R.CLK_SEL_TO_ROOT, R.CLK_SEL_TO_RC] ++ calFlds)) := by
  let u : State := ((({ s with clk := { switching := none } } : State).wr R.CLK_SEL_CUR target).wr R.CLK_SEL_TO_ROOT 0).wr R.CLK_SEL_TO_RC 0
  have hframe : sameElse s u [R.CLK_SEL_CUR, R.CLK_SEL_TO_ROOT, R.CLK_SEL_TO_RC] :=
    ((((sameElse.refl s _).of_eq rfl rfl rfl : sameElse s { s with clk := { switching := none } } _).wr (by simp)).wr (by simp)).wr (by simp)
  have hdone : s.switchDone = u := by
    unfold State.switchDone
    rw [hsw]
  have htrv : s.rd R.CLK_SEL_CUR ≠ curRoot ∨ u.enabled .TRV 0 = false :=
    hleft.imp id fun h => by rw [← h, State.enabled, State.on, hframe.read (by decide)]; rfl
  have heq : s.clocksSwitched = u.calCheck := by
    unfold State.clocksSwitched
    rw [hdone, State.leftRoot_quiet htrv]
    refine if_neg ?_
    rw [State.calCheck_boot]
    simp [u, hrun]
  refine completes_eq rfl heq ⟨?_, ?_, ?_, ?_, hframe.calCheck⟩
  · rw [State.rd_calCheck _ (by decide) (by decide) (by decide)]
    simp (disch := decide) only [u, State.rd_wr_ne, State.rd_wr_same]
    exact Nat.mod_eq_of_lt ht
  · rw [State.rd_calCheck _ (by decide) (by decide) (by decide)]
    simp (disch := decide) only [u, State.rd_wr_ne, State.rd_wr_same]
    rfl
  · rw [State.rd_calCheck _ (by decide) (by decide) (by decide)]
    exact State.rd_wr_same _ _ _
  · rw [State.calCheck_clk]
    rfl

/-! ### Loss of lock and of the reference -/

theorem rootLockLoss_root {s : State} (hcur : s.rd R.CLK_SEL_CUR = curRoot) (hlock : s.rd R.CLK_PLL_ROOT_LOCK = 1) :
    completes (.pllLockLoss .root) s (fun t =>
      t.rd R.CLK_SEL_CUR = curFallback ∧ t.rd R.CLK_PLL_ROOT_LOCK = 0 ∧
      t.rd R.CLK_EVT_UNLOCK = min (s.rd R.CLK_EVT_UNLOCK + 1) 4294967295 ∧ t.clk.switching = none ∧
      ∀ e ∈ s.coreWins, t.run e.1 e.2 = runWedged) := by
  obtain ⟨hclk, _, hfall, hroot, hcount, _, _, hwedged⟩ := State.rootLoss_root hcur (s.rd R.CLK_SEL_CUR)
  exact completes_eq rfl (if_pos (State.on_of_one hlock)) ⟨hfall, hroot, hcount, hclk, hwedged⟩

theorem rootLockLoss_rc {s : State} (hcur : s.rd R.CLK_SEL_CUR = curRc) (hlock : s.rd R.CLK_PLL_ROOT_LOCK = 1) :
    completes (.pllLockLoss .root) s (fun t =>
      t.rd R.CLK_PLL_ROOT_LOCK = 0 ∧ sameElse s t ([R.CLK_PLL_ROOT_LOCK, R.CLK_SEL_TO_ROOT, R.CLK_SEL_TO_RC] ++ calFlds)) := by
  let u : State := ((({ s with clk := { switching := none } } : State).wr R.CLK_PLL_ROOT_LOCK 0).wr R.CLK_SEL_TO_ROOT 0).wr R.CLK_SEL_TO_RC 0
  have hframe : sameElse s u [R.CLK_PLL_ROOT_LOCK, R.CLK_SEL_TO_ROOT, R.CLK_SEL_TO_RC] :=
    ((((sameElse.refl s _).of_eq rfl rfl rfl : sameElse s { s with clk := { switching := none } } _).wr (by simp)).wr (by simp)).wr (by simp)
  have hne : s.rd R.CLK_SEL_CUR ≠ curRoot := by rw [hcur]; decide
  have hloss : s.rootLoss = u := if_neg hne
  have heq : s.pllLoss .root = u.calCheck := by
    refine (if_pos (State.on_of_one hlock)).trans ?_
    rw [hloss, State.leftRoot_quiet (.inl hne)]
  refine completes_eq rfl heq ⟨?_, hframe.calCheck⟩
  rw [State.rd_calCheck _ (by decide) (by decide) (by decide)]
  simp (disch := decide) only [u, State.rd_wr_ne, State.rd_wr_same]
  rfl

theorem refLoss_root {s : State} (hcur : s.rd R.CLK_SEL_CUR = curRoot) (hpresent : s.refPresent = true) (hrun : s.boot.phase = .run) :
    completes .refLoss s (fun t =>
      t.rd R.CLK_EVT_REFLOSS = min (s.rd R.CLK_EVT_REFLOSS + 1) 4294967295 ∧ t.refPresent = false ∧
      t.rd R.CLK_SEL_CUR = curFallback ∧ ∀ e ∈ s.coreWins, t.run e.1 e.2 = runWedged) := by
  let p : Pins := if s.rd R.CLK_REF_SRC = 0 then { s.pins with refclkOk := false } else { s.pins with xtalOk := false }
  let u : State := ({ s with pins := p } : State).count R.CLK_EVT_REFLOSS
  have hu : sameElse s u [R.CLK_EVT_REFLOSS] := ((sameElse.refl s _).of_eq rfl rfl rfl : sameElse s { s with pins := p } _).count (by simp)
  obtain ⟨_, hpins, hfall, _, _, hcount, hsrc, hwedged⟩ := State.rootLoss_root ((hu.read (by decide)).trans hcur) (s.rd R.CLK_SEL_CUR)
  refine completes_eq rfl (if_neg (by simp [hpresent, hrun])) ⟨hcount.trans (State.rd_count32 _ rfl), ?_, hfall, hwedged⟩
  unfold State.refPresent
  rw [hpins, hsrc, hu.read (f := R.CLK_REF_SRC) (by decide)]
  by_cases h : s.rd R.CLK_REF_SRC = 0
  · simp [u, p, h, State.count, State.bump, State.wr]
  · simp [u, p, h, State.count, State.bump, State.wr]

/-- Settles O14: the switch to ROOT and to the RC oscillator, and the fall-back on loss of lock or of the reference. -/
theorem clockSwitchAndFallback : Obligations.ClockSwitchAndFallback := by
  unfold Obligations.ClockSwitchAndFallback
  refine ⟨fun path s => ⟨toRoot_completes, toRc_completes, fun target ht hsw hrun hcur => ?_⟩, fun s hsw hrun hcur htrv => ?_,
    fun s => ⟨rootLockLoss_root, rootLockLoss_rc, refLoss_root⟩⟩
  · exact clockSwitchDone_completes (by omega) hsw hrun (.inl (by rw [hcur]; decide))
  · obtain ⟨t, hx, hto, hroot, hrc, hnone, hrest⟩ := clockSwitchDone_completes (by decide) hsw hrun (.inr htrv)
    refine ⟨t, hx, hto, hroot, hrc, hnone, ?_, hrest⟩
    rw [State.coreGated, hto]
    rfl

end Sys2Proof.Machine
end

section
/-! O15: the causes of a full reset, the glitch filter of RESET_N, and PERST_N (R95 to R99, R101). -/

namespace Sys2Proof.Machine

/-! ### A full reset -/

theorem Sparse.get_eq_none {α : Type} {l : List (Nat × α)} {k : Nat} (h : k ∉ l.map Prod.fst) : Sparse.get l k = none := by
  induction l with
  | nil => rfl
  | cons e l ih =>
    simp only [List.map_cons, List.mem_cons, not_or] at h
    exact (if_neg fun he => h.1 he.symm).trans (ih h.2)

/-- What is put under other keys leaves what is listed under a key. -/
theorem Sparse.get_putAll {α : Type} {kept l : List (Nat × α)} {k : Nat} (h : k ∉ kept.map Prod.fst) :
    Sparse.get (forL kept (fun e l => Sparse.put l e.1 e.2) l) k = Sparse.get l k := by
  refine List.foldlRecOn (motive := fun m => Sparse.get m k = Sparse.get l k) _ _ rfl fun m hm e he => ?_
  exact (Sparse.get_put_ne m e.2 fun hk => h (List.mem_map.2 ⟨e, he, hk.symm⟩)).trans hm

/-- The consecutive watchdog resets that a full reset of a cause counts. -/
def wdogRunAfter (s : State) (cause : ResetCause) : Nat :=
  match cause with
  | .por => 0
  | .wdog => min 15 (s.rd R.BOOT_RESET_CAUSE_WDOG_RUN + 1)
  | _ => s.rd R.BOOT_RESET_CAUSE_WDOG_RUN

theorem State.fullReset_spec (s : State) (cause : ResetCause) :
    fullyReset s (s.fullReset cause) ∧ (s.fullReset cause).rd R.BOOT_RESET_CAUSE_CAUSE = cause.bit ∧
      (s.fullReset cause).rd R.BOOT_RESET_CAUSE_WDOG_RUN = wdogRunAfter s cause % 16 ∧ (s.fullReset cause).pins = s.pins ∧
      (s.fullReset cause).boot.due = none ∧ (s.fullReset cause).wdog.running = false ∧
      (s.pins.resetLow = true → (s.fullReset cause).boot.phase = .held) := by
  refine ⟨⟨fun f hstrap hkept hcause hwdog => ?_, fun k => ?_, rfl, rfl⟩, ?_, ?_, rfl, rfl, rfl, fun h => ?_⟩
  · unfold State.fullReset
    rw [State.rd_wr_ne _ _ hwdog, State.rd_wr_ne _ _ hcause]
    have hreset {kept : List (Nat × Nat)} (h : f.key ∉ kept.map Prod.fst) :
        Sparse.look (forL kept (fun e l => Sparse.put l e.1 e.2) (strapRegs s.build s.pins)) f.key (f.rst s.build) = f.rst s.build :=
      congrArg (Option.getD · _) ((Sparse.get_putAll h).trans (Sparse.get_eq_none hstrap))
    have hnot : f.key ∉ (keptFlds.map (fun (k : Fld) => (k.key, s.rd k))).map Prod.fst := by
      simp only [List.map_map, List.mem_map, not_exists, not_and]
      exact fun g hg he => hkept g hg he.symm
    cases cause
    case por => exact hreset List.not_mem_nil
    all_goals exact hreset hnot
  · refine (congrArg (Option.getD · _) (Sparse.get_filter s.mem inStore k)).trans ?_
    split <;> rfl
  · refine (State.rd_wr_ne _ _ (by decide)).trans ((State.rd_wr_same _ _ _).trans ?_)
    cases cause <;> rfl
  · cases cause <;> exact State.rd_wr_same _ _ _
  · exact if_pos (by rw [h]; rfl)

/-- A reset clears by the build and the store alone. -/
theorem fullyReset.of_eq {s u t : State} (h : fullyReset u t) (hb : u.build = s.build) (hm : u.mem = s.mem) : fullyReset s t := by
  unfold fullyReset at h ⊢
  rwa [hb, hm] at h

theorem State.cutRecord_rest (s : State) :
    s.cutRecord.build = s.build ∧ s.cutRecord.mem = s.mem ∧ s.cutRecord.pins = s.pins ∧ s.cutRecord.regs = s.regs := by
  unfold State.cutRecord
  split
  · exact ⟨rfl, rfl, rfl, rfl⟩
  · exact ⟨rfl, rfl, rfl, rfl⟩

theorem powerOnReset_completes (s : State) :
    completes .powerOnReset s (fun t =>
      fullyReset s t ∧ t.rd R.BOOT_RESET_CAUSE_CAUSE = 1 ∧ t.rd R.BOOT_RESET_CAUSE_WDOG_RUN = 0 ∧ t.pins.railEn = false) := by
  obtain ⟨hb, hm, _, _⟩ := s.cutRecord_rest
  obtain ⟨hclear, hcause, hwdog, hpins, _, _, _⟩ :=
    State.fullReset_spec ({ s.cutRecord with pins := { s.pins with railEn := false, railPg := false } } : State) .por
  exact completes_eq rfl rfl ⟨fullyReset.of_eq hclear hb hm, hcause, hwdog, by rw [State.powerOn, hpins]⟩

theorem resetPin_completes (s : State) (low : Nat) :
    completes (.resetPin low) s (fun t =>
      if low < 10000 then t = s
      else fullyReset s t ∧ t.rd R.BOOT_RESET_CAUSE_CAUSE = 2 ∧ t.boot.phase = .held ∧
        t.pins.railEn = (s.pins.railEn || decide (s.pstate = pValley)) ∧
        t.rd R.BOOT_RESET_CAUSE_WDOG_RUN = s.rd R.BOOT_RESET_CAUSE_WDOG_RUN % 16) := by
  by_cases hlow : low < 10000
  · exact completes_eq rfl (if_pos hlow) (by rw [if_pos hlow])
  · obtain ⟨hb, hm, _, hr⟩ := s.cutRecord_rest
    let up := decide (s.pstate = pValley) && !s.pins.railEn
    let u : State := { s.cutRecord with pins := { s.pins with resetLow := true, railEn := up || s.pins.railEn } }
    obtain ⟨hclear, hcause, hwdog, hpins, _, _, hheld⟩ := State.fullReset_spec u .pin
    have hrail : (up || s.pins.railEn) = (s.pins.railEn || decide (s.pstate = pValley)) := by
      have hor : ∀ v r : Bool, ((v && !r) || r) = (r || v) := by decide
      exact hor _ _
    have hrun : (u.fullReset .pin).rd R.BOOT_RESET_CAUSE_WDOG_RUN = s.rd R.BOOT_RESET_CAUSE_WDOG_RUN % 16 := by
      rw [hwdog]
      refine congrArg (· % 16) ?_
      unfold wdogRunAfter State.rd
      rw [show u.regs = s.regs from hr, show u.build = s.build from hb]
    have hpin : (u.fullReset .pin).pins.railEn = (s.pins.railEn || decide (s.pstate = pValley)) := by rw [hpins]; exact hrail
    refine completes_eq (t := if up then (u.fullReset .pin).emit (.pin "RAIL_EN" true) else u.fullReset .pin) rfl (if_neg hlow) ?_
    rw [if_neg hlow]
    split
    · exact ⟨fullyReset.of_eq hclear hb hm, hcause, hheld rfl, hpin, hrun⟩
    · exact ⟨fullyReset.of_eq hclear hb hm, hcause, hheld rfl, hpin, hrun⟩

theorem fullReset_completes {s : State} (hdue : s.boot.due = some .cmd) :
    completes .fullReset s (fun t => fullyReset s t ∧ t.rd R.BOOT_RESET_CAUSE_CAUSE = 4 ∧ t.boot.due = none) := by
  obtain ⟨hclear, hcause, _, _, hnone, _, _⟩ := s.fullReset_spec .cmd
  refine completes_eq (t := s.fullReset .cmd) rfl ?_ ⟨hclear, hcause, hnone⟩
  rw [hdue]

theorem watchdogExpiry_tile {s : State} (hb : s.build = .tile) (hrun : s.wdog.running = true) :
    completes .watchdogExpiry s (fun t =>
      fullyReset s t ∧ t.rd R.BOOT_RESET_CAUSE_CAUSE = 8 ∧
      t.rd R.BOOT_RESET_CAUSE_WDOG_RUN = min 15 (s.rd R.BOOT_RESET_CAUSE_WDOG_RUN + 1) ∧ t.wdog.running = false) := by
  obtain ⟨hclear, hcause, hwdog, _, _, hstopped, _⟩ := s.fullReset_spec .wdog
  refine completes_eq (t := s.fullReset .wdog) rfl ((if_pos hrun).trans ?_) ⟨hclear, hcause, hwdog.trans (Nat.mod_eq_of_lt ?_), hstopped⟩
  · rw [State.wdogPath, hb]
  · exact Nat.lt_of_le_of_lt (Nat.min_le_left _ _) (by decide)

theorem lockstepMismatch_tile {s : State} (hb : s.build = .tile) (hphase : s.boot.phase ≠ .held) :
    completes .lockstepMismatch s (fun t => fullyReset s t ∧ t.rd R.BOOT_RESET_CAUSE_CAUSE = 16) := by
  obtain ⟨hclear, hcause, _, _, _, _, _⟩ := s.fullReset_spec .lockstep
  refine completes_eq (t := s.fullReset .lockstep) rfl ((if_neg hphase).trans ?_) ⟨hclear, hcause⟩
  rw [State.wdogPath, hb]

/-! ### PERST_N -/

/-- A field of a page that was cleared reads its reset value. -/
theorem State.rd_clearPage (s : State) (b : Blk) (f : Fld) :
    (s.clearPage b).rd f = if f.key / 32 / 16384 = b.pg 0 / 16384 then f.rst s.build else s.rd f := by
  have hget := Sparse.get_filter s.regs (fun k => decide (k / 32 / 16384 ≠ b.pg 0 / 16384)) f.key
  refine (congrArg (Option.getD · _) hget).trans ?_
  by_cases h : f.key / 32 / 16384 = b.pg 0 / 16384
  · rw [if_pos h, if_neg (by simpa using h)]
    rfl
  · rw [if_neg h, if_pos (by simpa using h)]
    rfl

theorem Fld.page_of_key {f : Fld} (h : f.lsb < 32) : f.key / 32 / 16384 = f.addr / 16384 := by
  rw [Fld.key]
  omega

theorem State.frameBad_rest (s : State) (n : Nat) : (s.frameBad n).build = s.build ∧ (s.frameBad n).pins = s.pins := by
  unfold State.frameBad
  split
  · exact ⟨rfl, rfl⟩
  · dsimp only
    split <;> exact ⟨rfl, rfl⟩

theorem perstFall_completes {s : State} (hb : s.build = .head) (hhigh : s.pins.perstLow = false) :
    completes (.perstN true) s (fun t =>
      (∀ f : Fld, f.lsb < 32 → f.addr / 16384 = 8 ∨ f.addr / 16384 = 9 → t.rd f = f.rst .head) ∧ t.host.remotes = [] ∧ t.host.d3 = [] ∧
      t.pins.perstLow = true) := by
  let s1 : State := { s with pins := { s.pins with perstLow := true }, boot := { s.boot with roseNs := if true then s.boot.roseNs else s.nowNs } }
  let s2 : State := forN 16 (fun n a => if a.on (R.DMA_CH_STATE_FRAME_OPEN n) then a.frameBad n else a) s1
  have hs2 : s2.build = .head ∧ s2.pins = s1.pins := by
    refine forN_inv (fun t : State => t.build = .head ∧ t.pins = s1.pins) ⟨hb, rfl⟩ fun n a ha => ?_
    obtain ⟨h1, h2⟩ := State.frameBad_rest a n
    split
    · exact ⟨h1.trans ha.1, h2.trans ha.2⟩
    · exact ha
  let s3 : State := ((s2.clearPage .HST).clearPage .DMA).dropRemotes
  have heq : s.perst true = { s3 with host := { s3.host with holdoff := [], owed := [], d3 := [], held := [], bells := [], cfg := [], msixTab := [],
                                                             pba := [], posted := [], turn := 15, nextRead := 0 } } := by
    unfold State.perst
    split
    · next h => exact absurd (hb.symm.trans h) (by decide)
    · dsimp only [s3, s2, s1]
      rw [if_neg (by simp [hhigh])]
  clear_value s2
  refine completes_eq rfl heq ⟨fun f hlsb hpage => ?_, rfl, rfl, ?_⟩
  · refine ((s2.clearPage .HST).rd_clearPage .DMA f).trans ?_
    rw [State.rd_clearPage, Fld.page_of_key hlsb, show (s2.clearPage .HST).build = .head from hs2.1, hs2.1]
    rcases hpage with h | h <;> rw [h] <;> rfl
  · exact congrArg Pins.perstLow hs2.2

/-- No level wake source active: the look for one records at most that none has been seen. -/
theorem State.wakeLook_none {s : State} (h : s.wakeActive = [] ∨ s.pphase = ppEntering ∨ s.pphase = ppCommitted) :
    s.wakeLook.pins = s.pins ∧ s.wakeLook.build = s.build ∧ s.wakeLook.regs = s.regs := by
  unfold State.wakeLook
  split
  · exact ⟨rfl, rfl, rfl⟩
  split
  · unfold State.wakePicked
    split <;> exact ⟨rfl, rfl, rfl⟩
  next hphase =>
    have hact : s.wakeActive = [] := h.resolve_right (by simpa using hphase)
    split
    · have hseen : s.wakeSeen = none := by
        unfold State.wakeSeen
        rw [hact]
        cases s.eng.pwr.seen <;> rfl
      rw [hseen]
      exact ⟨rfl, rfl, rfl⟩
    · exact ⟨rfl, rfl, rfl⟩

theorem perstRise_completes {s : State} (hb : s.build = .head) (hst : s.pstate ≠ pValley) (hact : s.wakeActive = []) :
    completes (.perstN false) s (fun t => t.pins.perstLow = false ∧ ∀ f, t.rd f = s.rd f) := by
  let s1 : State := { s with pins := { s.pins with perstLow := false }, boot := { s.boot with roseNs := if false then s.boot.roseNs else s.nowNs } }
  have heq : s.perst false = s1.wakeLook := by
    unfold State.perst
    split
    · next h => exact absurd (hb.symm.trans h) (by decide)
    · exact if_pos (by simp)
  have hlook : s1.wakeActive = [] ∨ s1.pphase = ppEntering ∨ s1.pphase = ppCommitted := by
    by_cases hp : s.pphase = ppEntering
    · exact .inr (.inl hp)
    · refine .inl (Eq.trans ?_ hact)
      have hp1 : s1.pphase ≠ ppEntering := hp
      have hst1 : s1.pstate ≠ pValley := hst
      simp only [State.wakeActive, if_neg hp, if_neg hp1, if_neg hst, if_neg hst1]
      rfl
  obtain ⟨hpins, hbuild, hregs⟩ := s1.wakeLook_none hlook
  refine completes_eq rfl heq ⟨by rw [hpins], fun f => ?_⟩
  unfold State.rd
  rw [hregs, hbuild]

/-- Settles O15: each cause of a full reset clears the device; the fall of PERST_N on a head clears HST and DMA, and nothing else of PERST_N resets. -/
theorem resetsAndPerst : Obligations.ResetsAndPerst := by
  unfold Obligations.ResetsAndPerst
  refine ⟨fun s _ => ⟨powerOnReset_completes s, resetPin_completes s, fullReset_completes, watchdogExpiry_tile, lockstepMismatch_tile⟩,
    fun s => ⟨perstFall_completes, perstRise_completes, fun hb low => ?_⟩⟩
  refine completes_eq rfl ?_ rfl
  rw [State.perst, hb]

end Sys2Proof.Machine
end

section
/-! O19: the load port, VERIFY, and key records (R105, R106, R109, R110). -/

namespace Sys2Proof.Machine

/-! ### The load port (R110) -/

theorem Space.flat_store (b : Build) (off n : Nat) : Space.store.flat b off n := fun _ _ => rfl

/-- The write of a register leaves memory. -/
theorem State.rd32_wr (s : State) (f : Fld) (v : Nat) (sp : Space) (a : Nat) : (s.wr f v).rd32 sp a = s.rd32 sp a := State.rdLE_congr rfl rfl sp a 4

theorem State.wrLE_boot (s : State) (sp : Space) (off v n : Nat) : (s.wrLE sp off v n).boot = s.boot := by
  induction n generalizing s off v with
  | zero => rfl
  | succ n ih => exact ih _ _ _

theorem slotValid_key (slot : Nat) : (slotValidF slot).key = R.BOOT_IMG_STATE_A_VALID.key ∨ (slotValidF slot).key = R.BOOT_IMG_STATE_B_VALID.key := by
  unfold slotValidF
  split
  · exact .inl rfl
  · exact .inr rfl

/-- No field of the load port is the valid flag of a slot. -/
theorem slotValid_ne {f : Fld} (hA : f.key ≠ R.BOOT_IMG_STATE_A_VALID.key) (hB : f.key ≠ R.BOOT_IMG_STATE_B_VALID.key) (slot : Nat) :
    f.key ≠ (slotValidF slot).key := by
  rcases slotValid_key slot with h | h <;> rw [h] <;> assumption

theorem slotValid_other {slot : Nat} (h : slot < 2) : (slotValidF (1 - slot)).key ≠ (slotValidF slot).key := by
  obtain rfl | rfl : slot = 0 ∨ slot = 1 := by omega
  all_goals decide

/-- A dword that the load port takes: stored at the pointer, which advances; the first of a load clears the flag of its slot. -/
theorem State.loadData_spec {s : State} {v slot a : Nat} (hslot : slot < 2) (ht : s.rd R.BOOT_LOAD_STATE_TARGET = slot)
    (ha : a = slotBase slot + 4 * s.rd R.BOOT_LOAD_PTR_OFFSET) (hp : s.rd R.BOOT_LOAD_PTR_OFFSET < slotWords) (hm : Memory.wf s.mem = true)
    (hv : v < 4294967296) :
    (s.loadData v).rd32 .store a = v ∧ (s.loadData v).rd R.BOOT_LOAD_PTR_OFFSET = s.rd R.BOOT_LOAD_PTR_OFFSET + 1 ∧
      (s.loadData v).rd (slotValidF slot) = (if s.boot.loadFirst then 0 else s.rd (slotValidF slot)) ∧
      (s.loadData v).rd (slotValidF (1 - slot)) = s.rd (slotValidF (1 - slot)) ∧ (s.loadData v).boot.loadFirst = false ∧
      ∀ k, (k < Space.store.key a ∨ Space.store.key a + 4 ≤ k) → memGet (s.loadData v).mem k = memGet s.mem k := by
  generalize hs1 : (if s.boot.loadFirst then { (s.wr (slotValidF slot) 0) with boot := { s.boot with loadFirst := false } } else s : State) = s1
  have hrest : s1.mem = s.mem ∧ s1.boot.loadFirst = false ∧ (∀ f : Fld, f.key ≠ (slotValidF slot).key → s1.rd f = s.rd f) ∧
      s1.rd (slotValidF slot) = (if s.boot.loadFirst then 0 else s.rd (slotValidF slot)) := by
    by_cases h : s.boot.loadFirst = true
    · rw [if_pos h] at hs1 ⊢
      subst hs1
      exact ⟨rfl, rfl, fun f hf => State.rd_wr_ne s 0 hf, (State.rd_wr_same s _ 0).trans (Nat.zero_mod _)⟩
    · rw [if_neg h] at hs1 ⊢
      subst hs1
      exact ⟨rfl, by simpa using h, fun _ _ => rfl, rfl⟩
  obtain ⟨hmem, hfirst, hrd, hflag⟩ := hrest
  have hptr : s1.rd R.BOOT_LOAD_PTR_OFFSET = s.rd R.BOOT_LOAD_PTR_OFFSET := hrd _ (slotValid_ne (by decide) (by decide) slot)
  have heq : s.loadData v = (s1.wr32 .store a v).wr R.BOOT_LOAD_PTR_OFFSET (s.rd R.BOOT_LOAD_PTR_OFFSET + 1) := by
    unfold State.loadData
    simp only [ht, hs1, hptr, if_pos hp, ← ha]
  have hoff (n : Nat) : (slotValidF n).key ≠ R.BOOT_LOAD_PTR_OFFSET.key := (slotValid_ne (by decide) (by decide) n).symm
  rw [heq]
  refine ⟨?_, ?_, ?_, ?_, ?_, fun k hk => ?_⟩
  · rw [State.rd32_wr]
    exact (State.rdLE_wrLE (hmem ▸ hm) v (Space.flat_store _ _ _)).trans (Nat.mod_eq_of_lt hv)
  · refine (State.rd_wr_same _ _ _).trans (Nat.mod_eq_of_lt ?_)
    simp only [slotWords] at hp
    change _ < 262144
    omega
  · rw [State.rd_wr_ne _ _ (hoff _), State.rd_wr32, hflag]
  · rw [State.rd_wr_ne _ _ (hoff _), State.rd_wr32, hrd _ (slotValid_other hslot)]
  · rw [State.wr_boot, State.wr32, State.wrLE_boot, hfirst]
  · rw [State.wr_mem, ← hmem]
    refine State.memGet_wrLE_ne s1 .store a v 4 fun i hi => ?_
    simp only [Space.key, Space.fold] at hk ⊢
    omega

theorem fldsAt_loadData (b : Build) : fldsAt .BOOT b 0 0x64 = some ([R.BOOT_LOAD_DATA_DATA], false) := by cases b <;> rfl

theorem oneField_loadData : OneField .BOOT 0 0x64 R.BOOT_LOAD_DATA_DATA := by
  constructor <;> decide

theorem State.judge_loadData {s : State} {path : Path} {v : Word} (hlock : s.rd (R.LOCK 0x8000) = 0) (hver : s.rd R.BOOT_LOAD_CMD_VERIFY = 0) :
    s.judge ⟨.BOOT, 0, 0x64, path, .base, v.toNat⟩ false R.BOOT_LOAD_DATA_DATA = .take v.toNat := by
  have hl : s.on (R.LOCK (Wr.pg ⟨.BOOT, 0, 0x64, path, .base, v.toNat⟩)) = false := by
    refine decide_eq_false ?_
    change s.rd (R.LOCK 0x8000) ≠ 1
    omega
  have hres : (⟨.BOOT, 0, 0x64, path, .base, v.toNat⟩ : Wr).result R.BOOT_LOAD_DATA_DATA (s.see R.BOOT_LOAD_DATA_DATA) = v.toNat := by
    rw [Wr.result_base rfl]
    have hv := v.isLt
    change v.toNat / 1 % 4294967296 = v.toNat
    omega
  rw [State.judge_rw rfl (by simp) rfl hl rfl, hres]
  refine State.judgeValue_takes ?_ rfl ?_
  · unfold State.closed
    rw [if_neg (by simp [R.BOOT_LOAD_DATA_DATA, R.CLK_PLL_EN_ROOT_EN]), if_neg (by simp [State.on, hver]),
      if_neg (by simp [R.BOOT_LOAD_DATA_DATA, R.EPC_PERIOD_NS])]
  · have hextra : s.rangeExtra ⟨.BOOT, 0, 0x64, path, .base, v.toNat⟩ R.BOOT_LOAD_DATA_DATA v.toNat = false := by simp [State.rangeExtra]
    rw [State.rangeBad, hextra]
    exact Bool.or_eq_false_iff.2 ⟨Bool.or_eq_false_iff.2 ⟨decide_eq_false (Nat.not_lt_zero _), decide_eq_false (Nat.not_lt.2 (Nat.le_of_lt_succ v.isLt))⟩, rfl⟩

/-- A dword written to the load port. -/
theorem loadData_written {s : State} {path : Path} {v : Word} {slot a : Nat} (hslot : slot < 2) (ht : s.rd R.BOOT_LOAD_STATE_TARGET = slot)
    (ha : a = slotBase slot + 4 * s.rd R.BOOT_LOAD_PTR_OFFSET) (hr : s.reaches path R.BOOT_LOAD_DATA_DATA .base)
    (hlock : s.rd (R.LOCK 0x8000) = 0) (hver : s.rd R.BOOT_LOAD_CMD_VERIFY = 0) (hp : s.rd R.BOOT_LOAD_PTR_OFFSET < slotWords) (hwf : s.wf = true) :
    completes (.loadDataWrite path .base v) s (fun t =>
      t.rd32 .store a = v.toNat ∧ t.rd R.BOOT_LOAD_PTR_OFFSET = s.rd R.BOOT_LOAD_PTR_OFFSET + 1 ∧
      t.rd (slotValidF slot) = (if s.boot.loadFirst then 0 else s.rd (slotValidF slot)) ∧
      t.rd (slotValidF (1 - slot)) = s.rd (slotValidF (1 - slot)) ∧ t.boot.loadFirst = false ∧
      ∀ k, (k < Space.store.key a ∨ Space.store.key a + 4 ≤ k) → memGet t.mem k = memGet s.mem k) := by
  have heq := State.pathWrite_takes (v := v) (a := 0x8064) hr rfl (by decide) rfl (fldsAt_loadData s.build) oneField_loadData (State.judge_loadData hlock hver)
  have htake : s.takeFld ⟨.BOOT, 0, 0x64, path, .base, v.toNat⟩ R.BOOT_LOAD_DATA_DATA v.toNat =
      ((s.wr R.BOOT_LOAD_DATA_DATA v.toNat).soil).loadData v.toNat := by
    unfold State.takeFld
    rw [State.store_plain s _ (by decide)]
    unfold State.foldSoil
    simp [Wr.checked, R.BOOT_LOAD_DATA_DATA, State.taken, foldBlks]
  rw [show (0x8064 : Nat) % 4096 = 0x64 from rfl, show viewAt 0x8064 = .base from rfl, htake] at heq
  let u : State := (s.wr R.BOOT_LOAD_DATA_DATA v.toNat).soil
  have hu (f : Fld) (h : f.key ≠ R.BOOT_LOAD_DATA_DATA.key) : u.rd f = s.rd f := State.rd_wr_ne s _ h
  have hptr : u.rd R.BOOT_LOAD_PTR_OFFSET = s.rd R.BOOT_LOAD_PTR_OFFSET := hu _ (by decide)
  obtain ⟨hword, hoff, hflag, hother, hfirst, hmem⟩ := State.loadData_spec (s := u) hslot ((hu _ (by decide)).trans ht) (hptr ▸ ha) (hptr ▸ hp)
    (show Memory.wf s.mem = true from State.wf_mem hwf) v.isLt
  have hvalid (n : Nat) : ((u.loadData v.toNat).calCheck.answered path).rd (slotValidF n) = (u.loadData v.toNat).rd (slotValidF n) := by
    rw [State.rd_answered, State.rd_calCheck]
    all_goals exact (slotValid_ne (by decide) (by decide) n).symm
  refine completes_eq rfl heq ⟨?_, ?_, ?_, ?_, ?_, fun k hk => ?_⟩
  · exact (State.rdLE_congr (s := u.loadData v.toNat) (by simp [u]) (by simp [u]) .store a 4).trans hword
  · rw [State.rd_answered, State.rd_calCheck _ (by decide) (by decide) (by decide)]
    exact hoff.trans (congrArg (· + 1) hptr)
  · rw [hvalid, hflag, hu _ (slotValid_ne (by decide) (by decide) slot).symm]
    rfl
  · rw [hvalid, hother, hu _ (slotValid_ne (by decide) (by decide) _).symm]
  · rw [(State.calCheck_answered_rest _ path).1]
    exact hfirst
  · rw [State.answered_mem, State.calCheck_mem]
    exact hmem k hk

/-! ### VERIFY (R110) -/

theorem fldsAt_loadCmd (b : Build) : fldsAt .BOOT b 0 0x68 = some ([R.BOOT_LOAD_CMD_VERIFY], false) := by cases b <;> rfl

theorem loadVerify_starts {s : State} {path : Path} (hr : s.reaches path R.BOOT_LOAD_CMD_VERIFY .set) (hver : s.rd R.BOOT_LOAD_CMD_VERIFY = 0) :
    completes (.loadVerify path .set) s (fun t => t.rd R.BOOT_LOAD_CMD_VERIFY = 1 ∧ sameElse s t ([R.BOOT_LOAD_CMD_VERIFY] ++ calFlds)) := by
  have hset : s.cmWrite ⟨.BOOT, 0, 0x68, path, .set, 1⟩ = (s.wr R.BOOT_LOAD_CMD_VERIFY 1, []) := by
    have hcm : s.setCm R.BOOT_LOAD_CMD_VERIFY = (s.wr R.BOOT_LOAD_CMD_VERIFY 1, []) := if_neg (by simp [State.on, hver])
    have hand : s.cmWrite ⟨.BOOT, 0, 0x68, path, .set, 1⟩ = andThen (s, []) (bitOf 1 0) (fun a => a.setCm R.BOOT_LOAD_CMD_VERIFY) := by
      unfold State.cmWrite
      simp
    rw [hand, andThen, if_pos (by decide), hcm]
    rfl
  have heq := State.command_runs (v := 1) (a := 0x9068) hr rfl (by decide) rfl (fldsAt_loadCmd s.build) (by decide) (by decide) (by decide) (by decide)
    (by decide) (by decide) (raw := 1) (by decide) hset
  rw [State.counted_nil] at heq
  refine completes_eq rfl heq ⟨?_, (((sameElse.refl s _).wr (by simp)).calCheck).answered path⟩
  rw [State.rd_answered, State.rd_calCheck _ (by decide) (by decide) (by decide)]
  exact State.rd_wr_same s _ _

theorem loadVerify_done {s : State} (i : ImageCheck) (hver : s.rd R.BOOT_LOAD_CMD_VERIFY = 1) :
    completes (.loadVerifyDone i) s (fun t =>
      t.rd R.BOOT_LOAD_CMD_VERIFY = 0 ∧ t.mem = s.mem ∧
      t.rd R.BOOT_LOAD_STATE_RESULT = (if s.fwSigOk i = false then 2 else if i.version < s.rd R.BOOT_MIN_VERSION_VERSION then 3 else 1) ∧
      t.rd R.BOOT_EVT_VERIFY_FAIL =
        (if s.fwCandidate i then s.rd R.BOOT_EVT_VERIFY_FAIL else min (s.rd R.BOOT_EVT_VERIFY_FAIL + 1) 4294967295)) := by
  refine completes_eq (t := s.loadVerified i) rfl (if_pos (State.on_of_one hver)) ?_
  have hfail (n : Nat) (hn : n < 4) :
      let t := ((s.wr R.BOOT_LOAD_CMD_VERIFY 0).wr R.BOOT_LOAD_STATE_RESULT n).count R.BOOT_EVT_VERIFY_FAIL
      t.rd R.BOOT_LOAD_CMD_VERIFY = 0 ∧ t.mem = s.mem ∧ t.rd R.BOOT_LOAD_STATE_RESULT = n ∧
        t.rd R.BOOT_EVT_VERIFY_FAIL = min (s.rd R.BOOT_EVT_VERIFY_FAIL + 1) 4294967295 := by
    refine ⟨?_, rfl, ?_, ?_⟩
    · simp (disch := decide) only [State.rd_count_ne, State.rd_wr_ne, State.rd_wr_same]
      rfl
    · simp (disch := decide) only [State.rd_count_ne, State.rd_wr_same]
      exact Nat.mod_eq_of_lt hn
    · rw [State.rd_count32 _ rfl]
      simp (disch := decide) only [State.rd_wr_ne]
  unfold State.loadVerified State.fwCandidate
  by_cases hsig : s.fwSigOk i = true
  · by_cases hversion : i.version < s.rd R.BOOT_MIN_VERSION_VERSION
    · simpa [hsig, hversion, Nat.not_le.2 hversion] using hfail 3 (by decide)
    · generalize hs1 : ((s.wr R.BOOT_LOAD_CMD_VERIFY 0).wr R.BOOT_LOAD_STATE_RESULT 1).wr (slotValidF (s.rd R.BOOT_LOAD_STATE_TARGET)) 1 = s1
      have hne {f : Fld} (hA : f.key ≠ R.BOOT_IMG_STATE_A_VALID.key) (hB : f.key ≠ R.BOOT_IMG_STATE_B_VALID.key) :
          s1.rd f = ((s.wr R.BOOT_LOAD_CMD_VERIFY 0).wr R.BOOT_LOAD_STATE_RESULT 1).rd f := hs1 ▸ State.rd_wr_ne _ _ (slotValid_ne hA hB _)
      have h : s1.rd R.BOOT_LOAD_CMD_VERIFY = 0 ∧ s1.mem = s.mem ∧ s1.rd R.BOOT_LOAD_STATE_RESULT = 1 ∧
          s1.rd R.BOOT_EVT_VERIFY_FAIL = s.rd R.BOOT_EVT_VERIFY_FAIL := by
        refine ⟨?_, hs1 ▸ rfl, ?_, ?_⟩ <;> rw [hne (by decide) (by decide)] <;> simp (disch := decide) only [State.rd_wr_ne, State.rd_wr_same] <;> rfl
      simp only [hsig, hversion, Nat.not_lt.1 hversion, Bool.not_true, Bool.false_eq_true, if_false, reduceCtorEq, Bool.true_and, decide_true, if_true, hs1]
      obtain ⟨hv, hmem, hres, hcnt⟩ := h
      split
      · refine ⟨?_, hmem, ?_, ?_⟩
        · exact ((State.rd_wr_ne _ _ (by decide)).trans (State.rd_wr_ne s1 _ (by decide))).trans hv
        · exact ((State.rd_wr_ne _ _ (by decide)).trans (State.rd_wr_ne s1 _ (by decide))).trans hres
        · exact ((State.rd_wr_ne _ _ (by decide)).trans (State.rd_wr_ne s1 _ (by decide))).trans hcnt
      · exact ⟨hv, hmem, hres, hcnt⟩
  · simpa [hsig] using hfail 2 (by decide)

/-! ### Key records and Ryupel images (R106, R109) -/

theorem keyRecord_toB {s : State} {r : KeyRecord} (hrun : s.boot.phase = .run) (hA : s.boot.recA.ok = true) (hB : s.boot.recB.ok = true)
    (hseq : s.boot.recB.seq ≤ s.boot.recA.seq) (hok : s.keyRecordOk r = true) :
    completes (.keyRecordApply r) s (fun t =>
      t.boot.recB.seq = (s.boot.recA.seq + 1) % 4294967296 ∧ t.boot.recB.debugLock = r.debugLock ∧ t.boot.recB.ok = true ∧
      t.boot.recA = s.boot.recA ∧ (∀ f, t.rd f = s.rd f) ∧ t.mem = s.mem) := by
  have hrec : s.bootRecord = some (s.boot.recA, 0) := by simp [State.bootRecord, hA, hB, Nat.not_lt.2 hseq]
  have hnow : s.recordNow = s.boot.recA := by rw [State.recordNow, hrec]
  refine ⟨s.keyRecord r, rfl, ?_⟩
  unfold State.keyRecord
  rw [if_neg (by simp [hrun]), if_neg (by simp [hok])]
  simp only [hrec, hnow]
  exact ⟨trivial, trivial, trivial, trivial, fun _ => rfl, trivial⟩

theorem keyRecord_toA {s : State} {r : KeyRecord} (hrun : s.boot.phase = .run) (hA : s.boot.recA.ok = true) (hB : s.boot.recB.ok = true)
    (hseq : s.boot.recA.seq < s.boot.recB.seq) (hok : s.keyRecordOk r = true) :
    completes (.keyRecordApply r) s (fun t =>
      t.boot.recA.seq = (s.boot.recB.seq + 1) % 4294967296 ∧ t.boot.recA.minVersion = r.minVersion % 4294967296 ∧ t.boot.recA.ok = true ∧
      t.boot.recB = s.boot.recB ∧ (∀ f, t.rd f = s.rd f) ∧ t.mem = s.mem) := by
  have hrec : s.bootRecord = some (s.boot.recB, 1) := by simp [State.bootRecord, hA, hB, hseq]
  have hnow : s.recordNow = s.boot.recB := by rw [State.recordNow, hrec]
  refine ⟨s.keyRecord r, rfl, ?_⟩
  unfold State.keyRecord
  rw [if_neg (by simp [hrun]), if_neg (by simp [hok])]
  simp only [hrec, hnow]
  exact ⟨trivial, trivial, trivial, trivial, fun _ => rfl, trivial⟩

/-- What R109 rejects. -/
theorem State.keyRecordOk_false {s : State} {r : KeyRecord}
    (h : (s.recordNow.debugLock = true ∧ r.debugLock = false) ∨ r.minVersion < s.recordNow.minVersion ∨
      (s.recordNow.digests.any (fun d => d ≠ 0) = true ∧ (r.signed = false ∨ s.ryupelOk r.image = false))) : s.keyRecordOk r = false := by
  unfold State.keyRecordOk
  rcases h with ⟨h1, h2⟩ | h | ⟨h1, h2⟩
  · simp [h1, h2]
  · simp [h]
  · have hkeys : s.recordNow.digests.all (fun d => d = 0) = false := by
      obtain ⟨d, hd, hne⟩ := List.any_eq_true.1 h1
      exact List.all_eq_false.2 ⟨d, hd, by simpa using hne⟩
    rcases h2 with h2 | h2 <;> simp [hkeys, h2]

theorem keyRecord_rejected {s : State} {r : KeyRecord} (hrun : s.boot.phase = .run) (hok : s.keyRecordOk r = false) :
    completes (.keyRecordApply r) s (fun t =>
      t.boot = s.boot ∧ t.rd R.BOOT_EVT_VERIFY_FAIL = min (s.rd R.BOOT_EVT_VERIFY_FAIL + 1) 4294967295 ∧
      sameElse s t [R.BOOT_EVT_VERIFY_FAIL]) := by
  refine completes_eq (t := s.count R.BOOT_EVT_VERIFY_FAIL) rfl ?_ ⟨rfl, State.rd_count32 s rfl, (sameElse.refl s _).count (by simp)⟩
  unfold State.keyRecord
  rw [if_neg (by simp [hrun]), if_pos (by simp [hok])]

theorem ryupelImage_verified {s : State} (i : ImageCheck) (banks : List (Half × Nat)) (hrun : s.boot.phase = .run) :
    completes (.ryupelImageVerify i banks) s (fun t =>
      t.rd R.BOOT_EVT_VERIFY_FAIL =
        (if s.ryupelOk i then s.rd R.BOOT_EVT_VERIFY_FAIL else min (s.rd R.BOOT_EVT_VERIFY_FAIL + 1) 4294967295) ∧
      sameElse s t [R.BOOT_EVT_VERIFY_FAIL]) := by
  by_cases hok : s.ryupelOk i = true
  · let u : State := if s.isTile then forL banks (fun b a => a.setDarn (Half.no b.1) { a.darn (Half.no b.1) with expect := some b.2 }) s else s
    have hu : (∀ f, u.rd f = s.rd f) ∧ u.mem = s.mem := by
      dsimp only [u]
      split
      · exact forL_inv (fun t : State => (∀ f, t.rd f = s.rd f) ∧ t.mem = s.mem) ⟨fun _ => rfl, rfl⟩ fun b a h => h
      · exact ⟨fun _ => rfl, rfl⟩
    rw [if_pos hok]
    exact completes_eq (t := u) rfl ((if_neg (by simp [hrun])).trans (if_neg (by simp [hok]))) ⟨hu.1 _, fun f _ => hu.1 f, fun k => by rw [hu.2]⟩
  · rw [if_neg hok]
    exact completes_eq rfl ((if_neg (by simp [hrun])).trans (if_pos (by simpa using hok))) ⟨State.rd_count32 s rfl, (sameElse.refl s _).count (by simp)⟩

/-- Settles O19: the load port by `loadData_written`, VERIFY and the key records by what the boot commands do with them. -/
theorem loadPortAndKeyRecords : Obligations.LoadPortAndKeyRecords := by
  unfold Obligations.LoadPortAndKeyRecords
  exact ⟨fun path v s => ⟨fun slot a => loadData_written, loadVerify_starts, fun i => loadVerify_done i⟩,
    fun r i banks s hrun => ⟨keyRecord_toB hrun, keyRecord_toA hrun, fun h => keyRecord_rejected hrun (State.keyRecordOk_false h),
      ryupelImage_verified i banks hrun⟩⟩

end Sys2Proof.Machine
end

section
/-! O13: enabling a PLL, and its lock bit alone (R90, R94). -/

namespace Sys2Proof.Machine

/-! ### Lock -/

theorem State.refBack_rest (s : State) : s.refBack.refPresent = true ∧ (∀ f, s.refBack.rd f = s.rd f) ∧ s.refBack.mem = s.mem := by
  refine ⟨?_, fun _ => rfl, rfl⟩
  unfold State.refPresent
  by_cases h : s.rd R.CLK_REF_SRC = 0
  · rw [show s.refBack.rd R.CLK_REF_SRC = s.rd R.CLK_REF_SRC from rfl, if_pos h, State.refBack, if_pos h]
  · rw [show s.refBack.rd R.CLK_REF_SRC = s.rd R.CLK_REF_SRC from rfl, if_neg h, State.refBack, if_neg h]

/-- A lock bit is written where the reference is back, and nothing else. -/
theorem lockShown {s : State} {f : Fld} (v : Nat) (hf : R.CLK_REF_SRC.key ≠ f.key) :
    (s.refBack.wr f v).refPresent = true ∧ sameElse s (s.refBack.wr f v) [f] := by
  obtain ⟨hpresent, hrd, hmem⟩ := s.refBack_rest
  have hframe : sameElse s s.refBack [f] := ⟨fun g _ => hrd g, fun k => by rw [hmem]⟩
  refine ⟨?_, hframe.wr (by simp)⟩
  unfold State.refPresent at hpresent ⊢
  rwa [State.rd_wr_ne _ _ hf]

theorem pllLock_root {s : State} (hen : s.rd R.CLK_PLL_EN_ROOT_EN = 1) (hlock : s.rd R.CLK_PLL_ROOT_LOCK = 0) (hphase : s.boot.phase ≠ .pllWait) :
    completes (.pllLock .root) s (fun t => t.rd R.CLK_PLL_ROOT_LOCK = 1 ∧ t.refPresent = true ∧ sameElse s t [R.CLK_PLL_ROOT_LOCK]) := by
  have heq : s.pllLock .root = s.refBack.wr R.CLK_PLL_ROOT_LOCK 1 :=
    (if_neg (by simp [State.pllStarted, State.on, hen, hlock])).trans (if_neg hphase)
  exact completes_eq rfl heq ⟨State.rd_wr_same _ _ _, lockShown 1 (by decide)⟩

theorem pllLock_dram {s : State} (hen : s.rd R.CLK_PLL_EN_DRAM_EN = 1) :
    completes (.pllLock .dram) s (fun t => t.rd R.CLK_PLL_DRAM_LOCK = 1 ∧ t.refPresent = true ∧ sameElse s t [R.CLK_PLL_DRAM_LOCK]) :=
  completes_eq (t := s.refBack.wr R.CLK_PLL_DRAM_LOCK 1) rfl (if_neg (by simp [State.pllStarted, State.on, hen]))
    ⟨State.rd_wr_same _ _ _, lockShown 1 (by decide)⟩

theorem pllLock_eth {s : State} (hen : s.rd R.CLK_PLL_EN_ETH_EN = 1) :
    completes (.pllLock .eth) s (fun t => t.rd R.CLK_PLL_ETH_LOCK = 1 ∧ t.refPresent = true ∧ sameElse s t [R.CLK_PLL_ETH_LOCK]) :=
  completes_eq (t := s.refBack.wr R.CLK_PLL_ETH_LOCK 1) rfl (if_neg (by simp [State.pllStarted, State.on, hen]))
    ⟨State.rd_wr_same _ _ _, lockShown 1 (by decide)⟩

theorem lanePlls_le (b : Build) : lanePlls b ≤ 6 := by cases b <;> decide

theorem pllLock_lane {s : State} {n : Nat} (hn : n < lanePlls s.build) (hen : bitOf (s.rd R.CLK_PLL_EN_LANE_EN) n = true) :
    completes (.pllLock (.lane n)) s (fun t =>
      bitOf (t.rd R.CLK_PLL_LANE_LOCK) n = true ∧ t.refPresent = true ∧
      (∀ m, m < 6 → m ≠ n → bitOf (t.rd R.CLK_PLL_LANE_LOCK) m = bitOf (s.rd R.CLK_PLL_LANE_LOCK) m) ∧
      sameElse s t [R.CLK_PLL_LANE_LOCK]) := by
  have hn6 : n < 6 := Nat.lt_of_lt_of_le hn (lanePlls_le _)
  obtain ⟨hpresent, hrest⟩ := lockShown (s := s) (f := R.CLK_PLL_LANE_LOCK) (withBit (s.rd R.CLK_PLL_LANE_LOCK) n true) (by decide)
  have hbit (m : Nat) (hm : m < 6) : bitOf ((s.refBack.wr R.CLK_PLL_LANE_LOCK (withBit (s.rd R.CLK_PLL_LANE_LOCK) n true)).rd R.CLK_PLL_LANE_LOCK) m =
      bitOf (withBit (s.rd R.CLK_PLL_LANE_LOCK) n true) m := by
    rw [State.rd_wr_same]
    exact (bitOf_mod _ 6 m).trans (by simp [hm])
  refine completes_eq (t := s.refBack.wr R.CLK_PLL_LANE_LOCK (withBit (s.rd R.CLK_PLL_LANE_LOCK) n true)) rfl
    (if_neg (by simp [State.pllStarted, hn, hen])) ⟨?_, hpresent, fun m hm hne => ?_, hrest⟩
  · rw [hbit n hn6, bitOf_withBit, if_pos rfl]
  · rw [hbit m hm, bitOf_withBit, if_neg hne]

theorem pllLock_off {s : State} {p : Pll} (h : s.pllStarted p = false) : completes (.pllLock p) s (fun t => t = s) :=
  completes_eq rfl (if_pos (by simp [h])) rfl

/-! ### A quarantine leaves the page of the clocks -/

/-- The page of 16 KiB that a field stands in. -/
def Fld.page (f : Fld) : Nat := f.key / 524288

/-- The build and the registers of a page are the same. -/
structure PageKept (n : Nat) (s t : State) : Prop where
  build : t.build = s.build
  rd : ∀ f : Fld, f.page = n → t.rd f = s.rd f

namespace PageKept
variable {n : Nat} {s t u : State}

theorem refl (s : State) : PageKept n s s := ⟨rfl, fun _ _ => rfl⟩

theorem trans (h : PageKept n s t) (k : PageKept n t u) : PageKept n s u := ⟨k.build.trans h.build, fun f hf => (k.rd f hf).trans (h.rd f hf)⟩

theorem of_eq (hb : t.build = s.build) (hr : t.regs = s.regs) : PageKept n s t := ⟨hb, fun f _ => by unfold State.rd; rw [hb, hr]⟩

theorem wr (s : State) {g : Fld} (v : Nat) (hg : g.page ≠ n) : PageKept n s (s.wr g v) :=
  ⟨rfl, fun f hf => State.rd_wr_ne s v fun h => hg ((congrArg (· / 524288) h).symm.trans hf)⟩

theorem ite {c : Prop} [Decidable c] (ht : PageKept n s t) (hu : PageKept n s u) : PageKept n s (if c then t else u) := by
  split
  · exact ht
  · exact hu

theorem forN (s : State) {m : Nat} {f : Nat → State → State} (hf : ∀ i a, PageKept n a (f i a)) : PageKept n s (Machine.forN m f s) :=
  forN_inv (PageKept n s) (.refl s) fun i a h => h.trans (hf i a)

theorem forL {β : Type} (s : State) {l : List β} {f : β → State → State} (hf : ∀ b a, PageKept n a (f b a)) : PageKept n s (Machine.forL l f s) :=
  forL_inv (PageKept n s) (.refl s) fun b a h => h.trans (hf b a)

/-- A change of registers of other pages alone. -/
theorem of_sameElse {fs : List Fld} (hb : t.build = s.build) (h : sameElse s t fs) (hfs : ∀ g ∈ fs, g.page ≠ n) : PageKept n s t :=
  ⟨hb, fun _ hf => h.read fun g hg hk => hfs g hg ((congrArg (· / 524288) hk).symm.trans hf)⟩

end PageKept

theorem State.rowLost_clk (s : State) (r : DramReq) : PageKept 1 s (s.rowLost r) := .forN s fun _ _ => .of_eq rfl rfl

theorem State.loadLost_clk (s : State) (a : Nat) : PageKept 1 s (s.loadLost a) := by
  refine .forN s fun h t => ?_
  dsimp only
  exact .ite (.of_eq rfl rfl) (.refl t)

theorem State.captureLost_clk (s : State) (a : Nat) : PageKept 1 s (s.captureLost a) := by
  refine .forN s fun i t => ?_
  dsimp only
  split
  · exact .refl t
  · exact .ite (.of_eq rfl rfl) (.refl t)

theorem State.useFrees_clk {s t : State} (h : PageKept 1 s t) (n : Nat) : PageKept 1 s (t.useFrees n) := h.trans (.of_eq rfl rfl)

theorem State.conditionLost_clk (s : State) (a : Nat) : PageKept 1 s (s.conditionLost a) := by
  refine .forN s fun n t => ?_
  extract_lets kb off k x t1 c base
  have h1 : PageKept 1 t t1 := .ite (.refl t) (.of_eq rfl rfl)
  refine forL_inv (PageKept 1 t) h1 fun e u hu => ?_
  extract_lets new
  refine hu.trans ?_
  refine State.useFrees_clk ?_ 256
  clear_value new
  exact .of_eq rfl rfl

/-- The DRAM channels' pages are the 26th and the 27th. -/
theorem drc_page {f : Fld} {n : Nat} (h : 0x64000 ≤ f.addr) (hn : n < 25) : f.page ≠ n := by
  unfold Fld.page Fld.key
  omega

theorem State.dramError_clk (s : State) (j : Nat) (r : DramReq) : PageKept 1 s (s.dramError j r) := by
  unfold State.dramError
  have h1 : PageKept 1 s ((s.count (R.DRC_CH_EVT_ERRRSP j)).emit (.dramErr r.requester r.addr)) :=
    .trans (PageKept.wr s (g := R.DRC_CH_EVT_ERRRSP j) _ (drc_page (by simp only [R.DRC_CH_EVT_ERRRSP]; omega) (by decide))) (.of_eq rfl rfl)
  dsimp only
  refine h1.trans ?_
  generalize (s.count (R.DRC_CH_EVT_ERRRSP j)).emit (.dramErr r.requester r.addr) = s1
  split
  · exact s1.rowLost_clk r
  · exact .ite (.of_eq rfl rfl) (.refl s1)
  · exact .ite (.of_eq rfl rfl) (.refl s1)
  · exact s1.loadLost_clk _
  · exact s1.captureLost_clk _
  · exact s1.conditionLost_clk _
  · exact .of_eq rfl rfl
  · exact .of_eq rfl rfl
  · exact .refl s1

theorem State.giveUp_clk (s : State) (reason : Nat) : PageKept 1 s (s.giveUp reason) :=
  .of_sameElse (s.giveUp_givesUp reason).build (s.giveUp_givesUp reason).frame (by decide)

theorem State.build_wrBytes (s : State) (sp : Space) (off : Nat) (l : List Byte) : (s.wrBytes sp off l).build = s.build := by
  induction l generalizing s off with
  | nil => rfl
  | cons b l ih => exact ih _ _

theorem State.quarantine_clk (s : State) (j cause : Nat) : PageKept 1 s (s.quarantine j cause) := by
  unfold State.quarantine
  split
  · exact .refl s
  extract_lets x held lost s0 s1 s2 s3 y s4
  have h0 : PageKept 1 s s0 := .forL s fun r a => ⟨State.build_wrBytes _ _ _ _, fun f _ => State.rd_wrBytes _ _ _ _ f⟩
  have h1 : PageKept 1 s0 s1 := (PageKept.wr s0 (g := R.DRC_CH_STATE_STATE j) _ (drc_page (by simp only [R.DRC_CH_STATE_STATE]; omega) (by decide))).trans
    (PageKept.wr _ (g := R.DRC_CH_STATE_QCAUSE j) _ (drc_page (by simp only [R.DRC_CH_STATE_QCAUSE]; omega) (by decide)))
  have h2 : PageKept 1 s1 s2 := PageKept.wr s1 (g := R.DRC_STATE_QUAR (j / 2)) _ (drc_page (by simp only [R.DRC_STATE_QUAR]; omega) (by decide))
  have h3 : PageKept 1 s2 s3 := .ite
    ((PageKept.wr s2 (g := R.DRC_CH_TRN_CMD_GO j) 0 (drc_page (by simp only [R.DRC_CH_TRN_CMD_GO]; omega) (by decide))).trans
      (PageKept.wr _ (g := R.DRC_CH_TRN_RESULT_BUSY j) 0 (drc_page (by simp only [R.DRC_CH_TRN_RESULT_BUSY]; omega) (by decide)))) (.refl s2)
  have h4 : PageKept 1 s3 s4 := .of_eq rfl rfl
  exact h0.trans (h1.trans (h2.trans (h3.trans (h4.trans ((PageKept.forL s4 fun r a => a.dramError_clk j r).trans (State.giveUp_clk _ 3))))))

theorem State.quarantineAll_clk (s : State) : PageKept 1 s s.quarantineAll := .forN s fun j a => a.quarantine_clk j 2

/-! ### The write of CLK_PLL_EN -/

def pllEnFlds : List Fld := [R.CLK_PLL_EN_ROOT_EN, R.CLK_PLL_EN_DRAM_EN, R.CLK_PLL_EN_ETH_EN, R.CLK_PLL_EN_LANE_EN]

/-- What the enables of the PLLs are behind a write, the bits the build lacks cut off, and the lock bits that follow from them. -/
structure PllTaken (u t : State) : Prop where
  build : t.build = u.build
  root : t.rd R.CLK_PLL_EN_ROOT_EN = u.rd R.CLK_PLL_EN_ROOT_EN
  dram : t.rd R.CLK_PLL_EN_DRAM_EN = u.rd R.CLK_PLL_EN_DRAM_EN
  eth : t.rd R.CLK_PLL_EN_ETH_EN = u.rd R.CLK_PLL_EN_ETH_EN
  lane : t.rd R.CLK_PLL_EN_LANE_EN = u.rd R.CLK_PLL_EN_LANE_EN % 2 ^ lanePlls u.build
  rootLock : u.rd R.CLK_PLL_EN_ROOT_EN = 1 → t.rd R.CLK_PLL_ROOT_LOCK = u.rd R.CLK_PLL_ROOT_LOCK
  dramLock : u.rd R.CLK_PLL_EN_DRAM_EN = 0 → t.rd R.CLK_PLL_DRAM_LOCK = 0
  ethLock : u.rd R.CLK_PLL_EN_ETH_EN = 0 → t.rd R.CLK_PLL_ETH_LOCK = 0

/-- The lock bit of a PLL, cleared where the PLL is off. -/
def State.lockCut (s : State) (en lock : Fld) : State := if s.on en then s else s.wr lock 0

theorem rd_lockCut_ne (s : State) (en : Fld) {lock f : Fld} (h : f.key ≠ lock.key) : (s.lockCut en lock).rd f = s.rd f := by
  unfold State.lockCut
  split
  · rfl
  · exact State.rd_wr_ne s 0 h

theorem rd_lockCut_on {s : State} {en : Fld} (lock f : Fld) (h : s.rd en = 1) : (s.lockCut en lock).rd f = s.rd f := by
  rw [State.lockCut, if_pos (State.on_of_one h)]

theorem rd_lockCut_off {s : State} {en : Fld} (lock : Fld) (h : s.rd en = 0) : (s.lockCut en lock).rd lock = 0 := by
  rw [State.lockCut, if_neg (by simp [State.on, h]), State.rd_wr_same, Nat.zero_mod]

theorem State.build_lockCut (s : State) (en lock : Fld) : (s.lockCut en lock).build = s.build := by
  unfold State.lockCut
  split <;> rfl

theorem State.pllEnTaken_spec (s : State) : PllTaken s s.pllEnTaken := by
  have hlane : s.rd R.CLK_PLL_EN_LANE_EN % 2 ^ lanePlls s.build % 2 ^ 6 = s.rd R.CLK_PLL_EN_LANE_EN % 2 ^ lanePlls s.build := by
    refine Nat.mod_eq_of_lt (Nat.lt_of_lt_of_le (Nat.mod_lt _ (Nat.two_pow_pos _)) ?_)
    exact Nat.pow_le_pow_right (by decide) (lanePlls_le _)
  let s1 := s.wr R.CLK_PLL_EN_LANE_EN (s.rd R.CLK_PLL_EN_LANE_EN % 2 ^ lanePlls s.build)
  let s2 := s1.wr R.CLK_PLL_LANE_LOCK (Nat.land (s1.rd R.CLK_PLL_LANE_LOCK) (s.rd R.CLK_PLL_EN_LANE_EN % 2 ^ lanePlls s.build))
  let s3 := s2.lockCut R.CLK_PLL_EN_ETH_EN R.CLK_PLL_ETH_LOCK
  let s4 := s3.lockCut R.CLK_PLL_EN_DRAM_EN R.CLK_PLL_DRAM_LOCK
  have hs2 (f : Fld) (h1 : f.key ≠ R.CLK_PLL_EN_LANE_EN.key) (h2 : f.key ≠ R.CLK_PLL_LANE_LOCK.key) : s2.rd f = s.rd f :=
    (State.rd_wr_ne s1 _ h2).trans (State.rd_wr_ne s _ h1)
  have hs3 {f : Fld} (h : f.key ≠ R.CLK_PLL_ETH_LOCK.key) : s3.rd f = s2.rd f := rd_lockCut_ne s2 _ h
  have hs4 {f : Fld} (h : f.key ≠ R.CLK_PLL_DRAM_LOCK.key) : s4.rd f = s3.rd f := rd_lockCut_ne s3 _ h
  have heq : s.pllEnTaken = s4.lockCut R.CLK_PLL_EN_ROOT_EN R.CLK_PLL_ROOT_LOCK := rfl
  rw [heq]
  have hs5 {f : Fld} (h : f.key ≠ R.CLK_PLL_ROOT_LOCK.key) : (s4.lockCut R.CLK_PLL_EN_ROOT_EN R.CLK_PLL_ROOT_LOCK).rd f = s4.rd f :=
    rd_lockCut_ne s4 _ h
  have hbuild : (s4.lockCut R.CLK_PLL_EN_ROOT_EN R.CLK_PLL_ROOT_LOCK).build = s.build := by
    rw [State.build_lockCut, State.build_lockCut, State.build_lockCut]
    rfl
  refine ⟨hbuild, ?_, ?_, ?_, ?_, fun h => ?_, fun h => ?_, fun h => ?_⟩
  · rw [hs5 (by decide), hs4 (by decide), hs3 (by decide), hs2 _ (by decide) (by decide)]
  · rw [hs5 (by decide), hs4 (by decide), hs3 (by decide), hs2 _ (by decide) (by decide)]
  · rw [hs5 (by decide), hs4 (by decide), hs3 (by decide), hs2 _ (by decide) (by decide)]
  · rw [hs5 (by decide), hs4 (by decide), hs3 (by decide)]
    exact (State.rd_wr_ne s1 _ (by decide)).trans ((State.rd_wr_same s _ _).trans hlane)
  · rw [rd_lockCut_on _ _ (by rw [hs4 (by decide), hs3 (by decide), hs2 _ (by decide) (by decide), h]), hs4 (by decide), hs3 (by decide),
      hs2 _ (by decide) (by decide)]
  · rw [hs5 (by decide)]
    exact rd_lockCut_off _ (by rw [hs3 (by decide), hs2 _ (by decide) (by decide), h])
  · rw [hs5 (by decide), hs4 (by decide)]
    exact rd_lockCut_off _ (by rw [hs2 _ (by decide) (by decide), h])

theorem PllTaken.kept {u t w : State} (h : PllTaken u t) (k : PageKept 1 t w) : PllTaken u w := by
  have hin : ∀ f ∈ pllEnFlds ++ [R.CLK_PLL_ROOT_LOCK, R.CLK_PLL_DRAM_LOCK, R.CLK_PLL_ETH_LOCK], f.page = 1 := by decide
  refine ⟨k.build.trans h.build, ?_, ?_, ?_, ?_, ?_, ?_, ?_⟩ <;> rw [k.rd _ (hin _ (by simp [pllEnFlds]))]
  exacts [h.root, h.dram, h.eth, h.lane, h.rootLock, h.dramLock, h.ethLock]

/-- The write of CLK_PLL_EN by its dword. -/
abbrev pllWr (path : Path) (v : Word) : Wr := ⟨.CLK, 0, 0x28, path, .base, v.toNat⟩

/-- A field of CLK_PLL_EN that is taken. -/
theorem State.takeFld_pll (s : State) (path : Path) (v : Word) {f : Fld} (x : Nat) (hf : f ∈ pllEnFlds) :
    PllTaken (s.wr f x) (s.takeFld (pllWr path v) f x) := by
  have hplain : ∀ g ∈ pllEnFlds, g ∉ storeFlds ∧ g.cls = .rw ∧ (pllWr path v).checked g = true := by
    refine List.forall_mem_cons.2 ⟨?_, List.forall_mem_cons.2 ⟨?_, List.forall_mem_cons.2 ⟨?_, List.forall_mem_singleton.2 ?_⟩⟩⟩ <;>
      exact ⟨by decide, rfl, rfl⟩
  obtain ⟨hst, hrw, hchk⟩ := hplain f hf
  have hfold (u : State) : ∃ a, u.foldSoil (pllWr path v) f = { u with auth := a } := by
    unfold State.foldSoil
    exact (ite_eq_or_eq _ _ _).elim (fun h => ⟨_, h⟩) fun h => ⟨u.auth, h⟩
  obtain ⟨a, ha⟩ := hfold (s.wr f x).soil
  have heq : s.takeFld (pllWr path v) f x = ({ (s.wr f x).soil with auth := a } : State).taken (pllWr path v) f x := by
    unfold State.takeFld
    dsimp only
    rw [State.store_plain s x hst, if_pos hchk, hrw]
    exact congrArg (fun u : State => u.taken (pllWr path v) f x) ha
  rw [heq]
  have h := State.pllEnTaken_spec { (s.wr f x).soil with auth := a }
  have htaken : PllTaken (s.wr f x) ({ (s.wr f x).soil with auth := a } : State).pllEnTaken :=
    ⟨h.build, h.root, h.dram, h.eth, h.lane, h.rootLock, h.dramLock, h.ethLock⟩
  generalize ({ (s.wr f x).soil with auth := a } : State) = u at htaken ⊢
  change PllTaken (s.wr f x) (if u.on R.CLK_PLL_DRAM_LOCK && !u.pllEnTaken.on R.CLK_PLL_DRAM_LOCK then u.pllEnTaken.quarantineAll else u.pllEnTaken)
  split
  · exact htaken.kept (State.quarantineAll_clk _)
  · exact htaken

theorem State.judge_pll {s : State} {path : Path} {v : Word} {f : Fld} (hlock : s.rd (R.LOCK 0x4000) = 0) (hodd : v.toNat % 2 = 1) (hf : f ∈ pllEnFlds) :
    s.judge (pllWr path v) false f = .take (bitsOf v.toNat f.lsb f.width) := by
  have hl : s.on (R.LOCK (pllWr path v).pg) = false := by
    refine decide_eq_false ?_
    change s.rd (R.LOCK 0x4000) ≠ 1
    omega
  have hall : ∀ g ∈ pllEnFlds, g.cls = .rw ∧ min g.width 32 = g.width ∧ g.lo = 0 ∧ g.hi + 1 = 2 ^ g.width ∧ g ≠ R.BOOT_LOAD_PTR_OFFSET ∧
      g ≠ R.BOOT_LOAD_DATA_DATA ∧ g ≠ R.EPC_PERIOD_NS := by decide
  obtain ⟨hrw, hmin, hlo, hhi, h1, h2, h3⟩ := hall f hf
  have hroot : f = R.CLK_PLL_EN_ROOT_EN → bitsOf v.toNat f.lsb f.width ≠ 0 := by
    rintro rfl
    change v.toNat / 1 % 2 ≠ 0
    omega
  rw [State.judge_rw hrw (by simp) rfl hl rfl, Wr.result_base rfl, hmin]
  change s.judgeValue (pllWr path v) f (bitsOf v.toNat f.lsb f.width) = _
  refine State.judgeValue_takes ?_ rfl ?_
  · unfold State.closed
    rw [if_neg (by simpa using fun h1 h2 => absurd h2 (hroot h1)), if_neg (by simp [h1, h2]), if_neg (by simp [h3])]
  · have hextra : s.rangeExtra (pllWr path v) f (bitsOf v.toNat f.lsb f.width) = false := by simp [State.rangeExtra]
    have hlt : bitsOf v.toNat f.lsb f.width < 2 ^ f.width := Nat.mod_lt _ (Nat.two_pow_pos _)
    rw [State.rangeBad, hextra, hlo]
    exact Bool.or_eq_false_iff.2 ⟨Bool.or_eq_false_iff.2 ⟨decide_eq_false (Nat.not_lt_zero _), decide_eq_false (by omega)⟩, rfl⟩

theorem fldsAt_pllEn (b : Build) : fldsAt .CLK b 0 0x28 = some (pllEnFlds, false) := by cases b <;> rfl

theorem pllEnable_written {s : State} {path : Path} {v : Word} (hr : s.reaches path R.CLK_PLL_EN_ROOT_EN .base) (hlock : s.rd (R.LOCK 0x4000) = 0)
    (hodd : v.toNat % 2 = 1) :
    completes (.pllEnable path .base v) s (fun t =>
      t.rd R.CLK_PLL_EN_ROOT_EN = 1 ∧ t.rd R.CLK_PLL_EN_DRAM_EN = bitsOf v.toNat 1 1 ∧ t.rd R.CLK_PLL_EN_ETH_EN = bitsOf v.toNat 2 1 ∧
      t.rd R.CLK_PLL_EN_LANE_EN = bitsOf v.toNat 8 6 % 2 ^ lanePlls s.build ∧
      (bitsOf v.toNat 1 1 = 0 → t.rd R.CLK_PLL_DRAM_LOCK = 0) ∧ (bitsOf v.toNat 2 1 = 0 → t.rd R.CLK_PLL_ETH_LOCK = 0) ∧
      t.rd R.CLK_PLL_ROOT_LOCK = s.rd R.CLK_PLL_ROOT_LOCK) := by
  let c := pllWr path v
  let t1 := s.takeFld c R.CLK_PLL_EN_ROOT_EN (bitsOf v.toNat 0 1)
  let t2 := t1.takeFld c R.CLK_PLL_EN_DRAM_EN (bitsOf v.toNat 1 1)
  let t3 := t2.takeFld c R.CLK_PLL_EN_ETH_EN (bitsOf v.toNat 2 1)
  let t4 := t3.takeFld c R.CLK_PLL_EN_LANE_EN (bitsOf v.toNat 8 6)
  have hw : s.writeFlds c false pllEnFlds s = (t4, []) := by
    have hj (f : Fld) (hf : f ∈ pllEnFlds) := State.judge_pll (s := s) (path := path) (v := v) hlock hodd hf
    unfold State.writeFlds
    simp only [pllEnFlds, List.foldl_cons, List.foldl_nil, c, hj R.CLK_PLL_EN_ROOT_EN (by simp [pllEnFlds]), hj R.CLK_PLL_EN_DRAM_EN (by simp [pllEnFlds]),
      hj R.CLK_PLL_EN_ETH_EN (by simp [pllEnFlds]), hj R.CLK_PLL_EN_LANE_EN (by simp [pllEnFlds])]
    rfl
  have heq := State.pathWrite_page (v := v) (a := 0x4028) hr rfl (by decide) rfl (fldsAt_pllEn s.build)
  rw [show (⟨.CLK, 0, 0x4028 % 4096, path, viewAt 0x4028, v.toNat⟩ : Wr) = c from rfl, State.writeReg_fields (by decide) (by decide) (by simp [c])
    (by simp [c]) (by simp [c]) rfl, hw, State.counted_nil] at heq
  have h1 : PllTaken (s.wr R.CLK_PLL_EN_ROOT_EN _) t1 := s.takeFld_pll path v _ (by simp [pllEnFlds])
  have h2 : PllTaken (t1.wr R.CLK_PLL_EN_DRAM_EN _) t2 := t1.takeFld_pll path v _ (by simp [pllEnFlds])
  have h3 : PllTaken (t2.wr R.CLK_PLL_EN_ETH_EN _) t3 := t2.takeFld_pll path v _ (by simp [pllEnFlds])
  have h4 : PllTaken (t3.wr R.CLK_PLL_EN_LANE_EN _) t4 := t3.takeFld_pll path v _ (by simp [pllEnFlds])
  clear_value t4 t3 t2 t1
  have hone : bitsOf v.toNat 0 1 = 1 := by
    change v.toNat / 1 % 2 = 1
    omega
  have e1 : t1.rd R.CLK_PLL_EN_ROOT_EN = 1 := by rw [h1.root, State.rd_wr_same, hone]; rfl
  have e2 : t2.rd R.CLK_PLL_EN_ROOT_EN = 1 := by rw [h2.root, State.rd_wr_ne _ _ (by decide), e1]
  have e3 : t3.rd R.CLK_PLL_EN_ROOT_EN = 1 := by rw [h3.root, State.rd_wr_ne _ _ (by decide), e2]
  have hdram : t4.rd R.CLK_PLL_EN_DRAM_EN = bitsOf v.toNat 1 1 := by
    rw [h4.dram, State.rd_wr_ne _ _ (by decide), h3.dram, State.rd_wr_ne _ _ (by decide), h2.dram, State.rd_wr_same]
    exact Nat.mod_mod _ _
  have heth : t4.rd R.CLK_PLL_EN_ETH_EN = bitsOf v.toNat 2 1 := by
    rw [h4.eth, State.rd_wr_ne _ _ (by decide), h3.eth, State.rd_wr_same]
    exact Nat.mod_mod _ _
  have hb : t3.build = s.build := h3.build.trans (h2.build.trans h1.build)
  refine completes_eq rfl heq ⟨?_, ?_, ?_, ?_, fun h => ?_, fun h => ?_, ?_⟩ <;>
    rw [State.rd_answered, State.rd_calCheck _ (by decide) (by decide) (by decide)]
  · rw [h4.root, State.rd_wr_ne _ _ (by decide), e3]
  · exact hdram
  · exact heth
  · rw [h4.lane, State.rd_wr_same, State.wr_build, hb]
    exact congrArg (· % 2 ^ lanePlls s.build) (Nat.mod_mod _ _)
  · exact h4.dramLock (by rw [← h4.dram, hdram, h])
  · exact h4.ethLock (by rw [← h4.eth, heth, h])
  · rw [h4.rootLock (by rw [State.rd_wr_ne _ _ (by decide), e3]), State.rd_wr_ne _ _ (by decide),
      h3.rootLock (by rw [State.rd_wr_ne _ _ (by decide), e2]), State.rd_wr_ne _ _ (by decide),
      h2.rootLock (by rw [State.rd_wr_ne _ _ (by decide), e1]), State.rd_wr_ne _ _ (by decide),
      h1.rootLock (by rw [State.rd_wr_same, hone]; rfl), State.rd_wr_ne _ _ (by decide)]

/-- Settles O13: the lock bits by `lockShown`, the write of the enables field by field by `State.takeFld_pll`. -/
theorem pllEnableAndLock : Obligations.PllEnableAndLock := by
  unfold Obligations.PllEnableAndLock
  refine ⟨fun s => ⟨pllLock_root, pllLock_dram, pllLock_eth, fun n => pllLock_lane, fun h => pllLock_off ?_, fun h => pllLock_off ?_,
    fun h => pllLock_off ?_, fun n h => pllLock_off ?_⟩, fun path v s => pllEnable_written⟩
  · simp [State.pllStarted, State.on, h]
  · simp [State.pllStarted, State.on, h]
  · simp [State.pllStarted, State.on, h]
  · rcases h with h | h
    · simp [State.pllStarted, Nat.not_lt.2 h]
    · simp [State.pllStarted, h]

end Sys2Proof.Machine
end

section
/-! O50 fails: a level wake source that is active at the end of RESTORE starts a wake. -/

namespace Sys2Proof.Machine

open Tests

-- One kernel evaluation at a time: each one that waits for another holds a thread and its stack.
set_option Elab.async false

-- The fields of an image are some thousands, a nesting that the kernel evaluates only with a greater depth.
set_option maxRecDepth 200000

/-! ### What a correct image leaves of a head -/

/-- The PWR page, the engines and the pins are the same. -/
structure PwrKept (s t : State) : Prop where
  page : PageKept 3 s t
  eng : t.eng = s.eng
  pins : t.pins = s.pins

theorem PwrKept.refl (s : State) : PwrKept s s := ⟨.refl s, rfl, rfl⟩

theorem PwrKept.trans {s t u : State} (h : PwrKept s t) (k : PwrKept t u) : PwrKept s u :=
  ⟨h.page.trans k.page, k.eng.trans h.eng, k.pins.trans h.pins⟩

/-- The image holds no field of the PWR page. -/
theorem imagePlaces_noPwr : ((imagePlaces .head).all fun l => l.all fun f => decide (f.page ≠ 3)) = true := by decide +kernel

theorem State.putBack_kept (s : State) {f : Fld} (v : Nat) (hf : f.page ≠ 3) : PwrKept s (s.putBack f v) := by
  unfold State.putBack
  split_ifs
  · exact .refl s
  · exact .refl s
  · exact .refl s
  · exact ⟨.wr s v hf, rfl, rfl⟩

/-- The words of an image that is all zeros. -/
def State.zeroImage (s : State) : Prop := ∀ p ∈ s.placed .dram s.imageAt (imagePlaces s.build), p.1 ∈ imagePlaces s.build ∧ p.2 = 0

theorem State.memsBack_kept (s : State) (base : Nat) (l : List (Space × Nat × Nat)) : PwrKept s (s.memsBack base l) := by
  induction l generalizing s base with
  | nil => exact .refl s
  | cons m l ih =>
    refine PwrKept.trans ?_ (ih _ _)
    generalize s.rdBytes .dram base _ = bytes
    have hbytes (u : State) (sp : Space) (off : Nat) : PwrKept u (u.wrBytes sp off bytes) := by
      induction bytes generalizing u off with
      | nil => exact .refl u
      | cons b bytes ih => exact PwrKept.trans (⟨.of_eq rfl rfl, rfl, rfl⟩ : PwrKept u (u.wr8 sp off b)) (ih _ _)
    exact hbytes s _ _

theorem State.dtBack_kept (s : State) (sp : Space) (base : Nat) : PwrKept s (s.dtBack sp base) := by
  unfold State.dtBack
  generalize forN 1024 _ s.eth.table = table
  exact ⟨.of_eq rfl rfl, rfl, rfl⟩

/-- A head takes back an image of zeros, which enables and locks no page, and leaves the PWR page, the engines and the pins. -/
theorem State.restoreImage_kept {s : State} (hb : s.build = .head) (hz : s.zeroImage) : PwrKept s s.restoreImage := by
  unfold State.restoreImage
  extract_lets l at1 back shown s0 s1 s2 cur s3 had s4 s5 s6
  have hback : PwrKept s back := by
    refine List.foldlRecOn (motive := PwrKept s) l _ (.refl s) fun a ha p hp => ?_
    refine List.foldlRecOn (motive := PwrKept s) p.1 _ ha fun b hb' f hf => hb'.trans (State.putBack_kept b _ ?_)
    have hall := List.all_eq_true.1 (List.all_eq_true.1 imagePlaces_noPwr p.1 (hb ▸ (hz p hp).1)) f hf
    exact of_decide_eq_true hall
  have hbuild : back.build = .head := hback.page.build.trans hb
  have hshown : PwrKept back shown := by
    dsimp only [shown]
    split
    · exact .refl back
    · exact ⟨.of_eq rfl rfl, rfl, rfl⟩
  have hhad (lsb : Nat) (b : Blk) (w : Nat) : had lsb b w = false := by
    refine List.any_eq_false.2 fun p hp => ?_
    rw [Bool.not_eq_true]
    refine List.any_eq_false.2 fun f _ => ?_
    rw [(hz p hp).2, bitOf_zero]
    simp
  have htile (t : State) (h : PwrKept s t) : t.isTile = false := by rw [State.isTile, h.page.build.trans hb]
  have h0 : PwrKept s s0 := by
    have hs : PwrKept s shown := hback.trans hshown
    dsimp only [s0]
    rw [if_neg (by simp [State.isTile, hb])]
    exact hs
  have h1 : PwrKept s s1 := by
    refine h0.trans ?_
    dsimp only [s1]
    unfold State.cckEn
    split_ifs <;> exact ⟨.of_eq rfl rfl, rfl, rfl⟩
  have h2 : PwrKept s s2 := h1.trans ((State.dtBack_kept s1 .dram at1).trans (State.memsBack_kept _ _ _))
  have h3 : PwrKept s s3 := by
    dsimp only [s3]
    rw [if_neg (by simp [State.isTile, hb])]
    exact h2
  have h4 : PwrKept s s4 := by
    refine forL_inv (PwrKept s) h3 fun b a ha => forN_inv (PwrKept s) ha fun w c hc => ?_
    rw [hhad, if_neg Bool.false_ne_true]
    exact hc
  have h5 : PwrKept s s5 := by
    dsimp only [s5]
    rw [htile s4 h4, if_neg Bool.false_ne_true]
    exact h4
  have h6 : PwrKept s s6 := by
    refine forL_inv (PwrKept s) h5 fun b a ha => forN_inv (PwrKept s) ha fun w c hc => ?_
    rw [hhad, if_neg Bool.false_ne_true]
    exact hc
  exact h6.trans ⟨.of_eq rfl rfl, rfl, rfl⟩

/-! ### The counterexample -/

/-- A head in Saddle that restores its state, its wake logic armed and the WAKE pad at its active level, and no image in DRAM yet. -/
def wakeB : State :=
  { pS H [(R.PWR_STATE_PHASE, ppRestoring), (R.PWR_CMD_RESTORE, 1), (R.PWR_STATE_STATE, pSaddle), (R.PWR_WAKE_EN_RIDGE, 0), (R.PWR_WAKE_EN_PCIE, 0),
      (R.PWR_WAKE_EN_PIN, 1), (R.PWR_WAKE_EN_PIN_POL, 1)] { Power.init with imaged := true, armed := true } with
    pins := { H.pins with wakeHigh := true } }

/-- The same head with an image of zeros and its CRC. -/
def wakeS : State := wakeB.wrLE .dram (0 + imageLen wakeB.build) (crc32c (wakeB.rdBytes .dram 0 (imageLen wakeB.build))) 4

theorem wakeS_fits : 0 + imageLen wakeB.build + 4 ≤ dramSize wakeB.build := by decide +kernel

theorem wakeS_at : wakeS.imageAt = 0 := by
  unfold State.imageAt wakeS
  rw [State.rd_wrLE]
  decide +kernel

theorem wakeS_build : wakeS.build = .head := (wrLE_build ..).trans rfl

theorem wakeS_ok : wakeS.imageOk = true := by
  have hi : wakeS.eng.pwr.imaged = true := by decide +kernel
  unfold State.imageOk
  rw [hi, wakeS_at, Bool.true_and]
  apply decide_eq_true
  have hb : wakeS.build = wakeB.build := wrLE_build ..
  rw [hb]
  unfold wakeS
  rw [rdBytes_wrLE_below _ 4 _ (by omega) wakeS_fits, rdLE_wrLE 4 (by decide +kernel) (crc32c_lt _) wakeS_fits]

/-- Below the CRC the image is zeros. -/
theorem wakeS_rd32 {a : Nat} (h : a + 4 ≤ imageLen wakeB.build) : wakeS.rd32 .dram a = 0 := by
  have hbyte (b : Nat) (hb : b < imageLen wakeB.build) : wakeS.rd8 .dram b = 0 := by
    refine (rd8_wrLE_below 4 _ (by omega) wakeS_fits).trans ?_
    have hmem : wakeB.mem = [] := by decide +kernel
    unfold State.rd8
    rw [hmem]
    have hkey : ∀ k, 1835008 ≤ k → memGet [] k = 0 := fun k hk => if_neg (by omega)
    refine hkey _ ?_
    generalize Space.dram.fold wakeB.build b = n
    simp only [Space.key]
    omega
  simp only [State.rd32, State.rdLE, hbyte _ (show a < imageLen wakeB.build by omega), hbyte _ (show a + 1 < imageLen wakeB.build by omega),
    hbyte _ (show a + 1 + 1 < imageLen wakeB.build by omega), hbyte _ (show a + 1 + 1 + 1 < imageLen wakeB.build by omega)]
  rfl

theorem wakeS_zero : wakeS.zeroImage := by
  intro p hp
  obtain ⟨q, hq, rfl⟩ := List.mem_map.1 hp
  obtain ⟨hl, hi⟩ := List.of_mem_zip (a := q.1) (b := q.2) hq
  refine ⟨hl, ?_⟩
  have hlen : 4 * (imagePlaces wakeS.build).length ≤ imageLen wakeS.build := by
    unfold imageLen
    omega
  rw [show wakeS.build = wakeB.build from wakeS_build] at hlen hi
  have := List.mem_range.1 hi
  rw [wakeS_at]
  exact wakeS_rd32 (by omega)

/-- A level of the WAKE pad that is active and alone starts a wake of a device in Saddle whose wake logic is armed. -/
theorem wakeLook_pin {s : State} (hphase : s.rd R.PWR_STATE_PHASE = ppIdle) (hstate : s.rd R.PWR_STATE_STATE = pSaddle) (hstr : s.rd R.PWR_STATE_STRANDED = 0)
    (hridge : s.rd R.PWR_WAKE_EN_RIDGE = 0) (hpcie : s.rd R.PWR_WAKE_EN_PCIE = 0) (hpin : s.rd R.PWR_WAKE_EN_PIN = 1)
    (hpol : s.rd R.PWR_WAKE_EN_PIN_POL = 1) (hhigh : s.pins.wakeHigh = true) (harmed : s.eng.pwr.armed = true) (hseen : s.eng.pwr.seen = none) :
    s.wakeLook.pphase = ppWaking := by
  have hactive : s.wakeActive = [(.pin true, 0)] := by
    simp [State.wakeActive, State.on, hridge, hpcie, hpin, hpol, hhigh]
  have hfirst : s.wakeSeen = some (.pin true, 0) := by
    unfold State.wakeSeen
    rw [hseen, hactive]
    simp [Nat.mod_one]
  have hlook : s.wakeLook = s.wakeStart (.pin true) 0 := by
    unfold State.wakeLook
    rw [if_neg (by simp [State.on, hstr]), if_neg (by simp [State.pphase, hphase, ppIdle, ppEntering, ppCommitted]), if_pos (show s.pphase = ppIdle from hphase), hfirst]
    have hpick : s.wakePicked = s := if_neg (by simp [hactive])
    unfold State.wakeBy
    simp only [hpick]
    rw [if_neg (by simp [State.pstate, hstate, pSaddle, pShoulder]), if_pos (by simp [State.pstate, hstate, harmed])]
  rw [hlook, State.pphase]
  unfold State.wakeStart State.wakePower
  dsimp only
  split <;> exact State.rd_wr_same _ _ _

theorem wakeS_rd (f : Fld) : wakeS.rd f = wakeB.rd f := State.rd_wrLE ..

/-- The look for wake sources at the end of a RESTORE that keeps the PWR page, the engines and the pins of that head. -/
theorem wakeS_wakes {r : State} (h : PwrKept wakeS r) :
    (((r.wr R.PWR_STATE_IMAGE_OK 1).wr R.PWR_STATE_PHASE ppIdle).wr R.PWR_CMD_RESTORE 0).wakeLook.pphase = ppWaking := by
  generalize hu : ((r.wr R.PWR_STATE_IMAGE_OK 1).wr R.PWR_STATE_PHASE ppIdle).wr R.PWR_CMD_RESTORE 0 = u
  have hrd (f : Fld) (hp : f.page = 3) (h1 : f.key ≠ R.PWR_STATE_IMAGE_OK.key) (h2 : f.key ≠ R.PWR_STATE_PHASE.key) (h3 : f.key ≠ R.PWR_CMD_RESTORE.key) :
      u.rd f = wakeB.rd f := by
    rw [← hu, State.rd_wr_ne _ _ h3, State.rd_wr_ne _ _ h2, State.rd_wr_ne _ _ h1, h.page.rd f hp, wakeS_rd]
  have hidle : u.rd R.PWR_STATE_PHASE = ppIdle := by
    rw [← hu]
    exact (State.rd_wr_ne _ _ (by decide)).trans (State.rd_wr_same _ _ _)
  have heng : u.eng = wakeS.eng := by rw [← hu]; exact h.eng
  have hpins : u.pins = wakeS.pins := by rw [← hu]; exact h.pins
  refine wakeLook_pin hidle ?_ ?_ ?_ ?_ ?_ ?_ (by rw [hpins]; decide +kernel) (by rw [heng]; decide +kernel) (by rw [heng]; decide +kernel)
  all_goals
    rw [hrd _ (by decide) (by decide) (by decide) (by decide)]
    decide +kernel

/-- Refutes O50: behind a correct image the WAKE pad's level starts a wake of a head in Saddle, so that PHASE shows WAKING, not IDLE. -/
theorem not_restoreAndSupplies : ¬ Obligations.RestoreAndSupplies := by
  intro h
  obtain ⟨-, hrestore, -⟩ := h wakeS
  have hphase : wakeS.pphase = ppRestoring := (wakeS_rd _).trans (by decide +kernel)
  obtain ⟨t, hnext, hidle, -⟩ := (hrestore hphase).2 wakeS_ok
  obtain rfl : _ = t := Host.Outcome.next.inj hnext
  unfold State.restoreEnd at hidle
  rw [if_neg (by simp [hphase]), if_pos wakeS_ok, wakeS_wakes (State.restoreImage_kept wakeS_build wakeS_zero)] at hidle
  exact absurd hidle (by decide)

end Sys2Proof.Machine
end

section
/-! O49: waking from a power state (R405 to R412). -/

namespace Sys2Proof.Machine

/-! ### What restarting the parked blocks leaves of the PWR page -/

/-- The build, the power state and the parked steps are the same. -/
structure PwrShown (s t : State) : Prop where
  build : t.build = s.build
  state : t.rd R.PWR_STATE_STATE = s.rd R.PWR_STATE_STATE
  parked : t.rd R.PWR_PARKED_STEPS = s.rd R.PWR_PARKED_STEPS

namespace PwrShown
variable {s t u : State}

theorem refl (s : State) : PwrShown s s := ⟨rfl, rfl, rfl⟩

theorem trans (h : PwrShown s t) (k : PwrShown t u) : PwrShown s u := ⟨k.build.trans h.build, k.state.trans h.state, k.parked.trans h.parked⟩

theorem of_eq (hb : t.build = s.build) (hr : t.regs = s.regs) : PwrShown s t := by
  refine ⟨hb, ?_, ?_⟩ <;> unfold State.rd <;> rw [hb, hr]

/-- A change of registers of which none is PWR_STATE or PWR_PARKED. -/
theorem of_sameElse {fs : List Fld} (hb : t.build = s.build) (h : sameElse s t fs)
    (hfs : ∀ g ∈ fs, R.PWR_STATE_STATE.key ≠ g.key ∧ R.PWR_PARKED_STEPS.key ≠ g.key) : PwrShown s t :=
  ⟨hb, h.read fun g hg => (hfs g hg).1, h.read fun g hg => (hfs g hg).2⟩

/-- A register of a page behind PWR is written. -/
theorem behind (s : State) {f : Fld} (v : Nat) (h : 0x10000 ≤ f.addr) : PwrShown s (s.wr f v) := by
  refine .of_sameElse rfl ((sameElse.refl s [f]).wr (by simp)) (List.forall_mem_singleton.2 ?_)
  simp only [Fld.key, R.PWR_STATE_STATE, R.PWR_PARKED_STEPS]
  omega

theorem ite {c : Prop} [Decidable c] (ht : PwrShown s t) (hu : PwrShown s u) : PwrShown s (if c then t else u) := by
  split
  · exact ht
  · exact hu

theorem forN (s : State) {m : Nat} {f : Nat → State → State} (hf : ∀ i a, PwrShown a (f i a)) : PwrShown s (Machine.forN m f s) :=
  forN_inv (PwrShown s) (.refl s) fun i a h => h.trans (hf i a)

theorem forL {β : Type} (s : State) {l : List β} {f : β → State → State} (hf : ∀ b a, PwrShown a (f b a)) : PwrShown s (Machine.forL l f s) :=
  forL_inv (PwrShown s) (.refl s) fun b a h => h.trans (hf b a)

end PwrShown

theorem Sends.pwr {fs : List Fld} {s t : State} (h : Sends fs s t) (hfs : ∀ g ∈ fs, R.PWR_STATE_STATE.key ≠ g.key ∧ R.PWR_PARKED_STEPS.key ≠ g.key) :
    PwrShown s t := .of_sameElse h.build h.frame hfs

theorem DramOnly.pwr {s t : State} (h : DramOnly s t) : PwrShown s t := .of_sameElse h.build h.frame (by decide)

theorem State.setStage_pwr (s : State) (id st : Nat) : PwrShown s (s.setStage id st) :=
  .forL s fun k a => .behind a st (by simp only [R.LNE_STATE_STAGE]; omega)

theorem State.setLaneTx_pwr (s : State) (id tx : Nat) : PwrShown s (s.setLaneTx id tx) :=
  .forL s fun k a => .behind a tx (by simp only [R.LNE_STATE_TXPS]; omega)

theorem State.setLanePs_pwr (s : State) (id tx rx : Nat) : PwrShown s (s.setLanePs id tx rx) :=
  .forL s fun k a => (PwrShown.behind a tx (f := R.LNE_STATE_TXPS k) (by simp only [R.LNE_STATE_TXPS]; omega)).trans
    (.behind _ rx (by simp only [R.LNE_STATE_RXPS]; omega))

theorem State.rxWakes_pwr (s : State) (k : Nat) : PwrShown s (s.rxWakes k) :=
  .ite (.behind s 0 (by simp only [R.LNE_STATE_RXPS]; omega)) (.refl s)

theorem portStF_pwr (id : Nat) : 0x10000 ≤ (portStF id).addr := by
  unfold portStF
  split_ifs
  · simp only [R.SPRP_STATE_STATE]
    omega
  · simp only [R.RING_STATE_END_A]
    omega
  · simp only [R.RING_STATE_END_B]
    omega

theorem State.startTraining_pwr (s : State) (id : Nat) : PwrShown s (s.startTraining id) := by
  unfold State.startTraining
  extract_lets p s1
  have h1 : PwrShown s s1 := .of_eq rfl rfl
  exact h1.trans ((PwrShown.behind s1 _ (portStF_pwr id)).trans ((State.setStage_pwr _ id 1).trans (State.setLanePs_pwr _ id 0 0)))

theorem State.loseFrames_pwr (s : State) (f : Reasm → Bool) : PwrShown s (s.loseFrames f) := by
  unfold State.loseFrames
  refine forL_inv (PwrShown s) (.of_eq rfl rfl) fun r a h => h.trans (.behind a _ ?_)
  simp only [R.ETHP_EVT_REASM]
  omega

theorem State.breakAdd_pwr (s : State) (p link : Nat) : PwrShown s (s.breakAdd p link) := by
  unfold State.breakAdd
  dsimp only
  refine .ite (.refl s) (.ite ?_ (.ite ?_ (.refl s)))
  · exact (PwrShown.behind s _ (f := R.RING_BREAK_POS1 p) (by simp only [R.RING_BREAK_POS1]; omega)).trans
      (.behind _ 1 (by simp only [R.RING_BREAK_V1]; omega))
  · exact (PwrShown.behind s _ (f := R.RING_BREAK_POS2 p) (by simp only [R.RING_BREAK_POS2]; omega)).trans
      (.behind _ 1 (by simp only [R.RING_BREAK_V2]; omega))

theorem State.linkCell_pwr (s : State) (id typ link : Nat) : PwrShown s (s.linkCell id typ link) := by
  unfold State.linkCell
  split
  · exact .refl s
  · refine ((s.ctlSeq_sends [] (s.selfId id)).pwr (by simp)).trans (Sends.pwr (State.sendCell_sends [] _ _ ?_) (by simp))
    exact (by decide : clsControl < 2)

theorem State.portDown_pwr (s : State) (id st : Nat) : PwrShown s (s.portDown id st) := by
  unfold State.portDown
  extract_lets s0 p s1 link s2 s3
  have h0 : PwrShown s s0 := by
    dsimp only [s0]
    unfold State.portLost
    extract_lets p u
    exact (PwrShown.of_eq rfl rfl : PwrShown s u).trans ((PwrShown.behind u st (portStF_pwr id)).trans (State.loseFrames_pwr _ _))
  have h1 : PwrShown s s1 := h0.trans (.of_eq rfl rfl)
  have h2 : PwrShown s s2 := h1.trans (.behind s1 _ (by simp only [R.RING_EVT_DOWN]; omega))
  have h3 : PwrShown s s3 := h2.trans (.ite ((State.linkCell_pwr s2 id _ link).trans (.forL _ fun p a => a.breakAdd_pwr p link)) (.refl s2))
  exact .ite (h1.trans (.behind s1 _ (by simp only [R.SPRP_EVT_DOWN]; omega))) (h3.trans ((State.raiseEvent_sends s3 _ _ _ _).pwr (by decide)))

theorem State.wireMarkers_pwr (s : State) (id : Nat) : PwrShown s (s.wireMarkers id) := by
  unfold State.wireMarkers
  refine forN_inv (PwrShown s) (.of_eq rfl rfl) fun _ a h => h.trans ?_
  exact .of_sameElse (by rw [(a.sendCodeword_wired id _).1]) ((a.sendCodeword_wired id _).frame []) (by simp)

theorem State.wakeLanes_pwr (s : State) (id : Nat) : PwrShown s (s.wakeLanes id) := by
  unfold State.wakeLanes
  extract_lets was s1 s2
  have h1 : PwrShown s s1 := (s.setLaneTx_pwr id 0).trans (.forL _ fun k a => .ite (a.rxWakes_pwr k) (.refl a))
  refine .ite h1 (.ite ?_ ?_)
  · exact h1.trans ((PwrShown.ite (s1.portDown_pwr id 1) (.refl s1)).trans (State.startTraining_pwr _ id))
  · have h2 : PwrShown s1 s2 := (s1.wireMarkers_pwr id).trans ((State.setStage_pwr _ id 6).trans (.behind _ _ (portStF_pwr id)))
    exact h1.trans (h2.trans (.of_eq rfl rfl))

theorem State.frameBad_pwr (s : State) (n : Nat) : PwrShown s (s.frameBad n) := by
  unfold State.frameBad
  split
  · exact .refl s
  · refine .ite (.of_eq rfl rfl) (PwrShown.trans ?_ (.behind _ _ (f := R.SRC_EVT_BADFRAME n) ?_))
    · exact .of_eq rfl rfl
    · simp only [R.SRC_EVT_BADFRAME]
      omega

theorem State.sofTaken_pwr (s : State) (ch : Nat) (d : Descriptor) : PwrShown s (s.sofTaken ch d) := by
  unfold State.sofTaken
  split
  · extract_lets a
    have ha : PwrShown s a := .ite (s.frameBad_pwr ch) (.refl s)
    refine PwrShown.trans ?_ (.behind _ 1 (f := R.DMA_CH_STATE_FRAME_OPEN ch) ?_)
    · exact ha.trans (.of_eq rfl rfl)
    · simp only [R.DMA_CH_STATE_FRAME_OPEN]
      omega
  · exact .refl s

theorem State.sofFirst_pwr (s : State) (ch : Nat) : PwrShown s (s.sofFirst ch) := by
  unfold State.sofFirst
  split
  · exact .refl s
  split
  · exact .refl s
  split
  · exact .refl s
  refine PwrShown.trans ?_ (State.sofTaken_pwr _ ch _)
  exact .of_eq rfl rfl

theorem State.askHost_pwr (s : State) (r : DmaRead) (addr : Nat) : PwrShown s (s.askHost r addr) := by
  unfold State.askHost
  extract_lets tag host s1 lead
  have h1 : PwrShown s s1 := .of_eq rfl rfl
  refine .ite (h1.trans (.of_eq rfl rfl)) (h1.trans (Sends.pwr (s1.originateSpur_sends lead ?_ _ _ _) (by decide)))
  exact fun _ => rfl

theorem State.dmaTurn_pwr (s : State) (ch : Nat) (a : DmaAsk) : PwrShown s (s.dmaTurn ch a) := by
  unfold State.dmaTurn
  extract_lets host s0
  have h0 : PwrShown s s0 := .of_eq rfl rfl
  split
  · exact h0
  · extract_lets s1
    have h1 : PwrShown s s1 := h0.trans (.of_eq rfl rfl)
    exact h1.trans ((s1.sofFirst_pwr ch).trans (.forN _ fun i t => t.askHost_pwr _ _))
  · extract_lets d s1 s2
    have h1 : PwrShown s s1 := h0.trans (.of_eq rfl rfl)
    have h2 : PwrShown s s2 := h1.trans (s1.askHost_pwr _ _)
    exact .ite (h2.trans (.of_eq rfl rfl)) h2

theorem State.dmaTurns_pwr (fuel : Nat) (s : State) : PwrShown s (s.dmaTurns fuel) := by
  induction fuel generalizing s with
  | zero => exact .refl s
  | succ fuel ih =>
    unfold State.dmaTurns
    split
    · exact .refl s
    · exact .ite (.refl s) ((s.dmaTurn_pwr _ _).trans (ih _))

theorem State.fetchRow_pwr (s : State) (h k r : Nat) : PwrShown s (s.fetchRow h k r) :=
  .ite ((s.dramUseAs_dramOnly _ _ _ _ _).pwr.trans (.of_eq rfl rfl)) (.refl s)

theorem State.gapFetch_pwr (s : State) (h : Nat) : PwrShown s (s.gapFetch h) :=
  .ite ((State.fetchRow_pwr _ _ _ _).trans (State.fetchRow_pwr _ _ _ _)) (.refl s)

theorem State.chopSync_pwr (s : State) (r : Nat) : PwrShown s (s.chopSync r) := by
  unfold State.chopSync
  extract_lets c fresh s1
  have h1 : PwrShown s s1 := .ite (.ite (.refl s) (.of_eq rfl rfl)) (.ite (.refl s) (.ite (.of_eq rfl rfl) (.refl s)))
  refine PwrShown.trans ?_ (.behind _ _ (f := R.LOP_RAIL_STATE_STATE r) (by simp only [R.LOP_RAIL_STATE_STATE]; omega))
  exact .ite (h1.trans (.behind s1 0 (by simp only [R.LOP_CH_PERIOD_NS]; omega))) h1

theorem State.chopAll_pwr (s : State) : PwrShown s s.chopAll := by
  unfold State.chopAll
  split
  · exact .forN s fun r a => a.chopSync_pwr r
  · exact .refl s

/-- The blocks that restart leave the state in force and the parked steps (R407, R412). -/
theorem State.unparkAll_pwr (s : State) : PwrShown ((s.wr R.PWR_PARKED_STEPS 0).wr R.PWR_STATE_STATE pSummit) s.unparkAll := by
  unfold State.unparkAll
  extract_lets slept r1 r2 r3 r4 r5 r6 r7
  have h2 : PwrShown r1 r2 := by
    refine .ite ?_ (.refl r1)
    unfold State.epcResume
    refine .ite (PwrShown.trans ?_ (.behind _ _ (f := R.EPC_STATE_STATE) (by decide))) (.refl r1)
    exact .of_eq rfl rfl
  have hdrc (a : State) (j v : Nat) : PwrShown a (a.wr (R.DRC_CH_STATE_STATE j) v) := .behind a v (by simp only [R.DRC_CH_STATE_STATE]; omega)
  have h3 : PwrShown r2 r3 := by
    refine .forN r2 fun j a => ?_
    have hdeep : PwrShown a (a.deepExit j) := .ite ((hdrc a j dcSelf).trans (.of_eq rfl rfl)) (.refl a)
    have hself (b : State) : PwrShown b (b.selfExit j) := .ite ((hdrc b j dcReady).trans (.of_eq rfl rfl)) (.refl b)
    exact .ite (hdeep.trans (hself _)) hdeep
  have h4 : PwrShown r3 r4 := .forL r3 fun id a => a.wakeLanes_pwr id
  have h5 : PwrShown r4 r5 := by
    refine .ite ((PwrShown.behind r4 0 (f := R.FLD_STATE_HELD) (by decide)).trans ?_) (.refl r4)
    refine PwrShown.trans ?_ (.behind _ shCapture (f := R.FLD_STATE_SHIP) (by decide))
    exact .of_eq rfl rfl
  have h7 : PwrShown r6 r7 := .ite ((r6.gapFetch_pwr 0).trans (State.gapFetch_pwr _ 1)) (.refl r6)
  have h8 : PwrShown r7 r7.dmaIssue := by
    unfold State.dmaIssue
    split
    · exact .refl r7
    · exact State.dmaTurns_pwr 1024 r7
  have h10 : PwrShown r7.dmaIssue.dramSlots (r7.dmaIssue.dramSlots.keepDark s) := by
    obtain ⟨e, he⟩ := r7.dmaIssue.dramSlots.keepDark_eng s
    rw [he]
    exact .of_eq rfl rfl
  exact h2.trans (h3.trans (h4.trans (h5.trans (r5.chopAll_pwr.trans (h7.trans (h8.trans ((State.dramSlots_dramOnly _).pwr.trans h10)))))))

/-- A return to Summit: no step is parked any more. -/
theorem State.unparkAll_shown (s : State) : s.unparkAll.pstate = pSummit ∧ s.unparkAll.rd R.PWR_PARKED_STEPS = 0 :=
  ⟨s.unparkAll_pwr.state.trans (State.rd_wr_same _ _ _),
    s.unparkAll_pwr.parked.trans ((State.rd_wr_ne _ _ (by decide)).trans (State.rd_wr_same s _ 0))⟩

end Sys2Proof.Machine
end

section
/-! O49: the wake logic, the wake itself, and its failures (R409 to R412). -/

namespace Sys2Proof.Machine

/-! ### The look for level wake sources -/

/-- No level source is active: the ports' and the host's are not enabled, and the pad's is not enabled or not at its polarity. -/
theorem State.wakeActive_none {s : State} (hridge : s.on R.PWR_WAKE_EN_RIDGE = false) (hpcie : s.on R.PWR_WAKE_EN_PCIE = false)
    (hpin : s.on R.PWR_WAKE_EN_PIN = false ∨ s.pins.wakeHigh ≠ s.on R.PWR_WAKE_EN_PIN_POL) : s.wakeActive = [] := by
  rcases hpin with h | h <;> simp [State.wakeActive, hridge, hpcie, h]

theorem State.off_of_zero {s : State} {f : Fld} (h : s.rd f = 0) : s.on f = false := decide_eq_false (by rw [h]; decide)

/-- No source is active: the look records that none has been seen. -/
theorem State.wakeLook_idle {s : State} (h : s.wakeActive = []) : ∃ p, s.wakeLook = s.setPwr p := by
  have hseen : s.wakeSeen = none := by
    unfold State.wakeSeen
    rw [h]
    cases s.eng.pwr.seen <;> rfl
  have hpick : s.wakePicked = s := if_neg (by simp [h])
  unfold State.wakeLook
  rw [hpick, hseen]
  split_ifs
  · exact ⟨s.eng.pwr, rfl⟩
  · exact ⟨_, rfl⟩
  · exact ⟨s.eng.pwr, rfl⟩
  · exact ⟨s.eng.pwr, rfl⟩

/-- One source is active: it is the one that is seen. -/
theorem State.wakeSeen_only {s : State} {e : WakeSource × Nat} (h : s.wakeActive = [e]) : s.wakeSeen = some e := by
  unfold State.wakeSeen
  rw [h]
  split
  · next x hx =>
    obtain ⟨-, hc⟩ := Option.filter_eq_some_iff.1 hx
    rw [List.mem_singleton.1 (List.contains_iff_mem.1 hc)]
  · simp [Nat.mod_one]

/-- One source is active on a device in Saddle or Valley whose wake logic is armed: it wakes. -/
theorem State.wakeLook_only {s : State} {w : WakeSource} {lane : Nat} (h : s.wakeActive = [(w, lane)]) (hstr : s.rd R.PWR_STATE_STRANDED = 0)
    (hidle : s.pphase = ppIdle) (harmed : s.eng.pwr.armed = true) (hst : s.pstate = pSaddle ∨ s.pstate = pValley) :
    s.wakeLook = s.wakeStart w lane := by
  have hpick : s.wakePicked = s := if_neg (by simp [h])
  have hshoulder : s.pstate ≠ pShoulder := by rcases hst with e | e <;> rw [e] <;> decide
  unfold State.wakeLook
  rw [if_neg (by simp [State.on, hstr]), if_neg (by simp [hidle, ppIdle, ppEntering, ppCommitted]), if_pos hidle, State.wakeSeen_only h]
  unfold State.wakeBy
  simp only [hpick]
  rw [if_neg hshoulder, if_pos (by simpa [harmed] using hst)]

/-! ### The start of a wake -/

/-- The fields that the start of a wake writes. -/
def wakeFlds : List Fld :=
  [R.PWR_WAKE_REC_SOURCE, R.PWR_WAKE_REC_LANE, R.PWR_WAKE_REC_FROM, R.PWR_WAKE_REC_RETRIES, R.PWR_WAKE_REC_STRANDED, R.PWR_STATE_PHASE]

theorem State.wakePower_spec (s : State) :
    s.wakePower.out = .pin (if s.rd R.PWR_WAKE_REC_FROM = pValley then "RAIL_EN" else "SWITCHES") true :: s.out ∧ (∀ f, s.wakePower.rd f = s.rd f) ∧
      s.wakePower.mem = s.mem ∧ s.wakePower.build = s.build ∧ s.wakePower.eng = s.eng := by
  unfold State.wakePower
  split
  · exact ⟨rfl, fun _ => rfl, rfl, rfl, rfl⟩
  · exact ⟨rfl, fun _ => rfl, rfl, rfl, rfl⟩

theorem wakeCode_lt (w : WakeSource) : wakeCode w < 16 := by cases w <;> simp [wakeCode]

/-- The lane that is recorded (R411). -/
def wakeLane (w : WakeSource) (lane : Nat) : Nat := match w with | .ridge _ => lane | _ => 0

theorem State.wakeStart_spec {s : State} {w : WakeSource} {lane : Nat} (hlane : lane < 64) (hst : s.pstate = pSaddle ∨ s.pstate = pValley) :
    let t := s.wakeStart w lane
    t.rd R.PWR_WAKE_REC_SOURCE = wakeCode w ∧ t.rd R.PWR_WAKE_REC_LANE = wakeLane w lane ∧
      t.rd R.PWR_WAKE_REC_FROM = s.pstate ∧ t.rd R.PWR_WAKE_REC_RETRIES = 0 ∧ t.pphase = ppWaking ∧
      t.out = .pin (if s.pstate = pValley then "RAIL_EN" else "SWITCHES") true :: s.out ∧ sameElse s t wakeFlds := by
  intro t
  let l := wakeLane w lane
  let s1 := ((((s.wr R.PWR_WAKE_REC_SOURCE (wakeCode w)).wr R.PWR_WAKE_REC_LANE l).wr R.PWR_WAKE_REC_RETRIES 0).wr R.PWR_WAKE_REC_FROM s.pstate).wr
    R.PWR_WAKE_REC_STRANDED 0
  let p : Power := { s.eng.pwr with seen := none, armed := false, tries := 0, gap := false, up := false,
                                    stretch := s.eng.pwr.stretch || decide (w = .mgt) && decide (s.pstate = pValley) }
  let s2 := (s1.wr R.PWR_STATE_PHASE ppWaking).setPwr p
  have ht : t = s2.wakePower := rfl
  have hframe : sameElse s s2 wakeFlds :=
    (((((((sameElse.refl s wakeFlds).wr (by simp [wakeFlds])).wr (by simp [wakeFlds])).wr (by simp [wakeFlds])).wr (by simp [wakeFlds])).wr
      (by simp [wakeFlds])).wr (by simp [wakeFlds]) : sameElse s (s1.wr R.PWR_STATE_PHASE ppWaking) wakeFlds).of_eq rfl rfl rfl
  have hfrom : s2.rd R.PWR_WAKE_REC_FROM = s.pstate := by
    refine (State.rd_wr_ne s1 _ (by decide)).trans ((State.rd_wr_ne _ _ (by decide)).trans ((State.rd_wr_same _ _ _).trans ?_))
    rcases hst with e | e <;> rw [e] <;> rfl
  have hl : l < 64 := by
    cases w
    case ridge => exact hlane
    all_goals exact Nat.zero_lt_succ _
  obtain ⟨hout, hrd, hmem, hbuild, _⟩ := s2.wakePower_spec
  rw [ht, hout, hrd, hrd, hrd, hrd, State.pphase, hrd, hfrom]
  refine ⟨?_, ?_, rfl, ?_, State.rd_wr_same s1 _ _, rfl, fun f hf => (hrd f).trans (hframe.1 f hf), fun k => by rw [hmem]; exact hframe.2 k⟩
  · refine (State.rd_wr_ne s1 _ (by decide)).trans ?_
    simp (disch := decide) only [s1, State.rd_wr_ne, State.rd_wr_same]
    exact Nat.mod_eq_of_lt (wakeCode_lt w)
  · refine (State.rd_wr_ne s1 _ (by decide)).trans ?_
    simp (disch := decide) only [s1, State.rd_wr_ne, State.rd_wr_same]
    exact Nat.mod_eq_of_lt hl
  · refine (State.rd_wr_ne s1 _ (by decide)).trans ?_
    simp (disch := decide) only [s1, State.rd_wr_ne, State.rd_wr_same]
    rfl

/-! ### Wake sources (R406, R409) -/

theorem wakeArm_unseen {s : State} (hphase : s.pphase = ppCommitted) (hseen : s.wakeSeen = none) :
    completes .wakeArm s (fun t => t.pphase = ppIdle ∧ t.eng.pwr.armed = true ∧ sameElse s t [R.PWR_STATE_PHASE]) := by
  refine completes_eq (t := (s.wr R.PWR_STATE_PHASE ppIdle).setPwr { s.eng.pwr with armed := true, seen := none }) rfl ?_
    ⟨State.rd_wr_same s _ _, rfl, ((sameElse.refl s _).wr (by simp)).of_eq rfl rfl rfl⟩
  unfold State.wakeArm
  rw [if_neg (by simp [hphase]), hseen]
  rfl

theorem wakeArm_shoulder {s : State} {e : WakeSource × Nat} (hphase : s.pphase = ppCommitted) (hseen : s.wakeSeen = some e) (hst : s.pstate = pShoulder) :
    completes .wakeArm s (fun t => t.pstate = pSummit ∧ t.rd R.PWR_PARKED_STEPS = 0) := by
  let u := (s.wr R.PWR_STATE_PHASE ppIdle).setPwr { s.eng.pwr with armed := true, seen := none }
  have hu : u.pstate = pShoulder := (State.rd_wr_ne s _ (by decide)).trans hst
  refine completes_eq (t := u.wakePicked.unparkAll) rfl ?_ (State.unparkAll_shown _)
  unfold State.wakeArm
  rw [if_neg (by simp [hphase]), hseen]
  exact if_pos hu

theorem wakeEdge_lost {s : State} (lane : Nat) (hphase : s.pphase = ppCommitted) (hen : s.rd R.PWR_WAKE_EN_MGT = 1) (hstr : s.rd R.PWR_STATE_STRANDED = 0)
    (hst : s.pstate ≠ pShoulder) :
    completes (.wake .mgt lane) s (fun t =>
      t.rd R.PWR_EVT_EDGE_LOST = min (s.rd R.PWR_EVT_EDGE_LOST + 1) 4294967295 ∧ sameElse s t [R.PWR_EVT_EDGE_LOST]) := by
  refine completes_eq (t := s.count R.PWR_EVT_EDGE_LOST) rfl ?_ ⟨State.rd_count32 s rfl, (sameElse.refl s _).count (by simp)⟩
  change s.wakeEdge = _
  unfold State.wakeEdge
  rw [if_neg (by simp [State.on, hen, hstr]), if_pos hphase, if_neg hst]

theorem wakePin_gone {s : State} {high : Bool} (lane : Nat) (hridge : s.rd R.PWR_WAKE_EN_RIDGE = 0) (hpcie : s.rd R.PWR_WAKE_EN_PCIE = 0)
    (hhigh : high ≠ s.on R.PWR_WAKE_EN_PIN_POL) :
    completes (.wake (.pin high) lane) s (fun t => t.wakeSeen = none ∧ t.pins.wakeHigh = high ∧ t.out = s.out ∧ sameElse s t []) := by
  let u : State := { s with pins := { s.pins with wakeHigh := high } }
  have hact (v : State) (hr : ∀ f, v.rd f = s.rd f) (hp : v.pins.wakeHigh = high) : v.wakeActive = [] :=
    State.wakeActive_none (State.off_of_zero ((hr _).trans hridge)) (State.off_of_zero ((hr _).trans hpcie))
      (.inr (by rw [hp, State.on, hr]; exact hhigh))
  obtain ⟨p, hp⟩ := State.wakeLook_idle (hact u (fun _ => rfl) rfl)
  refine completes_eq (t := u.setPwr p) rfl hp ⟨?_, rfl, rfl, (sameElse.refl s []).of_eq rfl rfl rfl⟩
  unfold State.wakeSeen
  rw [hact (u.setPwr p) (fun _ => rfl) rfl]
  cases (u.setPwr p).eng.pwr.seen <;> rfl

theorem wakeMgt_off {s : State} (lane : Nat) (hen : s.rd R.PWR_WAKE_EN_MGT = 0) : completes (.wake .mgt lane) s (fun t => t = s) := by
  refine completes_eq rfl ?_ rfl
  change s.wakeEdge = _
  exact if_pos (by simp [State.on, hen])

/-- A level source while no level source is enabled. -/
theorem wakeLevel_off {s : State} {w : WakeSource} (lane : Nat) (hw : w ≠ .mgt) (hridge : s.rd R.PWR_WAKE_EN_RIDGE = 0)
    (hpcie : s.rd R.PWR_WAKE_EN_PCIE = 0) (hpin : s.rd R.PWR_WAKE_EN_PIN = 0) :
    completes (.wake w lane) s (fun t => t.out = s.out ∧ t.boot = s.boot ∧ sameElse s t []) := by
  have hlook (p : Pins) : ∃ q, ({ s with pins := p } : State).wakeLook = ({ s with pins := p } : State).setPwr q := by
    exact State.wakeLook_idle (State.wakeActive_none (State.off_of_zero hridge) (State.off_of_zero hpcie) (.inl (State.off_of_zero hpin)))
  have hkept (p q) : (({ s with pins := p } : State).setPwr q).out = s.out ∧ (({ s with pins := p } : State).setPwr q).boot = s.boot ∧
      sameElse s (({ s with pins := p } : State).setPwr q) [] := ⟨rfl, rfl, (sameElse.refl s []).of_eq rfl rfl rfl⟩
  cases w with
  | mgt => exact absurd rfl hw
  | ridge d =>
    refine ⟨_, rfl, ?_⟩
    change (s.wakeEvent (.ridge d) lane).out = _ ∧ (s.wakeEvent (.ridge d) lane).boot = _ ∧ sameElse s (s.wakeEvent (.ridge d) lane) []
    unfold State.wakeEvent
    dsimp only
    split
    · obtain ⟨q, hq⟩ := hlook { s.pins with detect := withBit s.pins.detect lane d }
      rw [hq]
      exact hkept _ q
    · exact ⟨rfl, rfl, .refl s []⟩
  | pcie low =>
    refine ⟨_, rfl, ?_⟩
    change (s.wakeEvent (.pcie low) lane).out = _ ∧ (s.wakeEvent (.pcie low) lane).boot = _ ∧ sameElse s (s.wakeEvent (.pcie low) lane) []
    unfold State.wakeEvent
    dsimp only
    split
    · exact ⟨rfl, rfl, .refl s []⟩
    · obtain ⟨q, hq⟩ := hlook { s.pins with clkreqLow := low }
      rw [hq]
      exact hkept _ q
  | pin high =>
    obtain ⟨q, hq⟩ := hlook { s.pins with wakeHigh := high }
    exact completes_eq rfl hq (hkept _ q)

theorem filter_range_only {n k : Nat} {p : Nat → Bool} (hk : k < n) (hp : ∀ i, p i = true ↔ i = k) : (List.range n).filter p = [k] := by
  have hcount : List.count k (List.range n) = 1 := List.count_eq_one_of_mem List.nodup_range (List.mem_range.2 hk)
  calc (List.range n).filter p = (List.range n).filter (· == k) := List.filter_congr fun i _ => by rw [Bool.eq_iff_iff, hp, beq_iff_eq]
    _ = [k] := by rw [List.filter_beq, hcount]; rfl

/-- Signal detect on one lane, which an enabled port has. -/
theorem State.wakeActive_lane {s : State} {lane id : Nat} (hridge : s.on R.PWR_WAKE_EN_RIDGE = true) (hpcie : s.on R.PWR_WAKE_EN_PCIE = false)
    (hpin : s.on R.PWR_WAKE_EN_PIN = false) (hdetect : s.pins.detect = withBit 0 lane true) (hcount : lane < laneCount s.build)
    (hid : id ∈ allPorts s.build) (hport : s.portOn id = true) (hmem : lane ∈ s.portLanes id) : s.wakeActive = [(.ridge true, lane)] := by
  have hlanes : (List.range (laneCount s.build)).filter (fun k => bitOf s.pins.detect k &&
      (allPorts s.build).any (fun id => s.portOn id && (s.portLanes id).contains k)) = [lane] := by
    refine filter_range_only hcount fun k => ?_
    rw [hdetect, bitOf_withBit, bitOf_zero]
    constructor
    · intro h
      by_contra hne
      simp [hne] at h
    · rintro rfl
      simpa using ⟨id, hid, hport, hmem⟩
  simp only [State.wakeActive, hlanes, hridge, hpcie, hpin]
  simp

/-- CLKREQ_N is low on a head in Saddle whose link is in L1.2. -/
theorem State.wakeActive_host {s : State} (hb : s.build = .head) (hridge : s.on R.PWR_WAKE_EN_RIDGE = false) (hpcie : s.on R.PWR_WAKE_EN_PCIE = true)
    (hpin : s.on R.PWR_WAKE_EN_PIN = false) (hidle : s.pphase = ppIdle) (hst : s.pstate = pSaddle) (hlow : s.pins.clkreqLow = true)
    (hl1ss : s.rd R.HST_LINK_L1SS = 2) : s.wakeActive = [(.pcie true, 0)] := by
  simp [State.wakeActive, State.isTile, hb, hridge, hpcie, hpin, hidle, hst, hlow, hl1ss, ppIdle, ppEntering, pSaddle, pValley]

/-- The WAKE pad is at its polarity. -/
theorem State.wakeActive_pad {s : State} (hridge : s.on R.PWR_WAKE_EN_RIDGE = false) (hpcie : s.on R.PWR_WAKE_EN_PCIE = false)
    (hpin : s.on R.PWR_WAKE_EN_PIN = true) (hpol : s.pins.wakeHigh = s.on R.PWR_WAKE_EN_PIN_POL) :
    s.wakeActive = [(.pin s.pins.wakeHigh, 0)] := by
  simp [State.wakeActive, hridge, hpcie, hpin, hpol]

/-- The wake source that is active alone wakes the device. -/
theorem wake_starts {s : State} {w : WakeSource} {lane : Nat} (hlane : lane < 64) (h : onlyWake s w lane) (hstr : s.rd R.PWR_STATE_STRANDED = 0)
    (hidle : s.pphase = ppIdle) (harmed : s.eng.pwr.armed = true) (hst : s.pstate = pSaddle ∨ s.pstate = pValley) :
    completes (.wake w lane) s (fun t =>
      t.rd R.PWR_WAKE_REC_SOURCE = wakeCode w ∧ t.rd R.PWR_WAKE_REC_LANE = (if w = .ridge true then lane else 0) ∧
      t.rd R.PWR_WAKE_REC_FROM = s.pstate ∧ t.rd R.PWR_WAKE_REC_RETRIES = 0 ∧ t.pphase = ppWaking ∧
      t.out = .pin (if s.pstate = pValley then "RAIL_EN" else "SWITCHES") true :: s.out ∧
      sameElse s t [R.PWR_WAKE_REC_SOURCE, R.PWR_WAKE_REC_LANE, R.PWR_WAKE_REC_FROM, R.PWR_WAKE_REC_RETRIES, R.PWR_WAKE_REC_STRANDED,
        R.PWR_STATE_PHASE]) := by
  have hlevel (p : Pins) (l : Nat) (hl : l < 64) (hlw : wakeLane w l = if w = .ridge true then lane else 0)
      (hev : s.wakeEvent w lane = ({ s with pins := p } : State).wakeLook) (hact : ({ s with pins := p } : State).wakeActive = [(w, l)]) :
      completes (.wake w lane) s (fun t =>
        t.rd R.PWR_WAKE_REC_SOURCE = wakeCode w ∧ t.rd R.PWR_WAKE_REC_LANE = (if w = .ridge true then lane else 0) ∧
        t.rd R.PWR_WAKE_REC_FROM = s.pstate ∧ t.rd R.PWR_WAKE_REC_RETRIES = 0 ∧ t.pphase = ppWaking ∧
        t.out = .pin (if s.pstate = pValley then "RAIL_EN" else "SWITCHES") true :: s.out ∧ sameElse s t wakeFlds) := by
    obtain ⟨hsrc, hln, hfrom, hret, hphase, hout, hsame⟩ := State.wakeStart_spec (s := { s with pins := p }) (w := w) hl hst
    refine completes_eq rfl (hev.trans (State.wakeLook_only hact hstr hidle harmed hst)) ⟨hsrc, hln.trans hlw, hfrom, hret, hphase, hout, hsame⟩
  cases w with
  | mgt =>
    obtain ⟨hsrc, hln, hfrom, hret, hphase, hout, hsame⟩ := State.wakeStart_spec (s := s) (w := .mgt) (lane := 0) (by decide) hst
    refine completes_eq (t := s.wakeStart .mgt 0) rfl ?_ ⟨hsrc, hln, hfrom, hret, hphase, hout, hsame⟩
    change s.wakeEdge = _
    unfold State.wakeEdge
    have hen : s.rd R.PWR_WAKE_EN_MGT = 1 := h
    rw [if_neg (by simp [State.on, hen, hstr]), if_neg (by simp [hidle, ppIdle, ppCommitted]), if_pos (by simpa [hidle, harmed] using hst)]
  | ridge d =>
    obtain ⟨rfl, hridge, hpcie, hpin, hdetect, hcount, id, hid, hport, hmem⟩ := h
    refine hlevel { s.pins with detect := withBit s.pins.detect lane true } lane hlane (if_pos rfl).symm (if_pos hcount) ?_
    exact State.wakeActive_lane (s := { s with pins := _ }) (State.on_of_one hridge) (State.off_of_zero hpcie) (State.off_of_zero hpin)
      (congrArg (withBit · lane true) hdetect) hcount hid hport hmem
  | pcie low =>
    obtain ⟨rfl, hb, hpcie, hridge, hpin, hsaddle, hl1ss⟩ := h
    refine hlevel { s.pins with clkreqLow := true } 0 (by decide) (if_neg (by decide)).symm (if_neg (by simp [State.isTile, hb])) ?_
    exact State.wakeActive_host (s := { s with pins := _ }) hb (State.off_of_zero hridge) (State.on_of_one hpcie) (State.off_of_zero hpin)
      hidle hsaddle rfl hl1ss
  | pin high =>
    obtain ⟨hpin, hridge, hpcie, hhigh⟩ := h
    refine hlevel { s.pins with wakeHigh := high } 0 (by decide) (if_neg (by simp)).symm rfl ?_
    exact State.wakeActive_pad (s := { s with pins := _ }) (State.off_of_zero hridge) (State.off_of_zero hpcie) (State.on_of_one hpin) hhigh

end Sys2Proof.Machine
end

section
/-! O49, continued: the rails' return, the failures of a wake, and the statement (R401, R410, R411). -/

namespace Sys2Proof.Machine

/-! ### What a wake from Valley keeps -/

/-- Laying a list over another: where the list has a key, its value is read. -/
theorem Sparse.get_layOver {kept l : List (Nat × Nat)} (h : Rising kept) (k : Nat) :
    Sparse.get (forL kept (fun e l => Sparse.put l e.1 e.2) l) k = (Sparse.get kept k).or (Sparse.get l k) := by
  induction kept generalizing l with
  | nil => rfl
  | cons e kept ih =>
    obtain ⟨a, v⟩ := e
    obtain ⟨hhead, htail⟩ := List.pairwise_cons.1 h
    have hnot : a ∉ kept.map Prod.fst := fun hm => by
      obtain ⟨e, he, hek⟩ := List.mem_map.1 hm
      exact absurd (hhead e he) (by simp [hek])
    change Sparse.get (forL kept (fun e l => Sparse.put l e.1 e.2) (Sparse.put l a v)) k = _
    by_cases hk : a = k
    · subst hk
      rw [Sparse.get_putAll hnot, Sparse.get_put_same]
      simp [Sparse.get]
    · rw [ih htail, Sparse.get_put_ne _ _ (Ne.symm hk)]
      simp [Sparse.get, hk]

/-- The state in which the island's registers and the kept memories stand over a full reset. -/
def State.overReset (s : State) : State :=
  { s.fullReset .cmd with
    regs := forL (s.regs.filter (fun (e : Nat × Nat) => islandKeeps e.1)) (fun (e : Nat × Nat) (l : List (Nat × Nat)) => Sparse.put l e.1 e.2)
      ((s.fullReset .cmd).regs.filter (fun (e : Nat × Nat) => !islandKeeps e.1))
    mem := s.mem.filter (fun c => valleyKeeps c.1) }

theorem State.rd_overReset {s : State} (hwf : s.wf = true) {f : Fld} (hf : islandKeeps f.key = true) : s.overReset.rd f = s.rd f := by
  have hrise : Rising s.regs := by
    simp only [State.wf, Bool.and_eq_true, keysRise_keys] at hwf
    exact hwf.2
  have hbuild : (s.fullReset .cmd).build = s.build := rfl
  unfold State.overReset State.rd Sparse.look
  dsimp only
  rw [Sparse.get_layOver (hrise.filter _), Sparse.get_filter _ islandKeeps, Sparse.get_filter _ (fun k => !islandKeeps k), if_pos hf,
    if_neg (by simp [hf]), Option.or_none, hbuild]

theorem State.memGet_overReset (s : State) (k : Nat) : memGet s.overReset.mem k = if valleyKeeps k then memGet s.mem k else unlisted k := by
  refine (congrArg (Option.getD · (unlisted k)) (Sparse.get_filter s.mem valleyKeeps k)).trans ?_
  split <;> rfl

/-! ### The boot ROM's keys and the root PLL -/

/-- The fields that the boot ROM writes with the keys, and the root PLL's enable. -/
def romFlds : List Fld :=
  (List.range 48).map R.BOOT_KEY_DIGEST ++ [R.BOOT_DEBUG_DEBUG_LOCK, R.BOOT_MIN_VERSION_VERSION, R.BOOT_IMG_STATE_REC_COPY,
    R.BOOT_IMG_STATE_REC_BAD, R.BOOT_STAGE_STAGE, R.CLK_PLL_EN_ROOT_EN]

theorem State.writeKey_rom (s : State) {k : Nat} (hk : k < 4) (d : Nat) : sameElse s (s.writeKey k d) romFlds :=
  forN_inv_lt (P := fun t : State => sameElse s t romFlds) (.refl s _) fun j hj _ ht =>
    ht.wr (List.mem_append_left _ (List.mem_map.2 ⟨12 * k + j, List.mem_range.2 (by omega), rfl⟩))

theorem State.bootKeys_rom (s : State) : sameElse s s.bootKeys romFlds := by
  have hkeys : sameElse s (s.keysWritten s.romRecord) romFlds :=
    (s.writeKey_rom (by decide) _).trans ((State.writeKey_rom _ (by decide) _).trans ((State.writeKey_rom _ (by decide) _).trans
      (State.writeKey_rom _ (by decide) _)))
  have hmem {f : Fld} (h : f ∈ [R.BOOT_DEBUG_DEBUG_LOCK, R.BOOT_MIN_VERSION_VERSION, R.BOOT_IMG_STATE_REC_COPY, R.BOOT_IMG_STATE_REC_BAD,
      R.BOOT_STAGE_STAGE, R.CLK_PLL_EN_ROOT_EN]) : f ∈ romFlds := List.mem_append_right _ h
  unfold State.bootKeys
  extract_lets r rec_ s1 s2 s3 s4
  have h1 : sameElse s s1 romFlds := hkeys
  have h2 : sameElse s s2 romFlds := (h1.wrB (hmem (by simp))).wr (hmem (by simp))
  clear_value s2
  have h3 : sameElse s s3 romFlds := by
    dsimp only [s3]
    clear_value r
    cases r with
    | some p => exact h2.wr (hmem (by simp))
    | none => exact h2.wr (hmem (by simp))
  exact (h3.wr (f := R.BOOT_STAGE_STAGE) (hmem (by simp))).of_eq rfl rfl rfl

/-! ### Kryty starts after Valley -/

/-- The fields of the power page that the start after Valley sets. -/
def upFlds : List Fld :=
  [R.PWR_STATE_STATE, R.PWR_STATE_STEP, R.PWR_STATE_IMAGE_OK, R.PWR_PARKED_STEPS, R.PWR_CMD_RESTORE, R.PWR_STATE_PHASE]

/-- The state in which the boot ROM starts after Valley. -/
def State.valleyStart (s : State) : State :=
  let g1 := ((((s.overReset.wr R.PWR_STATE_STATE pSummit).wr R.PWR_STATE_STEP 0).wr R.PWR_STATE_IMAGE_OK 0).wr R.PWR_PARKED_STEPS 0).wr
    R.PWR_CMD_RESTORE 0
  (g1.setPwr { s.eng.pwr with up := true, gap := false, armed := false }).wr R.PWR_STATE_PHASE ppWaking

theorem State.valleyStart_spec (s : State) :
    s.valleyStart.rd R.PWR_STATE_STATE = pSummit ∧ s.valleyStart.rd R.PWR_STATE_IMAGE_OK = 0 ∧ s.valleyStart.rd R.PWR_PARKED_STEPS = 0 ∧
      sameElse s.overReset s.valleyStart upFlds := by
  unfold State.valleyStart
  extract_lets g1
  have h1 : sameElse s.overReset g1 upFlds :=
    (((((sameElse.refl _ upFlds).wr (by simp [upFlds])).wr (by simp [upFlds])).wr (by simp [upFlds])).wr (by simp [upFlds])).wr (by simp [upFlds])
  have hstate : g1.rd R.PWR_STATE_STATE = pSummit := by
    simp (disch := decide) only [g1, State.rd_wr_ne, State.rd_wr_same]
    rfl
  have himage : g1.rd R.PWR_STATE_IMAGE_OK = 0 := by
    simp (disch := decide) only [g1, State.rd_wr_ne, State.rd_wr_same]
    rfl
  have hparked : g1.rd R.PWR_PARKED_STEPS = 0 := by
    simp (disch := decide) only [g1, State.rd_wr_ne, State.rd_wr_same]
    rfl
  clear_value g1
  refine ⟨(State.rd_wr_ne _ _ (by decide)).trans hstate, (State.rd_wr_ne _ _ (by decide)).trans himage,
    (State.rd_wr_ne _ _ (by decide)).trans hparked, ?_⟩
  exact (h1.of_eq rfl rfl rfl : sameElse s.overReset (g1.setPwr _) upFlds).wr (by simp [upFlds])

/-- The boot ROM starts at once where RESET_N is high. -/
theorem State.valleyUp_eq {s : State} (hlow : s.pins.resetLow = false) (hrail : s.pins.railPg = true) :
    s.valleyUp = s.valleyStart.bootKeys.bootPll := by
  have hphase : s.valleyStart.boot.phase = .detect := if_neg (by simp [hlow, hrail])
  exact if_pos hphase

theorem State.bootPll_spec (s : State) :
    s.bootPll.boot.phase = .pllWait ∧ s.bootPll.bus = s.bus ∧ s.bootPll.pins = s.pins ∧ s.bootPll.eng = s.eng ∧
      s.bootPll.rd R.CLK_PLL_EN_ROOT_EN = 1 ∧ sameElse s s.bootPll [R.CLK_PLL_EN_ROOT_EN] :=
  ⟨rfl, rfl, rfl, rfl, State.rd_wr_same s _ _, ((sameElse.refl s _).wr (by simp) : sameElse s (s.wr R.CLK_PLL_EN_ROOT_EN 1) _).of_eq rfl rfl rfl⟩

theorem State.valleyStart_pwr (s : State) :
    s.valleyStart.eng.pwr = { s.eng.pwr with up := true, gap := false, armed := false } ∧ s.valleyStart.pins = s.pins := by
  unfold State.valleyStart
  extract_lets g1
  have hpins : g1.pins = s.overReset.pins := by simp only [g1, State.wr_pins]
  clear_value g1
  obtain ⟨_, _, _, hreset, _⟩ := s.fullReset_spec .cmd
  exact ⟨rfl, hpins.trans hreset⟩

theorem State.valleyUp_spec {s : State} (hwf : s.wf = true) (hlow : s.pins.resetLow = false) (hrail : s.pins.railPg = true) :
    let t := s.valleyUp
    t.boot.phase = .pllWait ∧ t.bus.isOpen = true ∧ t.rd R.BOOT_STAGE_STAGE = stKeys ∧ t.rd R.CLK_PLL_EN_ROOT_EN = 1 ∧
      t.rd R.CLK_REF_SRC = s.rd R.CLK_REF_SRC ∧ t.pins = s.pins ∧
      t.eng.pwr = { s.eng.pwr with up := true, gap := false, armed := false } ∧ t.pstate = pSummit ∧ t.rd R.PWR_STATE_IMAGE_OK = 0 ∧
      t.rd R.PWR_PARKED_STEPS = 0 ∧ t.rd R.PWR_WAKE_REC_SOURCE = s.rd R.PWR_WAKE_REC_SOURCE ∧
      t.rd R.BOOT_RESET_CAUSE_CAUSE = s.rd R.BOOT_RESET_CAUSE_CAUSE ∧ t.rd R.PWR_WAKE_EPOCH_EPOCH = s.rd R.PWR_WAKE_EPOCH_EPOCH ∧
      ∀ k, memGet t.mem k = if valleyKeeps k then memGet s.mem k else unlisted k := by
  intro t
  obtain ⟨hstate, himage, hparked, hstart⟩ := s.valleyStart_spec
  obtain ⟨_, _, hstage, _, heng, hpins, hopen, _, _⟩ := s.valleyStart.bootKeys_spec
  obtain ⟨hphase, hpbus, hppins, hpeng, hroot, hpll⟩ := s.valleyStart.bootKeys.bootPll_spec
  obtain ⟨hspwr, hspins⟩ := s.valleyStart_pwr
  have hrom : sameElse s.valleyStart t romFlds := by
    change sameElse s.valleyStart s.valleyUp romFlds
    rw [State.valleyUp_eq hlow hrail]
    exact s.valleyStart.bootKeys_rom.trans (hpll.mono fun _ h => List.mem_append_right _ (by simp_all))
  have hkept {f : Fld} (hisland : islandKeeps f.key = true) (hup : ∀ g ∈ upFlds, f.key ≠ g.key) (hf : ∀ g ∈ romFlds, f.key ≠ g.key) :
      t.rd f = s.rd f := (hrom.1 f hf).trans ((hstart.1 f hup).trans (State.rd_overReset hwf hisland))
  have ht : t = s.valleyStart.bootKeys.bootPll := State.valleyUp_eq hlow hrail
  refine ⟨by rw [ht]; exact hphase, by rw [ht, hpbus]; exact hopen, ?_, by rw [ht]; exact hroot, hkept (by decide) (by decide) (by decide),
    by rw [ht, hppins, hpins, hspins], ?_, (hrom.1 _ (by decide)).trans hstate, (hrom.1 _ (by decide)).trans himage,
    (hrom.1 _ (by decide)).trans hparked, hkept (by decide) (by decide) (by decide), hkept (by decide) (by decide) (by decide),
    hkept (by decide) (by decide) (by decide), fun k => (hrom.2 k).trans ((hstart.2 k).trans (s.memGet_overReset k))⟩
  · rw [ht]
    exact (hpll.1 _ (by decide)).trans hstage
  · rw [ht]
    rw [hpeng, heng, hspwr]

end Sys2Proof.Machine
end

section
/-! O49, continued: the rails' return, the failed attempts, and the statement (R410, R411). -/

namespace Sys2Proof.Machine

/-! ### The rails' return -/

/-- A wake attempt has failed: it is counted, and the rails drop (R410). -/
def State.railsDown (s : State) (valley : Bool) : State :=
  let s1 := (s.count R.PWR_EVT_WAKE_RETRY).wr R.PWR_WAKE_REC_RETRIES (min 3 (s.eng.pwr.tries + 1))
  (if valley then { s1 with pins := { s1.pins with railEn := false } } else s1).emit (.pin (if valley then "RAIL_EN" else "SWITCHES") false)

/-- The last attempt has failed: all rails are down, and the device is Stranded (R411). -/
def State.strand (s : State) (valley : Bool) : State :=
  let s2 := s.railsDown valley
  let s3 := if valley then s2 else ({ s2 with pins := { s2.pins with railEn := false } }).emit (.pin "RAIL_EN" false)
  ((((s3.setPwr { s.eng.pwr with tries := s.eng.pwr.tries + 1 }).wr R.PWR_STATE_STATE pValley).wr R.PWR_STATE_STRANDED 1).wr
    R.PWR_WAKE_REC_STRANDED 1).wr R.PWR_STATE_PHASE ppIdle

theorem State.railsDown_spec (s : State) (valley : Bool) :
    (s.railsDown valley).rd R.PWR_WAKE_REC_RETRIES = min 3 (s.eng.pwr.tries + 1) ∧
      (s.railsDown valley).rd R.PWR_EVT_WAKE_RETRY = min (s.rd R.PWR_EVT_WAKE_RETRY + 1) 4294967295 ∧
      (s.railsDown valley).out = .pin (if valley then "RAIL_EN" else "SWITCHES") false :: s.out ∧
      (valley = true → (s.railsDown valley).pins.railEn = false) ∧
      sameElse s (s.railsDown valley) [R.PWR_EVT_WAKE_RETRY, R.PWR_WAKE_REC_RETRIES] := by
  unfold State.railsDown
  extract_lets s1
  have hframe : sameElse s s1 [R.PWR_EVT_WAKE_RETRY, R.PWR_WAKE_REC_RETRIES] := ((sameElse.refl s _).count (by simp)).wr (by simp)
  have hretries : s1.rd R.PWR_WAKE_REC_RETRIES = min 3 (s.eng.pwr.tries + 1) :=
    (State.rd_wr_same _ _ _).trans (Nat.mod_eq_of_lt (Nat.lt_of_le_of_lt (Nat.min_le_left ..) (by decide)))
  have hcount : s1.rd R.PWR_EVT_WAKE_RETRY = min (s.rd R.PWR_EVT_WAKE_RETRY + 1) 4294967295 :=
    (State.rd_wr_ne _ _ (by decide)).trans (State.rd_count32 s rfl)
  have hout : s1.out = s.out := (State.wr_out _ _ _).trans rfl
  clear_value s1
  cases valley
  · exact ⟨hretries, hcount, congrArg _ hout, fun h => absurd h (by decide), hframe.of_eq rfl rfl rfl⟩
  · exact ⟨hretries, hcount, congrArg _ hout, fun _ => rfl, hframe.of_eq rfl rfl rfl⟩

theorem State.strand_spec (s : State) (valley : Bool) :
    (s.strand valley).pstate = pValley ∧ (s.strand valley).rd R.PWR_STATE_STRANDED = 1 ∧ (s.strand valley).rd R.PWR_WAKE_REC_STRANDED = 1 ∧
      (s.strand valley).pphase = ppIdle ∧ (s.strand valley).pins.railEn = false := by
  obtain ⟨_, _, _, hrail, _⟩ := s.railsDown_spec valley
  unfold State.strand
  extract_lets s2 rails s3
  have hpins : s3.pins.railEn = false := by
    dsimp only [s3]
    split
    · next h => exact hrail h
    · rfl
  clear_value s3
  refine ⟨?_, ?_, ?_, State.rd_wr_same _ _ _, hpins⟩
  · simp (disch := decide) only [State.pstate, State.rd_wr_ne, State.rd_wr_same]
    rfl
  · simp (disch := decide) only [State.rd_wr_ne, State.rd_wr_same]
    rfl
  · simp (disch := decide) only [State.rd_wr_ne, State.rd_wr_same]
    rfl

section
variable {s : State} (hwaking : s.pphase = ppWaking) (hup : s.eng.pwr.up = false) (hgap : s.eng.pwr.gap = false)
include hwaking hup hgap

theorem railPgRise_saddle (hfrom : s.rd R.PWR_WAKE_REC_FROM = pSaddle) (hst : s.eng.pwr.stretch = false) :
    completes (.railPgRise true) s (fun t => t.eng.pwr.up = true ∧ sameElse s t []) ∧ completes (.railPgRise false) s (fun t => t = s) := by
  have hvalley : ¬s.rd R.PWR_WAKE_REC_FROM = pValley := by rw [hfrom]; decide
  have hrise (rc : Bool) : s.railRise rc = if !rc then s else s.setPwr { s.eng.pwr with up := true } := by
    unfold State.railRise
    rw [if_pos hwaking, if_neg (by simp [hup, hgap])]
    simp only [hvalley, if_false]
  constructor
  · refine completes_eq (t := s.setPwr { s.eng.pwr with up := true }) rfl ?_ ⟨rfl, (sameElse.refl s []).of_eq rfl rfl rfl⟩
    exact (congrArg State.mgtResume (hrise true)).trans (State.mgtResume_idle (s := s.setPwr { s.eng.pwr with up := true }) hst)
  · exact completes_eq rfl ((congrArg State.mgtResume (hrise false)).trans (State.mgtResume_idle hst)) rfl

theorem railPgRise_valley (hfrom : s.rd R.PWR_WAKE_REC_FROM = pValley) (hwf : s.wf = true) (hst : s.eng.pwr.stretch = false)
    (hlow : s.pins.resetLow = false) :
    completes (.railPgRise true) s (fun t =>
      t.boot.phase = .pllWait ∧ t.bus.isOpen = true ∧ t.rd R.BOOT_STAGE_STAGE = stKeys ∧ t.rd R.CLK_PLL_EN_ROOT_EN = 1 ∧
      t.rd R.CLK_REF_SRC = s.rd R.CLK_REF_SRC ∧
      t.pins.railPg = true ∧ t.eng.pwr.up = true ∧ t.pstate = pSummit ∧ t.rd R.PWR_STATE_IMAGE_OK = 0 ∧ t.rd R.PWR_PARKED_STEPS = 0 ∧
      t.rd R.PWR_WAKE_REC_SOURCE = s.rd R.PWR_WAKE_REC_SOURCE ∧ t.rd R.BOOT_RESET_CAUSE_CAUSE = s.rd R.BOOT_RESET_CAUSE_CAUSE ∧
      t.rd R.PWR_WAKE_EPOCH_EPOCH = s.rd R.PWR_WAKE_EPOCH_EPOCH ∧
      ∀ k, memGet t.mem k = if valleyKeeps k then memGet s.mem k else unlisted k) := by
  let u : State := { s with pins := { s.pins with railPg := true } }
  have hrise : s.railRise true = u.valleyUp := by
    unfold State.railRise
    rw [if_pos hwaking, if_neg (by simp [hup, hgap])]
    simp only [hfrom, if_true]
    rfl
  obtain ⟨hphase, hopen, hstage, hroot, hsrc, hpins, hpwr, hstate, himage, hparked, hsource, hcause, hepoch, hmem⟩ :=
    State.valleyUp_spec (s := u) hwf hlow rfl
  refine completes_eq (t := u.valleyUp) rfl ?_ ⟨hphase, hopen, hstage, hroot, hsrc, by rw [hpins], by rw [hpwr], hstate, himage, hparked, hsource,
    hcause, hepoch, hmem⟩
  refine (congrArg State.mgtResume hrise).trans (State.mgtResume_idle ?_)
  rw [hpwr]
  exact hst

/-! ### Failed attempts -/

theorem State.wakeTimeout_eq :
    s.wakeTimeout = if s.rd R.PWR_CFG_RETRIES ≤ s.eng.pwr.tries then s.strand (decide (s.rd R.PWR_WAKE_REC_FROM = pValley))
      else (s.railsDown (decide (s.rd R.PWR_WAKE_REC_FROM = pValley))).setPwr { s.eng.pwr with tries := s.eng.pwr.tries + 1, gap := true } := by
  have hcold : s.poweringUp = false := by simp [State.poweringUp, hwaking]
  unfold State.wakeTimeout
  simp only [hcold, Bool.false_and, Bool.false_or]
  exact if_neg (by simp [hup, hgap, hwaking])

theorem wakeTimeout_retry (htries : s.eng.pwr.tries < s.rd R.PWR_CFG_RETRIES) :
    completes .wakeTimeout s (fun t =>
      t.eng.pwr.gap = true ∧ t.eng.pwr.tries = s.eng.pwr.tries + 1 ∧ t.rd R.PWR_WAKE_REC_RETRIES = min 3 (s.eng.pwr.tries + 1) ∧
      t.rd R.PWR_EVT_WAKE_RETRY = min (s.rd R.PWR_EVT_WAKE_RETRY + 1) 4294967295 ∧
      t.out = .pin (if s.rd R.PWR_WAKE_REC_FROM = pValley then "RAIL_EN" else "SWITCHES") false :: s.out ∧
      sameElse s t [R.PWR_EVT_WAKE_RETRY, R.PWR_WAKE_REC_RETRIES]) := by
  obtain ⟨hretries, hcount, hout, _, hframe⟩ := s.railsDown_spec (decide (s.rd R.PWR_WAKE_REC_FROM = pValley))
  refine completes_eq rfl ((State.wakeTimeout_eq hwaking hup hgap).trans (if_neg (Nat.not_le.2 htries)))
    ⟨rfl, rfl, hretries, hcount, ?_, hframe.of_eq rfl rfl rfl⟩
  simpa using hout

theorem wakeTimeout_last (htries : s.rd R.PWR_CFG_RETRIES ≤ s.eng.pwr.tries) :
    completes .wakeTimeout s (fun t =>
      t.pstate = pValley ∧ t.rd R.PWR_STATE_STRANDED = 1 ∧ t.rd R.PWR_WAKE_REC_STRANDED = 1 ∧ t.pphase = ppIdle ∧ t.pins.railEn = false) :=
  completes_eq rfl ((State.wakeTimeout_eq hwaking hup hgap).trans (if_pos htries)) (s.strand_spec _)

end

theorem wakeRetry_again {s : State} (hwaking : s.pphase = ppWaking) (hgap : s.eng.pwr.gap = true) :
    completes .wakeRetry s (fun t =>
      t.eng.pwr.gap = false ∧ sameElse s t [] ∧
      t.out = .pin (if s.rd R.PWR_WAKE_REC_FROM = pValley then "RAIL_EN" else "SWITCHES") true :: s.out) := by
  let u := s.setPwr { s.eng.pwr with gap := false }
  obtain ⟨hout, hrd, hmem, _, heng⟩ := u.wakePower_spec
  refine completes_eq (t := u.wakePower) rfl ?_ ⟨by rw [heng]; rfl, ⟨fun f _ => hrd f, fun k => by rw [hmem]; rfl⟩, hout⟩
  unfold State.wakeRetry
  rw [if_neg (by simp [hgap]), if_pos hwaking]

/-- Settles O49: the arming, the sources, the rails' return and the failed attempts, each by its own lemma. -/
theorem powerWake : Obligations.PowerWake := by
  unfold Obligations.PowerWake
  intro s
  refine ⟨fun hphase => ⟨fun hseen => wakeArm_unseen hphase hseen, fun e hseen hst => wakeArm_shoulder hphase hseen hst,
    fun lane hen hstr hst => wakeEdge_lost lane hphase hen hstr hst, fun high lane _ hridge hpcie hhigh => wakePin_gone lane hridge hpcie hhigh⟩,
    fun w lane hlane => ⟨fun hen => wakeMgt_off lane hen, fun hw hridge hpcie hpin => wakeLevel_off lane hw hridge hpcie hpin,
      fun h hstr hidle harmed hst => wake_starts hlane h hstr hidle harmed hst⟩,
    fun hwaking hup hgap => ⟨fun hfrom hst => railPgRise_saddle hwaking hup hgap hfrom hst,
      fun hfrom hwf hst hlow => railPgRise_valley hwaking hup hgap hfrom hwf hst hlow,
      fun _ htries => wakeTimeout_retry hwaking hup hgap htries, fun htries => wakeTimeout_last hwaking hup hgap htries⟩,
    fun hwaking hgap => wakeRetry_again hwaking hgap⟩

end Sys2Proof.Machine
end

section
/-! O27: the cell boundary of a port, and the checker of TEST cells (R277, R291, R305). -/

namespace Sys2Proof.Machine

/-! ### What a cell boundary leaves -/

/-- The port at the start of a cell time: at a window's start the share in force is taken (R291). -/
def State.charged (s : State) (id : Nat) : Port :=
  if (s.port id).win = 0 then { s.port id with share := s.shareOf id } else s.port id

/-- The queues and the window of `p` stand in `q`, but for cells that came to the control queue, and the line. -/
def PortKept (p q : Port) : Prop := { q with q1 := p.q1, line := p.line } = p

theorem PortKept.refl (p : Port) : PortKept p p := rfl

theorem PortKept.trans {p q r : Port} (h : PortKept p q) (k : PortKept q r) : PortKept p r := by
  unfold PortKept at *
  rw [← h, ← k]

theorem State.enqueue_kept (s : State) (id : Nat) {q : QCell} (hc : q.cell.cls = clsControl) (k : Nat) :
    PortKept (s.port k) ((s.enqueue id q).port k) := by
  by_cases hq : s.queues id = true
  · rw [State.enqueue_control hq hc]
    by_cases hk : k = id
    · rw [hk, State.port_setPort_same]
      rfl
    · rw [State.port_setPort_ne _ _ hk]
      exact .refl _
  · rw [State.enqueue, if_neg hq]
    exact .refl _

/-- A control cell that a tile originates: nothing but the control queues takes it. -/
theorem State.originate_kept {s : State} {mk : Cell → Cell} (typ dest : Nat) (payload : List Byte) (r : Nat) (hb : s.build = .tile)
    (hmk : ∀ c, (mk c).cls = c.cls) :
    SentOnly s (s.originate r mk typ dest payload) ∧ ∀ k, PortKept (s.port k) ((s.originate r mk typ dest payload).port k) := by
  unfold State.originate State.sendBoth State.sendCell
  obtain ⟨hq, hp⟩ := s.ctlSeq_sent (s.rd (R.RING_STATE_NODE 0))
  simp only [hb]
  generalize s.ctlSeq (s.rd (R.RING_STATE_NODE 0)) = v at *
  obtain ⟨n, sync, v⟩ := v
  simp only at hq hp ⊢
  have hvb : v.build = .tile := hq.build.trans hb
  have hport (k : Nat) : v.port k = s.port k := congrArg (fun p => Sparse.look p k Port.init) hp
  simp only [hvb]
  refine ⟨(hq.trans (State.enqueue_sent _ _ (hmk _))).trans (State.enqueue_sent _ _ (hmk _)), fun k => ?_⟩
  rw [← hport k]
  exact (State.enqueue_kept v _ (hmk _) k).trans (State.enqueue_kept _ _ (hmk _) k)

/-- The SHARE_REQ of a tile: only control cells are sent. -/
theorem State.sendShareReq_sent {s : State} (id : Nat) (hb : s.build = .tile) :
    SentOnly s (s.sendShareReq id) ∧ ∀ k, PortKept (s.port k) ((s.sendShareReq id).port k) := by
  unfold State.sendShareReq
  split
  · split
    · exact ⟨.refl s, fun _ => .refl _⟩
    · exact State.originate_kept _ _ _ 0 hb fun _ => rfl
  · next h => exact absurd (hb.symm.trans h) (by decide)

/-- A cell boundary at which a cell leaves. -/
structure BoundarySends (s t : State) (id : Nat) (k : Nat) (q : QCell) : Prop where
  wire : onWire s t id (.cell id (sealCell q.cell q.stomp) q.stomp)
  count : t.rd (R.RING_TX_CELLS (portRing id)) = min (s.rd (R.RING_TX_CELLS (portRing id)) + 1) 18446744073709551615
  frame : sameElse s t [R.RING_TX_CELLS (portRing id)]
  kept : PortKept ((s.charged id).spend (some k)) (t.port id)
  control : ((s.charged id).spend (some k)).sharing = (s.charged id).sharing → (t.port id).q1 = ((s.charged id).spend (some k)).q1
  same : t.build = s.build ∧ t.eng = s.eng

/-- The port part of `Wired`. -/
theorem PortKept.of_line {p q : Port} (h : { q with line := p.line } = p) : PortKept p q ∧ q.q1 = p.q1 := by
  rw [← h]
  exact ⟨rfl, rfl⟩

/-- A cell of class `k` leaves (R291, R292). -/
def State.cellOut (s : State) (id k : Nat) (q : QCell) : State :=
  let s3 := ((s.setPort id ((s.charged id).spend (some k))).countSent id).wireCell id (sealCell q.cell q.stomp) q.stomp
  if ((s.charged id).spend (some k)).sharing && !(s.charged id).sharing && !isSpur id then s3.sendShareReq id else s3

theorem State.boundaryOut_some {s : State} {id k : Nat} {q : QCell} (hloop : s.loopOf id = 0)
    (hk : (s.charged id).choose (s.pacedEnd id) = some k) (hq : (s.charged id).front (some k) = some q) :
    s.boundaryOut id = (s.cellOut id k q, none) := by
  have hnot : ¬s.loopOf id = 1 := by rw [hloop]; decide
  unfold State.cellOut
  unfold State.charged at *
  unfold State.boundaryOut
  dsimp only
  rw [hk, hq]
  simp only [hnot, if_false]

theorem State.cellOut_sends {s : State} {id : Nat} (k : Nat) (q : QCell) (hb : s.build = .tile) (hspur : isSpur id = false) :
    BoundarySends s (s.cellOut id k q) id k q := by
  unfold State.cellOut
  extract_lets s3
  let s2 := (s.setPort id ((s.charged id).spend (some k))).bump (R.RING_TX_CELLS (portRing id)) 1
  have h2 : (s.setPort id ((s.charged id).spend (some k))).countSent id = s2 := if_neg (by simp [hspur])
  have h3 : s3 = s2.wireCell id (sealCell q.cell q.stomp) q.stomp := by rw [← h2]
  obtain ⟨hwire, hframe, hport⟩ := s2.wireCell_spec id (sealCell q.cell q.stomp) q.stomp
  have hsame : s3.build = s.build ∧ s3.eng = s.eng := by
    have := ((s2.emit (.cell id (sealCell q.cell q.stomp) q.stomp)).lineCell_wired id (cellBytes (sealCell q.cell q.stomp))).1
    rw [h3, State.wireCell, this]
    exact ⟨rfl, rfl⟩
  rw [← h3] at hwire hframe hport
  have hp2 : s2.port id = (s.charged id).spend (some k) := State.port_setPort_same s id _
  obtain ⟨hkept, hq1⟩ := PortKept.of_line (hport id)
  rw [hp2] at hkept hq1
  have hcount : s3.rd (R.RING_TX_CELLS (portRing id)) = min (s.rd (R.RING_TX_CELLS (portRing id)) + 1) 18446744073709551615 :=
    (hframe.1 _ (by simp)).trans (State.rd_bump_same _ _ 1)
  have hall : sameElse s s3 [R.RING_TX_CELLS (portRing id)] :=
    ((((sameElse.refl s _).of_eq rfl rfl rfl : sameElse s (s.setPort id ((s.charged id).spend (some k))) [R.RING_TX_CELLS (portRing id)]).bump
      (by simp) : sameElse s s2 _)).trans (hframe.mono (by simp))
  clear_value s3
  split
  · next h =>
    obtain ⟨hsent, hsq⟩ := State.sendShareReq_sent (s := s3) id (hsame.1.trans hb)
    refine ⟨?_, (hsent.rd _).trans hcount, hall.trans (hsent.frame _), hkept.trans (hsq id), fun he => ?_, hsent.build.trans hsame.1, ?_⟩
    · unfold onWire
      rw [hsent.out]
      exact hwire
    · simp [he] at h
    · rw [hsent]
      exact hsame.2
  · exact ⟨hwire, hcount, hall, hkept, fun _ => hq1, hsame⟩

/-! ### What a cell time picks, and the window (R291) -/

section
variable {p : Port} {paced : Bool}

theorem Port.choose_beacon (h0 : p.q0 ≠ []) : p.choose paced = some 0 := if_pos h0

theorem Port.choose_best (h0 : p.q0 = []) (h3 : p.q3 ≠ [])
    (h : 64 - p.win ≤ beOwed p p.share ∨ p.q1 = [] ∧ p.q2 = []) : p.choose paced = some 3 := by
  unfold Port.choose
  dsimp only
  rw [if_neg (not_not.2 h0)]
  split_ifs with howed h1 h2
  · rfl
  · rcases h with h | ⟨h, -⟩
    · exact absurd ⟨h3, h⟩ howed
    · exact absurd h h1
  · rcases h with h | ⟨-, h⟩
    · exact absurd ⟨h3, h⟩ howed
    · exact absurd h h2.1
  · rfl

theorem Port.choose_control (h0 : p.q0 = []) (h : p.q3 = [] ∨ beOwed p p.share < 64 - p.win) (h1 : p.q1 ≠ []) : p.choose paced = some 1 := by
  have hnot : ¬(p.q3 ≠ [] ∧ 64 - p.win ≤ beOwed p p.share) := fun ⟨h3, hle⟩ => h.elim h3 fun hlt => absurd hle (Nat.not_le.2 hlt)
  exact (if_neg (not_not.2 h0)).trans ((if_neg hnot).trans (if_pos h1))

theorem Port.choose_pixel (h0 : p.q0 = []) (h : p.q3 = [] ∨ beOwed p p.share < 64 - p.win) (h1 : p.q1 = []) (h2 : p.q2 ≠ []) :
    p.choose false = some 2 := by
  have hnot : ¬(p.q3 ≠ [] ∧ 64 - p.win ≤ beOwed p p.share) := fun ⟨h3, hle⟩ => h.elim h3 fun hlt => absurd hle (Nat.not_le.2 hlt)
  exact (if_neg (not_not.2 h0)).trans ((if_neg hnot).trans ((if_neg (not_not.2 h1)).trans (if_pos ⟨h2, .inl rfl⟩)))

theorem Port.choose_idle (h0 : p.q0 = []) (h1 : p.q1 = []) (h2 : p.q2 = []) (h3 : p.q3 = []) : p.choose paced = none := by
  simp [Port.choose, h0, h1, h2, h3]

/-- What leaves of a class takes from its queue and from the share. -/
def Port.paid (p : Port) (k : Option Nat) : Port :=
  match k with
  | some 0 => { p with q0 := p.q0.drop 1
                       carryOut := if p.q3 ≠ [] ∧ 64 - p.win ≤ beOwed p p.share ∧ 0 < beOwed p p.share then p.carryOut + 1 else p.carryOut }
  | some 1 => { p with q1 := p.q1.drop 1 }
  | some 2 => { p with q2 := p.q2.drop 1 }
  | some 3 => { p with q3 := p.q3.drop 1, beSent := p.beSent + 1
                       sharing := if 64 - p.win ≤ beOwed p p.share ∧ p.q2 ≠ [] then true else p.sharing }
  | _ => p

theorem Port.spend_paid (p : Port) (k : Option Nat) :
    let q := p.paid k
    (p.spend k).q0 = q.q0 ∧ (p.spend k).q1 = q.q1 ∧ (p.spend k).q2 = q.q2 ∧ (p.spend k).q3 = q.q3 ∧ (p.spend k).sharing = q.sharing ∧
      (p.spend k).win = (if 64 ≤ q.win + 1 then 0 else q.win + 1) ∧ (p.spend k).beSent = (if 64 ≤ q.win + 1 then 0 else q.beSent) ∧
      (p.spend k).carryIn = (if 64 ≤ q.win + 1 then q.carryOut else q.carryIn) ∧
      (p.spend k).carryOut = (if 64 ≤ q.win + 1 then 0 else q.carryOut) := by
  intro q
  have h : p.spend k =
      (if 64 ≤ q.win + 1 then { q with paced := 0, win := 0, beSent := 0, carryIn := q.carryOut, carryOut := 0, testSent := 0 }
       else { q with paced := if k = some 2 then q.paced else q.paced + 1, win := q.win + 1 }) := rfl
  rw [h]
  clear_value q
  split <;> exact ⟨rfl, rfl, rfl, rfl, rfl, rfl, rfl, rfl, rfl⟩

/-- The window after a beacon's cell time: an owed cell that it displaces moves into the next window. -/
theorem Port.spend_window (p : Port) (hwin : p.win < 64) (h3 : p.q3 ≠ []) :
    (p.spend (some 0)).win = (p.win + 1) % 64 ∧ (p.spend (some 0)).beSent = (if p.win = 63 then 0 else p.beSent) ∧
      (if p.win = 63 then (p.spend (some 0)).carryIn else (p.spend (some 0)).carryOut) =
        p.carryOut + (if 64 - p.win ≤ beOwed p p.share ∧ 0 < beOwed p p.share then 1 else 0) ∧
      (p.win = 63 → (p.spend (some 0)).carryOut = 0) := by
  obtain ⟨-, -, -, -, -, hw, hb, hin, hout⟩ := p.spend_paid (some 0)
  have hcarry : (p.paid (some 0)).carryOut = p.carryOut + (if 64 - p.win ≤ beOwed p p.share ∧ 0 < beOwed p p.share then 1 else 0) := by
    simp only [Port.paid, h3, ne_eq, not_false_eq_true, true_and]
    split <;> rfl
  rw [hw, hb, hin, hout, hcarry]
  have hpw : (p.paid (some 0)).win = p.win := rfl
  rw [hpw]
  by_cases h : p.win = 63
  · simp [h]
  · have hn : ¬64 ≤ p.win + 1 := by omega
    simp only [if_neg hn, if_neg h]
    exact ⟨by omega, rfl, trivial, fun h63 => absurd h63 h⟩

/-- A best-effort cell is one more of its window, and where the share is already asked for, or no pixel cell waits, nothing more is asked. -/
theorem Port.spend_best (p : Port) (hwin : p.win < 64) :
    (p.spend (some 3)).beSent = (if p.win = 63 then 0 else p.beSent + 1) ∧
      (p.q2 = [] ∨ p.sharing = true → (p.spend (some 3)).sharing = p.sharing) := by
  obtain ⟨-, -, -, -, hs, -, hb, -, -⟩ := p.spend_paid (some 3)
  refine ⟨hb.trans (if_congr (by change 64 ≤ p.win + 1 ↔ _; omega) rfl rfl), fun h => hs.trans ?_⟩
  change (if 64 - p.win ≤ beOwed p p.share ∧ p.q2 ≠ [] then true else p.sharing) = _
  split_ifs with hshort
  · exact (h.resolve_left hshort.2).symm
  · rfl

end

/-- What is said of the port at the boundary is said of the port before it. -/
theorem State.charged_spec (s : State) (id : Nat) :
    (s.charged id).q0 = (s.port id).q0 ∧ (s.charged id).q1 = (s.port id).q1 ∧ (s.charged id).q2 = (s.port id).q2 ∧
      (s.charged id).q3 = (s.port id).q3 ∧ (s.charged id).win = (s.port id).win ∧ (s.charged id).beSent = (s.port id).beSent ∧
      (s.charged id).carryIn = (s.port id).carryIn ∧ (s.charged id).carryOut = (s.port id).carryOut ∧
      (s.charged id).sharing = (s.port id).sharing ∧ (s.charged id).share = (if (s.port id).win = 0 then s.shareOf id else (s.port id).share) := by
  unfold State.charged
  split <;> exact ⟨rfl, rfl, rfl, rfl, rfl, rfl, rfl, rfl, rfl, rfl⟩

/-! ### The command -/

theorem exec_cellBoundary {s : State} {port : Nat} (hb : s.build = .tile) (hmay : s.mayBoundary port = true) (hship : s.ship ≠ shShipping)
    (hgen : bitOf (s.rd (R.RING_CTRL_GEN (portRing port / 4))) (portRing port % 4) = false) (hing : ∀ e ∈ s.eth.ingress, e.2.1 ≠ port)
    (hquiet : s.dramQuiet) {t : State} (hout : s.boundaryOut port = (t, none)) (hbuild : t.build = s.build) (heng : t.eng = s.eng)
    (hsame : t.ship = s.ship) : exec (.cellBoundary port) s = .next t := by
  have htest : s.testGen port = s := by
    unfold State.testGen
    split
    · rfl
    · exact if_neg (by simp [State.testOn, hgen])
  have hrefill : s.beRefill port = s := by
    have hnone : s.eth.ingress.find? (fun e => e.2.1 = port) = none := List.find?_eq_none.2 fun e he => by simpa using hing e he
    unfold State.beRefill
    rw [hnone]
    exact ite_self s
  have hfold : t.foldSent = t := if_neg (by simp [hsame, hship])
  have hgo : s.cellBoundary port = t := by
    unfold State.cellBoundary
    rw [if_neg (by simp [hmay]), if_pos (show s.isTile = true by simp [State.isTile, hb])]
    simp only [htest, hrefill, hout, hfold]
  change Host.Outcome.next (s.cellBoundary port).dramSlots = _
  rw [hgo, State.dramSlots_quiet (State.dramQuiet_congr hbuild (by rw [heng]) hquiet)]

end Sys2Proof.Machine
end

section
/-! O27, continued: the clauses and the statement. -/

namespace Sys2Proof.Machine

/-- The hypotheses on the port and its surroundings of every clause but the checker's. -/
structure AtBoundary (s : State) (port : Nat) : Prop where
  tile : s.build = .tile
  may : s.mayBoundary port = true
  loop : s.loopOf port = 0
  ship : s.ship ≠ shShipping
  gen : bitOf (s.rd (R.RING_CTRL_GEN (portRing port / 4))) (portRing port % 4) = false
  ingress : ∀ e ∈ s.eth.ingress, e.2.1 ≠ port
  quiet : s.dramQuiet

theorem AtBoundary.spur {s : State} {port : Nat} (h : AtBoundary s port) : isSpur port = false := by
  have hmay := h.may
  unfold State.mayBoundary at hmay
  rw [h.tile] at hmay
  simp only [Bool.and_eq_true] at hmay
  obtain ⟨⟨he, -⟩, -⟩ := hmay
  simp only [portExists, Bool.or_eq_true, decide_eq_true_eq] at he
  exact decide_eq_false (by omega)

/-- The cell of the class chosen leaves. -/
theorem AtBoundary.sends {s : State} {port k : Nat} {q : QCell} (h : AtBoundary s port) {Q : State → Prop}
    (hk : (s.charged port).choose (s.pacedEnd port) = some k) (hq : (s.charged port).front (some k) = some q)
    (hQ : ∀ t, BoundarySends s t port k q → Q t) : completes (.cellBoundary port) s Q := by
  have hs := s.cellOut_sends k q h.tile h.spur
  have hship : (s.cellOut port k q).ship = s.ship := hs.frame.read (by
    simp only [List.mem_singleton, forall_eq, Fld.key, R.FLD_STATE_SHIP, R.RING_TX_CELLS]
    omega)
  exact ⟨_, exec_cellBoundary h.tile h.may h.ship h.gen h.ingress h.quiet (State.boundaryOut_some h.loop hk hq) hs.same.1 hs.same.2 hship, hQ _ hs⟩

/-- What the kept port says field by field. -/
theorem PortKept.fields {p q : Port} (h : PortKept p q) :
    q.q0 = p.q0 ∧ q.q2 = p.q2 ∧ q.q3 = p.q3 ∧ q.win = p.win ∧ q.beSent = p.beSent ∧ q.carryIn = p.carryIn ∧ q.carryOut = p.carryOut := by
  unfold PortKept at h
  rw [← h]
  exact ⟨rfl, rfl, rfl, rfl, rfl, rfl, rfl⟩

section
variable {s : State} {port : Nat} (h : AtBoundary s port)
include h

/-- The oldest beacon leaves first. -/
theorem AtBoundary.beacon {q : QCell} {l : List QCell} (h0 : (s.port port).q0 = q :: l) :
    completes (.cellBoundary port) s (fun t =>
      (t.port port).q0 = l ∧ (t.port port).q1 = (s.port port).q1 ∧ (t.port port).q2 = (s.port port).q2 ∧ (t.port port).q3 = (s.port port).q3 ∧
      onWire s t port (.cell port (sealCell q.cell q.stomp) q.stomp) ∧
      t.rd (R.RING_TX_CELLS (portRing port)) = min (s.rd (R.RING_TX_CELLS (portRing port)) + 1) 18446744073709551615 ∧
      sameElse s t [R.RING_TX_CELLS (portRing port)]) := by
  obtain ⟨c0, c1, c2, c3, -⟩ := s.charged_spec port
  obtain ⟨p0, p1, p2, p3, psh, -⟩ := (s.charged port).spend_paid (some 0)
  refine h.sends (k := 0) (q := q) (Port.choose_beacon (by simp [c0, h0])) (by simp [Port.front, c0, h0]) fun t ht => ?_
  obtain ⟨t0, t2, t3, -⟩ := ht.kept.fields
  refine ⟨t0.trans (p0.trans ?_), (ht.control psh).trans (p1.trans c1), t2.trans (p2.trans c2), t3.trans (p3.trans c3), ht.wire, ht.count, ht.frame⟩
  simp [Port.paid, c0, h0]

section
variable {share : Nat} (hshare : share = (if (s.port port).win = 0 then s.rd (R.RING_SHARE_PERMILLE (portRing port)) else (s.port port).share))
include hshare

/-- What is owed to the best-effort class at the boundary. -/
theorem AtBoundary.owed : beOwed (s.charged port) (s.charged port).share = beOwed (s.port port) share := by
  obtain ⟨-, -, -, -, -, cb, cin, cout, -, csh⟩ := s.charged_spec port
  have hring : s.shareOf port = s.rd (R.RING_SHARE_PERMILLE (portRing port)) := if_neg (by simp [h.spur])
  rw [csh, hring, ← hshare]
  unfold beOwed
  rw [cin, cout, cb]

/-- A beacon's cell time in its window. -/
theorem AtBoundary.window (hwin : (s.port port).win < 64) (h0 : (s.port port).q0 ≠ []) (h3 : (s.port port).q3 ≠ []) :
    completes (.cellBoundary port) s (fun t =>
      (t.port port).win = ((s.port port).win + 1) % 64 ∧ (t.port port).beSent = (if (s.port port).win = 63 then 0 else (s.port port).beSent) ∧
      (if (s.port port).win = 63 then (t.port port).carryIn else (t.port port).carryOut) = (s.port port).carryOut +
        (if 64 - (s.port port).win ≤ beOwed (s.port port) share ∧ 0 < beOwed (s.port port) share then 1 else 0) ∧
      ((s.port port).win = 63 → (t.port port).carryOut = 0)) := by
  obtain ⟨c0, -, -, c3, cw, cb, -, cout, -⟩ := s.charged_spec port
  obtain ⟨q, l, hq⟩ := List.exists_cons_of_ne_nil h0
  have hspend := (s.charged port).spend_window (by rw [cw]; exact hwin) (by rw [c3]; exact h3)
  rw [cw, cout, cb, h.owed hshare] at hspend
  refine h.sends (k := 0) (q := q) (Port.choose_beacon (by rw [c0]; exact h0)) (by simp [Port.front, c0, hq]) fun t ht => ?_
  obtain ⟨-, -, -, tw, tb, tin, tout⟩ := ht.kept.fields
  rw [tw, tb, tin, tout]
  exact hspend

variable (h0 : (s.port port).q0 = [])
include h0

theorem AtBoundary.best (hwin : (s.port port).win < 64) {q : QCell} {l : List QCell} (h3 : (s.port port).q3 = q :: l)
    (hpick : 64 - (s.port port).win ≤ beOwed (s.port port) share ∨ (s.port port).q1 = [] ∧ (s.port port).q2 = []) :
    completes (.cellBoundary port) s (fun t =>
      (t.port port).q3 = l ∧ (t.port port).beSent = (if (s.port port).win = 63 then 0 else (s.port port).beSent + 1) ∧
      onWire s t port (.cell port (sealCell q.cell q.stomp) q.stomp) ∧
      ((s.port port).q2 = [] ∨ (s.port port).sharing = true → (t.port port).q1 = (s.port port).q1 ∧ (t.port port).q2 = (s.port port).q2) ∧
      sameElse s t [R.RING_TX_CELLS (portRing port)]) := by
  obtain ⟨c0, c1, c2, c3, cw, cb, -, -, csh, -⟩ := s.charged_spec port
  have howed := h.owed hshare
  obtain ⟨-, p1, p2, p3, -⟩ := (s.charged port).spend_paid (some 3)
  obtain ⟨pb, psh⟩ := (s.charged port).spend_best (by rw [cw]; exact hwin)
  refine h.sends (k := 3) (q := q) (Port.choose_best (by rw [c0, h0]) (by simp [c3, h3]) (by rw [howed, cw, c1, c2]; exact hpick))
    (by simp [Port.front, c3, h3]) fun t ht => ?_
  obtain ⟨-, t2, t3, -, tb, -⟩ := ht.kept.fields
  refine ⟨t3.trans (p3.trans ?_), by rw [tb, pb, cw, cb], ht.wire, fun hs => ⟨(ht.control (psh ?_)).trans (p1.trans c1), t2.trans (p2.trans c2)⟩, ht.frame⟩
  · simp [Port.paid, c3, h3]
  · rw [c2, csh]
    exact hs

theorem AtBoundary.control (hpick : (s.port port).q3 = [] ∨ beOwed (s.port port) share < 64 - (s.port port).win) {q : QCell} {l : List QCell}
    (h1 : (s.port port).q1 = q :: l) :
    completes (.cellBoundary port) s (fun t =>
      (t.port port).q1 = l ∧ (t.port port).q2 = (s.port port).q2 ∧ (t.port port).q3 = (s.port port).q3 ∧
      onWire s t port (.cell port (sealCell q.cell q.stomp) q.stomp) ∧ sameElse s t [R.RING_TX_CELLS (portRing port)]) := by
  obtain ⟨c0, c1, c2, c3, cw, -⟩ := s.charged_spec port
  have howed := h.owed hshare
  obtain ⟨-, p1, p2, p3, psh, -⟩ := (s.charged port).spend_paid (some 1)
  refine h.sends (k := 1) (q := q) (Port.choose_control (by rw [c0, h0]) (by rw [howed, cw, c3]; exact hpick) (by simp [c1, h1]))
    (by simp [Port.front, c1, h1]) fun t ht => ?_
  obtain ⟨-, t2, t3, -⟩ := ht.kept.fields
  refine ⟨(ht.control psh).trans (p1.trans ?_), t2.trans (p2.trans c2), t3.trans (p3.trans c3), ht.wire, ht.frame⟩
  simp [Port.paid, c1, h1]

theorem AtBoundary.pixel (hpick : (s.port port).q3 = [] ∨ beOwed (s.port port) share < 64 - (s.port port).win) {q : QCell} {l : List QCell}
    (h1 : (s.port port).q1 = []) (h2 : (s.port port).q2 = q :: l) (hpaced : s.pacedEnd port = false) :
    completes (.cellBoundary port) s (fun t =>
      (t.port port).q1 = [] ∧ (t.port port).q2 = l ∧ (t.port port).q3 = (s.port port).q3 ∧
      onWire s t port (.cell port (sealCell q.cell q.stomp) q.stomp) ∧ sameElse s t [R.RING_TX_CELLS (portRing port)]) := by
  obtain ⟨c0, c1, c2, c3, cw, -⟩ := s.charged_spec port
  have howed := h.owed hshare
  obtain ⟨-, p1, p2, p3, psh, -⟩ := (s.charged port).spend_paid (some 2)
  refine h.sends (k := 2) (q := q) ?_ (by simp [Port.front, c2, h2]) fun t ht => ?_
  · rw [hpaced]
    exact Port.choose_pixel (by rw [c0, h0]) (by rw [howed, cw, c3]; exact hpick) (by rw [c1, h1]) (by simp [c2, h2])
  obtain ⟨-, t2, t3, -⟩ := ht.kept.fields
  refine ⟨(ht.control psh).trans (p1.trans (c1.trans h1)), t2.trans (p2.trans ?_), t3.trans (p3.trans c3), ht.wire, ht.frame⟩
  simp [Port.paid, c2, h2]

end

/-- With nothing to send IDLE leaves. -/
theorem AtBoundary.idle (he : s.outEmpty port = true) :
    completes (.cellBoundary port) s (fun t => onWire s t port (.idle port) ∧ t.outEmpty port = true ∧ sameElse s t []) := by
  obtain ⟨c0, c1, c2, c3, -⟩ := s.charged_spec port
  obtain ⟨p0, p1, p2, p3, -⟩ := (s.charged port).spend_paid none
  simp only [State.outEmpty, Bool.and_eq_true, List.isEmpty_iff] at he
  obtain ⟨⟨⟨h0, h1⟩, h2⟩, h3⟩ := he
  let s1 := s.setPort port ((s.charged port).spend none)
  have hsend : s1.lanesSend port = true := by
    have hmay := h.may
    have hcoded : (s1.port port).coded = (s.port port).coded := by
      rw [State.port_setPort_same]
      unfold Port.spend State.charged
      dsimp only
      split_ifs <;> rfl
    simp only [State.mayBoundary, h.loop, Bool.and_eq_true, Bool.or_eq_true, decide_eq_true_eq] at hmay
    obtain ⟨-, hmay⟩ := hmay
    obtain ⟨⟨-, hlanes⟩, -⟩ := hmay.resolve_left fun hl => absurd hl.2 (by decide)
    unfold State.lanesSend at hlanes ⊢
    rw [hcoded]
    exact hlanes
  have hwired := (s1.emit (.idle port)).lineCell_wired port idleBytes
  have hout : s.boundaryOut port = (s1.wireIdle port, none) := by
    have hidle : s1.idleOut port = s1.wireIdle port := if_pos hsend
    have hnone : (s.charged port).choose (s.pacedEnd port) = none :=
      Port.choose_idle (c0.trans h0) (c1.trans h1) (c2.trans h2) (c3.trans h3)
    rw [← hidle]
    simp only [s1]
    unfold State.charged at hnone ⊢
    unfold State.boundaryOut
    dsimp only
    rw [hnone]
    rfl
  have hframe : sameElse s (s1.wireIdle port) [] :=
    ((sameElse.refl s []).of_eq rfl rfl rfl : sameElse s (s1.emit (.idle port)) []).trans (hwired.frame [])
  refine ⟨_, exec_cellBoundary h.tile h.may h.ship h.gen h.ingress h.quiet hout ?_ ?_ (hframe.read (by simp)), hwired.2.1, ?_, hframe⟩
  · rw [State.wireIdle, hwired.1]
    rfl
  · rw [State.wireIdle, hwired.1]
    rfl
  · have hport := (PortKept.of_line (hwired.2.2 port))
    have hs1 : (s1.emit (.idle port)).port port = (s.charged port).spend none := State.port_setPort_same s port _
    obtain ⟨hkept, hq1⟩ := hport
    obtain ⟨t0, t2, t3, -⟩ := hkept.fields
    rw [hs1] at t0 t2 t3 hq1
    unfold State.outEmpty State.wireIdle
    dsimp only
    rw [t0, t2, t3, hq1, p0, p1, p2, p3]
    simp [Port.paid, c0, c1, c2, c3, h0, h1, h2, h3]

end

/-! ### The checker of TEST cells (R305) -/

section
variable {s : State} {port : Nat} {c : Cell} (hspur : isSpur port = false) (hcls : c.cls = clsBest) (htyp : c.typ = 1) (hrec : s.receive port c = (true, s))
  (hchk : bitOf (s.rd (R.RING_CTRL_CHK (portRing port / 4))) (portRing port % 4) = true)
include hspur hcls htyp hrec hchk

theorem exec_test : exec (.test port c) s = .next (
    let s1 := s.count (R.RING_TEST_CELLS (portRing port))
    let x := s1.port port
    if !x.prbsOn then s1.setPort port { x with prbsOn := true, prbsRx := prbsFrom (takePad c.payload 256) }
    else (s1.bump (R.RING_TEST_ERR (portRing port)) (bitErrors (takePad c.payload 256) (prbsBytes x.prbsRx 256).1)).setPort port
      { x with prbsRx := (prbsBytes x.prbsRx 256).2 }) := by
  change Host.Outcome.next (s.testCell port c) = _
  unfold State.testCell
  rw [if_neg (by simp [hcls, htyp, hspur]), hrec]
  dsimp only
  rw [if_neg (by simp [hchk])]

theorem test_first (hon : (s.port port).prbsOn = false) :
    completes (.test port c) s (fun t =>
      (t.port port).prbsOn = true ∧ (t.port port).prbsRx = prbsFrom (takePad c.payload 256) ∧
      t.rd (R.RING_TEST_CELLS (portRing port)) = min (s.rd (R.RING_TEST_CELLS (portRing port)) + 1) 18446744073709551615 ∧
      sameElse s t [R.RING_TEST_CELLS (portRing port)]) := by
  let s1 := s.count (R.RING_TEST_CELLS (portRing port))
  refine ⟨s1.setPort port { s1.port port with prbsOn := true, prbsRx := prbsFrom (takePad c.payload 256) },
    (exec_test hspur hcls htyp hrec hchk).trans (congrArg Host.Outcome.next (if_pos (by rw [show (s1.port port).prbsOn = false from hon]; rfl))), ?_, ?_,
    State.rd_count_same s _, ((sameElse.refl s _).count (by simp) : sameElse s s1 _).of_eq rfl rfl rfl⟩
  · rw [State.port_setPort_same]
  · rw [State.port_setPort_same]

theorem test_later (hon : (s.port port).prbsOn = true) :
    completes (.test port c) s (fun t =>
      t.rd (R.RING_TEST_ERR (portRing port)) = min (s.rd (R.RING_TEST_ERR (portRing port)) +
        bitErrors (takePad c.payload 256) (prbsBytes (s.port port).prbsRx 256).1) 4294967295 ∧
      sameElse s t [R.RING_TEST_CELLS (portRing port), R.RING_TEST_ERR (portRing port)]) := by
  let s1 := s.count (R.RING_TEST_CELLS (portRing port))
  let e := bitErrors (takePad c.payload 256) (prbsBytes (s1.port port).prbsRx 256).1
  refine ⟨(s1.bump (R.RING_TEST_ERR (portRing port)) e).setPort port { s1.port port with prbsRx := (prbsBytes (s1.port port).prbsRx 256).2 },
    (exec_test hspur hcls htyp hrec hchk).trans (congrArg Host.Outcome.next (if_neg (by rw [show (s1.port port).prbsOn = true from hon]; decide))), ?_,
    (((sameElse.refl s _).count (by simp)).bump (by simp) : sameElse s (s1.bump (R.RING_TEST_ERR (portRing port)) e) _).of_eq rfl rfl rfl⟩
  refine (State.rd_bump_same s1 _ e).trans ?_
  rw [State.rd_count_ne s (by simp only [Fld.key, R.RING_TEST_ERR, R.RING_TEST_CELLS]; omega)]
  rfl

end

/-- Settles O27: what each boundary picks, by `Port.choose`, and the checker's two cases. -/
theorem cellBoundaryAndTest : Obligations.CellBoundaryAndTest := by
  unfold Obligations.CellBoundaryAndTest
  intro port s hb hmay hloop hship hgen hing hquiet
  have h : AtBoundary s port := ⟨hb, hmay, hloop, hship, hgen, hing, hquiet⟩
  refine ⟨fun q l h0 => h.beacon h0, fun share hshare hwin => ⟨fun h0 h3 => h.window hshare hwin h0 h3, fun h0 =>
    ⟨fun q l h3 hpick => h.best hshare h0 hwin h3 hpick, fun hpick => ⟨fun q l h1 => h.control hshare h0 hpick h1,
      fun q l h1 h2 hpaced => h.pixel hshare h0 hpick h1 h2 hpaced⟩⟩⟩, fun he => h.idle he, fun c hcls htyp hrec hchk =>
    ⟨fun hon => test_first h.spur hcls htyp hrec hchk hon, fun hon => test_later h.spur hcls htyp hrec hchk hon⟩⟩

end Sys2Proof.Machine
end

section
/-! O23: the beacons that a tile takes, and those that a frame master sends (R39, R41, R45, R47, R301). -/

namespace Sys2Proof.Machine

/-! ### A beacon of the pair followed -/

/-- A signed field of 32 bits reads the value written, where it fits. -/
theorem State.rdI_wrI_same32 (s : State) {f : Fld} {v : Int} (hw : f.width = 32) (hlo : -2147483648 ≤ v) (hhi : v < 2147483648) :
    (s.wrI f v).rdI f = v := by
  unfold State.rdI State.wrI
  rw [State.rd_wr_same, hw]
  simp only [sgn, wrap]
  omega

theorem satI32_range (x : Int) : -2147483648 ≤ satI 32 x ∧ satI 32 x < 2147483648 := by
  simp only [satI, clampI]
  omega

theorem Tri.voted_set (v : Nat) : (Tri.set v).voted = v := if_pos (.inl rfl)

/-- The state in which a tile takes a beacon. -/
def State.beaconShown (s : State) (c : Cell) : State := (s.showBeacon c).useFree

theorem exec_beacon {s : State} {port : Nat} {c : Cell} {arrival : Int} (hb : s.build = .tile) (hruns : s.epcRuns = true) (hcls : c.cls = clsBeacon)
    (hrec : s.receive port c = (true, s)) (hvalid : s.on R.CRN_MASTER_HEAD_VALID = true) (hterm : s.term 0 = pn c 20 4)
    (hhead : s.rd R.CRN_MASTER_HEAD_HEAD = nodeHead c.src) :
    exec (.beacon port c arrival) s = .next ((s.beaconShown c).takeBeacon (s.beaconRec port c arrival) c.hops) := by
  have hoffer : s.offerPair (pn c 20 4) (nodeHead c.src) = s := by
    unfold State.offerPair
    rw [if_pos hvalid, if_neg (by simp [ranksAbove, hterm, hhead])]
  change Host.Outcome.next (s.beaconAt port c arrival) = _
  congr 1
  unfold State.beaconAt
  rw [if_neg (by simp [hcls]), hrec]
  dsimp only
  rw [if_neg (by simp)]
  split
  · unfold State.tileBeacon
    rw [if_neg (by simp [hruns])]
    dsimp only
    rw [hoffer, if_pos (by simp [hterm, hhead])]
    rfl
  · next h => exact absurd (hb.symm.trans h) (by decide)

theorem State.beaconShown_rest (s : State) (c : Cell) :
    sameElse s (s.beaconShown c) [R.EPC_STATE_MASTER_HEAD, R.EPC_STATE_HOLD_FLAG, R.EPC_STATE_PTP_LOSS] ∧ (s.beaconShown c).build = s.build ∧
      (s.beaconShown c).epc = s.epc ∧ (s.beaconShown c).cairn = s.cairn :=
  ⟨((((sameElse.refl s _).wr (by simp)).wr (by simp)).wr (by simp) : sameElse s (s.showBeacon c) _).of_eq rfl rfl rfl, rfl, rfl, rfl⟩

/-! ### The first beacon (R45, R47) -/

theorem State.firstBeacon_tile {u : State} {b : BeaconRec} (hb : u.build = .tile) (hepoch : b.epoch < 4294967296) :
    let t := u.firstBeacon b
    t.epochNo = b.epoch ∧ t.epc.first = true ∧ t.rd R.EPC_STATE_DIR = b.dir % 2 ∧ t.epc.used = !b.past ∧
      t.epc.nextNumber = (if b.past then none else some b.epoch) ∧ t.rd R.EPC_PERIOD_NS = u.rd R.EPC_PERIOD_NS ∧
      (b.next = 0 → u.rd R.EPC_PERIOD_NEXT_NS = 0 → b.period ≠ u.rd R.EPC_PERIOD_NS →
        t.rd R.EPC_EVT_MISMATCH = min (u.rd R.EPC_EVT_MISMATCH + 1) 4294967295 ∧
        t.epc.nextPeriod = (if periodOk b.period then some b.period else u.epc.nextPeriod)) := by
  intro t
  have ht : t = u.firstBeacon b := rfl
  clear_value t
  unfold State.firstBeacon at ht
  extract_lets s1 announced badPeriod e s3 s4 at ht
  have h1 : sameElse u s1 [R.EPC_PERIOD_NEXT_NS, R.EPC_PERIOD_AT_EPOCH] ∧ s1.build = u.build ∧ s1.cairn = u.cairn := by
    dsimp only [s1]
    split
    · exact ⟨((sameElse.refl u _).wr (by simp)).wr (by simp), rfl, rfl⟩
    · exact ⟨.refl u _, rfl, rfl⟩
  obtain ⟨hframe, hbuild, -⟩ := h1
  have hperiod : s1.rd R.EPC_PERIOD_NS = u.rd R.EPC_PERIOD_NS := hframe.read (by decide)
  have hmismatch : s1.rd R.EPC_EVT_MISMATCH = u.rd R.EPC_EVT_MISMATCH := hframe.read (by decide)
  have hquiet (hn : b.next = 0) : s1 = u := if_neg (by simp [hn])
  have hs3 : s3.epc = { u.epc with first := true, used := !b.past, nextNumber := if b.past then none else some b.epoch, good := 0, misses := 0
                                   nextPeriod := if badPeriod && periodOk b.period then some b.period else u.epc.nextPeriod } := rfl
  have hs3no : s3.epochNo = b.epoch := (Tri.voted_set _).trans (Nat.mod_eq_of_lt hepoch)
  have hs3rd (f : Fld) : s3.rd f = s1.rd f := rfl
  have hs4 : s4.epc = s3.epc ∧ s4.cairn = s3.cairn ∧ s4.build = s3.build ∧ sameElse s3 s4 [R.EPC_EVT_MISMATCH] := by
    dsimp only [s4]
    split
    · exact ⟨rfl, rfl, rfl, (sameElse.refl s3 _).count (by simp)⟩
    · exact ⟨rfl, rfl, rfl, .refl s3 _⟩
  obtain ⟨hepc, hcairn, hb4, hf4⟩ := hs4
  have hgo : t = s4.wr R.EPC_STATE_DIR b.dir := by
    rw [ht]
    split
    · rfl
    · next h => exact absurd (hb.symm.trans h) (by decide)
  have hbad (hn : b.next = 0) (h0 : u.rd R.EPC_PERIOD_NEXT_NS = 0) (hne : b.period ≠ u.rd R.EPC_PERIOD_NS) : badPeriod = true := by
    simp only [badPeriod, announced, hquiet hn, h0]
    simp [hne]
  have hs4count (h : badPeriod = true) : s4 = s3.count R.EPC_EVT_MISMATCH := if_pos (by rw [h]; rfl)
  clear_value s4 s3 badPeriod
  rw [hgo]
  refine ⟨(congrArg (fun x => x.epoch.voted) hcairn).trans hs3no, congrArg Epc.first (hepc.trans hs3), State.rd_wr_same _ _ _,
    congrArg Epc.used (hepc.trans hs3), congrArg Epc.nextNumber (hepc.trans hs3), ?_, fun hn h0 hne => ⟨?_, ?_⟩⟩
  · exact (State.rd_wr_ne _ _ (by decide)).trans ((hf4.read (by decide)).trans ((hs3rd _).trans hperiod))
  · refine (State.rd_wr_ne _ _ (by decide)).trans ?_
    rw [hs4count (hbad hn h0 hne), State.rd_count32 s3 rfl, hs3rd, hmismatch]
  · refine (congrArg Epc.nextPeriod (hepc.trans hs3)).trans ?_
    rw [hbad hn h0 hne]
    rfl

/-! ### A later beacon (R41, R45, R47) -/

theorem State.judgeBeacon_spec (u : State) {b : BeaconRec} (hlate : b.late = false) :
    let t := u.judgeBeacon b
    t.rdI R.EPC_ERR_ERR = satI 32 (b.error / 256) ∧ t.epc.used = true ∧ t.epc.misses = 0 ∧ t.epochNo = u.epochNo ∧ t.epState = u.epState ∧
      t.epc.good = (if b.error.natAbs ≤ 327680 then min 8 (u.epc.good + 1) else 0) ∧
      t.epc.step = (if 131072000 < b.error.natAbs ∧ u.epState ≠ epAcquire then some b.error else u.epc.step) := by
  intro t
  have ht : t = u.judgeBeacon b := rfl
  clear_value t
  unfold State.judgeBeacon at ht
  extract_lets e badNext s1 expect due announced badPeriod badNumber s2 s3 far near e1 s4 at ht
  have h1 : sameElse u s1 [R.EPC_PERIOD_NEXT_NS, R.EPC_PERIOD_AT_EPOCH] ∧ s1.cairn = u.cairn := by
    dsimp only [s1]
    split
    · exact ⟨((sameElse.refl u _).wr (by simp)).wr (by simp), rfl⟩
    · exact ⟨.refl u _, rfl⟩
  have h2 : sameElse s1 s2 [R.EPC_EVT_MISMATCH] ∧ s2.cairn = s1.cairn := by
    clear_value s1
    dsimp only [s2]
    split
    · exact ⟨(sameElse.refl s1 _).count (by simp), rfl⟩
    · exact ⟨.refl s1 _, rfl⟩
  have he : e1.used = true ∧ e1.misses = 0 ∧ e1.good = (if b.error.natAbs ≤ 327680 then min 8 (u.epc.good + 1) else 0) ∧
      e1.step = (if 131072000 < b.error.natAbs ∧ u.epState ≠ epAcquire then some b.error else u.epc.step) := by
    refine ⟨by simp [e1, hlate], rfl, ?_, ?_⟩
    · exact if_congr decide_eq_true_iff rfl rfl
    · refine if_congr ?_ rfl rfl
      simp [far]
  have hend : ∃ v, t = s4 ∨ t = (s4.wrI R.EPC_TRIM_TRIM v).useFree := by
    refine ⟨clampI (-200000) 200000 (s4.rdI R.EPC_TRIM_TRIM + Config.trimStep s4.freeCtr), ?_⟩
    rw [ht]
    split
    · exact .inl rfl
    · exact .inr rfl
  have h4 : s4.epc = e1 ∧ s4.cairn = s3.cairn := ⟨rfl, rfl⟩
  have herr : s4.rdI R.EPC_ERR_ERR = satI 32 (b.error / 256) := by
    obtain ⟨hlo, hhi⟩ := satI32_range (b.error / 256)
    exact State.rdI_wrI_same32 s2 rfl hlo hhi
  have hstate : s4.rd R.EPC_STATE_STATE = u.rd R.EPC_STATE_STATE := by
    change s3.rd _ = _
    exact (State.rd_wrI_ne _ _ (by decide)).trans ((h2.1.read (by decide)).trans (h1.1.read (by decide)))
  have hcairn : s4.cairn = u.cairn := h4.2.trans (h2.2.trans h1.2)
  obtain ⟨v, hv⟩ := hend
  have hsame : t.epc = s4.epc ∧ t.cairn = s4.cairn ∧ ∀ f, f.key ≠ R.EPC_TRIM_TRIM.key → t.rd f = s4.rd f := by
    clear_value s4
    rcases hv with hv | hv
    · rw [hv]
      exact ⟨rfl, rfl, fun _ _ => rfl⟩
    · rw [hv]
      exact ⟨rfl, rfl, fun f hf => State.rd_wrI_ne s4 v hf⟩
  obtain ⟨hepc, hc, hrd⟩ := hsame
  rw [h4.1] at hepc
  obtain ⟨hused, hmisses, hgood, hstep⟩ := he
  refine ⟨?_, by rw [hepc, hused], by rw [hepc, hmisses], congrArg (fun x => x.epoch.voted) (hc.trans hcairn), (hrd _ (by decide)).trans hstate,
    by rw [hepc, hgood], by rw [hepc, hstep]⟩
  rw [State.rdI, hrd _ (by decide)]
  exact herr

/-! ### The beacons that a frame master sends (R39, R301) -/

/-- A beacon is put onto a port: it waits there, where the port takes cells, and nothing else changes but a free value. -/
structure PutOnly (s t : State) : Prop where
  frame : t = { s with ports := t.ports, ingest := t.ingest, freeCtr := t.freeCtr }

theorem PutOnly.refl (s : State) : PutOnly s s := ⟨rfl⟩
theorem PutOnly.trans {s t u : State} (h : PutOnly s t) (k : PutOnly t u) : PutOnly s u := by
  obtain ⟨e⟩ := h
  obtain ⟨d⟩ := k
  exact ⟨d.trans (by rw [e])⟩

section
variable {s t : State} (h : PutOnly s t)
include h
theorem PutOnly.rd (f : Fld) : t.rd f = s.rd f := by rw [h.frame]; rfl
theorem PutOnly.masters (r : Nat) : t.masters r = s.masters r := by rw [h.frame]; rfl
theorem PutOnly.term (r : Nat) : t.term r = s.term r := by rw [h.frame]; rfl
theorem PutOnly.state : t.epc = s.epc ∧ t.mem = s.mem ∧ t.cairn = s.cairn := by rw [h.frame]; exact ⟨rfl, rfl, rfl⟩
theorem PutOnly.portOn (id : Nat) : t.portOn id = s.portOn id := by rw [h.frame]; rfl
end

theorem State.enqueue_beacon {s : State} {id : Nat} {q : QCell} (hc : q.cell.cls = clsBeacon) :
    s.enqueue id q = if s.queues id then s.setPort id { s.port id with q0 := (s.port id).q0 ++ [q] } else s := by
  unfold State.enqueue
  split
  · exact if_pos hc
  · rfl

theorem State.putBeacon_put (s : State) (id : Nat) (pl : List Byte) (term : Nat) (corr : Int) :
    PutOnly s (s.putBeacon id pl term corr) ∧ (∀ k, k ≠ id → (s.putBeacon id pl term corr).port k = s.port k) := by
  unfold State.putBeacon State.sendCell
  rw [State.enqueue_beacon rfl]
  split
  · exact ⟨⟨rfl⟩, fun k hk => State.port_setPort_ne _ _ hk⟩
  · exact ⟨⟨rfl⟩, fun _ _ => rfl⟩

/-- The cell of a beacon. -/
def State.beaconCell (s : State) (id : Nat) (pl : List Byte) (term : Nat) (corr : Int) : Cell :=
  { mkCell clsBeacon 0 (if isSpur id then nodeId s.headNo 0 0 else nodeId s.headNo (portRing id) 0) noNode 0 false true
      (s.beaconPayload pl term corr) with dir := s.dirOut id }

/-- The beacon of a ring's term on a port that is UP. -/
theorem State.putBeacon_up {s : State} {id : Nat} {pl : List Byte} {term : Nat} {corr : Int} (hup : s.portState id = 2) (hlen : pl.length = 20) :
    ∃ c : Cell, ((s.putBeacon id pl term corr).port id).q0 = (s.port id).q0 ++ [{ cell := c, stomp := false }] ∧ c.cls = clsBeacon ∧ c.bcast = true ∧
      c.payload.take 24 = pl ++ natLE term 4 := by
  refine ⟨s.beaconCell id pl term corr, ?_, rfl, rfl, ?_⟩
  · unfold State.putBeacon State.sendCell
    rw [State.enqueue_beacon rfl, if_pos (State.queues_up (s := s.useFree) hup), State.port_setPort_same]
    rfl
  · change (State.beaconPayload _ pl term corr).take 24 = _
    unfold State.beaconPayload
    rw [List.take_of_length_le (Nat.le_of_eq hlen)]
    exact List.take_left' (by simp [hlen, natLE_length])

theorem State.noteDepart_put (s : State) (r : Nat) (corr : Int) : PutOnly s (s.noteDepart r corr) ∧ (s.noteDepart r corr).ports = s.ports := ⟨⟨rfl⟩, rfl⟩

/-- The beacons of one ring port that the head masters. -/
def State.ringBeacon (a : State) (pl : List Byte) (corr : Int) (r : Nat) : State :=
  if a.masters r && a.portOn (2 * r) then (((a.noteDepart r (corr + a.freeVal)).putBeacon (2 * r) pl (a.term r) corr).putBeacon (2 * r + 1) pl (a.term r) corr) else a

theorem State.ringBeacon_put (a : State) (pl : List Byte) (corr : Int) (r : Nat) :
    PutOnly a (a.ringBeacon pl corr r) ∧ ∀ k, k / 2 ≠ r → (a.ringBeacon pl corr r).port k = a.port k := by
  unfold State.ringBeacon
  split
  · obtain ⟨h1, hp1⟩ := a.noteDepart_put r (corr + a.freeVal)
    obtain ⟨h2, hp2⟩ := (a.noteDepart r (corr + a.freeVal)).putBeacon_put (2 * r) pl (a.term r) corr
    obtain ⟨h3, hp3⟩ := ((a.noteDepart r (corr + a.freeVal)).putBeacon (2 * r) pl (a.term r) corr).putBeacon_put (2 * r + 1) pl (a.term r) corr
    exact ⟨(h1.trans h2).trans h3, fun k hk => (hp3 k (by omega)).trans (hp2 k (by omega))⟩
  · exact ⟨.refl a, fun _ _ => rfl⟩

/-- Both ends of a ring port that the head masters have its beacon. -/
theorem State.ringBeacon_sends {a : State} {pl : List Byte} {corr : Int} {r e : Nat} (he : e < 2) (hm : a.masters r = true)
    (hon : a.portOn (2 * r) = true) (hup : a.portState (2 * r + e) = 2) (hlen : pl.length = 20) :
    ∃ c : Cell, ((a.ringBeacon pl corr r).port (2 * r + e)).q0 = (a.port (2 * r + e)).q0 ++ [{ cell := c, stomp := false }] ∧ c.cls = clsBeacon ∧
      c.bcast = true ∧ c.payload.take 24 = pl ++ natLE (a.term r) 4 := by
  have hgo : a.ringBeacon pl corr r =
      (((a.noteDepart r (corr + a.freeVal)).putBeacon (2 * r) pl (a.term r) corr).putBeacon (2 * r + 1) pl (a.term r) corr) :=
    if_pos (by simp [hm, hon])
  rw [hgo]
  let b := a.noteDepart r (corr + a.freeVal)
  obtain ⟨h2, hp2⟩ := b.putBeacon_put (2 * r) pl (a.term r) corr
  obtain ⟨h3, hp3⟩ := (b.putBeacon (2 * r) pl (a.term r) corr).putBeacon_put (2 * r + 1) pl (a.term r) corr
  have hb : b.port (2 * r + e) = a.port (2 * r + e) := rfl
  rcases (show e = 0 ∨ e = 1 by omega) with rfl | rfl
  · obtain ⟨c, hq, hrest⟩ := State.putBeacon_up (s := b) (id := 2 * r) (term := a.term r) (corr := corr) hup hlen
    refine ⟨c, ?_, hrest⟩
    rw [hp3 _ (by omega)]
    exact hq
  · obtain ⟨c, hq, hrest⟩ := State.putBeacon_up (s := b.putBeacon (2 * r) pl (a.term r) corr) (id := 2 * r + 1) (term := a.term r) (corr := corr)
      ((h2.rd _).trans hup) hlen
    rw [hp2 _ (by omega)] at hq
    exact ⟨c, hq, hrest⟩

/-- The ring ports below `n` have had their beacons, each once, and the others wait. -/
structure RingsBeaconed (s : State) (pl : List Byte) (n : Nat) (a : State) : Prop where
  put : PutOnly s a
  later : ∀ k, n ≤ k / 2 → a.port k = s.port k
  sent : ∀ r e, r < n → e < 2 → s.masters r = true → s.portOn (2 * r) = true → s.portState (2 * r + e) = 2 →
    ∃ c : Cell, (a.port (2 * r + e)).q0 = (s.port (2 * r + e)).q0 ++ [{ cell := c, stomp := false }] ∧ c.cls = clsBeacon ∧ c.bcast = true ∧
      c.payload.take 24 = pl ++ natLE (s.term r) 4

theorem ringsBeaconed (s : State) {pl : List Byte} (corr : Int) (hlen : pl.length = 20) (n : Nat) :
    RingsBeaconed s pl n (forN n (fun r a => a.ringBeacon pl corr r) s) := by
  induction n with
  | zero => exact ⟨.refl s, fun _ _ => rfl, fun _ _ h => absurd h (Nat.not_lt_zero _)⟩
  | succ n ih =>
    rw [forN_succ]
    generalize forN n (fun r a => a.ringBeacon pl corr r) s = a at *
    obtain ⟨hput, hother⟩ := a.ringBeacon_put pl corr n
    refine ⟨ih.put.trans hput, fun k hk => (hother k (by omega)).trans (ih.later k (by omega)), fun r e hr he hm hon hup => ?_⟩
    by_cases h : r = n
    · subst h
      obtain ⟨c, hq, hrest⟩ := State.ringBeacon_sends (a := a) (pl := pl) (corr := corr) he ((ih.put.masters r).trans hm) ((ih.put.portOn _).trans hon)
        ((ih.put.rd _).trans hup) hlen
      rw [ih.later _ (by omega), ih.put.term] at *
      exact ⟨c, hq, hrest⟩
    · rw [hother _ (by omega)]
      exact ih.sent r e (by omega) he hm hon hup

/-- The beacons onto the Spur ports leave the ring ports. -/
theorem State.spreadBeacon_spec (s : State) {pl : List Byte} (corr : Int) (skip : Nat) (hlen : pl.length = 20) :
    PutOnly s (s.spreadBeacon pl corr skip) ∧ ∀ r e, r < 12 → e < 2 → s.masters r = true → s.portOn (2 * r) = true → s.portState (2 * r + e) = 2 →
      ∃ c : Cell, ((s.spreadBeacon pl corr skip).port (2 * r + e)).q0 = (s.port (2 * r + e)).q0 ++ [{ cell := c, stomp := false }] ∧
        c.cls = clsBeacon ∧ c.bcast = true ∧ c.payload.take 24 = pl ++ natLE (s.term r) 4 := by
  have h := ringsBeaconed s corr hlen 12
  obtain ⟨hput, hport⟩ : PutOnly s (s.spreadBeacon pl corr skip) ∧
      ∀ k, k < 24 → (s.spreadBeacon pl corr skip).port k = (forN 12 (fun r a => a.ringBeacon pl corr r) s).port k := by
    refine forN_inv (fun a : State => PutOnly s a ∧ ∀ k, k < 24 → a.port k = (forN 12 (fun r a => a.ringBeacon pl corr r) s).port k)
      ⟨h.put, fun _ _ => rfl⟩ fun q a ⟨ha, hk⟩ => ?_
    split
    · obtain ⟨hp, hother⟩ := a.putBeacon_put (24 + q) pl a.termRecord corr
      exact ⟨ha.trans hp, fun k hlt => (hother k (by omega)).trans (hk k hlt)⟩
    · exact ⟨ha, hk⟩
  refine ⟨hput, fun r e hr he hm hon hup => ?_⟩
  rw [hport _ (by omega)]
  exact h.sent r e hr he hm hon hup

/-- The head has its beacon of epoch `n` on the way. -/
def State.relaying (s : State) (n : Nat) : State :=
  { s.setEpc { s.epc with relayed := some n } with auth := { s.auth with beaconDue := false } }

theorem State.relaying_rest (s : State) (n : Nat) :
    (s.relaying n).epc.relayed = some n ∧ (s.relaying n).regs = s.regs ∧ (s.relaying n).mem = s.mem ∧ (s.relaying n).cairn = s.cairn :=
  ⟨rfl, rfl, rfl, rfl⟩

theorem State.beaconSend_master {s : State} (hb : s.build = .head) (hruns : s.epcRuns = true) (hmaster : s.epState = epMaster)
    (hrole : s.rd R.CRN_HEAD_ROLE ≠ roleResigned) (hnew : s.epc.relayed ≠ some s.epochComing) :
    s.beaconSend = (s.relaying s.epochComing).spreadBeacon (s.ownBeacon false) 0 99 := by
  unfold State.beaconSend
  split
  · next h => exact absurd (hb.symm.trans h) (by decide)
  · exact (if_neg (by simp [hruns, hnew, hrole])).trans (if_pos hmaster)

theorem beaconSend_spreads {s : State} {n : Nat} (hb : s.build = .head) (hruns : s.epcRuns = true) (hmaster : s.epState = epMaster)
    (hrole : s.rd R.CRN_HEAD_ROLE ≠ roleResigned) (hn : n = s.epc.nextNumber.getD (epochNext s.epochNo)) (hnew : s.epc.relayed ≠ some n) :
    completes .beaconSend s (fun t =>
      t.epc.relayed = some n ∧ (∀ f, t.rd f = s.rd f) ∧ t.mem = s.mem ∧ t.cairn = s.cairn ∧
      ∀ r e, r < 12 → e < 2 → s.masters r = true → s.portOn (2 * r) = true → s.portState (2 * r + e) = 2 →
        ∃ c : Cell, (t.port (2 * r + e)).q0 = (s.port (2 * r + e)).q0 ++ [{ cell := c, stomp := false }] ∧ c.cls = clsBeacon ∧
          c.bcast = true ∧ c.payload.take 24 = s.ownBeacon false ++ natLE (s.term r) 4) := by
  have hlen : (s.ownBeacon false).length = 20 := by simp [State.ownBeacon, natLE_length]
  have hcoming : n = s.epochComing := hn
  subst hcoming
  obtain ⟨hput, hsent⟩ := (s.relaying s.epochComing).spreadBeacon_spec 0 99 hlen
  obtain ⟨hepc, hmem, hcairn⟩ := hput.state
  obtain ⟨urel, -, umem, ucairn⟩ := s.relaying_rest s.epochComing
  exact ⟨_, congrArg Host.Outcome.next (State.beaconSend_master hb hruns hmaster hrole hnew), by rw [hepc, urel], fun f => hput.rd f,
    hmem.trans umem, hcairn.trans ucairn, hsent⟩

/-! ### What a tile does with a beacon -/

theorem State.takeBeacon_first {u : State} (b : BeaconRec) (hops : Nat) (hb : u.build = .tile) (hfirst : u.epc.first = false) :
    ∃ e : Epc, e.nextPeriod = u.epc.nextPeriod ∧ u.takeBeacon b hops = (u.setEpc e).firstBeacon b := by
  refine ⟨if b.dir = 0 then { u.epc with hopsA := some hops } else { u.epc with hopsD := some hops }, by split <;> rfl, ?_⟩
  unfold State.takeBeacon
  split
  · exact if_pos (by split <;> simp [hfirst])
  · next h => exact absurd (hb.symm.trans h) (by decide)

/-- A beacon in time from the only direction heard. -/
theorem State.takeBeacon_later {u : State} {b : BeaconRec} (hops : Nat) (hb : u.build = .tile) (hfirst : u.epc.first = true)
    (hused : u.epc.used = false) (hd : u.epc.hopsD = none) (hdir : b.dir = 0) (hlate : b.late = false) :
    ∃ e : Epc, e.good = u.epc.good ∧ e.step = u.epc.step ∧ u.takeBeacon b hops = ((u.setEpc e).useDir 0).judgeBeacon b := by
  refine ⟨{ u.epc with hopsA := some hops }, rfl, rfl, ?_⟩
  unfold State.takeBeacon
  simp only [hb, hdir, if_true, hfirst, hused, hlate, Epc.chosen, hd]
  simp

theorem State.useDir_spec (s : State) (d : Nat) :
    sameElse s (s.useDir d) [R.EPC_STATE_DIR, R.EPC_EVT_DIR] ∧ (s.useDir d).epc = s.epc ∧ (s.useDir d).cairn = s.cairn := by
  unfold State.useDir
  split
  · exact ⟨.refl s _, rfl, rfl⟩
  · exact ⟨((sameElse.refl s _).wr (by simp)).count (by simp), rfl, rfl⟩

/-! ### The statement -/

section
variable {s : State} {port : Nat} {c : Cell} {arrival : Int} (hb : s.build = .tile) (hruns : s.epcRuns = true) (hcls : c.cls = clsBeacon)
  (hrec : s.receive port c = (true, s)) (hvalid : s.on R.CRN_MASTER_HEAD_VALID = true) (hterm : s.term 0 = pn c 20 4)
  (hhead : s.rd R.CRN_MASTER_HEAD_HEAD = nodeHead c.src)
include hb hruns hcls hrec hvalid hterm hhead

theorem beacon_first (hfirst : s.epc.first = false) :
    completes (.beacon port c arrival) s (fun t =>
      t.epochNo = pn c 0 4 ∧ t.epc.first = true ∧ t.rd R.EPC_STATE_DIR = c.dir % 2 ∧
      t.epc.used = !(s.beaconRec port c arrival).past ∧ t.epc.nextNumber = (if (s.beaconRec port c arrival).past then none else some (pn c 0 4)) ∧
      t.rd R.EPC_PERIOD_NS = s.rd R.EPC_PERIOD_NS ∧
      (pn c 8 4 = 0 → s.rd R.EPC_PERIOD_NEXT_NS = 0 → pn c 4 4 ≠ s.rd R.EPC_PERIOD_NS →
        t.rd R.EPC_EVT_MISMATCH = min (s.rd R.EPC_EVT_MISMATCH + 1) 4294967295 ∧
        t.epc.nextPeriod = (if periodOk (pn c 4 4) then some (pn c 4 4) else s.epc.nextPeriod))) := by
  obtain ⟨hframe, hbuild, hepc, -⟩ := s.beaconShown_rest c
  obtain ⟨e, he, hgo⟩ := State.takeBeacon_first (u := s.beaconShown c) (s.beaconRec port c arrival) c.hops (hbuild.trans hb) (by rw [hepc, hfirst])
  obtain ⟨hno, hf, hdir, hused, hnext, hperiod, hbad⟩ :=
    State.firstBeacon_tile (u := (s.beaconShown c).setEpc e) (b := s.beaconRec port c arrival) (hbuild.trans hb) (pn_lt c 0 4)
  refine ⟨_, (exec_beacon hb hruns hcls hrec hvalid hterm hhead).trans (congrArg Host.Outcome.next hgo), hno, hf, hdir, hused, hnext,
    hperiod.trans (hframe.read (by decide)), fun hn h0 hne => ?_⟩
  obtain ⟨hcount, htaken⟩ := hbad hn ((hframe.read (by decide)).trans h0) (fun h => hne (h.trans (hframe.read (by decide))))
  have hmis : ((s.beaconShown c).setEpc e).rd R.EPC_EVT_MISMATCH = s.rd R.EPC_EVT_MISMATCH := hframe.read (by decide)
  have hperiods : ((s.beaconShown c).setEpc e).epc.nextPeriod = s.epc.nextPeriod := he.trans (by rw [hepc])
  rw [hmis] at hcount
  rw [hperiods] at htaken
  exact ⟨hcount, htaken⟩

theorem beacon_later (hfirst : s.epc.first = true) (hused : s.epc.used = false) (hd : s.epc.hopsD = none) (hdir : c.dir = 0)
    (hlate : (s.beaconRec port c arrival).late = false) :
    completes (.beacon port c arrival) s (fun t =>
      t.rdI R.EPC_ERR_ERR = satI 32 ((s.beaconRec port c arrival).error / 256) ∧ t.epc.used = true ∧ t.epc.misses = 0 ∧
      t.epochNo = s.epochNo ∧ t.epState = s.epState ∧
      t.epc.good = (if (s.beaconRec port c arrival).error.natAbs ≤ 327680 then min 8 (s.epc.good + 1) else 0) ∧
      t.epc.step = (if 131072000 < (s.beaconRec port c arrival).error.natAbs ∧ s.epState ≠ epAcquire
        then some (s.beaconRec port c arrival).error else s.epc.step)) := by
  obtain ⟨hframe, hbuild, hepc, hcairn⟩ := s.beaconShown_rest c
  obtain ⟨e, hgood, hstep, hgo⟩ := State.takeBeacon_later (u := s.beaconShown c) (b := s.beaconRec port c arrival) c.hops (hbuild.trans hb)
    (by rw [hepc, hfirst]) (by rw [hepc, hused]) (by rw [hepc, hd]) hdir hlate
  let u := ((s.beaconShown c).setEpc e).useDir 0
  obtain ⟨hufr, hue, huc⟩ := ((s.beaconShown c).setEpc e).useDir_spec 0
  have hstate : u.epState = s.epState := (hufr.read (by decide)).trans (hframe.read (by decide))
  obtain ⟨h1, h2, h3, h4, h5, h6, h7⟩ := u.judgeBeacon_spec hlate
  have hug : u.epc.good = s.epc.good := (congrArg Epc.good hue).trans (hgood.trans (by rw [hepc]))
  have hus : u.epc.step = s.epc.step := (congrArg Epc.step hue).trans (hstep.trans (by rw [hepc]))
  rw [hug] at h6
  rw [hus, hstate] at h7
  exact ⟨_, (exec_beacon hb hruns hcls hrec hvalid hterm hhead).trans (congrArg Host.Outcome.next hgo), h1, h2, h3,
    h4.trans (congrArg (fun x => x.epoch.voted) (huc.trans hcairn)), h5.trans hstate, h6, h7⟩

end

/-- Settles O23: a tile's first beacon, a later one, and the beacons of a frame master. -/
theorem beacons : Obligations.Beacons := by
  unfold Obligations.Beacons
  refine ⟨fun port c arrival s hb hruns hcls hrec hvalid hterm hhead =>
    ⟨fun hfirst => beacon_first hb hruns hcls hrec hvalid hterm hhead hfirst,
      fun hfirst hused hd hdir hlate => beacon_later hb hruns hcls hrec hvalid hterm hhead hfirst hused hd hdir hlate⟩,
    fun s n hb hruns hmaster hrole hn hnew => beaconSend_spreads hb hruns hmaster hrole hn hnew⟩

end Sys2Proof.Machine
end

section
/-! O28: the duplicate window, and the locators of a capture (R129, R140 to R143, R295). -/

namespace Sys2Proof.Machine

/-! ### The duplicate window (R295) -/

/-- The key table after a step of a key's window. -/
theorem keyFind_step {l : List KeyEnt} {cls id : Nat} {e e' : KeyEnt} (h : keyFind l cls id = some e) (hcls : e'.cls = e.cls) (hid : e'.id = e.id)
    (n : Nat) :
    (keyFind (l.map (fun (k : KeyEnt) => if k.cls = cls && k.id = id then { e' with used := n } else k)) cls id).map KeyEnt.h = some e'.h := by
  unfold keyFind at *
  have he := List.find?_some h
  simp only [Bool.and_eq_true, decide_eq_true_eq] at he
  obtain ⟨h1, h2⟩ := he
  induction l with
  | nil => cases h
  | cons k l ih =>
    by_cases hk : k.cls = cls ∧ k.id = id
    · simp [hk, hcls, hid, h1, h2]
    · have hk' : (decide (k.cls = cls) && decide (k.id = id)) = false := by simpa using hk
      rw [List.map_cons, hk', if_neg Bool.false_ne_true, List.find?_cons_of_neg (by simp [hk'])]
      rw [List.find?_cons_of_neg (by simp [hk'])] at h
      exact ih h

/-- The key table with the window `e'` of a control cell's originator. -/
def State.rekeyed (s : State) (c : Cell) (e' : KeyEnt) : State :=
  { s with seqs := { s.seqs with
      keys := s.seqs.keys.map (fun (k : KeyEnt) => if k.cls = clsControl && k.id = c.src then { e' with used := s.seqs.stamp } else k)
      stamp := s.seqs.stamp + 1 } }

theorem State.dedup_known {s : State} {port : Nat} {c : Cell} {e : KeyEnt} (hcls : c.cls = clsControl)
    (hkey : keyFind s.seqs.keys clsControl c.src = some e) :
    (s.dedup port c).2 = match (windowStep e (c.seq % 65536) c.sync).1 with
      | .accept => s.rekeyed c (windowStep e (c.seq % 65536) c.sync).2
      | .dup => if isSpur port then s.rekeyed c (windowStep e (c.seq % 65536) c.sync).2
          else (s.rekeyed c (windowStep e (c.seq % 65536) c.sync).2).count (R.RING_EVT_DUP (portRing port))
      | .stale => if isSpur port then s.rekeyed c (windowStep e (c.seq % 65536) c.sync).2
          else (s.rekeyed c (windowStep e (c.seq % 65536) c.sync).2).count (R.RING_EVT_STALE (portRing port)) := by
  have hkid : (if clsControl = 2 then c.stream else c.src) = c.src := if_neg (by decide)
  unfold State.dedup
  dsimp only
  rw [hcls, hkid, hkey]
  dsimp only
  cases (windowStep e (c.seq % 65536) c.sync).1 <;> rfl

section
variable {s : State} {port : Nat} {c : Cell} {e : KeyEnt} (hb : s.build = .tile) (he : portExists .tile port = true) (ha : s.asleep port = false)
  (hup : s.portState port = 2) (hloop : s.loopOf port = 0) (hh : hcrcOk c = true) (hty : typeOk c = true) (htr : trailerOk c = true)
  (hcls : c.cls = clsControl) (htyp : c.typ = tEvent) (hhops : c.hops < 65) (hbc : c.bcast = true)
include hb he ha hup hloop hh hty htr hcls htyp hhops hbc

/-- An EVENT cell at a tile passes the duplicate window, and no more. -/
theorem exec_event_tile : isSpur port = false ∧ exec (.event port c) s = .next (s.dedup port c).2 := by
  have hspur : isSpur port = false := by
    simp only [portExists, Bool.or_eq_true, decide_eq_true_eq] at he
    exact decide_eq_false (by omega)
  refine ⟨hspur, ?_⟩
  have hcells : s.cellsOn port = true := by simp [State.cellsOn, hb, he, ha, hloop, State.lanesIn, hup]
  have hlocal : linkLocal c = false := by simp [linkLocal, htyp, tEvent, tNeigh, tDlyReq, tDlyRsp]
  have hrec : (s.receive port c).2 = (s.dedup port c).2 := by
    unfold State.receive
    rw [if_neg (by simp [hcells, hloop]), if_neg (by simp [hh, hty, htr, hlocal, hspur]; omega), if_neg (by simp [hspur]), if_neg (by simp [hbc]),
      if_pos (by simp [classKeyed, hcls, clsControl])]
    generalize s.dedup port c = d
    obtain ⟨d, t⟩ := d
    cases d <;> rfl
  change Host.Outcome.next (s.eventCell port c) = _
  unfold State.eventCell
  rw [if_neg (by simp [hcls, htyp])]
  dsimp only
  rw [if_neg (by simp [State.isTile, hb]), hrec]

theorem event_dup (hkey : keyFind s.seqs.keys clsControl c.src = some e) (hsq : c.seq % 65536 = e.h) :
    completes (.event port c) s (fun t =>
      t.rd (R.RING_EVT_DUP (portRing port)) = min (s.rd (R.RING_EVT_DUP (portRing port)) + 1) 4294967295 ∧
      (keyFind t.seqs.keys clsControl c.src).map KeyEnt.h = some e.h ∧ sameElse s t [R.RING_EVT_DUP (portRing port)]) := by
  obtain ⟨hspur, hgo⟩ := exec_event_tile hb he ha hup hloop hh hty htr hcls htyp hhops hbc
  have hstep : windowStep e (c.seq % 65536) c.sync = (.dup, e) := if_pos (.inl (by omega))
  refine ⟨(s.rekeyed c e).count (R.RING_EVT_DUP (portRing port)), hgo.trans (congrArg Host.Outcome.next ?_),
    State.rd_count32 (s.rekeyed c e) rfl, keyFind_step hkey rfl rfl _,
    ((sameElse.refl s _).of_eq rfl rfl rfl : sameElse s (s.rekeyed c e) _).count (by simp)⟩
  rw [State.dedup_known hcls hkey, hstep]
  exact if_neg (by simp [hspur])

theorem event_new (hkey : keyFind s.seqs.keys clsControl c.src = some e) (h1 : e.h < c.seq % 65536) (h2 : c.seq % 65536 < e.h + 32768)
    (hsync : c.sync = false) :
    completes (.event port c) s (fun t =>
      (keyFind t.seqs.keys clsControl c.src).map KeyEnt.h = some (c.seq % 65536) ∧ sameElse s t []) := by
  obtain ⟨hspur, hgo⟩ := exec_event_tile hb he ha hup hloop hh hty htr hcls htyp hhops hbc
  let e' : KeyEnt := { e with h := c.seq % 65536, map := (e.map * 2 ^ ((c.seq % 65536 + 65536 - e.h) % 65536) + 1) % 2 ^ 4096 }
  have hstep : windowStep e (c.seq % 65536) c.sync = (.accept, e') := by
    have hd : (c.seq % 65536 + 65536 - e.h) % 65536 < 32768 ∧ (c.seq % 65536 + 65536 - e.h) % 65536 ≠ 0 := by omega
    unfold windowStep
    dsimp only
    rw [if_neg (by omega), if_neg (by simp [hsync]), if_pos hd.1]
  refine ⟨s.rekeyed c e', hgo.trans (congrArg Host.Outcome.next ?_), keyFind_step (e' := e') hkey rfl rfl _,
    (sameElse.refl s _).of_eq rfl rfl rfl⟩
  rw [State.dedup_known hcls hkey, hstep]

end

/-! ### What a FRAME locator starts (R140, R142) -/

theorem State.layer_set (s : State) (h k : Nat) (x : Layer) : (s.setLayer h k x).layer h k = x := Sparse.look_put_same _ _ _ _

/-- Every layer of a list is given a capture. -/
theorem layers_set {l : List (Nat × Nat)} {x : Capture} {s : State} {h k : Nat} (hm : (h, k) ∈ l) :
    ((forL l (fun e a => a.setLayer e.1 e.2 { a.layer e.1 e.2 with cap := some x }) s).layer h k).cap = some x := by
  have hset (e : Nat × Nat) (a : State) (h' : e = (h, k) ∨ (a.layer h k).cap = some x) :
      ((a.setLayer e.1 e.2 { a.layer e.1 e.2 with cap := some x }).layer h k).cap = some x := by
    by_cases hk : h * 16 + k = e.1 * 16 + e.2
    · have : (a.setLayer e.1 e.2 { a.layer e.1 e.2 with cap := some x }).layer h k = { a.layer e.1 e.2 with cap := some x } := by
        rw [State.layer, hk]
        exact State.layer_set a _ _ _
      rw [this]
    · exact (congrArg Layer.cap (Sparse.look_put_ne _ _ _ hk)).trans (h'.resolve_left fun he => hk (by rw [he]))
  induction l generalizing s with
  | nil => cases hm
  | cons e l ih =>
    rcases List.mem_cons.1 hm with rfl | hm
    · exact forL_inv (fun t : State => (t.layer h k).cap = some x) (x := s.setLayer h k { s.layer h k with cap := some x })
        (hset (h, k) s (.inl rfl)) fun e a ha => hset e a (.inr ha)
    · exact ih hm

/-- The bits of the cells that carry the rectangle. -/
theorem bitOf_setBits (m lo n i : Nat) : bitOf (setBits m lo n) i = (bitOf m i || decide (lo ≤ i ∧ i < lo + n)) := by
  have hor : setBits m lo n = m ||| (2 ^ n - 1) * 2 ^ lo := rfl
  rw [bitOf_eq_testBit, bitOf_eq_testBit, hor, Nat.testBit_or, Nat.testBit_mul_two_pow, Nat.testBit_two_pow_sub_one]
  congr 1
  rw [Bool.eq_iff_iff]
  simp only [Bool.and_eq_true, decide_eq_true_eq]
  omega

/-- A loop that establishes a property at one of its turns and keeps it at every other. -/
theorem forN_hits {α : Type} {P Q : α → Prop} {n k : Nat} {f : Nat → α → α} {s : α} (hk : k < n) (hs : Q s) (hQ : ∀ i < n, ∀ a, Q a → Q (f i a))
    (hit : ∀ a, Q a → P (f k a)) (hP : ∀ i < n, ∀ a, P a → P (f i a)) : P (forN n f s) := by
  induction n with
  | zero => exact absurd hk (Nat.not_lt_zero _)
  | succ n ih =>
    rw [forN_succ]
    by_cases h : k = n
    · rw [← h]
      exact hit _ (forN_inv_lt hs fun i hi => hQ i (by omega))
    · exact hP n (Nat.lt_succ_self n) _ (ih (by omega) (fun i hi => hQ i (by omega)) fun i hi => hP i (by omega))

theorem wireBits_pos (f : Nat) : 0 < wireBits f := by
  unfold wireBits
  split <;> decide

theorem capNeed_bit {u0 u1 y0 y1 upl wb r v : Nat} (hwb : 0 < wb) (hr0 : y0 ≤ r) (hr1 : r < y1) (hv0 : u0 ≤ v) (hv1 : v < u1) :
    bitOf (capNeed u0 u1 y0 y1 upl wb) ((r * upl + v) * wb / 2048) = true := by
  unfold capNeed
  refine forN_hits (P := fun m => bitOf m ((r * upl + v) * wb / 2048) = true) (Q := fun _ => True) (k := r - y0) (by omega) trivial
    (fun _ _ _ _ => trivial) (fun m _ => ?_) (fun i _ m hm => ?_)
  · rw [bitOf_setBits, show y0 + (r - y0) = r by omega]
    have hlo : (r * upl + u0) * wb / 2048 ≤ (r * upl + v) * wb / 2048 := Nat.div_le_div_right (Nat.mul_le_mul_right _ (by omega))
    have hhi : (r * upl + v) * wb / 2048 ≤ ((r * upl + u1) * wb - 1) / 2048 :=
      Nat.div_le_div_right (Nat.le_sub_one_of_lt (Nat.mul_lt_mul_of_pos_right (by omega) hwb))
    simp only [Bool.or_eq_true, decide_eq_true_eq]
    exact .inr ⟨hlo, by omega⟩
  · rw [bitOf_setBits, hm]
    rfl

/-- The capture that a FRAME locator names, before its window. -/
def State.capNamed (s : State) (c : Cell) : Capture := capEmpty .frame (pn c 4 4) s.latchNo c.stream (pn c 8 4)

/-- A layer refuses a FRAME locator. -/
def State.capReject (s : State) (h k : Nat) (c : Cell) : State :=
  (s.setLayer h k { s.layer h k with cap := some { s.capNamed c with kind := .reject } }).count (R.LYR_EVT_REJECT h k)

theorem State.capReject_spec (s : State) (h k : Nat) (c : Cell) :
    ((s.capReject h k c).layer h k).cap.map (fun x : Capture => x.kind) = some .reject ∧
      (s.capReject h k c).rd (R.LYR_EVT_REJECT h k) = min (s.rd (R.LYR_EVT_REJECT h k) + 1) 4294967295 ∧
      sameElse s (s.capReject h k c) [R.LYR_EVT_REJECT h k] := by
  let v := s.setLayer h k { s.layer h k with cap := some { s.capNamed c with kind := .reject } }
  refine ⟨?_, State.rd_count32 v rfl, ((sameElse.refl s _).of_eq rfl rfl rfl : sameElse s v _).count (by simp)⟩
  change (v.layer h k).cap.map _ = _
  rw [State.layer_set]
  rfl

/-- The part of a FRAME locator's rectangle that lies in the half's window, in a layer's format (R140). -/
structure CapWindow (s : State) (h k : Nat) (c : Cell) (f ix0 ix1 iy0 iy1 x0 x1 : Nat) : Prop where
  fmt : f = s.rd (R.LYR_CFG_FMT h k)
  left : ix0 = max (pn c 24 2) (s.rd (R.PRS_WIN_XY_X h))
  right : ix1 = min (pn c 24 2 + pn c 28 2) (s.rd (R.PRS_WIN_XY_X h) + s.rd (R.PRS_WIN_SIZE_W h))
  top : iy0 = max (pn c 26 2) (s.rd (R.PRS_WIN_XY_Y h))
  bottom : iy1 = min (pn c 26 2 + pn c 30 2) (s.rd (R.PRS_WIN_XY_Y h) + s.rd (R.PRS_WIN_SIZE_H h))
  first : x0 = (ix0 - pn c 24 2) / capAlign f * capAlign f
  last : x1 = min (pn c 28 2) ((ix1 - pn c 24 2 + capAlign f - 1) / capAlign f * capAlign f)

/-- The capture of a rectangle. -/
def State.capRect (s : State) (h : Nat) (c : Cell) (f ix0 ix1 iy0 iy1 x0 x1 : Nat) : Capture :=
  { s.capNamed c with
    u := ix0 - s.rd (R.PRS_WIN_XY_X h), v := iy0 - s.rd (R.PRS_WIN_XY_Y h), w := ix1 - ix0, h := iy1 - iy0, ofsX := ix0 - pn c 24 2 - x0
    u0 := x0 / unitPix f, u1 := (x1 + unitPix f - 1) / unitPix f, y0 := iy0 - pn c 26 2, y1 := iy1 - pn c 26 2
    upl := (pn c 28 2 + unitPix f - 1) / unitPix f
    need := capNeed (x0 / unitPix f) ((x1 + unitPix f - 1) / unitPix f) (iy0 - pn c 26 2) (iy1 - pn c 26 2) ((pn c 28 2 + unitPix f - 1) / unitPix f)
      (wireBits f) }

theorem State.capStart_eq {s : State} {h k : Nat} {c : Cell} {f ix0 ix1 iy0 iy1 x0 x1 : Nat} (w : CapWindow s h k c f ix0 ix1 iy0 iy1 x0 x1) :
    s.capStart h k c =
      if pb c 0x20 % 16 ≠ s.rd (R.PRS_CFG_SURFACE h) then s.setLayer h k { s.layer h k with cap := none }
      else if pb c 0x21 ≠ f then s.capReject h k c
      else if ix1 ≤ ix0 ∨ iy1 ≤ iy0 then s.setLayer h k { s.layer h k with cap := some (s.capNamed c) }
      else if s.rd (R.LYR_STRIDE_BYTES h k) < (((x1 + unitPix f - 1) / unitPix f - x0 / unitPix f) * memBits f + 7) / 8 ∨
          s.rd (R.LYR_BUFSIZE_SIZE h k) * 4096 < (iy1 - pn c 26 2 - (iy0 - pn c 26 2)) * s.rd (R.LYR_STRIDE_BYTES h k) then s.capReject h k c
      else s.setLayer h k { s.layer h k with cap := some (s.capRect h c f ix0 ix1 iy0 iy1 x0 x1) } := by
  obtain ⟨rfl, rfl, rfl, rfl, rfl, rfl, rfl⟩ := w
  rfl

/-- A locator in time is kept, and is for the layers that capture its stream. -/
theorem State.capLocator_now {u : State} {c : Cell} (hnow : u.latchPassed (pn c 4 4) = false) :
    ∃ l : Layers, l.latched = u.eng.lay.latched ∧ u.capLocator c =
      if pn c 0 4 = 2 then
        forL (u.captors c.stream) (fun e a => a.setLayer e.1 e.2
          { a.layer e.1 e.2 with cap := some (capEmpty .again (pn c 4 4) u.latchNo c.stream (pn c 8 4)) }) (u.setLay l)
      else if pn c 0 4 = 0 then forL (u.captors c.stream) (fun e a => a.capStart e.1 e.2 c) (u.setLay l)
      else u.setLay l :=
  ⟨{ u.eng.lay with
      locs := Sparse.put u.eng.lay.locs c.stream
        { index := pn c 12 4, sq := pn c 16 2, cells := if pn c 0 4 = 2 then 0 else pn c 20 4, epoch := pn c 4 4 } }, rfl, if_neg (by simp [hnow])⟩

/-! ### Locators (R140 to R143) -/

theorem State.countLate_spec (u : State) (l : List (Nat × Nat)) :
    (∀ h, h < 2 → (u.countLate l).rd (R.LYR_EVT_LATE h) =
      if l.any (fun e => e.1 = h) then min (u.rd (R.LYR_EVT_LATE h) + 1) 4294967295 else u.rd (R.LYR_EVT_LATE h)) ∧
      (u.countLate l).eng = u.eng ∧ sameElse u (u.countLate l) [R.LYR_EVT_LATE 0, R.LYR_EVT_LATE 1] := by
  have hstep (a : State) (h : Nat) :
      let b := if l.any (fun e => e.1 = h) then a.count (R.LYR_EVT_LATE h) else a
      b.rd (R.LYR_EVT_LATE h) = (if l.any (fun e => e.1 = h) then min (a.rd (R.LYR_EVT_LATE h) + 1) 4294967295 else a.rd (R.LYR_EVT_LATE h)) ∧
        b.eng = a.eng ∧ sameElse a b [R.LYR_EVT_LATE h] := by
    dsimp only
    split
    · exact ⟨State.rd_count32 a rfl, rfl, (sameElse.refl a _).count (by simp)⟩
    · exact ⟨rfl, rfl, .refl a _⟩
  obtain ⟨h0, e0, f0⟩ := hstep u 0
  let a := if l.any (fun e => e.1 = 0) then u.count (R.LYR_EVT_LATE 0) else u
  obtain ⟨h1, e1, f1⟩ := hstep a 1
  have ha1 : a.rd (R.LYR_EVT_LATE 1) = u.rd (R.LYR_EVT_LATE 1) := f0.read (by decide)
  refine ⟨fun h hh => ?_, e1.trans e0, (f0.mono (by simp)).trans (f1.mono (by simp))⟩
  rcases (show h = 0 ∨ h = 1 by omega) with rfl | rfl
  · exact (f1.read (by decide)).trans h0
  · rw [ha1] at h1
    exact h1

section
variable {s u : State} {port : Nat} {c : Cell} (hb : s.build = .tile) (hcls : c.cls = clsPixel) (hrec : s.receive port c = (true, u))
include hb hcls hrec

theorem exec_locator (hloc : c.loc = true) : exec (.locator port c) s = .next (u.capLocator c) := by
  change Host.Outcome.next (s.pixelIn port c true) = _
  unfold State.pixelIn
  rw [if_neg (by simp [hcls, hloc]), hrec]
  dsimp only
  rw [if_neg (by simp)]
  split
  · rfl
  · next h => exact absurd (hb.symm.trans h) (by decide)

theorem exec_pixelCell (hloc : c.loc = false) : exec (.pixelCell port c) s = .next (u.capPixel c).dramSlots := by
  change Host.Outcome.next (s.pixelIn port c false) = _
  unfold State.pixelIn
  rw [if_neg (by simp [hcls, hloc]), hrec]
  dsimp only
  rw [if_neg (by simp)]
  split
  · rfl
  · next h => exact absurd (hb.symm.trans h) (by decide)

/-- A late locator is counted, and nothing more. -/
theorem locator_late (hloc : c.loc = true) (hpast : u.latchPassed (pn c 4 4) = true) :
    completes (.locator port c) s (fun t =>
      (∀ h, h < 2 → t.rd (R.LYR_EVT_LATE h) =
        if (u.captors c.stream).any (fun e => e.1 = h) then min (u.rd (R.LYR_EVT_LATE h) + 1) 4294967295 else u.rd (R.LYR_EVT_LATE h)) ∧
      t.eng = u.eng ∧ sameElse u t [R.LYR_EVT_LATE 0, R.LYR_EVT_LATE 1]) := by
  refine ⟨u.countLate (u.captors c.stream), (exec_locator hb hcls hrec hloc).trans (congrArg Host.Outcome.next (if_pos hpast)), ?_⟩
  exact u.countLate_spec _

/-- A REPEAT locator gives each capturing layer the result "again". -/
theorem locator_repeat (hloc : c.loc = true) (hkind : pn c 0 4 = 2) (hnow : u.latchPassed (pn c 4 4) = false) :
    completes (.locator port c) s (fun t =>
      (∀ h k, h < 2 → k < 16 → (h, k) ∈ u.captors c.stream →
        (t.layer h k).cap = some (capEmpty .again (pn c 4 4) u.latchNo c.stream (pn c 8 4))) ∧ sameElse u t []) := by
  obtain ⟨l, -, hgo⟩ := State.capLocator_now hnow
  refine ⟨_, (exec_locator hb hcls hrec hloc).trans (congrArg Host.Outcome.next (hgo.trans (if_pos hkind))), fun h k _ _ hm => layers_set hm, ?_⟩
  exact forL_inv (fun t : State => sameElse u t []) ((sameElse.refl u []).of_eq rfl rfl rfl) fun e a ha => ha.of_eq rfl rfl rfl

/-- A FRAME locator starts the capture of the one layer that captures its stream. -/
theorem exec_frame (hloc : c.loc = true) (hkind : pn c 0 4 = 0) (hnow : u.latchPassed (pn c 4 4) = false) {h k : Nat}
    (hone : u.captors c.stream = [(h, k)]) :
    ∃ l : Layers, l.latched = u.eng.lay.latched ∧ exec (.locator port c) s = .next ((u.setLay l).capStart h k c) := by
  obtain ⟨l, hl, hgo⟩ := State.capLocator_now hnow
  refine ⟨l, hl, (exec_locator hb hcls hrec hloc).trans (congrArg Host.Outcome.next (hgo.trans ?_))⟩
  rw [if_neg (by rw [hkind]; decide), if_pos hkind, hone]
  rfl

end

/-! ### The FRAME locator's outcomes -/

theorem capAlign_eq (f : Nat) : capAlign f = if f = 4 then 4 else if f = 2 ∨ f = 5 then 2 else 1 := by
  unfold capAlign
  split_ifs <;> omega

/-- A locator that the layer refuses, in either way. -/
theorem capReject_counts {u v : State} (h k : Nat) (c : Cell) (hv : sameElse u v []) :
    ((v.capReject h k c).layer h k).cap.map (fun x : Capture => x.kind) = some .reject ∧
      (v.capReject h k c).rd (R.LYR_EVT_REJECT h k) = min (u.rd (R.LYR_EVT_REJECT h k) + 1) 4294967295 ∧
      sameElse u (v.capReject h k c) [R.LYR_EVT_REJECT h k] := by
  obtain ⟨hk, hc, hf⟩ := v.capReject_spec h k c
  rw [hv.read (by simp)] at hc
  exact ⟨hk, hc, (hv.mono (by simp)).trans hf⟩

section
variable {u v : State} {h k : Nat} {c : Cell} {f ix0 ix1 iy0 iy1 x0 x1 : Nat} (hv : sameElse u v [])
  (w : CapWindow v h k c f ix0 ix1 iy0 iy1 x0 x1)
include w hv

theorem capStart_other (hs : pb c 0x20 % 16 ≠ u.rd (R.PRS_CFG_SURFACE h)) :
    ((v.capStart h k c).layer h k).cap = none ∧ sameElse u (v.capStart h k c) [] := by
  rw [State.capStart_eq w, if_pos (by rw [hv.read (by simp)]; exact hs)]
  exact ⟨congrArg Layer.cap (v.layer_set h k _), hv.of_eq rfl rfl rfl⟩

variable (hs : pb c 0x20 % 16 = u.rd (R.PRS_CFG_SURFACE h))
include hs

theorem capStart_format (hf : pb c 0x21 ≠ f) : v.capStart h k c = v.capReject h k c := by
  rw [State.capStart_eq w, if_neg (by rw [hv.read (by simp)]; exact not_not.2 hs), if_pos hf]

variable (hf : pb c 0x21 = f)
include hf

theorem capStart_outside (hempty : ix1 ≤ ix0 ∨ iy1 ≤ iy0) :
    ((v.capStart h k c).layer h k).cap = some (v.capNamed c) ∧ sameElse u (v.capStart h k c) [] := by
  rw [State.capStart_eq w, if_neg (by rw [hv.read (by simp)]; exact not_not.2 hs), if_neg (not_not.2 hf), if_pos hempty]
  exact ⟨congrArg Layer.cap (v.layer_set h k _), hv.of_eq rfl rfl rfl⟩

variable (hx : ix0 < ix1) (hy : iy0 < iy1)
include hx hy

theorem capStart_large (hbig : u.rd (R.LYR_STRIDE_BYTES h k) < (((x1 + unitPix f - 1) / unitPix f - x0 / unitPix f) * memBits f + 7) / 8 ∨
      u.rd (R.LYR_BUFSIZE_SIZE h k) * 4096 < (iy1 - iy0) * u.rd (R.LYR_STRIDE_BYTES h k)) : v.capStart h k c = v.capReject h k c := by
  have htop : pn c 26 2 ≤ iy0 := by rw [w.top]; exact Nat.le_max_left ..
  rw [State.capStart_eq w, if_neg (by rw [hv.read (by simp)]; exact not_not.2 hs), if_neg (not_not.2 hf), if_neg (by omega),
    if_pos (by rw [hv.read (by simp), hv.read (by simp), show iy1 - pn c 26 2 - (iy0 - pn c 26 2) = iy1 - iy0 by omega]; exact hbig)]

theorem capStart_fits (h1 : (((x1 + unitPix f - 1) / unitPix f - x0 / unitPix f) * memBits f + 7) / 8 ≤ u.rd (R.LYR_STRIDE_BYTES h k))
    (h2 : (iy1 - iy0) * u.rd (R.LYR_STRIDE_BYTES h k) ≤ u.rd (R.LYR_BUFSIZE_SIZE h k) * 4096) :
    ((v.capStart h k c).layer h k).cap = some (v.capRect h c f ix0 ix1 iy0 iy1 x0 x1) ∧ sameElse u (v.capStart h k c) [] := by
  have htop : pn c 26 2 ≤ iy0 := by rw [w.top]; exact Nat.le_max_left ..
  rw [State.capStart_eq w, if_neg (by rw [hv.read (by simp)]; exact not_not.2 hs), if_neg (not_not.2 hf), if_neg (by omega),
    if_neg (by rw [hv.read (by simp), hv.read (by simp), show iy1 - pn c 26 2 - (iy0 - pn c 26 2) = iy1 - iy0 by omega]; omega)]
  exact ⟨congrArg Layer.cap (v.layer_set h k _), hv.of_eq rfl rfl rfl⟩

end

end Sys2Proof.Machine
end

section
/-! O28, continued: what a pixel cell writes into the fill buffer (R112, R127, R140, R141). -/

namespace Sys2Proof.Machine

/-! ### Writes that stay within a run of bytes -/

/-- `t` is `s` with other bytes in the `m` at offset `a` of a space, at most. -/
structure OnlyAt (sp : Space) (a m : Nat) (s t : State) : Prop where
  rest : t = { s with mem := t.mem }
  wf : Memory.wf s.mem = true → Memory.wf t.mem = true
  other : ∀ k, (∀ i < m, k ≠ sp.key (sp.fold s.build (a + i))) → memGet t.mem k = memGet s.mem k

theorem OnlyAt.build {sp : Space} {a m : Nat} {s t : State} (h : OnlyAt sp a m s t) : t.build = s.build := by rw [h.rest]

theorem OnlyAt.trans {sp : Space} {a m : Nat} {s t u : State} (h : OnlyAt sp a m s t) (k : OnlyAt sp a m t u) : OnlyAt sp a m s u :=
  ⟨k.rest.trans (by rw [h.rest]), fun hw => k.wf (h.wf hw), fun i hi => (k.other i (by rw [h.build]; exact hi)).trans (h.other i hi)⟩

theorem State.wrLE_rest (s : State) (sp : Space) (off v n : Nat) : s.wrLE sp off v n = { s with mem := (s.wrLE sp off v n).mem } := by
  induction n generalizing s off v with
  | zero => rfl
  | succ n ih => exact ih _ _ _

theorem State.wrLE_at (s : State) (sp : Space) (v : Nat) {off n a m : Nat} (hlo : a ≤ off) (hhi : off + n ≤ a + m) :
    OnlyAt sp a m s (s.wrLE sp off v n) := by
  refine ⟨s.wrLE_rest sp off v n, fun hw => State.wrLE_wf hw sp off v n, fun k hk => State.memGet_wrLE_ne s sp off v n fun i hi => ?_⟩
  have := hk (off - a + i) (by omega)
  rwa [show a + (off - a + i) = off + i by omega] at this

theorem State.wrBits_at (s : State) (sp : Space) (v : Nat) {line bit n a m : Nat} (hlo : a ≤ line + bit / 8)
    (hhi : line + bit / 8 + (bit % 8 + n + 7) / 8 ≤ a + m) : OnlyAt sp a m s (s.wrBits sp line bit n v) :=
  s.wrLE_at sp _ hlo hhi

/-- Bytes that lie apart read what they did. -/
theorem OnlyAt.rdLE {sp : Space} {a m b n : Nat} {s t : State} (h : OnlyAt sp a m s t)
    (hapart : ∀ i < n, ∀ j < m, sp.fold s.build (b + i) ≠ sp.fold s.build (a + j)) : t.rdLE sp b n = s.rdLE sp b n := by
  induction n generalizing b with
  | zero => rfl
  | succ n ih =>
    have hbyte : t.rd8 sp b = s.rd8 sp b := by
      unfold State.rd8
      rw [h.build]
      exact h.other _ fun j hj he => hapart 0 (by omega) j hj (Space.key_inj he)
    have htail := ih (b := b + 1) fun i hi j hj => by
      have := hapart (i + 1) (by omega) j hj
      rwa [show b + (i + 1) = b + 1 + i by omega] at this
    simp only [State.rdLE, hbyte, htail]

/-- Offsets of a run are different bytes. -/
def Unfolded (sp : Space) (b : Build) (a m : Nat) : Prop := ∀ i < m, ∀ j < m, sp.fold b (a + i) = sp.fold b (a + j) → i = j

/-- A number written to different bytes reads back, cut to its bytes. -/
theorem State.rdLE_wrLE_unfolded {s : State} (hm : Memory.wf s.mem = true) {sp : Space} {off n : Nat} (v : Nat) (hf : Unfolded sp s.build off n) :
    (s.wrLE sp off v n).rdLE sp off n = v % 256 ^ n := by
  induction n generalizing s off v with
  | zero => simp [State.rdLE, Nat.mod_one]
  | succ n ih =>
    have hbuild : (s.wrLE sp off v (n + 1)).build = s.build := State.build_wrLE s sp off v (n + 1)
    have hnext : Unfolded sp s.build (off + 1) n := fun i hi j hj he => by
      have := hf (i + 1) (by omega) (j + 1) (by omega)
      rw [show off + (i + 1) = off + 1 + i by omega, show off + (j + 1) = off + 1 + j by omega] at this
      have := this he
      omega
    have hlow : (s.wrLE sp off v (n + 1)).rd8 sp off = BitVec.ofNat 8 v := by
      unfold State.rd8
      rw [hbuild]
      refine ((s.wr8 sp off (BitVec.ofNat 8 v)).wrLE_at sp (v / 256) (Nat.le_refl (off + 1)) (Nat.le_refl _)).other _ (fun i hi hk => ?_) |>.trans
        (memGet_memPut_same hm _ _)
      have := hf 0 (by omega) (i + 1) (by omega)
      rw [Nat.add_zero, show off + (i + 1) = off + 1 + i by omega] at this
      exact absurd (this (Space.key_inj hk)) (by omega)
    have htail : (s.wrLE sp off v (n + 1)).rdLE sp (off + 1) n = v / 256 % 256 ^ n :=
      ih (s := s.wr8 sp off (BitVec.ofNat 8 v)) (memPut_wf hm _ _) (v / 256) hnext
    rw [State.rdLE, hlow, htail, BitVec.toNat_ofNat, pow_succ' 256 n]
    exact Nat.mod_mul.symm

theorem State.rdLE_add (s : State) (sp : Space) (off a b : Nat) : s.rdLE sp off (a + b) = s.rdLE sp off a + 256 ^ a * s.rdLE sp (off + a) b := by
  induction a generalizing off with
  | zero => simp [State.rdLE]
  | succ a ih =>
    rw [show a + 1 + b = (a + b) + 1 by omega]
    simp only [State.rdLE, ih, Nat.pow_succ]
    rw [show off + 1 + a = off + (a + 1) by omega]
    ring

/-! ### One unit of a cell (R112, R127) -/

/-- The formats whose units are whole bytes in memory, of which the obligation speaks (R138). -/
theorem unitBytes {f : Nat} (hf : f < 4 ∨ f = 6) :
    memBits f = 8 * (memBits f / 8) ∧ 0 < memBits f / 8 ∧ memBits f / 8 ≤ 5 ∧ wireBits f ≤ memBits f ∧
      (wireBits f = memBits f ∨ wireBits f = 30 ∧ memBits f = 32) := by
  rcases (show f = 0 ∨ f = 1 ∨ f = 2 ∨ f = 3 ∨ f = 6 by omega) with rfl | rfl | rfl | rfl | rfl <;> decide

/-- Bits of a run of bytes are written within it. -/
theorem State.wrBits_within (s : State) (sp : Space) (v : Nat) {line u m b n : Nat} (hb : b + n ≤ 8 * m) :
    OnlyAt sp (line + u) m s (s.wrBits sp line (8 * u + b) n v) :=
  s.wrBits_at sp v (by omega) (by omega)

/-- Whole bytes are written as a number is. -/
theorem State.rdLE_wrBits_whole {s : State} (hw : Memory.wf s.mem = true) {sp : Space} (v : Nat) {line u m : Nat}
    (hown : Unfolded sp s.build (line + u) m) : (s.wrBits sp line (8 * u) (8 * m) v).rdLE sp (line + u) m = v % 2 ^ (8 * m) := by
  have h8 : 8 * u / 8 = u ∧ 8 * u % 8 = 0 ∧ (8 * u % 8 + 8 * m + 7) / 8 = m := by omega
  have hpow : (256 : Nat) ^ m = 2 ^ (8 * m) := by rw [show (256 : Nat) = 2 ^ 8 by rfl, ← Nat.pow_mul]
  unfold State.wrBits
  dsimp only
  rw [h8.2.2, h8.1, h8.2.1, State.rdLE_wrLE_unfolded hw _ hown, hpow]
  have hold := s.rdLE_lt sp (line + u) m
  rw [hpow] at hold
  simp only [Nat.pow_zero, Nat.div_one, Nat.mul_one, Nat.mod_eq_of_lt hold, Nat.sub_self, Nat.zero_add, Nat.mod_mod]

/-- 30 bits of a dword are written, and then its two upper ones are cleared (R127). -/
theorem State.rdLE_wrBits_thirty {s : State} (hw : Memory.wf s.mem = true) {sp : Space} (v : Nat) {line u : Nat}
    (hown : Unfolded sp s.build (line + u) 4) :
    ((s.wrBits sp line (8 * u) 30 v).wrBits sp line (8 * u + 30) 2 0).rdLE sp (line + u) 4 = v % 2 ^ 30 := by
  have h8 : 8 * u / 8 = u ∧ 8 * u % 8 = 0 ∧ (8 * u + 30) / 8 = u + 3 ∧ (8 * u + 30) % 8 = 6 := by omega
  have hold := s.rdLE_lt sp (line + u) 4
  let s1 := s.wrBits sp line (8 * u) 30 v
  have hat : OnlyAt sp (line + u) 4 s s1 := s.wrBits_within (u := u) (b := 0) sp v (by decide)
  have h1 : s1.rdLE sp (line + u) 4 = s.rdLE sp (line + u) 4 - s.rdLE sp (line + u) 4 % 2 ^ 30 + v % 2 ^ 30 := by
    simp only [s1, State.wrBits]
    rw [h8.1, h8.2.1, show (0 + 30 + 7) / 8 = 4 by rfl, State.rdLE_wrLE_unfolded hw _ hown]
    simp only [Nat.pow_zero, Nat.div_one, Nat.mul_one]
    omega
  have hsplit1 := s1.rdLE_add sp (line + u) 3 1
  have hlow := s1.rdLE_lt sp (line + u) 3
  have htop := s1.rdLE_lt sp (line + u + 3) 1
  have htop1 : Unfolded sp s1.build (line + u + 3) 1 := fun i hi j hj _ => by omega
  have hlast : (s1.wrBits sp line (8 * u + 30) 2 0).rdLE sp (line + u + 3) 1 =
      s1.rdLE sp (line + u + 3) 1 - s1.rdLE sp (line + u + 3) 1 / 64 % 4 * 64 := by
    simp only [State.wrBits]
    rw [h8.2.2.1, h8.2.2.2, show (6 + 2 + 7) / 8 = 1 by rfl, ← Nat.add_assoc, State.rdLE_wrLE_unfolded (hat.wf hw) _ htop1]
    simp only [Nat.zero_mod, Nat.zero_mul, Nat.add_zero]
    omega
  have hkept : (s1.wrBits sp line (8 * u + 30) 2 0).rdLE sp (line + u) 3 = s1.rdLE sp (line + u) 3 := by
    refine (s1.wrBits_at sp 0 (a := line + u + 3) (m := 1) (by omega) (by omega)).rdLE fun i hi j hj => ?_
    rw [hat.build]
    intro he
    have := hown i (by omega) (3 + j) (by omega)
    rw [← Nat.add_assoc] at this
    exact absurd (this he) (by omega)
  have hsplit2 := (s1.wrBits sp line (8 * u + 30) 2 0).rdLE_add sp (line + u) 3 1
  rw [hkept, hlast] at hsplit2
  refine hsplit2.trans ?_
  rw [h1] at hsplit1
  generalize s1.rdLE sp (line + u) 3 = x at *
  generalize s1.rdLE sp (line + u + 3) 1 = y at *
  generalize s.rdLE sp (line + u) 4 = z at *
  norm_num at *
  omega

section
variable {s : State} {sp : Space} {f line w g idx data : Nat} (hf : f < 4 ∨ f = 6)
include hf

/-- A unit that the cell carries a bit of is written within its own bytes. -/
theorem State.capUnit_at (h1 : g * wireBits f < idx * 2048 + 2048) (h2 : idx * 2048 < (g + 1) * wireBits f) :
    OnlyAt sp (line + w * (memBits f / 8)) (memBits f / 8) s (s.capUnit sp f line w g idx data) := by
  obtain ⟨hbytes, -, -, hle, -⟩ := unitBytes hf
  have hwb := wireBits_pos f
  have hbit : w * memBits f = 8 * (w * (memBits f / 8)) := by
    conv_lhs => rw [hbytes]
    ring
  rw [Nat.add_mul, Nat.one_mul] at h2
  unfold State.capUnit
  extract_lets wb lo hi s1
  have hlo : lo - g * wb + (hi - lo) ≤ wb := by
    simp only [lo, hi, wb]
    omega
  have hwrite : OnlyAt sp (line + w * (memBits f / 8)) (memBits f / 8) s s1 := by
    simp only [s1, hbit]
    exact s.wrBits_within sp _ (by omega)
  split
  · rw [hbit]
    exact hwrite.trans (s1.wrBits_within sp _ (by omega))
  · exact hwrite

/-- A unit that the cell carries whole is written, and its memory unit's other bits are 0. -/
theorem State.rdLE_capUnit (hw : Memory.wf s.mem = true) (hown : Unfolded sp s.build (line + w * (memBits f / 8)) (memBits f / 8))
    (h1 : idx * 2048 ≤ g * wireBits f) (h2 : (g + 1) * wireBits f ≤ (idx + 1) * 2048) :
    (s.capUnit sp f line w g idx data).rdLE sp (line + w * (memBits f / 8)) (memBits f / 8) =
      data / 2 ^ (g * wireBits f - idx * 2048) % 2 ^ wireBits f := by
  obtain ⟨hbytes, -, -, hle, hcase⟩ := unitBytes hf
  have hbit : w * memBits f = 8 * (w * (memBits f / 8)) := by
    conv_lhs => rw [hbytes]
    ring
  rw [Nat.add_mul, Nat.one_mul, Nat.add_mul, Nat.one_mul] at h2
  unfold State.capUnit
  extract_lets wb lo hi s1
  have hlo : lo = g * wb := by simp only [lo, wb]; omega
  have hhi : hi = g * wb + wb := by simp only [hi, wb]; omega
  have hs1 : s1 = s.wrBits sp line (8 * (w * (memBits f / 8))) wb (data / 2 ^ (g * wireBits f - idx * 2048)) := by
    simp only [s1]
    rw [hlo, hhi, hbit, Nat.sub_self, Nat.add_zero, Nat.add_sub_cancel_left]
  rcases hcase with hsame | ⟨h30, h32⟩
  · have hwb : wb = 8 * (memBits f / 8) := hsame.trans hbytes
    rw [if_neg (by simp [wb, hsame]), hs1, hwb, State.rdLE_wrBits_whole hw _ hown, ← hwb]
  · have hwb : wb = 30 := h30
    rw [if_pos (by simp [hhi, h32, hwb]), hs1, hwb, hbit, h32]
    rw [h32] at hown
    generalize data / 2 ^ (g * wireBits f - idx * 2048) = d
    rw [h30]
    exact State.rdLE_wrBits_thirty hw _ hown

end

/-! ### The whole cell -/

/-- A loop over a list that establishes a property at one element and keeps it at every other. -/
theorem forL_hits {α β : Type} {P Q : α → Prop} {l : List β} {x : β} {f : β → α → α} {s : α} (hx : x ∈ l) (hs : Q s) (hQ : ∀ e ∈ l, ∀ a, Q a → Q (f e a))
    (hit : ∀ a, Q a → P (f x a)) (hP : ∀ e ∈ l, ∀ a, P a → P (f e a)) : P (forL l f s) := by
  have hkeep : ∀ m : List β, (∀ e ∈ m, e ∈ l) → ∀ a, P a → P (m.foldl (fun a e => f e a) a) := by
    intro m
    induction m with
    | nil => exact fun _ _ h => h
    | cons e m ih => exact fun hm a ha => ih (fun e he => hm e (List.mem_cons_of_mem _ he)) _ (hP e (hm e List.mem_cons_self) a ha)
  have hmain : ∀ m : List β, (∀ e ∈ m, e ∈ l) → x ∈ m → ∀ a, Q a → P (m.foldl (fun a e => f e a) a) := by
    intro m
    induction m with
    | nil => exact fun _ h => absurd h List.not_mem_nil
    | cons e m ih =>
      intro hm hx a ha
      have hm' : ∀ e ∈ m, e ∈ l := fun e he => hm e (List.mem_cons_of_mem _ he)
      rcases List.mem_cons.1 hx with rfl | hx
      · exact hkeep m hm' _ (hit a ha)
      · exact ih hm' hx _ (hQ e (hm e List.mem_cons_self) a ha)
  exact hmain l (fun _ h => h) hx s hs

/-- A run of a cell: its row lies in the rectangle, and the cell carries a bit of each of its units. -/
theorem Capture.runs_spec {cap : Capture} {wb idx : Nat} (hwb : 0 < wb) {e : Nat × Nat × Nat} (he : e ∈ cap.runs wb idx) :
    cap.y0 ≤ e.1 ∧ e.1 < cap.y1 ∧ ∀ j, j < e.2.2 - e.2.1 → cap.u0 ≤ e.2.1 + j ∧ e.2.1 + j < cap.u1 ∧
      (e.1 * cap.upl + (e.2.1 + j)) * wb < idx * 2048 + 2048 ∧ idx * 2048 < (e.1 * cap.upl + (e.2.1 + j) + 1) * wb := by
  unfold Capture.runs at he
  extract_lets c0 c1 lb r0 r1 at he
  obtain ⟨i, hi, rfl⟩ := List.mem_map.1 he
  have hi := List.mem_range.1 hi
  refine ⟨by simp only [r0, r1] at *; omega, by simp only [r0, r1] at *; omega, fun j hj => ?_⟩
  dsimp only at hj ⊢
  generalize (r0 + i) * cap.upl = q at *
  generalize hw : max cap.u0 (c0 / wb - q) + j = w at *
  have hlo : c0 / wb ≤ q + w := by omega
  have hhi : q + w < (c1 + wb - 1) / wb := by omega
  refine ⟨by omega, by omega, ?_, ?_⟩
  · have := (Nat.le_div_iff_mul_le hwb).1 (Nat.succ_le_of_lt hhi)
    rw [Nat.succ_mul] at this
    simp only [c1, c0] at this
    omega
  · have := (Nat.div_lt_iff_lt_mul hwb).1 (Nat.lt_succ_of_le hlo)
    exact this

/-- A unit of the rectangle that the cell carries whole lies in one of its runs. -/
theorem Capture.run_of_unit {cap : Capture} {wb idx r v : Nat} (hwb : 0 < wb) (hr0 : cap.y0 ≤ r) (hr1 : r < cap.y1) (hv0 : cap.u0 ≤ v) (hv1 : v < cap.u1)
    (hupl : cap.u1 ≤ cap.upl) (h1 : idx * 2048 ≤ (r * cap.upl + v) * wb) (h2 : (r * cap.upl + v + 1) * wb ≤ (idx + 1) * 2048) :
    ∃ e ∈ cap.runs wb idx, e.1 = r ∧ e.2.1 ≤ v ∧ v < e.2.2 := by
  unfold Capture.runs
  extract_lets c0 c1 lb r0 r1
  have hup : 0 < cap.upl := by omega
  have hlb : lb = cap.upl * wb := Nat.max_eq_right (Nat.mul_pos hup hwb)
  have hlbpos : 0 < lb := by rw [hlb]; exact Nat.mul_pos hup hwb
  have hc0 : c0 ≤ (r * cap.upl + v) * wb := h1
  have hc1 : (r * cap.upl + v) * wb + wb ≤ c1 := by
    rw [Nat.add_mul _ 1, Nat.one_mul] at h2
    simp only [c1, c0]
    omega
  have hrow : c0 / lb ≤ r := by
    refine Nat.lt_succ_iff.1 ((Nat.div_lt_iff_lt_mul hlbpos).2 (Nat.lt_of_le_of_lt hc0 ?_))
    calc (r * cap.upl + v) * wb < (r * cap.upl + cap.upl) * wb := Nat.mul_lt_mul_of_pos_right (by omega) hwb
      _ = r.succ * lb := by rw [hlb]; simp only [Nat.succ_eq_add_one]; ring
  have hrow1 : r ≤ (c1 - 1) / lb := by
    refine (Nat.le_div_iff_mul_le hlbpos).2 ?_
    have : r * lb ≤ (r * cap.upl + v) * wb := by
      rw [hlb, ← Nat.mul_assoc]
      exact Nat.mul_le_mul_right _ (Nat.le_add_right ..)
    omega
  refine ⟨_, List.mem_map.2 ⟨r - r0, List.mem_range.2 (by simp only [r0, r1]; omega), rfl⟩, ?_⟩
  have hr : r0 + (r - r0) = r := by simp only [r0]; omega
  dsimp only
  rw [hr]
  have hv : c0 / wb ≤ r * cap.upl + v := Nat.div_le_of_le_mul (by rw [Nat.mul_comm]; exact hc0)
  have hv' : r * cap.upl + v + 1 ≤ (c1 + wb - 1) / wb := (Nat.le_div_iff_mul_le hwb).2 (by rw [Nat.add_mul _ 1, Nat.one_mul]; omega)
  exact ⟨rfl, by omega, by omega⟩

/-- Different bytes of the fill buffer: the rectangle's rows do not reach past the space's size. -/
def CapFolds (sp : Space) (b : Build) (base n : Nat) : Prop := ∀ i j, i < n → j < n → sp.fold b (base + i) = sp.fold b (base + j) → i = j

theorem capFolds_layer (h : Nat) (b : Build) (base : Nat) {n : Nat} (hn : n ≤ 262144) : CapFolds (.layer h) b base n := by
  intro i j hi hj he
  simp only [Space.fold] at he
  omega

theorem capFolds_dram (b : Build) (base : Nat) {n : Nat} (hn : n ≤ 268435456) : CapFolds .dram b base n := by
  intro i j hi hj he
  cases b <;> simp only [Space.fold, dramSize] at he <;> omega

/-- Where a unit lies in the fill buffer: within the rectangle's rows, and apart from every other unit. -/
theorem unit_in_rows {stride m y0 y1 u0 u1 r v : Nat} (hs : (u1 - u0) * m ≤ stride) (hr0 : y0 ≤ r) (hr1 : r < y1) (hv0 : u0 ≤ v) (hv1 : v < u1) :
    (r - y0) * stride + (v - u0) * m + m ≤ (r - y0 + 1) * stride ∧ (r - y0 + 1) * stride ≤ (y1 - y0) * stride := by
  have hcol : (v - u0) * m + m ≤ (u1 - u0) * m := by
    rw [← Nat.succ_mul]
    exact Nat.mul_le_mul_right _ (by omega)
  refine ⟨?_, Nat.mul_le_mul_right _ (by omega)⟩
  rw [Nat.add_mul, Nat.one_mul]
  omega

theorem units_apart {stride m y0 y1 u0 u1 r v r' v' : Nat} (hs : (u1 - u0) * m ≤ stride) (hr0 : y0 ≤ r) (hr1 : r < y1) (hv0 : u0 ≤ v) (hv1 : v < u1)
    (hr0' : y0 ≤ r') (hr1' : r' < y1) (hv0' : u0 ≤ v') (hv1' : v' < u1) (hne : ¬(r = r' ∧ v = v')) :
    (r - y0) * stride + (v - u0) * m + m ≤ (r' - y0) * stride + (v' - u0) * m ∨
      (r' - y0) * stride + (v' - u0) * m + m ≤ (r - y0) * stride + (v - u0) * m := by
  obtain ⟨h1, -⟩ := unit_in_rows hs hr0 hr1 hv0 hv1
  obtain ⟨h2, -⟩ := unit_in_rows hs hr0' hr1' hv0' hv1'
  rcases Nat.lt_trichotomy r r' with hlt | rfl | hgt
  · have := Nat.mul_le_mul_right stride (show r - y0 + 1 ≤ r' - y0 by omega)
    omega
  · rcases Nat.lt_or_ge v v' with hlt | hge
    · have := Nat.mul_le_mul_right m (show v - u0 + 1 ≤ v' - u0 by omega)
      rw [Nat.add_mul, Nat.one_mul] at this
      omega
    · have := Nat.mul_le_mul_right m (show v' - u0 + 1 ≤ v - u0 by omega)
      rw [Nat.add_mul, Nat.one_mul] at this
      omega
  · have := Nat.mul_le_mul_right stride (show r' - y0 + 1 ≤ r - y0 by omega)
    omega

/-- Only memory differs. -/
def MemOnly (s t : State) : Prop := t = { s with mem := t.mem }

theorem MemOnly.trans {s t u : State} (h : MemOnly s t) (k : MemOnly t u) : MemOnly s u := by
  unfold MemOnly at *
  exact k.trans (by rw [h])

theorem State.capUnit_mem (s : State) (sp : Space) (f line u g idx data : Nat) : MemOnly s (s.capUnit sp f line u g idx data) := by
  have hbits (t : State) (bit n v : Nat) : MemOnly t (t.wrBits sp line bit n v) := t.wrLE_rest _ _ _ _
  unfold State.capUnit
  dsimp only
  split
  · exact (hbits _ _ _ _).trans (hbits _ _ _ _)
  · exact hbits _ _ _ _

/-- What a capture's write leaves: everything but memory. -/
theorem State.capWrite_mem (s : State) (h k : Nat) (cap : Capture) (idx data : Nat) : MemOnly s (s.capWrite h k cap idx data) :=
  forL_inv (MemOnly s) rfl fun _ _ ha => forN_inv (MemOnly s) ha fun _ b hb => hb.trans (b.capUnit_mem ..)

section
variable {s : State} {h k : Nat} {cap : Capture} {idx data f : Nat}

/-- Each whole unit of the rectangle in the cell is stored at its place in the fill buffer. -/
theorem State.rdLE_capWrite (hwf : Memory.wf s.mem = true) (hfmt : f = s.rd (R.LYR_CFG_FMT h k)) (hf : f < 4 ∨ f = 6) {r v : Nat}
    (hr0 : cap.y0 ≤ r) (hr1 : r < cap.y1) (hv0 : cap.u0 ≤ v) (hv1 : v < cap.u1) (hupl : cap.u1 ≤ cap.upl)
    (h1 : idx * 2048 ≤ (r * cap.upl + v) * wireBits f) (h2 : (r * cap.upl + v + 1) * wireBits f ≤ (idx + 1) * 2048)
    (hrow : ((cap.u1 - cap.u0) * memBits f + 7) / 8 ≤ s.rd (R.LYR_STRIDE_BYTES h k))
    (hfold : CapFolds (s.lySpace h k) s.build (s.lyBuf h k (1 - s.rd (R.LYR_STATE_CUR h k))) ((cap.y1 - cap.y0) * s.rd (R.LYR_STRIDE_BYTES h k))) :
    (s.capWrite h k cap idx data).rdLE (s.lySpace h k) (s.lyBuf h k (1 - s.rd (R.LYR_STATE_CUR h k)) + (r - cap.y0) * s.rd (R.LYR_STRIDE_BYTES h k) +
        (v - cap.u0) * (memBits f / 8)) (memBits f / 8) =
      data / 2 ^ ((r * cap.upl + v) * wireBits f - idx * 2048) % 2 ^ wireBits f := by
  have hwb := wireBits_pos f
  obtain ⟨hbytes, -, -, -, -⟩ := unitBytes hf
  have hs : (cap.u1 - cap.u0) * (memBits f / 8) ≤ s.rd (R.LYR_STRIDE_BYTES h k) := by
    rw [hbytes, Nat.mul_left_comm] at hrow
    omega
  obtain ⟨e, he, her, hev0, hev1⟩ := Capture.run_of_unit hwb hr0 hr1 hv0 hv1 hupl h1 h2
  unfold State.capWrite
  rw [← hfmt]
  dsimp only
  generalize s.lySpace h k = sp at *
  generalize s.lyBuf h k (1 - s.rd (R.LYR_STATE_CUR h k)) = base at *
  generalize s.rd (R.LYR_STRIDE_BYTES h k) = stride at *
  generalize hm : memBits f / 8 = m at *
  let t := base + (r - cap.y0) * stride + (v - cap.u0) * m
  let val := data / 2 ^ ((r * cap.upl + v) * wireBits f - idx * 2048) % 2 ^ wireBits f
  let Q (b : State) : Prop := b.build = s.build ∧ Memory.wf b.mem = true
  let P (b : State) : Prop := Q b ∧ b.rdLE sp t m = val
  obtain ⟨hin, hlast⟩ := unit_in_rows hs hr0 hr1 hv0 hv1
  have hat {r' v' : Nat} (b : State) (g1 : (r' * cap.upl + v') * wireBits f < idx * 2048 + 2048)
      (g2 : idx * 2048 < (r' * cap.upl + v' + 1) * wireBits f) :
      OnlyAt sp (base + (r' - cap.y0) * stride + (v' - cap.u0) * m) m b
        (b.capUnit sp f (base + (r' - cap.y0) * stride) (v' - cap.u0) (r' * cap.upl + v') idx data) := by
    have := b.capUnit_at (sp := sp) (line := base + (r' - cap.y0) * stride) (w := v' - cap.u0) (data := data) hf g1 g2
    rwa [hm] at this
  have hQ {r' v' : Nat} (b : State) (g1 : (r' * cap.upl + v') * wireBits f < idx * 2048 + 2048)
      (g2 : idx * 2048 < (r' * cap.upl + v' + 1) * wireBits f) (hb : Q b) :
      Q (b.capUnit sp f (base + (r' - cap.y0) * stride) (v' - cap.u0) (r' * cap.upl + v') idx data) :=
    ⟨(hat b g1 g2).build.trans hb.1, (hat b g1 g2).wf hb.2⟩
  have hhit (b : State) (hb : Q b) : P (b.capUnit sp f (base + (r - cap.y0) * stride) (v - cap.u0) (r * cap.upl + v) idx data) := by
    have hnext : (r * cap.upl + v + 1) * wireBits f = (r * cap.upl + v) * wireBits f + wireBits f := by rw [Nat.add_mul _ 1, Nat.one_mul]
    refine ⟨hQ b (by omega) (by omega) hb, ?_⟩
    have hval := State.rdLE_capUnit (s := b) (sp := sp) (line := base + (r - cap.y0) * stride) (w := v - cap.u0) (data := data) hf hb.2
      (by
        rw [hm, hb.1]
        intro i hi j hj he
        rw [Nat.add_assoc base, Nat.add_assoc base, Nat.add_assoc base] at he
        have := hfold _ _ (by omega) (by omega) he
        omega) h1 h2
    rwa [hm] at hval
  have hP {r' v' : Nat} (b : State) (hr0' : cap.y0 ≤ r') (hr1' : r' < cap.y1) (hv0' : cap.u0 ≤ v') (hv1' : v' < cap.u1)
      (g1 : (r' * cap.upl + v') * wireBits f < idx * 2048 + 2048) (g2 : idx * 2048 < (r' * cap.upl + v' + 1) * wireBits f) (hb : P b) :
      P (b.capUnit sp f (base + (r' - cap.y0) * stride) (v' - cap.u0) (r' * cap.upl + v') idx data) := by
    by_cases hsame : r = r' ∧ v = v'
    · obtain ⟨rfl, rfl⟩ := hsame
      exact hhit b hb.1
    · refine ⟨hQ b g1 g2 hb.1, ((hat b g1 g2).rdLE fun i hi j hj he => ?_).trans hb.2⟩
      obtain ⟨hin', hlast'⟩ := unit_in_rows hs hr0' hr1' hv0' hv1'
      have hapart := units_apart hs hr0 hr1 hv0 hv1 hr0' hr1' hv0' hv1' hsame
      rw [hb.1.1] at he
      simp only [t] at he
      rw [Nat.add_assoc base, Nat.add_assoc base, Nat.add_assoc base, Nat.add_assoc base] at he
      have := hfold _ _ (by omega) (by omega) he
      omega
  refine (forL_hits (P := P) (Q := Q) he ⟨rfl, hwf⟩ (fun e he a ha => ?_) (fun a ha => ?_) fun e he a ha => ?_).2
  · obtain ⟨-, -, hunits⟩ := Capture.runs_spec hwb he
    exact forN_inv_lt ha fun j hj b hb => by
      obtain ⟨-, -, g1, g2⟩ := hunits j hj
      exact hQ b g1 g2 hb
  · obtain ⟨e0, e1, hunits⟩ := Capture.runs_spec hwb he
    refine forN_hits (Q := Q) (k := v - e.2.1) (by omega) ha (fun j hj b hb => ?_) (fun b hb => ?_) fun j hj b hb => ?_
    · obtain ⟨-, -, g1, g2⟩ := hunits j hj
      exact hQ b g1 g2 hb
    · rw [her, show e.2.1 + (v - e.2.1) = v by omega]
      exact hhit b hb
    · obtain ⟨k0, k1, g1, g2⟩ := hunits j hj
      exact hP b e0 e1 k0 k1 g1 g2 hb
  · obtain ⟨e0, e1, hunits⟩ := Capture.runs_spec hwb he
    exact forN_inv_lt (P := P) ha fun j hj b hb => by
      obtain ⟨k0, k1, g1, g2⟩ := hunits j hj
      exact hP b e0 e1 k0 k1 g1 g2 hb

end

end Sys2Proof.Machine
end

section
/-! O28, continued: a pixel cell that a capture waits for, and the statement. -/

namespace Sys2Proof.Machine

/-- A layer's fields are not the DRAM channels'. -/
theorem layer_not_drc {f : Fld} {h k : Nat}
    (hf : f = R.LYR_CFG_FMT h k ∨ f = R.LYR_STRIDE_BYTES h k ∨ f = R.LYR_CFG_CAP_EN h k ∨ f = R.LYR_BUFSIZE_SIZE h k ∨ f = R.LYR_STATE_CUR h k) :
    ∀ g ∈ drcFlds, f.key ≠ g.key := by
  have hkey : ∀ g ∈ drcFlds, g.key < 27 * 524288 := by decide
  intro g hg
  have := hkey g hg
  rcases hf with rfl | rfl | rfl | rfl | rfl <;>
    simp only [Fld.key, R.LYR_CFG_FMT, R.LYR_STRIDE_BYTES, R.LYR_CFG_CAP_EN, R.LYR_BUFSIZE_SIZE, R.LYR_STATE_CUR] at this ⊢ <;> omega

theorem DramOnly.layer {s t : State} (h : DramOnly s t) (i k : Nat) : t.layer i k = s.layer i k := by
  obtain ⟨_, _, _, _, rfl⟩ := h.rest
  rfl

/-- The fill buffer of a layer stays where it is. -/
theorem DramOnly.capture {s t : State} (d : DramOnly s t) (h k : Nat) :
    t.rd (R.LYR_CFG_FMT h k) = s.rd (R.LYR_CFG_FMT h k) ∧ t.rd (R.LYR_STRIDE_BYTES h k) = s.rd (R.LYR_STRIDE_BYTES h k) ∧
      t.lySpace h k = s.lySpace h k ∧
      t.lyBuf h k (1 - t.rd (R.LYR_STATE_CUR h k)) = s.lyBuf h k (1 - s.rd (R.LYR_STATE_CUR h k)) := by
  have hrd {f : Fld} (hf : f = R.LYR_CFG_FMT h k ∨ f = R.LYR_STRIDE_BYTES h k ∨ f = R.LYR_CFG_CAP_EN h k ∨ f = R.LYR_BUFSIZE_SIZE h k ∨
      f = R.LYR_STATE_CUR h k) : t.rd f = s.rd f := d.frame.read (layer_not_drc hf)
  refine ⟨hrd (by simp), hrd (by simp), ?_, ?_⟩
  · unfold State.lySpace
    rw [d.layer]
  · unfold State.lyBuf State.lyCap State.on
    rw [d.layer, hrd (f := R.LYR_STATE_CUR h k) (by simp), hrd (f := R.LYR_CFG_CAP_EN h k) (by simp), hrd (f := R.LYR_BUFSIZE_SIZE h k) (by simp)]

section
variable {s u : State} {port : Nat} {c : Cell} {lc : StreamLoc} {h k : Nat} {cap : Capture}

/-- The cell of a capture that waits for it, where memory takes its bytes. -/
theorem State.capPixel_captured (hlc : Sparse.get u.eng.lay.locs c.stream = some lc) (hnow : u.latchPassed lc.epoch = false)
    (hone : u.captors c.stream = [(h, k)]) (hcap : (u.layer h k).cap = some cap) (hkind : cap.kind = .frame) (hstream : cap.stream = c.stream)
    (hepoch : cap.epoch = lc.epoch) {idx : Nat} (hidx : idx = lc.index + (c.seq + 65536 - lc.sq) % 65536) (hneed : bitOf cap.need idx = true)
    (hserves : (u.capSpans h k cap idx).all (fun e => u.dramServes e.1 e.2) = true) :
    u.capPixel c = ((u.dramUses 4 (u.capSpans h k cap idx) true).capWrite h k cap idx (leNat (takePad c.payload 256))).setLayer h k
      { u.layer h k with cap := some { cap with got := withBit cap.got idx true } } := by
  subst hidx
  unfold State.capPixel
  rw [hlc]
  dsimp only
  rw [hnow, if_neg Bool.false_ne_true, hone]
  change (match (u.layer h k).cap with | none => u | some cap => _) = _
  rw [hcap]
  dsimp only
  rw [if_pos (by simp [hkind, hstream, hepoch, hneed])]
  exact if_pos hserves

theorem pixelCell_captured (hb : s.build = .tile) (hcls : c.cls = clsPixel) (hrec : s.receive port c = (true, u)) (hloc : c.loc = false)
    (hlc : Sparse.get u.eng.lay.locs c.stream = some lc) (hnow : u.latchPassed lc.epoch = false)
    (hone : u.captors c.stream = [(h, k)]) (hcap : (u.layer h k).cap = some cap) (hkind : cap.kind = .frame) (hstream : cap.stream = c.stream)
    (hepoch : cap.epoch = lc.epoch) (hneed : bitOf cap.need (lc.index + (c.seq + 65536 - lc.sq) % 65536) = true)
    (hserves : (u.capSpans h k cap (lc.index + (c.seq + 65536 - lc.sq) % 65536)).all (fun e => u.dramServes e.1 e.2) = true) :
    completes (.pixelCell port c) s (fun t =>
      (t.layer h k).cap = some { cap with got := withBit cap.got (lc.index + (c.seq + 65536 - lc.sq) % 65536) true } ∧
      (∀ f, (∀ g ∈ drcFlds, f.key ≠ g.key) → t.rd f = u.rd f) ∧
      ∀ r v fmt g i, u.wf = true → fmt = u.rd (R.LYR_CFG_FMT h k) → fmt < 4 ∨ fmt = 6 → cap.y0 ≤ r → r < cap.y1 → cap.u0 ≤ v → v < cap.u1 →
        cap.u1 ≤ cap.upl → g = r * cap.upl + v → i = lc.index + (c.seq + 65536 - lc.sq) % 65536 → i * 2048 ≤ g * wireBits fmt →
        (g + 1) * wireBits fmt ≤ (i + 1) * 2048 → ((cap.u1 - cap.u0) * memBits fmt + 7) / 8 ≤ u.rd (R.LYR_STRIDE_BYTES h k) →
        (cap.y1 - cap.y0) * u.rd (R.LYR_STRIDE_BYTES h k) ≤ (if (u.layer h k).mem then 262144 else 268435456) →
        t.rdLE (u.lySpace h k) (u.lyBuf h k (1 - u.rd (R.LYR_STATE_CUR h k)) + (r - cap.y0) * u.rd (R.LYR_STRIDE_BYTES h k) +
            (v - cap.u0) * (memBits fmt / 8)) (memBits fmt / 8) =
          leNat (takePad c.payload 256) / 2 ^ (g * wireBits fmt - i * 2048) % 2 ^ wireBits fmt) := by
  have hgo := State.capPixel_captured hlc hnow hone hcap hkind hstream hepoch rfl hneed hserves
  generalize lc.index + (c.seq + 65536 - lc.sq) % 65536 = idx at *
  let s1 := u.dramUses 4 (u.capSpans h k cap idx) true
  let s2 := s1.capWrite h k cap idx (leNat (takePad c.payload 256))
  let s3 := s2.setLayer h k { u.layer h k with cap := some { cap with got := withBit cap.got idx true } }
  have d1 : DramOnly u s1 := u.dramUses_dramOnly 4 _ true
  have m2 : MemOnly s1 s2 := s1.capWrite_mem h k cap idx _
  have d4 : DramOnly s3 s3.dramSlots := s3.dramSlots_dramOnly
  have hrd2 (f : Fld) : s2.rd f = s1.rd f := by
    have : s2 = { s1 with mem := s2.mem } := m2
    rw [this]
    rfl
  refine ⟨s3.dramSlots, (exec_pixelCell hb hcls hrec hloc).trans (congrArg (fun x => Host.Outcome.next (State.dramSlots x)) hgo), ?_,
    fun f hf => (d4.frame.read hf).trans ((hrd2 f).trans (d1.frame.read hf)), ?_⟩
  · rw [d4.layer, State.layer_set]
  · rintro r v fmt g i hwf hfmt hf hr0 hr1 hv0 hv1 hupl rfl rfl h1 h2 hrow hsize
    obtain ⟨c1, c2, c3, c4⟩ := d1.capture h k
    have hmem : s3.dramSlots.rdLE (u.lySpace h k) = s2.rdLE (u.lySpace h k) := by
      funext off n
      exact (State.rdLE_congr d4.build d4.mem _ _ _).trans (State.rdLE_congr (s := s2) (t := s3) rfl rfl _ _ _)
    have hfold : CapFolds (s1.lySpace h k) s1.build (s1.lyBuf h k (1 - s1.rd (R.LYR_STATE_CUR h k)))
        ((cap.y1 - cap.y0) * s1.rd (R.LYR_STRIDE_BYTES h k)) := by
      rw [c3, c2]
      unfold State.lySpace
      split at hsize
      · next hm => rw [if_pos hm]; exact capFolds_layer _ _ _ hsize
      · next hm => rw [if_neg hm]; exact capFolds_dram _ _ hsize
    have := State.rdLE_capWrite (s := s1) (data := leNat (takePad c.payload 256)) (by rw [d1.mem]; exact State.wf_mem hwf) (hfmt.trans c1.symm) hf hr0 hr1
      hv0 hv1 hupl h1 h2 (by rw [c2]; exact hrow) hfold
    rw [c2, c3, c4] at this
    rw [hmem]
    exact this

end

/-- Settles O28: the duplicate window, the locators of a capture by its outcome, and the cells of one. -/
theorem duplicatesAndCapture : Obligations.DuplicatesAndCapture := by
  unfold Obligations.DuplicatesAndCapture
  refine ⟨fun port c e s hb he ha hup hloop hh hty htr hcls htyp hhops hbc hkey =>
    ⟨event_dup hb he ha hup hloop hh hty htr hcls htyp hhops hbc hkey,
      event_new hb he ha hup hloop hh hty htr hcls htyp hhops hbc hkey⟩, fun port c s u hb hcls hrec =>
    ⟨fun hloc hkind hnow => locator_repeat hb hcls hrec hloc hkind hnow, fun hloc hpast => locator_late hb hcls hrec hloc hpast, ?_,
      fun lc h k cap hloc _ _ hlc hnow hone hcap hkind hstream hepoch hneed _ hserves =>
        pixelCell_captured hb hcls hrec hloc hlc hnow hone hcap hkind hstream hepoch hneed hserves⟩⟩
  intro h k f al ix0 ix1 iy0 iy1 x0 x1 _ _ hloc hkind hnow hone hf hal hix0 hix1 hiy0 hiy1 hx0 hx1
  obtain ⟨l, hl, hgo⟩ := exec_frame hb hcls hrec hloc hkind hnow hone
  rw [← capAlign_eq] at hal
  subst hal
  have hv : sameElse u (u.setLay l) [] := (sameElse.refl u []).of_eq rfl rfl rfl
  have w : CapWindow (u.setLay l) h k c f ix0 ix1 iy0 iy1 x0 x1 := ⟨hf, hix0, hix1, hiy0, hiy1, hx0, hx1⟩
  refine ⟨fun hs => ⟨_, hgo, capStart_other hv w hs⟩, fun hs => ⟨fun hbad => ⟨_, hgo, ?_⟩, fun hfmt hempty => ⟨_, hgo, ?_⟩, fun hfmt hx hy =>
    ⟨fun hbig => ⟨_, hgo, ?_⟩, fun g1 g2 => ⟨_, hgo, ?_⟩⟩⟩⟩
  · rw [capStart_format hv w hs hbad]
    exact capReject_counts h k c hv
  · obtain ⟨hcap, hsame⟩ := capStart_outside hv w hs hfmt hempty
    exact ⟨_, hcap, rfl, rfl, rfl, rfl, rfl, rfl, hsame⟩
  · rw [capStart_large hv w hs hfmt hx hy hbig]
    exact capReject_counts h k c hv
  · obtain ⟨hcap, hsame⟩ := capStart_fits hv w hs hfmt hx hy g1 g2
    exact ⟨_, hcap, rfl, rfl, rfl, rfl, rfl, rfl, rfl, rfl, rfl, rfl, rfl, rfl, rfl, rfl, rfl,
      fun r v hr0 hr1 hv0 hv1 => capNeed_bit (wireBits_pos f) hr0 hr1 hv0 hv1, hsame⟩

end Sys2Proof.Machine
end

section
/-! O51: a row slot of lamp drive, its pulses and what it publishes (R192 to R224). -/

namespace Sys2Proof.Machine

/-! ### What a row slot leaves -/

/-- `t` is `s` with other records of scan-out and of the lamps, its registers in `P` the same. -/
structure SlotKept (P : Fld → Prop) (s t : State) : Prop where
  rd : ∀ f, P f → t.rd f = s.rd f
  rest : ∃ r x l, t = { s with regs := r, eng := { s.eng with scan := x, lamp := l } }

namespace SlotKept
variable {P : Fld → Prop} {s t u : State}

theorem refl (s : State) : SlotKept P s s := ⟨fun _ _ => rfl, _, _, _, rfl⟩

theorem trans (a : SlotKept P s t) (b : SlotKept P t u) : SlotKept P s u := by
  refine ⟨fun f hf => (b.rd f hf).trans (a.rd f hf), ?_⟩
  obtain ⟨_, _, _, rfl⟩ := a.rest
  obtain ⟨_, _, _, rfl⟩ := b.rest
  exact ⟨_, _, _, rfl⟩

theorem setScan (a : SlotKept P s t) (h : Nat) (x : ScanHalf) : SlotKept P s (t.setScan h x) := a.trans ⟨fun _ _ => rfl, _, _, _, rfl⟩
theorem setLamp (a : SlotKept P s t) (h : Nat) (x : LampHalf) : SlotKept P s (t.setLamp h x) := a.trans ⟨fun _ _ => rfl, _, _, _, rfl⟩

theorem wr (a : SlotKept P s t) {f : Fld} (v : Nat) (hf : ∀ g, P g → g.key ≠ f.key) : SlotKept P s (t.wr f v) :=
  a.trans ⟨fun g hg => State.rd_wr_ne t v (hf g hg), _, _, _, rfl⟩

theorem build (a : SlotKept P s t) : t.build = s.build := by obtain ⟨_, _, _, rfl⟩ := a.rest; rfl
theorem mem (a : SlotKept P s t) : t.mem = s.mem := by obtain ⟨_, _, _, rfl⟩ := a.rest; rfl
theorem pins (a : SlotKept P s t) : t.pins = s.pins := by obtain ⟨_, _, _, rfl⟩ := a.rest; rfl
theorem cairn (a : SlotKept P s t) : t.cairn = s.cairn := by obtain ⟨_, _, _, rfl⟩ := a.rest; rfl
theorem dram (a : SlotKept P s t) : t.eng.dram = s.eng.dram := by obtain ⟨_, _, _, rfl⟩ := a.rest; rfl
theorem darn (a : SlotKept P s t) (h : Nat) : t.darn h = s.darn h := by obtain ⟨_, _, _, rfl⟩ := a.rest; rfl

theorem on (a : SlotKept P s t) {f : Fld} (hf : P f) : t.on f = s.on f := by rw [State.on, State.on, a.rd f hf]

end SlotKept

/-- The timing of a half is the same but for where its accumulator stands. -/
def SameFrame (x y : ScanHalf) : Prop := ∃ acc clk edge at_, y = { x with acc := acc, clk := clk, edge := edge, accAt := at_ }

theorem SameFrame.refl (x : ScanHalf) : SameFrame x x := ⟨_, _, _, _, rfl⟩

theorem SameFrame.trans {x y z : ScanHalf} (a : SameFrame x y) (b : SameFrame y z) : SameFrame x z := by
  obtain ⟨_, _, _, _, rfl⟩ := a
  obtain ⟨_, _, _, _, rfl⟩ := b
  exact ⟨_, _, _, _, rfl⟩

theorem SameFrame.started {x y : ScanHalf} (a : SameFrame x y) (k : Nat) :
    SameFrame { x with next := k, late := false } { y with next := k, late := false } := by
  obtain ⟨_, _, _, _, rfl⟩ := a
  exact ⟨_, _, _, _, rfl⟩

theorem State.scan_retimed {s : State} {g : Nat} {x : ScanHalf} (hx : SameFrame (s.scan g) x) (h : Nat) : SameFrame (s.scan h) ((s.setScan g x).scan h) := by
  by_cases hg : h = g
  · subst hg
    rw [State.scan_setScan_same]
    exact hx
  · rw [State.scan_setScan_ne s x hg]
    exact .refl _

/-- The accumulators move, and nothing else of the frame. -/
theorem State.reachSlot_kept (P : Fld → Prop) (s : State) (g k : Nat) :
    SlotKept P s (s.reachSlot g k) ∧ (∀ h, SameFrame (s.scan h) ((s.reachSlot g k).scan h)) ∧ (s.reachSlot g k).eng.lamp = s.eng.lamp := by
  unfold State.reachSlot
  extract_lets paired x moved y put
  have hput (i : Nat) (t : State) : SlotKept P t (put i t) ∧ (∀ h, SameFrame (t.scan h) ((put i t).scan h)) ∧ (put i t).eng.lamp = t.eng.lamp :=
    ⟨.setScan (.refl t) _ _, State.scan_retimed ⟨_, _, _, _, rfl⟩, rfl⟩
  obtain ⟨hk, hf, hl⟩ := hput g s
  obtain ⟨hk', hf', hl'⟩ := hput (otherHalf g) (put g s)
  split
  · exact ⟨hk.trans hk', fun h => (hf h).trans (hf' h), hl'.trans hl⟩
  · exact ⟨hk, hf, hl⟩

/-- A slot that ends without a diagnosis. -/
theorem State.slotEnd_unmeasured {s : State} {h : Nat} (hm : ∀ r pins, s.measureSlot h r pins = s) :
    SlotKept (fun _ => True) s (s.slotEnd h) ∧ (∀ g, (s.slotEnd h).scan g = s.scan g) ∧ ((s.slotEnd h).lamp h).hotReq = (s.lamp h).hotReq := by
  have hset (y : LampHalf) (hy : y.hotReq = (s.lamp h).hotReq) :
      SlotKept (fun _ => True) s (s.setLamp h y) ∧ (∀ g, (s.setLamp h y).scan g = s.scan g) ∧ ((s.setLamp h y).lamp h).hotReq = (s.lamp h).hotReq :=
    ⟨.setLamp (.refl s) _ _, fun _ => rfl, (congrArg LampHalf.hotReq (State.lamp_setLamp_same s h y)).trans hy⟩
  unfold State.slotEnd
  extract_lets y
  split
  · dsimp only
    rw [hm]
    exact hset _ rfl
  · exact hset _ rfl

/-! ### The slot's start -/

/-- The half's records as its next slot starts: the slot that was in progress has ended, the accumulator has come to the slot, REF, the scale and the derating
factor are sampled, and the loads of the row-slot data are judged. -/
def State.slotStarted (s : State) (h : Nat) (bad : List Nat) : State :=
  let a := (s.slotEnd h).reachSlot h (s.scan h).next
  ((a.setScan h { a.scan h with next := (s.scan h).next + 1, late := false }).lampSample h).lampLoads h bad

/-- The slot's row and pulses. -/
def State.slotShows (u : State) (h k r : Nat) (late : Bool) (obs : RowObs) : State :=
  u.setLamp h { u.lamp h with
    row := if u.lmpBlk h = 0 then some r else none
    pulses := if u.lmpBlk h = 0 && !late then u.slotPulses h k r obs.loadFail else []
    dark := late
    probed := []
    dead := obs.loadFail
    obs := some obs.pins }

/-- What the slot publishes: the sums of the slot after it, or the GAP entry. -/
def State.slotPublished (v : State) (h k : Nat) (x : ScanHalf) : State :=
  if k < x.slots then v.publishSlot h k (x.rowOf k) (v.lmpBlk h ≠ 0) else v.publishGap h

/-- The half with its next slot under way, before it publishes. -/
def State.slotSeen (s : State) (h : Nat) (obs : RowObs) : State :=
  (s.slotStarted h obs.loadFail).slotShows h (s.scan h).next ((s.scan h).rowOf (s.scan h).next) (s.scan h).late obs

theorem State.fetchRow_off {s : State} {h : Nat} (hsrc : s.rd (R.SCN_FB_CUR_SRC h) = 0) (k r : Nat) : s.fetchRow h k r = s :=
  if_neg (by rw [State.on, hsrc]; decide)

/-- A row slot is its start, what it shows, and what it publishes, while the half does not show a DRAM frame. -/
theorem State.rowSlot_eq {s : State} {h : Nat} {obs : RowObs} (hin : s.inFrame h = true)
    (hpads : forL obs.badPads (fun p a => a.rowGate h p) (s.slotSeen h obs) = s.slotSeen h obs)
    (hsrc : ((s.slotSeen h obs).slotPublished h ((s.scan h).next + 1) (s.scan h)).rd (R.SCN_FB_CUR_SRC h) = 0) :
    s.rowSlot h obs = (s.slotSeen h obs).slotPublished h ((s.scan h).next + 1) (s.scan h) := by
  have heq : s.rowSlot h obs =
      (let w := (forL obs.badPads (fun p a => a.rowGate h p) (s.slotSeen h obs)).slotPublished h ((s.scan h).next + 1) (s.scan h)
      if (s.scan h).next + 2 < (s.scan h).slots then w.fetchRow h ((s.scan h).next + 2) ((s.scan h).rowOf ((s.scan h).next + 2)) else w) := by
    unfold State.rowSlot
    rw [hin, if_neg (by simp)]
    rfl
  rw [heq, hpads]
  dsimp only
  rw [State.fetchRow_off hsrc, ite_self]

/-! ### The start of a slot without diagnosis -/

section
variable {P : Fld → Prop} {s t : State} {h : Nat}

/-- Diagnosis is off: lamp drive does not run, or DIAG_EN is 0. -/
theorem State.measureSlot_off (hoff : s.running .LMP h = false ∨ s.rd (R.LMP_DIAG_CFG_DIAG_EN h) = 0) (r : Nat) (pins : List (Nat × Nat)) :
    s.measureSlot h r pins = s := by
  refine if_pos ?_
  rcases hoff with hrun | hdiag
  · rw [hrun]; rfl
  · rw [State.off_of_zero hdiag]; simp

/-- What the start of a slot makes of the records. -/
structure SlotStart (P : Fld → Prop) (h : Nat) (s t : State) : Prop where
  kept : SlotKept P s t
  scan : SameFrame { s.scan h with next := (s.scan h).next + 1, late := false } (t.scan h)
  refR : (t.lamp h).refR = s.rd (R.LMP_REF_R h)
  refG : (t.lamp h).refG = s.rd (R.LMP_REF_G h)
  refB : (t.lamp h).refB = s.rd (R.LMP_REF_B h)
  scale : (t.lamp h).scale = s.rd (if h = 0 then R.TRV_OUT_L_W else R.TRV_OUT_L_E)
  derate : (t.lamp h).derate = s.rd (R.LMP_DERATE_NOW_D h)
  hot : (t.lamp h).hot = (s.lamp h).hotReq

/-- The loads of a half that does not run lamp drive are not judged; where none fails, no failure is counted. -/
theorem SlotStart.lampLoads (a : SlotStart P h s t) (bad : List Nat)
    (hbad : t.running .LMP h = false ∨ bad = [] ∧ ∀ g, P g → g.key ≠ (R.LMP_EVT_LINK h).key) : SlotStart P h s (t.lampLoads h bad) := by
  rcases hbad with hrun | ⟨rfl, hlink⟩
  · rwa [State.lampLoads, hrun]
  · unfold State.lampLoads
    refine Bool.casesOn (t.running .LMP h) a ?_
    dsimp only
    obtain ⟨kept, scan, refR, refG, refB, scale, derate, hot⟩ := a
    have hlamp (x : LampHalf) : ((t.setLamp h x).bump (R.LMP_EVT_LINK h) 0).lamp h = x := State.lamp_setLamp_same t h x
    exact ⟨(kept.setLamp h _).wr _ hlink, scan, (congrArg LampHalf.refR (hlamp _)).trans refR, (congrArg LampHalf.refG (hlamp _)).trans refG,
      (congrArg LampHalf.refB (hlamp _)).trans refB, (congrArg LampHalf.scale (hlamp _)).trans scale,
      (congrArg LampHalf.derate (hlamp _)).trans derate, (congrArg LampHalf.hot (hlamp _)).trans hot⟩

theorem State.slotStarted_start {bad : List Nat} (hoff : s.running .LMP h = false ∨ s.rd (R.LMP_DIAG_CFG_DIAG_EN h) = 0)
    (hbad : s.running .LMP h = false ∨ bad = [] ∧ ∀ g, P g → g.key ≠ (R.LMP_EVT_LINK h).key) : SlotStart P h s (s.slotStarted h bad) := by
  obtain ⟨hke, hse, hle⟩ := State.slotEnd_unmeasured (State.measureSlot_off hoff)
  obtain ⟨hkr, hfr, hlr⟩ := State.reachSlot_kept (fun _ => True) (s.slotEnd h) h (s.scan h).next
  unfold State.slotStarted
  extract_lets a
  have ha : SlotKept (fun _ => True) s a ∧ SameFrame (s.scan h) (a.scan h) ∧ (a.lamp h).hotReq = (s.lamp h).hotReq :=
    ⟨hke.trans hkr, hse h ▸ hfr h, by rw [← hle, State.lamp, hlr]; rfl⟩
  clear_value a
  obtain ⟨hk, hf, hl⟩ := ha
  have hrd (f : Fld) : a.rd f = s.rd f := hk.rd f trivial
  have hkept (x : ScanHalf) (y : LampHalf) : SlotKept P s ((a.setScan h x).setLamp h y) :=
    ⟨fun f _ => hrd f, by obtain ⟨_, _, _, rfl⟩ := hk.rest; exact ⟨_, _, _, rfl⟩⟩
  have hlamp (x : ScanHalf) (y : LampHalf) : ((a.setScan h x).setLamp h y).lamp h = y := State.lamp_setLamp_same _ h y
  refine SlotStart.lampLoads ?_ bad ?_
  · refine ⟨hkept _ _, ?_, (congrArg LampHalf.refR (hlamp _ _)).trans (hrd _), (congrArg LampHalf.refG (hlamp _ _)).trans (hrd _),
      (congrArg LampHalf.refB (hlamp _ _)).trans (hrd _), (congrArg LampHalf.scale (hlamp _ _)).trans (hrd _),
      (congrArg LampHalf.derate (hlamp _ _)).trans (hrd _), (congrArg LampHalf.hot (hlamp _ _)).trans hl⟩
    have hscan (x : ScanHalf) (y : LampHalf) : ((a.setScan h x).setLamp h y).scan h = x := State.scan_setScan_same a h x
    unfold State.lampSample
    dsimp only
    rw [hscan]
    exact hf.started _
  · refine hbad.imp_left fun hrun => ?_
    rw [← hrun]
    exact State.running_congr (hrd _) (hrd _) (hrd _) hk.pins

end

end Sys2Proof.Machine
end

section
/-! O51, continued: the pulses of a slot, what it publishes, and its command (R199 to R207, R214 to R224). -/

namespace Sys2Proof.Machine

/-! ### Blanking and pulses from the records of the slot's start -/

section
variable {P : Fld → Prop} {s t : State} {h : Nat}

theorem State.lmpBlk_off (hen : s.enabled .LMP h = false) : s.lmpBlk h ≠ 0 := by
  have hpre : s.lmpBlkPre h ≠ 0 := by
    unfold State.lmpBlkPre
    rw [hen, if_pos (by simp)]
    split <;> decide
  unfold State.lmpBlk
  rw [if_pos hpre]
  exact hpre

variable (hP : ∀ f, f.key ≠ (R.LMP_EVT_LINK h).key → P f)
include hP

/-- A half that lamp drive runs, with the lamp enable, no LOST generator, no over-temperature, and scan-out that emits, is not blanked. -/
theorem SlotStart.lit (a : SlotStart P h s t) (hh : h < 2) (hrun : s.running .LMP h = true) (hlamp : s.lampEn = true) (hlost : s.trvLost h = false)
    (hhot : (s.lamp h).hotReq = false) (hemit : s.scanEmits h = true) : t.lmpBlk h = 0 := by
  have hrd (f : Fld) (hf : f.key ≠ (R.LMP_EVT_LINK h).key) : t.rd f = s.rd f := a.kept.rd f (hP f hf)
  have hgen (g : Nat) : t.genState g = s.genState g := hrd _ (by simp only [Fld.key, R.TRV_G_POS_STATE, R.LMP_EVT_LINK]; omega)
  have hpark : t.rd R.PWR_PARKED_STEPS = s.rd R.PWR_PARKED_STEPS := hrd _ (by simp only [Fld.key, R.PWR_PARKED_STEPS, R.LMP_EVT_LINK]; omega)
  have hruns (b : Blk) (hb : b = .LMP ∨ b = .SCN) : t.running b h = s.running b h := by
    refine State.running_congr (hrd _ ?_) (hrd _ ?_) hpark a.kept.pins
    all_goals
      rcases hb with rfl | rfl <;>
        (simp only [Fld.key, R.ENABLE, R.RUN, Blk.pg, Blk.win0, R.LMP_EVT_LINK]; omega)
  have hlost' : t.trvLost h = false := by
    rw [← hlost]
    unfold State.trvLost State.on
    simp only [hgen]
    rw [hrd R.TRV_CFG_LINK (by simp only [Fld.key, R.TRV_CFG_LINK, R.LMP_EVT_LINK]; omega)]
  have hok : (t.scan h).ok = (s.scan h).ok := by
    obtain ⟨_, _, _, _, hx⟩ := a.scan
    rw [hx]
  have hemit' : t.scanEmits h = true := by
    rw [← hemit]
    unfold State.scanEmits State.coreGated State.parked
    rw [hok, hruns .SCN (.inr rfl), hpark, hrd R.CLK_SEL_CUR (by simp only [Fld.key, R.CLK_SEL_CUR, R.LMP_EVT_LINK]; omega)]
  have hpre : t.lmpBlkPre h = 0 := by
    have hr : t.running .LMP h = true := (hruns .LMP (.inl rfl)).trans hrun
    unfold State.running at hr
    simp only [Bool.and_eq_true] at hr
    obtain ⟨⟨⟨hen, hst⟩, -⟩, hpg⟩ := hr
    unfold State.lmpBlkPre
    rw [if_neg (by simp [hen, hst, hpg]), if_neg (by rw [State.lampEn, a.kept.cairn]; simpa [State.lampEn] using hlamp),
      hlost', if_neg Bool.false_ne_true, a.hot, hhot, if_neg Bool.false_ne_true]
  unfold State.lmpBlk
  rw [hpre, if_neg (by decide), if_pos hemit']

/-- The reference of a rail. -/
def State.refOf (s : State) (h rail : Nat) : Nat :=
  if rail = 0 then s.rd (R.LMP_REF_R h) else if rail = 1 then s.rd (R.LMP_REF_G h) else s.rd (R.LMP_REF_B h)

/-- The pulse of a lamp in the slot that starts, by the formulas. -/
def State.startPulse (s : State) (h r i rail : Nat) : Pulse :=
  slotPulse (s.scan h) r ((s.scan h).next / (s.scan h).rows) i (s.rdLE (s.frontBuf h) (scanAt r i) 2) (s.rd (R.LMP_XOVER_C h)) (s.refOf h rail)
    (s.rd (if h = 0 then R.TRV_OUT_L_W else R.TRV_OUT_L_E)) (s.rd (R.LMP_DERATE_NOW_D h)) (s.trim h i) (s.rd (tdlyF h (i / 16)))

theorem SlotKept.railOf (a : SlotKept P s t) (r i : Nat) : t.railOf h r i = s.railOf h r i := by
  unfold State.railOf State.lampEnt
  have hm : t.rd32 .window (lampMapAt h r i) = s.rd32 .window (lampMapAt h r i) := State.rdLE_congr a.build a.mem _ _ _
  rw [hm, a.rd (R.SCN_ROWCFG_WRAIL h) (hP _ (by simp only [Fld.key, R.SCN_ROWCFG_WRAIL, R.LMP_EVT_LINK]; omega))]

theorem SlotKept.forcedOff (a : SlotKept P s t) (i : Nat) : t.forcedOff h i = s.forcedOff h i := by
  unfold State.forcedOff
  rw [a.rd _ (hP _ (by simp only [Fld.key, R.LMP_FORCED_SINKS, R.LMP_EVT_LINK]; omega))]

theorem SlotKept.shown (a : SlotKept P s t) (hsrc : s.rd (R.SCN_FB_CUR_SRC h) = 0) (k r i : Nat) :
    t.shown h k r i = s.rdLE (s.frontBuf h) (scanAt r i) 2 := by
  have hoff : t.on (R.SCN_FB_CUR_SRC h) = false :=
    State.off_of_zero ((a.rd _ (hP _ (by simp only [Fld.key, R.SCN_FB_CUR_SRC, R.LMP_EVT_LINK]; omega))).trans hsrc)
  unfold State.shown
  rw [hoff, if_neg Bool.false_ne_true, State.frontBuf, a.darn]
  exact State.rdLE_congr a.build a.mem _ _ _

theorem SlotKept.rowSum (a : SlotKept P s t) (hsrc : s.rd (R.SCN_FB_CUR_SRC h) = 0) (k r c : Nat) : t.rowSum h k r c = s.rowSum h k r c := by
  unfold State.rowSum
  simp only [a.railOf hP, a.forcedOff hP, a.shown hP hsrc, (SlotKept.refl s).shown hP hsrc]

theorem SlotKept.trim (a : SlotKept P s t) (i : Nat) : t.trim h i = s.trim h i := by
  refine a.rd _ (hP _ ?_)
  split <;>
    (simp only [Fld.key, R.LMP_TRIM_TRIM0, R.LMP_TRIM_TRIM1, R.LMP_TRIM_TRIM2, R.LMP_TRIM_TRIM3, R.LMP_EVT_LINK]; omega)

theorem SlotKept.delay (a : SlotKept P s t) (g : Nat) : t.rd (tdlyF h g) = s.rd (tdlyF h g) := by
  refine a.rd _ (hP _ ?_)
  unfold tdlyF
  split <;>
    (simp only [Fld.key, R.LMP_TDLY_TAPS0, R.LMP_TDLY_TAPS1, R.LMP_TDLY_TAPS2, R.LMP_TDLY_TAPS3, R.LMP_EVT_LINK]; omega)

/-- A lamp that stays dark has no pulse in the slot; another has that of the formulas. -/
theorem SlotStart.pulseOf (a : SlotStart P h s t) (hsrc : s.rd (R.SCN_FB_CUR_SRC h) = 0) (r i : Nat) :
    t.pulseOf h (s.scan h).next r i [] =
      (s.railOf h r i).bind fun rail => if s.forcedOff h i = true ∨ (s.startPulse h r i rail).width = 0 then none else some (s.startPulse h r i rail) := by
  have hx : t.rd (R.LMP_XOVER_C h) = s.rd (R.LMP_XOVER_C h) :=
    a.kept.rd _ (hP _ (by simp only [Fld.key, R.LMP_XOVER_C, R.LMP_EVT_LINK]; omega))
  have href (rail : Nat) : (t.lamp h).ref rail = s.refOf h rail := by
    unfold LampHalf.ref State.refOf
    rw [a.refR, a.refG, a.refB]
  obtain ⟨_, _, _, _, hscan⟩ := a.scan
  unfold State.pulseOf
  rw [a.kept.railOf hP, a.kept.forcedOff hP]
  cases s.railOf h r i with
  | none => rfl
  | some rail =>
    dsimp only [Option.bind_some]
    rw [a.kept.shown hP hsrc, a.kept.trim hP, a.kept.delay hP, hx, href, a.scale, a.derate, hscan, List.contains_nil, Bool.or_false, ite_or]
    rfl

/-- The pulses of the slot: one for each lit sink that is not forced off and whose pulse has a width. -/
theorem SlotStart.mem_pulses (a : SlotStart P h s t) (hsrc : s.rd (R.SCN_FB_CUR_SRC h) = 0) (r : Nat) (p : Pulse) :
    p ∈ t.slotPulses h (s.scan h).next r [] ↔ ∃ i rail, i < 512 ∧ s.railOf h r i = some rail ∧ s.forcedOff h i = false ∧
      (s.startPulse h r i rail).width ≠ 0 ∧ p = s.startPulse h r i rail := by
  unfold State.slotPulses
  simp only [List.mem_filterMap, List.mem_range, a.pulseOf hP hsrc, Option.bind_eq_some_iff]
  constructor
  · rintro ⟨i, hi, rail, hrail, hp⟩
    split at hp
    · exact absurd hp (by simp)
    · next hcase =>
      obtain ⟨hf, hw⟩ := not_or.1 hcase
      exact ⟨i, rail, hi, hrail, by simpa using hf, hw, (Option.some.inj hp).symm⟩
  · rintro ⟨i, rail, hi, hrail, hf, hw, rfl⟩
    exact ⟨i, hi, rail, hrail, if_neg (by simp [hf, hw])⟩

end

/-! ### What a slot publishes -/

/-- `t` is `s` with other bytes in the row-load view of a half. -/
structure Published (h : Nat) (s t : State) : Prop where
  rest : t = { s with mem := t.mem }
  frame : ∀ k, (k < Space.window.key (rowLoadAt (3 * h)) ∨ Space.window.key (rowLoadAt (3 * h)) + 48 ≤ k) → memGet t.mem k = memGet s.mem k

theorem State.publish_published (s : State) (h slot row : Nat) (gap : Bool) (sum : Nat → Nat) : Published h s (s.publish h slot row gap sum) := by
  unfold State.publish
  refine forN_inv_lt (P := fun a => Published h s a) ⟨rfl, fun _ _ => rfl⟩ fun c hc a ha => ?_
  obtain ⟨hrest, hframe⟩ := ha
  refine ⟨(State.wrLE_rest _ _ _ _ _).trans ?_, fun k hk => ?_⟩
  · unfold State.wr32
    rw [State.wrLE_rest a, hrest]
  · rw [State.memGet_wr32_window, State.memGet_wr32_window, hframe k hk]
    all_goals
      simp only [Space.key, rowLoadAt] at hk ⊢
      omega

section
variable {s v : State} {h : Nat}

/-- The timing of the half is the one it was, and the rest too but for the view: what a slot publishes while the half shows no DRAM frame. -/
structure SlotPublished (h k : Nat) (x : ScanHalf) (v t : State) : Prop where
  regs : ∀ f, t.rd f = v.rd f
  build : t.build = v.build
  lamp : t.lamp h = v.lamp h
  dram : t.eng.dram = v.eng.dram
  scan : t.scan h = { v.scan h with late := (t.scan h).late }
  frame : ∀ a, (a < Space.window.key (rowLoadAt (3 * h)) ∨ Space.window.key (rowLoadAt (3 * h)) + 48 ≤ a) → memGet t.mem a = memGet v.mem a
  sum : ∀ c, c < 3 → t.rd32 .window (rowLoadAt (3 * h + c) + 8) =
    if k < x.slots then (if v.lmpBlk h = 0 then v.rowSum h k (x.rowOf k) c else 0) % 33554432 else 33554432
  slot : ∀ c, c < 3 → k < x.slots → t.rd32 .window (rowLoadAt (3 * h + c) + 12) = k % 1024 + 65536 * (x.rowOf k % 64)

theorem State.publishSlot_eq (hsrc : v.rd (R.SCN_FB_CUR_SRC h) = 0) (k r : Nat) (blank : Bool) :
    v.publishSlot h k r blank = (v.setScan h { v.scan h with late := false }).publish h k r false (fun c => if blank then 0 else v.rowSum h k r c) := by
  have hmiss : v.rowMissed h k = false := by
    unfold State.rowMissed
    rw [State.off_of_zero hsrc, Bool.false_and]
  unfold State.publishSlot
  rw [hmiss]
  simp only [Bool.or_false, Bool.false_eq_true, if_false]

theorem State.slotPublished_spec (hm : Memory.wf v.mem = true) (hsrc : v.rd (R.SCN_FB_CUR_SRC h) = 0) (k : Nat) (x : ScanHalf) :
    SlotPublished h k x v (v.slotPublished h k x) := by
  unfold State.slotPublished
  split
  · next hk =>
    rw [State.publishSlot_eq hsrc]
    have hpub := (v.setScan h { v.scan h with late := false }).publish_published h k (x.rowOf k) false
      (fun c => if (decide (v.lmpBlk h ≠ 0)) then 0 else v.rowSum h k (x.rowOf k) c)
    have hrd {c : Nat} (hc : c < 3) := State.publish_rd32 (s := v.setScan h { v.scan h with late := false }) (h := h) hm k (x.rowOf k) false
      (fun c => if (decide (v.lmpBlk h ≠ 0)) then 0 else v.rowSum h k (x.rowOf k) c) hc
    generalize State.publish _ h k _ false _ = t at hpub hrd ⊢
    obtain ⟨hrest, hframe⟩ := hpub
    have hscan : t.scan h = { v.scan h with late := false } := by
      rw [hrest]
      exact State.scan_setScan_same v h _
    refine ⟨fun f => by rw [hrest]; rfl, by rw [hrest]; rfl, by rw [hrest]; rfl, by rw [hrest]; rfl, by rw [hscan], hframe, fun c hc => ?_,
      fun c hc _ => (hrd hc).2⟩
    rw [(hrd hc).1, if_pos hk]
    by_cases hb : v.lmpBlk h = 0 <;> simp [hb, b2n]
  · next hk =>
    unfold State.publishGap
    extract_lets n
    have hpub := v.useFree.publish_published h (n % 1024) (n / 1024 % 64) true (fun _ => 0)
    have hrd {c : Nat} (hc : c < 3) := State.publish_rd32 (s := v.useFree) (h := h) hm (n % 1024) (n / 1024 % 64) true (fun _ => 0) hc
    generalize State.publish _ h _ _ true _ = t at hpub hrd ⊢
    obtain ⟨hrest, hframe⟩ := hpub
    refine ⟨fun f => by rw [hrest]; rfl, by rw [hrest]; rfl, by rw [hrest]; rfl, by rw [hrest]; rfl, by rw [hrest]; rfl, hframe, fun c hc => ?_,
      fun c _ hlt => absurd hlt hk⟩
    rw [(hrd hc).1, if_neg hk]
    rfl

end

end Sys2Proof.Machine
end

section
/-! O51, continued: the command ROW_SLOT in a frame, dark and lit. -/

namespace Sys2Proof.Machine

/-- The half's next slot, and the frame it is of, when the slot has published. -/
theorem slotTimed {P : Fld → Prop} {h k : Nat} {x : ScanHalf} {obs : RowObs} {s t : State} (a : SlotStart P h s (s.slotStarted h obs.loadFail))
    (b : SlotPublished h k x (s.slotSeen h obs) t) :
    (t.scan h).next = (s.scan h).next + 1 ∧ (t.scan h).slots = (s.scan h).slots ∧ (t.scan h).gap = (s.scan h).gap := by
  obtain ⟨_, _, _, _, hstart⟩ := a.scan
  have hseen : (s.slotSeen h obs).scan h = (s.slotStarted h obs.loadFail).scan h := rfl
  have hpub := b.scan
  rw [hseen, hstart] at hpub
  rw [hpub]
  exact ⟨rfl, rfl, rfl⟩

section
variable {half : Half} {h : Nat} {obs : RowObs} {s : State} (hh : Half.no half = h)
include hh

/-- A row slot after which no calibration run is in progress and the channels are quiet. -/
theorem rowSlot_completes {t : State} {φ : State → Prop} (heq : s.rowSlot h obs = t) (hcal : t.calRuns = false) (hquiet : t.dramQuiet) (hφ : φ t) :
    completes (.rowSlot half obs) s φ := by
  refine completes_eq (t := t) (congrArg Host.Outcome.next ?_) rfl hφ
  have hcheck : t.calCheck = t := by
    unfold State.calCheck
    rw [hcal, Bool.false_and, if_neg Bool.false_ne_true]
  rw [hh, heq, hcheck, State.dramSlots_quiet hquiet]

theorem rowSlot_idle (hin : s.inFrame h = false) (hcal : s.calRuns = false) (hquiet : s.dramQuiet) :
    completes (.rowSlot half obs) s (fun t => t.scan h = s.scan h ∧ t.lamp h = s.lamp h ∧ sameElse s t []) := by
  refine rowSlot_completes hh ?_ hcal hquiet ⟨rfl, rfl, .refl s []⟩
  unfold State.rowSlot
  rw [hin, if_pos (by rfl)]

/-- A slot whose half shows no DRAM frame: the command, from what the slot's start makes of the records. -/
theorem rowSlot_published {P : Fld → Prop} {φ : State → Prop} (hP : ∀ f, f.key ≠ (R.LMP_EVT_LINK h).key → P f) (hwf : s.wf = true)
    (hin : s.inFrame h = true) (hsrc : s.rd (R.SCN_FB_CUR_SRC h) = 0) (hcal : s.calRuns = false) (hquiet : s.dramQuiet)
    (hstart : SlotStart P h s (s.slotStarted h obs.loadFail))
    (hpads : forL obs.badPads (fun p a => a.rowGate h p) (s.slotSeen h obs) = s.slotSeen h obs)
    (hφ : ∀ t, SlotPublished h ((s.scan h).next + 1) (s.scan h) (s.slotSeen h obs) t → φ t) : completes (.rowSlot half obs) s φ := by
  have hkept : SlotKept P s (s.slotSeen h obs) := hstart.kept.setLamp h _
  have hsrc' : (s.slotSeen h obs).rd (R.SCN_FB_CUR_SRC h) = 0 :=
    (hkept.rd _ (hP _ (by simp only [Fld.key, R.SCN_FB_CUR_SRC, R.LMP_EVT_LINK]; omega))).trans hsrc
  have hpub := State.slotPublished_spec (by rw [hkept.mem]; exact State.wf_mem hwf) hsrc' ((s.scan h).next + 1) (s.scan h)
  refine rowSlot_completes hh (State.rowSlot_eq hin hpads ((hpub.regs _).trans hsrc')) ?_ ?_ (hφ _ hpub)
  · rw [← hcal]
    unfold State.calRuns State.calPhase
    rw [hpub.regs, hkept.rd R.CAL_STATE_PHASE (hP _ (by simp only [Fld.key, R.CAL_STATE_PHASE, R.LMP_EVT_LINK]; omega))]
  · exact State.dramQuiet_congr (hpub.build.trans hkept.build) (hpub.dram.trans hkept.dram) hquiet

/-- A half whose lamp drive is disabled: a dark slot, zero sums. -/
theorem rowSlot_dark (hwf : s.wf = true) (hin : s.inFrame h = true) (hen : s.enabled .LMP h = false) (hsrc : s.rd (R.SCN_FB_CUR_SRC h) = 0)
    (hk : (s.scan h).next + 1 < 1024) (hrows : (s.scan h).rows ≤ 64) (hcal : s.calRuns = false) (hquiet : s.dramQuiet) :
    completes (.rowSlot half obs) s (fun t =>
      (t.scan h).next = (s.scan h).next + 1 ∧ (t.lamp h).row = none ∧ (t.lamp h).pulses = [] ∧
      t.inFrame h = decide ((s.scan h).next + 1 < (s.scan h).slots) ∧
      (∀ c, c < 3 → t.rd32 .window (rowLoadAt (3 * h + c) + 8) = (if (s.scan h).next + 1 < (s.scan h).slots then 0 else 33554432) ∧
        ((s.scan h).next + 1 < (s.scan h).slots →
          t.rd32 .window (rowLoadAt (3 * h + c) + 12) = (s.scan h).next + 1 + 65536 * (s.scan h).rowOf ((s.scan h).next + 1))) ∧
      (∀ f, t.rd f = s.rd f) ∧
      ∀ a, (a < Space.window.key (rowLoadAt (3 * h)) ∨ Space.window.key (rowLoadAt (3 * h)) + 48 ≤ a) → memGet t.mem a = memGet s.mem a) := by
  have hrun : s.running .LMP h = false := by
    unfold State.running
    rw [hen]
    rfl
  have hstart : SlotStart (fun _ => True) h s (s.slotStarted h obs.loadFail) := State.slotStarted_start (.inl hrun) (.inl hrun)
  have hkept : SlotKept (fun _ => True) s (s.slotSeen h obs) := hstart.kept.setLamp h _
  have hrd (f : Fld) : (s.slotSeen h obs).rd f = s.rd f := hkept.rd f trivial
  have hblank : (s.slotStarted h obs.loadFail).lmpBlk h ≠ 0 := State.lmpBlk_off ((hstart.kept.on trivial).trans hen)
  have hblank' : (s.slotSeen h obs).lmpBlk h ≠ 0 := State.lmpBlk_off ((hkept.on trivial).trans hen)
  have hlamp : ((s.slotSeen h obs).lamp h).row = none ∧ ((s.slotSeen h obs).lamp h).pulses = [] := by
    unfold State.slotSeen State.slotShows
    rw [State.lamp_setLamp_same]
    exact ⟨if_neg hblank, by simp [hblank]⟩
  have hpads : forL obs.badPads (fun p a => a.rowGate h p) (s.slotSeen h obs) = s.slotSeen h obs := by
    refine forL_inv (fun a => a = s.slotSeen h obs) rfl fun p a ha => ?_
    rw [ha]
    refine if_pos ?_
    rw [State.running_congr (hrd _) (hrd _) (hrd _) hkept.pins, hrun]
    rfl
  refine rowSlot_published hh (P := fun _ => True) (fun _ _ => trivial) hwf hin hsrc hcal hquiet hstart hpads fun t hpub => ?_
  have hnext := slotTimed hstart hpub
  obtain ⟨hgated, hlt⟩ : (s.coreGated = false ∧ (s.scan h).gap = false) ∧ (s.scan h).next < (s.scan h).slots := by
    simpa [State.inFrame] using hin
  have hrowpos : 0 < (s.scan h).rows := by
    refine Nat.pos_of_ne_zero fun h0 => ?_
    unfold ScanHalf.slots at hlt
    rw [h0] at hlt
    omega
  refine ⟨hnext.1, hpub.lamp ▸ hlamp.1, hpub.lamp ▸ hlamp.2, ?_, fun c hc => ⟨?_, fun hlt' => ?_⟩, fun f => (hpub.regs f).trans (hrd f), fun a ha => ?_⟩
  · obtain ⟨hnum, hslots, hgap⟩ := hnext
    have hg : t.coreGated = false := by
      rw [← hgated.1, State.coreGated, State.coreGated, hpub.regs, hrd]
    unfold State.inFrame
    dsimp only
    rw [hg, hnum, hslots, hgap, hgated.2]
    rfl
  · rw [hpub.sum c hc, if_neg hblank']
  · have hrow : (s.scan h).rowOf ((s.scan h).next + 1) < (s.scan h).rows := Nat.mod_lt _ hrowpos
    rw [hpub.slot c hc hlt', Nat.mod_eq_of_lt hk, Nat.mod_eq_of_lt (by omega)]
  · rw [hpub.frame a ha, hkept.mem]

/-- A half that emits: the slot's row and pulses, and the sums of the slot after it. -/
theorem rowSlot_lit (hlt2 : h < 2) (hwf : s.wf = true) (hin : s.inFrame h = true) (hrun : s.running .LMP h = true) (hen : s.lampEn = true)
    (hlost : s.trvLost h = false) (hhot : (s.lamp h).hotReq = false) (hemit : s.scanEmits h = true) (hlate : (s.scan h).late = false)
    (hsrc : s.rd (R.SCN_FB_CUR_SRC h) = 0) (hdiag : s.rd (R.LMP_DIAG_CFG_DIAG_EN h) = 0) (hpads : obs.badPads = []) (hfail : obs.loadFail = [])
    (hcal : s.calRuns = false) (hquiet : s.dramQuiet) :
    completes (.rowSlot half obs) s (fun t =>
      (t.scan h).next = (s.scan h).next + 1 ∧ (t.lamp h).row = some ((s.scan h).rowOf (s.scan h).next) ∧ (t.lamp h).refR = s.rd (R.LMP_REF_R h) ∧
      (t.lamp h).refG = s.rd (R.LMP_REF_G h) ∧ (t.lamp h).refB = s.rd (R.LMP_REF_B h) ∧
      (t.lamp h).scale = s.rd (if h = 0 then R.TRV_OUT_L_W else R.TRV_OUT_L_E) ∧
      (t.lamp h).derate = s.rd (R.LMP_DERATE_NOW_D h) ∧ (t.lamp h).dark = false ∧
      (∀ p, p ∈ (t.lamp h).pulses ↔ ∃ i rail, i < 512 ∧ s.railOf h ((s.scan h).rowOf (s.scan h).next) i = some rail ∧ s.forcedOff h i = false ∧
        (s.startPulse h ((s.scan h).rowOf (s.scan h).next) i rail).width ≠ 0 ∧ p = s.startPulse h ((s.scan h).rowOf (s.scan h).next) i rail) ∧
      (∀ c, c < 3 → t.rd32 .window (rowLoadAt (3 * h + c) + 8) =
        if (s.scan h).next + 1 < (s.scan h).slots then
          s.rowSum h ((s.scan h).next + 1) ((s.scan h).rowOf ((s.scan h).next + 1)) c % 33554432 else 33554432) ∧
      ∀ f, f.key ≠ (R.LMP_EVT_LINK h).key → t.rd f = s.rd f) := by
  let P : Fld → Prop := fun f => f.key ≠ (R.LMP_EVT_LINK h).key
  have hP : ∀ f, f.key ≠ (R.LMP_EVT_LINK h).key → P f := fun _ hf => hf
  have hstart : SlotStart P h s (s.slotStarted h obs.loadFail) := State.slotStarted_start (.inr hdiag) (.inr ⟨hfail, fun _ hg => hg⟩)
  have hkept : SlotKept P s (s.slotSeen h obs) := hstart.kept.setLamp h _
  have hlit := hstart.lit hP hlt2 hrun hen hlost hhot hemit
  obtain ⟨l, hl, hrow, hpulses, hdark, hsample⟩ : ∃ l, (s.slotSeen h obs).lamp h = l ∧ l.row = some ((s.scan h).rowOf (s.scan h).next) ∧
      l.pulses = (s.slotStarted h obs.loadFail).slotPulses h (s.scan h).next ((s.scan h).rowOf (s.scan h).next) [] ∧ l.dark = false ∧
      l.refR = s.rd (R.LMP_REF_R h) ∧ l.refG = s.rd (R.LMP_REF_G h) ∧ l.refB = s.rd (R.LMP_REF_B h) ∧
      l.scale = s.rd (if h = 0 then R.TRV_OUT_L_W else R.TRV_OUT_L_E) ∧ l.derate = s.rd (R.LMP_DERATE_NOW_D h) ∧ l.hot = false := by
    refine ⟨_, State.lamp_setLamp_same _ h _, if_pos hlit, ?_, hlate, hstart.refR, hstart.refG, hstart.refB, hstart.scale, hstart.derate,
      hstart.hot.trans hhot⟩
    rw [hfail]
    rw [hfail] at hlit
    exact if_pos (by simp [hlit, hlate])
  obtain ⟨hrefR, hrefG, hrefB, hscale, hderate, hcool⟩ := hsample
  have hseen : SlotStart P h s (s.slotSeen h obs) :=
    ⟨hkept, hstart.scan, hl ▸ hrefR, hl ▸ hrefG, hl ▸ hrefB, hl ▸ hscale, hl ▸ hderate, (hl ▸ hcool).trans hhot.symm⟩
  have hlit' := hseen.lit hP hlt2 hrun hen hlost hhot hemit
  refine rowSlot_published hh (P := P) hP hwf hin hsrc hcal hquiet hstart (by rw [hpads]; rfl) fun t hpub => ?_
  have hnext := (slotTimed hstart hpub).1
  have hlampt : t.lamp h = l := hpub.lamp.trans hl
  rw [hlampt]
  refine ⟨hnext, hrow, hrefR, hrefG, hrefB, hscale, hderate, hdark, fun p => ?_, fun c hc => ?_, fun f hf => (hpub.regs f).trans (hkept.rd f hf)⟩
  · rw [hpulses]
    exact hstart.mem_pulses hP hsrc _ p
  · rw [hpub.sum c hc, if_pos hlit', hkept.rowSum hP hsrc]

end

end Sys2Proof.Machine
end

section
/-! O51, continued: the latch instant of scan-out (R192, R207, R208), and the statement. -/

namespace Sys2Proof.Machine

/-! ### What concerns a half's scan-out -/

/-- A key of the page of scan-out of half `h`. -/
def scnKey (h n : Nat) : Prop := (0x84000 + 0x4000 * h) * 32 ≤ n ∧ n < (0x88000 + 0x4000 * h) * 32

/-- `t` has of the scan-out of half `h` what `s` has: its page, whether it is in its frame gap, and whether a power step winds down. -/
structure ScnKept (h : Nat) (s t : State) : Prop where
  rd : ∀ f, scnKey h f.key → t.rd f = s.rd f
  gap : (t.scan h).gap = (s.scan h).gap
  winding : t.eng.pwr.winding = s.eng.pwr.winding

namespace ScnKept
variable {h : Nat} {s t u : State}

theorem refl (h : Nat) (s : State) : ScnKept h s s := ⟨fun _ _ => rfl, rfl, rfl⟩

theorem trans (a : ScnKept h s t) (b : ScnKept h t u) : ScnKept h s u :=
  ⟨fun f hf => (b.rd f hf).trans (a.rd f hf), b.gap.trans a.gap, b.winding.trans a.winding⟩

theorem of_eq (a : ScnKept h s t) (hb : u.build = t.build) (hr : u.regs = t.regs) (hg : (u.scan h).gap = (t.scan h).gap)
    (hw : u.eng.pwr.winding = t.eng.pwr.winding) : ScnKept h s u :=
  ⟨fun f hf => by rw [← a.rd f hf, State.rd, State.rd, hb, hr], hg.trans a.gap, hw.trans a.winding⟩

theorem wr (a : ScnKept h s t) {f : Fld} {v : Nat} (hf : ¬scnKey h f.key) : ScnKept h s (t.wr f v) :=
  ⟨fun g hg => (State.rd_wr_ne t v fun he => hf (he ▸ hg)).trans (a.rd g hg), a.gap, a.winding⟩

theorem ite {c : Prop} [Decidable c] (ht : ScnKept h s t) (hu : ScnKept h s u) : ScnKept h s (if c then t else u) := by
  split
  · exact ht
  · exact hu

theorem forL {β : Type} {l : List β} {f : β → State → State} (hf : ∀ b ∈ l, ∀ a, ScnKept h a (f b a)) : ScnKept h s (Machine.forL l f s) :=
  List.foldlRecOn (motive := fun a => ScnKept h s a) l (fun a b => f b a) (.refl h s) fun a ha b hb => ha.trans (hf b hb a)

end ScnKept

section
variable {h : Nat} {s t : State} (hh : h < 2)
include hh

/-- A field outside the pages of scan-out. -/
theorem ScnKept.out (a : ScnKept h s t) {f : Fld} {v : Nat} (hf : f.key < 0x84000 * 32 ∨ 0x8C000 * 32 ≤ f.key) : ScnKept h s (t.wr f v) :=
  a.wr (by unfold scnKey; omega)

theorem DramOnly.scn (a : DramOnly s t) : ScnKept h s t := by
  have hkey : ∀ g ∈ drcFlds, g.key < 0x84000 * 32 := by decide
  refine ⟨fun f hf => a.read fun g hg he => ?_, ?_, ?_⟩
  · have := hkey g hg
    unfold scnKey at hf
    omega
  all_goals
    obtain ⟨_, _, _, _, rfl⟩ := a.rest
    rfl

/-! ### The layers, the swap and the banks -/

theorem State.retire_scn (s : State) {p : Nat × Nat} (hp : p.1 < 2) : ScnKept h s (s.retire p) := by
  refine ((ScnKept.refl h s).out hh (f := retiredF p) (.inl ?_)).of_eq rfl rfl rfl rfl
  unfold retiredF
  split
  · simp only [Fld.key, R.LYR_RETIRED_EPOCH_EPOCH]; omega
  · simp only [Fld.key, R.DRN_RETIRED_EPOCH_EPOCH]; omega

variable {g k : Nat} (hg : g < 2) (hk : k < 16)
include hg hk

theorem ScnKept.lay (a : ScnKept h s t) {f : Fld} {v : Nat} (hf : f ∈ layFlds g k) : ScnKept h s (t.wr f v) := by
  obtain ⟨-, hhi⟩ := layFlds_block hf
  exact a.out hh (.inl (by omega))

omit hk in
theorem State.lyRefuse_scn (s : State) (r : Nat) : ScnKept h s (s.lyRefuse g k r) := by
  have hpg : Blk.LYR.pg g = 0x74000 + 0x4000 * g := by simp only [Blk.pg, Blk.win0]; omega
  unfold State.lyRefuse
  rw [State.ignored_eq]
  have hcnt := ignCnt_key (Blk.LYR.pg g) r
  refine (((((ScnKept.refl h s).out hh (f := ignCnt (Blk.LYR.pg g) r) (.inl (by omega))).out hh (.inl ?_)).out hh (.inl ?_)).out hh (.inl ?_)).out hh
    (.inl ?_)
  all_goals
    simp only [Fld.key, R.IGN_OFFSET, R.IGN_VIEW, R.IGN_PATH, R.IGN_REASON]
    omega

omit hk in
theorem State.lyRestart_scn (s : State) : ScnKept h s (s.lyRestart g k).1 := by
  unfold State.lyRestart
  extract_lets x run s1
  have h1 : ScnKept h s s1 := (ScnKept.refl h s).of_eq rfl rfl rfl rfl
  split
  · split
    · exact h1.trans (State.lyRefuse_scn hh hg s1 _)
    · exact h1
  · exact .refl h s

theorem State.lyTake_scn (s : State) (run : Nat) : ScnKept h s (s.lyTake g k run).1 := by
  unfold State.lyTake
  extract_lets x en enCur base mem pal start s0 moved changed s1 s2 run1
  have h0 : ScnKept h s s0 := (ScnKept.refl h s).lay hh hg hk (by simp [layFlds])
  have hset (y : Layer) : ScnKept h s (s0.setLayer g k y) := h0.of_eq rfl rfl rfl rfl
  have h1 : ScnKept h s s1 := ((hset _).lay hh hg hk (by simp [layFlds])).lay hh hg hk (by simp [layFlds])
  split
  · exact (hset _).trans (State.lyRefuse_scn hh hg _ _)
  · exact .ite (h1.trans (State.retire_scn hh _ hg)) h1

theorem State.lyFrame_scn (s : State) (c : Capture) : ScnKept h s (s.lyFrame g k c).1 := by
  unfold State.lyFrame
  extract_lets x own replaced fresh s1 s2
  have h1 : ScnKept h s s1 := (((ScnKept.refl h s).lay hh hg hk (by simp [layFlds])).lay hh hg hk (by simp [layFlds])).lay hh hg hk (by simp [layFlds])
  have h2 : ScnKept h s s2 := (((h1.lay hh hg hk (by simp [layFlds])).lay hh hg hk (by simp [layFlds])).lay hh hg hk (by simp [layFlds])).lay hh hg hk
    (by simp [layFlds])
  have h3 : ScnKept h s ((s2.wr (R.LYR_FRAME_FRAME g k) c.frame).retire (g, k)) :=
    (h2.lay hh hg hk (f := R.LYR_FRAME_FRAME g k) (by simp [layFlds])).trans (State.retire_scn hh _ hg)
  exact h3.of_eq rfl rfl rfl rfl

theorem State.lyLatch_scn (s : State) (e : Nat) : ScnKept h s (s.lyLatch g k e) := by
  unfold State.lyLatch
  extract_lets nxt committed touched capturing r b down run t x live res f bump u y v w
  have hr : ScnKept h s r.1 := State.lyRestart_scn hh hg s
  have ht : ScnKept h s t := by
    change ScnKept h s (if committed then r.1.lyTake g k r.2 else (r.1, r.2, false, false)).1
    split
    · exact hr.trans (State.lyTake_scn hh hg hk _ _)
    · exact hr
  clear_value t run
  have hf : ScnKept h s f.1 := by
    change ScnKept h s (ite _ _ _ : State × Bool × Bool × Nat).1
    split
    · exact ht
    · cases res with
      | complete c =>
        dsimp only
        split
        · exact ht
        · exact ht.trans (State.lyFrame_scn hh hg hk _ c)
      | again => exact ht
      | incomplete => exact ht.lay hh hg hk (f := R.LYR_EVT_INCOMPLETE g k) (by simp [layFlds])
      | held => exact ht
  have hv : ScnKept h s v := ScnKept.of_eq hf rfl rfl rfl rfl
  have hw : ScnKept h s w := .ite (hv.lay hh hg hk (f := R.LYR_GEN_GEN g k) (by simp [layFlds])) hv
  exact (hw.lay hh hg hk (f := R.LYR_STATE_HELD g k) (by simp [layFlds])).lay hh hg hk (by simp [layFlds])

omit hk in
theorem State.layersLatch_scn (s : State) (e : Nat) : ScnKept h s (s.layersLatch g e) := by
  unfold State.layersLatch
  extract_lets s1 s2
  have h1 : ScnKept h s s1 := forN_inv_lt (P := fun a => ScnKept h s a) (.refl h s) fun k hk a ha => ha.trans (State.lyLatch_scn hh hg hk a e)
  have hpg : Blk.LYR.pg g = 0x74000 + 0x4000 * g := by simp only [Blk.pg, Blk.win0]; omega
  have hkey : ∀ f ∈ [R.LYR_COMMIT_MASK g, R.LYR_TOUCH_MASK g, R.RUN (Blk.LYR.pg g)], f.key < 0x84000 * 32 := by
    simp only [List.forall_mem_cons, List.not_mem_nil, false_imp_iff, implies_true, and_true, Fld.key, R.LYR_COMMIT_MASK, R.LYR_TOUCH_MASK, R.RUN]
    omega
  simp only [List.forall_mem_cons, List.not_mem_nil, false_imp_iff, implies_true, and_true] at hkey
  obtain ⟨hcommit, htouch, hrun⟩ := hkey
  have h2 : ScnKept h s s2 := (h1.out hh (.inl hcommit)).out hh (.inl htouch)
  exact .ite (h2.out hh (.inl hrun)) h2

omit hk hg in
theorem State.swapScan_scn (s : State) : ScnKept h s s.swapScan.1 := by
  unfold State.swapScan
  extract_lets on all s1
  have hon : ∀ i ∈ on, i < 2 := fun i hi => List.mem_range.1 (List.mem_filter.1 hi).1
  have h1 : ScnKept h s s1 := by
    refine .forL fun i hi a => ?_
    extract_lets a1 a2 d
    have hcount : ScnKept h a (a.count (R.PRS_EVT_OVERRUN i)) :=
      (ScnKept.refl h a).out hh (.inl (by have := hon i hi; simp only [Fld.key, R.PRS_EVT_OVERRUN]; omega))
    have ha1 : ScnKept h a a1 := .ite (.refl h a) hcount
    have ha2 : ScnKept h a a2 := .ite ha1 (ha1.of_eq rfl rfl rfl rfl)
    exact ha2.of_eq rfl rfl rfl rfl
  exact h1.trans (.forL fun i _ a => (ScnKept.refl h a).of_eq rfl rfl rfl rfl)

omit hk in
theorem State.darnSwap_scn (s : State) : ScnKept h s (s.darnSwap g) := by
  have hkey : ∀ f ∈ [R.DRN_BANK_CUR g, R.DRN_BANK_PENDING g], f.key < 0x84000 * 32 := by
    simp only [List.forall_mem_cons, List.not_mem_nil, false_imp_iff, implies_true, and_true, Fld.key, R.DRN_BANK_CUR, R.DRN_BANK_PENDING]
    omega
  simp only [List.forall_mem_cons, List.not_mem_nil, false_imp_iff, implies_true, and_true] at hkey
  obtain ⟨hcur, hpend⟩ := hkey
  exact .ite ((((ScnKept.refl h s).out hh (.inl hcur)).out hh (.inl hpend)).trans (State.retire_scn hh _ hg)) (.refl h s)

end

/-! ### Scan-out at the latch instant -/

section
variable {h g : Nat}

theorem State.reachSlot_scn (s : State) (g k : Nat) : ScnKept h s (s.reachSlot g k) := by
  obtain ⟨hk, hf, -⟩ := State.reachSlot_kept (fun _ => True) s g k
  refine ⟨fun f _ => hk.rd f trivial, ?_, ?_⟩
  · obtain ⟨_, _, _, _, hx⟩ := hf h
    rw [hx]
  · obtain ⟨_, _, _, hx⟩ := hk.rest
    rw [hx]

/-- A frame gap stays one. -/
theorem State.scan_setScan_gap (s : State) {x : ScanHalf} (hx : x.gap = (s.scan g).gap) : ((s.setScan g x).scan h).gap = (s.scan h).gap := by
  by_cases hne : h = g
  · subst hne
    rw [State.scan_setScan_same, hx]
  · rw [State.scan_setScan_ne s x hne]

variable (hh : h < 2)
include hh

theorem State.fetchRow_scn (s : State) (g j r : Nat) : ScnKept h s (s.fetchRow g j r) := by
  unfold State.fetchRow
  extract_lets a e s1
  have h1 : ScnKept h s s1 := DramOnly.scn hh (s.dramUseAs_dramOnly _ _ _ _ _)
  clear_value s1
  exact .ite (h1.of_eq rfl rfl (s1.scan_setScan_gap rfl) rfl) (.refl h s)

theorem State.gapFetch_scn (s : State) (g : Nat) : ScnKept h s (s.gapFetch g) :=
  .ite ((State.fetchRow_scn hh _ _ _ _).trans (State.fetchRow_scn hh _ _ _ _)) (.refl h _)

/-- The other half's latch leaves a half's scan-out. -/
theorem State.scanLatch_other (s : State) (hne : h ≠ g) (swapped : Bool) : ScnKept h s (s.scanLatch g swapped) := by
  have hkey : ∀ f ∈ [R.SCN_EVT_NOSWAP g, R.SCN_FB_CUR_SRC g, R.SCN_FB_CUR_BASE g, R.SCN_FB_CUR_PENDING g, R.SCN_COMMIT_GO g], ¬scnKey h f.key := by
    simp only [List.forall_mem_cons, List.not_mem_nil, false_imp_iff, implies_true, and_true, Fld.key, R.SCN_EVT_NOSWAP, R.SCN_FB_CUR_SRC,
      R.SCN_FB_CUR_BASE, R.SCN_FB_CUR_PENDING, R.SCN_COMMIT_GO, scnKey]
    omega
  simp only [List.forall_mem_cons, List.not_mem_nil, false_imp_iff, implies_true, and_true] at hkey
  obtain ⟨hnoswap, hsrc, hbase, hpend, hgo⟩ := hkey
  unfold State.scanLatch
  extract_lets s1 s2 s3 x
  have h1 : ScnKept h s s1 := .ite ((ScnKept.refl h s).wr hnoswap) (.refl h s)
  have h2 : ScnKept h s s2 := .ite ((((h1.wr hsrc).wr hbase).wr hpend).wr hgo) h1
  have h3 : ScnKept h s s3 := .ite h2 (h2.trans (State.reachSlot_scn _ _ _))
  clear_value s3
  refine ScnKept.trans (h3.of_eq (u := s3.setScan g { x with gap := true, first := none, fetch := [] }) rfl rfl ?_ rfl) (State.gapFetch_scn hh _ g)
  rw [State.scan_setScan_ne s3 _ hne]

/-- What the latch instant makes of a half's scan-out: its frame gap, and the pending SCN_FB taken. -/
structure FbTaken (h : Nat) (s t : State) : Prop where
  gap : (t.scan h).gap = true
  pending : s.rd (R.SCN_FB_CUR_PENDING h) = 1 → t.rd (R.SCN_FB_CUR_PENDING h) = 0
  go : s.rd (R.SCN_FB_CUR_PENDING h) = 1 → t.rd (R.SCN_COMMIT_GO h) = 0
  src : s.rd (R.SCN_FB_CUR_PENDING h) = 1 → t.rd (R.SCN_FB_CUR_SRC h) = s.rd (R.SCN_FB_SRC h) % 2
  base : s.rd (R.SCN_FB_CUR_PENDING h) = 1 → t.rd (R.SCN_FB_CUR_BASE h) = s.rd (R.SCN_FB_BASE h) % 1048576

omit hh in
theorem FbTaken.of_kept {s t u v : State} (a : ScnKept h s t) (b : FbTaken h t u) (c : ScnKept h u v) : FbTaken h s v := by
  have hkey : ∀ f ∈ [R.SCN_FB_CUR_PENDING h, R.SCN_COMMIT_GO h, R.SCN_FB_CUR_SRC h, R.SCN_FB_CUR_BASE h, R.SCN_FB_SRC h, R.SCN_FB_BASE h],
      scnKey h f.key := by
    simp only [List.forall_mem_cons, List.not_mem_nil, false_imp_iff, implies_true, and_true, Fld.key, R.SCN_FB_SRC, R.SCN_FB_BASE, R.SCN_FB_CUR_SRC,
      R.SCN_FB_CUR_BASE, R.SCN_FB_CUR_PENDING, R.SCN_COMMIT_GO, scnKey]
    omega
  simp only [List.forall_mem_cons, List.not_mem_nil, false_imp_iff, implies_true, and_true] at hkey
  obtain ⟨hpend, hgo, hcsrc, hcbase, hsrc, hbase⟩ := hkey
  obtain ⟨hgap, hp, hg, hs, hb⟩ := b
  rw [a.rd _ hpend] at hp hg hs hb
  rw [a.rd _ hsrc] at hs
  rw [a.rd _ hbase] at hb
  exact ⟨c.gap.trans hgap, fun h1 => (c.rd _ hpend).trans (hp h1), fun h1 => (c.rd _ hgo).trans (hg h1), fun h1 => (c.rd _ hcsrc).trans (hs h1),
    fun h1 => (c.rd _ hcbase).trans (hb h1)⟩

/-- A half's own latch. -/
theorem State.scanLatch_own (s : State) (swapped : Bool) : FbTaken h s (s.scanLatch h swapped) := by
  unfold State.scanLatch
  extract_lets s1 s2 s3 x
  have h1 (f : Fld) (hf : f.key ≠ (R.SCN_EVT_NOSWAP h).key) : s1.rd f = s.rd f := by
    dsimp only [s1]
    split
    · exact State.rd_count_ne s hf
    · rfl
  have hpend1 := h1 (R.SCN_FB_CUR_PENDING h) (by simp only [Fld.key, R.SCN_FB_CUR_PENDING, R.SCN_EVT_NOSWAP]; omega)
  have hsrc1 := h1 (R.SCN_FB_SRC h) (by simp only [Fld.key, R.SCN_FB_SRC, R.SCN_EVT_NOSWAP]; omega)
  have hbase1 := h1 (R.SCN_FB_BASE h) (by simp only [Fld.key, R.SCN_FB_BASE, R.SCN_EVT_NOSWAP]; omega)
  clear_value s1
  have hcur (hp : s.rd (R.SCN_FB_CUR_PENDING h) = 1) : s2.rd (R.SCN_FB_CUR_PENDING h) = 0 ∧ s2.rd (R.SCN_COMMIT_GO h) = 0 ∧
      s2.rd (R.SCN_FB_CUR_SRC h) = s.rd (R.SCN_FB_SRC h) % 2 ∧ s2.rd (R.SCN_FB_CUR_BASE h) = s.rd (R.SCN_FB_BASE h) % 1048576 := by
    have hs2 : s2 = (((s1.wr (R.SCN_FB_CUR_SRC h) (s1.rd (R.SCN_FB_SRC h))).wr (R.SCN_FB_CUR_BASE h) (s1.rd (R.SCN_FB_BASE h))).wr
        (R.SCN_FB_CUR_PENDING h) 0).wr (R.SCN_COMMIT_GO h) 0 := if_pos (by rw [State.on, hpend1, hp]; rfl)
    rw [hs2, ← hsrc1, ← hbase1]
    refine ⟨?_, ?_, ?_, ?_⟩
    · rw [State.rd_wr_ne _ _ (by simp only [Fld.key, R.SCN_FB_CUR_PENDING, R.SCN_COMMIT_GO]; omega), State.rd_wr_same]
      rfl
    · rw [State.rd_wr_same]
      rfl
    · rw [State.rd_wr_ne, State.rd_wr_ne, State.rd_wr_ne, State.rd_wr_same]
      · rfl
      all_goals
        simp only [Fld.key, R.SCN_FB_CUR_SRC, R.SCN_FB_CUR_BASE, R.SCN_FB_CUR_PENDING, R.SCN_COMMIT_GO]
        omega
    · rw [State.rd_wr_ne, State.rd_wr_ne, State.rd_wr_same]
      · rfl
      all_goals
        simp only [Fld.key, R.SCN_FB_CUR_BASE, R.SCN_FB_CUR_PENDING, R.SCN_COMMIT_GO]
        omega
  clear_value s2
  have h3 : ScnKept h s2 s3 := .ite (.refl h s2) (State.reachSlot_scn _ _ _)
  clear_value s3
  have hrd (f : Fld) (hf : scnKey h f.key) : ((s3.setScan h { x with gap := true, first := none, fetch := [] }).gapFetch h).rd f = s2.rd f :=
    ((State.gapFetch_scn hh _ h).rd f hf).trans (h3.rd f hf)
  have hkey : ∀ f ∈ [R.SCN_FB_CUR_PENDING h, R.SCN_COMMIT_GO h, R.SCN_FB_CUR_SRC h, R.SCN_FB_CUR_BASE h], scnKey h f.key := by
    simp only [List.forall_mem_cons, List.not_mem_nil, false_imp_iff, implies_true, and_true, Fld.key, R.SCN_FB_CUR_SRC,
      R.SCN_FB_CUR_BASE, R.SCN_FB_CUR_PENDING, R.SCN_COMMIT_GO, scnKey]
    omega
  simp only [List.forall_mem_cons, List.not_mem_nil, false_imp_iff, implies_true, and_true] at hkey
  obtain ⟨hpend, hgo, hsrc, hbase⟩ := hkey
  refine ⟨(State.gapFetch_scn hh _ h).gap.trans (congrArg ScanHalf.gap (State.scan_setScan_same s3 h _)), fun hp => ?_, fun hp => ?_, fun hp => ?_,
    fun hp => ?_⟩
  · rw [hrd _ hpend]; exact (hcur hp).1
  · rw [hrd _ hgo]; exact (hcur hp).2.1
  · rw [hrd _ hsrc]; exact (hcur hp).2.2.1
  · rw [hrd _ hbase]; exact (hcur hp).2.2.2

end

/-! ### Lamp diagnosis at the latch instant -/

/-- `t` is `s` but for the registers of lamp drive, the lamps' records of half `g`, and what no statement here reads. -/
structure LmpOnly (g : Nat) (s t : State) : Prop where
  rd : ∀ f, f.key < 0x8C000 * 32 → t.rd f = s.rd f
  scan : t.eng.scan = s.eng.scan
  winding : t.eng.pwr.winding = s.eng.pwr.winding
  other : ∀ i, i ≠ g → t.lamp i = s.lamp i

namespace LmpOnly
variable {g : Nat} {s t u : State}

theorem refl (g : Nat) (s : State) : LmpOnly g s s := ⟨fun _ _ => rfl, rfl, rfl, fun _ _ => rfl⟩

theorem trans (a : LmpOnly g s t) (b : LmpOnly g t u) : LmpOnly g s u :=
  ⟨fun f hf => (b.rd f hf).trans (a.rd f hf), b.scan.trans a.scan, b.winding.trans a.winding, fun i hi => (b.other i hi).trans (a.other i hi)⟩

theorem setLamp (a : LmpOnly g s t) (x : LampHalf) : LmpOnly g s (t.setLamp g x) :=
  ⟨a.rd, a.scan, a.winding, fun i hi => (State.lamp_setLamp_ne t x hi).trans (a.other i hi)⟩

theorem wr (a : LmpOnly g s t) {f : Fld} {v : Nat} (hf : f ∈ lmpFlds g) : LmpOnly g s (t.wr f v) := by
  have hkey : 0x8C000 * 32 ≤ f.key := by
    revert f
    simp only [lmpFlds, List.mem_cons, List.not_mem_nil, or_false, forall_eq_or_imp, forall_eq, Fld.key, R.LMP_CNT_B_GOOD, R.LMP_CNT_A_OPEN,
      R.LMP_CNT_A_SHORT, R.LMP_CNT_B_UNVERIFIED, R.LMP_EVT_OPEN, R.LMP_EVT_SHORT, R.LMP_ROW_STUCK_LO_ROWS, R.LMP_ROW_STUCK_HI_ROWS,
      R.LMP_STATUS_ROW_STUCK, R.LMP_EVT_ROW, R.LMP_ROW_LAST_ROW, R.LMP_ROW_LAST_KIND]
    omega
  exact ⟨fun e he => (State.rd_wr_ne t v (by omega)).trans (a.rd e he), a.scan, a.winding, a.other⟩

theorem ite {c : Prop} [Decidable c] (ht : LmpOnly g s t) (hu : LmpOnly g s u) : LmpOnly g s (if c then t else u) := by
  split
  · exact ht
  · exact hu

theorem forL {β : Type} {l : List β} {f : β → State → State} (hf : ∀ b a, LmpOnly g a (f b a)) : LmpOnly g s (Machine.forL l f s) :=
  forL_inv (LmpOnly g s) (.refl g s) fun b a ha => ha.trans (hf b a)

theorem scn {h : Nat} (hh : h < 2) (a : LmpOnly g s t) : ScnKept h s t := by
  refine ⟨fun f hf => a.rd f ?_, ?_, a.winding⟩
  · unfold scnKey at hf
    omega
  · rw [State.scan, a.scan]
    rfl

end LmpOnly

section
variable {g : Nat}

theorem State.lampSet_only (s : State) (i r st : Nat) : LmpOnly g s (s.lampSet g i r st) := by
  have hcnt {a t : State} (ha : LmpOnly g a t) (st v : Nat) : LmpOnly g a (t.wr (lampCntF g st) v) := by
    unfold lampCntF
    split <;> exact ha.wr (by simp [lmpFlds])
  unfold State.lampSet
  extract_lets x s1 s2 s3
  have h1 : LmpOnly g s s1 := (LmpOnly.refl g s).setLamp _
  have h3 : LmpOnly g s s3 := hcnt (hcnt h1 _ _) st _
  clear_value s3
  exact .ite (.refl g s) (.ite (h3.wr (f := R.LMP_EVT_OPEN g) (by simp [lmpFlds])) (.ite (h3.wr (f := R.LMP_EVT_SHORT g) (by simp [lmpFlds])) h3))

theorem State.showRows_only (s : State) : LmpOnly g s (s.showRows g) :=
  (((LmpOnly.refl g s).wr (f := R.LMP_ROW_STUCK_LO_ROWS g) (by simp [lmpFlds])).wr (f := R.LMP_ROW_STUCK_HI_ROWS g) (by simp [lmpFlds])).wr
    (f := R.LMP_STATUS_ROW_STUCK g) (by simp [lmpFlds])

theorem State.rowOpen_only (s : State) (r : Nat) : LmpOnly g s (s.rowOpen g r) := by
  unfold State.rowOpen
  extract_lets x s1
  have h1 : LmpOnly g s s1 := ((LmpOnly.refl g s).setLamp _).trans (State.showRows_only _)
  clear_value s1
  exact .ite (((h1.wr (f := R.LMP_EVT_ROW g) (by simp [lmpFlds])).wr (f := R.LMP_ROW_LAST_ROW g) (by simp [lmpFlds])).wr (f := R.LMP_ROW_LAST_KIND g)
    (by simp [lmpFlds])) h1

theorem State.measure_only (s : State) (i r code : Nat) : LmpOnly g s (s.measure g i r code) := by
  unfold State.measure
  extract_lets x w twice held s1
  have h1 : LmpOnly g s s1 := (LmpOnly.refl g s).setLamp _
  exact .ite (h1.trans (State.lampSet_only _ _ _ _)) h1

theorem State.measureSlot_only (s : State) (r : Nat) (pins : List (Nat × Nat)) : LmpOnly g s (s.measureSlot g r pins) := by
  unfold State.measureSlot
  extract_lets found codes all
  exact .ite (.refl g s) ((LmpOnly.ite (State.rowOpen_only s r) (.refl g s)).trans (.forL fun e a => State.measure_only a e.1 r e.2))

theorem State.slotEnd_only (s : State) : LmpOnly g s (s.slotEnd g) := by
  unfold State.slotEnd
  extract_lets y
  split
  · exact (State.measureSlot_only s _ _).setLamp _
  · exact (LmpOnly.refl g s).setLamp _

theorem State.lampsHeld_only (s : State) : LmpOnly g s (s.lampsHeld g) := by
  refine .forL fun e a => ?_
  extract_lets x b
  have hb : LmpOnly g a b := (LmpOnly.refl g a).setLamp _
  exact .ite hb (hb.trans (State.lampSet_only _ _ _ _))

/-- The latch instant ends the half's light: no row, no pulses; the other half's lamps stay. -/
theorem State.lampLatch_spec (s : State) :
    LmpOnly g s (s.lampLatch g) ∧ ((s.lampLatch g).lamp g).row = none ∧ ((s.lampLatch g).lamp g).pulses = [] := by
  unfold State.lampLatch
  extract_lets t n x s0 y frame
  have ht : LmpOnly g s t := (State.slotEnd_only s).trans (State.lampsHeld_only _)
  clear_value t
  have h0 : LmpOnly g s s0 := ht.setLamp _
  have hy : y.row = none ∧ y.pulses = [] := by
    have hlamp : s0.lamp g = _ := State.lamp_setLamp_same t g _
    dsimp only [y]
    rw [hlamp]
    exact ⟨rfl, rfl⟩
  clear_value s0 y
  have hset (z : LampHalf) : (s0.setLamp g z).lamp g = z := State.lamp_setLamp_same s0 g z
  split
  · refine ⟨h0.setLamp _, ?_, ?_⟩
    · rw [hset]; exact hy.1
    · rw [hset]; exact hy.2
  · have hshow (z : LampHalf) : ((s0.setLamp g z).showRows g).lamp g = z := hset z
    refine ⟨(h0.setLamp _).trans (State.showRows_only _), ?_, ?_⟩
    · rw [hshow]; exact hy.1
    · rw [hshow]; exact hy.2

end

end Sys2Proof.Machine
end

section
/-! O51, continued: GO, the latch instant, and the statement. -/

namespace Sys2Proof.Machine

/-! ### GO (R208) -/

theorem fldsAt_scnCommit (b : Build) {h : Nat} (hh : h < 2) : fldsAt .SCN b h 0x24 = some ([R.SCN_COMMIT_GO h], false) := by
  rcases (show h = 0 ∨ h = 1 by omega) with rfl | rfl <;> cases b <;> rfl

theorem State.cmWrite_scnGo (s : State) (h : Nat) (path : Path) : s.cmWrite ⟨.SCN, h, 0x24, path, .set, 1⟩ = started s (s.scnGo h) := by
  simp [State.cmWrite, bitOf]

theorem scnGo_completes {half : Half} {h : Nat} {s : State} {path : Path} (hh : Half.no half = h) (hr : s.reaches path (R.SCN_COMMIT_GO h) .set)
    (hpend : s.rd (R.SCN_FB_CUR_PENDING h) = 0) :
    completes (.scnGo path .set half) s (fun t =>
      t.rd (R.SCN_COMMIT_GO h) = 1 ∧ t.rd (R.SCN_FB_CUR_PENDING h) = 1 ∧
      sameElse s t ([R.SCN_COMMIT_GO h, R.SCN_FB_CUR_PENDING h] ++ calFlds)) := by
  have hlt : h < 2 := hh ▸ Half.no_lt half
  have hgo : s.scnGo h = .ok ((s.wr (R.SCN_COMMIT_GO h) 1).wr (R.SCN_FB_CUR_PENDING h) 1) :=
    if_neg (by rw [State.off_of_zero hpend]; decide)
  have hcm := (State.cmWrite_scnGo s h path).trans (congrArg (started s) hgo)
  have heq : s.command path .set (R.SCN_COMMIT_GO h) 1 =
      ((s.wr (R.SCN_COMMIT_GO h) 1).wr (R.SCN_FB_CUR_PENDING h) 1).calCheck.answered path := by
    rcases (show h = 0 ∨ h = 1 by omega) with rfl | rfl
    · have h := State.command_runs (v := 1) (a := 0x85024) (raw := 1) (rs := []) hr rfl (by decide) rfl (fldsAt_scnCommit s.build (by decide)) (by decide)
        (by decide) (by decide) (by decide) (by decide) (by decide) (by decide) hcm
      rwa [State.counted_nil] at h
    · have h := State.command_runs (v := 1) (a := 0x89024) (raw := 1) (rs := []) hr rfl (by decide) rfl (fldsAt_scnCommit s.build (by decide)) (by decide)
        (by decide) (by decide) (by decide) (by decide) (by decide) (by decide) hcm
      rwa [State.counted_nil] at h
  have hcal : ∀ g ∈ calFlds, g.key < 0x84000 * 32 := by decide
  have hkeep (u : State) {f : Fld} (hf : 0x84000 * 32 ≤ f.key) : (u.calCheck.answered path).rd f = u.rd f := by
    simp only [calFlds, List.forall_mem_cons, List.not_mem_nil, false_imp_iff, implies_true, and_true] at hcal
    rw [State.rd_answered, State.rd_calCheck _ (by omega) (by omega) (by omega)]
  have hkey : (R.SCN_COMMIT_GO h).key = (0x84024 + 0x4000 * h) * 32 ∧ (R.SCN_FB_CUR_PENDING h).key = (0x84028 + 0x4000 * h) * 32 + 30 := by
    simp only [Fld.key, R.SCN_COMMIT_GO, R.SCN_FB_CUR_PENDING, Nat.add_zero, and_self]
  obtain ⟨hkgo, hkpend⟩ := hkey
  refine completes_eq (by subst hh; rfl) heq ⟨?_, ?_, ?_⟩
  · rw [hkeep _ (by omega), State.rd_wr_ne _ _ (by omega), State.rd_wr_same]
    rfl
  · rw [hkeep _ (by omega), State.rd_wr_same]
    rfl
  · exact ((((sameElse.refl s [R.SCN_COMMIT_GO h, R.SCN_FB_CUR_PENDING h]).wr (by simp)).wr (by simp)).calCheck).answered path

/-! ### The latch instant (R192) -/

/-- The condition under which the latch instant does not come. -/
def State.latchWaits (s : State) : Bool :=
  !s.isTile || !s.epcRuns || s.eng.lay.latched || (s.scnLive 0 && s.inFrame 0) || (s.scnLive 1 && s.inFrame 1)

theorem latchInstant_waits {s : State}
    (hwait : s.build = .head ∨ s.epcRuns = false ∨ s.eng.lay.latched = true ∨ (s.scnLive 0 && s.inFrame 0 || s.scnLive 1 && s.inFrame 1) = true)
    (hquiet : s.dramQuiet) :
    completes .latchInstant s (fun t => t.eng.lay = s.eng.lay ∧ (∀ h, t.scan h = s.scan h) ∧ sameElse s t []) := by
  have hw : s.latchWaits = true := by
    unfold State.latchWaits State.isTile
    rcases hwait with hb | hrun | hlat | hfr
    · rw [hb]; rfl
    · rw [hrun]; simp
    · rw [hlat]; simp
    · rw [Bool.or_assoc, hfr, Bool.or_true]
  have heq : s.latchInstant = s := if_pos hw
  refine completes_eq (t := s) (congrArg Host.Outcome.next ?_) rfl ⟨rfl, fun _ => rfl, .refl s []⟩
  rw [heq, State.dramSlots_quiet hquiet]

/-- Scan-out and the lamps of half `h` after the latch instant. -/
structure Latched (h : Nat) (s t : State) : Prop where
  fb : FbTaken h s t
  row : (t.lamp h).row = none
  pulses : (t.lamp h).pulses = []

theorem State.phaseStep_eng (s : State) : s.phaseStep.eng = s.eng := by
  unfold State.phaseStep
  split
  · rfl
  · split
    · rfl
    · dsimp only
      split <;> rfl

theorem State.mendLatch_scn (h : Nat) (s : State) : ScnKept h s s.mendLatch := (ScnKept.refl h s).of_eq rfl rfl rfl rfl

theorem State.phaseStep_scn {h : Nat} (hh : h < 2) (s : State) : ScnKept h s s.phaseStep := by
  unfold State.phaseStep
  split
  · exact .refl h s
  · have h1 : ScnKept h s ((s.count R.EPC_EVT_PHASE_STEP).setEpc { s.epc with step := none, good := 0 }) :=
      ((ScnKept.refl h s).out hh (f := R.EPC_EVT_PHASE_STEP) (.inr (by decide))).of_eq rfl rfl rfl rfl
    exact .ite (.refl h s) (.ite (h1.out hh (f := R.EPC_STATE_STATE) (.inr (by decide))) h1)

theorem State.scansLatched {h : Nat} (hh : h < 2) {s t : State} (a : ScnKept h s t) (b0 b1 : Bool) :
    FbTaken h s ((t.scanLatch 0 b0).scanLatch 1 b1) ∧ ((t.scanLatch 0 b0).scanLatch 1 b1).eng.pwr.winding = t.eng.pwr.winding := by
  have hwest : ScnKept 1 t (t.scanLatch 0 b0) := State.scanLatch_other (by decide) t (by decide) b0
  have heast : ScnKept 0 (t.scanLatch 0 b0) ((t.scanLatch 0 b0).scanLatch 1 b1) := State.scanLatch_other (by decide) _ (by decide) b1
  refine ⟨?_, heast.winding.trans hwest.winding⟩
  rcases (show h = 0 ∨ h = 1 by omega) with rfl | rfl
  · exact .of_kept a (State.scanLatch_own hh t b0) heast
  · exact .of_kept (a.trans hwest) (State.scanLatch_own hh _ b1) (.refl 1 _)

theorem State.lampsLatched (s : State) {h : Nat} (hh : h < 2) :
    ScnKept h s ((s.lampLatch 0).lampLatch 1) ∧ (((s.lampLatch 0).lampLatch 1).lamp h).row = none ∧
      (((s.lampLatch 0).lampLatch 1).lamp h).pulses = [] := by
  obtain ⟨hwest, hrow0, hpulse0⟩ := s.lampLatch_spec (g := 0)
  obtain ⟨heast, hrow1, hpulse1⟩ := (s.lampLatch 0).lampLatch_spec (g := 1)
  refine ⟨(hwest.scn hh).trans (heast.scn hh), ?_⟩
  rcases (show h = 0 ∨ h = 1 by omega) with rfl | rfl
  · rw [heast.other 0 (by decide)]
    exact ⟨hrow0, hpulse0⟩
  · exact ⟨hrow1, hpulse1⟩

/-- Both halves at the latch instant. -/
theorem State.latchInstant_spec {s : State} (go : s.latchWaits = false) (wind : s.eng.pwr.winding = false) {h : Nat} (hh : h < 2) :
    Latched h s s.latchInstant ∧ s.latchInstant.eng.lay.latched = true ∧ s.latchInstant.eng.lay.lastLatch = some s.epochNo := by
  unfold State.latchWaits at go
  unfold State.latchInstant
  rw [go, if_neg Bool.false_ne_true]
  extract_lets e s0 p s1 s2 s3 s4
  have h1 : ScnKept h s s1 :=
    (((((State.layersLatch_scn hh (by decide) s e).trans (State.layersLatch_scn hh (by decide) _ e)).trans (State.swapScan_scn hh s0)).trans
      (State.darnSwap_scn hh (by decide) _)).trans (State.darnSwap_scn hh (by decide) _)).trans
      (State.mendLatch_scn h _)
  clear_value s1
  obtain ⟨b0, b1, hs2⟩ : ∃ b0 b1, s2 = (s1.scanLatch 0 b0).scanLatch 1 b1 := ⟨_, _, rfl⟩
  clear_value s2
  have h2 := State.scansLatched hh h1 b0 b1
  rw [← hs2] at h2
  obtain ⟨hfb, hwind2⟩ := h2
  have h3 : ScnKept h s2 s3 ∧ (s3.lamp h).row = none ∧ (s3.lamp h).pulses = [] := s2.lampsLatched hh
  clear_value s3
  obtain ⟨hk3, hrow, hpulses⟩ := h3
  have h4 : ScnKept h s3 s4 := State.phaseStep_scn hh s3
  have heng : s4.eng = s3.eng := s3.phaseStep_eng
  clear_value s4
  have hwind : s4.eng.pwr.winding = false := by rw [h4.winding, hk3.winding, hwind2, h1.winding, wind]
  have hdone : (s4.setLay { s4.eng.lay with lastLatch := some e, latched := true }).windDone 3 =
      s4.setLay { s4.eng.lay with lastLatch := some e, latched := true } := by
    refine if_neg ?_
    change ¬(_ && s4.eng.pwr.winding && _) = true
    rw [hwind]
    simp
  rw [hdone]
  have hlamp : s4.lamp h = s3.lamp h := by rw [State.lamp, heng]; rfl
  have h5 : ScnKept h s4 (s4.setLay { s4.eng.lay with lastLatch := some e, latched := true }) := (ScnKept.refl h s4).of_eq rfl rfl rfl rfl
  exact ⟨⟨.of_kept (.refl h s) hfb ((hk3.trans h4).trans h5), (congrArg LampHalf.row hlamp).trans hrow, (congrArg LampHalf.pulses hlamp).trans hpulses⟩,
    rfl, rfl⟩

theorem DramOnly.latched {h : Nat} (hh : h < 2) {s t u : State} (a : DramOnly t u) (b : Latched h s t) : Latched h s u := by
  obtain ⟨hfb, hrow, hpulses⟩ := b
  have hlamp : u.lamp h = t.lamp h := by obtain ⟨_, _, _, _, rfl⟩ := a.rest; rfl
  exact ⟨.of_kept (.refl h s) hfb (DramOnly.scn hh a), hlamp ▸ hrow, hlamp ▸ hpulses⟩

theorem latchInstant_comes {s : State} (tile : s.build = .tile) (runs : s.epcRuns = true) (latched : s.eng.lay.latched = false)
    (wind : s.eng.pwr.winding = false) (frames : (s.scnLive 0 && s.inFrame 0 || s.scnLive 1 && s.inFrame 1) = false) :
    completes .latchInstant s (fun t => t.eng.lay.latched = true ∧ t.eng.lay.lastLatch = some s.epochNo ∧ ∀ h, h < 2 → Latched h s t) := by
  have go : s.latchWaits = false := by
    rw [State.latchWaits, State.isTile, tile, runs, latched, Bool.or_assoc, frames]
    rfl
  have hdram := s.latchInstant.dramSlots_dramOnly
  have hlay : s.latchInstant.dramSlots.eng.lay = s.latchInstant.eng.lay := by
    obtain ⟨_, _, _, _, heq⟩ := hdram.rest
    rw [heq]
  obtain ⟨-, hlatched, hlast⟩ := State.latchInstant_spec go wind (show 0 < 2 by decide)
  exact completes_eq rfl rfl ⟨hlay ▸ hlatched, hlay ▸ hlast, fun h hh => hdram.latched hh (State.latchInstant_spec go wind hh).1⟩

/-! ### The statement -/

/-- Settles O51: a row slot is its start, what it shows and what it publishes (`rowSlot_eq`); the pulses are those of the formulas
(`SlotStart.mem_pulses`); the latch instant takes SCN_FB and ends the light of both halves (`latchInstant_spec`). -/
theorem rowSlotsAndLatch : Obligations.RowSlotsAndLatch := by
  unfold Obligations.RowSlotsAndLatch
  intro s
  refine ⟨fun half h k r hh hk hr => ?_, latchInstant_waits, fun tile runs latched wind frames => ?_⟩
  · subst hk hr
    refine ⟨fun obs hin hcal hq => rowSlot_idle hh hin hcal hq, fun obs hwf hin hen hsrc _ hk hrows hcal hq => rowSlot_dark hh hwf hin hen hsrc hk hrows hcal hq,
      fun obs hwf hin hrun hen hlost hhot hemit hlate hsrc hdiag hpads hfail hcal hq => ?_, fun path hr hpend => scnGo_completes hh hr hpend⟩
    obtain ⟨t, hnext, hnum, hrow, hR, hG, hB, hscale, hderate, hdark, hpulses, hsum, hrd⟩ :=
      rowSlot_lit hh (hh ▸ Half.no_lt half) hwf hin hrun hen hlost hhot hemit hlate hsrc hdiag hpads hfail hcal hq
    refine ⟨t, hnext, hnum, hrow, hR, hG, hB, hscale, hderate, hdark, fun p hp => ?_, fun i rail p hi hrail hforced hp => ?_, hsum, hrd⟩
    · obtain ⟨i, rail, hi, hrail, hforced, hw, rfl⟩ := (hpulses p).1 hp
      exact ⟨hi, hw, hforced, fun hnone => absurd (hrail.symm.trans hnone) (by simp)⟩
    · change p = s.startPulse h _ i rail at hp
      subst hp
      refine ⟨fun hp => ?_, fun hw => (hpulses _).2 ⟨i, rail, hi, hrail, hforced, hw, rfl⟩⟩
      obtain ⟨_, _, _, _, _, hw, heq⟩ := (hpulses _).1 hp
      rw [heq]
      exact hw
  · obtain ⟨t, hnext, hlatched, hlast, hhalf⟩ := latchInstant_comes tile runs latched wind frames
    refine ⟨t, hnext, hlatched, hlast, fun h hh => ?_⟩
    obtain ⟨⟨hgap, hpend, hgo, hsrc, hbase⟩, hrow, hpulses⟩ := hhalf h hh
    exact ⟨hgap, hrow, hpulses, fun hp => ⟨hpend hp, hgo hp, hsrc hp, hbase hp⟩⟩

end Sys2Proof.Machine
end

section
/-! O29: the lanes of a port and their stages (R280 to R283). -/

namespace Sys2Proof.Machine

/-! ### One field of each lane takes a value -/

/-- `t` is `s` with one field of each index in a list set to `v`. -/
structure Swept (F : Nat → Fld) (l : List Nat) (v : Nat) (s t : State) : Prop where
  rest : ∃ r, t = { s with regs := r }
  hit : ∀ k ∈ l, t.rd (F k) = v % 2 ^ (F k).width
  frame : sameElse s t (l.map F)

theorem State.sweep {F : Nat → Fld} (inj : ∀ j k, (F j).key = (F k).key → j = k) (s : State) (l : List Nat) (v : Nat) :
    Swept F l v s (forL l (fun k a => a.wr (F k) v) s) where
  rest := forL_inv (fun a => ∃ r, a = { s with regs := r }) ⟨_, rfl⟩ fun _ _ ⟨_, ha⟩ => ⟨_, by rw [ha]; rfl⟩
  hit := fun k hk => by
    refine forL_hits (P := fun a : State => a.rd (F k) = v % 2 ^ (F k).width) (Q := fun _ => True) hk trivial (fun _ _ _ _ => trivial)
      (fun a _ => State.rd_wr_same a _ _) fun j _ a ha => ?_
    by_cases hj : j = k
    · subst hj
      exact State.rd_wr_same a _ _
    · exact (State.rd_wr_ne a _ fun he => hj (inj j k he.symm)).trans ha
  frame := List.foldlRecOn (motive := fun a => sameElse s a (l.map F)) l (fun a k => a.wr (F k) v) (.refl s _) fun _ ha _ hk =>
    ha.wr (List.mem_map_of_mem hk)

theorem Swept.read {F : Nat → Fld} {l : List Nat} {v : Nat} {s t : State} (a : Swept F l v s t) {f : Fld} (hf : ∀ k, f.key ≠ (F k).key) :
    t.rd f = s.rd f :=
  a.frame.read fun g hg => by
    obtain ⟨k, _, rfl⟩ := List.mem_map.1 hg
    exact hf k

theorem stage_inj (j k : Nat) (h : (R.LNE_STATE_STAGE j).key = (R.LNE_STATE_STAGE k).key) : j = k := by
  simp only [Fld.key, R.LNE_STATE_STAGE] at h
  omega

theorem txps_inj (j k : Nat) (h : (R.LNE_STATE_TXPS j).key = (R.LNE_STATE_TXPS k).key) : j = k := by
  simp only [Fld.key, R.LNE_STATE_TXPS] at h
  omega

theorem rxps_inj (j k : Nat) (h : (R.LNE_STATE_RXPS j).key = (R.LNE_STATE_RXPS k).key) : j = k := by
  simp only [Fld.key, R.LNE_STATE_RXPS] at h
  omega

theorem State.setStage_swept (s : State) (id st : Nat) : Swept R.LNE_STATE_STAGE (s.portLanes id) st s (s.setStage id st) := s.sweep stage_inj _ _

/-! ### What the signals of training change (R280) -/

/-- `t` is `s` with training frames put out, and with other lanes marked as ready or in their codeword stream. -/
structure Signals (s t : State) : Prop where
  rest : ∃ p o n, t = { s with ports := p, out := o, freeCtr := n }
  port : ∀ k, ∃ f c, t.port k = { s.port k with farReady := f, coded := c }

namespace Signals
variable {s t u : State}

theorem refl (s : State) : Signals s s := ⟨⟨_, _, _, rfl⟩, fun _ => ⟨_, _, rfl⟩⟩

theorem trans (a : Signals s t) (b : Signals t u) : Signals s u := by
  obtain ⟨_, _, _, rfl⟩ := a.rest
  obtain ⟨_, _, _, rfl⟩ := b.rest
  refine ⟨⟨_, _, _, rfl⟩, fun k => ?_⟩
  obtain ⟨_, _, ha⟩ := a.port k
  obtain ⟨f, c, hb⟩ := b.port k
  exact ⟨f, c, by rw [hb, ha]⟩

theorem rd (a : Signals s t) (f : Fld) : t.rd f = s.rd f := by obtain ⟨_, _, _, rfl⟩ := a.rest; rfl
theorem frame (a : Signals s t) : sameElse s t [] := by obtain ⟨_, _, _, rfl⟩ := a.rest; exact (sameElse.refl s []).of_eq rfl rfl rfl

/-- A field of a port that the signals do not touch. -/
theorem field (a : Signals s t) {β : Type} (F : Port → β) (hF : ∀ p f c, F { p with farReady := f, coded := c } = F p) (k : Nat) :
    F (t.port k) = F (s.port k) := by
  obtain ⟨f, c, h⟩ := a.port k
  rw [h]
  exact hF _ f c

theorem setPort (s : State) (id : Nat) (f c : List Nat) : Signals s (s.setPort id { s.port id with farReady := f, coded := c }) := by
  refine ⟨⟨_, _, _, rfl⟩, fun k => ?_⟩
  by_cases hk : k = id
  · subst hk
    exact ⟨f, c, State.port_setPort_same _ _ _⟩
  · exact ⟨_, _, State.port_setPort_ne s _ hk⟩

theorem ite {c : Prop} [Decidable c] (ht : Signals s t) (hu : Signals s u) : Signals s (if c then t else u) := by
  split
  · exact ht
  · exact hu

end Signals

theorem State.trainingFrames_signals (s : State) (id : Nat) : Signals s (s.trainingFrames id) ∧ (s.trainingFrames id).ports = s.ports := by
  unfold State.trainingFrames
  refine forL_inv (fun a => Signals s a ∧ a.ports = s.ports) ⟨.refl s, rfl⟩ fun k a ⟨ha, hp⟩ => ⟨ha.trans ?_, hp⟩
  exact ⟨⟨_, _, _, rfl⟩, fun _ => ⟨_, _, rfl⟩⟩

/-- A port whose lanes are all in their codeword stream sends no training frame. -/
theorem State.trainingFrames_coded {s : State} {id : Nat} (h : s.lanesSend id = true) : s.trainingFrames id = s := by
  have hnil : (s.portLanes id).filter (fun k => decide (3 ≤ s.rd (R.LNE_STATE_STAGE k) ∧ s.rd (R.LNE_STATE_STAGE k) ≤ 10) &&
      !(s.port id).coded.contains k) = [] := by
    refine List.filter_eq_nil_iff.2 fun k hk => ?_
    have hall := List.all_eq_true.1 h k hk
    rw [Bool.and_eq_true] at hall
    rw [hall.1]
    simp
  unfold State.trainingFrames
  rw [hnil]
  rfl

theorem State.codeSync_signals (s : State) (id k : Nat) : Signals s (s.codeSync id k) := .ite (Signals.setPort s id _ _) (.refl s)

theorem State.trained_signals (s : State) (id k : Nat) (ready : Bool) : Signals s (s.trained id k ready) := by
  refine Signals.trans ?_ (State.codeSync_signals _ id k)
  exact .ite (Signals.setPort s id _ _) (.refl s)

theorem State.trained_out (s : State) (id k : Nat) (ready : Bool) : (s.trained id k ready).out = s.out := by
  unfold State.trained State.codeSync
  dsimp only
  split_ifs <;> rfl

/-- Where the far end has not shown ready, nothing follows from a lane's stage. -/
theorem State.trained_unready {s : State} {id : Nat} (k : Nat) (h : (s.port id).farReady = []) : s.trained id k false = s := by
  unfold State.trained State.codeSync
  dsimp only
  rw [Bool.false_and, if_neg Bool.false_ne_true, h, List.contains_nil, Bool.false_and, Bool.false_and, if_neg Bool.false_ne_true]

/-! ### A lane that completes its stage -/

/-- What the signals leave of the state that a stage's end has made. -/
structure Settled (id : Nat) (ready : Bool) (u t : State) : Prop where
  signals : Signals u t
  unready : ready = false → (u.port id).farReady = [] → t.ports = u.ports
  coded : u.lanesSend id = true → t.out = u.out

theorem State.lanesSend_congr {s t : State} {id : Nat} (hrd : ∀ f, t.rd f = s.rd f) (hp : t.ports = s.ports) : t.lanesSend id = s.lanesSend id := by
  unfold State.lanesSend State.portLanes State.portWidth State.portLane0 State.port
  simp only [hrd, hp]

theorem State.signals_settled (s : State) (id k : Nat) (ready : Bool) : Settled id ready s ((s.trainingFrames id).trained id k ready) := by
  obtain ⟨hs, hp⟩ := s.trainingFrames_signals id
  refine ⟨hs.trans (State.trained_signals _ id k ready), fun hready hfar => ?_, fun hcoded => ?_⟩
  · subst hready
    rw [State.trained_unready k (by rw [State.port, hp]; exact hfar), hp]
  · rw [State.trained_out, State.trainingFrames_coded hcoded]

theorem State.allAt_congr {s t : State} (hrd : ∀ f, t.rd f = s.rd f) (id st : Nat) : t.allAt id st = s.allAt id st := by
  unfold State.allAt State.portLanes State.portWidth State.portLane0
  simp only [hrd]

/-- A stage's end behind which no NEIGH cell waits for the codeword stream. -/
theorem State.stageDone_settled {s u : State} {id k : Nat} {i : StageInfo} (hu : (s.rxWakes k).stageStep id k i = u)
    (h : u.allAt id 9 = false ∨ u.lanesSend id = true) : Settled id i.farReady u (s.stageDone id k i) := by
  obtain ⟨hs, hp⟩ := u.trainingFrames_signals id
  have hno : (((u.trainingFrames id).trained id k i.farReady).allAt id 9 && ((u.trainingFrames id).trained id k i.farReady).lanesSend id &&
      !(u.trainingFrames id).lanesSend id) = false := by
    rcases h with h9 | hsend
    · rw [State.allAt_congr (u.signals_settled id k i.farReady).signals.rd, h9]
      rfl
    · rw [State.lanesSend_congr hs.rd hp (id := id), hsend]
      simp
  have heq : s.stageDone id k i = (u.trainingFrames id).trained id k i.farReady := by
    unfold State.stageDone
    rw [hu]
    dsimp only
    rw [hno, if_neg Bool.false_ne_true]
  rw [heq]
  exact u.signals_settled id k i.farReady

/-! ### The receive direction that leaves SLEEP -/

/-- `v` is `s` with another receive power state of a lane. -/
structure Woken (lane : Nat) (s v : State) : Prop where
  rest : ∃ r, v = { s with regs := r }
  frame : sameElse s v [R.LNE_STATE_RXPS lane]

theorem State.rxWakes_woken (s : State) (lane : Nat) : Woken lane s (s.rxWakes lane) := by
  unfold State.rxWakes
  split
  · exact ⟨⟨_, rfl⟩, (sameElse.refl s _).wr (by simp)⟩
  · exact ⟨⟨_, rfl⟩, .refl s _⟩

namespace Woken
variable {lane : Nat} {s v : State}

theorem rd (a : Woken lane s v) {f : Fld} (hf : f.key ≠ (R.LNE_STATE_RXPS lane).key) : v.rd f = s.rd f := a.frame.read (by simpa using hf)
theorem ports (a : Woken lane s v) : v.ports = s.ports := by obtain ⟨_, rfl⟩ := a.rest; rfl
theorem out (a : Woken lane s v) : v.out = s.out := by obtain ⟨_, rfl⟩ := a.rest; rfl
theorem build (a : Woken lane s v) : v.build = s.build := by obtain ⟨_, rfl⟩ := a.rest; rfl
theorem port (a : Woken lane s v) (id : Nat) : v.port id = s.port id := by rw [State.port, a.ports]; rfl

end Woken

end Sys2Proof.Machine
end

section
/-! O29, continued: a link that is lost or back, and a stage that fails (R282, R299). -/

namespace Sys2Proof.Machine

/-! ### What is told of a link leaves the lanes -/

/-- A field of the lanes or of a port that no cell, record or break of a link changes, by the place of its register. -/
def linkSafe (f : Fld) : Prop := f.key / 32 % 256 ∈ [0x00, 0x08, 0x0C, 0x10, 0x64]

/-- The record of broken links of a ring port. -/
def lostFlds (p : Nat) : List Fld := [R.RING_BREAK_POS1 p, R.RING_BREAK_V1 p, R.RING_BREAK_POS2 p, R.RING_BREAK_V2 p]

theorem not_linkSafe_lost {p : Nat} {f : Fld} (hf : f ∈ lostFlds p) : ¬linkSafe f := by
  simp only [lostFlds, List.mem_cons, List.not_mem_nil, or_false] at hf
  unfold linkSafe
  rcases hf with rfl | rfl | rfl | rfl <;>
    (simp only [Fld.key, R.RING_BREAK_POS1, R.RING_BREAK_V1, R.RING_BREAK_POS2, R.RING_BREAK_V2, List.mem_cons, List.not_mem_nil, or_false]; omega)

/-- `t` has the build, the fields in `P` and the failures of each port that `s` has. -/
structure Told (P : Fld → Prop) (s t : State) : Prop where
  build : t.build = s.build
  rd : ∀ f, P f → t.rd f = s.rd f
  fails : ∀ k, (t.port k).fails = (s.port k).fails

namespace Told
variable {P : Fld → Prop} {s t u : State}

theorem refl (s : State) : Told P s s := ⟨rfl, fun _ _ => rfl, fun _ => rfl⟩

theorem trans (a : Told P s t) (b : Told P t u) : Told P s u :=
  ⟨b.build.trans a.build, fun f hf => (b.rd f hf).trans (a.rd f hf), fun k => (b.fails k).trans (a.fails k)⟩

theorem of_eq (hb : t.build = s.build) (hr : t.regs = s.regs) (hf : ∀ k, (t.port k).fails = (s.port k).fails) : Told P s t :=
  ⟨hb, fun f _ => by rw [State.rd, State.rd, hb, hr], hf⟩

theorem wr (s : State) {f : Fld} (v : Nat) (hf : ∀ g, P g → g.key ≠ f.key) : Told P s (s.wr f v) :=
  ⟨rfl, fun g hg => State.rd_wr_ne s v (hf g hg), fun _ => rfl⟩

/-- A register whose place is not that of a field of the lanes. -/
theorem wr_off (s : State) {f : Fld} (v : Nat) (hP : ∀ g, P g → linkSafe g) (hf : ¬linkSafe f) : Told P s (s.wr f v) :=
  .wr s v fun g hg he => hf (by unfold linkSafe at *; rw [← he]; exact hP g hg)

theorem setPort (s : State) (id : Nat) {p : Port} (hp : p.fails = (s.port id).fails) : Told P s (s.setPort id p) := by
  refine .of_eq rfl rfl fun k => ?_
  by_cases hk : k = id
  · subst hk
    rw [State.port_setPort_same, hp]
  · rw [State.port_setPort_ne s p hk]

theorem ite {c : Prop} [Decidable c] (ht : Told P s t) (hu : Told P s u) : Told P s (if c then t else u) := by
  split
  · exact ht
  · exact hu

theorem forL {β : Type} (s : State) {l : List β} {f : β → State → State} (hf : ∀ b a, Told P a (f b a)) : Told P s (Machine.forL l f s) :=
  forL_inv (Told P s) (.refl s) fun b a h => h.trans (hf b a)

end Told

theorem Sends.told {P : Fld → Prop} {fs : List Fld} {s t : State} (a : Sends fs s t) (hfs : ∀ g ∈ fs, ∀ f, P f → f.key ≠ g.key)
    (hf : ∀ k, (t.port k).fails = (s.port k).fails) : Told P s t :=
  ⟨a.build, fun f h => a.read fun g hg => hfs g hg f h, hf⟩

section
variable {P : Fld → Prop}

theorem State.sendCell_told (s : State) (id : Nat) {c : Cell} (hc : c.cls < 2) : Told P s (s.sendCell id c) := by
  unfold State.sendCell State.enqueue
  dsimp only
  refine .ite ?_ (.refl s)
  by_cases h0 : c.cls = 0
  · rw [if_pos h0]
    exact .setPort s id rfl
  · rw [if_neg h0, if_pos (by omega)]
    exact .setPort s id rfl

theorem State.ctlSeq_told (s : State) (node : Nat) : Told P s (s.ctlSeq node).2.2 := by
  unfold State.ctlSeq
  dsimp only
  split <;> exact .of_eq rfl rfl fun _ => rfl

theorem State.sendBoth_told (s : State) (r : Nat) {c : Cell} (hc : c.cls < 2) : Told P s (s.sendBoth r c) := by
  unfold State.sendBoth
  split
  · exact (State.sendCell_told s 0 (c := { c with dir := 1 }) hc).trans (State.sendCell_told _ 2 (c := { c with dir := 0 }) hc)
  · exact .ite (.refl s) ((State.sendCell_told s _ (c := { c with dir := s.dirOut (2 * r) }) hc).trans
      (State.sendCell_told _ _ (c := { c with dir := s.dirOut (2 * r + 1) }) hc))

theorem State.originate_told (s : State) (r typ dest : Nat) (payload : List Byte) : Told P s (s.originate r (fun c => c) typ dest payload) :=
  (s.ctlSeq_told _).trans (State.sendBoth_told _ r (mkCell_control ..))

theorem State.linkCell_told (s : State) (id typ link : Nat) : Told P s (s.linkCell id typ link) := by
  unfold State.linkCell
  refine .ite (.refl s) ((s.ctlSeq_told (s.selfId id)).trans (State.sendCell_told _ _ ?_))
  exact (by decide : clsControl < 2)

theorem State.sendDiscover_told (s : State) (p : Nat) : Told P s (s.sendDiscover p) := by
  unfold State.sendDiscover
  refine .ite (.refl s) ((s.ctlSeq_told _).trans (State.sendCell_told _ _ ?_))
  exact (by decide : clsControl < 2)

variable (hP : ∀ f, P f → linkSafe f)
include hP

theorem State.breakAdd_told (s : State) (p link : Nat) : Told P s (s.breakAdd p link) := by
  have hwr (t : State) (f : Fld) (v : Nat) (hf : f ∈ lostFlds p) : Told P t (t.wr f v) := .wr_off t v hP (not_linkSafe_lost hf)
  exact .ite (.refl s) (.ite ((hwr s _ _ (by simp [lostFlds])).trans (hwr _ _ _ (by simp [lostFlds]))) (.ite ((hwr s _ _ (by simp [lostFlds])).trans (hwr _ _ _ (by simp [lostFlds]))) (.refl s)))

theorem State.breakDel_told (s : State) (p link : Nat) : Told P s (s.breakDel p link) := by
  have hwr (t : State) (f : Fld) (v : Nat) (hf : f ∈ lostFlds p) : Told P t (t.wr f v) := .wr_off t v hP (not_linkSafe_lost hf)
  unfold State.breakDel
  extract_lets s1
  have h1 : Told P s s1 := .ite ((hwr s _ _ (by simp [lostFlds])).trans (hwr _ _ _ (by simp [lostFlds]))) (.refl s)
  exact .ite (h1.trans ((hwr s1 _ _ (by simp [lostFlds])).trans (hwr _ _ _ (by simp [lostFlds])))) h1

omit hP in
/-- An event record touches no port. -/
theorem State.queueEvent_ports (s : State) (q : Nat) (payload : List Byte) : (s.queueEvent q payload).ports = s.ports := by
  have hvec (t : State) : (t.queueVector q).ports = t.ports := by
    unfold State.queueVector State.vector
    dsimp only
    split_ifs <;> rfl
  have hput : (s.putRecord q payload).ports = s.ports := hvec _
  unfold State.queueEvent
  dsimp only
  split_ifs
  · rfl
  · rfl
  · rfl
  · exact hput

theorem State.raiseEvent_told (s : State) (b : Blk) (inst code : Nat) (data : List Byte) : Told P s (s.raiseEvent b inst code data) := by
  have hoff : ∀ g ∈ eventFlds, ¬linkSafe g := by
    unfold linkSafe
    decide
  refine (s.raiseEvent_sends b inst code data).told (fun g hg f hf he => hoff g hg ?_) ?_
  · have := hP f hf
    unfold linkSafe at *
    rwa [← he]
  · have horig (t : State) (r dest : Nat) (pl : List Byte) (k : Nat) :
        ((t.originate r (fun c => c) tEvent dest pl).port k).fails = (t.port k).fails := (State.originate_told (P := P) t r tEvent dest pl).fails k
    unfold State.raiseEvent
    dsimp only
    split
    · intro k
      split
      · exact horig _ _ _ _ k
      · exact horig _ _ _ _ k
    · intro k
      split
      · rw [State.port, State.queueEvent_ports]
        rfl
      · unfold State.originateSpur State.sendSpur State.passSpur
        dsimp only
        split
        · exact ((State.ctlSeq_told (P := P) s _).trans (State.sendCell_told _ _ (by exact mkCell_control ..))).fails k
        · exact (State.ctlSeq_told (P := P) s _).fails k

/-! ### A port that goes down (R299) -/

/-- The frames in reassembly that are lost with a port. -/
theorem State.loseFrames_told (s : State) (f : Reasm → Bool) : Told P s (s.loseFrames f) := by
  unfold State.loseFrames
  refine forL_inv (Told P s) (.of_eq rfl rfl fun _ => rfl) fun r a h => h.trans (.wr_off a _ hP ?_)
  simp only [linkSafe, Fld.key, R.ETHP_EVT_REASM, List.mem_cons, List.not_mem_nil, or_false]
  omega

theorem State.portLost_told (s : State) (id st : Nat) (hst : ∀ f, P f → f.key ≠ (portStF id).key) : Told P s (s.portLost id st) := by
  unfold State.portLost
  extract_lets p s0
  have h0 : Told P s s0 := .setPort s id rfl
  exact h0.trans ((Told.wr s0 st hst).trans (State.loseFrames_told hP _ _))

end

/-- A ring port that goes down: what is lost before its loss is counted, and what is told behind it. -/
theorem State.portDown_parts (s : State) {id : Nat} (hid : id < 24) (st : Nat) :
    ∃ u, (∀ P : Fld → Prop, (∀ f, P f → linkSafe f) → (∀ f, P f → f.key ≠ (portStF id).key) → Told P s u) ∧
      ∀ P : Fld → Prop, (∀ f, P f → linkSafe f) → Told P (u.count (R.RING_EVT_DOWN (portRing id))) (s.portDown id st) := by
  have hspur : isSpur id = false := decide_eq_false (by omega)
  unfold State.portDown
  extract_lets s0 p s1 link s2 s3
  refine ⟨s1, fun P hP hne => (State.portLost_told hP s id st hne).trans (.setPort s0 id rfl), fun P hP => ?_⟩
  rw [hspur, if_neg Bool.false_ne_true]
  refine Told.trans ?_ (State.raiseEvent_told hP s3 _ _ _ _)
  exact .ite ((State.linkCell_told s2 id _ link).trans (.forL _ fun _ a => State.breakAdd_told hP a _ link)) (.refl s2)

theorem State.portDown_told (s : State) {id : Nat} (hid : id < 24) (st : Nat) :
    Told (fun f => linkSafe f ∧ f.key ≠ (portStF id).key ∧ f.key ≠ (R.RING_EVT_DOWN (portRing id)).key) s (s.portDown id st) ∧
      (s.portDown id st).rd (R.RING_EVT_DOWN (portRing id)) = min (s.rd (R.RING_EVT_DOWN (portRing id)) + 1) 4294967295 := by
  have hdown : linkSafe (R.RING_EVT_DOWN (portRing id)) := by
    simp only [linkSafe, Fld.key, R.RING_EVT_DOWN, List.mem_cons, List.not_mem_nil, or_false]
    omega
  have hst : (R.RING_EVT_DOWN (portRing id)).key ≠ (portStF id).key := by
    unfold portStF
    rw [if_neg (by omega)]
    split
    all_goals
      simp only [Fld.key, R.RING_EVT_DOWN, R.RING_STATE_END_A, R.RING_STATE_END_B]
      omega
  obtain ⟨u, hlost, htold⟩ := s.portDown_parts hid st
  refine ⟨((hlost _ (fun _ h => h.1) fun _ h => h.2.1).trans (.wr u _ fun _ h => h.2.2)).trans (htold _ fun _ h => h.1), ?_⟩
  rw [(htold (fun f => f = R.RING_EVT_DOWN (portRing id)) fun _ h => h ▸ hdown).rd _ rfl, State.rd_count_same,
    (hlost (fun f => f = R.RING_EVT_DOWN (portRing id)) (fun _ h => h ▸ hdown) fun _ h => h ▸ hst).rd _ rfl]
  rfl

end Sys2Proof.Machine
end

section
/-! O29, continued: a port whose lanes take a stage, a stage that fails, and bring-up that begins (R281, R282). -/

namespace Sys2Proof.Machine

/-! ### The registers of lanes and of ports -/

theorem portStF_key {id : Nat} (hid : id < 24) : 0x48000 * 32 ≤ (portStF id).key := by
  unfold portStF
  rw [if_neg (by omega)]
  split
  all_goals
    simp only [Fld.key, R.RING_STATE_END_A, R.RING_STATE_END_B]
    omega

theorem stage_key {k : Nat} (hk : k < 48) : (R.LNE_STATE_STAGE k).key < 0x48000 * 32 := by
  simp only [Fld.key, R.LNE_STATE_STAGE]
  omega

theorem rd_portSt (s : State) {id v : Nat} (hid : id < 24) (hv : v < 16) : (s.wr (portStF id) v).portState id = v := by
  have hw : (portStF id).width = 4 := by
    unfold portStF
    rw [if_neg (by omega)]
    split <;> rfl
  rw [State.portState, State.rd_wr_same, hw]
  exact Nat.mod_eq_of_lt hv

/-- The configuration of a ring port: its loopback and its lanes. -/
def portCfgFlds (id : Nat) : List Fld :=
  [R.RING_CFG_WIDTH (portRing id), R.RING_CFG_LANE_A (portRing id), R.RING_CFG_LANE_B (portRing id), R.RING_CFG_LOOP (portRing id)]

theorem State.portLanes_congr {s t : State} {id : Nat} (hid : id < 24) (h : ∀ f ∈ portCfgFlds id, t.rd f = s.rd f) : t.portLanes id = s.portLanes id := by
  have hspur : isSpur id = false := decide_eq_false (by omega)
  unfold State.portLanes State.portWidth State.portLane0
  rw [hspur, h (R.RING_CFG_WIDTH (portRing id)) (by simp [portCfgFlds]), h (R.RING_CFG_LANE_A (portRing id)) (by simp [portCfgFlds]),
    h (R.RING_CFG_LANE_B (portRing id)) (by simp [portCfgFlds])]
  rfl

theorem State.loopOf_congr {s t : State} {id : Nat} (h : ∀ f ∈ portCfgFlds id, t.rd f = s.rd f) : t.loopOf id = s.loopOf id := by
  unfold State.loopOf
  rw [h (R.RING_CFG_LOOP (portRing id)) (by simp [portCfgFlds])]

theorem portCfg_place {id : Nat} {f : Fld} (hf : f ∈ portCfgFlds id) : 0x48000 * 32 ≤ f.key ∧ f.key / 32 % 256 = 0 := by
  simp only [portCfgFlds, List.mem_cons, List.not_mem_nil, or_false] at hf
  rcases hf with rfl | rfl | rfl | rfl <;>
    (simp only [Fld.key, R.RING_CFG_WIDTH, R.RING_CFG_LANE_A, R.RING_CFG_LANE_B, R.RING_CFG_LOOP]; omega)

theorem portSt_place {id : Nat} (hid : id < 24) : (portStF id).key / 32 % 256 = 0x0C := by
  unfold portStF
  rw [if_neg (by omega)]
  split
  all_goals
    simp only [Fld.key, R.RING_STATE_END_A, R.RING_STATE_END_B]
    omega

/-! ### All lanes at a stage, and the port's state with them -/

/-- `t` is `s` with every lane of a port in stage `n`, and the port showing `v`. -/
structure Staged (id v n : Nat) (s t : State) : Prop where
  rest : ∃ r, t = { s with regs := r }
  stage : ∀ k ∈ s.portLanes id, t.rd (R.LNE_STATE_STAGE k) = n
  shown : t.portState id = v
  frame : sameElse s t ((s.portLanes id).map R.LNE_STATE_STAGE ++ [portStF id])

section
variable {id v n : Nat} {s : State} (hid : id < 24) (hl : ∀ k ∈ s.portLanes id, k < 48) (hv : v < 16) (hn : n < 16)
include hid hl hv hn

theorem State.staged_then_shown : Staged id v n s ((s.setStage id n).wr (portStF id) v) := by
  have hset := s.setStage_swept id n
  refine ⟨?_, fun k hk => ?_, rd_portSt _ hid hv, (hset.frame.mono (by simp)).wr (by simp)⟩
  · obtain ⟨_, h⟩ := hset.rest
    rw [h]
    exact ⟨_, rfl⟩
  · have h1 := portStF_key hid
    have h2 := stage_key (hl k hk)
    rw [State.rd_wr_ne _ _ (by omega), hset.hit k hk]
    exact Nat.mod_eq_of_lt hn

theorem State.shown_then_staged : Staged id v n s ((s.wr (portStF id) v).setStage id n) := by
  have hlanes : (s.wr (portStF id) v).portLanes id = s.portLanes id := by
    refine State.portLanes_congr hid fun f hf => State.rd_wr_ne s v fun he => ?_
    have h1 := (portCfg_place hf).2
    have h2 := portSt_place hid
    rw [he] at h1
    omega
  have hset := (s.wr (portStF id) v).setStage_swept id n
  rw [hlanes] at hset
  refine ⟨?_, fun k hk => (hset.hit k hk).trans (Nat.mod_eq_of_lt hn), ?_, (((sameElse.refl s _).wr (by simp)).trans (hset.frame.mono (by simp)))⟩
  · obtain ⟨_, h⟩ := hset.rest
    rw [h]
    exact ⟨_, rfl⟩
  · refine (hset.frame.read fun g hg => ?_).trans (rd_portSt s hid hv)
    obtain ⟨k, hk, rfl⟩ := List.mem_map.1 hg
    have h1 := portStF_key hid
    have h2 := stage_key (hl k hk)
    omega

end

theorem Staged.read {id v n : Nat} {s t : State} (a : Staged id v n s t) {f : Fld} (hst : ∀ k, f.key ≠ (R.LNE_STATE_STAGE k).key)
    (hport : f.key ≠ (portStF id).key) : t.rd f = s.rd f := by
  refine a.frame.read fun g hg => ?_
  rcases List.mem_append.1 hg with hg | hg
  · obtain ⟨k, _, rfl⟩ := List.mem_map.1 hg
    exact hst k
  · rw [List.mem_singleton.1 hg]
    exact hport

theorem Staged.port {id v n : Nat} {s t : State} (a : Staged id v n s t) (k : Nat) : t.port k = s.port k := by
  obtain ⟨_, rfl⟩ := a.rest
  rfl

/-! ### A stage that fails (R282) -/

/-- The shown state of a failed or restarted port. -/
theorem shown_lt (s : State) (id : Nat) : s.shownTraining id < 16 ∧ s.shownUp id < 16 ∧ s.shownFailed id < 16 := by
  unfold State.shownTraining State.shownUp State.shownFailed
  split <;> decide

section
variable {id lane reason : Nat} {s : State} (hid : id < 24) (hl : ∀ k ∈ s.portLanes id, k < 48) (hlane : lane < 48)
include hid hl hlane

theorem State.stageFail_failed (hr : reason < 16) (hst : s.rd (R.LNE_STATE_STAGE lane) < 16) :
    stageFailed s (s.stageFail id lane reason) id lane reason ∧ ∀ f ∈ portCfgFlds id, (s.stageFail id lane reason).rd f = s.rd f := by
  unfold State.stageFail
  extract_lets st s0 s1 p s2
  have h0 : Told (fun f => linkSafe f ∧ f.key ≠ (portStF id).key ∧ f.key ≠ (R.RING_EVT_DOWN (portRing id)).key) s s0 :=
    .ite (s.portDown_told hid 1).1 (.refl s)
  clear_value s0
  have hfails : p.fails = (s.port id).fails := h0.fails id
  have hcfg : ∀ f ∈ portCfgFlds id, s2.rd f = s.rd f := fun f hf => by
    obtain ⟨hlo, hplace⟩ := portCfg_place hf
    have hne := portSt_place hid
    have hkept : s0.rd f = s.rd f := by
      refine h0.rd f ⟨by simp [linkSafe, hplace], fun he => ?_, fun he => ?_⟩
      · rw [he] at hplace
        omega
      · rw [he] at hplace
        simp only [Fld.key, R.RING_EVT_DOWN] at hplace
        omega
    rw [State.rd_setPort, State.rd_count_ne _ ?_, State.rd_wr_ne _ _ ?_, State.rd_wr_ne _ _ ?_, hkept]
    all_goals
      simp only [Fld.key, R.LNE_EVT_RETRY, R.LNE_STATE_REASON, R.LNE_STATE_LAST_FAIL] at *
      omega
  have hretry : s0.rd (R.LNE_EVT_RETRY lane) = s.rd (R.LNE_EVT_RETRY lane) := by
    have h1 := portStF_key hid
    refine h0.rd _ ⟨?_, ?_, ?_⟩
    all_goals
      simp only [linkSafe, Fld.key, R.LNE_EVT_RETRY, R.RING_EVT_DOWN, List.mem_cons, List.not_mem_nil, or_false] at *
      omega
  have hport : (s2.port id).fails = (s.port id).fails + 1 := by
    rw [State.port_setPort_same, ← hfails]
  have hs2 (f : Fld) : s2.rd f = s1.rd f := State.rd_setPort _ _ _ f
  clear_value s2
  have hlanes : s2.portLanes id = s.portLanes id := State.portLanes_congr hid hcfg
  obtain ⟨htrain, -, hfail⟩ := shown_lt s id
  obtain ⟨t, ht, v, n, hstaged, hv, hn⟩ : ∃ t, (if 8 ≤ p.fails + 1 then (s2.wr (portStF id) (s.shownFailed id)).setStage id 12
      else (s2.wr (portStF id) (s.shownTraining id)).setStage id 1) = t ∧ ∃ v n, Staged id v n s2 t ∧
      v = (if s.loopOf id ≠ 0 then 3 else if 7 ≤ (s.port id).fails then 4 else 1) ∧ n = if 7 ≤ (s.port id).fails then 12 else 1 := by
    refine ⟨_, rfl, ?_⟩
    rw [hfails]
    by_cases h7 : 7 ≤ (s.port id).fails
    · rw [if_pos (by omega)]
      refine ⟨_, _, State.shown_then_staged hid (by rw [hlanes]; exact hl) hfail (by decide), ?_, (if_pos h7).symm⟩
      by_cases hloop : s.loopOf id = 0 <;> simp [State.shownFailed, hloop, h7]
    · rw [if_neg (by omega)]
      refine ⟨_, _, State.shown_then_staged hid (by rw [hlanes]; exact hl) htrain (by decide), ?_, (if_neg h7).symm⟩
      by_cases hloop : s.loopOf id = 0 <;> simp [State.shownTraining, hloop, h7]
  rw [ht]
  have hread {f : Fld} (hlo : f.key < 0x48000 * 32) (hf : ∀ k, f.key ≠ (R.LNE_STATE_STAGE k).key) : t.rd f = s1.rd f :=
    (hstaged.read hf (by have := portStF_key hid; omega)).trans (hs2 f)
  refine ⟨⟨?_, ?_, ?_, ?_, hstaged.shown.trans hv, fun k hk => (hstaged.stage k (by rw [hlanes]; exact hk)).trans hn⟩, fun f hf => ?_⟩
  · rw [hread, State.rd_count_same, State.rd_wr_ne, State.rd_wr_ne, hretry]
    · rfl
    all_goals
      simp only [Fld.key, R.LNE_EVT_RETRY, R.LNE_STATE_STAGE, R.LNE_STATE_LAST_FAIL, R.LNE_STATE_REASON]
      omega
  · rw [hread, State.rd_count_ne, State.rd_wr_ne, State.rd_wr_same]
    · exact Nat.mod_eq_of_lt hst
    all_goals
      simp only [Fld.key, R.LNE_EVT_RETRY, R.LNE_STATE_STAGE, R.LNE_STATE_LAST_FAIL, R.LNE_STATE_REASON]
      omega
  · rw [hread, State.rd_count_ne, State.rd_wr_same]
    · exact Nat.mod_eq_of_lt hr
    all_goals
      simp only [Fld.key, R.LNE_EVT_RETRY, R.LNE_STATE_STAGE, R.LNE_STATE_REASON]
      omega
  · rw [hstaged.port, hport]
  · obtain ⟨-, hplace⟩ := portCfg_place hf
    refine (hstaged.read (fun k he => ?_) fun he => ?_).trans (hcfg f hf)
    · rw [he] at hplace
      simp only [Fld.key, R.LNE_STATE_STAGE] at hplace
      omega
    · rw [he, portSt_place hid] at hplace
      exact absurd hplace (by decide)

end

end Sys2Proof.Machine
end

section
/-! O29, continued: bring-up that begins, loss of lock, and a port tried again (R281, R282, R299, R304). -/

namespace Sys2Proof.Machine

/-- All lanes of a port take a power state: only theirs changes. -/
theorem State.setLanePs_frame (s : State) (id tx rx : Nat) :
    (∃ r, s.setLanePs id tx rx = { s with regs := r }) ∧
      sameElse s (s.setLanePs id tx rx) ((s.portLanes id).flatMap fun k => [R.LNE_STATE_TXPS k, R.LNE_STATE_RXPS k]) := by
  refine ⟨forL_inv (fun a => ∃ r, a = { s with regs := r }) ⟨_, rfl⟩ fun _ _ ⟨_, ha⟩ => ⟨_, by rw [ha]; rfl⟩, ?_⟩
  refine List.foldlRecOn (motive := fun a => sameElse s a _) (s.portLanes id) (fun (a : State) k => (a.wr (R.LNE_STATE_TXPS k) tx).wr (R.LNE_STATE_RXPS k) rx)
    (.refl s _) fun a ha k hk => (ha.wr ?_).wr ?_
  all_goals exact List.mem_flatMap.2 ⟨k, hk, by simp⟩

/-- What the beginning of bring-up makes of a port. -/
structure Restarted (id : Nat) (s t : State) : Prop where
  shown : t.portState id = s.shownTraining id
  stage : ∀ k ∈ s.portLanes id, t.rd (R.LNE_STATE_STAGE k) = 1
  rd : ∀ f, f.key ≠ (portStF id).key → (∀ k, f.key ≠ (R.LNE_STATE_STAGE k).key ∧ f.key ≠ (R.LNE_STATE_TXPS k).key ∧ f.key ≠ (R.LNE_STATE_RXPS k).key) →
    t.rd f = s.rd f
  empty : t.outEmpty id = true
  queue : (t.port id).q1 = []
  fails : (t.port id).fails = (s.port id).fails
  other : ∀ k, k ≠ id → t.port k = s.port k
  out : t.out = s.out

section
variable {id : Nat} {s : State} (hid : id < 24) (hl : ∀ k ∈ s.portLanes id, k < 48)
include hid hl

theorem State.startTraining_restarted : Restarted id s (s.startTraining id) := by
  unfold State.startTraining
  extract_lets p s1
  have hlanes : s1.portLanes id = s.portLanes id := State.portLanes_congr hid fun _ _ => rfl
  have hstaged : Staged id (s.shownTraining id) 1 s1 ((s1.wr (portStF id) (s.shownTraining id)).setStage id 1) :=
    State.shown_then_staged hid (by rw [hlanes]; exact hl) (shown_lt s id).1 (by decide)
  generalize (s1.wr (portStF id) (s.shownTraining id)).setStage id 1 = u at hstaged ⊢
  obtain ⟨⟨r, hrest⟩, hframe⟩ := u.setLanePs_frame id 0 0
  have hread {f : Fld} (hf : ∀ k, f.key ≠ (R.LNE_STATE_TXPS k).key ∧ f.key ≠ (R.LNE_STATE_RXPS k).key) : (u.setLanePs id 0 0).rd f = u.rd f := by
    refine hframe.read fun g hg => ?_
    obtain ⟨k, _, hk⟩ := List.mem_flatMap.1 hg
    simp only [List.mem_cons, List.not_mem_nil, or_false] at hk
    rcases hk with rfl | rfl
    · exact (hf k).1
    · exact (hf k).2
  have hport (k : Nat) : (u.setLanePs id 0 0).port k = s1.port k := by
    rw [hrest]
    exact hstaged.port k
  have hown : s1.port id = _ := State.port_setPort_same s id _
  refine ⟨(hread fun k => ?_).trans hstaged.shown, fun k hk => (hread fun j => ?_).trans (hstaged.stage k (by rw [hlanes]; exact hk)), fun f h1 h2 => ?_, ?_,
    ?_, ?_, fun k hk => (hport k).trans (State.port_setPort_ne s _ hk), ?_⟩
  · have h1 := portSt_place hid
    constructor <;> intro he <;> rw [he] at h1 <;> simp only [Fld.key, R.LNE_STATE_TXPS, R.LNE_STATE_RXPS] at h1 <;> omega
  · simp only [Fld.key, R.LNE_STATE_STAGE, R.LNE_STATE_TXPS, R.LNE_STATE_RXPS]
    omega
  · exact ((hread fun k => (h2 k).2).trans (hstaged.read (fun k => (h2 k).1) h1)).trans (State.rd_setPort s _ _ f)
  · unfold State.outEmpty
    rw [hport, hown]
    rfl
  · rw [hport, hown]
  · rw [hport, hown]
  · rw [hrest]
    obtain ⟨_, hu⟩ := hstaged.rest
    rw [hu]
    rfl

end

/-! ### A port whose lanes are lost (R299) -/

theorem State.portLost_port (s : State) (id st : Nat) :
    (s.portLost id st).out = s.out ∧ ∀ k, k ≠ id → (s.portLost id st).port k = s.port k := by
  unfold State.portLost State.loseFrames
  extract_lets p s0 l
  refine forL_inv (fun a : State => a.out = s.out ∧ ∀ k, k ≠ id → a.port k = s.port k) ⟨rfl, fun k hk => State.port_setPort_ne s _ hk⟩ fun _ _ ha => ha

/-- A lane or port of which the statement of bring-up speaks. -/
structure OnPort (s : State) (lane port : Nat) : Prop where
  port_lt : port < 24
  owner : s.laneOwner lane = some port
  on : s.portOn port = true
  awake : s.asleep port = false
  lanes : ∀ k ∈ s.portLanes port, k < 48
  lane_lt : lane < 48

theorem OnPort.run {s : State} {lane port : Nat} (a : OnPort s lane port) (f : Nat → State) : s.onLane lane f = f port := by
  unfold State.onLane
  rw [a.owner]
  dsimp only
  rw [a.on, a.awake, if_pos (by rfl)]

theorem OnPort.mem {s : State} {lane port : Nat} (a : OnPort s lane port) : lane ∈ s.portLanes port := by
  have h := List.find?_some a.owner
  rw [Bool.and_eq_true] at h
  simpa using h.2

theorem lol_safe (lane : Nat) : linkSafe (R.LNE_EVT_LOL lane) := by
  simp only [linkSafe, Fld.key, R.LNE_EVT_LOL, List.mem_cons, List.not_mem_nil, or_false]
  omega

/-- Bring-up that begins keeps a counter of a lane and the port's count of losses. -/
theorem Restarted.counters {id : Nat} {s t : State} (hid : id < 24) (a : Restarted id s t) {f : Fld}
    (hf : f.key / 32 % 256 = 0x10 ∨ f.key / 32 % 256 = 0x64) : t.rd f = s.rd f := by
  have h1 := portSt_place hid
  refine a.rd f (fun he => ?_) fun k => ?_
  · rw [he] at hf
    omega
  · refine ⟨fun he => ?_, fun he => ?_, fun he => ?_⟩ <;> rw [he] at hf <;>
      simp only [Fld.key, R.LNE_STATE_STAGE, R.LNE_STATE_TXPS, R.LNE_STATE_RXPS] at hf <;> omega

theorem lol_place (lane : Nat) : (R.LNE_EVT_LOL lane).key / 32 % 256 = 0x10 := by simp only [Fld.key, R.LNE_EVT_LOL]; omega
theorem down_place (r : Nat) : (R.RING_EVT_DOWN r).key / 32 % 256 = 0x64 := by simp only [Fld.key, R.RING_EVT_DOWN]; omega

section
variable {s : State} {lane port : Nat} (a : OnPort s lane port)
include a

/-- Loss of lock of a lane that is up, from what becomes of its port before bring-up begins. -/
theorem lossOfLock_restarts {u : State} {φ : State → Prop} (hst : s.rd (R.LNE_STATE_STAGE lane) = 11)
    (hu : (if s.portState port = 2 then (s.count (R.LNE_EVT_LOL lane)).portDown port 1
      else if s.loopOf port = 2 then (s.count (R.LNE_EVT_LOL lane)).portLost port 1 else s.count (R.LNE_EVT_LOL lane)) = u)
    (hcfg : ∀ f ∈ portCfgFlds port, u.rd f = s.rd f) (hφ : ∀ t, Restarted port u t → φ t) : completes (.lossOfLock lane) s φ := by
  have heq : s.onLane lane (fun id => s.lockLost id lane) = u.startTraining port := by
    rw [a.run, State.lockLost, if_neg (by simp [hst])]
    exact congrArg (fun x : State => x.startTraining port) hu
  have hlanes := State.portLanes_congr a.port_lt hcfg
  exact completes_eq rfl heq (hφ _ (State.startTraining_restarted a.port_lt (by rw [hlanes]; exact a.lanes)))

theorem OnPort.cfg_count {f : Fld} (hf : f ∈ portCfgFlds port) : (s.count (R.LNE_EVT_LOL lane)).rd f = s.rd f := by
  have := (portCfg_place hf).1
  have := a.lane_lt
  exact State.rd_count_ne s (by simp only [Fld.key, R.LNE_EVT_LOL] at *; omega)

theorem lossOfLock_loop (hst : s.rd (R.LNE_STATE_STAGE lane) = 11) (hport : s.portState port = 3) (hloop : s.loopOf port ≠ 0) :
    completes (.lossOfLock lane) s (fun t =>
      t.rd (R.LNE_EVT_LOL lane) = min (s.rd (R.LNE_EVT_LOL lane) + 1) 4294967295 ∧ t.rd (R.RING_EVT_DOWN (portRing port)) = s.rd (R.RING_EVT_DOWN (portRing port)) ∧
      t.portState port = 3 ∧ t.out = s.out ∧ (∀ p, p < 24 → (t.port p).q1 = (if p = port then [] else (s.port p).q1)) ∧
      ∀ k ∈ s.portLanes port, t.rd (R.LNE_STATE_STAGE k) = 1) := by
  obtain ⟨u, hu, htold, hout, hother⟩ : ∃ u, (if s.loopOf port = 2 then (s.count (R.LNE_EVT_LOL lane)).portLost port 1 else s.count (R.LNE_EVT_LOL lane)) = u ∧
      Told (fun f => linkSafe f ∧ f.key ≠ (portStF port).key) (s.count (R.LNE_EVT_LOL lane)) u ∧ u.out = s.out ∧ ∀ k, k ≠ port → u.port k = s.port k := by
    refine ⟨_, rfl, .ite (State.portLost_told (fun _ h => h.1) _ port 1 fun _ h => h.2) (.refl _), ?_⟩
    split
    · exact State.portLost_port (s.count (R.LNE_EVT_LOL lane)) port 1
    · exact ⟨rfl, fun _ _ => rfl⟩
  have hplace := portSt_place a.port_lt
  have hsafe {f : Fld} (hf : f.key / 32 % 256 ∈ [0x00, 0x10, 0x64]) : linkSafe f ∧ f.key ≠ (portStF port).key := by
    refine ⟨?_, fun he => ?_⟩
    · unfold linkSafe
      simp only [List.mem_cons, List.not_mem_nil, or_false] at hf ⊢
      omega
    · rw [he, hplace] at hf
      exact absurd hf (by decide)
  have hcfg : ∀ f ∈ portCfgFlds port, u.rd f = s.rd f := fun f hf =>
    (htold.rd f (hsafe (by simp [(portCfg_place hf).2]))).trans (a.cfg_count hf)
  refine lossOfLock_restarts a hst (by rw [hport, if_neg (by decide)]; exact hu) hcfg fun t ht => ⟨?_, ?_, ?_, ht.out.trans hout, fun p hp => ?_, fun k hk => ?_⟩
  · rw [ht.counters a.port_lt (.inl (lol_place lane)), htold.rd _ (hsafe (by simp [lol_place])), State.rd_count_same]
    rfl
  · rw [ht.counters a.port_lt (.inr (down_place _)), htold.rd _ (hsafe (by simp [down_place]))]
    refine State.rd_count_ne s fun he => ?_
    have h1 := down_place (portRing port)
    rw [he, lol_place] at h1
    exact absurd h1 (by decide)
  · rw [ht.shown, State.shownTraining, State.loopOf_congr hcfg, if_neg hloop]
  · by_cases hpp : p = port
    · subst hpp
      rw [if_pos rfl, ht.queue]
    · rw [if_neg hpp, ht.other p hpp, hother p hpp]
  · exact ht.stage k (by rw [State.portLanes_congr a.port_lt hcfg]; exact hk)

theorem lossOfLock_up (hst : s.rd (R.LNE_STATE_STAGE lane) = 11) (hport : s.portState port = 2) (hloop : s.loopOf port = 0) :
    completes (.lossOfLock lane) s (fun t =>
      t.rd (R.LNE_EVT_LOL lane) = min (s.rd (R.LNE_EVT_LOL lane) + 1) 4294967295 ∧ t.portState port = 1 ∧
      t.rd (R.RING_EVT_DOWN (portRing port)) = min (s.rd (R.RING_EVT_DOWN (portRing port)) + 1) 4294967295 ∧
      ∀ k ∈ s.portLanes port, t.rd (R.LNE_STATE_STAGE k) = 1) := by
  obtain ⟨htold, hdown⟩ := (s.count (R.LNE_EVT_LOL lane)).portDown_told a.port_lt 1
  have hplace := portSt_place a.port_lt
  have hsafe {f : Fld} (hf : f.key / 32 % 256 ∈ [0x00, 0x10]) :
      linkSafe f ∧ f.key ≠ (portStF port).key ∧ f.key ≠ (R.RING_EVT_DOWN (portRing port)).key := by
    refine ⟨?_, fun he => ?_, fun he => ?_⟩
    · unfold linkSafe
      simp only [List.mem_cons, List.not_mem_nil, or_false] at hf ⊢
      omega
    · rw [he, hplace] at hf
      exact absurd hf (by decide)
    · rw [he, down_place] at hf
      exact absurd hf (by decide)
  have hcfg : ∀ f ∈ portCfgFlds port, ((s.count (R.LNE_EVT_LOL lane)).portDown port 1).rd f = s.rd f := fun f hf =>
    (htold.rd f (hsafe (by simp [(portCfg_place hf).2]))).trans (a.cfg_count hf)
  refine lossOfLock_restarts a hst (if_pos hport) hcfg fun t ht => ⟨?_, ?_, ?_, fun k hk => ?_⟩
  · rw [ht.counters a.port_lt (.inl (lol_place lane)), htold.rd _ (hsafe (by simp [lol_place])), State.rd_count_same]
    rfl
  · rw [ht.shown, State.shownTraining, State.loopOf_congr hcfg, if_pos hloop]
  · have hne : (R.RING_EVT_DOWN (portRing port)).key ≠ (R.LNE_EVT_LOL lane).key := fun he => by
      have h1 := down_place (portRing port)
      rw [he, lol_place] at h1
      exact absurd h1 (by decide)
    rw [ht.counters a.port_lt (.inr (down_place _)), hdown, State.rd_count_ne s hne]
  · exact ht.stage k (by rw [State.portLanes_congr a.port_lt hcfg]; exact hk)

theorem portRetry_restarts (hex : portExists s.build port = true) (hst : s.portState port = 4 ∧ s.loopOf port = 0 ∨ s.loopOf port ≠ 0 ∧ s.allAt port 12 = true) :
    completes (.portRetry port) s (fun t =>
      t.portState port = (if s.loopOf port = 0 then 1 else 3) ∧ t.outEmpty port = true ∧ (∀ k ∈ s.portLanes port, t.rd (R.LNE_STATE_STAGE k) = 1) ∧
      (t.port port).fails = (s.port port).fails) := by
  have ht := State.startTraining_restarted a.port_lt a.lanes
  refine completes_eq rfl (if_pos ?_) ⟨ht.shown, ht.empty, ht.stage, ht.fails⟩
  rw [hex, a.awake]
  rcases hst with ⟨h4, -⟩ | ⟨hloop, h12⟩
  · simp [h4]
  · simp [hloop, h12]

/-- A stage that times out or fails. -/
theorem stageTimeout_failed {reason : Nat} (hr : reason < 16) (hlo : 2 ≤ s.rd (R.LNE_STATE_STAGE lane)) (hhi : s.rd (R.LNE_STATE_STAGE lane) ≤ 10) :
    completes (.stageTimeout lane reason) s (fun t => stageFailed s t port lane reason) := by
  have heq : s.onLane lane (fun id => s.stageTimeout id lane reason) = s.stageFail port lane reason := by
    rw [a.run]
    exact if_pos ⟨hlo, hhi⟩
  exact completes_eq rfl heq (State.stageFail_failed a.port_lt a.lanes a.lane_lt hr (by omega)).1

end

end Sys2Proof.Machine
end

section
/-! O29, continued: the stages that a lane passes by itself, and the order of a port's lanes (R281 to R283). -/

namespace Sys2Proof.Machine

/-! ### The end of a stage of a lane of a port -/

/-- A register of the lanes lies below those of the ports. -/
theorem portCfg_not_lane {id : Nat} {f g : Fld} (hf : f ∈ portCfgFlds id) (hg : g.key < 0x48000 * 32) : f.key ≠ g.key := by
  have := (portCfg_place hf).1
  omega

theorem portCfg_not_shown {id : Nat} (hid : id < 24) {f : Fld} (hf : f ∈ portCfgFlds id) : f.key ≠ (portStF id).key := fun he => by
  have h1 := (portCfg_place hf).2
  rw [he, portSt_place hid] at h1
  exact absurd h1 (by decide)

/-- The fields of the lanes. -/
def laneFlds (k : Nat) : List Fld :=
  [R.LNE_STATE_STAGE k, R.LNE_STATE_RXPS k, R.LNE_STATE_TXPS k, R.LNE_STATE_RX_INV k, R.LNE_STATE_REVERSED k, R.LNE_STATE_EYE_H k, R.LNE_FFE_PRE k,
    R.LNE_FFE_MAIN k, R.LNE_FFE_POST k]

theorem laneFlds_key {k : Nat} (hk : k < 48) : ∀ f ∈ laneFlds k, f.key < 0x48000 * 32 := by
  simp only [laneFlds, List.forall_mem_cons, List.not_mem_nil, false_imp_iff, implies_true, and_true, Fld.key, R.LNE_STATE_STAGE, R.LNE_STATE_RXPS,
    R.LNE_STATE_TXPS, R.LNE_STATE_RX_INV, R.LNE_STATE_REVERSED, R.LNE_STATE_EYE_H, R.LNE_FFE_PRE, R.LNE_FFE_MAIN, R.LNE_FFE_POST]
  omega

section
variable {s : State} {lane port : Nat} (a : OnPort s lane port)
include a

/-- The end of a lane's stage, behind which no NEIGH cell waits for the codeword stream. -/
theorem laneStage_completes {i : StageInfo} {u : State} {φ : State → Prop} (hu : (s.rxWakes lane).stageStep port lane i = u)
    (h9 : u.allAt port 9 = false ∨ u.lanesSend port = true) (hφ : ∀ t, Settled port i.farReady u t → φ t) : completes (.laneStageDone lane i) s φ :=
  completes_eq rfl (a.run _) (hφ _ (State.stageDone_settled hu h9))

/-- A state with the port's configuration: its lanes are those of the port. -/
theorem OnPort.lanes_of {u : State} (hcfg : ∀ f ∈ portCfgFlds port, u.rd f = s.rd f) : u.portLanes port = s.portLanes port :=
  State.portLanes_congr a.port_lt hcfg

theorem OnPort.not_all9 {u : State} (hcfg : ∀ f ∈ portCfgFlds port, u.rd f = s.rd f) (hne : u.rd (R.LNE_STATE_STAGE lane) ≠ 9) :
    u.allAt port 9 = false := by
  refine List.all_eq_false.2 ⟨lane, by rw [a.lanes_of hcfg]; exact a.mem, ?_⟩
  simpa using hne

theorem OnPort.woken_cfg {v : State} (w : Woken lane s v) : ∀ f ∈ portCfgFlds port, v.rd f = s.rd f := fun f hf =>
  w.rd (portCfg_not_lane hf (laneFlds_key a.lane_lt _ (by simp [laneFlds])))

omit a in
/-- A state that differs from `s` in fields of the lanes has the port's configuration. -/
theorem portCfg_of {u : State} {fs : List Fld} (h : sameElse s u fs) (hfs : ∀ g ∈ fs, g.key < 0x48000 * 32) :
    ∀ f ∈ portCfgFlds port, u.rd f = s.rd f := fun _ hf => h.read fun g hg => portCfg_not_lane hf (hfs g hg)

end

theorem Woken.stage {s v : State} {lane : Nat} (w : Woken lane s v) (k : Nat) : v.rd (R.LNE_STATE_STAGE k) = s.rd (R.LNE_STATE_STAGE k) :=
  w.rd (by simp only [Fld.key, R.LNE_STATE_STAGE, R.LNE_STATE_RXPS]; omega)

/-! ### What a stage's end does -/

section
variable {v : State} {id k : Nat} {i : StageInfo}

theorem State.stageStep_advance {n : Nat} (hst : v.rd (R.LNE_STATE_STAGE k) = n) (hn : n = 1 ∨ n = 2 ∨ n = 6 ∨ n = 7) :
    v.stageStep id k i = v.wr (R.LNE_STATE_STAGE k) (n + 1) := by
  unfold State.stageStep
  rw [hst]
  exact if_pos hn

theorem State.stageStep_polarity (hst : v.rd (R.LNE_STATE_STAGE k) = 3) :
    v.stageStep id k i = if i.inverted && !v.on (R.LNE_CFG_POL_AUTO k) then v.stageFail id k 0
      else (v.wrB (R.LNE_STATE_RX_INV k) i.inverted).wr (R.LNE_STATE_STAGE k) 4 := by
  unfold State.stageStep
  rw [hst]
  rfl

/-- The lanes' order that is known with the report of this lane. -/
def State.orderNow (v : State) (id k : Nat) (i : StageInfo) : List (Nat × Nat) := Sparse.put (v.port id).passed k i.laneIndex

def State.ordered (v : State) (id k : Nat) (i : StageInfo) : State := v.setPort id { v.port id with passed := v.orderNow id k i }

/-- The lanes of a port take the order that they were found in. -/
def State.takeOrder (v : State) (id rev : Nat) : State :=
  forL (v.portLanes id) (fun l a => (a.wr (R.LNE_STATE_REVERSED l) rev).wr (R.LNE_STATE_STAGE l) 5) v

theorem State.stageStep_order (hst : v.rd (R.LNE_STATE_STAGE k) = 4) :
    v.stageStep id k i =
      if (v.orderNow id k i).length < (v.portLanes id).length then v.ordered id k i
      else if orderOk (v.portLanes id) (v.orderNow id k i) false then (v.ordered id k i).takeOrder id 0
      else if orderOk (v.portLanes id) (v.orderNow id k i) true then (v.ordered id k i).takeOrder id 1
      else (v.ordered id k i).stageFail id k 2 := by
  unfold State.stageStep
  rw [hst]
  rfl

/-- The eye of a lane, and the settings of its equaliser unless they are fixed. -/
def State.eyeTaken (v : State) (k : Nat) (i : StageInfo) : State :=
  let u := (v.wr (R.LNE_STATE_EYE_H k) (min 255 (i.eye / 2))).wr (R.LNE_STATE_STAGE k) 6
  if v.on (R.LNE_CFG_FFE_FIX k) then u else ((u.wr (R.LNE_FFE_PRE k) i.pre).wr (R.LNE_FFE_MAIN k) i.main).wr (R.LNE_FFE_POST k) i.post

theorem State.stageStep_eye (hst : v.rd (R.LNE_STATE_STAGE k) = 5) :
    v.stageStep id k i = if i.farPrecode ≠ v.on (R.LNE_CFG_PRECODE_RX k) then v.stageFail id k 1 else if i.eye < 30 then v else v.eyeTaken k i := by
  unfold State.stageStep
  rw [hst]
  unfold State.eyeTaken
  rfl

end

end Sys2Proof.Machine
end

section
/-! O29, continued: the clauses of stages 1 to 7 (R281 to R283). -/

namespace Sys2Proof.Machine

theorem State.eyeTaken_spec (v : State) (k : Nat) (i : StageInfo) :
    (v.eyeTaken k i).rd (R.LNE_STATE_STAGE k) = 6 ∧ (v.eyeTaken k i).rd (R.LNE_STATE_EYE_H k) = min 255 (i.eye / 2) ∧
    (v.on (R.LNE_CFG_FFE_FIX k) = false → (v.eyeTaken k i).rd (R.LNE_FFE_PRE k) = i.pre % 64 ∧ (v.eyeTaken k i).rd (R.LNE_FFE_MAIN k) = i.main % 64 ∧
      (v.eyeTaken k i).rd (R.LNE_FFE_POST k) = i.post % 64) ∧
    sameElse v (v.eyeTaken k i) ([R.LNE_STATE_STAGE k, R.LNE_STATE_EYE_H k] ++
      if v.on (R.LNE_CFG_FFE_FIX k) then [] else [R.LNE_FFE_PRE k, R.LNE_FFE_MAIN k, R.LNE_FFE_POST k]) := by
  unfold State.eyeTaken
  extract_lets u
  have hstage : u.rd (R.LNE_STATE_STAGE k) = 6 := State.rd_wr_same _ _ _
  have heye : u.rd (R.LNE_STATE_EYE_H k) = min 255 (i.eye / 2) := by
    refine (State.rd_wr_ne _ _ (by simp only [Fld.key, R.LNE_STATE_EYE_H, R.LNE_STATE_STAGE]; omega)).trans ((State.rd_wr_same _ _ _).trans ?_)
    exact Nat.mod_eq_of_lt (by change min 255 (i.eye / 2) < 256; omega)
  have hframe : sameElse v u [R.LNE_STATE_STAGE k, R.LNE_STATE_EYE_H k] := ((sameElse.refl v _).wr (by simp)).wr (by simp)
  clear_value u
  cases v.on (R.LNE_CFG_FFE_FIX k) with
  | true => exact ⟨hstage, heye, fun h => absurd h (by decide), hframe⟩
  | false =>
    rw [if_neg Bool.false_ne_true, if_neg Bool.false_ne_true]
    refine ⟨?_, ?_, fun _ => ⟨?_, ?_, State.rd_wr_same _ _ _⟩, (((hframe.mono (by simp)).wr (by simp)).wr (by simp)).wr (by simp)⟩
    · rw [State.rd_wr_ne, State.rd_wr_ne, State.rd_wr_ne, hstage]
      all_goals
        simp only [Fld.key, R.LNE_STATE_STAGE, R.LNE_FFE_PRE, R.LNE_FFE_MAIN, R.LNE_FFE_POST]
        omega
    · rw [State.rd_wr_ne, State.rd_wr_ne, State.rd_wr_ne, heye]
      all_goals
        simp only [Fld.key, R.LNE_STATE_EYE_H, R.LNE_FFE_PRE, R.LNE_FFE_MAIN, R.LNE_FFE_POST]
        omega
    · rw [State.rd_wr_ne, State.rd_wr_ne, State.rd_wr_same]
      · rfl
      all_goals
        simp only [Fld.key, R.LNE_FFE_PRE, R.LNE_FFE_MAIN, R.LNE_FFE_POST]
        omega
    · rw [State.rd_wr_ne, State.rd_wr_same]
      · rfl
      · simp only [Fld.key, R.LNE_FFE_MAIN, R.LNE_FFE_POST]
        omega

section
variable {s : State} {lane port : Nat} (a : OnPort s lane port)
include a

/-- A stage that fails, found by its end. -/
theorem laneStage_fails {i : StageInfo} {v : State} {reason : Nat} (hr : reason < 16) (hst : s.rd (R.LNE_STATE_STAGE lane) < 16)
    (hu : (s.rxWakes lane).stageStep port lane i = v.stageFail port lane reason) (hv : ∀ f, f.key ≠ (R.LNE_STATE_RXPS lane).key → v.rd f = s.rd f)
    (hfails : (v.port port).fails = (s.port port).fails) : completes (.laneStageDone lane i) s (fun t => stageFailed s t port lane reason) := by
  have hcfg : ∀ f ∈ portCfgFlds port, v.rd f = s.rd f := fun f hf =>
    hv f (portCfg_not_lane hf (laneFlds_key a.lane_lt _ (by simp [laneFlds])))
  have hlanes := a.lanes_of hcfg
  have hstage : v.rd (R.LNE_STATE_STAGE lane) = s.rd (R.LNE_STATE_STAGE lane) :=
    hv _ (by simp only [Fld.key, R.LNE_STATE_STAGE, R.LNE_STATE_RXPS]; omega)
  have hretry : v.rd (R.LNE_EVT_RETRY lane) = s.rd (R.LNE_EVT_RETRY lane) :=
    hv _ (by simp only [Fld.key, R.LNE_EVT_RETRY, R.LNE_STATE_RXPS]; omega)
  obtain ⟨hfailed, hkept⟩ := State.stageFail_failed (s := v) a.port_lt (by rw [hlanes]; exact a.lanes) a.lane_lt hr (by rw [hstage]; exact hst)
  unfold stageFailed at hfailed
  rw [hretry, hstage, hfails, State.loopOf_congr hcfg, hlanes] at hfailed
  obtain ⟨h1, h2, h3, h4, h5, h6⟩ := hfailed
  refine laneStage_completes a hu (.inl (a.not_all9 (fun f hf => (hkept f hf).trans (hcfg f hf)) ?_)) fun t ht => ?_
  · rw [h6 lane a.mem]
    split <;> decide
  · have hrd := ht.signals.rd
    exact ⟨(hrd _).trans h1, (hrd _).trans h2, (hrd _).trans h3, (ht.signals.field Port.fails (fun _ _ _ => rfl) port).trans h4, (hrd _).trans h5,
      fun k hk => (hrd _).trans (h6 k hk)⟩

/-- A stage whose end changes registers of the lane only, and does not bring the lane to stage 9. -/
theorem laneStage_moves {i : StageInfo} {u : State} {fs : List Fld} {φ : State → Prop} (hu : (s.rxWakes lane).stageStep port lane i = u)
    (hframe : sameElse s u fs) (hsub : fs ⊆ laneFlds lane) (hne : u.rd (R.LNE_STATE_STAGE lane) ≠ 9)
    (hφ : ∀ t, Settled port i.farReady u t → sameElse s t fs → φ t) : completes (.laneStageDone lane i) s φ := by
  have hcfg := portCfg_of (port := port) hframe fun g hg => laneFlds_key a.lane_lt g (hsub hg)
  exact laneStage_completes a hu (.inl (a.not_all9 hcfg hne)) fun t ht => hφ t ht (hframe.trans (ht.signals.frame.mono (by simp)))

/-- A stage whose end changes nothing but what the port has been told. -/
theorem laneStage_stays {i : StageInfo} {u : State} {n : Nat} {φ : State → Prop} (hst : s.rd (R.LNE_STATE_STAGE lane) = n) (hn : n ≠ 9)
    (hu : (s.rxWakes lane).stageStep port lane i = u) (hregs : ∀ fs, sameElse (s.rxWakes lane) u fs)
    (hφ : ∀ t, Settled port i.farReady u t → sameElse s t [R.LNE_STATE_RXPS lane] → φ t) : completes (.laneStageDone lane i) s φ := by
  have w := s.rxWakes_woken lane
  have hrd : u.rd (R.LNE_STATE_STAGE lane) = n := ((hregs []).read (by simp)).trans ((w.stage lane).trans hst)
  exact laneStage_moves a hu (w.frame.trans (hregs _)) (by simp [laneFlds]) (by rw [hrd]; exact hn) hφ

/-- Stages 1, 2, 6 and 7. -/
theorem laneStage_advances (i : StageInfo) (hst : s.rd (R.LNE_STATE_STAGE lane) ∈ [1, 2, 6, 7]) :
    completes (.laneStageDone lane i) s (fun t =>
      t.rd (R.LNE_STATE_STAGE lane) = s.rd (R.LNE_STATE_STAGE lane) + 1 ∧ sameElse s t [R.LNE_STATE_STAGE lane, R.LNE_STATE_RXPS lane] ∧
      (i.farReady = false → (s.port port).farReady = [] → t.ports = s.ports)) := by
  have w := s.rxWakes_woken lane
  generalize hn : s.rd (R.LNE_STATE_STAGE lane) = n at hst ⊢
  simp only [List.mem_cons, List.not_mem_nil, or_false] at hst
  have hu := State.stageStep_advance (id := port) (i := i) ((w.stage lane).trans hn) hst
  have hstage : ((s.rxWakes lane).wr (R.LNE_STATE_STAGE lane) (n + 1)).rd (R.LNE_STATE_STAGE lane) = n + 1 := by
    rw [State.rd_wr_same]
    exact Nat.mod_eq_of_lt (by change n + 1 < 16; omega)
  refine laneStage_moves a hu ((w.frame.mono (by simp)).wr (by simp)) (by simp [laneFlds]) (by rw [hstage]; omega) fun t ht hframe =>
    ⟨(ht.signals.rd _).trans hstage, hframe, fun hready hfar => ?_⟩
  exact (ht.unready hready ((congrArg Port.farReady (w.port port)).trans hfar)).trans w.ports

/-- Stage 3: the polarity of the lane. -/
theorem laneStage_polarity (i : StageInfo) (hst : s.rd (R.LNE_STATE_STAGE lane) = 3) :
    (i.inverted = false ∨ s.on (R.LNE_CFG_POL_AUTO lane) = true →
      completes (.laneStageDone lane i) s (fun t =>
        t.rd (R.LNE_STATE_STAGE lane) = 4 ∧ t.rd (R.LNE_STATE_RX_INV lane) = b2n i.inverted ∧
        sameElse s t [R.LNE_STATE_STAGE lane, R.LNE_STATE_RX_INV lane, R.LNE_STATE_RXPS lane])) ∧
    (i.inverted = true → s.on (R.LNE_CFG_POL_AUTO lane) = false →
      completes (.laneStageDone lane i) s (fun t => stageFailed s t port lane 0)) := by
  have w := s.rxWakes_woken lane
  have hauto : (s.rxWakes lane).on (R.LNE_CFG_POL_AUTO lane) = s.on (R.LNE_CFG_POL_AUTO lane) := by
    unfold State.on
    rw [w.rd (by simp only [Fld.key, R.LNE_CFG_POL_AUTO, R.LNE_STATE_RXPS]; omega)]
  have hu := State.stageStep_polarity (id := port) (i := i) ((w.stage lane).trans hst)
  rw [hauto] at hu
  refine ⟨fun hok => ?_, fun hinv hfix => ?_⟩
  · rw [if_neg (by rcases hok with h | h <;> simp [h])] at hu
    have hstage : (((s.rxWakes lane).wrB (R.LNE_STATE_RX_INV lane) i.inverted).wr (R.LNE_STATE_STAGE lane) 4).rd (R.LNE_STATE_STAGE lane) = 4 :=
      State.rd_wr_same _ _ _
    have hinv : (((s.rxWakes lane).wrB (R.LNE_STATE_RX_INV lane) i.inverted).wr (R.LNE_STATE_STAGE lane) 4).rd (R.LNE_STATE_RX_INV lane) =
        b2n i.inverted := by
      rw [State.rd_wr_ne _ _ (by simp only [Fld.key, R.LNE_STATE_RX_INV, R.LNE_STATE_STAGE]; omega)]
      exact State.rd_wrB_same _ _ _ Nat.one_pos
    exact laneStage_moves a hu (((w.frame.mono (by simp)).wrB (by simp)).wr (by simp)) (by simp [laneFlds]) (by rw [hstage]; decide) fun t ht hframe =>
      ⟨(ht.signals.rd _).trans hstage, (ht.signals.rd _).trans hinv, hframe⟩
  · rw [if_pos (by simp [hinv, hfix])] at hu
    exact laneStage_fails a (by decide) (by omega) hu (fun f hf => w.rd hf) (congrArg Port.fails (w.port port))

/-- Stage 5: the precoding, the eye and the equaliser of the lane. -/
theorem laneStage_eye (i : StageInfo) (hst : s.rd (R.LNE_STATE_STAGE lane) = 5) :
    (i.farPrecode ≠ s.on (R.LNE_CFG_PRECODE_RX lane) → completes (.laneStageDone lane i) s (fun t => stageFailed s t port lane 1)) ∧
    (i.farPrecode = s.on (R.LNE_CFG_PRECODE_RX lane) →
      (i.eye < 30 → completes (.laneStageDone lane i) s (fun t => sameElse s t [R.LNE_STATE_RXPS lane])) ∧
      (30 ≤ i.eye →
        completes (.laneStageDone lane i) s (fun t =>
          t.rd (R.LNE_STATE_STAGE lane) = 6 ∧ t.rd (R.LNE_STATE_EYE_H lane) = min 255 (i.eye / 2) ∧
          (s.rd (R.LNE_CFG_FFE_FIX lane) = 0 → i.pre < 64 → i.main < 64 → i.post < 64 →
            t.rd (R.LNE_FFE_PRE lane) = i.pre ∧ t.rd (R.LNE_FFE_MAIN lane) = i.main ∧ t.rd (R.LNE_FFE_POST lane) = i.post) ∧
          sameElse s t ([R.LNE_STATE_STAGE lane, R.LNE_STATE_EYE_H lane, R.LNE_STATE_RXPS lane] ++
            if s.rd (R.LNE_CFG_FFE_FIX lane) = 1 then [] else [R.LNE_FFE_PRE lane, R.LNE_FFE_MAIN lane, R.LNE_FFE_POST lane])))) := by
  have w := s.rxWakes_woken lane
  have hkept : ∀ f ∈ [R.LNE_CFG_PRECODE_RX lane, R.LNE_CFG_FFE_FIX lane], (s.rxWakes lane).on f = s.on f := by
    have hrd (f : Fld) (hf : f.key ≠ (R.LNE_STATE_RXPS lane).key) : (s.rxWakes lane).on f = s.on f := by
      rw [State.on, State.on, w.rd hf]
    simp only [List.forall_mem_cons, List.not_mem_nil, false_imp_iff, implies_true, and_true]
    constructor <;> refine hrd _ ?_ <;> simp only [Fld.key, R.LNE_CFG_PRECODE_RX, R.LNE_CFG_FFE_FIX, R.LNE_STATE_RXPS] <;> omega
  simp only [List.forall_mem_cons, List.not_mem_nil, false_imp_iff, implies_true, and_true] at hkept
  obtain ⟨hpre, hfix⟩ := hkept
  have hu := State.stageStep_eye (id := port) (i := i) ((w.stage lane).trans hst)
  rw [hpre] at hu
  refine ⟨fun hne => ?_, fun heq => ⟨fun heye => ?_, fun heye => ?_⟩⟩
  · rw [if_pos hne] at hu
    exact laneStage_fails a (by decide) (by omega) hu (fun f hf => w.rd hf) (congrArg Port.fails (w.port port))
  · rw [if_neg (by simp [heq]), if_pos heye] at hu
    exact laneStage_stays a hst (by decide) hu (fun fs => .refl _ fs) fun _ _ hframe => hframe
  · rw [if_neg (by simp [heq]), if_neg (by omega)] at hu
    obtain ⟨hstage, heyeh, hffe, hframe⟩ := (s.rxWakes lane).eyeTaken_spec lane i
    rw [hfix] at hffe hframe
    refine laneStage_moves a hu (fs := [R.LNE_STATE_STAGE lane, R.LNE_STATE_EYE_H lane, R.LNE_STATE_RXPS lane] ++
        if s.rd (R.LNE_CFG_FFE_FIX lane) = 1 then [] else [R.LNE_FFE_PRE lane, R.LNE_FFE_MAIN lane, R.LNE_FFE_POST lane]) ?_ ?_ (by rw [hstage]; decide)
      fun t ht hframe => ⟨(ht.signals.rd _).trans hstage, (ht.signals.rd _).trans heyeh, fun h0 h1 h2 h3 => ?_, hframe⟩
    · refine (w.frame.mono (by simp)).trans (hframe.mono ?_)
      by_cases h1 : s.rd (R.LNE_CFG_FFE_FIX lane) = 1 <;> simp [State.on, h1]
    · split <;> simp [laneFlds]
    · obtain ⟨hp, hm, hq⟩ := hffe (State.off_of_zero h0)
      rw [ht.signals.rd, ht.signals.rd, ht.signals.rd, hp, hm, hq]
      exact ⟨Nat.mod_eq_of_lt h1, Nat.mod_eq_of_lt h2, Nat.mod_eq_of_lt h3⟩

end

end Sys2Proof.Machine
end

section
/-! O29, continued: stage 4, the order of a port's lanes (R283). -/

namespace Sys2Proof.Machine

theorem orderOk_iff {lanes : List Nat} {rep : List (Nat × Nat)} {rev : Bool} :
    orderOk lanes rep rev = true ↔
      ∀ n, n < lanes.length → Sparse.get rep (lanes.getD n 0) = some (if rev then lanes.length - 1 - n else n) := by
  unfold orderOk
  simp only [List.all_eq_true, List.mem_range, decide_eq_true_eq]

/-- A port of more than one lane is not found in both orders. -/
theorem orderOk_identity {lanes : List Nat} {rep : List (Nat × Nat)} (hrev : orderOk lanes rep true = true) (hlen : 1 < lanes.length) :
    orderOk lanes rep false = false := by
  rw [← Bool.not_eq_true, orderOk_iff]
  intro hid
  have h0 := (orderOk_iff.1 hrev) 0 (by omega)
  rw [hid 0 (by omega)] at h0
  simp only [Bool.false_eq_true, if_false, if_true, Option.some.injEq] at h0
  omega

/-- The lanes of a port in the order that they were found in. -/
theorem State.takeOrder_spec (v : State) (id : Nat) (rev : Bool) :
    (∀ k ∈ v.portLanes id, (v.takeOrder id (b2n rev)).rd (R.LNE_STATE_STAGE k) = 5 ∧ (v.takeOrder id (b2n rev)).rd (R.LNE_STATE_REVERSED k) = b2n rev) ∧
      sameElse v (v.takeOrder id (b2n rev)) ((v.portLanes id).flatMap fun k => [R.LNE_STATE_STAGE k, R.LNE_STATE_REVERSED k]) := by
  unfold State.takeOrder
  refine ⟨fun k hk => ?_, ?_⟩
  · refine forL_hits (P := fun a : State => a.rd (R.LNE_STATE_STAGE k) = 5 ∧ a.rd (R.LNE_STATE_REVERSED k) = b2n rev) (Q := fun _ => True) hk trivial
      (fun _ _ _ _ => trivial) (fun a _ => ⟨State.rd_wr_same _ _ _, ?_⟩) fun j _ a ⟨h5, hr⟩ => ?_
    · rw [State.rd_wr_ne _ _ (by simp only [Fld.key, R.LNE_STATE_REVERSED, R.LNE_STATE_STAGE]; omega)]
      exact State.rd_wrB_same a (R.LNE_STATE_REVERSED k) rev Nat.one_pos
    · by_cases hj : j = k
      · subst hj
        refine ⟨State.rd_wr_same _ _ _, ?_⟩
        rw [State.rd_wr_ne _ _ (by simp only [Fld.key, R.LNE_STATE_REVERSED, R.LNE_STATE_STAGE]; omega)]
        exact State.rd_wrB_same a (R.LNE_STATE_REVERSED j) rev Nat.one_pos
      · rw [State.rd_wr_ne, State.rd_wr_ne, State.rd_wr_ne, State.rd_wr_ne]
        · exact ⟨h5, hr⟩
        all_goals
          simp only [Fld.key, R.LNE_STATE_REVERSED, R.LNE_STATE_STAGE]
          omega
  · refine List.foldlRecOn (motive := fun a => sameElse v a _) (v.portLanes id)
      (fun (a : State) l => (a.wr (R.LNE_STATE_REVERSED l) (b2n rev)).wr (R.LNE_STATE_STAGE l) 5) (.refl v _) fun a ha k hk => (ha.wr ?_).wr ?_
    all_goals exact List.mem_flatMap.2 ⟨k, hk, by simp⟩

section
variable {s : State} {lane port : Nat} (a : OnPort s lane port)
include a

/-- The lanes of a port that has been found in an order pass stage 4 together. -/
theorem laneStage_ordered {i : StageInfo} (rev : Bool)
    (hu : (s.rxWakes lane).stageStep port lane i = ((s.rxWakes lane).ordered port lane i).takeOrder port (b2n rev)) :
    completes (.laneStageDone lane i) s (fun t =>
      (∀ k ∈ s.portLanes port, t.rd (R.LNE_STATE_STAGE k) = 5 ∧ t.rd (R.LNE_STATE_REVERSED k) = b2n rev) ∧
      sameElse s t ((s.portLanes port).flatMap (fun k => [R.LNE_STATE_STAGE k, R.LNE_STATE_REVERSED k]) ++ [R.LNE_STATE_RXPS lane])) := by
  have w := s.rxWakes_woken lane
  have hlanes : ((s.rxWakes lane).ordered port lane i).portLanes port = s.portLanes port := a.lanes_of (u := (s.rxWakes lane).ordered port lane i)
    fun f hf => (State.rd_setPort _ _ _ f).trans (a.woken_cfg w f hf)
  obtain ⟨hset, hframe⟩ := ((s.rxWakes lane).ordered port lane i).takeOrder_spec port rev
  rw [hlanes] at hset hframe
  have hall := (w.frame.mono (gs := (s.portLanes port).flatMap (fun k => [R.LNE_STATE_STAGE k, R.LNE_STATE_REVERSED k]) ++ [R.LNE_STATE_RXPS lane])
    (by simp)).trans (t := (s.rxWakes lane).ordered port lane i) ((sameElse.refl _ _).of_eq rfl rfl rfl) |>.trans (hframe.mono (by simp))
  have hcfg := portCfg_of (port := port) hall fun g hg => by
    rcases List.mem_append.1 hg with hg | hg
    · obtain ⟨k, hk, hgk⟩ := List.mem_flatMap.1 hg
      refine laneFlds_key (a.lanes k hk) g ?_
      simp only [List.mem_cons, List.not_mem_nil, or_false] at hgk
      rcases hgk with rfl | rfl <;> simp [laneFlds]
    · rw [List.mem_singleton.1 hg]
      exact laneFlds_key a.lane_lt _ (by simp [laneFlds])
  exact laneStage_completes a hu (.inl (a.not_all9 hcfg (by rw [(hset lane a.mem).1]; decide))) fun t ht =>
    ⟨fun k hk => ⟨(ht.signals.rd _).trans (hset k hk).1, (ht.signals.rd _).trans (hset k hk).2⟩, hall.trans (ht.signals.frame.mono (by simp))⟩

/-- Stage 4: the order of the port's lanes. -/
theorem laneStage_order (i : StageInfo) (rep : List (Nat × Nat)) (hst : s.rd (R.LNE_STATE_STAGE lane) = 4)
    (hrep : rep = Sparse.put (s.port port).passed lane i.laneIndex) :
    (rep.length < (s.portLanes port).length →
      completes (.laneStageDone lane i) s (fun t => (t.port port).passed = rep ∧ sameElse s t [R.LNE_STATE_RXPS lane])) ∧
    (∀ rev, (s.portLanes port).length ≤ rep.length → rev = true → 1 < (s.portLanes port).length ∨ rev = false →
      (∀ n, n < (s.portLanes port).length →
        Sparse.get rep ((s.portLanes port).getD n 0) = some (if rev then (s.portLanes port).length - 1 - n else n)) →
      completes (.laneStageDone lane i) s (fun t =>
        (∀ k ∈ s.portLanes port, t.rd (R.LNE_STATE_STAGE k) = 5 ∧ t.rd (R.LNE_STATE_REVERSED k) = b2n rev) ∧
        sameElse s t ((s.portLanes port).flatMap (fun k => [R.LNE_STATE_STAGE k, R.LNE_STATE_REVERSED k]) ++ [R.LNE_STATE_RXPS lane]))) ∧
    ((s.portLanes port).length ≤ rep.length →
      (∃ n, n < (s.portLanes port).length ∧ Sparse.get rep ((s.portLanes port).getD n 0) ≠ some n) →
      (∃ n, n < (s.portLanes port).length ∧ Sparse.get rep ((s.portLanes port).getD n 0) ≠ some ((s.portLanes port).length - 1 - n)) →
      completes (.laneStageDone lane i) s (fun t => stageFailed s t port lane 2)) := by
  have w := s.rxWakes_woken lane
  have hlanes := a.lanes_of (a.woken_cfg w)
  have hnow : (s.rxWakes lane).orderNow port lane i = rep := by rw [hrep, State.orderNow, w.port]
  have hu := State.stageStep_order (id := port) (i := i) ((w.stage lane).trans hst)
  rw [hlanes, hnow] at hu
  have hkept : ∀ fs, sameElse (s.rxWakes lane) ((s.rxWakes lane).ordered port lane i) fs := fun fs => (sameElse.refl _ fs).of_eq rfl rfl rfl
  refine ⟨fun hlt => ?_, fun rev hle hrev hlen hok => ?_, fun hle hno hno' => ?_⟩
  · rw [if_pos hlt] at hu
    refine laneStage_stays a hst (by decide) hu hkept fun t ht hframe => ⟨?_, hframe⟩
    rw [ht.signals.field Port.passed (fun _ _ _ => rfl), State.ordered, State.port_setPort_same, hnow]
  · subst hrev
    have hok' := orderOk_iff.2 hok
    refine laneStage_ordered a true (hu.trans ?_)
    rw [if_neg (by omega), orderOk_identity hok' (by simpa using hlen), if_neg Bool.false_ne_true, if_pos hok']
    rfl
  · have hid : orderOk (s.portLanes port) rep false = false := by
      rw [← Bool.not_eq_true, orderOk_iff]
      obtain ⟨n, hn, hne⟩ := hno
      exact fun h => hne (h n hn)
    have hrv : orderOk (s.portLanes port) rep true = false := by
      rw [← Bool.not_eq_true, orderOk_iff]
      obtain ⟨n, hn, hne⟩ := hno'
      exact fun h => hne (h n hn)
    rw [if_neg (by omega), hid, if_neg Bool.false_ne_true, hrv, if_neg Bool.false_ne_true] at hu
    refine laneStage_fails a (by decide) (by omega) hu (fun f hf => w.rd hf) ?_
    have hport : ((s.rxWakes lane).ordered port lane i).port port = _ := State.port_setPort_same _ _ _
    rw [hport, ← w.port port]

end

end Sys2Proof.Machine
end

section
/-! O29, continued: the stages that a port's lanes pass together (R281, R298, R302). -/

namespace Sys2Proof.Machine

/-! ### A link-local cell leaves the lanes (R280, R441) -/

theorem State.countSent_frame (s : State) {id : Nat} (hid : id < 24) :
    sameElse s (s.countSent id) [R.RING_TX_CELLS (portRing id)] ∧ ∀ k, (s.countSent id).port k = s.port k := by
  have hspur : isSpur id = false := decide_eq_false (by omega)
  unfold State.countSent
  rw [hspur, if_neg Bool.false_ne_true]
  exact ⟨(sameElse.refl s _).bump (by simp), fun _ => rfl⟩

/-- A link-local cell of a ring port changes the count of cells at most, and no lane leaves its codeword stream. -/
theorem State.sendLocal_frame (s : State) {id : Nat} (hid : id < 24) (typ : Nat) (payload : List Byte) :
    sameElse s (s.sendLocal id typ payload) [R.RING_TX_CELLS (portRing id)] ∧ ∀ k, ((s.sendLocal id typ payload).port k).coded = (s.port k).coded := by
  have hspur : isSpur id = false := decide_eq_false (by omega)
  unfold State.sendLocal
  extract_lets c0 c
  split
  · refine ⟨(s.sendCell_sends _ id (by exact (by decide : clsControl < 2))).frame, fun k => ?_⟩
    unfold State.sendCell State.enqueue
    dsimp only
    split
    · rw [if_neg (by exact (by decide : clsControl ≠ 0)), if_pos (by exact (by decide : clsControl = 1))]
      by_cases hk : k = id
      · subst hk
        rw [State.port_setPort_same]
      · rw [State.port_setPort_ne s _ hk]
    · rfl
  · split
    · obtain ⟨hcount, hport⟩ := s.countSent_frame hid
      generalize s.countSent id = s1 at hcount hport ⊢
      clear_value c
      obtain ⟨-, hframe, hline⟩ := s1.wireCell_spec id (sealCell c false) false
      generalize s1.wireCell id (sealCell c false) false = t at hframe hline ⊢
      refine ⟨hcount.trans (hframe.mono (by simp)), fun k => ?_⟩
      have hk : (t.port k).coded = (s1.port k).coded := by rw [← hline k]
      rw [hk, hport]
    · exact ⟨.refl s _, fun _ => rfl⟩

/-- A stage's end, and the NEIGH cell that may have waited for the codeword stream. -/
theorem State.stageDone_cases {s u : State} {id k : Nat} {i : StageInfo} (hu : (s.rxWakes k).stageStep id k i = u) :
    ∃ t, Settled id i.farReady u t ∧ (s.stageDone id k i = t ∨ s.stageDone id k i = t.sendLocal id tNeigh (t.neighPayload id)) ∧
      (u.lanesSend id = true → s.stageDone id k i = t) := by
  refine ⟨_, u.signals_settled id k i.farReady, ?_, fun hsend => ?_⟩
  · unfold State.stageDone
    rw [hu]
    dsimp only
    split
    · exact .inr rfl
    · exact .inl rfl
  · obtain ⟨hs, hp⟩ := u.trainingFrames_signals id
    unfold State.stageDone
    rw [hu]
    dsimp only
    rw [State.lanesSend_congr hs.rd hp (id := id), hsend]
    simp

/-! ### What the ends of the common stages do -/

section
variable {v : State} {id k : Nat} {i : StageInfo}

theorem State.stageStep_eight (hst : v.rd (R.LNE_STATE_STAGE k) = 8) :
    v.stageStep id k i = if !v.allAt id 8 then v
      else if (v.port id).waking then ((v.setStage id 11).wr (portStF id) (v.shownUp id)).setPort id { v.port id with waking := false }
      else (v.setStage id 9).sendLocal id tNeigh (v.neighPayload id) := by
  unfold State.stageStep
  rw [hst]
  rfl

theorem State.stageStep_nine (hst : v.rd (R.LNE_STATE_STAGE k) = 9) :
    v.stageStep id k i = if (v.port id).neighOk && v.lanesSend id then
        (v.setStage id 10).setPort id { v.port id with measuring := true, dlySent := 0, dlyRes := [] }
      else v := by
  unfold State.stageStep
  rw [hst]
  rfl

theorem State.stageStep_ten (hst : v.rd (R.LNE_STATE_STAGE k) = 10) :
    v.stageStep id k i = if (v.port id).dlyNext.isSome && !(v.port id).measuring then v.portIsUp id else v := by
  unfold State.stageStep
  rw [hst]
  rfl

end

theorem Staged.cfg {id v n : Nat} {s t : State} (hid : id < 24) (a : Staged id v n s t) : ∀ f ∈ portCfgFlds id, t.rd f = s.rd f := fun f hf => by
  refine a.read (fun k he => ?_) (portCfg_not_shown hid hf)
  have h := (portCfg_place hf).2
  rw [he] at h
  simp only [Fld.key, R.LNE_STATE_STAGE] at h
  omega

section
variable {s : State} {lane port : Nat} (a : OnPort s lane port)
include a

theorem OnPort.woken_lanes {v : State} (w : Woken lane s v) : v.portLanes port = s.portLanes port := a.lanes_of (a.woken_cfg w)

theorem OnPort.woken_allAt {v : State} (w : Woken lane s v) (n : Nat) : v.allAt port n = s.allAt port n := by
  unfold State.allAt
  rw [a.woken_lanes w]
  simp only [w.stage]

theorem OnPort.woken_lanesSend {v : State} (w : Woken lane s v) : v.lanesSend port = s.lanesSend port := by
  unfold State.lanesSend
  rw [a.woken_lanes w, w.port]
  have htx (k : Nat) : v.rd (R.LNE_STATE_TXPS k) = s.rd (R.LNE_STATE_TXPS k) :=
    w.rd (by simp only [Fld.key, R.LNE_STATE_TXPS, R.LNE_STATE_RXPS]; omega)
  simp only [htx]

theorem OnPort.woken_shownUp {v : State} (w : Woken lane s v) : v.shownUp port = s.shownUp port := by
  unfold State.shownUp
  rw [State.loopOf_congr (a.woken_cfg w)]

/-- A port whose lanes reach stage 11 with what they show. -/
theorem laneStage_staged {i : StageInfo} {v x u : State} {n : Nat} {φ : State → Prop} (hv : sameElse s v [R.LNE_STATE_RXPS lane]) (hx : Staged port n 11 v x)
    (hu : (s.rxWakes lane).stageStep port lane i = u) (hregs : ∀ f, linkSafe f → u.rd f = x.rd f)
    (hφ : ∀ t, Settled port i.farReady u t → (∀ k ∈ s.portLanes port, t.rd (R.LNE_STATE_STAGE k) = 11) → t.portState port = n →
      sameElse s x ((s.portLanes port).map R.LNE_STATE_STAGE ++ [R.LNE_STATE_RXPS lane, portStF port]) → φ t) :
    completes (.laneStageDone lane i) s φ := by
  have hstage (k : Nat) : linkSafe (R.LNE_STATE_STAGE k) := by
    simp only [linkSafe, Fld.key, R.LNE_STATE_STAGE, List.mem_cons, List.not_mem_nil, or_false]
    omega
  have hvcfg := portCfg_of (port := port) hv (by simpa using laneFlds_key a.lane_lt (R.LNE_STATE_RXPS lane) (by simp [laneFlds]))
  have hcfg : ∀ f ∈ portCfgFlds port, u.rd f = s.rd f := fun f hf => by
    rw [hregs f (by simp [linkSafe, (portCfg_place hf).2]), hx.cfg a.port_lt f hf, hvcfg f hf]
  have hall (k : Nat) (hk : k ∈ s.portLanes port) : u.rd (R.LNE_STATE_STAGE k) = 11 :=
    (hregs _ (hstage k)).trans (hx.stage k (by rw [a.lanes_of hvcfg]; exact hk))
  refine laneStage_completes a hu (.inl (a.not_all9 hcfg (by rw [hall lane a.mem]; decide))) fun t ht =>
    hφ t ht (fun k hk => (ht.signals.rd _).trans (hall k hk)) ?_ ?_
  · exact (ht.signals.rd _).trans ((hregs _ (by simp [linkSafe, portSt_place a.port_lt])).trans hx.shown)
  · have hframe := hx.frame
    rw [a.lanes_of hvcfg] at hframe
    exact (hv.mono (by simp)).trans (hframe.mono (by simp))

/-- Stage 8 of a port that returns from SLEEP. -/
theorem laneStage_wakes (i : StageInfo) (hst : s.rd (R.LNE_STATE_STAGE lane) = 8) (h8 : s.allAt port 8 = true) (hw : (s.port port).waking = true) :
    completes (.laneStageDone lane i) s (fun t =>
      (∀ k ∈ s.portLanes port, t.rd (R.LNE_STATE_STAGE k) = 11) ∧ t.portState port = (if s.loopOf port = 0 then 2 else 3) ∧
      (t.port port).waking = false ∧
      sameElse s t ((s.portLanes port).map R.LNE_STATE_STAGE ++ [R.LNE_STATE_RXPS lane, portStF port])) := by
  have w := s.rxWakes_woken lane
  have hu := State.stageStep_eight (id := port) (i := i) ((w.stage lane).trans hst)
  rw [a.woken_allAt w, h8, if_neg (by decide), if_pos ((congrArg Port.waking (w.port port)).trans hw), a.woken_shownUp w] at hu
  have hx : Staged port (s.shownUp port) 11 (s.rxWakes lane) (((s.rxWakes lane).setStage port 11).wr (portStF port) (s.shownUp port)) :=
    State.staged_then_shown a.port_lt (by rw [a.woken_lanes w]; exact a.lanes) (shown_lt s port).2.1 (by decide)
  refine laneStage_staged a w.frame hx hu (fun f _ => State.rd_setPort _ _ _ f) fun t ht hstage hshown hframe => ⟨hstage, hshown, ?_, ?_⟩
  · rw [ht.signals.field Port.waking (fun _ _ _ => rfl), State.port_setPort_same]
  · exact (hframe.of_eq rfl rfl rfl).trans (ht.signals.frame.mono (by simp))

/-- Stage 8 of a port of which a lane is behind. -/
theorem laneStage_behind (i : StageInfo) (hst : s.rd (R.LNE_STATE_STAGE lane) = 8) (h8 : s.allAt port 8 = false) :
    completes (.laneStageDone lane i) s (fun t => sameElse s t [R.LNE_STATE_RXPS lane]) := by
  have w := s.rxWakes_woken lane
  have hu := State.stageStep_eight (id := port) (i := i) ((w.stage lane).trans hst)
  rw [a.woken_allAt w, h8, if_pos (by decide)] at hu
  exact laneStage_stays a hst (by decide) hu (fun fs => .refl _ fs) fun _ _ hframe => hframe

end

end Sys2Proof.Machine
end

section
/-! O29, continued: NEIGH, the delay measurement, and the port that is UP (R281, R298, R300). -/

namespace Sys2Proof.Machine

/-! ### Stages 8 to 10 of a port (R281, R298) -/

section
variable {s : State} {lane port : Nat} (a : OnPort s lane port)
include a

/-- All lanes of a port pass to a stage. -/
theorem OnPort.passes {v : State} (w : Woken lane s v) {n : Nat} (hn : n < 16) :
    (∀ k ∈ s.portLanes port, (v.setStage port n).rd (R.LNE_STATE_STAGE k) = n) ∧
      sameElse s (v.setStage port n) ((s.portLanes port).map R.LNE_STATE_STAGE ++ [R.LNE_STATE_RXPS lane]) ∧
      (∀ k, (v.setStage port n).port k = s.port k) ∧ (v.setStage port n).out = s.out ∧ (v.setStage port n).build = s.build := by
  have hset := v.setStage_swept port n
  rw [a.woken_lanes w] at hset
  obtain ⟨r, hr⟩ := hset.rest
  refine ⟨fun k hk => (hset.hit k hk).trans (Nat.mod_eq_of_lt hn), (w.frame.mono (by simp)).trans (hset.frame.mono (by simp)), fun k => ?_, ?_, ?_⟩
  · rw [hr]
    exact w.port k
  · rw [hr]
    exact w.out
  · rw [hr]
    exact w.build

/-- A register outside those that the common stages write. -/
theorem OnPort.kept {x : State} (h : sameElse s x ((s.portLanes port).map R.LNE_STATE_STAGE ++ [R.LNE_STATE_RXPS lane, R.RING_TX_CELLS (portRing port)]))
    {f : Fld} (hst : ∀ k, k < 48 → f.key ≠ (R.LNE_STATE_STAGE k).key) (hrx : f.key ≠ (R.LNE_STATE_RXPS lane).key)
    (htx : f.key ≠ (R.RING_TX_CELLS (portRing port)).key) : x.rd f = s.rd f := by
  refine h.read fun g hg => ?_
  simp only [List.mem_append, List.mem_map, List.mem_cons, List.not_mem_nil, or_false] at hg
  rcases hg with ⟨k, hk, rfl⟩ | rfl | rfl
  · exact hst k (a.lanes k hk)
  · exact hrx
  · exact htx

/-- A register of the ports that is no counter of cells. -/
theorem OnPort.kept_port {x : State} (h : sameElse s x ((s.portLanes port).map R.LNE_STATE_STAGE ++ [R.LNE_STATE_RXPS lane, R.RING_TX_CELLS (portRing port)]))
    {f : Fld} (hf : 0x48000 * 32 ≤ f.key) (hplace : f.key / 32 % 256 < 0x40) : x.rd f = s.rd f := by
  refine a.kept h (fun k hk => ?_) ?_ ?_
  · have := stage_key hk
    omega
  · have := laneFlds_key a.lane_lt (R.LNE_STATE_RXPS lane) (by simp [laneFlds])
    omega
  · simp only [Fld.key, R.RING_TX_CELLS] at *
    omega

theorem OnPort.kept_lanesSend {x : State} (h : sameElse s x ((s.portLanes port).map R.LNE_STATE_STAGE ++ [R.LNE_STATE_RXPS lane, R.RING_TX_CELLS (portRing port)]))
    (hcoded : (x.port port).coded = (s.port port).coded) : x.lanesSend port = s.lanesSend port := by
  have htx (k : Nat) (hk : k < 48) : x.rd (R.LNE_STATE_TXPS k) = s.rd (R.LNE_STATE_TXPS k) := by
    refine a.kept h (fun j _ => ?_) ?_ ?_ <;> (simp only [Fld.key, R.LNE_STATE_TXPS, R.LNE_STATE_STAGE, R.LNE_STATE_RXPS, R.RING_TX_CELLS]; omega)
  have hlanes : x.portLanes port = s.portLanes port := a.lanes_of fun f hf => a.kept_port h (portCfg_place hf).1 (by rw [(portCfg_place hf).2]; decide)
  rw [Bool.eq_iff_iff, State.lanesSend, State.lanesSend, hlanes, hcoded, List.all_eq_true, List.all_eq_true]
  exact forall₂_congr fun k hk => by rw [htx k (a.lanes k hk)]

theorem OnPort.kept_selfId {x : State} (h : sameElse s x ((s.portLanes port).map R.LNE_STATE_STAGE ++ [R.LNE_STATE_RXPS lane, R.RING_TX_CELLS (portRing port)]))
    (hb : x.build = s.build) : x.selfId port = s.selfId port := by
  have hnode : x.rd (R.RING_STATE_NODE 0) = s.rd (R.RING_STATE_NODE 0) := a.kept_port h (by decide) (by decide)
  have hhead : x.headNo = s.headNo := by
    refine a.kept h (fun k _ => ?_) ?_ ?_ <;> (simp only [Fld.key, R.SPR_CFG_HEAD, R.LNE_STATE_STAGE, R.LNE_STATE_RXPS, R.RING_TX_CELLS]; omega)
  unfold State.selfId
  rw [hb, hnode, hhead]

/-- Stage 8 of a port all of whose lanes have reached it. -/
theorem laneStage_neigh (i : StageInfo) (hst : s.rd (R.LNE_STATE_STAGE lane) = 8) (h8 : s.allAt port 8 = true) (hw : (s.port port).waking = false) :
    completes (.laneStageDone lane i) s (fun t =>
      (∀ k ∈ s.portLanes port, t.rd (R.LNE_STATE_STAGE k) = 9) ∧
      (s.portState port = 1 → s.lanesSend port = true →
        ∃ x : Cell, onWire s t port (.cell port x false) ∧ x.typ = tNeigh ∧ x.payload.take 2 = natLE (s.selfId port) 2) ∧
      (s.portState port ≠ 2 →
        sameElse s t ((s.portLanes port).map R.LNE_STATE_STAGE ++ [R.LNE_STATE_RXPS lane, R.RING_TX_CELLS (portRing port)]))) := by
  have w := s.rxWakes_woken lane
  obtain ⟨hstage, hframe, hport, hout, hbuild⟩ := a.passes w (n := 9) (by decide)
  have hu := State.stageStep_eight (id := port) (i := i) ((w.stage lane).trans hst)
  rw [a.woken_allAt w, h8, if_neg (by decide), if_neg (by rw [w.port port, hw]; exact Bool.false_ne_true)] at hu
  have hself : (s.rxWakes lane).selfId port = s.selfId port := a.kept_selfId (w.frame.mono (by simp)) w.build
  generalize hpay : (s.rxWakes lane).neighPayload port = pay at hu
  have htake : pay.take 2 = natLE (s.selfId port) 2 := by
    rw [← hpay, ← hself]
    rfl
  generalize (s.rxWakes lane).setStage port 9 = x at hstage hframe hport hout hbuild hu
  obtain ⟨hsent, hcoded⟩ := x.sendLocal_frame a.port_lt tNeigh pay
  have hkept := hframe.mono (gs := (s.portLanes port).map R.LNE_STATE_STAGE ++ [R.LNE_STATE_RXPS lane, R.RING_TX_CELLS (portRing port)]) (by simp)
  have hukept := hkept.trans (hsent.mono (by simp))
  have hstageTx (k : Nat) (hk : k < 48) : (R.LNE_STATE_STAGE k).key ≠ (R.RING_TX_CELLS (portRing port)).key := by
    have := stage_key hk
    simp only [Fld.key, R.RING_TX_CELLS] at *
    omega
  obtain ⟨t, ht, hcases, hdone⟩ := State.stageDone_cases hu
  have htstage (k : Nat) (hk : k ∈ s.portLanes port) : t.rd (R.LNE_STATE_STAGE k) = 9 := by
    rw [ht.signals.rd, hsent.read (by simpa using hstageTx k (a.lanes k hk)), hstage k hk]
  have htkept := hukept.trans (ht.signals.frame.mono (by simp))
  obtain ⟨hsent2, -⟩ := t.sendLocal_frame a.port_lt tNeigh (t.neighPayload port)
  refine completes_eq rfl (a.run _) ⟨fun k hk => ?_, fun hst1 hsend => ?_, fun _ => ?_⟩
  · rcases hcases with h | h <;> rw [h]
    · exact htstage k hk
    · rw [hsent2.read (by simpa using hstageTx k (a.lanes k hk)), htstage k hk]
  · have hshown : x.portState port = 1 :=
      (a.kept_port hkept (portStF_key a.port_lt) (by rw [portSt_place a.port_lt]; decide)).trans hst1
    have hxsend : x.lanesSend port = true := (a.kept_lanesSend hkept (congrArg Port.coded (hport port))).trans hsend
    have husend : (x.sendLocal port tNeigh pay).lanesSend port = true :=
      (a.kept_lanesSend hukept ((hcoded port).trans (congrArg Port.coded (hport port)))).trans hsend
    obtain ⟨⟨c, hwire, htyp, hpayload⟩, -, -⟩ := State.sendLocal_training (typ := tNeigh) (payload := pay) hshown hxsend
      (decide_eq_false (by have := a.port_lt; omega))
    rw [hdone husend]
    refine ⟨c, ?_, htyp, by rw [hpayload, htake]⟩
    unfold onWire at hwire ⊢
    rw [ht.coded husend, ← hout]
    exact hwire
  · rcases hcases with h | h <;> rw [h]
    · exact htkept
    · exact htkept.trans (hsent2.mono (by simp))

/-- Stage 9 of a port whose codewords go out. -/
theorem laneStage_linked (i : StageInfo) (hst : s.rd (R.LNE_STATE_STAGE lane) = 9) (hsend : s.lanesSend port = true) :
    ((s.port port).neighOk = true →
      completes (.laneStageDone lane i) s (fun t =>
        (∀ k ∈ s.portLanes port, t.rd (R.LNE_STATE_STAGE k) = 10) ∧ (t.port port).measuring = true ∧ (t.port port).dlySent = 0 ∧
        (t.port port).dlyRes = [] ∧ sameElse s t ((s.portLanes port).map R.LNE_STATE_STAGE ++ [R.LNE_STATE_RXPS lane]))) ∧
    ((s.port port).neighOk = false → completes (.laneStageDone lane i) s (fun t => sameElse s t [R.LNE_STATE_RXPS lane])) := by
  have w := s.rxWakes_woken lane
  have hu := State.stageStep_nine (id := port) (i := i) ((w.stage lane).trans hst)
  rw [a.woken_lanesSend w, hsend, Bool.and_true, w.port port] at hu
  refine ⟨fun hok => ?_, fun hok => ?_⟩
  · rw [hok, if_pos rfl] at hu
    obtain ⟨hstage, hframe, -, -, -⟩ := a.passes w (n := 10) (by decide)
    generalize (s.rxWakes lane).setStage port 10 = x at hstage hframe hu
    have hcfg : ∀ f ∈ portCfgFlds port, x.rd f = s.rd f := fun f hf =>
      a.kept_port (hframe.mono (by simp)) (portCfg_place hf).1 (by rw [(portCfg_place hf).2]; decide)
    refine laneStage_completes a hu (.inl (a.not_all9 hcfg (by rw [State.rd_setPort, hstage lane a.mem]; decide))) fun t ht =>
      ⟨fun k hk => (ht.signals.rd _).trans (hstage k hk), ?_, ?_, ?_, (hframe.of_eq rfl rfl rfl).trans (ht.signals.frame.mono (by simp))⟩
    · rw [ht.signals.field Port.measuring (fun _ _ _ => rfl), State.port_setPort_same]
    · rw [ht.signals.field Port.dlySent (fun _ _ _ => rfl), State.port_setPort_same]
    · rw [ht.signals.field Port.dlyRes (fun _ _ _ => rfl), State.port_setPort_same]
  · rw [hok, if_neg Bool.false_ne_true] at hu
    exact laneStage_completes a hu (.inr ((a.woken_lanesSend w).trans hsend)) fun t ht => w.frame.trans (ht.signals.frame.mono (by simp))

end

/-- A port that comes up: its lanes and what it shows, and what it tells the ring. -/
theorem State.portIsUp_parts (s : State) {id : Nat} (hid : id < 24) (hl : ∀ k ∈ s.portLanes id, k < 48) :
    ∃ v x, sameElse s v [] ∧ (v.port id).fails = 0 ∧ Staged id (s.shownUp id) 11 v x ∧ Told linkSafe x (s.portIsUp id) ∧
      (s.build = .tile → (s.port id).wasDown = false → s.portIsUp id = x) := by
  unfold State.portIsUp
  extract_lets p s1 s2
  have hx : Staged id (s.shownUp id) 11 (s.setPort id { p with fails := 0, waking := false, upOnce := p.upOnce || s.loopOf id = 0 }) s1 :=
    State.staged_then_shown hid hl (shown_lt s id).2.1 (by decide)
  refine ⟨s.setPort id _, s1, (sameElse.refl s []).of_eq rfl rfl rfl, by rw [State.port_setPort_same], hx, ?_, fun hb hw => ?_⟩
  · clear_value s1
    have h2 : Told linkSafe s1 s2 :=
      .ite ((s1.linkCell_told id tLinkup _).trans (.forL _ fun q b => State.breakDel_told (fun _ hf => hf) b q _)) (.refl s1)
    clear_value s2
    refine .ite (.refl s1) ?_
    split
    · exact h2
    · exact .ite (h2.trans (s2.sendDiscover_told _)) h2
  · have h2 : s2 = s1 := if_neg (by rw [hw]; exact Bool.false_ne_true)
    clear_value s1
    rw [hb, h2]
    split <;> rfl

section
variable {s : State} {lane port : Nat} (a : OnPort s lane port)
include a

/-- Stage 10 of a port whose delay is being measured still. -/
theorem laneStage_measures (i : StageInfo) (hst : s.rd (R.LNE_STATE_STAGE lane) = 10)
    (hm : (s.port port).dlyNext = none ∨ (s.port port).measuring = true) :
    completes (.laneStageDone lane i) s (fun t => sameElse s t [R.LNE_STATE_RXPS lane]) := by
  have w := s.rxWakes_woken lane
  have hu := State.stageStep_ten (id := port) (i := i) ((w.stage lane).trans hst)
  rw [if_neg (by rw [w.port port]; rcases hm with h | h <;> simp [h])] at hu
  exact laneStage_stays a hst (by decide) hu (fun fs => .refl _ fs) fun _ _ hframe => hframe

/-- Stage 10 of a port whose delay has been measured. -/
theorem laneStage_up (i : StageInfo) (hst : s.rd (R.LNE_STATE_STAGE lane) = 10) (hd : (s.port port).dlyNext ≠ none) (hm : (s.port port).measuring = false) :
    completes (.laneStageDone lane i) s (fun t =>
      (∀ k ∈ s.portLanes port, t.rd (R.LNE_STATE_STAGE k) = 11) ∧ t.portState port = (if s.loopOf port = 0 then 2 else 3) ∧
      (t.port port).fails = 0 ∧
      (s.build = .tile → (s.port port).wasDown = false →
        sameElse s t ((s.portLanes port).map R.LNE_STATE_STAGE ++ [R.LNE_STATE_RXPS lane, portStF port]))) := by
  have w := s.rxWakes_woken lane
  have hu := State.stageStep_ten (id := port) (i := i) ((w.stage lane).trans hst)
  rw [if_pos (by simp [w.port port, hm, Option.isSome_iff_ne_none.2 hd])] at hu
  obtain ⟨v, x, hv, hfails, hx, htold, heq⟩ := (s.rxWakes lane).portIsUp_parts a.port_lt (by rw [a.woken_lanes w]; exact a.lanes)
  rw [a.woken_shownUp w] at hx
  refine laneStage_staged a (w.frame.trans (hv.mono (by simp))) hx hu htold.rd fun t ht hstage hshown hframe => ⟨hstage, hshown, ?_, fun hb hw => ?_⟩
  · rw [ht.signals.field Port.fails (fun _ _ _ => rfl), htold.fails, hx.port, hfails]
  · rw [← heq (w.build.trans hb) ((congrArg Port.wasDown (w.port port)).trans hw)] at hframe
    exact hframe.trans (ht.signals.frame.mono (by simp))

end

end Sys2Proof.Machine
end

section
/-! O29, continued: QUIET (R302). -/

namespace Sys2Proof.Machine

/-! ### One field of some lanes turns from one value to another -/

/-- A lane whose field shows `was` takes `now`, where a condition that no such write changes lets it. -/
def State.turnField (F : Nat → Fld) (g : State → Nat → Bool) (was now k : Nat) (a : State) : State :=
  if g a k && a.rd (F k) = was then a.wr (F k) now else a

/-- The value of such a field afterwards. -/
def turned (was now : Nat) (c : Bool) (v : Nat) : Nat := if c = true ∧ v = was then now else v

theorem turned_turned {was now : Nat} (hne : now ≠ was) (c : Bool) (v : Nat) : turned was now c (turned was now c v) = turned was now c v := by
  unfold turned
  by_cases h : c = true ∧ v = was
  · rw [if_pos h, if_neg fun hh => hne hh.2]
  · rw [if_neg h, if_neg h]

section
variable {F : Nat → Fld} {g : State → Nat → Bool} {was now : Nat} (inj : ∀ j k, (F j).key = (F k).key → j = k) (hw : ∀ k, (F k).width = 2)
  (hg : ∀ (a : State) j v k, g (a.wr (F j) v) k = g a k) (hnow : now < 4)
include inj hw hg hnow

theorem State.turnField_spec (j k v : Nat) (a : State) (c : Bool) (hc : g a k = c) (hv : a.rd (F k) = v) :
    g (State.turnField F g was now j a) k = c ∧ (State.turnField F g was now j a).rd (F k) = if j = k then turned was now c v else v := by
  unfold State.turnField turned
  split
  next h =>
    rw [Bool.and_eq_true, decide_eq_true_eq] at h
    refine ⟨(hg a j now k).trans hc, ?_⟩
    by_cases hj : j = k
    · subst hj
      rw [State.rd_wr_same, hw, if_pos rfl, if_pos ⟨hc.symm.trans h.1, hv.symm.trans h.2⟩]
      exact Nat.mod_eq_of_lt hnow
    · rw [State.rd_wr_ne a now fun he => hj (inj j k he.symm), hv, if_neg hj]
  next h =>
    refine ⟨hc, ?_⟩
    by_cases hj : j = k
    · subst hj
      rw [if_pos rfl, if_neg fun hh => h (by simp [hc, hv, hh]), hv]
    · rw [if_neg hj, hv]

theorem State.turnFields (hne : now ≠ was) (s : State) (l : List Nat) :
    (∀ k ∈ l, (forL l (State.turnField F g was now) s).rd (F k) = turned was now (g s k) (s.rd (F k))) ∧
      sameElse s (forL l (State.turnField F g was now) s) (l.map F) := by
  refine ⟨fun k hk => ?_, ?_⟩
  · have hstep (j : Nat) (a : State) (ha : g a k = g s k) := State.turnField_spec (F := F) (g := g) (was := was) inj hw hg hnow j k _ a _ ha rfl
    have hidem := turned_turned hne (g s k) (s.rd (F k))
    generalize hto : turned was now (g s k) (s.rd (F k)) = w at hidem ⊢
    have hval (v : Nat) (hv : v = s.rd (F k) ∨ v = w) : turned was now (g s k) v = w := by
      rcases hv with rfl | rfl
      · exact hto
      · exact hidem
    refine (forL_hits (Q := fun a : State => g a k = g s k ∧ (a.rd (F k) = s.rd (F k) ∨ a.rd (F k) = w)) (P := fun a : State => g a k = g s k ∧ a.rd (F k) = w)
      hk ⟨rfl, .inl rfl⟩ (fun j _ a ha => ?_) (fun a ha => ?_) fun j _ a ha => ?_).2
    · obtain ⟨h1, h2⟩ := hstep j a ha.1
      refine ⟨h1, ?_⟩
      rw [h2]
      split
      · exact .inr (hval _ ha.2)
      · exact ha.2
    · obtain ⟨h1, h2⟩ := hstep k a ha.1
      exact ⟨h1, by rw [h2, if_pos rfl, hval _ ha.2]⟩
    · obtain ⟨h1, h2⟩ := hstep j a ha.1
      refine ⟨h1, ?_⟩
      rw [h2]
      split
      · exact hval _ (.inr ha.2)
      · exact ha.2
  · refine List.foldlRecOn (motive := fun a => sameElse s a (l.map F)) l (fun a k => State.turnField F g was now k a) (.refl s _) fun a ha k hk => ?_
    unfold State.turnField
    split
    · exact ha.wr (List.mem_map_of_mem hk)
    · exact ha

end

/-! ### Entering QUIET -/

section
variable {s : State} {port : Nat}

theorem quietEnter_tx (hup : s.lanesUp port = true) (hp : s.pstate = pShoulder) (hidle : s.outIdle port = true) :
    completes (.quietEnter port .tx) s (fun t =>
      (∀ k ∈ s.portLanes port, s.on (R.LNE_CFG_QUIET_EN k) = true → s.rd (R.LNE_STATE_TXPS k) = 0 → t.rd (R.LNE_STATE_TXPS k) = 1) ∧
      sameElse s t ((s.portLanes port).map R.LNE_STATE_TXPS)) := by
  have heq : s.quietEnter port = forL (s.portLanes port) (State.turnField R.LNE_STATE_TXPS (fun a k => a.on (R.LNE_CFG_QUIET_EN k)) 0 1) s :=
    if_pos (by simp [hup, hp, hidle])
  obtain ⟨hset, hframe⟩ := State.turnFields (F := R.LNE_STATE_TXPS) (g := fun a k => a.on (R.LNE_CFG_QUIET_EN k)) (was := 0) (now := 1) txps_inj
    (fun _ => rfl) (fun a j v k => congrArg (fun n : Nat => decide (n = 1)) (State.rd_wr_ne (g := R.LNE_CFG_QUIET_EN k) (f := R.LNE_STATE_TXPS j) a v (by simp only [Fld.key, R.LNE_STATE_TXPS, R.LNE_CFG_QUIET_EN]; omega)))
    (by decide) (by decide) s (s.portLanes port)
  exact completes_eq rfl heq ⟨fun k hk hon h0 => (hset k hk).trans (if_pos ⟨hon, h0⟩), hframe⟩

theorem quietFollow_spec {was now : Nat} (hup : s.lanesUp port = true) (hne : now ≠ was) (hnow : now < 4) :
    (∀ k ∈ s.portLanes port, (s.quietFollow port was now).rd (R.LNE_STATE_RXPS k) =
      if s.rd (R.LNE_STATE_RXPS k) = was then now else s.rd (R.LNE_STATE_RXPS k)) ∧
      sameElse s (s.quietFollow port was now) ((s.portLanes port).map R.LNE_STATE_RXPS) := by
  have hstep : (fun k (a : State) => if a.rd (R.LNE_STATE_RXPS k) = was then a.wr (R.LNE_STATE_RXPS k) now else a) =
      State.turnField R.LNE_STATE_RXPS (fun _ _ => true) was now := by
    funext k a
    simp [State.turnField]
  unfold State.quietFollow
  rw [if_pos hup, hstep]
  simpa [turned] using State.turnFields (F := R.LNE_STATE_RXPS) (g := fun _ _ => true) rxps_inj (fun _ => rfl) (fun _ _ _ _ => rfl) hnow hne s (s.portLanes port)

/-! ### Leaving QUIET -/

/-- Lanes that are QUIET leave it; those of a state whose registers are those of `s`. -/
theorem State.quietLeft {u : State} (hrd : ∀ f, u.rd f = s.rd f) (hframe : sameElse s u []) (hlanes : u.portLanes port = s.portLanes port) :
    (∀ k ∈ s.portLanes port, (forL (u.quietLanes port) (fun k a => a.wr (R.LNE_STATE_TXPS k) 0) u).rd (R.LNE_STATE_TXPS k) ≠ 1) ∧
      sameElse s (forL (u.quietLanes port) (fun k a => a.wr (R.LNE_STATE_TXPS k) 0) u) ((s.portLanes port).map R.LNE_STATE_TXPS) := by
  have hsw := u.sweep txps_inj (u.quietLanes port) 0
  have hmem (k : Nat) : k ∈ u.quietLanes port ↔ k ∈ s.portLanes port ∧ s.rd (R.LNE_STATE_TXPS k) = 1 := by
    rw [State.quietLanes, hlanes, List.mem_filter, hrd, decide_eq_true_eq]
  refine ⟨fun k hk => ?_, ?_⟩
  · by_cases h1 : s.rd (R.LNE_STATE_TXPS k) = 1
    · rw [hsw.hit k ((hmem k).2 ⟨hk, h1⟩), Nat.zero_mod]
      decide
    · rw [hsw.frame.read fun g hg he => ?_, hrd]
      · exact h1
      · obtain ⟨j, hj, rfl⟩ := List.mem_map.1 hg
        rw [txps_inj k j he] at h1
        exact h1 ((hmem j).1 hj).2
  · refine (hframe.mono (by simp)).trans (hsw.frame.mono fun f hf => ?_)
    obtain ⟨k, hk, rfl⟩ := List.mem_map.1 hf
    exact List.mem_map_of_mem ((hmem k).1 hk).1

/-- Cell times on a QUIET output change the ports only. -/
theorem State.quietWindow_ports (s : State) (id : Nat) : ∃ p, s.quietWindow id = { s with ports := p } := by
  unfold State.quietWindow State.testGen
  dsimp only
  split_ifs <;> exact ⟨_, rfl⟩

theorem quietExit_tx (hex : portExists s.build port = true) (hgo : s.outEmpty port = false ∧ s.loopOf port ≠ 1 ∨ s.pstate ≠ pShoulder) :
    completes (.quietExit port .tx) s (fun t =>
      (∀ k ∈ s.portLanes port, t.rd (R.LNE_STATE_TXPS k) ≠ 1) ∧ sameElse s t ((s.portLanes port).map R.LNE_STATE_TXPS)) := by
  have hout : (!(s.quietWindow port).outIdle port || decide (s.pstate ≠ pShoulder)) = true := by
    rcases hgo with ⟨hne, hloop⟩ | hp
    · have hwin : s.quietWindow port = s := if_neg (by simp [hne])
      rw [hwin, State.outIdle, hne, decide_eq_false hloop]
      rfl
    · rw [decide_eq_true hp, Bool.or_true]
  have heq : s.quietExit port = forL ((s.quietWindow port).quietLanes port) (fun k a => a.wr (R.LNE_STATE_TXPS k) 0) (s.quietWindow port) := by
    unfold State.quietExit
    dsimp only
    rw [hex, hout, if_pos (by rfl)]
  obtain ⟨p, hp⟩ := s.quietWindow_ports port
  rw [hp] at heq
  exact completes_eq rfl heq (State.quietLeft (fun _ => rfl) ((sameElse.refl s []).of_eq rfl rfl rfl) rfl)

/-- A QUIET output with nothing to send stays so. -/
theorem quietExit_idle (hemp : s.outEmpty port = true) (hp : s.pstate = pShoulder) (htest : s.testOn port = false) :
    completes (.quietExit port .tx) s (fun t => t = s) := by
  have hwin : s.quietWindow port = s := if_neg (by simp [htest])
  have heq : s.quietExit port = s := by
    unfold State.quietExit
    dsimp only
    rw [hwin, State.outIdle, hemp, hp]
    exact if_neg (by simp)
  exact completes_eq rfl heq rfl

/-- The test generator gives the port one more TEST cell. -/
theorem State.testGen_cell {u : State} {id : Nat} (hspur : isSpur id = false) (hmute : u.mute (portRing id) = false) (htest : u.testOn id = true)
    (hrate : (u.port id).testSent < u.rd (R.RING_TEST_RATE (portRing id))) (hroom : (u.port id).q3.length < beLimit) :
    ∃ x : Cell, ((u.testGen id).port id).q3 = (u.port id).q3 ++ [{ cell := x, stomp := false }] ∧ x.typ = 1 ∧
      x.dest = u.rd (R.RING_TEST_DEST (portRing id)) ∧ x.payload = (prbsBytes (u.port id).prbsTx 256).1 := by
  unfold State.testGen
  dsimp only
  rw [hspur, hmute, htest, decide_eq_true hrate, decide_eq_true hroom, if_neg (by simp), if_pos (by rfl)]
  exact ⟨_, congrArg Port.q3 (State.port_setPort_same _ _ _), rfl, rfl, rfl⟩

/-- A QUIET output whose test generator runs leaves QUIET for a TEST cell. -/
theorem quietExit_test (hup : s.lanesUp port = true) (hemp : s.outEmpty port = true) (hq : s.quietLanes port ≠ []) (hloop : s.loopOf port ≠ 1)
    (htest : s.testOn port = true) (hmute : s.mute (portRing port) = false) (hrate : 0 < s.rd (R.RING_TEST_RATE (portRing port))) :
    completes (.quietExit port .tx) s (fun t =>
      (∃ x : Cell, (t.port port).q3 = [{ cell := x, stomp := false }] ∧ x.typ = 1 ∧ x.dest = s.rd (R.RING_TEST_DEST (portRing port)) ∧
        x.payload = (prbsBytes (s.port port).prbsTx 256).1) ∧
      (∀ k ∈ s.portLanes port, t.rd (R.LNE_STATE_TXPS k) ≠ 1) ∧ sameElse s t ((s.portLanes port).map R.LNE_STATE_TXPS)) := by
  have hspur : isSpur port = false := by
    rw [State.testOn, Bool.and_eq_true, Bool.not_eq_true'] at htest
    exact htest.1
  have hex : portExists s.build port = true := by
    rw [State.lanesUp, Bool.and_eq_true, Bool.and_eq_true] at hup
    exact hup.1.1
  have hq3 : (s.port port).q3 = [] := by
    simp only [State.outEmpty, Bool.and_eq_true, List.isEmpty_iff] at hemp
    exact hemp.2
  obtain ⟨x, hcell, htyp, hdest, hpay⟩ : ∃ x : Cell, ((s.quietWindow port).port port).q3 = [{ cell := x, stomp := false }] ∧ x.typ = 1 ∧
      x.dest = s.rd (R.RING_TEST_DEST (portRing port)) ∧ x.payload = (prbsBytes (s.port port).prbsTx 256).1 := by
    unfold State.quietWindow
    rw [if_pos (by simp [hup, hemp, hloop, htest, hq])]
    generalize hp : ({ s.port port with win := 0, beSent := 0, carryIn := (s.port port).carryOut, carryOut := 0, paced := 0, testSent := 0 } : Port) = p
    have hport : (s.setPort port p).port port = p := State.port_setPort_same _ _ _
    have hpq : p.q3 = [] := by rw [← hp, hq3]
    have hcell := State.testGen_cell (u := s.setPort port p) hspur hmute htest (by rw [hport, ← hp]; exact hrate) (by rw [hport, hpq]; decide)
    rw [hport, hpq] at hcell
    obtain ⟨c, hc, htyp, hdest, hpay⟩ := hcell
    exact ⟨c, hc, htyp, hdest, by rw [hpay, ← hp]⟩
  obtain ⟨q, hwin⟩ := s.quietWindow_ports port
  rw [hwin] at hcell
  have hout : ({ s with ports := q } : State).outIdle port = false := by
    have hne : ({ s with ports := q } : State).outEmpty port = false := by simp [State.outEmpty, hcell]
    rw [State.outIdle, hne]
    exact decide_eq_false hloop
  have heq : s.quietExit port = forL (({ s with ports := q } : State).quietLanes port) (fun k a => a.wr (R.LNE_STATE_TXPS k) 0) { s with ports := q } := by
    unfold State.quietExit
    dsimp only
    rw [hwin, hex, hout, if_pos (by rfl)]
  obtain ⟨hlanes, hframe⟩ := State.quietLeft (s := s) (u := { s with ports := q }) (port := port) (fun _ => rfl) ((sameElse.refl s []).of_eq rfl rfl rfl) rfl
  obtain ⟨_, hrest⟩ := (({ s with ports := q } : State).sweep txps_inj (({ s with ports := q } : State).quietLanes port) 0).rest
  refine completes_eq rfl heq ⟨⟨x, ?_, htyp, hdest, hpay⟩, hlanes, hframe⟩
  rw [hrest]
  exact hcell

end

/-! ### The refreshing of a QUIET output -/

theorem State.markers_length (id : Nat) (n : Nat) (s : State) :
    (forN n (fun _ (a : State) => a.sendCodeword id (markerMessage (a.portWidth id))) s).out.length = s.out.length + n := by
  induction n with
  | zero => rfl
  | succ n ih =>
    rw [forN_succ]
    exact congrArg (· + 1) ih

theorem quietRefresh_markers {s : State} {port : Nat} (hex : portExists s.build port = true) (hq : s.quietLanes port ≠ []) :
    completes (.quietRefresh port) s (fun t => sameElse s t [] ∧ onWire s t port (.refresh port) ∧ t.out.length = s.out.length + 9) := by
  have hwired : Wired (s.emit (.refresh port)) (s.wireMarkers port) port :=
    forN_inv (fun a => Wired (s.emit (.refresh port)) a port) (.refl _ _) fun _ a ha => ha.trans (a.sendCodeword_wired port _)
  refine completes_eq rfl (if_pos (by simp [hex, hq])) ⟨?_, hwired.2.1, ?_⟩
  · exact ((sameElse.refl s []).of_eq rfl rfl rfl).trans (hwired.frame [])
  · exact State.markers_length port 8 (s.emit (.refresh port))

/-- Settles O29: a port's lanes and their stages, their failures, loss of lock, and QUIET. -/
theorem laneBringUp : Obligations.LaneBringUp := by
  unfold Obligations.LaneBringUp
  intro lane port s hport howner hon hawake hlanes hlane
  have a : OnPort s lane port := ⟨hport, howner, hon, hawake, hlanes, hlane⟩
  refine ⟨laneStage_advances a, laneStage_polarity a, laneStage_order a, laneStage_eye a,
    fun i hst => ⟨laneStage_behind a i hst, laneStage_neigh a i hst, laneStage_wakes a i hst⟩,
    fun i hst => ⟨fun hok hsend => (laneStage_linked a i hst hsend).1 hok, fun hok hsend => (laneStage_linked a i hst hsend).2 hok⟩,
    fun i hst => ⟨laneStage_measures a i hst, laneStage_up a i hst⟩,
    fun _ => stageTimeout_failed a, lossOfLock_loop a, lossOfLock_up a, portRetry_restarts a, quietEnter_tx, quietExit_tx,
    fun hup hemp hq hloop hp => ⟨quietExit_idle hemp hp, quietExit_test hup hemp hq hloop⟩, fun hup => ⟨?_, ?_⟩, quietRefresh_markers⟩
  · exact completes_eq rfl rfl (quietFollow_spec hup (by decide) (by decide))
  · exact completes_eq rfl rfl (quietFollow_spec hup (by decide) (by decide))

end Sys2Proof.Machine
end
